-- ==== Sys2Proof/Word.lean ====
section
/-! DEFINITION. The words of the machine. -/

namespace Sys2Proof

/-- A byte of memory (R4: little-endian everywhere). -/
abbrev Byte := BitVec 8
/-- A 32-bit register or instruction word. -/
abbrev Word := BitVec 32
/-- A 64-bit register, address pair or service register. -/
abbrev DWord := BitVec 64

end Sys2Proof
end

