-- ==== Sys2Proof/Machine/Float.lean ====
section
/-! DEFINITION. Number formats (chapter 05): exact values, reading, the one rounding of R104, and the
exact sums and products that instructions round. -/

namespace Sys2Proof.Machine

/-! ### Flags (R77) -/

/-- Inexact. -/
def fNX : BitVec 6 := 1
/-- Underflow. -/
def fUF : BitVec 6 := 2
/-- Overflow. -/
def fOF : BitVec 6 := 4
/-- Division by zero. -/
def fDZ : BitVec 6 := 8
/-- Invalid operation. -/
def fNV : BitVec 6 := 16
/-- Saturated. -/
def fSAT : BitVec 6 := 32

/-- The number formats of R106, R109, R110 and the integer targets of R142. -/
inductive Fmt | fp32 | bf16 | fp16 | e4m3 | e5m2 | e2m1 | int8 | int4 | e3m5 | s32 | u32
  deriving DecidableEq, Repr, Inhabited

/-- An exact value: NaN, an infinity, or (−1)^neg · num · 2^exp; a zero keeps its sign. -/
inductive FVal
  | nan
  | inf (neg : Bool)
  | fin (neg : Bool) (num : Nat) (exp : Int)
  deriving DecidableEq, Repr, Inhabited

/-- Width in bits. -/
def Fmt.width : Fmt → Nat
  | .fp32 => 32 | .bf16 => 16 | .fp16 => 16 | .e4m3 => 8 | .e5m2 => 8 | .e2m1 => 4
  | .int8 => 8 | .int4 => 4 | .e3m5 => 8 | .s32 => 32 | .u32 => 32
/-- Fraction bits F of R106 and R110. -/
def Fmt.frac : Fmt → Nat
  | .fp32 => 23 | .bf16 => 7 | .fp16 => 10 | .e4m3 => 3 | .e5m2 => 2 | .e2m1 => 1 | .e3m5 => 5 | _ => 0
/-- Bias of R106 and R110. -/
def Fmt.bias : Fmt → Nat
  | .fp32 => 127 | .bf16 => 127 | .fp16 => 15 | .e4m3 => 7 | .e5m2 => 15 | .e2m1 => 1 | .e3m5 => 3 | _ => 0
/-- The code of the largest finite value M, without sign (R106, R110). -/
def Fmt.maxCode : Fmt → Nat
  | .fp32 => 0x7F7FFFFF | .bf16 => 0x7F7F | .fp16 => 0x7BFF | .e4m3 => 0x7E | .e5m2 => 0x7B | .e2m1 => 7
  | .e3m5 => 0xFF | _ => 0
/-- The canonical NaN of R107; 0 where the format has none. -/
def Fmt.canonNaN : Fmt → Nat
  | .fp32 => 0x7FC00000 | .bf16 => 0x7FC0 | .fp16 => 0x7E00 | .e5m2 => 0x7E | .e4m3 => 0x7F | _ => 0
/-- The code of +∞, where the format has it (R107). -/
def Fmt.infCode : Fmt → Option Nat
  | .fp32 => some 0x7F800000 | .bf16 => some 0x7F80 | .fp16 => some 0x7C00 | .e5m2 => some 0x7C | _ => none
/-- The range of an integer format (R109, R142). -/
def Fmt.range : Fmt → Option (Int × Int)
  | .int8 => some (-128, 127) | .int4 => some (-8, 7)
  | .s32 => some (-2 ^ 31, 2 ^ 31 - 1) | .u32 => some (0, 2 ^ 32 - 1) | _ => none
/-- The sign bit of a code, 0 in an unsigned format. -/
def Fmt.signBit (f : Fmt) (neg : Bool) : Nat :=
  if neg && decide (f ≠ .e3m5) then 2 ^ (f.width - 1) else 0

/-- R106: the value of a code with a fraction field, its sign given. -/
def floatVal (f : Fmt) (neg : Bool) (mag : Nat) : FVal :=
  let e := mag / 2 ^ f.frac
  let m := mag % 2 ^ f.frac
  if e = 0 then .fin neg m (1 - (f.bias : Int) - f.frac)
  else .fin neg (2 ^ f.frac + m) ((e : Int) - f.bias - f.frac)

/-- `ReadF` of R104: the exact value of a code; BF16 subnormals read as zero of their sign (R114). -/
def readF (f : Fmt) (code : Nat) : FVal :=
  let c := code % 2 ^ f.width
  match f.range with
  | some (lo, _) =>
    if decide (lo < 0) && decide (2 ^ (f.width - 1) ≤ c) then .fin true (2 ^ f.width - c) 0 else .fin false c 0
  | none =>
    if f = .e3m5 then floatVal f false c
    else
      let neg := decide (2 ^ (f.width - 1) ≤ c)
      let mag := c % 2 ^ (f.width - 1)
      match f.infCode with
      | some ic =>
        if mag = ic then .inf neg
        else if ic < mag then .nan
        else if f = .bf16 ∧ mag < 0x80 then .fin neg 0 0
        else floatVal f neg mag
      | none => if f = .e4m3 ∧ mag = 0x7F then .nan else floatVal f neg mag

/-- The value is a NaN. -/
def FVal.isNaN : FVal → Bool | .nan => true | _ => false
/-- The value is a zero of either sign. -/
def FVal.isZero : FVal → Bool | .fin _ 0 _ => true | _ => false
/-- The sign of a value; a NaN has none. -/
def FVal.sign : FVal → Bool | .nan => false | .inf n => n | .fin n _ _ => n
/-- The opposite value. -/
def FVal.neg : FVal → FVal | .nan => .nan | .inf n => .inf (!n) | .fin n m e => .fin (!n) m e
/-- The magnitude. -/
def FVal.abs : FVal → FVal | .nan => .nan | .inf _ => .inf false | .fin _ m e => .fin false m e

/-- Numerator of num · 2^exp as a fraction. -/
def fracNum (m : Nat) (e : Int) : Nat := m * 2 ^ e.toNat
/-- Denominator of num · 2^exp as a fraction. -/
def fracDen (e : Int) : Nat := 2 ^ (-e).toNat

/-- The exact product, and NV when it is 0 · ∞ (R136, R154). -/
def mulV (a b : FVal) : FVal × BitVec 6 :=
  match a, b with
  | .nan, _ => (.nan, 0)
  | _, .nan => (.nan, 0)
  | .inf n, .inf k => (.inf (n != k), 0)
  | .inf n, .fin k m _ => if m = 0 then (.nan, fNV) else (.inf (n != k), 0)
  | .fin k m _, .inf n => if m = 0 then (.nan, fNV) else (.inf (n != k), 0)
  | .fin n x e, .fin k y d => (.fin (n != k) (x * y) (e + d), 0)

/-- A finite value as an integer multiple of 2^lo, lo at or below its exponent. -/
def scaledInt (lo : Int) : FVal → Int
  | .fin n m e => if n then -((m * 2 ^ (e - lo).toNat : Nat) : Int) else ((m * 2 ^ (e - lo).toNat : Nat) : Int)
  | _ => 0
/-- The exponent of a finite value. -/
def FVal.expo : FVal → Int | .fin _ _ e => e | _ => 0

/-- The exact sum of values (R121, R136, R154): NaN without a flag when a value is a NaN; NaN with NV
when both infinities occur; −0 only when every addend is −0. -/
def sumV (l : List FVal) : FVal × BitVec 6 :=
  if l.any FVal.isNaN then (.nan, 0)
  else
    let pinf := l.any (fun v => decide (v = .inf false))
    let ninf := l.any (fun v => decide (v = .inf true))
    if pinf && ninf then (.nan, fNV)
    else if pinf then (.inf false, 0)
    else if ninf then (.inf true, 0)
    else
      let lo := l.foldl (fun a v => min a v.expo) 0
      let t := l.foldl (fun a v => a + scaledInt lo v) 0
      if t = 0 then (.fin (!l.isEmpty && l.all (fun v => v.isZero && v.sign)) 0 0, 0)
      else (.fin (decide (t < 0)) t.natAbs lo, 0)

/-- ⌊log2 (n / d)⌋ of a positive fraction. -/
def log2Frac (n d : Nat) : Int :=
  let e : Int := (Nat.log2 n : Int) - (Nat.log2 d : Int)
  if d * 2 ^ e.toNat ≤ n * 2 ^ (-e).toNat then e else e - 1

/-- n / d rounded to an integer: toward zero, or to nearest with ties to even (R104 step 2). -/
def roundNat (rtz : Bool) (n d : Nat) : Nat :=
  let k := n / d
  let r := n % d
  if rtz then k
  else if d < 2 * r then k + 1
  else if 2 * r = d ∧ k % 2 = 1 then k + 1
  else k

/-- `Round` of R104 for a finite exact magnitude n / d (d not 0) of a sign, with R118 and R119: the code
and the flags. -/
def roundFin (f : Fmt) (rtz sat neg : Bool) (n d : Nat) : Nat × BitVec 6 :=
  match f.range with
  | some (lo, hi) =>
    let k := roundNat rtz n d
    let y : Int := if neg then -(k : Int) else k
    let nx := if n % d = 0 then 0 else fNX
    if lo ≤ y ∧ y ≤ hi then ((y % (2 ^ f.width : Int)).toNat, nx)
    else if sat then (((if y < lo then lo else hi) % (2 ^ f.width : Int)).toNat, fOF ||| fNX ||| fSAT)
    else ((y % (2 ^ f.width : Int)).toNat, fOF ||| fNX)
  | none =>
    if n = 0 then (f.signBit neg, 0)
    else if f = .e3m5 ∧ neg then (0, fNV)
    else
      let e := log2Frac n d
      let emin : Int := 1 - (f.bias : Int)
      let q : Int := max e emin - f.frac
      let num := n * 2 ^ (-q).toNat
      let den := d * 2 ^ q.toNat
      let k := roundNat rtz num den
      let code : Int := (q + f.frac + f.bias) * 2 ^ f.frac + (k : Int) - 2 ^ f.frac
      let sb := f.signBit neg
      if (f.maxCode : Int) < code then
        let top := (f.maxCode + sb, fOF ||| fNX ||| fSAT)
        match f with
        | .e2m1 => top
        | .e3m5 => top
        | _ =>
          if sat then top
          else if rtz then (f.maxCode + sb, fOF ||| fNX)
          else match f.infCode with
            | some ic => (ic + sb, fOF ||| fNX)
            | none => (f.canonNaN, fOF ||| fNX ||| fNV)
      else
        let inexact := decide (num % den ≠ 0)
        (code.toNat + sb,
          (if inexact then fNX else 0) ||| (if inexact && decide (e < emin) then fUF else 0))

/-- R120: a NaN or an infinity meeting a target. -/
def roundSpecial (f : Fmt) (sat : Bool) : FVal → Nat × BitVec 6
  | .inf neg =>
    match f with
    | .e4m3 => if sat then (f.maxCode + f.signBit neg, fSAT) else (f.canonNaN, fNV)
    | .e2m1 => (f.maxCode + f.signBit neg, fSAT)
    | .e3m5 => if neg then (0, fNV) else (0xFF, fSAT)
    | _ =>
      match f.range with
      | some (lo, hi) =>
        if sat then (((if neg then lo else hi) % (2 ^ f.width : Int)).toNat, fSAT) else (0, fNV)
      | none => if sat then (f.maxCode + f.signBit neg, fSAT) else (f.infCode.getD 0 + f.signBit neg, 0)
  | _ =>
    match f with
    | .fp32 | .bf16 | .fp16 | .e5m2 | .e4m3 => (f.canonNaN, 0)
    | _ => (0, fNV)

/-- `Round` of R104 for any exact value, with R118 to R120. -/
def roundV (f : Fmt) (rtz sat : Bool) (v : FVal) : Nat × BitVec 6 :=
  match v with
  | .fin neg m e => roundFin f rtz sat neg (fracNum m e) (fracDen e)
  | _ => roundSpecial f sat v

/-- The result of an arithmetic instruction (R136): the canonical NaN, ±∞ without a flag, or one
rounding with RNE. -/
def roundArith (f : Fmt) (sat : Bool) (p : FVal × BitVec 6) : Nat × BitVec 6 :=
  match p.1 with
  | .nan => (f.canonNaN, p.2)
  | .inf neg => (f.infCode.getD 0 + f.signBit neg, p.2)
  | .fin neg m e =>
    let r := roundFin f false sat neg (fracNum m e) (fracDen e)
    (r.1, r.2 ||| p.2)

/-- a is below b, as values; NaNs compare false. -/
def ltV (a b : FVal) : Bool :=
  match a, b with
  | .nan, _ => false
  | _, .nan => false
  | .inf n, .inf k => n && !k
  | .inf n, .fin _ _ _ => n
  | .fin _ _ _, .inf k => !k
  | .fin n x e, .fin k y d =>
    decide (scaledInt (min e d) (.fin n x e) < scaledInt (min e d) (.fin k y d))
/-- a and b are equal as values, −0 equal to +0. -/
def eqV (a b : FVal) : Bool := !a.isNaN && !b.isNaN && !ltV a b && !ltV b a
/-- a is below b in the order of `FMIN` and `FMAX`, −0 below +0 (R137). -/
def ltMinMax (a b : FVal) : Bool := ltV a b || (eqV a b && a.sign && !b.sign)

/-- `FMAX` of R137 on two codes of a format, each read by ReadF: the code of the larger; a BF16
subnormal counts, and comes back, as a zero of its sign (R139, R169). -/
def maxCodeOf (f : Fmt) (a b : Nat) : Nat :=
  let va := readF f a
  let vb := readF f b
  let flush := fun (v : FVal) (c : Nat) => if f = .bf16 ∧ v.isZero then f.signBit v.sign else c
  if va.isNaN && vb.isNaN then f.canonNaN
  else if va.isNaN then flush vb b
  else if vb.isNaN then flush va a
  else if ltMinMax va vb then flush vb b else flush va a
/-- `FMIN` of R137 on two FP32 codes. -/
def minCodeOf (f : Fmt) (a b : Nat) : Nat :=
  let va := readF f a
  let vb := readF f b
  if va.isNaN && vb.isNaN then f.canonNaN
  else if va.isNaN then b
  else if vb.isNaN then a
  else if ltMinMax va vb then a else b

/-! ### Scaled elements (R112, R113) -/

/-- A BF16 code is a subnormal. -/
def bf16Sub (x : Nat) : Bool := decide (x / 2 ^ 7 % 2 ^ 8 = 0) && decide (x % 2 ^ 7 ≠ 0)
/-- R112: the value of an element under a block entry and a band entry (absent under block), with NV
when it forms 0 · ∞.  Under a subnormal band entry a NaN code stays a NaN (DESIGN CHOICE, log 51). -/
def scaledVal (f : Fmt) (q : Nat) (block : Nat) (band : Option Nat) : FVal × BitVec 6 :=
  if block % 256 = 0 then (.fin false 0 0, 0)
  else
    let b := readF .e3m5 block
    match readF f q with
    | .nan => (.nan, 0)
    | v =>
      match band with
      | none => mulV v b
      | some nb =>
        match readF .bf16 nb with
        | .nan => (.nan, 0)
        | n =>
          if bf16Sub nb then (.fin (v.sign != n.sign) 0 0, 0)
          else mulV v (mulV b n).1

/-- The exact quotient of R122, rounded: x / (B · N) under a format; x finite. -/
def roundQuot (f : Fmt) (rtz sat : Bool) (x : FVal) (block : Nat) : Nat × BitVec 6 :=
  if block % 256 = 0 then
    match x with
    | .fin _ m _ => (0, if m = 0 then 0 else fNX)
    | _ => (0, fNV)
  else
    match x, readF .e3m5 block with
    | .fin neg m e, .fin _ bm be =>
      roundFin f rtz sat neg (fracNum m (e - be)) (bm * fracDen (e - be))
    | v, _ => roundSpecial f sat v

end Sys2Proof.Machine
end

