-- ==== Sys2Proof/Config.lean ====
section
/-! DEFINITION. What the spec does not give and an implementation, a fuse or a key fixes: free values.
None has a body that a proof can see. -/

namespace Sys2Proof.Config

/-- R366: where the two primes of a package's identity key are sought.  The key is the device's own. -/
opaque identitySeed (p : Nat) (second : Bool) : Nat
/-- R362, R366: the fresh salt of the n-th signature drawn. -/
opaque signatureSalt (n : Nat) : BitVec 512
/-- R367: the device's X.509 certificate in DER form, which binds a public modulus to a DEVID, at most 3,968 bytes of it. -/
opaque identityCertificate (devid : BitVec 64) (modulus : Nat) : List Byte
/-- R340: the compressed form of a page in the archive zone. -/
opaque archiveBytes (page : List Byte) : List Byte
/-- R340: its length in 64-byte units, for a page that is not all zero; read modulo 64. -/
opaque archiveLength (page : List Byte) : Nat
/-- R341: the handle that the archive engine prefers for its n-th record. -/
opaque archiveChoice (n : Nat) : Nat
/-- R172: byte o of the array folio of the n-th spill, after its version. -/
opaque folioByte (n o : Nat) : Byte
/-- The n-th value left open: `%hfa` after a handler condition without an address (R376), WORD of a
frame whose word could not be fetched (R371), and the order in which a nondeterministic collective
adds (R186, R273). -/
opaque freeWord (n : Nat) : BitVec 64

end Sys2Proof.Config
end

