-- ==== Sys2Proof/Syntax.lean ====
section
/-! DEFINITION. The instructions and events of the Soldon SX8: one constructor for each row of
spec/opcode_table.json.  Rows with a word carry the fields of that word (chapter 04); rows without a
word are events, and carry what names the party, unit or entry they happen to. -/

namespace Sys2Proof

/-- R84, R85: the guard of a word that is not reserved. -/
inductive Guard
  | always
  | pred (neg : Bool) (depth : Nat)
  deriving DecidableEq, Repr, Inhabited

/-- The access sizes of `LD` and `ST` (R210). -/
inductive Size | b | h | w | p
  deriving DecidableEq, Repr, Inhabited
/-- The conditions of `ICMP` (R96, major 0x14). -/
inductive ICond | eq | ne | lt | le | gt | ge | ltU | leU | gtU | geU
  deriving DecidableEq, Repr, Inhabited
/-- The conditions of `FCMP` (R96, major 0x15). -/
inductive FCond | eq | ne | lt | le | gt | ge | un | ord
  deriving DecidableEq, Repr, Inhabited
/-- The conditions of `GCMP` (R96, major 0x18). -/
inductive GCond | eq | ne | lt | ge
  deriving DecidableEq, Repr, Inhabited
/-- The spaces of `LDT` and `STT` (R216). -/
inductive TSpace | global | core | cluster
  deriving DecidableEq, Repr, Inhabited
/-- The operations of `ATOM` (R220). -/
inductive AtomOp | add | and | or | xor | min | max | minU | maxU | exch | fadd
  deriving DecidableEq, Repr, Inhabited
/-- The operations of `CCTL` (R223). -/
inductive CacheOp | clean | inv | invd
  deriving DecidableEq, Repr, Inhabited
/-- The engine counter classes (R246). -/
inductive CClass | copy | stream | matrix | coll | store
  deriving DecidableEq, Repr, Inhabited
/-- The operations of `REDUCE` (R174). -/
inductive RedOp | add | fadd | min | max | and | or | xor | minU | maxU
  deriving DecidableEq, Repr, Inhabited
/-- The operations of `COLL` (R267). -/
inductive CollOp | copy | sum | max | permute | sumAccum
  deriving DecidableEq, Repr, Inhabited
/-- The scopes of `HALT` and `RESUME` (R386). -/
inductive HScope | team | clus | grid
  deriving DecidableEq, Repr, Inhabited

/-- What package reset samples: fuses, straps, the firmware images and what training finds (R23 to
R25, R362, R420, R421).  All of it is an input: the spec gives no value. -/
structure BootInputs where
  pkgRev : Nat
  sparARev : Nat
  sparBRev : Nat
  mastRev : Nat
  dbgLock : Bool
  dcCarve : Nat
  ep0 : Bool
  present : Nat
  keyDigest : List (BitVec 8)
  minVersion : List Nat
  images : List (List (BitVec 8))
  hbmFail : List Nat
  dieFail : List Nat
  deadPorts : List Nat
  deriving DecidableEq, Repr, Inhabited

/-- What UNIT_PLACEMENT places: a waiting unit of a level, or a waiting lane group. -/
inductive UnitRef
  | unit (u : Nat)
  | group (c : Nat)
  deriving DecidableEq, Repr, Inhabited

/-- A memory operation of an application-core hart (R20, R21). -/
inductive AppOp
  | load (sz : Size)
  | store (sz : Size) (v : BitVec 64)
  | amo (op : AtomOp) (wide : Bool) (v : BitVec 64) (aq rl : Bool)
  | lr (wide : Bool) (aq rl : Bool)
  | sc (wide : Bool) (v : BitVec 64) (aq rl : Bool)
  | fence (predR predW succR succW : Bool)
  deriving DecidableEq, Repr, Inhabited

/-- The privilege of an application core's access: user mode, or supervisor mode with its SUM bit. -/
inductive AppPriv
  | user
  | super (sum : Bool)
  deriving DecidableEq, Repr, Inhabited

/-- What a hart asks for: an operation, at a privilege. -/
structure AppReq where
  priv : AppPriv
  op : AppOp
  deriving DecidableEq, Repr, Inhabited

/-- The instructions (with a word) and the events (without) of spec/opcode_table.json. -/
inductive Instr
  /-- IADD (R133): Wrapping 32-bit add of two vector registers. -/
  | iadd (g : Guard) (d : Nat) (a : Nat) (b : Nat)
  /-- ISUB (R133): Wrapping 32-bit subtract. -/
  | isub (g : Guard) (d : Nat) (a : Nat) (b : Nat)
  /-- IMUL (R133): Wrapping 32-bit multiply. -/
  | imul (g : Guard) (d : Nat) (a : Nat) (b : Nat)
  /-- IMULHI (R133): High 32 bits of the signed 64-bit product. -/
  | imulhi (g : Guard) (d : Nat) (a : Nat) (b : Nat)
  /-- IMULHI_U (R133): High 32 bits of the unsigned 64-bit product. -/
  | imulhiU (g : Guard) (d : Nat) (a : Nat) (b : Nat)
  /-- IMAD (R133): Wrapping multiply-add into the destination. -/
  | imad (g : Guard) (d : Nat) (a : Nat) (b : Nat)
  /-- IMIN (R133): Signed minimum. -/
  | imin (g : Guard) (d : Nat) (a : Nat) (b : Nat)
  /-- IMIN_U (R133): Unsigned minimum. -/
  | iminU (g : Guard) (d : Nat) (a : Nat) (b : Nat)
  /-- IMAX (R133): Signed maximum. -/
  | imax (g : Guard) (d : Nat) (a : Nat) (b : Nat)
  /-- IMAX_U (R133): Unsigned maximum. -/
  | imaxU (g : Guard) (d : Nat) (a : Nat) (b : Nat)
  /-- IADDS (R133): Signed saturating add. -/
  | iadds (g : Guard) (d : Nat) (a : Nat) (b : Nat)
  /-- IADDS_U (R133): Unsigned saturating add. -/
  | iaddsU (g : Guard) (d : Nat) (a : Nat) (b : Nat)
  /-- ISUBS (R133): Signed saturating subtract. -/
  | isubs (g : Guard) (d : Nat) (a : Nat) (b : Nat)
  /-- ISUBS_U (R133): Unsigned saturating subtract. -/
  | isubsU (g : Guard) (d : Nat) (a : Nat) (b : Nat)
  /-- IDOT4 (R133): Four-way signed byte dot product accumulated into the destination. -/
  | idot4 (g : Guard) (d : Nat) (a : Nat) (b : Nat)
  /-- LEA (R134): Adds a signed 32-bit offset to a 64-bit register-pair address. -/
  | lea (g : Guard) (d : Nat) (a : Nat) (b : Nat)
  /-- IABS (R133): Wrapping absolute value. -/
  | iabs (g : Guard) (d : Nat) (a : Nat)
  /-- INEG (R133): Wrapping negation. -/
  | ineg (g : Guard) (d : Nat) (a : Nat)
  /-- AND (R133): Bitwise AND. -/
  | and (g : Guard) (d : Nat) (a : Nat) (b : Nat)
  /-- OR (R133): Bitwise OR. -/
  | or (g : Guard) (d : Nat) (a : Nat) (b : Nat)
  /-- XOR (R133): Bitwise XOR. -/
  | xor (g : Guard) (d : Nat) (a : Nat) (b : Nat)
  /-- ANDN (R133): A AND NOT B. -/
  | andn (g : Guard) (d : Nat) (a : Nat) (b : Nat)
  /-- NOT (R133): Bitwise NOT. -/
  | not (g : Guard) (d : Nat) (a : Nat)
  /-- SHL (R133): Logical shift left, zero for counts of 32 or more. -/
  | shl (g : Guard) (d : Nat) (a : Nat) (b : Nat)
  /-- SHR (R133): Logical shift right, zero for counts of 32 or more. -/
  | shr (g : Guard) (d : Nat) (a : Nat) (b : Nat)
  /-- SAR (R133): Arithmetic shift right by min(B, 31). -/
  | sar (g : Guard) (d : Nat) (a : Nat) (b : Nat)
  /-- ROTL (R133): Rotate left by B[4:0]. -/
  | rotl (g : Guard) (d : Nat) (a : Nat) (b : Nat)
  /-- POPC (R133): Population count. -/
  | popc (g : Guard) (d : Nat) (a : Nat)
  /-- CLZ (R133): Count leading zeros. -/
  | clz (g : Guard) (d : Nat) (a : Nat)
  /-- BREV (R133): Bit reverse. -/
  | brev (g : Guard) (d : Nat) (a : Nat)
  /-- SEL (R133): Selects A or B by predicate depth 0. -/
  | sel (g : Guard) (d : Nat) (a : Nat) (b : Nat)
  /-- MOV (R133): Register copy. -/
  | mov (g : Guard) (d : Nat) (a : Nat)
  /-- IADD_IMM (R135): Wrapping add of a signed immediate. -/
  | iaddImm (g : Guard) (d : Nat) (a : Nat) (imm : Int)
  /-- BFX (R135): Bit-field extract, zero-extended. -/
  | bfx (g : Guard) (d : Nat) (a : Nat) (pos : Nat) (len : Nat)
  /-- BFI (R135): Bit-field insert into the destination. -/
  | bfi (g : Guard) (d : Nat) (a : Nat) (pos : Nat) (len : Nat)
  /-- MOVI (R135): Moves a sign-extended immediate. -/
  | movi (g : Guard) (d : Nat) (imm : Int)
  /-- MOVHI (R135): Writes bits [31:16] from imm16, keeping [15:0]. -/
  | movhi (g : Guard) (d : Nat) (imm : Nat)
  /-- FADD (R137): FP32 add, rounded RNE. -/
  | fadd (g : Guard) (d : Nat) (a : Nat) (b : Nat)
  /-- FSUB (R137): FP32 subtract. -/
  | fsub (g : Guard) (d : Nat) (a : Nat) (b : Nat)
  /-- FMUL (R137): FP32 multiply. -/
  | fmul (g : Guard) (d : Nat) (a : Nat) (b : Nat)
  /-- FFMA (R137): FP32 fused multiply-add, rounded once. -/
  | ffma (g : Guard) (d : Nat) (a : Nat) (b : Nat)
  /-- FMIN (R137): FP32 minimum with -0 below +0. -/
  | fmin (g : Guard) (d : Nat) (a : Nat) (b : Nat)
  /-- FMAX (R137): FP32 maximum with -0 below +0. -/
  | fmax (g : Guard) (d : Nat) (a : Nat) (b : Nat)
  /-- FABS (R137): Clears the sign bit. -/
  | fabs (g : Guard) (d : Nat) (a : Nat)
  /-- FNEG (R137): Inverts the sign bit. -/
  | fneg (g : Guard) (d : Nat) (a : Nat)
  /-- FCPYS (R137): Copies B's sign onto A. -/
  | fcpys (g : Guard) (d : Nat) (a : Nat) (b : Nat)
  /-- FCLASS (R137): Writes a one-hot class mask of A. -/
  | fclass (g : Guard) (d : Nat) (a : Nat)
  /-- FRCP (R138): Correctly rounded reciprocal. -/
  | frcp (g : Guard) (d : Nat) (a : Nat)
  /-- FRSQ (R138): Correctly rounded reciprocal square root. -/
  | frsq (g : Guard) (d : Nat) (a : Nat)
  /-- FSQRT (R138): Correctly rounded square root. -/
  | fsqrt (g : Guard) (d : Nat) (a : Nat)
  /-- FEXP2 (R138): Correctly rounded base-2 exponential. -/
  | fexp2 (g : Guard) (d : Nat) (a : Nat)
  /-- FLOG2 (R138): Correctly rounded base-2 logarithm. -/
  | flog2 (g : Guard) (d : Nat) (a : Nat)
  /-- FTANH (R138): Correctly rounded hyperbolic tangent. -/
  | ftanh (g : Guard) (d : Nat) (a : Nat)
  /-- HFMA2_BF (R139): Packed BF16 fused multiply-add. -/
  | hfma2Bf (g : Guard) (d : Nat) (a : Nat) (b : Nat)
  /-- HFMA2_H (R139): Packed FP16 fused multiply-add. -/
  | hfma2H (g : Guard) (d : Nat) (a : Nat) (b : Nat)
  /-- HADD2_BF (R139): Packed BF16 add. -/
  | hadd2Bf (g : Guard) (d : Nat) (a : Nat) (b : Nat)
  /-- HADD2_H (R139): Packed FP16 add. -/
  | hadd2H (g : Guard) (d : Nat) (a : Nat) (b : Nat)
  /-- HMUL2_BF (R139): Packed BF16 multiply. -/
  | hmul2Bf (g : Guard) (d : Nat) (a : Nat) (b : Nat)
  /-- HMUL2_H (R139): Packed FP16 multiply. -/
  | hmul2H (g : Guard) (d : Nat) (a : Nat) (b : Nat)
  /-- HMAX2_BF (R139): Packed BF16 maximum. -/
  | hmax2Bf (g : Guard) (d : Nat) (a : Nat) (b : Nat)
  /-- HMAX2_H (R139): Packed FP16 maximum. -/
  | hmax2H (g : Guard) (d : Nat) (a : Nat) (b : Nat)
  /-- CVT (R141): Converts FP32 into element k of the destination through a format slot. -/
  | cvt (g : Guard) (d : Nat) (a : Nat) (f : Nat) (k : Nat)
  /-- CVTI (R142): Converts between FP32 and 32-bit integers as the selector chooses. -/
  | cvti (g : Guard) (d : Nat) (a : Nat) (f : Nat) (k : Nat)
  /-- PACK (R141): Places A's low bits into element k without conversion. -/
  | pack (g : Guard) (d : Nat) (a : Nat) (f : Nat) (k : Nat)
  /-- UNPACK (R141): Extracts element k of A, sign- or zero-extended. -/
  | unpack (g : Guard) (d : Nat) (a : Nat) (f : Nat) (k : Nat)
  /-- QNTV (R143): Quantises W FP32 registers into one packed register with an E3M5 block scale in s(8k). -/
  | qntv (g : Guard) (d : Nat) (a : Nat) (f : Nat) (k : Nat)
  /-- DQNTV (R141): Dequantises element k of A to FP32 under the slot. -/
  | dqntv (g : Guard) (d : Nat) (a : Nat) (f : Nat) (k : Nat)
  /-- CVTEF (R124): Error-feedback conversion of A into element k using residue e_k. -/
  | cvtef (g : Guard) (d : Nat) (a : Nat) (f : Nat) (k : Nat)
  /-- ICMP (R144): Integer compare that pushes the outcome onto the predicate stack. -/
  | icmp (g : Guard) (a : Nat) (b : Nat) (c : ICond)
  /-- FCMP (R144): FP32 compare that pushes the outcome. -/
  | fcmp (g : Guard) (a : Nat) (b : Nat) (c : FCond)
  /-- PPUSH (R145): Pushes (A != 0). -/
  | ppush (g : Guard) (a : Nat)
  /-- PPOP (R145): Pops the predicate stack. -/
  | ppop (g : Guard)
  /-- PDUP (R145): Pushes p[i]. -/
  | pdup (g : Guard) (i : Nat)
  /-- PSWAP (R145): Exchanges p[0] and p[i]. -/
  | pswap (g : Guard) (i : Nat)
  /-- PNOT (R145): Pushes NOT p[i]. -/
  | pnot (g : Guard) (i : Nat)
  /-- PAND (R145): Pushes p[i] AND p[j]. -/
  | pand (g : Guard) (i : Nat) (j : Nat)
  /-- POR (R145): Pushes p[i] OR p[j]. -/
  | por (g : Guard) (i : Nat) (j : Nat)
  /-- PXOR (R145): Pushes p[i] XOR p[j]. -/
  | pxor (g : Guard) (i : Nat) (j : Nat)
  /-- PROT (R145): Rotates the predicate stack by i. -/
  | prot (g : Guard) (i : Nat)
  /-- PTOV (R145): Writes p[i] into a vector register. -/
  | ptov (g : Guard) (d : Nat) (i : Nat)
  /-- VOTE_ANY (R145): Pushes the OR of p[i] over the voting lanes. -/
  | voteAny (g : Guard) (i : Nat)
  /-- VOTE_ALL (R145): Pushes the AND of p[i] over the voting lanes. -/
  | voteAll (g : Guard) (i : Nat)
  /-- VOTE_BALLOT (R145): Writes the mask of voting lanes whose p[i] is set. -/
  | voteBallot (g : Guard) (d : Nat) (i : Nat)
  /-- GMOV (R146): Copies a uniform register into a vector register. -/
  | gmov (g : Guard) (d : Nat) (a : Nat)
  /-- GADD (R146): Uniform wrapping add. -/
  | gadd (g : Guard) (d : Nat) (a : Nat) (b : Nat)
  /-- GSUB (R146): Uniform wrapping subtract. -/
  | gsub (g : Guard) (d : Nat) (a : Nat) (b : Nat)
  /-- GMUL (R146): Uniform wrapping multiply. -/
  | gmul (g : Guard) (d : Nat) (a : Nat) (b : Nat)
  /-- GAND (R146): Uniform AND. -/
  | gand (g : Guard) (d : Nat) (a : Nat) (b : Nat)
  /-- GOR (R146): Uniform OR. -/
  | gor (g : Guard) (d : Nat) (a : Nat) (b : Nat)
  /-- GSHL (R146): Uniform shift left. -/
  | gshl (g : Guard) (d : Nat) (a : Nat) (b : Nat)
  /-- GSHR (R146): Uniform shift right. -/
  | gshr (g : Guard) (d : Nat) (a : Nat) (b : Nat)
  /-- GCMP (R146): Uniform signed compare that pushes the outcome. -/
  | gcmp (g : Guard) (a : Nat) (b : Nat) (c : GCond)
  /-- GREAD (R146): Copies the leader lane's vector value into a uniform register. -/
  | gread (g : Guard) (d : Nat) (a : Nat)
  /-- GMOVI (R147): Writes a sign-extended immediate to a uniform register. -/
  | gmovi (g : Guard) (d : Nat) (imm : Int)
  /-- GLD (R148): One 4-byte global load into a uniform register through the leader lane. -/
  | gld (g : Guard) (d : Nat) (b : Nat) (off : Int)
  /-- GST (R148): One 4-byte global store from a uniform register through the leader lane. -/
  | gst (g : Guard) (d : Nat) (b : Nat) (off : Int)
  /-- BRA (R149): PC-relative branch per lane. -/
  | bra (g : Guard) (imm : Int)
  /-- CALL (R149): PC-relative call writing the return address to a register pair. -/
  | call (g : Guard) (d : Nat) (imm : Int)
  /-- BRX (R149): Indirect branch to a register-pair address. -/
  | brx (g : Guard) (a : Nat)
  /-- CALLX (R149): Indirect call with return address to a pair. -/
  | callx (g : Guard) (d : Nat) (a : Nat)
  /-- RET (R149): Return to a register-pair address. -/
  | ret (g : Guard) (a : Nat)
  /-- EXIT (R51): The lane exits; the group retires once all its operations complete. -/
  | exit (g : Guard)
  /-- YIELD (R306): Yields the team if its core carries a pre-emption request, otherwise acts as a YLD hint. -/
  | yield (g : Guard)
  /-- SLEEP (R308): Makes the lane ineligible for A reference ticks. -/
  | sleep (g : Guard) (a : Nat)
  /-- NOP (R149): No operation. -/
  | nop (g : Guard)
  /-- RGN (R309): Replaces the group's region set and stages its registers. -/
  | rgn (g : Guard) (d : Nat) (mask : Nat)
  /-- LD (R210): Unordered global load of byte, half, word or pair. -/
  | ld (g : Guard) (d : Nat) (b : Nat) (off : Int) (sz : Size) (sx : Bool)
  /-- LD_ACQ (R211): Global load followed by an acquire at the named level. -/
  | ldAcq (g : Guard) (d : Nat) (b : Nat) (lvl : Nat) (sz : Size) (sx : Bool)
  /-- ST (R210): Unordered global store. -/
  | st (g : Guard) (d : Nat) (b : Nat) (off : Int) (sz : Size)
  /-- ST_REL (R211): Release at the named level followed by a global store. -/
  | stRel (g : Guard) (d : Nat) (b : Nat) (lvl : Nat) (sz : Size)
  /-- LDC (R212): Core-store load. -/
  | ldc (g : Guard) (d : Nat) (b : Nat) (off : Int) (sz : Size)
  /-- STC (R212): Core-store store. -/
  | stc (g : Guard) (d : Nat) (b : Nat) (off : Int) (sz : Size)
  /-- LDK (R212): Cluster-memory load. -/
  | ldk (g : Guard) (d : Nat) (b : Nat) (off : Int) (sz : Size)
  /-- STK (R212): Cluster-memory store. -/
  | stk (g : Guard) (d : Nat) (b : Nat) (off : Int) (sz : Size)
  /-- LDL (R212): Lane-stash load. -/
  | ldl (g : Guard) (d : Nat) (b : Nat) (off : Int) (sz : Size)
  /-- STL (R212): Lane-stash store, performed at issue. -/
  | stl (g : Guard) (d : Nat) (b : Nat) (off : Int) (sz : Size)
  /-- LDM (R214): Loads n consecutive vector registers from global memory. -/
  | ldm (g : Guard) (d : Nat) (b : Nat) (n : Nat)
  /-- STM (R214): Stores n consecutive vector registers to global memory. -/
  | stm (g : Guard) (d : Nat) (b : Nat) (n : Nat)
  /-- LDT (R216): Loads one 1 KiB tile and clears its binding. -/
  | ldt (g : Guard) (t : Nat) (sp : TSpace) (b : Nat) (off : Int)
  /-- STT (R216): Stores one tile. -/
  | stt (g : Guard) (t : Nat) (sp : TSpace) (b : Nat) (off : Int)
  /-- LDSC (R218): Loads a tile and its scale run as data and scale streams, binding on completion. -/
  | ldsc (g : Guard) (d : Nat) (b : Nat) (f : Nat)
  /-- ATOM (R220): 32-bit read-modify-write at the word's home with release and acquire at the level. -/
  | atom (g : Guard) (d : Nat) (b : Nat) (lvl : Nat) (op : AtomOp)
  /-- CAS (R221): Compare-and-swap at the word's home, pushing the comparison outcome. -/
  | cas (g : Guard) (d : Nat) (b : Nat) (lvl : Nat)
  /-- LDX (R219): Copies global bytes into core store per lane, counting into a barrier object. -/
  | ldx (g : Guard) (d : Nat) (b : Nat) (c : Nat)
  /-- PREF (R222): Prefetches a line into the core data cache or die cache. -/
  | pref (g : Guard) (die : Bool) (b : Nat) (off : Int)
  /-- CCTL (R223): Cleans or invalidates a cache line. -/
  | cctl (g : Guard) (op : CacheOp) (b : Nat) (off : Int)
  /-- SFILL_A (R158): Fills n positions of the A operand stream. -/
  | sfillA (g : Guard) (d : Nat) (b : Nat) (off : Int)
  /-- SFILL_B (R158): Fills n positions of the B operand stream. -/
  | sfillB (g : Guard) (d : Nat) (b : Nat) (off : Int)
  /-- MBINIT (R251): Initialises a barrier object. -/
  | mbinit (g : Guard) (a : Nat) (b : Nat)
  /-- MBEXPECT (R251): Adds expected bytes to a barrier object's phase. -/
  | mbexpect (g : Guard) (a : Nat) (b : Nat)
  /-- MBARRIVE (R251): Arrives at a barrier object as a release at L2. -/
  | mbarrive (g : Guard) (a : Nat)
  /-- MBWAIT (R251): Waits until the object's phase differs from the given parity. -/
  | mbwait (g : Guard) (d : Nat) (a : Nat) (b : Nat)
  /-- MBTEST (R251): Pushes whether the object's phase differs from the parity. -/
  | mbtest (g : Guard) (a : Nat) (b : Nat)
  /-- WAITC (R247): Waits until at most n operations of a counter class are outstanding. -/
  | waitc (g : Guard) (c : CClass) (n : Nat)
  /-- CNTRD (R248): Reads an engine counter into a uniform register. -/
  | cntrd (g : Guard) (d : Nat) (c : CClass)
  /-- CVDECL (R161): Declares a convergence register's signer mask. -/
  | cvdecl (g : Guard) (v : Nat) (a : Nat)
  /-- CVSIGN (R161): Signs a convergence set for the declared lanes. -/
  | cvsign (g : Guard) (v : Nat)
  /-- MMA (R162): Posts one matrix pass from the streams under a complete convergence set. -/
  | mma (g : Guard) (ka : Bool) (kb : Bool) (c : Nat) (fa : Nat) (fb : Nat) (v : Nat)
  /-- PROCFG (R155): Sets the INT4 prologue group size. -/
  | procfg (g : Guard) (s64 : Bool)
  /-- ACCRD_T (R165): Drains an accumulator into a tile through a slot. -/
  | accrdT (g : Guard) (d : Nat) (c : Nat) (f : Nat) (h : Nat)
  /-- ACCRD_V (R165): Drains an accumulator into vector registers. -/
  | accrdV (g : Guard) (d : Nat) (c : Nat) (f : Nat)
  /-- ACCRD_C (R165): Drains an accumulator image into core store. -/
  | accrdC (g : Guard) (d : Nat) (c : Nat) (f : Nat)
  /-- ACCWR (R166): Writes an accumulator from a tile's FP32 image. -/
  | accwr (g : Guard) (c : Nat) (a : Nat)
  /-- ACCZ (R166): Zeroes an accumulator. -/
  | accz (g : Guard) (c : Nat)
  /-- SBIND_T (R168): Binds a tile to a scale run. -/
  | sbindT (g : Guard) (d : Nat) (a : Nat) (f : Nat)
  /-- SBIND_V (R168): Binds a vector register to a scale register. -/
  | sbindV (g : Guard) (d : Nat) (a : Nat)
  /-- SUNBIND_T (R168): Clears a tile's BOUND. -/
  | sunbindT (g : Guard) (d : Nat)
  /-- SUNBIND_V (R168): Clears a vector register's BOUND. -/
  | sunbindV (g : Guard) (d : Nat)
  /-- STAGRD (R168): Reads a tag or scale control word into a vector register. -/
  | stagrd (g : Guard) (d : Nat) (x : Nat) (k : Nat)
  /-- SMOV (R169): Copies a scale run, advancing the destination's GEN. -/
  | smov (g : Guard) (d : Nat) (a : Nat) (n : Nat)
  /-- SMUL (R169): Multiplies block or band entries of a run by a uniform FP32 factor. -/
  | smul (g : Guard) (d : Nat) (a : Nat) (n : Nat) (band : Bool)
  /-- SADD (R169): Adds a source run's entries into a destination run. -/
  | sadd (g : Guard) (d : Nat) (a : Nat) (n : Nat) (band : Bool)
  /-- SMAX (R169): Takes the larger of matching entries of two runs. -/
  | smax (g : Guard) (d : Nat) (a : Nat) (n : Nat) (band : Bool)
  /-- SLD (R170): Loads a 40-byte scale record, advancing GEN. -/
  | sld (g : Guard) (d : Nat) (b : Nat) (off : Int)
  /-- SST (R170): Stores a scale record. -/
  | sst (g : Guard) (d : Nat) (b : Nat) (off : Int)
  /-- LAUNCH (R290): A level-k sequencer creates n children at level k-1 as a release. -/
  | launch (g : Guard) (lvl : Nat) (x : Nat) (y : Nat)
  /-- TSPLIT (R291): Computes this unit's part of an extent by the block rule. -/
  | tsplit (g : Guard) (lvl : Nat) (x : Nat) (y : Nat)
  /-- TSPLIT_X (R291): Computes an explicitly indexed part of an extent. -/
  | tsplitX (g : Guard) (x : Nat) (y : Nat)
  /-- EVQRD (R292): Reads and removes the oldest or tag-matched event record, optionally waiting. -/
  | evqrd (g : Guard) (lvl : Nat) (x : Nat) (y : Nat) (m : Bool) (w : Bool)
  /-- BAR (R293): Barrier among a level's participants, or a sequencer's join of its children. -/
  | bar (g : Guard) (lvl : Nat)
  /-- FENCE_REL (R296): Release fence at the named scope. -/
  | fenceRel (g : Guard) (lvl : Nat)
  /-- FENCE_ACQ (R296): Acquire fence at the named scope. -/
  | fenceAcq (g : Guard) (lvl : Nat)
  /-- FENCE_ACQREL (R296): Combined acquire-release fence. -/
  | fenceAcqrel (g : Guard) (lvl : Nat)
  /-- FENCE_SC (R296): Sequentially consistent fence in the total order S. -/
  | fenceSc (g : Guard) (lvl : Nat)
  /-- MCOPY_DOWN (R252): Multicast copy from level memory to children's memories. -/
  | mcopyDown (g : Guard) (lvl : Nat) (x : Nat) (y : Nat) (r : Bool)
  /-- MCOPY_UP (R252): Gather copy from children's memories into level memory. -/
  | mcopyUp (g : Guard) (lvl : Nat) (x : Nat) (y : Nat) (r : Bool)
  /-- REDUCE (R178): Reduces voting lanes' values into a register or memory word at the named level. -/
  | reduce (g : Guard) (lvl : Nat) (x : Nat) (y : Nat) (op : RedOp) (one : Bool) (r : Bool)
  /-- CMBOPEN (R191): Opens a combine slot and returns its handle. -/
  | cmbopen (g : Guard) (d : Nat) (a : Nat)
  /-- CMBPUT (R192): Sends an expert row and gate weight to a combine slot. -/
  | cmbput (g : Guard) (d : Nat) (a : Nat) (b : Nat)
  /-- CMBWAIT (R196): Waits for a combine slot's release and returns its release word. -/
  | cmbwait (g : Guard) (d : Nat) (a : Nat)
  /-- CMBWAIT_BATCH (R196): Waits until no slot of a batch is open and returns its substitution count. -/
  | cmbwaitBatch (g : Guard) (d : Nat) (a : Nat)
  /-- CMBCLOSE (R197): Sets an open slot's release point now and writes its row. -/
  | cmbclose (g : Guard) (a : Nat)
  /-- CMBCLOSE_DROP (R197): Releases an open slot without writing a row. -/
  | cmbcloseDrop (g : Guard) (a : Nat)
  /-- CMBSTAT (R198): Reads a combine slot's masks or state. -/
  | cmbstat (g : Guard) (d : Nat) (a : Nat) (s : Nat)
  /-- COLL (R267): Issues a collective between two layouts and returns a ticket. -/
  | coll (g : Guard) (d : Nat) (a : Nat) (op : CollOp)
  /-- COLLWAIT (R274): Waits until a ticket is done and returns its status word. -/
  | collwait (g : Guard) (d : Nat) (a : Nat)
  /-- COLLQ (R274): Returns a ticket's status word and pushes DONE. -/
  | collq (g : Guard) (d : Nat) (a : Nat)
  /-- LAYDEF (R266): Reads a layout descriptor and returns a layout handle. -/
  | laydef (g : Guard) (d : Nat) (a : Nat)
  /-- TRAP (R379): Software trap with a code, resuming at the next word. -/
  | trap (g : Guard) (c : Nat)
  /-- TRET (R380): Ends the handler and resumes the served group, re-injecting parked entries. -/
  | tret (g : Guard)
  /-- TRET_ABORT (R380): Ends the handler and aborts the served team with a cause. -/
  | tretAbort (g : Guard) (a : Nat)
  /-- SREAD (R150): Reads a special register into a vector or uniform register. -/
  | sread (g : Guard) (d : Nat) (u : Bool) (s : Nat)
  /-- SWRITE (R381): Writes %fpflags or %hfs. -/
  | swrite (g : Guard) (d : Nat) (u : Bool) (s : Nat)
  /-- WINSEL (R382): Selects the stopped group and region that the handler window reaches. -/
  | winsel (g : Guard) (a : Nat)
  /-- WINRD (R383): Reads a word of the selected window region per lane. -/
  | winrd (g : Guard) (d : Nat) (a : Nat)
  /-- WINWR (R383): Writes a word of the selected window region per lane. -/
  | winwr (g : Guard) (d : Nat) (a : Nat)
  /-- OPLRD (R384): Reads word w of an operand-log capture per lane. -/
  | oplrd (g : Guard) (d : Nat) (a : Nat) (w : Nat)
  /-- RQRD (R385): Reads replay-queue entry words into lanes. -/
  | rqrd (g : Guard) (d : Nat) (a : Nat)
  /-- RQINJ (R385): Replays a parked replay-queue entry now. -/
  | rqinj (g : Guard) (a : Nat)
  /-- RQDROP (R385): Drops lanes from a parked entry's PENDING mask. -/
  | rqdrop (g : Guard) (d : Nat) (a : Nat)
  /-- CTXSW_SAVE (R387): Saves the window team's whole state to a context area. -/
  | ctxswSave (g : Guard) (a : Nat)
  /-- CTXSW_RESTORE (R387): Restores the window team's state from a context area. -/
  | ctxswRestore (g : Guard) (a : Nat)
  /-- HALT (R386): Halts a team, cluster unit or grid and waits until each group is reported stopped. -/
  | halt (g : Guard) (s : HScope)
  /-- RESUME (R386): Clears the halt of a scope and re-injects parked entries. -/
  | resume (g : Guard) (s : HScope)
  /-- TLBI (R332): Invalidates the issuing ASID's leaf entries for a range. -/
  | tlbi (g : Guard) (d : Nat) (a : Nat)
  /-- TLBI_W (R332): Invalidates leaf and walk-cache entries for a range. -/
  | tlbiW (g : Guard) (d : Nat) (a : Nat)
  /-- ASIDGEN (R333): Advances the issuing ASID's generation and returns the new value. -/
  | asidgen (g : Guard) (d : Nat)
  /-- HNT_WIDE (R91): Wide-immediate hint concatenated above the consumer's immediate. -/
  | hntWide (imm : Nat)
  /-- HNT_SCHED (R92): Scheduling hint carrying yield, priority and latency class. -/
  | hntSched (rsvd : Nat) (y : Bool) (pv : Bool) (prio : Nat) (lv : Bool) (lat : Nat)
  /-- HNT_MOD (R93): Rare-modifier hint: stream position override, cache policy or saturate. -/
  | hntMod (code : Nat) (arg : Nat)
  /-- UNDEFINED_INSTRUCTION (R98): A lane issues a word with an undefined major or fn, a reserved guard, hint kind 0b11 or a field violation, and raises the undefined-instruction trap. -/
  | undefinedInstruction (w : Nat)
  /-- PACKAGE_RESET (R421): Package reset zeroes state, samples straps and runs boot stages 1 to 6 in order, measuring each image before it runs. -/
  | packageReset (p : Nat) (i : BootInputs)
  /-- DIE_CLOCK_STOP (R19): System software stops a compute die's clocks; its outstanding requests are held and their time-outs suspended. -/
  | dieClockStop (p : Nat) (die : Nat)
  /-- DIE_CLOCK_RESTART (R19): A stopped die restarts, resynchronises its reference count, then resumes held requests and suspended time-outs. -/
  | dieClockRestart (p : Nat) (die : Nat)
  /-- PLANE_FAILURE (R260): A shroud plane dies; the mast die drains it, remaps its logical planes, records PLANESTAT and raises a package event. -/
  | planeFailure (p : Nat) (plane : Nat)
  /-- GOVERNOR_ADJUST (R422): The power governor lowers or raises matrix and vector admission and then the core clock to hold draw under CAP. -/
  | governorAdjust (p : Nat) (mat : Nat) (vec : Nat) (freq : Nat) (draw : Nat) (limit : Bool)
  /-- QPTR_WPTR_WRITE (R282): A write of WPTR rings the queue's doorbell, and sets ERRCODE 0x03 on pointer overrun. -/
  | qptrWptrWrite (p : Nat) (m : Nat) (q : Nat) (v : Word)
  /-- QCTL_WRITE (R287): A write to QCTL sets its fields, clears STOP and ERRCODE when EN goes 0 to 1, and changes only PRIO and EN while EN is 1. -/
  | qctlWrite (p : Nat) (m : Nat) (q : Nat) (v : DWord)
  /-- EVTCNT_WRITE (R287): An owning master's write sets an event counter's COUNT at once, and later dependence checks use the new count. -/
  | evtcntWrite (p : Nat) (m : Nat) (n : Nat) (v : DWord)
  /-- LAUNCH_PACKET_DISPATCH (R283): The head launch packet whose dependences are met is read, its record validated, and its root units handed to the work distributor. -/
  | launchPacketDispatch (p : Nat) (q : Nat)
  /-- SIGNAL_PACKET_DISPATCH (R284): A signal packet adds AMOUNT modulo 2^20 to its event counter at dispatch. -/
  | signalPacketDispatch (p : Nat) (q : Nat)
  /-- WAIT_PACKET_DISPATCH (R284): A wait packet dispatches with no effect once its dependences are met. -/
  | waitPacketDispatch (p : Nat) (q : Nat)
  /-- UNIT_PLACEMENT (R288): The work distributor or a sequencer site places a waiting unit once its allocations fit, honouring PINA, DIEUP, SPLITOK and domain order. -/
  | unitPlacement (u : UnitRef)
  /-- UNIT_COMPLETE (R41): A unit completes when its sequencer has exited and every child has completed. -/
  | unitComplete (u : Nat)
  /-- GRID_END (R53): When the last root unit completes, the grid's writes flush, slots and shadow words release, and the completion record follows. -/
  | gridEnd (gr : Nat)
  /-- GROUP_SWAP (R299): A stalled active group is swapped to the pending set and the oldest ready pending group takes its position. -/
  | groupSwap (c : Nat)
  /-- PENDING_FORCED_PROMOTION (R300): A pending group ready for 2,048 cycles displaces the earliest-entered active group. -/
  | pendingForcedPromotion (c : Nat)
  /-- ISSUE_WITHDRAW (R301): An instruction that holds its slot 16 cycles without a queue entry is withdrawn until the entry frees. -/
  | issueWithdraw (c : Nat)
  /-- SLEEP_WAKE (R308): A sleeping lane becomes eligible when its die's reference count reaches the wake count. -/
  | sleepWake (c : Nat) (l : Nat)
  /-- HANG_WATCHDOG_EXPIRY (R310): A wait count reaching HANGWD raises the hang-watchdog trap, or aborts the unit on a sequencer. -/
  | hangWatchdogExpiry (c : Nat)
  /-- LINE_AGE_INVALIDATE (R240): A core data cache line not owned by any scope is invalidated 65,536 ticks after its fill. -/
  | lineAgeInvalidate (p : Nat) (core : Nat) (line : Nat)
  /-- PREEMPTION_REQUEST (R305): The work distributor requests pre-emption of a core and sets each resident team's yield deadline. -/
  | preemptionRequest (p : Nat) (core : Nat)
  /-- FORCED_YIELD (R306): A team whose yield deadline arrives before it yields is forced. -/
  | forcedYield (u : Nat)
  /-- SHADOW_BANK_SWAP (R307): Once all teams have yielded or been forced, the core swaps to its shadow bank in 48 cycles. -/
  | shadowBankSwap (p : Nat) (core : Nat)
  /-- SPILL_COMPLETE (R307): The background engine finishes spilling the outgoing context to its save area and frees its core store and accumulators. -/
  | spillComplete (p : Nat) (core : Nat)
  /-- TEAM_RESTORE (R391): A pre-empted team is restored from its save area when a fitting core is free, as an acquire at L4. -/
  | teamRestore (u : Nat)
  /-- ACCESS_PERFORMED (R239): A memory access is performed at its home, unit or local memory, releasing request slots and lowering counters. -/
  | accessPerformed (c : Nat) (e : Nat) (l : Nat)
  /-- FAULT_RECORD_FLUSH (R336): Kept fault records are written once the ring has space or EN is set. -/
  | faultRecordFlush (p : Nat)
  /-- TFREPLY_RETRY (R338): A retry reply makes every waiter of the record walk again and replay. -/
  | tfreplyRetry (p : Nat) (m : Nat) (id : Word)
  /-- TFREPLY_UNRESOLVABLE (R338): An unresolvable reply aborts waiting teams, ends copies, fails collectives or stops the packet queue. -/
  | tfreplyUnresolvable (p : Nat) (m : Nat) (id : Word)
  /-- TLBCMD_TLBI (R334): TLBCMD OP 0b01 invalidates leaf entries of an ASID's range as TLBI does. -/
  | tlbcmdTlbi (p : Nat) (m : Nat) (v : DWord)
  /-- TLBCMD_TLBI_W (R334): TLBCMD OP 0b10 invalidates leaf and walk-cache entries of the range as TLBI.w does. -/
  | tlbcmdTlbiW (p : Nat) (m : Nat) (v : DWord)
  /-- TLBCMD_ASIDGEN (R334): TLBCMD OP 0b11 advances an ASID's generation as ASIDGEN does. -/
  | tlbcmdAsidgen (p : Nat) (m : Nat) (v : DWord)
  /-- TLB_COMMAND_COMPLETE (R331): An invalidation or generation command completes once old-generation accesses are performed, and BUSY clears. -/
  | tlbCommandComplete (p : Nat)
  /-- ARCHCMD_COMPRESS (R341): Compress reads a frame and writes an archive record at a handle the engine chooses. -/
  | archcmdCompress (p : Nat) (m : Nat) (v : DWord)
  /-- ARCHCMD_EXPAND (R341): Expand writes an archived page bit for bit into a frame. -/
  | archcmdExpand (p : Nat) (m : Nat) (v : DWord)
  /-- ARCHCMD_FREE (R341): Free returns an archive record's space to the zone. -/
  | archcmdFree (p : Nat) (m : Nat) (v : DWord)
  /-- ARCH_COMMAND_COMPLETE (R341): An archive command completes, BUSY clears, and completion is a release at L4. -/
  | archCommandComplete (p : Nat)
  /-- ARCHCFG_WRITE (R340): ARCHCFG takes a write only while the zone holds no record and the zone stays below 0xC0_0000_0000. -/
  | archcfgWrite (p : Nat) (m : Nat) (v : DWord)
  /-- REGISTER_WRITE (R352): A write to a service register with no row of its own acts for an owner master and freezes any other master. -/
  | registerWrite (p : Nat) (m : Nat) (off : Nat) (v : DWord)
  /-- MSTCTL_CLAIM (R354): CLAIM makes the writer package owner when no owner exists. -/
  | mstctlClaim (p : Nat) (m : Nat)
  /-- MSTCTL_OFFER (R354): The owner offers ownership to a present, unfrozen master and starts the lapse count. -/
  | mstctlOffer (p : Nat) (m : Nat) (t : Nat)
  /-- MSTCTL_WITHDRAW (R354): The owner withdraws a standing offer. -/
  | mstctlWithdraw (p : Nat) (m : Nat)
  /-- MSTCTL_ACCEPT (R354): The offer's target accepts and becomes package owner at once. -/
  | mstctlAccept (p : Nat) (m : Nat)
  /-- MSTCTL_RELEASE (R354): The owner releases ownership, leaving no owner. -/
  | mstctlRelease (p : Nat) (m : Nat)
  /-- OFFER_LAPSE (R355): An offer lapses after 1,000,000,000 ticks or when its target is frozen or absent. -/
  | offerLapse (p : Nat)
  /-- OWNERSHIP_LOSS (R355): An owner other than master 0 absent for 1,000,000,000 ticks loses ownership. -/
  | ownershipLoss (p : Nat)
  /-- MSTFRZ_THAW (R358): The owner writes 1 to a master's FRZ bit to thaw it, resuming its held queues. -/
  | mstfrzThaw (p : Nat) (m : Nat) (v : DWord)
  /-- ATTCMD_QUOTE (R366): The security controller reads all measurement registers at one instant and writes a signed quote to the buffer. -/
  | attcmdQuote (p : Nat) (m : Nat) (v : DWord)
  /-- ATTCMD_IDENTITY_CERT (R367): The controller writes the device's X.509 identity certificate and its length to the buffer. -/
  | attcmdIdentityCert (p : Nat) (m : Nat) (v : DWord)
  /-- ATT_COMPLETE (R365): An attestation command completes as a release at L4, clearing BUSY and raising a package event. -/
  | attComplete (p : Nat)
  /-- FWUPD_LOAD (R427): A firmware load checks the image, loads it into out-of-service dies or planes or stages it, and extends MEAS7. -/
  | fwupdLoad (p : Nat) (m : Nat) (v : DWord)
  /-- FW_LOAD_COMPLETE (R427): A firmware load completes with its RESULT and raises a package event. -/
  | fwLoadComplete (p : Nat)
  /-- DIESVC_DRAIN (R424): A drain clears DIEUP, migrates movable units off the die and merges its shadow words. -/
  | diesvcDrain (p : Nat) (m : Nat) (die : Nat)
  /-- DIESVC_RETURN (R424): A return restarts the die's clocks, resynchronises its count, sets DIEUP and clears OUT. -/
  | diesvcReturn (p : Nat) (m : Nat) (die : Nat)
  /-- DIE_DRAIN_COMPLETE (R424): When no unit is left on the draining die, OUT sets, BUSY clears and a package event posts. -/
  | dieDrainComplete (p : Nat)
  /-- PLANESVC_WRITE (R425): Setting an OUT bit takes a plane no PLANEMAP entry names out of service; clearing it retrains its ports. -/
  | planesvcWrite (p : Nat) (m : Nat) (v : DWord)
  /-- PLANEMAP_WRITE (R260): An owner write changing a PLANEMAP entry drains, switches and resumes that logical plane unless the target is dead. -/
  | planemapWrite (p : Nat) (m : Nat) (v : DWord)
  /-- CORESTOP_WRITE (R377): Writing 1 to a CORESTOP bit returns a stopped core to service once its aborts complete. -/
  | corestopWrite (p : Nat) (m : Nat) (die : Nat) (wd : Nat) (v : DWord)
  /-- DBGHALT_HALT (R397): A debug halt stops the named team, cluster unit or grid as HALT does. -/
  | dbghaltHalt (p : Nat) (m : Nat) (v : DWord)
  /-- DBGHALT_RESUME (R397): A debug resume clears the halt of the named scope as RESUME does. -/
  | dbghaltResume (p : Nat) (m : Nat) (v : DWord)
  /-- CPBRKC_RELEASE (R404): Writing 1 to HIT releases a held launch packet once no breakpoint holds it and its queue is enabled. -/
  | cpbrkcRelease (p : Nat) (m : Nat) (b : Nat) (v : DWord)
  /-- BREAKPOINT_HIT (R401): A lane reaching an armed breakpoint address stops its cohort and traps or halts the group, with an optional halt broadcast. -/
  | breakpointHit (c : Nat)
  /-- TRACE_SAMPLE (R407): Every INTERVAL ticks each core with a resident group of the ASID writes one sample record. -/
  | traceSample (p : Nat) (core : Nat)
  /-- SACCTL_SNAP (R411): SNAP copies every core's slot-account counters at one reference tick. -/
  | sacctlSnap (p : Nat) (m : Nat) (v : DWord)
  /-- SACCTL_CLR (R411): CLR zeroes every slot-account counter of every core after any snapshot in the same write. -/
  | sacctlClr (p : Nat) (m : Nat) (v : DWord)
  /-- HANDLER_ENTRY (R375): The handler slot starts serving the next group of the handler queue at HVEC. -/
  | handlerEntry (p : Nat) (core : Nat)
  /-- MIGRATE_MOVE (R392): The trapped team or cluster unit stops, saves its context to pool areas and frees its Spar-B resources. -/
  | migrateMove (u : Nat)
  /-- MIGRATE_RESTORE (R392): The moved unit is placed on Spar-A and restored, resuming with an acquire at L4. -/
  | migrateRestore (u : Nat)
  /-- TEAM_ABORT (R393): A team aborts, drops unperformed work, writes an abort body and a KIND 0x8 fault record, and frees its resources. -/
  | teamAbort (u : Nat)
  /-- BLOCK_ARRIVAL (R158): A memory-sourced stream block arrives and counts its bytes into a barrier object if asked. -/
  | blockArrival (c : Nat) (e : Nat) (blk : Nat)
  /-- PASS_GRANT (R163): At a start opportunity the engine grants a ready reservation entry by age or priority. -/
  | passGrant (c : Nat)
  /-- PASS_COMPLETE (R154): A granted pass writes its accumulator in ascending K-group order and the matrix counter falls. -/
  | passComplete (c : Nat)
  /-- ACCRD_WRITE_COMPLETE (R164): An accumulator drain's writes complete and its drain-queue entry frees. -/
  | accrdWriteComplete (c : Nat) (e : Nat)
  /-- LDX_LANE_WRITE (R219): An LDX lane's bytes are written into core store and counted into its barrier object. -/
  | ldxLaneWrite (c : Nat) (e : Nat) (l : Nat)
  /-- COPY_CHUNK_WRITE (R254): An MCOPY chunk is written to its destination and counted into the barrier object if asked. -/
  | copyChunkWrite (c : Nat) (e : Nat) (ch : Nat)
  /-- DROP_NOTICE (R262): A dropped bulk packet's drop notice makes the source request a reservation from the target. -/
  | dropNotice (c : Nat) (e : Nat) (ch : Nat)
  /-- RESERVATION_GRANT (R262): A reservation grant lets the source resend the chunk at reserved priority within its window. -/
  | reservationGrant (c : Nat) (e : Nat) (ch : Nat)
  /-- RESERVATION_WINDOW_MISS (R262): A source that misses its reserved window requests a new reservation. -/
  | reservationWindowMiss (c : Nat) (e : Nat) (ch : Nat)
  /-- COLL_START (R268): A collective starts once every member has issued it and earlier collectives on its tensor handle have completed. -/
  | collStart (p : Nat) (ix : Nat)
  /-- COLL_CHUNK_ARRIVAL (R272): A halyard chunk arrives, is combined or staged, and is written or added at the last step. -/
  | collChunkArrival (p : Nat) (ix : Nat) (ch : Nat)
  /-- COLL_COMPLETE (R273): A collective completes at a member as a release, lowering the collective counter and setting DONE. -/
  | collComplete (p : Nat) (ix : Nat)
  /-- REDUCE_CONTRIBUTION (R181): A contribution arriving at a reduction unit opens a slot if needed and adds into ACC or the word. -/
  | reduceContribution (c : Nat) (e : Nat) (l : Nat)
  /-- SHADOW_LINE_EVICT (R187): Die-cache eviction of a shadow line merges its words to their homes. -/
  | shadowLineEvict (p : Nat) (die : Nat) (line : Nat)
  /-- CMBPUT_ARRIVAL (R193): A combine put reaching its unit is accepted or discarded and counted late. -/
  | cmbputArrival (c : Nat) (e : Nat)
  /-- COMBINE_TIMEOUT (R193): A combine slot's time-out at t0 + T sets its release point. -/
  | combineTimeout (p : Nat) (die : Nat) (slot : Nat)
  /-- COMBINE_RELEASE (R194): The unit serves a release point, forming the output row in ascending route order and recording SUB. -/
  | combineRelease (p : Nat) (die : Nat) (slot : Nat)
  /-- COMBINE_RELEASE_DONE (R195): After the row is written the slot frees, the event record posts and CMBWAIT waiters wake. -/
  | combineReleaseDone (p : Nat) (die : Nat) (slot : Nat)
  /-- BAR_BRIDGE_ARRIVAL (R49): A split-cluster half's arrival crossing the bridge ends phase 2 when both halves have arrived. -/
  | barBridgeArrival (u : Nat) (half : Nat)
  /-- APPLICATION_CORE_ACCESS (R21): An application-core hart's load, store, atomic or FENCE takes part in the home directory protocol and the consistency rules as a party at L5. -/
  | applicationCoreAccess (p : Nat) (hart : Nat) (asid : Nat) (va : DWord) (req : AppReq)
  /-- FETCH_FAULT (R335): A lane's instruction fetch fails on a misaligned or out-of-range target, a translation fault or a non-local aperture, making the lane ineligible or trapping the group. -/
  | fetchFault (c : Nat) (l : Nat)
  /-- FABRIC_PORT_FAILURE (R259): A UALink fabric port dies, PORTDN rises, and its plane runs on its live ports or dies when all three are dead. -/
  | fabricPortFailure (p : Nat) (port : Nat)
  /-- PORT_RETRAIN_COMPLETE (R425): A port of a plane taken back into service finishes retraining, and PLANESTAT DEAD for that plane clears. -/
  | portRetrainComplete (p : Nat) (plane : Nat)
  /-- MASTER_PRESENCE_CHANGE (R353): A master's reachability changes, for example the port 0 link or the management or pod-controller path, and its MSTOWN PRESENT bit sets or clears. -/
  | masterPresenceChange (p : Nat) (m : Nat) (up : Bool)
  /-- PACKAGE_HEARTBEAT (R430): Each package sends a heartbeat to the pod controller every 1,000,000 reference ticks. -/
  | packageHeartbeat (p : Nat)
  deriving DecidableEq, Repr

namespace Size
/-- The size code of R210. -/
def code : Size → Nat | .b => 0 | .h => 1 | .w => 2 | .p => 3
/-- The access size in bytes. -/
def bytes : Size → Nat | .b => 1 | .h => 2 | .w => 4 | .p => 8
/-- The size with a code below 4. -/
def ofCode : Nat → Size | 0 => .b | 1 => .h | 2 => .w | _ => .p
end Size
namespace ICond
/-- The code of R96 or of the field's description. -/
def code : ICond → Nat | .eq => 0 | .ne => 1 | .lt => 2 | .le => 3 | .gt => 4 | .ge => 5 | .ltU => 6 | .leU => 7 | .gtU => 8 | .geU => 9
/-- The member with a code, or the last one. -/
def ofCode : Nat → ICond | 0 => .eq | 1 => .ne | 2 => .lt | 3 => .le | 4 => .gt | 5 => .ge | 6 => .ltU | 7 => .leU | 8 => .gtU | _ => .geU
end ICond
namespace FCond
/-- The code of R96 or of the field's description. -/
def code : FCond → Nat | .eq => 0 | .ne => 1 | .lt => 2 | .le => 3 | .gt => 4 | .ge => 5 | .un => 6 | .ord => 7
/-- The member with a code, or the last one. -/
def ofCode : Nat → FCond | 0 => .eq | 1 => .ne | 2 => .lt | 3 => .le | 4 => .gt | 5 => .ge | 6 => .un | _ => .ord
end FCond
namespace GCond
/-- The code of R96 or of the field's description. -/
def code : GCond → Nat | .eq => 0 | .ne => 1 | .lt => 2 | .ge => 3
/-- The member with a code, or the last one. -/
def ofCode : Nat → GCond | 0 => .eq | 1 => .ne | 2 => .lt | _ => .ge
end GCond
namespace TSpace
/-- The code of R96 or of the field's description. -/
def code : TSpace → Nat | .global => 0 | .core => 1 | .cluster => 2
/-- The member with a code, or the last one. -/
def ofCode : Nat → TSpace | 0 => .global | 1 => .core | _ => .cluster
end TSpace
namespace AtomOp
/-- The code of R96 or of the field's description. -/
def code : AtomOp → Nat | .add => 0 | .and => 1 | .or => 2 | .xor => 3 | .min => 4 | .max => 5 | .minU => 6 | .maxU => 7 | .exch => 8 | .fadd => 9
/-- The member with a code, or the last one. -/
def ofCode : Nat → AtomOp | 0 => .add | 1 => .and | 2 => .or | 3 => .xor | 4 => .min | 5 => .max | 6 => .minU | 7 => .maxU | 8 => .exch | _ => .fadd
end AtomOp
namespace CacheOp
/-- The code of R96 or of the field's description. -/
def code : CacheOp → Nat | .clean => 0 | .inv => 1 | .invd => 2
/-- The member with a code, or the last one. -/
def ofCode : Nat → CacheOp | 0 => .clean | 1 => .inv | _ => .invd
end CacheOp
namespace CClass
/-- The code of R96 or of the field's description. -/
def code : CClass → Nat | .copy => 0 | .stream => 1 | .matrix => 2 | .coll => 3 | .store => 4
/-- The member with a code, or the last one. -/
def ofCode : Nat → CClass | 0 => .copy | 1 => .stream | 2 => .matrix | 3 => .coll | _ => .store
end CClass
namespace RedOp
/-- The code of R96 or of the field's description. -/
def code : RedOp → Nat | .add => 0 | .fadd => 1 | .min => 2 | .max => 3 | .and => 4 | .or => 5 | .xor => 6 | .minU => 7 | .maxU => 8
/-- The member with a code, or the last one. -/
def ofCode : Nat → RedOp | 0 => .add | 1 => .fadd | 2 => .min | 3 => .max | 4 => .and | 5 => .or | 6 => .xor | 7 => .minU | _ => .maxU
end RedOp
namespace CollOp
/-- The code of R96 or of the field's description. -/
def code : CollOp → Nat | .copy => 0 | .sum => 1 | .max => 2 | .permute => 3 | .sumAccum => 4
/-- The member with a code, or the last one. -/
def ofCode : Nat → CollOp | 0 => .copy | 1 => .sum | 2 => .max | 3 => .permute | _ => .sumAccum
end CollOp
namespace HScope
/-- The code of R96 or of the field's description. -/
def code : HScope → Nat | .team => 0 | .clus => 1 | .grid => 2
/-- The member with a code, or the last one. -/
def ofCode : Nat → HScope | 0 => .team | 1 => .clus | _ => .grid
end HScope
end Sys2Proof
end

