-- ==== Sys2Proof/WellFormed.lean ====
section
/-! DEFINITION. Well-formed instructions: the rules of R84 to R88 and of the descriptions that the
word alone decides (check order 3 of R98).  A word that breaks one is an undefined instruction. -/

namespace Sys2Proof

/-- R84: a guard names depths 0 to 3. -/
def Guard.wf : Guard → Bool
  | .always => true
  | .pred _ k => decide (k < 4)

/-- Check order 3 of R98, as far as the word alone decides it.  Level fields 6 and 7 are well formed:
they raise the illegal-level trap at order 4.  Events have no word and are not well formed; neither
is the undefined instruction, which stands for the words that nothing well formed encodes to. -/
def wellFormed : Instr → Bool
  | .iadd g d a b => g.wf && decide (d < 64) && decide (a < 64) && decide (b < 64)
  | .isub g d a b => g.wf && decide (d < 64) && decide (a < 64) && decide (b < 64)
  | .imul g d a b => g.wf && decide (d < 64) && decide (a < 64) && decide (b < 64)
  | .imulhi g d a b => g.wf && decide (d < 64) && decide (a < 64) && decide (b < 64)
  | .imulhiU g d a b => g.wf && decide (d < 64) && decide (a < 64) && decide (b < 64)
  | .imad g d a b => g.wf && decide (d < 64) && decide (a < 64) && decide (b < 64)
  | .imin g d a b => g.wf && decide (d < 64) && decide (a < 64) && decide (b < 64)
  | .iminU g d a b => g.wf && decide (d < 64) && decide (a < 64) && decide (b < 64)
  | .imax g d a b => g.wf && decide (d < 64) && decide (a < 64) && decide (b < 64)
  | .imaxU g d a b => g.wf && decide (d < 64) && decide (a < 64) && decide (b < 64)
  | .iadds g d a b => g.wf && decide (d < 64) && decide (a < 64) && decide (b < 64)
  | .iaddsU g d a b => g.wf && decide (d < 64) && decide (a < 64) && decide (b < 64)
  | .isubs g d a b => g.wf && decide (d < 64) && decide (a < 64) && decide (b < 64)
  | .isubsU g d a b => g.wf && decide (d < 64) && decide (a < 64) && decide (b < 64)
  | .idot4 g d a b => g.wf && decide (d < 64) && decide (a < 64) && decide (b < 64)
  | .lea g d a b => g.wf && decide (d < 64) && decide (a < 64) && decide (b < 64) && decide (d % 2 = 0) && decide (a % 2 = 0)
  | .iabs g d a => g.wf && decide (d < 64) && decide (a < 64)
  | .ineg g d a => g.wf && decide (d < 64) && decide (a < 64)
  | .and g d a b => g.wf && decide (d < 64) && decide (a < 64) && decide (b < 64)
  | .or g d a b => g.wf && decide (d < 64) && decide (a < 64) && decide (b < 64)
  | .xor g d a b => g.wf && decide (d < 64) && decide (a < 64) && decide (b < 64)
  | .andn g d a b => g.wf && decide (d < 64) && decide (a < 64) && decide (b < 64)
  | .not g d a => g.wf && decide (d < 64) && decide (a < 64)
  | .shl g d a b => g.wf && decide (d < 64) && decide (a < 64) && decide (b < 64)
  | .shr g d a b => g.wf && decide (d < 64) && decide (a < 64) && decide (b < 64)
  | .sar g d a b => g.wf && decide (d < 64) && decide (a < 64) && decide (b < 64)
  | .rotl g d a b => g.wf && decide (d < 64) && decide (a < 64) && decide (b < 64)
  | .popc g d a => g.wf && decide (d < 64) && decide (a < 64)
  | .clz g d a => g.wf && decide (d < 64) && decide (a < 64)
  | .brev g d a => g.wf && decide (d < 64) && decide (a < 64)
  | .sel g d a b => g.wf && decide (d < 64) && decide (a < 64) && decide (b < 64)
  | .mov g d a => g.wf && decide (d < 64) && decide (a < 64)
  | .iaddImm g d a imm => g.wf && decide (d < 64) && decide (a < 64) && decide (-512 ≤ imm ∧ imm ≤ 511)
  | .bfx g d a pos len => g.wf && decide (d < 64) && decide (a < 64) && decide (pos < 32) && decide (1 ≤ len ∧ len ≤ 32)
  | .bfi g d a pos len => g.wf && decide (d < 64) && decide (a < 64) && decide (pos < 32) && decide (1 ≤ len ∧ len ≤ 32)
  | .movi g d imm => g.wf && decide (d < 64) && decide (-32768 ≤ imm ∧ imm ≤ 32767)
  | .movhi g d imm => g.wf && decide (d < 64) && decide (imm < 65536)
  | .fadd g d a b => g.wf && decide (d < 64) && decide (a < 64) && decide (b < 64)
  | .fsub g d a b => g.wf && decide (d < 64) && decide (a < 64) && decide (b < 64)
  | .fmul g d a b => g.wf && decide (d < 64) && decide (a < 64) && decide (b < 64)
  | .ffma g d a b => g.wf && decide (d < 64) && decide (a < 64) && decide (b < 64)
  | .fmin g d a b => g.wf && decide (d < 64) && decide (a < 64) && decide (b < 64)
  | .fmax g d a b => g.wf && decide (d < 64) && decide (a < 64) && decide (b < 64)
  | .fabs g d a => g.wf && decide (d < 64) && decide (a < 64)
  | .fneg g d a => g.wf && decide (d < 64) && decide (a < 64)
  | .fcpys g d a b => g.wf && decide (d < 64) && decide (a < 64) && decide (b < 64)
  | .fclass g d a => g.wf && decide (d < 64) && decide (a < 64)
  | .frcp g d a => g.wf && decide (d < 64) && decide (a < 64)
  | .frsq g d a => g.wf && decide (d < 64) && decide (a < 64)
  | .fsqrt g d a => g.wf && decide (d < 64) && decide (a < 64)
  | .fexp2 g d a => g.wf && decide (d < 64) && decide (a < 64)
  | .flog2 g d a => g.wf && decide (d < 64) && decide (a < 64)
  | .ftanh g d a => g.wf && decide (d < 64) && decide (a < 64)
  | .hfma2Bf g d a b => g.wf && decide (d < 64) && decide (a < 64) && decide (b < 64)
  | .hfma2H g d a b => g.wf && decide (d < 64) && decide (a < 64) && decide (b < 64)
  | .hadd2Bf g d a b => g.wf && decide (d < 64) && decide (a < 64) && decide (b < 64)
  | .hadd2H g d a b => g.wf && decide (d < 64) && decide (a < 64) && decide (b < 64)
  | .hmul2Bf g d a b => g.wf && decide (d < 64) && decide (a < 64) && decide (b < 64)
  | .hmul2H g d a b => g.wf && decide (d < 64) && decide (a < 64) && decide (b < 64)
  | .hmax2Bf g d a b => g.wf && decide (d < 64) && decide (a < 64) && decide (b < 64)
  | .hmax2H g d a b => g.wf && decide (d < 64) && decide (a < 64) && decide (b < 64)
  | .cvt g d a f k => g.wf && decide (d < 64) && decide (a < 64) && decide (f < 8) && decide (k < 8)
  | .cvti g d a f k => g.wf && decide (d < 64) && decide (a < 64) && decide (f < 8) && decide (k < 8) && decide (k < 4)
  | .pack g d a f k => g.wf && decide (d < 64) && decide (a < 64) && decide (f < 8) && decide (k < 8)
  | .unpack g d a f k => g.wf && decide (d < 64) && decide (a < 64) && decide (f < 8) && decide (k < 8)
  | .qntv g d a f k => g.wf && decide (d < 64) && decide (a < 64) && decide (f < 8) && decide (k < 8)
  | .dqntv g d a f k => g.wf && decide (d < 64) && decide (a < 64) && decide (f < 8) && decide (k < 8)
  | .cvtef g d a f k => g.wf && decide (d < 64) && decide (a < 64) && decide (f < 8) && decide (k < 8)
  | .icmp g a b _ => g.wf && decide (a < 64) && decide (b < 64)
  | .fcmp g a b _ => g.wf && decide (a < 64) && decide (b < 64)
  | .ppush g a => g.wf && decide (a < 64)
  | .ppop g => g.wf
  | .pdup g i => g.wf && decide (i < 4)
  | .pswap g i => g.wf && decide (1 ≤ i ∧ i ≤ 7)
  | .pnot g i => g.wf && decide (i < 4)
  | .pand g i j => g.wf && decide (i < 4) && decide (j < 4)
  | .por g i j => g.wf && decide (i < 4) && decide (j < 4)
  | .pxor g i j => g.wf && decide (i < 4) && decide (j < 4)
  | .prot g i => g.wf && decide (1 ≤ i ∧ i ≤ 7)
  | .ptov g d i => g.wf && decide (d < 64) && decide (i < 4)
  | .voteAny g i => g.wf && decide (i < 4)
  | .voteAll g i => g.wf && decide (i < 4)
  | .voteBallot g d i => g.wf && decide (d < 64) && decide (i < 4)
  | .gmov g d a => g.wf && decide (d < 64) && decide (a < 64)
  | .gadd g d a b => g.wf && decide (d < 64) && decide (a < 64) && decide (b < 64)
  | .gsub g d a b => g.wf && decide (d < 64) && decide (a < 64) && decide (b < 64)
  | .gmul g d a b => g.wf && decide (d < 64) && decide (a < 64) && decide (b < 64)
  | .gand g d a b => g.wf && decide (d < 64) && decide (a < 64) && decide (b < 64)
  | .gor g d a b => g.wf && decide (d < 64) && decide (a < 64) && decide (b < 64)
  | .gshl g d a b => g.wf && decide (d < 64) && decide (a < 64) && decide (b < 64)
  | .gshr g d a b => g.wf && decide (d < 64) && decide (a < 64) && decide (b < 64)
  | .gcmp g a b _ => g.wf && decide (a < 64) && decide (b < 64)
  | .gread g d a => g.wf && decide (d < 64) && decide (a < 64)
  | .gmovi g d imm => g.wf && decide (d < 64) && decide (-32768 ≤ imm ∧ imm ≤ 32767)
  | .gld g d b off => g.wf && decide (d < 64) && decide (b < 64) && decide (-32 ≤ off ∧ off ≤ 31) && decide (b % 2 = 0)
  | .gst g d b off => g.wf && decide (d < 64) && decide (b < 64) && decide (-32 ≤ off ∧ off ≤ 31) && decide (b % 2 = 0)
  | .bra g imm => g.wf && decide (-32768 ≤ imm ∧ imm ≤ 32767)
  | .call g d imm => g.wf && decide (d < 64) && decide (-32768 ≤ imm ∧ imm ≤ 32767) && decide (d % 2 = 0)
  | .brx g a => g.wf && decide (a < 64) && decide (a % 2 = 0)
  | .callx g d a => g.wf && decide (d < 64) && decide (a < 64) && decide (d % 2 = 0) && decide (a % 2 = 0)
  | .ret g a => g.wf && decide (a < 64) && decide (a % 2 = 0)
  | .exit g => g.wf
  | .yield g => g.wf
  | .sleep g a => g.wf && decide (a < 64)
  | .nop g => g.wf
  | .rgn g d mask => g.wf && decide (d < 64) && decide (mask < 65536) && (List.range 16).all (fun j => !(mask.testBit j) || decide (d + j < 64))
  | .ld g d b off sz sx => g.wf && decide (d < 64) && decide (b < 64) && decide (-32 ≤ off ∧ off ≤ 31) && decide (b % 2 = 0) && (!sx || decide (sz = .b ∨ sz = .h)) && (decide (sz ≠ .p) || decide (d % 2 = 0))
  | .ldAcq g d b lvl sz sx => g.wf && decide (d < 64) && decide (b < 64) && decide (b % 2 = 0) && (!sx || decide (sz = .b ∨ sz = .h)) && (decide (sz ≠ .p) || decide (d % 2 = 0)) && decide (lvl < 8)
  | .st g d b off sz => g.wf && decide (d < 64) && decide (b < 64) && decide (-32 ≤ off ∧ off ≤ 31) && decide (b % 2 = 0) && (decide (sz ≠ .p) || decide (d % 2 = 0))
  | .stRel g d b lvl sz => g.wf && decide (d < 64) && decide (b < 64) && decide (b % 2 = 0) && (decide (sz ≠ .p) || decide (d % 2 = 0)) && decide (lvl < 8)
  | .ldc g d b off sz => g.wf && decide (d < 64) && decide (b < 64) && decide (-32 ≤ off ∧ off ≤ 31) && (decide (sz ≠ .p) || decide (d % 2 = 0))
  | .stc g d b off sz => g.wf && decide (d < 64) && decide (b < 64) && decide (-32 ≤ off ∧ off ≤ 31) && (decide (sz ≠ .p) || decide (d % 2 = 0))
  | .ldk g d b off sz => g.wf && decide (d < 64) && decide (b < 64) && decide (-32 ≤ off ∧ off ≤ 31) && (decide (sz ≠ .p) || decide (d % 2 = 0))
  | .stk g d b off sz => g.wf && decide (d < 64) && decide (b < 64) && decide (-32 ≤ off ∧ off ≤ 31) && (decide (sz ≠ .p) || decide (d % 2 = 0))
  | .ldl g d b off sz => g.wf && decide (d < 64) && decide (b < 64) && decide (-32 ≤ off ∧ off ≤ 31) && (decide (sz ≠ .p) || decide (d % 2 = 0))
  | .stl g d b off sz => g.wf && decide (d < 64) && decide (b < 64) && decide (-32 ≤ off ∧ off ≤ 31) && (decide (sz ≠ .p) || decide (d % 2 = 0))
  | .ldm g d b n => g.wf && decide (d < 64) && decide (b < 64) && decide (b % 2 = 0) && decide (1 ≤ n ∧ n ≤ 16) && decide (d + n ≤ 64)
  | .stm g d b n => g.wf && decide (d < 64) && decide (b < 64) && decide (b % 2 = 0) && decide (1 ≤ n ∧ n ≤ 16) && decide (d + n ≤ 64)
  | .ldt g t sp b off => g.wf && decide (b < 64) && decide (-32 ≤ off ∧ off ≤ 31) && decide (t < 16) && (decide (sp ≠ .global) || decide (b % 2 = 0))
  | .stt g t sp b off => g.wf && decide (b < 64) && decide (-32 ≤ off ∧ off ≤ 31) && decide (t < 16) && (decide (sp ≠ .global) || decide (b % 2 = 0))
  | .ldsc g d b f => g.wf && decide (d < 64) && decide (b < 64) && decide (b % 4 = 0) && decide (f < 8)
  | .atom g d b lvl _ => g.wf && decide (d < 64) && decide (b < 64) && decide (b % 2 = 0) && decide (lvl < 8)
  | .cas g d b lvl => g.wf && decide (d < 64) && decide (b < 64) && decide (b % 2 = 0) && decide (lvl < 8) && decide (d % 2 = 0)
  | .ldx g d b c => g.wf && decide (d < 64) && decide (b < 64) && decide (b % 2 = 0) && decide (c < 64)
  | .pref g _ b off => g.wf && decide (b < 64) && decide (-32 ≤ off ∧ off ≤ 31) && decide (b % 2 = 0)
  | .cctl g _ b off => g.wf && decide (b < 64) && decide (-32 ≤ off ∧ off ≤ 31) && decide (b % 2 = 0)
  | .sfillA g d b off => g.wf && decide (d < 64) && decide (b < 64) && decide (-32 ≤ off ∧ off ≤ 31) && decide (b % 2 = 0)
  | .sfillB g d b off => g.wf && decide (d < 64) && decide (b < 64) && decide (-32 ≤ off ∧ off ≤ 31) && decide (b % 2 = 0)
  | .mbinit g a b => g.wf && decide (a < 64) && decide (b < 64)
  | .mbexpect g a b => g.wf && decide (a < 64) && decide (b < 64)
  | .mbarrive g a => g.wf && decide (a < 64)
  | .mbwait g d a b => g.wf && decide (d < 64) && decide (a < 64) && decide (b < 64)
  | .mbtest g a b => g.wf && decide (a < 64) && decide (b < 64)
  | .waitc g _ n => g.wf && decide (n < 64)
  | .cntrd g d _ => g.wf && decide (d < 64)
  | .cvdecl g v a => g.wf && decide (a < 64) && decide (v < 8)
  | .cvsign g v => g.wf && decide (v < 8)
  | .mma g _ _ c fa fb v => g.wf && decide (c < 8) && decide (fa < 8) && decide (fb < 8) && decide (v < 8)
  | .procfg g _ => g.wf
  | .accrdT g d c f h => g.wf && decide (d < 16) && decide (c < 8) && decide (f < 8) && decide (h < 8)
  | .accrdV g d c f => g.wf && decide (d < 64) && decide (c < 8) && decide (f < 8)
  | .accrdC g d c f => g.wf && decide (d < 64) && decide (c < 8) && decide (f < 8)
  | .accwr g c a => g.wf && decide (c < 8) && decide (a < 16)
  | .accz g c => g.wf && decide (c < 8)
  | .sbindT g d a f => g.wf && decide (a < 64) && decide (d < 16) && decide (f < 8)
  | .sbindV g d a => g.wf && decide (d < 64) && decide (a < 64)
  | .sunbindT g d => g.wf && decide (d < 16)
  | .sunbindV g d => g.wf && decide (d < 64)
  | .stagrd g d x k => g.wf && decide (d < 64) && decide (x < 64) && decide (k < 3) && (decide (k ≠ 0) || decide (x < 16))
  | .smov g d a n => g.wf && decide (d < 64) && decide (a < 64) && decide (n < 5) && decide (d + 2 ^ n ≤ 64) && decide (a + 2 ^ n ≤ 64)
  | .smul g d a n _ => g.wf && decide (d < 64) && decide (a < 64) && decide (n < 5) && decide (d + 2 ^ n ≤ 64)
  | .sadd g d a n _ => g.wf && decide (d < 64) && decide (a < 64) && decide (n < 5) && decide (d + 2 ^ n ≤ 64) && decide (a + 2 ^ n ≤ 64)
  | .smax g d a n _ => g.wf && decide (d < 64) && decide (a < 64) && decide (n < 5) && decide (d + 2 ^ n ≤ 64) && decide (a + 2 ^ n ≤ 64)
  | .sld g d b off => g.wf && decide (d < 64) && decide (b < 64) && decide (-32 ≤ off ∧ off ≤ 31) && decide (b % 2 = 0)
  | .sst g d b off => g.wf && decide (d < 64) && decide (b < 64) && decide (-32 ≤ off ∧ off ≤ 31) && decide (b % 2 = 0)
  | .launch g lvl x y => g.wf && decide (x < 64) && decide (y < 64) && decide (lvl < 8)
  | .tsplit g lvl x y => g.wf && decide (x < 64) && decide (y < 64) && decide (lvl < 8) && decide (x % 2 = 0) && decide (x + 1 < 64) && decide (y + 1 < 64)
  | .tsplitX g x y => g.wf && decide (x < 64) && decide (y < 64) && decide (x % 2 = 0) && decide (y + 2 < 64)
  | .evqrd g lvl x y m _ => g.wf && decide (x < 64) && decide (y < 64) && decide (lvl < 8) && decide (x % 4 = 0) && (m || decide (y = 0))
  | .bar g lvl => g.wf && decide (lvl < 8)
  | .fenceRel g lvl => g.wf && decide (lvl < 8)
  | .fenceAcq g lvl => g.wf && decide (lvl < 8)
  | .fenceAcqrel g lvl => g.wf && decide (lvl < 8)
  | .fenceSc g lvl => g.wf && decide (lvl < 8)
  | .mcopyDown g lvl x y _ => g.wf && decide (x < 64) && decide (y < 64) && decide (lvl < 8) && decide (x % 8 = 0)
  | .mcopyUp g lvl x y _ => g.wf && decide (x < 64) && decide (y < 64) && decide (lvl < 8) && decide (x % 8 = 0)
  | .reduce g lvl x y _ one r => g.wf && decide (x < 64) && decide (y < 64) && decide (lvl < 8) && (decide (lvl < 3 ∨ 5 < lvl) || decide (x % 2 = 0)) && (decide (lvl ≠ 0) || (!one && !r))
  | .cmbopen g d a => g.wf && decide (d < 64) && decide (a < 64) && decide (a + 3 < 64)
  | .cmbput g d a b => g.wf && decide (d < 64) && decide (a < 64) && decide (b < 64) && decide (b % 2 = 0)
  | .cmbwait g d a => g.wf && decide (d < 64) && decide (a < 64)
  | .cmbwaitBatch g d a => g.wf && decide (d < 64) && decide (a < 64)
  | .cmbclose g a => g.wf && decide (a < 64)
  | .cmbcloseDrop g a => g.wf && decide (a < 64)
  | .cmbstat g d a s => g.wf && decide (d < 64) && decide (a < 64) && decide (s < 3)
  | .coll g d a _ => g.wf && decide (d < 64) && decide (a < 64) && decide (a % 4 = 0)
  | .collwait g d a => g.wf && decide (d < 64) && decide (a < 64)
  | .collq g d a => g.wf && decide (d < 64) && decide (a < 64)
  | .laydef g d a => g.wf && decide (d < 64) && decide (a < 64) && decide (a % 2 = 0)
  | .trap g c => g.wf && decide (c < 256)
  | .tret g => g.wf
  | .tretAbort g a => g.wf && decide (a < 64)
  | .sread g d _ s => g.wf && decide (d < 64) && decide (s < 24)
  | .swrite g d _ s => g.wf && decide (d < 64) && decide (s = 0x14 ∨ s = 0x15)
  | .winsel g a => g.wf && decide (a < 64)
  | .winrd g d a => g.wf && decide (d < 64) && decide (a < 64)
  | .winwr g d a => g.wf && decide (d < 64) && decide (a < 64)
  | .oplrd g d a w => g.wf && decide (d < 64) && decide (a < 64) && decide (w < 20)
  | .rqrd g d a => g.wf && decide (d < 64) && decide (a < 64)
  | .rqinj g a => g.wf && decide (a < 64)
  | .rqdrop g d a => g.wf && decide (d < 64) && decide (a < 64)
  | .ctxswSave g a => g.wf && decide (a < 64) && decide (a % 2 = 0)
  | .ctxswRestore g a => g.wf && decide (a < 64) && decide (a % 2 = 0)
  | .halt g _ => g.wf
  | .resume g _ => g.wf
  | .tlbi g d a => g.wf && decide (d < 64) && decide (a < 64) && decide (a % 2 = 0)
  | .tlbiW g d a => g.wf && decide (d < 64) && decide (a < 64) && decide (a % 2 = 0)
  | .asidgen g d => g.wf && decide (d < 64)
  | .hntWide imm => decide (imm < 2 ^ 24)
  | .hntSched rsvd _ _ prio _ lat => decide (rsvd < 65536) && decide (prio < 8) && decide (lat < 4)
  | .hntMod code arg => decide (code < 16) && decide (arg < 2 ^ 20)
  | .undefinedInstruction _ => false
  | .packageReset _ _ => false
  | .dieClockStop _ _ => false
  | .dieClockRestart _ _ => false
  | .planeFailure _ _ => false
  | .governorAdjust _ _ _ _ _ _ => false
  | .qptrWptrWrite _ _ _ _ => false
  | .qctlWrite _ _ _ _ => false
  | .evtcntWrite _ _ _ _ => false
  | .launchPacketDispatch _ _ => false
  | .signalPacketDispatch _ _ => false
  | .waitPacketDispatch _ _ => false
  | .unitPlacement _ => false
  | .unitComplete _ => false
  | .gridEnd _ => false
  | .groupSwap _ => false
  | .pendingForcedPromotion _ => false
  | .issueWithdraw _ => false
  | .sleepWake _ _ => false
  | .hangWatchdogExpiry _ => false
  | .lineAgeInvalidate _ _ _ => false
  | .preemptionRequest _ _ => false
  | .forcedYield _ => false
  | .shadowBankSwap _ _ => false
  | .spillComplete _ _ => false
  | .teamRestore _ => false
  | .accessPerformed _ _ _ => false
  | .faultRecordFlush _ => false
  | .tfreplyRetry _ _ _ => false
  | .tfreplyUnresolvable _ _ _ => false
  | .tlbcmdTlbi _ _ _ => false
  | .tlbcmdTlbiW _ _ _ => false
  | .tlbcmdAsidgen _ _ _ => false
  | .tlbCommandComplete _ => false
  | .archcmdCompress _ _ _ => false
  | .archcmdExpand _ _ _ => false
  | .archcmdFree _ _ _ => false
  | .archCommandComplete _ => false
  | .archcfgWrite _ _ _ => false
  | .registerWrite _ _ _ _ => false
  | .mstctlClaim _ _ => false
  | .mstctlOffer _ _ _ => false
  | .mstctlWithdraw _ _ => false
  | .mstctlAccept _ _ => false
  | .mstctlRelease _ _ => false
  | .offerLapse _ => false
  | .ownershipLoss _ => false
  | .mstfrzThaw _ _ _ => false
  | .attcmdQuote _ _ _ => false
  | .attcmdIdentityCert _ _ _ => false
  | .attComplete _ => false
  | .fwupdLoad _ _ _ => false
  | .fwLoadComplete _ => false
  | .diesvcDrain _ _ _ => false
  | .diesvcReturn _ _ _ => false
  | .dieDrainComplete _ => false
  | .planesvcWrite _ _ _ => false
  | .planemapWrite _ _ _ => false
  | .corestopWrite _ _ _ _ _ => false
  | .dbghaltHalt _ _ _ => false
  | .dbghaltResume _ _ _ => false
  | .cpbrkcRelease _ _ _ _ => false
  | .breakpointHit _ => false
  | .traceSample _ _ => false
  | .sacctlSnap _ _ _ => false
  | .sacctlClr _ _ _ => false
  | .handlerEntry _ _ => false
  | .migrateMove _ => false
  | .migrateRestore _ => false
  | .teamAbort _ => false
  | .blockArrival _ _ _ => false
  | .passGrant _ => false
  | .passComplete _ => false
  | .accrdWriteComplete _ _ => false
  | .ldxLaneWrite _ _ _ => false
  | .copyChunkWrite _ _ _ => false
  | .dropNotice _ _ _ => false
  | .reservationGrant _ _ _ => false
  | .reservationWindowMiss _ _ _ => false
  | .collStart _ _ => false
  | .collChunkArrival _ _ _ => false
  | .collComplete _ _ => false
  | .reduceContribution _ _ _ => false
  | .shadowLineEvict _ _ _ => false
  | .cmbputArrival _ _ => false
  | .combineTimeout _ _ _ => false
  | .combineRelease _ _ _ => false
  | .combineReleaseDone _ _ _ => false
  | .barBridgeArrival _ _ => false
  | .applicationCoreAccess _ _ _ _ _ => false
  | .fetchFault _ _ => false
  | .fabricPortFailure _ _ => false
  | .portRetrainComplete _ _ => false
  | .masterPresenceChange _ _ _ => false
  | .packageHeartbeat _ => false

end Sys2Proof
end

