-- ==== Sys2Proof/Decode.lean ====
section
/-! DEFINITION. Decoding and encoding of instruction words (chapter 04, R84 to R96).  Decoding is
total: it reads the candidate that the major opcode and fn select and accepts it only when it is well
formed and encodes back to the same word, so that no bit of a word is dropped; every other word is
the undefined instruction (R85, R87, R95, R96). -/

namespace Sys2Proof

/-- R84: the guard field of a guard. -/
def encGuard : Guard → Nat
  | .always => 0
  | .pred n k => 8 + (if n then 4 else 0) + k
/-- R85: the guard of a guard field; the reserved values read as unguarded here and fail the
comparison with the word. -/
def decGuard (k : Nat) : Guard :=
  if k < 8 then .always else .pred (4 ≤ k % 8) (k % 4)

/-- The unsigned form of a two's-complement field with n values (R88). -/
def unsignedOf (n : Nat) (i : Int) : Nat := (i % (n : Int)).toNat
/-- The signed value of a two's-complement field with n values (R88). -/
def signedOf (n u : Nat) : Int := if u < n / 2 then (u : Int) else (u : Int) - (n : Int)

/-! The formats of R86. -/

/-- Format VVV, and MEM with base for a and off for b. -/
def encVVV (maj : Nat) (g : Guard) (d a b fn : Nat) : Nat :=
  maj * 2 ^ 26 + encGuard g * 2 ^ 22 + d * 2 ^ 16 + a * 2 ^ 10 + b * 2 ^ 4 + fn
/-- Format VVI. -/
def encVVI (maj : Nat) (g : Guard) (d a imm : Nat) : Nat :=
  maj * 2 ^ 26 + encGuard g * 2 ^ 22 + d * 2 ^ 16 + a * 2 ^ 10 + imm
/-- Format VI16. -/
def encVI16 (maj : Nat) (g : Guard) (d imm : Nat) : Nat :=
  maj * 2 ^ 26 + encGuard g * 2 ^ 22 + d * 2 ^ 16 + imm
/-- Format LVL. -/
def encLVL (maj : Nat) (g : Guard) (lvl x y fn ord : Nat) : Nat :=
  maj * 2 ^ 26 + encGuard g * 2 ^ 22 + lvl * 2 ^ 19 + x * 2 ^ 13 + y * 2 ^ 7 + fn * 2 ^ 3 + ord
/-- Format SYS. -/
def encSYS (maj : Nat) (g : Guard) (d a sel fn : Nat) : Nat :=
  maj * 2 ^ 26 + encGuard g * 2 ^ 22 + d * 2 ^ 16 + a * 2 ^ 10 + sel * 2 ^ 2 + fn
/-- Format HNT (R89). -/
def encHNT (kind payload : Nat) : Nat := 0x3F * 2 ^ 26 + kind * 2 ^ 24 + payload

/-- The word of an instruction; an event has none. -/
def encode : Instr → Option Nat
  | .iadd g d a b => some (encVVV 1 g d a b 0)
  | .isub g d a b => some (encVVV 1 g d a b 1)
  | .imul g d a b => some (encVVV 1 g d a b 2)
  | .imulhi g d a b => some (encVVV 1 g d a b 3)
  | .imulhiU g d a b => some (encVVV 1 g d a b 4)
  | .imad g d a b => some (encVVV 1 g d a b 5)
  | .imin g d a b => some (encVVV 1 g d a b 6)
  | .iminU g d a b => some (encVVV 1 g d a b 7)
  | .imax g d a b => some (encVVV 1 g d a b 8)
  | .imaxU g d a b => some (encVVV 1 g d a b 9)
  | .iadds g d a b => some (encVVV 1 g d a b 10)
  | .iaddsU g d a b => some (encVVV 1 g d a b 11)
  | .isubs g d a b => some (encVVV 1 g d a b 12)
  | .isubsU g d a b => some (encVVV 1 g d a b 13)
  | .idot4 g d a b => some (encVVV 1 g d a b 14)
  | .lea g d a b => some (encVVV 1 g d a b 15)
  | .iabs g d a => some (encVVV 2 g d a 0 0)
  | .ineg g d a => some (encVVV 2 g d a 0 1)
  | .and g d a b => some (encVVV 2 g d a b 2)
  | .or g d a b => some (encVVV 2 g d a b 3)
  | .xor g d a b => some (encVVV 2 g d a b 4)
  | .andn g d a b => some (encVVV 2 g d a b 5)
  | .not g d a => some (encVVV 2 g d a 0 6)
  | .shl g d a b => some (encVVV 2 g d a b 7)
  | .shr g d a b => some (encVVV 2 g d a b 8)
  | .sar g d a b => some (encVVV 2 g d a b 9)
  | .rotl g d a b => some (encVVV 2 g d a b 10)
  | .popc g d a => some (encVVV 2 g d a 0 11)
  | .clz g d a => some (encVVV 2 g d a 0 12)
  | .brev g d a => some (encVVV 2 g d a 0 13)
  | .sel g d a b => some (encVVV 2 g d a b 14)
  | .mov g d a => some (encVVV 2 g d a 0 15)
  | .iaddImm g d a imm => some (encVVI 3 g d a (unsignedOf 1024 imm))
  | .bfx g d a pos len => some (encVVI 4 g d a ((len - 1) * 32 + pos))
  | .bfi g d a pos len => some (encVVI 5 g d a ((len - 1) * 32 + pos))
  | .movi g d imm => some (encVI16 6 g d (unsignedOf 65536 imm))
  | .movhi g d imm => some (encVI16 7 g d imm)
  | .fadd g d a b => some (encVVV 8 g d a b 0)
  | .fsub g d a b => some (encVVV 8 g d a b 1)
  | .fmul g d a b => some (encVVV 8 g d a b 2)
  | .ffma g d a b => some (encVVV 8 g d a b 3)
  | .fmin g d a b => some (encVVV 8 g d a b 4)
  | .fmax g d a b => some (encVVV 8 g d a b 5)
  | .fabs g d a => some (encVVV 8 g d a 0 6)
  | .fneg g d a => some (encVVV 8 g d a 0 7)
  | .fcpys g d a b => some (encVVV 8 g d a b 8)
  | .fclass g d a => some (encVVV 8 g d a 0 9)
  | .frcp g d a => some (encVVV 9 g d a 0 0)
  | .frsq g d a => some (encVVV 9 g d a 0 1)
  | .fsqrt g d a => some (encVVV 9 g d a 0 2)
  | .fexp2 g d a => some (encVVV 9 g d a 0 3)
  | .flog2 g d a => some (encVVV 9 g d a 0 4)
  | .ftanh g d a => some (encVVV 9 g d a 0 5)
  | .hfma2Bf g d a b => some (encVVV 10 g d a b 0)
  | .hfma2H g d a b => some (encVVV 10 g d a b 1)
  | .hadd2Bf g d a b => some (encVVV 10 g d a b 2)
  | .hadd2H g d a b => some (encVVV 10 g d a b 3)
  | .hmul2Bf g d a b => some (encVVV 10 g d a b 4)
  | .hmul2H g d a b => some (encVVV 10 g d a b 5)
  | .hmax2Bf g d a b => some (encVVV 10 g d a b 6)
  | .hmax2H g d a b => some (encVVV 10 g d a b 7)
  | .cvt g d a f k => some (encVVV 16 g d a (f * 8 + k) 0)
  | .cvti g d a f k => some (encVVV 16 g d a (f * 8 + k) 1)
  | .pack g d a f k => some (encVVV 16 g d a (f * 8 + k) 2)
  | .unpack g d a f k => some (encVVV 16 g d a (f * 8 + k) 3)
  | .qntv g d a f k => some (encVVV 16 g d a (f * 8 + k) 4)
  | .dqntv g d a f k => some (encVVV 16 g d a (f * 8 + k) 5)
  | .cvtef g d a f k => some (encVVV 16 g d a (f * 8 + k) 6)
  | .icmp g a b c => some (encVVV 20 g 0 a b c.code)
  | .fcmp g a b c => some (encVVV 21 g 0 a b c.code)
  | .ppush g a => some (encVVV 22 g 0 a 0 0)
  | .ppop g => some (encVVV 22 g 0 0 0 1)
  | .pdup g i => some (encVVV 22 g 0 i 0 2)
  | .pswap g i => some (encVVV 22 g 0 i 0 3)
  | .pnot g i => some (encVVV 22 g 0 i 0 4)
  | .pand g i j => some (encVVV 22 g 0 i j 5)
  | .por g i j => some (encVVV 22 g 0 i j 6)
  | .pxor g i j => some (encVVV 22 g 0 i j 7)
  | .prot g i => some (encVVV 22 g 0 i 0 8)
  | .ptov g d i => some (encVVV 22 g d i 0 9)
  | .voteAny g i => some (encVVV 22 g 0 i 0 10)
  | .voteAll g i => some (encVVV 22 g 0 i 0 11)
  | .voteBallot g d i => some (encVVV 22 g d i 0 12)
  | .gmov g d a => some (encVVV 24 g d a 0 0)
  | .gadd g d a b => some (encVVV 24 g d a b 1)
  | .gsub g d a b => some (encVVV 24 g d a b 2)
  | .gmul g d a b => some (encVVV 24 g d a b 3)
  | .gand g d a b => some (encVVV 24 g d a b 4)
  | .gor g d a b => some (encVVV 24 g d a b 5)
  | .gshl g d a b => some (encVVV 24 g d a b 6)
  | .gshr g d a b => some (encVVV 24 g d a b 7)
  | .gcmp g a b c => some (encVVV 24 g 0 a b (8 + c.code))
  | .gread g d a => some (encVVV 24 g d a 0 12)
  | .gmovi g d imm => some (encVI16 25 g d (unsignedOf 65536 imm))
  | .gld g d b off => some (encVVV 26 g d b (unsignedOf 64 off) 0)
  | .gst g d b off => some (encVVV 26 g d b (unsignedOf 64 off) 1)
  | .bra g imm => some (encVI16 28 g 0 (unsignedOf 65536 imm))
  | .call g d imm => some (encVI16 29 g d (unsignedOf 65536 imm))
  | .brx g a => some (encVVV 30 g 0 a 0 0)
  | .callx g d a => some (encVVV 30 g d a 0 1)
  | .ret g a => some (encVVV 30 g 0 a 0 2)
  | .exit g => some (encVVV 30 g 0 0 0 3)
  | .yield g => some (encVVV 30 g 0 0 0 4)
  | .sleep g a => some (encVVV 30 g 0 a 0 5)
  | .nop g => some (encVVV 30 g 0 0 0 6)
  | .rgn g d mask => some (encVI16 31 g d mask)
  | .ld g d b off sz sx => some (encVVV 32 g d b (unsignedOf 64 off) (sz.code * 4 + sx.toNat * 2))
  | .ldAcq g d b lvl sz sx => some (encVVV 32 g d b (lvl * 8) (sz.code * 4 + sx.toNat * 2 + 1))
  | .st g d b off sz => some (encVVV 33 g d b (unsignedOf 64 off) (sz.code * 4))
  | .stRel g d b lvl sz => some (encVVV 33 g d b (lvl * 8) (sz.code * 4 + 1))
  | .ldc g d b off sz => some (encVVV 34 g d b (unsignedOf 64 off) (sz.code * 2))
  | .stc g d b off sz => some (encVVV 34 g d b (unsignedOf 64 off) (8 + sz.code * 2))
  | .ldk g d b off sz => some (encVVV 35 g d b (unsignedOf 64 off) (sz.code * 2))
  | .stk g d b off sz => some (encVVV 35 g d b (unsignedOf 64 off) (8 + sz.code * 2))
  | .ldl g d b off sz => some (encVVV 36 g d b (unsignedOf 64 off) (sz.code * 2))
  | .stl g d b off sz => some (encVVV 36 g d b (unsignedOf 64 off) (8 + sz.code * 2))
  | .ldm g d b n => some (encVVV 37 g d b (n - 1) 0)
  | .stm g d b n => some (encVVV 37 g d b (n - 1) 1)
  | .ldt g t sp b off => some (encVVV 37 g (sp.code * 16 + t) b (unsignedOf 64 off) 2)
  | .stt g t sp b off => some (encVVV 37 g (sp.code * 16 + t) b (unsignedOf 64 off) 3)
  | .ldsc g d b f => some (encVVV 37 g d b (f * 8) 4)
  | .atom g d b lvl op => some (encVVV 38 g d b (lvl * 8) op.code)
  | .cas g d b lvl => some (encVVV 38 g d b (lvl * 8) 10)
  | .ldx g d b c => some (encVVV 39 g d b c 0)
  | .pref g die b off => some (encVVV 39 g die.toNat b (unsignedOf 64 off) 1)
  | .cctl g op b off => some (encVVV 39 g op.code b (unsignedOf 64 off) 2)
  | .sfillA g d b off => some (encVVV 40 g d b (unsignedOf 64 off) 0)
  | .sfillB g d b off => some (encVVV 40 g d b (unsignedOf 64 off) 1)
  | .mbinit g a b => some (encVVV 41 g 0 a b 0)
  | .mbexpect g a b => some (encVVV 41 g 0 a b 1)
  | .mbarrive g a => some (encVVV 41 g 0 a 0 2)
  | .mbwait g d a b => some (encVVV 41 g d a b 3)
  | .mbtest g a b => some (encVVV 41 g 0 a b 4)
  | .waitc g c n => some (encVVV 42 g c.code n 0 0)
  | .cntrd g d c => some (encVVV 42 g d c.code 0 1)
  | .cvdecl g v a => some (encVVV 44 g v a 0 0)
  | .cvsign g v => some (encVVV 44 g v 0 0 1)
  | .mma g ka kb c fa fb v => some (encVVV 44 g (ka.toNat * 32 + kb.toNat * 16 + c) (fa * 8 + fb) v 2)
  | .procfg g s64 => some (encVVV 44 g s64.toNat 0 0 3)
  | .accrdT g d c f h => some (encVVV 45 g d c (f * 8 + h) 0)
  | .accrdV g d c f => some (encVVV 45 g d c (f * 8) 1)
  | .accrdC g d c f => some (encVVV 45 g d c (f * 8) 2)
  | .accwr g c a => some (encVVV 45 g c a 0 3)
  | .accz g c => some (encVVV 45 g c 0 0 4)
  | .sbindT g d a f => some (encVVV 46 g d a (f * 8) 0)
  | .sbindV g d a => some (encVVV 46 g d a 0 1)
  | .sunbindT g d => some (encVVV 46 g d 0 0 2)
  | .sunbindV g d => some (encVVV 46 g d 0 0 3)
  | .stagrd g d x k => some (encVVV 46 g d x k 4)
  | .smov g d a n => some (encVVV 46 g d a n 5)
  | .smul g d a n band => some (encVVV 46 g d a (band.toNat * 8 + n) 6)
  | .sadd g d a n band => some (encVVV 46 g d a (band.toNat * 8 + n) 7)
  | .smax g d a n band => some (encVVV 46 g d a (band.toNat * 8 + n) 8)
  | .sld g d b off => some (encVVV 47 g d b (unsignedOf 64 off) 0)
  | .sst g d b off => some (encVVV 47 g d b (unsignedOf 64 off) 1)
  | .launch g lvl x y => some (encLVL 48 g lvl x y 0 0)
  | .tsplit g lvl x y => some (encLVL 48 g lvl x y 1 0)
  | .tsplitX g x y => some (encLVL 48 g 0 x y 1 1)
  | .evqrd g lvl x y m w => some (encLVL 48 g lvl x y 2 (m.toNat * 2 + w.toNat))
  | .bar g lvl => some (encLVL 49 g lvl 0 0 0 0)
  | .fenceRel g lvl => some (encLVL 49 g lvl 0 0 1 0)
  | .fenceAcq g lvl => some (encLVL 49 g lvl 0 0 2 0)
  | .fenceAcqrel g lvl => some (encLVL 49 g lvl 0 0 3 0)
  | .fenceSc g lvl => some (encLVL 49 g lvl 0 0 4 0)
  | .mcopyDown g lvl x y r => some (encLVL 50 g lvl x y 0 r.toNat)
  | .mcopyUp g lvl x y r => some (encLVL 50 g lvl x y 1 r.toNat)
  | .reduce g lvl x y op one r => some (encLVL 51 g lvl x y op.code (one.toNat * 2 + r.toNat))
  | .cmbopen g d a => some (encVVV 52 g d a 0 0)
  | .cmbput g d a b => some (encVVV 52 g d a b 1)
  | .cmbwait g d a => some (encVVV 52 g d a 0 2)
  | .cmbwaitBatch g d a => some (encVVV 52 g d a 1 2)
  | .cmbclose g a => some (encVVV 52 g 0 a 0 3)
  | .cmbcloseDrop g a => some (encVVV 52 g 0 a 1 3)
  | .cmbstat g d a s => some (encVVV 52 g d a s 4)
  | .coll g d a op => some (encVVV 54 g d a 0 op.code)
  | .collwait g d a => some (encVVV 54 g d a 0 5)
  | .collq g d a => some (encVVV 54 g d a 0 6)
  | .laydef g d a => some (encVVV 54 g d a 0 7)
  | .trap g c => some (encSYS 56 g 0 0 c 0)
  | .tret g => some (encSYS 56 g 0 0 0 1)
  | .tretAbort g a => some (encSYS 56 g 0 a 1 1)
  | .sread g d u s => some (encSYS 56 g d u.toNat s 2)
  | .swrite g d u s => some (encSYS 56 g d u.toNat s 3)
  | .winsel g a => some (encSYS 57 g 0 a 0 0)
  | .winrd g d a => some (encSYS 57 g d a 0 1)
  | .winwr g d a => some (encSYS 57 g d a 0 2)
  | .oplrd g d a w => some (encSYS 57 g d a w 3)
  | .rqrd g d a => some (encSYS 58 g d a 0 0)
  | .rqinj g a => some (encSYS 58 g 0 a 0 1)
  | .rqdrop g d a => some (encSYS 58 g d a 0 2)
  | .ctxswSave g a => some (encSYS 58 g 0 a 0 3)
  | .ctxswRestore g a => some (encSYS 58 g 0 a 1 3)
  | .halt g s => some (encSYS 59 g 0 0 s.code 0)
  | .resume g s => some (encSYS 59 g 0 0 s.code 1)
  | .tlbi g d a => some (encSYS 59 g d a 0 2)
  | .tlbiW g d a => some (encSYS 59 g d a 1 2)
  | .asidgen g d => some (encSYS 59 g d 0 0 3)
  | .hntWide imm => some (encHNT 0 imm)
  | .hntSched rsvd y pv prio lv lat => some (encHNT 1 (rsvd * 256 + y.toNat * 128 + pv.toNat * 64 + prio * 8 + lv.toNat * 4 + lat))
  | .hntMod code arg => some (encHNT 2 (code * 1048576 + arg))
  | .undefinedInstruction w => some (w)
  | .packageReset _ _ => none
  | .dieClockStop _ _ => none
  | .dieClockRestart _ _ => none
  | .planeFailure _ _ => none
  | .governorAdjust _ _ _ _ _ _ => none
  | .qptrWptrWrite _ _ _ _ => none
  | .qctlWrite _ _ _ _ => none
  | .evtcntWrite _ _ _ _ => none
  | .launchPacketDispatch _ _ => none
  | .signalPacketDispatch _ _ => none
  | .waitPacketDispatch _ _ => none
  | .unitPlacement _ => none
  | .unitComplete _ => none
  | .gridEnd _ => none
  | .groupSwap _ => none
  | .pendingForcedPromotion _ => none
  | .issueWithdraw _ => none
  | .sleepWake _ _ => none
  | .hangWatchdogExpiry _ => none
  | .lineAgeInvalidate _ _ _ => none
  | .preemptionRequest _ _ => none
  | .forcedYield _ => none
  | .shadowBankSwap _ _ => none
  | .spillComplete _ _ => none
  | .teamRestore _ => none
  | .accessPerformed _ _ _ => none
  | .faultRecordFlush _ => none
  | .tfreplyRetry _ _ _ => none
  | .tfreplyUnresolvable _ _ _ => none
  | .tlbcmdTlbi _ _ _ => none
  | .tlbcmdTlbiW _ _ _ => none
  | .tlbcmdAsidgen _ _ _ => none
  | .tlbCommandComplete _ => none
  | .archcmdCompress _ _ _ => none
  | .archcmdExpand _ _ _ => none
  | .archcmdFree _ _ _ => none
  | .archCommandComplete _ => none
  | .archcfgWrite _ _ _ => none
  | .registerWrite _ _ _ _ => none
  | .mstctlClaim _ _ => none
  | .mstctlOffer _ _ _ => none
  | .mstctlWithdraw _ _ => none
  | .mstctlAccept _ _ => none
  | .mstctlRelease _ _ => none
  | .offerLapse _ => none
  | .ownershipLoss _ => none
  | .mstfrzThaw _ _ _ => none
  | .attcmdQuote _ _ _ => none
  | .attcmdIdentityCert _ _ _ => none
  | .attComplete _ => none
  | .fwupdLoad _ _ _ => none
  | .fwLoadComplete _ => none
  | .diesvcDrain _ _ _ => none
  | .diesvcReturn _ _ _ => none
  | .dieDrainComplete _ => none
  | .planesvcWrite _ _ _ => none
  | .planemapWrite _ _ _ => none
  | .corestopWrite _ _ _ _ _ => none
  | .dbghaltHalt _ _ _ => none
  | .dbghaltResume _ _ _ => none
  | .cpbrkcRelease _ _ _ _ => none
  | .breakpointHit _ => none
  | .traceSample _ _ => none
  | .sacctlSnap _ _ _ => none
  | .sacctlClr _ _ _ => none
  | .handlerEntry _ _ => none
  | .migrateMove _ => none
  | .migrateRestore _ => none
  | .teamAbort _ => none
  | .blockArrival _ _ _ => none
  | .passGrant _ => none
  | .passComplete _ => none
  | .accrdWriteComplete _ _ => none
  | .ldxLaneWrite _ _ _ => none
  | .copyChunkWrite _ _ _ => none
  | .dropNotice _ _ _ => none
  | .reservationGrant _ _ _ => none
  | .reservationWindowMiss _ _ _ => none
  | .collStart _ _ => none
  | .collChunkArrival _ _ _ => none
  | .collComplete _ _ => none
  | .reduceContribution _ _ _ => none
  | .shadowLineEvict _ _ _ => none
  | .cmbputArrival _ _ => none
  | .combineTimeout _ _ _ => none
  | .combineRelease _ _ _ => none
  | .combineReleaseDone _ _ _ => none
  | .barBridgeArrival _ _ => none
  | .applicationCoreAccess _ _ _ _ _ => none
  | .fetchFault _ _ => none
  | .fabricPortFailure _ _ => none
  | .portRetrainComplete _ _ => none
  | .masterPresenceChange _ _ _ => none
  | .packageHeartbeat _ => none

/-! The fields of a word (R86). -/

/-- The major opcode [31:26]. -/
def fMaj (w : Nat) : Nat := w / 2 ^ 26
/-- The guard [25:22]. -/
def fG (w : Nat) : Nat := w / 2 ^ 22 % 16
/-- Field d [21:16]. -/
def fD (w : Nat) : Nat := w / 2 ^ 16 % 64
/-- Field a or base [15:10]. -/
def fA (w : Nat) : Nat := w / 2 ^ 10 % 64
/-- Field b or off [9:4]. -/
def fB (w : Nat) : Nat := w / 2 ^ 4 % 64
/-- fn [3:0]. -/
def fF (w : Nat) : Nat := w % 16
/-- imm10 [9:0]. -/
def fImm10 (w : Nat) : Nat := w % 1024
/-- imm16 [15:0]. -/
def fImm16 (w : Nat) : Nat := w % 65536
/-- LVL level [21:19]. -/
def fLvl (w : Nat) : Nat := w / 2 ^ 19 % 8
/-- LVL x [18:13]. -/
def fX (w : Nat) : Nat := w / 2 ^ 13 % 64
/-- LVL y [12:7]. -/
def fY (w : Nat) : Nat := w / 2 ^ 7 % 64
/-- LVL fn [6:3]. -/
def fLF (w : Nat) : Nat := w / 2 ^ 3 % 16
/-- LVL ord [2:0]. -/
def fOrd (w : Nat) : Nat := w % 8
/-- SYS sel [9:2]. -/
def fSel (w : Nat) : Nat := w / 2 ^ 2 % 256
/-- SYS fn [1:0]. -/
def fSF (w : Nat) : Nat := w % 4

/-- Major 0x01 (R96). -/
def dec01 (w : Nat) : Instr :=
  match fF w with
  | 0 => .iadd (decGuard (fG w)) (fD w) (fA w) (fB w)
  | 1 => .isub (decGuard (fG w)) (fD w) (fA w) (fB w)
  | 2 => .imul (decGuard (fG w)) (fD w) (fA w) (fB w)
  | 3 => .imulhi (decGuard (fG w)) (fD w) (fA w) (fB w)
  | 4 => .imulhiU (decGuard (fG w)) (fD w) (fA w) (fB w)
  | 5 => .imad (decGuard (fG w)) (fD w) (fA w) (fB w)
  | 6 => .imin (decGuard (fG w)) (fD w) (fA w) (fB w)
  | 7 => .iminU (decGuard (fG w)) (fD w) (fA w) (fB w)
  | 8 => .imax (decGuard (fG w)) (fD w) (fA w) (fB w)
  | 9 => .imaxU (decGuard (fG w)) (fD w) (fA w) (fB w)
  | 10 => .iadds (decGuard (fG w)) (fD w) (fA w) (fB w)
  | 11 => .iaddsU (decGuard (fG w)) (fD w) (fA w) (fB w)
  | 12 => .isubs (decGuard (fG w)) (fD w) (fA w) (fB w)
  | 13 => .isubsU (decGuard (fG w)) (fD w) (fA w) (fB w)
  | 14 => .idot4 (decGuard (fG w)) (fD w) (fA w) (fB w)
  | 15 => .lea (decGuard (fG w)) (fD w) (fA w) (fB w)
  | _ => .undefinedInstruction w

/-- Major 0x02 (R96). -/
def dec02 (w : Nat) : Instr :=
  match fF w with
  | 0 => .iabs (decGuard (fG w)) (fD w) (fA w)
  | 1 => .ineg (decGuard (fG w)) (fD w) (fA w)
  | 2 => .and (decGuard (fG w)) (fD w) (fA w) (fB w)
  | 3 => .or (decGuard (fG w)) (fD w) (fA w) (fB w)
  | 4 => .xor (decGuard (fG w)) (fD w) (fA w) (fB w)
  | 5 => .andn (decGuard (fG w)) (fD w) (fA w) (fB w)
  | 6 => .not (decGuard (fG w)) (fD w) (fA w)
  | 7 => .shl (decGuard (fG w)) (fD w) (fA w) (fB w)
  | 8 => .shr (decGuard (fG w)) (fD w) (fA w) (fB w)
  | 9 => .sar (decGuard (fG w)) (fD w) (fA w) (fB w)
  | 10 => .rotl (decGuard (fG w)) (fD w) (fA w) (fB w)
  | 11 => .popc (decGuard (fG w)) (fD w) (fA w)
  | 12 => .clz (decGuard (fG w)) (fD w) (fA w)
  | 13 => .brev (decGuard (fG w)) (fD w) (fA w)
  | 14 => .sel (decGuard (fG w)) (fD w) (fA w) (fB w)
  | 15 => .mov (decGuard (fG w)) (fD w) (fA w)
  | _ => .undefinedInstruction w

/-- Major 0x03 (R96). -/
def dec03 (w : Nat) : Instr :=
  .iaddImm (decGuard (fG w)) (fD w) (fA w) (signedOf 1024 (fImm10 w))

/-- Major 0x04 (R96). -/
def dec04 (w : Nat) : Instr :=
  .bfx (decGuard (fG w)) (fD w) (fA w) ((fImm10 w) % 32) (((fImm10 w) / 32) + 1)

/-- Major 0x05 (R96). -/
def dec05 (w : Nat) : Instr :=
  .bfi (decGuard (fG w)) (fD w) (fA w) ((fImm10 w) % 32) (((fImm10 w) / 32) + 1)

/-- Major 0x06 (R96). -/
def dec06 (w : Nat) : Instr :=
  .movi (decGuard (fG w)) (fD w) (signedOf 65536 (fImm16 w))

/-- Major 0x07 (R96). -/
def dec07 (w : Nat) : Instr :=
  .movhi (decGuard (fG w)) (fD w) (fImm16 w)

/-- Major 0x08 (R96). -/
def dec08 (w : Nat) : Instr :=
  match fF w with
  | 0 => .fadd (decGuard (fG w)) (fD w) (fA w) (fB w)
  | 1 => .fsub (decGuard (fG w)) (fD w) (fA w) (fB w)
  | 2 => .fmul (decGuard (fG w)) (fD w) (fA w) (fB w)
  | 3 => .ffma (decGuard (fG w)) (fD w) (fA w) (fB w)
  | 4 => .fmin (decGuard (fG w)) (fD w) (fA w) (fB w)
  | 5 => .fmax (decGuard (fG w)) (fD w) (fA w) (fB w)
  | 6 => .fabs (decGuard (fG w)) (fD w) (fA w)
  | 7 => .fneg (decGuard (fG w)) (fD w) (fA w)
  | 8 => .fcpys (decGuard (fG w)) (fD w) (fA w) (fB w)
  | 9 => .fclass (decGuard (fG w)) (fD w) (fA w)
  | _ => .undefinedInstruction w

/-- Major 0x09 (R96). -/
def dec09 (w : Nat) : Instr :=
  match fF w with
  | 0 => .frcp (decGuard (fG w)) (fD w) (fA w)
  | 1 => .frsq (decGuard (fG w)) (fD w) (fA w)
  | 2 => .fsqrt (decGuard (fG w)) (fD w) (fA w)
  | 3 => .fexp2 (decGuard (fG w)) (fD w) (fA w)
  | 4 => .flog2 (decGuard (fG w)) (fD w) (fA w)
  | 5 => .ftanh (decGuard (fG w)) (fD w) (fA w)
  | _ => .undefinedInstruction w

/-- Major 0x0A (R96). -/
def dec0A (w : Nat) : Instr :=
  match fF w with
  | 0 => .hfma2Bf (decGuard (fG w)) (fD w) (fA w) (fB w)
  | 1 => .hfma2H (decGuard (fG w)) (fD w) (fA w) (fB w)
  | 2 => .hadd2Bf (decGuard (fG w)) (fD w) (fA w) (fB w)
  | 3 => .hadd2H (decGuard (fG w)) (fD w) (fA w) (fB w)
  | 4 => .hmul2Bf (decGuard (fG w)) (fD w) (fA w) (fB w)
  | 5 => .hmul2H (decGuard (fG w)) (fD w) (fA w) (fB w)
  | 6 => .hmax2Bf (decGuard (fG w)) (fD w) (fA w) (fB w)
  | 7 => .hmax2H (decGuard (fG w)) (fD w) (fA w) (fB w)
  | _ => .undefinedInstruction w

/-- Major 0x10 (R96). -/
def dec10 (w : Nat) : Instr :=
  match fF w with
  | 0 => .cvt (decGuard (fG w)) (fD w) (fA w) ((fB w) / 8) ((fB w) % 8)
  | 1 => .cvti (decGuard (fG w)) (fD w) (fA w) ((fB w) / 8) ((fB w) % 8)
  | 2 => .pack (decGuard (fG w)) (fD w) (fA w) ((fB w) / 8) ((fB w) % 8)
  | 3 => .unpack (decGuard (fG w)) (fD w) (fA w) ((fB w) / 8) ((fB w) % 8)
  | 4 => .qntv (decGuard (fG w)) (fD w) (fA w) ((fB w) / 8) ((fB w) % 8)
  | 5 => .dqntv (decGuard (fG w)) (fD w) (fA w) ((fB w) / 8) ((fB w) % 8)
  | 6 => .cvtef (decGuard (fG w)) (fD w) (fA w) ((fB w) / 8) ((fB w) % 8)
  | _ => .undefinedInstruction w

/-- Major 0x14 (R96). -/
def dec14 (w : Nat) : Instr :=
  .icmp (decGuard (fG w)) (fA w) (fB w) (.ofCode (fF w))

/-- Major 0x15 (R96). -/
def dec15 (w : Nat) : Instr :=
  .fcmp (decGuard (fG w)) (fA w) (fB w) (.ofCode (fF w))

/-- Major 0x16 (R96). -/
def dec16 (w : Nat) : Instr :=
  match fF w with
  | 0 => .ppush (decGuard (fG w)) (fA w)
  | 1 => .ppop (decGuard (fG w))
  | 2 => .pdup (decGuard (fG w)) (fA w)
  | 3 => .pswap (decGuard (fG w)) (fA w)
  | 4 => .pnot (decGuard (fG w)) (fA w)
  | 5 => .pand (decGuard (fG w)) (fA w) (fB w)
  | 6 => .por (decGuard (fG w)) (fA w) (fB w)
  | 7 => .pxor (decGuard (fG w)) (fA w) (fB w)
  | 8 => .prot (decGuard (fG w)) (fA w)
  | 9 => .ptov (decGuard (fG w)) (fD w) (fA w)
  | 10 => .voteAny (decGuard (fG w)) (fA w)
  | 11 => .voteAll (decGuard (fG w)) (fA w)
  | 12 => .voteBallot (decGuard (fG w)) (fD w) (fA w)
  | _ => .undefinedInstruction w

/-- Major 0x18 (R96). -/
def dec18 (w : Nat) : Instr :=
  match fF w with
  | 0 => .gmov (decGuard (fG w)) (fD w) (fA w)
  | 1 => .gadd (decGuard (fG w)) (fD w) (fA w) (fB w)
  | 2 => .gsub (decGuard (fG w)) (fD w) (fA w) (fB w)
  | 3 => .gmul (decGuard (fG w)) (fD w) (fA w) (fB w)
  | 4 => .gand (decGuard (fG w)) (fD w) (fA w) (fB w)
  | 5 => .gor (decGuard (fG w)) (fD w) (fA w) (fB w)
  | 6 => .gshl (decGuard (fG w)) (fD w) (fA w) (fB w)
  | 7 => .gshr (decGuard (fG w)) (fD w) (fA w) (fB w)
  | 12 => .gread (decGuard (fG w)) (fD w) (fA w)
  | 8 => .gcmp (decGuard (fG w)) (fA w) (fB w) .eq
  | 9 => .gcmp (decGuard (fG w)) (fA w) (fB w) .ne
  | 10 => .gcmp (decGuard (fG w)) (fA w) (fB w) .lt
  | 11 => .gcmp (decGuard (fG w)) (fA w) (fB w) .ge
  | _ => .undefinedInstruction w

/-- Major 0x19 (R96). -/
def dec19 (w : Nat) : Instr :=
  .gmovi (decGuard (fG w)) (fD w) (signedOf 65536 (fImm16 w))

/-- Major 0x1A (R96). -/
def dec1A (w : Nat) : Instr :=
  match fF w with
  | 0 => .gld (decGuard (fG w)) (fD w) (fA w) (signedOf 64 (fB w))
  | 1 => .gst (decGuard (fG w)) (fD w) (fA w) (signedOf 64 (fB w))
  | _ => .undefinedInstruction w

/-- Major 0x1C (R96). -/
def dec1C (w : Nat) : Instr :=
  .bra (decGuard (fG w)) (signedOf 65536 (fImm16 w))

/-- Major 0x1D (R96). -/
def dec1D (w : Nat) : Instr :=
  .call (decGuard (fG w)) (fD w) (signedOf 65536 (fImm16 w))

/-- Major 0x1E (R96). -/
def dec1E (w : Nat) : Instr :=
  match fF w with
  | 0 => .brx (decGuard (fG w)) (fA w)
  | 1 => .callx (decGuard (fG w)) (fD w) (fA w)
  | 2 => .ret (decGuard (fG w)) (fA w)
  | 3 => .exit (decGuard (fG w))
  | 4 => .yield (decGuard (fG w))
  | 5 => .sleep (decGuard (fG w)) (fA w)
  | 6 => .nop (decGuard (fG w))
  | _ => .undefinedInstruction w

/-- Major 0x1F (R96). -/
def dec1F (w : Nat) : Instr :=
  .rgn (decGuard (fG w)) (fD w) (fImm16 w)

/-- Major 0x20 (R96). -/
def dec20 (w : Nat) : Instr :=
  if fF w % 2 = 0 then .ld (decGuard (fG w)) (fD w) (fA w) (signedOf 64 (fB w)) (.ofCode ((fF w) / 4)) ((((fF w) / 2) % 2) % 2 == 1)
  else .ldAcq (decGuard (fG w)) (fD w) (fA w) ((fB w) / 8) (.ofCode ((fF w) / 4)) ((((fF w) / 2) % 2) % 2 == 1)

/-- Major 0x21 (R96). -/
def dec21 (w : Nat) : Instr :=
  if fF w % 2 = 0 then .st (decGuard (fG w)) (fD w) (fA w) (signedOf 64 (fB w)) (.ofCode ((fF w) / 4))
  else .stRel (decGuard (fG w)) (fD w) (fA w) ((fB w) / 8) (.ofCode ((fF w) / 4))

/-- Major 0x22 (R96). -/
def dec22 (w : Nat) : Instr :=
  if fF w < 8 then .ldc (decGuard (fG w)) (fD w) (fA w) (signedOf 64 (fB w)) (.ofCode ((fF w) / 2))
  else .stc (decGuard (fG w)) (fD w) (fA w) (signedOf 64 (fB w)) (.ofCode (((fF w) / 2) % 4))

/-- Major 0x23 (R96). -/
def dec23 (w : Nat) : Instr :=
  if fF w < 8 then .ldk (decGuard (fG w)) (fD w) (fA w) (signedOf 64 (fB w)) (.ofCode ((fF w) / 2))
  else .stk (decGuard (fG w)) (fD w) (fA w) (signedOf 64 (fB w)) (.ofCode (((fF w) / 2) % 4))

/-- Major 0x24 (R96). -/
def dec24 (w : Nat) : Instr :=
  if fF w < 8 then .ldl (decGuard (fG w)) (fD w) (fA w) (signedOf 64 (fB w)) (.ofCode ((fF w) / 2))
  else .stl (decGuard (fG w)) (fD w) (fA w) (signedOf 64 (fB w)) (.ofCode (((fF w) / 2) % 4))

/-- Major 0x25 (R96). -/
def dec25 (w : Nat) : Instr :=
  match fF w with
  | 0 => .ldm (decGuard (fG w)) (fD w) (fA w) ((fB w) + 1)
  | 1 => .stm (decGuard (fG w)) (fD w) (fA w) ((fB w) + 1)
  | 2 => .ldt (decGuard (fG w)) ((fD w) % 16) (.ofCode ((fD w) / 16)) (fA w) (signedOf 64 (fB w))
  | 3 => .stt (decGuard (fG w)) ((fD w) % 16) (.ofCode ((fD w) / 16)) (fA w) (signedOf 64 (fB w))
  | 4 => .ldsc (decGuard (fG w)) (fD w) (fA w) ((fB w) / 8)
  | _ => .undefinedInstruction w

/-- Major 0x26 (R96). -/
def dec26 (w : Nat) : Instr :=
  if fF w = 10 then .cas (decGuard (fG w)) (fD w) (fA w) ((fB w) / 8)
  else .atom (decGuard (fG w)) (fD w) (fA w) ((fB w) / 8) (.ofCode (fF w))

/-- Major 0x27 (R96). -/
def dec27 (w : Nat) : Instr :=
  match fF w with
  | 0 => .ldx (decGuard (fG w)) (fD w) (fA w) (fB w)
  | 1 => .pref (decGuard (fG w)) ((fD w) % 2 == 1) (fA w) (signedOf 64 (fB w))
  | 2 => .cctl (decGuard (fG w)) (.ofCode (fD w)) (fA w) (signedOf 64 (fB w))
  | _ => .undefinedInstruction w

/-- Major 0x28 (R96). -/
def dec28 (w : Nat) : Instr :=
  match fF w with
  | 0 => .sfillA (decGuard (fG w)) (fD w) (fA w) (signedOf 64 (fB w))
  | 1 => .sfillB (decGuard (fG w)) (fD w) (fA w) (signedOf 64 (fB w))
  | _ => .undefinedInstruction w

/-- Major 0x29 (R96). -/
def dec29 (w : Nat) : Instr :=
  match fF w with
  | 0 => .mbinit (decGuard (fG w)) (fA w) (fB w)
  | 1 => .mbexpect (decGuard (fG w)) (fA w) (fB w)
  | 2 => .mbarrive (decGuard (fG w)) (fA w)
  | 3 => .mbwait (decGuard (fG w)) (fD w) (fA w) (fB w)
  | 4 => .mbtest (decGuard (fG w)) (fA w) (fB w)
  | _ => .undefinedInstruction w

/-- Major 0x2A (R96). -/
def dec2A (w : Nat) : Instr :=
  match fF w with
  | 0 => .waitc (decGuard (fG w)) (.ofCode (fD w)) (fA w)
  | 1 => .cntrd (decGuard (fG w)) (fD w) (.ofCode (fA w))
  | _ => .undefinedInstruction w

/-- Major 0x2C (R96). -/
def dec2C (w : Nat) : Instr :=
  match fF w with
  | 0 => .cvdecl (decGuard (fG w)) (fD w) (fA w)
  | 1 => .cvsign (decGuard (fG w)) (fD w)
  | 2 => .mma (decGuard (fG w)) (((fD w) / 32) % 2 == 1) ((((fD w) / 16) % 2) % 2 == 1) ((fD w) % 16) ((fA w) / 8) ((fA w) % 8) (fB w)
  | 3 => .procfg (decGuard (fG w)) ((fD w) % 2 == 1)
  | _ => .undefinedInstruction w

/-- Major 0x2D (R96). -/
def dec2D (w : Nat) : Instr :=
  match fF w with
  | 0 => .accrdT (decGuard (fG w)) (fD w) (fA w) ((fB w) / 8) ((fB w) % 8)
  | 1 => .accrdV (decGuard (fG w)) (fD w) (fA w) ((fB w) / 8)
  | 2 => .accrdC (decGuard (fG w)) (fD w) (fA w) ((fB w) / 8)
  | 3 => .accwr (decGuard (fG w)) (fD w) (fA w)
  | 4 => .accz (decGuard (fG w)) (fD w)
  | _ => .undefinedInstruction w

/-- Major 0x2E (R96). -/
def dec2E (w : Nat) : Instr :=
  match fF w with
  | 0 => .sbindT (decGuard (fG w)) (fD w) (fA w) ((fB w) / 8)
  | 1 => .sbindV (decGuard (fG w)) (fD w) (fA w)
  | 2 => .sunbindT (decGuard (fG w)) (fD w)
  | 3 => .sunbindV (decGuard (fG w)) (fD w)
  | 4 => .stagrd (decGuard (fG w)) (fD w) (fA w) (fB w)
  | 5 => .smov (decGuard (fG w)) (fD w) (fA w) (fB w)
  | 6 => .smul (decGuard (fG w)) (fD w) (fA w) ((fB w) % 8) (((fB w) / 8) % 2 == 1)
  | 7 => .sadd (decGuard (fG w)) (fD w) (fA w) ((fB w) % 8) (((fB w) / 8) % 2 == 1)
  | 8 => .smax (decGuard (fG w)) (fD w) (fA w) ((fB w) % 8) (((fB w) / 8) % 2 == 1)
  | _ => .undefinedInstruction w

/-- Major 0x2F (R96). -/
def dec2F (w : Nat) : Instr :=
  match fF w with
  | 0 => .sld (decGuard (fG w)) (fD w) (fA w) (signedOf 64 (fB w))
  | 1 => .sst (decGuard (fG w)) (fD w) (fA w) (signedOf 64 (fB w))
  | _ => .undefinedInstruction w

/-- Major 0x30 (R96). -/
def dec30 (w : Nat) : Instr :=
  match fLF w with
  | 0 => .launch (decGuard (fG w)) (fLvl w) (fX w) (fY w)
  | 1 => if fOrd w = 0 then .tsplit (decGuard (fG w)) (fLvl w) (fX w) (fY w) else .tsplitX (decGuard (fG w)) (fX w) (fY w)
  | 2 => .evqrd (decGuard (fG w)) (fLvl w) (fX w) (fY w) (((fOrd w) / 2) % 2 == 1) (((fOrd w) % 2) % 2 == 1)
  | _ => .undefinedInstruction w

/-- Major 0x31 (R96). -/
def dec31 (w : Nat) : Instr :=
  match fLF w with
  | 0 => .bar (decGuard (fG w)) (fLvl w)
  | 1 => .fenceRel (decGuard (fG w)) (fLvl w)
  | 2 => .fenceAcq (decGuard (fG w)) (fLvl w)
  | 3 => .fenceAcqrel (decGuard (fG w)) (fLvl w)
  | 4 => .fenceSc (decGuard (fG w)) (fLvl w)
  | _ => .undefinedInstruction w

/-- Major 0x32 (R96). -/
def dec32 (w : Nat) : Instr :=
  match fLF w with
  | 0 => .mcopyDown (decGuard (fG w)) (fLvl w) (fX w) (fY w) ((fOrd w) % 2 == 1)
  | 1 => .mcopyUp (decGuard (fG w)) (fLvl w) (fX w) (fY w) ((fOrd w) % 2 == 1)
  | _ => .undefinedInstruction w

/-- Major 0x33 (R96). -/
def dec33 (w : Nat) : Instr :=
  .reduce (decGuard (fG w)) (fLvl w) (fX w) (fY w) (.ofCode (fLF w)) (((fOrd w) / 2) % 2 == 1) (((fOrd w) % 2) % 2 == 1)

/-- Major 0x34 (R96). -/
def dec34 (w : Nat) : Instr :=
  match fF w with
  | 0 => .cmbopen (decGuard (fG w)) (fD w) (fA w)
  | 1 => .cmbput (decGuard (fG w)) (fD w) (fA w) (fB w)
  | 2 => if fB w = 0 then .cmbwait (decGuard (fG w)) (fD w) (fA w) else .cmbwaitBatch (decGuard (fG w)) (fD w) (fA w)
  | 3 => if fB w = 0 then .cmbclose (decGuard (fG w)) (fA w) else .cmbcloseDrop (decGuard (fG w)) (fA w)
  | 4 => .cmbstat (decGuard (fG w)) (fD w) (fA w) (fB w)
  | _ => .undefinedInstruction w

/-- Major 0x36 (R96). -/
def dec36 (w : Nat) : Instr :=
  match fF w with
  | 5 => .collwait (decGuard (fG w)) (fD w) (fA w)
  | 6 => .collq (decGuard (fG w)) (fD w) (fA w)
  | 7 => .laydef (decGuard (fG w)) (fD w) (fA w)
  | 0 => .coll (decGuard (fG w)) (fD w) (fA w) .copy
  | 1 => .coll (decGuard (fG w)) (fD w) (fA w) .sum
  | 2 => .coll (decGuard (fG w)) (fD w) (fA w) .max
  | 3 => .coll (decGuard (fG w)) (fD w) (fA w) .permute
  | 4 => .coll (decGuard (fG w)) (fD w) (fA w) .sumAccum
  | _ => .undefinedInstruction w

/-- Major 0x38 (R96). -/
def dec38 (w : Nat) : Instr :=
  match fSF w with
  | 0 => .trap (decGuard (fG w)) (fSel w)
  | 1 => if fSel w = 0 then .tret (decGuard (fG w)) else .tretAbort (decGuard (fG w)) (fA w)
  | 2 => .sread (decGuard (fG w)) (fD w) ((fA w) % 2 == 1) (fSel w)
  | 3 => .swrite (decGuard (fG w)) (fD w) ((fA w) % 2 == 1) (fSel w)
  | _ => .undefinedInstruction w

/-- Major 0x39 (R96). -/
def dec39 (w : Nat) : Instr :=
  match fSF w with
  | 0 => .winsel (decGuard (fG w)) (fA w)
  | 1 => .winrd (decGuard (fG w)) (fD w) (fA w)
  | 2 => .winwr (decGuard (fG w)) (fD w) (fA w)
  | 3 => .oplrd (decGuard (fG w)) (fD w) (fA w) (fSel w)
  | _ => .undefinedInstruction w

/-- Major 0x3A (R96). -/
def dec3A (w : Nat) : Instr :=
  match fSF w with
  | 0 => .rqrd (decGuard (fG w)) (fD w) (fA w)
  | 1 => .rqinj (decGuard (fG w)) (fA w)
  | 2 => .rqdrop (decGuard (fG w)) (fD w) (fA w)
  | 3 => if fSel w = 0 then .ctxswSave (decGuard (fG w)) (fA w) else .ctxswRestore (decGuard (fG w)) (fA w)
  | _ => .undefinedInstruction w

/-- Major 0x3B (R96). -/
def dec3B (w : Nat) : Instr :=
  match fSF w with
  | 0 => .halt (decGuard (fG w)) (.ofCode (fSel w))
  | 1 => .resume (decGuard (fG w)) (.ofCode (fSel w))
  | 2 => if fSel w = 0 then .tlbi (decGuard (fG w)) (fD w) (fA w) else .tlbiW (decGuard (fG w)) (fD w) (fA w)
  | 3 => .asidgen (decGuard (fG w)) (fD w)
  | _ => .undefinedInstruction w

/-- Major 0x3F, the hint words (R89, R92, R93). -/
def dec3F (w : Nat) : Instr :=
  match w / 2 ^ 24 % 4 with
  | 0 => .hntWide (w % 2 ^ 24)
  | 1 => .hntSched (w / 256 % 65536) (w / 128 % 2 == 1) (w / 64 % 2 == 1) (w / 8 % 8) (w / 4 % 2 == 1) (w % 4)
  | 2 => .hntMod (w / 2 ^ 20 % 16) (w % 2 ^ 20)
  | _ => .undefinedInstruction w

/-- The instruction that the major opcode and fn of a word select (R95, R96), before the checks. -/
def candidate (w : Nat) : Instr :=
  match fMaj w with
  | 1 => dec01 w
  | 2 => dec02 w
  | 3 => dec03 w
  | 4 => dec04 w
  | 5 => dec05 w
  | 6 => dec06 w
  | 7 => dec07 w
  | 8 => dec08 w
  | 9 => dec09 w
  | 10 => dec0A w
  | 16 => dec10 w
  | 20 => dec14 w
  | 21 => dec15 w
  | 22 => dec16 w
  | 24 => dec18 w
  | 25 => dec19 w
  | 26 => dec1A w
  | 28 => dec1C w
  | 29 => dec1D w
  | 30 => dec1E w
  | 31 => dec1F w
  | 32 => dec20 w
  | 33 => dec21 w
  | 34 => dec22 w
  | 35 => dec23 w
  | 36 => dec24 w
  | 37 => dec25 w
  | 38 => dec26 w
  | 39 => dec27 w
  | 40 => dec28 w
  | 41 => dec29 w
  | 42 => dec2A w
  | 44 => dec2C w
  | 45 => dec2D w
  | 46 => dec2E w
  | 47 => dec2F w
  | 48 => dec30 w
  | 49 => dec31 w
  | 50 => dec32 w
  | 51 => dec33 w
  | 52 => dec34 w
  | 54 => dec36 w
  | 56 => dec38 w
  | 57 => dec39 w
  | 58 => dec3A w
  | 59 => dec3B w
  | 63 => dec3F w
  | _ => .undefinedInstruction w

/-- Decoding of a 32-bit word (R98 orders 2 and 3, as far as the word decides them). -/
def decodeWord (w : Nat) : Instr :=
  if wellFormed (candidate w) && (encode (candidate w) == some w) then candidate w
  else .undefinedInstruction w

/-- The little-endian word of four bytes (R4). -/
def wordOfBytes (b0 b1 b2 b3 : Byte) : Nat :=
  b0.toNat + b1.toNat * 2 ^ 8 + b2.toNat * 2 ^ 16 + b3.toNat * 2 ^ 24

/-- Decoding of bytes in memory order: the instruction and the bytes after it; none when fewer than
four bytes stand there. -/
def decodeBytes : List Byte → Option (Instr × List Byte)
  | b0 :: b1 :: b2 :: b3 :: rest => some (decodeWord (wordOfBytes b0 b1 b2 b3), rest)
  | _ => none

/-- The four bytes of a word in memory order (R4). -/
def bytesOfWord (w : Nat) : List Byte :=
  [BitVec.ofNat 8 w, BitVec.ofNat 8 (w / 2 ^ 8), BitVec.ofNat 8 (w / 2 ^ 16), BitVec.ofNat 8 (w / 2 ^ 24)]

/-- The instruction that the decoder reads from an instruction whose bits are w, numbered as
spec/opcode_table.json numbers them; every instruction of the machine is one 32-bit word. -/
def decodeTableWord (nbits w : Nat) : Option Instr :=
  if nbits ≤ 32 ∧ w < 2 ^ 32 then (decodeBytes (bytesOfWord w)).map (·.1) else none

end Sys2Proof
end

