-- ==== Sys2Proof/Machine/Sparse.lean ====
section
/-! DEFINITION. Finite maps from Nat as sorted lists of pairs, the one canonical form in which the
state holds memories, register files and tables: keys strictly rising, and, where the map has a value
for unlisted keys, no entry equal to it. -/

namespace Sys2Proof.Machine

/-- A finite map, as pairs in ascending key order. -/
abbrev Sparse (α : Type) := List (Nat × α)

/-- The entry at a key. -/
def Sparse.find {α : Type} : Sparse α → Nat → Option α
  | [], _ => none
  | (k, v) :: r, n => if n = k then some v else Sparse.find r n

/-- The map with an entry placed in order, replacing the one at its key. -/
def Sparse.put {α : Type} : Sparse α → Nat → α → Sparse α
  | [], n, v => [(n, v)]
  | (k, w) :: r, n, v =>
    if n < k then (n, v) :: (k, w) :: r
    else if n = k then (n, v) :: r
    else (k, w) :: Sparse.put r n v

/-- The map with the entry at a key changed, if there is one. -/
def Sparse.adjust {α : Type} : Sparse α → Nat → (α → α) → Sparse α
  | [], _, _ => []
  | (k, w) :: r, n, f => if n = k then (k, f w) :: r else (k, w) :: Sparse.adjust r n f

/-- The map without the entry at a key. -/
def Sparse.del {α : Type} : Sparse α → Nat → Sparse α
  | [], _ => []
  | (k, w) :: r, n => if n = k then Sparse.del r n else (k, w) :: Sparse.del r n

/-- The value at a key of a map whose unlisted keys hold d. -/
def Sparse.get {α : Type} (d : α) (m : Sparse α) (n : Nat) : α := (Sparse.find m n).getD d

/-- The map with a value written at a key; writing d removes the entry. -/
def Sparse.set {α : Type} [DecidableEq α] (d : α) (m : Sparse α) (n : Nat) (v : α) : Sparse α :=
  if v = d then Sparse.del m n else Sparse.put m n v

/-- The keys rise strictly and lie above a bound. -/
def Sparse.risesFrom {α : Type} : Nat → Sparse α → Bool
  | _, [] => true
  | b, (k, _) :: r => decide (b ≤ k) && Sparse.risesFrom (k + 1) r

/-- The canonical form of a map whose unlisted keys hold d. -/
def Sparse.wf {α : Type} [DecidableEq α] (d : α) (m : Sparse α) : Bool :=
  Sparse.risesFrom 0 m && m.all (fun e => decide (e.2 ≠ d))

/-- n values from a key upward. -/
def Sparse.getRun {α : Type} (d : α) (m : Sparse α) (base n : Nat) : List α :=
  (List.range n).map (fun i => Sparse.get d m (base + i))

/-- Values written from a key upward. -/
def Sparse.setRun {α : Type} [DecidableEq α] (d : α) (m : Sparse α) (base : Nat) : List α → Sparse α
  | [] => m
  | v :: r => Sparse.setRun d (Sparse.set d m base v) (base + 1) r

/-- The map without the entries whose keys lie in [lo, hi). -/
def Sparse.clear {α : Type} (m : Sparse α) (lo hi : Nat) : Sparse α :=
  m.filter (fun e => decide (e.1 < lo) || decide (hi ≤ e.1))

/-- The least Nat from b up, within fuel steps, that is not a key. -/
def Sparse.freshFrom {α : Type} (m : Sparse α) : Nat → Nat → Nat
  | b, 0 => b
  | b, f + 1 => if (Sparse.find m b).isSome then Sparse.freshFrom m (b + 1) f else b

/-- A key above every key of the map. -/
def Sparse.next {α : Type} (m : Sparse α) : Nat := m.foldl (fun a e => max a (e.1 + 1)) 0

/-- Every entry of a map changed. -/
def mapVals {α : Type} (m : Sparse α) (f : Nat → α → α) : Sparse α := m.map (fun (e : Nat × α) => (e.1, f e.1 e.2))

end Sys2Proof.Machine
end

