-- ==== Sys2Proof/Machine/State.lean ====
section
/-! DEFINITION. The state of the Soldon SX8, as plain data: everything spec/ gives the machine.
INVENTORY.md lists each piece with its rule and its reset value. -/

namespace Sys2Proof.Machine

/-- A piece of physical storage: an address of package memory (key package·2^40 + local address), of
host memory, or an offset in the store of a unit (core store of a team, cluster memory of a cluster
unit with the die bit at 22, die store of an L3 unit). -/
inductive Loc
  | none
  | hbm (k : Nat)
  | host (k : Nat)
  | store (u off : Nat)
  deriving DecidableEq, Repr, Inhabited

/-- A register name, as the scoreboard and the range check of R57 see it. -/
inductive RegName
  | v (n : Nat) | g (n : Nat) | t (n : Nat) | a (n : Nat) | s (n : Nat) | e (n : Nat) | cv (n : Nat)
  deriving DecidableEq, Repr, Inhabited

/-- What a lane waits for (R28, R241, and the descriptions).  The lane's PC stands at the waiting
instruction; for a wait inside a hint sequence its hints stay pending. -/
inductive Wait
  | none
  /-- a barrier at a level (R293) -/
  | bar (k : Nat)
  /-- a sequencer's join (R294), or the implicit one of EXIT (R41) -/
  | join
  /-- a LAUNCH of n children whose event-queue slot is reserved and whose earlier children run
  (R290 step 4) -/
  | launch (n : Nat) (tag : Word)
  /-- MBWAIT: place of the object, parity, destination (R251) -/
  | object (l : Loc) (parity : Bool) (gd : Nat)
  /-- WAITC: the operations that must complete, and the scope of the acquire that follows (R243, R247) -/
  | counts (ids : List Nat) (scope : Nat)
  /-- CMBWAIT on a handle, destination (R196) -/
  | combine (handle : Word) (gd : Nat)
  /-- CMBWAIT.batch on a batch number, destination (R196) -/
  | batch (n : Nat) (gd : Nat)
  /-- COLLWAIT on a table entry, destination (R274) -/
  | ticket (ix gen : Nat) (gd : Nat)
  /-- EVQRD with WAIT: the tag under MATCH, first destination (R292) -/
  | event (tag : Option Word) (gx : Nat)
  /-- SLEEP until a reference count (R308) -/
  | sleep (t : Nat)
  /-- a convergence wait on a register of the team, by MMA or by CVDECL (R161, R162) -/
  | converge (cv : Nat) (mma : Bool)
  /-- a release or an acquire before its effect: entries (context, entry) of the lane to be performed; an acquire
  does not wait for those that are parked, a release does (R241); each lane waits for its own, or all lanes of one
  issue for all; a store is waited for until it has come as far as `reach` says (R238): 1 the core data cache, 2 the
  die cache, 3 its home; and a release at `scope`, 0 for an acquire, until what it merges and drains can go (R185, R22) -/
  | release (l : List (Nat × Nat)) (parked each : Bool) (reach scope : Nat)
  /-- TLBI or ASIDGEN after its effect: accesses to be performed, register written at the end
  (R331 to R333) -/
  | accesses (l : List (Nat × Nat × Nat)) (gd : Option (Nat × Word))
  /-- HALT waiting for its groups to be reported stopped (R386) -/
  | halting (sc : HScope)
  /-- CTXSW waiting for the team's in-flight entries (R387) -/
  | ctxsw
  /-- TRET waiting for the other handler lanes (R380) -/
  | tret (abort : Bool) (status : Word)
  /-- a fetch fault's record (R335) -/
  | fetch (id : Nat)
  /-- a core-store access to a team that is not placed (R203) -/
  | team (u : Nat)
  /-- an accumulator instruction, LDSC or tile access that the scoreboard orders behind entries of
  the context (R69, R158, R164) -/
  | order (ids : List Nat)
  deriving DecidableEq, Repr, Inhabited

/-- What a held instruction needs (R301, R302). -/
inductive Hold
  | requestSlots (n : Nat) | counter (c : CClass) | blocks (isB : Bool) (n : Nat) | reservation | drain
  | copyQueue | replayQueue
  deriving DecidableEq, Repr, Inhabited

/-- One lane of a context (R28). -/
structure Lane where
  pc : DWord := 0
  exited : Bool := false
  passOver : Nat := 0
  pred : BitVec 8 := 0
  /-- pending hint words, oldest first (R90) -/
  hints : List Word := []
  /-- bits [63:32] latched by the latest read of %reftime.lo (R75) -/
  refHi : Word := 0
  /-- the skip flag of R402 -/
  skip : Bool := false
  wait : Wait := .none
  /-- accesses that a `FENCE.acqrel` of the lane still orders ahead of its later writes, with the fence's scope, while
  its later loads go ahead (R229): entries of the context -/
  debt : Option (List Nat × Nat) := none
  deriving DecidableEq, Repr, Inhabited

/-- The translation-cache entry, or the leaf of a walk, through which a page was translated (R330 to R332). -/
structure Via where
  asid : Nat
  gen : Nat
  va : Nat
  bits : Nat
  /-- G = 1 -/
  glob : Bool
  /-- found by a walk, through non-leaf entries -/
  walked : Bool
  /-- one of those has G = 1 -/
  globWalk : Bool := false
  deriving DecidableEq, Repr, Inhabited

/-- What one lane's access captured at issue, and how far it has got (R207, R215, R373). -/
structure Cap where
  /-- effective address, or local address -/
  va : Nat := 0
  /-- bytes of the whole access -/
  len : Nat := 0
  /-- where each page of the access, in ascending order, was found; empty while not translated -/
  pages : List Loc := []
  data : List Word := []
  /-- words performed, c_l of R215 -/
  progress : Nat := 0
  /-- the access leaves the core data cache alone (R325 PBMT 1, R93 no-allocate) -/
  nc : Bool := false
  /-- fault record the lane is parked on, plus one; 0 when not parked -/
  parked : Nat := 0
  done : Bool := false
  /-- cache policy of R93 -/
  policy : Nat := 0
  /-- the lane's own hint words (R432) -/
  hints : List Word := []
  /-- how each page was translated -/
  via : List Via := []
  /-- a store that has reached the core data cache (1) or the die cache (2), and not yet its home (R238) -/
  stage : Nat := 0
  /-- words performed apart from the others (R208): their index in what is left of the access, and what a load read -/
  got : Sparse Word := []
  /-- an acquire by fence has passed this parked read: its scope, and the first entry that it orders (R229, R241) -/
  acq : Option (Nat × Nat) := none
  deriving DecidableEq, Repr, Inhabited

/-- One chunk of a copy (R254, R262). -/
structure Chunk where
  child : Nat := 0
  off : Nat := 0
  len : Nat := 0
  /-- fault record, plus 2^32 times its package, plus one -/
  parked : Nat := 0
  /-- 0 not sent, 1 dropped and waiting for a reservation, 2 a window granted, 3 written, 4 given up -/
  st : Nat := 0
  /-- the count at which a granted window ends -/
  window : Nat := 0
  /-- the child that an upward copy reads, plus one: a group's context at L1, else a unit (R257) -/
  from' : Nat := 0
  /-- words moved apart from the others (R234, R254) -/
  got : List Nat := []
  deriving DecidableEq, Repr, Inhabited

/-- A pass posted to the reservation table (R162, R163). -/
structure Pass where
  posA : Nat := 0
  posB : Nat := 0
  quarter : Nat := 0
  prio : Nat := 0
  ovA : Bool := false
  ovB : Bool := false
  gs64 : Bool := false
  posted : Nat := 0
  granted : Bool := false
  deriving DecidableEq, Repr, Inhabited

/-- An entry of a context's replay queue, or of the drain queue (R372, R164): an issued instruction
that is not yet globally performed. -/
structure RqEntry where
  id : Nat
  /-- place in the issue order of its class (R247) -/
  serial : Nat := 0
  /-- the cycle in which it issued (R317) -/
  at' : Nat := 0
  ins : Instr
  word : Word
  pc : DWord
  hints : List Word
  /-- KIND of R372; 8 marks an accumulator drain, which stands in the drain queue only -/
  kind : Nat
  cls : Option CClass
  /-- registers the scoreboard holds until the entry completes -/
  holds : List RegName
  caps : Sparse Cap
  /-- uniform operands captured at issue -/
  args : List Word
  leader : Nat
  chunks : List Chunk
  pass : Option Pass
  /-- barrier object it counts into, and the bytes it has counted (R394) -/
  obj : Loc
  counted : Nat
  /-- pending hints of the lanes that issued it, where they had some (R92, R432) -/
  laneHints : Sparse (List Word) := []
  deriving DecidableEq, Repr

/-- A block resident in, or on its way to, an operand stream (R157). -/
structure Block where
  pos : Nat
  slot : Nat
  arrived : Bool
  entry : Nat
  data : List Byte
  record : List Byte
  deriving DecidableEq, Repr, Inhabited

/-- One operand stream of a group: the counters F and C of R157 and its blocks. -/
structure Stream where
  fill : Nat := 0
  cons : Nat := 0
  blocks : List Block := []
  deriving DecidableEq, Repr, Inhabited

/-- An event record (R38). -/
structure EvRec where
  kind : Nat
  level : Nat
  status : Nat
  tag : Word
  doneCount : Nat
  aborted : Nat
  deriving DecidableEq, Repr, Inhabited

/-- The trap frame's stored fields (R371). -/
structure Frame where
  cause : Nat := 0
  fpc : DWord := 0
  rpc : DWord := 0
  lanes : Word := 0
  info : DWord := 0
  nhint : Nat := 0
  word : Word := 0
  time : Nat := 0
  deriving DecidableEq, Repr, Inhabited

/-- The three kinds of issuing context. -/
inductive CtxKind | group | seq | handler
  deriving DecidableEq, Repr, Inhabited

/-- A place in a package, as %physloc names it (R74). -/
structure Site where
  mast : Bool := false
  die : Nat := 0
  clus : Nat := 0
  core : Nat := 0
  deriving DecidableEq, Repr, Inhabited

/-- An issue: the context, the cohort and its PC (R29). -/
structure Issue where
  ctx : Nat := 0
  lanes : Word := 0
  pc : DWord := 0
  deriving DecidableEq, Repr, Inhabited

/-- An issuing context: a lane group, a sequencer context or a core's handler slot. -/
structure Ctx where
  kind : CtxKind := .group
  pkg : Nat := 0
  site : Site := {}
  grid : Nat := 0
  /-- the team of a group, the unit of a sequencer; unused by a handler -/
  unit : Nat := 0
  asid : Nat := 0
  /-- field-1 index within the team (R32) -/
  index : Nat := 0
  /-- the group holds a core (R288); a waiting group is pending -/
  placed : Bool := false
  retired : Bool := false
  resIdx : Nat := 0
  /-- work identifier with the lane field zero (R32, R34) -/
  wid : DWord := 0
  lanes : Sparse Lane := []
  /-- v_n of lane l at 32n + l -/
  v : Sparse Word := []
  g : Sparse Word := []
  /-- e_k of lane l at 32k + l -/
  e : Sparse Word := []
  fpflags : BitVec 6 := 0
  /-- lane l's stash byte o at 2048l + o -/
  stash : Sparse Byte := []
  /-- tile t's byte o at 1024t + o -/
  tiles : Sparse Byte := []
  /-- accumulator a's element (i, j) at 256a + 16i + j -/
  accs : Sparse Word := []
  /-- scale register s's payload byte k at 32s + k -/
  scales : Sparse Byte := []
  /-- scale control words: [3:0] GEN, [4] FORM (R81) -/
  sctl : Sparse (BitVec 5) := []
  /-- vector tags and tile tags in the layouts of R81 -/
  vtags : Sparse (BitVec 16) := []
  ttags : Sparse (BitVec 16) := []
  strA : Stream := {}
  strB : Stream := {}
  quarter : Nat := 0
  gs64 : Bool := false
  /-- 16 entries at most, 0xFF for an unused one (R80) -/
  regionSet : List Nat := []
  staged : List Nat := []
  misses : Nat := 0
  /-- a granted issue with a region miss, and the cycle from which it issues (R72, R317) -/
  missAt : Option (Issue × Nat) := none
  /-- loaded vector registers, lane by lane, and the cycle from which a dependent instruction may issue (R317) -/
  late : List (Nat × Nat × Nat) := []
  rq : List RqEntry := []
  nextId : Nat := 0
  /-- operations of a class issued so far, by the code of R246 -/
  issued : Sparse Nat := []
  evq : List EvRec := []
  /-- event-queue slots reserved and not yet posted (R39) -/
  evResv : Nat := 0
  /-- arrivals at BAR.Lk: level and lane mask (R293) -/
  arrived : Sparse Word := []
  /-- the half's phase 1 of a split BAR.L2 is complete (R49) -/
  phase2 : Bool := false
  /-- implicit join of EXIT under way (R41) -/
  exiting : Bool := false
  /-- scheduler (R297 to R301) -/
  pos : Option Nat := none
  age : Nat := 0
  entered : Nat := 0
  readySince : Option Nat := none
  notBefore : Nat := 0
  yld : Bool := false
  prio : Nat := 0
  hold : Option (Hold × Nat) := none
  /-- the issue that is held (R301) -/
  heldAt : Issue := {}
  withdrawn : Bool := false
  /-- hang watchdog: the watched PC and the ticks counted (R310) -/
  watch : Option (DWord × Nat) := none
  trapped : Bool := false
  /-- cycle in which it joined its core's handler queue (R375) -/
  queuedAt : Nat := 0
  halted : Bool := false
  haltPend : Bool := false
  frame : Frame := {}
  inHdl : Bool := false
  /-- handler slot: served context, window selection, %hfs, %hfa, entry values (R375, R382) -/
  served : Nat := 0
  winIdx : Nat := 0
  winRegion : Nat := 0
  hfs : Word := 0
  hfa : DWord := 0
  deriving DecidableEq, Repr

/-- A convergence register (R70). -/
structure CvReg where
  owner : Nat := 0
  coll : Bool := false
  signed : Word := 0
  decl : Word := 0
  deriving DecidableEq, Repr, Inhabited

/-- A LAUNCH of a sequencer (R290): its children and what has become of them. -/
structure Launch where
  tag : Word
  n : Nat
  doneCount : Nat
  aborted : Nat
  status : Nat
  posted : Bool
  deriving DecidableEq, Repr, Inhabited

/-- An array folio that an engine has written (R172): the passes frozen in it.  Its bytes are opaque but for the version;
`ix` says which free bytes they are. -/
structure Folio where
  ix : Nat
  isB : Bool
  passes : List RqEntry
  deriving DecidableEq, Repr

/-- What a unit is doing. -/
inductive UnitSt
  /-- waiting for placement -/
  | waiting
  | running
  /-- moving to other dies (R392): stopped, and then waiting for a place -/
  | moving (saved : Bool)
  /-- swapped out of its core and spilling, then waiting to be restored (R307, R391) -/
  | swapped (spilled : Bool)
  /-- aborting with a cause (R393) -/
  | aborting (cause : Nat)
  /-- completed, its allocation kept for its parent (R257) -/
  | kept
  deriving DecidableEq, Repr, Inhabited

/-- A unit of level 1 to 5 (R31). -/
structure WUnit where
  level : Nat := 1
  grid : Nat := 0
  /-- parent unit plus one; 0 for a root unit -/
  parent : Nat := 0
  index : Nat := 0
  wid : DWord := 0
  pkg : Nat := 0
  st : UnitSt := .waiting
  site : Site := {}
  split : Bool := false
  /-- the odd half's site of a split cluster unit (R47) -/
  site2 : Site := {}
  /-- the sequencer context plus one; 0 when the unit has none -/
  seq : Nat := 0
  /-- a drain moves the unit off a Spar-B die, to any die (R424) -/
  anyDie : Bool := false
  /-- a drain moves the unit (R424) -/
  drained : Bool := false
  /-- order of creation (R289) -/
  age : Nat := 0
  /-- the cycle at which it was placed last (R305) -/
  placedAt : Nat := 0
  store : Sparse Byte := []
  cvs : Sparse CvReg := []
  launch : Option Launch := none
  /-- a child index has been created by the current or an earlier LAUNCH (R256) -/
  created : Nat := 0
  yielded : Bool := false
  forced : Bool := false
  /-- yield deadline, held while the core carries a request (R305) -/
  deadline : Option Nat := none
  /-- save-pool areas held, by area index -/
  areas : List Nat := []
  /-- halves that have arrived at a split BAR.L2: bit 0 even, bit 1 odd (R49) -/
  halves : BitVec 2 := 0
  /-- first abort cause among the unit's own contexts -/
  cause : Nat := 0
  deriving DecidableEq, Repr, Inhabited

/-- A grid: one accepted launch (R43, R53, R284). -/
structure Grid where
  pkg : Nat := 0
  queue : Nat := 0
  prio : Nat := 0
  tag : Word := 0
  cev : Option Nat := none
  record : Nat := 0
  qasid : Nat := 0
  asid : Nat := 0
  rootLvl : Nat := 1
  rootCnt : Nat := 1
  splitOk : Bool := false
  pinA : Bool := false
  shadow : Bool := false
  ndfp : Bool := false
  rr : Bool := false
  seqL1 : Bool := false
  entry : DWord := 0
  w1 : Nat := 0
  w2 : Nat := 0
  w3 : Nat := 0
  w4 : Nat := 0
  w5 : Nat := 0
  vregs : Nat := 8
  gregs : Nat := 16
  tiles : Nat := 0
  accs : Nat := 0
  sregs : Nat := 0
  stash : Nat := 64
  cstore : Nat := 0
  dstore : Nat := 0
  clmem : Nat := 0
  fmtslots : DWord := 0
  hangwd : Nat := 0
  yielddl : Nat := 1
  argp : DWord := 0
  startHalted : Bool := false
  rootsDone : Nat := 0
  status : Nat := 0
  /-- validation failed: the completion record alone is due (R44, R286) -/
  failed : Bool := false
  /-- fault record plus one on which the completion-record write is parked (R286) -/
  parked : Nat := 0
  deriving DecidableEq, Repr, Inhabited

/-- A reduction slot (R180): site 0 to 7 is the home unit of a die, 8 + n the near unit of cluster n
of the package. -/
structure RedSlot where
  site : Nat
  loc : Loc
  acc : BitVec 320
  nan : Bool
  pinf : Bool
  ninf : Bool
  nz : Bool
  asid : Nat
  grid : Nat
  used : Nat
  deriving DecidableEq, Repr, Inhabited

/-- Slots of a reduction unit that a chunk of a collective sum is adding into: pinned (R185, R272). -/
structure Pin where
  site : Nat
  asid : Nat
  /-- package and table index of the collective's entry, and its chunk -/
  pkg : Nat
  ix : Nat
  ch : Nat
  n : Nat
  deriving DecidableEq, Repr, Inhabited

/-- A shadow word (R186). -/
structure ShadowWord where
  die : Nat
  key : Nat
  asid : Nat
  grid : Nat
  op : RedOp
  val : Word
  deriving DecidableEq, Repr, Inhabited

/-- State of a combine slot (R193 to R195): past its release point it is due, then formed, then
released. -/
inductive CmbSt | free | opened | due | formed | released
  deriving DecidableEq, Repr, Inhabited

/-- A combine slot (R189). -/
structure CmbSlot where
  st : CmbSt := .free
  gen : Nat := 0
  asid : Nat := 0
  grid : Nat := 0
  /-- the L3 unit whose die store holds the row and staging area -/
  unit : Nat := 0
  exp : BitVec 16 := 0
  arr : BitVec 16 := 0
  gates : Sparse Word := []
  width : Nat := 0
  outOff : Nat := 0
  stgOff : Nat := 0
  deadline : Option Nat := none
  batch : Nat := 0
  sub : BitVec 16 := 0
  late : BitVec 16 := 0
  lateCnt : Nat := 0
  /-- release word (R195) -/
  word : Word := 0
  drop : Bool := false
  /-- context whose event queue holds the reservation, plus one (R39) -/
  resv : Nat := 0
  deriving DecidableEq, Repr, Inhabited

/-- A fault record (R337) that is not yet both written and answered. -/
structure FRec where
  id : Nat
  asid : Nat
  gen : Nat
  kind : Nat
  acc : Nat
  eng : Bool
  src : Nat
  va : Nat
  pte : DWord
  mast : Bool
  loc : Nat
  written : Bool
  /-- save-pool area of an abort record, plus one (R393) -/
  area : Nat
  /-- answered while the ring had not taken it yet (R336, R338) -/
  answered : Bool := false
  deriving DecidableEq, Repr, Inhabited

/-- A translation cache entry (R330): site 0 to 2,047 a core's first-level TLB, 4,096 + n the
second-level TLB of cluster n. -/
structure TlbEntry where
  site : Nat
  asid : Nat
  gen : Nat
  va : Nat
  bits : Nat
  pte : DWord
  deriving DecidableEq, Repr, Inhabited

/-- A walk cache entry of a die (R330): level 5 is the ASID root, lower levels the tables that an
address prefix leads to. -/
structure WalkEntry where
  die : Nat
  asid : Nat
  gen : Nat
  level : Nat
  va : Nat
  ppn : Nat
  /-- G = 1 in the pointer entry -/
  glob : Bool := false
  deriving DecidableEq, Repr, Inhabited

/-- A record of the archive zone (R340, R341): handle and length in 64-byte units, and the page. -/
structure ArchRec where
  handle : Nat
  len : Nat
  page : List Byte
  deriving DecidableEq, Repr, Inhabited

/-- A line of a core data cache (R238, R240). -/
structure DLine where
  core : Nat
  key : Nat
  fill : Nat
  /-- the core has written it since it was filled -/
  written : Bool := false
  /-- the scopes at which releases have marked its written words owned -/
  own : List Nat := []
  /-- cache policy retain (R93) -/
  keep : Bool := false
  data : List Byte
  /-- words of the line that the cache does not hold: words with an open reduction slot (R183) -/
  holes : List Nat := []
  deriving DecidableEq, Repr, Inhabited

/-- A line held by a die cache, or by the mast cache as die 8 (R20, R238, R258). -/
structure DieLine where
  die : Nat
  key : Nat
  /-- the invalidation that a write at the home sends is still on its way: what the line held, and since when (R235) -/
  old : Option (List Byte × Nat) := none
  /-- a release at L4 has ordered the write: an acquire that reads the line at L4 or L5 reads it at the home (R235) -/
  due : Bool := false
  deriving DecidableEq, Repr, Inhabited

/-- Bytes of a store that are written in the core data cache, or in the die cache, and not yet at their home (R235,
R238). -/
structure Early where
  die : Nat
  core : Nat
  /-- in the die cache, where every party of the die reads them -/
  onDie : Bool
  key : Nat
  bytes : List Byte
  ctx : Nat
  entry : Nat
  lane : Nat
  deriving DecidableEq, Repr, Inhabited

/-- A directory entry of a home line (R258): sharers as package·16 + die, 8 for the mast cache. -/
structure DirEntry where
  key : Nat
  sharers : List Nat
  broadcast : Bool
  deriving DecidableEq, Repr, Inhabited

/-- A layout descriptor (R264). -/
structure Layout where
  rank : Nat
  naxes : Nat
  elsz : Nat
  lvl1 : Bool
  base : Nat
  ext : List Nat
  axes : List Nat
  /-- per dimension: kind, axis, block size -/
  sh : List (Nat × Nat × Nat)
  stride : Nat
  first : Nat
  deriving DecidableEq, Repr, Inhabited

/-- An entry of the package's layout tables (R266). -/
structure LayoutEnt where
  grid : Nat
  ix : Nat
  gen : Nat
  lay : Layout
  deriving DecidableEq, Repr, Inhabited

/-- One member's collective in its package's table (R267 to R274). -/
structure CollEnt where
  gen : Nat := 0
  used : Bool := false
  op : CollOp := .copy
  grid : Nat := 0
  asid : Nat := 0
  ctx : Nat := 0
  entry : Nat := 0
  th : Word := 0
  seq : Nat := 0
  member : Nat := 0
  src : Layout := default
  dst : Layout := default
  ty : Nat := 0
  first : Bool := false
  final : Bool := false
  area : Nat := 0
  started : Bool := false
  /-- source shard as read at the start -/
  data : List Byte := []
  /-- chunks of the destination that have passed the last step -/
  chunks : List Nat := []
  /-- chunks in the staging region, with their places in it (R276, R339) -/
  staged : List (Nat × Nat) := []
  /-- chunks that the overflow list held when the member issued (R276) -/
  early : List Nat := []
  /-- words of chunks written before the rest: chunk and word (R234) -/
  got : List (Nat × Nat) := []
  /-- chunk faults: chunk index and record -/
  parkedCh : List (Nat × Nat) := []
  doneFlag : Bool := false
  status : Nat := 0
  exch : Nat := 0
  deriving DecidableEq, Repr, Inhabited

/-- A chunk in a package's overflow area (R276): of a collective that its member has not issued yet, the member by its die
or package number, and the chunk's place in the area. -/
structure OvChunk where
  grid : Nat
  th : Word
  lvl1 : Bool
  seq : Nat
  member : Nat
  ch : Nat
  node : Nat
  deriving DecidableEq, Repr, Inhabited

/-- A packet held by command-packet breakpoints (R404), as it was read, with its launch record as it was validated (R364). -/
structure Held where
  mask : BitVec 4
  halt : Bool
  packet : List Byte := []
  record : List Byte := []
  deriving DecidableEq, Repr, Inhabited

/-- How the service register block answered a master's request (R350, R352, R357). -/
inductive Reply
  | taken
  /-- the write had no effect and froze its master -/
  | froze
  /-- the refusal that R350 gives the master -/
  | refused
  deriving DecidableEq, Repr, Inhabited

/-- How an application core's access ended: with the value that it read, the old value of an atomic, or 0 or 1 for an `SC`;
or with the hart's own exception. -/
inductive HartEnd
  | none
  | done (v : DWord)
  | misaligned
  | pageFault
  | accessFault
  deriving DecidableEq, Repr, Inhabited

/-- What an application core holds that the package sees: the end of its latest access, and the 64-byte line of its
reservation (R20). -/
structure Hart where
  last : HartEnd := .none
  resv : Option Nat := none
  deriving DecidableEq, Repr, Inhabited

/-- A package. -/
structure Package where
  /-- the service register space (R419): 64-bit words by offset, each XORed with its reset value -/
  regs : Sparse DWord := []
  count : Nat := 0
  phase : Nat := 0
  boot : Option BootInputs := none
  /-- stopped dies and the count each holds (R19) -/
  stopped : Sparse Nat := []
  /-- ticks by which a die's copy of the count is behind (R18), and the dies whose copies stay at the next tick -/
  lag : Sparse Nat := []
  slip : List Nat := []
  turns : Sparse Nat := []
  held : Sparse Held := []
  /-- queues waiting on a fault record: twice its ID, plus one for a launch-record read (R287) -/
  qwait : Sparse Nat := []
  /-- the launch-record read of the head packet proved unresolvable: its cause (R287) -/
  qcause : Sparse Nat := []
  offerAt : Nat := 0
  absentSince : Option Nat := none
  /-- the last request that the service register block took: its tick, and its master (R351) -/
  reqAt : Nat × Nat := (0, 0)
  /-- the answer to the latest request of each master, and of the debug port as 4 (R350, R396) -/
  replies : Sparse Reply := []
  /-- the value that each of them read last -/
  answers : Sparse DWord := []
  harts : Sparse Hart := []
  slots : List RedSlot := []
  slotClock : Nat := 0
  pins : List Pin := []
  shadows : List ShadowWord := []
  combine : Sparse CmbSlot := []
  cmbNext : Sparse Nat := []
  /-- batch counts of slots released with SUB ≠ 0, keyed (die·2^16 + ASID)·2^8 + batch (R196) -/
  batches : Sparse Nat := []
  frecs : List FRec := []
  nextFrec : Nat := 0
  tlbs : List TlbEntry := []
  walks : List WalkEntry := []
  asidGen : Sparse Nat := []
  /-- the staging fields of an ASID's entry as they are in force (R324) -/
  staging : Sparse DWord := []
  /-- accesses a running TLBCMD waits for: context, entry and lane -/
  tlbWait : List (Nat × Nat × Nat) := []
  /-- RESULT with which the running archive command ends (R340) -/
  archPend : Nat := 0
  archive : List ArchRec := []
  /-- RESULT with which the running attestation command, or firmware load, ends (R365, R426) -/
  attPend : Nat := 0
  fwPend : Nat := 0
  stagedFw : List Byte := []
  /-- save-pool areas in use -/
  poolUsed : List Nat := []
  /-- handler queue: core and context, in trap-entry order (R375) -/
  hq : List (Nat × Nat) := []
  /-- pre-emption requests: core, t0 (R305) -/
  preq : Sparse Nat := []
  /-- last grantee of a slot (core·2 + slot), plus one, and last granted position plus one (R298) -/
  grantee : Sparse Nat := []
  lastPos : Sparse Nat := []
  dlines : List DLine := []
  /-- writes on their way to their homes, in the order in which they reached their caches -/
  early : List Early := []
  dieLines : List DieLine := []
  dir : List DirEntry := []
  layouts : List LayoutEnt := []
  layGen : Sparse Nat := []
  coll : Sparse CollEnt := []
  collNext : Nat := 0
  /-- collectives issued: key (grid·2^32 + TH)·2^16 + the member's die, or 2^15 for the package -/
  collSeq : Sparse Nat := []
  /-- chunks that arrived before their member issued -/
  overflow : List OvChunk := []
  portsDown : BitVec 24 := 0
  planeFail : BitVec 8 := 0
  /-- logical planes that drain: the physical plane to which each goes, and the cycle at which it began (R260) -/
  switching : Sparse (Nat × Nat) := []
  /-- ports of planes taken back into service that have not finished retraining (R425) -/
  retrain : BitVec 24 := 0
  /-- the cycle from which an incoming group may issue after a core's shadow bank swap (R307) -/
  swapEnd : Sparse Nat := []
  samplePtr : Sparse Nat := []
  /-- cores whose samples the latest cycle has made due (R407) -/
  sampleOwed : List Nat := []
  /-- slot-account counters and snapshots: core·16 + leaf, leaf 12 is TOTAL (R411) -/
  account : Sparse DWord := []
  snap : Sparse DWord := []
  /-- trace records of the step, not yet at their homes (R407) -/
  traceq : List Nat := []
  /-- leaf charged to a slot (core·2 + slot) in the latest cycle; 11 where unlisted (R408) -/
  leaf : Sparse Nat := []
  /-- stopped cores whose return to service waits for their aborts (R377) -/
  coreReturn : List Nat := []
  heartbeats : Nat := 0
  heartbeatAt : Nat := 0
  deriving DecidableEq, Repr

/-- A message interrupt that left the package (R336, R359). -/
structure Msi where
  pkg : Nat
  addr : Nat
  ident : Nat
  deriving DecidableEq, Repr, Inhabited

/-- What the next steps take: an event, an issue of a context, ticks that pass, or what the hardware may do unseen.
MODEL type. -/
inductive AgendaItem
  | event (i : Instr)
  | issue (c : Nat)
  | ticks (n : Nat)
  /-- a lane's store reaches the next cache on the way to its home (R238) -/
  | stage (c e l : Nat)
  /-- one 4-byte word of a lane's access is performed alone (R208, R234) -/
  | word (c e l j : Nat)
  /-- one 4-byte word of a chunk of a copy is moved alone (R234, R254) -/
  | piece (c e ch j : Nat)
  /-- one 4-byte word of a collective is read at its source after the start, or written at its destination before the rest of
  its chunk (R234) -/
  | collRead (p ix j : Nat)
  | collWrite (p ix ch j : Nat)
  /-- a core data cache drops a line to make room (R15) -/
  | evict (p core key : Nat)
  /-- a lane's later loads go ahead of the release of its `FENCE.acqrel` (R229) -/
  | ahead (c l : Nat)
  /-- a die's copy of the count stays behind at the next tick (R18) -/
  | slip (p die : Nat)
  /-- invalidations of a line of a die cache take their time (R235) -/
  | linger (p die key : Nat)
  /-- the pod controller has a checkpoint group's lost member rebuilt: its number in the group and its package, the packages of
  the members, the spare in the lost one's place, local addresses of image and parity, and the image's length (R429, R430) -/
  | recover (f lost : Nat) (ms : List Nat) (image parity n : Nat)
  /-- a master, or the debug port as 4, reads a service register (R350, R352, R396) -/
  | read (p m off : Nat)
  deriving DecidableEq, Repr

/-- The whole pod as one deterministic machine. -/
structure State where
  hbm : List Host.Cell := []
  host : List Host.Cell := []
  pkgs : Sparse Package := []
  grids : Sparse Grid := []
  units : Sparse WUnit := []
  ctxs : Sparse Ctx := []
  msis : List Msi := []
  folios : List Folio := []
  cycle : Nat := 0
  agenda : List AgendaItem := []
  /-- the issue in progress.  MODEL field. -/
  cur : Issue := {}
  focus : Nat := 0
  /-- recoveries as the pod controller hears of them: the package that took a lost one's place, and whether it was rebuilt
  (R430, R431) -/
  recoveries : List (Nat × Bool) := []
  /-- package numbers in layouts for which another package stands: a spare took a lost one's place (R430) -/
  stands : Sparse Nat := []
  /-- counter from which free values are drawn.  MODEL field. -/
  free : Nat := 0
  /-- lower bound of the keys that new contexts and units take.  MODEL field. -/
  fresh : Nat := 0
  deriving DecidableEq, Repr

/-- Why the machine stops with a fault. -/
inductive Fault
  /-- Raised by an event row whose rule gives it no effect in the present state: the spec says that
  the event does not happen then.  Safe: a claim about the event needs it to be able to happen. -/
  | notEnabled (event : String)
  /-- Raised by an instruction row when no cohort of an existing context issues it: an instruction
  issues only in a cohort (R29).  Safe. -/
  | noIssue
  deriving DecidableEq, Repr

/-- Why the machine refuses. -/
inductive Refusal
  /-- Raised by an arm of exec whose instruction has no meaning yet.  Safe. -/
  | notModelled (mnemonic : String)
  deriving DecidableEq, Repr

/-- The machine right after package reset, before the boot stages run (R7, R18, R421): every service
register at its Reset column, no unit placed, nothing in memory. -/
def State.reset : State := {}

end Sys2Proof.Machine
end

