-- ==== Sys2Proof/Machine/Ops.lean ====
section
/-! DEFINITION. The named operations over registers, memory, service registers and time that every
meaning is built from. -/

namespace Sys2Proof.Machine

/-- The outcome of a step of this machine. -/
abbrev Out := Host.Outcome State Fault Refusal

/-! ### Lookups -/

/-- A package that nothing has changed since its reset: only its count goes on (R18), at full clock. -/
def freshPkg (cycle : Nat) : Package := { count := 50 * cycle / 120, phase := 50 * cycle % 120 }
/-- Package p. -/
def State.pkg (s : State) (p : Nat) : Package := (Sparse.find s.pkgs p).getD (freshPkg s.cycle)
/-- The state with package p changed. -/
def State.modPkg (s : State) (p : Nat) (f : Package → Package) : State :=
  { s with pkgs := Sparse.put s.pkgs p (f (s.pkg p)) }
/-- Context c, or an empty one. -/
def State.ctx (s : State) (c : Nat) : Ctx := (Sparse.find s.ctxs c).getD {}
/-- The state with context c changed, if there is one. -/
def State.modCtx (s : State) (c : Nat) (f : Ctx → Ctx) : State :=
  { s with ctxs := Sparse.adjust s.ctxs c f }
/-- Unit u, or an empty one. -/
def State.unit (s : State) (u : Nat) : WUnit := (Sparse.find s.units u).getD {}
/-- The state with unit u changed, if there is one. -/
def State.modUnit (s : State) (u : Nat) (f : WUnit → WUnit) : State :=
  { s with units := Sparse.adjust s.units u f }
/-- Grid g, or an empty one. -/
def State.grid (s : State) (g : Nat) : Grid := (Sparse.find s.grids g).getD {}
/-- The state with grid g changed, if there is one. -/
def State.modGrid (s : State) (g : Nat) (f : Grid → Grid) : State :=
  { s with grids := Sparse.adjust s.grids g f }
/-- The grid of a context. -/
def State.gridOf (s : State) (c : Ctx) : Grid := s.grid c.grid
/-- The parent of a unit, if it has one. -/
def WUnit.parentOf (u : WUnit) : Option Nat := if u.parent = 0 then none else some (u.parent - 1)

/-- The unit at a level among a unit and its ancestors. -/
def State.ancestor (s : State) (lvl : Nat) : Nat → Nat → Option Nat
  | _, 0 => none
  | u, fuel + 1 =>
    let x := s.unit u
    if x.level = lvl then some u
    else if x.parent = 0 then none
    else State.ancestor s lvl (x.parent - 1) fuel

/-- The level-k unit that a context belongs to (R226, R253). -/
def State.ownUnit (s : State) (c : Ctx) (lvl : Nat) : Option Nat := s.ancestor lvl c.unit 6

/-- Pairs (key, value) of the groups of a team. -/
def State.groupsOf (s : State) (u : Nat) : List (Nat × Ctx) :=
  s.ctxs.filter (fun e => decide (e.2.kind = .group) && decide (e.2.unit = u))
/-- Keys of the child units of a unit. -/
def State.childUnits (s : State) (u : Nat) : List Nat :=
  (s.units.filter (fun e => decide (e.2.parent = u + 1))).map (·.1)
/-- The units at or below a unit, to a depth. -/
def State.unitsUnder (s : State) : Nat → Nat → List Nat
  | 0, _ => []
  | d + 1, u => u :: (s.childUnits u).flatMap (fun x => State.unitsUnder s d x)
/-- The contexts, sequencers and groups, of the units at or below a unit. -/
def State.ctxsUnder (s : State) (u : Nat) : List Nat :=
  let us := s.unitsUnder 6 u
  (s.ctxs.filter (fun e => decide (e.2.kind ≠ .handler) && us.contains e.2.unit)).map (·.1)

/-! ### Sites (R31, R74) -/

/-- %physloc of a site (R74). -/
def Site.loc (x : Site) : Nat := if x.mast then 0 else x.die * 256 + x.clus * 4 + x.core
/-- %physloc with the MAST bit. -/
def Site.physloc (x : Site) : Nat := if x.mast then 2048 else x.loc
/-- The cluster's number in its package. -/
def Site.clusNo (x : Site) : Nat := x.die * 64 + x.clus
/-- The site of a core number. -/
def siteOfLoc (n : Nat) : Site := { die := n / 256 % 8, clus := n / 4 % 64, core := n % 4 }
/-- R10: compute dies 6 and 7 are Spar-B. -/
def dieIsB (d : Nat) : Bool := decide (6 ≤ d)
/-- A site whose cores, core sequencers and cluster scalar cores lack the Spar-A-only set. -/
def Site.isB (x : Site) : Bool := !x.mast && dieIsB x.die

/-- The die of a site; 8 stands for the mast die, its walk cache and the mast cache. -/
def Site.walkDie (x : Site) : Nat := if x.mast then 8 else x.die

/-! ### Lanes and registers -/

/-- Lane l of a context. -/
def Ctx.lane (c : Ctx) (l : Nat) : Lane := (Sparse.find c.lanes l).getD {}
/-- The context with lane l changed. -/
def Ctx.modLane (c : Ctx) (l : Nat) (f : Lane → Lane) : Ctx :=
  { c with lanes := Sparse.put c.lanes l (f (c.lane l)) }
/-- The context with several lanes changed. -/
def Ctx.modLanes (c : Ctx) (ls : List Nat) (f : Nat → Lane → Lane) : Ctx :=
  ls.foldl (fun c l => c.modLane l (f l)) c
/-- The number of lanes of a context: a sequencer has one (R35). -/
def Ctx.nLanes (c : Ctx) : Nat := if c.kind = .seq then 1 else 32
/-- Lane numbers of a mask, ascending. -/
def lanesOf (m : Word) : List Nat := (List.range 32).filter (fun l => m.getLsbD l)
/-- The mask of lane numbers. -/
def maskOf (ls : List Nat) : Word := ls.foldl (fun m l => m ||| (1#32 <<< l)) 0#32
/-- Lanes that have exited. -/
def Ctx.exitedMask (c : Ctx) : Word :=
  maskOf ((List.range c.nLanes).filter (fun l => (c.lane l).exited))
/-- Lanes that have not exited. -/
def Ctx.liveLanes (c : Ctx) : List Nat := (List.range c.nLanes).filter (fun l => !(c.lane l).exited)

/-- v_n of lane l. -/
def Ctx.rdV (c : Ctx) (n l : Nat) : Word := Sparse.get 0 c.v (32 * n + l)
/-- Tag n with BOUND cleared (R66). -/
def clearBound (t : Sparse (BitVec 16)) (n : Nat) : Sparse (BitVec 16) :=
  Sparse.set 0 t n (Sparse.get 0 t n &&& 0x7FFF)
/-- v_n of lane l written; the tag of v_n loses BOUND (R66, R129). -/
def Ctx.wrV (c : Ctx) (n l : Nat) (x : Word) : Ctx :=
  { c with v := Sparse.set 0 c.v (32 * n + l) x, vtags := clearBound c.vtags n }
/-- The 64-bit pair v_n : v_(n+1) of lane l (R87). -/
def Ctx.rdPairV (c : Ctx) (n l : Nat) : Nat := (c.rdV n l).toNat + 2 ^ 32 * (c.rdV (n + 1) l).toNat
/-- g_n. -/
def Ctx.rdG (c : Ctx) (n : Nat) : Word := Sparse.get 0 c.g n
/-- g_n written. -/
def Ctx.wrG (c : Ctx) (n : Nat) (x : Word) : Ctx := { c with g := Sparse.set 0 c.g n x }
/-- The pair g_n : g_(n+1). -/
def Ctx.rdPairG (c : Ctx) (n : Nat) : Nat := (c.rdG n).toNat + 2 ^ 32 * (c.rdG (n + 1)).toNat
/-- e_k of lane l. -/
def Ctx.rdE (c : Ctx) (k l : Nat) : Word := Sparse.get 0 c.e (32 * k + l)
/-- e_k of lane l written. -/
def Ctx.wrE (c : Ctx) (k l : Nat) (x : Word) : Ctx := { c with e := Sparse.set 0 c.e (32 * k + l) x }

/-- Predicate depth k of lane l (R59). -/
def Ctx.pred (c : Ctx) (l k : Nat) : Bool := (c.lane l).pred.getLsbD k
/-- R59: the push of a value in lane l. -/
def Ctx.push (c : Ctx) (l : Nat) (v : Bool) : Ctx :=
  c.modLane l (fun x => { x with pred := (x.pred <<< 1) ||| (if v then 1#8 else 0#8) })
/-- The same value pushed in several lanes. -/
def Ctx.pushAll (c : Ctx) (ls : List Nat) (v : Bool) : Ctx := ls.foldl (fun c l => c.push l v) c
/-- R85: the guard in lane l. -/
def Ctx.guard (c : Ctx) (g : Guard) (l : Nat) : Bool :=
  match g with
  | .always => true
  | .pred neg k => c.pred l k != neg

/-- R77: flags ORed into %fpflags. -/
def Ctx.setFlags (c : Ctx) (f : BitVec 6) : Ctx := { c with fpflags := c.fpflags ||| f }

/-- Tile t's bytes. -/
def Ctx.rdTile (c : Ctx) (t : Nat) : List Byte := Sparse.getRun 0 c.tiles (1024 * t) 1024
/-- Tile t written from an offset; its tag is left alone. -/
def Ctx.wrTile (c : Ctx) (t off : Nat) (bs : List Byte) : Ctx :=
  { c with tiles := Sparse.setRun 0 c.tiles (1024 * t + off) bs }
/-- BOUND of tile t's tag cleared (R66). -/
def Ctx.unbindT (c : Ctx) (t : Nat) : Ctx := { c with ttags := clearBound c.ttags t }
/-- BOUND of vector register n's tag cleared (R66). -/
def Ctx.unbindV (c : Ctx) (n : Nat) : Ctx := { c with vtags := clearBound c.vtags n }
/-- Accumulator a's element (i, j) (R62). -/
def Ctx.rdAcc (c : Ctx) (a i j : Nat) : Word := Sparse.get 0 c.accs (256 * a + 16 * i + j)
/-- Accumulator a's element written. -/
def Ctx.wrAcc (c : Ctx) (a i j : Nat) (x : Word) : Ctx :=
  { c with accs := Sparse.set 0 c.accs (256 * a + 16 * i + j) x }

/-! ### Bytes and words (R4: little-endian) -/

/-- The number that bytes hold, least significant first. -/
def natOfBytes : List Byte → Nat
  | [] => 0
  | b :: r => b.toNat + 256 * natOfBytes r
/-- n bytes of a number, least significant first. -/
def bytesOfNat : Nat → Nat → List Byte
  | 0, _ => []
  | n + 1, x => BitVec.ofNat 8 x :: bytesOfNat n (x / 256)

/-- What a byte of memory that nothing has written reads as. -/
def memDefault : Byte := 0
/-- A storage place n bytes on. -/
def Loc.add : Loc → Nat → Loc
  | .none, _ => .none
  | .hbm k, n => .hbm (k + n)
  | .host k, n => .host (k + n)
  | .store u o, n => .store u (o + n)
/-- One byte of storage. -/
def State.rdByte (s : State) : Loc → Byte
  | .none => 0
  | .hbm k => Sparse.get memDefault s.hbm k
  | .host k => Sparse.get memDefault s.host k
  | .store u o => Sparse.get 0 (s.unit u).store o
/-- One byte of storage written. -/
def State.wrByte (s : State) (l : Loc) (b : Byte) : State :=
  match l with
  | .none => s
  | .hbm k => { s with hbm := Sparse.set memDefault s.hbm k b }
  | .host k => { s with host := Sparse.set memDefault s.host k b }
  | .store u o => s.modUnit u (fun x => { x with store := Sparse.set 0 x.store o b })
/-- n bytes of storage. -/
def State.rdBytes (s : State) (l : Loc) (n : Nat) : List Byte :=
  (List.range n).map (fun i => s.rdByte (l.add i))
/-- Bytes written to storage, in ascending order. -/
def State.wrBytes (s : State) (l : Loc) (bs : List Byte) : State :=
  (bs.foldl (fun (p : State × Nat) b => (p.1.wrByte (l.add p.2) b, p.2 + 1)) (s, 0)).1
/-- A 32-bit word of storage. -/
def State.rdWord (s : State) (l : Loc) : Word := BitVec.ofNat 32 (natOfBytes (s.rdBytes l 4))
/-- A 32-bit word of storage written. -/
def State.wrWord (s : State) (l : Loc) (w : Word) : State := s.wrBytes l (bytesOfNat 4 w.toNat)

/-- The canonical form of a byte memory (see INVENTORY.md, hbm and host). -/
abbrev Memory.wf (m : List Host.Cell) : Prop := Sparse.wf memDefault m = true

/-- The key of a local physical address of a package. -/
def hbmKey (p pa : Nat) : Nat := p * 2 ^ 40 + pa % 2 ^ 40
/-- R12, R13: local HBM ends here. -/
def hbmEnd : Nat := 0xC000000000
/-- R12: the home die of a local physical address. -/
def homeDie (pa : Nat) : Nat := pa / 2 ^ 12 % 8
/-- The package of an HBM key. -/
def keyPkg (k : Nat) : Nat := k / 2 ^ 40
/-- The local address of an HBM key. -/
def keyPa (k : Nat) : Nat := k % 2 ^ 40

/-! ### Service registers (R6, R7, R419) -/

/-- The Reset column of the register at an offset, fuses and straps as they were sampled (R24, R25,
R353, R398). -/
def regReset (b : Option BootInputs) (off : Nat) : DWord :=
  match off with
  | 0x0000 => match b with
    | none => 0x0A71530800000000
    | some i => BitVec.ofNat 64 (0x0A715308 * 2 ^ 32 + i.pkgRev % 256 * 2 ^ 24 + i.sparARev % 256 * 2 ^ 16
        + i.sparBRev % 256 * 2 ^ 8 + i.mastRev % 256)
  | 0x0008 => match b with
    | none => 0x00C0FF0001004000
    | some i => BitVec.ofNat 64 (0x00C0FF0001004000 + i.dcCarve % 4 * 2 ^ 34
        + (if i.ep0 then 2 ^ 33 else 0))
  | 0x0020 => 0xA28
  | 0x0028 => BitVec.ofNat 64 (0x78 * 2 ^ 40 + 0x200 * 2 ^ 30 + 0x1000 * 2 ^ 16)
  | 0x0440 => BitVec.ofNat 64 (0x1000 * 2 ^ 32 + 0x10000)
  | 0x0500 => 0xFAC688
  | 0x0700 => match b with
    | none => 0x1080
    | some i => BitVec.ofNat 64 ((i.present % (if i.ep0 then 16 else 8) / 2 * 2 + 1) * 2 ^ 12 + 0x80)
  | 0x0F08 => match b with
    | none => 0
    | some i => if i.dbgLock then 1 else 0
  | _ => 0
/-- The held contents of a service register. -/
def Package.reg (p : Package) (off : Nat) : DWord := Sparse.get 0 p.regs off ^^^ regReset p.boot off
/-- The held contents written. -/
def Package.setReg (p : Package) (off : Nat) (v : DWord) : Package :=
  { p with regs := Sparse.set 0 p.regs off (v ^^^ regReset p.boot off) }
/-- Bits [hi:lo] of a 64-bit value, as a number. -/
def bits (v : DWord) (hi lo : Nat) : Nat := v.toNat / 2 ^ lo % 2 ^ (hi + 1 - lo)
/-- A 64-bit value with bits [hi:lo] replaced. -/
def putBits (v : DWord) (hi lo x : Nat) : DWord :=
  BitVec.ofNat 64 (v.toNat - bits v hi lo * 2 ^ lo + x % 2 ^ (hi + 1 - lo) * 2 ^ lo)
/-- A field of a service register. -/
def Package.fld (p : Package) (off hi lo : Nat) : Nat := bits (p.reg off) hi lo
/-- A field of a service register written. -/
def Package.setFld (p : Package) (off hi lo x : Nat) : Package :=
  p.setReg off (putBits (p.reg off) hi lo x)
/-- Bits [hi:lo] of a 32-bit value, as a number. -/
def wbits (w : Word) (hi lo : Nat) : Nat := w.toNat / 2 ^ lo % 2 ^ (hi + 1 - lo)

/-- R27: the die accepts placement. -/
def Package.dieUp (p : Package) (d : Nat) : Bool := decide (p.fld 0x0008 (40 + d) (40 + d) = 1)
/-- R428: package q is a member of the pod, as package p's PKGUP registers say.  A package is always a
member of its own pod. -/
def State.podMember (s : State) (p q : Nat) : Bool :=
  decide (p = q) || (decide (q < 1024) && decide ((s.pkg p).fld (0x3000 + 8 * (q / 64)) (q % 64) (q % 64) = 1))
/-- R14: the die cache carve in MiB. -/
def Package.carveMiB (p : Package) : Nat :=
  match p.fld 0x0008 35 34 with | 0 => 0 | 1 => 64 | _ => 128
/-- R374: TRAPCFG EN. -/
def Package.trapEn (p : Package) : Bool := decide (p.fld 0x0C08 16 16 = 1)
/-- R377: the core is stopped. -/
def Package.coreStopped (p : Package) (loc : Nat) : Bool :=
  decide (p.fld (0x0D00 + 32 * (loc / 256 % 8) + 8 * (loc % 256 / 64)) (loc % 64) (loc % 64) = 1)

/-! ### Messages and package events -/

/-- R336: a message is written when its identity is not 0. -/
def State.sendMsi (s : State) (p off : Nat) : State :=
  let r := (s.pkg p).reg off
  if bits r 10 0 = 0 then s
  else { s with msis := s.msis ++ [{ pkg := p, addr := bits r 55 12 * 4096, ident := bits r 10 0 }] }
/-- R359: a package event. -/
def State.packageEvent (s : State) (p : Nat) : State := s.sendMsi p 0x0760

/-! ### Time (R5, R18, R19) -/

/-- A die's own copy of the count: a stopped die holds it, and a running one may be up to 2 ticks behind (R18, R19). -/
def Package.dieCopy (q : Package) (d : Nat) : Nat := (Sparse.find q.stopped d).getD (q.count - Sparse.get 0 q.lag d)
/-- The reference count that a site of a package reads. -/
def State.dieCount (s : State) (p : Nat) (x : Site) : Nat :=
  if x.mast then (s.pkg p).count else (s.pkg p).dieCopy x.die
/-- The clocks of a site run. -/
def State.clockRuns (s : State) (p : Nat) (x : Site) : Bool :=
  x.mast || (Sparse.find (s.pkg p).stopped x.die).isNone
/-- The count a context reads (R74). -/
def State.now (s : State) (c : Ctx) : Nat := s.dieCount c.pkg c.site

/-! ### Trace records (R405 to R407) -/

/-- One trace record, if the selections of TRCCFG take it (R406, R407); the step that makes it also writes it. -/
def State.traceOne (s : State) (c : Ctx) (kind lane pc target leaf : Nat) : State :=
  let p := s.pkg c.pkg
  let cfg := p.reg 0x0FD8
  let on := if kind ≤ 3 then bits cfg 58 58 else if kind = 6 then bits cfg 56 56 else bits cfg 57 57
  if bits cfg 63 63 = 0 ∨ on = 0 ∨ bits cfg 47 32 ≠ c.asid ∨ bits cfg 31 0 / 2 ^ lane % 2 = 0 then s
  else
    let v := leaf * 2 ^ 15 + c.site.loc * 2 ^ 19 + c.resIdx * 2 ^ 30 + lane * 2 ^ 35 + kind * 2 ^ 40
      + c.asid * 2 ^ 48 + target % 2 ^ 57 * 2 ^ 71 + pc % 2 ^ 57 * 2 ^ 135 + (s.now c % 2 ^ 64) * 2 ^ 192
    s.modPkg c.pkg (fun p => { p with traceq := p.traceq ++ [v] })
/-- Records of one event, in ascending lane order (R407); only lane groups are recorded. -/
def State.trace (s : State) (c : Ctx) (kind : Nat) (ls : List Nat) (pc target : Nat → Nat) : State :=
  if c.kind = .group then ls.foldl (fun s l => s.traceOne c kind l (pc l) (target l) 0) s else s

/-! ### Stopping, trapping and aborting (R94, R369, R370, R393) -/

/-- A lane that waits so has not issued the instruction at its PC, or issues it again: its hints wait with it (R94). -/
def Wait.notIssued : Wait → Bool
  | .fetch _ | .release .. | .order _ | .team _ | .converge .. | .ctxsw => true
  | _ => false
/-- R94: a lane inside a hint sequence stands, for every stop, at the first hint word. -/
def Ctx.revertHints (c : Ctx) : Ctx :=
  c.modLanes (List.range c.nLanes) (fun _ x =>
    if x.wait = .none ∨ (x.wait.notIssued = true ∧ x.hints ≠ []) then
      { x with pc := x.pc - BitVec.ofNat 64 (4 * x.hints.length), hints := [], wait := .none }
    else x)

/-- R301: nothing that a context was granted holds its slot any more. -/
def Ctx.unheld (c : Ctx) : Ctx := { c with hold := none, withdrawn := false, missAt := none }

/-- A unit that may begin to abort. -/
def WUnit.abortable (x : WUnit) : Bool := match x.st with | .aborting _ | .kept => false | _ => true
/-- R393, R370: a unit begins to abort with a cause, and every unit below it with cause 0x0105.  A unit
that is already aborting keeps its cause.  The first abort of a grid gives its STATUS. -/
def State.startAbort (s : State) (u cause : Nat) : State :=
  let s := if (s.unit u).abortable then s.modGrid (s.unit u).grid (fun g => if g.status = 0 then { g with status := cause } else g) else s
  (s.unitsUnder 6 u).foldl (fun s x =>
    match (s.unit x).st with
    | .aborting _ => s
    | .kept => s
    | _ => s.modUnit x (fun y => { y with st := .aborting (if x = u then cause else 0x0105) })) s

/-- R392: the unit that a migrate trap moves: the team when the grid is rooted at L1, else the cluster
unit. -/
def State.moveTarget (s : State) (c : Ctx) : Nat :=
  if (s.gridOf c).rootLvl = 1 then c.unit else (s.ownUnit c 2).getD c.unit
/-- R369, R371, R392 step 1: a context of a unit that moves stops: a group as at a trap, with cause 0 where it is not one that
the migrate trap stopped. -/
def State.stopToMove (s : State) (k : Nat) : State :=
  s.modCtx k (fun c =>
    let c1 := c.revertHints.unheld
    if c.kind = .group ∧ c.placed = true ∧ c.retired = false ∧ c.trapped = false ∧ c.halted = false then
      { c1 with trapped := true, staged := [], frame := if c.frame.cause = 4 then c.frame else { time := s.now c } }
    else c1)
/-- R392 step 1: a unit begins to move, or a second trap joins the move; every group of it stops (log 83). -/
def State.startMove (s : State) (u : Nat) : State :=
  match (s.unit u).st with
  | .running | .moving false =>
    let s := s.modUnit u (fun x => { x with st := .moving false, anyDie := false, drained := false })
    (s.ctxsUnder u).foldl (fun s k => s.stopToMove k) s
  | _ => s
/-- The unit moves to other dies. -/
def WUnit.isMoving (x : WUnit) : Bool := match x.st with | .moving _ => true | _ => false
/-- R392: a context belongs to a unit that moves. -/
def State.underMove (s : State) (c : Ctx) : Bool :=
  decide (c.kind ≠ .handler) && ((s.unit c.unit).isMoving || (s.ownUnit c 2).any (fun u => (s.unit u).isMoving))

/-- R375: a stopped group joins its core's handler queue. -/
def State.joinQueue (s : State) (k : Nat) : State :=
  let c := s.ctx k
  (s.modCtx k (fun c => { c with trapped := true, queuedAt := s.cycle })).modPkg c.pkg (fun p => { p with hq := p.hq ++ [(c.site.loc, k)] })
/-- TAKING A TRAP (R369 to R371): the context that issues stops at the faulting instruction, which has
had no effect.  A group writes its frame and joins the core's handler queue; with TRAPCFG EN 0 its team
aborts; a sequencer's unit aborts; a migrate trap moves the unit.  `next` is the resume PC's distance
from the instruction when it is not the first word of its sequence (`TRAP`). -/
def State.takeTrap (s : State) (k : Nat) (pc : DWord) (word : Word) (cause : Nat) (ls : List Nat)
    (info : Nat) (next : Option Nat) : State :=
  let c := s.ctx k
  let nh := match ls with | l :: _ => (c.lane l).hints.length | [] => 0
  let rpc := match next with | some n => pc + BitVec.ofNat 64 n | none => pc - BitVec.ofNat 64 (4 * nh)
  let fr : Frame := { cause := cause, fpc := pc, rpc := rpc, lanes := maskOf ls, info := BitVec.ofNat 64 info,
                      nhint := nh, word := word, time := s.now c }
  match c.kind with
  | .handler => s
  | .seq =>
    if cause = 4 then s.startMove (s.moveTarget c)
    else (s.modCtx k (fun c => { c with frame := fr })).startAbort c.unit cause
  | .group =>
    let s := s.modCtx k (fun c => { c.revertHints.unheld with frame := fr, staged := [] })
    let s := match next with
      | some n => s.modCtx k (fun c => c.modLanes ls (fun _ x => { x with pc := pc + BitVec.ofNat 64 n, hints := [] }))
      | none => s
    let s := s.trace c 4 ls (fun _ => pc.toNat) (fun _ => cause)
    if cause = 4 then s.startMove (s.moveTarget c)
    else if (s.pkg c.pkg).trapEn then s.joinQueue k
    else s.startAbort c.unit cause

/-- R376: a fault of a handler lane: no effect there, %hfs F set and COUNT raised, CAUSE and %hfa taken
at the first. -/
def Ctx.handlerFault (c : Ctx) (cause addr : Nat) : Ctx :=
  let n := wbits c.hfs 31 24
  if wbits c.hfs 0 0 = 0 then
    { c with hfs := BitVec.ofNat 32 (min (n + 1) 255 * 2 ^ 24 + cause % 256 * 2 ^ 16 + 1), hfa := BitVec.ofNat 64 addr }
  else { c with hfs := BitVec.ofNat 32 (c.hfs.toNat - n * 2 ^ 24 + min (n + 1) 255 * 2 ^ 24) }

end Sys2Proof.Machine
end

