-- ==== Sys2Proof/Machine/Operands.lean ====
section
/-! DEFINITION. What the word of an instruction names: its guard, its registers, its format slots, and
the facts that the checks of R98 decide from the word, the format slots and the pending hints. -/

namespace Sys2Proof.Machine

/-! ### Format slots (R115) -/

/-- A format slot. -/
structure Slot where
  elem : Nat
  scale : Nat
  round : Nat
  sat : Bool
  deriving DecidableEq, Repr, Inhabited
/-- Slot n of a FMTSLOTS word. -/
def slotOf (fs : DWord) (n : Nat) : Slot :=
  let b := bits fs (8 * n + 7) (8 * n)
  { elem := b / 32, scale := b / 8 % 4, round := b / 2 % 4, sat := decide (b % 2 = 1) }
/-- The element format of a slot. -/
def Slot.fmt (x : Slot) : Fmt :=
  match x.elem with
  | 0 => .fp32 | 1 => .bf16 | 2 => .fp16 | 3 => .e4m3 | 4 => .e5m2 | 5 => .e2m1 | 6 => .int8 | _ => .int4
/-- Elements per 32-bit register (R111, R140). -/
def Slot.perReg (x : Slot) : Nat := 32 / x.fmt.width
/-- R117: the slot rounds toward zero; error-feedback counts as RNE where no residue step is given. -/
def Slot.rtz (x : Slot) : Bool := decide (x.round = 1)
/-- R116: the slot byte is legal. -/
def Slot.legal (x : Slot) : Bool :=
  decide (x.scale ≠ 3) && decide (x.round ≠ 3)
    && (decide (x.scale = 0) || decide (x.elem = 3) || decide (x.elem = 4) || decide (x.elem = 5))
    && (decide (x.round ≠ 2) || (decide (x.elem ≠ 0) && x.sat))
/-- R65: rows per register, blocks per row, run-length code and band form of a scaled tile. -/
structure RunShape where
  rows : Nat
  blocks : Nat
  log : Nat
  band : Bool
  deriving DecidableEq, Repr, Inhabited
/-- R65: the run of a slot's tiles; none without a scale. -/
def Slot.run (x : Slot) : Option RunShape :=
  match x.scale, x.elem with
  | 1, 5 => some ⟨2, 16, 3, false⟩
  | 2, 5 => some ⟨1, 16, 4, true⟩
  | 1, _ => some ⟨4, 8, 2, false⟩
  | 2, _ => some ⟨2, 8, 3, true⟩
  | _, _ => none
/-- R153: bytes of the record that goes with a block: scale record, INT4 parameter record, or none. -/
def Slot.recordBytes (x : Slot) : Nat :=
  if x.elem = 7 then 256 else match x.run with | some r => 32 * 2 ^ r.log | none => 0

/-! ### Guards -/

/-- The guard of an instruction; hints and events have none (R84, R89). -/
def guardOf : Instr → Guard
  | .iadd g .. | .isub g .. | .imul g .. | .imulhi g .. | .imulhiU g .. | .imad g .. | .imin g ..
  | .iminU g .. | .imax g .. | .imaxU g .. | .iadds g .. | .iaddsU g .. | .isubs g .. | .isubsU g ..
  | .idot4 g .. | .lea g .. | .iabs g .. | .ineg g .. | .and g .. | .or g .. | .xor g .. | .andn g ..
  | .not g .. | .shl g .. | .shr g .. | .sar g .. | .rotl g .. | .popc g .. | .clz g .. | .brev g ..
  | .sel g .. | .mov g .. | .iaddImm g .. | .bfx g .. | .bfi g .. | .movi g .. | .movhi g ..
  | .fadd g .. | .fsub g .. | .fmul g .. | .ffma g .. | .fmin g .. | .fmax g .. | .fabs g .. | .fneg g ..
  | .fcpys g .. | .fclass g .. | .frcp g .. | .frsq g .. | .fsqrt g .. | .fexp2 g .. | .flog2 g ..
  | .ftanh g .. | .hfma2Bf g .. | .hfma2H g .. | .hadd2Bf g .. | .hadd2H g .. | .hmul2Bf g ..
  | .hmul2H g .. | .hmax2Bf g .. | .hmax2H g .. | .cvt g .. | .cvti g .. | .pack g .. | .unpack g ..
  | .qntv g .. | .dqntv g .. | .cvtef g .. | .icmp g .. | .fcmp g .. | .ppush g .. | .ppop g
  | .pdup g .. | .pswap g .. | .pnot g .. | .pand g .. | .por g .. | .pxor g .. | .prot g .. | .ptov g ..
  | .voteAny g .. | .voteAll g .. | .voteBallot g .. | .gmov g .. | .gadd g .. | .gsub g .. | .gmul g ..
  | .gand g .. | .gor g .. | .gshl g .. | .gshr g .. | .gcmp g .. | .gread g .. | .gmovi g .. | .gld g ..
  | .gst g .. | .bra g .. | .call g .. | .brx g .. | .callx g .. | .ret g .. | .exit g | .yield g
  | .sleep g .. | .nop g | .rgn g .. | .ld g .. | .ldAcq g .. | .st g .. | .stRel g .. | .ldc g ..
  | .stc g .. | .ldk g .. | .stk g .. | .ldl g .. | .stl g .. | .ldm g .. | .stm g .. | .ldt g ..
  | .stt g .. | .ldsc g .. | .atom g .. | .cas g .. | .ldx g .. | .pref g .. | .cctl g .. | .sfillA g ..
  | .sfillB g .. | .mbinit g .. | .mbexpect g .. | .mbarrive g .. | .mbwait g .. | .mbtest g ..
  | .waitc g .. | .cntrd g .. | .cvdecl g .. | .cvsign g .. | .mma g .. | .procfg g .. | .accrdT g ..
  | .accrdV g .. | .accrdC g .. | .accwr g .. | .accz g .. | .sbindT g .. | .sbindV g .. | .sunbindT g ..
  | .sunbindV g .. | .stagrd g .. | .smov g .. | .smul g .. | .sadd g .. | .smax g .. | .sld g ..
  | .sst g .. | .launch g .. | .tsplit g .. | .tsplitX g .. | .evqrd g .. | .bar g .. | .fenceRel g ..
  | .fenceAcq g .. | .fenceAcqrel g .. | .fenceSc g .. | .mcopyDown g .. | .mcopyUp g .. | .reduce g ..
  | .cmbopen g .. | .cmbput g .. | .cmbwait g .. | .cmbwaitBatch g .. | .cmbclose g .. | .cmbcloseDrop g ..
  | .cmbstat g .. | .coll g .. | .collwait g .. | .collq g .. | .laydef g .. | .trap g .. | .tret g
  | .tretAbort g .. | .sread g .. | .swrite g .. | .winsel g .. | .winrd g .. | .winwr g .. | .oplrd g ..
  | .rqrd g .. | .rqinj g .. | .rqdrop g .. | .ctxswSave g .. | .ctxswRestore g .. | .halt g ..
  | .resume g .. | .tlbi g .. | .tlbiW g .. | .asidgen g .. => g
  | _ => .always

/-! ### Registers named by the word (R57) -/

/-- v_n to v_(n+k−1). -/
def vRun (n k : Nat) : List RegName := (List.range k).map (fun i => .v (n + i))
/-- g_n to g_(n+k−1). -/
def gRun (n k : Nat) : List RegName := (List.range k).map (fun i => .g (n + i))

/-- The registers that a word names, with the format slots of the grid (R57, R87). -/
def regsOf (fs : DWord) : Instr → List RegName
  | .iadd _ d a b | .isub _ d a b | .imul _ d a b | .imulhi _ d a b | .imulhiU _ d a b | .imad _ d a b
  | .imin _ d a b | .iminU _ d a b | .imax _ d a b | .imaxU _ d a b | .iadds _ d a b | .iaddsU _ d a b
  | .isubs _ d a b | .isubsU _ d a b | .idot4 _ d a b | .and _ d a b | .or _ d a b | .xor _ d a b
  | .andn _ d a b | .shl _ d a b | .shr _ d a b | .sar _ d a b | .rotl _ d a b | .sel _ d a b
  | .fadd _ d a b | .fsub _ d a b | .fmul _ d a b | .ffma _ d a b | .fmin _ d a b | .fmax _ d a b
  | .fcpys _ d a b | .hfma2Bf _ d a b | .hfma2H _ d a b | .hadd2Bf _ d a b | .hadd2H _ d a b
  | .hmul2Bf _ d a b | .hmul2H _ d a b | .hmax2Bf _ d a b | .hmax2H _ d a b => [.v d, .v a, .v b]
  | .lea _ d a b => vRun d 2 ++ vRun a 2 ++ [.v b]
  | .iabs _ d a | .ineg _ d a | .not _ d a | .popc _ d a | .clz _ d a | .brev _ d a | .mov _ d a
  | .fabs _ d a | .fneg _ d a | .fclass _ d a | .frcp _ d a | .frsq _ d a | .fsqrt _ d a | .fexp2 _ d a
  | .flog2 _ d a | .ftanh _ d a => [.v d, .v a]
  | .iaddImm _ d a _ | .bfx _ d a _ _ | .bfi _ d a _ _ => [.v d, .v a]
  | .movi _ d _ | .movhi _ d _ => [.v d]
  | .cvt _ d a _ _ | .cvti _ d a _ _ | .pack _ d a _ _ | .unpack _ d a _ _ | .dqntv _ d a _ _ => [.v d, .v a]
  | .cvtef _ d a _ k => [.v d, .v a, .e k]
  | .qntv _ d a f k => .v d :: .s (8 * k) :: vRun a (slotOf fs f).perReg
  | .icmp _ a b _ | .fcmp _ a b _ => [.v a, .v b]
  | .ppush _ a => [.v a]
  | .ptov _ d _ | .voteBallot _ d _ => [.v d]
  | .gmov _ d a => [.v d, .g a]
  | .gadd _ d a b | .gsub _ d a b | .gmul _ d a b | .gand _ d a b | .gor _ d a b | .gshl _ d a b
  | .gshr _ d a b => [.g d, .g a, .g b]
  | .gcmp _ a b _ => [.g a, .g b]
  | .gread _ d a => [.g d, .v a]
  | .gmovi _ d _ => [.g d]
  | .gld _ d b _ | .gst _ d b _ => .g d :: gRun b 2
  | .call _ d _ => vRun d 2
  | .brx _ a | .ret _ a => vRun a 2
  | .callx _ d a => vRun d 2 ++ vRun a 2
  | .sleep _ a => [.v a]
  | .rgn _ d m => ((List.range 16).filter (fun j => m.testBit j)).map (fun j => .v (d + j))
  | .ld _ d b _ sz _ | .ldAcq _ d b _ sz _ | .st _ d b _ sz | .stRel _ d b _ sz =>
    vRun d (if sz = .p then 2 else 1) ++ vRun b 2
  | .ldc _ d b _ sz | .stc _ d b _ sz | .ldk _ d b _ sz | .stk _ d b _ sz | .ldl _ d b _ sz
  | .stl _ d b _ sz => vRun d (if sz = .p then 2 else 1) ++ [.v b]
  | .ldm _ d b n | .stm _ d b n => vRun d n ++ vRun b 2
  | .ldt _ t sp b _ | .stt _ t sp b _ => .t t :: gRun b (if sp = .global then 2 else 1)
  | .ldsc _ d b _ => .g d :: gRun b 4
  | .atom _ d b _ _ => .v d :: vRun b 2
  | .cas _ d b _ => vRun d 2 ++ vRun b 2
  | .ldx _ d b c => .v d :: .g c :: vRun b 2
  | .pref _ _ b _ | .cctl _ _ b _ => vRun b 2
  | .sfillA _ d b _ | .sfillB _ d b _ => .g d :: gRun b 2
  | .mbinit _ a b | .mbexpect _ a b | .mbtest _ a b => [.g a, .g b]
  | .mbarrive _ a => [.g a]
  | .mbwait _ d a b => [.g d, .g a, .g b]
  | .cntrd _ d _ => [.g d]
  | .cvdecl _ v a => [.cv v, .g a]
  | .cvsign _ v => [.cv v]
  | .mma _ _ _ c _ _ v => [.a c, .cv v]
  | .accrdT _ d c _ _ => [.t d, .a c]
  | .accrdV _ d c f => .a c :: vRun d (8 * (slotOf fs f).fmt.width / 32)
  | .accrdC _ d c _ => [.g d, .a c]
  | .accwr _ c a => [.a c, .t a]
  | .accz _ c => [.a c]
  | .sbindT _ d a _ => [.t d, .s a]
  | .sbindV _ d a => [.v d, .s a]
  | .sunbindT _ d => [.t d]
  | .sunbindV _ d => [.v d]
  | .stagrd _ d x k => [.v d, if k = 0 then .t x else if k = 1 then .v x else .s x]
  | .smov _ d a _ | .sadd _ d a _ _ | .smax _ d a _ _ => [.s d, .s a]
  | .smul _ d a _ _ => [.s d, .g a]
  | .sld _ d b _ | .sst _ d b _ => .s d :: gRun b 2
  | .launch _ _ x y => [.g x, .g y]
  | .tsplit _ _ x y => gRun x 2 ++ gRun y 2
  | .tsplitX _ x y => gRun x 2 ++ gRun y 3
  | .evqrd _ _ x y m _ => gRun x 4 ++ (if m then [.g y] else [])
  | .mcopyDown _ _ x y _ | .mcopyUp _ _ x y _ => .g y :: gRun x 8
  | .reduce _ k x y _ _ _ => .v y :: gRun x (if k < 3 then 1 else 2)
  | .cmbopen _ d a => .g d :: gRun a 4
  | .cmbput _ d a b => .g d :: .g a :: gRun b 2
  | .cmbwait _ d a | .cmbwaitBatch _ d a | .cmbstat _ d a _ => [.g d, .g a]
  | .cmbclose _ a | .cmbcloseDrop _ a => [.g a]
  | .coll _ d a _ => .g d :: gRun a 4
  | .collwait _ d a | .collq _ d a => [.g d, .g a]
  | .laydef _ d a => .g d :: gRun a 2
  | .tretAbort _ a => [.g a]
  | .sread _ d u _ | .swrite _ d u _ => [if u then .g d else .v d]
  | .winsel _ a => [.g a]
  | .winrd _ d a | .winwr _ d a => [.v d, .v a]
  | .oplrd _ d a _ | .rqrd _ d a => [.v d, .g a]
  | .rqinj _ a => [.g a]
  | .rqdrop _ d a => [.g d, .g a]
  | .ctxswSave _ a | .ctxswRestore _ a => gRun a 2
  | .tlbi _ d a | .tlbiW _ d a => .g d :: gRun a 2
  | .asidgen _ d => [.g d]
  | _ => []

/-- A register's number. -/
def RegName.num : RegName → Nat
  | .v n | .g n | .t n | .a n | .s n | .e n | .cv n => n

/-! ### Vector source operands (R72) -/

/-- The vector registers that an instruction reads in each lane. -/
def vSources (fs : DWord) : Instr → List Nat
  | .iadd _ _ a b | .isub _ _ a b | .imul _ _ a b | .imulhi _ _ a b | .imulhiU _ _ a b | .imin _ _ a b
  | .iminU _ _ a b | .imax _ _ a b | .imaxU _ _ a b | .iadds _ _ a b | .iaddsU _ _ a b | .isubs _ _ a b
  | .isubsU _ _ a b | .and _ _ a b | .or _ _ a b | .xor _ _ a b | .andn _ _ a b | .shl _ _ a b
  | .shr _ _ a b | .sar _ _ a b | .rotl _ _ a b | .sel _ _ a b | .fadd _ _ a b | .fsub _ _ a b
  | .fmul _ _ a b | .fmin _ _ a b | .fmax _ _ a b | .fcpys _ _ a b | .hadd2Bf _ _ a b | .hadd2H _ _ a b
  | .hmul2Bf _ _ a b | .hmul2H _ _ a b | .hmax2Bf _ _ a b | .hmax2H _ _ a b => [a, b]
  | .imad _ d a b | .idot4 _ d a b | .ffma _ d a b | .hfma2Bf _ d a b | .hfma2H _ d a b => [d, a, b]
  | .lea _ _ a b => [a, a + 1, b]
  | .iabs _ _ a | .ineg _ _ a | .not _ _ a | .popc _ _ a | .clz _ _ a | .brev _ _ a | .mov _ _ a
  | .fabs _ _ a | .fneg _ _ a | .fclass _ _ a | .frcp _ _ a | .frsq _ _ a | .fsqrt _ _ a | .fexp2 _ _ a
  | .flog2 _ _ a | .ftanh _ _ a | .iaddImm _ _ a _ | .bfx _ _ a _ _ => [a]
  | .bfi _ d a _ _ | .cvt _ d a _ _ | .pack _ d a _ _ | .cvtef _ d a _ _ => [d, a]
  | .movhi _ d _ => [d]
  | .cvti _ _ a _ _ | .unpack _ _ a _ _ | .dqntv _ _ a _ _ => [a]
  | .qntv _ _ a f _ => (List.range (slotOf fs f).perReg).map (fun i => a + i)
  | .icmp _ a b _ | .fcmp _ a b _ => [a, b]
  | .ppush _ a | .gread _ _ a | .sleep _ a => [a]
  | .brx _ a | .ret _ a | .callx _ _ a => [a, a + 1]
  | .ld _ _ b _ _ _ | .ldAcq _ _ b _ _ _ | .ldm _ _ b _ | .pref _ _ b _ | .cctl _ _ b _ => [b, b + 1]
  | .st _ d b _ sz | .stRel _ d b _ sz => d :: (if sz = .p then [d + 1] else []) ++ [b, b + 1]
  | .ldc _ _ b _ _ | .ldk _ _ b _ _ | .ldl _ _ b _ _ => [b]
  | .stc _ d b _ sz | .stk _ d b _ sz | .stl _ d b _ sz => d :: (if sz = .p then [d + 1] else []) ++ [b]
  | .stm _ d b n => (List.range n).map (fun i => d + i) ++ [b, b + 1]
  | .atom _ d b _ _ | .ldx _ d b _ => [d, b, b + 1]
  | .cas _ d b _ => [d, d + 1, b, b + 1]
  | .reduce _ _ _ y _ _ _ => [y]
  | .swrite _ d u _ => if u then [] else [d]
  | .winrd _ _ a => [a]
  | .winwr _ d a => [d, a]
  | _ => []

/-! ### The checks that the word and the slots decide -/

/-- The level field of an LVL word or an ordered form (R88). -/
def levelOf : Instr → Option Nat
  | .ldAcq _ _ _ k _ _ | .stRel _ _ _ k _ | .atom _ _ _ k _ | .cas _ _ _ k => some k
  | .launch _ k _ _ | .tsplit _ k _ _ | .evqrd _ k _ _ _ _ | .bar _ k | .fenceRel _ k | .fenceAcq _ k
  | .fenceAcqrel _ k | .fenceSc _ k | .mcopyDown _ k _ _ _ | .mcopyUp _ k _ _ _
  | .reduce _ k _ _ _ _ _ => some k
  | _ => none

/-- R35: the instructions that raise the wrong-level trap on a sequencer. -/
def seqForbidden : Instr → Bool
  | .ldt .. | .stt .. | .ldsc .. | .cvdecl .. | .cvsign .. | .mma .. | .procfg .. | .accrdT .. | .accrdV ..
  | .accrdC .. | .accwr .. | .accz .. | .sbindT .. | .sbindV .. | .sunbindT .. | .sunbindV ..
  | .stagrd .. | .smov .. | .smul .. | .sadd .. | .smax .. | .sld .. | .sst .. | .sfillA .. | .sfillB ..
  | .ldl .. | .stl .. | .voteAny .. | .voteAll .. | .voteBallot .. | .qntv .. => true
  | _ => false

/-- R378: the instructions marked "handler". -/
def handlerOnly : Instr → Bool
  | .tret _ | .tretAbort .. | .winsel .. | .winrd .. | .winwr .. | .oplrd .. | .rqrd .. | .rqinj ..
  | .rqdrop .. | .ctxswSave .. | .ctxswRestore .. | .halt .. | .resume .. => true
  | _ => false

/-- R152: the pairs of A and B formats that a pass takes. -/
def passPair (a b : Nat) : Bool :=
  let half := fun x => decide (x = 1) || decide (x = 2)
  let f8 := fun x => decide (x = 3) || decide (x = 4)
  (half a && half b) || (half a && decide (b = 7)) || (f8 a && f8 b)
    || (decide (a = 6) && decide (b = 6)) || (decide (a = 5) && decide (b = 5))

/-- Check order 3 of R98, as far as the format slots of the grid decide it (R140, R143, R152, R165,
R168, R218). -/
def slotUndefined (fs : DWord) : Instr → Bool
  | .cvt _ _ _ f k | .pack _ _ _ f k | .unpack _ _ _ f k | .dqntv _ _ _ f k | .cvtef _ _ _ f k =>
    decide ((slotOf fs f).perReg ≤ k)
  | .qntv _ _ a f _ => decide ((slotOf fs f).scale ≠ 1) || decide (64 < a + (slotOf fs f).perReg)
  | .mma _ _ _ _ fa fb _ => !passPair (slotOf fs fa).elem (slotOf fs fb).elem
  | .accrdT _ _ _ f h =>
    decide ((slotOf fs f).scale ≠ 0) || decide ((slotOf fs f).elem = 7) || decide ((slotOf fs f).perReg ≤ h)
  | .accrdV _ d _ f =>
    decide ((slotOf fs f).scale ≠ 0) || decide ((slotOf fs f).elem = 7)
      || decide (64 < d + 8 * (slotOf fs f).fmt.width / 32)
  | .accrdC _ _ _ f => decide ((slotOf fs f).scale ≠ 0) || decide ((slotOf fs f).elem = 7)
  | .sbindT _ _ a f => (match (slotOf fs f).run with | some sh => decide (64 < a + 2 ^ sh.log) | none => true)
  | .ldsc _ _ _ f => decide ((slotOf fs f).scale = 0)
  | _ => false

/-- R97: the Spar-A-only set. -/
def sparAOnly (fs : DWord) : Instr → Bool
  | .cvtef .. => true
  | .mma _ _ _ _ fa fb _ =>
    decide ((slotOf fs fa).elem = 5) || decide ((slotOf fs fb).elem = 5)
      || decide ((slotOf fs fa).round = 2) || decide ((slotOf fs fb).round = 2)
  | .cvt _ _ _ f _ | .cvti _ _ _ f _ | .pack _ _ _ f _ | .unpack _ _ _ f _ | .qntv _ _ _ f _
  | .dqntv _ _ _ f _ | .accrdT _ _ _ f _ | .accrdV _ _ _ f | .accrdC _ _ _ f | .sbindT _ _ _ f
  | .ldsc _ _ _ f => decide ((slotOf fs f).round = 2)
  | _ => false

/-! ### Hints (R90 to R93) -/

/-- R91: the consumers of a wide-immediate hint. -/
def wideOk : Instr → Bool
  | .iaddImm .. | .movi .. | .gmovi .. | .bra .. | .call .. | .gld .. | .gst .. | .ld .. | .st .. | .ldc ..
  | .stc .. | .ldk .. | .stk .. | .ldl .. | .stl .. | .ldt .. | .stt .. | .pref .. | .cctl .. | .sfillA ..
  | .sfillB .. | .sld .. | .sst .. => true
  | _ => false

/-- R93: the consumers of a rare modifier. -/
def modOk (code : Nat) : Instr → Bool
  | .mma .. => decide (code = 0)
  | .ld .. | .ldAcq .. | .st .. | .stRel .. | .ldx .. | .ldm .. | .stm .. | .ldsc .. | .pref .. | .atom ..
  | .cas .. => decide (code = 1)
  | .ldt _ _ sp _ _ | .stt _ _ sp _ _ => decide (code = 1) && decide (sp = .global)
  | .fadd .. | .fsub .. | .fmul .. | .ffma .. | .hfma2Bf .. | .hfma2H .. | .hadd2Bf .. | .hadd2H ..
  | .hmul2Bf .. | .hmul2H .. | .cvt .. | .cvti .. => decide (code = 2)
  | _ => false

/-- The kind of a hint word (R89). -/
def hintKind (w : Word) : Nat := wbits w 25 24
/-- The payload of a hint word (R86). -/
def hintPay (w : Word) : Nat := wbits w 23 0
/-- The payload of the pending hint of a kind. -/
def hintOf (k : Nat) (hs : List Word) : Option Nat :=
  (hs.find? (fun w => decide (hintKind w = k))).map hintPay

/-- R93: a rare modifier's fields are sound. -/
def modFieldsOk (p : Nat) : Bool :=
  match p / 2 ^ 20 with
  | 0 => decide (p % 2 ^ 20 / 2 ^ 17 = 0)
  | 1 => decide (p % 2 ^ 20 / 4 = 0)
  | 2 => decide (p % 2 ^ 20 = 0)
  | _ => false

/-- A hint word (R89). -/
def isHint : Instr → Bool
  | .hntWide .. | .hntSched .. | .hntMod .. => true
  | _ => false
/-- A word that decodes to no instruction (R95, R96, R98 order 3). -/
def isUndefined : Instr → Bool
  | .undefinedInstruction _ => true
  | _ => false

/-- R90 to R93: the pending hints break a rule at their consumer. -/
def hintsBad (i : Instr) (hs : List Word) : Bool :=
  !(decide ((hs.map hintKind).Nodup))
    || (match hintOf 0 hs with | some _ => !wideOk i | none => false)
    || (match hintOf 1 hs with | some p => decide (p / 256 ≠ 0) | none => false)
    || (match hintOf 2 hs with | some p => !(modFieldsOk p && modOk (p / 2 ^ 20) i) | none => false)

/-- R91: the immediate of n bits, or the combined value with a wide hint, as a signed number. -/
def wideImm (n : Nat) (imm : Int) (hs : List Word) : Int :=
  match hintOf 0 hs with
  | none => imm
  | some p => signedOf (2 ^ (24 + n)) (p * 2 ^ n + unsignedOf (2 ^ n) imm)
/-- R93: the saturate modifier is pending. -/
def satHint (hs : List Word) : Bool :=
  match hintOf 2 hs with | some p => decide (p / 2 ^ 20 = 2) | none => false
/-- R93: the cache policy that is pending: 0 default, 1 no-allocate in the core data cache, 2 retain, 3 evict after
use. -/
def policyHint (hs : List Word) : Nat :=
  match hintOf 2 hs with | some p => if p / 2 ^ 20 = 1 then p % 4 else 0 | none => 0
/-- R93: the stream position override of a stream, if pending. -/
def posHint (isB : Bool) (hs : List Word) : Option Nat :=
  match hintOf 2 hs with
  | some p => if p / 2 ^ 20 = 0 ∧ decide (p / 2 ^ 16 % 2 = 1) = isB then some (p % 2 ^ 16) else none
  | none => none

end Sys2Proof.Machine
end

