-- ==== Sys2Proof/Machine/Gate.lean ====
section
/-! DEFINITION. The outline every instruction follows (R60, R98, R104, R131, R376, R432): guards, the checks of
R98 in their order, the instruction's own effect, and where each lane stands afterwards. -/

namespace Sys2Proof.Machine

/-- What an instruction does in the lanes whose guard is true. -/
inductive Eff
  /-- done: every lane of the cohort moves to the next word -/
  | ok (s : State)
  /-- done: the effect has set the PC of the acting lanes itself -/
  | okPc (s : State)
  /-- the instruction traps: cause, lanes, INFO; it has had no effect -/
  | trap (cause : Nat) (ls : List Nat) (info : Nat)
  /-- as trap, of an instruction that acts once per issue through its leader lane: no lane of the
  handler slot goes on with it -/
  | trapOnce (cause : Nat) (ls : List Nat) (info : Nat)
  /-- the acting lanes wait -/
  | wait (s : State) (w : Wait)
  /-- no free entry in a bounded queue: nothing has happened (R301) -/
  | hold (h : Hold)

/-- An instruction that the scoreboard orders behind earlier entries of its context that hold some registers (R69,
R164). -/
def ordered (s : State) (c : Ctx) (rs : List RegName) (go : Eff) : Eff :=
  match (c.rq.filter (fun e => rs.any (fun r => e.holds.contains r))).map (·.id) with
  | [] => go
  | ids => .wait s (.order ids)

/-- Registers of a class that a context holds (R56, R57, R375). -/
def State.limit (s : State) (c : Ctx) (r : RegName) : Nat :=
  match c.kind with
  | .group =>
    let g := s.gridOf c
    match r with
    | .v _ => g.vregs | .g _ => g.gregs | .t _ => g.tiles | .a _ => g.accs | .s _ => g.sregs | .e _ => 8 | .cv _ => 8
  | .seq => match r with | .v _ => 64 | .g _ => 64 | .e _ => 8 | _ => 0
  | .handler => match r with | .v _ => 64 | .g _ => 64 | .e _ => 8 | _ => 0
/-- The format slots a context reads; a handler's are zero (R375). -/
def State.fmtOf (s : State) (c : Ctx) : DWord := if c.kind = .handler then 0 else (s.gridOf c).fmtslots
/-- The level of a sequencer, 0 for a lane (R36). -/
def State.ctxLevel (s : State) (c : Ctx) : Nat := if c.kind = .seq then (s.unit c.unit).level else 0
/-- The site lacks the Spar-A-only set for this context (R97). -/
def State.lacksA (s : State) (c : Ctx) : Bool :=
  c.site.isB && (decide (c.kind ≠ .seq) || decide ((s.unit c.unit).level ≤ 2))

/-- Check orders 2 to 7 of R98 for the acting lanes: cause, lanes and INFO of the first that fails. -/
def State.preCheck (s : State) (c : Ctx) (i : Instr) (act : List Nat) : Option (Nat × List Nat × Nat) :=
  let fs := s.fmtOf c
  let bad := act.filter (fun l =>
    if isHint i then decide (2 ≤ (c.lane l).hints.length) else hintsBad i (c.lane l).hints)
  if isUndefined i || (handlerOnly i && decide (c.kind ≠ .handler)) || slotUndefined fs i then some (1, act, 0)
  else if !bad.isEmpty then some (1, bad, 0)
  else if (levelOf i).any (fun k => decide (5 < k)) then some (2, act, (levelOf i).getD 0)
  else if decide (c.kind = .seq) && seqForbidden i then some (3, act, 0)
  else if s.lacksA c && sparAOnly fs i then some (4, act, 0)
  else match (regsOf fs i).find? (fun r => decide (s.limit c r ≤ r.num)) with
    | some r => some (5, act, r.num)
    | none => none

/-- Lanes move to the next word; their pending hints are spent or discarded (R60, R90). -/
def Ctx.advance (c : Ctx) (ls : List Nat) : Ctx :=
  c.modLanes ls (fun _ x => { x with pc := x.pc + 4, hints := [], wait := .none })

/-- R92: the scheduling hints of the acting lanes, merged, but for the latency class, which stays with the lanes that wait
on the consumer's result. -/
def Ctx.schedule (c : Ctx) (act : List Nat) : Ctx :=
  let ps := act.filterMap (fun l => hintOf 1 (c.lane l).hints)
  let yld := ps.any (fun p => p.testBit 7)
  let prio := (ps.filter (fun p => p.testBit 6)).getLast?.map (fun p => p / 8 % 8)
  { c with yld := yld, prio := prio.getD c.prio }
/-- R92: the expected-latency class that some pending hints carry, the largest where they differ. -/
def latOf (hs : List (List Word)) : Option Nat :=
  match ((hs.filterMap (hintOf 1)).filter (fun p => p.testBit 2)).map (fun p => p % 4) with
  | [] => none
  | l => some (l.foldl max 0)

/-- R72: a source operand of the instruction is outside the region set, or in it and not yet staged. -/
def Ctx.regionMiss (c : Ctx) (fs : DWord) (i : Instr) : Bool :=
  decide (c.kind = .group) && (vSources fs i).any (fun n => !c.staged.contains n)
/-- R72: an instruction with a region miss counts once; it missed at its grant, or misses now. -/
def Ctx.missCount (c : Ctx) (fs : DWord) (i : Instr) : Ctx :=
  if c.missAt.isSome || c.regionMiss fs i then { c with misses := min (c.misses + 1) (2 ^ 32 - 1) } else c

/-- The word of an instruction. -/
def wordOf (i : Instr) : Word := BitVec.ofNat 32 ((encode i).getD 0)

/-- The causes whose INFO is a faulting address (R371, R376). -/
def addrCause (cause : Nat) : Bool := (decide (6 ≤ cause) && decide (cause ≤ 9)) || (decide (0x18 ≤ cause) && decide (cause ≤ 0x1B))
/-- R376: faults of handler lanes.  A fault without an address leaves a free value in %hfa. -/
def State.handlerFail (s : State) (k : Nat) (ls : List Nat) (cause info : Nat) : State :=
  let a := if addrCause cause then info else (Config.freeWord s.free).toNat
  { s.modCtx k (fun c => ls.foldl (fun c _ => c.handlerFault cause a) c) with free := s.free + 1 }

/-- The fault of one acting lane, alone: its cause and INFO. -/
def State.laneFault (s : State) (k : Nat) (i : Instr) (body : State → Ctx → List Nat → Eff) (l : Nat) : Option (Nat × Nat) :=
  match s.preCheck (s.ctx k) i [l] with
  | some (cause, _, info) => some (cause, info)
  | none => match body s (s.ctx k) [l] with
    | .trap cause _ info => some (cause, info)
    | _ => none
/-- R416: the faulting lanes of a handler issue that a check stops for some lanes, in lane order, each with its own fault. -/
def State.laneFaults (s : State) (k : Nat) (i : Instr) (body : State → Ctx → List Nat → Eff) (act : List Nat)
    (cause : Nat) (ls : List Nat) (info : Nat) : List (Nat × Nat × Nat) :=
  act.filterMap (fun l => match s.laneFault k i body l with
    | some f => some (l, f)
    | none => if ls.contains l then some (l, cause, info) else none)

/-- The effect run on the acting lanes of a cohort.  In the handler slot each lane that would trap faults
alone, in lane order (R376, R416), and the others go on; elsewhere the first trap stops the context. -/
def State.runLanes (s : State) (k : Nat) (i : Instr) (coh : List Nat)
    (body : State → Ctx → List Nat → Eff) : Nat → List Nat → State
  | 0, _ => s
  | fuel + 1, act =>
    let c := s.ctx k
    if act.isEmpty then s.modCtx k (fun c => (c.advance coh).unheld)
    else
      let fail := fun (cause : Nat) (ls : List Nat) (info : Nat) =>
        if c.kind = .handler then
          let bad := s.laneFaults k i body act cause ls info
          State.runLanes (bad.foldl (fun s f => s.handlerFail k [f.1] f.2.1 f.2.2) s) k i coh body fuel
            (act.filter (fun l => !bad.any (fun f => decide (f.1 = l))))
        else s.takeTrap k s.cur.pc (wordOf i) cause ls info none
      match s.preCheck c i act with
      | some (cause, ls, info) => fail cause ls info
      | none =>
        let s1 := if isHint i then s else s.modCtx k (fun c => c.schedule act)
        match body s1 (s1.ctx k) act with
        | .ok s2 => s2.modCtx k (fun c => ((c.missCount (s.fmtOf c) i).advance coh).unheld)
        | .okPc s2 =>
          s2.modCtx k (fun c => ((c.missCount (s.fmtOf c) i).advance (coh.filter (fun l => !act.contains l))).unheld)
        | .trap cause ls info => fail cause ls info
        | .trapOnce cause ls info =>
          if c.kind = .handler then
            (s.handlerFail k ls cause info).modCtx k (fun c => (c.advance coh).unheld)
          else s.takeTrap k s.cur.pc (wordOf i) cause ls info none
        | .wait s2 w =>
          s2.modCtx k (fun c =>
            ((c.advance (coh.filter (fun l => !act.contains l))).modLanes act (fun _ x => { x with wait := w })).unheld)
        | .hold h =>
          s.modCtx k (fun c => { c with
            hold := some (h, match c.hold with | some (_, t) => t | none => s.cycle), heldAt := s.cur })

/-- The cohort that the issue in progress names. -/
def State.cohort (s : State) (c : Ctx) : List Nat :=
  (lanesOf s.cur.lanes).filter (fun l => decide (l < c.nLanes) && !(c.lane l).exited)

/-- An instruction issued by the cohort of the issue in progress, with its acting lanes given. -/
def gateLanes (acts : Ctx → Nat → Bool) (i : Instr) (s : State) (body : State → Ctx → List Nat → Eff) : Out :=
  match Sparse.find s.ctxs s.cur.ctx with
  | none => .fault .noIssue
  | some c =>
    let coh := s.cohort c
    if coh.isEmpty then .fault .noIssue
    else .next (s.runLanes s.cur.ctx i coh body 34 (coh.filter (acts c)))

/-- An instruction issued by the cohort of the issue in progress: it acts in the lanes whose guard is
true (R60). -/
def gate (i : Instr) (s : State) (body : State → Ctx → List Nat → Eff) : Out :=
  gateLanes (fun c l => c.guard (guardOf i) l) i s body

/-- A register-only instruction: each acting lane changes the context. -/
def perLane (i : Instr) (s : State) (f : Ctx → Nat → Ctx → Ctx) : Out :=
  gate i s (fun s c act => .ok (s.modCtx s.cur.ctx (fun c' => act.foldl (fun c' l => f c l c') c')))

/-- An instruction that acts once per issue, through the leader lane (R131). -/
def oncePerIssue (i : Instr) (s : State) (f : State → Ctx → Nat → List Nat → Eff) : Out :=
  gate i s (fun s c act =>
    match act with
    | [] => .ok s
    | l :: _ => match f s c l act with | .trap cause ls info => .trapOnce cause ls info | e => e)

end Sys2Proof.Machine
end

