-- ==== Sys2Proof/Machine/Flags.lean ====
section
/-! DEFINITION. Saturation and the register-only shapes that set flags (R77, R104, R132): an instruction
ORs the flags of all its acting lanes into %fpflags in the step that writes its result. -/

namespace Sys2Proof.Machine

/-- `SatS` of R104: the value clamped to the signed 32-bit range, and SAT when the clamp changes it. -/
def satS32 (x : Int) : Word × BitVec 6 :=
  if x < -2 ^ 31 then (0x80000000, fSAT)
  else if 2 ^ 31 - 1 < x then (0x7FFFFFFF, fSAT)
  else (BitVec.ofInt 32 x, 0)
/-- `SatU` of R104 for 32 bits. -/
def satU32 (x : Int) : Word × BitVec 6 :=
  if x < 0 then (0, fSAT)
  else if 2 ^ 32 - 1 < x then (0xFFFFFFFF, fSAT)
  else (BitVec.ofInt 32 x, 0)

/-- v_d ← f A B in each acting lane, without flags. -/
def vecBin (i : Instr) (d a b : Nat) (s : State) (f : Word → Word → Word) : Out :=
  perLane i s (fun c l c' => c'.wrV d l (f (c.rdV a l) (c.rdV b l)))
/-- v_d ← f A in each acting lane, without flags. -/
def vecUn (i : Instr) (d a : Nat) (s : State) (f : Word → Word) : Out :=
  perLane i s (fun c l c' => c'.wrV d l (f (c.rdV a l)))
/-- v_d ← f D A B in each acting lane, with the flags f gives; f also reads the lane's pending hints. -/
def vecFlag (i : Instr) (d a b : Nat) (s : State)
    (f : List Word → Word → Word → Word → Word × BitVec 6) : Out :=
  perLane i s (fun c l c' =>
    let r := f (c.lane l).hints (c.rdV d l) (c.rdV a l) (c.rdV b l)
    (c'.wrV d l r.1).setFlags r.2)

end Sys2Proof.Machine
end

