-- ==== Sys2Proof/Machine/Alu.lean ====
section
/-! DEFINITION. Integer and logic instructions, majors 0x01 to 0x07 (R133 to R135). -/

namespace Sys2Proof.Machine

/-- `IADD` (R133). -/
def execIadd (g : Guard) (d a b : Nat) (s : State) : Out :=
  vecBin (.iadd g d a b) d a b s (fun x y => x + y)
/-- `ISUB` (R133). -/
def execIsub (g : Guard) (d a b : Nat) (s : State) : Out :=
  vecBin (.isub g d a b) d a b s (fun x y => x - y)
/-- `IMUL` (R133). -/
def execImul (g : Guard) (d a b : Nat) (s : State) : Out :=
  vecBin (.imul g d a b) d a b s (fun x y => x * y)
/-- `IMULHI` (R133): bits [63:32] of the exact signed product. -/
def execImulhi (g : Guard) (d a b : Nat) (s : State) : Out :=
  vecBin (.imulhi g d a b) d a b s (fun x y => BitVec.ofInt 32 (x.toInt * y.toInt / 2 ^ 32))
/-- `IMULHI.u` (R133): bits [63:32] of the exact unsigned product. -/
def execImulhiU (g : Guard) (d a b : Nat) (s : State) : Out :=
  vecBin (.imulhiU g d a b) d a b s (fun x y => BitVec.ofNat 32 (x.toNat * y.toNat / 2 ^ 32))
/-- `IMAD` (R133): the old destination is the addend. -/
def execImad (g : Guard) (d a b : Nat) (s : State) : Out :=
  vecFlag (.imad g d a b) d a b s (fun _ z x y => (x * y + z, 0))
/-- `IMIN` (R133). -/
def execImin (g : Guard) (d a b : Nat) (s : State) : Out :=
  vecBin (.imin g d a b) d a b s (fun x y => if x.slt y then x else y)
/-- `IMIN.u` (R133). -/
def execIminU (g : Guard) (d a b : Nat) (s : State) : Out :=
  vecBin (.iminU g d a b) d a b s (fun x y => if x.ult y then x else y)
/-- `IMAX` (R133). -/
def execImax (g : Guard) (d a b : Nat) (s : State) : Out :=
  vecBin (.imax g d a b) d a b s (fun x y => if x.slt y then y else x)
/-- `IMAX.u` (R133). -/
def execImaxU (g : Guard) (d a b : Nat) (s : State) : Out :=
  vecBin (.imaxU g d a b) d a b s (fun x y => if x.ult y then y else x)
/-- `IADDS` (R133). -/
def execIadds (g : Guard) (d a b : Nat) (s : State) : Out :=
  vecFlag (.iadds g d a b) d a b s (fun _ _ x y => satS32 (x.toInt + y.toInt))
/-- `IADDS.u` (R133). -/
def execIaddsU (g : Guard) (d a b : Nat) (s : State) : Out :=
  vecFlag (.iaddsU g d a b) d a b s (fun _ _ x y => satU32 ((x.toNat : Int) + y.toNat))
/-- `ISUBS` (R133). -/
def execIsubs (g : Guard) (d a b : Nat) (s : State) : Out :=
  vecFlag (.isubs g d a b) d a b s (fun _ _ x y => satS32 (x.toInt - y.toInt))
/-- `ISUBS.u` (R133). -/
def execIsubsU (g : Guard) (d a b : Nat) (s : State) : Out :=
  vecFlag (.isubsU g d a b) d a b s (fun _ _ x y => satU32 ((x.toNat : Int) - y.toNat))
/-- The sum of the four signed byte products of `IDOT4` (R133). -/
def dot4 (x y : Word) : Int :=
  ((List.range 4).map (fun k =>
    (x.extractLsb' (8 * k) 8).toInt * (y.extractLsb' (8 * k) 8).toInt)).foldl (· + ·) 0
/-- `IDOT4` (R133). -/
def execIdot4 (g : Guard) (d a b : Nat) (s : State) : Out :=
  vecFlag (.idot4 g d a b) d a b s (fun _ z x y => (z + BitVec.ofInt 32 (dot4 x y), 0))
/-- `LEA` (R134): a signed 32-bit offset added to a 64-bit pair. -/
def execLea (g : Guard) (d a b : Nat) (s : State) : Out :=
  perLane (.lea g d a b) s (fun c l c' =>
    let x : DWord := BitVec.ofNat 64 (c.rdPairV a l) + (c.rdV b l).signExtend 64
    (c'.wrV d l (x.extractLsb' 0 32)).wrV (d + 1) l (x.extractLsb' 32 32))

/-- `IABS` (R133). -/
def execIabs (g : Guard) (d a : Nat) (s : State) : Out :=
  vecUn (.iabs g d a) d a s (fun x => if x.msb then -x else x)
/-- `INEG` (R133). -/
def execIneg (g : Guard) (d a : Nat) (s : State) : Out := vecUn (.ineg g d a) d a s (fun x => -x)
/-- `AND` (R133). -/
def execAnd (g : Guard) (d a b : Nat) (s : State) : Out := vecBin (.and g d a b) d a b s (fun x y => x &&& y)
/-- `OR` (R133). -/
def execOr (g : Guard) (d a b : Nat) (s : State) : Out := vecBin (.or g d a b) d a b s (fun x y => x ||| y)
/-- `XOR` (R133). -/
def execXor (g : Guard) (d a b : Nat) (s : State) : Out := vecBin (.xor g d a b) d a b s (fun x y => x ^^^ y)
/-- `ANDN` (R133). -/
def execAndn (g : Guard) (d a b : Nat) (s : State) : Out := vecBin (.andn g d a b) d a b s (fun x y => x &&& ~~~y)
/-- `NOT` (R133). -/
def execNot (g : Guard) (d a : Nat) (s : State) : Out := vecUn (.not g d a) d a s (fun x => ~~~x)
/-- A shifted left by B, 0 from 32 on (R133). -/
def shlW (x y : Word) : Word := if y.toNat < 32 then x <<< y.toNat else 0
/-- A shifted right by B, 0 from 32 on (R133). -/
def shrW (x y : Word) : Word := if y.toNat < 32 then x >>> y.toNat else 0
/-- `SHL` (R133). -/
def execShl (g : Guard) (d a b : Nat) (s : State) : Out := vecBin (.shl g d a b) d a b s shlW
/-- `SHR` (R133). -/
def execShr (g : Guard) (d a b : Nat) (s : State) : Out := vecBin (.shr g d a b) d a b s shrW
/-- `SAR` (R133): a shift of 31 and more gives the sign. -/
def execSar (g : Guard) (d a b : Nat) (s : State) : Out :=
  vecBin (.sar g d a b) d a b s (fun x y => x.sshiftRight (min y.toNat 31))
/-- `ROTL` (R133): by B[4:0]. -/
def execRotl (g : Guard) (d a b : Nat) (s : State) : Out :=
  vecBin (.rotl g d a b) d a b s (fun x y => x.rotateLeft (y.toNat % 32))
/-- The number of 1 bits. -/
def popcW (x : Word) : Nat := ((List.range 32).filter (fun i => x.getLsbD i)).length
/-- `POPC` (R133). -/
def execPopc (g : Guard) (d a : Nat) (s : State) : Out :=
  vecUn (.popc g d a) d a s (fun x => BitVec.ofNat 32 (popcW x))
/-- `CLZ` (R133). -/
def execClz (g : Guard) (d a : Nat) (s : State) : Out :=
  vecUn (.clz g d a) d a s (fun x => if x.toNat = 0 then 32 else BitVec.ofNat 32 (31 - Nat.log2 x.toNat))
/-- The word with bit i moved to bit 31 − i. -/
def brevW (x : Word) : Word := maskOf ((List.range 32).filter (fun i => x.getLsbD (31 - i)))
/-- `BREV` (R133). -/
def execBrev (g : Guard) (d a : Nat) (s : State) : Out := vecUn (.brev g d a) d a s brevW
/-- `SEL` (R133): by predicate depth 0, apart from the guard. -/
def execSel (g : Guard) (d a b : Nat) (s : State) : Out :=
  perLane (.sel g d a b) s (fun c l c' => c'.wrV d l (if c.pred l 0 then c.rdV a l else c.rdV b l))
/-- `MOV` (R133). -/
def execMov (g : Guard) (d a : Nat) (s : State) : Out := vecUn (.mov g d a) d a s (fun x => x)

/-- `IADD` with an immediate (R135), which a wide hint extends. -/
def execIaddImm (g : Guard) (d a : Nat) (imm : Int) (s : State) : Out :=
  perLane (.iaddImm g d a imm) s (fun c l c' =>
    c'.wrV d l (c.rdV a l + BitVec.ofInt 32 (wideImm 10 imm (c.lane l).hints)))
/-- `BFX` (R135). -/
def execBfx (g : Guard) (d a pos len : Nat) (s : State) : Out :=
  vecUn (.bfx g d a pos len) d a s (fun x => BitVec.ofNat 32 (x.toNat / 2 ^ pos % 2 ^ len))
/-- `BFI` (R135): the bits that would land above bit 31 are discarded. -/
def execBfi (g : Guard) (d a pos len : Nat) (s : State) : Out :=
  perLane (.bfi g d a pos len) s (fun c l c' =>
    let m : Word := BitVec.ofNat 32 ((2 ^ len - 1) * 2 ^ pos)
    c'.wrV d l ((c.rdV d l &&& ~~~m) ||| ((c.rdV a l <<< pos) &&& m)))
/-- `MOVI` (R135), which a wide hint extends. -/
def execMovi (g : Guard) (d : Nat) (imm : Int) (s : State) : Out :=
  perLane (.movi g d imm) s (fun c l c' => c'.wrV d l (BitVec.ofInt 32 (wideImm 16 imm (c.lane l).hints)))
/-- `MOVHI` (R135): bits [15:0] are kept. -/
def execMovhi (g : Guard) (d imm : Nat) (s : State) : Out :=
  perLane (.movhi g d imm) s (fun c l c' =>
    c'.wrV d l (BitVec.ofNat 32 ((c.rdV d l).toNat % 65536 + imm * 65536)))

end Sys2Proof.Machine
end

