-- ==== Sys2Proof/Machine/Trans.lean ====
section
/-! DEFINITION. The functions of major 0x09 (R138), correctly rounded: reciprocal, roots, 2^x, log2 and
tanh.  The three that are never rational at a rational argument other than their exact cases are
computed in fixed point with 512 fraction bits, far beyond the 24 that the rounding looks at. -/

namespace Sys2Proof.Machine

/-- Fraction bits of the fixed-point values below. -/
def fixP : Nat := 512

/-- ⌊√x⌋ found bit by bit from bit b − 1 down. -/
def isqrtFrom (x : Nat) : Nat → Nat → Nat
  | 0, acc => acc
  | b + 1, acc =>
    let t := acc + 2 ^ b
    isqrtFrom x b (if t * t ≤ x then t else acc)
/-- ⌊√x⌋. -/
def isqrt (x : Nat) : Nat := isqrtFrom x (Nat.log2 x / 2 + 1) 0

/-- √(n / d) as a fraction: exact where it is a multiple of 2^−400, else with a sticky bit below. -/
def sqrtFrac (n d : Nat) : Nat × Nat :=
  let t := n * 2 ^ 800 / d
  let s := isqrt t
  if s * s = t ∧ n * 2 ^ 800 % d = 0 then (s, 2 ^ 400) else (2 * s + 1, 2 ^ 401)

/-- Σ z^(2j+1)/(2j+1) in fixed point: k terms from the odd index i on, p holding z^i. -/
def atanhSum (z2 : Nat) : Nat → Nat → Nat → Nat
  | 0, _, _ => 0
  | k + 1, i, p => p / i + atanhSum z2 k (i + 2) (p * z2 / 2 ^ fixP)
/-- ln(n / d) in fixed point, for 1 ≤ n / d ≤ 2. -/
def lnFix (n d : Nat) : Nat :=
  let z := (n - d) * 2 ^ fixP / (n + d)
  2 * atanhSum (z * z / 2 ^ fixP) 175 1 z
/-- Σ r^k/k! in fixed point: k terms from index i on, p holding r^i/i!. -/
def expSum (r : Nat) : Nat → Nat → Nat → Nat
  | 0, _, _ => 0
  | k + 1, i, p => p + expSum r k (i + 1) (p * r / 2 ^ fixP / (i + 1))
/-- e^r in fixed point, for 0 ≤ r < 1 in fixed point. -/
def expFix (r : Nat) : Nat := expSum r 115 0 (2 ^ fixP)
/-- ln 2 in fixed point. -/
def ln2Fix : Nat := lnFix 2 1

/-- The rounding of a positive or negative fraction to FP32 with RNE. -/
def rnd32 (neg : Bool) (n d : Nat) : Nat × BitVec 6 := roundFin .fp32 false false neg n d
/-- NaN without a flag, as every instruction returns it (R138). -/
def nan32 : Nat × BitVec 6 := (0x7FC00000, 0)
/-- NaN with NV. -/
def nan32NV : Nat × BitVec 6 := (0x7FC00000, fNV)
/-- An FP32 infinity. -/
def inf32 (neg : Bool) (f : BitVec 6) : Nat × BitVec 6 := (0x7F800000 + Fmt.signBit .fp32 neg, f)
/-- An FP32 zero. -/
def zero32 (neg : Bool) : Nat × BitVec 6 := (Fmt.signBit .fp32 neg, 0)

/-- `FRCP` (R138). -/
def frcp (a : Nat) : Nat × BitVec 6 :=
  match readF .fp32 a with
  | .nan => nan32
  | .inf n => zero32 n
  | .fin n m e => if m = 0 then inf32 n fDZ else rnd32 n (fracDen e) (fracNum m e)
/-- `FRSQ` (R138). -/
def frsq (a : Nat) : Nat × BitVec 6 :=
  match readF .fp32 a with
  | .nan => nan32
  | .inf n => if n then nan32NV else zero32 false
  | .fin n m e =>
    if m = 0 then inf32 n fDZ
    else if n then nan32NV
    else let r := sqrtFrac (fracDen e) (fracNum m e); rnd32 false r.1 r.2
/-- `FSQRT` (R138). -/
def fsqrt (a : Nat) : Nat × BitVec 6 :=
  match readF .fp32 a with
  | .nan => nan32
  | .inf n => if n then nan32NV else inf32 false 0
  | .fin n m e =>
    if m = 0 then zero32 n
    else if n then nan32NV
    else let r := sqrtFrac (fracNum m e) (fracDen e); rnd32 false r.1 r.2

/-- 2^(k + f) for an integer k and a fraction f in fixed point, 0 ≤ f < 1, rounded. -/
def exp2Parts (k : Int) (f : Nat) : Nat × BitVec 6 :=
  let v := if f = 0 then 2 ^ fixP else expFix (f * ln2Fix / 2 ^ fixP)
  rnd32 false (v * 2 ^ k.toNat) (2 ^ fixP * 2 ^ (-k).toNat)
/-- `FEXP2` (R138). -/
def fexp2 (a : Nat) : Nat × BitVec 6 :=
  match readF .fp32 a with
  | .nan => nan32
  | .inf n => if n then zero32 false else inf32 false 0
  | .fin n m e =>
    if m = 0 then (0x3F800000, 0)
    else
      -- magnitudes of 1,024 and more overflow or fall below half the least subnormal
      let big := decide (1024 * fracDen e ≤ fracNum m e)
      if big then exp2Parts (if n then -1024 else 1024) 0
      else
        let x := fracNum m e * 2 ^ fixP / fracDen e
        let k := x / 2 ^ fixP
        let f := x % 2 ^ fixP
        if n then (if f = 0 then exp2Parts (-(k : Int)) 0 else exp2Parts (-(k : Int) - 1) (2 ^ fixP - f))
        else exp2Parts k f
/-- `FLOG2` (R138). -/
def flog2 (a : Nat) : Nat × BitVec 6 :=
  match readF .fp32 a with
  | .nan => nan32
  | .inf n => if n then nan32NV else inf32 false 0
  | .fin n m e =>
    if m = 0 then inf32 true fDZ
    else if n then nan32NV
    else
      let k : Int := (Nat.log2 m : Int) + e
      let d := 2 ^ Nat.log2 m
      if m = d then rnd32 (decide (k < 0)) k.natAbs 1
      else
        let t : Int := k * 2 ^ fixP + ((lnFix m d * 2 ^ fixP / ln2Fix : Nat) : Int)
        rnd32 (decide (t < 0)) t.natAbs (2 ^ fixP)
/-- `FTANH` (R138).  Below 2^−60 the value lies just under its argument; above 64 just under 1. -/
def ftanh (a : Nat) : Nat × BitVec 6 :=
  match readF .fp32 a with
  | .nan => nan32
  | .inf n => (0x3F800000 + Fmt.signBit .fp32 n, 0)
  | .fin n m e =>
    if m = 0 then zero32 n
    else
      let num := fracNum m e
      let den := fracDen e
      if num * 2 ^ 60 < den then rnd32 n (num * (2 ^ 100 - 1)) (den * 2 ^ 100)
      else if 64 * den ≤ num then rnd32 n (2 ^ 100 - 1) (2 ^ 100)
      else
        let y := 2 * num * 2 ^ fixP / den
        let k := y / ln2Fix
        let ex := expFix (y % ln2Fix) * 2 ^ k
        rnd32 n (ex - 2 ^ fixP) (ex + 2 ^ fixP)

end Sys2Proof.Machine
end

