-- ==== Sys2Proof/Machine/Crypto.lean ====
section
/-! DEFINITION. The digest and the signature check of firmware and attestation (R362, R363): SHA-512 and
RSASSA-PSS with SHA-512, MGF1 with SHA-512 and a 64-byte salt. -/

namespace Sys2Proof.Machine

/-! ### SHA-512 -/

/-- n has no divisor from d up, within fuel steps. -/
def noDivisor (n : Nat) : Nat → Nat → Bool
  | _, 0 => true
  | d, f + 1 => if d * d > n then true else n % d ≠ 0 && noDivisor n (d + 1) f
/-- The first 80 primes. -/
def primes80 : List Nat := (List.range 410).filter (fun n => decide (2 ≤ n) && noDivisor n 2 30)
/-- ⌊∛x⌋ found bit by bit from bit b − 1 down. -/
def icbrtFrom (x : Nat) : Nat → Nat → Nat
  | 0, acc => acc
  | b + 1, acc =>
    let t := acc + 2 ^ b
    icbrtFrom x b (if t * t * t ≤ x then t else acc)
/-- The 80 round constants: the first 64 fraction bits of the cube roots of the first 80 primes. -/
def shaK : List DWord := primes80.map (fun p => BitVec.ofNat 64 (icbrtFrom (p * 2 ^ 192) 68 0))
/-- The initial digest: the first 64 fraction bits of the square roots of the first 8 primes. -/
def shaInit : List DWord := (primes80.take 8).map (fun p => BitVec.ofNat 64 (isqrt (p * 2 ^ 128)))
/-- A rotation to the right. -/
def rotr (x : DWord) (n : Nat) : DWord := x.rotateRight n
/-- The next word of the message schedule, from the 16 before it, the latest first. -/
def shaNext (w : List DWord) : DWord :=
  let a := w.getD 1 0
  let b := w.getD 14 0
  (rotr a 19 ^^^ rotr a 61 ^^^ (a >>> 6)) + w.getD 6 0 + (rotr b 1 ^^^ rotr b 8 ^^^ (b >>> 7)) + w.getD 15 0
/-- The message schedule, latest word first. -/
def shaSchedule : Nat → List DWord → List DWord
  | 0, w => w
  | n + 1, w => shaSchedule n (shaNext w :: w)
/-- One round on the eight working variables. -/
def shaRound (v : List DWord) (kw : DWord) : List DWord :=
  match v with
  | [a, b, c, d, e, f, g, h] =>
    let t1 := h + (rotr e 14 ^^^ rotr e 18 ^^^ rotr e 41) + ((e &&& f) ^^^ (~~~e &&& g)) + kw
    let t2 := (rotr a 28 ^^^ rotr a 34 ^^^ rotr a 39) + ((a &&& b) ^^^ (a &&& c) ^^^ (b &&& c))
    [t1 + t2, a, b, c, d + t1, e, f, g]
  | _ => v
/-- The number that bytes hold, most significant first. -/
def natBE (bs : List Byte) : Nat := bs.foldl (fun n b => 256 * n + b.toNat) 0
/-- n bytes of a number, most significant first. -/
def bytesBE (n x : Nat) : List Byte := (bytesOfNat n x).reverse
/-- One block of 128 bytes. -/
def shaBlock (k : List DWord) (h : List DWord) (b : List Byte) : List DWord :=
  let w := (List.range 16).map (fun i => BitVec.ofNat 64 (natBE ((b.drop (8 * i)).take 8)))
  let ws := (shaSchedule 64 w.reverse).reverse
  let v := (k.zip ws).foldl (fun v x => shaRound v (x.1 + x.2)) h
  (h.zip v).map (fun x => x.1 + x.2)
/-- The blocks of a padded message, in order. -/
def shaBlocks (k : List DWord) : Nat → List Byte → List DWord → List DWord
  | 0, _, h => h
  | n + 1, bs, h => shaBlocks k n (bs.drop 128) (shaBlock k h (bs.take 128))
/-- SHA-512. -/
def sha512 (msg : List Byte) : List Byte :=
  let n := msg.length
  let z := (239 - n % 128) % 128
  let m := msg ++ [0x80] ++ List.replicate z 0 ++ bytesBE 16 (8 * n)
  (shaBlocks shaK (m.length / 128) m shaInit).flatMap (fun x => bytesBE 8 x.toNat)

/-! ### RSASSA-PSS -/

/-- b^(2^n) modulo m. -/
def squares (m : Nat) : Nat → Nat → Nat
  | 0, b => b
  | n + 1, b => squares m n (b * b % m)
/-- b^65537 modulo m. -/
def rsaPublic (m b : Nat) : Nat := squares m 16 (b % m) * b % m
/-- MGF1 with SHA-512. -/
def mgf1 (seed : List Byte) (n : Nat) : List Byte :=
  ((List.range ((n + 63) / 64)).flatMap (fun i => sha512 (seed ++ bytesBE 4 i))).take n
/-- EMSA-PSS verification of an encoded message of 512 bytes for a modulus of 4,096 bits, salt 64 bytes. -/
def pssVerify (msg em : List Byte) : Bool :=
  let dbLen := 512 - 65
  let masked := em.take dbLen
  let h := (em.drop dbLen).take 64
  let db : List Byte := (masked.zip (mgf1 h dbLen)).map (fun x => x.1 ^^^ x.2)
  let db : List Byte := match db with | b :: r => (b &&& 0x7F) :: r | [] => []
  let salt := db.drop (dbLen - 64)
  decide (em.length = 512) && decide (em.getD 511 0 = 0xBC) && decide ((em.headD 0).toNat < 128)
    && (db.take (dbLen - 65)).all (fun b => decide (b = 0)) && decide (db.getD (dbLen - 65) 0 = 1)
    && decide (sha512 (List.replicate 8 0 ++ sha512 msg ++ salt) = h)
/-- R362: a signature over a message verifies under a modulus. -/
def rsaVerify (modulus sig msg : List Byte) : Bool :=
  let n := natBE modulus
  let s := natBE sig
  decide (s < n) && pssVerify msg (bytesBE 512 (rsaPublic n s))

/-- EMSA-PSS encoding of a message with a salt of 64 bytes for a modulus of 4,096 bits. -/
def pssEncode (msg salt : List Byte) : List Byte :=
  let h := sha512 (List.replicate 8 0 ++ sha512 msg ++ salt)
  let db : List Byte := List.replicate 382 0 ++ [1] ++ salt
  let masked : List Byte := (db.zip (mgf1 h 447)).map (fun x => x.1 ^^^ x.2)
  (match masked with | b :: r => (b &&& 0x7F) :: r | [] => []) ++ h ++ [0xBC]

/-! ### The identity key (R366, R367) -/

/-- There is a prime from a place on that may be one of an RSA key with exponent 65,537, and is not another. -/
theorem exists_keyPrime (a other : Nat) : ∃ p, a ≤ p ∧ p.Prime ∧ p % 65537 ≠ 1 ∧ p ≠ other := by
  have hu : IsUnit (2 : ZMod 65537) := by
    have : (2 : ZMod 65537) * 32769 = 1 := by decide
    exact IsUnit.of_mul_eq_one _ this
  obtain ⟨p, hp, hpp, hm⟩ := Nat.forall_exists_prime_gt_and_eq_mod hu (a + other)
  refine ⟨p, by omega, hpp, fun h => ?_, by omega⟩
  have h2 : ((p : Nat) : ZMod 65537) = ((1 : Nat) : ZMod 65537) := (ZMod.natCast_eq_natCast_iff _ _ _).2 h
  rw [hm] at h2
  exact absurd h2 (by decide)
/-- The first such prime. -/
def keyPrime (a other : Nat) : Nat := Nat.find (exists_keyPrime a other)
/-- The place of a seed among the numbers from which two primes make a modulus of 4,096 bits. -/
def keyStart (seed : Nat) : Nat := let low := Nat.sqrt (2 ^ 4095) + 1; low + seed % (2 ^ 2048 - low)
/-- The primes of a package's identity key. -/
def identityPrimes (p : Nat) : Nat × Nat :=
  let a := keyPrime (keyStart (Config.identitySeed p false)) 0
  (a, keyPrime (keyStart (Config.identitySeed p true)) a)
/-- The public modulus of a package's identity key. -/
def identityModulus (p : Nat) : Nat := (identityPrimes p).1 * (identityPrimes p).2
/-- The private exponent of a package's identity key: the inverse of 65,537. -/
def identityExponent (p : Nat) : Nat :=
  let phi := ((identityPrimes p).1 - 1) * ((identityPrimes p).2 - 1)
  (Nat.gcdA 65537 phi % phi).toNat
/-- R366: the n-th signature of a package's identity key, over a message (R362). -/
def identitySignature (p n : Nat) (msg : List Byte) : List Byte :=
  bytesBE 512 (natBE (pssEncode msg (bytesBE 64 (Config.signatureSalt n).toNat)) ^ identityExponent p % identityModulus p)

/-! ### Firmware images (R362) -/

/-- What the check of an image gives: loaded, a signature or key mismatch, or a version below the fuse. -/
inductive FwCheck | good | mismatch | old
  deriving DecidableEq, Repr
/-- Bytes of a firmware header. -/
def fwHeader : Nat := 0x800
/-- A field of a firmware image. -/
def fwBytes (img : List Byte) (lo hi : Nat) : List Byte := (img.drop lo).take (hi - lo)
/-- All bytes are zero. -/
def allZero (bs : List Byte) : Bool := bs.all (fun b => decide (b = 0))
/-- R362: the checks of an image for a target under the fused digest and minimum versions. -/
def fwCheck (img : List Byte) (target : Nat) (keyDigest : List Byte) (minVersion : List Nat) : FwCheck :=
  let w := natOfBytes (fwBytes img 0 8)
  let len := natOfBytes (fwBytes img 8 16)
  let modulus := fwBytes img 0x40 0x240
  if w / 2 ^ 56 ≠ 1 ∨ w / 2 ^ 48 % 256 ≠ target ∨ w / 2 ^ 32 % 2 ^ 16 ≠ 0 ∨ len % 64 ≠ 0 ∨ img.length ≠ fwHeader + len
      ∨ ¬ allZero (fwBytes img 0x10 0x40) ∨ ¬ allZero (fwBytes img 0x240 0x600) ∨ sha512 modulus ≠ keyDigest
      ∨ ¬ rsaVerify modulus (fwBytes img 0x600 0x800) (fwBytes img 0 0x600 ++ img.drop fwHeader) then .mismatch
  else if w % 2 ^ 32 < minVersion.getD target 0 then .old
  else .good

end Sys2Proof.Machine
end

