-- ==== Sys2Proof/Machine/Control.lean ====
section
/-! DEFINITION. Control flow and lane control, majors 0x1C to 0x1F, hints, and the undefined words (R85, R89
to R94, R149, R306, R308, R309). -/

namespace Sys2Proof.Machine

/-- A lane's PC set by its instruction; its pending hints are spent. -/
def Ctx.jump (c : Ctx) (l : Nat) (pc : DWord) : Ctx :=
  c.modLane l (fun x => { x with pc := pc, hints := [], wait := .none })
/-- R149: PC + 4·Sx. -/
def relTarget (pc : DWord) (imm : Int) : DWord := pc + BitVec.ofInt 64 (4 * imm)
/-- A taken branch in each acting lane, with its trace records (R407). -/
def branchLanes (i : Instr) (kind : Nat) (s : State) (link : Option Nat) (tgt : Ctx → Nat → DWord) : Out :=
  gate i s (fun s c act =>
    let s := s.trace c kind act (fun l => (c.lane l).pc.toNat % 2 ^ 57) (fun l => (tgt c l).toNat % 2 ^ 57)
    .okPc (s.modCtx s.cur.ctx (fun c' => act.foldl (fun c' l =>
      let c' := match link with
        | none => c'
        | some d =>
          let r := (c.lane l).pc + 4
          (c'.wrV d l (r.extractLsb' 0 32)).wrV (d + 1) l (r.extractLsb' 32 32)
      c'.jump l (tgt c l)) c')))

/-- `BRA` (R149). -/
def execBra (g : Guard) (imm : Int) (s : State) : Out :=
  branchLanes (.bra g imm) 1 s none
    (fun c l => relTarget (c.lane l).pc (wideImm 16 imm (c.lane l).hints))
/-- `CALL` (R149). -/
def execCall (g : Guard) (d : Nat) (imm : Int) (s : State) : Out :=
  branchLanes (.call g d imm) 1 s (some d)
    (fun c l => relTarget (c.lane l).pc (wideImm 16 imm (c.lane l).hints))
/-- `BRX` (R149). -/
def execBrx (g : Guard) (a : Nat) (s : State) : Out :=
  branchLanes (.brx g a) 1 s none (fun c l => BitVec.ofNat 64 (c.rdPairV a l))
/-- `CALLX` (R149): the target pair is read before the link is written. -/
def execCallx (g : Guard) (d a : Nat) (s : State) : Out :=
  branchLanes (.callx g d a) 1 s (some d) (fun c l => BitVec.ofNat 64 (c.rdPairV a l))
/-- `RET` (R149). -/
def execRet (g : Guard) (a : Nat) (s : State) : Out :=
  branchLanes (.ret g a) 2 s none (fun c l => BitVec.ofNat 64 (c.rdPairV a l))

/-- The lanes of a context exit (R51). -/
def Ctx.exitLanes (c : Ctx) (act : List Nat) : Ctx :=
  c.modLanes act (fun _ x => { x with exited := true, hints := [], wait := .none })
/-- The children of a sequencer's LAUNCH have all completed (R41, R290, R294). -/
def State.childrenDone (s : State) (c : Ctx) : Bool :=
  match (s.unit c.unit).launch with | none => true | some x => x.posted
/-- `EXIT` (R41, R51, R149): a lane exits; a sequencer with running children joins them first, and its event
queue is emptied. -/
def execExit (g : Guard) (s : State) : Out :=
  gate (.exit g) s (fun s c act =>
    if c.kind = .seq then
      if s.childrenDone c then
        .okPc (s.modCtx s.cur.ctx (fun c => { c.exitLanes act with exiting := true, evq := [] }))
      else .wait (s.modCtx s.cur.ctx (fun c => { c with exiting := true })) .join
    else
      let s := s.trace c 3 act (fun l => (c.lane l).pc.toNat % 2 ^ 57) (fun _ => 0)
      .okPc (s.modCtx s.cur.ctx (fun c => c.exitLanes act)))

/-- `YIELD` (R306). -/
def execYield (g : Guard) (s : State) : Out :=
  gate (.yield g) s (fun s c _ =>
    let team := s.unit c.unit
    if c.kind ≠ .handler ∧ team.level = 1 then
      if (Sparse.find (s.pkg c.pkg).preq team.site.loc).isSome ∧ ¬ team.yielded then
        .ok (s.modUnit c.unit (fun u => { u with yielded := true }))
      else .ok (s.modCtx s.cur.ctx (fun c => { c with yld := true }))
    else .ok s)

/-- `SLEEP` (R308). -/
def execSleep (g : Guard) (a : Nat) (s : State) : Out :=
  gate (.sleep g a) s (fun s c act =>
    .okPc (s.modCtx s.cur.ctx (fun c' => act.foldl (fun c' l =>
      if c.rdV a l = 0 then c'.advance [l]
      else c'.modLane l (fun x => { x with wait := .sleep (s.now c + (c.rdV a l).toNat) })) c')))

/-- `NOP` (R149). -/
def execNop (g : Guard) (s : State) : Out := gate (.nop g) s (fun s _ _ => .ok s)

/-- R309: the registers that RGN names. -/
def rgnSet (d mask : Nat) : List Nat := ((List.range 16).filter (fun j => mask.testBit j)).map (fun j => d + j)
/-- `RGN` (R72, R309): the region set is replaced; what it already held staged stays staged. -/
def execRgn (g : Guard) (d mask : Nat) (s : State) : Out :=
  oncePerIssue (.rgn g d mask) s (fun s c _ _ =>
    if c.kind = .group then
      .ok (s.modCtx s.cur.ctx (fun c =>
        let r := rgnSet d mask
        { c with regionSet := r, staged := r.filter (fun n => c.staged.contains n) }))
    else .ok s)

/-- R90: a hint word joins the pending hints of each lane. -/
def hintWord (i : Instr) (s : State) : Out :=
  gate i s (fun s _ act =>
    .okPc (s.modCtx s.cur.ctx (fun c => c.modLanes act (fun _ x =>
      { x with hints := x.hints ++ [wordOf i], pc := x.pc + 4, wait := .none }))))
/-- `HNT.wide` (R89 to R91). -/
def execHntWide (imm : Nat) (s : State) : Out := hintWord (.hntWide imm) s
/-- `HNT.sched` (R89, R90, R92). -/
def execHntSched (rsvd : Nat) (y pv : Bool) (prio : Nat) (lv : Bool) (lat : Nat) (s : State) : Out :=
  hintWord (.hntSched rsvd y pv prio lv lat) s
/-- `HNT.mod` (R89, R90, R93). -/
def execHntMod (code arg : Nat) (s : State) : Out := hintWord (.hntMod code arg) s

/-- The guard with which an undefined word fails check order 3 (R60, R85, R98): a reserved guard and a hint
of kind 3 fail in every lane of the cohort. -/
def undefinedGuard (w : Nat) : Guard := if w / 2 ^ 26 = 63 then .always else decGuard (w / 2 ^ 22 % 16)
/-- A word that is no instruction (R95, R96, R98 order 3): the undefined-instruction trap. -/
def execUndefinedInstruction (w : Nat) (s : State) : Out :=
  gateLanes (fun c l => c.guard (undefinedGuard w) l) (.undefinedInstruction w) s (fun _ _ act => .trap 1 act 0)

end Sys2Proof.Machine
end

