-- ==== Sys2Proof/Machine/Fp.lean ====
section
/-! DEFINITION. Floating point and packed halves, majors 0x08 to 0x0A (R136 to R139). -/

namespace Sys2Proof.Machine

/-- A code read as FP32. -/
def f32 (w : Word) : FVal := readF .fp32 w.toNat
/-- The exact value of a · b + d (R137): the product is one addend, and NaN operands set no flag. -/
def fmaV (a b d : FVal) : FVal × BitVec 6 :=
  if a.isNaN || b.isNaN || d.isNaN then (.nan, 0)
  else
    let p := mulV a b
    if p.2 ≠ 0 then p else sumV [p.1, d]
/-- A code and flags as a register result. -/
def asWord (r : Nat × BitVec 6) : Word × BitVec 6 := (BitVec.ofNat 32 r.1, r.2)
/-- An FP32 instruction with an exact value, rounded once, saturating under the modifier (R136). -/
def vecArith (i : Instr) (d a b : Nat) (s : State) (f : FVal → FVal → FVal → FVal × BitVec 6) : Out :=
  vecFlag i d a b s (fun hs z x y => asWord (roundArith .fp32 (satHint hs) (f (f32 x) (f32 y) (f32 z))))
/-- `FADD` (R137). -/
def execFadd (g : Guard) (d a b : Nat) (s : State) : Out :=
  vecArith (.fadd g d a b) d a b s (fun x y _ => sumV [x, y])
/-- `FSUB` (R137). -/
def execFsub (g : Guard) (d a b : Nat) (s : State) : Out :=
  vecArith (.fsub g d a b) d a b s (fun x y _ => sumV [x, y.neg])
/-- `FMUL` (R137). -/
def execFmul (g : Guard) (d a b : Nat) (s : State) : Out :=
  vecArith (.fmul g d a b) d a b s (fun x y _ => mulV x y)
/-- `FFMA` (R137). -/
def execFfma (g : Guard) (d a b : Nat) (s : State) : Out := vecArith (.ffma g d a b) d a b s fmaV
/-- `FMIN` (R137). -/
def execFmin (g : Guard) (d a b : Nat) (s : State) : Out :=
  vecBin (.fmin g d a b) d a b s (fun x y => BitVec.ofNat 32 (minCodeOf .fp32 x.toNat y.toNat))
/-- `FMAX` (R137). -/
def execFmax (g : Guard) (d a b : Nat) (s : State) : Out :=
  vecBin (.fmax g d a b) d a b s (fun x y => BitVec.ofNat 32 (maxCodeOf .fp32 x.toNat y.toNat))
/-- R137: a change of sign, the canonical NaN for a NaN. -/
def signOp (x r : Word) : Word := if (f32 x).isNaN then 0x7FC00000 else r
/-- `FABS` (R137). -/
def execFabs (g : Guard) (d a : Nat) (s : State) : Out :=
  vecUn (.fabs g d a) d a s (fun x => signOp x (x &&& 0x7FFFFFFF))
/-- `FNEG` (R137). -/
def execFneg (g : Guard) (d a : Nat) (s : State) : Out :=
  vecUn (.fneg g d a) d a s (fun x => signOp x (x ^^^ 0x80000000))
/-- `FCPYS` (R137). -/
def execFcpys (g : Guard) (d a b : Nat) (s : State) : Out :=
  vecBin (.fcpys g d a b) d a b s (fun x y => signOp x ((x &&& 0x7FFFFFFF) ||| (y &&& 0x80000000)))
/-- The class bit of an FP32 code (R137). -/
def fclassBit (x : Word) : Nat :=
  match f32 x with
  | .nan => 8
  | .inf n => if n then 0 else 7
  | .fin n m _ =>
    if m = 0 then (if n then 3 else 4)
    else if m < 2 ^ 23 then (if n then 2 else 5)
    else (if n then 1 else 6)
/-- `FCLASS` (R137). -/
def execFclass (g : Guard) (d a : Nat) (s : State) : Out :=
  vecUn (.fclass g d a) d a s (fun x => BitVec.ofNat 32 (2 ^ fclassBit x))

/-- An instruction of major 0x09 (R138). -/
def vecFunc (i : Instr) (d a : Nat) (s : State) (f : Nat → Nat × BitVec 6) : Out :=
  vecFlag i d a a s (fun _ _ x _ => asWord (f x.toNat))
/-- `FRCP` (R138). -/
def execFrcp (g : Guard) (d a : Nat) (s : State) : Out := vecFunc (.frcp g d a) d a s frcp
/-- `FRSQ` (R138). -/
def execFrsq (g : Guard) (d a : Nat) (s : State) : Out := vecFunc (.frsq g d a) d a s frsq
/-- `FSQRT` (R138). -/
def execFsqrt (g : Guard) (d a : Nat) (s : State) : Out := vecFunc (.fsqrt g d a) d a s fsqrt
/-- `FEXP2` (R138). -/
def execFexp2 (g : Guard) (d a : Nat) (s : State) : Out := vecFunc (.fexp2 g d a) d a s fexp2
/-- `FLOG2` (R138). -/
def execFlog2 (g : Guard) (d a : Nat) (s : State) : Out := vecFunc (.flog2 g d a) d a s flog2
/-- `FTANH` (R138). -/
def execFtanh (g : Guard) (d a : Nat) (s : State) : Out := vecFunc (.ftanh g d a) d a s ftanh

/-- Half h of a register, as a code. -/
def halfOf (x : Word) (h : Nat) : Nat := wbits x (16 * h + 15) (16 * h)
/-- A packed-half result: a code and flags for each half (R139). -/
def packHalves (f : Nat → Nat × BitVec 6) : Word × BitVec 6 :=
  (BitVec.ofNat 32 ((f 1).1 * 65536 + (f 0).1), (f 0).2 ||| (f 1).2)
/-- A packed-half instruction of a format (R139). -/
def vecHalf (F : Fmt) (i : Instr) (d a b : Nat) (s : State)
    (f : FVal → FVal → FVal → FVal × BitVec 6) : Out :=
  vecFlag i d a b s (fun hs z x y => packHalves (fun h =>
    roundArith F (satHint hs) (f (readF F (halfOf x h)) (readF F (halfOf y h)) (readF F (halfOf z h)))))
/-- `HMAX2` of a format (R139). -/
def vecHalfMax (F : Fmt) (i : Instr) (d a b : Nat) (s : State) : Out :=
  vecBin i d a b s (fun x y => (packHalves (fun h => (maxCodeOf F (halfOf x h) (halfOf y h), 0))).1)
/-- `HFMA2.bf` (R139). -/
def execHfma2Bf (g : Guard) (d a b : Nat) (s : State) : Out := vecHalf .bf16 (.hfma2Bf g d a b) d a b s fmaV
/-- `HFMA2.h` (R139). -/
def execHfma2H (g : Guard) (d a b : Nat) (s : State) : Out := vecHalf .fp16 (.hfma2H g d a b) d a b s fmaV
/-- `HADD2.bf` (R139). -/
def execHadd2Bf (g : Guard) (d a b : Nat) (s : State) : Out :=
  vecHalf .bf16 (.hadd2Bf g d a b) d a b s (fun x y _ => sumV [x, y])
/-- `HADD2.h` (R139). -/
def execHadd2H (g : Guard) (d a b : Nat) (s : State) : Out :=
  vecHalf .fp16 (.hadd2H g d a b) d a b s (fun x y _ => sumV [x, y])
/-- `HMUL2.bf` (R139). -/
def execHmul2Bf (g : Guard) (d a b : Nat) (s : State) : Out :=
  vecHalf .bf16 (.hmul2Bf g d a b) d a b s (fun x y _ => mulV x y)
/-- `HMUL2.h` (R139). -/
def execHmul2H (g : Guard) (d a b : Nat) (s : State) : Out :=
  vecHalf .fp16 (.hmul2H g d a b) d a b s (fun x y _ => mulV x y)
/-- `HMAX2.bf` (R139). -/
def execHmax2Bf (g : Guard) (d a b : Nat) (s : State) : Out := vecHalfMax .bf16 (.hmax2Bf g d a b) d a b s
/-- `HMAX2.h` (R139). -/
def execHmax2H (g : Guard) (d a b : Nat) (s : State) : Out := vecHalfMax .fp16 (.hmax2H g d a b) d a b s

end Sys2Proof.Machine
end

