-- ==== Sys2Proof/Machine/Scales.lean ====
section
/-! DEFINITION. Scale registers, generations and accession tags (R63 to R68). -/

namespace Sys2Proof.Machine

/-- GEN of s_n. -/
def Ctx.sGen (c : Ctx) (n : Nat) : Nat := (Sparse.get 0 c.sctl n).toNat % 16
/-- FORM of s_n: true is band form. -/
def Ctx.sBand (c : Ctx) (n : Nat) : Bool := decide (16 ≤ (Sparse.get 0 c.sctl n).toNat)
/-- GEN and FORM of s_n written. -/
def Ctx.setCtl (c : Ctx) (n gen : Nat) (band : Bool) : Ctx :=
  { c with sctl := Sparse.set 0 c.sctl n (BitVec.ofNat 5 (gen % 16 + if band then 16 else 0)) }
/-- Payload byte k of s_n. -/
def Ctx.sByte (c : Ctx) (n k : Nat) : Nat := (Sparse.get 0 c.scales (32 * n + k)).toNat
/-- Payload byte k of s_n written. -/
def Ctx.setSByte (c : Ctx) (n k x : Nat) : Ctx :=
  { c with scales := Sparse.set 0 c.scales (32 * n + k) (BitVec.ofNat 8 x) }
/-- The 32 payload bytes of s_n. -/
def Ctx.sPayload (c : Ctx) (n : Nat) : List Byte := Sparse.getRun 0 c.scales (32 * n) 32
/-- The payload of s_n written; bytes 24 to 31 of a band form stay zero (R63). -/
def Ctx.setPayload (c : Ctx) (n : Nat) (bs : List Byte) (band : Bool) : Ctx :=
  { c with scales := Sparse.setRun 0 c.scales (32 * n) (if band then bs.take 24 ++ List.replicate 8 0 else bs) }
/-- Block entry k of a scale register of a form (R63). -/
def Ctx.blockEntry (c : Ctx) (n k : Nat) : Nat := if c.sBand n then c.sByte n (8 + k) else c.sByte n k
/-- Band entry b of a scale register in band form (R63). -/
def Ctx.bandEntry (c : Ctx) (n b : Nat) : Nat := c.sByte n (2 * b) + 256 * c.sByte n (2 * b + 1)

/-! Tags, in the layouts of R81. -/

/-- GEN of a tag. -/
def tagGen (t : BitVec 16) : Nat := t.toNat % 16
/-- INDEX of a tag. -/
def tagIndex (t : BitVec 16) : Nat := t.toNat / 16 % 64
/-- MODE of a tile tag. -/
def tagMode (t : BitVec 16) : Bool := t.getLsbD 11
/-- RUNLOG of a tile tag. -/
def tagLog (t : BitVec 16) : Nat := t.toNat / 4096 % 8
/-- BOUND of a tag. -/
def tagBound (t : BitVec 16) : Bool := t.getLsbD 15
/-- A bound tag. -/
def mkTag (index gen : Nat) (mode : Bool) (log : Nat) : BitVec 16 :=
  BitVec.ofNat 16 (gen % 16 + index * 16 + (if mode then 2048 else 0) + log * 4096 + 32768)

/-- R67: BOUND cleared in every tag whose run includes s_r and whose GEN is x. -/
def clearStale (tags : Sparse (BitVec 16)) (tile : Bool) (r x : Nat) : Sparse (BitVec 16) :=
  (tags.map (fun e =>
    let n := if tile then 2 ^ tagLog e.2 else 1
    if tagIndex e.2 ≤ r ∧ r < tagIndex e.2 + n ∧ tagGen e.2 = x then (e.1, e.2 &&& 0x7FFF) else e)).filter
      (fun e => decide (e.2 ≠ 0))
/-- R66, R67: an event sets the GEN and FORM of s_r, and no tag with that GEN stays bound to it. -/
def Ctx.setGen (c : Ctx) (r x : Nat) (band : Bool) : Ctx :=
  let c := c.setCtl r x band
  { c with vtags := clearStale c.vtags false r (x % 16), ttags := clearStale c.ttags true r (x % 16) }
/-- R66: the GEN of s_r advances; its FORM becomes the one given. -/
def Ctx.advGen (c : Ctx) (r : Nat) (band : Bool) : Ctx := c.setGen r ((c.sGen r + 1) % 16) band
/-- The registers of a run. -/
def runRegs (base log : Nat) : List Nat := (List.range (2 ^ log)).map (fun i => base + i)
/-- R66, binding: a uniform run keeps its GEN, a mixed one takes one more than its highest. -/
def Ctx.bindGen (c : Ctx) (base log : Nat) : Ctx × Nat :=
  let rs := runRegs base log
  let g0 := c.sGen base
  if rs.all (fun r => decide (c.sGen r = g0)) then (c, g0)
  else
    let g := (rs.foldl (fun m r => max m (c.sGen r)) 0 + 1) % 16
    (rs.foldl (fun c r => c.setGen r g (c.sBand r)) c, g)
/-- Tile t's tag bound. -/
def Ctx.bindT (c : Ctx) (t index gen : Nat) (mode : Bool) (log : Nat) : Ctx :=
  { c with ttags := Sparse.set 0 c.ttags t (mkTag index gen mode log) }
/-- Vector register n's tag bound. -/
def Ctx.bindV (c : Ctx) (n index gen : Nat) : Ctx :=
  { c with vtags := Sparse.set 0 c.vtags n (mkTag index gen false 0) }
/-- Vector register n's tag. -/
def Ctx.vtag (c : Ctx) (n : Nat) : BitVec 16 := Sparse.get 0 c.vtags n
/-- Tile t's tag. -/
def Ctx.ttag (c : Ctx) (t : Nat) : BitVec 16 := Sparse.get 0 c.ttags t
/-- R68 for a vector register: the tag is current. -/
def Ctx.vCurrent (c : Ctx) (n : Nat) : Bool :=
  let t := c.vtag n
  tagBound t && decide (c.sGen (tagIndex t) = tagGen t)
/-- R68 for a tile under a slot's scale mode and run length. -/
def Ctx.tCurrent (c : Ctx) (t : Nat) (sh : RunShape) : Bool :=
  let x := c.ttag t
  tagBound x && decide (tagMode x = sh.band) && decide (tagLog x = sh.log)
    && (runRegs (tagIndex x) sh.log).all (fun r => decide (c.sGen r = tagGen x))
/-- R113: the block entry that scales lane l's elements of vector register n. -/
def Ctx.vScale (c : Ctx) (n l : Nat) : Nat := c.blockEntry (tagIndex (c.vtag n)) l
/-- A run misaligned or past the group's registers (R65, R167). -/
def State.badRun (s : State) (c : Ctx) (base log : Nat) : Bool :=
  decide (base % 2 ^ log ≠ 0) || decide (s.limit c (.s 0) < base + 2 ^ log)

end Sys2Proof.Machine
end

