-- ==== Sys2Proof/Machine/Convert.lean ====
section
/-! DEFINITION. Conversion and quantisation, major 0x10 (R140 to R143, R124). -/

namespace Sys2Proof.Machine

/-- Element k, of w bits, of a register (R111, R140). -/
def elemOf (x : Word) (w k : Nat) : Nat := x.toNat / 2 ^ (w * k) % 2 ^ w
/-- A register with element k of w bits replaced. -/
def setElem (x : Word) (w k v : Nat) : Word :=
  BitVec.ofNat 32 (x.toNat - elemOf x w k * 2 ^ (w * k) + v % 2 ^ w * 2 ^ (w * k))

/-- R69, R167: the scale register of a tagged register that an instruction under a scaled slot reads. -/
def Ctx.boundRegs (c : Ctx) (sl : Slot) (tagged : Nat) : List RegName :=
  if sl.scale ≠ 0 ∧ tagBound (c.vtag tagged) then [.s (tagIndex (c.vtag tagged))] else []
/-- An instruction of major 0x10 that writes one register per lane, under a slot; `tagged` names the
register whose tag a scaled slot needs (R68, R141), once what still fills its scale register has been performed (R69,
R167). -/
def convLanes (i : Instr) (f tagged : Nat) (s : State) (body : Slot → Ctx → Nat → Ctx → Ctx) : Out :=
  gate i s (fun s c act =>
    let sl := slotOf (s.fmtOf c) f
    ordered s c (c.boundRegs sl tagged) <|
    if sl.scale ≠ 0 ∧ !c.vCurrent tagged then .trap 0x0A act 0
    else .ok (s.modCtx s.cur.ctx (fun c' => act.foldl (fun c' l => body sl c l c') c')))

/-- `CVT` (R141, R122). -/
def execCvt (g : Guard) (d a f k : Nat) (s : State) : Out :=
  convLanes (.cvt g d a f k) f d s (fun sl c l c' =>
    let sat := sl.sat || satHint (c.lane l).hints
    let x := f32 (c.rdV a l)
    let r := if sl.scale = 0 then roundV sl.fmt sl.rtz sat x else roundQuot sl.fmt sl.rtz sat x (c.vScale d l)
    (c'.wrV d l (setElem (c.rdV d l) sl.fmt.width k r.1)).setFlags r.2)

/-- The conversion that selector k chooses (R142). -/
def cvtiOf (k : Nat) (rtz sat : Bool) (x : Word) : Word × BitVec 6 :=
  asWord (match k with
    | 0 => roundV .s32 rtz sat (f32 x)
    | 1 => roundV .u32 rtz sat (f32 x)
    | 2 => roundV .fp32 rtz false (.fin x.msb x.toInt.natAbs 0)
    | _ => roundV .fp32 rtz false (.fin false x.toNat 0))
/-- `CVTI` (R142). -/
def execCvti (g : Guard) (d a f k : Nat) (s : State) : Out :=
  gate (.cvti g d a f k) s (fun s c act =>
    let sl := slotOf (s.fmtOf c) f
    .ok (s.modCtx s.cur.ctx (fun c' => act.foldl (fun c' l =>
      let r := cvtiOf k sl.rtz (sl.sat || satHint (c.lane l).hints) (c.rdV a l)
      (c'.wrV d l r.1).setFlags r.2) c')))

/-- `PACK` (R141): bits moved without conversion. -/
def execPack (g : Guard) (d a f k : Nat) (s : State) : Out :=
  gate (.pack g d a f k) s (fun s c act =>
    let w := (slotOf (s.fmtOf c) f).fmt.width
    .ok (s.modCtx s.cur.ctx (fun c' => act.foldl (fun c' l =>
      c'.wrV d l (setElem (c.rdV d l) w k (elemOf (c.rdV a l) w 0))) c')))

/-- `UNPACK` (R141): the integer formats sign-extend. -/
def execUnpack (g : Guard) (d a f k : Nat) (s : State) : Out :=
  gate (.unpack g d a f k) s (fun s c act =>
    let sl := slotOf (s.fmtOf c) f
    let w := sl.fmt.width
    .ok (s.modCtx s.cur.ctx (fun c' => act.foldl (fun c' l =>
      let x := elemOf (c.rdV a l) w k
      c'.wrV d l (if sl.elem < 6 then BitVec.ofNat 32 x else BitVec.ofInt 32 (signedOf (2 ^ w) x))) c')))

/-- The smallest E3M5 code whose value is at least num / den, or 0xFF with SAT (R143). -/
def e3m5Ceil (num den : Nat) : Nat × BitVec 6 :=
  match (List.range 256).find? (fun b =>
    match readF .e3m5 b with
    | .fin _ m e => decide (num * fracDen e ≤ den * fracNum m e)
    | _ => false) with
  | some b => (b, 0)
  | none => (0xFF, fSAT)
/-- The larger of two magnitudes. -/
def maxAbs (a b : FVal) : FVal := if ltV a.abs b.abs then b.abs else a.abs
/-- The block scale of one lane's elements (R143). -/
def blockScale (F : Fmt) (xs : List FVal) : Nat × BitVec 6 :=
  match (xs.filter (fun v => !v.isNaN)).foldl maxAbs (.fin false 0 0) with
  | .inf _ => (0xFF, fSAT)
  | .fin _ m e =>
    if m = 0 then (0, 0)
    else match readF F F.maxCode with
      | .fin _ mm me => e3m5Ceil (fracNum m e * fracDen me) (fracDen e * fracNum mm me)
      | _ => (0, 0)
  | .nan => (0, 0)
/-- `QNTV` (R143). -/
def execQntv (g : Guard) (d a f k : Nat) (s : State) : Out :=
  gate (.qntv g d a f k) s (fun s c act =>
    let sl := slotOf (s.fmtOf c) f
    let W := sl.perReg
    let w := sl.fmt.width
    let one := fun (c' : Ctx) (l : Nat) =>
      let xs := (List.range W).map (fun j => f32 (c.rdV (a + j) l))
      let b := blockScale sl.fmt xs
      let rs := xs.map (fun x => roundQuot sl.fmt sl.rtz sl.sat x b.1)
      let v := (rs.foldl (fun (p : Nat × Nat) r => (p.1 + r.1 * 2 ^ p.2, p.2 + w)) (0, 0)).1
      ((c'.wrV d l (BitVec.ofNat 32 v)).setSByte (8 * k) l b.1).setFlags
        (rs.foldl (fun fl r => fl ||| r.2) b.2)
    .ok (s.modCtx s.cur.ctx (fun c' =>
      let c1 := (act.foldl one c').advGen (8 * k) false
      c1.bindV d (8 * k) (c1.sGen (8 * k)))))

/-- `DQNTV` (R141): the value of an element, read through the slot, as FP32. -/
def execDqntv (g : Guard) (d a f k : Nat) (s : State) : Out :=
  convLanes (.dqntv g d a f k) f a s (fun sl c l c' =>
    let q := elemOf (c.rdV a l) sl.fmt.width k
    let p := if sl.scale = 0 then (readF sl.fmt q, 0) else scaledVal sl.fmt q (c.vScale a l) none
    let r := asWord (roundArith .fp32 false p)
    (c'.wrV d l r.1).setFlags r.2)

/-- R124: the residue step.  Source, old residue and block entry (absent without a scale) give the
code, the new residue and the flags. -/
def residueStep (F : Fmt) (src res : Word) (block : Option Nat) : Nat × Word × BitVec 6 :=
  let t := roundArith .fp32 false (sumV [f32 src, f32 res])
  let tv := readF .fp32 t.1
  let zero := block.any (fun b => decide (b % 256 = 0))
  match tv with
  | .fin _ _ _ =>
    if zero then (0, BitVec.ofNat 32 t.1, t.2)
    else
      let y := match block with | some b => roundQuot F false true tv b | none => roundV F false true tv
      let yv := match block with | some b => (mulV (readF F y.1) (readF .e3m5 b)).1 | none => readF F y.1
      let e := roundArith .fp32 false (sumV [tv, yv.neg])
      (y.1, BitVec.ofNat 32 e.1, t.2 ||| y.2 ||| e.2)
  | v => if zero then (0, 0, t.2 ||| fNV) else
      let y := roundSpecial F true v
      (y.1, 0, t.2 ||| y.2)
/-- `CVTEF` (R141, R124). -/
def execCvtef (g : Guard) (d a f k : Nat) (s : State) : Out :=
  convLanes (.cvtef g d a f k) f d s (fun sl c l c' =>
    let r := residueStep sl.fmt (c.rdV a l) (c.rdE k l) (if sl.scale = 0 then none else some (c.vScale d l))
    ((c'.wrV d l (setElem (c.rdV d l) sl.fmt.width k r.1)).wrE k l r.2.1).setFlags r.2.2)

end Sys2Proof.Machine
end

