-- ==== Sys2Proof/Machine/Home.lean ====
section
/-! DEFINITION. What happens at a word's home: reduction slots (R180 to R185), shadow words (R186, R187), the
caches and the directory (R238, R240, R258), and what a release and an acquire do (R228, R238). -/

namespace Sys2Proof.Machine

/-! ### Reduction slots -/

/-- R178: an integer or bitwise operation on a word; `.fadd` has its own path. -/
def redInt (op : RedOp) (w c : Word) : Word :=
  match op with
  | .add => w + c
  | .min => if c.slt w then c else w
  | .max => if w.slt c then c else w
  | .and => w &&& c
  | .or => w ||| c
  | .xor => w ^^^ c
  | .minU => if c.ult w then c else w
  | .maxU => if w.ult c then c else w
  | .fadd => c
/-- The 320-bit fixed-point form of a finite FP32 value (R180). -/
def acc320 (v : FVal) : BitVec 320 := BitVec.ofInt 320 (scaledInt (-149) v)
/-- R181: a contribution to an open slot. -/
def RedSlot.add (x : RedSlot) (c : Word) : RedSlot :=
  match f32 c with
  | .nan => { x with nan := true }
  | .inf false => { x with pinf := true }
  | .inf true => { x with ninf := true }
  | v => { x with acc := x.acc + acc320 v, nz := x.nz && decide (c = 0x80000000) }
/-- R181: the slot that the opening of a word with a value gives. -/
def RedSlot.load (x : RedSlot) (v : Word) : RedSlot :=
  match f32 v with
  | .nan => { x with nan := true }
  | .inf false => { x with pinf := true }
  | .inf true => { x with ninf := true }
  | f => { x with acc := acc320 f, nz := decide (v = 0x80000000) }
/-- R182: the rounding of accumulated contents, to FP32. -/
def roundAcc (F : Fmt) (nan pinf ninf nz : Bool) (acc : BitVec 320) : Nat :=
  if nan || (pinf && ninf) then F.canonNaN
  else if pinf then F.infCode.getD 0
  else if ninf then F.infCode.getD 0 + F.signBit true
  else if acc = 0 then F.signBit nz
  else (roundV F false false (.fin (decide (acc.toInt < 0)) acc.toInt.natAbs (-149))).1
/-- R182: the rounding of a slot. -/
def RedSlot.round (x : RedSlot) : Word := BitVec.ofNat 32 (roundAcc .fp32 x.nan x.pinf x.ninf x.nz x.acc)

/-- The package and the unit that serve a word: site 0 to 7 the home unit of a die, 8 + n the near unit of
cluster n; a split cluster unit's words belong to the half that holds them (R175). -/
def State.unitSite (s : State) : Loc → Nat × Nat
  | .hbm k => (keyPkg k, homeDie (keyPa k))
  | .store u o =>
    let x := s.unit u
    (x.pkg, 8 + (if x.level = 2 ∧ x.split ∧ 2 ^ 22 ≤ o then x.site2 else x.site).clusNo)
  | _ => (0, 0)
/-- The word that holds a byte. -/
def Loc.word : Loc → Loc
  | .none => .none
  | .hbm k => .hbm (k / 4 * 4)
  | .host k => .host (k / 4 * 4)
  | .store u o => .store u (o / 4 * 4)
/-- The open slot of a word. -/
def State.slotAt (s : State) (l : Loc) : Option RedSlot :=
  (s.pkg (s.unitSite l).1).slots.find? (fun x => decide (x.loc = l))
/-- R183: a slot's rounding is written to its word and the slot is freed. -/
def State.releaseSlot (s : State) (p : Nat) (x : RedSlot) : State :=
  (s.wrWord x.loc x.round).modPkg p (fun q => { q with slots := q.slots.filter (fun y => decide (y.loc ≠ x.loc)) })
/-- R183: every slot on a word that a span of n bytes touches is released. -/
def State.releaseSpan (s : State) (l : Loc) (n : Nat) : State :=
  let p := (s.unitSite l).1
  if (s.pkg p).slots.isEmpty then s
  else (List.range (n / 4 + 2)).foldl (fun s i =>
    let w := (l.add (min (4 * i) (n - 1))).word
    match s.slotAt w with | some x => s.releaseSlot p x | none => s) s
/-- R183: every slot on a word of a unit's store is released. -/
def State.releaseStore (s : State) (u : Nat) : State :=
  let p := (s.unit u).pkg
  (s.pkg p).slots.foldl (fun s x => match x.loc with
    | .store v _ => if v = u then s.releaseSlot p x else s
    | _ => s) s
/-- The die whose HRUSTAT counts a unit's round-outs (R184). -/
def unitDie (site : Nat) : Nat := if site < 8 then site else (site - 8) / 64
/-- R184, R185: a round-out. -/
def State.roundOut (s : State) (p : Nat) (x : RedSlot) : State :=
  let off := 0x0400 + 8 * unitDie x.site
  (s.releaseSlot p x).modPkg p (fun q => q.setFld off 63 32 (min (q.fld off 63 32 + 1) (2 ^ 32 - 1)))
/-- The least recently contributed slot among some. -/
def oldestSlot (l : List RedSlot) : Option RedSlot :=
  l.foldl (fun b x =>
    match b with | none => some x | some y => if x.used < y.used then some x else b) none
/-- Slots of a unit that collective sums hold for an ASID, or for any (R185, R272). -/
def Package.pinned (q : Package) (site : Nat) (asid : Option Nat) : Nat :=
  ((q.pins.filter (fun x => decide (x.site = site) && (asid.isNone || decide (asid = some x.asid)))).map Pin.n).foldl (· + ·) 0
/-- The ASID that holds the most slots of a unit, pinned ones among them; ties to the lowest. -/
def Package.crowdedAsid (q : Package) (site : Nat) : Nat :=
  let here := q.slots.filter (fun x => decide (x.site = site))
  let asids := (here.map RedSlot.asid ++ (q.pins.filter (fun x => decide (x.site = site))).map Pin.asid).eraseDups
  (asids.foldl (fun (b : Nat × Nat) a =>
    let n := (here.filter (fun y => decide (y.asid = a))).length + q.pinned site (some a)
    if b.2 < n ∨ (n = b.2 ∧ a < b.1) then (a, n) else b) (0, 0)).1
/-- R185: HRUQ or NRUQ of a unit. -/
def Package.slotQuota (q : Package) (site : Nat) : Nat := if site < 8 then q.fld 0x0440 16 0 else q.fld 0x0440 44 32
/-- R180: the slots of a unit. -/
def slotCap (site : Nat) : Nat := if site < 8 then 65536 else 4096
/-- R185: room for a new slot of an ASID on a unit, beside `extra` that are being taken; none while no unpinned slot can
give way. -/
def State.slotRoom (s : State) (p site asid extra : Nat) : Option State :=
  let q := s.pkg p
  let here := q.slots.filter (fun x => decide (x.site = site))
  let mine := here.filter (fun x => decide (x.asid = asid))
  if q.slotQuota site ≤ mine.length + q.pinned site (some asid) + extra then (oldestSlot mine).map (s.roundOut p)
  else if slotCap site ≤ here.length + q.pinned site none + extra then
    (oldestSlot (here.filter (fun x => decide (x.asid = q.crowdedAsid site)))).map (s.roundOut p)
  else some s
/-- R185, R272: up to n slots of an ASID taken on a unit; how many there was room for. -/
def State.takeSlots (s : State) (p site asid : Nat) : Nat → Nat → State × Nat
  | 0, m => (s, m)
  | n + 1, m => match s.slotRoom p site asid m with
    | some s => State.takeSlots s p site asid n (m + 1)
    | none => (s, m)
/-- R181: the slot of a word, opened if need be; none while the open must wait (R185). -/
def State.openSlot (s : State) (l : Loc) (asid grid : Nat) : Option (State × RedSlot) :=
  match s.slotAt l with
  | some x => some (s, x)
  | none =>
    let (p, site) := s.unitSite l
    (s.slotRoom p site asid 0).map (fun s =>
      let x : RedSlot := { (default : RedSlot) with site := site, loc := l, asid := asid, grid := grid }
      (s, x.load (s.rdWord l)))
/-- A slot stored as its unit's most recently contributed one. -/
def State.keepSlot (s : State) (x : RedSlot) : State :=
  s.modPkg (s.unitSite x.loc).1 (fun q =>
    { q with slots := q.slots.filter (fun y => decide (y.loc ≠ x.loc)) ++ [{ x with used := q.slotClock }]
             slotClock := q.slotClock + 1 })

/-! ### Bytes on their way to their homes (R235, R238) -/

/-- Some bytes of a line of address k over others that begin at k0. -/
def overlayBytes (k0 : Nat) (base : List Byte) (k : Nat) (bs : List Byte) : List Byte :=
  base.zipIdx.map (fun e => let a := k0 + e.2; if k ≤ a ∧ a < k + bs.length then bs.getD (a - k) 0 else e.1)
/-- The writes that stand in caches which a core of a die reads, or a party of the die without a core: those in the die
cache, and after them those in the core's own. -/
def Package.earlyFor (q : Package) (die : Nat) (core : Option Nat) : List Early :=
  q.early.filter (fun e => decide (e.die = die) && e.onDie)
    ++ q.early.filter (fun e => decide (e.die = die) && !e.onDie && decide (core = some e.core))
/-- R235, R240: the line of a die cache whose invalidation is still on its way, at most 65,536 ticks long. -/
def State.lingering (s : State) (p die : Nat) : List (Nat × List Byte × Nat) :=
  (s.pkg p).dieLines.filterMap (fun y => if y.die ≠ die then none else y.old.bind (fun o =>
    if s.dieCount p { die := die } ≤ o.2 + 65536 then some (y.key, o) else none))
/-- n bytes of package memory as a party of a die reads them below its core's data cache. -/
def State.dieBytes (s : State) (p die : Nat) (core : Option Nat) (k n : Nat) : List Byte :=
  let base := s.rdBytes (.hbm k) n
  match (s.lingering p die).map (fun y => (64 * y.1, y.2.1)) ++ ((s.pkg p).earlyFor die core).map (fun e => (e.key, e.bytes)) with
  | [] => base
  | es => es.foldl (fun b e => overlayBytes k b e.1 e.2) base
/-- The write touches some of n bytes from a key on. -/
def Early.touches (e : Early) (k n : Nat) : Bool := decide (e.key < k + n) && decide (k < e.key + e.bytes.length)
/-- Writes that stand before pieces of a capture, which `own` picks, and touch them on the same die. -/
def aheadOf (own : Early → Bool) : List Early → List Early
  | [] => []
  | y :: r =>
    let rest := aheadOf own r
    if !own y && r.any (fun z => own z && decide (z.die = y.die) && y.touches z.key z.bytes.length) then y :: rest else rest
/-- The write belongs to a capture. -/
def Early.isOf (e : Early) (c id l : Nat) : Bool := decide (e.ctx = c) && decide (e.entry = id) && decide (e.lane = l)

/-! ### Caches and the directory -/

/-- A core data cache line, if the core holds it. -/
def Package.dline (p : Package) (core key : Nat) : Option DLine :=
  p.dlines.find? (fun x => decide (x.core = core) && decide (x.key = key))
/-- The words of a line with an open reduction slot. -/
def State.lineHoles (s : State) (key : Nat) : List Nat :=
  if (s.pkg (keyPkg (64 * key))).slots.isEmpty then []
  else (List.range 16).filter (fun j => (s.slotAt (.hbm (64 * key + 4 * j))).isSome)
/-- A 64-byte line as the caches below a core's data cache give it. -/
def State.lineFor (s : State) (p core key : Nat) : List Byte := s.dieBytes p (core / 256) (some core) (64 * key) 64
/-- R14, R20: the lines that the cache of a die holds at most, die 8 being the mast cache. -/
def Package.dieCap (p : Package) (d : Nat) : Nat := if d = 8 then 2 ^ 19 else p.carveMiB * 2 ^ 14
/-- R258: a die no longer holds a line. -/
def State.dieDrop (s : State) (p d key : Nat) : State :=
  let s := s.modPkg p (fun q => { q with dieLines := q.dieLines.filter (fun y => !(decide (y.die = d) && decide (y.key = key))) })
  s.modPkg (keyPkg (64 * key)) (fun q =>
    let cut := fun (e : DirEntry) => if e.key = key then { e with sharers := e.sharers.filter (fun x => decide (x ≠ p * 16 + d)) } else e
    { q with dir := (q.dir.map cut).filter (fun e => e.broadcast || !e.sharers.isEmpty) })
/-- R258: a line's home registers a sharer; a fifth one sets broadcast mode. -/
def State.register (s : State) (me key : Nat) : State :=
  s.modPkg (keyPkg (64 * key)) (fun q =>
    match q.dir.find? (fun e => decide (e.key = key)) with
    | none => { q with dir := q.dir ++ [{ key := key, sharers := [me], broadcast := false }] }
    | some _ => { q with dir := q.dir.map (fun e =>
        if e.key ≠ key ∨ e.broadcast ∨ e.sharers.contains me then e
        else if e.sharers.length < 4 then { e with sharers := e.sharers ++ [me] }
        else { e with broadcast := true }) })
/-- R14, R258: a line passes through a die's cache, which holds it from then on; the line that has stood longest in a
full cache makes room. -/
def State.dieFill (s : State) (p : Nat) (x : Site) (key : Nat) : State :=
  let d := x.walkDie
  let q := s.pkg p
  let mine := q.dieLines.filter (fun y => decide (y.die = d))
  if q.dieCap d = 0 ∨ mine.any (fun y => decide (y.key = key)) then s
  else
    let s := if mine.length < q.dieCap d then s else match mine with | y :: _ => s.dieDrop p d y.key | [] => s
    (s.modPkg p (fun q => { q with dieLines := q.dieLines ++ [{ die := d, key := key }] })).register (p * 16 + d) key
/-- R235: the invalidations that are still on their way to the die caches arrive, where a test picks the line. -/
def State.thaw (s : State) (f : Nat → DieLine → Bool) : State :=
  s.pkgs.foldl (fun s e => (e.2.dieLines.filter (fun y => y.old.isSome && f e.1 y)).foldl (fun s y => s.dieDrop e.1 y.die y.key) s) s
/-- R235: the invalidations still on their way are those of writes that a release at L4 has ordered. -/
def State.orderLate (s : State) : State :=
  { s with pkgs := mapVals s.pkgs (fun _ (q : Package) =>
      if q.dieLines.isEmpty then q else { q with dieLines := q.dieLines.map (fun y => { y with due := y.old.isSome }) }) }
/-- R235: the invalidations that writes at a line's home will send to a die's cache take their time from now on: the die goes
on reading what its cache holds. -/
def State.linger (s : State) (p die key : Nat) : State :=
  if die < 8 ∧ (s.pkg p).dieLines.any (fun y => decide (y.die = die) && decide (y.key = key) && y.old.isNone) = true
      ∧ (s.pkg p).early.any (fun e => decide (e.die = die) && e.touches (64 * key) 64) = false ∧ s.lineHoles key = [] then
    let now := (s.dieBytes p die none (64 * key) 64, s.dieCount p { die := die })
    s.modPkg p (fun q => { q with dieLines := q.dieLines.map (fun y => if y.die = die ∧ y.key = key then { y with old := some now } else y) })
  else s
/-- R258: a write at the home invalidates every copy of its line but the writer's, by the directory's pointers or, in
broadcast mode, everywhere.  A line that lingers stays registered. -/
def State.dirWrite (s : State) (me : Option Nat) (key : Nat) : State :=
  let home := keyPkg (64 * key)
  match (s.pkg home).dir.find? (fun e => decide (e.key = key)) with
  | none => s
  | some e =>
    let stays := fun (p : Nat) (y : DieLine) => decide (me = some (p * 16 + y.die)) || y.old.isSome
    let s := { s with pkgs := mapVals s.pkgs (fun p (q : Package) =>
      if q.dieLines.isEmpty then q
      else { q with dieLines := q.dieLines.filter (fun y =>
        decide (y.key ≠ key) || stays p y || !(e.broadcast || e.sharers.contains (p * 16 + y.die))) }) }
    let left := e.sharers.filter (fun x => (s.pkg (x / 16)).dieLines.any (fun y => decide (y.die = x % 16) && decide (y.key = key)))
    let mine := match me with
      | some x => if e.sharers.contains x then [] else
          if (s.pkg (x / 16)).dieLines.any (fun y => decide (y.die = x % 16) && decide (y.key = key)) then [x] else []
      | none => []
    s.modPkg home (fun q =>
      { q with dir := if (left ++ mine).isEmpty then q.dir.filter (fun y => decide (y.key ≠ key))
                      else q.dir.map (fun y => if y.key = key then { y with sharers := left ++ mine } else y) })
/-- R20: reservations of application cores on a line that is written end. -/
def breakResv (key : Nat) (l : Sparse Hart) : Sparse Hart :=
  mapVals l (fun _ (h : Hart) => if h.resv = some key then { h with resv := none } else h)
/-- R238: the core data caches after a line was written at its home.  The writing core's copy is brought up to
date and counts as written; another core's copy stays as it is and is owned by no scope any more. -/
def State.dcacheWrite (s : State) (src : Option (Nat × Nat)) (key : Nat) : State :=
  { s with pkgs := mapVals s.pkgs (fun p (q : Package) =>
      if q.dlines.isEmpty && q.harts.isEmpty then q else
        { q with harts := breakResv key q.harts, dlines := q.dlines.map (fun x =>
            if x.key ≠ key then x
            else if src = some (p, x.core) then { x with data := s.lineFor p x.core key, written := true, holes := s.lineHoles key }
            else { x with written := false, own := [] }) }) }
/-- A contribution has reached a word: no core data cache holds the word any more, and no die cache an older copy of its
line (R183, R188). -/
def State.dcacheHole (s : State) (l : Loc) : State :=
  match l with
  | .hbm k =>
    let s := s.thaw (fun _ y => decide (y.key = k / 64))
    { s with pkgs := mapVals s.pkgs (fun _ (q : Package) =>
      if q.dlines.isEmpty then q else
        { q with dlines := q.dlines.map (fun x =>
            if x.key ≠ k / 64 ∨ x.holes.contains (k % 64 / 4) then x else { x with holes := x.holes ++ [k % 64 / 4] }) }) }
  | _ => s
/-- The line keys that n bytes from a key touch. -/
def lineKeys (k n : Nat) : List Nat := (List.range ((k + n - 1) / 64 + 1 - k / 64)).map (fun i => k / 64 + i)

/-! ### Where a request may go (R22, R259, R260) -/

/-- R259: the logical plane of a fabric request to a home address of its target. -/
def logicalPlane (pa : Nat) : Nat := (pa / 2 ^ 8 % 8) ^^^ (pa / 2 ^ 11 % 8)
/-- R259, R260: the logical plane's requests enter the fabric: it does not drain, and its physical plane is not dead. -/
def Package.planeOpen (q : Package) (i : Nat) : Bool :=
  decide (q.fld 0x0508 (32 + i) (32 + i) = 0) && decide (q.fld 0x0508 (40 + q.fld 0x0500 (3 * i + 2) (3 * i)) (40 + q.fld 0x0500 (3 * i + 2) (3 * i)) = 0)
/-- R22, R259: a package reaches n bytes of storage, over the planes that carry their lines where they lie in another. -/
def State.carries (s : State) (p : Nat) (l : Loc) (n : Nat) : Bool :=
  match l with
  | .hbm k => decide (keyPkg k = p) || (lineKeys k n).all (fun key => (s.pkg p).planeOpen (logicalPlane (keyPa (64 * key))))
  | _ => true

/-! ### Accesses at the home -/

/-- Bytes written at their home (R235): open slots on their words are released first (R183).  `me` is the sharer whose
cache the write passed through; only the invalidations of a plain store may linger (R235). -/
def State.writeHome (plain : Bool) (s : State) (src : Option (Nat × Nat)) (me : Option Nat) (l : Loc) (bs : List Byte) : State :=
  match l with
  | .hbm k =>
    if bs.isEmpty then s
    else
      let keys := lineKeys k bs.length
      let s := s.thaw (fun p y => keys.contains y.key && (!plain || decide (me = some (p * 16 + y.die))))
      keys.foldl (fun s key => (s.dcacheWrite src key).dirWrite me key) ((s.releaseSpan l bs.length).wrBytes l bs)
  | _ => (s.releaseSpan l bs.length).wrBytes l bs
/-- A write at the home that is no plain store. -/
def State.homeWrite (s : State) (src : Option (Nat × Nat)) (me : Option Nat) (l : Loc) (bs : List Byte) : State :=
  s.writeHome false src me l bs
/-- Bytes read at their home, after the release of open slots (R183). -/
def State.homeRead (s : State) (l : Loc) (n : Nat) : State × List Byte :=
  let s := s.releaseSpan l n
  (s, s.rdBytes l n)
/-- A contribution applied at a word's home or near unit (R178, R181); none while it must wait (R185). -/
def State.contribute (s : State) (l : Loc) (op : RedOp) (c : Word) (asid grid : Nat) : Option State :=
  if op = .fadd then (s.openSlot l asid grid).map (fun r => (r.1.keepSlot (r.2.add c)).dcacheHole l)
  else
    let s := s.releaseSpan l 4
    some ((s.homeWrite none none l (bytesOfNat 4 (redInt op (s.rdWord l) c).toNat)).dcacheHole l)

/-! ### Writes that reach their homes -/

/-- Some of the writes that stand in a package's caches reach their homes, in their order. -/
def State.drainEarly (s : State) (p : Nat) (f : Early → Bool) : State :=
  ((s.pkg p).early.filter f).foldl (fun s e =>
    let s := s.modPkg p (fun q => { q with early := q.early.erase e })
    s.writeHome true (some (p, e.core)) (some (p * 16 + e.die)) (.hbm e.key) e.bytes) s
/-- R238: some of the writes that stand in core data caches of a die are written in the die cache, or at their homes where
the die has no cache.  What stands in a die cache goes before what stands in a core's, which is written over it (R208). -/
def State.toDie (s : State) (p die : Nat) (f : Early → Bool) : State :=
  let mine := fun (e : Early) => decide (e.die = die) && !e.onDie && f e
  if (s.pkg p).carveMiB = 0 then s.drainEarly p mine
  else
    let es := (s.pkg p).early.filter mine
    let keys := es.flatMap (fun e => lineKeys e.key e.bytes.length)
    let s := s.thaw (fun q y => decide (q = p) && decide (y.die = die) && keys.contains y.key)
    s.modPkg p (fun q => { q with
      early := q.early.filter Early.onDie ++ es.map (fun e => { e with onDie := true }) ++ q.early.filter (fun e => !e.onDie && !mine e)
      dlines := q.dlines.map (fun y => if keys.contains y.key ∧ y.core / 256 = die ∧ es.all (fun e => decide (e.core ≠ y.core))
        then { y with written := false, own := [] } else y) })
/-- The writes of a die that touch a span reach their home before an access of a party of the die that is made there. -/
def State.drainSpan (s : State) (p : Nat) (x : Site) (l : Loc) (n : Nat) : State :=
  match l with
  | .hbm k => if x.mast || (s.pkg p).early.isEmpty then s else s.drainEarly p (fun e => decide (e.die = x.die) && e.touches k n)
  | _ => s

/-! ### Shadow words (R186, R187) -/

/-- R187: a shadow word is merged into its home and emptied, after the writes of its die that touch it have reached the home;
it stays while its contribution must wait (R185) or such a write is held (R19). -/
def State.mergeShadow (s : State) (p : Nat) (x : ShadowWord) : State :=
  let old := fun (e : Early) => decide (e.die = x.die) && e.touches x.key 4
  if (s.pkg p).early.any (fun e => old e && !e.onDie) && !s.clockRuns p { die := x.die } then s
  else match (if (s.pkg p).early.isEmpty then s else s.drainEarly p old).contribute (.hbm x.key) x.op x.val x.asid x.grid with
  | none => s
  | some s => s.modPkg p (fun q => { q with shadows := q.shadows.filter (fun y => decide (y ≠ x)) })
/-- Every shadow word of a package that a test picks is merged. -/
def State.mergeShadows (s : State) (p : Nat) (f : ShadowWord → Bool) : State :=
  ((s.pkg p).shadows.filter f).foldl (fun s x => s.mergeShadow p x) s
/-- R185, R187: the shadow words that a test picks can all be merged now; what needs the merge waits until they can. -/
def State.mergeable (s : State) (p : Nat) (f : ShadowWord → Bool) : Bool :=
  !(s.pkg p).shadows.any f || !((s.mergeShadows p f).pkg p).shadows.any f
/-- The shadow words of a party's die that a span touches. -/
def ShadowWord.within (y : ShadowWord) (x : Site) (k n : Nat) : Bool :=
  decide (y.die = x.die) && decide (y.key < k + n) && decide (k < y.key + 4)
/-- R187: an access by a party of a die merges the shadow words that it touches. -/
def State.mergeSpan (s : State) (p : Nat) (x : Site) (l : Loc) (n : Nat) : State :=
  match l with
  | .hbm k => if x.mast || (s.pkg p).shadows.isEmpty then s else
      s.mergeShadows p (fun y => y.within x k n)
  | _ => s
/-- R185, R187: accesses by a party to some storage need not wait for the merge of a shadow word that they touch. -/
def State.spansFree (s : State) (p : Nat) (x : Site) (l : List (Loc × Nat)) : Bool :=
  x.mast || (s.pkg p).shadows.isEmpty ||
    let t := l.foldl (fun s y => s.mergeSpan p x y.1 y.2) s
    l.all (fun y => match y.1 with | .hbm k => !(t.pkg p).shadows.any (fun z => z.within x k y.2) | _ => true)
/-- R186: a contribution to a shadow line; none while a word of another operation there must wait for its merge (R185).  A word
to which grids of one ASID contribute is its last contributor's (log 72). -/
def State.shadowAdd (s : State) (p die key asid grid : Nat) (op : RedOp) (c : Word) : Option State :=
  let here := fun (x : ShadowWord) => decide (x.die = die) && decide (x.key = key) && decide (x.asid = asid)
  let s := match (s.pkg p).shadows.find? here with | some x => if x.op = op then s else s.mergeShadow p x | none => s
  let put := fun (v : Word) => some (s.modPkg p (fun q =>
    { q with shadows := q.shadows.filter (fun x => !here x) ++ [{ die := die, key := key, asid := asid, grid := grid, op := op, val := v }] }))
  match (s.pkg p).shadows.find? here with
  | none => put c
  | some x =>
    if x.op ≠ op then none
    else put (if op = .fadd then BitVec.ofNat 32 (roundArith .fp32 false (sumV [f32 x.val, f32 c])).1 else redInt op x.val c)

/-! ### Accesses of a context -/

/-- The core whose data cache a context uses, if it has one (R296: a sequencer uses its own site's caches). -/
def State.coreOf (s : State) (c : Ctx) : Option (Nat × Nat) :=
  if c.site.mast ∨ (c.kind = .seq ∧ s.ctxLevel c ≠ 1) then none else some (c.pkg, c.site.loc)
/-- The sharer number of a context's die (R258). -/
def Ctx.sharer (c : Ctx) : Nat := c.pkg * 16 + c.site.walkDie
/-- A core data cache drops a line. -/
def State.dropKey (s : State) (p core key : Nat) : State :=
  s.modPkg p (fun q => { q with dlines := q.dlines.filter (fun x => !(decide (x.core = core) && decide (x.key = key))) })
/-- R15: the 64-byte lines of a core data cache of 128 KiB. -/
def coreLines : Nat := 2048
/-- R93: the line that makes room in a core data cache: the one filled first, of those not retained where there is one. -/
def Package.victim (q : Package) (core : Nat) : Option Nat :=
  let mine := q.dlines.filter (fun x => decide (x.core = core))
  ((mine.find? (fun x => !x.keep)).or mine.head?).map DLine.key
/-- A line filled into a core's data cache: it holds the words that have no open slot. -/
def State.fillLine (s : State) (p core key : Nat) : State :=
  let s := s.dropKey p core key
  let q := s.pkg p
  let s := if (q.dlines.filter (fun x => decide (x.core = core))).length < coreLines then s
    else match q.victim core with | some v => s.dropKey p core v | none => s
  let since := match (s.lingering p (core / 256)).find? (fun y => decide (y.1 = key)) with
    | some y => y.2.2
    | none => s.dieCount p (siteOfLoc core)
  s.modPkg p (fun q => { q with dlines := q.dlines ++
    [{ core := core, key := key, fill := since, data := s.lineFor p core key, holes := s.lineHoles key }] })
/-- R240: the line of a core that a read of bytes [lo, hi) of it hits: it holds the words, and where no scope owns it, it
has stood for at most 65,536 ticks. -/
def State.dhit (s : State) (p core key lo hi : Nat) : Option DLine :=
  match (s.pkg p).dline core key with
  | none => none
  | some x =>
    if x.holes.any (fun j => decide (64 * key + 4 * j < hi) && decide (lo < 64 * key + 4 * j + 4))
      || (x.own.isEmpty && decide (x.fill + 65536 < s.dieCount p (siteOfLoc core))) then none else some x
/-- n bytes read by a context at a place; nc leaves the core data cache out (R325 PBMT 1, R93), which then holds no
older copy of them either. -/
def State.ctxRead (s : State) (c : Ctx) (l : Loc) (n : Nat) (nc : Bool) : State × List Byte :=
  let s := s.mergeSpan c.pkg c.site l n
  match l, s.coreOf c with
  | .hbm k, some (p, core) =>
    if nc then
      let s := ((lineKeys k n).foldl (fun s key => s.dropKey p core key) s).releaseSpan l n
      let s := (lineKeys k n).foldl (fun s key => s.dieFill p c.site key) s
      (s, s.dieBytes p c.site.die (some core) k n)
    else
      let step := fun (r : State × List Byte) (key : Nat) =>
        let s := r.1
        let lo := max k (64 * key)
        let hi := min (k + n) (64 * key + 64)
        match s.dhit p core key lo hi with
        | some x => (s, r.2 ++ (x.data.drop (lo - 64 * key)).take (hi - lo))
        | none =>
          let s := ((s.releaseSpan (.hbm lo) (hi - lo)).dieFill p c.site key).fillLine p core key
          (s, r.2 ++ s.dieBytes p c.site.die (some core) lo (hi - lo))
      (lineKeys k n).foldl step (s, [])
  | .hbm k, none =>
    let s := (lineKeys k n).foldl (fun s key => s.dieFill c.pkg c.site key) (s.releaseSpan l n)
    (s, if c.site.mast then s.rdBytes l n else s.dieBytes c.pkg c.site.die none k n)
  | _, _ => s.homeRead l n
/-- R258: the lines of a write to another package pass through the writer's die cache. -/
def State.peerFill (s : State) (p : Nat) (x : Site) (l : Loc) (n : Nat) : State :=
  match l with
  | .hbm k => if keyPkg k = p then s else (lineKeys k n).foldl (fun s key => s.dieFill p x key) s
  | _ => s
/-- Bytes written by a context at a place, by a plain store or another. -/
def State.ctxWrite (plain : Bool) (s : State) (c : Ctx) (l : Loc) (bs : List Byte) : State :=
  ((s.mergeSpan c.pkg c.site l bs.length).peerFill c.pkg c.site l bs.length).writeHome plain (s.coreOf c) (some c.sharer) l bs
/-- Before an access of a context is made at a word's home: the shadow words and the writes of its die that touch it
reach the home, and the die's caches hold no older copy of it. -/
def State.toHome (s : State) (c : Ctx) (l : Loc) (n : Nat) : State :=
  let s := (s.mergeSpan c.pkg c.site l n).drainSpan c.pkg c.site l n
  match l with
  | .hbm k => s.thaw (fun p y => decide (p = c.pkg) && decide (y.die = c.site.walkDie) && (lineKeys k n).contains y.key)
  | _ => s
/-- R235: before a load that acquires at L4 or L5, the writes of its die that touch it reach the home, and its die's cache
holds no copy that a release has put behind. -/
def State.toAcquire (s : State) (c : Ctx) (l : Loc) (n : Nat) : State :=
  let s := s.drainSpan c.pkg c.site l n
  match l with
  | .hbm k => s.thaw (fun p y => decide (p = c.pkg) && decide (y.die = c.site.walkDie) && y.due && (lineKeys k n).contains y.key)
  | _ => s
/-- R220: an atomic is performed at the home; the core's own copy of its line is dropped. -/
def State.dropLine (s : State) (c : Ctx) (l : Loc) : State :=
  match l, s.coreOf c with
  | .hbm k, some (p, core) => s.dropKey p core (k / 64)
  | _, _ => s

/-! ### Releases and acquires (R228, R238) -/

/-- The context's cluster unit is split, so that its L2 scope is kept at the home (R238). -/
def State.splitScope (s : State) (c : Ctx) : Bool :=
  match s.ownUnit c 2 with | some u => (s.unit u).split | none => false
/-- R238: how far a release at a scope needs the writes that it orders to have come: 1 the core data cache, 2 the die
cache, 3 the home. -/
def State.reach (s : State) (c : Ctx) (k : Nat) : Nat :=
  if k ≤ 1 then 1 else if (k = 2 ∧ ¬ s.splitScope c) ∨ k = 3 then 2 else 3
/-- R226, R235: a release that reaches the home waits for the invalidations of its scope: those of its package, and at L5
those of every package. -/
def State.acknowledge (s : State) (p k : Nat) : State :=
  (s.thaw (fun q _ => decide (5 ≤ k) || decide (q = p))).orderLate
/-- R185, R19, R22: a release at a scope need not wait: the shadow words that it merges can be merged, and the writes of others
that it brings to their homes can travel. -/
def State.mayRelease (s : State) (c : Ctx) (k : Nat) : Bool :=
  c.site.mast
    || ((decide (k < 4) || s.mergeable c.pkg (fun x => decide (x.die = c.site.die) && decide (x.asid = c.asid)))
      && (s.pkg c.pkg).early.all (fun e => decide (e.die ≠ c.site.die) || s.carries c.pkg (.hbm e.key) e.bytes.length
          || !(decide (s.reach c k = 3) || (decide (s.reach c k = 2) && decide ((s.pkg c.pkg).carveMiB = 0)
            && decide ((s.coreOf c).map (·.2) = some e.core)))))
/-- R187, R238: what a release at a scope does once the lane's own writes have come as far as it needs: the writes of others
in the caches that it shares, which may be ordered before it, come as far; shadow words of the party's ASID on its die merge
at L4 and L5; and the written lines become owned by the scope. -/
def State.release (s : State) (c : Ctx) (k : Nat) : State :=
  let s := if 4 ≤ k ∧ ¬ c.site.mast then
      s.mergeShadows c.pkg (fun x => decide (x.die = c.site.die) && decide (x.asid = c.asid)) else s
  let s :=
    if c.site.mast then s
    else if s.reach c k = 3 then s.drainEarly c.pkg (fun e => decide (e.die = c.site.die))
    else if s.reach c k = 2 then s.toDie c.pkg c.site.die (fun e => decide ((s.coreOf c).map (·.2) = some e.core)) else s
  let s := if s.reach c k = 3 then s.acknowledge c.pkg k else s
  match s.coreOf c with
  | none => s
  | some (p, core) =>
    if s.reach c k < 3 then
      s.modPkg p (fun q => { q with dlines := q.dlines.map (fun x =>
        if x.core = core ∧ x.written ∧ x.own.contains k = false then { x with own := x.own ++ [k] } else x) })
    else s
/-- R238: what an acquire at a scope invalidates: lines of the acquiring core's data cache, and at L4 and L5 the lines of
the die cache that their homes have not registered to the die. -/
def State.acquire (s : State) (c : Ctx) (k : Nat) : State :=
  let s := match s.coreOf c with
    | none => s
    | some (p, core) =>
      if k < 2 then s
      else s.modPkg p (fun q => { q with dlines := q.dlines.filter (fun x =>
        decide (x.core ≠ core) || (decide (s.reach c k = 2) && x.own.contains k)) })
  if k < 4 then s
  else
    let d := c.site.walkDie
    s.modPkg c.pkg (fun q => { q with dieLines := q.dieLines.filter (fun y =>
      decide (y.die ≠ d) || (s.pkg (keyPkg (64 * y.key))).dir.any (fun e =>
        decide (e.key = y.key) && (e.broadcast || e.sharers.contains c.sharer))) })

end Sys2Proof.Machine
end

