-- ==== Sys2Proof/Machine/Translate.lean ====
section
/-! DEFINITION. Address translation: the ASID table, page-table walks, the translation caches and their
generations, and the fault records on which accesses park (R323 to R337). -/

namespace Sys2Proof.Machine

/-- The kind of an access (R104). -/
inductive AccKind | read | write | atomic | fetch
  deriving DecidableEq, Repr, Inhabited
/-- ACC of R337. -/
def AccKind.code : AccKind → Nat | .read => 0 | .write => 1 | .atomic => 2 | .fetch => 3

/-- What a translation gives: a place and its PBMT, a fault that parks (KIND of R337 and the entry at which
the walk stopped), the access fault, or the fetch fault (R335). -/
inductive XRes
  | ok (l : Loc) (pbmt : Nat)
  | park (kind : Nat) (pte : DWord)
  | access
  | fetchFault
  deriving DecidableEq, Repr, Inhabited

/-! ### Page-table entries (R325 to R328) -/

/-- The physical page number of an entry. -/
def ptePpn (e : DWord) : Nat := bits e 53 10
/-- A pointer to the next level. -/
def ptePtr (e : DWord) : Bool := decide (bits e 3 1 = 0)
/-- R326: an entry with V = 1 read at a level ends the walk in a walk fault. -/
def pteBad (e : DWord) (level : Nat) : Bool :=
  decide (bits e 63 63 = 1) || decide (bits e 62 61 = 3) || decide (bits e 55 54 ≠ 0)
    || (decide (bits e 2 2 = 1) && decide (bits e 1 1 = 0))
    || (if ptePtr e then
          decide (level = 0) || decide (bits e 63 54 ≠ 0) || decide (bits e 7 6 ≠ 0) || decide (bits e 4 4 ≠ 0)
        else
          decide (3 ≤ level) || decide (ptePpn e % 2 ^ (9 * level) ≠ 0) || decide (4 ≤ bits e 60 58))
/-- R328: the permission that an access kind needs. -/
def ptePerm (e : DWord) (k : AccKind) : Bool :=
  match k with
  | .read => decide (bits e 1 1 = 1)
  | .write | .atomic => decide (bits e 1 1 = 1) && decide (bits e 2 2 = 1)
  | .fetch => decide (bits e 3 3 = 1)
/-- R327: the place that a leaf and an offset within its page give; none is the access fault. -/
def State.aperture (s : State) (p : Nat) (e : DWord) (pa : Nat) (k : AccKind) : Option Loc :=
  match bits e 60 58 with
  | 0 => if hbmEnd ≤ pa ∨ bits e 62 61 = 2 then none else some (.hbm (hbmKey p pa))
  | 1 =>
    let q := pa / 2 ^ 40 % 1024
    if pa / 2 ^ 50 ≠ 0 ∨ ¬ s.podMember p q ∨ bits e 62 61 = 2 ∨ hbmEnd ≤ pa % 2 ^ 40 then none
    else some (.hbm (hbmKey q pa))
  | 2 => if k = .atomic then none else some (.host (p * 2 ^ 56 + pa % 2 ^ 56))
  | _ => if bits e 53 44 ≠ 0 ∨ bits e 62 61 = 2 then none else some .none
/-- R328, R335: what a valid leaf gives an access, in the order of R335. -/
def State.judge (s : State) (p : Nat) (e : DWord) (pa : Nat) (k : AccKind) (eng : Bool) : XRes :=
  let ap := bits e 60 58
  if bits e 4 4 = 0 ∨ ¬ ptePerm e k then .park 2 e
  else if bits e 6 6 = 0 ∨ ((k = .write ∨ k = .atomic) ∧ bits e 7 7 = 0) then .park 3 e
  else match s.aperture p e pa k with
  | none => .access
  | some l =>
    if k = .fetch ∧ (ap = 1 ∨ ap = 2) then .fetchFault
    else if k = .atomic ∧ ap = 1 ∧ bits e 57 57 = 0 then .park 5 e
    else if eng ∧ bits e 56 56 = 0 then .park 6 e
    else if ap = 3 then .park 7 e
    else .ok l (bits e 62 61)

/-! ### The ASID table and the caches (R323, R324, R330) -/

/-- A 64-bit word as its home gives it to an access: open slots on it would be released first (R183). -/
def State.homeDWord (s : State) (l : Loc) : DWord := BitVec.ofNat 64 (natOfBytes (s.homeRead l 8).2)
/-- The place of an ASID's entry in the ASID table (R324). -/
def State.asidPlace (s : State) (p asid : Nat) : Loc := .hbm (hbmKey p ((s.pkg p).fld 0x0600 51 20 * 2 ^ 20 + 16 * asid))
/-- The ASID-table entry of an ASID: its low and its high 64 bits (R324). -/
def State.asidEntry (s : State) (p asid : Nat) : DWord × DWord :=
  let l := s.asidPlace p asid
  (s.homeDWord l, s.homeDWord (l.add 8))
/-- R324: the entry is valid. -/
def asidEntryOk (e : DWord × DWord) : Bool :=
  decide (bits e.1 63 60 = 10) && decide (bits e.1 59 44 = 0) && decide (bits e.2 63 57 = 0)
/-- The current generation of an ASID (R331). -/
def Package.gen (p : Package) (asid : Nat) : Nat := Sparse.get 0 p.asidGen asid
/-- The TLBs that serve a site, nearest first (R330). -/
def Site.tlbs (x : Site) (k : CtxKind) (level : Nat) : List Nat :=
  if x.mast then []
  else if k ≠ .seq ∨ level = 1 then [x.loc, 4096 + x.clusNo]
  else if level = 2 then [4096 + x.clusNo] else []
/-- R330: a TLB entry matches an access. -/
def Package.tlbMatch (p : Package) (t : TlbEntry) (asid va : Nat) : Bool :=
  decide (va / 2 ^ t.bits = t.va / 2 ^ t.bits) && decide (t.gen = p.gen t.asid)
    && (decide (t.asid = asid) || decide (bits t.pte 5 5 = 1))

/-- A pointer entry that a walk passes: its level, the address prefix that it maps, the page that it names and G = 1. -/
structure WalkPtr where
  level : Nat
  va : Nat
  ppn : Nat
  glob : Bool := false
  deriving DecidableEq, Repr, Inhabited
/-- The outcome of a walk: the entry at which it stopped and the level, or a walk fault, and the pointers it
passed, as walk-cache entries. -/
inductive Walk
  | leaf (e : DWord) (level : Nat) (ptrs : List WalkPtr)
  | fault (kind : Nat) (e : DWord)
  deriving DecidableEq, Repr, Inhabited
/-- R326: the walk from the table of a level at a page. -/
def State.walkFrom (s : State) (p va : Nat) : Nat → Nat → List WalkPtr → Walk
  | level, ppn, acc =>
    let a := ppn * 4096 + 8 * (va / 2 ^ (12 + 9 * level) % 512)
    if hbmEnd ≤ a then .fault 4 0
    else
      let e := s.homeDWord (.hbm (hbmKey p a))
      if bits e 0 0 = 0 then .fault 1 e
      else if pteBad e level then .fault 4 e
      else if ptePtr e then
        match level with
        | 0 => .fault 4 e
        | l + 1 => State.walkFrom s p va l (ptePpn e) 
          ({ level := level, va := va / 2 ^ (12 + 9 * level), ppn := ptePpn e, glob := decide (bits e 5 5 = 1) } :: acc)
      else .leaf e level acc
/-- The walk-cache entry from which a walk of an ASID starts. -/
def Package.walkFirst (p : Package) (die asid va : Nat) : Option WalkEntry :=
  let hits := p.walks.filter (fun w => decide (w.die = die) && decide (w.asid = asid)
    && decide (w.gen = p.gen asid) && (decide (w.level = 5) || decide (w.va = va / 2 ^ (12 + 9 * w.level))))
  (hits.foldl (fun (b : Option WalkEntry) w =>
    match b with | none => some w | some x => if w.level < x.level then some w else b) none)
/-- Where it starts: the level of the table that the entry names, and the table's page. -/
def Package.walkStart (p : Package) (die asid va : Nat) : Option (Nat × Nat) :=
  (p.walkFirst die asid va).map (fun w => (w.level - 1, w.ppn))
/-- R326: a walk of an address under an ASID. -/
def State.walk (s : State) (p die asid va : Nat) : Walk :=
  match (s.pkg p).walkStart die asid va with
  | some (level, ppn) => s.walkFrom p va level ppn []
  | none =>
    let e := s.asidEntry p asid
    if asidEntryOk e then s.walkFrom p va 4 (bits e.1 43 0) [{ level := 5, va := 0, ppn := bits e.1 43 0 }] else .fault 4 0
/-- A TLB with an entry added; the oldest entry of a full one gives way (R330: 128 and 2,048 entries). -/
def addTlb (ts : List TlbEntry) (t : TlbEntry) : List TlbEntry :=
  let cap := if t.site < 4096 then 128 else 2048
  let mine := ts.filter (fun x => decide (x.site = t.site))
  if mine.length < cap then ts ++ [t]
  else match mine with
    | [] => ts ++ [t]
    | o :: _ => ts.erase o ++ [t]
/-- Caches filled by a walk that granted its access (R329). -/
def Package.fill (p : Package) (sites : List Nat) (die asid va : Nat) (e : DWord) (level : Nat)
    (ptrs : List WalkPtr) : Package :=
  let b := 12 + 9 * level
  let ts := sites.foldl (fun ts x =>
    addTlb ts { site := x, asid := asid, gen := p.gen asid, va := va / 2 ^ b * 2 ^ b, bits := b, pte := e }) p.tlbs
  let ws := ptrs.foldl (fun ws (q : WalkPtr) =>
    let w : WalkEntry := { die := die, asid := asid, gen := p.gen asid, level := q.level, va := q.va, ppn := q.ppn, glob := q.glob }
    if ws.contains w then ws else ws ++ [w]) p.walks
  { p with tlbs := ts, walks := ws }

/-- Who makes an access: its package, site, TLBs and ASID, and whether it is an engine's. -/
structure Party where
  pkg : Nat
  site : Site
  tlbs : List Nat
  asid : Nat
  eng : Bool
  /-- SRC of R337 -/
  src : Nat
  /-- the die whose walker serves the party, where that is not its site's -/
  walker : Option Nat := none
  deriving DecidableEq, Repr, Inhabited
/-- The die whose walk cache a party uses. -/
def Party.walkDie (y : Party) : Nat := y.walker.getD y.site.walkDie
/-- The party that a context is (R375: a handler accesses memory under HASID). -/
def State.partyOf (s : State) (c : Ctx) (eng : Bool) : Party :=
  { pkg := c.pkg, site := c.site, tlbs := c.site.tlbs c.kind (s.ctxLevel c), asid := c.asid, eng := eng
    src := if c.kind = .seq then 1 else 0 }

/-- The leaf place of an access through a leaf of a page size. -/
def leafPa (e : DWord) (b va : Nat) : Nat := (ptePpn e * 4096) / 2 ^ b * 2 ^ b + va % 2 ^ b
/-- `Translate` of R104 without its effects: a TLB entry that grants the access, or a walk. -/
def State.xlate (s : State) (y : Party) (va : Nat) (k : AccKind) : XRes :=
  let p := s.pkg y.pkg
  let hits := p.tlbs.filter (fun t => y.tlbs.contains t.site && p.tlbMatch t y.asid va)
  let cached := hits.findSome? (fun t =>
    match s.judge y.pkg t.pte (leafPa t.pte t.bits va) k y.eng with
    | .ok l b => some (XRes.ok l b)
    | _ => none)
  match cached with
  | some r => r
  | none =>
    match s.walk y.pkg y.walkDie y.asid va with
    | .fault kind e => .park kind e
    | .leaf e level _ => s.judge y.pkg e (leafPa e (12 + 9 * level) va) k y.eng
/-- The TLB entry through which an access is granted, if one grants it. -/
def State.tlbHit (s : State) (y : Party) (va : Nat) (k : AccKind) : Option TlbEntry :=
  let p := s.pkg y.pkg
  p.tlbs.find? (fun t => y.tlbs.contains t.site && p.tlbMatch t y.asid va
    && (match s.judge y.pkg t.pte (leafPa t.pte t.bits va) k y.eng with | .ok _ _ => true | _ => false))
/-- How an access that is granted is translated: by a TLB entry, or by the leaf of a walk (R330). -/
def State.via (s : State) (y : Party) (va : Nat) (k : AccKind) : Via :=
  match s.tlbHit y va k with
  | some t => { asid := t.asid, gen := t.gen, va := t.va, bits := t.bits, glob := decide (bits t.pte 5 5 = 1), walked := false }
  | none =>
    let gen := (s.pkg y.pkg).gen y.asid
    match s.walk y.pkg y.walkDie y.asid va with
    | .leaf e level ptrs =>
      let b := 12 + 9 * level
      let first := (s.pkg y.pkg).walkFirst y.walkDie y.asid va
      { asid := y.asid, gen := gen, va := va / 2 ^ b * 2 ^ b, bits := b, glob := decide (bits e 5 5 = 1), walked := true
        globWalk := ptrs.any (·.glob) || first.any (·.glob) }
    | .fault _ _ => { asid := y.asid, gen := gen, va := va / 2 ^ 12 * 2 ^ 12, bits := 12, glob := false, walked := true }
/-- The table entries that a walk reads from a level on are released of open slots (R183, R326). -/
def State.walkTouch (s : State) (p va : Nat) : Nat → Nat → State
  | level, ppn =>
    let a := ppn * 4096 + 8 * (va / 2 ^ (12 + 9 * level) % 512)
    if hbmEnd ≤ a then s
    else
      let e := s.homeDWord (.hbm (hbmKey p a))
      let s := s.releaseSpan (.hbm (hbmKey p a)) 8
      if bits e 0 0 = 0 ∨ pteBad e level = true ∨ ptePtr e = false then s
      else match level with
        | 0 => s
        | l + 1 => State.walkTouch s p va l (ptePpn e)
/-- What a walk leaves at the words that it reads. -/
def State.walkReads (s : State) (p die asid va : Nat) : State :=
  if (s.pkg p).slots.isEmpty then s
  else match (s.pkg p).walkStart die asid va with
    | some (level, ppn) => s.walkTouch p va level ppn
    | none =>
      let e := s.asidEntry p asid
      let s := s.releaseSpan (s.asidPlace p asid) 16
      if asidEntryOk e then s.walkTouch p va 4 (bits e.1 43 0) else s
/-- `Translate` with the cache fills of a walk that granted its access (R329). -/
def State.translate (s : State) (y : Party) (va : Nat) (k : AccKind) : State × XRes :=
  let r := s.xlate y va k
  if (s.tlbHit y va k).isSome then (s, r)
  else
    let s1 := s.walkReads y.pkg y.walkDie y.asid va
    match r, s.walk y.pkg y.walkDie y.asid va with
    | .ok _ _, .leaf e level ptrs => (s1.modPkg y.pkg (fun p => p.fill y.tlbs y.walkDie y.asid va e level ptrs), r)
    | _, _ => (s1, r)

/-! ### Fault records (R335 to R337) -/

/-- The 256-bit image of a fault record (R337). -/
def FRec.image (r : FRec) : Nat :=
  r.va % 2 ^ 57 + r.id % 2 ^ 32 * 2 ^ 64 + r.src % 8 * 2 ^ 98 + (if r.eng then 2 ^ 101 else 0) + r.acc % 4 * 2 ^ 102
    + r.kind % 16 * 2 ^ 104 + r.gen % 16 * 2 ^ 108 + r.asid % 2 ^ 16 * 2 ^ 112 + r.loc % 2 ^ 11 * 2 ^ 128
    + (if r.mast then 2 ^ 139 else 0) + r.pte.toNat * 2 ^ 192
/-- R336: the ring has no space. -/
def Package.ringFull (p : Package) : Bool :=
  decide (2 ^ (p.fld 0x0608 62 59 + 6) ≤ (p.fld 0x0618 63 32 + 2 ^ 32 - p.fld 0x0618 31 0) % 2 ^ 32)
/-- R336: the oldest kept record is written to the ring, when the ring takes it. -/
def State.writeFrec (s : State) (p : Nat) : State :=
  let q := s.pkg p
  match q.frecs.find? (fun r => !r.written) with
  | none => s
  | some r =>
    if q.fld 0x0608 63 63 = 0 ∨ q.ringFull then s
    else
      let w := q.fld 0x0618 63 32
      let a := q.fld 0x0608 51 12 * 4096 + 32 * (w % 2 ^ (q.fld 0x0608 62 59 + 6))
      let s := s.homeWrite none (some (p * 16 + 8)) (.hbm (hbmKey p a)) (bytesOfNat 32 r.image)
      let s := s.modPkg p (fun q => { q.setFld 0x0618 63 32 (w + 1) with
        frecs := (q.frecs.map (fun x => if x.id = r.id then { x with written := true } else x)).filter (fun x => !(x.written && x.answered)) })
      s.sendMsi p 0x0610
/-- R405, R407: one trace record is written at its home, where the ring has a place for it. -/
def State.writeTrace (s : State) (p v : Nat) : State :=
  let q := s.pkg p
  let size := 2 ^ (q.fld 0x0FD8 62 59 + 10)
  let w := q.fld 0x0FE0 63 32
  if size ≤ (w + 2 ^ 32 - q.fld 0x0FE0 31 0) % 2 ^ 32 then
    s.modPkg p (fun q => q.setFld 0x0FE8 63 32 (min (q.fld 0x0FE8 63 32 + 1) (2 ^ 32 - 1)))
  else
    (s.homeWrite none (some (p * 16 + 8)) (.hbm (hbmKey p (q.fld 0x0FD0 51 12 * 4096 + 32 * (w % size)))) (bytesOfNat 32 v)).modPkg p
      (fun q => q.setFld 0x0FE0 63 32 (w + 1))
/-- R407: the trace records of a step are written, in their order. -/
def State.flushTrace (s : State) (p : Nat) : State :=
  match (s.pkg p).traceq with
  | [] => s
  | l => l.foldl (fun s v => s.writeTrace p v) (s.modPkg p (fun q => { q with traceq := [] }))
/-- R336: a new fault record, written at once where the ring takes it and no older one is kept. -/
def State.newFrec (s : State) (p : Nat) (r : FRec) : State × Nat :=
  let id := (s.pkg p).nextFrec
  let kept := (s.pkg p).frecs.any (fun x => !x.written)
  let s := s.modPkg p (fun q => { q with frecs := q.frecs ++ [{ r with id := id }], nextFrec := (id + 1) % 2 ^ 32 } )
  (if kept then s else s.writeFrec p, id)
/-- R335, R336: a fault that parks: the unanswered record of its ASID, page, fault kind and access kind, or a
new one. -/
def State.parkOn (s : State) (y : Party) (va kind : Nat) (pte : DWord) (k : AccKind) : State × Nat :=
  let p := s.pkg y.pkg
  match p.frecs.find? (fun r => !r.answered && decide (r.asid = y.asid) && decide (r.va / 4096 = va / 4096)
      && decide (r.kind = kind) && decide (r.acc = k.code)) with
  | some r => (s, r.id)
  | none =>
    s.newFrec y.pkg
      { id := 0, asid := y.asid, gen := p.gen y.asid, kind := kind, acc := k.code, eng := y.eng, src := y.src,
        va := va, pte := pte, mast := y.site.mast, loc := y.site.loc, written := false, area := 0 }
/-- The cause code that a parking fault takes in a handler access (R368, R373, R376). -/
def parkCause (kind : Nat) : Nat :=
  match kind with | 4 => 0x19 | 5 => 0x1A | 6 => 0x1A | 7 => 0x1B | _ => 0x18

end Sys2Proof.Machine
end

