-- ==== Sys2Proof/Machine/Access.lean ====
section
/-! DEFINITION. Issuing and performing accesses: local addresses (R203 to R205), the checks of R207, the replay
queue and the operand log (R372, R373), parking and replay (R215, R335, R338), and the waits of releases
(R241). -/

namespace Sys2Proof.Machine

/-! ### Local addresses -/

/-- Where a local address leads. -/
inductive LRes
  | ok (l : Loc)
  | fault (cause : Nat)
  /-- a team that is not placed (R203) -/
  | team (u : Nat)
  deriving DecidableEq, Repr, Inhabited
/-- The unit has its place in the machine. -/
def WUnit.inPlace (u : WUnit) : Bool :=
  match u.st with | .running | .aborting _ | .moving false => true | _ => false
/-- The unit's store stands in the machine: it is in its place, or still spilling (R307). -/
def WUnit.hasStore (u : WUnit) : Bool := u.inPlace || decide (u.st = .swapped false)
/-- R203: a core-store address of a context and a size. -/
def State.coreStore (s : State) (c : Ctx) (addr n : Nat) : LRes :=
  let lvl := (s.unit c.unit).level
  if c.kind = .handler ∨ 2 < lvl then .fault 8
  else if addr / 2 ^ 21 ≠ 0 then .fault 8
  else
    let home := if lvl = 2 then some c.unit else (s.unit c.unit).parentOf
    let t := if lvl = 2 then 0 else if home.isSome then (s.unit c.unit).index else 0
    let idx := t / 4 * 4 + addr / 2 ^ 19
    let target := if lvl = 1 ∧ idx = t then some c.unit
      else match home with
        | none => none
        | some h => (s.childUnits h).find? (fun x => decide ((s.unit x).index = idx) && decide ((s.unit x).st ≠ .kept))
    match target with
    | none => .fault 8
    | some u =>
      if (s.gridOf c).cstore * 4096 < addr % 2 ^ 19 + n then .fault 8
      else if (s.unit u).inPlace then .ok (.store u (addr % 2 ^ 19)) else .team u
/-- R204, R48: a cluster-memory address of a context and a size. -/
def State.clusterMem (s : State) (c : Ctx) (addr n : Nat) : LRes :=
  match (if c.kind = .handler then none else s.ownUnit c 2) with
  | none => .fault 8
  | some u =>
    if addr / 2 ^ 23 ≠ 0 then .fault 8
    else if 2 ^ 22 ≤ addr ∧ ¬ (s.unit u).split then .fault 9
    else if (s.gridOf c).clmem * 65536 < addr % 2 ^ 22 + n then .fault 8
    else .ok (.store u addr)
/-- R249: the place of a barrier object's reference, without its alignment. -/
def State.objectRef (s : State) (c : Ctx) (ref : Nat) : LRes :=
  if ref / 2 ^ 25 ≠ 0 then .fault 8
  else if ref / 2 ^ 24 % 2 = 0 then s.coreStore c (ref % 2 ^ 24) 16 else s.clusterMem c (ref % 2 ^ 24) 16

/-! ### Entries of the replay queue -/

/-- A lane's access of an issue: its address, length, alignment and source words. -/
structure Req where
  lane : Nat
  va : Nat
  len : Nat
  align : Nat
  data : List Word := []
  /-- the lane's pending hints (R432) -/
  hints : List Word := []
  deriving DecidableEq, Repr, Inhabited

/-- The entry still has something to perform. -/
def RqEntry.pending (e : RqEntry) : List Nat := (e.caps.filter (fun x => !x.2.done)).map (·.1)
/-- The entry is parked (R372 STATE). -/
def RqEntry.isParked (e : RqEntry) : Bool :=
  e.caps.any (fun x => !x.2.done && decide (x.2.parked ≠ 0)) || e.chunks.any (fun x => decide (x.parked ≠ 0))
/-- A lane parks in the operand log (R335, R373). -/
def RqEntry.inLog (e : RqEntry) : Bool := e.caps.any (fun x => !x.2.done && decide (x.2.parked ≠ 0))
/-- R215, R218, R372: a lane's access has been translated, as far as it goes, and has still to be performed: an `LDM` or `STM`
goes as far as the words before its faulting page, and of an `LDSC` that parks no stream does. -/
def RqEntry.flies (e : RqEntry) (x : Cap) : Bool :=
  !x.done && (match e.kind, e.ins with
    | 4, _ => decide (x.parked = 0) || !x.pages.isEmpty
    | _, .ldsc .. => !e.inLog
    | _, _ => decide (x.parked = 0))
/-- R246: the engine counter of a class. -/
def Ctx.counter (c : Ctx) (cls : CClass) : Nat := (c.rq.filter (fun e => decide (e.cls = some cls))).length
/-- Entry id of a context. -/
def Ctx.entry (c : Ctx) (id : Nat) : Option RqEntry := c.rq.find? (fun e => decide (e.id = id))
/-- The 64-byte lines that an access touches. -/
def accLines (va len : Nat) : List Nat := lineKeys va len
/-- R206: the request slots that an entry still holds, one for each line that it has still to read or write in global
memory. -/
def RqEntry.slots (e : RqEntry) : Nat :=
  if 7 ≤ e.kind then 0
  else ((e.caps.filter (fun x => !x.2.done && (match x.2.pages with | .store _ _ :: _ => false | _ => true))).flatMap
    (fun x => accLines (x.2.va + 4 * x.2.progress) (x.2.len - 4 * x.2.progress))).eraseDups.length
/-- The context issues from a core: a lane group, a handler or a core sequencer. -/
def State.onCore (s : State) (c : Ctx) : Bool := !c.site.mast && (decide (c.kind ≠ .seq) || decide (s.ctxLevel c = 1))
/-- R206: the request slots in use on a context's core; a sequencer without one counts for itself. -/
def State.slotsUsed (s : State) (c : Ctx) : Nat :=
  (s.ctxs.filter (fun x => decide (x.2.pkg = c.pkg) && decide (x.2.site = c.site) && decide (s.onCore x.2 = s.onCore c)
      && (s.onCore c || decide (x.2.unit = c.unit)))).foldl
    (fun n x => x.2.rq.foldl (fun n e => n + e.slots) n) 0
/-- R335: a group holds at most 16 parked instructions. -/
def Ctx.logFull (c : Ctx) : Bool := decide (16 ≤ (c.rq.filter RqEntry.inLog).length)
/-- R206, R246, R302, R372: the bounded queue in which an issue finds no free entry. -/
def State.noRoom (s : State) (c : Ctx) (cls : Option CClass) (global : Bool) (lines : Nat) : Option Hold :=
  if 64 ≤ (c.rq.filter (fun e => decide (e.kind ≠ 8))).length then some .replayQueue
  else match cls with
    | some k => if 63 ≤ c.counter k then some (.counter k)
        else if global ∧ 3072 < s.slotsUsed c + lines then some (.requestSlots lines) else none
    | none => if global ∧ 3072 < s.slotsUsed c + lines then some (.requestSlots lines) else none
/-- An entry of an issue. -/
def State.mkEntry (s : State) (c : Ctx) (i : Instr) (leader kind : Nat) (cls : Option CClass)
    (holds : List RegName) (caps : Sparse Cap) (args : List Word) : RqEntry :=
  { id := c.nextId, ins := i, word := wordOf i, pc := s.cur.pc, hints := (c.lane leader).hints, kind := kind, cls := cls
    holds := holds, caps := caps, args := args, leader := leader, chunks := [], pass := none
    obj := .none, counted := 0
    laneHints := ((s.cohort c).filter (fun l => c.guard (guardOf i) l && !(c.lane l).hints.isEmpty)).map (fun l => (l, (c.lane l).hints)) }
/-- R246: the code of a class. -/
def CClass.code : CClass → Nat | .copy => 0 | .stream => 1 | .matrix => 2 | .coll => 3 | .store => 4
/-- R247: operations of a class that a context has issued. -/
def Ctx.issuedOf (c : Ctx) (k : CClass) : Nat := Sparse.get 0 c.issued k.code
/-- R247: one more operation of a class is issued. -/
def Ctx.countIssue (c : Ctx) (k : Option CClass) : Ctx :=
  match k with | some k => { c with issued := Sparse.set 0 c.issued k.code (c.issuedOf k + 1) } | none => c
/-- An entry appended to a context's replay queue. -/
def State.addEntry (s : State) (k : Nat) (e : RqEntry) : State :=
  s.modCtx k (fun c =>
    { c.countIssue e.cls with
      rq := c.rq ++ [{ e with id := c.nextId, at' := s.cycle, serial := match e.cls with | some k => c.issuedOf k | none => 0 }]
      nextId := c.nextId + 1 })
/-- An entry of a context changed. -/
def State.modEntry (s : State) (k id : Nat) (f : RqEntry → RqEntry) : State :=
  s.modCtx k (fun c => { c with rq := c.rq.map (fun e => if e.id = id then f e else e) })
/-- R369, R372: an entry leaves its queue; what of its stores stands in a cache reaches its home. -/
def State.dropEntry (s : State) (k id : Nat) : State :=
  let p := (s.ctx k).pkg
  let s := if (s.pkg p).early.isEmpty then s else s.drainEarly p (fun e => decide (e.ctx = k) && decide (e.entry = id))
  s.modCtx k (fun c => { c with rq := c.rq.filter (fun e => decide (e.id ≠ id)) })
/-- A capture of an entry changed. -/
def RqEntry.modCap (e : RqEntry) (l : Nat) (f : Cap → Cap) : RqEntry :=
  { e with caps := e.caps.map (fun x => if x.1 = l then (x.1, f x.2) else x) }

/-! ### Translation of an access -/

/-- The first address of an access in each page that it touches (R206: at most two). -/
def pageStarts (va len : Nat) : List Nat :=
  if va / 4096 = (va + len - 1) / 4096 then [va] else [va, (va + len - 1) / 4096 * 4096]
/-- The first page of an access that does not translate, with what it gives instead. -/
def State.firstFault (s : State) (y : Party) (va len : Nat) (k : AccKind) : Option (Nat × XRes) :=
  (pageStarts va len).findSome? (fun a => match s.xlate y a k with | .ok _ _ => none | r => some (a, r))
/-- R207, R215: the pages of an access translated in ascending order, as s0 gives them, up to the first that faults; a
page that parks leaves its fault record in the capture, and a page that a walk granted fills the caches. -/
def State.capture (s0 s : State) (y : Party) (k : AccKind) (cap : Cap) : State × Cap :=
  let va := cap.va + 4 * cap.progress
  (pageStarts va (cap.len - 4 * cap.progress)).foldl (fun (r : State × Cap) a =>
    if r.2.parked ≠ 0 then r
    else match s0.xlate y a k with
      | .ok l b => ((r.1.translate y a k).1,
          { r.2 with pages := r.2.pages ++ [l], via := r.2.via ++ [s0.via y a k], nc := r.2.nc || decide (b ≠ 0) })
      | .park kind pte => let t := r.1.parkOn y a kind pte k; (t.1, { r.2 with parked := t.2 + 1 })
      | _ => r) (s, { cap with pages := [], via := [], parked := 0, nc := decide (cap.policy = 1) })
/-- The pieces of storage of a capture from its progress on. -/
def Cap.segs (x : Cap) : List (Loc × Nat) :=
  let va := x.va + 4 * x.progress
  let rem := x.len - 4 * x.progress
  match x.pages with
  | [] => []
  | .store u o :: _ => [(.store u o, rem)]
  | [a] => [(a, min rem (4096 - va % 4096))]
  | a :: b :: _ => [(a, 4096 - va % 4096), (b, rem - (4096 - va % 4096))]
/-- Every page of the capture is translated. -/
def Cap.whole (x : Cap) : Bool :=
  decide (x.parked = 0) && decide ((x.segs.foldl (fun n y => n + y.2) 0) = x.len - 4 * x.progress)
/-- Bytes of words. -/
def wordsBytes (ws : List Word) : List Byte := ws.flatMap (fun w => bytesOfNat 4 w.toNat)
/-- The place of a byte of the capture, counted from its progress. -/
def Cap.placeAt (x : Cap) (n : Nat) : Loc :=
  match x.segs with
  | [] => .none
  | (l, m) :: r => if n < m then l.add n else match r with | (l2, _) :: _ => l2.add (n - m) | [] => .none
/-- The words of a capture that are still to be performed, where some were performed apart (R208). -/
def Cap.wordsLeft (x : Cap) : List Nat :=
  (List.range ((x.segs.foldl (fun n y => n + y.2) 0) / 4)).filter (fun j => (Sparse.find x.got j).isNone)
/-- R93: what a cache policy leaves of the lines of an access: retained, or evicted after use. -/
def State.afterUse (s : State) (c : Ctx) (x : Cap) : State :=
  match x.policy, s.coreOf c with
  | 2, some (p, core) => s.modPkg p (fun q => { q with dlines := q.dlines.map (fun y =>
      if y.core = core ∧ x.segs.any (fun z => match z.1 with | .hbm k => (lineKeys k z.2).contains y.key | _ => false)
      then { y with keep := true } else y) })
  | 3, some (p, core) => x.segs.foldl (fun s z =>
      match z.1 with | .hbm k => (lineKeys k z.2).foldl (fun s key => s.dropKey p core key) s | _ => s) s
  | _, _ => s
/-- The bytes of a capture with the words that were performed apart in their place. -/
def Cap.withGot (x : Cap) (bs : List Byte) : List Byte :=
  x.got.foldl (fun bs e => overlayBytes 0 bs (4 * e.1) (bytesOfNat 4 e.2.toNat)) bs
/-- The capture's pieces read by a context. -/
def State.readSegs (s : State) (c : Ctx) (x : Cap) : State × List Byte :=
  let r := x.segs.foldl (fun (r : State × List Byte) y =>
    let t := r.1.ctxRead c y.1 y.2 x.nc; (t.1, r.2 ++ t.2)) (s, [])
  (r.1.afterUse c x, x.withGot r.2)
/-- Bytes written to the capture's pieces by a context, but for the words that were performed apart. -/
def State.writeSegs (plain : Bool) (s : State) (c : Ctx) (x : Cap) (bs : List Byte) : State :=
  let t :=
    if x.got.isEmpty then
      (x.segs.foldl (fun (r : State × List Byte) y => (r.1.ctxWrite plain c y.1 (r.2.take y.2), r.2.drop y.2)) (s, bs)).1
    else x.wordsLeft.foldl (fun s j => s.ctxWrite plain c (x.placeAt (4 * j)) ((bs.drop (4 * j)).take 4)) s
  t.afterUse c x
/-- Words of bytes. -/
def bytesWords : List Byte → List Word
  | a :: b :: c :: d :: r => BitVec.ofNat 32 (natOfBytes [a, b, c, d]) :: bytesWords r
  | _ => []

/-! ### The checks of R207 and the issue -/

/-- The lanes of some requests; the scale stream of an `LDSC` is its leader's too. -/
def lanesIn (l : List Req) : List Nat := (l.map (fun r => r.lane % 32)).eraseDups
/-- R207: the first check at issue that some global requests fail: alignment, then the address space.  Cause, lanes, INFO. -/
def reqFault (reqs : List Req) : Option (Nat × List Nat × Nat) :=
  let mis := reqs.filter (fun r => decide (r.va % r.align ≠ 0))
  let far := reqs.filter (fun r => decide (2 ^ 57 ≤ r.va))
  match mis, far with
  | r :: _, _ => some (7, lanesIn mis, r.va)
  | [], r :: _ => some (8, lanesIn far, r.va)
  | [], [] => none
/-- R207: the check that some requests fail, if one does, stops the issue before all else. -/
def faultsFirst (f : Option (Nat × List Nat × Nat)) (go : Eff) : Eff :=
  match f with | some r => .trap r.1 r.2.1 r.2.2 | none => go
/-- R207: the issue of a global access by the acting lanes. -/
def memIssue (i : Instr) (s : State) (c : Ctx) (leader kind : Nat) (acc : AccKind) (cls : Option CClass)
    (holds : List RegName) (args : List Word) (eng : Bool) (reqs : List Req) : Eff :=
  let y := s.partyOf c eng
  faultsFirst (reqFault reqs) <|
    let lines := (reqs.flatMap (fun r => accLines r.va r.len)).eraseDups.length
    match s.noRoom c cls true lines with
    | some h => .hold h
    | none =>
      let faults := reqs.filterMap (fun r => (s.firstFault y r.va r.len acc).map (fun f => (r.lane % 32, f.1, f.2)))
      let hard := faults.filter (fun f => match f.2.2 with | .park _ _ => false | _ => true)
      match hard, (if c.kind = .handler then faults else []) with
      | f :: _, _ => .trap 8 (hard.map (·.1)).eraseDups f.2.1
      | [], f :: r =>
        .trap (match f.2.2 with | .park kind _ => parkCause kind | _ => 8)
          (((f :: r).filter (fun x => decide (x.2.2 = f.2.2))).map (·.1)).eraseDups f.2.1
      | [], [] =>
        let t := reqs.foldl (fun (t : State × Sparse Cap) r =>
          let u := s.capture t.1 y acc { va := r.va, len := r.len, data := r.data, policy := policyHint r.hints, hints := r.hints }
          (u.1, Sparse.put t.2 r.lane u.2)) (s, [])
        .ok (t.1.addEntry s.cur.ctx (s.mkEntry c i leader kind cls holds t.2 args))
/-- R203 to R205, R207: the first check at issue that some local requests fail: alignment, then the access faults.  Where
lanes fail with both 0x08 and 0x09 the cause of the lowest such lane is raised and names the lanes of that cause; a lane
whose address fails both ways raises 0x08 (log 73). -/
def localFault (res : Req → LRes) (reqs : List Req) : Option (Nat × List Nat × Nat) :=
  let mis := reqs.filter (fun r => decide (r.va % r.align ≠ 0))
  let bad := reqs.filterMap (fun r => match res r with | .fault n => some (r.lane % 32, r.va, n) | _ => none)
  match mis, bad with
  | r :: _, _ => some (7, lanesIn mis, r.va)
  | [], f :: r => some (f.2.2, (((f :: r).filter (fun x => decide (x.2.2 = f.2.2))).map (·.1)).eraseDups, f.2.1)
  | [], [] => none
/-- R207: the issue of a local access by the acting lanes; res resolves a request. -/
def localIssue (i : Instr) (s : State) (c : Ctx) (leader kind : Nat) (cls : Option CClass) (holds : List RegName)
    (args : List Word) (res : Req → LRes) (reqs : List Req) : Eff :=
  let far := reqs.filterMap (fun r => match res r with | .team u => some u | _ => none)
  faultsFirst (localFault res reqs) <| match far with
  | u :: _ => .wait s (.team u)
  | [] =>
    match s.noRoom c cls false 0 with
    | some h => .hold h
    | none =>
      let caps := reqs.foldl (fun (m : Sparse Cap) r =>
        Sparse.put m r.lane
          { va := r.va, len := r.len, data := r.data, hints := r.hints, pages := match res r with | .ok l => [l] | _ => [] }) []
      .ok (s.addEntry s.cur.ctx (s.mkEntry c i leader kind cls holds caps args))

/-! ### Order and waits -/

/-- Two captures touch a common byte. -/
def Cap.overlaps (x y : Cap) : Bool :=
  let spanned := decide (x.va < y.va + y.len) && decide (y.va < x.va + x.len)
  match x.pages, y.pages with
  | .store u a :: _, .store w b :: _ => decide (u = w) && decide (a < b + y.len) && decide (b < a + x.len)
  | .store _ _ :: _, _ => false
  | _, .store _ _ :: _ => false
  | _, _ => spanned || x.segs.any (fun p => y.segs.any (fun q =>
      match p.1, q.1 with
      | .hbm a, .hbm b => decide (a < b + q.2) && decide (b < a + p.2)
      | .host a, .host b => decide (a < b + q.2) && decide (b < a + p.2)
      | _, _ => false))
/-- The entries of a context before one in issue order. -/
def Ctx.before (c : Ctx) (id : Nat) : List RqEntry := c.rq.takeWhile (fun e => decide (e.id ≠ id))
/-- An acquire (R228). -/
def isAcquire : Instr → Bool
  | .ldAcq .. | .atom .. | .cas .. => true
  | _ => false
/-- What is left of a capture. -/
def Cap.rest (x : Cap) : Cap := { x with va := x.va + 4 * x.progress, len := x.len - 4 * x.progress, progress := 0 }
/-- What is left of a capture and has its pages: what a performance takes. -/
def Cap.ready (x : Cap) : Cap := { x.rest with len := x.segs.foldl (fun n y => n + y.2) 0 }
/-- One word of what is left of a capture. -/
def Cap.oneWord (x : Cap) (j : Nat) : Cap :=
  { x with va := x.va + 4 * (x.progress + j), len := 4, progress := 0, pages := [x.placeAt (4 * j)], got := [] }
/-- The entry stores for its lanes: it is an access of kind 0 to 6, or an `ACCRD.c`. -/
def RqEntry.accesses (e : RqEntry) : Bool := decide (e.kind < 6) || (decide (e.kind = 8) && decide (e.cls = some .store))
/-- A plain store, whose bytes may stand in the caches on their way (R235, R238); an ordered one of L4 and L5 is written at
its home only. -/
def stages : Instr → Bool
  | .st .. | .stm .. | .stt .. | .gst .. | .sst .. => true
  | .stRel _ _ _ lvl _ => decide (lvl < 4)
  | _ => false
/-- R227, R241: a capture of an earlier entry of the lane holds back an access of a later entry id: an acquire, or a read
that an acquire by fence has passed. -/
def Cap.acquires (y : Cap) (f : RqEntry) (id : Nat) : Bool :=
  isAcquire f.ins || y.acq.any (fun a => decide (a.2 ≤ id))
/-- R208, R227: a lane's capture may be performed, or a store brought to a stage: nothing earlier of the lane, and nothing
of a lower lane of the same issue, that touches the bytes it has the pages of (R215) is still short of `stage`, and no
acquire of the lane stands before it.  The words of an `ACCRD.c` that a later load reads may be old or new (R165). -/
def State.mayReach (c : Ctx) (e : RqEntry) (l : Nat) (x : Cap) (short : RqEntry → Cap → Bool) : Bool :=
  let meets := fun (y : Cap) => decide (x.ready.len ≠ 0) && y.rest.overlaps x.ready
  !(c.before e.id).any (fun f => f.accesses && f.caps.any (fun y => decide (y.1 % 32 = l % 32) && !y.2.done
      && (y.2.acquires f e.id || (meets y.2 && short f y.2))))
    && !e.caps.any (fun y => decide (y.1 < l) && decide (l < 32) && !y.2.done && meets y.2
      && decide (e.kind ≠ 0) && !(decide (e.kind = 4) && decide (e.cls = none)) && short e y.2)
/-- R208, R227: a lane's capture may be performed; a load reads the lane's own store once that stands in a cache. -/
def State.mayPerform (c : Ctx) (e : RqEntry) (l : Nat) (x : Cap) : Bool :=
  let load := decide (e.kind = 0) || (decide (4 ≤ e.kind) && decide (e.kind < 6) && decide (e.cls = none))
  State.mayReach c e l x (fun f y => !(load && (decide (f.kind = 8) || decide (y.stage ≠ 0))))
/-- R238: a capture has come as far as a release needs: it is performed, or a store stands in the cache. -/
def Cap.reached (x : Cap) (n : Nat) : Bool := x.done || (decide (n < 3) && decide (n ≤ x.stage))
/-- R241: the entries of some lanes that a release by them orders and that have not come far enough. -/
def Ctx.unperformed (c : Ctx) (k : Nat) (ls : List Nat) (reach : Nat) : List (Nat × Nat) :=
  (c.rq.filter (fun e => e.accesses && e.caps.any (fun y => ls.contains (y.1 % 32) && !y.2.reached reach))).map
    (fun e => (k, e.id))
/-- The entry reads memory for its lanes: a load or an atomic. -/
def RqEntry.reads (e : RqEntry) : Bool :=
  decide (e.kind = 0) || decide (e.kind = 2) || ((decide (e.kind = 4) || decide (e.kind = 5)) && decide (e.cls = none))
/-- R241: the loads and atomics of some lanes that an acquire by fence waits for: those that are not parked. -/
def Ctx.unread (c : Ctx) (k : Nat) (ls : List Nat) : List (Nat × Nat) :=
  (c.rq.filter (fun e => e.reads
      && e.caps.any (fun y => ls.contains (y.1 % 32) && !y.2.done && decide (y.2.parked = 0)))).map (fun e => (k, e.id))
/-- Some lanes of the issuing context stay at their instruction with a wait. -/
def State.stay (s : State) (ls : List Nat) (w : Wait) : State :=
  s.modCtx s.cur.ctx (fun c => c.modLanes ls (fun _ x => { x with wait := w }))
/-- R241: the lanes that are not ready wait with w, each for itself; the others go on (R207). -/
def apart (s : State) (act : List Nat) (ready : Nat → Bool) (w : Wait) (go : State → List Nat → Eff) : Eff :=
  let late := act.filter (fun l => !ready l)
  let now := act.filter ready
  if late.isEmpty then go s act
  else if now.isEmpty then .wait s w
  else match go s now with
    | .ok t => .okPc ((t.modCtx t.cur.ctx (fun c => c.advance now)).stay late w)
    | .okPc t => .okPc (t.stay late w)
    | .wait t w' => .okPc ((t.stay now w').stay late w)
    | e => e
/-- R241: a release by each acting lane: it waits until what it orders has come as far as its scope needs (R238), and what
it merges and drains can go (R185, R22); and then it takes effect. -/
def releasingTo (s : State) (c : Ctx) (act : List Nat) (lvl reach : Nat) (go : State → List Nat → Eff) : Eff :=
  apart s act (fun l => (c.unperformed s.cur.ctx [l] reach).isEmpty && s.mayRelease c lvl)
    (.release (c.unperformed s.cur.ctx act reach) true true reach lvl) (fun s act => go (s.release c lvl) act)
/-- R241: a release at a scope by each acting lane. -/
def releasing (s : State) (c : Ctx) (act : List Nat) (lvl : Nat) (go : State → List Nat → Eff) : Eff :=
  releasingTo s c act lvl (s.reach c lvl) go
/-- R131, R241: a release by an instruction that acts once per issue: it waits until what its lanes order has come far
enough. -/
def releasingOnce (s : State) (c : Ctx) (act : List Nat) (lvl : Nat) (go : State → Eff) : Eff :=
  let l := c.unperformed s.cur.ctx act (s.reach c lvl)
  if l.isEmpty && s.mayRelease c lvl then go (s.release c lvl) else .wait s (.release l true false (s.reach c lvl) lvl)

/-! ### Completion of an entry -/

/-- A lane's capture is performed. -/
def State.capDone (s : State) (k id l : Nat) : State := s.modEntry k id (fun e => e.modCap l (fun x => { x with done := true }))
/-- R239, R369: an entry with nothing left to perform leaves the queue. -/
def State.settle (s : State) (k id : Nat) : State :=
  match (s.ctx k).entry id with
  | some e => if e.pending.isEmpty ∧ e.chunks.all (fun x => decide (x.st = 3)) then s.dropEntry k id else s
  | none => s

/-- Vector registers from n up written with words, in one lane. -/
def Ctx.wrVs (c : Ctx) (n l : Nat) : List Word → Ctx
  | [] => c
  | w :: r => Ctx.wrVs (c.wrV n l w) (n + 1) l r

/-! ### Replay (R338, R380, R385) -/

/-- The kind of access that an entry makes on its translated side (R328). -/
def accOf : Instr → AccKind
  | .st .. | .stRel .. | .stm .. | .stt .. | .gst .. | .sst .. => .write
  | .atom .. | .cas .. | .reduce .. => .atomic
  | _ => .read
/-- R328: the entry makes engine accesses. -/
def engOf : Instr → Bool
  | .ldx .. | .ldsc .. => true
  | _ => false
/-- What a capture's replay meets first: the access fault, with its address, or nothing that traps. -/
def State.replayFault (s : State) (k : Nat) (e : RqEntry) (x : Cap) : Option Nat :=
  match s.firstFault (s.partyOf (s.ctx k) (engOf e.ins)) (x.va + 4 * x.progress) (x.len - 4 * x.progress) (accOf e.ins) with
  | some (a, .access) => some a
  | _ => none
/-- A parked capture walks again and takes the page places and the generation of now. -/
def State.replayCap (s : State) (k : Nat) (e : RqEntry) (l : Nat) : State :=
  match Sparse.find e.caps l with
  | none => s
  | some x =>
    let t := s.capture s (s.partyOf (s.ctx k) (engOf e.ins)) (accOf e.ins) { x with pages := [], via := [], parked := 0 }
    t.1.modEntry k e.id (fun e => e.modCap l (fun _ => t.2))
/-- R335: captures of an entry meet the access fault at replay: their lanes are named, and the context traps at the
instruction. -/
def State.replayTrap (s : State) (k : Nat) (e : RqEntry) (ls : List Nat) (a : Nat) : State :=
  let lanes := (ls.map (· % 32)).eraseDups
  let hints := fun (l : Nat) => ((Sparse.find e.caps l).getD {}).hints
  let s := s.modEntry k e.id (fun e => { e with caps := e.caps.filter (fun q => !ls.contains q.1) })
  let s := s.modCtx k (fun c => c.modLanes lanes (fun l z => { z with pc := e.pc, hints := hints l, wait := .none }))
  (s.takeTrap k e.pc e.word 8 lanes a none).settle k e.id
/-- R380, R385: the parked chunks of a copy go on, when a test on their record holds. -/
def State.replayChunks (s : State) (k : Nat) (e : RqEntry) (f : Nat → Bool) : State :=
  if e.chunks.isEmpty then s
  else s.modEntry k e.id (fun e => { e with chunks := e.chunks.map (fun x => if x.parked ≠ 0 ∧ f (x.parked - 1) = true then { x with parked := 0 } else x) })
/-- Every parked capture of an entry walks again, and every parked chunk goes on, when a test on its record holds.  An `LDSC`
walks both streams again (R218). -/
def State.replayEntry (s : State) (k id : Nat) (f : Nat → Bool) : State :=
  match (s.ctx k).entry id with
  | none => s
  | some e =>
    let s := s.replayChunks k e f
    let due := (e.caps.filter (fun x => !x.2.done && decide (x.2.parked ≠ 0) && f (x.2.parked - 1))).map (·.1)
    let ls := if due.isEmpty then [] else match e.ins with | .ldsc .. => e.caps.map (·.1) | _ => due
    let bad := ls.filter (fun l => (s.replayFault k e ((Sparse.find e.caps l).getD {})).isSome)
    let s := (ls.filter (fun l => !bad.contains l)).foldl (fun s l => s.replayCap k e l) s
    match bad with
    | [] => s
    | l :: _ => s.replayTrap k e bad ((s.replayFault k e ((Sparse.find e.caps l).getD {})).getD 0)
/-- R380: every parked entry of a context is re-injected, oldest first. -/
def State.reinject (s : State) (k : Nat) : State :=
  (s.ctx k).rq.foldl (fun s e => s.replayEntry k e.id (fun _ => true)) s

end Sys2Proof.Machine
end

