-- ==== Sys2Proof/Machine/Memory.lean ====
section
/-! DEFINITION. Memory instructions, majors 0x1A and 0x20 to 0x27 (R148, R201 to R224). -/

namespace Sys2Proof.Machine

/-- Bytes of an access size (R210). -/
def Size.bytes : Size → Nat | .b => 1 | .h => 2 | .w => 4 | .p => 8
/-- R202: (pair + offset) modulo 2^64. -/
def effAddr (pair : Nat) (off : Int) : Nat := (((pair : Int) + off) % 2 ^ 64).toNat
/-- R212: v_b plus the offset, modulo 2^32. -/
def localAddr (base : Word) (off : Int) : Nat := (((base.toNat : Int) + off) % 2 ^ 32).toNat
/-- The destination registers of a load of a size. -/
def sizeRegs (d : Nat) (sz : Size) : List Nat := if sz = .p then [d, d + 1] else [d]
/-- The source words of a store of a size in one lane. -/
def storeWords (c : Ctx) (d l : Nat) (sz : Size) : List Word := (sizeRegs d sz).map (fun n => c.rdV n l)

/-- R210: the requests of a global load or store of a size in each acting lane; off is in units of the size. -/
def globalReqs (c : Ctx) (act : List Nat) (d b : Nat) (off : Nat → Int) (sz : Size) (store : Bool) : List Req :=
  act.map (fun l =>
    { lane := l, va := effAddr (c.rdPairV b l) (off l * Size.bytes sz), len := Size.bytes sz, align := Size.bytes sz
      data := if store then storeWords c d l sz else [], hints := (c.lane l).hints : Req })
/-- R210: a global load or store of a size in each acting lane. -/
def globalLanes (i : Instr) (s : State) (c : Ctx) (act : List Nat) (d b : Nat) (off : Nat → Int) (sz : Size)
    (store : Bool) : Eff :=
  let reqs := globalReqs c act d b off sz store
  memIssue i s c (act.headD 0) (if store then 1 else 0) (if store then .write else .read)
    (if store then some .store else none) (if store then [] else (sizeRegs d sz).map .v) [] false reqs
/-- `LD` (R210). -/
def execLd (g : Guard) (d b : Nat) (off : Int) (sz : Size) (sx : Bool) (s : State) : Out :=
  gate (.ld g d b off sz sx) s (fun s c act =>
    globalLanes (.ld g d b off sz sx) s c act d b (fun l => wideImm 6 off (c.lane l).hints) sz false)
/-- `LD.acq` (R211). -/
def execLdAcq (g : Guard) (d b lvl : Nat) (sz : Size) (sx : Bool) (s : State) : Out :=
  gate (.ldAcq g d b lvl sz sx) s (fun s c act =>
    globalLanes (.ldAcq g d b lvl sz sx) s c act d b (fun _ => 0) sz false)
/-- `ST` (R210). -/
def execSt (g : Guard) (d b : Nat) (off : Int) (sz : Size) (s : State) : Out :=
  gate (.st g d b off sz) s (fun s c act =>
    globalLanes (.st g d b off sz) s c act d b (fun l => wideImm 6 off (c.lane l).hints) sz true)
/-- `ST.rel` (R211): the release comes first. -/
def execStRel (g : Guard) (d b lvl : Nat) (sz : Size) (s : State) : Out :=
  gate (.stRel g d b lvl sz) s (fun s c act =>
    faultsFirst (reqFault (globalReqs c act d b (fun _ => 0) sz true)) <| releasing s c act lvl (fun s act => globalLanes (.stRel g d b lvl sz) s c act d b (fun _ => 0) sz true))

/-- R212: a core-store or cluster-memory access in each acting lane. -/
def localLanes (i : Instr) (s : State) (c : Ctx) (act : List Nat) (d b : Nat) (off : Int) (sz : Size)
    (store : Bool) (res : Ctx → Nat → Nat → LRes) : Eff :=
  let n := Size.bytes sz
  let reqs := act.map (fun l =>
    { lane := l, va := localAddr (c.rdV b l) (wideImm 6 off (c.lane l).hints * n), len := n, align := n
      data := if store then storeWords c d l sz else [], hints := (c.lane l).hints : Req })
  localIssue i s c (act.headD 0) (if store then 1 else 0) (if store then some .store else none)
    (if store then [] else (sizeRegs d sz).map .v) [] (fun r => res c r.va r.len) reqs
/-- `LDC` (R212). -/
def execLdc (g : Guard) (d b : Nat) (off : Int) (sz : Size) (s : State) : Out :=
  gate (.ldc g d b off sz) s (fun s c act => localLanes (.ldc g d b off sz) s c act d b off sz false s.coreStore)
/-- `STC` (R212). -/
def execStc (g : Guard) (d b : Nat) (off : Int) (sz : Size) (s : State) : Out :=
  gate (.stc g d b off sz) s (fun s c act => localLanes (.stc g d b off sz) s c act d b off sz true s.coreStore)
/-- `LDK` (R212). -/
def execLdk (g : Guard) (d b : Nat) (off : Int) (sz : Size) (s : State) : Out :=
  gate (.ldk g d b off sz) s (fun s c act => localLanes (.ldk g d b off sz) s c act d b off sz false s.clusterMem)
/-- `STK` (R212). -/
def execStk (g : Guard) (d b : Nat) (off : Int) (sz : Size) (s : State) : Out :=
  gate (.stk g d b off sz) s (fun s c act => localLanes (.stk g d b off sz) s c act d b off sz true s.clusterMem)

/-- R205: the stash access of a lane: its address, or the fault. -/
def State.stashBad (s : State) (c : Ctx) (addr n : Nat) : Bool :=
  decide (c.kind ≠ .group) || decide (2 ^ 11 ≤ addr) || decide ((s.gridOf c).stash < addr + n)
/-- R205, R209, R212: stash accesses are performed at issue. -/
def stashLanes (s : State) (c : Ctx) (act : List Nat) (b : Nat) (off : Int) (sz : Size) (f : Ctx → Nat → Nat → Ctx) : Eff :=
  let n := Size.bytes sz
  let addr := fun l => localAddr (c.rdV b l) (wideImm 6 off (c.lane l).hints * n)
  let mis := act.filter (fun l => decide (addr l % n ≠ 0))
  let bad := act.filter (fun l => s.stashBad c (addr l) n)
  match mis, bad with
  | l :: _, _ => .trap 7 mis (addr l)
  | [], l :: _ => .trap 8 bad (addr l)
  | [], [] => .ok (s.modCtx s.cur.ctx (fun c' => act.foldl (fun c' l => f c' l (addr l)) c'))
/-- `LDL` (R212). -/
def execLdl (g : Guard) (d b : Nat) (off : Int) (sz : Size) (s : State) : Out :=
  gate (.ldl g d b off sz) s (fun s c act =>
    stashLanes s c act b off sz (fun c' l a =>
      let x := natOfBytes (Sparse.getRun 0 c.stash (2048 * l + a) (Size.bytes sz))
      c'.wrVs d l ((sizeRegs d sz).zipIdx.map (fun r => BitVec.ofNat 32 (x / 2 ^ (32 * r.2))))))
/-- `STL` (R212). -/
def execStl (g : Guard) (d b : Nat) (off : Int) (sz : Size) (s : State) : Out :=
  gate (.stl g d b off sz) s (fun s c act =>
    stashLanes s c act b off sz (fun c' l a =>
      { c' with stash := Sparse.setRun 0 c'.stash (2048 * l + a)
                  ((wordsBytes (storeWords c d l sz)).take (Size.bytes sz)) }))

/-- `LDM` (R214, R215). -/
def execLdm (g : Guard) (d b n : Nat) (s : State) : Out :=
  gate (.ldm g d b n) s (fun s c act =>
    memIssue (.ldm g d b n) s c (act.headD 0) 4 .read none (vRun d n) [] false
      (act.map (fun l => { lane := l, va := c.rdPairV b l, len := 4 * n, align := 4, hints := (c.lane l).hints : Req })))
/-- `STM` (R214, R215): the source words are captured at issue. -/
def execStm (g : Guard) (d b n : Nat) (s : State) : Out :=
  gate (.stm g d b n) s (fun s c act =>
    memIssue (.stm g d b n) s c (act.headD 0) 4 .write (some .store) [] [] false
      (act.map (fun l => { lane := l, va := c.rdPairV b l, len := 4 * n, align := 4, hints := (c.lane l).hints
                           data := (List.range n).map (fun j => c.rdV (d + j) l) : Req })))

/-- The access of a tile-space form (R216): one request of the leader lane. -/
def spaceIssue (i : Instr) (s : State) (c : Ctx) (l kind : Nat) (sp : TSpace) (acc : AccKind) (cls : Option CClass)
    (holds : List RegName) (args : List Word) (b : Nat) (off : Int) (data : List Word) : Eff :=
  match sp with
  | .global => memIssue i s c l kind acc cls holds args false
      [{ lane := l, va := effAddr (c.rdPairG b) off, len := 1024, align := 64, data := data, hints := (c.lane l).hints }]
  | .core => localIssue i s c l kind cls holds args (fun r => s.coreStore c r.va r.len)
      [{ lane := l, va := localAddr (c.rdG b) off, len := 1024, align := 64, data := data, hints := (c.lane l).hints }]
  | .cluster => localIssue i s c l kind cls holds args (fun r => s.clusterMem c r.va r.len)
      [{ lane := l, va := localAddr (c.rdG b) off, len := 1024, align := 64, data := data, hints := (c.lane l).hints }]
/-- `LDT` (R216). -/
def execLdt (g : Guard) (t : Nat) (sp : TSpace) (b : Nat) (off : Int) (s : State) : Out :=
  oncePerIssue (.ldt g t sp b off) s (fun s c l _ =>
    spaceIssue (.ldt g t sp b off) s c l 5 sp .read none [.t t] [] b
      (wideImm 6 off (c.lane l).hints * 1024) [])
/-- `STT` (R216): no tag is checked. -/
def execStt (g : Guard) (t : Nat) (sp : TSpace) (b : Nat) (off : Int) (s : State) : Out :=
  oncePerIssue (.stt g t sp b off) s (fun s c l _ =>
    spaceIssue (.stt g t sp b off) s c l 5 sp .write (some .store) [] [] b
      (wideImm 6 off (c.lane l).hints * 1024) (bytesWords (c.rdTile t)))
/-- R69: the tile and the scale registers that an `LDSC` with a descriptor fills. -/
def ldscRegs (w : Word) (sh : RunShape) : List RegName := .t (wbits w 25 22) :: (runRegs (wbits w 31 26) sh.log).map .s
/-- `LDSC` (R218): a data stream and a scale stream; captures l and 32 + l of leader lane l.  INFO of a descriptor's access
fault is the data address (log 81). -/
def execLdsc (g : Guard) (d b f : Nat) (s : State) : Out :=
  oncePerIssue (.ldsc g d b f) s (fun s c l _ =>
    let i : Instr := .ldsc g d b f
    let w := c.rdG d
    let base := wbits w 31 26
    let t := wbits w 25 22
    match ((slotOf (s.fmtOf c) f).run) with
    | none => .trap 1 [l] 0
    | some sh =>
      let n := 2 ^ sh.log
      if s.limit c (.t 0) ≤ t then .trap 5 [l] t
      else if s.badRun c base sh.log then .trap 5 [l] base
      else
        let holds := ldscRegs w sh
        ordered s c holds <|
        let rs := fun (a r : Nat) => [{ lane := l, va := a, len := 1024, align := 64, hints := (c.lane l).hints : Req },
                                      { lane := 32 + l, va := r, len := 32 * n, align := 32, hints := (c.lane l).hints : Req }]
        let sp := wbits w 21 20
        let glob := rs (c.rdPairG b) (c.rdPairG (b + 2))
        let loc := rs (c.rdG b).toNat (c.rdG (b + 2)).toNat
        match (if sp = 0 then glob else loc).filter (fun r => decide (r.va % r.align ≠ 0)) with
        | r :: _ => .trap 7 [l] r.va
        | [] =>
          if sp = 3 ∨ wbits w 19 0 ≠ 0 then .trap 8 [l] (if sp = 0 then c.rdPairG b else (c.rdG b).toNat)
          else if sp = 0 then
            memIssue i s c l 5 .read none holds [w] true glob
          else localIssue i s c l 5 none holds [w]
            (fun r => if sp = 1 then s.coreStore c r.va r.len else s.clusterMem c r.va r.len) loc)

/-- R220, R221: the requests of atomics on words, with source registers `ds`. -/
def atomReqs (c : Ctx) (act : List Nat) (b : Nat) (ds : List Nat) : List Req :=
  act.map (fun l => { lane := l, va := c.rdPairV b l, len := 4, align := 4, data := ds.map (fun n => c.rdV n l)
                      hints := (c.lane l).hints : Req })
/-- `ATOM` (R220): a release, then the read-modify-write, which is also an acquire. -/
def execAtom (g : Guard) (d b lvl : Nat) (op : AtomOp) (s : State) : Out :=
  gate (.atom g d b lvl op) s (fun s c act =>
    faultsFirst (reqFault (atomReqs c act b [d])) <| releasing s c act lvl (fun s act =>
      memIssue (.atom g d b lvl op) s c (act.headD 0) 2 .atomic none [.v d] [] false (atomReqs c act b [d])))
/-- `CAS` (R221). -/
def execCas (g : Guard) (d b lvl : Nat) (s : State) : Out :=
  gate (.cas g d b lvl) s (fun s c act =>
    faultsFirst (reqFault (atomReqs c act b [d, d + 1])) <| releasing s c act lvl (fun s act =>
      memIssue (.cas g d b lvl) s c (act.headD 0) 2 .atomic none [.v d, .v (d + 1)] [] false (atomReqs c act b [d, d + 1])))

/-- `LDX` (R219): per lane, captures hold the source, and data the core-store destination.  INFO of a descriptor's access fault
is the object's offset (log 81). -/
def execLdx (g : Guard) (d b c0 : Nat) (s : State) : Out :=
  gate (.ldx g d b c0) s (fun s c act =>
    let w := c.rdG c0
    let n := match wbits w 27 26 with | 0 => 4 | 1 => 8 | 2 => 16 | _ => 64
    let ref := w.toNat % 2 ^ 25
    let leader := act.headD 0
    let dst := fun l => (c.rdV d l).toNat
    let mis := act.filter (fun l => decide (c.rdPairV b l % n ≠ 0) || decide (dst l % n ≠ 0))
    let obj := s.objectRef c ref
    let dsts := act.map (fun l => (l, s.coreStore c (dst l) n))
    let badDst := dsts.filterMap (fun r => match r.2 with | .fault k => some (r.1, k) | _ => none)
    let far := (obj :: dsts.map (·.2)).filterMap (fun r => match r with | .team u => some u | _ => none)
    let high := act.filter (fun l => decide (2 ^ 57 ≤ c.rdPairV b l))
    match mis with
    | l :: _ => .trap 7 mis (if c.rdPairV b l % n ≠ 0 then c.rdPairV b l else dst l)
    | [] =>
      if ref % 16 ≠ 0 then .trap 7 act (ref % 2 ^ 24)
      else if wbits w 31 28 ≠ 0 ∨ wbits w 25 25 ≠ 0 then .trap 8 act (ref % 2 ^ 24)
      else match badDst, obj, far with
        | (l, k) :: r, _, _ => .trap k (((l, k) :: r).filter (fun x => decide (x.2 = k)) |>.map (·.1)) (dst l)
        | [], .fault k, _ => .trap k act (ref % 2 ^ 24)
        | [], _, u :: _ => match high with | l :: _ => .trap 8 high (c.rdPairV b l) | [] => .wait s (.team u)
        | [], o, [] =>
          match memIssue (.ldx g d b c0) s c leader 6 .read (some .copy) [] [w] true
              (act.map (fun l => { lane := l, va := c.rdPairV b l, len := n, align := n, data := [c.rdV d l]
                                   hints := (c.lane l).hints : Req })) with
          | .ok s2 =>
            .ok (s2.modEntry s2.cur.ctx c.nextId (fun e =>
              { e with obj := match o with | .ok l => l | _ => .none }))
          | r => r)

/-- `PREF` (R222): a lane whose address would fault fetches nothing; the line takes the cache policy of the lane's hints
(R93). -/
def execPref (g : Guard) (die : Bool) (b : Nat) (off : Int) (s : State) : Out :=
  gate (.pref g die b off) s (fun s c act =>
    .ok (act.foldl (fun s l =>
      let va := effAddr (c.rdPairV b l) (wideImm 6 off (c.lane l).hints * 64)
      if 2 ^ 57 ≤ va then s
      else match s.translate (s.partyOf c false) va .read with
        | (s, .ok (.hbm k) 0) =>
          let s := s.dieFill c.pkg c.site (k / 64)
          let y : Cap := { va := va / 64 * 64, len := 64, pages := [.hbm (k / 64 * 64)], policy := policyHint (c.lane l).hints }
          match die, s.coreOf c with
          | false, some (p, core) =>
            let s := if y.policy = 1 ∨ (s.dhit p core (k / 64) (k / 64 * 64) (k / 64 * 64 + 64)).isSome then s else s.fillLine p core (k / 64)
            s.afterUse c y
          | _, _ => s
        | (s, _) => s) s))
/-- R223: what of a line stands in the context's core data cache and in its die's cache goes towards the home: to the home,
or, while no plane carries it (R22), to the die cache. -/
def State.cleanLine (s : State) (c : Ctx) (key : Nat) : State :=
  let own := fun (e : Early) => decide ((s.coreOf c).map (·.2) = some e.core) && e.touches (64 * key) 64
  if c.site.mast then s
  else if s.carries c.pkg (.hbm (64 * key)) 64 then
    s.drainEarly c.pkg (fun e => decide (e.die = c.site.die) && ((e.onDie && e.touches (64 * key) 64) || own e))
  else if (s.pkg c.pkg).carveMiB = 0 then s else s.toDie c.pkg c.site.die own
/-- R187, R223: a line leaves the die cache of a context once the shadow words in it have merged. -/
def State.dieInval (s : State) (c : Ctx) (key : Nat) : State :=
  let s := s.mergeSpan c.pkg c.site (.hbm (64 * key)) 64
  if c.site.mast = false ∧ (s.pkg c.pkg).shadows.any (fun x => x.within c.site (64 * key) 64) = true then s
  else s.dieDrop c.pkg c.site.walkDie key
/-- `CCTL` (R223): a lane whose address would fault does nothing. -/
def execCctl (g : Guard) (op : CacheOp) (b : Nat) (off : Int) (s : State) : Out :=
  gate (.cctl g op b off) s (fun s c act =>
    .ok (act.foldl (fun s l =>
      let va := effAddr (c.rdPairV b l) (wideImm 6 off (c.lane l).hints * 64)
      if 2 ^ 57 ≤ va then s
      else match s.translate (s.partyOf c false) va .read with
        | (s, .ok (.hbm k) _) =>
          let s := s.cleanLine c (k / 64)
          let s := if op = .clean then s else s.dropLine c (.hbm k)
          if op = .invd then s.dieInval c (k / 64) else s
        | (s, _) => s) s))

/-- `GLD` (R148). -/
def execGld (g : Guard) (d b : Nat) (off : Int) (s : State) : Out :=
  oncePerIssue (.gld g d b off) s (fun s c l _ =>
    memIssue (.gld g d b off) s c l 0 .read none [.g d] [] false
      [{ lane := l, hints := (c.lane l).hints, va := effAddr (c.rdPairG b) (wideImm 6 off (c.lane l).hints * 4), len := 4, align := 4 }])
/-- `GST` (R148). -/
def execGst (g : Guard) (d b : Nat) (off : Int) (s : State) : Out :=
  oncePerIssue (.gst g d b off) s (fun s c l _ =>
    memIssue (.gst g d b off) s c l 1 .write (some .store) [] [] false
      [{ lane := l, hints := (c.lane l).hints, va := effAddr (c.rdPairG b) (wideImm 6 off (c.lane l).hints * 4), len := 4, align := 4
         data := [c.rdG d] }])
/-- `SLD` (R170). -/
def execSld (g : Guard) (d b : Nat) (off : Int) (s : State) : Out :=
  oncePerIssue (.sld g d b off) s (fun s c l _ =>
    memIssue (.sld g d b off) s c l 0 .read none [.s d] [] false
      [{ lane := l, hints := (c.lane l).hints, va := effAddr (c.rdPairG b) (wideImm 6 off (c.lane l).hints * 40), len := 40, align := 8 }])
/-- `SST` (R170): payload and control word of the scale register. -/
def execSst (g : Guard) (d b : Nat) (off : Int) (s : State) : Out :=
  oncePerIssue (.sst g d b off) s (fun s c l _ =>
    memIssue (.sst g d b off) s c l 1 .write (some .store) [] [] false
      [{ lane := l, hints := (c.lane l).hints, va := effAddr (c.rdPairG b) (wideImm 6 off (c.lane l).hints * 40), len := 40, align := 8
         data := bytesWords (c.sPayload d ++ bytesOfNat 8 (Sparse.get 0 c.sctl d).toNat) }])

end Sys2Proof.Machine
end

