-- ==== Sys2Proof/Machine/Object.lean ====
section
/-! DEFINITION. Barrier objects, engine counters and the waits on them, majors 0x29 and 0x2A (R246 to R251). -/

namespace Sys2Proof.Machine

/-! ### Objects (R249, R250) -/

/-- The 128 bits of an object. -/
def State.object (s : State) (l : Loc) : Nat := natOfBytes (s.rdBytes l 16)
/-- Field [hi:lo] of an object. -/
def objFld (x hi lo : Nat) : Nat := x / 2 ^ lo % 2 ^ (hi + 1 - lo)
/-- Field [hi:lo] of an object replaced. -/
def objPut (x hi lo v : Nat) : Nat := x - objFld x hi lo * 2 ^ lo + v % 2 ^ (hi + 1 - lo) * 2 ^ lo
/-- R250: the completion test after an operation on an object. -/
def objTest (x : Nat) : Nat :=
  if objFld x 47 32 = 0 ∧ objFld x 127 96 ≤ objFld x 95 64 then
    let x1 := objPut x 0 0 (1 - objFld x 0 0)
    let x2 := objPut x1 95 64 (objFld x 95 64 - objFld x 127 96)
    objPut (objPut x2 127 96 0) 47 32 (objFld x 63 48)
  else x
/-- R250: an operation on an object, performed by its memory. -/
def State.objectOp (s : State) (l : Loc) (f : Nat → Nat) : State :=
  let s := s.releaseSpan l 16
  s.wrBytes l (bytesOfNat 16 (objTest (f (s.object l))))
/-- R250: n bytes counted into an object. -/
def State.countBytes (s : State) (l : Loc) (n : Nat) : State :=
  s.objectOp l (fun x => objPut x 95 64 (min (objFld x 95 64 + n) (2 ^ 32 - 1)))

/-- R249: the object of a reference in g_a for an instruction of the leader lane. -/
def objectOf (s : State) (c : Ctx) (l a : Nat) (f : Loc → Eff) : Eff :=
  let ref := (c.rdG a).toNat
  if ref / 2 ^ 25 = 0 ∧ ref % 16 ≠ 0 then .trap 7 [l] (ref % 2 ^ 24)
  else match s.objectRef c ref with
    | .fault k => .trap k [l] (ref % 2 ^ 24)
    | .team u => .wait s (.team u)
    | .ok o => f o
/-- `MBINIT` (R251): counts on the store counter, performed at issue. -/
def execMbinit (g : Guard) (a b : Nat) (s : State) : Out :=
  oncePerIssue (.mbinit g a b) s (fun s c l _ =>
    objectOf s c l a (fun o =>
      let n := (c.rdG b).toNat
      if n = 0 ∨ 65536 ≤ n then .trap 13 [l] 0
      else if 63 ≤ c.counter .store then .hold (.counter .store)
      else .ok ((s.objectOp o (fun _ => n * 2 ^ 48 + n * 2 ^ 32)).modCtx s.cur.ctx (fun c => c.countIssue (some .store)))))
/-- `MBEXPECT` (R251). -/
def execMbexpect (g : Guard) (a b : Nat) (s : State) : Out :=
  oncePerIssue (.mbexpect g a b) s (fun s c l _ =>
    objectOf s c l a (fun o =>
      let x := s.object o
      if 2 ^ 32 ≤ objFld x 127 96 + (c.rdG b).toNat then .trap 13 [l] 0
      else .ok (s.objectOp o (fun x => objPut x 127 96 (objFld x 127 96 + (c.rdG b).toNat)))))
/-- `MBARRIVE` (R244, R251): a release at L2, then the arrival. -/
def execMbarrive (g : Guard) (a : Nat) (s : State) : Out :=
  oncePerIssue (.mbarrive g a) s (fun s c l act =>
    objectOf s c l a (fun o =>
      releasingOnce s c act 2 (fun s => .ok (s.objectOp o (fun x => objPut x 47 32 (objFld x 47 32 - 1))))))
/-- R251: the phase of an object differs from a parity. -/
def State.phaseDone (s : State) (o : Loc) (parity : Bool) : Bool :=
  decide (objFld (s.object o) 0 0 = 1) != parity
/-- `MBWAIT` (R251): every acting lane waits; an observed phase is an acquire at L2 and at the scope of each
counted operation (R244), taken at the widest of them. -/
def execMbwait (g : Guard) (d a b : Nat) (s : State) : Out :=
  oncePerIssue (.mbwait g d a b) s (fun s c l _ =>
    objectOf s c l a (fun o =>
      let par := (c.rdG b).getLsbD 0
      if s.phaseDone o par then
        .ok ((s.acquire c 5).modCtx s.cur.ctx (fun c => c.wrG d (BitVec.ofNat 32 (objFld (s.object o) 0 0))))
      else .wait s (.object o par d)))
/-- `MBTEST` (R251). -/
def execMbtest (g : Guard) (a b : Nat) (s : State) : Out :=
  oncePerIssue (.mbtest g a b) s (fun s c l act =>
    objectOf s c l a (fun o =>
      let r := s.phaseDone o ((c.rdG b).getLsbD 0)
      .ok ((if r then s.acquire c 5 else s).modCtx s.cur.ctx (fun c => c.pushAll act r))))

/-! ### Counters (R246 to R248) -/

/-- R247: the outstanding entries of a class but the n most recently issued operations of the class, complete or not. -/
def Ctx.ofClass (c : Ctx) (cls : CClass) (n : Nat) : List Nat :=
  (c.rq.filter (fun e => decide (e.cls = some cls) && decide (e.serial + n < c.issuedOf cls))).map (·.id)
/-- R247: some entries have completed. -/
def Ctx.countsDone (c : Ctx) (ids : List Nat) : Bool := ids.all (fun i => (c.entry i).isNone)
/-- R243: the scope at which the observation of a class's completion is an acquire: the copies' and collectives' is
taken at the widest. -/
def waitScope : CClass → Nat | .copy => 5 | .coll => 5 | _ => 0
/-- `WAITC` (R247). -/
def execWaitc (g : Guard) (k : CClass) (n : Nat) (s : State) : Out :=
  gate (.waitc g k n) s (fun s c _ =>
    let ids := c.ofClass k n
    if c.countsDone ids then .ok (s.acquire c (waitScope k)) else .wait s (.counts ids (waitScope k)))
/-- `CNTRD` (R248). -/
def execCntrd (g : Guard) (d : Nat) (k : CClass) (s : State) : Out :=
  oncePerIssue (.cntrd g d k) s (fun s c _ _ =>
    .ok (s.modCtx s.cur.ctx (fun c' => c'.wrG d (BitVec.ofNat 32 (c.counter k)))))

end Sys2Proof.Machine
end

