-- ==== Sys2Proof/Machine/Layout.lean ====
section
/-! DEFINITION. Layouts of tensors over mesh members (R264 to R266). -/

namespace Sys2Proof.Machine

/-! ### Slices of a dimension (R265) -/

/-- The product of some numbers. -/
def prod (l : List Nat) : Nat := l.foldl (fun n x => n * x) 1
/-- One dimension of a layout as a member sees it: extent, kind, block, axis size, coordinate. -/
structure DimView where
  e : Nat
  kind : Nat
  b : Nat
  p : Nat
  a : Nat
  deriving DecidableEq, Repr, Inhabited
/-- Where a block shard starts. -/
def DimView.start (x : DimView) : Nat := x.a * (x.e / x.p) + min x.a (x.e % x.p)
/-- Slices that the member holds. -/
def DimView.count (x : DimView) : Nat :=
  match x.kind with
  | 0 => x.e
  | 1 => if x.a < x.e % x.p then x.e / x.p + 1 else x.e / x.p
  | _ =>
    let n := (x.e + x.b - 1) / x.b
    let k := if x.a < n % x.p then n / x.p + 1 else n / x.p
    if n ≠ 0 ∧ (n - 1) % x.p = x.a then k * x.b - (n * x.b - x.e) else k * x.b
/-- The place in the member's shard of global slice g, if it holds it. -/
def DimView.find (x : DimView) (g : Nat) : Option Nat :=
  match x.kind with
  | 0 => some g
  | 1 => if x.start ≤ g ∧ g < x.start + x.count then some (g - x.start) else none
  | _ => if g / x.b % x.p = x.a then some (g / x.b / x.p * x.b + g % x.b) else none
/-- The global slice at place j of the member's shard. -/
def DimView.global (x : DimView) (j : Nat) : Nat :=
  match x.kind with
  | 0 => j
  | 1 => x.start + j
  | _ => (j / x.b * x.p + x.a) * x.b + j % x.b

/-! ### Shards -/

/-- Members of a layout. -/
def Layout.members (y : Layout) : Nat := prod y.axes
/-- R264: the mesh coordinate of a member on an axis: row-major, axis 0 slowest. -/
def Layout.coord (y : Layout) (m a : Nat) : Nat := m / prod (y.axes.drop (a + 1)) % y.axes.getD a 1
/-- The dimensions as member m sees them. -/
def Layout.view (y : Layout) (m : Nat) : List DimView :=
  (y.ext.zip y.sh).map (fun x => { e := x.1, kind := x.2.1, b := x.2.2.2, p := y.axes.getD x.2.2.1 1, a := y.coord m x.2.2.1 })
/-- The shape of member m's shard. -/
def Layout.shape (y : Layout) (m : Nat) : List Nat := (y.view m).map DimView.count
/-- Bytes of an element. -/
def Layout.esz (y : Layout) : Nat := 2 ^ y.elsz
/-- Bytes of member m's shard. -/
def Layout.bytes (y : Layout) (m : Nat) : Nat := prod (y.shape m) * y.esz
/-- R264: where member m's shard stands. -/
def Layout.addr (y : Layout) (m : Nat) : Nat := if y.lvl1 then y.base else (y.base + m * y.stride) % 2 ^ 64
/-- Row-major coordinates of element n of a shape. -/
def unflat : List Nat → Nat → List Nat
  | [], _ => []
  | _ :: r, n => n / prod r :: unflat r (n % prod r)
/-- The row-major number of coordinates in a shape. -/
def flat (shape idx : List Nat) : Nat := (shape.zip idx).foldl (fun n x => n * x.1 + x.2) 0
/-- The global coordinates of element n of member m's shard. -/
def Layout.global (y : Layout) (m n : Nat) : List Nat :=
  ((y.view m).zip (unflat (y.shape m) n)).map (fun x => x.1.global x.2)
/-- The element of member m's shard at global coordinates, if it holds them. -/
def Layout.find (y : Layout) (m : Nat) (idx : List Nat) : Option Nat :=
  let l := ((y.view m).zip idx).map (fun x => x.1.find x.2)
  if l.all Option.isSome then some (flat (y.shape m) (l.map (fun x => x.getD 0))) else none

/-! ### Descriptors (R264) -/

/-- The layout that the 512 bits of a descriptor describe. -/
def layoutOf (x : Nat) : Layout :=
  let rank := objFld x 55 54 + 1
  let naxes := objFld x 53 52 + 1
  { rank := rank, naxes := naxes, elsz := objFld x 51 50, lvl1 := decide (objFld x 49 49 = 1), base := objFld x 120 64
    ext := (List.range rank).map (fun i => objFld x (159 + 32 * i) (128 + 32 * i))
    axes := (List.range naxes).map (fun a => objFld x (271 + 16 * a) (256 + 16 * a))
    sh := (List.range rank).map (fun i =>
      (objFld x (335 + 16 * i) (334 + 16 * i), objFld x (333 + 16 * i) (332 + 16 * i), objFld x (331 + 16 * i) (320 + 16 * i) + 1))
    stride := objFld x 447 384, first := objFld x 463 448 }
/-- R266: an illegal value or a non-zero zero field. -/
def layoutIllegal (x : Nat) : Bool :=
  let y := layoutOf x
  decide (objFld x 63 56 ≠ 1) || decide (y.elsz = 3) || decide (objFld x 48 0 ≠ 0) || decide (objFld x 127 121 ≠ 0)
    || y.ext.contains 0 || decide (objFld x 255 (128 + 32 * y.rank) ≠ 0)
    || y.axes.contains 0 || decide (objFld x 319 (256 + 16 * y.naxes) ≠ 0)
    || y.sh.any (fun z => decide (z.1 = 3) || (decide (z.1 ≠ 2) && decide (z.2.2 ≠ 1)))
    || (y.lvl1 && decide (y.stride ≠ 0)) || decide (objFld x 511 464 ≠ 0)
/-- R266: two dimensions on one axis, or an axis at or above NAXES. -/
def Layout.axesBad (y : Layout) : Bool :=
  let used := (y.sh.filter (fun z => decide (z.1 ≠ 0))).map (fun z => z.2.1)
  !decide used.Nodup || used.any (fun a => decide (y.naxes ≤ a))
/-- R264, R430: the package of a number in a layout: the one that stands for it, else the one that has it. -/
def State.pkgOf (s : State) (n : Nat) : Nat := (Sparse.find s.stands n).getD n
/-- R266: members beyond the pod or package. -/
def State.membersBad (s : State) (p : Nat) (y : Layout) : Bool :=
  if y.lvl1 then (List.range y.members).any (fun m => !s.podMember p (s.pkgOf (y.first + m)))
  else decide (8 < y.first + y.members)
/-- A layout handle: generation and index (R266). -/
def LayoutEnt.handle (e : LayoutEnt) : Nat := e.gen * 256 + e.ix
/-- The layout of a handle in the tables of a package and grid; a handler belongs to no grid. -/
def State.layoutAt (s : State) (c : Ctx) (h : Nat) : Option Layout :=
  if c.kind = .handler then none
  else ((s.pkg c.pkg).layouts.find? (fun e => decide (e.grid = c.grid) && decide (e.handle = h))).map (fun e => e.lay)
/-- R266: the effect of a `LAYDEF` whose descriptor has been read; none is the collective fault.  It takes the lowest free index,
and the first handle of an index has GEN 1 (log 77). -/
def State.defineLayout (s : State) (k d : Nat) (act : List Nat) (bs : List Byte) : Option State :=
  let x := natOfBytes bs
  let y := layoutOf x
  let c := s.ctx k
  let p := s.pkg c.pkg
  if c.kind = .handler ∨ layoutIllegal x ∨ y.axesBad ∨ s.membersBad c.pkg y then none
  else
    let mine := p.layouts.filter (fun e => decide (e.grid = c.grid))
    match (List.range 256).find? (fun i => !mine.any (fun e => decide (e.ix = i))) with
    | none => some (s.modCtx k (fun c => c.pushAll act false))
    | some i =>
      let gen := (Sparse.get 0 p.layGen i + 1) % 256
      let e : LayoutEnt := { grid := c.grid, ix := i, gen := gen, lay := y }
      let s := s.modPkg c.pkg (fun p => { p with layouts := p.layouts ++ [e], layGen := Sparse.set 0 p.layGen i gen })
      some (s.modCtx k (fun c => (c.wrG d (BitVec.ofNat 32 e.handle)).pushAll act true))
/-- `LAYDEF` (R266): the descriptor is read as a global read of the leader lane, in whose place the acting lanes
wait for the handle. -/
def execLaydef (g : Guard) (d a : Nat) (s : State) : Out :=
  oncePerIssue (.laydef g d a) s (fun s c l act =>
    memIssue (.laydef g d a) s c l 0 .read none [.g d] [maskOf act] false
      [{ lane := l, va := c.rdPairG a, len := 64, align := 64, hints := (c.lane l).hints }])

end Sys2Proof.Machine
end

