-- ==== Sys2Proof/Machine/Perform.lean ====
section
/-! DEFINITION. The events at which accesses are performed (R208, R215, R219 to R221, R239). -/

namespace Sys2Proof.Machine

/-- R210: the value of a load: sign- or zero-extended, or the two words of a pair. -/
def loadWords (sz : Size) (sx : Bool) (bs : List Byte) : List Word :=
  let x := natOfBytes bs
  match sz with
  | .p => [BitVec.ofNat 32 x, BitVec.ofNat 32 (x / 2 ^ 32)]
  | .w => [BitVec.ofNat 32 x]
  | .h => [if sx then (BitVec.ofNat 16 x).signExtend 32 else BitVec.ofNat 32 x]
  | .b => [if sx then (BitVec.ofNat 8 x).signExtend 32 else BitVec.ofNat 32 x]
/-- R220: the value that an atomic other than `.fadd` and `CAS` stores. -/
def atomNew (op : AtomOp) (old c : Word) : Word :=
  match op with
  | .add => old + c
  | .and => old &&& c
  | .or => old ||| c
  | .xor => old ^^^ c
  | .min => if c.slt old then c else old
  | .max => if old.slt c then c else old
  | .minU => if c.ult old then c else old
  | .maxU => if old.ult c then c else old
  | .exch => c
  | .fadd => old
/-- R220, R237: an atomic at its word's home: the old value and the state after; none while a slot must be
waited for. -/
def State.atomic (s : State) (c : Ctx) (l : Loc) (op : AtomOp) (x : Word) : Option (State × Word) :=
  let s := (s.toHome c l 4).dropLine c l
  if op = .fadd then
    (s.openSlot l c.asid c.grid).map (fun r => ((r.1.keepSlot (r.2.add x)).dcacheHole l, r.2.round))
  else
    let s := s.releaseSpan l 4
    let old := s.rdWord l
    some (s.homeWrite none (some c.sharer) l (bytesOfNat 4 (atomNew op old x).toNat), old)
/-- R221: compare and swap at the word's home. -/
def State.compareSwap (s : State) (c : Ctx) (l : Loc) (old' new : Word) : State × Word :=
  let s := ((s.toHome c l 4).dropLine c l).releaseSpan l 4
  let old := s.rdWord l
  (if old = old' then s.homeWrite none (some c.sharer) l (bytesOfNat 4 new.toNat) else s, old)
/-- R66, R69, R218: both streams of an `LDSC` have completed: tile, payloads, generations and tag. -/
def Ctx.applyLdsc (c : Ctx) (w : Word) (sh : RunShape) (data rec : List Byte) : Ctx :=
  let base := wbits w 31 26
  let t := wbits w 25 22
  let gen := (c.sGen base + 1) % 16
  let c := (runRegs base sh.log).foldl (fun c r =>
    (c.setPayload r ((rec.drop (32 * (r - base))).take 32) sh.band).setGen r gen sh.band) (c.wrTile t 0 data)
  c.bindT t base gen sh.band sh.log
/-- R170: an `SLD` record reaches its scale register. -/
def Ctx.applySld (c : Ctx) (d : Nat) (bs : List Byte) : Ctx :=
  let band := decide ((bs.getD 32 0).toNat / 16 % 2 = 1)
  (c.setPayload d (bs.take 32) band).advGen d band

/-! ### Where an access may go (R19, R22, R27, R259, R260) -/

/-- R19, R27: a place is served: the memory side of a die always, a unit's store while the clocks of its die run. -/
def State.serves (s : State) (l : Loc) : Bool :=
  match l with
  | .store u o => s.clockRuns (s.unit u).pkg (if (s.unit u).level = 2 ∧ (s.unit u).split ∧ 2 ^ 22 ≤ o then (s.unit u).site2 else (s.unit u).site)
  | _ => true
/-- R19, R22: requests of a site reach some storage and are answered: its clocks run, the storage is served, and the fabric
carries them. -/
def State.answered (s : State) (p : Nat) (x : Site) (l : List (Loc × Nat)) : Bool :=
  s.clockRuns p x && l.all (fun y => s.carries p y.1 y.2 && s.serves y.1)
/-- R19, R22, R187: accesses of a site are answered, and wait for no merge of a shadow word. -/
def State.travels (s : State) (p : Nat) (x : Site) (l : List (Loc × Nat)) : Bool :=
  s.answered p x l && s.spansFree p x l

/-- The capture of a lane after its words so far: `LDM` and `STM` take up to the first page that faulted (R215). -/
def capWords (x : Cap) : Nat := (x.segs.foldl (fun n y => n + y.2) 0) / 4
/-- R186: the contribution of a lane goes to a shadow line. -/
def State.usesShadow (s : State) (c : Ctx) (lvl : Nat) (op : RedOp) (l : Loc) : Bool :=
  let g := s.gridOf c
  decide (lvl = 4) && (match l with | .hbm k => decide (keyPkg k = c.pkg) | _ => false) && g.shadow && !c.site.mast
    && decide ((s.pkg c.pkg).carveMiB ≠ 0) && (decide (op ≠ .fadd) || g.ndfp)

/-- The effect of performing one capture of an entry of context k; none when it cannot be performed now. -/
def State.performCap (s : State) (k : Nat) (e : RqEntry) (l : Nat) (x : Cap) : Option State :=
  let c := s.ctx k
  let lane := l % 32
  let load := fun (f : Ctx → List Byte → Ctx) =>
    if x.whole then let r := s.readSegs c x; some ((r.1.modCtx k (fun c => f c r.2)).capDone k e.id l) else none
  let store := fun (plain : Bool) =>
    if x.whole then some ((s.writeSegs plain c x ((wordsBytes x.data).take x.len)).capDone k e.id l) else none
  match e.ins with
  | .ld _ d _ _ sz sx => load (fun c bs => c.wrVs d lane (loadWords sz sx bs))
  | .ldc _ d _ _ sz | .ldk _ d _ _ sz => load (fun c bs => c.wrVs d lane (loadWords sz false bs))
  | .ldAcq _ d _ lvl sz sx =>
    if ¬ x.whole then none
    else if lvl < 4 then (load (fun c bs => c.wrVs d lane (loadWords sz sx bs))).map (fun s => s.acquire c lvl)
    else
      let r := (x.segs.foldl (fun s y => s.toAcquire c y.1 y.2) s).readSegs c { x with nc := true }
      some (((r.1.modCtx k (fun c => c.wrVs d lane (loadWords sz sx r.2))).capDone k e.id l).acquire c lvl)
  | .gld _ d _ _ => load (fun c bs => c.wrG d (BitVec.ofNat 32 (natOfBytes bs)))
  | .sld _ d _ _ => load (fun c bs => c.applySld d bs)
  | .ldt _ t _ _ _ => load (fun c bs => (c.wrTile t 0 bs).unbindT t)
  | .laydef _ d _ =>
    if ¬ x.whole then none else
      let r := s.readSegs c x
      let act := lanesOf (e.args.headD 0)
      match (r.1.capDone k e.id l).defineLayout k d act r.2 with
      | some s => some s
      | none =>
        let s := r.1.dropEntry k e.id
        if c.kind = .handler then some (s.modCtx k (fun c => c.handlerFault 0x0F x.va))
        else
          let s := s.modCtx k (fun c => c.modLanes act (fun l z => { z with pc := e.pc, hints := Sparse.get [] e.laneHints l, wait := .none }))
          some (s.takeTrap k e.pc e.word 0x0F act 0 none)
  | .stRel _ _ _ lvl _ => store (decide (lvl < 4))
  | .st .. | .stc .. | .stk .. | .stt .. | .gst .. | .sst .. => store true
  | .ldm _ d _ n =>
    let m := capWords x
    if m = 0 then none else
      let r := s.readSegs c x
      let s := r.1.modCtx k (fun c => c.wrVs (d + x.progress) lane (bytesWords r.2))
      some (s.modEntry k e.id (fun e => e.modCap l (fun y =>
        { y with progress := x.progress + m, pages := [], got := [], done := decide (x.progress + m = n) })))
  | .stm _ _ _ n =>
    let m := capWords x
    if m = 0 then none else
      let s := s.writeSegs true c x (wordsBytes ((x.data.drop x.progress).take m))
      some (s.modEntry k e.id (fun e => e.modCap l (fun y =>
        { y with progress := x.progress + m, pages := [], got := [], done := decide (x.progress + m = n) })))
  | .ldsc _ _ _ f =>
    if e.inLog ∨ ¬ x.whole then none else
      let r := s.readSegs c x
      let s := r.1.modEntry k e.id (fun e => e.modCap l (fun y => { y with data := bytesWords r.2, done := true }))
      match (s.ctx k).entry e.id with
      | some e2 =>
        if e2.pending.isEmpty then
          let bs := fun n => wordsBytes (((Sparse.find e2.caps n).getD {}).data)
          match (slotOf (s.fmtOf c) f).run with
          | some sh => some (s.modCtx k (fun c => c.applyLdsc (e.args.headD 0) sh (bs lane) (bs (32 + lane))))
          | none => some s
        else some s
      | none => some s
  | .atom _ d _ lvl op =>
    match x.segs with
    | (o, _) :: _ => if ¬ x.whole then none else
        (s.atomic c o op (x.data.headD 0)).map (fun r =>
          ((r.1.modCtx k (fun c => c.wrV d lane r.2)).capDone k e.id l).acquire c lvl)
    | [] => none
  | .cas _ d _ lvl =>
    match x.segs, x.data with
    | (o, _) :: _, a :: b :: _ => if ¬ x.whole then none else
        let r := s.compareSwap c o a b
        some (((r.1.modCtx k (fun c => (c.wrV d lane r.2).push lane (decide (r.2 = a)))).capDone k e.id l).acquire c lvl)
    | _, _ => none
  | .reduce _ lvl _ _ op _ _ =>
    match x.segs with
    | (o, _) :: _ => if ¬ x.whole then none else
        let v := x.data.headD 0
        (if s.usesShadow c lvl op o then
          match o with
          | .hbm key => s.shadowAdd c.pkg c.site.die key c.asid c.grid op v
          | _ => none
        else (s.toHome c o 4).contribute o op v c.asid c.grid).map (fun s => s.capDone k e.id l)
    | [] => none
  | _ => none

/-- R235: a store that stands in a cache reaches its home: its bytes still there are written, and the capture is
performed. -/
def State.homeStage (s : State) (k : Nat) (e : RqEntry) (l : Nat) : State :=
  (s.drainEarly (s.ctx k).pkg (fun y => y.isOf k e.id l)).capDone k e.id l
/-- R208: bytes of earlier writes of a context's caches that touch the capture, which reach their home first: all that its
core or die reads, for a write that stands in no cache; else those that came before its own. -/
def State.heldByEarly (s : State) (k : Nat) (e : RqEntry) (l : Nat) (x : Cap) : Bool :=
  let c := s.ctx k
  let all := (s.pkg c.pkg).early
  let es := if x.stage = 0 then all.filter (fun y => decide (y.die = c.site.die)
      && x.segs.any (fun z => match z.1 with | .hbm key => y.touches key z.2 | _ => false))
    else aheadOf (fun y => y.isOf k e.id l) all
  accOf e.ins = .write && es.any (fun y => y.onDie || decide ((s.coreOf c).map (·.2) = some y.core))
/-- The lines of a capture are in the core data cache of its context, and the access reads them there. -/
def State.hitsCore (s : State) (c : Ctx) (e : RqEntry) (x : Cap) : Bool :=
  match s.coreOf c with
  | none => false
  | some (p, core) =>
    e.reads && decide (e.kind ≠ 2) && !x.nc && x.whole && !x.segs.isEmpty && x.segs.all (fun y => match y.1 with
      | .hbm k => (lineKeys k y.2).all (fun key => (s.dhit p core key (max k (64 * key)) (min (k + y.2) (64 * key + 64))).isSome)
      | _ => false)
/-- R317: the vector registers that an LD brings to its lane, and when a dependent instruction may issue.  The rule gives the
time of a hit in the core data cache; no other LD takes less (log 55). -/
def State.latency (s : State) (e : RqEntry) (l : Nat) : List (Nat × Nat × Nat) :=
  match e.ins with
  | .ld _ d _ _ sz _ | .ldAcq _ d _ _ sz _ =>
    if s.cycle < e.at' + 24 then (if sz = .p then [d, d + 1] else [d]).map (fun n => (n, l, e.at' + 24)) else []
  | _ => []
/-- R229, R241: what follows the performance of a capture that acquires by fence have passed. -/
def State.afterAcq (s : State) (k : Nat) (x : Cap) : State :=
  match x.acq with | some a => s.acquire (s.ctx k) a.1 | none => s
/-- R19, R22, R187: a capture's access can be made now.  A contribution to a shadow line needs no merge of a word of its own
operation. -/
def State.mayGo (s : State) (c : Ctx) (e : RqEntry) (x : Cap) : Bool :=
  match e.ins, x.segs with
  | .reduce _ lvl _ _ op _ _, (l, n) :: _ => if s.usesShadow c lvl op l then s.answered c.pkg c.site [(l, n)] else s.travels c.pkg c.site x.segs
  | _, _ => s.travels c.pkg c.site x.segs
/-- R239: one lane of an entry is performed; not enabled while R208, R227, a fault, or a request that is held (R19, R22)
holds it back. -/
def performEvent (name : String) (c e l : Nat) (s : State) (f : RqEntry → Bool) : Out :=
  match (s.ctx c).entry e with
  | none => .fault (.notEnabled name)
  | some en =>
    match Sparse.find en.caps l with
    | none => .fault (.notEnabled name)
    | some x =>
      if x.done ∨ ¬ f en ∨ ¬ State.mayPerform (s.ctx c) en l x ∨ s.heldByEarly c en l x = true
          ∨ ¬ s.mayGo (s.ctx c) en x then .fault (.notEnabled name)
      else if x.stage ≠ 0 then .next ((s.homeStage c en l).settle c e)
      else match s.performCap c en l x with
        | none => .fault (.notEnabled name)
        | some t => .next ((t.modCtx c (fun y => { y with late := y.late ++ s.latency en l })).afterAcq c x |>.settle c e)
/-- `ACCESS_PERFORMED` (R239): of every access but contributions and `LDX`. -/
def execAccessPerformed (c e l : Nat) (s : State) : Out :=
  performEvent "ACCESS_PERFORMED" c e l s (fun en => decide (en.kind ≠ 3) && decide (en.kind < 6))
/-- `REDUCE_CONTRIBUTION` (R178, R181). -/
def execReduceContribution (c e l : Nat) (s : State) : Out :=
  performEvent "REDUCE_CONTRIBUTION" c e l s (fun en => decide (en.kind = 3))

/-- R227, R219: nothing of the lanes that precedes the entry is unperformed. -/
def Ctx.laneClear (c : Ctx) (id : Nat) (lanes : List Nat) : Bool :=
  !(c.before id).any (fun f => f.accesses && f.caps.any (fun y => lanes.contains (y.1 % 32) && !y.2.done))
/-- Bytes read at their homes for an engine access of a context (R187, R225, R258). -/
def State.engineRead (s : State) (c : Ctx) (l : List (Loc × Nat)) : State × List Byte :=
  l.foldl (fun (r : State × List Byte) y => let t := ((r.1.toHome c y.1 y.2).peerFill c.pkg c.site y.1 y.2).homeRead y.1 y.2; (t.1, r.2 ++ t.2)) (s, [])
/-- Bytes written at their homes for an engine access of a context. -/
def State.engineWrite (s : State) (c : Ctx) (l : List (Loc × Nat)) (bs : List Byte) : State :=
  (l.foldl (fun (r : State × List Byte) y =>
    (((r.1.toHome c y.1 y.2).peerFill c.pkg c.site y.1 y.2).writeHome true none (some c.sharer) y.1 (r.2.take y.2), r.2.drop y.2)) (s, bs)).1
/-- Bytes of a capture that a transfer moves: one word, or all that is left of it. -/
def Cap.parts (x : Cap) (only : Option Nat) : List (Nat × Nat) :=
  match only, x.got with
  | some j, _ => [(4 * j, 4)]
  | none, [] => [(0, x.len)]
  | none, _ => x.wordsLeft.map (fun j => (4 * j, 4))
/-- R219, R234: bytes of a lane's source are written to its place in core store. -/
def State.ldxMove (s : State) (c : Ctx) (x : Cap) (dst : Loc) (only : Option Nat) : State :=
  (x.parts only).foldl (fun s y =>
    let r := s.engineRead c [(x.placeAt y.1, y.2)]
    r.1.homeWrite none (some c.sharer) (dst.add y.1) r.2) s
/-- R219: a lane of an `LDX` may be moved: its source is translated, what precedes it in its lane is performed, and its
requests travel. -/
def State.ldxReady (s : State) (c : Ctx) (e : RqEntry) (l : Nat) (x : Cap) : Bool :=
  decide (e.kind = 6) && !x.done && x.whole && c.laneClear e.id [l] && s.travels c.pkg c.site x.segs
/-- `LDX_LANE_WRITE` (R219, R243): a lane's bytes are written into core store, a release at L2 takes place, and they are
counted. -/
def execLdxLaneWrite (c e l : Nat) (s : State) : Out :=
  let x := s.ctx c
  match x.entry e with
  | none => .fault (.notEnabled "LDX_LANE_WRITE")
  | some en =>
    match Sparse.find en.caps l with
    | none => .fault (.notEnabled "LDX_LANE_WRITE")
    | some cap =>
      if ¬ s.ldxReady x en l cap ∨ ¬ s.mayRelease x 2 then .fault (.notEnabled "LDX_LANE_WRITE")
      else match s.coreStore x (cap.data.headD 0).toNat cap.len with
        | .ok dst =>
          let s := ((s.ldxMove x cap dst none).release x 2).countBytes en.obj cap.len
          let s := s.modEntry c e (fun en => { en.modCap l (fun y => { y with done := true }) with
            counted := en.counted + cap.len })
          .next (s.settle c e)
        | _ => .fault (.notEnabled "LDX_LANE_WRITE")

/-- R234: one word of an engine's access is read, and of an `LDX` written, before the rest of its lane or block. -/
def State.engineWord (s : State) (k id l j : Nat) : State :=
  let c := s.ctx k
  match c.entry id with
  | none => s
  | some e => match Sparse.find e.caps l with
    | none => s
    | some x =>
      let mark := fun (s : State) (v : Word) => s.modEntry k id (fun e => e.modCap l (fun y => { y with got := Sparse.put y.got j v }))
      if ¬ x.wordsLeft.contains j then s
      else match e.ins with
      | .ldx .. =>
        if ¬ s.ldxReady c e l x then s
        else match s.coreStore c (x.data.headD 0).toNat x.len with
          | .ok dst => mark (s.ldxMove c x dst (some j)) 0
          | _ => s
      | .sfillA .. | .sfillB .. =>
        if x.done ∨ ¬ c.laneClear id (lanesOf (e.args.headD 0)) ∨ ¬ s.travels c.pkg c.site x.segs then s
        else
          let r := s.engineRead c [(x.placeAt (4 * j), 4)]
          mark r.1 (BitVec.ofNat 32 (natOfBytes r.2))
      | _ => s

/-! ### What the hardware may do unseen (R208, R234, R235, R238) -/

/-- R238: a lane's store may be written in its core's data cache (stage 1), and from there in its die's cache (stage 2):
its pages are translated, what it comes behind has come as far, and nothing older of the core that touches it stays. -/
def State.mayStage (s : State) (k : Nat) (e : RqEntry) (l : Nat) (x : Cap) : Bool :=
  let c := s.ctx k
  let n := x.stage + 1
  let older := aheadOf (fun y => y.isOf k e.id l) (s.pkg c.pkg).early
  stages e.ins && x.whole && !x.done && x.got.isEmpty && decide (n ≤ 2) && (s.coreOf c).isSome && s.clockRuns c.pkg c.site
    && x.segs.all (fun y => match y.1 with | .hbm _ => true | _ => false)
    && State.mayReach c e l x (fun _ y => decide (y.stage < n))
    && s.spansFree c.pkg c.site x.segs
    && (decide (n = 1) || (decide ((s.pkg c.pkg).carveMiB ≠ 0) && !older.any (fun y => !y.onDie && decide (y.core = c.site.loc))))
/-- The bytes of a store as they stand in its core's data cache, line by line. -/
def stagePieces (c : Ctx) (k : Nat) (e : RqEntry) (l : Nat) (x : Cap) : List Early :=
  let bs := (wordsBytes (x.data.drop x.progress)).take (x.len - 4 * x.progress)
  (x.segs.foldl (fun (r : List Early × List Byte) y =>
    match y.1 with
    | .hbm key => (r.1 ++ (lineKeys key y.2).map (fun line =>
        let lo := max key (64 * line)
        { die := c.site.die, core := c.site.loc, onDie := false, key := lo, ctx := k, entry := e.id, lane := l
          bytes := (r.2.drop (lo - key)).take (min (key + y.2) (64 * line + 64) - lo) }), r.2.drop y.2)
    | _ => r) ([], bs)).1
/-- R238: a lane's store is written in the core data cache. -/
def State.stageCore (s : State) (k : Nat) (e : RqEntry) (l : Nat) (x : Cap) : State :=
  let c := s.ctx k
  let s := x.segs.foldl (fun s y => ((s.mergeSpan c.pkg c.site y.1 y.2).releaseSpan y.1 y.2).peerFill c.pkg c.site y.1 y.2) s
  let s := s.modPkg c.pkg (fun q => { q with early := q.early ++ stagePieces c k e l x })
  s.modPkg c.pkg (fun q => { q with dlines := q.dlines.map (fun y =>
    if y.core = c.site.loc ∧ x.segs.any (fun z => match z.1 with | .hbm key => (lineKeys key z.2).contains y.key | _ => false)
    then { y with data := s.lineFor c.pkg y.core y.key, written := true, holes := s.lineHoles y.key } else y) })
/-- A lane's store reaches the next cache, where it may. -/
def State.stage (s : State) (k id l : Nat) : State :=
  match (s.ctx k).entry id with
  | none => s
  | some e => match Sparse.find e.caps l with
    | none => s
    | some x =>
      if s.mayStage k e l x then
        let c := s.ctx k
        let s := if x.stage = 0 then s.stageCore k e l x else s.toDie c.pkg c.site.die (fun y => y.isOf k e.id l)
        s.modEntry k e.id (fun e => e.modCap l (fun y => { y with stage := x.stage + 1 }))
      else s

/-- R208: the words of an access larger than 8 bytes are performed apart. -/
def wordwise : Instr → Bool
  | .ldm .. | .stm .. | .ldt .. | .stt .. | .ldsc .. | .sld .. | .sst .. => true
  | _ => false
/-- R208, R234: one word of a lane's access is performed alone. -/
def State.performWord (s : State) (k id l j : Nat) : State :=
  match (s.ctx k).entry id with
  | none => s
  | some e => match Sparse.find e.caps l with
    | none => s
    | some x =>
      let c := s.ctx k
      let w := x.oneWord j
      if ¬ wordwise e.ins ∨ x.len ≤ 8 ∨ ¬ e.flies x ∨ x.stage ≠ 0 ∨ ¬ x.wordsLeft.contains j
          ∨ ¬ State.mayPerform c e l w ∨ s.heldByEarly k e l w = true ∨ ¬ s.mayGo c e w then s
      else
        let mark := fun (s : State) (v : Word) => s.modEntry k id (fun e => e.modCap l (fun y => { y with got := Sparse.put y.got j v }))
        if accOf e.ins = .write then
          mark (s.writeSegs true c w (wordsBytes ((x.data.drop (x.progress + j)).take 1))) 0
        else
          let r := s.readSegs c w
          mark r.1 (BitVec.ofNat 32 (natOfBytes r.2))

end Sys2Proof.Machine
end

