-- ==== Sys2Proof/Machine/Reduce.lean ====
section
/-! DEFINITION. `REDUCE`, major 0x33 (R174 to R179). -/

namespace Sys2Proof.Machine

/-- R177: the reduction of the voting lanes' values at L0. -/
def reduceL0 (op : RedOp) (vs : List Word) : Word × BitVec 6 :=
  match op with
  | .fadd => asWord (roundArith .fp32 false (sumV (vs.map f32)))
  | _ => (match vs with | [] => 0 | v :: r => r.foldl (redInt op) v, 0)
/-- R175, R203: the core-store place of a contribution, whose rank must name the issuing team. -/
def State.ownStore (s : State) (c : Ctx) (addr n : Nat) : LRes :=
  match s.coreStore c addr n with
  | .ok (.store u o) => if u = c.unit then .ok (.store u o) else .fault 8
  | .team _ => .fault 8
  | r => r
/-- R178: the requests of an issue's contributions. -/
def redReqs (c : Ctx) (act : List Nat) (lvl x y : Nat) (one : Bool) : List Req :=
  let base := if lvl < 3 then (c.rdG x).toNat else c.rdPairG x
  let wrap := if lvl < 3 then 2 ^ 32 else 2 ^ 64
  act.map (fun l => { lane := l, va := (base + (if one then 0 else 4 * l)) % wrap, len := 4, align := 4, data := [c.rdV y l]
                      hints := (c.lane l).hints : Req })
/-- R175: where a contribution to a local space leads. -/
def State.redPlace (s : State) (c : Ctx) (lvl : Nat) (r : Req) : LRes :=
  if lvl = 1 then s.ownStore c r.va r.len else s.clusterMem c r.va r.len
/-- R207: the check at issue that the contributions of an issue fail. -/
def redFault (s : State) (c : Ctx) (act : List Nat) (lvl x y : Nat) (one : Bool) : Option (Nat × List Nat × Nat) :=
  if lvl < 3 then localFault (s.redPlace c lvl) (redReqs c act lvl x y one) else reqFault (redReqs c act lvl x y one)
/-- R178, R179: the contributions of an issue. -/
def contributions (i : Instr) (s : State) (c : Ctx) (act : List Nat) (lvl x y : Nat) (one : Bool) : Eff :=
  if lvl < 3 then localIssue i s c (act.headD 0) 3 (some .store) [] [] (s.redPlace c lvl) (redReqs c act lvl x y one)
  else memIssue i s c (act.headD 0) 3 .atomic (some .store) [] [] false (redReqs c act lvl x y one)
/-- `REDUCE` (R174 to R179). -/
def execReduce (g : Guard) (lvl x y : Nat) (op : RedOp) (one r : Bool) (s : State) : Out :=
  gate (.reduce g lvl x y op one r) s (fun s c act =>
    if lvl < s.ctxLevel c then .trap 2 act lvl
    else if lvl = 0 then
      let v := reduceL0 op (act.map (fun l => c.rdV y l))
      .ok (s.modCtx s.cur.ctx (fun c => (c.wrG x v.1).setFlags v.2))
    else
      let go := fun s act => contributions (.reduce g lvl x y op one r) s c act lvl x y one
      faultsFirst (redFault s c act lvl x y one) <| if ¬ r then go s act
      else if one then releasingOnce s c act lvl (fun s => go s act)
      else releasing s c act lvl go)

end Sys2Proof.Machine
end

