-- ==== Sys2Proof/Machine/Stream.lean ====
section
/-! DEFINITION. Operand streams: `SFILL` and the arrival of blocks (R153, R157 to R160). -/

namespace Sys2Proof.Machine

/-- The groups that share a core with a context. -/
def State.coreGroups (s : State) (c : Ctx) : List (Nat × Ctx) :=
  s.ctxs.filter (fun x => decide (x.2.kind = .group) && x.2.placed && (s.unit x.2.unit).inPlace && decide (x.2.pkg = c.pkg)
    && decide (x.2.site = c.site))
/-- The stream of a context. -/
def Ctx.stream (c : Ctx) (isB : Bool) : Stream := if isB then c.strB else c.strA
/-- The stream of a context changed. -/
def Ctx.modStream (c : Ctx) (isB : Bool) (f : Stream → Stream) : Ctx :=
  if isB then { c with strB := f c.strB } else { c with strA := f c.strA }
/-- R157: block slots of a core's stream that are held. -/
def State.blocksHeld (s : State) (c : Ctx) (isB : Bool) : Nat :=
  (s.coreGroups c).foldl (fun n x => n + (x.2.stream isB).blocks.length) 0
/-- The scale payloads that a tile's tag names, as a scale record (R153). -/
def Ctx.tileRecord (c : Ctx) (t : Nat) : List Byte :=
  (runRegs (tagIndex (c.ttag t)) (tagLog (c.ttag t))).flatMap c.sPayload
/-- A local range of `SFILL`: its place. -/
def State.fillPlace (s : State) (c : Ctx) (sp addr n : Nat) : LRes :=
  if sp = 0 then s.coreStore c addr n else s.clusterMem c addr n
/-- The first fault among local ranges. -/
def firstBad (l : List (Nat × LRes)) : Option (Nat × Nat) :=
  l.findSome? (fun r => match r.2 with | .fault k => some (k, r.1) | _ => none)
/-- The first team of local ranges that is not placed. -/
def firstFar (l : List (Nat × LRes)) : Option Nat :=
  l.findSome? (fun r => match r.2 with | .team u => some u | _ => none)

/-- R158: tile m of a fill from tiles. -/
def fillTile (src : Word) (o : Int) (m : Nat) : Int := (wbits src 3 0 : Int) + m + o
/-- R69, R158: the tiles and scale registers that a fill reads at issue. -/
def Ctx.fillRegs (c : Ctx) (sl : Slot) (src : Word) (o : Int) (n : Nat) : List RegName :=
  let tiles := if wbits src 31 30 = 2 then (List.range n).map (fun m => (fillTile src o m).toNat) else []
  let runs := if sl.run.isSome then tiles.flatMap (fun t => runRegs (tagIndex (c.ttag t)) (tagLog (c.ttag t))) else []
  tiles.map .t ++ runs.map .s
/-- R158: the local ranges that a fill reads its n blocks from, with the offset o: the data, and the records of R bytes. -/
def State.fillData (s : State) (c : Ctx) (src : Word) (o : Int) (n : Nat) : List (Nat × LRes) :=
  if 2 ≤ wbits src 31 30 then [] else (List.range n).map (fun m =>
    let a := (((wbits src 22 0 : Int) + 1024 * (m + o)) % 2 ^ 32).toNat
    (a, s.fillPlace c (wbits src 31 30) a 1024))
/-- The records of a fill. -/
def State.fillRecords (s : State) (c : Ctx) (src rec' : Word) (R : Nat) (o : Int) (n : Nat) : List (Nat × LRes) :=
  if 2 ≤ wbits src 31 30 ∨ R = 0 then [] else (List.range n).map (fun m =>
    let a := (((wbits rec' 22 0 : Int) + R * (m + o)) % 2 ^ 32).toNat
    (a, s.fillPlace c (wbits rec' 31 30) a R))
/-- The barrier object that a fill counts into, if it counts. -/
def State.fillObject (s : State) (c : Ctx) (ctl : Word) : List (Nat × LRes) :=
  if wbits ctl 25 25 = 1 then [(ctl.toNat % 2 ^ 24, s.objectRef c (ctl.toNat % 2 ^ 25))] else []
/-- The effect of `SFILL` (R158, R159). -/
def fill (isB : Bool) (i : Instr) (d b : Nat) (off : Int) (s : State) (c : Ctx) (l : Nat) : Eff :=
  let ctl := c.rdG d
  let src := c.rdG b
  let rec' := c.rdG (b + 1)
  let n := wbits ctl 31 29 + 1
  let slotNo := wbits ctl 28 26
  let sl := slotOf (s.fmtOf c) slotNo
  let R := sl.recordBytes
  let o := wideImm 6 off (c.lane l).hints
  let st := c.stream isB
  let sp := wbits src 31 30
  let spR := wbits rec' 31 30
  let count := wbits ctl 25 25 = 1
  let tile := fillTile src o
  let ms := List.range n
  if 8 < s.blocksHeld c isB + n then .hold (.blocks isB n)
  else if sl.elem = 0 then .trap 1 [l] 0
  else if sp = 3 ∨ wbits src 29 23 ≠ 0
      ∨ (sp = 2 ∧ (wbits src 22 4 ≠ 0 ∨ sl.elem = 7 ∨ ms.any (fun m => decide (tile m < 0) || decide (15 < tile m))))
      ∨ (sp < 2 ∧ R ≠ 0 ∧ (2 ≤ spR ∨ wbits rec' 29 23 ≠ 0))
      ∨ 8 < (st.fill + n + 2 ^ 16 - st.cons) % 2 ^ 16 then .trap 11 [l] 0
  else
    let badTile := ms.find? (fun m => decide (sp = 2) && decide (s.limit c (.t 0) ≤ (tile m).toNat))
    match badTile with
    | some m => .trap 5 [l] (tile m).toNat
    | none =>
      ordered s c (c.fillRegs sl src o n) <|
      let stale := match sl.run with
        | some sh => decide (sp = 2) && ms.any (fun m => !c.tCurrent (tile m).toNat sh)
        | none => false
      let dR := s.fillData c src o n
      let rR := s.fillRecords c src rec' R o n
      let oR := s.fillObject c ctl
      let obj := match oR with | [(_, .ok x)] => x | _ => Loc.none
      let mis := (dR.filter (fun r => decide (r.1 % 64 ≠ 0))) ++ (rR.filter (fun r => decide (r.1 % 32 ≠ 0)))
        ++ (oR.filter (fun r => decide (r.1 % 16 ≠ 0)))
      if stale then .trap 10 [l] 0
      else match mis, firstBad (dR ++ rR ++ oR), firstFar (dR ++ rR ++ oR) with
        | r :: _, _, _ => .trap 7 [l] r.1
        | [], some (k, a), _ => .trap k [l] a
        | [], none, some u => .wait s (.team u)
        | [], none, none =>
          let block : Nat → Block := fun m =>
            { pos := (st.fill + m) % 2 ^ 16, slot := slotNo, arrived := decide (sp = 2), entry := c.nextId
              data := if sp = 2 then c.rdTile (tile m).toNat else []
              record := if sp = 2 ∧ sl.run.isSome then c.tileRecord (tile m).toNat else [] }
          let s1 := s.modCtx s.cur.ctx (fun c => c.modStream isB (fun x =>
            { x with fill := (x.fill + n) % 2 ^ 16, blocks := x.blocks ++ ms.map block }))
          if sp = 2 then
            .ok (if count then ms.foldl (fun s _ => s.countBytes obj (1024 + (if sl.run.isSome then R else 0))) s1 else s1)
          else match s.noRoom c (some .stream) false 0 with
            | some h => .hold h
            | none =>
              let loc := fun (r : Nat × LRes) => match r.2 with | .ok x => [x] | _ => []
              let caps := dR.zipIdx.foldl (fun (m : Sparse Cap) r =>
                Sparse.put m r.2 { va := r.1.1, len := 1024, pages := loc r.1, data := [BitVec.ofNat 32 (block r.2).pos] }) []
              let caps := rR.zipIdx.foldl (fun (m : Sparse Cap) r =>
                Sparse.put m (32 + r.2) { va := r.1.1, len := R, pages := loc r.1 }) caps
              let e := s.mkEntry c i l 7 (some .stream) [] caps [maskOf (s.cohort c)]
              .ok (s1.addEntry s.cur.ctx { e with obj := obj })
/-- `SFILL.a` (R158, R159). -/
def execSfillA (g : Guard) (d b : Nat) (off : Int) (s : State) : Out :=
  oncePerIssue (.sfillA g d b off) s (fun s c l _ => fill false (.sfillA g d b off) d b off s c l)
/-- `SFILL.b` (R158, R159). -/
def execSfillB (g : Guard) (d b : Nat) (off : Int) (s : State) : Out :=
  oncePerIssue (.sfillB g d b off) s (fun s c l _ => fill true (.sfillB g d b off) d b off s c l)

/-- `BLOCK_ARRIVAL` (R158, R160): block blk of a fill from memory has been read. -/
def execBlockArrival (c e blk : Nat) (s : State) : Out :=
  let x := s.ctx c
  match x.entry e with
  | none => .fault (.notEnabled "BLOCK_ARRIVAL")
  | some en =>
    let isB := match en.ins with | .sfillB .. => some true | .sfillA .. => some false | _ => none
    match isB, Sparse.find en.caps blk with
    | some isB, some cap =>
      let rcap := (Sparse.find en.caps (32 + blk)).getD {}
      let recd := rcap.segs
      if 32 ≤ blk ∨ cap.done ∨ ¬ x.laneClear e (lanesOf (en.args.headD 0)) ∨ ¬ s.travels x.pkg x.site (cap.segs ++ recd) then
        .fault (.notEnabled "BLOCK_ARRIVAL")
      else
        let a := s.engineRead x cap.segs
        let b := a.1.engineRead x recd
        let s := b.1
        let p := (cap.data.headD 0).toNat
        let s := s.modCtx c (fun x => x.modStream isB (fun st => { st with blocks := st.blocks.map (fun y =>
          if y.pos = p ∧ y.arrived = false then { y with arrived := true, data := cap.withGot a.2, record := rcap.withGot b.2 } else y) }))
        let bytes := a.2.length + b.2.length
        let s := if en.obj = .none then s else s.countBytes en.obj bytes
        let s := s.modEntry c e (fun en =>
          { (en.modCap blk (fun y => { y with done := true })).modCap (32 + blk) (fun y => { y with done := true }) with
            counted := en.counted + (if en.obj = .none then 0 else bytes) })
        .next (s.settle c e)
    | _, _ => .fault (.notEnabled "BLOCK_ARRIVAL")

end Sys2Proof.Machine
end

