-- ==== Sys2Proof/Machine/Matrix.lean ====
section
/-! DEFINITION. The matrix engine: convergence and `MMA`, passes, the INT4 prologue, and accumulators, majors
0x2C and 0x2D (R152 to R156, R160 to R166). -/

namespace Sys2Proof.Machine

/-! ### Convergence registers (R70, R161) -/

/-- Convergence register v of a team. -/
def WUnit.cv (u : WUnit) (v : Nat) : CvReg := Sparse.get {} u.cvs v
/-- A convergence register of a team written. -/
def State.setCv (s : State) (u v : Nat) (r : CvReg) : State :=
  s.modUnit u (fun x => { x with cvs := Sparse.set {} x.cvs v r })
/-- R161: declared lanes sign; a complete set stops collecting. -/
def CvReg.sign (r : CvReg) (m : Word) : CvReg :=
  let x := r.signed ||| (m &&& r.decl)
  { r with signed := x, coll := r.coll && decide (x ≠ r.decl) }
/-- R161: the anchor of a declared set. -/
def CvReg.anchor (r : CvReg) : Nat := ((lanesOf r.decl).head?).getD 0
/-- R70: the owning group waits, in an `MMA` of its anchor, for the operation that the register gates. -/
def State.cvGates (s : State) (u v : Nat) (r : CvReg) : Bool :=
  (s.groupsOf u).any (fun x => decide (x.2.index = r.owner)
    && decide ((x.2.lane r.anchor).wait = .converge v true))
/-- `CVDECL` (R161): the lanes that it finds exited sign by it, so their accesses come first (R160). -/
def execCvdecl (g : Guard) (v a : Nat) (s : State) : Out :=
  oncePerIssue (.cvdecl g v a) s (fun s c l _ =>
    let r := (s.unit c.unit).cv v
    if r.owner = c.index ∧ r.coll then .trap 0x0C [l] 0
    else if r.owner ≠ c.index ∧ (r.coll ∨ s.cvGates c.unit v r) then .wait s (.converge v false)
    else
      let d := c.rdG a
      let x := d &&& c.exitedMask
      match (c.unperformed s.cur.ctx (lanesOf x) (s.reach c 1)).map (·.2) with
      | [] => .ok (s.setCv c.unit v { owner := c.index, coll := decide (x ≠ d), signed := x, decl := d })
      | ids => .wait s (.order ids))
/-- `CVSIGN` (R160, R161): a release at L1 by each signer. -/
def execCvsign (g : Guard) (v : Nat) (s : State) : Out :=
  gate (.cvsign g v) s (fun s c act =>
    releasing s c act 1 (fun s act =>
      let r := (s.unit c.unit).cv v
      if r.owner = c.index then .ok (s.setCv c.unit v (r.sign (maskOf act))) else .ok s))

/-! ### Engines and their entries (R163, R164) -/

/-- The groups that share a context's engine: those of its physical cluster (R47, R163). -/
def State.engineGroups (s : State) (c : Ctx) : List (Nat × Ctx) :=
  s.ctxs.filter (fun x => decide (x.2.kind = .group) && x.2.placed && (s.unit x.2.unit).inPlace && decide (x.2.pkg = c.pkg)
    && decide (x.2.site.clusNo = c.site.clusNo))
/-- An entry waiting in the reservation table. -/
def RqEntry.ungranted (e : RqEntry) : Bool := match e.pass with | some p => !p.granted | none => false
/-- R163: reservation-table entries of an engine in use. -/
def State.reservations (s : State) (c : Ctx) : Nat :=
  (s.engineGroups c).foldl (fun n x => n + (x.2.rq.filter RqEntry.ungranted).length) 0
/-- R164: drain-queue entries of an engine in use. -/
def State.drains (s : State) (c : Ctx) : Nat :=
  (s.engineGroups c).foldl (fun n x => n + (x.2.rq.filter (fun e => decide (e.kind = 8))).length) 0
/-- The accumulator that an engine instruction names. -/
def accOfIns : Instr → Option Nat
  | .mma _ _ _ c _ _ _ => some c
  | .accrdT _ _ c _ _ | .accrdV _ _ c _ | .accrdC _ _ c _ => some c
  | _ => none
/-- R171: the ungranted entries of a group that returns to a core are posted anew, in their order. -/
def RqEntry.postedAt (e : RqEntry) (now : Nat) : RqEntry :=
  { e with pass := e.pass.map (fun p => if p.granted then p else { p with posted := now }) }
/-- R164: the entries of a context on an accumulator. -/
def accEntries (es : List RqEntry) (a : Nat) : List RqEntry := es.filter (fun e => decide (accOfIns e.ins = some a))

/-! ### `MMA` (R162) -/

/-- R157: a position lies in a stream's window. -/
def Stream.inWindow (x : Stream) (p : Nat) : Bool :=
  decide ((p + 2 ^ 16 - x.cons) % 2 ^ 16 < (x.fill + 2 ^ 16 - x.cons) % 2 ^ 16)
/-- The block at a position of a stream. -/
def Stream.at (x : Stream) (p : Nat) : Option Block := x.blocks.find? (fun b => decide (b.pos = p))
/-- The anchor lane stays at its `MMA` with a wait; the other lanes pass it. -/
def anchorWaits (s : State) (act : List Nat) (anchor : Nat) (w : Wait) : Eff :=
  .okPc (s.modCtx s.cur.ctx (fun c =>
    (c.advance (act.filter (fun l => decide (l ≠ anchor)))).modLane anchor (fun x => { x with wait := w })))
/-- The counters of the streams and the quarter after an `MMA` posts (R162). -/
def Ctx.consume (c : Ctx) (ka kb ovA ovB int4 : Bool) : Ctx :=
  let c := if ovA || ka then c else { c with strA := { c.strA with cons := (c.strA.cons + 1) % 2 ^ 16 } }
  if ovB || kb then c
  else
    let next := { c with strB := { c.strB with cons := (c.strB.cons + 1) % 2 ^ 16 } }
    if int4 then (if c.quarter = 3 then { next with quarter := 0 } else { c with quarter := c.quarter + 1 }) else next
/-- The posting of an `MMA` by the anchor lane, its set complete. -/
def postMma (i : Instr) (s : State) (c : Ctx) (act : List Nat) (anchor v : Nat) (signing ka kb : Bool) (fa fb : Nat) : Eff :=
  let hs := (c.lane anchor).hints
  let ovA := posHint false hs
  let ovB := posHint true hs
  let pA := ovA.getD c.strA.cons
  let pB := ovB.getD c.strB.cons
  let int4 := decide ((slotOf (s.fmtOf c) fb).elem = 7)
  let ok := fun (st : Stream) (p f : Nat) => st.inWindow p && ((st.at p).any (fun b => decide (b.slot = f)))
  if ¬ ok c.strA pA fa ∨ ¬ ok c.strB pB fb ∨ (int4 ∧ ovB.isSome) then .trap 0x0B [anchor] 0
  else
    let full := match s.noRoom c (some .matrix) false 0 with
      | some h => some h
      | none => if 32 ≤ s.reservations c then some .reservation else none
    match full with
    | some h => if signing then anchorWaits s act anchor (.converge v true) else .hold h
    | none =>
      let e := s.mkEntry c i anchor 7 (some .matrix) [] [(anchor, {})] []
      let p : Pass := { posA := pA, posB := pB, quarter := if int4 then c.quarter else 0, prio := c.prio
                        ovA := ovA.isSome, ovB := ovB.isSome, gs64 := c.gs64, posted := s.cycle, granted := false }
      .ok ((s.addEntry s.cur.ctx { e with pass := some p }).modCtx s.cur.ctx (fun c => c.consume ka kb ovA.isSome ovB.isSome int4))
/-- `MMA` (R161, R162): signs, waits for its convergence set and posts one pass, in its anchor lane alone. -/
def execMma (g : Guard) (ka kb : Bool) (a fa fb v : Nat) (s : State) : Out :=
  gate (.mma g ka kb a fa fb v) s (fun s c act =>
    let r := (s.unit c.unit).cv v
    if r.owner ≠ c.index ∨ r.decl = 0 then .trap 0x0C [act.headD 0] 0
    else if ¬ act.contains r.anchor then .ok s
    else
      let n := r.anchor
      let signing := !r.signed.getLsbD n
      match if signing then c.unperformed s.cur.ctx [n] (s.reach c 1) else [] with
      | x :: xs => anchorWaits s act n (.release (x :: xs) true true (s.reach c 1) 1)
      | [] =>
        let r' := r.sign (maskOf [n])
        let s := if signing then (s.release c 1).setCv c.unit v r' else s
        if r'.coll then anchorWaits s act n (.converge v true)
        else postMma (.mma g ka kb a fa fb v) s c act n v signing ka kb fa fb)
/-- `PROCFG` (R155). -/
def execProcfg (g : Guard) (s64 : Bool) (s : State) : Out :=
  oncePerIssue (.procfg g s64) s (fun s _ _ _ => .ok (s.modCtx s.cur.ctx (fun c => { c with gs64 := s64 })))

/-! ### A pass (R152 to R156) -/

/-- K of R152, from the format of A. -/
def passK (elem : Nat) : Nat := match elem with | 1 | 2 => 32 | 5 => 128 | _ => 64
/-- Byte n of a list. -/
def byteAt (bs : List Byte) (n : Nat) : Nat := (bs.getD n 0).toNat
/-- R61: the code of element k of row i of a block's data. -/
def blockCode (w : Nat) (bs : List Byte) (i k : Nat) : Nat :=
  match w with
  | 16 => byteAt bs (64 * i + 2 * k) + 256 * byteAt bs (64 * i + 2 * k + 1)
  | 8 => byteAt bs (64 * i + k)
  | _ => byteAt bs (64 * i + k / 2) / 16 ^ (k % 2) % 16
/-- R65, R112, R154: the value of element (i, k) of a block under a slot. -/
def blockVal (sl : Slot) (data rec : List Byte) (i k : Nat) : FVal × BitVec 6 :=
  let q := blockCode sl.fmt.width data i k
  match sl.run with
  | none => (readF sl.fmt q, 0)
  | some sh =>
    let base := 32 * (i / sh.rows)
    let blk := i % sh.rows * sh.blocks + k / 8
    if sh.band then
      scaledVal sl.fmt q (byteAt rec (base + 8 + blk))
        (some (byteAt rec (base + 2 * (i % sh.rows)) + 256 * byteAt rec (base + 2 * (i % sh.rows) + 1)))
    else scaledVal sl.fmt q (byteAt rec (base + blk)) none
/-- R156: the value of element (j, k) of quarter q of an INT4 block. -/
def int4Val (gs64 : Bool) (q : Nat) (data rec : List Byte) (j k : Nat) : FVal × BitVec 6 :=
  let kk := 32 * q + k
  let grp := kk / (if gs64 then 64 else 32)
  let code := signedOf 16 (blockCode 4 data j kk)
  let zp := signedOf 16 ((byteAt rec (128 + 2 * j) + 256 * byteAt rec (129 + 2 * j)) / 16 ^ grp % 16)
  let sc := readF .bf16 (byteAt rec (8 * j + 2 * grp) + 256 * byteAt rec (8 * j + 2 * grp + 1))
  let d := code - zp
  let r := roundArith .bf16 false (mulV (.fin (decide (d < 0)) d.natAbs 0) sc)
  (readF .bf16 r.1, r.2)
/-- R154: the exact sum of one K-group; the product of an integer zero has the sign of its other factor (log 76). -/
def dotV (xs ys : List (FVal × BitVec 6)) : FVal × BitVec 6 :=
  let fl := (xs ++ ys).foldl (fun f x => f ||| x.2) 0
  if (xs ++ ys).any (fun x => x.1.isNaN) then (.nan, fl)
  else
    let ps := List.zipWith (fun x y => mulV x.1 y.1) xs ys
    if ps.any (fun p => p.1.isNaN) then (.nan, fl ||| fNV)
    else let t := sumV (ps.map (·.1)); (t.1, fl ||| t.2)
/-- R154: one element of C after a K-group. -/
def accStep (c : Word × BitVec 6) (x : FVal × BitVec 6) : Word × BitVec 6 :=
  let s := roundArith .fp32 false x
  let r := roundArith .fp32 false (sumV [f32 c.1, readF .fp32 s.1])
  (BitVec.ofNat 32 r.1, c.2 ||| s.2 ||| r.2)
/-- R154: one element of C after a pass, from a row of A and a column of B. -/
def accPass (c : Word) (row col : List (FVal × BitVec 6)) : Word × BitVec 6 :=
  let g := row.length / 2
  accStep (accStep (c, 0) (dotV (row.take g) (col.take g))) (dotV (row.drop g) (col.drop g))
/-- The operands of a pass as its entry holds them once granted: data and record of A, then of B. -/
structure PassData where
  a : List Byte
  ra : List Byte
  b : List Byte
  rb : List Byte
  deriving DecidableEq, Repr, Inhabited
/-- The record size that a pass takes with an operand (R153). -/
def passRecord (sl : Slot) : Nat := sl.recordBytes
/-- R154: an accumulator of a group after a pass, and the pass's flags. -/
def Ctx.applyPass (c : Ctx) (acc : Nat) (sa sb : Slot) (p : Pass) (x : PassData) : Ctx :=
  let K := passK sa.elem
  let rows := (List.range 16).map (fun i => (List.range K).map (fun k => blockVal sa x.a x.ra i k))
  let cols := (List.range 16).map (fun j => (List.range K).map (fun k =>
    if sb.elem = 7 then int4Val p.gs64 p.quarter x.b x.rb j k else blockVal sb x.b x.rb j k))
  rows.zipIdx.foldl (fun c r => cols.zipIdx.foldl (fun c q =>
    let y := accPass (c.rdAcc acc r.2 q.2) r.1 q.1
    (c.wrAcc acc r.2 q.2 y.1).setFlags y.2) c) c

/-! ### Grant and completion (R163) -/

/-- R172: the passes of a team in the array. -/
def State.teamPasses (s : State) (u : Nat) : Nat :=
  (s.groupsOf u).foldl (fun n x => n + (x.2.rq.filter (fun e => e.pass.any (fun p => p.granted))).length) 0
/-- The entry of a group that its engine considers: its oldest ungranted one, when both blocks have arrived, no
accumulator instruction before it holds its accumulator, the group runs and is not halted, and its team has at most one
pass in the array (R172). -/
def State.readyPass (s : State) (c : Ctx) : Option (RqEntry × Pass) :=
  match c.rq.find? RqEntry.ungranted with
  | none => none
  | some e => match e.pass with
    | none => none
    | some p =>
      let here := fun (st : Stream) (q : Nat) => (st.at q).any (fun b => b.arrived)
      let held := (c.before e.id).any (fun f => decide (f.kind = 8) && decide (accOfIns f.ins = accOfIns e.ins))
      if here c.strA p.posA && here c.strB p.posB && !held && !c.halted && !c.haltPend
          && decide ((s.unit c.unit).st = .running) && s.clockRuns c.pkg c.site && decide (s.teamPasses c.unit < 2) then some (e, p) else none
/-- R163: the arbiter's order: an entry that has waited 512 cycles or more first, the oldest of those; then the
highest priority, among equals the oldest. -/
def passBefore (now : Nat) (x y : Pass) : Bool :=
  let ox := decide (512 ≤ now - x.posted)
  let oy := decide (512 ≤ now - y.posted)
  if ox != oy then ox
  else if ox then decide (x.posted < y.posted)
  else if x.prio ≠ y.prio then decide (y.prio < x.prio)
  else decide (x.posted < y.posted)
/-- R163: the group to which an engine's next grant goes. -/
def State.passChoice (s : State) (c : Ctx) : Option Nat :=
  ((s.engineGroups c).foldl (fun (b : Option (Nat × Pass)) x =>
    match s.readyPass x.2, b with
    | none, _ => b
    | some r, none => some (x.1, r.2)
    | some r, some q => if passBefore s.cycle r.2 q.2 then some (x.1, r.2) else b) none).map (·.1)
/-- What a pass captures of a block at its grant: 1,024 data bytes, then its record padded to the 512 bytes of the largest
(R153, R171). -/
def Block.captured (b : Block) : List Byte :=
  (b.data ++ List.replicate 1024 0).take 1024 ++ (b.record ++ List.replicate 512 0).take 512
/-- `PASS_GRANT` (R157, R163): the pass starts, reads its blocks, and frees those that it consumes. -/
def execPassGrant (k : Nat) (s : State) : Out :=
  let c := s.ctx k
  match s.readyPass c, decide (s.passChoice c = some k) with
  | some (e, p), true =>
    let a := ((c.strA.at p.posA).getD default)
    let b := ((c.strB.at p.posB).getD default)
    let (ka, kb) := match e.ins with | .mma _ x y .. => (x, y) | _ => (false, false)
    let int4 := match e.ins with
      | .mma _ _ _ _ _ fb _ => decide ((slotOf (s.fmtOf c) fb).elem = 7)
      | _ => false
    let dropA := !ka && !p.ovA
    let dropB := !kb && !p.ovB && (!int4 || decide (p.quarter = 3))
    let drop := fun (yes : Bool) (st : Stream) (q : Nat) =>
      if yes then { st with blocks := st.blocks.filter (fun x => decide (x.pos ≠ q)) } else st
    let s := s.modEntry k e.id (fun e =>
      { e.modCap e.leader (fun x => { x with data := bytesWords (a.captured ++ b.captured) }) with
        pass := some { p with granted := true } })
    .next (s.modCtx k (fun c => { c with strA := drop dropA c.strA p.posA, strB := drop dropB c.strB p.posB }))
  | _, _ => .fault (.notEnabled "PASS_GRANT")
/-- R154: the oldest granted pass of a group writes its accumulator. -/
def State.completePass (s : State) (k : Nat) : Option State :=
  let c := s.ctx k
  match c.rq.find? (fun e => e.pass.any (fun p => p.granted)) with
  | none => none
  | some e =>
    match e.ins, e.pass with
    | .mma _ _ _ acc fa fb _, some p =>
      let fs := s.fmtOf c
      let bs := wordsBytes (((Sparse.find e.caps e.leader).getD {}).data)
      let sa := slotOf fs fa
      let sb := slotOf fs fb
      let x : PassData := { a := bs.take 1024, ra := (bs.drop 1024).take (passRecord sa)
                            b := (bs.drop 1536).take 1024, rb := (bs.drop 2560).take (passRecord sb) }
      some ((s.modCtx k (fun c => c.applyPass acc sa sb p x)).dropEntry k e.id)
    | _, _ => none
/-- `PASS_COMPLETE` (R154, R162): in the array of the group's own engine. -/
def execPassComplete (k : Nat) (s : State) : Out :=
  let c := s.ctx k
  match (s.unit c.unit).inPlace && s.clockRuns c.pkg c.site, s.completePass k with
  | true, some t => .next t
  | _, _ => .fault (.notEnabled "PASS_COMPLETE")

/-! ### Accumulators (R164 to R166) -/

/-- `RoundSlot` of R104 from an FP32 code. -/
def roundSlot (sl : Slot) (x : Word) : Nat × BitVec 6 := roundV sl.fmt sl.rtz sl.sat (f32 x)
/-- Codes of w bits packed, the first lowest. -/
def packCodes (w : Nat) (l : List Nat) : Nat := l.foldr (fun c n => c + 2 ^ w * n) 0
/-- The issue of an `ACCRD` (R164, R165): an entry of the drain queue. -/
def drain (i : Instr) (s : State) (c : Ctx) (l : Nat) (cls : Option CClass) (holds : List RegName) (cap : Cap)
    (args : List Word) : Eff :=
  let room : Bool := match cls with | some k => decide (c.counter k < 63) | none => true
  if 16 ≤ s.drains c then .hold .drain
  else if !room then .hold (.counter .store)
  else .ok (s.addEntry s.cur.ctx (s.mkEntry c i l 8 cls holds [(l, cap)] args))
/-- `ACCRD.t` (R165). -/
def execAccrdT (g : Guard) (d a f h : Nat) (s : State) : Out :=
  oncePerIssue (.accrdT g d a f h) s (fun s c l _ => drain (.accrdT g d a f h) s c l none [.t d] {} [])
/-- `ACCRD.v` (R165). -/
def execAccrdV (g : Guard) (d a f : Nat) (s : State) : Out :=
  gate (.accrdV g d a f) s (fun s c act =>
    drain (.accrdV g d a f) s c (act.headD 0) none (vRun d (8 * (slotOf (s.fmtOf c) f).fmt.width / 32)) {} [maskOf act])
/-- `ACCRD.c` (R165): a store of the leader lane. -/
def execAccrdC (g : Guard) (d a f : Nat) (s : State) : Out :=
  oncePerIssue (.accrdC g d a f) s (fun s c l _ =>
    let va := (c.rdG d).toNat
    let n := 32 * (slotOf (s.fmtOf c) f).fmt.width
    if va % 64 ≠ 0 then .trap 7 [l] va
    else match s.coreStore c va n with
      | .fault k => .trap k [l] va
      | .team u => .wait s (.team u)
      | .ok o => drain (.accrdC g d a f) s c l (some .store) [] { va := va, len := n, pages := [o] } [])
/-- The codes of some accumulator elements under a slot, and their flags. -/
def Ctx.accCodes (c : Ctx) (a : Nat) (sl : Slot) (l : List (Nat × Nat)) : List Nat × BitVec 6 :=
  let r := l.map (fun p => roundSlot sl (c.rdAcc a p.1 p.2))
  (r.map (·.1), r.foldl (fun f x => f ||| x.2) 0)
/-- R165: the byte image of an accumulator under a slot, and its flags. -/
def Ctx.accImage (c : Ctx) (a : Nat) (sl : Slot) : List Byte × BitVec 6 :=
  let r := c.accCodes a sl ((List.range 256).map (fun n => (n / 16, n % 16)))
  (bytesOfNat (32 * sl.fmt.width) (packCodes sl.fmt.width r.1), r.2)
/-- R165: the effect of an `ACCRD` entry. -/
def State.applyAccrd (s : State) (k : Nat) (e : RqEntry) : State :=
  let fs := s.fmtOf (s.ctx k)
  match e.ins with
  | .accrdT _ d a f h =>
    let sl := slotOf fs f
    let w := sl.fmt.width
    s.modCtx k (fun c => ((List.range 16).foldl (fun c i =>
      let r := c.accCodes a sl ((List.range 16).map (fun j => (i, j)))
      (c.wrTile d (64 * i + 2 * w * h) (bytesOfNat (2 * w) (packCodes w r.1))).setFlags r.2) c).unbindT d)
  | .accrdV _ d a f =>
    let sl := slotOf fs f
    let w := sl.fmt.width
    s.modCtx k (fun c => (lanesOf (e.args.headD 0)).foldl (fun c l =>
      let r := c.accCodes a sl ((List.range 8).map (fun m => (l / 2, 8 * (l % 2) + m)))
      (c.wrVs d l (bytesWords (bytesOfNat w (packCodes w r.1)))).setFlags r.2) c)
  | .accrdC _ _ a f =>
    let sl := slotOf fs f
    let c := s.ctx k
    let x := (Sparse.find e.caps e.leader).getD {}
    (s.writeSegs true c x (c.accImage a sl).1).modCtx k (fun c => c.setFlags (c.accImage a sl).2)
  | _ => s
/-- R164: the passes of the group on the accumulator of an entry that were issued before it are not all performed. -/
def Ctx.accBusy (c : Ctx) (e : RqEntry) : Bool :=
  (c.before e.id).any (fun f => decide (f.kind = 7) && decide (accOfIns f.ins = accOfIns e.ins))
/-- R165, R208: the writes of an `ACCRD.c` entry may be performed: what the leader lane stored to the bytes before has
been. -/
def State.accrdReady (s : State) (k : Nat) (e : RqEntry) (x : Cap) : Bool :=
  let c := s.ctx k
  decide (e.kind = 8) && !c.accBusy e && (s.unit c.unit).hasStore && s.travels c.pkg c.site x.segs
    && (decide (e.cls ≠ some .store) || State.mayPerform c e e.leader x)
/-- R165: one word of an `ACCRD.c` is written apart. -/
def State.accrdWord (s : State) (k id j : Nat) : State :=
  let c := s.ctx k
  match c.entry id with
  | none => s
  | some e =>
    let x := (Sparse.find e.caps e.leader).getD {}
    match e.ins with
    | .accrdC _ _ a f =>
      if ¬ s.accrdReady k e (x.oneWord j) ∨ ¬ x.wordsLeft.contains j then s
      else (s.writeSegs true c (x.oneWord j) (((c.accImage a (slotOf (s.fmtOf c) f)).1.drop (4 * j)).take 4)).modEntry k id
        (fun e => e.modCap e.leader (fun y => { y with got := Sparse.put y.got j 0 }))
    | _ => s
/-- `ACCRD_WRITE_COMPLETE` (R164, R165): after the passes of the group on the accumulator that were issued before it,
and, for the core-store form, after earlier accesses of its lane to the same bytes. -/
def execAccrdWriteComplete (k id : Nat) (s : State) : Out :=
  let c := s.ctx k
  match c.entry id with
  | none => .fault (.notEnabled "ACCRD_WRITE_COMPLETE")
  | some e =>
    let x := (Sparse.find e.caps e.leader).getD {}
    if ¬ s.accrdReady k e x then .fault (.notEnabled "ACCRD_WRITE_COMPLETE")
    else .next ((s.applyAccrd k e).dropEntry k id)
/-- The accumulator that an instruction writes at its issue (R164). -/
def accWritten : Instr → Option Nat
  | .accwr _ a _ | .accz _ a => some a
  | _ => none
/-- R164: an instruction that writes an accumulator waits for the entries of its group on it. -/
def onAcc (s : State) (c : Ctx) (a : Nat) (f : Ctx → Ctx) : Eff :=
  match (accEntries c.rq a).map (·.id) with
  | [] => .ok (s.modCtx s.cur.ctx f)
  | ids => .wait s (.order ids)
/-- `ACCWR` (R166). -/
def execAccwr (g : Guard) (a t : Nat) (s : State) : Out :=
  oncePerIssue (.accwr g a t) s (fun s c _ _ =>
    onAcc s c a (fun c => { c with accs := Sparse.setRun 0 c.accs (256 * a) (bytesWords (c.rdTile t)) }))
/-- `ACCZ` (R166). -/
def execAccz (g : Guard) (a : Nat) (s : State) : Out :=
  oncePerIssue (.accz g a) s (fun s c _ _ =>
    onAcc s c a (fun c => { c with accs := Sparse.clear c.accs (256 * a) (256 * a + 256) }))

end Sys2Proof.Machine
end

