-- ==== Sys2Proof/Machine/ScaleOps.lean ====
section
/-! DEFINITION. Binding and scale arithmetic, major 0x2E (R66 to R68, R167 to R169). -/

namespace Sys2Proof.Machine

/-- R167: a scale instruction on runs: the range of each run is checked first, and earlier writes to their
registers come first. -/
def onRuns (i : Instr) (runs : List (Nat × Nat)) (regs : List RegName) (s : State) (f : State → Ctx → Nat → Eff) : Out :=
  oncePerIssue i s (fun s c l _ =>
    match runs.find? (fun r => s.badRun c r.1 r.2) with
    | some r => .trap 5 [l] r.1
    | none => ordered s c (regs ++ runs.flatMap (fun r => (runRegs r.1 r.2).map .s)) (f s c l))

/-- `SBIND.t` (R66, R168). -/
def execSbindT (g : Guard) (d a f : Nat) (s : State) : Out :=
  oncePerIssue (.sbindT g d a f) s (fun s c l _ =>
    match (slotOf (s.fmtOf c) f).run with
    | none => .trap 1 [l] 0
    | some sh =>
      if s.badRun c a sh.log then .trap 5 [l] a
      else ordered s c (.t d :: (runRegs a sh.log).map .s) <|
        if (runRegs a sh.log).any (fun r => c.sBand r != sh.band) then .trap 0x0A [l] 0
        else .ok (s.modCtx s.cur.ctx (fun c =>
          let b := c.bindGen a sh.log
          b.1.bindT d a b.2 sh.band sh.log)))
/-- `SBIND.v` (R66, R168). -/
def execSbindV (g : Guard) (d a : Nat) (s : State) : Out :=
  onRuns (.sbindV g d a) [(a, 0)] [.v d] s (fun s c l =>
    if c.sBand a then .trap 0x0A [l] 0
    else .ok (s.modCtx s.cur.ctx (fun c => c.bindV d a (c.sGen a))))
/-- `SUNBIND.t` (R168). -/
def execSunbindT (g : Guard) (d : Nat) (s : State) : Out :=
  oncePerIssue (.sunbindT g d) s (fun s _ _ _ => .ok (s.modCtx s.cur.ctx (fun c => c.unbindT d)))
/-- `SUNBIND.v` (R168). -/
def execSunbindV (g : Guard) (d : Nat) (s : State) : Out :=
  oncePerIssue (.sunbindV g d) s (fun s _ _ _ => .ok (s.modCtx s.cur.ctx (fun c => c.unbindV d)))
/-- What `STAGRD` reads (R168, R81). -/
def Ctx.stag (c : Ctx) (k x : Nat) : Word :=
  match k with
  | 0 => (c.ttag x).zeroExtend 32
  | 1 => (c.vtag x).zeroExtend 32
  | _ => BitVec.ofNat 32 (Sparse.get 0 c.sctl x).toNat
/-- `STAGRD` (R129, R168): the tag is read before v_d's own tag clears. -/
def execStagrd (g : Guard) (d x k : Nat) (s : State) : Out :=
  perLane (.stagrd g d x k) s (fun c l c' => c'.wrV d l (c.stag k x))

/-- Block entry k of s_n written. -/
def Ctx.setBlock (c : Ctx) (n k x : Nat) : Ctx := c.setSByte n (if c.sBand n then 8 + k else k) x
/-- Band entry b of s_n written. -/
def Ctx.setBand (c : Ctx) (n b x : Nat) : Ctx := (c.setSByte n (2 * b) (x % 256)).setSByte n (2 * b + 1) (x / 256)
/-- Entries of a part of s_n replaced by f of their index and code, with the flags it gives. -/
def Ctx.mapPart (c : Ctx) (n : Nat) (band : Bool) (count : Nat) (f : Nat → Nat → Nat × BitVec 6) : Ctx :=
  (List.range count).foldl (fun c k =>
    let r := f k (if band then c.bandEntry n k else c.blockEntry n k)
    (if band then c.setBand n k r.1 else c.setBlock n k r.1).setFlags r.2) c
/-- R169: the rounding of a part's entry. -/
def roundPart (band : Bool) (p : FVal × BitVec 6) : Nat × BitVec 6 :=
  if band then roundArith .bf16 false p else let r := roundV .e3m5 false true p.1; (r.1, r.2 ||| p.2)
/-- The format of a part's entries. -/
def partFmt (band : Bool) : Fmt := if band then .bf16 else .e3m5
/-- R169: the entries of a part that s_x and s_y both hold. -/
def Ctx.shared (c : Ctx) (band : Bool) (x y : Nat) : Nat :=
  if band then (if c.sBand x && c.sBand y then 4 else 0)
  else if c.sBand x || c.sBand y then 16 else 32

/-- `SMOV` (R66, R169). -/
def execSmov (g : Guard) (d a n : Nat) (s : State) : Out :=
  onRuns (.smov g d a n) [(d, n), (a, n)] [] s (fun s c _ =>
    .ok (s.modCtx s.cur.ctx (fun c' => (List.range (2 ^ n)).foldl (fun c' r =>
      (c'.setPayload (d + r) (c.sPayload (a + r)) (c.sBand (a + r))).advGen (d + r) (c.sBand (a + r))) c')))
/-- `SMUL` (R169). -/
def execSmul (g : Guard) (d a n : Nat) (band : Bool) (s : State) : Out :=
  onRuns (.smul g d a n band) [(d, n)] [] s (fun s c _ =>
    .ok (s.modCtx s.cur.ctx (fun c' => (runRegs d n).foldl (fun c' r =>
      c'.mapPart r band (c.shared band r r) (fun _ x =>
        roundPart band (mulV (readF (partFmt band) x) (f32 (c.rdG a))))) c')))
/-- The entry of a part of s_n. -/
def Ctx.partEntry (c : Ctx) (band : Bool) (n k : Nat) : Nat := if band then c.bandEntry n k else c.blockEntry n k
/-- `SADD` (R169). -/
def execSadd (g : Guard) (d a n : Nat) (band : Bool) (s : State) : Out :=
  onRuns (.sadd g d a n band) [(d, n), (a, n)] [] s (fun s c _ =>
    .ok (s.modCtx s.cur.ctx (fun c' => (List.range (2 ^ n)).foldl (fun c' r =>
      c'.mapPart (d + r) band (c.shared band (d + r) (a + r)) (fun k x =>
        roundPart band (sumV [readF (partFmt band) x, readF (partFmt band) (c.partEntry band (a + r) k)]))) c')))
/-- `SMAX` (R137, R169). -/
def execSmax (g : Guard) (d a n : Nat) (band : Bool) (s : State) : Out :=
  onRuns (.smax g d a n band) [(d, n), (a, n)] [] s (fun s c _ =>
    .ok (s.modCtx s.cur.ctx (fun c' => (List.range (2 ^ n)).foldl (fun c' r =>
      c'.mapPart (d + r) band (c.shared band (d + r) (a + r)) (fun k x =>
        (maxCodeOf (partFmt band) x (c.partEntry band (a + r) k), 0))) c')))

end Sys2Proof.Machine
end

