-- ==== Sys2Proof/Machine/Units.lean ====
section
/-! DEFINITION. Units, groups and event queues: how they are created, what they hold and how they are freed
(R31 to R42, R46, R54, R256, R257). -/

namespace Sys2Proof.Machine

/-! ### Identifiers (R32 to R34) -/

/-- W_k of a grid. -/
def Grid.width (g : Grid) (k : Nat) : Nat :=
  match k with | 0 => 5 | 1 => g.w1 | 2 => g.w2 | 3 => g.w3 | 4 => g.w4 | 5 => g.w5 | _ => 0
/-- The lowest bit of field k of a work identifier. -/
def Grid.fieldOff (g : Grid) : Nat → Nat | 0 => 0 | k + 1 => g.fieldOff k + g.width k
/-- Field k of a work identifier, 0 above the root (R34). -/
def Grid.field (g : Grid) (k : Nat) (wid : DWord) : Nat :=
  if g.rootLvl < k then 0 else wid.toNat / 2 ^ g.fieldOff k % 2 ^ g.width k
/-- A work identifier with index i in field k, which was 0. -/
def Grid.child (g : Grid) (k i : Nat) (wid : DWord) : DWord := wid + BitVec.ofNat 64 (i * 2 ^ g.fieldOff k)
/-- R36, R375: %rootlvl as a context reads it; 0 in a handler. -/
def State.rootLvl (s : State) (c : Ctx) : Nat := if c.kind = .handler then 0 else (s.gridOf c).rootLvl

/-! ### Event queues (R37 to R39) -/

/-- R39: every slot of the queue is reserved or full. -/
def Ctx.evFull (c : Ctx) : Bool := decide (256 ≤ c.evq.length + c.evResv)
/-- R39: one slot of a context's queue reserved. -/
def State.reserveEv (s : State) (k : Nat) : State := s.modCtx k (fun c => { c with evResv := c.evResv + 1 })
/-- R39: a reservation freed. -/
def State.freeEv (s : State) (k : Nat) : State := s.modCtx k (fun c => { c with evResv := c.evResv - 1 })
/-- R38, R39, R41: a record posts into its reserved slot; one whose sequencer is gone or exits is discarded. -/
def State.postEv (s : State) (k : Nat) (r : EvRec) : State :=
  match Sparse.find s.ctxs k with
  | none => s
  | some c =>
    if c.exiting then s.freeEv k
    else s.modCtx k (fun c => { c with evResv := c.evResv - 1, evq := c.evq ++ [r] })
/-- The bits of an event record (R38). -/
def EvRec.word (r : EvRec) (j : Nat) : Word :=
  match j with
  | 0 => r.tag
  | 1 => BitVec.ofNat 32 (r.kind % 256 * 2 ^ 24 + r.level % 8 * 2 ^ 21 + r.status % 65536)
  | 2 => BitVec.ofNat 32 r.doneCount
  | _ => BitVec.ofNat 32 r.aborted
/-- The sequencer context of a unit. -/
def WUnit.seqCtx (u : WUnit) : Option Nat := if u.seq = 0 then none else some (u.seq - 1)

/-! ### Creation -/

/-- Lanes at a grid's entry. -/
def entryLanes (n : Nat) (entry : DWord) : Sparse Lane := (List.range n).map (fun l => (l, { pc := entry }))
/-- A new context under a key that none has had. -/
def State.putCtx (s : State) (c : Ctx) : State :=
  let k := max s.fresh (Sparse.next s.ctxs)
  { s with ctxs := Sparse.put s.ctxs k c, fresh := k + 1 }
/-- A waiting lane group of a team (R36, R54). -/
def State.newGroup (s : State) (u i : Nat) : State :=
  let x := s.unit u
  let g := s.grid x.grid
  let c : Ctx := { kind := .group, pkg := x.pkg, grid := x.grid, unit := u, asid := g.asid, index := i
                   wid := g.child 1 i x.wid, lanes := entryLanes 32 g.entry, halted := g.startHalted }
  s.putCtx c
/-- The groups of a team created with it: all 2^W1 when it has no sequencer of its own (R42). -/
def State.newGroups (s : State) (u n : Nat) : State := (List.range n).foldl (fun s i => s.newGroup u i) s
/-- A waiting unit. -/
def State.newUnit (s : State) (level gr parent index : Nat) (wid : DWord) (p : Nat) : State :=
  let k := max s.fresh (Sparse.next s.units)
  let u : WUnit := { level := level, grid := gr, parent := parent, index := index, wid := wid, pkg := p, age := k }
  let s := { s with units := Sparse.put s.units k u, fresh := k + 1 }
  if level = 1 ∧ ¬ (s.grid gr).seqL1 then s.newGroups k (2 ^ (s.grid gr).w1) else s

/-! ### Freeing -/

/-- A reduction slot lies in the store of one of some units. -/
def RedSlot.within (x : RedSlot) (us : List Nat) : Bool := match x.loc with | .store u _ => us.contains u | _ => false
/-- A unit and what hangs below it leave the machine: its store, its contexts and its kept children. -/
def State.dropUnit (s : State) (u : Nat) : State :=
  let us := s.unitsUnder 6 u
  { s with units := s.units.filter (fun e => !us.contains e.1)
           ctxs := s.ctxs.filter (fun e => decide (e.2.kind = .handler) || !us.contains e.2.unit)
           pkgs := s.pkgs.map (fun e => (e.1, { e.2 with slots := e.2.slots.filter (fun x => !x.within us) })) }
/-- R257: the allocations that a sequencer's completed children keep are freed; at L1 the tiles of its retired
groups. -/
def State.freeKept (s : State) (u : Nat) : State :=
  let s := (s.childUnits u).foldl (fun s x => if (s.unit x).st = .kept then s.dropUnit x else s) s
  if (s.unit u).level = 1 then
    { s with ctxs := s.ctxs.filter (fun e => !(decide (e.2.kind = .group) && decide (e.2.unit = u) && e.2.retired)) }
  else s

/-! ### `LAUNCH` (R290) -/

/-- R290 steps 4 to 6: the children of a `LAUNCH`, or the record of one that creates none. -/
def State.doLaunch (s : State) (k n : Nat) (tag : Word) : State :=
  let u := (s.ctx k).unit
  let s := s.freeKept u
  let x := s.unit u
  let g := s.grid x.grid
  let s := s.modUnit u (fun x => { x with
    launch := some { tag := tag, n := n, doneCount := 0, aborted := 0, status := 0, posted := decide (n = 0) }, created := max x.created n })
  if n = 0 then s.postEv k { kind := 1, level := x.level, status := 0, tag := tag, doneCount := 0, aborted := 0 }
  else if x.level = 1 then s.newGroups u n
  else (List.range n).foldl (fun s i =>
    s.newUnit (x.level - 1) x.grid (u + 1) i (g.child x.level i x.wid) (if x.level = 5 then i else x.pkg)) s

/-- R38, R290: a child of a unit has completed, with its abort cause or 0; the last one's record posts. -/
def State.childDone (s : State) (u cause : Nat) : State :=
  let x := s.unit u
  match x.launch with
  | none => s
  | some l =>
    let l := if cause = 0 then { l with doneCount := l.doneCount + 1 }
             else { l with aborted := l.aborted + 1, status := if l.status = 0 then cause else l.status }
    let last := decide (l.n ≤ l.doneCount + l.aborted)
    let s := s.modUnit u (fun x => { x with launch := some { l with posted := last } })
    match last, x.seqCtx with
    | true, some k => s.postEv k { kind := 1, level := x.level, status := l.status, tag := l.tag
                                   doneCount := l.doneCount, aborted := l.aborted }
    | _, _ => s
/-- R294: the records of completed children removed from a queue. -/
def Ctx.joined (c : Ctx) : Ctx := { c with evq := c.evq.filter (fun r => decide (r.kind ≠ 1)) }

end Sys2Proof.Machine
end

