-- ==== Sys2Proof/Machine/Hierarchy.lean ====
section
/-! DEFINITION. Launch, split, event queue, barriers and fences, majors 0x30 and 0x31 (R290 to R296). -/

namespace Sys2Proof.Machine

/-- The issuer is the sequencer of a unit of a level. -/
def State.isSeq (s : State) (c : Ctx) (lvl : Nat) : Bool := decide (c.kind = .seq) && decide (s.ctxLevel c = lvl)

/-- `LAUNCH` (R34, R39, R40, R245, R290). -/
def execLaunch (g : Guard) (lvl x y : Nat) (s : State) : Out :=
  oncePerIssue (.launch g lvl x y) s (fun s c l act =>
    let n := (c.rdG x).toNat
    if ¬ s.isSeq c lvl then .trap 2 [l] lvl
    else if 2 ^ (s.gridOf c).width lvl < n then .trap 0x11 [l] 0
    else if c.evFull then .trap 0x12 [l] 0
    else releasingOnce s c act lvl (fun s =>
      let s := s.reserveEv s.cur.ctx
      if s.childrenDone c then .ok (s.doLaunch s.cur.ctx n (c.rdG y))
      else .wait s (.launch n (c.rdG y))))

/-- R265, R291: the start and size of part i of P parts of an extent. -/
def tsplit (e p i : Nat) : Nat × Nat :=
  if p = 0 ∨ p ≤ i then (e, 0)
  else (i * (e / p) + min i (e % p), if i < e % p then e / p + 1 else e / p)
/-- g_x and g(x+1) written with two numbers. -/
def Ctx.wrPairNum (c : Ctx) (x : Nat) (p : Nat × Nat) : Ctx :=
  (c.wrG x (BitVec.ofNat 32 p.1)).wrG (x + 1) (BitVec.ofNat 32 p.2)
/-- `TSPLIT` (R291). -/
def execTsplit (g : Guard) (lvl x y : Nat) (s : State) : Out :=
  oncePerIssue (.tsplit g lvl x y) s (fun s c l _ =>
    if s.rootLvl c < lvl ∨ lvl ≤ s.ctxLevel c then .trap 2 [l] lvl
    else
      let gr := s.gridOf c
      let p := (c.rdG (y + 1)).toNat
      let r := tsplit (c.rdG y).toNat (if p = 0 then 2 ^ gr.width lvl else p) (gr.field lvl c.wid)
      .ok (s.modCtx s.cur.ctx (fun c => c.wrPairNum x r)))
/-- `TSPLIT.x` (R291). -/
def execTsplitX (g : Guard) (x y : Nat) (s : State) : Out :=
  oncePerIssue (.tsplitX g x y) s (fun s c _ _ =>
    let r := tsplit (c.rdG y).toNat (c.rdG (y + 1)).toNat (c.rdG (y + 2)).toNat
    .ok (s.modCtx s.cur.ctx (fun c => c.wrPairNum x r)))

/-- The record that `EVQRD` takes (R292). -/
def Ctx.evPick (c : Ctx) (tag : Option Word) : Option EvRec :=
  c.evq.find? (fun r => match tag with | none => true | some t => decide (r.tag = t))
/-- The scope at which reading a record is an acquire (R243, R245). -/
def EvRec.scope (r : EvRec) : Nat := match r.kind with | 3 => 5 | 4 => 3 | _ => r.level
/-- R292: a record read into g(x) to g(x+3), removed, and 1 pushed. -/
def Ctx.takeEv (c : Ctx) (x : Nat) (r : EvRec) (act : List Nat) : Ctx :=
  let c := (List.range 4).foldl (fun c j => c.wrG (x + j) (r.word j)) c
  { c with evq := c.evq.erase r }.pushAll act true
/-- `EVQRD` (R292). -/
def execEvqrd (g : Guard) (lvl x y : Nat) (m w : Bool) (s : State) : Out :=
  oncePerIssue (.evqrd g lvl x y m w) s (fun s c l act =>
    if ¬ s.isSeq c lvl then .trap 2 [l] lvl
    else
      let tag := if m then some (c.rdG y) else none
      match c.evPick tag with
      | some r => .ok ((s.acquire c r.scope).modCtx s.cur.ctx (fun c => c.takeEv x r act))
      | none =>
        if w ∧ c.evResv ≠ 0 then .wait s (.event tag x)
        else .ok (s.modCtx s.cur.ctx (fun c => c.pushAll act false)))

/-- R293: lanes of a context counted as arrived at a level. -/
def Ctx.arrive (c : Ctx) (lvl : Nat) (ls : List Nat) : Ctx :=
  { c with arrived := Sparse.set 0 c.arrived lvl (Sparse.get 0 c.arrived lvl ||| maskOf ls) }
/-- `BAR` (R245, R293, R294). -/
def execBar (g : Guard) (lvl : Nat) (s : State) : Out :=
  gate (.bar g lvl) s (fun s c act =>
    if c.kind = .seq then
      if lvl ≠ s.ctxLevel c then .trap 2 act lvl
      else if s.childrenDone c then .ok ((s.acquire c lvl).modCtx s.cur.ctx Ctx.joined)
      else .wait s .join
    else if 3 < lvl ∨ s.rootLvl c < lvl then .trap 2 act lvl
    else releasing s c act lvl (fun s act => .wait (s.modCtx s.cur.ctx (fun c => c.arrive lvl act)) (.bar lvl)))

/-- `FENCE.rel` (R228, R241, R296). -/
def execFenceRel (g : Guard) (lvl : Nat) (s : State) : Out :=
  gate (.fenceRel g lvl) s (fun s c act => releasing s c act lvl (fun s _ => .ok s))
/-- R229, R241: parked reads of some lanes that an acquire by fence passes: what the lanes issue from now on is performed
after them. -/
def Ctx.passParked (c : Ctx) (ls : List Nat) (lvl : Nat) : Ctx :=
  { c with rq := c.rq.map (fun e => if ¬ e.reads then e else
      { e with caps := e.caps.map (fun y =>
          if ls.contains (y.1 % 32) ∧ y.2.done = false ∧ y.2.parked ≠ 0
          then (y.1, { y.2 with acq := some (match y.2.acq with | some a => (max a.1 lvl, a.2) | none => (lvl, c.nextId)) }) else y) }) }
/-- R228, R241: an acquire by the acting lanes, after their earlier reads. -/
def acquiring (s : State) (c : Ctx) (act : List Nat) (lvl : Nat) : Eff :=
  apart s act (fun l => (c.unread s.cur.ctx [l]).isEmpty) (.release (c.unread s.cur.ctx act) false true 3 0)
    (fun s act => .ok ((s.acquire c lvl).modCtx s.cur.ctx (fun c => c.passParked act lvl)))
/-- `FENCE.acq` (R228, R296). -/
def execFenceAcq (g : Guard) (lvl : Nat) (s : State) : Out :=
  gate (.fenceAcq g lvl) s (fun s c act => acquiring s c act lvl)
/-- `FENCE.acqrel` (R228, R296). -/
def execFenceAcqrel (g : Guard) (lvl : Nat) (s : State) : Out :=
  gate (.fenceAcqrel g lvl) s (fun s c act => releasing s c act lvl (fun s act => acquiring s c act lvl))
/-- `FENCE.sc` (R236, R296): the writes before it have reached their homes. -/
def execFenceSc (g : Guard) (lvl : Nat) (s : State) : Out :=
  gate (.fenceSc g lvl) s (fun s c act => releasingTo s c act lvl 3 (fun s act => acquiring s c act lvl))

/-! ### Loads ahead of a `FENCE.acqrel` (R229) -/

/-- The accesses that a lane's later writes wait for come after the fence's release: they have all come far enough. -/
def State.debtPaid (s : State) (c : Ctx) (l : Nat) (d : List Nat × Nat) : Bool :=
  s.mayRelease c d.2 && !c.rq.any (fun e => d.1.contains e.id && e.caps.any (fun y => decide (y.1 % 32 = l) && !y.2.reached (s.reach c d.2)))
/-- R229: a lane that waits in the release of a `FENCE.acqrel`, with its reads performed and none of its accesses parked,
goes on to later loads; its later writes wait as before. -/
def State.ahead (s : State) (k l : Nat) (i : Option Instr) : State :=
  let c := s.ctx k
  match (c.lane l).wait, i with
  | .release ids true _ _ _, some (.fenceAcqrel _ lvl) =>
    let own := ids.filterMap (fun x => if x.1 = k then some x.2 else none)
    if (c.unread k [l]).isEmpty ∧ (c.rq.any (fun e => own.contains e.id && e.caps.any (fun y => decide (y.1 % 32 = l) && decide (y.2.parked ≠ 0) && !y.2.done))) = false then
      (s.acquire c lvl).modCtx k (fun c => (c.advance [l]).modLane l (fun x => { x with debt := some (own, lvl) }))
    else s
  | _, _ => s
/-- R229: the release of a `FENCE.acqrel` that loads went ahead of takes effect. -/
def State.payDebts (s : State) (k : Nat) : State :=
  (s.ctx k).liveLanes.foldl (fun s l =>
    let c := s.ctx k
    match (c.lane l).debt with
    | some d => if s.debtPaid c l d then (s.release c d.2).modCtx k (fun c => c.modLane l (fun x => { x with debt := none })) else s
    | none => s) s

end Sys2Proof.Machine
end

