-- ==== Sys2Proof/Machine/Place.lean ====
section
/-! DEFINITION. Placement of units and groups, and how units and grids end (R27, R41, R45 to R47, R51 to R54,
R286, R288, R289, R297). -/

namespace Sys2Proof.Machine

/-! ### What is in use (R15, R44, R46, R56) -/

/-- R257: the unit has a sequencer that has exited, which frees the allocations that it keeps. -/
def State.seqExited (s : State) (u : WUnit) : Bool := u.seqCtx.any (fun k => (s.ctx k).liveLanes.isEmpty)
/-- The unit's storage allocation counts against placement fit: it stands, or is kept for the unit's parent (R257). -/
def State.allocated (s : State) (u : WUnit) : Bool :=
  u.inPlace || decide (u.st = .swapped false) || (decide (u.st = .kept) && !u.parentOf.any (fun q => s.seqExited (s.unit q)))
/-- Units of a level in a package that satisfy a test. -/
def State.unitsAt (s : State) (p lvl : Nat) (f : WUnit → Bool) : List WUnit :=
  (s.units.filter (fun e => decide (e.2.pkg = p) && decide (e.2.level = lvl) && f e.2)).map (·.2)
/-- A sum over a list. -/
def total {α : Type} (l : List α) (f : α → Nat) : Nat := l.foldl (fun n x => n + f x) 0
/-- Lane groups of a team of a grid. -/
def Grid.groups (g : Grid) : Nat := 2 ^ g.w1
/-- R52, R257: what the groups of a team that a test picks hold, each a share, with `kept` the share of a retired group whose
tiles its team's own sequencer keeps. -/
def State.shares (s : State) (f : Ctx → Bool) (share : Grid → Nat) (kept : Bool) (e : Nat × WUnit) : Nat :=
  let g := s.grid e.2.grid
  ((s.groupsOf e.1).filter (fun x => if x.2.retired then kept && g.seqL1 && !s.seqExited e.2 else f x.2)).length * share g
/-- R44, R52: n groups of a grid fit beside what the groups of the teams on a core and its engine hold, of those that a test
picks. -/
def State.fitsGroups (s : State) (p : Nat) (core : Site) (g : Grid) (n : Nat) (f : Ctx → Bool) : Bool :=
  let live := s.units.filter (fun e => decide (e.2.pkg = p) && decide (e.2.level = 1) && decide (e.2.site = core) && e.2.inPlace)
  let eng := s.units.filter (fun e => decide (e.2.pkg = p) && decide (e.2.level = 1) && decide (e.2.site.clusNo = core.clusNo)
    && (e.2.inPlace || decide (e.2.st = .swapped false)))
  let sum := fun (l : List (Nat × WUnit)) (share : Grid → Nat) (kept : Bool) => n * share g + total l (s.shares f share kept)
  decide (sum live (fun _ => 1) false ≤ 32)
    && decide (sum live (fun g => g.vregs / 8) false ≤ 256)
    && decide (sum live Grid.tiles true ≤ 256)
    && decide (sum live (fun g => 32 * g.stash) false ≤ 2 ^ 19)
    && decide (sum eng Grid.accs false ≤ 512)
/-- R44: the groups of a grid's team fit beside what some teams hold on a core and its engine. -/
def State.fitsCore (s : State) (p : Nat) (core : Site) (g : Grid) : Bool :=
  let kept := s.unitsAt p 1 (fun u => decide (u.site = core) && s.allocated u)
  let live := s.unitsAt p 1 (fun u => decide (u.site = core) && u.inPlace)
  s.fitsGroups p core g g.groups (fun _ => true)
    && decide (total (g :: kept.map (fun u => s.grid u.grid)) Grid.cstore ≤ 128)
    && !(g.seqL1 && live.any (fun u => (s.grid u.grid).seqL1))
/-- The core takes placement (R27, R45, R377). -/
def State.coreOpen (s : State) (p : Nat) (core : Site) (aOnly : Bool) : Bool :=
  (s.pkg p).dieUp core.die && !(s.pkg p).coreStopped core.loc && !(aOnly && core.isB)
/-- Resident groups of a core. -/
def State.resident (s : State) (p : Nat) (core : Site) : List (Nat × Ctx) :=
  s.ctxs.filter (fun x => decide (x.2.kind = .group) && x.2.placed && !x.2.retired && (s.unit x.2.unit).inPlace
    && decide (x.2.pkg = p) && decide (x.2.site = core))
/-- The candidate with the least cost; among equals the first. -/
def leastOf {α : Type} (f : α → Nat) : List α → Option α
  | [] => none
  | x :: r => match leastOf f r with
    | none => some x
    | some y => if f y < f x then some y else some x
/-- R46, R288: a cluster has a free scalar-core context, when one is needed, and room for a unit's cluster memory. -/
def State.fitsCluster (s : State) (p : Nat) (cl : Site) (g : Grid) (needCtx : Bool) : Bool :=
  let here := s.unitsAt p 2 (fun u => s.allocated u && (decide (u.site.clusNo = cl.clusNo)
    || (u.split && decide (u.site2.clusNo = cl.clusNo))))
  let ctxs := s.unitsAt p 2 (fun u => u.inPlace && decide (u.site.clusNo = cl.clusNo))
  decide (total (g :: here.map (fun u => s.grid u.grid)) Grid.clmem ≤ 64) && (!needCtx || decide (ctxs.length < 4))
/-- Units of a level of a grid that a test finds in place. -/
def State.unitCount (s : State) (gr lvl : Nat) (f : WUnit → Bool) : Nat :=
  (s.units.filter (fun e => decide (e.2.grid = gr) && decide (e.2.level = lvl) && e.2.inPlace && f e.2)).length

/-! ### Choosing a site (R288) -/

/-- A site: where, whether split, and the odd half. -/
abbrev Place := Site × Bool × Site
/-- The clusters of a die. -/
def clustersOf (d : Nat) : List Site := (List.range 64).map (fun k => { die := d, clus := k })
/-- The cores of a package in the order of R288. -/
def coresOf : List Site := (List.range 2048).map siteOfLoc
/-- The dies of a list that take placement. -/
def State.openDies (s : State) (p : Nat) (aOnly : Bool) (ds : List Nat) : List Nat :=
  ds.filter (fun d => (s.pkg p).dieUp d && !(aOnly && dieIsB d))
/-- The cluster among some that fits and holds the fewest units of the grid. -/
def State.pickCluster (s : State) (p gr : Nat) (g : Grid) (needCtx : Bool) (l : List Site) : Option Site :=
  leastOf (fun x => s.unitCount gr 2 (fun u => decide (u.site.clusNo = x.clusNo) || (u.split && decide (u.site2.clusNo = x.clusNo))))
    (l.filter (fun x => s.fitsCluster p x g needCtx))
/-- R47, R288: the site of a cluster unit on one of some dies: a single cluster, or a split pair. -/
def State.clusterSite (s : State) (p gr : Nat) (g : Grid) (aOnly one two : Bool) (ds : List Nat) : Option Place :=
  match (if one then s.pickCluster p gr g true ((s.openDies p aOnly ds).flatMap clustersOf) else none) with
  | some x => some (x, false, {})
  | none =>
    if ¬ two then none
    else (ds.map (fun d => d / 2)).eraseDups.findSome? (fun pair =>
      if s.openDies p aOnly [2 * pair, 2 * pair + 1] ≠ [2 * pair, 2 * pair + 1] then none
      else match s.pickCluster p gr g true (clustersOf (2 * pair)), s.pickCluster p gr g false (clustersOf (2 * pair + 1)) with
        | some a, some b => some (a, true, b)
        | _, _ => none)
/-- R47, R288: the core named for team i of a cluster unit. -/
def namedCore (x : WUnit) (i : Nat) : Site :=
  let cl := if x.split && decide (2 ≤ i % 4) then x.site2 else x.site
  { die := cl.die, clus := cl.clus, core := i % 4 }
/-- R288, R391, R392, R421, R428: the site that a waiting unit takes now, if there is one; a moved unit stays split or whole, and a
team that pre-emption took off its core returns to the same die kind. -/
def State.siteFor (s : State) (u : Nat) : Option Place :=
  let x := s.unit u
  let g := s.grid x.grid
  let aOnly := g.pinA || (!x.anyDie && (match x.st with | .moving _ => true | _ => false))
  match x.level with
  | 1 =>
    match x.parentOf with
    | some q =>
      let core := namedCore (s.unit q) x.index
      if (s.unit q).st = .running && s.coreOpen x.pkg core aOnly && s.fitsCore x.pkg core g then some (core, (s.unit q).split, {}) else none
    | none =>
      (leastOf (fun c => (s.resident x.pkg c).length)
        (coresOf.filter (fun c => s.coreOpen x.pkg c aOnly && s.fitsCore x.pkg c g
          && (!decide (x.st = .swapped true) || decide (c.isB = x.site.isB))))).map (fun c => (c, false, {}))
  | 2 =>
    match x.parentOf with
    | some q =>
      let d := (s.unit q).site.die
      if x.st = .moving true then s.clusterSite x.pkg x.grid g aOnly (!x.split) x.split (List.range 8)
      else s.clusterSite x.pkg x.grid g aOnly true g.splitOk [d]
    | none =>
      if x.st = .moving true then s.clusterSite x.pkg x.grid g aOnly (!x.split) x.split (List.range 8)
      else s.clusterSite x.pkg x.grid g aOnly true g.splitOk (List.range 8)
  | 3 =>
    let room := fun d =>
      decide (total (g :: (s.unitsAt x.pkg 3 (fun u => s.allocated u && decide (u.site.die = d))).map (fun u => s.grid u.grid))
        Grid.dstore + (s.pkg x.pkg).carveMiB ≤ 256)
        && decide ((s.unitsAt x.pkg 3 (fun u => u.inPlace && decide (u.site.die = d))).length < 4)
    (leastOf (fun d => s.unitCount x.grid 3 (fun u => decide (u.site.die = d)))
      ((s.openDies x.pkg aOnly (List.range 8)).filter room)).map (fun d => ({ die := d }, false, {}))
  | _ =>
    if s.podMember g.pkg x.pkg && decide ((s.pkg x.pkg).fld 0x0018 15 8 = 0) && decide ((s.units.filter (fun e => decide (e.2.pkg = x.pkg) && decide (4 ≤ e.2.level) && e.2.inPlace)).length < 4)
    then some ({ mast := true }, false, {}) else none

/-! ### Order of placement (R256, R289) -/

/-- The unit waits for a place. -/
def WUnit.waits (u : WUnit) : Bool := match u.st with | .waiting | .moving true | .swapped true => true | _ => false
/-- A unit and every unit above it run. -/
def State.active (s : State) : Nat → Nat → Bool
  | 0, _ => true
  | d + 1, u => decide ((s.unit u).st = .running) && (match (s.unit u).parentOf with | some q => State.active s d q | none => true)
/-- A team that moves with its cluster unit waits for no place of its own until the unit has one. -/
def State.carried (s : State) (x : WUnit) : Bool :=
  decide (x.st = .moving true) && (match x.parentOf with | some q => decide ((s.unit q).st = .moving true) | none => false)
/-- R289: the placement domain of a unit. -/
def State.domain (s : State) (x : WUnit) : List Nat :=
  let pair := fun d => if (s.grid x.grid).splitOk then [2, x.pkg, 16 + d / 2] else [2, x.pkg, d]
  match x.level, x.parentOf with
  | 1, some q => [1, x.pkg, (namedCore (s.unit q) x.index).loc]
  | 1, none => [10, x.pkg]
  | 2, some q => pair (s.unit q).site.die
  | 2, none => [20, x.pkg]
  | 3, _ => [3, x.pkg]
  | _, _ => [4, x.pkg]
/-- R289: a waiting unit stands first in its domain. -/
def State.firstInLine (s : State) (u : Nat) : Bool :=
  let x := s.unit u
  let d := s.domain x
  !(s.units.any (fun e => decide (e.1 ≠ u) && e.2.waits && !s.carried e.2 && decide (s.domain e.2 = d)
    && (decide ((s.grid x.grid).prio < (s.grid e.2.grid).prio)
      || (decide ((s.grid x.grid).prio = (s.grid e.2.grid).prio) && decide (e.2.age < x.age)))))
/-- The entry is a downward copy that still owes bytes to a child index. -/
def RqEntry.owes (e : RqEntry) (i : Nat) : Bool :=
  match e.ins with
  | .mcopyDown .. => e.chunks.any (fun x => decide (x.child = i) && decide (x.st ≠ 3))
  | _ => false
/-- R256: an earlier downward copy of the launching sequencer still owes bytes to a child index. -/
def State.owed (s : State) (parent : Nat) (i : Nat) : Bool :=
  match (s.unit parent).seqCtx with
  | some k => (s.ctx k).rq.any (fun e => e.owes i)
  | none => false
/-- R288, R289: a waiting unit can be placed, leaving aside what copies owe it. -/
def State.placeable (s : State) (u : Nat) : Option Place :=
  let x := s.unit u
  if (Sparse.find s.units u).isSome && decide (x.st = .waiting) && s.firstInLine u then s.siteFor u else none
/-- The context is a lane group that waits for its place on its team's core. -/
def State.waitingGroup (s : State) (c : Ctx) : Bool :=
  decide (c.kind = .group) && !c.placed && !c.retired && s.active 6 c.unit
/-- R289, R377: a waiting group can be placed, leaving aside what copies owe it: its core is not stopped and has room for it,
and it stands first, by launch priority and then by creation, among the waiting groups of its core. -/
def State.groupPlaceable (s : State) (k : Nat) : Bool :=
  match Sparse.find s.ctxs k with
  | none => false
  | some c =>
    let core := (s.unit c.unit).site
    s.waitingGroup c && decide ((s.resident c.pkg core).length < 32) && !(s.pkg c.pkg).coreStopped core.loc
      && s.fitsGroups c.pkg core (s.gridOf c) 1 (fun x => x.placed)
      && !(s.ctxs.any (fun e => decide (e.1 ≠ k) && s.waitingGroup e.2 && decide (e.2.pkg = c.pkg) && decide ((s.unit e.2.unit).site = core)
        && (decide ((s.gridOf c).prio < (s.gridOf e.2).prio) || (decide ((s.gridOf c).prio = (s.gridOf e.2).prio) && decide (e.1 < k)))))

/-! ### `UNIT_PLACEMENT` -/

/-- The lowest number that a list lacks. -/
def lowestFree (l : List Nat) (n : Nat) : Option Nat := (List.range n).find? (fun i => !l.contains i)
/-- R171, R297: a group enters a core: its resident index and the lowest free active position. -/
def State.seat (s : State) (k : Nat) : State :=
  let c := s.ctx k
  let site := (s.unit c.unit).site
  let here := s.resident c.pkg site
  s.modCtx k (fun c => { c with
    placed := true, site := site, age := s.cycle, entered := s.cycle, rq := c.rq.map (fun e => e.postedAt s.cycle)
    resIdx := (lowestFree (here.map (fun x => x.2.resIdx)) 32).getD 0
    pos := lowestFree (here.filterMap (fun x => x.2.pos)) 8 })
/-- The scope at which a unit's first instruction acquires (R245): its parent's level, or the widest for a root. -/
def WUnit.birthScope (x : WUnit) : Nat := if x.parent = 0 then 5 else x.level + 1
/-- R54, R288: a unit takes a site; its sequencer starts at the entry. -/
def State.install (s : State) (u : Nat) (pl : Place) : State :=
  let x := s.unit u
  let g := s.grid x.grid
  let s := s.modUnit u (fun x => { x with st := .running, site := pl.1, split := pl.2.1, site2 := pl.2.2, placedAt := s.cycle })
  if 2 ≤ x.level ∨ g.seqL1 then
    let k := max s.fresh (Sparse.next s.ctxs)
    let c : Ctx := { kind := .seq, pkg := x.pkg, site := pl.1, grid := x.grid, unit := u, asid := g.asid, placed := true
                     wid := x.wid, lanes := entryLanes 1 g.entry, age := s.cycle, halted := g.startHalted }
    let s := s.putCtx c
    (s.modUnit u (fun x => { x with seq := k + 1 })).acquire c x.birthScope
  else s
/-- `UNIT_PLACEMENT` (R245, R256, R288, R289, R297). -/
def execUnitPlacement (r : UnitRef) (s : State) : Out :=
  match r with
  | .unit u =>
    let x := s.unit u
    match s.placeable u, x.parentOf.any (fun q => s.owed q x.index) with
    | some pl, false => .next (s.install u pl)
    | _, _ => .fault (.notEnabled "UNIT_PLACEMENT")
  | .group k =>
    let c := s.ctx k
    let x := s.unit c.unit
    let own := (s.gridOf c).seqL1
    if ¬ s.groupPlaceable k ∨ (own ∧ s.owed c.unit c.index) then .fault (.notEnabled "UNIT_PLACEMENT")
    else
      let s := s.seat k
      .next (s.acquire (s.ctx k) (if own then 1 else x.birthScope))

/-! ### Completion (R41, R51 to R53) -/

/-- R51: a group retires when its lanes have exited and nothing of it is outstanding; one that a trap has stopped is still
to be served. -/
def Ctx.mayRetire (c : Ctx) : Bool :=
  decide (c.kind = .group) && c.placed && !c.retired && !c.trapped && c.liveLanes.isEmpty && c.rq.isEmpty
/-- R245: the releases that the exits of a group are need not wait: each barrier above that counts its lanes as arrived takes
them as done. -/
def State.mayRetire (s : State) (k : Nat) : Bool := [1, 2, 3].all (fun lvl => s.mayRelease (s.ctx k) lvl)
/-- R52, R245: a group retires: its lanes release at every level at which barriers count them, its registers are freed, its
tiles kept for a team's own sequencer. -/
def State.retire (s : State) (k : Nat) : State :=
  let c := s.ctx k
  let own := (s.gridOf c).seqL1
  let s := ([1, 2, 3].foldl (fun s lvl => s.release c lvl) s).modCtx k (fun c => { c.unheld with
    retired := true, pos := none, v := [], g := [], e := [], stash := [], accs := [], scales := [], sctl := []
    vtags := [], ttags := [], tiles := if own then c.tiles else [], strA := {}, strB := {}, staged := [], late := []
    trapped := false, halted := false, haltPend := false })
  if own then s.childDone c.unit 0 else s
/-- R41, R51: a unit has completed. -/
def State.unitDone (s : State) (u : Nat) : Bool :=
  let x := s.unit u
  decide (x.st = .running)
    && (match x.seqCtx with
        | some k =>
          let c := s.ctx k
          c.liveLanes.isEmpty && c.rq.isEmpty && s.childrenDone c
            && (s.childUnits u).all (fun y => decide ((s.unit y).st = .kept))
        | none => (s.groupsOf u).all (fun e => e.2.retired))
/-- The compute dies on which a unit and what it keeps stand. -/
def State.unitDies (s : State) (u : Nat) : List Nat :=
  ((s.unitsUnder 6 u).flatMap (fun y =>
    let x := s.unit y
    (if x.site.mast then [] else [x.site.die]) ++ (if x.level = 2 ∧ x.split then [x.site2.die] else []))).eraseDups
/-- R187, R238, R245: a release at L4 or L5 by parties on some dies of a package. -/
def State.releaseWide (s : State) (p asid : Nat) (ds : List Nat) : State :=
  ((s.mergeShadows p (fun x => decide (x.asid = asid) && ds.contains x.die)).drainEarly p (fun e => ds.contains e.die)).thaw (fun _ _ => true)
/-- R41, R51: the level at which the completion of a unit is a release (R245). -/
def WUnit.endScope (x : WUnit) : Nat := if x.parent = 0 then 5 else x.level + 1
/-- R19, R22, R185, R245: the releases that a unit's completion is need not wait. -/
def State.mayEnd (s : State) (u : Nat) : Bool :=
  let x := s.unit u
  let ds := s.unitDies u
  (s.ctxsUnder u).all (fun k => s.clockRuns (s.ctx k).pkg (s.ctx k).site && s.mayRelease (s.ctx k) x.endScope)
    && (decide (x.endScope < 4) || (s.mergeable x.pkg (fun y => decide (y.asid = (s.grid x.grid).asid) && ds.contains y.die)
      && (s.pkg x.pkg).early.all (fun e => !ds.contains e.die || (s.clockRuns x.pkg { die := e.die } && s.carries x.pkg (.hbm e.key) e.bytes.length))))
/-- R41, R52, R245, R257: a unit ends with an abort cause or 0: its parties have released at its parent's level, its
parent counts it, and its allocation is kept for the parent. -/
def State.endUnit (s : State) (u cause : Nat) : State :=
  let x := s.unit u
  let lvl := x.endScope
  let ds := s.unitDies u
  let s := if cause = 0 then (s.ctxsUnder u).foldl (fun s k => s.release (s.ctx k) lvl) s else s
  let s := if cause = 0 ∧ 4 ≤ lvl then s.releaseWide x.pkg (s.grid x.grid).asid ds else s
  match x.parentOf with
  | none =>
    (s.dropUnit u).modGrid x.grid (fun g =>
      { g with rootsDone := g.rootsDone + 1, status := if g.status = 0 then cause else g.status })
  | some q =>
    let s := (s.childUnits u).foldl (fun s y => s.dropUnit y) s
    let s := { s with ctxs := s.ctxs.filter (fun e => decide (e.2.kind = CtxKind.handler) || decide (e.2.unit ≠ u)) }
    let s := s.modUnit u (fun x => { x with st := .kept, seq := 0, cvs := [] })
    let s := if cause = 0 then s else s.dropUnit u
    s.childDone q cause
/-- `UNIT_COMPLETE` (R38, R41, R52). -/
def execUnitComplete (u : Nat) (s : State) : Out :=
  if (Sparse.find s.units u).isSome ∧ s.unitDone u = true ∧ s.mayEnd u = true then .next (s.endUnit u 0)
  else .fault (.notEnabled "UNIT_COMPLETE")

/-! ### `GRID_END` (R53, R183, R187, R286) -/

/-- The command processor of a package under an ASID (R287). -/
def cmdParty (p asid : Nat) : Party := { pkg := p, site := { mast := true }, tlbs := [], asid := asid, eng := false, src := 4 }
/-- R282: a queue stops with an error code, and the owner master is told. -/
def State.stopQueue (s : State) (p q code : Nat) : State :=
  (s.modPkg p (fun x => x.setReg (0x2008 + 32 * q) (putBits (putBits (x.reg (0x2008 + 32 * q)) 39 32 code) 31 31 1))).packageEvent p
/-- R285, R286: an event count is raised. -/
def Package.addEvent (x : Package) (i n : Nat) : Package := x.setReg (0x4000 + 8 * i) (BitVec.ofNat 64 ((bits (x.reg (0x4000 + 8 * i)) 19 0 + n) % 2 ^ 20))
/-- R53, R183, R187: the flush of a grid: its shadow words merge and its slots are released. -/
def State.flushGrid (s : State) (gr asid : Nat) : State :=
  let s := s.pkgs.foldl (fun s e => s.mergeShadows e.1 (fun x => decide (x.asid = asid))) s
  s.pkgs.foldl (fun s e => (e.2.slots.filter (fun x => decide (x.grid = gr))).foldl (fun s x => s.releaseSlot e.1 x) s) s
/-- R185, R187: every shadow word of an ASID can be merged now. -/
def State.mayFlush (s : State) (asid : Nat) : Bool := s.pkgs.all (fun e => s.mergeable e.1 (fun x => decide (x.asid = asid)))
/-- R286: the completion record. -/
def State.completionBytes (s : State) (g : Grid) : List Byte :=
  bytesOfNat 4 g.tag.toNat ++ bytesOfNat 4 (g.status % 65536) ++ bytesOfNat 8 (s.pkg g.pkg).count
/-- R53, R266, R286: what is left of a grid goes, and its event is raised. -/
def State.closeGrid (s : State) (gr : Nat) : State :=
  let g := s.grid gr
  let s := match g.cev with | some e => s.modPkg g.pkg (fun x => x.addEvent e 1) | none => s
  { s with grids := Sparse.del s.grids gr
           pkgs := s.pkgs.map (fun e => (e.1, { e.2 with layouts := e.2.layouts.filter (fun x => decide (x.grid ≠ gr)) })) }
/-- `GRID_END` (R53, R286, R287). -/
def execGridEnd (gr : Nat) (s : State) : Out :=
  match Sparse.find s.grids gr with
  | none => .fault (.notEnabled "GRID_END")
  | some g =>
    if g.parked ≠ 0 ∨ (¬ g.failed ∧ g.rootsDone < g.rootCnt) ∨ ¬ s.mayFlush g.asid then .fault (.notEnabled "GRID_END")
    else
      let s := (s.flushGrid gr g.asid).thaw (fun _ _ => true)
      if g.record = 0 then .next (s.closeGrid gr)
      else
        let y := cmdParty g.pkg g.qasid
        match s.translate y g.record .write with
        | (s, .ok l _) => .next ((s.homeWrite none (some (g.pkg * 16 + 8)) l (s.completionBytes g)).closeGrid gr)
        | (s, .park kind pte) =>
          let r := s.parkOn y g.record kind pte .write
          .next (r.1.modGrid gr (fun g => { g with parked := r.2 + 1 }))
        | (s, _) => .next ((s.stopQueue g.pkg g.queue 4).closeGrid gr)

end Sys2Proof.Machine
end

