-- ==== Sys2Proof/Machine/Copy.lean ====
section
/-! DEFINITION. `MCOPY`, its chunks and their reservations, major 0x32 (R252 to R257, R262). -/

namespace Sys2Proof.Machine

/-! ### The descriptor (R253) -/

/-- A copy descriptor, as the words g(x) to g(x+7) give it. -/
structure CopyDesc where
  level : Nat
  up : Bool
  u : Nat
  c : Nat
  len : Nat
  first : Nat
  count : Nat
  stride : Nat
  ref : Word
  deriving DecidableEq, Repr, Inhabited
/-- Word i of a list. -/
def wordAt (ws : List Word) (i : Nat) : Nat := (ws.getD i 0).toNat
/-- The descriptor of some words. -/
def copyDesc (level : Nat) (up : Bool) (ws : List Word) : CopyDesc :=
  { level := level, up := up, u := wordAt ws 0 + 2 ^ 32 * wordAt ws 1, c := wordAt ws 2 + 2 ^ 32 * wordAt ws 3
    len := wordAt ws 4, first := wordAt ws 5 % 2 ^ 16, count := wordAt ws 5 / 2 ^ 16 + 1, stride := wordAt ws 6
    ref := ws.getD 7 0 }
/-- The descriptor of an `MCOPY` entry. -/
def RqEntry.copy (e : RqEntry) : Option CopyDesc :=
  match e.ins with
  | .mcopyDown _ k _ _ _ => some (copyDesc k false e.args)
  | .mcopyUp _ k _ _ _ => some (copyDesc k true e.args)
  | _ => none
/-- The copy counts into a barrier object. -/
def CopyDesc.counts (d : CopyDesc) : Bool := d.ref.getLsbD 25

/-- A context's own unit at a copy's level. -/
def State.copyUnit (s : State) (c : Ctx) (d : CopyDesc) : Nat := (s.ownUnit c d.level).getD c.unit
/-- R46: bytes of an L3 unit's die store. -/
def State.dieStore (s : State) (c : Ctx) : Nat := (s.gridOf c).dstore * 2 ^ 20
/-- The child of a unit that was created last at an index: a group's context at L1, else a unit. -/
def State.childAt (s : State) (u level i : Nat) : Option Nat :=
  if level = 1 then ((s.groupsOf u).filter (fun e => decide (e.2.index = i))).getLast?.map (·.1)
  else ((s.childUnits u).filter (fun x => decide ((s.unit x).index = i))).getLast?
/-- R257, R289: the memory of a child can be read: it has been placed, and what it left is kept. -/
def State.childKept (s : State) (level child : Nat) : Bool :=
  if level = 1 then
    match Sparse.find s.ctxs child with
    | some c => c.placed && (!c.retired || (s.gridOf c).seqL1)
    | none => false
  else match Sparse.find s.units child with
    | some u => decide (u.st ≠ .waiting)
    | none => false

/-- R255: the first check of a copy that fails at issue: cause and INFO. -/
def State.copyBad (s : State) (c : Ctx) (d : CopyDesc) : Option (Nat × Nat) :=
  let g := s.gridOf c
  let cu := s.copyUnit c d
  let off := fun i => d.u + i * d.stride
  let is := List.range d.count
  let uBad : Option Nat := match d.level with
    | 1 => is.findSome? (fun i => match s.ownStore c (off i) d.len with | .fault k => some k | _ => none)
    | 2 => is.findSome? (fun i => match s.clusterMem c (off i) d.len with | .fault k => some k | _ => none)
    | 3 => if s.dieStore c < off (d.count - 1) + d.len then some 8 else none
    | _ => if 2 ^ 57 < off (d.count - 1) + d.len then some 8 else none
  let cBad : Bool := match d.level with
    | 1 => decide (16 ≤ d.c) || decide (g.tiles < d.c + d.len / 1024)
    | 2 => decide (g.cstore * 4096 < d.c + d.len)
    | 3 => decide (2 ^ 23 ≤ d.c) || decide (g.clmem * 65536 < d.c % 2 ^ 22 + d.len)
    | 4 => decide (s.dieStore c < d.c + d.len)
    | _ => decide (2 ^ 57 < d.c + d.len)
  let child := fun i => s.childAt cu d.level (d.first + i)
  let missing := d.up && is.any (fun i => !(child i).any (fun x => s.childKept d.level x))
  let unsplit := decide (d.level = 3) && decide (2 ^ 22 ≤ d.c)
    && (!g.splitOk || is.any (fun i => (child i).any (fun x => s.childKept 3 x && !(s.unit x).split)))
  let obj := s.objectRef c (d.ref.toNat % 2 ^ 25)
  if d.u % 16 ≠ 0 ∨ d.stride % 16 ≠ 0 then some (7, d.u)
  else if d.level ≠ 1 ∧ d.c % 16 ≠ 0 then some (7, d.c)
  else if d.counts ∧ d.ref.toNat % 16 ≠ 0 then some (7, d.ref.toNat % 2 ^ 24)
  else if d.len % 16 ≠ 0 ∨ d.len < 16 ∨ 2 ^ 30 < d.len ∨ (d.level = 1 ∧ d.len % 1024 ≠ 0)
      ∨ 2 ^ g.width d.level < d.first + d.count then some (8, d.u)
  else match uBad, (if d.counts then obj else .ok .none) with
    | some k, _ => some (k, d.u)
    | none, .fault k => some (k, d.ref.toNat % 2 ^ 24)
    | none, _ =>
      if cBad ∨ missing then some (8, d.c)
      else if unsplit then some (9, d.c)
      else if wbits d.ref 31 26 ≠ 0 then some (8, d.ref.toNat % 2 ^ 24)
      else if d.up ∧ 1 < d.count ∧ d.stride < d.len then some (0x0E, 0)
      else none

/-- R302: copies that hold the queue of the issuing site. -/
def State.copiesQueued (s : State) (c : Ctx) : Nat :=
  let kind := fun (c : Ctx) => min 4 (max 1 (s.ctxLevel c))
  (s.ctxs.filter (fun x => decide (x.2.pkg = c.pkg) && decide (x.2.site = c.site) && decide (kind x.2 = kind c))).foldl
    (fun n x => n + (x.2.rq.filter (fun e => e.copy.isSome)).length) 0
/-- The bytes of a chunk. -/
def chunkBytes : Nat := 4096
/-- The chunks of one child's range. -/
def childChunks (child len from' : Nat) : List Chunk :=
  (List.range ((len + chunkBytes - 1) / chunkBytes)).map (fun j =>
    { child := child, off := chunkBytes * j, len := min chunkBytes (len - chunkBytes * j), from' := from' })
/-- The issue of an `MCOPY` (R39, R252 to R255). -/
def mcopy (i : Instr) (level : Nat) (up : Bool) (x y : Nat) (rel : Bool) (s : State) (c : Ctx) (l : Nat)
    (act : List Nat) : Eff :=
  let ws := (List.range 8).map (fun j => c.rdG (x + j))
  let d := copyDesc level up ws
  if level = 0 ∨ s.rootLvl c < level ∨ (c.kind = .seq ∧ level ≠ s.ctxLevel c) then .trap 2 [l] level
  else match s.copyBad c d with
    | some (k, info) => .trap k [l] info
    | none =>
      match (if d.counts then s.objectRef c (d.ref.toNat % 2 ^ 25) else .ok .none) with
      | .team u => .wait s (.team u)
      | o =>
        if c.kind = .seq ∧ c.evFull then .trap 0x12 [l] 0
        else
          let full := if 32 ≤ s.copiesQueued c then some .copyQueue else s.noRoom c (some .copy) false 0
          match full with
          | some h => .hold h
          | none =>
            let go := fun (s : State) =>
              let s := if c.kind = .seq then s.reserveEv s.cur.ctx else s
              let e := s.mkEntry c i l 7 (some .copy) [] [(l, {})] (ws ++ [c.rdG y, 0])
              let whose := fun (n : Nat) => if d.up then (match s.childAt (s.copyUnit c d) level n with | some x => x + 1 | none => 0) else 0
              Eff.ok (s.addEntry s.cur.ctx { e with
                chunks := (List.range d.count).flatMap (fun n => childChunks (d.first + n) d.len (whose (d.first + n)))
                obj := match o with | .ok a => a | _ => .none })
            if rel then releasingOnce s c act level go else go s
/-- `MCOPY.down` (R252 to R256). -/
def execMcopyDown (g : Guard) (lvl x y : Nat) (r : Bool) (s : State) : Out :=
  oncePerIssue (.mcopyDown g lvl x y r) s (fun s c l act => mcopy (.mcopyDown g lvl x y r) lvl false x y r s c l act)
/-- `MCOPY.up` (R252 to R257). -/
def execMcopyUp (g : Guard) (lvl x y : Nat) (r : Bool) (s : State) : Out :=
  oncePerIssue (.mcopyUp g lvl x y r) s (fun s c l act => mcopy (.mcopyUp g lvl x y r) lvl true x y r s c l act)

/-! ### Spans of global memory -/

/-- What the translation of a span gives. -/
inductive SpanRes
  | ok (segs : List (Loc × Nat))
  | park (id : Nat)
  | access
  deriving DecidableEq, Repr, Inhabited
/-- The first address of a span in each page that it touches. -/
def pagesOf (va n : Nat) : List Nat :=
  (List.range ((va + n - 1) / 4096 + 1 - va / 4096)).map (fun i => if i = 0 then va else (va / 4096 + i) * 4096)
/-- A span translated for a party, page by page; `fine` says which places it may name. -/
def State.span (s : State) (y : Party) (va n : Nat) (k : AccKind) (fine : Loc → Bool) : State × SpanRes :=
  (pagesOf va n).foldl (fun (r : State × SpanRes) a =>
    match r.2 with
    | .ok segs =>
      match r.1.translate y a k with
      | (s, .ok l _) => (s, if fine l then .ok (segs ++ [(l, min (va + n - a) (4096 - a % 4096))]) else .access)
      | (s, .park kind pte) => let t := s.parkOn y a kind pte k; (t.1, .park t.2)
      | (s, _) => (s, .access)
    | _ => r) (s, .ok [])
/-- R253, R254: which places the global side of a copy may name. -/
def localOnly (p : Nat) (l : Loc) : Bool := match l with | .hbm k => decide (keyPkg k = p) | _ => false
/-- Package memory, of this package or another. -/
def anyHbm (l : Loc) : Bool := match l with | .hbm _ => true | _ => false

/-! ### Chunks -/

/-- The copy engine that works for a context (R337). -/
def State.copyParty (s : State) (c : Ctx) : Party := { s.partyOf c true with src := 2 }
/-- The unit side of a chunk. -/
def State.unitSide (s : State) (c : Ctx) (d : CopyDesc) (x : Chunk) (k : AccKind) : State × SpanRes :=
  let a := d.u + (x.child - d.first) * d.stride + x.off
  let cu := s.copyUnit c d
  match d.level with
  | 1 => (s, .ok [(.store cu (a % 2 ^ 19), x.len)])
  | 2 | 3 => (s, .ok [(.store cu a, x.len)])
  | 4 => s.span (s.copyParty c) a x.len k (localOnly c.pkg)
  | _ => s.span (s.copyParty c) a x.len k anyHbm
/-- The child side of a chunk above L1; no request goes to a package that is no member of the pod (R428). -/
def State.childSide (s : State) (c : Ctx) (d : CopyDesc) (x : Chunk) (child : Nat) (k : AccKind) : State × SpanRes :=
  let a := d.c + x.off
  let u := s.unit child
  if d.level = 3 ∧ 2 ^ 22 ≤ a ∧ ¬ u.split then (s, .access)
  else if d.level ≤ 4 then (s, .ok [(.store child a, x.len)])
  else if ¬ s.podMember c.pkg u.pkg then (s, .access)
  else s.span { s.copyParty c with pkg := u.pkg, walker := some 8, tlbs := [] } a x.len k (localOnly u.pkg)
/-- R256, R257: the child of a chunk may be read or written now. -/
def State.childReady (s : State) (d : CopyDesc) (child : Nat) : Bool :=
  if d.level = 1 then
    let c := s.ctx child
    if d.up then c.placed || c.retired else (c.placed && !c.retired) || s.groupPlaceable child
  else
    let u := s.unit child
    if d.up then u.inPlace || decide (u.st = .kept)
    else u.inPlace || (decide (u.st = .waiting) && (s.placeable child).isSome)
/-- R254: a copy ends: its counter falls, and a sequencer's copy posts its record. -/
def State.endCopy (s : State) (k : Nat) (e : RqEntry) (d : CopyDesc) (status : Nat) : State :=
  let moved := (e.chunks.filter (fun x => decide (x.st = 3))).foldl (fun n x => n + x.len) 0
  let s := s.dropEntry k e.id
  if (s.ctx k).kind = .seq then
    s.postEv k { kind := 2, level := d.level, status := status, tag := e.args.getD 8 0
                 doneCount := if status = 0 then d.count * d.len else moved, aborted := 0 }
  else s
/-- R255, R394: a fault ends a copy and aborts its issuer's team or unit.  What is left of the copy is given up; its entry
stands until the abort's record has named the bytes that it counted. -/
def State.failCopy (s : State) (k : Nat) (e : RqEntry) (d : CopyDesc) (status : Nat) : State :=
  let moved := total (e.chunks.filter (fun x => decide (x.st = 3))) Chunk.len
  let s := s.modEntry k e.id (fun e => { e with chunks := e.chunks.map (fun x => if x.st = 3 then x else { x with st := 4, parked := 0 }) })
  let s := if (s.ctx k).kind = .seq then
      s.postEv k { kind := 2, level := d.level, status := status, tag := e.args.getD 8 0, doneCount := moved, aborted := 0 } else s
  s.startAbort (s.ctx k).unit status
/-- A chunk of an entry changed. -/
def State.modChunk (s : State) (k id ch : Nat) (f : Chunk → Chunk) : State :=
  s.modEntry k id (fun e => { e with chunks := e.chunks.zipIdx.map (fun x => if x.2 = ch then f x.1 else x.1) })
/-- R243, R244, R254: chunk ch has been written, its bytes are counted, and the last one ends the copy.  Every party that
can observe that is one of the issuer's package, so that the copy's release waits for the invalidations of that package;
those of other packages are the business of a release at L5 that its observer makes (R226, R281). -/
def State.chunkDone (s : State) (k id ch len lvl : Nat) (obj : Loc) : State :=
  let s := s.release (s.ctx k) (min lvl 4)
  let s := if obj = .none then s else s.countBytes obj len
  let s := (s.modChunk k id ch (fun x => { x with st := 3 })).modEntry k id (fun e =>
    { e with counted := e.counted + (if obj = .none then 0 else len) })
  match (s.ctx k).entry id with
  | some e => match e.copy with
    | some d => if e.chunks.all (fun x => decide (x.st = 3)) then s.endCopy k e d (wordAt e.args 9) else s
    | none => s
  | none => s
/-- A chunk of a copy of a context, with the copy's descriptor. -/
def Ctx.chunk (c : Ctx) (id ch : Nat) : Option (RqEntry × CopyDesc × Chunk) :=
  match c.entry id with
  | none => none
  | some e => match e.copy, e.chunks[ch]? with
    | some d, some x => some (e, d, x)
    | _, _ => none
/-- The place n bytes on in some pieces of storage. -/
def placeIn : List (Loc × Nat) → Nat → Loc
  | [], _ => .none
  | (l, m) :: r, n => if n < m then l.add n else placeIn r (n - m)
/-- The words of a chunk that have not been moved. -/
def Chunk.left (x : Chunk) : List Nat := (List.range (x.len / 4)).filter (fun j => !x.got.contains j)
/-- The bytes [off, off+n) of a chunk that a transfer moves: one word, or all that is left. -/
def Chunk.parts (x : Chunk) (only : Option Nat) : List (Nat × Nat) :=
  match only, x.got with
  | some j, _ => [(4 * j, 4)]
  | none, [] => [(0, x.len)]
  | none, _ => x.left.map (fun j => (4 * j, 4))
/-- Some pieces of storage, or their part [off, off+4) of them. -/
def partOf (l : List (Loc × Nat)) (whole : Bool) (y : Nat × Nat) : List (Loc × Nat) := if whole then l else [(placeIn l y.1, y.2)]
/-- What has been moved is noted: one word, or the chunk. -/
def State.moved (s : State) (k : Nat) (e : RqEntry) (d : CopyDesc) (ch : Nat) (x : Chunk) (only : Option Nat) : State :=
  match only with
  | some j => s.modChunk k e.id ch (fun x => { x with got := x.got ++ [j] })
  | none => s.chunkDone k e.id ch x.len d.level e.obj
/-- R254: a chunk's transfer between its two sides, or that of one word of it (R234); none while its request is held (R19,
R22, R187). -/
def State.moveChunk (s : State) (k : Nat) (e : RqEntry) (d : CopyDesc) (ch : Nat) (x : Chunk) (child : Nat) (only : Option Nat) : Option State :=
  let c := s.ctx k
  let parts := x.parts only
  let whole := only.isNone && x.got.isEmpty
  let park := fun (s : State) (p id : Nat) => some (s.modChunk k e.id ch (fun x => { x with parked := p * 2 ^ 32 + id + 1 }))
  match s.unitSide c d x (if d.up then .write else .read) with
  | (s, .park id) => park s c.pkg id
  | (s, .access) => some (s.failCopy k e d 8)
  | (s, .ok us) =>
    if d.level = 1 then
      let s := parts.foldl (fun s y =>
        if d.up then s.engineWrite c (partOf us whole y) (Sparse.getRun 0 (s.ctx child).tiles (1024 * d.c + x.off + y.1) y.2)
        else
          let r := s.engineRead c (partOf us whole y)
          r.1.modCtx child (fun g =>
            let g := { g with tiles := Sparse.setRun 0 g.tiles (1024 * d.c + x.off + y.1) r.2 }
            (List.range ((y.2 + 1023) / 1024)).foldl (fun g j => g.unbindT (d.c + (x.off + y.1) / 1024 + j)) g)) s
      some (s.moved k e d ch x only)
    else
      match s.childSide c d x child (if d.up then .read else .write) with
      | (s, .park id) => park s (s.unit child).pkg id
      | (s, .access) => some (s.failCopy k e d (if d.level = 3 then 9 else 8))
      | (s, .ok cs) =>
        if ¬ s.travels c.pkg c.site (us ++ cs) then none
        else
          let s := parts.foldl (fun s y =>
            let r := s.engineRead c (partOf (if d.up then cs else us) whole y)
            r.1.engineWrite c (partOf (if d.up then us else cs) whole y) r.2) s
          some (s.moved k e d ch x only)
/-- The package of the unit side of an L5 copy's chunk, as its first page translates. -/
def State.unitPkg (s : State) (c : Ctx) (d : CopyDesc) (x : Chunk) : Nat :=
  match s.xlate (s.copyParty c) (d.u + (x.child - d.first) * d.stride + x.off) (if d.up then .write else .read) with
  | .ok (.hbm k) _ => keyPkg k
  | _ => c.pkg
/-- What sends a bulk packet, a package and a site, and the package that receives it (R262). -/
structure BulkEnds where
  src : Nat
  site : Site
  target : Nat
  deriving DecidableEq, Repr, Inhabited
/-- R262: the ends of a copy's chunk whose two sides lie in different packages: it comes from the issuer's die, or from the
mast die of another package. -/
def State.copyEnds (s : State) (c : Ctx) (d : CopyDesc) (x : Chunk) : Option BulkEnds :=
  if d.level ≠ 5 then none
  else match s.childAt (s.copyUnit c d) 5 x.child with
    | none => none
    | some y =>
      let child := (s.unit y).pkg
      let unit := s.unitPkg c d x
      let from' := fun (p : Nat) => if p = c.pkg then c.site else { mast := true }
      if child = unit then none
      else some (if d.up then { src := child, site := from' child, target := unit } else { src := unit, site := from' unit, target := child })
/-- A chunk of a copy is written, or one word of it: not before what precedes the copy in its lane, nor before its child
exists, nor while the release that its completion is must wait (R243). -/
def copyChunk (k id ch : Nat) (only : Option Nat) (s : State) : Out :=
  let c := s.ctx k
  match c.chunk id ch with
  | none => .fault (.notEnabled "COPY_CHUNK_WRITE")
  | some (e, d, x) =>
    let cu := s.copyUnit c d
    match (if x.from' ≠ 0 then some (x.from' - 1) else s.childAt cu d.level x.child) with
    | none => .fault (.notEnabled "COPY_CHUNK_WRITE")
    | some child =>
      let late := decide (x.st = 2) && (s.copyEnds c d x).any (fun b => decide (x.window ≤ s.dieCount b.src b.site))
      if x.st = 3 ∨ x.st = 4 ∨ x.st = 1 ∨ x.parked ≠ 0 ∨ late ∨ ¬ c.laneClear id [e.leader] ∨ ¬ s.clockRuns c.pkg c.site
          ∨ (d.level ≤ 3 ∧ ¬ (s.unit cu).hasStore) ∨ only.any (fun j => !x.left.contains j) = true
          ∨ (only = none ∧ ¬ s.mayRelease c (min d.level 4)) then .fault (.notEnabled "COPY_CHUNK_WRITE")
      else if d.up ∧ s.childKept d.level child = false then .next (s.failCopy k e d 8)
      else if ¬ s.childReady d child then .fault (.notEnabled "COPY_CHUNK_WRITE")
      else
        match s.moveChunk k e d ch x child only with
        | some t => .next t
        | none => .fault (.notEnabled "COPY_CHUNK_WRITE")
/-- `COPY_CHUNK_WRITE` (R254 to R256, R262). -/
def execCopyChunkWrite (k id ch : Nat) (s : State) : Out := copyChunk k id ch none s
/-- R234, R254: one word of a chunk is moved alone. -/
def State.movePiece (s : State) (k id ch j : Nat) : State := match copyChunk k id ch (some j) s with | .next t => t | _ => s
/-- R256: when a copy's issuer has exited, what it owes to children that do not run is given up, with the copy
fault. -/
def State.abandonCopies (s : State) (k : Nat) : State :=
  (s.ctx k).rq.foldl (fun s e =>
    match e.copy with
    | none => s
    | some d =>
      let c := s.ctx k
      let cu := s.copyUnit c d
      let gone := fun (x : Chunk) => decide (x.st ≠ 3) && (match s.childAt cu d.level x.child with
        | none => true
        | some y => if d.level = 1 then !(s.ctx y).placed || (s.ctx y).retired else (match (s.unit y).st with | .waiting | .kept => true | _ => false))
      if d.up || !(c.lane e.leader).exited || !(e.chunks.any gone) then s
      else
        let s := s.modEntry k e.id (fun e => { e with chunks := e.chunks.filter (fun x => !gone x), args := e.args.set 9 0x0E })
        match (s.ctx k).entry e.id with
        | some e => if e.chunks.all (fun x => decide (x.st = 3)) then s.endCopy k e d 0x0E else s
        | none => s) s

end Sys2Proof.Machine
end

