-- ==== Sys2Proof/Machine/Combine.lean ====
section
/-! DEFINITION. The combine unit, major 0x34 (R189 to R199). -/

namespace Sys2Proof.Machine

/-! ### Handles and slots (R189, R190) -/

/-- A handle's fields. -/
structure Handle where
  pkg : Nat
  die : Nat
  slot : Nat
  gen : Nat
  deriving DecidableEq, Repr, Inhabited
/-- The handle of a word (R190). -/
def handleOf (w : Word) : Handle :=
  { pkg := wbits w 31 22, die := wbits w 21 19, slot := wbits w 18 7, gen := wbits w 6 0 }
/-- The word of a handle. -/
def Handle.word (h : Handle) : Word := BitVec.ofNat 32 (h.pkg * 2 ^ 22 + h.die * 2 ^ 19 + h.slot * 2 ^ 7 + h.gen)
/-- The key of a slot in its package. -/
def Handle.key (h : Handle) : Nat := h.die * 4096 + h.slot
/-- A combine slot of a package. -/
def Package.cmb (p : Package) (k : Nat) : CmbSlot := Sparse.get {} p.combine k
/-- The slot that a handle names. -/
def State.cmbSlot (s : State) (h : Handle) : CmbSlot := (s.pkg h.pkg).cmb h.key
/-- A combine slot of a package changed. -/
def State.modCmb (s : State) (p k : Nat) (f : CmbSlot → CmbSlot) : State :=
  s.modPkg p (fun q => { q with combine := Sparse.set {} q.combine k (f (q.cmb k)) })
/-- R190: the handle is current for an ASID. -/
def CmbSlot.current (x : CmbSlot) (h : Handle) (asid : Nat) : Bool :=
  decide (x.st ≠ .free) && decide (x.gen = h.gen) && decide (x.asid = asid)
/-- The slot has not released: it is open, or past its release point. -/
def CmbSlot.busy (x : CmbSlot) : Bool := decide (x.st = .opened) || decide (x.st = .due) || decide (x.st = .formed)
/-- The slots of a die. -/
def Package.dieSlots (p : Package) (die : Nat) : List (Nat × CmbSlot) :=
  p.combine.filter (fun e => decide (e.1 / 4096 = die))
/-- Bits set in a 16-bit mask. -/
def popcount16 (m : BitVec 16) : Nat := ((List.range 16).filter (fun i => m.getLsbD i)).length
/-- Bit e of a 16-bit mask. -/
def bit16 (e : Nat) : BitVec 16 := 1#16 <<< e
/-- The release point of a slot (R193): the tick at which it came. -/
def CmbSlot.release (x : CmbSlot) (t : Nat) (drop : Bool) : CmbSlot := { x with st := .due, deadline := some t, drop := drop }

/-! ### `CMBOPEN` (R39, R191) -/

/-- The descriptor checks of R191 step 1: cause and INFO of the first that fails, or the L3 unit. -/
def State.cmbDesc (s : State) (c : Ctx) (a : Nat) : Nat × Nat ⊕ Nat :=
  let out := (c.rdG a).toNat
  let stg := (c.rdG (a + 1)).toNat
  let w := c.rdG (a + 2)
  let exp := BitVec.ofNat 16 (wbits w 31 16)
  let W := 64 * (wbits w 15 8 + 1)
  let area := popcount16 exp * W
  if c.site.mast ∨ exp = 0 ∨ (out < stg + area ∧ stg < out + W) then .inl (0x10, 0)
  else if out % 64 ≠ 0 then .inl (7, out)
  else if stg % 64 ≠ 0 then .inl (7, stg)
  else match (if c.kind = .handler then none else s.ownUnit c 3) with
    | none => .inl (8, out)
    | some u =>
      if (s.unit u).site.die ≠ c.site.die ∨ s.dieStore c < out + W then .inl (8, out)
      else if s.dieStore c < stg + area then .inl (8, stg)
      else .inr u
/-- R39: the context whose event queue an open reserves a slot in. -/
def State.cmbQueue (s : State) (k : Nat) (c : Ctx) (u : Nat) : Option Nat :=
  if c.kind = .seq then some k else (s.unit u).seqCtx
/-- R189: the next free slot of a die in round-robin order; the first one after reset is slot 0 (log 46). -/
def Package.cmbFree (p : Package) (die : Nat) : Option Nat :=
  let start := Sparse.get 0 p.cmbNext die
  ((List.range 4096).map (fun i => (start + i) % 4096)).find? (fun i => !(p.cmb (die * 4096 + i)).busy)
/-- R191: the batch-table entries of a die in use, those of batches with a slot not released or a count not read (log 80), and
whether one serves an ASID's batch. -/
def Package.batchRoom (p : Package) (die asid batch : Nat) : Bool :=
  let held := ((p.dieSlots die).filter (fun e => e.2.busy)).map (fun e => (die * 2 ^ 16 + e.2.asid) * 256 + e.2.batch)
  let counted := (p.batches.filter (fun e => decide (e.1 / 2 ^ 24 = die))).map (·.1)
  let used : List Nat := (held ++ counted).eraseDups
  used.contains ((die * 2 ^ 16 + asid) * 256 + batch) || decide (used.length < 256)
/-- `CMBOPEN` (R191). -/
def execCmbopen (g : Guard) (d a : Nat) (s : State) : Out :=
  oncePerIssue (.cmbopen g d a) s (fun s c l act =>
    match s.cmbDesc c a with
    | .inl r => .trap r.1 [l] r.2
    | .inr u =>
      let q := s.cmbQueue s.cur.ctx c u
      if q.any (fun k => (s.ctx k).evFull) then .trap 0x12 [l] 0
      else
        let p := s.pkg c.pkg
        let w := c.rdG (a + 2)
        match p.cmbFree c.site.die, p.batchRoom c.site.die c.asid (wbits w 7 0) with
        | some i, true =>
          let key := c.site.die * 4096 + i
          let gen := ((p.cmb key).gen + 1) % 128
          let t := (c.rdG (a + 3)).toNat
          let x : CmbSlot :=
            { st := .opened, gen := gen, asid := c.asid, grid := c.grid, unit := u, exp := BitVec.ofNat 16 (wbits w 31 16)
              width := 64 * (wbits w 15 8 + 1), outOff := (c.rdG a).toNat, stgOff := (c.rdG (a + 1)).toNat
              deadline := if t = 0 then none else some (s.now c + t), batch := wbits w 7 0
              resv := match q with | some k => k + 1 | none => 0 }
          let h : Handle := { pkg := c.pkg, die := c.site.die, slot := i, gen := gen }
          let s := match q with | some k => s.reserveEv k | none => s
          let s := (s.modCmb c.pkg key (fun _ => x)).modPkg c.pkg (fun p =>
            { p with cmbNext := Sparse.set 0 p.cmbNext c.site.die ((i + 1) % 4096) })
          .ok (s.modCtx s.cur.ctx (fun c => (c.wrG d h.word).pushAll act true))
        | _, _ => .ok (s.modCtx s.cur.ctx (fun c => c.pushAll act false)))

/-! ### `CMBPUT` (R192, R193) -/

/-- `CMBPUT` (R192). -/
def execCmbput (g : Guard) (d a b : Nat) (s : State) : Out :=
  oncePerIssue (.cmbput g d a b) s (fun s c l _ =>
    let h := handleOf (c.rdG d)
    let src := c.rdG b
    let addr := wbits src 22 0
    let n := max 64 (s.cmbSlot h).width
    if addr % 64 ≠ 0 then .trap 7 [l] addr
    else if 2 ≤ wbits src 31 30 ∨ wbits src 29 23 ≠ 0 ∨ 16 ≤ (c.rdG a).toNat ∨ 3 ≤ s.ctxLevel c then .trap 8 [l] addr
    else match s.fillPlace c (wbits src 31 30) addr n with
      | .fault k => .trap k [l] addr
      | .team u => .wait s (.team u)
      | .ok o =>
        if ¬ s.podMember c.pkg h.pkg ∨ ¬ (s.pkg h.pkg).dieUp h.die then .trap 0x10 [l] 0
        else match s.noRoom c (some .copy) false 0 with
          | some r => .hold r
          | none => .ok (s.addEntry s.cur.ctx (s.mkEntry c (.cmbput g d a b) l 7 (some .copy) []
              [(l, { va := addr, len := n, pages := [o] })] [c.rdG d, c.rdG a, c.rdG (b + 1), maskOf (s.cohort c)])))
/-- R189: the place of expert e's row in the staging area. -/
def CmbSlot.stage (x : CmbSlot) (e : Nat) : Nat :=
  x.stgOff + x.width * ((List.range e).filter (fun i => x.exp.getLsbD i)).length
/-- R193: a late put. -/
def CmbSlot.markLate (x : CmbSlot) (e : Nat) : CmbSlot :=
  { x with late := x.late ||| bit16 e, lateCnt := min 255 (x.lateCnt + 1) }
/-- R19, R22: a put of a context reaches the unit of a package and die: the clocks of both sides run, and between packages
some plane carries it. -/
def State.putTravels (s : State) (c : Ctx) (h : Handle) (src : List (Loc × Nat)) : Bool :=
  s.travels c.pkg c.site src && s.clockRuns h.pkg { die := h.die }
    && (decide (h.pkg = c.pkg) || (List.range 8).any (s.pkg c.pkg).planeOpen)
/-- `CMBPUT_ARRIVAL` (R192, R193): the unit accepts or discards a put. -/
def execCmbputArrival (k id : Nat) (s : State) : Out :=
  let c := s.ctx k
  match c.entry id with
  | none => .fault (.notEnabled "CMBPUT_ARRIVAL")
  | some e =>
    let put : Bool := match e.ins with | .cmbput .. => true | _ => false
    let h := handleOf (e.args.getD 0 0)
    let cap := (Sparse.find e.caps e.leader).getD {}
    if !put || !c.laneClear id (lanesOf (e.args.getD 3 0)) || !s.putTravels c h cap.segs then
      .fault (.notEnabled "CMBPUT_ARRIVAL")
    else
      let x := s.cmbSlot h
      let n := wordAt e.args 1
      let t := s.dieCount h.pkg { die := h.die }
      let open' := decide (x.st = .opened) && (match x.deadline with | some z => decide (t ≤ z) | none => true)
      let s := s.dropEntry k id
      if ¬ x.current h c.asid then .next s
      else if open' && x.exp.getLsbD n && !x.arr.getLsbD n then
        let src := match cap.pages with | o :: _ => o | [] => .none
        let r := s.homeRead src x.width
        let s := r.1.homeWrite none none (.store x.unit (x.stage n)) r.2
        .next (s.modCmb h.pkg h.key (fun x =>
          let x := { x with arr := x.arr ||| bit16 n, gates := Sparse.set 0 x.gates n (e.args.getD 2 0) }
          if x.arr = x.exp then x.release t false else x))
      else .next (s.modCmb h.pkg h.key (fun x => x.markLate n))

/-! ### Release (R193 to R195) -/

/-- `COMBINE_TIMEOUT` (R193): the release point is the tick t0 + T, once the puts of that tick are in. -/
def execCombineTimeout (p die slot : Nat) (s : State) : Out :=
  let k := die * 4096 + slot
  let x := (s.pkg p).cmb k
  match decide (x.st = .opened) && s.clockRuns p { die := die }, x.deadline with
  | true, some t =>
    if t < s.dieCount p { die := die } then .next (s.modCmb p k (fun x => x.release t false))
    else .fault (.notEnabled "COMBINE_TIMEOUT")
  | _, _ => .fault (.notEnabled "COMBINE_TIMEOUT")
/-- The release point of (tick, slot) comes before another. -/
def pointBefore (a b : Nat × Nat) : Bool := decide (a.1 < b.1) || (decide (a.1 = b.1) && decide (a.2 < b.2))
/-- R194: the slot stands first among those of its die in a state, in the order of release points, and no slot can reach an
earlier one any more. -/
def Package.cmbFirst (p : Package) (die k : Nat) (st : CmbSt) : Bool :=
  let point := fun (e : Nat × CmbSlot) => (e.2.deadline.getD 0, e.1)
  decide ((p.cmb k).st = st) && !((p.dieSlots die).any (fun e =>
    (decide (e.2.st = st) || (decide (e.2.st = .opened) && e.2.deadline.isSome)) && pointBefore (point e) (point (k, p.cmb k))))
/-- R194: one element of the output row, over the arrived experts in ascending order. -/
def combineElem (x : CmbSlot) (row : Nat → Word) : Word × BitVec 6 :=
  ((List.range 16).filter (fun e => x.arr.getLsbD e)).foldl (fun (r : Word × BitVec 6) e =>
    let y := roundArith .fp32 false (fmaV (f32 (Sparse.get 0 x.gates e)) (f32 (row e)) (f32 r.1))
    (BitVec.ofNat 32 y.1, r.2 ||| y.2)) (0, 0)
/-- R195: the release word. -/
def releaseWord (sub : BitVec 16) (flags : BitVec 6) (written : Bool) : Word :=
  BitVec.ofNat 32 (sub.toNat * 2 ^ 16 + flags.toNat * 2 ^ 8 + if written then 1 else 0)
/-- `COMBINE_RELEASE` (R194): the output row is formed and written, once the tick of the release point has passed. -/
def execCombineRelease (p die slot : Nat) (s : State) : Out :=
  let k := die * 4096 + slot
  let x := (s.pkg p).cmb k
  if ¬ (s.pkg p).cmbFirst die k .due ∨ s.dieCount p { die := die } ≤ x.deadline.getD 0 then .fault (.notEnabled "COMBINE_RELEASE")
  else
    let sub := x.exp &&& ~~~x.arr
    if x.drop then
      .next (s.modCmb p k (fun x => { x with st := .formed, sub := sub, word := releaseWord sub 0 false }))
    else
      let n := x.width / 4
      let els := (List.range n).map (fun j => combineElem x (fun e => s.rdWord (.store x.unit (x.stage e + 4 * j))))
      let fl := els.foldl (fun f y => f ||| y.2) 0
      let s := s.homeWrite none none (.store x.unit x.outOff) (wordsBytes (els.map (·.1)))
      .next (s.modCmb p k (fun x => { x with st := .formed, sub := sub, word := releaseWord sub fl true }))
/-- `COMBINE_RELEASE_DONE` (R195, R196): the slot is free, its record posts, and its batch counts a substitution. -/
def execCombineReleaseDone (p die slot : Nat) (s : State) : Out :=
  let k := die * 4096 + slot
  let x := (s.pkg p).cmb k
  if ¬ (s.pkg p).cmbFirst die k .formed then .fault (.notEnabled "COMBINE_RELEASE_DONE")
  else
    let h : Handle := { pkg := p, die := die, slot := slot, gen := x.gen }
    let s := s.modCmb p k (fun x => { x with st := .released, resv := 0 })
    let b := (die * 2 ^ 16 + x.asid) * 256 + x.batch
    let s := if x.sub = 0 then s else s.modPkg p (fun q => { q with batches := Sparse.set 0 q.batches b (Sparse.get 0 q.batches b + 1) })
    if x.resv = 0 then .next s
    else .next (s.postEv (x.resv - 1) { kind := 4, level := 0, status := if x.sub = 0 then 0 else 0x100, tag := h.word
                                        doneCount := if x.drop then 0 else x.width, aborted := 0 })

/-! ### Waits, closes and status (R196 to R199) -/

/-- R199: an instruction on a slot of the issuing core's die. -/
def ownSlot (i : Instr) (a : Nat) (s : State) (f : State → Ctx → List Nat → Handle → CmbSlot → Eff) : Out :=
  oncePerIssue i s (fun s c l act =>
    let h := handleOf (c.rdG a)
    if c.site.mast ∨ h.pkg ≠ c.pkg ∨ h.die ≠ c.site.die then .trap 0x10 [l] 0
    else f s c act h (s.cmbSlot h))
/-- R195, R196: what a `CMBWAIT` returns, once it may. -/
def CmbSlot.answer (x : CmbSlot) (h : Handle) (asid : Nat) : Option Word :=
  if !x.current h asid then some 0x80 else if x.st = .released then some x.word else none
/-- `CMBWAIT` (R196). -/
def execCmbwait (g : Guard) (d a : Nat) (s : State) : Out :=
  ownSlot (.cmbwait g d a) a s (fun s c _ h x =>
    match x.answer h c.asid with
    | some w => .ok ((s.acquire c 3).modCtx s.cur.ctx (fun c => c.wrG d w))
    | none => .wait s (.combine h.word d))
/-- R196: a batch of an ASID on a die has no open slot. -/
def Package.batchIdle (p : Package) (die asid batch : Nat) : Bool :=
  !(p.dieSlots die).any (fun e => e.2.busy && decide (e.2.asid = asid) && decide (e.2.batch = batch))
/-- R196: a batch's count is taken and clears. -/
def State.takeBatch (s : State) (k : Nat) (c : Ctx) (batch d : Nat) : State :=
  let b := (c.site.die * 2 ^ 16 + c.asid) * 256 + batch
  let n := Sparse.get 0 (s.pkg c.pkg).batches b
  ((s.acquire c 3).modPkg c.pkg (fun q => { q with batches := Sparse.del q.batches b })).modCtx k
    (fun c => c.wrG d (BitVec.ofNat 32 n))
/-- `CMBWAIT.batch` (R196). -/
def execCmbwaitBatch (g : Guard) (d a : Nat) (s : State) : Out :=
  oncePerIssue (.cmbwaitBatch g d a) s (fun s c l _ =>
    let b := wbits (c.rdG a) 7 0
    if c.site.mast then .trap 0x10 [l] 0
    else if (s.pkg c.pkg).batchIdle c.site.die c.asid b then .ok (s.takeBatch s.cur.ctx c b d)
    else .wait s (.batch b d))
/-- The effect of `CMBCLOSE` (R193, R197): a slot whose time-out has run is past its release point. -/
def closeSlot (i : Instr) (a : Nat) (drop : Bool) (s : State) : Out :=
  ownSlot i a s (fun s c _ h x =>
    if x.current h c.asid ∧ x.st = .opened ∧ x.deadline.all (fun z => decide (s.now c ≤ z)) then .ok (s.modCmb h.pkg h.key (fun x => x.release (s.now c) drop)) else .ok s)
/-- `CMBCLOSE` (R197). -/
def execCmbclose (g : Guard) (a : Nat) (s : State) : Out := closeSlot (.cmbclose g a) a false s
/-- `CMBCLOSE.drop` (R197). -/
def execCmbcloseDrop (g : Guard) (a : Nat) (s : State) : Out := closeSlot (.cmbcloseDrop g a) a true s
/-- R198: what `CMBSTAT` returns. -/
def CmbSlot.stat (x : CmbSlot) (current : Bool) (sel : Nat) : Word :=
  let pair := fun (a b : BitVec 16) => BitVec.ofNat 32 (a.toNat * 65536 + b.toNat)
  match sel, current with
  | 0, true => pair x.arr x.exp
  | 1, true => pair x.sub x.late
  | 2, true => BitVec.ofNat 32 ((if x.st = .released then 2 else 1) * 2 ^ 30 + x.lateCnt * 2 ^ 16)
  | 2, false => 0xC0000000
  | _, _ => 0
/-- `CMBSTAT` (R198). -/
def execCmbstat (g : Guard) (d a sel : Nat) (s : State) : Out :=
  ownSlot (.cmbstat g d a sel) a s (fun s c _ h x =>
    .ok (s.modCtx s.cur.ctx (fun c' => c'.wrG d (x.stat (x.current h c.asid) sel))))

end Sys2Proof.Machine
end

