-- ==== Sys2Proof/Machine/Collective.lean ====
section
/-! DEFINITION. Collectives, major 0x36 (R267 to R277, R339). -/

namespace Sys2Proof.Machine

/-! ### Tickets and members (R267, R268) -/

/-- A ticket: table index, generation, and the low bits of the sequence number. -/
def CollEnt.ticket (x : CollEnt) (ix : Nat) : Word := BitVec.ofNat 32 (ix * 2 ^ 24 + x.gen * 2 ^ 16 + x.seq % 2 ^ 16)
/-- An entry of a package's collective table. -/
def Package.collAt (p : Package) (ix : Nat) : CollEnt := Sparse.get {} p.coll ix
/-- An entry of a package's collective table changed. -/
def State.modColl (s : State) (p ix : Nat) (f : CollEnt → CollEnt) : State :=
  s.modPkg p (fun q => { q with coll := Sparse.set {} q.coll ix (f (q.collAt ix)) })
/-- R264, R430: the number of a package in layouts: that of the lost one for which it stands, else its own. -/
def State.numberOf (s : State) (p : Nat) : Nat := match s.stands.find? (fun e => decide (e.2 = p)) with | some e => e.1 | none => p
/-- The package of a member. -/
def State.memberPkg (s : State) (y : Layout) (p m : Nat) : Nat := if y.lvl1 then s.pkgOf (y.first + m) else p
/-- The member that a context stands on, if it stands on one. -/
def State.memberOf (s : State) (y : Layout) (c : Ctx) : Option Nat :=
  let n := s.numberOf c.pkg
  if y.lvl1 then (if y.first ≤ n ∧ n < y.first + y.members then some (n - y.first) else none)
  else if c.site.mast ∨ c.site.die < y.first ∨ y.first + y.members ≤ c.site.die then none else some (c.site.die - y.first)
/-- R268: the counter key, in its package, of a member's issues on a tensor handle in a grid: the member is a die, or the
package itself. -/
def seqKey (gr : Nat) (th : Word) (lvl1 : Bool) (m : Nat) : Nat :=
  (gr * 2 ^ 32 + th.toNat) * 2 ^ 16 + (if lvl1 then 2 ^ 15 else m)
/-- The tensor handle of a grid on which two issues of members of one kind stand is one. -/
def CollEnt.sameHandle (x y : CollEnt) : Bool :=
  decide (x.grid = y.grid) && decide (x.th = y.th) && decide (x.src.lvl1 = y.src.lvl1)
/-- The die or package that an entry's member is. -/
def CollEnt.who (x : CollEnt) : Nat := x.src.first + x.member
/-- The entry in which a member issued the collective of an entry (R268): its k-th on the tensor handle. -/
def State.collPeer (s : State) (p : Nat) (x : CollEnt) (m : Nat) : Option (Nat × Nat × CollEnt) :=
  let q := s.memberPkg x.src p m
  ((s.pkg q).coll.find? (fun e => (e.2.used || e.2.doneFlag) && e.2.sameHandle x && decide (e.2.seq = x.seq)
    && decide (e.2.who = x.src.first + m))).map (fun e => (q, e.1, e.2))
/-- The entries of every member of the collective of an entry; none while a member has not issued it. -/
def State.collPeers (s : State) (p : Nat) (x : CollEnt) : Option (List (Nat × Nat × CollEnt)) :=
  let l := (List.range x.src.members).map (s.collPeer p x)
  if l.all Option.isSome then some (l.filterMap (fun e => e)) else none
/-- Every member of an entry's collective that has issued it changed. -/
def State.modPeers (s : State) (p : Nat) (x : CollEnt) (f : CollEnt → CollEnt) : State :=
  (List.range x.src.members).foldl (fun s m =>
    match s.collPeer p x m with
    | some e => if e.2.2.used then s.modColl e.1 e.2.1 f else s
    | none => s) s
/-- R338, R393: a collective ends with a status at every member. -/
def State.failColl (s : State) (p ix status : Nat) : State :=
  s.modPeers p ((s.pkg p).collAt ix) (fun x => { x with status := if x.status = 0 then status else x.status, parkedCh := [] })

/-! ### `COLL` (R267, R271, R339) -/

/-- The element format of a TYPE: INT32 has none. -/
def collFmt (ty : Nat) : Option Fmt := match ty with | 0 => some .fp32 | 2 => some .bf16 | _ => none
/-- The op adds or compares. -/
def collReduces (op : CollOp) : Bool := match op with | .sum | .max | .sumAccum => true | _ => false
/-- R267: two layouts describe one tensor over one member set. -/
def Layout.sameTensor (x y : Layout) : Bool :=
  decide (x.rank = y.rank) && decide (x.ext = y.ext) && decide (x.elsz = y.elsz) && decide (x.lvl1 = y.lvl1)
    && decide (x.first = y.first) && decide (x.members = y.members)
/-- Every member's shards have one shape in two layouts. -/
def Layout.sameShapes (x y : Layout) : Bool := (List.range x.members).all (fun m => decide (x.shape m = y.shape m))
/-- Source and destination bytes overlap on a member. -/
def Layout.overlap (x y : Layout) : Bool :=
  (List.range x.members).any (fun m => decide (x.addr m < y.addr m + y.bytes m) && decide (y.addr m < x.addr m + x.bytes m))
/-- R264, R265: how a dimension is sharded: none where it is replicated, else kind, axis size, axis weight and block. -/
def Layout.dimKind (y : Layout) (i : Nat) : Option (Nat × Nat × Nat × Nat) :=
  match y.sh.getD i (0, 0, 1) with
  | (0, _) => none
  | (k, a, b) => some (k, y.axes.getD a 1, prod (y.axes.drop (a + 1)), b)
/-- R271: the exchange code. -/
def exchange (op : CollOp) (x y : Layout) : Nat :=
  let ds := List.range x.rank
  if collReduces op then
    if ds.any (fun i => (y.dimKind i).isSome) && ds.all (fun i => (y.dimKind i).isNone || (x.dimKind i).isNone) then 2
    else if ds.all (fun i => (y.dimKind i).isNone && (x.dimKind i).isNone) then 3
    else 6
  else if ds.all (fun i => decide (x.dimKind i = y.dimKind i)) then 0
  else if decide (op = .copy) && ds.all (fun i => decide (x.dimKind i = y.dimKind i) || (y.dimKind i).isNone) then 1
  else if x.sameShapes y then 5
  else 4
/-- R324: the word of an ASID's entry whose staging fields are in force on a package. -/
def State.stagingOf (s : State) (p asid : Nat) : DWord :=
  match Sparse.find (s.pkg p).staging asid with | some w => w | none => (s.asidEntry p asid).2
/-- R324: the staging fields in force stay so. -/
def State.latchStaging (s : State) (p asid : Nat) : State :=
  let w := s.stagingOf p asid
  s.modPkg p (fun q => { q with staging := Sparse.put q.staging asid w })
/-- What a `COLL` reads of its descriptor. -/
structure CollDesc where
  src : Layout
  dst : Layout
  member : Nat
  ty : Nat
  first : Bool
  final : Bool
  area : Nat
  deriving DecidableEq, Repr, Inhabited
/-- R267 step 2: the collective fault, or the descriptor. -/
def State.collDesc (s : State) (c : Ctx) (op : CollOp) (a : Nat) : Option CollDesc :=
  let w := c.rdG (a + 2)
  let ty := wbits w 2 0
  match s.layoutAt c (wbits (c.rdG a) 15 0), s.layoutAt c (wbits (c.rdG a) 31 16) with
  | some x, some y =>
    match s.memberOf x c with
    | none => none
    | some m =>
      let acc := decide (op = .sumAccum)
      let tyBad := decide (2 < ty) || (collReduces op && decide (x.elsz ≠ (if ty = 2 then 1 else 2)))
      let bad := !x.sameTensor y || tyBad || decide (wbits w 31 10 ≠ 0) || decide (wbits w 7 3 ≠ 0)
        || (!acc && (decide (wbits w 9 8 ≠ 0) || decide (c.rdG (a + 3) ≠ 0))) || (acc && decide (ty = 1))
        || (decide (op = .copy) && x.overlap y) || (decide (op = .permute) && !x.sameShapes y)
        || decide (bits (s.stagingOf c.pkg c.asid) 11 0 = 0)
      if bad then none
      else some { src := x, dst := y, member := m, ty := ty, first := decide (wbits w 8 8 = 1)
                  final := decide (wbits w 9 9 = 1), area := (c.rdG (a + 3)).toNat }
  | _, _ => none
/-- R267 step 3: the L3 unit of the grid on a die that holds n bytes at an offset: the issuer's own where it is one. -/
def State.areaUnit (s : State) (c : Ctx) (area n : Nat) : Option Nat :=
  let die := area / 2 ^ 29
  let here := (s.units.filter (fun e => decide (e.2.grid = c.grid) && decide (e.2.pkg = c.pkg) && decide (e.2.level = 3)
    && e.2.inPlace && decide (e.2.site.die = die))).map (·.1)
  if s.dieStore c < area % 2 ^ 29 + n then none
  else match s.ownUnit c 3 with
    | some u => if here.contains u then some u else here.head?
    | none => here.head?
/-- R267 step 4: the table index that an allocation takes: round-robin. -/
def Package.collFree (p : Package) : Option Nat :=
  ((List.range 256).map (fun i => (p.collNext + i) % 256)).find? (fun i => !(p.collAt i).used)
/-- R272: bytes of a chunk. -/
def collChunk : Nat := 16384
/-- The chunks of a member's destination shard. -/
def shardChunks (n : Nat) : List Chunk :=
  (List.range ((n + collChunk - 1) / collChunk)).map (fun j =>
    { child := 0, off := collChunk * j, len := min collChunk (n - collChunk * j) })
/-- A chunk of the overflow area belongs to the collective that a member issues in an entry (R276). -/
def OvChunk.isFor (e : OvChunk) (x : CollEnt) (who : Nat) : Bool :=
  decide (e.grid = x.grid) && decide (e.th = x.th) && decide (e.lvl1 = x.src.lvl1) && decide (e.seq = x.seq) && decide (e.member = who)
/-- R267 steps 4 and 5; the chunks that stand in the overflow list for the member are its own from now on (R276).  The first
ticket has table index 0 and generation 1 (log 77). -/
def collIssue (i : Instr) (op : CollOp) (d a : Nat) (s : State) (c : Ctx) (l : Nat) (act : List Nat) (y : CollDesc) : Eff :=
  match s.noRoom c (some .coll) false 0 with
  | some h => .hold h
  | none =>
    match (s.pkg c.pkg).collFree with
    | none => .ok (s.modCtx s.cur.ctx (fun c => c.pushAll act false))
    | some ix =>
      let p := s.pkg c.pkg
      let th := c.rdG (a + 1)
      let who := y.src.first + y.member
      let key := seqKey c.grid th y.src.lvl1 who
      let n := Sparse.get 0 p.collSeq key + 1
      let x : CollEnt :=
        { gen := ((p.collAt ix).gen + 1) % 256, used := true, op := op, grid := c.grid, asid := c.asid, ctx := s.cur.ctx
          entry := c.nextId, th := th, seq := n, member := y.member, src := y.src, dst := y.dst, ty := y.ty
          first := y.first, final := y.final, area := y.area, exch := exchange op y.src y.dst }
      let x := { x with early := (p.overflow.filter (fun e => e.isFor x who)).map OvChunk.ch }
      let s := if c.kind = .seq then s.reserveEv s.cur.ctx else s
      let s := s.modPkg c.pkg (fun p =>
        { p with coll := Sparse.set {} p.coll ix x, collNext := (ix + 1) % 256, collSeq := Sparse.set 0 p.collSeq key n
                 overflow := p.overflow.filter (fun e => !e.isFor x who) })
      let e := s.mkEntry c i l 7 (some .coll) [] [(l, {})] [BitVec.ofNat 32 ix]
      let s := (s.latchStaging c.pkg c.asid).addEntry s.cur.ctx { e with chunks := shardChunks (y.dst.bytes y.member) }
      .ok (s.modCtx s.cur.ctx (fun c => (c.wrG d (x.ticket ix)).pushAll act true))
/-- `COLL` (R39, R267).  A misaligned accumulation area raises the alignment fault, before the access check (log 78). -/
def execColl (g : Guard) (d a : Nat) (op : CollOp) (s : State) : Out :=
  oncePerIssue (.coll g d a op) s (fun s c l act =>
    if c.kind = .seq ∧ c.evFull then .trap 0x12 [l] 0
    else match s.collDesc c op a with
      | none => .trap 0x0F [l] 0
      | some y =>
        let off := y.area % 2 ^ 29
        if op = .sumAccum ∧ off % 64 ≠ 0 then .trap 7 [l] off
        else if op = .sumAccum ∧ (s.areaUnit c y.area (48 * (y.dst.bytes y.member / y.dst.esz))).isNone then .trap 8 [l] off
        else collIssue (.coll g d a op) op d a s c l act y)

/-! ### `COLL_START` (R268) -/

/-- The halyard that works for a member (R328, R337). -/
def halyard (p asid : Nat) : Party := { pkg := p, site := { mast := true }, tlbs := [], asid := asid, eng := true, src := 3 }
/-- A span of a halyard. -/
def State.halyardSpan (s : State) (p asid va n : Nat) (k : AccKind) : State × SpanRes :=
  if 2 ^ 57 < va + n then (s, .access) else if n = 0 then (s, .ok []) else s.span (halyard p asid) va n k (fun _ => true)
/-- The chunk number under which the fault of a source read is kept. -/
def srcPark : Nat := 2 ^ 32
/-- R225: the party whose accesses a member's collective makes. -/
def State.collCtx (s : State) (p : Nat) (x : CollEnt) : Ctx :=
  (Sparse.find s.ctxs x.ctx).getD { pkg := p, site := { mast := true }, asid := x.asid, grid := x.grid }
/-- Two member sets have a member in common. -/
def Layout.meets (x y : Layout) : Bool :=
  decide (x.first < y.first + y.members) && decide (y.first < x.first + x.members)
/-- R268: every earlier collective on the tensor handle has completed at every member. -/
def State.collEarlierDone (s : State) (p : Nat) (x : CollEnt) : Bool :=
  !s.pkgs.any (fun e => (x.src.lvl1 || decide (e.1 = p)) && e.2.coll.any (fun y =>
    y.2.used && y.2.sameHandle x && decide (y.2.seq < x.seq) && y.2.src.meets x.src))
/-- R268: matched issues agree. -/
def CollEnt.agrees (x y : CollEnt) : Bool :=
  decide (x.op = y.op) && decide (x.src = y.src) && decide (x.dst = y.dst) && decide (x.ty = y.ty)
    && decide (x.first = y.first) && decide (x.final = y.final)
/-- R22: the packages of a collective's members reach each other over some plane. -/
def State.collCarried (s : State) (x : CollEnt) : Bool :=
  !x.src.lvl1 || decide (x.src.members ≤ 1) || (List.range x.src.members).all (fun m =>
    (List.range 8).any (s.pkg (s.pkgOf (x.src.first + m))).planeOpen)
/-- R428: the packages of a collective's members all send requests to each other. -/
def State.collReachable (s : State) (x : CollEnt) : Bool :=
  !x.src.lvl1 || (List.range x.src.members).all (fun m => (List.range x.src.members).all (fun n =>
    s.podMember (s.pkgOf (x.src.first + m)) (s.pkgOf (x.src.first + n))))
/-- What reading the sources of a collective's members gives. -/
inductive SrcRead
  | ok (bs : List Byte)
  /-- a source page faulted and is parked -/
  | parked
  | fail (status : Nat)
  /-- a request is held (R19) -/
  | held
  deriving DecidableEq, Repr, Inhabited
/-- R225, R268, R273: the sources of all members read, in member order. -/
def State.collSources (s : State) (l : List (Nat × Nat × CollEnt)) : State × SrcRead :=
  l.foldl (fun (r : State × SrcRead) e =>
    match r.2 with
    | .ok acc =>
      let x := e.2.2
      match r.1.halyardSpan e.1 x.asid (x.src.addr x.member) (x.src.bytes x.member) .read with
      | (s, .ok segs) =>
        if !s.travels e.1 { mast := true } segs then (s, .held)
        else let t := s.engineRead (s.collCtx e.1 x) segs; (t.1, .ok (acc ++ t.2))
      | (s, .park id) => (s.modColl e.1 e.2.1 (fun x => { x with parkedCh := x.parkedCh ++ [(srcPark, id)] }), .parked)
      | (s, .access) => (s, .fail 8)
    | _ => r) (s, .ok [])
/-- The entries of an issued collective's chunks, none refused any more. -/
def State.clearSends (s : State) (x : CollEnt) : State :=
  s.modEntry x.ctx x.entry (fun e => { e with chunks := e.chunks.map (fun y => { y with st := 0 }) })
/-- `COLL_START` (R268, R273, R428): the collective of an entry starts at every member. -/
def execCollStart (p ix : Nat) (s : State) : Out :=
  let x := (s.pkg p).collAt ix
  if x.used = true ∧ x.started = false ∧ x.status = 0 ∧ s.collReachable x = false then .next (s.failColl p ix 8)
  else match (if x.used && !x.started && decide (x.status = 0) then s.collPeers p x else none) with
  | none => .fault (.notEnabled "COLL_START")
  | some l =>
    let ready := l.all (fun e => match (Sparse.find s.ctxs e.2.2.ctx).bind (fun c => c.entry e.2.2.entry) with
      | some en => (s.ctx e.2.2.ctx).laneClear en.id [en.leader] && e.2.2.parkedCh.isEmpty
      | none => true)
    if ¬ ready ∨ ¬ s.collEarlierDone p x ∨ ¬ s.collCarried x then .fault (.notEnabled "COLL_START")
    else if l.any (fun e => decide (e.2.2.status ≠ 0)) || !l.all (fun e => e.2.2.agrees x) then .next (s.failColl p ix 0x0F)
    else match s.collSources l with
      | (s, .ok bs) =>
        .next ((l.foldl (fun s e => s.clearSends e.2.2) s).modPeers p x (fun y => { y with started := true, data := bs }))
      | (s, .parked) => .next s
      | (s, .fail k) => .next (s.failColl p ix k)
      | (_, .held) => .fault (.notEnabled "COLL_START")

/-! ### Values (R269, R270) -/

/-- Bytes of the sources of the members before m. -/
def CollEnt.base (x : CollEnt) (m : Nat) : Nat := ((List.range m).map x.src.bytes).foldl (· + ·) 0
/-- Element n of member m's source, as a number. -/
def CollEnt.elem (x : CollEnt) (m n : Nat) : Nat :=
  natOfBytes ((x.data.drop (x.base m + n * x.src.esz)).take x.src.esz)
/-- The elements that hold some global coordinates, in ascending member order. -/
def CollEnt.holders (x : CollEnt) (idx : List Nat) : List Nat :=
  (List.range x.src.members).filterMap (fun m => (x.src.find m idx).map (x.elem m))
/-- The FP32 code of an element: a BF16 one is widened, and its subnormals read as zero. -/
def widen (F : Fmt) (v : Nat) : Word :=
  match F with
  | .bf16 => BitVec.ofNat 32 ((if v / 2 ^ 7 % 2 ^ 8 = 0 then v / 2 ^ 15 * 2 ^ 15 else v) * 2 ^ 16)
  | _ => BitVec.ofNat 32 v
/-- An accumulation area's element from zero (R270). -/
def emptyAcc : RedSlot := { (default : RedSlot) with nz := true }
/-- R182: an accumulation rounded to a format. -/
def RedSlot.roundTo (x : RedSlot) (F : Fmt) : Nat := roundAcc F x.nan x.pinf x.ninf x.nz x.acc
/-- R272: the sum of elements with NDFP 1: each step rounded, in an order that begins at member `turn`; an element that one
member holds is read and written as a number too (R107, R114). -/
def stepSum (F : Fmt) (turn : Nat) (l : List Nat) : Nat :=
  let k := turn % max 1 l.length
  match l.drop k ++ l.take k with
  | [] => 0
  | v :: r => r.foldl (fun a b => (roundArith F false (sumV [readF F a, readF F b])).1) (roundArith F false (sumV [readF F v])).1
/-- R269: a destination element from the elements that hold it. -/
def collValue (op : CollOp) (ty : Nat) (ndfp : Bool) (turn : Nat) (l : List Nat) : Nat :=
  match op, collFmt ty with
  | .sum, none => l.foldl (· + ·) 0 % 2 ^ 32
  | .sum, some F =>
    if ndfp then stepSum F turn l else (l.foldl (fun z v => z.add (widen F v)) emptyAcc).roundTo F
  | .max, none => ((l.map (BitVec.ofNat 32)).foldl (fun (a b : Word) => if a.slt b then b else a) 0x80000000).toNat
  | .max, some F => match l with | [] => 0 | v :: r => r.foldl (fun a b => maxCodeOf F a b) (maxCodeOf F v v)
  | _, _ => l.headD 0
/-- R270: the 48 bytes of an element of the accumulation area. -/
def RedSlot.areaBytes (x : RedSlot) : List Byte :=
  bytesOfNat 40 x.acc.toNat ++ bytesOfNat 8 ((if x.nan then 1 else 0) + (if x.pinf then 2 else 0)
    + (if x.ninf then 4 else 0) + (if x.nz then 8 else 0))
/-- The element that 48 bytes of the accumulation area hold. -/
def areaAcc (bs : List Byte) : RedSlot :=
  let f := natOfBytes ((bs.drop 40).take 1)
  { (default : RedSlot) with acc := BitVec.ofNat 320 (natOfBytes (bs.take 40)), nan := f.testBit 0, pinf := f.testBit 1
                             ninf := f.testBit 2, nz := f.testBit 3 }

/-! ### `COLL_CHUNK_ARRIVAL` (R272, R276) -/

/-- Chunks of the member's destination shard. -/
def CollEnt.chunkCount (x : CollEnt) : Nat := (x.dst.bytes x.member + collChunk - 1) / collChunk
/-- Elements of chunk ch of the destination shard: the first, and how many. -/
def CollEnt.chunkElems (x : CollEnt) (ch : Nat) : Nat × Nat :=
  let lo := ch * collChunk / x.dst.esz
  (lo, min (collChunk / x.dst.esz) (x.dst.bytes x.member / x.dst.esz - lo))
/-- The values of a chunk's elements. -/
def CollEnt.values (x : CollEnt) (ndfp : Bool) (turn ch : Nat) : List Nat :=
  let r := x.chunkElems ch
  (List.range r.2).map (fun i => collValue x.op x.ty ndfp turn (x.holders (x.dst.global x.member (r.1 + i))))
/-- The bytes of a chunk's elements. -/
def CollEnt.bytesFor (x : CollEnt) (l : List Nat) : List Byte := l.flatMap (bytesOfNat x.dst.esz)
/-- R270, R272: a chunk added into the accumulation area; the roundings of its elements.  With NDFP 1 the members' elements
are added on the way, each step rounded. -/
def State.accumulate (s : State) (c : Ctx) (o : Loc) (x : CollEnt) (ndfp : Bool) (turn ch : Nat) : State × List Nat :=
  let r := x.chunkElems ch
  let F := (collFmt x.ty).getD .fp32
  let els := (List.range r.2).map (fun i =>
    let n := r.1 + i
    let z := if x.first then emptyAcc else areaAcc (s.rdBytes (o.add (48 * n)) 48)
    let l := x.holders (x.dst.global x.member n)
    (if ndfp then [stepSum F turn l] else l).foldl (fun z v => z.add (widen F v)) z)
  (s.engineWrite c [(o.add (48 * r.1), 48 * r.2)] (els.flatMap RedSlot.areaBytes), els.map (fun z => z.roundTo F))

/-! #### Staging (R276, R339) -/

/-- R276, R339: the staging region of an ASID on a package: its first address, and how many chunks it holds. -/
def State.stagingRoom (s : State) (p asid : Nat) : Nat × Nat :=
  let w := s.stagingOf p asid
  (bits w 56 12 * 4096, 64 * bits w 11 0)
/-- The places of an ASID's staging region on a package that hold chunks. -/
def State.stagingUsed (s : State) (p asid : Nat) : List Nat :=
  (s.pkg p).coll.flatMap (fun e => if e.2.used ∧ e.2.asid = asid then e.2.staged.map (·.2) else [])
/-- R276: a chunk has yet to be staged: in native mode, unless it is copied locally, where no chunk arrives. -/
def State.toStage (s : State) (p ch : Nat) (x : CollEnt) : Bool :=
  decide ((s.pkg p).fld 0x0510 63 63 = 0) && decide (x.exch ≠ 0) && !x.staged.any (fun e => decide (e.1 = ch))
/-- n bytes that the spec does not give. -/
def State.freeBytes (s : State) (n : Nat) : State × List Byte :=
  let bs := (List.range ((n + 7) / 8)).flatMap (fun i => bytesOfNat 8 (Config.freeWord (s.free + i)).toNat)
  ({ s with free := s.free + (n + 7) / 8 }, bs.take n)
/-- R276, R339: an arriving chunk is staged; none while it waits for space.  Which bytes a reduction's chunk carries there,
the spec leaves open (log 47). -/
def State.stageChunk (s : State) (p ix ch : Nat) (x : CollEnt) : Option State :=
  let s := s.latchStaging p x.asid
  let room := s.stagingRoom p x.asid
  let used := s.stagingUsed p x.asid
  match (List.range room.2).find? (fun i => !used.contains i) with
  | none => none
  | some i =>
    let n := (x.chunkElems ch).2 * x.dst.esz
    match s.halyardSpan p x.asid (room.1 + collChunk * i) n .write with
    | (s, .park id) => some (s.modColl p ix (fun x => { x with parkedCh := x.parkedCh ++ [(ch, id)] }))
    | (s, .access) => some (s.failColl p ix 8)
    | (s, .ok segs) =>
      let r := if collReduces x.op then s.freeBytes n else (s, x.bytesFor (x.values false 0 ch))
      some ((r.1.engineWrite (r.1.collCtx p x) segs r.2).modColl p ix (fun x => { x with staged := x.staged ++ [(ch, i)] }))

/-! #### Slots of the home reduction units (R185, R272) -/

/-- R272: the units at which the words of a chunk are added, with how many: package, unit and count. -/
def State.addUnits (s : State) (p : Nat) (x : CollEnt) (ch : Nat) (segs : List (Loc × Nat)) : List (Nat × Nat × Nat) :=
  if x.op = .sumAccum then [(p, x.area / 2 ^ 29, (x.chunkElems ch).2)]
  else if x.op ≠ .sum ∨ (collFmt x.ty).isNone ∨ (s.grid x.grid).ndfp then []
  else
    let us := segs.filterMap (fun g => match g.1 with | .hbm _ => some (s.unitSite g.1, (g.2 + x.dst.esz - 1) / x.dst.esz) | _ => none)
    (us.map (·.1)).eraseDups.map (fun u => (u.1, u.2, total (us.filter (fun g => decide (g.1 = u))) (·.2)))
/-- The chunk holds its slots. -/
def State.chunkPinned (s : State) (p ix ch : Nat) : Bool :=
  s.pkgs.any (fun e => e.2.pins.any (fun y => decide (y.pkg = p) && decide (y.ix = ix) && decide (y.ch = ch)))
/-- R185, R272: a chunk takes slots on the units that add its words: none while some unit has none for it. -/
def State.pinChunk (s : State) (p ix ch asid : Nat) (us : List (Nat × Nat × Nat)) : Option State :=
  us.foldl (fun o u => o.bind (fun s =>
    let r := s.takeSlots u.1 u.2.1 asid u.2.2 0
    if r.2 = 0 then none
    else some (r.1.modPkg u.1 (fun q =>
      { q with pins := q.pins ++ [{ site := u.2.1, asid := asid, pkg := p, ix := ix, ch := ch, n := r.2 }] })))) (some s)
/-- The slots that chunks of an entry hold are free again. -/
def State.unpin (s : State) (p ix : Nat) (f : Nat → Bool) : State :=
  { s with pkgs := mapVals s.pkgs (fun _ (q : Package) => if q.pins.isEmpty then q else
      { q with pins := q.pins.filter (fun y => !(decide (y.pkg = p) && decide (y.ix = ix) && f y.ch)) }) }

/-! #### The last step (R269, R273) -/

/-- A chunk has passed its last step at a member: its staging place and its slots are free. -/
def State.arrive (s : State) (p ix ch : Nat) : State :=
  (s.unpin p ix (fun y => decide (y = ch))).modColl p ix (fun x =>
    { x with chunks := x.chunks ++ [ch], staged := x.staged.filter (fun e => decide (e.1 ≠ ch))
             got := x.got.filter (fun e => decide (e.1 ≠ ch)) })
/-- Bytes of a chunk of the destination shard. -/
def CollEnt.chunkLen (x : CollEnt) (ch : Nat) : Nat := (x.chunkElems ch).2 * x.dst.esz
/-- The address of a chunk of the destination shard. -/
def CollEnt.chunkAddr (x : CollEnt) (ch : Nat) : Nat := x.dst.addr x.member + ch * collChunk
/-- The part of n bytes from an address on that lies in the j-th aligned word they touch: its first byte, and how many. -/
def wordSpan (a n j : Nat) : Nat × Nat :=
  let lo := 4 * j - a % 4
  (lo, min n (4 * (j + 1) - a % 4) - lo)
/-- The parts of a chunk that are still to be written: all of it, or the words that were not written alone. -/
def CollEnt.unwritten (x : CollEnt) (ch : Nat) : List (Nat × Nat) :=
  let a := x.chunkAddr ch
  let n := x.chunkLen ch
  if x.got.any (fun e => decide (e.1 = ch)) then
    ((List.range ((a % 4 + n + 3) / 4)).filter (fun j => !x.got.contains (ch, j))).map (wordSpan a n)
  else [(0, n)]
/-- Parts of a chunk's bytes written at their places. -/
def State.writeParts (s : State) (c : Ctx) (segs : List (Loc × Nat)) (bs : List Byte) (l : List (Nat × Nat)) : State :=
  l.foldl (fun s w =>
    s.engineWrite c (partOf segs (decide (w = (0, bs.length))) w) ((bs.drop w.1).take w.2)) s
/-- R269, R270: the bytes that a chunk brings to the destination, and the state with what the op adds into the
accumulation area; none where that area is gone. -/
def State.formChunk (s : State) (p ch : Nat) (x : CollEnt) : Option (State × List Byte) :=
  let turn := (Config.freeWord s.free).toNat
  let s := { s with free := s.free + 1 }
  let c := s.collCtx p x
  let ndfp := (s.grid x.grid).ndfp
  if x.op = .sumAccum then
    (s.areaUnit c x.area 0).map (fun u =>
      let t := s.accumulate c (.store u (x.area % 2 ^ 29)) x ndfp turn ch
      (t.1, if x.final then x.bytesFor t.2 else []))
  else some (s, x.bytesFor (x.values ndfp turn ch))
/-- R269, R270: a chunk's words are formed, and those not written alone are written where the op writes them. -/
def State.writeChunk (s : State) (p ix ch : Nat) (x : CollEnt) (segs : List (Loc × Nat)) : State :=
  match s.formChunk p ch x with
  | some (s, []) => s.arrive p ix ch
  | some (s, bs) => (s.writeParts (s.collCtx p x) segs bs (x.unwritten ch)).arrive p ix ch
  | none => s.failColl p ix 8
/-- The pieces of storage to which a chunk goes, if the op writes the destination. -/
def State.chunkSegs (s : State) (p ch : Nat) (x : CollEnt) : State × SpanRes :=
  if x.op = .sumAccum ∧ ¬ x.final then (s, .ok []) else s.halyardSpan p x.asid (x.chunkAddr ch) (x.chunkLen ch) .write
/-- R269, R272, R273: a chunk's next step at a member: it is staged, its words take slots, and it is written; none while
it waits. -/
def State.lastStep (s : State) (p ix ch : Nat) (x : CollEnt) : Option State :=
  if s.toStage p ch x then s.stageChunk p ix ch x
  else
    match s.chunkSegs p ch x with
    | (s, .park id) => some (s.modColl p ix (fun x => { x with parkedCh := x.parkedCh ++ [(ch, id)] }))
    | (s, .access) => some (s.failColl p ix 8)
    | (s, .ok segs) =>
      if !s.travels p { mast := true } segs then none
      else
        let us := s.addUnits p x ch segs
        if us.isEmpty || s.chunkPinned p ix ch then some (s.writeChunk p ix ch x segs) else s.pinChunk p ix ch x.asid us

/-! #### The overflow area (R275, R276) -/

/-- R276: the overflow area of a package holds this many chunks. -/
def Package.overflowRoom (p : Package) : Nat := 64 * p.fld 0x0510 11 0
/-- The record of a chunk that a member's `COLL` keeps for its bulk packets (R262). -/
def State.sent (s : State) (x : CollEnt) (ch : Nat) : Chunk :=
  (((s.ctx x.ctx).entry x.entry).bind (fun e => e.chunks[ch]?)).getD default
/-- R262: the bulk packet of a chunk may travel now: it was not dropped, or its reserved window runs at its sender. -/
def State.mayTravel (s : State) (x : CollEnt) (from' ch : Nat) : Bool :=
  let y := s.sent x ch
  decide (y.st = 0) || (decide (y.st = 2) && decide (s.dieCount from' { mast := true } < y.window))
/-- R276: the first member that has not issued the collective of an entry and whose overflow list lacks a chunk. -/
def State.lacking (s : State) (p ch : Nat) (x : CollEnt) : Option Nat :=
  (List.range x.src.members).find? (fun m => (s.collPeer p x m).isNone
    && !(s.pkg (s.memberPkg x.src p m)).overflow.any (fun e => e.isFor x (x.src.first + m) && decide (e.ch = ch)))
/-- R276: a chunk of a collective that has not started arrives, in compatibility mode, at a member that has not
issued it: it joins that member's overflow list, or a drop notice answers it (R262); none where it stands in every such list.
What the list holds beside the chunk, and where, the spec leaves open (log 47). -/
def State.overflowChunk (s : State) (p ch : Nat) (x : CollEnt) : Option State :=
  match s.lacking p ch x with
  | none => none
  | some m =>
    let q := s.memberPkg x.src p m
    let l := (s.pkg q).overflow
    let who := x.src.first + m
    let st := fun (n : Nat) (s : State) => s.modChunk x.ctx x.entry ch (fun y => { y with st := n, window := s.cycle })
    match (List.range (s.pkg q).overflowRoom).find? (fun i => l.all (fun e => decide (e.node ≠ i))) with
      | none => some (st 1 s)
      | some i =>
        let r := s.freeBytes collChunk
        let s := r.1.homeWrite none none (.hbm (hbmKey q ((s.pkg q).fld 0x0510 51 12 * 4096 + collChunk * i))) r.2
        some (st 0 (s.modPkg q (fun z => { z with overflow := z.overflow ++
          [{ grid := x.grid, th := x.th, lvl1 := x.src.lvl1, seq := x.seq, member := who, ch := ch, node := i }] })))
/-- The package that sends a member a chunk: the one before it on the ring. -/
def State.sender (s : State) (x : CollEnt) (p : Nat) : Nat :=
  if x.src.lvl1 then s.pkgOf (x.src.first + (x.member + x.src.members - 1) % max 1 x.src.members) else p
/-- R262, R272, R276: a started collective's chunk may come to its last step at a member: it has not, it is not parked, and it
may travel, where it did not stand in the overflow list when the member issued. -/
def State.chunkComes (s : State) (p ch : Nat) (x : CollEnt) : Bool :=
  x.used && x.started && decide (x.status = 0) && decide (ch < x.chunkCount) && !x.chunks.contains ch
    && !x.parkedCh.any (fun e => decide (e.1 = ch))
    && (x.early.contains ch || (s.mayTravel x (s.sender x p) ch && s.collCarried x))
/-- `COLL_CHUNK_ARRIVAL` (R269 to R276). -/
def execCollChunkArrival (p ix ch : Nat) (s : State) : Out :=
  let x := (s.pkg p).collAt ix
  let done := fun (o : Option State) => match o with | some t => .next t | none => .fault (.notEnabled "COLL_CHUNK_ARRIVAL")
  if ¬ x.used ∨ x.status ≠ 0 ∨ x.chunkCount ≤ ch then .fault (.notEnabled "COLL_CHUNK_ARRIVAL")
  else if s.collReachable x = false ∧ (x.started = true ∨ (s.pkg p).fld 0x0510 63 63 = 1) then .next (s.failColl p ix 8)
  else if x.started then
    if s.chunkComes p ch x then done (s.lastStep p ix ch x) else .fault (.notEnabled "COLL_CHUNK_ARRIVAL")
  else if (s.pkg p).fld 0x0510 63 63 = 1 ∧ s.mayTravel x p ch ∧ s.collCarried x then done (s.overflowChunk p ch x)
  else .fault (.notEnabled "COLL_CHUNK_ARRIVAL")

/-! ### Words apart (R234) -/

/-- Chunk ch of a member's destination shard takes bytes [lo, lo+n) of member m's source. -/
def CollEnt.takes (x : CollEnt) (m lo n ch : Nat) : Bool :=
  let r := x.chunkElems ch
  (List.range r.2).any (fun i => (x.src.find m (x.dst.global x.member (r.1 + i))).any (fun e =>
    decide (e * x.src.esz < lo + n) && decide (lo < (e + 1) * x.src.esz)))
/-- The chunks of a member that have been written, at least in part. -/
def CollEnt.touched (x : CollEnt) : List Nat := x.chunks ++ x.got.map (·.1)
/-- A member's chunk takes bytes [lo, lo+n) of member m's source and has been formed of them, or has been written over the
addresses from a on at which they stand in package p. -/
def CollEnt.past (x : CollEnt) (q p m a lo n : Nat) : Bool :=
  (x.touched ++ x.staged.map (·.1)).any (x.takes m lo n)
    || (decide (q = p) && x.touched.any (fun ch => decide (x.chunkAddr ch < a + n) && decide (a < x.chunkAddr ch + x.chunkLen ch)))
/-- R234, R268: one word of a member's source is read again, after the start and before anything is formed of it: each word
has its own time of reading. -/
def State.collReadWord (s : State) (p ix j : Nat) : State :=
  let x := (s.pkg p).collAt ix
  let w := wordSpan (x.src.addr x.member) (x.src.bytes x.member) j
  let a := x.src.addr x.member + w.1
  if ¬ x.used ∨ ¬ x.started ∨ x.status ≠ 0 ∨ w.2 = 0 then s
  else match s.collPeers p x with
    | none => s
    | some l =>
      if l.any (fun e => e.2.2.past e.1 p x.member a w.1 w.2) then s
      else match s.halyardSpan p x.asid a w.2 .read with
        | (t, .ok segs) =>
          if !t.travels p { mast := true } segs then s
          else
            let r := t.engineRead (t.collCtx p x) segs
            r.1.modPeers p x (fun y => { y with data := overlayBytes 0 y.data (x.base x.member + w.1) r.2 })
        | _ => s
/-- R234, R272: one word of a chunk is written at its member before the rest, where the chunk could be written.  With NDFP 1
the word's rounding and the area's are of one order, so that `.sum.accum` writes them together. -/
def State.collWriteWord (s : State) (p ix ch j : Nat) : State :=
  let x := (s.pkg p).collAt ix
  let w := wordSpan (x.chunkAddr ch) (x.chunkLen ch) j
  if ¬ s.chunkComes p ch x ∨ ¬ s.collReachable x ∨ s.toStage p ch x ∨ w.2 = 0 ∨ x.got.contains (ch, j)
      ∨ (x.op = .sumAccum ∧ (¬ x.final ∨ (s.grid x.grid).ndfp)) then s
  else match s.chunkSegs p ch x with
    | (t, .ok segs) =>
      let us := t.addUnits p x ch segs
      if !t.travels p { mast := true } segs || (!us.isEmpty && !t.chunkPinned p ix ch) then s
      else match t.formChunk p ch x with
        | some (u, bs) =>
          (({ t with free := u.free }).writeParts (t.collCtx p x) segs bs [w]).modColl p ix (fun x => { x with got := x.got ++ [(ch, j)] })
        | none => s
    | _ => s

/-! ### Completion (R273, R274) -/

/-- The bytes that a member's collective writes. -/
def CollEnt.written (x : CollEnt) : Nat :=
  if x.op = .sumAccum ∧ ¬ x.final then 0
  else (x.chunks.map (fun ch => (x.chunkElems ch).2 * x.dst.esz)).foldl (· + ·) 0
/-- `COLL_COMPLETE` (R243, R273): at one member.  A `COLL` has no level operand, which R38 gives a record's LEVEL; the record
of a sequencer's takes the level of the members, 5 or 4 (log 48). -/
def execCollComplete (p ix : Nat) (s : State) : Out :=
  let x := (s.pkg p).collAt ix
  let lvl := if x.src.lvl1 then 5 else 4
  if ¬ x.used ∨ (x.status = 0 ∧ (¬ x.started ∨ x.chunks.length < x.chunkCount)) ∨ ¬ s.mayRelease (s.collCtx p x) lvl then
    .fault (.notEnabled "COLL_COMPLETE")
  else
    let s := ((s.release (s.collCtx p x) lvl).unpin p ix (fun _ => true)).modColl p ix (fun x =>
      { x with used := false, doneFlag := true, staged := [], got := [] })
    let s := s.dropEntry x.ctx x.entry
    if (s.ctx x.ctx).kind = .seq then
      .next (s.postEv x.ctx { kind := 3, level := lvl, status := x.status, tag := x.th
                              doneCount := x.written, aborted := 0 })
    else .next s
/-- R274: the status word of a ticket. -/
def State.collStatus (s : State) (c : Ctx) (t : Word) : Word :=
  let x := (s.pkg c.pkg).collAt (wbits t 31 24)
  if x.gen ≠ wbits t 23 16 ∨ ¬ (x.used ∨ x.doneFlag) then 2
  else BitVec.ofNat 32 (x.status * 2 ^ 16 + x.exch * 2 ^ 12 + (if x.doneFlag then 1 else 0))
/-- The wait of a ticket ends: it is complete, or stale. -/
def collReady (w : Word) : Bool := w.getLsbD 0 || w.getLsbD 1
/-- `COLLWAIT` (R243, R274). -/
def execCollwait (g : Guard) (d a : Nat) (s : State) : Out :=
  oncePerIssue (.collwait g d a) s (fun s c _ _ =>
    let t := c.rdG a
    let w := s.collStatus c t
    if collReady w then .ok ((s.acquire c 5).modCtx s.cur.ctx (fun c => c.wrG d w))
    else .wait s (.ticket (wbits t 31 24) (wbits t 23 16) d))
/-- `COLLQ` (R243, R274). -/
def execCollq (g : Guard) (d a : Nat) (s : State) : Out :=
  oncePerIssue (.collq g d a) s (fun s c _ act =>
    let w := s.collStatus c (c.rdG a)
    let s := if w.getLsbD 0 then s.acquire c 5 else s
    .ok (s.modCtx s.cur.ctx (fun c => (c.wrG d w).pushAll act (w.getLsbD 0))))

end Sys2Proof.Machine
end

