-- ==== Sys2Proof/Machine/Bulk.lean ====
section
/-! DEFINITION. Bulk packets: dropped chunks of copies and collectives, and their reservations (R262). -/

namespace Sys2Proof.Machine

/-- The ends of a collective's chunk that is on its way: it comes to its member from the one before it, or, before the
collective has started, from the issuing member to one that has not issued it (R276). -/
def State.collEnds (s : State) (k : Nat) (c : Ctx) (e : RqEntry) (ch : Nat) : Option BulkEnds :=
  let x := (s.pkg c.pkg).collAt (wordAt e.args 0)
  if ¬ x.used ∨ x.ctx ≠ k ∨ x.entry ≠ e.id ∨ x.src.lvl1 = false ∨ x.exch = 0 ∨ x.src.members ≤ 1 then none
  else if x.started then
    if (x.touched ++ x.early ++ x.staged.map (·.1) ++ x.parkedCh.map (·.1)).contains ch || s.chunkPinned c.pkg (wordAt e.args 0) ch then none
    else some { src := s.sender x c.pkg, site := { mast := true }, target := c.pkg }
  else if (s.pkg c.pkg).fld 0x0510 63 63 = 1 then
    (s.lacking c.pkg ch x).map (fun m => { src := c.pkg, site := { mast := true }, target := s.memberPkg x.src c.pkg m })
  else none
/-- The ends of a chunk of an entry that travels as a bulk packet. -/
def State.bulkEnds (s : State) (k : Nat) (c : Ctx) (e : RqEntry) (ch : Nat) (x : Chunk) : Option BulkEnds :=
  if x.len < 4096 then none
  else match e.copy with
    | some d => s.copyEnds c d x
    | none => if e.cls = some .coll then s.collEnds k c e ch else none
/-- A chunk of an entry of a context that travels as a bulk packet, with its ends. -/
def State.bulkChunk (s : State) (k id ch : Nat) : Option (Chunk × BulkEnds) :=
  match (s.ctx k).entry id with
  | none => none
  | some e => match e.chunks[ch]? with
    | some x => (s.bulkEnds k (s.ctx k) e ch x).map (fun b => (x, b))
    | none => none
/-- The chunks that wait for or hold a reservation of a package. -/
def State.reserved (s : State) (target : Nat) : List Chunk :=
  s.ctxs.flatMap (fun e => e.2.rq.flatMap (fun r => r.chunks.zipIdx.filterMap (fun x =>
    if x.1.st ≠ 1 ∧ x.1.st ≠ 2 then none
    else if (s.bulkEnds e.1 e.2 r x.2 x.1).any (fun b => decide (b.target = target)) then some x.1 else none)))
/-- `DROP_NOTICE` (R262): a switch drops a bulk packet, and its source requests a reservation. -/
def execDropNotice (k id ch : Nat) (s : State) : Out :=
  match s.bulkChunk k id ch with
  | some (x, _) =>
    if x.st = 0 ∧ x.parked = 0 then .next (s.modChunk k id ch (fun x => { x with st := 1, window := s.cycle }))
    else .fault (.notEnabled "DROP_NOTICE")
  | none => .fault (.notEnabled "DROP_NOTICE")
/-- R262: a window of at least the chunk's transfer time at port rate, 100 bytes a tick. -/
def windowOf (x : Chunk) : Nat := x.len / 100 + 1
/-- Fabric ports of a package that are up. -/
def Package.livePorts (p : Package) : Nat := ((List.range 24).filter (fun i => !p.portsDown.getLsbD i)).length
/-- `RESERVATION_GRANT` (R262): the target grants in request order, 64 reservations for each live port; the window runs on
the source's copy of the count. -/
def execReservationGrant (k id ch : Nat) (s : State) : Out :=
  match s.bulkChunk k id ch with
  | some (x, b) =>
    let same := s.reserved b.target
    let older := same.any (fun y => decide (y.st = 1) && decide (y.window < x.window))
    let held := (same.filter (fun y => decide (y.st = 2))).length
    if x.st = 1 ∧ ¬ older ∧ held < 64 * (s.pkg b.target).livePorts then
      .next (s.modChunk k id ch (fun x => { x with st := 2, window := s.dieCount b.src b.site + windowOf x }))
    else .fault (.notEnabled "RESERVATION_GRANT")
  | none => .fault (.notEnabled "RESERVATION_GRANT")
/-- `RESERVATION_WINDOW_MISS` (R262): the source asks again. -/
def execReservationWindowMiss (k id ch : Nat) (s : State) : Out :=
  match s.bulkChunk k id ch with
  | some (x, b) =>
    if x.st = 2 ∧ x.window ≤ s.dieCount b.src b.site then
      .next (s.modChunk k id ch (fun x => { x with st := 1, window := s.cycle }))
    else .fault (.notEnabled "RESERVATION_WINDOW_MISS")
  | none => .fault (.notEnabled "RESERVATION_WINDOW_MISS")

end Sys2Proof.Machine
end

