-- ==== Sys2Proof/Machine/Image.lean ====
section
/-! DEFINITION. Images of stopped work: frames (R371), replay entries and operand logs (R372, R373), group and team
images (R79 to R83), engine images (R171), and context areas (R389). -/

namespace Sys2Proof.Machine

/-! ### Bytes of images -/

/-- Bytes padded with zeros to a 64-byte boundary (R80). -/
def pad64 (bs : List Byte) : List Byte := bs ++ List.replicate ((64 - bs.length % 64) % 64) 0
/-- A length rounded up to a 64-byte boundary. -/
def up64 (n : Nat) : Nat := (n + 63) / 64 * 64
/-- n bytes of an image at an offset, as a number. -/
def imgNat (img : List Byte) (off n : Nat) : Nat := natOfBytes ((img.drop off).take n)
/-- A 32-bit word of an image. -/
def imgWord (img : List Byte) (off : Nat) : Nat := imgNat img off 4
/-- Four bytes of a byte map, as a number. -/
def four (m : Sparse Byte) (k : Nat) : Nat := natOfBytes (Sparse.getRun 0 m k 4)
/-- Four bytes of a byte map written. -/
def putFour (m : Sparse Byte) (k w : Nat) : Sparse Byte := Sparse.setRun 0 m k (bytesOfNat 4 w)
/-- All 32 bits of a word. -/
def full32 : Nat := 2 ^ 32 - 1

/-! ### The header word (R79) -/

/-- STASH of GRPRES: the per-lane stash is 64 bytes shifted left by it. -/
def stashCode (n : Nat) : Nat := Nat.log2 (n / 64)
/-- The header word of an image of a kind, a length in bytes and a target's counts. -/
def imgHeader (g : Grid) (team srcB : Bool) (len : Nat) : Nat :=
  2 ^ 56 + (if team then 2 else 1) * 2 ^ 52 + (if srcB then 2 ^ 51 else 0) + len / 64
    + (if team then g.cstore * 2 ^ 24
       else stashCode g.stash * 2 ^ 48 + g.sregs / 8 * 2 ^ 44 + g.accs / 2 * 2 ^ 40 + g.tiles / 2 * 2 ^ 36
         + g.gregs / 16 * 2 ^ 32 + g.vregs / 8 * 2 ^ 24)

/-! ### The group image (R80, R81) -/

/-- Where the blocks of a group image begin. -/
structure ImgOff where
  uni : Nat
  pred : Nat
  res : Nat
  stash : Nat
  acc : Nat
  scale : Nat
  vtag : Nat
  ttag : Nat
  tile : Nat
  len : Nat
  deriving DecidableEq, Repr
/-- R80: the blocks of a grid's group image. -/
def Grid.img (g : Grid) : ImgOff :=
  let uni := 0x240 + 128 * g.vregs
  let pred := up64 (uni + 4 * g.gregs)
  let stash := pred + 64 + 1024
  let acc := stash + 32 * g.stash
  let scale := acc + 1024 * g.accs
  let vtag := scale + 40 * g.sregs
  let tile := up64 (vtag + 128 + 8 * g.tiles)
  { uni := uni, pred := pred, res := pred + 64, stash := stash, acc := acc, scale := scale, vtag := vtag
    ttag := vtag + 128, tile := tile, len := tile + 1024 * g.tiles }
/-- R80: the PC of a lane in its group image: a lane inside a hint sequence stands at its first hint word (R94). -/
def Lane.imgPc (x : Lane) : Nat := (x.pc - BitVec.ofNat 64 (4 * x.hints.length)).toNat % 2 ^ 57
/-- The word at an offset of a group image, and the mask of its bits that belong to a field; bytes 24 to 31 of a record in band
form are written as zeros and not checked (log 75). -/
def Ctx.fieldAt (c : Ctx) (g : Grid) (o : Nat) : Nat × Nat :=
  let m := g.img
  if o < 8 then (imgHeader g false c.site.isB m.len / 2 ^ (8 * o) % 2 ^ 32, full32)
  else if o < 12 then (c.fpflags.toNat, 0x3F)
  else if o < 16 then (0, 0)
  else if o < 32 then
    (natOfBytes ((List.range 4).map (fun i => BitVec.ofNat 8 (c.regionSet.getD (o - 16 + i) 255))), full32)
  else if o < 64 then (0, 0)
  else if o < 0x240 then
    let x := c.lane ((o - 64) / 16)
    match o % 16 / 4 with
    | 0 => (x.imgPc % 2 ^ 32, full32)
    | 1 => (x.imgPc / 2 ^ 32 + (if x.exited then 2 ^ 25 else 0), 2 ^ 26 - 1)
    | 2 => (x.passOver % 128, 127)
    | _ => (0, 0)
  else if o < m.uni then ((Sparse.get 0 c.v ((o - 0x240) / 4)).toNat, full32)
  else if o < m.uni + 4 * g.gregs then ((Sparse.get 0 c.g ((o - m.uni) / 4)).toNat, full32)
  else if o < m.pred then (0, 0)
  else if o < m.pred + 32 then
    (natOfBytes ((List.range 4).map (fun i => (c.lane (o - m.pred + i)).pred)), full32)
  else if o < m.res then (0, 0)
  else if o < m.stash then ((Sparse.get 0 c.e ((o - m.res) / 4)).toNat, full32)
  else if o < m.acc then
    let x := o - m.stash
    (four c.stash (2048 * (x / g.stash) + x % g.stash), full32)
  else if o < m.scale then ((Sparse.get 0 c.accs ((o - m.acc) / 4)).toNat, full32)
  else if o < m.vtag then
    let n := (o - m.scale) / 40
    let r := (o - m.scale) % 40
    if r < 32 then (four c.scales (32 * n + r), full32)
    else if r = 32 then ((Sparse.get 0 c.sctl n).toNat, 0x1F)
    else (0, 0)
  else if o < m.ttag then
    let n := (o - m.vtag) / 2
    ((c.vtag n).toNat + 2 ^ 16 * (c.vtag (n + 1)).toNat, 0x83FF83FF)
  else if o < m.ttag + 8 * g.tiles then
    if o % 8 = m.ttag % 8 then ((c.ttag ((o - m.ttag) / 8)).toNat, 0xFBFF) else (0, 0)
  else if o < m.tile then (0, 0)
  else (four c.tiles (o - m.tile), full32)
/-- A lane's image PC written: a lane that it moves leaves its wait and its hints. -/
def Ctx.putPc (c : Ctx) (l pc : Nat) : Ctx :=
  if pc = (c.lane l).imgPc then c
  else c.modLane l (fun x => { x with pc := BitVec.ofNat 64 pc, hints := [], wait := .none })
/-- The word at an offset of a group image written into the group; zero and padding fields are left out, and so are bytes 24
to 31 of a scale register in band form, which its control word clears (R63). -/
def Ctx.putWord (c : Ctx) (g : Grid) (o w : Nat) : Ctx :=
  let m := g.img
  if o < 8 then c
  else if o < 12 then { c with fpflags := BitVec.ofNat 6 w }
  else if o < 16 then c
  else if o < 32 then
    let old := (List.range 16).map (fun i => c.regionSet.getD i 255)
    let new := (List.range 16).map (fun i => if o - 16 ≤ i ∧ i < o - 12 then w / 2 ^ (8 * (i % 4)) % 256 else old.getD i 255)
    { c with regionSet := new, staged := [] }
  else if o < 64 then c
  else if o < 0x240 then
    let l := (o - 64) / 16
    let x := c.lane l
    match o % 16 / 4 with
    | 0 => c.putPc l (x.imgPc / 2 ^ 32 * 2 ^ 32 + w)
    | 1 => (c.putPc l (w % 2 ^ 25 * 2 ^ 32 + x.imgPc % 2 ^ 32)).modLane l (fun x => { x with exited := w.testBit 25 })
    | 2 => c.modLane l (fun x => { x with passOver := w % 128 })
    | _ => c
  else if o < m.uni then { c with v := Sparse.set 0 c.v ((o - 0x240) / 4) (BitVec.ofNat 32 w) }
  else if o < m.uni + 4 * g.gregs then { c with g := Sparse.set 0 c.g ((o - m.uni) / 4) (BitVec.ofNat 32 w) }
  else if o < m.pred then c
  else if o < m.pred + 32 then
    c.modLanes ((List.range 4).map (fun i => o - m.pred + i)) (fun l x => { x with pred := BitVec.ofNat 8 (w / 2 ^ (8 * (l % 4))) })
  else if o < m.res then c
  else if o < m.stash then { c with e := Sparse.set 0 c.e ((o - m.res) / 4) (BitVec.ofNat 32 w) }
  else if o < m.acc then
    let x := o - m.stash
    { c with stash := putFour c.stash (2048 * (x / g.stash) + x % g.stash) w }
  else if o < m.scale then { c with accs := Sparse.set 0 c.accs ((o - m.acc) / 4) (BitVec.ofNat 32 w) }
  else if o < m.vtag then
    let n := (o - m.scale) / 40
    let r := (o - m.scale) % 40
    if r < 32 then if c.sBand n ∧ 24 ≤ r then c else { c with scales := putFour c.scales (32 * n + r) w }
    else if r = 32 then
      let c := { c with sctl := Sparse.set 0 c.sctl n (BitVec.ofNat 5 w) }
      if c.sBand n then c.setPayload n (c.sPayload n) true else c
    else c
  else if o < m.ttag then
    let n := (o - m.vtag) / 2
    { c with vtags := Sparse.set 0 (Sparse.set 0 c.vtags n (BitVec.ofNat 16 w)) (n + 1) (BitVec.ofNat 16 (w / 2 ^ 16)) }
  else if o < m.ttag + 8 * g.tiles then
    if o % 8 = m.ttag % 8 then { c with ttags := Sparse.set 0 c.ttags ((o - m.ttag) / 8) (BitVec.ofNat 16 w) } else c
  else if o < m.tile then c
  else { c with tiles := putFour c.tiles (o - m.tile) w }
/-- The word offsets of an image of n bytes. -/
def wordOffs (n : Nat) : List Nat := (List.range (n / 4)).map (fun i => 4 * i)
/-- The first n words of an image. -/
def imgWords : Nat → List Byte → List Nat
  | 0, _ => []
  | n + 1, bs => natOfBytes (bs.take 4) :: imgWords n (bs.drop 4)
/-- The words of an image of n bytes, each with its offset. -/
def imgFields (n : Nat) (img : List Byte) : List (Nat × Nat) := (wordOffs n).zip (imgWords (n / 4) img)
/-- The group image (R80). -/
def Ctx.groupImage (c : Ctx) (g : Grid) : List Byte := (wordOffs g.img.len).flatMap (fun o => bytesOfNat 4 (c.fieldAt g o).1)
/-- R83: a group takes the contents of an image; none is the image fault. -/
def Ctx.fromImage (c : Ctx) (g : Grid) (img : List Byte) : Option Ctx :=
  let c0 := { c with lanes := c.lanes.map (fun e => (e.1, { e.2 with wait := .none, hints := [] })), arrived := [], phase2 := false, sctl := [] }
  let ws := imgFields g.img.len img
  let c1 := ws.foldl (fun c e => c.putWord g e.1 e.2) c0
  let hd := imgNat img 0 8
  let srcB := decide (hd / 2 ^ 51 % 2 = 1)
  if hd = imgHeader g false srcB g.img.len
      ∧ ws.all (fun e => decide (e.1 < 8) || decide (e.2 &&& (full32 - (c1.fieldAt g e.1).2) = 0))
  then some c1 else none

/-! ### The team image (R70, R82) -/

/-- Bytes of a team image. -/
def Grid.teamLen (g : Grid) : Nat := 192 + 4096 * g.cstore
/-- The word at an offset of a team image, and the mask of its bits that belong to a field. -/
def WUnit.fieldAt (u : WUnit) (g : Grid) (srcB : Bool) (o : Nat) : Nat × Nat :=
  if o < 8 then (imgHeader g true srcB g.teamLen / 2 ^ (8 * o) % 2 ^ 32, full32)
  else if o < 64 then (0, 0)
  else if o < 192 then
    let r := u.cv ((o - 64) / 16)
    match o % 16 / 4 with
    | 0 => (r.decl.toNat, full32)
    | 1 => (r.signed.toNat, full32)
    | 2 => ((if r.coll then 1 else 0) + 2 * (r.owner % 32), 0x3F)
    | _ => (0, 0)
  else (four u.store (o - 192), full32)
/-- The word at an offset of a team image written into the team. -/
def WUnit.putWord (u : WUnit) (o w : Nat) : WUnit :=
  if o < 64 then u
  else if o < 192 then
    let v := (o - 64) / 16
    let r := u.cv v
    let r := match o % 16 / 4 with
      | 0 => { r with decl := BitVec.ofNat 32 w }
      | 1 => { r with signed := BitVec.ofNat 32 w }
      | 2 => { r with coll := w.testBit 0, owner := w / 2 % 32 }
      | _ => r
    { u with cvs := Sparse.set {} u.cvs v r }
  else { u with store := putFour u.store (o - 192) w }
/-- The team image (R82). -/
def WUnit.teamImage (u : WUnit) (g : Grid) (srcB : Bool) : List Byte :=
  (wordOffs g.teamLen).flatMap (fun o => bytesOfNat 4 (u.fieldAt g srcB o).1)
/-- R83: a team takes the contents of an image; none is the image fault. -/
def WUnit.fromImage (u : WUnit) (g : Grid) (img : List Byte) : Option WUnit :=
  let ws := imgFields g.teamLen img
  let u1 := ws.foldl (fun u e => u.putWord e.1 e.2) u
  let hd := imgNat img 0 8
  if hd = imgHeader g true (decide (hd / 2 ^ 51 % 2 = 1)) g.teamLen
      ∧ ws.all (fun e => decide (e.1 < 8) || decide (e.2 &&& (full32 - (u1.fieldAt g false e.1).2) = 0))
  then some u1 else none

/-! ### The engine image (R171) -/

/-- A block placed among others by how far it stands from a consume counter. -/
def insertBlock (cons : Nat) (b : Block) : List Block → List Block
  | [] => [b]
  | x :: r => if (b.pos + 2 ^ 16 - cons) % 2 ^ 16 ≤ (x.pos + 2 ^ 16 - cons) % 2 ^ 16 then b :: x :: r else x :: insertBlock cons b r
/-- The blocks of a stream that have arrived, in window order from its consume counter upward modulo 2^16: those that posted
entries have yet to read among them. -/
def Stream.saved (x : Stream) : List Block := (x.blocks.filter (fun b => b.arrived)).foldr (insertBlock x.cons) []
/-- A block's record. -/
def Block.image (b : Block) : List Byte :=
  bytesOfNat 64 (b.pos + b.slot * 2 ^ 16) ++ (b.data ++ List.replicate 1024 0).take 1024 ++ (b.record ++ List.replicate 512 0).take 512
/-- An ungranted entry's record. -/
def passImage (e : RqEntry) : List Byte :=
  match e.pass with
  | some p => bytesOfNat 16 (e.word.toNat + p.posA * 2 ^ 32 + p.posB * 2 ^ 48 + p.quarter * 2 ^ 64 + p.prio * 2 ^ 66
      + (if p.ovA then 2 ^ 69 else 0) + (if p.ovB then 2 ^ 70 else 0))
  | none => []
/-- Bytes of an engine image with some counts. -/
def engineLen (nba nbb nres : Nat) : Nat := 64 + up64 (16 * nres) + 1600 * (nba + nbb)
/-- The engine image of a group; fol says that an array folio goes with it. -/
def Ctx.engineImage (c : Ctx) (fol : Bool) : List Byte :=
  let a := c.strA.saved
  let b := c.strB.saved
  let es := c.rq.filter RqEntry.ungranted
  bytesOfNat 8 (2 ^ 56 + a.length * 2 ^ 52 + b.length * 2 ^ 48 + es.length * 2 ^ 42 + (if c.gs64 then 2 ^ 41 else 0)
      + (if fol then 2 ^ 40 else 0) + engineLen a.length b.length es.length / 64)
    ++ bytesOfNat 8 (c.strA.fill + c.strA.cons * 2 ^ 16 + c.strB.fill * 2 ^ 32 + c.strB.cons * 2 ^ 48)
    ++ bytesOfNat 48 c.quarter ++ pad64 (es.flatMap passImage) ++ (a ++ b).flatMap Block.image
/-- The block of a record. -/
def blockOf (bs : List Byte) : Block :=
  let d := imgNat bs 0 8
  { pos := d % 2 ^ 16, slot := d / 2 ^ 16 % 8, arrived := true, entry := 0, data := (bs.drop 64).take 1024, record := bs.drop 1088 }
/-- The counts NBA, NBB and NRES of an engine image. -/
def engineCounts (img : List Byte) : Nat × Nat × Nat :=
  let h := imgNat img 0 8
  (h / 2 ^ 52 % 16, h / 2 ^ 48 % 16, h / 2 ^ 42 % 64)
/-- R171: VERSION, LENGTH and the zero fields of an engine image are sound.  The padding after a block's record is no field
(log 49). -/
def engineSound (img : List Byte) : Bool :=
  let h := imgNat img 0 8
  let n := engineCounts img
  let at' := 64 + up64 (16 * n.2.2)
  decide (h / 2 ^ 56 = 1) && decide (h / 2 ^ 24 % 2 ^ 16 = 0) && decide (h % 2 ^ 24 * 64 = engineLen n.1 n.2.1 n.2.2)
    && decide (n.1 ≤ 8) && decide (n.2.1 ≤ 8) && decide (n.2.2 ≤ 32) && decide (imgNat img 16 48 < 4)
    && (List.range n.2.2).all (fun i => decide (imgNat img (64 + 16 * i) 16 < 2 ^ 71))
    && decide (imgNat img (64 + 16 * n.2.2) (at' - 64 - 16 * n.2.2) = 0)
    && (List.range (n.1 + n.2.1)).all (fun i => decide (imgNat img (at' + 1600 * i) 64 < 2 ^ 19))
/-- The group takes its streams, counters and ungranted entries from an engine image, after the passes frozen in its folio;
anchor gives the leader lane of an entry's `MMA`, and every entry takes the header's group size (log 79). -/
def Ctx.fromEngine (c : Ctx) (img : List Byte) (frozen : List RqEntry) (anchor : Nat → Nat) (cycle : Nat) : Ctx :=
  let n := engineCounts img
  let at' := 64 + up64 (16 * n.2.2)
  let block := fun i => blockOf ((img.drop (at' + 1600 * i)).take 1600)
  let ctr := imgNat img 8 8
  let gs := decide (imgNat img 0 8 / 2 ^ 41 % 2 = 1)
  let es := (List.range n.2.2).map (fun i =>
    let x := imgNat img (64 + 16 * i) 16
    let ins := decodeWord (x % 2 ^ 32)
    let l := match ins with | .mma _ _ _ _ _ _ v => anchor v | _ => 0
    let p : Pass := { posA := x / 2 ^ 32 % 2 ^ 16, posB := x / 2 ^ 48 % 2 ^ 16, quarter := x / 2 ^ 64 % 4, prio := x / 2 ^ 66 % 8
                      ovA := x.testBit 69, ovB := x.testBit 70, gs64 := gs, posted := cycle, granted := false }
    ({ id := c.nextId + frozen.length + i, ins := ins, word := BitVec.ofNat 32 (x % 2 ^ 32), pc := 0, hints := [], kind := 7, cls := some .matrix
       holds := [], caps := [(l, {})], args := [], leader := l, chunks := [], pass := some p, obj := .none, counted := 0 } : RqEntry))
  { c with strA := { fill := ctr % 2 ^ 16, cons := ctr / 2 ^ 16 % 2 ^ 16, blocks := (List.range n.1).map block }
           strB := { fill := ctr / 2 ^ 32 % 2 ^ 16, cons := ctr / 2 ^ 48 % 2 ^ 16, blocks := (List.range n.2.1).map (fun i => block (n.1 + i)) }
           quarter := imgNat img 16 1 % 4, gs64 := gs
           rq := c.rq.filter (fun e => e.pass.isNone) ++ frozen.zipIdx.map (fun e => { e.1 with id := c.nextId + e.2 }) ++ es
           nextId := c.nextId + frozen.length + n.2.2 }

/-- R172: a pass that stands in the array. -/
def RqEntry.inArray (e : RqEntry) : Bool := e.pass.any (fun p => p.granted)
/-- R172: the bytes of an array folio. -/
def folioBytes (isB : Bool) (ix : Nat) : List Byte :=
  (List.range 6).map (Config.folioByte ix) ++ bytesOfNat 2 (if isB then 0x0B01 else 0x0A01)
    ++ (List.range 6136).map (fun i => Config.folioByte ix (i + 8))
/-- R172: the passes frozen in a folio, as the engine that takes it in finds them: those of the folio written with its bytes. -/
def State.frozenIn (s : State) (bs : List Byte) : List RqEntry :=
  match s.folios.find? (fun f => decide (folioBytes f.isB f.ix = bs)) with | some f => f.passes | none => []

/-! ### The frame (R371) -/

/-- R371, R414: STOP; a halt that waits for the `TRET` of a trapped group is part of it. -/
def Ctx.stopCode (c : Ctx) : Nat := (if c.trapped then 1 else 0) + (if c.halted || c.haltPend then 2 else 0)
/-- R49, R310, R371: BPHASE; a barrier that has completed while the group was stopped is left already. -/
def Ctx.barPhase (c : Ctx) : Nat :=
  if c.lanes.any (fun e => match e.2.wait with | .bar k => (Sparse.get 0 c.arrived k).getLsbD e.1 | _ => false)
  then (if c.phase2 then 2 else 1) else 0
/-- The 64-byte frame of a stopped group. -/
def Ctx.frameImage (c : Ctx) : List Byte :=
  let f := c.frame
  bytesOfNat 8 (2 ^ 56 + f.cause * 2 ^ 32 + c.resIdx * 2 ^ 24 + (c.rq.filter (fun e => decide (e.kind < 8))).length * 2 ^ 16
      + (c.rq.filter RqEntry.inLog).length * 2 ^ 8)
    ++ bytesOfNat 8 (f.fpc.toNat % 2 ^ 57) ++ bytesOfNat 8 (f.rpc.toNat % 2 ^ 57)
    ++ bytesOfNat 8 (c.exitedMask.toNat * 2 ^ 32 + f.lanes.toNat) ++ bytesOfNat 8 f.info.toNat
    ++ bytesOfNat 8 (f.nhint * 2 ^ 32 + f.word.toNat) ++ bytesOfNat 8 f.time
    ++ bytesOfNat 8 (c.barPhase * 2 ^ 6 + (if c.inHdl then 4 else 0) + c.stopCode)
/-- The stored fields that a saved frame gives back. -/
def frameOf (bs : List Byte) : Frame :=
  { cause := imgNat bs 4 2, fpc := BitVec.ofNat 64 (imgNat bs 8 8), rpc := BitVec.ofNat 64 (imgNat bs 16 8)
    lanes := BitVec.ofNat 32 (imgNat bs 24 4), info := BitVec.ofNat 64 (imgNat bs 32 8), nhint := imgNat bs 44 4 % 4
    word := BitVec.ofNat 32 (imgNat bs 40 4), time := imgNat bs 48 8 }

/-! ### Replay entries and operand logs (R372, R373) -/

/-- The entries that a group's replay queue shows, oldest first. -/
def Ctx.replayList (c : Ctx) : List RqEntry := c.rq.filter (fun e => decide (e.kind < 8))
/-- PENDING: lanes that have not yet performed. -/
def RqEntry.pendingMask (e : RqEntry) : Word := maskOf ((e.pending.map (fun l => l % 32)).eraseDups)
/-- The ID of the fault record on which an entry waits. -/
def RqEntry.record (e : RqEntry) : Option Nat :=
  match (e.caps.filter (fun x => !x.2.done && decide (x.2.parked ≠ 0))).map (fun x => x.2.parked - 1)
      ++ (e.chunks.filter (fun x => decide (x.parked ≠ 0))).map (fun x => x.parked - 1) with
  | [] => none
  | i :: _ => some i
/-- The operand log index of an entry: its place among the entries in the log. -/
def logIndex (es : List RqEntry) (e : RqEntry) : Nat :=
  if e.inLog then ((es.filter RqEntry.inLog).takeWhile (fun x => decide (x.id ≠ e.id))).length else 255
/-- Word j of a replay entry (R372). -/
def Ctx.rqWord (c : Ctx) (e : RqEntry) (j : Nat) : Word :=
  match j with
  | 0 => e.word
  | 1 => e.pendingMask
  | 2 => BitVec.ofNat 32 (logIndex c.replayList e * 2 ^ 16 + e.kind * 2 ^ 12 + (if e.isParked then 2 ^ 8 else 0))
  | 3 => match e.record with | some i => BitVec.ofNat 32 i | none => 0xFFFFFFFF
  | 4 => e.pc.extractLsb' 0 32
  | 5 => BitVec.ofNat 32 (e.pc.toNat / 2 ^ 32 % 2 ^ 25)
  | 6 => BitVec.ofNat 32 (e.hints.length * 2 ^ 8 + c.resIdx)
  | _ => 0
/-- The source words of lane l in an entry's log (R373): a tile store's 1 KiB stands 8 words a lane; an `LDSC` keeps
its second address and its descriptor, an `LDX` its destination and descriptor. -/
def RqEntry.sources (e : RqEntry) (l : Nat) : List Word :=
  let cap := (Sparse.find e.caps l).getD {}
  match e.ins with
  | .stt .. => (((Sparse.find e.caps e.leader).getD {}).data.drop (8 * l)).take 8
  | .ldsc .. =>
    let r := ((Sparse.find e.caps (32 + l)).getD {}).va
    [BitVec.ofNat 32 r, BitVec.ofNat 32 (r / 2 ^ 32)] ++ e.args
  | .ldx .. | .laydef .. => cap.data ++ e.args
  | _ => cap.data
/-- Word w of lane l's capture in an entry's log (R373). -/
def RqEntry.logWord (e : RqEntry) (l w : Nat) : Word :=
  match Sparse.find e.caps l with
  | none => match e.ins with | .stt .. => if 3 ≤ w ∧ w ≤ 18 then (e.sources l).getD (w - 3) 0 else 0 | _ => 0
  | some x =>
    if w = 0 then BitVec.ofNat 32 (if e.kind = 4 then x.progress else if x.done then 1 else 0)
    else if w = 1 then BitVec.ofNat 32 x.va
    else if w = 2 then BitVec.ofNat 32 (x.va / 2 ^ 32)
    else if w = 19 then BitVec.ofNat 32 ((if x.parked ≠ 0 ∧ ¬ x.done then 1 else 0) + (if x.done then 2 else 0))
    else (e.sources l).getD (w - 3) 0

/-- Bytes that a lane of a parked instruction accesses. -/
def accessBytes (args : List Word) : Instr → Nat
  | .ld _ _ _ _ sz _ | .st _ _ _ _ sz => sz.bytes
  | .ldAcq _ _ _ _ sz _ | .stRel _ _ _ _ sz => sz.bytes
  | .ldm _ _ _ n | .stm _ _ _ n => 4 * n
  | .ldt .. | .stt .. | .ldsc .. => 1024
  | .sld .. | .sst .. => 40
  | .laydef .. => 64
  | .ldx .. => match wbits (args.headD 0) 27 26 with | 0 => 4 | 1 => 8 | 2 => 16 | _ => 64
  | _ => 4
/-- The registers that a parked instruction holds (R69). -/
def heldBy (fs : DWord) (args : List Word) : Instr → List RegName
  | .ld _ d _ _ sz _ | .ldAcq _ d _ _ sz _ => (sizeRegs d sz).map .v
  | .ldm _ d _ n => vRun d n
  | .ldt _ t _ _ _ => [.t t]
  | .ldsc _ _ _ f =>
    let w := args.headD 0
    match (slotOf fs f).run with
    | some sh => .t (wbits w 25 22) :: (runRegs (wbits w 31 26) sh.log).map .s
    | none => []
  | .atom _ d _ _ _ => [.v d]
  | .cas _ d _ _ => [.v d, .v (d + 1)]
  | .gld _ d _ _ | .laydef _ d _ => [.g d]
  | .sld _ d _ _ => [.s d]
  | _ => []
/-- The engine counter that a parked instruction holds (R246). -/
def classOf : Instr → Option CClass
  | .st .. | .stRel .. | .stm .. | .stt .. | .gst .. | .sst .. | .reduce .. => some .store
  | .ldx .. => some .copy
  | _ => none
/-- The parked entries that a replay block holds: what else the team had has left its queues (R387, R388). -/
def Ctx.saved (c : Ctx) : List RqEntry := c.rq.filter (fun e => e.isParked && decide (e.kind < 7))
/-- The replay block of a group (R389). -/
def Ctx.replayImage (c : Ctx) : List Byte :=
  let es := c.saved
  let logs := es.filter RqEntry.inLog
  let tr := c.trapped && !c.inHdl
  let body := (if tr then c.frameImage else [])
    ++ es.flatMap (fun e => (List.range 8).flatMap (fun j => bytesOfNat 4 (if j = 2 then
        logIndex es e * 2 ^ 16 + e.kind * 2 ^ 12 + 2 ^ 8 else (c.rqWord e j).toNat)))
    ++ logs.flatMap (fun e => (List.range 32).flatMap (fun l => (List.range 20).flatMap (fun w => bytesOfNat 4 (e.logWord l w).toNat)))
  let n := 64 + up64 body.length
  bytesOfNat 64 (2 ^ 56 + es.length * 2 ^ 48 + logs.length * 2 ^ 40 + (if c.halted then 2 ^ 33 else 0) + (if tr then 2 ^ 32 else 0)
    + n / 64) ++ pad64 body
/-- The entry that 32 bytes of a replay block and its log describe.  Of the hints that stood before it their number comes back
(R372 NHINT), of the lanes that have performed their captures (R373). -/
def entryOf (fs : DWord) (id : Nat) (bs log : List Byte) : RqEntry :=
  let word := imgWord bs 0
  let ins := decodeWord word
  let rec' := imgWord bs 12
  let lw := fun (l w : Nat) => imgWord log (80 * l + 4 * w)
  let src := fun (l : Nat) => (List.range 16).map (fun j => BitVec.ofNat 32 (lw l (3 + j)))
  let pend := lanesOf (BitVec.ofNat 32 (imgWord bs 4))
  let lead := pend.headD 0
  let hints : List Word := List.replicate (imgWord bs 24 / 2 ^ 8 % 256) 0
  let args : List Word := match ins with
    | .ldsc .. => [(src lead).getD 2 0]
    | .ldx .. | .laydef .. => [(src lead).getD (match ins with | .ldx .. => 1 | _ => 0) 0]
    | _ => []
  let n := accessBytes args ins
  let cap := fun (l : Nat) => (l,
    { va := lw l 1 + 2 ^ 32 * lw l 2, len := n, parked := rec' + 1, progress := if imgWord bs 8 / 2 ^ 12 % 16 = 4 then lw l 0 else 0
      hints := hints
      data := match ins with | .stt .. => (List.range 32).flatMap (fun i => (src i).take 8) | _ => src l : Cap })
  let past := (List.range 32).filter (fun l => !pend.contains l && (BitVec.ofNat 32 (lw l 19)).getLsbD 1)
  let caps := pend.map cap ++ past.map (fun l => (l, { (cap l).2 with parked := 0, done := true }))
  let caps := caps.foldl (fun (m : Sparse Cap) e => Sparse.put m e.1 e.2) []
  let caps := match ins with
    | .ldsc .. =>
      let r : Cap := { hints := hints, va := (((src lead).getD 0 0).toNat + 2 ^ 32 * ((src lead).getD 1 0).toNat), parked := rec' + 1
                       len := match heldBy fs args ins with | _ :: ss => 32 * ss.length | [] => 0 }
      caps ++ [(32 + lead, r)]
    | _ => caps
  { id := id, ins := ins, word := BitVec.ofNat 32 word, pc := BitVec.ofNat 64 (imgNat bs 16 8), hints := hints, kind := imgWord bs 8 / 2 ^ 12 % 16
    cls := classOf ins, holds := heldBy fs args ins, caps := caps, args := args, leader := lead, chunks := [], pass := none
    obj := .none, counted := 0
    laneHints := if hints.isEmpty then [] else
      (match ins with | .laydef .. => lanesOf (args.headD 0) | _ => pend).map (fun l => (l, hints)) }
/-- A group takes the contents of a replay block: its entries, all parked, its frame and its halt. -/
def Ctx.fromReplay (c : Ctx) (fs : DWord) (img : List Byte) : Ctx :=
  let h := imgNat img 0 8
  let tr := decide (h / 2 ^ 32 % 2 = 1)
  let n := h / 2 ^ 48 % 256
  let at' := 64 + (if tr then 64 else 0)
  let entry := fun (i : Nat) =>
    let bs := (img.drop (at' + 32 * i)).take 32
    entryOf fs (c.nextId + i) bs ((img.drop (at' + 32 * n + 2560 * (imgWord bs 8 / 2 ^ 16 % 256))).take 2560)
  { c with rq := c.rq ++ (List.range n).map entry, nextId := c.nextId + n, halted := decide (h / 2 ^ 33 % 2 = 1) || (c.halted && c.inHdl)
           trapped := tr || (c.trapped && c.inHdl), haltPend := c.haltPend && (tr || (c.trapped && c.inHdl))
           frame := if tr then frameOf ((img.drop 64).take 64) else c.frame }

/-! ### Context areas (R389) -/

/-- A group's record in a context area: group image, replay block, engine image, and folio. -/
def Ctx.areaRecord (c : Ctx) (g : Grid) (folio : List Byte) : List Byte :=
  c.groupImage g ++ c.replayImage ++ c.engineImage (!folio.isEmpty) ++ folio
/-- R389: the context area of a team; folio gives a group's array folio, or none. -/
def State.teamArea (s : State) (u : Nat) (folio : Nat → List Byte) : List Byte :=
  let x := s.unit u
  let g := s.grid x.grid
  let live := (s.groupsOf u).filter (fun e => !e.2.retired)
  let team := x.teamImage g x.site.isB
  let recs := (List.range 32).filterMap (fun i => (live.find? (fun e => decide (e.2.index = i))).map (fun e =>
    (i, e.2.areaRecord g (folio e.1))))
  let offs := recs.foldl (fun (r : Sparse Nat × Nat) e => (Sparse.put r.1 e.1 r.2, r.2 + e.2.length)) ([], 320 + team.length)
  bytesOfNat 64 (2 ^ 56 + live.length * 2 ^ 48)
    ++ (List.range 32).flatMap (fun i => bytesOfNat 8 (Sparse.get 0 offs.1 i)) ++ team ++ recs.flatMap (·.2)

end Sys2Proof.Machine
end

