-- ==== Sys2Proof/Machine/System.lean ====
section
/-! DEFINITION. System instructions, majors 0x38 to 0x3B: special registers, traps, the handler's instructions,
halts, and translation commands (R74 to R78, R150, R330 to R333, R378 to R387). -/

namespace Sys2Proof.Machine

/-! ### Special registers (R74 to R78, R150, R375, R381) -/

/-- R36: the index of the root unit that a context belongs to. -/
def State.rootIdx (s : State) (c : Ctx) : Nat :=
  match s.ownUnit c (s.gridOf c).rootLvl with | some u => (s.unit u).index | none => 0
/-- R47: %split. -/
def State.inSplit (s : State) (c : Ctx) : Bool := match s.ownUnit c 2 with | some u => (s.unit u).split | none => false
/-- R74: %diekind. -/
def Site.kindCode (x : Site) : Nat := if x.mast then 2 else if x.isB then 1 else 0
/-- The low or the high word of a number. -/
def halfWord (x : Nat) (hi : Bool) : Word := BitVec.ofNat 32 (if hi then x / 2 ^ 32 else x)
/-- The value that lane l reads in special register n (R74, R375, R376). -/
def State.special (s : State) (c : Ctx) (n l : Nat) : Word :=
  let g := s.gridOf c
  let wid := c.wid.toNat + (if c.kind = .seq then 0 else l)
  if c.kind = .handler then
    match n with
    | 0x00 | 0x06 => BitVec.ofNat 32 l
    | 0x0E => BitVec.ofNat 32 c.site.kindCode
    | 0x0F => BitVec.ofNat 32 c.site.physloc
    | 0x10 => halfWord (s.now c) false
    | 0x11 => (c.lane l).refHi
    | 0x15 => c.hfs
    | 0x16 => halfWord c.hfa.toNat false
    | 0x17 => halfWord c.hfa.toNat true
    | _ => 0
  else
    match n with
    | 0x00 => BitVec.ofNat 32 (g.field 0 (BitVec.ofNat 64 wid))
    | 0x01 => BitVec.ofNat 32 (g.field 1 c.wid)
    | 0x02 => BitVec.ofNat 32 (g.field 2 c.wid)
    | 0x03 => BitVec.ofNat 32 (g.field 3 c.wid)
    | 0x04 => BitVec.ofNat 32 (g.field 4 c.wid)
    | 0x05 => BitVec.ofNat 32 (g.field 5 c.wid)
    | 0x06 => halfWord wid false
    | 0x07 => halfWord wid true
    | 0x08 => BitVec.ofNat 32 (s.ctxLevel c)
    | 0x09 => BitVec.ofNat 32 g.rootLvl
    | 0x0A => BitVec.ofNat 32 (s.rootIdx c)
    | 0x0B => halfWord g.argp.toNat false
    | 0x0C => halfWord g.argp.toNat true
    | 0x0D => if s.inSplit c then 1 else 0
    | 0x0E => BitVec.ofNat 32 c.site.kindCode
    | 0x0F => BitVec.ofNat 32 c.site.physloc
    | 0x10 => halfWord (s.now c) false
    | 0x11 => (c.lane l).refHi
    | 0x12 => halfWord g.fmtslots.toNat false
    | 0x13 => halfWord g.fmtslots.toNat true
    | 0x14 => c.fpflags.setWidth 32
    | _ => 0
/-- R75: a read of %reftime.lo latches the high half in its lane. -/
def Ctx.latch (c : Ctx) (n now l : Nat) : Ctx :=
  if n = 0x10 then c.modLane l (fun x => { x with refHi := halfWord now true }) else c
/-- `SREAD` (R75, R76, R150). -/
def execSread (g : Guard) (d : Nat) (u : Bool) (n : Nat) (s : State) : Out :=
  if u then
    oncePerIssue (.sread g d u n) s (fun s c l _ =>
      .ok (s.modCtx s.cur.ctx (fun c' => (c'.wrG d (s.special c n l)).latch n (s.now c) l)))
  else
    gate (.sread g d u n) s (fun s c act =>
      .ok (s.modCtx s.cur.ctx (fun c' => act.foldl (fun c' l => (c'.wrV d l (s.special c n l)).latch n (s.now c) l) c')))
/-- R77, R78, R381: a value written to %fpflags or %hfs. -/
def Ctx.writeSpecial (c : Ctx) (n : Nat) (x : Word) : Ctx :=
  if n = 0x14 then { c with fpflags := x.setWidth 6 }
  else if c.kind ≠ .handler then c
  else
    let y := x &&& 0xFFFF0001
    if y = 0 then { c with hfs := 0, hfa := 0 } else { c with hfs := y }
/-- `SWRITE` (R76 to R78, R381). -/
def execSwrite (g : Guard) (d : Nat) (u : Bool) (n : Nat) (s : State) : Out :=
  if u then
    oncePerIssue (.swrite g d u n) s (fun s c _ _ => .ok (s.modCtx s.cur.ctx (fun c' => c'.writeSpecial n (c.rdG d))))
  else
    gate (.swrite g d u n) s (fun s c act =>
      .ok (s.modCtx s.cur.ctx (fun c' => act.foldl (fun c' l => c'.writeSpecial n (c.rdV d l)) c')))

/-! ### `TRAP` (R379) -/

/-- `TRAP` (R370, R376, R379): lanes whose guard is false have spent their hints and move on. -/
def execTrap (g : Guard) (code : Nat) (s : State) : Out :=
  gate (.trap g code) s (fun s c act =>
    if c.kind = .handler then .trap 0x16 act code
    else
      let rest := (s.cohort c).filter (fun l => !act.contains l)
      let s := s.modCtx s.cur.ctx (fun c => c.modLanes rest (fun _ x => { x with hints := [] }))
      .okPc (s.takeTrap s.cur.ctx s.cur.pc (wordOf (.trap g code)) 0x16 act code (some 4)))

/-! ### Stopping and resuming groups (R386, R402, R407) -/

/-- R371, R407: a group stops by halt. -/
def State.stopGroup (s : State) (k : Nat) : State :=
  s.modCtx k (fun c => { c.revertHints.unheld with halted := true, haltPend := false, frame := { time := s.now c } })
/-- R406: a record of a group's halt, or of its resume, for each of its lanes. -/
def State.traceStop (s : State) (k kind : Nat) : State :=
  let c := s.ctx k
  s.trace c kind c.liveLanes (fun l => (c.lane l).imgPc) (fun _ => 0)
/-- R371, R386, R392: a group stops by halt; one that a trap, or a move, has stopped keeps the halt pending until its `TRET`,
or until the move is over. -/
def State.haltGroup (s : State) (k : Nat) : State :=
  let c := s.ctx k
  if c.halted ∨ c.retired then s
  else if c.trapped then s.modCtx k (fun c => { c with haltPend := true })
  else (s.stopGroup k).traceStop k 7
/-- R380, R391: a context's team stands in its place and is not about to be swapped out. -/
def State.settled (s : State) (c : Ctx) : Bool :=
  let u := s.unit c.unit
  decide (u.st = .running) && !u.yielded && !u.forced
/-- R380, R386, R402: a group goes on: its parked entries are re-injected, unless a swap is to come first, and each lane's skip
flag is set. -/
def State.goOn (s : State) (k : Nat) : State :=
  let set := fun (s : State) => s.modCtx k (fun c => c.modLanes c.liveLanes (fun _ x => { x with skip := true }))
  if s.settled (s.ctx k) then (set (s.reinject k)).traceStop k 5 else set s
/-- R386, R392, R404: the halt of a group is cleared; one whose unit moves goes on with it, and one that has no core yet is
placed running. -/
def State.resumeGroup (s : State) (k : Nat) : State :=
  let c := s.ctx k
  let s1 := s.modCtx k (fun c => { c with halted := false, haltPend := false })
  if ¬ c.halted ∨ c.trapped ∨ c.retired ∨ ¬ c.placed then s1
  else if s.underMove c then s1.modCtx k (fun c => { c with trapped := true })
  else s1.goOn k
/-- R386: the groups of a scope that holds a group. -/
def State.scopeGroups (s : State) (c : Ctx) (sc : HScope) : List Nat :=
  let us : List Nat := match sc with
    | .team => [c.unit]
    | .clus => match s.ownUnit c 2 with | some u => s.unitsUnder 6 u | none => [c.unit]
    | .grid => (s.units.filter (fun e => decide (e.2.grid = c.grid))).map (·.1)
  (s.ctxs.filter (fun e => decide (e.2.kind = .group) && !e.2.retired && us.contains e.2.unit)).map (·.1)
/-- R386, R397, R399: the copies, `LDX`s and fills of a context have drained, and of a sequencer its collectives; an `LDX` all
of whose lanes that are left are parked stays so. -/
def Ctx.drained (c : Ctx) : Bool :=
  c.rq.all (fun e => match e.cls with
    | some .copy | some .stream => e.isParked && decide (e.kind = 6) && !e.caps.any (fun x => e.flies x.2)
    | some .coll => decide (c.kind ≠ .seq)
    | _ => true)
/-- R386, R398: a stopped group or sequencer is reported stopped. -/
def Ctx.reported (c : Ctx) : Bool := (c.halted || c.trapped || (c.haltPend && decide (c.kind = .seq))) && c.drained
/-- R386: a group is in its handler and stops at the `TRET`. -/
def Ctx.stopsLater (c : Ctx) : Bool := c.inHdl && c.haltPend
/-- The group that a handler serves. -/
def State.servedCtx (s : State) (c : Ctx) : Ctx := s.ctx c.served
/-- R386: every group of the scope of a handler's window group is reported stopped; one in another core's handler is not. -/
def State.scopeStopped (s : State) (c : Ctx) (sc : HScope) : Bool :=
  (s.scopeGroups c sc).all (fun k =>
    let x := s.ctx k
    x.reported && !(x.stopsLater && (decide (x.pkg ≠ c.pkg) || decide (x.site ≠ c.site))))
/-- R397: the sequencers that a scope takes in: all those of a grid. -/
def State.scopeSeqs (s : State) (c : Ctx) (sc : HScope) : List Nat :=
  match sc with
  | .grid => (s.ctxs.filter (fun e => decide (e.2.kind = .seq) && decide (e.2.grid = c.grid))).map (·.1)
  | _ => []
/-- R392, R397: a sequencer stops by halt, one whose unit moves once the move is over. -/
def State.haltSeq (s : State) (k : Nat) : State :=
  if s.underMove (s.ctx k) then s.modCtx k (fun c => { c with haltPend := !c.halted })
  else s.modCtx k (fun c => { c.revertHints.unheld with halted := true })
/-- R397: the halt of a sequencer is cleared; its parked entries replay. -/
def State.resumeSeq (s : State) (k : Nat) : State :=
  let c := s.ctx k
  let s1 := s.modCtx k (fun c => { c with halted := false, haltPend := false })
  if c.halted && !s.underMove c then s1.reinject k else s1
/-- R397: a scope is halted. -/
def State.haltScope (s : State) (c : Ctx) (sc : HScope) : State :=
  (s.scopeSeqs c sc).foldl (fun s k => s.haltSeq k) ((s.scopeGroups c sc).foldl (fun s k => s.haltGroup k) s)
/-- R386, R397, R404: the halt of a scope is cleared; what is left of a grid to be placed is placed running (log 82). -/
def State.resumeScope (s : State) (c : Ctx) (sc : HScope) : State :=
  let s := (s.scopeSeqs c sc).foldl (fun s k => s.resumeSeq k) ((s.scopeGroups c sc).foldl (fun s k => s.resumeGroup k) s)
  match sc with | .grid => s.modGrid c.grid (fun g => { g with startHalted := false }) | _ => s

/-! ### The window (R382, R383) -/

/-- R382, R383: the stopped group that a handler's window names. -/
def State.windowGroup (s : State) (c : Ctx) : Option (Nat × Ctx) :=
  (s.resident c.pkg c.site).find? (fun e => decide (e.2.resIdx = c.winIdx) && (e.2.trapped || e.2.halted))
/-- A handler instruction that acts on the window's group; none there sets %hfs with cause 0x08. -/
def onWindow (i : Instr) (s : State) (f : State → Ctx → Nat → List Nat → Nat → Ctx → Eff) : Out :=
  oncePerIssue i s (fun s c l act =>
    match s.windowGroup c with
    | some (k, x) => f s c l act k x
    | none => .trap 8 [l] 0)
/-- `WINSEL` (R382). -/
def execWinsel (g : Guard) (a : Nat) (s : State) : Out :=
  oncePerIssue (.winsel g a) s (fun s c l _ =>
    let x := c.rdG a
    if wbits x 31 13 ≠ 0 ∨ wbits x 7 2 ≠ 0 then .trap 8 [l] x.toNat
    else .ok (s.modCtx s.cur.ctx (fun c => { c with winIdx := wbits x 12 8, winRegion := wbits x 1 0 })))
/-- R382: the word at an offset of a region of a group, and its field mask; none beyond the region. -/
def State.windowWord (s : State) (x : Ctx) (region o : Nat) : Option (Nat × Nat) :=
  let g := s.gridOf x
  match region with
  | 0 => if o < 64 then some (imgWord x.frameImage o, 0) else none
  | 1 => if o < g.img.len then some (x.fieldAt g o) else none
  | 2 => if o < g.teamLen then
      let u := s.unit x.unit
      some (u.fieldAt g u.site.isB o) else none
  | _ =>
    let img := x.engineImage false
    if o < img.length then some (imgWord img o, 0) else none
/-- R376: the address of a failing window access: offset, and region in the high word. -/
def winAddr (c : Ctx) (o : Nat) : Nat := o + c.winRegion * 2 ^ 32
/-- R383: a word that the window may write takes a value. -/
def winWritable (region o old mask w : Nat) : Bool :=
  decide (region = 1 ∨ region = 2) && decide (8 ≤ o) && decide (mask ≠ 0) && decide (w &&& (full32 - mask) = 0)
    && (decide (region = 2) || decide (o < 64) || decide (0x240 ≤ o) || decide (o % 16 = 0)
        || (decide (o % 16 = 4) && decide (w / 2 ^ 25 = old / 2 ^ 25)))
/-- R183: what a window access of an offset does first: an open slot of a word of core store is released. -/
def State.windowOpen (s : State) (x : Ctx) (region o : Nat) : State :=
  if region = 2 ∧ 192 ≤ o then s.releaseSpan (.store x.unit (o - 192)) 4 else s
/-- `WINRD` (R183, R383). -/
def execWinrd (g : Guard) (d a : Nat) (s : State) : Out :=
  gate (.winrd g d a) s (fun s c act =>
    let s : State := match s.windowGroup c with
      | some w => act.foldl (fun s l => s.windowOpen w.2 c.winRegion (c.rdV a l).toNat) s
      | none => s
    let got : List (Nat × Option Nat) := act.map (fun l =>
      let o := (c.rdV a l).toNat
      (l, if o % 4 ≠ 0 then none else (s.windowGroup c).bind (fun w => (s.windowWord w.2 c.winRegion o).map (·.1))))
    match got.filter (fun e => e.2.isNone) with
    | e :: _ => .trap 8 [e.1] (winAddr c (c.rdV a e.1).toNat)
    | [] => .ok (s.modCtx s.cur.ctx (fun c' => got.foldl (fun c' e => c'.wrV d e.1 (BitVec.ofNat 32 (e.2.getD 0))) c')))
/-- R70, R383: one word written through the window; the convergence registers are read-only there (log 50). -/
def State.windowPut (s : State) (k region o w : Nat) : State :=
  let x := s.ctx k
  let g := s.gridOf x
  if region = 1 then s.modCtx k (fun x => x.putWord g o w)
  else if o < 192 then s
  else (s.windowOpen x region o).wrBytes (.store x.unit (o - 192)) (bytesOfNat 4 w)
/-- `WINWR` (R383). -/
def execWinwr (g : Guard) (d a : Nat) (s : State) : Out :=
  gate (.winwr g d a) s (fun s c act =>
    let bad := act.filter (fun l =>
      let o := (c.rdV a l).toNat
      let w := (c.rdV d l).toNat
      decide (o % 4 ≠ 0) || (match (s.windowGroup c).bind (fun z => s.windowWord z.2 c.winRegion o) with
        | some (old, mask) => !winWritable c.winRegion o old mask w
        | none => true))
    match bad, s.windowGroup c with
    | l :: _, _ => .trap 8 [l] (winAddr c (c.rdV a l).toNat)
    | [], none => .ok s
    | [], some (k, _) =>
      .ok (act.foldl (fun s l => s.windowPut k c.winRegion (c.rdV a l).toNat (c.rdV d l).toNat) s))

/-! ### Replay entries through the window (R384, R385) -/

/-- `OPLRD` (R384). -/
def execOplrd (g : Guard) (d a w : Nat) (s : State) : Out :=
  gate (.oplrd g d a w) s (fun s c act =>
    match s.windowGroup c with
    | none => .trap 8 act 0
    | some (_, x) =>
      let e := (x.replayList.filter RqEntry.inLog)[(c.rdG a).toNat]?
      .ok (s.modCtx s.cur.ctx (fun c' => act.foldl (fun c' l =>
        c'.wrV d l (match e with | some e => e.logWord l w | none => 0)) c')))
/-- `RQRD` (R385). -/
def execRqrd (g : Guard) (d a : Nat) (s : State) : Out :=
  gate (.rqrd g d a) s (fun s c act =>
    match s.windowGroup c with
    | none => .trap 8 act 0
    | some (_, x) =>
      .ok (s.modCtx s.cur.ctx (fun c' => act.foldl (fun c' l =>
        c'.wrV d l (match x.replayList[(c.rdG a).toNat + l / 8]? with | some e => x.rqWord e (l % 8) | none => 0)) c')))
/-- `RQINJ` (R385): a parked entry replays now. -/
def execRqinj (g : Guard) (a : Nat) (s : State) : Out :=
  onWindow (.rqinj g a) s (fun s c l _ k x =>
    match x.replayList[(c.rdG a).toNat]? with
    | some e => if e.isParked then .ok (s.replayEntry k e.id (fun _ => true)) else .trap 8 [l] 0
    | none => .trap 8 [l] 0)
/-- `RQDROP` (R385): lanes of a parked entry are dropped. -/
def execRqdrop (g : Guard) (d a : Nat) (s : State) : Out :=
  onWindow (.rqdrop g d a) s (fun s c l _ k x =>
    match x.replayList[(c.rdG a).toNat]? with
    | some e =>
      if e.isParked then
        let m := c.rdG d
        let gone := fun (y : Nat × Cap) => m.getLsbD (y.1 % 32) && !y.2.done
        let s := s.modEntry k e.id (fun e => { e with
          caps := e.caps.filter (fun y => !gone y), chunks := if m.getLsbD e.leader then [] else e.chunks })
        .ok (s.settle k e.id)
      else .trap 8 [l] 0
    | none => .trap 8 [l] 0)

/-! ### `TRET` (R375, R380) -/

/-- R380, R392, R402, R406: a served group leaves its trap: a halt that was pending takes effect, a move of its unit goes on with
it, and else it goes on. -/
def State.leaveTrap (s : State) (k : Nat) : State :=
  let c := s.ctx k
  let set := fun (s : State) => s.modCtx k (fun c => c.modLanes c.liveLanes (fun _ x => { x with skip := true }))
  if s.underMove c then set (s.modCtx k (fun c => { c with inHdl := false, frame := { time := s.now c } }))
  else
    let s := s.modCtx k (fun c => { c with inHdl := false, trapped := false, frame := {} })
    if c.haltPend then set ((s.stopGroup k).traceStop k 7)
    else if c.halted then set (s.stopGroup k)
    else s.goOn k
/-- R380: the end of the handler of a core: the served group resumes, or its team aborts with a status. -/
def State.endHandler (s : State) (k : Nat) (abort : Bool) (status : Word) : State :=
  let h := s.ctx k
  let c := s.ctx h.served
  let s := s.modCtx k (fun h => { h with placed := false, lanes := h.lanes.map (fun e => (e.1, { e.2 with exited := true, wait := .none, hints := [] })) })
  let s := s.modPkg h.pkg (fun p => { p with hq := p.hq.filter (fun e => decide (e.2 ≠ h.served)) })
  if abort then
    (s.modCtx h.served (fun c => { c with inHdl := false, trapped := false, haltPend := false, halted := c.halted || c.haltPend })).startAbort
      c.unit (if wbits status 15 0 = 0 then 0x0102 else wbits status 15 0)
  else s.leaveTrap h.served
/-- The form of the first lane of a handler that waits at a `TRET`. -/
def Ctx.firstTret (c : Ctx) : Option (Bool × Word) :=
  c.liveLanes.findSome? (fun l => match (c.lane l).wait with | .tret b w => some (b, w) | _ => none)
/-- The effect of `TRET` and `TRET.abort` (R380): the lanes wait until every other handler lane has exited or reached a
`TRET`; the form of the first applies. -/
def tret (s : State) (c : Ctx) (act : List Nat) (abort : Bool) (status : Word) : Eff :=
  let f := (c.firstTret).getD (abort, status)
  let others := c.liveLanes.filter (fun l => !act.contains l)
  if others.all (fun l => match (c.lane l).wait with | .tret _ _ => true | _ => false) then
    .okPc (s.endHandler s.cur.ctx f.1 f.2)
  else .wait s (.tret f.1 f.2)
/-- `TRET` (R380). -/
def execTret (g : Guard) (s : State) : Out := gate (.tret g) s (fun s c act => tret s c act false 0)
/-- `TRET.abort` (R380). -/
def execTretAbort (g : Guard) (a : Nat) (s : State) : Out :=
  gate (.tretAbort g a) s (fun s c act => if act.isEmpty then .ok s else tret s c act true (c.rdG a))

/-! ### `CTXSW` (R387) -/

/-- R387, R388: an entry of a stopped team keeps `CTXSW` waiting: it is neither parked in the log nor ungranted. -/
def RqEntry.moves (e : RqEntry) : Bool :=
  !(e.ungranted || (e.isParked && decide (e.kind < 7) && !e.caps.any (fun x => e.flies x.2)))
/-- R387: every group of a team is stopped and none has an entry in flight. -/
def State.teamQuiet (s : State) (u : Nat) : Bool :=
  (s.groupsOf u).all (fun e => e.2.retired || ((e.2.trapped || e.2.halted) && !(e.2.rq.any RqEntry.moves)))
/-- R376: the first page of a handler's span that does not translate: its cause and address. -/
def State.spanFault (s : State) (c : Ctx) (va n : Nat) (k : AccKind) : Option (Nat × Nat) :=
  if 2 ^ 57 < va + n then some (8, va)
  else (pagesOf va n).findSome? (fun a => match s.xlate (s.partyOf c false) a k with
    | .ok _ _ => none
    | .park kind _ => some (parkCause kind, a)
    | _ => some (8, a))
/-- Bytes of a span that translates, as a context reads them. -/
def State.readSpan (s : State) (c : Ctx) (va n : Nat) : State × List Byte :=
  match s.span (s.partyOf c false) va n .read (fun _ => true) with
  | (s, .ok segs) => segs.foldl (fun (r : State × List Byte) y => let t := r.1.ctxRead c y.1 y.2 false; (t.1, r.2 ++ t.2)) (s, [])
  | (s, _) => (s, [])
/-- Bytes written to a span that translates. -/
def State.writeSpan (s : State) (c : Ctx) (va : Nat) (bs : List Byte) : State :=
  match s.span (s.partyOf c false) va bs.length .write (fun _ => true) with
  | (s, .ok segs) => (segs.foldl (fun (r : State × List Byte) y => (State.ctxWrite false r.1 c y.1 (r.2.take y.2), r.2.drop y.2)) (s, bs)).1
  | (s, _) => s
/-- `CTXSW.save` (R183, R387, R389). -/
def execCtxswSave (g : Guard) (a : Nat) (s : State) : Out :=
  onWindow (.ctxswSave g a) s (fun s c l _ _ x =>
    let va := c.rdPairG a
    if va % 4096 ≠ 0 then .trap 7 [l] va
    else if ¬ s.teamQuiet x.unit then .wait s .ctxsw
    else
      let s := s.releaseStore x.unit
      let bs := s.teamArea x.unit (fun _ => [])
      match s.spanFault c va bs.length .write with
      | some f => .trap f.1 [l] f.2
      | none => .ok (s.writeSpan c va bs))
/-- R171, R387: the engine has block slots for a group's blocks, beside what the core's other groups hold. -/
def State.blocksFit (s : State) (k : Nat) (x : Ctx) (nba nbb : Nat) : Bool :=
  let others := (s.coreGroups x).filter (fun e => decide (e.1 ≠ k))
  let held := fun (b : Bool) => others.foldl (fun n e => n + (e.2.stream b).blocks.length) 0
  decide (held false + nba ≤ 8) && decide (held true + nbb ≤ 8)
/-- R219, R389: the objects into which a restored group's `LDX`s count, as their descriptors name them. -/
def State.withObjects (s : State) (c : Ctx) : Ctx :=
  { c with rq := c.rq.map (fun (e : RqEntry) => match e.ins with
      | .ldx .. => { e with obj := match s.objectRef c ((e.args.headD 0).toNat % 2 ^ 25) with | .ok l => l | _ => .none }
      | _ => e) }
/-- R387, R389, R392: a restored group joins the handler queue, or leaves it, as its TRAPPED says; one that is not stopped has its
entries re-injected; one whose unit moves goes on with it. -/
def State.restored (s : State) (k : Nat) (was : Bool) : State :=
  let c := s.ctx k
  let out := fun (s : State) => s.modPkg c.pkg (fun p => { p with hq := p.hq.filter (fun e => decide (e.2 ≠ k)) })
  if c.trapped then (if was then s else s.joinQueue k)
  else if c.halted then out s
  else if s.underMove c then (out s).modCtx k (fun c => { c with trapped := true, frame := { time := s.now c } })
  else
    let s := (out s).modCtx k (fun c => { c with frame := {} })
    if s.settled c then s.reinject k else s
/-- R387: one group's record of a context area taken; the cause where it is refused. -/
def State.restoreGroup (s : State) (k : Nat) (img : List Byte) : State ⊕ Nat :=
  let x := s.ctx k
  let g := s.gridOf x
  let rest := img.drop g.img.len
  let n := imgNat rest 0 8 % 2 ^ 24 * 64
  let eng := rest.drop n
  let cnt := engineCounts eng
  let fol := decide (imgNat eng 0 8 / 2 ^ 40 % 2 = 1)
  let folio := eng.drop (engineLen cnt.1 cnt.2.1 cnt.2.2)
  match x.fromImage g (img.take g.img.len) with
  | none => .inr 0x14
  | some y =>
    if imgNat rest 0 8 / 2 ^ 56 ≠ 1 then .inr 0x14
    else if ¬ engineSound eng ∨ ¬ s.blocksFit k x cnt.1 cnt.2.1
        ∨ (fol ∧ imgNat folio 6 2 ≠ (if x.site.isB then 0x0B01 else 0x0A01)) then .inr 0x15
    else
      let u := s.unit x.unit
      let z := (y.fromReplay g.fmtslots rest).fromEngine eng (if fol then s.frozenIn (folio.take 6144) else []) (fun v => (u.cv v).anchor) s.cycle
      .inl ((s.modCtx k (fun _ => s.withObjects z)).restored k x.trapped)
/-- R387, R389: a team takes the contents of a context area; the cause where it is refused. -/
def State.restoreTeam (s : State) (u : Nat) (area : List Byte) : State ⊕ Nat :=
  let x := s.unit u
  let g := s.grid x.grid
  let live := (s.groupsOf u).filter (fun e => !e.2.retired)
  let off := fun (i : Nat) => imgNat area (64 + 8 * i) 8
  if imgNat area 0 64 ≠ 2 ^ 56 + live.length * 2 ^ 48
      ∨ ¬ (List.range 32).all (fun i => decide (off i = 0) == !(live.any (fun e => decide (e.2.index = i)))) then .inr 0x14
  else match x.fromImage g ((area.drop 320).take g.teamLen) with
    | none => .inr 0x14
    | some y =>
      let s := live.foldl (fun s e => s.modCtx e.1 (fun c => { c with strA := {}, strB := {} })) s
      live.foldl (fun (r : State ⊕ Nat) e => match r with
        | .inl s => s.restoreGroup e.1 (area.drop (off e.2.index))
        | .inr n => .inr n) (.inl (s.modUnit u (fun _ => y)))
/-- Bytes that a context area reaches to, as its directory and its last record's headers give; at most one area. -/
def State.areaReach (s : State) (u : Nat) (c : Ctx) (va : Nat) : Nat :=
  let g := s.grid (s.unit u).grid
  let head := (s.readSpan c va 320).2
  let last := ((List.range 32).map (fun i => imgNat head (64 + 8 * i) 8)).foldl max 0
  if last = 0 then 320 + g.teamLen
  else
    let at' := min last (2 ^ 22) + g.img.len
    let rep := imgNat (s.readSpan c (va + at') 8).2 0 8 % 2 ^ 24 * 64
    let eng := (s.readSpan c (va + min (at' + rep) (2 ^ 22)) 8).2
    min (2 ^ 22) (at' + rep + imgNat eng 0 8 % 2 ^ 24 * 64 + (if imgNat eng 0 8 / 2 ^ 40 % 2 = 1 then 6144 else 0))
/-- `CTXSW.restore` (R83, R171, R183, R387, R389). -/
def execCtxswRestore (g : Guard) (a : Nat) (s : State) : Out :=
  onWindow (.ctxswRestore g a) s (fun s c l _ _ x =>
    let va := c.rdPairG a
    if va % 4096 ≠ 0 then .trap 7 [l] va
    else if ¬ s.teamQuiet x.unit then .wait s .ctxsw
    else if (s.groupsOf x.unit).any (fun e => !e.2.rq.isEmpty) then .trap 0x14 [l] 0
    else match s.spanFault c va 320 .read with
      | some f => .trap f.1 [l] f.2
      | none =>
        let n := s.areaReach x.unit c va
        match s.spanFault c va n .read with
        | some f => .trap f.1 [l] f.2
        | none =>
          let r := s.readSpan c va n
          match (r.1.releaseStore x.unit).restoreTeam x.unit r.2 with
          | .inl s => .ok s
          | .inr k => .trap k [l] 0)

/-! ### `HALT`, `RESUME` (R386) -/

/-- `HALT` (R386); it stops groups alone (log 82). -/
def execHalt (g : Guard) (sc : HScope) (s : State) : Out :=
  onWindow (.halt g sc) s (fun s _ _ _ _ x =>
    let s := (s.scopeGroups x sc).foldl (fun s k => if (s.ctx k).inHdl ∧ (s.ctx k).pkg = x.pkg ∧ (s.ctx k).site = x.site then s else s.haltGroup k) s
    if s.scopeStopped x sc then .ok s else .wait s (.halting sc))
/-- `RESUME` (R386, R397, R404). -/
def execResume (g : Guard) (sc : HScope) (s : State) : Out :=
  onWindow (.resume g sc) s (fun s _ _ _ _ x => .ok (s.resumeScope x sc))

/-! ### Translation commands (R331 to R333) -/

/-- The ASID on which a context's `TLBI` and `ASIDGEN` act: in the handler slot that of the served group. -/
def State.tlbAsid (s : State) (c : Ctx) : Nat := if c.kind = .handler then (s.servedCtx c).asid else c.asid
/-- Two half-open ranges share a byte. -/
def rangesMeet (a n b m : Nat) : Bool := decide (a < b + m) && decide (b < a + n)
/-- R332: the bytes of a range of n pages, all of them where n is 0. -/
def tlbRange (va n : Nat) : Nat × Nat := if n = 0 then (0, 2 ^ 57) else (va / 4096 * 4096, 4096 * n)
/-- R324, R332: TLB entries, and with w walk-cache entries, of a range leave a package; of a whole ASID with w, the staging
fields in force too. -/
def Package.invalidate (p : Package) (asid va n : Nat) (w : Bool) : Package :=
  let r := tlbRange va n
  { p with
    tlbs := p.tlbs.filter (fun t => !((decide (t.asid = asid) || decide (bits t.pte 5 5 = 1)) && rangesMeet t.va (2 ^ t.bits) r.1 r.2))
    walks := if w then p.walks.filter (fun x => !((decide (x.asid = asid) || x.glob)
        && (if x.level = 5 then decide (n = 0) else rangesMeet (x.va * 2 ^ (12 + 9 * x.level)) (2 ^ (12 + 9 * x.level)) r.1 r.2)))
      else p.walks
    staging := if w ∧ n = 0 then Sparse.del p.staging asid else p.staging }
/-- A capture of an entry that was translated and is not yet performed. -/
def RqEntry.inFlight (e : RqEntry) (x : Cap) : Bool :=
  e.flies x && (match x.pages with | [] => false | .store _ _ :: _ => false | _ => true)
/-- R331, R332: the accesses on a package, by context, entry and lane, that satisfy a test and are in flight. -/
def State.inFlightWhen (s : State) (p : Nat) (f : Ctx → Cap → Bool) : List (Nat × Nat × Nat) :=
  (s.ctxs.filter (fun e => decide (e.2.pkg = p))).flatMap (fun e => e.2.rq.flatMap (fun r =>
    (r.caps.filter (fun y => r.inFlight y.2 && f e.2 y.2)).map (fun y => (e.1, r.id, y.1))))
/-- R331: the accesses of an ASID that are in flight, and those that its tables translated. -/
def State.translated (s : State) (p asid : Nat) : List (Nat × Nat × Nat) :=
  s.inFlightWhen p (fun c y => decide (c.asid = asid) || y.via.any (fun v => decide (v.asid = asid)))
/-- R332: an access was translated through an entry that a `TLBI` of a range removes: a leaf of the ASID, or one with G = 1,
and for `TLBI.w` a walk's non-leaf entries, the highest of which maps 2^48 bytes. -/
def Via.removed (v : Via) (asid va n : Nat) (w : Bool) : Bool :=
  let r := tlbRange va n
  ((decide (v.asid = asid) || v.glob) && rangesMeet v.va (2 ^ v.bits) r.1 r.2)
    || (w && v.walked && (decide (v.asid = asid) || v.globWalk) && rangesMeet (v.va / 2 ^ 48 * 2 ^ 48) (2 ^ 48) r.1 r.2)
/-- R332: the accesses in flight that were translated through what a `TLBI` removes. -/
def State.inFlightIn (s : State) (p asid va n : Nat) (w : Bool) : List (Nat × Nat × Nat) :=
  s.inFlightWhen p (fun _ y => y.via.any (fun v => v.removed asid va n w))
/-- R331: the generation of an ASID advances, and what carries the new value is dropped. -/
def Package.advanceGen (p : Package) (asid : Nat) : Package :=
  let g := (p.gen asid + 1) % 16
  { p with asidGen := Sparse.set 0 p.asidGen asid g, staging := Sparse.del p.staging asid
           tlbs := p.tlbs.filter (fun t => !(decide (t.asid = asid) && decide (t.gen = g)))
           walks := p.walks.filter (fun w => !(decide (w.asid = asid) && decide (w.gen = g))) }
/-- The accesses on a list that are still in flight. -/
def State.stillRunning (s : State) (l : List (Nat × Nat × Nat)) : List (Nat × Nat × Nat) :=
  l.filter (fun e => ((Sparse.find s.ctxs e.1).bind (fun c => c.entry e.2.1)).any (fun r => (Sparse.find r.caps e.2.2).any r.inFlight))
/-- A translation command's wait for accesses, and the register it writes at the end. -/
def afterAccesses (s : State) (l : List (Nat × Nat × Nat)) (gd : Option (Nat × Word)) : Eff :=
  match l with
  | [] => .ok (match gd with | some (d, w) => s.modCtx s.cur.ctx (fun c => c.wrG d w) | none => s)
  | _ => .wait s (.accesses l gd)
/-- The effect of `TLBI` and `TLBI.w` (R332). -/
def tlbi (i : Instr) (d a : Nat) (w : Bool) (s : State) : Out :=
  oncePerIssue i s (fun s c l _ =>
    let va := c.rdPairG a
    let n := (c.rdG d).toNat
    let asid := s.tlbAsid c
    if 2 ^ 57 ≤ va then .trap 8 [l] va
    else afterAccesses (s.modPkg c.pkg (fun p => p.invalidate asid va n w)) (s.inFlightIn c.pkg asid va n w) none)
/-- `TLBI` (R332). -/
def execTlbi (g : Guard) (d a : Nat) (s : State) : Out := tlbi (.tlbi g d a) d a false s
/-- `TLBI.w` (R332). -/
def execTlbiW (g : Guard) (d a : Nat) (s : State) : Out := tlbi (.tlbiW g d a) d a true s
/-- `ASIDGEN` (R331, R333). -/
def execAsidgen (g : Guard) (d : Nat) (s : State) : Out :=
  oncePerIssue (.asidgen g d) s (fun s c _ _ =>
    let asid := s.tlbAsid c
    let old := (s.pkg c.pkg).gen asid
    afterAccesses (s.modPkg c.pkg (fun p => p.advanceGen asid)) (s.translated c.pkg asid) (some (d, BitVec.ofNat 32 ((old + 1) % 16))))

end Sys2Proof.Machine
end

