-- ==== Sys2Proof/Machine/Command.lean ====
section
/-! DEFINITION. What the commands of the service registers do: replies to fault records (R338), translation commands
(R334), the archive zone (R340, R341), attestation (R363 to R367), firmware loads (R426, R427), dies and planes in and
out of service (R259 to R261, R423 to R425), debug halts (R397), and the completions of these commands. -/

namespace Sys2Proof.Machine

/-- A field of a service register of package p written. -/
def State.setFld (s : State) (p off hi lo x : Nat) : State := s.modPkg p (fun q => q.setFld off hi lo x)
/-- Bytes of local memory of a package, as an engine of the mast die reads them. -/
def State.mastRead (s : State) (p a n : Nat) : State × List Byte := s.homeRead (.hbm (hbmKey p a)) n
/-- Bytes of local memory of a package, as an engine of the mast die writes them. -/
def State.mastWrite (s : State) (p a : Nat) (bs : List Byte) : State := s.homeWrite none (some (p * 16 + 8)) (.hbm (hbmKey p a)) bs

/-! ### Replies (R338, R393) -/

/-- R338: a reply no longer finds its record; one that the ring has not taken yet is still written (R336). -/
def Package.dropFrec (p : Package) (id : Nat) : Package :=
  let l : List FRec := p.frecs.map (fun r => if r.id = id then { r with answered := true } else r)
  { p with frecs := l.filter (fun r => !(r.written && r.answered)) }
/-- A group, or a sequencer, that a stop or a swap holds: its parked entries replay when it goes on (R380, R399). -/
def State.heldBack (s : State) (c : Ctx) : Bool :=
  c.trapped || c.halted || (decide (c.kind ≠ .handler) && !decide ((s.unit c.unit).st = .running))
/-- The chunks of an entry changed. -/
def RqEntry.mapChunks (r : RqEntry) (f : Chunk → Chunk) : RqEntry := { r with chunks := r.chunks.map f }
/-- R338: a record is answered by retry. -/
def State.retry (s : State) (p id : Nat) : State :=
  let s := s.modPkg p (fun q => q.dropFrec id)
  let s := s.ctxs.foldl (fun s e =>
    if e.2.pkg ≠ p then s
    else
      let s := s.modCtx e.1 (fun c => c.modLanes (List.range c.nLanes) (fun _ x => if x.wait = .fetch id then { x with wait := .none } else x))
      if s.heldBack e.2 then s else e.2.rq.foldl (fun s r => s.replayEntry e.1 r.id (fun i => decide (i = id))) s) s
  let s := { s with
    ctxs := mapVals s.ctxs (fun _ (c : Ctx) => { c with
      rq := c.rq.map (fun (r : RqEntry) => r.mapChunks (fun x => if x.parked = p * 2 ^ 32 + id + 1 then { x with parked := 0 } else x)) })
    grids := mapVals s.grids (fun _ (g : Grid) => if g.pkg = p ∧ g.parked = id + 1 then { g with parked := 0 } else g) }
  s.modPkg p (fun q => { q with
    coll := mapVals q.coll (fun _ x => { x with parkedCh := x.parkedCh.filter (fun y => decide (y.2 ≠ id)) })
    qwait := q.qwait.filter (fun e => decide (e.2 / 2 ≠ id)) })
/-- A context waits on a record, in an entry or at a fetch. -/
def Ctx.waitsOn (c : Ctx) (id : Nat) : Bool :=
  c.lanes.any (fun e => decide (e.2.wait = .fetch id)) || c.rq.any (fun r => r.caps.any (fun x => !x.2.done && decide (x.2.parked = id + 1)))
/-- R255, R338: the copies of a context that wait on a record end. -/
def State.endCopies (s : State) (k p id : Nat) : State :=
  (s.ctx k).rq.foldl (fun s r => match r.copy with
    | some d => if r.chunks.any (fun x => decide (x.parked = p * 2 ^ 32 + id + 1)) then s.failCopy k r d 0x0101 else s
    | none => s) s
/-- R338: a collective ends at the member that waits on a record; one that has not started cannot start anywhere. -/
def State.endCollectives (s : State) (p id : Nat) : State :=
  (s.pkg p).coll.foldl (fun s e =>
    if ¬ e.2.used ∨ ¬ e.2.parkedCh.any (fun x => decide (x.2 = id)) then s
    else if e.2.started then
      s.modColl p e.1 (fun x => { x with status := if x.status = 0 then 0x0F else x.status, parkedCh := [] })
    else s.failColl p e.1 0x0F) s
/-- R286, R287, R338: what a command processor does when a record that it waits on proves unresolvable. -/
def State.endReads (s : State) (p id : Nat) : State :=
  let s := (s.pkg p).qwait.foldl (fun s e =>
    if e.2 / 2 ≠ id then s
    else
      let s := s.modPkg p (fun q => { q with qwait := Sparse.del q.qwait e.1 })
      if e.2 % 2 = 1 then s.modPkg p (fun q => { q with qcause := Sparse.put q.qcause e.1 0x0101 }) else s.stopQueue p e.1 4) s
  s.grids.foldl (fun s e =>
    if e.2.pkg = p ∧ e.2.parked = id + 1 then (s.stopQueue p e.2.queue 4).closeGrid e.1 else s) s
/-- R338: a record is answered as unresolvable. -/
def State.unresolvable (s : State) (p id : Nat) : State :=
  let s := s.ctxs.foldl (fun s e =>
    let s := s.endCopies e.1 p id
    if e.2.pkg = p ∧ e.2.kind ≠ .handler ∧ e.2.waitsOn id then s.startAbort e.2.unit 0x0101 else s) s
  let s := (s.endCollectives p id).endReads p id
  s.modPkg p (fun q => q.dropFrec id)
/-- A write of TFREPLY (R336, R338, R393): the reply to a record that a service can know of. -/
def State.tfreply (s : State) (p : Nat) (v : DWord) : State :=
  let id := bits v 31 0
  let verdict := bits v 63 62
  match (s.pkg p).frecs.find? (fun r => decide (r.id = id) && !r.answered) with
  | none => s
  | some r =>
    if verdict ≠ 1 ∧ verdict ≠ 2 then s
    else if r.kind = 8 then
      s.modPkg p (fun q => { q.dropFrec id with poolUsed := q.poolUsed.filter (fun a => decide (a + 1 ≠ r.area)) })
    else if verdict = 1 then s.retry p id else s.unresolvable p id
/-- `FAULT_RECORD_FLUSH` (R336). -/
def execFaultRecordFlush (p : Nat) (s : State) : Out :=
  let q := s.pkg p
  if q.frecs.any (fun r => !r.written) && decide (q.fld 0x0608 63 63 = 1) && !q.ringFull then .next (s.writeFrec p)
  else .fault (.notEnabled "FAULT_RECORD_FLUSH")

/-! ### Translation commands (R331, R332, R334) -/

/-- The fields of TLBCMD that a write sets. -/
def tlbMask : DWord := 0x6000FFFFFFFFFFFF
/-- A write of TLBCMD (R334). -/
def State.tlbCommand (s : State) (p : Nat) (v : DWord) : State :=
  let q := s.pkg p
  if q.fld 0x0630 63 63 = 1 then s
  else
    let s := s.modPkg p (fun q => q.setReg 0x0630 ((q.reg 0x0630 &&& ~~~tlbMask) ||| (v &&& tlbMask)))
    let asid := bits v 47 32
    let va := q.fld 0x0628 56 12 * 4096
    let n := bits v 31 0
    let run := fun (s : State) (l : List (Nat × Nat × Nat)) => (s.setFld p 0x0630 63 63 1).modPkg p (fun q => { q with tlbWait := l })
    match bits v 62 61 with
    | 0 => s
    | 3 =>
      let l := s.translated p asid
      run (s.modPkg p (fun q => q.advanceGen asid)) l
    | op => run (s.modPkg p (fun q => q.invalidate asid va n (decide (op = 2)))) (s.inFlightIn p asid va n (decide (op = 2)))
/-- `TLB_COMMAND_COMPLETE` (R331, R332, R334). -/
def execTlbCommandComplete (p : Nat) (s : State) : Out :=
  let q := s.pkg p
  if q.fld 0x0630 63 63 = 1 ∧ (s.stillRunning q.tlbWait).isEmpty then
    .next (s.modPkg p (fun q => { (q.setFld 0x0630 63 63 0).setFld 0x0630 51 48 (q.gen (q.fld 0x0630 47 32)) with tlbWait := [] }))
  else .fault (.notEnabled "TLB_COMMAND_COMPLETE")

/-! ### The archive zone (R340, R341) -/

/-- First byte of the archive zone. -/
def Package.zoneBase (p : Package) : Nat := p.fld 0x0638 20 0 * 2 ^ 21
/-- Bytes of the archive zone. -/
def Package.zoneSize (p : Package) : Nat := p.fld 0x0638 47 34 * 2 ^ 26
/-- A write of ARCHCFG (R340): with no record in the zone, and a zone below the end of local memory. -/
def Package.archConfig (p : Package) (v : DWord) : Package :=
  let w := v &&& 0x0000FFFC001FFFFF
  if p.archive.isEmpty ∧ bits w 20 0 * 2 ^ 21 + bits w 47 34 * 2 ^ 26 < hbmEnd then p.setReg 0x0638 w else p
/-- The units that a record takes in the zone. -/
def ArchRec.room (r : ArchRec) : Nat := max 1 r.len
/-- A record of n units fits at a handle. -/
def Package.archFits (p : Package) (h n : Nat) : Bool :=
  decide (64 * (h + n) ≤ p.zoneSize) && p.archive.all (fun r => decide (h + n ≤ r.handle) || decide (r.handle + r.room ≤ h))
/-- R341: the handle that the engine chooses: the one it prefers where that is free, else the lowest that starts the
zone or follows a record. -/
def Package.archPick (p : Package) (pref n : Nat) : Option Nat :=
  (pref :: 0 :: p.archive.map (fun r => r.handle + r.room)).find? (fun h => p.archFits h n)
/-- R340: a frame that a command may name. -/
def Package.frameOk (p : Package) (a : Nat) : Bool :=
  decide (a + 4096 ≤ hbmEnd) && (decide (a + 4096 ≤ p.zoneBase) || decide (p.zoneBase + p.zoneSize ≤ a))
/-- R340: the bytes of the record of a page, and its length in units. -/
def archRecord (page : List Byte) : Nat × List Byte :=
  if allZero page then (0, [])
  else match Config.archiveLength page % 64 with
    | 0 => (64, page)
    | n => (n, (Config.archiveBytes page ++ List.replicate (64 * n) 0).take (64 * n))
/-- R341: compress. -/
def State.compress (s : State) (p a : Nat) : State × Nat :=
  let q := s.pkg p
  if ¬ q.frameOk a then (s, 2)
  else
    let r := s.mastRead p a 4096
    let c := archRecord r.2
    let s := { r.1 with free := r.1.free + 1 }
    match q.archPick (Config.archiveChoice r.1.free) (max 1 c.1) with
    | none => (s, 1)
    | some h =>
      ((s.mastWrite p (q.zoneBase + 64 * h) c.2).modPkg p (fun q =>
        { (q.setFld 0x0648 40 7 h).setFld 0x0648 6 0 c.1 with archive := q.archive ++ [{ handle := h, len := c.1, page := r.2 }] }), 0)
/-- R341: expand. -/
def State.expand (s : State) (p h a : Nat) : State × Nat :=
  match (s.pkg p).archive.find? (fun r => decide (r.handle = h)) with
  | some r => if (s.pkg p).frameOk a then (s.mastWrite p a r.page, 0) else (s, 2)
  | none => (s, 2)
/-- R341: free. -/
def State.freeRecord (s : State) (p h : Nat) : State × Nat :=
  if (s.pkg p).archive.any (fun r => decide (r.handle = h)) then
    (s.modPkg p (fun q => { q with archive := q.archive.filter (fun r => decide (r.handle ≠ h)) }), 0)
  else (s, 2)
/-- A write of ARCHCMD (R340, R341). -/
def State.archCommand (s : State) (p : Nat) (v : DWord) : State :=
  if (s.pkg p).fld 0x0648 63 63 = 1 then s
  else
    let h := bits v 61 28
    let a := bits v 27 0 * 4096
    let done := fun (r : State × Nat) => (r.1.setFld p 0x0648 63 63 1).modPkg p (fun q => { q with archPend := r.2 })
    match bits v 63 62 with
    | 1 => done (s.compress p a)
    | 2 => done (s.expand p h a)
    | 3 => done (s.freeRecord p h)
    | _ => s
/-- `ARCH_COMMAND_COMPLETE` (R340, R341): the engine's accesses are performed, so the release at L4 holds. -/
def execArchCommandComplete (p : Nat) (s : State) : Out :=
  if (s.pkg p).fld 0x0648 63 63 = 1 then
    .next (s.modPkg p (fun q => { (q.setFld 0x0648 63 63 0).setFld 0x0648 62 61 q.archPend with archPend := 0 }))
  else .fault (.notEnabled "ARCH_COMMAND_COMPLETE")

/-! ### Measurement and attestation (R363 to R367) -/

/-- The 64 bytes of MEASi (R363). -/
def Package.meas (p : Package) (i : Nat) : List Byte := (List.range 8).flatMap (fun j => bytesOfNat 8 (p.reg (0x0880 + 64 * i + 8 * j)).toNat)
/-- R363: MEASi is extended by a digest. -/
def Package.extend (p : Package) (i : Nat) (d : List Byte) : Package :=
  let h := sha512 (p.meas i ++ d)
  (List.range 8).foldl (fun p j => p.setReg (0x0880 + 64 * i + 8 * j) (BitVec.ofNat 64 (natOfBytes ((h.drop (8 * j)).take 8)))) p
/-- The quote, without its nonce and its signature (R366). -/
def Package.quote (p : Package) : List Byte :=
  bytesOfNat 8 (2 ^ 56 + 2 ^ 48 + p.fld 0x0808 31 0) ++ bytesOfNat 8 (p.reg 0x0000).toNat ++ bytesOfNat 8 (p.reg 0x0008).toNat
    ++ bytesOfNat 8 p.count ++ bytesOfNat 8 (p.reg 0x0818).toNat ++ List.replicate 24 0 ++ (List.range 8).flatMap p.meas
/-- R366: a quote written to a buffer. -/
def State.writeQuote (s : State) (p a : Nat) : State :=
  let r := s.mastRead p a 64
  let s := r.1.modPkg p (fun q => q.setFld 0x0808 31 0 (q.fld 0x0808 31 0 + 1))
  let body := (s.pkg p).quote
  let sig := identitySignature p s.free (r.2 ++ body)
  { s.mastWrite p (a + 64) (body ++ sig) with free := s.free + 1 }
/-- R367: the certificate and its length written to a buffer. -/
def State.writeCert (s : State) (p a : Nat) : State :=
  let c := (Config.identityCertificate ((s.pkg p).reg 0x0000) (identityModulus p)).take 3968
  (s.mastWrite p a (bytesOfNat 4 c.length)).mastWrite p (a + 64) c
/-- A write of ATTCMD (R365). -/
def State.attCommand (s : State) (p : Nat) (v : DWord) : State :=
  if (s.pkg p).fld 0x0808 63 63 = 1 then s
  else
    let a := bits v 51 12 * 4096
    let op := bits v 63 61
    let bad := decide (hbmEnd ≤ a) || !(decide (op = 1) || decide (op = 2))
    let s := if bad then s else if op = 1 then s.writeQuote p a else s.writeCert p a
    (s.setFld p 0x0808 63 63 1).modPkg p (fun q => { q with attPend := if bad then 1 else 0 })
/-- `ATT_COMPLETE` (R359, R365). -/
def execAttComplete (p : Nat) (s : State) : Out :=
  if (s.pkg p).fld 0x0808 63 63 = 1 then
    .next ((s.modPkg p (fun q => { (q.setFld 0x0808 63 63 0).setFld 0x0808 62 61 q.attPend with attPend := 0 })).packageEvent p)
  else .fault (.notEnabled "ATT_COMPLETE")

/-! ### Firmware loads (R362, R426, R427) -/

/-- The fused digest and minimum versions. -/
def Package.fuses (p : Package) : List Byte × List Nat := match p.boot with | some b => (b.keyDigest, b.minVersion) | none => ([], [])
/-- A header and its image at a local address; what would lie beyond local memory is not read. -/
def State.readImage (s : State) (p a : Nat) : State × List Byte :=
  if hbmEnd ≤ a then (s, [])
  else
    let r := s.mastRead p (a + 8) 8
    if hbmEnd < a + fwHeader + natOfBytes r.2 then (r.1, []) else r.1.mastRead p a (fwHeader + natOfBytes r.2)
/-- R427: the dies or planes of a mask are all out of service. -/
def Package.maskOut (p : Package) (target mask : Nat) : Bool :=
  (List.range 8).all (fun i => !mask.testBit i
    || (if target = 2 then decide (p.fld 0x1008 (48 + i) (48 + i) = 1) else decide (p.fld 0x1010 i i = 1)))
/-- A write of FWUPD (R426, R427). -/
def State.fwCommand (s : State) (p : Nat) (v : DWord) : State :=
  let q := s.pkg p
  let target := bits v 61 60
  if q.fld 0x1108 63 63 = 1 ∨ bits v 63 62 ≠ 1 ∨ target = 0 then s
  else
    let read := s.readImage p (bits v 51 12 * 4096)
    let s := read.1
    let img := read.2
    let f := q.fuses
    let run := fun (g : Package → Package) (r : Nat) => s.modPkg p (fun q => { (g q).setFld 0x1108 63 63 1 with fwPend := r })
    match fwCheck img target f.1 f.2 with
    | .mismatch => run (fun q => q) 1
    | .old => run (fun q => q) 2
    | .good =>
      if target = 1 then run (fun q => { q with stagedFw := img }) 4
      else if q.maskOut target (bits v 59 52) then run (fun q => q.extend 7 (sha512 img)) 0
      else run (fun q => q) 3
/-- `FW_LOAD_COMPLETE` (R359, R427). -/
def execFwLoadComplete (p : Nat) (s : State) : Out :=
  if (s.pkg p).fld 0x1108 63 63 = 1 then
    .next ((s.modPkg p (fun q => { (q.setFld 0x1108 63 63 0).setFld 0x1108 62 60 q.fwPend with fwPend := 0 })).packageEvent p)
  else .fault (.notEnabled "FW_LOAD_COMPLETE")

/-! ### Dies out of service (R19, R423, R424) -/

/-- R390: areas in the save pool. -/
def Package.poolCount (p : Package) : Nat := p.fld 0x0C10 11 0
/-- R390: areas that are free. -/
def Package.poolFree (p : Package) : Nat := p.poolCount - p.poolUsed.length
/-- The teams of a unit that moves: itself, or a cluster unit's teams that have a place or an area. -/
def State.movedTeams (s : State) (u : Nat) : List Nat :=
  if (s.unit u).level = 1 then [u] else (s.childUnits u).filter (fun x => match (s.unit x).st with | .running | .aborting _ => true | _ => false)
/-- R392: the areas that a move takes: one for each team, and for a cluster unit one for each half's cluster memory. -/
def State.areasFor (s : State) (u : Nat) : Nat :=
  let x := s.unit u
  (s.movedTeams u).length + (if x.level = 1 then 0 else if x.split then 2 else 1)
/-- A unit stands on a die. -/
def WUnit.onDie (x : WUnit) (p d : Nat) : Bool :=
  decide (x.pkg = p) && x.inPlace && !x.site.mast && (decide (x.site.die = d) || (x.split && decide (x.level = 2) && decide (x.site2.die = d)))
/-- R423, R431: units still placed on a die, and those of the package that are between two places (log 74). -/
def State.leftOn (s : State) (p d : Nat) : Nat :=
  (s.units.filter (fun e => e.2.onDie p d || (decide (e.2.pkg = p) && decide (e.2.st = .moving true)))).length
/-- The unit is one that a drain moves: a cluster unit, or a team rooted at L1 (R392, R424). -/
def State.movable (s : State) (x : WUnit) : Bool := decide (x.level = 2) || (decide (x.level = 1) && decide ((s.grid x.grid).rootLvl = 1))
/-- R424 step 2: units of a die move, but for those that need more areas than the pool has. -/
def State.moveOff (s : State) (p d : Nat) : State :=
  s.units.foldl (fun s e =>
    if e.2.onDie p d && decide (e.2.st = .running) && s.movable e.2 && decide (s.areasFor e.1 ≤ (s.pkg p).poolCount) then
      (s.startMove e.1).modUnit e.1 (fun x => { x with anyDie := dieIsB d, drained := true })
    else s) s
/-- A time-out of a stopped interval moved by it. -/
def later (n : Nat) (t : Option Nat) : Option Nat := t.map (fun x => x + n)
/-- R19: the time-outs that the parties of a die hold are put off by a stopped interval. -/
def State.putOff (s : State) (p d n : Nat) : State :=
  let here := fun (x : Site) => !x.mast && decide (x.die = d)
  let s := { s with
    ctxs := mapVals s.ctxs (fun _ (c : Ctx) => if c.pkg = p ∧ here c.site = true then
      { c with
        lanes := mapVals c.lanes (fun _ x => match x.wait with | .sleep t => { x with wait := .sleep (t + n) } | _ => x)
        rq := c.rq.map (fun (r : RqEntry) => match r.copy with
          | some cd => r.mapChunks (fun x =>
              if x.st = 2 ∧ (s.copyEnds c cd x).any (fun (b : BulkEnds) => decide (b.src = p) && here b.site) = true then { x with window := x.window + n } else x)
          | none => r) }
      else c)
    units := mapVals s.units (fun _ (x : WUnit) => if x.pkg = p ∧ here x.site = true then { x with deadline := later n x.deadline } else x) }
  s.modPkg p (fun q => { q with
    combine := mapVals q.combine (fun k x => if k / 4096 = d ∧ x.st = CmbSt.opened then { x with deadline := later n x.deadline } else x)
    preq := mapVals q.preq (fun k t => if k / 256 = d then t + n else t) })
/-- R19: a die's clocks stop. -/
def State.stopDie (s : State) (p d : Nat) : State := s.modPkg p (fun q => { q with stopped := Sparse.put q.stopped d (q.dieCopy d), lag := Sparse.del q.lag d })
/-- R19: a stopped die restarts. -/
def State.restartDie (s : State) (p d : Nat) : State :=
  match Sparse.find (s.pkg p).stopped d with
  | none => s
  | some t => (s.putOff p d ((s.pkg p).count - t)).modPkg p (fun q => { q with stopped := Sparse.del q.stopped d })
/-- `DIE_CLOCK_STOP` (R19). -/
def execDieClockStop (p die : Nat) (s : State) : Out :=
  if die < 8 ∧ (Sparse.find (s.pkg p).stopped die).isNone then .next (s.stopDie p die) else .fault (.notEnabled "DIE_CLOCK_STOP")
/-- `DIE_CLOCK_RESTART` (R19). -/
def execDieClockRestart (p die : Nat) (s : State) : Out :=
  if (Sparse.find (s.pkg p).stopped die).isSome then .next (s.restartDie p die) else .fault (.notEnabled "DIE_CLOCK_RESTART")
/-- A write of DIESVC (R423, R424, R431). -/
def State.diesvc (s : State) (p : Nat) (v : DWord) : State :=
  let q := s.pkg p
  let d := bits v 2 0
  let out := fun (i : Nat) => decide (q.fld 0x1008 (48 + i) (48 + i) = 1)
  if q.fld 0x1008 63 63 = 1 ∨ q.fld 0x1108 63 63 = 1 then s
  else match bits v 63 62 with
    | 1 =>
      if (List.range 6).all (fun i => out i || decide (i = d)) then s
      else
        (s.modPkg p (fun q => ((q.setFld 0x0008 (40 + d) (40 + d) 0).setFld 0x1008 63 63 1).setFld 0x1008 58 56 d)).moveOff p d
    | 2 =>
      if ¬ out d then s
      else
        ((s.restartDie p d).modPkg p (fun q =>
          ((q.setFld 0x0008 (40 + d) (40 + d) 1).setFld 0x1008 (48 + d) (48 + d) 0).setFld 0x1008 58 56 d)).packageEvent p
    | _ => s
/-- `DIE_DRAIN_COMPLETE` (R359, R424): no unit is left, and the die's shadow words merge. -/
def execDieDrainComplete (p : Nat) (s : State) : Out :=
  let q := s.pkg p
  let d := q.fld 0x1008 58 56
  let f := fun (x : ShadowWord) => decide (x.die = d)
  if q.fld 0x1008 63 63 = 1 ∧ s.leftOn p d = 0 ∧ s.mergeable p f = true then
    .next (((s.mergeShadows p f).modPkg p (fun q => (q.setFld 0x1008 63 63 0).setFld 0x1008 (48 + d) (48 + d) 1)).packageEvent p)
  else .fault (.notEnabled "DIE_DRAIN_COMPLETE")

/-! ### Planes and ports (R259 to R261, R425) -/

/-- The plane of a fabric port. -/
def portPlane (i : Nat) : Nat := i / 3
/-- PLANESTAT DEAD of a plane. -/
def Package.planeDead (p : Package) (x : Nat) : Bool := decide (p.fld 0x0508 (40 + x) (40 + x) = 1)
/-- PLANEMAP's entry for a logical plane. -/
def Package.planeOf (p : Package) (i : Nat) : Nat := p.fld 0x0500 (3 * i + 2) (3 * i)
/-- PLANESTAT PORTDN as the ports stand. -/
def Package.countPorts (p : Package) : Package := p.setFld 0x0508 31 24 (24 - p.livePorts)
/-- R260: one remap of a logical plane, recorded and announced. -/
def State.remap (s : State) (p i x : Nat) : State :=
  (s.modPkg p (fun q => (q.setFld 0x0500 (3 * i + 2) (3 * i) x).setFld 0x0508 23 0 (min (q.fld 0x0508 23 0 + 1) (2 ^ 24 - 1)))).packageEvent p
/-- R260: a logical plane stops and drains, to go on at a physical plane. -/
def State.drainPlane (s : State) (p i x : Nat) : State :=
  s.modPkg p (fun q => { q.setFld 0x0508 (32 + i) (32 + i) 1 with switching := Sparse.put q.switching i (x, s.cycle) })
/-- R260: a logical plane that has drained, which takes a cycle at least, switches and resumes. -/
def planeSwitch (p i : Nat) (s : State) : Out :=
  match Sparse.find (s.pkg p).switching i with
  | some (x, t) =>
    if t < s.cycle then
      .next ((s.modPkg p (fun q => { q.setFld 0x0508 (32 + i) (32 + i) 0 with switching := Sparse.del q.switching i })).remap p i x)
    else .fault (.notEnabled "PLANEMAP_WRITE")
  | none => .fault (.notEnabled "PLANEMAP_WRITE")
/-- The physical plane at which a logical plane goes on: the one to which it drains, or where it stands. -/
def Package.planeTo (p : Package) (i : Nat) : Nat := match Sparse.find p.switching i with | some x => x.1 | none => p.planeOf i
/-- R260: the lowest live plane above a dead one, modulo 8. -/
def Package.nextPlane (p : Package) (x : Nat) : Option Nat :=
  ((List.range 7).map (fun j => (x + 1 + j) % 8)).find? (fun y => !p.planeDead y)
/-- R260: a plane dies, and its logical planes move. -/
def State.planeDies (s : State) (p x : Nat) : State :=
  let s := s.setFld p 0x0508 (40 + x) (40 + x) 1
  match (s.pkg p).nextPlane x with
  | none => s
  | some y => (List.range 8).foldl (fun s i => if (s.pkg p).planeTo i = x then s.drainPlane p i y else s) s
/-- `PLANE_FAILURE` (R259, R260). -/
def execPlaneFailure (p plane : Nat) (s : State) : Out :=
  if plane < 8 ∧ (s.pkg p).planeDead plane = false then
    .next ((s.modPkg p (fun q => { q with planeFail := q.planeFail ||| (1#8 <<< plane) })).planeDies p plane)
  else .fault (.notEnabled "PLANE_FAILURE")
/-- `FABRIC_PORT_FAILURE` (R259, R260). -/
def execFabricPortFailure (p port : Nat) (s : State) : Out :=
  if port < 24 ∧ (s.pkg p).portsDown.getLsbD port = false then
    let s := s.modPkg p (fun q => { q with portsDown := q.portsDown ||| (1#24 <<< port) }.countPorts)
    let x := portPlane port
    if (s.pkg p).portsDown.extractLsb' (3 * x) 3 = 7 ∧ (s.pkg p).planeDead x = false then .next (s.planeDies p x) else .next s
  else .fault (.notEnabled "FABRIC_PORT_FAILURE")
/-- A write of PLANEMAP (R260, R425). -/
def State.planemap (s : State) (p : Nat) (v : DWord) : State :=
  (List.range 8).foldl (fun s i =>
    let x := bits v (3 * i + 2) (3 * i)
    if x = (s.pkg p).planeTo i ∨ (s.pkg p).planeDead x then s else s.drainPlane p i x) s
/-- The ports of a plane. -/
def planePorts (x : Nat) : BitVec 24 := 7#24 <<< (3 * x)
/-- R425: one bit of PLANESVC written. -/
def Package.planeBit (p : Package) (x : Nat) (out : Bool) : Package :=
  let was := decide (p.fld 0x1010 x x = 1)
  if out && !was && (List.range 8).all (fun i => decide (p.planeOf i ≠ x) && decide (p.planeTo i ≠ x)) then
    { (p.setFld 0x1010 x x 1).setFld 0x0508 (40 + x) (40 + x) 1 with
      portsDown := p.portsDown ||| planePorts x, retrain := p.retrain &&& ~~~planePorts x }.countPorts
  else if was && !out then { p.setFld 0x1010 x x 0 with retrain := p.retrain ||| planePorts x }
  else p
/-- A write of PLANESVC (R425). -/
def Package.planesvc (p : Package) (v : DWord) : Package :=
  (List.range 8).foldl (fun p x => p.planeBit x (decide (bits v x x = 1))) p
/-- `PORT_RETRAIN_COMPLETE` (R425): the lowest port of a plane that retrains comes up. -/
def execPortRetrainComplete (p plane : Nat) (s : State) : Out :=
  match [3 * plane, 3 * plane + 1, 3 * plane + 2].find? (fun i => (s.pkg p).retrain.getLsbD i) with
  | none => .fault (.notEnabled "PORT_RETRAIN_COMPLETE")
  | some i =>
    .next (s.modPkg p (fun q => { q.setFld 0x0508 (40 + plane) (40 + plane) 0 with
      portsDown := q.portsDown &&& ~~~(1#24 <<< i), retrain := q.retrain &&& ~~~(1#24 <<< i)
      planeFail := q.planeFail &&& ~~~(1#8 <<< plane) }.countPorts))

/-! ### Debug halts and breakpoints (R397, R404) -/

/-- A write of DBGHALT (R397). -/
def State.dbghalt (s : State) (p : Nat) (v : DWord) : State :=
  let site := siteOfLoc (bits v 10 0)
  match (s.resident p site).find? (fun e => decide (e.2.resIdx = bits v 20 16) && decide (e.2.asid = bits v 47 32)) with
  | none => s
  | some e =>
    if bits v 60 59 = 3 then s
    else
      let sc := HScope.ofCode (bits v 60 59)
      match bits v 63 61 with
      | 1 => s.haltScope e.2 sc
      | 2 => s.resumeScope e.2 sc
      | _ => s
/-- A write of CPBRKC (R403, R404). -/
def Package.cpbrk (p : Package) (b : Nat) (v : DWord) : Package :=
  let off := 0x0F88 + 16 * b
  let hit := bits (p.reg off) 59 59
  let p := p.setReg off (putBits (v &&& 0xF03F000000000000) 59 59 (if bits v 59 59 = 1 then 0 else hit))
  if bits v 59 59 = 1 then { p with held := mapVals p.held (fun _ x => { x with mask := x.mask &&& ~~~(1#4 <<< b) }) } else p
/-- A write of IABRKC (R400). -/
def Package.iabrk (p : Package) (b : Nat) (v : DWord) : Package :=
  let off := 0x0F18 + 16 * b
  let hit := bits (p.reg off) 60 60
  p.setReg off (putBits (v &&& 0xE000FFFFFFFFFFFF) 60 60 (if bits v 60 60 = 1 then 0 else hit))
/-- A write of SACCTL (R411). -/
def Package.sacctl (p : Package) (v : DWord) : Package :=
  let p := p.setFld 0x0E08 63 63 (bits v 63 63)
  let p := if bits v 62 62 = 1 then { p with snap := p.account } else p
  if bits v 61 61 = 1 then { p with account := [] } else p

/-! ### Cores stopped by a double fault (R377) -/

/-- A team that stands on a core is still aborting. -/
def State.coreAborting (s : State) (p core : Nat) : Bool :=
  s.units.any (fun e => decide (e.2.pkg = p) && decide (e.2.level = 1) && !e.2.site.mast && decide (e.2.site.loc = core)
    && s.ctxs.any (fun c => decide (c.2.kind ≠ .handler) && decide (c.2.unit = e.1) && c.2.placed)
    && (match e.2.st with | .aborting _ => true | _ => false))
/-- R377: stopped cores whose return was asked for and whose aborts have completed return to service. -/
def State.returnCores (s : State) (p : Nat) : State :=
  (s.pkg p).coreReturn.foldl (fun s core =>
    if s.coreAborting p core then s
    else
      let off := 0x0D00 + 32 * (core / 256 % 8) + 8 * (core % 256 / 64)
      s.modPkg p (fun q => { q.setFld off (core % 64) (core % 64) 0 with coreReturn := q.coreReturn.filter (fun x => decide (x ≠ core)) })) s
/-- A write of CORESTOP (R377). -/
def State.corestop (s : State) (p die wd : Nat) (v : DWord) : State :=
  let old := (s.pkg p).reg (0x0D00 + 32 * die + 8 * wd)
  let l := ((List.range 64).filter (fun b => v.getLsbD b && old.getLsbD b)).map (fun b => die * 256 + wd * 64 + b)
  (s.modPkg p (fun q => { q with coreReturn := (q.coreReturn ++ l).eraseDups })).returnCores p

end Sys2Proof.Machine
end

