-- ==== Sys2Proof/Machine/Service.lean ====
section
/-! DEFINITION. The service register space: masters, ownership, windows, freezing, and what a write of each register does
(R6, R350 to R359, R419), with the events of the registers that have a row of their own. -/

namespace Sys2Proof.Machine

/-! ### Ownership (R350 to R358) -/

/-- MSTOWN NONE. -/
def Package.noOwner (p : Package) : Bool := decide (p.fld 0x0700 7 7 = 1)
/-- Master m is the package owner. -/
def Package.owns (p : Package) (m : Nat) : Bool := !p.noOwner && decide (p.fld 0x0700 1 0 = m)
/-- MSTOWN PRESENT. -/
def Package.present (p : Package) (m : Nat) : Bool := decide (p.fld 0x0700 (12 + m) (12 + m) = 1)
/-- MSTFRZ FRZ. -/
def Package.frozen (p : Package) (m : Nat) : Bool := decide (p.fld 0x0710 (16 * m + 15) (16 * m + 15) = 1)
/-- The debug port, which is no master (R396). -/
def debugPort : Nat := 4
/-- A requester of the space that can reach it (R350, R353). -/
def Package.reaches (p : Package) (m : Nat) : Bool := decide (m = debugPort) || (decide (m < 4) && p.present m)
/-- R352, R356: the register at an offset is in master m's window or in a group delegated to it; one with no writable field
(0x0648 among them) is in none. -/
def Package.inWindow (p : Package) (m off : Nat) : Bool :=
  let qm := p.reg (0x0720 + 8 * m)
  let w := p.reg (0x0740 + 8 * m)
  if 0x2000 ≤ off ∧ off < 0x2800 then
    qm.getLsbD ((off - 0x2000) / 32) && (decide (off % 32 = 0x10) || (w.getLsbD 0 && decide (off % 32 ≤ 8)))
  else if 0x4000 ≤ off ∧ off < 0xC000 then
    decide (bits w 31 26 ≤ (off - 0x4000) / 512) && decide ((off - 0x4000) / 512 < bits w 31 26 + bits w 25 19)
  else if 0x0600 ≤ off ∧ off ≤ 0x0640 then w.getLsbD 1
  else decide (off = 0x0800) && w.getLsbD 2
/-- What becomes of a write (R350, R352, R357, R396, R421). -/
inductive Right
  /-- it acts as R6 gives -/
  | acts
  /-- it is refused, and nothing changes -/
  | refused
  /-- it has no effect and freezes its master -/
  | freezes
  deriving DecidableEq, Repr
/-- The right of a requester to write the register at an offset. -/
def Package.right (p : Package) (m off : Nat) : Right :=
  if p.fld 0x0018 15 8 ≠ 0 then .refused
  else if m = debugPort then (if p.fld 0x0F08 0 0 = 0 ∧ 0x0E00 ≤ off ∧ off < 0x1000 then .acts else .refused)
  else if p.frozen m then .refused
  else if p.owns m || (!p.noOwner && p.inWindow m off) then .acts else .freezes
/-- R357 to R359: master m is frozen by a write at an offset. -/
def State.freeze (s : State) (p m off : Nat) : State :=
  (s.setFld p 0x0710 (16 * m + 15) (16 * m) (2 ^ 15 + off / 8)).packageEvent p
/-- R354: a write of MSTCTL. -/
def State.mstctl (s : State) (p m : Nat) (v : DWord) : State :=
  let q := s.pkg p
  let t := bits v 1 0
  let op := bits v 63 61
  if q.fld 0x0018 15 8 ≠ 0 ∨ m = debugPort ∨ q.frozen m then s
  else if op = 1 ∧ bits v 60 2 = 0 then
    if q.noOwner then s.modPkg p (fun q => { (q.setFld 0x0700 1 0 m).setFld 0x0700 7 7 0 with absentSince := none }) else s
  else if q.noOwner then s.freeze p m 0x0708
  else if op = 4 ∧ bits v 60 2 = 0 then
    if q.fld 0x0700 6 6 = 1 ∧ q.fld 0x0700 5 4 = m then
      s.modPkg p (fun q => { (q.setFld 0x0700 1 0 m).setFld 0x0700 6 6 0 with absentSince := none })
    else s
  else if ¬ q.owns m then s.freeze p m 0x0708
  else if bits v 60 2 ≠ 0 then s
  else match op with
    | 2 =>
      if q.present t ∧ ¬ q.frozen t ∧ t ≠ m then
        s.modPkg p (fun q => { (q.setFld 0x0700 6 6 1).setFld 0x0700 5 4 t with offerAt := q.count })
      else s
    | 3 => s.setFld p 0x0700 6 6 0
    | 5 => s.modPkg p (fun q => (q.setFld 0x0700 7 7 1).setFld 0x0700 6 6 0)
    | _ => s

/-! ### What a write does (R6, and the rule of each register) -/

/-- The bits of a register that a write simply replaces; 0 where it does something else, or nothing. -/
def plainMask (off : Nat) : DWord :=
  if 0x0720 ≤ off ∧ off < 0x0740 then 0xFFFFFFFFFFFFFFFF
  else if 0x0740 ≤ off ∧ off < 0x0760 then 0x00000000FFF80007
  else if 0x4000 ≤ off ∧ off < 0xC000 then 0x00000000000FFFFF
  else match off with
    | 0x0600 => 0x000FFFFFFFF00000
    | 0x0608 => 0xF80FFFFFFFFFF000
    | 0x0610 => 0x00FFFFFFFFFFF7FF
    | 0x0618 => 0x00000000FFFFFFFF
    | 0x0628 => 0x01FFFFFFFFFFF000
    | 0x0760 => 0x00FFFFFFFFFFF7FF
    | 0x0810 => 0x000000000001FFFF
    | 0x0C00 => 0x01FFFFFFFFFFFFFC
    | 0x0C08 => 0x000000000001FFFF
    | 0x0E00 => 0x000000000000FFFF
    | 0x0F10 => 0x01FFFFFFFFFFFFFC
    | 0x0F20 => 0x01FFFFFFFFFFFFFC
    | 0x0F30 => 0x01FFFFFFFFFFFFFC
    | 0x0F40 => 0x01FFFFFFFFFFFFFC
    | 0x0F80 => 0x01FFFFFFFFFFFFFC
    | 0x0F90 => 0x01FFFFFFFFFFFFFC
    | 0x0FA0 => 0x01FFFFFFFFFFFFFC
    | 0x0FB0 => 0x01FFFFFFFFFFFFFC
    | 0x0FD0 => 0x000FFFFFFFFFF000
    | 0x0FD8 => 0xFF00FFFFFFFFFFFF
    | 0x0FE0 => 0x00000000FFFFFFFF
    | 0x0FE8 => 0x00000000FFFFFFFF
    | _ => 0
/-- The bits of a register under a mask replaced. -/
def Package.putMask (p : Package) (off : Nat) (mask v : DWord) : Package :=
  p.setReg off ((p.reg off &&& ~~~mask) ||| (v &&& mask))
/-- R422: PWRCAP. -/
def Package.powerCap (p : Package) (v : DWord) : Package :=
  if 600 ≤ bits v 11 0 ∧ bits v 11 0 ≤ 2600 then p.setFld 0x0020 11 0 (bits v 11 0) else p
/-- R185: HRUQCFG, each field on its own. -/
def Package.setQuotas (p : Package) (v : DWord) : Package :=
  let near := bits v 44 32
  let home := bits v 16 0
  let p := if 1 ≤ near ∧ near ≤ 4096 then p.setFld 0x0440 44 32 near else p
  if 1 ≤ home ∧ home ≤ 65536 then p.setFld 0x0440 16 0 home else p
/-- R275: COLLCFG. -/
def Package.collConfig (p : Package) (v : DWord) : Package :=
  if p.coll.any (fun e => e.2.used) then p else p.putMask 0x0510 0x800FFFFFFFFFFFFF v
/-- R390: SAVEPOOL. -/
def Package.savePool (p : Package) (v : DWord) : Package :=
  if p.poolUsed.isEmpty then p.putMask 0x0C10 0x000FFFFFFFC00FFF v else p
/-- R358: MSTFRZ: masters are thawed. -/
def Package.thaw (p : Package) (v : DWord) : Package :=
  (List.range 4).foldl (fun p m => if v.getLsbD (16 * m + 15) then p.setFld 0x0710 (16 * m + 15) (16 * m + 15) 0 else p) p
/-- R282, R287: QBASE of queue q. -/
def Package.queueBase (p : Package) (q : Nat) (v : DWord) : Package :=
  if p.fld (0x2008 + 32 * q) 63 63 = 1 then p else p.putMask (0x2000 + 32 * q) 0x01FFFFFFFFFFF000 v
/-- R282, R287: QCTL of queue q. -/
def Package.queueCtl (p : Package) (q : Nat) (v : DWord) : Package :=
  let off := 0x2008 + 32 * q
  if p.fld off 63 63 = 1 then p.putMask off 0xE000000000000000 v
  else
    let p := p.putMask off 0xFEFFFF0000000000 v
    if bits v 63 63 = 1 then (p.setFld off 39 32 0).setFld off 31 31 0 else p
/-- R282: WPTR of queue q, and its overrun. -/
def State.queuePtr (s : State) (p q : Nat) (w : Nat) : State :=
  let s := s.setFld p (0x2010 + 32 * q) 31 0 w
  let x := (s.pkg p).reg (0x2010 + 32 * q)
  if 2 ^ ((s.pkg p).fld (0x2008 + 32 * q) 60 57 + 4) < (bits x 31 0 + 2 ^ 32 - bits x 63 32) % 2 ^ 32 then s.stopQueue p q 3 else s
/-- R428, R430: a word of PKGUP; a grid that the package, or the lost one, launched, or that has a unit on the package, ends with
an abort, the access fault, where it has a unit on a package that is a member no more. -/
def State.members (s : State) (p w : Nat) (v : DWord) : State :=
  let old := (s.pkg p).reg (0x3000 + 8 * w)
  let gone := ((List.range 64).filter (fun b => old.getLsbD b && !v.getLsbD b)).map (fun b => 64 * w + b)
  let s := s.modPkg p (fun q => q.setReg (0x3000 + 8 * w) v)
  s.units.foldl (fun s e =>
    let mine : List Nat := (s.units.filter (fun f => decide (f.2.grid = e.2.grid))).map (fun f => f.2.pkg)
    let home := (s.grid e.2.grid).pkg
    if decide (e.2.parent = 0) && (decide (home = p) || gone.contains home || mine.contains p)
        && mine.any (fun q => gone.contains q && decide (q ≠ p))
    then s.startAbort e.1 8 else s) s
/-- R6: a write that acts, at an offset of the space. -/
def State.regWrite (s : State) (p off : Nat) (v : DWord) : State :=
  if plainMask off ≠ 0 then s.modPkg p (fun q => q.putMask off (plainMask off) v)
  else if 0x0D00 ≤ off ∧ off < 0x0E00 then s.corestop p ((off - 0x0D00) / 32) (off % 32 / 8) v
  else if 0x0F10 ≤ off ∧ off < 0x0F50 then s.modPkg p (fun q => q.iabrk ((off - 0x0F10) / 16) v)
  else if 0x0F80 ≤ off ∧ off < 0x0FC0 then s.modPkg p (fun q => q.cpbrk ((off - 0x0F80) / 16) v)
  else if 0x2000 ≤ off ∧ off < 0x2800 then
    match off % 32 with
    | 0 => s.modPkg p (fun x => x.queueBase ((off - 0x2000) / 32) v)
    | 8 => s.modPkg p (fun x => x.queueCtl ((off - 0x2000) / 32) v)
    | 16 => s.queuePtr p ((off - 0x2000) / 32) (bits v 31 0)
    | _ => s
  else if 0x3000 ≤ off ∧ off < 0x3080 then s.members p ((off - 0x3000) / 8) v
  else match off with
    | 0x0020 => s.modPkg p (fun q => q.powerCap v)
    | 0x0440 => s.modPkg p (fun q => q.setQuotas v)
    | 0x0500 => s.planemap p v
    | 0x0510 => s.modPkg p (fun q => q.collConfig v)
    | 0x0620 => s.tfreply p v
    | 0x0630 => s.tlbCommand p v
    | 0x0638 => s.modPkg p (fun q => q.archConfig v)
    | 0x0640 => s.archCommand p v
    | 0x0710 => s.modPkg p (fun q => q.thaw v)
    | 0x0800 => s.attCommand p v
    | 0x0C10 => s.modPkg p (fun q => q.savePool v)
    | 0x0E08 => s.modPkg p (fun q => q.sacctl v)
    | 0x0F00 => s.dbghalt p v
    | 0x1000 => s.diesvc p v
    | 0x1010 => s.modPkg p (fun q => q.planesvc v)
    | 0x1100 => s.fwCommand p v
    | _ => s

/-- A request of a requester to write the register at an offset. -/
def State.request (s : State) (p m off : Nat) (v : DWord) : State :=
  if off = 0x0708 ∧ m ≠ debugPort then s.mstctl p m v
  else match (s.pkg p).right m off with
    | .acts => s.regWrite p off v
    | .refused => s
    | .freezes => s.freeze p m off
/-- R350, R352, R357, R396, R421: the answer that a request gets, from the state before it and the state after. -/
def Package.replyTo (q r : Package) (m off : Nat) : Reply :=
  if q.right m off = .refused then .refused else if m ≠ debugPort ∧ r.frozen m = true then .froze else .taken
/-- R351: the block can take a request of a requester now: in one reference tick, masters come in ascending number. -/
def Package.takes (q : Package) (m : Nat) : Bool := q.reaches m && !(decide (q.reqAt.1 = q.count) && decide (m < q.reqAt.2))
/-- R351: the block has taken a request of a requester. -/
def State.took (s : State) (p m : Nat) : State :=
  if m = debugPort then s else s.modPkg p (fun q => { q with reqAt := (q.count, m) })
/-- Reference ticks of the lapses of R355. -/
def lapseTicks : Nat := 1000000000
/-- R355: an offer that stands lapses: its time has passed, or its target is frozen or absent. -/
def Package.offerOver (q : Package) : Bool :=
  let t := q.fld 0x0700 5 4
  decide (q.fld 0x0700 6 6 = 1) && (decide (q.offerAt + lapseTicks ≤ q.count) || q.frozen t || !q.present t)
/-- R355: an owner other than master 0 has stayed away for the whole time. -/
def Package.ownerGone (q : Package) : Bool :=
  let m := q.fld 0x0700 1 0
  !q.noOwner && decide (m ≠ 0) && !q.present m && q.absentSince.any (fun t => decide (t + lapseTicks ≤ q.count))
/-- R355, R359: an offer lapses. -/
def State.lapseOffer (s : State) (p : Nat) : State := (s.setFld p 0x0700 6 6 0).packageEvent p
/-- R355, R359: the package has no owner any more. -/
def State.loseOwner (s : State) (p : Nat) : State := (s.setFld p 0x0700 7 7 1).packageEvent p
/-- R355: what has come about before a request is taken. -/
def State.lapsed (s : State) (p : Nat) : State :=
  let s := if (s.pkg p).offerOver then s.lapseOffer p else s
  if (s.pkg p).ownerGone then s.loseOwner p else s
/-- R350, R396: the state after a request of a requester, from those before and after it, with the answer noted. -/
def State.answer (s t : State) (p m off : Nat) : State :=
  t.modPkg p (fun q => { q with replies := Sparse.put q.replies m ((s.pkg p).replyTo q m off) })
/-- R350, R351: the block takes a requester's write and answers it. -/
def State.served (s : State) (p m off : Nat) (v : DWord) : State := s.answer (((s.lapsed p).took p m).request p m off v) p m off
/-- An event that is such a request, when its requester reaches the space in its turn and the value is one of the event's. -/
def masterWrite (name : String) (p m off : Nat) (v : DWord) (fits : Bool) (s : State) : Out :=
  if (s.pkg p).takes m && fits then .next (s.served p m off v) else .fault (.notEnabled name)

/-! ### The events -/

/-- `REGISTER_WRITE` (R6, R351, R352, R419). -/
def execRegisterWrite (p m off : Nat) (v : DWord) (s : State) : Out :=
  masterWrite "REGISTER_WRITE" p m off v (decide (off < 0x10000) && decide (off % 8 = 0)) s
/-- `QPTR_WPTR_WRITE` (R282). -/
def execQptrWptrWrite (p m q : Nat) (w : Word) (s : State) : Out :=
  masterWrite "QPTR_WPTR_WRITE" p m (0x2010 + 32 * q) (w.setWidth 64) (decide (q < 64)) s
/-- `QCTL_WRITE` (R282, R287). -/
def execQctlWrite (p m q : Nat) (v : DWord) (s : State) : Out := masterWrite "QCTL_WRITE" p m (0x2008 + 32 * q) v (decide (q < 64)) s
/-- `EVTCNT_WRITE` (R285, R287). -/
def execEvtcntWrite (p m n : Nat) (v : DWord) (s : State) : Out := masterWrite "EVTCNT_WRITE" p m (0x4000 + 8 * n) v (decide (n < 4096)) s
/-- `TFREPLY_RETRY` (R338). -/
def execTfreplyRetry (p m : Nat) (id : Word) (s : State) : Out :=
  masterWrite "TFREPLY_RETRY" p m 0x0620 (id.setWidth 64 ||| 0x4000000000000000) true s
/-- `TFREPLY_UNRESOLVABLE` (R338). -/
def execTfreplyUnresolvable (p m : Nat) (id : Word) (s : State) : Out :=
  masterWrite "TFREPLY_UNRESOLVABLE" p m 0x0620 (id.setWidth 64 ||| 0x8000000000000000) true s
/-- `TLBCMD_TLBI` (R332, R334). -/
def execTlbcmdTlbi (p m : Nat) (v : DWord) (s : State) : Out := masterWrite "TLBCMD_TLBI" p m 0x0630 v (decide (bits v 62 61 = 1)) s
/-- `TLBCMD_TLBI_W` (R332, R334). -/
def execTlbcmdTlbiW (p m : Nat) (v : DWord) (s : State) : Out := masterWrite "TLBCMD_TLBI_W" p m 0x0630 v (decide (bits v 62 61 = 2)) s
/-- `TLBCMD_ASIDGEN` (R331, R334). -/
def execTlbcmdAsidgen (p m : Nat) (v : DWord) (s : State) : Out := masterWrite "TLBCMD_ASIDGEN" p m 0x0630 v (decide (bits v 62 61 = 3)) s
/-- `ARCHCMD_COMPRESS` (R340, R341). -/
def execArchcmdCompress (p m : Nat) (v : DWord) (s : State) : Out := masterWrite "ARCHCMD_COMPRESS" p m 0x0640 v (decide (bits v 63 62 = 1)) s
/-- `ARCHCMD_EXPAND` (R340, R341). -/
def execArchcmdExpand (p m : Nat) (v : DWord) (s : State) : Out := masterWrite "ARCHCMD_EXPAND" p m 0x0640 v (decide (bits v 63 62 = 2)) s
/-- `ARCHCMD_FREE` (R340, R341). -/
def execArchcmdFree (p m : Nat) (v : DWord) (s : State) : Out := masterWrite "ARCHCMD_FREE" p m 0x0640 v (decide (bits v 63 62 = 3)) s
/-- `ARCHCFG_WRITE` (R340). -/
def execArchcfgWrite (p m : Nat) (v : DWord) (s : State) : Out := masterWrite "ARCHCFG_WRITE" p m 0x0638 v true s
/-- `ATTCMD_QUOTE` (R365, R366). -/
def execAttcmdQuote (p m : Nat) (v : DWord) (s : State) : Out := masterWrite "ATTCMD_QUOTE" p m 0x0800 v (decide (bits v 63 61 = 1)) s
/-- `ATTCMD_IDENTITY_CERT` (R365, R367). -/
def execAttcmdIdentityCert (p m : Nat) (v : DWord) (s : State) : Out := masterWrite "ATTCMD_IDENTITY_CERT" p m 0x0800 v (decide (bits v 63 61 = 2)) s
/-- `FWUPD_LOAD` (R426, R427). -/
def execFwupdLoad (p m : Nat) (v : DWord) (s : State) : Out := masterWrite "FWUPD_LOAD" p m 0x1100 v (decide (bits v 63 62 = 1)) s
/-- `DIESVC_DRAIN` (R423, R424). -/
def execDiesvcDrain (p m die : Nat) (s : State) : Out :=
  masterWrite "DIESVC_DRAIN" p m 0x1000 (BitVec.ofNat 64 (2 ^ 62 + die)) (decide (die < 8)) s
/-- `DIESVC_RETURN` (R423, R424). -/
def execDiesvcReturn (p m die : Nat) (s : State) : Out :=
  masterWrite "DIESVC_RETURN" p m 0x1000 (BitVec.ofNat 64 (2 ^ 63 + die)) (decide (die < 8)) s
/-- `PLANESVC_WRITE` (R425). -/
def execPlanesvcWrite (p m : Nat) (v : DWord) (s : State) : Out := masterWrite "PLANESVC_WRITE" p m 0x1010 v true s
/-- `PLANEMAP_WRITE` (R260). -/
def execPlanemapWrite (p m : Nat) (v : DWord) (s : State) : Out := masterWrite "PLANEMAP_WRITE" p m 0x0500 v true s
/-- `CORESTOP_WRITE` (R377). -/
def execCorestopWrite (p m die wd : Nat) (v : DWord) (s : State) : Out :=
  masterWrite "CORESTOP_WRITE" p m (0x0D00 + 32 * die + 8 * wd) v (decide (die < 8) && decide (wd < 4)) s
/-- `DBGHALT_HALT` (R397). -/
def execDbghaltHalt (p m : Nat) (v : DWord) (s : State) : Out := masterWrite "DBGHALT_HALT" p m 0x0F00 v (decide (bits v 63 61 = 1)) s
/-- `DBGHALT_RESUME` (R397). -/
def execDbghaltResume (p m : Nat) (v : DWord) (s : State) : Out := masterWrite "DBGHALT_RESUME" p m 0x0F00 v (decide (bits v 63 61 = 2)) s
/-- `CPBRKC_RELEASE` (R404). -/
def execCpbrkcRelease (p m b : Nat) (v : DWord) (s : State) : Out :=
  masterWrite "CPBRKC_RELEASE" p m (0x0F88 + 16 * b) v (decide (b < 4) && v.getLsbD 59) s
/-- `SACCTL_SNAP` (R411). -/
def execSacctlSnap (p m : Nat) (v : DWord) (s : State) : Out := masterWrite "SACCTL_SNAP" p m 0x0E08 v (v.getLsbD 62) s
/-- `SACCTL_CLR` (R411). -/
def execSacctlClr (p m : Nat) (v : DWord) (s : State) : Out := masterWrite "SACCTL_CLR" p m 0x0E08 v (v.getLsbD 61) s
/-- `MSTFRZ_THAW` (R358). -/
def execMstfrzThaw (p m : Nat) (v : DWord) (s : State) : Out := masterWrite "MSTFRZ_THAW" p m 0x0710 v true s
/-- `MSTCTL` CLAIM (R354). -/
def execMstctlClaim (p m : Nat) (s : State) : Out := masterWrite "MSTCTL_CLAIM" p m 0x0708 0x2000000000000000 (decide (m < 4)) s
/-- `MSTCTL` OFFER (R354). -/
def execMstctlOffer (p m t : Nat) (s : State) : Out :=
  masterWrite "MSTCTL_OFFER" p m 0x0708 (BitVec.ofNat 64 (2 * 2 ^ 61 + t)) (decide (m < 4) && decide (t < 4)) s
/-- `MSTCTL` WITHDRAW (R354). -/
def execMstctlWithdraw (p m : Nat) (s : State) : Out := masterWrite "MSTCTL_WITHDRAW" p m 0x0708 0x6000000000000000 (decide (m < 4)) s
/-- `MSTCTL` ACCEPT (R354). -/
def execMstctlAccept (p m : Nat) (s : State) : Out := masterWrite "MSTCTL_ACCEPT" p m 0x0708 0x8000000000000000 (decide (m < 4)) s
/-- `MSTCTL` RELEASE (R354). -/
def execMstctlRelease (p m : Nat) (s : State) : Out := masterWrite "MSTCTL_RELEASE" p m 0x0708 0xA000000000000000 (decide (m < 4)) s

/-- `OFFER_LAPSE` (R355, R359). -/
def execOfferLapse (p : Nat) (s : State) : Out :=
  if (s.pkg p).offerOver then .next (s.lapseOffer p) else .fault (.notEnabled "OFFER_LAPSE")
/-- `OWNERSHIP_LOSS` (R355, R359). -/
def execOwnershipLoss (p : Nat) (s : State) : Out :=
  if (s.pkg p).ownerGone then .next (s.loseOwner p) else .fault (.notEnabled "OWNERSHIP_LOSS")
/-- `MASTER_PRESENCE_CHANGE` (R353, R355): master 0 is always present, and master 3 only on an endpoint. -/
def execMasterPresenceChange (p m : Nat) (up : Bool) (s : State) : Out :=
  let q := s.pkg p
  if m = 0 ∨ 4 ≤ m ∨ q.present m = up ∨ (m = 3 ∧ up = true ∧ q.fld 0x0008 33 33 = 0) then .fault (.notEnabled "MASTER_PRESENCE_CHANGE")
  else
    .next ((s.lapsed p).modPkg p (fun q => { q.setFld 0x0700 (12 + m) (12 + m) (if up then 1 else 0) with
      absentSince := if q.owns m then (if up then none else some q.count) else q.absentSince }))
/-- Reference ticks between heartbeats (R430). -/
def heartbeatTicks : Nat := 1000000
/-- `PACKAGE_HEARTBEAT` (R421, R430): a package that has stopped in its boot runs nothing and sends none. -/
def execPackageHeartbeat (p : Nat) (s : State) : Out :=
  let q := s.pkg p
  if q.heartbeatAt + heartbeatTicks ≤ q.count ∧ q.fld 0x0018 15 8 = 0 then
    .next (s.modPkg p (fun q => { q with heartbeats := q.heartbeats + 1, heartbeatAt := q.heartbeatAt + heartbeatTicks }))
  else .fault (.notEnabled "PACKAGE_HEARTBEAT")
/-- `GOVERNOR_ADJUST` (R17, R422): the draw is at most 2,600 W, and the governor restricts while it is above the cap; the
clock is lowered only when admission is at its least. -/
def execGovernorAdjust (p mat vec freq draw : Nat) (limit : Bool) (s : State) : Out :=
  let short := decide (mat < 512) || decide (vec < 4096) || decide (freq < 0x78)
  if mat ≤ 512 ∧ vec ≤ 4096 ∧ 1 ≤ freq ∧ freq ≤ 0x78 ∧ draw ≤ 2600 ∧ (limit ∨ draw ≤ (s.pkg p).fld 0x0020 11 0) ∧ limit = short ∧ (freq = 0x78 ∨ (mat ≤ 1 ∧ vec ≤ 64)) then
    .next (s.modPkg p (fun q => q.setReg 0x0028
      (BitVec.ofNat 64 ((if limit then 2 ^ 63 else 0) + freq * 2 ^ 40 + mat * 2 ^ 30 + vec * 2 ^ 16 + draw))))
  else .fault (.notEnabled "GOVERNOR_ADJUST")

/-! ### Reads (R6, R7, R419) -/

/-- The group or sequencer belongs to a halted scope: it is halted, or will be at its `TRET` or after its move (R398, R414). -/
def Ctx.inHalt (c : Ctx) : Bool := (c.halted || c.haltPend) && !c.retired && decide (c.kind ≠ .handler)
/-- The groups and sequencers of a package that are halted (R398). -/
def State.haltedCtxs (s : State) (p : Nat) : List (Nat × Ctx) := s.ctxs.filter (fun e => decide (e.2.pkg = p) && e.2.inHalt)
/-- R398: BUSY: of the grids of the package that have a halted scope, one has a group or sequencer there that is not yet reported
stopped. -/
def State.haltBusy (s : State) (p : Nat) : Bool :=
  let gs := (s.haltedCtxs p).map (fun e => e.2.grid)
  s.ctxs.any (fun e => e.2.inHalt && gs.contains e.2.grid && (!e.2.reported || e.2.stopsLater))
/-- The value that a read of the register at an offset gives. -/
def State.regRead (s : State) (p off : Nat) : DWord :=
  let q := s.pkg p
  let core := q.fld 0x0E00 10 0
  if 0x0400 ≤ off ∧ off < 0x0440 then
    putBits (q.reg off) 16 0 ((q.slots.filter (fun x => decide (x.site = (off - 0x0400) / 8))).length + q.pinned ((off - 0x0400) / 8) none)
  else if 0x0E40 ≤ off ∧ off < 0x0EA8 then Sparse.get 0 q.snap (core * 16 + (off - 0x0E40) / 8)
  else match off with
    | 0x0010 => BitVec.ofNat 64 q.count
    | 0x0C18 => BitVec.ofNat 64 q.poolFree
    | 0x0E10 =>
      match (s.resident p (siteOfLoc core)).find? (fun e => decide (e.2.resIdx = q.fld 0x0E00 15 11)) with
      | some e => BitVec.ofNat 64 e.2.misses
      | none => 0
    | 0x0F08 =>
      BitVec.ofNat 64 ((if s.haltBusy p then 2 ^ 63 else 0) + (s.haltedCtxs p).length * 2 + q.fld 0x0F08 0 0)
    | 0x1008 => putBits (q.reg off) 31 0 (if q.fld 0x1008 63 63 = 1 then s.leftOn p (q.fld 0x1008 58 56) else 0)
    | _ => q.reg off
/-- R352, R357, R396, R421: a requester may read the registers: the debug port while DBGLOCK is 0, a master while it is not
frozen, and after a boot error the management port and the debug port alone. -/
def Package.readable (q : Package) (m : Nat) : Bool :=
  (if m = debugPort then decide (q.fld 0x0F08 0 0 = 0) else !q.frozen m)
    && (decide (q.fld 0x0018 15 8 = 0) || decide (m = 1) || decide (m = debugPort))
/-- R350, R351, R355, R396: the block takes a requester's read, and answers it with the register's value or the requester's
refusal. -/
def State.readBy (s : State) (p m off : Nat) : State :=
  let t := (s.lapsed p).took p m
  if (t.pkg p).readable m then
    t.modPkg p (fun q => { q with replies := Sparse.put q.replies m .taken, answers := Sparse.put q.answers m (t.regRead p off) })
  else t.modPkg p (fun q => { q with replies := Sparse.put q.replies m .refused })
/-- A read of the register at an offset by a requester that reaches the space in its turn. -/
def State.masterRead (s : State) (p m off : Nat) : State :=
  if (s.pkg p).takes m = true ∧ off < 0x10000 ∧ off % 8 = 0 then s.readBy p m off else s

end Sys2Proof.Machine
end

