-- ==== Sys2Proof/Machine/Boot.lean ====
section
/-! DEFINITION. Package reset and the boot stages (R18, R23 to R25, R261, R362, R363, R420, R421, R427). -/

namespace Sys2Proof.Machine

/-- A boot under way: the package as it stands, or stopped by an error at its last completed stage. -/
structure Boot where
  pkg : Package
  stage : Nat := 0
  err : Nat := 0
  detail : Nat := 0
  deriving Repr
/-- A stage of the boot, which nothing runs after an error. -/
def Boot.stageOf (b : Boot) (n : Nat) (f : Boot → Boot) : Boot :=
  if b.err ≠ 0 then b
  else
    let c := f b
    if c.err ≠ 0 then c else { c with stage := n }
/-- R421: an image is checked and then measured. -/
def Boot.load (b : Boot) (i : BootInputs) (target meas : Nat) (img : List Byte) : Boot :=
  match fwCheck img target i.keyDigest i.minVersion with
  | .mismatch => { b with err := 1 }
  | .old => { b with err := 2 }
  | .good => { b with pkg := b.pkg.extend meas (sha512 img) }
/-- R363: MEAS5 takes the words of DEVID and PKGCFG. -/
def Package.measureId (p : Package) : Package :=
  p.extend 5 (sha512 (bytesOfNat 8 (p.reg 0x0000).toNat ++ bytesOfNat 8 (p.reg 0x0008).toNat))
/-- The image that an input gives a stage. -/
def bootImage (i : BootInputs) (n : Nat) : List Byte := i.images.getD n []
/-- The stages of R421 for a package that has just been reset. -/
def bootStages (i : BootInputs) (p : Package) : Boot :=
  let mast := if p.stagedFw.isEmpty then bootImage i 1 else p.stagedFw
  let b0 : Boot := { pkg := p }
  let b1 := b0.stageOf 1 (fun b =>
    let c := b.load i 0 0 (bootImage i 0)
    { c with pkg := if c.err = 0 then c.pkg.measureId else c.pkg })
  let b2 := b1.stageOf 2 (fun b => b.load i 1 1 mast)
  let b3 := b2.stageOf 3 (fun b =>
    match i.hbmFail with
    | n :: _ => { b with err := 4, detail := n % 16 }
    | [] => if i.dcCarve = 3 then { b with err := 3 } else b)
  let b4 := b3.stageOf 4 (fun b =>
    let c := b.load i 2 2 (bootImage i 2)
    match i.dieFail with
    | n :: _ => if c.err = 0 then { c with err := 5, detail := n % 8 } else c
    | [] => c)
  let b5 := b4.stageOf 5 (fun b => b.load i 3 3 (bootImage i 3))
  b5.stageOf 6 (fun b => b.load i 4 4 (bootImage i 4))
/-- R421: ports found dead at stage 5, and the planes that all their ports leave dead. -/
def State.bootPorts (s : State) (p : Nat) (l : List Nat) : State :=
  let dead := l.foldl (fun m i => if i < 24 then m ||| (1#24 <<< i) else m) 0#24
  let s := s.modPkg p (fun q => { q with portsDown := dead }.countPorts)
  (List.range 8).foldl (fun s x => if dead.extractLsb' (3 * x) 3 = 7 then s.planeDies p x else s) s
/-- What a package reset leaves of the pod: nothing of the package runs any more, and no unit of a grid that it
launched. -/
def State.clearPackage (s : State) (p : Nat) : State :=
  let gone := fun (x : WUnit) => decide (x.pkg = p) || decide ((s.grid x.grid).pkg = p)
  let us := (s.units.filter (fun e => gone e.2)).map (·.1)
  { s with
    units := s.units.filter (fun e => !gone e.2)
    ctxs := s.ctxs.filter (fun e => !decide (e.2.pkg = p) && (decide (e.2.kind = CtxKind.handler) || !us.contains e.2.unit))
    grids := s.grids.filter (fun e => !decide (e.2.pkg = p)) }
/-- `PACKAGE_RESET` (R18, R420, R421). -/
def execPackageReset (p : Nat) (i : BootInputs) (s : State) : Out :=
  if 1024 ≤ p then .fault (.notEnabled "PACKAGE_RESET")
  else
    let fresh : Package := { boot := some i, stagedFw := (s.pkg p).stagedFw }
    let b := bootStages i fresh
    let s := (s.clearPackage p).modPkg p (fun _ => b.pkg)
    let s := if 5 ≤ b.stage then s.bootPorts p i.deadPorts else s
    .next (s.modPkg p (fun q => q.setReg 0x0018 (BitVec.ofNat 64 (b.err * 2 ^ 8 + b.detail * 2 ^ 4 + b.stage))))

end Sys2Proof.Machine
end

