-- ==== Sys2Proof/Machine/Queue.lean ====
section
/-! DEFINITION. Command queues: reading packets and launch records, dependences, validation, and the dispatch of
launches, signals and waits (R43, R44, R282 to R287, R324, R357, R364, R403, R404). -/

namespace Sys2Proof.Machine

/-! ### Packets (R282, R284, R285) -/

/-- Word i of 64 bytes. -/
def word64 (bs : List Byte) (i : Nat) : DWord := BitVec.ofNat 64 (natOfBytes ((bs.drop (8 * i)).take 8))
/-- The dependences that a packet names: event and value. -/
def packetDeps (bs : List Byte) : List (Nat × Nat) :=
  (List.range (bits (word64 bs 0) 55 52)).map (fun i =>
    let x := natOfBytes ((bs.drop (32 + 4 * i)).take 4)
    (x / 2 ^ 20, x % 2 ^ 20))
/-- R284: the error code of a packet, 0 when it has none. -/
def packetError (bs : List Byte) : Nat :=
  let w := word64 bs
  let n := bits (w 0) 55 52
  let rest := decide (w 1 = 0) && decide (w 2 = 0) && decide (w 3 = 0)
  let tail := allZero (bs.drop (32 + 4 * n))
  match bits (w 0) 63 56 with
  | 1 =>
    if 8 < n ∨ ¬ tail ∨ bits (w 0) 51 45 ≠ 0 ∨ bits (w 1) 63 57 ≠ 0 ∨ bits (w 1) 5 0 ≠ 0 ∨ bits (w 2) 63 57 ≠ 0
      ∨ bits (w 2) 3 0 ≠ 0 ∨ w 3 ≠ 0 then 2 else 0
  | 2 => if 8 < n ∨ ¬ tail ∨ bits (w 0) 51 44 ≠ 0 ∨ bits (w 0) 31 20 ≠ 0 ∨ ¬ rest then 2 else 0
  | 3 => if 8 < n ∨ ¬ tail ∨ bits (w 0) 51 0 ≠ 0 ∨ ¬ rest then 2 else 0
  | _ => 1
/-- R285: a dependence is met. -/
def Package.met (p : Package) (d : Nat × Nat) : Bool :=
  decide ((bits (p.reg (0x4000 + 8 * d.1)) 19 0 + 2 ^ 20 - d.2) % 2 ^ 20 < 2 ^ 19)
/-- R282: the queue has packets and may dispatch: enabled, not stopped, not held and not waiting for a read (R287, R357,
R404). -/
def Package.queueOpen (p : Package) (q : Nat) : Bool :=
  let ctl := p.reg (0x2008 + 32 * q)
  let ptr := p.reg (0x2010 + 32 * q)
  ctl.getLsbD 63 && !ctl.getLsbD 31 && decide (bits ptr 63 32 ≠ bits ptr 31 0) && (Sparse.find p.qwait q).isNone
    && (match Sparse.find p.held q with | some h => decide (h.mask = 0) | none => true)
    && (List.range 4).all (fun m => !(p.frozen m && (p.reg (0x0720 + 8 * m)).getLsbD q))
/-- The virtual address of the head packet (R282). -/
def Package.headAddr (p : Package) (q : Nat) : Nat :=
  p.fld (0x2000 + 32 * q) 56 12 * 4096 + 64 * (p.fld (0x2010 + 32 * q) 63 32 % 2 ^ (p.fld (0x2008 + 32 * q) 60 57 + 4))
/-- The command processor under a queue's ASID. -/
def State.queueParty (s : State) (p q : Nat) : Party := cmdParty p ((s.pkg p).fld (0x2008 + 32 * q) 55 40)
/-- The head packet of a queue, if it can be read now. -/
def State.head (s : State) (p q : Nat) : Option (List Byte) :=
  match s.xlate (s.queueParty p q) ((s.pkg p).headAddr q) .read with
  | .ok l _ => some (s.homeRead l 64).2
  | _ => none
/-- R283, R404: the head packet can dispatch; one that was held needs nothing more than its queue open. -/
def State.canDispatch (s : State) (p q : Nat) : Bool :=
  (s.pkg p).queueOpen q && ((Sparse.find (s.pkg p).held q).isSome || (match s.head p q with
    | some bs => decide (packetError bs = 0) && (packetDeps bs).all (s.pkg p).met
    | none => false))
/-- PRIO of a queue. -/
def Package.queuePrio (p : Package) (q : Nat) : Nat := p.fld (0x2008 + 32 * q) 62 61
/-- R283: the queue that dispatches next. -/
def State.nextQueue (s : State) (p : Nat) : Option Nat :=
  let l := (List.range 64).filter (fun q => s.canDispatch p q)
  let top := l.foldl (fun n q => max n ((s.pkg p).queuePrio q)) 0
  let turn := Sparse.get 0 (s.pkg p).turns top
  leastOf (fun q => (q + 64 - turn) % 64) (l.filter (fun q => decide ((s.pkg p).queuePrio q = top)))
/-- R282, R283: a packet has been dispatched. -/
def Package.dispatched (p : Package) (q : Nat) : Package :=
  let off := 0x2010 + 32 * q
  { p.setFld off 63 32 (p.fld off 63 32 + 1) with
    turns := Sparse.set 0 p.turns (p.queuePrio q) ((q + 1) % 64), held := Sparse.del p.held q, qcause := Sparse.del p.qcause q }
/-- The dispatch of a head packet of a TYPE: its read, which may park or stop the queue (R287), the errors of R284, and
the choice of R283.  A packet that was held has been read (R404). -/
def dispatch (name : String) (type p q : Nat) (s : State) (go : State → List Byte → State) : Out :=
  if ¬ (s.pkg p).queueOpen q ∨ 64 ≤ q then .fault (.notEnabled name)
  else match Sparse.find (s.pkg p).held q with
  | some h => if type = 1 ∧ s.nextQueue p = some q then .next (go s h.packet) else .fault (.notEnabled name)
  | none =>
    let y := s.queueParty p q
    let a := (s.pkg p).headAddr q
    match s.translate y a .read with
    | (s1, .ok l _) =>
      let r := s1.homeRead l 64
      let e := packetError r.2
      if e ≠ 0 then .next (r.1.stopQueue p q e)
      else if bits (word64 r.2 0) 63 56 = type ∧ s.nextQueue p = some q then .next (go r.1 r.2)
      else .fault (.notEnabled name)
    | (s1, .park kind pte) =>
      let t := s1.parkOn y a kind pte .read
      .next (t.1.modPkg p (fun x => { x with qwait := Sparse.put x.qwait q (2 * t.2) }))
    | (s1, _) => .next (s1.stopQueue p q 4)

/-- `SIGNAL_PACKET_DISPATCH` (R284). -/
def execSignalPacketDispatch (p q : Nat) (s : State) : Out :=
  dispatch "SIGNAL_PACKET_DISPATCH" 2 p q s (fun s bs =>
    s.modPkg p (fun x => (x.addEvent (bits (word64 bs 0) 43 32) (bits (word64 bs 0) 19 0)).dispatched q))
/-- `WAIT_PACKET_DISPATCH` (R284). -/
def execWaitPacketDispatch (p q : Nat) (s : State) : Out :=
  dispatch "WAIT_PACKET_DISPATCH" 3 p q s (fun s _ => s.modPkg p (fun x => x.dispatched q))

/-! ### Launch records (R43, R44) -/

/-- The grid that a launch record describes. -/
def gridOfRecord (bs : List Byte) : Grid :=
  let w := word64 bs
  let b := fun (i n : Nat) => (w i).getLsbD n
  { rootLvl := bits (w 0) 47 45, rootCnt := bits (w 0) 15 0 + 1, splitOk := b 0 44, pinA := b 0 43, shadow := b 0 42
    ndfp := b 0 41, rr := b 0 40, seqL1 := b 0 39, asid := bits (w 0) 31 16, entry := w 1
    w1 := bits (w 2) 4 0, w2 := bits (w 2) 9 5, w3 := bits (w 2) 14 10, w4 := bits (w 2) 19 15, w5 := bits (w 2) 24 20
    vregs := 8 * bits (w 3) 7 0, gregs := 16 * bits (w 3) 11 8, tiles := 2 * bits (w 3) 15 12, accs := 2 * bits (w 3) 19 16
    sregs := 8 * bits (w 3) 23 20, stash := 64 * 2 ^ bits (w 3) 26 24
    cstore := bits (w 4) 39 32, dstore := bits (w 4) 31 16, clmem := bits (w 4) 15 0
    fmtslots := w 5, hangwd := bits (w 6) 63 32, yielddl := bits (w 6) 31 0, argp := w 7 }
/-- R43, R44, R116: fixed fields, Rsvd fields and ranges of a record. -/
def recordBad (bs : List Byte) : Bool :=
  let w := word64 bs
  let g := gridOfRecord bs
  let above := fun (x n : Nat) => decide (n < x)
  decide (bits (w 0) 63 56 ≠ 1) || decide (bits (w 0) 55 48 ≠ 8) || decide (bits (w 0) 38 32 ≠ 0) || decide (bits (w 1) 63 57 ≠ 0)
    || decide (bits (w 1) 1 0 ≠ 0) || decide (bits (w 2) 63 25 ≠ 0) || decide (bits (w 3) 63 27 ≠ 0) || decide (bits (w 4) 63 40 ≠ 0)
    || decide (bits (w 7) 63 57 ≠ 0) || decide (g.rootLvl = 0) || above g.rootLvl 5
    || above g.w5 10 || above g.w4 16 || above g.w3 16 || above g.w2 16 || above g.w1 5
    || above (bits (w 3) 26 24) 5 || above g.sregs 64 || above g.accs 8 || above g.tiles 16
    || decide (g.gregs = 0) || above g.gregs 64 || decide (g.vregs = 0) || above g.vregs 64
    || above g.cstore 128 || above g.clmem 64 || decide (g.yielddl = 0)
    || (List.range 8).any (fun n => !(slotOf g.fmtslots n).legal)
/-- R33: the width limits of a launch. -/
def Grid.widthsBad (g : Grid) : Bool :=
  (List.range 6).any (fun k => decide (g.rootLvl < k) && decide (g.width k ≠ 0))
    || decide (64 < ((List.range 6).filter (fun k => decide (k ≤ g.rootLvl))).foldl (fun n k => n + g.width k) 0)
/-- R44: the groups of a team fit an empty core and an empty engine. -/
def Grid.tooBig (g : Grid) : Bool :=
  decide (256 < g.groups * (g.vregs / 8)) || decide (256 < g.groups * g.tiles) || decide (2 ^ 19 < g.groups * 32 * g.stash)
    || decide (512 < g.groups * g.accs)
/-- R44, R324: a launch record fails validation. -/
def State.recordFails (s : State) (p : Nat) (bs : List Byte) : Bool :=
  let g := gridOfRecord bs
  recordBad bs || g.widthsBad || g.tooBig || (decide (4 ≤ g.rootLvl) && decide (g.rootCnt ≠ 1))
    || (decide (g.rootLvl = 5) && decide (((List.range 1024).filter (fun q => s.podMember p q)).length < 2 ^ g.w5))
    || decide (256 < g.dstore + (s.pkg p).carveMiB) || !asidEntryOk (s.asidEntry p g.asid)
/-- R403, R404: the command-packet breakpoints that a launch matches, and whether one of them starts it halted. -/
def Package.cpMatch (p : Package) (q : Nat) (entry : DWord) : BitVec 4 × Bool :=
  (List.range 4).foldl (fun (r : BitVec 4 × Bool) c =>
    let k := p.reg (0x0F88 + 16 * c)
    let e := bits (p.reg (0x0F80 + 16 * c)) 56 2
    if k.getLsbD 63 && (k.getLsbD 62 || k.getLsbD 61) && (!k.getLsbD 62 || decide (e = bits entry 56 2))
        && (!k.getLsbD 61 || decide (bits k 53 48 = q)) then (r.1 ||| (1#4 <<< c), r.2 || k.getLsbD 60) else r) (0, false)
/-- R404: a packet is held. -/
def State.holdPacket (s : State) (p q : Nat) (m : BitVec 4) (halt : Bool) (bs rec : List Byte) : State :=
  (s.modPkg p (fun x =>
    let x := (List.range 4).foldl (fun x c => if m.getLsbD c then x.setFld (0x0F88 + 16 * c) 59 59 1 else x) x
    { x with held := Sparse.put x.held q { mask := m, halt := halt, packet := bs, record := rec } })).packageEvent p
/-- R364: a launch record is measured. -/
def Package.measure (p : Package) (asid : Nat) (bs : List Byte) : Package :=
  if p.fld 0x0810 16 16 = 1 ∧ p.fld 0x0810 15 0 = asid then (p.extend 6 (sha512 bs)).setReg 0x0818 (p.reg 0x0818 + 1) else p
/-- A new grid, and its root units. -/
def State.newGrid (s : State) (p : Nat) (g : Grid) : State :=
  let k := max s.fresh (Sparse.next s.grids)
  let s := { s with grids := Sparse.put s.grids k g, fresh := k + 1 }
  if g.failed then s else (List.range g.rootCnt).foldl (fun s i => s.newUnit g.rootLvl k 0 i 0 p) s
/-- The fields of a grid that its packet and its queue give. -/
def Grid.ofPacket (g : Grid) (x : Package) (p q : Nat) (bs : List Byte) : Grid :=
  let w := word64 bs
  { g with pkg := p, queue := q, prio := x.queuePrio q, tag := (w 0).setWidth 32
           cev := if (w 0).getLsbD 44 then some (bits (w 0) 43 32) else none
           record := bits (w 2) 56 0, qasid := x.fld (0x2008 + 32 * q) 55 40 }
/-- R286, R287: a launch that places nothing and completes with a status. -/
def State.failLaunch (s : State) (p q : Nat) (bs : List Byte) (status : Nat) : State :=
  let g : Grid := { failed := true, status := status }
  (s.newGrid p (g.ofPacket (s.pkg p) p q bs)).modPkg p (fun x => x.dispatched q)
/-- R324: the command processor reads the staging fields of an ASID that runs nothing in its package; those of one that runs
stay in force. -/
def State.launchStaging (s : State) (p asid : Nat) : State :=
  if s.grids.any (fun e => decide (e.2.pkg = p) && decide (e.2.asid = asid) && !e.2.failed) then s.latchStaging p asid
  else (s.modPkg p (fun q => { q with staging := Sparse.del q.staging asid })).latchStaging p asid
/-- R283: a validated launch. -/
def State.startLaunch (s : State) (p q : Nat) (bs rec : List Byte) (halt : Bool) : State :=
  let g : Grid := { gridOfRecord rec with startHalted := halt }
  let s := (s.launchStaging p g.asid).modPkg p (fun x => x.measure g.asid rec)
  (s.newGrid p (g.ofPacket (s.pkg p) p q bs)).modPkg p (fun x => x.dispatched q)
/-- The launch packet at a queue's head is taken (R283, R287, R404). -/
def State.takeLaunch (s : State) (p q : Nat) (bs : List Byte) : State :=
  match Sparse.find (s.pkg p).qcause q, Sparse.find (s.pkg p).held q with
  | some k, _ => s.failLaunch p q bs k
  | none, some h => s.startLaunch p q bs h.record h.halt
  | none, none =>
    let y := s.queueParty p q
    let a := bits (word64 bs 1) 56 0
    match s.translate y a .read with
    | (s, .ok l _) =>
      let r := s.homeRead l 64
      let s := r.1
      if s.recordFails p r.2 then s.failLaunch p q bs 0x0104
      else
        let m := (s.pkg p).cpMatch q (word64 r.2 1)
        if m.1 ≠ 0 then s.holdPacket p q m.1 m.2 bs r.2 else s.startLaunch p q bs r.2 false
    | (s, .park kind pte) =>
      let t := s.parkOn y a kind pte .read
      t.1.modPkg p (fun x => { x with qwait := Sparse.put x.qwait q (2 * t.2 + 1) })
    | (s, _) => s.failLaunch p q bs 8
/-- `LAUNCH_PACKET_DISPATCH` (R43, R44, R283, R287, R364, R404). -/
def execLaunchPacketDispatch (p q : Nat) (s : State) : Out :=
  dispatch "LAUNCH_PACKET_DISPATCH" 1 p q s (fun s bs => s.takeLaunch p q bs)

end Sys2Proof.Machine
end

