-- ==== Sys2Proof/Machine/Sched.lean ====
section
/-! DEFINITION. Instruction fetch, eligibility, cohorts, the group scheduler, the slot account, breakpoints, and what
time brings to a core (R28 to R30, R92, R94, R149, R207, R240, R297 to R301, R308, R310, R328, R335, R375 to R377,
R400 to R411). -/

namespace Sys2Proof.Machine

/-! ### Instruction fetch (R149, R328, R335) -/

/-- The place of an instruction word for a context, or what its fetch gives instead. -/
def State.fetchAt (s : State) (c : Ctx) (pc : DWord) : XRes :=
  if pc.toNat % 4 ≠ 0 ∨ 2 ^ 57 ≤ pc.toNat then .fetchFault else s.xlate (s.partyOf c false) pc.toNat .fetch
/-- The instruction word at a PC, if it can be fetched now. -/
def State.fetchWord (s : State) (c : Ctx) (pc : DWord) : Option Nat :=
  match s.fetchAt c pc with
  | .ok l _ => some (natOfBytes (s.homeRead l 4).2)
  | _ => none
/-- The instruction at a PC, if it can be fetched now. -/
def State.instrAt (s : State) (c : Ctx) (pc : DWord) : Option Instr := (s.fetchWord c pc).map decodeWord
/-- What a fetch that is granted leaves behind: filled translation caches (R329) and no open slot on the word (R183). -/
def State.afterFetch (s : State) (c : Ctx) (pc : DWord) : State :=
  match s.translate (s.partyOf c false) pc.toNat .fetch with
  | (s, .ok l _) => (s.homeRead l 4).1
  | (s, _) => s

/-! ### The scoreboard and eligibility (R28, R207) -/

/-- The majors that an earlier acquire of the lane holds back until it is performed (R227, R228). -/
def ordersMemory (i : Instr) : Bool :=
  let m := (wordOf i).toNat / 2 ^ 26
  decide (m = 26) || (decide (32 ≤ m) && decide (m ≤ 42)) || decide (m = 45) || (decide (47 ≤ m) && decide (m ≤ 54))
/-- The instruction is of the majors whose instructions act on memory at their issue, or start asynchronous operations. -/
def actsAtIssue (i : Instr) : Bool := ordersMemory i && decide (40 ≤ (wordOf i).toNat / 2 ^ 26)
/-- An entry holds back lane l's instruction: it is a `CAS` or `LAYDEF` of the lane that is not yet performed, whose result
may be the guard; or, where the guard is true (R60), it holds a register that the instruction names (R207), or it is an
acquire of the lane that is not yet performed, or a read that an acquire by fence has passed (R229). -/
def RqEntry.blocks (e : RqEntry) (fs : DWord) (i : Instr) (l : Nat) (on : Bool) : Bool :=
  let owes := fun (f : Cap → Bool) => e.caps.any (fun x => decide (x.1 % 32 = l) && !x.2.done && f x.2)
  (match e.ins with
    | .cas .. => owes (fun _ => true)
    | .laydef .. => (lanesOf (e.args.headD 0)).contains l
    | _ => false)
    || (on && ((regsOf fs i).any (fun r => e.holds.contains r) || (isAcquire e.ins && ordersMemory i && owes (fun _ => true))
        || (actsAtIssue i && owes (fun x => x.acq.isSome))))
/-- R69, R158, R167: the registers that lane l's instruction takes through a register of its own: a descriptor, a run's first
register, a tag. -/
def Ctx.namedRegs (c : Ctx) (fs : DWord) (i : Instr) (l : Nat) : List RegName :=
  let fill := fun (d b : Nat) (off : Int) =>
    c.fillRegs (slotOf fs (wbits (c.rdG d) 28 26)) (c.rdG b) (wideImm 6 off (c.lane l).hints) (wbits (c.rdG d) 31 29 + 1)
  match i with
  | .ldsc _ d _ f => match (slotOf fs f).run with | some sh => ldscRegs (c.rdG d) sh | none => []
  | .sfillA _ d b off | .sfillB _ d b off => fill d b off
  | .cvt _ d _ f _ | .cvtef _ d _ f _ => c.boundRegs (slotOf fs f) d
  | .dqntv _ _ a f _ => c.boundRegs (slotOf fs f) a
  | .sbindT _ _ a f => match (slotOf fs f).run with | some sh => (runRegs a sh.log).map .s | none => []
  | .smov _ d a n | .sadd _ d a n _ | .smax _ d a n _ => (runRegs d n ++ runRegs a n).map .s
  | .smul _ d _ n _ => (runRegs d n).map .s
  | _ => []
/-- An entry holds back lane l's instruction by its place in the order of the context's accesses: by `blocks`, by a register
that the instruction takes through another (R69, R167), or by the accumulator that the instruction writes (R164). -/
def RqEntry.blocksIn (e : RqEntry) (c : Ctx) (fs : DWord) (i : Instr) (l : Nat) : Bool :=
  let on := c.guard (guardOf i) l
  e.blocks fs i l on || (on && ((c.namedRegs fs i l).any (fun r => e.holds.contains r)
    || (match accWritten i with | some a => decide (accOfIns e.ins = some a) | none => false)))
/-- The entries of a context that hold back lane l's instruction. -/
def State.blockers (s : State) (c : Ctx) (i : Instr) (l : Nat) : List RqEntry :=
  c.rq.filter (fun e => e.blocksIn c (s.fmtOf c) i l)
/-- A place in the core store of a team that is not placed (R203). -/
def LRes.far : LRes → Bool
  | .team _ => true
  | _ => false
/-- R203, R410: lane l's instruction names the core store of a team that is not placed. -/
def State.namesFar (s : State) (c : Ctx) (i : Instr) (l : Nat) : Bool :=
  let core := fun (a n : Nat) => (s.coreStore c a n).far
  let object := fun (ref : Nat) => (s.objectRef c (ref % 2 ^ 25)).far
  let off := fun (n : Nat) (x : Int) => wideImm 6 x (c.lane l).hints * n
  let fill := fun (d b : Nat) (x : Int) =>
    let sl := slotOf (s.fmtOf c) (wbits (c.rdG d) 28 26)
    let o := wideImm 6 x (c.lane l).hints
    let n := wbits (c.rdG d) 31 29 + 1
    (s.fillData c (c.rdG b) o n ++ s.fillRecords c (c.rdG b) (c.rdG (b + 1)) sl.recordBytes o n ++ s.fillObject c (c.rdG d)).any
      (fun r => r.2.far)
  match i with
  | .ldc _ _ b x sz | .stc _ _ b x sz => core (localAddr (c.rdV b l) (off (Size.bytes sz) x)) (Size.bytes sz)
  | .ldt _ _ .core b x | .stt _ _ .core b x => core (localAddr (c.rdG b) (off 1024 x)) 1024
  | .ldsc _ d b f =>
    decide (wbits (c.rdG d) 21 20 = 1) && (core (c.rdG b).toNat 1024
      || (match (slotOf (s.fmtOf c) f).run with | some sh => core (c.rdG (b + 2)).toNat (32 * 2 ^ sh.log) | none => false))
  | .ldx _ d _ x => core (c.rdV d l).toNat (match wbits (c.rdG x) 27 26 with | 0 => 4 | 1 => 8 | 2 => 16 | _ => 64) || object (c.rdG x).toNat
  | .sfillA _ d b x | .sfillB _ d b x => fill d b x
  | .mbinit _ a _ | .mbexpect _ a _ | .mbarrive _ a | .mbtest _ a _ | .mbwait _ _ a _ => (s.objectRef c (c.rdG a).toNat).far
  | .accrdC _ d _ f => core (c.rdG d).toNat (32 * (slotOf (s.fmtOf c) f).fmt.width)
  | .cmbput _ d _ b =>
    (s.fillPlace c (wbits (c.rdG b) 31 30) (wbits (c.rdG b) 22 0) (max 64 (s.cmbSlot (handleOf (c.rdG d))).width)).far
  | .mcopyDown _ lvl x _ _ => let d := copyDesc lvl false ((List.range 8).map (fun j => c.rdG (x + j))); d.counts && object d.ref.toNat
  | .mcopyUp _ lvl x _ _ => let d := copyDesc lvl true ((List.range 8).map (fun j => c.rdG (x + j))); d.counts && object d.ref.toNat
  | _ => false
/-- R317: lane l's instruction names a loaded register whose latency has not passed. -/
def State.tooSoon (s : State) (c : Ctx) (i : Instr) (l : Nat) : Bool :=
  let rs := regsOf (s.fmtOf c) i
  c.late.any (fun x => decide (x.2.1 = l) && decide (s.cycle < x.2.2) && rs.contains (.v x.1))
/-- R131: the uniform registers that an instruction writes at the end of a wait. -/
def Wait.writes : Wait → List RegName
  | .object _ _ d | .combine _ d | .batch _ d | .ticket _ _ d | .accesses _ (some (d, _)) => [.g d]
  | .event _ x => gRun x 4
  | _ => []
/-- R131: a lane of the context waits in an instruction whose result the instruction names. -/
def State.behindWait (s : State) (c : Ctx) (i : Instr) : Bool :=
  let rs := regsOf (s.fmtOf c) i
  c.liveLanes.any (fun l => (c.lane l).wait.writes.any (fun r => rs.contains r))
/-- The instruction accesses global memory (R201, R335). -/
def Ctx.usesLog (c : Ctx) (i : Instr) : Bool :=
  match i with
  | .ld .. | .ldAcq .. | .st .. | .stRel .. | .ldm .. | .stm .. | .sld .. | .sst .. | .gld .. | .gst .. | .atom .. | .cas ..
  | .pref .. | .cctl .. | .ldx .. | .laydef .. => true
  | .reduce _ k _ _ _ _ _ => decide (3 ≤ k)
  | .ldsc _ d _ _ => decide (wbits (c.rdG d) 21 20 = 0)
  | .ldt _ _ sp _ _ | .stt _ _ sp _ _ => decide (sp = .global)
  | _ => false
/-- A plain load. -/
def plainLoad : Instr → Bool
  | .ld .. | .ldc .. | .ldk .. | .ldl .. | .ldm .. => true
  | _ => false
/-- R229: the instruction waits for the release of a `FENCE.acqrel` that the lane's loads go ahead of. -/
def behindFence (i : Instr) (x : Lane) : Bool :=
  x.debt.isSome && ((ordersMemory i && !plainLoad i) || (match i with | .exit .. => true | _ => false))
/-- R28, R410: what holds lane l's instruction back, beside the entries of `blockers`; where its guard is false it reads
nothing (R60). -/
def State.standsBack (s : State) (c : Ctx) (i : Instr) (l : Nat) : Bool :=
  c.guard (guardOf i) l && (s.tooSoon c i l || s.behindWait c i || (c.usesLog i && c.logFull) || behindFence i (c.lane l)
    || s.namesFar c i l)
/-- Lanes of a context that have not exited and wait for nothing. -/
def Ctx.freeLanes (c : Ctx) : List Nat := c.liveLanes.filter (fun l => decide ((c.lane l).wait = .none))
/-- R28: the lanes that are eligible. -/
def State.eligible (s : State) (c : Ctx) : List Nat :=
  let pcs := (c.freeLanes.map (fun l => (c.lane l).pc)).eraseDups
  let words := pcs.map (fun pc => (pc, s.instrAt c pc))
  c.freeLanes.filter (fun l =>
    match words.find? (fun e => decide (e.1 = (c.lane l).pc)) with
    | some (_, some i) => (s.blockers c i l).isEmpty && !s.standsBack c i l
    | _ => false)

/-! ### Cohorts (R29) -/

/-- The first member of a list with the greatest weight. -/
def mostOf {α : Type} (f : α → Nat) : List α → Option α
  | [] => none
  | x :: r => match mostOf f r with
    | none => some x
    | some y => if f x < f y then some y else some x
/-- R29: the PC that a grant chooses among some eligible lanes. -/
def Ctx.choosePc (c : Ctx) (es : List Nat) : Option DWord :=
  match es.filter (fun l => decide (32 ≤ (c.lane l).passOver)) with
  | [] => (mostOf (fun l => (es.filter (fun m => decide ((c.lane m).pc = (c.lane l).pc))).length) es).map (fun l => (c.lane l).pc)
  | late => (mostOf (fun l => (c.lane l).passOver) late).map (fun l => (c.lane l).pc)
/-- R72, R317: the issue that a grant with a region miss gave, while its lanes still stand there and may issue. -/
def State.missHeld (s : State) (c : Ctx) : Option (Issue × Nat) :=
  c.missAt.filter (fun m => let es := s.eligible c; (lanesOf m.1.lanes).all (fun l => es.contains l && decide ((c.lane l).pc = m.1.pc)))
/-- R301: the issue that holds its slot for a free entry, while its lanes still stand there and may issue. -/
def State.stillHeld (s : State) (c : Ctx) : Option Issue :=
  if c.hold.isNone ∨ c.withdrawn = true then none
  else
    let es := s.eligible c
    let ls := lanesOf c.heldAt.lanes
    if ls ≠ [] ∧ ls.all (fun l => es.contains l && decide ((c.lane l).pc = c.heldAt.pc)) = true then some c.heldAt else none
/-- R29: the issue that a grant of a context gives, or has given. -/
def State.nextIssue (s : State) (k : Nat) : Option Issue :=
  let c := s.ctx k
  match (s.missHeld c).map (·.1) <|> s.stillHeld c with
  | some m => some m
  | none =>
    let es := s.eligible c
    (c.choosePc es).map (fun pc => { ctx := k, lanes := maskOf (es.filter (fun l => decide ((c.lane l).pc = pc))), pc := pc })
/-- R29, R301: a grant of the context is a new one; one that a held instruction, or a region miss, still has is not. -/
def State.freshGrant (s : State) (c : Ctx) : Bool := (c.hold.isNone || c.withdrawn) && (s.missHeld c).isNone
/-- R29: the pass-over counts after a grant: those of eligible lanes outside the cohort rise. -/
def Ctx.passOvers (c : Ctx) (es coh : List Nat) : Ctx :=
  c.modLanes (es.filter (fun l => !coh.contains l)) (fun _ x => { x with passOver := x.passOver + 1 })
/-- R29: lanes have issued. -/
def Ctx.passedNone (c : Ctx) (coh : List Nat) : Ctx := c.modLanes coh (fun _ x => { x with passOver := 0 })

/-! ### What may run (R28, R297, R301, R307, R377) -/

/-- R301, R302: the queue in which a held instruction found no free entry has one. -/
def State.holdClear (s : State) (c : Ctx) : Bool :=
  match c.hold with
  | none => true
  | some (.requestSlots n, _) => decide (s.slotsUsed c + n ≤ 3072)
  | some (.counter k, _) => decide (c.counter k < 63)
  | some (.blocks isB n, _) => decide (s.blocksHeld c isB + n ≤ 8)
  | some (.reservation, _) => decide (s.reservations c < 32)
  | some (.drain, _) => decide (s.drains c < 16)
  | some (.copyQueue, _) => decide (s.copiesQueued c < 32)
  | some (.replayQueue, _) => decide ((c.rq.filter (fun e => decide (e.kind ≠ 8))).length < 64)
/-- The context's core is stopped (R377). -/
def State.onStoppedCore (s : State) (c : Ctx) : Bool :=
  !c.site.mast && (decide (c.kind ≠ .seq) || decide (s.ctxLevel c = 1)) && (s.pkg c.pkg).coreStopped c.site.loc
/-- The context's core is within a shadow bank swap (R307). -/
def State.swapping (s : State) (c : Ctx) : Bool :=
  decide (c.kind ≠ .handler) && (decide (c.kind = .group) || decide (s.ctxLevel c = 1))
    && (match Sparse.find (s.pkg c.pkg).swapEnd c.site.loc with | some t => decide (s.cycle < t) | none => false)
/-- The context is not stopped, whatever its lanes and its active position. -/
def State.runnable (s : State) (c : Ctx) : Bool :=
  let u := s.unit c.unit
  c.placed && s.clockRuns c.pkg c.site && !s.onStoppedCore c && !s.swapping c && (!c.withdrawn || s.holdClear c)
    && (match c.kind with
        | .handler => true
        | .seq => !c.halted && s.active 6 c.unit && !(decide (u.level = 1) && (u.yielded || u.forced))
        | .group => !c.retired && !c.trapped && !c.halted && s.active 6 c.unit && !u.yielded && !u.forced)
/-- The context may fetch and issue. -/
def State.runs (s : State) (c : Ctx) : Bool :=
  s.runnable c && (decide (c.kind ≠ .group) || (c.pos.isSome && decide (c.notBefore ≤ s.cycle)))
/-- R297: the context is ready. -/
def State.ready (s : State) (c : Ctx) : Bool := s.runs c && !(s.eligible c).isEmpty
/-- A pending group that would be ready in an active position (R299, R300). -/
def State.pendingReady (s : State) (c : Ctx) : Bool :=
  decide (c.kind = .group) && c.pos.isNone && s.runnable c && !(s.eligible c).isEmpty

/-! ### The grant (R297, R298) -/

/-- The handler contexts of a core that are running. -/
def State.handlersAt (s : State) (p : Nat) (core : Site) : List (Nat × Ctx) :=
  s.ctxs.filter (fun e => decide (e.2.kind = .handler) && e.2.placed && decide (e.2.pkg = p) && decide (e.2.site = core))
/-- The groups in the four active positions of a slot. -/
def State.slotGroups (s : State) (p : Nat) (core : Site) (slot : Nat) : List (Nat × Ctx) :=
  (s.resident p core).filter (fun e => e.2.pos.any (fun n => decide (n / 4 = slot)))
/-- R297: one group is older than another. -/
def older (x y : Nat × Ctx) : Bool :=
  decide (x.2.age < y.2.age) || (decide (x.2.age = y.2.age) && (decide (x.2.index < y.2.index)
    || (decide (x.2.index = y.2.index) && decide (x.1 < y.1))))
/-- The oldest of some groups. -/
def oldestOf : List (Nat × Ctx) → Option (Nat × Ctx)
  | [] => none
  | x :: r => match oldestOf r with
    | none => some x
    | some y => if older y x then some y else some x
/-- R301, R317: the group whose held instruction, or whose region miss, holds a slot. -/
def State.slotHolder (s : State) (l : List (Nat × Ctx)) : Option (Nat × Ctx) :=
  l.find? (fun e => s.runs e.2 && ((e.2.hold.isSome && !e.2.withdrawn) || (s.missHeld e.2).isSome))
/-- R317: the 2 cycles of a region miss have passed. -/
def State.missOver (s : State) (c : Ctx) : Bool := match s.missHeld c with | some m => decide (m.2 ≤ s.cycle) | none => true
/-- R298: greedy-then-oldest among the ready groups of a slot. -/
def State.greedy (s : State) (p core slot : Nat) (ready : List (Nat × Ctx)) : Option Nat :=
  match oldestOf (ready.filter (fun e => match e.2.readySince with | some t => decide (t + 256 ≤ s.cycle) | none => false)) with
  | some e => some e.1
  | none =>
    match ready.find? (fun e => decide (Sparse.get 0 (s.pkg p).grantee (2 * core + slot) = e.1 + 1) && !e.2.yld) with
    | some e => some e.1
    | none => (oldestOf ready).map (·.1)
/-- R298: loose round-robin among the ready groups of a slot. -/
def State.roundRobin (s : State) (p core slot : Nat) (ready : List (Nat × Ctx)) : Option Nat :=
  let start := match Sparse.get 0 (s.pkg p).lastPos (2 * core + slot) with | 0 => 4 * slot | n + 1 => 4 * slot + (n + 1) % 4
  (leastOf (fun (e : Nat × Ctx) => (e.2.pos.getD 0 + 8 - start) % 4) ready).map (·.1)
/-- R298: the group that a slot grants.  Where the slot's ready groups have records of both policies, the record of the
oldest decides. -/
def State.slotChoice (s : State) (p : Nat) (core : Site) (slot : Nat) : Option Nat :=
  if (s.handlersAt p core).any (fun e => s.ready e.2) then none
  else
    let here := s.slotGroups p core slot
    match s.slotHolder here with
    | some e => if s.holdClear e.2 ∧ s.ready e.2 ∧ s.missOver e.2 then some e.1 else none
    | none =>
      let ready := here.filter (fun e => s.ready e.2)
      match oldestOf ready with
      | none => none
      | some e => if (s.gridOf e.2).rr then s.roundRobin p core.loc slot ready else s.greedy p core.loc slot ready
/-- The context is granted an issue now. -/
def State.grantable (s : State) (k : Nat) : Bool :=
  match Sparse.find s.ctxs k with
  | none => false
  | some c =>
    match c.kind with
    | .group => (match c.pos with | some n => decide (s.slotChoice c.pkg c.site (n / 4) = some k) | none => false)
    | _ => s.ready c
/-- R298: what a grant of a group leaves at its slot. -/
def State.noteGrant (s : State) (k : Nat) : State :=
  let c := s.ctx k
  match c.kind, c.pos with
  | .group, some n =>
    (s.modPkg c.pkg (fun p => { p with
      grantee := Sparse.set 0 p.grantee (2 * c.site.loc + n / 4) (k + 1), lastPos := Sparse.set 0 p.lastPos (2 * c.site.loc + n / 4) (n + 1) })).modCtx k
      (fun c => { c with readySince := none })
  | _, _ => s

/-! ### Swaps between the active and the pending set (R299, R300) -/

/-- R72, R317: an issue of a group that a grant gives has a region miss: a lane of it reads a vector register that is not
staged. -/
def State.missesNow (s : State) (k : Nat) (i : Instr) (iss : Issue) : Bool :=
  let c := s.ctx k
  c.regionMiss (s.fmtOf c) i && (lanesOf iss.lanes).any (fun l => c.guard (guardOf i) l)
/-- R29, R317: the grant of an issue with a region miss: its slot is held from now on, and it issues after 2 cycles. -/
def State.grantMiss (s : State) (k : Nat) (iss : Issue) : State :=
  (s.modCtx k (fun c => { c.passOvers (s.eligible c) (lanesOf iss.lanes) with missAt := some (iss, s.cycle + 2) })).noteGrant k

/-! ### What a lane waits for beside registers (R299) -/

/-- A lane's wait lets its group be swapped out (R299). -/
def Wait.swaps : Wait → Bool
  | .object .. | .counts .. | .combine .. | .batch .. | .ticket .. | .sleep _ => true
  | .bar k => decide (1 ≤ k)
  | _ => false
/-- R299: lane l waits on an access of the entry in global memory that missed the core data cache: an access that is not
performed, and not a load whose lines the cache holds. -/
def State.missed (s : State) (c : Ctx) (e : RqEntry) (l : Nat) : Bool :=
  e.accesses && e.caps.any (fun x => decide (x.1 % 32 = l) && !x.2.done && (match x.2.pages with
    | .store _ _ :: _ => false
    | _ => !(s.hitsCore c e x.2)))
/-- R92, R299: the latency class that an entry's issue carried. -/
def RqEntry.lat (e : RqEntry) : Option Nat := latOf (e.laneHints.map (·.2))
/-- R299: a wait of lane l on some entries lets its group be swapped out: for an access that missed, but where its issue
carried LAT 0; for any entry whose issue carried LAT 3. -/
def State.stallsOn (s : State) (c : Ctx) (es : List RqEntry) (l : Nat) : Bool :=
  es.any (fun e => (decide (e.lat ≠ some 0) && s.missed c e l) || decide (e.lat = some 3))
/-- R299: the lanes that wait with lane l in one instruction. -/
def Ctx.waitLat (c : Ctx) (l : Nat) : Option Nat :=
  latOf ((c.liveLanes.filter (fun m => decide ((c.lane m).pc = (c.lane l).pc) && decide ((c.lane m).wait = (c.lane l).wait))).map
    (fun m => (c.lane m).hints))
/-- R299: a group that is not ready has stalled. -/
def State.stalled (s : State) (c : Ctx) : Bool :=
  c.liveLanes.any (fun l =>
    let x := c.lane l
    match x.wait with
    | .none => (match s.instrAt c x.pc with | some i => s.stallsOn c (s.blockers c i l) l | none => false)
    | .order ids => s.stallsOn c (c.rq.filter (fun e => ids.contains e.id)) l
    | .release ids .. => s.stallsOn c (c.rq.filter (fun e => ids.any (fun y => decide (y.2 = e.id)))) l
    | w => w.swaps && decide (c.waitLat l ≠ some 0))
/-- R299: the group may be moved to the pending set: its team stands in its place on a core that runs. -/
def State.exchangeable (s : State) (c : Ctx) : Bool :=
  c.placed && !c.retired && s.clockRuns c.pkg c.site && !s.onStoppedCore c && !s.swapping c && s.active 6 c.unit
/-- R72, R73, R94, R299: group k gives its position to a pending group. -/
def State.exchangePos (s : State) (k new : Nat) : State :=
  let n := (s.ctx k).pos
  (s.modCtx k (fun c => { c.revertHints.unheld with pos := none, staged := [] })).modCtx new
    (fun c => { c with pos := n, staged := [], entered := s.cycle, notBefore := s.cycle + 8 })
/-- The pending groups of a core that are ready. -/
def State.readyPending (s : State) (p : Nat) (core : Site) : List (Nat × Ctx) := (s.resident p core).filter (fun e => s.pendingReady e.2)
/-- R299: a slot has made a swap decision in this cycle. -/
def State.swapped (s : State) (c : Ctx) (slot : Nat) : Bool :=
  (s.slotGroups c.pkg c.site slot).any (fun e => decide (e.2.notBefore = s.cycle + 8))
/-- `GROUP_SWAP` (R299). -/
def execGroupSwap (k : Nat) (s : State) : Out :=
  let c := s.ctx k
  match c.kind, c.pos, oldestOf (s.readyPending c.pkg c.site) with
  | .group, some n, some new =>
    if ¬ s.exchangeable c ∨ s.ready c = true ∨ ¬ s.stalled c ∨ s.swapped c (n / 4) = true then .fault (.notEnabled "GROUP_SWAP")
    else .next (s.exchangePos k new.1)
  | _, _, _ => .fault (.notEnabled "GROUP_SWAP")
/-- R300: the active group of a core that entered the active set earliest. -/
def State.earliest (s : State) (p : Nat) (core : Site) : Option (Nat × Ctx) :=
  leastOf (fun (e : Nat × Ctx) => e.2.entered * 8 + e.2.pos.getD 0) ((s.resident p core).filter (fun e => e.2.pos.isSome))
/-- `PENDING_FORCED_PROMOTION` (R300). -/
def execPendingForcedPromotion (k : Nat) (s : State) : Out :=
  let c := s.ctx k
  let waited := match c.readySince with | some t => decide (t + 2048 ≤ s.cycle) | none => false
  match s.earliest c.pkg c.site with
  | some e =>
    if s.pendingReady c && waited && !s.swapped c (e.2.pos.getD 0 / 4) then .next (s.exchangePos e.1 k)
    else .fault (.notEnabled "PENDING_FORCED_PROMOTION")
  | none => .fault (.notEnabled "PENDING_FORCED_PROMOTION")
/-- `ISSUE_WITHDRAW` (R301): a wait for the replay queue is no structural one (R372). -/
def execIssueWithdraw (k : Nat) (s : State) : Out :=
  match (s.ctx k).hold with
  | some (h, t) =>
    if h = .replayQueue ∨ (s.ctx k).withdrawn = true ∨ s.cycle < t + 16 then .fault (.notEnabled "ISSUE_WITHDRAW")
    else .next (s.modCtx k (fun c => { c with withdrawn := true, missAt := none }))
  | none => .fault (.notEnabled "ISSUE_WITHDRAW")
/-- `SLEEP_WAKE` (R308). -/
def execSleepWake (k l : Nat) (s : State) : Out :=
  let c := s.ctx k
  match (c.lane l).wait with
  | .sleep t =>
    if t ≤ s.now c ∧ s.clockRuns c.pkg c.site = true then .next (s.modCtx k (fun c => c.advance [l])) else .fault (.notEnabled "SLEEP_WAKE")
  | _ => .fault (.notEnabled "SLEEP_WAKE")

/-! ### The hang watchdog (R50, R310) -/

/-- A wait that the watchdog counts. -/
def Wait.watched : Wait → Bool
  | .bar _ | .join | .launch .. | .object .. | .counts .. | .combine .. | .batch .. | .ticket .. | .event .. | .converge .. => true
  | _ => false
/-- The lanes of a context that wait in the instruction at a PC. -/
def Ctx.watchedAt (c : Ctx) (pc : DWord) : List Nat :=
  c.liveLanes.filter (fun l => (c.lane l).wait.watched && decide ((c.lane l).pc = pc))
/-- The instruction that is watched from now on: the one watched so far while a lane waits in it, else that of the
lowest waiting lane. -/
def Ctx.watchedPc (c : Ctx) : Option DWord :=
  match c.watch with
  | some (pc, _) => if (c.watchedAt pc).isEmpty then (c.liveLanes.find? (fun l => (c.lane l).wait.watched)).map (fun l => (c.lane l).pc) else some pc
  | none => (c.liveLanes.find? (fun l => (c.lane l).wait.watched)).map (fun l => (c.lane l).pc)
/-- The groups that take part in `BAR.Lk` of a context (R293). -/
def State.barGroups (s : State) (c : Ctx) (k : Nat) : List (Nat × Ctx) :=
  match s.ownUnit c k with
  | none => []
  | some u =>
    let us := s.unitsUnder 6 u
    s.ctxs.filter (fun e => decide (e.2.kind = .group) && !e.2.retired && us.contains e.2.unit)
/-- R310: the watchdog of a context does not count this tick. -/
def State.watchPaused (s : State) (c : Ctx) (pc : DWord) : Bool :=
  let w := match c.watchedAt pc with | l :: _ => (c.lane l).wait | [] => .none
  match w with
  | .bar k => if k = 0 then c.halted else (s.barGroups c k).any (fun e => e.2.halted)
  | .join => c.halted || (s.ctxsUnder c.unit).any (fun k => (s.ctx k).halted)
  | _ => s.ctxs.any (fun e => decide (e.2.kind ≠ .handler) && decide (e.2.grid = c.grid) && e.2.halted)
/-- R310: n ticks of a context's die pass at its watchdog; a stopped group does not count. -/
def State.countWatch (s : State) (c : Ctx) (n : Nat) : Ctx :=
  if c.kind = .handler ∨ c.trapped ∨ (s.gridOf c).hangwd = 0 then { c with watch := none }
  else match c.watchedPc with
    | none => { c with watch := none }
    | some pc =>
      let old := match c.watch with | some (q, m) => if q = pc then m else 0 | none => 0
      { c with watch := some (pc, if s.watchPaused c pc then old else old + n) }
/-- `HANG_WATCHDOG_EXPIRY` (R310, R370): the waits stand as they are. -/
def execHangWatchdogExpiry (k : Nat) (s : State) : Out :=
  let c := s.ctx k
  match c.watch with
  | some (pc, n) =>
    let ls := c.watchedAt pc
    if (s.gridOf c).hangwd = 0 ∨ n < (s.gridOf c).hangwd ∨ ls.isEmpty ∨ c.trapped = true ∨ c.halted = true then
      .fault (.notEnabled "HANG_WATCHDOG_EXPIRY")
    else
      let w := (s.fetchWord c pc).getD (Config.freeWord s.free).toNat
      let s := { s with free := s.free + 1 }
      .next ((s.takeTrap k pc (BitVec.ofNat 32 w) 0x13 ls 0 none).modCtx k (fun c =>
        { c with watch := none, frame := { c.frame with rpc := c.frame.fpc } }))
  | none => .fault (.notEnabled "HANG_WATCHDOG_EXPIRY")
/-- `LINE_AGE_INVALIDATE` (R240). -/
def execLineAgeInvalidate (p core line : Nat) (s : State) : Out :=
  match (s.pkg p).dline core line with
  | some x =>
    if ¬ x.own.isEmpty ∨ s.dieCount p (siteOfLoc core) < x.fill + 65536 then .fault (.notEnabled "LINE_AGE_INVALIDATE")
    else .next (s.modPkg p (fun q =>
      { q with dlines := q.dlines.filter (fun y => !(decide (y.core = core) && decide (y.key = line))) }))
  | none => .fault (.notEnabled "LINE_AGE_INVALIDATE")

/-! ### Instruction breakpoints (R400 to R402) -/

/-- The addresses of the hint sequence that a lane stands in, and of its consumer (R94). -/
def State.sequence (s : State) (c : Ctx) (x : Lane) : List Nat :=
  let hintAt := fun (pc : DWord) => (s.instrAt c pc).any isHint
  let ahead := if hintAt x.pc then (if hintAt (x.pc + 4) then [x.pc, x.pc + 4, x.pc + 8] else [x.pc, x.pc + 4]) else [x.pc]
  (((List.range x.hints.length).map (fun i => x.pc - BitVec.ofNat 64 (4 * (i + 1)))) ++ ahead).map BitVec.toNat
/-- R401: lane l hits breakpoint b. -/
def State.hits (s : State) (c : Ctx) (b l : Nat) : Bool :=
  let ctl := (s.pkg c.pkg).reg (0x0F18 + 16 * b)
  let va := (s.pkg c.pkg).fld (0x0F10 + 16 * b) 56 2 * 4
  let x := c.lane l
  decide (c.kind = .group) && ctl.getLsbD 63 && decide (bits ctl 47 32 = c.asid) && ctl.getLsbD l && !x.skip
    && (s.sequence c x).contains va
/-- The breakpoints that lanes of a cohort hit, and those lanes. -/
def State.bpHits (s : State) (c : Ctx) (coh : List Nat) : List Nat × List Nat :=
  let armed := (List.range 4).filter (fun b => ((s.pkg c.pkg).reg (0x0F18 + 16 * b)).getLsbD 63)
  (armed.filter (fun b => coh.any (fun l => s.hits c b l)), coh.filter (fun l => armed.any (fun b => s.hits c b l)))
/-- R401: a cohort that hits breakpoints stops. -/
def State.breakpoint (s : State) (k : Nat) (i : Issue) (bs ls : List Nat) : State :=
  let c := s.ctx k
  let scope := bs.foldl (fun n b => max n ((s.pkg c.pkg).fld (0x0F18 + 16 * b) 62 61)) 0
  let s := s.modPkg c.pkg (fun p => bs.foldl (fun p b => p.setFld (0x0F18 + 16 * b) 60 60 1) p)
  let s :=
    let n := match ls with | l :: _ => (c.lane l).hints.length | [] => 0
    let first := i.pc - BitVec.ofNat 64 (4 * n)
    if (s.pkg c.pkg).trapEn then
      let w := (s.fetchWord c first).getD 0
      let s := s.modCtx k Ctx.revertHints
      s.takeTrap k first (BitVec.ofNat 32 w) 0x17 ls (bs.headD 0) none
    else (s.stopGroup k).trace c 4 ls (fun _ => first.toNat) (fun _ => 0x17)
  match scope with
  | 0 => s
  | n => s.haltScope c (HScope.ofCode (n - 1))
/-- `BREAKPOINT_HIT` (R400 to R402). -/
def execBreakpointHit (k : Nat) (s : State) : Out :=
  match s.grantable k, s.nextIssue k with
  | true, some i =>
    match s.bpHits (s.ctx k) (lanesOf i.lanes) with
    | (b :: bs, ls) => .next (s.breakpoint k i (b :: bs) ls)
    | _ => .fault (.notEnabled "BREAKPOINT_HIT")
  | _, _ => .fault (.notEnabled "BREAKPOINT_HIT")

/-! ### The slot account (R408 to R410) -/

/-- The instruction is of majors 0x2C to 0x2F. -/
def isMatrix (i : Instr) : Bool := let m := (wordOf i).toNat / 2 ^ 26; decide (44 ≤ m) && decide (m ≤ 47)
/-- R410: the leaf of entries that a lane waits on. -/
def boardLeaf (l : List RqEntry) : Nat := if l.any (fun e => isMatrix e.ins) then 6 else 5
/-- R410: the leaf of a lane.  A lane that could issue is charged as one whose word has not come. -/
def State.laneLeaf (s : State) (c : Ctx) (l : Nat) : Nat :=
  let x := c.lane l
  match x.wait with
  | .fetch _ => 3
  | .release .. | .accesses .. | .halting _ | .ctxsw | .team _ | .tret .. | .launch .. => 5
  | .order ids => boardLeaf (c.rq.filter (fun e => ids.contains e.id))
  | .object .. | .counts .. | .combine .. | .batch .. | .ticket .. | .event .. | .sleep _ => 7
  | .bar _ | .join | .converge .. => 9
  | .none =>
    if c.withdrawn then 8
    else match s.instrAt c x.pc with
      | none => 3
      | some i => match s.blockers c i l with | [] => if s.standsBack c i l then 5 else 3 | es => boardLeaf es
/-- The group is stopped by a trap, a halt, a migration or an abort. -/
def State.stopped (s : State) (c : Ctx) : Bool := c.trapped || c.halted || !s.active 6 c.unit
/-- R409: the leaf of a slot in a cycle, with the leaf of what it issued.  A slot that could issue while the governor
restricts admission is one that the governor leaves unused (R17). -/
def State.slotLeaf (s : State) (p : Nat) (core : Site) (slot : Nat) (issued : Option Nat) : Nat :=
  let here := s.slotGroups p core slot
  let swap := match Sparse.find (s.pkg p).swapEnd core.loc with | some t => decide (s.cycle < t) | none => false
  if swap || (s.handlersAt p core).any (fun e => s.ready e.2) then 10
  else match issued with
    | some n => n
    | none =>
      if here.any (fun e => s.runnable e.2 && (decide (s.cycle < e.2.notBefore) || !s.missOver e.2)) then 4
      else match s.slotHolder here with
        | some e => if e.2.hold.any (fun h => decide (h.1 = .replayQueue)) then 5 else 8
        | none =>
          if (s.pkg p).fld 0x0028 63 63 = 1 ∧ (s.slotChoice p core slot).isSome then 8
          else if here.isEmpty then 11
          else match oldestOf (here.filter (fun e => !s.stopped e.2)) with
            | none => 10
            | some e => match e.2.liveLanes with | l :: _ => s.laneLeaf e.2 l | [] => 5
/-- R408: the leaf of an issue: a hint word, a full cohort, or a part of one. -/
def Ctx.issueLeaf (c : Ctx) (i : Instr) (coh : List Nat) : Nat :=
  if isHint i then 2 else if c.liveLanes.all (fun l => coh.contains l) then 0 else 1

/-! ### Samples (R407) -/

/-- R407: the groups of a core that its samples may name, with their lanes, in order. -/
def State.sampleLanes (s : State) (p : Nat) (core : Site) : List (Nat × Nat × Nat) :=
  let cfg := (s.pkg p).reg 0x0FD8
  (List.range 32).flatMap (fun i =>
    match (s.resident p core).find? (fun e => decide (e.2.resIdx = i) && decide (e.2.asid = bits cfg 47 32)) with
    | some e => (e.2.liveLanes.filter (fun l => cfg.getLsbD l)).map (fun l => (i * 32 + l, e.1, l))
    | none => [])
/-- R407: samples are written, and their interval. -/
def Package.sampling (q : Package) : Option Nat :=
  let n := q.fld 0x0FE8 31 0
  if n ≠ 0 ∧ (q.reg 0x0FD8).getLsbD 63 = true ∧ (q.reg 0x0FD8).getLsbD 56 = true then some n else none
/-- R407: a sample of a core is due. -/
def State.sampleDue (s : State) (p core : Nat) : Bool :=
  let q := s.pkg p
  q.sampling.isSome && q.sampleOwed.contains core && !(s.sampleLanes p (siteOfLoc core)).isEmpty
/-- `TRACE_SAMPLE` (R406, R407). -/
def execTraceSample (p core : Nat) (s : State) : Out :=
  if ¬ s.sampleDue p core then .fault (.notEnabled "TRACE_SAMPLE")
  else
    let l := s.sampleLanes p (siteOfLoc core)
    let ptr := Sparse.get 0 (s.pkg p).samplePtr core
    match (match l.find? (fun e => decide (ptr ≤ e.1)) with | some e => some e | none => l.head?) with
    | none => .fault (.notEnabled "TRACE_SAMPLE")
    | some e =>
      let c := s.ctx e.2.1
      let leaf := match c.pos with | some n => Sparse.get 11 (s.pkg p).leaf (2 * core + n / 4) | none => 15
      let s := s.traceOne c 6 e.2.2 (c.lane e.2.2).imgPc 0 leaf
      .next (s.modPkg p (fun q => { q with
        samplePtr := Sparse.set 0 q.samplePtr core ((e.1 + 1) % 1024), sampleOwed := q.sampleOwed.filter (fun n => decide (n ≠ core)) }))

/-! ### Fetch faults and the handler (R335, R375 to R377) -/

/-- R377: a double fault: the core stops, its teams abort, and its handler queue is emptied. -/
def State.doubleFault (s : State) (p : Nat) (core : Site) : State :=
  let n := core.loc
  let s := (s.modPkg p (fun q => q.setFld (0x0D00 + 32 * (n / 256 % 8) + 8 * (n % 256 / 64)) (n % 64) (n % 64) 1)).packageEvent p
  let us := ((s.resident p core).map (fun e => e.2.unit)).eraseDups
  let s := us.foldl (fun s u => s.startAbort u 0x0103) s
  let s := s.modPkg p (fun q => { q with hq := q.hq.filter (fun e => decide (e.1 ≠ n)) })
  (s.handlersAt p core).foldl (fun s e =>
    (s.modCtx e.2.served (fun c => { c with inHdl := false })).modCtx e.1 (fun h => { h with placed := false })) s
/-- `FETCH_FAULT` (R149, R335, R377). -/
def execFetchFault (k l : Nat) (s : State) : Out :=
  let c := s.ctx k
  let x := c.lane l
  if ¬ s.runs c ∨ ¬ c.freeLanes.contains l then .fault (.notEnabled "FETCH_FAULT")
  else
    let r := s.fetchAt c x.pc
    let trap := fun (cause : Nat) =>
      let w : Word := (Config.freeWord s.free).setWidth 32
      let ls := c.freeLanes.filter (fun m => decide ((c.lane m).pc = x.pc))
      let info := x.pc.toNat
      State.takeTrap { s with free := s.free + 1 } k x.pc w cause ls info none
    match r, c.kind with
    | .ok _ _, _ => .fault (.notEnabled "FETCH_FAULT")
    | _, .handler => .next (s.doubleFault c.pkg c.site)
    | .fetchFault, _ => .next (trap 6)
    | .access, _ => .next (trap 8)
    | .park kind pte, _ =>
      let t := s.parkOn (s.partyOf c false) x.pc.toNat kind pte .fetch
      .next (t.1.modCtx k (fun c => c.modLane l (fun x => { x with wait := .fetch t.2 })))
/-- R375: the group that a core's handler serves next: of those whose team runs the one that joined the queue first, in an
earlier cycle; among those of one cycle the one of the lowest resident index. -/
def State.nextServed (s : State) (p core : Nat) : Option Nat :=
  (leastOf (fun (e : Nat × Nat) => (s.ctx e.2).queuedAt * 32 + (s.ctx e.2).resIdx)
    ((s.pkg p).hq.filter (fun e => decide (e.1 = core) && s.active 6 (s.ctx e.2).unit && (s.ctx e.2).trapped
      && decide ((s.ctx e.2).queuedAt < s.cycle)))).map (·.2)
/-- The handler slot of a core, once it has been used. -/
def State.handlerSlot (s : State) (p : Nat) (core : Site) : Option (Nat × Ctx) :=
  s.ctxs.find? (fun e => decide (e.2.kind = .handler) && decide (e.2.pkg = p) && decide (e.2.site = core))
/-- R375: the handler slot at entry. -/
def Package.handlerAtEntry (q : Package) (p : Nat) (core : Site) (k res nextId : Nat) : Ctx :=
  { kind := .handler, pkg := p, site := core, asid := q.fld 0x0C08 15 0, placed := true
    lanes := entryLanes 32 (BitVec.ofNat 64 (q.fld 0x0C00 56 2 * 4)), g := Sparse.set 0 [] 0 (BitVec.ofNat 32 res)
    winIdx := res, served := k, nextId := nextId }
/-- `HANDLER_ENTRY` (R375): once the slot's earlier accesses have been performed. -/
def execHandlerEntry (p core : Nat) (s : State) : Out :=
  let site := siteOfLoc core
  let slot := s.handlerSlot p site
  let busy : Bool := match slot with | some e => e.2.placed || !e.2.rq.isEmpty | none => false
  match s.nextServed p core with
  | none => .fault (.notEnabled "HANDLER_ENTRY")
  | some k =>
    if busy || (s.pkg p).coreStopped core || !s.clockRuns p site then .fault (.notEnabled "HANDLER_ENTRY")
    else
      let nid := match slot with | some e => e.2.nextId | none => 0
      let h := (s.pkg p).handlerAtEntry p site k (s.ctx k).resIdx nid
      let s := match slot with | some e => s.modCtx e.1 (fun _ => h) | none => s.putCtx h
      .next (s.modCtx k (fun c => { c with inHdl := true }))

end Sys2Proof.Machine
end

