-- ==== Sys2Proof/Machine/Preempt.lean ====
section
/-! DEFINITION. Pre-emption, shadow bank swaps, migration, and aborts (R45, R49, R52, R187, R242, R305 to R307,
R388 to R394). -/

namespace Sys2Proof.Machine

/-! ### The save pool (R390) -/

/-- Areas of the pool that are not in use, lowest first. -/
def Package.freeAreas (p : Package) : List Nat := (List.range p.poolCount).filter (fun a => !p.poolUsed.contains a)
/-- Areas taken by a unit. -/
def State.takeAreas (s : State) (u : Nat) (l : List Nat) : State :=
  (s.modPkg (s.unit u).pkg (fun p => { p with poolUsed := p.poolUsed ++ l })).modUnit u (fun x => { x with areas := x.areas ++ l })
/-- The areas of a unit are free again. -/
def State.freeAreas (s : State) (u : Nat) : State :=
  let x := s.unit u
  (s.modPkg x.pkg (fun p => { p with poolUsed := p.poolUsed.filter (fun a => !x.areas.contains a) })).modUnit u (fun x => { x with areas := [] })
/-- The local physical address of an area. -/
def Package.areaAddr (p : Package) (a : Nat) : Nat := p.fld 0x0C10 51 22 * 2 ^ 22 + a * 2 ^ 22

/-! ### Quiet teams (R171, R172, R388) -/

/-- The contexts of one unit: its sequencer and, of a team, its groups. -/
def State.ownCtxs (s : State) (u : Nat) : List (Nat × Ctx) :=
  s.ctxs.filter (fun e => decide (e.2.kind ≠ .handler) && decide (e.2.unit = u))
/-- R388: no entry of a unit's contexts is in flight; a pass in the array may stand where it freezes. -/
def State.unitQuiet (s : State) (u : Nat) (freeze : Bool) : Bool :=
  (s.ownCtxs u).all (fun e => e.2.rq.all (fun r => !r.moves || (freeze && r.inArray)))
/-- A team's handler is running for one of its groups. -/
def State.beingServed (s : State) (u : Nat) : Bool := (s.groupsOf u).any (fun e => e.2.inHdl)

/-! ### Requests and yields (R52, R305, R306) -/

/-- The teams that stand on a core. -/
def State.teamsOn (s : State) (p : Nat) (core : Site) : List (Nat × WUnit) :=
  s.units.filter (fun e => decide (e.2.pkg = p) && decide (e.2.level = 1) && e.2.inPlace && decide (e.2.site = core))
/-- A core that runs only teams below a priority and carries no request. -/
def State.mayPreempt (s : State) (p prio : Nat) (core : Site) : Bool :=
  let l := s.teamsOn p core
  !l.isEmpty && l.all (fun e => decide (e.2.st = .running) && decide ((s.grid e.2.grid).prio < prio))
    && (Sparse.find (s.pkg p).preq core.loc).isNone
/-- The highest launch priority on a core. -/
def State.topPrio (s : State) (p : Nat) (core : Site) : Nat := (s.teamsOn p core).foldl (fun n e => max n (s.grid e.2.grid).prio) 0
/-- The cycle at which the latest team of a core was placed. -/
def State.latest (s : State) (p : Nat) (core : Site) : Nat := (s.teamsOn p core).foldl (fun n e => max n e.2.placedAt) 0
/-- R305: the core of which a waiting team requests pre-emption. -/
def State.preemptCore (s : State) (u : Nat) : Option Site :=
  let x := s.unit u
  let g := s.grid x.grid
  let cores := match x.parentOf with
    | some q => if (s.unit q).st = UnitSt.running then [namedCore (s.unit q) x.index] else []
    | none => coresOf
  let l := cores.filter (fun c => s.coreOpen x.pkg c g.pinA && s.mayPreempt x.pkg g.prio c)
  let low := (leastOf (s.topPrio x.pkg) l).map (s.topPrio x.pkg)
  mostOf (s.latest x.pkg) (l.filter (fun c => decide (some (s.topPrio x.pkg c) = low)))
/-- R305: a team waits for a core and no core fits it. -/
def State.wantsCore (s : State) (p u : Nat) : Bool :=
  let x := s.unit u
  decide (x.pkg = p) && decide (x.level = 1) && x.waits && !s.carried x && (s.siteFor u).isNone
/-- R305: a core's teams receive their deadlines. -/
def State.request305 (s : State) (p : Nat) (core : Site) : State :=
  let t := s.dieCount p core
  let s := s.modPkg p (fun q => { q with preq := Sparse.put q.preq core.loc t })
  (s.teamsOn p core).foldl (fun s e =>
    s.modUnit e.1 (fun x => { x with yielded := false, forced := false, deadline := some (t + (s.grid x.grid).yielddl) })) s
/-- `PREEMPTION_REQUEST` (R305, R390, R391). -/
def execPreemptionRequest (p core : Nat) (s : State) : Out :=
  let site := siteOfLoc core
  let q := s.pkg p
  if core < 2048 ∧ s.units.any (fun e => s.wantsCore p e.1 && decide (s.preemptCore e.1 = some site)) = true
      ∧ 0 < q.poolCount ∧ (s.teamsOn p site).length ≤ q.poolFree then .next (s.request305 p site)
  else .fault (.notEnabled "PREEMPTION_REQUEST")
/-- Every lane of a team has exited. -/
def State.teamExited (s : State) (u : Nat) : Bool := (s.ownCtxs u).all (fun e => e.2.liveLanes.isEmpty)
/-- R52: a request whose teams have all exited is withdrawn. -/
def State.withdrawRequest (s : State) (p core : Nat) : State :=
  let s1 := s.modPkg p (fun q => { q with preq := Sparse.del q.preq core })
  (s.teamsOn p (siteOfLoc core)).foldl (fun s e =>
    s.modUnit e.1 (fun x => { x with yielded := false, forced := false, deadline := none })) s1
/-- `FORCED_YIELD` (R306): in the tick after the deadline's own, in which a `YIELD` still wins. -/
def execForcedYield (u : Nat) (s : State) : Out :=
  let x := s.unit u
  match x.deadline with
  | some t =>
    if x.level = 1 ∧ x.st = .running ∧ x.yielded = false ∧ x.forced = false ∧ t < s.dieCount x.pkg x.site ∧ s.clockRuns x.pkg x.site = true
    then .next (s.modUnit u (fun x => { x with forced := true }))
    else .fault (.notEnabled "FORCED_YIELD")
  | none => .fault (.notEnabled "FORCED_YIELD")

/-! ### The swap and the spill (R307, R388, R391) -/

/-- A core still spills what an earlier swap took out. -/
def State.spilling (s : State) (p : Nat) (core : Site) : Bool :=
  s.units.any (fun e => decide (e.2.pkg = p) && decide (e.2.level = 1) && decide (e.2.st = .swapped false) && decide (e.2.site = core))
/-- R307, R391: a core may swap. -/
def State.maySwap (s : State) (p core : Nat) : Bool :=
  let site := siteOfLoc core
  let l := s.teamsOn p site
  (Sparse.find (s.pkg p).preq core).isSome && !l.isEmpty
    && l.all (fun e => decide (e.2.st = .running) && (e.2.yielded || e.2.forced) && !s.teamExited e.1)
    && !(s.pkg p).hq.any (fun h => decide (h.1 = core)) && (s.handlersAt p site).isEmpty && !s.spilling p site
    && s.clockRuns p site && decide (l.length ≤ (s.pkg p).poolFree)
/-- R73, R94, R307: a team leaves its core. -/
def State.swapOut (s : State) (u : Nat) : State :=
  let s := s.takeAreas u ((s.pkg (s.unit u).pkg).freeAreas.take 1)
  let s := s.modUnit u (fun x => { x with st := .swapped false, yielded := false, forced := false, deadline := none })
  (s.ownCtxs u).foldl (fun s e => s.modCtx e.1 (fun c =>
    { c.revertHints.unheld with pos := none, staged := [], readySince := none })) s
/-- `SHADOW_BANK_SWAP` (R307, R391). -/
def execShadowBankSwap (p core : Nat) (s : State) : Out :=
  if ¬ s.maySwap p core then .fault (.notEnabled "SHADOW_BANK_SWAP")
  else
    let s1 := (s.teamsOn p (siteOfLoc core)).foldl (fun s e => s.swapOut e.1) s
    .next (s1.modPkg p (fun q => { q with
      preq := Sparse.del q.preq core, swapEnd := Sparse.put q.swapEnd core (s.cycle + 48) }))
/-- R172: the array folio of a group on a site. -/
def Ctx.folio (c : Ctx) (ix : Nat) : List Byte := if c.rq.any RqEntry.inArray then folioBytes c.site.isB ix else []
/-- The folios that a team's groups leave, the first under an index. -/
def State.teamFolios (s : State) (u ix : Nat) : List Folio :=
  ((s.groupsOf u).filter (fun e => e.2.rq.any RqEntry.inArray)).map (fun e =>
    { ix := ix + e.1, isB := e.2.site.isB, passes := e.2.rq.filter RqEntry.inArray })
/-- R183, R389, R391: the context of a team is written to its area. -/
def State.spill (s : State) (u : Nat) : State :=
  let s := s.releaseStore u
  let x := s.unit u
  let n := s.free
  let area := (s.pkg x.pkg).areaAddr (x.areas.headD 0)
  let bs := s.teamArea u (fun k => (s.ctx k).folio (n + k))
  ({ s with free := s.free + s.fresh + 1, folios := s.folios ++ s.teamFolios u n }.mastWrite x.pkg area bs).modUnit u (fun x => { x with st := .swapped true })
/-- `SPILL_COMPLETE` (R307, R388, R391). -/
def execSpillComplete (p core : Nat) (s : State) : Out :=
  let site := siteOfLoc core
  let l := (s.units.filter (fun e => decide (e.2.pkg = p) && decide (e.2.level = 1) && decide (e.2.st = .swapped false)
    && decide (e.2.site = site))).map (·.1)
  if l.isEmpty ∨ ¬ l.all (fun u => s.unitQuiet u true) then .fault (.notEnabled "SPILL_COMPLETE")
  else .next (l.foldl (fun s u => s.spill u) s)

/-! ### Coming back (R391, R392) -/

/-- R171, R391: the engine of a core has block slots for a team that returns to it. -/
def State.slotsFor (s : State) (u : Nat) (core : Site) : Bool :=
  let x := s.unit u
  let mine := fun (b : Bool) => total ((s.groupsOf u).map (·.2)) (fun c => (c.stream b).blocks.length)
  let here := fun (b : Bool) => total ((s.resident x.pkg core).map (·.2)) (fun c => (c.stream b).blocks.length)
  decide (here false + mine false ≤ 8) && decide (here true + mine true ≤ 8)
/-- R227: what a party that comes to a die wrote elsewhere it finds there: the invalidations on their way to the die's cache
arrive. -/
def State.freshDie (s : State) (p : Nat) (x : Site) : State := s.thaw (fun q y => decide (q = p) && decide (y.die = x.walkDie))
/-- R392 step 5, R399: a group that a move stopped goes on, or a halt that arrived during the move takes effect. -/
def State.endMove (s : State) (k : Nat) : State :=
  let c := s.ctx k
  if ¬ c.trapped ∨ c.inHdl = true ∨ (c.frame.cause ≠ 0 ∧ c.frame.cause ≠ 4) then s
  else
    let s := s.modCtx k (fun c => { c with trapped := false, frame := {} })
    if c.haltPend then (s.stopGroup k).traceStop k 7 else s.reinject k
/-- R392 step 5, R397: a sequencer goes on after a move. -/
def State.endMoveSeq (s : State) (k : Nat) : State :=
  let c := s.ctx k
  if c.haltPend then s.modCtx k (fun c => { c with halted := true, haltPend := false })
  else if c.halted then s else s.reinject k
/-- A group that has its core again: one that a trap stopped joins the handler queue, and one that is not stopped replays what is
parked. -/
def State.resumeSeated (s : State) (k : Nat) : State :=
  let c := s.ctx k
  if c.trapped ∧ c.frame.cause ≠ 0 ∧ c.frame.cause ≠ 4 then s.joinQueue k
  else if c.trapped then s.endMove k
  else if c.halted then s
  else (s.modCtx k (fun c => { c with frame := {} })).reinject k
/-- A team takes a core again: its groups are seated in field-1 order and go on; the team acquires at L4. -/
def State.reseat (s : State) (u : Nat) (pl : Place) : State :=
  let gs := ((s.groupsOf u).filter (fun e => e.2.placed && !e.2.retired)).map (·.1)
  let s := s.modUnit u (fun x => { x with st := .running, site := pl.1, split := pl.2.1, anyDie := false, placedAt := s.cycle })
  let s := gs.foldl (fun s k => s.modCtx k (fun c => { c with placed := false })) s
  let s := gs.foldl (fun s k => s.seat k) s
  let s := match (s.unit u).seqCtx with | some k => s.modCtx k (fun c => { c with site := pl.1 }) | none => s
  let s := gs.foldl (fun s k => s.resumeSeated k) s
  let s := match (s.unit u).seqCtx with | some k => s.endMoveSeq k | none => s
  let s := (s.ownCtxs u).foldl (fun s e => s.acquire e.2 4) (s.freshDie (s.unit u).pkg pl.1)
  s.freeAreas u
/-- `TEAM_RESTORE` (R172, R289, R391). -/
def execTeamRestore (u : Nat) (s : State) : Out :=
  let x := s.unit u
  match (if x.st = .swapped true ∧ s.firstInLine u = true then s.siteFor u else none) with
  | some pl => if s.slotsFor u pl.1 then .next (s.reseat u pl) else .fault (.notEnabled "TEAM_RESTORE")
  | none => .fault (.notEnabled "TEAM_RESTORE")

/-! ### Migration (R242, R392) -/

/-- The units that a move takes along, teams first. -/
def State.moveUnits (s : State) (u : Nat) : List Nat := s.movedTeams u ++ (if (s.unit u).level = 1 then [] else [u])
/-- R242, R392 step 2: the moving unit waits for nothing more, its release at L4 among it (R185, R22). -/
def State.moveReady (s : State) (u : Nat) : Bool :=
  (s.moveUnits u).all (fun x => s.unitQuiet x false && !s.beingServed x && (s.ownCtxs x).all (fun e => s.mayRelease e.2 4)
    && (decide (x = u) || decide ((s.unit x).st = .running)))
/-- R242, R392 steps 2 and 3: a unit leaves its place: shadow words merge, a release at L4, and its hold on its die ends. -/
def State.leave (s : State) (u : Nat) (anyDie : Bool) : State :=
  let s := (s.ownCtxs u).foldl (fun s e => s.release e.2 4) s
  let ks := (s.ownCtxs u).map (·.1)
  let s := s.modPkg (s.unit u).pkg (fun p => { p with hq := p.hq.filter (fun h => !ks.contains h.2) })
  let s := s.modUnit u (fun x => { x with st := .moving true, site := { mast := true }, anyDie := anyDie, yielded := false, forced := false, deadline := none })
  ks.foldl (fun s k => s.modCtx k (fun c => { c.revertHints.unheld with
    site := { mast := true }, pos := none, staged := [], readySince := none })) s
/-- The cluster memory of a unit, half by half. -/
def State.halves (s : State) (u : Nat) : List (List Byte) :=
  let x := s.unit u
  let n := (s.grid x.grid).clmem * 65536
  if x.level = 1 then [] else
    Sparse.getRun 0 x.store 0 n :: (if x.split then [Sparse.getRun 0 x.store (2 ^ 22) n] else [])
/-- R389, R392 step 3: areas written, one after another. -/
def State.writeAreas (s : State) (p : Nat) (l : List (Nat × List Byte)) : State :=
  l.foldl (fun s e => s.mastWrite p ((s.pkg p).areaAddr e.1) e.2) s
/-- R172, R392 step 2: passes that stand frozen in the folios of the unit's teams complete before the unit moves. -/
def State.thawPasses (s : State) (u : Nat) : State :=
  ((s.ctxsUnder u).flatMap (fun k => ((s.ctx k).rq.filter RqEntry.inArray).map (fun _ => k))).foldl
    (fun s k => (s.completePass k).getD s) s
/-- R183, R392 steps 2 and 3: the unit saves its context and gives up its place. -/
def State.move (s : State) (u : Nat) : State :=
  let x := s.unit u
  let s := (s.moveUnits u).foldl (fun s y => s.releaseStore y) (s.thawPasses u)
  let teams := s.movedTeams u
  let areas := (s.pkg x.pkg).freeAreas
  let s := (s.moveUnits u).foldl (fun s y => s.leave y x.anyDie) s
  let s := (teams.zip areas).foldl (fun s e => s.takeAreas e.1 [e.2]) s
  let mem := s.halves u
  let rest := (areas.drop teams.length).take mem.length
  let s := s.takeAreas u rest
  s.writeAreas x.pkg ((teams.zip areas).map (fun e => (e.2, s.teamArea e.1 (fun _ => []))) ++ rest.zip mem)
/-- R392, R424: a unit that a drain would move, and that can never have its areas, stays where it is. -/
def State.stayPut (s : State) (u : Nat) : State :=
  let s := s.modUnit u (fun x => { x with st := .running, anyDie := false, drained := false })
  (s.ctxsUnder u).foldl (fun s k => if (s.ctx k).kind = .seq then s.endMoveSeq k else s.endMove k) s
/-- `MIGRATE_MOVE` (R242, R388, R392 steps 1 to 4): a move that can never have its areas aborts its unit, but one of a drain. -/
def execMigrateMove (u : Nat) (s : State) : Out :=
  let p := s.pkg (s.unit u).pkg
  if (s.unit u).st ≠ .moving false then .fault (.notEnabled "MIGRATE_MOVE")
  else if p.poolCount < s.areasFor u then .next (if (s.unit u).drained then s.stayPut u else s.startAbort u 4)
  else if ¬ s.moveReady u ∨ p.poolFree < s.areasFor u then .fault (.notEnabled "MIGRATE_MOVE")
  else .next (s.move u)
/-- R227, R392 step 5: a cluster unit takes its new clusters; the stores that it keeps of completed teams go with it. -/
def State.reseatCluster (s : State) (u : Nat) (pl : Place) : State :=
  let s := (s.freshDie (s.unit u).pkg pl.1).freshDie (s.unit u).pkg (if pl.2.1 then pl.2.2 else pl.1)
  let s := s.modUnit u (fun x => { x with st := .running, site := pl.1, split := pl.2.1, site2 := pl.2.2, anyDie := false })
  let s := (s.childUnits u).foldl (fun s y => s.modUnit y (fun x => if x.st = .kept then { x with site := namedCore (s.unit u) x.index } else x)) s
  let s := match (s.unit u).seqCtx with
    | some k => (s.modCtx k (fun c => { c with site := pl.1 })).endMoveSeq k
    | none => s
  s.freeAreas u
/-- `MIGRATE_RESTORE` (R392 steps 4 and 5): a moved team, or a moved cluster unit, whose teams then follow one by one. -/
def execMigrateRestore (u : Nat) (s : State) : Out :=
  let x := s.unit u
  match (if x.st = .moving true ∧ s.carried x = false ∧ s.firstInLine u = true then s.siteFor u else none) with
  | some pl =>
    if x.level ≠ 1 then .next (s.reseatCluster u pl)
    else if s.slotsFor u pl.1 then .next (s.reseat u pl) else .fault (.notEnabled "MIGRATE_RESTORE")
  | none => .fault (.notEnabled "MIGRATE_RESTORE")

/-! ### Aborts (R393, R394) -/

/-- The state after an event that happens if it can. -/
def State.attempt (s : State) (f : State → Out) : State := match f s with | .next t => t | _ => s
/-- R393 step 2: what an entry has sent to its performers completes. -/
def State.finishEntry (s : State) (k : Nat) (e : RqEntry) : State :=
  let s := e.caps.foldl (fun s x =>
    let s := s.attempt (fun s => execAccessPerformed k e.id x.1 s)
    let s := s.attempt (fun s => execReduceContribution k e.id x.1 s)
    let s := s.attempt (fun s => execLdxLaneWrite k e.id x.1 s)
    s.attempt (fun s => execBlockArrival k e.id x.1 s)) s
  let s := if e.inArray then s.attempt (fun s => execPassComplete k s) else s
  let s := s.attempt (fun s => execAccrdWriteComplete k e.id s)
  s.attempt (fun s => execCmbputArrival k e.id s)
/-- R393 step 2: what the entries of a context have sent to their performers completes. -/
def State.finishCtx (s : State) (k : Nat) : State := (s.ctx k).rq.foldl (fun s e => s.finishEntry k e) s
/-- R393 step 2: the entries that are left of a context are dropped. -/
def State.dropEntries (s : State) (k : Nat) : State := (s.ctx k).rq.foldl (fun s e => s.dropEntry k e.id) s
/-- The reference by which a team names an object's place (R249). -/
def State.refOf (s : State) (l : Loc) : Nat :=
  match l with
  | .store u o =>
    let x := s.unit u
    if x.level = 1 then (if x.parent = 0 then 0 else x.index % 4) * 2 ^ 19 + o else 2 ^ 24 + o
  | _ => 0
/-- R394: the bytes that an entry has counted into its object; one that has left its queue counted all of them. -/
def State.countedBy (s : State) (k : Nat) (e : RqEntry) : Nat :=
  match (s.ctx k).entry e.id with
  | some x => x.counted
  | none => total e.caps (fun x => x.2.len)
/-- R394: the objects that some entries of contexts name, with the bytes that they have counted into each. -/
def State.objectsOf (s : State) (es : List (Nat × RqEntry)) : List (Loc × Nat) :=
  let ls := ((es.filter (fun e => decide (e.2.obj ≠ .none))).map (fun e => e.2.obj)).eraseDups
  ls.map (fun l => (l, total (es.filter (fun e => decide (e.2.obj = l))) (fun e => s.countedBy e.1 e.2)))
/-- R394: the collectives of a unit that are not complete at their member. -/
def State.openColls (s : State) (u : Nat) : List (Nat × Nat × CollEnt) :=
  let ks := (s.ownCtxs u).map (·.1)
  s.pkgs.flatMap (fun p => (p.2.coll.filter (fun e => e.2.used && ks.contains e.2.ctx)).map (fun e => (p.1, e.1, e.2)))
/-- R394: the abort body, from the entries before step 2, the entries after it, and the state at step 4. -/
def State.abortBody (s : State) (u cause : Nat) (reps : List (List Byte)) (objs : List (Loc × Nat))
    (colls : List (Nat × Nat × CollEnt)) : List Byte :=
  bytesOfNat 8 (2 ^ 56 + colls.length % 256 * 2 ^ 48 + cause % 2 ^ 16 * 2 ^ 32 + reps.length % 256 * 2 ^ 24 + objs.length % 256 * 2 ^ 16)
    ++ bytesOfNat 8 (s.unit u).wid.toNat ++ bytesOfNat 48 0 ++ reps.flatten
    ++ objs.flatMap (fun o => bytesOfNat 4 (s.refOf o.1) ++ bytesOfNat 4 o.2 ++ bytesOfNat 4 (objFld (s.object o.1) 95 64) ++ bytesOfNat 4 0)
    ++ colls.flatMap (fun c => bytesOfNat 4 c.2.2.th.toNat ++ bytesOfNat 4 (c.2.2.ticket c.2.1).toNat
        ++ bytesOfNat 4 c.2.2.chunkCount ++ bytesOfNat 4 c.2.2.chunks.length)
/-- R393: the first trapping PC of a unit, or 0. -/
def State.firstTrapPc (s : State) (u : Nat) : Nat :=
  match leastOf (fun (e : Nat × Ctx) => e.2.frame.time) ((s.ownCtxs u).filter (fun e => decide (e.2.frame.cause ≠ 0))) with
  | some e => e.2.frame.fpc.toNat
  | none => 0
/-- R393 steps 4 and 5: the record, and the end of the unit. -/
def State.recordAbort (s : State) (u cause : Nat) (area : Option Nat) : State :=
  let x := s.unit u
  let p := s.pkg x.pkg
  let asid := (s.grid x.grid).asid
  let r : FRec := { id := 0, asid := asid, gen := p.gen asid, kind := 8, acc := 0, eng := false, src := if x.seq = 0 then 0 else if x.level = 1 then 0 else 1
                    va := s.firstTrapPc u, pte := match area with | some a => BitVec.ofNat 64 (p.areaAddr a) | none => 0
                    mast := x.site.mast, loc := x.site.loc, written := false, area := match area with | some a => a + 1 | none => 0 }
  (s.newFrec x.pkg r).1.endUnit u cause
/-- R393: the abort of a unit. -/
def State.abortUnit (s : State) (u cause : Nat) : State :=
  let es := (s.ownCtxs u).flatMap (fun e => e.2.replayList.map (fun r => (e.1, r)))
  let reps := es.map (fun e => (List.range 8).flatMap (fun j => bytesOfNat 4 ((s.ctx e.1).rqWord e.2 j).toNat))
  let colls := s.openColls u
  let ks := (s.ownCtxs u).map (·.1)
  let s := ks.foldl (fun s k => s.finishCtx k) s
  let names := s.objectsOf es
  let s := ks.foldl (fun s k => s.dropEntries k) s
  let s := s.freeAreas u
  let p := (s.unit u).pkg
  let area := (s.pkg p).freeAreas.head?
  let s := match area with
    | some a => (s.modPkg p (fun q => { q with poolUsed := q.poolUsed ++ [a] })).mastWrite p ((s.pkg p).areaAddr a) (s.abortBody u cause reps names colls)
    | none => s
  let s := colls.foldl (fun s c => s.failColl c.1 c.2.1 0x0F) s
  let s := s.modPkg p (fun q => { q with hq := q.hq.filter (fun h => !ks.contains h.2) })
  (s.recordAbort u cause area).returnCores p
/-- R393: a unit that aborts may do so now: what is below it has gone, no handler serves it, what it has written can travel to
its home (R19, R22), and the pool has an area or none at all. -/
def State.mayAbort (s : State) (u : Nat) : Bool :=
  let x := s.unit u
  let p := s.pkg x.pkg
  let ks := (s.ownCtxs u).map (·.1)
  (s.childUnits u).all (fun y => decide ((s.unit y).st = .kept)) && !s.beingServed u
    && p.early.all (fun e => !ks.contains e.ctx || (s.clockRuns x.pkg { die := e.die } && s.carries x.pkg (.hbm e.key) e.bytes.length))
    && (decide (p.poolCount = 0) || decide (p.poolUsed.length - (s.unit u).areas.length < p.poolCount))
/-- `TEAM_ABORT` (R53, R369, R393, R394). -/
def execTeamAbort (u : Nat) (s : State) : Out :=
  match (s.unit u).st with
  | .aborting cause => if s.mayAbort u then .next (s.abortUnit u cause) else .fault (.notEnabled "TEAM_ABORT")
  | _ => .fault (.notEnabled "TEAM_ABORT")

/-! ### The barrier of a split cluster (R49) -/

/-- The groups of one half of a split cluster unit that take part in its barrier. -/
def State.halfGroups (s : State) (u half : Nat) : List (Nat × Ctx) :=
  let ts := (s.childUnits u).filter (fun y => decide ((s.unit y).index % 4 / 2 = half))
  s.ctxs.filter (fun e => decide (e.2.kind = .group) && !e.2.retired && ts.contains e.2.unit)
/-- A group's lanes that have arrived at a level. -/
def Ctx.arrivals (c : Ctx) (k : Nat) : Word := Sparse.get 0 c.arrived k
/-- The lanes of a context that have exited. -/
def Ctx.exitedLanes (c : Ctx) : List Nat := lanesOf c.exitedMask
/-- R245: the lanes of context k that have exited have released at a level: what they accessed has come far enough. -/
def State.exitsReleased (s : State) (k lvl : Nat) : Bool :=
  let c := s.ctx k
  (c.unperformed k c.exitedLanes (s.reach c lvl)).isEmpty && (decide (c.exitedMask = 0) || s.mayRelease c lvl)
/-- R245, R293: every lane of some groups has arrived at a level, or exited and released. -/
def State.allArrived (s : State) (l : List (Nat × Ctx)) (k : Nat) : Bool :=
  l.all (fun e => e.2.liveLanes.all (fun n => (e.2.arrivals k).getLsbD n) && s.exitsReleased e.1 k)
/-- A lane of some groups waits in a barrier. -/
def anyArrived (l : List (Nat × Ctx)) (k : Nat) : Bool := l.any (fun e => decide (e.2.arrivals k ≠ 0))
/-- `BAR_BRIDGE_ARRIVAL` (R49). -/
def execBarBridgeArrival (u half : Nat) (s : State) : Out :=
  let l := s.halfGroups u half
  if 2 ≤ half ∨ (s.unit u).split = false ∨ (s.unit u).halves.getLsbD half = true ∨ anyArrived l 2 = false ∨ s.allArrived l 2 = false then
    .fault (.notEnabled "BAR_BRIDGE_ARRIVAL")
  else
    let s := s.modUnit u (fun x => { x with halves := x.halves ||| (1#2 <<< half) })
    .next (l.foldl (fun s e => if e.2.arrivals 2 = 0 then s else s.modCtx e.1 (fun c => { c with phase2 := true })) s)

/-! ### Eviction of a shadow line (R187) -/

/-- `SHADOW_LINE_EVICT` (R187): the words of one die's shadow line merge. -/
def execShadowLineEvict (p die line : Nat) (s : State) : Out :=
  let f := fun (x : ShadowWord) => decide (x.die = die) && decide (x.key / 64 = line)
  if (s.pkg p).shadows.any f && s.mergeable p f then .next (s.mergeShadows p f) else .fault (.notEnabled "SHADOW_LINE_EVICT")

end Sys2Proof.Machine
end

