-- ==== Sys2Proof/Machine/App.lean ====
section
/-! DEFINITION. Accesses of the application cores (R9, R13, R20, R21, R325 to R328, R350, R419). -/

namespace Sys2Proof.Machine

/-- Where an address of a hart leads: memory, or an offset of the service register window (R13, R327); or the exception
that the hart takes. -/
inductive AppPlace
  | mem (l : Loc)
  | window (off : Nat)
  | bad (e : HartEnd)
  deriving DecidableEq, Repr

/-- The first address of the service register window, and its size (R13). -/
def windowBase : Nat := 0x00F000000000
/-- The U bit of a leaf lets a hart's privilege use it: user mode needs it, and supervisor mode without SUM must not find
it. -/
def mayUse (pv : AppPriv) (e : DWord) : Bool :=
  match pv with
  | .user => e.getLsbD 4
  | .super sum => sum || !e.getLsbD 4
/-- The exception of a hart whose access a leaf turns away. -/
def appFault (r : XRes) : HartEnd := match r with | .park .. => .pageFault | _ => .accessFault
/-- R13, R20, R327: the place of an address under an ASID's tables, for a hart of a package.  The walk is the device's
(R20). -/
def State.appPlace (s : State) (p : Nat) (pv : AppPriv) (asid va : Nat) (k : AccKind) : AppPlace :=
  let r := s.asidEntry p asid
  if 2 ^ 57 ≤ va ∨ asidEntryOk r = false then .bad .pageFault
  else match s.walkFrom p va 4 (bits r.1 43 0) [] with
    | .fault .. => .bad .pageFault
    | .leaf e level _ =>
      if ¬ mayUse pv e then .bad .pageFault
      else
        let e := e ||| 0x10
        let pa := leafPa e (12 + 9 * level) va
        if bits e 60 58 = 0 ∧ windowBase ≤ pa ∧ pa < windowBase + 0x10000 then
          match s.judge p (putBits (putBits e 62 61 0) 60 58 2) pa k false with
          | .ok .. => if bits e 62 61 = 2 then .window (pa - windowBase) else .bad .accessFault
          | x => .bad (appFault x)
        else match s.judge p e pa k false with
          | .ok l _ => .mem l
          | x => .bad (appFault x)
/-- The pieces of memory of a span of a hart, or the exception at its first page that has one; a window is no memory. -/
def State.appSpan (s : State) (p : Nat) (pv : AppPriv) (asid va n : Nat) (k : AccKind) : Except HartEnd (List (Loc × Nat)) :=
  (pagesOf va n).foldl (fun (r : Except HartEnd (List (Loc × Nat))) a =>
    match r with
    | .ok l => (match s.appPlace p pv asid a k with
      | .mem o => .ok (l ++ [(o, min (va + n - a) (4096 - a % 4096))])
      | .window _ => .error .accessFault
      | .bad e => .error e)
    | e => e) (.ok [])
/-- The mast die as a sharer of a package's lines (R20, R258). -/
def mastSharer (p : Nat) : Nat := p * 16 + 8
/-- Pieces of memory read by a hart: the mast cache fills their lines. -/
def State.appRead (s : State) (p : Nat) (l : List (Loc × Nat)) : State × List Byte :=
  l.foldl (fun (r : State × List Byte) x =>
    let t := r.1.homeRead x.1 x.2
    (match x.1 with
      | .hbm k => (lineKeys k x.2).foldl (fun s key => s.dieFill p { mast := true } key) t.1
      | _ => t.1, r.2 ++ t.2)) (s, [])
/-- Bytes written by a hart to pieces of memory; the lines of another package pass through the mast cache (R258). -/
def State.appWrite (s : State) (p : Nat) (l : List (Loc × Nat)) (bs : List Byte) : State :=
  (l.foldl (fun (r : State × List Byte) x =>
    ((r.1.peerFill p { mast := true } x.1 x.2).homeWrite none (some (mastSharer p)) x.1 (r.2.take x.2), r.2.drop x.2)) (s, bs)).1
/-- The bits of a register that a write of the other half leaves as they are: all but what is written to act or to
clear. -/
def keptHalf (off : Nat) : DWord :=
  if off = 0x0620 ∨ off = 0x0640 ∨ off = 0x0708 ∨ off = 0x0710 ∨ off = 0x0800 ∨ off = 0x0F00 ∨ off = 0x1000 ∨ off = 0x1100 then 0
  else if off = 0x0630 then 0x9FFFFFFFFFFFFFFF
  else if off = 0x0E08 then 0x9FFFFFFFFFFFFFFF
  else if 0x0D00 ≤ off ∧ off < 0x0E00 then 0
  else if 0x0F10 ≤ off ∧ off < 0x0F50 then 0xEFFFFFFFFFFFFFFF
  else if 0x0F80 ≤ off ∧ off < 0x0FC0 then 0xF7FFFFFFFFFFFFFF
  else 0xFFFFFFFFFFFFFFFF
/-- R419: a store of 4 or 8 bytes to the window by the operating system's master. -/
def State.windowStore (s : State) (p off n : Nat) (v : DWord) : State :=
  if n = 8 then s.served p 0 off v
  else
    let o := off / 8 * 8
    let kept := (s.pkg p).reg o &&& keptHalf o
    s.served p 0 o (if off % 8 = 0 then putBits kept 31 0 v.toNat else putBits kept 63 32 v.toNat)
/-- R419: a load of 4 or 8 bytes from the window. -/
def State.windowLoad (s : State) (p off n : Nat) : DWord :=
  let v := s.regRead p (off / 8 * 8)
  if n = 8 then v else BitVec.ofNat 64 (v.toNat / 2 ^ (8 * (off % 8)) % 2 ^ 32)
/-- The new value of an atomic of a hart on n bytes; none for an operation that RISC-V does not have. -/
def appAtomic (op : AtomOp) (n : Nat) (old v : Nat) : Option Nat :=
  let a := signedOf (2 ^ (8 * n)) old
  let b := signedOf (2 ^ (8 * n)) v
  match op with
  | .add => some ((old + v) % 2 ^ (8 * n))
  | .and => some (old &&& v)
  | .or => some (old ||| v)
  | .xor => some (old ^^^ v)
  | .min => some (if b < a then v else old)
  | .max => some (if a < b then v else old)
  | .minU => some (min old v)
  | .maxU => some (max old v)
  | .exch => some v
  | .fadd => none
/-- Hart h of package p. -/
def State.hart (s : State) (p h : Nat) : Hart := (Sparse.find (s.pkg p).harts h).getD {}
/-- Hart h of package p changed. -/
def State.modHart (s : State) (p h : Nat) (f : Hart → Hart) : State :=
  s.modPkg p (fun q => { q with harts := Sparse.put q.harts h (f ((Sparse.find q.harts h).getD {})) })
/-- A hart's access ends. -/
def State.hartEnd (s : State) (p h : Nat) (e : HartEnd) : State := s.modHart p h (fun x => { x with last := e })
/-- The place of an aligned atomic access of n bytes by a hart, in memory that the package holds. -/
def State.atomicPlace (s : State) (p : Nat) (pv : AppPriv) (asid a n : Nat) (k : AccKind) : Except HartEnd Loc :=
  if a % n ≠ 0 then .error .misaligned
  else match s.appPlace p pv asid a k with
    | .mem l => .ok l
    | .window _ => .error .accessFault
    | .bad e => .error e
/-- The site from which the application cores' requests come. -/
def mastSite : Site := { mast := true }
/-- An access of a hart once its place is known: its request must travel (R19, R22). -/
def hartAccess (s : State) (p h : Nat) (r : Except HartEnd (List (Loc × Nat))) (go : List (Loc × Nat) → State × HartEnd) : Out :=
  match r with
  | .error e => .next (s.hartEnd p h e)
  | .ok l => if s.travels p mastSite l then let t := go l; .next (t.1.hartEnd p h t.2) else .fault (.notEnabled "APPLICATION_CORE_ACCESS")
/-- An access of a hart to the service register window (R13, R350, R419). -/
def windowAccess (s : State) (p h off n : Nat) (go : State × HartEnd) : Out :=
  if ¬ ((n = 4 ∨ n = 8) ∧ off % n = 0) ∨ (s.pkg p).frozen 0 = true then .next (s.hartEnd p h .accessFault)
  else if (s.pkg p).takes 0 then .next (go.1.hartEnd p h go.2) else .fault (.notEnabled "APPLICATION_CORE_ACCESS")
/-- `APPLICATION_CORE_ACCESS` (R13, R20, R21, R350, R419): an access that faults is the hart's own exception.  Its stores are
performed at the home at once, so that what a `FENCE` or an annotation orders is performed already. -/
def execApplicationCoreAccess (p hart asid : Nat) (va : DWord) (req : AppReq) (s : State) : Out :=
  if 16 ≤ hart ∨ 65536 ≤ asid ∨ (s.pkg p).fld 0x0018 15 8 ≠ 0 then .fault (.notEnabled "APPLICATION_CORE_ACCESS")
  else
    let a := va.toNat
    let pv := req.priv
    let value := fun (bs : List Byte) => HartEnd.done (BitVec.ofNat 64 (natOfBytes bs))
    match req.op with
    | .fence .. => .next s
    | .load sz =>
      (match s.appPlace p pv asid a .read with
      | .window off => windowAccess s p hart off sz.bytes
          (let t := s.readBy p 0 (off / 8 * 8); (t, .done (t.windowLoad p off sz.bytes)))
      | _ => hartAccess s p hart (s.appSpan p pv asid a sz.bytes .read) (fun l => let r := s.appRead p l; (r.1, value r.2)))
    | .store sz v =>
      (match s.appPlace p pv asid a .write with
      | .window off => windowAccess s p hart off sz.bytes (s.windowStore p off sz.bytes v, .done 0)
      | _ => hartAccess s p hart (s.appSpan p pv asid a sz.bytes .write) (fun l => (s.appWrite p l (bytesOfNat sz.bytes v.toNat), .done 0)))
    | .amo o wide v _ _ =>
      let n := if wide then 8 else 4
      if o = .fadd then .fault (.notEnabled "APPLICATION_CORE_ACCESS")
      else hartAccess s p hart ((s.atomicPlace p pv asid a n .atomic).map (fun l => [(l, n)])) (fun l =>
        let r := s.appRead p l
        (r.1.appWrite p l (bytesOfNat n ((appAtomic o n (natOfBytes r.2) (v.toNat % 2 ^ (8 * n))).getD 0)), value r.2))
    | .lr wide _ _ =>
      let n := if wide then 8 else 4
      hartAccess s p hart ((s.atomicPlace p pv asid a n .read).map (fun l => [(l, n)])) (fun l =>
        let r := s.appRead p l
        (r.1.modHart p hart (fun h => { h with resv := match l with | (.hbm k, _) :: _ => some (k / 64) | _ => none }), value r.2))
    | .sc wide v _ _ =>
      let n := if wide then 8 else 4
      hartAccess s p hart ((s.atomicPlace p pv asid a n .atomic).map (fun l => [(l, n)])) (fun l =>
        let held := match l with | (.hbm k, _) :: _ => decide ((s.hart p hart).resv = some (k / 64)) | _ => false
        let t := if held then s.appWrite p l (bytesOfNat n v.toNat) else s
        (t.modHart p hart (fun h => { h with resv := none }), .done (if held then 0 else 1)))

end Sys2Proof.Machine
end

