-- ==== Sys2Proof/Machine/Pred.lean ====
section
/-! DEFINITION. Compare and predicate instructions, majors 0x14 to 0x16 (R144, R145). -/

namespace Sys2Proof.Machine

/-- A value pushed in each acting lane (R59). -/
def pushLanes (i : Instr) (s : State) (f : Ctx → Nat → Bool) : Out :=
  perLane i s (fun c l c' => c'.push l (f c l))

/-- The condition of `ICMP` (R144). -/
def icond (cc : ICond) (x y : Word) : Bool :=
  match cc with
  | .eq => x == y | .ne => x != y
  | .lt => x.slt y | .le => x.sle y | .gt => y.slt x | .ge => y.sle x
  | .ltU => x.ult y | .leU => x.ule y | .gtU => y.ult x | .geU => y.ule x
/-- `ICMP` (R144). -/
def execIcmp (g : Guard) (a b : Nat) (cc : ICond) (s : State) : Out :=
  pushLanes (.icmp g a b cc) s (fun c l => icond cc (c.rdV a l) (c.rdV b l))
/-- The condition of `FCMP` (R144). -/
def fcond (cc : FCond) (x y : FVal) : Bool :=
  let un := x.isNaN || y.isNaN
  match cc with
  | .eq => eqV x y | .ne => un || !eqV x y
  | .lt => ltV x y | .le => ltV x y || eqV x y | .gt => ltV y x | .ge => ltV y x || eqV x y
  | .un => un | .ord => !un
/-- `FCMP` (R144). -/
def execFcmp (g : Guard) (a b : Nat) (cc : FCond) (s : State) : Out :=
  pushLanes (.fcmp g a b cc) s (fun c l => fcond cc (f32 (c.rdV a l)) (f32 (c.rdV b l)))

/-- `PPUSH` (R145). -/
def execPpush (g : Guard) (a : Nat) (s : State) : Out :=
  pushLanes (.ppush g a) s (fun c l => c.rdV a l != 0)
/-- The predicate register of each acting lane replaced. -/
def predLanes (i : Instr) (s : State) (f : BitVec 8 → BitVec 8) : Out :=
  perLane i s (fun c l c' => c'.modLane l (fun x => { x with pred := f (c.lane l).pred }))
/-- `PPOP` (R145). -/
def execPpop (g : Guard) (s : State) : Out := predLanes (.ppop g) s (fun p => p >>> 1)
/-- `PDUP` (R145). -/
def execPdup (g : Guard) (i : Nat) (s : State) : Out := pushLanes (.pdup g i) s (fun c l => c.pred l i)
/-- Bits 0 and i of a predicate register exchanged. -/
def swapPred (i : Nat) (p : BitVec 8) : BitVec 8 :=
  ((List.range 8).filter (fun k => if k = 0 then p.getLsbD i else if k = i then p.getLsbD 0 else p.getLsbD k)).foldl
    (fun m k => m ||| (1#8 <<< k)) 0#8
/-- `PSWAP` (R145). -/
def execPswap (g : Guard) (i : Nat) (s : State) : Out := predLanes (.pswap g i) s (swapPred i)
/-- `PNOT` (R145). -/
def execPnot (g : Guard) (i : Nat) (s : State) : Out := pushLanes (.pnot g i) s (fun c l => !c.pred l i)
/-- `PAND` (R145). -/
def execPand (g : Guard) (i j : Nat) (s : State) : Out :=
  pushLanes (.pand g i j) s (fun c l => c.pred l i && c.pred l j)
/-- `POR` (R145). -/
def execPor (g : Guard) (i j : Nat) (s : State) : Out :=
  pushLanes (.por g i j) s (fun c l => c.pred l i || c.pred l j)
/-- `PXOR` (R145). -/
def execPxor (g : Guard) (i j : Nat) (s : State) : Out :=
  pushLanes (.pxor g i j) s (fun c l => c.pred l i != c.pred l j)
/-- `PROT` (R145): new p_k is the old p_((k+i) mod 8). -/
def execProt (g : Guard) (i : Nat) (s : State) : Out := predLanes (.prot g i) s (fun p => p.rotateRight i)
/-- `PTOV` (R145). -/
def execPtov (g : Guard) (d i : Nat) (s : State) : Out :=
  perLane (.ptov g d i) s (fun c l c' => c'.wrV d l (if c.pred l i then 1 else 0))
/-- `VOTE.any` (R145): over the cohort's lanes whose guard is true. -/
def execVoteAny (g : Guard) (i : Nat) (s : State) : Out :=
  gate (.voteAny g i) s (fun s c act =>
    .ok (s.modCtx s.cur.ctx (fun c' => c'.pushAll act (act.any (fun l => c.pred l i)))))
/-- `VOTE.all` (R145). -/
def execVoteAll (g : Guard) (i : Nat) (s : State) : Out :=
  gate (.voteAll g i) s (fun s c act =>
    .ok (s.modCtx s.cur.ctx (fun c' => c'.pushAll act (act.all (fun l => c.pred l i)))))
/-- `VOTE.ballot` (R145). -/
def execVoteBallot (g : Guard) (d i : Nat) (s : State) : Out :=
  gate (.voteBallot g d i) s (fun s c act =>
    let m := maskOf (act.filter (fun l => c.pred l i))
    .ok (s.modCtx s.cur.ctx (fun c' => act.foldl (fun c' l => c'.wrV d l m) c')))

end Sys2Proof.Machine
end

