-- ==== Sys2Proof/Machine/Uniform.lean ====
section
/-! DEFINITION. Group-uniform instructions of majors 0x18 and 0x19 (R131, R146, R147). -/

namespace Sys2Proof.Machine

/-- g_d written once per issue with a value of the leader lane. -/
def uniformWrite (i : Instr) (d : Nat) (s : State) (f : Ctx → Nat → Word) : Out :=
  oncePerIssue i s (fun s c l _ => .ok (s.modCtx s.cur.ctx (fun c' => c'.wrG d (f c l))))
/-- g_d ← f A B over uniform operands. -/
def uniBin (i : Instr) (d a b : Nat) (s : State) (f : Word → Word → Word) : Out :=
  uniformWrite i d s (fun c _ => f (c.rdG a) (c.rdG b))

/-- `GMOV` (R146). -/
def execGmov (g : Guard) (d a : Nat) (s : State) : Out :=
  perLane (.gmov g d a) s (fun c l c' => c'.wrV d l (c.rdG a))
/-- `GADD` (R146). -/
def execGadd (g : Guard) (d a b : Nat) (s : State) : Out := uniBin (.gadd g d a b) d a b s (fun x y => x + y)
/-- `GSUB` (R146). -/
def execGsub (g : Guard) (d a b : Nat) (s : State) : Out := uniBin (.gsub g d a b) d a b s (fun x y => x - y)
/-- `GMUL` (R146). -/
def execGmul (g : Guard) (d a b : Nat) (s : State) : Out := uniBin (.gmul g d a b) d a b s (fun x y => x * y)
/-- `GAND` (R146). -/
def execGand (g : Guard) (d a b : Nat) (s : State) : Out := uniBin (.gand g d a b) d a b s (fun x y => x &&& y)
/-- `GOR` (R146). -/
def execGor (g : Guard) (d a b : Nat) (s : State) : Out := uniBin (.gor g d a b) d a b s (fun x y => x ||| y)
/-- `GSHL` (R146). -/
def execGshl (g : Guard) (d a b : Nat) (s : State) : Out := uniBin (.gshl g d a b) d a b s shlW
/-- `GSHR` (R146). -/
def execGshr (g : Guard) (d a b : Nat) (s : State) : Out := uniBin (.gshr g d a b) d a b s shrW
/-- The condition of `GCMP` (R146): signed. -/
def gcond (cc : GCond) (x y : Word) : Bool :=
  match cc with | .eq => x == y | .ne => x != y | .lt => x.slt y | .ge => y.sle x
/-- `GCMP` (R146). -/
def execGcmp (g : Guard) (a b : Nat) (c : GCond) (s : State) : Out :=
  gate (.gcmp g a b c) s (fun s x act =>
    .ok (s.modCtx s.cur.ctx (fun c' => c'.pushAll act (gcond c (x.rdG a) (x.rdG b)))))
/-- `GREAD` (R146): the leader lane's value. -/
def execGread (g : Guard) (d a : Nat) (s : State) : Out :=
  uniformWrite (.gread g d a) d s (fun c l => c.rdV a l)
/-- `GMOVI` (R147): the leader lane's wide hint extends the immediate (R432). -/
def execGmovi (g : Guard) (d : Nat) (imm : Int) (s : State) : Out :=
  uniformWrite (.gmovi g d imm) d s (fun c l => BitVec.ofInt 32 (wideImm 16 imm (c.lane l).hints))

end Sys2Proof.Machine
end

