-- ==== Sys2Proof/Machine/Dispatch.lean ====
section
/-! DEFINITION. The dispatch: one arm for each constructor of Instr, one direct call of its meaning. -/

namespace Sys2Proof.Machine

/-- The meaning of an instruction or event in a state. -/
def exec (i : Instr) (s : State) : Host.Outcome State Fault Refusal :=
  match i with
  | .iadd g d a b => Sys2Proof.Machine.execIadd g d a b s
  | .isub g d a b => Sys2Proof.Machine.execIsub g d a b s
  | .imul g d a b => Sys2Proof.Machine.execImul g d a b s
  | .imulhi g d a b => Sys2Proof.Machine.execImulhi g d a b s
  | .imulhiU g d a b => Sys2Proof.Machine.execImulhiU g d a b s
  | .imad g d a b => Sys2Proof.Machine.execImad g d a b s
  | .imin g d a b => Sys2Proof.Machine.execImin g d a b s
  | .iminU g d a b => Sys2Proof.Machine.execIminU g d a b s
  | .imax g d a b => Sys2Proof.Machine.execImax g d a b s
  | .imaxU g d a b => Sys2Proof.Machine.execImaxU g d a b s
  | .iadds g d a b => Sys2Proof.Machine.execIadds g d a b s
  | .iaddsU g d a b => Sys2Proof.Machine.execIaddsU g d a b s
  | .isubs g d a b => Sys2Proof.Machine.execIsubs g d a b s
  | .isubsU g d a b => Sys2Proof.Machine.execIsubsU g d a b s
  | .idot4 g d a b => Sys2Proof.Machine.execIdot4 g d a b s
  | .lea g d a b => Sys2Proof.Machine.execLea g d a b s
  | .iabs g d a => Sys2Proof.Machine.execIabs g d a s
  | .ineg g d a => Sys2Proof.Machine.execIneg g d a s
  | .and g d a b => Sys2Proof.Machine.execAnd g d a b s
  | .or g d a b => Sys2Proof.Machine.execOr g d a b s
  | .xor g d a b => Sys2Proof.Machine.execXor g d a b s
  | .andn g d a b => Sys2Proof.Machine.execAndn g d a b s
  | .not g d a => Sys2Proof.Machine.execNot g d a s
  | .shl g d a b => Sys2Proof.Machine.execShl g d a b s
  | .shr g d a b => Sys2Proof.Machine.execShr g d a b s
  | .sar g d a b => Sys2Proof.Machine.execSar g d a b s
  | .rotl g d a b => Sys2Proof.Machine.execRotl g d a b s
  | .popc g d a => Sys2Proof.Machine.execPopc g d a s
  | .clz g d a => Sys2Proof.Machine.execClz g d a s
  | .brev g d a => Sys2Proof.Machine.execBrev g d a s
  | .sel g d a b => Sys2Proof.Machine.execSel g d a b s
  | .mov g d a => Sys2Proof.Machine.execMov g d a s
  | .iaddImm g d a imm => Sys2Proof.Machine.execIaddImm g d a imm s
  | .bfx g d a pos len => Sys2Proof.Machine.execBfx g d a pos len s
  | .bfi g d a pos len => Sys2Proof.Machine.execBfi g d a pos len s
  | .movi g d imm => Sys2Proof.Machine.execMovi g d imm s
  | .movhi g d imm => Sys2Proof.Machine.execMovhi g d imm s
  | .fadd g d a b => Sys2Proof.Machine.execFadd g d a b s
  | .fsub g d a b => Sys2Proof.Machine.execFsub g d a b s
  | .fmul g d a b => Sys2Proof.Machine.execFmul g d a b s
  | .ffma g d a b => Sys2Proof.Machine.execFfma g d a b s
  | .fmin g d a b => Sys2Proof.Machine.execFmin g d a b s
  | .fmax g d a b => Sys2Proof.Machine.execFmax g d a b s
  | .fabs g d a => Sys2Proof.Machine.execFabs g d a s
  | .fneg g d a => Sys2Proof.Machine.execFneg g d a s
  | .fcpys g d a b => Sys2Proof.Machine.execFcpys g d a b s
  | .fclass g d a => Sys2Proof.Machine.execFclass g d a s
  | .frcp g d a => Sys2Proof.Machine.execFrcp g d a s
  | .frsq g d a => Sys2Proof.Machine.execFrsq g d a s
  | .fsqrt g d a => Sys2Proof.Machine.execFsqrt g d a s
  | .fexp2 g d a => Sys2Proof.Machine.execFexp2 g d a s
  | .flog2 g d a => Sys2Proof.Machine.execFlog2 g d a s
  | .ftanh g d a => Sys2Proof.Machine.execFtanh g d a s
  | .hfma2Bf g d a b => Sys2Proof.Machine.execHfma2Bf g d a b s
  | .hfma2H g d a b => Sys2Proof.Machine.execHfma2H g d a b s
  | .hadd2Bf g d a b => Sys2Proof.Machine.execHadd2Bf g d a b s
  | .hadd2H g d a b => Sys2Proof.Machine.execHadd2H g d a b s
  | .hmul2Bf g d a b => Sys2Proof.Machine.execHmul2Bf g d a b s
  | .hmul2H g d a b => Sys2Proof.Machine.execHmul2H g d a b s
  | .hmax2Bf g d a b => Sys2Proof.Machine.execHmax2Bf g d a b s
  | .hmax2H g d a b => Sys2Proof.Machine.execHmax2H g d a b s
  | .cvt g d a f k => Sys2Proof.Machine.execCvt g d a f k s
  | .cvti g d a f k => Sys2Proof.Machine.execCvti g d a f k s
  | .pack g d a f k => Sys2Proof.Machine.execPack g d a f k s
  | .unpack g d a f k => Sys2Proof.Machine.execUnpack g d a f k s
  | .qntv g d a f k => Sys2Proof.Machine.execQntv g d a f k s
  | .dqntv g d a f k => Sys2Proof.Machine.execDqntv g d a f k s
  | .cvtef g d a f k => Sys2Proof.Machine.execCvtef g d a f k s
  | .icmp g a b c => Sys2Proof.Machine.execIcmp g a b c s
  | .fcmp g a b c => Sys2Proof.Machine.execFcmp g a b c s
  | .ppush g a => Sys2Proof.Machine.execPpush g a s
  | .ppop g => Sys2Proof.Machine.execPpop g s
  | .pdup g ix => Sys2Proof.Machine.execPdup g ix s
  | .pswap g ix => Sys2Proof.Machine.execPswap g ix s
  | .pnot g ix => Sys2Proof.Machine.execPnot g ix s
  | .pand g ix j => Sys2Proof.Machine.execPand g ix j s
  | .por g ix j => Sys2Proof.Machine.execPor g ix j s
  | .pxor g ix j => Sys2Proof.Machine.execPxor g ix j s
  | .prot g ix => Sys2Proof.Machine.execProt g ix s
  | .ptov g d ix => Sys2Proof.Machine.execPtov g d ix s
  | .voteAny g ix => Sys2Proof.Machine.execVoteAny g ix s
  | .voteAll g ix => Sys2Proof.Machine.execVoteAll g ix s
  | .voteBallot g d ix => Sys2Proof.Machine.execVoteBallot g d ix s
  | .gmov g d a => Sys2Proof.Machine.execGmov g d a s
  | .gadd g d a b => Sys2Proof.Machine.execGadd g d a b s
  | .gsub g d a b => Sys2Proof.Machine.execGsub g d a b s
  | .gmul g d a b => Sys2Proof.Machine.execGmul g d a b s
  | .gand g d a b => Sys2Proof.Machine.execGand g d a b s
  | .gor g d a b => Sys2Proof.Machine.execGor g d a b s
  | .gshl g d a b => Sys2Proof.Machine.execGshl g d a b s
  | .gshr g d a b => Sys2Proof.Machine.execGshr g d a b s
  | .gcmp g a b c => Sys2Proof.Machine.execGcmp g a b c s
  | .gread g d a => Sys2Proof.Machine.execGread g d a s
  | .gmovi g d imm => Sys2Proof.Machine.execGmovi g d imm s
  | .gld g d b off => Sys2Proof.Machine.execGld g d b off s
  | .gst g d b off => Sys2Proof.Machine.execGst g d b off s
  | .bra g imm => Sys2Proof.Machine.execBra g imm s
  | .call g d imm => Sys2Proof.Machine.execCall g d imm s
  | .brx g a => Sys2Proof.Machine.execBrx g a s
  | .callx g d a => Sys2Proof.Machine.execCallx g d a s
  | .ret g a => Sys2Proof.Machine.execRet g a s
  | .exit g => Sys2Proof.Machine.execExit g s
  | .yield g => Sys2Proof.Machine.execYield g s
  | .sleep g a => Sys2Proof.Machine.execSleep g a s
  | .nop g => Sys2Proof.Machine.execNop g s
  | .rgn g d mask => Sys2Proof.Machine.execRgn g d mask s
  | .ld g d b off sz sx => Sys2Proof.Machine.execLd g d b off sz sx s
  | .ldAcq g d b lvl sz sx => Sys2Proof.Machine.execLdAcq g d b lvl sz sx s
  | .st g d b off sz => Sys2Proof.Machine.execSt g d b off sz s
  | .stRel g d b lvl sz => Sys2Proof.Machine.execStRel g d b lvl sz s
  | .ldc g d b off sz => Sys2Proof.Machine.execLdc g d b off sz s
  | .stc g d b off sz => Sys2Proof.Machine.execStc g d b off sz s
  | .ldk g d b off sz => Sys2Proof.Machine.execLdk g d b off sz s
  | .stk g d b off sz => Sys2Proof.Machine.execStk g d b off sz s
  | .ldl g d b off sz => Sys2Proof.Machine.execLdl g d b off sz s
  | .stl g d b off sz => Sys2Proof.Machine.execStl g d b off sz s
  | .ldm g d b n => Sys2Proof.Machine.execLdm g d b n s
  | .stm g d b n => Sys2Proof.Machine.execStm g d b n s
  | .ldt g t sp b off => Sys2Proof.Machine.execLdt g t sp b off s
  | .stt g t sp b off => Sys2Proof.Machine.execStt g t sp b off s
  | .ldsc g d b f => Sys2Proof.Machine.execLdsc g d b f s
  | .atom g d b lvl op => Sys2Proof.Machine.execAtom g d b lvl op s
  | .cas g d b lvl => Sys2Proof.Machine.execCas g d b lvl s
  | .ldx g d b c => Sys2Proof.Machine.execLdx g d b c s
  | .pref g die b off => Sys2Proof.Machine.execPref g die b off s
  | .cctl g op b off => Sys2Proof.Machine.execCctl g op b off s
  | .sfillA g d b off => Sys2Proof.Machine.execSfillA g d b off s
  | .sfillB g d b off => Sys2Proof.Machine.execSfillB g d b off s
  | .mbinit g a b => Sys2Proof.Machine.execMbinit g a b s
  | .mbexpect g a b => Sys2Proof.Machine.execMbexpect g a b s
  | .mbarrive g a => Sys2Proof.Machine.execMbarrive g a s
  | .mbwait g d a b => Sys2Proof.Machine.execMbwait g d a b s
  | .mbtest g a b => Sys2Proof.Machine.execMbtest g a b s
  | .waitc g c n => Sys2Proof.Machine.execWaitc g c n s
  | .cntrd g d c => Sys2Proof.Machine.execCntrd g d c s
  | .cvdecl g v a => Sys2Proof.Machine.execCvdecl g v a s
  | .cvsign g v => Sys2Proof.Machine.execCvsign g v s
  | .mma g ka kb c fa fb v => Sys2Proof.Machine.execMma g ka kb c fa fb v s
  | .procfg g s64 => Sys2Proof.Machine.execProcfg g s64 s
  | .accrdT g d c f h => Sys2Proof.Machine.execAccrdT g d c f h s
  | .accrdV g d c f => Sys2Proof.Machine.execAccrdV g d c f s
  | .accrdC g d c f => Sys2Proof.Machine.execAccrdC g d c f s
  | .accwr g c a => Sys2Proof.Machine.execAccwr g c a s
  | .accz g c => Sys2Proof.Machine.execAccz g c s
  | .sbindT g d a f => Sys2Proof.Machine.execSbindT g d a f s
  | .sbindV g d a => Sys2Proof.Machine.execSbindV g d a s
  | .sunbindT g d => Sys2Proof.Machine.execSunbindT g d s
  | .sunbindV g d => Sys2Proof.Machine.execSunbindV g d s
  | .stagrd g d x k => Sys2Proof.Machine.execStagrd g d x k s
  | .smov g d a n => Sys2Proof.Machine.execSmov g d a n s
  | .smul g d a n band => Sys2Proof.Machine.execSmul g d a n band s
  | .sadd g d a n band => Sys2Proof.Machine.execSadd g d a n band s
  | .smax g d a n band => Sys2Proof.Machine.execSmax g d a n band s
  | .sld g d b off => Sys2Proof.Machine.execSld g d b off s
  | .sst g d b off => Sys2Proof.Machine.execSst g d b off s
  | .launch g lvl x y => Sys2Proof.Machine.execLaunch g lvl x y s
  | .tsplit g lvl x y => Sys2Proof.Machine.execTsplit g lvl x y s
  | .tsplitX g x y => Sys2Proof.Machine.execTsplitX g x y s
  | .evqrd g lvl x y m w => Sys2Proof.Machine.execEvqrd g lvl x y m w s
  | .bar g lvl => Sys2Proof.Machine.execBar g lvl s
  | .fenceRel g lvl => Sys2Proof.Machine.execFenceRel g lvl s
  | .fenceAcq g lvl => Sys2Proof.Machine.execFenceAcq g lvl s
  | .fenceAcqrel g lvl => Sys2Proof.Machine.execFenceAcqrel g lvl s
  | .fenceSc g lvl => Sys2Proof.Machine.execFenceSc g lvl s
  | .mcopyDown g lvl x y r => Sys2Proof.Machine.execMcopyDown g lvl x y r s
  | .mcopyUp g lvl x y r => Sys2Proof.Machine.execMcopyUp g lvl x y r s
  | .reduce g lvl x y op one r => Sys2Proof.Machine.execReduce g lvl x y op one r s
  | .cmbopen g d a => Sys2Proof.Machine.execCmbopen g d a s
  | .cmbput g d a b => Sys2Proof.Machine.execCmbput g d a b s
  | .cmbwait g d a => Sys2Proof.Machine.execCmbwait g d a s
  | .cmbwaitBatch g d a => Sys2Proof.Machine.execCmbwaitBatch g d a s
  | .cmbclose g a => Sys2Proof.Machine.execCmbclose g a s
  | .cmbcloseDrop g a => Sys2Proof.Machine.execCmbcloseDrop g a s
  | .cmbstat g d a sel => Sys2Proof.Machine.execCmbstat g d a sel s
  | .coll g d a op => Sys2Proof.Machine.execColl g d a op s
  | .collwait g d a => Sys2Proof.Machine.execCollwait g d a s
  | .collq g d a => Sys2Proof.Machine.execCollq g d a s
  | .laydef g d a => Sys2Proof.Machine.execLaydef g d a s
  | .trap g c => Sys2Proof.Machine.execTrap g c s
  | .tret g => Sys2Proof.Machine.execTret g s
  | .tretAbort g a => Sys2Proof.Machine.execTretAbort g a s
  | .sread g d u sel => Sys2Proof.Machine.execSread g d u sel s
  | .swrite g d u sel => Sys2Proof.Machine.execSwrite g d u sel s
  | .winsel g a => Sys2Proof.Machine.execWinsel g a s
  | .winrd g d a => Sys2Proof.Machine.execWinrd g d a s
  | .winwr g d a => Sys2Proof.Machine.execWinwr g d a s
  | .oplrd g d a w => Sys2Proof.Machine.execOplrd g d a w s
  | .rqrd g d a => Sys2Proof.Machine.execRqrd g d a s
  | .rqinj g a => Sys2Proof.Machine.execRqinj g a s
  | .rqdrop g d a => Sys2Proof.Machine.execRqdrop g d a s
  | .ctxswSave g a => Sys2Proof.Machine.execCtxswSave g a s
  | .ctxswRestore g a => Sys2Proof.Machine.execCtxswRestore g a s
  | .halt g sel => Sys2Proof.Machine.execHalt g sel s
  | .resume g sel => Sys2Proof.Machine.execResume g sel s
  | .tlbi g d a => Sys2Proof.Machine.execTlbi g d a s
  | .tlbiW g d a => Sys2Proof.Machine.execTlbiW g d a s
  | .asidgen g d => Sys2Proof.Machine.execAsidgen g d s
  | .hntWide imm => Sys2Proof.Machine.execHntWide imm s
  | .hntSched rsvd y pv prio lv lat => Sys2Proof.Machine.execHntSched rsvd y pv prio lv lat s
  | .hntMod code arg => Sys2Proof.Machine.execHntMod code arg s
  | .undefinedInstruction w => Sys2Proof.Machine.execUndefinedInstruction w s
  | .packageReset p ix => Sys2Proof.Machine.execPackageReset p ix s
  | .dieClockStop p die => Sys2Proof.Machine.execDieClockStop p die s
  | .dieClockRestart p die => Sys2Proof.Machine.execDieClockRestart p die s
  | .planeFailure p plane => Sys2Proof.Machine.execPlaneFailure p plane s
  | .governorAdjust p mat vec freq draw limit => Sys2Proof.Machine.execGovernorAdjust p mat vec freq draw limit s
  | .qptrWptrWrite p m q v => Sys2Proof.Machine.execQptrWptrWrite p m q v s
  | .qctlWrite p m q v => Sys2Proof.Machine.execQctlWrite p m q v s
  | .evtcntWrite p m n v => Sys2Proof.Machine.execEvtcntWrite p m n v s
  | .launchPacketDispatch p q => Sys2Proof.Machine.execLaunchPacketDispatch p q s
  | .signalPacketDispatch p q => Sys2Proof.Machine.execSignalPacketDispatch p q s
  | .waitPacketDispatch p q => Sys2Proof.Machine.execWaitPacketDispatch p q s
  | .unitPlacement u => Sys2Proof.Machine.execUnitPlacement u s
  | .unitComplete u => Sys2Proof.Machine.execUnitComplete u s
  | .gridEnd gr => Sys2Proof.Machine.execGridEnd gr s
  | .groupSwap c => Sys2Proof.Machine.execGroupSwap c s
  | .pendingForcedPromotion c => Sys2Proof.Machine.execPendingForcedPromotion c s
  | .issueWithdraw c => Sys2Proof.Machine.execIssueWithdraw c s
  | .sleepWake c l => Sys2Proof.Machine.execSleepWake c l s
  | .hangWatchdogExpiry c => Sys2Proof.Machine.execHangWatchdogExpiry c s
  | .lineAgeInvalidate p core line => Sys2Proof.Machine.execLineAgeInvalidate p core line s
  | .preemptionRequest p core => Sys2Proof.Machine.execPreemptionRequest p core s
  | .forcedYield u => Sys2Proof.Machine.execForcedYield u s
  | .shadowBankSwap p core => Sys2Proof.Machine.execShadowBankSwap p core s
  | .spillComplete p core => Sys2Proof.Machine.execSpillComplete p core s
  | .teamRestore u => Sys2Proof.Machine.execTeamRestore u s
  | .accessPerformed c e l => Sys2Proof.Machine.execAccessPerformed c e l s
  | .faultRecordFlush p => Sys2Proof.Machine.execFaultRecordFlush p s
  | .tfreplyRetry p m id => Sys2Proof.Machine.execTfreplyRetry p m id s
  | .tfreplyUnresolvable p m id => Sys2Proof.Machine.execTfreplyUnresolvable p m id s
  | .tlbcmdTlbi p m v => Sys2Proof.Machine.execTlbcmdTlbi p m v s
  | .tlbcmdTlbiW p m v => Sys2Proof.Machine.execTlbcmdTlbiW p m v s
  | .tlbcmdAsidgen p m v => Sys2Proof.Machine.execTlbcmdAsidgen p m v s
  | .tlbCommandComplete p => Sys2Proof.Machine.execTlbCommandComplete p s
  | .archcmdCompress p m v => Sys2Proof.Machine.execArchcmdCompress p m v s
  | .archcmdExpand p m v => Sys2Proof.Machine.execArchcmdExpand p m v s
  | .archcmdFree p m v => Sys2Proof.Machine.execArchcmdFree p m v s
  | .archCommandComplete p => Sys2Proof.Machine.execArchCommandComplete p s
  | .archcfgWrite p m v => Sys2Proof.Machine.execArchcfgWrite p m v s
  | .registerWrite p m off v => Sys2Proof.Machine.execRegisterWrite p m off v s
  | .mstctlClaim p m => Sys2Proof.Machine.execMstctlClaim p m s
  | .mstctlOffer p m t => Sys2Proof.Machine.execMstctlOffer p m t s
  | .mstctlWithdraw p m => Sys2Proof.Machine.execMstctlWithdraw p m s
  | .mstctlAccept p m => Sys2Proof.Machine.execMstctlAccept p m s
  | .mstctlRelease p m => Sys2Proof.Machine.execMstctlRelease p m s
  | .offerLapse p => Sys2Proof.Machine.execOfferLapse p s
  | .ownershipLoss p => Sys2Proof.Machine.execOwnershipLoss p s
  | .mstfrzThaw p m v => Sys2Proof.Machine.execMstfrzThaw p m v s
  | .attcmdQuote p m v => Sys2Proof.Machine.execAttcmdQuote p m v s
  | .attcmdIdentityCert p m v => Sys2Proof.Machine.execAttcmdIdentityCert p m v s
  | .attComplete p => Sys2Proof.Machine.execAttComplete p s
  | .fwupdLoad p m v => Sys2Proof.Machine.execFwupdLoad p m v s
  | .fwLoadComplete p => Sys2Proof.Machine.execFwLoadComplete p s
  | .diesvcDrain p m die => Sys2Proof.Machine.execDiesvcDrain p m die s
  | .diesvcReturn p m die => Sys2Proof.Machine.execDiesvcReturn p m die s
  | .dieDrainComplete p => Sys2Proof.Machine.execDieDrainComplete p s
  | .planesvcWrite p m v => Sys2Proof.Machine.execPlanesvcWrite p m v s
  | .planemapWrite p m v => Sys2Proof.Machine.execPlanemapWrite p m v s
  | .corestopWrite p m die wd v => Sys2Proof.Machine.execCorestopWrite p m die wd v s
  | .dbghaltHalt p m v => Sys2Proof.Machine.execDbghaltHalt p m v s
  | .dbghaltResume p m v => Sys2Proof.Machine.execDbghaltResume p m v s
  | .cpbrkcRelease p m b v => Sys2Proof.Machine.execCpbrkcRelease p m b v s
  | .breakpointHit c => Sys2Proof.Machine.execBreakpointHit c s
  | .traceSample p core => Sys2Proof.Machine.execTraceSample p core s
  | .sacctlSnap p m v => Sys2Proof.Machine.execSacctlSnap p m v s
  | .sacctlClr p m v => Sys2Proof.Machine.execSacctlClr p m v s
  | .handlerEntry p core => Sys2Proof.Machine.execHandlerEntry p core s
  | .migrateMove u => Sys2Proof.Machine.execMigrateMove u s
  | .migrateRestore u => Sys2Proof.Machine.execMigrateRestore u s
  | .teamAbort u => Sys2Proof.Machine.execTeamAbort u s
  | .blockArrival c e blk => Sys2Proof.Machine.execBlockArrival c e blk s
  | .passGrant c => Sys2Proof.Machine.execPassGrant c s
  | .passComplete c => Sys2Proof.Machine.execPassComplete c s
  | .accrdWriteComplete c e => Sys2Proof.Machine.execAccrdWriteComplete c e s
  | .ldxLaneWrite c e l => Sys2Proof.Machine.execLdxLaneWrite c e l s
  | .copyChunkWrite c e ch => Sys2Proof.Machine.execCopyChunkWrite c e ch s
  | .dropNotice c e ch => Sys2Proof.Machine.execDropNotice c e ch s
  | .reservationGrant c e ch => Sys2Proof.Machine.execReservationGrant c e ch s
  | .reservationWindowMiss c e ch => Sys2Proof.Machine.execReservationWindowMiss c e ch s
  | .collStart p ix => Sys2Proof.Machine.execCollStart p ix s
  | .collChunkArrival p ix ch => Sys2Proof.Machine.execCollChunkArrival p ix ch s
  | .collComplete p ix => Sys2Proof.Machine.execCollComplete p ix s
  | .reduceContribution c e l => Sys2Proof.Machine.execReduceContribution c e l s
  | .shadowLineEvict p die line => Sys2Proof.Machine.execShadowLineEvict p die line s
  | .cmbputArrival c e => Sys2Proof.Machine.execCmbputArrival c e s
  | .combineTimeout p die slot => Sys2Proof.Machine.execCombineTimeout p die slot s
  | .combineRelease p die slot => Sys2Proof.Machine.execCombineRelease p die slot s
  | .combineReleaseDone p die slot => Sys2Proof.Machine.execCombineReleaseDone p die slot s
  | .barBridgeArrival u half => Sys2Proof.Machine.execBarBridgeArrival u half s
  | .applicationCoreAccess p hart asid va req => Sys2Proof.Machine.execApplicationCoreAccess p hart asid va req s
  | .fetchFault c l => Sys2Proof.Machine.execFetchFault c l s
  | .fabricPortFailure p port => Sys2Proof.Machine.execFabricPortFailure p port s
  | .portRetrainComplete p plane => Sys2Proof.Machine.execPortRetrainComplete p plane s
  | .masterPresenceChange p m up => Sys2Proof.Machine.execMasterPresenceChange p m up s
  | .packageHeartbeat p => Sys2Proof.Machine.execPackageHeartbeat p s

end Sys2Proof.Machine
end

