-- ==== Sys2Proof/Machine/Recovery.lean ====
section
/-! DEFINITION. The recovery of a checkpoint group that has lost a member (R429 to R431). -/

namespace Sys2Proof.Machine

/-- R429: the place of member p's slice for stripe j among its slices. -/
def sliceIx (p j : Nat) : Nat := if j < p then j else j - 1
/-- Words of some places of packages' local memory taken together, one place after another, with a running value. -/
def State.combine (s : State) (n : Nat) (f : Word → Word → Word) (l : List (Nat × Nat)) (acc : List Word) : State × List Word :=
  l.foldl (fun r e => let t := r.1.mastRead e.1 e.2 n; (t.1, List.zipWith f r.2 (bytesWords t.2))) (s, acc)
/-- R429: the slice of a lost member at stripe j: the parity there, less the survivors' slices. -/
def State.lostSlice (s : State) (f : Nat) (ms : List Nat) (image parity n j : Nat) : State × List Word :=
  let at' := fun (p : Nat) => ms.getD p 0
  let r := s.mastRead (at' j) parity n
  r.1.combine n (fun a b => a - b)
    (((List.range ms.length).filter (fun p => decide (p ≠ j) && decide (p ≠ f))).map (fun p => (at' p, image + n * sliceIx p j)))
    (bytesWords r.2)
/-- R429: the parity of a lost member: the sum of the survivors' slices for its stripe. -/
def State.lostParity (s : State) (f : Nat) (ms : List Nat) (image n : Nat) : State × List Word :=
  s.combine n (fun a b => a + b)
    (((List.range ms.length).filter (fun p => decide (p ≠ f))).map (fun p => (ms.getD p 0, image + n * sliceIx p f)))
    (List.replicate (n / 4) 0)
/-- R429, R430: the slices of n bytes and the parity of a lost member are written at the spare. -/
def State.rebuild (s : State) (f : Nat) (ms : List Nat) (image parity n : Nat) : State :=
  let spare := ms.getD f 0
  let s := ((List.range ms.length).filter (fun j => decide (j ≠ f))).foldl (fun s j =>
    let r := s.lostSlice f ms image parity n j
    r.1.mastWrite spare (image + n * sliceIx f j) (wordsBytes r.2)) s
  let r := s.lostParity f ms image n
  r.1.mastWrite spare parity (wordsBytes r.2)
/-- R429: a checkpoint group, and an image that its members can cut into slices of whole words. -/
def groupOk (f : Nat) (ms : List Nat) (n : Nat) : Bool :=
  decide (3 ≤ ms.length) && decide (ms.length ≤ 16) && decide ms.Nodup && decide (f < ms.length) && decide (n % (4 * (ms.length - 1)) = 0)
/-- R429 to R431: the pod controller has a lost package's image and parity rebuilt on a spare, which takes its number in layouts.
It does so once PKGUP is clear for it on every member; where another member is gone too the group cannot recover, and that is
reported. -/
def State.recover (s : State) (f lost : Nat) (ms : List Nat) (image parity n : Nat) : State :=
  let spare := ms.getD f 0
  if ¬ groupOk f ms n ∨ spare = lost ∨ ms.any (fun q => s.podMember q lost) = true then s
  else if ms.all (fun q => s.podMember spare q) then
    let t := s.rebuild f ms image parity (n / (ms.length - 1))
    { t with recoveries := t.recoveries ++ [(spare, true)], stands := Sparse.put t.stands (s.numberOf lost) spare }
  else { s with recoveries := s.recoveries ++ [(spare, false)] }

end Sys2Proof.Machine
end

