-- ==== Sys2Proof/Machine/Wake.lean ====
section
/-! DEFINITION. What follows at once from the state a step has reached: waits that are over, lanes that sign by exiting,
barriers that complete, handlers that end, groups that retire and groups that take a free active position (R28, R41,
R49, R51, R52, R72, R161, R196, R247, R251, R256, R274, R290 to R294, R297, R305, R375, R380, R386, R387). -/

namespace Sys2Proof.Machine

/-! ### Waits that are over (R28) -/

/-- The lanes of a context that stand at a PC with one wait. -/
def Ctx.waitersAt (c : Ctx) (x : DWord × Wait) : List Nat :=
  c.liveLanes.filter (fun l => decide ((c.lane l).pc = x.1) && decide ((c.lane l).wait = x.2))
/-- The waits of a context: the PCs and waits of its lanes. -/
def Ctx.waits (c : Ctx) : List (DWord × Wait) :=
  ((c.liveLanes.map (fun l => ((c.lane l).pc, (c.lane l).wait))).filter (fun x => decide (x.2 ≠ .none))).eraseDups
/-- R241: an entry has an access of some lanes that has not come far enough; where parked ones do not count, one that is
not parked. -/
def RqEntry.owesLanes (e : RqEntry) (ls : List Nat) (parked : Bool) (reach : Nat) : Bool :=
  e.caps.any (fun y => ls.contains (y.1 % 32) && !y.2.reached reach && (parked || decide (y.2.parked = 0)))
/-- R161: a convergence wait goes on. -/
def State.gated (s : State) (c : Ctx) (v : Nat) (mma : Bool) : Bool :=
  let r := (s.unit c.unit).cv v
  if mma then decide (r.owner = c.index) && r.coll
  else decide (r.owner ≠ c.index) && (r.coll || s.cvGates c.unit v r)
/-- Some lanes of a context leave their instruction, done. -/
def State.wake (s : State) (k : Nat) (ls : List Nat) (f : Ctx → Ctx) : State := s.modCtx k (fun c => (f c).advance ls)
/-- Some lanes of a context that were held back before their issue (R28) may issue. -/
def State.mayIssue (s : State) (k : Nat) (ls : List Nat) : State := s.modCtx k (fun c => c.modLanes ls (fun _ x => { x with wait := .none }))
/-- Some lanes of a context go on with the instruction in which they waited: they issue it again, and match no breakpoint that
they have passed (R402). -/
def State.again (s : State) (k : Nat) (ls : List Nat) : State :=
  s.modCtx k (fun c => c.modLanes ls (fun _ x => { x with wait := .none, skip := true }))
/-- A wait of some lanes of context k: what it leaves when it is over. -/
def State.resolve (s : State) (k : Nat) (ls : List Nat) (w : Wait) : State :=
  let c := s.ctx k
  match w with
  | .none | .sleep _ | .fetch _ | .tret .. => s
  | .bar lvl =>
    match ls.filter (fun l => !(c.arrivals lvl).getLsbD l) with
    | [] => s
    | gone => (s.acquire c lvl).wake k gone id
  | .join =>
    if ¬ s.childrenDone c then s
    else if c.exiting then s.modCtx k (fun c => { c.exitLanes ls with evq := [] })
    else (s.acquire c (s.ctxLevel c)).wake k ls Ctx.joined
  | .launch n tag => if s.childrenDone c then (s.doLaunch k n tag).wake k ls id else s
  | .object o par gd =>
    if s.phaseDone o par then (s.acquire c 5).wake k ls (fun c => c.wrG gd (BitVec.ofNat 32 (objFld (s.object o) 0 0))) else s
  | .counts ids scope => if c.countsDone ids then (s.acquire c scope).wake k ls id else s
  | .combine h gd =>
    match (s.cmbSlot (handleOf h)).answer (handleOf h) c.asid with
    | some x => (s.acquire c 3).wake k ls (fun c => c.wrG gd x)
    | none => s
  | .batch n gd => if (s.pkg c.pkg).batchIdle c.site.die c.asid n then (s.takeBatch k c n gd).wake k ls id else s
  | .ticket ix gen gd =>
    let x := s.collStatus c (BitVec.ofNat 32 (ix * 2 ^ 24 + gen * 2 ^ 16))
    if collReady x then (s.acquire c 5).wake k ls (fun c => c.wrG gd x) else s
  | .event tag gx =>
    match c.evPick tag with
    | some r => (s.acquire c r.scope).wake k ls (fun c => c.takeEv gx r ls)
    | none => if c.evResv = 0 then s.wake k ls (fun c => c.pushAll ls false) else s
  | .converge v mma => if s.gated c v mma then s else s.again k ls
  | .release l parked each reach scope =>
    let owes := fun (ls : List Nat) => c.rq.any (fun e => l.contains (k, e.id) && e.owesLanes ls parked reach)
    if scope ≠ 0 ∧ ¬ s.mayRelease c scope then s
    else if each then s.again k (ls.filter (fun x => !owes [x]))
    else if owes ls then s else s.again k ls
  | .accesses l gd =>
    if (s.stillRunning l).isEmpty then s.wake k ls (fun c => match gd with | some (d, x) => c.wrG d x | none => c) else s
  | .halting sc =>
    match s.windowGroup c with
    | some x => if s.scopeStopped x.2 sc then s.wake k ls id else s
    | none => s.wake k ls id
  | .ctxsw =>
    match s.windowGroup c with
    | some x => if s.teamQuiet x.2.unit then s.again k ls else s
    | none => s.again k ls
  | .team u => if (s.unit u).inPlace || decide ((s.unit u).st = .kept) || (Sparse.find s.units u).isNone then s.mayIssue k ls else s
  | .order ids => if ids.all (fun i => (c.entry i).isNone) then s.mayIssue k ls else s
/-- R310: the waits of a context end as what they wait for comes, whether or not it is granted issues; those of one that a trap
or a halt has stopped, or whose clocks stand, are left unresolved. -/
def State.attends (s : State) (c : Ctx) : Bool :=
  c.placed && s.clockRuns c.pkg c.site && !c.retired && !c.trapped && !c.halted
    && (decide (c.kind = .handler) || (match (s.unit c.unit).st with | .aborting _ => false | _ => true))
/-- The waits of a context that are over. -/
def State.resolveCtx (s : State) (k : Nat) : State :=
  let c := s.ctx k
  if s.attends c then c.waits.foldl (fun s x => s.resolve k (c.waitersAt x) x.2) s else s

/-! ### Convergence registers and barriers (R49, R161, R293) -/

/-- R160, R161: the lanes of a group that have exited sign the registers that the group collects with, once what they
accessed has come as far as a release at L1 needs. -/
def State.signExited (s : State) (k : Nat) : State :=
  let c := s.ctx k
  let m := maskOf (c.exitedLanes.filter (fun l => (c.unperformed k [l] (s.reach c 1)).isEmpty))
  if c.kind ≠ .group ∨ m = 0 then s
  else (s.unit c.unit).cvs.foldl (fun s e =>
    let r := e.2
    if r.owner = c.index ∧ r.coll = true then s.setCv c.unit e.1 (r.sign m) else s) s
/-- R49: both halves of a split unit have arrived, or hold no lane that will. -/
def State.halvesDone (s : State) (u : Nat) : Bool :=
  (List.range 2).all (fun h => (s.unit u).halves.getLsbD h || !anyArrived (s.halfGroups u h) 2)
/-- R293: the barrier of a level that lanes of a context wait in completes now. -/
def State.barDone (s : State) (k : Nat) (c : Ctx) (lvl : Nat) : Bool :=
  if lvl = 0 then s.allArrived [(k, c)] 0
  else s.allArrived (s.barGroups c lvl) lvl
    && (match decide (lvl = 2), s.ownUnit c 2 with | true, some u => !(s.unit u).split || s.halvesDone u | _, _ => true)
/-- R49, R245, R293: a barrier completes at one of its groups; the waits of one that is stopped are left once it runs again
(R310). -/
def State.leaveBar (s : State) (lvl k : Nat) : State :=
  let s := (s.modCtx k (fun c => { c with arrived := Sparse.del c.arrived lvl, phase2 := c.phase2 && decide (lvl ≠ 2) }))
  let c := s.ctx k
  if s.attends c then
    (s.acquire c lvl).modCtx k (fun c => c.advance (c.liveLanes.filter (fun l => decide ((c.lane l).wait = .bar lvl))))
  else s
/-- R245: the lanes of a group that have exited release at a barrier that counts them as arrived. -/
def State.exitRelease (s : State) (lvl k : Nat) : State :=
  let c := s.ctx k
  if c.exitedMask = 0 then s else s.release c lvl
/-- R293: the barriers that lanes of a context wait in. -/
def State.barriers (s : State) (k : Nat) : State :=
  (List.range 4).foldl (fun s lvl =>
    let c := s.ctx k
    if c.arrivals lvl = 0 ∨ ¬ s.barDone k c lvl then s
    else
      let ks := if lvl = 0 then [k] else (s.barGroups c lvl).map (·.1)
      let s := ks.foldl (fun s k => s.exitRelease lvl k) s
      let s := ks.foldl (fun s k => s.leaveBar lvl k) s
      match decide (lvl = 2), s.ownUnit c 2 with
      | true, some u => s.modUnit u (fun x => { x with halves := 0 })
      | _, _ => s) s

/-! ### Ends (R51, R52, R256, R375, R380) -/

/-- R375, R380: a handler ends when its lanes have exited, which aborts, or stand at a `TRET`. -/
def State.endHandlers (s : State) (k : Nat) : State :=
  let c := s.ctx k
  if c.kind ≠ .handler ∨ c.placed = false then s
  else if c.liveLanes.isEmpty then s.endHandler k true 0
  else if c.liveLanes.all (fun l => match (c.lane l).wait with | .tret .. => true | _ => false) then
    match c.firstTret with
    | some f => s.endHandler k f.1 f.2
    | none => s
  else s
/-- R51, R256: what follows once lanes of a context have exited. -/
def State.afterExits (s : State) (k : Nat) : State :=
  let c := s.ctx k
  let s := if c.kind ≠ .handler ∧ c.exitedMask ≠ 0 ∧ c.rq.isEmpty = false then s.abandonCopies k else s
  if (s.ctx k).mayRetire && s.mayRetire k then s.retire k else s
/-- R297, R300: the oldest ready pending group of a core takes a position that is free. -/
def State.takePosition (s : State) (k : Nat) : State :=
  let c := s.ctx k
  if c.kind ≠ .group ∨ c.pos.isSome ∨ ¬ c.placed ∨ c.retired ∨ ¬ s.pendingReady c then s
  else
    match lowestFree ((s.resident c.pkg c.site).filterMap (fun x => x.2.pos)) 8, oldestOf (s.readyPending c.pkg c.site) with
    | some n, some e => if e.1 = k then s.modCtx k (fun c => { c with pos := some n, staged := [], entered := s.cycle }) else s
    | _, _ => s
/-- R52: requests of cores whose teams have all exited, or that hold no team, are withdrawn. -/
def State.withdrawDone (s : State) (p : Nat) : State :=
  (s.pkg p).preq.foldl (fun s e =>
    if (s.teamsOn p (siteOfLoc e.1)).all (fun u => s.teamExited u.1) then s.withdrawRequest p e.1 else s) s

/-- What follows at once from a state: every context's waits, signatures, barriers and ends in turn. -/
def State.settleAll (s : State) : State :=
  let ks := s.ctxs.map (·.1)
  let s := ks.foldl (fun s k => s.payDebts k) s
  let s := ks.foldl (fun s k => s.signExited k) s
  let s := ks.foldl (fun s k => s.resolveCtx k) s
  let s := ks.foldl (fun s k => s.barriers k) s
  let s := ks.foldl (fun s k => s.endHandlers k) s
  let s := ks.foldl (fun s k => s.afterExits k) s
  let s := ks.foldl (fun s k => s.takePosition k) s
  (s.pkgs.map (·.1)).foldl (fun s p => (s.withdrawDone p).flushTrace p) s

end Sys2Proof.Machine
end

