-- ==== Sys2Proof/Machine/Run.lean ====
section
/-! DEFINITION. A core cycle, the issue of an instruction, and the order in which events and issues happen (R5, R17,
R29, R72, R73, R297 to R301, R308 to R310, R400 to R411).  The machine is deterministic: what the spec leaves to
timing, the agenda of the state may fix, and where it holds nothing a fixed order does. -/

namespace Sys2Proof.Machine

/-! ### A core cycle (R5, R17, R408) -/

/-- What a slot issued in a cycle: package, core, slot and leaf. -/
abbrev Issued := Option (Nat × Nat × Nat × Nat)

/-- The cores of a package on which something stands. -/
def State.busyCores (s : State) (p : Nat) : List Nat :=
  ((s.ctxs.filter (fun e => decide (e.2.pkg = p) && e.2.placed && !e.2.site.mast && decide (e.2.kind ≠ .seq))).map (fun e => e.2.site.loc)
    ++ (s.pkg p).swapEnd.map (·.1)).eraseDups
/-- The slot index of an issue of the handler slot, which both slots of its core are charged for (R409). -/
def bothSlots : Nat := 2
/-- R409: the leaves that the slots of the busy cores of a package are charged in this cycle. -/
def State.leaves (s : State) (p : Nat) (iss : Issued) : Sparse Nat :=
  (s.busyCores p).foldl (fun m core => (List.range 2).foldl (fun m slot =>
    let mine := match iss with
      | some (q, n, i, leaf) => if q = p ∧ n = core ∧ (i = slot ∨ i = bothSlots) then some leaf else none
      | none => none
    Sparse.set 11 m (2 * core + slot) (s.slotLeaf p (siteOfLoc core) slot mine)) m) []
/-- R408, R411: the leaves of one core added to its counters; leaf 12 counts both slots. -/
def chargeCore (leaf : Sparse Nat) (acc : Sparse DWord) (core : Nat) : Sparse DWord :=
  let bump := fun (a : Sparse DWord) (n : Nat) => Sparse.set 0 a (core * 16 + n) (Sparse.get 0 a (core * 16 + n) + 1)
  let one := fun (a : Sparse DWord) (slot : Nat) => bump (bump a (Sparse.get 11 leaf (2 * core + slot))) 12
  one (one acc 0) 1
/-- R408 to R411: the slots of a package are charged for a cycle; the counters run while SACCTL ENABLE is 1, on cores
whose clocks run. -/
def State.charge (s : State) (p : Nat) (iss : Issued) : State :=
  let leaf := s.leaves p iss
  s.modPkg p (fun q =>
    let acc := if q.fld 0x0E08 63 63 = 1
      then ((List.range 2048).filter (fun n => (Sparse.find q.stopped (n / 256)).isNone)).foldl (chargeCore leaf) q.account
      else q.account
    { q with leaf := leaf, account := acc })
/-- R5, R17: reference ticks that a core cycle of a package brings, and what is left of its phase. -/
def Package.ticksOf (q : Package) : Nat × Nat :=
  let f := q.fld 0x0028 47 40
  ((q.phase + 50) / f, (q.phase + 50) % f)
/-- R18: n ticks come to the copies of a package's count; those of some dies stay behind, by 2 ticks at most. -/
def Package.passTicks (q : Package) : Package :=
  let n := q.ticksOf.1
  { q with
    count := q.count + n, phase := q.ticksOf.2, slip := []
    lag := q.slip.foldl (fun m d => Sparse.set 0 m d (min 2 (Sparse.get 0 q.lag d + n))) [] }
/-- R18, R310: the ticks that a cycle brings to a site's copy of the count; none while its clocks stand. -/
def Package.copyTicks (q : Package) (x : Site) : Nat := if x.mast then q.ticksOf.1 else q.passTicks.dieCopy x.die - q.dieCopy x.die
/-- R72, R73, R297, R310, R317: what a cycle does to a context.  A group that a trap has stopped and that keeps its position is
staged from the next cycle on (log 53). -/
def State.cycleCtx (s : State) (c : Ctx) : Ctx :=
  let on := s.clockRuns c.pkg c.site
  let n := (s.pkg c.pkg).copyTicks c.site
  let c := s.countWatch c n
  let more := (c.regionSet.filter (fun r => decide (r ≠ 255) && !c.staged.contains r)).take 4
  let rdy := s.ready c || s.pendingReady c
  { c with
    staged := if c.pos.isSome && on then c.staged ++ more else c.staged
    late := c.late.filter (fun x => decide (s.cycle + 1 < x.2.2))
    readySince := if rdy then (match c.readySince with | some t => some t | none => some s.cycle) else none }
/-- R407: the cores of a package whose dies' copies of the count come to a sampling tick in a cycle. -/
def State.samplesDue (s : State) (p : Nat) (q : Package) : List Nat :=
  match q.sampling with
  | some n => (s.busyCores p).filter (fun core => decide (q.dieCopy (core / 256) / n < q.passTicks.dieCopy (core / 256) / n))
  | none => []
/-- One core cycle passes. -/
def State.tick (s : State) (iss : Issued) : State :=
  let s1 := s.pkgs.foldl (fun s e => s.charge e.1 iss) s
  { s1 with
    cycle := s.cycle + 1
    ctxs := mapVals s1.ctxs (fun _ (c : Ctx) => s1.cycleCtx c)
    pkgs := mapVals s1.pkgs (fun p (q : Package) => { q.passTicks with sampleOwed := s1.samplesDue p q }) }

/-! ### An issue (R29, R149, R297, R401) -/

/-- The slot that an issue of a context takes, with its leaf (R408). -/
def Ctx.issueSlot (c : Ctx) (i : Instr) (coh : List Nat) : Issued :=
  match c.kind, c.pos with
  | .group, some n => some (c.pkg, c.site.loc, n / 4, c.issueLeaf i coh)
  | .handler, _ => some (c.pkg, c.site.loc, bothSlots, 10)
  | _, _ => none
/-- The state in which context k issues: the word is fetched, pass-overs of a new grant and the grant are noted, and the
cohort is named. -/
def State.begin (s : State) (k : Nat) (iss : Issue) : State :=
  let c := s.ctx k
  let s1 := s.afterFetch c iss.pc
  let s1 := if s.freshGrant c then s1.modCtx k (fun x => x.passOvers (s.eligible c) (lanesOf iss.lanes)) else s1
  { s1.noteGrant k with cur := iss }
/-- The lanes of an issue that have issued: none while it is held (R301), and none that the scoreboard, or a team that is not
placed, still holds back (R28). -/
def Ctx.haveIssued (c : Ctx) (iss : Issue) : List Nat :=
  if c.hold.isSome then []
  else (lanesOf iss.lanes).filter (fun l => match (c.lane l).wait with | .order _ | .team _ => false | _ => true)
/-- R29, R301, R402, R408: what an issue leaves at its context, and the cycle it takes. -/
def State.finish (s : State) (k : Nat) (i : Instr) (iss : Issue) (from' : Ctx) : State :=
  let ls := (s.ctx k).haveIssued iss
  let s := s.modCtx k (fun c => c.passedNone ls)
  let s := if isHint i then s else s.modCtx k (fun c => c.modLanes ls (fun _ x => { x with skip := false }))
  s.tick (if ls.isEmpty then none else from'.issueSlot i ls)
/-- The issue of an instruction by a context: it runs, and a cycle passes. -/
def runIssue (k : Nat) (i : Instr) (iss : Issue) (s : State) : Out :=
  match exec i (s.begin k iss) with
  | .next t => .next ((t.finish k i iss (s.ctx k)).settleAll)
  | o => o
/-- The next issue of context k: a breakpoint stops it, a region miss holds its slot (R317), or the instruction at its
cohort's PC runs. -/
def issueCtx (k : Nat) (s : State) : Out :=
  match s.grantable k, s.nextIssue k with
  | true, some iss =>
    if (s.bpHits (s.ctx k) (lanesOf iss.lanes)).1.isEmpty then
      match s.instrAt (s.ctx k) iss.pc with
      | some i =>
        if s.freshGrant (s.ctx k) && s.missesNow k i iss then .next ((s.grantMiss k iss).tick none).settleAll
        else runIssue k i iss s
      | none => .fault .noIssue
    else match execBreakpointHit k s with
      | .next t => .next (t.tick none).settleAll
      | o => o
  | _, _ => .fault .noIssue

/-! ### Events -/

/-- An event of the opcode table: a row that has no word. -/
def isEvent (i : Instr) : Bool := (encode i).isNone
/-- An event happens. -/
def runEvent (i : Instr) (s : State) : Out :=
  match exec i s with
  | .next t => .next t.settleAll
  | o => o
/-- What an event does to a state, as the meaning of its row says. -/
abbrev Event := State → Out
/-- The state after the first of some events that can happen now. -/
def firstEvent : List Event → State → Option State
  | [], _ => none
  | f :: r, s => match f s with | .next t => some t.settleAll | _ => firstEvent r s

/-- Events that time brings about at a context. -/
def State.dueOfCtx (s : State) (k : Nat) (c : Ctx) : List Event :=
  let sleeps := c.liveLanes.filterMap (fun l => match (c.lane l).wait with
    | .sleep t => if t ≤ s.now c then some (execSleepWake k l) else none
    | _ => none)
  let held := match c.hold with | some (_, t) => if t + 16 ≤ s.cycle ∧ c.withdrawn = false then [execIssueWithdraw k] else [] | none => []
  let old := match c.readySince with | some t => if t + 2048 ≤ s.cycle ∧ c.pos.isNone then [execPendingForcedPromotion k] else [] | none => []
  let hung := match c.watch with | some (_, n) => if (s.gridOf c).hangwd ≤ n then [execHangWatchdogExpiry k] else [] | none => []
  sleeps ++ held ++ old ++ hung
/-- Events that time brings about in a package. -/
def State.dueOfPkg (s : State) (p : Nat) (q : Package) : List Event :=
  let lines := q.dlines.filterMap (fun x =>
    if x.fill + 65536 ≤ s.dieCount p (siteOfLoc x.core) then some (execLineAgeInvalidate p x.core x.key) else none)
  let slots := q.combine.filterMap (fun e => match e.2.deadline with
    | some t => if e.2.st = .opened ∧ t < s.dieCount p { die := e.1 / 4096 } then some (execCombineTimeout p (e.1 / 4096) (e.1 % 4096)) else none
    | none => none)
  let samples := if (q.reg 0x0FD8).getLsbD 63 && (q.reg 0x0FD8).getLsbD 56
    then (s.busyCores p).filterMap (fun n => if s.sampleDue p n then some (execTraceSample p n) else none) else []
  lines ++ slots ++ samples ++ q.switching.map (fun e => planeSwitch p e.1) ++ [execPackageHeartbeat p, execOfferLapse p, execOwnershipLoss p]
/-- Events that time brings about. -/
def State.dueEvents (s : State) : List Event :=
  s.ctxs.flatMap (fun e => s.dueOfCtx e.1 e.2)
    ++ s.units.filterMap (fun e => e.2.deadline.map (fun _ => execForcedYield e.1))
    ++ s.pkgs.flatMap (fun e => s.dueOfPkg e.1 e.2)

/-- Events of an entry of a context's queues. -/
def RqEntry.events (e : RqEntry) (k : Nat) : List Event :=
  let ls := e.pending
  match e.kind with
  | 3 => ls.map (fun l => execReduceContribution k e.id l)
  | 6 => ls.map (fun l => execLdxLaneWrite k e.id l)
  | 7 => match e.ins with
    | .cmbput .. => [execCmbputArrival k e.id]
    | .sfillA .. | .sfillB .. => ls.map (fun l => execBlockArrival k e.id l)
    | _ => e.chunks.zipIdx.flatMap (fun x =>
        [execCopyChunkWrite k e.id x.2, execReservationWindowMiss k e.id x.2, execReservationGrant k e.id x.2])
  | 8 => [execAccrdWriteComplete k e.id]
  | _ => ls.map (fun l => execAccessPerformed k e.id l)
/-- Events of a context. -/
def State.eventsOfCtx (s : State) (k : Nat) (c : Ctx) : List Event :=
  c.rq.flatMap (fun e => e.events k)
    ++ (if c.rq.any (fun e => e.pass.isSome) then [execPassComplete k, execPassGrant k] else [])
    ++ (if c.kind = .group ∧ ¬ c.placed then [execUnitPlacement (.group k)] else [])
    ++ (if s.runs c then c.freeLanes.map (fun l => execFetchFault k l) else [])
    ++ (if c.kind = .group ∧ c.pos.isSome then [execGroupSwap k] else [])
/-- Events of a unit. -/
def WUnit.events (x : WUnit) (u : Nat) : List Event :=
  match x.st with
  | .waiting => [execUnitPlacement (.unit u)]
  | .running => execUnitComplete u :: (if x.split then [execBarBridgeArrival u 0, execBarBridgeArrival u 1] else [])
  | .moving false => [execMigrateMove u]
  | .moving true => [execMigrateRestore u]
  | .swapped false => [execSpillComplete x.pkg x.site.loc]
  | .swapped true => [execTeamRestore u]
  | .aborting _ => [execTeamAbort u]
  | .kept => []
/-- Events of a package. -/
def State.eventsOfPkg (s : State) (p : Nat) (q : Package) : List Event :=
  let colls := q.coll.flatMap (fun e => if ¬ e.2.used then [] else
    (if e.2.started then (List.range e.2.chunkCount).map (fun ch => execCollChunkArrival p e.1 ch) else [execCollStart p e.1])
      ++ [execCollComplete p e.1])
  let rows := q.combine.flatMap (fun e => match e.2.st with
    | .due => [execCombineRelease p (e.1 / 4096) (e.1 % 4096)]
    | .formed => [execCombineReleaseDone p (e.1 / 4096) (e.1 % 4096)]
    | _ => [])
  let queues := match s.nextQueue p with
    | some n => [execLaunchPacketDispatch p n, execSignalPacketDispatch p n, execWaitPacketDispatch p n]
    | none => []
  let bad := (List.range 64).filterMap (fun n => if q.queueOpen n then some (execLaunchPacketDispatch p n) else none)
  let asks := s.units.filterMap (fun e => if s.wantsCore p e.1 then (s.preemptCore e.1).map (fun x => execPreemptionRequest p x.loc) else none)
  colls ++ rows ++ [execFaultRecordFlush p, execTlbCommandComplete p, execArchCommandComplete p, execAttComplete p,
      execFwLoadComplete p, execDieDrainComplete p]
    ++ (List.range 8).filterMap (fun x => if q.retrain.toNat / 2 ^ (3 * x) % 8 ≠ 0 then some (execPortRetrainComplete p x) else none)
    ++ (q.hq.map (fun e => execHandlerEntry p e.1)) ++ (q.preq.map (fun e => execShadowBankSwap p e.1)) ++ asks ++ queues ++ bad
/-- Events that the machine brings about by itself, in the order in which it does where the agenda holds none. -/
def State.ownEvents (s : State) : List Event :=
  s.ctxs.flatMap (fun e => s.eventsOfCtx e.1 e.2) ++ s.units.flatMap (fun e => e.2.events e.1)
    ++ s.grids.map (fun e => execGridEnd e.1) ++ s.pkgs.flatMap (fun e => s.eventsOfPkg e.1 e.2)

/-! ### The next step -/

/-- The context whose turn it is: the first from the focus on that may issue. -/
def State.turn (s : State) : Option Nat :=
  match s.ctxs.find? (fun e => decide (s.focus ≤ e.1) && s.grantable e.1) with
  | some e => some e.1
  | none => (s.ctxs.find? (fun e => s.grantable e.1)).map (·.1)
/-- A step in which no event happens: an issue, or a cycle that passes. -/
def issueTurn (s : State) : Out :=
  match s.turn with
  | some k => issueCtx k { s with focus := k + 1 }
  | none => .next (s.tick none).settleAll
/-- A step with nothing on the agenda but time: what is due, what the machine brings about by itself, an issue, or a
cycle that passes. -/
def freeStep (s : State) : Out :=
  match firstEvent s.dueEvents s with
  | some t => .next t
  | none => match firstEvent s.ownEvents s with
    | some t => .next t
    | none => issueTurn s
/-- R18: a die's copy of the count stays behind at the next tick. -/
def State.slipDie (s : State) (p die : Nat) : State :=
  if die < 8 ∧ (Sparse.find (s.pkg p).stopped die).isNone then s.modPkg p (fun q => { q with slip := die :: q.slip }) else s
/-- What the hardware may do unseen, as an item of the agenda says; one that cannot happen now leaves the state as it is. -/
def State.unseen (s : State) : AgendaItem → State
  | .stage c e l => s.stage c e l
  | .word c e l j => ((s.performWord c e l j).engineWord c e l j).accrdWord c e j
  | .piece c e ch j => s.movePiece c e ch j
  | .collRead p ix j => s.collReadWord p ix j
  | .collWrite p ix ch j => s.collWriteWord p ix ch j
  | .evict p core key => s.dropKey p core key
  | .ahead c l => if s.runnable (s.ctx c) then s.ahead c l (s.instrAt (s.ctx c) ((s.ctx c).lane l).pc) else s
  | .slip p die => s.slipDie p die
  | .linger p die key => s.linger p die key
  | .recover f lost ms image parity n => s.recover f lost ms image parity n
  | .read p m off => s.masterRead p m off
  | .event _ | .issue _ | .ticks _ => s
/-- A step from a state: the item that heads its agenda, or what happens by itself. -/
def nextStep (s : State) : Out :=
  match s.agenda with
  | .event i :: r => if isEvent i then runEvent i { s with agenda := r } else .fault .noIssue
  | .issue k :: r => issueCtx k { s with agenda := r }
  | .ticks 0 :: r => .next { s with agenda := r }
  | .ticks (n + 1) :: r =>
    match firstEvent s.dueEvents s with
    | some t => .next t
    | none => .next ({ s with agenda := .ticks n :: r }.tick none).settleAll
  | x :: r => .next (State.unseen { s with agenda := r } x).settleAll
  | [] => freeStep s

/-! ### Placing an instruction (see the log: how a program comes to run) -/

/-- Where the instruction after next is fetched, when a context is about to issue from a place that translates. -/
def State.fetchPlace (s : State) : Option (Nat × Loc) :=
  let k := match s.agenda with | .issue k :: _ => some k | _ => s.turn
  match k with
  | none => none
  | some k => match s.nextIssue k with
    | none => none
    | some i => match s.fetchAt (s.ctx k) i.pc with | .ok l _ => some (k, l) | _ => none
/-- The unit that the standard load runs its instruction in. -/
def loadUnit (gr : Nat) : WUnit := { level := 1, grid := gr, st := .running }
/-- The grid of the standard load: every class of register in full, and ASID 1. -/
def loadGrid : Grid :=
  { asid := 1, vregs := 64, gregs := 64, tiles := 16, accs := 8, sregs := 64, stash := 2048, cstore := 128, entry := 0x1000, rootsDone := 0 }
/-- The group of the standard load: lane 0 alone runs, from virtual address 0x1000. -/
def loadGroup (gr u : Nat) : Ctx :=
  { kind := .group, grid := gr, unit := u, asid := 1, placed := true, pos := some 0
    lanes := (List.range 32).map (fun l => (l, { pc := 0x1000, exited := decide (l ≠ 0) })) }
/-- The translation of the standard load: virtual address 0x1000 lies at local address 0x1000 of package 0. -/
def loadTlb : TlbEntry := { site := 0, asid := 1, gen := 0, va := 0x1000, bits := 12, pte := 0x45B }
/-- A region miss of context k's next issue is over (R317). -/
def State.missPast (s : State) (k : Nat) : State :=
  match s.nextIssue k with
  | none => s
  | some iss => match s.instrAt (s.ctx k) iss.pc with
    | none => s
    | some i => if (s.ctx k).missAt.isSome || s.missesNow k i iss then s.modCtx k (fun c => { c with missAt := some (iss, s.cycle) }) else s
/-- The standard load: package 0 runs one lane group, whose next instruction is the word. -/
def State.loadWord (s : State) (w : Nat) : State :=
  let gr := Sparse.next s.grids
  let u := max s.fresh (Sparse.next s.units)
  let k := max (u + 1) (Sparse.next s.ctxs)
  let s := s.modPkg 0 (fun q => { q with tlbs := loadTlb :: q.tlbs, asidGen := [] })
  let s := s.wrBytes (.hbm (hbmKey 0 0x1000)) (bytesOfNat 4 w)
  State.missPast { s with
    grids := Sparse.put s.grids gr loadGrid, units := Sparse.put s.units u (loadUnit gr)
    ctxs := Sparse.put s.ctxs k (loadGroup gr u), fresh := k + 1, agenda := .issue k :: s.agenda } k
/-- A word stored where the next issue fetches it. -/
def State.placeWord (s : State) (w : Nat) : State :=
  match s.fetchPlace with
  | some (k, l) =>
    let s := (s.wrBytes l (bytesOfNat 4 w)).missPast k
    match s.agenda with | .issue _ :: _ => s | a => { s with agenda := .issue k :: a }
  | none => s.loadWord w

end Sys2Proof.Machine
end

