-- ==== Sys2Proof/Machine/Step.lean ====
section
/-! DEFINITION. One step of the machine, and the placing of the instruction that the next step runs. -/

namespace Sys2Proof.Machine

/-- One step: what heads the agenda, or what happens by itself. -/
def step (s : State) : Host.Outcome State Fault Refusal := nextStep s

/-- The state with an instruction word stored where the next step fetches. -/
def State.withFetchWord (s : State) (nbits w : Nat) : State := s.placeWord (w % 2 ^ nbits)

end Sys2Proof.Machine
end

