-- ==== Sys2Proof/Safety.lean ====
section
/-! DEFINITION. What counts as a safe step and a safe run, and the names in which statements speak of an issue: the
context, its cohort, the lanes in which an instruction acts, and what it leaves alone. -/

namespace Sys2Proof.Machine

/-! ### Sound states and safe runs -/

/-- The memories of the pod are in their canonical form. -/
def State.MemOk (s : State) : Prop := Memory.wf s.hbm ∧ Memory.wf s.host
/-- A step is safe when it answers a next state. -/
def SafeStep (s : State) : Prop := ∃ t, step s = .next t
/-- n steps, each safe. -/
def SafeRun : Nat → State → Prop
  | 0, _ => True
  | n + 1, s => ∃ t, step s = .next t ∧ SafeRun n t

/-- R29, R149, R317: context k issues the cohort that `iss` names: no breakpoint stops it and no region miss holds its slot
first, and the word at its PC is that of instruction i. -/
structure Fetches (s : State) (k : Nat) (iss : Issue) (i : Instr) : Prop where
  /-- its slot grants it an issue -/
  granted : s.grantable k = true
  /-- the cohort and its PC -/
  cohort : s.nextIssue k = some iss
  /-- no breakpoint is hit -/
  clear : (s.bpHits (s.ctx k) (lanesOf iss.lanes)).1 = []
  /-- no region miss keeps it back (R317): the grant is not a new one, or it has none -/
  staged : s.freshGrant (s.ctx k) = false ∨ s.missesNow k i iss = false
  /-- the four bytes at the PC decode to i -/
  word : ∃ l b, s.fetchAt (s.ctx k) iss.pc = .ok l b ∧ decodeWord (natOfBytes (s.homeRead l 4).2) = i
/-- A step that issues instruction i in context k ends as i does from the state in which the issue begins; then what the
issue leaves at its context is noted, a cycle passes, and what follows at once happens. -/
def RunsAs (s : State) (k : Nat) (iss : Issue) (i : Instr) (o : Out) : Prop :=
  (∀ t, exec i (s.begin k iss) = .next t → o = .next (t.finish k i iss (s.ctx k)).settleAll)
    ∧ (∀ f, exec i (s.begin k iss) = .fault f → o = .fault f)

/-! ### An issue (R29, R60, R98) -/

/-- The issue in progress is one of context c with lanes, and instruction i acts in `act`: the lanes of the cohort
whose guard is true, of which there is at least one.  No check of R98 stops it. -/
structure Issues (s : State) (i : Instr) (c : Ctx) (act : List Nat) : Prop where
  /-- the context that issues -/
  found : Sparse.find s.ctxs s.cur.ctx = some c
  /-- some lane issues -/
  cohort : s.cohort c ≠ []
  /-- the acting lanes -/
  acts : act = (s.cohort c).filter (fun l => c.guard (guardOf i) l)
  /-- some lane acts -/
  some : act ≠ []
  /-- checks 2 to 7 of R98 pass -/
  checks : s.preCheck c i act = none

/-- The state in which an instruction takes effect: its scheduling hints are noted (R92). -/
def State.hinted (s : State) (i : Instr) (act : List Nat) : State :=
  if isHint i then s else s.modCtx s.cur.ctx (fun c => c.schedule act)
/-- A context whose cohort is done with an instruction. -/
def State.depart (s : State) (i : Instr) (coh : List Nat) (c : Ctx) : Ctx :=
  ((c.missCount (s.fmtOf c) i).advance coh).unheld

/-! ### What an instruction leaves alone -/

/-- Every lane of the cohort stands at the next word with its hints spent; the others stand where they stood.  Nothing
else of a lane changes, but for its predicates as `pr` says. -/
def Moved (c c' : Ctx) (coh : List Nat) (pr : Nat → BitVec 8) : Prop :=
  ∀ l, c'.lane l = if l ∈ coh then { c.lane l with pc := (c.lane l).pc + 4, hints := [], wait := .none, pred := pr l } else c.lane l
/-- Lanes keep their predicates. -/
def Ctx.preds (c : Ctx) (l : Nat) : BitVec 8 := (c.lane l).pred
/-- Only these parts of a context may differ: its lanes, the vector registers and their tags, the uniform and
residue registers, the flags, and what the scheduler and the region counter keep of an issue (R72, R92). -/
def OnlyRegs (c c' : Ctx) : Prop :=
  c' = { c with lanes := c'.lanes, v := c'.v, vtags := c'.vtags, g := c'.g, e := c'.e, fpflags := c'.fpflags, yld := c'.yld,
                prio := c'.prio, misses := c'.misses, hold := none, withdrawn := false, missAt := none }
/-- Vector registers but for those of `ds` in the acting lanes, and the tags but for those of `ds`. -/
def KeepsV (c c' : Ctx) (act ds : List Nat) : Prop :=
  (∀ n l, l < 32 → ¬ (n ∈ ds ∧ l ∈ act) → c'.rdV n l = c.rdV n l)
    ∧ ∀ n, Sparse.get 0 c'.vtags n = if n ∈ ds then Sparse.get 0 c.vtags n &&& 0x7FFF else Sparse.get 0 c.vtags n
/-- The flags that the acting lanes raise, joined to those that stand (R77). -/
def raised (c : Ctx) (act : List Nat) (fl : Nat → BitVec 6) : BitVec 6 := act.foldl (fun x l => x ||| fl l) c.fpflags

/-- Instruction i completes, in one context alone, which it leaves as c' : no byte of any storage, no other context and
no other part of the machine changes. -/
def Completes (i : Instr) (s : State) (c' : Ctx) : Prop :=
  exec i s = .next (s.modCtx s.cur.ctx (fun _ => c')) ∧ ∀ a, (s.modCtx s.cur.ctx (fun _ => c')).rdByte a = s.rdByte a

/-! ### Shapes of register instructions -/

/-- Each acting lane has registers `ds` written, their tags lose BOUND, and flags are raised; nothing else changes. -/
def WroteV (i : Instr) (s : State) (c : Ctx) (act ds : List Nat) (val : Nat → Nat → Word) (fl : Nat → BitVec 6) : Prop :=
  ∃ c', Completes i s c' ∧ OnlyRegs c c' ∧ (∀ l ∈ act, ∀ n ∈ ds, c'.rdV n l = val l n) ∧ KeepsV c c' act ds
    ∧ c'.fpflags = raised c act fl ∧ c'.g = c.g ∧ c'.e = c.e ∧ Moved c c' (s.cohort c) c.preds
/-- Each acting lane writes registers `ds` with values of the old context, clears their tags' BOUND and raises flags. -/
def WritesV (i : Instr) (ds : List Nat) (val : Ctx → List Nat → Nat → Nat → Word) (fl : Ctx → Nat → BitVec 6) : Prop :=
  ∀ s c act, Issues s i c act → WroteV i s c act ds (val c act) (fl c)
/-- As WritesV for one register, under format slot f, where a condition on the slot and the context holds. -/
def WritesSlot (i : Instr) (f d : Nat) (ok : Slot → Ctx → Prop) (val : Slot → Ctx → Nat → Word × BitVec 6) : Prop :=
  ∀ s c act, Issues s i c act → ok (slotOf (s.fmtOf c) f) c →
    WroteV i s c act [d] (fun l _ => (val (slotOf (s.fmtOf c) f) c l).1) (fun l => (val (slotOf (s.fmtOf c) f) c l).2)
/-- One uniform register is written, once per issue, with a value that the leader lane decides. -/
def WritesG (i : Instr) (d : Nat) (val : Ctx → Nat → Word) : Prop :=
  ∀ s c act, Issues s i c act → ∃ c', Completes i s c' ∧ OnlyRegs c c'
    ∧ c'.rdG d = val c (act.headD 0) ∧ (∀ n, n ≠ d → c'.rdG n = c.rdG n)
    ∧ c'.v = c.v ∧ c'.vtags = c.vtags ∧ c'.fpflags = c.fpflags ∧ c'.e = c.e ∧ Moved c c' (s.cohort c) c.preds
/-- The predicate register of each acting lane becomes a value of the old context. -/
def WritesP (i : Instr) (val : Ctx → List Nat → Nat → BitVec 8) : Prop :=
  ∀ s c act, Issues s i c act → ∃ c', Completes i s c' ∧ OnlyRegs c c'
    ∧ c'.v = c.v ∧ c'.vtags = c.vtags ∧ c'.g = c.g ∧ c'.fpflags = c.fpflags ∧ c'.e = c.e
    ∧ Moved c c' (s.cohort c) (fun l => if l ∈ act then val c act l else c.preds l)
/-- No flag is raised. -/
def noFlags : Ctx → Nat → BitVec 6 := fun _ _ => 0
/-- `Wrap(x, 32)` of R104. -/
def wrap32 (x : Int) : Word := BitVec.ofInt 32 x
/-- One register is written with a value of the old context and its lane. -/
def Writes1 (i : Instr) (d : Nat) (val : Ctx → Nat → Word) : Prop := WritesV i [d] (fun c _ l _ => val c l) noFlags
/-- One register is written, with flags. -/
def WritesF (i : Instr) (d : Nat) (val : Ctx → Nat → Word × BitVec 6) : Prop :=
  WritesV i [d] (fun c _ l _ => (val c l).1) (fun c l => (val c l).2)
/-- Nothing but context k changes, and the trace records that package p has yet to write (R407). -/
def Elsewhere (s t : State) (k p : Nat) : Prop :=
  t.units = s.units ∧ t.grids = s.grids ∧ (∀ j, j ≠ k → t.ctx j = s.ctx j) ∧ (∀ q, q ≠ p → t.pkg q = s.pkg q)
    ∧ t.pkg p = { s.pkg p with traceq := (t.pkg p).traceq } ∧ ∀ a, t.rdByte a = s.rdByte a
/-- R94: where a lane stands once its context stops.  Inside a hint sequence it goes back to the first hint word, but for a
lane that waits for an instruction it has issued. -/
def Lane.stopped (x : Lane) : Lane :=
  if x.wait = .none ∨ (x.wait.notIssued = true ∧ x.hints ≠ []) then
    { x with pc := x.pc - BitVec.ofNat 64 (4 * x.hints.length), hints := [], wait := .none }
  else x
/-- The lane at the next word. -/
def Lane.onward (x : Lane) : Lane := { x with pc := x.pc + 4, hints := [], wait := .none }
/-- Each acting lane goes to a target, the others of the cohort to the next word; `link`, if given, is the pair that
takes the address of the next word. -/
def Branches (i : Instr) (link : Option Nat) (tgt : Ctx → Nat → DWord) : Prop :=
  ∀ s c act, Issues s i c act → ∃ t c', exec i s = .next t ∧ t.ctx s.cur.ctx = c' ∧ Elsewhere s t s.cur.ctx c.pkg
    ∧ OnlyRegs c c' ∧ c'.g = c.g ∧ c'.e = c.e ∧ c'.fpflags = c.fpflags
    ∧ KeepsV c c' act (match link with | none => [] | some d => [d, d + 1])
    ∧ (∀ d, link = some d → ∀ l ∈ act, c'.rdPairV d l = ((c.lane l).pc + 4).toNat)
    ∧ ∀ l, c'.lane l = if l ∈ act then { c.lane l with pc := tgt c l, hints := [], wait := .none }
        else if l ∈ s.cohort c then (c.lane l).onward else c.lane l
/-- The instruction's effect is done in state s2; its cohort then moves on. -/
def Done (i : Instr) (s : State) (c : Ctx) (s2 : State) : Prop :=
  exec i s = .next (s2.modCtx s.cur.ctx (s.depart i (s.cohort c)))
/-- The instruction traps: its context has had no effect of it and takes the trap (R369). -/
def Traps (i : Instr) (s : State) (cause : Nat) (ls : List Nat) (info : Nat) : Prop :=
  exec i s = .next (s.takeTrap s.cur.ctx s.cur.pc (wordOf i) cause ls info none)
/-- The acting lanes wait; the rest of the cohort moves on. -/
def Waits (i : Instr) (s : State) (c : Ctx) (act : List Nat) (s2 : State) (w : Wait) : Prop :=
  exec i s = .next (s2.modCtx s.cur.ctx (fun c' =>
    ((c'.advance ((s.cohort c).filter (fun l => !act.contains l))).modLanes act (fun _ x => { x with wait := w })).unheld))
/-- The stack of predicates after a push (R59). -/
def pushed (p : BitVec 8) (b : Bool) : BitVec 8 := (p <<< 1) ||| (if b then 1 else 0)

/-! ### Scale registers (R63 to R69) -/

/-- No entry of the context still holds one of some registers (R69). -/
def Ctx.Unheld (c : Ctx) (rs : List RegName) : Prop := ∀ e ∈ c.rq, ∀ r ∈ rs, r ∉ e.holds
/-- Nothing still fills the scale register that the tag of v_r names, if the tag is bound (R69). -/
def Ctx.ScaleStands (c : Ctx) (r : Nat) : Prop := tagBound (c.vtag r) = true → c.Unheld [.s (tagIndex (c.vtag r))]
/-- The tag of v_r is current, and nothing still fills the scale register it names (R68, R69). -/
def Ctx.ScaleReady (c : Ctx) (r : Nat) : Prop := c.vCurrent r = true ∧ c.ScaleStands r
/-- Runs, as base and logarithm of their length, are aligned, within the group's registers, and not held (R65, R167). -/
def RunsFree (s : State) (c : Ctx) (runs : List (Nat × Nat)) : Prop :=
  (∀ r ∈ runs, s.badRun c r.1 r.2 = false) ∧ c.Unheld (runs.flatMap (fun r => (runRegs r.1 r.2).map .s))
/-- Only scale registers, tags, flags and what an issue leaves behind may differ. -/
def OnlyScales (c c' : Ctx) : Prop :=
  c' = { c with lanes := c'.lanes, scales := c'.scales, sctl := c'.sctl, vtags := c'.vtags, ttags := c'.ttags
                fpflags := c'.fpflags, yld := c'.yld, prio := c'.prio, misses := c'.misses, hold := none, withdrawn := false
                missAt := none }
/-- R169: entries of a part of a run of 2^n registers from s_d, as far as the run from s_o shares it, become values of
the old context; GENs, FORMs, tags and every other payload byte stay. -/
def MapsPart (i : Instr) (d o n : Nat) (band : Bool) (f : Ctx → Nat → Nat → Nat × BitVec 6) : Prop :=
  ∀ s c act, Issues s i c act → RunsFree s c [(d, n), (o, n)] → ∃ c', Completes i s c' ∧ OnlyScales c c'
    ∧ c'.sctl = c.sctl ∧ c'.vtags = c.vtags ∧ c'.ttags = c.ttags
    ∧ (∀ j < 2 ^ n, ∀ k < c.shared band (d + j) (o + j),
        c'.partEntry band (d + j) k = (f c j k).1 % (if band then 65536 else 256))
    ∧ (∀ m b, b < 32 → (∀ j < 2 ^ n, m = d + j → ¬ (let h := c.shared band (d + j) (o + j)
        if band then b < 2 * h else if c.sBand m then 8 ≤ b ∧ b < 8 + h else b < h)) → c'.sByte m b = c.sByte m b)
    ∧ c'.fpflags = (List.range (2 ^ n)).foldl (fun x j =>
        (List.range (c.shared band (d + j) (o + j))).foldl (fun x k => x ||| (f c j k).2) x) c.fpflags
    ∧ Moved c c' (s.cohort c) c.preds

/-! ### Accesses (R206, R207) -/

/-- The context in which the effect of an instruction begins. -/
def Ctx.begun (c : Ctx) (i : Instr) (act : List Nat) : Ctx := if isHint i then c else c.schedule act
/-- R207, R301: an issue takes its requests: each is aligned and inside the address space, every page of it translates
for the context, and the queues have room. -/
structure Takes (s : State) (c : Ctx) (cls : Option CClass) (acc : AccKind) (eng : Bool) (reqs : List Req) : Prop where
  /-- aligned -/
  aligned : ∀ r ∈ reqs, r.va % r.align = 0
  /-- a valid virtual address -/
  inside : ∀ r ∈ reqs, r.va < 2 ^ 57
  /-- entries, counters and request slots are free -/
  room : s.noRoom c cls true (reqs.flatMap (fun r => accLines r.va r.len)).eraseDups.length = none
  /-- every page translates -/
  pages : ∀ r ∈ reqs, ∀ a ∈ pageStarts r.va r.len, ∃ l b, s.xlate (s.partyOf c eng) a acc = .ok l b
/-- R203 to R207: the same of requests to a local space. -/
structure TakesLocal (s : State) (c : Ctx) (cls : Option CClass) (res : Req → LRes) (reqs : List Req) : Prop where
  /-- aligned -/
  aligned : ∀ r ∈ reqs, r.va % r.align = 0
  /-- each has its place in a unit's store -/
  placed : ∀ r ∈ reqs, ∃ l, res r = .ok l
  /-- entries and counters are free -/
  room : s.noRoom c cls false 0 = none
/-- The places of a request's pages, as translation in a state gives them. -/
def State.places (s : State) (y : Party) (acc : AccKind) (r : Req) : List Loc :=
  (pageStarts r.va r.len).map (fun a => match s.xlate y a acc with | .ok l _ => l | _ => .none)
/-- Where a local request leads. -/
def LRes.places : LRes → List Loc
  | .ok l => [l]
  | _ => []
/-- The instruction is issued: its context's replay queue has one entry more, which captures the requests, and the cohort
moves on.  Registers, units, grids, host memory and other contexts are as in s1, and so is package memory but for reduction
slots that the walk's reads release (R183). -/
def Queued (i : Instr) (s s1 : State) (c : Ctx) (kind : Nat) (cls : Option CClass) (holds : List RegName)
    (args : List Word) (reqs : List Req) (places : Req → List Loc) (obj : Loc) : Prop :=
  ∃ t c' e, exec i s = .next t ∧ t.ctx s.cur.ctx = c' ∧ e.obj = obj ∧ e.chunks = []
    ∧ e.id = c.nextId ∧ e.ins = i ∧ e.pc = s.cur.pc ∧ e.kind = kind ∧ e.cls = cls ∧ e.holds = holds ∧ e.args = args
    ∧ (∀ r ∈ reqs, ∃ x, Sparse.find e.caps r.lane = some x ∧ x.va = r.va ∧ x.len = r.len ∧ x.data = r.data
        ∧ x.pages = places r ∧ x.progress = 0 ∧ x.done = false ∧ x.parked = 0)
    ∧ (∀ l, (∀ r ∈ reqs, r.lane ≠ l) → Sparse.find e.caps l = none)
    ∧ c' = { c.countIssue cls with lanes := c'.lanes, rq := c.rq ++ [e], nextId := c.nextId + 1, yld := c'.yld, prio := c'.prio
                                   misses := c'.misses, hold := none, withdrawn := false, missAt := none }
    ∧ Moved c c' (s.cohort c) c.preds
    ∧ ((∀ p, (s1.pkg p).slots = []) → t.hbm = s1.hbm) ∧ t.host = s1.host ∧ t.units = s1.units ∧ t.grids = s1.grids ∧ t.msis = s1.msis
    ∧ ∀ j, j ≠ s.cur.ctx → t.ctx j = s1.ctx j
/-- What lanes of a context have issued that a release at a level orders has come as far as the level asks (R238, R241). -/
abbrev State.Performed (s : State) (c : Ctx) (ls : List Nat) (lvl : Nat) : Prop := c.unperformed s.cur.ctx ls (s.reach c lvl) = []
/-- A release of lanes at a level need not wait: what they have issued has come far enough, and what the release itself brings
to the homes can travel and be merged (R19, R22, R185). -/
abbrev State.Ordered (s : State) (c : Ctx) (ls : List Nat) (lvl : Nat) : Prop := s.Performed c ls lvl ∧ s.mayRelease c lvl = true
/-- The state in which an instruction's accesses are issued: a releasing one releases first (R241). -/
def State.beforeAccess (s : State) (i : Instr) (c : Ctx) (act : List Nat) : Option Nat → State
  | none => s.hinted i act
  | some lvl => (s.hinted i act).release (c.begun i act) lvl
/-- R207: the acting lanes issue global requests in one entry; a releasing instruction does so when what its lanes
ordered is performed. -/
def Queues (i : Instr) (rel : Option Nat) (kind : Nat) (acc : AccKind) (cls : Option CClass) (eng : Bool)
    (holds : List RegName) (args : Ctx → List Nat → List Word) (reqs : Ctx → List Nat → List Req) : Prop :=
  ∀ s c act, Issues s i c act →
    (∀ lvl, rel = some lvl → ∀ l ∈ act, s.Ordered c [l] lvl) →
    Takes (s.beforeAccess i c act rel) (c.begun i act) cls acc eng (reqs c act) →
    Queued i s (s.beforeAccess i c act rel) c kind cls holds (args c act) (reqs c act)
      ((s.beforeAccess i c act rel).places ((s.beforeAccess i c act rel).partyOf (c.begun i act) eng) acc) .none
/-- R207: the same of requests to a local space. -/
def QueuesLocal (i : Instr) (kind : Nat) (cls : Option CClass) (holds : List RegName) (res : State → Ctx → Req → LRes)
    (reqs : Ctx → List Nat → List Req) : Prop :=
  ∀ s c act, Issues s i c act → TakesLocal s c cls (res s c) (reqs c act) →
    Queued i s s c kind cls holds [] (reqs c act) (fun r => (res s c r).places) .none
/-- Nothing that a write or a contribution has brought about is on its way: no reduction slot and no shadow word stands
anywhere, no store stands in a cache short of its home, and every die cache reads as the homes do. -/
def State.NoSlots (s : State) : Prop :=
  ∀ e ∈ s.pkgs, e.2.slots = [] ∧ e.2.shadows = [] ∧ e.2.early = [] ∧ ∀ y ∈ e.2.dieLines, y.old = none
/-- Each context stands once in the table of contexts. -/
def State.OneEach (s : State) : Prop := ∀ e ∈ s.ctxs, Sparse.find s.ctxs e.1 = some e.2

/-- The instruction completes, in state t, in which its context is c'; its cohort has moved on, and contexts other than
its own and grids are as they were. -/
def Acts (i : Instr) (s : State) (c : Ctx) (t : State) (c' : Ctx) (pr : Nat → BitVec 8) : Prop :=
  exec i s = .next t ∧ t.ctx s.cur.ctx = c' ∧ Moved c c' (s.cohort c) pr ∧ (∀ j, j ≠ s.cur.ctx → t.ctx j = s.ctx j)
    ∧ t.grids = s.grids
/-- Every byte of storage reads as before. -/
def SameBytes (s t : State) : Prop := ∀ a, t.rdByte a = s.rdByte a
/-- The only bytes that change are n bytes from o, which become bs. -/
def Stored (s t : State) (o : Loc) (bs : List Byte) : Prop :=
  (∀ i < bs.length, t.rdByte (o.add i) = bs.getD i 0) ∧ ∀ a, (∀ i < bs.length, a ≠ o.add i) → t.rdByte a = s.rdByte a
/-- R36, R54: a context that has just been created holds nothing. -/
def Ctx.Zeroed (c : Ctx) : Prop :=
  (∀ n l, c.rdV n l = 0) ∧ (∀ n, c.rdG n = 0) ∧ (∀ n, Sparse.get 0 c.e n = 0) ∧ c.fpflags = 0 ∧ (∀ l k, c.pred l k = false)
    ∧ (∀ n, Sparse.get 0 c.tiles n = 0) ∧ (∀ n, Sparse.get 0 c.stash n = 0) ∧ (∀ m i j, c.rdAcc m i j = 0)
    ∧ (∀ n k, c.sByte n k = 0) ∧ (∀ n, c.sGen n = 0 ∧ c.sBand n = false) ∧ (∀ n, c.vtag n = 0 ∧ c.ttag n = 0)
    ∧ c.strA = {} ∧ c.strB = {} ∧ c.quarter = 0 ∧ c.rq = [] ∧ c.evq = []
/-- A place that the machine has. -/
def State.Place (s : State) : Loc → Prop
  | .none => False
  | .hbm _ => True
  | .host _ => True
  | .store u _ => Sparse.find s.units u ≠ none

/-! ### Accesses performed (R208, R238, R239) -/

/-- Lane number l of entry id of context k may be performed now, wholly. -/
structure Ready (s : State) (k id l : Nat) (c : Ctx) (en : RqEntry) (x : Cap) : Prop where
  /-- the context -/
  found : Sparse.find s.ctxs k = some c
  /-- its entry -/
  entry : c.entry id = some en
  /-- the only one with its number -/
  only : ∀ y ∈ c.rq, y.id = id → y = en
  /-- the lane's capture -/
  cap : Sparse.find en.caps l = some x
  /-- still to be performed -/
  due : x.done = false
  /-- nothing earlier holds it back -/
  free : State.mayPerform c en l x = true
  /-- all of it is translated -/
  whole : x.whole = true
  /-- none of it has been performed, and none stands in a cache (R208, R238) -/
  untouched : x.got = [] ∧ x.stage = 0
  /-- no write of its core or die that touches it comes first -/
  first : s.heldByEarly k en l x = false
  /-- its request is not held (R19, R22) -/
  travels : s.travels c.pkg c.site x.segs = true
/-- What a byte reads as for a context: a core with a data cache reads its own copy of a line where it has one. -/
def State.seenByte (s : State) (c : Ctx) (nc : Bool) (o : Loc) : Byte :=
  match o, s.coreOf c with
  | .hbm k, some (p, core) => if nc then s.rdByte o else
      match s.dhit p core (k / 64) k (k + 1) with | some y => y.data.getD (k % 64) 0 | none => s.rdByte o
  | _, _ => s.rdByte o
/-- n bytes as a context sees them. -/
def State.seen (s : State) (c : Ctx) (nc : Bool) (o : Loc) (n : Nat) : List Byte :=
  (List.range n).map (fun i => s.seenByte c nc (o.add i))
/-- Lines of core data caches have 64 bytes, and hold every word. -/
def State.LinesWhole (s : State) : Prop := ∀ p, ∀ y ∈ (s.pkg p).dlines, y.data.length = 64 ∧ y.holes = []
/-- The lines that a core's data cache holds of n bytes at a place stay there while the bytes are read: they are in one
line, or the cache has room for those that it lacks. -/
def State.KeepsLines (s : State) (c : Ctx) (o : Loc) (n : Nat) : Prop :=
  ∀ p core k, s.coreOf c = some (p, core) → o = .hbm k → (lineKeys k n).length ≤ 1
    ∨ ((s.pkg p).dlines.filter (fun y => decide (y.core = core))).length + (lineKeys k n).length ≤ coreLines
/-- The event performs the capture: context k becomes c', in whose queue nothing but entry id changes, and there the lane
is done or the entry has gone; other contexts and grids are as they were. -/
def Performs (i : Instr) (s : State) (k id l : Nat) (c : Ctx) (t : State) (c' : Ctx) : Prop :=
  exec i s = .next t ∧ t.ctx k = c' ∧ (∀ j, j ≠ k → t.ctx j = s.ctx j) ∧ t.grids = s.grids
    ∧ (∀ y ∈ c'.rq, y ∈ c.rq ∧ y.id ≠ id ∨ y.id = id ∧ ∃ z, Sparse.find y.caps l = some z ∧ z.done = true)
    ∧ ∀ y ∈ c.rq, y.id ≠ id → y ∈ c'.rq
/-- A context with another replay queue. -/
def Ctx.withRq (c : Ctx) (rq : List RqEntry) : Ctx := { c with rq := rq }

/-! ### Packages and their registers (R6, R336, R359) -/

/-- Nothing but package p changes. -/
def OnlyPkg (s t : State) (p : Nat) : Prop :=
  t.ctxs = s.ctxs ∧ t.units = s.units ∧ t.grids = s.grids ∧ t.hbm = s.hbm ∧ t.host = s.host ∧ ∀ q, q ≠ p → t.pkg q = s.pkg q
/-- The registers of a package keep their contents, but for some. -/
def SameRegs (q r : Package) (offs : List Nat) : Prop := ∀ o, o ∉ offs → r.reg o = q.reg o
/-- A message is sent to the identity and the address that the register at an offset holds, unless its identity is 0. -/
def State.Told (s t : State) (p off : Nat) : Prop :=
  t.msis = s.msis ++ (let r := (s.pkg p).reg off
    if bits r 10 0 = 0 then [] else [{ pkg := p, addr := bits r 55 12 * 4096, ident := bits r 10 0 }])
/-- The package takes a request of a requester now, before which no offer lapses and no ownership is lost (R351, R355). -/
def Package.Hears (q : Package) (m : Nat) : Prop := q.takes m = true ∧ q.offerOver = false ∧ q.ownerGone = false
/-- Package p takes a requester's write of the register at an offset, which acts. -/
def MayWrite (s : State) (p m off : Nat) : Prop := (s.pkg p).Hears m ∧ (s.pkg p).right m off = .acts
/-- A master that is not frozen, of a package that booted, which takes its request. -/
def Speaks (s : State) (p m : Nat) : Prop :=
  m < 4 ∧ (s.pkg p).Hears m ∧ bits ((s.pkg p).reg 0x0018) 15 8 = 0 ∧ (s.pkg p).frozen m = false
/-- A request that package p takes and answers, and that has no other effect. -/
def State.ignored (s : State) (p m off : Nat) : State := s.answer (s.took p m) p m off
/-- Master m of package p is frozen by a write at an offset (R357, R358, R359). -/
def Freezes (s t : State) (p m off : Nat) : Prop :=
  OnlyPkg s t p ∧ SameRegs (s.pkg p) (t.pkg p) [0x0710] ∧ s.Told t p 0x0760
    ∧ (t.pkg p).reg 0x0710 = putBits ((s.pkg p).reg 0x0710) (16 * m + 15) (16 * m) (2 ^ 15 + off / 8)

end Sys2Proof.Machine
end

