-- ==== Sys2Proof/Certificates/Slice0/Obligations.lean ====
section
/-! DEFINITION. The statements for the provers. -/

open Sys2Proof Sys2Proof.Machine

/-! ### Register instructions (chapter 06) -/

/-- R133, major 0x01: every integer instruction completes, writes the value of its row and raises SAT alone, where the
row saturates; nothing else changes. -/
def Claims.IntegerArithmetic : Prop :=
  (∀ g d a b, Writes1 (.iadd g d a b) d (fun c l => wrap32 ((c.rdV a l).toInt + (c.rdV b l).toInt)))
  ∧ (∀ g d a b, Writes1 (.isub g d a b) d (fun c l => wrap32 ((c.rdV a l).toInt - (c.rdV b l).toInt)))
  ∧ (∀ g d a b, Writes1 (.imul g d a b) d (fun c l => wrap32 ((c.rdV a l).toInt * (c.rdV b l).toInt)))
  ∧ (∀ g d a b, Writes1 (.imulhi g d a b) d (fun c l => wrap32 ((c.rdV a l).toInt * (c.rdV b l).toInt / 2 ^ 32)))
  ∧ (∀ g d a b, Writes1 (.imulhiU g d a b) d (fun c l => BitVec.ofNat 32 ((c.rdV a l).toNat * (c.rdV b l).toNat / 2 ^ 32)))
  ∧ (∀ g d a b, Writes1 (.imad g d a b) d (fun c l =>
      wrap32 ((c.rdV a l).toInt * (c.rdV b l).toInt + (c.rdV d l).toInt)))
  ∧ (∀ g d a b, Writes1 (.imin g d a b) d (fun c l => wrap32 (min (c.rdV a l).toInt (c.rdV b l).toInt)))
  ∧ (∀ g d a b, Writes1 (.iminU g d a b) d (fun c l => BitVec.ofNat 32 (min (c.rdV a l).toNat (c.rdV b l).toNat)))
  ∧ (∀ g d a b, Writes1 (.imax g d a b) d (fun c l => wrap32 (max (c.rdV a l).toInt (c.rdV b l).toInt)))
  ∧ (∀ g d a b, Writes1 (.imaxU g d a b) d (fun c l => BitVec.ofNat 32 (max (c.rdV a l).toNat (c.rdV b l).toNat)))
  ∧ (∀ g d a b, WritesF (.iadds g d a b) d (fun c l =>
      let x := (c.rdV a l).toInt + (c.rdV b l).toInt
      let y := max (-2 ^ 31) (min x (2 ^ 31 - 1))
      (wrap32 y, if y = x then 0 else fSAT)))
  ∧ (∀ g d a b, WritesF (.iaddsU g d a b) d (fun c l =>
      let x : Int := (c.rdV a l).toNat + (c.rdV b l).toNat
      let y := max 0 (min x (2 ^ 32 - 1))
      (wrap32 y, if y = x then 0 else fSAT)))
  ∧ (∀ g d a b, WritesF (.isubs g d a b) d (fun c l =>
      let x := (c.rdV a l).toInt - (c.rdV b l).toInt
      let y := max (-2 ^ 31) (min x (2 ^ 31 - 1))
      (wrap32 y, if y = x then 0 else fSAT)))
  ∧ (∀ g d a b, WritesF (.isubsU g d a b) d (fun c l =>
      let x : Int := (c.rdV a l).toNat - (c.rdV b l).toNat
      let y := max 0 (min x (2 ^ 32 - 1))
      (wrap32 y, if y = x then 0 else fSAT)))
  ∧ (∀ g d a b, Writes1 (.idot4 g d a b) d (fun c l =>
      let p := fun k => ((c.rdV a l).extractLsb' (8 * k) 8).toInt * ((c.rdV b l).extractLsb' (8 * k) 8).toInt
      wrap32 ((c.rdV d l).toInt + (p 0 + p 1 + p 2 + p 3))))

/-- R133, major 0x02. -/
def Claims.LogicAndShifts : Prop :=
  (∀ g d a, Writes1 (.iabs g d a) d (fun c l => wrap32 |(c.rdV a l).toInt|))
  ∧ (∀ g d a, Writes1 (.ineg g d a) d (fun c l => wrap32 (-(c.rdV a l).toInt)))
  ∧ (∀ g d a b, Writes1 (.and g d a b) d (fun c l => c.rdV a l &&& c.rdV b l))
  ∧ (∀ g d a b, Writes1 (.or g d a b) d (fun c l => c.rdV a l ||| c.rdV b l))
  ∧ (∀ g d a b, Writes1 (.xor g d a b) d (fun c l => c.rdV a l ^^^ c.rdV b l))
  ∧ (∀ g d a b, Writes1 (.andn g d a b) d (fun c l => c.rdV a l &&& ~~~(c.rdV b l)))
  ∧ (∀ g d a, Writes1 (.not g d a) d (fun c l => ~~~(c.rdV a l)))
  ∧ (∀ g d a b, Writes1 (.shl g d a b) d (fun c l =>
      if (c.rdV b l).toNat < 32 then BitVec.ofNat 32 ((c.rdV a l).toNat * 2 ^ (c.rdV b l).toNat) else 0))
  ∧ (∀ g d a b, Writes1 (.shr g d a b) d (fun c l =>
      if (c.rdV b l).toNat < 32 then BitVec.ofNat 32 ((c.rdV a l).toNat / 2 ^ (c.rdV b l).toNat) else 0))
  ∧ (∀ g d a b, Writes1 (.sar g d a b) d (fun c l => wrap32 ((c.rdV a l).toInt / 2 ^ min (c.rdV b l).toNat 31)))
  ∧ (∀ g d a b, Writes1 (.rotl g d a b) d (fun c l =>
      let n := (c.rdV b l).toNat % 32
      BitVec.ofNat 32 ((c.rdV a l).toNat * 2 ^ n + (c.rdV a l).toNat / 2 ^ (32 - n))))
  ∧ (∀ g d a, Writes1 (.popc g d a) d (fun c l => BitVec.ofNat 32 ((List.range 32).countP (fun k => (c.rdV a l).getLsbD k))))
  ∧ (∀ g d a, Writes1 (.clz g d a) d (fun c l =>
      BitVec.ofNat 32 (if c.rdV a l = 0 then 32 else 31 - Nat.log2 (c.rdV a l).toNat)))
  ∧ (∀ g d a, Writes1 (.brev g d a) d (fun c l => (c.rdV a l).reverse))
  ∧ (∀ g d a b, Writes1 (.sel g d a b) d (fun c l => if c.pred l 0 then c.rdV a l else c.rdV b l))
  ∧ (∀ g d a, Writes1 (.mov g d a) d (fun c l => c.rdV a l))

/-- R134, R135: `LEA` and the immediate forms, with the wide immediate of R91 where one is pending. -/
def Claims.ImmediatesAndLea : Prop :=
  (∀ g d a b, WritesV (.lea g d a b) [d, d + 1] (fun c _ l n =>
      let x : Int := (c.rdV a l).toNat + 2 ^ 32 * (c.rdV (a + 1) l).toNat + (c.rdV b l).toInt
      wrap32 (if n = d then x else x / 2 ^ 32)) noFlags)
  ∧ (∀ g d a imm, Writes1 (.iaddImm g d a imm) d (fun c l =>
      wrap32 ((c.rdV a l).toInt + wideImm 10 imm (c.lane l).hints)))
  ∧ (∀ g d a pos len, Writes1 (.bfx g d a pos len) d (fun c l => BitVec.ofNat 32 ((c.rdV a l).toNat / 2 ^ pos % 2 ^ len)))
  ∧ (∀ g d a pos len, pos < 32 → len ≤ 32 → Writes1 (.bfi g d a pos len) d (fun c l =>
      let n := min len (32 - pos)
      BitVec.ofNat 32 ((c.rdV d l).toNat % 2 ^ pos + (c.rdV a l).toNat % 2 ^ n * 2 ^ pos
        + (c.rdV d l).toNat / 2 ^ (pos + n) * 2 ^ (pos + n))))
  ∧ (∀ g d imm, Writes1 (.movi g d imm) d (fun c l => wrap32 (wideImm 16 imm (c.lane l).hints)))
  ∧ (∀ g d imm, imm < 65536 → Writes1 (.movhi g d imm) d (fun c l =>
      BitVec.ofNat 32 ((c.rdV d l).toNat % 65536 + imm * 65536)))

/-- R104, R136, R137, major 0x08: sums and products are formed exactly and rounded once, to nearest; sign changes work
on the code and give the canonical NaN for a NaN; `FCLASS` names the class of the code. -/
def Claims.FloatArithmetic : Prop :=
  (∀ g d a b, WritesF (.fadd g d a b) d (fun c l =>
      asWord (roundArith .fp32 (satHint (c.lane l).hints) (sumV [f32 (c.rdV a l), f32 (c.rdV b l)]))))
  ∧ (∀ g d a b, WritesF (.fsub g d a b) d (fun c l =>
      asWord (roundArith .fp32 (satHint (c.lane l).hints) (sumV [f32 (c.rdV a l), (f32 (c.rdV b l)).neg]))))
  ∧ (∀ g d a b, WritesF (.fmul g d a b) d (fun c l =>
      asWord (roundArith .fp32 (satHint (c.lane l).hints) (mulV (f32 (c.rdV a l)) (f32 (c.rdV b l))))))
  ∧ (∀ g d a b, WritesF (.ffma g d a b) d (fun c l =>
      asWord (roundArith .fp32 (satHint (c.lane l).hints) (fmaV (f32 (c.rdV a l)) (f32 (c.rdV b l)) (f32 (c.rdV d l))))))
  ∧ (∀ g d a b, Writes1 (.fmin g d a b) d (fun c l =>
      let x := c.rdV a l
      let y := c.rdV b l
      if (f32 x).isNaN && (f32 y).isNaN then 0x7FC00000 else if (f32 x).isNaN then y else if (f32 y).isNaN then x
      else if ltV (f32 x) (f32 y) || ((f32 x).isZero && (f32 y).isZero && x.msb && !y.msb) then x else y))
  ∧ (∀ g d a b, Writes1 (.fmax g d a b) d (fun c l =>
      let x := c.rdV a l
      let y := c.rdV b l
      if (f32 x).isNaN && (f32 y).isNaN then 0x7FC00000 else if (f32 x).isNaN then y else if (f32 y).isNaN then x
      else if ltV (f32 x) (f32 y) || ((f32 x).isZero && (f32 y).isZero && x.msb && !y.msb) then y else x))
  ∧ (∀ g d a, Writes1 (.fabs g d a) d (fun c l =>
      let x := c.rdV a l
      if 0x7F800000 < x.toNat % 2 ^ 31 then 0x7FC00000 else BitVec.ofNat 32 (x.toNat % 2 ^ 31)))
  ∧ (∀ g d a, Writes1 (.fneg g d a) d (fun c l =>
      let x := c.rdV a l
      if 0x7F800000 < x.toNat % 2 ^ 31 then 0x7FC00000 else x + 0x80000000))
  ∧ (∀ g d a b, Writes1 (.fcpys g d a b) d (fun c l =>
      let x := c.rdV a l
      if 0x7F800000 < x.toNat % 2 ^ 31 then 0x7FC00000
      else BitVec.ofNat 32 (x.toNat % 2 ^ 31 + if (c.rdV b l).msb then 2 ^ 31 else 0)))
  ∧ (∀ g d a, Writes1 (.fclass g d a) d (fun c l =>
      let x := c.rdV a l
      let e := x.toNat / 2 ^ 23 % 256
      let m := x.toNat % 2 ^ 23
      BitVec.ofNat 32 (2 ^ (if e = 255 then (if m ≠ 0 then 8 else if x.msb then 0 else 7)
        else if e = 0 then (if m = 0 then (if x.msb then 3 else 4) else if x.msb then 2 else 5)
        else if x.msb then 1 else 6))))

/-- R107, R136: what exact sums and products do with NaNs, infinities and zeros: a NaN operand gives the canonical NaN
without a flag, opposite infinities and zero times infinity give it with NV, and an exact zero is positive unless every
addend is a negative zero. -/
def Claims.FloatSpecials : Prop :=
  (∀ sat x y, (f32 x).isNaN ∨ (f32 y).isNaN → asWord (roundArith .fp32 sat (sumV [f32 x, f32 y])) = (0x7FC00000, 0)
      ∧ asWord (roundArith .fp32 sat (mulV (f32 x) (f32 y))) = (0x7FC00000, 0))
  ∧ (∀ sat x y z, (f32 x).isNaN ∨ (f32 y).isNaN ∨ (f32 z).isNaN →
      asWord (roundArith .fp32 sat (fmaV (f32 x) (f32 y) (f32 z))) = (0x7FC00000, 0))
  ∧ (∀ sat n, asWord (roundArith .fp32 sat (sumV [.inf n, .inf (!n)])) = (0x7FC00000, fNV)
      ∧ asWord (roundArith .fp32 sat (sumV [.inf n, .inf n])) = (if n then 0xFF800000 else 0x7F800000, 0))
  ∧ (∀ sat n k m e, asWord (roundArith .fp32 sat (mulV (.inf n) (.fin k 0 e))) = (0x7FC00000, fNV)
      ∧ asWord (roundArith .fp32 sat (sumV [.inf n, .fin k m e])) = (if n then 0xFF800000 else 0x7F800000, 0)
      ∧ (m ≠ 0 → asWord (roundArith .fp32 sat (mulV (.inf n) (.fin k m e))) = (if n != k then 0xFF800000 else 0x7F800000, 0)))
  ∧ (∀ sat n k m e, m ≠ 0 → asWord (roundArith .fp32 sat (sumV [.fin n m e, .fin (!n) m e])) = (0, 0)
      ∧ asWord (roundArith .fp32 sat (sumV [.fin n 0 e, .fin k 0 e])) = (if n && k then 0x80000000 else 0, 0))

/-- R104: rounding (step 2) to nearest gives an integer no further away than any other, with a tie to the even one;
rounding toward zero gives the integer part. -/
def Claims.RoundsToNearest : Prop :=
  ∀ n d : Nat, 0 < d →
    (∀ k : Nat, |((roundNat false n d * d : Nat) : Int) - n| ≤ |((k * d : Nat) : Int) - n|)
    ∧ (2 * (n % d) = d → roundNat false n d % 2 = 0)
    ∧ roundNat true n d * d ≤ n ∧ n < (roundNat true n d + 1) * d

/-- The value of a format's code without its sign, as R106 gives it: also of the code after that of the largest value. -/
def codeMag (f : Fmt) (n : Nat) : ℚ := match floatVal f false n with | .fin _ m e => (m : ℚ) * (2 : ℚ) ^ e | _ => 0

/-- R104, R118, R119, R77: `Round` to nearest of a magnitude other than zero to a format with a fraction. It overflows when
the magnitude lies beyond the middle between the largest value M and the one that would follow, or on it where M is odd; then
the result is as R119 has it; else it is a nearest value of the format, the even one of two, with NX where it is not exact and
UF where the magnitude is also below the smallest normal value. -/
def Claims.RoundsToFormat : Prop :=
  ∀ (f : Fmt) (neg sat : Bool) (n d : Nat), f.range = none → 0 < n → 0 < d → ¬ (f = .e3m5 ∧ neg = true) →
    let r := roundFin f false sat neg n d
    let x : ℚ := (n : ℚ) / d
    let mid := codeMag f f.maxCode + codeMag f (f.maxCode + 1)
    let beyond := mid < 2 * x ∨ (2 * x = mid ∧ f.maxCode % 2 = 1)
    (r.2 &&& fOF ≠ 0 ↔ beyond)
    ∧ (beyond →
        (sat = true ∨ f = .e2m1 ∨ f = .e3m5 → r = (f.maxCode + f.signBit neg, fOF ||| fNX ||| fSAT))
        ∧ (sat = false → ∀ ic, f.infCode = some ic → r = (ic + f.signBit neg, fOF ||| fNX))
        ∧ (sat = false → f = .e4m3 → r.1 = 0x7F ∧ r.2 &&& (fOF ||| fNX) = fOF ||| fNX))
    ∧ (¬ beyond → ∃ c, c ≤ f.maxCode ∧ r.1 = c + f.signBit neg
        ∧ (∀ b, b ≤ f.maxCode → |codeMag f c - x| ≤ |codeMag f b - x|)
        ∧ (∀ b, b ≤ f.maxCode → b ≠ c → |codeMag f b - x| = |codeMag f c - x| → c % 2 = 0)
        ∧ r.2 = (if codeMag f c = x then 0 else if x < (2 : ℚ) ^ (1 - (f.bias : Int)) then fNX ||| fUF else fNX))

/-- R138, R104: `FRCP` of a finite operand other than zero is correctly rounded: where the exact reciprocal does not overflow,
it has the operand's sign, and no FP32 magnitude is nearer to the reciprocal than its own. -/
def Claims.ReciprocalIsNearest : Prop :=
  ∀ (a : Word) neg m e, f32 a = .fin neg m e → m ≠ 0 →
    let r := frcp a.toNat
    let x : ℚ := 1 / ((m : ℚ) * (2 : ℚ) ^ e)
    r.2 &&& fOF = 0 → ∃ c, c ≤ 0x7F7FFFFF ∧ r.1 = c + (if neg then 2 ^ 31 else 0)
      ∧ ∀ b, b ≤ 0x7F7FFFFF → |codeMag .fp32 c - x| ≤ |codeMag .fp32 b - x|

/-- R138, major 0x09: each function writes its rounded value. -/
def Claims.FloatFunctions : Prop :=
  (∀ g d a, WritesF (.frcp g d a) d (fun c l => asWord (frcp (c.rdV a l).toNat)))
  ∧ (∀ g d a, WritesF (.frsq g d a) d (fun c l => asWord (frsq (c.rdV a l).toNat)))
  ∧ (∀ g d a, WritesF (.fsqrt g d a) d (fun c l => asWord (fsqrt (c.rdV a l).toNat)))
  ∧ (∀ g d a, WritesF (.fexp2 g d a) d (fun c l => asWord (fexp2 (c.rdV a l).toNat)))
  ∧ (∀ g d a, WritesF (.flog2 g d a) d (fun c l => asWord (flog2 (c.rdV a l).toNat)))
  ∧ (∀ g d a, WritesF (.ftanh g d a) d (fun c l => asWord (ftanh (c.rdV a l).toNat)))

/-- R138: the operands for which a function's result is not a rounding: NaN, the infinities, the zeros, negative numbers
and exact powers; and the integer square root on which the roots rest is exact. -/
def Claims.FunctionSpecials : Prop :=
  (∀ x : Word, (f32 x).isNaN → ∀ f ∈ [frcp, frsq, fsqrt, fexp2, flog2, ftanh], asWord (f x.toNat) = (0x7FC00000, 0))
  ∧ (∀ x : Word, 0x80000000 < x.toNat → x.toNat ≤ 0xFF800000 → ∀ f ∈ [frsq, fsqrt, flog2], asWord (f x.toNat) = (0x7FC00000, fNV))
  ∧ [frcp, frsq, fsqrt, fexp2, flog2, ftanh].map (fun f => asWord (f 0)) =
      [(0x7F800000, fDZ), (0x7F800000, fDZ), (0, 0), (0x3F800000, 0), (0xFF800000, fDZ), (0, 0)]
  ∧ [frcp, frsq, fsqrt, fexp2, flog2, ftanh].map (fun f => asWord (f 0x80000000)) =
      [(0xFF800000, fDZ), (0xFF800000, fDZ), (0x80000000, 0), (0x3F800000, 0), (0xFF800000, fDZ), (0x80000000, 0)]
  ∧ [frcp, frsq, fsqrt, fexp2, flog2, ftanh].map (fun f => asWord (f 0x7F800000)) =
      [(0, 0), (0, 0), (0x7F800000, 0), (0x7F800000, 0), (0x7F800000, 0), (0x3F800000, 0)]
  ∧ [frcp, fexp2, ftanh].map (fun f => asWord (f 0xFF800000)) = [(0x80000000, 0), (0, 0), (0xBF800000, 0)]
  ∧ (∀ x, isqrt x * isqrt x ≤ x ∧ x < (isqrt x + 1) * (isqrt x + 1))

/-- R139, major 0x0A: each half of the register is an operation of its own, in the format of the mnemonic; the flags of
both halves are raised. -/
def Claims.PackedHalves : Prop :=
  (∀ g d a b, WritesF (.hfma2Bf g d a b) d (fun c l => packHalves (fun h => roundArith .bf16 (satHint (c.lane l).hints)
      (fmaV (readF .bf16 (halfOf (c.rdV a l) h)) (readF .bf16 (halfOf (c.rdV b l) h)) (readF .bf16 (halfOf (c.rdV d l) h))))))
  ∧ (∀ g d a b, WritesF (.hfma2H g d a b) d (fun c l => packHalves (fun h => roundArith .fp16 (satHint (c.lane l).hints)
      (fmaV (readF .fp16 (halfOf (c.rdV a l) h)) (readF .fp16 (halfOf (c.rdV b l) h)) (readF .fp16 (halfOf (c.rdV d l) h))))))
  ∧ (∀ g d a b, WritesF (.hadd2Bf g d a b) d (fun c l => packHalves (fun h => roundArith .bf16 (satHint (c.lane l).hints)
      (sumV [readF .bf16 (halfOf (c.rdV a l) h), readF .bf16 (halfOf (c.rdV b l) h)]))))
  ∧ (∀ g d a b, WritesF (.hadd2H g d a b) d (fun c l => packHalves (fun h => roundArith .fp16 (satHint (c.lane l).hints)
      (sumV [readF .fp16 (halfOf (c.rdV a l) h), readF .fp16 (halfOf (c.rdV b l) h)]))))
  ∧ (∀ g d a b, WritesF (.hmul2Bf g d a b) d (fun c l => packHalves (fun h => roundArith .bf16 (satHint (c.lane l).hints)
      (mulV (readF .bf16 (halfOf (c.rdV a l) h)) (readF .bf16 (halfOf (c.rdV b l) h))))))
  ∧ (∀ g d a b, WritesF (.hmul2H g d a b) d (fun c l => packHalves (fun h => roundArith .fp16 (satHint (c.lane l).hints)
      (mulV (readF .fp16 (halfOf (c.rdV a l) h)) (readF .fp16 (halfOf (c.rdV b l) h))))))
  ∧ (∀ g d a b, Writes1 (.hmax2Bf g d a b) d (fun c l =>
      BitVec.ofNat 32 (maxCodeOf .bf16 (halfOf (c.rdV a l) 1) (halfOf (c.rdV b l) 1) * 65536
        + maxCodeOf .bf16 (halfOf (c.rdV a l) 0) (halfOf (c.rdV b l) 0))))
  ∧ (∀ g d a b, Writes1 (.hmax2H g d a b) d (fun c l =>
      BitVec.ofNat 32 (maxCodeOf .fp16 (halfOf (c.rdV a l) 1) (halfOf (c.rdV b l) 1) * 65536
        + maxCodeOf .fp16 (halfOf (c.rdV a l) 0) (halfOf (c.rdV b l) 0))))

/-- R122, R140 to R142: conversions under a format slot.  Those of a scaled slot complete when the tag of the register
they name is current and nothing still fills the scale register it names (R69). -/
def Claims.Conversions : Prop :=
  (∀ g d a f k, WritesSlot (.cvt g d a f k) f d (fun sl c => sl.scale = 0 ∨ c.ScaleReady d) (fun sl c l =>
      let sat := sl.sat || satHint (c.lane l).hints
      let r := if sl.scale = 0 then roundV sl.fmt sl.rtz sat (f32 (c.rdV a l))
        else roundQuot sl.fmt sl.rtz sat (f32 (c.rdV a l)) (c.vScale d l)
      (setElem (c.rdV d l) sl.fmt.width k r.1, r.2)))
  ∧ (∀ g d a f k, WritesSlot (.dqntv g d a f k) f d (fun sl c => sl.scale = 0 ∨ c.ScaleReady a) (fun sl c l =>
      let q := elemOf (c.rdV a l) sl.fmt.width k
      asWord (roundArith .fp32 false (if sl.scale = 0 then (readF sl.fmt q, 0) else scaledVal sl.fmt q (c.vScale a l) none))))
  ∧ (∀ g d a f k, WritesSlot (.cvti g d a f k) f d (fun _ _ => True) (fun sl c l =>
      let sat := sl.sat || satHint (c.lane l).hints
      let x := c.rdV a l
      asWord (match k with
        | 0 => roundV .s32 sl.rtz sat (f32 x)
        | 1 => roundV .u32 sl.rtz sat (f32 x)
        | 2 => roundV .fp32 sl.rtz false (.fin (decide (x.toInt < 0)) x.toInt.natAbs 0)
        | _ => roundV .fp32 sl.rtz false (.fin false x.toNat 0))))
  ∧ (∀ g d a f k, WritesSlot (.pack g d a f k) f d (fun _ _ => True) (fun sl c l =>
      (setElem (c.rdV d l) sl.fmt.width k ((c.rdV a l).toNat % 2 ^ sl.fmt.width), 0)))
  ∧ (∀ g d a f k, WritesSlot (.unpack g d a f k) f d (fun _ _ => True) (fun sl c l =>
      let x := elemOf (c.rdV a l) sl.fmt.width k
      (if sl.fmt = .int8 ∨ sl.fmt = .int4 then BitVec.ofInt 32 (signedOf (2 ^ sl.fmt.width) x) else BitVec.ofNat 32 x, 0)))

/-- R140: an element written to a register reads back, and no other element of the register changes. -/
def Claims.ElementsAreApart : Prop :=
  ∀ (x : Word) (w k j v : Nat), w ∈ [4, 8, 16, 32] → k < 32 / w → j < 32 / w →
    elemOf (setElem x w k v) w j = if j = k then v % 2 ^ w else elemOf x w j

/-- R143, R124: `QNTV` writes the quantised elements, the block entry of each acting lane in s_8k and a tag bound to its
new generation; `CVTEF` writes an element and the new residue. That a payload byte which no acting lane's entry takes stays,
while its register's form becomes 0, is the model's reading (log entry 56). -/
def Obligations.QuantisesAndFeedsBack : Prop :=
  (∀ g d a f k s c act, Issues s (.qntv g d a f k) c act → ∃ c', Completes (.qntv g d a f k) s c' ∧
      let sl := slotOf (s.fmtOf c) f
      let xs := fun l => (List.range sl.perReg).map (fun j => f32 (c.rdV (a + j) l))
      let b := fun l => blockScale sl.fmt (xs l)
      let rs := fun l => (xs l).map (fun x => roundQuot sl.fmt sl.rtz sl.sat x (b l).1)
      (∀ l ∈ act, c'.rdV d l = BitVec.ofNat 32 (((rs l).map (·.1)).foldr (fun q n => q + n * 2 ^ sl.fmt.width) 0))
      ∧ (∀ n l, l < 32 → ¬ (n = d ∧ l ∈ act) → c'.rdV n l = c.rdV n l)
      ∧ (∀ l ∈ act, c'.sByte (8 * k) l = (b l).1 % 256)
      ∧ (∀ n l, l < 32 → ¬ (n = 8 * k ∧ l ∈ act) → c'.sByte n l = c.sByte n l)
      ∧ c'.sGen (8 * k) = (c.sGen (8 * k) + 1) % 16 ∧ c'.sBand (8 * k) = false
      ∧ (∀ n, n ≠ 8 * k → c'.sGen n = c.sGen n ∧ c'.sBand n = c.sBand n)
      ∧ c'.vtag d = mkTag (8 * k) ((c.sGen (8 * k) + 1) % 16) false 0
      ∧ c'.fpflags = raised c act (fun l => (rs l).foldl (fun fl r => fl ||| r.2) (b l).2)
      ∧ c'.g = c.g ∧ c'.e = c.e ∧ c'.tiles = c.tiles ∧ c'.accs = c.accs ∧ c'.stash = c.stash
      ∧ Moved c c' (s.cohort c) c.preds)
  ∧ (∀ g d a f k s c act, Issues s (.cvtef g d a f k) c act →
      (slotOf (s.fmtOf c) f).scale = 0 ∨ c.ScaleReady d → ∃ c', Completes (.cvtef g d a f k) s c' ∧ OnlyRegs c c' ∧
      let sl := slotOf (s.fmtOf c) f
      let r := fun l => residueStep sl.fmt (c.rdV a l) (c.rdE k l) (if sl.scale = 0 then none else some (c.vScale d l))
      (∀ l ∈ act, c'.rdV d l = setElem (c.rdV d l) sl.fmt.width k (r l).1 ∧ c'.rdE k l = (r l).2.1)
      ∧ (∀ n l, l < 32 → ¬ (n = k ∧ l ∈ act) → c'.rdE n l = c.rdE n l)
      ∧ KeepsV c c' act [d] ∧ c'.fpflags = raised c act (fun l => (r l).2.2) ∧ c'.g = c.g
      ∧ Moved c c' (s.cohort c) c.preds)

/-- R68, R141: an instruction that reads a scale through a register's tag traps with cause 0x0A, for its acting lanes,
when the tag is not current, once nothing fills the scale register that a bound tag names. -/
def Claims.StaleTagsTrap : Prop :=
  ∀ g d a f k s c act, c.kind ≠ .handler →
    (Issues s (.cvt g d a f k) c act → (slotOf (s.fmtOf c) f).scale ≠ 0 → c.ScaleStands d → c.vCurrent d = false →
      Traps (.cvt g d a f k) s 0x0A act 0)
    ∧ (Issues s (.cvtef g d a f k) c act → (slotOf (s.fmtOf c) f).scale ≠ 0 → c.ScaleStands d → c.vCurrent d = false →
      Traps (.cvtef g d a f k) s 0x0A act 0)
    ∧ (Issues s (.dqntv g d a f k) c act → (slotOf (s.fmtOf c) f).scale ≠ 0 → c.ScaleStands a → c.vCurrent a = false →
      Traps (.dqntv g d a f k) s 0x0A act 0)

/-- R144, R145: compares push their outcome; the predicate instructions rearrange or push; `PTOV` and `VOTE.ballot` write
a register. -/
def Obligations.CompareAndPredicates : Prop :=
  (∀ g a b cc, WritesP (.icmp g a b cc) (fun c _ l =>
      let x := c.rdV a l
      let y := c.rdV b l
      pushed (c.preds l) (match cc with
        | .eq => decide (x = y) | .ne => decide (x ≠ y)
        | .lt => decide (x.toInt < y.toInt) | .le => decide (x.toInt ≤ y.toInt)
        | .gt => decide (y.toInt < x.toInt) | .ge => decide (y.toInt ≤ x.toInt)
        | .ltU => decide (x.toNat < y.toNat) | .leU => decide (x.toNat ≤ y.toNat)
        | .gtU => decide (y.toNat < x.toNat) | .geU => decide (y.toNat ≤ x.toNat))))
  ∧ (∀ g a b cc, WritesP (.fcmp g a b cc) (fun c _ l => pushed (c.preds l) (fcond cc (f32 (c.rdV a l)) (f32 (c.rdV b l)))))
  ∧ (∀ g a, WritesP (.ppush g a) (fun c _ l => pushed (c.preds l) (decide (c.rdV a l ≠ 0))))
  ∧ (∀ g, WritesP (.ppop g) (fun c _ l => c.preds l >>> 1))
  ∧ (∀ g ix, WritesP (.pdup g ix) (fun c _ l => pushed (c.preds l) (c.pred l ix)))
  ∧ (∀ g ix, WritesP (.pnot g ix) (fun c _ l => pushed (c.preds l) (!c.pred l ix)))
  ∧ (∀ g ix j, WritesP (.pand g ix j) (fun c _ l => pushed (c.preds l) (c.pred l ix && c.pred l j)))
  ∧ (∀ g ix j, WritesP (.por g ix j) (fun c _ l => pushed (c.preds l) (c.pred l ix || c.pred l j)))
  ∧ (∀ g ix j, WritesP (.pxor g ix j) (fun c _ l => pushed (c.preds l) (c.pred l ix != c.pred l j)))
  ∧ (∀ g ix, ix < 8 → ∃ val, WritesP (.pswap g ix) val ∧ ∀ c act l n, n < 8 →
      (val c act l).getLsbD n = if n = 0 then c.pred l ix else if n = ix then c.pred l 0 else c.pred l n)
  ∧ (∀ g ix, ix < 8 → ∃ val, WritesP (.prot g ix) val ∧ ∀ c act l n, n < 8 →
      (val c act l).getLsbD n = c.pred l ((n + ix) % 8))
  ∧ (∀ g ix, WritesP (.voteAny g ix) (fun c act l => pushed (c.preds l) (act.any (fun m => c.pred m ix))))
  ∧ (∀ g ix, WritesP (.voteAll g ix) (fun c act l => pushed (c.preds l) (act.all (fun m => c.pred m ix))))
  ∧ (∀ g d ix, Writes1 (.ptov g d ix) d (fun c l => if c.pred l ix then 1 else 0))
  ∧ (∀ g d ix, WritesV (.voteBallot g d ix) [d] (fun c act _ _ => maskOf (act.filter (fun m => c.pred m ix))) noFlags)

/-- R131, R146, R147: uniform arithmetic writes one uniform register, once per issue; `GMOV` spreads one over the lanes;
`GCMP` pushes one outcome in every acting lane. -/
def Obligations.UniformArithmetic : Prop :=
  (∀ g d a, Writes1 (.gmov g d a) d (fun c _ => c.rdG a))
  ∧ (∀ g d a b, WritesG (.gadd g d a b) d (fun c _ => wrap32 ((c.rdG a).toInt + (c.rdG b).toInt)))
  ∧ (∀ g d a b, WritesG (.gsub g d a b) d (fun c _ => wrap32 ((c.rdG a).toInt - (c.rdG b).toInt)))
  ∧ (∀ g d a b, WritesG (.gmul g d a b) d (fun c _ => wrap32 ((c.rdG a).toInt * (c.rdG b).toInt)))
  ∧ (∀ g d a b, WritesG (.gand g d a b) d (fun c _ => c.rdG a &&& c.rdG b))
  ∧ (∀ g d a b, WritesG (.gor g d a b) d (fun c _ => c.rdG a ||| c.rdG b))
  ∧ (∀ g d a b, WritesG (.gshl g d a b) d (fun c _ =>
      if (c.rdG b).toNat < 32 then BitVec.ofNat 32 ((c.rdG a).toNat * 2 ^ (c.rdG b).toNat) else 0))
  ∧ (∀ g d a b, WritesG (.gshr g d a b) d (fun c _ =>
      if (c.rdG b).toNat < 32 then BitVec.ofNat 32 ((c.rdG a).toNat / 2 ^ (c.rdG b).toNat) else 0))
  ∧ (∀ g d a, WritesG (.gread g d a) d (fun c l => c.rdV a l))
  ∧ (∀ g d imm, WritesG (.gmovi g d imm) d (fun c l => wrap32 (wideImm 16 imm (c.lane l).hints)))
  ∧ (∀ g a b cc, WritesP (.gcmp g a b cc) (fun c _ l => pushed (c.preds l) (match cc with
        | .eq => decide (c.rdG a = c.rdG b) | .ne => decide (c.rdG a ≠ c.rdG b)
        | .lt => decide ((c.rdG a).toInt < (c.rdG b).toInt) | .ge => decide ((c.rdG b).toInt ≤ (c.rdG a).toInt))))

/-! ### Control flow (R60, R89 to R94, R149, R306, R308, R309) -/

/-- R149: taken branches go to their targets, and calls leave the address of the next word in their pair. -/
def Claims.Branching : Prop :=
  (∀ g imm, Branches (.bra g imm) none (fun c l =>
      (c.lane l).pc + BitVec.ofInt 64 (4 * wideImm 16 imm (c.lane l).hints)))
  ∧ (∀ g d imm, Branches (.call g d imm) (some d) (fun c l =>
      (c.lane l).pc + BitVec.ofInt 64 (4 * wideImm 16 imm (c.lane l).hints)))
  ∧ (∀ g a, Branches (.brx g a) none (fun c l => BitVec.ofNat 64 (c.rdPairV a l)))
  ∧ (∀ g d a, Branches (.callx g d a) (some d) (fun c l => BitVec.ofNat 64 (c.rdPairV a l)))
  ∧ (∀ g a, Branches (.ret g a) none (fun c l => BitVec.ofNat 64 (c.rdPairV a l)))

/-- R51, R89, R90, R149, R306, R308, R309: `NOP` changes nothing, hint words join the pending hints of their
lanes, lanes exit, sleep and yield, and `RGN` names the region set. The hint words are `HNT.wide`, `HNT.sched`
and `HNT.mod`. -/
def Claims.LaneControl : Prop :=
  (∀ g, WritesV (.nop g) [] (fun _ _ _ _ => 0) noFlags)
  ∧ (∀ i, isHint i = true → ∀ s c act, Issues s i c act → ∃ c', Completes i s c' ∧ OnlyRegs c c' ∧ c'.v = c.v
      ∧ c'.vtags = c.vtags ∧ c'.g = c.g ∧ c'.e = c.e ∧ c'.fpflags = c.fpflags
      ∧ ∀ l, c'.lane l = if l ∈ s.cohort c
          then { c.lane l with hints := (c.lane l).hints ++ [wordOf i], pc := (c.lane l).pc + 4, wait := .none } else c.lane l)
  ∧ (∀ g s c act, Issues s (.exit g) c act → c.kind ≠ .seq → ∃ t c', exec (.exit g) s = .next t ∧ t.ctx s.cur.ctx = c'
      ∧ Elsewhere s t s.cur.ctx c.pkg ∧ OnlyRegs c c' ∧ c'.v = c.v ∧ c'.g = c.g ∧ c'.e = c.e ∧ c'.fpflags = c.fpflags
      ∧ ∀ l, c'.lane l = if l ∈ act then { c.lane l with exited := true, hints := [], wait := .none }
          else if l ∈ s.cohort c then (c.lane l).onward else c.lane l)
  ∧ (∀ g s c act, Issues s (.exit g) c act → c.kind = .seq → s.childrenDone c = true → ∃ c', Completes (.exit g) s c'
      ∧ c'.exiting = true ∧ c'.evq = [] ∧ c'.v = c.v ∧ c'.g = c.g ∧ ∀ l ∈ act, (c'.lane l).exited = true)
  ∧ (∀ g a s c act, Issues s (.sleep g a) c act → ∃ c', Completes (.sleep g a) s c' ∧ OnlyRegs c c' ∧ c'.v = c.v ∧ c'.g = c.g
      ∧ c'.e = c.e ∧ c'.fpflags = c.fpflags
      ∧ ∀ l, c'.lane l = if l ∈ act ∧ c.rdV a l ≠ 0 then { c.lane l with wait := .sleep (s.now c + (c.rdV a l).toNat) }
          else if l ∈ s.cohort c then (c.lane l).onward else c.lane l)
  ∧ (∀ g d mask s c act, Issues s (.rgn g d mask) c act → c.kind = .group → ∃ c', Completes (.rgn g d mask) s c'
      ∧ (∀ n, n ∈ c'.regionSet ↔ ∃ j < 16, mask.testBit j = true ∧ n = d + j)
      ∧ (∀ n, n ∈ c'.staged ↔ n ∈ c'.regionSet ∧ n ∈ c.staged)
      ∧ c'.v = c.v ∧ c'.g = c.g ∧ c'.fpflags = c.fpflags ∧ Moved c c' (s.cohort c) c.preds)
  ∧ (∀ g s c act, Issues s (.yield g) c act → c.kind = .handler ∨ (s.unit c.unit).level ≠ 1 → WroteV (.yield g) s c act [] (fun _ _ => 0) (fun _ => 0))
  ∧ (∀ g s c act, Issues s (.yield g) c act → c.kind ≠ .handler → (s.unit c.unit).level = 1 →
      Sparse.find (s.pkg c.pkg).preq (s.unit c.unit).site.loc = none → ∃ c', Completes (.yield g) s c' ∧ OnlyRegs c c'
        ∧ c'.yld = true ∧ c'.v = c.v ∧ c'.g = c.g ∧ Moved c c' (s.cohort c) c.preds)

/-! ### Scale registers (chapters 03 and 07) -/

/-- R66, R67, R68, R168: a bind makes the tag current: a run whose GENs agree keeps them, another takes one more than
its highest; payloads and forms stay.  Unbinding clears BOUND alone, and `STAGRD` reads a tag or a control word. -/
def Claims.ScaleBinding : Prop :=
  (∀ g d a f s c act sh, Issues s (.sbindT g d a f) c act → (slotOf (s.fmtOf c) f).run = some sh → s.badRun c a sh.log = false →
      a + 2 ^ sh.log ≤ 64 → (∀ r ∈ runRegs a sh.log, c.sBand r = sh.band) →
      c.Unheld (.t d :: (runRegs a sh.log).map .s) → ∃ c', Completes (.sbindT g d a f) s c' ∧ OnlyScales c c'
      ∧ c'.tCurrent d sh = true ∧ tagIndex (c'.ttag d) = a ∧ c'.scales = c.scales ∧ c'.fpflags = c.fpflags
      ∧ (∀ n, c'.sBand n = c.sBand n) ∧ (∀ n, n ∉ runRegs a sh.log → c'.sGen n = c.sGen n)
      ∧ (∀ n ∈ runRegs a sh.log, c'.sGen n =
          if ∀ r ∈ runRegs a sh.log, c.sGen r = c.sGen a then c.sGen a
          else ((runRegs a sh.log).foldl (fun m r => max m (c.sGen r)) 0 + 1) % 16)
      ∧ ((∀ r ∈ runRegs a sh.log, c.sGen r = c.sGen a) → c'.vtags = c.vtags ∧ ∀ n, n ≠ d → c'.ttag n = c.ttag n)
      ∧ Moved c c' (s.cohort c) c.preds)
  ∧ (∀ g d a s c act, Issues s (.sbindV g d a) c act → s.badRun c a 0 = false → a < 64 → c.sBand a = false →
      c.Unheld [.v d, .s a] → ∃ c', Completes (.sbindV g d a) s c' ∧ OnlyRegs c c' ∧ c'.vCurrent d = true
      ∧ tagIndex (c'.vtag d) = a ∧ (∀ n, n ≠ d → c'.vtag n = c.vtag n) ∧ c'.v = c.v ∧ c'.g = c.g ∧ c'.e = c.e
      ∧ c'.fpflags = c.fpflags ∧ Moved c c' (s.cohort c) c.preds)
  ∧ (∀ g d s c act, Issues s (.sunbindT g d) c act → ∃ c', Completes (.sunbindT g d) s c' ∧ OnlyScales c c'
      ∧ (∀ n, c'.ttag n = if n = d then c.ttag n &&& 0x7FFF else c.ttag n)
      ∧ c'.scales = c.scales ∧ c'.sctl = c.sctl ∧ c'.vtags = c.vtags ∧ c'.fpflags = c.fpflags ∧ Moved c c' (s.cohort c) c.preds)
  ∧ (∀ g d s c act, Issues s (.sunbindV g d) c act → ∃ c', Completes (.sunbindV g d) s c' ∧ OnlyRegs c c'
      ∧ (∀ n, c'.vtag n = if n = d then c.vtag n &&& 0x7FFF else c.vtag n)
      ∧ c'.v = c.v ∧ c'.g = c.g ∧ c'.e = c.e ∧ c'.fpflags = c.fpflags ∧ Moved c c' (s.cohort c) c.preds)
  ∧ (∀ g d x k, Writes1 (.stagrd g d x k) d (fun c _ => match k with
      | 0 => (c.ttag x).zeroExtend 32
      | 1 => (c.vtag x).zeroExtend 32
      | _ => BitVec.ofNat 32 (c.sGen x + if c.sBand x then 16 else 0)))

/-- R67, R66: where a scale register's GEN becomes a value, every tag of the group that names the register with that GEN,
of a vector register or of a tile whose run includes it, has BOUND cleared, and no other tag changes; so it is for each of the
registers whose GEN `SMOV` advances. -/
def Claims.StaleTagsClear : Prop :=
  let stale := fun (t : BitVec 16) (n r x : Nat) => tagIndex t ≤ r ∧ r < tagIndex t + n ∧ tagGen t = x
  let once := fun (c : Ctx) => (∀ e ∈ c.vtags, Sparse.find c.vtags e.1 = some e.2) ∧ ∀ e ∈ c.ttags, Sparse.find c.ttags e.1 = some e.2
  (∀ (c : Ctx) r x band, once c → r < 64 → x < 16 → (c.setGen r x band).sGen r = x ∧ ∀ m,
      (stale (c.vtag m) 1 r x → (c.setGen r x band).vtag m = c.vtag m &&& 0x7FFF)
      ∧ (¬ stale (c.vtag m) 1 r x → (c.setGen r x band).vtag m = c.vtag m)
      ∧ (stale (c.ttag m) (2 ^ tagLog (c.ttag m)) r x → (c.setGen r x band).ttag m = c.ttag m &&& 0x7FFF)
      ∧ (¬ stale (c.ttag m) (2 ^ tagLog (c.ttag m)) r x → (c.setGen r x band).ttag m = c.ttag m))
  ∧ (∀ g d a n s c act, Issues s (.smov g d a n) c act → RunsFree s c [(d, n), (a, n)] → once c →
      ∃ c', Completes (.smov g d a n) s c' ∧ ∀ m,
        ((∃ j < 2 ^ n, stale (c.vtag m) 1 (d + j) ((c.sGen (d + j) + 1) % 16)) → c'.vtag m = c.vtag m &&& 0x7FFF)
        ∧ ((∀ j < 2 ^ n, ¬ stale (c.vtag m) 1 (d + j) ((c.sGen (d + j) + 1) % 16)) → c'.vtag m = c.vtag m)
        ∧ ((∃ j < 2 ^ n, stale (c.ttag m) (2 ^ tagLog (c.ttag m)) (d + j) ((c.sGen (d + j) + 1) % 16)) → c'.ttag m = c.ttag m &&& 0x7FFF)
        ∧ ((∀ j < 2 ^ n, ¬ stale (c.ttag m) (2 ^ tagLog (c.ttag m)) (d + j) ((c.sGen (d + j) + 1) % 16)) → c'.ttag m = c.ttag m))

/-- R66, R169: scale arithmetic changes the entries that both runs hold, each rounded once, and no GEN; `SMOV` copies
payloads with their forms and advances the GEN of every register it writes. -/
def Claims.ScaleArithmetic : Prop :=
  (∀ g d a n s c act, Issues s (.smov g d a n) c act → RunsFree s c [(d, n), (a, n)] →
      ∃ c', Completes (.smov g d a n) s c' ∧ OnlyScales c c' ∧ c'.fpflags = c.fpflags
      ∧ (∀ j < 2 ^ n, c'.sBand (d + j) = c.sBand (a + j) ∧ c'.sGen (d + j) = (c.sGen (d + j) + 1) % 16
          ∧ ∀ k < 32, c'.sByte (d + j) k = if c.sBand (a + j) ∧ 24 ≤ k then 0 else c.sByte (a + j) k)
      ∧ (∀ m, m ∉ runRegs d n → c'.sBand m = c.sBand m ∧ c'.sGen m = c.sGen m ∧ ∀ k < 32, c'.sByte m k = c.sByte m k)
      ∧ Moved c c' (s.cohort c) c.preds)
  ∧ (∀ g d a n band, MapsPart (.smul g d a n band) d d n band (fun c j k =>
      roundPart band (mulV (readF (partFmt band) (c.partEntry band (d + j) k)) (f32 (c.rdG a)))))
  ∧ (∀ g d a n band, MapsPart (.sadd g d a n band) d a n band (fun c j k =>
      roundPart band (sumV [readF (partFmt band) (c.partEntry band (d + j) k), readF (partFmt band) (c.partEntry band (a + j) k)])))
  ∧ (∀ g d a n band, MapsPart (.smax g d a n band) d a n band (fun c j k =>
      (maxCodeOf (partFmt band) (c.partEntry band (d + j) k) (c.partEntry band (a + j) k), 0)))

/-! ### Memory instructions (chapter 09, R148, R170) -/

/-- R148, R170, R202, R207, R210, R211, R214 to R216, R220, R221: the issue of every global access: the addresses, the
lengths and alignments, the words that a store or an atomic takes along, the registers that a load holds, and the
counter on which it counts. -/
def Obligations.GlobalAccessesIssue : Prop :=
  (∀ g d b off sz sx, Queues (.ld g d b off sz sx) none 0 .read none false ((sizeRegs d sz).map .v) (fun _ _ => [])
      (fun c act => act.map (fun l =>
        { lane := l, va := effAddr (c.rdPairV b l) (wideImm 6 off (c.lane l).hints * sz.bytes), len := sz.bytes, align := sz.bytes })))
  ∧ (∀ g d b lvl sz sx, Queues (.ldAcq g d b lvl sz sx) none 0 .read none false ((sizeRegs d sz).map .v) (fun _ _ => [])
      (fun c act => act.map (fun l =>
        { lane := l, va := c.rdPairV b l, len := sz.bytes, align := sz.bytes })))
  ∧ (∀ g d b off sz, Queues (.st g d b off sz) none 1 .write (some .store) false [] (fun _ _ => [])
      (fun c act => act.map (fun l =>
        { lane := l, va := effAddr (c.rdPairV b l) (wideImm 6 off (c.lane l).hints * sz.bytes), len := sz.bytes, align := sz.bytes
          data := (sizeRegs d sz).map (fun n => c.rdV n l) })))
  ∧ (∀ g d b lvl sz, Queues (.stRel g d b lvl sz) (some lvl) 1 .write (some .store) false [] (fun _ _ => [])
      (fun c act => act.map (fun l =>
        { lane := l, va := c.rdPairV b l, len := sz.bytes, align := sz.bytes, data := (sizeRegs d sz).map (fun n => c.rdV n l) })))
  ∧ (∀ g d b n, Queues (.ldm g d b n) none 4 .read none false (vRun d n) (fun _ _ => [])
      (fun c act => act.map (fun l => { lane := l, va := c.rdPairV b l, len := 4 * n, align := 4 })))
  ∧ (∀ g d b n, Queues (.stm g d b n) none 4 .write (some .store) false [] (fun _ _ => [])
      (fun c act => act.map (fun l =>
        { lane := l, va := c.rdPairV b l, len := 4 * n, align := 4, data := (List.range n).map (fun j => c.rdV (d + j) l) })))
  ∧ (∀ g t b off, Queues (.ldt g t .global b off) none 5 .read none false [.t t] (fun _ _ => [])
      (fun c act => [{ lane := act.headD 0, len := 1024, align := 64
                       va := effAddr (c.rdPairG b) (wideImm 6 off (c.lane (act.headD 0)).hints * 1024) }]))
  ∧ (∀ g t b off, Queues (.stt g t .global b off) none 5 .write (some .store) false [] (fun _ _ => [])
      (fun c act => [{ lane := act.headD 0, len := 1024, align := 64, data := bytesWords (c.rdTile t)
                       va := effAddr (c.rdPairG b) (wideImm 6 off (c.lane (act.headD 0)).hints * 1024) }]))
  ∧ (∀ g d b lvl op, Queues (.atom g d b lvl op) (some lvl) 2 .atomic none false [.v d] (fun _ _ => [])
      (fun c act => act.map (fun l => { lane := l, va := c.rdPairV b l, len := 4, align := 4, data := [c.rdV d l] })))
  ∧ (∀ g d b lvl, Queues (.cas g d b lvl) (some lvl) 2 .atomic none false [.v d, .v (d + 1)] (fun _ _ => [])
      (fun c act => act.map (fun l =>
        { lane := l, va := c.rdPairV b l, len := 4, align := 4, data := [c.rdV d l, c.rdV (d + 1) l] })))
  ∧ (∀ g d b off, Queues (.gld g d b off) none 0 .read none false [.g d] (fun _ _ => [])
      (fun c act => [{ lane := act.headD 0, len := 4, align := 4
                       va := effAddr (c.rdPairG b) (wideImm 6 off (c.lane (act.headD 0)).hints * 4) }]))
  ∧ (∀ g d b off, Queues (.gst g d b off) none 1 .write (some .store) false [] (fun _ _ => [])
      (fun c act => [{ lane := act.headD 0, len := 4, align := 4, data := [c.rdG d]
                       va := effAddr (c.rdPairG b) (wideImm 6 off (c.lane (act.headD 0)).hints * 4) }]))
  ∧ (∀ g d b off, Queues (.sld g d b off) none 0 .read none false [.s d] (fun _ _ => [])
      (fun c act => [{ lane := act.headD 0, len := 40, align := 8
                       va := effAddr (c.rdPairG b) (wideImm 6 off (c.lane (act.headD 0)).hints * 40) }]))
  ∧ (∀ g d b off, Queues (.sst g d b off) none 1 .write (some .store) false [] (fun _ _ => [])
      (fun c act => [{ lane := act.headD 0, len := 40, align := 8
                       data := bytesWords (c.sPayload d ++ bytesOfNat 8 (c.sGen d + if c.sBand d then 16 else 0))
                       va := effAddr (c.rdPairG b) (wideImm 6 off (c.lane (act.headD 0)).hints * 40) }]))

/-- R203, R204, R207, R212, R216: the issue of core-store and cluster-memory accesses. That an address wraps modulo 2^32
is the model's choice (log entry 54). -/
def Claims.LocalAccesses : Prop :=
  let at32 := fun (b : Word) (off : Int) => (((b.toNat : Int) + off) % 2 ^ 32).toNat
  (∀ g d b off sz, QueuesLocal (.ldc g d b off sz) 0 none ((sizeRegs d sz).map .v) (fun s c r => s.coreStore c r.va r.len)
      (fun c act => act.map (fun l =>
        { lane := l, va := at32 (c.rdV b l) (wideImm 6 off (c.lane l).hints * sz.bytes), len := sz.bytes, align := sz.bytes })))
  ∧ (∀ g d b off sz, QueuesLocal (.stc g d b off sz) 1 (some .store) [] (fun s c r => s.coreStore c r.va r.len)
      (fun c act => act.map (fun l =>
        { lane := l, va := at32 (c.rdV b l) (wideImm 6 off (c.lane l).hints * sz.bytes), len := sz.bytes, align := sz.bytes
          data := (sizeRegs d sz).map (fun n => c.rdV n l) })))
  ∧ (∀ g d b off sz, QueuesLocal (.ldk g d b off sz) 0 none ((sizeRegs d sz).map .v) (fun s c r => s.clusterMem c r.va r.len)
      (fun c act => act.map (fun l =>
        { lane := l, va := at32 (c.rdV b l) (wideImm 6 off (c.lane l).hints * sz.bytes), len := sz.bytes, align := sz.bytes })))
  ∧ (∀ g d b off sz, QueuesLocal (.stk g d b off sz) 1 (some .store) [] (fun s c r => s.clusterMem c r.va r.len)
      (fun c act => act.map (fun l =>
        { lane := l, va := at32 (c.rdV b l) (wideImm 6 off (c.lane l).hints * sz.bytes), len := sz.bytes, align := sz.bytes
          data := (sizeRegs d sz).map (fun n => c.rdV n l) })))
  ∧ (∀ sp g t b off, sp ≠ TSpace.global →
      let res := fun (s : State) (c : Ctx) (r : Req) => if sp = .core then s.coreStore c r.va r.len else s.clusterMem c r.va r.len
      QueuesLocal (.ldt g t sp b off) 5 none [.t t] res (fun c act =>
        [{ lane := act.headD 0, va := at32 (c.rdG b) (wideImm 6 off (c.lane (act.headD 0)).hints * 1024), len := 1024, align := 64 }])
      ∧ QueuesLocal (.stt g t sp b off) 5 (some .store) [] res (fun c act =>
        [{ lane := act.headD 0, va := at32 (c.rdG b) (wideImm 6 off (c.lane (act.headD 0)).hints * 1024), len := 1024, align := 64
           data := bytesWords (c.rdTile t) }]))

/-- R218, R219: the issue of `LDSC`, of both its streams in one entry, and of `LDX`, with its barrier object. -/
def Claims.ScaledAndGatheredLoads : Prop :=
  (∀ g d b f s c act sh, Issues s (.ldsc g d b f) c act → (slotOf (s.fmtOf c) f).run = some sh →
      let w := c.rdG d
      let base := wbits w 31 26
      let l := act.headD 0
      let holds : List RegName := .t (wbits w 25 22) :: (runRegs base sh.log).map .s
      wbits w 19 0 = 0 → wbits w 25 22 < s.limit c (.t 0) → s.badRun c base sh.log = false → c.Unheld holds →
      (wbits w 21 20 = 0 → ∀ reqs : List Req,
        reqs = [{ lane := l, va := c.rdPairG b, len := 1024, align := 64 },
                { lane := 32 + l, va := c.rdPairG (b + 2), len := 32 * 2 ^ sh.log, align := 32 }] →
        Takes s c none .read true reqs →
        Queued (.ldsc g d b f) s s c 5 none holds [w] reqs (s.places (s.partyOf c true) .read) .none)
      ∧ (wbits w 21 20 ∈ [1, 2] → ∀ reqs : List Req,
        reqs = [{ lane := l, va := (c.rdG b).toNat, len := 1024, align := 64 },
                { lane := 32 + l, va := (c.rdG (b + 2)).toNat, len := 32 * 2 ^ sh.log, align := 32 }] →
        ∀ res, res = (fun r : Req => if wbits w 21 20 = 1 then s.coreStore c r.va r.len else s.clusterMem c r.va r.len) →
        TakesLocal s c none res reqs →
        Queued (.ldsc g d b f) s s c 5 none holds [w] reqs (fun r => (res r).places) .none))
  ∧ (∀ g d b c0 s c act, Issues s (.ldx g d b c0) c act →
      let w := c.rdG c0
      let n := [4, 8, 16, 64].getD (wbits w 27 26) 0
      let ref := w.toNat % 2 ^ 25
      wbits w 31 28 = 0 → wbits w 25 25 = 0 → ref % 16 = 0 → (∀ e ∈ c.rq, e.id < c.nextId) →
      ∀ o, s.objectRef c ref = .ok o →
      (∀ l ∈ act, (c.rdV d l).toNat % n = 0 ∧ ∃ p, s.coreStore c (c.rdV d l).toNat n = .ok p) →
      ∀ reqs : List Req, reqs = act.map (fun l => { lane := l, va := c.rdPairV b l, len := n, align := n, data := [c.rdV d l] }) →
      Takes s c (some .copy) .read true reqs →
      Queued (.ldx g d b c0) s s c 6 (some .copy) [] [w] reqs (s.places (s.partyOf c true) .read) o)

/-- R205, R209, R212: stash accesses are performed at issue, in the stash of their own lane. That an address wraps modulo
2^32 is the model's choice (log entry 54). -/
def Claims.StashAccesses : Prop :=
  ∀ g d b off sz s c act,
    let addr := fun l => (((c.rdV b l).toNat + wideImm 6 off (c.lane l).hints * sz.bytes) % 2 ^ 32).toNat
    let n := sz.bytes
    let stash := fun (c : Ctx) (l a : Nat) => Sparse.get 0 c.stash (2048 * l + a)
    c.kind = .group → (∀ l ∈ act, addr l % n = 0 ∧ addr l + n ≤ 2048 ∧ addr l + n ≤ (s.gridOf c).stash) →
    (Issues s (.ldl g d b off sz) c act → WroteV (.ldl g d b off sz) s c act (sizeRegs d sz)
      (fun l r => BitVec.ofNat 32 (natOfBytes ((List.range n).map (fun j => stash c l (addr l + j))) / 2 ^ (32 * (r - d)))) (fun _ => 0))
    ∧ (Issues s (.stl g d b off sz) c act → ∃ c', Completes (.stl g d b off sz) s c'
      ∧ (∀ l ∈ act, ∀ j < n, stash c' l (addr l + j) = BitVec.ofNat 8 ((c.rdV (d + j / 4) l).toNat / 2 ^ (8 * (j % 4))))
      ∧ (∀ l a, a < 2048 → ¬ (l ∈ act ∧ addr l ≤ a ∧ a < addr l + n) → stash c' l a = stash c l a)
      ∧ c' = { c with lanes := c'.lanes, stash := c'.stash, yld := c'.yld, prio := c'.prio
                      misses := c'.misses, hold := none, withdrawn := false, missAt := none }
      ∧ Moved c c' (s.cohort c) c.preds)

/-- R222, R223: prefetches and cache control always complete.  They touch translation and data caches only: `PREF` the
translations, the lines of core and die caches and their directory; `CCTL` also what stands in those caches on its way to the
homes, which it may bring there, and the reservations of application cores on lines so written; and `CCTL.invd` merges shadow
words of its line, whose slots and counters may then change.  Every byte that is none of those stays, and so does every other
part of every package.  (An open reduction slot on a word that a page walk reads would be released, R183.) -/
def Obligations.CacheInstructions : Prop :=
  let caches := fun (q r : Package) => { q with tlbs := r.tlbs, walks := r.walks, dlines := r.dlines, dieLines := r.dieLines, dir := r.dir }
  let ends := fun (q : Package) => q.harts.map (fun e => (e.1, e.2.last))
  ∀ i s c act, Issues s i c act → (∀ p, (s.pkg p).slots = []) →
    let moved := fun (t : State) (c' : Ctx) => exec i s = .next t ∧ t.ctx s.cur.ctx = c' ∧ OnlyRegs c c' ∧ c'.v = c.v ∧ c'.vtags = c.vtags
      ∧ c'.g = c.g ∧ c'.e = c.e ∧ c'.fpflags = c.fpflags ∧ Moved c c' (s.cohort c) c.preds ∧ (∀ j, j ≠ s.cur.ctx → t.ctx j = s.ctx j)
    let early := fun (a : Loc) => ∃ e ∈ (s.pkg c.pkg).early, ∃ n < e.bytes.length, a = .hbm (e.key + n)
    let shadow := fun (a : Loc) => ∃ x ∈ (s.pkg c.pkg).shadows, ∃ n < 4, a = .hbm (x.key + n)
    ((∃ g die b off, i = .pref g die b off) → ∃ t c', moved t c' ∧ t = { s with ctxs := t.ctxs, pkgs := t.pkgs }
        ∧ ∀ p, t.pkg p = caches (s.pkg p) (t.pkg p))
    ∧ ((∃ g op b off, i = .cctl g op b off ∧ (op = .invd → ∀ p, (s.pkg p).shadows = [])) →
        ∃ t c', moved t c' ∧ t = { s with ctxs := t.ctxs, pkgs := t.pkgs, hbm := t.hbm } ∧ (∀ a, ¬ early a → t.rdByte a = s.rdByte a)
          ∧ ∀ p, t.pkg p = { caches (s.pkg p) (t.pkg p) with early := (t.pkg p).early, harts := (t.pkg p).harts }
            ∧ ends (t.pkg p) = ends (s.pkg p) ∧ ∀ e ∈ (t.pkg p).early, ∃ f ∈ (s.pkg p).early, e.key = f.key ∧ e.bytes = f.bytes)
    ∧ ((∃ g b off, i = .cctl g .invd b off) →
        ∃ t c', moved t c' ∧ t = { s with ctxs := t.ctxs, pkgs := t.pkgs, hbm := t.hbm }
          ∧ (∀ a, ¬ early a → ¬ shadow a → t.rdByte a = s.rdByte a)
          ∧ ∀ p, t.pkg p = { caches (s.pkg p) (t.pkg p) with
                early := (t.pkg p).early, harts := (t.pkg p).harts, shadows := (t.pkg p).shadows, slots := (t.pkg p).slots
                slotClock := (t.pkg p).slotClock, regs := (t.pkg p).regs }
            ∧ ends (t.pkg p) = ends (s.pkg p) ∧ SameRegs (s.pkg p) (t.pkg p) ((List.range 9).map (fun d => 0x0400 + 8 * d))
            ∧ ∀ x ∈ (t.pkg p).shadows, x ∈ (s.pkg p).shadows)

/-! ### Accesses performed, and reductions (chapters 08 to 10) -/

/-- R170, R208, R210 to R212, R214, R216, R238, R239, R148: a load that is performed brings what its context sees
of memory into its destination, extended as the instruction says, and leaves every byte of storage and every
other register alone. (An access that crosses pages is performed page by page; this is the access within one.)
Here a lane's access is performed in one step; a step may also take one word of it (log entry 9). -/
def Obligations.LoadsPerform : Prop :=
  ∀ s k id l c en x o n, Ready s k id l c en x → en.kind ≠ 3 → en.kind < 6 → l < 32 → s.NoSlots → s.LinesWhole → s.KeepsLines c o n → x.segs = [(o, n)] →
    let bs := s.seen c x.nc o n
    (∀ d ws, ((∃ g b off sz sx, en.ins = .ld g d b off sz sx ∧ ws = loadWords sz sx bs)
        ∨ (∃ g b lvl sz sx, en.ins = .ldAcq g d b lvl sz sx
            ∧ ws = loadWords sz sx (s.seen c (x.nc || decide (4 ≤ lvl)) o n))
        ∨ (∃ g b off sz, (en.ins = .ldc g d b off sz ∨ en.ins = .ldk g d b off sz) ∧ ws = loadWords sz false bs)) →
      ∃ t c', Performs (.accessPerformed k id l) s k id l c t c' ∧ SameBytes s t
        ∧ (∀ j < ws.length, c'.rdV (d + j) l = ws.getD j 0)
        ∧ KeepsV c c' [l] ((List.range ws.length).map (fun j => d + j))
        ∧ c' = { c with v := c'.v, vtags := c'.vtags, rq := c'.rq, late := c'.late })
    ∧ (∀ g d b off, en.ins = .gld g d b off → ∃ t c', Performs (.accessPerformed k id l) s k id l c t c' ∧ SameBytes s t
        ∧ (∀ m, c'.rdG m = if m = d then BitVec.ofNat 32 (natOfBytes bs) else c.rdG m) ∧ c' = { c with g := c'.g, rq := c'.rq })
    ∧ (∀ g d b off, en.ins = .sld g d b off → n = 40 → ∃ t c', Performs (.accessPerformed k id l) s k id l c t c' ∧ SameBytes s t
        ∧ c'.sBand d = (bs.getD 32 0).getLsbD 4 ∧ c'.sGen d = (c.sGen d + 1) % 16
        ∧ (∀ j < 32, c'.sByte d j = if c'.sBand d ∧ 24 ≤ j then 0 else (bs.getD j 0).toNat)
        ∧ (∀ m, m ≠ d → c'.sBand m = c.sBand m ∧ c'.sGen m = c.sGen m ∧ ∀ j < 32, c'.sByte m j = c.sByte m j)
        ∧ c' = { c with scales := c'.scales, sctl := c'.sctl, vtags := c'.vtags, ttags := c'.ttags, rq := c'.rq })
    ∧ (∀ g d sp b off, en.ins = .ldt g d sp b off → n = 1024 → ∃ t c', Performs (.accessPerformed k id l) s k id l c t c'
        ∧ SameBytes s t ∧ c'.rdTile d = bs ∧ (∀ m, m ≠ d → c'.rdTile m = c.rdTile m ∧ c'.ttag m = c.ttag m)
        ∧ c'.ttag d = c.ttag d &&& 0x7FFF ∧ c' = { c with tiles := c'.tiles, ttags := c'.ttags, rq := c'.rq })
    ∧ (∀ g d b r, en.ins = .ldm g d b r → n = 4 * r → 0 < r → x.progress = 0 → ∃ t c',
        Performs (.accessPerformed k id l) s k id l c t c' ∧ SameBytes s t
        ∧ (∀ j < r, c'.rdV (d + j) l = BitVec.ofNat 32 (natOfBytes ((bs.drop (4 * j)).take 4)))
        ∧ KeepsV c c' [l] ((List.range r).map (fun j => d + j)) ∧ c' = { c with v := c'.v, vtags := c'.vtags, rq := c'.rq })

/-- R148, R170, R208, R210 to R212, R214, R216: a store that is performed writes its words, least significant byte
first, to the bytes that its capture names, and no other byte of storage and no register changes. Here a lane's access is
performed in one step; a step may also take one word of it (log entry 9). -/
def Obligations.StoresPerform : Prop :=
  ∀ s k id l c en x o n, Ready s k id l c en x → en.kind ≠ 3 → en.kind < 6 → s.NoSlots → x.segs = [(o, n)] → s.Place o →
    let bs := (x.data.flatMap (fun w => [w.extractLsb' 0 8, w.extractLsb' 8 8, w.extractLsb' 16 8, w.extractLsb' 24 8])).take n
    ((∃ g d b off sz, en.ins = .st g d b off sz ∨ en.ins = .stc g d b off sz ∨ en.ins = .stk g d b off sz)
      ∨ (∃ g d b lvl sz, en.ins = .stRel g d b lvl sz) ∨ (∃ g d sp b off, en.ins = .stt g d sp b off)
      ∨ (∃ g d b off, en.ins = .gst g d b off ∨ en.ins = .sst g d b off)
      ∨ (∃ g d b r, en.ins = .stm g d b r ∧ n = 4 * r ∧ x.data.length = r ∧ 0 < r)) →
    x.progress = 0 → x.len = n → n ≤ 4 * x.data.length →
    ∃ t c', Performs (.accessPerformed k id l) s k id l c t c' ∧ Stored s t o bs ∧ c' = c.withRq c'.rq

/-- R220, R221, R237: an atomic that is performed gives its register the word that memory held and writes the word of
its operation; `CAS` writes the new word only where the old one matched, and pushes whether it did; `.fadd` adds into a
reduction slot, which the next access of the word rounds. -/
def Claims.AtomicsPerform : Prop :=
  ∀ s k id l c en x o, Ready s k id l c en x → en.kind = 2 → l < 32 → s.NoSlots → x.segs = [(o, 4)] → s.Place o →
    let old := s.rdWord o
    (∀ g d b lvl op a, en.ins = .atom g d b lvl op → x.data = [a] → op ≠ .fadd → ∃ t c',
      Performs (.accessPerformed k id l) s k id l c t c' ∧ Stored s t o (bytesOfNat 4 (match op with
        | .add => old + a | .and => old &&& a | .or => old ||| a | .xor => old ^^^ a
        | .min => if a.toInt < old.toInt then a else old | .max => if old.toInt < a.toInt then a else old
        | .minU => if a.toNat < old.toNat then a else old | .maxU => if old.toNat < a.toNat then a else old
        | .exch => a | .fadd => old).toNat)
      ∧ c'.rdV d l = old ∧ KeepsV c c' [l] [d] ∧ c' = { c with v := c'.v, vtags := c'.vtags, rq := c'.rq })
    ∧ (∀ g d b lvl a, en.ins = .atom g d b lvl .fadd → x.data = [a] → (s.slotRoom (s.unitSite o).1 (s.unitSite o).2 c.asid 0).isSome →
      ∃ t c' y, Performs (.accessPerformed k id l) s k id l c t c' ∧ SameBytes s t ∧ t.slotAt o = some y
      ∧ y.acc = acc320 (f32 old) + acc320 (f32 a) ∧ c'.rdV d l = ((default : RedSlot).load old).round
      ∧ KeepsV c c' [l] [d] ∧ c' = { c with v := c'.v, vtags := c'.vtags, rq := c'.rq })
    ∧ (∀ g d b lvl a b', en.ins = .cas g d b lvl → x.data = [a, b'] → ∃ t c',
      Performs (.accessPerformed k id l) s k id l c t c'
      ∧ Stored s t o (bytesOfNat 4 (if old = a then b' else old).toNat)
      ∧ c'.rdV d l = old ∧ KeepsV c c' [l] [d]
      ∧ (∀ m, c'.lane m = if m = l then { c.lane m with pred := pushed (c.preds m) (decide (old = a)) } else c.lane m)
      ∧ c' = { c with v := c'.v, vtags := c'.vtags, rq := c'.rq, lanes := c'.lanes })

/-- R177, R178, R181: an integer contribution combines with its word at once; a floating-point one opens a slot on the
word, whose exact sum holds the word and the contribution, and memory waits. -/
def Claims.ContributionsArrive : Prop :=
  ∀ s k id l c en x o v g lvl rx ry op one r, Ready s k id l c en x → en.kind = 3 → s.NoSlots → x.segs = [(o, 4)] → s.Place o →
    en.ins = .reduce g lvl rx ry op one r → x.data = [v] → s.usesShadow c lvl op o = false →
    let old := s.rdWord o
    (op ≠ .fadd → ∃ t c', Performs (.reduceContribution k id l) s k id l c t c' ∧ Stored s t o (bytesOfNat 4 (match op with
        | .add => old + v | .min => if v.toInt < old.toInt then v else old | .max => if old.toInt < v.toInt then v else old
        | .and => old &&& v | .or => old ||| v | .xor => old ^^^ v | .minU => if v.toNat < old.toNat then v else old
        | .maxU => if old.toNat < v.toNat then v else old | .fadd => old).toNat) ∧ c' = c.withRq c'.rq)
    ∧ (op = .fadd → (s.slotRoom (s.unitSite o).1 (s.unitSite o).2 c.asid 0).isSome → ∃ t c' y,
        Performs (.reduceContribution k id l) s k id l c t c' ∧ SameBytes s t ∧ t.slotAt o = some y
        ∧ y.acc = acc320 (f32 old) + acc320 (f32 v) ∧ c' = c.withRq c'.rq)

/-- R181, R182: contributions to a slot give the same slot in any order, and a slot of finite values with an exact sum
other than zero rounds it once, to nearest; a slot that holds only the word it was opened on rounds to that word. -/
def Claims.SlotsAreExact : Prop :=
  (∀ (x : RedSlot) (a b : Word), (x.add a).add b = (x.add b).add a)
  ∧ (∀ (x : RedSlot), x.nan = false → x.pinf = false → x.ninf = false → x.acc ≠ 0 →
      x.round = BitVec.ofNat 32 (roundV .fp32 false false (.fin (decide (x.acc.toInt < 0)) x.acc.toInt.natAbs (-149))).1)
  ∧ (∀ (x : RedSlot), x.nan = true ∨ (x.pinf = true ∧ x.ninf = true) → x.round = 0x7FC00000)
  ∧ (∀ a : Word, (acc320 (f32 a)).toInt = scaledInt (-149) (f32 a))
  ∧ (∀ w : Word, (f32 w).isNaN = false → ((default : RedSlot).load w).round = w)

/-- R183, R186, R187, R240: an access of a word with an open slot finds the slot's rounding, written to the word; a
shadow line that is evicted merges its words, here where no store stands in a cache before its home; a line that no scope owns leaves its core's cache after 65,536 ticks. -/
def Obligations.SlotsShadowsAndLines : Prop :=
  (∀ s o x, s.slotAt o = some x → o.word = o → s.Place o → (∀ y ∈ (s.pkg (s.unitSite o).1).slots, y.loc = o → y = x) →
      (s.homeRead o 4).2 = bytesOfNat 4 x.round.toNat ∧ (s.homeRead o 4).1.slotAt o = none
      ∧ Stored s (s.homeRead o 4).1 o (bytesOfNat 4 x.round.toNat))
  ∧ (∀ s p die line x, (s.pkg p).shadows.filter (fun y => decide (y.die = die) && decide (y.key / 64 = line)) = [x] →
      x.op ≠ .fadd → (∀ q, (s.pkg q).slots = []) → (s.pkg p).early = [] → ∃ t, exec (.shadowLineEvict p die line) s = .next t
      ∧ (t.pkg p).shadows = (s.pkg p).shadows.filter (fun y => decide (y ≠ x))
      ∧ Stored s t (.hbm x.key) (bytesOfNat 4 (redInt x.op (s.rdWord (.hbm x.key)) x.val).toNat)
      ∧ t.ctxs = s.ctxs ∧ t.units = s.units ∧ t.grids = s.grids)
  ∧ (∀ s p core line x, (s.pkg p).dline core line = some x → x.own = [] →
      x.fill + 65536 ≤ s.dieCount p (siteOfLoc core) → ∃ t, exec (.lineAgeInvalidate p core line) s = .next t
      ∧ (t.pkg p).dline core line = none
      ∧ (∀ n key, ¬ (n = core ∧ key = line) → (t.pkg p).dline n key = (s.pkg p).dline n key)
      ∧ SameBytes s t ∧ t.ctxs = s.ctxs ∧ t.units = s.units ∧ t.grids = s.grids)

/-- R219, R250: an `LDX` lane's bytes are written to its core-store destination and counted into its object. -/
def Claims.GatherLanesWrite : Prop :=
  ∀ s k id l c en x o n dst, Ready s k id l c en x → en.kind = 6 → s.NoSlots → x.segs = [(o, n)] → x.len = n →
    c.laneClear id [l] = true → s.coreStore c (x.data.headD 0).toNat n = .ok dst → s.Place dst → s.Place en.obj →
    (∀ i < n, ∀ j < 16, dst.add i ≠ en.obj.add j) →
    ∃ t c', Performs (.ldxLaneWrite k id l) s k id l c t c' ∧ c' = c.withRq c'.rq
      ∧ (∀ i < n, t.rdByte (dst.add i) = s.rdByte (o.add i))
      ∧ t.object en.obj = objTest (objPut (s.object en.obj) 95 64 (min (objFld (s.object en.obj) 95 64 + n) (2 ^ 32 - 1)))
      ∧ ∀ a, (∀ i < n, a ≠ dst.add i) → (∀ j < 16, a ≠ en.obj.add j) → t.rdByte a = s.rdByte a

/-- R66, R67, R69, R218: when the second of an `LDSC`'s two streams is performed, the tile takes the data, each register of
the run its payload, the form of the slot's mode and one GEN, the next after that of the first register, and the tile's tag is
bound to the run with that GEN; every other tile, scale register and payload stays, and other tags lose BOUND at most. -/
def Claims.ScaledLoadsFill : Prop :=
  ∀ s k id l m c en x y o n g d b f sh w, Ready s k id l c en x → en.ins = .ldsc g d b f → en.kind = 5 → en.args = [w] → en.inLog = false →
    l < 64 → m = (l + 32) % 64 → (∀ z ∈ en.caps, z.1 = l ∨ z = (m, y)) → Sparse.find en.caps m = some y → y.done = true →
    (∀ z ∈ c.vtags, Sparse.find c.vtags z.1 = some z.2) → (∀ z ∈ c.ttags, Sparse.find c.ttags z.1 = some z.2) → (slotOf (s.fmtOf c) f).run = some sh → s.NoSlots → s.LinesWhole → s.KeepsLines c o n → x.segs = [(o, n)] →
    wbits w 31 26 + 2 ^ sh.log ≤ 64 →
    let bs := s.seen c x.nc o n
    let data := if l < 32 then bs else wordsBytes y.data
    let recs := if l < 32 then wordsBytes y.data else bs
    let base := wbits w 31 26
    let t0 := wbits w 25 22
    let gen := (c.sGen base + 1) % 16
    data.length = 1024 → recs.length = 32 * 2 ^ sh.log →
    ∃ t c', Performs (.accessPerformed k id l) s k id l c t c' ∧ SameBytes s t
      ∧ c' = { c with tiles := c'.tiles, ttags := c'.ttags, vtags := c'.vtags, scales := c'.scales, sctl := c'.sctl, rq := c'.rq }
      ∧ c'.rdTile t0 = data ∧ (∀ z, z ≠ t0 → c'.rdTile z = c.rdTile z)
      ∧ (∀ j < 2 ^ sh.log, c'.sBand (base + j) = sh.band ∧ c'.sGen (base + j) = gen
          ∧ ∀ q < 32, c'.sByte (base + j) q = if sh.band ∧ 24 ≤ q then 0 else (recs.getD (32 * j + q) 0).toNat)
      ∧ (∀ z, (∀ j < 2 ^ sh.log, z ≠ base + j) → c'.sBand z = c.sBand z ∧ c'.sGen z = c.sGen z ∧ ∀ q < 32, c'.sByte z q = c.sByte z q)
      ∧ c'.tCurrent t0 sh = true ∧ tagIndex (c'.ttag t0) = base
      ∧ (∀ z, z ≠ t0 → c'.ttag z = c.ttag z ∨ c'.ttag z = c.ttag z &&& 0x7FFF) ∧ ∀ z, c'.vtag z = c.vtag z ∨ c'.vtag z = c.vtag z &&& 0x7FFF

/-! ### Barrier objects and counters (R246 to R251) -/

/-- R249 to R251, R244: each operation on a barrier object completes on an object that exists, changes the fields that
its rule names and tests for completion; nothing else of memory changes.  `MBWAIT` waits while the phase is the one it
names, and otherwise returns the phase. -/
def Claims.BarrierObjects : Prop :=
  ∀ s c act a o, let ref := (c.rdG a).toNat
    s.objectRef c ref = .ok o → ref % 16 = 0 → s.Place o → s.NoSlots →
    let x := s.object o
    (∀ g b, Issues s (.mbinit g a b) c act → 0 < (c.rdG b).toNat → (c.rdG b).toNat < 65536 → c.counter .store < 63 →
      ∃ t c', Acts (.mbinit g a b) s c t c' c.preds ∧ OnlyRegs (c.countIssue (some .store)) c' ∧ c'.v = c.v ∧ c'.g = c.g
      ∧ c'.fpflags = c.fpflags ∧ Stored s t o (bytesOfNat 16 ((c.rdG b).toNat * 2 ^ 48 + (c.rdG b).toNat * 2 ^ 32)))
    ∧ (∀ g b, Issues s (.mbexpect g a b) c act → objFld x 127 96 + (c.rdG b).toNat < 2 ^ 32 →
      ∃ t c', Acts (.mbexpect g a b) s c t c' c.preds ∧ OnlyRegs c c' ∧ c'.v = c.v ∧ c'.g = c.g ∧ c'.fpflags = c.fpflags
      ∧ Stored s t o (bytesOfNat 16 (objTest (objPut x 127 96 (objFld x 127 96 + (c.rdG b).toNat)))))
    ∧ (∀ g, Issues s (.mbarrive g a) c act → s.Ordered c act 2 →
      ∃ t c', Acts (.mbarrive g a) s c t c' c.preds ∧ OnlyRegs c c' ∧ c'.v = c.v ∧ c'.g = c.g ∧ c'.fpflags = c.fpflags
      ∧ Stored s t o (bytesOfNat 16 (objTest (objPut x 47 32 (objFld x 47 32 - 1)))))
    ∧ (∀ g b, Issues s (.mbtest g a b) c act →
      ∃ t c', Acts (.mbtest g a b) s c t c' (fun l => if l ∈ act then pushed (c.preds l) (decide (objFld x 0 0 = 1) != (c.rdG b).getLsbD 0) else c.preds l)
      ∧ OnlyRegs c c' ∧ c'.v = c.v ∧ c'.g = c.g ∧ c'.fpflags = c.fpflags ∧ SameBytes s t)
    ∧ (∀ g d b, Issues s (.mbwait g d a b) c act →
      if (decide (objFld x 0 0 = 1) != (c.rdG b).getLsbD 0) = true then
        ∃ t c', Acts (.mbwait g d a b) s c t c' c.preds ∧ OnlyRegs c c' ∧ c'.v = c.v ∧ c'.fpflags = c.fpflags ∧ SameBytes s t
        ∧ ∀ n, c'.rdG n = if n = d then BitVec.ofNat 32 (objFld x 0 0) else c.rdG n
      else Waits (.mbwait g d a b) s c act (s.hinted (.mbwait g d a b) act) (.object o ((c.rdG b).getLsbD 0) d))

/-- R250: the completion test: with no arrival pending and at least the expected bytes counted, the phase flips, the
expected bytes are taken off the count and cleared, and the arrivals are reloaded; otherwise nothing changes. -/
def Claims.CompletionTest : Prop :=
  ∀ x, x < 2 ^ 128 →
    (objFld x 47 32 = 0 → objFld x 127 96 ≤ objFld x 95 64 →
      objFld (objTest x) 0 0 = 1 - objFld x 0 0 ∧ objFld (objTest x) 31 1 = objFld x 31 1
      ∧ objFld (objTest x) 47 32 = objFld x 63 48 ∧ objFld (objTest x) 63 48 = objFld x 63 48
      ∧ objFld (objTest x) 95 64 = objFld x 95 64 - objFld x 127 96 ∧ objFld (objTest x) 127 96 = 0 ∧ objTest x < 2 ^ 128)
    ∧ (objFld x 47 32 ≠ 0 ∨ objFld x 95 64 < objFld x 127 96 → objTest x = x)

/-- R246 to R248: `CNTRD` returns how many operations of a class are outstanding; `WAITC` goes on once all but the n
latest of the operations of the class that the context issued have completed, and waits before. -/
def Claims.Counters : Prop :=
  (∀ g d k, WritesG (.cntrd g d k) d (fun c _ => BitVec.ofNat 32 (c.rq.countP (fun e => decide (e.cls = some k)))))
  ∧ (∀ g k n s c act, Issues s (.waitc g k n) c act →
      let ids := (c.rq.filter (fun e => decide (e.cls = some k) && decide (e.serial + n < Sparse.get 0 c.issued k.code))).map (·.id)
      (ids = [] → ∃ t c', Acts (.waitc g k n) s c t c' c.preds ∧ OnlyRegs c c'
        ∧ c'.v = c.v ∧ c'.g = c.g ∧ c'.fpflags = c.fpflags ∧ SameBytes s t ∧ t.units = s.units)
      ∧ (ids ≠ [] →
        Waits (.waitc g k n) s c act (s.hinted (.waitc g k n) act)
          (.counts ids (match k with | .copy => 5 | .coll => 5 | _ => 0))))

/-! ### The matrix engine (chapter 07) -/

/-- R161: `CVDECL` takes a free convergence register for its group, with the exited lanes of the set signed; it traps
where its own group already collects there and waits where another does, or until the accesses of exited lanes of the set have come into
the core's cache (log entry 57).  `CVSIGN` adds the acting lanes that the set names. -/
def Obligations.Convergence : Prop :=
  (∀ g v a s c act, Issues s (.cvdecl g v a) c act → Sparse.find s.units c.unit ≠ none →
      let r := (s.unit c.unit).cv v
      let d := c.rdG a
      if r.owner = c.index ∧ r.coll = true then c.kind ≠ .handler → Traps (.cvdecl g v a) s 0x0C [act.headD 0] 0
      else if r.owner ≠ c.index ∧ (r.coll = true ∨ s.cvGates c.unit v r = true) then
        Waits (.cvdecl g v a) s c act (s.hinted (.cvdecl g v a) act) (.converge v false)
      else if ¬ s.Performed c (lanesOf (d &&& c.exitedMask)) 1 then
        Waits (.cvdecl g v a) s c act (s.hinted (.cvdecl g v a) act)
          (.order ((c.unperformed s.cur.ctx (lanesOf (d &&& c.exitedMask)) (s.reach c 1)).map (·.2)))
      else ∃ t c', Acts (.cvdecl g v a) s c t c' c.preds ∧ SameBytes s t ∧ OnlyRegs c c' ∧ c'.v = c.v ∧ c'.g = c.g
        ∧ c'.fpflags = c.fpflags
        ∧ (t.unit c.unit).cv v = { owner := c.index, coll := decide (d &&& c.exitedMask ≠ d), signed := d &&& c.exitedMask, decl := d }
        ∧ (∀ n, n ≠ v → (t.unit c.unit).cv n = (s.unit c.unit).cv n)
        ∧ ∀ u, u ≠ c.unit → t.unit u = s.unit u)
  ∧ (∀ g v s c act, Issues s (.cvsign g v) c act → Sparse.find s.units c.unit ≠ none →
      (∀ l ∈ act, s.Ordered c [l] 1) →
      let r := (s.unit c.unit).cv v
      let x := r.signed ||| (maskOf act &&& r.decl)
      ∃ t c', Acts (.cvsign g v) s c t c' c.preds ∧ SameBytes s t ∧ OnlyRegs c c' ∧ c'.v = c.v ∧ c'.g = c.g ∧ c'.fpflags = c.fpflags
        ∧ (t.unit c.unit).cv v = (if r.owner = c.index then { r with signed := x, coll := r.coll && decide (x ≠ r.decl) } else r)
        ∧ (∀ n, n ≠ v → (t.unit c.unit).cv n = (s.unit c.unit).cv n)
        ∧ ∀ u, u ≠ c.unit → t.unit u = s.unit u)

/-- R157, R161, R162: an `MMA` whose anchor completes the set posts one pass, on the stream positions that the streams'
consumption counters or the pending override name, and advances the counters; an `MMA` that does not act in the anchor
lane does nothing, and one whose set the group does not own, or has not declared, traps. -/
def Claims.MatrixPosts : Prop :=
  ∀ g ka kb a fa fb v s c act, Issues s (.mma g ka kb a fa fb v) c act → Sparse.find s.units c.unit ≠ none → c.kind ≠ .handler →
    let i : Instr := .mma g ka kb a fa fb v
    let r := (s.unit c.unit).cv v
    let n := r.anchor
    let hs := (c.lane n).hints
    let pA := (posHint false hs).getD c.strA.cons
    let pB := (posHint true hs).getD c.strB.cons
    let int4 := decide ((slotOf (s.fmtOf c) fb).elem = 7)
    (r.owner ≠ c.index ∨ r.decl = 0 → Traps i s 0x0C [act.headD 0] 0)
    ∧ (r.owner = c.index → r.decl ≠ 0 → n ∉ act → WroteV i s c act [] (fun _ _ => 0) (fun _ => 0))
    ∧ (r.owner = c.index → r.decl ≠ 0 → n ∈ act → (r.signed.getLsbD n = false → s.Performed c [n] 1) →
        (r.sign (maskOf [n])).coll = false →
        c.strA.inWindow pA = true → (c.strA.at pA).any (fun b => decide (b.slot = fa)) = true →
        c.strB.inWindow pB = true → (c.strB.at pB).any (fun b => decide (b.slot = fb)) = true →
        ¬ (int4 = true ∧ (posHint true hs).isSome = true) →
        s.noRoom c (some .matrix) false 0 = none → s.reservations c < 32 →
        ∃ t c' e, Acts i s c t c' c.preds ∧ SameBytes s t
          ∧ e.id = c.nextId ∧ e.ins = i ∧ e.pc = s.cur.pc ∧ e.kind = 7 ∧ e.cls = some .matrix ∧ e.holds = [] ∧ e.leader = n ∧ e.caps = [(n, {})]
          ∧ e.pass = some { posA := pA, posB := pB, quarter := if int4 then c.quarter else 0, prio := c'.prio
                            ovA := (posHint false hs).isSome, ovB := (posHint true hs).isSome, gs64 := c.gs64
                            posted := s.cycle, granted := false }
          ∧ c'.strA = { c.strA with cons := if ka = true ∨ (posHint false hs).isSome = true then c.strA.cons else (c.strA.cons + 1) % 2 ^ 16 }
          ∧ c'.strB = { c.strB with cons :=
              if kb = true ∨ (posHint true hs).isSome = true ∨ (int4 = true ∧ c.quarter ≠ 3) then c.strB.cons else (c.strB.cons + 1) % 2 ^ 16 }
          ∧ c'.quarter = (if kb = true ∨ (posHint true hs).isSome = true then c.quarter
              else if int4 = true then (if c.quarter = 3 then 0 else c.quarter + 1) else c.quarter)
          ∧ c' = { c.countIssue (some .matrix) with
                          lanes := c'.lanes, rq := c.rq ++ [e], nextId := c.nextId + 1, strA := c'.strA, strB := c'.strB
                          quarter := c'.quarter, yld := c'.yld, prio := c'.prio, misses := c'.misses
                          hold := none, withdrawn := false, missAt := none }
          ∧ (r.signed.getLsbD n = true → t.units = s.units)
          ∧ (r.signed.getLsbD n = false → (t.unit c.unit).cv v = r.sign (maskOf [n])))

/-- R153, R154, R157, R163: a pass starts when it is its engine's choice, captures the data and records of the blocks of the
two streams at the positions it names, and frees those it consumes; when it completes, what it captured is its operands, and each element of its accumulator is its two K-group steps further and their flags are raised. -/
def Claims.PassesRun : Prop :=
  let captured := fun (e : RqEntry) => wordsBytes ((Sparse.find e.caps e.leader).getD {}).data
  (∀ s k c e p, Sparse.find s.ctxs k = some c → s.readyPass c = some (e, p) → s.passChoice c = some k →
      Sparse.find e.caps e.leader ≠ none → (∀ y ∈ c.rq, y.id = e.id → y = e) → ∃ t c', exec (.passGrant k) s = .next t ∧ t.ctx k = c'
      ∧ SameBytes s t ∧ t.units = s.units ∧ t.grids = s.grids ∧ (∀ j, j ≠ k → t.ctx j = s.ctx j)
      ∧ (∃ y ∈ c'.rq, y.id = e.id ∧ y.ins = e.ins ∧ y.leader = e.leader ∧ y.pass = some { p with granted := true }
          ∧ ∀ bA bB, c.strA.at p.posA = some bA → c.strB.at p.posB = some bB → bA.data.length = 1024 → bB.data.length = 1024 →
              bA.record.length ≤ 512 → bB.record.length ≤ 512 →
              (captured y).take 1024 = bA.data ∧ ((captured y).drop 1024).take bA.record.length = bA.record
              ∧ ((captured y).drop 1536).take 1024 = bB.data ∧ ((captured y).drop 2560).take bB.record.length = bB.record)
      ∧ (∀ y ∈ c'.rq, y.id ≠ e.id → y ∈ c.rq)
      ∧ c'.strA.fill = c.strA.fill ∧ c'.strA.cons = c.strA.cons ∧ c'.strB.fill = c.strB.fill ∧ c'.strB.cons = c.strB.cons
      ∧ (∀ g ka kb a fa fb v, e.ins = .mma g ka kb a fa fb v →
          c'.strA.blocks = (if ka = false ∧ p.ovA = false then c.strA.blocks.filter (fun x => decide (x.pos ≠ p.posA)) else c.strA.blocks)
          ∧ c'.strB.blocks = (if kb = false ∧ p.ovB = false ∧ ((slotOf (s.fmtOf c) fb).elem ≠ 7 ∨ p.quarter = 3)
              then c.strB.blocks.filter (fun x => decide (x.pos ≠ p.posB)) else c.strB.blocks))
      ∧ c' = { c with rq := c'.rq, strA := c'.strA, strB := c'.strB })
  ∧ (∀ s k c e p g ka kb a fa fb v, Sparse.find s.ctxs k = some c → c.rq.find? (fun e => e.pass.any (fun p => p.granted)) = some e →
      e.ins = .mma g ka kb a fa fb v → e.pass = some p → (s.unit c.unit).inPlace = true → s.clockRuns c.pkg c.site = true →
      (∀ y ∈ (s.pkg c.pkg).early, ¬ (y.ctx = k ∧ y.entry = e.id)) →
      ∃ t c', exec (.passComplete k) s = .next t ∧ t.ctx k = c' ∧ SameBytes s t ∧ t.units = s.units ∧ t.grids = s.grids
      ∧ (∀ j, j ≠ k → t.ctx j = s.ctx j) ∧ c'.rq = c.rq.filter (fun y => decide (y.id ≠ e.id))
      ∧ c' = { c with rq := c'.rq, accs := c'.accs, fpflags := c'.fpflags }
      ∧ (let sa := slotOf (s.fmtOf c) fa
         let sb := slotOf (s.fmtOf c) fb
         let bs := captured e
         let row := fun i => (List.range (passK sa.elem)).map (fun k => blockVal sa (bs.take 1024) ((bs.drop 1024).take sa.recordBytes) i k)
         let col := fun j => (List.range (passK sa.elem)).map (fun k =>
           let rb := (bs.drop 2560).take sb.recordBytes
           let b := (bs.drop 1536).take 1024
           if sb.elem = 7 then int4Val p.gs64 p.quarter b rb j k else blockVal sb b rb j k)
         (∀ i < 16, ∀ j < 16, c'.rdAcc a i j = (accPass (c.rdAcc a i j) (row i) (col j)).1)
         ∧ (∀ m, m ≠ a → ∀ i < 16, ∀ j < 16, c'.rdAcc m i j = c.rdAcc m i j)
         ∧ c'.fpflags = (List.range 16).foldl (fun f i => (List.range 16).foldl (fun f j =>
             f ||| (accPass (c.rdAcc a i j) (row i) (col j)).2) f) c.fpflags))

/-- R164 to R166: accumulators are read through the drain queue, which frees an entry when its writes are done;
`ACCWR` and `ACCZ` write one at once when no entry of their group stands on it, and otherwise wait. -/
def Claims.Accumulators : Prop :=
  (∀ g d a f h s c act, Issues s (.accrdT g d a f h) c act → s.drains c < 16 →
      Queued (.accrdT g d a f h) s s c 8 none [.t d] [] [{ lane := act.headD 0, va := 0, len := 0, align := 1 }] (fun _ => []) .none)
  ∧ (∀ g d a f s c act, Issues s (.accrdV g d a f) c act → s.drains c < 16 →
      Queued (.accrdV g d a f) s s c 8 none (vRun d (8 * (slotOf (s.fmtOf c) f).fmt.width / 32)) [maskOf act]
        [{ lane := act.headD 0, va := 0, len := 0, align := 1 }] (fun _ => []) .none)
  ∧ (∀ g d a f s c act o, Issues s (.accrdC g d a f) c act → s.drains c < 16 → c.counter .store < 63 → (c.rdG d).toNat % 64 = 0 →
      s.coreStore c (c.rdG d).toNat (32 * (slotOf (s.fmtOf c) f).fmt.width) = .ok o →
      Queued (.accrdC g d a f) s s c 8 (some .store) [] []
        [{ lane := act.headD 0, va := (c.rdG d).toNat, len := 32 * (slotOf (s.fmtOf c) f).fmt.width, align := 64 }] (fun _ => [o]) .none)
  ∧ (∀ g a x s c act, Issues s (.accwr g a x) c act → (∀ e ∈ c.rq, accOfIns e.ins ≠ some a) → ∃ c', Completes (.accwr g a x) s c'
      ∧ (∀ i < 16, ∀ j < 16, c'.rdAcc a i j = BitVec.ofNat 32 (natOfBytes ((c.rdTile x).drop (64 * i + 4 * j) |>.take 4)))
      ∧ (∀ m, m ≠ a → ∀ i < 16, ∀ j < 16, c'.rdAcc m i j = c.rdAcc m i j) ∧ Moved c c' (s.cohort c) c.preds
      ∧ c' = { c with lanes := c'.lanes, accs := c'.accs, yld := c'.yld, prio := c'.prio, misses := c'.misses
                      hold := none, withdrawn := false, missAt := none })
  ∧ (∀ g a s c act, Issues s (.accz g a) c act → (∀ e ∈ c.rq, accOfIns e.ins ≠ some a) → ∃ c', Completes (.accz g a) s c'
      ∧ (∀ i < 16, ∀ j < 16, c'.rdAcc a i j = 0)
      ∧ (∀ m, m ≠ a → ∀ i < 16, ∀ j < 16, c'.rdAcc m i j = c.rdAcc m i j) ∧ Moved c c' (s.cohort c) c.preds
      ∧ c' = { c with lanes := c'.lanes, accs := c'.accs, yld := c'.yld, prio := c'.prio, misses := c'.misses
                      hold := none, withdrawn := false, missAt := none })
  ∧ (∀ g a s c act, Issues s (.accz g a) c act → ∀ e ∈ c.rq, accOfIns e.ins = some a →
      Waits (.accz g a) s c act (s.hinted (.accz g a) act) (.order ((c.rq.filter (fun e => decide (accOfIns e.ins = some a))).map (·.id))))
  ∧ (∀ g a x s c act, Issues s (.accwr g a x) c act → ∀ e ∈ c.rq, accOfIns e.ins = some a →
      Waits (.accwr g a x) s c act (s.hinted (.accwr g a x) act) (.order ((c.rq.filter (fun e => decide (accOfIns e.ins = some a))).map (·.id))))
  ∧ (∀ g s64 s c act, Issues s (.procfg g s64) c act → ∃ c', Completes (.procfg g s64) s c' ∧ c'.gs64 = s64
      ∧ Moved c c' (s.cohort c) c.preds
      ∧ c' = { c with lanes := c'.lanes, gs64 := s64, yld := c'.yld, prio := c'.prio, misses := c'.misses
                      hold := none, withdrawn := false, missAt := none })

/-- R165, R66: what a drain writes: each element of the accumulator rounded under its slot and packed, into a part of a tile's
rows, into vector registers of the acting lanes, or into core store; the flags of all of them are raised, and a tile or vector register that is written loses its binding. -/
def Claims.DrainsWrite : Prop :=
  ∀ s k id c e, Sparse.find s.ctxs k = some c → c.entry id = some e → e.kind = 8 → (s.unit c.unit).hasStore = true → s.NoSlots →
    s.travels c.pkg c.site ((Sparse.find e.caps e.leader).getD {}).segs = true →
    (∀ f ∈ c.before id, f.kind = 7 → accOfIns f.ins ≠ accOfIns e.ins) →
    (∀ g d a f h, e.ins = .accrdT g d a f h → e.cls = none → ∃ t c', exec (.accrdWriteComplete k id) s = .next t ∧ t.ctx k = c'
      ∧ SameBytes s t ∧ (∀ j, j ≠ k → t.ctx j = s.ctx j) ∧ c'.rq = c.rq.filter (fun y => decide (y.id ≠ id))
      ∧ c' = { c with rq := c'.rq, tiles := c'.tiles, ttags := c'.ttags, fpflags := c'.fpflags }
      ∧ (let sl := slotOf (s.fmtOf c) f
         let w := sl.fmt.width
         h < sl.perReg → (∀ i < 16, natOfBytes (((c'.rdTile d).drop (64 * i + 2 * w * h)).take (2 * w))
           = packCodes w ((List.range 16).map (fun j => (roundSlot sl (c.rdAcc a i j)).1)) % 2 ^ (16 * w))
         ∧ (∀ m, m < 1024 → (∀ i < 16, ¬ (64 * i + 2 * w * h ≤ m ∧ m < 64 * i + 2 * w * h + 2 * w)) →
             (c'.rdTile d).getD m 0 = (c.rdTile d).getD m 0)
         ∧ c'.fpflags = (List.range 16).foldl (fun x i => (List.range 16).foldl (fun x j => x ||| (roundSlot sl (c.rdAcc a i j)).2) x) c.fpflags
         ∧ c'.ttag d = c.ttag d &&& 0x7FFF ∧ ∀ m, m ≠ d → c'.rdTile m = c.rdTile m ∧ c'.ttag m = c.ttag m))
    ∧ (∀ g d a f m, e.ins = .accrdV g d a f → e.cls = none → e.args = [m] → ∃ t c', exec (.accrdWriteComplete k id) s = .next t ∧ t.ctx k = c'
      ∧ SameBytes s t ∧ (∀ j, j ≠ k → t.ctx j = s.ctx j) ∧ c'.rq = c.rq.filter (fun y => decide (y.id ≠ id))
      ∧ c' = { c with rq := c'.rq, v := c'.v, vtags := c'.vtags, fpflags := c'.fpflags }
      ∧ (let sl := slotOf (s.fmtOf c) f
         let w := sl.fmt.width
         (∀ l ∈ lanesOf m, ∀ j < w / 4, c'.rdV (d + j) l
           = BitVec.ofNat 32 (packCodes w ((List.range 8).map (fun n => (roundSlot sl (c.rdAcc a (l / 2) (8 * (l % 2) + n))).1)) / 2 ^ (32 * j)))
         ∧ (∀ n l, l < 32 → ¬ (l ∈ lanesOf m ∧ d ≤ n ∧ n < d + w / 4) → c'.rdV n l = c.rdV n l)
         ∧ (∀ n, Sparse.get 0 c'.vtags n = if lanesOf m ≠ [] ∧ d ≤ n ∧ n < d + w / 4 then Sparse.get 0 c.vtags n &&& 0x7FFF else Sparse.get 0 c.vtags n)
         ∧ c'.fpflags = (lanesOf m).foldl (fun x l => (List.range 8).foldl (fun x n =>
             x ||| (roundSlot sl (c.rdAcc a (l / 2) (8 * (l % 2) + n))).2) x) c.fpflags))
    ∧ (∀ g d a f x o, e.ins = .accrdC g d a f → e.cls = some .store → Sparse.find e.caps e.leader = some x →
      State.mayPerform c e e.leader x = true → x.got = [] →
      x.segs = [(o, 32 * (slotOf (s.fmtOf c) f).fmt.width)] → s.Place o →
      ∃ t c', exec (.accrdWriteComplete k id) s = .next t ∧ t.ctx k = c' ∧ (∀ j, j ≠ k → t.ctx j = s.ctx j)
      ∧ c'.rq = c.rq.filter (fun y => decide (y.id ≠ id)) ∧ c' = { c with rq := c'.rq, fpflags := c'.fpflags }
      ∧ (let sl := slotOf (s.fmtOf c) f
         Stored s t o (bytesOfNat (32 * sl.fmt.width)
           (packCodes sl.fmt.width ((List.range 256).map (fun n => (roundSlot sl (c.rdAcc a (n / 16) (n % 16))).1))))
         ∧ c'.fpflags = (List.range 256).foldl (fun x n => x ||| (roundSlot sl (c.rdAcc a (n / 16) (n % 16))).2) c.fpflags))

/-- R153, R157 to R159: a fill appends its blocks to its stream and advances the fill counter; blocks from tiles stand in
it at once, blocks from a local memory arrive later. That a fill from tiles completes whatever the record register holds is
the model's reading (log entry 58), and that data and record addresses wrap modulo 2^32 its choice (log entry 54). -/
def Claims.StreamFills : Prop :=
  ∀ isB g d b off s c act, let i : Instr := if isB then .sfillB g d b off else .sfillA g d b off
    Issues s i c act →
    let ctl := c.rdG d
    let src := c.rdG b
    let rc := c.rdG (b + 1)
    let n := wbits ctl 31 29 + 1
    let sl := slotOf (s.fmtOf c) (wbits ctl 28 26)
    let o := wideImm 6 off (c.lane (act.headD 0)).hints
    let st := c.stream isB
    let news := fun (c' : Ctx) => (c'.stream isB).blocks.drop st.blocks.length
    let others := fun (c' : Ctx) => c'.stream (!isB) = c.stream (!isB) ∧ (c'.stream isB).cons = st.cons
      ∧ (c'.stream isB).fill = (st.fill + n) % 2 ^ 16 ∧ (c'.stream isB).blocks.take st.blocks.length = st.blocks
      ∧ (news c').map (·.pos) = (List.range n).map (fun m => (st.fill + m) % 2 ^ 16)
      ∧ (∀ x ∈ news c', x.slot = wbits ctl 28 26 ∧ x.entry = c.nextId)
    s.blocksHeld c isB + n ≤ 8 → sl.elem ≠ 0 → wbits src 29 23 = 0 → (st.fill + n + 2 ^ 16 - st.cons) % 2 ^ 16 ≤ 8 →
    wbits ctl 25 25 = 0 →
    (wbits src 31 30 = 2 → wbits src 22 4 = 0 → sl.elem ≠ 7 →
      let tile := fun (m : Nat) => ((wbits src 3 0 : Int) + m + o).toNat
      (∀ m < n, 0 ≤ (wbits src 3 0 : Int) + m + o ∧ tile m < 16 ∧ tile m < s.limit c (.t 0)
        ∧ ∀ sh, sl.run = some sh → c.tCurrent (tile m) sh = true) →
      c.Unheld ((List.range n).map (fun m => .t (tile m))) →
      (sl.run.isSome = true → c.Unheld ((List.range n).flatMap (fun m =>
        (runRegs (tagIndex (c.ttag (tile m))) (tagLog (c.ttag (tile m)))).map .s))) →
      ∃ c', Completes i s c' ∧ others c' ∧ (∀ x ∈ news c', x.arrived = true)
        ∧ (news c').map (·.data) = (List.range n).map (fun m => c.rdTile (tile m))
        ∧ (news c').map (·.record) = (List.range n).map (fun m => if sl.run.isSome then c.tileRecord (tile m) else [])
        ∧ Moved c c' (s.cohort c) c.preds
        ∧ c' = { c with lanes := c'.lanes, strA := c'.strA, strB := c'.strB, yld := c'.yld, prio := c'.prio
                        misses := c'.misses, hold := none, withdrawn := false, missAt := none })
    ∧ (wbits src 31 30 < 2 →
      let R := sl.recordBytes
      let data := fun (m : Nat) => (((wbits src 22 0 : Int) + 1024 * (m + o)) % 2 ^ 32).toNat
      let recd := fun (m : Nat) => (((wbits rc 22 0 : Int) + R * (m + o)) % 2 ^ 32).toNat
      (∀ m < n, data m % 64 = 0 ∧ ∃ p, s.fillPlace c (wbits src 31 30) (data m) 1024 = .ok p) →
      (R ≠ 0 → wbits rc 31 30 < 2 ∧ wbits rc 29 23 = 0
        ∧ ∀ m < n, recd m % 32 = 0 ∧ ∃ p, s.fillPlace c (wbits rc 31 30) (recd m) R = .ok p) →
      s.noRoom c (some .stream) false 0 = none →
      ∃ t c' e, Acts i s c t c' c.preds ∧ SameBytes s t ∧ t.units = s.units ∧ others c' ∧ (∀ x ∈ news c', x.arrived = false)
        ∧ e.id = c.nextId ∧ e.ins = i ∧ e.kind = 7 ∧ e.cls = some .stream ∧ e.holds = [] ∧ e.args = [maskOf (s.cohort c)] ∧ e.obj = .none
        ∧ (∀ m < n, ∃ x p, Sparse.find e.caps m = some x ∧ s.fillPlace c (wbits src 31 30) (data m) 1024 = .ok p
            ∧ x.va = data m ∧ x.len = 1024 ∧ x.pages = [p] ∧ x.done = false
            ∧ x.data = [BitVec.ofNat 32 ((st.fill + m) % 2 ^ 16)])
        ∧ (R ≠ 0 → ∀ m < n, ∃ x p, Sparse.find e.caps (32 + m) = some x ∧ s.fillPlace c (wbits rc 31 30) (recd m) R = .ok p
            ∧ x.va = recd m ∧ x.len = R ∧ x.pages = [p] ∧ x.done = false)
        ∧ c' = { c.countIssue (some .stream) with
                        lanes := c'.lanes, rq := c.rq ++ [e], nextId := c.nextId + 1, strA := c'.strA, strB := c'.strB
                        yld := c'.yld, prio := c'.prio, misses := c'.misses, hold := none, withdrawn := false, missAt := none })

/-- R158, R160: a block that arrives holds the bytes of its range and of its record, and the fill is done with it. -/
def Claims.BlocksArrive : Prop :=
  ∀ s k id blk c en x o isB, Sparse.find s.ctxs k = some c → c.entry id = some en → (∀ y ∈ c.rq, y.id = id → y = en) →
    (∃ g d b off, en.ins = if isB then .sfillB g d b off else .sfillA g d b off) → blk < 32 → Sparse.find en.caps blk = some x →
    x.done = false → x.segs = [(o, 1024)] → c.laneClear id (lanesOf (en.args.headD 0)) = true → s.NoSlots → en.obj = .none →
    s.travels c.pkg c.site (x.segs ++ ((Sparse.find en.caps (32 + blk)).map Cap.segs).getD []) = true →
    ∃ t c', exec (.blockArrival k id blk) s = .next t ∧ t.ctx k = c' ∧ SameBytes s t ∧ t.units = s.units
      ∧ (∀ j, j ≠ k → t.ctx j = s.ctx j)
      ∧ c'.stream (!isB) = c.stream (!isB) ∧ (c'.stream isB).fill = (c.stream isB).fill ∧ (c'.stream isB).cons = (c.stream isB).cons
      ∧ (c'.stream isB).blocks = (c.stream isB).blocks.map (fun y =>
          if y.pos = (x.data.headD 0).toNat ∧ y.arrived = false
          then { y with arrived := true, data := s.rdBytes o 1024
                        record := match Sparse.find en.caps (32 + blk) with
                          | some z => z.segs.flatMap (fun q => s.rdBytes q.1 q.2)
                          | none => [] } else y)
      ∧ (∀ y ∈ c'.rq, y.id = id → ∃ z, Sparse.find y.caps blk = some z ∧ z.done = true)
      ∧ c' = { c with rq := c'.rq, strA := c'.strA, strB := c'.strB }

/-! ### Levels, launches, barriers and fences (chapters 02, 09, 10 and 11) -/

/-- R34, R36, R38, R54, R290: a `LAUNCH` that may run creates its children: waiting units of the level below with their
indices and work identifiers, or at L1 lane groups that start at the grid's entry with every register, predicate, tile,
accumulator, scale register, tag, stash byte and flag zero; a `LAUNCH` of none posts its record at once. -/
def Claims.LaunchCreates : Prop :=
  ∀ g lvl x y s c act u, Issues s (.launch g lvl x y) c act → c.kind = .seq → Sparse.find s.units c.unit = some u → u.level = lvl →
    let n := (c.rdG x).toNat
    let gr := s.grid u.grid
    n ≤ 2 ^ (s.gridOf c).width lvl → c.evFull = false → c.exiting = false → s.Ordered c act lvl → s.childrenDone c = true →
    s.childUnits c.unit = [] → (∀ e ∈ s.ctxs, ¬ (e.2.kind = .group ∧ e.2.unit = c.unit)) → s.NoSlots →
    (∀ e ∈ s.units, e.1 < s.fresh) → (∀ e ∈ s.ctxs, e.1 < s.fresh) →
    ∃ t c', exec (.launch g lvl x y) s = .next t ∧ t.ctx s.cur.ctx = c' ∧ Moved c c' (s.cohort c) c.preds
      ∧ c'.v = c.v ∧ c'.g = c.g ∧ c'.rq = c.rq ∧ t.hbm = s.hbm ∧ t.host = s.host ∧ t.grids = s.grids
      ∧ (∀ j, j ≠ s.cur.ctx → Sparse.find s.ctxs j ≠ none → t.ctx j = s.ctx j)
      ∧ (∀ j, j ≠ c.unit → Sparse.find s.units j ≠ none → t.unit j = s.unit j)
      ∧ (t.unit c.unit).launch = some { tag := c.rdG y, n := n, doneCount := 0, aborted := 0, status := 0, posted := decide (n = 0) }
      ∧ (if n = 0 then c'.evq = c.evq ++ [{ kind := 1, level := lvl, status := 0, tag := c.rdG y, doneCount := 0, aborted := 0 }]
            ∧ c'.evResv = c.evResv
          else c'.evq = c.evq ∧ c'.evResv = c.evResv + 1)
      ∧ (lvl ≠ 1 → ∀ i < n, ∃ k w, Sparse.find s.units k = none ∧ Sparse.find t.units k = some w ∧ w.level = lvl - 1 ∧ w.grid = u.grid
          ∧ w.parent = c.unit + 1 ∧ w.index = i ∧ w.st = .waiting ∧ w.pkg = (if lvl = 5 then i else u.pkg)
          ∧ w.wid = u.wid + BitVec.ofNat 64 (i * 2 ^ gr.fieldOff lvl))
      ∧ (lvl = 1 → ∀ i < n, ∃ k w, Sparse.find s.ctxs k = none ∧ Sparse.find t.ctxs k = some w ∧ w.kind = .group ∧ w.unit = c.unit
          ∧ w.grid = u.grid ∧ w.index = i ∧ w.placed = false ∧ w.asid = gr.asid
          ∧ w.wid = u.wid + BitVec.ofNat 64 (i * 2 ^ gr.fieldOff 1) ∧ w.Zeroed ∧ w.halted = gr.startHalted
          ∧ ∀ l < 32, w.lane l = { pc := gr.entry })

/-- R290: a `LAUNCH` at a level that is not its sequencer's traps, and so does one of more children than the level has. -/
def Claims.LaunchTraps : Prop :=
  ∀ g lvl x y s c act, Issues s (.launch g lvl x y) c act → c.kind ≠ .handler →
    (¬ (c.kind = .seq ∧ (s.unit c.unit).level = lvl) → Traps (.launch g lvl x y) s 2 [act.headD 0] lvl)
    ∧ (c.kind = .seq → (s.unit c.unit).level = lvl → 2 ^ (s.gridOf c).width lvl < (c.rdG x).toNat →
        Traps (.launch g lvl x y) s 0x11 [act.headD 0] 0)

/-- R265, R291: the parts of a split extent follow each other without gap, cover it, and differ by at most one. -/
def Claims.SplitsCover : Prop :=
  ∀ e p, 0 < p →
    (tsplit e p 0).1 = 0 ∧ (∀ i, i + 1 < p → (tsplit e p i).1 + (tsplit e p i).2 = (tsplit e p (i + 1)).1)
    ∧ (tsplit e p (p - 1)).1 + (tsplit e p (p - 1)).2 = e
    ∧ (∀ i < p, ∀ j < p, (tsplit e p i).2 ≤ (tsplit e p j).2 + 1) ∧ ∀ i, p ≤ i → tsplit e p i = (e, 0)

/-- R291, R292: `TSPLIT` gives the part of the issuer's own index, `TSPLIT.x` that of an index given; `EVQRD` takes the
first record that matches, and where none does it waits or pushes 0. -/
def Claims.SplitsAndEvents : Prop :=
  (∀ g lvl x y s c act, Issues s (.tsplit g lvl x y) c act → lvl ≤ s.rootLvl c → s.ctxLevel c < lvl →
      let p := (c.rdG (y + 1)).toNat
      let r := tsplit (c.rdG y).toNat (if p = 0 then 2 ^ (s.gridOf c).width lvl else p) ((s.gridOf c).field lvl c.wid)
      ∃ c', Completes (.tsplit g lvl x y) s c' ∧ OnlyRegs c c' ∧ c'.v = c.v ∧ c'.fpflags = c.fpflags
      ∧ (∀ n, c'.rdG n = if n = x + 1 then BitVec.ofNat 32 r.2 else if n = x then BitVec.ofNat 32 r.1 else c.rdG n)
      ∧ Moved c c' (s.cohort c) c.preds)
  ∧ (∀ g x y s c act, Issues s (.tsplitX g x y) c act →
      let r := tsplit (c.rdG y).toNat (c.rdG (y + 1)).toNat (c.rdG (y + 2)).toNat
      ∃ c', Completes (.tsplitX g x y) s c' ∧ OnlyRegs c c' ∧ c'.v = c.v ∧ c'.fpflags = c.fpflags
      ∧ (∀ n, c'.rdG n = if n = x + 1 then BitVec.ofNat 32 r.2 else if n = x then BitVec.ofNat 32 r.1 else c.rdG n)
      ∧ Moved c c' (s.cohort c) c.preds)
  ∧ (∀ g lvl x y m w s c act, Issues s (.evqrd g lvl x y m w) c act → c.kind = .seq → s.ctxLevel c = lvl →
      let i : Instr := .evqrd g lvl x y m w
      let pick := c.evq.find? (fun r => if m then decide (r.tag = c.rdG y) else true)
      (∀ r, pick = some r → ∃ t c', Acts i s c t c' (fun l => if l ∈ act then pushed (c.preds l) true else c.preds l) ∧ SameBytes s t
        ∧ (∀ n, c'.rdG n = if n = x then r.tag
            else if n = x + 1 then BitVec.ofNat 32 (r.kind % 256 * 2 ^ 24 + r.level % 8 * 2 ^ 21 + r.status % 65536)
            else if n = x + 2 then BitVec.ofNat 32 r.doneCount else if n = x + 3 then BitVec.ofNat 32 r.aborted else c.rdG n)
        ∧ c'.evq = c.evq.erase r ∧ c'.v = c.v ∧ c'.rq = c.rq)
      ∧ (pick = none → (w = true ∧ c.evResv ≠ 0 →
          Waits i s c act (s.hinted i act) (.event (if m then some (c.rdG y) else none) x))
        ∧ (¬ (w = true ∧ c.evResv ≠ 0) → ∃ c', Completes i s c' ∧ OnlyRegs c c' ∧ c'.v = c.v ∧ c'.g = c.g ∧ c'.fpflags = c.fpflags
            ∧ Moved c c' (s.cohort c) (fun l => if l ∈ act then pushed (c.preds l) false else c.preds l))))

/-- R293, R294: a sequencer's `BAR` joins its completed children and drops their records; a lane of a group arrives and
waits; at L0 the lanes go on when every lane that has not exited has arrived, and those that have exited have released
(R245). -/
def Claims.Barriers : Prop :=
  (∀ g s c act, Issues s (.bar g (s.ctxLevel c)) c act → c.kind = .seq → s.childrenDone c = true →
      ∃ t c', Acts (.bar g (s.ctxLevel c)) s c t c' c.preds ∧ SameBytes s t ∧ c'.evq = c.evq.filter (fun r => decide (r.kind ≠ 1))
      ∧ c' = { c with lanes := c'.lanes, evq := c'.evq, yld := c'.yld, prio := c'.prio, misses := c'.misses
                      hold := none, withdrawn := false, missAt := none })
  ∧ (∀ g lvl s c act, Issues s (.bar g lvl) c act → c.kind ≠ .seq → lvl ≤ 3 → lvl ≤ s.rootLvl c →
      (∀ l ∈ act, s.Ordered c [l] lvl) → s.NoSlots → ∃ t c', exec (.bar g lvl) s = .next t ∧ t.ctx s.cur.ctx = c'
      ∧ (∀ j, j ≠ s.cur.ctx → t.ctx j = s.ctx j) ∧ SameBytes s t ∧ t.grids = s.grids
      ∧ Sparse.get 0 c'.arrived lvl = Sparse.get 0 c.arrived lvl ||| maskOf act
      ∧ (∀ l, c'.lane l = if l ∈ act then { c.lane l with wait := .bar lvl } else if l ∈ s.cohort c then (c.lane l).onward else c.lane l)
      ∧ c' = { c with lanes := c'.lanes, arrived := c'.arrived, yld := c'.yld, prio := c'.prio, hold := none
                      withdrawn := false, missAt := none })
  ∧ (∀ (s : State) (k : Nat) (c : Ctx), Sparse.find s.ctxs k = some c → Sparse.get 0 c.arrived 0 ≠ 0 →
      (∀ l ∈ c.liveLanes, (Sparse.get 0 c.arrived 0).getLsbD l = true ∧ (c.lane l).wait = .bar 0) →
      (∀ n, n ≠ 0 → Sparse.get 0 c.arrived n = 0) → s.runnable c = true → s.exitsReleased k 0 = true →
      (∀ l, ((s.barriers k).ctx k).lane l = if l ∈ c.liveLanes then (c.lane l).onward else c.lane l)
      ∧ Sparse.get 0 ((s.barriers k).ctx k).arrived 0 = 0 ∧ ∀ j, j ≠ k → (s.barriers k).ctx j = s.ctx j)

/-- R228, R236, R238, R241, R296: a fence completes once what it orders has come as far as it needs.  A release at a level
that its caches serve marks the lines that its core has written as owned by its scope; an acquire drops the lines of its
core that its scope does not own, and parked loads that it passes will acquire when they are performed. -/
def Claims.Fences : Prop :=
  ∀ g lvl s c act, s.NoSlots →
    let own := fun (core : Nat) (x : DLine) =>
      if x.core = core ∧ x.written = true ∧ lvl ∉ x.own ∧ s.reach c lvl < 3 then { x with own := x.own ++ [lvl] } else x
    let keep := fun (core : Nat) (x : DLine) => decide (x.core ≠ core) || decide (lvl < 2)
      || (decide (s.reach c lvl = 2) && decide (lvl ∈ x.own))
    let quiet := fun (i : Instr) (t : State) (old c' : Ctx) => Acts i s c t c' c.preds ∧ SameBytes s t ∧ t.units = s.units
      ∧ OnlyRegs old c' ∧ c'.v = c.v ∧ c'.g = c.g ∧ c'.fpflags = c.fpflags
    (Issues s (.fenceRel g lvl) c act → (∀ l ∈ act, s.Ordered c [l] lvl) →
      ∃ t c', quiet (.fenceRel g lvl) t c c' ∧ ∀ p core, s.coreOf c = some (p, core) → (t.pkg p).dlines = (s.pkg p).dlines.map (own core))
    ∧ (Issues s (.fenceAcq g lvl) c act → (∀ l ∈ act, c.unread s.cur.ctx [l] = []) →
      ∃ t c', quiet (.fenceAcq g lvl) t (c.passParked act lvl) c' ∧ ∀ p core, s.coreOf c = some (p, core) →
        (t.pkg p).dlines = (s.pkg p).dlines.filter (keep core))
    ∧ (∀ i, (i = .fenceAcqrel g lvl ∧ ∀ l ∈ act, s.Ordered c [l] lvl ∧ c.unread s.cur.ctx [l] = [])
        ∨ (i = .fenceSc g lvl ∧ s.mayRelease c lvl = true ∧ ∀ l ∈ act, c.unperformed s.cur.ctx [l] 3 = []) →
      Issues s i c act → ∃ t c', quiet i t (c.passParked act lvl) c' ∧ ∀ p core, s.coreOf c = some (p, core) →
        (t.pkg p).dlines = ((s.pkg p).dlines.map (own core)).filter (keep core))

/-- R241: a fence whose lanes still have something to perform does not complete: they wait for it, at `FENCE.sc` until it
has reached its home. -/
def Claims.FencesWait : Prop :=
  ∀ g lvl s c act i r, (i = .fenceRel g lvl ∨ i = .fenceAcqrel g lvl) ∧ r = s.reach c lvl ∨ i = .fenceSc g lvl ∧ r = 3 →
    Issues s i c act → (∀ l ∈ act, c.unperformed s.cur.ctx [l] r ≠ []) →
    Waits i s c act (s.hinted i act) (.release (c.unperformed s.cur.ctx act r) true true r lvl)

/-- R174 to R179: `REDUCE` at L0 combines its lanes' values into a uniform register at once; above, each acting lane
issues a contribution to its word, or all of them to one. -/
def Obligations.ReductionsIssue : Prop :=
  (∀ g x y op one r s c act, Issues s (.reduce g 0 x y op one r) c act → s.ctxLevel c = 0 →
      let vs := act.map (fun l => c.rdV y l)
      let v : Word × BitVec 6 := if op = .fadd then asWord (roundArith .fp32 false (sumV (vs.map f32)))
        else (vs.tail.foldl (fun a b => match op with
          | .add => a + b | .min => if b.toInt < a.toInt then b else a | .max => if a.toInt < b.toInt then b else a
          | .and => a &&& b | .or => a ||| b | .xor => a ^^^ b | .minU => if b.toNat < a.toNat then b else a
          | .maxU => if a.toNat < b.toNat then b else a | .fadd => b) (vs.headD 0), 0)
      ∃ c', Completes (.reduce g 0 x y op one r) s c' ∧ OnlyRegs c c' ∧ c'.v = c.v ∧ c'.fpflags = c.fpflags ||| v.2
      ∧ (∀ n, c'.rdG n = if n = x then v.1 else c.rdG n) ∧ Moved c c' (s.cohort c) c.preds)
  ∧ (∀ g lvl x y op one r s c act, let i : Instr := .reduce g lvl x y op one r
      Issues s i c act → 0 < lvl → s.ctxLevel c ≤ lvl → (r = true → s.Ordered c act lvl) →
      let s1 := s.beforeAccess i c act (if r then some lvl else none)
      let reqs : List Req := act.map (fun l =>
        { lane := l, len := 4, align := 4, data := [c.rdV y l]
          va := ((if lvl < 3 then (c.rdG x).toNat else c.rdPairG x) + if one then 0 else 4 * l) % 2 ^ (if lvl < 3 then 32 else 64) })
      (3 ≤ lvl → Takes s1 (c.begun i act) (some .store) .atomic false reqs →
        Queued i s s1 c 3 (some .store) [] [] reqs (s1.places (s1.partyOf (c.begun i act) false) .atomic) .none)
      ∧ (lvl = 1 → TakesLocal s1 (c.begun i act) (some .store) (fun q => s1.ownStore (c.begun i act) q.va q.len) reqs →
        Queued i s s1 c 3 (some .store) [] [] reqs (fun q => (s1.ownStore (c.begun i act) q.va q.len).places) .none)
      ∧ (lvl = 2 → TakesLocal s1 (c.begun i act) (some .store) (fun q => s1.clusterMem (c.begun i act) q.va q.len) reqs →
        Queued i s s1 c 3 (some .store) [] [] reqs (fun q => (s1.clusterMem (c.begun i act) q.va q.len).places) .none))

/-! ### Copies (R252 to R257, R262) -/

/-- R252 to R255: a copy whose descriptor passes the checks stands in the queue with one chunk for every 4,096 bytes of
every child's range (a size that is the model's, log entry 10), and a sequencer's reserves its event record. -/
def Obligations.CopiesIssue : Prop :=
  ∀ up g lvl x y r s c act, let i : Instr := if up then .mcopyUp g lvl x y r else .mcopyDown g lvl x y r
    Issues s i c act →
    let ws := (List.range 8).map (fun j => c.rdG (x + j))
    let d := copyDesc lvl up ws
    0 < lvl → lvl ≤ s.rootLvl c → (c.kind = .seq → lvl = s.ctxLevel c ∧ c.evFull = false) → s.copyBad c d = none →
    (r = true → s.Ordered c act lvl) → s.copiesQueued c < 32 → s.noRoom c (some .copy) false 0 = none →
    ∀ o, (if d.counts then s.objectRef c (d.ref.toNat % 2 ^ 25) = .ok o else o = .none) →
    ∃ t c' e, exec i s = .next t ∧ t.ctx s.cur.ctx = c' ∧ Moved c c' (s.cohort c) c.preds
      ∧ (r = false ∨ s.NoSlots → SameBytes s t) ∧ t.grids = s.grids
      ∧ (∀ j, j ≠ s.cur.ctx → t.ctx j = s.ctx j)
      ∧ e.ins = i ∧ e.pc = s.cur.pc ∧ e.kind = 7 ∧ e.cls = some .copy ∧ e.holds = [] ∧ e.obj = o ∧ e.args = ws ++ [c.rdG y, 0]
      ∧ e.id = c.nextId ∧ e.leader = act.headD 0
      ∧ (∀ ch ∈ e.chunks, ch.st = 0 ∧ ch.parked = 0 ∧ 0 < ch.len ∧ ch.len ≤ 4096 ∧ ch.off + ch.len ≤ d.len
          ∧ d.first ≤ ch.child ∧ ch.child < d.first + d.count)
      ∧ (∀ n b, n < d.count → b < d.len → (e.chunks.countP (fun ch => decide (ch.child = d.first + n) && decide (ch.off ≤ b)
          && decide (b < ch.off + ch.len))) = 1)
      ∧ c' = { c.countIssue (some .copy) with
                      lanes := c'.lanes, rq := c.rq ++ [e], nextId := c.nextId + 1, evResv := c.evResv + (if c.kind = .seq then 1 else 0)
                      yld := c'.yld, prio := c'.prio, misses := c'.misses, hold := none, withdrawn := false, missAt := none }

/-- R254 to R257: a chunk between a unit's store and a child's is written byte for byte, in the direction of its
copy, once its child is there, what it crosses carries it (R19, R22) and the release that its completion is need not wait
(R243); at L1 a chunk fills or reads the child group's tiles, at L4 the unit side is global memory of the issuer's package,
and at L5 both sides are global memory, each translated for its package. The chunks are the model's choice of 4,096 bytes, and
a step may also move one word of one (log entry 10); here a chunk stands in one page and is moved whole. -/
def Claims.CopyChunksMove : Prop :=
  ∀ s k id ch c e d x child, Sparse.find s.ctxs k = some c → c.chunk id ch = some (e, d, x) → e.obj = .none →
    let cu := s.copyUnit c d
    (if x.from' ≠ 0 then some (x.from' - 1) else s.childAt cu d.level x.child) = some child → x.st = 0 → x.parked = 0 →
    c.laneClear id [e.leader] = true → s.clockRuns c.pkg c.site = true →
    s.childReady d child = true → (d.level ≤ 3 → (s.unit cu).hasStore = true) → s.mayRelease c (min d.level 4) = true → x.got = [] →
    ((∀ l, s.travels c.pkg c.site l = true) → ∃ t, exec (.copyChunkWrite k id ch) s = .next t)
    ∧ (d.level = 2 ∨ d.level = 3 → s.NoSlots → (d.up = true → s.childKept d.level child = true) → Sparse.find s.units cu ≠ none → Sparse.find s.units child ≠ none →
        ¬ (d.level = 3 ∧ 2 ^ 22 ≤ d.c + x.off ∧ (s.unit child).split = false) →
        let a : Loc := .store cu (d.u + (x.child - d.first) * d.stride + x.off)
        let b : Loc := .store child (d.c + x.off)
        s.travels c.pkg c.site [(a, x.len), (b, x.len)] = true →
        ∃ t, exec (.copyChunkWrite k id ch) s = .next t ∧ (if d.up then Stored s t a (s.rdBytes b x.len) else Stored s t b (s.rdBytes a x.len))
          ∧ (∀ j, j ≠ k → t.ctx j = s.ctx j) ∧ t.grids = s.grids)
    ∧ (d.level = 1 → s.NoSlots → Sparse.find s.units cu ≠ none → child ≠ k → d.c * 1024 + x.off + x.len ≤ 16 * 1024 →
        (d.up = true → s.childKept 1 child = true) →
        ∀ q, Sparse.find s.ctxs child = some q →
        let a : Loc := .store cu ((d.u + (x.child - d.first) * d.stride + x.off) % 2 ^ 19)
        ∃ t, exec (.copyChunkWrite k id ch) s = .next t ∧ (∀ j, j ≠ k → j ≠ child → t.ctx j = s.ctx j) ∧ t.grids = s.grids
          ∧ (if d.up then t.ctx child = q ∧ Stored s t a (Sparse.getRun 0 q.tiles (1024 * d.c + x.off) x.len)
             else SameBytes s t ∧ (t.ctx child) = { q with tiles := (t.ctx child).tiles, ttags := (t.ctx child).ttags }
               ∧ Sparse.getRun 0 (t.ctx child).tiles (1024 * d.c + x.off) x.len = s.rdBytes a x.len
               ∧ ∀ m, ¬ (1024 * d.c + x.off ≤ m ∧ m < 1024 * d.c + x.off + x.len) →
                   Sparse.get 0 (t.ctx child).tiles m = Sparse.get 0 q.tiles m))
    ∧ (d.level = 4 ∨ d.level = 5 → s.NoSlots → Sparse.find s.units child ≠ none → 0 < x.len → (d.up = true → s.childKept d.level child = true) →
        let own := s.copyParty c
        let theirs : Party := { own with pkg := (s.unit child).pkg, walker := some 8, tlbs := [] }
        let va := d.u + (x.child - d.first) * d.stride + x.off
        let vc := d.c + x.off
        let ku : AccKind := if d.up then .write else .read
        let kc : AccKind := if d.up then .read else .write
        let s1 := (s.translate own va ku).1
        let s2 := if d.level = 4 then s1 else (s1.translate theirs vc kc).1
        ∀ (n : Nat) (b : Loc), va % 4096 + x.len ≤ 4096 → (∃ z, s.xlate own va ku = .ok (.hbm n) z) → (d.level = 4 → keyPkg n = c.pkg ∧ b = .store child vc) →
        (d.level = 5 → s.podMember c.pkg (s.unit child).pkg = true ∧ vc % 4096 + x.len ≤ 4096
          ∧ ∃ m z, b = .hbm m ∧ s1.xlate theirs vc kc = .ok (.hbm m) z ∧ keyPkg m = (s.unit child).pkg) →
        s2.travels c.pkg c.site [(.hbm n, x.len), (b, x.len)] = true →
        ∃ t, exec (.copyChunkWrite k id ch) s = .next t
          ∧ (if d.up then Stored s t (.hbm n) (s.rdBytes b x.len) else Stored s t b (s.rdBytes (.hbm n) x.len))
          ∧ (∀ j, j ≠ k → t.ctx j = s.ctx j) ∧ t.grids = s.grids)
    ∧ (d.up = true → s.childKept d.level child = false →
        exec (.copyChunkWrite k id ch) s = .next (s.failCopy k e d 8))

/-- R262: a dropped bulk packet, of a copy or of a collective, makes its source ask for a reservation, a grant gives it a
window, and a window that is missed makes it ask again. The length of a window is the model's reading (log entry 11), as is
the size of a chunk (log entry 10). -/
def Claims.Reservations : Prop :=
  ∀ s k id ch c e x b, Sparse.find s.ctxs k = some c → c.entry id = some e → e.chunks[ch]? = some x →
    s.bulkChunk k id ch = some (x, b) → (∀ y ∈ c.rq, y.id = id → y = e) →
    let left := fun (t : State) (y : Chunk) => SameBytes s t ∧ t.units = s.units ∧ t.grids = s.grids ∧ (∀ j, j ≠ k → t.ctx j = s.ctx j)
      ∧ (t.ctx k).entry id = some { e with chunks := e.chunks.set ch y }
    (x.st = 0 → x.parked = 0 → ∃ t, exec (.dropNotice k id ch) s = .next t ∧ left t { x with st := 1, window := s.cycle })
    ∧ (x.st = 1 → (∀ y ∈ s.reserved b.target, y.st = 1 → x.window ≤ y.window) →
        ((s.reserved b.target).filter (fun y => decide (y.st = 2))).length < 64 * (s.pkg b.target).livePorts →
        ∃ t w, exec (.reservationGrant k id ch) s = .next t ∧ left t { x with st := 2, window := w }
        ∧ s.dieCount b.src b.site < w ∧ x.len ≤ 100 * (w - s.dieCount b.src b.site))
    ∧ (x.st = 2 → x.window ≤ s.dieCount b.src b.site →
        ∃ t, exec (.reservationWindowMiss k id ch) s = .next t ∧ left t { x with st := 1, window := s.cycle })

/-! ### The combine unit (chapter 08) -/

/-- R189 to R192, R39: `CMBOPEN` on a sound descriptor opens the next free slot of its die and returns its handle,
or changes nothing but a predicate where no slot or batch entry is free; a bad descriptor traps. `CMBPUT` on a
sound source stands in the queue. A handle's word holds its fields. The order of the checks of a descriptor
and the generation 0 of a slot at reset are the model's (log entries 14 and 6). -/
def Claims.CombineOpensAndPuts : Prop :=
  (∀ h : Handle, h.pkg < 1024 → h.die < 8 → h.slot < 4096 → h.gen < 128 → handleOf h.word = h)
  ∧ (∀ g d a s c act, Issues s (.cmbopen g d a) c act →
      (∀ r, s.cmbDesc c a = .inl r → c.kind ≠ .handler → Traps (.cmbopen g d a) s r.1 [act.headD 0] r.2)
      ∧ ∀ u, s.cmbDesc c a = .inr u → (∀ k, s.cmbQueue s.cur.ctx c u = some k → (s.ctx k).evFull = false) →
        let p := s.pkg c.pkg
        let w := c.rdG (a + 2)
        let room := p.batchRoom c.site.die c.asid (wbits w 7 0)
        (p.cmbFree c.site.die = none ∨ room = false → ∃ c', Completes (.cmbopen g d a) s c' ∧ OnlyRegs c c' ∧ c'.v = c.v ∧ c'.g = c.g
          ∧ c'.fpflags = c.fpflags ∧ Moved c c' (s.cohort c) (fun l => if l ∈ act then pushed (c.preds l) false else c.preds l))
        ∧ ∀ i, p.cmbFree c.site.die = some i → room = true → ∃ t c', exec (.cmbopen g d a) s = .next t ∧ t.ctx s.cur.ctx = c'
          ∧ Moved c c' (s.cohort c) (fun l => if l ∈ act then pushed (c.preds l) true else c.preds l)
          ∧ SameBytes s t ∧ t.units = s.units ∧ t.grids = s.grids
          ∧ (∀ j, j ≠ s.cur.ctx → t.ctx j = if s.cmbQueue s.cur.ctx c u = some j ∧ Sparse.find s.ctxs j ≠ none
              then { s.ctx j with evResv := (s.ctx j).evResv + 1 } else s.ctx j)
          ∧ c'.evResv = c.evResv + (if c.kind = .seq then 1 else if s.cmbQueue s.cur.ctx c u = some s.cur.ctx then 1 else 0)
          ∧ c'.v = c.v ∧ c'.rq = c.rq ∧ c'.fpflags = c.fpflags
          ∧ (let k := c.site.die * 4096 + i
             let gen := ((p.cmb k).gen + 1) % 128
             (t.pkg c.pkg).cmb k = { st := .opened, gen := gen, asid := c.asid, grid := c.grid, unit := u, exp := BitVec.ofNat 16 (wbits w 31 16)
                                     width := 64 * (wbits w 15 8 + 1), outOff := (c.rdG a).toNat, stgOff := (c.rdG (a + 1)).toNat
                                     deadline := if (c.rdG (a + 3)).toNat = 0 then none else some (s.now c + (c.rdG (a + 3)).toNat)
                                     batch := wbits w 7 0
                                     resv := match s.cmbQueue s.cur.ctx c u with | some q => q + 1 | none => 0 }
             ∧ (∀ n, n ≠ k → (t.pkg c.pkg).cmb n = p.cmb n)
             ∧ ∀ n, c'.rdG n = if n = d then ({ pkg := c.pkg, die := c.site.die, slot := i, gen := gen } : Handle).word else c.rdG n))
  ∧ (∀ g d a b s c act o, Issues s (.cmbput g d a b) c act →
      let h := handleOf (c.rdG d)
      let src := c.rdG b
      let n := max 64 (s.cmbSlot h).width
      wbits src 22 0 % 64 = 0 → wbits src 31 30 < 2 → wbits src 29 23 = 0 → (c.rdG a).toNat < 16 → s.ctxLevel c < 3 →
      s.fillPlace c (wbits src 31 30) (wbits src 22 0) n = .ok o → s.podMember c.pkg h.pkg = true → (s.pkg h.pkg).dieUp h.die = true →
      s.noRoom c (some .copy) false 0 = none →
      Queued (.cmbput g d a b) s s c 7 (some .copy) [] [c.rdG d, c.rdG a, c.rdG (b + 1), maskOf (s.cohort c)]
        [{ lane := act.headD 0, va := wbits src 22 0, len := n, align := 64 }] (fun _ => [o]) .none)

/-- R195 to R199: the waits, the closes and the status of combine slots of the issuing die. -/
def Claims.CombineWaitsAndCloses : Prop :=
  ∀ g d a s c act, let h := handleOf (c.rdG a)
    let x := s.cmbSlot h
    let alive := x.current h c.asid
    c.site.mast = false →
    (h.pkg = c.pkg → h.die = c.site.die →
      (Issues s (.cmbwait g d a) c act → (alive = false ∨ x.st = .released → ∃ t c', Acts (.cmbwait g d a) s c t c' c.preds ∧ SameBytes s t
          ∧ OnlyRegs c c' ∧ c'.v = c.v ∧ ∀ n, c'.rdG n = if n = d then (if alive then x.word else 0x80) else c.rdG n)
        ∧ (alive = true → x.st ≠ .released → Waits (.cmbwait g d a) s c act (s.hinted (.cmbwait g d a) act) (.combine h.word d)))
      ∧ (∀ drop, let i : Instr := if drop then .cmbcloseDrop g a else .cmbclose g a
          Issues s i c act → ∃ t c', Acts i s c t c' c.preds ∧ SameBytes s t ∧ t.units = s.units ∧ OnlyRegs c c' ∧ c'.v = c.v ∧ c'.g = c.g
          ∧ (∀ k, (t.pkg c.pkg).cmb k = if k = h.key ∧ alive = true ∧ x.st = .opened ∧ (∀ z, x.deadline = some z → s.now c ≤ z)
              then { x with st := .due, deadline := some (s.now c), drop := drop } else (s.pkg c.pkg).cmb k))
      ∧ (∀ sel, Issues s (.cmbstat g d a sel) c act → ∃ c', Completes (.cmbstat g d a sel) s c'
          ∧ OnlyRegs c c' ∧ c'.v = c.v ∧ Moved c c' (s.cohort c) c.preds ∧ ∀ n, c'.rdG n = if n = d then (match sel, alive with
            | 0, true => BitVec.ofNat 32 (x.arr.toNat * 65536 + x.exp.toNat)
            | 1, true => BitVec.ofNat 32 (x.sub.toNat * 65536 + x.late.toNat)
            | 2, true => BitVec.ofNat 32 ((if x.st = .released then 2 else 1) * 2 ^ 30 + x.lateCnt * 2 ^ 16)
            | 2, false => 0xC0000000
            | _, _ => 0) else c.rdG n))
    ∧ (Issues s (.cmbwaitBatch g d a) c act →
        let b := wbits (c.rdG a) 7 0
        let k := (c.site.die * 2 ^ 16 + c.asid) * 256 + b
        ((s.pkg c.pkg).batchIdle c.site.die c.asid b = true → ∃ t c', Acts (.cmbwaitBatch g d a) s c t c' c.preds ∧ SameBytes s t
          ∧ OnlyRegs c c' ∧ c'.v = c.v ∧ Sparse.get 0 (t.pkg c.pkg).batches k = 0
          ∧ ∀ n, c'.rdG n = if n = d then BitVec.ofNat 32 (Sparse.get 0 (s.pkg c.pkg).batches k) else c.rdG n)
        ∧ ((s.pkg c.pkg).batchIdle c.site.die c.asid b = false →
          Waits (.cmbwaitBatch g d a) s c act (s.hinted (.cmbwaitBatch g d a) act) (.batch b d)))

/-- R189, R193: a put that arrives while its slot is open, for an expert that it expects and has not yet, stages its row
and its gate, and the last one expected is the release point; any other put of a current handle counts late, and one
whose handle is not current has no effect. -/
def Claims.PutsArrive : Prop :=
  ∀ s k id c e cap, Sparse.find s.ctxs k = some c → c.entry id = some e → (∃ g d a b, e.ins = .cmbput g d a b) →
    c.laneClear id (lanesOf (e.args.getD 3 0)) = true → Sparse.find e.caps e.leader = some cap → s.NoSlots →
    let h := handleOf (e.args.getD 0 0)
    s.putTravels c h cap.segs = true →
    let x := s.cmbSlot h
    let n := (e.args.getD 1 0).toNat
    let t0 := s.dieCount h.pkg { die := h.die }
    let good := x.st = .opened ∧ (∀ z, x.deadline = some z → t0 ≤ z) ∧ x.exp.getLsbD n = true ∧ x.arr.getLsbD n = false
    let row : Loc := .store x.unit (x.stgOff + x.width * ((List.range n).countP (fun i => x.exp.getLsbD i)))
    ∃ t, exec (.cmbputArrival k id) s = .next t ∧ t.ctx k = c.withRq (c.rq.filter (fun y => decide (y.id ≠ id)))
      ∧ (∀ j, j ≠ k → t.ctx j = s.ctx j) ∧ t.grids = s.grids
      ∧ (x.current h c.asid = false → t.cmbSlot h = x ∧ SameBytes s t)
      ∧ (x.current h c.asid = true → good → Sparse.find s.units x.unit ≠ none → ∀ o r, cap.pages = o :: r →
          Stored s t row (s.rdBytes o x.width) ∧ (t.cmbSlot h).arr = x.arr ||| (1#16 <<< n)
          ∧ Sparse.get 0 (t.cmbSlot h).gates n = e.args.getD 2 0
          ∧ ((t.cmbSlot h).st = if x.arr ||| (1#16 <<< n) = x.exp then .due else .opened))
      ∧ (x.current h c.asid = true → ¬ good → SameBytes s t ∧ (t.cmbSlot h).arr = x.arr ∧ (t.cmbSlot h).st = x.st
          ∧ (t.cmbSlot h).late = x.late ||| (1#16 <<< n) ∧ (t.cmbSlot h).lateCnt = min 255 (x.lateCnt + 1))

/-- R193 to R196: a slot whose time is over, or that a put or a close has brought to its release point, is served in its
turn, when the tick of its release point has passed: each element of the output row is the chain of the arrived experts' products in ascending order, each rounded
once; the slot is then free, its record posts and its batch counts a substitution. -/
def Claims.CombineReleases : Prop :=
  ∀ s p die slot, let k := die * 4096 + slot
    let x := (s.pkg p).cmb k
    (∀ z, x.st = .opened → s.clockRuns p { die := die } = true → x.deadline = some z → z < s.dieCount p { die := die } →
      ∃ t, exec (.combineTimeout p die slot) s = .next t ∧ SameBytes s t ∧ t.ctxs = s.ctxs ∧ t.units = s.units
      ∧ (∀ n, (t.pkg p).cmb n = if n = k then { x with st := .due, deadline := some z, drop := false } else (s.pkg p).cmb n))
    ∧ ((s.pkg p).cmbFirst die k .due = true → x.drop = false → x.deadline.getD 0 < s.dieCount p { die := die } → s.NoSlots → Sparse.find s.units x.unit ≠ none →
      let row := fun (e j : Nat) => s.rdWord (.store x.unit (x.stage e + 4 * j))
      let el := fun (j : Nat) => ((List.range 16).filter (fun e => x.arr.getLsbD e)).foldl (fun (r : Word × BitVec 6) e =>
        let y := roundArith .fp32 false (fmaV (f32 (Sparse.get 0 x.gates e)) (f32 (row e j)) (f32 r.1))
        (BitVec.ofNat 32 y.1, r.2 ||| y.2)) (0, 0)
      let fl := (List.range (x.width / 4)).foldl (fun f j => f ||| (el j).2) 0
      ∃ t, exec (.combineRelease p die slot) s = .next t ∧ t.ctxs = s.ctxs ∧ t.grids = s.grids
      ∧ Stored s t (.store x.unit x.outOff) ((List.range (x.width / 4)).flatMap (fun j => bytesOfNat 4 (el j).1.toNat))
      ∧ (∀ n, (t.pkg p).cmb n = if n = k then { x with st := .formed, sub := x.exp &&& ~~~x.arr
                                                       word := BitVec.ofNat 32 ((x.exp &&& ~~~x.arr).toNat * 2 ^ 16 + fl.toNat * 2 ^ 8 + 1) }
          else (s.pkg p).cmb n))
    ∧ ((s.pkg p).cmbFirst die k .due = true → x.drop = true → x.deadline.getD 0 < s.dieCount p { die := die } →
      ∃ t, exec (.combineRelease p die slot) s = .next t ∧ SameBytes s t
      ∧ t.ctxs = s.ctxs ∧ t.units = s.units
      ∧ (∀ n, (t.pkg p).cmb n = if n = k then { x with st := .formed, sub := x.exp &&& ~~~x.arr
                                                       word := BitVec.ofNat 32 ((x.exp &&& ~~~x.arr).toNat * 2 ^ 16) }
          else (s.pkg p).cmb n))
    ∧ ((s.pkg p).cmbFirst die k .formed = true → ∃ t, exec (.combineReleaseDone p die slot) s = .next t ∧ SameBytes s t ∧ t.units = s.units
      ∧ (∀ n, (t.pkg p).cmb n = if n = k then { x with st := .released, resv := 0 } else (s.pkg p).cmb n)
      ∧ (let b := (die * 2 ^ 16 + x.asid) * 256 + x.batch
         Sparse.get 0 (t.pkg p).batches b = Sparse.get 0 (s.pkg p).batches b + (if x.sub = 0 then 0 else 1))
      ∧ (x.resv = 0 → t.ctxs = s.ctxs)
      ∧ ∀ q, x.resv = q + 1 → ∀ c, Sparse.find s.ctxs q = some c → c.exiting = false →
          t.ctx q = { c with evResv := c.evResv - 1, evq := c.evq ++ [{
            kind := 4, level := 0, status := if x.sub = 0 then 0 else 0x100
            tag := ({ pkg := p, die := die, slot := slot, gen := x.gen } : Handle).word
            doneCount := if x.drop then 0 else x.width, aborted := 0 }] })

/-! ### Collectives and layouts (chapter 11) -/

/-- R266, R267: a sound `COLL` takes a table entry and returns its ticket; a descriptor that is not sound traps.  `LAYDEF`
reads its descriptor as one access of its leader lane. -/
def Claims.CollectivesIssue : Prop :=
  (∀ g d a op s c act, Issues s (.coll g d a op) c act → (c.kind = .seq → c.evFull = false) →
    (s.collDesc c op a = none → c.kind ≠ .handler → Traps (.coll g d a op) s 0x0F [act.headD 0] 0)
    ∧ ∀ y, s.collDesc c op a = some y → (op = .sumAccum → y.area % 2 ^ 29 % 64 = 0
          ∧ (s.areaUnit c y.area (48 * (y.dst.bytes y.member / y.dst.esz))).isSome = true) → s.noRoom c (some .coll) false 0 = none →
      ((s.pkg c.pkg).collFree = none → ∃ c', Completes (.coll g d a op) s c' ∧ OnlyRegs c c' ∧ c'.v = c.v ∧ c'.g = c.g ∧ c'.fpflags = c.fpflags
        ∧ Moved c c' (s.cohort c) (fun l => if l ∈ act then pushed (c.preds l) false else c.preds l))
      ∧ ∀ ix, (s.pkg c.pkg).collFree = some ix → ∃ t c' e x, Acts (.coll g d a op) s c t c'
            (fun l => if l ∈ act then pushed (c.preds l) true else c.preds l)
        ∧ SameBytes s t ∧ t.units = s.units ∧ (t.pkg c.pkg).collAt ix = x ∧ (∀ n, n ≠ ix → (t.pkg c.pkg).collAt n = (s.pkg c.pkg).collAt n)
        ∧ x.used = true ∧ x.started = false ∧ x.doneFlag = false ∧ x.status = 0 ∧ x.gen = (((s.pkg c.pkg).collAt ix).gen + 1) % 256
        ∧ x.op = op ∧ x.grid = c.grid ∧ x.asid = c.asid ∧ x.th = c.rdG (a + 1) ∧ x.src = y.src ∧ x.dst = y.dst ∧ x.member = y.member
        ∧ x.seq = Sparse.get 0 (s.pkg c.pkg).collSeq (seqKey c.grid x.th y.src.lvl1 (y.src.first + y.member)) + 1
        ∧ (∀ n, c'.rdG n = if n = d then BitVec.ofNat 32 (ix * 2 ^ 24 + x.gen * 2 ^ 16 + x.seq % 2 ^ 16) else c.rdG n)
        ∧ c'.rq = c.rq ++ [e] ∧ e.ins = .coll g d a op ∧ e.kind = 7 ∧ e.cls = some .coll ∧ e.holds = [] ∧ x.entry = c.nextId ∧ e.id = c.nextId
        ∧ c'.evResv = c.evResv + (if c.kind = .seq then 1 else 0) ∧ c'.v = c.v ∧ c'.fpflags = c.fpflags)
  ∧ (∀ g d a, Queues (.laydef g d a) none 0 .read none false [.g d] (fun _ act => [maskOf act])
      (fun c act => [{ lane := act.headD 0, va := c.rdPairG a, len := 64, align := 64 }]))

/-- R266, R274: a descriptor that is read and is sound becomes a layout of its grid, whose handle the destination
takes; `COLLWAIT` and `COLLQ` return a ticket's status word. -/
def Claims.LayoutsAndTickets : Prop :=
  (∀ s k id l c en x o g d a m, Ready s k id l c en x → en.kind = 0 → en.ins = .laydef g d a → en.args = [m] → s.NoSlots →
      s.LinesWhole → s.KeepsLines c o 64 → x.segs = [(o, 64)] → c.kind ≠ .handler →
      let bits := natOfBytes (s.seen c x.nc o 64)
      let y := layoutOf bits
      let mine := (s.pkg c.pkg).layouts.filter (fun e => decide (e.grid = c.grid))
      layoutIllegal bits = false → y.axesBad = false → s.membersBad c.pkg y = false →
      ((∀ i < 256, ∃ e ∈ mine, e.ix = i) → ∃ t c', Performs (.accessPerformed k id l) s k id l c t c' ∧ SameBytes s t ∧ c'.g = c.g
        ∧ (t.pkg c.pkg).layouts = (s.pkg c.pkg).layouts
        ∧ ∀ n, c'.lane n = if n ∈ lanesOf m then { c.lane n with pred := pushed (c.preds n) false } else c.lane n)
      ∧ ∀ i, (List.range 256).find? (fun i => !mine.any (fun e => decide (e.ix = i))) = some i → ∃ t c',
        Performs (.accessPerformed k id l) s k id l c t c' ∧ SameBytes s t
        ∧ (let gen := (Sparse.get 0 (s.pkg c.pkg).layGen i + 1) % 256
           (t.pkg c.pkg).layouts = (s.pkg c.pkg).layouts ++ [{ grid := c.grid, ix := i, gen := gen, lay := y }]
           ∧ (∀ n, c'.rdG n = if n = d then BitVec.ofNat 32 (gen * 256 + i) else c.rdG n))
        ∧ ∀ n, c'.lane n = if n ∈ lanesOf m then { c.lane n with pred := pushed (c.preds n) true } else c.lane n)
  ∧ (∀ g d a s c act, let x := (s.pkg c.pkg).collAt (wbits (c.rdG a) 31 24)
      let w : Word := if x.gen ≠ wbits (c.rdG a) 23 16 ∨ (x.used = false ∧ x.doneFlag = false) then 2
        else BitVec.ofNat 32 (x.status * 2 ^ 16 + x.exch * 2 ^ 12 + if x.doneFlag then 1 else 0)
      (Issues s (.collq g d a) c act → ∃ t c', Acts (.collq g d a) s c t c'
          (fun l => if l ∈ act then pushed (c.preds l) (w.getLsbD 0) else c.preds l) ∧ SameBytes s t ∧ OnlyRegs c c' ∧ c'.v = c.v
          ∧ ∀ n, c'.rdG n = if n = d then w else c.rdG n)
      ∧ (Issues s (.collwait g d a) c act →
          ((w.getLsbD 0 || w.getLsbD 1) = true → ∃ t c', Acts (.collwait g d a) s c t c' c.preds ∧ SameBytes s t ∧ OnlyRegs c c'
            ∧ c'.v = c.v ∧ ∀ n, c'.rdG n = if n = d then w else c.rdG n)
          ∧ ((w.getLsbD 0 || w.getLsbD 1) = false → Waits (.collwait g d a) s c act (s.hinted (.collwait g d a) act)
            (.ticket (wbits (c.rdG a) 31 24) (wbits (c.rdG a) 23 16) d))))

/-- R265: the shards of a dimension are disjoint and cover it: each slice of a sharded dimension belongs to exactly one
coordinate, in whose shard it stands at a place below the shard's count, and a place leads back to its slice. -/
def Claims.ShardsPartition : Prop :=
  ∀ e kind b p, 0 < p → 0 < b → kind ∈ [1, 2] → ∀ g < e,
    ∃ a < p, ∃ j, (DimView.mk e kind b p a).find g = some j ∧ j < (DimView.mk e kind b p a).count ∧ (DimView.mk e kind b p a).global j = g
      ∧ ∀ a' < p, ∀ j', (DimView.mk e kind b p a').find g = some j' → a' = a ∧ j' = j

/-- R269, R270, R272: an integer sum, and a floating-point sum without NDFP, do not depend on the order of the elements;
an area element read back is the one written. -/
def Claims.CollectiveSums : Prop :=
  (∀ ty turn turn' l l', l.Perm l' → collValue .sum ty false turn l = collValue .sum ty false turn' l')
  ∧ (∀ l l', l.Perm l' → collValue .max 1 false 0 l = collValue .max 1 false 0 l')
  ∧ (∀ x : RedSlot, (areaAcc x.areaBytes).acc = x.acc ∧ (areaAcc x.areaBytes).nan = x.nan ∧ (areaAcc x.areaBytes).pinf = x.pinf
      ∧ (areaAcc x.areaBytes).ninf = x.ninf ∧ (areaAcc x.areaBytes).nz = x.nz)

/-- R268, R269, R273, R338, R428: a collective starts when every member has issued it, nothing earlier holds it back,
its members reach each other and its issues agree; a chunk is written with the value of each of its elements; when every
chunk has passed, the member's ticket is done, its counter falls and its record posts. That all members' sources are read
in the one step that starts the collective, and that a sum holds and releases its slots within the steps of its chunk, are
the model's readings (log entries 15 and 16), and so is the level of the record, 5 for members that are packages and 4 for
dies, which is the model's choice (log entry 48). -/
def Obligations.CollectivesRun : Prop :=
  (∀ s p ix l, let x := (s.pkg p).collAt ix
      x.used = true → x.started = false → x.status = 0 → s.collPeers p x = some l → s.collEarlierDone p x = true →
      s.collReachable x = true → s.collCarried x = true →
      (∀ e ∈ l, e.2.2.parkedCh = []
        ∧ ∀ c en, Sparse.find s.ctxs e.2.2.ctx = some c → c.entry e.2.2.entry = some en → c.laneClear en.id [en.leader] = true) →
      (∀ s' bs, (∀ e ∈ l, e.2.2.status = 0 ∧ e.2.2.agrees x = true) → s.collSources l = (s', .ok bs) →
        exec (.collStart p ix) s = .next
          ((l.foldl (fun r e => r.clearSends e.2.2) s').modPeers p x (fun y => { y with started := true, data := bs })))
      ∧ ∀ e ∈ l, e.2.2.agrees x = false → exec (.collStart p ix) s = .next (s.failColl p ix 0x0F))
  ∧ (∀ s p ix, let x := (s.pkg p).collAt ix
      x.used = true → x.started = false → x.status = 0 → s.collReachable x = false →
      exec (.collStart p ix) s = .next (s.failColl p ix 8))
  ∧ (∀ s p ix ch, let x := (s.pkg p).collAt ix
      x.used = true → x.status = 0 → x.started = true → ch < x.chunkCount → ch ∉ x.chunks → (∀ e ∈ x.parkedCh, e.1 ≠ ch) → (∀ e ∈ x.got, e.1 ≠ ch) →
      s.mayTravel x (s.sender x p) ch = true → s.collReachable x = true → s.collCarried x = true →
      (∀ o, x.exch = 0 → x.op = .copy ∨ x.op = .permute → s.NoSlots →
        let r := x.chunkElems ch
        let bytes := (x.values (s.grid x.grid).ndfp (Config.freeWord s.free).toNat ch).flatMap (bytesOfNat x.dst.esz)
        let va := x.dst.addr x.member + ch * collChunk
        va + r.2 * x.dst.esz ≤ 2 ^ 57 → 0 < r.2 * x.dst.esz → pagesOf va (r.2 * x.dst.esz) = [va] →
        (∃ b, s.xlate (halyard p x.asid) va .write = .ok o b) → (∃ n, o = .hbm n ∨ o = .host n) →
        s.travels p { mast := true } [(o, r.2 * x.dst.esz)] = true →
        ∃ t, exec (.collChunkArrival p ix ch) s = .next t ∧ Stored s t o bytes ∧ t.ctxs = s.ctxs ∧ t.units = s.units
          ∧ (t.pkg p).collAt ix = { x with chunks := x.chunks ++ [ch], staged := x.staged.filter (fun e => decide (e.1 ≠ ch)) })
      ∧ ((s.toStage p ch x = true → ∃ i < (s.stagingRoom p x.asid).2, i ∉ s.stagingUsed p x.asid) →
        (x.op = .sum ∨ x.op = .sumAccum → s.NoSlots ∧ ∀ q site, (s.pkg q).pins = [] ∧ 0 < (s.pkg q).slotQuota site) →
        x.dst.elsz ≤ 2 → (∀ l, s.travels p { mast := true } l = true) → ∃ t, exec (.collChunkArrival p ix ch) s = .next t))
  ∧ (∀ s p ix c, let x := (s.pkg p).collAt ix
      x.used = true → (x.status = 0 → x.started = true ∧ x.chunkCount ≤ x.chunks.length) → Sparse.find s.ctxs x.ctx = some c →
      s.NoSlots → ∃ t, exec (.collComplete p ix) s = .next t ∧ SameBytes s t ∧ t.units = s.units
        ∧ (∀ j, j ≠ x.ctx → t.ctx j = s.ctx j)
        ∧ (t.pkg p).collAt ix = { x with used := false, doneFlag := true, staged := [], got := [] }
        ∧ (t.ctx x.ctx).rq = c.rq.filter (fun y => decide (y.id ≠ x.entry))
        ∧ (c.kind ≠ .seq → (t.ctx x.ctx).evq = c.evq)
        ∧ (c.kind = .seq → c.exiting = false → (t.ctx x.ctx).evq = c.evq ++ [{
            kind := 3, level := if x.src.lvl1 then 5 else 4, status := x.status, tag := x.th, doneCount := x.written, aborted := 0 }]))

/-! ### System instructions (chapters 03, 16 and 19) -/

/-- R74, R75, R76, R77, R78, R375, R381: a read of a special register gives its value and latches the high half of the
count where it reads the low one; the 64-bit registers are the two halves that their numbers read; writes of %fpflags and
%hfs set them, and a write of %hfs outside the handler changes nothing. -/
def Obligations.SpecialRegisters : Prop :=
  let after := fun (s : State) (c c' : Ctx) (n : Nat) (ls : List Nat) => ∀ l, c'.lane l = if l ∈ s.cohort c then
    { (c.lane l).onward with refHi := if n = 0x10 ∧ l ∈ ls then BitVec.ofNat 32 (s.now c / 2 ^ 32) else (c.lane l).refHi } else c.lane l
  (∀ g d n s c act, Issues s (.sread g d false n) c act → ∃ c', Completes (.sread g d false n) s c' ∧ OnlyRegs c c'
      ∧ (∀ l ∈ act, c'.rdV d l = s.special c n l) ∧ KeepsV c c' act [d] ∧ c'.g = c.g ∧ c'.e = c.e ∧ c'.fpflags = c.fpflags
      ∧ after s c c' n act)
  ∧ (∀ g d n s c act, Issues s (.sread g d true n) c act → ∃ c', Completes (.sread g d true n) s c' ∧ OnlyRegs c c'
      ∧ (∀ m, c'.rdG m = if m = d then s.special c n (act.headD 0) else c.rdG m) ∧ c'.v = c.v ∧ c'.e = c.e
      ∧ c'.fpflags = c.fpflags ∧ after s c c' n [act.headD 0])
  ∧ (∀ (s : State) (c : Ctx) (l : Nat), let pair := fun (n : Nat) => (s.special c n l).toNat + 2 ^ 32 * (s.special c (n + 1) l).toNat
      (c.kind ≠ .handler → pair 0x06 = (c.wid.toNat + if c.kind = .seq then 0 else l) % 2 ^ 64
        ∧ pair 0x0B = (s.gridOf c).argp.toNat ∧ pair 0x12 = (s.gridOf c).fmtslots.toNat
        ∧ s.special c 0x14 l = c.fpflags.setWidth 32 ∧ s.special c 0x15 l = 0 ∧ s.special c 0x16 l = 0 ∧ s.special c 0x17 l = 0)
      ∧ (c.kind = .handler → s.special c 0x00 l = BitVec.ofNat 32 l ∧ s.special c 0x15 l = c.hfs ∧ pair 0x16 = c.hfa.toNat
        ∧ ∀ n ∈ [1, 2, 3, 4, 5, 7, 8, 9, 10, 11, 12, 13, 18, 19, 20], s.special c n l = 0)
      ∧ s.special c 0x0E l = (if c.site.mast then 2 else if 6 ≤ c.site.die then 1 else 0)
      ∧ (s.special c 0x10 l).toNat = s.now c % 2 ^ 32 ∧ s.special c 0x11 l = (c.lane l).refHi)
  ∧ (∀ g d u s c act, Issues s (.swrite g d u 0x14) c act → ∃ c', Completes (.swrite g d u 0x14) s c' ∧ OnlyRegs c c'
      ∧ c'.fpflags = (if u then c.rdG d else c.rdV d (act.getLastD 0)).setWidth 6
      ∧ c'.v = c.v ∧ c'.vtags = c.vtags ∧ c'.g = c.g ∧ c'.e = c.e ∧ Moved c c' (s.cohort c) c.preds)
  ∧ (∀ g d u s c act, Issues s (.swrite g d u 0x15) c act → c.kind ≠ .handler → WroteV (.swrite g d u 0x15) s c act [] (fun _ _ => 0) (fun _ => 0))
  ∧ (∀ g d s c act, Issues s (.swrite g d true 0x15) c act → c.kind = .handler → ∃ c', Completes (.swrite g d true 0x15) s c'
      ∧ c'.hfs = c.rdG d &&& 0xFFFF0001 ∧ c'.hfa = (if c.rdG d &&& 0xFFFF0001 = 0 then 0 else c.hfa)
      ∧ c'.v = c.v ∧ c'.g = c.g ∧ c'.e = c.e ∧ c'.fpflags = c.fpflags ∧ Moved c c' (s.cohort c) c.preds)

/-- R369, R370, R371, R379: `TRAP` stops its group with the resume address of the next word: the frame is written,
the group stands in its core's handler queue, and lanes that take no part move on. Where lanes that take no
part stand is the model's reading (log entry 38), with lanes inside a hint sequence at its first word (R94). -/
def Claims.TrapInstruction : Prop :=
  ∀ g code s c act, Issues s (.trap g code) c act → c.kind = .group →
    bits ((s.pkg c.pkg).reg 0x0FD8) 63 63 = 0 → bits ((s.pkg c.pkg).reg 0x0C08) 16 16 = 1 →
    ∃ t c', exec (.trap g code) s = .next t ∧ t.ctx s.cur.ctx = c' ∧ SameBytes s t ∧ t.units = s.units ∧ t.grids = s.grids
      ∧ (∀ j, j ≠ s.cur.ctx → t.ctx j = s.ctx j)
      ∧ (t.pkg c.pkg).hq = (s.pkg c.pkg).hq ++ [(c.site.loc, s.cur.ctx)]
      ∧ c'.trapped = true
      ∧ c'.frame = { cause := 0x16, fpc := s.cur.pc, rpc := s.cur.pc + 4, lanes := maskOf act, info := BitVec.ofNat 64 code
                     nhint := (c.lane (act.headD 0)).hints.length, word := wordOf (.trap g code), time := s.now c }
      ∧ (∀ l ∈ act, c'.lane l = { (c.lane l).stopped with pc := s.cur.pc + 4, hints := [] })
      ∧ (∀ l ∈ s.cohort c, l ∉ act → c'.lane l = (c.lane l).onward)
      ∧ (∀ l < 32, l ∉ s.cohort c → c'.lane l = (c.lane l).stopped)
      ∧ c'.v = c.v ∧ c'.g = c.g ∧ c'.e = c.e ∧ c'.fpflags = c.fpflags ∧ c'.rq = c.rq ∧ c'.tiles = c.tiles ∧ c'.accs = c.accs

/-- R94, R98, R369, R370, R376, R393: an instruction that a check of R98 stops traps: its group's frame takes the cause, the address
of the instruction, and of the first word of its hint sequence, and the group stands in the handler queue, with every
register as it was; where TRAPCFG EN is 0 its team aborts with the cause.  A sequencer's unit aborts, and in a handler each lane faults for
itself.  Where the lanes of a trapped group stand is the model's reading (log entry 38), and so is that none of its regions
stays staged (log entry 53). -/
def Claims.ChecksTrap : Prop :=
  (∀ i s c act cause ls info, Sparse.find s.ctxs s.cur.ctx = some c → s.cohort c ≠ [] →
    act = (s.cohort c).filter (fun l => c.guard (guardOf i) l) → act ≠ [] → s.preCheck c i act = some (cause, ls, info) →
    c.kind ≠ .handler → (encode i).isSome = true → (∀ w, i ≠ .undefinedInstruction w) → Traps i s cause ls info)
  ∧ (∀ w s c act, Sparse.find s.ctxs s.cur.ctx = some c → s.cohort c ≠ [] → act = (s.cohort c).filter (fun l => c.guard (undefinedGuard w) l) →
    act ≠ [] → (c.kind ≠ .handler → Traps (.undefinedInstruction w) s 1 act 0)
    ∧ (c.kind = .handler → exec (.undefinedInstruction w) s =
        .next ((act.foldl (fun t l => t.handlerFail s.cur.ctx [l] 1 0) s).modCtx s.cur.ctx (fun c' => (c'.advance (s.cohort c)).unheld))))
  ∧ (∀ (s : State) k c pc word cause ls info, Sparse.find s.ctxs k = some c → c.kind = .group → cause ≠ 4 →
    bits ((s.pkg c.pkg).reg 0x0FD8) 63 63 = 0 →
    let t := s.takeTrap k pc word cause ls info none
    let c' := t.ctx k
    SameBytes s t ∧ t.grids.map (·.1) = s.grids.map (·.1) ∧ (∀ j, j ≠ k → t.ctx j = s.ctx j)
    ∧ c'.frame = { cause := cause, fpc := pc, lanes := maskOf ls, info := BitVec.ofNat 64 info, word := word, time := s.now c
                   nhint := (match ls with | l :: _ => (c.lane l).hints.length | [] => 0)
                   rpc := pc - BitVec.ofNat 64 (4 * (match ls with | l :: _ => (c.lane l).hints.length | [] => 0)) }
    ∧ c' = { c with lanes := c'.lanes, frame := c'.frame, staged := [], hold := none, withdrawn := false, missAt := none,
                     trapped := c'.trapped, queuedAt := c'.queuedAt }
    ∧ (∀ l < 32, c'.lane l = (c.lane l).stopped)
    ∧ (bits ((s.pkg c.pkg).reg 0x0C08) 16 16 = 1 → c'.trapped = true ∧ c'.queuedAt = s.cycle ∧ (t.pkg c.pkg).hq = (s.pkg c.pkg).hq ++ [(c.site.loc, k)] ∧ t.units = s.units)
    ∧ (bits ((s.pkg c.pkg).reg 0x0C08) 16 16 = 0 → Sparse.find s.units c.unit ≠ none → (s.unit c.unit).st = .running →
        (t.unit c.unit).st = .aborting cause ∧ (t.pkg c.pkg).hq = (s.pkg c.pkg).hq))
  ∧ (∀ (s : State) k c pc word cause ls info, Sparse.find s.ctxs k = some c → c.kind = .seq → cause ≠ 4 →
    Sparse.find s.units c.unit ≠ none → (s.unit c.unit).st = .running →
    let t := s.takeTrap k pc word cause ls info none
    (t.unit c.unit).st = .aborting cause ∧ SameBytes s t ∧ t.pkgs = s.pkgs ∧ (∀ j, j ≠ k → t.ctx j = s.ctx j))

/-- R380: `TRET` and `TRET.abort` wait until every other lane of the handler has exited or waits at a `TRET`; then the
handler ends as the first of them says: the served group goes on with its skip flags set, or stays halted where a halt
was pending, or its team aborts.  A group whose unit moves stays stopped until the move is over (R392). -/
def Obligations.HandlerEnds : Prop :=
  ∀ i s c act, Issues s i c act → c.kind = .handler →
    ∀ form : Bool × Word, ((∃ g, i = .tret g) ∧ form = c.firstTret.getD (false, 0)
        ∨ (∃ g a, i = .tretAbort g a ∧ form = c.firstTret.getD (true, c.rdG a))) →
    ((∃ l ∈ c.liveLanes, l ∉ act ∧ ∀ b w, (c.lane l).wait ≠ .tret b w) → Waits i s c act (s.hinted i act) (.tret form.1 form.2))
    ∧ ((∀ l ∈ c.liveLanes, l ∉ act → ∃ b w, (c.lane l).wait = .tret b w) → ∀ x, Sparse.find s.ctxs c.served = some x → c.served ≠ s.cur.ctx →
      ∃ t y, exec i s = .next t ∧ t.ctx c.served = y ∧ (t.ctx s.cur.ctx).placed = false
      ∧ (form.1 = true ∨ s.underMove x = false ∧ (x.haltPend = true ∨ x.rq = []) → y.trapped = false ∧ y.inHdl = false
          ∧ (t.pkg c.pkg).hq = (s.pkg c.pkg).hq.filter (fun e => decide (e.2 ≠ c.served)))
      ∧ (form.1 = true → Sparse.find s.units x.unit ≠ none → (s.unit x.unit).st = .running →
          (t.unit x.unit).st = .aborting (if form.2.toNat % 65536 = 0 then 0x0102 else form.2.toNat % 65536) ∧ y.frame = x.frame)
      ∧ (form.1 = false → s.underMove x = true → y.trapped = x.trapped ∧ y.halted = x.halted ∧ y.haltPend = x.haltPend ∧ y.rq = x.rq
          ∧ SameBytes s t)
      ∧ (form.1 = false → s.underMove x = false → x.haltPend = true → y.halted = true ∧ y.haltPend = false ∧ SameBytes s t ∧ y.rq = x.rq
          ∧ ∀ l < x.nLanes, y.lane l = if (x.lane l).exited = false then { (x.lane l).stopped with skip := true } else (x.lane l).stopped)
      ∧ (form.1 = false → s.underMove x = false → x.haltPend = false → x.halted = false → (s.unit x.unit).yielded = false → (s.unit x.unit).forced = false →
          x.rq = [] → bits ((s.pkg x.pkg).reg 0x0FD8) 63 63 = 0 →
          SameBytes s t ∧ t.units = s.units ∧ t.grids = s.grids ∧ (∀ j, j ≠ c.served → j ≠ s.cur.ctx → t.ctx j = s.ctx j)
          ∧ y = { x with inHdl := false, trapped := false, frame := {}, lanes := y.lanes }
          ∧ ∀ l < 32, y.lane l = if l ∈ x.liveLanes then { x.lane l with skip := true } else x.lane l))

/-- R382 to R385: the handler's window: `WINSEL` selects, `WINRD` reads the word of each lane's offset, `WINWR` writes the
words in ascending lane order, `OPLRD` and `RQRD` read logs and entries, `RQINJ` replays a parked entry and `RQDROP` drops
lanes of one. That `OPLRD`'s index counts only the entries that have a log is the model's reading (log entry 17). A `WINRD` or `WINWR` of a word of core store releases that word's open slot first (R183). -/
def Claims.HandlerWindow : Prop :=
  (∀ g a s c act, Issues s (.winsel g a) c act → wbits (c.rdG a) 31 13 = 0 → wbits (c.rdG a) 7 2 = 0 → ∃ c', Completes (.winsel g a) s c'
      ∧ c'.winIdx = wbits (c.rdG a) 12 8 ∧ c'.winRegion = wbits (c.rdG a) 1 0 ∧ Moved c c' (s.cohort c) c.preds
      ∧ c' = { c with lanes := c'.lanes, winIdx := c'.winIdx, winRegion := c'.winRegion, yld := c'.yld, prio := c'.prio
                      misses := c'.misses, hold := none, withdrawn := false, missAt := none })
  ∧ (∀ g d a s c act k x, Issues s (.winrd g d a) c act → s.windowGroup c = some (k, x) → c.winRegion ≠ 2 ∨ s.NoSlots →
      ∀ got : Nat → Nat × Nat, (∀ l ∈ act, (c.rdV a l).toNat % 4 = 0 ∧ s.windowWord x c.winRegion (c.rdV a l).toNat = some (got l)) →
      WroteV (.winrd g d a) s c act [d] (fun l _ => BitVec.ofNat 32 (got l).1) (fun _ => 0))
  ∧ (∀ g d a s c act k x, Issues s (.winrd g d a) c act → s.windowGroup c = some (k, x) →
      let s2 := act.foldl (fun s l => s.windowOpen x c.winRegion (c.rdV a l).toNat) (s.hinted (.winrd g d a) act)
      ∀ got : Nat → Nat × Nat, (∀ l ∈ act, (c.rdV a l).toNat % 4 = 0 ∧ s2.windowWord x c.winRegion (c.rdV a l).toNat = some (got l)) →
      Done (.winrd g d a) s c (s2.modCtx s.cur.ctx (fun c' => act.foldl (fun c' l => c'.wrV d l (BitVec.ofNat 32 (got l).1)) c')))
  ∧ (∀ g d a s c act k x, Issues s (.winwr g d a) c act → s.windowGroup c = some (k, x) →
      (∀ l ∈ act, (c.rdV a l).toNat % 4 = 0 ∧ ∃ old mask, s.windowWord x c.winRegion (c.rdV a l).toNat = some (old, mask)
        ∧ winWritable c.winRegion (c.rdV a l).toNat old mask (c.rdV d l).toNat = true) →
      let s2 := act.foldl (fun s l => s.windowPut k c.winRegion (c.rdV a l).toNat (c.rdV d l).toNat) (s.hinted (.winwr g d a) act)
      Done (.winwr g d a) s c s2 ∧ s2.grids = s.grids ∧ (∀ j, j ≠ k → j ≠ s.cur.ctx → s2.ctx j = s.ctx j)
      ∧ (c.winRegion = 1 → SameBytes s s2 ∧ s2.units = s.units) ∧ (c.winRegion = 2 → s2.ctx k = s.ctx k ∨ k = s.cur.ctx))
  ∧ (∀ g d a w s c act k x, Issues s (.oplrd g d a w) c act → s.windowGroup c = some (k, x) →
      WroteV (.oplrd g d a w) s c act [d] (fun l _ => match (x.replayList.filter RqEntry.inLog)[(c.rdG a).toNat]? with
        | some e => e.logWord l w | none => 0) (fun _ => 0))
  ∧ (∀ g d a s c act k x, Issues s (.rqrd g d a) c act → s.windowGroup c = some (k, x) →
      WroteV (.rqrd g d a) s c act [d] (fun l _ => match x.replayList[(c.rdG a).toNat + l / 8]? with
        | some e => x.rqWord e (l % 8) | none => 0) (fun _ => 0))
  ∧ (∀ g a s c act k x e, Issues s (.rqinj g a) c act → s.windowGroup c = some (k, x) → x.replayList[(c.rdG a).toNat]? = some e →
      e.isParked = true → Done (.rqinj g a) s c ((s.hinted (.rqinj g a) act).replayEntry k e.id (fun _ => true)))
  ∧ (∀ g d a s c act k x e, Issues s (.rqdrop g d a) c act → s.windowGroup c = some (k, x) → x.replayList[(c.rdG a).toNat]? = some e →
      e.isParked = true → k ≠ s.cur.ctx → Sparse.find s.ctxs k = some x →
      (∀ z ∈ (s.pkg x.pkg).early, ¬ (z.ctx = k ∧ z.entry = e.id)) → ∃ t y, exec (.rqdrop g d a) s = .next t ∧ t.ctx k = y ∧ SameBytes s t
      ∧ t.units = s.units ∧ t.grids = s.grids ∧ (∀ j, j ≠ k → j ≠ s.cur.ctx → t.ctx j = s.ctx j) ∧ y = x.withRq y.rq
      ∧ (∀ f ∈ y.rq, f.id ≠ e.id → f ∈ x.rq) ∧ (∀ f ∈ x.rq, f.id ≠ e.id → f ∈ y.rq)
      ∧ ∀ f ∈ y.rq, f.id = e.id → ∀ z ∈ f.caps, z.2.done = true ∨ (c.rdG d).getLsbD (z.1 % 32) = false)

/-- R386, R387, R389: `HALT` halts the groups of its scope and waits until they are reported stopped, `RESUME`
clears their halts, and `CTXSW` waits for the team to be quiet, then writes its context or takes one. What a
restored lane waits for is the model's reading (log entry 18). -/
def Claims.HandlerControl : Prop :=
  (∀ g sc s c act k x, Issues s (.halt g sc) c act → s.windowGroup c = some (k, x) →
      let ks := s.scopeGroups x sc
      let served := fun (k : Nat) => (s.ctx k).inHdl = true ∧ (s.ctx k).pkg = x.pkg ∧ (s.ctx k).site = x.site
      ∃ s2, (if s2.scopeStopped x sc then Done (.halt g sc) s c s2 else Waits (.halt g sc) s c act s2 (.halting sc))
        ∧ (∀ j ∈ ks, (s.ctx j).retired = false → ¬ served j → (s2.ctx j).halted = true ∨ (s2.ctx j).haltPend = true)
        ∧ (∀ j, j ∉ ks → j ≠ s.cur.ctx → s2.ctx j = s.ctx j) ∧ s2.units = s.units ∧ s2.grids = s.grids)
  ∧ (∀ g sc s c act k x, Issues s (.resume g sc) c act → s.windowGroup c = some (k, x) →
      ∃ s2, Done (.resume g sc) s c s2 ∧ (∀ j ∈ s.scopeGroups x sc, (s2.ctx j).halted = false ∧ (s2.ctx j).haltPend = false))
  ∧ (∀ g a s c act k x, let i : Instr := .ctxswSave g a
      Issues s i c act → s.windowGroup c = some (k, x) → c.rdPairG a % 4096 = 0 →
      let s1 := s.hinted i act
      let s2 := s1.releaseStore x.unit
      let bs := s2.teamArea x.unit (fun _ => [])
      (s.teamQuiet x.unit = false → Waits i s c act s1 .ctxsw)
      ∧ (s.teamQuiet x.unit = true → s2.spanFault (c.begun i act) (c.rdPairG a) bs.length .write = none →
          Done i s c (s2.writeSpan (c.begun i act) (c.rdPairG a) bs)))
  ∧ (∀ g a s c act k x, let i : Instr := .ctxswRestore g a
      Issues s i c act → s.windowGroup c = some (k, x) → c.rdPairG a % 4096 = 0 →
      let s1 := s.hinted i act
      let y := c.begun i act
      let n := s1.areaReach x.unit y (c.rdPairG a)
      (s.teamQuiet x.unit = false → Waits i s c act s1 .ctxsw)
      ∧ (s.teamQuiet x.unit = true → (∀ e ∈ s1.groupsOf x.unit, e.2.rq = []) → s1.spanFault y (c.rdPairG a) 320 .read = none →
          s1.spanFault y (c.rdPairG a) n .read = none →
          match ((s1.readSpan y (c.rdPairG a) n).1.releaseStore x.unit).restoreTeam x.unit (s1.readSpan y (c.rdPairG a) n).2 with
          | .inl s2 => Done i s c s2
          | .inr e => ∃ t, exec i s = .next t ∧ (wbits c.hfs 0 0 = 0 → wbits (t.ctx s.cur.ctx).hfs 23 16 = e)))

/-- R331, R332, R333: `TLBI` drops the translations of its ASID in its range, and global ones, `TLBI.w` the walk cache's
pointers too; `ASIDGEN` advances the generation and returns it.  Each waits for the accesses that used what it drops. -/
def Obligations.TranslationInstructions : Prop :=
  (∀ w g d a s c act, let i : Instr := if w then .tlbiW g d a else .tlbi g d a
      Issues s i c act → c.rdPairG a < 2 ^ 57 →
      let asid := s.tlbAsid c
      let va := c.rdPairG a
      let n := (c.rdG d).toNat
      let lo := if n = 0 then 0 else va / 4096 * 4096
      let hi := if n = 0 then 2 ^ 57 else lo + 4096 * n
      let l := s.inFlightIn c.pkg asid va n w
      ∃ s2, (if l = [] then Done i s c s2 else Waits i s c act s2 (.accesses l none))
        ∧ SameBytes s s2 ∧ s2.units = s.units ∧ s2.grids = s.grids ∧ (∀ j, j ≠ s.cur.ctx → s2.ctx j = s.ctx j)
        ∧ (s2.pkg c.pkg).tlbs = (s.pkg c.pkg).tlbs.filter (fun t => !((decide (t.asid = asid) || decide (t.pte.toNat / 2 ^ 5 % 2 = 1))
            && decide (t.va < hi) && decide (lo < t.va + 2 ^ t.bits)))
        ∧ (w = false → (s2.pkg c.pkg).walks = (s.pkg c.pkg).walks)
        ∧ (w = true → ∀ x ∈ (s2.pkg c.pkg).walks, x ∈ (s.pkg c.pkg).walks ∧ ¬ ((x.asid = asid ∨ x.glob = true) ∧ n = 0 ∧ x.level = 5)
            ∧ ¬ ((x.asid = asid ∨ x.glob = true) ∧ x.level ≠ 5 ∧ x.va * 2 ^ (12 + 9 * x.level) < hi ∧ lo < (x.va + 1) * 2 ^ (12 + 9 * x.level))))
  ∧ (∀ g d s c act, let i : Instr := .asidgen g d
      Issues s i c act →
      let asid := s.tlbAsid c
      let old := (s.pkg c.pkg).gen asid
      let l := s.translated c.pkg asid
      let v : Word := BitVec.ofNat 32 ((old + 1) % 16)
      ∃ s2, (s2.pkg c.pkg).gen asid = (old + 1) % 16 ∧ SameBytes s s2 ∧ s2.units = s.units ∧ s2.grids = s.grids
        ∧ (∀ j, j ≠ s.cur.ctx → s2.ctx j = s.ctx j)
        ∧ (∀ x ∈ (s2.pkg c.pkg).tlbs, x ∈ (s.pkg c.pkg).tlbs ∧ ¬ (x.asid = asid ∧ x.gen = (old + 1) % 16))
        ∧ if l = [] then Done i s c s2 ∧ (s2.ctx s.cur.ctx).rdG d = v else Waits i s c act s2 (.accesses l (some (d, v))))

/-! ### The service registers (chapters 12, 15 to 20 and 22) -/

/-- R6, R282, R285, R287, R350 to R352, R357, R421: masters come in ascending number in one tick; a write acts for the owner, is refused of a frozen master and in a
package whose boot failed, and freezes any other master outside its window; a plain register takes the bits that its
fields have; WPTR past the ring stops its queue with code 3, and a queue's control takes only its enable and its priority
while it runs. -/
def Obligations.RegisterWrites : Prop :=
  (∀ (q : Package) m, m < 4 → (q.takes m = true ↔ q.present m = true ∧ (q.reqAt.1 = q.count → q.reqAt.2 ≤ m)))
  ∧   (∀ (q : Package) m off, m < 4 → bits (q.reg 0x0018) 15 8 = 0 → q.frozen m = false →
      (q.owns m = true → q.right m off = .acts) ∧ (q.noOwner = true → q.right m off = .freezes)
      ∧ (q.owns m = false → q.inWindow m off = false → q.right m off = .freezes)
      ∧ (q.noOwner = false → q.inWindow m off = true → q.right m off = .acts))
  ∧ (∀ (q : Package) m off, bits (q.reg 0x0018) 15 8 ≠ 0 ∨ m < 4 ∧ q.frozen m = true → q.right m off = .refused)
  ∧ (∀ s p m off v, off < 0x10000 → off % 8 = 0 → off ≠ 0x0708 → (s.pkg p).Hears m →
      ((s.pkg p).right m off = .acts → exec (.registerWrite p m off v) s = .next (s.answer ((s.took p m).regWrite p off v) p m off))
      ∧ ((s.pkg p).right m off = .refused → exec (.registerWrite p m off v) s = .next (s.ignored p m off))
      ∧ ((s.pkg p).right m off = .freezes → m < 4 → ∃ t, exec (.registerWrite p m off v) s = .next t ∧ Freezes s t p m off))
  ∧ (∀ s p m v, m < 4 → (s.pkg p).Hears m → exec (.registerWrite p m 0x0708 v) s = .next (s.answer ((s.took p m).mstctl p m v) p m 0x0708))
  ∧ (∀ (s : State) p off v, plainMask off ≠ 0 → let t := s.regWrite p off v
      OnlyPkg s t p ∧ SameRegs (s.pkg p) (t.pkg p) [off] ∧ t.msis = s.msis
      ∧ (t.pkg p).reg off = ((s.pkg p).reg off &&& ~~~(plainMask off)) ||| (v &&& plainMask off)
      ∧ t.pkg p = { s.pkg p with regs := (t.pkg p).regs })
  ∧ (∀ s p m q w, q < 64 → MayWrite s p m (0x2010 + 32 * q) → ∃ t, exec (.qptrWptrWrite p m q w) s = .next t ∧ OnlyPkg s t p
      ∧ (t.pkg p).reg (0x2010 + 32 * q) = putBits ((s.pkg p).reg (0x2010 + 32 * q)) 31 0 w.toNat
      ∧ (let size := 2 ^ (bits ((s.pkg p).reg (0x2008 + 32 * q)) 60 57 + 4)
         let used := (w.toNat + 2 ^ 32 - bits ((s.pkg p).reg (0x2010 + 32 * q)) 63 32) % 2 ^ 32
         (used ≤ size → t.msis = s.msis ∧ SameRegs (s.pkg p) (t.pkg p) [0x2010 + 32 * q])
         ∧ (size < used → s.Told t p 0x0760 ∧ bits ((t.pkg p).reg (0x2008 + 32 * q)) 39 31 = 3 * 2 + 1
            ∧ SameRegs (s.pkg p) (t.pkg p) [0x2008 + 32 * q, 0x2010 + 32 * q])))
  ∧ (∀ s p m q v, q < 64 → MayWrite s p m (0x2008 + 32 * q) → ∃ t, exec (.qctlWrite p m q v) s = .next t ∧ OnlyPkg s t p
      ∧ SameRegs (s.pkg p) (t.pkg p) [0x2008 + 32 * q] ∧ t.msis = s.msis
      ∧ (let old := (s.pkg p).reg (0x2008 + 32 * q)
         let new := (t.pkg p).reg (0x2008 + 32 * q)
         bits new 63 61 = bits v 63 61 ∧ bits new 56 56 = bits old 56 56
         ∧ (bits old 63 63 = 1 → bits new 60 0 = bits old 60 0)
         ∧ (bits old 63 63 = 0 → bits new 60 57 = bits v 60 57 ∧ bits new 55 40 = bits v 55 40
            ∧ bits new 39 31 = if bits v 63 63 = 1 then 0 else bits old 39 31)))
  ∧ (∀ s p m n v, n < 4096 → MayWrite s p m (0x4000 + 8 * n) → ∃ t, exec (.evtcntWrite p m n v) s = .next t ∧ OnlyPkg s t p
      ∧ SameRegs (s.pkg p) (t.pkg p) [0x4000 + 8 * n] ∧ bits ((t.pkg p).reg (0x4000 + 8 * n)) 19 0 = bits v 19 0)

/-- R353 to R355, R358: the operations on the ownership of a package, what each does for whom, and what freezes
its writer; offers lapse, owners that stay away lose the package, and the owner thaws masters. What a write
but CLAIM does when there is no owner is the model's reading (log entry 25). -/
def Obligations.Ownership : Prop :=
  ∀ (s : State) p m, let q := s.pkg p
    let own := fun (t : State) => OnlyPkg s t p ∧ SameRegs q (t.pkg p) [0x0700] ∧ t.msis = s.msis
    let at' := fun (t : State) hi lo => bits ((t.pkg p).reg 0x0700) hi lo
    let was := fun hi lo => bits (q.reg 0x0700) hi lo
    (Speaks s p m →
      (q.noOwner = true → ∃ t, exec (.mstctlClaim p m) s = .next t ∧ own t ∧ at' t 1 0 = m ∧ at' t 7 7 = 0 ∧ at' t 6 2 = was 6 2 ∧ at' t 63 8 = was 63 8)
      ∧ (q.noOwner = false → exec (.mstctlClaim p m) s = .next (s.ignored p m 0x0708))
      ∧ (∀ n, n < 4 → q.owns m = true → q.present n = true → q.frozen n = false → n ≠ m → ∃ t, exec (.mstctlOffer p m n) s = .next t ∧ own t
          ∧ at' t 6 4 = 4 + n ∧ at' t 3 0 = was 3 0 ∧ at' t 63 7 = was 63 7 ∧ (t.pkg p).offerAt = q.count)
      ∧ (∀ n, n < 4 → q.owns m = true → q.present n = false ∨ q.frozen n = true ∨ n = m → exec (.mstctlOffer p m n) s = .next (s.ignored p m 0x0708))
      ∧ (q.owns m = true → ∃ t, exec (.mstctlWithdraw p m) s = .next t ∧ own t ∧ at' t 6 6 = 0 ∧ at' t 5 0 = was 5 0 ∧ at' t 63 7 = was 63 7)
      ∧ (q.owns m = true → ∃ t, exec (.mstctlRelease p m) s = .next t ∧ own t ∧ at' t 7 6 = 2 ∧ at' t 5 0 = was 5 0 ∧ at' t 63 8 = was 63 8)
      ∧ (q.noOwner = false → was 6 6 = 1 → was 5 4 = m → ∃ t, exec (.mstctlAccept p m) s = .next t ∧ own t ∧ at' t 1 0 = m ∧ at' t 6 6 = 0
          ∧ at' t 5 2 = was 5 2 ∧ at' t 63 7 = was 63 7)
      ∧ (q.noOwner = false → was 6 6 = 0 ∨ was 5 4 ≠ m → exec (.mstctlAccept p m) s = .next (s.ignored p m 0x0708))
      ∧ (q.owns m = false → ∃ t, exec (.mstctlWithdraw p m) s = .next t ∧ exec (.mstctlRelease p m) s = .next t ∧ Freezes s t p m 0x0708)
      ∧ (q.owns m = false → ∀ n < 4, ∃ t, exec (.mstctlOffer p m n) s = .next t ∧ Freezes s t p m 0x0708)
      ∧ (q.noOwner = true → ∃ t, exec (.mstctlAccept p m) s = .next t ∧ Freezes s t p m 0x0708)
      ∧ (∀ v, q.owns m = true → ∃ t, exec (.mstfrzThaw p m v) s = .next t ∧ OnlyPkg s t p ∧ SameRegs q (t.pkg p) [0x0710]
          ∧ ∀ n < 4, (t.pkg p).frozen n = (q.frozen n && !v.getLsbD (16 * n + 15))
              ∧ bits ((t.pkg p).reg 0x0710) (16 * n + 14) (16 * n) = bits (q.reg 0x0710) (16 * n + 14) (16 * n)))
    ∧ (was 6 6 = 1 → q.offerAt + 1000000000 ≤ q.count ∨ q.frozen (was 5 4) = true ∨ q.present (was 5 4) = false →
        ∃ t, exec (.offerLapse p) s = .next t ∧ OnlyPkg s t p ∧ SameRegs q (t.pkg p) [0x0700] ∧ s.Told t p 0x0760 ∧ at' t 6 6 = 0
          ∧ at' t 5 0 = was 5 0 ∧ at' t 63 7 = was 63 7)
    ∧ (∀ a, q.noOwner = false → was 1 0 ≠ 0 → q.present (was 1 0) = false → q.absentSince = some a → a + 1000000000 ≤ q.count →
        ∃ t, exec (.ownershipLoss p) s = .next t ∧ OnlyPkg s t p ∧ SameRegs q (t.pkg p) [0x0700] ∧ s.Told t p 0x0760 ∧ at' t 7 7 = 1
          ∧ at' t 6 0 = was 6 0 ∧ at' t 63 8 = was 63 8)
    ∧ (∀ up, 0 < m → m < 4 → q.offerOver = false → q.ownerGone = false → q.present m ≠ up → (m = 3 → up = true → bits (q.reg 0x0008) 33 33 = 1) →
        ∃ t, exec (.masterPresenceChange p m up) s = .next t ∧ own t ∧ (t.pkg p).present m = up ∧ (∀ n < 4, n ≠ m → (t.pkg p).present n = q.present n)
          ∧ at' t 11 0 = was 11 0 ∧ (t.pkg p).absentSince = if q.owns m then (if up then none else some q.count) else q.absentSince)

/-- R336, R338, R393: replies to fault records: retry lets the waiting fetches, reads, chunks and collectives go
on, a verdict of unresolvable aborts the units of the contexts that wait; the record of an abort only frees
its save area; a record that the ring has not taken is written when the ring takes it. A reply before the ring
has taken the record is the model's reading (log entry 21). -/
def Obligations.FaultReplies : Prop :=
  (∀ s p m id, MayWrite s p m 0x0620 → (∀ r ∈ (s.pkg p).frecs, r.id = id.toNat → r.answered = true) →
      exec (.tfreplyRetry p m id) s = .next (s.ignored p m 0x0620) ∧ exec (.tfreplyUnresolvable p m id) s = .next (s.ignored p m 0x0620))
  ∧ (∀ s p m id r, MayWrite s p m 0x0620 → (s.pkg p).frecs.find? (fun r => decide (r.id = id.toNat) && !r.answered) = some r →
      let gone := fun (t : State) => (t.pkg p).frecs = ((s.pkg p).frecs.map (fun r => if r.id = id.toNat then { r with answered := true } else r)).filter
        (fun r => !(r.written && r.answered))
      (r.kind = 8 → ∃ t, exec (.tfreplyRetry p m id) s = .next t ∧ exec (.tfreplyUnresolvable p m id) s = .next t ∧ OnlyPkg s t p ∧ gone t
          ∧ (t.pkg p).poolUsed = (s.pkg p).poolUsed.filter (fun a => decide (a + 1 ≠ r.area)))
      ∧ (r.kind ≠ 8 → (∃ t, exec (.tfreplyRetry p m id) s = .next t) ∧ ∃ t, exec (.tfreplyUnresolvable p m id) s = .next t)
      ∧ (r.kind ≠ 8 → (∀ e ∈ s.ctxs, ∀ y ∈ e.2.rq, ∀ z ∈ y.caps, z.2.done = true ∨ z.2.parked ≠ id.toNat + 1) →
          ∃ t, exec (.tfreplyRetry p m id) s = .next t ∧ gone t ∧ SameBytes s t ∧ t.units = s.units
          ∧ (∀ k c, Sparse.find s.ctxs k = some c → c.pkg = p → ∀ l < c.nLanes, (t.ctx k).lane l =
              if (c.lane l).wait = .fetch id.toNat then { c.lane l with wait := .none } else c.lane l)
          ∧ (∀ k c, Sparse.find s.ctxs k = some c → ∀ y ∈ (t.ctx k).rq, ∀ x ∈ y.chunks, x.parked ≠ p * 2 ^ 32 + id.toNat + 1)
          ∧ (∀ e ∈ t.grids, e.2.pkg = p → e.2.parked ≠ id.toNat + 1) ∧ ∀ e ∈ (t.pkg p).qwait, e.2 / 2 ≠ id.toNat)
      ∧ (r.kind ≠ 8 → ∀ k c, Sparse.find s.ctxs k = some c → (k, c) ∈ s.ctxs → c.pkg = p → c.kind ≠ .handler → c.waitsOn id.toNat = true →
          Sparse.find s.units c.unit ≠ none → (s.unit c.unit).st = .running →
          ∃ t n, exec (.tfreplyUnresolvable p m id) s = .next t ∧ (t.unit c.unit).st = .aborting n ∧ n ∈ [0x0101, 0x0105]))
  ∧ (∀ s p r, (s.pkg p).frecs.find? (fun r => !r.written) = some r → bits ((s.pkg p).reg 0x0608) 63 63 = 1 → (s.pkg p).ringFull = false →
      let w := bits ((s.pkg p).reg 0x0618) 63 32
      let a := bits ((s.pkg p).reg 0x0608) 51 12 * 4096 + 32 * (w % 2 ^ (bits ((s.pkg p).reg 0x0608) 62 59 + 6))
      ∃ t, exec (.faultRecordFlush p) s = .next t ∧ (s.NoSlots → Stored s t (.hbm (hbmKey p a)) (bytesOfNat 32 r.image)) ∧ s.Told t p 0x0610
        ∧ t.ctxs = s.ctxs ∧ t.units = s.units ∧ t.grids = s.grids ∧ bits ((t.pkg p).reg 0x0618) 63 32 = (w + 1) % 2 ^ 32
        ∧ SameRegs (s.pkg p) (t.pkg p) [0x0618])

/-- R331 to R334, R340, R341: commands to the translation and archive engines start when their engine is not busy,
act on what their operands name, and complete with a result. When an archive command takes effect, and which
handle it prefers, are the model's (log entries 22 and 5). -/
def Claims.EngineCommands : Prop :=
  (∀ s p m v i op, MayWrite s p m 0x0630 → (i, op) ∈ [(Instr.tlbcmdTlbi p m v, 1), (.tlbcmdTlbiW p m v, 2), (.tlbcmdAsidgen p m v, 3)] →
      bits v 62 61 = op →
      (bits ((s.pkg p).reg 0x0630) 63 63 = 1 → exec i s = .next (s.ignored p m 0x0630))
      ∧ (bits ((s.pkg p).reg 0x0630) 63 63 = 0 → ∃ t, exec i s = .next t ∧ OnlyPkg s t p ∧ SameRegs (s.pkg p) (t.pkg p) [0x0630]
        ∧ bits ((t.pkg p).reg 0x0630) 63 61 = 4 + op ∧ bits ((t.pkg p).reg 0x0630) 47 0 = bits v 47 0
        ∧ (let asid := bits v 47 32
           let va := bits ((s.pkg p).reg 0x0628) 56 12 * 4096
           let n := bits v 31 0
           (op = 3 → (t.pkg p).gen asid = ((s.pkg p).gen asid + 1) % 16
              ∧ (t.pkg p).tlbWait = s.translated p asid)
           ∧ (op ≠ 3 → (t.pkg p).tlbWait = s.inFlightIn p asid va n (decide (op = 2)) ∧ (t.pkg p).tlbs = (s.pkg p).tlbs.filter (fun t =>
              !((decide (t.asid = asid) || decide (t.pte.toNat / 2 ^ 5 % 2 = 1)) && decide (t.va < if n = 0 then 2 ^ 57 else va + 4096 * n)
                && decide ((if n = 0 then 0 else va) < t.va + 2 ^ t.bits)))))))
  ∧ (∀ s p, bits ((s.pkg p).reg 0x0630) 63 63 = 1 → s.stillRunning (s.pkg p).tlbWait = [] → ∃ t, exec (.tlbCommandComplete p) s = .next t
      ∧ OnlyPkg s t p ∧ SameRegs (s.pkg p) (t.pkg p) [0x0630] ∧ bits ((t.pkg p).reg 0x0630) 63 63 = 0
      ∧ bits ((t.pkg p).reg 0x0630) 51 48 = (s.pkg p).gen (bits ((s.pkg p).reg 0x0630) 47 32) % 16)
  ∧ (∀ s p m v, MayWrite s p m 0x0638 → ∃ t, exec (.archcfgWrite p m v) s = .next t ∧ OnlyPkg s t p ∧ SameRegs (s.pkg p) (t.pkg p) [0x0638]
      ∧ (t.pkg p).reg 0x0638 = if (s.pkg p).archive = [] ∧ bits v 20 0 * 2 ^ 21 + bits v 47 34 * 2 ^ 26 < 0xC000000000
          then v &&& 0x0000FFFC001FFFFF else (s.pkg p).reg 0x0638)
  ∧ (∀ s p m v i op, MayWrite s p m 0x0640 → (i, op) ∈ [(Instr.archcmdCompress p m v, 1), (.archcmdExpand p m v, 2), (.archcmdFree p m v, 3)] →
      bits v 63 62 = op → let q := s.pkg p
      let a := bits v 27 0 * 4096
      let h := bits v 61 28
      (bits (q.reg 0x0648) 63 63 = 1 → exec i s = .next (s.ignored p m 0x0640))
      ∧ (bits (q.reg 0x0648) 63 63 = 0 → ∃ t, exec i s = .next t ∧ bits ((t.pkg p).reg 0x0648) 63 63 = 1 ∧ t.ctxs = s.ctxs ∧ t.grids = s.grids
        ∧ (op = 1 → q.frameOk a = false → (t.pkg p).archPend = 2 ∧ SameBytes s t ∧ (t.pkg p).archive = q.archive)
        ∧ (op = 1 → q.frameOk a = true → s.NoSlots →
            ((t.pkg p).archPend = 1 ∧ SameBytes s t ∧ (t.pkg p).archive = q.archive)
            ∨ ((t.pkg p).archPend = 0 ∧ ∃ r, (t.pkg p).archive = q.archive ++ [r] ∧ r.page = s.rdBytes (.hbm (hbmKey p a)) 4096
                ∧ q.archFits r.handle (max 1 r.len) = true ∧ bits ((t.pkg p).reg 0x0648) 40 7 = r.handle % 2 ^ 34
                ∧ bits ((t.pkg p).reg 0x0648) 6 0 = r.len ∧ r.len ≤ 64))
        ∧ (op = 2 → s.NoSlots → ∀ r, q.archive.find? (fun r => decide (r.handle = h)) = some r → q.frameOk a = true →
            (t.pkg p).archPend = 0 ∧ (r.page.length = 4096 → Stored s t (.hbm (hbmKey p a)) r.page))
        ∧ (op = 2 → (∀ r ∈ q.archive, r.handle ≠ h) ∨ q.frameOk a = false → (t.pkg p).archPend = 2 ∧ SameBytes s t)
        ∧ (op = 3 → SameBytes s t ∧ (t.pkg p).archive = q.archive.filter (fun r => decide (r.handle ≠ h))
            ∧ (t.pkg p).archPend = if q.archive.any (fun r => decide (r.handle = h)) then 0 else 2)))
  ∧ (∀ s p, bits ((s.pkg p).reg 0x0648) 63 63 = 1 → ∃ t, exec (.archCommandComplete p) s = .next t ∧ OnlyPkg s t p
      ∧ SameRegs (s.pkg p) (t.pkg p) [0x0648] ∧ bits ((t.pkg p).reg 0x0648) 63 61 = (s.pkg p).archPend % 4)

/-- R363 to R367, R426, R427: attestation and firmware commands start when theirs is not busy, and complete with a
result and a package event; a quote counts, and a firmware image extends its measurement only when its checks
pass and its targets are out of service. Signatures and certificates are free values (log entry 5); when such a command takes effect, MEAS7 among it, and that a write while one runs has no effect, are its
choice (log entry 22). -/
def Claims.SecurityCommands : Prop :=
  (∀ s p m v i op, MayWrite s p m 0x0800 → (i, op) ∈ [(Instr.attcmdQuote p m v, 1), (.attcmdIdentityCert p m v, 2)] → bits v 63 61 = op →
      let q := s.pkg p
      let a := bits v 51 12 * 4096
      (bits (q.reg 0x0808) 63 63 = 1 → exec i s = .next (s.ignored p m 0x0800))
      ∧ (bits (q.reg 0x0808) 63 63 = 0 → ∃ t, exec i s = .next t ∧ bits ((t.pkg p).reg 0x0808) 63 63 = 1 ∧ t.ctxs = s.ctxs ∧ t.grids = s.grids
        ∧ (0xC000000000 ≤ a → (t.pkg p).attPend = 1 ∧ SameBytes s t ∧ bits ((t.pkg p).reg 0x0808) 31 0 = bits (q.reg 0x0808) 31 0)
        ∧ (a < 0xC000000000 → (t.pkg p).attPend = 0
            ∧ bits ((t.pkg p).reg 0x0808) 31 0 = (bits (q.reg 0x0808) 31 0 + if op = 1 then 1 else 0) % 2 ^ 32)
        ∧ (a < 0xC000000000 → s.NoSlots → op = 2 → ∃ n, (Config.identityCertificate (q.reg 0x0000) (identityModulus p)).take 3968 = (List.range n).map (fun j => t.rdByte (.hbm (hbmKey p a + 64 + j)))
            ∧ t.rdWord (.hbm (hbmKey p a)) = BitVec.ofNat 32 n)))
  ∧ (∀ s p, bits ((s.pkg p).reg 0x0808) 63 63 = 1 → ∃ t, exec (.attComplete p) s = .next t ∧ OnlyPkg s t p ∧ s.Told t p 0x0760
      ∧ SameRegs (s.pkg p) (t.pkg p) [0x0808] ∧ bits ((t.pkg p).reg 0x0808) 63 61 = (s.pkg p).attPend % 4)
  ∧ (∀ s p m v, MayWrite s p m 0x1100 → bits v 63 62 = 1 → bits v 61 60 ≠ 0 → bits ((s.pkg p).reg 0x1108) 63 63 = 0 → s.NoSlots →
      let q := s.pkg p
      let img := if 0xC000000000 ≤ bits v 51 12 * 4096 then [] else (s.readImage p (bits v 51 12 * 4096)).2
      ∃ t, exec (.fwupdLoad p m v) s = .next t ∧ OnlyPkg s t p ∧ bits ((t.pkg p).reg 0x1108) 63 63 = 1
        ∧ (fwCheck img (bits v 61 60) q.fuses.1 q.fuses.2 = .mismatch → (t.pkg p).fwPend = 1)
        ∧ (fwCheck img (bits v 61 60) q.fuses.1 q.fuses.2 = .old → (t.pkg p).fwPend = 2)
        ∧ (fwCheck img (bits v 61 60) q.fuses.1 q.fuses.2 = .good → bits v 61 60 = 1 → (t.pkg p).fwPend = 4 ∧ (t.pkg p).stagedFw = img)
        ∧ (fwCheck img (bits v 61 60) q.fuses.1 q.fuses.2 = .good → bits v 61 60 ≠ 1 →
            if q.maskOut (bits v 61 60) (bits v 59 52) then (t.pkg p).fwPend = 0 ∧ (t.pkg p).meas 7 = sha512 (q.meas 7 ++ sha512 img)
            else (t.pkg p).fwPend = 3 ∧ (t.pkg p).meas 7 = q.meas 7))
  ∧ (∀ s p, bits ((s.pkg p).reg 0x1108) 63 63 = 1 → ∃ t, exec (.fwLoadComplete p) s = .next t ∧ OnlyPkg s t p ∧ s.Told t p 0x0760
      ∧ SameRegs (s.pkg p) (t.pkg p) [0x1108] ∧ bits ((t.pkg p).reg 0x1108) 63 60 = (s.pkg p).fwPend % 8)

/-! ### Dies, planes, debug and reset (chapters 02, 11, 18, 20 and 22) -/

/-- R19, R359, R423, R424: a die's clocks stop with its count held, and restart with its parties' time-outs put
off; a drain takes a die out of placement and moves its units, completes when none is left, and a return
brings it back. What a command does while another runs is the model's reading (log entry 23). -/
def Claims.DiesStopAndDrain : Prop :=
  (∀ s p d, d < 8 → Sparse.find (s.pkg p).stopped d = none → ∃ t, exec (.dieClockStop p d) s = .next t ∧ OnlyPkg s t p
      ∧ SameRegs (s.pkg p) (t.pkg p) [] ∧ t.msis = s.msis
      ∧ ∀ n, Sparse.find (t.pkg p).stopped n = if n = d then some ((s.pkg p).dieCopy d) else Sparse.find (s.pkg p).stopped n)
  ∧ (∀ s p d a, Sparse.find (s.pkg p).stopped d = some a → ∃ t, exec (.dieClockRestart p d) s = .next t ∧ SameBytes s t ∧ t.grids = s.grids
      ∧ SameRegs (s.pkg p) (t.pkg p) [] ∧ t.msis = s.msis ∧ Sparse.find (t.pkg p).stopped d = none ∧ (∀ q, q ≠ p → t.pkg q = s.pkg q)
      ∧ (let n := (s.pkg p).count - a
         (∀ k c, Sparse.find s.ctxs k = some c → c.pkg = p → c.site.mast = false → c.site.die = d → ∀ l x, (c.lane l).wait = .sleep x →
            ((t.ctx k).lane l) = { c.lane l with wait := .sleep (x + n) })
         ∧ (∀ k c, Sparse.find s.ctxs k = some c → c.pkg ≠ p ∨ c.site.mast = true ∨ c.site.die ≠ d → t.ctx k = c)
         ∧ (∀ u w, Sparse.find s.units u = some w → w.pkg = p → w.site.mast = false → w.site.die = d →
            t.unit u = { w with deadline := w.deadline.map (fun x => x + n) })
         ∧ (∀ k, Sparse.find (t.pkg p).preq k = (Sparse.find (s.pkg p).preq k).map (fun x => if k / 256 = d then x + n else x))
         ∧ ∀ k, (t.pkg p).cmb k = if k / 4096 = d ∧ ((s.pkg p).cmb k).st = .opened
            then { (s.pkg p).cmb k with deadline := ((s.pkg p).cmb k).deadline.map (fun x => x + n) } else (s.pkg p).cmb k))
  ∧ (∀ s p m d, d < 8 → MayWrite s p m 0x1000 → let q := s.pkg p
      let busy := bits (q.reg 0x1008) 63 63 = 1 ∨ bits (q.reg 0x1108) 63 63 = 1
      let last := ∀ i < 6, i ≠ d → bits (q.reg 0x1008) (48 + i) (48 + i) = 1
      (busy ∨ last → exec (.diesvcDrain p m d) s = .next (s.ignored p m 0x1000))
      ∧ (¬ busy → ¬ last → ∃ t, exec (.diesvcDrain p m d) s = .next t ∧ (t.pkg p).dieUp d = false ∧ (∀ i, i ≠ d → (t.pkg p).dieUp i = q.dieUp i)
          ∧ bits ((t.pkg p).reg 0x1008) 63 63 = 1 ∧ bits ((t.pkg p).reg 0x1008) 58 56 = d ∧ SameBytes s t
          ∧ ∀ u x, Sparse.find s.units u = some x → (u, x) ∈ s.units → x.onDie p d = true → x.st = .running → s.movable x = true →
              s.areasFor u ≤ q.poolCount → (t.unit u).st = .moving false)
      ∧ (¬ busy → bits (q.reg 0x1008) (48 + d) (48 + d) = 0 → exec (.diesvcReturn p m d) s = .next (s.ignored p m 0x1000))
      ∧ (¬ busy → bits (q.reg 0x1008) (48 + d) (48 + d) = 1 → ∃ t, exec (.diesvcReturn p m d) s = .next t ∧ (t.pkg p).dieUp d = true
          ∧ (∀ i, i ≠ d → (t.pkg p).dieUp i = q.dieUp i) ∧ bits ((t.pkg p).reg 0x1008) (48 + d) (48 + d) = 0
          ∧ Sparse.find (t.pkg p).stopped d = none ∧ s.Told t p 0x0760 ∧ SameBytes s t))
  ∧ (∀ s p, bits ((s.pkg p).reg 0x1008) 63 63 = 1 → let d := bits ((s.pkg p).reg 0x1008) 58 56
      s.leftOn p d = 0 → (∀ e ∈ (s.pkg p).shadows, e.die ≠ d) → ∃ t, exec (.dieDrainComplete p) s = .next t ∧ OnlyPkg s t p ∧ s.Told t p 0x0760
      ∧ SameRegs (s.pkg p) (t.pkg p) [0x1008] ∧ bits ((t.pkg p).reg 0x1008) 63 63 = 0 ∧ bits ((t.pkg p).reg 0x1008) (48 + d) (48 + d) = 1)

/-- R259, R260, R261, R425: a dead plane's logical planes stop and drain towards the next live plane; a plane whose three
ports are down is dead; a written map takes live planes only; a plane that has drained switches, which is counted and
announced; a plane goes out of service when nothing uses it, and its ports retrain when it returns. Which ports belong to a
plane, and that a drain takes a cycle at least, are the model's readings (log entries 24 and 62). -/
def Claims.PlanesAndPorts : Prop :=
  (∀ s p x, x < 8 → (s.pkg p).planeDead x = false → ∃ t, exec (.planeFailure p x) s = .next t ∧ OnlyPkg s t p
      ∧ SameRegs (s.pkg p) (t.pkg p) [0x0508] ∧ t.msis = s.msis ∧ (t.pkg p).planeDead x = true
      ∧ (∀ n < 8, n ≠ x → (t.pkg p).planeDead n = (s.pkg p).planeDead n)
      ∧ (∀ j < 7, (s.pkg p).planeDead ((x + 1 + j) % 8) = false → (∀ k < j, (s.pkg p).planeDead ((x + 1 + k) % 8) = true) →
          ∀ i < 8, ((t.pkg p).planeTo i = if (s.pkg p).planeTo i = x then (x + 1 + j) % 8 else (s.pkg p).planeTo i)
            ∧ bits ((t.pkg p).reg 0x0508) (32 + i) (32 + i) = if (s.pkg p).planeTo i = x then 1 else bits ((s.pkg p).reg 0x0508) (32 + i) (32 + i)))
  ∧ (∀ s p n, n < 24 → (s.pkg p).portsDown.getLsbD n = false → ∃ t, exec (.fabricPortFailure p n) s = .next t ∧ OnlyPkg s t p
      ∧ SameRegs (s.pkg p) (t.pkg p) [0x0508] ∧ t.msis = s.msis ∧ (∀ i < 24, (t.pkg p).portsDown.getLsbD i = ((s.pkg p).portsDown.getLsbD i || decide (i = n)))
      ∧ bits ((t.pkg p).reg 0x0508) 31 24 = ((List.range 24).filter (fun i => (t.pkg p).portsDown.getLsbD i)).length
      ∧ ((∀ i < 24, i / 3 = n / 3 → (t.pkg p).portsDown.getLsbD i = true) → (t.pkg p).planeDead (n / 3) = true)
      ∧ (¬ (∀ i < 24, i / 3 = n / 3 → (t.pkg p).portsDown.getLsbD i = true) → ∀ x < 8, (t.pkg p).planeDead x = (s.pkg p).planeDead x))
  ∧ (∀ s p m v, MayWrite s p m 0x0500 → ∃ t, exec (.planemapWrite p m v) s = .next t ∧ OnlyPkg s t p
      ∧ SameRegs (s.pkg p) (t.pkg p) [0x0508] ∧ t.msis = s.msis ∧ (∀ x < 8, (t.pkg p).planeDead x = (s.pkg p).planeDead x)
      ∧ ∀ i < 8, let x := bits v (3 * i + 2) (3 * i)
          (t.pkg p).planeTo i = if (s.pkg p).planeDead x then (s.pkg p).planeTo i else x)
  ∧ (∀ s p i x a, i < 8 → x < 8 → Sparse.find (s.pkg p).switching i = some (x, a) → a < s.cycle → ∃ t, planeSwitch p i s = .next t ∧ OnlyPkg s t p
      ∧ SameRegs (s.pkg p) (t.pkg p) [0x0500, 0x0508] ∧ s.Told t p 0x0760 ∧ (t.pkg p).planeOf i = x ∧ Sparse.find (t.pkg p).switching i = none
      ∧ (∀ j < 8, j ≠ i → (t.pkg p).planeOf j = (s.pkg p).planeOf j) ∧ bits ((t.pkg p).reg 0x0508) (32 + i) (32 + i) = 0
      ∧ bits ((t.pkg p).reg 0x0508) 23 0 = min (bits ((s.pkg p).reg 0x0508) 23 0 + 1) (2 ^ 24 - 1))
  ∧ (∀ s p m v, MayWrite s p m 0x1010 → ∃ t, exec (.planesvcWrite p m v) s = .next t ∧ OnlyPkg s t p
      ∧ SameRegs (s.pkg p) (t.pkg p) [0x0508, 0x1010] ∧ t.msis = s.msis
      ∧ ∀ x < 8, let q := s.pkg p
          let was := bits (q.reg 0x1010) x x = 1
          (v.getLsbD x = true → ¬ was → (∀ i < 8, q.planeOf i ≠ x ∧ q.planeTo i ≠ x) → bits ((t.pkg p).reg 0x1010) x x = 1 ∧ (t.pkg p).planeDead x = true
            ∧ ∀ i < 24, i / 3 = x → (t.pkg p).portsDown.getLsbD i = true)
          ∧ (v.getLsbD x = true → ¬ was → ¬ (∀ i < 8, q.planeOf i ≠ x ∧ q.planeTo i ≠ x) → bits ((t.pkg p).reg 0x1010) x x = 0 ∧ (t.pkg p).planeDead x = q.planeDead x)
          ∧ (v.getLsbD x = false → was → bits ((t.pkg p).reg 0x1010) x x = 0 ∧ ∀ i < 24, i / 3 = x → (t.pkg p).retrain.getLsbD i = true)
          ∧ (v.getLsbD x = true → was → bits ((t.pkg p).reg 0x1010) x x = 1))
  ∧ (∀ s p x n, x < 8 → n < 24 → n / 3 = x → (s.pkg p).retrain.getLsbD n = true → (∀ i < n, i / 3 = x → (s.pkg p).retrain.getLsbD i = false) →
      ∃ t, exec (.portRetrainComplete p x) s = .next t ∧ OnlyPkg s t p ∧ SameRegs (s.pkg p) (t.pkg p) [0x0508] ∧ t.msis = s.msis
      ∧ (t.pkg p).planeDead x = false ∧ (∀ i < 24, (t.pkg p).portsDown.getLsbD i = ((s.pkg p).portsDown.getLsbD i && decide (i ≠ n)))
      ∧ ∀ i < 24, (t.pkg p).retrain.getLsbD i = ((s.pkg p).retrain.getLsbD i && decide (i ≠ n)))

/-- R377, R386, R397, R404, R411: debug halts and resumes the scope of the group that they name; a held packet is released
by clearing the hits of its breakpoints; the slot account is copied and cleared; and a stopped core returns to service
once none of its teams aborts. -/
def Obligations.DebugCommands : Prop :=
  (∀ s p m v k c, MayWrite s p m 0x0F00 → bits v 60 59 ≠ 3 →
      (s.resident p (siteOfLoc (bits v 10 0))).find? (fun e => decide (e.2.resIdx = bits v 20 16) && decide (e.2.asid = bits v 47 32)) = some (k, c) →
      let ks := s.scopeGroups c (HScope.ofCode (bits v 60 59))
      let seqs := s.scopeSeqs c (HScope.ofCode (bits v 60 59))
      (bits v 63 61 = 1 → ∃ t, exec (.dbghaltHalt p m v) s = .next t ∧ t.units = s.units ∧ t.grids = s.grids
          ∧ (∀ j ∈ ks, (s.ctx j).retired = false → (t.ctx j).halted = true ∨ (t.ctx j).haltPend = true)
          ∧ (∀ j ∈ seqs, (t.ctx j).halted = true ∨ (t.ctx j).haltPend = true ∧ s.underMove (s.ctx j) = true) ∧ ∀ j, j ∉ ks → j ∉ seqs → t.ctx j = s.ctx j)
      ∧ (bits v 63 61 = 2 → ∃ t, exec (.dbghaltResume p m v) s = .next t
          ∧ ∀ j, j ∈ ks ∨ j ∈ seqs → (t.ctx j).halted = false))
  ∧ (∀ s p m b v, b < 4 → v.getLsbD 59 = true → MayWrite s p m (0x0F88 + 16 * b) → ∃ t, exec (.cpbrkcRelease p m b v) s = .next t
      ∧ OnlyPkg s t p ∧ SameRegs (s.pkg p) (t.pkg p) [0x0F88 + 16 * b] ∧ bits ((t.pkg p).reg (0x0F88 + 16 * b)) 59 59 = 0
      ∧ ∀ q x, Sparse.find (s.pkg p).held q = some x → Sparse.find (t.pkg p).held q = some { x with mask := x.mask &&& ~~~(1#4 <<< b) })
  ∧ (∀ s p m v, MayWrite s p m 0x0E08 → (v.getLsbD 62 = true → ∃ t, exec (.sacctlSnap p m v) s = .next t ∧ OnlyPkg s t p ∧ (t.pkg p).snap = (s.pkg p).account
        ∧ (t.pkg p).account = if v.getLsbD 61 then [] else (s.pkg p).account)
      ∧ (v.getLsbD 61 = true → ∃ t, exec (.sacctlClr p m v) s = .next t ∧ OnlyPkg s t p ∧ (t.pkg p).account = []
        ∧ (t.pkg p).snap = if v.getLsbD 62 then (s.pkg p).account else (s.pkg p).snap))
  ∧ (∀ s p m die wd v, die < 8 → wd < 4 → (∀ n ∈ (s.pkg p).coreReturn, n < 2048) → MayWrite s p m (0x0D00 + 32 * die + 8 * wd) → ∃ t, exec (.corestopWrite p m die wd v) s = .next t ∧ OnlyPkg s t p
      ∧ (∀ b < 64, v.getLsbD b = true → s.coreAborting p (die * 256 + wd * 64 + b) = false → (t.pkg p).coreStopped (die * 256 + wd * 64 + b) = false)
      ∧ (∀ n < 2048, s.coreAborting p n = true → (t.pkg p).coreStopped n = (s.pkg p).coreStopped n)
      ∧ ∀ b < 64, v.getLsbD b = false → die * 256 + wd * 64 + b ∉ (s.pkg p).coreReturn →
          (t.pkg p).coreStopped (die * 256 + wd * 64 + b) = (s.pkg p).coreStopped (die * 256 + wd * 64 + b))

/-- R17, R18, R363, R420 to R422, R430: a package reset stops everything of the package and runs its boot stages:
one that passes them all leaves stage 6 with no owner and every die up, and one whose first image is bad
leaves stage 0 with its error; the governor's readings and the heartbeats. That memory stays, the ranges of
the governor's readings, and the order of errors within a boot stage are the model's readings (log entries 20,
26 and 28). -/
def Obligations.PackageResets : Prop :=
  (∀ s p i, p < 1024 → ∃ t, exec (.packageReset p i) s = .next t ∧ t.hbm = s.hbm ∧ t.host = s.host ∧ (∀ q, q ≠ p → t.pkg q = s.pkg q)
      ∧ (∀ e ∈ t.units, e ∈ s.units ∧ e.2.pkg ≠ p ∧ (s.grid e.2.grid).pkg ≠ p) ∧ (∀ e ∈ t.ctxs, e ∈ s.ctxs ∧ e.2.pkg ≠ p)
      ∧ (∀ e ∈ t.grids, e ∈ s.grids ∧ e.2.pkg ≠ p) ∧ (t.pkg p).boot = some i ∧ (t.pkg p).count = 0
      ∧ (let chk := fun n img => fwCheck img n i.keyDigest i.minVersion
         let mast := if (s.pkg p).stagedFw = [] then bootImage i 1 else (s.pkg p).stagedFw
         (chk 0 (bootImage i 0) = .mismatch → bits ((t.pkg p).reg 0x0018) 15 0 = 0x100)
         ∧ (chk 0 (bootImage i 0) = .old → bits ((t.pkg p).reg 0x0018) 15 0 = 0x200)
         ∧ (chk 0 (bootImage i 0) = .good → chk 1 mast = .good → i.hbmFail = [] → i.dcCarve < 3 → chk 2 (bootImage i 2) = .good →
            i.dieFail = [] → chk 3 (bootImage i 3) = .good → chk 4 (bootImage i 4) = .good →
            bits ((t.pkg p).reg 0x0018) 15 0 = 6 ∧ (t.pkg p).noOwner = true ∧ (∀ d < 8, (t.pkg p).dieUp d = true)
            ∧ (t.pkg p).meas 0 = sha512 (List.replicate 64 0 ++ sha512 (bootImage i 0))
            ∧ (t.pkg p).meas 4 = sha512 (List.replicate 64 0 ++ sha512 (bootImage i 4)))))
  ∧ (∀ s p mat vec freq draw limit, mat ≤ 512 → vec ≤ 4096 → 1 ≤ freq → freq ≤ 0x78 → draw ≤ 2600 →
      (limit = true ∨ draw ≤ bits ((s.pkg p).reg 0x0020) 11 0) →
      (limit = true ↔ mat < 512 ∨ vec < 4096 ∨ freq < 0x78) → freq = 0x78 ∨ mat ≤ 1 ∧ vec ≤ 64 →
      ∃ t, exec (.governorAdjust p mat vec freq draw limit) s = .next t ∧ OnlyPkg s t p ∧ SameRegs (s.pkg p) (t.pkg p) [0x0028]
        ∧ (let r := (t.pkg p).reg 0x0028
           bits r 63 63 = (if limit then 1 else 0) ∧ bits r 47 40 = freq ∧ bits r 39 30 = mat ∧ bits r 29 16 = vec ∧ bits r 11 0 = draw))
  ∧ (∀ s p, (s.pkg p).heartbeatAt + 1000000 ≤ (s.pkg p).count → bits ((s.pkg p).reg 0x0018) 15 8 = 0 → ∃ t, exec (.packageHeartbeat p) s = .next t ∧ OnlyPkg s t p
      ∧ SameRegs (s.pkg p) (t.pkg p) [] ∧ (t.pkg p).heartbeats = (s.pkg p).heartbeats + 1
      ∧ (t.pkg p).heartbeatAt = (s.pkg p).heartbeatAt + 1000000)

/-- A launch packet of queue q of package p, with its record, has started a grid: its root units wait. -/
def LaunchedBy (s t : State) (p q : Nat) (bs rec : List Byte) (halt : Bool) : Prop :=
  SameBytes s t ∧ (t.pkg p).reg (0x2010 + 32 * q) = putBits ((s.pkg p).reg (0x2010 + 32 * q)) 63 32 (bits ((s.pkg p).reg (0x2010 + 32 * q)) 63 32 + 1)
    ∧ Sparse.find (t.pkg p).held q = none ∧ ∃ gr g, Sparse.find s.grids gr = none ∧ Sparse.find t.grids gr = some g
    ∧ g.failed = false ∧ g.pkg = p ∧ g.queue = q ∧ g.tag = (word64 bs 0).setWidth 32
    ∧ g.rootLvl = bits (word64 rec 0) 47 45 ∧ g.rootCnt = bits (word64 rec 0) 15 0 + 1 ∧ g.asid = bits (word64 rec 0) 31 16
    ∧ g.entry = word64 rec 1 ∧ g.fmtslots = word64 rec 5 ∧ g.argp = word64 rec 7 ∧ g.vregs = 8 * bits (word64 rec 3) 7 0
    ∧ g.stash = 64 * 2 ^ bits (word64 rec 3) 26 24 ∧ g.startHalted = halt ∧ g.rootsDone = 0
    ∧ ∀ i < g.rootCnt, ∃ u x, Sparse.find s.units u = none ∧ Sparse.find t.units u = some x ∧ x.grid = gr ∧ x.level = g.rootLvl
        ∧ x.index = i ∧ x.parent = 0 ∧ x.pkg = p ∧ x.st = .waiting
/-- R33, R44, R282 to R284, R287, R404: a head packet that is read and is in error stops its queue with the code, one
that can dispatch and is next does so; a launch whose record passes creates a grid and its waiting root units,
and one whose record fails leaves a grid that has failed with 0x0104; one that a breakpoint matches is held, and starts as it
was read once its breakpoints let it go. That nothing of a held packet is read again is the model's reading (log entry 29). -/
def Obligations.QueuesDispatch : Prop :=
  (∀ s p q h, (s.pkg p).queueOpen q = true → q < 64 → Sparse.find (s.pkg p).held q = some h → Sparse.find (s.pkg p).qcause q = none →
    s.nextQueue p = some q → ∃ t, exec (.launchPacketDispatch p q) s = .next t ∧ LaunchedBy s t p q h.packet h.record h.halt)
  ∧ ∀ s p q bs l b, (s.pkg p).queueOpen q = true → q < 64 → s.NoSlots → Sparse.find (s.pkg p).held q = none →
    s.xlate (s.queueParty p q) ((s.pkg p).headAddr q) .read = .ok l b → bs = s.rdBytes l 64 →
    let w := word64 bs
    let next := fun (t : State) => (t.pkg p).reg (0x2010 + 32 * q) = putBits ((s.pkg p).reg (0x2010 + 32 * q)) 63 32 (bits ((s.pkg p).reg (0x2010 + 32 * q)) 63 32 + 1)
    let quiet := fun (t : State) => OnlyPkg s t p ∧ t.msis = s.msis
    (packetError bs ≠ 0 → ∀ i ∈ [Instr.launchPacketDispatch p q, .signalPacketDispatch p q, .waitPacketDispatch p q],
      ∃ t, exec i s = .next t ∧ OnlyPkg s t p ∧ s.Told t p 0x0760 ∧ bits ((t.pkg p).reg (0x2008 + 32 * q)) 39 31 = packetError bs * 2 + 1
        ∧ SameRegs (s.pkg p) (t.pkg p) [0x2008 + 32 * q])
    ∧ (packetError bs = 0 → s.nextQueue p = some q →
      (bits (w 0) 63 56 = 2 → ∃ t, exec (.signalPacketDispatch p q) s = .next t ∧ quiet t ∧ next t
        ∧ (let e := 0x4000 + 8 * bits (w 0) 43 32
           bits ((t.pkg p).reg e) 19 0 = (bits ((s.pkg p).reg e) 19 0 + bits (w 0) 19 0) % 2 ^ 20 ∧ SameRegs (s.pkg p) (t.pkg p) [e, 0x2010 + 32 * q]))
      ∧ (bits (w 0) 63 56 = 3 → ∃ t, exec (.waitPacketDispatch p q) s = .next t ∧ quiet t ∧ next t ∧ SameRegs (s.pkg p) (t.pkg p) [0x2010 + 32 * q])
      ∧ (bits (w 0) 63 56 = 1 → Sparse.find (s.pkg p).qcause q = none → ∀ l1 b1 s1,
          s1 = (s.translate (s.queueParty p q) ((s.pkg p).headAddr q) .read).1 →
          s1.xlate (s.queueParty p q) (bits (w 1) 56 0) .read = .ok l1 b1 → ∀ rec, rec = s.rdBytes l1 64 →
          (s.recordFails p rec = true → ∃ t gr g, exec (.launchPacketDispatch p q) s = .next t ∧ next t ∧ SameBytes s t ∧ t.ctxs = s.ctxs ∧ t.units = s.units
            ∧ Sparse.find s.grids gr = none ∧ Sparse.find t.grids gr = some g ∧ g.failed = true ∧ g.status = 0x0104 ∧ g.pkg = p ∧ g.queue = q
            ∧ g.tag = (w 0).setWidth 32 ∧ g.record = bits (w 2) 56 0)
          ∧ (s.recordFails p rec = false → (s.pkg p).cpMatch q (word64 rec 1) = (0, false) →
            ∃ t, exec (.launchPacketDispatch p q) s = .next t ∧ LaunchedBy s t p q bs rec false)
          ∧ (∀ m halt, s.recordFails p rec = false → (s.pkg p).cpMatch q (word64 rec 1) = (m, halt) → m ≠ 0 →
            ∃ t, exec (.launchPacketDispatch p q) s = .next t ∧ SameBytes s t ∧ t.units = s.units ∧ t.grids = s.grids ∧ s.Told t p 0x0760
            ∧ Sparse.find (t.pkg p).held q = some { mask := m, halt := halt, packet := bs, record := rec }
            ∧ ∀ c < 4, m.getLsbD c = true → bits ((t.pkg p).reg (0x0F88 + 16 * c)) 59 59 = 1)))

/-! ### Scheduling (chapters 13, 19 and 20) -/

/-- R94, R297, R299, R300, R301, R308: a stalled group, its hints reverted, gives its position to the oldest ready pending group; a pending
group that has been ready for 2,048 cycles takes that of the group that entered earliest; an instruction that
no queue takes for 16 cycles is withdrawn; and a sleeping lane wakes. Which group takes a free position, and
when, is the model's reading (log entry 32). -/
def Obligations.SwapsAndWakes : Prop :=
  let swap := fun (s t : State) (k new n : Nat) => SameBytes s t ∧ t.units = s.units ∧ t.grids = s.grids ∧ t.pkgs = s.pkgs
    ∧ (∀ j, j ≠ k → j ≠ new → t.ctx j = s.ctx j) ∧ t.ctx k = { (s.ctx k).revertHints.unheld with pos := none, staged := [] }
    ∧ t.ctx new = { s.ctx new with pos := some n, staged := [], entered := s.cycle, notBefore := s.cycle + 8 }
  (∀ s k c n new, Sparse.find s.ctxs k = some c → c.kind = .group → c.pos = some n → oldestOf (s.readyPending c.pkg c.site) = some new →
      Sparse.find s.ctxs new.1 = some new.2 → new.1 ≠ k → s.exchangeable c = true → s.ready c = false → s.stalled c = true → s.swapped c (n / 4) = false →
      ∃ t, exec (.groupSwap k) s = .next t ∧ swap s t k new.1 n)
  ∧ (∀ s k c e n a, Sparse.find s.ctxs k = some c → s.pendingReady c = true → c.readySince = some a → a + 2048 ≤ s.cycle →
      s.earliest c.pkg c.site = some e → Sparse.find s.ctxs e.1 = some e.2 → e.2.pos = some n → e.1 ≠ k → s.swapped c (n / 4) = false →
      ∃ t, exec (.pendingForcedPromotion k) s = .next t ∧ swap s t e.1 k n)
  ∧ (∀ s k c h a, Sparse.find s.ctxs k = some c → c.hold = some (h, a) → h ≠ .replayQueue → c.withdrawn = false → a + 16 ≤ s.cycle →
      ∃ t, exec (.issueWithdraw k) s = .next t ∧ t.ctx k = { c with withdrawn := true, missAt := none } ∧ (∀ j, j ≠ k → t.ctx j = s.ctx j) ∧ SameBytes s t
        ∧ t.units = s.units ∧ t.grids = s.grids ∧ t.pkgs = s.pkgs)
  ∧ (∀ s k c l a, Sparse.find s.ctxs k = some c → (c.lane l).wait = .sleep a → a ≤ s.now c → s.clockRuns c.pkg c.site = true →
      ∃ t, exec (.sleepWake k l) s = .next t ∧ (∀ m, (t.ctx k).lane m = if m = l then (c.lane l).onward else c.lane m)
        ∧ t.ctx k = { c with lanes := (t.ctx k).lanes } ∧ (∀ j, j ≠ k → t.ctx j = s.ctx j) ∧ SameBytes s t
        ∧ t.units = s.units ∧ t.grids = s.grids ∧ t.pkgs = s.pkgs)

/-- R310, R370, R371, R400 to R402, R407: a wait that has lasted as long as the grid's watchdog traps with its lanes
still waiting; a cohort that hits breakpoints traps with the lowest that hit, or its group halts where traps are off; and
a sample takes the next group and lane in turn. What a group's watchdog counts, and that every word of a hint sequence
matches a breakpoint, are the model's readings (log entries 34 and 35). -/
def Obligations.WatchdogBreakpointsSamples : Prop :=
  (∀ s k c pc n, Sparse.find s.ctxs k = some c → c.watch = some (pc, n) → (s.gridOf c).hangwd ≠ 0 → (s.gridOf c).hangwd ≤ n →
      c.watchedAt pc ≠ [] → c.trapped = false → c.halted = false →
      (c.kind = .group → bits ((s.pkg c.pkg).reg 0x0C08) 16 16 = 1 → bits ((s.pkg c.pkg).reg 0x0FD8) 63 63 = 0 →
        ∃ t c', exec (.hangWatchdogExpiry k) s = .next t ∧ t.ctx k = c' ∧ SameBytes s t ∧ t.units = s.units ∧ (∀ j, j ≠ k → t.ctx j = s.ctx j)
          ∧ c'.trapped = true ∧ c'.watch = none ∧ c'.frame.cause = 0x13 ∧ c'.frame.fpc = pc ∧ c'.frame.rpc = pc
          ∧ c'.frame.lanes = maskOf (c.watchedAt pc) ∧ (∀ l < 32, c'.lane l = (c.lane l).stopped)
          ∧ (t.pkg c.pkg).hq = (s.pkg c.pkg).hq ++ [(c.site.loc, k)])
      ∧ (c.kind = .seq → Sparse.find s.units c.unit ≠ none → (s.unit c.unit).st = .running →
        ∃ t, exec (.hangWatchdogExpiry k) s = .next t ∧ (t.unit c.unit).st = .aborting 0x13 ∧ SameBytes s t))
  ∧ (∀ s k i b bs ls, s.grantable k = true → s.nextIssue k = some i → s.bpHits (s.ctx k) (lanesOf i.lanes) = (b :: bs, ls) →
      (s.ctx k).kind = .group → (s.ctx k).trapped = false → (s.ctx k).halted = false → (s.ctx k).retired = false →
      (∀ q, bits ((s.pkg q).reg 0x0FD8) 63 63 = 0) →
      ∃ t, exec (.breakpointHit k) s = .next t ∧ SameBytes s t
        ∧ (∀ n ∈ b :: bs, bits ((t.pkg (s.ctx k).pkg).reg (0x0F18 + 16 * n)) 60 60 = 1)
        ∧ (bits ((s.pkg (s.ctx k).pkg).reg 0x0C08) 16 16 = 1 → (t.ctx k).trapped = true ∧ (t.ctx k).frame.cause = 0x17
            ∧ (t.ctx k).frame.lanes = maskOf ls ∧ (t.ctx k).frame.info = BitVec.ofNat 64 b)
        ∧ (bits ((s.pkg (s.ctx k).pkg).reg 0x0C08) 16 16 = 0 → (t.ctx k).halted = true ∧ (t.ctx k).trapped = false))
  ∧ (∀ s p core, s.OneEach → s.sampleDue p core = true → ∃ t, exec (.traceSample p core) s = .next t ∧ t.ctxs = s.ctxs ∧ t.units = s.units ∧ t.grids = s.grids
      ∧ (∀ q, q ≠ p → t.pkg q = s.pkg q)
      ∧ (∃ e ∈ s.sampleLanes p (siteOfLoc core), Sparse.get 0 (t.pkg p).samplePtr core = (e.1 + 1) % 1024
          ∧ ((∀ f ∈ s.sampleLanes p (siteOfLoc core), f.1 < Sparse.get 0 (s.pkg p).samplePtr core) ∨ Sparse.get 0 (s.pkg p).samplePtr core ≤ e.1)))

/-- R149, R335, R375, R376, R377: a fetch that faults traps, one that parks waits on its record, and one of the
handler stops its core; the handler of a core starts for the first group of its queue whose team runs, with
every register zero but g0. That it starts in a later cycle than the trap is the model's reading (log entry 61). -/
def Obligations.FetchFaultsAndHandlers : Prop :=
  (∀ s k c l, Sparse.find s.ctxs k = some c → s.runs c = true → l ∈ c.freeLanes → l < 32 →
      (c.kind = .group → s.fetchAt c (c.lane l).pc = .fetchFault → bits ((s.pkg c.pkg).reg 0x0C08) 16 16 = 1 →
        bits ((s.pkg c.pkg).reg 0x0FD8) 63 63 = 0 → ∃ t, exec (.fetchFault k l) s = .next t ∧ (t.ctx k).trapped = true ∧ (t.ctx k).frame.cause = 6
          ∧ (t.ctx k).frame.info = (c.lane l).pc ∧ (t.ctx k).frame.fpc = (c.lane l).pc ∧ SameBytes s t
          ∧ (t.ctx k).frame.lanes = maskOf (c.freeLanes.filter (fun m => decide ((c.lane m).pc = (c.lane l).pc))))
      ∧ (c.kind = .group → s.fetchAt c (c.lane l).pc = .access → bits ((s.pkg c.pkg).reg 0x0C08) 16 16 = 1 →
        bits ((s.pkg c.pkg).reg 0x0FD8) 63 63 = 0 → ∃ t, exec (.fetchFault k l) s = .next t ∧ (t.ctx k).trapped = true ∧ (t.ctx k).frame.cause = 8)
      ∧ (c.kind ≠ .handler → ∀ kind pte, s.fetchAt c (c.lane l).pc = .park kind pte → ∃ t id, exec (.fetchFault k l) s = .next t
          ∧ (t.ctx k).lane l = { c.lane l with wait := .fetch id } ∧ (∀ m, m ≠ l → (t.ctx k).lane m = c.lane m) ∧ (∀ j, j ≠ k → t.ctx j = s.ctx j)
          ∧ (bits ((s.pkg c.pkg).reg 0x0608) 63 63 = 0 → ∃ r ∈ (t.pkg c.pkg).frecs, r.id = id ∧ r.asid = c.asid
              ∧ r.va / 4096 = (c.lane l).pc.toNat / 4096 ∧ r.kind = kind))
      ∧ (c.kind = .handler → (∀ a b, s.fetchAt c (c.lane l).pc ≠ .ok a b) → c.site.loc < 2048 → ∃ t, exec (.fetchFault k l) s = .next t
          ∧ (t.pkg c.pkg).coreStopped c.site.loc = true ∧ (∀ e ∈ (t.pkg c.pkg).hq, e.1 ≠ c.site.loc) ∧ SameBytes s t
          ∧ ∀ e ∈ s.resident c.pkg c.site, (s.unit e.2.unit).st = .running → ∃ n ∈ [0x0103, 0x0105], (t.unit e.2.unit).st = .aborting n))
  ∧ (∀ s p core k, s.nextServed p core = some k → (s.pkg p).coreStopped core = false → s.clockRuns p (siteOfLoc core) = true →
      (∀ e, s.handlerSlot p (siteOfLoc core) = some e → e.2.placed = false ∧ e.2.rq = [] ∧ e.1 ≠ k) →
      ∃ t h x, exec (.handlerEntry p core) s = .next t ∧ SameBytes s t ∧ t.units = s.units ∧ t.grids = s.grids ∧ t.pkgs = s.pkgs
        ∧ Sparse.find t.ctxs h = some x ∧ h ≠ k ∧ (∀ j, j ≠ k → j ≠ h → t.ctx j = s.ctx j)
        ∧ x.kind = .handler ∧ x.pkg = p ∧ x.site = siteOfLoc core ∧ x.placed = true ∧ x.served = k ∧ x.winIdx = (s.ctx k).resIdx ∧ x.winRegion = 0
        ∧ x.asid = bits ((s.pkg p).reg 0x0C08) 15 0 ∧ x.hfs = 0 ∧ x.hfa = 0 ∧ x.fpflags = 0 ∧ x.v = [] ∧ x.e = []
        ∧ (∀ n, x.rdG n = if n = 0 then BitVec.ofNat 32 (s.ctx k).resIdx else 0)
        ∧ (∀ l < 32, x.lane l = { pc := BitVec.ofNat 64 (bits ((s.pkg p).reg 0x0C00) 56 2 * 4) })
        ∧ (Sparse.find s.ctxs k ≠ none → t.ctx k = { s.ctx k with inHdl := true }))

/-! ### Placement and completion (chapter 12) -/

/-- R36, R41, R45 to R47, R51 to R54, R256, R257, R286, R288, R289, R297: a waiting unit whose turn it is and
whose site is free is placed, with its sequencer at the entry; a waiting group takes the lowest free resident
index and position; a complete unit is counted by its parent or its grid; and a grid whose roots are complete
writes its record, raises its event and ends. A grid's STATUS and the order of placement within a step are the
model's readings (log entries 31 and 32). -/
def Obligations.PlacementAndEnds : Prop :=
  (∀ s u x pl, Sparse.find s.units u = some x → s.placeable u = some pl → (∀ q, x.parentOf = some q → s.owed q x.index = false) →
      ∃ t y, exec (.unitPlacement (.unit u)) s = .next t ∧ Sparse.find t.units u = some y ∧ SameBytes s t ∧ t.grids = s.grids
        ∧ y = { x with st := .running, site := pl.1, split := pl.2.1, site2 := pl.2.2, placedAt := s.cycle, seq := y.seq } ∧ (∀ v, v ≠ u → t.unit v = s.unit v)
        ∧ (let g := s.grid x.grid
           (x.level = 1 → g.seqL1 = false → t.ctxs = s.ctxs ∧ y.seq = x.seq)
           ∧ (2 ≤ x.level ∨ g.seqL1 = true → ∃ k c, y.seq = k + 1 ∧ Sparse.find s.ctxs k = none ∧ Sparse.find t.ctxs k = some c
              ∧ (∀ j, j ≠ k → t.ctx j = s.ctx j) ∧ c.kind = .seq ∧ c.unit = u ∧ c.grid = x.grid ∧ c.pkg = x.pkg ∧ c.site = pl.1 ∧ c.asid = g.asid
              ∧ c.wid = x.wid ∧ c.placed = true ∧ c.halted = g.startHalted ∧ c.Zeroed ∧ c.lane 0 = { pc := g.entry } ∧ c.evq = [] ∧ c.evResv = 0)))
  ∧ (∀ s k c, Sparse.find s.ctxs k = some c → s.groupPlaceable k = true → ((s.gridOf c).seqL1 = true → s.owed c.unit c.index = false) →
      let site := (s.unit c.unit).site
      let here := s.resident c.pkg site
      ∃ t c', exec (.unitPlacement (.group k)) s = .next t ∧ t.ctx k = c' ∧ SameBytes s t ∧ t.units = s.units ∧ t.grids = s.grids
        ∧ (∀ j, j ≠ k → t.ctx j = s.ctx j)
        ∧ c' = { c with placed := true, site := site, age := s.cycle, entered := s.cycle, resIdx := c'.resIdx, pos := c'.pos,
                         rq := c.rq.map (fun e => e.postedAt s.cycle) }
        ∧ c'.resIdx < 32 ∧ (∀ e ∈ here, e.2.resIdx ≠ c'.resIdx) ∧ (∀ n < c'.resIdx, ∃ e ∈ here, e.2.resIdx = n)
        ∧ (∀ n, c'.pos = some n → n < 8 ∧ (∀ e ∈ here, e.2.pos ≠ some n) ∧ ∀ m < n, ∃ e ∈ here, e.2.pos = some m)
        ∧ (c'.pos = none → ∀ m < 8, ∃ e ∈ here, e.2.pos = some m))
  ∧ (∀ s u x, Sparse.find s.units u = some x → s.unitDone u = true → s.mayEnd u = true → s.NoSlots →
      (x.parent = 0 → ∃ t, exec (.unitComplete u) s = .next t ∧ t.hbm = s.hbm ∧ t.host = s.host ∧ Sparse.find t.units u = none
        ∧ (t.grid x.grid) = if Sparse.find s.grids x.grid = none then s.grid x.grid else { s.grid x.grid with rootsDone := (s.grid x.grid).rootsDone + 1 })
      ∧ (∀ q y l, x.parent = q + 1 → q ≠ u → Sparse.find s.units q = some y → y.launch = some l → (∀ v ∈ s.childUnits u, v ≠ q ∧ v ≠ u ∧ q ∉ s.unitsUnder 6 v ∧ u ∉ s.unitsUnder 6 v) →
        ∃ t l', exec (.unitComplete u) s = .next t ∧ t.hbm = s.hbm ∧ t.host = s.host ∧ t.grids = s.grids ∧ (t.unit u).st = .kept ∧ (t.unit u).store = x.store
          ∧ (t.unit q).launch = some l' ∧ l'.doneCount = l.doneCount + 1 ∧ l'.aborted = l.aborted ∧ l'.posted = decide (l.n ≤ l.doneCount + 1 + l.aborted)
          ∧ ∀ k c, y.seq = k + 1 → Sparse.find s.ctxs k = some c → c.unit = q → c.exiting = false →
              (l'.posted = false → (t.ctx k).evq = c.evq)
              ∧ (l'.posted = true → (t.ctx k).evq = c.evq ++ [{ kind := 1, level := y.level, status := l.status, tag := l.tag, doneCount := l.doneCount + 1, aborted := l.aborted }])))
  ∧ (∀ s gr g, Sparse.find s.grids gr = some g → g.parked = 0 → g.failed = true ∨ g.rootCnt ≤ g.rootsDone → s.NoSlots →
      let ended := fun (t : State) => t.ctxs = s.ctxs ∧ t.units = s.units ∧ Sparse.find t.grids gr = none ∧ (∀ n, n ≠ gr → t.grid n = s.grid n)
        ∧ (∀ e, g.cev = some e → bits ((t.pkg g.pkg).reg (0x4000 + 8 * e)) 19 0 = (bits ((s.pkg g.pkg).reg (0x4000 + 8 * e)) 19 0 + 1) % 2 ^ 20)
      (g.record = 0 → ∃ t, exec (.gridEnd gr) s = .next t ∧ ended t ∧ SameBytes s t)
      ∧ (g.record ≠ 0 → ∀ l b, s.xlate (cmdParty g.pkg g.qasid) g.record .write = .ok l b → s.Place l → ∃ t, exec (.gridEnd gr) s = .next t ∧ ended t
          ∧ Stored s t l (bytesOfNat 4 g.tag.toNat ++ bytesOfNat 4 (g.status % 65536) ++ bytesOfNat 8 (s.pkg g.pkg).count)))

/-! ### Pre-emption, migration and aborts (chapters 13 and 19) -/

/-- R49, R305 to R307, R391: a request gives each team of a core its deadline; a team that has not yielded by then
is forced; when all have, they leave the core together for 48 cycles, spill, and take a core again when one
fits; and a half of a split cluster arrives at its unit's barrier. Which core a waiting team asks for, and
that a spilled team comes back from what the model kept, are the model's (log entries 41 and 19). -/
def Obligations.PreemptionEvents : Prop :=
  (∀ s p core, core < 2048 → (s.units.any (fun e => s.wantsCore p e.1 && decide (s.preemptCore e.1 = some (siteOfLoc core)))) = true →
      0 < (s.pkg p).poolCount → (s.teamsOn p (siteOfLoc core)).length ≤ (s.pkg p).poolFree →
      let now := s.dieCount p (siteOfLoc core)
      ∃ t, exec (.preemptionRequest p core) s = .next t ∧ SameBytes s t ∧ t.ctxs = s.ctxs ∧ t.grids = s.grids
        ∧ Sparse.find (t.pkg p).preq (siteOfLoc core).loc = some now
        ∧ ∀ u x, Sparse.find s.units u = some x → (u, x) ∈ s.teamsOn p (siteOfLoc core) →
            t.unit u = { x with yielded := false, forced := false, deadline := some (now + (s.grid x.grid).yielddl) })
  ∧ (∀ s u x a, Sparse.find s.units u = some x → x.deadline = some a → x.level = 1 → x.st = .running → x.yielded = false → x.forced = false →
      a < s.dieCount x.pkg x.site → s.clockRuns x.pkg x.site = true → ∃ t, exec (.forcedYield u) s = .next t ∧ t.unit u = { x with forced := true }
        ∧ (∀ v, v ≠ u → t.unit v = s.unit v) ∧ t.ctxs = s.ctxs ∧ t.pkgs = s.pkgs ∧ t.grids = s.grids ∧ SameBytes s t)
  ∧ (∀ s p core, s.maySwap p core = true → ∃ t, exec (.shadowBankSwap p core) s = .next t ∧ SameBytes s t ∧ t.grids = s.grids
      ∧ Sparse.find (t.pkg p).preq core = none ∧ Sparse.find (t.pkg p).swapEnd core = some (s.cycle + 48)
      ∧ (∀ e ∈ s.teamsOn p (siteOfLoc core), (t.unit e.1).st = .swapped false)
      ∧ (∀ u, (∀ e ∈ s.teamsOn p (siteOfLoc core), e.1 ≠ u) → t.unit u = s.unit u)
      ∧ ∀ k c, Sparse.find s.ctxs k = some c → (k, c) ∈ s.ctxs → c.kind = .group → (∃ e ∈ s.teamsOn p (siteOfLoc core), e.1 = c.unit) →
          (t.ctx k).pos = none ∧ (t.ctx k).v = c.v ∧ (t.ctx k).rq = c.rq)
  ∧ (∀ s p core l, l = s.units.filter (fun e => decide (e.2.pkg = p) && decide (e.2.level = 1) && decide (e.2.st = .swapped false)
        && decide (e.2.site = siteOfLoc core)) → l ≠ [] → (∀ e ∈ l, s.unitQuiet e.1 true = true) →
      ∃ t, exec (.spillComplete p core) s = .next t ∧ t.ctxs = s.ctxs ∧ t.grids = s.grids ∧ (∀ e ∈ l, (t.unit e.1).st = .swapped true)
        ∧ ∀ u, (∀ e ∈ l, e.1 ≠ u) → t.unit u = s.unit u)
  ∧ (∀ s u x pl, Sparse.find s.units u = some x → x.st = .swapped true → s.firstInLine u = true → s.siteFor u = some pl → s.slotsFor u pl.1 = true →
      s.OneEach → (∀ e ∈ s.ownCtxs u, e.2.rq = []) → (∀ k, x.seq = k + 1 → (s.ctx k).rq = []) → ∃ t, exec (.teamRestore u) s = .next t ∧ SameBytes s t
        ∧ (t.unit u).st = .running ∧ (t.unit u).site = pl.1 ∧ (t.unit u).areas = [] ∧ (∀ a ∈ x.areas, a ∉ (t.pkg x.pkg).poolUsed)
        ∧ ∀ v, v ≠ u → t.unit v = s.unit v)
  ∧ (∀ s u x h, Sparse.find s.units u = some x → h < 2 → x.split = true → x.halves.getLsbD h = false → anyArrived (s.halfGroups u h) 2 = true →
      s.allArrived (s.halfGroups u h) 2 = true → ∃ t, exec (.barBridgeArrival u h) s = .next t ∧ SameBytes s t ∧ t.grids = s.grids ∧ t.pkgs = s.pkgs
        ∧ (t.unit u).halves = x.halves ||| (1#2 <<< h) ∧ (∀ v, v ≠ u → t.unit v = s.unit v)
        ∧ ∀ e ∈ s.halfGroups u h, Sparse.find s.ctxs e.1 = some e.2 → e.2.arrivals 2 ≠ 0 → t.ctx e.1 = { e.2 with phase2 := true })

/-- R242, R370, R390, R392 to R394: a unit that moves saves its contexts and leaves its place when it waits for
nothing more, where the pool can never hold it aborts, or stays in its place if a drain would move it (R424), and takes a new place; a unit that aborts, once what is
below it has gone, leaves a record and ends with its cause. The VA of a record where nothing trapped, the
place of a unit that has left its own, and aborts of waiting units are the model's readings (log entries 30,
36 and 39). -/
def Obligations.MovesAndAborts : Prop :=
  (∀ s u x, Sparse.find s.units u = some x → x.st = .moving false →
      ((s.pkg x.pkg).poolCount < s.areasFor u → x.drained = false → ∃ t, exec (.migrateMove u) s = .next t ∧ (t.unit u).st = .aborting 4 ∧ SameBytes s t)
      ∧ ((s.pkg x.pkg).poolCount < s.areasFor u → x.drained = true → (∀ e ∈ s.ctxs, e.2.rq = []) →
        ∃ t, exec (.migrateMove u) s = .next t ∧ t.unit u = { x with st := .running, anyDie := false, drained := false } ∧ SameBytes s t)
      ∧ (s.areasFor u ≤ (s.pkg x.pkg).poolFree → s.areasFor u ≤ (s.pkg x.pkg).poolCount → s.moveReady u = true → s.NoSlots →
        ∃ t, exec (.migrateMove u) s = .next t ∧ (t.unit u).st = .moving true ∧ (t.unit u).site.mast = true ∧ (t.unit u).store = x.store
          ∧ ∀ v ∈ s.movedTeams u, Sparse.find s.units v ≠ none → (t.unit v).st = .moving true))
  ∧ (∀ s u x pl, Sparse.find s.units u = some x → x.st = .moving true → s.carried x = false → s.firstInLine u = true → s.siteFor u = some pl →
      x.level ≠ 1 ∨ s.slotsFor u pl.1 = true → s.OneEach → (∀ e ∈ s.ownCtxs u, e.2.rq = []) →
      (∀ k, x.seq = k + 1 → (s.ctx k).rq = []) →
      ∃ t, exec (.migrateRestore u) s = .next t ∧ SameBytes s t ∧ (t.unit u).st = .running ∧ (t.unit u).site = pl.1 ∧ (t.unit u).split = pl.2.1
        ∧ (t.unit u).areas = [] ∧ t.grids = s.grids)
  ∧ (∀ s u x n, Sparse.find s.units u = some x → x.st = .aborting n → n ≠ 0 → s.mayAbort u = true →
      ∃ t, exec (.teamAbort u) s = .next t ∧ Sparse.find t.units u = none ∧ (∀ e ∈ t.ctxs, e.2.kind = .handler ∨ e.2.unit ≠ u)
        ∧ (x.parent = 0 → Sparse.find s.grids x.grid ≠ none → (t.grid x.grid).rootsDone = (s.grid x.grid).rootsDone + 1 ∧ (t.grid x.grid).status ≠ 0)
        ∧ (bits ((s.pkg x.pkg).reg 0x0608) 63 63 = 0 → ∃ r ∈ (t.pkg x.pkg).frecs, r.kind = 8 ∧ r.asid = (s.grid x.grid).asid ∧ r.written = false))

/-! ### Application cores (chapters 02 and 14) -/

/-- R13, R20, R21, R350, R419: a load of a hart changes no byte and gives what memory holds, a store and an atomic write
the bytes of their address, a reservation lets one conditional store write, a store to the window of the service registers is
a request of master 0, and an access that faults ends with the hart's exception. That a hart's access is performed at once,
and which exception each refusal is, are the model's (log entry 37). -/
def Obligations.ApplicationCores : Prop :=
  ∀ (s : State) p hart pv asid (va : DWord), hart < 16 → asid < 65536 → bits ((s.pkg p).reg 0x0018) 15 8 = 0 → s.NoSlots →
    let a := va.toNat
    let run := fun op => exec (.applicationCoreAccess p hart asid va { priv := pv, op := op }) s
    let ends := fun (t : State) (x : DWord) => (t.hart p hart).last = .done x ∧ t.ctxs = s.ctxs ∧ t.units = s.units ∧ t.grids = s.grids
    let value := fun (bs : List Byte) => BitVec.ofNat 64 (natOfBytes bs)
    let opened := fun (k : AccKind) (o : Loc) n => s.appPlace p pv asid a k = .mem o ∧ s.Place o ∧ s.travels p mastSite [(o, n)] = true
    (∀ b c d e, run (.fence b c d e) = .next s)
    ∧ (∀ sz l, (∀ off, s.appPlace p pv asid a .read ≠ .window off) → s.appSpan p pv asid a sz.bytes .read = .ok l → s.travels p mastSite l = true →
        ∃ t, run (.load sz) = .next t ∧ SameBytes s t ∧ ends t (value (l.flatMap (fun x => s.rdBytes x.1 x.2))))
    ∧ (∀ op sz v k e, (op, k) ∈ [(AppOp.load sz, AccKind.read), (.store sz v, .write)] → (∀ off, s.appPlace p pv asid a k ≠ .window off) →
        s.appSpan p pv asid a sz.bytes k = .error e → run op = .next (s.hartEnd p hart e))
    ∧ (∀ sz v o, a % 4096 + sz.bytes ≤ 4096 → opened .write o sz.bytes → ∃ t, run (.store sz v) = .next t
        ∧ Stored s t o (bytesOfNat sz.bytes v.toNat) ∧ ends t 0)
    ∧ (∀ sz v off, s.appPlace p pv asid a .write = .window off → sz.bytes = 8 → off % 8 = 0 →
        ((s.pkg p).frozen 0 = true → run (.store sz v) = .next (s.hartEnd p hart .accessFault))
        ∧ ((s.pkg p).frozen 0 = false → (s.pkg p).takes 0 = true → run (.store sz v) = .next ((s.served p 0 off v).hartEnd p hart (.done 0))))
    ∧ (∀ sz off, s.appPlace p pv asid a .read = .window off → sz.bytes = 8 → off % 8 = 0 → (s.pkg p).frozen 0 = false → (s.pkg p).takes 0 = true →
        run (.load sz) = .next ((s.readBy p 0 off).hartEnd p hart (.done ((s.readBy p 0 off).regRead p off))))
    ∧ (∀ op wide v aq rl, let n := if wide then 8 else 4
        (a % n ≠ 0 → op ≠ .fadd → ∀ x ∈ [AppOp.amo op wide v aq rl, .lr wide aq rl, .sc wide v aq rl], run x = .next (s.hartEnd p hart .misaligned))
        ∧ (a % n = 0 → ∀ o x, opened .atomic o n → appAtomic op n (natOfBytes (s.rdBytes o n)) (v.toNat % 2 ^ (8 * n)) = some x →
          ∃ t, run (.amo op wide v aq rl) = .next t ∧ Stored s t o (bytesOfNat n x) ∧ ends t (value (s.rdBytes o n)))
        ∧ (a % n = 0 → ∀ k, opened .read (.hbm k) n → ∃ t, run (.lr wide aq rl) = .next t ∧ SameBytes s t ∧ ends t (value (s.rdBytes (.hbm k) n))
          ∧ (t.hart p hart).resv = some (k / 64))
        ∧ (a % n = 0 → ∀ k, opened .atomic (.hbm k) n → ∃ t, run (.sc wide v aq rl) = .next t ∧ (t.hart p hart).resv = none
          ∧ ((s.hart p hart).resv = some (k / 64) → Stored s t (.hbm k) (bytesOfNat n v.toNat) ∧ ends t 0)
          ∧ ((s.hart p hart).resv ≠ some (k / 64) → SameBytes s t ∧ ends t 1)))

/-! ### The whole machine -/

/-- After reset (R7, R421 and the Reset columns of R419) every register of a package is 0 but for those named; no unit runs,
no message is sent, every table is empty and nothing is in memory.  What a byte of memory reads as, and the values of fuses
and straps, are the model's choice (log entries 2 and 3). -/
def Obligations.ResetState : Prop :=
  let s := State.reset
  s.ctxs = [] ∧ s.units = [] ∧ s.grids = [] ∧ s.msis = [] ∧ s.MemOk ∧ SameBytes s s ∧ (∀ a, s.rdByte a = 0)
  ∧ ∀ p, (s.pkg p).count = 0 ∧ (s.pkg p).reg 0x0000 = 0x0A71530800000000 ∧ (s.pkg p).reg 0x0008 = 0x00C0FF0001004000
    ∧ (s.pkg p).reg 0x0020 = 0xA28 ∧ bits ((s.pkg p).reg 0x0028) 47 40 = 0x78 ∧ bits ((s.pkg p).reg 0x0028) 39 30 = 0x200
    ∧ bits ((s.pkg p).reg 0x0028) 28 16 = 0x1000 ∧ (s.pkg p).reg 0x0440 = 0x0000100000010000 ∧ (s.pkg p).reg 0x0500 = 0xFAC688
    ∧ bits ((s.pkg p).reg 0x0700) 7 7 = 1 ∧ bits ((s.pkg p).reg 0x0700) 12 12 = 1
    ∧ (∀ o, o ∉ [0x0000, 0x0008, 0x0020, 0x0028, 0x0440, 0x0500, 0x0700] → (s.pkg p).reg o = 0)
    ∧ (s.pkg p).slots = [] ∧ (s.pkg p).shadows = [] ∧ (s.pkg p).combine = [] ∧ (s.pkg p).frecs = [] ∧ (s.pkg p).tlbs = []
    ∧ (s.pkg p).walks = [] ∧ (s.pkg p).hq = [] ∧ (s.pkg p).poolUsed = [] ∧ (s.pkg p).portsDown = 0

/-- R18, R29, R149, R297, R317: what a step runs.  An issue on the agenda, or with no event to happen the next context in turn, runs
the instruction that its word decodes to, unless it is a new grant with a region miss, which only holds the slot for 2 cycles; an event on the agenda runs.  The issue begins with no byte of storage, no
unit, grid or other context changed, and ends with a cycle in which every package counts its ticks.  The order is the
model's choice (log entry 4), and so is that every issue takes one cycle of every package, in which no other context issues
(log entry 7). -/
def Obligations.StepRunsDecoded : Prop :=
  (∀ (s : State) k iss i r, s.agenda = .issue k :: r → Fetches { s with agenda := r } k iss i →
      RunsAs { s with agenda := r } k iss i (step s))
  ∧ (∀ (s : State) k iss i, s.agenda = [] → firstEvent s.dueEvents s = none → firstEvent s.ownEvents s = none → s.turn = some k →
      Fetches { s with focus := k + 1 } k iss i → RunsAs { s with focus := k + 1 } k iss i (step s))
  ∧ (∀ (s : State) i r, s.agenda = .event i :: r → isEvent i = true →
      (∀ t, exec i { s with agenda := r } = .next t → step s = .next t.settleAll)
      ∧ (∀ f, exec i { s with agenda := r } = .fault f → step s = .fault f))
  ∧ (∀ (s : State) k iss, s.NoSlots → Sparse.find s.ctxs k ≠ none →
      let t := s.begin k iss
      t.cur = iss ∧ SameBytes s t ∧ t.units = s.units ∧ t.grids = s.grids ∧ t.agenda = s.agenda ∧ t.cycle = s.cycle
        ∧ (∀ j, j ≠ k → t.ctx j = s.ctx j) ∧ t.ctx k = { s.ctx k with lanes := (t.ctx k).lanes, readySince := (t.ctx k).readySince }
        ∧ ∀ l, (t.ctx k).lane l = { (s.ctx k).lane l with passOver := ((t.ctx k).lane l).passOver })
  ∧ (∀ (s : State) k i iss c,
      let t := s.finish k i iss c
      t.cycle = s.cycle + 1 ∧ SameBytes s t ∧ t.units = s.units ∧ t.grids = s.grids ∧ t.agenda = s.agenda
        ∧ ∀ p, (t.pkg p).count = (s.pkg p).count + (s.pkg p).ticksOf.1)
  ∧ (∀ (s : State) k iss i r l b, let s' := { s with agenda := r }
      s.agenda = .issue k :: r → s'.grantable k = true → s'.nextIssue k = some iss → (s'.bpHits (s'.ctx k) (lanesOf iss.lanes)).1 = [] →
      s'.fetchAt (s'.ctx k) iss.pc = .ok l b → decodeWord (natOfBytes (s'.homeRead l 4).2) = i → s'.freshGrant (s'.ctx k) = true →
      s'.missesNow k i iss = true → step s = .next ((s'.grantMiss k iss).tick none).settleAll
        ∧ (Sparse.find s.ctxs k ≠ none → ((s'.grantMiss k iss).ctx k).missAt = some (iss, s.cycle + 2)))

/-- R84 to R89, R96: words of the opcode map, as the chapters' worked encodings give them, and the instructions that they
are; and words that are none. -/
def Obligations.WordsDecode : Prop :=
  decodeWord 0x23431CC3 = .ffma (.pred true 1) 3 7 12 ∧ decodeWord 0x80081048 = .ld .always 8 4 4 .w false
  ∧ decodeWord 0x18052345 = .movi .always 5 0x2345 ∧ decodeWord 0x50000422 = .icmp .always 1 2 .lt
  ∧ decodeWord 0x7200FFFD = .bra (.pred false 0) (-3) ∧ decodeWord 0x40142114 = .qntv .always 20 8 2 1
  ∧ decodeWord 0xB0222402 = .mma .always true false 2 1 1 0 ∧ decodeWord 0xB8080C36 = .smul .always 8 3 3 false
  ∧ decodeWord 0xCC10C08B = .reduce .always 2 6 1 .fadd true true ∧ decodeWord 0xD01424A1 = .cmbput .always 20 9 10
  ∧ decodeWord 0x840A1A8D = .stRel .always 10 6 5 .p ∧ decodeWord 0xC82A0109 = .mcopyUp .always 5 16 2 true
  ∧ decodeWord 0xC0008409 = .tsplitX .always 4 8 ∧ decodeWord 0xEC040806 = .tlbiW .always 4 2
  ∧ decodeWord 0 = .undefinedInstruction 0 ∧ decodeWord 0x58000003 = .undefinedInstruction 0x58000003
  ∧ decodeWord 0x21431CC3 = .undefinedInstruction 0x21431CC3

/-- R84, R95: every well-formed instruction that has a word has one of 32 bits, and that word decodes to it, whatever the
values of its operands. -/
def Obligations.DecodeOfEncode : Prop := ∀ i w, wellFormed i = true → encode i = some w → w < 2 ^ 32 ∧ decodeWord w = i

/-- The memories of the pod stay in canonical form: a step that answers a next state keeps it. -/
def Obligations.MemoryStaysCanonical : Prop := ∀ s t, s.MemOk → step s = .next t → t.MemOk

/-! ### Rules stated whole -/

/-- R59: a push.  p0 takes the value, each deeper entry that of the one above it, and the old p7 is lost; each of the
instructions that push does so in its acting lanes, with a value of the context before it, whose guards were read before;
no other lane's predicates change. -/
def Obligations.PushesShiftPredicates : Prop :=
  let after := fun (i : Instr) (v : Ctx → List Nat → Nat → Bool) => ∀ s c act, Issues s i c act →
    ∃ c', Completes i s c' ∧ (∀ l ∈ act, c'.pred l 0 = v c act l ∧ ∀ k, 1 ≤ k → k ≤ 7 → c'.pred l k = c.pred l (k - 1))
      ∧ ∀ l, l ∉ act → (c'.lane l).pred = (c.lane l).pred
  (∀ g a, after (.ppush g a) (fun c _ l => decide (c.rdV a l ≠ 0)))
  ∧ (∀ g n, after (.pdup g n) (fun c _ l => c.pred l n))
  ∧ (∀ g n, after (.pnot g n) (fun c _ l => !c.pred l n))
  ∧ (∀ g n m, after (.pand g n m) (fun c _ l => c.pred l n && c.pred l m))
  ∧ (∀ g n m, after (.por g n m) (fun c _ l => c.pred l n || c.pred l m))
  ∧ (∀ g n m, after (.pxor g n m) (fun c _ l => xor (c.pred l n) (c.pred l m)))
  ∧ (∀ g n, after (.voteAny g n) (fun c act _ => act.any (fun m => c.pred m n)))
  ∧ (∀ g n, after (.voteAll g n) (fun c act _ => act.all (fun m => c.pred m n)))
  ∧ (∀ g a b cc, after (.icmp g a b cc) (fun c _ l =>
      let x := c.rdV a l
      let y := c.rdV b l
      match cc with
      | .eq => decide (x = y) | .ne => decide (x ≠ y) | .lt => x.slt y | .le => x.sle y | .gt => y.slt x | .ge => y.sle x
      | .ltU => x.ult y | .leU => x.ule y | .gtU => y.ult x | .geU => y.ule x))
  ∧ (∀ g a b cc, after (.fcmp g a b cc) (fun c _ l => fcond cc (f32 (c.rdV a l)) (f32 (c.rdV b l))))
  ∧ (∀ g a b cc, after (.gcmp g a b cc) (fun c _ _ =>
      let x := c.rdG a
      let y := c.rdG b
      match cc with | .eq => decide (x = y) | .ne => decide (x ≠ y) | .lt => x.slt y | .ge => y.sle x))

/-- R75: a read of %reftime.lo gives bits [31:0] of its die's count and latches bits [63:32] of the same count in the
reading lane; a read of %reftime.hi gives what the lane has latched, and leaves it; a lane that has made no read of
%reftime.lo holds 0. -/
def Obligations.ReftimeNeverTears : Prop :=
  (∀ g d s c act, Issues s (.sread g d false 0x10) c act → ∃ c', Completes (.sread g d false 0x10) s c' ∧ ∀ l,
      (l ∈ act → (c'.rdV d l).toNat = s.now c % 2 ^ 32 ∧ (c'.lane l).refHi.toNat = s.now c / 2 ^ 32 % 2 ^ 32)
      ∧ (l ∉ act → (c'.lane l).refHi = (c.lane l).refHi))
  ∧ (∀ g d s c act, Issues s (.sread g d true 0x10) c act → ∃ c', Completes (.sread g d true 0x10) s c'
      ∧ (c'.rdG d).toNat = s.now c % 2 ^ 32 ∧ ∀ l, (c'.lane l).refHi.toNat =
        if l = act.headD 0 then s.now c / 2 ^ 32 % 2 ^ 32 else (c.lane l).refHi.toNat)
  ∧ (∀ g d s c act, Issues s (.sread g d false 0x11) c act → ∃ c', Completes (.sread g d false 0x11) s c'
      ∧ (∀ l ∈ act, c'.rdV d l = (c.lane l).refHi) ∧ ∀ l, (c'.lane l).refHi = (c.lane l).refHi)
  ∧ (∀ g d s c act, Issues s (.sread g d true 0x11) c act → ∃ c', Completes (.sread g d true 0x11) s c'
      ∧ c'.rdG d = (c.lane (act.headD 0)).refHi ∧ ∀ l, (c'.lane l).refHi = (c.lane l).refHi)
  ∧ (∀ n entry l, ((Sparse.find (entryLanes n entry) l).getD {}).refHi = 0)

/-- R308: `SLEEP`'s word; what it does; that a sleeping lane is not eligible until its count is reached, halted or not,
and then is; and that the slot account counts it as async wait. -/
def Obligations.LanesSleep : Prop :=
  (∀ g a w, wellFormed (.sleep g a) = true → encode (.sleep g a) = some w →
      w / 2 ^ 26 = 0x1E ∧ w / 2 ^ 16 % 64 = 0 ∧ w / 2 ^ 10 % 64 = a ∧ w / 2 ^ 4 % 64 = 0 ∧ w % 16 = 5)
  ∧ (∀ g a s c act, Issues s (.sleep g a) c act → ∃ c', Completes (.sleep g a) s c' ∧ ∀ l ∈ act,
      (c.rdV a l = 0 → c'.lane l = (c.lane l).onward)
      ∧ (c.rdV a l ≠ 0 → c'.lane l = { c.lane l with wait := .sleep (s.now c + (c.rdV a l).toNat) }))
  ∧ (∀ s c l n, (c.lane l).wait = .sleep n → l ∉ State.eligible s c)
  ∧ (∀ s k c l n, Sparse.find s.ctxs k = some c → (c.lane l).wait = .sleep n → s.clockRuns c.pkg c.site = true →
      (s.now c < n → exec (.sleepWake k l) s = .fault (.notEnabled "SLEEP_WAKE"))
      ∧ (n ≤ s.now c → ∃ t c', exec (.sleepWake k l) s = .next t ∧ t.ctx k = c' ∧ c'.halted = c.halted
          ∧ c'.lane l = (c.lane l).onward ∧ ∀ m, m ≠ l → c'.lane m = c.lane m))
  ∧ (∀ s c l n, (c.lane l).wait = .sleep n → State.laneLeaf s c l = 7)

/-! ### The statements that gather claims of one kind -/

/-- Integer, logic, shift, field and immediate instructions: results, flags, frames. -/
def Obligations.IntegerAndLogic : Prop :=
  Claims.IntegerArithmetic ∧ Claims.LogicAndShifts ∧ Claims.ImmediatesAndLea
/-- FP32, packed-half and function instructions write their rounded values. -/
def Obligations.FloatingPoint : Prop :=
  Claims.FloatArithmetic ∧ Claims.PackedHalves ∧ Claims.FloatFunctions
/-- Special operands, rounding to the nearest value of a format and its flags, and special values of the functions. -/
def Obligations.FloatRounding : Prop :=
  Claims.FloatSpecials ∧ Claims.RoundsToNearest ∧ Claims.RoundsToFormat ∧ Claims.ReciprocalIsNearest ∧ Claims.FunctionSpecials
/-- Conversions of packed elements, and the binding traps of stale tags. -/
def Obligations.ConversionsAndTags : Prop :=
  Claims.Conversions ∧ Claims.ElementsAreApart ∧ Claims.StaleTagsTrap
/-- Branches, calls, exits, sleeps, yields, regions and hints. -/
def Obligations.ControlFlow : Prop :=
  Claims.Branching ∧ Claims.LaneControl
/-- Scale bindings, generations, stale tags and scale arithmetic. -/
def Obligations.ScaleRegisters : Prop :=
  Claims.ScaleBinding ∧ Claims.StaleTagsClear ∧ Claims.ScaleArithmetic
/-- Core-store, cluster-memory and stash accesses. -/
def Obligations.LocalAccessesIssue : Prop :=
  Claims.LocalAccesses ∧ Claims.StashAccesses
/-- LDSC and LDX issue, what a performed LDSC fills, and the lane writes of LDX. -/
def Obligations.GatheredLoads : Prop :=
  Claims.ScaledAndGatheredLoads ∧ Claims.ScaledLoadsFill ∧ Claims.GatherLanesWrite
/-- Atomics and reduction contributions at their home. -/
def Obligations.AtomicsAndContributions : Prop :=
  Claims.AtomicsPerform ∧ Claims.ContributionsArrive
/-- Reduction slots sum exactly, in any order; shards partition an extent. -/
def Obligations.ExactSums : Prop :=
  Claims.SlotsAreExact ∧ Claims.CollectiveSums ∧ Claims.ShardsPartition
/-- Barrier objects, their phases and the engine counters. -/
def Obligations.BarrierObjectsAndCounters : Prop :=
  Claims.BarrierObjects ∧ Claims.CompletionTest ∧ Claims.Counters
/-- MMA posts a pass; a pass captures its blocks and computes its accumulator. -/
def Obligations.MatrixPasses : Prop :=
  Claims.MatrixPosts ∧ Claims.PassesRun
/-- ACCRD, ACCWR, ACCZ and PROCFG, and the drains that write. -/
def Obligations.AccumulatorDrains : Prop :=
  Claims.Accumulators ∧ Claims.DrainsWrite
/-- Fills of the operand streams and the arrival of their blocks. -/
def Obligations.StreamBlocks : Prop :=
  Claims.StreamFills ∧ Claims.BlocksArrive
/-- LAUNCH creates children, lane groups with every register zero, or traps. -/
def Obligations.Launches : Prop :=
  Claims.LaunchCreates ∧ Claims.LaunchTraps
/-- TSPLIT covers its extent; EVQRD takes the first matching record. -/
def Obligations.SplitsAndEventQueues : Prop :=
  Claims.SplitsCover ∧ Claims.SplitsAndEvents
/-- BAR and the fences wait for what they order. -/
def Obligations.BarriersAndFences : Prop :=
  Claims.Barriers ∧ Claims.Fences ∧ Claims.FencesWait
/-- Chunks of a copy move, drop, and reserve their windows. -/
def Obligations.CopyChunks : Prop :=
  Claims.CopyChunksMove ∧ Claims.Reservations
/-- Combine slots open, take puts, release and answer. -/
def Obligations.CombineUnit : Prop :=
  Claims.CombineOpensAndPuts ∧ Claims.CombineWaitsAndCloses ∧ Claims.PutsArrive ∧ Claims.CombineReleases
/-- COLL, LAYDEF, COLLWAIT and COLLQ. -/
def Obligations.CollectivesAndLayouts : Prop :=
  Claims.CollectivesIssue ∧ Claims.LayoutsAndTickets
/-- TRAP, and the traps that the checks of decoding take. -/
def Obligations.TrapsTaken : Prop :=
  Claims.TrapInstruction ∧ Claims.ChecksTrap
/-- The handler reads and writes its window, halts and resumes. -/
def Obligations.HandlerInstructions : Prop :=
  Claims.HandlerWindow ∧ Claims.HandlerControl
/-- TLB, archive, attestation and firmware commands and their completion. -/
def Obligations.EngineAndSecurityCommands : Prop :=
  Claims.EngineCommands ∧ Claims.SecurityCommands
/-- Dies stop, drain and return; planes and ports fail and come back. -/
def Obligations.DiesAndPlanes : Prop :=
  Claims.DiesStopAndDrain ∧ Claims.PlanesAndPorts
end

