-- ==== Sys2Proof/Laws/Sparse.lean ====
section
/-! SUPPORT. Laws of the finite maps: what a key reads after each update, and that the updates keep the canonical
form. -/

namespace Sys2Proof.Machine

variable {α : Type}

/-! ### Reading after an update -/

theorem Sparse.find_put (m : Sparse α) (n : Nat) (v : α) (k : Nat) :
    Sparse.find (Sparse.put m n v) k = if k = n then some v else Sparse.find m k := by
  induction m with
  | nil => simp [Sparse.put, Sparse.find]
  | cons e r ih =>
    obtain ⟨j, w⟩ := e
    rcases Nat.lt_trichotomy n j with h | h | h
    · simp [Sparse.put, Sparse.find, h]
    · subst h
      by_cases hk : k = n <;> simp [Sparse.put, Sparse.find, hk]
    · have h1 : ¬ n < j := by omega
      have h2 : ¬ n = j := by omega
      by_cases hk : k = j
      · subst hk; simp [Sparse.put, Sparse.find, h1, h2, Ne.symm h2]
      · simp [Sparse.put, Sparse.find, h1, h2, hk, ih]

theorem Sparse.find_adjust (m : Sparse α) (n : Nat) (f : α → α) (k : Nat) :
    Sparse.find (Sparse.adjust m n f) k = if k = n then (Sparse.find m n).map f else Sparse.find m k := by
  induction m with
  | nil => simp [Sparse.adjust, Sparse.find]
  | cons e r ih =>
    obtain ⟨j, w⟩ := e
    by_cases h : n = j
    · subst h
      by_cases hk : k = n <;> simp [Sparse.adjust, Sparse.find, hk]
    · by_cases hk : k = j
      · subst hk; simp [Sparse.adjust, Sparse.find, h, Ne.symm h]
      · simp [Sparse.adjust, Sparse.find, h, hk, ih]

theorem Sparse.find_del (m : Sparse α) (n k : Nat) :
    Sparse.find (Sparse.del m n) k = if k = n then none else Sparse.find m k := by
  induction m with
  | nil => simp [Sparse.del, Sparse.find]
  | cons e r ih =>
    obtain ⟨j, w⟩ := e
    by_cases h : n = j
    · subst h
      by_cases hk : k = n
      · subst hk; simp [Sparse.del, ih]
      · simp [Sparse.del, Sparse.find, hk, ih]
    · by_cases hk : k = j
      · subst hk; simp [Sparse.del, Sparse.find, h, Ne.symm h]
      · simp [Sparse.del, Sparse.find, h, hk, ih]

/-- A value written at a key reads back there, and every other key reads as before. -/
theorem Sparse.get_set [DecidableEq α] (d : α) (m : Sparse α) (n : Nat) (v : α) (k : Nat) :
    Sparse.get d (Sparse.set d m n v) k = if k = n then v else Sparse.get d m k := by
  unfold Sparse.get Sparse.set
  by_cases hv : v = d
  · by_cases hk : k = n <;> simp [hv, Sparse.find_del, hk]
  · by_cases hk : k = n <;> simp [hv, Sparse.find_put, hk]

@[simp] theorem Sparse.get_set_same [DecidableEq α] (d : α) (m : Sparse α) (n : Nat) (v : α) :
    Sparse.get d (Sparse.set d m n v) n = v := by simp [Sparse.get_set]

theorem Sparse.get_set_ne [DecidableEq α] (d : α) (m : Sparse α) {n k : Nat} (v : α) (h : k ≠ n) :
    Sparse.get d (Sparse.set d m n v) k = Sparse.get d m k := by simp [Sparse.get_set, h]

theorem Sparse.get_put (d : α) (m : Sparse α) (n : Nat) (v : α) (k : Nat) :
    Sparse.get d (Sparse.put m n v) k = if k = n then v else Sparse.get d m k := by
  unfold Sparse.get
  by_cases hk : k = n <;> simp [Sparse.find_put, hk]

/-! ### The canonical form -/

theorem Sparse.risesFrom_mono {b c : Nat} (h : b ≤ c) (m : Sparse α) (hm : Sparse.risesFrom c m = true) :
    Sparse.risesFrom b m = true := by
  cases m with
  | nil => rfl
  | cons e r =>
    simp only [Sparse.risesFrom, Bool.and_eq_true, decide_eq_true_eq] at hm ⊢
    exact ⟨by omega, hm.2⟩

theorem Sparse.risesFrom_put (m : Sparse α) (b n : Nat) (v : α) (hb : b ≤ n) (hm : Sparse.risesFrom b m = true) :
    Sparse.risesFrom b (Sparse.put m n v) = true := by
  induction m generalizing b with
  | nil => simp [Sparse.put, Sparse.risesFrom, hb]
  | cons e r ih =>
    obtain ⟨j, w⟩ := e
    simp only [Sparse.risesFrom, Bool.and_eq_true, decide_eq_true_eq] at hm
    rcases Nat.lt_trichotomy n j with h | h | h
    · simp [Sparse.put, Sparse.risesFrom, h, hb, hm.2]
    · subst h; simp [Sparse.put, Sparse.risesFrom, hm.2, hb]
    · have h1 : ¬ n < j := by omega
      have h2 : ¬ n = j := by omega
      simp only [Sparse.put, h1, h2, if_false, Sparse.risesFrom, Bool.and_eq_true, decide_eq_true_eq]
      exact ⟨hm.1, ih (j + 1) (by omega) hm.2⟩

theorem Sparse.risesFrom_del (m : Sparse α) (b n : Nat) (hm : Sparse.risesFrom b m = true) :
    Sparse.risesFrom b (Sparse.del m n) = true := by
  induction m generalizing b with
  | nil => rfl
  | cons e r ih =>
    obtain ⟨j, w⟩ := e
    simp only [Sparse.risesFrom, Bool.and_eq_true, decide_eq_true_eq] at hm
    by_cases h : n = j
    · subst h
      simp only [Sparse.del, if_true]
      exact Sparse.risesFrom_mono (by omega) _ (ih (n + 1) hm.2)
    · simp only [Sparse.del, h, if_false, Sparse.risesFrom, Bool.and_eq_true, decide_eq_true_eq]
      exact ⟨hm.1, ih (j + 1) hm.2⟩

theorem Sparse.all_put (p : Nat × α → Bool) (m : Sparse α) (n : Nat) (v : α) (hv : p (n, v) = true)
    (hm : m.all p = true) : (Sparse.put m n v).all p = true := by
  induction m with
  | nil => simp [Sparse.put, hv]
  | cons e r ih =>
    obtain ⟨j, w⟩ := e
    simp only [List.all_cons, Bool.and_eq_true] at hm
    by_cases h1 : n < j
    · simp only [Sparse.put, h1, if_true, List.all_cons, Bool.and_eq_true]; exact ⟨hv, hm.1, hm.2⟩
    · by_cases h2 : n = j
      · subst h2
        simp only [Sparse.put, Nat.lt_irrefl, if_true, if_false, List.all_cons, Bool.and_eq_true]
        exact ⟨hv, hm.2⟩
      · simp only [Sparse.put, h1, h2, if_false, List.all_cons, Bool.and_eq_true]; exact ⟨hm.1, ih hm.2⟩

theorem Sparse.all_del (p : Nat × α → Bool) (m : Sparse α) (n : Nat) (hm : m.all p = true) :
    (Sparse.del m n).all p = true := by
  induction m with
  | nil => rfl
  | cons e r ih =>
    obtain ⟨j, w⟩ := e
    simp only [List.all_cons, Bool.and_eq_true] at hm
    by_cases h : n = j
    · simp only [Sparse.del, h, if_true]; rw [← h]; exact ih hm.2
    · simp only [Sparse.del, h, if_false, List.all_cons, Bool.and_eq_true]; exact ⟨hm.1, ih hm.2⟩

/-- Writing a value keeps the canonical form: writing the default removes the entry. -/
theorem Sparse.wf_set [DecidableEq α] (d : α) (m : Sparse α) (n : Nat) (v : α) (hm : Sparse.wf d m = true) :
    Sparse.wf d (Sparse.set d m n v) = true := by
  simp only [Sparse.wf, Bool.and_eq_true] at hm ⊢
  unfold Sparse.set
  by_cases hv : v = d
  · simp only [hv, if_true]
    exact ⟨Sparse.risesFrom_del _ _ _ hm.1, Sparse.all_del _ _ _ hm.2⟩
  · simp only [hv, if_false]
    exact ⟨Sparse.risesFrom_put _ _ _ _ (Nat.zero_le _) hm.1, Sparse.all_put _ _ _ _ (by simpa using hv) hm.2⟩

theorem Sparse.wf_nil [DecidableEq α] (d : α) : Sparse.wf d ([] : Sparse α) = true := rfl

end Sys2Proof.Machine
end

