-- ==== Sys2Proof/Laws/State.lean ====
section
/-! SUPPORT. One lemma for each field of the state, and of a context, under each update, true by unfolding; and what
each lookup gives after each update. -/

namespace Sys2Proof.Machine

/-! ### State.modPkg -/

@[simp] theorem State.modPkg_hbm (s : State) (p : Nat) (f : Package → Package) : (s.modPkg p f).hbm = s.hbm := rfl
@[simp] theorem State.modPkg_host (s : State) (p : Nat) (f : Package → Package) : (s.modPkg p f).host = s.host := rfl
@[simp] theorem State.modPkg_grids (s : State) (p : Nat) (f : Package → Package) : (s.modPkg p f).grids = s.grids := rfl
@[simp] theorem State.modPkg_units (s : State) (p : Nat) (f : Package → Package) : (s.modPkg p f).units = s.units := rfl
@[simp] theorem State.modPkg_ctxs (s : State) (p : Nat) (f : Package → Package) : (s.modPkg p f).ctxs = s.ctxs := rfl
@[simp] theorem State.modPkg_msis (s : State) (p : Nat) (f : Package → Package) : (s.modPkg p f).msis = s.msis := rfl
@[simp] theorem State.modPkg_cycle (s : State) (p : Nat) (f : Package → Package) : (s.modPkg p f).cycle = s.cycle := rfl
@[simp] theorem State.modPkg_agenda (s : State) (p : Nat) (f : Package → Package) : (s.modPkg p f).agenda = s.agenda := rfl
@[simp] theorem State.modPkg_cur (s : State) (p : Nat) (f : Package → Package) : (s.modPkg p f).cur = s.cur := rfl
@[simp] theorem State.modPkg_focus (s : State) (p : Nat) (f : Package → Package) : (s.modPkg p f).focus = s.focus := rfl
@[simp] theorem State.modPkg_free (s : State) (p : Nat) (f : Package → Package) : (s.modPkg p f).free = s.free := rfl
@[simp] theorem State.modPkg_fresh (s : State) (p : Nat) (f : Package → Package) : (s.modPkg p f).fresh = s.fresh := rfl
@[simp] theorem State.modPkg_ctx (s : State) (p : Nat) (f : Package → Package) (n : Nat) : (s.modPkg p f).ctx n = s.ctx n := rfl
@[simp] theorem State.modPkg_unit (s : State) (p : Nat) (f : Package → Package) (n : Nat) : (s.modPkg p f).unit n = s.unit n := rfl
@[simp] theorem State.modPkg_grid (s : State) (p : Nat) (f : Package → Package) (n : Nat) : (s.modPkg p f).grid n = s.grid n := rfl

/-! ### State.modCtx -/

@[simp] theorem State.modCtx_hbm (s : State) (k : Nat) (f : Ctx → Ctx) : (s.modCtx k f).hbm = s.hbm := rfl
@[simp] theorem State.modCtx_host (s : State) (k : Nat) (f : Ctx → Ctx) : (s.modCtx k f).host = s.host := rfl
@[simp] theorem State.modCtx_pkgs (s : State) (k : Nat) (f : Ctx → Ctx) : (s.modCtx k f).pkgs = s.pkgs := rfl
@[simp] theorem State.modCtx_grids (s : State) (k : Nat) (f : Ctx → Ctx) : (s.modCtx k f).grids = s.grids := rfl
@[simp] theorem State.modCtx_units (s : State) (k : Nat) (f : Ctx → Ctx) : (s.modCtx k f).units = s.units := rfl
@[simp] theorem State.modCtx_msis (s : State) (k : Nat) (f : Ctx → Ctx) : (s.modCtx k f).msis = s.msis := rfl
@[simp] theorem State.modCtx_cycle (s : State) (k : Nat) (f : Ctx → Ctx) : (s.modCtx k f).cycle = s.cycle := rfl
@[simp] theorem State.modCtx_agenda (s : State) (k : Nat) (f : Ctx → Ctx) : (s.modCtx k f).agenda = s.agenda := rfl
@[simp] theorem State.modCtx_cur (s : State) (k : Nat) (f : Ctx → Ctx) : (s.modCtx k f).cur = s.cur := rfl
@[simp] theorem State.modCtx_focus (s : State) (k : Nat) (f : Ctx → Ctx) : (s.modCtx k f).focus = s.focus := rfl
@[simp] theorem State.modCtx_free (s : State) (k : Nat) (f : Ctx → Ctx) : (s.modCtx k f).free = s.free := rfl
@[simp] theorem State.modCtx_fresh (s : State) (k : Nat) (f : Ctx → Ctx) : (s.modCtx k f).fresh = s.fresh := rfl
@[simp] theorem State.modCtx_pkg (s : State) (k : Nat) (f : Ctx → Ctx) (n : Nat) : (s.modCtx k f).pkg n = s.pkg n := rfl
@[simp] theorem State.modCtx_unit (s : State) (k : Nat) (f : Ctx → Ctx) (n : Nat) : (s.modCtx k f).unit n = s.unit n := rfl
@[simp] theorem State.modCtx_grid (s : State) (k : Nat) (f : Ctx → Ctx) (n : Nat) : (s.modCtx k f).grid n = s.grid n := rfl

/-! ### State.modUnit -/

@[simp] theorem State.modUnit_hbm (s : State) (u : Nat) (f : WUnit → WUnit) : (s.modUnit u f).hbm = s.hbm := rfl
@[simp] theorem State.modUnit_host (s : State) (u : Nat) (f : WUnit → WUnit) : (s.modUnit u f).host = s.host := rfl
@[simp] theorem State.modUnit_pkgs (s : State) (u : Nat) (f : WUnit → WUnit) : (s.modUnit u f).pkgs = s.pkgs := rfl
@[simp] theorem State.modUnit_grids (s : State) (u : Nat) (f : WUnit → WUnit) : (s.modUnit u f).grids = s.grids := rfl
@[simp] theorem State.modUnit_ctxs (s : State) (u : Nat) (f : WUnit → WUnit) : (s.modUnit u f).ctxs = s.ctxs := rfl
@[simp] theorem State.modUnit_msis (s : State) (u : Nat) (f : WUnit → WUnit) : (s.modUnit u f).msis = s.msis := rfl
@[simp] theorem State.modUnit_cycle (s : State) (u : Nat) (f : WUnit → WUnit) : (s.modUnit u f).cycle = s.cycle := rfl
@[simp] theorem State.modUnit_agenda (s : State) (u : Nat) (f : WUnit → WUnit) : (s.modUnit u f).agenda = s.agenda := rfl
@[simp] theorem State.modUnit_cur (s : State) (u : Nat) (f : WUnit → WUnit) : (s.modUnit u f).cur = s.cur := rfl
@[simp] theorem State.modUnit_focus (s : State) (u : Nat) (f : WUnit → WUnit) : (s.modUnit u f).focus = s.focus := rfl
@[simp] theorem State.modUnit_free (s : State) (u : Nat) (f : WUnit → WUnit) : (s.modUnit u f).free = s.free := rfl
@[simp] theorem State.modUnit_fresh (s : State) (u : Nat) (f : WUnit → WUnit) : (s.modUnit u f).fresh = s.fresh := rfl
@[simp] theorem State.modUnit_pkg (s : State) (u : Nat) (f : WUnit → WUnit) (n : Nat) : (s.modUnit u f).pkg n = s.pkg n := rfl
@[simp] theorem State.modUnit_ctx (s : State) (u : Nat) (f : WUnit → WUnit) (n : Nat) : (s.modUnit u f).ctx n = s.ctx n := rfl
@[simp] theorem State.modUnit_grid (s : State) (u : Nat) (f : WUnit → WUnit) (n : Nat) : (s.modUnit u f).grid n = s.grid n := rfl

/-! ### State.modGrid -/

@[simp] theorem State.modGrid_hbm (s : State) (g : Nat) (f : Grid → Grid) : (s.modGrid g f).hbm = s.hbm := rfl
@[simp] theorem State.modGrid_host (s : State) (g : Nat) (f : Grid → Grid) : (s.modGrid g f).host = s.host := rfl
@[simp] theorem State.modGrid_pkgs (s : State) (g : Nat) (f : Grid → Grid) : (s.modGrid g f).pkgs = s.pkgs := rfl
@[simp] theorem State.modGrid_units (s : State) (g : Nat) (f : Grid → Grid) : (s.modGrid g f).units = s.units := rfl
@[simp] theorem State.modGrid_ctxs (s : State) (g : Nat) (f : Grid → Grid) : (s.modGrid g f).ctxs = s.ctxs := rfl
@[simp] theorem State.modGrid_msis (s : State) (g : Nat) (f : Grid → Grid) : (s.modGrid g f).msis = s.msis := rfl
@[simp] theorem State.modGrid_cycle (s : State) (g : Nat) (f : Grid → Grid) : (s.modGrid g f).cycle = s.cycle := rfl
@[simp] theorem State.modGrid_agenda (s : State) (g : Nat) (f : Grid → Grid) : (s.modGrid g f).agenda = s.agenda := rfl
@[simp] theorem State.modGrid_cur (s : State) (g : Nat) (f : Grid → Grid) : (s.modGrid g f).cur = s.cur := rfl
@[simp] theorem State.modGrid_focus (s : State) (g : Nat) (f : Grid → Grid) : (s.modGrid g f).focus = s.focus := rfl
@[simp] theorem State.modGrid_free (s : State) (g : Nat) (f : Grid → Grid) : (s.modGrid g f).free = s.free := rfl
@[simp] theorem State.modGrid_fresh (s : State) (g : Nat) (f : Grid → Grid) : (s.modGrid g f).fresh = s.fresh := rfl
@[simp] theorem State.modGrid_pkg (s : State) (g : Nat) (f : Grid → Grid) (n : Nat) : (s.modGrid g f).pkg n = s.pkg n := rfl
@[simp] theorem State.modGrid_ctx (s : State) (g : Nat) (f : Grid → Grid) (n : Nat) : (s.modGrid g f).ctx n = s.ctx n := rfl
@[simp] theorem State.modGrid_unit (s : State) (g : Nat) (f : Grid → Grid) (n : Nat) : (s.modGrid g f).unit n = s.unit n := rfl

/-! ### Lookups after an update of their own table -/

theorem State.pkg_modPkg (s : State) (p : Nat) (f : Package → Package) (n : Nat) :
    (s.modPkg p f).pkg n = if n = p then f (s.pkg p) else s.pkg n := by
  by_cases h : n = p <;> simp [State.modPkg, State.pkg, Sparse.find_put, h]
@[simp] theorem State.pkg_modPkg_same (s : State) (p : Nat) (f : Package → Package) : (s.modPkg p f).pkg p = f (s.pkg p) := by
  simp [State.pkg_modPkg]
theorem State.find_modCtx (s : State) (k : Nat) (f : Ctx → Ctx) (n : Nat) :
    Sparse.find (s.modCtx k f).ctxs n = if n = k then (Sparse.find s.ctxs k).map f else Sparse.find s.ctxs n := by
  simp [State.modCtx, Sparse.find_adjust]
theorem State.ctx_modCtx (s : State) (k : Nat) (f : Ctx → Ctx) (c : Ctx) (h : Sparse.find s.ctxs k = some c) :
    (s.modCtx k f).ctx k = f c := by simp [State.ctx, State.find_modCtx, h]
theorem State.ctx_modCtx_ne (s : State) (k : Nat) (f : Ctx → Ctx) (n : Nat) (h : n ≠ k) : (s.modCtx k f).ctx n = s.ctx n := by
  simp [State.ctx, State.find_modCtx, h]
theorem State.ctx_of_find (s : State) (k : Nat) (c : Ctx) (h : Sparse.find s.ctxs k = some c) : s.ctx k = c := by
  simp [State.ctx, h]
theorem State.unit_modUnit (s : State) (u : Nat) (f : WUnit → WUnit) (x : WUnit) (h : Sparse.find s.units u = some x) :
    (s.modUnit u f).unit u = f x := by simp [State.unit, State.modUnit, Sparse.find_adjust, h]
theorem State.unit_modUnit_ne (s : State) (u : Nat) (f : WUnit → WUnit) (n : Nat) (h : n ≠ u) :
    (s.modUnit u f).unit n = s.unit n := by simp [State.unit, State.modUnit, Sparse.find_adjust, h]
theorem State.grid_modGrid (s : State) (g : Nat) (f : Grid → Grid) (x : Grid) (h : Sparse.find s.grids g = some x) :
    (s.modGrid g f).grid g = f x := by simp [State.grid, State.modGrid, Sparse.find_adjust, h]
theorem State.grid_modGrid_ne (s : State) (g : Nat) (f : Grid → Grid) (n : Nat) (h : n ≠ g) :
    (s.modGrid g f).grid n = s.grid n := by simp [State.grid, State.modGrid, Sparse.find_adjust, h]

/-- Two updates of one context are one. -/
theorem Sparse.adjust_adjust {α : Type} (m : Sparse α) (k : Nat) (f g : α → α) :
    Sparse.adjust (Sparse.adjust m k f) k g = Sparse.adjust m k (fun x => g (f x)) := by
  induction m with
  | nil => rfl
  | cons e r ih =>
    obtain ⟨j, w⟩ := e
    by_cases h : k = j <;> simp [Sparse.adjust, h]
    simpa using ih
theorem State.modCtx_modCtx (s : State) (k : Nat) (f g : Ctx → Ctx) :
    (s.modCtx k f).modCtx k g = s.modCtx k (fun c => g (f c)) := by
  simp only [State.modCtx, Sparse.adjust_adjust]
/-- An update of a context depends on its value there alone. -/
theorem Sparse.adjust_congr {α : Type} (m : Sparse α) (k : Nat) (f g : α → α) (c : α) (h : Sparse.find m k = some c) (e : f c = g c) :
    Sparse.adjust m k f = Sparse.adjust m k g := by
  induction m with
  | nil => rfl
  | cons x r ih =>
    obtain ⟨j, w⟩ := x
    by_cases hk : k = j
    · subst hk; simp [Sparse.find] at h; simp [Sparse.adjust, h, e]
    · simp [Sparse.find, hk] at h; simp [Sparse.adjust, hk, ih h]
theorem State.modCtx_const (s : State) (k : Nat) (f : Ctx → Ctx) (c : Ctx) (h : Sparse.find s.ctxs k = some c) :
    s.modCtx k f = s.modCtx k (fun _ => f c) := by
  simp only [State.modCtx, Sparse.adjust_congr s.ctxs k f (fun _ => f c) c h rfl]

/-! ### Updates of a context -/

@[simp] theorem Ctx.wrV_kind (c : Ctx) (n l : Nat) (x : Word) : (c.wrV n l x).kind = c.kind := rfl
@[simp] theorem Ctx.wrV_pkg (c : Ctx) (n l : Nat) (x : Word) : (c.wrV n l x).pkg = c.pkg := rfl
@[simp] theorem Ctx.wrV_site (c : Ctx) (n l : Nat) (x : Word) : (c.wrV n l x).site = c.site := rfl
@[simp] theorem Ctx.wrV_grid (c : Ctx) (n l : Nat) (x : Word) : (c.wrV n l x).grid = c.grid := rfl
@[simp] theorem Ctx.wrV_unit (c : Ctx) (n l : Nat) (x : Word) : (c.wrV n l x).unit = c.unit := rfl
@[simp] theorem Ctx.wrV_asid (c : Ctx) (n l : Nat) (x : Word) : (c.wrV n l x).asid = c.asid := rfl
@[simp] theorem Ctx.wrV_index (c : Ctx) (n l : Nat) (x : Word) : (c.wrV n l x).index = c.index := rfl
@[simp] theorem Ctx.wrV_placed (c : Ctx) (n l : Nat) (x : Word) : (c.wrV n l x).placed = c.placed := rfl
@[simp] theorem Ctx.wrV_retired (c : Ctx) (n l : Nat) (x : Word) : (c.wrV n l x).retired = c.retired := rfl
@[simp] theorem Ctx.wrV_resIdx (c : Ctx) (n l : Nat) (x : Word) : (c.wrV n l x).resIdx = c.resIdx := rfl
@[simp] theorem Ctx.wrV_wid (c : Ctx) (n l : Nat) (x : Word) : (c.wrV n l x).wid = c.wid := rfl
@[simp] theorem Ctx.wrV_lanes (c : Ctx) (n l : Nat) (x : Word) : (c.wrV n l x).lanes = c.lanes := rfl
@[simp] theorem Ctx.wrV_g (c : Ctx) (n l : Nat) (x : Word) : (c.wrV n l x).g = c.g := rfl
@[simp] theorem Ctx.wrV_e (c : Ctx) (n l : Nat) (x : Word) : (c.wrV n l x).e = c.e := rfl
@[simp] theorem Ctx.wrV_fpflags (c : Ctx) (n l : Nat) (x : Word) : (c.wrV n l x).fpflags = c.fpflags := rfl
@[simp] theorem Ctx.wrV_stash (c : Ctx) (n l : Nat) (x : Word) : (c.wrV n l x).stash = c.stash := rfl
@[simp] theorem Ctx.wrV_tiles (c : Ctx) (n l : Nat) (x : Word) : (c.wrV n l x).tiles = c.tiles := rfl
@[simp] theorem Ctx.wrV_accs (c : Ctx) (n l : Nat) (x : Word) : (c.wrV n l x).accs = c.accs := rfl
@[simp] theorem Ctx.wrV_scales (c : Ctx) (n l : Nat) (x : Word) : (c.wrV n l x).scales = c.scales := rfl
@[simp] theorem Ctx.wrV_sctl (c : Ctx) (n l : Nat) (x : Word) : (c.wrV n l x).sctl = c.sctl := rfl
@[simp] theorem Ctx.wrV_ttags (c : Ctx) (n l : Nat) (x : Word) : (c.wrV n l x).ttags = c.ttags := rfl
@[simp] theorem Ctx.wrV_strA (c : Ctx) (n l : Nat) (x : Word) : (c.wrV n l x).strA = c.strA := rfl
@[simp] theorem Ctx.wrV_strB (c : Ctx) (n l : Nat) (x : Word) : (c.wrV n l x).strB = c.strB := rfl
@[simp] theorem Ctx.wrV_rq (c : Ctx) (n l : Nat) (x : Word) : (c.wrV n l x).rq = c.rq := rfl
@[simp] theorem Ctx.wrV_nextId (c : Ctx) (n l : Nat) (x : Word) : (c.wrV n l x).nextId = c.nextId := rfl
@[simp] theorem Ctx.wrV_evq (c : Ctx) (n l : Nat) (x : Word) : (c.wrV n l x).evq = c.evq := rfl
@[simp] theorem Ctx.wrV_evResv (c : Ctx) (n l : Nat) (x : Word) : (c.wrV n l x).evResv = c.evResv := rfl
@[simp] theorem Ctx.wrV_arrived (c : Ctx) (n l : Nat) (x : Word) : (c.wrV n l x).arrived = c.arrived := rfl
@[simp] theorem Ctx.wrV_exiting (c : Ctx) (n l : Nat) (x : Word) : (c.wrV n l x).exiting = c.exiting := rfl
@[simp] theorem Ctx.wrV_pos (c : Ctx) (n l : Nat) (x : Word) : (c.wrV n l x).pos = c.pos := rfl
@[simp] theorem Ctx.wrV_hold (c : Ctx) (n l : Nat) (x : Word) : (c.wrV n l x).hold = c.hold := rfl
@[simp] theorem Ctx.wrV_withdrawn (c : Ctx) (n l : Nat) (x : Word) : (c.wrV n l x).withdrawn = c.withdrawn := rfl
@[simp] theorem Ctx.wrV_trapped (c : Ctx) (n l : Nat) (x : Word) : (c.wrV n l x).trapped = c.trapped := rfl
@[simp] theorem Ctx.wrV_halted (c : Ctx) (n l : Nat) (x : Word) : (c.wrV n l x).halted = c.halted := rfl
@[simp] theorem Ctx.wrV_frame (c : Ctx) (n l : Nat) (x : Word) : (c.wrV n l x).frame = c.frame := rfl
@[simp] theorem Ctx.wrV_inHdl (c : Ctx) (n l : Nat) (x : Word) : (c.wrV n l x).inHdl = c.inHdl := rfl

@[simp] theorem Ctx.wrG_kind (c : Ctx) (n : Nat) (x : Word) : (c.wrG n x).kind = c.kind := rfl
@[simp] theorem Ctx.wrG_pkg (c : Ctx) (n : Nat) (x : Word) : (c.wrG n x).pkg = c.pkg := rfl
@[simp] theorem Ctx.wrG_site (c : Ctx) (n : Nat) (x : Word) : (c.wrG n x).site = c.site := rfl
@[simp] theorem Ctx.wrG_grid (c : Ctx) (n : Nat) (x : Word) : (c.wrG n x).grid = c.grid := rfl
@[simp] theorem Ctx.wrG_unit (c : Ctx) (n : Nat) (x : Word) : (c.wrG n x).unit = c.unit := rfl
@[simp] theorem Ctx.wrG_asid (c : Ctx) (n : Nat) (x : Word) : (c.wrG n x).asid = c.asid := rfl
@[simp] theorem Ctx.wrG_index (c : Ctx) (n : Nat) (x : Word) : (c.wrG n x).index = c.index := rfl
@[simp] theorem Ctx.wrG_placed (c : Ctx) (n : Nat) (x : Word) : (c.wrG n x).placed = c.placed := rfl
@[simp] theorem Ctx.wrG_retired (c : Ctx) (n : Nat) (x : Word) : (c.wrG n x).retired = c.retired := rfl
@[simp] theorem Ctx.wrG_resIdx (c : Ctx) (n : Nat) (x : Word) : (c.wrG n x).resIdx = c.resIdx := rfl
@[simp] theorem Ctx.wrG_wid (c : Ctx) (n : Nat) (x : Word) : (c.wrG n x).wid = c.wid := rfl
@[simp] theorem Ctx.wrG_lanes (c : Ctx) (n : Nat) (x : Word) : (c.wrG n x).lanes = c.lanes := rfl
@[simp] theorem Ctx.wrG_v (c : Ctx) (n : Nat) (x : Word) : (c.wrG n x).v = c.v := rfl
@[simp] theorem Ctx.wrG_e (c : Ctx) (n : Nat) (x : Word) : (c.wrG n x).e = c.e := rfl
@[simp] theorem Ctx.wrG_fpflags (c : Ctx) (n : Nat) (x : Word) : (c.wrG n x).fpflags = c.fpflags := rfl
@[simp] theorem Ctx.wrG_stash (c : Ctx) (n : Nat) (x : Word) : (c.wrG n x).stash = c.stash := rfl
@[simp] theorem Ctx.wrG_tiles (c : Ctx) (n : Nat) (x : Word) : (c.wrG n x).tiles = c.tiles := rfl
@[simp] theorem Ctx.wrG_accs (c : Ctx) (n : Nat) (x : Word) : (c.wrG n x).accs = c.accs := rfl
@[simp] theorem Ctx.wrG_scales (c : Ctx) (n : Nat) (x : Word) : (c.wrG n x).scales = c.scales := rfl
@[simp] theorem Ctx.wrG_sctl (c : Ctx) (n : Nat) (x : Word) : (c.wrG n x).sctl = c.sctl := rfl
@[simp] theorem Ctx.wrG_vtags (c : Ctx) (n : Nat) (x : Word) : (c.wrG n x).vtags = c.vtags := rfl
@[simp] theorem Ctx.wrG_ttags (c : Ctx) (n : Nat) (x : Word) : (c.wrG n x).ttags = c.ttags := rfl
@[simp] theorem Ctx.wrG_strA (c : Ctx) (n : Nat) (x : Word) : (c.wrG n x).strA = c.strA := rfl
@[simp] theorem Ctx.wrG_strB (c : Ctx) (n : Nat) (x : Word) : (c.wrG n x).strB = c.strB := rfl
@[simp] theorem Ctx.wrG_rq (c : Ctx) (n : Nat) (x : Word) : (c.wrG n x).rq = c.rq := rfl
@[simp] theorem Ctx.wrG_nextId (c : Ctx) (n : Nat) (x : Word) : (c.wrG n x).nextId = c.nextId := rfl
@[simp] theorem Ctx.wrG_evq (c : Ctx) (n : Nat) (x : Word) : (c.wrG n x).evq = c.evq := rfl
@[simp] theorem Ctx.wrG_evResv (c : Ctx) (n : Nat) (x : Word) : (c.wrG n x).evResv = c.evResv := rfl
@[simp] theorem Ctx.wrG_arrived (c : Ctx) (n : Nat) (x : Word) : (c.wrG n x).arrived = c.arrived := rfl
@[simp] theorem Ctx.wrG_exiting (c : Ctx) (n : Nat) (x : Word) : (c.wrG n x).exiting = c.exiting := rfl
@[simp] theorem Ctx.wrG_pos (c : Ctx) (n : Nat) (x : Word) : (c.wrG n x).pos = c.pos := rfl
@[simp] theorem Ctx.wrG_hold (c : Ctx) (n : Nat) (x : Word) : (c.wrG n x).hold = c.hold := rfl
@[simp] theorem Ctx.wrG_withdrawn (c : Ctx) (n : Nat) (x : Word) : (c.wrG n x).withdrawn = c.withdrawn := rfl
@[simp] theorem Ctx.wrG_trapped (c : Ctx) (n : Nat) (x : Word) : (c.wrG n x).trapped = c.trapped := rfl
@[simp] theorem Ctx.wrG_halted (c : Ctx) (n : Nat) (x : Word) : (c.wrG n x).halted = c.halted := rfl
@[simp] theorem Ctx.wrG_frame (c : Ctx) (n : Nat) (x : Word) : (c.wrG n x).frame = c.frame := rfl
@[simp] theorem Ctx.wrG_inHdl (c : Ctx) (n : Nat) (x : Word) : (c.wrG n x).inHdl = c.inHdl := rfl

@[simp] theorem Ctx.wrE_kind (c : Ctx) (k l : Nat) (x : Word) : (c.wrE k l x).kind = c.kind := rfl
@[simp] theorem Ctx.wrE_pkg (c : Ctx) (k l : Nat) (x : Word) : (c.wrE k l x).pkg = c.pkg := rfl
@[simp] theorem Ctx.wrE_site (c : Ctx) (k l : Nat) (x : Word) : (c.wrE k l x).site = c.site := rfl
@[simp] theorem Ctx.wrE_grid (c : Ctx) (k l : Nat) (x : Word) : (c.wrE k l x).grid = c.grid := rfl
@[simp] theorem Ctx.wrE_unit (c : Ctx) (k l : Nat) (x : Word) : (c.wrE k l x).unit = c.unit := rfl
@[simp] theorem Ctx.wrE_asid (c : Ctx) (k l : Nat) (x : Word) : (c.wrE k l x).asid = c.asid := rfl
@[simp] theorem Ctx.wrE_index (c : Ctx) (k l : Nat) (x : Word) : (c.wrE k l x).index = c.index := rfl
@[simp] theorem Ctx.wrE_placed (c : Ctx) (k l : Nat) (x : Word) : (c.wrE k l x).placed = c.placed := rfl
@[simp] theorem Ctx.wrE_retired (c : Ctx) (k l : Nat) (x : Word) : (c.wrE k l x).retired = c.retired := rfl
@[simp] theorem Ctx.wrE_resIdx (c : Ctx) (k l : Nat) (x : Word) : (c.wrE k l x).resIdx = c.resIdx := rfl
@[simp] theorem Ctx.wrE_wid (c : Ctx) (k l : Nat) (x : Word) : (c.wrE k l x).wid = c.wid := rfl
@[simp] theorem Ctx.wrE_lanes (c : Ctx) (k l : Nat) (x : Word) : (c.wrE k l x).lanes = c.lanes := rfl
@[simp] theorem Ctx.wrE_v (c : Ctx) (k l : Nat) (x : Word) : (c.wrE k l x).v = c.v := rfl
@[simp] theorem Ctx.wrE_g (c : Ctx) (k l : Nat) (x : Word) : (c.wrE k l x).g = c.g := rfl
@[simp] theorem Ctx.wrE_fpflags (c : Ctx) (k l : Nat) (x : Word) : (c.wrE k l x).fpflags = c.fpflags := rfl
@[simp] theorem Ctx.wrE_stash (c : Ctx) (k l : Nat) (x : Word) : (c.wrE k l x).stash = c.stash := rfl
@[simp] theorem Ctx.wrE_tiles (c : Ctx) (k l : Nat) (x : Word) : (c.wrE k l x).tiles = c.tiles := rfl
@[simp] theorem Ctx.wrE_accs (c : Ctx) (k l : Nat) (x : Word) : (c.wrE k l x).accs = c.accs := rfl
@[simp] theorem Ctx.wrE_scales (c : Ctx) (k l : Nat) (x : Word) : (c.wrE k l x).scales = c.scales := rfl
@[simp] theorem Ctx.wrE_sctl (c : Ctx) (k l : Nat) (x : Word) : (c.wrE k l x).sctl = c.sctl := rfl
@[simp] theorem Ctx.wrE_vtags (c : Ctx) (k l : Nat) (x : Word) : (c.wrE k l x).vtags = c.vtags := rfl
@[simp] theorem Ctx.wrE_ttags (c : Ctx) (k l : Nat) (x : Word) : (c.wrE k l x).ttags = c.ttags := rfl
@[simp] theorem Ctx.wrE_strA (c : Ctx) (k l : Nat) (x : Word) : (c.wrE k l x).strA = c.strA := rfl
@[simp] theorem Ctx.wrE_strB (c : Ctx) (k l : Nat) (x : Word) : (c.wrE k l x).strB = c.strB := rfl
@[simp] theorem Ctx.wrE_rq (c : Ctx) (k l : Nat) (x : Word) : (c.wrE k l x).rq = c.rq := rfl
@[simp] theorem Ctx.wrE_nextId (c : Ctx) (k l : Nat) (x : Word) : (c.wrE k l x).nextId = c.nextId := rfl
@[simp] theorem Ctx.wrE_evq (c : Ctx) (k l : Nat) (x : Word) : (c.wrE k l x).evq = c.evq := rfl
@[simp] theorem Ctx.wrE_evResv (c : Ctx) (k l : Nat) (x : Word) : (c.wrE k l x).evResv = c.evResv := rfl
@[simp] theorem Ctx.wrE_arrived (c : Ctx) (k l : Nat) (x : Word) : (c.wrE k l x).arrived = c.arrived := rfl
@[simp] theorem Ctx.wrE_exiting (c : Ctx) (k l : Nat) (x : Word) : (c.wrE k l x).exiting = c.exiting := rfl
@[simp] theorem Ctx.wrE_pos (c : Ctx) (k l : Nat) (x : Word) : (c.wrE k l x).pos = c.pos := rfl
@[simp] theorem Ctx.wrE_hold (c : Ctx) (k l : Nat) (x : Word) : (c.wrE k l x).hold = c.hold := rfl
@[simp] theorem Ctx.wrE_withdrawn (c : Ctx) (k l : Nat) (x : Word) : (c.wrE k l x).withdrawn = c.withdrawn := rfl
@[simp] theorem Ctx.wrE_trapped (c : Ctx) (k l : Nat) (x : Word) : (c.wrE k l x).trapped = c.trapped := rfl
@[simp] theorem Ctx.wrE_halted (c : Ctx) (k l : Nat) (x : Word) : (c.wrE k l x).halted = c.halted := rfl
@[simp] theorem Ctx.wrE_frame (c : Ctx) (k l : Nat) (x : Word) : (c.wrE k l x).frame = c.frame := rfl
@[simp] theorem Ctx.wrE_inHdl (c : Ctx) (k l : Nat) (x : Word) : (c.wrE k l x).inHdl = c.inHdl := rfl

@[simp] theorem Ctx.modLane_kind (c : Ctx) (l : Nat) (f : Lane → Lane) : (c.modLane l f).kind = c.kind := rfl
@[simp] theorem Ctx.modLane_pkg (c : Ctx) (l : Nat) (f : Lane → Lane) : (c.modLane l f).pkg = c.pkg := rfl
@[simp] theorem Ctx.modLane_site (c : Ctx) (l : Nat) (f : Lane → Lane) : (c.modLane l f).site = c.site := rfl
@[simp] theorem Ctx.modLane_grid (c : Ctx) (l : Nat) (f : Lane → Lane) : (c.modLane l f).grid = c.grid := rfl
@[simp] theorem Ctx.modLane_unit (c : Ctx) (l : Nat) (f : Lane → Lane) : (c.modLane l f).unit = c.unit := rfl
@[simp] theorem Ctx.modLane_asid (c : Ctx) (l : Nat) (f : Lane → Lane) : (c.modLane l f).asid = c.asid := rfl
@[simp] theorem Ctx.modLane_index (c : Ctx) (l : Nat) (f : Lane → Lane) : (c.modLane l f).index = c.index := rfl
@[simp] theorem Ctx.modLane_placed (c : Ctx) (l : Nat) (f : Lane → Lane) : (c.modLane l f).placed = c.placed := rfl
@[simp] theorem Ctx.modLane_retired (c : Ctx) (l : Nat) (f : Lane → Lane) : (c.modLane l f).retired = c.retired := rfl
@[simp] theorem Ctx.modLane_resIdx (c : Ctx) (l : Nat) (f : Lane → Lane) : (c.modLane l f).resIdx = c.resIdx := rfl
@[simp] theorem Ctx.modLane_wid (c : Ctx) (l : Nat) (f : Lane → Lane) : (c.modLane l f).wid = c.wid := rfl
@[simp] theorem Ctx.modLane_v (c : Ctx) (l : Nat) (f : Lane → Lane) : (c.modLane l f).v = c.v := rfl
@[simp] theorem Ctx.modLane_g (c : Ctx) (l : Nat) (f : Lane → Lane) : (c.modLane l f).g = c.g := rfl
@[simp] theorem Ctx.modLane_e (c : Ctx) (l : Nat) (f : Lane → Lane) : (c.modLane l f).e = c.e := rfl
@[simp] theorem Ctx.modLane_fpflags (c : Ctx) (l : Nat) (f : Lane → Lane) : (c.modLane l f).fpflags = c.fpflags := rfl
@[simp] theorem Ctx.modLane_stash (c : Ctx) (l : Nat) (f : Lane → Lane) : (c.modLane l f).stash = c.stash := rfl
@[simp] theorem Ctx.modLane_tiles (c : Ctx) (l : Nat) (f : Lane → Lane) : (c.modLane l f).tiles = c.tiles := rfl
@[simp] theorem Ctx.modLane_accs (c : Ctx) (l : Nat) (f : Lane → Lane) : (c.modLane l f).accs = c.accs := rfl
@[simp] theorem Ctx.modLane_scales (c : Ctx) (l : Nat) (f : Lane → Lane) : (c.modLane l f).scales = c.scales := rfl
@[simp] theorem Ctx.modLane_sctl (c : Ctx) (l : Nat) (f : Lane → Lane) : (c.modLane l f).sctl = c.sctl := rfl
@[simp] theorem Ctx.modLane_vtags (c : Ctx) (l : Nat) (f : Lane → Lane) : (c.modLane l f).vtags = c.vtags := rfl
@[simp] theorem Ctx.modLane_ttags (c : Ctx) (l : Nat) (f : Lane → Lane) : (c.modLane l f).ttags = c.ttags := rfl
@[simp] theorem Ctx.modLane_strA (c : Ctx) (l : Nat) (f : Lane → Lane) : (c.modLane l f).strA = c.strA := rfl
@[simp] theorem Ctx.modLane_strB (c : Ctx) (l : Nat) (f : Lane → Lane) : (c.modLane l f).strB = c.strB := rfl
@[simp] theorem Ctx.modLane_rq (c : Ctx) (l : Nat) (f : Lane → Lane) : (c.modLane l f).rq = c.rq := rfl
@[simp] theorem Ctx.modLane_nextId (c : Ctx) (l : Nat) (f : Lane → Lane) : (c.modLane l f).nextId = c.nextId := rfl
@[simp] theorem Ctx.modLane_evq (c : Ctx) (l : Nat) (f : Lane → Lane) : (c.modLane l f).evq = c.evq := rfl
@[simp] theorem Ctx.modLane_evResv (c : Ctx) (l : Nat) (f : Lane → Lane) : (c.modLane l f).evResv = c.evResv := rfl
@[simp] theorem Ctx.modLane_arrived (c : Ctx) (l : Nat) (f : Lane → Lane) : (c.modLane l f).arrived = c.arrived := rfl
@[simp] theorem Ctx.modLane_exiting (c : Ctx) (l : Nat) (f : Lane → Lane) : (c.modLane l f).exiting = c.exiting := rfl
@[simp] theorem Ctx.modLane_pos (c : Ctx) (l : Nat) (f : Lane → Lane) : (c.modLane l f).pos = c.pos := rfl
@[simp] theorem Ctx.modLane_hold (c : Ctx) (l : Nat) (f : Lane → Lane) : (c.modLane l f).hold = c.hold := rfl
@[simp] theorem Ctx.modLane_withdrawn (c : Ctx) (l : Nat) (f : Lane → Lane) : (c.modLane l f).withdrawn = c.withdrawn := rfl
@[simp] theorem Ctx.modLane_trapped (c : Ctx) (l : Nat) (f : Lane → Lane) : (c.modLane l f).trapped = c.trapped := rfl
@[simp] theorem Ctx.modLane_halted (c : Ctx) (l : Nat) (f : Lane → Lane) : (c.modLane l f).halted = c.halted := rfl
@[simp] theorem Ctx.modLane_frame (c : Ctx) (l : Nat) (f : Lane → Lane) : (c.modLane l f).frame = c.frame := rfl
@[simp] theorem Ctx.modLane_inHdl (c : Ctx) (l : Nat) (f : Lane → Lane) : (c.modLane l f).inHdl = c.inHdl := rfl

@[simp] theorem Ctx.setFlags_kind (c : Ctx) (f : BitVec 6) : (c.setFlags f).kind = c.kind := rfl
@[simp] theorem Ctx.setFlags_pkg (c : Ctx) (f : BitVec 6) : (c.setFlags f).pkg = c.pkg := rfl
@[simp] theorem Ctx.setFlags_site (c : Ctx) (f : BitVec 6) : (c.setFlags f).site = c.site := rfl
@[simp] theorem Ctx.setFlags_grid (c : Ctx) (f : BitVec 6) : (c.setFlags f).grid = c.grid := rfl
@[simp] theorem Ctx.setFlags_unit (c : Ctx) (f : BitVec 6) : (c.setFlags f).unit = c.unit := rfl
@[simp] theorem Ctx.setFlags_asid (c : Ctx) (f : BitVec 6) : (c.setFlags f).asid = c.asid := rfl
@[simp] theorem Ctx.setFlags_index (c : Ctx) (f : BitVec 6) : (c.setFlags f).index = c.index := rfl
@[simp] theorem Ctx.setFlags_placed (c : Ctx) (f : BitVec 6) : (c.setFlags f).placed = c.placed := rfl
@[simp] theorem Ctx.setFlags_retired (c : Ctx) (f : BitVec 6) : (c.setFlags f).retired = c.retired := rfl
@[simp] theorem Ctx.setFlags_resIdx (c : Ctx) (f : BitVec 6) : (c.setFlags f).resIdx = c.resIdx := rfl
@[simp] theorem Ctx.setFlags_wid (c : Ctx) (f : BitVec 6) : (c.setFlags f).wid = c.wid := rfl
@[simp] theorem Ctx.setFlags_lanes (c : Ctx) (f : BitVec 6) : (c.setFlags f).lanes = c.lanes := rfl
@[simp] theorem Ctx.setFlags_v (c : Ctx) (f : BitVec 6) : (c.setFlags f).v = c.v := rfl
@[simp] theorem Ctx.setFlags_g (c : Ctx) (f : BitVec 6) : (c.setFlags f).g = c.g := rfl
@[simp] theorem Ctx.setFlags_e (c : Ctx) (f : BitVec 6) : (c.setFlags f).e = c.e := rfl
@[simp] theorem Ctx.setFlags_stash (c : Ctx) (f : BitVec 6) : (c.setFlags f).stash = c.stash := rfl
@[simp] theorem Ctx.setFlags_tiles (c : Ctx) (f : BitVec 6) : (c.setFlags f).tiles = c.tiles := rfl
@[simp] theorem Ctx.setFlags_accs (c : Ctx) (f : BitVec 6) : (c.setFlags f).accs = c.accs := rfl
@[simp] theorem Ctx.setFlags_scales (c : Ctx) (f : BitVec 6) : (c.setFlags f).scales = c.scales := rfl
@[simp] theorem Ctx.setFlags_sctl (c : Ctx) (f : BitVec 6) : (c.setFlags f).sctl = c.sctl := rfl
@[simp] theorem Ctx.setFlags_vtags (c : Ctx) (f : BitVec 6) : (c.setFlags f).vtags = c.vtags := rfl
@[simp] theorem Ctx.setFlags_ttags (c : Ctx) (f : BitVec 6) : (c.setFlags f).ttags = c.ttags := rfl
@[simp] theorem Ctx.setFlags_strA (c : Ctx) (f : BitVec 6) : (c.setFlags f).strA = c.strA := rfl
@[simp] theorem Ctx.setFlags_strB (c : Ctx) (f : BitVec 6) : (c.setFlags f).strB = c.strB := rfl
@[simp] theorem Ctx.setFlags_rq (c : Ctx) (f : BitVec 6) : (c.setFlags f).rq = c.rq := rfl
@[simp] theorem Ctx.setFlags_nextId (c : Ctx) (f : BitVec 6) : (c.setFlags f).nextId = c.nextId := rfl
@[simp] theorem Ctx.setFlags_evq (c : Ctx) (f : BitVec 6) : (c.setFlags f).evq = c.evq := rfl
@[simp] theorem Ctx.setFlags_evResv (c : Ctx) (f : BitVec 6) : (c.setFlags f).evResv = c.evResv := rfl
@[simp] theorem Ctx.setFlags_arrived (c : Ctx) (f : BitVec 6) : (c.setFlags f).arrived = c.arrived := rfl
@[simp] theorem Ctx.setFlags_exiting (c : Ctx) (f : BitVec 6) : (c.setFlags f).exiting = c.exiting := rfl
@[simp] theorem Ctx.setFlags_pos (c : Ctx) (f : BitVec 6) : (c.setFlags f).pos = c.pos := rfl
@[simp] theorem Ctx.setFlags_hold (c : Ctx) (f : BitVec 6) : (c.setFlags f).hold = c.hold := rfl
@[simp] theorem Ctx.setFlags_withdrawn (c : Ctx) (f : BitVec 6) : (c.setFlags f).withdrawn = c.withdrawn := rfl
@[simp] theorem Ctx.setFlags_trapped (c : Ctx) (f : BitVec 6) : (c.setFlags f).trapped = c.trapped := rfl
@[simp] theorem Ctx.setFlags_halted (c : Ctx) (f : BitVec 6) : (c.setFlags f).halted = c.halted := rfl
@[simp] theorem Ctx.setFlags_frame (c : Ctx) (f : BitVec 6) : (c.setFlags f).frame = c.frame := rfl
@[simp] theorem Ctx.setFlags_inHdl (c : Ctx) (f : BitVec 6) : (c.setFlags f).inHdl = c.inHdl := rfl

@[simp] theorem Ctx.push_kind (c : Ctx) (l : Nat) (b : Bool) : (c.push l b).kind = c.kind := rfl
@[simp] theorem Ctx.push_pkg (c : Ctx) (l : Nat) (b : Bool) : (c.push l b).pkg = c.pkg := rfl
@[simp] theorem Ctx.push_site (c : Ctx) (l : Nat) (b : Bool) : (c.push l b).site = c.site := rfl
@[simp] theorem Ctx.push_grid (c : Ctx) (l : Nat) (b : Bool) : (c.push l b).grid = c.grid := rfl
@[simp] theorem Ctx.push_unit (c : Ctx) (l : Nat) (b : Bool) : (c.push l b).unit = c.unit := rfl
@[simp] theorem Ctx.push_asid (c : Ctx) (l : Nat) (b : Bool) : (c.push l b).asid = c.asid := rfl
@[simp] theorem Ctx.push_index (c : Ctx) (l : Nat) (b : Bool) : (c.push l b).index = c.index := rfl
@[simp] theorem Ctx.push_placed (c : Ctx) (l : Nat) (b : Bool) : (c.push l b).placed = c.placed := rfl
@[simp] theorem Ctx.push_retired (c : Ctx) (l : Nat) (b : Bool) : (c.push l b).retired = c.retired := rfl
@[simp] theorem Ctx.push_resIdx (c : Ctx) (l : Nat) (b : Bool) : (c.push l b).resIdx = c.resIdx := rfl
@[simp] theorem Ctx.push_wid (c : Ctx) (l : Nat) (b : Bool) : (c.push l b).wid = c.wid := rfl
@[simp] theorem Ctx.push_v (c : Ctx) (l : Nat) (b : Bool) : (c.push l b).v = c.v := rfl
@[simp] theorem Ctx.push_g (c : Ctx) (l : Nat) (b : Bool) : (c.push l b).g = c.g := rfl
@[simp] theorem Ctx.push_e (c : Ctx) (l : Nat) (b : Bool) : (c.push l b).e = c.e := rfl
@[simp] theorem Ctx.push_fpflags (c : Ctx) (l : Nat) (b : Bool) : (c.push l b).fpflags = c.fpflags := rfl
@[simp] theorem Ctx.push_stash (c : Ctx) (l : Nat) (b : Bool) : (c.push l b).stash = c.stash := rfl
@[simp] theorem Ctx.push_tiles (c : Ctx) (l : Nat) (b : Bool) : (c.push l b).tiles = c.tiles := rfl
@[simp] theorem Ctx.push_accs (c : Ctx) (l : Nat) (b : Bool) : (c.push l b).accs = c.accs := rfl
@[simp] theorem Ctx.push_scales (c : Ctx) (l : Nat) (b : Bool) : (c.push l b).scales = c.scales := rfl
@[simp] theorem Ctx.push_sctl (c : Ctx) (l : Nat) (b : Bool) : (c.push l b).sctl = c.sctl := rfl
@[simp] theorem Ctx.push_vtags (c : Ctx) (l : Nat) (b : Bool) : (c.push l b).vtags = c.vtags := rfl
@[simp] theorem Ctx.push_ttags (c : Ctx) (l : Nat) (b : Bool) : (c.push l b).ttags = c.ttags := rfl
@[simp] theorem Ctx.push_strA (c : Ctx) (l : Nat) (b : Bool) : (c.push l b).strA = c.strA := rfl
@[simp] theorem Ctx.push_strB (c : Ctx) (l : Nat) (b : Bool) : (c.push l b).strB = c.strB := rfl
@[simp] theorem Ctx.push_rq (c : Ctx) (l : Nat) (b : Bool) : (c.push l b).rq = c.rq := rfl
@[simp] theorem Ctx.push_nextId (c : Ctx) (l : Nat) (b : Bool) : (c.push l b).nextId = c.nextId := rfl
@[simp] theorem Ctx.push_evq (c : Ctx) (l : Nat) (b : Bool) : (c.push l b).evq = c.evq := rfl
@[simp] theorem Ctx.push_evResv (c : Ctx) (l : Nat) (b : Bool) : (c.push l b).evResv = c.evResv := rfl
@[simp] theorem Ctx.push_arrived (c : Ctx) (l : Nat) (b : Bool) : (c.push l b).arrived = c.arrived := rfl
@[simp] theorem Ctx.push_exiting (c : Ctx) (l : Nat) (b : Bool) : (c.push l b).exiting = c.exiting := rfl
@[simp] theorem Ctx.push_pos (c : Ctx) (l : Nat) (b : Bool) : (c.push l b).pos = c.pos := rfl
@[simp] theorem Ctx.push_hold (c : Ctx) (l : Nat) (b : Bool) : (c.push l b).hold = c.hold := rfl
@[simp] theorem Ctx.push_withdrawn (c : Ctx) (l : Nat) (b : Bool) : (c.push l b).withdrawn = c.withdrawn := rfl
@[simp] theorem Ctx.push_trapped (c : Ctx) (l : Nat) (b : Bool) : (c.push l b).trapped = c.trapped := rfl
@[simp] theorem Ctx.push_halted (c : Ctx) (l : Nat) (b : Bool) : (c.push l b).halted = c.halted := rfl
@[simp] theorem Ctx.push_frame (c : Ctx) (l : Nat) (b : Bool) : (c.push l b).frame = c.frame := rfl
@[simp] theorem Ctx.push_inHdl (c : Ctx) (l : Nat) (b : Bool) : (c.push l b).inHdl = c.inHdl := rfl

@[simp] theorem Ctx.wrAcc_kind (c : Ctx) (a i j : Nat) (x : Word) : (c.wrAcc a i j x).kind = c.kind := rfl
@[simp] theorem Ctx.wrAcc_pkg (c : Ctx) (a i j : Nat) (x : Word) : (c.wrAcc a i j x).pkg = c.pkg := rfl
@[simp] theorem Ctx.wrAcc_site (c : Ctx) (a i j : Nat) (x : Word) : (c.wrAcc a i j x).site = c.site := rfl
@[simp] theorem Ctx.wrAcc_grid (c : Ctx) (a i j : Nat) (x : Word) : (c.wrAcc a i j x).grid = c.grid := rfl
@[simp] theorem Ctx.wrAcc_unit (c : Ctx) (a i j : Nat) (x : Word) : (c.wrAcc a i j x).unit = c.unit := rfl
@[simp] theorem Ctx.wrAcc_asid (c : Ctx) (a i j : Nat) (x : Word) : (c.wrAcc a i j x).asid = c.asid := rfl
@[simp] theorem Ctx.wrAcc_index (c : Ctx) (a i j : Nat) (x : Word) : (c.wrAcc a i j x).index = c.index := rfl
@[simp] theorem Ctx.wrAcc_placed (c : Ctx) (a i j : Nat) (x : Word) : (c.wrAcc a i j x).placed = c.placed := rfl
@[simp] theorem Ctx.wrAcc_retired (c : Ctx) (a i j : Nat) (x : Word) : (c.wrAcc a i j x).retired = c.retired := rfl
@[simp] theorem Ctx.wrAcc_resIdx (c : Ctx) (a i j : Nat) (x : Word) : (c.wrAcc a i j x).resIdx = c.resIdx := rfl
@[simp] theorem Ctx.wrAcc_wid (c : Ctx) (a i j : Nat) (x : Word) : (c.wrAcc a i j x).wid = c.wid := rfl
@[simp] theorem Ctx.wrAcc_lanes (c : Ctx) (a i j : Nat) (x : Word) : (c.wrAcc a i j x).lanes = c.lanes := rfl
@[simp] theorem Ctx.wrAcc_v (c : Ctx) (a i j : Nat) (x : Word) : (c.wrAcc a i j x).v = c.v := rfl
@[simp] theorem Ctx.wrAcc_g (c : Ctx) (a i j : Nat) (x : Word) : (c.wrAcc a i j x).g = c.g := rfl
@[simp] theorem Ctx.wrAcc_e (c : Ctx) (a i j : Nat) (x : Word) : (c.wrAcc a i j x).e = c.e := rfl
@[simp] theorem Ctx.wrAcc_fpflags (c : Ctx) (a i j : Nat) (x : Word) : (c.wrAcc a i j x).fpflags = c.fpflags := rfl
@[simp] theorem Ctx.wrAcc_stash (c : Ctx) (a i j : Nat) (x : Word) : (c.wrAcc a i j x).stash = c.stash := rfl
@[simp] theorem Ctx.wrAcc_tiles (c : Ctx) (a i j : Nat) (x : Word) : (c.wrAcc a i j x).tiles = c.tiles := rfl
@[simp] theorem Ctx.wrAcc_scales (c : Ctx) (a i j : Nat) (x : Word) : (c.wrAcc a i j x).scales = c.scales := rfl
@[simp] theorem Ctx.wrAcc_sctl (c : Ctx) (a i j : Nat) (x : Word) : (c.wrAcc a i j x).sctl = c.sctl := rfl
@[simp] theorem Ctx.wrAcc_vtags (c : Ctx) (a i j : Nat) (x : Word) : (c.wrAcc a i j x).vtags = c.vtags := rfl
@[simp] theorem Ctx.wrAcc_ttags (c : Ctx) (a i j : Nat) (x : Word) : (c.wrAcc a i j x).ttags = c.ttags := rfl
@[simp] theorem Ctx.wrAcc_strA (c : Ctx) (a i j : Nat) (x : Word) : (c.wrAcc a i j x).strA = c.strA := rfl
@[simp] theorem Ctx.wrAcc_strB (c : Ctx) (a i j : Nat) (x : Word) : (c.wrAcc a i j x).strB = c.strB := rfl
@[simp] theorem Ctx.wrAcc_rq (c : Ctx) (a i j : Nat) (x : Word) : (c.wrAcc a i j x).rq = c.rq := rfl
@[simp] theorem Ctx.wrAcc_nextId (c : Ctx) (a i j : Nat) (x : Word) : (c.wrAcc a i j x).nextId = c.nextId := rfl
@[simp] theorem Ctx.wrAcc_evq (c : Ctx) (a i j : Nat) (x : Word) : (c.wrAcc a i j x).evq = c.evq := rfl
@[simp] theorem Ctx.wrAcc_evResv (c : Ctx) (a i j : Nat) (x : Word) : (c.wrAcc a i j x).evResv = c.evResv := rfl
@[simp] theorem Ctx.wrAcc_arrived (c : Ctx) (a i j : Nat) (x : Word) : (c.wrAcc a i j x).arrived = c.arrived := rfl
@[simp] theorem Ctx.wrAcc_exiting (c : Ctx) (a i j : Nat) (x : Word) : (c.wrAcc a i j x).exiting = c.exiting := rfl
@[simp] theorem Ctx.wrAcc_pos (c : Ctx) (a i j : Nat) (x : Word) : (c.wrAcc a i j x).pos = c.pos := rfl
@[simp] theorem Ctx.wrAcc_hold (c : Ctx) (a i j : Nat) (x : Word) : (c.wrAcc a i j x).hold = c.hold := rfl
@[simp] theorem Ctx.wrAcc_withdrawn (c : Ctx) (a i j : Nat) (x : Word) : (c.wrAcc a i j x).withdrawn = c.withdrawn := rfl
@[simp] theorem Ctx.wrAcc_trapped (c : Ctx) (a i j : Nat) (x : Word) : (c.wrAcc a i j x).trapped = c.trapped := rfl
@[simp] theorem Ctx.wrAcc_halted (c : Ctx) (a i j : Nat) (x : Word) : (c.wrAcc a i j x).halted = c.halted := rfl
@[simp] theorem Ctx.wrAcc_frame (c : Ctx) (a i j : Nat) (x : Word) : (c.wrAcc a i j x).frame = c.frame := rfl
@[simp] theorem Ctx.wrAcc_inHdl (c : Ctx) (a i j : Nat) (x : Word) : (c.wrAcc a i j x).inHdl = c.inHdl := rfl

@[simp] theorem Ctx.wrTile_kind (c : Ctx) (t off : Nat) (bs : List Byte) : (c.wrTile t off bs).kind = c.kind := rfl
@[simp] theorem Ctx.wrTile_pkg (c : Ctx) (t off : Nat) (bs : List Byte) : (c.wrTile t off bs).pkg = c.pkg := rfl
@[simp] theorem Ctx.wrTile_site (c : Ctx) (t off : Nat) (bs : List Byte) : (c.wrTile t off bs).site = c.site := rfl
@[simp] theorem Ctx.wrTile_grid (c : Ctx) (t off : Nat) (bs : List Byte) : (c.wrTile t off bs).grid = c.grid := rfl
@[simp] theorem Ctx.wrTile_unit (c : Ctx) (t off : Nat) (bs : List Byte) : (c.wrTile t off bs).unit = c.unit := rfl
@[simp] theorem Ctx.wrTile_asid (c : Ctx) (t off : Nat) (bs : List Byte) : (c.wrTile t off bs).asid = c.asid := rfl
@[simp] theorem Ctx.wrTile_index (c : Ctx) (t off : Nat) (bs : List Byte) : (c.wrTile t off bs).index = c.index := rfl
@[simp] theorem Ctx.wrTile_placed (c : Ctx) (t off : Nat) (bs : List Byte) : (c.wrTile t off bs).placed = c.placed := rfl
@[simp] theorem Ctx.wrTile_retired (c : Ctx) (t off : Nat) (bs : List Byte) : (c.wrTile t off bs).retired = c.retired := rfl
@[simp] theorem Ctx.wrTile_resIdx (c : Ctx) (t off : Nat) (bs : List Byte) : (c.wrTile t off bs).resIdx = c.resIdx := rfl
@[simp] theorem Ctx.wrTile_wid (c : Ctx) (t off : Nat) (bs : List Byte) : (c.wrTile t off bs).wid = c.wid := rfl
@[simp] theorem Ctx.wrTile_lanes (c : Ctx) (t off : Nat) (bs : List Byte) : (c.wrTile t off bs).lanes = c.lanes := rfl
@[simp] theorem Ctx.wrTile_v (c : Ctx) (t off : Nat) (bs : List Byte) : (c.wrTile t off bs).v = c.v := rfl
@[simp] theorem Ctx.wrTile_g (c : Ctx) (t off : Nat) (bs : List Byte) : (c.wrTile t off bs).g = c.g := rfl
@[simp] theorem Ctx.wrTile_e (c : Ctx) (t off : Nat) (bs : List Byte) : (c.wrTile t off bs).e = c.e := rfl
@[simp] theorem Ctx.wrTile_fpflags (c : Ctx) (t off : Nat) (bs : List Byte) : (c.wrTile t off bs).fpflags = c.fpflags := rfl
@[simp] theorem Ctx.wrTile_stash (c : Ctx) (t off : Nat) (bs : List Byte) : (c.wrTile t off bs).stash = c.stash := rfl
@[simp] theorem Ctx.wrTile_accs (c : Ctx) (t off : Nat) (bs : List Byte) : (c.wrTile t off bs).accs = c.accs := rfl
@[simp] theorem Ctx.wrTile_scales (c : Ctx) (t off : Nat) (bs : List Byte) : (c.wrTile t off bs).scales = c.scales := rfl
@[simp] theorem Ctx.wrTile_sctl (c : Ctx) (t off : Nat) (bs : List Byte) : (c.wrTile t off bs).sctl = c.sctl := rfl
@[simp] theorem Ctx.wrTile_vtags (c : Ctx) (t off : Nat) (bs : List Byte) : (c.wrTile t off bs).vtags = c.vtags := rfl
@[simp] theorem Ctx.wrTile_ttags (c : Ctx) (t off : Nat) (bs : List Byte) : (c.wrTile t off bs).ttags = c.ttags := rfl
@[simp] theorem Ctx.wrTile_strA (c : Ctx) (t off : Nat) (bs : List Byte) : (c.wrTile t off bs).strA = c.strA := rfl
@[simp] theorem Ctx.wrTile_strB (c : Ctx) (t off : Nat) (bs : List Byte) : (c.wrTile t off bs).strB = c.strB := rfl
@[simp] theorem Ctx.wrTile_rq (c : Ctx) (t off : Nat) (bs : List Byte) : (c.wrTile t off bs).rq = c.rq := rfl
@[simp] theorem Ctx.wrTile_nextId (c : Ctx) (t off : Nat) (bs : List Byte) : (c.wrTile t off bs).nextId = c.nextId := rfl
@[simp] theorem Ctx.wrTile_evq (c : Ctx) (t off : Nat) (bs : List Byte) : (c.wrTile t off bs).evq = c.evq := rfl
@[simp] theorem Ctx.wrTile_evResv (c : Ctx) (t off : Nat) (bs : List Byte) : (c.wrTile t off bs).evResv = c.evResv := rfl
@[simp] theorem Ctx.wrTile_arrived (c : Ctx) (t off : Nat) (bs : List Byte) : (c.wrTile t off bs).arrived = c.arrived := rfl
@[simp] theorem Ctx.wrTile_exiting (c : Ctx) (t off : Nat) (bs : List Byte) : (c.wrTile t off bs).exiting = c.exiting := rfl
@[simp] theorem Ctx.wrTile_pos (c : Ctx) (t off : Nat) (bs : List Byte) : (c.wrTile t off bs).pos = c.pos := rfl
@[simp] theorem Ctx.wrTile_hold (c : Ctx) (t off : Nat) (bs : List Byte) : (c.wrTile t off bs).hold = c.hold := rfl
@[simp] theorem Ctx.wrTile_withdrawn (c : Ctx) (t off : Nat) (bs : List Byte) : (c.wrTile t off bs).withdrawn = c.withdrawn := rfl
@[simp] theorem Ctx.wrTile_trapped (c : Ctx) (t off : Nat) (bs : List Byte) : (c.wrTile t off bs).trapped = c.trapped := rfl
@[simp] theorem Ctx.wrTile_halted (c : Ctx) (t off : Nat) (bs : List Byte) : (c.wrTile t off bs).halted = c.halted := rfl
@[simp] theorem Ctx.wrTile_frame (c : Ctx) (t off : Nat) (bs : List Byte) : (c.wrTile t off bs).frame = c.frame := rfl
@[simp] theorem Ctx.wrTile_inHdl (c : Ctx) (t off : Nat) (bs : List Byte) : (c.wrTile t off bs).inHdl = c.inHdl := rfl

@[simp] theorem Ctx.schedule_kind (c : Ctx) (act : List Nat) : (c.schedule act).kind = c.kind := rfl
@[simp] theorem Ctx.schedule_pkg (c : Ctx) (act : List Nat) : (c.schedule act).pkg = c.pkg := rfl
@[simp] theorem Ctx.schedule_site (c : Ctx) (act : List Nat) : (c.schedule act).site = c.site := rfl
@[simp] theorem Ctx.schedule_grid (c : Ctx) (act : List Nat) : (c.schedule act).grid = c.grid := rfl
@[simp] theorem Ctx.schedule_unit (c : Ctx) (act : List Nat) : (c.schedule act).unit = c.unit := rfl
@[simp] theorem Ctx.schedule_asid (c : Ctx) (act : List Nat) : (c.schedule act).asid = c.asid := rfl
@[simp] theorem Ctx.schedule_index (c : Ctx) (act : List Nat) : (c.schedule act).index = c.index := rfl
@[simp] theorem Ctx.schedule_placed (c : Ctx) (act : List Nat) : (c.schedule act).placed = c.placed := rfl
@[simp] theorem Ctx.schedule_retired (c : Ctx) (act : List Nat) : (c.schedule act).retired = c.retired := rfl
@[simp] theorem Ctx.schedule_resIdx (c : Ctx) (act : List Nat) : (c.schedule act).resIdx = c.resIdx := rfl
@[simp] theorem Ctx.schedule_wid (c : Ctx) (act : List Nat) : (c.schedule act).wid = c.wid := rfl
@[simp] theorem Ctx.schedule_lanes (c : Ctx) (act : List Nat) : (c.schedule act).lanes = c.lanes := rfl
@[simp] theorem Ctx.schedule_v (c : Ctx) (act : List Nat) : (c.schedule act).v = c.v := rfl
@[simp] theorem Ctx.schedule_g (c : Ctx) (act : List Nat) : (c.schedule act).g = c.g := rfl
@[simp] theorem Ctx.schedule_e (c : Ctx) (act : List Nat) : (c.schedule act).e = c.e := rfl
@[simp] theorem Ctx.schedule_fpflags (c : Ctx) (act : List Nat) : (c.schedule act).fpflags = c.fpflags := rfl
@[simp] theorem Ctx.schedule_stash (c : Ctx) (act : List Nat) : (c.schedule act).stash = c.stash := rfl
@[simp] theorem Ctx.schedule_tiles (c : Ctx) (act : List Nat) : (c.schedule act).tiles = c.tiles := rfl
@[simp] theorem Ctx.schedule_accs (c : Ctx) (act : List Nat) : (c.schedule act).accs = c.accs := rfl
@[simp] theorem Ctx.schedule_scales (c : Ctx) (act : List Nat) : (c.schedule act).scales = c.scales := rfl
@[simp] theorem Ctx.schedule_sctl (c : Ctx) (act : List Nat) : (c.schedule act).sctl = c.sctl := rfl
@[simp] theorem Ctx.schedule_vtags (c : Ctx) (act : List Nat) : (c.schedule act).vtags = c.vtags := rfl
@[simp] theorem Ctx.schedule_ttags (c : Ctx) (act : List Nat) : (c.schedule act).ttags = c.ttags := rfl
@[simp] theorem Ctx.schedule_strA (c : Ctx) (act : List Nat) : (c.schedule act).strA = c.strA := rfl
@[simp] theorem Ctx.schedule_strB (c : Ctx) (act : List Nat) : (c.schedule act).strB = c.strB := rfl
@[simp] theorem Ctx.schedule_rq (c : Ctx) (act : List Nat) : (c.schedule act).rq = c.rq := rfl
@[simp] theorem Ctx.schedule_nextId (c : Ctx) (act : List Nat) : (c.schedule act).nextId = c.nextId := rfl
@[simp] theorem Ctx.schedule_evq (c : Ctx) (act : List Nat) : (c.schedule act).evq = c.evq := rfl
@[simp] theorem Ctx.schedule_evResv (c : Ctx) (act : List Nat) : (c.schedule act).evResv = c.evResv := rfl
@[simp] theorem Ctx.schedule_arrived (c : Ctx) (act : List Nat) : (c.schedule act).arrived = c.arrived := rfl
@[simp] theorem Ctx.schedule_exiting (c : Ctx) (act : List Nat) : (c.schedule act).exiting = c.exiting := rfl
@[simp] theorem Ctx.schedule_pos (c : Ctx) (act : List Nat) : (c.schedule act).pos = c.pos := rfl
@[simp] theorem Ctx.schedule_hold (c : Ctx) (act : List Nat) : (c.schedule act).hold = c.hold := rfl
@[simp] theorem Ctx.schedule_withdrawn (c : Ctx) (act : List Nat) : (c.schedule act).withdrawn = c.withdrawn := rfl
@[simp] theorem Ctx.schedule_trapped (c : Ctx) (act : List Nat) : (c.schedule act).trapped = c.trapped := rfl
@[simp] theorem Ctx.schedule_halted (c : Ctx) (act : List Nat) : (c.schedule act).halted = c.halted := rfl
@[simp] theorem Ctx.schedule_frame (c : Ctx) (act : List Nat) : (c.schedule act).frame = c.frame := rfl
@[simp] theorem Ctx.schedule_inHdl (c : Ctx) (act : List Nat) : (c.schedule act).inHdl = c.inHdl := rfl

end Sys2Proof.Machine
end

