-- ==== Sys2Proof/Laws/Gate.lean ====
section
/-! SUPPORT. What an issue does: an instruction whose checks pass and whose own effect is done leaves the state of its
effect, with its cohort moved on. -/

namespace Sys2Proof.Machine

/-! ### Lanes -/

theorem lanesOf_lt {m : Word} {l : Nat} (h : l ∈ lanesOf m) : l < 32 := by
  simp only [lanesOf, List.mem_filter, List.mem_range] at h; exact h.1
theorem lanesOf_nodup (m : Word) : (lanesOf m).Nodup := List.nodup_range.filter _
theorem cohort_lt {s : State} {c : Ctx} {l : Nat} (h : l ∈ s.cohort c) : l < 32 := by
  simp only [State.cohort, List.mem_filter] at h; exact lanesOf_lt h.1
theorem cohort_nodup (s : State) (c : Ctx) : (s.cohort c).Nodup := (lanesOf_nodup _).filter _
theorem Issues.mem {s : State} {i : Instr} {c : Ctx} {act : List Nat} (h : Issues s i c act) {l : Nat} (hl : l ∈ act) :
    l ∈ s.cohort c := by rw [h.acts] at hl; exact (List.mem_filter.1 hl).1
theorem Issues.lt {s : State} {i : Instr} {c : Ctx} {act : List Nat} (h : Issues s i c act) {l : Nat} (hl : l ∈ act) :
    l < 32 := cohort_lt (h.mem hl)
theorem Issues.nodup {s : State} {i : Instr} {c : Ctx} {act : List Nat} (h : Issues s i c act) : act.Nodup := by
  rw [h.acts]; exact (cohort_nodup s c).filter _

theorem Ctx.lane_modLane (c : Ctx) (l : Nat) (f : Lane → Lane) (n : Nat) :
    (c.modLane l f).lane n = if n = l then f (c.lane l) else c.lane n := by
  by_cases h : n = l <;> simp [Ctx.modLane, Ctx.lane, Sparse.find_put, h]
theorem Ctx.lane_modLanes (ls : List Nat) (hn : ls.Nodup) (c : Ctx) (f : Nat → Lane → Lane) (n : Nat) :
    (c.modLanes ls f).lane n = if n ∈ ls then f n (c.lane n) else c.lane n := by
  induction ls generalizing c with
  | nil => simp [Ctx.modLanes]
  | cons x r ih =>
    have hx : x ∉ r := (List.nodup_cons.1 hn).1
    have hr := ih (List.nodup_cons.1 hn).2 (c.modLane x (f x))
    simp only [Ctx.modLanes, List.foldl_cons] at hr ⊢
    rw [hr]
    by_cases h : n = x
    · subst h; simp [hx, Ctx.lane_modLane]
    · by_cases h2 : n ∈ r <;> simp [h, h2, Ctx.lane_modLane]

/-- A part of a context that no step of a fold touches. -/
theorem foldl_keeps {α β σ : Type} (p : σ → β) (f : σ → α → σ) (h : ∀ c x, p (f c x) = p c) (l : List α) (c : σ) :
    p (l.foldl f c) = p c := by
  induction l generalizing c with
  | nil => rfl
  | cons x r ih => simp only [List.foldl_cons, ih, h]
/-- What every step of a fold keeps, the fold keeps. -/
theorem foldl_induct {α σ : Type} (P : σ → Prop) (f : σ → α → σ) (h : ∀ c x, P c → P (f c x)) (l : List α) (c : σ) (hc : P c) :
    P (l.foldl f c) := by
  induction l generalizing c with
  | nil => exact hc
  | cons x r ih => exact ih _ (h _ _ hc)

/-! ### Registers -/

theorem Ctx.rdV_wrV (c : Ctx) (n l : Nat) (x : Word) (m k : Nat) (hl : l < 32) (hk : k < 32) :
    (c.wrV n l x).rdV m k = if m = n ∧ k = l then x else c.rdV m k := by
  simp only [Ctx.rdV, Ctx.wrV, Sparse.get_set]
  by_cases h : m = n ∧ k = l
  · simp [h]
  · have : ¬ 32 * m + k = 32 * n + l := by intro e; apply h; omega
    simp [h, this]
theorem Ctx.rdG_wrG (c : Ctx) (n : Nat) (x : Word) (m : Nat) : (c.wrG n x).rdG m = if m = n then x else c.rdG m := by
  simp only [Ctx.rdG, Ctx.wrG, Sparse.get_set]
theorem Ctx.rdE_wrE (c : Ctx) (n l : Nat) (x : Word) (m k : Nat) (hl : l < 32) (hk : k < 32) :
    (c.wrE n l x).rdE m k = if m = n ∧ k = l then x else c.rdE m k := by
  simp only [Ctx.rdE, Ctx.wrE, Sparse.get_set]
  by_cases h : m = n ∧ k = l
  · simp [h]
  · have : ¬ 32 * m + k = 32 * n + l := by intro e; apply h; omega
    simp [h, this]
theorem Ctx.vtag_wrV (c : Ctx) (n l : Nat) (x : Word) (m : Nat) :
    Sparse.get 0 (c.wrV n l x).vtags m = if m = n then Sparse.get 0 c.vtags m &&& 0x7FFF else Sparse.get 0 c.vtags m := by
  simp only [Ctx.wrV, clearBound, Sparse.get_set]
  by_cases h : m = n <;> simp [h]

/-! ### An issue -/

theorem schedule_lanes (c : Ctx) (act : List Nat) : (c.schedule act).lanes = c.lanes := rfl
theorem schedule_lane (c : Ctx) (act : List Nat) (l : Nat) : (c.schedule act).lane l = c.lane l := rfl

theorem Issues.ctx {s : State} {i : Instr} {c : Ctx} {act : List Nat} (h : Issues s i c act) : s.ctx s.cur.ctx = c :=
  State.ctx_of_find _ _ _ h.found

theorem State.hinted_eq (s : State) (i : Instr) (act : List Nat) :
    s.hinted i act = if isHint i then s else s.modCtx s.cur.ctx (fun c => c.schedule act) := rfl
theorem Issues.hinted_ctx {s : State} {i : Instr} {c : Ctx} {act : List Nat} (h : Issues s i c act) :
    (s.hinted i act).ctx s.cur.ctx = c.begun i act := by
  unfold State.hinted Ctx.begun
  by_cases hi : isHint i
  · simp [hi, h.ctx]
  · simp [hi, State.ctx_modCtx _ _ _ _ h.found]
@[simp] theorem State.hinted_cur (s : State) (i : Instr) (act : List Nat) : (s.hinted i act).cur = s.cur := by
  unfold State.hinted; split <;> rfl

/-- An issue runs its lanes. -/
theorem gate_runs {s : State} {i : Instr} {c : Ctx} {act : List Nat} (h : Issues s i c act) (body : State → Ctx → List Nat → Eff) :
    gate i s body = .next (s.runLanes s.cur.ctx i (s.cohort c) body 34 act) := by
  have hc : (s.cohort c).isEmpty = false := by simpa using h.cohort
  simp only [gate, gateLanes, h.found, hc, ← h.acts]; simp

/-- One round of an issue: the effect in the acting lanes, on the state with their hints noted. -/
theorem runLanes_step {s : State} {i : Instr} {c : Ctx} {act : List Nat} (h : Issues s i c act) (n : Nat)
    (body : State → Ctx → List Nat → Eff) :
    s.runLanes s.cur.ctx i (s.cohort c) body (n + 1) act =
      (let s1 := s.hinted i act
       let fail := fun (cause : Nat) (ls : List Nat) (info : Nat) =>
        if c.kind = .handler then
          let bad := s.laneFaults s.cur.ctx i body act cause ls info
          State.runLanes (bad.foldl (fun t f => t.handlerFail s.cur.ctx [f.1] f.2.1 f.2.2) s) s.cur.ctx i (s.cohort c) body n
            (act.filter (fun l => !bad.any (fun f => decide (f.1 = l))))
        else s.takeTrap s.cur.ctx s.cur.pc (wordOf i) cause ls info none
       match body s1 (c.begun i act) act with
        | .ok s2 => s2.modCtx s.cur.ctx (s.depart i (s.cohort c))
        | .okPc s2 => s2.modCtx s.cur.ctx (s.depart i ((s.cohort c).filter (fun l => !act.contains l)))
        | .trap cause ls info => fail cause ls info
        | .trapOnce cause ls info =>
          if c.kind = .handler then (s.handlerFail s.cur.ctx ls cause info).modCtx s.cur.ctx (fun c' => (c'.advance (s.cohort c)).unheld)
          else s.takeTrap s.cur.ctx s.cur.pc (wordOf i) cause ls info none
        | .wait s2 w => s2.modCtx s.cur.ctx (fun c' =>
            ((c'.advance ((s.cohort c).filter (fun l => !act.contains l))).modLanes act (fun _ x => { x with wait := w })).unheld)
        | .hold hd => s.modCtx s.cur.ctx (fun c' => { c' with
            hold := some (hd, match c'.hold with | some (_, t) => t | none => s.cycle), heldAt := s.cur })) := by
  have he : act.isEmpty = false := by simpa using h.some
  conv => lhs; unfold State.runLanes
  simp only [he, h.ctx, h.checks]
  rw [← State.hinted_eq, h.hinted_ctx]
  rfl

/-- An instruction that is done. -/
theorem gate_ok {s : State} {i : Instr} {c : Ctx} {act : List Nat} {s2 : State} (h : Issues s i c act)
    (body : State → Ctx → List Nat → Eff) (hb : body (s.hinted i act) (c.begun i act) act = .ok s2) :
    gate i s body = .next (s2.modCtx s.cur.ctx (s.depart i (s.cohort c))) := by
  rw [gate_runs h, runLanes_step h 33]; simp only [hb]
/-- An instruction that has set the PCs of its acting lanes. -/
theorem gate_okPc {s : State} {i : Instr} {c : Ctx} {act : List Nat} {s2 : State} (h : Issues s i c act)
    (body : State → Ctx → List Nat → Eff) (hb : body (s.hinted i act) (c.begun i act) act = .okPc s2) :
    gate i s body = .next (s2.modCtx s.cur.ctx (s.depart i ((s.cohort c).filter (fun l => !act.contains l)))) := by
  rw [gate_runs h, runLanes_step h 33]; simp only [hb]
/-- An instruction whose acting lanes wait. -/
theorem gate_wait {s : State} {i : Instr} {c : Ctx} {act : List Nat} {s2 : State} {w : Wait} (h : Issues s i c act)
    (body : State → Ctx → List Nat → Eff) (hb : body (s.hinted i act) (c.begun i act) act = .wait s2 w) :
    gate i s body = .next (s2.modCtx s.cur.ctx (fun c' =>
      ((c'.advance ((s.cohort c).filter (fun l => !act.contains l))).modLanes act (fun _ x => { x with wait := w })).unheld)) := by
  rw [gate_runs h, runLanes_step h 33]; simp only [hb]
/-- An instruction of a group or a sequencer that traps. -/
theorem gate_trap {s : State} {i : Instr} {c : Ctx} {act : List Nat} {cause info : Nat} {ls : List Nat} (h : Issues s i c act)
    (hk : c.kind ≠ .handler) (body : State → Ctx → List Nat → Eff)
    (hb : body (s.hinted i act) (c.begun i act) act = .trap cause ls info) :
    gate i s body = .next (s.takeTrap s.cur.ctx s.cur.pc (wordOf i) cause ls info none) := by
  rw [gate_runs h, runLanes_step h 33]; simp only [hb, hk, if_false]
/-- An instruction that acts once per issue and is done. -/
theorem once_ok {s : State} {i : Instr} {c : Ctx} {act : List Nat} {s2 : State} (h : Issues s i c act)
    (f : State → Ctx → Nat → List Nat → Eff) (hf : f (s.hinted i act) (c.begun i act) (act.headD 0) act = .ok s2) :
    oncePerIssue i s f = .next (s2.modCtx s.cur.ctx (s.depart i (s.cohort c))) := by
  unfold oncePerIssue
  apply gate_ok h
  have := h.some
  cases act with
  | nil => exact absurd rfl this
  | cons l r => simp only [List.headD_cons] at hf; simp only [hf]

end Sys2Proof.Machine
end

