-- ==== Sys2Proof/Laws/Memory.lean ====
section
/-! SUPPORT. Laws of storage: what a byte reads after a write, and that every operation that reaches memory keeps the
canonical form of both memories. -/

namespace Sys2Proof.Machine

/-! ### Reading after a write -/

/-- A byte written reads back, and every other byte reads as before. -/
theorem State.rdByte_wrByte (s : State) (o a : Loc) (b : Byte) (h : s.Place o) :
    (s.wrByte o b).rdByte a = if a = o then b else s.rdByte a := by
  cases o with
  | none => exact absurd h (by simp [State.Place])
  | hbm k =>
    cases a with
    | hbm j => simp [State.wrByte, State.rdByte, Sparse.get_set]
    | none => simp [State.rdByte]
    | host j => simp [State.wrByte, State.rdByte]
    | store v p => rfl
  | host k =>
    cases a with
    | host j => simp [State.wrByte, State.rdByte, Sparse.get_set]
    | none => simp [State.rdByte]
    | hbm j => simp [State.wrByte, State.rdByte]
    | store v p => rfl
  | store u o =>
    have hu : Sparse.find s.units u ≠ none := h
    cases a with
    | none => simp [State.rdByte]
    | hbm j => simp [State.wrByte, State.rdByte]
    | host j => simp [State.wrByte, State.rdByte]
    | store v p =>
      obtain ⟨x, hx⟩ := Option.ne_none_iff_exists'.mp hu
      by_cases hv : v = u
      · subst hv
        simp [State.wrByte, State.rdByte, State.modUnit, State.unit, Sparse.find_adjust, hx, Sparse.get_set]
      · simp [State.wrByte, State.rdByte, State.modUnit, State.unit, Sparse.find_adjust, hv]
/-- A write makes no place and unmakes none. -/
theorem State.place_wrByte (s : State) (o a : Loc) (b : Byte) : (s.wrByte o b).Place a ↔ s.Place a := by
  cases o <;> cases a <;> simp [State.wrByte, State.Place, State.modUnit, Sparse.find_adjust]
  split <;> simp_all
theorem Loc.add_add (o : Loc) (m n : Nat) : (o.add m).add n = o.add (m + n) := by cases o <;> simp [Loc.add, Nat.add_assoc]
theorem Loc.add_inj {o : Loc} (h : o ≠ .none) {m n : Nat} (e : o.add m = o.add n) : m = n := by
  cases o <;> simp_all [Loc.add]
theorem State.place_add (s : State) (o : Loc) (n : Nat) : s.Place (o.add n) ↔ s.Place o := by
  cases o <;> simp [Loc.add, State.Place]
theorem State.Place.ne_none {s : State} {o : Loc} (h : s.Place o) : o ≠ .none := by
  intro e; subst e; exact h

/-- Bytes written from an offset of a place on: they read back, and every other byte reads as before. -/
theorem State.wrFrom_stored (bs : List Byte) (s : State) (o : Loc) (n : Nat) (h : s.Place o) :
    let t := (bs.foldl (fun (p : State × Nat) b => (p.1.wrByte (o.add p.2) b, p.2 + 1)) (s, n)).1
    t.Place o ∧ (∀ i < bs.length, t.rdByte (o.add (n + i)) = bs.getD i 0)
      ∧ ∀ a, (∀ i < bs.length, a ≠ o.add (n + i)) → t.rdByte a = s.rdByte a := by
  induction bs generalizing s n with
  | nil => exact ⟨h, by simp, by simp⟩
  | cons b r ih =>
    have hp : (s.wrByte (o.add n) b).Place o := (s.place_wrByte _ _ _).mpr h
    obtain ⟨h1, h2, h3⟩ := ih (s.wrByte (o.add n) b) (n + 1) hp
    refine ⟨h1, fun i hi => ?_, fun a ha => ?_⟩
    · cases i with
      | zero =>
        have := h3 (o.add n) (fun i _ e => by
          have := Loc.add_inj h.ne_none e
          omega)
        simp only [List.foldl_cons, Nat.add_zero, List.getD_cons_zero]
        rw [this, State.rdByte_wrByte _ _ _ _ ((s.place_add o n).mpr h), if_pos rfl]
      | succ j =>
        have := h2 j (by simpa using hi)
        simp only [List.foldl_cons, List.getD_cons_succ]
        rw [show n + (j + 1) = n + 1 + j by omega]; exact this
    · have e := h3 a (fun i hi => by
        have := ha (i + 1) (by simpa using hi)
        rwa [show n + (i + 1) = n + 1 + i by omega] at this)
      simp only [List.foldl_cons]
      rw [e, State.rdByte_wrByte _ _ _ _ ((s.place_add o n).mpr h), if_neg (by simpa using ha 0 (by simp))]
/-- `wrBytes` stores its bytes and changes no other. -/
theorem State.wrBytes_stored (s : State) (o : Loc) (bs : List Byte) (h : s.Place o) : Stored s (s.wrBytes o bs) o bs := by
  have := State.wrFrom_stored bs s o 0 h
  simp only [Nat.zero_add] at this
  exact this.2
theorem SameBytes.refl (s : State) : SameBytes s s := fun _ => rfl
theorem SameBytes.trans {s t u : State} (h : SameBytes s t) (h' : SameBytes t u) : SameBytes s u := fun a => (h' a).trans (h a)
theorem SameBytes.modPkg (s : State) (p : Nat) (f : Package → Package) : SameBytes s (s.modPkg p f) := fun a => by cases a <;> rfl
theorem SameBytes.modGrid (s : State) (g : Nat) (f : Grid → Grid) : SameBytes s (s.modGrid g f) := fun a => by cases a <;> rfl
theorem SameBytes.modCtx (s : State) (k : Nat) (f : Ctx → Ctx) : SameBytes s (s.modCtx k f) := fun a => by cases a <;> rfl
/-- A change of a unit that leaves its store changes no byte. -/
theorem SameBytes.modUnit (s : State) (u : Nat) (f : WUnit → WUnit) (hf : ∀ x, (f x).store = x.store) : SameBytes s (s.modUnit u f) := by
  intro a
  cases a with
  | store v p =>
    by_cases hv : v = u
    · subst hv
      cases hx : Sparse.find s.units v <;> simp [State.rdByte, State.unit, State.modUnit, Sparse.find_adjust, hx, hf]
    · simp [State.rdByte, State.unit, State.modUnit, Sparse.find_adjust, hv]
  | none => rfl
  | hbm k => rfl
  | host k => rfl

/-! ### The canonical form of the memories -/

/-- Two states with the same memories are canonical together. -/
theorem State.MemOk.of_eq {s t : State} (h : s.MemOk) (e : t.hbm = s.hbm) (e' : t.host = s.host) : t.MemOk := by
  unfold State.MemOk at *
  rw [e, e']; exact h
theorem State.reset_memOk : State.reset.MemOk := ⟨rfl, rfl⟩
theorem State.MemOk.modPkg {s : State} (h : s.MemOk) (p : Nat) (f : Package → Package) : (s.modPkg p f).MemOk := h
theorem State.MemOk.modCtx {s : State} (h : s.MemOk) (k : Nat) (f : Ctx → Ctx) : (s.modCtx k f).MemOk := h
theorem State.MemOk.modUnit {s : State} (h : s.MemOk) (u : Nat) (f : WUnit → WUnit) : (s.modUnit u f).MemOk := h
theorem State.MemOk.modGrid {s : State} (h : s.MemOk) (g : Nat) (f : Grid → Grid) : (s.modGrid g f).MemOk := h
theorem State.MemOk.wrByte {s : State} (h : s.MemOk) (o : Loc) (b : Byte) : (s.wrByte o b).MemOk := by
  obtain ⟨h1, h2⟩ := h
  cases o with
  | none => exact ⟨h1, h2⟩
  | hbm k => exact ⟨Sparse.wf_set _ _ _ _ h1, h2⟩
  | host k => exact ⟨h1, Sparse.wf_set _ _ _ _ h2⟩
  | store u o => exact ⟨h1, h2⟩
/-- A fold of steps that each keep a property of the state it carries keeps it. -/
theorem foldl_fst_induct {α β γ : Type} (P : β → Prop) (f : β × γ → α → β × γ) (hf : ∀ x y, P x.1 → P (f x y).1) (l : List α)
    (x : β × γ) (hx : P x.1) : P (l.foldl f x).1 := by
  induction l generalizing x with
  | nil => exact hx
  | cons a r ih => exact ih _ (hf x a hx)
theorem State.MemOk.wrBytes {s : State} (h : s.MemOk) (o : Loc) (bs : List Byte) : (s.wrBytes o bs).MemOk :=
  foldl_fst_induct State.MemOk _ (fun _ _ hx => hx.wrByte _ _) bs (s, 0) h
theorem State.MemOk.wrWord {s : State} (h : s.MemOk) (o : Loc) (w : Word) : (s.wrWord o w).MemOk := h.wrBytes _ _
theorem State.MemOk.foldl {α : Type} {s : State} (h : s.MemOk) (l : List α) (f : State → α → State)
    (hf : ∀ t x, t.MemOk → (f t x).MemOk) : (l.foldl f s).MemOk := foldl_induct State.MemOk f hf l s h

theorem State.MemOk.releaseSlot {s : State} (h : s.MemOk) (p : Nat) (x : RedSlot) : (s.releaseSlot p x).MemOk :=
  (h.wrWord _ _).modPkg _ _
theorem State.MemOk.releaseSpan {s : State} (h : s.MemOk) (l : Loc) (n : Nat) : (s.releaseSpan l n).MemOk := by
  unfold State.releaseSpan
  dsimp only
  split
  · exact h
  · refine h.foldl _ _ (fun t x ht => ?_)
    split
    · exact ht.releaseSlot _ _
    · exact ht
theorem State.MemOk.dcacheWrite {s : State} (h : s.MemOk) (src : Option (Nat × Nat)) (key : Nat) : (s.dcacheWrite src key).MemOk := h
theorem State.MemOk.dieDrop {s : State} (h : s.MemOk) (p d key : Nat) : (s.dieDrop p d key).MemOk := (h.modPkg _ _).modPkg _ _
theorem State.MemOk.thaw {s : State} (h : s.MemOk) (f : Nat → DieLine → Bool) : (s.thaw f).MemOk :=
  h.foldl _ _ (fun _ _ ht => ht.foldl _ _ (fun _ _ h => h.dieDrop _ _ _))
theorem State.MemOk.dcacheHole {s : State} (h : s.MemOk) (l : Loc) : (s.dcacheHole l).MemOk := by
  unfold State.dcacheHole
  split
  · exact (h.thaw _).of_eq rfl rfl
  · exact h
theorem State.MemOk.orderLate {s : State} (h : s.MemOk) : s.orderLate.MemOk := h
theorem State.MemOk.register {s : State} (h : s.MemOk) (me key : Nat) : (s.register me key).MemOk := h.modPkg _ _
theorem State.MemOk.linger {s : State} (h : s.MemOk) (p die key : Nat) : (s.linger p die key).MemOk := by
  unfold State.linger
  dsimp only
  split <;> exact h
theorem State.MemOk.dirWrite {s : State} (h : s.MemOk) (me : Option Nat) (key : Nat) : (s.dirWrite me key).MemOk := by
  unfold State.dirWrite
  dsimp only
  split <;> exact h
theorem State.MemOk.dieFill {s : State} (h : s.MemOk) (p : Nat) (x : Site) (key : Nat) : (s.dieFill p x key).MemOk := by
  unfold State.dieFill
  dsimp only
  split
  · exact h
  · refine (State.MemOk.modPkg ?_ _ _).register _ _
    split
    · exact h
    · split
      · exact h.dieDrop _ _ _
      · exact h
theorem State.MemOk.writeHome {s : State} (h : s.MemOk) (plain : Bool) (src : Option (Nat × Nat)) (me : Option Nat) (l : Loc)
    (bs : List Byte) : (s.writeHome plain src me l bs).MemOk := by
  unfold State.writeHome
  dsimp only
  split
  · split
    · exact h
    · exact (((h.thaw _).releaseSpan _ _).wrBytes _ _).foldl _ _ (fun t x ht => (ht.dcacheWrite _ _).dirWrite _ _)
  · exact (h.releaseSpan _ _).wrBytes _ _
theorem State.MemOk.homeWrite {s : State} (h : s.MemOk) (src : Option (Nat × Nat)) (me : Option Nat) (l : Loc) (bs : List Byte) :
    (s.homeWrite src me l bs).MemOk := h.writeHome _ _ _ _ _
theorem State.MemOk.homeRead {s : State} (h : s.MemOk) (l : Loc) (n : Nat) : (s.homeRead l n).1.MemOk := h.releaseSpan _ _
theorem State.MemOk.roundOut {s : State} (h : s.MemOk) (p : Nat) (x : RedSlot) : (s.roundOut p x).MemOk :=
  (h.releaseSlot _ _).modPkg _ _
theorem State.MemOk.slotRoom {s t : State} (h : s.MemOk) {p site asid extra : Nat} (e : s.slotRoom p site asid extra = some t) :
    t.MemOk := by
  have go : ∀ (o : Option RedSlot), o.map (s.roundOut p) = some t → t.MemOk := fun o ho => by
    obtain ⟨x, -, rfl⟩ := Option.map_eq_some_iff.mp ho
    exact h.roundOut _ _
  unfold State.slotRoom at e
  dsimp only at e
  generalize (s.pkg p).slotQuota site = quota at e
  generalize slotCap site = cap at e
  split at e
  · exact go _ e
  · split at e
    · exact go _ e
    · cases e; exact h
theorem State.MemOk.takeSlots {s : State} (h : s.MemOk) (p site asid n m : Nat) : (s.takeSlots p site asid n m).1.MemOk := by
  induction n generalizing s m with
  | zero => exact h
  | succ n ih =>
    unfold State.takeSlots
    split
    · next t e => exact ih (h.slotRoom e) _
    · exact h
theorem State.MemOk.openSlot {s : State} {r : State × RedSlot} (h : s.MemOk) {l : Loc} {asid grid : Nat}
    (e : s.openSlot l asid grid = some r) : r.1.MemOk := by
  unfold State.openSlot at e
  split at e
  · cases e; exact h
  · obtain ⟨t, ht, rfl⟩ := Option.map_eq_some_iff.mp e
    exact h.slotRoom ht
theorem State.MemOk.contribute {s t : State} (h : s.MemOk) {l : Loc} {op : RedOp} {c : Word} {asid grid : Nat}
    (e : s.contribute l op c asid grid = some t) : t.MemOk := by
  unfold State.contribute at e
  split at e
  · obtain ⟨r, hr, rfl⟩ := Option.map_eq_some_iff.mp e
    exact ((h.openSlot hr).modPkg _ _).dcacheHole _
  · cases e; exact ((h.releaseSpan _ _).homeWrite _ _ _ _).dcacheHole _
theorem State.MemOk.drainEarly {s : State} (h : s.MemOk) (p : Nat) (f : Early → Bool) : (s.drainEarly p f).MemOk :=
  h.foldl _ _ (fun _ _ ht => (ht.modPkg _ _).writeHome _ _ _ _ _)
theorem State.MemOk.toDie {s : State} (h : s.MemOk) (p die : Nat) (f : Early → Bool) : (s.toDie p die f).MemOk := by
  unfold State.toDie
  dsimp only
  split
  · exact h.drainEarly _ _
  · exact (h.thaw _).modPkg _ _
theorem State.MemOk.drainSpan {s : State} (h : s.MemOk) (p : Nat) (x : Site) (l : Loc) (n : Nat) : (s.drainSpan p x l n).MemOk := by
  unfold State.drainSpan
  split
  · split
    · exact h
    · exact h.drainEarly _ _
  · exact h
theorem State.MemOk.mergeShadow {s : State} (h : s.MemOk) (p : Nat) (x : ShadowWord) : (s.mergeShadow p x).MemOk := by
  unfold State.mergeShadow
  extract_lets old
  have h1 : (if (s.pkg p).early.isEmpty then s else s.drainEarly p old).MemOk := by
    split
    · exact h
    · exact h.drainEarly _ _
  split
  · exact h
  · split
    · exact h
    · next t e => exact (h1.contribute e).modPkg _ _
theorem State.MemOk.mergeShadows {s : State} (h : s.MemOk) (p : Nat) (f : ShadowWord → Bool) : (s.mergeShadows p f).MemOk :=
  h.foldl _ _ (fun _ _ ht => ht.mergeShadow _ _)
theorem State.MemOk.mergeSpan {s : State} (h : s.MemOk) (p : Nat) (x : Site) (l : Loc) (n : Nat) : (s.mergeSpan p x l n).MemOk := by
  unfold State.mergeSpan
  split
  · split
    · exact h
    · exact h.mergeShadows _ _
  · exact h
theorem State.MemOk.shadowAdd {s t : State} (h : s.MemOk) {p die key asid grid : Nat} {op : RedOp} {c : Word}
    (e : s.shadowAdd p die key asid grid op c = some t) : t.MemOk := by
  unfold State.shadowAdd at e
  extract_lets here s1 put at e
  have h1 : s1.MemOk := by
    show (match (s.pkg p).shadows.find? here with | some x => if x.op = op then s else s.mergeShadow p x | none => s : State).MemOk
    split
    · split
      · exact h
      · exact h.mergeShadow _ _
    · exact h
  have go : ∀ v, put v = some t → t.MemOk := fun v hv => by
    cases hv
    exact h1.modPkg _ _
  split at e
  · exact go _ e
  · split at e
    · cases e
    · exact go _ e
theorem State.MemOk.dropKey {s : State} (h : s.MemOk) (p core key : Nat) : (s.dropKey p core key).MemOk := h.modPkg _ _
theorem State.MemOk.fillLine {s : State} (h : s.MemOk) (p core key : Nat) : (s.fillLine p core key).MemOk := by
  unfold State.fillLine
  dsimp only
  refine State.MemOk.modPkg ?_ _ _
  split
  · exact h.dropKey _ _ _
  · split
    · exact (h.dropKey _ _ _).dropKey _ _ _
    · exact h.dropKey _ _ _
theorem State.MemOk.ctxRead {s : State} (h : s.MemOk) (c : Ctx) (l : Loc) (n : Nat) (nc : Bool) : (s.ctxRead c l n nc).1.MemOk := by
  have h1 := h.mergeSpan c.pkg c.site l n
  unfold State.ctxRead
  dsimp only
  split
  · split
    · exact ((h1.foldl _ _ (fun _ _ ht => ht.dropKey _ _ _)).releaseSpan _ _).foldl _ _ (fun _ _ ht => ht.dieFill _ _ _)
    · refine foldl_fst_induct State.MemOk _ (fun x y hx => ?_) _ _ h1
      split
      · exact hx
      · exact ((hx.releaseSpan _ _).dieFill _ _ _).fillLine _ _ _
  · exact (h1.releaseSpan _ _).foldl _ _ (fun _ _ ht => ht.dieFill _ _ _)
  · exact h1.homeRead _ _
theorem State.MemOk.peerFill {s : State} (h : s.MemOk) (p : Nat) (x : Site) (l : Loc) (n : Nat) : (s.peerFill p x l n).MemOk := by
  unfold State.peerFill
  split
  · split
    · exact h
    · exact h.foldl _ _ (fun _ _ ht => ht.dieFill _ _ _)
  · exact h
theorem State.MemOk.ctxWrite {s : State} (h : s.MemOk) (plain : Bool) (c : Ctx) (l : Loc) (bs : List Byte) :
    (s.ctxWrite plain c l bs).MemOk := ((h.mergeSpan _ _ _ _).peerFill _ _ _ _).writeHome _ _ _ _ _
theorem State.MemOk.toHome {s : State} (h : s.MemOk) (c : Ctx) (l : Loc) (n : Nat) : (s.toHome c l n).MemOk := by
  unfold State.toHome
  dsimp only
  split
  · exact ((h.mergeSpan _ _ _ _).drainSpan _ _ _ _).thaw _
  · exact (h.mergeSpan _ _ _ _).drainSpan _ _ _ _
theorem State.MemOk.toAcquire {s : State} (h : s.MemOk) (c : Ctx) (l : Loc) (n : Nat) : (s.toAcquire c l n).MemOk := by
  unfold State.toAcquire
  dsimp only
  split
  · exact (h.drainSpan _ _ _ _).thaw _
  · exact h.drainSpan _ _ _ _
theorem State.MemOk.dropLine {s : State} (h : s.MemOk) (c : Ctx) (l : Loc) : (s.dropLine c l).MemOk := by
  unfold State.dropLine
  split <;> exact h
theorem State.MemOk.acknowledge {s : State} (h : s.MemOk) (p k : Nat) : (s.acknowledge p k).MemOk := (h.thaw _).orderLate
theorem State.MemOk.ite {p : Prop} [Decidable p] {s t : State} (h : s.MemOk) (h' : t.MemOk) : (if p then s else t).MemOk := by
  split
  · exact h
  · exact h'
theorem State.MemOk.release {s : State} (h : s.MemOk) (c : Ctx) (k : Nat) : (s.release c k).MemOk := by
  unfold State.release
  extract_lets s1 s2 s3
  have h1 : s1.MemOk := .ite (h.mergeShadows _ _) h
  have h2 : s2.MemOk := .ite h1 (.ite (h1.drainEarly _ _) (.ite (h1.toDie _ _ _) h1))
  have h3 : s3.MemOk := .ite (h2.acknowledge _ _) h2
  split
  · exact h3
  · exact .ite (h3.modPkg _ _) h3
theorem State.MemOk.acquire {s : State} (h : s.MemOk) (c : Ctx) (k : Nat) : (s.acquire c k).MemOk := by
  unfold State.acquire
  dsimp only
  have h1 : (match s.coreOf c with
    | none => s
    | some (p, core) =>
      if k < 2 then s
      else s.modPkg p (fun q => { q with dlines := q.dlines.filter (fun x =>
        decide (x.core ≠ core) || (decide (s.reach c k = 2) && x.own.contains k)) }) : State).MemOk := by
    split
    · exact h
    · split <;> exact h
  split
  · exact h1
  · exact h1.modPkg _ _
theorem State.MemOk.walkTouch {s : State} (h : s.MemOk) (p va level ppn : Nat) : (s.walkTouch p va level ppn).MemOk := by
  induction level generalizing s ppn with
  | zero =>
    unfold State.walkTouch
    dsimp only
    repeat' split
    all_goals first | exact h | exact h.releaseSpan _ _
  | succ l ih =>
    unfold State.walkTouch
    dsimp only
    repeat' split
    all_goals first | exact h | exact h.releaseSpan _ _ | exact ih (h.releaseSpan _ _) _
theorem State.MemOk.walkReads {s : State} (h : s.MemOk) (p die asid va : Nat) : (s.walkReads p die asid va).MemOk := by
  unfold State.walkReads
  dsimp only
  repeat' split
  all_goals first | exact h | exact h.walkTouch _ _ _ _ | exact (h.releaseSpan _ _).walkTouch _ _ _ _ | exact h.releaseSpan _ _
theorem State.MemOk.translate {s : State} (h : s.MemOk) (y : Party) (va : Nat) (k : AccKind) : (s.translate y va k).1.MemOk := by
  unfold State.translate
  dsimp only
  split
  · exact h
  · split
    · exact (h.walkReads _ _ _ _).modPkg _ _
    · exact h.walkReads _ _ _ _
theorem State.MemOk.sendMsi {s : State} (h : s.MemOk) (p off : Nat) : (s.sendMsi p off).MemOk := by
  unfold State.sendMsi
  dsimp only
  split <;> exact h
theorem State.MemOk.writeFrec {s : State} (h : s.MemOk) (p : Nat) : (s.writeFrec p).MemOk := by
  unfold State.writeFrec
  dsimp only
  split
  · exact h
  · split
    · exact h
    · exact ((h.homeWrite _ _ _ _).modPkg _ _).sendMsi _ _
theorem State.MemOk.newFrec {s : State} (h : s.MemOk) (p : Nat) (r : FRec) : (s.newFrec p r).1.MemOk := by
  unfold State.newFrec
  dsimp only
  split
  · exact h
  · exact (h.modPkg _ _).writeFrec _
theorem State.MemOk.writeTrace {s : State} (h : s.MemOk) (p v : Nat) : (s.writeTrace p v).MemOk := by
  unfold State.writeTrace
  dsimp only
  split
  · exact h.modPkg _ _
  · exact (h.homeWrite _ _ _ _).modPkg _ _
theorem State.MemOk.flushTrace {s : State} (h : s.MemOk) (p : Nat) : (s.flushTrace p).MemOk := by
  unfold State.flushTrace
  split
  · exact h
  · exact (h.modPkg _ _).foldl _ _ (fun _ _ ht => ht.writeTrace _ _)
theorem State.MemOk.parkOn {s : State} (h : s.MemOk) (y : Party) (va kind : Nat) (pte : DWord) (k : AccKind) :
    (s.parkOn y va kind pte k).1.MemOk := by
  unfold State.parkOn
  dsimp only
  split
  · exact h
  · exact h.newFrec _ _
theorem State.MemOk.traceOne {s : State} (h : s.MemOk) (c : Ctx) (kind lane pc target leaf : Nat) :
    (s.traceOne c kind lane pc target leaf).MemOk := by
  unfold State.traceOne
  dsimp only
  generalize (if kind ≤ 3 then _ else _) = on
  split
  · exact h
  · exact h.modPkg _ _
theorem State.MemOk.trace {s : State} (h : s.MemOk) (c : Ctx) (kind : Nat) (ls : List Nat) (pc target : Nat → Nat) :
    (s.trace c kind ls pc target).MemOk := by
  unfold State.trace
  split
  · exact h.foldl _ _ (fun _ _ ht => ht.traceOne _ _ _ _ _ _)
  · exact h
theorem State.MemOk.startAbort {s : State} (h : s.MemOk) (u cause : Nat) : (s.startAbort u cause).MemOk := by
  unfold State.startAbort
  dsimp only
  refine State.MemOk.foldl ?_ _ _ (fun t x ht => ?_)
  · split <;> exact h
  · split <;> exact ht
theorem State.MemOk.startMove {s : State} (h : s.MemOk) (u : Nat) : (s.startMove u).MemOk := by
  unfold State.startMove
  split
  · exact (h.modUnit _ _).foldl _ _ (fun _ _ ht => ht.modCtx _ _)
  · exact (h.modUnit _ _).foldl _ _ (fun _ _ ht => ht.modCtx _ _)
  · exact h
/-- Taking a trap keeps the memories canonical. -/
theorem State.MemOk.takeTrap {s : State} (h : s.MemOk) (k : Nat) (pc : DWord) (word : Word) (cause : Nat) (ls : List Nat) (info : Nat)
    (next : Option Nat) : (s.takeTrap k pc word cause ls info next).MemOk := by
  unfold State.takeTrap
  dsimp only
  split
  · exact h
  · split
    · exact h.startMove _
    · exact (h.modCtx _ _).startAbort _ _
  · generalize hs : (State.trace _ _ _ _ _ _) = t
    have ht : t.MemOk := by
      rw [← hs]
      refine State.MemOk.trace ?_ _ _ _ _ _
      cases next <;> exact h
    split
    · exact ht.startMove _
    · split
      · exact (ht.modCtx _ _).modPkg _ _
      · exact ht.startAbort _ _

end Sys2Proof.Machine
end

