-- ==== Sys2Proof/Laws/Access.lean ====
section
/-! SUPPORT. What the issue of an access gives once its checks pass, and what taking a trap leaves. -/

namespace Sys2Proof.Machine

/-! ### The issue of accesses (R207) -/

/-- No page of a request faults where each translates. -/
theorem State.firstFault_none {s : State} {y : Party} {va len : Nat} {k : AccKind}
    (h : ∀ a ∈ pageStarts va len, ∃ l b, s.xlate y a k = .ok l b) : s.firstFault y va len k = none := by
  unfold State.firstFault
  rw [List.findSome?_eq_none_iff]
  intro a ha
  obtain ⟨l, b, e⟩ := h a ha
  simp [e]
/-- R207: a global access whose requests are taken makes one entry, with what each request captures. -/
theorem memIssue_ok {s : State} {c : Ctx} {cls : Option CClass} {acc : AccKind} {eng : Bool} {reqs : List Req}
    (h : Takes s c cls acc eng reqs) (i : Instr) (leader kind : Nat) (holds : List RegName) (args : List Word) :
    memIssue i s c leader kind acc cls holds args eng reqs =
      (let t := reqs.foldl (fun (t : State × Sparse Cap) r =>
          let u := s.capture t.1 (s.partyOf c eng) acc { va := r.va, len := r.len, data := r.data, policy := policyHint r.hints, hints := r.hints }
          (u.1, Sparse.put t.2 r.lane u.2)) (s, [])
       .ok (t.1.addEntry s.cur.ctx (s.mkEntry c i leader kind cls holds t.2 args))) := by
  have h1 : reqs.filter (fun r => decide (r.va % r.align ≠ 0)) = [] := by
    rw [List.filter_eq_nil_iff]; intro r hr; simpa using h.aligned r hr
  have h2 : reqs.filter (fun r => decide (2 ^ 57 ≤ r.va)) = [] := by
    rw [List.filter_eq_nil_iff]; intro r hr; simpa using h.inside r hr
  have h3 : reqs.filterMap (fun r => (s.firstFault (s.partyOf c eng) r.va r.len acc).map (fun f => (r.lane % 32, f.1, f.2))) = [] := by
    rw [List.filterMap_eq_nil_iff]
    intro r hr
    rw [State.firstFault_none (h.pages r hr)]; rfl
  have h0 : reqFault reqs = none := by
    unfold reqFault
    simp only [h1, h2]
  unfold memIssue faultsFirst
  dsimp only
  rw [h0]
  dsimp only
  rw [h.room]
  dsimp only
  rw [h3]
  cases hk : decide (c.kind = .handler) <;> simp_all
/-- R203 to R207: the same of an access to a local space. -/
theorem localIssue_ok {s : State} {c : Ctx} {cls : Option CClass} {res : Req → LRes} {reqs : List Req}
    (h : TakesLocal s c cls res reqs) (i : Instr) (leader kind : Nat) (holds : List RegName) (args : List Word) :
    localIssue i s c leader kind cls holds args res reqs =
      .ok (s.addEntry s.cur.ctx (s.mkEntry c i leader kind cls holds (reqs.foldl (fun (m : Sparse Cap) r =>
        Sparse.put m r.lane { va := r.va, len := r.len, data := r.data, hints := r.hints, pages := match res r with | .ok l => [l] | _ => [] }) []) args)) := by
  have h1 : reqs.filter (fun r => decide (r.va % r.align ≠ 0)) = [] := by
    rw [List.filter_eq_nil_iff]; intro r hr; simpa using h.aligned r hr
  have h0 : localFault res reqs = none := by
    unfold localFault
    dsimp only
    rw [h1, List.filterMap_eq_nil_iff.mpr ?_]
    intro r hr
    obtain ⟨l, e⟩ := h.placed r hr
    simp [e]
  unfold localIssue faultsFirst
  dsimp only
  rw [h0, List.filterMap_eq_nil_iff.mpr ?_]
  · dsimp only
    rw [h.room]
    all_goals rfl
  · intro r hr
    obtain ⟨l, e⟩ := h.placed r hr
    simp [e]

/-! ### Taking a trap (R369 to R371) -/

/-- A handler takes no trap. -/
theorem State.takeTrap_handler {s : State} {k : Nat} (h : (s.ctx k).kind = .handler) (pc : DWord) (word : Word) (cause : Nat)
    (ls : List Nat) (info : Nat) (next : Option Nat) : s.takeTrap k pc word cause ls info next = s := by
  unfold State.takeTrap
  simp [h]
/-- With traces off, a trap of a group whose package has handlers changes its context, which is trapped with its frame
written, and its core's handler queue, and nothing else. -/
theorem State.takeTrap_group {s : State} {k : Nat} {c : Ctx} (hc : Sparse.find s.ctxs k = some c) (hk : c.kind = .group)
    (ht : bits ((s.pkg c.pkg).reg 0x0FD8) 63 63 = 0) (he : (s.pkg c.pkg).trapEn = true) (pc : DWord) (word : Word) {cause : Nat}
    (h4 : cause ≠ 4) (ls : List Nat) (info : Nat) :
    let nh := match ls with | l :: _ => (c.lane l).hints.length | [] => 0
    let fr : Frame := { cause := cause, fpc := pc, rpc := pc - BitVec.ofNat 64 (4 * nh), lanes := maskOf ls, info := BitVec.ofNat 64 info
                        nhint := nh, word := word, time := s.now c }
    s.takeTrap k pc word cause ls info none =
      (s.modCtx k (fun c => { c.revertHints.unheld with frame := fr, staged := [] })).joinQueue k := by
  have e : s.ctx k = c := by simp [State.ctx, hc]
  have off : ∀ f ps pcs, (s.modCtx k f).trace c 4 ls ps pcs = s.modCtx k f := by
    intro f ps pcs
    unfold State.trace
    rw [if_pos hk]
    apply foldl_induct (fun x => x = s.modCtx k f) _ _ _ _ rfl
    rintro x l rfl
    unfold State.traceOne
    simp [ht]
  unfold State.takeTrap
  simp only [e, hk, h4, if_false]
  rw [off]
  simp only [State.modCtx_pkg, he, if_true]
  all_goals (cases ls <;> rfl)

end Sys2Proof.Machine
end

