-- ==== Sys2Proof/Laws/PerInstr.lean ====
section
/-! SUPPORT. Facts about each instruction as syntax: the family `WordFits`, that the word of a well-formed instruction has
32 bits. -/

namespace Sys2Proof.Laws.WordFits

/-- The word of a well-formed instruction, where it has one, is one of 32 bits (R84). -/
def Statement (i : Instr) : Prop := wellFormed i = true → ∀ w, encode i = some w → w < 2 ^ 32

theorem encGuard_lt (g : Guard) (h : g.wf = true) : encGuard g < 16 := by
  cases g with
  | always => decide
  | pred n k => cases n <;> simp_all [Guard.wf, encGuard] <;> omega
theorem encVVV_lt {maj d a b fn : Nat} {g : Guard} (hg : g.wf = true) (hm : maj < 64) (hd : d < 64) (ha : a < 64) (hb : b < 64)
    (hf : fn < 16) : encVVV maj g d a b fn < 2 ^ 32 := by
  have := encGuard_lt g hg
  unfold encVVV; omega
theorem encVVI_lt {maj d a imm : Nat} {g : Guard} (hg : g.wf = true) (hm : maj < 64) (hd : d < 64) (ha : a < 64) (hi : imm < 1024) :
    encVVI maj g d a imm < 2 ^ 32 := by
  have := encGuard_lt g hg
  unfold encVVI; omega
theorem encVI16_lt {maj d imm : Nat} {g : Guard} (hg : g.wf = true) (hm : maj < 64) (hd : d < 64) (hi : imm < 65536) :
    encVI16 maj g d imm < 2 ^ 32 := by
  have := encGuard_lt g hg
  unfold encVI16; omega
theorem encLVL_lt {maj lvl x y fn ord : Nat} {g : Guard} (hg : g.wf = true) (hm : maj < 64) (hl : lvl < 8) (hx : x < 64) (hy : y < 64)
    (hf : fn < 16) (ho : ord < 8) : encLVL maj g lvl x y fn ord < 2 ^ 32 := by
  have := encGuard_lt g hg
  unfold encLVL; omega
theorem encSYS_lt {maj d a sel fn : Nat} {g : Guard} (hg : g.wf = true) (hm : maj < 64) (hd : d < 64) (ha : a < 64) (hs : sel < 256)
    (hf : fn < 4) : encSYS maj g d a sel fn < 2 ^ 32 := by
  have := encGuard_lt g hg
  unfold encSYS; omega
theorem encHNT_lt {kind payload : Nat} (hk : kind < 4) (hp : payload < 2 ^ 24) : encHNT kind payload < 2 ^ 32 := by
  unfold encHNT; omega
theorem unsignedOf_lt {n : Nat} (i : Int) (h : 0 < n) : unsignedOf n i < n := by
  have := Int.emod_nonneg i (b := (n : Int)) (by omega)
  have := Int.emod_lt_of_pos i (b := (n : Int)) (by omega)
  unfold unsignedOf; omega
theorem toNat_lt (b : Bool) : b.toNat < 2 := by cases b <;> decide
theorem size_lt (c : Size) : c.code < 4 := by cases c <;> decide
theorem iCond_lt (c : ICond) : c.code < 10 := by cases c <;> decide
theorem fCond_lt (c : FCond) : c.code < 8 := by cases c <;> decide
theorem gCond_lt (c : GCond) : c.code < 4 := by cases c <;> decide
theorem tSpace_lt (c : TSpace) : c.code < 3 := by cases c <;> decide
theorem atomOp_lt (c : AtomOp) : c.code < 10 := by cases c <;> decide
theorem cacheOp_lt (c : CacheOp) : c.code < 3 := by cases c <;> decide
theorem cClass_lt (c : CClass) : c.code < 5 := by cases c <;> decide
theorem redOp_lt (c : RedOp) : c.code < 9 := by cases c <;> decide
theorem collOp_lt (c : CollOp) : c.code < 5 := by cases c <;> decide
theorem hScope_lt (c : HScope) : c.code < 3 := by cases c <;> decide

theorem iadd (g : Guard) (d : Nat) (a : Nat) (b : Nat) : Statement (.iadd g d a b) := by
  intro hyp word hw
  have h : (g.wf && decide (d < 64) && decide (a < 64) && decide (b < 64)) = true := hyp
  simp only [Bool.and_eq_true, decide_eq_true_eq] at h
  obtain ⟨⟨⟨h0, h1⟩, h2⟩, h3⟩ := h
  cases hw
  exact encVVV_lt h0 (by omega) (by omega) (by omega) (by omega) (by omega)
theorem isub (g : Guard) (d : Nat) (a : Nat) (b : Nat) : Statement (.isub g d a b) := by
  intro hyp word hw
  have h : (g.wf && decide (d < 64) && decide (a < 64) && decide (b < 64)) = true := hyp
  simp only [Bool.and_eq_true, decide_eq_true_eq] at h
  obtain ⟨⟨⟨h0, h1⟩, h2⟩, h3⟩ := h
  cases hw
  exact encVVV_lt h0 (by omega) (by omega) (by omega) (by omega) (by omega)
theorem imul (g : Guard) (d : Nat) (a : Nat) (b : Nat) : Statement (.imul g d a b) := by
  intro hyp word hw
  have h : (g.wf && decide (d < 64) && decide (a < 64) && decide (b < 64)) = true := hyp
  simp only [Bool.and_eq_true, decide_eq_true_eq] at h
  obtain ⟨⟨⟨h0, h1⟩, h2⟩, h3⟩ := h
  cases hw
  exact encVVV_lt h0 (by omega) (by omega) (by omega) (by omega) (by omega)
theorem imulhi (g : Guard) (d : Nat) (a : Nat) (b : Nat) : Statement (.imulhi g d a b) := by
  intro hyp word hw
  have h : (g.wf && decide (d < 64) && decide (a < 64) && decide (b < 64)) = true := hyp
  simp only [Bool.and_eq_true, decide_eq_true_eq] at h
  obtain ⟨⟨⟨h0, h1⟩, h2⟩, h3⟩ := h
  cases hw
  exact encVVV_lt h0 (by omega) (by omega) (by omega) (by omega) (by omega)
theorem imulhiU (g : Guard) (d : Nat) (a : Nat) (b : Nat) : Statement (.imulhiU g d a b) := by
  intro hyp word hw
  have h : (g.wf && decide (d < 64) && decide (a < 64) && decide (b < 64)) = true := hyp
  simp only [Bool.and_eq_true, decide_eq_true_eq] at h
  obtain ⟨⟨⟨h0, h1⟩, h2⟩, h3⟩ := h
  cases hw
  exact encVVV_lt h0 (by omega) (by omega) (by omega) (by omega) (by omega)
theorem imad (g : Guard) (d : Nat) (a : Nat) (b : Nat) : Statement (.imad g d a b) := by
  intro hyp word hw
  have h : (g.wf && decide (d < 64) && decide (a < 64) && decide (b < 64)) = true := hyp
  simp only [Bool.and_eq_true, decide_eq_true_eq] at h
  obtain ⟨⟨⟨h0, h1⟩, h2⟩, h3⟩ := h
  cases hw
  exact encVVV_lt h0 (by omega) (by omega) (by omega) (by omega) (by omega)
theorem imin (g : Guard) (d : Nat) (a : Nat) (b : Nat) : Statement (.imin g d a b) := by
  intro hyp word hw
  have h : (g.wf && decide (d < 64) && decide (a < 64) && decide (b < 64)) = true := hyp
  simp only [Bool.and_eq_true, decide_eq_true_eq] at h
  obtain ⟨⟨⟨h0, h1⟩, h2⟩, h3⟩ := h
  cases hw
  exact encVVV_lt h0 (by omega) (by omega) (by omega) (by omega) (by omega)
theorem iminU (g : Guard) (d : Nat) (a : Nat) (b : Nat) : Statement (.iminU g d a b) := by
  intro hyp word hw
  have h : (g.wf && decide (d < 64) && decide (a < 64) && decide (b < 64)) = true := hyp
  simp only [Bool.and_eq_true, decide_eq_true_eq] at h
  obtain ⟨⟨⟨h0, h1⟩, h2⟩, h3⟩ := h
  cases hw
  exact encVVV_lt h0 (by omega) (by omega) (by omega) (by omega) (by omega)
theorem imax (g : Guard) (d : Nat) (a : Nat) (b : Nat) : Statement (.imax g d a b) := by
  intro hyp word hw
  have h : (g.wf && decide (d < 64) && decide (a < 64) && decide (b < 64)) = true := hyp
  simp only [Bool.and_eq_true, decide_eq_true_eq] at h
  obtain ⟨⟨⟨h0, h1⟩, h2⟩, h3⟩ := h
  cases hw
  exact encVVV_lt h0 (by omega) (by omega) (by omega) (by omega) (by omega)
theorem imaxU (g : Guard) (d : Nat) (a : Nat) (b : Nat) : Statement (.imaxU g d a b) := by
  intro hyp word hw
  have h : (g.wf && decide (d < 64) && decide (a < 64) && decide (b < 64)) = true := hyp
  simp only [Bool.and_eq_true, decide_eq_true_eq] at h
  obtain ⟨⟨⟨h0, h1⟩, h2⟩, h3⟩ := h
  cases hw
  exact encVVV_lt h0 (by omega) (by omega) (by omega) (by omega) (by omega)
theorem iadds (g : Guard) (d : Nat) (a : Nat) (b : Nat) : Statement (.iadds g d a b) := by
  intro hyp word hw
  have h : (g.wf && decide (d < 64) && decide (a < 64) && decide (b < 64)) = true := hyp
  simp only [Bool.and_eq_true, decide_eq_true_eq] at h
  obtain ⟨⟨⟨h0, h1⟩, h2⟩, h3⟩ := h
  cases hw
  exact encVVV_lt h0 (by omega) (by omega) (by omega) (by omega) (by omega)
theorem iaddsU (g : Guard) (d : Nat) (a : Nat) (b : Nat) : Statement (.iaddsU g d a b) := by
  intro hyp word hw
  have h : (g.wf && decide (d < 64) && decide (a < 64) && decide (b < 64)) = true := hyp
  simp only [Bool.and_eq_true, decide_eq_true_eq] at h
  obtain ⟨⟨⟨h0, h1⟩, h2⟩, h3⟩ := h
  cases hw
  exact encVVV_lt h0 (by omega) (by omega) (by omega) (by omega) (by omega)
theorem isubs (g : Guard) (d : Nat) (a : Nat) (b : Nat) : Statement (.isubs g d a b) := by
  intro hyp word hw
  have h : (g.wf && decide (d < 64) && decide (a < 64) && decide (b < 64)) = true := hyp
  simp only [Bool.and_eq_true, decide_eq_true_eq] at h
  obtain ⟨⟨⟨h0, h1⟩, h2⟩, h3⟩ := h
  cases hw
  exact encVVV_lt h0 (by omega) (by omega) (by omega) (by omega) (by omega)
theorem isubsU (g : Guard) (d : Nat) (a : Nat) (b : Nat) : Statement (.isubsU g d a b) := by
  intro hyp word hw
  have h : (g.wf && decide (d < 64) && decide (a < 64) && decide (b < 64)) = true := hyp
  simp only [Bool.and_eq_true, decide_eq_true_eq] at h
  obtain ⟨⟨⟨h0, h1⟩, h2⟩, h3⟩ := h
  cases hw
  exact encVVV_lt h0 (by omega) (by omega) (by omega) (by omega) (by omega)
theorem idot4 (g : Guard) (d : Nat) (a : Nat) (b : Nat) : Statement (.idot4 g d a b) := by
  intro hyp word hw
  have h : (g.wf && decide (d < 64) && decide (a < 64) && decide (b < 64)) = true := hyp
  simp only [Bool.and_eq_true, decide_eq_true_eq] at h
  obtain ⟨⟨⟨h0, h1⟩, h2⟩, h3⟩ := h
  cases hw
  exact encVVV_lt h0 (by omega) (by omega) (by omega) (by omega) (by omega)
theorem lea (g : Guard) (d : Nat) (a : Nat) (b : Nat) : Statement (.lea g d a b) := by
  intro hyp word hw
  have h : (g.wf && decide (d < 64) && decide (a < 64) && decide (b < 64) && decide (d % 2 = 0) && decide (a % 2 = 0)) = true := hyp
  simp only [Bool.and_eq_true, decide_eq_true_eq] at h
  obtain ⟨⟨⟨⟨⟨h0, h1⟩, h2⟩, h3⟩, h4⟩, h5⟩ := h
  cases hw
  exact encVVV_lt h0 (by omega) (by omega) (by omega) (by omega) (by omega)
theorem iabs (g : Guard) (d : Nat) (a : Nat) : Statement (.iabs g d a) := by
  intro hyp word hw
  have h : (g.wf && decide (d < 64) && decide (a < 64)) = true := hyp
  simp only [Bool.and_eq_true, decide_eq_true_eq] at h
  obtain ⟨⟨h0, h1⟩, h2⟩ := h
  cases hw
  exact encVVV_lt h0 (by omega) (by omega) (by omega) (by omega) (by omega)
theorem ineg (g : Guard) (d : Nat) (a : Nat) : Statement (.ineg g d a) := by
  intro hyp word hw
  have h : (g.wf && decide (d < 64) && decide (a < 64)) = true := hyp
  simp only [Bool.and_eq_true, decide_eq_true_eq] at h
  obtain ⟨⟨h0, h1⟩, h2⟩ := h
  cases hw
  exact encVVV_lt h0 (by omega) (by omega) (by omega) (by omega) (by omega)
theorem and (g : Guard) (d : Nat) (a : Nat) (b : Nat) : Statement (.and g d a b) := by
  intro hyp word hw
  have h : (g.wf && decide (d < 64) && decide (a < 64) && decide (b < 64)) = true := hyp
  simp only [Bool.and_eq_true, decide_eq_true_eq] at h
  obtain ⟨⟨⟨h0, h1⟩, h2⟩, h3⟩ := h
  cases hw
  exact encVVV_lt h0 (by omega) (by omega) (by omega) (by omega) (by omega)
theorem or (g : Guard) (d : Nat) (a : Nat) (b : Nat) : Statement (.or g d a b) := by
  intro hyp word hw
  have h : (g.wf && decide (d < 64) && decide (a < 64) && decide (b < 64)) = true := hyp
  simp only [Bool.and_eq_true, decide_eq_true_eq] at h
  obtain ⟨⟨⟨h0, h1⟩, h2⟩, h3⟩ := h
  cases hw
  exact encVVV_lt h0 (by omega) (by omega) (by omega) (by omega) (by omega)
theorem xor (g : Guard) (d : Nat) (a : Nat) (b : Nat) : Statement (.xor g d a b) := by
  intro hyp word hw
  have h : (g.wf && decide (d < 64) && decide (a < 64) && decide (b < 64)) = true := hyp
  simp only [Bool.and_eq_true, decide_eq_true_eq] at h
  obtain ⟨⟨⟨h0, h1⟩, h2⟩, h3⟩ := h
  cases hw
  exact encVVV_lt h0 (by omega) (by omega) (by omega) (by omega) (by omega)
theorem andn (g : Guard) (d : Nat) (a : Nat) (b : Nat) : Statement (.andn g d a b) := by
  intro hyp word hw
  have h : (g.wf && decide (d < 64) && decide (a < 64) && decide (b < 64)) = true := hyp
  simp only [Bool.and_eq_true, decide_eq_true_eq] at h
  obtain ⟨⟨⟨h0, h1⟩, h2⟩, h3⟩ := h
  cases hw
  exact encVVV_lt h0 (by omega) (by omega) (by omega) (by omega) (by omega)
theorem not (g : Guard) (d : Nat) (a : Nat) : Statement (.not g d a) := by
  intro hyp word hw
  have h : (g.wf && decide (d < 64) && decide (a < 64)) = true := hyp
  simp only [Bool.and_eq_true, decide_eq_true_eq] at h
  obtain ⟨⟨h0, h1⟩, h2⟩ := h
  cases hw
  exact encVVV_lt h0 (by omega) (by omega) (by omega) (by omega) (by omega)
theorem shl (g : Guard) (d : Nat) (a : Nat) (b : Nat) : Statement (.shl g d a b) := by
  intro hyp word hw
  have h : (g.wf && decide (d < 64) && decide (a < 64) && decide (b < 64)) = true := hyp
  simp only [Bool.and_eq_true, decide_eq_true_eq] at h
  obtain ⟨⟨⟨h0, h1⟩, h2⟩, h3⟩ := h
  cases hw
  exact encVVV_lt h0 (by omega) (by omega) (by omega) (by omega) (by omega)
theorem shr (g : Guard) (d : Nat) (a : Nat) (b : Nat) : Statement (.shr g d a b) := by
  intro hyp word hw
  have h : (g.wf && decide (d < 64) && decide (a < 64) && decide (b < 64)) = true := hyp
  simp only [Bool.and_eq_true, decide_eq_true_eq] at h
  obtain ⟨⟨⟨h0, h1⟩, h2⟩, h3⟩ := h
  cases hw
  exact encVVV_lt h0 (by omega) (by omega) (by omega) (by omega) (by omega)
theorem sar (g : Guard) (d : Nat) (a : Nat) (b : Nat) : Statement (.sar g d a b) := by
  intro hyp word hw
  have h : (g.wf && decide (d < 64) && decide (a < 64) && decide (b < 64)) = true := hyp
  simp only [Bool.and_eq_true, decide_eq_true_eq] at h
  obtain ⟨⟨⟨h0, h1⟩, h2⟩, h3⟩ := h
  cases hw
  exact encVVV_lt h0 (by omega) (by omega) (by omega) (by omega) (by omega)
theorem rotl (g : Guard) (d : Nat) (a : Nat) (b : Nat) : Statement (.rotl g d a b) := by
  intro hyp word hw
  have h : (g.wf && decide (d < 64) && decide (a < 64) && decide (b < 64)) = true := hyp
  simp only [Bool.and_eq_true, decide_eq_true_eq] at h
  obtain ⟨⟨⟨h0, h1⟩, h2⟩, h3⟩ := h
  cases hw
  exact encVVV_lt h0 (by omega) (by omega) (by omega) (by omega) (by omega)
theorem popc (g : Guard) (d : Nat) (a : Nat) : Statement (.popc g d a) := by
  intro hyp word hw
  have h : (g.wf && decide (d < 64) && decide (a < 64)) = true := hyp
  simp only [Bool.and_eq_true, decide_eq_true_eq] at h
  obtain ⟨⟨h0, h1⟩, h2⟩ := h
  cases hw
  exact encVVV_lt h0 (by omega) (by omega) (by omega) (by omega) (by omega)
theorem clz (g : Guard) (d : Nat) (a : Nat) : Statement (.clz g d a) := by
  intro hyp word hw
  have h : (g.wf && decide (d < 64) && decide (a < 64)) = true := hyp
  simp only [Bool.and_eq_true, decide_eq_true_eq] at h
  obtain ⟨⟨h0, h1⟩, h2⟩ := h
  cases hw
  exact encVVV_lt h0 (by omega) (by omega) (by omega) (by omega) (by omega)
theorem brev (g : Guard) (d : Nat) (a : Nat) : Statement (.brev g d a) := by
  intro hyp word hw
  have h : (g.wf && decide (d < 64) && decide (a < 64)) = true := hyp
  simp only [Bool.and_eq_true, decide_eq_true_eq] at h
  obtain ⟨⟨h0, h1⟩, h2⟩ := h
  cases hw
  exact encVVV_lt h0 (by omega) (by omega) (by omega) (by omega) (by omega)
theorem sel (g : Guard) (d : Nat) (a : Nat) (b : Nat) : Statement (.sel g d a b) := by
  intro hyp word hw
  have h : (g.wf && decide (d < 64) && decide (a < 64) && decide (b < 64)) = true := hyp
  simp only [Bool.and_eq_true, decide_eq_true_eq] at h
  obtain ⟨⟨⟨h0, h1⟩, h2⟩, h3⟩ := h
  cases hw
  exact encVVV_lt h0 (by omega) (by omega) (by omega) (by omega) (by omega)
theorem mov (g : Guard) (d : Nat) (a : Nat) : Statement (.mov g d a) := by
  intro hyp word hw
  have h : (g.wf && decide (d < 64) && decide (a < 64)) = true := hyp
  simp only [Bool.and_eq_true, decide_eq_true_eq] at h
  obtain ⟨⟨h0, h1⟩, h2⟩ := h
  cases hw
  exact encVVV_lt h0 (by omega) (by omega) (by omega) (by omega) (by omega)
theorem iaddImm (g : Guard) (d : Nat) (a : Nat) (imm : Int) : Statement (.iaddImm g d a imm) := by
  intro hyp word hw
  have h : (g.wf && decide (d < 64) && decide (a < 64) && decide (-512 ≤ imm ∧ imm ≤ 511)) = true := hyp
  simp only [Bool.and_eq_true, decide_eq_true_eq] at h
  obtain ⟨⟨⟨h0, h1⟩, h2⟩, h3⟩ := h
  cases hw
  have := unsignedOf_lt (n := 1024) imm (by decide)
  exact encVVI_lt h0 (by omega) (by omega) (by omega) (by omega)
theorem bfx (g : Guard) (d : Nat) (a : Nat) (pos : Nat) (len : Nat) : Statement (.bfx g d a pos len) := by
  intro hyp word hw
  have h : (g.wf && decide (d < 64) && decide (a < 64) && decide (pos < 32) && decide (1 ≤ len ∧ len ≤ 32)) = true := hyp
  simp only [Bool.and_eq_true, decide_eq_true_eq] at h
  obtain ⟨⟨⟨⟨h0, h1⟩, h2⟩, h3⟩, h4⟩ := h
  cases hw
  exact encVVI_lt h0 (by omega) (by omega) (by omega) (by omega)
theorem bfi (g : Guard) (d : Nat) (a : Nat) (pos : Nat) (len : Nat) : Statement (.bfi g d a pos len) := by
  intro hyp word hw
  have h : (g.wf && decide (d < 64) && decide (a < 64) && decide (pos < 32) && decide (1 ≤ len ∧ len ≤ 32)) = true := hyp
  simp only [Bool.and_eq_true, decide_eq_true_eq] at h
  obtain ⟨⟨⟨⟨h0, h1⟩, h2⟩, h3⟩, h4⟩ := h
  cases hw
  exact encVVI_lt h0 (by omega) (by omega) (by omega) (by omega)
theorem movi (g : Guard) (d : Nat) (imm : Int) : Statement (.movi g d imm) := by
  intro hyp word hw
  have h : (g.wf && decide (d < 64) && decide (-32768 ≤ imm ∧ imm ≤ 32767)) = true := hyp
  simp only [Bool.and_eq_true, decide_eq_true_eq] at h
  obtain ⟨⟨h0, h1⟩, h2⟩ := h
  cases hw
  have := unsignedOf_lt (n := 65536) imm (by decide)
  exact encVI16_lt h0 (by omega) (by omega) (by omega)
theorem movhi (g : Guard) (d : Nat) (imm : Nat) : Statement (.movhi g d imm) := by
  intro hyp word hw
  have h : (g.wf && decide (d < 64) && decide (imm < 65536)) = true := hyp
  simp only [Bool.and_eq_true, decide_eq_true_eq] at h
  obtain ⟨⟨h0, h1⟩, h2⟩ := h
  cases hw
  exact encVI16_lt h0 (by omega) (by omega) (by omega)
theorem fadd (g : Guard) (d : Nat) (a : Nat) (b : Nat) : Statement (.fadd g d a b) := by
  intro hyp word hw
  have h : (g.wf && decide (d < 64) && decide (a < 64) && decide (b < 64)) = true := hyp
  simp only [Bool.and_eq_true, decide_eq_true_eq] at h
  obtain ⟨⟨⟨h0, h1⟩, h2⟩, h3⟩ := h
  cases hw
  exact encVVV_lt h0 (by omega) (by omega) (by omega) (by omega) (by omega)
theorem fsub (g : Guard) (d : Nat) (a : Nat) (b : Nat) : Statement (.fsub g d a b) := by
  intro hyp word hw
  have h : (g.wf && decide (d < 64) && decide (a < 64) && decide (b < 64)) = true := hyp
  simp only [Bool.and_eq_true, decide_eq_true_eq] at h
  obtain ⟨⟨⟨h0, h1⟩, h2⟩, h3⟩ := h
  cases hw
  exact encVVV_lt h0 (by omega) (by omega) (by omega) (by omega) (by omega)
theorem fmul (g : Guard) (d : Nat) (a : Nat) (b : Nat) : Statement (.fmul g d a b) := by
  intro hyp word hw
  have h : (g.wf && decide (d < 64) && decide (a < 64) && decide (b < 64)) = true := hyp
  simp only [Bool.and_eq_true, decide_eq_true_eq] at h
  obtain ⟨⟨⟨h0, h1⟩, h2⟩, h3⟩ := h
  cases hw
  exact encVVV_lt h0 (by omega) (by omega) (by omega) (by omega) (by omega)
theorem ffma (g : Guard) (d : Nat) (a : Nat) (b : Nat) : Statement (.ffma g d a b) := by
  intro hyp word hw
  have h : (g.wf && decide (d < 64) && decide (a < 64) && decide (b < 64)) = true := hyp
  simp only [Bool.and_eq_true, decide_eq_true_eq] at h
  obtain ⟨⟨⟨h0, h1⟩, h2⟩, h3⟩ := h
  cases hw
  exact encVVV_lt h0 (by omega) (by omega) (by omega) (by omega) (by omega)
theorem fmin (g : Guard) (d : Nat) (a : Nat) (b : Nat) : Statement (.fmin g d a b) := by
  intro hyp word hw
  have h : (g.wf && decide (d < 64) && decide (a < 64) && decide (b < 64)) = true := hyp
  simp only [Bool.and_eq_true, decide_eq_true_eq] at h
  obtain ⟨⟨⟨h0, h1⟩, h2⟩, h3⟩ := h
  cases hw
  exact encVVV_lt h0 (by omega) (by omega) (by omega) (by omega) (by omega)
theorem fmax (g : Guard) (d : Nat) (a : Nat) (b : Nat) : Statement (.fmax g d a b) := by
  intro hyp word hw
  have h : (g.wf && decide (d < 64) && decide (a < 64) && decide (b < 64)) = true := hyp
  simp only [Bool.and_eq_true, decide_eq_true_eq] at h
  obtain ⟨⟨⟨h0, h1⟩, h2⟩, h3⟩ := h
  cases hw
  exact encVVV_lt h0 (by omega) (by omega) (by omega) (by omega) (by omega)
theorem fabs (g : Guard) (d : Nat) (a : Nat) : Statement (.fabs g d a) := by
  intro hyp word hw
  have h : (g.wf && decide (d < 64) && decide (a < 64)) = true := hyp
  simp only [Bool.and_eq_true, decide_eq_true_eq] at h
  obtain ⟨⟨h0, h1⟩, h2⟩ := h
  cases hw
  exact encVVV_lt h0 (by omega) (by omega) (by omega) (by omega) (by omega)
theorem fneg (g : Guard) (d : Nat) (a : Nat) : Statement (.fneg g d a) := by
  intro hyp word hw
  have h : (g.wf && decide (d < 64) && decide (a < 64)) = true := hyp
  simp only [Bool.and_eq_true, decide_eq_true_eq] at h
  obtain ⟨⟨h0, h1⟩, h2⟩ := h
  cases hw
  exact encVVV_lt h0 (by omega) (by omega) (by omega) (by omega) (by omega)
theorem fcpys (g : Guard) (d : Nat) (a : Nat) (b : Nat) : Statement (.fcpys g d a b) := by
  intro hyp word hw
  have h : (g.wf && decide (d < 64) && decide (a < 64) && decide (b < 64)) = true := hyp
  simp only [Bool.and_eq_true, decide_eq_true_eq] at h
  obtain ⟨⟨⟨h0, h1⟩, h2⟩, h3⟩ := h
  cases hw
  exact encVVV_lt h0 (by omega) (by omega) (by omega) (by omega) (by omega)
theorem fclass (g : Guard) (d : Nat) (a : Nat) : Statement (.fclass g d a) := by
  intro hyp word hw
  have h : (g.wf && decide (d < 64) && decide (a < 64)) = true := hyp
  simp only [Bool.and_eq_true, decide_eq_true_eq] at h
  obtain ⟨⟨h0, h1⟩, h2⟩ := h
  cases hw
  exact encVVV_lt h0 (by omega) (by omega) (by omega) (by omega) (by omega)
theorem frcp (g : Guard) (d : Nat) (a : Nat) : Statement (.frcp g d a) := by
  intro hyp word hw
  have h : (g.wf && decide (d < 64) && decide (a < 64)) = true := hyp
  simp only [Bool.and_eq_true, decide_eq_true_eq] at h
  obtain ⟨⟨h0, h1⟩, h2⟩ := h
  cases hw
  exact encVVV_lt h0 (by omega) (by omega) (by omega) (by omega) (by omega)
theorem frsq (g : Guard) (d : Nat) (a : Nat) : Statement (.frsq g d a) := by
  intro hyp word hw
  have h : (g.wf && decide (d < 64) && decide (a < 64)) = true := hyp
  simp only [Bool.and_eq_true, decide_eq_true_eq] at h
  obtain ⟨⟨h0, h1⟩, h2⟩ := h
  cases hw
  exact encVVV_lt h0 (by omega) (by omega) (by omega) (by omega) (by omega)
theorem fsqrt (g : Guard) (d : Nat) (a : Nat) : Statement (.fsqrt g d a) := by
  intro hyp word hw
  have h : (g.wf && decide (d < 64) && decide (a < 64)) = true := hyp
  simp only [Bool.and_eq_true, decide_eq_true_eq] at h
  obtain ⟨⟨h0, h1⟩, h2⟩ := h
  cases hw
  exact encVVV_lt h0 (by omega) (by omega) (by omega) (by omega) (by omega)
theorem fexp2 (g : Guard) (d : Nat) (a : Nat) : Statement (.fexp2 g d a) := by
  intro hyp word hw
  have h : (g.wf && decide (d < 64) && decide (a < 64)) = true := hyp
  simp only [Bool.and_eq_true, decide_eq_true_eq] at h
  obtain ⟨⟨h0, h1⟩, h2⟩ := h
  cases hw
  exact encVVV_lt h0 (by omega) (by omega) (by omega) (by omega) (by omega)
theorem flog2 (g : Guard) (d : Nat) (a : Nat) : Statement (.flog2 g d a) := by
  intro hyp word hw
  have h : (g.wf && decide (d < 64) && decide (a < 64)) = true := hyp
  simp only [Bool.and_eq_true, decide_eq_true_eq] at h
  obtain ⟨⟨h0, h1⟩, h2⟩ := h
  cases hw
  exact encVVV_lt h0 (by omega) (by omega) (by omega) (by omega) (by omega)
theorem ftanh (g : Guard) (d : Nat) (a : Nat) : Statement (.ftanh g d a) := by
  intro hyp word hw
  have h : (g.wf && decide (d < 64) && decide (a < 64)) = true := hyp
  simp only [Bool.and_eq_true, decide_eq_true_eq] at h
  obtain ⟨⟨h0, h1⟩, h2⟩ := h
  cases hw
  exact encVVV_lt h0 (by omega) (by omega) (by omega) (by omega) (by omega)
theorem hfma2Bf (g : Guard) (d : Nat) (a : Nat) (b : Nat) : Statement (.hfma2Bf g d a b) := by
  intro hyp word hw
  have h : (g.wf && decide (d < 64) && decide (a < 64) && decide (b < 64)) = true := hyp
  simp only [Bool.and_eq_true, decide_eq_true_eq] at h
  obtain ⟨⟨⟨h0, h1⟩, h2⟩, h3⟩ := h
  cases hw
  exact encVVV_lt h0 (by omega) (by omega) (by omega) (by omega) (by omega)
theorem hfma2H (g : Guard) (d : Nat) (a : Nat) (b : Nat) : Statement (.hfma2H g d a b) := by
  intro hyp word hw
  have h : (g.wf && decide (d < 64) && decide (a < 64) && decide (b < 64)) = true := hyp
  simp only [Bool.and_eq_true, decide_eq_true_eq] at h
  obtain ⟨⟨⟨h0, h1⟩, h2⟩, h3⟩ := h
  cases hw
  exact encVVV_lt h0 (by omega) (by omega) (by omega) (by omega) (by omega)
theorem hadd2Bf (g : Guard) (d : Nat) (a : Nat) (b : Nat) : Statement (.hadd2Bf g d a b) := by
  intro hyp word hw
  have h : (g.wf && decide (d < 64) && decide (a < 64) && decide (b < 64)) = true := hyp
  simp only [Bool.and_eq_true, decide_eq_true_eq] at h
  obtain ⟨⟨⟨h0, h1⟩, h2⟩, h3⟩ := h
  cases hw
  exact encVVV_lt h0 (by omega) (by omega) (by omega) (by omega) (by omega)
theorem hadd2H (g : Guard) (d : Nat) (a : Nat) (b : Nat) : Statement (.hadd2H g d a b) := by
  intro hyp word hw
  have h : (g.wf && decide (d < 64) && decide (a < 64) && decide (b < 64)) = true := hyp
  simp only [Bool.and_eq_true, decide_eq_true_eq] at h
  obtain ⟨⟨⟨h0, h1⟩, h2⟩, h3⟩ := h
  cases hw
  exact encVVV_lt h0 (by omega) (by omega) (by omega) (by omega) (by omega)
theorem hmul2Bf (g : Guard) (d : Nat) (a : Nat) (b : Nat) : Statement (.hmul2Bf g d a b) := by
  intro hyp word hw
  have h : (g.wf && decide (d < 64) && decide (a < 64) && decide (b < 64)) = true := hyp
  simp only [Bool.and_eq_true, decide_eq_true_eq] at h
  obtain ⟨⟨⟨h0, h1⟩, h2⟩, h3⟩ := h
  cases hw
  exact encVVV_lt h0 (by omega) (by omega) (by omega) (by omega) (by omega)
theorem hmul2H (g : Guard) (d : Nat) (a : Nat) (b : Nat) : Statement (.hmul2H g d a b) := by
  intro hyp word hw
  have h : (g.wf && decide (d < 64) && decide (a < 64) && decide (b < 64)) = true := hyp
  simp only [Bool.and_eq_true, decide_eq_true_eq] at h
  obtain ⟨⟨⟨h0, h1⟩, h2⟩, h3⟩ := h
  cases hw
  exact encVVV_lt h0 (by omega) (by omega) (by omega) (by omega) (by omega)
theorem hmax2Bf (g : Guard) (d : Nat) (a : Nat) (b : Nat) : Statement (.hmax2Bf g d a b) := by
  intro hyp word hw
  have h : (g.wf && decide (d < 64) && decide (a < 64) && decide (b < 64)) = true := hyp
  simp only [Bool.and_eq_true, decide_eq_true_eq] at h
  obtain ⟨⟨⟨h0, h1⟩, h2⟩, h3⟩ := h
  cases hw
  exact encVVV_lt h0 (by omega) (by omega) (by omega) (by omega) (by omega)
theorem hmax2H (g : Guard) (d : Nat) (a : Nat) (b : Nat) : Statement (.hmax2H g d a b) := by
  intro hyp word hw
  have h : (g.wf && decide (d < 64) && decide (a < 64) && decide (b < 64)) = true := hyp
  simp only [Bool.and_eq_true, decide_eq_true_eq] at h
  obtain ⟨⟨⟨h0, h1⟩, h2⟩, h3⟩ := h
  cases hw
  exact encVVV_lt h0 (by omega) (by omega) (by omega) (by omega) (by omega)
theorem cvt (g : Guard) (d : Nat) (a : Nat) (f : Nat) (k : Nat) : Statement (.cvt g d a f k) := by
  intro hyp word hw
  have h : (g.wf && decide (d < 64) && decide (a < 64) && decide (f < 8) && decide (k < 8)) = true := hyp
  simp only [Bool.and_eq_true, decide_eq_true_eq] at h
  obtain ⟨⟨⟨⟨h0, h1⟩, h2⟩, h3⟩, h4⟩ := h
  cases hw
  exact encVVV_lt h0 (by omega) (by omega) (by omega) (by omega) (by omega)
theorem cvti (g : Guard) (d : Nat) (a : Nat) (f : Nat) (k : Nat) : Statement (.cvti g d a f k) := by
  intro hyp word hw
  have h : (g.wf && decide (d < 64) && decide (a < 64) && decide (f < 8) && decide (k < 8) && decide (k < 4)) = true := hyp
  simp only [Bool.and_eq_true, decide_eq_true_eq] at h
  obtain ⟨⟨⟨⟨⟨h0, h1⟩, h2⟩, h3⟩, h4⟩, h5⟩ := h
  cases hw
  exact encVVV_lt h0 (by omega) (by omega) (by omega) (by omega) (by omega)
theorem pack (g : Guard) (d : Nat) (a : Nat) (f : Nat) (k : Nat) : Statement (.pack g d a f k) := by
  intro hyp word hw
  have h : (g.wf && decide (d < 64) && decide (a < 64) && decide (f < 8) && decide (k < 8)) = true := hyp
  simp only [Bool.and_eq_true, decide_eq_true_eq] at h
  obtain ⟨⟨⟨⟨h0, h1⟩, h2⟩, h3⟩, h4⟩ := h
  cases hw
  exact encVVV_lt h0 (by omega) (by omega) (by omega) (by omega) (by omega)
theorem unpack (g : Guard) (d : Nat) (a : Nat) (f : Nat) (k : Nat) : Statement (.unpack g d a f k) := by
  intro hyp word hw
  have h : (g.wf && decide (d < 64) && decide (a < 64) && decide (f < 8) && decide (k < 8)) = true := hyp
  simp only [Bool.and_eq_true, decide_eq_true_eq] at h
  obtain ⟨⟨⟨⟨h0, h1⟩, h2⟩, h3⟩, h4⟩ := h
  cases hw
  exact encVVV_lt h0 (by omega) (by omega) (by omega) (by omega) (by omega)
theorem qntv (g : Guard) (d : Nat) (a : Nat) (f : Nat) (k : Nat) : Statement (.qntv g d a f k) := by
  intro hyp word hw
  have h : (g.wf && decide (d < 64) && decide (a < 64) && decide (f < 8) && decide (k < 8)) = true := hyp
  simp only [Bool.and_eq_true, decide_eq_true_eq] at h
  obtain ⟨⟨⟨⟨h0, h1⟩, h2⟩, h3⟩, h4⟩ := h
  cases hw
  exact encVVV_lt h0 (by omega) (by omega) (by omega) (by omega) (by omega)
theorem dqntv (g : Guard) (d : Nat) (a : Nat) (f : Nat) (k : Nat) : Statement (.dqntv g d a f k) := by
  intro hyp word hw
  have h : (g.wf && decide (d < 64) && decide (a < 64) && decide (f < 8) && decide (k < 8)) = true := hyp
  simp only [Bool.and_eq_true, decide_eq_true_eq] at h
  obtain ⟨⟨⟨⟨h0, h1⟩, h2⟩, h3⟩, h4⟩ := h
  cases hw
  exact encVVV_lt h0 (by omega) (by omega) (by omega) (by omega) (by omega)
theorem cvtef (g : Guard) (d : Nat) (a : Nat) (f : Nat) (k : Nat) : Statement (.cvtef g d a f k) := by
  intro hyp word hw
  have h : (g.wf && decide (d < 64) && decide (a < 64) && decide (f < 8) && decide (k < 8)) = true := hyp
  simp only [Bool.and_eq_true, decide_eq_true_eq] at h
  obtain ⟨⟨⟨⟨h0, h1⟩, h2⟩, h3⟩, h4⟩ := h
  cases hw
  exact encVVV_lt h0 (by omega) (by omega) (by omega) (by omega) (by omega)
theorem icmp (g : Guard) (a : Nat) (b : Nat) (c : ICond) : Statement (.icmp g a b c) := by
  intro hyp word hw
  have h : (g.wf && decide (a < 64) && decide (b < 64)) = true := hyp
  simp only [Bool.and_eq_true, decide_eq_true_eq] at h
  obtain ⟨⟨h0, h1⟩, h2⟩ := h
  cases hw
  have := iCond_lt c
  exact encVVV_lt h0 (by omega) (by omega) (by omega) (by omega) (by omega)
theorem fcmp (g : Guard) (a : Nat) (b : Nat) (c : FCond) : Statement (.fcmp g a b c) := by
  intro hyp word hw
  have h : (g.wf && decide (a < 64) && decide (b < 64)) = true := hyp
  simp only [Bool.and_eq_true, decide_eq_true_eq] at h
  obtain ⟨⟨h0, h1⟩, h2⟩ := h
  cases hw
  have := fCond_lt c
  exact encVVV_lt h0 (by omega) (by omega) (by omega) (by omega) (by omega)
theorem ppush (g : Guard) (a : Nat) : Statement (.ppush g a) := by
  intro hyp word hw
  have h : (g.wf && decide (a < 64)) = true := hyp
  simp only [Bool.and_eq_true, decide_eq_true_eq] at h
  obtain ⟨h0, h1⟩ := h
  cases hw
  exact encVVV_lt h0 (by omega) (by omega) (by omega) (by omega) (by omega)
theorem ppop (g : Guard) : Statement (.ppop g) := by
  intro hyp word hw
  have h0 : g.wf = true := hyp
  cases hw
  exact encVVV_lt h0 (by omega) (by omega) (by omega) (by omega) (by omega)
theorem pdup (g : Guard) (i : Nat) : Statement (.pdup g i) := by
  intro hyp word hw
  have h : (g.wf && decide (i < 4)) = true := hyp
  simp only [Bool.and_eq_true, decide_eq_true_eq] at h
  obtain ⟨h0, h1⟩ := h
  cases hw
  exact encVVV_lt h0 (by omega) (by omega) (by omega) (by omega) (by omega)
theorem pswap (g : Guard) (i : Nat) : Statement (.pswap g i) := by
  intro hyp word hw
  have h : (g.wf && decide (1 ≤ i ∧ i ≤ 7)) = true := hyp
  simp only [Bool.and_eq_true, decide_eq_true_eq] at h
  obtain ⟨h0, h1⟩ := h
  cases hw
  exact encVVV_lt h0 (by omega) (by omega) (by omega) (by omega) (by omega)
theorem pnot (g : Guard) (i : Nat) : Statement (.pnot g i) := by
  intro hyp word hw
  have h : (g.wf && decide (i < 4)) = true := hyp
  simp only [Bool.and_eq_true, decide_eq_true_eq] at h
  obtain ⟨h0, h1⟩ := h
  cases hw
  exact encVVV_lt h0 (by omega) (by omega) (by omega) (by omega) (by omega)
theorem pand (g : Guard) (i : Nat) (j : Nat) : Statement (.pand g i j) := by
  intro hyp word hw
  have h : (g.wf && decide (i < 4) && decide (j < 4)) = true := hyp
  simp only [Bool.and_eq_true, decide_eq_true_eq] at h
  obtain ⟨⟨h0, h1⟩, h2⟩ := h
  cases hw
  exact encVVV_lt h0 (by omega) (by omega) (by omega) (by omega) (by omega)
theorem por (g : Guard) (i : Nat) (j : Nat) : Statement (.por g i j) := by
  intro hyp word hw
  have h : (g.wf && decide (i < 4) && decide (j < 4)) = true := hyp
  simp only [Bool.and_eq_true, decide_eq_true_eq] at h
  obtain ⟨⟨h0, h1⟩, h2⟩ := h
  cases hw
  exact encVVV_lt h0 (by omega) (by omega) (by omega) (by omega) (by omega)
theorem pxor (g : Guard) (i : Nat) (j : Nat) : Statement (.pxor g i j) := by
  intro hyp word hw
  have h : (g.wf && decide (i < 4) && decide (j < 4)) = true := hyp
  simp only [Bool.and_eq_true, decide_eq_true_eq] at h
  obtain ⟨⟨h0, h1⟩, h2⟩ := h
  cases hw
  exact encVVV_lt h0 (by omega) (by omega) (by omega) (by omega) (by omega)
theorem prot (g : Guard) (i : Nat) : Statement (.prot g i) := by
  intro hyp word hw
  have h : (g.wf && decide (1 ≤ i ∧ i ≤ 7)) = true := hyp
  simp only [Bool.and_eq_true, decide_eq_true_eq] at h
  obtain ⟨h0, h1⟩ := h
  cases hw
  exact encVVV_lt h0 (by omega) (by omega) (by omega) (by omega) (by omega)
theorem ptov (g : Guard) (d : Nat) (i : Nat) : Statement (.ptov g d i) := by
  intro hyp word hw
  have h : (g.wf && decide (d < 64) && decide (i < 4)) = true := hyp
  simp only [Bool.and_eq_true, decide_eq_true_eq] at h
  obtain ⟨⟨h0, h1⟩, h2⟩ := h
  cases hw
  exact encVVV_lt h0 (by omega) (by omega) (by omega) (by omega) (by omega)
theorem voteAny (g : Guard) (i : Nat) : Statement (.voteAny g i) := by
  intro hyp word hw
  have h : (g.wf && decide (i < 4)) = true := hyp
  simp only [Bool.and_eq_true, decide_eq_true_eq] at h
  obtain ⟨h0, h1⟩ := h
  cases hw
  exact encVVV_lt h0 (by omega) (by omega) (by omega) (by omega) (by omega)
theorem voteAll (g : Guard) (i : Nat) : Statement (.voteAll g i) := by
  intro hyp word hw
  have h : (g.wf && decide (i < 4)) = true := hyp
  simp only [Bool.and_eq_true, decide_eq_true_eq] at h
  obtain ⟨h0, h1⟩ := h
  cases hw
  exact encVVV_lt h0 (by omega) (by omega) (by omega) (by omega) (by omega)
theorem voteBallot (g : Guard) (d : Nat) (i : Nat) : Statement (.voteBallot g d i) := by
  intro hyp word hw
  have h : (g.wf && decide (d < 64) && decide (i < 4)) = true := hyp
  simp only [Bool.and_eq_true, decide_eq_true_eq] at h
  obtain ⟨⟨h0, h1⟩, h2⟩ := h
  cases hw
  exact encVVV_lt h0 (by omega) (by omega) (by omega) (by omega) (by omega)
theorem gmov (g : Guard) (d : Nat) (a : Nat) : Statement (.gmov g d a) := by
  intro hyp word hw
  have h : (g.wf && decide (d < 64) && decide (a < 64)) = true := hyp
  simp only [Bool.and_eq_true, decide_eq_true_eq] at h
  obtain ⟨⟨h0, h1⟩, h2⟩ := h
  cases hw
  exact encVVV_lt h0 (by omega) (by omega) (by omega) (by omega) (by omega)
theorem gadd (g : Guard) (d : Nat) (a : Nat) (b : Nat) : Statement (.gadd g d a b) := by
  intro hyp word hw
  have h : (g.wf && decide (d < 64) && decide (a < 64) && decide (b < 64)) = true := hyp
  simp only [Bool.and_eq_true, decide_eq_true_eq] at h
  obtain ⟨⟨⟨h0, h1⟩, h2⟩, h3⟩ := h
  cases hw
  exact encVVV_lt h0 (by omega) (by omega) (by omega) (by omega) (by omega)
theorem gsub (g : Guard) (d : Nat) (a : Nat) (b : Nat) : Statement (.gsub g d a b) := by
  intro hyp word hw
  have h : (g.wf && decide (d < 64) && decide (a < 64) && decide (b < 64)) = true := hyp
  simp only [Bool.and_eq_true, decide_eq_true_eq] at h
  obtain ⟨⟨⟨h0, h1⟩, h2⟩, h3⟩ := h
  cases hw
  exact encVVV_lt h0 (by omega) (by omega) (by omega) (by omega) (by omega)
theorem gmul (g : Guard) (d : Nat) (a : Nat) (b : Nat) : Statement (.gmul g d a b) := by
  intro hyp word hw
  have h : (g.wf && decide (d < 64) && decide (a < 64) && decide (b < 64)) = true := hyp
  simp only [Bool.and_eq_true, decide_eq_true_eq] at h
  obtain ⟨⟨⟨h0, h1⟩, h2⟩, h3⟩ := h
  cases hw
  exact encVVV_lt h0 (by omega) (by omega) (by omega) (by omega) (by omega)
theorem gand (g : Guard) (d : Nat) (a : Nat) (b : Nat) : Statement (.gand g d a b) := by
  intro hyp word hw
  have h : (g.wf && decide (d < 64) && decide (a < 64) && decide (b < 64)) = true := hyp
  simp only [Bool.and_eq_true, decide_eq_true_eq] at h
  obtain ⟨⟨⟨h0, h1⟩, h2⟩, h3⟩ := h
  cases hw
  exact encVVV_lt h0 (by omega) (by omega) (by omega) (by omega) (by omega)
theorem gor (g : Guard) (d : Nat) (a : Nat) (b : Nat) : Statement (.gor g d a b) := by
  intro hyp word hw
  have h : (g.wf && decide (d < 64) && decide (a < 64) && decide (b < 64)) = true := hyp
  simp only [Bool.and_eq_true, decide_eq_true_eq] at h
  obtain ⟨⟨⟨h0, h1⟩, h2⟩, h3⟩ := h
  cases hw
  exact encVVV_lt h0 (by omega) (by omega) (by omega) (by omega) (by omega)
theorem gshl (g : Guard) (d : Nat) (a : Nat) (b : Nat) : Statement (.gshl g d a b) := by
  intro hyp word hw
  have h : (g.wf && decide (d < 64) && decide (a < 64) && decide (b < 64)) = true := hyp
  simp only [Bool.and_eq_true, decide_eq_true_eq] at h
  obtain ⟨⟨⟨h0, h1⟩, h2⟩, h3⟩ := h
  cases hw
  exact encVVV_lt h0 (by omega) (by omega) (by omega) (by omega) (by omega)
theorem gshr (g : Guard) (d : Nat) (a : Nat) (b : Nat) : Statement (.gshr g d a b) := by
  intro hyp word hw
  have h : (g.wf && decide (d < 64) && decide (a < 64) && decide (b < 64)) = true := hyp
  simp only [Bool.and_eq_true, decide_eq_true_eq] at h
  obtain ⟨⟨⟨h0, h1⟩, h2⟩, h3⟩ := h
  cases hw
  exact encVVV_lt h0 (by omega) (by omega) (by omega) (by omega) (by omega)
theorem gcmp (g : Guard) (a : Nat) (b : Nat) (c : GCond) : Statement (.gcmp g a b c) := by
  intro hyp word hw
  have h : (g.wf && decide (a < 64) && decide (b < 64)) = true := hyp
  simp only [Bool.and_eq_true, decide_eq_true_eq] at h
  obtain ⟨⟨h0, h1⟩, h2⟩ := h
  cases hw
  have := gCond_lt c
  exact encVVV_lt h0 (by omega) (by omega) (by omega) (by omega) (by omega)
theorem gread (g : Guard) (d : Nat) (a : Nat) : Statement (.gread g d a) := by
  intro hyp word hw
  have h : (g.wf && decide (d < 64) && decide (a < 64)) = true := hyp
  simp only [Bool.and_eq_true, decide_eq_true_eq] at h
  obtain ⟨⟨h0, h1⟩, h2⟩ := h
  cases hw
  exact encVVV_lt h0 (by omega) (by omega) (by omega) (by omega) (by omega)
theorem gmovi (g : Guard) (d : Nat) (imm : Int) : Statement (.gmovi g d imm) := by
  intro hyp word hw
  have h : (g.wf && decide (d < 64) && decide (-32768 ≤ imm ∧ imm ≤ 32767)) = true := hyp
  simp only [Bool.and_eq_true, decide_eq_true_eq] at h
  obtain ⟨⟨h0, h1⟩, h2⟩ := h
  cases hw
  have := unsignedOf_lt (n := 65536) imm (by decide)
  exact encVI16_lt h0 (by omega) (by omega) (by omega)
theorem gld (g : Guard) (d : Nat) (b : Nat) (off : Int) : Statement (.gld g d b off) := by
  intro hyp word hw
  have h : (g.wf && decide (d < 64) && decide (b < 64) && decide (-32 ≤ off ∧ off ≤ 31) && decide (b % 2 = 0)) = true := hyp
  simp only [Bool.and_eq_true, decide_eq_true_eq] at h
  obtain ⟨⟨⟨⟨h0, h1⟩, h2⟩, h3⟩, h4⟩ := h
  cases hw
  have := unsignedOf_lt (n := 64) off (by decide)
  exact encVVV_lt h0 (by omega) (by omega) (by omega) (by omega) (by omega)
theorem gst (g : Guard) (d : Nat) (b : Nat) (off : Int) : Statement (.gst g d b off) := by
  intro hyp word hw
  have h : (g.wf && decide (d < 64) && decide (b < 64) && decide (-32 ≤ off ∧ off ≤ 31) && decide (b % 2 = 0)) = true := hyp
  simp only [Bool.and_eq_true, decide_eq_true_eq] at h
  obtain ⟨⟨⟨⟨h0, h1⟩, h2⟩, h3⟩, h4⟩ := h
  cases hw
  have := unsignedOf_lt (n := 64) off (by decide)
  exact encVVV_lt h0 (by omega) (by omega) (by omega) (by omega) (by omega)
theorem bra (g : Guard) (imm : Int) : Statement (.bra g imm) := by
  intro hyp word hw
  have h : (g.wf && decide (-32768 ≤ imm ∧ imm ≤ 32767)) = true := hyp
  simp only [Bool.and_eq_true, decide_eq_true_eq] at h
  obtain ⟨h0, h1⟩ := h
  cases hw
  have := unsignedOf_lt (n := 65536) imm (by decide)
  exact encVI16_lt h0 (by omega) (by omega) (by omega)
theorem call (g : Guard) (d : Nat) (imm : Int) : Statement (.call g d imm) := by
  intro hyp word hw
  have h : (g.wf && decide (d < 64) && decide (-32768 ≤ imm ∧ imm ≤ 32767) && decide (d % 2 = 0)) = true := hyp
  simp only [Bool.and_eq_true, decide_eq_true_eq] at h
  obtain ⟨⟨⟨h0, h1⟩, h2⟩, h3⟩ := h
  cases hw
  have := unsignedOf_lt (n := 65536) imm (by decide)
  exact encVI16_lt h0 (by omega) (by omega) (by omega)
theorem brx (g : Guard) (a : Nat) : Statement (.brx g a) := by
  intro hyp word hw
  have h : (g.wf && decide (a < 64) && decide (a % 2 = 0)) = true := hyp
  simp only [Bool.and_eq_true, decide_eq_true_eq] at h
  obtain ⟨⟨h0, h1⟩, h2⟩ := h
  cases hw
  exact encVVV_lt h0 (by omega) (by omega) (by omega) (by omega) (by omega)
theorem callx (g : Guard) (d : Nat) (a : Nat) : Statement (.callx g d a) := by
  intro hyp word hw
  have h : (g.wf && decide (d < 64) && decide (a < 64) && decide (d % 2 = 0) && decide (a % 2 = 0)) = true := hyp
  simp only [Bool.and_eq_true, decide_eq_true_eq] at h
  obtain ⟨⟨⟨⟨h0, h1⟩, h2⟩, h3⟩, h4⟩ := h
  cases hw
  exact encVVV_lt h0 (by omega) (by omega) (by omega) (by omega) (by omega)
theorem ret (g : Guard) (a : Nat) : Statement (.ret g a) := by
  intro hyp word hw
  have h : (g.wf && decide (a < 64) && decide (a % 2 = 0)) = true := hyp
  simp only [Bool.and_eq_true, decide_eq_true_eq] at h
  obtain ⟨⟨h0, h1⟩, h2⟩ := h
  cases hw
  exact encVVV_lt h0 (by omega) (by omega) (by omega) (by omega) (by omega)
theorem exit (g : Guard) : Statement (.exit g) := by
  intro hyp word hw
  have h0 : g.wf = true := hyp
  cases hw
  exact encVVV_lt h0 (by omega) (by omega) (by omega) (by omega) (by omega)
theorem yield (g : Guard) : Statement (.yield g) := by
  intro hyp word hw
  have h0 : g.wf = true := hyp
  cases hw
  exact encVVV_lt h0 (by omega) (by omega) (by omega) (by omega) (by omega)
theorem sleep (g : Guard) (a : Nat) : Statement (.sleep g a) := by
  intro hyp word hw
  have h : (g.wf && decide (a < 64)) = true := hyp
  simp only [Bool.and_eq_true, decide_eq_true_eq] at h
  obtain ⟨h0, h1⟩ := h
  cases hw
  exact encVVV_lt h0 (by omega) (by omega) (by omega) (by omega) (by omega)
theorem nop (g : Guard) : Statement (.nop g) := by
  intro hyp word hw
  have h0 : g.wf = true := hyp
  cases hw
  exact encVVV_lt h0 (by omega) (by omega) (by omega) (by omega) (by omega)
theorem rgn (g : Guard) (d : Nat) (mask : Nat) : Statement (.rgn g d mask) := by
  intro hyp word hw
  have h : (g.wf && decide (d < 64) && decide (mask < 65536) && (List.range 16).all (fun j => !(mask.testBit j) || decide (d + j < 64))) = true := hyp
  simp only [Bool.and_eq_true, decide_eq_true_eq] at h
  obtain ⟨⟨⟨h0, h1⟩, h2⟩, h3⟩ := h
  cases hw
  exact encVI16_lt h0 (by omega) (by omega) (by omega)
theorem ld (g : Guard) (d : Nat) (b : Nat) (off : Int) (sz : Size) (sx : Bool) : Statement (.ld g d b off sz sx) := by
  intro hyp word hw
  have h : (g.wf && decide (d < 64) && decide (b < 64) && decide (-32 ≤ off ∧ off ≤ 31) && decide (b % 2 = 0) && (!sx || decide (sz = .b ∨ sz = .h)) && (decide (sz ≠ .p) || decide (d % 2 = 0))) = true := hyp
  simp only [Bool.and_eq_true, decide_eq_true_eq] at h
  obtain ⟨⟨⟨⟨⟨⟨h0, h1⟩, h2⟩, h3⟩, h4⟩, h5⟩, h6⟩ := h
  cases hw
  have := size_lt sz
  have := toNat_lt sx
  have := unsignedOf_lt (n := 64) off (by decide)
  exact encVVV_lt h0 (by omega) (by omega) (by omega) (by omega) (by omega)
theorem ldAcq (g : Guard) (d : Nat) (b : Nat) (lvl : Nat) (sz : Size) (sx : Bool) : Statement (.ldAcq g d b lvl sz sx) := by
  intro hyp word hw
  have h : (g.wf && decide (d < 64) && decide (b < 64) && decide (b % 2 = 0) && (!sx || decide (sz = .b ∨ sz = .h)) && (decide (sz ≠ .p) || decide (d % 2 = 0)) && decide (lvl < 8)) = true := hyp
  simp only [Bool.and_eq_true, decide_eq_true_eq] at h
  obtain ⟨⟨⟨⟨⟨⟨h0, h1⟩, h2⟩, h3⟩, h4⟩, h5⟩, h6⟩ := h
  cases hw
  have := size_lt sz
  have := toNat_lt sx
  exact encVVV_lt h0 (by omega) (by omega) (by omega) (by omega) (by omega)
theorem st (g : Guard) (d : Nat) (b : Nat) (off : Int) (sz : Size) : Statement (.st g d b off sz) := by
  intro hyp word hw
  have h : (g.wf && decide (d < 64) && decide (b < 64) && decide (-32 ≤ off ∧ off ≤ 31) && decide (b % 2 = 0) && (decide (sz ≠ .p) || decide (d % 2 = 0))) = true := hyp
  simp only [Bool.and_eq_true, decide_eq_true_eq] at h
  obtain ⟨⟨⟨⟨⟨h0, h1⟩, h2⟩, h3⟩, h4⟩, h5⟩ := h
  cases hw
  have := size_lt sz
  have := unsignedOf_lt (n := 64) off (by decide)
  exact encVVV_lt h0 (by omega) (by omega) (by omega) (by omega) (by omega)
theorem stRel (g : Guard) (d : Nat) (b : Nat) (lvl : Nat) (sz : Size) : Statement (.stRel g d b lvl sz) := by
  intro hyp word hw
  have h : (g.wf && decide (d < 64) && decide (b < 64) && decide (b % 2 = 0) && (decide (sz ≠ .p) || decide (d % 2 = 0)) && decide (lvl < 8)) = true := hyp
  simp only [Bool.and_eq_true, decide_eq_true_eq] at h
  obtain ⟨⟨⟨⟨⟨h0, h1⟩, h2⟩, h3⟩, h4⟩, h5⟩ := h
  cases hw
  have := size_lt sz
  exact encVVV_lt h0 (by omega) (by omega) (by omega) (by omega) (by omega)
theorem ldc (g : Guard) (d : Nat) (b : Nat) (off : Int) (sz : Size) : Statement (.ldc g d b off sz) := by
  intro hyp word hw
  have h : (g.wf && decide (d < 64) && decide (b < 64) && decide (-32 ≤ off ∧ off ≤ 31) && (decide (sz ≠ .p) || decide (d % 2 = 0))) = true := hyp
  simp only [Bool.and_eq_true, decide_eq_true_eq] at h
  obtain ⟨⟨⟨⟨h0, h1⟩, h2⟩, h3⟩, h4⟩ := h
  cases hw
  have := size_lt sz
  have := unsignedOf_lt (n := 64) off (by decide)
  exact encVVV_lt h0 (by omega) (by omega) (by omega) (by omega) (by omega)
theorem stc (g : Guard) (d : Nat) (b : Nat) (off : Int) (sz : Size) : Statement (.stc g d b off sz) := by
  intro hyp word hw
  have h : (g.wf && decide (d < 64) && decide (b < 64) && decide (-32 ≤ off ∧ off ≤ 31) && (decide (sz ≠ .p) || decide (d % 2 = 0))) = true := hyp
  simp only [Bool.and_eq_true, decide_eq_true_eq] at h
  obtain ⟨⟨⟨⟨h0, h1⟩, h2⟩, h3⟩, h4⟩ := h
  cases hw
  have := size_lt sz
  have := unsignedOf_lt (n := 64) off (by decide)
  exact encVVV_lt h0 (by omega) (by omega) (by omega) (by omega) (by omega)
theorem ldk (g : Guard) (d : Nat) (b : Nat) (off : Int) (sz : Size) : Statement (.ldk g d b off sz) := by
  intro hyp word hw
  have h : (g.wf && decide (d < 64) && decide (b < 64) && decide (-32 ≤ off ∧ off ≤ 31) && (decide (sz ≠ .p) || decide (d % 2 = 0))) = true := hyp
  simp only [Bool.and_eq_true, decide_eq_true_eq] at h
  obtain ⟨⟨⟨⟨h0, h1⟩, h2⟩, h3⟩, h4⟩ := h
  cases hw
  have := size_lt sz
  have := unsignedOf_lt (n := 64) off (by decide)
  exact encVVV_lt h0 (by omega) (by omega) (by omega) (by omega) (by omega)
theorem stk (g : Guard) (d : Nat) (b : Nat) (off : Int) (sz : Size) : Statement (.stk g d b off sz) := by
  intro hyp word hw
  have h : (g.wf && decide (d < 64) && decide (b < 64) && decide (-32 ≤ off ∧ off ≤ 31) && (decide (sz ≠ .p) || decide (d % 2 = 0))) = true := hyp
  simp only [Bool.and_eq_true, decide_eq_true_eq] at h
  obtain ⟨⟨⟨⟨h0, h1⟩, h2⟩, h3⟩, h4⟩ := h
  cases hw
  have := size_lt sz
  have := unsignedOf_lt (n := 64) off (by decide)
  exact encVVV_lt h0 (by omega) (by omega) (by omega) (by omega) (by omega)
theorem ldl (g : Guard) (d : Nat) (b : Nat) (off : Int) (sz : Size) : Statement (.ldl g d b off sz) := by
  intro hyp word hw
  have h : (g.wf && decide (d < 64) && decide (b < 64) && decide (-32 ≤ off ∧ off ≤ 31) && (decide (sz ≠ .p) || decide (d % 2 = 0))) = true := hyp
  simp only [Bool.and_eq_true, decide_eq_true_eq] at h
  obtain ⟨⟨⟨⟨h0, h1⟩, h2⟩, h3⟩, h4⟩ := h
  cases hw
  have := size_lt sz
  have := unsignedOf_lt (n := 64) off (by decide)
  exact encVVV_lt h0 (by omega) (by omega) (by omega) (by omega) (by omega)
theorem stl (g : Guard) (d : Nat) (b : Nat) (off : Int) (sz : Size) : Statement (.stl g d b off sz) := by
  intro hyp word hw
  have h : (g.wf && decide (d < 64) && decide (b < 64) && decide (-32 ≤ off ∧ off ≤ 31) && (decide (sz ≠ .p) || decide (d % 2 = 0))) = true := hyp
  simp only [Bool.and_eq_true, decide_eq_true_eq] at h
  obtain ⟨⟨⟨⟨h0, h1⟩, h2⟩, h3⟩, h4⟩ := h
  cases hw
  have := size_lt sz
  have := unsignedOf_lt (n := 64) off (by decide)
  exact encVVV_lt h0 (by omega) (by omega) (by omega) (by omega) (by omega)
theorem ldm (g : Guard) (d : Nat) (b : Nat) (n : Nat) : Statement (.ldm g d b n) := by
  intro hyp word hw
  have h : (g.wf && decide (d < 64) && decide (b < 64) && decide (b % 2 = 0) && decide (1 ≤ n ∧ n ≤ 16) && decide (d + n ≤ 64)) = true := hyp
  simp only [Bool.and_eq_true, decide_eq_true_eq] at h
  obtain ⟨⟨⟨⟨⟨h0, h1⟩, h2⟩, h3⟩, h4⟩, h5⟩ := h
  cases hw
  exact encVVV_lt h0 (by omega) (by omega) (by omega) (by omega) (by omega)
theorem stm (g : Guard) (d : Nat) (b : Nat) (n : Nat) : Statement (.stm g d b n) := by
  intro hyp word hw
  have h : (g.wf && decide (d < 64) && decide (b < 64) && decide (b % 2 = 0) && decide (1 ≤ n ∧ n ≤ 16) && decide (d + n ≤ 64)) = true := hyp
  simp only [Bool.and_eq_true, decide_eq_true_eq] at h
  obtain ⟨⟨⟨⟨⟨h0, h1⟩, h2⟩, h3⟩, h4⟩, h5⟩ := h
  cases hw
  exact encVVV_lt h0 (by omega) (by omega) (by omega) (by omega) (by omega)
theorem ldt (g : Guard) (t : Nat) (sp : TSpace) (b : Nat) (off : Int) : Statement (.ldt g t sp b off) := by
  intro hyp word hw
  have h : (g.wf && decide (b < 64) && decide (-32 ≤ off ∧ off ≤ 31) && decide (t < 16) && (decide (sp ≠ .global) || decide (b % 2 = 0))) = true := hyp
  simp only [Bool.and_eq_true, decide_eq_true_eq] at h
  obtain ⟨⟨⟨⟨h0, h1⟩, h2⟩, h3⟩, h4⟩ := h
  cases hw
  have := tSpace_lt sp
  have := unsignedOf_lt (n := 64) off (by decide)
  exact encVVV_lt h0 (by omega) (by omega) (by omega) (by omega) (by omega)
theorem stt (g : Guard) (t : Nat) (sp : TSpace) (b : Nat) (off : Int) : Statement (.stt g t sp b off) := by
  intro hyp word hw
  have h : (g.wf && decide (b < 64) && decide (-32 ≤ off ∧ off ≤ 31) && decide (t < 16) && (decide (sp ≠ .global) || decide (b % 2 = 0))) = true := hyp
  simp only [Bool.and_eq_true, decide_eq_true_eq] at h
  obtain ⟨⟨⟨⟨h0, h1⟩, h2⟩, h3⟩, h4⟩ := h
  cases hw
  have := tSpace_lt sp
  have := unsignedOf_lt (n := 64) off (by decide)
  exact encVVV_lt h0 (by omega) (by omega) (by omega) (by omega) (by omega)
theorem ldsc (g : Guard) (d : Nat) (b : Nat) (f : Nat) : Statement (.ldsc g d b f) := by
  intro hyp word hw
  have h : (g.wf && decide (d < 64) && decide (b < 64) && decide (b % 4 = 0) && decide (f < 8)) = true := hyp
  simp only [Bool.and_eq_true, decide_eq_true_eq] at h
  obtain ⟨⟨⟨⟨h0, h1⟩, h2⟩, h3⟩, h4⟩ := h
  cases hw
  exact encVVV_lt h0 (by omega) (by omega) (by omega) (by omega) (by omega)
theorem atom (g : Guard) (d : Nat) (b : Nat) (lvl : Nat) (op : AtomOp) : Statement (.atom g d b lvl op) := by
  intro hyp word hw
  have h : (g.wf && decide (d < 64) && decide (b < 64) && decide (b % 2 = 0) && decide (lvl < 8)) = true := hyp
  simp only [Bool.and_eq_true, decide_eq_true_eq] at h
  obtain ⟨⟨⟨⟨h0, h1⟩, h2⟩, h3⟩, h4⟩ := h
  cases hw
  have := atomOp_lt op
  exact encVVV_lt h0 (by omega) (by omega) (by omega) (by omega) (by omega)
theorem cas (g : Guard) (d : Nat) (b : Nat) (lvl : Nat) : Statement (.cas g d b lvl) := by
  intro hyp word hw
  have h : (g.wf && decide (d < 64) && decide (b < 64) && decide (b % 2 = 0) && decide (lvl < 8) && decide (d % 2 = 0)) = true := hyp
  simp only [Bool.and_eq_true, decide_eq_true_eq] at h
  obtain ⟨⟨⟨⟨⟨h0, h1⟩, h2⟩, h3⟩, h4⟩, h5⟩ := h
  cases hw
  exact encVVV_lt h0 (by omega) (by omega) (by omega) (by omega) (by omega)
theorem ldx (g : Guard) (d : Nat) (b : Nat) (c : Nat) : Statement (.ldx g d b c) := by
  intro hyp word hw
  have h : (g.wf && decide (d < 64) && decide (b < 64) && decide (b % 2 = 0) && decide (c < 64)) = true := hyp
  simp only [Bool.and_eq_true, decide_eq_true_eq] at h
  obtain ⟨⟨⟨⟨h0, h1⟩, h2⟩, h3⟩, h4⟩ := h
  cases hw
  exact encVVV_lt h0 (by omega) (by omega) (by omega) (by omega) (by omega)
theorem pref (g : Guard) (die : Bool) (b : Nat) (off : Int) : Statement (.pref g die b off) := by
  intro hyp word hw
  have h : (g.wf && decide (b < 64) && decide (-32 ≤ off ∧ off ≤ 31) && decide (b % 2 = 0)) = true := hyp
  simp only [Bool.and_eq_true, decide_eq_true_eq] at h
  obtain ⟨⟨⟨h0, h1⟩, h2⟩, h3⟩ := h
  cases hw
  have := toNat_lt die
  have := unsignedOf_lt (n := 64) off (by decide)
  exact encVVV_lt h0 (by omega) (by omega) (by omega) (by omega) (by omega)
theorem cctl (g : Guard) (op : CacheOp) (b : Nat) (off : Int) : Statement (.cctl g op b off) := by
  intro hyp word hw
  have h : (g.wf && decide (b < 64) && decide (-32 ≤ off ∧ off ≤ 31) && decide (b % 2 = 0)) = true := hyp
  simp only [Bool.and_eq_true, decide_eq_true_eq] at h
  obtain ⟨⟨⟨h0, h1⟩, h2⟩, h3⟩ := h
  cases hw
  have := cacheOp_lt op
  have := unsignedOf_lt (n := 64) off (by decide)
  exact encVVV_lt h0 (by omega) (by omega) (by omega) (by omega) (by omega)
theorem sfillA (g : Guard) (d : Nat) (b : Nat) (off : Int) : Statement (.sfillA g d b off) := by
  intro hyp word hw
  have h : (g.wf && decide (d < 64) && decide (b < 64) && decide (-32 ≤ off ∧ off ≤ 31) && decide (b % 2 = 0)) = true := hyp
  simp only [Bool.and_eq_true, decide_eq_true_eq] at h
  obtain ⟨⟨⟨⟨h0, h1⟩, h2⟩, h3⟩, h4⟩ := h
  cases hw
  have := unsignedOf_lt (n := 64) off (by decide)
  exact encVVV_lt h0 (by omega) (by omega) (by omega) (by omega) (by omega)
theorem sfillB (g : Guard) (d : Nat) (b : Nat) (off : Int) : Statement (.sfillB g d b off) := by
  intro hyp word hw
  have h : (g.wf && decide (d < 64) && decide (b < 64) && decide (-32 ≤ off ∧ off ≤ 31) && decide (b % 2 = 0)) = true := hyp
  simp only [Bool.and_eq_true, decide_eq_true_eq] at h
  obtain ⟨⟨⟨⟨h0, h1⟩, h2⟩, h3⟩, h4⟩ := h
  cases hw
  have := unsignedOf_lt (n := 64) off (by decide)
  exact encVVV_lt h0 (by omega) (by omega) (by omega) (by omega) (by omega)
theorem mbinit (g : Guard) (a : Nat) (b : Nat) : Statement (.mbinit g a b) := by
  intro hyp word hw
  have h : (g.wf && decide (a < 64) && decide (b < 64)) = true := hyp
  simp only [Bool.and_eq_true, decide_eq_true_eq] at h
  obtain ⟨⟨h0, h1⟩, h2⟩ := h
  cases hw
  exact encVVV_lt h0 (by omega) (by omega) (by omega) (by omega) (by omega)
theorem mbexpect (g : Guard) (a : Nat) (b : Nat) : Statement (.mbexpect g a b) := by
  intro hyp word hw
  have h : (g.wf && decide (a < 64) && decide (b < 64)) = true := hyp
  simp only [Bool.and_eq_true, decide_eq_true_eq] at h
  obtain ⟨⟨h0, h1⟩, h2⟩ := h
  cases hw
  exact encVVV_lt h0 (by omega) (by omega) (by omega) (by omega) (by omega)
theorem mbarrive (g : Guard) (a : Nat) : Statement (.mbarrive g a) := by
  intro hyp word hw
  have h : (g.wf && decide (a < 64)) = true := hyp
  simp only [Bool.and_eq_true, decide_eq_true_eq] at h
  obtain ⟨h0, h1⟩ := h
  cases hw
  exact encVVV_lt h0 (by omega) (by omega) (by omega) (by omega) (by omega)
theorem mbwait (g : Guard) (d : Nat) (a : Nat) (b : Nat) : Statement (.mbwait g d a b) := by
  intro hyp word hw
  have h : (g.wf && decide (d < 64) && decide (a < 64) && decide (b < 64)) = true := hyp
  simp only [Bool.and_eq_true, decide_eq_true_eq] at h
  obtain ⟨⟨⟨h0, h1⟩, h2⟩, h3⟩ := h
  cases hw
  exact encVVV_lt h0 (by omega) (by omega) (by omega) (by omega) (by omega)
theorem mbtest (g : Guard) (a : Nat) (b : Nat) : Statement (.mbtest g a b) := by
  intro hyp word hw
  have h : (g.wf && decide (a < 64) && decide (b < 64)) = true := hyp
  simp only [Bool.and_eq_true, decide_eq_true_eq] at h
  obtain ⟨⟨h0, h1⟩, h2⟩ := h
  cases hw
  exact encVVV_lt h0 (by omega) (by omega) (by omega) (by omega) (by omega)
theorem waitc (g : Guard) (c : CClass) (n : Nat) : Statement (.waitc g c n) := by
  intro hyp word hw
  have h : (g.wf && decide (n < 64)) = true := hyp
  simp only [Bool.and_eq_true, decide_eq_true_eq] at h
  obtain ⟨h0, h1⟩ := h
  cases hw
  have := cClass_lt c
  exact encVVV_lt h0 (by omega) (by omega) (by omega) (by omega) (by omega)
theorem cntrd (g : Guard) (d : Nat) (c : CClass) : Statement (.cntrd g d c) := by
  intro hyp word hw
  have h : (g.wf && decide (d < 64)) = true := hyp
  simp only [Bool.and_eq_true, decide_eq_true_eq] at h
  obtain ⟨h0, h1⟩ := h
  cases hw
  have := cClass_lt c
  exact encVVV_lt h0 (by omega) (by omega) (by omega) (by omega) (by omega)
theorem cvdecl (g : Guard) (v : Nat) (a : Nat) : Statement (.cvdecl g v a) := by
  intro hyp word hw
  have h : (g.wf && decide (a < 64) && decide (v < 8)) = true := hyp
  simp only [Bool.and_eq_true, decide_eq_true_eq] at h
  obtain ⟨⟨h0, h1⟩, h2⟩ := h
  cases hw
  exact encVVV_lt h0 (by omega) (by omega) (by omega) (by omega) (by omega)
theorem cvsign (g : Guard) (v : Nat) : Statement (.cvsign g v) := by
  intro hyp word hw
  have h : (g.wf && decide (v < 8)) = true := hyp
  simp only [Bool.and_eq_true, decide_eq_true_eq] at h
  obtain ⟨h0, h1⟩ := h
  cases hw
  exact encVVV_lt h0 (by omega) (by omega) (by omega) (by omega) (by omega)
theorem mma (g : Guard) (ka : Bool) (kb : Bool) (c : Nat) (fa : Nat) (fb : Nat) (v : Nat) : Statement (.mma g ka kb c fa fb v) := by
  intro hyp word hw
  have h : (g.wf && decide (c < 8) && decide (fa < 8) && decide (fb < 8) && decide (v < 8)) = true := hyp
  simp only [Bool.and_eq_true, decide_eq_true_eq] at h
  obtain ⟨⟨⟨⟨h0, h1⟩, h2⟩, h3⟩, h4⟩ := h
  cases hw
  have := toNat_lt ka
  have := toNat_lt kb
  exact encVVV_lt h0 (by omega) (by omega) (by omega) (by omega) (by omega)
theorem procfg (g : Guard) (s64 : Bool) : Statement (.procfg g s64) := by
  intro hyp word hw
  have h0 : g.wf = true := hyp
  cases hw
  have := toNat_lt s64
  exact encVVV_lt h0 (by omega) (by omega) (by omega) (by omega) (by omega)
theorem accrdT (g : Guard) (d : Nat) (c : Nat) (f : Nat) (h : Nat) : Statement (.accrdT g d c f h) := by
  intro hyp word hw
  have h : (g.wf && decide (d < 16) && decide (c < 8) && decide (f < 8) && decide (h < 8)) = true := hyp
  simp only [Bool.and_eq_true, decide_eq_true_eq] at h
  obtain ⟨⟨⟨⟨h0, h1⟩, h2⟩, h3⟩, h4⟩ := h
  cases hw
  exact encVVV_lt h0 (by omega) (by omega) (by omega) (by omega) (by omega)
theorem accrdV (g : Guard) (d : Nat) (c : Nat) (f : Nat) : Statement (.accrdV g d c f) := by
  intro hyp word hw
  have h : (g.wf && decide (d < 64) && decide (c < 8) && decide (f < 8)) = true := hyp
  simp only [Bool.and_eq_true, decide_eq_true_eq] at h
  obtain ⟨⟨⟨h0, h1⟩, h2⟩, h3⟩ := h
  cases hw
  exact encVVV_lt h0 (by omega) (by omega) (by omega) (by omega) (by omega)
theorem accrdC (g : Guard) (d : Nat) (c : Nat) (f : Nat) : Statement (.accrdC g d c f) := by
  intro hyp word hw
  have h : (g.wf && decide (d < 64) && decide (c < 8) && decide (f < 8)) = true := hyp
  simp only [Bool.and_eq_true, decide_eq_true_eq] at h
  obtain ⟨⟨⟨h0, h1⟩, h2⟩, h3⟩ := h
  cases hw
  exact encVVV_lt h0 (by omega) (by omega) (by omega) (by omega) (by omega)
theorem accwr (g : Guard) (c : Nat) (a : Nat) : Statement (.accwr g c a) := by
  intro hyp word hw
  have h : (g.wf && decide (c < 8) && decide (a < 16)) = true := hyp
  simp only [Bool.and_eq_true, decide_eq_true_eq] at h
  obtain ⟨⟨h0, h1⟩, h2⟩ := h
  cases hw
  exact encVVV_lt h0 (by omega) (by omega) (by omega) (by omega) (by omega)
theorem accz (g : Guard) (c : Nat) : Statement (.accz g c) := by
  intro hyp word hw
  have h : (g.wf && decide (c < 8)) = true := hyp
  simp only [Bool.and_eq_true, decide_eq_true_eq] at h
  obtain ⟨h0, h1⟩ := h
  cases hw
  exact encVVV_lt h0 (by omega) (by omega) (by omega) (by omega) (by omega)
theorem sbindT (g : Guard) (d : Nat) (a : Nat) (f : Nat) : Statement (.sbindT g d a f) := by
  intro hyp word hw
  have h : (g.wf && decide (a < 64) && decide (d < 16) && decide (f < 8)) = true := hyp
  simp only [Bool.and_eq_true, decide_eq_true_eq] at h
  obtain ⟨⟨⟨h0, h1⟩, h2⟩, h3⟩ := h
  cases hw
  exact encVVV_lt h0 (by omega) (by omega) (by omega) (by omega) (by omega)
theorem sbindV (g : Guard) (d : Nat) (a : Nat) : Statement (.sbindV g d a) := by
  intro hyp word hw
  have h : (g.wf && decide (d < 64) && decide (a < 64)) = true := hyp
  simp only [Bool.and_eq_true, decide_eq_true_eq] at h
  obtain ⟨⟨h0, h1⟩, h2⟩ := h
  cases hw
  exact encVVV_lt h0 (by omega) (by omega) (by omega) (by omega) (by omega)
theorem sunbindT (g : Guard) (d : Nat) : Statement (.sunbindT g d) := by
  intro hyp word hw
  have h : (g.wf && decide (d < 16)) = true := hyp
  simp only [Bool.and_eq_true, decide_eq_true_eq] at h
  obtain ⟨h0, h1⟩ := h
  cases hw
  exact encVVV_lt h0 (by omega) (by omega) (by omega) (by omega) (by omega)
theorem sunbindV (g : Guard) (d : Nat) : Statement (.sunbindV g d) := by
  intro hyp word hw
  have h : (g.wf && decide (d < 64)) = true := hyp
  simp only [Bool.and_eq_true, decide_eq_true_eq] at h
  obtain ⟨h0, h1⟩ := h
  cases hw
  exact encVVV_lt h0 (by omega) (by omega) (by omega) (by omega) (by omega)
theorem stagrd (g : Guard) (d : Nat) (x : Nat) (k : Nat) : Statement (.stagrd g d x k) := by
  intro hyp word hw
  have h : (g.wf && decide (d < 64) && decide (x < 64) && decide (k < 3) && (decide (k ≠ 0) || decide (x < 16))) = true := hyp
  simp only [Bool.and_eq_true, decide_eq_true_eq] at h
  obtain ⟨⟨⟨⟨h0, h1⟩, h2⟩, h3⟩, h4⟩ := h
  cases hw
  exact encVVV_lt h0 (by omega) (by omega) (by omega) (by omega) (by omega)
theorem smov (g : Guard) (d : Nat) (a : Nat) (n : Nat) : Statement (.smov g d a n) := by
  intro hyp word hw
  have h : (g.wf && decide (d < 64) && decide (a < 64) && decide (n < 5) && decide (d + 2 ^ n ≤ 64) && decide (a + 2 ^ n ≤ 64)) = true := hyp
  simp only [Bool.and_eq_true, decide_eq_true_eq] at h
  obtain ⟨⟨⟨⟨⟨h0, h1⟩, h2⟩, h3⟩, _⟩, _⟩ := h
  cases hw
  exact encVVV_lt h0 (by omega) (by omega) (by omega) (by omega) (by omega)
theorem smul (g : Guard) (d : Nat) (a : Nat) (n : Nat) (band : Bool) : Statement (.smul g d a n band) := by
  intro hyp word hw
  have h : (g.wf && decide (d < 64) && decide (a < 64) && decide (n < 5) && decide (d + 2 ^ n ≤ 64)) = true := hyp
  simp only [Bool.and_eq_true, decide_eq_true_eq] at h
  obtain ⟨⟨⟨⟨h0, h1⟩, h2⟩, h3⟩, _⟩ := h
  cases hw
  have := toNat_lt band
  exact encVVV_lt h0 (by omega) (by omega) (by omega) (by omega) (by omega)
theorem sadd (g : Guard) (d : Nat) (a : Nat) (n : Nat) (band : Bool) : Statement (.sadd g d a n band) := by
  intro hyp word hw
  have h : (g.wf && decide (d < 64) && decide (a < 64) && decide (n < 5) && decide (d + 2 ^ n ≤ 64) && decide (a + 2 ^ n ≤ 64)) = true := hyp
  simp only [Bool.and_eq_true, decide_eq_true_eq] at h
  obtain ⟨⟨⟨⟨⟨h0, h1⟩, h2⟩, h3⟩, _⟩, _⟩ := h
  cases hw
  have := toNat_lt band
  exact encVVV_lt h0 (by omega) (by omega) (by omega) (by omega) (by omega)
theorem smax (g : Guard) (d : Nat) (a : Nat) (n : Nat) (band : Bool) : Statement (.smax g d a n band) := by
  intro hyp word hw
  have h : (g.wf && decide (d < 64) && decide (a < 64) && decide (n < 5) && decide (d + 2 ^ n ≤ 64) && decide (a + 2 ^ n ≤ 64)) = true := hyp
  simp only [Bool.and_eq_true, decide_eq_true_eq] at h
  obtain ⟨⟨⟨⟨⟨h0, h1⟩, h2⟩, h3⟩, _⟩, _⟩ := h
  cases hw
  have := toNat_lt band
  exact encVVV_lt h0 (by omega) (by omega) (by omega) (by omega) (by omega)
theorem sld (g : Guard) (d : Nat) (b : Nat) (off : Int) : Statement (.sld g d b off) := by
  intro hyp word hw
  have h : (g.wf && decide (d < 64) && decide (b < 64) && decide (-32 ≤ off ∧ off ≤ 31) && decide (b % 2 = 0)) = true := hyp
  simp only [Bool.and_eq_true, decide_eq_true_eq] at h
  obtain ⟨⟨⟨⟨h0, h1⟩, h2⟩, h3⟩, h4⟩ := h
  cases hw
  have := unsignedOf_lt (n := 64) off (by decide)
  exact encVVV_lt h0 (by omega) (by omega) (by omega) (by omega) (by omega)
theorem sst (g : Guard) (d : Nat) (b : Nat) (off : Int) : Statement (.sst g d b off) := by
  intro hyp word hw
  have h : (g.wf && decide (d < 64) && decide (b < 64) && decide (-32 ≤ off ∧ off ≤ 31) && decide (b % 2 = 0)) = true := hyp
  simp only [Bool.and_eq_true, decide_eq_true_eq] at h
  obtain ⟨⟨⟨⟨h0, h1⟩, h2⟩, h3⟩, h4⟩ := h
  cases hw
  have := unsignedOf_lt (n := 64) off (by decide)
  exact encVVV_lt h0 (by omega) (by omega) (by omega) (by omega) (by omega)
theorem launch (g : Guard) (lvl : Nat) (x : Nat) (y : Nat) : Statement (.launch g lvl x y) := by
  intro hyp word hw
  have h : (g.wf && decide (x < 64) && decide (y < 64) && decide (lvl < 8)) = true := hyp
  simp only [Bool.and_eq_true, decide_eq_true_eq] at h
  obtain ⟨⟨⟨h0, h1⟩, h2⟩, h3⟩ := h
  cases hw
  exact encLVL_lt h0 (by omega) (by omega) (by omega) (by omega) (by omega) (by omega)
theorem tsplit (g : Guard) (lvl : Nat) (x : Nat) (y : Nat) : Statement (.tsplit g lvl x y) := by
  intro hyp word hw
  have h : (g.wf && decide (x < 64) && decide (y < 64) && decide (lvl < 8) && decide (x % 2 = 0) && decide (x + 1 < 64) && decide (y + 1 < 64)) = true := hyp
  simp only [Bool.and_eq_true, decide_eq_true_eq] at h
  obtain ⟨⟨⟨⟨⟨⟨h0, h1⟩, h2⟩, h3⟩, h4⟩, h5⟩, h6⟩ := h
  cases hw
  exact encLVL_lt h0 (by omega) (by omega) (by omega) (by omega) (by omega) (by omega)
theorem tsplitX (g : Guard) (x : Nat) (y : Nat) : Statement (.tsplitX g x y) := by
  intro hyp word hw
  have h : (g.wf && decide (x < 64) && decide (y < 64) && decide (x % 2 = 0) && decide (y + 2 < 64)) = true := hyp
  simp only [Bool.and_eq_true, decide_eq_true_eq] at h
  obtain ⟨⟨⟨⟨h0, h1⟩, h2⟩, h3⟩, h4⟩ := h
  cases hw
  exact encLVL_lt h0 (by omega) (by omega) (by omega) (by omega) (by omega) (by omega)
theorem evqrd (g : Guard) (lvl : Nat) (x : Nat) (y : Nat) (m : Bool) (w : Bool) : Statement (.evqrd g lvl x y m w) := by
  intro hyp word hw
  have h : (g.wf && decide (x < 64) && decide (y < 64) && decide (lvl < 8) && decide (x % 4 = 0) && (m || decide (y = 0))) = true := hyp
  simp only [Bool.and_eq_true, decide_eq_true_eq] at h
  obtain ⟨⟨⟨⟨⟨h0, h1⟩, h2⟩, h3⟩, h4⟩, h5⟩ := h
  cases hw
  have := toNat_lt m
  have := toNat_lt w
  exact encLVL_lt h0 (by omega) (by omega) (by omega) (by omega) (by omega) (by omega)
theorem bar (g : Guard) (lvl : Nat) : Statement (.bar g lvl) := by
  intro hyp word hw
  have h : (g.wf && decide (lvl < 8)) = true := hyp
  simp only [Bool.and_eq_true, decide_eq_true_eq] at h
  obtain ⟨h0, h1⟩ := h
  cases hw
  exact encLVL_lt h0 (by omega) (by omega) (by omega) (by omega) (by omega) (by omega)
theorem fenceRel (g : Guard) (lvl : Nat) : Statement (.fenceRel g lvl) := by
  intro hyp word hw
  have h : (g.wf && decide (lvl < 8)) = true := hyp
  simp only [Bool.and_eq_true, decide_eq_true_eq] at h
  obtain ⟨h0, h1⟩ := h
  cases hw
  exact encLVL_lt h0 (by omega) (by omega) (by omega) (by omega) (by omega) (by omega)
theorem fenceAcq (g : Guard) (lvl : Nat) : Statement (.fenceAcq g lvl) := by
  intro hyp word hw
  have h : (g.wf && decide (lvl < 8)) = true := hyp
  simp only [Bool.and_eq_true, decide_eq_true_eq] at h
  obtain ⟨h0, h1⟩ := h
  cases hw
  exact encLVL_lt h0 (by omega) (by omega) (by omega) (by omega) (by omega) (by omega)
theorem fenceAcqrel (g : Guard) (lvl : Nat) : Statement (.fenceAcqrel g lvl) := by
  intro hyp word hw
  have h : (g.wf && decide (lvl < 8)) = true := hyp
  simp only [Bool.and_eq_true, decide_eq_true_eq] at h
  obtain ⟨h0, h1⟩ := h
  cases hw
  exact encLVL_lt h0 (by omega) (by omega) (by omega) (by omega) (by omega) (by omega)
theorem fenceSc (g : Guard) (lvl : Nat) : Statement (.fenceSc g lvl) := by
  intro hyp word hw
  have h : (g.wf && decide (lvl < 8)) = true := hyp
  simp only [Bool.and_eq_true, decide_eq_true_eq] at h
  obtain ⟨h0, h1⟩ := h
  cases hw
  exact encLVL_lt h0 (by omega) (by omega) (by omega) (by omega) (by omega) (by omega)
theorem mcopyDown (g : Guard) (lvl : Nat) (x : Nat) (y : Nat) (r : Bool) : Statement (.mcopyDown g lvl x y r) := by
  intro hyp word hw
  have h : (g.wf && decide (x < 64) && decide (y < 64) && decide (lvl < 8) && decide (x % 8 = 0)) = true := hyp
  simp only [Bool.and_eq_true, decide_eq_true_eq] at h
  obtain ⟨⟨⟨⟨h0, h1⟩, h2⟩, h3⟩, h4⟩ := h
  cases hw
  have := toNat_lt r
  exact encLVL_lt h0 (by omega) (by omega) (by omega) (by omega) (by omega) (by omega)
theorem mcopyUp (g : Guard) (lvl : Nat) (x : Nat) (y : Nat) (r : Bool) : Statement (.mcopyUp g lvl x y r) := by
  intro hyp word hw
  have h : (g.wf && decide (x < 64) && decide (y < 64) && decide (lvl < 8) && decide (x % 8 = 0)) = true := hyp
  simp only [Bool.and_eq_true, decide_eq_true_eq] at h
  obtain ⟨⟨⟨⟨h0, h1⟩, h2⟩, h3⟩, h4⟩ := h
  cases hw
  have := toNat_lt r
  exact encLVL_lt h0 (by omega) (by omega) (by omega) (by omega) (by omega) (by omega)
theorem reduce (g : Guard) (lvl : Nat) (x : Nat) (y : Nat) (op : RedOp) (one : Bool) (r : Bool) : Statement (.reduce g lvl x y op one r) := by
  intro hyp word hw
  have h : (g.wf && decide (x < 64) && decide (y < 64) && decide (lvl < 8) && (decide (lvl < 3 ∨ 5 < lvl) || decide (x % 2 = 0)) && (decide (lvl ≠ 0) || (!one && !r))) = true := hyp
  simp only [Bool.and_eq_true, decide_eq_true_eq] at h
  obtain ⟨⟨⟨⟨⟨h0, h1⟩, h2⟩, h3⟩, h4⟩, h5⟩ := h
  cases hw
  have := redOp_lt op
  have := toNat_lt one
  have := toNat_lt r
  exact encLVL_lt h0 (by omega) (by omega) (by omega) (by omega) (by omega) (by omega)
theorem cmbopen (g : Guard) (d : Nat) (a : Nat) : Statement (.cmbopen g d a) := by
  intro hyp word hw
  have h : (g.wf && decide (d < 64) && decide (a < 64) && decide (a + 3 < 64)) = true := hyp
  simp only [Bool.and_eq_true, decide_eq_true_eq] at h
  obtain ⟨⟨⟨h0, h1⟩, h2⟩, h3⟩ := h
  cases hw
  exact encVVV_lt h0 (by omega) (by omega) (by omega) (by omega) (by omega)
theorem cmbput (g : Guard) (d : Nat) (a : Nat) (b : Nat) : Statement (.cmbput g d a b) := by
  intro hyp word hw
  have h : (g.wf && decide (d < 64) && decide (a < 64) && decide (b < 64) && decide (b % 2 = 0)) = true := hyp
  simp only [Bool.and_eq_true, decide_eq_true_eq] at h
  obtain ⟨⟨⟨⟨h0, h1⟩, h2⟩, h3⟩, h4⟩ := h
  cases hw
  exact encVVV_lt h0 (by omega) (by omega) (by omega) (by omega) (by omega)
theorem cmbwait (g : Guard) (d : Nat) (a : Nat) : Statement (.cmbwait g d a) := by
  intro hyp word hw
  have h : (g.wf && decide (d < 64) && decide (a < 64)) = true := hyp
  simp only [Bool.and_eq_true, decide_eq_true_eq] at h
  obtain ⟨⟨h0, h1⟩, h2⟩ := h
  cases hw
  exact encVVV_lt h0 (by omega) (by omega) (by omega) (by omega) (by omega)
theorem cmbwaitBatch (g : Guard) (d : Nat) (a : Nat) : Statement (.cmbwaitBatch g d a) := by
  intro hyp word hw
  have h : (g.wf && decide (d < 64) && decide (a < 64)) = true := hyp
  simp only [Bool.and_eq_true, decide_eq_true_eq] at h
  obtain ⟨⟨h0, h1⟩, h2⟩ := h
  cases hw
  exact encVVV_lt h0 (by omega) (by omega) (by omega) (by omega) (by omega)
theorem cmbclose (g : Guard) (a : Nat) : Statement (.cmbclose g a) := by
  intro hyp word hw
  have h : (g.wf && decide (a < 64)) = true := hyp
  simp only [Bool.and_eq_true, decide_eq_true_eq] at h
  obtain ⟨h0, h1⟩ := h
  cases hw
  exact encVVV_lt h0 (by omega) (by omega) (by omega) (by omega) (by omega)
theorem cmbcloseDrop (g : Guard) (a : Nat) : Statement (.cmbcloseDrop g a) := by
  intro hyp word hw
  have h : (g.wf && decide (a < 64)) = true := hyp
  simp only [Bool.and_eq_true, decide_eq_true_eq] at h
  obtain ⟨h0, h1⟩ := h
  cases hw
  exact encVVV_lt h0 (by omega) (by omega) (by omega) (by omega) (by omega)
theorem cmbstat (g : Guard) (d : Nat) (a : Nat) (s : Nat) : Statement (.cmbstat g d a s) := by
  intro hyp word hw
  have h : (g.wf && decide (d < 64) && decide (a < 64) && decide (s < 3)) = true := hyp
  simp only [Bool.and_eq_true, decide_eq_true_eq] at h
  obtain ⟨⟨⟨h0, h1⟩, h2⟩, h3⟩ := h
  cases hw
  exact encVVV_lt h0 (by omega) (by omega) (by omega) (by omega) (by omega)
theorem coll (g : Guard) (d : Nat) (a : Nat) (op : CollOp) : Statement (.coll g d a op) := by
  intro hyp word hw
  have h : (g.wf && decide (d < 64) && decide (a < 64) && decide (a % 4 = 0)) = true := hyp
  simp only [Bool.and_eq_true, decide_eq_true_eq] at h
  obtain ⟨⟨⟨h0, h1⟩, h2⟩, h3⟩ := h
  cases hw
  have := collOp_lt op
  exact encVVV_lt h0 (by omega) (by omega) (by omega) (by omega) (by omega)
theorem collwait (g : Guard) (d : Nat) (a : Nat) : Statement (.collwait g d a) := by
  intro hyp word hw
  have h : (g.wf && decide (d < 64) && decide (a < 64)) = true := hyp
  simp only [Bool.and_eq_true, decide_eq_true_eq] at h
  obtain ⟨⟨h0, h1⟩, h2⟩ := h
  cases hw
  exact encVVV_lt h0 (by omega) (by omega) (by omega) (by omega) (by omega)
theorem collq (g : Guard) (d : Nat) (a : Nat) : Statement (.collq g d a) := by
  intro hyp word hw
  have h : (g.wf && decide (d < 64) && decide (a < 64)) = true := hyp
  simp only [Bool.and_eq_true, decide_eq_true_eq] at h
  obtain ⟨⟨h0, h1⟩, h2⟩ := h
  cases hw
  exact encVVV_lt h0 (by omega) (by omega) (by omega) (by omega) (by omega)
theorem laydef (g : Guard) (d : Nat) (a : Nat) : Statement (.laydef g d a) := by
  intro hyp word hw
  have h : (g.wf && decide (d < 64) && decide (a < 64) && decide (a % 2 = 0)) = true := hyp
  simp only [Bool.and_eq_true, decide_eq_true_eq] at h
  obtain ⟨⟨⟨h0, h1⟩, h2⟩, h3⟩ := h
  cases hw
  exact encVVV_lt h0 (by omega) (by omega) (by omega) (by omega) (by omega)
theorem trap (g : Guard) (c : Nat) : Statement (.trap g c) := by
  intro hyp word hw
  have h : (g.wf && decide (c < 256)) = true := hyp
  simp only [Bool.and_eq_true, decide_eq_true_eq] at h
  obtain ⟨h0, h1⟩ := h
  cases hw
  exact encSYS_lt h0 (by omega) (by omega) (by omega) (by omega) (by omega)
theorem tret (g : Guard) : Statement (.tret g) := by
  intro hyp word hw
  have h0 : g.wf = true := hyp
  cases hw
  exact encSYS_lt h0 (by omega) (by omega) (by omega) (by omega) (by omega)
theorem tretAbort (g : Guard) (a : Nat) : Statement (.tretAbort g a) := by
  intro hyp word hw
  have h : (g.wf && decide (a < 64)) = true := hyp
  simp only [Bool.and_eq_true, decide_eq_true_eq] at h
  obtain ⟨h0, h1⟩ := h
  cases hw
  exact encSYS_lt h0 (by omega) (by omega) (by omega) (by omega) (by omega)
theorem sread (g : Guard) (d : Nat) (u : Bool) (s : Nat) : Statement (.sread g d u s) := by
  intro hyp word hw
  have h : (g.wf && decide (d < 64) && decide (s < 24)) = true := hyp
  simp only [Bool.and_eq_true, decide_eq_true_eq] at h
  obtain ⟨⟨h0, h1⟩, h2⟩ := h
  cases hw
  have := toNat_lt u
  exact encSYS_lt h0 (by omega) (by omega) (by omega) (by omega) (by omega)
theorem swrite (g : Guard) (d : Nat) (u : Bool) (s : Nat) : Statement (.swrite g d u s) := by
  intro hyp word hw
  have h : (g.wf && decide (d < 64) && decide (s = 0x14 ∨ s = 0x15)) = true := hyp
  simp only [Bool.and_eq_true, decide_eq_true_eq] at h
  obtain ⟨⟨h0, h1⟩, h2⟩ := h
  cases hw
  have := toNat_lt u
  exact encSYS_lt h0 (by omega) (by omega) (by omega) (by omega) (by omega)
theorem winsel (g : Guard) (a : Nat) : Statement (.winsel g a) := by
  intro hyp word hw
  have h : (g.wf && decide (a < 64)) = true := hyp
  simp only [Bool.and_eq_true, decide_eq_true_eq] at h
  obtain ⟨h0, h1⟩ := h
  cases hw
  exact encSYS_lt h0 (by omega) (by omega) (by omega) (by omega) (by omega)
theorem winrd (g : Guard) (d : Nat) (a : Nat) : Statement (.winrd g d a) := by
  intro hyp word hw
  have h : (g.wf && decide (d < 64) && decide (a < 64)) = true := hyp
  simp only [Bool.and_eq_true, decide_eq_true_eq] at h
  obtain ⟨⟨h0, h1⟩, h2⟩ := h
  cases hw
  exact encSYS_lt h0 (by omega) (by omega) (by omega) (by omega) (by omega)
theorem winwr (g : Guard) (d : Nat) (a : Nat) : Statement (.winwr g d a) := by
  intro hyp word hw
  have h : (g.wf && decide (d < 64) && decide (a < 64)) = true := hyp
  simp only [Bool.and_eq_true, decide_eq_true_eq] at h
  obtain ⟨⟨h0, h1⟩, h2⟩ := h
  cases hw
  exact encSYS_lt h0 (by omega) (by omega) (by omega) (by omega) (by omega)
theorem oplrd (g : Guard) (d : Nat) (a : Nat) (w : Nat) : Statement (.oplrd g d a w) := by
  intro hyp word hw
  have h : (g.wf && decide (d < 64) && decide (a < 64) && decide (w < 20)) = true := hyp
  simp only [Bool.and_eq_true, decide_eq_true_eq] at h
  obtain ⟨⟨⟨h0, h1⟩, h2⟩, h3⟩ := h
  cases hw
  exact encSYS_lt h0 (by omega) (by omega) (by omega) (by omega) (by omega)
theorem rqrd (g : Guard) (d : Nat) (a : Nat) : Statement (.rqrd g d a) := by
  intro hyp word hw
  have h : (g.wf && decide (d < 64) && decide (a < 64)) = true := hyp
  simp only [Bool.and_eq_true, decide_eq_true_eq] at h
  obtain ⟨⟨h0, h1⟩, h2⟩ := h
  cases hw
  exact encSYS_lt h0 (by omega) (by omega) (by omega) (by omega) (by omega)
theorem rqinj (g : Guard) (a : Nat) : Statement (.rqinj g a) := by
  intro hyp word hw
  have h : (g.wf && decide (a < 64)) = true := hyp
  simp only [Bool.and_eq_true, decide_eq_true_eq] at h
  obtain ⟨h0, h1⟩ := h
  cases hw
  exact encSYS_lt h0 (by omega) (by omega) (by omega) (by omega) (by omega)
theorem rqdrop (g : Guard) (d : Nat) (a : Nat) : Statement (.rqdrop g d a) := by
  intro hyp word hw
  have h : (g.wf && decide (d < 64) && decide (a < 64)) = true := hyp
  simp only [Bool.and_eq_true, decide_eq_true_eq] at h
  obtain ⟨⟨h0, h1⟩, h2⟩ := h
  cases hw
  exact encSYS_lt h0 (by omega) (by omega) (by omega) (by omega) (by omega)
theorem ctxswSave (g : Guard) (a : Nat) : Statement (.ctxswSave g a) := by
  intro hyp word hw
  have h : (g.wf && decide (a < 64) && decide (a % 2 = 0)) = true := hyp
  simp only [Bool.and_eq_true, decide_eq_true_eq] at h
  obtain ⟨⟨h0, h1⟩, h2⟩ := h
  cases hw
  exact encSYS_lt h0 (by omega) (by omega) (by omega) (by omega) (by omega)
theorem ctxswRestore (g : Guard) (a : Nat) : Statement (.ctxswRestore g a) := by
  intro hyp word hw
  have h : (g.wf && decide (a < 64) && decide (a % 2 = 0)) = true := hyp
  simp only [Bool.and_eq_true, decide_eq_true_eq] at h
  obtain ⟨⟨h0, h1⟩, h2⟩ := h
  cases hw
  exact encSYS_lt h0 (by omega) (by omega) (by omega) (by omega) (by omega)
theorem halt (g : Guard) (s : HScope) : Statement (.halt g s) := by
  intro hyp word hw
  have h0 : g.wf = true := hyp
  cases hw
  have := hScope_lt s
  exact encSYS_lt h0 (by omega) (by omega) (by omega) (by omega) (by omega)
theorem resume (g : Guard) (s : HScope) : Statement (.resume g s) := by
  intro hyp word hw
  have h0 : g.wf = true := hyp
  cases hw
  have := hScope_lt s
  exact encSYS_lt h0 (by omega) (by omega) (by omega) (by omega) (by omega)
theorem tlbi (g : Guard) (d : Nat) (a : Nat) : Statement (.tlbi g d a) := by
  intro hyp word hw
  have h : (g.wf && decide (d < 64) && decide (a < 64) && decide (a % 2 = 0)) = true := hyp
  simp only [Bool.and_eq_true, decide_eq_true_eq] at h
  obtain ⟨⟨⟨h0, h1⟩, h2⟩, h3⟩ := h
  cases hw
  exact encSYS_lt h0 (by omega) (by omega) (by omega) (by omega) (by omega)
theorem tlbiW (g : Guard) (d : Nat) (a : Nat) : Statement (.tlbiW g d a) := by
  intro hyp word hw
  have h : (g.wf && decide (d < 64) && decide (a < 64) && decide (a % 2 = 0)) = true := hyp
  simp only [Bool.and_eq_true, decide_eq_true_eq] at h
  obtain ⟨⟨⟨h0, h1⟩, h2⟩, h3⟩ := h
  cases hw
  exact encSYS_lt h0 (by omega) (by omega) (by omega) (by omega) (by omega)
theorem asidgen (g : Guard) (d : Nat) : Statement (.asidgen g d) := by
  intro hyp word hw
  have h : (g.wf && decide (d < 64)) = true := hyp
  simp only [Bool.and_eq_true, decide_eq_true_eq] at h
  obtain ⟨h0, h1⟩ := h
  cases hw
  exact encSYS_lt h0 (by omega) (by omega) (by omega) (by omega) (by omega)
theorem hntWide (imm : Nat) : Statement (.hntWide imm) := by
  intro hyp word hw
  have h0 : (imm < 2 ^ 24) := of_decide_eq_true hyp
  cases hw
  exact encHNT_lt (by omega) (by omega)
theorem hntSched (rsvd : Nat) (y : Bool) (pv : Bool) (prio : Nat) (lv : Bool) (lat : Nat) : Statement (.hntSched rsvd y pv prio lv lat) := by
  intro hyp word hw
  have h : (decide (rsvd < 65536) && decide (prio < 8) && decide (lat < 4)) = true := hyp
  simp only [Bool.and_eq_true, decide_eq_true_eq] at h
  obtain ⟨⟨h0, h1⟩, h2⟩ := h
  cases hw
  have := toNat_lt y
  have := toNat_lt pv
  have := toNat_lt lv
  exact encHNT_lt (by omega) (by omega)
theorem hntMod (code : Nat) (arg : Nat) : Statement (.hntMod code arg) := by
  intro hyp word hw
  have h : (decide (code < 16) && decide (arg < 2 ^ 20)) = true := hyp
  simp only [Bool.and_eq_true, decide_eq_true_eq] at h
  obtain ⟨h0, h1⟩ := h
  cases hw
  exact encHNT_lt (by omega) (by omega)
theorem undefinedInstruction (w : Nat) : Statement (.undefinedInstruction w) := fun h => nomatch h
theorem packageReset (p : Nat) (i : BootInputs) : Statement (.packageReset p i) := fun h => nomatch h
theorem dieClockStop (p : Nat) (die : Nat) : Statement (.dieClockStop p die) := fun h => nomatch h
theorem dieClockRestart (p : Nat) (die : Nat) : Statement (.dieClockRestart p die) := fun h => nomatch h
theorem planeFailure (p : Nat) (plane : Nat) : Statement (.planeFailure p plane) := fun h => nomatch h
theorem governorAdjust (p : Nat) (mat : Nat) (vec : Nat) (freq : Nat) (draw : Nat) (limit : Bool) :
    Statement (.governorAdjust p mat vec freq draw limit) := fun h => nomatch h
theorem qptrWptrWrite (p : Nat) (m : Nat) (q : Nat) (v : Word) : Statement (.qptrWptrWrite p m q v) := fun h => nomatch h
theorem qctlWrite (p : Nat) (m : Nat) (q : Nat) (v : DWord) : Statement (.qctlWrite p m q v) := fun h => nomatch h
theorem evtcntWrite (p : Nat) (m : Nat) (n : Nat) (v : DWord) : Statement (.evtcntWrite p m n v) := fun h => nomatch h
theorem launchPacketDispatch (p : Nat) (q : Nat) : Statement (.launchPacketDispatch p q) := fun h => nomatch h
theorem signalPacketDispatch (p : Nat) (q : Nat) : Statement (.signalPacketDispatch p q) := fun h => nomatch h
theorem waitPacketDispatch (p : Nat) (q : Nat) : Statement (.waitPacketDispatch p q) := fun h => nomatch h
theorem unitPlacement (u : UnitRef) : Statement (.unitPlacement u) := fun h => nomatch h
theorem unitComplete (u : Nat) : Statement (.unitComplete u) := fun h => nomatch h
theorem gridEnd (gr : Nat) : Statement (.gridEnd gr) := fun h => nomatch h
theorem groupSwap (c : Nat) : Statement (.groupSwap c) := fun h => nomatch h
theorem pendingForcedPromotion (c : Nat) : Statement (.pendingForcedPromotion c) := fun h => nomatch h
theorem issueWithdraw (c : Nat) : Statement (.issueWithdraw c) := fun h => nomatch h
theorem sleepWake (c : Nat) (l : Nat) : Statement (.sleepWake c l) := fun h => nomatch h
theorem hangWatchdogExpiry (c : Nat) : Statement (.hangWatchdogExpiry c) := fun h => nomatch h
theorem lineAgeInvalidate (p : Nat) (core : Nat) (line : Nat) : Statement (.lineAgeInvalidate p core line) := fun h => nomatch h
theorem preemptionRequest (p : Nat) (core : Nat) : Statement (.preemptionRequest p core) := fun h => nomatch h
theorem forcedYield (u : Nat) : Statement (.forcedYield u) := fun h => nomatch h
theorem shadowBankSwap (p : Nat) (core : Nat) : Statement (.shadowBankSwap p core) := fun h => nomatch h
theorem spillComplete (p : Nat) (core : Nat) : Statement (.spillComplete p core) := fun h => nomatch h
theorem teamRestore (u : Nat) : Statement (.teamRestore u) := fun h => nomatch h
theorem accessPerformed (c : Nat) (e : Nat) (l : Nat) : Statement (.accessPerformed c e l) := fun h => nomatch h
theorem faultRecordFlush (p : Nat) : Statement (.faultRecordFlush p) := fun h => nomatch h
theorem tfreplyRetry (p : Nat) (m : Nat) (id : Word) : Statement (.tfreplyRetry p m id) := fun h => nomatch h
theorem tfreplyUnresolvable (p : Nat) (m : Nat) (id : Word) : Statement (.tfreplyUnresolvable p m id) := fun h => nomatch h
theorem tlbcmdTlbi (p : Nat) (m : Nat) (v : DWord) : Statement (.tlbcmdTlbi p m v) := fun h => nomatch h
theorem tlbcmdTlbiW (p : Nat) (m : Nat) (v : DWord) : Statement (.tlbcmdTlbiW p m v) := fun h => nomatch h
theorem tlbcmdAsidgen (p : Nat) (m : Nat) (v : DWord) : Statement (.tlbcmdAsidgen p m v) := fun h => nomatch h
theorem tlbCommandComplete (p : Nat) : Statement (.tlbCommandComplete p) := fun h => nomatch h
theorem archcmdCompress (p : Nat) (m : Nat) (v : DWord) : Statement (.archcmdCompress p m v) := fun h => nomatch h
theorem archcmdExpand (p : Nat) (m : Nat) (v : DWord) : Statement (.archcmdExpand p m v) := fun h => nomatch h
theorem archcmdFree (p : Nat) (m : Nat) (v : DWord) : Statement (.archcmdFree p m v) := fun h => nomatch h
theorem archCommandComplete (p : Nat) : Statement (.archCommandComplete p) := fun h => nomatch h
theorem archcfgWrite (p : Nat) (m : Nat) (v : DWord) : Statement (.archcfgWrite p m v) := fun h => nomatch h
theorem registerWrite (p : Nat) (m : Nat) (off : Nat) (v : DWord) : Statement (.registerWrite p m off v) := fun h => nomatch h
theorem mstctlClaim (p : Nat) (m : Nat) : Statement (.mstctlClaim p m) := fun h => nomatch h
theorem mstctlOffer (p : Nat) (m : Nat) (t : Nat) : Statement (.mstctlOffer p m t) := fun h => nomatch h
theorem mstctlWithdraw (p : Nat) (m : Nat) : Statement (.mstctlWithdraw p m) := fun h => nomatch h
theorem mstctlAccept (p : Nat) (m : Nat) : Statement (.mstctlAccept p m) := fun h => nomatch h
theorem mstctlRelease (p : Nat) (m : Nat) : Statement (.mstctlRelease p m) := fun h => nomatch h
theorem offerLapse (p : Nat) : Statement (.offerLapse p) := fun h => nomatch h
theorem ownershipLoss (p : Nat) : Statement (.ownershipLoss p) := fun h => nomatch h
theorem mstfrzThaw (p : Nat) (m : Nat) (v : DWord) : Statement (.mstfrzThaw p m v) := fun h => nomatch h
theorem attcmdQuote (p : Nat) (m : Nat) (v : DWord) : Statement (.attcmdQuote p m v) := fun h => nomatch h
theorem attcmdIdentityCert (p : Nat) (m : Nat) (v : DWord) : Statement (.attcmdIdentityCert p m v) := fun h => nomatch h
theorem attComplete (p : Nat) : Statement (.attComplete p) := fun h => nomatch h
theorem fwupdLoad (p : Nat) (m : Nat) (v : DWord) : Statement (.fwupdLoad p m v) := fun h => nomatch h
theorem fwLoadComplete (p : Nat) : Statement (.fwLoadComplete p) := fun h => nomatch h
theorem diesvcDrain (p : Nat) (m : Nat) (die : Nat) : Statement (.diesvcDrain p m die) := fun h => nomatch h
theorem diesvcReturn (p : Nat) (m : Nat) (die : Nat) : Statement (.diesvcReturn p m die) := fun h => nomatch h
theorem dieDrainComplete (p : Nat) : Statement (.dieDrainComplete p) := fun h => nomatch h
theorem planesvcWrite (p : Nat) (m : Nat) (v : DWord) : Statement (.planesvcWrite p m v) := fun h => nomatch h
theorem planemapWrite (p : Nat) (m : Nat) (v : DWord) : Statement (.planemapWrite p m v) := fun h => nomatch h
theorem corestopWrite (p : Nat) (m : Nat) (die : Nat) (wd : Nat) (v : DWord) : Statement (.corestopWrite p m die wd v) := fun h => nomatch h
theorem dbghaltHalt (p : Nat) (m : Nat) (v : DWord) : Statement (.dbghaltHalt p m v) := fun h => nomatch h
theorem dbghaltResume (p : Nat) (m : Nat) (v : DWord) : Statement (.dbghaltResume p m v) := fun h => nomatch h
theorem cpbrkcRelease (p : Nat) (m : Nat) (b : Nat) (v : DWord) : Statement (.cpbrkcRelease p m b v) := fun h => nomatch h
theorem breakpointHit (c : Nat) : Statement (.breakpointHit c) := fun h => nomatch h
theorem traceSample (p : Nat) (core : Nat) : Statement (.traceSample p core) := fun h => nomatch h
theorem sacctlSnap (p : Nat) (m : Nat) (v : DWord) : Statement (.sacctlSnap p m v) := fun h => nomatch h
theorem sacctlClr (p : Nat) (m : Nat) (v : DWord) : Statement (.sacctlClr p m v) := fun h => nomatch h
theorem handlerEntry (p : Nat) (core : Nat) : Statement (.handlerEntry p core) := fun h => nomatch h
theorem migrateMove (u : Nat) : Statement (.migrateMove u) := fun h => nomatch h
theorem migrateRestore (u : Nat) : Statement (.migrateRestore u) := fun h => nomatch h
theorem teamAbort (u : Nat) : Statement (.teamAbort u) := fun h => nomatch h
theorem blockArrival (c : Nat) (e : Nat) (blk : Nat) : Statement (.blockArrival c e blk) := fun h => nomatch h
theorem passGrant (c : Nat) : Statement (.passGrant c) := fun h => nomatch h
theorem passComplete (c : Nat) : Statement (.passComplete c) := fun h => nomatch h
theorem accrdWriteComplete (c : Nat) (e : Nat) : Statement (.accrdWriteComplete c e) := fun h => nomatch h
theorem ldxLaneWrite (c : Nat) (e : Nat) (l : Nat) : Statement (.ldxLaneWrite c e l) := fun h => nomatch h
theorem copyChunkWrite (c : Nat) (e : Nat) (ch : Nat) : Statement (.copyChunkWrite c e ch) := fun h => nomatch h
theorem dropNotice (c : Nat) (e : Nat) (ch : Nat) : Statement (.dropNotice c e ch) := fun h => nomatch h
theorem reservationGrant (c : Nat) (e : Nat) (ch : Nat) : Statement (.reservationGrant c e ch) := fun h => nomatch h
theorem reservationWindowMiss (c : Nat) (e : Nat) (ch : Nat) : Statement (.reservationWindowMiss c e ch) := fun h => nomatch h
theorem collStart (p : Nat) (ix : Nat) : Statement (.collStart p ix) := fun h => nomatch h
theorem collChunkArrival (p : Nat) (ix : Nat) (ch : Nat) : Statement (.collChunkArrival p ix ch) := fun h => nomatch h
theorem collComplete (p : Nat) (ix : Nat) : Statement (.collComplete p ix) := fun h => nomatch h
theorem reduceContribution (c : Nat) (e : Nat) (l : Nat) : Statement (.reduceContribution c e l) := fun h => nomatch h
theorem shadowLineEvict (p : Nat) (die : Nat) (line : Nat) : Statement (.shadowLineEvict p die line) := fun h => nomatch h
theorem cmbputArrival (c : Nat) (e : Nat) : Statement (.cmbputArrival c e) := fun h => nomatch h
theorem combineTimeout (p : Nat) (die : Nat) (slot : Nat) : Statement (.combineTimeout p die slot) := fun h => nomatch h
theorem combineRelease (p : Nat) (die : Nat) (slot : Nat) : Statement (.combineRelease p die slot) := fun h => nomatch h
theorem combineReleaseDone (p : Nat) (die : Nat) (slot : Nat) : Statement (.combineReleaseDone p die slot) := fun h => nomatch h
theorem barBridgeArrival (u : Nat) (half : Nat) : Statement (.barBridgeArrival u half) := fun h => nomatch h
theorem applicationCoreAccess (p : Nat) (hart : Nat) (asid : Nat) (va : DWord) (req : AppReq) :
    Statement (.applicationCoreAccess p hart asid va req) := fun h => nomatch h
theorem fetchFault (c : Nat) (l : Nat) : Statement (.fetchFault c l) := fun h => nomatch h
theorem fabricPortFailure (p : Nat) (port : Nat) : Statement (.fabricPortFailure p port) := fun h => nomatch h
theorem portRetrainComplete (p : Nat) (plane : Nat) : Statement (.portRetrainComplete p plane) := fun h => nomatch h
theorem masterPresenceChange (p : Nat) (m : Nat) (up : Bool) : Statement (.masterPresenceChange p m up) := fun h => nomatch h
theorem packageHeartbeat (p : Nat) : Statement (.packageHeartbeat p) := fun h => nomatch h

end Sys2Proof.Laws.WordFits
end

