-- ==== Sys2Proof/Laws/Regs.lean ====
section
/-! SUPPORT. Register instructions: what the shapes of Gate.lean and Flags.lean do, said once for every instruction of
a shape. -/

namespace Sys2Proof.Machine

/-! ### Parts of a context that register instructions leave alone -/

/-- x differs from c in registers, lanes and the marks of an issue at most. -/
def RegsOf (c x : Ctx) : Prop :=
  ∃ ls v vt g e fl y p la m h w, x = { c with lanes := ls, v := v, vtags := vt, g := g, e := e, fpflags := fl, yld := y,
                                               prio := p, missAt := la, misses := m, hold := h, withdrawn := w }

theorem RegsOf.refl (c : Ctx) : RegsOf c c := ⟨_, _, _, _, _, _, _, _, _, _, _, _, rfl⟩
theorem RegsOf.trans {a b c : Ctx} (h : RegsOf a b) (h' : RegsOf b c) : RegsOf a c := by
  obtain ⟨_, _, _, _, _, _, _, _, _, _, _, _, rfl⟩ := h
  obtain ⟨_, _, _, _, _, _, _, _, _, _, _, _, rfl⟩ := h'
  exact ⟨_, _, _, _, _, _, _, _, _, _, _, _, rfl⟩
theorem RegsOf.wrV (c : Ctx) (n l : Nat) (x : Word) : RegsOf c (c.wrV n l x) := ⟨_, _, _, _, _, _, _, _, _, _, _, _, rfl⟩
theorem RegsOf.wrG (c : Ctx) (n : Nat) (x : Word) : RegsOf c (c.wrG n x) := ⟨_, _, _, _, _, _, _, _, _, _, _, _, rfl⟩
theorem RegsOf.wrE (c : Ctx) (n l : Nat) (x : Word) : RegsOf c (c.wrE n l x) := ⟨_, _, _, _, _, _, _, _, _, _, _, _, rfl⟩
theorem RegsOf.setFlags (c : Ctx) (f : BitVec 6) : RegsOf c (c.setFlags f) := ⟨_, _, _, _, _, _, _, _, _, _, _, _, rfl⟩
theorem RegsOf.modLane (c : Ctx) (l : Nat) (f : Lane → Lane) : RegsOf c (c.modLane l f) :=
  ⟨_, _, _, _, _, _, _, _, _, _, _, _, rfl⟩
theorem RegsOf.schedule (c : Ctx) (act : List Nat) : RegsOf c (c.schedule act) := ⟨_, _, _, _, _, _, _, _, _, _, _, _, rfl⟩
theorem RegsOf.begun (c : Ctx) (i : Instr) (act : List Nat) : RegsOf c (c.begun i act) := by
  unfold Ctx.begun; split
  · exact .refl c
  · exact .schedule c act
theorem RegsOf.foldl {α : Type} (f : Ctx → α → Ctx) (h : ∀ c x, RegsOf c (f c x)) (l : List α) (c : Ctx) :
    RegsOf c (l.foldl f c) :=
  foldl_induct (fun x => RegsOf c x) f (fun _ _ hx => hx.trans (h _ _)) l c (.refl c)
theorem RegsOf.modLanes (c : Ctx) (ls : List Nat) (f : Nat → Lane → Lane) : RegsOf c (c.modLanes ls f) :=
  .foldl _ (fun c l => .modLane c l _) ls c
theorem RegsOf.pushAll (c : Ctx) (ls : List Nat) (b : Bool) : RegsOf c (c.pushAll ls b) :=
  .foldl _ (fun c l => .modLane c l _) ls c
theorem RegsOf.depart (s : State) (i : Instr) (coh : List Nat) (c x : Ctx) (h : RegsOf c x) : OnlyRegs c (s.depart i coh x) := by
  have h1 : RegsOf c ((x.missCount (s.fmtOf x) i).advance coh) := by
    refine h.trans (RegsOf.trans ?_ (.modLanes _ _ _))
    unfold Ctx.missCount; split
    · exact ⟨_, _, _, _, _, _, _, _, _, _, _, _, rfl⟩
    · exact .refl x
  obtain ⟨_, _, _, _, _, _, _, _, _, _, _, _, e⟩ := h1
  unfold State.depart Ctx.unheld OnlyRegs; rw [e]

/-! ### The registers of a context that departs -/

theorem depart_v (s : State) (i : Instr) (coh : List Nat) (c : Ctx) : (s.depart i coh c).v = c.v := by
  unfold State.depart Ctx.unheld Ctx.advance Ctx.modLanes Ctx.missCount
  rw [foldl_keeps Ctx.v]; · split <;> rfl
  · intros; rfl
theorem depart_vtags (s : State) (i : Instr) (coh : List Nat) (c : Ctx) : (s.depart i coh c).vtags = c.vtags := by
  unfold State.depart Ctx.unheld Ctx.advance Ctx.modLanes Ctx.missCount
  rw [foldl_keeps Ctx.vtags]; · split <;> rfl
  · intros; rfl
theorem depart_g (s : State) (i : Instr) (coh : List Nat) (c : Ctx) : (s.depart i coh c).g = c.g := by
  unfold State.depart Ctx.unheld Ctx.advance Ctx.modLanes Ctx.missCount
  rw [foldl_keeps Ctx.g]; · split <;> rfl
  · intros; rfl
theorem depart_e (s : State) (i : Instr) (coh : List Nat) (c : Ctx) : (s.depart i coh c).e = c.e := by
  unfold State.depart Ctx.unheld Ctx.advance Ctx.modLanes Ctx.missCount
  rw [foldl_keeps Ctx.e]; · split <;> rfl
  · intros; rfl
theorem depart_flags (s : State) (i : Instr) (coh : List Nat) (c : Ctx) : (s.depart i coh c).fpflags = c.fpflags := by
  unfold State.depart Ctx.unheld Ctx.advance Ctx.modLanes Ctx.missCount
  rw [foldl_keeps Ctx.fpflags]; · split <;> rfl
  · intros; rfl
theorem missCount_lane (c : Ctx) (fs : DWord) (i : Instr) (l : Nat) : (c.missCount fs i).lane l = c.lane l := by
  unfold Ctx.missCount; split <;> rfl
theorem depart_lane (s : State) (i : Instr) (coh : List Nat) (hn : coh.Nodup) (c : Ctx) (l : Nat) :
    (s.depart i coh c).lane l =
      if l ∈ coh then { c.lane l with pc := (c.lane l).pc + 4, hints := [], wait := .none } else c.lane l := by
  have : (s.depart i coh c).lane l = ((c.missCount (s.fmtOf c) i).advance coh).lane l := rfl
  rw [this]; unfold Ctx.advance
  rw [Ctx.lane_modLanes _ hn, missCount_lane]

theorem begun_lane (c : Ctx) (i : Instr) (act : List Nat) (l : Nat) : (c.begun i act).lane l = c.lane l := by
  unfold Ctx.begun; split <;> rfl
theorem begun_v (c : Ctx) (i : Instr) (act : List Nat) : (c.begun i act).v = c.v := by unfold Ctx.begun; split <;> rfl
theorem begun_vtags (c : Ctx) (i : Instr) (act : List Nat) : (c.begun i act).vtags = c.vtags := by
  unfold Ctx.begun; split <;> rfl
theorem begun_g (c : Ctx) (i : Instr) (act : List Nat) : (c.begun i act).g = c.g := by unfold Ctx.begun; split <;> rfl
theorem begun_e (c : Ctx) (i : Instr) (act : List Nat) : (c.begun i act).e = c.e := by unfold Ctx.begun; split <;> rfl
theorem begun_flags (c : Ctx) (i : Instr) (act : List Nat) : (c.begun i act).fpflags = c.fpflags := by
  unfold Ctx.begun; split <;> rfl

/-! ### Completion -/

theorem rdByte_modCtx (s : State) (k : Nat) (f : Ctx → Ctx) (a : Loc) : (s.modCtx k f).rdByte a = s.rdByte a := by
  cases a <;> rfl

/-- An instruction whose effect changes its context alone completes there. -/
theorem completes_of_gate {s : State} {i : Instr} {c : Ctx} {act : List Nat} (h : Issues s i c act)
    (body : State → Ctx → List Nat → Eff) (he : exec i s = gate i s body) (F : Ctx → Ctx)
    (hb : body (s.hinted i act) (c.begun i act) act = .ok ((s.hinted i act).modCtx s.cur.ctx F)) :
    Completes i s (s.depart i (s.cohort c) (F (c.begun i act))) := by
  refine ⟨?_, fun a => rdByte_modCtx _ _ _ _⟩
  rw [he, gate_ok h body hb]
  congr 1
  unfold State.hinted Ctx.begun
  by_cases hi : isHint i
  · simp only [hi, if_true, State.modCtx_modCtx]; exact State.modCtx_const _ _ _ _ h.found
  · simp only [hi, if_neg, not_false_iff, State.modCtx_modCtx, Bool.false_eq_true]; exact State.modCtx_const _ _ _ _ h.found

theorem completes_of_perLane {s : State} {i : Instr} {c : Ctx} {act : List Nat} (h : Issues s i c act)
    (f : Ctx → Nat → Ctx → Ctx) (he : exec i s = perLane i s f) :
    Completes i s (s.depart i (s.cohort c) (act.foldl (fun c' l => f (c.begun i act) l c') (c.begun i act))) := by
  exact completes_of_gate h _ he (fun x => act.foldl (fun c' l => f (c.begun i act) l c') x) (by simp only [State.hinted_cur])

theorem completes_of_once {s : State} {i : Instr} {c : Ctx} {act : List Nat} (h : Issues s i c act)
    (f : State → Ctx → Nat → List Nat → Eff) (he : exec i s = oncePerIssue i s f) (F : Ctx → Ctx)
    (hb : f (s.hinted i act) (c.begun i act) (act.headD 0) act = .ok ((s.hinted i act).modCtx s.cur.ctx F)) :
    Completes i s (s.depart i (s.cohort c) (F (c.begun i act))) := by
  refine completes_of_gate h _ he F ?_
  have := h.some
  cases act with
  | nil => exact absurd rfl this
  | cons l r => simp only [List.headD_cons] at hb; simp only [hb]

/-! ### Folds over lanes -/

theorem foldl_raised (act : List Nat) (c : Ctx) (w : Ctx → Nat → Ctx) (fl : Nat → BitVec 6)
    (hw : ∀ c l, (w c l).fpflags = c.fpflags) :
    (act.foldl (fun c' l => (w c' l).setFlags (fl l)) c).fpflags = raised c act fl := by
  induction act generalizing c with
  | nil => rfl
  | cons x r ih =>
    simp only [List.foldl_cons, ih, raised]
    show List.foldl _ ((w c x).fpflags ||| fl x) r = _
    rw [hw]

/-- Registers written lane by lane: what each reads afterwards. -/
theorem foldl_rdV (act : List Nat) (hlt : ∀ l ∈ act, l < 32) (c : Ctx) (f : Ctx → Nat → Ctx) (ds : List Nat)
    (val : Nat → Nat → Word)
    (hf : ∀ c l, l < 32 → ∀ n k, k < 32 → (f c l).rdV n k = if n ∈ ds ∧ k = l then val l n else c.rdV n k)
    (n k : Nat) (hk : k < 32) :
    (act.foldl f c).rdV n k = if n ∈ ds ∧ k ∈ act then val k n else c.rdV n k := by
  induction act generalizing c with
  | nil => simp
  | cons x r ih =>
    have hx : x < 32 := hlt x (by simp)
    rw [List.foldl_cons, ih (fun l hl => hlt l (by simp [hl])), hf _ _ hx _ _ hk]
    by_cases hn : n ∈ ds
    · by_cases h1 : k ∈ r
      · simp [hn, h1]
      · by_cases h2 : k = x
        · subst h2; simp [hn, h1]
        · simp [hn, h1, h2]
    · simp [hn]

theorem foldl_vtags (act : List Nat) (ha : act ≠ []) (c : Ctx) (f : Ctx → Nat → Ctx) (ds : List Nat)
    (hf : ∀ c l n, Sparse.get 0 (f c l).vtags n = if n ∈ ds then Sparse.get 0 c.vtags n &&& 0x7FFF else Sparse.get 0 c.vtags n)
    (n : Nat) : Sparse.get 0 (act.foldl f c).vtags n =
      if n ∈ ds then Sparse.get 0 c.vtags n &&& 0x7FFF else Sparse.get 0 c.vtags n := by
  induction act generalizing c with
  | nil => exact absurd rfl ha
  | cons x r ih =>
    rw [List.foldl_cons]
    by_cases hr : r = []
    · subst hr; exact hf _ _ _
    · rw [ih hr, hf]
      by_cases hn : n ∈ ds
      · simp only [hn, if_true, BitVec.and_assoc]; rfl
      · simp [hn]

/-- A vector instruction that writes registers lane by lane and raises flags. -/
theorem writesV_of_perLane (i : Instr) (ds : List Nat) (val : Ctx → List Nat → Nat → Nat → Word) (fl : Ctx → Nat → BitVec 6)
    (body : State → Ctx → List Nat → Eff) (w : Ctx → List Nat → Nat → Ctx → Ctx)
    (he : ∀ s, exec i s = gate i s body)
    (hb : ∀ s c act, Issues s i c act → body (s.hinted i act) (c.begun i act) act = .ok ((s.hinted i act).modCtx s.cur.ctx
      (fun c' => act.foldl (fun c' l => (w c act l c').setFlags (fl c l)) c')))
    (hw : ∀ c act l c', RegsOf c' (w c act l c') ∧ (w c act l c').lanes = c'.lanes ∧ (w c act l c').g = c'.g
      ∧ (w c act l c').e = c'.e ∧ (w c act l c').fpflags = c'.fpflags)
    (hv : ∀ c act l c', l < 32 → ∀ n k, k < 32 → (w c act l c').rdV n k = if n ∈ ds ∧ k = l then val c act l n else c'.rdV n k)
    (ht : ∀ c act l c' n, Sparse.get 0 (w c act l c').vtags n =
      if n ∈ ds then Sparse.get 0 c'.vtags n &&& 0x7FFF else Sparse.get 0 c'.vtags n) :
    WritesV i ds val fl := by
  intro s c act h
  show WroteV i s c act ds (val c act) (fl c)
  unfold WroteV
  have hc := completes_of_gate h body (he s) _ (hb s c act h)
  refine ⟨_, hc, RegsOf.depart _ _ _ _ _ ((RegsOf.begun c i act).trans
    (.foldl _ (fun c' l => (hw c act l c').1.trans (.setFlags _ _)) _ _)), ?_, ⟨?_, ?_⟩, ?_, ?_, ?_, ?_⟩
  · intro l hl n hn
    have : ∀ x : Ctx, (s.depart i (s.cohort c) x).rdV n l = x.rdV n l := fun x => by unfold Ctx.rdV; rw [depart_v]
    rw [this, foldl_rdV act (fun l hl => h.lt hl) _ _ ds (val c act) (fun c' l hl n k hk => by
      show (w c act l c').rdV n k = _; exact hv c act l c' hl n k hk) n l (h.lt hl)]
    simp [hn, hl]
  · intro n l hl hn
    have : ∀ x : Ctx, (s.depart i (s.cohort c) x).rdV n l = x.rdV n l := fun x => by unfold Ctx.rdV; rw [depart_v]
    rw [this, foldl_rdV act (fun l hl => h.lt hl) _ _ ds (val c act) (fun c' l hl n k hk => by
      show (w c act l c').rdV n k = _; exact hv c act l c' hl n k hk) n l hl, if_neg hn]
    unfold Ctx.rdV; rw [begun_v]
  · intro n
    rw [depart_vtags, foldl_vtags act h.some _ (fun c' l => (w c act l c').setFlags (fl c l)) ds (fun c' l n => ht c act l c' n), begun_vtags]
  · rw [depart_flags, foldl_raised act _ (fun c' l => w c act l c') (fl c) (fun c' l => (hw c act l c').2.2.2.2)]
    unfold raised; rw [begun_flags]
  · rw [depart_g, foldl_keeps Ctx.g (fun c' l => (w c act l c').setFlags (fl c l)) (fun c' l => (hw c act l c').2.2.1), begun_g]
  · rw [depart_e, foldl_keeps Ctx.e (fun c' l => (w c act l c').setFlags (fl c l)) (fun c' l => (hw c act l c').2.2.2.1), begun_e]
  · intro l
    have hl : ∀ x : Ctx, x.lane l = (Sparse.find x.lanes l).getD {} := fun _ => rfl
    rw [depart_lane _ _ _ (cohort_nodup s c), hl, foldl_keeps Ctx.lanes (fun c' l => (w c act l c').setFlags (fl c l)) (fun c' l => (hw c act l c').2.1), ← hl, begun_lane]
    split <;> rfl

theorem setFlags_zero (c : Ctx) : c.setFlags 0 = c := by
  unfold Ctx.setFlags
  have : c.fpflags ||| 0 = c.fpflags := by simp
  rw [this]

/-- An instruction that writes v_d of each acting lane. -/
theorem writesV_one (i : Instr) (d : Nat) (val : Ctx → List Nat → Nat → Word) (fl : Ctx → Nat → BitVec 6)
    (body : State → Ctx → List Nat → Eff) (he : ∀ s, exec i s = gate i s body)
    (hb : ∀ s c act, Issues s i c act → body (s.hinted i act) (c.begun i act) act = .ok ((s.hinted i act).modCtx s.cur.ctx
      (fun c' => act.foldl (fun c' l => (c'.wrV d l (val c act l)).setFlags (fl c l)) c'))) :
    WritesV i [d] (fun c act l _ => val c act l) fl := by
  refine writesV_of_perLane i [d] _ fl body (fun c act l c' => c'.wrV d l (val c act l)) he hb ?_ ?_ ?_
  · intro c act l c'; exact ⟨.wrV _ _ _ _, rfl, rfl, rfl, rfl⟩
  · intro c act l c' hl n k hk; rw [Ctx.rdV_wrV _ _ _ _ _ _ hl hk]; simp
  · intro c act l c' n; rw [Ctx.vtag_wrV]; simp

/-! ### The shapes of Flags.lean -/

theorem begun_rdV (c : Ctx) (i : Instr) (act : List Nat) (n l : Nat) : (c.begun i act).rdV n l = c.rdV n l := by
  unfold Ctx.rdV; rw [begun_v]
theorem begun_rdG (c : Ctx) (i : Instr) (act : List Nat) (n : Nat) : (c.begun i act).rdG n = c.rdG n := by
  unfold Ctx.rdG; rw [begun_g]
theorem begun_rdE (c : Ctx) (i : Instr) (act : List Nat) (n l : Nat) : (c.begun i act).rdE n l = c.rdE n l := by
  unfold Ctx.rdE; rw [begun_e]
theorem begun_pred (c : Ctx) (i : Instr) (act : List Nat) (l k : Nat) : (c.begun i act).pred l k = c.pred l k := by
  unfold Ctx.pred; rw [begun_lane]
theorem begun_kind (c : Ctx) (i : Instr) (act : List Nat) : (c.begun i act).kind = c.kind := by
  unfold Ctx.begun; split <;> rfl

/-- A write of one register per lane, with a value of the old context. -/
theorem perLane_writes (i : Instr) (d : Nat) (f : Ctx → Nat → Word) (he : ∀ s, exec i s = perLane i s (fun c l c' => c'.wrV d l (f c l)))
    (hf : ∀ c act l, f (c.begun i act) l = f c l) : Writes1 i d f := by
  refine writesV_one i d (fun c _ l => f c l) noFlags _ he ?_
  intro s c act _
  simp only [State.hinted_cur, noFlags, setFlags_zero, hf]
theorem vecBin_writes (i : Instr) (d a b : Nat) (f : Word → Word → Word) (he : ∀ s, exec i s = vecBin i d a b s f) :
    Writes1 i d (fun c l => f (c.rdV a l) (c.rdV b l)) :=
  perLane_writes i d _ he (fun c act l => by simp only [begun_rdV])
theorem vecUn_writes (i : Instr) (d a : Nat) (f : Word → Word) (he : ∀ s, exec i s = vecUn i d a s f) :
    Writes1 i d (fun c l => f (c.rdV a l)) :=
  perLane_writes i d _ he (fun c act l => by simp only [begun_rdV])
theorem vecFlag_writes (i : Instr) (d a b : Nat) (f : List Word → Word → Word → Word → Word × BitVec 6)
    (he : ∀ s, exec i s = vecFlag i d a b s f) :
    WritesF i d (fun c l => f (c.lane l).hints (c.rdV d l) (c.rdV a l) (c.rdV b l)) := by
  refine writesV_one i d _ _ _ he ?_
  intro s c act _
  simp only [State.hinted_cur, begun_rdV, begun_lane]
/-- A statement about one value is one about an equal value. -/
theorem Writes1.of_eq {i : Instr} {d : Nat} {f g : Ctx → Nat → Word} (h : Writes1 i d f) (e : ∀ c l, f c l = g c l) :
    Writes1 i d g := by
  have : f = g := by funext c l; exact e c l
  rw [← this]; exact h
theorem WritesF.of_eq {i : Instr} {d : Nat} {f g : Ctx → Nat → Word × BitVec 6} (h : WritesF i d f) (e : ∀ c l, f c l = g c l) :
    WritesF i d g := by
  have : f = g := by funext c l; exact e c l
  rw [← this]; exact h
/-- Flags that are always none. -/
theorem WritesF.noFlags {i : Instr} {d : Nat} {f : Ctx → Nat → Word × BitVec 6} (h : WritesF i d f) (g : Ctx → Nat → Word)
    (e : ∀ c l, f c l = (g c l, 0)) : Writes1 i d g := by
  have : f = fun c l => (g c l, 0) := by funext c l; exact e c l
  rw [this] at h; exact h

end Sys2Proof.Machine
end

