-- ==== Sys2Proof/Tests/Fixtures.lean ====
section
/-! SUPPORT. Small states for the tests: one team of a grid with its cluster and die units, a lane group, the sequencers
above it and a handler; and the hypotheses of the statements in a form that evaluates. -/

open Sys2Proof Sys2Proof.Machine

namespace Sys2Proof.Tests

/-! ### A small machine -/

/-- Keys: grid 1, units 1 (L3), 2 (L2), 3 (L1, a team); contexts 10 (a lane group), 11 (the team's sequencer), 12 (of the
cluster unit), 13 (of the die unit), 14 (the handler of the core). -/
def grid : Grid :=
  { asid := 1, rootLvl := 3, w1 := 1, w2 := 1, w3 := 1, vregs := 64, gregs := 64, tiles := 16, accs := 8, sregs := 64, stash := 2048
    cstore := 128, clmem := 64, dstore := 64, seqL1 := true, entry := 0x1000, fmtslots := 0xE0C065706D406800 }
/-- The units. -/
def units : Sparse WUnit :=
  [(1, { level := 3, grid := 1, st := .running, seq := 14, created := 2 }),
   (2, { level := 2, grid := 1, parent := 2, st := .running, seq := 13, created := 2 }),
   (3, { level := 1, grid := 1, parent := 3, st := .running, seq := 12, created := 2 })]
/-- A lane at the entry. -/
def lane : Lane := { pc := 0x1000 }
/-- The lanes of a group: lane 0 runs, the others have exited. -/
def lanes : Sparse Lane := (List.range 32).map (fun l => (l, { lane with exited := decide (l ≠ 0) }))
/-- The group: v2 holds the address 0x2000 in lane 0, and g2 in the group. -/
def group : Ctx := { kind := .group, grid := 1, unit := 3, asid := 1, placed := true, pos := some 0, lanes := lanes, v := [(64, 0x2000)], g := [(2, 0x2000)] }
/-- A sequencer of a unit. -/
def seqOf (u : Nat) : Ctx := { kind := .seq, grid := 1, unit := u, asid := 1, placed := true, lanes := [(0, lane)], v := [(64, 0x2000)], g := [(2, 0x2000)] }
/-- The handler, which serves the group. -/
def handler : Ctx :=
  { kind := .handler, asid := 1, placed := true, lanes := lanes, served := 10, v := [(64, 0x2000)], g := [(2, 0x2000)] }
/-- Page 0x1000 holds code, page 0x2000 data that may be written; both are in the core's TLB and the cluster's. -/
def tlbs : List TlbEntry :=
  [0, 4096].flatMap (fun n => [{ site := n, asid := 1, gen := 0, va := 0x1000, bits := 12, pte := 0x45B },
    { site := n, asid := 1, gen := 0, va := 0x2000, bits := 12, pte := 0x01000000000008D7 }])
/-- The package. -/
def pkg : Package := { tlbs := tlbs }
/-- The machine, with the issue of lane 0 of a context in progress. -/
def world (k : Nat) : State :=
  { pkgs := [(0, pkg)], grids := [(1, grid)], units := units
    ctxs := [(10, group), (11, seqOf 3), (12, seqOf 2), (13, seqOf 1), (14, handler)], fresh := 20
    cur := { ctx := k, lanes := 1, pc := 0x1000 } }
/-- The same with the group changed. -/
def withGroup (f : Ctx → Ctx) : State := (world 10).modCtx 10 f
/-- The group of `world`. -/
def g0 : Ctx := (world 10).ctx 10

/-! ### Hypotheses that evaluate -/

/-- `Issues`, spelled out. -/
theorem issues_iff {s : State} {i : Instr} {c : Ctx} {act : List Nat} : Issues s i c act ↔
    Sparse.find s.ctxs s.cur.ctx = some c ∧ s.cohort c ≠ [] ∧ act = (s.cohort c).filter (fun l => c.guard (guardOf i) l) ∧ act ≠ []
      ∧ s.preCheck c i act = none :=
  ⟨fun h => ⟨h.found, h.cohort, h.acts, h.some, h.checks⟩, fun ⟨a, b, c, d, e⟩ => ⟨a, b, c, d, e⟩⟩
/-- The context whose issue is in progress issues an instruction, in the lanes given. -/
def issues (s : State) (i : Instr) (act : List Nat) : Bool :=
  match Sparse.find s.ctxs s.cur.ctx with
  | none => false
  | some c => !(s.cohort c).isEmpty && decide (act = (s.cohort c).filter (fun l => c.guard (guardOf i) l)) && !act.isEmpty
      && (s.preCheck c i act).isNone
/-- What `issues` decides. -/
theorem issues_sound {s : State} {i : Instr} {act : List Nat} (h : issues s i act = true) : Issues s i (s.ctx s.cur.ctx) act := by
  unfold issues at h
  cases hf : Sparse.find s.ctxs s.cur.ctx with
  | none => simp [hf] at h
  | some c =>
    have e : s.ctx s.cur.ctx = c := by simp [State.ctx, hf]
    rw [hf] at h
    simp only [Bool.and_eq_true, Bool.not_eq_true', decide_eq_true_eq, List.isEmpty_eq_false_iff, Option.isNone_iff_eq_none] at h
    rw [e]
    exact ⟨hf, h.1.1.1, h.1.1.2, h.1.2, h.2⟩
/-- Every instruction of a list issues in lane 0. -/
def allIssue (s : State) (l : List Instr) : Bool := l.all (fun i => issues s i [0])

/-- What `Takes` asks. -/
def takes (s : State) (c : Ctx) (cls : Option CClass) (acc : AccKind) (eng : Bool) (reqs : List Req) : Bool :=
  reqs.all (fun r => decide (r.va % r.align = 0) && decide (r.va < 2 ^ 57)
      && (pageStarts r.va r.len).all (fun a => match s.xlate (s.partyOf c eng) a acc with | .ok _ _ => true | _ => false))
    && (s.noRoom c cls true (reqs.flatMap (fun r => accLines r.va r.len)).eraseDups.length).isNone
/-- What `takes` decides. -/
theorem takes_sound {s : State} {c : Ctx} {cls : Option CClass} {acc : AccKind} {eng : Bool} {reqs : List Req}
    (h : takes s c cls acc eng reqs = true) : Takes s c cls acc eng reqs := by
  simp only [takes, Bool.and_eq_true, List.all_eq_true, decide_eq_true_eq, Option.isNone_iff_eq_none] at h
  refine ⟨fun r hr => (h.1 r hr).1.1, fun r hr => (h.1 r hr).1.2, h.2, fun r hr a ha => ?_⟩
  have := (h.1 r hr).2 a ha
  split at this
  · exact ⟨_, _, by assumption⟩
  · cases this
/-- What `TakesLocal` asks. -/
def takesLocal (s : State) (c : Ctx) (cls : Option CClass) (res : Req → LRes) (reqs : List Req) : Bool :=
  reqs.all (fun r => decide (r.va % r.align = 0) && (match res r with | .ok _ => true | _ => false)) && (s.noRoom c cls false 0).isNone
/-- What `takesLocal` decides. -/
theorem takesLocal_sound {s : State} {c : Ctx} {cls : Option CClass} {res : Req → LRes} {reqs : List Req}
    (h : takesLocal s c cls res reqs = true) : TakesLocal s c cls res reqs := by
  simp only [takesLocal, Bool.and_eq_true, List.all_eq_true, decide_eq_true_eq, Option.isNone_iff_eq_none] at h
  refine ⟨fun r hr => (h.1 r hr).1, fun r hr => ?_, h.2⟩
  have := (h.1 r hr).2
  split at this
  · exact ⟨_, by assumption⟩
  · cases this
/-- What `Ready` asks of lane l of entry id of context k. -/
def ready (s : State) (k id l : Nat) (en : RqEntry) (x : Cap) : Bool :=
  (Sparse.find s.ctxs k).isSome && decide ((s.ctx k).entry id = some en) && (s.ctx k).rq.all (fun y => decide (y.id = id → y = en))
    && decide (Sparse.find en.caps l = some x) && !x.done && State.mayPerform (s.ctx k) en l x && x.whole
    && decide (x.got = [] ∧ x.stage = 0) && !s.heldByEarly k en l x && s.travels (s.ctx k).pkg (s.ctx k).site x.segs
/-- What `ready` decides. -/
theorem ready_sound {s : State} {k id l : Nat} {en : RqEntry} {x : Cap} (h : ready s k id l en x = true) :
    Ready s k id l (s.ctx k) en x := by
  unfold ready at h
  cases hf : Sparse.find s.ctxs k with
  | none => simp [hf] at h
  | some c =>
    have e : s.ctx k = c := by simp [State.ctx, hf]
    rw [e, hf] at h
    simp only [Bool.and_eq_true, Bool.not_eq_true', decide_eq_true_eq, List.all_eq_true, Option.isSome_some, true_and] at h
    rw [e]
    obtain ⟨⟨⟨⟨⟨⟨⟨⟨a, b⟩, c⟩, d⟩, e⟩, f⟩, g⟩, h⟩, i⟩ := h
    exact ⟨hf, a, b, c, d, e, f, g, h, i⟩
/-- Nothing is on its way in any package listed. -/
def noSlots (s : State) : Bool := s.pkgs.all (fun e => e.2.slots.isEmpty && e.2.shadows.isEmpty && e.2.early.isEmpty
  && e.2.dieLines.all (fun y => y.old.isNone))
/-- What `noSlots` decides. -/
theorem noSlots_sound {s : State} (h : noSlots s = true) : s.NoSlots := by
  simp only [noSlots, List.all_eq_true, Bool.and_eq_true, List.isEmpty_iff, Option.isNone_iff_eq_none] at h
  exact fun e he => let ⟨⟨⟨a, b⟩, c⟩, d⟩ := h e he; ⟨a, b, c, d⟩
/-- An entry that is found is listed. -/
theorem mem_of_find {α : Type} {m : Sparse α} {n : Nat} {v : α} (h : Sparse.find m n = some v) : (n, v) ∈ m := by
  induction m with
  | nil => cases h
  | cons e r ih =>
    unfold Sparse.find at h
    split at h
    · cases h; simp_all
    · exact List.mem_cons_of_mem _ (ih h)
/-- No shadow word stands in any package. -/
theorem shadows_sound {s : State} (h : noSlots s = true) (p : Nat) : (s.pkg p).shadows = [] := by
  unfold State.pkg
  cases hf : Sparse.find s.pkgs p with
  | none => rfl
  | some q => exact (noSlots_sound h (p, q) (mem_of_find hf)).2.1

/-- No die's clocks are stopped in any package listed, and every plane of package p carries requests. -/
def carriesAll (s : State) (p : Nat) : Bool := s.pkgs.all (fun e => e.2.stopped.isEmpty) && (List.range 8).all (s.pkg p).planeOpen
/-- What a package listed satisfies, and one after reset, every package does. -/
theorem pkg_induction {s : State} {P : Package → Prop} (h : ∀ e ∈ s.pkgs, P e.2) (fresh : P (freshPkg s.cycle)) (p : Nat) : P (s.pkg p) := by
  unfold State.pkg
  cases hf : Sparse.find s.pkgs p with
  | none => exact fresh
  | some q => exact h _ (mem_of_find hf)
/-- What `carriesAll` decides: every request of the package travels, where no shadow word stands there. -/
theorem carriesAll_sound {s : State} {p : Nat} (h : carriesAll s p = true) (hs : (s.pkg p).shadows = []) (x : Site)
    (l : List (Loc × Nat)) : s.travels p x l = true := by
  simp only [carriesAll, Bool.and_eq_true, List.all_eq_true, List.isEmpty_iff, List.mem_range] at h
  have run (q : Nat) (y : Site) : s.clockRuns q y = true := by
    have := pkg_induction (P := fun z => z.stopped = []) h.1 rfl q
    simp [State.clockRuns, this, Sparse.find]
  have plane (a : Nat) : (s.pkg p).planeOpen (logicalPlane a) = true :=
    h.2 _ (Nat.xor_lt_two_pow (n := 3) (Nat.mod_lt _ (by decide)) (Nat.mod_lt _ (by decide)))
  simp only [State.travels, State.answered, State.spansFree, hs, run, Bool.true_and, List.all_eq_true, Bool.and_eq_true, List.isEmpty_nil,
    Bool.or_true, Bool.true_or, and_true]
  intro y _
  constructor
  · unfold State.carries
    split
    · simp [plane]
    · rfl
  · unfold State.serves
    split <;> first | exact run _ _ | rfl
/-- No slot is pinned, and every reduction unit has some, in any package listed. -/
def roomy (s : State) : Bool :=
  s.pkgs.all (fun e => e.2.pins.isEmpty && decide (0 < e.2.slotQuota 0) && decide (0 < e.2.slotQuota 8))
/-- What `roomy` decides. -/
theorem roomy_sound {s : State} (h : roomy s = true) (q site : Nat) : (s.pkg q).pins = [] ∧ 0 < (s.pkg q).slotQuota site := by
  simp only [roomy, List.all_eq_true, Bool.and_eq_true, List.isEmpty_iff, decide_eq_true_eq] at h
  have := pkg_induction (P := fun z => z.pins = [] ∧ 0 < z.slotQuota 0 ∧ 0 < z.slotQuota 8) (fun e he => ⟨(h e he).1.1, (h e he).1.2, (h e he).2⟩)
    ⟨rfl, show 0 < ({} : Package).slotQuota 0 by decide, show 0 < ({} : Package).slotQuota 8 by decide⟩ q
  refine ⟨this.1, ?_⟩
  by_cases hs : site < 8
  · simpa [Package.slotQuota, hs] using this.2.1
  · simpa [Package.slotQuota, hs] using this.2.2

/-- Every line of a core's data cache that is listed has 64 bytes and holds every word. -/
def linesWhole (s : State) : Bool := s.pkgs.all (fun e => e.2.dlines.all (fun y => decide (y.data.length = 64 ∧ y.holes = [])))
/-- What `linesWhole` decides. -/
theorem linesWhole_sound {s : State} (h : linesWhole s = true) : s.LinesWhole := by
  intro p y hy
  unfold State.pkg at hy
  cases hf : Sparse.find s.pkgs p with
  | none => simp [hf, freshPkg] at hy
  | some q =>
    rw [hf] at hy
    have := List.all_eq_true.mp h _ (mem_of_find hf)
    exact of_decide_eq_true (List.all_eq_true.mp this y hy)
/-- What `KeepsLines` asks. -/
def keepsLines (s : State) (c : Ctx) (o : Loc) (n : Nat) : Bool :=
  match s.coreOf c, o with
  | some (p, core), .hbm k => decide ((lineKeys k n).length ≤ 1
      ∨ ((s.pkg p).dlines.filter (fun y => decide (y.core = core))).length + (lineKeys k n).length ≤ coreLines)
  | _, _ => true
/-- What `keepsLines` decides. -/
theorem keepsLines_sound {s : State} {c : Ctx} {o : Loc} {n : Nat} (h : keepsLines s c o n = true) : s.KeepsLines c o n := by
  intro p core k hc ho
  subst ho
  simp only [keepsLines, hc] at h
  exact of_decide_eq_true h
/-- A place of the machine. -/
def place (s : State) : Loc → Bool
  | .none => false
  | .hbm _ => true
  | .host _ => true
  | .store u _ => (Sparse.find s.units u).isSome
/-- What `place` decides. -/
theorem place_sound {s : State} {o : Loc} (h : place s o = true) : s.Place o := by
  cases o with
  | none => cases h
  | hbm => trivial
  | host => trivial
  | store u n =>
    intro e
    simp [place, e] at h
/-- A context without entries holds no register. -/
theorem unheld_of_nil {c : Ctx} (h : c.rq = []) (rs : List RegName) : c.Unheld rs := fun e he => by rw [h] at he; cases he
/-- The next state of an outcome, or another where it stops. -/
def okOr (s : State) : Out → State
  | .next t => t
  | _ => s
/-- The state after an instruction, or the state before it where it stops. -/
def after (i : Instr) (s : State) : State := okOr s (exec i s)
/-- The instruction answers a next state. -/
def runs (i : Instr) (s : State) : Bool := match exec i s with | .next _ => true | _ => false
/-- Some lane of some entry of context k is ready, and a test holds of its number, its entry and its capture. -/
def someReady (s : State) (k : Nat) (f : Nat → RqEntry → Cap → Bool) : Bool :=
  (s.ctx k).rq.any (fun e => e.caps.any (fun y => ready s k e.id y.1 e y.2 && f y.1 e y.2))
/-- What `someReady` decides. -/
theorem someReady_sound {s : State} {k : Nat} {f : Nat → RqEntry → Cap → Bool} (h : someReady s k f = true) :
    ∃ id l en x, Ready s k id l (s.ctx k) en x ∧ f l en x = true := by
  simp only [someReady, List.any_eq_true, Bool.and_eq_true] at h
  obtain ⟨e, -, y, -, h1, h2⟩ := h
  exact ⟨_, _, _, _, ready_sound h1, h2⟩
/-- The capture lies in one piece of n bytes, at a place of the machine. -/
def onePiece (s : State) (x : Cap) (n : Nat) : Bool := match x.segs with | [(o, m)] => decide (m = n) && place s o | _ => false

end Sys2Proof.Tests
end

