-- ==== Sys2Proof/Tests/Slice0.lean ====
section
/-! SUPPORT. Tests: the worked encodings of the spec's chapters, the checks of `wellFormed`, and single steps on small
states; for every statement with hypotheses a state that meets them. -/

open Sys2Proof Sys2Proof.Machine

/-! ### Words that the chapters write out (04, 06, 07, 08, 09, 11 to 17) -/

/-- Every word of a list decodes to its instruction, which is encoded as that word. -/
def decodesAll (l : List (Nat × Instr)) : Bool :=
  l.all (fun e => decide (decodeWord e.1 = e.2) && decide (encode e.2 = some e.1) && wellFormed e.2)

/-- `?!p1`. -/
def g1n : Guard := .pred true 1
/-- `?p0`. -/
def g0p : Guard := .pred false 0

/-- Chapter 04, "Worked encodings"; chapter 06, "Worked encodings". -/
theorem test_words_vector : decodesAll
    [(0x23431CC3, .ffma g1n 3 7 12), (0x80081048, .ld .always 8 4 4 .w false), (0xFC000001, .hntWide 1),
     (0x18052345, .movi .always 5 0x2345), (0xFD000080, .hntSched 0 true false 0 false 0),
     (0xFD00006E, .hntSched 0 false true 5 true 2), (0xFE010005, .hntMod 0 0x10005), (0xFE200000, .hntMod 2 0),
     (0x0C030C01, .iaddImm .always 3 3 1), (0x0400002F, .lea .always 0 0 2), (0x50000422, .icmp .always 1 2 .lt),
     (0x58001403, .pswap .always 5), (0x6404FFFF, .gmovi .always 4 (-1)), (0x7200FFFD, .bra g0p (-3)),
     (0x40142114, .qntv .always 20 8 2 1), (0xE0020002, .sread .always 2 false 0)] = true := by decide
/-- Chapter 07. -/
theorem test_words_matrix : decodesAll
    [(0xA0060800, .sfillA .always 6 2 0), (0xA0060801, .sfillB .always 6 2 0), (0xB0011400, .cvdecl .always 1 5),
     (0xB0010001, .cvsign .always 1), (0xB0222402, .mma .always true false 2 1 1 0), (0xB0010003, .procfg .always true),
     (0xB4040890, .accrdT .always 4 2 1 1), (0xB8080C36, .smul .always 8 3 3 false), (0xBC080800, .sld .always 8 2 0)] = true := by
  decide
/-- Chapter 08. -/
theorem test_words_reduce : decodesAll
    [(0xCC004280, .reduce .always 0 2 5 .add false false), (0xCC208508, .reduce .always 4 4 10 .fadd false false),
     (0xCC10C08B, .reduce .always 2 6 1 .fadd true true), (0xD0142000, .cmbopen .always 20 8), (0xD01424A1, .cmbput .always 20 9 10),
     (0xD0155002, .cmbwait .always 21 20), (0xD0005003, .cmbclose .always 20), (0xD0165014, .cmbstat .always 22 20 1)] = true := by
  decide
/-- Chapter 09. -/
theorem test_words_memory : decodesAll
    [(0x80060832, .ld .always 6 2 3 .b true), (0x80031209, .ldAcq .always 3 4 4 .w false), (0x840A1A8D, .stRel .always 10 6 5 .p),
     (0x8807142C, .stc .always 7 5 2 .w), (0x94080850, .ldm .always 8 2 6), (0x94031022, .ldt .always 3 .global 4 2),
     (0x94062084, .ldsc .always 6 8 1), (0x9C0C0890, .ldx .always 12 2 9), (0x98040A89, .atom .always 4 2 5 .fadd),
     (0x98060A0A, .cas .always 6 2 4)] = true := by decide
/-- Chapter 11. -/
theorem test_words_async : decodesAll
    [(0xC8110200, .mcopyDown .always 2 8 4 false), (0xC82A0109, .mcopyUp .always 5 16 2 true), (0xA4001050, .mbinit .always 4 5),
     (0xA4001002, .mbarrive .always 4), (0xA4061073, .mbwait .always 6 4 7), (0xA8010800, .waitc .always .stream 2),
     (0xA8031001, .cntrd .always 3 .store), (0xD80A3001, .coll .always 10 12 .sum), (0xD80B2805, .collwait .always 11 10),
     (0xD8140807, .laydef .always 20 2)] = true := by decide
/-- Chapter 13. -/
theorem test_words_hierarchy : decodesAll
    [(0xC0102000, .launch .always 2 1 0), (0xC0284000, .launch .always 5 2 0), (0xC0188408, .tsplit .always 3 4 8),
     (0xC0008409, .tsplitX .always 4 8), (0xC0190011, .evqrd .always 3 8 0 false true), (0xC4000000, .bar .always 0),
     (0xC6000000, .bar g0p 0), (0xC4100000, .bar .always 2), (0xC4200020, .fenceSc .always 4), (0x78000004, .yield .always),
     (0x78001405, .sleep .always 5), (0x7C10FFFF, .rgn .always 16 0xFFFF)] = true := by decide
/-- Chapters 12, 14, 15, 16 and 17. -/
theorem test_words_programs : decodesAll
    [(0xC82C1400, .mcopyDown .always 5 32 40 false), (0x941A4104, .ldsc .always 26 16 2), (0x800C1289, .ldAcq .always 12 4 5 .w false),
     (0xC4280008, .fenceRel .always 5), (0xCC038C98, .reduce .always 0 28 25 .max false false), (0xB82070C6, .smul .always 32 28 4 true),
     (0xE003040A, .sread .always 3 true 2), (0xFC002400, .hntWide 0x2400), (0xB40A0002, .accrdC .always 10 0 0),
     (0xC8110008, .mcopyUp .always 2 8 0 false), (0xC4200000, .bar .always 4), (0x84050808, .st .always 5 2 0 .w),
     (0x7200FFF5, .bra g0p (-11)), (0x1C084000, .movhi .always 8 0x4000), (0x9C000021, .pref .always false 0 2),
     (0xEC040802, .tlbi .always 4 2), (0xEC040806, .tlbiW .always 4 2), (0xEC050003, .asidgen .always 5),
     (0x9A060A89, .atom g0p 6 2 5 .fadd), (0x86061008, .st g0p 6 4 0 .w)] = true := by decide
/-- Chapters 06, 09 and 19, from the tables of their instructions, field by field. -/
theorem test_words_system : decodesAll
    [(0b000010_0000_000111_000011_001001_0010, .and .always 7 3 9), (0b010000_0000_000101_000110_011_010_0000, .cvt .always 5 6 3 2),
     (0b010101_0000_000000_000001_000010_0110, .fcmp .always 1 2 .un), (0b001010_0000_000100_000101_000110_0011, .hadd2H .always 4 5 6),
     (0b001001_0000_000100_000101_000000_0100, .flog2 .always 4 5), (0b011000_0000_000011_000001_000010_0011, .gmul .always 3 1 2),
     (0b011010_0000_000011_000100_111111_0000, .gld .always 3 4 (-1)), (0b011110_1101_000000_000100_000000_0000, .brx g1n 4),
     (0b011101_0000_001000_1111111111111111, .call .always 8 (-1)), (0b000100_0000_000001_000010_00111_00100, .bfx .always 1 2 4 8),
     (0b100011_0000_000001_000010_000011_0010, .ldk .always 1 2 3 .h), (0b100111_0000_000001_000010_111110_0010, .cctl .always .inv 2 (-2)),
     (0b111000_0000_000000_000000_00010001_00, .trap .always 17), (0b111000_0000_000000_000011_00000001_01, .tretAbort .always 3),
     (0b111000_0000_000101_000001_00010100_11, .swrite .always 5 true 0x14), (0b111001_0000_000000_000110_00000000_00, .winsel .always 6),
     (0b111001_0000_000111_000110_00001001_11, .oplrd .always 7 6 9), (0b111010_0000_000111_000110_00000000_10, .rqdrop .always 7 6),
     (0b111010_0000_000000_000110_00000001_11, .ctxswRestore .always 6), (0b111011_0000_000000_000000_00000010_00, .halt .always .grid),
     (0b111011_0000_000000_000000_00000001_01, .resume .always .clus)] = true := by decide
/-- Words that the chapters call undefined: all zeros, a reserved guard, `PSWAP 0`, an odd pair, an unassigned sel. -/
theorem test_words_undefined :
    [0x00000000, 0x21431CC3, 0x58000003, 0xCC186018, 0xC8112200, 0xEC04080A, 0xFF000000].all
      (fun w => decide (decodeWord w = .undefinedInstruction w)) = true := by decide
/-- Level 6 of `BAR` (R88): the instruction is named, and R98 makes it trap. -/
theorem test_word_level6 : decodeWord 0xC4300000 = .bar .always 6 := by decide

/-! ### The checks of `wellFormed` -/

/-- One term for each check, which refuses it. -/
theorem test_ill_formed : [
    Instr.iadd .always 64 0 0, .iadd (.pred false 4) 0 0 0, .iaddImm .always 0 0 512, .bfx .always 0 0 32 1, .bfx .always 0 0 0 0,
    .movi .always 0 32768, .movhi .always 0 65536, .lea .always 1 0 0, .cvt .always 0 0 8 0, .qntv .always 0 0 0 8, .pswap .always 0,
    .pdup .always 8, .gread .always 64 0, .ld .always 0 1 0 .w false, .ld .always 0 0 32 .w false, .ld .always 0 0 0 .w true,
    .ldm .always 60 0 8, .ldt .always 16 .global 0 0, .mma .always false false 8 0 0 0, .accz .always 8, .cvdecl .always 8 0,
    .launch .always 8 0 0, .reduce .always 4 1 0 .add false false, .hntWide (2 ^ 24), .hntMod 16 0, .undefinedInstruction 0].all
      (fun i => !wellFormed i) = true := by decide
end

