-- ==== Sys2Proof/Tests/Steps.lean ====
section
/-! SUPPORT. Single steps whose results the spec states, or a hand calculation from its rules gives. -/

open Sys2Proof Sys2Proof.Machine

namespace Sys2Proof.Tests

set_option maxRecDepth 100000

/-! ### Register instructions -/

/-- The group with its lane 0 holding some vector registers. -/
def withV (l : List (Nat × Word)) : State := withGroup (fun c => { c with v := l.map (fun e => (e.1 * 32, e.2)) })
/-- v[n] of lane 0 after an instruction on two operands in v1 and v2, with v3 as destination, and the flags. -/
def result (i : Instr) (d : Nat) (x y z : Word) : Word × BitVec 6 :=
  let c := (after i (withV [(1, x), (2, y), (3, z)])).ctx 10
  (c.rdV d 0, c.fpflags)
/-- Sums and differences wrap, or stop at the ends of their range with SAT (R133; the two differences are the spec's). -/
theorem test_integer_sums :
    result (.iadd .always 3 1 2) 3 0xFFFFFFFF 1 0 = (0, 0) ∧ result (.iadds .always 3 1 2) 3 0x7FFFFFFF 1 0 = (0x7FFFFFFF, fSAT)
    ∧ result (.isubsU .always 3 1 2) 3 5 9 0 = (0, fSAT) ∧ result (.isubs .always 3 1 2) 3 0x80000000 1 0 = (0x80000000, fSAT) := by decide
/-- High halves of products, and a dot product of bytes (R133). -/
theorem test_integer_products :
    result (.imulhi .always 3 1 2) 3 0xFFFFFFFF 0xFFFFFFFF 0 = (0, 0) ∧ result (.imulhiU .always 3 1 2) 3 0xFFFFFFFF 0xFFFFFFFF 0 = (0xFFFFFFFE, 0)
    ∧ result (.idot4 .always 3 1 2) 3 0x0102FF80 0x01010180 10 = (10 + 1 + 2 - 1 + 16384, 0) := by decide
/-- Shifts by the width and more (R133). -/
theorem test_shifts :
    result (.shl .always 3 1 2) 3 1 32 0 = (0, 0) ∧ result (.sar .always 3 1 2) 3 0x80000000 40 0 = (0xFFFFFFFF, 0)
    ∧ result (.rotl .always 3 1 2) 3 0x80000001 33 0 = (3, 0) := by decide
/-- Counts and reversals (R133). -/
theorem test_bits :
    result (.clz .always 3 1) 3 0 0 0 = (32, 0) ∧ result (.brev .always 3 1) 3 1 0 0 = (0x80000000, 0)
    ∧ result (.bfx .always 3 1 31 1) 3 0x80000000 0 0 = (1, 0) ∧ result (.bfi .always 3 1 28 4) 3 0xA 0 0x12345678 = (0xA2345678, 0) := by decide
/-- 1.5 · 2 + 1; ∞ − ∞ raises NV; 1 + 2^−24 ties to 1 (R104, R136). -/
theorem test_float_sums :
    result (.ffma .always 3 1 2) 3 0x3FC00000 0x40000000 0x3F800000 = (0x40800000, 0)
    ∧ result (.fsub .always 3 1 2) 3 0x7F800000 0x7F800000 0 = (0x7FC00000, fNV)
    ∧ result (.fadd .always 3 1 2) 3 0x3F800000 0x33800000 0 = (0x3F800000, 1) := by decide
/-- √2 and 1/3 rounded, 1/0, and the two exact functions (R138). -/
theorem test_float_functions :
    (result (.fsqrt .always 3 1) 3 0x40000000 0 0).1 = 0x3FB504F3 ∧ (result (.frcp .always 3 1) 3 0x40400000 0 0).1 = 0x3EAAAAAB
    ∧ result (.frcp .always 3 1) 3 0 0 0 = (0x7F800000, fDZ) ∧ result (.fexp2 .always 3 1) 3 0x40400000 0 0 = (0x41000000, 0)
    ∧ result (.flog2 .always 3 1) 3 0x41000000 0 0 = (0x40400000, 0) := by decide
/-- 200.0 to INT8: −56 without saturation, 127 and SAT with it, OF and NX in both (R119's example). -/
theorem test_int8 : roundV .int8 false false (f32 0x43480000) = (0xC8, fOF ||| fNX) ∧ roundV .int8 false true (f32 0x43480000) = (0x7F, fSAT ||| fOF ||| fNX) := by
  decide
/-- A compare pushes on the stack (R59, R144): −1 < 1 signed, and not unsigned. -/
theorem test_compares :
    ((after (.icmp .always 1 2 .lt) (withV [(1, 0xFFFFFFFF), (2, 1)])).ctx 10).preds 0 = 1
    ∧ ((after (.icmp .always 1 2 .ltU) ((withV [(1, 0xFFFFFFFF), (2, 1)]).modCtx 10 (fun c => c.modLane 0 (fun x => { x with pred := 0x81 })))).ctx 10).preds 0 = 2 := by
  decide
/-- A branch back by three words, and a call's return address (R149). -/
theorem test_branches :
    (((after (.bra .always (-3)) (world 10)).ctx 10).lane 0).pc = 0xFF4
    ∧ (let c := (after (.call .always 8 16) (world 10)).ctx 10
       (c.lane 0).pc = 0x1040 ∧ c.rdPairV 8 0 = 0x1004) := by decide
/-- An instruction of the handler traps elsewhere with cause 1, and its group stops (R98, R370). -/
theorem test_trap :
    let s := after (.winsel .always 2) ((world 10).modPkg 0 (fun p => p.setFld 0x0C08 16 16 1))
    (s.ctx 10).trapped = true ∧ (s.ctx 10).frame.cause = 1 ∧ (s.ctx 10).frame.fpc = 0x1000 ∧ ((s.ctx 10).lane 0).pc = 0x1000 := by decide
/-- A misaligned load traps with cause 7 and the address. -/
theorem test_alignment :
    let s := after (.ld .always 8 2 0 .w false) ((withV [(2, 0x2001)]).modPkg 0 (fun p => p.setFld 0x0C08 16 16 1))
    (s.ctx 10).frame.cause = 7 ∧ (s.ctx 10).frame.info = 0x2001 := by decide

/-! ### Places -/

/-- R13's example: PA 0x123456D000 is homed on die 5, and the next page on die 6. -/
theorem test_home : homeDie 0x123456D000 = 5 ∧ homeDie 0x123456E000 = 6 := by decide
/-- R328's example: the leaf of a peer page on package 5. -/
theorem test_peer_leaf :
    let s : State := { pkgs := [(0, ({} : Package).setReg 0x3000 0x20)] }
    s.judge 0 0x050001448D15B4D7 (leafPa 0x050001448D15B4D7 12 0) .read false = .ok (.hbm (hbmKey 5 0x123456D000)) 0
    ∧ s.judge 0 0x050001448D15B4D7 (leafPa 0x050001448D15B4D7 12 0) .atomic false = .park 5 0x050001448D15B4D7
    ∧ s.judge 0 0x070001448D15B4D7 (leafPa 0x070001448D15B4D7 12 0) .atomic false = .ok (.hbm (hbmKey 5 0x123456D000)) 0 := by decide

/-! ### The worked combine (chapter 08) -/

/-- Its slot, with the experts that have arrived: 1, 4 and 9 have gates 0.5, 0.25 and 0.25. -/
def worked (arr : BitVec 16) : CmbSlot := { exp := 0x0212, arr := arr, gates := [(1, 0x3F000000), (4, 0x3E800000), (9, 0x3E800000)] }
/-- Element 0 of the experts' rows. -/
def row0 (e : Nat) : Word := if e = 1 then 0x4B800000 else 0x40000000
/-- Element 1. -/
def row1 (e : Nat) : Word := if e = 1 then 0x3F800000 else if e = 4 then 0x40000000 else 0x40800000
/-- The handle, both elements of both runs, the release words and what `CMBSTAT` reads of run B. -/
theorem test_combine :
    ({ pkg := 3, die := 2, slot := 17, gen := 5 } : Handle).word = 0x00D00885
    ∧ combineElem (worked 0x0212) row0 = (0x4B000000, 1) ∧ combineElem (worked 0x0212) row1 = (0x40000000, 0)
    ∧ combineElem (worked 0x0012) row0 = (0x4B000000, 1) ∧ combineElem (worked 0x0012) row1 = (0x3F800000, 0)
    ∧ releaseWord 0 1 true = 0x101 ∧ releaseWord 0x200 1 true = 0x02000101
    ∧ ({ (worked 0x0012) with st := .released, sub := 0x200, late := 0x200, lateCnt := 1 } : CmbSlot).stat true 1 = 0x02000200
    ∧ ({ (worked 0x0012) with st := .released, sub := 0x200, late := 0x200, lateCnt := 1 } : CmbSlot).stat true 2 = 0x80010000 := by decide

/-! ### The worked handover (chapter 18) -/

/-- A package with MSTOWN as given, and register n changed. -/
def owner (own : Nat) (l : List (Nat × Nat)) : State :=
  { pkgs := [(0, l.foldl (fun q e => q.setReg e.1 (BitVec.ofNat 64 e.2)) (({} : Package).setReg 0x0700 (BitVec.ofNat 64 own)))] }
/-- A register after an event. -/
def regAfter (i : Instr) (s : State) (off : Nat) : DWord := ((after i s).pkg 0).reg off
/-- MSTOWN after the claims, the offer and the acceptance. -/
theorem test_handover :
    regAfter (.mstctlClaim 0 1) (owner 0x7080 []) 0x0700 = 0x7001
    ∧ regAfter (.mstctlClaim 0 0) (owner 0x7001 []) 0x0700 = 0x7001 ∧ regAfter (.mstctlClaim 0 0) (owner 0x7001 []) 0x0710 = 0
    ∧ regAfter (.mstctlOffer 0 1 0) (owner 0x7001 []) 0x0700 = 0x7041
    ∧ regAfter (.mstctlAccept 0 0) (owner 0x7041 []) 0x0700 = 0x7000 := by decide
/-- Master 0 rings its queue, is frozen by a write of the queue's control, and is thawed. -/
theorem test_windows :
    regAfter (.qptrWptrWrite 0 0 5 1) (owner 0x7001 [(0x0720, 0x20), (0x0740, 2)]) 0x20B0 = 1
    ∧ regAfter (.qctlWrite 0 0 5 0) (owner 0x7001 [(0x0720, 0x20), (0x0740, 2)]) 0x0710 = 0x8415
    ∧ regAfter (.mstfrzThaw 0 1 0x8000) (owner 0x7001 [(0x0710, 0x8415)]) 0x0710 = 0x0415 := by decide

/-! ### SHA-512 -/

/-- The digest of the bytes "abc", as FIPS 180-4 gives it. -/
theorem test_sha512 : natBE (sha512 [0x61, 0x62, 0x63]) =
    0xddaf35a193617abacc417349ae20413112e6fa4e89a97ea20a9eeee64b55d39a2192992a274fc1a836ba3c23a3feebbd454d4423643ce80e2a9ac94fa54ca49f := by
  decide +kernel

/-! ### Fetched words -/

/-- The first instruction after reset: its PC after one step. -/
def stepped (w : Nat) : Nat := match step (State.reset.withFetchWord 32 w) with
  | .next t => ((t.ctxs.filter (fun e => decide (e.2.kind = .group))).map (fun e => (e.2.lane 0).pc.toNat)).headD 0
  | _ => 0
/-- A word that only goes on to the next, and a branch back by three words. -/
theorem test_first_step : stepped 0x18052345 = 0x1004 ∧ stepped 0x7200FFFD = 0x1004 ∧ stepped 0x7000FFFD = 0xFF4 := by decide

end Sys2Proof.Tests
end

