-- ==== Sys2Proof/Tests/WitnessAccess.lean ====
section
/-! SUPPORT. For each statement with hypotheses on an access that is performed, on slots, shadow words and objects, a state
and operands that meet them. -/

open Sys2Proof Sys2Proof.Machine

namespace Sys2Proof.Tests

/-! ### Accesses performed -/

/-- The state after the group has issued an instruction. -/
def issued (i : Instr) : State := after i (world 10)
/-- A load in one piece of n bytes is ready in lane 0. -/
def loadReady (i : Instr) (n : Nat) : Bool :=
  let s := issued i
  noSlots s && linesWhole s && someReady s 10 (fun l e x =>
    decide (e.ins = i) && decide (e.kind ≠ 3) && decide (e.kind < 6) && decide (l < 32) && onePiece s x n && decide (x.progress = 0)
    && x.segs.all (fun y => keepsLines s (s.ctx 10) y.1 y.2))
/-- Each load, after its issue. -/
theorem witness_LoadsPerform :
    ([(.ld .always 8 2 0 .b true, 1), (.ld .always 8 2 0 .p false, 8), (.ldAcq .always 8 2 5 .w false, 4), (.ldc .always 8 2 0 .p, 8),
      (.ldk .always 8 2 0 .h, 2), (.gld .always 3 2 0, 4), (.sld .always 63 2 0, 40), (.ldt .always 15 .global 2 0, 1024),
      (.ldt .always 15 .core 2 0, 1024), (.ldm .always 8 2 1, 4), (.ldm .always 8 2 32, 128)] : List (Instr × Nat)).all
      (fun e => loadReady e.1 e.2) = true := by decide
/-- A store in one piece of n bytes is ready in lane 0. -/
def storeReady (i : Instr) (n : Nat) : Bool :=
  let s := issued i
  noSlots s && someReady s 10 (fun _ e x => decide (e.ins = i) && decide (e.kind ≠ 3) && decide (e.kind < 6) && onePiece s x n
    && decide (x.progress = 0) && decide (x.len = n) && decide (n ≤ 4 * x.data.length))
set_option maxRecDepth 20000 in
/-- Each store, after its issue. -/
theorem witness_StoresPerform :
    ([(.st .always 8 2 0 .b, 1), (.st .always 8 2 0 .p, 8), (.stRel .always 8 2 5 .w, 4), (.stc .always 8 2 0 .p, 8),
      (.stk .always 8 2 0 .h, 2), (.gst .always 3 2 0, 4), (.sst .always 63 2 0, 40), (.stt .always 15 .global 2 0, 1024),
      (.stt .always 15 .cluster 2 0, 1024), (.stm .always 8 2 1, 4), (.stm .always 8 2 32, 128)] : List (Instr × Nat)).all
      (fun e => storeReady e.1 e.2) = true := by decide
/-- An atomic or a contribution to one word is ready in lane 0; the word's unit has room for a slot. -/
def wordReady (i : Instr) (kind words : Nat) : Bool :=
  let s := issued i
  let c := s.ctx 10
  noSlots s && someReady s 10 (fun l e x => decide (e.ins = i) && decide (e.kind = kind) && decide (l < 32) && onePiece s x 4
    && decide (x.data.length = words)
    && (match x.segs with
        | [(o, _)] => (s.slotRoom (s.unitSite o).1 (s.unitSite o).2 c.asid 0).isSome
            && (match i with | .reduce _ lvl _ _ op _ _ => decide (s.usesShadow c lvl op o = false) | _ => true)
        | _ => false))
/-- Atomics and contributions, after their issue; contributions to each of the three spaces. -/
theorem witness_AtomicsAndContributions :
    ([(.atom .always 4 2 5 .add, 2, 1), (.atom .always 4 2 0 .exch, 2, 1), (.atom .always 4 2 5 .fadd, 2, 1), (.cas .always 6 2 4, 2, 2),
      (.reduce .always 3 2 5 .add false false, 3, 1), (.reduce .always 3 2 5 .fadd true true, 3, 1),
      (.reduce .always 1 2 5 .maxU false false, 3, 1), (.reduce .always 2 2 5 .fadd false false, 3, 1)] : List (Instr × Nat × Nat)).all
      (fun e => wordReady e.1 e.2.1 e.2.2) = true
    ∧ AtomOp.add ≠ .fadd ∧ AtomOp.exch ≠ .fadd ∧ RedOp.add ≠ .fadd ∧ RedOp.maxU ≠ .fadd := by decide

/-- `LDSC` of tile 15 and registers s60 to s63, in each space. -/
def ldscWorld (space : Nat) : State := withGroup (fun c => { c with g := [(2, 0x2000), (4, 0x2800), (6, BitVec.ofNat 32 (60 * 2 ^ 26 + 15 * 2 ^ 22 + space * 2 ^ 20))] })
/-- The requests of that `LDSC`. -/
def ldscReqs : List Req := [{ lane := 0, va := 0x2000, len := 1024, align := 64 }, { lane := 32, va := 0x2800, len := 128, align := 32 }]
/-- `LDX` of 64 bytes from 0x2000 to the core store at 64, counted into the object at 0. -/
def ldxWorld : State := withGroup (fun c => { c with g := [(2, 0x2000), (6, 0x0C000000)], v := [(64, 0x2000), (384, 64)] })
/-- `LDSC` and `LDX` issue, and a lane of `LDX` may write. -/
theorem witness_GatheredLoads :
    (∀ sp ∈ [0, 1, 2], let s := ldscWorld sp
      let c := s.ctx 10
      issues s (.ldsc .always 6 2 1) [0] = true ∧ (slotOf (s.fmtOf c) 1).run = some ⟨4, 8, 2, false⟩
        ∧ wbits (c.rdG 6) 19 0 = 0 ∧ wbits (c.rdG 6) 21 20 = sp ∧ wbits (c.rdG 6) 25 22 < s.limit c (.t 0) ∧ s.badRun c 60 2 = false ∧ c.rq = []
        ∧ c.rdPairG 2 = 0x2000 ∧ c.rdPairG 4 = 0x2800)
    ∧ takes (ldscWorld 0) ((ldscWorld 0).ctx 10) none .read true ldscReqs = true
    ∧ (∀ sp ∈ [1, 2], takesLocal (ldscWorld sp) ((ldscWorld sp).ctx 10) none
        (fun r => if sp = 1 then (ldscWorld sp).coreStore ((ldscWorld sp).ctx 10) r.va r.len else (ldscWorld sp).clusterMem ((ldscWorld sp).ctx 10) r.va r.len) ldscReqs = true)
    ∧ (let s := ldxWorld
       let c := s.ctx 10
       issues s (.ldx .always 12 2 6) [0] = true ∧ wbits (c.rdG 6) 31 28 = 0 ∧ wbits (c.rdG 6) 25 25 = 0 ∧ wbits (c.rdG 6) 27 26 = 3
        ∧ (c.rdG 6).toNat % 2 ^ 25 % 16 = 0 ∧ (∀ e ∈ c.rq, e.id < c.nextId) ∧ s.objectRef c ((c.rdG 6).toNat % 2 ^ 25) = .ok (.store 3 0)
        ∧ (∀ l ∈ [0], (c.rdV 12 l).toNat % 64 = 0 ∧ s.coreStore c (c.rdV 12 l).toNat 64 = .ok (.store 3 64))
        ∧ takes s c (some .copy) .read true [{ lane := 0, va := 0x2000, len := 64, align := 64, data := [64] }] = true)
    ∧ (let s := after (.ldx .always 12 2 6) ldxWorld
       let c := s.ctx 10
       noSlots s = true ∧ someReady s 10 (fun _ e x => decide (e.kind = 6) && onePiece s x 64 && decide (x.len = 64) && c.laneClear e.id [0]
          && decide (s.coreStore c (x.data.headD 0).toNat 64 = .ok (.store 3 64)) && place s (.store 3 64) && place s e.obj
          && decide (e.obj = .store 3 0)) = true
        ∧ ∀ i < 64, ∀ j < 16, (Loc.store 3 64).add i ≠ (Loc.store 3 0).add j) := by decide

/-- An `LDSC` whose data, or whose records, have been performed. -/
def ldscHalf (l : Nat) : State :=
  okOr State.reset (execAccessPerformed 10 0 l (after (.ldsc .always 6 2 1) ((ldscWorld 0).wrBytes (.hbm (hbmKey 0 0x2800)) (bytesOfNat 4 0x01020304))))
set_option maxRecDepth 100000 in
/-- The other stream of an `LDSC` is ready, and what it then fills. -/
theorem witness_GatheredLoads_fill :
    ∀ l ∈ [0, 32], let s := ldscHalf l
      noSlots s = true ∧ linesWhole s = true ∧ someReady s 10 (fun m e x => decide (e.ins = .ldsc .always 6 2 1) && decide (e.kind = 5)
        && decide (e.args.length = 1) && !e.inLog && decide (m = (l + 32) % 64) && onePiece s x (if m = 0 then 1024 else 128)
        && x.segs.all (fun y => keepsLines s (s.ctx 10) y.1 y.2)
        && (match Sparse.find e.caps l with | some y => y.done && decide (y.data.length * 4 = if l = 0 then 1024 else 128) | none => false)
        && decide (wbits (e.args.headD 0) 31 26 + 2 ^ 2 ≤ 64)
        && (match execAccessPerformed 10 0 m s with
            | .next t => let c := t.ctx 10
              decide (c.rq = []) && c.tCurrent 15 ⟨4, 8, 2, false⟩ && decide (tagIndex (c.ttag 15) = 60) && decide (c.sByte 60 3 = 1) && decide (c.sGen 63 = 1)
            | _ => false)) = true := by decide

/-! ### Slots, shadow words and lines -/

/-- A slot whose sum is 1, the least number; slots that hold a NaN, and both infinities; a code that is no NaN; shards at
the ends of their ranges. -/
theorem witness_ExactSums :
    (let x : RedSlot := { (default : RedSlot) with acc := 1 }
     x.nan = false ∧ x.pinf = false ∧ x.ninf = false ∧ x.acc ≠ 0)
    ∧ ({ (default : RedSlot) with nan := true }).nan = true
    ∧ (let x : RedSlot := { (default : RedSlot) with pinf := true, ninf := true }
       x.pinf = true ∧ x.ninf = true)
    ∧ (f32 0xFF800000).isNaN = false ∧ (∀ kind ∈ [1, 2], kind ∈ [1, 2] ∧ 0 < 1 ∧ 0 < 1 ∧ 0 < 1)
    ∧ [1, 2].Perm [2, 1] := by decide
/-- A word with a slot open on it: after `ATOM.fadd` is performed. -/
def slotWorld : State := okOr State.reset (execAccessPerformed 10 0 0 (issued (.atom .always 4 2 5 .fadd)))
/-- A shadow word of die 0 and one line of core 0, 65,536 ticks old. -/
def lineWorld : State :=
  { pkgs := [(0, { count := 65536, shadows := [{ die := 0, key := 0x2000, asid := 1, grid := 1, op := .max, val := 3 }]
                   dlines := [{ core := 0, key := 128, fill := 0, data := List.replicate 64 0 }] })] }
/-- No slot stands in `lineWorld`. -/
theorem lineWorld_slots (q : Nat) : (lineWorld.pkg q).slots = [] := by
  unfold State.pkg
  cases hf : Sparse.find lineWorld.pkgs q with
  | none => rfl
  | some x =>
    have := mem_of_find hf
    simp only [lineWorld, List.mem_singleton] at this
    cases this
    rfl
/-- An open slot, a shadow line and an old line. -/
theorem witness_SlotsShadowsAndLines :
    (∃ x, slotWorld.slotAt (.hbm (hbmKey 0 0x2000)) = some x ∧ (Loc.hbm (hbmKey 0 0x2000)).word = .hbm (hbmKey 0 0x2000)
      ∧ place slotWorld (.hbm (hbmKey 0 0x2000)) = true
      ∧ ∀ y ∈ (slotWorld.pkg (slotWorld.unitSite (.hbm (hbmKey 0 0x2000))).1).slots, y.loc = .hbm (hbmKey 0 0x2000) → y = x)
    ∧ (lineWorld.pkg 0).shadows.filter (fun y => decide (y.die = 0) && decide (y.key / 64 = 128))
        = [{ die := 0, key := 0x2000, asid := 1, grid := 1, op := .max, val := 3 }]
    ∧ RedOp.max ≠ .fadd
    ∧ (lineWorld.pkg 0).early = []
    ∧ (∃ x, (lineWorld.pkg 0).dline 0 128 = some x ∧ x.own = [] ∧ x.fill + 65536 ≤ lineWorld.dieCount 0 (siteOfLoc 0)) :=
  ⟨⟨(slotWorld.pkg 0).slots.headD default, by decide⟩, by decide, by decide, by decide, ⟨((lineWorld.pkg 0).dlines.headD default), by decide⟩⟩

/-! ### Barrier objects and counters -/

/-- The group with the object at 0x2000 of its core store and n in g4. -/
def objectWorld (n : Nat) : State := withGroup (fun c => { c with g := [(2, 0x2000), (4, BitVec.ofNat 32 n)] })
/-- What every clause asks of the object. -/
theorem objectWorld_ok : ∀ n ∈ [0, 1, 65535, 2 ^ 32 - 1], let s := objectWorld n
    let c := s.ctx 10
    s.objectRef c (c.rdG 2).toNat = .ok (.store 3 0x2000) ∧ (c.rdG 2).toNat % 16 = 0 ∧ place s (.store 3 0x2000) = true ∧ noSlots s = true := by decide
/-- Each operation with its operand at the ends of its range; `MBWAIT` in both its cases; the completion test in both. -/
theorem witness_BarrierObjectsAndCounters :
    (∀ n ∈ [1, 65535], issues (objectWorld n) (.mbinit .always 2 4) [0] = true ∧ 0 < n ∧ n < 65536 ∧ ((objectWorld n).ctx 10).counter .store < 63)
    ∧ (∀ n ∈ [0, 2 ^ 32 - 1], issues (objectWorld n) (.mbexpect .always 2 4) [0] = true ∧ objFld ((objectWorld n).object (.store 3 0x2000)) 127 96 + n < 2 ^ 32)
    ∧ issues (objectWorld 0) (.mbarrive .always 2) [0] = true ∧ (objectWorld 0).Ordered ((objectWorld 0).ctx 10) [0] 2
    ∧ (∀ n ∈ [0, 1], allIssue (objectWorld n) [.mbtest .always 2 4, .mbwait .always 6 2 4] = true)
    ∧ (decide (objFld ((objectWorld 1).object (.store 3 0x2000)) 0 0 = 1) != (((objectWorld 1).ctx 10).rdG 4).getLsbD 0) = true
    ∧ (decide (objFld ((objectWorld 0).object (.store 3 0x2000)) 0 0 = 1) != (((objectWorld 0).ctx 10).rdG 4).getLsbD 0) = false
    ∧ (objFld 0 47 32 = 0 ∧ objFld 0 127 96 ≤ objFld 0 95 64)
    ∧ (objFld (2 ^ 48 - 1) 47 32 ≠ 0 ∧ 2 ^ 48 - 1 < 2 ^ 128) ∧ (objFld (2 ^ 96) 95 64 < objFld (2 ^ 96) 127 96)
    ∧ issues (world 10) (.cntrd .always 63 .copy) [0] = true
    ∧ allIssue (issued (.st .always 8 2 0 .w)) [.waitc .always .store 0, .waitc .always .store 1] = true
    ∧ (let c := (issued (.st .always 8 2 0 .w)).ctx 10
       let ids := fun (n : Nat) => (c.rq.filter (fun e => decide (e.cls = some .store) && decide (e.serial + n < Sparse.get 0 c.issued CClass.store.code))).map (·.id)
       ids 1 = [] ∧ ids 0 ≠ []) := by decide

end Sys2Proof.Tests
end

