-- ==== Sys2Proof/Tests/WitnessEngines.lean ====
section
/-! SUPPORT. For each statement with hypotheses about the matrix engine, the levels, barriers and fences, reductions and
copies, a state and operands that meet them. -/

open Sys2Proof Sys2Proof.Machine

namespace Sys2Proof.Tests

/-! ### The matrix engine -/

/-- The team with convergence register 7 as given. -/
def cvWorld (r : CvReg) : State := (world 10).modUnit 3 (fun u => { u with cvs := [(7, r)] })
/-- Lane 13, which has exited, has a store still to be performed. -/
def exitedStore : State :=
  withGroup (fun c => { c with rq := ((after (.st .always 8 2 0 .w) (world 10)).ctx 10).rq.map (fun e => { e with caps := e.caps.map (fun y => (13, y.2)) }) })
/-- `CVDECL` in its four cases, and `CVSIGN`. -/
theorem witness_Convergence :
    (let s := cvWorld { owner := 0, coll := true, decl := 3 }
     let r := (s.unit 3).cv 7
     issues s (.cvdecl .always 7 2) [0] = true ∧ r.owner = (s.ctx 10).index ∧ r.coll = true ∧ (s.ctx 10).kind ≠ .handler)
    ∧ (let s := cvWorld { owner := 1, coll := true, decl := 3 }
       let r := (s.unit 3).cv 7
       issues s (.cvdecl .always 7 2) [0] = true ∧ r.owner ≠ (s.ctx 10).index ∧ (r.coll = true ∨ s.cvGates 3 7 r = true))
    ∧ (let s := cvWorld {}
       let r := (s.unit 3).cv 7
       issues s (.cvdecl .always 7 2) [0] = true ∧ ¬ (r.owner = (s.ctx 10).index ∧ r.coll = true)
        ∧ ¬ (r.owner ≠ (s.ctx 10).index ∧ (r.coll = true ∨ s.cvGates 3 7 r = true))
        ∧ s.Ordered (s.ctx 10) (lanesOf ((s.ctx 10).rdG 2 &&& (s.ctx 10).exitedMask)) 1)
    ∧ (let s := exitedStore
       issues s (.cvdecl .always 7 2) [0] = true ∧ ¬ s.Ordered (s.ctx 10) (lanesOf ((s.ctx 10).rdG 2 &&& (s.ctx 10).exitedMask)) 1)
    ∧ issues (cvWorld { owner := 0, coll := true, decl := 3 }) (.cvsign .always 7) [0] = true
    ∧ Sparse.find (world 10).units g0.unit ≠ none ∧ (world 10).Ordered g0 [0] 1 := by decide
/-- A block of FP16 elements at position 0, arrived. -/
def block (slot : Nat) : Block := { pos := 0, slot := slot, arrived := true, entry := 0, data := List.replicate 1024 0, record := [] }
/-- A stream that holds it. -/
def stream (slot : Nat) : Stream := { fill := 1, cons := 0, blocks := [block slot] }
/-- The group with both streams filled under slot 2 and register 7 of its team as given. -/
def matWorld (r : CvReg) : State := (cvWorld r).modCtx 10 (fun c => { c with strA := stream 2, strB := stream 2 })
/-- The `MMA` of these tests. -/
def mma0 : Instr := .mma .always false false 7 2 2 7
/-- `MMA` with a register that is not declared, out of the anchor lane, and as the anchor, signed before or not. -/
theorem witness_MatrixPosts :
    (let s := matWorld {}
     issues s mma0 [0] = true ∧ ((s.unit 3).cv 7).decl = 0)
    ∧ (let s := matWorld { owner := 0, coll := true, decl := 2 }
       issues s mma0 [0] = true ∧ ((s.unit 3).cv 7).owner = (s.ctx 10).index ∧ ((s.unit 3).cv 7).decl ≠ 0 ∧ ((s.unit 3).cv 7).anchor ∉ [0])
    ∧ (∀ r ∈ [({ owner := 0, coll := true, decl := 1 } : CvReg), { owner := 0, coll := false, signed := 1, decl := 1 }],
        let s := matWorld r
        let c := s.ctx 10
        issues s mma0 [0] = true ∧ ((s.unit 3).cv 7).owner = c.index ∧ r.decl ≠ 0 ∧ r.anchor = 0 ∧ s.Ordered c [0] 1
          ∧ (r.sign (maskOf [0])).coll = false ∧ c.strA.inWindow 0 = true ∧ (c.strA.at 0).any (fun b => decide (b.slot = 2)) = true
          ∧ c.strB.inWindow 0 = true ∧ (c.strB.at 0).any (fun b => decide (b.slot = 2)) = true
          ∧ (slotOf (s.fmtOf c) 2).elem ≠ 7 ∧ (posHint true (c.lane 0).hints).isSome = false
          ∧ s.noRoom c (some .matrix) false 0 = none ∧ s.reservations c < 32)
    ∧ Sparse.find (matWorld {}).units 3 ≠ none ∧ ((matWorld {}).ctx 10).kind ≠ .handler := by decide
/-- The state after that `MMA`, and after its pass has started. -/
def posted : State := after mma0 (matWorld { owner := 0, coll := true, decl := 1 })
/-- The state after its pass has started. -/
def passing : State := okOr State.reset (execPassGrant 10 posted)
/-- A pass that is its engine's choice; one that runs. -/
theorem witness_PassesRun :
    (∃ ep, posted.readyPass (posted.ctx 10) = some ep ∧ posted.passChoice (posted.ctx 10) = some 10 ∧ Sparse.find ep.1.caps ep.1.leader ≠ none
      ∧ (∀ y ∈ (posted.ctx 10).rq, y.id = ep.1.id → y = ep.1) ∧ Sparse.find posted.ctxs 10 ≠ none)
    ∧ (∃ e p, (passing.ctx 10).rq.find? (fun e => e.pass.any (fun p => p.granted)) = some e ∧ e.ins = mma0 ∧ e.pass = some p
      ∧ (passing.unit 3).inPlace = true ∧ Sparse.find passing.ctxs 10 ≠ none) := by
  refine ⟨?_, ?_⟩
  · have h : (match posted.readyPass (posted.ctx 10) with
        | some ep => decide (posted.passChoice (posted.ctx 10) = some 10) && (Sparse.find ep.1.caps ep.1.leader).isSome && (posted.ctx 10).rq.all (fun y => decide (y.id = ep.1.id → y = ep.1))
        | none => false) = true := by decide
    split at h
    · rename_i ep e
      simp only [Bool.and_eq_true, List.all_eq_true, decide_eq_true_eq] at h
      exact ⟨ep, e, h.1.1, Option.isSome_iff_ne_none.mp h.1.2, h.2, by decide⟩
    · cases h
  · have h : (match (passing.ctx 10).rq.find? (fun e => e.pass.any (fun p => p.granted)) with
        | some e => decide (e.ins = mma0) && e.pass.isSome
        | none => false) = true := by decide
    split at h
    · rename_i e he
      simp only [Bool.and_eq_true, decide_eq_true_eq, Option.isSome_iff_exists] at h
      obtain ⟨h1, p, h2⟩ := h
      exact ⟨e, p, he, h1, h2, by decide, by decide⟩
    · cases h
/-- One theorem for both statements. -/
theorem witness_MatrixPasses : issues (matWorld {}) mma0 [0] = true ∧ runs (.passGrant 10) posted = true ∧ runs (.passComplete 10) passing = true := by
  decide

/-- A drain into core store ends where the core store does. -/
def drainWorld : State := withGroup (fun c => { c with g := [(2, 0x2000), (10, 0x80000 - 1024)] })
/-- The state after an instruction of `drainWorld`. -/
def drained (i : Instr) : State := after i drainWorld
/-- `ACCRD`, `ACCWR`, `ACCZ` in both its cases, `PROCFG`; the three drains. -/
theorem witness_AccumulatorDrains :
    allIssue drainWorld [.accrdT .always 15 7 2 1, .accrdV .always 56 7 0, .accrdC .always 10 7 0, .accwr .always 7 15, .accz .always 7, .procfg .always true] = true
    ∧ drainWorld.drains (drainWorld.ctx 10) < 16 ∧ (drainWorld.ctx 10).counter .store < 63 ∧ ((drainWorld.ctx 10).rdG 10).toNat % 64 = 0
    ∧ (match drainWorld.coreStore (drainWorld.ctx 10) ((drainWorld.ctx 10).rdG 10).toNat 1024 with | .ok _ => true | _ => false) = true
    ∧ (drainWorld.ctx 10).rq = []
    ∧ allIssue (drained (.accrdT .always 15 7 2 1)) [.accz .always 7, .accwr .always 7 15] = true
    ∧ ((drained (.accrdT .always 15 7 2 1)).ctx 10).rq ≠ []
    ∧ (∀ e ∈ ((drained (.accrdT .always 15 7 2 1)).ctx 10).rq, accOfIns e.ins = some 7)
    ∧ (∀ i ∈ [Instr.accrdT .always 15 7 2 1, .accrdV .always 56 7 0, .accrdC .always 10 7 0], let s := drained i
        let c := s.ctx 10
        (s.unit c.unit).hasStore = true ∧ noSlots s = true ∧ c.rq.length = 1
          ∧ ∀ e ∈ c.rq, c.entry e.id = some e ∧ e.kind = 8 ∧ e.ins = i ∧ (∀ f ∈ c.before e.id, f.kind = 7 → accOfIns f.ins ≠ accOfIns e.ins)
            ∧ (match i with
               | .accrdT .. => decide (e.cls = none)
               | .accrdV .. => decide (e.cls = none) && decide (e.args.length = 1)
               | _ => decide (e.cls = some .store) && decide (e.caps.length = 1)
                  && e.caps.all (fun y => decide (y.1 = e.leader) && State.mayPerform c e e.leader y.2 && onePiece s y.2 1024)) = true)
    ∧ 1 < (slotOf (drainWorld.fmtOf (drainWorld.ctx 10)) 2).perReg := by decide

/-- A fill of two blocks under a slot; the source word and the record word. -/
def fillWorld (slot src rc : Nat) : State :=
  withGroup (fun c => { c with g := [(2, 0x2000), (4, BitVec.ofNat 32 (2 ^ 29 + slot * 2 ^ 26)), (6, BitVec.ofNat 32 src), (7, BitVec.ofNat 32 rc)]
                               ttags := [(14, mkTag 0 0 false 2), (15, mkTag 4 0 false 2)] })
/-- What every clause asks of a fill of two blocks under a slot. -/
def fillOk (isB : Bool) (slot src rc : Nat) (off : Int) : Bool :=
  let s := fillWorld slot src rc
  let c := s.ctx 10
  issues s (if isB then .sfillB .always 4 6 off else .sfillA .always 4 6 off) [0] && decide (s.blocksHeld c isB + 2 ≤ 8)
    && decide ((slotOf (s.fmtOf c) slot).elem ≠ 0) && decide (wbits (c.rdG 6) 29 23 = 0)
    && decide (((c.stream isB).fill + 2 + 2 ^ 16 - (c.stream isB).cons) % 2 ^ 16 ≤ 8) && decide (wbits (c.rdG 4) 25 25 = 0)
    && decide (wbits (c.rdG 4) 31 29 + 1 = 2)
/-- A local fill's places. -/
def fillPlaces (slot src rc recLen : Nat) : Bool :=
  let s := fillWorld slot src rc
  let c := s.ctx 10
  (List.range 2).all (fun m =>
    let a := wbits (c.rdG 6) 22 0 + 1024 * m
    let r := wbits (c.rdG 7) 22 0 + recLen * m
    decide (a % 64 = 0) && (match s.fillPlace c (wbits (c.rdG 6) 31 30) a 1024 with | .ok _ => true | _ => false)
      && (decide (recLen = 0) || (decide (r % 32 = 0) && decide (wbits (c.rdG 7) 31 30 < 2) && decide (wbits (c.rdG 7) 29 23 = 0)
          && (match s.fillPlace c (wbits (c.rdG 7) 31 30) r recLen with | .ok _ => true | _ => false))))
    && (s.noRoom c (some .stream) false 0).isNone
/-- A block of a fill may arrive. -/
def blockReady (isB : Bool) (slot src rc : Nat) : Bool :=
  let i : Instr := if isB then .sfillB .always 4 6 0 else .sfillA .always 4 6 0
  let s := after i (fillWorld slot src rc)
  let c := s.ctx 10
  noSlots s && c.rq.any (fun e => decide (c.entry e.id = some e) && decide (e.ins = i) && decide (e.obj = .none)
    && c.laneClear e.id (lanesOf (e.args.headD 0))
    && e.caps.any (fun y => decide (y.1 < 32) && decide (Sparse.find e.caps y.1 = some y.2) && !y.2.done && onePiece s y.2 1024))
/-- Fills of tiles 14 and 15 under a slot without a scale and one with; fills from the core store and from the cluster
memory without a record and with one; their blocks. -/
theorem witness_StreamBlocks :
    (∀ isB ∈ [false, true], fillOk isB 2 (2 * 2 ^ 30 + 14) 0 0 = true ∧ fillOk isB 1 (2 * 2 ^ 30 + 14) 0 0 = true
      ∧ fillOk isB 2 0x1000 0 0 = true ∧ fillOk isB 1 (2 ^ 30 + 0x1000) (2 ^ 30 + 0x2000) 0 = true
      ∧ blockReady isB 2 0x1000 0 = true ∧ blockReady isB 1 (2 ^ 30 + 0x1000) (2 ^ 30 + 0x2000) = true)
    ∧ fillPlaces 2 0x1000 0 0 = true ∧ fillPlaces 1 (2 ^ 30 + 0x1000) (2 ^ 30 + 0x2000) 128 = true
    ∧ (let s := fillWorld 1 (2 * 2 ^ 30 + 14) 0
       let c := s.ctx 10
       (slotOf (s.fmtOf c) 1).run = some ⟨4, 8, 2, false⟩ ∧ (slotOf (s.fmtOf c) 1).recordBytes = 128 ∧ (slotOf (s.fmtOf c) 2).recordBytes = 0
        ∧ (∀ t ∈ [14, 15], t < 16 ∧ t < s.limit c (.t 0) ∧ c.tCurrent t ⟨4, 8, 2, false⟩ = true) ∧ c.rq = []
        ∧ wbits (c.rdG 6) 31 30 = 2 ∧ wbits (c.rdG 6) 22 4 = 0 ∧ (slotOf (s.fmtOf c) 1).elem ≠ 7) := by decide

/-! ### Levels, barriers and fences -/

/-- The sequencer of unit u with n in g2, before it has any child. -/
def launchWorld (u n : Nat) : State :=
  let c := seqOf u
  { (world (14 - u)) with units := units.filter (fun e => decide (e.1 ≤ u)), ctxs := [(14 - u, { c with g := [(2, BitVec.ofNat 32 n)] })] }
/-- `LAUNCH` at L1, L2 and L3, of no child and of as many as the level has; and of one too many, or at another level. -/
theorem witness_Launches :
    (∀ u ∈ [1, 2, 3], ∀ n ∈ [0, 2], let s := launchWorld u n
      let c := s.ctx (14 - u)
      issues s (.launch .always (4 - u) 2 3) [0] = true ∧ c.kind = .seq ∧ (s.unit c.unit).level = 4 - u ∧ Sparse.find s.units c.unit ≠ none
        ∧ (c.rdG 2).toNat ≤ 2 ^ (s.gridOf c).width (4 - u) ∧ c.evFull = false ∧ c.exiting = false ∧ s.Ordered c [0] (4 - u)
        ∧ s.childrenDone c = true ∧ s.childUnits c.unit = [] ∧ (∀ e ∈ s.ctxs, ¬ (e.2.kind = .group ∧ e.2.unit = c.unit)) ∧ noSlots s = true
        ∧ (∀ e ∈ s.units, e.1 < s.fresh) ∧ (∀ e ∈ s.ctxs, e.1 < s.fresh))
    ∧ (let s := launchWorld 1 3
       let c := s.ctx 13
       issues s (.launch .always 3 2 3) [0] = true ∧ c.kind = .seq ∧ (s.unit c.unit).level = 3 ∧ 2 ^ (s.gridOf c).width 3 < (c.rdG 2).toNat)
    ∧ issues (launchWorld 1 0) (.launch .always 2 2 3) [0] = true ∧ ¬ (((launchWorld 1 0).unit 1).level = 2)
    ∧ issues (world 10) (.launch .always 1 2 3) [0] = true ∧ g0.kind ≠ .seq ∧ g0.kind ≠ .handler := by decide
/-- The die unit's sequencer with event records. -/
def eventWorld (q : List EvRec) (resv : Nat) : State := (world 13).modCtx 13 (fun c => { c with evq := q, evResv := resv })
/-- Splits at both ends of their levels; `EVQRD` that finds a record, waits for one, and finds none. -/
theorem witness_SplitsAndEventQueues :
    (0 < 3 ∧ 0 + 1 < 3 ∧ 2 < 3 ∧ 3 ≤ 3)
    ∧ (∀ lvl ∈ [1, 3], issues (world 10) (.tsplit .always lvl 4 8) [0] = true ∧ lvl ≤ (world 10).rootLvl g0 ∧ (world 10).ctxLevel g0 < lvl)
    ∧ issues (world 12) (.tsplit .always 3 4 8) [0] = true ∧ 3 ≤ (world 12).rootLvl ((world 12).ctx 12) ∧ (world 12).ctxLevel ((world 12).ctx 12) < 3
    ∧ issues (world 10) (.tsplitX .always 4 8) [0] = true
    ∧ (let s := eventWorld [{ kind := 1, level := 3, status := 0, tag := 0, doneCount := 2, aborted := 0 }] 0
       issues s (.evqrd .always 3 8 2 false true) [0] = true ∧ (s.ctx 13).kind = .seq ∧ s.ctxLevel (s.ctx 13) = 3
        ∧ ((s.ctx 13).evq.find? (fun _ => true)).isSome = true)
    ∧ (let s := eventWorld [] 1
       issues s (.evqrd .always 3 8 2 true true) [0] = true ∧ (s.ctx 13).evq.find? (fun r => decide (r.tag = (s.ctx 13).rdG 2)) = none ∧ (s.ctx 13).evResv ≠ 0)
    ∧ (let s := eventWorld [] 0
       issues s (.evqrd .always 3 8 2 false true) [0] = true ∧ (s.ctx 13).evq.find? (fun _ => true) = none ∧ ¬ (s.ctx 13).evResv ≠ 0) := by decide
/-- The group whose one lane waits at a barrier of its own. -/
def barred : State := after (.bar .always 0) (world 10)
/-- No arrival stands at another level. -/
theorem barred_alone (n : Nat) (h : n ≠ 0) : Sparse.get 0 (barred.ctx 10).arrived n = 0 := by
  have e : (barred.ctx 10).arrived = [(0, 1)] := by decide
  rw [e]
  simp [Sparse.get, Sparse.find, h]
/-- `BAR` of a sequencer and of a group, at the ends of its levels; fences of every width; fences with a store still to be
performed. -/
theorem witness_BarriersAndFences :
    (let s := world 11
     issues s (.bar .always (s.ctxLevel (s.ctx 11))) [0] = true ∧ (s.ctx 11).kind = .seq ∧ s.childrenDone (s.ctx 11) = true)
    ∧ (∀ lvl ∈ [0, 3], issues (world 10) (.bar .always lvl) [0] = true ∧ lvl ≤ 3 ∧ lvl ≤ (world 10).rootLvl g0)
    ∧ g0.kind ≠ .seq ∧ (∀ l ∈ [0], (∀ lvl ∈ [0, 2, 3, 5], (world 10).Ordered g0 [l] lvl) ∧ g0.unperformed 10 [l] 3 = [] ∧ g0.unread 10 [l] = [])
    ∧ (Sparse.find barred.ctxs 10 ≠ none ∧ Sparse.get 0 (barred.ctx 10).arrived 0 ≠ 0
      ∧ ∀ l ∈ (barred.ctx 10).liveLanes, (Sparse.get 0 (barred.ctx 10).arrived 0).getLsbD l = true ∧ ((barred.ctx 10).lane l).wait = .bar 0)
    ∧ barred.runnable (barred.ctx 10) = true ∧ barred.exitsReleased 10 0 = true
    ∧ allIssue (world 10) [.fenceRel .always 3, .fenceAcq .always 0, .fenceAcqrel .always 3, .fenceSc .always 1, .fenceRel .always 5, .fenceSc .always 5] = true
    ∧ 3 < 4 ∧ noSlots (world 10) = true
    ∧ (let s := after (.st .always 8 2 0 .w) (world 10)
       allIssue s [.fenceRel .always 5, .fenceAcqrel .always 2, .fenceSc .always 1] = true ∧ ∀ r ∈ [s.reach (s.ctx 10) 5, s.reach (s.ctx 10) 2, 3], ∀ l ∈ [0], (s.ctx 10).unperformed 10 [l] r ≠ []) := by decide

/-! ### Reductions and copies -/

/-- `REDUCE` at each level of a group, and with a release. -/
theorem witness_ReductionsIssue :
    issues (world 10) (.reduce .always 0 3 5 .fadd false false) [0] = true ∧ (world 10).ctxLevel g0 = 0
    ∧ (∀ r ∈ [false, true], ∀ lvl ∈ [1, 2, 3, 5], issues (world 10) (.reduce .always lvl 2 5 .add true r) [0] = true ∧ 0 < lvl
        ∧ (world 10).ctxLevel g0 ≤ lvl)
    ∧ (∀ lvl ∈ [1, 2, 3, 5], (world 10).Ordered g0 [0] lvl)
    ∧ (∀ lvl ∈ [3, 5], ∀ rel ∈ [none, some lvl], let i : Instr := .reduce .always lvl 2 5 .add false rel.isSome
        takes ((world 10).beforeAccess i g0 [0] rel) (g0.begun i [0]) (some .store) .atomic false
          [{ lane := 0, va := 0x2000, len := 4, align := 4, data := [0] }] = true)
    ∧ (let i : Instr := .reduce .always 1 2 5 .add false false
       let s := (world 10).beforeAccess i g0 [0] none
       takesLocal s (g0.begun i [0]) (some .store) (fun q => s.ownStore (g0.begun i [0]) q.va q.len)
        [{ lane := 0, va := 0x2000, len := 4, align := 4, data := [0] }] = true)
    ∧ (let i : Instr := .reduce .always 2 2 5 .add false false
       let s := (world 10).beforeAccess i g0 [0] none
       takesLocal s (g0.begun i [0]) (some .store) (fun q => s.clusterMem (g0.begun i [0]) q.va q.len)
        [{ lane := 0, va := 0x2000, len := 4, align := 4, data := [0] }] = true) := by decide
/-- A sequencer with the descriptor of a copy of 8,192 bytes to or from one child, at offset 0 of both, or of 1,024 to a
group's tiles, counted into an object or not. -/
def copyWorld (k len ref : Nat) : State :=
  (world k).modCtx k (fun c => { c with g := [(12, BitVec.ofNat 32 len), (15, BitVec.ofNat 32 ref)] })
/-- What `CopiesIssue` asks. -/
def copyOk (k lvl len ref : Nat) (up rel : Bool) : Bool :=
  let s := copyWorld k len ref
  let c := s.ctx k
  let d := copyDesc lvl up ((List.range 8).map (fun j => c.rdG (8 + j)))
  issues s (if up then .mcopyUp .always lvl 8 2 rel else .mcopyDown .always lvl 8 2 rel) [0] && decide (0 < lvl) && decide (lvl ≤ s.rootLvl c)
    && decide (c.kind = .seq → lvl = s.ctxLevel c ∧ c.evFull = false) && (s.copyBad c d).isNone && decide (s.Ordered c [0] lvl)
    && decide (s.copiesQueued c < 32) && (s.noRoom c (some .copy) false 0).isNone
    && (if d.counts then (match s.objectRef c (d.ref.toNat % 2 ^ 25) with | .ok _ => true | _ => false) else true) && noSlots s
/-- Copies of sequencers and of a group, in both directions, released or not, with an object or without. -/
theorem witness_CopiesIssue :
    copyOk 13 3 8192 0 false false = true ∧ copyOk 13 3 8192 0 true true = true ∧ copyOk 12 2 16 0 false true = true
    ∧ copyOk 12 2 8192 0x2000000 true false = true ∧ copyOk 11 1 1024 0 false false = true ∧ copyOk 11 1 1024 0x2000000 true true = true
    ∧ copyOk 10 1 1024 0x2000000 false false = true ∧ copyOk 10 2 8192 0 true true = true := by decide
/-- The state after such a copy. -/
def copying (k lvl len : Nat) (up : Bool) : State :=
  after (if up then .mcopyUp .always lvl 8 2 false else .mcopyDown .always lvl 8 2 false) (copyWorld k len 0)
/-- A chunk may be written. -/
def chunkReady (s : State) (k : Nat) : Bool :=
  let c := s.ctx k
  c.rq.any (fun e => match c.chunk e.id 0 with
    | none => false
    | some (en, d, x) =>
      let cu := s.copyUnit c d
      decide (en.obj = .none) && decide (x.st = 0) && decide (x.parked = 0) && decide (x.got = []) && s.mayRelease c (min d.level 4) && c.laneClear e.id [en.leader]
        && carriesAll s 0 && decide (c.pkg = 0) && s.clockRuns c.pkg c.site
        && (match (if x.from' ≠ 0 then some (x.from' - 1) else s.childAt cu d.level x.child) with
            | some ch => s.childReady d ch && (!d.up || s.childKept d.level ch) && (if d.level = 1 then decide (ch ≠ k) && (Sparse.find s.ctxs ch).isSome else (Sparse.find s.units ch).isSome)
            | none => false)
        && (decide (3 < d.level) || (s.unit cu).hasStore) && noSlots s && (Sparse.find s.units cu).isSome
        && (if d.level = 1 then decide (d.c * 1024 + x.off + x.len ≤ 16 * 1024)
            else !(decide (d.level = 3) && decide (2 ^ 22 ≤ d.c + x.off)))
        && c.rq.all (fun y => decide (y.id = e.id → y = en)))
/-- A copy of an L5 unit to a child in another package, its chunk in some state of its reservation. -/
def farChunk (st window : Nat) : State :=
  let g : Grid := { grid with rootLvl := 5, w4 := 1, w5 := 1 }
  let s : State :=
    { pkgs := [(0, pkg), (1, {})], grids := [(1, g)]
      units := [(1, { level := 5, grid := 1, st := .running, seq := 11, created := 2, site := { mast := true } }),
                (2, { level := 4, grid := 1, parent := 2, index := 1, pkg := 1, st := .running, site := { mast := true } })]
      ctxs := [(10, { kind := .seq, grid := 1, unit := 1, asid := 1, placed := true, site := { mast := true }, lanes := [(0, lane)] })], fresh := 20 }
  let e : RqEntry := { id := 0, ins := .mcopyDown .always 5 8 2 false, word := 0, pc := 0x1000, hints := [], kind := 7, cls := some .copy, holds := [], caps := [(0, {})]
                       args := [0x2000, 0, 0x2000, 0, 4096, 1, 0, 0, 0, 0], leader := 0
                       chunks := [{ child := 1, off := 0, len := 4096, st := st, window := window }], pass := none, obj := .none, counted := 0 }
  s.modCtx 10 (fun c => { c with rq := [e], nextId := 1 })
/-- An upward copy at L1 by a group of a team without a sequencer of its own, from a group that has retired. -/
def lostChild : State :=
  let e : RqEntry := { id := 0, ins := .mcopyUp .always 1 8 2 false, word := 0, pc := 0x1000, hints := [], kind := 7, cls := some .copy, holds := [], caps := [(0, {})]
                       args := [0, 0, 0, 0, 1024, 1, 1, 0, 0, 0], leader := 0
                       chunks := [{ child := 1, off := 0, len := 1024, from' := 21 }], pass := none, obj := .none, counted := 0 }
  let s := withGroup (fun c => { c with rq := [e], nextId := 1 })
  { s with grids := [(1, { grid with seqL1 := false })], ctxs := s.ctxs ++ [(20, { group with index := 1, retired := true })] }
/-- The package with pages for its halyard, and the grid's unit 1 at a level, with a child at the level below. -/
def globalChunk (lvl : Nat) (up : Bool) : State :=
  let q : Package := { (pkg.setReg 0x3000 3) with walks := [{ die := 8, asid := 1, gen := 0, level := 1, va := 0, ppn := 3 }] }
  let e : RqEntry := { id := 0, ins := if up then .mcopyUp .always lvl 8 2 false else .mcopyDown .always lvl 8 2 false, word := 0, pc := 0x1000, hints := [], kind := 7
                       cls := some .copy, holds := [], caps := [(0, {})], args := [0x2000, 0, if lvl = 4 then 64 else 0x2000, 0, 64, 1, 0, 0, 0, 0], leader := 0
                       chunks := [{ child := 0, off := 0, len := 64 }], pass := none, obj := .none, counted := 0 }
  let s : State :=
    { pkgs := [(0, q), (1, q)], grids := [(1, { grid with rootLvl := lvl, w4 := 1, w5 := 1 })]
      units := [(1, { level := lvl, grid := 1, st := .running, seq := 11, created := 2, site := { mast := true } }),
                (2, { level := lvl - 1, grid := 1, parent := 2, pkg := lvl - 4, st := if up then .kept else .running })]
      ctxs := [(10, { kind := .seq, grid := 1, unit := 1, asid := 1, placed := true, site := { mast := true }, lanes := [(0, lane)], rq := [e], nextId := 1 })], fresh := 20 }
  [0, 1].foldl (fun (s : State) p => s.wrBytes (.hbm (hbmKey p (0x3000 + 16))) (bytesOfNat 8 0x01000000000008D7)) s
/-- Chunks of a copy at L4 and L5, in both directions. -/
theorem witness_CopyChunks_global :
    ∀ lvl ∈ [4, 5], ∀ up ∈ [false, true], let s := globalChunk lvl up
      let c := s.ctx 10
      (match c.chunk 0 0 with
      | none => false
      | some (e, d, x) =>
        let own := s.copyParty c
        let theirs : Party := { own with pkg := (s.unit 2).pkg, walker := some 8, tlbs := [] }
        let ku : AccKind := if up then .write else .read
        let kc : AccKind := if up then .read else .write
        decide (e.obj = .none ∧ x.st = 0 ∧ x.parked = 0 ∧ x.got = [] ∧ x.len = 64 ∧ d.up = up ∧ d.level = lvl) && c.laneClear e.id [e.leader] && noSlots s
        && s.childReady d 2 && (!up || s.childKept d.level 2) && s.mayRelease c 4 && decide (s.childAt (s.copyUnit c d) d.level x.child = some 2)
        && decide (s.xlate own 0x2000 ku = .ok (.hbm (hbmKey 0 0x2000)) 0)
        && (decide (lvl = 4) || (s.podMember c.pkg (s.unit 2).pkg && decide ((s.translate own 0x2000 ku).1.xlate theirs 0x2000 kc = .ok (.hbm (hbmKey 1 0x2000)) 0)))) = true := by
  decide
/-- Chunks between stores and to tiles, in both directions; a bulk chunk in each state of its reservation. -/
theorem witness_CopyChunks :
    (∀ up ∈ [false, true], chunkReady (copying 13 3 8192 up) 13 = true ∧ chunkReady (copying 12 2 16 up) 12 = true ∧ chunkReady (copying 11 1 1024 up) 11 = true)
    ∧ (∀ st ∈ [0, 1, 2], let s := farChunk st 0
      let c := s.ctx 10
      (match c.entry 0, s.bulkChunk 10 0 0 with
      | some e, some (x, b) => decide (e.chunks[0]? = some x ∧ x.st = st ∧ x.parked = 0 ∧ (∀ y ∈ c.rq, y.id = 0 → y = e) ∧ b.target = 1
          ∧ x.window ≤ s.dieCount b.src b.site ∧ (∀ y ∈ s.reserved 1, y.st = 1 → x.window ≤ y.window)
          ∧ ((s.reserved 1).filter (fun y => decide (y.st = 2))).length < 64 * (s.pkg 1).livePorts)
      | _, _ => false) = true)
    ∧ (let s := lostChild
       (match (s.ctx 10).chunk 0 0 with
       | some (e, d, x) => decide (e.obj = .none ∧ d.up = true ∧ x.from' = 21 ∧ x.st = 0 ∧ x.parked = 0 ∧ (s.ctx 10).laneClear 0 [e.leader] = true
           ∧ s.clockRuns 0 (s.ctx 10).site = true ∧ s.childReady d 20 = true ∧ s.childKept d.level 20 = false ∧ (s.unit (s.copyUnit (s.ctx 10) d)).hasStore = true)
       | none => false) = true) := by
  decide

end Sys2Proof.Tests
end

