-- ==== Sys2Proof/Tests/WitnessHandler.lean ====
section
/-! SUPPORT. For each statement with hypotheses about special registers, traps, the handler and translation instructions, a
state and operands that meet them. -/

open Sys2Proof Sys2Proof.Machine

namespace Sys2Proof.Tests

set_option maxRecDepth 100000

/-! ### Special registers, sleeps and traps -/

/-- Reads and writes of special registers, by groups and by the handler. -/
theorem witness_SpecialRegisters :
    allIssue (world 10) [.sread .always 63 false 0, .sread .always 63 true 0x15, .swrite .always 2 false 0x14, .swrite .always 2 true 0x14,
      .swrite .always 2 false 0x15, .swrite .always 2 true 0x15] = true ∧ g0.kind ≠ .handler
    ∧ allIssue (world 14) [.sread .always 63 false 0x17, .swrite .always 2 true 0x15] = true ∧ ((world 14).ctx 14).kind = .handler := by decide
/-- A group whose lane 0 sleeps until tick n, as the die counts m. -/
def sleepWorld (n m : Nat) : State :=
  (withGroup (fun c => c.modLane 0 (fun x => { x with wait := .sleep n }))).modPkg 0 (fun p => { p with count := m })
/-- `SLEEP` of the last register; a lane asleep one tick before its count, at it, and after it. -/
theorem witness_LanesSleep :
    wellFormed (.sleep .always 63) = true ∧ (encode (.sleep .always 63)).isSome = true
    ∧ allIssue (world 10) [.sleep .always 2, .sleep .always 0] = true ∧ g0.rdV 2 0 ≠ 0 ∧ g0.rdV 0 0 = 0
    ∧ (∀ m ∈ [6, 7, 8], let s := sleepWorld 7 m
        let c := s.ctx 10
        (c.lane 0).wait = .sleep 7 ∧ s.clockRuns c.pkg c.site = true ∧ s.now c = m) ∧ 6 < 7 ∧ 7 ≤ 7 ∧ 7 ≤ 8 := by decide
/-- The world with TRAPCFG EN as given. -/
def trapWorld (k en : Nat) : State := (world k).modPkg 0 (fun p => { p with regs := [(0x0C08, BitVec.ofNat 64 (en * 2 ^ 16))] })
/-- `TRAP`; a check of R98 that fails; an undefined word, for a group and for the handler; a trap with handlers and
without, and of a sequencer. -/
theorem witness_TrapsTaken :
    issues (trapWorld 10 1) (.trap .always 255) [0] = true ∧ g0.kind = .group
    ∧ bits (((trapWorld 10 1).pkg 0).reg 0x0FD8) 63 63 = 0 ∧ bits (((trapWorld 10 1).pkg 0).reg 0x0C08) 16 16 = 1
    ∧ bits (((trapWorld 10 0).pkg 0).reg 0x0FD8) 63 63 = 0 ∧ bits (((trapWorld 10 0).pkg 0).reg 0x0C08) 16 16 = 0
    ∧ (∀ k ∈ [10, 14], Sparse.find (trapWorld k 1).ctxs k ≠ none ∧ (trapWorld k 1).cohort ((trapWorld k 1).ctx k) = [0]
        ∧ [0].filter (fun l => ((trapWorld k 1).ctx k).guard (undefinedGuard 0) l) = [0])
    ∧ (trapWorld 10 1).preCheck g0 (.bar .always 6) [0] = some (2, [0], 6) ∧ [0].filter (fun l => g0.guard (guardOf (.bar .always 6)) l) = [0]
    ∧ (encode (.bar .always 6)).isSome = true
    ∧ ((trapWorld 14 1).ctx 14).kind = .handler ∧ (trapWorld 10 0).unit g0.unit ≠ {} ∧ ((trapWorld 10 0).unit g0.unit).st = .running
    ∧ ((trapWorld 11 0).ctx 11).kind = .seq ∧ ((trapWorld 11 0).unit ((trapWorld 11 0).ctx 11).unit).st = .running ∧ 5 ≠ 4 := by decide

/-! ### The handler -/

/-- The handler's turn, with the group stopped as given. -/
def served (f : Ctx → Ctx) : State := (world 14).modCtx 10 (fun c => f { c with trapped := true, inHdl := true })
/-- The handler with a second lane alive. -/
def twoLanes (w : Wait) : State := (served id).modCtx 14 (fun c => c.modLane 1 (fun x => { x with exited := false, wait := w }))
/-- `TRET` while another lane runs, after one has reached a `TRET`, and alone; the served group halted, and not. -/
theorem witness_HandlerEnds :
    allIssue (served id) [.tret .always, .tretAbort .always 2] = true ∧ ((served id).ctx 14).kind = .handler ∧ ((served id).ctx 14).firstTret = none
    ∧ (∀ l ∈ ((served id).ctx 14).liveLanes, l ∈ [0])
    ∧ issues (twoLanes .none) (.tret .always) [0] = true ∧ 1 ∈ ((twoLanes .none).ctx 14).liveLanes ∧ (((twoLanes .none).ctx 14).lane 1).wait = .none
    ∧ issues (twoLanes (.tret true 9)) (.tret .always) [0] = true ∧ ((twoLanes (.tret true 9)).ctx 14).firstTret = some (true, 9)
    ∧ Sparse.find (served id).ctxs 10 ≠ none ∧ ((served id).ctx 14).served = 10
    ∧ ((served id).ctx 10).rq = [] ∧ ((served id).ctx 10).haltPend = false ∧ ((served id).ctx 10).halted = false
    ∧ ((served id).unit 3).st = .running ∧ ((served id).unit 3).yielded = false ∧ ((served id).unit 3).forced = false
    ∧ bits (((served id).pkg 0).reg 0x0FD8) 63 63 = 0
    ∧ issues (served (fun c => { c with haltPend := true })) (.tret .always) [0] = true
    ∧ ((served (fun c => { c with haltPend := true })).ctx 10).haltPend = true
    ∧ (∀ h ∈ [false, true], let s := (served (fun c => { c with haltPend := h })).modUnit 2 (fun x => { x with st := .moving false })
       issues s (.tret .always) [0] = true ∧ s.underMove (s.ctx 10) = true ∧ (served id).underMove ((served id).ctx 10) = false) := by decide
/-- The handler's turn, with an entry of the group parked: a load from 0x5000, which nothing maps. -/
def parked : State :=
  let s := after (.ld .always 8 2 0 .w false) (withGroup (fun c => { c with v := [(64, 0x5000)] }))
  { (s.modCtx 10 (fun c => { c with trapped := true, inHdl := true })) with cur := { ctx := 14, lanes := 1, pc := 0x1000 } }
/-- The handler with region r of the group selected, o as the offset and w as the word. -/
def window (r o w : Nat) : State :=
  parked.modCtx 14 (fun c => { c with winRegion := r, g := [(2, BitVec.ofNat 32 (31 * 256 + r))], v := [(64, BitVec.ofNat 32 o), (96, BitVec.ofNat 32 w)] })
/-- The window's word at offset o of region r, read by lane 0, and one that may be written. -/
def readable (r o : Nat) : Bool :=
  let s := window r o 0
  issues s (.winrd .always 5 2) [0] && (match s.windowGroup (s.ctx 14) with
    | some (k, x) => decide (k = 10) && decide (o % 4 = 0) && (s.windowWord x (s.ctx 14).winRegion o).isSome
    | none => false)
/-- A word of region r that may be written, at offset o. -/
def writable (r o w : Nat) : Bool :=
  let s := window r o w
  issues s (.winwr .always 3 2) [0] && (match s.windowGroup (s.ctx 14) with
    | some (_, x) => (match s.windowWord x (s.ctx 14).winRegion o with
        | some (old, mask) => decide (o % 4 = 0) && winWritable (s.ctx 14).winRegion o old mask w
        | none => false)
    | none => false)
/-- A team whose image is small, whose group is trapped or runs, with a page of 2 MiB for its image; the handler's turn. -/
def saveWorld (trapped : Bool) : State :=
  let g : Grid := { grid with vregs := 8, gregs := 16, tiles := 0, accs := 0, sregs := 0, stash := 64, cstore := 0 }
  let s := { (world 14) with grids := [(1, g)] }
  (s.modCtx 10 (fun c => { c with trapped := trapped, halted := true, g := [], v := [] })).modPkg 0 (fun p =>
    { p with tlbs := [{ site := 0, asid := 1, gen := 0, va := 0, bits := 21, pte := 0x01000000000000D7 }] })
/-- `CTXSW` waits for the group with accesses in flight; the other instructions of the window; entries that are parked. -/
theorem witness_HandlerInstructions :
    (∀ r ∈ [0, 3], let s := window r 0 0
      issues s (.winsel .always 2) [0] = true ∧ wbits ((s.ctx 14).rdG 2) 31 13 = 0 ∧ wbits ((s.ctx 14).rdG 2) 7 2 = 0)
    ∧ readable 0 60 = true ∧ readable 1 103036 = true ∧ readable 2 524476 = true ∧ readable 3 0 = true
    ∧ writable 1 8 0 = true ∧ writable 1 103036 5 = true ∧ writable 2 64 0 = true ∧ writable 2 524476 7 = true
    ∧ allIssue parked [.oplrd .always 5 0 0, .oplrd .always 5 0 9, .rqrd .always 5 0, .rqinj .always 0, .rqdrop .always 2 0, .halt .always .team, .halt .always .clus, .halt .always .grid,
        .resume .always .team, .resume .always .grid] = true
    ∧ (match parked.windowGroup (parked.ctx 14) with
       | some (k, x) => decide (k = 10) && (match x.replayList[((parked.ctx 14).rdG 0).toNat]? with | some e => e.isParked | none => false)
       | none => false) = true
    ∧ Sparse.find parked.ctxs 10 ≠ none ∧ (parked.pkg (parked.ctx 10).pkg).early = [] := by decide
/-- `CTXSW` of a team that is quiet and of one that is not. -/
theorem witness_HandlerInstructions_save :
    allIssue (saveWorld true) [.ctxswSave .always 8, .ctxswRestore .always 8] = true ∧ ((saveWorld true).ctx 14).rdPairG 8 % 4096 = 0
    ∧ ((saveWorld true).windowGroup ((saveWorld true).ctx 14)).isSome = true ∧ (saveWorld true).teamQuiet 3 = true
    ∧ (let s := (saveWorld true).hinted (.ctxswSave .always 8) [0]
       s.spanFault (s.ctx 14) 0 (s.teamArea 3 (fun _ => [])).length .write = none)
    ∧ (let s := (saveWorld true).modCtx 11 (fun c => { c with kind := .group, unit := 3, index := 1 })
       issues s (.ctxswSave .always 8) [0] = true ∧ s.teamQuiet 3 = false) := by decide
/-- The same with the team's open slots released; a window of core store with no slot open. -/
theorem witness_HandlerInstructions_store :
    (let s := ((saveWorld true).hinted (.ctxswSave .always 8) [0]).releaseStore 3
     s.spanFault ((saveWorld true).ctx 14) 0 (s.teamArea 3 (fun _ => [])).length .write = none)
    ∧ noSlots (window 2 524476 0) = true ∧ (window 2 524476 0).ctx 14 ≠ {} := by decide
/-- A context area of a team with one group at 0x2000: a head of 320 bytes, a team image of 192, a group image of 1,792, a
replay block and an engine image. -/
def restoreWorld : State :=
  let g : Grid := { grid with vregs := 0, gregs := 0, tiles := 0, accs := 0, sregs := 0, stash := 0, cstore := 0 }
  let s := { (saveWorld true) with grids := [(1, g)] }
  [(0, 2 ^ 56 + 2 ^ 48), (64, 512), (320, 2 ^ 56 + 2 * 2 ^ 52 + 3), (512, 2 ^ 56 + 2 ^ 52 + 28), (2304, 2 ^ 56 + 1), (2368, 2 ^ 56 + 1)].foldl
    (fun (s : State) e => s.wrBytes (.hbm (hbmKey 0 e.1)) (bytesOfNat 8 e.2)) s
/-- `CTXSW.restore` of that area. -/
theorem witness_HandlerInstructions_restore :
    let s := restoreWorld
    let i : Instr := .ctxswRestore .always 8
    let s1 := s.hinted i [0]
    let y := (s.ctx 14).begun i [0]
    issues s i [0] = true ∧ (s.ctx 14).rdPairG 8 = 0 ∧ (s.windowGroup (s.ctx 14)).isSome = true ∧ s.teamQuiet 3 = true
      ∧ (∀ e ∈ s1.groupsOf 3, e.2.rq = []) ∧ s1.areaReach 3 y 0 = 2432
      ∧ s1.spanFault y 0 320 .read = none ∧ s1.spanFault y 0 2432 .read = none := by decide
/-- The team takes the area. -/
theorem witness_HandlerInstructions_restored :
    (match restoreWorld.restoreTeam 3 (restoreWorld.readSpan (restoreWorld.ctx 14) 0 2432).2 with | .inl _ => true | .inr _ => false) = true := by
  decide +kernel
/-- `TLBI` and `ASIDGEN` with no access in flight, and with one; all pages, and one. -/
theorem witness_TranslationInstructions :
    (let s := world 10
     allIssue s [.tlbi .always 0 2, .tlbiW .always 0 2, .tlbi .always 2 2, .asidgen .always 5] = true ∧ g0.rdPairG 2 < 2 ^ 57
      ∧ (∀ w, s.inFlightIn 0 (s.tlbAsid g0) 0x2000 0 w = []) ∧ s.translated 0 1 = [])
    ∧ (let s := after (.ld .always 8 2 0 .w false) (world 10)
       allIssue s [.tlbi .always 0 2, .tlbiW .always 2 2, .asidgen .always 5] = true ∧ (∀ w, s.inFlightIn 0 (s.tlbAsid (s.ctx 10)) 0x2000 1 w ≠ [])
        ∧ s.translated 0 1 ≠ []) := by decide

end Sys2Proof.Tests
end

