-- ==== Sys2Proof/Tests/WitnessPackage.lean ====
section
/-! SUPPORT. For each statement with hypotheses about the service registers, commands, dies and planes, debug, reset and
command queues, a state and operands that meet them. -/

open Sys2Proof Sys2Proof.Machine

namespace Sys2Proof.Tests

set_option maxRecDepth 100000

/-! ### Requests -/

/-- The machine with package 0 changed. -/
def withPkg (f : Package → Package) : State := (world 10).modPkg 0 f
/-- Package 0 owned by master m. -/
def ownedBy (m : Nat) (q : Package) : Package := (q.setFld 0x0700 7 7 0).setFld 0x0700 1 0 m
/-- Package 0 owned by master 0, with masters 1 to 3 present, and changed. -/
def owned (f : Package → Package) : State := withPkg (fun q => f ((ownedBy 0 q).setFld 0x0700 15 12 15))
/-- A requester's request is taken. -/
def hears (q : Package) (m : Nat) : Bool := q.takes m && !q.offerOver && !q.ownerGone
/-- What `hears` decides. -/
theorem hears_sound {q : Package} {m : Nat} (h : hears q m = true) : q.Hears m := by
  simp only [hears, Bool.and_eq_true, Bool.not_eq_true'] at h
  exact ⟨h.1.1, h.1.2, h.2⟩
/-- A write by a requester has a right. -/
def right (s : State) (m off : Nat) (r : Right) : Bool := hears (s.pkg 0) m && decide ((s.pkg 0).right m off = r)
/-- A write by a requester acts. -/
def may (s : State) (m off : Nat) : Bool := right s m off .acts
/-- What `may` decides. -/
theorem may_sound {s : State} {m off : Nat} (h : may s m off = true) : MayWrite s 0 m off := by
  simp only [may, right, Bool.and_eq_true, decide_eq_true_eq] at h
  exact ⟨hears_sound h.1, h.2⟩
/-- Error 0 of the boot, and a master that is not frozen. -/
def sane (q : Package) (m : Nat) : Bool := decide (bits (q.reg 0x0018) 15 8 = 0) && !q.frozen m
/-- A field of queue q set. -/
def queued (q ctl ptr : Nat) : Package → Package := fun x =>
  (x.setReg (0x2008 + 32 * q) (BitVec.ofNat 64 ctl)).setReg (0x2010 + 32 * q) (BitVec.ofNat 64 ptr)
/-- Writes by an owner, by others inside and outside their windows, with no owner, after a failed boot, and frozen. -/
theorem witness_RegisterWrites :
    (∀ m ∈ [0, 3], let q := (withPkg (ownedBy m)).pkg 0
      sane q m = true ∧ q.owns m = true)
    ∧ (∀ m ∈ [0, 3], let q := (world 10).pkg 0
      sane q m = true ∧ q.noOwner = true)
    ∧ (∀ off ∈ [0x0000, 0x27D0, 0xFFF8], let q := (owned id).pkg 0
      sane q 3 = true ∧ q.owns 3 = false ∧ q.inWindow 3 off = false)
    ∧ (∀ off ∈ [0x2010, 0x27F0], let q := (owned (fun q => q.setReg 0x0738 0x8000000000000001)).pkg 0
      sane q 3 = true ∧ q.noOwner = false ∧ q.inWindow 3 off = true)
    ∧ bits (((owned (fun q => q.setFld 0x0018 15 8 1)).pkg 0).reg 0x0018) 15 8 ≠ 0
    ∧ (∀ m ∈ [0, 3], ((owned (fun q => q.setFld 0x0710 63 0 (2 ^ 64 - 1))).pkg 0).frozen m = true)
    ∧ (∀ off ∈ [0x0000, 0xFFF8], off % 8 = 0 ∧ right (owned id) 0 off .acts = true ∧ right (owned id) 1 off .freezes = true
        ∧ right (owned id) 4 off .refused = true)
    ∧ (∀ m ∈ [0, 3], ((owned id).pkg 0).present m = true ∧ hears ((owned id).pkg 0) m = true)
    ∧ (let q := (owned (fun q => { q with reqAt := (q.count, 2) })).pkg 0
       q.takes 1 = false ∧ q.takes 2 = true ∧ q.takes 3 = true)
    ∧ (∀ off ∈ [0x0600, 0x0720, 0x0758, 0x4000, 0xBFF8], plainMask off ≠ 0)
    ∧ (∀ q ∈ [0, 63], (∀ w ∈ [16, 17, 0xFFFFFFFF], let s := owned (queued q 0 0)
          may s 0 (0x2010 + 32 * q) = true
          ∧ (w = 16 → (w + 2 ^ 32 - bits ((s.pkg 0).reg (0x2010 + 32 * q)) 63 32) % 2 ^ 32 ≤ 2 ^ (bits ((s.pkg 0).reg (0x2008 + 32 * q)) 60 57 + 4))
          ∧ (w ≠ 16 → 2 ^ (bits ((s.pkg 0).reg (0x2008 + 32 * q)) 60 57 + 4) < (w + 2 ^ 32 - bits ((s.pkg 0).reg (0x2010 + 32 * q)) 63 32) % 2 ^ 32))
        ∧ ∀ e ∈ [0, 1], let s := owned (queued q (e * 2 ^ 63) 0)
          may s 0 (0x2008 + 32 * q) = true ∧ bits ((s.pkg 0).reg (0x2008 + 32 * q)) 63 63 = e)
    ∧ (∀ n ∈ [0, 4095], may (owned id) 0 (0x4000 + 8 * n) = true) := by decide

/-- A master that is not frozen and is present. -/
def speaks (s : State) (m : Nat) : Bool := decide (m < 4) && hears (s.pkg 0) m && sane (s.pkg 0) m
/-- What `speaks` decides. -/
theorem speaks_sound {s : State} {m : Nat} (h : speaks s m = true) : Speaks s 0 m := by
  simp only [speaks, sane, Bool.and_eq_true, decide_eq_true_eq, Bool.not_eq_true'] at h
  exact ⟨h.1.1, hears_sound h.1.2, h.2.1, h.2.2⟩
/-- Each operation on ownership, for the owner, for another and with no owner; offers and absences that end; presence. -/
theorem witness_Ownership :
    (∀ m ∈ [0, 3], let s := withPkg (fun q => q.setFld 0x0700 15 12 15)
      speaks s m = true ∧ (s.pkg 0).noOwner = true)
    ∧ (∀ m ∈ [0, 3], let s := withPkg (fun q => (ownedBy m q).setFld 0x0700 15 12 7 |> fun q => if m = 3 then q.setFld 0x0700 15 12 14 else q)
      speaks s m = true ∧ (s.pkg 0).owns m = true ∧ (s.pkg 0).noOwner = false
        ∧ (∀ n ∈ [3 - m], (s.pkg 0).present n = false) ∧ (s.pkg 0).present 1 = true ∧ (s.pkg 0).frozen 1 = false)
    ∧ ((owned (fun q => q.setFld 0x0710 31 31 1)).pkg 0).frozen 1 = true
    ∧ (∀ m ∈ [1, 3], speaks (owned id) m = true ∧ ((owned id).pkg 0).owns m = false)
    ∧ (∀ m ∈ [1, 3], let s := owned (fun q => (q.setFld 0x0700 6 6 1).setFld 0x0700 5 4 m)
      speaks s m = true ∧ (s.pkg 0).noOwner = false ∧ bits ((s.pkg 0).reg 0x0700) 6 6 = 1 ∧ bits ((s.pkg 0).reg 0x0700) 5 4 = m)
    ∧ (let s := owned (fun q => { (q.setFld 0x0700 6 6 1).setFld 0x0700 5 4 1 with count := 1000000000 })
       bits ((s.pkg 0).reg 0x0700) 6 6 = 1 ∧ (s.pkg 0).offerAt + 1000000000 ≤ (s.pkg 0).count)
    ∧ (let s := withPkg (fun q => { (ownedBy 3 q) with absentSince := some 0, count := 1000000000 })
       let q := s.pkg 0
       q.noOwner = false ∧ bits (q.reg 0x0700) 1 0 ≠ 0 ∧ q.present (bits (q.reg 0x0700) 1 0) = false ∧ q.absentSince = some 0
        ∧ 0 + 1000000000 ≤ q.count)
    ∧ ((owned id).pkg 0).present 1 ≠ false ∧ ((world 10).pkg 0).present 2 ≠ true
    ∧ (∀ q ∈ [(owned id).pkg 0, (world 10).pkg 0], q.offerOver = false ∧ q.ownerGone = false)
    ∧ (let s := withPkg (fun q => q.setFld 0x0008 33 33 1)
       (s.pkg 0).present 3 ≠ true ∧ bits ((s.pkg 0).reg 0x0008) 33 33 = 1) := by decide

/-! ### Replies and commands -/

/-- A record. -/
def frec (id kind area : Nat) (written : Bool) : FRec :=
  { id := id, asid := 1, gen := 0, kind := kind, acc := 0, eng := false, src := 0, va := 0x3000, pte := 0, mast := false, loc := 0
    written := written, area := area }
/-- Context k waits for a record at a fetch. -/
def fetching (k : Nat) (r : FRec) : State :=
  (owned (fun q => { q with frecs := [r], poolUsed := [3] })).modCtx k (fun c => c.modLane 0 (fun x => { x with wait := .fetch r.id }))
/-- Replies to records that are there and that are not; a record that the ring has room for. -/
theorem witness_FaultReplies :
    (may (owned id) 0 0x0620 = true ∧ ((owned id).pkg 0).frecs = [])
    ∧ (∀ id ∈ [0, 0xFFFFFFFF], let s := fetching 10 (frec id 1 0 true)
       may s 0 0x0620 = true ∧ (s.pkg 0).frecs.find? (fun r => decide (r.id = id) && !r.answered) = some (frec id 1 0 true)
        ∧ (s.ctx 10).pkg = 0 ∧ (s.ctx 10).kind ≠ .handler ∧ (s.ctx 10).waitsOn id = true ∧ (s.unit (s.ctx 10).unit).st = .running
        ∧ ((s.ctx 10).lane 0).wait = .fetch id ∧ (10, s.ctx 10) ∈ s.ctxs ∧ Sparse.find s.ctxs 10 = some (s.ctx 10) ∧ Sparse.find s.units 3 ≠ none
        ∧ (∀ e ∈ s.ctxs, ∀ y ∈ e.2.rq, ∀ z ∈ y.caps, z.2.done = true ∨ z.2.parked ≠ id + 1))
    ∧ (let s := owned (fun q => { q with frecs := [frec 7 8 4 true], poolUsed := [3] })
       (s.pkg 0).frecs.find? (fun r => decide (r.id = 7) && !r.answered) = some (frec 7 8 4 true))
    ∧ (let s := owned (fun q => { (q.setFld 0x0608 63 63 1) with frecs := [frec 7 1 0 false] })
       (s.pkg 0).frecs.find? (fun r => !r.written) = some (frec 7 1 0 false) ∧ bits ((s.pkg 0).reg 0x0608) 63 63 = 1 ∧ (s.pkg 0).ringFull = false) := by
  decide

/-- Package 0 with a field of a register set, or clear. -/
def busyAt (off : Nat) (b : Bool) : State := owned (fun q => q.setFld off 63 63 (if b then 1 else 0))
/-- A package with an archive zone of 64 MiB from 2 MiB, and a record of a page in it. -/
def archived (n : Nat) (b : Bool) : State :=
  owned (fun q => { (q.setReg 0x0638 0x0000000400000001).setFld 0x0648 63 63 (if b then 1 else 0) with
    archive := if n = 0 then [] else [{ handle := n, len := 0, page := List.replicate 4096 0 }] })
/-- Commands to the translation and archive engines, busy and not, and their completions. -/
theorem witness_EngineCommands :
    (∀ b ∈ [false, true], may (busyAt 0x0630 b) 0 0x0630 = true ∧ bits (((busyAt 0x0630 b).pkg 0).reg 0x0630) 63 63 = if b then 1 else 0)
    ∧ (∀ op ∈ [1, 2, 3], bits (BitVec.ofNat 64 (op * 2 ^ 61)) 62 61 = op)
    ∧ (busyAt 0x0630 true).stillRunning ((busyAt 0x0630 true).pkg 0).tlbWait = []
    ∧ may (owned id) 0 0x0638 = true
    ∧ (∀ b ∈ [false, true], may (archived 0 b) 0 0x0640 = true ∧ bits (((archived 0 b).pkg 0).reg 0x0648) 63 63 = if b then 1 else 0)
    ∧ (∀ op ∈ [1, 2, 3], bits (BitVec.ofNat 64 (op * 2 ^ 62)) 63 62 = op)
    ∧ (let q := (archived 5 false).pkg 0
       q.frameOk 0 = true ∧ q.frameOk 0x200000 = false ∧ q.frameOk (0x0FFFFFFF * 4096) = false
        ∧ (q.archive.find? (fun r => decide (r.handle = 5))).isSome = true ∧ (∀ r ∈ q.archive, r.handle ≠ 6) ∧ (∀ r ∈ q.archive, r.page.length = 4096))
    ∧ noSlots (archived 5 false) = true := by decide

/-- Attestation and firmware commands, busy and not, inside local memory and beyond it, and their completions. -/
theorem witness_SecurityCommands :
    (∀ b ∈ [false, true], may (busyAt 0x0808 b) 0 0x0800 = true ∧ bits (((busyAt 0x0808 b).pkg 0).reg 0x0808) 63 63 = if b then 1 else 0)
    ∧ (∀ op ∈ [1, 2], bits (BitVec.ofNat 64 (op * 2 ^ 61)) 63 61 = op)
    ∧ bits (BitVec.ofNat 64 (2 ^ 52 - 4096)) 51 12 * 4096 ≥ 0xC000000000 ∧ bits (BitVec.ofNat 64 4096) 51 12 * 4096 < 0xC000000000
    ∧ noSlots (owned id) = true ∧ may (owned id) 0 0x1100 = true
    ∧ (∀ n ∈ [1, 2, 3], let v := BitVec.ofNat 64 (2 ^ 62 + n * 2 ^ 60)
        bits v 63 62 = 1 ∧ bits v 61 60 ≠ 0) ∧ bits (((owned id).pkg 0).reg 0x1108) 63 63 = 0
    ∧ bits (((busyAt 0x1108 true).pkg 0).reg 0x1108) 63 63 = 1 := by decide

/-! Images: the key, the modulus and the signature were made outside Lean, by RSASSA-PSS as R362 names it. -/

/-- The fused digest of a key. -/
def keyDigest : List Byte := bytesBE 64 0x48a217c292436dfb017efce59e2d561428402df6d2629dc72e00504b425b79c16768b5bc684c08d382b1ee0ea81a95d5e89ce6ba03c15de7f486855b0b13abfc
/-- A modulus of 4,096 bits. -/
def modulus : Nat := 0xd9b1f853a3664b20f8796f471c1d88340696c84f45de8b35ee3a2e24681daeb47db9faedf2390cdfc1b093ae5fb751ffbe81e4f9880b6503fbf3d9a876c5c54bcfdd21166cd134371d2d1ea30262c02ad12a24bec7af71b83dd5d8e20594fc7fc09b1ff72e6cc180d19d611e338c51300f022ca9c02325ee7ae51bcf8f05b08c019c3241cad017fb3e72e0e0dc462c82742fcd67481293b62d96883fb7d6b1bb9a1c30b789d090472546519bedd3a381653b38e45b171505da16071c29cef840980b4c3e7b11322ae43a06ab520cb9b9968332b066a6a0e351e1eba307fadeeee9b8cf34e56a52231cffa971c200bb2fdcd477d899886051e2f88e53678413d895bf0da46d7dc97f537da8021d41cad91037598bb1e3801e85ebb948b7d07710ad02df57cf9625a27b30e4a633907960eaf3f6fcdddb3a2f3a399d4c094ca36165bcfcb124804cd5cbb882613a3872159a273ad0ad6cce70cc7fe8a04a4ba2672d635d954b6b227e4607be82e98d2b7e807b71108dff8af0f69af54cd851146006aae4cc347316a4c4eb6c2daf5a6cff8610f766bc221ae8b04487bf71c0b02bf7a8d67065322fc393bc49b5967ac9e78854143e0c887e700478567cc80e108bd9d9af1f879fee84d00eeca0bee4ae0d09ea3ea754dc60e15cebd26dce7cd366e74886ddeae7738a2d09cac898280d41f7715e21b18b06129fe5da8830a96a49
/-- The signature of `image`. -/
def signature : Nat := 0x78a172799406411bb4e6a8c9783638a9acad53da175af4f87aafcbed4a26f5a536c371b25ea065598af779a6df6b79a627b334f2ca1fc7d4ee230b829f87d074c58fe4b82432b8019b9159a40bb816210a8b174109bd622187bd4f7be111850b59b9381ac4d42a8057a18f8c570678628077720a7149cc71bb54c0061fc4fdaa99ff23e97aaf173d7e35ecc51cb8976fa24b1e2d33e8df60994d59c77d4321954cc24ebdba2ac204372af0dc1d3f969fa74971db74f7c0dfab2348e1b4dc4fae8807efdb786d310173a1ede030c720afbfd1234b1ff43c606fef333590ee75d6beaee86b3a68aa62dfc728cf6be4c18359dc930692444fc90b233b15f327a71397d6c432817d96f47f25d0f615c9cccdd5218f1048a3a23e4c0673ff3c22cecb3d7362084c9960779b467dd68988ece50934e7e3f8405c968994abee5f651d780dc6f04da091af8feb5baf8c04dc253abb65bcbcaa19852cff0c3e4b8cc0592ad3c6b9b22abdf69831ef851872a9d47c114b6e6ac651e5a9566ddac4b5d26e2f7afd1ec08ca03b79cf410c2dbdfd3e98ccfca1faa18c53de8a824912fc71b2b22d6f29dea689e4f4dc61a333d8f25f6c274b956ff82e4eaf4080dd6bfbc52d2684b7d9b0eb5308b6f34b3b2098cf60abddb5f646b45f024d0453a2c6f6b7dc1c15902f8261222fa99171aa3828c01e9de5097381fdeae83fda046b45a0438ee9
/-- An image of target 1, version 5, with nothing after its header. -/
def image : List Byte := bytesOfNat 8 (2 ^ 56 + 2 ^ 48 + 5) ++ List.replicate 56 0 ++ bytesBE 512 modulus ++ List.replicate 960 0 ++ bytesBE 512 signature
/-- An image that passes, one below the fused version, and one that does not match. -/
theorem witness_images :
    fwCheck image 1 keyDigest [] = .good ∧ fwCheck image 1 keyDigest [0, 6] = .old ∧ fwCheck [] 1 [] [] = .mismatch := by decide +kernel

/-! ### Dies, planes, debug and reset -/

/-- A die that stops, one that restarts, one drained with and without another in service, and one that returns. -/
theorem witness_DiesStopAndDrain :
    (∀ d ∈ [0, 7], Sparse.find ((world 10).pkg 0).stopped d = none
      ∧ Sparse.find ((withPkg (fun q => { q with stopped := [(d, 5)], count := 9 })).pkg 0).stopped d = some 5)
    ∧ (let s := (withPkg (fun q => { q with stopped := [(0, 5)], count := 9 })).modCtx 10 (fun c => c.modLane 0 (fun x => { x with wait := .sleep 8 }))
       ((s.ctx 10).lane 0).wait = .sleep 8 ∧ (s.ctx 10).site.mast = false ∧ (s.ctx 10).site.die = 0)
    ∧ (∀ d ∈ [0, 7], let s := owned (fun q => q.setFld 0x1008 53 48 1)
       let q := s.pkg 0
       may s 0 0x1000 = true ∧ ¬ (bits (q.reg 0x1008) 63 63 = 1 ∨ bits (q.reg 0x1108) 63 63 = 1)
        ∧ ¬ (∀ i < 6, i ≠ d → bits (q.reg 0x1008) (48 + i) (48 + i) = 1))
    ∧ (let q := (owned (fun q => q.setFld 0x1008 53 48 0x3E)).pkg 0
       ∀ i < 6, i ≠ 0 → bits (q.reg 0x1008) (48 + i) (48 + i) = 1)
    ∧ bits (((busyAt 0x1008 true).pkg 0).reg 0x1008) 63 63 = 1
    ∧ (let s := owned id
       (2, s.unit 2) ∈ s.units ∧ (s.unit 2).onDie 0 0 = true ∧ (s.unit 2).st = .running ∧ s.movable (s.unit 2) = true
        ∧ s.areasFor 2 ≤ ((owned (fun q => q.setReg 0x0C10 4)).pkg 0).poolCount ∧ (s.pkg 0).shadows = [])
    ∧ (∀ d ∈ [0, 7], let q := (owned (fun q => q.setFld 0x1008 55 48 0x81)).pkg 0
       bits (q.reg 0x1008) (48 + d) (48 + d) = 1)
    ∧ bits (((owned id).pkg 0).reg 0x1008) 48 48 = 0
    ∧ (let s := owned (fun q => (q.setFld 0x1008 63 63 1).setFld 0x1008 58 56 5)
       bits ((s.pkg 0).reg 0x1008) 63 63 = 1 ∧ bits ((s.pkg 0).reg 0x1008) 58 56 = 5 ∧ s.leftOn 0 5 = 0 ∧ ∀ e ∈ (s.pkg 0).shadows, e.die ≠ 5) := by decide

/-- Planes that fail, that are dead but for the last, ports of a plane that is not yet dead and that is, maps, planes in and
out of service, and ports that retrain. -/
theorem witness_PlanesAndPorts :
    (∀ x ∈ [0, 7], ((world 10).pkg 0).planeDead x = false ∧ ((world 10).pkg 0).planeDead ((x + 1) % 8) = false)
    ∧ (let q := (withPkg (fun q => q.setFld 0x0508 46 41 0x3F)).pkg 0
       q.planeDead 0 = false ∧ q.planeDead 7 = false ∧ ∀ k < 6, q.planeDead ((0 + 1 + k) % 8) = true)
    ∧ (∀ n ∈ [0, 23], ((world 10).pkg 0).portsDown.getLsbD n = false)
    ∧ (let q := (withPkg (fun q => { q with portsDown := 0x600000 })).pkg 0
       q.portsDown.getLsbD 23 = false ∧ ∀ i < 24, i / 3 = 7 → i ≠ 23 → q.portsDown.getLsbD i = true)
    ∧ may (owned id) 0 0x0500 = true ∧ may (owned id) 0 0x1010 = true
    ∧ (let q := (owned (fun q => q.setReg 0x0500 0)).pkg 0
       ∀ i < 8, q.planeOf i ≠ 7 ∧ q.planeTo i ≠ 7) ∧ ¬ (∀ i < 8, ((owned id).pkg 0).planeOf i ≠ 7)
    ∧ (∀ i ∈ [0, 7], let s := { (withPkg (fun q => { q with switching := [(i, (7 - i, 4))] })) with cycle := 5 }
       Sparse.find (s.pkg 0).switching i = some (7 - i, 4) ∧ 4 < s.cycle ∧ 7 - i < 8)
    ∧ bits (((owned (fun q => q.setFld 0x1010 7 7 1)).pkg 0).reg 0x1010) 7 7 = 1
    ∧ (∀ n ∈ [0, 23], let q := (withPkg (fun q => { q with retrain := BitVec.ofNat 24 (2 ^ n) })).pkg 0
       q.retrain.getLsbD n = true ∧ ∀ i < n, i / 3 = n / 3 → q.retrain.getLsbD i = false) := by decide

/-- Debug commands that name the group; breakpoints of a held packet; snapshots; stopped cores. -/
theorem witness_DebugCommands :
    (∀ op ∈ [1, 2], ∀ n ∈ [0, 1, 2], let v := BitVec.ofNat 64 (op * 2 ^ 61 + n * 2 ^ 59 + 2 ^ 32)
       may (owned id) 0 0x0F00 = true ∧ bits v 63 61 = op ∧ bits v 60 59 ≠ 3
        ∧ ((owned id).resident 0 (siteOfLoc (bits v 10 0))).find? (fun e => decide (e.2.resIdx = bits v 20 16) && decide (e.2.asid = bits v 47 32))
            = some (10, (owned id).ctx 10))
    ∧ (∀ b ∈ [0, 3], may (owned id) 0 (0x0F88 + 16 * b) = true)
    ∧ Sparse.find ((owned (fun q => { q with held := [(63, { mask := 8, halt := false })] })).pkg 0).held 63 = some { mask := 8, halt := false }
    ∧ may (owned id) 0 0x0E08 = true
    ∧ (∀ die ∈ [0, 7], ∀ wd ∈ [0, 3], may (owned id) 0 (0x0D00 + 32 * die + 8 * wd) = true)
    ∧ (∀ n ∈ ((owned (fun q => { q with coreReturn := [2047] })).pkg 0).coreReturn, n < 2048)
    ∧ (owned id).coreAborting 0 2047 = false
    ∧ ((owned id).modUnit 3 (fun x => { x with st := .aborting 0x0103 })).coreAborting 0 0 = true := by decide

/-- The governor's readings at the ends of their ranges, and a heartbeat that is due. -/
theorem witness_PackageResets :
    (∀ e ∈ [(512, 4096, 0x78, false), (0, 0, 1, true), (1, 64, 0x77, true), (511, 4095, 0x78, true)],
      let (mat, vec, freq, limit) := e
      mat ≤ 512 ∧ vec ≤ 4096 ∧ 1 ≤ freq ∧ freq ≤ 0x78 ∧ (limit = true ↔ mat < 512 ∨ vec < 4096 ∨ freq < 0x78)
        ∧ (freq = 0x78 ∨ mat ≤ 1 ∧ vec ≤ 64))
    ∧ bits (((withPkg (fun q => { q with count := 1000000 })).pkg 0).reg 0x0018) 15 8 = 0
    ∧ 2600 ≤ 2600 ∧ bits (((world 10).pkg 0).reg 0x0020) 11 0 = 2600
    ∧ ((withPkg (fun q => { q with count := 1000000 })).pkg 0).heartbeatAt + 1000000 ≤ ((withPkg (fun q => { q with count := 1000000 })).pkg 0).count := by
  decide

/-! ### Queues -/

/-- Queue q, enabled under ASID 1, with one packet at 0x2000; the command processor's pages and the ASID's entry. -/
def queueWorld (q : Nat) : State :=
  (withPkg (fun x => { (queued q (2 ^ 63 + 2 ^ 40) 1 x).setReg (0x2000 + 32 * q) 0x2000 with
    walks := [{ die := 8, asid := 1, gen := 0, level := 1, va := 0, ppn := 3 }] })).wrBytes (.hbm (hbmKey 0 0x3010)) (bytesOfNat 8 0x01000000000008D7) |>.wrBytes (.hbm (hbmKey 0 16)) (bytesOfNat 8 (10 * 2 ^ 60))
/-- The same with a packet and, 256 bytes on, a launch record. -/
def packet (q : Nat) (ws rc : List Nat) : State :=
  ((queueWorld q).wrBytes (.hbm (hbmKey 0 0x2000)) (ws.flatMap (bytesOfNat 8))).wrBytes (.hbm (hbmKey 0 0x2100)) (rc.flatMap (bytesOfNat 8))
/-- A launch record of one team of one group. -/
def record : List Nat := [2 ^ 56 + 8 * 2 ^ 48 + 2 ^ 45 + 2 ^ 16, 0x1000, 0, 2 ^ 8 + 1, 0, 0xE0C065706D406800, 1, 0]
/-- A packet that passes or not, of each type, with a record that passes or not. -/
theorem witness_QueuesDispatch :
    (∀ q ∈ [0, 63], ∀ e ∈ [([2 ^ 56, 0x2100], 0, false), ([2 ^ 56, 0x2140], 0, true), ([2 * 2 ^ 56 + 4095 * 2 ^ 32 + 5], 0, false), ([3 * 2 ^ 56], 0, false),
          ([4 * 2 ^ 56], 1, false), ([2 ^ 56 + 1 * 2 ^ 45], 2, false)],
      let s := packet q e.1 record
      let p := s.pkg 0
      let bs := s.rdBytes (.hbm (hbmKey 0 0x2000)) 64
      p.queueOpen q = true ∧ noSlots s = true ∧ p.headAddr q = 0x2000
        ∧ s.xlate (s.queueParty 0 q) (p.headAddr q) .read = .ok (.hbm (hbmKey 0 0x2000)) 0 ∧ packetError bs = e.2.1
        ∧ (e.2.1 = 0 → s.nextQueue 0 = some q))
    ∧ (∀ q ∈ [0, 63], ∀ e ∈ [(0x2100, false), (0x2140, true)],
      let s := packet q [2 ^ 56, e.1] record
      let p := s.pkg 0
      let s1 := (s.translate (s.queueParty 0 q) (p.headAddr q) .read).1
      let rc := s.rdBytes (.hbm (hbmKey 0 e.1)) 64
      s1.xlate (s.queueParty 0 q) e.1 .read = .ok (.hbm (hbmKey 0 e.1)) 0 ∧ Sparse.find p.qcause q = none ∧ s.recordFails 0 rc = e.2
        ∧ Sparse.find p.held q = none ∧ p.cpMatch q (word64 rc 1) = (0, false)) := by decide
/-- A packet that a breakpoint matches, and one that is held and that no breakpoint holds any more. -/
theorem witness_QueuesDispatch_held :
    (∀ q ∈ [0, 63],
      let s := (packet q [2 ^ 56, 0x2100] record).modPkg 0 (fun x => x.setReg 0x0FB8 (BitVec.ofNat 64 (2 ^ 63 + 2 ^ 61 + 2 ^ 60 + q * 2 ^ 48)))
      let rc := s.rdBytes (.hbm (hbmKey 0 0x2100)) 64
      noSlots s = true ∧ s.nextQueue 0 = some q ∧ Sparse.find (s.pkg 0).held q = none ∧ s.recordFails 0 rc = false
        ∧ (s.pkg 0).cpMatch q (word64 rc 1) = (8, true))
    ∧ (∀ q ∈ [0, 63],
      let s := (packet q [2 ^ 56, 0x2100] record).modPkg 0 (fun x => { x with held := [(q, { mask := 0, halt := true })] })
      (s.pkg 0).queueOpen q = true ∧ (Sparse.find (s.pkg 0).held q).isSome = true ∧ Sparse.find (s.pkg 0).qcause q = none
        ∧ s.nextQueue 0 = some q) := by decide

end Sys2Proof.Tests
end

