-- ==== Sys2Proof/Tests/WitnessRegisters.lean ====
section
/-! SUPPORT. For each statement with hypotheses on an issue of a register or memory instruction, a state and operands that
meet them.  `issues`, `takes`, `takesLocal`, `ready` and `noSlots` are the statements' hypotheses in a form that
evaluates (`issues_sound`, `takes_sound`, `takesLocal_sound`, `ready_sound`, `noSlots_sound`). -/

open Sys2Proof Sys2Proof.Machine

namespace Sys2Proof.Tests

/-! ### Register instructions -/

/-- Majors 0x01 to 0x07, with the fields of `BFI` and `MOVHI` at the ends of their ranges. -/
theorem witness_IntegerAndLogic : allIssue (world 10)
    [.iadd .always 0 1 2, .isub .always 0 1 2, .imul .always 0 1 2, .imulhi .always 0 1 2, .imulhiU .always 0 1 2, .imad .always 0 1 2,
     .imin .always 0 1 2, .iminU .always 0 1 2, .imax .always 0 1 2, .imaxU .always 0 1 2, .iadds .always 0 1 2, .iaddsU .always 0 1 2,
     .isubs .always 0 1 2, .isubsU .always 0 1 2, .idot4 .always 0 1 2, .iabs .always 0 1, .ineg .always 0 1, .and .always 0 1 2,
     .or .always 0 1 2, .xor .always 0 1 2, .andn .always 0 1 2, .not .always 0 1, .shl .always 0 1 2, .shr .always 0 1 2,
     .sar .always 0 1 2, .rotl .always 0 1 2, .popc .always 0 1, .clz .always 0 1, .brev .always 0 1, .sel .always 0 1 2, .mov .always 63 63,
     .lea .always 62 62 0, .iaddImm .always 0 1 (-512), .bfx .always 0 1 31 1, .bfi .always 0 1 31 32, .bfi .always 0 1 0 1,
     .movi .always 0 (-32768), .movhi .always 0 65535] = true
    ∧ 31 < 32 ∧ 32 ≤ 32 ∧ 65535 < 65536 := by decide
/-- Majors 0x08 to 0x0A. -/
theorem witness_FloatingPoint : allIssue (world 10)
    [.fadd .always 0 1 2, .fsub .always 0 1 2, .fmul .always 0 1 2, .ffma .always 0 1 2, .fmin .always 0 1 2, .fmax .always 0 1 2,
     .fabs .always 0 1, .fneg .always 0 1, .fcpys .always 0 1 2, .fclass .always 0 1, .hfma2Bf .always 0 1 2, .hfma2H .always 0 1 2,
     .hadd2Bf .always 0 1 2, .hadd2H .always 0 1 2, .hmul2Bf .always 0 1 2, .hmul2H .always 0 1 2, .hmax2Bf .always 0 1 2,
     .hmax2H .always 0 1 2, .frcp .always 0 1, .frsq .always 0 1, .fsqrt .always 0 1, .fexp2 .always 0 1, .flog2 .always 0 1,
     .ftanh .always 0 1] = true := by decide
/-- A NaN code, codes of negative numbers at both ends of their range, a significand other than zero, a denominator. -/
theorem witness_FloatRounding : (f32 0x7F800001).isNaN = true ∧ (f32 0xFFFFFFFF).isNaN = true
    ∧ (0x80000000 < (0x80000001 : Word).toNat ∧ (0x80000001 : Word).toNat ≤ 0xFF800000)
    ∧ (0x80000000 < (0xFF800000 : Word).toNat ∧ (0xFF800000 : Word).toNat ≤ 0xFF800000) ∧ (1 : Nat) ≠ 0 ∧ 0 < 1 := by decide
/-- The same with v1's tag current: bound to s0 as it stands.  No entry holds a register (`unheld_of_nil`). -/
def tagged : State := withGroup (fun c => { c with vtags := [(1, mkTag 0 0 false 0)] })
/-- Slots of `world`: 0 is FP32, 1 is E4M3 with a scale, 3 and 5 feed errors back, 3 with a scale. -/
theorem witness_ConversionsAndTags :
    allIssue (world 10) [.cvt .always 0 1 0 0, .dqntv .always 0 1 0 0, .cvti .always 0 1 0 3, .pack .always 0 1 2 1, .unpack .always 0 1 2 1] = true
    ∧ (slotOf ((world 10).fmtOf g0) 0).scale = 0 ∧ (slotOf ((world 10).fmtOf g0) 1).scale ≠ 0
    ∧ allIssue tagged [.cvt .always 1 0 1 3, .dqntv .always 0 1 1 3] = true ∧ (tagged.ctx 10).vCurrent 1 = true
    ∧ allIssue (world 10) [.cvt .always 1 0 1 3, .cvtef .always 1 0 3 0, .dqntv .always 0 1 1 3] = true
    ∧ (slotOf ((world 10).fmtOf g0) 3).scale ≠ 0 ∧ g0.vCurrent 1 = false ∧ g0.kind ≠ .handler ∧ g0.rq = [] ∧ (tagged.ctx 10).rq = []
    ∧ (∀ w ∈ [4, 8, 16, 32], 32 / w - 1 < 32 / w) := by decide
/-- `QNTV`, and `CVTEF` with and without a scale. -/
theorem witness_QuantisesAndFeedsBack : issues (world 10) (.qntv .always 20 8 1 7) [0] = true
    ∧ issues (world 10) (.cvtef .always 1 0 5 3) [0] = true ∧ (slotOf ((world 10).fmtOf g0) 5).scale = 0
    ∧ issues tagged (.cvtef .always 1 0 3 0) [0] = true ∧ (tagged.ctx 10).vCurrent 1 = true ∧ (tagged.ctx 10).rq = [] := by decide
/-- Majors 0x14 to 0x17. -/
theorem witness_CompareAndPredicates : allIssue (world 10)
    [.icmp .always 1 2 .leU, .fcmp .always 1 2 .un, .ppush .always 0, .ppop .always, .pdup .always 7, .pnot .always 7, .pand .always 0 7,
     .por .always 0 7, .pxor .always 0 7, .pswap .always 7, .prot .always 7, .voteAny .always 7, .voteAll .always 7, .ptov .always 0 7,
     .voteBallot .always 0 7] = true ∧ 7 < 8 := by decide
/-- A push needs an issue alone. -/
theorem witness_PushesShiftPredicates : allIssue (world 10)
    [.ppush .always 0, .pdup .always 7, .pnot .always 7, .pand .always 7 7, .por .always 7 7, .pxor .always 7 7, .voteAny .always 7,
     .voteAll .always 7, .icmp .always 63 63 .geU, .fcmp .always 63 63 .un, .gcmp .always 63 63 .ge] = true := by decide
/-- Majors 0x18 and 0x19. -/
theorem witness_UniformArithmetic : allIssue (world 10)
    [.gmov .always 0 63, .gadd .always 0 1 2, .gsub .always 0 1 2, .gmul .always 0 1 2, .gand .always 0 1 2, .gor .always 0 1 2,
     .gshl .always 0 1 2, .gshr .always 0 1 2, .gread .always 63 0, .gmovi .always 0 (-32768), .gcmp .always 1 2 .ge] = true := by decide
/-- Branches, hints, exits and sleeps; an exit of a sequencer without children; a yield of a handler, of a sequencer above
L1 and of a group with no request on its core. -/
theorem witness_ControlFlow : allIssue (world 10)
    [.bra .always (-32768), .call .always 62 32767, .brx .always 2, .callx .always 4 2, .ret .always 2, .nop .always, .hntWide 1,
     .hntSched 0 true true 7 true 3, .hntMod 0 1, .exit .always, .sleep .always 2, .rgn .always 0 0xFFFF, .rgn .always 0 0, .yield .always] = true
    ∧ (isHint (.hntWide 1) && isHint (.hntSched 0 true true 7 true 3) && isHint (.hntMod 0 1)) = true ∧ g0.kind = .group
    ∧ issues (world 11) (.exit .always) [0] = true ∧ ((world 11).ctx 11).kind = .seq ∧ (world 11).childrenDone ((world 11).ctx 11) = true
    ∧ issues (world 14) (.yield .always) [0] = true ∧ ((world 14).ctx 14).kind = .handler
    ∧ issues (world 12) (.yield .always) [0] = true ∧ ((world 12).unit ((world 12).ctx 12).unit).level ≠ 1
    ∧ ((world 10).unit g0.unit).level = 1 ∧ Sparse.find ((world 10).pkg g0.pkg).preq ((world 10).unit g0.unit).site.loc = none := by decide
/-- Reads of the counter's halves by lanes and by the leader. -/
theorem witness_ReftimeNeverTears : allIssue (world 10)
    [.sread .always 0 false 0x10, .sread .always 0 true 0x10, .sread .always 0 false 0x11, .sread .always 0 true 0x11] = true := by decide

/-! ### Scale registers -/

/-- Control words of s0 to s7 in bands, as a slot whose scales are bands needs. -/
def banded : State := withGroup (fun c => { c with sctl := (List.range 8).map (fun n => (n, 0x10)) })
/-- Slot 1's run has four registers, slot 4's eight in bands; the last run of each stands at the end of the registers. -/
theorem witness_ScaleRegisters :
    issues (world 10) (.sbindT .always 15 60 1) [0] = true ∧ (slotOf ((world 10).fmtOf g0) 1).run = some ⟨4, 8, 2, false⟩
    ∧ (world 10).badRun g0 60 2 = false ∧ 60 + 2 ^ 2 ≤ 64 ∧ (∀ r ∈ runRegs 60 2, g0.sBand r = false) ∧ g0.rq = []
    ∧ issues banded (.sbindT .always 0 0 4) [0] = true ∧ (slotOf (banded.fmtOf (banded.ctx 10)) 4).run = some ⟨2, 8, 3, true⟩
    ∧ banded.badRun (banded.ctx 10) 0 3 = false ∧ (∀ r ∈ runRegs 0 3, (banded.ctx 10).sBand r = true) ∧ (banded.ctx 10).rq = []
    ∧ issues (world 10) (.sbindV .always 63 63) [0] = true ∧ (world 10).badRun g0 63 0 = false ∧ 63 < 64 ∧ g0.sBand 63 = false
    ∧ allIssue (world 10) [.sunbindT .always 15, .sunbindV .always 63, .stagrd .always 0 15 0, .stagrd .always 0 63 1, .stagrd .always 0 63 2] = true
    ∧ allIssue (world 10) [.smov .always 32 0 4, .smul .always 56 1 3 false, .smul .always 56 1 3 true, .sadd .always 0 32 4 true,
        .sadd .always 0 63 0 false, .smax .always 0 8 3 false, .smax .always 0 8 3 true] = true
    ∧ (∀ r ∈ [(32, 4), (0, 4), (56, 3), (0, 0), (63, 0), (0, 3), (8, 3)], (world 10).badRun g0 r.1 r.2 = false) := by decide

/-- The group with tags that name s5 to s8 with GEN 1, of a vector register and of tiles, and one of another register. -/
def staleTags : Ctx := { g0 with vtags := [(3, mkTag 5 1 false 0), (4, mkTag 9 1 false 0)], ttags := [(0, mkTag 5 1 false 2), (1, mkTag 4 0 false 2)] }
/-- Tags that a new GEN makes stale, and others; `SMOV` to the registers they name. -/
theorem witness_ScaleRegisters_stale :
    (∀ e ∈ staleTags.vtags, Sparse.find staleTags.vtags e.1 = some e.2) ∧ (∀ e ∈ staleTags.ttags, Sparse.find staleTags.ttags e.1 = some e.2)
    ∧ 5 < 64 ∧ 1 < 16 ∧ tagGen (staleTags.vtag 3) = 1 ∧ tagIndex (staleTags.vtag 3) = 5 ∧ tagIndex (staleTags.vtag 4) ≠ 5
    ∧ (tagIndex (staleTags.ttag 0) ≤ 8 ∧ 8 < tagIndex (staleTags.ttag 0) + 2 ^ tagLog (staleTags.ttag 0)) ∧ tagGen (staleTags.ttag 1) ≠ 1
    ∧ ((staleTags.setGen 5 1 false).vtag 3 = 0x51 && (staleTags.setGen 8 1 false).ttag 0 = staleTags.ttag 0 &&& 0x7FFF) = true
    ∧ (let s := withGroup (fun _ => staleTags)
       issues s (.smov .always 5 0 0) [0] = true ∧ (s.ctx 10).rq = [] ∧ (s.ctx 10).sGen 5 + 1 = 1
        ∧ (s.badRun (s.ctx 10) 5 0 || s.badRun (s.ctx 10) 0 0) = false) := by decide

/-! ### Rounding -/

/-- Magnitudes that a format holds, that it rounds, and that overflow it; a reciprocal that overflows and one that does not. -/
theorem witness_FloatRounding_formats :
    (∀ e ∈ [(Fmt.fp16, 65519, 1), (.fp16, 1, 3), (.e4m3, 1, 512), (.e3m5, 1, 1), (.e2m1, 1, 8), (.fp32, 1, 1)],
      e.1.range = none ∧ 0 < e.2.1 ∧ 0 < e.2.2 ∧ (roundFin e.1 false false false e.2.1 e.2.2).2 &&& fOF = 0)
    ∧ (∀ e ∈ [(Fmt.fp16, 65520, 1), (.e4m3, 465, 1), (.e3m5, 1000, 1), (.e2m1, 7, 1)],
      e.1.range = none ∧ (roundFin e.1 false false false e.2.1 e.2.2).2 &&& fOF ≠ 0)
    ∧ (match f32 0x40400000 with | .fin _ m _ => decide (m ≠ 0) | _ => false) = true ∧ (frcp 0x40400000).2 &&& fOF = 0
    ∧ (frcp 1).2 &&& fOF ≠ 0 := by decide

/-! ### Accesses issued -/

/-- What `Queues` asks of an issue: nothing ordered stands before a release, and the requests are taken. -/
def queues (s : State) (i : Instr) (rel : Option Nat) (cls : Option CClass) (acc : AccKind) (eng : Bool) (reqs : List Req) : Bool :=
  let k := s.cur.ctx
  issues s i [0] && (match rel with | none => true | some lvl => decide (s.Ordered (s.ctx k) [0] lvl)) && takes (s.beforeAccess i (s.ctx k) [0] rel) ((s.ctx k).begun i [0]) cls acc eng reqs
/-- The one request of lane 0 that an access at 0x2000 makes. -/
def at2000 (n align : Nat) (ws : List Word) (off : Int) : List Req := [{ lane := 0, va := (0x2000 + off).toNat, len := n, align := align, data := ws }]
/-- Each global access, of the group's lane 0 or of the group; offsets at both ends of their range; the last word of the page. -/
theorem witness_GlobalAccessesIssue :
    queues (world 10) (.ld .always 8 2 31 .b true) none none .read false (at2000 1 1 [] 31) = true
    ∧ queues (world 10) (.ld .always 8 2 31 .p false) none none .read false (at2000 8 8 [] 248) = true
    ∧ queues (world 10) (.ldAcq .always 8 2 5 .w false) none none .read false (at2000 4 4 [] 0) = true
    ∧ queues (world 10) (.st .always 8 2 31 .w) none (some .store) .write false (at2000 4 4 [0] 124) = true
    ∧ queues (world 10) (.stRel .always 8 2 1 .h) (some 1) (some .store) .write false (at2000 2 2 [0] 0) = true
    ∧ queues (world 10) (.stRel .always 8 2 5 .p) (some 5) (some .store) .write false (at2000 8 8 [0, 0] 0) = true
    ∧ queues (world 10) (.ldm .always 8 2 1) none none .read false (at2000 4 4 [] 0) = true
    ∧ queues (world 10) (.ldm .always 8 2 32) none none .read false (at2000 128 4 [] 0) = true
    ∧ queues (world 10) (.stm .always 8 2 32) none (some .store) .write false (at2000 128 4 (List.replicate 32 0) 0) = true
    ∧ queues (world 10) (.ldt .always 15 .global 2 3) none none .read false (at2000 1024 64 [] 3072) = true
    ∧ queues (world 10) (.stt .always 15 .global 2 3) none (some .store) .write false (at2000 1024 64 (bytesWords (g0.rdTile 15)) 3072) = true
    ∧ queues (world 10) (.atom .always 4 2 5 .fadd) (some 5) none .atomic false (at2000 4 4 [0] 0) = true
    ∧ queues (world 10) (.cas .always 4 2 0) (some 0) none .atomic false (at2000 4 4 [0, 0] 0) = true
    ∧ queues (world 10) (.gld .always 3 2 31) none none .read false (at2000 4 4 [] 124) = true
    ∧ queues (world 10) (.gst .always 3 2 31) none (some .store) .write false (at2000 4 4 [0] 124) = true
    ∧ queues (world 10) (.sld .always 63 2 31) none none .read false (at2000 40 8 [] 1240) = true
    ∧ queues (world 10) (.sst .always 63 2 31) none (some .store) .write false
        (at2000 40 8 (bytesWords (g0.sPayload 63 ++ bytesOfNat 8 (g0.sGen 63 + if g0.sBand 63 then 16 else 0))) 1240) = true := by decide
/-- What `QueuesLocal` asks. -/
def queuesLocal (s : State) (i : Instr) (cls : Option CClass) (res : State → Ctx → Req → LRes) (reqs : List Req) : Bool :=
  issues s i [0] && takesLocal s (s.ctx s.cur.ctx) cls (res s (s.ctx s.cur.ctx)) reqs
/-- One request of lane 0 at a local address. -/
def local0 (va n : Nat) (ws : List Word) : List Req := [{ lane := 0, va := va, len := n, align := min n 64, data := ws }]
/-- Accesses to the core store at 0x2000 and below, and to the cluster memory; a stash access at the end of the stash. -/
theorem witness_LocalAccessesIssue :
    let core := fun (s : State) (c : Ctx) (r : Req) => s.coreStore c r.va r.len
    let clus := fun (s : State) (c : Ctx) (r : Req) => s.clusterMem c r.va r.len
    queuesLocal (world 10) (.ldc .always 8 2 (-32) .p) none core (local0 0x1F00 8 []) = true
    ∧ queuesLocal (world 10) (.stc .always 8 2 31 .b) (some .store) core (local0 0x201F 1 [0]) = true
    ∧ queuesLocal (world 10) (.ldk .always 8 2 31 .h) none clus (local0 0x203E 2 []) = true
    ∧ queuesLocal (world 10) (.stk .always 8 2 (-32) .w) (some .store) clus (local0 0x1F80 4 [0]) = true
    ∧ queuesLocal (world 10) (.ldt .always 15 .core 2 (-8)) none core (local0 0 1024 []) = true
    ∧ queuesLocal (world 10) (.ldt .always 15 .cluster 2 31) none clus (local0 39936 1024 []) = true
    ∧ queuesLocal (world 10) (.stt .always 15 .core 2 31) (some .store) core (local0 39936 1024 (bytesWords (g0.rdTile 15))) = true
    ∧ queuesLocal (world 10) (.stt .always 15 .cluster 2 (-8)) (some .store) clus (local0 0 1024 (bytesWords (g0.rdTile 15))) = true
    ∧ (TSpace.core ≠ TSpace.global ∧ TSpace.cluster ≠ TSpace.global)
    ∧ (let s := withGroup (fun c => { c with v := [(64, 2040)] })
       let c := s.ctx 10
       allIssue s [.ldl .always 8 2 0 .p, .stl .always 8 2 0 .p] = true ∧ c.kind = .group
        ∧ ∀ l ∈ [0], 2040 % 8 = 0 ∧ ((c.rdV 2 l).toNat + wideImm 6 0 (c.lane l).hints * 8) % 2 ^ 32 = 2040 ∧ 2040 + 8 ≤ (s.gridOf c).stash) := by decide
/-- `PREF` and `CCTL`. -/
theorem witness_CacheInstructions : allIssue (world 10)
    [.pref .always true 2 (-32), .pref .always false 2 31, .cctl .always .inv 2 0, .cctl .always .invd 2 0, .cctl .always .clean 2 0] = true
    ∧ noSlots (world 10) = true := by decide

end Sys2Proof.Tests
end

