-- ==== Sys2Proof/Tests/WitnessSchedule.lean ====
section
/-! SUPPORT. For each statement with hypotheses about scheduling, traps that no instruction takes, placement, pre-emption,
moves, aborts, application cores and steps, a state and operands that meet them. -/

open Sys2Proof Sys2Proof.Machine

namespace Sys2Proof.Tests

set_option maxRecDepth 100000

/-! ### Scheduling -/

/-- The machine without a handler, with the group and a package changed, and further contexts. -/
def base (q : Package → Package) (f : Ctx → Ctx) (more : Sparse Ctx) : State :=
  ({ (world 10) with ctxs := [(10, f group), (11, seqOf 3), (12, seqOf 2), (13, seqOf 1)] ++ more }).modPkg 0 q
/-- The same with a group pending. -/
def pending (f g : Ctx → Ctx) : State := base id f [(15, g { group with index := 1, resIdx := 1, pos := none })]
/-- Lane 0 of a context waits. -/
def waiting (w : Wait) (c : Ctx) : Ctx := c.modLane 0 (fun x => { x with wait := w })
/-- A swap, a promotion, a withdrawal and a lane that wakes, at their first cycle. -/
theorem witness_SwapsAndWakes :
    (∀ w ∈ [Wait.sleep 9, .bar 1, .bar 5], let s := pending (waiting w) id
      let c := s.ctx 10
      c.kind = .group ∧ c.pos = some 0 ∧ oldestOf (s.readyPending c.pkg c.site) = some (15, s.ctx 15) ∧ s.exchangeable c = true ∧ s.ready c = false
        ∧ s.stalled c = true ∧ s.swapped c 0 = false)
    ∧ (let s := { (pending (waiting (.sleep 9)) (fun c => { c with readySince := some 0 })) with cycle := 2048 }
       let c := s.ctx 15
       s.pendingReady c = true ∧ c.readySince = some 0 ∧ 0 + 2048 ≤ s.cycle ∧ s.earliest c.pkg c.site = some (10, s.ctx 10)
        ∧ (s.ctx 10).pos = some 0 ∧ s.swapped c 0 = false)
    ∧ (let s := { (base id (fun c => { c with hold := some (.requestSlots 1, 0) }) []) with cycle := 16 }
       let c := s.ctx 10
       c.hold = some (.requestSlots 1, 0) ∧ Hold.requestSlots 1 ≠ .replayQueue ∧ c.withdrawn = false ∧ 0 + 16 ≤ s.cycle)
    ∧ (let s := base (fun q => { q with count := 9 }) (waiting (.sleep 9)) []
       let c := s.ctx 10
       (c.lane 0).wait = .sleep 9 ∧ 9 ≤ s.now c ∧ s.clockRuns c.pkg c.site = true) := by decide

/-- The machine with traps on, and tracing off. -/
def trapping (q : Package → Package) (f : Ctx → Ctx) : State := base (fun p => q (p.setFld 0x0C08 16 16 1)) f []
/-- The same with a watchdog of n. -/
def watching (n : Nat) (s : State) : State := { s with grids := [(1, { grid with hangwd := n })] }
/-- A watchdog that expires for a group and for a sequencer; breakpoints, with traps on and off; a sample that is due. -/
theorem witness_WatchdogBreakpointsSamples :
    (∀ n ∈ [1, 0xFFFFFFFF], let s := watching n (trapping id (fun c => { waiting (.bar 1) c with watch := some (0x1000, n) }))
      let c := s.ctx 10
      c.watch = some (0x1000, n) ∧ (s.gridOf c).hangwd ≠ 0 ∧ (s.gridOf c).hangwd ≤ n ∧ c.watchedAt 0x1000 ≠ [] ∧ c.trapped = false ∧ c.halted = false
        ∧ c.kind = .group ∧ bits ((s.pkg c.pkg).reg 0x0C08) 16 16 = 1 ∧ bits ((s.pkg c.pkg).reg 0x0FD8) 63 63 = 0)
    ∧ (let s := (watching 1 (base id id [])).modCtx 11 (fun c => { waiting (.bar 1) c with watch := some (0x1000, 1) })
       let c := s.ctx 11
       c.watch = some (0x1000, 1) ∧ c.watchedAt 0x1000 ≠ [] ∧ c.kind = .seq ∧ (s.unit c.unit).st = .running)
    ∧ (∀ b ∈ [0, 3], ∀ t ∈ [0, 1], let s := base (fun p => ((p.setFld 0x0C08 16 16 t).setReg (0x0F10 + 16 * b) 0x1000).setReg (0x0F18 + 16 * b) 0x8000000100000001) id []
      s.grantable 10 = true ∧ s.nextIssue 10 = some { ctx := 10, lanes := 1, pc := 0x1000 } ∧ s.bpHits (s.ctx 10) (lanesOf 1) = ([b], [0])
        ∧ (s.ctx 10).kind = .group ∧ (s.ctx 10).trapped = false ∧ (s.ctx 10).halted = false ∧ (s.ctx 10).retired = false
        ∧ (∀ e ∈ s.pkgs, bits (e.2.reg 0x0FD8) 63 63 = 0) ∧ bits ((s.pkg 0).reg 0x0C08) 16 16 = t)
    ∧ (let s := base (fun p => { ((p.setReg 0x0FD8 0x8100000100000001).setReg 0x0FE8 1) with count := 1, sampleOwed := [0] }) id []
       (∀ e ∈ s.ctxs, Sparse.find s.ctxs e.1 = some e.2) ∧ s.sampleDue 0 0 = true) := by decide

/-- The group's lane stands at a PC; the page at 0x4000 lies beyond memory, and no page is at 0x2000. -/
def standing (pc : DWord) : State :=
  (trapping (fun p => { p with tlbs := p.tlbs.filter (fun x => decide (x.va ≠ 0x2000)), walks := [{ die := 0, asid := 1, gen := 0, level := 1, va := 0, ppn := 3 }] })
    (fun c => c.modLane 0 (fun x => { x with pc := pc }))).wrBytes (.hbm (hbmKey 0 0x3020)) (bytesOfNat 8 0x300000005B)
/-- Fetches that fault, are refused and park, of a group and of a handler; a handler that starts, in a new slot and a used one. -/
theorem witness_FetchFaultsAndHandlers :
    (∀ e ∈ [(0x1002, XRes.fetchFault), (0x200000000000000, .fetchFault), (0x4000, .access), (0x2000, .park 1 0)], let s := standing (BitVec.ofNat 64 e.1)
      let c := s.ctx 10
      s.runs c = true ∧ 0 ∈ c.freeLanes ∧ c.kind = .group ∧ s.fetchAt c (c.lane 0).pc = e.2 ∧ bits ((s.pkg c.pkg).reg 0x0C08) 16 16 = 1
        ∧ bits ((s.pkg c.pkg).reg 0x0FD8) 63 63 = 0 ∧ bits ((s.pkg c.pkg).reg 0x0608) 63 63 = 0)
    ∧ (let s := (world 14).modCtx 14 (fun c => c.modLane 0 (fun x => { x with pc := 0x2000 }))
       let c := s.ctx 14
       s.runs c = true ∧ 0 ∈ c.freeLanes ∧ c.kind = .handler ∧ s.fetchAt c (c.lane 0).pc = .park 4 0 ∧ c.site.loc < 2048
        ∧ (s.resident c.pkg c.site).any (fun e => decide ((s.unit e.2.unit).st = .running)) = true)
    ∧ (∀ more ∈ [[], [(14, { handler with placed := false })]],
      let s := { (base (fun q => { q with hq := [(0, 10)] }) (fun c => { c with trapped := true }) more) with cycle := 1 }
      s.nextServed 0 0 = some 10 ∧ (s.pkg 0).coreStopped 0 = false ∧ s.clockRuns 0 (siteOfLoc 0) = true
        ∧ (match s.handlerSlot 0 (siteOfLoc 0) with | some e => !e.2.placed && e.2.rq.isEmpty && decide (e.1 ≠ 10) | none => true) = true
        ∧ Sparse.find s.ctxs 10 ≠ none) := by decide

/-! ### Placement and completion -/

/-- The machine with its units changed, a grid as given. -/
def unitsAs (g : Grid) (us : Sparse WUnit) (cs : Sparse Ctx) : State := { (world 10) with grids := [(1, g)], units := us, ctxs := cs }
/-- A unit of `units`. -/
def unitAt (u : Nat) (f : WUnit → WUnit) : WUnit := f ((Sparse.find units u).getD {})
/-- A unit and a group that wait, units that are complete, and grids that are. -/
theorem witness_PlacementAndEnds :
    (∀ b ∈ [false, true],
      let us := [(1, unitAt 1 id), (2, unitAt 2 id), (3, unitAt 3 (fun x => { x with st := .waiting, seq := 0 }))]
      let s := unitsAs { grid with seqL1 := b } us [(12, seqOf 2), (13, seqOf 1)]
      (s.placeable 3).isSome = true ∧ s.owed 2 (s.unit 3).index = false ∧ (s.unit 3).parentOf = some 2 ∧ (s.unit 3).level = 1)
    ∧ (let s := unitsAs grid [(1, unitAt 1 (fun x => { x with st := .waiting, seq := 0 }))] []
       (s.placeable 1).isSome = true ∧ (s.unit 1).parentOf = none ∧ 2 ≤ (s.unit 1).level)
    ∧ (let s := unitsAs grid units [(10, { group with placed := false, pos := none }), (11, seqOf 3), (12, seqOf 2), (13, seqOf 1)]
       s.groupPlaceable 10 = true ∧ s.owed 3 0 = false)
    ∧ (let s := unitsAs grid [(1, unitAt 1 id)] [(13, (seqOf 1).modLane 0 (fun x => { x with exited := true }))]
       s.unitDone 1 = true ∧ s.mayEnd 1 = true ∧ (s.unit 1).parent = 0 ∧ noSlots s = true)
    ∧ (∀ n ∈ [1, 2],
       let l : Launch := { tag := 0, n := n, doneCount := 0, aborted := 0, status := 0, posted := false }
       let us := [(1, unitAt 1 id), (2, unitAt 2 (fun x => { x with launch := some l })), (3, unitAt 3 (fun x => { x with seq := 0 }))]
       let s := unitsAs { grid with seqL1 := false } us [(10, { group with retired := true }), (12, seqOf 2), (13, seqOf 1)]
       s.unitDone 3 = true ∧ s.mayEnd 3 = true ∧ (s.unit 3).parent = 2 + 1 ∧ (s.unit 2).launch.isSome = true ∧ s.childUnits 3 = [] ∧ (s.unit 2).seq = 12 + 1
        ∧ (s.ctx 12).unit = 2 ∧ (s.ctx 12).exiting = false ∧ noSlots s = true)
    ∧ (∀ g ∈ [{ grid with failed := true, status := 0x104 }, { grid with rootCnt := 1, rootsDone := 1 }, { grid with rootCnt := 1, rootsDone := 1, cev := some 4095 }],
        g.parked = 0 ∧ (g.failed = true ∨ g.rootCnt ≤ g.rootsDone) ∧ g.record = 0)
    ∧ (let g : Grid := { grid with rootCnt := 1, rootsDone := 1, record := 0x2010, qasid := 1 }
       let s := ((unitsAs g [] []).modPkg 0 (fun q => { q with walks := [{ die := 8, asid := 1, gen := 0, level := 1, va := 0, ppn := 3 }] })).wrBytes
          (.hbm (hbmKey 0 0x3010)) (bytesOfNat 8 0x01000000000008D7)
       g.record ≠ 0 ∧ s.xlate (cmdParty g.pkg g.qasid) g.record .write = .ok (.hbm (hbmKey 0 0x2010)) 0 ∧ noSlots s = true) := by decide

/-! ### Pre-emption, moves and aborts -/

/-- The machine with a save pool of four areas, and a unit changed. -/
def pooled (n : Nat) (u : Nat) (f : WUnit → WUnit) (q : Package → Package) : State :=
  (base (fun p => q (p.setReg 0x0C10 (BitVec.ofNat 64 n))) id []).modUnit u f
/-- A team of a grid of priority 1 waits for the core on which the team runs, which has no room for it. -/
def wanting : State :=
  let s := pooled 4 3 id id
  { s with
    grids := s.grids ++ [(2, { grid with prio := 1, asid := 2 })]
    units := s.units ++ [(5, { (unitAt 2 id) with grid := 2, seq := 0 }), (6, { level := 1, grid := 2, parent := 6, st := .waiting, age := 5 })] }
/-- A request, a yield that is forced, a swap, a spill, a return, and a half that arrives at its barrier. -/
theorem witness_PreemptionEvents :
    ((wanting.units.any (fun e => wanting.wantsCore 0 e.1 && decide (wanting.preemptCore e.1 = some (siteOfLoc 0)))) = true
      ∧ 0 < (wanting.pkg 0).poolCount ∧ (wanting.teamsOn 0 (siteOfLoc 0)).length ≤ (wanting.pkg 0).poolFree)
    ∧ (let s := pooled 4 3 (fun x => { x with deadline := some 4 }) (fun q => { q with count := 5 })
       let x := s.unit 3
       x.deadline = some 4 ∧ x.level = 1 ∧ x.st = .running ∧ x.yielded = false ∧ x.forced = false ∧ 4 < s.dieCount x.pkg x.site
        ∧ s.clockRuns x.pkg x.site = true)
    ∧ (∀ b ∈ [false, true], (pooled 1 3 (fun x => { x with yielded := b, forced := !b }) (fun q => { q with preq := [(0, 5)] })).maySwap 0 0 = true)
    ∧ (let s := pooled 4 3 (fun x => { x with st := .swapped false }) id
       s.units.filter (fun e => decide (e.2.pkg = 0) && decide (e.2.level = 1) && decide (e.2.st = .swapped false) && decide (e.2.site = siteOfLoc 0))
          = [(3, s.unit 3)] ∧ s.unitQuiet 3 true = true)
    ∧ (let s := pooled 4 3 (fun x => { x with st := .swapped true, areas := [2] }) (fun q => { q with poolUsed := [2] })
       (s.unit 3).st = .swapped true ∧ s.firstInLine 3 = true ∧ s.siteFor 3 = some ((s.unit 3).site, false, {}) ∧ s.slotsFor 3 (s.unit 3).site = true
        ∧ (∀ e ∈ s.ctxs, Sparse.find s.ctxs e.1 = some e.2) ∧ (∀ e ∈ s.ownCtxs 3, e.2.rq = []) ∧ (s.ctx 11).rq = [])
    ∧ (let s := (pooled 4 2 (fun x => { x with split := true }) id).modCtx 10 (fun c => { c with arrived := [(2, 1)] })
       (s.unit 2).split = true ∧ (s.unit 2).halves.getLsbD 0 = false ∧ anyArrived (s.halfGroups 2 0) 2 = true ∧ s.allArrived (s.halfGroups 2 0) 2 = true) := by
  decide

/-- Units that cannot move, that leave and that come back, and units that end. -/
theorem witness_MovesAndAborts :
    (∀ b ∈ [false, true], let s := pooled 0 2 (fun x => { x with st := .moving false, drained := b }) id
     (s.unit 2).st = .moving false ∧ (s.pkg 0).poolCount < s.areasFor 2 ∧ (s.unit 2).drained = b ∧ ∀ e ∈ s.ctxs, e.2.rq = [])
    ∧ (let s := pooled 2 2 (fun x => { x with st := .moving false }) id
       (s.unit 2).st = .moving false ∧ s.areasFor 2 ≤ (s.pkg 0).poolFree ∧ s.areasFor 2 ≤ (s.pkg 0).poolCount ∧ s.moveReady 2 = true ∧ noSlots s = true)
    ∧ (let s := (pooled 4 2 (fun x => { x with st := .moving true, site := { mast := true } }) id).modUnit 3 (fun x => { x with st := .moving true, site := { mast := true } })
       let x := s.unit 2
       x.st = .moving true ∧ s.carried x = false ∧ s.firstInLine 2 = true ∧ (s.siteFor 2).isSome = true ∧ x.level ≠ 1
        ∧ (∀ e ∈ s.ctxs, Sparse.find s.ctxs e.1 = some e.2) ∧ (∀ e ∈ s.ownCtxs 2, e.2.rq = []) ∧ (s.ctx 12).rq = [])
    ∧ (∀ n ∈ [1, 0x0105], let s := pooled 4 3 (fun x => { x with st := .aborting n }) id
       (s.unit 3).st = .aborting n ∧ n ≠ 0 ∧ s.mayAbort 3 = true ∧ bits ((s.pkg 0).reg 0x0608) 63 63 = 0)
    ∧ (let s := unitsAs grid [(1, unitAt 1 (fun x => { x with st := .aborting 2 }))] [(13, seqOf 1)]
       s.mayAbort 1 = true ∧ (s.unit 1).parent = 0 ∧ Sparse.find s.grids (s.unit 1).grid ≠ none) := by decide

/-! ### Application cores, and steps -/

/-- A page table for ASID 65,535 whose every level is the page at 0x3000: 0x2000 is a page of data, and 0x4000 the window of the
service registers. -/
def appWorld : State :=
  [(16 * 65535, 10 * 2 ^ 60 + 3), (0x3000, 0xC01), (0x3010, 0x08C7), (0x3020, 2 * 2 ^ 61 + 0xF000000 * 2 ^ 10 + 0xC7)].foldl
    (fun (s : State) e => s.wrBytes (.hbm (hbmKey 0 e.1)) (bytesOfNat 8 e.2)) (world 10)
/-- Hart 15 holds a reservation of the line of 0x2FC0. -/
def reserved : State := appWorld.modHart 0 15 (fun h => { h with resv := some (hbmKey 0 0x2FC0 / 64) })
/-- Accesses of a hart to data, to the window, by master 0 frozen and not, and to nothing; with the line of the access reserved,
another line, and none. -/
theorem witness_ApplicationCores :
    let pv := AppPriv.super false
    (15 < 16 ∧ 65535 < 65536 ∧ bits ((appWorld.pkg 0).reg 0x0018) 15 8 = 0 ∧ noSlots appWorld = true ∧ noSlots reserved = true)
    ∧ (∀ s ∈ [appWorld, reserved], ∀ k ∈ [AccKind.read, .write, .atomic], s.appPlace 0 pv 65535 0x2FF8 k = .mem (.hbm (hbmKey 0 0x2FF8))
        ∧ s.travels 0 mastSite [(.hbm (hbmKey 0 0x2FF8), 8)] = true ∧ 0x2FF8 % 4096 + 8 ≤ 4096)
    ∧ appWorld.appSpan 0 pv 65535 0x2FF8 8 .read = .ok [(.hbm (hbmKey 0 0x2FF8), 8)]
    ∧ (∀ k ∈ [AccKind.read, .write], appWorld.appSpan 0 .user 65535 0x2FF8 8 k = .error .pageFault ∧ appWorld.appSpan 0 pv 65535 0x6000 8 k = .error .pageFault
        ∧ appWorld.appPlace 0 .user 65535 0x2FF8 k = .bad .pageFault)
    ∧ (∀ k ∈ [AccKind.read, .write], appWorld.appPlace 0 pv 65535 0x4708 k = .window 0x708 ∧ 0x708 % 8 = 0)
    ∧ ((appWorld.pkg 0).frozen 0 = false ∧ (appWorld.pkg 0).takes 0 = true)
    ∧ (let s := appWorld.modPkg 0 (fun q => q.setReg 0x0710 0x8000)
       (s.pkg 0).frozen 0 = true ∧ s.appPlace 0 pv 65535 0x4708 .write = .window 0x708)
    ∧ (0x2FF4 % 8 ≠ 0 ∧ 0x2FFA % 4 ≠ 0)
    ∧ ((reserved.hart 0 15).resv = some (hbmKey 0 0x2FF8 / 64) ∧ (appWorld.hart 0 15).resv ≠ some (hbmKey 0 0x2FF8 / 64))
    ∧ (∀ op ∈ [AtomOp.exch, .add, .xor, .and, .or, .min, .max, .minU, .maxU], (appAtomic op 8 5 7).isSome = true) := by decide

/-- The machine with `NOP` at the entry, and its sequencers asleep. -/
def atNop : State :=
  ([11, 12, 13].foldl (fun (s : State) k => s.modCtx k (waiting (.sleep 100))) (base id id [])).wrBytes (.hbm (hbmKey 0 0x1000)) (bytesOfNat 4 ((encode (.nop .always)).getD 0))
/-- An issue with nothing else to happen, and one on the agenda. -/
theorem witness_StepRunsDecoded :
    (atNop.grantable 10 = true ∧ atNop.nextIssue 10 = some { ctx := 10, lanes := 1, pc := 0x1000 } ∧ (atNop.bpHits (atNop.ctx 10) [0]).1 = []
      ∧ atNop.fetchAt (atNop.ctx 10) 0x1000 = .ok (.hbm (hbmKey 0 0x1000)) 0
      ∧ decodeWord (natOfBytes (atNop.homeRead (.hbm (hbmKey 0 0x1000)) 4).2) = .nop .always
      ∧ atNop.freshGrant (atNop.ctx 10) = true ∧ atNop.missesNow 10 (.nop .always) { ctx := 10, lanes := 1, pc := 0x1000 } = false)
    ∧ (let i : Instr := .imad .always 0 16 33
       let s := atNop.wrBytes (.hbm (hbmKey 0 0x1000)) (bytesOfNat 4 ((encode i).getD 0))
       let iss : Issue := { ctx := 10, lanes := 1, pc := 0x1000 }
       s.grantable 10 = true ∧ s.nextIssue 10 = some iss ∧ decodeWord (natOfBytes (s.homeRead (.hbm (hbmKey 0 0x1000)) 4).2) = i
        ∧ s.freshGrant (s.ctx 10) = true ∧ s.missesNow 10 i iss = true)
    ∧ atNop.agenda = [] ∧ firstEvent atNop.dueEvents atNop = none ∧ firstEvent atNop.ownEvents atNop = none
    ∧ noSlots atNop = true ∧ Sparse.find atNop.ctxs 10 ≠ none ∧ Sparse.find atNop.pkgs 0 ≠ none := by decide

/-- Instructions at the ends of their operands' ranges are well-formed and have words. -/
theorem witness_DecodeOfEncode :
    ∀ i ∈ [Instr.iadd .always 0 63 63, .bra (.pred true 3) (-32768), .nop .always, .bfi .always 63 63 31 32], wellFormed i = true ∧ (encode i).isSome = true := by
  decide

/-- The state after reset has its memories in canonical form and steps; so does one whose memories hold bytes. -/
theorem witness_MemoryStaysCanonical :
    ∀ s ∈ [State.reset, atNop], Memory.wf s.hbm = true ∧ Memory.wf s.host = true ∧ (match step s with | .next _ => true | _ => false) = true := by decide

end Sys2Proof.Tests
end

