-- ==== Sys2Proof/Tests/WitnessUnits.lean ====
section
/-! SUPPORT. For each statement with hypotheses about the combine unit, collectives, special registers, traps and the
handler, a state and operands that meet them. -/

open Sys2Proof Sys2Proof.Machine

namespace Sys2Proof.Tests

set_option maxRecDepth 100000

/-! ### The combine unit -/

/-- A descriptor for experts 0 and 15, a row of 64 bytes at offset 0, staging from 64, a deadline of t ticks, batch 255. -/
def cmbWorld (t : Nat) (f : Package → Package) : State :=
  (withGroup (fun c => { c with g := [(2, 0x2000), (8, 0), (9, 64), (10, 0x800100FF), (11, BitVec.ofNat 32 t), (13, 15)] })).modPkg 0 f
/-- The state after `CMBOPEN` of the descriptor into g20. -/
def opened (t : Nat) : State := after (.cmbopen .always 20 8) (cmbWorld t id)
/-- Slot 0 of a state. -/
def slot0 (s : State) : CmbSlot := (s.pkg 0).cmb 0
/-- The state after `CMBPUT` of expert 15's row, from the core store at 0x2000. -/
def putting (s : State) : State := after (.cmbput .always 20 13 2) s
/-- Slot 0 in a state of its own. -/
def slotAs (f : CmbSlot → CmbSlot) : State := (opened 5).modCmb 0 0 f
/-- `CMBOPEN` of a sound descriptor with a slot free and without one, and of a bad one; a handle at the ends of its fields. -/
theorem witness_CombineUnit_opens :
    (let h : Handle := { pkg := 1023, die := 7, slot := 4095, gen := 127 }
     h.pkg < 1024 ∧ h.die < 8 ∧ h.slot < 4096 ∧ h.gen < 128)
    ∧ issues (world 10) (.cmbopen .always 20 8) [0] = true ∧ (world 10).cmbDesc g0 8 = .inl (0x10, 0) ∧ g0.kind ≠ .handler
    ∧ (let s := cmbWorld 5 id
       let c := s.ctx 10
       issues s (.cmbopen .always 20 8) [0] = true ∧ s.cmbDesc c 8 = .inr 1
        ∧ (∀ k ∈ (s.cmbQueue 10 c 1).toList, (s.ctx k).evFull = false) ∧ (s.pkg 0).cmbFree 0 = some 0 ∧ (s.pkg 0).batchRoom 0 1 255 = true)
    ∧ (let s := cmbWorld 5 (fun p => { p with batches := (List.range 256).map (fun i => (i, 1)) })
       issues s (.cmbopen .always 20 8) [0] = true ∧ s.cmbDesc (s.ctx 10) 8 = .inr 1 ∧ (s.pkg 0).batchRoom 0 1 255 = false) := by decide
/-- `CMBPUT`, and the waits and closes on slots that are gone, open and released. -/
theorem witness_CombineUnit_waits :
    (let s := opened 5
       let c := s.ctx 10
       let h := handleOf (c.rdG 20)
       allIssue s [.cmbput .always 20 13 2, .cmbwait .always 21 20, .cmbwaitBatch .always 21 20, .cmbclose .always 20, .cmbcloseDrop .always 20,
          .cmbstat .always 22 20 0, .cmbstat .always 22 20 2] = true ∧ (c.rdG 13).toNat < 16 ∧ s.ctxLevel c < 3
        ∧ wbits (c.rdG 2) 22 0 % 64 = 0 ∧ wbits (c.rdG 2) 31 30 < 2 ∧ wbits (c.rdG 2) 29 23 = 0
        ∧ s.fillPlace c 0 0x2000 64 = .ok (.store 3 0x2000) ∧ max 64 (s.cmbSlot h).width = 64 ∧ s.podMember c.pkg h.pkg = true
        ∧ (s.pkg h.pkg).dieUp h.die = true ∧ s.noRoom c (some .copy) false 0 = none
        ∧ c.site.mast = false ∧ h.pkg = c.pkg ∧ h.die = c.site.die ∧ (s.cmbSlot h).current h c.asid = true ∧ (s.cmbSlot h).st = .opened
        ∧ (s.pkg 0).batchIdle 0 1 (wbits (c.rdG 20) 7 0) = true)
    ∧ ((slotAs (fun x => { x with st := .released })).cmbSlot (handleOf ((opened 5).ctx 10 |>.rdG 20))).st = .released
    ∧ ((slotAs (fun x => { x with gen := 9 })).cmbSlot (handleOf ((opened 5).ctx 10 |>.rdG 20))).current (handleOf ((opened 5).ctx 10 |>.rdG 20)) 1 = false
    ∧ (let s := slotAs (fun x => { x with batch := 1 })
       issues s (.cmbwaitBatch .always 21 20) [0] = true ∧ (s.pkg 0).batchIdle 0 1 (wbits ((s.ctx 10).rdG 20) 7 0) = false) := by decide
/-- Arrivals in each case, and the releases. -/
theorem witness_CombineUnit_releases :
    (∀ s ∈ [putting (opened 5), putting (slotAs (fun x => { x with exp := 1 })), putting (slotAs (fun x => { x with gen := 9 }))],
        noSlots s = true ∧ carriesAll s 0 = true ∧ (s.ctx 10).rq.any (fun e => decide ((s.ctx 10).entry e.id = some e) && decide (e.ins = .cmbput .always 20 13 2)
          && (s.ctx 10).laneClear e.id (lanesOf (e.args.getD 3 0)) && s.putTravels (s.ctx 10) (handleOf (e.args.getD 0 0)) ((Sparse.find e.caps e.leader).getD {}).segs && e.caps.any (fun y => decide (Sparse.find e.caps e.leader = some y.2) && !y.2.pages.isEmpty)
          && decide ((e.args.getD 1 0).toNat = 15)) = true)
    ∧ ((slot0 (opened 5)).exp.getLsbD 15 = true ∧ (slot0 (opened 5)).arr.getLsbD 15 = false ∧ (slot0 (opened 5)).deadline = some 5
        ∧ (opened 5).dieCount 0 { die := 0 } ≤ 5 ∧ Sparse.find (opened 5).units (slot0 (opened 5)).unit ≠ none)
    ∧ (slot0 (slotAs (fun x => { x with exp := 1 }))).exp.getLsbD 15 = false
    ∧ (let s := (opened 5).modPkg 0 (fun p => { p with count := 6 })
       (slot0 s).st = .opened ∧ s.clockRuns 0 { die := 0 } = true ∧ (slot0 s).deadline = some 5 ∧ 5 < s.dieCount 0 { die := 0 })
    ∧ (∀ drop ∈ [false, true], let s := (slotAs (fun x => { x with st := .due, drop := drop })).modPkg 0 (fun p => { p with count := 6 })
       (slot0 s).deadline.getD 0 < s.dieCount 0 { die := 0 } ∧ (s.pkg 0).cmbFirst 0 0 .due = true ∧ (slot0 s).drop = drop ∧ noSlots s = true ∧ Sparse.find s.units (slot0 s).unit ≠ none)
    ∧ (let s := slotAs (fun x => { x with st := .formed })
       (s.pkg 0).cmbFirst 0 0 .formed = true ∧ (slot0 s).resv = 14 ∧ Sparse.find s.ctxs 13 ≠ none ∧ (s.ctx 13).exiting = false)
    ∧ (slot0 (slotAs (fun x => { x with st := .formed, resv := 0 }))).resv = 0 := by decide

/-! ### Layouts and collectives -/

/-- A tensor of one dimension, 16 words, over n members of an axis of dies, at an address. -/
def lay (base n : Nat) : Layout :=
  { rank := 1, naxes := 1, elsz := 2, lvl1 := false, base := base, ext := [16], axes := [n], sh := [(0, 0, 1)], stride := 0, first := 0 }
/-- The descriptor of `lay 0x2000 1`. -/
def layBits : Nat := 2 ^ 56 + 2 * 2 ^ 50 + 0x2000 * 2 ^ 64 + 16 * 2 ^ 128 + 2 ^ 256
/-- The package with a page table for ASID 1 that maps 0x2000, a staging size, and layouts 0 and 1 of grid 1. -/
def collPkg : Package :=
  { pkg with walks := [{ die := 8, asid := 1, gen := 0, level := 1, va := 0, ppn := 3 }]
             layouts := [{ grid := 1, ix := 0, gen := 0, lay := lay 0x2000 1 }, { grid := 1, ix := 1, gen := 0, lay := lay 0x2400 1 }] }
/-- The group with a collective's descriptor in g8, in a package as given. -/
def collWorld (f : Package → Package) : State :=
  (((withGroup (fun c => { c with g := [(2, 0x2000), (8, 0x10000)] })).modPkg 0 (fun _ => f collPkg)).wrBytes (.hbm (hbmKey 0 (0x3000 + 16)))
    (bytesOfNat 8 0x01000000000008D7)).wrBytes (.hbm (hbmKey 0 24)) [1]
/-- The state after `COLL` of a copy. -/
def collected : State := after (.coll .always 10 8 .copy) (collWorld id)
/-- The state after `LAYDEF` of the descriptor at 0x2000. -/
def defining (f : Package → Package) : State :=
  after (.laydef .always 12 2) ((collWorld f).wrBytes (.hbm (hbmKey 0 0x2000)) (bytesOfNat 64 layBits))
/-- `COLL` and `LAYDEF` issue, with room and without; a descriptor is read, with room and without; tickets of each kind. -/
theorem witness_CollectivesAndLayouts :
    (let s := collWorld id
     let c := s.ctx 10
     issues s (.coll .always 10 8 .copy) [0] = true ∧ (s.collDesc c .copy 8).isSome = true ∧ CollOp.copy ≠ .sumAccum ∧ c.kind ≠ .seq
      ∧ s.noRoom c (some .coll) false 0 = none ∧ (s.pkg 0).collFree = some 0)
    ∧ ((collWorld (fun p => { p with coll := (List.range 256).map (fun i => (i, { used := true })) })).pkg 0).collFree = none
    ∧ issues (world 10) (.coll .always 10 8 .copy) [0] = true ∧ (world 10).collDesc g0 .copy 8 = none ∧ g0.kind ≠ .handler
    ∧ issues (collWorld id) (.laydef .always 12 2) [0] = true
    ∧ takes ((collWorld id).beforeAccess (.laydef .always 12 2) ((collWorld id).ctx 10) [0] none) (((collWorld id).ctx 10).begun (.laydef .always 12 2) [0])
        none .read false [{ lane := 0, va := 0x2000, len := 64, align := 64 }] = true
    ∧ (∀ s ∈ [defining id, defining (fun p => { p with layouts := (List.range 256).map (fun i => { grid := 1, ix := i, gen := 0, lay := lay 0 1 }) })],
        noSlots s = true ∧ linesWhole s = true ∧ (s.ctx 10).kind ≠ .handler
          ∧ someReady s 10 (fun _ e x => decide (e.kind = 0) && decide (e.ins = .laydef .always 12 2) && decide (e.args.length = 1) && onePiece s x 64
              && (match x.segs with
                  | [(o, _)] => keepsLines s (s.ctx 10) o 64 && let y := natOfBytes (s.seen (s.ctx 10) x.nc o 64)
                    decide (y = layBits) && !layoutIllegal y && !(layoutOf y).axesBad && !s.membersBad 0 (layoutOf y)
                  | _ => false)) = true)
    ∧ (List.range 256).find? (fun i => !(((defining id).pkg 0).layouts.filter (fun e => decide (e.grid = 1))).any (fun e => decide (e.ix = i))) = some 2
    ∧ allIssue collected [.collq .always 11 10, .collwait .always 11 10] = true
    ∧ (let x := (collected.pkg 0).collAt (wbits ((collected.ctx 10).rdG 10) 31 24)
       x.gen = wbits ((collected.ctx 10).rdG 10) 23 16 ∧ x.used = true ∧ x.doneFlag = false)
    ∧ ((collWorld id).pkg 0).collAt 0 = {} := by decide
/-- A member's entry of a collective between two dies. -/
def member (n : Nat) (op : CollOp) (y : CollEnt → CollEnt) : CollEnt :=
  y { gen := 1, used := true, op := op, grid := 1, asid := 1, ctx := 99, seq := 1, member := n, src := lay 0x2000 2, dst := lay 0x2400 2 }
/-- A package in which both members have issued. -/
def collStarted (op0 op1 : CollOp) (y : CollEnt → CollEnt) : State := collWorld (fun p => { p with coll := [(0, member 0 op0 y), (1, member 1 op1 id)] })
/-- A sum's chunk that is to be staged, and a collective with a package that is not of the pod. -/
theorem witness_CollectivesRun_staged :
    (let s := collStarted .sum .sum (fun y => { y with started := true, exch := 1, data := List.replicate 128 0 })
       let x := (s.pkg 0).collAt 0
       x.used = true ∧ x.status = 0 ∧ x.started = true ∧ x.chunkCount = 1 ∧ 0 ∉ x.chunks ∧ (∀ e ∈ x.parkedCh, e.1 ≠ 0) ∧ (∀ e ∈ x.got, e.1 ≠ 0) ∧ x.op = .sum
        ∧ s.mayTravel x (s.sender x 0) 0 = true ∧ s.collReachable x = true ∧ s.collCarried x = true ∧ carriesAll s 0 = true ∧ roomy s = true ∧ x.dst.elsz ≤ 2
        ∧ noSlots s = true ∧ s.toStage 0 0 x = true ∧ 0 < (s.stagingRoom 0 x.asid).2 ∧ 0 ∉ s.stagingUsed 0 x.asid)
    ∧ (let x := member 0 .copy (fun y => { y with src := { y.src with lvl1 := true, first := 1023 } })
       let s := collWorld (fun p => { p with coll := [(0, x)] })
       (s.pkg 0).collAt 0 = x ∧ x.used = true ∧ x.started = false ∧ x.status = 0 ∧ s.collReachable x = false) := by decide
/-- Members that agree and that do not; a chunk; a collective that is done, for a group and for a sequencer, or failed. -/
theorem witness_CollectivesRun :
    (let s := collStarted .copy .copy id
     let x := (s.pkg 0).collAt 0
     x.used = true ∧ x.started = false ∧ x.status = 0 ∧ s.collEarlierDone 0 x = true
      ∧ s.collReachable x = true ∧ s.collCarried x = true
      ∧ (match s.collPeers 0 x with
         | some l => (match (s.collSources l).2 with | .ok _ => true | _ => false) && l.all (fun e => decide (e.2.2.status = 0) && e.2.2.agrees x && e.2.2.parkedCh.isEmpty
              && (Sparse.find s.ctxs e.2.2.ctx).isNone)
         | none => false) = true)
    ∧ (let s := collStarted .copy .permute id
       let x := (s.pkg 0).collAt 0
       (match s.collPeers 0 x with
        | some l => l.any (fun e => !e.2.2.agrees x) && l.all (fun e => e.2.2.parkedCh.isEmpty && (Sparse.find s.ctxs e.2.2.ctx).isNone)
        | none => false) = true ∧ s.collReachable x = true ∧ s.collCarried x = true ∧ x.used = true ∧ x.started = false ∧ x.status = 0 ∧ s.collEarlierDone 0 x = true)
    ∧ (let s := collStarted .copy .copy (fun y => { y with started := true, data := List.replicate 128 0 })
       let x := (s.pkg 0).collAt 0
       x.used = true ∧ x.status = 0 ∧ x.started = true ∧ x.chunkCount = 1 ∧ 0 ∉ x.chunks ∧ (∀ e ∈ x.parkedCh, e.1 ≠ 0) ∧ (∀ e ∈ x.got, e.1 ≠ 0) ∧ x.exch = 0 ∧ x.op = .copy
        ∧ s.mayTravel x (s.sender x 0) 0 = true ∧ s.collReachable x = true ∧ s.collCarried x = true ∧ carriesAll s 0 = true ∧ x.dst.elsz ≤ 2
        ∧ noSlots s = true ∧ x.dst.addr x.member + 0 * collChunk + (x.chunkElems 0).2 * x.dst.esz ≤ 2 ^ 57 ∧ 0 < (x.chunkElems 0).2 * x.dst.esz
        ∧ pagesOf (x.dst.addr x.member + 0 * collChunk) ((x.chunkElems 0).2 * x.dst.esz) = [x.dst.addr x.member + 0 * collChunk]
        ∧ s.xlate (halyard 0 x.asid) (x.dst.addr x.member + 0 * collChunk) .write = .ok (.hbm (hbmKey 0 0x2400)) 0)
    ∧ (∀ k ∈ [10, 13], let s := collStarted .copy .copy (fun y => { y with started := true, chunks := [0], ctx := k })
       let x := (s.pkg 0).collAt 0
       x.used = true ∧ x.status = 0 ∧ x.started = true ∧ x.chunkCount ≤ x.chunks.length ∧ Sparse.find s.ctxs x.ctx ≠ none ∧ noSlots s = true
        ∧ (s.ctx k).exiting = false)
    ∧ (let x := ((collStarted .copy .copy (fun y => { y with status := 8, ctx := 10 })).pkg 0).collAt 0
       x.used = true ∧ x.status ≠ 0) := by decide

end Sys2Proof.Tests
end

section
/-! SUPPORT. The push of R59: what the predicates of each lane are after an instruction that pushes. -/

namespace Sys2Proof.Machine

/-! ### One lane -/

/-- R59: a predicate register after a push. -/
def shiftIn (p : BitVec 8) (v : Bool) : BitVec 8 := (p <<< 1) ||| (if v then 1#8 else 0#8)

theorem shiftIn_zero (p : BitVec 8) (v : Bool) : (shiftIn p v).getLsbD 0 = v := by
  cases v <;> simp [shiftIn]
theorem shiftIn_deeper (p : BitVec 8) (v : Bool) {k : Nat} (h1 : 1 ≤ k) (h7 : k ≤ 7) :
    (shiftIn p v).getLsbD k = p.getLsbD (k - 1) := by
  have h0 : k ≠ 0 := by omega
  have h8 : k < 8 := by omega
  cases v <;> simp [shiftIn, h0, h8, BitVec.getLsbD_eq_getElem (show k - 1 < 8 by omega)]

/-- A push in each of some lanes changes the predicates of those lanes, each once. -/
theorem foldl_push_lane (act : List Nat) (hn : act.Nodup) (c : Ctx) (v : Nat → Bool) (l : Nat) :
    (act.foldl (fun c' m => c'.push m (v m)) c).lane l =
      if l ∈ act then { c.lane l with pred := shiftIn (c.lane l).pred (v l) } else c.lane l :=
  Ctx.lane_modLanes act hn c (fun m x => { x with pred := shiftIn x.pred (v m) }) l

theorem depart_pred (s : State) (i : Instr) (coh : List Nat) (hn : coh.Nodup) (c : Ctx) (l : Nat) :
    ((s.depart i coh c).lane l).pred = (c.lane l).pred := by
  rw [depart_lane s i coh hn]; split <;> rfl

/-! ### Instructions that push -/

/-- Instruction i pushes v in its acting lanes: a value of the context before it, its acting lanes and the lane. -/
def Pushes (i : Instr) (v : Ctx → List Nat → Nat → Bool) : Prop :=
  ∀ s c act, Issues s i c act → ∃ c', Completes i s c'
    ∧ (∀ l ∈ act, c'.pred l 0 = v c act l ∧ ∀ k, 1 ≤ k → k ≤ 7 → c'.pred l k = c.pred l (k - 1))
    ∧ ∀ l, l ∉ act → (c'.lane l).pred = (c.lane l).pred

theorem Pushes.of_eq {i : Instr} {v w : Ctx → List Nat → Nat → Bool} (h : Pushes i v) (e : ∀ c act l, v c act l = w c act l) :
    Pushes i w := by
  have : v = w := by funext c act l; exact e c act l
  exact this ▸ h

/-- An instruction whose effect is a push in each acting lane. -/
theorem pushes_of_gate (i : Instr) (v : Ctx → List Nat → Nat → Bool) (body : State → Ctx → List Nat → Eff)
    (he : ∀ s, exec i s = gate i s body)
    (hb : ∀ s c act, Issues s i c act → body (s.hinted i act) (c.begun i act) act = .ok ((s.hinted i act).modCtx s.cur.ctx
      (fun c' => act.foldl (fun c' l => c'.push l (v c act l)) c'))) :
    Pushes i v := by
  intro s c act h
  refine ⟨_, completes_of_gate h body (he s) _ (hb s c act h), fun l hl => ?_, fun l hl => ?_⟩
  · simp only [Ctx.pred, depart_pred _ _ _ (cohort_nodup s c), foldl_push_lane act h.nodup, if_pos hl, begun_lane]
    exact ⟨shiftIn_zero _ _, fun k h1 h7 => shiftIn_deeper _ _ h1 h7⟩
  · rw [depart_pred _ _ _ (cohort_nodup s c), foldl_push_lane act h.nodup, if_neg hl, begun_lane]

/-- Each acting lane pushes a value of its own. -/
theorem pushLanes_pushes (i : Instr) (f : Ctx → Nat → Bool) (he : ∀ s, exec i s = pushLanes i s f)
    (hf : ∀ c act l, f (c.begun i act) l = f c l) : Pushes i (fun c _ l => f c l) :=
  pushes_of_gate i _ _ he (fun s c act _ => by simp only [State.hinted_cur, hf])

/-- The acting lanes push one value, which they decide together. -/
theorem pushAll_pushes (i : Instr) (r : Ctx → List Nat → Bool)
    (he : ∀ s, exec i s = gate i s (fun s c act => .ok (s.modCtx s.cur.ctx (fun c' => c'.pushAll act (r c act)))))
    (hr : ∀ c act, r (c.begun i act) act = r c act) : Pushes i (fun c act _ => r c act) :=
  pushes_of_gate i _ _ he (fun s c act _ => by simp only [State.hinted_cur, hr, Ctx.pushAll])

/-! ### The pushing instructions of majors 0x14 to 0x19 -/

theorem icmp_pushes (g : Guard) (a b : Nat) (cc : ICond) :
    Pushes (.icmp g a b cc) (fun c _ l => icond cc (c.rdV a l) (c.rdV b l)) :=
  pushLanes_pushes _ _ (fun _ => rfl) (fun _ _ _ => by simp only [begun_rdV])
theorem fcmp_pushes (g : Guard) (a b : Nat) (cc : FCond) :
    Pushes (.fcmp g a b cc) (fun c _ l => fcond cc (f32 (c.rdV a l)) (f32 (c.rdV b l))) :=
  pushLanes_pushes _ _ (fun _ => rfl) (fun _ _ _ => by simp only [begun_rdV])
theorem ppush_pushes (g : Guard) (a : Nat) : Pushes (.ppush g a) (fun c _ l => c.rdV a l != 0) :=
  pushLanes_pushes _ _ (fun _ => rfl) (fun _ _ _ => by simp only [begun_rdV])
theorem pdup_pushes (g : Guard) (n : Nat) : Pushes (.pdup g n) (fun c _ l => c.pred l n) :=
  pushLanes_pushes _ _ (fun _ => rfl) (fun _ _ _ => by simp only [begun_pred])
theorem pnot_pushes (g : Guard) (n : Nat) : Pushes (.pnot g n) (fun c _ l => !c.pred l n) :=
  pushLanes_pushes _ (fun c l => !c.pred l n) (fun _ => rfl) (fun _ _ _ => by simp only [begun_pred])
theorem pand_pushes (g : Guard) (n m : Nat) : Pushes (.pand g n m) (fun c _ l => c.pred l n && c.pred l m) :=
  pushLanes_pushes _ (fun c l => c.pred l n && c.pred l m) (fun _ => rfl) (fun _ _ _ => by simp only [begun_pred])
theorem por_pushes (g : Guard) (n m : Nat) : Pushes (.por g n m) (fun c _ l => c.pred l n || c.pred l m) :=
  pushLanes_pushes _ (fun c l => c.pred l n || c.pred l m) (fun _ => rfl) (fun _ _ _ => by simp only [begun_pred])
theorem pxor_pushes (g : Guard) (n m : Nat) : Pushes (.pxor g n m) (fun c _ l => c.pred l n != c.pred l m) :=
  pushLanes_pushes _ (fun c l => c.pred l n != c.pred l m) (fun _ => rfl) (fun _ _ _ => by simp only [begun_pred])
theorem voteAny_pushes (g : Guard) (n : Nat) : Pushes (.voteAny g n) (fun c act _ => act.any (fun m => c.pred m n)) :=
  pushAll_pushes _ (fun c act => act.any (fun m => c.pred m n)) (fun _ => rfl) (fun _ _ => by simp only [begun_pred])
theorem voteAll_pushes (g : Guard) (n : Nat) : Pushes (.voteAll g n) (fun c act _ => act.all (fun m => c.pred m n)) :=
  pushAll_pushes _ (fun c act => act.all (fun m => c.pred m n)) (fun _ => rfl) (fun _ _ => by simp only [begun_pred])
theorem gcmp_pushes (g : Guard) (a b : Nat) (cc : GCond) :
    Pushes (.gcmp g a b cc) (fun c _ _ => gcond cc (c.rdG a) (c.rdG b)) :=
  pushAll_pushes _ (fun c _ => gcond cc (c.rdG a) (c.rdG b)) (fun _ => rfl) (fun _ _ => by simp only [begun_rdG])

/-! ### The statement -/

/-- Settles O58: each instruction has the shape of a push in its acting lanes; the conditions of the compares are those of
R144 and R146. -/
theorem pushesShiftPredicates : Obligations.PushesShiftPredicates := by
  unfold Obligations.PushesShiftPredicates
  refine ⟨fun g a => ?ppush, pdup_pushes, pnot_pushes, pand_pushes, por_pushes, pxor_pushes, voteAny_pushes, voteAll_pushes,
    fun g a b cc => ?icmp, fcmp_pushes, fun g a b cc => ?gcmp⟩
  case ppush => exact (ppush_pushes g a).of_eq (fun _ _ _ => Bool.eq_iff_iff.2 (by simp))
  case icmp => exact (icmp_pushes g a b cc).of_eq (fun _ _ _ => Bool.eq_iff_iff.2 (by cases cc <;> simp [icond]))
  case gcmp => exact (gcmp_pushes g a b cc).of_eq (fun _ _ _ => Bool.eq_iff_iff.2 (by cases cc <;> simp [gcond]))

end Sys2Proof.Machine
end

section
/-! SUPPORT. Reads of special registers (R75, R150): what the destination and the latch of each lane hold after `SREAD`. -/

namespace Sys2Proof.Machine

/-! ### The count and the latch -/

theorem halfWord_toNat (x : Nat) (hi : Bool) : (halfWord x hi).toNat = (if hi then x / 2 ^ 32 else x) % 2 ^ 32 :=
  BitVec.toNat_ofNat _ _

theorem special_reftimeLo (s : State) (c : Ctx) (l : Nat) : s.special c 0x10 l = halfWord (s.now c) false := by
  by_cases hk : c.kind = .handler
  · exact if_pos hk
  · exact if_neg hk
theorem special_reftimeHi (s : State) (c : Ctx) (l : Nat) : s.special c 0x11 l = (c.lane l).refHi := by
  by_cases hk : c.kind = .handler
  · exact if_pos hk
  · exact if_neg hk

/-- Noting the hints of an issue changes no special register. -/
theorem special_hinted (s : State) (i : Instr) (c : Ctx) (act : List Nat) (n : Nat) :
    (s.hinted i act).special (c.begun i act) n = s.special c n := by
  unfold State.hinted Ctx.begun; split <;> rfl
theorem now_hinted (s : State) (i : Instr) (c : Ctx) (act : List Nat) : (s.hinted i act).now (c.begun i act) = s.now c := by
  unfold State.hinted Ctx.begun; split <;> rfl

theorem latch_v (c : Ctx) (n now l : Nat) : (c.latch n now l).v = c.v := by unfold Ctx.latch; split <;> rfl
theorem latch_g (c : Ctx) (n now l : Nat) : (c.latch n now l).g = c.g := by unfold Ctx.latch; split <;> rfl
theorem latch_refHi (c : Ctx) (n now l m : Nat) : ((c.latch n now l).lane m).refHi =
    if n = 0x10 ∧ m = l then halfWord now true else (c.lane m).refHi := by
  unfold Ctx.latch
  by_cases hn : n = 0x10
  · by_cases hm : m = l <;> simp [hn, hm, Ctx.lane_modLane]
  · simp [hn]

theorem depart_refHi (s : State) (i : Instr) (coh : List Nat) (hn : coh.Nodup) (c : Ctx) (l : Nat) :
    ((s.depart i coh c).lane l).refHi = (c.lane l).refHi := by
  rw [depart_lane s i coh hn]; split <;> rfl
theorem depart_rdV (s : State) (i : Instr) (coh : List Nat) (c : Ctx) (n l : Nat) :
    (s.depart i coh c).rdV n l = c.rdV n l := by unfold Ctx.rdV; rw [depart_v]
theorem depart_rdG (s : State) (i : Instr) (coh : List Nat) (c : Ctx) (n : Nat) :
    (s.depart i coh c).rdG n = c.rdG n := by unfold Ctx.rdG; rw [depart_g]

/-! ### The two forms of SREAD -/

/-- R150, one lane of the vector form: lane l's v_d takes its value x of special register n, read at count `now`. -/
def Ctx.sreadLane (d n now : Nat) (x : Nat → Word) (c : Ctx) (l : Nat) : Ctx := (c.wrV d l (x l)).latch n now l

/-- R150, the uniform form: g_d takes the value x that leader lane l reads in special register n at count `now`. -/
def Ctx.sreadLeader (c : Ctx) (d n now : Nat) (x : Word) (l : Nat) : Ctx := (c.wrG d x).latch n now l

theorem sreadLeader_rdG (c : Ctx) (d n now : Nat) (x : Word) (l : Nat) : (c.sreadLeader d n now x l).rdG d = x := by
  have : (c.sreadLeader d n now x l).rdG d = (c.wrG d x).rdG d := by
    unfold Ctx.sreadLeader Ctx.rdG; rw [latch_g]
  rw [this, Ctx.rdG_wrG, if_pos rfl]
theorem sreadLeader_refHi (c : Ctx) (d n now : Nat) (x : Word) (l m : Nat) :
    ((c.sreadLeader d n now x l).lane m).refHi = if n = 0x10 ∧ m = l then halfWord now true else (c.lane m).refHi :=
  latch_refHi (c.wrG d x) n now l m

theorem sreadLane_rdV (d n now : Nat) (x : Nat → Word) (c : Ctx) (l : Nat) (hl : l < 32) (m k : Nat) (hk : k < 32) :
    (c.sreadLane d n now x l).rdV m k = if m = d ∧ k = l then x l else c.rdV m k := by
  have : (c.sreadLane d n now x l).rdV m k = (c.wrV d l (x l)).rdV m k := by
    unfold Ctx.sreadLane Ctx.rdV; rw [latch_v]
  rw [this, Ctx.rdV_wrV _ _ _ _ _ _ hl hk]
theorem sreadLanes_rdV (d n now : Nat) (x : Nat → Word) (act : List Nat) (hlt : ∀ l ∈ act, l < 32) (c : Ctx) {l : Nat} (hl : l ∈ act) :
    (act.foldl (Ctx.sreadLane d n now x) c).rdV d l = x l := by
  rw [foldl_rdV act hlt c _ [d] (fun k _ => x k)
    (fun c m hm i k hk => by rw [sreadLane_rdV _ _ _ _ _ _ hm _ _ hk]; simp only [List.mem_singleton]) d l (hlt l hl)]
  simp [hl]
theorem sreadLanes_refHi (d n now : Nat) (x : Nat → Word) (act : List Nat) (c : Ctx) (l : Nat) :
    ((act.foldl (Ctx.sreadLane d n now x) c).lane l).refHi =
      if n = 0x10 ∧ l ∈ act then halfWord now true else (c.lane l).refHi := by
  induction act generalizing c with
  | nil => simp
  | cons m r ih =>
    have hm : ((c.sreadLane d n now x m).lane l).refHi = if n = 0x10 ∧ l = m then halfWord now true else (c.lane l).refHi :=
      latch_refHi _ n now m l
    rw [List.foldl_cons, ih, hm]
    by_cases hn : n = 0x10
    · by_cases hr : l ∈ r <;> simp [hn, hr]
    · simp [hn]

theorem exec_sread_lanes (g : Guard) (d n : Nat) (s : State) :
    exec (.sread g d false n) s = gate (.sread g d false n) s (fun s c act =>
      .ok (s.modCtx s.cur.ctx (fun c' => act.foldl (Ctx.sreadLane d n (s.now c) (s.special c n)) c'))) := rfl
theorem exec_sread_leader (g : Guard) (d n : Nat) (s : State) :
    exec (.sread g d true n) s = oncePerIssue (.sread g d true n) s (fun s c l _ =>
      .ok (s.modCtx s.cur.ctx (fun c' => c'.sreadLeader d n (s.now c) (s.special c n l) l))) := rfl

/-- The vector form: each acting lane reads its own value, and latches where it reads %reftime.lo. -/
theorem sread_lanes {g : Guard} {d n : Nat} {s : State} {c : Ctx} {act : List Nat} (h : Issues s (.sread g d false n) c act) :
    ∃ c', Completes (.sread g d false n) s c' ∧ (∀ l ∈ act, c'.rdV d l = s.special c n l)
      ∧ ∀ l, (c'.lane l).refHi = if n = 0x10 ∧ l ∈ act then halfWord (s.now c) true else (c.lane l).refHi := by
  refine ⟨_, completes_of_gate h _ (exec_sread_lanes g d n s) (fun c' => act.foldl (Ctx.sreadLane d n (s.now c) (s.special c n)) c') ?_, ?_, ?_⟩
  · simp only [State.hinted_cur, special_hinted, now_hinted]
  · intro l hl
    rw [depart_rdV, sreadLanes_rdV d n _ _ act (fun l hl => h.lt hl) _ hl]
  · intro l
    rw [depart_refHi _ _ _ (cohort_nodup s c), sreadLanes_refHi, begun_lane]

/-- The uniform form: g_d takes the leader lane's value, and the leader lane latches where it reads %reftime.lo. -/
theorem sread_leader {g : Guard} {d n : Nat} {s : State} {c : Ctx} {act : List Nat} (h : Issues s (.sread g d true n) c act) :
    ∃ c', Completes (.sread g d true n) s c' ∧ c'.rdG d = s.special c n (act.headD 0)
      ∧ ∀ l, (c'.lane l).refHi = if n = 0x10 ∧ l = act.headD 0 then halfWord (s.now c) true else (c.lane l).refHi := by
  refine ⟨_, completes_of_once h _ (exec_sread_leader g d n s)
    (fun c' => c'.sreadLeader d n (s.now c) (s.special c n (act.headD 0)) (act.headD 0)) ?_, ?_, ?_⟩
  · simp only [State.hinted_cur, special_hinted, now_hinted]
  · rw [depart_rdG, sreadLeader_rdG]
  · intro l
    rw [depart_refHi _ _ _ (cohort_nodup s c), sreadLeader_refHi, begun_lane]

/-! ### Lanes at their entry -/

theorem find_map_same {α : Type} (ls : List Nat) (x : α) (l : Nat) :
    Sparse.find (ls.map (fun k => (k, x))) l = if l ∈ ls then some x else none := by
  induction ls with
  | nil => rfl
  | cons k r ih => by_cases hk : l = k <;> simp [Sparse.find, hk, ih]

theorem entryLanes_refHi (n : Nat) (entry : DWord) (l : Nat) : ((Sparse.find (entryLanes n entry) l).getD {}).refHi = 0 := by
  unfold entryLanes
  rw [find_map_same]
  split <;> rfl

/-! ### The statement -/

/-- Settles O59: both forms of `SREAD` complete with the special register's value, and only %reftime.lo moves the latch. -/
theorem reftimeNeverTears : Obligations.ReftimeNeverTears := by
  unfold Obligations.ReftimeNeverTears
  refine ⟨fun g d s c act h => ?loLanes, fun g d s c act h => ?loLeader, fun g d s c act h => ?hiLanes,
    fun g d s c act h => ?hiLeader, entryLanes_refHi⟩
  case loLanes =>
    obtain ⟨c', hc, hv, hr⟩ := sread_lanes h
    refine ⟨c', hc, fun l => ⟨fun hl => ⟨?_, ?_⟩, fun hl => ?_⟩⟩
    · rw [hv l hl, special_reftimeLo, halfWord_toNat]; rfl
    · rw [hr l, if_pos ⟨rfl, hl⟩, halfWord_toNat]; rfl
    · rw [hr l, if_neg (fun e => hl e.2)]
  case loLeader =>
    obtain ⟨c', hc, hv, hr⟩ := sread_leader h
    refine ⟨c', hc, ?_, fun l => ?_⟩
    · rw [hv, special_reftimeLo, halfWord_toNat]; rfl
    · rw [hr l]
      by_cases hl : l = act.headD 0
      · rw [if_pos ⟨rfl, hl⟩, if_pos hl, halfWord_toNat]; rfl
      · rw [if_neg (fun e => hl e.2), if_neg hl]
  case hiLanes =>
    obtain ⟨c', hc, hv, hr⟩ := sread_lanes h
    exact ⟨c', hc, fun l hl => by rw [hv l hl, special_reftimeHi], fun l => by rw [hr l, if_neg (by simp)]⟩
  case hiLeader =>
    obtain ⟨c', hc, hv, hr⟩ := sread_leader h
    exact ⟨c', hc, by rw [hv, special_reftimeHi], fun l => by rw [hr l, if_neg (by simp)]⟩

end Sys2Proof.Machine
end

section
/-! SUPPORT. `SLEEP` and `SLEEP_WAKE` (R308): the word, what each acting lane waits for, and what a sleeping lane may do. -/

namespace Sys2Proof.Machine

/-! ### The word -/

/-- R86: the fields of a word of format VVV read back, the guard in bits 25 to 22 aside. -/
theorem encVVV_fields {maj d a b fn : Nat} {g : Guard} (hg : g.wf = true) (hd : d < 64) (ha : a < 64) (hb : b < 64) (hf : fn < 16) :
    encVVV maj g d a b fn / 2 ^ 26 = maj ∧ encVVV maj g d a b fn / 2 ^ 16 % 64 = d ∧ encVVV maj g d a b fn / 2 ^ 10 % 64 = a
      ∧ encVVV maj g d a b fn / 2 ^ 4 % 64 = b ∧ encVVV maj g d a b fn % 16 = fn := by
  have := Laws.WordFits.encGuard_lt g hg
  unfold encVVV; omega

theorem wellFormed_sleep {g : Guard} {a : Nat} (h : wellFormed (.sleep g a) = true) : g.wf = true ∧ a < 64 := by
  have h' : (g.wf && decide (a < 64)) = true := h
  simpa using h'

/-! ### Instructions that set the PCs of their acting lanes -/

/-- Two updates of the issuing context after its hints are noted are one update, to a context known in advance. -/
theorem hinted_modCtx_modCtx {s : State} {i : Instr} {c : Ctx} {act : List Nat} (h : Issues s i c act) (F G : Ctx → Ctx) :
    ((s.hinted i act).modCtx s.cur.ctx F).modCtx s.cur.ctx G = s.modCtx s.cur.ctx (fun _ => G (F (c.begun i act))) := by
  unfold State.hinted Ctx.begun
  by_cases hi : isHint i
  · simp only [hi, if_true, State.modCtx_modCtx]
    exact State.modCtx_const _ _ _ _ h.found
  · simp only [hi, if_false, State.modCtx_modCtx, Bool.false_eq_true]
    exact State.modCtx_const _ _ _ _ h.found

/-- Such an instruction completes with the rest of its cohort moved on. -/
theorem completes_of_gate_okPc {s : State} {i : Instr} {c : Ctx} {act : List Nat} (h : Issues s i c act)
    (body : State → Ctx → List Nat → Eff) (he : exec i s = gate i s body) (F : Ctx → Ctx)
    (hb : body (s.hinted i act) (c.begun i act) act = .okPc ((s.hinted i act).modCtx s.cur.ctx F)) :
    Completes i s (s.depart i ((s.cohort c).filter (fun l => !act.contains l)) (F (c.begun i act))) := by
  refine ⟨?_, fun a => rdByte_modCtx _ _ _ _⟩
  rw [he, gate_okPc h body hb, hinted_modCtx_modCtx h]

/-- A lane that acts stands, after the rest of the cohort departs, where the effect has put it. -/
theorem depart_rest_lane {s : State} {c : Ctx} {act : List Nat} {l : Nat} (hl : l ∈ act) (i : Instr) (x : Ctx) :
    (s.depart i ((s.cohort c).filter (fun l => !act.contains l)) x).lane l = x.lane l := by
  rw [depart_lane _ _ _ ((cohort_nodup s c).filter _), if_neg (by simp [hl])]

/-! ### SLEEP -/

/-- R308: a lane at a `SLEEP` of a ticks at count `now`: it sleeps until the count is reached, or goes on where a is 0. -/
def Lane.sleepFor (now : Nat) (a : Word) (x : Lane) : Lane :=
  if a = 0 then x.onward else { x with wait := .sleep (now + a.toNat) }

theorem Ctx.advance_one (c : Ctx) (l : Nat) : c.advance [l] = c.modLane l Lane.onward := rfl

theorem Ctx.modLane_sleepFor (c : Ctx) (now : Nat) (a : Word) (l : Nat) :
    c.modLane l (Lane.sleepFor now a) =
      if a = 0 then c.advance [l] else c.modLane l (fun x => { x with wait := .sleep (now + a.toNat) }) := by
  rw [Ctx.advance_one]
  unfold Lane.sleepFor
  split <;> rfl

theorem exec_sleep (g : Guard) (a : Nat) (s : State) :
    exec (.sleep g a) s = gate (.sleep g a) s (fun s c act =>
      .okPc (s.modCtx s.cur.ctx (fun c' => c'.modLanes act (fun l => Lane.sleepFor (s.now c) (c.rdV a l))))) := by
  show execSleep g a s = _
  simp only [execSleep, Ctx.modLanes, Ctx.modLane_sleepFor]

/-- Each acting lane of a `SLEEP` sleeps for its A ticks, counted from the issue. -/
theorem sleep_completes {g : Guard} {a : Nat} {s : State} {c : Ctx} {act : List Nat} (h : Issues s (.sleep g a) c act) :
    ∃ c', Completes (.sleep g a) s c' ∧ ∀ l ∈ act, c'.lane l = (c.lane l).sleepFor (s.now c) (c.rdV a l) := by
  refine ⟨_, completes_of_gate_okPc h _ (exec_sleep g a s)
    (fun c' => c'.modLanes act (fun l => Lane.sleepFor (s.now c) (c.rdV a l))) ?_, fun l hl => ?_⟩
  · simp only [State.hinted_cur, now_hinted, begun_rdV]
  · rw [depart_rest_lane hl, Ctx.lane_modLanes act h.nodup, if_pos hl, begun_lane]

/-! ### A sleeping lane -/

/-- R28: an eligible lane waits for nothing. -/
theorem wait_of_eligible {s : State} {c : Ctx} {l : Nat} (h : l ∈ s.eligible c) : (c.lane l).wait = .none := by
  have hfree : l ∈ c.freeLanes := (List.mem_filter.1 h).1
  exact of_decide_eq_true (List.mem_filter.1 hfree).2

/-- R410: a sleeping lane is charged to the leaf of async waits. -/
theorem laneLeaf_of_sleep {s : State} {c : Ctx} {l n : Nat} (h : (c.lane l).wait = .sleep n) : s.laneLeaf c l = 7 := by
  simp only [State.laneLeaf, h]

/-- `SLEEP_WAKE` of a sleeping lane depends on the count of its die alone. -/
theorem exec_sleepWake {s : State} {k : Nat} {c : Ctx} {l n : Nat} (hc : Sparse.find s.ctxs k = some c)
    (hw : (c.lane l).wait = .sleep n) (hr : s.clockRuns c.pkg c.site = true) :
    exec (.sleepWake k l) s =
      if n ≤ s.now c then .next (s.modCtx k (fun c => c.modLane l Lane.onward)) else .fault (.notEnabled "SLEEP_WAKE") := by
  show execSleepWake k l s = _
  simp only [execSleepWake, State.ctx_of_find s k c hc, hw, hr, and_true, Ctx.advance_one]

/-! ### The statement -/

/-- Settles O60: `SLEEP` puts each acting lane to sleep until a count, no eligible lane sleeps, and `SLEEP_WAKE` asks for
the count alone, so a halt neither holds it back nor is ended by it. -/
theorem lanesSleep : Obligations.LanesSleep := by
  unfold Obligations.LanesSleep
  refine ⟨fun g a w hwf hw => ?word, fun g a s c act h => ?issue, fun s c l n hw he => ?eligible,
    fun s k c l n hc hw hr => ⟨fun hlt => ?early, fun hle => ?wake⟩, fun _ _ _ _ => laneLeaf_of_sleep⟩
  case word =>
    obtain ⟨hg, ha⟩ := wellFormed_sleep hwf
    cases hw
    exact encVVV_fields hg (by decide) ha (by decide) (by decide)
  case issue =>
    obtain ⟨c', hc, hlane⟩ := sleep_completes h
    refine ⟨c', hc, fun l hl => ⟨fun h0 => ?_, fun h0 => ?_⟩⟩
    · rw [hlane l hl, Lane.sleepFor, if_pos h0]
    · rw [hlane l hl, Lane.sleepFor, if_neg h0]
  case eligible =>
    have hnone := wait_of_eligible he
    rw [hw] at hnone
    cases hnone
  case early => rw [exec_sleepWake hc hw hr, if_neg (by omega)]
  case wake =>
    refine ⟨_, c.modLane l Lane.onward, by rw [exec_sleepWake hc hw hr, if_pos hle],
      State.ctx_modCtx _ _ _ _ hc, rfl, ?_, fun m hm => ?_⟩
    · rw [Ctx.lane_modLane, if_pos rfl]
    · rw [Ctx.lane_modLane, if_neg hm]

end Sys2Proof.Machine
end

section
/-! SUPPORT. What `exec` runs for each instruction and event that the proofs below speak of. -/

namespace Sys2Proof.Machine

theorem exec_iadd_eq (g : Guard) (d a b : Nat) (s : State) : exec (.iadd g d a b) s = execIadd g d a b s := rfl
theorem exec_isub_eq (g : Guard) (d a b : Nat) (s : State) : exec (.isub g d a b) s = execIsub g d a b s := rfl
theorem exec_imul_eq (g : Guard) (d a b : Nat) (s : State) : exec (.imul g d a b) s = execImul g d a b s := rfl
theorem exec_imulhi_eq (g : Guard) (d a b : Nat) (s : State) : exec (.imulhi g d a b) s = execImulhi g d a b s := rfl
theorem exec_imulhiU_eq (g : Guard) (d a b : Nat) (s : State) : exec (.imulhiU g d a b) s = execImulhiU g d a b s := rfl
theorem exec_imad_eq (g : Guard) (d a b : Nat) (s : State) : exec (.imad g d a b) s = execImad g d a b s := rfl
theorem exec_imin_eq (g : Guard) (d a b : Nat) (s : State) : exec (.imin g d a b) s = execImin g d a b s := rfl
theorem exec_iminU_eq (g : Guard) (d a b : Nat) (s : State) : exec (.iminU g d a b) s = execIminU g d a b s := rfl
theorem exec_imax_eq (g : Guard) (d a b : Nat) (s : State) : exec (.imax g d a b) s = execImax g d a b s := rfl
theorem exec_imaxU_eq (g : Guard) (d a b : Nat) (s : State) : exec (.imaxU g d a b) s = execImaxU g d a b s := rfl
theorem exec_iadds_eq (g : Guard) (d a b : Nat) (s : State) : exec (.iadds g d a b) s = execIadds g d a b s := rfl
theorem exec_iaddsU_eq (g : Guard) (d a b : Nat) (s : State) : exec (.iaddsU g d a b) s = execIaddsU g d a b s := rfl
theorem exec_isubs_eq (g : Guard) (d a b : Nat) (s : State) : exec (.isubs g d a b) s = execIsubs g d a b s := rfl
theorem exec_isubsU_eq (g : Guard) (d a b : Nat) (s : State) : exec (.isubsU g d a b) s = execIsubsU g d a b s := rfl
theorem exec_idot4_eq (g : Guard) (d a b : Nat) (s : State) : exec (.idot4 g d a b) s = execIdot4 g d a b s := rfl
theorem exec_lea_eq (g : Guard) (d a b : Nat) (s : State) : exec (.lea g d a b) s = execLea g d a b s := rfl
theorem exec_iabs_eq (g : Guard) (d a : Nat) (s : State) : exec (.iabs g d a) s = execIabs g d a s := rfl
theorem exec_ineg_eq (g : Guard) (d a : Nat) (s : State) : exec (.ineg g d a) s = execIneg g d a s := rfl
theorem exec_and_eq (g : Guard) (d a b : Nat) (s : State) : exec (.and g d a b) s = execAnd g d a b s := rfl
theorem exec_or_eq (g : Guard) (d a b : Nat) (s : State) : exec (.or g d a b) s = execOr g d a b s := rfl
theorem exec_xor_eq (g : Guard) (d a b : Nat) (s : State) : exec (.xor g d a b) s = execXor g d a b s := rfl
theorem exec_andn_eq (g : Guard) (d a b : Nat) (s : State) : exec (.andn g d a b) s = execAndn g d a b s := rfl
theorem exec_not_eq (g : Guard) (d a : Nat) (s : State) : exec (.not g d a) s = execNot g d a s := rfl
theorem exec_shl_eq (g : Guard) (d a b : Nat) (s : State) : exec (.shl g d a b) s = execShl g d a b s := rfl
theorem exec_shr_eq (g : Guard) (d a b : Nat) (s : State) : exec (.shr g d a b) s = execShr g d a b s := rfl
theorem exec_sar_eq (g : Guard) (d a b : Nat) (s : State) : exec (.sar g d a b) s = execSar g d a b s := rfl
theorem exec_rotl_eq (g : Guard) (d a b : Nat) (s : State) : exec (.rotl g d a b) s = execRotl g d a b s := rfl
theorem exec_popc_eq (g : Guard) (d a : Nat) (s : State) : exec (.popc g d a) s = execPopc g d a s := rfl
theorem exec_clz_eq (g : Guard) (d a : Nat) (s : State) : exec (.clz g d a) s = execClz g d a s := rfl
theorem exec_brev_eq (g : Guard) (d a : Nat) (s : State) : exec (.brev g d a) s = execBrev g d a s := rfl
theorem exec_sel_eq (g : Guard) (d a b : Nat) (s : State) : exec (.sel g d a b) s = execSel g d a b s := rfl
theorem exec_mov_eq (g : Guard) (d a : Nat) (s : State) : exec (.mov g d a) s = execMov g d a s := rfl
theorem exec_iaddImm_eq (g : Guard) (d a : Nat) (imm : Int) (s : State) :
    exec (.iaddImm g d a imm) s = execIaddImm g d a imm s := rfl
theorem exec_bfx_eq (g : Guard) (d a pos len : Nat) (s : State) : exec (.bfx g d a pos len) s = execBfx g d a pos len s := rfl
theorem exec_bfi_eq (g : Guard) (d a pos len : Nat) (s : State) : exec (.bfi g d a pos len) s = execBfi g d a pos len s := rfl
theorem exec_movi_eq (g : Guard) (d : Nat) (imm : Int) (s : State) : exec (.movi g d imm) s = execMovi g d imm s := rfl
theorem exec_movhi_eq (g : Guard) (d imm : Nat) (s : State) : exec (.movhi g d imm) s = execMovhi g d imm s := rfl
theorem exec_fadd_eq (g : Guard) (d a b : Nat) (s : State) : exec (.fadd g d a b) s = execFadd g d a b s := rfl
theorem exec_fsub_eq (g : Guard) (d a b : Nat) (s : State) : exec (.fsub g d a b) s = execFsub g d a b s := rfl
theorem exec_fmul_eq (g : Guard) (d a b : Nat) (s : State) : exec (.fmul g d a b) s = execFmul g d a b s := rfl
theorem exec_ffma_eq (g : Guard) (d a b : Nat) (s : State) : exec (.ffma g d a b) s = execFfma g d a b s := rfl
theorem exec_fmin_eq (g : Guard) (d a b : Nat) (s : State) : exec (.fmin g d a b) s = execFmin g d a b s := rfl
theorem exec_fmax_eq (g : Guard) (d a b : Nat) (s : State) : exec (.fmax g d a b) s = execFmax g d a b s := rfl
theorem exec_fabs_eq (g : Guard) (d a : Nat) (s : State) : exec (.fabs g d a) s = execFabs g d a s := rfl
theorem exec_fneg_eq (g : Guard) (d a : Nat) (s : State) : exec (.fneg g d a) s = execFneg g d a s := rfl
theorem exec_fcpys_eq (g : Guard) (d a b : Nat) (s : State) : exec (.fcpys g d a b) s = execFcpys g d a b s := rfl
theorem exec_fclass_eq (g : Guard) (d a : Nat) (s : State) : exec (.fclass g d a) s = execFclass g d a s := rfl
theorem exec_frcp_eq (g : Guard) (d a : Nat) (s : State) : exec (.frcp g d a) s = execFrcp g d a s := rfl
theorem exec_frsq_eq (g : Guard) (d a : Nat) (s : State) : exec (.frsq g d a) s = execFrsq g d a s := rfl
theorem exec_fsqrt_eq (g : Guard) (d a : Nat) (s : State) : exec (.fsqrt g d a) s = execFsqrt g d a s := rfl
theorem exec_fexp2_eq (g : Guard) (d a : Nat) (s : State) : exec (.fexp2 g d a) s = execFexp2 g d a s := rfl
theorem exec_flog2_eq (g : Guard) (d a : Nat) (s : State) : exec (.flog2 g d a) s = execFlog2 g d a s := rfl
theorem exec_ftanh_eq (g : Guard) (d a : Nat) (s : State) : exec (.ftanh g d a) s = execFtanh g d a s := rfl
theorem exec_hfma2Bf_eq (g : Guard) (d a b : Nat) (s : State) : exec (.hfma2Bf g d a b) s = execHfma2Bf g d a b s := rfl
theorem exec_hfma2H_eq (g : Guard) (d a b : Nat) (s : State) : exec (.hfma2H g d a b) s = execHfma2H g d a b s := rfl
theorem exec_hadd2Bf_eq (g : Guard) (d a b : Nat) (s : State) : exec (.hadd2Bf g d a b) s = execHadd2Bf g d a b s := rfl
theorem exec_hadd2H_eq (g : Guard) (d a b : Nat) (s : State) : exec (.hadd2H g d a b) s = execHadd2H g d a b s := rfl
theorem exec_hmul2Bf_eq (g : Guard) (d a b : Nat) (s : State) : exec (.hmul2Bf g d a b) s = execHmul2Bf g d a b s := rfl
theorem exec_hmul2H_eq (g : Guard) (d a b : Nat) (s : State) : exec (.hmul2H g d a b) s = execHmul2H g d a b s := rfl
theorem exec_hmax2Bf_eq (g : Guard) (d a b : Nat) (s : State) : exec (.hmax2Bf g d a b) s = execHmax2Bf g d a b s := rfl
theorem exec_hmax2H_eq (g : Guard) (d a b : Nat) (s : State) : exec (.hmax2H g d a b) s = execHmax2H g d a b s := rfl
theorem exec_cvt_eq (g : Guard) (d a f k : Nat) (s : State) : exec (.cvt g d a f k) s = execCvt g d a f k s := rfl
theorem exec_cvti_eq (g : Guard) (d a f k : Nat) (s : State) : exec (.cvti g d a f k) s = execCvti g d a f k s := rfl
theorem exec_pack_eq (g : Guard) (d a f k : Nat) (s : State) : exec (.pack g d a f k) s = execPack g d a f k s := rfl
theorem exec_unpack_eq (g : Guard) (d a f k : Nat) (s : State) : exec (.unpack g d a f k) s = execUnpack g d a f k s := rfl
theorem exec_qntv_eq (g : Guard) (d a f k : Nat) (s : State) : exec (.qntv g d a f k) s = execQntv g d a f k s := rfl
theorem exec_dqntv_eq (g : Guard) (d a f k : Nat) (s : State) : exec (.dqntv g d a f k) s = execDqntv g d a f k s := rfl
theorem exec_cvtef_eq (g : Guard) (d a f k : Nat) (s : State) : exec (.cvtef g d a f k) s = execCvtef g d a f k s := rfl
theorem exec_icmp_eq (g : Guard) (a b : Nat) (c : ICond) (s : State) : exec (.icmp g a b c) s = execIcmp g a b c s := rfl
theorem exec_fcmp_eq (g : Guard) (a b : Nat) (c : FCond) (s : State) : exec (.fcmp g a b c) s = execFcmp g a b c s := rfl
theorem exec_ppush_eq (g : Guard) (a : Nat) (s : State) : exec (.ppush g a) s = execPpush g a s := rfl
theorem exec_ppop_eq (g : Guard) (s : State) : exec (.ppop g) s = execPpop g s := rfl
theorem exec_pdup_eq (g : Guard) (ix : Nat) (s : State) : exec (.pdup g ix) s = execPdup g ix s := rfl
theorem exec_pswap_eq (g : Guard) (ix : Nat) (s : State) : exec (.pswap g ix) s = execPswap g ix s := rfl
theorem exec_pnot_eq (g : Guard) (ix : Nat) (s : State) : exec (.pnot g ix) s = execPnot g ix s := rfl
theorem exec_pand_eq (g : Guard) (ix j : Nat) (s : State) : exec (.pand g ix j) s = execPand g ix j s := rfl
theorem exec_por_eq (g : Guard) (ix j : Nat) (s : State) : exec (.por g ix j) s = execPor g ix j s := rfl
theorem exec_pxor_eq (g : Guard) (ix j : Nat) (s : State) : exec (.pxor g ix j) s = execPxor g ix j s := rfl
theorem exec_prot_eq (g : Guard) (ix : Nat) (s : State) : exec (.prot g ix) s = execProt g ix s := rfl
theorem exec_ptov_eq (g : Guard) (d ix : Nat) (s : State) : exec (.ptov g d ix) s = execPtov g d ix s := rfl
theorem exec_voteAny_eq (g : Guard) (ix : Nat) (s : State) : exec (.voteAny g ix) s = execVoteAny g ix s := rfl
theorem exec_voteAll_eq (g : Guard) (ix : Nat) (s : State) : exec (.voteAll g ix) s = execVoteAll g ix s := rfl
theorem exec_gmov_eq (g : Guard) (d a : Nat) (s : State) : exec (.gmov g d a) s = execGmov g d a s := rfl
theorem exec_gadd_eq (g : Guard) (d a b : Nat) (s : State) : exec (.gadd g d a b) s = execGadd g d a b s := rfl
theorem exec_gsub_eq (g : Guard) (d a b : Nat) (s : State) : exec (.gsub g d a b) s = execGsub g d a b s := rfl
theorem exec_gmul_eq (g : Guard) (d a b : Nat) (s : State) : exec (.gmul g d a b) s = execGmul g d a b s := rfl
theorem exec_gand_eq (g : Guard) (d a b : Nat) (s : State) : exec (.gand g d a b) s = execGand g d a b s := rfl
theorem exec_gor_eq (g : Guard) (d a b : Nat) (s : State) : exec (.gor g d a b) s = execGor g d a b s := rfl
theorem exec_gshl_eq (g : Guard) (d a b : Nat) (s : State) : exec (.gshl g d a b) s = execGshl g d a b s := rfl
theorem exec_gshr_eq (g : Guard) (d a b : Nat) (s : State) : exec (.gshr g d a b) s = execGshr g d a b s := rfl
theorem exec_gcmp_eq (g : Guard) (a b : Nat) (c : GCond) (s : State) : exec (.gcmp g a b c) s = execGcmp g a b c s := rfl
theorem exec_gread_eq (g : Guard) (d a : Nat) (s : State) : exec (.gread g d a) s = execGread g d a s := rfl
theorem exec_gmovi_eq (g : Guard) (d : Nat) (imm : Int) (s : State) : exec (.gmovi g d imm) s = execGmovi g d imm s := rfl
theorem exec_gld_eq (g : Guard) (d b : Nat) (off : Int) (s : State) : exec (.gld g d b off) s = execGld g d b off s := rfl
theorem exec_gst_eq (g : Guard) (d b : Nat) (off : Int) (s : State) : exec (.gst g d b off) s = execGst g d b off s := rfl
theorem exec_bra_eq (g : Guard) (imm : Int) (s : State) : exec (.bra g imm) s = execBra g imm s := rfl
theorem exec_call_eq (g : Guard) (d : Nat) (imm : Int) (s : State) : exec (.call g d imm) s = execCall g d imm s := rfl
theorem exec_brx_eq (g : Guard) (a : Nat) (s : State) : exec (.brx g a) s = execBrx g a s := rfl
theorem exec_callx_eq (g : Guard) (d a : Nat) (s : State) : exec (.callx g d a) s = execCallx g d a s := rfl
theorem exec_ret_eq (g : Guard) (a : Nat) (s : State) : exec (.ret g a) s = execRet g a s := rfl
theorem exec_exit_eq (g : Guard) (s : State) : exec (.exit g) s = execExit g s := rfl
theorem exec_yield_eq (g : Guard) (s : State) : exec (.yield g) s = execYield g s := rfl
theorem exec_nop_eq (g : Guard) (s : State) : exec (.nop g) s = execNop g s := rfl
theorem exec_rgn_eq (g : Guard) (d mask : Nat) (s : State) : exec (.rgn g d mask) s = execRgn g d mask s := rfl
theorem exec_ld_eq (g : Guard) (d b : Nat) (off : Int) (sz : Size) (sx : Bool) (s : State) :
    exec (.ld g d b off sz sx) s = execLd g d b off sz sx s := rfl
theorem exec_ldAcq_eq (g : Guard) (d b lvl : Nat) (sz : Size) (sx : Bool) (s : State) :
    exec (.ldAcq g d b lvl sz sx) s = execLdAcq g d b lvl sz sx s := rfl
theorem exec_st_eq (g : Guard) (d b : Nat) (off : Int) (sz : Size) (s : State) :
    exec (.st g d b off sz) s = execSt g d b off sz s := rfl
theorem exec_stRel_eq (g : Guard) (d b lvl : Nat) (sz : Size) (s : State) :
    exec (.stRel g d b lvl sz) s = execStRel g d b lvl sz s := rfl
theorem exec_ldc_eq (g : Guard) (d b : Nat) (off : Int) (sz : Size) (s : State) :
    exec (.ldc g d b off sz) s = execLdc g d b off sz s := rfl
theorem exec_stc_eq (g : Guard) (d b : Nat) (off : Int) (sz : Size) (s : State) :
    exec (.stc g d b off sz) s = execStc g d b off sz s := rfl
theorem exec_ldk_eq (g : Guard) (d b : Nat) (off : Int) (sz : Size) (s : State) :
    exec (.ldk g d b off sz) s = execLdk g d b off sz s := rfl
theorem exec_stk_eq (g : Guard) (d b : Nat) (off : Int) (sz : Size) (s : State) :
    exec (.stk g d b off sz) s = execStk g d b off sz s := rfl
theorem exec_ldl_eq (g : Guard) (d b : Nat) (off : Int) (sz : Size) (s : State) :
    exec (.ldl g d b off sz) s = execLdl g d b off sz s := rfl
theorem exec_stl_eq (g : Guard) (d b : Nat) (off : Int) (sz : Size) (s : State) :
    exec (.stl g d b off sz) s = execStl g d b off sz s := rfl
theorem exec_ldm_eq (g : Guard) (d b n : Nat) (s : State) : exec (.ldm g d b n) s = execLdm g d b n s := rfl
theorem exec_stm_eq (g : Guard) (d b n : Nat) (s : State) : exec (.stm g d b n) s = execStm g d b n s := rfl
theorem exec_ldt_eq (g : Guard) (t : Nat) (sp : TSpace) (b : Nat) (off : Int) (s : State) :
    exec (.ldt g t sp b off) s = execLdt g t sp b off s := rfl
theorem exec_stt_eq (g : Guard) (t : Nat) (sp : TSpace) (b : Nat) (off : Int) (s : State) :
    exec (.stt g t sp b off) s = execStt g t sp b off s := rfl
theorem exec_ldsc_eq (g : Guard) (d b f : Nat) (s : State) : exec (.ldsc g d b f) s = execLdsc g d b f s := rfl
theorem exec_atom_eq (g : Guard) (d b lvl : Nat) (op : AtomOp) (s : State) :
    exec (.atom g d b lvl op) s = execAtom g d b lvl op s := rfl
theorem exec_cas_eq (g : Guard) (d b lvl : Nat) (s : State) : exec (.cas g d b lvl) s = execCas g d b lvl s := rfl
theorem exec_ldx_eq (g : Guard) (d b c : Nat) (s : State) : exec (.ldx g d b c) s = execLdx g d b c s := rfl
theorem exec_pref_eq (g : Guard) (die : Bool) (b : Nat) (off : Int) (s : State) :
    exec (.pref g die b off) s = execPref g die b off s := rfl
theorem exec_cctl_eq (g : Guard) (op : CacheOp) (b : Nat) (off : Int) (s : State) :
    exec (.cctl g op b off) s = execCctl g op b off s := rfl
theorem exec_mbinit_eq (g : Guard) (a b : Nat) (s : State) : exec (.mbinit g a b) s = execMbinit g a b s := rfl
theorem exec_mbexpect_eq (g : Guard) (a b : Nat) (s : State) : exec (.mbexpect g a b) s = execMbexpect g a b s := rfl
theorem exec_mbarrive_eq (g : Guard) (a : Nat) (s : State) : exec (.mbarrive g a) s = execMbarrive g a s := rfl
theorem exec_mbwait_eq (g : Guard) (d a b : Nat) (s : State) : exec (.mbwait g d a b) s = execMbwait g d a b s := rfl
theorem exec_mbtest_eq (g : Guard) (a b : Nat) (s : State) : exec (.mbtest g a b) s = execMbtest g a b s := rfl
theorem exec_waitc_eq (g : Guard) (c : CClass) (n : Nat) (s : State) : exec (.waitc g c n) s = execWaitc g c n s := rfl
theorem exec_cntrd_eq (g : Guard) (d : Nat) (c : CClass) (s : State) : exec (.cntrd g d c) s = execCntrd g d c s := rfl
theorem exec_cvdecl_eq (g : Guard) (v a : Nat) (s : State) : exec (.cvdecl g v a) s = execCvdecl g v a s := rfl
theorem exec_cvsign_eq (g : Guard) (v : Nat) (s : State) : exec (.cvsign g v) s = execCvsign g v s := rfl
theorem exec_mma_eq (g : Guard) (ka kb : Bool) (c fa fb v : Nat) (s : State) :
    exec (.mma g ka kb c fa fb v) s = execMma g ka kb c fa fb v s := rfl
theorem exec_procfg_eq (g : Guard) (s64 : Bool) (s : State) : exec (.procfg g s64) s = execProcfg g s64 s := rfl
theorem exec_accrdT_eq (g : Guard) (d c f h : Nat) (s : State) : exec (.accrdT g d c f h) s = execAccrdT g d c f h s := rfl
theorem exec_accrdV_eq (g : Guard) (d c f : Nat) (s : State) : exec (.accrdV g d c f) s = execAccrdV g d c f s := rfl
theorem exec_accrdC_eq (g : Guard) (d c f : Nat) (s : State) : exec (.accrdC g d c f) s = execAccrdC g d c f s := rfl
theorem exec_accwr_eq (g : Guard) (c a : Nat) (s : State) : exec (.accwr g c a) s = execAccwr g c a s := rfl
theorem exec_accz_eq (g : Guard) (c : Nat) (s : State) : exec (.accz g c) s = execAccz g c s := rfl
theorem exec_sbindT_eq (g : Guard) (d a f : Nat) (s : State) : exec (.sbindT g d a f) s = execSbindT g d a f s := rfl
theorem exec_sbindV_eq (g : Guard) (d a : Nat) (s : State) : exec (.sbindV g d a) s = execSbindV g d a s := rfl
theorem exec_sunbindT_eq (g : Guard) (d : Nat) (s : State) : exec (.sunbindT g d) s = execSunbindT g d s := rfl
theorem exec_sunbindV_eq (g : Guard) (d : Nat) (s : State) : exec (.sunbindV g d) s = execSunbindV g d s := rfl
theorem exec_stagrd_eq (g : Guard) (d x k : Nat) (s : State) : exec (.stagrd g d x k) s = execStagrd g d x k s := rfl
theorem exec_smov_eq (g : Guard) (d a n : Nat) (s : State) : exec (.smov g d a n) s = execSmov g d a n s := rfl
theorem exec_smul_eq (g : Guard) (d a n : Nat) (band : Bool) (s : State) :
    exec (.smul g d a n band) s = execSmul g d a n band s := rfl
theorem exec_sadd_eq (g : Guard) (d a n : Nat) (band : Bool) (s : State) :
    exec (.sadd g d a n band) s = execSadd g d a n band s := rfl
theorem exec_smax_eq (g : Guard) (d a n : Nat) (band : Bool) (s : State) :
    exec (.smax g d a n band) s = execSmax g d a n band s := rfl
theorem exec_sld_eq (g : Guard) (d b : Nat) (off : Int) (s : State) : exec (.sld g d b off) s = execSld g d b off s := rfl
theorem exec_sst_eq (g : Guard) (d b : Nat) (off : Int) (s : State) : exec (.sst g d b off) s = execSst g d b off s := rfl
theorem exec_launch_eq (g : Guard) (lvl x y : Nat) (s : State) : exec (.launch g lvl x y) s = execLaunch g lvl x y s := rfl
theorem exec_tsplit_eq (g : Guard) (lvl x y : Nat) (s : State) : exec (.tsplit g lvl x y) s = execTsplit g lvl x y s := rfl
theorem exec_tsplitX_eq (g : Guard) (x y : Nat) (s : State) : exec (.tsplitX g x y) s = execTsplitX g x y s := rfl
theorem exec_evqrd_eq (g : Guard) (lvl x y : Nat) (m w : Bool) (s : State) :
    exec (.evqrd g lvl x y m w) s = execEvqrd g lvl x y m w s := rfl
theorem exec_mcopyDown_eq (g : Guard) (lvl x y : Nat) (r : Bool) (s : State) :
    exec (.mcopyDown g lvl x y r) s = execMcopyDown g lvl x y r s := rfl
theorem exec_mcopyUp_eq (g : Guard) (lvl x y : Nat) (r : Bool) (s : State) :
    exec (.mcopyUp g lvl x y r) s = execMcopyUp g lvl x y r s := rfl
theorem exec_reduce_eq (g : Guard) (lvl x y : Nat) (op : RedOp) (one r : Bool) (s : State) :
    exec (.reduce g lvl x y op one r) s = execReduce g lvl x y op one r s := rfl
theorem exec_cmbopen_eq (g : Guard) (d a : Nat) (s : State) : exec (.cmbopen g d a) s = execCmbopen g d a s := rfl
theorem exec_cmbput_eq (g : Guard) (d a b : Nat) (s : State) : exec (.cmbput g d a b) s = execCmbput g d a b s := rfl
theorem exec_cmbwait_eq (g : Guard) (d a : Nat) (s : State) : exec (.cmbwait g d a) s = execCmbwait g d a s := rfl
theorem exec_cmbwaitBatch_eq (g : Guard) (d a : Nat) (s : State) : exec (.cmbwaitBatch g d a) s = execCmbwaitBatch g d a s := rfl
theorem exec_cmbclose_eq (g : Guard) (a : Nat) (s : State) : exec (.cmbclose g a) s = execCmbclose g a s := rfl
theorem exec_cmbcloseDrop_eq (g : Guard) (a : Nat) (s : State) : exec (.cmbcloseDrop g a) s = execCmbcloseDrop g a s := rfl
theorem exec_cmbstat_eq (g : Guard) (d a sel : Nat) (s : State) : exec (.cmbstat g d a sel) s = execCmbstat g d a sel s := rfl
theorem exec_coll_eq (g : Guard) (d a : Nat) (op : CollOp) (s : State) : exec (.coll g d a op) s = execColl g d a op s := rfl
theorem exec_collwait_eq (g : Guard) (d a : Nat) (s : State) : exec (.collwait g d a) s = execCollwait g d a s := rfl
theorem exec_collq_eq (g : Guard) (d a : Nat) (s : State) : exec (.collq g d a) s = execCollq g d a s := rfl
theorem exec_laydef_eq (g : Guard) (d a : Nat) (s : State) : exec (.laydef g d a) s = execLaydef g d a s := rfl
theorem exec_trap_eq (g : Guard) (c : Nat) (s : State) : exec (.trap g c) s = execTrap g c s := rfl
theorem exec_swrite_eq (g : Guard) (d : Nat) (u : Bool) (sel : Nat) (s : State) :
    exec (.swrite g d u sel) s = execSwrite g d u sel s := rfl
theorem exec_winsel_eq (g : Guard) (a : Nat) (s : State) : exec (.winsel g a) s = execWinsel g a s := rfl
theorem exec_winwr_eq (g : Guard) (d a : Nat) (s : State) : exec (.winwr g d a) s = execWinwr g d a s := rfl
theorem exec_oplrd_eq (g : Guard) (d a w : Nat) (s : State) : exec (.oplrd g d a w) s = execOplrd g d a w s := rfl
theorem exec_rqrd_eq (g : Guard) (d a : Nat) (s : State) : exec (.rqrd g d a) s = execRqrd g d a s := rfl
theorem exec_rqinj_eq (g : Guard) (a : Nat) (s : State) : exec (.rqinj g a) s = execRqinj g a s := rfl
theorem exec_rqdrop_eq (g : Guard) (d a : Nat) (s : State) : exec (.rqdrop g d a) s = execRqdrop g d a s := rfl
theorem exec_ctxswSave_eq (g : Guard) (a : Nat) (s : State) : exec (.ctxswSave g a) s = execCtxswSave g a s := rfl
theorem exec_ctxswRestore_eq (g : Guard) (a : Nat) (s : State) : exec (.ctxswRestore g a) s = execCtxswRestore g a s := rfl
theorem exec_halt_eq (g : Guard) (sel : HScope) (s : State) : exec (.halt g sel) s = execHalt g sel s := rfl
theorem exec_resume_eq (g : Guard) (sel : HScope) (s : State) : exec (.resume g sel) s = execResume g sel s := rfl
theorem exec_tlbi_eq (g : Guard) (d a : Nat) (s : State) : exec (.tlbi g d a) s = execTlbi g d a s := rfl
theorem exec_tlbiW_eq (g : Guard) (d a : Nat) (s : State) : exec (.tlbiW g d a) s = execTlbiW g d a s := rfl
theorem exec_asidgen_eq (g : Guard) (d : Nat) (s : State) : exec (.asidgen g d) s = execAsidgen g d s := rfl
theorem exec_hntWide_eq (imm : Nat) (s : State) : exec (.hntWide imm) s = execHntWide imm s := rfl
theorem exec_hntSched_eq (rsvd : Nat) (y pv : Bool) (prio : Nat) (lv : Bool) (lat : Nat) (s : State) :
    exec (.hntSched rsvd y pv prio lv lat) s = execHntSched rsvd y pv prio lv lat s := rfl
theorem exec_hntMod_eq (code arg : Nat) (s : State) : exec (.hntMod code arg) s = execHntMod code arg s := rfl
theorem exec_undefinedInstruction_eq (w : Nat) (s : State) :
    exec (.undefinedInstruction w) s = execUndefinedInstruction w s := rfl
theorem exec_packageReset_eq (p : Nat) (ix : BootInputs) (s : State) :
    exec (.packageReset p ix) s = execPackageReset p ix s := rfl
theorem exec_dieClockStop_eq (p die : Nat) (s : State) : exec (.dieClockStop p die) s = execDieClockStop p die s := rfl
theorem exec_dieClockRestart_eq (p die : Nat) (s : State) : exec (.dieClockRestart p die) s = execDieClockRestart p die s := rfl
theorem exec_planeFailure_eq (p plane : Nat) (s : State) : exec (.planeFailure p plane) s = execPlaneFailure p plane s := rfl
theorem exec_governorAdjust_eq (p mat vec freq draw : Nat) (limit : Bool) (s : State) :
    exec (.governorAdjust p mat vec freq draw limit) s = execGovernorAdjust p mat vec freq draw limit s := rfl
theorem exec_qptrWptrWrite_eq (p m q : Nat) (v : Word) (s : State) :
    exec (.qptrWptrWrite p m q v) s = execQptrWptrWrite p m q v s := rfl
theorem exec_qctlWrite_eq (p m q : Nat) (v : DWord) (s : State) : exec (.qctlWrite p m q v) s = execQctlWrite p m q v s := rfl
theorem exec_evtcntWrite_eq (p m n : Nat) (v : DWord) (s : State) :
    exec (.evtcntWrite p m n v) s = execEvtcntWrite p m n v s := rfl
theorem exec_launchPacketDispatch_eq (p q : Nat) (s : State) :
    exec (.launchPacketDispatch p q) s = execLaunchPacketDispatch p q s := rfl
theorem exec_signalPacketDispatch_eq (p q : Nat) (s : State) :
    exec (.signalPacketDispatch p q) s = execSignalPacketDispatch p q s := rfl
theorem exec_waitPacketDispatch_eq (p q : Nat) (s : State) :
    exec (.waitPacketDispatch p q) s = execWaitPacketDispatch p q s := rfl
theorem exec_unitPlacement_eq (u : UnitRef) (s : State) : exec (.unitPlacement u) s = execUnitPlacement u s := rfl
theorem exec_unitComplete_eq (u : Nat) (s : State) : exec (.unitComplete u) s = execUnitComplete u s := rfl
theorem exec_gridEnd_eq (gr : Nat) (s : State) : exec (.gridEnd gr) s = execGridEnd gr s := rfl
theorem exec_groupSwap_eq (c : Nat) (s : State) : exec (.groupSwap c) s = execGroupSwap c s := rfl
theorem exec_pendingForcedPromotion_eq (c : Nat) (s : State) :
    exec (.pendingForcedPromotion c) s = execPendingForcedPromotion c s := rfl
theorem exec_issueWithdraw_eq (c : Nat) (s : State) : exec (.issueWithdraw c) s = execIssueWithdraw c s := rfl
theorem exec_sleepWake_eq (c l : Nat) (s : State) : exec (.sleepWake c l) s = execSleepWake c l s := rfl
theorem exec_hangWatchdogExpiry_eq (c : Nat) (s : State) : exec (.hangWatchdogExpiry c) s = execHangWatchdogExpiry c s := rfl
theorem exec_lineAgeInvalidate_eq (p core line : Nat) (s : State) :
    exec (.lineAgeInvalidate p core line) s = execLineAgeInvalidate p core line s := rfl
theorem exec_preemptionRequest_eq (p core : Nat) (s : State) :
    exec (.preemptionRequest p core) s = execPreemptionRequest p core s := rfl
theorem exec_forcedYield_eq (u : Nat) (s : State) : exec (.forcedYield u) s = execForcedYield u s := rfl
theorem exec_shadowBankSwap_eq (p core : Nat) (s : State) : exec (.shadowBankSwap p core) s = execShadowBankSwap p core s := rfl
theorem exec_spillComplete_eq (p core : Nat) (s : State) : exec (.spillComplete p core) s = execSpillComplete p core s := rfl
theorem exec_teamRestore_eq (u : Nat) (s : State) : exec (.teamRestore u) s = execTeamRestore u s := rfl
theorem exec_accessPerformed_eq (c e l : Nat) (s : State) : exec (.accessPerformed c e l) s = execAccessPerformed c e l s := rfl
theorem exec_faultRecordFlush_eq (p : Nat) (s : State) : exec (.faultRecordFlush p) s = execFaultRecordFlush p s := rfl
theorem exec_tfreplyRetry_eq (p m : Nat) (id : Word) (s : State) :
    exec (.tfreplyRetry p m id) s = execTfreplyRetry p m id s := rfl
theorem exec_tfreplyUnresolvable_eq (p m : Nat) (id : Word) (s : State) :
    exec (.tfreplyUnresolvable p m id) s = execTfreplyUnresolvable p m id s := rfl
theorem exec_tlbcmdTlbi_eq (p m : Nat) (v : DWord) (s : State) : exec (.tlbcmdTlbi p m v) s = execTlbcmdTlbi p m v s := rfl
theorem exec_tlbcmdTlbiW_eq (p m : Nat) (v : DWord) (s : State) : exec (.tlbcmdTlbiW p m v) s = execTlbcmdTlbiW p m v s := rfl
theorem exec_tlbcmdAsidgen_eq (p m : Nat) (v : DWord) (s : State) :
    exec (.tlbcmdAsidgen p m v) s = execTlbcmdAsidgen p m v s := rfl
theorem exec_tlbCommandComplete_eq (p : Nat) (s : State) : exec (.tlbCommandComplete p) s = execTlbCommandComplete p s := rfl
theorem exec_archcmdCompress_eq (p m : Nat) (v : DWord) (s : State) :
    exec (.archcmdCompress p m v) s = execArchcmdCompress p m v s := rfl
theorem exec_archcmdExpand_eq (p m : Nat) (v : DWord) (s : State) :
    exec (.archcmdExpand p m v) s = execArchcmdExpand p m v s := rfl
theorem exec_archcmdFree_eq (p m : Nat) (v : DWord) (s : State) : exec (.archcmdFree p m v) s = execArchcmdFree p m v s := rfl
theorem exec_archCommandComplete_eq (p : Nat) (s : State) : exec (.archCommandComplete p) s = execArchCommandComplete p s := rfl
theorem exec_archcfgWrite_eq (p m : Nat) (v : DWord) (s : State) : exec (.archcfgWrite p m v) s = execArchcfgWrite p m v s := rfl
theorem exec_registerWrite_eq (p m off : Nat) (v : DWord) (s : State) :
    exec (.registerWrite p m off v) s = execRegisterWrite p m off v s := rfl
theorem exec_mstctlClaim_eq (p m : Nat) (s : State) : exec (.mstctlClaim p m) s = execMstctlClaim p m s := rfl
theorem exec_mstctlOffer_eq (p m t : Nat) (s : State) : exec (.mstctlOffer p m t) s = execMstctlOffer p m t s := rfl
theorem exec_mstctlWithdraw_eq (p m : Nat) (s : State) : exec (.mstctlWithdraw p m) s = execMstctlWithdraw p m s := rfl
theorem exec_mstctlAccept_eq (p m : Nat) (s : State) : exec (.mstctlAccept p m) s = execMstctlAccept p m s := rfl
theorem exec_mstctlRelease_eq (p m : Nat) (s : State) : exec (.mstctlRelease p m) s = execMstctlRelease p m s := rfl
theorem exec_offerLapse_eq (p : Nat) (s : State) : exec (.offerLapse p) s = execOfferLapse p s := rfl
theorem exec_ownershipLoss_eq (p : Nat) (s : State) : exec (.ownershipLoss p) s = execOwnershipLoss p s := rfl
theorem exec_mstfrzThaw_eq (p m : Nat) (v : DWord) (s : State) : exec (.mstfrzThaw p m v) s = execMstfrzThaw p m v s := rfl
theorem exec_attcmdQuote_eq (p m : Nat) (v : DWord) (s : State) : exec (.attcmdQuote p m v) s = execAttcmdQuote p m v s := rfl
theorem exec_attcmdIdentityCert_eq (p m : Nat) (v : DWord) (s : State) :
    exec (.attcmdIdentityCert p m v) s = execAttcmdIdentityCert p m v s := rfl
theorem exec_attComplete_eq (p : Nat) (s : State) : exec (.attComplete p) s = execAttComplete p s := rfl
theorem exec_fwupdLoad_eq (p m : Nat) (v : DWord) (s : State) : exec (.fwupdLoad p m v) s = execFwupdLoad p m v s := rfl
theorem exec_fwLoadComplete_eq (p : Nat) (s : State) : exec (.fwLoadComplete p) s = execFwLoadComplete p s := rfl
theorem exec_diesvcDrain_eq (p m die : Nat) (s : State) : exec (.diesvcDrain p m die) s = execDiesvcDrain p m die s := rfl
theorem exec_diesvcReturn_eq (p m die : Nat) (s : State) : exec (.diesvcReturn p m die) s = execDiesvcReturn p m die s := rfl
theorem exec_dieDrainComplete_eq (p : Nat) (s : State) : exec (.dieDrainComplete p) s = execDieDrainComplete p s := rfl
theorem exec_planesvcWrite_eq (p m : Nat) (v : DWord) (s : State) :
    exec (.planesvcWrite p m v) s = execPlanesvcWrite p m v s := rfl
theorem exec_planemapWrite_eq (p m : Nat) (v : DWord) (s : State) :
    exec (.planemapWrite p m v) s = execPlanemapWrite p m v s := rfl
theorem exec_corestopWrite_eq (p m die wd : Nat) (v : DWord) (s : State) :
    exec (.corestopWrite p m die wd v) s = execCorestopWrite p m die wd v s := rfl
theorem exec_dbghaltHalt_eq (p m : Nat) (v : DWord) (s : State) : exec (.dbghaltHalt p m v) s = execDbghaltHalt p m v s := rfl
theorem exec_dbghaltResume_eq (p m : Nat) (v : DWord) (s : State) :
    exec (.dbghaltResume p m v) s = execDbghaltResume p m v s := rfl
theorem exec_cpbrkcRelease_eq (p m b : Nat) (v : DWord) (s : State) :
    exec (.cpbrkcRelease p m b v) s = execCpbrkcRelease p m b v s := rfl
theorem exec_breakpointHit_eq (c : Nat) (s : State) : exec (.breakpointHit c) s = execBreakpointHit c s := rfl
theorem exec_traceSample_eq (p core : Nat) (s : State) : exec (.traceSample p core) s = execTraceSample p core s := rfl
theorem exec_sacctlSnap_eq (p m : Nat) (v : DWord) (s : State) : exec (.sacctlSnap p m v) s = execSacctlSnap p m v s := rfl
theorem exec_sacctlClr_eq (p m : Nat) (v : DWord) (s : State) : exec (.sacctlClr p m v) s = execSacctlClr p m v s := rfl
theorem exec_handlerEntry_eq (p core : Nat) (s : State) : exec (.handlerEntry p core) s = execHandlerEntry p core s := rfl
theorem exec_teamAbort_eq (u : Nat) (s : State) : exec (.teamAbort u) s = execTeamAbort u s := rfl
theorem exec_passGrant_eq (c : Nat) (s : State) : exec (.passGrant c) s = execPassGrant c s := rfl
theorem exec_passComplete_eq (c : Nat) (s : State) : exec (.passComplete c) s = execPassComplete c s := rfl
theorem exec_accrdWriteComplete_eq (c e : Nat) (s : State) :
    exec (.accrdWriteComplete c e) s = execAccrdWriteComplete c e s := rfl
theorem exec_ldxLaneWrite_eq (c e l : Nat) (s : State) : exec (.ldxLaneWrite c e l) s = execLdxLaneWrite c e l s := rfl
theorem exec_copyChunkWrite_eq (c e ch : Nat) (s : State) : exec (.copyChunkWrite c e ch) s = execCopyChunkWrite c e ch s := rfl
theorem exec_collStart_eq (p ix : Nat) (s : State) : exec (.collStart p ix) s = execCollStart p ix s := rfl
theorem exec_collChunkArrival_eq (p ix ch : Nat) (s : State) :
    exec (.collChunkArrival p ix ch) s = execCollChunkArrival p ix ch s := rfl
theorem exec_collComplete_eq (p ix : Nat) (s : State) : exec (.collComplete p ix) s = execCollComplete p ix s := rfl
theorem exec_reduceContribution_eq (c e l : Nat) (s : State) :
    exec (.reduceContribution c e l) s = execReduceContribution c e l s := rfl
theorem exec_shadowLineEvict_eq (p die line : Nat) (s : State) :
    exec (.shadowLineEvict p die line) s = execShadowLineEvict p die line s := rfl
theorem exec_cmbputArrival_eq (c e : Nat) (s : State) : exec (.cmbputArrival c e) s = execCmbputArrival c e s := rfl
theorem exec_combineTimeout_eq (p die slot : Nat) (s : State) :
    exec (.combineTimeout p die slot) s = execCombineTimeout p die slot s := rfl
theorem exec_combineRelease_eq (p die slot : Nat) (s : State) :
    exec (.combineRelease p die slot) s = execCombineRelease p die slot s := rfl
theorem exec_combineReleaseDone_eq (p die slot : Nat) (s : State) :
    exec (.combineReleaseDone p die slot) s = execCombineReleaseDone p die slot s := rfl
theorem exec_barBridgeArrival_eq (u half : Nat) (s : State) :
    exec (.barBridgeArrival u half) s = execBarBridgeArrival u half s := rfl
theorem exec_applicationCoreAccess_eq (p hart asid : Nat) (va : DWord) (req : AppReq) (s : State) :
    exec (.applicationCoreAccess p hart asid va req) s = execApplicationCoreAccess p hart asid va req s := rfl
theorem exec_fetchFault_eq (c l : Nat) (s : State) : exec (.fetchFault c l) s = execFetchFault c l s := rfl
theorem exec_fabricPortFailure_eq (p port : Nat) (s : State) :
    exec (.fabricPortFailure p port) s = execFabricPortFailure p port s := rfl
theorem exec_portRetrainComplete_eq (p plane : Nat) (s : State) :
    exec (.portRetrainComplete p plane) s = execPortRetrainComplete p plane s := rfl
theorem exec_masterPresenceChange_eq (p m : Nat) (up : Bool) (s : State) :
    exec (.masterPresenceChange p m up) s = execMasterPresenceChange p m up s := rfl
theorem exec_packageHeartbeat_eq (p : Nat) (s : State) : exec (.packageHeartbeat p) s = execPackageHeartbeat p s := rfl

end Sys2Proof.Machine
end

section
/-! SUPPORT. Decoding undoes encoding (R84, R86, R95): the fields of each format read back what was put there, and the major
opcode and fn of an encoded word select the instruction that it came from. -/

namespace Sys2Proof

open Laws.WordFits

/-! ### Guards, flags, codes and signed fields -/

theorem decGuard_encGuard {g : Guard} (hg : g.wf = true) : decGuard (encGuard g) = g := by
  cases g with
  | always => rfl
  | pred n k =>
    have hk : k < 4 := of_decide_eq_true hg
    interval_cases k <;> cases n <;> rfl

/-- R88: a two's-complement field of 2m values reads back any value that it has. -/
theorem signedOf_unsignedOf {m : Nat} {i : Int} (hl : -(m : Int) ≤ i) (hu : i < m) :
    signedOf (2 * m) (unsignedOf (2 * m) i) = i := by
  unfold signedOf unsignedOf
  rcases Int.lt_or_le i 0 with h | h
  · have e : i % ((2 * m : Nat) : Int) = i + 2 * m := by
      rw [← Int.add_emod_right, Int.emod_eq_of_lt] <;> omega
    rw [e, if_neg] <;> omega
  · have e : i % ((2 * m : Nat) : Int) = i := Int.emod_eq_of_lt h (by omega)
    rw [e, if_pos] <;> omega
theorem signed6 {i : Int} (h : -32 ≤ i ∧ i ≤ 31) : signedOf 64 (unsignedOf 64 i) = i :=
  signedOf_unsignedOf (m := 32) (by omega) (by omega)
theorem signed10 {i : Int} (h : -512 ≤ i ∧ i ≤ 511) : signedOf 1024 (unsignedOf 1024 i) = i :=
  signedOf_unsignedOf (m := 512) (by omega) (by omega)
theorem signed16 {i : Int} (h : -32768 ≤ i ∧ i ≤ 32767) : signedOf 65536 (unsignedOf 65536 i) = i :=
  signedOf_unsignedOf (m := 32768) (by omega) (by omega)

theorem beq_toNat (b : Bool) : (b.toNat == 1) = b := by cases b <;> rfl
theorem Size.ofCode_code (c : Size) : Size.ofCode c.code = c := by cases c <;> rfl
theorem ICond.ofCode_code (c : ICond) : ICond.ofCode c.code = c := by cases c <;> rfl
theorem FCond.ofCode_code (c : FCond) : FCond.ofCode c.code = c := by cases c <;> rfl
theorem TSpace.ofCode_code (c : TSpace) : TSpace.ofCode c.code = c := by cases c <;> rfl
theorem AtomOp.ofCode_code (c : AtomOp) : AtomOp.ofCode c.code = c := by cases c <;> rfl
theorem CacheOp.ofCode_code (c : CacheOp) : CacheOp.ofCode c.code = c := by cases c <;> rfl
theorem CClass.ofCode_code (c : CClass) : CClass.ofCode c.code = c := by cases c <;> rfl
theorem RedOp.ofCode_code (c : RedOp) : RedOp.ofCode c.code = c := by cases c <;> rfl
theorem HScope.ofCode_code (c : HScope) : HScope.ofCode c.code = c := by cases c <;> rfl

/-! ### The fields of a field -/

theorem hi_of_pair {q n r : Nat} (h : r < n) : (q * n + r) / n = q := by
  rw [Nat.mul_comm, Nat.mul_add_div (by omega), Nat.div_eq_of_lt h, Nat.add_zero]
theorem lo_of_pair {q n r : Nat} (h : r < n) : (q * n + r) % n = r := by
  rw [Nat.mul_comm, Nat.mul_add_mod, Nat.mod_eq_of_lt h]

/-! ### The candidate of a word, by format

A word of a format fits in 32 bits, and its candidate is whatever the fields that were put there select. -/

theorem decodes_encVVV {maj d a b fn : Nat} {g : Guard} {i : Instr} (hg : g.wf = true)
    (hm : maj < 64) (h : d < 64 ∧ a < 64 ∧ b < 64 ∧ fn < 16)
    (hi : ∀ w, fMaj w = maj → decGuard (fG w) = g → fD w = d → fA w = a → fB w = b → fF w = fn → candidate w = i) :
    encVVV maj g d a b fn < 2 ^ 32 ∧ candidate (encVVV maj g d a b fn) = i := by
  have := encGuard_lt g hg
  have hG : fG (encVVV maj g d a b fn) = encGuard g := by unfold fG encVVV; omega
  obtain ⟨hd, ha, hb, hf⟩ := h
  refine ⟨encVVV_lt hg hm hd ha hb hf, hi _ ?_ (by rw [hG, decGuard_encGuard hg]) ?_ ?_ ?_ ?_⟩ <;>
    unfold encVVV <;> simp only [fMaj, fD, fA, fB, fF] <;> omega
theorem decodes_encVVI {maj d a imm : Nat} {g : Guard} {i : Instr} (hg : g.wf = true)
    (hm : maj < 64) (h : d < 64 ∧ a < 64 ∧ imm < 1024)
    (hi : ∀ w, fMaj w = maj → decGuard (fG w) = g → fD w = d → fA w = a → fImm10 w = imm → candidate w = i) :
    encVVI maj g d a imm < 2 ^ 32 ∧ candidate (encVVI maj g d a imm) = i := by
  have := encGuard_lt g hg
  have hG : fG (encVVI maj g d a imm) = encGuard g := by unfold fG encVVI; omega
  obtain ⟨hd, ha, hi'⟩ := h
  refine ⟨encVVI_lt hg hm hd ha hi', hi _ ?_ (by rw [hG, decGuard_encGuard hg]) ?_ ?_ ?_⟩ <;>
    unfold encVVI <;> simp only [fMaj, fD, fA, fImm10] <;> omega
theorem decodes_encVI16 {maj d imm : Nat} {g : Guard} {i : Instr} (hg : g.wf = true)
    (hm : maj < 64) (h : d < 64 ∧ imm < 65536)
    (hi : ∀ w, fMaj w = maj → decGuard (fG w) = g → fD w = d → fImm16 w = imm → candidate w = i) :
    encVI16 maj g d imm < 2 ^ 32 ∧ candidate (encVI16 maj g d imm) = i := by
  have := encGuard_lt g hg
  have hG : fG (encVI16 maj g d imm) = encGuard g := by unfold fG encVI16; omega
  obtain ⟨hd, hi'⟩ := h
  refine ⟨encVI16_lt hg hm hd hi', hi _ ?_ (by rw [hG, decGuard_encGuard hg]) ?_ ?_⟩ <;>
    unfold encVI16 <;> simp only [fMaj, fD, fImm16] <;> omega
theorem decodes_encLVL {maj lvl x y fn ord : Nat} {g : Guard} {i : Instr} (hg : g.wf = true)
    (hm : maj < 64) (h : lvl < 8 ∧ x < 64 ∧ y < 64 ∧ fn < 16 ∧ ord < 8)
    (hi : ∀ w, fMaj w = maj → decGuard (fG w) = g → fLvl w = lvl → fX w = x → fY w = y → fLF w = fn → fOrd w = ord → candidate w = i) :
    encLVL maj g lvl x y fn ord < 2 ^ 32 ∧ candidate (encLVL maj g lvl x y fn ord) = i := by
  have := encGuard_lt g hg
  have hG : fG (encLVL maj g lvl x y fn ord) = encGuard g := by unfold fG encLVL; omega
  obtain ⟨hl, hx, hy, hf, ho⟩ := h
  refine ⟨encLVL_lt hg hm hl hx hy hf ho, hi _ ?_ (by rw [hG, decGuard_encGuard hg]) ?_ ?_ ?_ ?_ ?_⟩ <;>
    unfold encLVL <;> simp only [fMaj, fLvl, fX, fY, fLF, fOrd] <;> omega
theorem decodes_encSYS {maj d a sel fn : Nat} {g : Guard} {i : Instr} (hg : g.wf = true)
    (hm : maj < 64) (h : d < 64 ∧ a < 64 ∧ sel < 256 ∧ fn < 4)
    (hi : ∀ w, fMaj w = maj → decGuard (fG w) = g → fD w = d → fA w = a → fSel w = sel → fSF w = fn → candidate w = i) :
    encSYS maj g d a sel fn < 2 ^ 32 ∧ candidate (encSYS maj g d a sel fn) = i := by
  have := encGuard_lt g hg
  have hG : fG (encSYS maj g d a sel fn) = encGuard g := by unfold fG encSYS; omega
  obtain ⟨hd, ha, hs, hf⟩ := h
  refine ⟨encSYS_lt hg hm hd ha hs hf, hi _ ?_ (by rw [hG, decGuard_encGuard hg]) ?_ ?_ ?_ ?_⟩ <;>
    unfold encSYS <;> simp only [fMaj, fD, fA, fSel, fSF] <;> omega

/-- The word of i, where i is well formed, has 32 bits and selects i. -/
def Decodes (i : Instr) : Prop := wellFormed i = true → ∀ w, encode i = some w → w < 2 ^ 32 ∧ candidate w = i

/-! ### The major opcodes (R96) -/

theorem decodes_major01 (g : Guard) (d a b : Nat) :
    ∀ ins ∈ [Instr.iadd g d a b, .isub g d a b, .imul g d a b, .imulhi g d a b, .imulhiU g d a b, .imad g d a b, .imin g d a b,
      .iminU g d a b, .imax g d a b, .imaxU g d a b, .iadds g d a b, .iaddsU g d a b, .isubs g d a b, .isubsU g d a b,
      .idot4 g d a b, .lea g d a b], Decodes ins := by
  simp only [List.forall_mem_cons, List.not_mem_nil, false_implies, implies_true, and_true]
  and_intros
  all_goals
    intro h wd hw
    unfold wellFormed at h
    simp only [Bool.and_eq_true, decide_eq_true_eq, and_assoc] at h
    cases hw
    exact decodes_encVVV (by simp only [h]) (by decide) (by omega) (fun wd em eg ed ea eb ef => by
      unfold candidate dec01
      simp [em, eg, ed, ea, eb, ef])
theorem decodes_major02 (g : Guard) (d a b : Nat) :
    ∀ ins ∈ [Instr.iabs g d a, .ineg g d a, .and g d a b, .or g d a b, .xor g d a b, .andn g d a b, .not g d a, .shl g d a b,
      .shr g d a b, .sar g d a b, .rotl g d a b, .popc g d a, .clz g d a, .brev g d a, .sel g d a b,
      .mov g d a], Decodes ins := by
  simp only [List.forall_mem_cons, List.not_mem_nil, false_implies, implies_true, and_true]
  and_intros
  all_goals
    intro h wd hw
    unfold wellFormed at h
    simp only [Bool.and_eq_true, decide_eq_true_eq, and_assoc] at h
    cases hw
    exact decodes_encVVV (by simp only [h]) (by decide) (by omega) (fun wd em eg ed ea eb ef => by
      unfold candidate dec02
      simp [em, eg, ed, ea, eb, ef])
theorem decodes_major03 (g : Guard) (d a : Nat) (imm : Int) : Decodes (.iaddImm g d a imm) := by
  intro h wd hw
  unfold wellFormed at h
  simp only [Bool.and_eq_true, decide_eq_true_eq, and_assoc] at h
  have := unsignedOf_lt (n := 1024) imm (by decide)
  cases hw
  exact decodes_encVVI (by simp only [h]) (by decide) (by omega) (fun wd em eg ed ea ei => by
    unfold candidate dec03
    simp [em, eg, ed, ea, ei, signed10, h])
theorem decodes_major04 (g : Guard) (d a pos len : Nat) : Decodes (.bfx g d a pos len) := by
  intro h wd hw
  unfold wellFormed at h
  simp only [Bool.and_eq_true, decide_eq_true_eq, and_assoc] at h
  cases hw
  exact decodes_encVVI (by simp only [h]) (by decide) (by omega) (fun wd em eg ed ea ei => by
    unfold candidate dec04
    simp [em, eg, ed, ea, ei, hi_of_pair, h])
theorem decodes_major05 (g : Guard) (d a pos len : Nat) : Decodes (.bfi g d a pos len) := by
  intro h wd hw
  unfold wellFormed at h
  simp only [Bool.and_eq_true, decide_eq_true_eq, and_assoc] at h
  cases hw
  exact decodes_encVVI (by simp only [h]) (by decide) (by omega) (fun wd em eg ed ea ei => by
    unfold candidate dec05
    simp [em, eg, ed, ea, ei, hi_of_pair, h])
theorem decodes_major06 (g : Guard) (d : Nat) (imm : Int) : Decodes (.movi g d imm) := by
  intro h wd hw
  unfold wellFormed at h
  simp only [Bool.and_eq_true, decide_eq_true_eq, and_assoc] at h
  have := unsignedOf_lt (n := 65536) imm (by decide)
  cases hw
  exact decodes_encVI16 (by simp only [h]) (by decide) (by omega) (fun wd em eg ed ei => by
    unfold candidate dec06
    simp [em, eg, ed, ei, signed16, h])
theorem decodes_major07 (g : Guard) (d imm : Nat) : Decodes (.movhi g d imm) := by
  intro h wd hw
  unfold wellFormed at h
  simp only [Bool.and_eq_true, decide_eq_true_eq, and_assoc] at h
  cases hw
  exact decodes_encVI16 (by simp only [h]) (by decide) (by omega) (fun wd em eg ed ei => by
    unfold candidate dec07
    simp [em, eg, ed, ei])
theorem decodes_major08 (g : Guard) (d a b : Nat) :
    ∀ ins ∈ [Instr.fadd g d a b, .fsub g d a b, .fmul g d a b, .ffma g d a b, .fmin g d a b, .fmax g d a b, .fabs g d a,
      .fneg g d a, .fcpys g d a b, .fclass g d a], Decodes ins := by
  simp only [List.forall_mem_cons, List.not_mem_nil, false_implies, implies_true, and_true]
  and_intros
  all_goals
    intro h wd hw
    unfold wellFormed at h
    simp only [Bool.and_eq_true, decide_eq_true_eq, and_assoc] at h
    cases hw
    exact decodes_encVVV (by simp only [h]) (by decide) (by omega) (fun wd em eg ed ea eb ef => by
      unfold candidate dec08
      simp [em, eg, ed, ea, eb, ef])
theorem decodes_major09 (g : Guard) (d a : Nat) :
    ∀ ins ∈ [Instr.frcp g d a, .frsq g d a, .fsqrt g d a, .fexp2 g d a, .flog2 g d a, .ftanh g d a], Decodes ins := by
  simp only [List.forall_mem_cons, List.not_mem_nil, false_implies, implies_true, and_true]
  and_intros
  all_goals
    intro h wd hw
    unfold wellFormed at h
    simp only [Bool.and_eq_true, decide_eq_true_eq, and_assoc] at h
    cases hw
    exact decodes_encVVV (by simp only [h]) (by decide) (by omega) (fun wd em eg ed ea eb ef => by
      unfold candidate dec09
      simp [em, eg, ed, ea, ef])
theorem decodes_major0A (g : Guard) (d a b : Nat) :
    ∀ ins ∈ [Instr.hfma2Bf g d a b, .hfma2H g d a b, .hadd2Bf g d a b, .hadd2H g d a b, .hmul2Bf g d a b, .hmul2H g d a b,
      .hmax2Bf g d a b, .hmax2H g d a b], Decodes ins := by
  simp only [List.forall_mem_cons, List.not_mem_nil, false_implies, implies_true, and_true]
  and_intros
  all_goals
    intro h wd hw
    unfold wellFormed at h
    simp only [Bool.and_eq_true, decide_eq_true_eq, and_assoc] at h
    cases hw
    exact decodes_encVVV (by simp only [h]) (by decide) (by omega) (fun wd em eg ed ea eb ef => by
      unfold candidate dec0A
      simp [em, eg, ed, ea, eb, ef])
theorem decodes_major10 (g : Guard) (d a f k : Nat) :
    ∀ ins ∈ [Instr.cvt g d a f k, .cvti g d a f k, .pack g d a f k, .unpack g d a f k, .qntv g d a f k, .dqntv g d a f k,
      .cvtef g d a f k], Decodes ins := by
  simp only [List.forall_mem_cons, List.not_mem_nil, false_implies, implies_true, and_true]
  and_intros
  all_goals
    intro h wd hw
    unfold wellFormed at h
    simp only [Bool.and_eq_true, decide_eq_true_eq, and_assoc] at h
    cases hw
    exact decodes_encVVV (by simp only [h]) (by decide) (by omega) (fun wd em eg ed ea eb ef => by
      unfold candidate dec10
      simp [em, eg, ed, ea, eb, ef, hi_of_pair, h])
theorem decodes_major14 (g : Guard) (a b : Nat) (c : ICond) : Decodes (.icmp g a b c) := by
  intro h wd hw
  unfold wellFormed at h
  simp only [Bool.and_eq_true, decide_eq_true_eq, and_assoc] at h
  have := iCond_lt c
  cases hw
  exact decodes_encVVV (by simp only [h]) (by decide) (by omega) (fun wd em eg ed ea eb ef => by
    unfold candidate dec14
    simp [em, eg, ea, eb, ef, ICond.ofCode_code])
theorem decodes_major15 (g : Guard) (a b : Nat) (c : FCond) : Decodes (.fcmp g a b c) := by
  intro h wd hw
  unfold wellFormed at h
  simp only [Bool.and_eq_true, decide_eq_true_eq, and_assoc] at h
  have := fCond_lt c
  cases hw
  exact decodes_encVVV (by simp only [h]) (by decide) (by omega) (fun wd em eg ed ea eb ef => by
    unfold candidate dec15
    simp [em, eg, ea, eb, ef, FCond.ofCode_code])
theorem decodes_major16 (g : Guard) (a i j d : Nat) :
    ∀ ins ∈ [Instr.ppush g a, .ppop g, .pdup g i, .pswap g i, .pnot g i, .pand g i j, .por g i j, .pxor g i j, .prot g i,
      .ptov g d i, .voteAny g i, .voteAll g i, .voteBallot g d i], Decodes ins := by
  simp only [List.forall_mem_cons, List.not_mem_nil, false_implies, implies_true, and_true]
  and_intros
  all_goals
    intro h wd hw
    unfold wellFormed at h
    simp only [Bool.and_eq_true, decide_eq_true_eq, and_assoc] at h
    cases hw
    exact decodes_encVVV (by simp only [h]) (by decide) (by omega) (fun wd em eg ed ea eb ef => by
      unfold candidate dec16
      simp [em, eg, ed, ea, eb, ef])
theorem decodes_major18 (g : Guard) (d a b : Nat) (c : GCond) :
    ∀ ins ∈ [Instr.gmov g d a, .gadd g d a b, .gsub g d a b, .gmul g d a b, .gand g d a b, .gor g d a b, .gshl g d a b,
      .gshr g d a b, .gcmp g a b c, .gread g d a], Decodes ins := by
  simp only [List.forall_mem_cons, List.not_mem_nil, false_implies, implies_true, and_true]
  and_intros
  all_goals
    intro h wd hw
    unfold wellFormed at h
    simp only [Bool.and_eq_true, decide_eq_true_eq, and_assoc] at h
    have := gCond_lt c
    cases hw
    exact decodes_encVVV (by simp only [h]) (by decide) (by omega) (fun wd em eg ed ea eb ef => by
      unfold candidate dec18
      cases c <;> simp [em, eg, ed, ea, eb, ef, GCond.code])
theorem decodes_major19 (g : Guard) (d : Nat) (imm : Int) : Decodes (.gmovi g d imm) := by
  intro h wd hw
  unfold wellFormed at h
  simp only [Bool.and_eq_true, decide_eq_true_eq, and_assoc] at h
  have := unsignedOf_lt (n := 65536) imm (by decide)
  cases hw
  exact decodes_encVI16 (by simp only [h]) (by decide) (by omega) (fun wd em eg ed ei => by
    unfold candidate dec19
    simp [em, eg, ed, ei, signed16, h])
theorem decodes_major1A (g : Guard) (d b : Nat) (off : Int) :
    ∀ ins ∈ [Instr.gld g d b off, .gst g d b off], Decodes ins := by
  simp only [List.forall_mem_cons, List.not_mem_nil, false_implies, implies_true, and_true]
  and_intros
  all_goals
    intro h wd hw
    unfold wellFormed at h
    simp only [Bool.and_eq_true, decide_eq_true_eq, and_assoc] at h
    have := unsignedOf_lt (n := 64) off (by decide)
    cases hw
    exact decodes_encVVV (by simp only [h]) (by decide) (by omega) (fun wd em eg ed ea eb ef => by
      unfold candidate dec1A
      simp [em, eg, ed, ea, eb, ef, signed6, h])
theorem decodes_major1C (g : Guard) (imm : Int) : Decodes (.bra g imm) := by
  intro h wd hw
  unfold wellFormed at h
  simp only [Bool.and_eq_true, decide_eq_true_eq] at h
  have := unsignedOf_lt (n := 65536) imm (by decide)
  cases hw
  exact decodes_encVI16 (by simp only [h]) (by decide) (by omega) (fun wd em eg ed ei => by
    unfold candidate dec1C
    simp [em, eg, ei, signed16, h])
theorem decodes_major1D (g : Guard) (d : Nat) (imm : Int) : Decodes (.call g d imm) := by
  intro h wd hw
  unfold wellFormed at h
  simp only [Bool.and_eq_true, decide_eq_true_eq, and_assoc] at h
  have := unsignedOf_lt (n := 65536) imm (by decide)
  cases hw
  exact decodes_encVI16 (by simp only [h]) (by decide) (by omega) (fun wd em eg ed ei => by
    unfold candidate dec1D
    simp [em, eg, ed, ei, signed16, h])
theorem decodes_major1E (g : Guard) (a d : Nat) :
    ∀ ins ∈ [Instr.brx g a, .callx g d a, .ret g a, .exit g, .yield g, .sleep g a, .nop g], Decodes ins := by
  simp only [List.forall_mem_cons, List.not_mem_nil, false_implies, implies_true, and_true]
  and_intros
  all_goals
    intro h wd hw
    unfold wellFormed at h
    simp only [Bool.and_eq_true, decide_eq_true_eq, and_assoc] at h
    cases hw
    exact decodes_encVVV (by simp only [h]) (by decide) (by omega) (fun wd em eg ed ea eb ef => by
      unfold candidate dec1E
      simp [em, eg, ed, ea, ef])
theorem decodes_major1F (g : Guard) (d mask : Nat) : Decodes (.rgn g d mask) := by
  intro h wd hw
  unfold wellFormed at h
  simp only [Bool.and_eq_true, decide_eq_true_eq, and_assoc] at h
  cases hw
  exact decodes_encVI16 (by simp only [h]) (by decide) (by omega) (fun wd em eg ed ei => by
    unfold candidate dec1F
    simp [em, eg, ed, ei])
theorem decodes_major20 (g : Guard) (d b : Nat) (off : Int) (sz : Size) (sx : Bool) (lvl : Nat) :
    ∀ ins ∈ [Instr.ld g d b off sz sx, .ldAcq g d b lvl sz sx], Decodes ins := by
  simp only [List.forall_mem_cons, List.not_mem_nil, false_implies, implies_true, and_true]
  and_intros
  all_goals
    intro h wd hw
    unfold wellFormed at h
    simp only [Bool.and_eq_true, decide_eq_true_eq, and_assoc] at h
    have := unsignedOf_lt (n := 64) off (by decide)
    have := size_lt sz
    have := toNat_lt sx
    cases hw
    exact decodes_encVVV (by simp only [h]) (by decide) (by omega) (fun wd em eg ed ea eb ef => by
      unfold candidate dec20
      cases sz <;> cases sx <;> simp [em, eg, ed, ea, eb, ef, signed6, h, Size.code, Size.ofCode])
theorem decodes_major21 (g : Guard) (d b : Nat) (off : Int) (sz : Size) (lvl : Nat) :
    ∀ ins ∈ [Instr.st g d b off sz, .stRel g d b lvl sz], Decodes ins := by
  simp only [List.forall_mem_cons, List.not_mem_nil, false_implies, implies_true, and_true]
  and_intros
  all_goals
    intro h wd hw
    unfold wellFormed at h
    simp only [Bool.and_eq_true, decide_eq_true_eq, and_assoc] at h
    have := unsignedOf_lt (n := 64) off (by decide)
    have := size_lt sz
    cases hw
    exact decodes_encVVV (by simp only [h]) (by decide) (by omega) (fun wd em eg ed ea eb ef => by
      unfold candidate dec21
      cases sz <;> simp [em, eg, ed, ea, eb, ef, signed6, h, Size.code, Size.ofCode])
theorem decodes_major22 (g : Guard) (d b : Nat) (off : Int) (sz : Size) :
    ∀ ins ∈ [Instr.ldc g d b off sz, .stc g d b off sz], Decodes ins := by
  simp only [List.forall_mem_cons, List.not_mem_nil, false_implies, implies_true, and_true]
  and_intros
  all_goals
    intro h wd hw
    unfold wellFormed at h
    simp only [Bool.and_eq_true, decide_eq_true_eq, and_assoc] at h
    have := unsignedOf_lt (n := 64) off (by decide)
    have := size_lt sz
    cases hw
    exact decodes_encVVV (by simp only [h]) (by decide) (by omega) (fun wd em eg ed ea eb ef => by
      unfold candidate dec22
      cases sz <;> simp [em, eg, ed, ea, eb, ef, signed6, h, Size.code, Size.ofCode])
theorem decodes_major23 (g : Guard) (d b : Nat) (off : Int) (sz : Size) :
    ∀ ins ∈ [Instr.ldk g d b off sz, .stk g d b off sz], Decodes ins := by
  simp only [List.forall_mem_cons, List.not_mem_nil, false_implies, implies_true, and_true]
  and_intros
  all_goals
    intro h wd hw
    unfold wellFormed at h
    simp only [Bool.and_eq_true, decide_eq_true_eq, and_assoc] at h
    have := unsignedOf_lt (n := 64) off (by decide)
    have := size_lt sz
    cases hw
    exact decodes_encVVV (by simp only [h]) (by decide) (by omega) (fun wd em eg ed ea eb ef => by
      unfold candidate dec23
      cases sz <;> simp [em, eg, ed, ea, eb, ef, signed6, h, Size.code, Size.ofCode])
theorem decodes_major24 (g : Guard) (d b : Nat) (off : Int) (sz : Size) :
    ∀ ins ∈ [Instr.ldl g d b off sz, .stl g d b off sz], Decodes ins := by
  simp only [List.forall_mem_cons, List.not_mem_nil, false_implies, implies_true, and_true]
  and_intros
  all_goals
    intro h wd hw
    unfold wellFormed at h
    simp only [Bool.and_eq_true, decide_eq_true_eq, and_assoc] at h
    have := unsignedOf_lt (n := 64) off (by decide)
    have := size_lt sz
    cases hw
    exact decodes_encVVV (by simp only [h]) (by decide) (by omega) (fun wd em eg ed ea eb ef => by
      unfold candidate dec24
      cases sz <;> simp [em, eg, ed, ea, eb, ef, signed6, h, Size.code, Size.ofCode])
theorem decodes_major25 (g : Guard) (d b n t : Nat) (sp : TSpace) (off : Int) (f : Nat) :
    ∀ ins ∈ [Instr.ldm g d b n, .stm g d b n, .ldt g t sp b off, .stt g t sp b off, .ldsc g d b f], Decodes ins := by
  simp only [List.forall_mem_cons, List.not_mem_nil, false_implies, implies_true, and_true]
  and_intros
  all_goals
    intro h wd hw
    unfold wellFormed at h
    simp only [Bool.and_eq_true, decide_eq_true_eq, and_assoc] at h
    have := unsignedOf_lt (n := 64) off (by decide)
    have := tSpace_lt sp
    cases hw
    exact decodes_encVVV (by simp only [h]) (by decide) (by omega) (fun wd em eg ed ea eb ef => by
      unfold candidate dec25
      simp [em, eg, ed, ea, eb, ef, hi_of_pair, TSpace.ofCode_code, signed6, h])
theorem decodes_major26 (g : Guard) (d b lvl : Nat) (op : AtomOp) :
    ∀ ins ∈ [Instr.atom g d b lvl op, .cas g d b lvl], Decodes ins := by
  simp only [List.forall_mem_cons, List.not_mem_nil, false_implies, implies_true, and_true]
  and_intros
  all_goals
    intro h wd hw
    unfold wellFormed at h
    simp only [Bool.and_eq_true, decide_eq_true_eq, and_assoc] at h
    have := atomOp_lt op
    cases hw
    exact decodes_encVVV (by simp only [h]) (by decide) (by omega) (fun wd em eg ed ea eb ef => by
      unfold candidate dec26
      cases op <;> simp [em, eg, ed, ea, eb, ef, AtomOp.code, AtomOp.ofCode])
theorem decodes_major27 (g : Guard) (d b c : Nat) (die : Bool) (off : Int) (op : CacheOp) :
    ∀ ins ∈ [Instr.ldx g d b c, .pref g die b off, .cctl g op b off], Decodes ins := by
  simp only [List.forall_mem_cons, List.not_mem_nil, false_implies, implies_true, and_true]
  and_intros
  all_goals
    intro h wd hw
    unfold wellFormed at h
    simp only [Bool.and_eq_true, decide_eq_true_eq, and_assoc] at h
    have := unsignedOf_lt (n := 64) off (by decide)
    have := cacheOp_lt op
    have := toNat_lt die
    cases hw
    exact decodes_encVVV (by simp only [h]) (by decide) (by omega) (fun wd em eg ed ea eb ef => by
      unfold candidate dec27
      cases die <;> simp [em, eg, ed, ea, eb, ef, CacheOp.ofCode_code, signed6, h])
theorem decodes_major28 (g : Guard) (d b : Nat) (off : Int) :
    ∀ ins ∈ [Instr.sfillA g d b off, .sfillB g d b off], Decodes ins := by
  simp only [List.forall_mem_cons, List.not_mem_nil, false_implies, implies_true, and_true]
  and_intros
  all_goals
    intro h wd hw
    unfold wellFormed at h
    simp only [Bool.and_eq_true, decide_eq_true_eq, and_assoc] at h
    have := unsignedOf_lt (n := 64) off (by decide)
    cases hw
    exact decodes_encVVV (by simp only [h]) (by decide) (by omega) (fun wd em eg ed ea eb ef => by
      unfold candidate dec28
      simp [em, eg, ed, ea, eb, ef, signed6, h])
theorem decodes_major29 (g : Guard) (a b d : Nat) :
    ∀ ins ∈ [Instr.mbinit g a b, .mbexpect g a b, .mbarrive g a, .mbwait g d a b, .mbtest g a b], Decodes ins := by
  simp only [List.forall_mem_cons, List.not_mem_nil, false_implies, implies_true, and_true]
  and_intros
  all_goals
    intro h wd hw
    unfold wellFormed at h
    simp only [Bool.and_eq_true, decide_eq_true_eq, and_assoc] at h
    cases hw
    exact decodes_encVVV (by simp only [h]) (by decide) (by omega) (fun wd em eg ed ea eb ef => by
      unfold candidate dec29
      simp [em, eg, ed, ea, eb, ef])
theorem decodes_major2A (g : Guard) (c : CClass) (n d : Nat) :
    ∀ ins ∈ [Instr.waitc g c n, .cntrd g d c], Decodes ins := by
  simp only [List.forall_mem_cons, List.not_mem_nil, false_implies, implies_true, and_true]
  and_intros
  all_goals
    intro h wd hw
    unfold wellFormed at h
    simp only [Bool.and_eq_true, decide_eq_true_eq] at h
    have := cClass_lt c
    cases hw
    exact decodes_encVVV (by simp only [h]) (by decide) (by omega) (fun wd em eg ed ea eb ef => by
      unfold candidate dec2A
      simp [em, eg, ed, ea, ef, CClass.ofCode_code])
theorem decodes_major2C (g : Guard) (v a : Nat) (ka kb : Bool) (c fa fb : Nat) (s64 : Bool) :
    ∀ ins ∈ [Instr.cvdecl g v a, .cvsign g v, .mma g ka kb c fa fb v, .procfg g s64], Decodes ins := by
  simp only [List.forall_mem_cons, List.not_mem_nil, false_implies, implies_true, and_true]
  and_intros
  all_goals
    intro h wd hw
    unfold wellFormed at h
    simp only [Bool.and_eq_true, decide_eq_true_eq, and_assoc] at h
    have := toNat_lt ka
    have := toNat_lt kb
    have := toNat_lt s64
    cases hw
    exact decodes_encVVV (by simp only [h]) (by decide) (by omega) (fun wd em eg ed ea eb ef => by
      unfold candidate dec2C
      cases ka <;> cases kb <;> cases s64 <;> simp [em, eg, ed, ea, eb, ef, h] <;> omega)
theorem decodes_major2D (g : Guard) (d c f h a : Nat) :
    ∀ ins ∈ [Instr.accrdT g d c f h, .accrdV g d c f, .accrdC g d c f, .accwr g c a, .accz g c], Decodes ins := by
  simp only [List.forall_mem_cons, List.not_mem_nil, false_implies, implies_true, and_true]
  and_intros
  all_goals
    intro h wd hw
    unfold wellFormed at h
    simp only [Bool.and_eq_true, decide_eq_true_eq, and_assoc] at h
    cases hw
    exact decodes_encVVV (by simp only [h]) (by decide) (by omega) (fun wd em eg ed ea eb ef => by
      unfold candidate dec2D
      simp [em, eg, ed, ea, eb, ef, hi_of_pair, h])
theorem decodes_major2E (g : Guard) (d a f x k n : Nat) (band : Bool) :
    ∀ ins ∈ [Instr.sbindT g d a f, .sbindV g d a, .sunbindT g d, .sunbindV g d, .stagrd g d x k, .smov g d a n,
      .smul g d a n band, .sadd g d a n band, .smax g d a n band], Decodes ins := by
  simp only [List.forall_mem_cons, List.not_mem_nil, false_implies, implies_true, and_true]
  and_intros
  all_goals
    intro h wd hw
    unfold wellFormed at h
    simp only [Bool.and_eq_true, decide_eq_true_eq, and_assoc] at h
    have := toNat_lt band
    cases hw
    exact decodes_encVVV (by simp only [h]) (by decide) (by omega) (fun wd em eg ed ea eb ef => by
      unfold candidate dec2E
      cases band <;> simp [em, eg, ed, ea, eb, ef] <;> omega)
theorem decodes_major2F (g : Guard) (d b : Nat) (off : Int) :
    ∀ ins ∈ [Instr.sld g d b off, .sst g d b off], Decodes ins := by
  simp only [List.forall_mem_cons, List.not_mem_nil, false_implies, implies_true, and_true]
  and_intros
  all_goals
    intro h wd hw
    unfold wellFormed at h
    simp only [Bool.and_eq_true, decide_eq_true_eq, and_assoc] at h
    have := unsignedOf_lt (n := 64) off (by decide)
    cases hw
    exact decodes_encVVV (by simp only [h]) (by decide) (by omega) (fun wd em eg ed ea eb ef => by
      unfold candidate dec2F
      simp [em, eg, ed, ea, eb, ef, signed6, h])
theorem decodes_major30 (g : Guard) (lvl x y : Nat) (m w : Bool) :
    ∀ ins ∈ [Instr.launch g lvl x y, .tsplit g lvl x y, .tsplitX g x y, .evqrd g lvl x y m w], Decodes ins := by
  simp only [List.forall_mem_cons, List.not_mem_nil, false_implies, implies_true, and_true]
  and_intros
  all_goals
    intro h wd hw
    unfold wellFormed at h
    simp only [Bool.and_eq_true, decide_eq_true_eq, and_assoc] at h
    have := toNat_lt m
    have := toNat_lt w
    cases hw
    exact decodes_encLVL (by simp only [h]) (by decide) (by omega) (fun wd em eg el ex ey ef eo => by
      unfold candidate dec30
      cases m <;> cases w <;> simp [em, eg, el, ex, ey, ef, eo])
theorem decodes_major31 (g : Guard) (lvl : Nat) :
    ∀ ins ∈ [Instr.bar g lvl, .fenceRel g lvl, .fenceAcq g lvl, .fenceAcqrel g lvl, .fenceSc g lvl], Decodes ins := by
  simp only [List.forall_mem_cons, List.not_mem_nil, false_implies, implies_true, and_true]
  and_intros
  all_goals
    intro h wd hw
    unfold wellFormed at h
    simp only [Bool.and_eq_true, decide_eq_true_eq] at h
    cases hw
    exact decodes_encLVL (by simp only [h]) (by decide) (by omega) (fun wd em eg el ex ey ef eo => by
      unfold candidate dec31
      simp [em, eg, el, ef])
theorem decodes_major32 (g : Guard) (lvl x y : Nat) (r : Bool) :
    ∀ ins ∈ [Instr.mcopyDown g lvl x y r, .mcopyUp g lvl x y r], Decodes ins := by
  simp only [List.forall_mem_cons, List.not_mem_nil, false_implies, implies_true, and_true]
  and_intros
  all_goals
    intro h wd hw
    unfold wellFormed at h
    simp only [Bool.and_eq_true, decide_eq_true_eq, and_assoc] at h
    have := toNat_lt r
    cases hw
    exact decodes_encLVL (by simp only [h]) (by decide) (by omega) (fun wd em eg el ex ey ef eo => by
      unfold candidate dec32
      cases r <;> simp [em, eg, el, ex, ey, ef, eo])
theorem decodes_major33 (g : Guard) (lvl x y : Nat) (op : RedOp) (one r : Bool) : Decodes (.reduce g lvl x y op one r) := by
  intro h wd hw
  unfold wellFormed at h
  simp only [Bool.and_eq_true, decide_eq_true_eq, and_assoc] at h
  have := redOp_lt op
  have := toNat_lt one
  have := toNat_lt r
  cases hw
  exact decodes_encLVL (by simp only [h]) (by decide) (by omega) (fun wd em eg el ex ey ef eo => by
    unfold candidate dec33
    cases one <;> cases r <;> simp [em, eg, el, ex, ey, ef, eo, RedOp.ofCode_code])
theorem decodes_major34 (g : Guard) (d a b s : Nat) :
    ∀ ins ∈ [Instr.cmbopen g d a, .cmbput g d a b, .cmbwait g d a, .cmbwaitBatch g d a, .cmbclose g a, .cmbcloseDrop g a,
      .cmbstat g d a s], Decodes ins := by
  simp only [List.forall_mem_cons, List.not_mem_nil, false_implies, implies_true, and_true]
  and_intros
  all_goals
    intro h wd hw
    unfold wellFormed at h
    simp only [Bool.and_eq_true, decide_eq_true_eq, and_assoc] at h
    cases hw
    exact decodes_encVVV (by simp only [h]) (by decide) (by omega) (fun wd em eg ed ea eb ef => by
      unfold candidate dec34
      simp [em, eg, ed, ea, eb, ef])
theorem decodes_major36 (g : Guard) (d a : Nat) (op : CollOp) :
    ∀ ins ∈ [Instr.coll g d a op, .collwait g d a, .collq g d a, .laydef g d a], Decodes ins := by
  simp only [List.forall_mem_cons, List.not_mem_nil, false_implies, implies_true, and_true]
  and_intros
  all_goals
    intro h wd hw
    unfold wellFormed at h
    simp only [Bool.and_eq_true, decide_eq_true_eq, and_assoc] at h
    have := collOp_lt op
    cases hw
    exact decodes_encVVV (by simp only [h]) (by decide) (by omega) (fun wd em eg ed ea eb ef => by
      unfold candidate dec36
      cases op <;> simp [em, eg, ed, ea, ef, CollOp.code])
theorem decodes_major38 (g : Guard) (c a d : Nat) (u : Bool) (s : Nat) :
    ∀ ins ∈ [Instr.trap g c, .tret g, .tretAbort g a, .sread g d u s, .swrite g d u s], Decodes ins := by
  simp only [List.forall_mem_cons, List.not_mem_nil, false_implies, implies_true, and_true]
  and_intros
  all_goals
    intro h wd hw
    unfold wellFormed at h
    simp only [Bool.and_eq_true, decide_eq_true_eq, and_assoc] at h
    have := toNat_lt u
    cases hw
    exact decodes_encSYS (by simp only [h]) (by decide) (by omega) (fun wd em eg ed ea es ef => by
      unfold candidate dec38
      cases u <;> simp [em, eg, ed, ea, es, ef])
theorem decodes_major39 (g : Guard) (a d w : Nat) :
    ∀ ins ∈ [Instr.winsel g a, .winrd g d a, .winwr g d a, .oplrd g d a w], Decodes ins := by
  simp only [List.forall_mem_cons, List.not_mem_nil, false_implies, implies_true, and_true]
  and_intros
  all_goals
    intro h wd hw
    unfold wellFormed at h
    simp only [Bool.and_eq_true, decide_eq_true_eq, and_assoc] at h
    cases hw
    exact decodes_encSYS (by simp only [h]) (by decide) (by omega) (fun wd em eg ed ea es ef => by
      unfold candidate dec39
      simp [em, eg, ed, ea, es, ef])
theorem decodes_major3A (g : Guard) (d a : Nat) :
    ∀ ins ∈ [Instr.rqrd g d a, .rqinj g a, .rqdrop g d a, .ctxswSave g a, .ctxswRestore g a], Decodes ins := by
  simp only [List.forall_mem_cons, List.not_mem_nil, false_implies, implies_true, and_true]
  and_intros
  all_goals
    intro h wd hw
    unfold wellFormed at h
    simp only [Bool.and_eq_true, decide_eq_true_eq, and_assoc] at h
    cases hw
    exact decodes_encSYS (by simp only [h]) (by decide) (by omega) (fun wd em eg ed ea es ef => by
      unfold candidate dec3A
      simp [em, eg, ed, ea, es, ef])
theorem decodes_major3B (g : Guard) (s : HScope) (d a : Nat) :
    ∀ ins ∈ [Instr.halt g s, .resume g s, .tlbi g d a, .tlbiW g d a, .asidgen g d], Decodes ins := by
  simp only [List.forall_mem_cons, List.not_mem_nil, false_implies, implies_true, and_true]
  and_intros
  all_goals
    intro h wd hw
    unfold wellFormed at h
    simp only [Bool.and_eq_true, decide_eq_true_eq, and_assoc] at h
    have := hScope_lt s
    cases hw
    exact decodes_encSYS (by simp only [h]) (by decide) (by omega) (fun wd em eg ed ea es ef => by
      unfold candidate dec3B
      simp [em, eg, ed, ea, es, ef, HScope.ofCode_code])

/-- R89: the fields of a hint word. -/
theorem decodes_encHNT {k payload : Nat} {i : Instr} (hk : k < 4) (hp : payload < 2 ^ 24)
    (hi : ∀ w, fMaj w = 63 → w / 2 ^ 24 % 4 = k → w % 2 ^ 24 = payload → candidate w = i) :
    encHNT k payload < 2 ^ 32 ∧ candidate (encHNT k payload) = i := by
  refine ⟨encHNT_lt hk hp, hi _ ?_ ?_ ?_⟩
  · unfold fMaj encHNT; omega
  · unfold encHNT; omega
  · unfold encHNT; omega
theorem decodes_hntWide (imm : Nat) : Decodes (.hntWide imm) := by
  intro h wd hw
  have h' : imm < 2 ^ 24 := of_decide_eq_true h
  cases hw
  exact decodes_encHNT (by decide) h' (fun wd em ek ep => by
    unfold candidate dec3F
    simp only [em, ek, ep])
theorem decodes_hntSched (rsvd prio lat : Nat) (y pv lv : Bool) : Decodes (.hntSched rsvd y pv prio lv lat) := by
  intro h wd hw
  unfold wellFormed at h
  simp only [Bool.and_eq_true, decide_eq_true_eq, and_assoc] at h
  cases hw
  have hb := And.intro (toNat_lt y) (And.intro (toNat_lt pv) (toNat_lt lv))
  refine decodes_encHNT (by decide) (by omega) (fun wd em ek ep => ?_)
  have e1 : wd / 256 % 65536 = rsvd := by omega
  have e2 : wd / 128 % 2 = y.toNat := by omega
  have e3 : wd / 64 % 2 = pv.toNat := by omega
  have e4 : wd / 8 % 8 = prio := by omega
  have e5 : wd / 4 % 2 = lv.toNat := by omega
  have e6 : wd % 4 = lat := by omega
  unfold candidate dec3F
  simp only [em, ek, e1, e2, e3, e4, e5, e6, beq_toNat]
theorem decodes_hntMod (code arg : Nat) : Decodes (.hntMod code arg) := by
  intro h wd hw
  unfold wellFormed at h
  simp only [Bool.and_eq_true, decide_eq_true_eq] at h
  cases hw
  refine decodes_encHNT (by decide) (by omega) (fun wd em ek ep => ?_)
  have e1 : wd / 2 ^ 20 % 16 = code := by omega
  have e2 : wd % 2 ^ 20 = arg := by omega
  unfold candidate dec3F
  simp only [em, ek, e1, e2]

/-! ### Every instruction -/

theorem decodes (i : Instr) : Decodes i := by
  cases i
  case iadd g d a b | isub g d a b | imul g d a b | imulhi g d a b | imulhiU g d a b | imad g d a b | imin g d a b | iminU g d
      a b | imax g d a b | imaxU g d a b | iadds g d a b | iaddsU g d a b | isubs g d a b | isubsU g d a b | idot4 g d a b |
      lea g d a b => exact decodes_major01 g d a b _ (by simp)
  case iabs g d a | ineg g d a | not g d a | popc g d a | clz g d a | brev g d a | mov g d a => exact decodes_major02 g d a 0 _ (by simp)
  case and g d a b | or g d a b | xor g d a b | andn g d a b | shl g d a b | shr g d a b | sar g d a b | rotl g d a b | sel g
      d a b => exact decodes_major02 g d a b _ (by simp)
  case iaddImm g d a imm => exact decodes_major03 g d a imm
  case bfx g d a pos len => exact decodes_major04 g d a pos len
  case bfi g d a pos len => exact decodes_major05 g d a pos len
  case movi g d imm => exact decodes_major06 g d imm
  case movhi g d imm => exact decodes_major07 g d imm
  case fadd g d a b | fsub g d a b | fmul g d a b | ffma g d a b | fmin g d a b | fmax g d a b | fcpys g d a b => exact decodes_major08 g d a b _ (by simp)
  case fabs g d a | fneg g d a | fclass g d a => exact decodes_major08 g d a 0 _ (by simp)
  case frcp g d a | frsq g d a | fsqrt g d a | fexp2 g d a | flog2 g d a | ftanh g d a => exact decodes_major09 g d a _ (by simp)
  case hfma2Bf g d a b | hfma2H g d a b | hadd2Bf g d a b | hadd2H g d a b | hmul2Bf g d a b | hmul2H g d a b | hmax2Bf g d a
      b | hmax2H g d a b => exact decodes_major0A g d a b _ (by simp)
  case cvt g d a f k | cvti g d a f k | pack g d a f k | unpack g d a f k | qntv g d a f k | dqntv g d a f k | cvtef g d a f k
      => exact decodes_major10 g d a f k _ (by simp)
  case icmp g a b c => exact decodes_major14 g a b c
  case fcmp g a b c => exact decodes_major15 g a b c
  case ppush g a => exact decodes_major16 g a 0 0 0 _ (by simp)
  case ppop g => exact decodes_major16 g 0 0 0 0 _ (by simp)
  case pdup g i | pswap g i | pnot g i | prot g i | voteAny g i | voteAll g i => exact decodes_major16 g 0 i 0 0 _ (by simp)
  case pand g i j | por g i j | pxor g i j => exact decodes_major16 g 0 i j 0 _ (by simp)
  case ptov g d i | voteBallot g d i => exact decodes_major16 g 0 i 0 d _ (by simp)
  case gmov g d a | gread g d a => exact decodes_major18 g d a 0 .eq _ (by simp)
  case gadd g d a b | gsub g d a b | gmul g d a b | gand g d a b | gor g d a b | gshl g d a b | gshr g d a b => exact decodes_major18 g d a b .eq _ (by simp)
  case gcmp g a b c => exact decodes_major18 g 0 a b c _ (by simp)
  case gmovi g d imm => exact decodes_major19 g d imm
  case gld g d b off | gst g d b off => exact decodes_major1A g d b off _ (by simp)
  case bra g imm => exact decodes_major1C g imm
  case call g d imm => exact decodes_major1D g d imm
  case brx g a | ret g a | sleep g a => exact decodes_major1E g a 0 _ (by simp)
  case callx g d a => exact decodes_major1E g a d _ (by simp)
  case exit g | yield g | nop g => exact decodes_major1E g 0 0 _ (by simp)
  case rgn g d mask => exact decodes_major1F g d mask
  case ld g d b off sz sx => exact decodes_major20 g d b off sz sx 0 _ (by simp)
  case ldAcq g d b lvl sz sx => exact decodes_major20 g d b 0 sz sx lvl _ (by simp)
  case st g d b off sz => exact decodes_major21 g d b off sz 0 _ (by simp)
  case stRel g d b lvl sz => exact decodes_major21 g d b 0 sz lvl _ (by simp)
  case ldc g d b off sz | stc g d b off sz => exact decodes_major22 g d b off sz _ (by simp)
  case ldk g d b off sz | stk g d b off sz => exact decodes_major23 g d b off sz _ (by simp)
  case ldl g d b off sz | stl g d b off sz => exact decodes_major24 g d b off sz _ (by simp)
  case ldm g d b n | stm g d b n => exact decodes_major25 g d b n 0 .core 0 0 _ (by simp)
  case ldt g t sp b off | stt g t sp b off => exact decodes_major25 g 0 b 0 t sp off 0 _ (by simp)
  case ldsc g d b f => exact decodes_major25 g d b 0 0 .core 0 f _ (by simp)
  case atom g d b lvl op => exact decodes_major26 g d b lvl op _ (by simp)
  case cas g d b lvl => exact decodes_major26 g d b lvl .add _ (by simp)
  case ldx g d b c => exact decodes_major27 g d b c false 0 .inv _ (by simp)
  case pref g die b off => exact decodes_major27 g 0 b 0 die off .inv _ (by simp)
  case cctl g op b off => exact decodes_major27 g 0 b 0 false off op _ (by simp)
  case sfillA g d b off | sfillB g d b off => exact decodes_major28 g d b off _ (by simp)
  case mbinit g a b | mbexpect g a b | mbtest g a b => exact decodes_major29 g a b 0 _ (by simp)
  case mbarrive g a => exact decodes_major29 g a 0 0 _ (by simp)
  case mbwait g d a b => exact decodes_major29 g a b d _ (by simp)
  case waitc g c n => exact decodes_major2A g c n 0 _ (by simp)
  case cntrd g d c => exact decodes_major2A g c 0 d _ (by simp)
  case cvdecl g v a => exact decodes_major2C g v a false false 0 0 0 false _ (by simp)
  case cvsign g v => exact decodes_major2C g v 0 false false 0 0 0 false _ (by simp)
  case mma g ka kb c fa fb v => exact decodes_major2C g v 0 ka kb c fa fb false _ (by simp)
  case procfg g s64 => exact decodes_major2C g 0 0 false false 0 0 0 s64 _ (by simp)
  case accrdT g d c f h => exact decodes_major2D g d c f h 0 _ (by simp)
  case accrdV g d c f | accrdC g d c f => exact decodes_major2D g d c f 0 0 _ (by simp)
  case accwr g c a => exact decodes_major2D g 0 c 0 0 a _ (by simp)
  case accz g c => exact decodes_major2D g 0 c 0 0 0 _ (by simp)
  case sbindT g d a f => exact decodes_major2E g d a f 0 0 0 false _ (by simp)
  case sbindV g d a => exact decodes_major2E g d a 0 0 0 0 false _ (by simp)
  case sunbindT g d | sunbindV g d => exact decodes_major2E g d 0 0 0 0 0 false _ (by simp)
  case stagrd g d x k => exact decodes_major2E g d 0 0 x k 0 false _ (by simp)
  case smov g d a n => exact decodes_major2E g d a 0 0 0 n false _ (by simp)
  case smul g d a n band | sadd g d a n band | smax g d a n band => exact decodes_major2E g d a 0 0 0 n band _ (by simp)
  case sld g d b off | sst g d b off => exact decodes_major2F g d b off _ (by simp)
  case launch g lvl x y | tsplit g lvl x y => exact decodes_major30 g lvl x y false false _ (by simp)
  case tsplitX g x y => exact decodes_major30 g 0 x y false false _ (by simp)
  case evqrd g lvl x y m w => exact decodes_major30 g lvl x y m w _ (by simp)
  case bar g lvl | fenceRel g lvl | fenceAcq g lvl | fenceAcqrel g lvl | fenceSc g lvl => exact decodes_major31 g lvl _ (by simp)
  case mcopyDown g lvl x y r | mcopyUp g lvl x y r => exact decodes_major32 g lvl x y r _ (by simp)
  case reduce g lvl x y op one r => exact decodes_major33 g lvl x y op one r
  case cmbopen g d a | cmbwait g d a | cmbwaitBatch g d a => exact decodes_major34 g d a 0 0 _ (by simp)
  case cmbput g d a b => exact decodes_major34 g d a b 0 _ (by simp)
  case cmbclose g a | cmbcloseDrop g a => exact decodes_major34 g 0 a 0 0 _ (by simp)
  case cmbstat g d a s => exact decodes_major34 g d a 0 s _ (by simp)
  case coll g d a op => exact decodes_major36 g d a op _ (by simp)
  case collwait g d a | collq g d a | laydef g d a => exact decodes_major36 g d a .copy _ (by simp)
  case trap g c => exact decodes_major38 g c 0 0 false 0 _ (by simp)
  case tret g => exact decodes_major38 g 0 0 0 false 0 _ (by simp)
  case tretAbort g a => exact decodes_major38 g 0 a 0 false 0 _ (by simp)
  case sread g d u s | swrite g d u s => exact decodes_major38 g 0 0 d u s _ (by simp)
  case winsel g a => exact decodes_major39 g a 0 0 _ (by simp)
  case winrd g d a | winwr g d a => exact decodes_major39 g a d 0 _ (by simp)
  case oplrd g d a w => exact decodes_major39 g a d w _ (by simp)
  case rqrd g d a | rqdrop g d a => exact decodes_major3A g d a _ (by simp)
  case rqinj g a | ctxswSave g a | ctxswRestore g a => exact decodes_major3A g 0 a _ (by simp)
  case halt g s | resume g s => exact decodes_major3B g s 0 0 _ (by simp)
  case tlbi g d a | tlbiW g d a => exact decodes_major3B g .team d a _ (by simp)
  case asidgen g d => exact decodes_major3B g .team d 0 _ (by simp)
  case hntWide imm => exact decodes_hntWide imm
  case hntSched rsvd y pv prio lv lat => exact decodes_hntSched rsvd prio lat y pv lv
  case hntMod code arg => exact decodes_hntMod code arg
  all_goals exact fun h => nomatch h

/-- Settles O56: the fields of an encoded word select its instruction, which then passes the checks of the decoder. -/
theorem decodeOfEncode : Obligations.DecodeOfEncode := by
  unfold Obligations.DecodeOfEncode
  intro i w h hw
  obtain ⟨hlt, hc⟩ := decodes i h w hw
  exact ⟨hlt, by simp [decodeWord, hc, h, hw]⟩

end Sys2Proof
end

section
/-! SUPPORT. Integer, logic and immediate instructions (R133 to R135): the word that each row writes is the word of the value
that its rule names. -/

namespace Sys2Proof.Machine

/-! ### Words of integers -/

theorem wrap32_toInt (x : Word) : wrap32 x.toInt = x := BitVec.ofInt_toInt
theorem wrap32_add (x y : Word) : wrap32 (x.toInt + y.toInt) = x + y := by
  simp only [wrap32, BitVec.ofInt_add, BitVec.ofInt_toInt]
theorem wrap32_sub (x y : Word) : wrap32 (x.toInt - y.toInt) = x - y := by
  simp only [wrap32, Int.sub_eq_add_neg, BitVec.ofInt_add, BitVec.ofInt_neg, BitVec.ofInt_toInt, BitVec.sub_eq_add_neg]
theorem wrap32_mul (x y : Word) : wrap32 (x.toInt * y.toInt) = x * y := by
  simp only [wrap32, BitVec.ofInt_mul, BitVec.ofInt_toInt]
theorem wrap32_neg (x : Word) : wrap32 (-x.toInt) = -x := by
  simp only [wrap32, BitVec.ofInt_neg, BitVec.ofInt_toInt]
theorem wrap32_abs (x : Word) : wrap32 |x.toInt| = if x.msb then -x else x := by
  rw [BitVec.msb_eq_toInt]
  simp only [decide_eq_true_eq]
  split
  · rw [abs_of_neg (by assumption), wrap32_neg]
  · rw [abs_of_nonneg (by omega), wrap32_toInt]
theorem wrap32_min (x y : Word) : wrap32 (min x.toInt y.toInt) = if x.slt y then x else y := by
  simp only [BitVec.slt_iff_toInt_lt]
  split
  · rw [min_eq_left (by omega), wrap32_toInt]
  · rw [min_eq_right (by omega), wrap32_toInt]
theorem wrap32_max (x y : Word) : wrap32 (max x.toInt y.toInt) = if x.slt y then y else x := by
  simp only [BitVec.slt_iff_toInt_lt]
  split
  · rw [max_eq_right (by omega), wrap32_toInt]
  · rw [max_eq_left (by omega), wrap32_toInt]
theorem ofNat_toNat_min (x y : Word) : BitVec.ofNat 32 (min x.toNat y.toNat) = if x.ult y then x else y := by
  simp only [BitVec.ult_iff_toNat_lt]
  split
  · rw [min_eq_left (by omega), BitVec.ofNat_toNat, BitVec.setWidth_eq]
  · rw [min_eq_right (by omega), BitVec.ofNat_toNat, BitVec.setWidth_eq]
theorem ofNat_toNat_max (x y : Word) : BitVec.ofNat 32 (max x.toNat y.toNat) = if x.ult y then y else x := by
  simp only [BitVec.ult_iff_toNat_lt]
  split
  · rw [max_eq_right (by omega), BitVec.ofNat_toNat, BitVec.setWidth_eq]
  · rw [max_eq_left (by omega), BitVec.ofNat_toNat, BitVec.setWidth_eq]
/-- `SatS` of R104 clamps, and raises SAT where the clamp changes its value. -/
theorem satS32_eq (x : Int) :
    satS32 x = (let y := max (-2 ^ 31) (min x (2 ^ 31 - 1)); (wrap32 y, if y = x then 0 else fSAT)) := by
  unfold satS32
  dsimp only
  split
  · rw [show max (-2 ^ 31) (min x (2 ^ 31 - 1)) = -2 ^ 31 by omega, if_neg (by omega)]; rfl
  · split
    · rw [show max (-2 ^ 31) (min x (2 ^ 31 - 1)) = 2 ^ 31 - 1 by omega, if_neg (by omega)]; rfl
    · rw [show max (-2 ^ 31) (min x (2 ^ 31 - 1)) = x by omega, if_pos rfl]; rfl
theorem satU32_eq (x : Int) :
    satU32 x = (let y := max 0 (min x (2 ^ 32 - 1)); (wrap32 y, if y = x then 0 else fSAT)) := by
  unfold satU32
  dsimp only
  split
  · rw [show max 0 (min x (2 ^ 32 - 1)) = 0 by omega, if_neg (by omega)]; rfl
  · split
    · rw [show max 0 (min x (2 ^ 32 - 1)) = 2 ^ 32 - 1 by omega, if_neg (by omega)]; rfl
    · rw [show max 0 (min x (2 ^ 32 - 1)) = x by omega, if_pos rfl]; rfl
theorem dot4_eq (x y : Word) : dot4 x y = (let p := fun k => (x.extractLsb' (8 * k) 8).toInt * (y.extractLsb' (8 * k) 8).toInt
    p 0 + p 1 + p 2 + p 3) := by
  simp [dot4, List.range, List.range.loop]

/-! ### Shifts and bits -/

theorem shlW_eq (x y : Word) : shlW x y = if y.toNat < 32 then BitVec.ofNat 32 (x.toNat * 2 ^ y.toNat) else 0 := by
  unfold shlW
  congr 1
  apply BitVec.eq_of_toNat_eq
  simp [Nat.shiftLeft_eq]
theorem shrW_eq (x y : Word) : shrW x y = if y.toNat < 32 then BitVec.ofNat 32 (x.toNat / 2 ^ y.toNat) else 0 := by
  unfold shrW
  congr 1
  apply BitVec.eq_of_toNat_eq
  rw [BitVec.toNat_ushiftRight, Nat.shiftRight_eq_div_pow, BitVec.toNat_ofNat,
    Nat.mod_eq_of_lt (Nat.lt_of_le_of_lt (Nat.div_le_self _ _) x.isLt)]
theorem sshiftRight_eq_wrap32 (x : Word) (n : Nat) : x.sshiftRight n = wrap32 (x.toInt / 2 ^ n) := by
  rw [← wrap32_toInt (x.sshiftRight n), BitVec.toInt_sshiftRight, Int.shiftRight_eq_div_pow]
  simp
theorem rotateLeft_eq (x : Word) {n : Nat} (h : n < 32) :
    x.rotateLeft n = BitVec.ofNat 32 (x.toNat * 2 ^ n + x.toNat / 2 ^ (32 - n)) := by
  have hlow : x.toNat / 2 ^ (32 - n) < 2 ^ n := by
    rw [Nat.div_lt_iff_lt_mul (by positivity), ← pow_add, Nat.add_sub_cancel' (by omega)]
    exact x.isLt
  apply BitVec.eq_of_getLsbD_eq
  intro i hi
  rw [BitVec.getLsbD_rotateLeft, BitVec.getLsbD_ofNat, Nat.mul_comm, Nat.testBit_two_pow_mul_add _ hlow, Nat.mod_eq_of_lt h]
  by_cases hn : i < n <;> simp [hi, hn, Nat.testBit_div_two_pow, BitVec.testBit_toNat, Nat.add_comm]

theorem popcW_eq (x : Word) : popcW x = (List.range 32).countP (fun k => x.getLsbD k) := List.countP_eq_length_filter.symm
theorem getLsbD_maskOf (ls : List Nat) (i : Nat) : (maskOf ls).getLsbD i = (decide (i < 32) && ls.contains i) := by
  have go : ∀ m : Word, (ls.foldl (fun m l => m ||| (1#32 <<< l)) m).getLsbD i = (m.getLsbD i || (decide (i < 32) && ls.contains i)) := by
    induction ls with
    | nil => simp
    | cons l r ih =>
      intro m
      rw [List.foldl_cons, ih]
      by_cases h : i = l
      · subst h; by_cases hi : i < 32 <;> simp [hi]
      · have hs : (1#32 <<< l).getLsbD i = false := by
          rcases Nat.lt_or_ge i l with hl | hl
          · simp [hl]
          · simp [show i - l ≠ 0 by omega]
        simp [h, hs]
  rw [maskOf, go]; simp
theorem brevW_eq (x : Word) : brevW x = x.reverse := by
  apply BitVec.eq_of_getLsbD_eq
  intro i hi
  rw [brevW, getLsbD_maskOf, BitVec.getLsbD_reverse, BitVec.getMsbD]
  simp [hi]
/-- R135: the bits of a field that stand below bit 32 replace those of the destination. -/
theorem bfi_eq (x y : Word) {pos len : Nat} (hp : pos < 32) :
    ((x &&& ~~~(BitVec.ofNat 32 ((2 ^ len - 1) * 2 ^ pos))) ||| ((y <<< pos) &&& BitVec.ofNat 32 ((2 ^ len - 1) * 2 ^ pos))) =
      (let n := min len (32 - pos)
      BitVec.ofNat 32 (x.toNat % 2 ^ pos + y.toNat % 2 ^ n * 2 ^ pos + x.toNat / 2 ^ (pos + n) * 2 ^ (pos + n))) := by
  apply BitVec.eq_of_getLsbD_eq
  intro i hi
  extract_lets n
  have e : x.toNat % 2 ^ pos + y.toNat % 2 ^ n * 2 ^ pos + x.toNat / 2 ^ (pos + n) * 2 ^ (pos + n) =
      2 ^ pos * (2 ^ n * (x.toNat / 2 ^ (pos + n)) + y.toNat % 2 ^ n) + x.toNat % 2 ^ pos := by ring
  rw [e, BitVec.getLsbD_ofNat, Nat.testBit_two_pow_mul_add _ (Nat.mod_lt _ (by positivity)),
    Nat.testBit_two_pow_mul_add _ (Nat.mod_lt _ (by positivity))]
  simp only [BitVec.getLsbD_or, BitVec.getLsbD_and, BitVec.getLsbD_not, BitVec.getLsbD_shiftLeft, BitVec.getLsbD_ofNat, hi,
    Nat.testBit_mul_two_pow, Nat.testBit_two_pow_sub_one, Nat.testBit_mod_two_pow, Nat.testBit_div_two_pow,
    BitVec.testBit_toNat, decide_true,
    Bool.true_and]
  rcases Nat.lt_or_ge i pos with h1 | h1
  · simp [h1]
  · rcases Nat.lt_or_ge (i - pos) n with h2 | h2
    · have : i - pos < len := by omega
      simp [h1, h2, this, Nat.not_lt.2 h1]
    · have h3 : ¬ i - pos < len := by omega
      have h4 : i - pos - n + (pos + n) = i := by omega
      simp [h3, h4, Nat.not_lt.2 h1, Nat.not_lt.2 h2]

/-! ### LEA -/

/-- R134: a 64-bit pair and a signed offset. -/
def leaInt (c : Ctx) (a b l : Nat) : Int := (c.rdV a l).toNat + 2 ^ 32 * (c.rdV (a + 1) l).toNat + (c.rdV b l).toInt
/-- One lane of `LEA`: the sum's halves go to a pair. -/
def Ctx.leaLane (c : Ctx) (d a b l : Nat) (c' : Ctx) : Ctx :=
  let x : DWord := BitVec.ofNat 64 (c.rdPairV a l) + (c.rdV b l).signExtend 64
  (c'.wrV d l (x.extractLsb' 0 32)).wrV (d + 1) l (x.extractLsb' 32 32)

theorem lea_sum (c : Ctx) (a b l : Nat) :
    BitVec.ofNat 64 (c.rdPairV a l) + (c.rdV b l).signExtend 64 = BitVec.ofInt 64 (leaInt c a b l) := by
  rw [leaInt, BitVec.ofInt_add]
  congr 1
theorem extract_lo (x : Int) : (BitVec.ofInt 64 x).extractLsb' 0 32 = wrap32 x := by
  apply BitVec.eq_of_toNat_eq
  simp only [BitVec.extractLsb'_toNat, BitVec.toNat_ofInt, wrap32]
  omega
theorem extract_hi (x : Int) : (BitVec.ofInt 64 x).extractLsb' 32 32 = wrap32 (x / 2 ^ 32) := by
  apply BitVec.eq_of_toNat_eq
  simp only [BitVec.extractLsb'_toNat, BitVec.toNat_ofInt, wrap32, Nat.shiftRight_eq_div_pow]
  omega
theorem lea_writes (g : Guard) (d a b : Nat) : WritesV (.lea g d a b) [d, d + 1] (fun c _ l n =>
    wrap32 (if n = d then leaInt c a b l else leaInt c a b l / 2 ^ 32)) noFlags := by
  refine writesV_of_perLane _ _ _ _ _ (fun c act l c' => c.leaLane d a b l c') (exec_lea_eq g d a b) ?effect ?frame ?value ?tags
  case effect =>
    intro s c act _
    simp only [State.hinted_cur, noFlags, setFlags_zero, Ctx.leaLane, Ctx.rdPairV, begun_rdV]
  case frame => exact fun c act l c' => ⟨(RegsOf.wrV _ _ _ _).trans (.wrV _ _ _ _), rfl, rfl, rfl, rfl⟩
  case value =>
    intro c act l c' hl n k hk
    simp only [Ctx.leaLane, lea_sum, extract_lo, extract_hi, Ctx.rdV_wrV _ _ _ _ _ _ hl hk, List.mem_cons, List.not_mem_nil, or_false]
    by_cases h1 : n = d + 1 <;> by_cases h2 : n = d <;> by_cases h3 : k = l <;> simp [h1, h2, h3]
  case tags =>
    intro c act l c' n
    simp only [Ctx.leaLane, Ctx.vtag_wrV, List.mem_cons, List.not_mem_nil, or_false]
    by_cases h1 : n = d + 1 <;> by_cases h2 : n = d <;> simp [h1, h2]

/-! ### Values of the shapes -/

theorem vecBin_gives {i : Instr} {d a b : Nat} {f : Word → Word → Word} {val : Ctx → Nat → Word}
    (he : ∀ s, exec i s = vecBin i d a b s f) (e : ∀ c l, f (c.rdV a l) (c.rdV b l) = val c l) : Writes1 i d val :=
  (vecBin_writes i d a b f he).of_eq e
theorem vecUn_gives {i : Instr} {d a : Nat} {f : Word → Word} {val : Ctx → Nat → Word}
    (he : ∀ s, exec i s = vecUn i d a s f) (e : ∀ c l, f (c.rdV a l) = val c l) : Writes1 i d val :=
  (vecUn_writes i d a f he).of_eq e
theorem vecFlag_gives {i : Instr} {d a b : Nat} {f : List Word → Word → Word → Word → Word × BitVec 6}
    {val : Ctx → Nat → Word × BitVec 6} (he : ∀ s, exec i s = vecFlag i d a b s f)
    (e : ∀ c l, f (c.lane l).hints (c.rdV d l) (c.rdV a l) (c.rdV b l) = val c l) : WritesF i d val :=
  (vecFlag_writes i d a b f he).of_eq e

/-! ### The statement -/

theorem integerArithmetic : Claims.IntegerArithmetic := by
  unfold Claims.IntegerArithmetic
  refine ⟨fun g d a b => vecBin_gives (exec_iadd_eq g d a b) fun c l => (wrap32_add _ _).symm,
    fun g d a b => vecBin_gives (exec_isub_eq g d a b) fun c l => (wrap32_sub _ _).symm,
    fun g d a b => vecBin_gives (exec_imul_eq g d a b) fun c l => (wrap32_mul _ _).symm,
    fun g d a b => vecBin_gives (exec_imulhi_eq g d a b) fun _ _ => rfl,
    fun g d a b => vecBin_gives (exec_imulhiU_eq g d a b) fun _ _ => rfl,
    fun g d a b => (vecFlag_gives (exec_imad_eq g d a b) (fun _ _ => rfl)).noFlags _ fun c l => ?imad,
    fun g d a b => vecBin_gives (exec_imin_eq g d a b) fun c l => (wrap32_min _ _).symm,
    fun g d a b => vecBin_gives (exec_iminU_eq g d a b) fun c l => (ofNat_toNat_min _ _).symm,
    fun g d a b => vecBin_gives (exec_imax_eq g d a b) fun c l => (wrap32_max _ _).symm,
    fun g d a b => vecBin_gives (exec_imaxU_eq g d a b) fun c l => (ofNat_toNat_max _ _).symm,
    fun g d a b => vecFlag_gives (exec_iadds_eq g d a b) fun c l => ?iadds,
    fun g d a b => vecFlag_gives (exec_iaddsU_eq g d a b) fun c l => ?iaddsU,
    fun g d a b => vecFlag_gives (exec_isubs_eq g d a b) fun c l => ?isubs,
    fun g d a b => vecFlag_gives (exec_isubsU_eq g d a b) fun c l => ?isubsU,
    fun g d a b => (vecFlag_gives (exec_idot4_eq g d a b) (fun _ _ => rfl)).noFlags _ fun c l => ?idot4⟩
  case imad => rw [wrap32, BitVec.ofInt_add, BitVec.ofInt_toInt, ← wrap32, wrap32_mul]
  case iadds => exact satS32_eq _
  case iaddsU => exact satU32_eq _
  case isubs => exact satS32_eq _
  case isubsU => exact satU32_eq _
  case idot4 =>
    dsimp only
    rw [dot4_eq]
    generalize (_ + _ : Int) = p
    rw [wrap32, BitVec.ofInt_add, BitVec.ofInt_toInt]

theorem logicAndShifts : Claims.LogicAndShifts := by
  unfold Claims.LogicAndShifts
  refine ⟨fun g d a => vecUn_gives (exec_iabs_eq g d a) fun c l => (wrap32_abs _).symm,
    fun g d a => vecUn_gives (exec_ineg_eq g d a) fun c l => (wrap32_neg _).symm,
    fun g d a b => vecBin_gives (exec_and_eq g d a b) fun _ _ => rfl,
    fun g d a b => vecBin_gives (exec_or_eq g d a b) fun _ _ => rfl,
    fun g d a b => vecBin_gives (exec_xor_eq g d a b) fun _ _ => rfl,
    fun g d a b => vecBin_gives (exec_andn_eq g d a b) fun _ _ => rfl,
    fun g d a => vecUn_gives (exec_not_eq g d a) fun _ _ => rfl,
    fun g d a b => vecBin_gives (exec_shl_eq g d a b) fun c l => shlW_eq _ _,
    fun g d a b => vecBin_gives (exec_shr_eq g d a b) fun c l => shrW_eq _ _,
    fun g d a b => vecBin_gives (exec_sar_eq g d a b) fun c l => sshiftRight_eq_wrap32 _ _,
    fun g d a b => vecBin_gives (exec_rotl_eq g d a b) fun c l => rotateLeft_eq _ (Nat.mod_lt _ (by decide)),
    fun g d a => vecUn_gives (exec_popc_eq g d a) fun c l => congrArg _ (popcW_eq _),
    fun g d a => vecUn_gives (exec_clz_eq g d a) fun c l => ?clz,
    fun g d a => vecUn_gives (exec_brev_eq g d a) fun c l => brevW_eq _,
    fun g d a b => perLane_writes _ d _ (exec_sel_eq g d a b) (fun c act l => by simp only [begun_rdV, begun_pred]),
    fun g d a => vecUn_gives (exec_mov_eq g d a) fun _ _ => rfl⟩
  case clz =>
    have h : (c.rdV a l).toNat = 0 ↔ c.rdV a l = 0 := by rw [← BitVec.toNat_inj]; rfl
    simp only [h]
    split <;> rfl

theorem immediatesAndLea : Claims.ImmediatesAndLea := by
  unfold Claims.ImmediatesAndLea
  refine ⟨lea_writes,
    fun g d a imm => (perLane_writes _ d (fun c l => c.rdV a l + BitVec.ofInt 32 (wideImm 10 imm (c.lane l).hints))
      (exec_iaddImm_eq g d a imm) (fun c act l => by simp only [begun_rdV, begun_lane])).of_eq fun c l => ?iadd,
    fun g d a pos len => vecUn_gives (exec_bfx_eq g d a pos len) fun _ _ => rfl,
    fun g d a pos len hp _ => (perLane_writes _ d _ (exec_bfi_eq g d a pos len) (fun c act l => by simp only [begun_rdV])).of_eq
      fun c l => bfi_eq _ _ hp,
    fun g d imm => perLane_writes _ d (fun c l => BitVec.ofInt 32 (wideImm 16 imm (c.lane l).hints)) (exec_movi_eq g d imm)
      (fun c act l => by simp only [begun_lane]),
    fun g d imm _ => perLane_writes _ d _ (exec_movhi_eq g d imm) (fun c act l => by simp only [begun_rdV])⟩
  case iadd => rw [wrap32, BitVec.ofInt_add, BitVec.ofInt_toInt]

/-- Settles O1: each instruction has one of the shapes of register instructions, with the word of its row. -/
theorem integerAndLogic : Obligations.IntegerAndLogic :=
  ⟨integerArithmetic, logicAndShifts, immediatesAndLea⟩

end Sys2Proof.Machine
end

section
/-! SUPPORT. Floating-point and packed-half instructions (R136 to R139): what an FP32 code reads as, and the values that the
rows of majors 0x08 to 0x0A write. -/

namespace Sys2Proof.Machine

/-! ### What an FP32 code reads as -/

theorem msb_eq_le (x : Word) : x.msb = decide (2 ^ 31 ≤ x.toNat) := by rw [BitVec.msb_eq_decide]
/-- R106, R107: an FP32 code is an infinity, a NaN or a finite value, by its bits below the sign. -/
theorem f32_eq (x : Word) : f32 x = if x.toNat % 2 ^ 31 = 0x7F800000 then .inf x.msb
    else if 0x7F800000 < x.toNat % 2 ^ 31 then .nan else floatVal .fp32 x.msb (x.toNat % 2 ^ 31) := by
  have h : x.toNat % 2 ^ 32 = x.toNat := Nat.mod_eq_of_lt x.isLt
  have e : f32 x = if x.toNat % 2 ^ 32 % 2 ^ 31 = 0x7F800000 then .inf (decide (2 ^ 31 ≤ x.toNat % 2 ^ 32))
    else if 0x7F800000 < x.toNat % 2 ^ 32 % 2 ^ 31 then .nan
    else floatVal .fp32 (decide (2 ^ 31 ≤ x.toNat % 2 ^ 32)) (x.toNat % 2 ^ 32 % 2 ^ 31) := rfl
  rw [e, h, msb_eq_le]
theorem floatVal_fin (f : Fmt) (n : Bool) (mag : Nat) : ∃ m e, floatVal f n mag = .fin n m e := by
  unfold floatVal
  dsimp only
  split <;> exact ⟨_, _, rfl⟩
theorem f32_isNaN (x : Word) : (f32 x).isNaN = decide (0x7F800000 < x.toNat % 2 ^ 31) := by
  rw [f32_eq]
  generalize x.toNat % 2 ^ 31 = mag
  split
  · next h => simp [FVal.isNaN, h]
  · split
    · next h => simp [FVal.isNaN, h]
    · next h =>
      obtain ⟨m, e, hf⟩ := floatVal_fin .fp32 x.msb mag
      rw [hf]; simp [FVal.isNaN, h]
theorem f32_sign {x : Word} (h : (f32 x).isNaN = false) : (f32 x).sign = x.msb := by
  rw [f32_isNaN] at h
  rw [f32_eq]
  split
  · rfl
  · obtain ⟨m, e, hf⟩ := floatVal_fin .fp32 x.msb (x.toNat % 2 ^ 31)
    rw [if_neg (of_decide_eq_false h), hf]; rfl

/-! ### Comparison and signs -/

/-- Of two values of opposite signs, the negative one first, none is below the other only where both are zeros. -/
theorem eqV_of_signs {a b : FVal} (ha : a.isNaN = false) (hb : b.isNaN = false) (hs : a.sign = true) (ht : b.sign = false) :
    (ltV a b || eqV a b) = (ltV a b || (a.isZero && b.isZero)) := by
  cases a with
  | nan => cases ha
  | inf n =>
    cases b with
    | nan => cases hb
    | inf k => simp_all [FVal.sign, ltV]
    | fin k y d => simp_all [FVal.sign, ltV]
  | fin n x e =>
    cases b with
    | nan => cases hb
    | inf k => simp_all [FVal.sign, ltV]
    | fin k y d =>
      obtain rfl : n = true := hs
      obtain rfl : k = false := ht
      have hx : x * 2 ^ (e - min e d).toNat = 0 ↔ x = 0 := by simp
      have hy : y * 2 ^ (d - min e d).toNat = 0 ↔ y = 0 := by simp
      have hlt : ltV (.fin true x e) (.fin false y d) = decide (¬ (x = 0 ∧ y = 0)) := by
        simp only [ltV, scaledInt, decide_eq_decide, if_true, Bool.false_eq_true, if_false]
        omega
      by_cases h0 : x = 0 ∧ y = 0
      · obtain ⟨rfl, rfl⟩ := h0
        have hgt : ltV (.fin false 0 d) (.fin true 0 e) = false := by simp [ltV, scaledInt]
        simp [hlt, hgt, eqV, FVal.isNaN, FVal.isZero]
      · simp [hlt, h0]
/-- R137: the order of `FMIN` and `FMAX` on FP32 codes that are no NaNs. -/
theorem ltMinMax_f32 {x y : Word} (hx : (f32 x).isNaN = false) (hy : (f32 y).isNaN = false) :
    ltMinMax (f32 x) (f32 y) = (ltV (f32 x) (f32 y) || ((f32 x).isZero && (f32 y).isZero && x.msb && !y.msb)) := by
  unfold ltMinMax
  rw [f32_sign hx, f32_sign hy]
  by_cases hs : x.msb = true ∧ y.msb = false
  · have := eqV_of_signs hx hy (by rw [f32_sign hx, hs.1]) (by rw [f32_sign hy, hs.2])
    simpa [hs.1, hs.2] using this
  · cases hm : x.msb <;> cases hn : y.msb <;> simp_all
theorem fmin_code (x y : Word) : BitVec.ofNat 32 (minCodeOf .fp32 x.toNat y.toNat) =
    if (f32 x).isNaN && (f32 y).isNaN then 0x7FC00000 else if (f32 x).isNaN then y else if (f32 y).isNaN then x
    else if ltV (f32 x) (f32 y) || ((f32 x).isZero && (f32 y).isZero && x.msb && !y.msb) then x else y := by
  show BitVec.ofNat 32 (if (f32 x).isNaN && (f32 y).isNaN then 0x7FC00000 else if (f32 x).isNaN then y.toNat
    else if (f32 y).isNaN then x.toNat else if ltMinMax (f32 x) (f32 y) then x.toNat else y.toNat) = _
  cases hx : (f32 x).isNaN <;> cases hy : (f32 y).isNaN <;> simp only [Bool.false_and, Bool.true_and, Bool.false_eq_true, if_false, if_true]
  · rw [ltMinMax_f32 hx hy]; split <;> simp
  · simp
  · simp
  · rfl
theorem fmax_code (x y : Word) : BitVec.ofNat 32 (maxCodeOf .fp32 x.toNat y.toNat) =
    if (f32 x).isNaN && (f32 y).isNaN then 0x7FC00000 else if (f32 x).isNaN then y else if (f32 y).isNaN then x
    else if ltV (f32 x) (f32 y) || ((f32 x).isZero && (f32 y).isZero && x.msb && !y.msb) then y else x := by
  show BitVec.ofNat 32 (if (f32 x).isNaN && (f32 y).isNaN then 0x7FC00000 else if (f32 x).isNaN then y.toNat
    else if (f32 y).isNaN then x.toNat else if ltMinMax (f32 x) (f32 y) then y.toNat else x.toNat) = _
  cases hx : (f32 x).isNaN <;> cases hy : (f32 y).isNaN <;> simp only [Bool.false_and, Bool.true_and, Bool.false_eq_true, if_false, if_true]
  · rw [ltMinMax_f32 hx hy]; split <;> simp
  · simp
  · simp
  · rfl

theorem and_magnitude (x : Word) : x &&& 0x7FFFFFFF = BitVec.ofNat 32 (x.toNat % 2 ^ 31) := by
  apply BitVec.eq_of_toNat_eq
  have : x.toNat &&& (2 ^ 31 - 1) = x.toNat % 2 ^ 31 := Nat.and_two_pow_sub_one_eq_mod _ _
  rw [BitVec.toNat_and, BitVec.toNat_ofNat]
  show x.toNat &&& (2 ^ 31 - 1) = _
  omega
theorem and_signBit (y : Word) : (y &&& 0x80000000).toNat = if y.msb then 2 ^ 31 else 0 := by
  have h : (0x80000000 : Word) = BitVec.twoPow 32 31 := by decide
  rw [h, BitVec.and_twoPow, BitVec.msb_eq_getLsbD_last]
  cases y.getLsbD 31 <;> rfl
theorem xor_signBit (x : Word) : x ^^^ 0x80000000 = x + 0x80000000 := by
  apply BitVec.eq_of_getLsbD_eq
  intro i hi
  have hc : (0x80000000 : Word).getLsbD i = decide (i = 31) := by
    have h : (0x80000000 : Word) = BitVec.twoPow 32 31 := by decide
    rw [h, BitVec.getLsbD_twoPow]; simp; omega
  have hs : (x + 0x80000000).getLsbD i = (2 ^ 31 + x.toNat).testBit i := by
    rw [← BitVec.testBit_toNat, BitVec.toNat_add, Nat.testBit_mod_two_pow, Nat.add_comm]
    simp [hi]
  rw [BitVec.getLsbD_xor, hc, hs]
  rcases Nat.lt_or_ge i 31 with h | h
  · rw [Nat.testBit_two_pow_add_gt h, BitVec.testBit_toNat]; simp [Nat.ne_of_lt h]
  · obtain rfl : i = 31 := by omega
    rw [Nat.testBit_two_pow_add_eq, BitVec.testBit_toNat]; simp
theorem signOp_eq (x r : Word) : signOp x r = if 0x7F800000 < x.toNat % 2 ^ 31 then 0x7FC00000 else r := by
  unfold signOp
  simp only [f32_isNaN, decide_eq_true_eq]
theorem copySign_eq (x y : Word) : (x &&& 0x7FFFFFFF) ||| (y &&& 0x80000000) =
    BitVec.ofNat 32 (x.toNat % 2 ^ 31 + if y.msb then 2 ^ 31 else 0) := by
  apply BitVec.eq_of_toNat_eq
  have hl : x.toNat % 2 ^ 31 < 2 ^ 31 := Nat.mod_lt _ (by decide)
  rw [BitVec.toNat_or, and_magnitude, and_signBit, BitVec.toNat_ofNat, BitVec.toNat_ofNat, Nat.or_comm]
  split
  · have h := Nat.two_pow_add_eq_or_of_lt hl 1
    rw [Nat.mul_one] at h
    rw [Nat.mod_eq_of_lt (b := 2 ^ 32) (by omega)]
    omega
  · simp
/-- R137: the class of an FP32 code, by its exponent and fraction. -/
theorem fclassBit_eq (x : Word) :
    fclassBit x = (let e := x.toNat / 2 ^ 23 % 256
      let m := x.toNat % 2 ^ 23
      if e = 255 then (if m ≠ 0 then 8 else if x.msb then 0 else 7)
      else if e = 0 then (if m = 0 then (if x.msb then 3 else 4) else if x.msb then 2 else 5)
      else if x.msb then 1 else 6) := by
  unfold fclassBit
  extract_lets e m
  have hmag : x.toNat % 2 ^ 31 = 2 ^ 23 * e + m := by omega
  rw [f32_eq, hmag]
  by_cases h1 : e = 255
  · by_cases h2 : m = 0
    · simp [h1, h2]
    · rw [if_neg (by omega), if_pos (by omega)]; simp [h1, h2]
  · have he : e < 255 := by omega
    rw [if_neg (by omega), if_neg (by omega)]
    have hq : (2 ^ 23 * e + m) / 2 ^ Fmt.fp32.frac = e := by show _ / 2 ^ 23 = _; omega
    have hr : (2 ^ 23 * e + m) % 2 ^ Fmt.fp32.frac = m := by show _ % 2 ^ 23 = _; omega
    unfold floatVal
    dsimp only
    rw [hq, hr]
    by_cases h0 : e = 0
    · have : m < 8388608 := by omega
      simp [h0, this, Fmt.frac]
    · simp [h0, h1, Fmt.frac]

/-! ### Values of the shapes -/

theorem vecArith_gives {i : Instr} {d a b : Nat} {f : FVal → FVal → FVal → FVal × BitVec 6} {val : Ctx → Nat → Word × BitVec 6}
    (he : ∀ s, exec i s = vecArith i d a b s f)
    (e : ∀ c l, asWord (roundArith .fp32 (satHint (c.lane l).hints) (f (f32 (c.rdV a l)) (f32 (c.rdV b l)) (f32 (c.rdV d l))))
      = val c l) : WritesF i d val := vecFlag_gives he e
theorem vecHalf_gives {F : Fmt} {i : Instr} {d a b : Nat} {f : FVal → FVal → FVal → FVal × BitVec 6}
    {val : Ctx → Nat → Word × BitVec 6} (he : ∀ s, exec i s = vecHalf F i d a b s f)
    (e : ∀ c l, packHalves (fun h => roundArith F (satHint (c.lane l).hints)
      (f (readF F (halfOf (c.rdV a l) h)) (readF F (halfOf (c.rdV b l) h)) (readF F (halfOf (c.rdV d l) h)))) = val c l) :
    WritesF i d val := vecFlag_gives he e
theorem vecHalfMax_gives {F : Fmt} {i : Instr} {d a b : Nat} (he : ∀ s, exec i s = vecHalfMax F i d a b s) :
    Writes1 i d (fun c l => BitVec.ofNat 32 (maxCodeOf F (halfOf (c.rdV a l) 1) (halfOf (c.rdV b l) 1) * 65536
      + maxCodeOf F (halfOf (c.rdV a l) 0) (halfOf (c.rdV b l) 0))) := vecBin_gives he fun _ _ => rfl
theorem vecFunc_gives {i : Instr} {d a : Nat} {f : Nat → Nat × BitVec 6} (he : ∀ s, exec i s = vecFunc i d a s f) :
    WritesF i d (fun c l => asWord (f (c.rdV a l).toNat)) := vecFlag_gives he fun _ _ => rfl

/-! ### The statement -/

theorem floatArithmetic : Claims.FloatArithmetic := by
  unfold Claims.FloatArithmetic
  refine ⟨fun g d a b => vecArith_gives (exec_fadd_eq g d a b) fun _ _ => rfl,
    fun g d a b => vecArith_gives (exec_fsub_eq g d a b) fun _ _ => rfl,
    fun g d a b => vecArith_gives (exec_fmul_eq g d a b) fun _ _ => rfl,
    fun g d a b => vecArith_gives (exec_ffma_eq g d a b) fun _ _ => rfl,
    fun g d a b => vecBin_gives (exec_fmin_eq g d a b) fun c l => fmin_code _ _,
    fun g d a b => vecBin_gives (exec_fmax_eq g d a b) fun c l => fmax_code _ _,
    fun g d a => vecUn_gives (exec_fabs_eq g d a) fun c l => ?fabs,
    fun g d a => vecUn_gives (exec_fneg_eq g d a) fun c l => ?fneg,
    fun g d a b => vecBin_gives (exec_fcpys_eq g d a b) fun c l => ?fcpys,
    fun g d a => vecUn_gives (exec_fclass_eq g d a) fun c l => ?fclass⟩
  case fabs => rw [signOp_eq, and_magnitude]
  case fneg => rw [signOp_eq, xor_signBit]
  case fcpys => rw [signOp_eq, copySign_eq]
  case fclass => rw [fclassBit_eq]

theorem packedHalves : Claims.PackedHalves := by
  unfold Claims.PackedHalves
  exact ⟨fun g d a b => vecHalf_gives (exec_hfma2Bf_eq g d a b) fun _ _ => rfl,
    fun g d a b => vecHalf_gives (exec_hfma2H_eq g d a b) fun _ _ => rfl,
    fun g d a b => vecHalf_gives (exec_hadd2Bf_eq g d a b) fun _ _ => rfl,
    fun g d a b => vecHalf_gives (exec_hadd2H_eq g d a b) fun _ _ => rfl,
    fun g d a b => vecHalf_gives (exec_hmul2Bf_eq g d a b) fun _ _ => rfl,
    fun g d a b => vecHalf_gives (exec_hmul2H_eq g d a b) fun _ _ => rfl,
    fun g d a b => vecHalfMax_gives (exec_hmax2Bf_eq g d a b),
    fun g d a b => vecHalfMax_gives (exec_hmax2H_eq g d a b)⟩

theorem floatFunctions : Claims.FloatFunctions := by
  unfold Claims.FloatFunctions
  exact ⟨fun g d a => vecFunc_gives (exec_frcp_eq g d a),
    fun g d a => vecFunc_gives (exec_frsq_eq g d a),
    fun g d a => vecFunc_gives (exec_fsqrt_eq g d a),
    fun g d a => vecFunc_gives (exec_fexp2_eq g d a),
    fun g d a => vecFunc_gives (exec_flog2_eq g d a),
    fun g d a => vecFunc_gives (exec_ftanh_eq g d a)⟩

/-- Settles O2: each row is a register instruction with the rounded value of its rule. -/
theorem floatingPoint : Obligations.FloatingPoint := ⟨floatArithmetic, packedHalves, floatFunctions⟩

end Sys2Proof.Machine
end

section
/-! SUPPORT. Predicate and uniform instructions (R144 to R147): what the predicates of the acting lanes, and the one uniform
register, are afterwards. -/

namespace Sys2Proof.Machine

/-! ### Instructions that change the predicates of their acting lanes -/

theorem modLanes_keeps {β : Type} (p : Ctx → β) (hp : ∀ x l f, p (x.modLane l f) = p x) (c : Ctx) (ls : List Nat)
    (f : Nat → Lane → Lane) : p (c.modLanes ls f) = p c :=
  foldl_keeps p _ (fun x l => hp x l (f l)) ls c
/-- An instruction that replaces the predicate register of each acting lane. -/
theorem writesP_of_gate {i : Instr} {u : Ctx → List Nat → Nat → BitVec 8 → BitVec 8} {val : Ctx → List Nat → Nat → BitVec 8}
    {body : State → Ctx → List Nat → Eff} (he : ∀ s, exec i s = gate i s body)
    (hb : ∀ s c act, Issues s i c act → body (s.hinted i act) (c.begun i act) act = .ok ((s.hinted i act).modCtx s.cur.ctx
      (fun c' => c'.modLanes act (fun l x => { x with pred := u c act l x.pred }))))
    (e : ∀ c act l, u c act l (c.preds l) = val c act l) : WritesP i val := by
  intro s c act h
  refine ⟨_, completes_of_gate h body (he s) _ (hb s c act h), RegsOf.depart _ _ _ _ _ ((RegsOf.begun c i act).trans (.modLanes _ _ _)),
    ?_, ?_, ?_, ?_, ?_, fun l => ?_⟩
  · rw [depart_v, modLanes_keeps Ctx.v (fun _ _ _ => rfl), begun_v]
  · rw [depart_vtags, modLanes_keeps Ctx.vtags (fun _ _ _ => rfl), begun_vtags]
  · rw [depart_g, modLanes_keeps Ctx.g (fun _ _ _ => rfl), begun_g]
  · rw [depart_flags, modLanes_keeps Ctx.fpflags (fun _ _ _ => rfl), begun_flags]
  · rw [depart_e, modLanes_keeps Ctx.e (fun _ _ _ => rfl), begun_e]
  · rw [depart_lane _ _ _ (cohort_nodup s c), Ctx.lane_modLanes _ h.nodup, begun_lane]
    by_cases hl : l ∈ act
    · simp [hl, h.mem hl, ← e, Ctx.preds]
    · by_cases hc : l ∈ s.cohort c <;> simp [hl, hc, Ctx.preds]
theorem pushLanes_gives {i : Instr} {f : Ctx → Nat → Bool} {b : Ctx → Nat → Bool} (he : ∀ s, exec i s = pushLanes i s f)
    (hf : ∀ c act l, f (c.begun i act) l = f c l) (e : ∀ c l, f c l = b c l) :
    WritesP i (fun c _ l => pushed (c.preds l) (b c l)) :=
  writesP_of_gate (u := fun c _ l p => pushed p (f c l)) he (fun s c act _ => by simp only [State.hinted_cur, hf]; rfl)
    (fun c _ l => by rw [e])
theorem pushAll_gives {i : Instr} {r : Ctx → List Nat → Bool} {b : Ctx → List Nat → Bool}
    (he : ∀ s, exec i s = gate i s (fun s c act => .ok (s.modCtx s.cur.ctx (fun c' => c'.pushAll act (r c act)))))
    (hr : ∀ c act, r (c.begun i act) act = r c act) (e : ∀ c act, r c act = b c act) :
    WritesP i (fun c act l => pushed (c.preds l) (b c act)) :=
  writesP_of_gate (u := fun c act _ p => pushed p (r c act)) he (fun s c act _ => by simp only [State.hinted_cur, hr]; rfl)
    (fun c act l => by rw [e])
theorem predLanes_gives {i : Instr} {f : BitVec 8 → BitVec 8} (he : ∀ s, exec i s = predLanes i s f) :
    WritesP i (fun c _ l => f (c.preds l)) :=
  writesP_of_gate (u := fun c _ l _ => f (c.preds l)) he (fun s c act _ => by simp only [State.hinted_cur, begun_lane]; rfl)
    (fun _ _ _ => rfl)

/-! ### Bits of a rearranged predicate register -/

theorem getLsbD_foldl_or (ls : List Nat) (m : BitVec 8) {n : Nat} (hn : n < 8) :
    (ls.foldl (fun m k => m ||| (1#8 <<< k)) m).getLsbD n = (m.getLsbD n || ls.contains n) := by
  induction ls generalizing m with
  | nil => simp
  | cons k r ih =>
    have hk : (1#8 <<< k).getLsbD n = decide (n = k) := by
      rcases Nat.lt_trichotomy n k with h | h | h
      · simp [h, Nat.ne_of_lt h]
      · subst h; simp [hn]
      · simp [hn, Nat.ne_of_gt h, Nat.not_lt_of_gt h, Nat.sub_ne_zero_of_lt h]
    rw [List.foldl_cons, ih, BitVec.getLsbD_or, hk]
    simp [Bool.or_assoc]
theorem getLsbD_swapPred (i : Nat) (p : BitVec 8) {n : Nat} (hn : n < 8) :
    (swapPred i p).getLsbD n = if n = 0 then p.getLsbD i else if n = i then p.getLsbD 0 else p.getLsbD n := by
  unfold swapPred
  rw [getLsbD_foldl_or _ _ hn]
  by_cases h0 : n = 0 <;> by_cases h1 : n = i <;> simp [h0, h1, hn]
  omega
theorem getLsbD_rotateRight8 (p : BitVec 8) {i n : Nat} (hi : i < 8) (hn : n < 8) :
    (p.rotateRight i).getLsbD n = p.getLsbD ((n + i) % 8) := by
  rw [BitVec.getLsbD_rotateRight, Nat.mod_eq_of_lt hi]
  by_cases h : n < 8 - i
  · simp [h, Nat.mod_eq_of_lt (show i + n < 8 by omega), Nat.add_comm n]
  · have : (n + i) % 8 = n - (8 - i) := by omega
    simp [h, hn, this]

theorem exec_voteBallot_gate (g : Guard) (d i : Nat) (s : State) : exec (.voteBallot g d i) s =
    gate (.voteBallot g d i) s (fun s c act => .ok (s.modCtx s.cur.ctx (fun c' =>
      act.foldl (fun c' l => c'.wrV d l (maskOf (act.filter (fun l => c.pred l i)))) c'))) := rfl

/-- Settles O6: a compare or a predicate instruction replaces the predicate register of its acting lanes; `PTOV` and
`VOTE.ballot` write a register. -/
theorem compareAndPredicates : Obligations.CompareAndPredicates := by
  unfold Obligations.CompareAndPredicates
  refine ⟨fun g a b cc => pushLanes_gives (exec_icmp_eq g a b cc) (fun _ _ _ => by simp only [begun_rdV]) fun c l => ?icmp,
    fun g a b cc => pushLanes_gives (exec_fcmp_eq g a b cc) (fun _ _ _ => by simp only [begun_rdV]) fun _ _ => rfl,
    fun g a => pushLanes_gives (exec_ppush_eq g a) (fun _ _ _ => by simp only [begun_rdV]) fun c l => ?ppush,
    fun g => predLanes_gives (exec_ppop_eq g),
    fun g ix => pushLanes_gives (exec_pdup_eq g ix) (fun _ _ _ => by simp only [begun_pred]) fun _ _ => rfl,
    fun g ix => pushLanes_gives (exec_pnot_eq g ix) (fun _ _ _ => by simp only [begun_pred]) fun _ _ => rfl,
    fun g ix j => pushLanes_gives (exec_pand_eq g ix j) (fun _ _ _ => by simp only [begun_pred]) fun _ _ => rfl,
    fun g ix j => pushLanes_gives (exec_por_eq g ix j) (fun _ _ _ => by simp only [begun_pred]) fun _ _ => rfl,
    fun g ix j => pushLanes_gives (exec_pxor_eq g ix j) (fun _ _ _ => by simp only [begun_pred]) fun _ _ => rfl,
    fun g ix _ => ⟨_, predLanes_gives (exec_pswap_eq g ix), fun c _ l n hn => getLsbD_swapPred ix (c.preds l) hn⟩,
    fun g ix hix => ⟨_, predLanes_gives (exec_prot_eq g ix), fun c _ l n hn => getLsbD_rotateRight8 (c.preds l) hix hn⟩,
    fun g ix => pushAll_gives (exec_voteAny_eq g ix) (fun _ _ => by simp only [begun_pred]) fun _ _ => rfl,
    fun g ix => pushAll_gives (exec_voteAll_eq g ix) (fun _ _ => by simp only [begun_pred]) fun _ _ => rfl,
    fun g d ix => perLane_writes _ d _ (exec_ptov_eq g d ix) (fun _ _ _ => by simp only [begun_pred]),
    fun g d ix => writesV_one _ d _ noFlags _ (exec_voteBallot_gate g d ix) (fun s c act _ => ?ballot)⟩
  case icmp => cases cc <;> simp [icond, BitVec.slt, BitVec.sle, BitVec.ult, BitVec.ule, bne, BEq.beq]
  case ppush => simp [bne, BEq.beq]
  case ballot => simp only [State.hinted_cur, begun_pred, noFlags, setFlags_zero]

/-! ### Uniform instructions -/

/-- An instruction that writes one uniform register through its leader lane. -/
theorem uniformWrite_gives {i : Instr} {d : Nat} {f val : Ctx → Nat → Word} (he : ∀ s, exec i s = uniformWrite i d s f)
    (hf : ∀ c act l, f (c.begun i act) l = f c l) (e : ∀ c l, f c l = val c l) : WritesG i d val := by
  intro s c act h
  refine ⟨_, completes_of_once h _ (he s) (fun c' => c'.wrG d (f c (act.headD 0))) (by simp only [State.hinted_cur, hf]),
    RegsOf.depart _ _ _ _ _ ((RegsOf.begun c i act).trans (.wrG _ _ _)), ?_, fun n hn => ?_, ?_, ?_, ?_, ?_, fun l => ?_⟩
  · rw [depart_rdG, Ctx.rdG_wrG, if_pos rfl, e]
  · rw [depart_rdG, Ctx.rdG_wrG, if_neg hn, begun_rdG]
  · rw [depart_v, Ctx.wrG_v, begun_v]
  · rw [depart_vtags, Ctx.wrG_vtags, begun_vtags]
  · rw [depart_flags, Ctx.wrG_fpflags, begun_flags]
  · rw [depart_e, Ctx.wrG_e, begun_e]
  · have hw : ((c.begun i act).wrG d (f c (act.headD 0))).lane l = c.lane l := begun_lane c i act l
    rw [depart_lane _ _ _ (cohort_nodup s c), hw]
    rfl
theorem uniBin_gives {i : Instr} {d a b : Nat} {f : Word → Word → Word} {val : Ctx → Nat → Word}
    (he : ∀ s, exec i s = uniBin i d a b s f) (e : ∀ c l, f (c.rdG a) (c.rdG b) = val c l) : WritesG i d val :=
  uniformWrite_gives he (fun _ _ _ => by simp only [begun_rdG]) e

/-- Settles O7: uniform instructions write one register through their leader lane, `GMOV` a vector register, `GCMP` the
predicates. -/
theorem uniformArithmetic : Obligations.UniformArithmetic := by
  unfold Obligations.UniformArithmetic
  refine ⟨fun g d a => perLane_writes _ d _ (exec_gmov_eq g d a) (fun _ _ _ => by simp only [begun_rdG]),
    fun g d a b => uniBin_gives (exec_gadd_eq g d a b) fun _ _ => (wrap32_add _ _).symm,
    fun g d a b => uniBin_gives (exec_gsub_eq g d a b) fun _ _ => (wrap32_sub _ _).symm,
    fun g d a b => uniBin_gives (exec_gmul_eq g d a b) fun _ _ => (wrap32_mul _ _).symm,
    fun g d a b => uniBin_gives (exec_gand_eq g d a b) fun _ _ => rfl,
    fun g d a b => uniBin_gives (exec_gor_eq g d a b) fun _ _ => rfl,
    fun g d a b => uniBin_gives (exec_gshl_eq g d a b) fun _ _ => shlW_eq _ _,
    fun g d a b => uniBin_gives (exec_gshr_eq g d a b) fun _ _ => shrW_eq _ _,
    fun g d a => uniformWrite_gives (exec_gread_eq g d a) (fun _ _ _ => by simp only [begun_rdV]) fun _ _ => rfl,
    fun g d imm => uniformWrite_gives (exec_gmovi_eq g d imm) (fun _ _ _ => by simp only [begun_lane]) fun _ _ => rfl,
    fun g a b cc => pushAll_gives (exec_gcmp_eq g a b cc) (fun _ _ => by simp only [begun_rdG]) fun c _ => ?gcmp⟩
  case gcmp => cases cc <;> simp [gcond, BitVec.slt, BitVec.sle, bne, BEq.beq]

end Sys2Proof.Machine
end

section
/-! A machine in which nothing is on its way (`State.NoSlots`): what its reads and translations leave behind. -/

namespace Sys2Proof.Machine

theorem Sparse.mem_of_find_some {α : Type} {m : Sparse α} {n : Nat} {v : α} (h : Sparse.find m n = some v) : (n, v) ∈ m := by
  induction m with
  | nil => cases h
  | cons e r ih =>
    obtain ⟨j, w⟩ := e
    by_cases hj : n = j
    · simp_all [Sparse.find]
    · simp only [Sparse.find, hj, if_false] at h
      exact List.mem_cons_of_mem _ (ih h)
theorem Sparse.mem_put {α : Type} {m : Sparse α} {n : Nat} {v : α} {e : Nat × α} (h : e ∈ Sparse.put m n v) :
    e = (n, v) ∨ e ∈ m := by
  induction m with
  | nil => simpa [Sparse.put] using h
  | cons x r ih =>
    simp only [Sparse.put] at h
    split at h
    · simpa using h
    · split at h
      · rcases List.mem_cons.1 h with h | h <;> simp [h]
      · rcases List.mem_cons.1 h with h | h
        · simp [h]
        · rcases ih h with h | h <;> simp [h]

/-- A package in which nothing is on its way. -/
def Package.Quiet (q : Package) : Prop := q.slots = [] ∧ q.shadows = [] ∧ q.early = [] ∧ ∀ y ∈ q.dieLines, y.old = none

theorem State.noSlots_iff (s : State) : s.NoSlots ↔ ∀ e ∈ s.pkgs, e.2.Quiet := Iff.rfl
theorem State.NoSlots.quiet {s : State} (h : s.NoSlots) (p : Nat) : (s.pkg p).Quiet := by
  unfold State.pkg
  cases hf : Sparse.find s.pkgs p with
  | none => exact ⟨rfl, rfl, rfl, fun y hy => nomatch hy⟩
  | some q => exact h (p, q) (Sparse.mem_of_find_some hf)
theorem State.NoSlots.slots {s : State} (h : s.NoSlots) (p : Nat) : (s.pkg p).slots = [] := (h.quiet p).1
theorem State.NoSlots.of_pkgs {s t : State} (h : s.NoSlots) (e : t.pkgs = s.pkgs) : t.NoSlots := by
  unfold State.NoSlots; rw [e]; exact h
theorem State.NoSlots.modPkg {s : State} (h : s.NoSlots) (p : Nat) (f : Package → Package) (hf : (f (s.pkg p)).Quiet) :
    (s.modPkg p f).NoSlots := by
  intro e he
  rcases Sparse.mem_put he with rfl | he
  · exact hf
  · exact h e he
theorem State.NoSlots.modCtx {s : State} (h : s.NoSlots) (k : Nat) (f : Ctx → Ctx) : (s.modCtx k f).NoSlots := h
theorem State.NoSlots.modUnit {s : State} (h : s.NoSlots) (u : Nat) (f : WUnit → WUnit) : (s.modUnit u f).NoSlots := h
theorem State.NoSlots.modGrid {s : State} (h : s.NoSlots) (g : Nat) (f : Grid → Grid) : (s.modGrid g f).NoSlots := h

/-! ### Reads -/

theorem State.releaseSpan_noSlots {s : State} (h : s.NoSlots) (l : Loc) (n : Nat) : s.releaseSpan l n = s := by
  simp [State.releaseSpan, h.slots]
theorem State.homeRead_noSlots {s : State} (h : s.NoSlots) (l : Loc) (n : Nat) : s.homeRead l n = (s, s.rdBytes l n) := by
  simp [State.homeRead, State.releaseSpan_noSlots h]
theorem State.walkReads_noSlots {s : State} (h : s.NoSlots) (p die asid va : Nat) : s.walkReads p die asid va = s := by
  simp [State.walkReads, h.slots]

/-! ### Translation -/

/-- A state that differs from another in the translation caches of packages alone. -/
structure State.Cached (s t : State) : Prop where
  /-- nothing but the packages -/
  rest : t = { s with pkgs := t.pkgs }
  /-- of a package, its translation caches -/
  pkgs : ∀ p, t.pkg p = { s.pkg p with tlbs := (t.pkg p).tlbs, walks := (t.pkg p).walks }
  /-- nothing is on its way, as before -/
  quiet : s.NoSlots → t.NoSlots

theorem State.Cached.refl (s : State) : s.Cached s := ⟨rfl, fun _ => rfl, id⟩
theorem State.Cached.trans {s t u : State} (h : s.Cached t) (h' : t.Cached u) : s.Cached u where
  rest := by rw [h'.rest, h.rest]
  pkgs p := by rw [h'.pkgs, h.pkgs]
  quiet := h'.quiet ∘ h.quiet
theorem State.Cached.modPkg (s : State) (p : Nat) (f : Package → Package)
    (hf : ∀ q, f q = { q with tlbs := (f q).tlbs, walks := (f q).walks }) : s.Cached (s.modPkg p f) where
  rest := rfl
  pkgs q := by
    by_cases hq : q = p
    · subst hq; rw [State.pkg_modPkg_same]; exact hf _
    · simp [State.pkg_modPkg, hq]
  quiet h := h.modPkg p f (by rw [hf]; exact h.quiet p)
theorem State.Cached.sameBytes {s t : State} (h : s.Cached t) : SameBytes s t := by
  intro a; rw [h.rest]; cases a <;> rfl
theorem State.Cached.units {s t : State} (h : s.Cached t) : t.units = s.units := by rw [h.rest]
theorem State.Cached.grids {s t : State} (h : s.Cached t) : t.grids = s.grids := by rw [h.rest]
theorem State.Cached.ctxs {s t : State} (h : s.Cached t) : t.ctxs = s.ctxs := by rw [h.rest]
theorem State.Cached.msis {s t : State} (h : s.Cached t) : t.msis = s.msis := by rw [h.rest]
theorem State.Cached.hbm {s t : State} (h : s.Cached t) : t.hbm = s.hbm := by rw [h.rest]
theorem State.Cached.host {s t : State} (h : s.Cached t) : t.host = s.host := by rw [h.rest]
theorem State.Cached.cur {s t : State} (h : s.Cached t) : t.cur = s.cur := by rw [h.rest]

/-- Where nothing is on its way, a translation fills translation caches alone. -/
theorem State.translate_cached {s : State} (h : s.NoSlots) (y : Party) (va : Nat) (k : AccKind) :
    s.Cached (s.translate y va k).1 := by
  unfold State.translate
  dsimp only
  rw [State.walkReads_noSlots h]
  split
  · exact .refl s
  · split
    · dsimp only
      apply State.Cached.modPkg
      intro q
      rfl
    · exact .refl s
theorem State.translate_snd (s : State) (y : Party) (va : Nat) (k : AccKind) : (s.translate y va k).2 = s.xlate y va k := by
  unfold State.translate
  dsimp only
  split
  · rfl
  · split <;> rfl
theorem State.afterFetch_cached {s : State} (h : s.NoSlots) (c : Ctx) (pc : DWord) : s.Cached (s.afterFetch c pc) := by
  have ht := State.translate_cached h (s.partyOf c false) pc.toNat .fetch
  unfold State.afterFetch
  split <;> rename_i e <;> rw [e] at ht
  · simpa only [State.homeRead_noSlots (ht.quiet h)] using ht
  · exact ht

end Sys2Proof.Machine
end

section
/-! The machine after reset (chapter 22), and what one step runs (chapters 02, 06 and 13). -/

namespace Sys2Proof.Machine

/-- Settles O55: each word is decoded by evaluation. -/
theorem wordsDecode : Obligations.WordsDecode := by
  unfold Obligations.WordsDecode
  decide

/-! ### Reset -/

theorem State.rdByte_reset (a : Loc) : State.reset.rdByte a = 0 := by cases a <;> rfl
/-- After reset no package has been changed. -/
theorem State.pkg_reset (p : Nat) : State.reset.pkg p = freshPkg 0 := rfl
theorem freshPkg_reg (n off : Nat) : (freshPkg n).reg off = regReset none off := BitVec.zero_xor
/-- The registers whose Reset column is not 0. -/
theorem regReset_other {off : Nat} (h : off ∉ [0x0000, 0x0008, 0x0020, 0x0028, 0x0440, 0x0500, 0x0700]) :
    regReset none off = 0 := by
  unfold regReset
  split <;> simp_all

/-- Settles O53: a package that nothing has changed reads as the Reset columns say. -/
theorem resetState : Obligations.ResetState := by
  unfold Obligations.ResetState
  refine ⟨rfl, rfl, rfl, rfl, State.reset_memOk, SameBytes.refl _, State.rdByte_reset, fun p => ?_⟩
  simp only [State.pkg_reset, freshPkg_reg]
  refine ⟨rfl, rfl, rfl, rfl, rfl, rfl, rfl, rfl, rfl, rfl, rfl, fun o ho => regReset_other ho, ?_⟩
  exact ⟨rfl, rfl, rfl, rfl, rfl, rfl, rfl, rfl, rfl⟩

end Sys2Proof.Machine
end

section
/-! What one step runs (chapters 02, 06 and 13). -/

namespace Sys2Proof.Machine

/-! ### What an issue begins with -/

theorem Ctx.modLanes_lane_keeps {β : Type} (p : Lane → β) (f : Nat → Lane → Lane) (h : ∀ l x, p (f l x) = p x) (ls : List Nat)
    (c : Ctx) (n : Nat) : p ((c.modLanes ls f).lane n) = p (c.lane n) := by
  unfold Ctx.modLanes
  refine foldl_keeps (fun c : Ctx => p (c.lane n)) _ (fun c l => ?_) ls c
  by_cases hn : n = l
  · subst hn; simp [Ctx.lane_modLane, h]
  · simp [Ctx.lane_modLane, hn]
theorem Ctx.modLanes_only (c : Ctx) (ls : List Nat) (f : Nat → Lane → Lane) :
    c.modLanes ls f = { c with lanes := (c.modLanes ls f).lanes } :=
  foldl_induct (fun c' : Ctx => c' = { c with lanes := c'.lanes }) _ (fun _ _ h => by rw [h]; rfl) ls c rfl
theorem Ctx.passOvers_only (c : Ctx) (es coh : List Nat) : c.passOvers es coh = { c with lanes := (c.passOvers es coh).lanes } :=
  Ctx.modLanes_only ..
/-- Of a lane, only its pass-over count may change. -/
theorem Ctx.passOvers_lane (c : Ctx) (es coh : List Nat) (n : Nat) :
    (c.passOvers es coh).lane n = { c.lane n with passOver := ((c.passOvers es coh).lane n).passOver } :=
  have h := Ctx.modLanes_lane_keeps (fun x : Lane => { x with passOver := 0 }) (fun _ x => { x with passOver := x.passOver + 1 })
    (fun _ _ => rfl) (es.filter (fun l => !coh.contains l)) c n
  congrArg (fun x : Lane => { x with passOver := ((c.passOvers es coh).lane n).passOver }) h

/-- What a grant notes of its context: the scheduler's data of its core, and that its wait is over. -/
theorem State.noteGrant_eq (s : State) (k : Nat) : s.noteGrant k = s
    ∨ ∃ p f, s.noteGrant k = (s.modPkg p f).modCtx k (fun c => { c with readySince := none }) := by
  unfold State.noteGrant
  dsimp only
  split
  · exact .inr ⟨_, _, rfl⟩
  · exact .inl rfl

/-- A context whose lanes differ by their pass-over counts, and whose wait may be over. -/
structure Ctx.Granted (c c' : Ctx) : Prop where
  /-- nothing but lanes and the time since when it is ready -/
  rest : c' = { c with lanes := c'.lanes, readySince := c'.readySince }
  /-- of a lane, its pass-over count -/
  lane : ∀ l, c'.lane l = { c.lane l with passOver := (c'.lane l).passOver }
theorem Ctx.Granted.refl (c : Ctx) : c.Granted c := ⟨rfl, fun _ => rfl⟩
theorem Ctx.Granted.trans {c d e : Ctx} (h : c.Granted d) (h' : d.Granted e) : c.Granted e :=
  ⟨by rw [h'.rest, h.rest], fun l => by rw [h'.lane, h.lane]⟩
theorem Ctx.Granted.passOvers (c : Ctx) (es coh : List Nat) : c.Granted (c.passOvers es coh) :=
  ⟨(c.passOvers_only es coh).trans (by rw [c.passOvers_only es coh]), c.passOvers_lane es coh⟩

/-- A state in which one context has been granted: no byte, unit, grid or other context has changed. -/
structure State.Granting (s t : State) (k : Nat) : Prop where
  /-- no byte of storage -/
  bytes : SameBytes s t
  /-- no unit -/
  units : t.units = s.units
  /-- no grid -/
  grids : t.grids = s.grids
  /-- nor what is to happen -/
  agenda : t.agenda = s.agenda
  /-- nor the time -/
  cycle : t.cycle = s.cycle
  /-- no other context -/
  others : ∀ j, j ≠ k → t.ctx j = s.ctx j
  /-- the context that is granted -/
  granted : (s.ctx k).Granted (t.ctx k)
  /-- which stays -/
  found : Sparse.find s.ctxs k ≠ none → Sparse.find t.ctxs k ≠ none
theorem State.Granting.trans {s t u : State} {k : Nat} (h : s.Granting t k) (h' : t.Granting u k) : s.Granting u k where
  bytes := h.bytes.trans h'.bytes
  units := h'.units.trans h.units
  grids := h'.grids.trans h.grids
  agenda := h'.agenda.trans h.agenda
  cycle := h'.cycle.trans h.cycle
  others j hj := (h'.others j hj).trans (h.others j hj)
  granted := h.granted.trans h'.granted
  found := h'.found ∘ h.found
theorem State.Granting.of_cached {s t : State} (h : s.Cached t) (k : Nat) : s.Granting t k where
  bytes := h.sameBytes
  units := h.units
  grids := h.grids
  agenda := by rw [h.rest]
  cycle := by rw [h.rest]
  others j _ := by simp [State.ctx, h.ctxs]
  granted := by
    have : t.ctx k = s.ctx k := by simp [State.ctx, h.ctxs]
    rw [this]; exact .refl _
  found := by rw [h.ctxs]; exact id
theorem State.Granting.refl (s : State) (k : Nat) : s.Granting s k := .of_cached (.refl s) k
theorem State.Granting.modPkg (s : State) (p : Nat) (f : Package → Package) (k : Nat) : s.Granting (s.modPkg p f) k :=
  ⟨.modPkg s p f, rfl, rfl, rfl, rfl, fun _ _ => rfl, .refl _, id⟩
theorem State.Granting.modCtx (s : State) (k : Nat) (f : Ctx → Ctx) (hf : ∀ c : Ctx, c.Granted (f c)) : s.Granting (s.modCtx k f) k where
  bytes := .modCtx s k f
  units := rfl
  grids := rfl
  agenda := rfl
  cycle := rfl
  others := State.ctx_modCtx_ne s k f
  granted := by
    unfold State.ctx
    rw [State.find_modCtx, if_pos rfl]
    cases Sparse.find s.ctxs k with
    | none => exact .refl _
    | some c => exact hf c
  found h := by rw [State.find_modCtx, if_pos rfl]; simpa using h
theorem State.Granting.noteGrant (s : State) (k : Nat) : s.Granting (s.noteGrant k) k := by
  rcases s.noteGrant_eq k with h | ⟨p, f, h⟩ <;> rw [h]
  · exact .refl s k
  · exact (State.Granting.modPkg s p f k).trans (.modCtx _ k _ fun c => ⟨rfl, fun _ => rfl⟩)
theorem State.Granting.of_ctxs {s t u : State} {k : Nat} (h : s.Granting t k) (e : u = { t with cur := u.cur }) : s.Granting u k := by
  rw [e]; exact ⟨fun a => (by cases a <;> rfl : _ = t.rdByte a).trans (h.bytes a), h.units, h.grids, h.agenda, h.cycle, h.others, h.granted, h.found⟩

/-- R29, R329: an issue begins with the fetch's translations, the pass-overs and the grant noted. -/
theorem State.begin_granting {s : State} (h : s.NoSlots) (k : Nat) (iss : Issue) : s.Granting (s.begin k iss) k := by
  have h1 : s.Granting (s.afterFetch (s.ctx k) iss.pc) k := .of_cached (State.afterFetch_cached h ..) k
  unfold State.begin
  dsimp only
  split
  · exact ((h1.trans (.modCtx _ k _ fun x => .passOvers x _ _)).trans (.noteGrant _ k)).of_ctxs rfl
  · exact (h1.trans (.noteGrant _ k)).of_ctxs rfl

/-! ### The cycle that passes -/

theorem find_mapVals {α : Type} (m : Sparse α) (f : Nat → α → α) (n : Nat) :
    Sparse.find (mapVals m f) n = (Sparse.find m n).map (f n) := by
  induction m with
  | nil => rfl
  | cons e r ih =>
    obtain ⟨j, v⟩ := e
    unfold mapVals at ih ⊢
    by_cases h : n = j
    · subst h; simp [Sparse.find]
    · simp [Sparse.find, h, ih]
theorem Sparse.find_isSome_of_mem {α : Type} {m : Sparse α} {e : Nat × α} (h : e ∈ m) : (Sparse.find m e.1).isSome = true := by
  induction m with
  | nil => cases h
  | cons x r ih =>
    obtain ⟨j, w⟩ := x
    by_cases hj : e.1 = j
    · simp [Sparse.find, hj]
    · rcases List.mem_cons.1 h with rfl | h
      · exact absurd rfl hj
      · simpa [Sparse.find, hj] using ih h

/-- A package whose time stands where another's does. -/
structure Package.SameTime (q r : Package) : Prop where
  /-- the count -/
  count : r.count = q.count
  /-- the phase -/
  phase : r.phase = q.phase
  /-- the registers -/
  regs : r.regs = q.regs
  /-- and what they were reset to -/
  boot : r.boot = q.boot
theorem Package.SameTime.ticksOf {q r : Package} (h : q.SameTime r) : r.ticksOf = q.ticksOf := by
  unfold Package.ticksOf Package.fld Package.reg
  rw [h.phase, h.regs, h.boot]

/-- What charging the slots of packages leaves as it was. -/
structure State.Charged (s t : State) : Prop where
  /-- nothing but the packages changes -/
  rest : t = { s with pkgs := t.pkgs }
  /-- no package comes to be listed -/
  listed : ∀ p, (Sparse.find t.pkgs p).isSome = (Sparse.find s.pkgs p).isSome
  /-- and no time passes -/
  time : ∀ p, (s.pkg p).SameTime (t.pkg p)
theorem State.Charged.charge {s t : State} (h : s.Charged t) (iss : Issued) {p : Nat} (hp : (Sparse.find s.pkgs p).isSome = true) :
    s.Charged (t.charge p iss) where
  rest := by rw [h.rest]; rfl
  listed q := by
    by_cases hq : q = p
    · subst hq; simp [State.charge, State.modPkg, Sparse.find_put, hp]
    · simpa [State.charge, State.modPkg, Sparse.find_put, hq] using h.listed q
  time q := by
    by_cases hq : q = p
    · subst hq
      unfold State.charge
      rw [State.pkg_modPkg_same]
      exact ⟨(h.time q).count, (h.time q).phase, (h.time q).regs, (h.time q).boot⟩
    · simpa [State.charge, State.pkg_modPkg, hq] using h.time q
theorem State.Charged.foldl {s t : State} (h : s.Charged t) (iss : Issued) (l : List (Nat × Package))
    (hl : ∀ e ∈ l, (Sparse.find s.pkgs e.1).isSome = true) : s.Charged (l.foldl (fun s e => s.charge e.1 iss) t) := by
  induction l generalizing t with
  | nil => exact h
  | cons e r ih => exact ih (h.charge iss (hl e (by simp))) fun e he => hl e (by simp [he])
/-- The state in which a cycle has been charged. -/
def State.allCharged (s : State) (iss : Issued) : State := s.pkgs.foldl (fun s e => s.charge e.1 iss) s
theorem State.allCharged_charged (s : State) (iss : Issued) : s.Charged (s.allCharged iss) :=
  State.Charged.foldl ⟨rfl, fun _ => rfl, fun _ => ⟨rfl, rfl, rfl, rfl⟩⟩ iss _ fun _ => Sparse.find_isSome_of_mem

theorem State.tick_eq (s : State) (iss : Issued) : s.tick iss =
    { s.allCharged iss with
      cycle := s.cycle + 1
      ctxs := mapVals (s.allCharged iss).ctxs (fun _ (c : Ctx) => (s.allCharged iss).cycleCtx c)
      pkgs := mapVals (s.allCharged iss).pkgs (fun p (q : Package) => { q.passTicks with sampleOwed := (s.allCharged iss).samplesDue p q }) } := rfl
/-- A package that nothing has changed goes on counting at full clock (R5). -/
theorem freshPkg_ticks (n : Nat) : (freshPkg (n + 1)).count = (freshPkg n).count + (freshPkg n).ticksOf.1 := by
  have hf : (freshPkg n).fld 0x0028 47 40 = 120 := by
    unfold Package.fld
    rw [freshPkg_reg]
    rfl
  unfold Package.ticksOf
  rw [hf]
  simp only [freshPkg]
  omega
/-- R5, R17: in a cycle every package's count goes on by its ticks. -/
theorem State.tick_count (s : State) (iss : Issued) (p : Nat) :
    ((s.tick iss).pkg p).count = (s.pkg p).count + (s.pkg p).ticksOf.1 := by
  have h := s.allCharged_charged iss
  rw [State.tick_eq]
  unfold State.pkg
  dsimp only
  rw [find_mapVals]
  have hl := h.listed p
  have ht := h.time p
  unfold State.pkg at ht
  cases h1 : Sparse.find (s.allCharged iss).pkgs p with
  | none =>
    rw [h1] at hl
    cases h2 : Sparse.find s.pkgs p with
    | none => exact freshPkg_ticks s.cycle
    | some q => simp [h2] at hl
  | some q =>
    rw [h1] at ht
    simp only [Option.map_some, Option.getD_some, Package.passTicks] at ht ⊢
    rw [ht.count, ht.ticksOf]
theorem State.tick_rest (s : State) (iss : Issued) : (s.tick iss).cycle = s.cycle + 1 ∧ SameBytes s (s.tick iss)
    ∧ (s.tick iss).units = s.units ∧ (s.tick iss).grids = s.grids ∧ (s.tick iss).agenda = s.agenda := by
  rw [State.tick_eq, (s.allCharged_charged iss).rest]
  exact ⟨rfl, fun a => by cases a <;> rfl, rfl, rfl, rfl⟩

/-- What follows an issue before its cycle: the context's lanes have issued. -/
theorem State.finish_eq (s : State) (k : Nat) (i : Instr) (iss : Issue) (c : Ctx) :
    ∃ f sl, s.finish k i iss c = (s.modCtx k f).tick sl := by
  unfold State.finish
  dsimp only
  split
  · exact ⟨_, _, rfl⟩
  · exact ⟨_, _, congrArg (fun t => State.tick t _) (State.modCtx_modCtx ..)⟩

/-! ### What a step runs -/

/-- A context that fetches an instruction runs it, and a cycle passes. -/
theorem issueCtx_of_fetches {s : State} {k : Nat} {iss : Issue} {i : Instr} (h : Fetches s k iss i) :
    issueCtx k s = runIssue k i iss s := by
  obtain ⟨l, b, hl, hi⟩ := h.word
  have hw : s.instrAt (s.ctx k) iss.pc = some i := by simp [State.instrAt, State.fetchWord, hl, hi]
  have hs : (s.freshGrant (s.ctx k) && s.missesNow k i iss) = false := by
    rcases h.staged with h | h <;> simp [h]
  simp [issueCtx, h.granted, h.cohort, h.clear, hw, hs]
theorem runsAs_of_fetches {s : State} {k : Nat} {iss : Issue} {i : Instr} (h : Fetches s k iss i) : RunsAs s k iss i (issueCtx k s) := by
  rw [issueCtx_of_fetches h]
  constructor <;> intro t ht <;> simp [runIssue, ht]
/-- R29, R317: the context whose grant has a region miss holds its slot for 2 cycles. -/
theorem State.grantMiss_missAt {s : State} {k : Nat} (h : Sparse.find s.ctxs k ≠ none) (iss : Issue) :
    ((s.grantMiss k iss).ctx k).missAt = some (iss, s.cycle + 2) := by
  obtain ⟨c, hc⟩ := Option.ne_none_iff_exists'.1 h
  unfold State.grantMiss
  have hg := (State.Granting.noteGrant (s.modCtx k (fun c => { c.passOvers (s.eligible c) (lanesOf iss.lanes) with missAt := some (iss, s.cycle + 2) })) k).granted
  rw [hg.rest, State.ctx_modCtx s k _ c hc]

/-- Settles O54: the step's cases, the granting of an issue, and the cycle that ends it. -/
theorem stepRunsDecoded : Obligations.StepRunsDecoded := by
  unfold Obligations.StepRunsDecoded
  refine ⟨?agenda, ?turn, ?event, ?begins, ?finishes, ?miss⟩
  case agenda =>
    intro s k iss i r ha hf
    have : step s = issueCtx k { s with agenda := r } := by simp [step, nextStep, ha]
    rw [this]; exact runsAs_of_fetches hf
  case turn =>
    intro s k iss i ha hd ho ht hf
    have : step s = issueCtx k { s with focus := k + 1 } := by simp [step, nextStep, ha, freeStep, hd, ho, issueTurn, ht]
    rw [this]; exact runsAs_of_fetches hf
  case event =>
    intro s i r ha hi
    have : step s = runEvent i { s with agenda := r } := by simp [step, nextStep, ha, hi]
    constructor <;> intro t ht <;> simp [this, runEvent, ht]
  case begins =>
    intro s k iss hq _
    have h := State.begin_granting hq k iss
    exact ⟨rfl, h.bytes, h.units, h.grids, h.agenda, h.cycle, h.others, h.granted.rest, h.granted.lane⟩
  case finishes =>
    intro s k i iss c
    obtain ⟨f, sl, h⟩ := s.finish_eq k i iss c
    obtain ⟨hc, hb, hu, hg, ha⟩ := (s.modCtx k f).tick_rest sl
    rw [h]
    exact ⟨hc, (SameBytes.modCtx s k f).trans hb, hu, hg, ha, fun p => State.tick_count (s.modCtx k f) sl p⟩
  case miss =>
    intro s k iss i r l b s' ha hg hn hb hl hi hf hm
    have hw : s'.instrAt (s'.ctx k) iss.pc = some i := by simp [State.instrAt, State.fetchWord, hl, hi]
    refine ⟨?_, fun hk => State.grantMiss_missAt (s := s') hk iss⟩
    have : step s = issueCtx k s' := by simp [step, nextStep, ha, s']
    rw [this]
    simp [issueCtx, hg, hn, hb, hw, hf, hm]

end Sys2Proof.Machine
end

section
/-! Control flow and lane control, majors 0x1C to 0x1F, and hints (R89 to R94, R149, R306, R308, R309). -/

namespace Sys2Proof.Machine

/-! ### Trace records (R407) -/

/-- A state that differs from another in the trace records that package p has yet to write alone. -/
structure State.Traced (s t : State) (p : Nat) : Prop where
  /-- nothing but the packages -/
  rest : t = { s with pkgs := t.pkgs }
  /-- no other package -/
  others : ∀ q, q ≠ p → t.pkg q = s.pkg q
  /-- of the package, its records -/
  own : t.pkg p = { s.pkg p with traceq := (t.pkg p).traceq }
theorem State.Traced.refl (s : State) (p : Nat) : s.Traced s p := ⟨rfl, fun _ _ => rfl, rfl⟩
theorem State.Traced.trans {s t u : State} {p : Nat} (h : s.Traced t p) (h' : t.Traced u p) : s.Traced u p where
  rest := by rw [h'.rest, h.rest]
  others q hq := (h'.others q hq).trans (h.others q hq)
  own := by rw [h'.own, h.own]
theorem State.traceOne_traced (s : State) (c : Ctx) (kind lane pc target leaf : Nat) :
    s.Traced (s.traceOne c kind lane pc target leaf) c.pkg := by
  unfold State.traceOne
  dsimp only
  generalize (if kind ≤ 3 then _ else _) = on
  split
  · exact .refl s _
  · exact ⟨rfl, fun q hq => by simp [State.pkg_modPkg, hq], by rw [State.pkg_modPkg_same]⟩
theorem State.trace_traced (s : State) (c : Ctx) (kind : Nat) (ls : List Nat) (pc target : Nat → Nat) :
    s.Traced (s.trace c kind ls pc target) c.pkg := by
  unfold State.trace
  split
  · exact foldl_induct (fun t => s.Traced t c.pkg) _ (fun t l h => h.trans (t.traceOne_traced c ..)) ls s (.refl s _)
  · exact .refl s _
@[simp] theorem State.trace_cur (s : State) (c : Ctx) (kind : Nat) (ls : List Nat) (pc target : Nat → Nat) :
    (s.trace c kind ls pc target).cur = s.cur := by rw [(s.trace_traced c kind ls pc target).rest]
theorem State.Traced.ctxs {s t : State} {p : Nat} (h : s.Traced t p) : t.ctxs = s.ctxs := by rw [h.rest]

/-- Trace records written, and one context changed: nothing else is. -/
theorem State.Traced.elsewhere {s t : State} {p : Nat} (h : s.Traced t p) (k : Nat) (f : Ctx → Ctx) : Elsewhere s (t.modCtx k f) k p := by
  refine ⟨by rw [h.rest]; rfl, by rw [h.rest]; rfl, fun j hj => ?_, h.others, h.own, fun a => ?_⟩
  · rw [State.ctx_modCtx_ne _ _ _ _ hj, State.ctx, h.ctxs]; rfl
  · rw [rdByte_modCtx, h.rest]; cases a <;> rfl

theorem begun_pkg (c : Ctx) (i : Instr) (act : List Nat) : (c.begun i act).pkg = c.pkg := by
  unfold Ctx.begun; split <;> rfl

/-- An instruction that records its acting lanes and sets their PCs in its own context. -/
theorem traced_of_gate {s : State} {i : Instr} {c : Ctx} {act : List Nat} (h : Issues s i c act)
    (body : State → Ctx → List Nat → Eff) (he : exec i s = gate i s body) {t : State} (ht : (s.hinted i act).Traced t c.pkg) (F : Ctx → Ctx)
    (hb : body (s.hinted i act) (c.begun i act) act = .okPc (t.modCtx s.cur.ctx F)) :
    ∃ t', exec i s = .next t' ∧ Elsewhere s t' s.cur.ctx c.pkg
      ∧ t'.ctx s.cur.ctx = s.depart i ((s.cohort c).filter (fun l => !act.contains l)) (F (c.begun i act)) := by
  refine ⟨_, he.trans (gate_okPc h body hb), ?_, ?_⟩
  · have h1 : Elsewhere s ((s.hinted i act).modCtx s.cur.ctx id) s.cur.ctx c.pkg := by
      unfold State.hinted
      split
      · exact (State.Traced.refl s c.pkg).elsewhere _ _
      · rw [State.modCtx_modCtx]; exact (State.Traced.refl s c.pkg).elsewhere _ _
    obtain ⟨hu, hg, hc, hp, hq, hr⟩ := h1
    rw [State.modCtx_modCtx]
    obtain ⟨hu', hg', hc', hp', hq', hr'⟩ := ht.elsewhere s.cur.ctx (fun x => s.depart i ((s.cohort c).filter (fun l => !act.contains l)) (F x))
    refine ⟨hu'.trans hu, hg'.trans hg, fun j hj => ?_, fun q hq1 => (hp' q hq1).trans (hp q hq1), ?_, fun a => ?_⟩
    · have := hc j hj
      rw [State.ctx_modCtx_ne _ _ _ _ hj] at this
      exact (hc' j hj).trans this
    · rw [hq']
      have : (s.hinted i act).pkg c.pkg = s.pkg c.pkg := by unfold State.hinted; split <;> rfl
      rw [this]
    · exact (hr' a).trans ((rdByte_modCtx _ _ _ a).symm.trans (hr a))
  · have hf : Sparse.find t.ctxs s.cur.ctx = some (c.begun i act) := by
      rw [ht.ctxs]
      unfold State.hinted Ctx.begun
      split
      · exact h.found
      · rw [State.find_modCtx, if_pos rfl, h.found]; rfl
    rw [State.modCtx_modCtx, State.ctx_modCtx _ _ _ _ hf]

/-! ### Branches (R149) -/

/-- A branch taken in one lane, with the link that a call leaves. -/
def branchLane (link : Option Nat) (old : Ctx) (tgt : Nat → DWord) (c : Ctx) (l : Nat) : Ctx :=
  (match link with
    | none => c
    | some d => (c.wrV d l (((old.lane l).pc + 4).extractLsb' 0 32)).wrV (d + 1) l (((old.lane l).pc + 4).extractLsb' 32 32)).jump l (tgt l)
/-- The registers of the link. -/
def linkRegs : Option Nat → List Nat
  | none => []
  | some d => [d, d + 1]
/-- What a link writes into a register. -/
def linkWord (link : Option Nat) (pc : DWord) (n : Nat) : Word := if link = some n then pc.extractLsb' 0 32 else pc.extractLsb' 32 32

theorem branchLane_rdV (link : Option Nat) (old : Ctx) (tgt : Nat → DWord) (c : Ctx) (l : Nat) (hl : l < 32) (n k : Nat) (hk : k < 32) :
    (branchLane link old tgt c l).rdV n k = if n ∈ linkRegs link ∧ k = l then linkWord link ((old.lane l).pc + 4) n else c.rdV n k := by
  cases link with
  | none => simp [branchLane, linkRegs]; rfl
  | some d =>
    have : (branchLane (some d) old tgt c l).rdV n k = ((c.wrV d l (((old.lane l).pc + 4).extractLsb' 0 32)).wrV (d + 1) l
      (((old.lane l).pc + 4).extractLsb' 32 32)).rdV n k := rfl
    rw [this, Ctx.rdV_wrV _ _ _ _ _ _ hl hk, Ctx.rdV_wrV _ _ _ _ _ _ hl hk]
    by_cases hkl : k = l
    · by_cases h1 : n = d + 1
      · simp [hkl, h1, linkRegs, linkWord]
      · by_cases h2 : n = d <;> simp [hkl, h1, h2, linkRegs, linkWord]
    · simp [hkl]
theorem branchLane_vtags (link : Option Nat) (old : Ctx) (tgt : Nat → DWord) (c : Ctx) (l n : Nat) :
    Sparse.get 0 (branchLane link old tgt c l).vtags n =
      if n ∈ linkRegs link then Sparse.get 0 c.vtags n &&& 0x7FFF else Sparse.get 0 c.vtags n := by
  cases link with
  | none => simp [branchLane, linkRegs]; rfl
  | some d =>
    have : Sparse.get 0 (branchLane (some d) old tgt c l).vtags n = Sparse.get 0 ((c.wrV d l (((old.lane l).pc + 4).extractLsb' 0 32)).wrV (d + 1) l
      (((old.lane l).pc + 4).extractLsb' 32 32)).vtags n := rfl
    rw [this, Ctx.vtag_wrV, Ctx.vtag_wrV]
    by_cases h1 : n = d + 1
    · simp [h1, linkRegs]
    · by_cases h2 : n = d <;> simp [h1, h2, linkRegs]
theorem branchLane_regsOf (link : Option Nat) (old : Ctx) (tgt : Nat → DWord) (c : Ctx) (l : Nat) : RegsOf c (branchLane link old tgt c l) := by
  unfold branchLane Ctx.jump
  refine RegsOf.trans ?_ (.modLane _ _ _)
  split
  · exact .refl c
  · exact (RegsOf.wrV _ _ _ _).trans (.wrV _ _ _ _)
theorem branchLane_keeps {β : Type} (p : Ctx → β) (hw : ∀ (c : Ctx) n l x, p (c.wrV n l x) = p c)
    (hl : ∀ (c : Ctx) l f, p (c.modLane l f) = p c) (link : Option Nat) (old : Ctx) (tgt : Nat → DWord) (c : Ctx) (l : Nat) :
    p (branchLane link old tgt c l) = p c := by
  unfold branchLane Ctx.jump
  rw [hl]
  split
  · rfl
  · rw [hw, hw]
theorem foldl_branchLane_keeps {β : Type} (p : Ctx → β) (hw : ∀ (c : Ctx) n l x, p (c.wrV n l x) = p c)
    (hl : ∀ (c : Ctx) l f, p (c.modLane l f) = p c) (link : Option Nat) (old : Ctx) (tgt : Nat → DWord) (act : List Nat) (c : Ctx) :
    p (act.foldl (branchLane link old tgt) c) = p c :=
  foldl_keeps p _ (branchLane_keeps p hw hl link old tgt) act c
theorem branchLane_lane (link : Option Nat) (old : Ctx) (tgt : Nat → DWord) (c : Ctx) (l n : Nat) :
    (branchLane link old tgt c l).lane n = if n = l then { c.lane n with pc := tgt l, hints := [], wait := .none } else c.lane n := by
  unfold branchLane Ctx.jump
  rw [Ctx.lane_modLane]
  have : ∀ m, (match link with
      | none => c
      | some d => (c.wrV d l (((old.lane l).pc + 4).extractLsb' 0 32)).wrV (d + 1) l (((old.lane l).pc + 4).extractLsb' 32 32)).lane m = c.lane m := by
    intro m; cases link <;> rfl
  rw [this, this]
  split
  · next h => subst h; rfl
  · rfl
theorem foldl_branch_lane (act : List Nat) (hn : act.Nodup) (link : Option Nat) (old : Ctx) (tgt : Nat → DWord) (c : Ctx) (n : Nat) :
    (act.foldl (branchLane link old tgt) c).lane n =
      if n ∈ act then { c.lane n with pc := tgt n, hints := [], wait := .none } else c.lane n := by
  induction act generalizing c with
  | nil => simp
  | cons x r ih =>
    obtain ⟨hx, hr⟩ := List.nodup_cons.1 hn
    rw [List.foldl_cons, ih hr, branchLane_lane]
    by_cases h : n = x
    · subst h; simp [hx]
    · simp [h]
/-- The two words of a link are the two halves of the address. -/
theorem link_halves (x : DWord) : (x.extractLsb' 0 32).toNat + 2 ^ 32 * (x.extractLsb' 32 32).toNat = x.toNat := by
  have := x.isLt
  simp only [BitVec.extractLsb'_toNat, Nat.shiftRight_eq_div_pow]
  omega

/-- The context of a branch once it is taken. -/
def State.branched (s : State) (i : Instr) (c : Ctx) (act : List Nat) (link : Option Nat) (tgt : Nat → DWord) : Ctx :=
  s.depart i ((s.cohort c).filter (fun l => !act.contains l)) (act.foldl (branchLane link c tgt) (c.begun i act))
section
variable {s : State} {i : Instr} {c : Ctx} {act : List Nat} (link : Option Nat) (tgt : Nat → DWord)
theorem branched_onlyRegs : OnlyRegs c (s.branched i c act link tgt) :=
  RegsOf.depart _ _ _ _ _ ((RegsOf.begun c i act).trans (.foldl _ (branchLane_regsOf link c tgt) _ _))
theorem branched_g : (s.branched i c act link tgt).g = c.g := by
  unfold State.branched
  rw [depart_g, foldl_branchLane_keeps Ctx.g (fun _ _ _ _ => rfl) (fun _ _ _ => rfl), begun_g]
theorem branched_e : (s.branched i c act link tgt).e = c.e := by
  unfold State.branched
  rw [depart_e, foldl_branchLane_keeps Ctx.e (fun _ _ _ _ => rfl) (fun _ _ _ => rfl), begun_e]
theorem branched_flags : (s.branched i c act link tgt).fpflags = c.fpflags := by
  unfold State.branched
  rw [depart_flags, foldl_branchLane_keeps Ctx.fpflags (fun _ _ _ _ => rfl) (fun _ _ _ => rfl), begun_flags]
theorem branched_rdV (h : Issues s i c act) (n l : Nat) (hl : l < 32) : (s.branched i c act link tgt).rdV n l =
    if n ∈ linkRegs link ∧ l ∈ act then linkWord link ((c.lane l).pc + 4) n else c.rdV n l := by
  unfold State.branched
  rw [depart_rdV, foldl_rdV act (fun l hl => h.lt hl) _ _ (linkRegs link) (fun l n => linkWord link ((c.lane l).pc + 4) n)
    (fun c' l hl n k hk => branchLane_rdV _ _ _ _ _ hl _ _ hk) n l hl, begun_rdV]
theorem branched_vtags (h : Issues s i c act) (n : Nat) : Sparse.get 0 (s.branched i c act link tgt).vtags n =
    if n ∈ linkRegs link then Sparse.get 0 c.vtags n &&& 0x7FFF else Sparse.get 0 c.vtags n := by
  unfold State.branched
  rw [depart_vtags, foldl_vtags act h.some _ _ (linkRegs link) (fun c' l n => branchLane_vtags ..), begun_vtags]
theorem branched_keepsV (h : Issues s i c act) : KeepsV c (s.branched i c act link tgt) act (linkRegs link) :=
  ⟨fun n l hl hno => by rw [branched_rdV link tgt h n l hl, if_neg hno], branched_vtags link tgt h⟩
theorem branched_lane (h : Issues s i c act) (l : Nat) : (s.branched i c act link tgt).lane l =
    if l ∈ act then { c.lane l with pc := tgt l, hints := [], wait := .none }
      else if l ∈ s.cohort c then (c.lane l).onward else c.lane l := by
  unfold State.branched
  rw [depart_lane _ _ _ ((cohort_nodup s c).filter _), foldl_branch_lane act h.nodup, begun_lane]
  by_cases hl : l ∈ act
  · simp [hl]
  · by_cases hc : l ∈ s.cohort c <;> simp [hl, hc, Lane.onward]
end

/-- The trace records of lanes that go to targets. -/
def State.traceBranch (s : State) (kind : Nat) (c : Ctx) (act : List Nat) (tgt : Nat → DWord) : State :=
  s.trace c kind act (fun l => (c.lane l).pc.toNat % 2 ^ 57) (fun l => (tgt l).toNat % 2 ^ 57)
theorem State.traceBranch_traced (s : State) (kind : Nat) (c : Ctx) (act : List Nat) (tgt : Nat → DWord) :
    s.Traced (s.traceBranch kind c act tgt) c.pkg := State.trace_traced ..
/-- The effect of a branch instruction. -/
def branchEff (kind : Nat) (link : Option Nat) (tgt : Ctx → Nat → DWord) (s : State) (c : Ctx) (act : List Nat) : Eff :=
  .okPc ((s.traceBranch kind c act (tgt c)).modCtx s.cur.ctx (fun x => act.foldl (branchLane link c (tgt c)) x))
theorem branchLanes_eq (i : Instr) (kind : Nat) (s : State) (link : Option Nat) (tgt : Ctx → Nat → DWord) :
    branchLanes i kind s link tgt = gate i s (branchEff kind link tgt) := by
  unfold branchLanes
  congr 1
  funext s c act
  simp only [branchEff, State.traceBranch, State.trace_cur]
  cases link <;> rfl
theorem branchLane_begun (link : Option Nat) (c : Ctx) (i : Instr) (act : List Nat) :
    branchLane link (c.begun i act) = branchLane link c := by
  funext tgt x l
  unfold branchLane
  rw [begun_lane]

/-- A branch instruction goes to its targets. -/
theorem branchLanes_branches (i : Instr) (kind : Nat) (link : Option Nat) (tgt : Ctx → Nat → DWord)
    (he : ∀ s, exec i s = branchLanes i kind s link tgt) (ht : ∀ c act l, tgt (c.begun i act) l = tgt c l) : Branches i link tgt := by
  intro s c act h
  have hb : branchEff kind link tgt (s.hinted i act) (c.begun i act) act = .okPc
      (((s.hinted i act).traceBranch kind (c.begun i act) act (tgt c)).modCtx s.cur.ctx (fun x => act.foldl (branchLane link c (tgt c)) x)) := by
    have : tgt (c.begun i act) = tgt c := funext (ht c act)
    simp only [branchEff, State.hinted_cur, this, branchLane_begun]
  have htr := (s.hinted i act).traceBranch_traced kind (c.begun i act) act (tgt c)
  rw [begun_pkg] at htr
  obtain ⟨t, hx, hels, hctx⟩ := traced_of_gate h _ ((he s).trans (branchLanes_eq ..)) htr _ hb
  refine ⟨t, s.branched i c act link (tgt c), hx, hctx, hels, branched_onlyRegs .., branched_g .., branched_e .., branched_flags .., ?_, ?_,
    branched_lane link (tgt c) h⟩
  · cases link with
    | none => exact branched_keepsV none (tgt c) h
    | some d => exact branched_keepsV (some d) (tgt c) h
  · intro d hd l hl
    subst hd
    unfold Ctx.rdPairV
    rw [branched_rdV _ _ h _ _ (h.lt hl), branched_rdV _ _ h _ _ (h.lt hl)]
    have hne : ¬ d + 1 = d := by omega
    simp only [linkRegs, linkWord, hl, List.mem_cons, true_or, or_true, and_self, if_true]
    rw [if_neg (fun e => hne (Option.some.inj e).symm)]
    exact link_halves _

theorem begun_rdPairV (c : Ctx) (i : Instr) (act : List Nat) (n l : Nat) : (c.begun i act).rdPairV n l = c.rdPairV n l := by
  unfold Ctx.rdPairV; simp only [begun_rdV]
theorem branching : Claims.Branching := by
  unfold Claims.Branching
  refine ⟨fun g imm => ?_, fun g d imm => ?_, fun g a => ?_, fun g d a => ?_, fun g a => ?_⟩
  · exact branchLanes_branches _ 1 none _ (exec_bra_eq g imm) (fun c act l => by simp only [begun_lane])
  · exact branchLanes_branches _ 1 (some d) _ (exec_call_eq g d imm) (fun c act l => by simp only [begun_lane])
  · exact branchLanes_branches _ 1 none _ (exec_brx_eq g a) (fun c act l => by simp only [begun_rdPairV])
  · exact branchLanes_branches _ 1 (some d) _ (exec_callx_eq g d a) (fun c act l => by simp only [begun_rdPairV])
  · exact branchLanes_branches _ 2 none _ (exec_ret_eq g a) (fun c act l => by simp only [begun_rdPairV])

/-! ### Effects on lanes -/

theorem missCount_only (c : Ctx) (fs : DWord) (i : Instr) : c.missCount fs i = { c with misses := (c.missCount fs i).misses } := by
  unfold Ctx.missCount; split <;> rfl
/-- What a departure touches: the lanes and what the scheduler and the region counter keep of an issue. -/
theorem depart_only (s : State) (i : Instr) (coh : List Nat) (c : Ctx) : s.depart i coh c =
    { c with lanes := (s.depart i coh c).lanes, misses := (s.depart i coh c).misses, hold := none, withdrawn := false, missAt := none } := by
  unfold State.depart Ctx.unheld Ctx.advance
  rw [Ctx.modLanes_only, missCount_only]
theorem begun_only (c : Ctx) (i : Instr) (act : List Nat) :
    c.begun i act = { c with yld := (c.begun i act).yld, prio := (c.begun i act).prio } := by
  unfold Ctx.begun Ctx.schedule; split <;> rfl

/-- The context in which an effect has changed the acting lanes, and the rest of the cohort has moved on. -/
def State.lanesDone (s : State) (i : Instr) (c : Ctx) (act : List Nat) (f : Nat → Lane → Lane) : Ctx :=
  s.depart i ((s.cohort c).filter (fun l => !act.contains l)) ((c.begun i act).modLanes act f)
section
variable {s : State} {i : Instr} {c : Ctx} {act : List Nat} (f : Nat → Lane → Lane)
theorem lanesDone_onlyRegs : OnlyRegs c (s.lanesDone i c act f) :=
  RegsOf.depart _ _ _ _ _ ((RegsOf.begun c i act).trans (.modLanes _ _ _))
theorem lanesDone_v : (s.lanesDone i c act f).v = c.v := by
  unfold State.lanesDone; rw [depart_v, Ctx.modLanes_only]; exact begun_v c i act
theorem lanesDone_vtags : (s.lanesDone i c act f).vtags = c.vtags := by
  unfold State.lanesDone; rw [depart_vtags, Ctx.modLanes_only]; exact begun_vtags c i act
theorem lanesDone_g : (s.lanesDone i c act f).g = c.g := by
  unfold State.lanesDone; rw [depart_g, Ctx.modLanes_only]; exact begun_g c i act
theorem lanesDone_e : (s.lanesDone i c act f).e = c.e := by
  unfold State.lanesDone; rw [depart_e, Ctx.modLanes_only]; exact begun_e c i act
theorem lanesDone_flags : (s.lanesDone i c act f).fpflags = c.fpflags := by
  unfold State.lanesDone; rw [depart_flags, Ctx.modLanes_only]; exact begun_flags c i act
theorem lanesDone_lane (h : Issues s i c act) (l : Nat) : (s.lanesDone i c act f).lane l =
    if l ∈ act then f l (c.lane l) else if l ∈ s.cohort c then (c.lane l).onward else c.lane l := by
  unfold State.lanesDone
  rw [depart_lane _ _ _ ((cohort_nodup s c).filter _), Ctx.lane_modLanes act h.nodup, begun_lane]
  by_cases hl : l ∈ act
  · simp [hl]
  · by_cases hc : l ∈ s.cohort c <;> simp [hl, hc, Lane.onward]
end

/-! ### NOP and hint words -/

theorem State.modCtx_self (s : State) (k : Nat) (f : Ctx → Ctx) (hf : ∀ c, f c = c) : s.modCtx k f = s := by
  have : ∀ m : Sparse Ctx, Sparse.adjust m k f = m := fun m => by
    induction m with
    | nil => rfl
    | cons e r ih =>
      obtain ⟨j, w⟩ := e
      by_cases hj : k = j <;> simp [Sparse.adjust, hj, hf, ih]
  unfold State.modCtx
  rw [this]
/-- An instruction that completes in the context in which it began has written nothing. -/
theorem wroteV_of_departed {s : State} {i : Instr} {c : Ctx} {act : List Nat}
    (hc : Completes i s (s.depart i (s.cohort c) (c.begun i act))) : WroteV i s c act [] (fun _ _ => 0) (fun _ => 0) := by
  refine ⟨_, hc, RegsOf.depart _ _ _ _ _ (RegsOf.begun c i act), fun l _ n hn => absurd hn (by simp), ⟨fun n l _ _ => ?_, fun n => ?_⟩, ?_, ?_, ?_,
    fun l => ?_⟩
  · rw [depart_rdV]; exact begun_rdV ..
  · rw [depart_vtags]; simp [begun_vtags]
  · rw [depart_flags]
    have : ∀ (l : List Nat) (x : BitVec 6), l.foldl (fun x _ => x ||| 0) x = x := fun l x => foldl_keeps id _ (fun x _ => by simp) l x
    exact (begun_flags c i act).trans (this act _).symm
  · rw [depart_g]; exact begun_g ..
  · rw [depart_e]; exact begun_e ..
  · rw [depart_lane _ _ _ (cohort_nodup s c)]
    simp only [begun_lane]
    split <;> rfl
/-- An instruction without an effect leaves every register as it was. -/
theorem writesNothing (i : Instr) (body : State → Ctx → List Nat → Eff) (he : ∀ s, exec i s = gate i s body)
    (s : State) (c : Ctx) (act : List Nat) (h : Issues s i c act) (hb : body (s.hinted i act) (c.begun i act) act = .ok (s.hinted i act)) :
    WroteV i s c act [] (fun _ _ => 0) (fun _ => 0) :=
  wroteV_of_departed (completes_of_gate h body (he s) id (by rw [hb, State.modCtx_self _ _ id (fun _ => rfl)]))

theorem isHint_cases {i : Instr} (h : isHint i = true) : guardOf i = .always ∧ ∀ s, exec i s = hintWord i s := by
  unfold isHint at h
  split at h
  · exact ⟨rfl, fun s => exec_hntWide_eq ..⟩
  · exact ⟨rfl, fun s => exec_hntSched_eq ..⟩
  · exact ⟨rfl, fun s => exec_hntMod_eq ..⟩
  · cases h
/-- A guard that is always true: every lane of the cohort acts. -/
theorem Issues.act_of_always {s : State} {i : Instr} {c : Ctx} {act : List Nat} (h : Issues s i c act) (hg : guardOf i = .always) :
    act = s.cohort c := by
  rw [h.acts, hg]
  exact List.filter_eq_self.2 fun l _ => rfl

/-! ### Exits -/

theorem childrenDone_hinted (s : State) (i : Instr) (c : Ctx) (act : List Nat) :
    (s.hinted i act).childrenDone (c.begun i act) = s.childrenDone c := by
  unfold State.hinted Ctx.begun; split <;> rfl
/-- R51: a lane that has exited. -/
def Lane.gone (x : Lane) : Lane := { x with exited := true, hints := [], wait := .none }
/-- The effect of `EXIT` where no children are to be joined. -/
theorem execExit_lanes {g : Guard} {s : State} {c : Ctx} {act : List Nat} (h : Issues s (.exit g) c act) (hk : c.kind ≠ .seq) :
    ∃ t, exec (.exit g) s = .next t ∧ Elsewhere s t s.cur.ctx c.pkg ∧ t.ctx s.cur.ctx = s.lanesDone (.exit g) c act (fun _ => Lane.gone) := by
  have htr := (s.hinted (.exit g) act).trace_traced (c.begun (.exit g) act) 3 act
    (fun l => ((c.begun (.exit g) act).lane l).pc.toNat % 2 ^ 57) (fun _ => 0)
  rw [begun_pkg] at htr
  refine traced_of_gate h _ (exec_exit_eq g s) htr (fun x => x.modLanes act (fun _ => Lane.gone)) ?_
  dsimp only
  rw [if_neg (by rw [begun_kind]; exact hk), State.trace_cur, State.hinted_cur]
  rfl
/-- A sequencer whose children have completed exits. -/
theorem execExit_seq {g : Guard} {s : State} {c : Ctx} {act : List Nat} (h : Issues s (.exit g) c act) (hk : c.kind = .seq)
    (hd : s.childrenDone c = true) : Completes (.exit g) s
      (s.depart (.exit g) ((s.cohort c).filter (fun l => !act.contains l))
        { (c.begun (.exit g) act).exitLanes act with exiting := true, evq := [] }) := by
  refine completes_of_gate_okPc h _ (exec_exit_eq g s) (fun c => { c.exitLanes act with exiting := true, evq := [] }) ?_
  dsimp only
  rw [if_pos (by rw [begun_kind]; exact hk), childrenDone_hinted, hd, State.hinted_cur]
  rfl

/-! ### RGN and YIELD -/

theorem mem_rgnSet (d mask n : Nat) : n ∈ rgnSet d mask ↔ ∃ j < 16, mask.testBit j = true ∧ n = d + j := by
  simp only [rgnSet, List.mem_map, List.mem_filter, List.mem_range]
  exact ⟨fun ⟨j, ⟨hj, ht⟩, e⟩ => ⟨j, hj, ht, e.symm⟩, fun ⟨j, hj, ht, e⟩ => ⟨j, ⟨hj, ht⟩, e.symm⟩⟩
/-- R309: the region set replaced. -/
def Ctx.setRegions (r : List Nat) (c : Ctx) : Ctx := { c with regionSet := r, staged := r.filter (fun n => c.staged.contains n) }
theorem exec_rgn_completes {g : Guard} {d mask : Nat} {s : State} {c : Ctx} {act : List Nat} (h : Issues s (.rgn g d mask) c act)
    (hk : c.kind = .group) : Completes (.rgn g d mask) s
      (s.depart (.rgn g d mask) (s.cohort c) ((c.begun (.rgn g d mask) act).setRegions (rgnSet d mask))) := by
  refine completes_of_once h _ (exec_rgn_eq g d mask s) (Ctx.setRegions (rgnSet d mask)) ?_
  dsimp only
  rw [begun_kind, if_pos hk, State.hinted_cur]
  rfl
theorem yield_units (s : State) (i : Instr) (c : Ctx) (act : List Nat) :
    (s.hinted i act).unit (c.begun i act).unit = s.unit c.unit ∧ (s.hinted i act).pkg (c.begun i act).pkg = s.pkg c.pkg := by
  unfold State.hinted Ctx.begun; split <;> exact ⟨rfl, rfl⟩

theorem laneControl : Claims.LaneControl := by
  unfold Claims.LaneControl
  refine ⟨?nop, ?hint, ?exit, ?exitSeq, ?sleep, ?rgn, ?yieldNot, ?yield⟩
  case nop => exact fun g s c act h => writesNothing _ _ (exec_nop_eq g) s c act h rfl
  case hint =>
    intro i hi s c act h
    obtain ⟨hg, he⟩ := isHint_cases hi
    have hact := h.act_of_always hg
    have hc := completes_of_gate_okPc h _ (he s)
      (fun x => x.modLanes act (fun _ x => { x with hints := x.hints ++ [wordOf i], pc := x.pc + 4, wait := .none })) (by rw [State.hinted_cur])
    refine ⟨s.lanesDone i c act _, hc, lanesDone_onlyRegs _, lanesDone_v _, lanesDone_vtags _, lanesDone_g _, lanesDone_e _, lanesDone_flags _,
      fun l => ?_⟩
    rw [lanesDone_lane _ h, hact]
    by_cases hl : l ∈ s.cohort c <;> simp [hl]
  case exit =>
    intro g s c act h hk
    obtain ⟨t, ht, he, hc⟩ := execExit_lanes h hk
    exact ⟨t, _, ht, hc, he, lanesDone_onlyRegs _, lanesDone_v _, lanesDone_g _, lanesDone_e _, lanesDone_flags _, lanesDone_lane _ h⟩
  case exitSeq =>
    intro g s c act h hk hd
    refine ⟨_, execExit_seq h hk hd, ?_, ?_, ?_, ?_, fun l hl => ?_⟩
    · rw [depart_only]
    · rw [depart_only]
    · rw [depart_v]; unfold Ctx.exitLanes; rw [Ctx.modLanes_only]; exact begun_v ..
    · rw [depart_g]; unfold Ctx.exitLanes; rw [Ctx.modLanes_only]; exact begun_g ..
    · rw [depart_rest_lane hl]
      have := Ctx.lane_modLanes act h.nodup (c.begun (.exit g) act) (fun _ => Lane.gone) l
      rw [if_pos hl] at this
      exact congrArg Lane.exited this
  case sleep =>
    intro g a s c act h
    have hc := completes_of_gate_okPc h _ (exec_sleep g a s)
      (fun c' => c'.modLanes act (fun l => Lane.sleepFor (s.now c) (c.rdV a l))) (by simp only [State.hinted_cur, now_hinted, begun_rdV])
    refine ⟨s.lanesDone _ c act _, hc, lanesDone_onlyRegs _, lanesDone_v _, lanesDone_g _, lanesDone_e _, lanesDone_flags _, fun l => ?_⟩
    rw [lanesDone_lane _ h]
    unfold Lane.sleepFor
    by_cases hl : l ∈ act
    · by_cases ha : c.rdV a l = 0 <;> simp [hl, ha, h.mem hl]
    · simp [hl]
  case rgn =>
    intro g d mask s c act h hk
    refine ⟨_, exec_rgn_completes h hk, fun n => ?_, fun n => ?_, ?_, ?_, ?_, fun l => ?_⟩
    · rw [depart_only]; exact mem_rgnSet d mask n
    · rw [depart_only, begun_only]
      simp [Ctx.setRegions]
    · rw [depart_v]; exact begun_v ..
    · rw [depart_g]; exact begun_g ..
    · rw [depart_flags]; exact begun_flags ..
    · rw [depart_lane _ _ _ (cohort_nodup s c)]
      have : ((c.begun (.rgn g d mask) act).setRegions (rgnSet d mask)).lane l = c.lane l := begun_lane ..
      rw [this]
      split <;> rfl
  case yieldNot =>
    intro g s c act h hk
    obtain ⟨hu, hp⟩ := yield_units s (.yield g) c act
    refine writesNothing _ _ (exec_yield_eq g) s c act h ?_
    dsimp only
    rw [begun_kind, hu, if_neg]
    rcases hk with hk | hk <;> simp [hk]
  case yield =>
    intro g s c act h hk hl hq
    obtain ⟨hu, hp⟩ := yield_units s (.yield g) c act
    have hc := completes_of_gate h _ (exec_yield_eq g s) (fun c => { c with yld := true }) (by
      dsimp only
      rw [begun_kind, hu, hp, if_pos ⟨hk, hl⟩, hq, State.hinted_cur]
      rfl)
    refine ⟨_, hc, RegsOf.depart _ _ _ _ _ ((RegsOf.begun c (.yield g) act).trans ⟨_, _, _, _, _, _, _, _, _, _, _, _, rfl⟩), ?_, ?_, ?_, fun l => ?_⟩
    · rw [depart_only]
    · rw [depart_v]; exact begun_v ..
    · rw [depart_g]; exact begun_g ..
    · rw [depart_lane _ _ _ (cohort_nodup s c)]
      have : Ctx.lane { c.begun (.yield g) act with yld := true } l = c.lane l := begun_lane ..
      rw [this]
      split <;> rfl

/-- Settles O8: the branches, and each form of lane control. -/
theorem controlFlow : Obligations.ControlFlow := ⟨branching, laneControl⟩

end Sys2Proof.Machine
end

section
/-! `SREAD` and `SWRITE` (R70 to R78, R150, R381). -/

namespace Sys2Proof.Machine

/-! ### SREAD -/

theorem latch_lane (c : Ctx) (n now l m : Nat) : (c.latch n now l).lane m =
    { c.lane m with refHi := if n = 0x10 ∧ m = l then halfWord now true else (c.lane m).refHi } := by
  unfold Ctx.latch
  by_cases hn : n = 0x10
  · by_cases hm : m = l
    · subst hm; simp [hn, Ctx.lane_modLane]
    · simp [hn, hm, Ctx.lane_modLane]
  · simp [hn]
theorem latch_regsOf (c : Ctx) (n now l : Nat) : RegsOf c (c.latch n now l) := by
  unfold Ctx.latch; split
  · exact .modLane _ _ _
  · exact .refl c
theorem latch_only (c : Ctx) (n now l : Nat) : c.latch n now l = { c with lanes := (c.latch n now l).lanes } := by
  unfold Ctx.latch; split <;> rfl

theorem sreadLanes_lane (d n now : Nat) (x : Nat → Word) (act : List Nat) (c : Ctx) (l : Nat) :
    (act.foldl (Ctx.sreadLane d n now x) c).lane l =
      { c.lane l with refHi := if n = 0x10 ∧ l ∈ act then halfWord now true else (c.lane l).refHi } := by
  induction act generalizing c with
  | nil => simp
  | cons y r ih =>
    have hy : (c.sreadLane d n now x y).lane l =
        { c.lane l with refHi := if n = 0x10 ∧ l = y then halfWord now true else (c.lane l).refHi } := latch_lane ..
    rw [List.foldl_cons, ih, hy]
    by_cases hn : n = 0x10
    · by_cases h1 : l ∈ r <;> by_cases h2 : l = y <;> simp [hn, h1, h2]
    · simp [hn]
theorem sreadLane_regsOf (d n now : Nat) (x : Nat → Word) (c : Ctx) (l : Nat) : RegsOf c (c.sreadLane d n now x l) :=
  (RegsOf.wrV _ _ _ _).trans (latch_regsOf ..)
theorem sreadLane_vtags (d n now : Nat) (x : Nat → Word) (c : Ctx) (l m : Nat) : Sparse.get 0 (c.sreadLane d n now x l).vtags m =
    if m ∈ [d] then Sparse.get 0 c.vtags m &&& 0x7FFF else Sparse.get 0 c.vtags m := by
  unfold Ctx.sreadLane
  rw [latch_only]
  simpa using Ctx.vtag_wrV c d l (x l) m
theorem sreadLanes_keeps {β : Type} (p : Ctx → β) (hw : ∀ (c : Ctx) n l x, p (c.wrV n l x) = p c) (hl : ∀ (c : Ctx) ls, p { c with lanes := ls } = p c)
    (d n now : Nat) (x : Nat → Word) (act : List Nat) (c : Ctx) : p (act.foldl (Ctx.sreadLane d n now x) c) = p c :=
  foldl_keeps p _ (fun c l => by unfold Ctx.sreadLane; rw [latch_only, hl, hw]) act c

/-- Where lanes stand after a read that some of them latched. -/
def afterRead (s : State) (c c' : Ctx) (n : Nat) (ls : List Nat) : Prop := ∀ l, c'.lane l = if l ∈ s.cohort c then
    { (c.lane l).onward with refHi := if n = 0x10 ∧ l ∈ ls then BitVec.ofNat 32 (s.now c / 2 ^ 32) else (c.lane l).refHi } else c.lane l

/-- A lane that latched, once its cohort has moved on. -/
theorem depart_latched (s : State) (i : Instr) (c x : Ctx) (n : Nat) (ls : List Nat) (hls : ∀ l ∈ ls, l ∈ s.cohort c)
    (hx : ∀ l, x.lane l = { c.lane l with refHi := if n = 0x10 ∧ l ∈ ls then halfWord (s.now c) true else (c.lane l).refHi }) :
    afterRead s c (s.depart i (s.cohort c) x) n ls := by
  intro l
  rw [depart_lane _ _ _ (cohort_nodup s c), hx]
  by_cases hl : l ∈ s.cohort c
  · simp only [hl, if_true]; rfl
  · have : l ∉ ls := fun h => hl (hls l h)
    simp [hl, this]
theorem sread_vector {g : Guard} {d n : Nat} {s : State} {c : Ctx} {act : List Nat} (h : Issues s (.sread g d false n) c act) :
    ∃ c', Completes (.sread g d false n) s c' ∧ OnlyRegs c c'
      ∧ (∀ l ∈ act, c'.rdV d l = s.special c n l) ∧ KeepsV c c' act [d] ∧ c'.g = c.g ∧ c'.e = c.e ∧ c'.fpflags = c.fpflags
      ∧ afterRead s c c' n act := by
  have hrd : ∀ m l, l < 32 → (act.foldl (Ctx.sreadLane d n (s.now c) (s.special c n)) (c.begun (.sread g d false n) act)).rdV m l
      = if m ∈ [d] ∧ l ∈ act then s.special c n l else c.rdV m l := fun m l hl => by
    rw [foldl_rdV act (fun l hl => h.lt hl) _ _ [d] (fun l _ => s.special c n l)
      (fun c' l hl n k hk => by rw [sreadLane_rdV _ _ _ _ _ _ hl _ _ hk]; simp) m l hl, begun_rdV]
  refine ⟨_, completes_of_gate h _ (exec_sread_lanes g d n s) (fun c' => act.foldl (Ctx.sreadLane d n (s.now c) (s.special c n)) c') ?_,
    RegsOf.depart _ _ _ _ _ ((RegsOf.begun ..).trans (.foldl _ (sreadLane_regsOf d n _ _) _ _)), fun l hl => ?_, ⟨fun m l hl hm => ?_, fun m => ?_⟩, ?_, ?_, ?_,
    depart_latched _ _ _ _ _ _ (fun l => h.mem) fun l => ?_⟩
  · simp only [State.hinted_cur, special_hinted, now_hinted]
  · rw [depart_rdV, hrd d l (h.lt hl)]; simp [hl]
  · rw [depart_rdV, hrd m l hl, if_neg hm]
  · rw [depart_vtags, foldl_vtags act h.some _ _ [d] (sreadLane_vtags d n _ _), begun_vtags]
  · rw [depart_g, sreadLanes_keeps Ctx.g (fun _ _ _ _ => rfl) (fun _ _ => rfl), begun_g]
  · rw [depart_e, sreadLanes_keeps Ctx.e (fun _ _ _ _ => rfl) (fun _ _ => rfl), begun_e]
  · rw [depart_flags, sreadLanes_keeps Ctx.fpflags (fun _ _ _ _ => rfl) (fun _ _ => rfl), begun_flags]
  · rw [sreadLanes_lane, begun_lane]
theorem headD_mem {act : List Nat} (h : act ≠ []) : act.headD 0 ∈ act := by
  cases act with
  | nil => exact absurd rfl h
  | cons x r => simp
theorem sread_uniform {g : Guard} {d n : Nat} {s : State} {c : Ctx} {act : List Nat} (h : Issues s (.sread g d true n) c act) :
    ∃ c', Completes (.sread g d true n) s c' ∧ OnlyRegs c c'
      ∧ (∀ m, c'.rdG m = if m = d then s.special c n (act.headD 0) else c.rdG m) ∧ c'.v = c.v ∧ c'.e = c.e
      ∧ c'.fpflags = c.fpflags ∧ afterRead s c c' n [act.headD 0] := by
  refine ⟨_, completes_of_once h _ (exec_sread_leader g d n s)
    (fun c' => c'.sreadLeader d n (s.now c) (s.special c n (act.headD 0)) (act.headD 0)) ?_,
    RegsOf.depart _ _ _ _ _ ((RegsOf.begun ..).trans ((RegsOf.wrG _ _ _).trans (latch_regsOf ..))), fun m => ?_, ?_, ?_, ?_,
    depart_latched _ _ _ _ _ _ (fun l hl => h.mem (List.mem_singleton.1 hl ▸ headD_mem h.some)) fun l => ?_⟩
  · simp only [State.hinted_cur, special_hinted, now_hinted]
  · rw [depart_rdG, Ctx.sreadLeader, latch_only]
    exact (Ctx.rdG_wrG ..).trans (by rw [begun_rdG])
  · rw [depart_v, Ctx.sreadLeader, latch_only]; exact begun_v ..
  · rw [depart_e, Ctx.sreadLeader, latch_only]; exact begun_e ..
  · rw [depart_flags, Ctx.sreadLeader, latch_only]; exact begun_flags ..
  · rw [Ctx.sreadLeader, latch_lane]
    have : ((c.begun (.sread g d true n) act).wrG d (s.special c n (act.headD 0))).lane l = c.lane l := begun_lane ..
    rw [this]
    simp

/-! ### The values of special registers (R74, R375, R376) -/

theorem halfWords (x : Nat) : (halfWord x false).toNat + 2 ^ 32 * (halfWord x true).toNat = x % 2 ^ 64 := by
  simp only [halfWord_toNat]
  simp
  omega
/-- Of a context that is no handler. -/
theorem State.special_other (s : State) {c : Ctx} (hk : c.kind ≠ .handler) (l : Nat) :
    s.special c 0x06 l = halfWord (c.wid.toNat + if c.kind = .seq then 0 else l) false
    ∧ s.special c 0x07 l = halfWord (c.wid.toNat + if c.kind = .seq then 0 else l) true
    ∧ s.special c 0x0B l = halfWord (s.gridOf c).argp.toNat false ∧ s.special c 0x0C l = halfWord (s.gridOf c).argp.toNat true
    ∧ s.special c 0x12 l = halfWord (s.gridOf c).fmtslots.toNat false ∧ s.special c 0x13 l = halfWord (s.gridOf c).fmtslots.toNat true
    ∧ s.special c 0x14 l = c.fpflags.setWidth 32 ∧ s.special c 0x15 l = 0 ∧ s.special c 0x16 l = 0 ∧ s.special c 0x17 l = 0 := by
  unfold State.special
  simp only [hk, if_false, and_self]
/-- Of a handler. -/
theorem State.special_handler (s : State) {c : Ctx} (hk : c.kind = .handler) (l : Nat) :
    s.special c 0x00 l = BitVec.ofNat 32 l ∧ s.special c 0x15 l = c.hfs ∧ s.special c 0x16 l = halfWord c.hfa.toNat false
    ∧ s.special c 0x17 l = halfWord c.hfa.toNat true
    ∧ ∀ n ∈ [1, 2, 3, 4, 5, 7, 8, 9, 10, 11, 12, 13, 18, 19, 20], s.special c n l = 0 := by
  unfold State.special
  simp only [hk, if_true, List.mem_cons, List.not_mem_nil, or_false, forall_eq_or_imp, forall_eq, and_self]
theorem State.special_kind (s : State) (c : Ctx) (l : Nat) :
    s.special c 0x0E l = if c.site.mast then 2 else if 6 ≤ c.site.die then 1 else 0 := by
  have : s.special c 0x0E l = BitVec.ofNat 32 c.site.kindCode := by
    by_cases hk : c.kind = .handler
    · exact if_pos hk
    · exact if_neg hk
  rw [this]
  unfold Site.kindCode Site.isB
  split
  · rfl
  · next h =>
    have hm : c.site.mast = false := by simpa using h
    by_cases hd : 6 ≤ c.site.die
    · have : dieIsB c.site.die = true := decide_eq_true hd
      simp [hm, this, hd]
    · have : dieIsB c.site.die = false := decide_eq_false hd
      simp [hm, this, hd]

/-! ### SWRITE (R77, R78, R381) -/

theorem writeSpecial_flags (c : Ctx) (x : Word) : c.writeSpecial 0x14 x = { c with fpflags := x.setWidth 6 } := rfl
theorem foldl_writeFlags (act : List Nat) (h : act ≠ []) (f : Nat → Word) (c : Ctx) :
    act.foldl (fun c' l => c'.writeSpecial 0x14 (f l)) c = { c with fpflags := (f (act.getLastD 0)).setWidth 6 } := by
  induction act generalizing c with
  | nil => exact absurd rfl h
  | cons x r ih =>
    rw [List.foldl_cons]
    cases r with
    | nil => rfl
    | cons y r => rw [ih (by simp)]; rfl
theorem writeSpecial_outside {c : Ctx} (h : c.kind ≠ .handler) (x : Word) : c.writeSpecial 0x15 x = c := by
  simp [Ctx.writeSpecial, h]
theorem foldl_writeOutside {c : Ctx} (h : c.kind ≠ .handler) (f : Nat → Word) (act : List Nat) :
    act.foldl (fun c' l => c'.writeSpecial 0x15 (f l)) c = c :=
  foldl_induct (fun c' => c' = c) _ (fun c' l e => by rw [e, writeSpecial_outside h]) act c rfl
theorem writeSpecial_handler {c : Ctx} (h : c.kind = .handler) (x : Word) : c.writeSpecial 0x15 x =
    { c with hfs := x &&& 0xFFFF0001, hfa := if x &&& 0xFFFF0001 = 0 then 0 else c.hfa } := by
  unfold Ctx.writeSpecial
  rw [if_neg (by decide), if_neg (not_not.2 h)]
  dsimp only
  split
  · next hy => rw [hy]
  · rfl

/-- What a `SWRITE` does to its context. -/
def Ctx.swritten (d : Nat) (u : Bool) (n : Nat) (c : Ctx) (act : List Nat) (x : Ctx) : Ctx :=
  if u then x.writeSpecial n (c.rdG d) else act.foldl (fun c' l => c'.writeSpecial n (c.rdV d l)) x
theorem exec_swrite_leader (g : Guard) (d n : Nat) (s : State) : exec (.swrite g d true n) s =
    oncePerIssue (.swrite g d true n) s (fun s c _ _ => .ok (s.modCtx s.cur.ctx (fun c' => c'.writeSpecial n (c.rdG d)))) :=
  exec_swrite_eq ..
theorem exec_swrite_lanes (g : Guard) (d n : Nat) (s : State) : exec (.swrite g d false n) s =
    gate (.swrite g d false n) s (fun s c act =>
      .ok (s.modCtx s.cur.ctx (fun c' => act.foldl (fun c' l => c'.writeSpecial n (c.rdV d l)) c'))) :=
  exec_swrite_eq ..
theorem swrite_completes {g : Guard} {d n : Nat} {u : Bool} {s : State} {c : Ctx} {act : List Nat} (h : Issues s (.swrite g d u n) c act) :
    Completes (.swrite g d u n) s (s.depart (.swrite g d u n) (s.cohort c) (Ctx.swritten d u n c act (c.begun (.swrite g d u n) act))) := by
  cases u
  case true =>
    exact completes_of_once h _ (exec_swrite_leader g d n s) (fun x => x.writeSpecial n (c.rdG d)) (by simp only [State.hinted_cur, begun_rdG])
  case false =>
    exact completes_of_gate h _ (exec_swrite_lanes g d n s) (fun x => act.foldl (fun c' l => c'.writeSpecial n (c.rdV d l)) x)
      (by simp only [State.hinted_cur, begun_rdV])
theorem swritten_flags {act : List Nat} (h : act ≠ []) (d : Nat) (u : Bool) (c x : Ctx) :
    Ctx.swritten d u 0x14 c act x = { x with fpflags := (if u then c.rdG d else c.rdV d (act.getLastD 0)).setWidth 6 } := by
  cases u with
  | true => rfl
  | false => exact foldl_writeFlags act h _ x

theorem depart_moved (s : State) (i : Instr) (c x : Ctx) (hx : ∀ l, x.lane l = c.lane l) :
    Moved c (s.depart i (s.cohort c) x) (s.cohort c) c.preds := by
  intro l
  rw [depart_lane _ _ _ (cohort_nodup s c), hx]
  split <;> rfl

/-- Settles O33: reads with their latch, the values, and writes. -/
theorem specialRegisters : Obligations.SpecialRegisters := by
  unfold Obligations.SpecialRegisters
  refine ⟨fun g d n s c act h => sread_vector h, fun g d n s c act h => sread_uniform h, fun s c l => ⟨fun hk => ?other, fun hk => ?handler,
    s.special_kind c l, ?count, special_reftimeHi s c l⟩, ?flags, ?outside, ?inside⟩
  case other =>
    obtain ⟨h6, h7, hb, hc, h12, h13, hrest⟩ := s.special_other hk l
    simp only [h6, h7, hb, hc, h12, h13, halfWords]
    exact ⟨trivial, Nat.mod_eq_of_lt (s.gridOf c).argp.isLt, Nat.mod_eq_of_lt (s.gridOf c).fmtslots.isLt, hrest⟩
  case handler =>
    obtain ⟨h0, h15, h16, h17, hrest⟩ := s.special_handler hk l
    simp only [h16, h17, halfWords]
    exact ⟨h0, h15, Nat.mod_eq_of_lt c.hfa.isLt, hrest⟩
  case count => rw [special_reftimeLo, halfWord_toNat]; rfl
  case flags =>
    intro g d u s c act h
    have hc := swrite_completes h
    rw [swritten_flags h.some] at hc
    refine ⟨_, hc, RegsOf.depart _ _ _ _ _ ((RegsOf.begun ..).trans ⟨_, _, _, _, _, _, _, _, _, _, _, _, rfl⟩), ?_, ?_, ?_, ?_, ?_,
      depart_moved _ _ _ _ (begun_lane c _ act)⟩
    · rw [depart_flags]
    · rw [depart_v]; exact begun_v ..
    · rw [depart_vtags]; exact begun_vtags ..
    · rw [depart_g]; exact begun_g ..
    · rw [depart_e]; exact begun_e ..
  case outside =>
    intro g d u s c act h hk
    have hk' : (c.begun (.swrite g d u 0x15) act).kind ≠ .handler := by rw [begun_kind]; exact hk
    have hc := swrite_completes h
    refine wroteV_of_departed ?_
    cases u with
    | true => rwa [Ctx.swritten, if_pos rfl, writeSpecial_outside hk'] at hc
    | false => rwa [Ctx.swritten, if_neg Bool.false_ne_true, foldl_writeOutside hk'] at hc
  case inside =>
    intro g d s c act h hk
    have hk' : (c.begun (.swrite g d true 0x15) act).kind = .handler := by rw [begun_kind]; exact hk
    have hc := swrite_completes h
    rw [Ctx.swritten, if_pos rfl, writeSpecial_handler hk'] at hc
    refine ⟨_, hc, ?_, ?_, ?_, ?_, ?_, ?_, depart_moved _ _ _ _ (begun_lane c _ act)⟩
    · rw [depart_only]
    · rw [depart_only, begun_only]
    · rw [depart_v]; exact begun_v ..
    · rw [depart_g]; exact begun_g ..
    · rw [depart_e]; exact begun_e ..
    · rw [depart_flags]; exact begun_flags ..

end Sys2Proof.Machine
end

section
/-! What an instruction does beside its own context; `TSPLIT` and `EVQRD` (R265, R291, R292). -/

namespace Sys2Proof.Machine

/-! ### Effects outside the context -/

/-- The context that issues is found wherever the effect has left the table of contexts alone. -/
theorem find_ctxs_begun {s t : State} {i : Instr} {c : Ctx} {act : List Nat} (h : Issues s i c act)
    (e : t.ctxs = (s.hinted i act).ctxs) : Sparse.find t.ctxs s.cur.ctx = some (c.begun i act) := by
  rw [e]
  unfold State.hinted Ctx.begun
  split
  · exact h.found
  · rw [State.find_modCtx, if_pos rfl, h.found]; rfl
theorem other_ctx_hinted {s t : State} {i : Instr} {act : List Nat} (e : t.ctxs = (s.hinted i act).ctxs) {j : Nat}
    (hj : j ≠ s.cur.ctx) : t.ctx j = s.ctx j := by
  have : t.ctx j = (s.hinted i act).ctx j := by simp [State.ctx, e]
  rw [this]
  unfold State.hinted
  split
  · rfl
  · exact State.ctx_modCtx_ne _ _ _ _ hj
theorem modCtx_begun {s t : State} {i : Instr} {c : Ctx} {act : List Nat} (h : Issues s i c act)
    (e : t.ctxs = (s.hinted i act).ctxs) (F G : Ctx → Ctx) :
    (t.modCtx s.cur.ctx F).modCtx s.cur.ctx G = t.modCtx s.cur.ctx (fun _ => G (F (c.begun i act))) := by
  rw [State.modCtx_modCtx]
  exact State.modCtx_const _ _ _ _ (find_ctxs_begun h e)
theorem ctx_modCtx_begun {s t : State} {i : Instr} {c : Ctx} {act : List Nat} (h : Issues s i c act)
    (e : t.ctxs = (s.hinted i act).ctxs) (F : Ctx → Ctx) : (t.modCtx s.cur.ctx F).ctx s.cur.ctx = F (c.begun i act) :=
  State.ctx_modCtx _ _ _ _ (find_ctxs_begun h e)
/-- The body of an instruction that acts once per issue, as it runs. -/
def onceBody (f : State → Ctx → Nat → List Nat → Eff) (s : State) (c : Ctx) (act : List Nat) : Eff :=
  match act with
  | [] => .ok s
  | l :: _ => match f s c l act with | .trap cause ls info => .trapOnce cause ls info | e => e
theorem oncePerIssue_eq (i : Instr) (s : State) (f : State → Ctx → Nat → List Nat → Eff) :
    oncePerIssue i s f = gate i s (onceBody f) := rfl
theorem onceBody_eq {f : State → Ctx → Nat → List Nat → Eff} {s : State} {c : Ctx} {act : List Nat} (h : act ≠ []) {e : Eff}
    (hf : f s c (act.headD 0) act = e) (ht : ∀ cause ls info, e ≠ .trap cause ls info) : onceBody f s c act = e := by
  cases act with
  | nil => exact absurd rfl h
  | cons l r =>
    unfold onceBody
    simp only [List.headD_cons] at hf
    dsimp only
    rw [hf]
    cases e <;> simp at ht ⊢
theorem onceBody_trap {f : State → Ctx → Nat → List Nat → Eff} {s : State} {c : Ctx} {act : List Nat} (h : act ≠ []) {cause info : Nat}
    {ls : List Nat} (hf : f s c (act.headD 0) act = .trap cause ls info) : onceBody f s c act = .trapOnce cause ls info := by
  cases act with
  | nil => exact absurd rfl h
  | cons l r => unfold onceBody; simp only [List.headD_cons] at hf; dsimp only; rw [hf]
/-- An instruction that acts once per issue and whose lanes wait. -/
theorem once_wait {s : State} {i : Instr} {c : Ctx} {act : List Nat} {s2 : State} {w : Wait} (h : Issues s i c act)
    (f : State → Ctx → Nat → List Nat → Eff) (hf : f (s.hinted i act) (c.begun i act) (act.headD 0) act = .wait s2 w) :
    oncePerIssue i s f = .next (s2.modCtx s.cur.ctx (fun c' =>
      ((c'.advance ((s.cohort c).filter (fun l => !act.contains l))).modLanes act (fun _ x => { x with wait := w })).unheld)) :=
  gate_wait h _ (onceBody_eq h.some hf (fun _ _ _ => nofun))
/-- An instruction of a group or a sequencer that acts once per issue and traps. -/
theorem once_trap {s : State} {i : Instr} {c : Ctx} {act : List Nat} {cause info : Nat} {ls : List Nat} (h : Issues s i c act)
    (hk : c.kind ≠ .handler) (f : State → Ctx → Nat → List Nat → Eff)
    (hf : f (s.hinted i act) (c.begun i act) (act.headD 0) act = .trap cause ls info) :
    oncePerIssue i s f = .next (s.takeTrap s.cur.ctx s.cur.pc (wordOf i) cause ls info none) := by
  rw [oncePerIssue_eq, gate_runs h, runLanes_step h 33]
  simp only [onceBody_trap h.some hf, hk, if_false]

/-- An instruction that is done, with an effect outside the table of contexts and one on its context. -/
theorem acts_of_gate {s : State} {i : Instr} {c : Ctx} {act : List Nat} (h : Issues s i c act)
    (body : State → Ctx → List Nat → Eff) (he : exec i s = gate i s body) {t : State} (ht : t.ctxs = (s.hinted i act).ctxs)
    (hg : t.grids = s.grids) (F : Ctx → Ctx)
    (hb : body (s.hinted i act) (c.begun i act) act = .ok (t.modCtx s.cur.ctx F)) (pr : Nat → BitVec 8)
    (hl : ∀ l, (F (c.begun i act)).lane l = { c.lane l with pred := if l ∈ s.cohort c then pr l else (c.lane l).pred }) :
    Acts i s c (t.modCtx s.cur.ctx (fun _ => s.depart i (s.cohort c) (F (c.begun i act)))) (s.depart i (s.cohort c) (F (c.begun i act))) pr := by
  refine ⟨?_, ctx_modCtx_begun h ht _, fun l => ?_, fun j hj => ?_, hg⟩
  · rw [he, gate_ok h body hb, modCtx_begun h ht]
  · rw [depart_lane _ _ _ (cohort_nodup s c), hl]
    by_cases hc : l ∈ s.cohort c <;> simp [hc]
  · rw [State.ctx_modCtx_ne _ _ _ _ hj, other_ctx_hinted ht hj]

theorem hinted_grids (s : State) (i : Instr) (act : List Nat) : (s.hinted i act).grids = s.grids := by
  unfold State.hinted; split <;> rfl
theorem hinted_units (s : State) (i : Instr) (act : List Nat) : (s.hinted i act).units = s.units := by
  unfold State.hinted; split <;> rfl
theorem hinted_pkgs (s : State) (i : Instr) (act : List Nat) : (s.hinted i act).pkgs = s.pkgs := by
  unfold State.hinted; split <;> rfl
theorem hinted_sameBytes (s : State) (i : Instr) (act : List Nat) : SameBytes s (s.hinted i act) := by
  unfold State.hinted; split
  · exact .refl s
  · exact .modCtx _ _ _

/-! ### What noting the hints of an issue leaves alone -/

theorem hinted_gridOf (s : State) (i : Instr) (c : Ctx) (act : List Nat) : (s.hinted i act).gridOf (c.begun i act) = s.gridOf c := by
  unfold State.hinted Ctx.begun; split <;> rfl
theorem hinted_rootLvl (s : State) (i : Instr) (c : Ctx) (act : List Nat) : (s.hinted i act).rootLvl (c.begun i act) = s.rootLvl c := by
  unfold State.hinted Ctx.begun; split <;> rfl
theorem hinted_ctxLevel (s : State) (i : Instr) (c : Ctx) (act : List Nat) : (s.hinted i act).ctxLevel (c.begun i act) = s.ctxLevel c := by
  unfold State.hinted Ctx.begun; split <;> rfl
theorem hinted_isSeq (s : State) (i : Instr) (c : Ctx) (act : List Nat) (lvl : Nat) :
    (s.hinted i act).isSeq (c.begun i act) lvl = s.isSeq c lvl := by
  unfold State.hinted Ctx.begun; split <;> rfl

/-! ### TSPLIT -/

theorem splitsCover : Claims.SplitsCover := by
  intro e p hp
  have hdiv := Nat.div_add_mod e p
  have hmod := Nat.mod_lt e hp
  have hsum : ∀ i, i < p → tsplit e p i = (i * (e / p) + min i (e % p), if i < e % p then e / p + 1 else e / p) := fun i hi => by
    unfold tsplit; rw [if_neg (by omega)]
  refine ⟨?_, fun i hi => ?_, ?_, fun i hi j hj => ?_, fun i hi => ?_⟩
  · rw [hsum 0 hp]; simp
  · rw [hsum i (by omega), hsum (i + 1) hi]
    have : (i + 1) * (e / p) = i * (e / p) + e / p := Nat.succ_mul ..
    dsimp only
    split <;> omega
  · rw [hsum (p - 1) (by omega)]
    have : (p - 1) * (e / p) + e / p = p * (e / p) := by
      obtain ⟨k, rfl⟩ : ∃ k, p = k + 1 := ⟨p - 1, by omega⟩
      exact (Nat.succ_mul ..).symm
    dsimp only
    split <;> omega
  · rw [hsum i hi, hsum j hj]
    dsimp only
    split <;> split <;> omega
  · unfold tsplit; rw [if_pos (Or.inr hi)]

theorem wrPairNum_rdG (c : Ctx) (x : Nat) (r : Nat × Nat) (n : Nat) : (c.wrPairNum x r).rdG n =
    if n = x + 1 then BitVec.ofNat 32 r.2 else if n = x then BitVec.ofNat 32 r.1 else c.rdG n := by
  unfold Ctx.wrPairNum
  rw [Ctx.rdG_wrG, Ctx.rdG_wrG]
/-- An instruction that writes a pair of uniform registers with two numbers. -/
theorem pair_completes {s : State} {i : Instr} {c : Ctx} {act : List Nat} (h : Issues s i c act)
    (f : State → Ctx → Nat → List Nat → Eff) (he : exec i s = oncePerIssue i s f) (x : Nat) (r : Nat × Nat)
    (hb : f (s.hinted i act) (c.begun i act) (act.headD 0) act = .ok ((s.hinted i act).modCtx s.cur.ctx (fun c => c.wrPairNum x r))) :
    ∃ c', Completes i s c' ∧ OnlyRegs c c' ∧ c'.v = c.v ∧ c'.fpflags = c.fpflags
      ∧ (∀ n, c'.rdG n = if n = x + 1 then BitVec.ofNat 32 r.2 else if n = x then BitVec.ofNat 32 r.1 else c.rdG n)
      ∧ Moved c c' (s.cohort c) c.preds := by
  refine ⟨_, completes_of_once h f he _ hb, RegsOf.depart _ _ _ _ _ ((RegsOf.begun ..).trans ((RegsOf.wrG _ _ _).trans (.wrG _ _ _))), ?_, ?_,
    fun n => ?_, depart_moved _ _ _ _ (begun_lane c i act)⟩
  · rw [depart_v]; exact begun_v ..
  · rw [depart_flags]; exact begun_flags ..
  · rw [depart_rdG, wrPairNum_rdG, begun_rdG]

/-! ### EVQRD -/

theorem State.acquire_only (s : State) (c : Ctx) (k : Nat) : s.acquire c k = { s with pkgs := (s.acquire c k).pkgs } := by
  unfold State.acquire
  dsimp only
  cases s.coreOf c with
  | none => dsimp only; split <;> rfl
  | some x => dsimp only; split <;> split <;> rfl
theorem State.acquire_sameBytes (s : State) (c : Ctx) (k : Nat) : SameBytes s (s.acquire c k) := by
  rw [State.acquire_only]; intro a; cases a <;> rfl

/-- R292: the four registers that take a record. -/
def Ctx.wrEv (c : Ctx) (x : Nat) (r : EvRec) : Ctx := (List.range 4).foldl (fun c j => c.wrG (x + j) (r.word j)) c
theorem wrEv_rdG (c : Ctx) (x : Nat) (r : EvRec) (n : Nat) : (c.wrEv x r).rdG n = if n = x then r.tag
    else if n = x + 1 then BitVec.ofNat 32 (r.kind % 256 * 2 ^ 24 + r.level % 8 * 2 ^ 21 + r.status % 65536)
    else if n = x + 2 then BitVec.ofNat 32 r.doneCount else if n = x + 3 then BitVec.ofNat 32 r.aborted else c.rdG n := by
  have : c.wrEv x r = (((c.wrG x (r.word 0)).wrG (x + 1) (r.word 1)).wrG (x + 2) (r.word 2)).wrG (x + 3) (r.word 3) := rfl
  rw [this]
  simp only [Ctx.rdG_wrG, EvRec.word]
  split
  · have h0 : ¬ n = x := by omega
    have h1 : ¬ n = x + 1 := by omega
    have h2 : ¬ n = x + 2 := by omega
    simp [h0, h1, h2]
  · split
    · have h0 : ¬ n = x := by omega
      have h1 : ¬ n = x + 1 := by omega
      simp [h0, h1]
    · split
      · have h0 : ¬ n = x := by omega
        simp [h0]
      · rfl
theorem pushAll_only (c : Ctx) (ls : List Nat) (b : Bool) : c.pushAll ls b = { c with lanes := (c.pushAll ls b).lanes } :=
  foldl_induct (fun x : Ctx => x = { c with lanes := x.lanes }) _ (fun _ _ h => by rw [h]; rfl) ls c rfl
theorem pushAll_lane (act : List Nat) (hn : act.Nodup) (c : Ctx) (b : Bool) (l : Nat) : (c.pushAll act b).lane l =
    { c.lane l with pred := if l ∈ act then pushed (c.lane l).pred b else (c.lane l).pred } := by
  have : (c.pushAll act b).lane l = if l ∈ act then { c.lane l with pred := shiftIn (c.lane l).pred b } else c.lane l :=
    foldl_push_lane act hn c (fun _ => b) l
  rw [this]
  unfold shiftIn pushed
  split <;> simp_all
/-- A context with another event queue. -/
def Ctx.withEvq (c : Ctx) (q : List EvRec) : Ctx := { c with evq := q }
theorem Ctx.withEvq_v (c : Ctx) (q : List EvRec) : (c.withEvq q).v = c.v := rfl
theorem Ctx.withEvq_g (c : Ctx) (q : List EvRec) : (c.withEvq q).g = c.g := rfl
theorem Ctx.withEvq_rq (c : Ctx) (q : List EvRec) : (c.withEvq q).rq = c.rq := rfl
theorem Ctx.withEvq_evq (c : Ctx) (q : List EvRec) : (c.withEvq q).evq = q := rfl
theorem Ctx.withEvq_lanes (c : Ctx) (q : List EvRec) : (c.withEvq q).lanes = c.lanes := rfl
theorem takeEv_eq (c : Ctx) (x : Nat) (r : EvRec) (act : List Nat) :
    c.takeEv x r act = ((c.wrEv x r).withEvq ((c.wrEv x r).evq.erase r)).pushAll act true := rfl
/-- The first record that an `EVQRD` may take. -/
theorem evPick_eq (c : Ctx) (i : Instr) (act : List Nat) (m : Bool) (y : Nat) :
    (c.begun i act).evPick (if m then some (c.rdG y) else none) = c.evq.find? (fun r => if m then decide (r.tag = c.rdG y) else true) := by
  have : ∀ t, (c.begun i act).evPick t = c.evPick t := fun t => by unfold Ctx.begun; split <;> rfl
  rw [this]
  cases m <;> simp [Ctx.evPick]
section
variable {g : Guard} {lvl x y : Nat} {m w : Bool} {s : State} {c : Ctx} {act : List Nat} (h : Issues s (.evqrd g lvl x y m w) c act)
  (hs : s.isSeq c lvl = true)
include h hs
/-- A record that matches is taken: its scope's acquire, the four registers, and the push. -/
theorem evqrd_takes {r : EvRec} (hp : c.evq.find? (fun r => if m then decide (r.tag = c.rdG y) else true) = some r) :
    onceBody (fun s c l act =>
      if ¬ s.isSeq c lvl then .trap 2 [l] lvl
      else
        let tag := if m then some (c.rdG y) else none
        match c.evPick tag with
        | some r => .ok ((s.acquire c r.scope).modCtx s.cur.ctx (fun c => c.takeEv x r act))
        | none =>
          if w ∧ c.evResv ≠ 0 then .wait s (.event tag x)
          else .ok (s.modCtx s.cur.ctx (fun c => c.pushAll act false))) (s.hinted (.evqrd g lvl x y m w) act) (c.begun (.evqrd g lvl x y m w) act) act
      = .ok (((s.hinted (.evqrd g lvl x y m w) act).acquire (c.begun (.evqrd g lvl x y m w) act) r.scope).modCtx s.cur.ctx (fun c => c.takeEv x r act)) := by
  refine onceBody_eq h.some ?_ (fun _ _ _ => nofun)
  rw [hinted_isSeq, if_neg (not_not.2 hs), begun_rdG]
  dsimp only
  rw [evPick_eq, hp, State.hinted_cur]
/-- Where no record matches, the sequencer waits for one, or pushes 0. -/
theorem evqrd_finds_none (hp : c.evq.find? (fun r => if m then decide (r.tag = c.rdG y) else true) = none) :
    (w = true ∧ c.evResv ≠ 0 → exec (.evqrd g lvl x y m w) s = .next ((s.hinted (.evqrd g lvl x y m w) act).modCtx s.cur.ctx (fun c' =>
      ((c'.advance ((s.cohort c).filter (fun l => !act.contains l))).modLanes act
        (fun _ z => { z with wait := .event (if m then some (c.rdG y) else none) x })).unheld)))
    ∧ (¬ (w = true ∧ c.evResv ≠ 0) → Completes (.evqrd g lvl x y m w) s
      (s.depart (.evqrd g lvl x y m w) (s.cohort c) ((c.begun (.evqrd g lvl x y m w) act).pushAll act false))) := by
  have hr : (c.begun (.evqrd g lvl x y m w) act).evResv = c.evResv := by rw [begun_only]
  constructor <;> intro hw
  · refine (exec_evqrd_eq g lvl x y m w s).trans (once_wait h _ ?_)
    rw [hinted_isSeq, if_neg (not_not.2 hs), begun_rdG]
    dsimp only
    rw [evPick_eq, hp]
    dsimp only
    rw [hr, if_pos hw]
  · refine completes_of_once h _ (exec_evqrd_eq g lvl x y m w s) (fun c => c.pushAll act false) ?_
    rw [hinted_isSeq, if_neg (not_not.2 hs), begun_rdG]
    dsimp only
    rw [evPick_eq, hp]
    dsimp only
    rw [hr, if_neg hw, State.hinted_cur]
end
theorem wrEv_keeps {β : Type} (p : Ctx → β) (hg : ∀ (c : Ctx) n x, p (c.wrG n x) = p c) (c : Ctx) (x : Nat) (r : EvRec) :
    p (c.wrEv x r) = p c := foldl_keeps p (fun (c : Ctx) j => c.wrG (x + j) (r.word j)) (fun _ _ => hg ..) _ c
theorem pushAll_keeps {β : Type} (p : Ctx → β) (hl : ∀ (c : Ctx) l f, p (c.modLane l f) = p c) (c : Ctx) (ls : List Nat) (b : Bool) :
    p (c.pushAll ls b) = p c := foldl_keeps p (fun (c : Ctx) l => c.push l b) (fun _ _ => hl ..) ls c
theorem takeEv_v (c : Ctx) (x : Nat) (r : EvRec) (act : List Nat) : (c.takeEv x r act).v = c.v := by
  rw [takeEv_eq, pushAll_keeps Ctx.v (fun _ _ _ => rfl), Ctx.withEvq_v, wrEv_keeps Ctx.v (fun _ _ _ => rfl)]
theorem takeEv_rq (c : Ctx) (x : Nat) (r : EvRec) (act : List Nat) : (c.takeEv x r act).rq = c.rq := by
  rw [takeEv_eq, pushAll_keeps Ctx.rq (fun _ _ _ => rfl), Ctx.withEvq_rq, wrEv_keeps Ctx.rq (fun _ _ _ => rfl)]
theorem takeEv_evq (c : Ctx) (x : Nat) (r : EvRec) (act : List Nat) : (c.takeEv x r act).evq = c.evq.erase r := by
  rw [takeEv_eq, pushAll_keeps Ctx.evq (fun _ _ _ => rfl), Ctx.withEvq_evq, wrEv_keeps Ctx.evq (fun _ _ _ => rfl)]
theorem takeEv_rdG (c : Ctx) (x : Nat) (r : EvRec) (act : List Nat) (n : Nat) : (c.takeEv x r act).rdG n = (c.wrEv x r).rdG n := by
  unfold Ctx.rdG
  rw [takeEv_eq, pushAll_keeps Ctx.g (fun _ _ _ => rfl), Ctx.withEvq_g]
theorem lane_of_lanes {c c' : Ctx} (h : c'.lanes = c.lanes) (l : Nat) : c'.lane l = c.lane l := by unfold Ctx.lane; rw [h]
theorem wrEv_lanes (c : Ctx) (x : Nat) (r : EvRec) : (c.wrEv x r).lanes = c.lanes := wrEv_keeps Ctx.lanes (fun _ _ _ => rfl) c x r
theorem takeEv_lane (c : Ctx) (x : Nat) (r : EvRec) (act : List Nat) (hn : act.Nodup) (l : Nat) : (c.takeEv x r act).lane l =
    { c.lane l with pred := if l ∈ act then pushed (c.lane l).pred true else (c.lane l).pred } := by
  rw [takeEv_eq, pushAll_lane act hn]
  have h : ((c.wrEv x r).withEvq ((c.wrEv x r).evq.erase r)).lanes = c.lanes :=
    (Ctx.withEvq_lanes _ _).trans (wrEv_lanes c x r)
  rw [lane_of_lanes h]

theorem splitsAndEvents : Claims.SplitsAndEvents := by
  unfold Claims.SplitsAndEvents
  refine ⟨?split, ?splitX, ?events⟩
  case split =>
    intro g lvl x y s c act h hr hl
    refine pair_completes h _ (exec_tsplit_eq g lvl x y s) x _ ?_
    dsimp only
    rw [hinted_rootLvl, hinted_ctxLevel, if_neg (by omega), hinted_gridOf, begun_rdG, begun_rdG, State.hinted_cur,
      show (c.begun (.tsplit g lvl x y) act).wid = c.wid by rw [begun_only]]
  case splitX =>
    intro g x y s c act h
    refine pair_completes h _ (exec_tsplitX_eq g x y s) x _ ?_
    dsimp only
    rw [begun_rdG, begun_rdG, begun_rdG, State.hinted_cur]
  case events =>
    intro g lvl x y m w s c act h hk hl i pick
    have hs : s.isSeq c lvl = true := by simp [State.isSeq, hk, hl]
    refine ⟨fun r hp => ?_, fun hp => ⟨(evqrd_finds_none h hs hp).1, fun hw => ?_⟩⟩
    · have he := State.acquire_only (s.hinted i act) (c.begun i act) r.scope
      refine ⟨_, _, acts_of_gate h _ (exec_evqrd_eq g lvl x y m w s) (by rw [he]) (by rw [he]; exact hinted_grids ..) (fun c => c.takeEv x r act)
        (evqrd_takes h hs hp) _ (fun l => ?_), ?_, fun n => ?_, ?_, ?_, ?_⟩
      · rw [takeEv_lane _ _ _ _ h.nodup, begun_lane]
        by_cases hl : l ∈ act
        · simp [hl, h.mem hl, Ctx.preds]
        · simp [hl, Ctx.preds]
      · exact ((hinted_sameBytes s i act).trans (State.acquire_sameBytes _ (c.begun i act) r.scope)).trans (.modCtx _ _ _)
      · rw [depart_rdG, takeEv_rdG, wrEv_rdG, begun_rdG]
      · rw [depart_only]
        exact (takeEv_evq ..).trans (by rw [begun_only])
      · rw [depart_v, takeEv_v]; exact begun_v ..
      · rw [depart_only]
        exact (takeEv_rq ..).trans (by rw [begun_only])
    · refine ⟨_, (evqrd_finds_none h hs hp).2 hw, RegsOf.depart _ _ _ _ _ ((RegsOf.begun ..).trans (.pushAll _ _ _)), ?_, ?_, ?_, fun l => ?_⟩
      · rw [depart_v, pushAll_only]; exact begun_v ..
      · rw [depart_g, pushAll_only]; exact begun_g ..
      · rw [depart_flags, pushAll_only]; exact begun_flags ..
      · rw [depart_lane _ _ _ (cohort_nodup s c), pushAll_lane act h.nodup, begun_lane]
        by_cases hc : l ∈ s.cohort c
        · simp [hc, Ctx.preds]
        · have : l ∉ act := fun hl => hc (h.mem hl)
          simp [hc, this]

/-- Settles O25: the arithmetic of a split, and the instructions. -/
theorem splitsAndEventQueues : Obligations.SplitsAndEventQueues := ⟨splitsCover, splitsAndEvents⟩

end Sys2Proof.Machine
end

section
/-! Fields of the service registers: what each reads after a write of one, and what a request does to its package
(chapters 18 and 22). -/

namespace Sys2Proof.Machine

/-! ### Bits of a register -/

theorem bits_testBit (v : DWord) (hi lo k : Nat) : (bits v hi lo).testBit k = (decide (k < hi + 1 - lo) && v.getLsbD (lo + k)) := by
  unfold bits
  rw [Nat.testBit_mod_two_pow, Nat.testBit_div_two_pow, BitVec.testBit_toNat, Nat.add_comm k lo]
theorem bits_lt (v : DWord) (hi lo : Nat) : bits v hi lo < 2 ^ (hi + 1 - lo) := Nat.mod_lt _ (by positivity)
/-- The field of a value that is replaced, between the bits below it and those above it. -/
theorem putBits_toNat (v : DWord) {hi lo : Nat} (x : Nat) (hl : lo ≤ hi + 1) (h64 : hi < 64) : (putBits v hi lo x).toNat =
    2 ^ lo * (2 ^ (hi + 1 - lo) * (v.toNat / 2 ^ (hi + 1)) + x % 2 ^ (hi + 1 - lo)) + v.toNat % 2 ^ lo := by
  have hpow : 2 ^ (hi + 1) = 2 ^ lo * 2 ^ (hi + 1 - lo) := by rw [← Nat.pow_add]; congr 1; omega
  have hv := Nat.div_add_mod v.toNat (2 ^ lo)
  have hb := Nat.div_add_mod (v.toNat / 2 ^ lo) (2 ^ (hi + 1 - lo))
  rw [Nat.div_div_eq_div_mul, ← hpow] at hb
  have hx := Nat.mod_lt x (show 0 < 2 ^ (hi + 1 - lo) by positivity)
  have hm := Nat.mod_lt v.toNat (show 0 < 2 ^ lo by positivity)
  have h64' : 2 ^ 64 = 2 ^ (hi + 1) * 2 ^ (63 - hi) := by rw [← Nat.pow_add]; congr 1; omega
  have hc : v.toNat / 2 ^ (hi + 1) + 1 ≤ 2 ^ (63 - hi) := by
    have := v.isLt
    rw [Nat.succ_le_iff, Nat.div_lt_iff_lt_mul (by positivity), Nat.mul_comm, ← h64']
    exact this
  unfold putBits bits
  generalize 2 ^ lo = A at *
  generalize 2 ^ (hi + 1 - lo) = B at *
  generalize v.toNat / 2 ^ (hi + 1) = C at *
  generalize v.toNat / A % B = b at *
  generalize x % B = y at *
  generalize v.toNat % A = a at *
  have hV : v.toNat = A * (B * C + b) + a := by rw [hb]; omega
  have hsub : v.toNat - b * A + y * A = A * (B * C + y) + a := by
    rw [hV, Nat.mul_add, Nat.mul_add, Nat.mul_comm b A, Nat.mul_comm y A]
    omega
  rw [hsub, BitVec.toNat_ofNat, Nat.mod_eq_of_lt]
  calc A * (B * C + y) + a < A * (B * C + y + 1) := by rw [Nat.mul_add _ _ 1]; omega
    _ ≤ A * (B * (C + 1)) := Nat.mul_le_mul_left _ (by rw [Nat.mul_add]; omega)
    _ ≤ A * (B * 2 ^ (63 - hi)) := Nat.mul_le_mul_left _ (Nat.mul_le_mul_left _ hc)
    _ = 2 ^ 64 := by rw [h64', hpow, Nat.mul_assoc]
theorem putBits_getLsbD (v : DWord) {hi lo : Nat} (x : Nat) (hl : lo ≤ hi + 1) (h64 : hi < 64) (k : Nat) :
    (putBits v hi lo x).getLsbD k = if lo ≤ k ∧ k ≤ hi then x.testBit (k - lo) else v.getLsbD k := by
  rw [← BitVec.testBit_toNat, putBits_toNat v x hl h64, Nat.testBit_two_pow_mul_add _ (Nat.mod_lt _ (by positivity)),
    Nat.testBit_two_pow_mul_add _ (Nat.mod_lt _ (by positivity)), Nat.testBit_mod_two_pow, Nat.testBit_mod_two_pow,
    Nat.testBit_div_two_pow, BitVec.testBit_toNat, BitVec.testBit_toNat]
  by_cases h1 : k < lo
  · have : ¬ lo ≤ k := by omega
    simp [h1, this]
  · by_cases h2 : k ≤ hi
    · have h3 : k - lo < hi + 1 - lo := by omega
      have h4 : lo ≤ k := by omega
      simp [h1, h2, h3, h4]
    · have h3 : ¬ k - lo < hi + 1 - lo := by omega
      have h4 : k - lo - (hi + 1 - lo) + (hi + 1) = k := by omega
      simp [h1, h2, h3, h4]
/-- A field that has been replaced. -/
theorem bits_putBits_same (v : DWord) {hi lo : Nat} (x : Nat) (hl : lo ≤ hi) (h64 : hi < 64) :
    bits (putBits v hi lo x) hi lo = x % 2 ^ (hi + 1 - lo) := by
  refine Nat.eq_of_testBit_eq fun k => ?_
  rw [bits_testBit, putBits_getLsbD v x (by omega) h64, Nat.testBit_mod_two_pow]
  by_cases h : k < hi + 1 - lo
  · have h1 : lo + k ≤ hi := by omega
    simp [h, h1]
  · simp [h]
/-- A field apart from the one replaced. -/
theorem bits_putBits_other (v : DWord) {hi lo : Nat} (x : Nat) {h l : Nat} (hl : lo ≤ hi) (h64 : hi < 64) (hd : h < lo ∨ hi < l) :
    bits (putBits v hi lo x) h l = bits v h l := by
  refine Nat.eq_of_testBit_eq fun k => ?_
  rw [bits_testBit, bits_testBit, putBits_getLsbD v x (by omega) h64]
  by_cases hk : k < h + 1 - l
  · rw [if_neg (by omega)]
  · simp [hk]
/-- A field is its lower part and its upper part. -/
theorem bits_split (v : DWord) {h m l : Nat} (hl : l < m) (hm : m ≤ h + 1) : bits v h l = 2 ^ (m - l) * bits v h m + bits v (m - 1) l := by
  refine Nat.eq_of_testBit_eq fun k => ?_
  have hlt : bits v (m - 1) l < 2 ^ (m - l) := by
    have := bits_lt v (m - 1) l
    rwa [show m - 1 + 1 - l = m - l by omega] at this
  rw [Nat.testBit_two_pow_mul_add _ hlt, bits_testBit, bits_testBit, bits_testBit]
  by_cases hk : k < m - l
  · have h1 : k < h + 1 - l := by omega
    have h2 : k < m - 1 + 1 - l := by omega
    simp [hk, h1, h2]
  · by_cases h1 : k < h + 1 - l
    · have h2 : k - (m - l) < h + 1 - m := by omega
      have h3 : m + (k - (m - l)) = l + k := by omega
      simp [hk, h1, h2, h3]
    · have h2 : ¬ k - (m - l) < h + 1 - m := by omega
      simp [hk, h1, h2]

/-! ### Registers of a package -/

@[simp] theorem Package.reg_setReg (q : Package) (o : Nat) (v : DWord) (off : Nat) :
    (q.setReg o v).reg off = if off = o then v else q.reg off := by
  unfold Package.setReg Package.reg
  rw [Sparse.get_set]
  by_cases h : off = o
  · subst h; simp
  · simp [h]
@[simp] theorem Package.reg_setFld (q : Package) (o hi lo x off : Nat) :
    (q.setFld o hi lo x).reg off = if off = o then putBits (q.reg o) hi lo x else q.reg off := Package.reg_setReg ..
/-- What a package holds beside its registers stays when one is written. -/
theorem Package.setReg_only (q : Package) (o : Nat) (v : DWord) : q.setReg o v = { q with regs := (q.setReg o v).regs } := rfl
theorem Package.setFld_only (q : Package) (o hi lo x : Nat) : q.setFld o hi lo x = { q with regs := (q.setFld o hi lo x).regs } := rfl
/-- Packages with the same registers. -/
theorem Package.reg_congr {q r : Package} (h : r.regs = q.regs) (h' : r.boot = q.boot) (off : Nat) : r.reg off = q.reg off := by
  unfold Package.reg; rw [h, h']

/-! ### A change of one package -/

theorem OnlyPkg.refl (s : State) (p : Nat) : OnlyPkg s s p := ⟨rfl, rfl, rfl, rfl, rfl, fun _ _ => rfl⟩
theorem OnlyPkg.trans {s t u : State} {p : Nat} (h : OnlyPkg s t p) (h' : OnlyPkg t u p) : OnlyPkg s u p := by
  obtain ⟨a, b, c, d, e, f⟩ := h
  obtain ⟨a', b', c', d', e', f'⟩ := h'
  exact ⟨a'.trans a, b'.trans b, c'.trans c, d'.trans d, e'.trans e, fun q hq => (f' q hq).trans (f q hq)⟩
theorem OnlyPkg.modPkg (s : State) (p : Nat) (f : Package → Package) : OnlyPkg s (s.modPkg p f) p :=
  ⟨rfl, rfl, rfl, rfl, rfl, fun q hq => by simp [State.pkg_modPkg, hq]⟩
theorem OnlyPkg.sendMsi (s : State) (p off : Nat) : OnlyPkg s (s.sendMsi p off) p := by
  unfold State.sendMsi
  dsimp only
  split
  · exact .refl s p
  · exact ⟨rfl, rfl, rfl, rfl, rfl, fun _ _ => rfl⟩
@[simp] theorem State.sendMsi_pkg (s : State) (p off q : Nat) : (s.sendMsi p off).pkg q = s.pkg q := by
  unfold State.sendMsi
  dsimp only
  split <;> rfl
theorem State.sendMsi_told (s : State) (p off : Nat) : s.Told (s.sendMsi p off) p off := by
  unfold State.Told State.sendMsi
  dsimp only
  split <;> simp
theorem State.Told.congr {s s' t t' : State} {p off : Nat} (h : s.Told t p off) (hm : s'.msis = s.msis) (hr : (s'.pkg p).reg off = (s.pkg p).reg off)
    (ht : t'.msis = t.msis) : s'.Told t' p off := by
  unfold State.Told at h ⊢
  rw [ht, h, hm, hr]
theorem SameRegs.refl (q : Package) (l : List Nat) : SameRegs q q l := fun _ _ => rfl
theorem SameRegs.trans {q r u : Package} {l : List Nat} (h : SameRegs q r l) (h' : SameRegs r u l) : SameRegs q u l :=
  fun o ho => (h' o ho).trans (h o ho)
theorem SameRegs.setFld (q : Package) {l : List Nat} {o : Nat} (ho : o ∈ l) (hi lo x : Nat) : SameRegs q (q.setFld o hi lo x) l := by
  intro off hoff
  have : off ≠ o := fun e => hoff (e ▸ ho)
  simp [this]
theorem SameRegs.setReg (q : Package) {l : List Nat} {o : Nat} (ho : o ∈ l) (v : DWord) : SameRegs q (q.setReg o v) l := by
  intro off hoff
  have : off ≠ o := fun e => hoff (e ▸ ho)
  simp [this]
theorem SameRegs.of_regs {q r : Package} (h : r.regs = q.regs) (h' : r.boot = q.boot) (l : List Nat) : SameRegs q r l :=
  fun o _ => Package.reg_congr h h' o

/-! ### Requests (R350 to R358) -/

/-- The state in which package p has taken a request of m, and answered it: what the request did, with the answer noted. -/
theorem masterWrite_hears {s : State} {p m : Nat} (h : (s.pkg p).Hears m) (name : String) (off : Nat) (v : DWord) :
    masterWrite name p m off v true s = .next (s.answer ((s.took p m).request p m off v) p m off) := by
  obtain ⟨ht, ho, hg⟩ := h
  simp [masterWrite, ht, State.served, State.lapsed, ho, hg]

theorem State.took_pkg (s : State) (p m : Nat) : (s.took p m).pkg p = { s.pkg p with reqAt := ((s.took p m).pkg p).reqAt } := by
  unfold State.took
  split
  · rfl
  · rw [State.pkg_modPkg_same]
theorem State.took_only (s : State) (p m : Nat) : OnlyPkg s (s.took p m) p := by
  unfold State.took
  split
  · exact .refl s p
  · exact .modPkg s p _
theorem State.took_msis (s : State) (p m : Nat) : (s.took p m).msis = s.msis := by
  unfold State.took; split <;> rfl
theorem State.took_reg (s : State) (p m off : Nat) : ((s.took p m).pkg p).reg off = (s.pkg p).reg off := by
  rw [State.took_pkg]; rfl
theorem State.answer_pkg (s t : State) (p m off : Nat) :
    (s.answer t p m off).pkg p = { t.pkg p with replies := ((s.answer t p m off).pkg p).replies } := by
  unfold State.answer; rw [State.pkg_modPkg_same]
theorem State.answer_only (s t : State) (p m off : Nat) : OnlyPkg t (s.answer t p m off) p := .modPkg t p _
theorem State.answer_msis (s t : State) (p m off : Nat) : (s.answer t p m off).msis = t.msis := rfl
theorem State.answer_reg (s t : State) (p m off o : Nat) : ((s.answer t p m off).pkg p).reg o = (t.pkg p).reg o := by
  rw [State.answer_pkg]; rfl
/-- A package whose registers a request's taking leaves: the same rights. -/
theorem State.took_right (s : State) (p m n off : Nat) : ((s.took p m).pkg p).right n off = (s.pkg p).right n off := by
  rw [State.took_pkg]; rfl

/-- A request that has one effect on its package: what is left of it is that effect. -/
theorem answered_modPkg (s : State) (p m off : Nat) (f : Package → Package) :
    let t := s.answer ((s.took p m).modPkg p f) p m off
    OnlyPkg s t p ∧ t.msis = s.msis ∧ (t.pkg p) = { f ((s.took p m).pkg p) with replies := (t.pkg p).replies } := by
  refine ⟨(s.took_only p m).trans ((OnlyPkg.modPkg _ p f).trans (State.answer_only s _ p m off)), s.took_msis p m, ?_⟩
  rw [State.answer_pkg, State.pkg_modPkg_same]
/-- R357 to R359: a request that freezes its master. -/
theorem freezes_answered (s : State) (p m off : Nat) : Freezes s (s.answer ((s.took p m).freeze p m off) p m off) p m off := by
  have hf : ((s.took p m).freeze p m off).pkg p = ((s.took p m).pkg p).setFld 0x0710 (16 * m + 15) (16 * m) (2 ^ 15 + off / 8) := by
    unfold State.freeze State.packageEvent State.setFld
    rw [State.sendMsi_pkg, State.pkg_modPkg_same]
  refine ⟨(s.took_only p m).trans (((OnlyPkg.modPkg _ p _).trans (.sendMsi _ p _)).trans (State.answer_only s _ p m off)), fun o ho => ?_, ?_, ?_⟩
  · rw [State.answer_reg, hf]
    have : o ≠ 0x0710 := by simpa using ho
    simp [this, State.took_reg]
  · refine (State.sendMsi_told ((s.took p m).setFld p 0x0710 (16 * m + 15) (16 * m) (2 ^ 15 + off / 8)) p 0x0760).congr (s.took_msis p m).symm ?_ rfl
    unfold State.setFld
    rw [State.pkg_modPkg_same]
    simp [State.took_reg]
  · rw [State.answer_reg, hf]
    simp [State.took_reg]

end Sys2Proof.Machine
end

section
/-! Ownership of a package (R353 to R355, R358). -/

namespace Sys2Proof.Machine

/-! ### What the taking of a request leaves -/

@[simp] theorem State.took_fld (s : State) (p m off hi lo : Nat) : ((s.took p m).pkg p).fld off hi lo = (s.pkg p).fld off hi lo := by
  unfold Package.fld; rw [State.took_reg]
@[simp] theorem State.took_noOwner (s : State) (p m : Nat) : ((s.took p m).pkg p).noOwner = (s.pkg p).noOwner := by
  unfold Package.noOwner; rw [State.took_fld]
@[simp] theorem State.took_owns (s : State) (p m n : Nat) : ((s.took p m).pkg p).owns n = (s.pkg p).owns n := by
  unfold Package.owns; rw [State.took_fld, State.took_noOwner]
@[simp] theorem State.took_present (s : State) (p m n : Nat) : ((s.took p m).pkg p).present n = (s.pkg p).present n := by
  unfold Package.present; rw [State.took_fld]
@[simp] theorem State.took_frozen (s : State) (p m n : Nat) : ((s.took p m).pkg p).frozen n = (s.pkg p).frozen n := by
  unfold Package.frozen; rw [State.took_fld]
theorem State.took_count (s : State) (p m : Nat) : ((s.took p m).pkg p).count = (s.pkg p).count := by rw [State.took_pkg]

/-- A request that changes registers of its package, among some, and what else `f` says. -/
theorem answered_regs (s : State) (p m off : Nat) (f : Package → Package) {g : Package → Package} (l : List Nat)
    (hf : ∀ q, (f q).regs = (g q).regs ∧ (f q).boot = (g q).boot) (hg : ∀ q, SameRegs q (g q) l) :
    let t := s.answer ((s.took p m).modPkg p f) p m off
    (OnlyPkg s t p ∧ SameRegs (s.pkg p) (t.pkg p) l ∧ t.msis = s.msis) ∧ ∀ o, (t.pkg p).reg o = (g ((s.took p m).pkg p)).reg o := by
  obtain ⟨ho, hm, hp⟩ := answered_modPkg s p m off f
  have hr : ∀ o, ((s.answer ((s.took p m).modPkg p f) p m off).pkg p).reg o = (g ((s.took p m).pkg p)).reg o := fun o => by
    rw [hp]
    exact Package.reg_congr (hf _).1 (hf _).2 o
  exact ⟨⟨ho, fun o hl => (hr o).trans ((hg _ o hl).trans (s.took_reg p m o)), hm⟩, hr⟩

/-! ### MSTCTL (R354) -/

theorem Speaks.hears {s : State} {p m : Nat} (h : Speaks s p m) : (s.pkg p).Hears m := h.2.1
/-- A write of MSTCTL by a master that is not frozen. -/
theorem mstctl_answered {s : State} {p m : Nat} (h : Speaks s p m) (name : String) (v : DWord) {b : Bool} (hb : b = true) :
    masterWrite name p m 0x0708 v b s = .next (s.answer ((s.took p m).mstctl p m v) p m 0x0708) := by
  have hm : m ≠ debugPort := by have := h.1; unfold debugPort; omega
  rw [hb, masterWrite_hears h.hears, State.request, if_pos ⟨rfl, hm⟩]
/-- A master that is not frozen, of a package that booted, is heard. -/
theorem mstctl_speaks {s : State} {p m : Nat} (h : Speaks s p m) :
    ¬ (((s.took p m).pkg p).fld 0x0018 15 8 ≠ 0 ∨ m = debugPort ∨ ((s.took p m).pkg p).frozen m = true) := by
  obtain ⟨hm, _, hs, hf⟩ := h
  rw [State.took_fld, State.took_frozen]
  have : m ≠ debugPort := by unfold debugPort; omega
  have hs' : (s.pkg p).fld 0x0018 15 8 = 0 := hs
  simp [hs', hf, this]
theorem owns_noOwner {q : Package} {m : Nat} (h : q.owns m = true) : q.noOwner = false := by
  unfold Package.owns at h
  cases hn : q.noOwner <;> simp_all
section
variable {s : State} {p m : Nat} (h : Speaks s p m) {v : DWord}
include h
theorem mstctl_claim (hop : bits v 63 61 = 1) (hz : bits v 60 2 = 0) : (s.took p m).mstctl p m v =
    if (s.pkg p).noOwner then (s.took p m).modPkg p (fun q => { (q.setFld 0x0700 1 0 m).setFld 0x0700 7 7 0 with absentSince := none })
    else s.took p m := by
  unfold State.mstctl
  dsimp only
  rw [if_neg (mstctl_speaks h), if_pos ⟨hop, hz⟩, State.took_noOwner]
theorem mstctl_noOwner (hop : bits v 63 61 ≠ 1) (hn : (s.pkg p).noOwner = true) : (s.took p m).mstctl p m v = (s.took p m).freeze p m 0x0708 := by
  unfold State.mstctl
  dsimp only
  rw [if_neg (mstctl_speaks h), if_neg (fun e => hop e.1), State.took_noOwner, if_pos hn]
theorem mstctl_accept (hop : bits v 63 61 = 4) (hz : bits v 60 2 = 0) (hn : (s.pkg p).noOwner = false) : (s.took p m).mstctl p m v =
    if (s.pkg p).fld 0x0700 6 6 = 1 ∧ (s.pkg p).fld 0x0700 5 4 = m then
      (s.took p m).modPkg p (fun q => { (q.setFld 0x0700 1 0 m).setFld 0x0700 6 6 0 with absentSince := none })
    else s.took p m := by
  unfold State.mstctl
  dsimp only
  rw [if_neg (mstctl_speaks h), if_neg (by simp [hop]), State.took_noOwner, if_neg (by simp [hn]), if_pos ⟨hop, hz⟩, State.took_fld, State.took_fld]
theorem mstctl_stranger (hop : bits v 63 61 ≠ 1) (hop' : bits v 63 61 ≠ 4) (ho : (s.pkg p).owns m = false) :
    (s.took p m).mstctl p m v = (s.took p m).freeze p m 0x0708 := by
  by_cases hn : (s.pkg p).noOwner = true
  · exact mstctl_noOwner h hop hn
  · unfold State.mstctl
    dsimp only
    rw [if_neg (mstctl_speaks h), if_neg (fun e => hop e.1), State.took_noOwner, if_neg hn, if_neg (fun e => hop' e.1), State.took_owns,
      if_pos (by simp [ho])]
theorem mstctl_offer (hop : bits v 63 61 = 2) (hz : bits v 60 2 = 0) (ho : (s.pkg p).owns m = true) : (s.took p m).mstctl p m v =
    if (s.pkg p).present (bits v 1 0) ∧ ¬ (s.pkg p).frozen (bits v 1 0) ∧ bits v 1 0 ≠ m then
      (s.took p m).modPkg p (fun q => { (q.setFld 0x0700 6 6 1).setFld 0x0700 5 4 (bits v 1 0) with offerAt := q.count })
    else s.took p m := by
  have hn : (s.pkg p).noOwner = false := owns_noOwner ho
  unfold State.mstctl
  dsimp only
  rw [if_neg (mstctl_speaks h), hop, if_neg (by simp), State.took_noOwner, if_neg (by simp [hn]), if_neg (by simp), State.took_owns,
    if_neg (by simp [ho]), if_neg (by simp [hz])]
  simp only [State.took_present, State.took_frozen]
theorem mstctl_withdraw (hop : bits v 63 61 = 3) (hz : bits v 60 2 = 0) (ho : (s.pkg p).owns m = true) :
    (s.took p m).mstctl p m v = (s.took p m).setFld p 0x0700 6 6 0 := by
  have hn : (s.pkg p).noOwner = false := owns_noOwner ho
  unfold State.mstctl
  dsimp only
  rw [if_neg (mstctl_speaks h), hop, if_neg (by simp), State.took_noOwner, if_neg (by simp [hn]), if_neg (by simp), State.took_owns,
    if_neg (by simp [ho]), if_neg (by simp [hz])]
  rfl
theorem mstctl_release (hop : bits v 63 61 = 5) (hz : bits v 60 2 = 0) (ho : (s.pkg p).owns m = true) :
    (s.took p m).mstctl p m v = (s.took p m).modPkg p (fun q => (q.setFld 0x0700 7 7 1).setFld 0x0700 6 6 0) := by
  have hn : (s.pkg p).noOwner = false := owns_noOwner ho
  unfold State.mstctl
  dsimp only
  rw [if_neg (mstctl_speaks h), hop, if_neg (by simp), State.took_noOwner, if_neg (by simp [hn]), if_neg (by simp), State.took_owns,
    if_neg (by simp [ho]), if_neg (by simp [hz])]
  rfl
end

theorem offer_bits {n : Nat} (hn : n < 4) : bits (BitVec.ofNat 64 (2 * 2 ^ 61 + n)) 63 61 = 2 ∧ bits (BitVec.ofNat 64 (2 * 2 ^ 61 + n)) 60 2 = 0
    ∧ bits (BitVec.ofNat 64 (2 * 2 ^ 61 + n)) 1 0 = n := by
  simp only [bits, BitVec.toNat_ofNat]
  omega

/-! ### The field of MSTOWN that each operation leaves -/

theorem putBits2_bits (v : DWord) {h1 l1 h2 l2 : Nat} (x y : Nat) {h l : Nat} (a : l1 ≤ h1) (b : h1 < 64) (a' : l2 ≤ h2) (b' : h2 < 64)
    (d : h < l1 ∨ h1 < l) (d' : h < l2 ∨ h2 < l) : bits (putBits (putBits v h1 l1 x) h2 l2 y) h l = bits v h l := by
  rw [bits_putBits_other _ _ a' b' d', bits_putBits_other _ _ a b d]

/-- The registers of a package with one field written, and then another. -/
theorem setFld2_same (q : Package) (o h1 l1 x h2 l2 y : Nat) : SameRegs q ((q.setFld o h1 l1 x).setFld o h2 l2 y) [o] :=
  SameRegs.trans (SameRegs.setFld q (by simp) h1 l1 x) (SameRegs.setFld _ (by simp) h2 l2 y)
theorem setFld2_reg (q : Package) (o h1 l1 x h2 l2 y : Nat) :
    ((q.setFld o h1 l1 x).setFld o h2 l2 y).reg o = putBits (putBits (q.reg o) h1 l1 x) h2 l2 y := by
  simp

/-- What an operation on the ownership leaves: the package alone, MSTOWN alone, no message. -/
def OwnsOnly (s t : State) (p : Nat) : Prop := OnlyPkg s t p ∧ SameRegs (s.pkg p) (t.pkg p) [0x0700] ∧ t.msis = s.msis
/-- An operation that writes two fields of MSTOWN. -/
theorem answered_own2 (s : State) (p m off h1 l1 x h2 l2 y : Nat) (f : Package → Package)
    (hf : ∀ q, (f q).regs = ((q.setFld 0x0700 h1 l1 x).setFld 0x0700 h2 l2 y).regs ∧ (f q).boot = q.boot) :
    let t := s.answer ((s.took p m).modPkg p f) p m off
    OwnsOnly s t p ∧ (t.pkg p).reg 0x0700 = putBits (putBits ((s.pkg p).reg 0x0700) h1 l1 x) h2 l2 y := by
  obtain ⟨ho, hr⟩ := answered_regs s p m off f (g := fun q => (q.setFld 0x0700 h1 l1 x).setFld 0x0700 h2 l2 y) [0x0700] hf (fun q => setFld2_same q 0x0700 h1 l1 x h2 l2 y)
  exact ⟨ho, (hr _).trans (by rw [setFld2_reg, State.took_reg])⟩

section
variable {s : State} {p m : Nat} (h : Speaks s p m)
include h
theorem claim_free (hn : (s.pkg p).noOwner = true) : ∃ t, exec (.mstctlClaim p m) s = .next t ∧ OwnsOnly s t p
    ∧ (t.pkg p).reg 0x0700 = putBits (putBits ((s.pkg p).reg 0x0700) 1 0 m) 7 7 0 := by
  obtain ⟨ho, hr⟩ := answered_own2 s p m 0x0708 1 0 m 7 7 0 (fun q => { (q.setFld 0x0700 1 0 m).setFld 0x0700 7 7 0 with absentSince := none })
    (fun q => ⟨rfl, rfl⟩)
  refine ⟨_, ?_, ho, hr⟩
  rw [exec_mstctlClaim_eq, execMstctlClaim, mstctl_answered h _ _ (by simpa using h.1), mstctl_claim h rfl rfl, if_pos hn]
theorem claim_owned (hn : (s.pkg p).noOwner = false) : exec (.mstctlClaim p m) s = .next (s.ignored p m 0x0708) := by
  rw [exec_mstctlClaim_eq, execMstctlClaim, mstctl_answered h _ _ (by simpa using h.1), mstctl_claim h rfl rfl, if_neg (by simp [hn])]
  rfl
theorem exec_offer {n : Nat} (hn : n < 4) (ho : (s.pkg p).owns m = true) : exec (.mstctlOffer p m n) s = .next (s.answer
    (if (s.pkg p).present n ∧ ¬ (s.pkg p).frozen n ∧ n ≠ m then
      (s.took p m).modPkg p (fun q => { (q.setFld 0x0700 6 6 1).setFld 0x0700 5 4 n with offerAt := q.count })
    else s.took p m) p m 0x0708) := by
  obtain ⟨hop, hz, hb⟩ := offer_bits hn
  rw [exec_mstctlOffer_eq, execMstctlOffer, mstctl_answered h _ _ (by simpa using ⟨h.1, hn⟩), mstctl_offer h hop hz ho, hb]
theorem exec_withdraw (ho : (s.pkg p).owns m = true) :
    exec (.mstctlWithdraw p m) s = .next (s.answer ((s.took p m).setFld p 0x0700 6 6 0) p m 0x0708) := by
  rw [exec_mstctlWithdraw_eq, execMstctlWithdraw, mstctl_answered h _ _ (by simpa using h.1), mstctl_withdraw h rfl rfl ho]
theorem exec_release (ho : (s.pkg p).owns m = true) :
    exec (.mstctlRelease p m) s = .next (s.answer ((s.took p m).modPkg p (fun q => (q.setFld 0x0700 7 7 1).setFld 0x0700 6 6 0)) p m 0x0708) := by
  rw [exec_mstctlRelease_eq, execMstctlRelease, mstctl_answered h _ _ (by simpa using h.1), mstctl_release h rfl rfl ho]
theorem exec_accept (hn : (s.pkg p).noOwner = false) : exec (.mstctlAccept p m) s = .next (s.answer
    (if (s.pkg p).fld 0x0700 6 6 = 1 ∧ (s.pkg p).fld 0x0700 5 4 = m then
      (s.took p m).modPkg p (fun q => { (q.setFld 0x0700 1 0 m).setFld 0x0700 6 6 0 with absentSince := none })
    else s.took p m) p m 0x0708) := by
  rw [exec_mstctlAccept_eq, execMstctlAccept, mstctl_answered h _ _ (by simpa using h.1), mstctl_accept h rfl rfl hn]
end

/-! ### The statement's parts -/

section
variable {s : State} {p m : Nat} (h : Speaks s p m)
include h
theorem strangers_freeze (ho : (s.pkg p).owns m = false) :
    exec (.mstctlWithdraw p m) s = .next (s.answer ((s.took p m).freeze p m 0x0708) p m 0x0708)
    ∧ exec (.mstctlRelease p m) s = .next (s.answer ((s.took p m).freeze p m 0x0708) p m 0x0708)
    ∧ ∀ n < 4, exec (.mstctlOffer p m n) s = .next (s.answer ((s.took p m).freeze p m 0x0708) p m 0x0708) := by
  refine ⟨?_, ?_, fun n hn => ?_⟩
  · rw [exec_mstctlWithdraw_eq, execMstctlWithdraw, mstctl_answered h _ _ (by simpa using h.1), mstctl_stranger h (by decide) (by decide) ho]
  · rw [exec_mstctlRelease_eq, execMstctlRelease, mstctl_answered h _ _ (by simpa using h.1), mstctl_stranger h (by decide) (by decide) ho]
  · obtain ⟨hop, _, _⟩ := offer_bits hn
    rw [exec_mstctlOffer_eq, execMstctlOffer, mstctl_answered h _ _ (by simpa using ⟨h.1, hn⟩), mstctl_stranger h (by rw [hop]; decide) (by rw [hop]; decide) ho]
theorem accept_nobody (hn : (s.pkg p).noOwner = true) :
    exec (.mstctlAccept p m) s = .next (s.answer ((s.took p m).freeze p m 0x0708) p m 0x0708) := by
  rw [exec_mstctlAccept_eq, execMstctlAccept, mstctl_answered h _ _ (by simpa using h.1), mstctl_noOwner h (by decide) hn]
end

/-! ### MSTFRZ (R358) -/

/-- One master thawed, where its bit says so. -/
def Package.thawOne (v : DWord) (q : Package) (m : Nat) : Package :=
  if v.getLsbD (16 * m + 15) then q.setFld 0x0710 (16 * m + 15) (16 * m + 15) 0 else q
theorem thaw_eq (q : Package) (v : DWord) : q.thaw v = (((q.thawOne v 0).thawOne v 1).thawOne v 2).thawOne v 3 := rfl
theorem thawOne_bits (v : DWord) (q : Package) {m : Nat} (hm : m < 4) {h l : Nat} (hd : h < 16 * m + 15 ∨ 16 * m + 15 < l) :
    bits ((q.thawOne v m).reg 0x0710) h l = bits (q.reg 0x0710) h l := by
  unfold Package.thawOne
  split
  · rw [Package.reg_setFld, if_pos rfl, bits_putBits_other _ _ (by omega) (by omega) hd]
  · rfl
theorem thawOne_frozen (v : DWord) (q : Package) {m : Nat} (hm : m < 4) (n : Nat) :
    (q.thawOne v m).frozen n = (q.frozen n && !(decide (n = m) && v.getLsbD (16 * m + 15))) := by
  unfold Package.frozen Package.fld
  by_cases hn : n = m
  · subst hn
    unfold Package.thawOne
    split
    · next h => simp [bits_putBits_same _ _ (Nat.le_refl (16 * n + 15)) (show 16 * n + 15 < 64 by omega), h]
    · next h => simp [h]
  · rw [thawOne_bits v q hm (by omega)]
    simp [hn]
theorem thawOne_same (v : DWord) (q : Package) (m : Nat) : SameRegs q (q.thawOne v m) [0x0710] := by
  unfold Package.thawOne
  split
  · exact SameRegs.setFld q (l := [0x0710]) (by simp) _ _ _
  · exact SameRegs.refl q _
theorem thawOne_boot (v : DWord) (q : Package) (m : Nat) : (q.thawOne v m).boot = q.boot := by
  unfold Package.thawOne; split <;> rfl
theorem thaw_same (v : DWord) (q : Package) : SameRegs q (q.thaw v) [0x0710] := by
  rw [thaw_eq]
  exact (((thawOne_same v q 0).trans (thawOne_same v _ 1)).trans (thawOne_same v _ 2)).trans (thawOne_same v _ 3)
theorem thaw_frozen (v : DWord) (q : Package) {n : Nat} (hn : n < 4) : (q.thaw v).frozen n = (q.frozen n && !v.getLsbD (16 * n + 15)) := by
  rw [thaw_eq, thawOne_frozen v _ (by omega), thawOne_frozen v _ (by omega), thawOne_frozen v _ (by omega), thawOne_frozen v _ (by omega)]
  interval_cases n <;> simp
theorem thaw_bits (v : DWord) (q : Package) (n : Nat) :
    bits ((q.thaw v).reg 0x0710) (16 * n + 14) (16 * n) = bits (q.reg 0x0710) (16 * n + 14) (16 * n) := by
  rw [thaw_eq, thawOne_bits v _ (by omega) (by omega), thawOne_bits v _ (by omega) (by omega), thawOne_bits v _ (by omega) (by omega),
    thawOne_bits v _ (by omega) (by omega)]
/-- The owner, which is not frozen, may write every register. -/
theorem Speaks.right_owner {s : State} {p m : Nat} (h : Speaks s p m) (ho : (s.pkg p).owns m = true) (off : Nat) :
    (s.pkg p).right m off = .acts := by
  obtain ⟨hm, _, hs, hf⟩ := h
  have hd : m ≠ debugPort := by unfold debugPort; omega
  have hs' : (s.pkg p).fld 0x0018 15 8 = 0 := hs
  simp [Package.right, hs', hd, hf, ho]
theorem exec_thaw {s : State} {p m : Nat} (h : Speaks s p m) (ho : (s.pkg p).owns m = true) (v : DWord) :
    exec (.mstfrzThaw p m v) s = .next (s.answer ((s.took p m).modPkg p (fun q => q.thaw v)) p m 0x0710) := by
  rw [exec_mstfrzThaw_eq, execMstfrzThaw, masterWrite_hears h.hears, State.request, if_neg (by simp), State.took_right, h.right_owner ho]
  rfl

/-! ### Lapses, losses and presence (R353, R355) -/

/-- A field of a register written, and an event of the package sent. -/
theorem setFld_event (s : State) (p o hi lo x : Nat) (ho : o ≠ 0x0760) :
    OnlyPkg s ((s.setFld p o hi lo x).packageEvent p) p ∧ SameRegs (s.pkg p) (((s.setFld p o hi lo x).packageEvent p).pkg p) [o]
      ∧ s.Told ((s.setFld p o hi lo x).packageEvent p) p 0x0760
      ∧ (((s.setFld p o hi lo x).packageEvent p).pkg p).reg o = putBits ((s.pkg p).reg o) hi lo x := by
  have hp : ((s.setFld p o hi lo x).packageEvent p).pkg p = (s.pkg p).setFld o hi lo x := by
    unfold State.packageEvent State.setFld
    rw [State.sendMsi_pkg, State.pkg_modPkg_same]
  refine ⟨(OnlyPkg.modPkg s p _).trans (.sendMsi _ p _), ?_, ?_, ?_⟩
  · rw [hp]; exact SameRegs.setFld _ (l := [o]) (by simp) _ _ _
  · refine (State.sendMsi_told (s.setFld p o hi lo x) p 0x0760).congr rfl ?_ rfl
    unfold State.setFld
    rw [State.pkg_modPkg_same, Package.reg_setFld, if_neg (Ne.symm ho)]
  · rw [hp]; simp

/-- A master's presence changes: one field of MSTOWN, and since when the owner has been away. -/
theorem presence_field (q : Package) {m : Nat} (hm : m < 4) (x n : Nat) :
    bits (putBits (q.reg 0x0700) (12 + m) (12 + m) x) (12 + n) (12 + n) = if n = m then x % 2 else bits (q.reg 0x0700) (12 + n) (12 + n) := by
  by_cases hn : n = m
  · subst hn
    rw [bits_putBits_same _ _ (Nat.le_refl _) (by omega), if_pos rfl]
    simp
  · rw [bits_putBits_other _ _ (Nat.le_refl _) (by omega) (by omega), if_neg hn]

theorem offerOver_of {q : Package} (ho : bits (q.reg 0x0700) 6 6 = 1)
    (hx : q.offerAt + 1000000000 ≤ q.count ∨ q.frozen (bits (q.reg 0x0700) 5 4) = true ∨ q.present (bits (q.reg 0x0700) 5 4) = false) :
    q.offerOver = true := by
  have ho' : q.fld 0x0700 6 6 = 1 := ho
  unfold Package.offerOver
  rw [ho']
  rcases hx with hx | hx | hx
  · have : q.offerAt + lapseTicks ≤ q.count := hx
    simp [this]
  · have : q.frozen (q.fld 0x0700 5 4) = true := hx
    simp [this]
  · have : q.present (q.fld 0x0700 5 4) = false := hx
    simp [this]
theorem ownerGone_of {q : Package} {a : Nat} (hn : q.noOwner = false) (h0 : bits (q.reg 0x0700) 1 0 ≠ 0)
    (hp : q.present (bits (q.reg 0x0700) 1 0) = false) (ha : q.absentSince = some a) (ht : a + 1000000000 ≤ q.count) : q.ownerGone = true := by
  have h0' : q.fld 0x0700 1 0 ≠ 0 := h0
  have hp' : q.present (q.fld 0x0700 1 0) = false := hp
  have ht' : a + lapseTicks ≤ q.count := ht
  unfold Package.ownerGone
  dsimp only
  rw [ha, Option.any_some, decide_eq_true ht', hp', hn, decide_eq_true h0']
  rfl
/-- MSTOWN with the presence of a master written. -/
theorem presence_reg (q : Package) (m : Nat) (up : Bool) (x : Option Nat) :
    Package.reg { q.setFld 0x0700 (12 + m) (12 + m) (if up then 1 else 0) with absentSince := x } 0x0700 =
      putBits (q.reg 0x0700) (12 + m) (12 + m) (if up then 1 else 0) :=
  (Package.reg_setFld q 0x0700 (12 + m) (12 + m) (if up then 1 else 0) 0x0700).trans (if_pos rfl)
/-- A master comes or goes: nothing lapses before. -/
theorem exec_presence {s : State} {p m : Nat} {up : Bool} (h0 : 0 < m) (h4 : m < 4) (ho : (s.pkg p).offerOver = false)
    (hg : (s.pkg p).ownerGone = false) (hp : (s.pkg p).present m ≠ up) (h3 : m = 3 → up = true → bits ((s.pkg p).reg 0x0008) 33 33 = 1) :
    exec (.masterPresenceChange p m up) s = .next (s.modPkg p (fun q => { q.setFld 0x0700 (12 + m) (12 + m) (if up then 1 else 0) with
      absentSince := if q.owns m then (if up then none else some q.count) else q.absentSince })) := by
  have hl : s.lapsed p = s := by
    unfold State.lapsed
    simp only [ho, hg, Bool.false_eq_true, if_false]
  have hcond : ¬ (m = 0 ∨ 4 ≤ m ∨ (s.pkg p).present m = up ∨ (m = 3 ∧ up = true ∧ (s.pkg p).fld 0x0008 33 33 = 0)) := by
    rintro (e | e | e | ⟨e, e', e''⟩)
    · omega
    · omega
    · exact hp e
    · exact absurd ((h3 e e').symm.trans e'') (by decide)
  rw [exec_masterPresenceChange_eq, execMasterPresenceChange]
  dsimp only
  rw [if_neg hcond, hl]

/-- Settles O39: the operations on MSTCTL and MSTFRZ, each for whom it is, then the lapses, the losses and the presence. -/
theorem ownership : Obligations.Ownership := by
  unfold Obligations.Ownership
  intro s p m q own at' was
  refine ⟨fun h => ⟨fun hn => ?claim, claim_owned h, fun n hn ho hp hf hne => ?offer, fun n hn ho hno => ?offerNot, fun ho => ?withdraw,
    fun ho => ?release, fun hn hoff hto => ?accept, fun hn hno => ?acceptNot, fun ho => ?stranger, fun ho n hn => ?strangerOffer,
    fun hn => ⟨_, accept_nobody h hn, freezes_answered ..⟩, fun v ho => ?thaw⟩, fun ho hx => ?lapse, fun a hn h0 hp ha ht => ?loss,
    fun up h0 h4 hoo hog hpr h3 => ?presence⟩
  case claim =>
    obtain ⟨t, ht, ho, hr⟩ := claim_free h hn
    have hm := h.1
    refine ⟨t, ht, ho, ?_, ?_, ?_, ?_⟩ <;> simp only [at', hr]
    · rw [bits_putBits_other _ _ (by omega) (by omega) (by omega), bits_putBits_same _ _ (by omega) (by omega)]
      omega
    · exact bits_putBits_same _ _ (by omega) (by omega)
    · exact putBits2_bits _ _ _ (by omega) (by omega) (by omega) (by omega) (by omega) (by omega)
    · exact putBits2_bits _ _ _ (by omega) (by omega) (by omega) (by omega) (by omega) (by omega)
  case offer =>
    obtain ⟨hw, hr⟩ := answered_own2 s p m 0x0708 6 6 1 5 4 n
      (fun q => { (q.setFld 0x0700 6 6 1).setFld 0x0700 5 4 n with offerAt := q.count }) (fun q => ⟨rfl, rfl⟩)
    have hx := exec_offer h hn ho
    rw [if_pos ⟨hp, by simpa using hf, hne⟩] at hx
    refine ⟨_, hx, hw, ?_, ?_, ?_, ?_⟩
    · simp only [at', hr]
      rw [bits_split _ (show 4 < 6 by omega) (by omega), bits_putBits_same _ _ (by omega) (by omega),
        bits_putBits_other _ _ (by omega) (by omega) (by omega), bits_putBits_same _ _ (by omega) (by omega)]
      omega
    · simp only [at', hr]
      exact putBits2_bits _ _ _ (by omega) (by omega) (by omega) (by omega) (by omega) (by omega)
    · simp only [at', hr]
      exact putBits2_bits _ _ _ (by omega) (by omega) (by omega) (by omega) (by omega) (by omega)
    · rw [State.answer_pkg, State.pkg_modPkg_same]
      exact State.took_count s p m
  case offerNot =>
    rw [exec_offer h hn ho, if_neg]
    · rfl
    · rintro ⟨h1, h2, h3⟩
      rcases hno with e | e | e
      · exact absurd (h1.symm.trans e) (by decide)
      · exact h2 e
      · exact h3 e
  case withdraw =>
    obtain ⟨hw, hr⟩ := answered_regs s p m 0x0708 (fun q => q.setFld 0x0700 6 6 0) (g := fun q => q.setFld 0x0700 6 6 0) [0x0700]
      (fun q => ⟨rfl, rfl⟩) (fun q => SameRegs.setFld q (l := [0x0700]) (by simp) _ _ _)
    refine ⟨_, exec_withdraw h ho, hw, ?_, ?_, ?_⟩ <;> simp only [at', State.setFld, hr, Package.reg_setFld, if_true, State.took_reg]
    · exact bits_putBits_same _ _ (by omega) (by omega)
    · exact bits_putBits_other _ _ (by omega) (by omega) (by omega)
    · exact bits_putBits_other _ _ (by omega) (by omega) (by omega)
  case release =>
    obtain ⟨hw, hr⟩ := answered_own2 s p m 0x0708 7 7 1 6 6 0 (fun q => (q.setFld 0x0700 7 7 1).setFld 0x0700 6 6 0) (fun q => ⟨rfl, rfl⟩)
    refine ⟨_, exec_release h ho, hw, ?_, ?_, ?_⟩ <;> simp only [at', hr]
    · rw [bits_split _ (show 6 < 7 by omega) (by omega), bits_putBits_other _ _ (by omega) (by omega) (by omega),
        bits_putBits_same _ _ (by omega) (by omega), bits_putBits_same _ _ (by omega) (by omega)]
      rfl
    · exact putBits2_bits _ _ _ (by omega) (by omega) (by omega) (by omega) (by omega) (by omega)
    · exact putBits2_bits _ _ _ (by omega) (by omega) (by omega) (by omega) (by omega) (by omega)
  case accept =>
    obtain ⟨hw, hr⟩ := answered_own2 s p m 0x0708 1 0 m 6 6 0
      (fun q => { (q.setFld 0x0700 1 0 m).setFld 0x0700 6 6 0 with absentSince := none }) (fun q => ⟨rfl, rfl⟩)
    have hx := exec_accept h hn
    rw [if_pos ⟨hoff, hto⟩] at hx
    have hm := h.1
    refine ⟨_, hx, hw, ?_, ?_, ?_, ?_⟩ <;> simp only [at', hr]
    · rw [bits_putBits_other _ _ (by omega) (by omega) (by omega), bits_putBits_same _ _ (by omega) (by omega)]
      omega
    · exact bits_putBits_same _ _ (by omega) (by omega)
    · exact putBits2_bits _ _ _ (by omega) (by omega) (by omega) (by omega) (by omega) (by omega)
    · exact putBits2_bits _ _ _ (by omega) (by omega) (by omega) (by omega) (by omega) (by omega)
  case acceptNot =>
    rw [exec_accept h hn, if_neg]
    · rfl
    · rintro ⟨h1, h2⟩
      rcases hno with e | e
      · exact absurd (h1.symm.trans e) (by decide)
      · exact e h2
  case stranger =>
    obtain ⟨h1, h2, _⟩ := strangers_freeze h ho
    exact ⟨_, h1, h2, freezes_answered ..⟩
  case strangerOffer =>
    obtain ⟨_, _, h3⟩ := strangers_freeze h ho
    exact ⟨_, h3 n hn, freezes_answered ..⟩
  case thaw =>
    obtain ⟨⟨hw, hs, _⟩, hr⟩ := answered_regs s p m 0x0710 (fun q => q.thaw v) (g := fun q => q.thaw v) [0x0710]
      (fun q => ⟨rfl, rfl⟩) (fun q => thaw_same v q)
    refine ⟨_, exec_thaw h ho v, hw, hs, fun n hn => ⟨?_, ?_⟩⟩
    · have := thaw_frozen v ((s.took p m).pkg p) hn
      rw [State.took_frozen] at this
      rw [← this]
      unfold Package.frozen Package.fld
      rw [hr]
    · rw [hr, thaw_bits, State.took_reg]
  case lapse =>
    have hoo : q.offerOver = true := offerOver_of ho hx
    obtain ⟨h1, h2, h3, h4⟩ := setFld_event s p 0x0700 6 6 0 (by decide)
    refine ⟨_, by rw [exec_offerLapse_eq, execOfferLapse, if_pos hoo]; rfl, h1, h2, h3, ?_, ?_, ?_⟩ <;> simp only [at', h4]
    · exact bits_putBits_same _ _ (by omega) (by omega)
    · exact bits_putBits_other _ _ (by omega) (by omega) (by omega)
    · exact bits_putBits_other _ _ (by omega) (by omega) (by omega)
  case loss =>
    have hog : q.ownerGone = true := ownerGone_of hn h0 hp ha ht
    obtain ⟨h1, h2, h3, h4⟩ := setFld_event s p 0x0700 7 7 1 (by decide)
    refine ⟨_, by rw [exec_ownershipLoss_eq, execOwnershipLoss, if_pos hog]; rfl, h1, h2, h3, ?_, ?_, ?_⟩ <;> simp only [at', h4]
    · exact bits_putBits_same _ _ (by omega) (by omega)
    · exact bits_putBits_other _ _ (by omega) (by omega) (by omega)
    · exact bits_putBits_other _ _ (by omega) (by omega) (by omega)
  case presence =>
    refine ⟨_, exec_presence h0 h4 hoo hog hpr h3, ⟨.modPkg _ _ _, ?_, rfl⟩, ?_, fun n hn hne => ?_, ?_, ?_⟩
    · rw [State.pkg_modPkg_same]
      exact SameRegs.trans (SameRegs.setFld (s.pkg p) (l := [0x0700]) (by simp) _ _ _) (SameRegs.of_regs rfl rfl _)
    · have := presence_field (s.pkg p) h4 (if up then 1 else 0) m
      rw [if_pos rfl] at this
      rw [State.pkg_modPkg_same, Package.present, Package.fld, presence_reg, this]
      cases up <;> rfl
    · have := presence_field (s.pkg p) h4 (if up then 1 else 0) n
      rw [if_neg hne] at this
      rw [State.pkg_modPkg_same, Package.present, Package.fld, presence_reg, this]
      rfl
    · simp only [at']
      rw [State.pkg_modPkg_same, presence_reg]
      exact bits_putBits_other _ _ (by omega) (by omega) (by omega)
    · rw [State.pkg_modPkg_same]

end Sys2Proof.Machine
end

section
/-! Writes of the service registers (R6, R282, R285, R287, R350 to R352, R357, R421). -/

namespace Sys2Proof.Machine

/-! ### Rights -/

theorem takes_iff (q : Package) {m : Nat} (hm : m < 4) : q.takes m = true ↔ q.present m = true ∧ (q.reqAt.1 = q.count → q.reqAt.2 ≤ m) := by
  have hd : m ≠ debugPort := by unfold debugPort; omega
  unfold Package.takes Package.reaches
  simp [hd, hm, imp_iff_not_or]
theorem right_of_master {q : Package} {m : Nat} (hm : m < 4) (hs : bits (q.reg 0x0018) 15 8 = 0) (hf : q.frozen m = false) (off : Nat) :
    q.right m off = if q.owns m || (!q.noOwner && q.inWindow m off) then .acts else .freezes := by
  have hd : m ≠ debugPort := by unfold debugPort; omega
  have hs' : q.fld 0x0018 15 8 = 0 := hs
  unfold Package.right
  rw [if_neg (not_not.2 hs'), if_neg hd, if_neg (by simp [hf])]
theorem right_refused {q : Package} {m : Nat} (h : bits (q.reg 0x0018) 15 8 ≠ 0 ∨ m < 4 ∧ q.frozen m = true) (off : Nat) :
    q.right m off = .refused := by
  unfold Package.right
  by_cases hs : q.fld 0x0018 15 8 = 0
  · rcases h with h | ⟨hm, hf⟩
    · exact absurd hs h
    · have hd : m ≠ debugPort := by unfold debugPort; omega
      rw [if_neg (not_not.2 hs), if_neg hd, if_pos hf]
  · rw [if_pos hs]
theorem noOwner_owns {q : Package} (h : q.noOwner = true) (m : Nat) : q.owns m = false := by simp [Package.owns, h]

/-! ### Requests that act -/

/-- A write that acts: the register's own effect, answered. -/
theorem acts_answered {s : State} {p m off : Nat} (h : MayWrite s p m off) (ho : off ≠ 0x0708) (name : String) (v : DWord) {b : Bool} (hb : b = true) :
    masterWrite name p m off v b s = .next (s.answer ((s.took p m).regWrite p off v) p m off) := by
  rw [hb, masterWrite_hears h.1, State.request, if_neg (fun e => ho e.1), State.took_right, h.2]
/-- A write that acts and changes its package alone. -/
theorem acts_modPkg {s : State} {p m off : Nat} (h : MayWrite s p m off) (ho : off ≠ 0x0708) (name : String) (v : DWord) {b : Bool} (hb : b = true)
    {f : Package → Package} (hr : (s.took p m).regWrite p off v = (s.took p m).modPkg p f) :
    masterWrite name p m off v b s = .next (s.answer ((s.took p m).modPkg p f) p m off) := by
  rw [acts_answered h ho name v hb, hr]

/-! ### Bits under a mask -/

theorem putMask_reg (q : Package) (off : Nat) (mask v : DWord) (o : Nat) :
    (q.putMask off mask v).reg o = if o = off then (q.reg off &&& ~~~mask) ||| (v &&& mask) else q.reg o := Package.reg_setReg ..
theorem putMask_same (q : Package) (off : Nat) (mask v : DWord) : SameRegs q (q.putMask off mask v) [off] :=
  SameRegs.setReg q (l := [off]) (by simp) _
/-- A field that the mask covers. -/
theorem bits_mask_in (a v mask : DWord) {h l : Nat} (hm : ∀ k < 64, l ≤ k → k ≤ h → mask.getLsbD k = true) :
    bits ((a &&& ~~~mask) ||| (v &&& mask)) h l = bits v h l := by
  refine Nat.eq_of_testBit_eq fun k => ?_
  rw [bits_testBit, bits_testBit]
  by_cases hk : k < h + 1 - l
  · by_cases h64 : l + k < 64
    · have := hm (l + k) h64 (by omega) (by omega)
      simp only [hk, decide_true, Bool.true_and, BitVec.getLsbD_or, BitVec.getLsbD_and, BitVec.getLsbD_not, this, h64]
      simp
    · rw [BitVec.getLsbD_of_ge _ _ (by omega), BitVec.getLsbD_of_ge _ _ (by omega)]
  · simp [hk]
/-- A field that the mask leaves. -/
theorem bits_mask_out (a v mask : DWord) {h l : Nat} (hm : ∀ k < 64, l ≤ k → k ≤ h → mask.getLsbD k = false) :
    bits ((a &&& ~~~mask) ||| (v &&& mask)) h l = bits a h l := by
  refine Nat.eq_of_testBit_eq fun k => ?_
  rw [bits_testBit, bits_testBit]
  by_cases hk : k < h + 1 - l
  · by_cases h64 : l + k < 64
    · have := hm (l + k) h64 (by omega) (by omega)
      simp only [hk, decide_true, Bool.true_and, BitVec.getLsbD_or, BitVec.getLsbD_and, BitVec.getLsbD_not, this, h64]
      simp
    · rw [BitVec.getLsbD_of_ge _ _ (by omega), BitVec.getLsbD_of_ge _ _ (by omega)]
  · simp [hk]

/-! ### Plain registers, and those of the queues -/

theorem regWrite_plain {s : State} {p off : Nat} (h : plainMask off ≠ 0) (v : DWord) :
    s.regWrite p off v = s.modPkg p (fun q => q.putMask off (plainMask off) v) := by
  unfold State.regWrite; rw [if_pos h]
theorem plainMask_queue {off : Nat} (h0 : 0x2000 ≤ off) (h1 : off < 0x2800) : plainMask off = 0 := by
  unfold plainMask
  rw [if_neg (by omega), if_neg (by omega), if_neg (by omega)]
  split
  all_goals try omega
  rfl
theorem plainMask_event {n : Nat} (h : n < 4096) : plainMask (0x4000 + 8 * n) = 0x00000000000FFFFF := by
  unfold plainMask
  rw [if_neg (by omega), if_neg (by omega), if_pos (by omega)]
theorem regWrite_queue {off : Nat} (h0 : 0x2000 ≤ off) (h1 : off < 0x2800) (s : State) (p : Nat) (v : DWord) : s.regWrite p off v =
    match off % 32 with
    | 0 => s.modPkg p (fun x => x.queueBase ((off - 0x2000) / 32) v)
    | 8 => s.modPkg p (fun x => x.queueCtl ((off - 0x2000) / 32) v)
    | 16 => s.queuePtr p ((off - 0x2000) / 32) (bits v 31 0)
    | _ => s := by
  unfold State.regWrite
  rw [if_neg (not_not.2 (plainMask_queue h0 h1)), if_neg (by omega), if_neg (by omega), if_neg (by omega), if_pos ⟨h0, h1⟩] <;> rfl
theorem regWrite_ptr {q : Nat} (hq : q < 64) (s : State) (p : Nat) (w : Word) :
    s.regWrite p (0x2010 + 32 * q) (w.setWidth 64) = s.queuePtr p q w.toNat := by
  have h1 : (0x2010 + 32 * q) % 32 = 16 := by omega
  have h2 : (0x2010 + 32 * q - 0x2000) / 32 = q := by omega
  have h3 : bits (w.setWidth 64) 31 0 = w.toNat := by
    unfold bits
    rw [BitVec.toNat_setWidth_of_le (by omega), Nat.pow_zero, Nat.div_one]
    exact Nat.mod_eq_of_lt w.isLt
  rw [regWrite_queue (by omega) (by omega)]
  split
  case h_3 => rw [h2, h3]
  case h_4 h16 => exact absurd h1 h16
  all_goals omega
theorem regWrite_ctl {q : Nat} (hq : q < 64) (s : State) (p : Nat) (v : DWord) :
    s.regWrite p (0x2008 + 32 * q) v = s.modPkg p (fun x => x.queueCtl q v) := by
  have h1 : (0x2008 + 32 * q) % 32 = 8 := by omega
  have h2 : (0x2008 + 32 * q - 0x2000) / 32 = q := by omega
  rw [regWrite_queue (by omega) (by omega), h1, h2]
  rfl

/-! ### A queue's control -/

theorem queueCtl_same (x : Package) (q : Nat) (v : DWord) : SameRegs x (x.queueCtl q v) [0x2008 + 32 * q] := by
  unfold Package.queueCtl
  dsimp only
  split
  · exact putMask_same x _ _ v
  · split
    · exact SameRegs.trans (SameRegs.trans (putMask_same x _ 0xFEFFFF0000000000 v) (SameRegs.setFld _ (l := [0x2008 + 32 * q]) (by simp) 39 32 0))
        (SameRegs.setFld _ (l := [0x2008 + 32 * q]) (by simp) 31 31 0)
    · exact putMask_same x _ _ v
/-- While the queue runs, its enable and its priority alone are taken. -/
theorem queueCtl_running {x : Package} {q : Nat} (v : DWord) (h : bits (x.reg (0x2008 + 32 * q)) 63 63 = 1) :
    (x.queueCtl q v).reg (0x2008 + 32 * q) = (x.reg (0x2008 + 32 * q) &&& ~~~0xE000000000000000) ||| (v &&& 0xE000000000000000) := by
  unfold Package.queueCtl
  dsimp only
  have h' : x.fld (0x2008 + 32 * q) 63 63 = 1 := h
  rw [if_pos h', putMask_reg, if_pos rfl]
/-- Of a queue that does not run, every field is taken, and its error is cleared where it is enabled. -/
theorem queueCtl_stopped {x : Package} {q : Nat} (v : DWord) (h : bits (x.reg (0x2008 + 32 * q)) 63 63 ≠ 1) :
    (x.queueCtl q v).reg (0x2008 + 32 * q) =
      let r := (x.reg (0x2008 + 32 * q) &&& ~~~0xFEFFFF0000000000) ||| (v &&& 0xFEFFFF0000000000)
      if bits v 63 63 = 1 then putBits (putBits r 39 32 0) 31 31 0 else r := by
  unfold Package.queueCtl
  dsimp only
  have h' : x.fld (0x2008 + 32 * q) 63 63 ≠ 1 := h
  rw [if_neg h']
  split
  · rw [setFld2_reg, putMask_reg, if_pos rfl]
  · rw [putMask_reg, if_pos rfl]
/-- What the control of a queue that does not run holds after a write. -/
theorem stoppedCtl_bits (old v : DWord) (new : DWord)
    (hnew : new = let r := (old &&& ~~~0xFEFFFF0000000000) ||| (v &&& 0xFEFFFF0000000000)
      if bits v 63 63 = 1 then putBits (putBits r 39 32 0) 31 31 0 else r) :
    bits new 63 61 = bits v 63 61 ∧ bits new 56 56 = bits old 56 56 ∧ bits new 60 57 = bits v 60 57 ∧ bits new 55 40 = bits v 55 40
      ∧ bits new 39 31 = if bits v 63 63 = 1 then 0 else bits old 39 31 := by
  dsimp only at hnew
  by_cases hv : bits v 63 63 = 1
  · rw [if_pos hv] at hnew ⊢
    subst hnew
    refine ⟨?_, ?_, ?_, ?_, ?_⟩
    · rw [putBits2_bits _ _ _ (by omega) (by omega) (by omega) (by omega) (by omega) (by omega)]
      exact bits_mask_in _ _ _ (by decide)
    · rw [putBits2_bits _ _ _ (by omega) (by omega) (by omega) (by omega) (by omega) (by omega)]
      exact bits_mask_out _ _ _ (by decide)
    · rw [putBits2_bits _ _ _ (by omega) (by omega) (by omega) (by omega) (by omega) (by omega)]
      exact bits_mask_in _ _ _ (by decide)
    · rw [putBits2_bits _ _ _ (by omega) (by omega) (by omega) (by omega) (by omega) (by omega)]
      exact bits_mask_in _ _ _ (by decide)
    · rw [bits_split _ (show 31 < 32 by omega) (by omega), bits_putBits_same _ _ (by omega) (by omega),
        bits_putBits_other _ _ (by omega) (by omega) (by omega), bits_putBits_same _ _ (by omega) (by omega)]
      rfl
  · rw [if_neg hv] at hnew ⊢
    subst hnew
    exact ⟨bits_mask_in _ _ _ (by decide), bits_mask_out _ _ _ (by decide), bits_mask_in _ _ _ (by decide), bits_mask_in _ _ _ (by decide),
      bits_mask_out _ _ _ (by decide)⟩

/-! ### A queue's write pointer -/

/-- What a write of a queue's WPTR leaves, in a state with the package as it was. -/
theorem queuePtr_effect (s : State) (p q : Nat) (w : Word) :
    let t := s.queuePtr p q w.toNat
    let used := (w.toNat + 2 ^ 32 - bits ((s.pkg p).reg (0x2010 + 32 * q)) 63 32) % 2 ^ 32
    let size := 2 ^ (bits ((s.pkg p).reg (0x2008 + 32 * q)) 60 57 + 4)
    OnlyPkg s t p ∧ (t.pkg p).reg (0x2010 + 32 * q) = putBits ((s.pkg p).reg (0x2010 + 32 * q)) 31 0 w.toNat
      ∧ (used ≤ size → t.msis = s.msis ∧ SameRegs (s.pkg p) (t.pkg p) [0x2010 + 32 * q])
      ∧ (size < used → s.Told t p 0x0760 ∧ bits ((t.pkg p).reg (0x2008 + 32 * q)) 39 31 = 3 * 2 + 1
            ∧ SameRegs (s.pkg p) (t.pkg p) [0x2008 + 32 * q, 0x2010 + 32 * q]) := by
  intro t used size
  have hne : 0x2008 + 32 * q ≠ 0x2010 + 32 * q := by omega
  have hp1 : (s.setFld p (0x2010 + 32 * q) 31 0 w.toNat).pkg p = (s.pkg p).setFld (0x2010 + 32 * q) 31 0 w.toNat := by
    unfold State.setFld; rw [State.pkg_modPkg_same]
  have ht : t = if size < used then (s.setFld p (0x2010 + 32 * q) 31 0 w.toNat).stopQueue p q 3 else s.setFld p (0x2010 + 32 * q) 31 0 w.toNat := by
    have hw : bits (putBits ((s.pkg p).reg (0x2010 + 32 * q)) 31 0 w.toNat) 31 0 = w.toNat := by
      rw [bits_putBits_same _ _ (by omega) (by omega)]
      exact Nat.mod_eq_of_lt w.isLt
    simp only [t, State.queuePtr, hp1, Package.fld, Package.reg_setFld, if_true, if_neg hne, hw,
      bits_putBits_other ((s.pkg p).reg (0x2010 + 32 * q)) w.toNat (show 0 ≤ 31 by omega) (show 31 < 64 by omega) (show 63 < 0 ∨ 31 < 32 by omega)]
    rfl
  have hp2 : ((s.setFld p (0x2010 + 32 * q) 31 0 w.toNat).stopQueue p q 3).pkg p = ((s.pkg p).setFld (0x2010 + 32 * q) 31 0 w.toNat).setReg (0x2008 + 32 * q)
      (putBits (putBits ((s.pkg p).reg (0x2008 + 32 * q)) 39 32 3) 31 31 1) := by
    unfold State.stopQueue State.packageEvent
    rw [State.sendMsi_pkg, State.pkg_modPkg_same, hp1, Package.reg_setFld, if_neg hne]
  by_cases hu : size < used
  · rw [if_pos hu] at ht
    rw [ht]
    refine ⟨((OnlyPkg.modPkg s p _).trans (.modPkg _ p _)).trans (.sendMsi _ p _), ?_, fun h => absurd hu (by omega), fun _ => ⟨?_, ?_, ?_⟩⟩
    · rw [hp2, Package.reg_setReg, if_neg hne.symm, Package.reg_setFld, if_pos rfl]
    · refine (State.sendMsi_told ((s.setFld p (0x2010 + 32 * q) 31 0 w.toNat).modPkg p (fun x => x.setReg (0x2008 + 32 * q)
        (putBits (putBits (x.reg (0x2008 + 32 * q)) 39 32 3) 31 31 1))) p 0x0760).congr rfl ?_ rfl
      rw [State.pkg_modPkg_same, Package.reg_setReg, if_neg (by omega), hp1, Package.reg_setFld, if_neg (by omega)]
    · rw [hp2, Package.reg_setReg, if_pos rfl, bits_split _ (show 31 < 32 by omega) (by omega), bits_putBits_same _ _ (by omega) (by omega),
        bits_putBits_other _ _ (by omega) (by omega) (by omega), bits_putBits_same _ _ (by omega) (by omega)]
      rfl
    · rw [hp2]
      exact SameRegs.trans (SameRegs.setFld _ (l := [0x2008 + 32 * q, 0x2010 + 32 * q]) (by simp) 31 0 w.toNat) (SameRegs.setReg _ (by simp) _)
  · rw [if_neg hu] at ht
    rw [ht]
    refine ⟨.modPkg s p _, ?_, fun _ => ⟨rfl, ?_⟩, fun h => absurd h hu⟩
    · rw [hp1, Package.reg_setFld, if_pos rfl]
    · rw [hp1]; exact SameRegs.setFld _ (l := [0x2010 + 32 * q]) (by simp) 31 0 w.toNat

/-- A write of a queue's WPTR that acts. -/
theorem qptrWrite_effect {s : State} {p m q : Nat} {w : Word} (hq : q < 64) (h : MayWrite s p m (0x2010 + 32 * q)) :
    ∃ t, exec (.qptrWptrWrite p m q w) s = .next t ∧ OnlyPkg s t p
      ∧ (t.pkg p).reg (0x2010 + 32 * q) = putBits ((s.pkg p).reg (0x2010 + 32 * q)) 31 0 w.toNat
      ∧ (let size := 2 ^ (bits ((s.pkg p).reg (0x2008 + 32 * q)) 60 57 + 4)
         let used := (w.toNat + 2 ^ 32 - bits ((s.pkg p).reg (0x2010 + 32 * q)) 63 32) % 2 ^ 32
         (used ≤ size → t.msis = s.msis ∧ SameRegs (s.pkg p) (t.pkg p) [0x2010 + 32 * q])
         ∧ (size < used → s.Told t p 0x0760 ∧ bits ((t.pkg p).reg (0x2008 + 32 * q)) 39 31 = 3 * 2 + 1
            ∧ SameRegs (s.pkg p) (t.pkg p) [0x2008 + 32 * q, 0x2010 + 32 * q])) := by
  have key := queuePtr_effect (s.took p m) p q w
  dsimp only at key
  generalize hu : (s.took p m).queuePtr p q w.toNat = u at key
  simp only [State.took_reg] at key
  obtain ⟨ho, hr, hle, hgt⟩ := key
  have hx : exec (.qptrWptrWrite p m q w) s = .next (s.answer u p m (0x2010 + 32 * q)) := by
    rw [exec_qptrWptrWrite_eq, execQptrWptrWrite, acts_answered h (by omega) _ _ (by simpa using hq), regWrite_ptr hq, hu]
  refine ⟨_, hx, (s.took_only p m).trans (ho.trans (State.answer_only ..)), ?_, fun hu => ?_, fun hu => ?_⟩
  · rw [State.answer_reg, hr]
  · obtain ⟨hm, hs⟩ := hle hu
    exact ⟨(State.answer_msis ..).trans (hm.trans (s.took_msis p m)), fun o ho => by rw [State.answer_reg, hs o ho, State.took_reg]⟩
  · obtain ⟨hm, hb, hs⟩ := hgt hu
    exact ⟨hm.congr (s.took_msis p m).symm (s.took_reg p m _).symm (State.answer_msis ..), by rw [State.answer_reg, hb],
      fun o ho => by rw [State.answer_reg, hs o ho, State.took_reg]⟩

/-- Settles O38: who may write, what a request does, then each kind of register. -/
theorem registerWrites : Obligations.RegisterWrites := by
  unfold Obligations.RegisterWrites
  refine ⟨fun q m hm => takes_iff q hm, fun q m off hm hs hf => ?rights, fun q m off h => right_refused h off, fun s p m off v hoff hal hne hh => ?write,
    fun s p m v hm hh => ?mstctl, fun s p off v hm => ?plain, fun s p m q w hq h => ?ptr, fun s p m q v hq h => ?ctl, fun s p m n v hn h => ?event⟩
  case rights =>
    rw [right_of_master hm hs hf off]
    refine ⟨fun ho => by simp [ho], fun hn => by simp [hn, noOwner_owns hn m], fun ho hw => by simp [ho, hw], fun hn hw => by simp [hn, hw]⟩
  case write =>
    have hb : (decide (off < 0x10000) && decide (off % 8 = 0)) = true := by simp [hoff, hal]
    have hx : exec (.registerWrite p m off v) s = .next (s.answer ((s.took p m).request p m off v) p m off) := by
      rw [exec_registerWrite_eq, execRegisterWrite, hb, masterWrite_hears hh]
    have hr : (s.took p m).request p m off v = match (s.pkg p).right m off with
        | .acts => (s.took p m).regWrite p off v
        | .refused => s.took p m
        | .freezes => (s.took p m).freeze p m off := by
      rw [State.request, if_neg (fun e => hne e.1), State.took_right] <;> rfl
    rw [hx, hr]
    refine ⟨fun h => by rw [h], fun h => by rw [h]; rfl, fun h hm => ⟨_, by rw [h], freezes_answered ..⟩⟩
  case mstctl =>
    have hd : m ≠ debugPort := by unfold debugPort; omega
    rw [exec_registerWrite_eq, execRegisterWrite, show (decide (0x0708 < 0x10000) && decide (0x0708 % 8 = 0)) = true from rfl, masterWrite_hears hh,
      State.request, if_pos ⟨rfl, hd⟩]
  case plain =>
    dsimp only
    rw [regWrite_plain hm v, State.pkg_modPkg_same]
    exact ⟨.modPkg s p _, putMask_same _ off _ v, rfl, (putMask_reg ..).trans (if_pos rfl), rfl⟩
  case ptr =>
    exact qptrWrite_effect hq h
  case ctl =>
    obtain ⟨⟨ho, hs, hm⟩, hr⟩ := answered_regs s p m (0x2008 + 32 * q) (fun x => x.queueCtl q v) (g := fun x => x.queueCtl q v) [0x2008 + 32 * q]
      (fun x => ⟨rfl, rfl⟩) (fun x => queueCtl_same x q v)
    refine ⟨_, by rw [exec_qctlWrite_eq, execQctlWrite, acts_modPkg h (by omega) _ _ (by simpa using hq) (regWrite_ctl hq _ p v)], ho, hs, hm, ?_⟩
    simp only [hr]
    by_cases hrun : bits ((s.pkg p).reg (0x2008 + 32 * q)) 63 63 = 1
    · have hq := queueCtl_running (x := (s.took p m).pkg p) v (by rw [State.took_reg]; exact hrun)
      rw [State.took_reg] at hq
      simp only [hq]
      exact ⟨bits_mask_in _ _ _ (by decide), bits_mask_out _ _ _ (by decide), fun _ => bits_mask_out _ _ _ (by decide),
        fun h0 => absurd (hrun.symm.trans h0) (by decide)⟩
    · have hq := queueCtl_stopped (x := (s.took p m).pkg p) v (by rw [State.took_reg]; exact hrun)
      rw [State.took_reg] at hq
      obtain ⟨h1, h2, h3, h4, h5⟩ := stoppedCtl_bits _ v _ hq
      exact ⟨h1, h2, fun h1 => absurd h1 hrun, fun _ => ⟨h3, h4, h5⟩⟩
  case event =>
    have hpm := plainMask_event hn
    have hne : plainMask (0x4000 + 8 * n) ≠ 0 := by rw [hpm]; decide
    obtain ⟨⟨ho, hs, _⟩, hr⟩ := answered_regs s p m (0x4000 + 8 * n) (fun x => x.putMask (0x4000 + 8 * n) (plainMask (0x4000 + 8 * n)) v)
      (g := fun x => x.putMask (0x4000 + 8 * n) (plainMask (0x4000 + 8 * n)) v) [0x4000 + 8 * n] (fun x => ⟨rfl, rfl⟩) (fun x => putMask_same x _ _ v)
    refine ⟨_, by rw [exec_evtcntWrite_eq, execEvtcntWrite, acts_modPkg h (by omega) _ _ (by simpa using hn) (regWrite_plain hne v)], ho, hs, ?_⟩
    rw [hr, putMask_reg, if_pos rfl, hpm]
    exact bits_mask_in _ _ _ (by decide)

end Sys2Proof.Machine
end

section
/-! What the operations at the homes, and those of caches and translation, leave alone: contexts, grids, messages, time,
and of units and packages everything but stores, caches and what stands at the homes (chapters 08, 10 and 16). -/

namespace Sys2Proof.Machine

/-! ### The part of a package that such operations may change -/

/-- A package without its caches, without what stands at its homes, and without its registers and reservations. -/
def Package.bare (q : Package) : Package :=
  { q with slots := [], slotClock := 0, dieLines := [], dir := [], dlines := [], early := [], shadows := [], harts := [], regs := []
           tlbs := [], walks := [] }
theorem Package.bare_setFld (q : Package) (o hi lo x : Nat) : (q.setFld o hi lo x).bare = q.bare := rfl
theorem Package.bare_fill (q : Package) (l : List Nat) (die asid va : Nat) (e : DWord) (level : Nat) (ps : List WalkPtr) :
    (q.fill l die asid va e level ps).bare = q.bare := rfl
/-- A unit without the bytes of its store. -/
def WUnit.bare (u : WUnit) : WUnit := { u with store := [] }
/-- A state that differs from another in storage, in caches and in what stands at the homes alone. -/
structure State.Homes (s t : State) : Prop where
  /-- nothing but packages and storage -/
  rest : t = { s with pkgs := t.pkgs, hbm := t.hbm, host := t.host, units := t.units }
  /-- of units, their stores -/
  bareUnits : mapVals t.units (fun _ => WUnit.bare) = mapVals s.units (fun _ => WUnit.bare)
  /-- of packages, caches, what stands at homes, and registers -/
  barePkg : ∀ p, (t.pkg p).bare = (s.pkg p).bare

theorem State.Homes.refl (s : State) : s.Homes s := ⟨rfl, rfl, fun _ => rfl⟩
theorem State.Homes.trans {s t u : State} (h : s.Homes t) (h' : t.Homes u) : s.Homes u where
  rest := by rw [h'.rest, h.rest]
  bareUnits := h'.bareUnits.trans h.bareUnits
  barePkg p := (h'.barePkg p).trans (h.barePkg p)
theorem State.Homes.modPkg {r s : State} (h : r.Homes s) (p : Nat) (f : Package → Package) (hf : ∀ q, (f q).bare = q.bare) :
    r.Homes (s.modPkg p f) := by
  refine h.trans ⟨rfl, rfl, fun q => ?_⟩
  by_cases hq : q = p
  · subst hq; rw [State.pkg_modPkg_same, hf]
  · simp [State.pkg_modPkg, hq]
/-- Every package changed in its caches alone. -/
theorem State.Homes.mapPkgs {r s : State} (h : r.Homes s) (f : Nat → Package → Package) (hf : ∀ p q, (f p q).bare = q.bare) :
    r.Homes { s with pkgs := mapVals s.pkgs f } := by
  refine h.trans ⟨rfl, rfl, fun p => ?_⟩
  unfold State.pkg
  rw [find_mapVals]
  cases Sparse.find s.pkgs p with
  | none => rfl
  | some q => exact hf p q
theorem mapVals_adjust {α : Type} (g : Nat → α → α) (f : α → α) (hg : ∀ k a, g k (f a) = g k a) (m : Sparse α) (n : Nat) :
    mapVals (Sparse.adjust m n f) g = mapVals m g := by
  induction m with
  | nil => rfl
  | cons e m ih =>
    obtain ⟨k, a⟩ := e
    by_cases h : n = k
    · simp only [Sparse.adjust, if_pos h, mapVals, List.map_cons, hg]
    · simp only [Sparse.adjust, if_neg h, mapVals, List.map_cons]
      exact congrArg _ ih
theorem State.Homes.wrByte {r s : State} (h : r.Homes s) (o : Loc) (b : Byte) : r.Homes (s.wrByte o b) := by
  refine h.trans ?_
  cases o with
  | none => exact .refl s
  | hbm k => exact ⟨rfl, rfl, fun _ => rfl⟩
  | host k => exact ⟨rfl, rfl, fun _ => rfl⟩
  | store u o => exact ⟨rfl, mapVals_adjust (fun _ => WUnit.bare) (fun x => { x with store := Sparse.set 0 x.store o b }) (fun _ _ => rfl) s.units u, fun _ => rfl⟩
theorem State.Homes.wrBytes {r s : State} (h : r.Homes s) (o : Loc) (bs : List Byte) : r.Homes (s.wrBytes o bs) :=
  foldl_fst_induct r.Homes _ (fun _ _ hx => hx.wrByte _ _) bs (s, 0) h
theorem State.Homes.wrWord {r s : State} (h : r.Homes s) (o : Loc) (w : Word) : r.Homes (s.wrWord o w) := h.wrBytes _ _
theorem State.Homes.foldl {α : Type} {r s : State} (h : r.Homes s) (l : List α) (f : State → α → State)
    (hf : ∀ t x, r.Homes t → r.Homes (f t x)) : r.Homes (l.foldl f s) := foldl_induct r.Homes f hf l s h

/-! ### What is left alone -/

theorem State.Homes.ctxs {s t : State} (h : s.Homes t) : t.ctxs = s.ctxs := by rw [h.rest]
theorem State.Homes.grids {s t : State} (h : s.Homes t) : t.grids = s.grids := by rw [h.rest]
theorem State.Homes.msis {s t : State} (h : s.Homes t) : t.msis = s.msis := by rw [h.rest]
theorem State.Homes.cur {s t : State} (h : s.Homes t) : t.cur = s.cur := by rw [h.rest]
theorem State.Homes.ctx {s t : State} (h : s.Homes t) (k : Nat) : t.ctx k = s.ctx k := by unfold State.ctx; rw [h.ctxs]
theorem State.Homes.grid {s t : State} (h : s.Homes t) (g : Nat) : t.grid g = s.grid g := by unfold State.grid; rw [h.grids]
theorem State.Homes.findUnit {s t : State} (h : s.Homes t) (u : Nat) :
    (Sparse.find t.units u).map WUnit.bare = (Sparse.find s.units u).map WUnit.bare := by
  rw [← find_mapVals _ (fun _ => WUnit.bare), ← find_mapVals _ (fun _ => WUnit.bare), h.bareUnits]
/-- A unit, but for its store. -/
theorem State.Homes.unit {s t : State} (h : s.Homes t) (u : Nat) : (t.unit u).bare = (s.unit u).bare := by
  have := h.findUnit u
  unfold State.unit
  cases ht : Sparse.find t.units u <;> cases hs : Sparse.find s.units u <;> rw [ht, hs] at this <;> simp_all
/-- A field of a package that is neither cache nor register nor at the homes. -/
theorem State.Homes.pkgField {α : Type} {s t : State} (h : s.Homes t) (f : Package → α) (hf : ∀ q, f q.bare = f q) (p : Nat) :
    f (t.pkg p) = f (s.pkg p) := by rw [← hf, h.barePkg, hf]

/-! ### Reduction slots, caches, shadow words, releases and acquires -/

theorem State.Homes.releaseSlot {r s : State} (h : r.Homes s) (p : Nat) (x : RedSlot) : r.Homes (s.releaseSlot p x) :=
  (h.wrWord _ _).modPkg _ _ (by intro; rfl)
theorem State.Homes.releaseSpan {r s : State} (h : r.Homes s) (l : Loc) (n : Nat) : r.Homes (s.releaseSpan l n) := by
  unfold State.releaseSpan
  dsimp only
  split
  · exact h
  · refine h.foldl _ _ (fun t x ht => ?_)
    split
    · exact ht.releaseSlot _ _
    · exact ht
theorem State.Homes.dcacheWrite {r s : State} (h : r.Homes s) (src : Option (Nat × Nat)) (key : Nat) : r.Homes (s.dcacheWrite src key) :=
  h.mapPkgs _ (by intro p q; split <;> rfl)
theorem State.Homes.dieDrop {r s : State} (h : r.Homes s) (p d key : Nat) : r.Homes (s.dieDrop p d key) := by
  unfold State.dieDrop
  exact (h.modPkg _ _ (by intro; rfl)).modPkg _ _ (by intro; rfl)
theorem State.Homes.thaw {r s : State} (h : r.Homes s) (f : Nat → DieLine → Bool) : r.Homes (s.thaw f) :=
  h.foldl _ _ (fun _ _ ht => ht.foldl _ _ (fun _ _ h => h.dieDrop _ _ _))
theorem State.Homes.dcacheHole {r s : State} (h : r.Homes s) (l : Loc) : r.Homes (s.dcacheHole l) := by
  unfold State.dcacheHole
  split
  · exact (h.thaw _).mapPkgs _ (by intro p q; split <;> rfl)
  · exact h
theorem State.Homes.orderLate {r s : State} (h : r.Homes s) : r.Homes s.orderLate :=
  h.mapPkgs _ (by intro p q; split <;> rfl)
theorem State.Homes.register {r s : State} (h : r.Homes s) (me key : Nat) : r.Homes (s.register me key) :=
  h.modPkg _ _ (by intro q; split <;> rfl)
theorem State.Homes.linger {r s : State} (h : r.Homes s) (p die key : Nat) : r.Homes (s.linger p die key) := by
  unfold State.linger
  dsimp only
  split
  · exact h.modPkg _ _ (by intro; rfl)
  · exact h
theorem State.Homes.dirWrite {r s : State} (h : r.Homes s) (me : Option Nat) (key : Nat) : r.Homes (s.dirWrite me key) := by
  unfold State.dirWrite
  dsimp only
  split
  · exact h
  · exact (h.mapPkgs _ (by intro p q; split <;> rfl)).modPkg _ _ (by intro; rfl)
theorem State.Homes.dieFill {r s : State} (h : r.Homes s) (p : Nat) (x : Site) (key : Nat) : r.Homes (s.dieFill p x key) := by
  unfold State.dieFill
  dsimp only
  split
  · exact h
  · refine (State.Homes.modPkg ?_ _ _ (by intro; rfl)).register _ _
    split
    · exact h
    · split
      · exact h.dieDrop _ _ _
      · exact h
theorem State.Homes.writeHome {r s : State} (h : r.Homes s) (plain : Bool) (src : Option (Nat × Nat)) (me : Option Nat) (l : Loc)
    (bs : List Byte) : r.Homes (s.writeHome plain src me l bs) := by
  unfold State.writeHome
  dsimp only
  split
  · split
    · exact h
    · exact (((h.thaw _).releaseSpan _ _).wrBytes _ _).foldl _ _ (fun t x ht => (ht.dcacheWrite _ _).dirWrite _ _)
  · exact (h.releaseSpan _ _).wrBytes _ _
theorem State.Homes.homeWrite {r s : State} (h : r.Homes s) (src : Option (Nat × Nat)) (me : Option Nat) (l : Loc) (bs : List Byte) :
    r.Homes (s.homeWrite src me l bs) := h.writeHome _ _ _ _ _
theorem State.Homes.homeRead {r s : State} (h : r.Homes s) (l : Loc) (n : Nat) : r.Homes (s.homeRead l n).1 := h.releaseSpan _ _
theorem State.Homes.roundOut {r s : State} (h : r.Homes s) (p : Nat) (x : RedSlot) : r.Homes (s.roundOut p x) := by
  unfold State.roundOut
  exact (h.releaseSlot _ _).modPkg _ _ (fun q => Package.bare_setFld q _ _ _ _)
theorem State.Homes.slotRoom {r s t : State} (h : r.Homes s) {p site asid extra : Nat} (e : s.slotRoom p site asid extra = some t) :
    r.Homes t := by
  have go : ∀ (o : Option RedSlot), o.map (s.roundOut p) = some t → r.Homes t := fun o ho => by
    obtain ⟨x, -, rfl⟩ := Option.map_eq_some_iff.mp ho
    exact h.roundOut _ _
  unfold State.slotRoom at e
  dsimp only at e
  generalize (s.pkg p).slotQuota site = quota at e
  generalize slotCap site = cap at e
  split at e
  · exact go _ e
  · split at e
    · exact go _ e
    · cases e; exact h
theorem State.Homes.takeSlots {r s : State} (h : r.Homes s) (p site asid n m : Nat) : r.Homes (s.takeSlots p site asid n m).1 := by
  induction n generalizing s m with
  | zero => exact h
  | succ n ih =>
    unfold State.takeSlots
    split
    · next t e => exact ih (h.slotRoom e) _
    · exact h
theorem State.Homes.openSlot {r s : State} {x : State × RedSlot} (h : r.Homes s) {l : Loc} {asid grid : Nat}
    (e : s.openSlot l asid grid = some x) : r.Homes x.1 := by
  unfold State.openSlot at e
  split at e
  · cases e; exact h
  · obtain ⟨t, ht, rfl⟩ := Option.map_eq_some_iff.mp e
    exact h.slotRoom ht
theorem State.Homes.contribute {r s t : State} (h : r.Homes s) {l : Loc} {op : RedOp} {c : Word} {asid grid : Nat}
    (e : s.contribute l op c asid grid = some t) : r.Homes t := by
  unfold State.contribute at e
  split at e
  · obtain ⟨x, hr, rfl⟩ := Option.map_eq_some_iff.mp e
    exact ((h.openSlot hr).modPkg _ _ (by intro; rfl)).dcacheHole _
  · cases e; exact ((h.releaseSpan _ _).homeWrite _ _ _ _).dcacheHole _
theorem State.Homes.drainEarly {r s : State} (h : r.Homes s) (p : Nat) (f : Early → Bool) : r.Homes (s.drainEarly p f) :=
  h.foldl _ _ (fun _ _ ht => (ht.modPkg _ _ (by intro; rfl)).writeHome _ _ _ _ _)
theorem State.Homes.toDie {r s : State} (h : r.Homes s) (p die : Nat) (f : Early → Bool) : r.Homes (s.toDie p die f) := by
  unfold State.toDie
  dsimp only
  split
  · exact h.drainEarly _ _
  · exact (h.thaw _).modPkg _ _ (by intro; rfl)
theorem State.Homes.drainSpan {r s : State} (h : r.Homes s) (p : Nat) (x : Site) (l : Loc) (n : Nat) : r.Homes (s.drainSpan p x l n) := by
  unfold State.drainSpan
  split
  · split
    · exact h
    · exact h.drainEarly _ _
  · exact h
theorem State.Homes.mergeShadow {r s : State} (h : r.Homes s) (p : Nat) (x : ShadowWord) : r.Homes (s.mergeShadow p x) := by
  unfold State.mergeShadow
  extract_lets old
  have h1 : r.Homes (if (s.pkg p).early.isEmpty then s else s.drainEarly p old) := by
    split
    · exact h
    · exact h.drainEarly _ _
  split
  · exact h
  · split
    · exact h
    · next t e => exact (h1.contribute e).modPkg _ _ (by intro; rfl)
theorem State.Homes.mergeShadows {r s : State} (h : r.Homes s) (p : Nat) (f : ShadowWord → Bool) : r.Homes (s.mergeShadows p f) :=
  h.foldl _ _ (fun _ _ ht => ht.mergeShadow _ _)
theorem State.Homes.mergeSpan {r s : State} (h : r.Homes s) (p : Nat) (x : Site) (l : Loc) (n : Nat) : r.Homes (s.mergeSpan p x l n) := by
  unfold State.mergeSpan
  split
  · split
    · exact h
    · exact h.mergeShadows _ _
  · exact h
theorem State.Homes.shadowAdd {r s t : State} (h : r.Homes s) {p die key asid grid : Nat} {op : RedOp} {c : Word}
    (e : s.shadowAdd p die key asid grid op c = some t) : r.Homes t := by
  unfold State.shadowAdd at e
  extract_lets here s1 put at e
  have h1 : r.Homes s1 := by
    show r.Homes (match (s.pkg p).shadows.find? here with | some x => if x.op = op then s else s.mergeShadow p x | none => s : State)
    split
    · split
      · exact h
      · exact h.mergeShadow _ _
    · exact h
  have go : ∀ v, put v = some t → r.Homes t := fun v hv => by
    cases hv
    exact h1.modPkg _ _ (by intro; rfl)
  split at e
  · exact go _ e
  · split at e
    · cases e
    · exact go _ e
theorem State.Homes.dropKey {r s : State} (h : r.Homes s) (p core key : Nat) : r.Homes (s.dropKey p core key) := h.modPkg _ _ (by intro; rfl)
theorem State.Homes.fillLine {r s : State} (h : r.Homes s) (p core key : Nat) : r.Homes (s.fillLine p core key) := by
  unfold State.fillLine
  dsimp only
  refine State.Homes.modPkg ?_ _ _ (by intro; rfl)
  split
  · exact h.dropKey _ _ _
  · split
    · exact (h.dropKey _ _ _).dropKey _ _ _
    · exact h.dropKey _ _ _
theorem State.Homes.ctxRead {r s : State} (h : r.Homes s) (c : Ctx) (l : Loc) (n : Nat) (nc : Bool) : r.Homes (s.ctxRead c l n nc).1 := by
  have h1 := h.mergeSpan c.pkg c.site l n
  unfold State.ctxRead
  dsimp only
  split
  · split
    · exact ((h1.foldl _ _ (fun _ _ ht => ht.dropKey _ _ _)).releaseSpan _ _).foldl _ _ (fun _ _ ht => ht.dieFill _ _ _)
    · refine foldl_fst_induct r.Homes _ (fun x y hx => ?_) _ _ h1
      split
      · exact hx
      · exact ((hx.releaseSpan _ _).dieFill _ _ _).fillLine _ _ _
  · exact (h1.releaseSpan _ _).foldl _ _ (fun _ _ ht => ht.dieFill _ _ _)
  · exact h1.homeRead _ _
theorem State.Homes.peerFill {r s : State} (h : r.Homes s) (p : Nat) (x : Site) (l : Loc) (n : Nat) : r.Homes (s.peerFill p x l n) := by
  unfold State.peerFill
  split
  · split
    · exact h
    · exact h.foldl _ _ (fun _ _ ht => ht.dieFill _ _ _)
  · exact h
theorem State.Homes.ctxWrite {r s : State} (h : r.Homes s) (plain : Bool) (c : Ctx) (l : Loc) (bs : List Byte) :
    r.Homes (s.ctxWrite plain c l bs) := ((h.mergeSpan _ _ _ _).peerFill _ _ _ _).writeHome _ _ _ _ _
theorem State.Homes.toHome {r s : State} (h : r.Homes s) (c : Ctx) (l : Loc) (n : Nat) : r.Homes (s.toHome c l n) := by
  unfold State.toHome
  dsimp only
  split
  · exact ((h.mergeSpan _ _ _ _).drainSpan _ _ _ _).thaw _
  · exact (h.mergeSpan _ _ _ _).drainSpan _ _ _ _
theorem State.Homes.toAcquire {r s : State} (h : r.Homes s) (c : Ctx) (l : Loc) (n : Nat) : r.Homes (s.toAcquire c l n) := by
  unfold State.toAcquire
  dsimp only
  split
  · exact (h.drainSpan _ _ _ _).thaw _
  · exact h.drainSpan _ _ _ _
theorem State.Homes.dropLine {r s : State} (h : r.Homes s) (c : Ctx) (l : Loc) : r.Homes (s.dropLine c l) := by
  unfold State.dropLine
  split
  · exact h.dropKey _ _ _
  · exact h
theorem State.Homes.acknowledge {r s : State} (h : r.Homes s) (p k : Nat) : r.Homes (s.acknowledge p k) := (h.thaw _).orderLate
theorem State.Homes.ite {p : Prop} [Decidable p] {r s t : State} (h : r.Homes s) (h' : r.Homes t) : r.Homes (if p then s else t) := by
  split
  · exact h
  · exact h'
theorem State.Homes.release {r s : State} (h : r.Homes s) (c : Ctx) (k : Nat) : r.Homes (s.release c k) := by
  unfold State.release
  extract_lets s1 s2 s3
  have h1 : r.Homes s1 := .ite (h.mergeShadows _ _) h
  have h2 : r.Homes s2 := .ite h1 (.ite (h1.drainEarly _ _) (.ite (h1.toDie _ _ _) h1))
  have h3 : r.Homes s3 := .ite (h2.acknowledge _ _) h2
  split
  · exact h3
  · exact .ite (h3.modPkg _ _ (by intro; rfl)) h3
theorem State.Homes.acquire {r s : State} (h : r.Homes s) (c : Ctx) (k : Nat) : r.Homes (s.acquire c k) := by
  unfold State.acquire
  dsimp only
  have h1 : r.Homes (match s.coreOf c with
    | none => s
    | some (p, core) =>
      if k < 2 then s
      else s.modPkg p (fun q => { q with dlines := q.dlines.filter (fun x =>
        decide (x.core ≠ core) || (decide (s.reach c k = 2) && x.own.contains k)) }) : State) := by
    split
    · exact h
    · exact .ite h (h.modPkg _ _ (by intro; rfl))
  split
  · exact h1
  · exact h1.modPkg _ _ (by intro; rfl)
theorem State.Homes.walkTouch {r s : State} (h : r.Homes s) (p va level ppn : Nat) : r.Homes (s.walkTouch p va level ppn) := by
  induction level generalizing s ppn with
  | zero =>
    unfold State.walkTouch
    dsimp only
    repeat' split
    all_goals first | exact h | exact h.releaseSpan _ _
  | succ l ih =>
    unfold State.walkTouch
    dsimp only
    repeat' split
    all_goals first | exact h | exact h.releaseSpan _ _ | exact ih (h.releaseSpan _ _) _
theorem State.Homes.walkReads {r s : State} (h : r.Homes s) (p die asid va : Nat) : r.Homes (s.walkReads p die asid va) := by
  unfold State.walkReads
  dsimp only
  repeat' split
  all_goals first | exact h | exact h.walkTouch _ _ _ _ | exact (h.releaseSpan _ _).walkTouch _ _ _ _ | exact h.releaseSpan _ _
theorem State.Homes.translate {r s : State} (h : r.Homes s) (y : Party) (va : Nat) (k : AccKind) : r.Homes (s.translate y va k).1 := by
  unfold State.translate
  dsimp only
  split
  · exact h
  · split
    · exact (h.walkReads _ _ _ _).modPkg _ _ (fun q => Package.bare_fill q _ _ _ _ _ _ _)
    · exact h.walkReads _ _ _ _

end Sys2Proof.Machine
end

section
/-! What fault records and captures leave alone, and operations that never halt a context (chapters 13, 16 and 19). -/

namespace Sys2Proof.Machine

/-! ### Fault records and captures -/

/-- A state that differs from another in packages, storage and messages alone. -/
structure State.Aside (s t : State) : Prop where
  /-- nothing but packages, storage and messages -/
  rest : t = { s with pkgs := t.pkgs, hbm := t.hbm, host := t.host, units := t.units, msis := t.msis }
  /-- of units, their stores -/
  bareUnits : mapVals t.units (fun _ => WUnit.bare) = mapVals s.units (fun _ => WUnit.bare)

theorem State.Aside.refl (s : State) : s.Aside s := ⟨rfl, rfl⟩
theorem State.Aside.trans {s t u : State} (h : s.Aside t) (h' : t.Aside u) : s.Aside u where
  rest := by rw [h'.rest, h.rest]
  bareUnits := h'.bareUnits.trans h.bareUnits
theorem State.Homes.aside {s t : State} (h : s.Homes t) : s.Aside t := ⟨by rw [h.rest], h.bareUnits⟩
theorem State.Aside.modPkg (s : State) (p : Nat) (f : Package → Package) : s.Aside (s.modPkg p f) := ⟨rfl, rfl⟩
theorem State.Aside.ctxs {s t : State} (h : s.Aside t) : t.ctxs = s.ctxs := by rw [h.rest]
theorem State.Aside.grids {s t : State} (h : s.Aside t) : t.grids = s.grids := by rw [h.rest]
theorem State.Aside.cur {s t : State} (h : s.Aside t) : t.cur = s.cur := by rw [h.rest]
theorem State.Aside.ctx {s t : State} (h : s.Aside t) (k : Nat) : t.ctx k = s.ctx k := by unfold State.ctx; rw [h.ctxs]
theorem State.Aside.foldl {α : Type} {s : State} (f : State → α → State) (hf : ∀ (t : State) x, t.Aside (f t x)) (l : List α) : s.Aside (l.foldl f s) :=
  foldl_induct s.Aside f (fun t x h => h.trans (hf t x)) l s (.refl s)
theorem State.sendMsi_aside (s : State) (p off : Nat) : s.Aside (s.sendMsi p off) := by
  unfold State.sendMsi
  dsimp only
  split
  · exact .refl s
  · exact ⟨rfl, rfl⟩
theorem State.writeFrec_aside (s : State) (p : Nat) : s.Aside (s.writeFrec p) := by
  unfold State.writeFrec
  dsimp only
  split
  · exact .refl s
  · split
    · exact .refl s
    · exact (((State.Homes.refl s).homeWrite ..).aside.trans (.modPkg ..)).trans (State.sendMsi_aside ..)
theorem State.newFrec_aside (s : State) (p : Nat) (r : FRec) : s.Aside (s.newFrec p r).1 := by
  unfold State.newFrec
  dsimp only
  split
  · exact .modPkg ..
  · exact (State.Aside.modPkg ..).trans (State.writeFrec_aside ..)
theorem State.parkOn_aside (s : State) (y : Party) (va kind : Nat) (pte : DWord) (k : AccKind) : s.Aside (s.parkOn y va kind pte k).1 := by
  unfold State.parkOn
  dsimp only
  split
  · exact .refl s
  · exact State.newFrec_aside ..
theorem State.capture_aside (s0 s : State) (y : Party) (k : AccKind) (cap : Cap) : s.Aside (State.capture s0 s y k cap).1 := by
  unfold State.capture
  refine foldl_fst_induct s.Aside _ (fun x a h => ?_) _ _ (.refl s)
  split
  · exact h
  · split
    · exact h.trans ((State.Homes.refl _).translate ..).aside
    · exact h.trans (State.parkOn_aside ..)
    · exact h

/-! ### Operations that halt nothing -/

/-- A context is not halted, and no halt of it is pending. -/
def Ctx.Free (c : Ctx) : Prop := c.halted = false ∧ c.haltPend = false
/-- Every context that is not halted, and that no halt awaits, stays so, and one that is not placed is not placed. -/
structure State.Unhalts (s t : State) : Prop where
  /-- not halted -/
  keeps : ∀ k, (s.ctx k).Free → (t.ctx k).Free
  /-- placed as before -/
  placed : ∀ k, (t.ctx k).placed = (s.ctx k).placed

theorem State.Unhalts.refl (s : State) : s.Unhalts s := ⟨fun _ h => h, fun _ => rfl⟩
theorem State.Unhalts.trans {s t u : State} (h : s.Unhalts t) (h' : t.Unhalts u) : s.Unhalts u := ⟨fun k hk => h'.keeps k (h.keeps k hk), fun k => (h'.placed k).trans (h.placed k)⟩
theorem State.Unhalts.of_ctxs {s t : State} (h : t.ctxs = s.ctxs) : s.Unhalts t := ⟨fun k hk => by unfold State.ctx at *; rw [h]; exact hk, fun k => by unfold State.ctx; rw [h]⟩
theorem State.Aside.unhalts {s t : State} (h : s.Aside t) : s.Unhalts t := .of_ctxs h.ctxs
/-- A context changed, and never to halted. -/
theorem State.Unhalts.modCtx (s : State) (k : Nat) (f : Ctx → Ctx) (hf : ∀ c : Ctx, (c.Free → (f c).Free) ∧ (f c).placed = c.placed) : s.Unhalts (s.modCtx k f) := by
  have h : ∀ j, ((s.ctx j).Free → ((s.modCtx k f).ctx j).Free) ∧ ((s.modCtx k f).ctx j).placed = (s.ctx j).placed := fun j => by
    by_cases hk : j = k
    · subst hk
      cases hc : Sparse.find s.ctxs j with
      | none => simp [State.ctx, State.modCtx, Sparse.find_adjust, hc]
      | some c =>
        rw [State.ctx_modCtx _ _ _ _ hc, State.ctx_of_find _ _ _ hc]
        exact hf c
    · rw [State.ctx_modCtx_ne _ _ _ _ hk]
      exact ⟨id, rfl⟩
  exact ⟨fun j => (h j).1, fun j => (h j).2⟩
/-- A context changed, and halted as before. -/
theorem State.Unhalts.modCtx_same (s : State) (k : Nat) (f : Ctx → Ctx) (hf : ∀ c, (f c).halted = c.halted ∧ (f c).haltPend = c.haltPend ∧ (f c).placed = c.placed) : s.Unhalts (s.modCtx k f) :=
  .modCtx s k f (fun c => ⟨fun h => ⟨(hf c).1.trans h.1, (hf c).2.1.trans h.2⟩, (hf c).2.2⟩)
theorem State.Unhalts.foldl {α : Type} {s : State} (f : State → α → State) (hf : ∀ (t : State) x, t.Unhalts (f t x)) (l : List α) :
    s.Unhalts (l.foldl f s) := foldl_induct s.Unhalts f (fun t x h => h.trans (hf t x)) l s (.refl s)
theorem Ctx.modLanes_halted (c : Ctx) (ls : List Nat) (f : Nat → Lane → Lane) : (c.modLanes ls f).halted = c.halted ∧ (c.modLanes ls f).haltPend = c.haltPend ∧ (c.modLanes ls f).placed = c.placed := by
  rw [modLanes_only]
  exact ⟨rfl, rfl, rfl⟩
theorem Ctx.revertHints_halted (c : Ctx) : c.revertHints.halted = c.halted ∧ c.revertHints.haltPend = c.haltPend ∧ c.revertHints.placed = c.placed := Ctx.modLanes_halted ..
theorem State.startAbort_ctxs (s : State) (u cause : Nat) : (s.startAbort u cause).ctxs = s.ctxs := by
  unfold State.startAbort
  refine (foldl_keeps State.ctxs _ (fun t x => ?_) _ _).trans ?_
  · split <;> rfl
  · split <;> rfl
theorem State.stopToMove_unhalts (s : State) (k : Nat) : s.Unhalts (s.stopToMove k) := by
  refine .modCtx_same s k _ (fun c => ?_)
  split <;> exact Ctx.revertHints_halted c
theorem State.startMove_unhalts (s : State) (u : Nat) : s.Unhalts (s.startMove u) := by
  have h : ∀ x : WUnit → WUnit, s.Unhalts (((s.modUnit u x).ctxsUnder u).foldl (fun s k => s.stopToMove k) (s.modUnit u x)) := fun x =>
    (State.Unhalts.of_ctxs (s := s) (t := s.modUnit u x) rfl).trans (.foldl _ (fun t k => t.stopToMove_unhalts k) _)
  unfold State.startMove
  split
  · exact h _
  · exact h _
  · exact .refl s
theorem State.takeTrap_unhalts (s : State) (k : Nat) (pc : DWord) (word : Word) (cause : Nat) (ls : List Nat) (info : Nat) (next : Option Nat) :
    s.Unhalts (s.takeTrap k pc word cause ls info next) := by
  unfold State.takeTrap
  extract_lets c nh rpc fr
  split
  · exact .refl s
  · split
    · exact State.startMove_unhalts ..
    · exact (State.Unhalts.modCtx_same s k _ (by intro; exact ⟨rfl, rfl, rfl⟩)).trans (.of_ctxs (State.startAbort_ctxs ..))
  · rename_i s1 s2 s3 _ _
    have h1 : s.Unhalts s1 := .modCtx_same s k _ (fun c => Ctx.revertHints_halted c)
    have h2 : s1.Unhalts s2 := by
      cases next with
      | none => exact .refl s1
      | some n => exact .modCtx_same s1 k _ (fun c => Ctx.modLanes_halted ..)
    have h3 : s2.Unhalts s3 := .of_ctxs (State.trace_traced ..).ctxs
    have h : s.Unhalts s3 := (h1.trans h2).trans h3
    split
    · exact h.trans (State.startMove_unhalts ..)
    · split
      · exact h.trans ((State.Unhalts.modCtx_same s3 k _ (by intro; exact ⟨rfl, rfl, rfl⟩)).trans (.of_ctxs rfl))
      · exact h.trans (.of_ctxs (State.startAbort_ctxs ..))
theorem State.modEntry_unhalts (s : State) (k id : Nat) (f : RqEntry → RqEntry) : s.Unhalts (s.modEntry k id f) :=
  .modCtx_same s k _ (by intro; exact ⟨rfl, rfl, rfl⟩)
theorem State.dropEntry_unhalts (s : State) (k id : Nat) : s.Unhalts (s.dropEntry k id) := by
  unfold State.dropEntry
  extract_lets p s1
  have h1 : s.Unhalts s1 := (State.Homes.ite (.refl s) ((State.Homes.refl s).drainEarly ..)).aside.unhalts
  exact h1.trans (.modCtx_same s1 k _ (by intro; exact ⟨rfl, rfl, rfl⟩))
theorem State.settle_unhalts (s : State) (k id : Nat) : s.Unhalts (s.settle k id) := by
  unfold State.settle
  split
  · split
    · exact State.dropEntry_unhalts ..
    · exact .refl s
  · exact .refl s
theorem State.replayCap_unhalts (s : State) (k : Nat) (e : RqEntry) (l : Nat) : s.Unhalts (s.replayCap k e l) := by
  unfold State.replayCap
  split
  · exact .refl s
  · exact (State.capture_aside ..).unhalts.trans (State.modEntry_unhalts ..)
theorem State.replayTrap_unhalts (s : State) (k : Nat) (e : RqEntry) (ls : List Nat) (a : Nat) : s.Unhalts (s.replayTrap k e ls a) := by
  unfold State.replayTrap
  extract_lets lanes hints s1 s2
  have h1 : s.Unhalts s1 := State.modEntry_unhalts ..
  have h2 : s1.Unhalts s2 := .modCtx_same s1 k _ (fun c => Ctx.modLanes_halted ..)
  exact ((h1.trans h2).trans (State.takeTrap_unhalts ..)).trans (State.settle_unhalts ..)
theorem State.replayChunks_unhalts (s : State) (k : Nat) (e : RqEntry) (f : Nat → Bool) : s.Unhalts (s.replayChunks k e f) := by
  unfold State.replayChunks
  split
  · exact .refl s
  · exact State.modEntry_unhalts ..
theorem State.replayEntry_unhalts (s : State) (k id : Nat) (f : Nat → Bool) : s.Unhalts (s.replayEntry k id f) := by
  unfold State.replayEntry
  split
  · exact .refl s
  · next e _ =>
    extract_lets s1 due ls bad s2
    have h : s.Unhalts s2 := (State.replayChunks_unhalts ..).trans (.foldl _ (fun t l => t.replayCap_unhalts k e l) _)
    clear_value s2 bad
    cases bad with
    | nil => exact h
    | cons l r => exact h.trans (State.replayTrap_unhalts ..)
theorem State.reinject_unhalts (s : State) (k : Nat) : s.Unhalts (s.reinject k) :=
  .foldl _ (fun t (e : RqEntry) => t.replayEntry_unhalts k e.id _) _

end Sys2Proof.Machine
end

section
/-! Debug halts, packet breakpoints, the slot account and stopped cores (R377, R397, R404, R411). -/

namespace Sys2Proof.Machine

/-! ### Folds over contexts -/

/-- A fold that changes only the contexts of its list leaves the others. -/
theorem foldl_ctx_other {f : State → Nat → State} (hf : ∀ s k j, j ≠ k → (f s k).ctx j = s.ctx j) (l : List Nat) (s : State) (j : Nat) (hj : j ∉ l) :
    (l.foldl f s).ctx j = s.ctx j := by
  induction l generalizing s with
  | nil => rfl
  | cons k r ih =>
    rw [List.foldl_cons, ih _ (fun h => hj (List.mem_cons_of_mem _ h)), hf _ _ _ (fun h => hj (by rw [h]; exact List.mem_cons_self ..))]
/-- What each step of a fold brings about for its own element, and every step keeps, holds in the end of every element. -/
theorem foldl_reach {α σ : Type} {f : σ → α → σ} (P : σ → Prop) (Q : σ → α → Prop) (hP : ∀ s k, P s → P (f s k)) (hQ : ∀ s k, P s → Q (f s k) k)
    (hK : ∀ s k j, P s → Q s j → Q (f s k) j) (l : List α) (s : σ) (hs : P s) (j : α) (hj : j ∈ l ∨ Q s j) : Q (l.foldl f s) j := by
  induction l generalizing s with
  | nil => exact hj.resolve_left (by simp)
  | cons k r ih =>
    refine ih (f s k) (hP s k hs) ?_
    rcases hj with hj | hj
    · rcases List.mem_cons.mp hj with rfl | hj
      · exact .inr (hQ s _ hs)
      · exact .inl hj
    · exact .inr (hK s k j hs hj)

/-! ### Halts -/

/-- A context that stops, or is to stop later; nothing by which units and groups are found changes. -/
structure Ctx.Stops (c d : Ctx) : Prop where
  /-- the same place among the units -/
  same : d.kind = c.kind ∧ d.unit = c.unit ∧ d.retired = c.retired
  /-- a context that was stopped stays stopped -/
  stays : c.halted = true ∨ c.haltPend = true → d.halted = true ∨ d.haltPend = true

/-- Only context k changes, and in no way but that it stops. -/
structure State.StopsCtx (s t : State) (k : Nat) : Prop where
  /-- units -/
  units : t.units = s.units
  /-- grids -/
  grids : t.grids = s.grids
  /-- the context -/
  ctxs : ∃ f, t.ctxs = Sparse.adjust s.ctxs k f ∧ ∀ c, Sparse.find s.ctxs k = some c → c.Stops (f c)

theorem Sparse.adjust_id {α : Type} (m : Sparse α) (n : Nat) : Sparse.adjust m n (fun a => a) = m := by
  induction m with
  | nil => rfl
  | cons e m ih =>
    obtain ⟨k, a⟩ := e
    unfold Sparse.adjust
    split
    · rfl
    · rw [ih]
theorem State.StopsCtx.refl (s : State) (k : Nat) : s.StopsCtx s k :=
  ⟨rfl, rfl, fun c => c, (Sparse.adjust_id ..).symm, fun _ _ => ⟨⟨rfl, rfl, rfl⟩, id⟩⟩
theorem State.StopsCtx.modCtx (s : State) (k : Nat) (f : Ctx → Ctx) (hf : ∀ c : Ctx, c.Stops (f c)) : s.StopsCtx (s.modCtx k f) k :=
  ⟨rfl, rfl, f, rfl, fun c _ => hf c⟩
theorem State.StopsCtx.other {s t : State} {k : Nat} (h : s.StopsCtx t k) {j : Nat} (hj : j ≠ k) : t.ctx j = s.ctx j := by
  obtain ⟨f, hf, -⟩ := h.ctxs
  rw [← State.ctx_modCtx_ne s k f j hj]
  unfold State.ctx State.modCtx
  rw [hf]
/-- Every context keeps its place and, once stopped, stays stopped. -/
theorem State.StopsCtx.ctx {s t : State} {k : Nat} (h : s.StopsCtx t k) (j : Nat) : (s.ctx j).Stops (t.ctx j) := by
  by_cases hj : j = k
  · subst hj
    obtain ⟨f, hf, hs⟩ := h.ctxs
    unfold State.ctx
    rw [hf, Sparse.find_adjust, if_pos rfl]
    cases hc : Sparse.find s.ctxs j with
    | none => exact ⟨⟨rfl, rfl, rfl⟩, id⟩
    | some c => exact hs c hc
  · rw [h.other hj]; exact ⟨⟨rfl, rfl, rfl⟩, id⟩
theorem State.StopsCtx.isSome {s t : State} {k : Nat} (h : s.StopsCtx t k) (j : Nat) :
    (Sparse.find t.ctxs j).isSome = (Sparse.find s.ctxs j).isSome := by
  obtain ⟨f, hf, -⟩ := h.ctxs
  rw [hf, Sparse.find_adjust]
  split
  · next e => subst e; cases Sparse.find s.ctxs j <;> rfl
  · rfl
theorem Ctx.revertHints_stops (c : Ctx) : c.Stops { c.revertHints.unheld with halted := true } := by
  have h : c.revertHints = { c with lanes := c.revertHints.lanes } := modLanes_only ..
  rw [h]
  exact ⟨⟨rfl, rfl, rfl⟩, fun _ => .inl rfl⟩
theorem State.haltGroup_stops (s : State) (k : Nat) : s.StopsCtx (s.haltGroup k) k := by
  unfold State.haltGroup
  dsimp only
  split
  · exact .refl s k
  · split
    · exact .modCtx s k _ (fun c => ⟨⟨rfl, rfl, rfl⟩, fun _ => .inr rfl⟩)
    · have ht := State.trace_traced (s.stopGroup k) ((s.stopGroup k).ctx k) 7 ((s.stopGroup k).ctx k).liveLanes (fun l => (((s.stopGroup k).ctx k).lane l).imgPc) (fun _ => 0)
      have hs : s.StopsCtx (s.stopGroup k) k := .modCtx s k _ (fun c => by
        obtain ⟨h, -⟩ := c.revertHints_stops
        exact ⟨h, fun _ => .inl rfl⟩)
      unfold State.traceStop
      exact ⟨by rw [ht.rest]; exact hs.units, by rw [ht.rest]; exact hs.grids, by rw [ht.ctxs]; exact hs.ctxs⟩
/-- A group that has not retired is then halted, or will be. -/
theorem State.haltGroup_halts (s : State) (k : Nat) (hk : (Sparse.find s.ctxs k).isSome = true) (hr : (s.ctx k).retired = false) :
    ((s.haltGroup k).ctx k).halted = true ∨ ((s.haltGroup k).ctx k).haltPend = true := by
  obtain ⟨c, hc⟩ := Option.isSome_iff_exists.mp hk
  have hcx : s.ctx k = c := State.ctx_of_find _ _ _ hc
  unfold State.haltGroup
  dsimp only
  split
  · next h => exact .inl (h.resolve_right (by simp [hr]))
  · split
    · rw [State.ctx_modCtx _ _ _ _ hc]; exact .inr rfl
    · unfold State.traceStop State.ctx
      rw [(State.trace_traced ..).ctxs]
      change ((s.stopGroup k).ctx k).halted = true ∨ _
      rw [State.stopGroup, State.ctx_modCtx _ _ _ _ hc]; exact .inl rfl
theorem State.haltSeq_stops (s : State) (k : Nat) : s.StopsCtx (s.haltSeq k) k := by
  unfold State.haltSeq
  split
  · refine .modCtx s k _ (fun c => ⟨⟨rfl, rfl, rfl⟩, fun _ => ?_⟩)
    cases hc : c.halted <;> simp [hc]
  · exact .modCtx s k _ Ctx.revertHints_stops
/-- A sequencer is then halted, or will be once its unit's move is over. -/
theorem State.haltSeq_halts (s : State) (k : Nat) (hk : (Sparse.find s.ctxs k).isSome = true) :
    ((s.haltSeq k).ctx k).halted = true ∨ ((s.haltSeq k).ctx k).haltPend = true ∧ s.underMove (s.ctx k) = true := by
  obtain ⟨c, hc⟩ := Option.isSome_iff_exists.mp hk
  unfold State.haltSeq
  split
  · next hm =>
    rw [State.ctx_modCtx _ _ _ _ hc]
    cases hh : c.halted
    · exact .inr ⟨by simp [hh], hm⟩
    · exact .inl rfl
  · rw [State.ctx_modCtx _ _ _ _ hc]; exact .inl rfl
theorem State.ownUnit_congr {s t : State} (hu : t.units = s.units) {c d : Ctx} (hc : d.unit = c.unit) (lvl : Nat) : t.ownUnit d lvl = s.ownUnit c lvl := by
  have h : ∀ f u, State.ancestor t lvl u f = State.ancestor s lvl u f := fun f => by
    induction f with
    | zero => exact fun _ => rfl
    | succ f ih => intro u; unfold State.ancestor State.unit; rw [hu]; simp only [ih]
  unfold State.ownUnit
  rw [hc, h]
theorem State.underMove_congr {s t : State} (hu : t.units = s.units) {c d : Ctx} (hk : d.kind = c.kind) (hc : d.unit = c.unit) : t.underMove d = s.underMove c := by
  unfold State.underMove State.unit
  rw [State.ownUnit_congr hu hc 2, hk, hc, hu]

/-- What the halt of a scope keeps: units, grids, and the places of contexts, of which those that were stopped stay stopped. -/
structure State.Halting (s t : State) : Prop where
  /-- units -/
  units : t.units = s.units
  /-- grids -/
  grids : t.grids = s.grids
  /-- contexts -/
  ctx : ∀ j, (s.ctx j).Stops (t.ctx j) ∧ (Sparse.find t.ctxs j).isSome = (Sparse.find s.ctxs j).isSome

theorem Ctx.Stops.trans {c d e : Ctx} (h : c.Stops d) (h' : d.Stops e) : c.Stops e := by
  obtain ⟨a, b, x⟩ := h.same
  obtain ⟨a', b', x'⟩ := h'.same
  exact ⟨⟨a'.trans a, b'.trans b, x'.trans x⟩, fun hc => h'.stays (h.stays hc)⟩
theorem State.Halting.refl (s : State) : s.Halting s := ⟨rfl, rfl, fun _ => ⟨⟨⟨rfl, rfl, rfl⟩, id⟩, rfl⟩⟩
theorem State.Halting.step {s t u : State} {k : Nat} (h : s.Halting t) (h' : t.StopsCtx u k) : s.Halting u :=
  ⟨h'.units.trans h.units, h'.grids.trans h.grids, fun j => ⟨(h.ctx j).1.trans (h'.ctx j), (h'.isSome j).trans (h.ctx j).2⟩⟩
theorem State.haltScope_halting (s : State) (c : Ctx) (sc : HScope) : s.Halting (s.haltScope c sc) :=
  foldl_induct s.Halting _ (fun t k h => h.step (t.haltSeq_stops k)) _ _ (foldl_induct s.Halting _ (fun t k h => h.step (t.haltGroup_stops k)) _ _ (.refl s))
theorem State.haltScope_other (s : State) (c : Ctx) (sc : HScope) {j : Nat} (hg : j ∉ s.scopeGroups c sc) (hq : j ∉ s.scopeSeqs c sc) :
    (s.haltScope c sc).ctx j = s.ctx j := by
  unfold State.haltScope
  rw [foldl_ctx_other (fun t k j h => (t.haltSeq_stops k).other h) _ _ _ hq, foldl_ctx_other (fun t k j h => (t.haltGroup_stops k).other h) _ _ _ hg]
/-- The groups of a scope that is halted. -/
theorem State.haltScope_groups (s : State) (c : Ctx) (sc : HScope) {j : Nat} (hj : j ∈ s.scopeGroups c sc) (hs : (Sparse.find s.ctxs j).isSome = true)
    (hr : (s.ctx j).retired = false) : ((s.haltScope c sc).ctx j).halted = true ∨ ((s.haltScope c sc).ctx j).haltPend = true := by
  have h1 : Sparse.find (List.foldl (fun s k => s.haltGroup k) s (s.scopeGroups c sc)).ctxs j ≠ none ∧ (s.ctx j).retired = false →
      ((List.foldl (fun s k => s.haltGroup k) s (s.scopeGroups c sc)).ctx j).halted = true
        ∨ ((List.foldl (fun s k => s.haltGroup k) s (s.scopeGroups c sc)).ctx j).haltPend = true :=
    foldl_reach s.Halting (fun t j => Sparse.find t.ctxs j ≠ none ∧ (s.ctx j).retired = false → (t.ctx j).halted = true ∨ (t.ctx j).haltPend = true)
      (fun t k h => h.step (t.haltGroup_stops k))
      (fun t k h hk => t.haltGroup_halts k (by rw [← (t.haltGroup_stops k).isSome]; exact Option.isSome_iff_ne_none.mpr hk.1)
        (by obtain ⟨-, -, e⟩ := (h.ctx k).1.same; rw [e]; exact hk.2))
      (fun t k j h hq hk => ((t.haltGroup_stops k).ctx j).stays (hq ⟨by
        have := (t.haltGroup_stops k).isSome j
        rw [← Option.isSome_iff_ne_none] at hk ⊢
        rw [← this]; exact hk.1, hk.2⟩)) _ s (.refl s) j (.inl hj)
  have hg : s.Halting (List.foldl (fun s k => s.haltGroup k) s (s.scopeGroups c sc)) :=
    foldl_induct s.Halting _ (fun t k h => h.step (t.haltGroup_stops k)) _ _ (.refl s)
  refine (foldl_induct (State.Halting _) _ (fun t k h => h.step (t.haltSeq_stops k)) _ _ (.refl _) : State.Halting _ (s.haltScope c sc)).ctx j |>.1.stays (h1 ⟨?_, hr⟩)
  rw [← Option.isSome_iff_ne_none, (hg.ctx j).2, hs]
/-- The sequencers of a scope that is halted. -/
theorem State.haltScope_seqs (s : State) (c : Ctx) (sc : HScope) {j : Nat} (hj : j ∈ s.scopeSeqs c sc) (hs : (Sparse.find s.ctxs j).isSome = true) :
    ((s.haltScope c sc).ctx j).halted = true ∨ ((s.haltScope c sc).ctx j).haltPend = true ∧ s.underMove (s.ctx j) = true := by
  have hm : ∀ {t : State}, s.Halting t → ∀ k, t.underMove (t.ctx k) = s.underMove (s.ctx k) := fun h k => by
    obtain ⟨a, b, -⟩ := (h.ctx k).1.same
    exact State.underMove_congr h.units a b
  have h1 := foldl_reach s.Halting (fun t j => (Sparse.find s.ctxs j).isSome = true → (t.ctx j).halted = true ∨ (t.ctx j).haltPend = true ∧ s.underMove (s.ctx j) = true)
    (fun t k h => h.step (t.haltSeq_stops k))
    (fun t k h hk => hm h k ▸ t.haltSeq_halts k (by rw [(h.ctx k).2]; exact hk))
    (fun t k j h hq hk => by
      by_cases e : j = k
      · subst e
        exact hm h j ▸ t.haltSeq_halts j (by rw [(h.ctx j).2]; exact hk)
      · rw [(t.haltSeq_stops k).other e]; exact hq hk)
    (s.scopeSeqs c sc) _ (foldl_induct s.Halting _ (fun t k h => h.step (t.haltGroup_stops k)) (s.scopeGroups c sc) _ (.refl s)) j (.inl hj)
  exact h1 hs

/-! ### Resumes -/

theorem State.goOn_unhalts (s : State) (k : Nat) : s.Unhalts (s.goOn k) := by
  have hs : ∀ t : State, t.Unhalts (t.modCtx k (fun c => c.modLanes c.liveLanes (fun _ x => { x with skip := true }))) := fun t =>
    .modCtx_same t k _ (fun c => Ctx.modLanes_halted ..)
  unfold State.goOn
  dsimp only
  split
  · exact ((State.reinject_unhalts s k).trans (hs _)).trans (.of_ctxs (State.trace_traced ..).ctxs)
  · exact hs s
theorem State.clearHalt_unhalts (s : State) (k : Nat) : s.Unhalts (s.modCtx k (fun c => { c with halted := false, haltPend := false })) :=
  .modCtx s k _ (fun _ => ⟨fun _ => ⟨rfl, rfl⟩, rfl⟩)
theorem State.clearHalt_halted (s : State) (k : Nat) : ((s.modCtx k (fun c => { c with halted := false, haltPend := false })).ctx k).Free := by
  cases hc : Sparse.find s.ctxs k with
  | none => simp [State.ctx, State.modCtx, Sparse.find_adjust, hc, Ctx.Free]
  | some c => rw [State.ctx_modCtx _ _ _ _ hc]; exact ⟨rfl, rfl⟩
theorem State.resumeGroup_from (s : State) (k : Nat) : (s.modCtx k (fun c => { c with halted := false, haltPend := false })).Unhalts (s.resumeGroup k) := by
  unfold State.resumeGroup
  dsimp only
  split
  · exact .refl _
  · split
    · exact .modCtx_same _ k _ (by intro; exact ⟨rfl, rfl, rfl⟩)
    · exact State.goOn_unhalts ..
theorem State.resumeSeq_from (s : State) (k : Nat) : (s.modCtx k (fun c => { c with halted := false, haltPend := false })).Unhalts (s.resumeSeq k) := by
  unfold State.resumeSeq
  dsimp only
  split
  · exact State.reinject_unhalts ..
  · exact .refl _
/-- Nothing of a scope that resumes is halted. -/
theorem State.resumeScope_free (s : State) (c : Ctx) (sc : HScope) {j : Nat} (hj : j ∈ s.scopeGroups c sc ∨ j ∈ s.scopeSeqs c sc) :
    ((s.resumeScope c sc).ctx j).Free := by
  have hg : ∀ t : State, ∀ k, t.Unhalts (t.resumeGroup k) := fun t k => (t.clearHalt_unhalts k).trans (t.resumeGroup_from k)
  have hq : ∀ t : State, ∀ k, t.Unhalts (t.resumeSeq k) := fun t k => (t.clearHalt_unhalts k).trans (t.resumeSeq_from k)
  have h1 : j ∈ s.scopeGroups c sc → ((List.foldl (fun s k => s.resumeGroup k) s (s.scopeGroups c sc)).ctx j).Free := fun h =>
    foldl_reach (fun _ => True) (fun (t : State) j => (t.ctx j).Free) (fun _ _ _ => trivial)
      (fun t k _ => (t.resumeGroup_from k).keeps k (t.clearHalt_halted k)) (fun t k j _ => (hg t k).keeps j) _ s trivial j (.inl h)
  have h2 := foldl_reach (f := fun (s : State) k => s.resumeSeq k) (fun _ => True) (fun (t : State) j => (t.ctx j).Free) (fun _ _ _ => trivial)
    (fun t k _ => (t.resumeSeq_from k).keeps k (t.clearHalt_halted k)) (fun t k j _ => (hq t k).keeps j) (s.scopeSeqs c sc)
    (List.foldl (fun s k => s.resumeGroup k) s (s.scopeGroups c sc)) trivial j (hj.symm.imp id h1)
  unfold State.resumeScope
  cases sc with
  | grid => exact h2
  | team => exact h2
  | clus => exact h2

/-! ### The registers -/

theorem bits_eq_one (v : DWord) (k : Nat) : bits v k k = 1 ↔ v.getLsbD k = true := by
  have h := bits_testBit v k k 0
  have hlt := bits_lt v k k
  have e : k + 1 - k = 1 := by omega
  rw [e] at h hlt
  rw [Nat.testBit_zero] at h
  have : bits v k k = 0 ∨ bits v k k = 1 := by omega
  rcases this with h0 | h1
  · rw [h0] at h ⊢
    simp at h ⊢
    rw [← h]
  · rw [h1] at h ⊢
    simpa using h
theorem regWrite_dbghalt (s : State) (p : Nat) (v : DWord) : s.regWrite p 0x0F00 v = s.dbghalt p v := by
  unfold State.regWrite
  rw [if_neg (show ¬ plainMask 0x0F00 ≠ 0 by decide), if_neg (by omega), if_neg (by omega), if_neg (by omega), if_neg (by omega), if_neg (by omega)] <;> rfl
theorem regWrite_sacctl (s : State) (p : Nat) (v : DWord) : s.regWrite p 0x0E08 v = s.modPkg p (fun q => q.sacctl v) := by
  unfold State.regWrite
  rw [if_neg (show ¬ plainMask 0x0E08 ≠ 0 by decide), if_neg (by omega), if_neg (by omega), if_neg (by omega), if_neg (by omega), if_neg (by omega)] <;> rfl
theorem regWrite_cpbrk {b : Nat} (hb : b < 4) (s : State) (p : Nat) (v : DWord) : s.regWrite p (0x0F88 + 16 * b) v = s.modPkg p (fun q => q.cpbrk b v) := by
  have hm : ∀ b < 4, plainMask (0x0F88 + 16 * b) = 0 := by decide
  have e : (0x0F88 + 16 * b - 0x0F80) / 16 = b := by omega
  unfold State.regWrite
  rw [if_neg (not_not.2 (hm b hb)), if_neg (by omega), if_neg (by omega), if_pos (by omega), e]
theorem regWrite_corestop {die wd : Nat} (hd : die < 8) (hw : wd < 4) (s : State) (p : Nat) (v : DWord) :
    s.regWrite p (0x0D00 + 32 * die + 8 * wd) v = s.corestop p die wd v := by
  have hm : ∀ die < 8, ∀ wd < 4, plainMask (0x0D00 + 32 * die + 8 * wd) = 0 := by decide
  have e1 : (0x0D00 + 32 * die + 8 * wd - 0x0D00) / 32 = die := by omega
  have e2 : (0x0D00 + 32 * die + 8 * wd) % 32 / 8 = wd := by omega
  unfold State.regWrite
  rw [if_neg (not_not.2 (hm die hd wd hw)), if_pos (by omega), e1, e2]

/-! ### DBGHALT -/

theorem took_resident (s : State) (p m q : Nat) (x : Site) : (s.took p m).resident q x = s.resident q x := by
  unfold State.took; split <;> rfl
theorem took_scopeGroups (s : State) (p m : Nat) (c : Ctx) (sc : HScope) : (s.took p m).scopeGroups c sc = s.scopeGroups c sc := by
  obtain ⟨hc, hu, -⟩ := s.took_only p m
  unfold State.scopeGroups
  cases sc <;> simp only [hc, hu, State.ownUnit_congr hu rfl]
  have : ∀ u, (s.took p m).unitsUnder 6 u = s.unitsUnder 6 u := fun u => by unfold State.took; split <;> rfl
  simp only [this]
theorem took_scopeSeqs (s : State) (p m : Nat) (c : Ctx) (sc : HScope) : (s.took p m).scopeSeqs c sc = s.scopeSeqs c sc := by
  unfold State.scopeSeqs
  cases sc <;> simp only [(s.took_only p m).1]
/-- A write of DBGHALT that names a group does what its field says. -/
theorem exec_dbghalt {s : State} {p m k : Nat} {v : DWord} {c : Ctx} (h : MayWrite s p m 0x0F00) (hsc : bits v 60 59 ≠ 3)
    (hf : (s.resident p (siteOfLoc (bits v 10 0))).find? (fun e => decide (e.2.resIdx = bits v 20 16) && decide (e.2.asid = bits v 47 32)) = some (k, c))
    (name : String) {b : Bool} (hb : b = true) :
    (bits v 63 61 = 1 → masterWrite name p m 0x0F00 v b s = .next (s.answer ((s.took p m).haltScope c (HScope.ofCode (bits v 60 59))) p m 0x0F00))
    ∧ (bits v 63 61 = 2 → masterWrite name p m 0x0F00 v b s = .next (s.answer ((s.took p m).resumeScope c (HScope.ofCode (bits v 60 59))) p m 0x0F00)) := by
  rw [acts_answered h (by decide) name v hb, regWrite_dbghalt, State.dbghalt]
  dsimp only
  rw [took_resident, hf]
  dsimp only
  rw [if_neg hsc]
  exact ⟨fun e => by rw [e] <;> rfl, fun e => by rw [e] <;> rfl⟩
theorem find_isSome_of_scopeGroups {s : State} {c : Ctx} {sc : HScope} {j : Nat} (h : j ∈ s.scopeGroups c sc) : (Sparse.find s.ctxs j).isSome = true := by
  unfold State.scopeGroups at h
  obtain ⟨e, he, rfl⟩ := List.mem_map.mp h
  exact Sparse.find_isSome_of_mem (List.mem_filter.mp he).1
theorem find_isSome_of_scopeSeqs {s : State} {c : Ctx} {sc : HScope} {j : Nat} (h : j ∈ s.scopeSeqs c sc) : (Sparse.find s.ctxs j).isSome = true := by
  unfold State.scopeSeqs at h
  split at h
  · obtain ⟨e, he, rfl⟩ := List.mem_map.mp h
    exact Sparse.find_isSome_of_mem (List.mem_filter.mp he).1
  · simp at h
theorem dbghalt_halts {s : State} {p m k : Nat} {v : DWord} {c : Ctx} (h : MayWrite s p m 0x0F00) (hsc : bits v 60 59 ≠ 3)
    (hf : (s.resident p (siteOfLoc (bits v 10 0))).find? (fun e => decide (e.2.resIdx = bits v 20 16) && decide (e.2.asid = bits v 47 32)) = some (k, c))
    (hv : bits v 63 61 = 1) : ∃ t, exec (.dbghaltHalt p m v) s = .next t ∧ t.units = s.units ∧ t.grids = s.grids
      ∧ (∀ j ∈ s.scopeGroups c (HScope.ofCode (bits v 60 59)), (s.ctx j).retired = false → (t.ctx j).halted = true ∨ (t.ctx j).haltPend = true)
      ∧ (∀ j ∈ s.scopeSeqs c (HScope.ofCode (bits v 60 59)), (t.ctx j).halted = true ∨ (t.ctx j).haltPend = true ∧ s.underMove (s.ctx j) = true)
      ∧ ∀ j, j ∉ s.scopeGroups c (HScope.ofCode (bits v 60 59)) → j ∉ s.scopeSeqs c (HScope.ofCode (bits v 60 59)) → t.ctx j = s.ctx j := by
  obtain ⟨hc, hu, hg, -⟩ := s.took_only p m
  have hx : ∀ j, (s.took p m).ctx j = s.ctx j := fun j => by unfold State.ctx; rw [hc]
  have hh := (s.took p m).haltScope_halting c (HScope.ofCode (bits v 60 59))
  refine ⟨s.answer ((s.took p m).haltScope c (HScope.ofCode (bits v 60 59))) p m 0x0F00, by rw [exec_dbghaltHalt_eq, execDbghaltHalt, (exec_dbghalt h hsc hf _ (by simpa using hv)).1 hv], hh.units.trans hu, hh.grids.trans hg,
    fun j hj hr => ?_, fun j hj => ?_, fun j hj hj' => ?_⟩
  · exact State.haltScope_groups _ c _ (by rw [took_scopeGroups]; exact hj) (by rw [hc]; exact find_isSome_of_scopeGroups hj) (by rw [hx]; exact hr)
  · rw [← State.underMove_congr hu (c := s.ctx j) (d := (s.took p m).ctx j) (by rw [hx]) (by rw [hx])]
    exact State.haltScope_seqs _ c _ (by rw [took_scopeSeqs]; exact hj) (by rw [hc]; exact find_isSome_of_scopeSeqs hj)
  · exact (State.haltScope_other _ c _ (by rw [took_scopeGroups]; exact hj) (by rw [took_scopeSeqs]; exact hj')).trans (hx j)
theorem dbghalt_resumes {s : State} {p m k : Nat} {v : DWord} {c : Ctx} (h : MayWrite s p m 0x0F00) (hsc : bits v 60 59 ≠ 3)
    (hf : (s.resident p (siteOfLoc (bits v 10 0))).find? (fun e => decide (e.2.resIdx = bits v 20 16) && decide (e.2.asid = bits v 47 32)) = some (k, c))
    (hv : bits v 63 61 = 2) : ∃ t, exec (.dbghaltResume p m v) s = .next t
      ∧ ∀ j, j ∈ s.scopeGroups c (HScope.ofCode (bits v 60 59)) ∨ j ∈ s.scopeSeqs c (HScope.ofCode (bits v 60 59)) → (t.ctx j).halted = false := by
  refine ⟨_, by rw [exec_dbghaltResume_eq, execDbghaltResume, (exec_dbghalt h hsc hf _ (by simpa using hv)).2 hv], fun j hj => ?_⟩
  exact (State.resumeScope_free (s.took p m) c _ (by rw [took_scopeGroups, took_scopeSeqs]; exact hj)).1

/-! ### CPBRKC and SACCTL -/

theorem Package.setReg_held (q : Package) (o : Nat) (x : DWord) : (q.setReg o x).held = q.held := rfl
/-- The hits of a breakpoint cleared in a package, whose register takes a value. -/
def Package.letGo (b : Nat) (x : DWord) (q : Package) : Package :=
  { q.setReg (0x0F88 + 16 * b) x with held := mapVals q.held (fun _ x => { x with mask := x.mask &&& ~~~(1#4 <<< b) }) }
theorem cpbrk_eq {v : DWord} (hv : v.getLsbD 59 = true) (b : Nat) (q : Package) :
    q.cpbrk b v = q.letGo b (putBits (v &&& 0xF03F000000000000) 59 59 0) := by
  have h := (bits_eq_one v 59).mpr hv
  unfold Package.cpbrk
  extract_lets off hit r
  rw [if_pos h]
  have hr : r = q.setReg off (putBits (v &&& 0xF03F000000000000) 59 59 0) := by simp only [r, if_pos h]
  unfold Package.letGo
  rw [hr, Package.setReg_held]
theorem Package.letGo_fields (b : Nat) (x : DWord) (q : Package) : (q.letGo b x).regs = (q.setReg (0x0F88 + 16 * b) x).regs
    ∧ (q.letGo b x).boot = (q.setReg (0x0F88 + 16 * b) x).boot
    ∧ (q.letGo b x).held = mapVals q.held (fun _ x => { x with mask := x.mask &&& ~~~(1#4 <<< b) }) := ⟨rfl, rfl, rfl⟩
theorem cpbrk_release {s : State} {p m b : Nat} {v : DWord} (hb : b < 4) (hv : v.getLsbD 59 = true) (h : MayWrite s p m (0x0F88 + 16 * b)) :
    ∃ t, exec (.cpbrkcRelease p m b v) s = .next t
      ∧ OnlyPkg s t p ∧ SameRegs (s.pkg p) (t.pkg p) [0x0F88 + 16 * b] ∧ bits ((t.pkg p).reg (0x0F88 + 16 * b)) 59 59 = 0
      ∧ ∀ q x, Sparse.find (s.pkg p).held q = some x → Sparse.find (t.pkg p).held q = some { x with mask := x.mask &&& ~~~(1#4 <<< b) } := by
  obtain ⟨⟨ho, hs, _⟩, hr⟩ := answered_regs s p m (0x0F88 + 16 * b) (fun q => q.cpbrk b v)
    (g := fun q => q.setReg (0x0F88 + 16 * b) (putBits (v &&& 0xF03F000000000000) 59 59 0)) [0x0F88 + 16 * b]
    (fun q => by rw [cpbrk_eq hv]; exact ⟨(Package.letGo_fields ..).1, (Package.letGo_fields ..).2.1⟩) (fun q => SameRegs.setReg q (l := [0x0F88 + 16 * b]) (by simp) _)
  obtain ⟨_, _, hp⟩ := answered_modPkg s p m (0x0F88 + 16 * b) (fun q => q.cpbrk b v)
  have hheld : (((s.took p m).pkg p).cpbrk b v).held = mapVals (s.pkg p).held (fun _ x => { x with mask := x.mask &&& ~~~(1#4 <<< b) }) := by
    rw [cpbrk_eq hv, (Package.letGo_fields ..).2.2, State.took_pkg]
  refine ⟨_, by rw [exec_cpbrkcRelease_eq, execCpbrkcRelease, acts_modPkg h (by omega) _ _ (by simpa using ⟨hb, hv⟩) (regWrite_cpbrk hb _ p v)],
    ho, hs, ?_, fun q x hq => ?_⟩
  · rw [hr, Package.reg_setReg, if_pos rfl, bits_putBits_same _ _ (by omega) (by omega), Nat.zero_mod]
  · rw [hp]
    dsimp only
    rw [hheld, find_mapVals, hq]
    rfl
theorem sacctl_account (q : Package) (v : DWord) : (q.sacctl v).account = (if v.getLsbD 61 = true then [] else q.account)
    ∧ (q.sacctl v).snap = if v.getLsbD 62 = true then q.account else q.snap := by
  unfold Package.sacctl
  rw [Package.setFld_only, if_congr (bits_eq_one v 61) rfl rfl, if_congr (bits_eq_one v 62) rfl rfl]
  by_cases h1 : v.getLsbD 61 = true
  · rw [if_pos h1, if_pos h1]
    split <;> exact ⟨rfl, rfl⟩
  · rw [if_neg h1, if_neg h1]
    split <;> exact ⟨rfl, rfl⟩
theorem sacctl_answered {s : State} {p m : Nat} {v : DWord} (h : MayWrite s p m 0x0E08) (name : String) {b : Bool} (hb : b = true) :
    ∃ t, masterWrite name p m 0x0E08 v b s = .next t ∧ OnlyPkg s t p
      ∧ (t.pkg p).account = (if v.getLsbD 61 = true then [] else (s.pkg p).account)
      ∧ (t.pkg p).snap = if v.getLsbD 62 = true then (s.pkg p).account else (s.pkg p).snap := by
  obtain ⟨ho, _, hp⟩ := answered_modPkg s p m 0x0E08 (fun q => q.sacctl v)
  obtain ⟨ha, hs⟩ := sacctl_account ((s.took p m).pkg p) v
  rw [State.took_pkg] at ha hs
  refine ⟨_, acts_modPkg h (by decide) name v hb (regWrite_sacctl _ p v), ho, ?_, ?_⟩
  · rw [hp, State.took_pkg]; exact ha
  · rw [hp, State.took_pkg]; exact hs

/-! ### CORESTOP -/

theorem coreAborting_congr {s t : State} (hu : t.units = s.units) (hc : t.ctxs = s.ctxs) (p core : Nat) : t.coreAborting p core = s.coreAborting p core := by
  unfold State.coreAborting; rw [hu, hc] <;> rfl
/-- A stopped core of a package returns to service. -/
def Package.backIn (core : Nat) (q : Package) : Package :=
  { q.setFld (0x0D00 + 32 * (core / 256 % 8) + 8 * (core % 256 / 64)) (core % 64) (core % 64) 0 with
    coreReturn := q.coreReturn.filter (fun x => decide (x ≠ core)) }
/-- The return of some cores is asked for. -/
def Package.backAsked (l : List Nat) (q : Package) : Package := { q with coreReturn := (q.coreReturn ++ l).eraseDups }
theorem backIn_reg (core : Nat) (q : Package) (o : Nat) :
    (q.backIn core).reg o = (q.setFld (0x0D00 + 32 * (core / 256 % 8) + 8 * (core % 256 / 64)) (core % 64) (core % 64) 0).reg o :=
  Package.reg_congr rfl rfl o
theorem coreStopped_congr {q r : Package} (h : ∀ o, r.reg o = q.reg o) (n : Nat) : r.coreStopped n = q.coreStopped n := by
  unfold Package.coreStopped Package.fld; rw [h]
/-- One core that was to return does, once none of its teams aborts. -/
def State.returnCore (p : Nat) (s : State) (core : Nat) : State :=
  if s.coreAborting p core then s else s.modPkg p (Package.backIn core)
theorem returnCores_eq (s : State) (p : Nat) : s.returnCores p = (s.pkg p).coreReturn.foldl (State.returnCore p) s := rfl
theorem returnCore_only (p : Nat) (s : State) (core : Nat) : OnlyPkg s (s.returnCore p core) p := by
  unfold State.returnCore
  split
  · exact .refl s p
  · exact .modPkg s p _
theorem returnCore_stopped {p core : Nat} (s : State) (hc : core < 2048) {n : Nat} (hn : n < 2048) : ((State.returnCore p s core).pkg p).coreStopped n =
    ((s.pkg p).coreStopped n && !(decide (n = core) && !s.coreAborting p core)) := by
  unfold State.returnCore
  cases ha : s.coreAborting p core with
  | true => simp
  | false =>
    rw [if_neg (by simp), State.pkg_modPkg_same]
    unfold Package.coreStopped Package.fld
    rw [backIn_reg, Package.reg_setFld]
    by_cases e : n = core
    · subst e
      rw [if_pos rfl, bits_putBits_same _ _ (le_refl _) (by omega)]
      simp
    · simp only [e, decide_false, Bool.false_and, Bool.not_false, Bool.and_true]
      by_cases ho : 0x0D00 + 32 * (n / 256 % 8) + 8 * (n % 256 / 64) = 0x0D00 + 32 * (core / 256 % 8) + 8 * (core % 256 / 64)
      · rw [if_pos ho, bits_putBits_other _ _ (le_refl _) (by omega) (by omega), ho]
      · rw [if_neg ho]
/-- Of cores that were to return, those whose teams have aborted do. -/
theorem foldl_returnCore {p : Nat} (l : List Nat) (hl : ∀ n ∈ l, n < 2048) (s : State) :
    OnlyPkg s (l.foldl (State.returnCore p) s) p
      ∧ ∀ n < 2048, ((l.foldl (State.returnCore p) s).pkg p).coreStopped n = ((s.pkg p).coreStopped n && !(decide (n ∈ l) && !s.coreAborting p n)) := by
  induction l generalizing s with
  | nil => exact ⟨.refl s p, fun n _ => by simp⟩
  | cons k r ih =>
    obtain ⟨ho, hs⟩ := ih (fun n hn => hl n (List.mem_cons_of_mem _ hn)) (State.returnCore p s k)
    have h1 := returnCore_only p s k
    have hc : (State.returnCore p s k).ctxs = s.ctxs := h1.1
    have hu : (State.returnCore p s k).units = s.units := h1.2.1
    refine ⟨h1.trans ho, fun n hn => ?_⟩
    rw [List.foldl_cons, hs n hn, returnCore_stopped s (hl k (List.mem_cons_self ..)) hn, coreAborting_congr hu hc]
    by_cases e : n = k
    · subst e
      cases (s.pkg p).coreStopped n <;> cases s.coreAborting p n <;> simp
    · simp [e]
theorem corestop_effect {s : State} {p die wd : Nat} (hd : die < 8) (hw : wd < 4) (hl : ∀ n ∈ (s.pkg p).coreReturn, n < 2048) (v : DWord) :
    OnlyPkg s (s.corestop p die wd v) p ∧ ∀ n < 2048, ((s.corestop p die wd v).pkg p).coreStopped n = ((s.pkg p).coreStopped n
      && !((decide (n ∈ (s.pkg p).coreReturn) || (decide (n / 64 = die * 4 + wd) && v.getLsbD (n % 64))) && !s.coreAborting p n)) := by
  unfold State.corestop
  extract_lets old l
  have hold : ∀ b < 64, old.getLsbD b = (s.pkg p).coreStopped (die * 256 + wd * 64 + b) := fun b hb => by
    have e1 : (die * 256 + wd * 64 + b) / 256 % 8 = die := by omega
    have e2 : (die * 256 + wd * 64 + b) % 256 / 64 = wd := by omega
    have e3 : (die * 256 + wd * 64 + b) % 64 = b := by omega
    unfold Package.coreStopped Package.fld
    rw [e1, e2, e3, Bool.eq_iff_iff, decide_eq_true_iff, bits_eq_one]
  have hmem : ∀ n, n ∈ l ↔ n / 64 = die * 4 + wd ∧ v.getLsbD (n % 64) = true ∧ old.getLsbD (n % 64) = true := fun n => by
    simp only [l, List.mem_map, List.mem_filter, List.mem_range, Bool.and_eq_true]
    constructor
    · rintro ⟨b, ⟨hb, hv, ho⟩, rfl⟩
      have e : (die * 256 + wd * 64 + b) % 64 = b := by omega
      exact ⟨by omega, by rw [e]; exact hv, by rw [e]; exact ho⟩
    · rintro ⟨he, hv, ho⟩
      exact ⟨n % 64, ⟨by omega, hv, ho⟩, by omega⟩
  have hp : ((s.modPkg p (Package.backAsked l)).pkg p).coreReturn = ((s.pkg p).coreReturn ++ l).eraseDups := by
    rw [State.pkg_modPkg_same]; rfl
  change OnlyPkg s ((s.modPkg p (Package.backAsked l)).returnCores p) p ∧ ∀ n < 2048, (((s.modPkg p (Package.backAsked l)).returnCores p).pkg p).coreStopped n = _
  rw [returnCores_eq, hp]
  obtain ⟨ho, hs⟩ := foldl_returnCore (p := p) ((s.pkg p).coreReturn ++ l).eraseDups (fun n hn => by
    rw [List.mem_eraseDups, List.mem_append, hmem] at hn
    rcases hn with hn | ⟨hn, -⟩
    · exact hl n hn
    · omega) (s.modPkg p (Package.backAsked l))
  refine ⟨(OnlyPkg.modPkg s p _).trans ho, fun n hn => ?_⟩
  have hst : ((s.modPkg p (Package.backAsked l)).pkg p).coreStopped n = (s.pkg p).coreStopped n := by
    rw [State.pkg_modPkg_same]; rfl
  rw [hs n hn, hst, coreAborting_congr (s := s) (t := s.modPkg p (Package.backAsked l)) rfl rfl]
  by_cases hb : n / 64 = die * 4 + wd
  · have ho := hold (n % 64) (by omega)
    rw [show die * 256 + wd * 64 + n % 64 = n by omega] at ho
    simp only [List.mem_eraseDups, List.mem_append, hmem, ho, hb]
    cases (s.pkg p).coreStopped n <;> simp
  · simp [List.mem_eraseDups, List.mem_append, hmem, hb]

/-- Settles O43. -/
theorem debugCommands : Obligations.DebugCommands := by
  unfold Obligations.DebugCommands
  refine ⟨fun s p m v k c h hsc hf => ⟨fun hv => dbghalt_halts h hsc hf hv, fun hv => dbghalt_resumes h hsc hf hv⟩,
    fun s p m b v hb hv h => cpbrk_release hb hv h, fun s p m v h => ⟨fun hv => ?snap, fun hv => ?clr⟩,
    fun s p m die wd v hd hw hl h => ?core⟩
  case snap =>
    obtain ⟨t, hx, ho, ha, hs⟩ := sacctl_answered h "SACCTL_SNAP" hv
    exact ⟨t, by rw [exec_sacctlSnap_eq, execSacctlSnap, hx], ho, by rw [hs, if_pos hv], ha⟩
  case clr =>
    obtain ⟨t, hx, ho, ha, hs⟩ := sacctl_answered h "SACCTL_CLR" hv
    exact ⟨t, by rw [exec_sacctlClr_eq, execSacctlClr, hx], ho, by rw [ha, if_pos hv], hs⟩
  case core =>
    obtain ⟨hc0, hu0, -⟩ := s.took_only p m
    obtain ⟨ho, hs⟩ := corestop_effect (s := s.took p m) (p := p) hd hw (by rw [State.took_pkg]; exact hl) v
    have hst : ∀ n < 2048, ((s.answer ((s.took p m).corestop p die wd v) p m (0x0D00 + 32 * die + 8 * wd)).pkg p).coreStopped n = ((s.pkg p).coreStopped n
      && !((decide (n ∈ (s.pkg p).coreReturn) || (decide (n / 64 = die * 4 + wd) && v.getLsbD (n % 64))) && !s.coreAborting p n)) := fun n hn => by
      rw [coreStopped_congr (State.answer_reg s _ p m _), hs n hn, coreStopped_congr (State.took_reg s p m), coreAborting_congr hu0 hc0, State.took_pkg]
    have hlt : ∀ b < 64, die * 256 + wd * 64 + b < 2048 := fun b hb => by omega
    have hdiv : ∀ b < 64, (die * 256 + wd * 64 + b) / 64 = die * 4 + wd := fun b hb => by omega
    have hmod : ∀ b < 64, (die * 256 + wd * 64 + b) % 64 = b := fun b hb => by omega
    refine ⟨_, by rw [exec_corestopWrite_eq, execCorestopWrite, acts_answered h (by omega) _ _ (by simpa using ⟨hd, hw⟩), regWrite_corestop hd hw],
      (s.took_only p m).trans (ho.trans (State.answer_only ..)), fun b hb hv ha => ?_, fun n hn ha => ?_, fun b hb hv hm => ?_⟩
    · rw [hst _ (hlt b hb), hdiv b hb, hmod b hb, hv, ha]; simp
    · rw [hst n hn, ha]; simp
    · rw [hst _ (hlt b hb), hdiv b hb, hmod b hb, hv]; simp [hm]

end Sys2Proof.Machine
end

section
/-! Operations that change caches alone, and writes at homes where nothing is on its way (chapters 10 and 16). -/

namespace Sys2Proof.Machine

/-- Hart reservations aside, the application cores of two packages are the same. -/
def sameHarts (q r : Package) : Prop :=
  mapVals r.harts (fun _ h => { h with resv := none }) = mapVals q.harts (fun _ h => { h with resv := none })
/-- A package that differs from another in caches, their directory and reservations alone. -/
structure Package.Calm (q r : Package) : Prop where
  /-- caches and the directory -/
  only : r = { q with dlines := r.dlines, dieLines := r.dieLines, dir := r.dir, tlbs := r.tlbs, walks := r.walks, harts := r.harts }
  /-- of application cores, reservations -/
  harts : sameHarts q r
  /-- nothing is on its way, as before -/
  quiet : (∀ y ∈ q.dieLines, y.old = none) → ∀ y ∈ r.dieLines, y.old = none
/-- A state that differs from another in caches, their directory and reservations alone. -/
structure State.Calm (s t : State) : Prop where
  /-- nothing but packages -/
  rest : t = { s with pkgs := t.pkgs }
  /-- of packages, caches -/
  pkg : ∀ p, (s.pkg p).Calm (t.pkg p)
  /-- nothing is on its way, as before -/
  quiet : s.NoSlots → t.NoSlots

theorem Package.Calm.refl (q : Package) : q.Calm q := ⟨rfl, rfl, id⟩
theorem Package.Calm.trans {q r u : Package} (h : q.Calm r) (h' : r.Calm u) : q.Calm u where
  only := by rw [h'.only, h.only]
  harts := Eq.trans h'.harts h.harts
  quiet := h'.quiet ∘ h.quiet
theorem Package.Calm.quiets {q r : Package} (h : q.Calm r) (hq : q.Quiet) : r.Quiet := by
  obtain ⟨a, b, c, d⟩ := hq
  rw [h.only]
  exact ⟨a, b, c, h.quiet d⟩
theorem State.Calm.refl (s : State) : s.Calm s := ⟨rfl, fun _ => .refl _, id⟩
theorem State.Calm.trans {s t u : State} (h : s.Calm t) (h' : t.Calm u) : s.Calm u where
  rest := by rw [h'.rest, h.rest]
  pkg p := (h.pkg p).trans (h'.pkg p)
  quiet := h'.quiet ∘ h.quiet
theorem State.Calm.sameBytes {s t : State} (h : s.Calm t) : SameBytes s t := by intro a; rw [h.rest]; cases a <;> rfl
theorem State.Calm.ctxs {s t : State} (h : s.Calm t) : t.ctxs = s.ctxs := by rw [h.rest]
theorem State.Calm.units {s t : State} (h : s.Calm t) : t.units = s.units := by rw [h.rest]
theorem State.Calm.grids {s t : State} (h : s.Calm t) : t.grids = s.grids := by rw [h.rest]
theorem State.Calm.msis {s t : State} (h : s.Calm t) : t.msis = s.msis := by rw [h.rest]
theorem State.Calm.ctx {s t : State} (h : s.Calm t) (k : Nat) : t.ctx k = s.ctx k := by rw [h.rest]; rfl
theorem State.Calm.unit {s t : State} (h : s.Calm t) (k : Nat) : t.unit k = s.unit k := by rw [h.rest]; rfl
theorem State.Calm.reg {s t : State} (h : s.Calm t) (p off : Nat) : (t.pkg p).reg off = (s.pkg p).reg off := by
  rw [(h.pkg p).only] <;> rfl
/-- A field of a package that no cache holds. -/
theorem State.Calm.field {α : Type} {s t : State} (h : s.Calm t) (p : Nat) (f : Package → α)
    (hf : ∀ (q : Package) a b c d e g, f { q with dlines := a, dieLines := b, dir := c, tlbs := d, walks := e, harts := g } = f q) :
    f (t.pkg p) = f (s.pkg p) := by rw [(h.pkg p).only, hf]
theorem State.Calm.modPkg {r s : State} (h : r.Calm s) (p : Nat) (f : Package → Package) (hf : ∀ q : Package, q.Calm (f q)) : r.Calm (s.modPkg p f) := by
  refine h.trans ⟨rfl, fun q => ?_, fun hq => hq.modPkg p f ((hf _).quiets (hq.quiet p))⟩
  by_cases hq : q = p
  · subst hq; rw [State.pkg_modPkg_same]; exact hf _
  · simp only [State.pkg_modPkg, hq, if_false]; exact .refl _
theorem State.Calm.mapPkgs {r s : State} (h : r.Calm s) (f : Nat → Package → Package) (hf : ∀ p q, Package.Calm q (f p q)) :
    r.Calm { s with pkgs := mapVals s.pkgs f } := by
  refine h.trans ⟨rfl, fun p => ?_, fun hq e he => ?_⟩
  · unfold State.pkg
    rw [find_mapVals]
    cases Sparse.find s.pkgs p with
    | none => exact .refl _
    | some q => exact hf p q
  · obtain ⟨x, hx, rfl⟩ := List.mem_map.mp he
    exact (hf _ _).quiets (hq x hx)
theorem State.Calm.foldl {α : Type} {r s : State} (h : r.Calm s) (l : List α) (f : State → α → State)
    (hf : ∀ t x, r.Calm t → r.Calm (f t x)) : r.Calm (l.foldl f s) := foldl_induct r.Calm f hf l s h
theorem State.Calm.ite {p : Prop} [Decidable p] {r s t : State} (h : r.Calm s) (h' : r.Calm t) : r.Calm (if p then s else t) := by
  split
  · exact h
  · exact h'
theorem Package.Calm.dieLines (q : Package) {l : List DieLine} (h : ∀ y ∈ l, y ∈ q.dieLines ∨ y.old = none) : q.Calm { q with dieLines := l } :=
  ⟨rfl, rfl, fun hq y hy => (h y hy).elim (hq y) id⟩

/-! ### Caches and the directory -/

theorem State.Calm.dieDrop {r s : State} (h : r.Calm s) (p d key : Nat) : r.Calm (s.dieDrop p d key) := by
  unfold State.dieDrop
  exact (h.modPkg _ _ (fun q => Package.Calm.dieLines q (fun y hy => .inl (List.mem_filter.mp hy).1))).modPkg _ _ (fun q => ⟨rfl, rfl, id⟩)
theorem State.Calm.thaw {r s : State} (h : r.Calm s) (f : Nat → DieLine → Bool) : r.Calm (s.thaw f) :=
  h.foldl _ _ (fun _ _ ht => ht.foldl _ _ (fun _ _ h => h.dieDrop _ _ _))
theorem State.Calm.register {r s : State} (h : r.Calm s) (me key : Nat) : r.Calm (s.register me key) := by
  unfold State.register
  refine h.modPkg _ _ (fun q => ?_)
  split <;> exact ⟨rfl, rfl, id⟩
theorem State.Calm.orderLate {r s : State} (h : r.Calm s) : r.Calm s.orderLate := by
  refine h.mapPkgs _ (fun p q => ?_)
  split
  · exact .refl q
  · refine ⟨rfl, rfl, fun hq y hy => ?_⟩
    obtain ⟨x, hx, rfl⟩ := List.mem_map.mp hy
    exact hq x hx
theorem State.Calm.dcacheWrite {r s : State} (h : r.Calm s) (src : Option (Nat × Nat)) (key : Nat) : r.Calm (s.dcacheWrite src key) := by
  refine h.mapPkgs _ (fun p q => ?_)
  split
  · exact .refl q
  · refine ⟨rfl, ?_, id⟩
    unfold sameHarts breakResv mapVals
    rw [List.map_map]
    refine List.map_congr_left (fun e _ => ?_)
    dsimp only [Function.comp]
    split <;> rfl
theorem State.Calm.dcacheHole {r s : State} (h : r.Calm s) (l : Loc) : r.Calm (s.dcacheHole l) := by
  unfold State.dcacheHole
  split
  · refine (h.thaw _).mapPkgs _ (fun p q => ?_)
    split
    · exact .refl q
    · exact ⟨rfl, rfl, id⟩
  · exact h
theorem State.Calm.dirWrite {r s : State} (h : r.Calm s) (me : Option Nat) (key : Nat) : r.Calm (s.dirWrite me key) := by
  unfold State.dirWrite
  dsimp only
  split
  · exact h
  · refine (h.mapPkgs _ (fun p q => ?_)).modPkg _ _ (fun q => ⟨rfl, rfl, id⟩)
    split
    · exact .refl q
    · exact Package.Calm.dieLines q (fun y hy => .inl (List.mem_filter.mp hy).1)
theorem State.Calm.dieFill {r s : State} (h : r.Calm s) (p : Nat) (x : Site) (key : Nat) : r.Calm (s.dieFill p x key) := by
  unfold State.dieFill
  dsimp only
  split
  · exact h
  · refine (State.Calm.modPkg ?_ _ _ (fun q => Package.Calm.dieLines q (fun y hy => ?_))).register _ _
    · split
      · exact h
      · split
        · exact h.dieDrop _ _ _
        · exact h
    · rcases List.mem_append.mp hy with hy | hy
      · exact .inl hy
      · rw [List.mem_singleton.mp hy]; exact .inr rfl
theorem State.Calm.dropKey {r s : State} (h : r.Calm s) (p core key : Nat) : r.Calm (s.dropKey p core key) :=
  h.modPkg _ _ (fun _ => ⟨rfl, rfl, id⟩)
theorem State.Calm.fillLine {r s : State} (h : r.Calm s) (p core key : Nat) : r.Calm (s.fillLine p core key) := by
  unfold State.fillLine
  dsimp only
  refine State.Calm.modPkg ?_ _ _ (fun _ => ⟨rfl, rfl, id⟩)
  split
  · exact h.dropKey _ _ _
  · split
    · exact (h.dropKey _ _ _).dropKey _ _ _
    · exact h.dropKey _ _ _
theorem State.Calm.peerFill {r s : State} (h : r.Calm s) (p : Nat) (x : Site) (l : Loc) (n : Nat) : r.Calm (s.peerFill p x l n) := by
  unfold State.peerFill
  split
  · split
    · exact h
    · exact h.foldl _ _ (fun _ _ ht => ht.dieFill _ _ _)
  · exact h
theorem State.Calm.dropLine {r s : State} (h : r.Calm s) (c : Ctx) (l : Loc) : r.Calm (s.dropLine c l) := by
  unfold State.dropLine
  split
  · exact h.dropKey _ _ _
  · exact h
theorem State.Calm.acknowledge {r s : State} (h : r.Calm s) (p k : Nat) : r.Calm (s.acknowledge p k) := (h.thaw _).orderLate
theorem State.Calm.acquire {r s : State} (h : r.Calm s) (c : Ctx) (k : Nat) : r.Calm (s.acquire c k) := by
  unfold State.acquire
  dsimp only
  have h1 : r.Calm (match s.coreOf c with
    | none => s
    | some (p, core) =>
      if k < 2 then s
      else s.modPkg p (fun q => { q with dlines := q.dlines.filter (fun x =>
        decide (x.core ≠ core) || (decide (s.reach c k = 2) && x.own.contains k)) }) : State) := by
    split
    · exact h
    · exact .ite h (h.modPkg _ _ (fun _ => ⟨rfl, rfl, id⟩))
  split
  · exact h1
  · exact h1.modPkg _ _ (fun q => Package.Calm.dieLines q (fun y hy => .inl (List.mem_filter.mp hy).1))

/-! ### Where nothing is on its way -/

theorem foldl_id {α σ : Type} (f : σ → α → σ) (s : σ) (l : List α) (h : ∀ x ∈ l, f s x = s) : l.foldl f s = s := by
  induction l with
  | nil => rfl
  | cons x r ih => rw [List.foldl_cons, h x (List.mem_cons_self ..), ih (fun y hy => h y (List.mem_cons_of_mem _ hy))]
theorem State.thaw_noSlots {s : State} (h : s.NoSlots) (f : Nat → DieLine → Bool) : s.thaw f = s := by
  unfold State.thaw
  refine foldl_id _ s s.pkgs (fun e he => ?_)
  have : e.2.dieLines.filter (fun y => y.old.isSome && f e.1 y) = [] := by
    refine List.filter_eq_nil_iff.mpr (fun y hy => ?_)
    rw [(h e he).2.2.2 y hy]; simp
  rw [this]; rfl
theorem State.drainEarly_noSlots {s : State} (h : s.NoSlots) (p : Nat) (f : Early → Bool) : s.drainEarly p f = s := by
  unfold State.drainEarly
  rw [(h.quiet p).2.2.1]; rfl
theorem State.mergeShadows_noSlots {s : State} (h : s.NoSlots) (p : Nat) (f : ShadowWord → Bool) : s.mergeShadows p f = s := by
  unfold State.mergeShadows
  rw [(h.quiet p).2.1]; rfl
theorem State.mergeSpan_noSlots {s : State} (h : s.NoSlots) (p : Nat) (x : Site) (l : Loc) (n : Nat) : s.mergeSpan p x l n = s := by
  unfold State.mergeSpan
  split
  · rw [State.mergeShadows_noSlots h]; split <;> rfl
  · rfl
theorem State.drainSpan_noSlots {s : State} (h : s.NoSlots) (p : Nat) (x : Site) (l : Loc) (n : Nat) : s.drainSpan p x l n = s := by
  unfold State.drainSpan
  split
  · rw [State.drainEarly_noSlots h]; split <;> rfl
  · rfl
theorem State.toHome_noSlots {s : State} (h : s.NoSlots) (c : Ctx) (l : Loc) (n : Nat) : s.toHome c l n = s := by
  unfold State.toHome
  dsimp only
  rw [State.mergeSpan_noSlots h, State.drainSpan_noSlots h]
  split
  · exact State.thaw_noSlots h _
  · rfl
theorem State.toAcquire_noSlots {s : State} (h : s.NoSlots) (c : Ctx) (l : Loc) (n : Nat) : s.toAcquire c l n = s := by
  unfold State.toAcquire
  dsimp only
  rw [State.drainSpan_noSlots h]
  split
  · exact State.thaw_noSlots h _
  · rfl
theorem State.toDie_calm {s : State} (h : s.NoSlots) (p die : Nat) (f : Early → Bool) : s.Calm (s.toDie p die f) := by
  unfold State.toDie
  dsimp only
  rw [State.drainEarly_noSlots h, State.thaw_noSlots h]
  have he : (s.pkg p).early = [] := (h.quiet p).2.2.1
  refine .ite (.refl s) ?_
  rw [he]
  have hc : ∀ f : Package → Package, (s.pkg p).Calm (f (s.pkg p)) → s.Calm (s.modPkg p f) := fun f hf => by
    refine ⟨rfl, fun q => ?_, fun hq => hq.modPkg p f (hf.quiets (hq.quiet p))⟩
    by_cases e : q = p
    · subst e; rw [State.pkg_modPkg_same]; exact hf
    · simp only [State.pkg_modPkg, e, if_false]; exact .refl _
  have hd : ∀ dl, (s.pkg p).Calm { s.pkg p with early := [], dlines := dl } := fun dl => by
    rw [← congrArg (fun e => ({ s.pkg p with early := e, dlines := dl } : Package)) he]
    exact ⟨rfl, rfl, id⟩
  refine hc _ ?_
  simp only [he, List.filter_nil, List.map_nil, List.append_nil]
  exact hd _
theorem State.release_calm {s : State} (h : s.NoSlots) (c : Ctx) (k : Nat) : s.Calm (s.release c k) := by
  unfold State.release
  extract_lets s1 s2 s3
  have e1 : s1 = s := by simp only [s1, State.mergeShadows_noSlots h, ite_self]
  have h2 : s.Calm s2 := by
    simp only [s2, e1, State.drainEarly_noSlots h]
    exact .ite (.refl s) (.ite (.refl s) (.ite (State.toDie_calm h ..) (.refl s)))
  have h3 : s.Calm s3 := .ite (h2.acknowledge _ _) h2
  split
  · exact h3
  · exact .ite (h3.modPkg _ _ (fun _ => ⟨rfl, rfl, id⟩)) h3
theorem State.ctxRead_calm {s : State} (hq : s.NoSlots) (c : Ctx) (l : Loc) (n : Nat) (nc : Bool) : s.Calm (s.ctxRead c l n nc).1 := by
  unfold State.ctxRead
  dsimp only
  rw [State.mergeSpan_noSlots hq, State.homeRead_noSlots hq]
  split
  · next k p core _ =>
    split
    · have h1 : s.Calm ((lineKeys k n).foldl (fun s key => s.dropKey p core key) s) := (State.Calm.refl s).foldl _ _ (fun _ _ ht => ht.dropKey _ _ _)
      rw [State.releaseSpan_noSlots (h1.quiet hq)]
      exact h1.foldl _ _ (fun _ _ ht => ht.dieFill _ _ _)
    · refine foldl_fst_induct s.Calm _ (fun x y hx => ?_) _ _ (.refl s)
      split
      · exact hx
      · dsimp only
        rw [State.releaseSpan_noSlots (hx.quiet hq)]
        exact (hx.dieFill _ _ _).fillLine _ _ _
  · rw [State.releaseSpan_noSlots hq]
    exact (State.Calm.refl s).foldl _ _ (fun _ _ ht => ht.dieFill _ _ _)
  · exact .refl s
theorem State.translate_calm {s : State} (h : s.NoSlots) (y : Party) (va : Nat) (k : AccKind) : s.Calm (s.translate y va k).1 := by
  have hc := State.translate_cached h y va k
  exact ⟨hc.rest, fun p => by rw [hc.pkgs]; exact ⟨rfl, rfl, id⟩, hc.quiet⟩
theorem State.wrByte_pkgs (s : State) (l : Loc) (b : Byte) : (s.wrByte l b).pkgs = s.pkgs := by cases l <;> rfl
theorem State.wrBytes_pkgs (s : State) (l : Loc) (bs : List Byte) : (s.wrBytes l bs).pkgs = s.pkgs :=
  foldl_fst_induct (fun t => t.pkgs = s.pkgs) _ (fun _ _ h => (State.wrByte_pkgs ..).trans h) bs (s, 0) rfl
/-- A write at a home writes its bytes, and changes caches beside them. -/
theorem State.writeHome_calm {s : State} (hq : s.NoSlots) (plain : Bool) (src : Option (Nat × Nat)) (me : Option Nat) (l : Loc) (bs : List Byte) :
    (s.wrBytes l bs).Calm (s.writeHome plain src me l bs) := by
  unfold State.writeHome
  dsimp only
  split
  · split
    · next h => rw [List.isEmpty_iff.mp h]; exact .refl s
    · rw [State.thaw_noSlots hq, State.releaseSpan_noSlots hq]
      exact (State.Calm.refl _).foldl _ _ (fun t x ht => (ht.dcacheWrite _ _).dirWrite _ _)
  · rw [State.releaseSpan_noSlots hq]; exact .refl _
theorem State.homeWrite_calm {s : State} (hq : s.NoSlots) (src : Option (Nat × Nat)) (me : Option Nat) (l : Loc) (bs : List Byte) :
    (s.wrBytes l bs).Calm (s.homeWrite src me l bs) := State.writeHome_calm hq ..
theorem Stored.congr {s s' t t' : State} {o : Loc} {bs : List Byte} (h : Stored s t o bs) (hs : SameBytes s' s) (ht : SameBytes t t') : Stored s' t' o bs :=
  ⟨fun i hi => (ht _).trans (h.1 i hi), fun a ha => (ht a).trans ((h.2 a ha).trans (hs a))⟩
theorem State.writeHome_stored {s : State} (hq : s.NoSlots) (plain : Bool) (src : Option (Nat × Nat)) (me : Option Nat) {l : Loc} (hp : s.Place l)
    (bs : List Byte) : Stored s (s.writeHome plain src me l bs) l bs :=
  (State.wrBytes_stored s l bs hp).congr (.refl s) (State.writeHome_calm hq ..).sameBytes
theorem State.homeWrite_stored {s : State} (hq : s.NoSlots) (src : Option (Nat × Nat)) (me : Option Nat) {l : Loc} (hp : s.Place l)
    (bs : List Byte) : Stored s (s.homeWrite src me l bs) l bs := State.writeHome_stored hq _ _ _ hp _
theorem State.wrBytes_noSlots {s : State} (hq : s.NoSlots) (l : Loc) (bs : List Byte) : (s.wrBytes l bs).NoSlots := hq.of_pkgs (State.wrBytes_pkgs ..)
theorem State.homeWrite_noSlots {s : State} (hq : s.NoSlots) (src : Option (Nat × Nat)) (me : Option Nat) (l : Loc) (bs : List Byte) :
    (s.homeWrite src me l bs).NoSlots := (State.homeWrite_calm hq ..).quiet (State.wrBytes_noSlots hq l bs)
theorem State.ctxWrite_stored {s : State} (hq : s.NoSlots) (plain : Bool) (c : Ctx) {l : Loc} (hp : s.Place l) (bs : List Byte) :
    Stored s (State.ctxWrite plain s c l bs) l bs := by
  unfold State.ctxWrite
  rw [State.mergeSpan_noSlots hq]
  have h1 := (State.Calm.refl s).peerFill c.pkg c.site l bs.length
  refine (State.writeHome_stored (h1.quiet hq) _ _ _ ?_ _).congr h1.sameBytes (.refl _)
  unfold State.Place at hp ⊢
  rw [h1.units]
  exact hp

end Sys2Proof.Machine
end

section
/-! Bytes and the numbers that they hold, what a write of bytes makes storage read, and digests (R4, R363). -/

namespace Sys2Proof.Machine

/-! ### Bytes and numbers -/

@[simp] theorem length_bytesOfNat (n x : Nat) : (bytesOfNat n x).length = n := by
  induction n generalizing x with
  | zero => rfl
  | succ n ih => simp [bytesOfNat, ih]
theorem natOfBytes_lt (l : List Byte) : natOfBytes l < 256 ^ l.length := by
  induction l with
  | nil => simp [natOfBytes]
  | cons b r ih =>
    have := b.isLt
    simp only [natOfBytes, List.length_cons, Nat.pow_succ]
    omega
theorem natOfBytes_bytesOfNat (n x : Nat) : natOfBytes (bytesOfNat n x) = x % 256 ^ n := by
  induction n generalizing x with
  | zero => simp [bytesOfNat, natOfBytes, Nat.mod_one]
  | succ n ih =>
    simp only [bytesOfNat, natOfBytes, ih, BitVec.toNat_ofNat]
    rw [show 256 ^ (n + 1) = 256 * 256 ^ n from pow_succ' .., Nat.mod_mul]
theorem bytesOfNat_natOfBytes (l : List Byte) : bytesOfNat l.length (natOfBytes l) = l := by
  induction l with
  | nil => rfl
  | cons b r ih =>
    have hb : (b.toNat + 256 * natOfBytes r) / 256 = natOfBytes r := by have := b.isLt; omega
    simp only [natOfBytes, List.length_cons, bytesOfNat, hb, ih, List.cons.injEq, and_true]
    apply BitVec.eq_of_toNat_eq
    have := b.isLt
    simp only [BitVec.toNat_ofNat]
    omega

/-! ### Storage -/

@[simp] theorem Loc.add_zero (o : Loc) : o.add 0 = o := by cases o <;> rfl
theorem State.rdBytes_congr {s t : State} (h : SameBytes s t) (o : Loc) (n : Nat) : t.rdBytes o n = s.rdBytes o n := by
  unfold State.rdBytes
  exact List.map_congr_left (fun i _ => h _)
@[simp] theorem State.length_rdBytes (s : State) (o : Loc) (n : Nat) : (s.rdBytes o n).length = n := by simp [State.rdBytes]
/-- What has been written is read back. -/
theorem Stored.rdBytes {s t : State} {o : Loc} {bs : List Byte} (h : Stored s t o bs) : t.rdBytes o bs.length = bs := by
  refine List.ext_getElem (by simp) (fun i h1 h2 => ?_)
  simp only [State.rdBytes, List.getElem_map, List.getElem_range]
  rw [h.1 i h2, List.getD_eq_getElem?_getD, List.getElem?_eq_getElem h2, Option.getD_some]
theorem Stored.rdWord {s t : State} {o : Loc} {x : Nat} (h : Stored s t o (bytesOfNat 4 x)) : t.rdWord o = BitVec.ofNat 32 x := by
  have := h.rdBytes
  rw [length_bytesOfNat] at this
  unfold State.rdWord
  rw [this, natOfBytes_bytesOfNat]
  apply BitVec.eq_of_toNat_eq
  simp

/-! ### Digests -/

theorem length_shaInit : shaInit.length = 8 := by
  unfold shaInit
  rw [List.length_map]
  decide
theorem length_shaRound (v : List DWord) (kw : DWord) : (shaRound v kw).length = v.length := by
  unfold shaRound
  split <;> rfl
theorem length_shaBlock (k h : List DWord) (b : List Byte) : (shaBlock k h b).length = h.length := by
  have hf : ∀ (l : List (DWord × DWord)) (v : List DWord), (l.foldl (fun v x => shaRound v (x.1 + x.2)) v).length = v.length := fun l v =>
    foldl_keeps List.length _ (fun c x => length_shaRound c _) l v
  unfold shaBlock
  dsimp only
  rw [List.length_map, List.length_zip, hf, Nat.min_self]
theorem length_shaBlocks (k : List DWord) (n : Nat) (bs : List Byte) (h : List DWord) : (shaBlocks k n bs h).length = h.length := by
  induction n generalizing bs h with
  | zero => rfl
  | succ n ih => rw [shaBlocks, ih, length_shaBlock]
/-- A digest has 64 bytes. -/
theorem length_sha512 (m : List Byte) : (sha512 m).length = 64 := by
  have hl : ∀ l : List DWord, (l.flatMap (fun x => bytesBE 8 x.toNat)).length = 8 * l.length := fun l => by
    induction l with
    | nil => rfl
    | cons x r ih => rw [List.flatMap_cons, List.length_append, ih]; simp [bytesBE]; omega
  unfold sha512
  dsimp only
  rw [hl, length_shaBlocks, length_shaInit]

end Sys2Proof.Machine
end

section
/-! Commands to the translation, archive, attestation and firmware engines (R331 to R334, R340, R341, R363 to R367, R426, R427). -/

namespace Sys2Proof.Machine

/-! ### Requests -/

theorem regWrite_tlb (s : State) (p : Nat) (v : DWord) : s.regWrite p 0x0630 v = s.tlbCommand p v := by
  unfold State.regWrite
  rw [if_neg (show ¬ plainMask 0x0630 ≠ 0 by decide), if_neg (by omega), if_neg (by omega), if_neg (by omega), if_neg (by omega), if_neg (by omega)] <;> rfl
theorem regWrite_archConfig (s : State) (p : Nat) (v : DWord) : s.regWrite p 0x0638 v = s.modPkg p (fun q => q.archConfig v) := by
  unfold State.regWrite
  rw [if_neg (show ¬ plainMask 0x0638 ≠ 0 by decide), if_neg (by omega), if_neg (by omega), if_neg (by omega), if_neg (by omega), if_neg (by omega)] <;> rfl
theorem regWrite_arch (s : State) (p : Nat) (v : DWord) : s.regWrite p 0x0640 v = s.archCommand p v := by
  unfold State.regWrite
  rw [if_neg (show ¬ plainMask 0x0640 ≠ 0 by decide), if_neg (by omega), if_neg (by omega), if_neg (by omega), if_neg (by omega), if_neg (by omega)] <;> rfl
theorem regWrite_att (s : State) (p : Nat) (v : DWord) : s.regWrite p 0x0800 v = s.attCommand p v := by
  unfold State.regWrite
  rw [if_neg (show ¬ plainMask 0x0800 ≠ 0 by decide), if_neg (by omega), if_neg (by omega), if_neg (by omega), if_neg (by omega), if_neg (by omega)] <;> rfl
theorem regWrite_fw (s : State) (p : Nat) (v : DWord) : s.regWrite p 0x1100 v = s.fwCommand p v := by
  unfold State.regWrite
  rw [if_neg (show ¬ plainMask 0x1100 ≠ 0 by decide), if_neg (by omega), if_neg (by omega), if_neg (by omega), if_neg (by omega), if_neg (by omega)] <;> rfl
/-- What a request does beside its answer, which no register and nothing but `replies` holds. -/
theorem answer_field {α : Type} (s t : State) (p m off : Nat) (f : Package → α) (hf : ∀ (q : Package) r, f { q with replies := r } = f q) :
    f ((s.answer t p m off).pkg p) = f (t.pkg p) := by rw [State.answer_pkg, hf]
theorem took_field {α : Type} (s : State) (p m : Nat) (f : Package → α) (hf : ∀ (q : Package) r, f { q with reqAt := r } = f q) :
    f ((s.took p m).pkg p) = f (s.pkg p) := by rw [State.took_pkg, hf]

/-! ### TLBCMD -/

/-- A command of the translation engine runs: it names an operation, an ASID and a count, and waits for some accesses. -/
def Package.tlbRuns (q : Package) (v : DWord) (l : List (Nat × Nat × Nat)) (r : Package) : Prop :=
  r.tlbWait = l ∧ SameRegs q r [0x0630] ∧ r.reg 0x0630 = putBits ((q.reg 0x0630 &&& ~~~tlbMask) ||| (v &&& tlbMask)) 63 63 1
theorem tlbRuns_bits {q r : Package} {v : DWord} {l : List (Nat × Nat × Nat)} (h : q.tlbRuns v l r) :
    bits (r.reg 0x0630) 63 61 = 4 + bits v 62 61 ∧ bits (r.reg 0x0630) 47 0 = bits v 47 0 := by
  obtain ⟨-, -, h⟩ := h
  rw [h]
  have hm : ∀ k < 64, 61 ≤ k → k ≤ 62 → tlbMask.getLsbD k = true := by decide
  have hm' : ∀ k < 64, 0 ≤ k → k ≤ 47 → tlbMask.getLsbD k = true := by decide
  constructor
  · rw [bits_split _ (m := 63) (by omega) (by omega), bits_putBits_same _ _ (by omega) (by omega), bits_putBits_other _ _ (by omega) (by omega) (by omega),
      bits_mask_in _ _ _ hm]
    rfl
  · rw [bits_putBits_other _ _ (by omega) (by omega) (by omega), bits_mask_in _ _ _ hm']
/-- The accesses for which the engine waits. -/
def Package.waitsFor (l : List (Nat × Nat × Nat)) (q : Package) : Package := { q with tlbWait := l }
theorem Package.reg_waitsFor (l : List (Nat × Nat × Nat)) (q : Package) (o : Nat) : (q.waitsFor l).reg o = q.reg o := rfl
theorem Package.waitsFor_tlbs (l : List (Nat × Nat × Nat)) (q : Package) : (q.waitsFor l).tlbs = q.tlbs ∧ (q.waitsFor l).asidGen = q.asidGen := ⟨rfl, rfl⟩
theorem Package.setFld_tlbs (q : Package) (o hi lo x : Nat) : (q.setFld o hi lo x).tlbs = q.tlbs ∧ (q.setFld o hi lo x).asidGen = q.asidGen := ⟨rfl, rfl⟩
theorem Package.setReg_tlbs (q : Package) (o : Nat) (x : DWord) : (q.setReg o x).tlbs = q.tlbs ∧ (q.setReg o x).asidGen = q.asidGen := ⟨rfl, rfl⟩
/-- A command that starts: what it does to the package between the write of the register and its run. -/
def State.tlbStart (s : State) (p : Nat) (v : DWord) (f : Package → Package) (l : List (Nat × Nat × Nat)) : State :=
  ((((s.modPkg p (fun q => q.setReg 0x0630 ((q.reg 0x0630 &&& ~~~tlbMask) ||| (v &&& tlbMask)))).modPkg p f).setFld p 0x0630 63 63 1).modPkg p
    (Package.waitsFor l))
theorem tlbStart_effect (s : State) (p : Nat) (v : DWord) {f : Package → Package} (l : List (Nat × Nat × Nat))
    (hf : ∀ q, (f q).regs = q.regs ∧ (f q).boot = q.boot) :
    OnlyPkg s (s.tlbStart p v f l) p ∧ (s.pkg p).tlbRuns v l ((s.tlbStart p v f l).pkg p)
      ∧ (s.tlbStart p v f l).pkg p = ((f ((s.pkg p).setReg 0x0630 (((s.pkg p).reg 0x0630 &&& ~~~tlbMask) ||| (v &&& tlbMask)))).setFld 0x0630 63 63 1).waitsFor l := by
  have hp : (s.tlbStart p v f l).pkg p = ((f ((s.pkg p).setReg 0x0630 (((s.pkg p).reg 0x0630 &&& ~~~tlbMask) ||| (v &&& tlbMask)))).setFld 0x0630 63 63 1).waitsFor l := by
    unfold State.tlbStart State.setFld
    rw [State.pkg_modPkg_same, State.pkg_modPkg_same, State.pkg_modPkg_same, State.pkg_modPkg_same]
  refine ⟨((((OnlyPkg.modPkg s p _).trans (.modPkg _ p _)).trans (.modPkg _ p _)).trans (.modPkg _ p _)), ⟨by rw [hp]; rfl, fun o ho => ?_, ?_⟩, hp⟩
  · have hne : o ≠ 0x0630 := by simpa using ho
    rw [hp, Package.reg_waitsFor, Package.reg_setFld, if_neg hne, Package.reg_congr (hf _).1 (hf _).2, Package.reg_setReg, if_neg hne]
  · rw [hp, Package.reg_waitsFor, Package.reg_setFld, if_pos rfl, Package.reg_congr (hf _).1 (hf _).2, Package.reg_setReg, if_pos rfl]
theorem tlbCommand_gen {s : State} {p : Nat} {v : DWord} (hb : bits ((s.pkg p).reg 0x0630) 63 63 = 0) (hv : bits v 62 61 = 3) :
    s.tlbCommand p v = s.tlbStart p v (fun q => q.advanceGen (bits v 47 32)) (s.translated p (bits v 47 32)) := by
  have hb' : (s.pkg p).fld 0x0630 63 63 ≠ 1 := by unfold Package.fld; omega
  unfold State.tlbCommand
  dsimp only
  rw [if_neg hb', hv] <;> rfl
theorem tlbCommand_range {s : State} {p op : Nat} {v : DWord} (hb : bits ((s.pkg p).reg 0x0630) 63 63 = 0) (hv : bits v 62 61 = op) (h1 : op = 1 ∨ op = 2) :
    s.tlbCommand p v = s.tlbStart p v (fun q => q.invalidate (bits v 47 32) (bits ((s.pkg p).reg 0x0628) 56 12 * 4096) (bits v 31 0) (decide (op = 2)))
      (s.inFlightIn p (bits v 47 32) (bits ((s.pkg p).reg 0x0628) 56 12 * 4096) (bits v 31 0) (decide (op = 2))) := by
  have hb' : (s.pkg p).fld 0x0630 63 63 ≠ 1 := by unfold Package.fld; omega
  unfold State.tlbCommand
  dsimp only
  rw [if_neg hb', hv]
  rcases h1 with rfl | rfl <;> rfl
theorem tlbCommand_busy {s : State} {p : Nat} {v : DWord} (hb : bits ((s.pkg p).reg 0x0630) 63 63 = 1) : s.tlbCommand p v = s := by
  unfold State.tlbCommand
  dsimp only
  exact if_pos hb
theorem took_inFlight (s : State) (p m q asid va n : Nat) (w : Bool) : (s.took p m).inFlightIn q asid va n w = s.inFlightIn q asid va n w := by
  unfold State.inFlightIn State.inFlightWhen; rw [(s.took_only p m).1]
theorem took_translated (s : State) (p m q asid : Nat) : (s.took p m).translated q asid = s.translated q asid := by
  unfold State.translated State.inFlightWhen; rw [(s.took_only p m).1]
theorem advanceGen_asidGen (q : Package) (asid : Nat) : (q.advanceGen asid).asidGen = Sparse.set 0 q.asidGen asid ((q.gen asid + 1) % 16) := rfl
/-- The translations that a range takes in. -/
theorem invalidate_tlbs (q : Package) (asid x n : Nat) (w : Bool) : (q.invalidate asid (x * 4096) n w).tlbs = q.tlbs.filter (fun t =>
    !((decide (t.asid = asid) || decide (t.pte.toNat / 2 ^ 5 % 2 = 1)) && decide (t.va < if n = 0 then 2 ^ 57 else x * 4096 + 4096 * n)
      && decide ((if n = 0 then 0 else x * 4096) < t.va + 2 ^ t.bits))) := by
  unfold Package.invalidate tlbRange rangesMeet bits
  dsimp only
  refine List.filter_congr (fun t _ => ?_)
  by_cases hn : n = 0
  · simp [hn]
  · simp [hn, Bool.and_assoc]
/-- A write of TLBCMD. -/
theorem tlbcmd_write {s : State} {p m op : Nat} {v : DWord} {i : Instr} (h : MayWrite s p m 0x0630) (name : String)
    (hi : exec i s = masterWrite name p m 0x0630 v (decide (bits v 62 61 = op)) s) (ho : op = 1 ∨ op = 2 ∨ op = 3) (hv : bits v 62 61 = op) :
    (bits ((s.pkg p).reg 0x0630) 63 63 = 1 → exec i s = .next (s.ignored p m 0x0630))
    ∧ (bits ((s.pkg p).reg 0x0630) 63 63 = 0 → ∃ t, exec i s = .next t ∧ OnlyPkg s t p ∧ SameRegs (s.pkg p) (t.pkg p) [0x0630]
      ∧ bits ((t.pkg p).reg 0x0630) 63 61 = 4 + op ∧ bits ((t.pkg p).reg 0x0630) 47 0 = bits v 47 0
      ∧ (let asid := bits v 47 32
         let va := bits ((s.pkg p).reg 0x0628) 56 12 * 4096
         let n := bits v 31 0
         (op = 3 → (t.pkg p).gen asid = ((s.pkg p).gen asid + 1) % 16
            ∧ (t.pkg p).tlbWait = s.translated p asid)
         ∧ (op ≠ 3 → (t.pkg p).tlbWait = s.inFlightIn p asid va n (decide (op = 2)) ∧ (t.pkg p).tlbs = (s.pkg p).tlbs.filter (fun t =>
            !((decide (t.asid = asid) || decide (t.pte.toNat / 2 ^ 5 % 2 = 1)) && decide (t.va < if n = 0 then 2 ^ 57 else va + 4096 * n)
              && decide ((if n = 0 then 0 else va) < t.va + 2 ^ t.bits)))))) := by
  rw [hi, acts_answered h (by decide) name v (by simpa using hv), regWrite_tlb]
  have hr := s.took_reg p m
  refine ⟨fun hb => by rw [tlbCommand_busy (by rw [hr]; exact hb)]; rfl, fun hb => ⟨_, rfl, ?_⟩⟩
  have hb' : bits (((s.took p m).pkg p).reg 0x0630) 63 63 = 0 := by rw [hr]; exact hb
  have key : ∀ (f : Package → Package) (l : List (Nat × Nat × Nat)), (∀ q, (f q).regs = q.regs ∧ (f q).boot = q.boot) →
      (s.took p m).tlbCommand p v = (s.took p m).tlbStart p v f l →
      OnlyPkg s (s.answer ((s.took p m).tlbCommand p v) p m 0x0630) p
      ∧ SameRegs (s.pkg p) ((s.answer ((s.took p m).tlbCommand p v) p m 0x0630).pkg p) [0x0630]
      ∧ bits (((s.answer ((s.took p m).tlbCommand p v) p m 0x0630).pkg p).reg 0x0630) 63 61 = 4 + op
      ∧ bits (((s.answer ((s.took p m).tlbCommand p v) p m 0x0630).pkg p).reg 0x0630) 47 0 = bits v 47 0
      ∧ ((s.answer ((s.took p m).tlbCommand p v) p m 0x0630).pkg p).tlbWait = l := fun f l hf e => by
    obtain ⟨h1, h2, -⟩ := tlbStart_effect (s.took p m) p v (f := f) l hf
    rw [e]
    have h3 := tlbRuns_bits h2
    obtain ⟨h4, h5, -⟩ := h2
    refine ⟨(s.took_only p m).trans (h1.trans (State.answer_only ..)), fun o ho => ?_, ?_, ?_, ?_⟩
    · rw [State.answer_reg, h5 o ho, hr]
    · rw [State.answer_reg, h3.1, hv]
    · rw [State.answer_reg, h3.2]
    · rw [answer_field _ _ _ _ _ Package.tlbWait (fun _ _ => rfl), h4]
  by_cases h3 : op = 3
  · subst h3
    have e := tlbCommand_gen hb' hv
    rw [took_translated] at e
    have hf : ∀ q : Package, (q.advanceGen (bits v 47 32)).regs = q.regs ∧ (q.advanceGen (bits v 47 32)).boot = q.boot := fun q => ⟨rfl, rfl⟩
    obtain ⟨k1, k2, k3, k4, k5⟩ := key _ _ hf e
    refine ⟨k1, k2, k3, k4, fun _ => ⟨?_, k5⟩, fun h => absurd rfl h⟩
    rw [answer_field _ _ _ _ _ (fun q => q.gen (bits v 47 32)) (fun _ _ => rfl), e, (tlbStart_effect _ p v _ hf).2.2]
    unfold Package.gen
    rw [(Package.waitsFor_tlbs ..).2, (Package.setFld_tlbs ..).2, advanceGen_asidGen, (Package.setReg_tlbs ..).2, Sparse.get_set, if_pos rfl]
    unfold Package.gen
    rw [(Package.setReg_tlbs ..).2, State.took_pkg]
  · have e := tlbCommand_range hb' hv (by omega)
    rw [took_inFlight, hr] at e
    have hf : ∀ q : Package, (q.invalidate (bits v 47 32) (bits ((s.pkg p).reg 0x0628) 56 12 * 4096) (bits v 31 0) (decide (op = 2))).regs = q.regs
        ∧ (q.invalidate (bits v 47 32) (bits ((s.pkg p).reg 0x0628) 56 12 * 4096) (bits v 31 0) (decide (op = 2))).boot = q.boot := fun q => ⟨rfl, rfl⟩
    obtain ⟨k1, k2, k3, k4, k5⟩ := key _ _ hf e
    refine ⟨k1, k2, k3, k4, fun h => absurd h h3, fun _ => ⟨k5, ?_⟩⟩
    rw [answer_field _ _ _ _ _ Package.tlbs (fun _ _ => rfl), e, (tlbStart_effect _ p v _ hf).2.2, (Package.waitsFor_tlbs ..).1, (Package.setFld_tlbs ..).1,
      invalidate_tlbs, (Package.setReg_tlbs ..).1, State.took_pkg]
theorem tlbCommand_complete {s : State} {p : Nat} (hb : bits ((s.pkg p).reg 0x0630) 63 63 = 1) (hw : s.stillRunning (s.pkg p).tlbWait = []) :
    ∃ t, exec (.tlbCommandComplete p) s = .next t
      ∧ OnlyPkg s t p ∧ SameRegs (s.pkg p) (t.pkg p) [0x0630] ∧ bits ((t.pkg p).reg 0x0630) 63 63 = 0
      ∧ bits ((t.pkg p).reg 0x0630) 51 48 = (s.pkg p).gen (bits ((s.pkg p).reg 0x0630) 47 32) % 16 := by
  have hc : (s.pkg p).fld 0x0630 63 63 = 1 ∧ (s.stillRunning (s.pkg p).tlbWait).isEmpty = true := ⟨hb, by rw [hw]; rfl⟩
  have hx : exec (.tlbCommandComplete p) s = .next (s.modPkg p (fun q =>
      ((q.setFld 0x0630 63 63 0).setFld 0x0630 51 48 (q.gen (q.fld 0x0630 47 32))).waitsFor [])) := by
    rw [exec_tlbCommandComplete_eq, execTlbCommandComplete, if_pos hc]
    unfold Package.waitsFor
    rfl
  refine ⟨_, hx, .modPkg s p _, ?_, ?_, ?_⟩ <;> rw [State.pkg_modPkg_same]
  · exact fun o ho => (Package.reg_waitsFor ..).trans (setFld2_same _ _ _ _ _ _ _ _ o ho)
  · rw [Package.reg_waitsFor, setFld2_reg, bits_putBits_other _ _ (by omega) (by omega) (by omega), bits_putBits_same _ _ (by omega) (by omega),
      Nat.zero_mod]
  · rw [Package.reg_waitsFor, setFld2_reg, bits_putBits_same _ _ (by omega) (by omega)]
    rfl

/-! ### ARCHCFG and ARCHCMD -/

theorem archcfg_write {s : State} {p m : Nat} {v : DWord} (h : MayWrite s p m 0x0638) :
    ∃ t, exec (.archcfgWrite p m v) s = .next t ∧ OnlyPkg s t p ∧ SameRegs (s.pkg p) (t.pkg p) [0x0638]
      ∧ (t.pkg p).reg 0x0638 = if (s.pkg p).archive = [] ∧ bits v 20 0 * 2 ^ 21 + bits v 47 34 * 2 ^ 26 < 0xC000000000
          then v &&& 0x0000FFFC001FFFFF else (s.pkg p).reg 0x0638 := by
  have hw : ∀ l h : Nat, (∀ k < 64, l ≤ k → k ≤ h → (0x0000FFFC001FFFFF : DWord).getLsbD k = true) → bits (v &&& 0x0000FFFC001FFFFF) h l = bits v h l := fun l h hk => by
    have := bits_mask_in 0 v 0x0000FFFC001FFFFF hk
    simpa using this
  have hc : ∀ q : Package, q.archConfig v = if q.archive = [] ∧ bits v 20 0 * 2 ^ 21 + bits v 47 34 * 2 ^ 26 < 0xC000000000
      then q.setReg 0x0638 (v &&& 0x0000FFFC001FFFFF) else q := fun q => by
    unfold Package.archConfig
    dsimp only
    rw [hw 0 20 (by decide), hw 34 47 (by decide)]
    exact if_congr (by rw [List.isEmpty_iff]; rfl) rfl rfl
  have hs : ∀ q : Package, SameRegs q (q.archConfig v) [0x0638] := fun q => by
    rw [hc]
    split
    · exact SameRegs.setReg q (l := [0x0638]) (by simp) _
    · exact SameRegs.refl q _
  obtain ⟨⟨ho, hsr, _⟩, hr⟩ := answered_regs s p m 0x0638 (fun q => q.archConfig v) (g := fun q => q.archConfig v) [0x0638] (fun q => ⟨rfl, rfl⟩) hs
  refine ⟨_, by rw [exec_archcfgWrite_eq, execArchcfgWrite, acts_modPkg h (by decide) _ _ rfl (regWrite_archConfig _ p v)], ho, hsr, ?_⟩
  rw [hr, hc, took_field s p m Package.archive (fun _ _ => rfl)]
  split
  · rw [Package.reg_setReg, if_pos rfl]
  · exact s.took_reg p m _
/-- The result with which the running command ends. -/
def Package.archOwes (r : Nat) (q : Package) : Package := { q with archPend := r }
theorem Package.archOwes_fields (r : Nat) (q : Package) : (∀ o, (q.archOwes r).reg o = q.reg o) ∧ (q.archOwes r).archPend = r ∧ (q.archOwes r).archive = q.archive :=
  ⟨fun _ => rfl, rfl, rfl⟩
theorem Package.setFld_archive (q : Package) (o hi lo x : Nat) : (q.setFld o hi lo x).archive = q.archive := rfl
/-- A command of the archive engine has acted, and runs. -/
def State.archDone (s : State) (p : Nat) (r : State × Nat) : State := (r.1.setFld p 0x0648 63 63 1).modPkg p (Package.archOwes r.2)
theorem archDone_effect (s : State) (p : Nat) (r : State × Nat) : OnlyPkg r.1 (s.archDone p r) p ∧ SameBytes r.1 (s.archDone p r)
    ∧ ((s.archDone p r).pkg p).archPend = r.2 ∧ ((s.archDone p r).pkg p).archive = (r.1.pkg p).archive
    ∧ ((s.archDone p r).pkg p).reg 0x0648 = putBits ((r.1.pkg p).reg 0x0648) 63 63 1 := by
  have hp : (s.archDone p r).pkg p = ((r.1.pkg p).setFld 0x0648 63 63 1).archOwes r.2 := by
    unfold State.archDone State.setFld
    rw [State.pkg_modPkg_same, State.pkg_modPkg_same]
  obtain ⟨h1, h2, h3⟩ := Package.archOwes_fields r.2 ((r.1.pkg p).setFld 0x0648 63 63 1)
  refine ⟨(OnlyPkg.modPkg _ p _).trans (.modPkg _ p _), (SameBytes.modPkg _ p _).trans (.modPkg _ p _), ?_, ?_, ?_⟩ <;> rw [hp]
  · exact h2
  · rw [h3, Package.setFld_archive]
  · rw [h1, Package.reg_setFld, if_pos rfl]
theorem archCommand_busy {s : State} {p : Nat} {v : DWord} (hb : bits ((s.pkg p).reg 0x0648) 63 63 = 1) : s.archCommand p v = s := by
  unfold State.archCommand
  exact if_pos hb
/-- What an archive command does, by its operation. -/
theorem archCommand_acts {s : State} {p : Nat} {v : DWord} (hb : bits ((s.pkg p).reg 0x0648) 63 63 = 0) :
    (bits v 63 62 = 1 → s.archCommand p v = s.archDone p (s.compress p (bits v 27 0 * 4096)))
    ∧ (bits v 63 62 = 2 → s.archCommand p v = s.archDone p (s.expand p (bits v 61 28) (bits v 27 0 * 4096)))
    ∧ (bits v 63 62 = 3 → s.archCommand p v = s.archDone p (s.freeRecord p (bits v 61 28))) := by
  have hb' : (s.pkg p).fld 0x0648 63 63 ≠ 1 := by unfold Package.fld; omega
  unfold State.archCommand
  rw [if_neg hb']
  exact ⟨fun e => by rw [e] <;> rfl, fun e => by rw [e] <;> rfl, fun e => by rw [e] <;> rfl⟩
theorem State.mastRead_noSlots {s : State} (h : s.NoSlots) (p a n : Nat) : s.mastRead p a n = (s, s.rdBytes (.hbm (hbmKey p a)) n) := State.homeRead_noSlots h ..
theorem State.mastRead_homes (s : State) (p a n : Nat) : s.Homes (s.mastRead p a n).1 := (State.Homes.refl s).homeRead ..
theorem State.mastWrite_homes (s : State) (p a : Nat) (bs : List Byte) : s.Homes (s.mastWrite p a bs) := (State.Homes.refl s).homeWrite ..
theorem State.mastWrite_stored {s : State} (h : s.NoSlots) (p a : Nat) (bs : List Byte) : Stored s (s.mastWrite p a bs) (.hbm (hbmKey p a)) bs :=
  State.homeWrite_stored h _ _ (l := .hbm (hbmKey p a)) trivial _
theorem archRecord_le (page : List Byte) : (archRecord page).1 ≤ 64 := by
  unfold archRecord
  split
  · omega
  · split
    · omega
    · have := Nat.mod_lt (Config.archiveLength page) (show 0 < 64 by decide)
      dsimp only
      omega
/-- The record that a compression leaves in the package. -/
def Package.keepsRecord (h n : Nat) (page : List Byte) (q : Package) : Package :=
  { (q.setFld 0x0648 40 7 h).setFld 0x0648 6 0 n with archive := q.archive ++ [{ handle := h, len := n, page := page }] }
theorem Package.keepsRecord_fields (h n : Nat) (page : List Byte) (q : Package) :
    (∀ o, (q.keepsRecord h n page).reg o = ((q.setFld 0x0648 40 7 h).setFld 0x0648 6 0 n).reg o)
    ∧ (q.keepsRecord h n page).archive = q.archive ++ [{ handle := h, len := n, page := page }] := ⟨fun _ => rfl, rfl⟩
theorem compress_bad {s : State} {p a : Nat} (hf : (s.pkg p).frameOk a = false) : s.compress p a = (s, 2) := by
  unfold State.compress
  dsimp only
  rw [if_pos (by simp [hf])]
theorem compress_frame {s : State} {p a : Nat} (hf : (s.pkg p).frameOk a = true) (hq : s.NoSlots) {page : List Byte}
    (hp : s.rdBytes (.hbm (hbmKey p a)) 4096 = page) :
    s.compress p a = ({ s with free := s.free + 1 }, 1)
    ∨ ∃ h, (s.pkg p).archFits h (max 1 (archRecord page).1) = true
        ∧ s.compress p a = ((State.mastWrite { s with free := s.free + 1 } p ((s.pkg p).zoneBase + 64 * h) (archRecord page).2).modPkg p
            (Package.keepsRecord h (archRecord page).1 page), 0) := by
  unfold State.compress
  dsimp only
  rw [if_neg (by simp [hf]), State.mastRead_noSlots hq, hp]
  dsimp only
  split
  · exact .inl rfl
  · next h e => exact .inr ⟨h, List.find?_some (p := fun h => (s.pkg p).archFits h (max 1 (archRecord page).1)) e, rfl⟩
theorem compress_keeps (s : State) (p a : Nat) : (s.compress p a).1.ctxs = s.ctxs ∧ (s.compress p a).1.grids = s.grids := by
  have hr := s.mastRead_homes p a 4096
  unfold State.compress
  dsimp only
  generalize s.mastRead p a 4096 = r at hr ⊢
  split
  · exact ⟨rfl, rfl⟩
  · split
    · exact ⟨hr.ctxs, hr.grids⟩
    · next h _ =>
      have hw := State.mastWrite_homes { r.1 with free := r.1.free + 1 } p ((s.pkg p).zoneBase + 64 * h) (archRecord r.2).2
      exact ⟨hw.ctxs.trans hr.ctxs, hw.grids.trans hr.grids⟩
theorem expand_keeps (s : State) (p h a : Nat) : (s.expand p h a).1.ctxs = s.ctxs ∧ (s.expand p h a).1.grids = s.grids := by
  unfold State.expand
  split
  · split
    · exact ⟨(s.mastWrite_homes ..).ctxs, (s.mastWrite_homes ..).grids⟩
    · exact ⟨rfl, rfl⟩
  · exact ⟨rfl, rfl⟩
theorem freeRecord_eq (s : State) (p h : Nat) : SameBytes s (s.freeRecord p h).1 ∧ (s.freeRecord p h).1.ctxs = s.ctxs ∧ (s.freeRecord p h).1.grids = s.grids
    ∧ ((s.freeRecord p h).1.pkg p).archive = (s.pkg p).archive.filter (fun r => decide (r.handle ≠ h))
    ∧ (s.freeRecord p h).2 = if (s.pkg p).archive.any (fun r => decide (r.handle = h)) then 0 else 2 := by
  unfold State.freeRecord
  split
  · next hany => exact ⟨.modPkg s p _, rfl, rfl, by rw [State.pkg_modPkg_same], rfl⟩
  · next hany =>
    refine ⟨.refl s, rfl, rfl, (List.filter_eq_self.mpr (fun r hr => ?_)).symm, rfl⟩
    simp only [List.any_eq_true, not_exists, not_and, decide_eq_true_eq] at hany
    simpa using hany r hr
theorem archcmd_write {s : State} {p m op : Nat} {v : DWord} {i : Instr} (h : MayWrite s p m 0x0640) (name : String)
    (hi : exec i s = masterWrite name p m 0x0640 v (decide (bits v 63 62 = op)) s) (hv : bits v 63 62 = op) (h3 : op = 1 ∨ op = 2 ∨ op = 3) :
    let q := s.pkg p
    let a := bits v 27 0 * 4096
    let h := bits v 61 28
    (bits (q.reg 0x0648) 63 63 = 1 → exec i s = .next (s.ignored p m 0x0640))
    ∧ (bits (q.reg 0x0648) 63 63 = 0 → ∃ t, exec i s = .next t ∧ bits ((t.pkg p).reg 0x0648) 63 63 = 1 ∧ t.ctxs = s.ctxs ∧ t.grids = s.grids
      ∧ (op = 1 → q.frameOk a = false → (t.pkg p).archPend = 2 ∧ SameBytes s t ∧ (t.pkg p).archive = q.archive)
      ∧ (op = 1 → q.frameOk a = true → s.NoSlots →
          ((t.pkg p).archPend = 1 ∧ SameBytes s t ∧ (t.pkg p).archive = q.archive)
          ∨ ((t.pkg p).archPend = 0 ∧ ∃ r, (t.pkg p).archive = q.archive ++ [r] ∧ r.page = s.rdBytes (.hbm (hbmKey p a)) 4096
              ∧ q.archFits r.handle (max 1 r.len) = true ∧ bits ((t.pkg p).reg 0x0648) 40 7 = r.handle % 2 ^ 34
              ∧ bits ((t.pkg p).reg 0x0648) 6 0 = r.len ∧ r.len ≤ 64))
      ∧ (op = 2 → s.NoSlots → ∀ r, q.archive.find? (fun r => decide (r.handle = h)) = some r → q.frameOk a = true →
          (t.pkg p).archPend = 0 ∧ (r.page.length = 4096 → Stored s t (.hbm (hbmKey p a)) r.page))
      ∧ (op = 2 → (∀ r ∈ q.archive, r.handle ≠ h) ∨ q.frameOk a = false → (t.pkg p).archPend = 2 ∧ SameBytes s t)
      ∧ (op = 3 → SameBytes s t ∧ (t.pkg p).archive = q.archive.filter (fun r => decide (r.handle ≠ h))
          ∧ (t.pkg p).archPend = if q.archive.any (fun r => decide (r.handle = h)) then 0 else 2)) := by
  intro q a h'
  rw [hi, acts_answered h (by decide) name v (by simpa using hv), regWrite_arch]
  have hr := s.took_reg p m
  refine ⟨fun hb => by rw [archCommand_busy (by rw [hr]; exact hb)]; rfl, fun hb => ⟨_, rfl, ?_⟩⟩
  have hb' : bits (((s.took p m).pkg p).reg 0x0648) 63 63 = 0 := by rw [hr]; exact hb
  obtain ⟨hacts1, hacts2, hacts3⟩ := archCommand_acts (v := v) hb'
  have hk := s.took_only p m
  have htb : SameBytes s (s.took p m) := by unfold State.took; split; exacts [.refl s, .modPkg s p _]
  have hfr : ((s.took p m).pkg p).frameOk a = q.frameOk a := took_field s p m (fun q => q.frameOk a) (fun _ _ => rfl)
  have har : ((s.took p m).pkg p).archive = q.archive := took_field s p m Package.archive (fun _ _ => rfl)
  have hq' : s.NoSlots → (s.took p m).NoSlots := fun hq => by
    unfold State.took; split; exacts [hq, hq.modPkg p _ (hq.quiet p)]
  -- what every command leaves, from what its operation leaves
  have key : ∀ r : State × Nat, (s.took p m).archCommand p v = (s.took p m).archDone p r → r.1.ctxs = (s.took p m).ctxs ∧ r.1.grids = (s.took p m).grids →
      let t := s.answer ((s.took p m).archCommand p v) p m 0x0640
      bits ((t.pkg p).reg 0x0648) 63 63 = 1 ∧ t.ctxs = s.ctxs ∧ t.grids = s.grids ∧ (t.pkg p).archPend = r.2 ∧ (t.pkg p).archive = (r.1.pkg p).archive
        ∧ SameBytes r.1 t ∧ (t.pkg p).reg 0x0648 = putBits ((r.1.pkg p).reg 0x0648) 63 63 1 := fun r e hrk => by
    obtain ⟨h1, h2, h3, h4, h5⟩ := archDone_effect (s.took p m) p r
    rw [e]
    dsimp only
    have hreg : ((s.answer ((s.took p m).archDone p r) p m 0x0640).pkg p).reg 0x0648 = putBits ((r.1.pkg p).reg 0x0648) 63 63 1 := by rw [State.answer_reg, h5]
    refine ⟨by rw [hreg, bits_putBits_same _ _ (by omega) (by omega)]; rfl, ?_, ?_, ?_, ?_, h2.trans (.modPkg _ p _), hreg⟩
    · exact (State.answer_only s _ p m 0x0640).1.trans (h1.1.trans (hrk.1.trans hk.1))
    · exact (State.answer_only s _ p m 0x0640).2.2.1.trans (h1.2.2.1.trans (hrk.2.trans hk.2.2.1))
    · rw [answer_field _ _ _ _ _ Package.archPend (fun _ _ => rfl), h3]
    · rw [answer_field _ _ _ _ _ Package.archive (fun _ _ => rfl), h4]
  rcases h3 with rfl | rfl | rfl
  · have e := hacts1 hv
    obtain ⟨k1, k2, k3, k4, k5, k6, k7⟩ := key _ e (compress_keeps ..)
    refine ⟨k1, k2, k3, fun _ hf => ?_, fun _ hf hq => ?_, fun h => absurd h (by decide), fun h => absurd h (by decide), fun h => absurd h (by decide)⟩
    · rw [compress_bad (hfr.trans hf)] at k4 k5 k6
      exact ⟨k4, htb.trans k6, k5.trans har⟩
    · generalize hpg : s.rdBytes (.hbm (hbmKey p a)) 4096 = page
      have hpg' := (State.rdBytes_congr htb (.hbm (hbmKey p a)) 4096).trans hpg
      have hle := archRecord_le page
      rcases compress_frame (hfr.trans hf) (hq' hq) hpg' with hc | ⟨hd, hfit, hc⟩ <;> rw [hc] at k4 k5 k6 k7
      · exact .inl ⟨k4, htb.trans (fun x => (k6 x).trans (by cases x <;> rfl)), k5.trans har⟩
      · have hreg := (Package.keepsRecord_fields hd (archRecord page).1 page
          ((State.mastWrite { s.took p m with free := (s.took p m).free + 1 } p (((s.took p m).pkg p).zoneBase + 64 * hd) (archRecord page).2).pkg p)).1 0x0648
        refine .inr ⟨k4, ⟨hd, (archRecord page).1, page⟩, ?_, rfl, ?_, ?_, ?_, hle⟩
        · rw [k5, State.pkg_modPkg_same, (Package.keepsRecord_fields ..).2, (State.mastWrite_homes ..).pkgField Package.archive (fun _ => rfl)]
          exact congrArg (· ++ _) har
        · rw [took_field s p m (fun q => q.archFits hd (max 1 (archRecord page).1)) (fun _ _ => rfl)] at hfit
          exact hfit
        · rw [k7, State.pkg_modPkg_same, hreg, setFld2_reg, bits_putBits_other _ _ (by omega) (by omega) (by omega),
            bits_putBits_other _ _ (by omega) (by omega) (by omega), bits_putBits_same _ _ (by omega) (by omega)]
        · rw [k7, State.pkg_modPkg_same, hreg, setFld2_reg, bits_putBits_other _ _ (by omega) (by omega) (by omega),
            bits_putBits_same _ _ (by omega) (by omega)]
          exact Nat.mod_eq_of_lt (by omega)
  · have e := hacts2 hv
    obtain ⟨k1, k2, k3, k4, k5, k6, k7⟩ := key _ e (expand_keeps ..)
    refine ⟨k1, k2, k3, fun h => absurd h (by decide), fun h => absurd h (by decide), fun _ hq r hfind hf => ?_, fun _ hor => ?_, fun h => absurd h (by decide)⟩
    · have hx : (s.took p m).expand p h' a = ((s.took p m).mastWrite p a r.page, 0) := by
        unfold State.expand
        rw [har, hfind]
        dsimp only
        rw [if_pos (hfr.trans hf)]
      rw [hx] at k4 k6
      exact ⟨k4, fun _ => (State.mastWrite_stored (hq' hq) p a r.page).congr htb k6⟩
    · have hx : (s.took p m).expand p h' a = (s.took p m, 2) := by
        unfold State.expand
        rw [har]
        split
        · next r hfind =>
          have hmem := List.mem_of_find?_eq_some hfind
          have hh := List.find?_some hfind
          rw [if_neg]
          rw [hfr]
          rcases hor with hor | hor
          · exact absurd (of_decide_eq_true hh) (hor r hmem)
          · simp [hor]
        · rfl
      rw [hx] at k4 k6
      exact ⟨k4, htb.trans k6⟩
  · have e := hacts3 hv
    obtain ⟨f1, f2, f3, f4, f5⟩ := freeRecord_eq (s.took p m) p h'
    obtain ⟨k1, k2, k3, k4, k5, k6, k7⟩ := key _ e ⟨f2, f3⟩
    refine ⟨k1, k2, k3, fun h => absurd h (by decide), fun h => absurd h (by decide), fun h => absurd h (by decide), fun h => absurd h (by decide), fun _ => ?_⟩
    rw [har] at f4 f5
    exact ⟨(htb.trans f1).trans k6, k5.trans f4, k4.trans f5⟩
theorem archCommand_complete {s : State} {p : Nat} (hb : bits ((s.pkg p).reg 0x0648) 63 63 = 1) : ∃ t, exec (.archCommandComplete p) s = .next t ∧ OnlyPkg s t p
      ∧ SameRegs (s.pkg p) (t.pkg p) [0x0648] ∧ bits ((t.pkg p).reg 0x0648) 63 61 = (s.pkg p).archPend % 4 := by
  have hc : (s.pkg p).fld 0x0648 63 63 = 1 := hb
  have hx : exec (.archCommandComplete p) s = .next (s.modPkg p (fun q => ((q.setFld 0x0648 63 63 0).setFld 0x0648 62 61 q.archPend).archOwes 0)) := by
    rw [exec_archCommandComplete_eq, execArchCommandComplete, if_pos hc]
    unfold Package.archOwes
    rfl
  refine ⟨_, hx, .modPkg s p _, ?_, ?_⟩ <;> rw [State.pkg_modPkg_same]
  · exact fun o ho => ((Package.archOwes_fields ..).1 o).trans (setFld2_same _ _ _ _ _ _ _ _ o ho)
  · rw [(Package.archOwes_fields ..).1, setFld2_reg, bits_split _ (m := 63) (by omega) (by omega), bits_putBits_other _ _ (by omega) (by omega) (by omega),
      bits_putBits_same _ _ (by omega) (by omega), bits_putBits_same _ _ (by omega) (by omega)]
    omega
theorem engineCommands : Claims.EngineCommands := by
  unfold Claims.EngineCommands
  refine ⟨fun s p m v i op h hi hv => ?tlb, fun s p hb hw => tlbCommand_complete hb hw, fun s p m v h => archcfg_write h, fun s p m v i op h hi hv => ?arch,
    fun s p hb => archCommand_complete hb⟩
  case tlb =>
    simp only [List.mem_cons, Prod.mk.injEq, List.not_mem_nil, or_false] at hi
    rcases hi with ⟨rfl, rfl⟩ | ⟨rfl, rfl⟩ | ⟨rfl, rfl⟩
    · exact tlbcmd_write h _ (by rw [exec_tlbcmdTlbi_eq, execTlbcmdTlbi]) (by simp) hv
    · exact tlbcmd_write h _ (by rw [exec_tlbcmdTlbiW_eq, execTlbcmdTlbiW]) (by simp) hv
    · exact tlbcmd_write h _ (by rw [exec_tlbcmdAsidgen_eq, execTlbcmdAsidgen]) (by simp) hv
  case arch =>
    simp only [List.mem_cons, Prod.mk.injEq, List.not_mem_nil, or_false] at hi
    rcases hi with ⟨rfl, rfl⟩ | ⟨rfl, rfl⟩ | ⟨rfl, rfl⟩
    · exact archcmd_write h _ (by rw [exec_archcmdCompress_eq, execArchcmdCompress]) hv (by simp)
    · exact archcmd_write h _ (by rw [exec_archcmdExpand_eq, execArchcmdExpand]) hv (by simp)
    · exact archcmd_write h _ (by rw [exec_archcmdFree_eq, execArchcmdFree]) hv (by simp)

/-! ### ATTCMD -/

/-- The result with which the running attestation command ends. -/
def Package.attOwes (r : Nat) (q : Package) : Package := { q with attPend := r }
theorem Package.attOwes_fields (r : Nat) (q : Package) : (∀ o, (q.attOwes r).reg o = q.reg o) ∧ (q.attOwes r).attPend = r := ⟨fun _ => rfl, rfl⟩
/-- Open slots are released without a change of registers. -/
theorem releaseSpan_regs (s : State) (l : Loc) (n p : Nat) : ((s.releaseSpan l n).pkg p).regs = (s.pkg p).regs := by
  unfold State.releaseSpan
  dsimp only
  split
  · rfl
  · refine foldl_keeps (fun t : State => (t.pkg p).regs) _ (fun t x => ?_) _ _
    split
    · next y _ =>
      have hw : ((t.wrWord y.loc y.round).pkg p).regs = (t.pkg p).regs := by
        have h1 := State.wrBytes_pkgs t y.loc (bytesOfNat 4 y.round.toNat)
        have h2 := ((State.Homes.refl t).wrBytes y.loc (bytesOfNat 4 y.round.toNat)).rest
        unfold State.wrWord State.pkg
        rw [h1, h2]
      unfold State.releaseSlot
      rw [State.pkg_modPkg]
      split
      · next e => subst e; exact hw
      · exact hw
    · rfl
theorem homeWrite_regs (s : State) (src : Option (Nat × Nat)) (me : Option Nat) (l : Loc) (bs : List Byte) (p : Nat) :
    ((s.homeWrite src me l bs).pkg p).regs = (s.pkg p).regs := by
  have hw : ∀ t : State, ((t.wrBytes l bs).pkg p).regs = (t.pkg p).regs := fun t => by
    have h1 := State.wrBytes_pkgs t l bs
    have h2 := ((State.Homes.refl t).wrBytes l bs).rest
    unfold State.pkg
    rw [h1, h2]
  unfold State.homeWrite State.writeHome
  split
  · split
    · rfl
    · extract_lets keys s1
      have h1 : s.Calm s1 := (State.Calm.refl s).thaw _
      refine ((State.Calm.foldl (.refl _) _ _ (fun t x ht => (ht.dcacheWrite _ _).dirWrite _ _)).field p Package.regs (fun _ _ _ _ _ _ _ => rfl)).trans ?_
      exact (hw _).trans ((releaseSpan_regs ..).trans (h1.field p Package.regs (fun _ _ _ _ _ _ _ => rfl)))
  · exact (hw _).trans (releaseSpan_regs ..)
theorem mastWrite_reg (s : State) (p a : Nat) (bs : List Byte) (q o : Nat) : ((s.mastWrite p a bs).pkg q).reg o = (s.pkg q).reg o :=
  Package.reg_congr (homeWrite_regs ..) ((s.mastWrite_homes p a bs).pkgField Package.boot (fun _ => rfl) q) o
theorem mastRead_reg (s : State) (p a n q o : Nat) : ((s.mastRead p a n).1.pkg q).reg o = (s.pkg q).reg o :=
  Package.reg_congr (releaseSpan_regs ..) ((s.mastRead_homes p a n).pkgField Package.boot (fun _ => rfl) q) o
theorem State.pkg_withFree (t : State) (n p : Nat) : State.pkg { t with free := n } p = t.pkg p := rfl
/-- A quote is counted. -/
def Package.countQuote (q : Package) : Package := q.setFld 0x0808 31 0 (q.fld 0x0808 31 0 + 1)
theorem Package.countQuote_reg (q : Package) : q.countQuote.reg 0x0808 = putBits (q.reg 0x0808) 31 0 (bits (q.reg 0x0808) 31 0 + 1) :=
  (Package.reg_setFld ..).trans (if_pos rfl)
theorem writeQuote_eq (s : State) (p a : Nat) : ∃ bs n,
    s.writeQuote p a = { State.mastWrite ((s.mastRead p a 64).1.modPkg p Package.countQuote) p (a + 64) bs with free := n } := by
  unfold State.writeQuote Package.countQuote
  exact ⟨_, _, rfl⟩
/-- What a quote does beside its bytes: it is counted. -/
theorem writeQuote_effect (s : State) (p a : Nat) : (s.writeQuote p a).ctxs = s.ctxs ∧ (s.writeQuote p a).grids = s.grids
    ∧ ((s.writeQuote p a).pkg p).reg 0x0808 = putBits ((s.pkg p).reg 0x0808) 31 0 (bits ((s.pkg p).reg 0x0808) 31 0 + 1) := by
  obtain ⟨bs, n, e⟩ := writeQuote_eq s p a
  have h1 := s.mastRead_homes p a 64
  have h2 := State.mastWrite_homes ((s.mastRead p a 64).1.modPkg p Package.countQuote) p (a + 64) bs
  rw [e]
  refine ⟨h2.ctxs.trans h1.ctxs, h2.grids.trans h1.grids, ?_⟩
  rw [State.pkg_withFree, mastWrite_reg, State.pkg_modPkg_same, Package.countQuote_reg, mastRead_reg]
theorem writeCert_effect (s : State) (p a : Nat) : (s.writeCert p a).ctxs = s.ctxs ∧ (s.writeCert p a).grids = s.grids
    ∧ ((s.writeCert p a).pkg p).reg 0x0808 = (s.pkg p).reg 0x0808 := by
  unfold State.writeCert
  extract_lets c
  have h1 := s.mastWrite_homes p a (bytesOfNat 4 c.length)
  have h2 := (s.mastWrite p a (bytesOfNat 4 c.length)).mastWrite_homes p (a + 64) c
  exact ⟨h2.ctxs.trans h1.ctxs, h2.grids.trans h1.grids, (mastWrite_reg ..).trans (mastWrite_reg ..)⟩
theorem hbmKey_add {a : Nat} (p n : Nat) (h : a % 2 ^ 40 + n < 2 ^ 40) : hbmKey p (a + n) = hbmKey p a + n := by unfold hbmKey; omega
/-- The certificate is read back, after its length. -/
theorem writeCert_bytes {s : State} (hq : s.NoSlots) {p a : Nat} (ha : a < 0xC000000000) (hal : a % 4096 = 0) {c : List Byte}
    (hc : (Config.identityCertificate ((s.pkg p).reg 0x0000) (identityModulus p)).take 3968 = c) :
    (s.writeCert p a).rdBytes (.hbm (hbmKey p a + 64)) c.length = c ∧ (s.writeCert p a).rdWord (.hbm (hbmKey p a)) = BitVec.ofNat 32 c.length := by
  have hl : c.length ≤ 3968 := by rw [← hc]; exact List.length_take_le ..
  unfold State.writeCert
  rw [hc]
  dsimp only
  have h1 := State.mastWrite_stored hq p a (bytesOfNat 4 c.length)
  have hq1 : (s.mastWrite p a (bytesOfNat 4 c.length)).NoSlots := State.homeWrite_noSlots hq _ _ (.hbm (hbmKey p a)) _
  have h2 := State.mastWrite_stored hq1 p (a + 64) c
  rw [hbmKey_add p 64 (by omega)] at h2
  refine ⟨h2.rdBytes, ?_⟩
  rw [← h1.rdWord]
  have hsame : ((s.mastWrite p a (bytesOfNat 4 c.length)).mastWrite p (a + 64) c).rdBytes (.hbm (hbmKey p a)) 4
      = (s.mastWrite p a (bytesOfNat 4 c.length)).rdBytes (.hbm (hbmKey p a)) 4 :=
    List.map_congr_left (fun i hi => h2.2 _ (fun j hj e => by
      have hi := List.mem_range.mp hi
      simp only [Loc.add, Loc.hbm.injEq] at e
      omega))
  unfold State.rdWord
  rw [hsame]
theorem attCommand_busy {s : State} {p : Nat} {v : DWord} (hb : bits ((s.pkg p).reg 0x0808) 63 63 = 1) : s.attCommand p v = s := by
  unfold State.attCommand
  exact if_pos hb
/-- What an attestation command does. -/
theorem attCommand_acts {s : State} {p op : Nat} {v : DWord} (hb : bits ((s.pkg p).reg 0x0808) 63 63 = 0) (hop : bits v 63 61 = op) (h12 : op = 1 ∨ op = 2) :
    s.attCommand p v = if 0xC000000000 ≤ bits v 51 12 * 4096 then (s.setFld p 0x0808 63 63 1).modPkg p (Package.attOwes 1)
      else ((if op = 1 then s.writeQuote p (bits v 51 12 * 4096) else s.writeCert p (bits v 51 12 * 4096)).setFld p 0x0808 63 63 1).modPkg p (Package.attOwes 0) := by
  have hb' : (s.pkg p).fld 0x0808 63 63 ≠ 1 := by unfold Package.fld; omega
  unfold State.attCommand
  rw [if_neg hb', hop]
  dsimp only
  unfold Package.attOwes
  generalize bits v 51 12 * 4096 = a
  by_cases ha : 0xC000000000 ≤ a
  · have hbad : (decide (hbmEnd ≤ a) || !(decide (op = 1) || decide (op = 2))) = true := by simp [hbmEnd, ha]
    simp only [hbad, if_pos ha, if_true]
  · have hbad : (decide (hbmEnd ≤ a) || !(decide (op = 1) || decide (op = 2))) = false := by
      have : ¬ hbmEnd ≤ a := ha
      rcases h12 with rfl | rfl <;> simp [this]
    simp only [hbad, if_neg ha, Bool.false_eq_true, if_false]
theorem attcmd_write {s : State} {p m op : Nat} {v : DWord} {i : Instr} (h : MayWrite s p m 0x0800) (name : String)
    (hi : exec i s = masterWrite name p m 0x0800 v (decide (bits v 63 61 = op)) s) (hv : bits v 63 61 = op) (h12 : op = 1 ∨ op = 2) :
    let q := s.pkg p
    let a := bits v 51 12 * 4096
    (bits (q.reg 0x0808) 63 63 = 1 → exec i s = .next (s.ignored p m 0x0800))
    ∧ (bits (q.reg 0x0808) 63 63 = 0 → ∃ t, exec i s = .next t ∧ bits ((t.pkg p).reg 0x0808) 63 63 = 1 ∧ t.ctxs = s.ctxs ∧ t.grids = s.grids
      ∧ (0xC000000000 ≤ a → (t.pkg p).attPend = 1 ∧ SameBytes s t ∧ bits ((t.pkg p).reg 0x0808) 31 0 = bits (q.reg 0x0808) 31 0)
      ∧ (a < 0xC000000000 → (t.pkg p).attPend = 0
          ∧ bits ((t.pkg p).reg 0x0808) 31 0 = (bits (q.reg 0x0808) 31 0 + if op = 1 then 1 else 0) % 2 ^ 32)
      ∧ (a < 0xC000000000 → s.NoSlots → op = 2 → ∃ n, (Config.identityCertificate (q.reg 0x0000) (identityModulus p)).take 3968 = (List.range n).map (fun j => t.rdByte (.hbm (hbmKey p a + 64 + j)))
          ∧ t.rdWord (.hbm (hbmKey p a)) = BitVec.ofNat 32 n)) := by
  intro q a
  rw [hi, acts_answered h (by decide) name v (by simpa using hv), regWrite_att]
  have hr := s.took_reg p m
  refine ⟨fun hb => by rw [attCommand_busy (by rw [hr]; exact hb)]; rfl, fun hb => ⟨_, rfl, ?_⟩⟩
  have hb' : bits (((s.took p m).pkg p).reg 0x0808) 63 63 = 0 := by rw [hr]; exact hb
  have hk := s.took_only p m
  have htb : SameBytes s (s.took p m) := by unfold State.took; split; exacts [.refl s, .modPkg s p _]
  have hq' : s.NoSlots → (s.took p m).NoSlots := fun hq => by
    unfold State.took; split; exacts [hq, hq.modPkg p _ (hq.quiet p)]
  -- what every command leaves, from what its operation leaves
  have key : ∀ (u : State) (r : Nat), u.ctxs = (s.took p m).ctxs → u.grids = (s.took p m).grids →
      (s.took p m).attCommand p v = (u.setFld p 0x0808 63 63 1).modPkg p (Package.attOwes r) →
      let t := s.answer ((s.took p m).attCommand p v) p m 0x0800
      bits ((t.pkg p).reg 0x0808) 63 63 = 1 ∧ t.ctxs = s.ctxs ∧ t.grids = s.grids ∧ (t.pkg p).attPend = r ∧ SameBytes u t
        ∧ bits ((t.pkg p).reg 0x0808) 31 0 = bits ((u.pkg p).reg 0x0808) 31 0 := fun u r hc hg e => by
    have hreg : ((s.answer ((s.took p m).attCommand p v) p m 0x0800).pkg p).reg 0x0808 = putBits ((u.pkg p).reg 0x0808) 63 63 1 := by
      unfold State.setFld at e
      rw [State.answer_reg, e, State.pkg_modPkg_same, State.pkg_modPkg_same, (Package.attOwes_fields ..).1, Package.reg_setFld, if_pos rfl]
    refine ⟨by rw [hreg, bits_putBits_same _ _ (by omega) (by omega)]; rfl, ?_, ?_, ?_, ?_, by rw [hreg, bits_putBits_other _ _ (by omega) (by omega) (by omega)]⟩
    · rw [e]; exact hc.trans hk.1
    · rw [e]; exact hg.trans hk.2.2.1
    · rw [answer_field _ _ _ _ _ Package.attPend (fun _ _ => rfl), e, State.pkg_modPkg_same, (Package.attOwes_fields ..).2]
    · rw [e]; exact ((SameBytes.modPkg u p _).trans (.modPkg _ p _)).trans (.modPkg _ p _)
  have hacts := attCommand_acts hb' hv h12
  by_cases ha : 0xC000000000 ≤ a
  · rw [if_pos ha] at hacts
    obtain ⟨k1, k2, k3, k4, k5, k6⟩ := key (s.took p m) 1 rfl rfl hacts
    exact ⟨k1, k2, k3, fun _ => ⟨k4, htb.trans k5, by rw [k6, hr]⟩, fun h => absurd ha (by omega), fun h => absurd ha (by omega)⟩
  · rw [if_neg ha] at hacts
    rcases h12 with rfl | rfl
    · rw [if_pos rfl] at hacts
      obtain ⟨h1, h2, h3⟩ := writeQuote_effect (s.took p m) p a
      obtain ⟨k1, k2, k3, k4, k5, k6⟩ := key _ 0 h1 h2 hacts
      refine ⟨k1, k2, k3, fun h => absurd h ha, fun _ => ⟨k4, ?_⟩, fun _ _ h => absurd h (by decide)⟩
      rw [k6, h3, bits_putBits_same _ _ (by omega) (by omega), hr, if_pos rfl]
    · rw [if_neg (by decide)] at hacts
      obtain ⟨h1, h2, h3⟩ := writeCert_effect (s.took p m) p a
      obtain ⟨k1, k2, k3, k4, k5, k6⟩ := key _ 0 h1 h2 hacts
      refine ⟨k1, k2, k3, fun h => absurd h ha, fun _ => ⟨k4, ?_⟩, fun _ hq _ => ?_⟩
      · rw [k6, h3, hr, if_neg (by decide), Nat.add_zero]
        exact (Nat.mod_eq_of_lt (bits_lt ..)).symm
      · obtain ⟨w1, w2⟩ := writeCert_bytes (hq' hq) (p := p) (a := a) (by omega) (Nat.mul_mod_left ..) rfl
        rw [took_field s p m (fun q => q.reg 0x0000) (fun _ _ => rfl)] at w1 w2
        refine ⟨((Config.identityCertificate (q.reg 0x0000) (identityModulus p)).take 3968).length, w1.symm.trans (State.rdBytes_congr k5 ..).symm, ?_⟩
        unfold State.rdWord
        rw [State.rdBytes_congr k5]
        exact w2
theorem attComplete {s : State} {p : Nat} (hb : bits ((s.pkg p).reg 0x0808) 63 63 = 1) : ∃ t, exec (.attComplete p) s = .next t ∧ OnlyPkg s t p ∧ s.Told t p 0x0760
      ∧ SameRegs (s.pkg p) (t.pkg p) [0x0808] ∧ bits ((t.pkg p).reg 0x0808) 63 61 = (s.pkg p).attPend % 4 := by
  have hc : (s.pkg p).fld 0x0808 63 63 = 1 := hb
  have hx : exec (.attComplete p) s = .next ((s.modPkg p (fun q => ((q.setFld 0x0808 63 63 0).setFld 0x0808 62 61 q.attPend).attOwes 0)).packageEvent p) := by
    rw [exec_attComplete_eq, execAttComplete, if_pos hc]
    unfold Package.attOwes
    rfl
  have hp : ∀ o, (((s.modPkg p (fun q => ((q.setFld 0x0808 63 63 0).setFld 0x0808 62 61 q.attPend).attOwes 0)).packageEvent p).pkg p).reg o
      = (((s.pkg p).setFld 0x0808 63 63 0).setFld 0x0808 62 61 (s.pkg p).attPend).reg o := fun o => by
    unfold State.packageEvent
    rw [State.sendMsi_pkg, State.pkg_modPkg_same, (Package.attOwes_fields ..).1]
  refine ⟨_, hx, (OnlyPkg.modPkg s p _).trans (.sendMsi _ p _), ?_, fun o ho => (hp o).trans (setFld2_same _ _ _ _ _ _ _ _ o ho), ?_⟩
  · refine (State.sendMsi_told _ p 0x0760).congr (s := s.modPkg p _) rfl ?_ rfl
    rw [State.pkg_modPkg_same, (Package.attOwes_fields ..).1, setFld2_same _ _ _ _ _ _ _ _ _ (by decide)]
  · rw [hp, setFld2_reg, bits_split _ (m := 63) (by omega) (by omega), bits_putBits_other _ _ (by omega) (by omega) (by omega),
      bits_putBits_same _ _ (by omega) (by omega), bits_putBits_same _ _ (by omega) (by omega)]
    omega

/-! ### Measurements and FWUPD -/

theorem meas_congr {q r : Package} (i : Nat) (h : ∀ j < 8, r.reg (0x0880 + 64 * i + 8 * j) = q.reg (0x0880 + 64 * i + 8 * j)) : r.meas i = q.meas i := by
  unfold Package.meas
  rw [← List.flatMap_congr]
  intro j hj
  rw [h j (List.mem_range.mp hj)]
/-- Registers written one after another from an offset on. -/
theorem foldl_setReg_reg (f : Nat → DWord) (base n : Nat) (q : Package) (j : Nat) :
    ((List.range n).foldl (fun p j => p.setReg (base + 8 * j) (f j)) q).reg (base + 8 * j) = if j < n then f j else q.reg (base + 8 * j) := by
  induction n with
  | zero => simp
  | succ n ih =>
    rw [List.range_succ, List.foldl_append, List.foldl_cons, List.foldl_nil, Package.reg_setReg, ih]
    by_cases e : j = n
    · subst e; simp
    · rw [if_neg (by omega)]
      exact if_congr (by omega) rfl rfl
theorem flatMap_chunks (l : List Byte) (n : Nat) : (List.range n).flatMap (fun j => (l.drop (8 * j)).take 8) = l.take (8 * n) := by
  induction n with
  | zero => simp
  | succ n ih => rw [List.range_succ, List.flatMap_append, ih, Nat.mul_succ, List.take_add]; simp
/-- An extended measurement is the digest of the old one and what it is extended by. -/
theorem extend_meas (q : Package) (i : Nat) (d : List Byte) : (q.extend i d).meas i = sha512 (q.meas i ++ d) := by
  have hl := length_sha512 (q.meas i ++ d)
  unfold Package.extend
  generalize sha512 (q.meas i ++ d) = h at hl ⊢
  unfold Package.meas
  calc _ = (List.range 8).flatMap (fun j => (h.drop (8 * j)).take 8) := by
        refine List.flatMap_congr (fun j hj => ?_)
        have hj := List.mem_range.mp hj
        have hc : ((h.drop (8 * j)).take 8).length = 8 := by rw [List.length_take, List.length_drop]; omega
        have hlt := natOfBytes_lt ((h.drop (8 * j)).take 8)
        rw [hc] at hlt
        dsimp only
        rw [foldl_setReg_reg (fun j => BitVec.ofNat 64 (natOfBytes ((h.drop (8 * j)).take 8))), if_pos hj, BitVec.toNat_ofNat, Nat.mod_eq_of_lt (by omega)]
        have := bytesOfNat_natOfBytes ((h.drop (8 * j)).take 8)
        rwa [hc] at this
    _ = h := by rw [flatMap_chunks]; exact List.take_of_length_le (by omega)
theorem readImage_noSlots {s : State} (h : s.NoSlots) (p a : Nat) : (s.readImage p a).1 = s := by
  unfold State.readImage
  rw [State.mastRead_noSlots h]
  split
  · rfl
  · dsimp only
    split
    · rfl
    · rw [State.mastRead_noSlots h]
theorem readImage_congr {s t : State} (h : s.NoSlots) (h' : t.NoSlots) (hb : SameBytes s t) (p a : Nat) : (t.readImage p a).2 = (s.readImage p a).2 := by
  unfold State.readImage
  rw [State.mastRead_noSlots h, State.mastRead_noSlots h']
  split
  · rfl
  · dsimp only
    rw [State.rdBytes_congr hb]
    split
    · rfl
    · rw [State.mastRead_noSlots h, State.mastRead_noSlots h', State.rdBytes_congr hb]
theorem readImage_beyond {s : State} (p : Nat) {a : Nat} (h : 0xC000000000 ≤ a) : (s.readImage p a).2 = [] := by
  unfold State.readImage
  rw [if_pos (show hbmEnd ≤ a from h)]
/-- The result with which the running firmware load ends. -/
def Package.fwOwes (r : Nat) (q : Package) : Package := { q with fwPend := r }
theorem Package.fwOwes_fields (r : Nat) (q : Package) : (∀ o, (q.fwOwes r).reg o = q.reg o) ∧ (q.fwOwes r).fwPend = r ∧ (q.fwOwes r).stagedFw = q.stagedFw :=
  ⟨fun _ => rfl, rfl, rfl⟩
theorem Package.setFld_stagedFw (q : Package) (o hi lo x : Nat) : (q.setFld o hi lo x).stagedFw = q.stagedFw := rfl
/-- A firmware load runs, and is to end with a result. -/
def Package.fwRuns (r : Nat) (q : Package) : Package := (q.setFld 0x1108 63 63 1).fwOwes r
theorem Package.fwRuns_fields (r : Nat) (q : Package) : (∀ o, (q.fwRuns r).reg o = (q.setFld 0x1108 63 63 1).reg o) ∧ (q.fwRuns r).fwPend = r
    ∧ (q.fwRuns r).stagedFw = q.stagedFw :=
  ⟨fun o => (Package.fwOwes_fields ..).1 o, (Package.fwOwes_fields ..).2.1, (Package.fwOwes_fields ..).2.2.trans (Package.setFld_stagedFw ..)⟩
theorem fwRuns_meas (r : Nat) (q : Package) : (q.fwRuns r).meas 7 = q.meas 7 := by
  refine meas_congr 7 (fun j hj => ?_)
  rw [(Package.fwRuns_fields ..).1, Package.reg_setFld, if_neg (by omega)]
/-- What a firmware load does, by what its check finds. -/
theorem fwCommand_acts {s : State} {p : Nat} {v : DWord} (hb : bits ((s.pkg p).reg 0x1108) 63 63 = 0) (hv : bits v 63 62 = 1) (ht : bits v 61 60 ≠ 0)
    (hq : s.NoSlots) {img : List Byte} (himg : (s.readImage p (bits v 51 12 * 4096)).2 = img) :
    ∃ (g : Package → Package) (r : Nat), s.fwCommand p v = s.modPkg p (fun q => (g q).fwRuns r)
      ∧ (fwCheck img (bits v 61 60) (s.pkg p).fuses.1 (s.pkg p).fuses.2 = .mismatch → r = 1)
      ∧ (fwCheck img (bits v 61 60) (s.pkg p).fuses.1 (s.pkg p).fuses.2 = .old → r = 2)
      ∧ (fwCheck img (bits v 61 60) (s.pkg p).fuses.1 (s.pkg p).fuses.2 = .good → bits v 61 60 = 1 → r = 4 ∧ ∀ q, (g q).stagedFw = img)
      ∧ (fwCheck img (bits v 61 60) (s.pkg p).fuses.1 (s.pkg p).fuses.2 = .good → bits v 61 60 ≠ 1 →
          if (s.pkg p).maskOut (bits v 61 60) (bits v 59 52) then r = 0 ∧ ∀ q, (g q).meas 7 = sha512 (q.meas 7 ++ sha512 img)
          else r = 3 ∧ ∀ q, (g q).meas 7 = q.meas 7) := by
  have hc : ¬ ((s.pkg p).fld 0x1108 63 63 = 1 ∨ bits v 63 62 ≠ 1 ∨ bits v 61 60 = 0) := by
    unfold Package.fld
    omega
  unfold State.fwCommand Package.fwRuns Package.fwOwes
  extract_lets q target read s1 im f run
  have hs1 : s1 = s := readImage_noSlots hq ..
  have him : im = img := himg
  rw [if_neg hc, him]
  simp only [run, hs1]
  have hf : f = (s.pkg p).fuses := rfl
  have htg : target = bits v 61 60 := rfl
  have hqq : q = s.pkg p := rfl
  clear_value f target q
  subst hf htg hqq
  cases hk : fwCheck img (bits v 61 60) (s.pkg p).fuses.1 (s.pkg p).fuses.2 with
  | mismatch => exact ⟨fun q => q, 1, rfl, by simp, by simp, by simp, by simp⟩
  | old => exact ⟨fun q => q, 2, rfl, by simp, by simp, by simp, by simp⟩
  | good =>
    dsimp only
    by_cases h1 : bits v 61 60 = 1
    · rw [if_pos h1]
      exact ⟨fun q => { q with stagedFw := img }, 4, rfl, by simp, by simp, fun _ _ => ⟨rfl, fun _ => rfl⟩, fun _ h => absurd h1 h⟩
    · rw [if_neg h1]
      by_cases hm : (s.pkg p).maskOut (bits v 61 60) (bits v 59 52) = true
      · rw [if_pos hm]
        exact ⟨fun q => q.extend 7 (sha512 img), 0, rfl, by simp, by simp, fun _ h => absurd h h1, fun _ _ => by
          rw [if_pos hm]; exact ⟨rfl, fun q => extend_meas q 7 _⟩⟩
      · rw [if_neg hm]
        exact ⟨fun q => q, 3, rfl, by simp, by simp, fun _ h => absurd h h1, fun _ _ => by rw [if_neg hm]; exact ⟨rfl, fun _ => rfl⟩⟩
theorem fwupd_load {s : State} {p m : Nat} {v : DWord} (h : MayWrite s p m 0x1100) (hv : bits v 63 62 = 1) (ht : bits v 61 60 ≠ 0)
    (hb : bits ((s.pkg p).reg 0x1108) 63 63 = 0) (hq : s.NoSlots) :
    let q := s.pkg p
    let img := if 0xC000000000 ≤ bits v 51 12 * 4096 then [] else (s.readImage p (bits v 51 12 * 4096)).2
    ∃ t, exec (.fwupdLoad p m v) s = .next t ∧ OnlyPkg s t p ∧ bits ((t.pkg p).reg 0x1108) 63 63 = 1
      ∧ (fwCheck img (bits v 61 60) q.fuses.1 q.fuses.2 = .mismatch → (t.pkg p).fwPend = 1)
      ∧ (fwCheck img (bits v 61 60) q.fuses.1 q.fuses.2 = .old → (t.pkg p).fwPend = 2)
      ∧ (fwCheck img (bits v 61 60) q.fuses.1 q.fuses.2 = .good → bits v 61 60 = 1 → (t.pkg p).fwPend = 4 ∧ (t.pkg p).stagedFw = img)
      ∧ (fwCheck img (bits v 61 60) q.fuses.1 q.fuses.2 = .good → bits v 61 60 ≠ 1 →
          if q.maskOut (bits v 61 60) (bits v 59 52) then (t.pkg p).fwPend = 0 ∧ (t.pkg p).meas 7 = sha512 (q.meas 7 ++ sha512 img)
          else (t.pkg p).fwPend = 3 ∧ (t.pkg p).meas 7 = q.meas 7) := by
  intro q img
  have htb : SameBytes s (s.took p m) := by unfold State.took; split; exacts [.refl s, .modPkg s p _]
  have hq' : (s.took p m).NoSlots := by
    unfold State.took; split; exacts [hq, hq.modPkg p _ (hq.quiet p)]
  have himg : ((s.took p m).readImage p (bits v 51 12 * 4096)).2 = img := by
    rw [readImage_congr hq hq' htb]
    by_cases ha : 0xC000000000 ≤ bits v 51 12 * 4096
    · rw [readImage_beyond p ha]; exact (if_pos ha).symm
    · exact (if_neg ha).symm
  clear_value img
  have hr := s.took_reg p m
  obtain ⟨g, r, hx, h1, h2, h3, h4⟩ := fwCommand_acts (by rw [hr]; exact hb) hv ht hq' himg
  have hfu : ((s.took p m).pkg p).fuses = q.fuses := took_field s p m Package.fuses (fun _ _ => rfl)
  have hmo : ((s.took p m).pkg p).maskOut (bits v 61 60) (bits v 59 52) = q.maskOut (bits v 61 60) (bits v 59 52) :=
    took_field s p m (fun q => q.maskOut (bits v 61 60) (bits v 59 52)) (fun _ _ => rfl)
  have hme : ((s.took p m).pkg p).meas 7 = q.meas 7 := meas_congr 7 (fun j _ => hr _)
  rw [hfu] at h1 h2 h3 h4
  rw [hmo] at h4
  have ht : ∀ {α : Type} (f : Package → α), (∀ (q : Package) r, f { q with replies := r } = f q) →
      f ((s.answer ((s.took p m).modPkg p (fun q => (g q).fwRuns r)) p m 0x1100).pkg p) = f ((g ((s.took p m).pkg p)).fwRuns r) := fun f hf => by
    rw [answer_field _ _ _ _ _ f hf, State.pkg_modPkg_same]
  have hpend : ((s.answer ((s.took p m).modPkg p (fun q => (g q).fwRuns r)) p m 0x1100).pkg p).fwPend = r :=
    (ht Package.fwPend (fun _ _ => rfl)).trans (Package.fwRuns_fields ..).2.1
  have hmeas : ((s.answer ((s.took p m).modPkg p (fun q => (g q).fwRuns r)) p m 0x1100).pkg p).meas 7 = (g ((s.took p m).pkg p)).meas 7 :=
    (ht (fun q => q.meas 7) (fun q r => meas_congr 7 (fun _ _ => rfl))).trans (fwRuns_meas ..)
  refine ⟨_, by rw [exec_fwupdLoad_eq, execFwupdLoad, acts_answered h (by decide) _ _ (by simpa using hv), regWrite_fw, hx],
    (s.took_only p m).trans ((OnlyPkg.modPkg _ p _).trans (State.answer_only ..)), ?_, fun e => hpend.trans (h1 e), fun e => hpend.trans (h2 e), fun e e1 => ?_, fun e e1 => ?_⟩
  · rw [State.answer_reg, State.pkg_modPkg_same, (Package.fwRuns_fields ..).1, Package.reg_setFld, if_pos rfl, bits_putBits_same _ _ (by omega) (by omega)]
    rfl
  · obtain ⟨a, b⟩ := h3 e e1
    exact ⟨hpend.trans a, (ht Package.stagedFw (fun _ _ => rfl)).trans ((Package.fwRuns_fields ..).2.2.trans (b _))⟩
  · have h4 := h4 e e1
    split
    · next hm =>
      rw [if_pos hm] at h4
      exact ⟨hpend.trans h4.1, hmeas.trans ((h4.2 _).trans (by rw [hme]))⟩
    · next hm =>
      rw [if_neg hm] at h4
      exact ⟨hpend.trans h4.1, hmeas.trans ((h4.2 _).trans hme)⟩
/-- A firmware load has ended. -/
def Package.fwEnds (q : Package) : Package := ((q.setFld 0x1108 63 63 0).setFld 0x1108 62 60 q.fwPend).fwOwes 0
theorem Package.fwEnds_reg (q : Package) (o : Nat) : q.fwEnds.reg o = ((q.setFld 0x1108 63 63 0).setFld 0x1108 62 60 q.fwPend).reg o :=
  (Package.fwOwes_fields ..).1 o
theorem fwLoadComplete {s : State} {p : Nat} (hb : bits ((s.pkg p).reg 0x1108) 63 63 = 1) : ∃ t, exec (.fwLoadComplete p) s = .next t ∧ OnlyPkg s t p ∧ s.Told t p 0x0760
      ∧ SameRegs (s.pkg p) (t.pkg p) [0x1108] ∧ bits ((t.pkg p).reg 0x1108) 63 60 = (s.pkg p).fwPend % 8 := by
  have hc : (s.pkg p).fld 0x1108 63 63 = 1 := hb
  have hx : exec (.fwLoadComplete p) s = .next ((s.modPkg p Package.fwEnds).packageEvent p) := by
    rw [exec_fwLoadComplete_eq, execFwLoadComplete, if_pos hc]
    unfold Package.fwEnds Package.fwOwes
    rfl
  have hp : ∀ o, (((s.modPkg p Package.fwEnds).packageEvent p).pkg p).reg o
      = (((s.pkg p).setFld 0x1108 63 63 0).setFld 0x1108 62 60 (s.pkg p).fwPend).reg o := fun o => by
    unfold State.packageEvent
    rw [State.sendMsi_pkg, State.pkg_modPkg_same, Package.fwEnds_reg]
  refine ⟨_, hx, (OnlyPkg.modPkg s p _).trans (.sendMsi _ p _), ?_, fun o ho => (hp o).trans (setFld2_same _ _ _ _ _ _ _ _ o ho), ?_⟩
  · refine (State.sendMsi_told _ p 0x0760).congr (s := s.modPkg p _) rfl ?_ rfl
    rw [State.pkg_modPkg_same, Package.fwEnds_reg, setFld2_same _ _ _ _ _ _ _ _ _ (by decide)]
  · rw [hp, setFld2_reg, bits_split _ (m := 63) (by omega) (by omega), bits_putBits_other _ _ (by omega) (by omega) (by omega),
      bits_putBits_same _ _ (by omega) (by omega), bits_putBits_same _ _ (by omega) (by omega)]
    omega

/-! ### The obligation -/

theorem securityCommands : Claims.SecurityCommands := by
  unfold Claims.SecurityCommands
  refine ⟨fun s p m v i op h hi hv => ?_, fun s p hb => attComplete hb, fun s p m v h hv ht hb hq => fwupd_load h hv ht hb hq, fun s p hb => fwLoadComplete hb⟩
  simp only [List.mem_cons, Prod.mk.injEq, List.not_mem_nil, or_false] at hi
  rcases hi with ⟨rfl, rfl⟩ | ⟨rfl, rfl⟩
  · exact attcmd_write h _ (by rw [exec_attcmdQuote_eq, execAttcmdQuote]) hv (by simp)
  · exact attcmd_write h _ (by rw [exec_attcmdIdentityCert_eq, execAttcmdIdentityCert]) hv (by simp)
/-- Settles O41: each command's register write is followed from its request to its answer. -/
theorem engineAndSecurityCommands : Obligations.EngineAndSecurityCommands := ⟨engineCommands, securityCommands⟩

end Sys2Proof.Machine
end

section
/-! Replies to fault records (R336, R338, R393). -/

namespace Sys2Proof.Machine

/-! ### The reply -/

theorem regWrite_tfreply (s : State) (p : Nat) (v : DWord) : s.regWrite p 0x0620 v = s.tfreply p v := by
  unfold State.regWrite
  rw [if_neg (show ¬ plainMask 0x0620 ≠ 0 by decide), if_neg (by omega), if_neg (by omega), if_neg (by omega), if_neg (by omega), if_neg (by omega)] <;> rfl
/-- What a reply names: a record, and a verdict. -/
theorem reply_bits (id : Word) (x : DWord) (hx : ∀ k < 32, x.getLsbD k = false) : bits (id.setWidth 64 ||| x) 31 0 = id.toNat
    ∧ bits (id.setWidth 64 ||| x) 63 62 = bits x 63 62 := by
  have h32 : ∀ k, 32 ≤ k → id.getLsbD k = false := fun k hk => BitVec.getLsbD_of_ge _ _ hk
  constructor
  · refine Nat.eq_of_testBit_eq fun k => ?_
    rw [bits_testBit, BitVec.getLsbD_or, BitVec.getLsbD_setWidth, BitVec.testBit_toNat, Nat.zero_add]
    by_cases hk : k < 32
    · rw [hx k hk, Bool.or_false, decide_eq_true (show k < 64 by omega), decide_eq_true (show k < 31 + 1 - 0 by omega)]; simp
    · simp [hk, h32 k (by omega)]
  · refine Nat.eq_of_testBit_eq fun k => ?_
    rw [bits_testBit, bits_testBit, BitVec.getLsbD_or, BitVec.getLsbD_setWidth]
    simp [h32 (62 + k) (by omega)]
section
variable {s : State} {p m : Nat} {id : Word} (h : MayWrite s p m 0x0620)
include h
theorem exec_retry : exec (.tfreplyRetry p m id) s = .next (s.answer ((s.took p m).tfreply p (id.setWidth 64 ||| 0x4000000000000000)) p m 0x0620) := by
  rw [exec_tfreplyRetry_eq, execTfreplyRetry, acts_answered h (by decide) _ _ rfl, regWrite_tfreply]
theorem exec_unresolvable :
    exec (.tfreplyUnresolvable p m id) s = .next (s.answer ((s.took p m).tfreply p (id.setWidth 64 ||| 0x8000000000000000)) p m 0x0620) := by
  rw [exec_tfreplyUnresolvable_eq, execTfreplyUnresolvable, acts_answered h (by decide) _ _ rfl, regWrite_tfreply]
end
/-- What a reply with a verdict does. -/
theorem tfreply_eq (s : State) (p : Nat) (id : Word) (x : DWord) (hx : ∀ k < 32, x.getLsbD k = false) (hv : bits x 63 62 = 1 ∨ bits x 63 62 = 2) :
    s.tfreply p (id.setWidth 64 ||| x) = match (s.pkg p).frecs.find? (fun r => decide (r.id = id.toNat) && !r.answered) with
      | none => s
      | some r => if r.kind = 8 then s.modPkg p (fun q => { q.dropFrec id.toNat with poolUsed := q.poolUsed.filter (fun a => decide (a + 1 ≠ r.area)) })
          else if bits x 63 62 = 1 then s.retry p id.toNat else s.unresolvable p id.toNat := by
  obtain ⟨h1, h2⟩ := reply_bits id x hx
  unfold State.tfreply
  dsimp only
  rw [h1, h2]
  have hn : ¬ (bits x 63 62 ≠ 1 ∧ bits x 63 62 ≠ 2) := by omega
  generalize List.find? _ (s.pkg p).frecs = o
  cases o with
  | none => rfl
  | some r => dsimp only; rw [if_neg hn]
theorem tfreply_retry (s : State) (p : Nat) (id : Word) : s.tfreply p (id.setWidth 64 ||| 0x4000000000000000) =
    match (s.pkg p).frecs.find? (fun r => decide (r.id = id.toNat) && !r.answered) with
      | none => s
      | some r => if r.kind = 8 then s.modPkg p (fun q => { q.dropFrec id.toNat with poolUsed := q.poolUsed.filter (fun a => decide (a + 1 ≠ r.area)) })
          else s.retry p id.toNat := by
  rw [tfreply_eq s p id _ (by decide) (.inl (by decide))]
  cases (s.pkg p).frecs.find? (fun r => decide (r.id = id.toNat) && !r.answered) with
  | none => rfl
  | some r => dsimp only; rw [if_pos (show bits (0x4000000000000000 : DWord) 63 62 = 1 by decide)]
theorem tfreply_unresolvable (s : State) (p : Nat) (id : Word) : s.tfreply p (id.setWidth 64 ||| 0x8000000000000000) =
    match (s.pkg p).frecs.find? (fun r => decide (r.id = id.toNat) && !r.answered) with
      | none => s
      | some r => if r.kind = 8 then s.modPkg p (fun q => { q.dropFrec id.toNat with poolUsed := q.poolUsed.filter (fun a => decide (a + 1 ≠ r.area)) })
          else s.unresolvable p id.toNat := by
  rw [tfreply_eq s p id _ (by decide) (.inr (by decide))]
  cases (s.pkg p).frecs.find? (fun r => decide (r.id = id.toNat) && !r.answered) with
  | none => rfl
  | some r => dsimp only; rw [if_neg (show ¬ bits (0x8000000000000000 : DWord) 63 62 = 1 by decide)]
/-- A record as a reply leaves it. -/
theorem dropFrec_frecs (q : Package) (id : Nat) : (q.dropFrec id).frecs = (q.frecs.map (fun r => if r.id = id then { r with answered := true } else r)).filter
    (fun r => !(r.written && r.answered)) := rfl

/-! ### Retry -/

/-- A lane that waits for a fetch on a record goes on. -/
def Lane.woken (id : Nat) (x : Lane) : Lane := if x.wait = .fetch id then { x with wait := .none } else x
theorem Lane.woken_woken (id : Nat) (x : Lane) : (x.woken id).woken id = x.woken id := by
  unfold Lane.woken
  split
  · rw [if_neg]; simp
  · rfl
/-- None of a context's accesses waits on a record. -/
def Ctx.parksNone (id : Nat) (c : Ctx) : Prop := ∀ y ∈ c.rq, ∀ z ∈ y.caps, z.2.done = true ∨ z.2.parked ≠ id + 1
/-- What a retry does to a context none of whose accesses waits on the record: lanes go on, and chunks of copies. -/
structure Ctx.Retried (id : Nat) (c d : Ctx) : Prop where
  /-- the same lanes -/
  kind : d.kind = c.kind
  /-- still, none of its accesses waits on the record -/
  parks : c.parksNone id → d.parksNone id
  /-- each lane -/
  lane : ∀ l, d.lane l = c.lane l ∨ d.lane l = (c.lane l).woken id
theorem Ctx.Retried.refl (id : Nat) (c : Ctx) : c.Retried id c := ⟨rfl, fun h => h, fun _ => .inl rfl⟩
theorem Ctx.Retried.trans {id : Nat} {c d e : Ctx} (h : c.Retried id d) (h' : d.Retried id e) : c.Retried id e where
  kind := h'.kind.trans h.kind
  parks := h'.parks ∘ h.parks
  lane l := by
    rcases h.lane l with a | a <;> rcases h'.lane l with b | b <;> rw [b, a]
    · exact .inl rfl
    · exact .inr rfl
    · exact .inr rfl
    · exact .inr (Lane.woken_woken ..)
/-- A state in which only contexts differ, as a retry changes them. -/
structure State.Retried (id : Nat) (s t : State) : Prop where
  /-- nothing but contexts -/
  rest : t = { s with ctxs := t.ctxs }
  /-- contexts -/
  ctx : ∀ k, (s.ctx k).Retried id (t.ctx k)
  /-- the same contexts -/
  found : ∀ k, (Sparse.find t.ctxs k).isSome = (Sparse.find s.ctxs k).isSome
theorem State.Retried.refl (id : Nat) (s : State) : s.Retried id s := ⟨rfl, fun _ => .refl id _, fun _ => rfl⟩
theorem State.Retried.trans {id : Nat} {s t u : State} (h : s.Retried id t) (h' : t.Retried id u) : s.Retried id u :=
  ⟨by rw [h'.rest, h.rest], fun k => (h.ctx k).trans (h'.ctx k), fun k => (h'.found k).trans (h.found k)⟩
theorem State.Retried.modCtx {id : Nat} (s : State) (k : Nat) (f : Ctx → Ctx) (hf : ∀ c, Ctx.Retried id c (f c)) : s.Retried id (s.modCtx k f) := by
  refine ⟨rfl, fun j => ?_, fun j => ?_⟩
  rotate_left
  · unfold State.modCtx
    rw [Sparse.find_adjust]
    split
    · next e => rw [e]; cases Sparse.find s.ctxs k <;> rfl
    · rfl
  by_cases hj : j = k
  · subst hj
    unfold State.ctx State.modCtx
    rw [Sparse.find_adjust, if_pos rfl]
    cases Sparse.find s.ctxs j with
    | none => exact .refl id _
    | some c => exact hf c
  · rw [State.ctx_modCtx_ne _ _ _ _ hj]; exact .refl id _
theorem wake_retried (id : Nat) (c : Ctx) :
    c.Retried id (c.modLanes (List.range c.nLanes) (fun _ x => if x.wait = .fetch id then { x with wait := .none } else x)) := by
  refine ⟨by rw [Ctx.modLanes_only], fun h => by rw [Ctx.modLanes_only]; exact h, fun l => ?_⟩
  rw [Ctx.lane_modLanes _ List.nodup_range]
  split
  · exact .inr rfl
  · exact .inl rfl
/-- Entries changed in their chunks alone. -/
theorem chunks_retried (id : Nat) (c : Ctx) (f : RqEntry → RqEntry) (hf : ∀ e, (f e).caps = e.caps) : c.Retried id { c with rq := c.rq.map f } := by
  refine ⟨rfl, fun h y hy z hz => ?_, fun _ => .inl rfl⟩
  obtain ⟨x, hx, rfl⟩ := List.mem_map.mp hy
  rw [hf] at hz
  exact h x hx z hz
/-- An entry of which nothing that waits on the record is an access goes on in its chunks alone. -/
theorem replayEntry_retried {s : State} {k id : Nat} (e : Nat) (h : (s.ctx k).parksNone id) : s.Retried id (s.replayEntry k e (fun i => decide (i = id))) := by
  unfold State.replayEntry
  split
  · exact .refl id s
  · next en hen =>
    extract_lets s1 due ls bad s2
    have hdue : due = [] := by
      have hm := List.mem_of_find?_eq_some hen
      simp only [due, List.map_eq_nil_iff, List.filter_eq_nil_iff]
      intro z hz
      rcases h en hm z hz with hd | hp
      · simp [hd]
      · by_cases h0 : z.2.parked = 0
        · simp [h0]
        · have : z.2.parked - 1 ≠ id := by omega
          simp [this]
    have hls : ls = [] := by simp [ls, hdue]
    have hbad : bad = [] := by simp [bad, hls]
    have hs2 : s2 = s1 := by simp [s2, hls]
    rw [hbad, hs2]
    simp only [s1]
    unfold State.replayChunks
    split
    · exact .refl id s
    · refine .modCtx s k _ (fun c => chunks_retried id c _ (fun e => ?_))
      split <;> rfl

/-- A context as the waits of a fetch on the record end. -/
def Ctx.Woken (id : Nat) (c d : Ctx) : Prop := ∀ l < c.nLanes, d.lane l = (c.lane l).woken id
theorem Ctx.Woken.retried {id : Nat} {c d e : Ctx} (h : c.Woken id d) (h' : d.Retried id e) : c.Woken id e := fun l hl => by
  rcases h'.lane l with b | b <;> rw [b, h l hl]
  exact Lane.woken_woken ..
theorem Ctx.Retried.nLanes {id : Nat} {c d : Ctx} (h : c.Retried id d) : d.nLanes = c.nLanes := by unfold Ctx.nLanes; rw [h.kind]
/-- What a retry does for one context. -/
def State.retryCtx (p id : Nat) (s : State) (e : Nat × Ctx) : State :=
  if e.2.pkg ≠ p then s
  else
    let s := s.modCtx e.1 (fun c => c.modLanes (List.range c.nLanes) (fun _ x => if x.wait = .fetch id then { x with wait := .none } else x))
    if s.heldBack e.2 then s else e.2.rq.foldl (fun s r => s.replayEntry e.1 r.id (fun i => decide (i = id))) s
theorem foldl_replay_retried {s : State} {k id : Nat} (l : List RqEntry) (h : (s.ctx k).parksNone id) :
    s.Retried id (l.foldl (fun s r => s.replayEntry k r.id (fun i => decide (i = id))) s) :=
  foldl_induct (s.Retried id) _ (fun t r ht => ht.trans (replayEntry_retried r.id ((ht.ctx k).parks h))) l s (.refl id s)
theorem retryCtx_retried {p id : Nat} {s : State} (h : ∀ k, (s.ctx k).parksNone id) (e : Nat × Ctx) : s.Retried id (s.retryCtx p id e) := by
  unfold State.retryCtx
  split
  · exact .refl id s
  · extract_lets s1
    have h1 : s.Retried id s1 := .modCtx s e.1 _ (fun c => wake_retried id c)
    split
    · exact h1
    · exact h1.trans (foldl_replay_retried _ ((h1.ctx _).parks (h _)))
theorem retryCtx_woken {p id k : Nat} {s : State} {c : Ctx} (h : ∀ k, (s.ctx k).parksNone id) (hs : Sparse.find s.ctxs k ≠ none) (hp : c.pkg = p) :
    (s.ctx k).Woken id ((s.retryCtx p id (k, c)).ctx k) := by
  unfold State.retryCtx
  rw [if_neg (show ¬ (k, c).2.pkg ≠ p from fun hn => hn hp)]
  extract_lets s1
  have h1 : s.Retried id s1 := .modCtx s k _ (fun c => wake_retried id c)
  have hw : (s.ctx k).Woken id (s1.ctx k) := fun l hl => by
    obtain ⟨d, hd⟩ := Option.ne_none_iff_exists'.mp hs
    have hc : s.ctx k = d := by unfold State.ctx; rw [hd]; rfl
    have hc1 : s1.ctx k = d.modLanes (List.range d.nLanes) (fun _ x => x.woken id) := by
      simp only [s1]; unfold State.ctx State.modCtx; rw [Sparse.find_adjust, if_pos rfl, hd] <;> rfl
    rw [hc] at hl
    rw [hc1, hc, Ctx.lane_modLanes _ List.nodup_range, if_pos (List.mem_range.mpr hl)]
  split
  · exact hw
  · exact hw.retried ((foldl_replay_retried _ ((h1.ctx _).parks (h _))).ctx k)
/-- The chunks of a context that wait on a record of a package go on. -/
def Ctx.chunksGo (n : Nat) (c : Ctx) : Ctx := { c with rq := c.rq.map (fun (r : RqEntry) => r.mapChunks (fun x => if x.parked = n then { x with parked := 0 } else x)) }
theorem Ctx.chunksGo_parked {n : Nat} (hn : n ≠ 0) (c : Ctx) : ∀ y ∈ (c.chunksGo n).rq, ∀ x ∈ y.chunks, x.parked ≠ n := by
  intro y hy x hx
  obtain ⟨r, -, rfl⟩ := List.mem_map.mp hy
  obtain ⟨z, -, rfl⟩ := List.mem_map.mp hx
  split
  · exact hn.symm
  · assumption
/-- A grid whose start waits on a record goes on. -/
def Grid.goesOn (p n : Nat) (g : Grid) : Grid := if g.pkg = p ∧ g.parked = n then { g with parked := 0 } else g
/-- What else waits on the record in its package goes on. -/
def Package.goesOn (id : Nat) (q : Package) : Package := { q with
  coll := mapVals q.coll (fun _ x => { x with parkedCh := x.parkedCh.filter (fun y => decide (y.2 ≠ id)) })
  qwait := q.qwait.filter (fun e => decide (e.2 / 2 ≠ id)) }
theorem State.retry_eq (s : State) (p id : Nat) : s.retry p id =
    let t := (s.modPkg p (fun q => q.dropFrec id)).ctxs.foldl (State.retryCtx p id) (s.modPkg p (fun q => q.dropFrec id))
    { t with ctxs := mapVals t.ctxs (fun _ c => c.chunksGo (p * 2 ^ 32 + id + 1)), grids := mapVals t.grids (fun _ g => g.goesOn p (id + 1)) }.modPkg p (fun q => q.goesOn id) := rfl
/-- What a retry leaves, where no access waits on the record. -/
theorem retry_effect (s : State) (p id : Nat) (h : ∀ e ∈ s.ctxs, e.2.parksNone id) :
    let t := s.retry p id
    (t.pkg p).frecs = ((s.pkg p).dropFrec id).frecs ∧ SameBytes s t ∧ t.units = s.units
      ∧ (∀ k c, Sparse.find s.ctxs k = some c → c.pkg = p → c.Woken id (t.ctx k))
      ∧ (∀ k c, Sparse.find s.ctxs k = some c → ∀ y ∈ (t.ctx k).rq, ∀ x ∈ y.chunks, x.parked ≠ p * 2 ^ 32 + id + 1)
      ∧ (∀ e ∈ t.grids, e.2.pkg = p → e.2.parked ≠ id + 1) ∧ ∀ e ∈ (t.pkg p).qwait, e.2 / 2 ≠ id := by
  rw [State.retry_eq]
  obtain ⟨s1, hs1⟩ : ∃ s1, s1 = s.modPkg p (fun q => q.dropFrec id) := ⟨_, rfl⟩
  have hc1 : s1.ctxs = s.ctxs := by rw [hs1]; rfl
  obtain ⟨t, hte⟩ : ∃ t, t = s1.ctxs.foldl (State.retryCtx p id) s1 := ⟨_, rfl⟩
  dsimp only
  rw [← hs1, ← hte]
  have hp0 : ∀ k, (s1.ctx k).parksNone id := fun k => by
    unfold State.ctx
    rw [hc1]
    cases hk : Sparse.find s.ctxs k with
    | none => intro y hy; exact absurd hy List.not_mem_nil
    | some c => exact h _ (Sparse.mem_of_find_some hk)
  have hstep : ∀ (x : State) e, s1.Retried id x → s1.Retried id (x.retryCtx p id e) := fun x e hx =>
    hx.trans (retryCtx_retried (fun k => (hx.ctx k).parks (hp0 k)) e)
  have ht : s1.Retried id t := hte ▸ foldl_induct (s1.Retried id) _ hstep _ _ (.refl id _)
  have hctx : ∀ k c, Sparse.find s.ctxs k = some c → s1.ctx k = c ∧
      State.ctx { t with ctxs := mapVals t.ctxs (fun _ c => c.chunksGo (p * 2 ^ 32 + id + 1)), grids := mapVals t.grids (fun _ g => g.goesOn p (id + 1)) } k
        = (t.ctx k).chunksGo (p * 2 ^ 32 + id + 1) := fun k c hk => by
    have hf := ht.found k
    rw [hc1, hk] at hf
    obtain ⟨d, hd⟩ := Option.isSome_iff_exists.mp hf
    unfold State.ctx
    dsimp only
    rw [find_mapVals, hd, hc1, hk]
    exact ⟨rfl, rfl⟩
  have hsb : SameBytes s1 t := fun a => by rw [ht.rest]; cases a <;> rfl
  have hpk : t.pkg p = s1.pkg p := by rw [ht.rest]; rfl
  have hm : ∀ (x : State) f k, (x.modPkg p f).ctx k = x.ctx k := fun _ _ _ => rfl
  refine ⟨?_, ?_, ?_, fun k c hk hkp => ?_, fun k c hk => ?_, fun e he => ?_, fun e he => ?_⟩
  · rw [State.pkg_modPkg_same]
    show (t.pkg p).frecs = _
    rw [hpk, hs1, State.pkg_modPkg_same]
  · refine SameBytes.trans (t := s1) ?_ (.trans hsb fun a => by cases a <;> rfl)
    rw [hs1]; exact SameBytes.modPkg s p _
  · show t.units = _
    rw [ht.rest, hs1]; rfl
  · rw [hm, (hctx k c hk).2]
    have hw : c.Woken id (t.ctx k) := by
      rw [← (hctx k c hk).1, hte]
      refine foldl_reach (s1.Retried id) (fun x e => e.2.pkg = p → (Sparse.find s1.ctxs e.1).isSome = true → (s1.ctx e.1).Woken id (x.ctx e.1)) (fun x e hx => hstep x e hx)
        (fun x e hx he hf => ?_) (fun x e (f : Nat × Ctx) hx (hq : f.2.pkg = p → (Sparse.find s1.ctxs f.1).isSome = true → (s1.ctx f.1).Woken id (x.ctx f.1)) hf hi => (hq hf hi).retried ((retryCtx_retried (fun k => (hx.ctx k).parks (hp0 k)) e).ctx f.1))
        s1.ctxs s1 (.refl id s1) (k, c) (.inl (hc1 ▸ Sparse.mem_of_find_some hk)) hkp (by rw [hc1, hk]; rfl)
      intro l hl
      have hx1 := retryCtx_woken (k := e.1) (fun k => (hx.ctx k).parks (hp0 k)) (Option.isSome_iff_ne_none.mp ((hx.found e.1).trans hf)) he l (by rw [(hx.ctx e.1).nLanes]; exact hl)
      rcases (hx.ctx e.1).lane l with b | b <;> rw [hx1, b]
      exact Lane.woken_woken ..
    exact hw
  · rw [hm, (hctx k c hk).2]
    exact Ctx.chunksGo_parked (by omega) _
  · obtain ⟨g, -, rfl⟩ := List.mem_map.mp he
    dsimp only
    unfold Grid.goesOn
    split
    · intro _; exact (Nat.succ_ne_zero _).symm
    · next hg => intro hgp hgn; exact hg ⟨hgp, hgn⟩
  · rw [State.pkg_modPkg_same] at he
    exact of_decide_eq_true (List.mem_filter.mp he).2

/-! ### Unresolvable -/

/-- The unit ends with the cause of an unresolvable record, or of a unit above it that does. -/
def WUnit.EndsSo (x : WUnit) : Prop := ∃ n, x.st = .aborting n ∧ n ∈ [0x0101, 0x0105]
/-- The unit is there, and runs or ends so. -/
def State.RunsOrEnds (u : Nat) (s : State) : Prop := (Sparse.find s.units u).isSome = true ∧ ((s.unit u).st = .running ∨ (s.unit u).EndsSo)
/-- One unit of a tree begins to abort. -/
def State.abortOne (u cause : Nat) (s : State) (x : Nat) : State :=
  match (s.unit x).st with
  | .aborting _ => s
  | .kept => s
  | _ => s.modUnit x (fun y => { y with st := .aborting (if x = u then cause else 0x0105) })
theorem abortOne_step {u : Nat} {s : State} (h : s.RunsOrEnds u) (v x : Nat) : (s.abortOne v 0x0101 x).RunsOrEnds u
    ∧ (x = u ∨ (s.unit u).EndsSo → ((s.abortOne v 0x0101 x).unit u).EndsSo) := by
  obtain ⟨hf, hst⟩ := h
  have hother : x ≠ u → ∀ f, (Sparse.find (s.modUnit x f).units u).isSome = true ∧ (s.modUnit x f).unit u = s.unit u := fun hx f => by
    refine ⟨?_, State.unit_modUnit_ne _ _ _ _ (Ne.symm hx)⟩
    unfold State.modUnit
    rw [Sparse.find_adjust, if_neg (Ne.symm hx)]
    exact hf
  unfold State.abortOne
  by_cases hx : x = u
  · subst hx
    rcases hst with hr | ⟨n, hn, hm⟩
    · rw [hr]
      dsimp only
      obtain ⟨y, hy⟩ := Option.isSome_iff_exists.mp hf
      have he : ((s.modUnit x (fun y => { y with st := .aborting (if x = v then 0x0101 else 0x0105) })).unit x).EndsSo := by
        rw [State.unit_modUnit _ _ _ _ hy]
        refine ⟨_, rfl, ?_⟩
        split <;> decide
      refine ⟨⟨?_, .inr he⟩, fun _ => he⟩
      unfold State.modUnit
      rw [Sparse.find_adjust, if_pos rfl, hy]
      rfl
    · rw [hn]
      exact ⟨⟨hf, .inr ⟨n, hn, hm⟩⟩, fun _ => ⟨n, hn, hm⟩⟩
  · have hk : ∀ t : State, (Sparse.find t.units u).isSome = true ∧ t.unit u = s.unit u → t.RunsOrEnds u ∧ (x = u ∨ (s.unit u).EndsSo → (t.unit u).EndsSo) := fun t ⟨a, b⟩ =>
      ⟨⟨a, by rw [b]; exact hst⟩, fun c => by rw [b]; exact c.resolve_left hx⟩
    split
    · exact hk s ⟨hf, rfl⟩
    · exact hk s ⟨hf, rfl⟩
    · exact hk _ (hother hx _)
theorem State.RunsOrEnds.congr {u : Nat} {s t : State} (h : s.RunsOrEnds u) (e : t.units = s.units) : t.RunsOrEnds u := by
  unfold State.RunsOrEnds State.unit at *; rw [e]; exact h
/-- A unit of which a unit at or above it begins to abort. -/
theorem startAbort_step {u : Nat} {s : State} (h : s.RunsOrEnds u) (v : Nat) : (s.startAbort v 0x0101).RunsOrEnds u
    ∧ (v = u ∨ (s.unit u).EndsSo → ((s.startAbort v 0x0101).unit u).EndsSo) := by
  obtain ⟨t, ht, e⟩ : ∃ t : State, t.units = s.units ∧ s.startAbort v 0x0101 = (t.unitsUnder 6 v).foldl (State.abortOne v 0x0101) t := by
    unfold State.startAbort
    extract_lets s1
    exact ⟨s1, by simp only [s1]; split <;> rfl, rfl⟩
  have h1 := h.congr ht
  rw [e]
  refine ⟨foldl_induct (State.RunsOrEnds u) _ (fun y x hy => (abortOne_step hy v x).1) _ _ h1, fun hv => ?_⟩
  refine foldl_reach (State.RunsOrEnds u) (fun y x => x = u → (y.unit u).EndsSo) (fun y x hy => (abortOne_step hy v x).1) (fun y x hy hx => (abortOne_step hy v x).2 (.inl hx))
    (fun y x j hy hq hj => (abortOne_step hy v x).2 (.inr (hq hj))) (t.unitsUnder 6 v) t h1 u ?_ rfl
  rcases hv with rfl | hv
  · exact .inl (List.mem_cons_self ..)
  · refine .inr fun _ => ?_
    unfold State.unit
    rw [ht]
    exact hv
theorem postEv_units (s : State) (k : Nat) (r : EvRec) : (s.postEv k r).units = s.units := by
  unfold State.postEv
  split
  · rfl
  · split <;> rfl
theorem failCopy_eq (s : State) (k : Nat) (e : RqEntry) (d : CopyDesc) (status : Nat) :
    ∃ t : State, ∃ v, t.units = s.units ∧ s.failCopy k e d status = t.startAbort v status := by
  unfold State.failCopy
  extract_lets moved s1 s2
  refine ⟨s2, _, ?_, rfl⟩
  simp only [s2]
  split
  · rw [postEv_units]; rfl
  · rfl
/-- What the end of a context's copies does to the state of a unit. -/
theorem endCopies_step {u : Nat} {s : State} (h : s.RunsOrEnds u) (k p id : Nat) : (s.endCopies k p id).RunsOrEnds u
    ∧ ((s.unit u).EndsSo → ((s.endCopies k p id).unit u).EndsSo) := by
  unfold State.endCopies
  refine foldl_induct (fun t : State => t.RunsOrEnds u ∧ ((s.unit u).EndsSo → (t.unit u).EndsSo)) _ (fun t r ⟨a, b⟩ => ?_) _ _ ⟨h, fun x => x⟩
  split
  · split
    · next d _ _ =>
      obtain ⟨t1, v, e1, e2⟩ := failCopy_eq t k r d 0x0101
      rw [e2]
      obtain ⟨a1, b1⟩ := startAbort_step (a.congr e1) v
      refine ⟨a1, fun hs => b1 (.inr ?_)⟩
      have hb := b hs
      unfold State.unit at hb ⊢
      rw [e1]
      exact hb
    · exact ⟨a, b⟩
  · exact ⟨a, b⟩
theorem modColl_units (s : State) (p ix : Nat) (f : CollEnt → CollEnt) : (s.modColl p ix f).units = s.units := rfl
theorem failColl_units (s : State) (p ix status : Nat) : (s.failColl p ix status).units = s.units := by
  unfold State.failColl State.modPeers
  refine foldl_keeps State.units _ (fun t m => ?_) _ _
  split
  · split <;> rfl
  · rfl
theorem endCollectives_units (s : State) (p id : Nat) : (s.endCollectives p id).units = s.units := by
  refine foldl_keeps State.units _ (fun t e => ?_) _ _
  split
  · rfl
  · split
    · rfl
    · exact failColl_units ..
theorem stopQueue_units (s : State) (p q code : Nat) : (s.stopQueue p q code).units = s.units := by
  unfold State.stopQueue State.packageEvent State.sendMsi
  dsimp only
  split <;> rfl
theorem closeGrid_units (s : State) (gr : Nat) : (s.closeGrid gr).units = s.units := by
  unfold State.closeGrid
  dsimp only
  split <;> rfl
theorem endReads_units (s : State) (p id : Nat) : (s.endReads p id).units = s.units := by
  unfold State.endReads
  extract_lets s1
  have h1 : s1.units = s.units := by
    refine foldl_keeps State.units _ (fun t e => ?_) _ _
    split
    · rfl
    · dsimp only
      split
      · rfl
      · exact stopQueue_units ..
  rw [← h1]
  refine foldl_keeps State.units _ (fun t e => ?_) _ _
  split
  · rw [closeGrid_units, stopQueue_units]
  · rfl
/-- The unit of a context that waits on a record ends with it. -/
theorem unresolvable_effect {s : State} {p id k : Nat} {c : Ctx} (hk : (k, c) ∈ s.ctxs) (hp : c.pkg = p) (hh : c.kind ≠ .handler) (hw : c.waitsOn id = true)
    (hu : Sparse.find s.units c.unit ≠ none) (hr : (s.unit c.unit).st = .running) : ((s.unresolvable p id).unit c.unit).EndsSo := by
  unfold State.unresolvable
  extract_lets s1 s2
  have h2 : s2.units = s1.units := by simp only [s2]; rw [endReads_units, endCollectives_units]
  have h0 : s.RunsOrEnds c.unit := ⟨Option.isSome_iff_ne_none.mpr hu, .inl hr⟩
  have hstep : ∀ (t : State) (e : Nat × Ctx), t.RunsOrEnds c.unit →
      (if e.2.pkg = p ∧ e.2.kind ≠ .handler ∧ e.2.waitsOn id then (t.endCopies e.1 p id).startAbort e.2.unit 0x0101 else t.endCopies e.1 p id).RunsOrEnds c.unit
      ∧ (e = (k, c) ∨ (t.unit c.unit).EndsSo →
        ((if e.2.pkg = p ∧ e.2.kind ≠ .handler ∧ e.2.waitsOn id then (t.endCopies e.1 p id).startAbort e.2.unit 0x0101 else t.endCopies e.1 p id).unit c.unit).EndsSo) := fun t e ht => by
    obtain ⟨a, b⟩ := endCopies_step ht e.1 p id
    split
    · obtain ⟨a1, b1⟩ := startAbort_step a e.2.unit
      refine ⟨a1, fun he => b1 (he.imp (fun he => by rw [he]) b)⟩
    · next hn =>
      refine ⟨a, fun he => b (he.resolve_left fun he => hn (by rw [he]; exact ⟨hp, hh, hw⟩))⟩
  have h1 : (s1.unit c.unit).EndsSo :=
    foldl_reach (State.RunsOrEnds c.unit) (fun y e => e = (k, c) → (y.unit c.unit).EndsSo) (fun y x hy => (hstep y x hy).1) (fun y x hy hx => (hstep y x hy).2 (.inl hx))
      (fun y x j hy hq hj => (hstep y x hy).2 (.inr (hq hj))) s.ctxs s h0 (k, c) (.inl hk) rfl
  show (s2.unit c.unit).EndsSo
  unfold State.unit at h1 ⊢
  rw [h2]
  exact h1

/-! ### The ring of fault records -/

theorem OnlyPkg.sameBytes {s t : State} {p : Nat} (h : OnlyPkg s t p) : SameBytes s t := by
  obtain ⟨-, h2, -, h4, h5, -⟩ := h
  intro b
  cases b with
  | none => rfl
  | hbm k => unfold State.rdByte; rw [h4]
  | host k => unfold State.rdByte; rw [h5]
  | store u n => unfold State.rdByte State.unit; rw [h2]

theorem wrBytes_hbm_units (s : State) (k : Nat) (bs : List Byte) : (s.wrBytes (.hbm k) bs).units = s.units :=
  foldl_fst_induct (fun (t : State) => t.units = s.units) (fun (q : State × Nat) b => (q.1.wrByte ((Loc.hbm k).add q.2) b, q.2 + 1)) (fun _ _ h => h) bs (s, 0) rfl
theorem slotAt_loc {s : State} {l : Loc} {x : RedSlot} (h : s.slotAt l = some x) : x.loc = l := of_decide_eq_true (List.find?_some h :)
theorem releaseSpan_hbm_units (s : State) (k n : Nat) : (s.releaseSpan (.hbm k) n).units = s.units := by
  unfold State.releaseSpan
  dsimp only
  split
  · rfl
  · refine foldl_keeps State.units _ (fun t i => ?_) _ _
    split
    · next x hx =>
      unfold State.releaseSlot State.wrWord
      rw [slotAt_loc hx]
      exact wrBytes_hbm_units t _ _
    · rfl
theorem homeWrite_hbm_units (s : State) (src : Option (Nat × Nat)) (me : Option Nat) (k : Nat) (bs : List Byte) :
    (s.homeWrite src me (.hbm k) bs).units = s.units := by
  unfold State.homeWrite State.writeHome
  dsimp only
  split
  · rfl
  · have h1 := ((State.Calm.refl s).thaw (fun p y => (lineKeys k bs.length).contains y.key && (!false || decide (me = some (p * 16 + y.die))))).units
    refine Eq.trans ?_ h1
    refine ((State.Calm.refl _).foldl _ _ (fun t x ht => (ht.dcacheWrite _ _).dirWrite _ _)).units.trans ?_
    rw [wrBytes_hbm_units, releaseSpan_hbm_units]
theorem withFrecs_reg (q : Package) (l : List FRec) (o : Nat) : Package.reg { q with frecs := l } o = q.reg o := rfl
/-- A record of the ring is written, and is gone where it is answered. -/
def Package.recWritten (w id : Nat) (q : Package) : Package := { q.setFld 0x0618 63 32 (w + 1) with
  frecs := (q.frecs.map (fun x => if x.id = id then { x with written := true } else x)).filter (fun x => !(x.written && x.answered)) }
theorem Package.recWritten_reg (w id : Nat) (q : Package) (o : Nat) : (q.recWritten w id).reg o = (q.setFld 0x0618 63 32 (w + 1)).reg o :=
  withFrecs_reg ..
theorem frecordFlush {s : State} {p : Nat} {r : FRec} (h : (s.pkg p).frecs.find? (fun r => !r.written) = some r) (he : bits ((s.pkg p).reg 0x0608) 63 63 = 1)
    (hf : (s.pkg p).ringFull = false) : exec (.faultRecordFlush p) s = .next (s.writeFrec p) := by
  rw [exec_faultRecordFlush_eq, execFaultRecordFlush]
  refine if_pos ?_
  rw [Bool.and_eq_true, Bool.and_eq_true]
  refine ⟨⟨List.any_eq_true.mpr ⟨r, List.mem_of_find?_eq_some h, (List.find?_some h :)⟩, decide_eq_true he⟩, ?_⟩
  rw [hf] <;> rfl
theorem writeFrec_eq {s : State} {p : Nat} {r : FRec} (h : (s.pkg p).frecs.find? (fun r => !r.written) = some r) (he : bits ((s.pkg p).reg 0x0608) 63 63 = 1)
    (hf : (s.pkg p).ringFull = false) (w a : Nat) (hw : w = bits ((s.pkg p).reg 0x0618) 63 32)
    (ha : a = bits ((s.pkg p).reg 0x0608) 51 12 * 4096 + 32 * (w % 2 ^ (bits ((s.pkg p).reg 0x0608) 62 59 + 6))) :
    s.writeFrec p = (((s.homeWrite none (some (p * 16 + 8)) (.hbm (hbmKey p a)) (bytesOfNat 32 r.image)).modPkg p (Package.recWritten w r.id)).sendMsi p 0x0610) := by
  subst ha hw
  unfold State.writeFrec
  dsimp only
  rw [h]
  dsimp only
  rw [if_neg (by rw [hf]; unfold Package.fld; rw [he]; decide)]
  rfl
theorem faultRecordFlush_effect {s : State} {p : Nat} {r : FRec} (h : (s.pkg p).frecs.find? (fun r => !r.written) = some r)
    (he : bits ((s.pkg p).reg 0x0608) 63 63 = 1) (hf : (s.pkg p).ringFull = false) (w a : Nat) (hw : w = bits ((s.pkg p).reg 0x0618) 63 32)
    (ha : a = bits ((s.pkg p).reg 0x0608) 51 12 * 4096 + 32 * (w % 2 ^ (bits ((s.pkg p).reg 0x0608) 62 59 + 6))) :
    ∃ t, exec (.faultRecordFlush p) s = .next t ∧ (s.NoSlots → Stored s t (.hbm (hbmKey p a)) (bytesOfNat 32 r.image)) ∧ s.Told t p 0x0610
        ∧ t.ctxs = s.ctxs ∧ t.units = s.units ∧ t.grids = s.grids ∧ bits ((t.pkg p).reg 0x0618) 63 32 = (w + 1) % 2 ^ 32
        ∧ SameRegs (s.pkg p) (t.pkg p) [0x0618] := by
  refine ⟨_, frecordFlush h he hf, ?_⟩
  rw [writeFrec_eq h he hf w a hw ha]
  obtain ⟨t, ht⟩ : ∃ t, t = s.homeWrite none (some (p * 16 + 8)) (.hbm (hbmKey p a)) (bytesOfNat 32 r.image) := ⟨_, rfl⟩
  have hh : s.Homes t := ht ▸ (State.Homes.refl s).homeWrite ..
  have hreg : ∀ o, (t.pkg p).reg o = (s.pkg p).reg o := by
    refine Package.reg_congr (ht ▸ homeWrite_regs ..) ?_
    exact hh.pkgField (f := Package.boot) (fun _ => rfl) p
  have hu : t.units = s.units := ht ▸ homeWrite_hbm_units ..
  have hst : s.NoSlots → Stored s t (.hbm (hbmKey p a)) (bytesOfNat 32 r.image) := fun hq => ht ▸ State.homeWrite_stored hq _ _ (by trivial) _
  rw [← ht]
  have hreg2 : ∀ o, (((t.modPkg p (Package.recWritten w r.id)).sendMsi p 0x0610).pkg p).reg o = ((t.pkg p).setFld 0x0618 63 32 (w + 1)).reg o := fun o => by
    rw [State.sendMsi_pkg, State.pkg_modPkg_same, Package.recWritten_reg]
  have ho := (OnlyPkg.modPkg t p (Package.recWritten w r.id)).trans (.sendMsi _ p 0x0610)
  obtain ⟨o1, o2, o3, -⟩ := id ho
  refine ⟨fun hq => (hst hq).congr (.refl _) ho.sameBytes, ?_, o1.trans hh.ctxs, o2.trans hu, o3.trans hh.grids, ?_, fun o ho => ?_⟩
  · refine (State.sendMsi_told (t.modPkg p (Package.recWritten w r.id)) p 0x0610).congr ?_ ?_ rfl
    · exact hh.msis.symm
    · rw [State.pkg_modPkg_same, Package.recWritten_reg, Package.reg_setFld, if_neg (by decide), hreg]
  · rw [hreg2, Package.reg_setFld, if_pos rfl, bits_putBits_same _ _ (by decide) (by decide)]
  · rw [hreg2, Package.reg_setFld, if_neg (by simpa using ho), hreg]

/-! ### The obligation -/

theorem tfreply_kept {s : State} {p m : Nat} (t : State) (h : t = s.took p m) (off : Nat) : s.answer t p m off = s.ignored p m off := by rw [h]; rfl
/-- What is known of the state in which a reply acts. -/
theorem took_frecs (s : State) (p m : Nat) : ((s.took p m).pkg p).frecs = (s.pkg p).frecs := took_field s p m Package.frecs (fun _ _ => rfl)
theorem answer_frecs (s t : State) (p m off : Nat) : ((s.answer t p m off).pkg p).frecs = (t.pkg p).frecs := answer_field s t p m off Package.frecs (fun _ _ => rfl)
theorem gone_of_kind8 {s : State} {p m : Nat} {id : Word} {r : FRec}  (hr : (s.pkg p).frecs.find? (fun r => decide (r.id = id.toNat) && !r.answered) = some r) (off : Nat) :
    let t := s.answer ((s.took p m).modPkg p (fun q => { q.dropFrec id.toNat with poolUsed := q.poolUsed.filter (fun a => decide (a + 1 ≠ r.area)) })) p m off
    OnlyPkg s t p ∧ (t.pkg p).frecs = ((s.pkg p).frecs.map (fun r => if r.id = id.toNat then { r with answered := true } else r)).filter
        (fun r => !(r.written && r.answered)) ∧ (t.pkg p).poolUsed = (s.pkg p).poolUsed.filter (fun a => decide (a + 1 ≠ r.area)) := by
  obtain ⟨a, -, b⟩ := answered_modPkg s p m off (fun q => { q.dropFrec id.toNat with poolUsed := q.poolUsed.filter (fun a => decide (a + 1 ≠ r.area)) })
  refine ⟨a, ?_, ?_⟩
  · rw [b]
    show ((s.took p m).pkg p |>.dropFrec id.toNat).frecs = _
    rw [dropFrec_frecs, took_frecs]
  · rw [b]
    show ((s.took p m).pkg p).poolUsed.filter _ = _
    rw [took_field s p m Package.poolUsed (fun _ _ => rfl)]
/-- Settles O40: a retry only wakes what waits on the record, an unresolvable record aborts through every unit above, and the ring
takes the oldest record. -/
theorem faultReplies : Obligations.FaultReplies := by
  unfold Obligations.FaultReplies
  refine ⟨fun s p m id h hn => ?_, fun s p m id r h hr => ?_, fun s p r h he hf => faultRecordFlush_effect h he hf _ _ rfl rfl⟩
  · have hnone : ((s.took p m).pkg p).frecs.find? (fun r => decide (r.id = id.toNat) && !r.answered) = none := by
      rw [took_frecs, List.find?_eq_none]
      intro r hr he
      rw [Bool.and_eq_true] at he
      rw [hn r hr (of_decide_eq_true he.1)] at he
      exact absurd he.2 (by decide)
    rw [exec_retry h, exec_unresolvable h, tfreply_retry, tfreply_unresolvable, hnone]
    exact ⟨rfl, rfl⟩
  intro gone
  have hr' : ((s.took p m).pkg p).frecs.find? (fun r => decide (r.id = id.toNat) && !r.answered) = some r := by rw [took_frecs]; exact hr
  have e1 := exec_retry (id := id) h
  have e2 := exec_unresolvable (id := id) h
  rw [tfreply_retry, hr'] at e1
  rw [tfreply_unresolvable, hr'] at e2
  obtain ⟨hcx, hun, -⟩ := s.took_only p m
  refine ⟨fun hk => ?_, fun hk => ⟨⟨_, e1⟩, _, e2⟩, fun hk hp => ?_, fun hk k c hc hmem hcp hkind hw hu hru => ?_⟩
  · dsimp only at e1 e2
    rw [if_pos hk] at e1 e2
    exact ⟨_, e1, e2, gone_of_kind8 hr _⟩
  · dsimp only at e1
    rw [if_neg hk] at e1
    refine ⟨_, e1, ?_⟩
    obtain ⟨a1, a2, a3, a4, a5, a6, a7⟩ := retry_effect (s.took p m) p id.toNat (fun e he => hp e (hcx ▸ he))
    obtain ⟨b1, b2, b3, -⟩ := State.answer_only s ((s.took p m).retry p id.toNat) p m 0x0620
    rw [hcx] at a4 a5
    have hctx : ∀ k, (s.answer ((s.took p m).retry p id.toNat) p m 0x0620).ctx k = ((s.took p m).retry p id.toNat).ctx k := fun k => by unfold State.ctx; rw [b1]
    refine ⟨?_, ((s.took_only p m).sameBytes.trans a2).trans (State.answer_only s _ p m _).sameBytes, b2.trans (a3.trans hun), fun k c hk hcp l hl => ?_, fun k c hk => ?_, ?_, ?_⟩
    · show ((s.answer _ p m _).pkg p).frecs = _
      rw [answer_frecs, a1, dropFrec_frecs, took_frecs]
    · rw [hctx]; exact a4 k c hk hcp l hl
    · rw [hctx]; exact a5 k c hk
    · rw [b3]; exact a6
    · rw [answer_field _ _ _ _ _ Package.qwait (fun _ _ => rfl)]; exact a7
  · dsimp only at e2
    rw [if_neg hk] at e2
    have hunit : ∀ u, (s.took p m).unit u = s.unit u := fun u => by unfold State.unit; rw [hun]
    obtain ⟨n, hn, hm⟩ := unresolvable_effect (s := s.took p m) (hcx ▸ hmem) hcp hkind hw (by rw [hun]; exact hu) (by rw [hunit]; exact hru)
    refine ⟨_, n, e2, ?_, hm⟩
    obtain ⟨-, b2, -⟩ := State.answer_only s ((s.took p m).unresolvable p id.toNat) p m 0x0620
    unfold State.unit at hn ⊢
    rw [b2]
    exact hn

end Sys2Proof.Machine
end

section
/-! Dies stop, drain and come back (R19, R359, R423, R424). -/

namespace Sys2Proof.Machine

/-! ### Clocks -/

/-- What a package holds of a die whose clocks stop. -/
def Package.dieStops (d : Nat) (q : Package) : Package := { q with stopped := Sparse.put q.stopped d (q.dieCopy d), lag := Sparse.del q.lag d }
theorem Package.dieStops_fields (d : Nat) (q : Package) : (q.dieStops d).regs = q.regs ∧ (q.dieStops d).boot = q.boot
    ∧ (q.dieStops d).stopped = Sparse.put q.stopped d (q.dieCopy d) := ⟨rfl, rfl, rfl⟩
theorem stopDie_eq (s : State) (p d : Nat) : s.stopDie p d = s.modPkg p (Package.dieStops d) := rfl
/-- A wait moved by a stopped interval. -/
def Lane.putOff (n : Nat) (x : Lane) : Lane := match x.wait with | .sleep t => { x with wait := .sleep (t + n) } | _ => x
theorem Lane.putOff_sleep {n t : Nat} {x : Lane} (h : x.wait = .sleep t) : x.putOff n = { x with wait := .sleep (t + n) } := by
  unfold Lane.putOff; rw [h]
/-- What a package holds of a die whose clocks restart after n ticks. -/
def Package.diePutOff (d n : Nat) (q : Package) : Package := { q with
  combine := mapVals q.combine (fun k x => if k / 4096 = d ∧ x.st = CmbSt.opened then { x with deadline := later n x.deadline } else x)
  preq := mapVals q.preq (fun k t => if k / 256 = d then t + n else t) }
/-- A die whose clocks run. -/
def Package.dieFree (d : Nat) (q : Package) : Package := { q with stopped := Sparse.del q.stopped d }
theorem Package.diePutOff_fields (d n : Nat) (q : Package) : (q.diePutOff d n).regs = q.regs ∧ (q.diePutOff d n).boot = q.boot
    ∧ (q.diePutOff d n).stopped = q.stopped ∧ (q.diePutOff d n).preq = mapVals q.preq (fun k t => if k / 256 = d then t + n else t)
    ∧ (q.diePutOff d n).combine = mapVals q.combine (fun k x => if k / 4096 = d ∧ x.st = CmbSt.opened then { x with deadline := later n x.deadline } else x) :=
  ⟨rfl, rfl, rfl, rfl, rfl⟩
theorem Package.dieFree_fields (d : Nat) (q : Package) : (q.dieFree d).regs = q.regs ∧ (q.dieFree d).boot = q.boot
    ∧ (q.dieFree d).stopped = Sparse.del q.stopped d ∧ (q.dieFree d).preq = q.preq ∧ (q.dieFree d).combine = q.combine := ⟨rfl, rfl, rfl, rfl, rfl⟩
/-- A context of a die, or another, as the die's clocks restart. -/
def Ctx.dieGoes (s : State) (p d n : Nat) (c : Ctx) : Ctx := if c.pkg = p ∧ (!c.site.mast && decide (c.site.die = d)) = true then
      { c with
        lanes := mapVals c.lanes (fun _ x => x.putOff n)
        rq := c.rq.map (fun (r : RqEntry) => match r.copy with
          | some cd => r.mapChunks (fun x =>
              if x.st = 2 ∧ (s.copyEnds c cd x).any (fun (b : BulkEnds) => decide (b.src = p) && (!b.site.mast && decide (b.site.die = d))) = true then { x with window := x.window + n } else x)
          | none => r) }
      else c
def WUnit.dieGoes (p d n : Nat) (x : WUnit) : WUnit := if x.pkg = p ∧ (!x.site.mast && decide (x.site.die = d)) = true then { x with deadline := later n x.deadline } else x
theorem WUnit.dieGoes_store (p d n : Nat) (x : WUnit) : (x.dieGoes p d n).store = x.store := by unfold WUnit.dieGoes; split <;> rfl
theorem restartDie_some {s : State} {p d a : Nat} (h : Sparse.find (s.pkg p).stopped d = some a) :
    s.restartDie p d = ((State.modPkg { s with ctxs := mapVals s.ctxs (fun _ c => c.dieGoes s p d ((s.pkg p).count - a)), units := mapVals s.units (fun _ x => x.dieGoes p d ((s.pkg p).count - a)) } p
      (Package.diePutOff d ((s.pkg p).count - a)))).modPkg p (Package.dieFree d) := by
  unfold State.restartDie
  rw [h] <;> rfl
/-- What a restart does to the package, beside the parties of the die. -/
structure State.DieGoes (s t : State) (p d : Nat) : Prop where
  /-- no byte of storage -/
  bytes : SameBytes s t
  /-- grids -/
  grids : t.grids = s.grids
  /-- messages -/
  msis : t.msis = s.msis
  /-- other packages -/
  other : ∀ q, q ≠ p → t.pkg q = s.pkg q
  /-- registers -/
  reg : ∀ o, (t.pkg p).reg o = (s.pkg p).reg o
  /-- the die's clocks run -/
  free : Sparse.find (t.pkg p).stopped d = none
theorem restartDie_goes (s : State) (p d : Nat) : s.DieGoes (s.restartDie p d) p d := by
  cases h : Sparse.find (s.pkg p).stopped d with
  | none =>
    have e : s.restartDie p d = s := by unfold State.restartDie; rw [h]
    rw [e]
    exact ⟨.refl s, rfl, rfl, fun _ _ => rfl, fun _ => rfl, h⟩
  | some a =>
    rw [restartDie_some h]
    generalize (s.pkg p).count - a = n
    obtain ⟨f1, f2, f3, -⟩ := Package.dieFree_fields d ((s.pkg p).diePutOff d n)
    obtain ⟨g1, g2, -⟩ := Package.diePutOff_fields d n (s.pkg p)
    obtain ⟨u, hu⟩ : ∃ u : State, u = { s with ctxs := mapVals s.ctxs (fun _ c => c.dieGoes s p d n), units := mapVals s.units (fun _ x => x.dieGoes p d n) } := ⟨_, rfl⟩
    have hq : ∀ q, u.pkg q = s.pkg q := fun q => by rw [hu]; rfl
    have hb : SameBytes s u := fun b => by
      rw [hu]
      cases b with
      | none => rfl
      | hbm k => rfl
      | host k => rfl
      | store u o =>
        show Sparse.get 0 (((Sparse.find (mapVals s.units (fun _ x => x.dieGoes p d n)) u).getD {}).store) o = Sparse.get 0 ((Sparse.find s.units u).getD {}).store o
        rw [find_mapVals]
        cases Sparse.find s.units u with
        | none => rfl
        | some x => exact congrArg (fun y => Sparse.get 0 y o) (x.dieGoes_store p d n)
    have hg : u.grids = s.grids ∧ u.msis = s.msis := by rw [hu]; exact ⟨rfl, rfl⟩
    rw [← hu]
    have hp : ((u.modPkg p (Package.diePutOff d n)).modPkg p (Package.dieFree d)).pkg p = ((s.pkg p).diePutOff d n).dieFree d := by
      rw [State.pkg_modPkg_same, State.pkg_modPkg_same, hq]
    refine ⟨(hb.trans (SameBytes.modPkg u p _)).trans (SameBytes.modPkg _ p _), hg.1, hg.2, fun q hn => ?_, fun o => ?_, ?_⟩
    · rw [State.pkg_modPkg, if_neg hn, State.pkg_modPkg, if_neg hn, hq]
    · rw [hp]
      exact Package.reg_congr (f1.trans g1) (f2.trans g2) o
    · rw [hp, f3, Sparse.find_del, if_pos rfl]
theorem here_eq (x : Site) (d : Nat) : (!x.mast && decide (x.die = d)) = true ↔ x.mast = false ∧ x.die = d := by simp
theorem restartDie_parties {s : State} {p d a : Nat} (h : Sparse.find (s.pkg p).stopped d = some a) :
    let t := s.restartDie p d
    let n := (s.pkg p).count - a
    (∀ k c, Sparse.find s.ctxs k = some c → c.pkg = p → c.site.mast = false → c.site.die = d → ∀ l x, (c.lane l).wait = .sleep x →
            ((t.ctx k).lane l) = { c.lane l with wait := .sleep (x + n) })
         ∧ (∀ k c, Sparse.find s.ctxs k = some c → c.pkg ≠ p ∨ c.site.mast = true ∨ c.site.die ≠ d → t.ctx k = c)
         ∧ (∀ u w, Sparse.find s.units u = some w → w.pkg = p → w.site.mast = false → w.site.die = d →
            t.unit u = { w with deadline := w.deadline.map (fun x => x + n) })
         ∧ (∀ k, Sparse.find (t.pkg p).preq k = (Sparse.find (s.pkg p).preq k).map (fun x => if k / 256 = d then x + n else x))
         ∧ ∀ k, (t.pkg p).cmb k = if k / 4096 = d ∧ ((s.pkg p).cmb k).st = .opened
            then { (s.pkg p).cmb k with deadline := ((s.pkg p).cmb k).deadline.map (fun x => x + n) } else (s.pkg p).cmb k := by
  intro t n
  have ht : t = _ := restartDie_some h
  have hctx : ∀ k c, Sparse.find s.ctxs k = some c → t.ctx k = c.dieGoes s p d n := fun k c hk => by
    rw [ht]
    show (Sparse.find (mapVals s.ctxs (fun _ c => c.dieGoes s p d n)) k).getD {} = _
    rw [find_mapVals, hk]
    rfl
  have hpk : t.pkg p = ((s.pkg p).diePutOff d n).dieFree d := by rw [ht, State.pkg_modPkg_same, State.pkg_modPkg_same]; rfl
  obtain ⟨-, -, -, f4, f5⟩ := Package.dieFree_fields d ((s.pkg p).diePutOff d n)
  obtain ⟨-, -, -, g4, g5⟩ := Package.diePutOff_fields d n (s.pkg p)
  refine ⟨fun k c hk hp hm hd l x hx => ?_, fun k c hk hn => ?_, fun u w hu hp hm hd => ?_, fun k => ?_, fun k => ?_⟩
  · rw [hctx k c hk]
    unfold Ctx.dieGoes
    rw [if_pos ⟨hp, (here_eq ..).mpr ⟨hm, hd⟩⟩]
    unfold Ctx.lane at hx ⊢
    dsimp only
    rw [find_mapVals]
    cases hl : Sparse.find c.lanes l with
    | none => rw [hl] at hx; exact absurd hx (fun e => nomatch e)
    | some y =>
      rw [hl] at hx
      exact Lane.putOff_sleep hx
  · rw [hctx k c hk]
    unfold Ctx.dieGoes
    refine if_neg fun ⟨a, b⟩ => ?_
    obtain ⟨b1, b2⟩ := (here_eq ..).mp b
    rcases hn with hn | hn | hn
    · exact hn a
    · rw [b1] at hn; exact absurd hn (by decide)
    · exact hn b2
  · rw [ht]
    show (Sparse.find (mapVals s.units (fun _ x => x.dieGoes p d n)) u).getD {} = _
    rw [find_mapVals, hu]
    show w.dieGoes p d n = _
    unfold WUnit.dieGoes
    rw [if_pos ⟨hp, (here_eq ..).mpr ⟨hm, hd⟩⟩]
    rfl
  · rw [hpk, f4, g4, find_mapVals]
  · unfold Package.cmb Sparse.get
    rw [hpk, f5, g5, find_mapVals]
    cases Sparse.find (s.pkg p).combine k with
    | none => exact (if_neg (fun h => absurd h.2 (by decide))).symm
    | some x => rfl

/-! ### DIESVC -/

theorem regWrite_diesvc (s : State) (p : Nat) (v : DWord) : s.regWrite p 0x1000 v = s.diesvc p v := by
  unfold State.regWrite
  rw [if_neg (show ¬ plainMask 0x1000 ≠ 0 by decide), if_neg (by omega), if_neg (by omega), if_neg (by omega), if_neg (by omega), if_neg (by omega)] <;> rfl
theorem diesvc_code {d : Nat} (hd : d < 8) : bits (BitVec.ofNat 64 (2 ^ 62 + d)) 2 0 = d ∧ bits (BitVec.ofNat 64 (2 ^ 62 + d)) 63 62 = 1
    ∧ bits (BitVec.ofNat 64 (2 ^ 63 + d)) 2 0 = d ∧ bits (BitVec.ofNat 64 (2 ^ 63 + d)) 63 62 = 2 := by
  interval_cases d <;> decide
section
variable {s : State} {p m d : Nat} (h : MayWrite s p m 0x1000) (hd : d < 8)
include h hd
theorem exec_diesvcDrain : exec (.diesvcDrain p m d) s = .next (s.answer ((s.took p m).diesvc p (BitVec.ofNat 64 (2 ^ 62 + d))) p m 0x1000) := by
  rw [exec_diesvcDrain_eq, execDiesvcDrain, acts_answered h (by decide) _ _ (by simpa using hd), regWrite_diesvc]
theorem exec_diesvcReturn : exec (.diesvcReturn p m d) s = .next (s.answer ((s.took p m).diesvc p (BitVec.ofNat 64 (2 ^ 63 + d))) p m 0x1000) := by
  rw [exec_diesvcReturn_eq, execDiesvcReturn, acts_answered h (by decide) _ _ (by simpa using hd), regWrite_diesvc]
end
/-- A die that a drain takes out of placement. -/
def Package.drains (d : Nat) (q : Package) : Package := ((q.setFld 0x0008 (40 + d) (40 + d) 0).setFld 0x1008 63 63 1).setFld 0x1008 58 56 d
/-- A die that comes back. -/
def Package.returns (d : Nat) (q : Package) : Package := ((q.setFld 0x0008 (40 + d) (40 + d) 1).setFld 0x1008 (48 + d) (48 + d) 0).setFld 0x1008 58 56 d
theorem diesvc_drain (s : State) (p : Nat) {d : Nat} (hd : d < 8) : s.diesvc p (BitVec.ofNat 64 (2 ^ 62 + d)) =
    if bits ((s.pkg p).reg 0x1008) 63 63 = 1 ∨ bits ((s.pkg p).reg 0x1108) 63 63 = 1 then s
    else if (List.range 6).all (fun i => decide (bits ((s.pkg p).reg 0x1008) (48 + i) (48 + i) = 1) || decide (i = d)) then s
    else (s.modPkg p (Package.drains d)).moveOff p d := by
  obtain ⟨h1, h2, -⟩ := diesvc_code hd
  unfold State.diesvc
  dsimp only
  rw [h1, h2] <;> rfl
theorem diesvc_return (s : State) (p : Nat) {d : Nat} (hd : d < 8) : s.diesvc p (BitVec.ofNat 64 (2 ^ 63 + d)) =
    if bits ((s.pkg p).reg 0x1008) 63 63 = 1 ∨ bits ((s.pkg p).reg 0x1108) 63 63 = 1 then s
    else if ¬ (decide (bits ((s.pkg p).reg 0x1008) (48 + d) (48 + d) = 1)) = true then s
    else ((s.restartDie p d).modPkg p (Package.returns d)).packageEvent p := by
  obtain ⟨-, -, h1, h2⟩ := diesvc_code hd
  unfold State.diesvc
  dsimp only
  rw [h1, h2] <;> rfl
theorem all_last (q : Package) (d : Nat) : (List.range 6).all (fun i => decide (bits (q.reg 0x1008) (48 + i) (48 + i) = 1) || decide (i = d)) = true ↔
    ∀ i < 6, i ≠ d → bits (q.reg 0x1008) (48 + i) (48 + i) = 1 := by
  simp only [List.all_eq_true, List.mem_range, Bool.or_eq_true, decide_eq_true_eq]
  exact forall₂_congr fun i _ => ⟨fun h hn => h.resolve_right hn, fun h => or_iff_not_imp_right.mpr h⟩
theorem Package.dieUp_eq (q : Package) (d : Nat) : q.dieUp d = decide (bits (q.reg 0x0008) (40 + d) (40 + d) = 1) := rfl
theorem drains_reg (d : Nat) (q : Package) : (q.drains d).reg 0x0008 = putBits (q.reg 0x0008) (40 + d) (40 + d) 0
    ∧ (q.drains d).reg 0x1008 = putBits (putBits (q.reg 0x1008) 63 63 1) 58 56 d := by
  unfold Package.drains
  simp
theorem Package.setFld_stopped (q : Package) (o hi lo x : Nat) : (q.setFld o hi lo x).stopped = q.stopped := rfl
theorem returns_stopped (d : Nat) (q : Package) : (q.returns d).stopped = q.stopped := by
  unfold Package.returns
  rw [Package.setFld_stopped, Package.setFld_stopped, Package.setFld_stopped]
theorem returns_reg (d : Nat) (q : Package) : (q.returns d).reg 0x0008 = putBits (q.reg 0x0008) (40 + d) (40 + d) 1
    ∧ (q.returns d).reg 0x1008 = putBits (putBits (q.reg 0x1008) (48 + d) (48 + d) 0) 58 56 d ∧ (q.returns d).reg 0x0760 = q.reg 0x0760 := by
  unfold Package.returns
  simp

/-! ### Units that move off a die -/

/-- The unit is there, and runs or begins to move. -/
def State.RunsOrMoves (u : Nat) (s : State) : Prop := (Sparse.find s.units u).isSome = true ∧ ((s.unit u).st = .running ∨ (s.unit u).st = .moving false)
/-- Units change in nothing but that some begin to move; contexts may stop. -/
structure State.MovesOff (s t : State) : Prop where
  /-- no byte of storage -/
  bytes : SameBytes s t
  /-- packages -/
  pkgs : t.pkgs = s.pkgs
  /-- grids -/
  grids : t.grids = s.grids
  /-- units keep their kind -/
  same : ∀ u, (t.unit u).level = (s.unit u).level ∧ (t.unit u).split = (s.unit u).split ∧ (t.unit u).grid = (s.unit u).grid
  /-- a unit keeps its state, or begins to move -/
  st : ∀ u, (t.unit u).st = (s.unit u).st ∨ (t.unit u).st = .moving false ∧ ((s.unit u).st = .running ∨ (s.unit u).st = .moving false)
  /-- the units below a unit -/
  kids : ∀ u, t.childUnits u = s.childUnits u
  /-- the same units -/
  found : ∀ u, (Sparse.find t.units u).isSome = (Sparse.find s.units u).isSome
  /-- the cycle -/
  cycle : t.cycle = s.cycle

theorem State.MovesOff.refl (s : State) : s.MovesOff s := ⟨.refl s, rfl, rfl, fun _ => ⟨rfl, rfl, rfl⟩, fun _ => .inl rfl, fun _ => rfl, fun _ => rfl, rfl⟩
theorem State.MovesOff.trans {s t u : State} (h : s.MovesOff t) (h' : t.MovesOff u) : s.MovesOff u where
  bytes := h.bytes.trans h'.bytes
  pkgs := h'.pkgs.trans h.pkgs
  grids := h'.grids.trans h.grids
  same x := by
    obtain ⟨a, b, c⟩ := h.same x
    obtain ⟨a', b', c'⟩ := h'.same x
    exact ⟨a'.trans a, b'.trans b, c'.trans c⟩
  st x := by
    rcases h'.st x with e | ⟨e, f⟩
    · rw [e]; exact h.st x
    · refine .inr ⟨e, ?_⟩
      rcases h.st x with g | ⟨-, g⟩
      · rw [← g]; exact f
      · exact g
  kids x := (h'.kids x).trans (h.kids x)
  found x := (h'.found x).trans (h.found x)
  cycle := h'.cycle.trans h.cycle
theorem childUnits_adjust (m : Sparse WUnit) (n u : Nat) (f : WUnit → WUnit) (hf : ∀ x, (f x).parent = x.parent) :
    ((Sparse.adjust m n f).filter (fun e => decide (e.2.parent = u + 1))).map (·.1) = (m.filter (fun e => decide (e.2.parent = u + 1))).map (·.1) := by
  induction m with
  | nil => rfl
  | cons e m ih =>
    unfold Sparse.adjust
    split
    · rw [List.filter_cons, List.filter_cons, hf]
      split <;> simp
    · rw [List.filter_cons, List.filter_cons]
      split
      · rw [List.map_cons, List.map_cons, ih]
      · exact ih
/-- One unit changes in nothing that this relation follows, but that it may begin to move. -/
theorem State.MovesOff.modUnit (s : State) (n : Nat) (f : WUnit → WUnit)
    (hf : ∀ x, (f x).store = x.store ∧ (f x).level = x.level ∧ (f x).split = x.split ∧ (f x).grid = x.grid ∧ (f x).parent = x.parent)
    (hs : (f (s.unit n)).st = (s.unit n).st ∨ (f (s.unit n)).st = .moving false ∧ ((s.unit n).st = .running ∨ (s.unit n).st = .moving false)) :
    s.MovesOff (s.modUnit n f) := by
  have hu : ∀ u, (s.modUnit n f).unit u = s.unit u ∨ u = n ∧ (s.modUnit n f).unit u = f (s.unit u) := fun u => by
    by_cases hn : u = n
    · subst hn
      unfold State.unit State.modUnit
      rw [Sparse.find_adjust, if_pos rfl]
      cases Sparse.find s.units u with
      | none => exact .inl rfl
      | some x => exact .inr ⟨rfl, rfl⟩
    · exact .inl (State.unit_modUnit_ne _ _ _ _ hn)
  refine ⟨.modUnit s n f (fun x => (hf x).1), rfl, rfl, fun u => ?_, fun u => ?_, fun u => childUnits_adjust _ _ _ _ (fun x => (hf x).2.2.2.2), fun u => ?_, rfl⟩
  · rcases hu u with e | ⟨-, e⟩ <;> rw [e]
    · exact ⟨rfl, rfl, rfl⟩
    · obtain ⟨-, a, b, c, -⟩ := hf (s.unit u)
      exact ⟨a, b, c⟩
  · rcases hu u with e | ⟨rfl, e⟩ <;> rw [e]
    · exact .inl rfl
    · exact hs
  · unfold State.modUnit
    rw [Sparse.find_adjust]
    split
    · next e => rw [e]; cases Sparse.find s.units n <;> simp
    · rfl
theorem State.MovesOff.modCtx (s : State) (k : Nat) (f : Ctx → Ctx) : s.MovesOff (s.modCtx k f) :=
  ⟨.modCtx s k f, rfl, rfl, fun _ => ⟨rfl, rfl, rfl⟩, fun _ => .inl rfl, fun _ => rfl, fun _ => rfl, rfl⟩
theorem startMove_movesOff (s : State) (u : Nat) : s.MovesOff (s.startMove u) := by
  have hgo : (s.unit u).st = .running ∨ (s.unit u).st = .moving false → ∀ l : List Nat,
      s.MovesOff (l.foldl (fun s k => s.stopToMove k) (s.modUnit u (fun x => { x with st := .moving false, anyDie := false, drained := false }))) := fun h l => by
    refine foldl_induct (State.MovesOff s) _ (fun t k ht => ht.trans (.modCtx ..)) l _ ?_
    exact .modUnit s u _ (fun _ => ⟨rfl, rfl, rfl, rfl, rfl⟩) (.inr ⟨rfl, h⟩)
  unfold State.startMove
  split
  · next h => exact hgo (.inl h) _
  · next h => exact hgo (.inr h) _
  · exact .refl s
theorem startMove_moves {s : State} {u : Nat} (h : s.RunsOrMoves u) : ((s.startMove u).unit u).st = .moving false := by
  have hgo : ∀ l : List Nat, ((l.foldl (fun s k => s.stopToMove k) (s.modUnit u (fun x => { x with st := .moving false, anyDie := false, drained := false }))).unit u).st = .moving false := fun l => by
    have hf := foldl_keeps State.units (fun (s : State) k => s.stopToMove k) (fun _ _ => rfl) l (s.modUnit u (fun x => { x with st := .moving false, anyDie := false, drained := false }))
    unfold State.unit
    rw [hf]
    obtain ⟨x, hx⟩ := Option.isSome_iff_exists.mp h.1
    have := State.unit_modUnit s u (fun x => { x with st := .moving false, anyDie := false, drained := false }) x hx
    unfold State.unit at this
    rw [this]
  unfold State.startMove
  rcases h.2 with e | e <;> rw [e] <;> exact hgo _
/-- What a drain does to a unit in its turn. -/
def State.moveOne (p d : Nat) (s : State) (e : Nat × WUnit) : State :=
  if e.2.onDie p d && decide (e.2.st = .running) && s.movable e.2 && decide (s.areasFor e.1 ≤ (s.pkg p).poolCount) then
      (s.startMove e.1).modUnit e.1 (fun x => { x with anyDie := dieIsB d, drained := true })
  else s
theorem moveOff_eq (s : State) (p d : Nat) : s.moveOff p d = s.units.foldl (State.moveOne p d) s := rfl
theorem moveOne_movesOff (p d : Nat) (s : State) (e : Nat × WUnit) : s.MovesOff (s.moveOne p d e) := by
  unfold State.moveOne
  split
  · exact (startMove_movesOff s e.1).trans (.modUnit _ _ _ (fun _ => ⟨rfl, rfl, rfl, rfl, rfl⟩) (.inl rfl))
  · exact .refl s
theorem moveOff_movesOff (s : State) (p d : Nat) : s.MovesOff (s.moveOff p d) :=
  foldl_induct (State.MovesOff s) _ (fun t e ht => ht.trans (moveOne_movesOff p d t e)) _ _ (.refl s)
theorem State.MovesOff.areasFor {s t : State} (h : s.MovesOff t) (u : Nat) : t.areasFor u ≤ s.areasFor u := by
  unfold State.areasFor State.movedTeams
  obtain ⟨hl, hs, -⟩ := h.same u
  dsimp only
  rw [hl, hs, h.kids]
  refine Nat.add_le_add_right ?_ _
  split
  · exact Nat.le_refl _
  · rw [← List.countP_eq_length_filter, ← List.countP_eq_length_filter]
    refine List.countP_mono_left fun x _ hx => ?_
    rcases h.st x with e | ⟨e, -⟩
    · rw [← e]; exact hx
    · rw [e] at hx; exact absurd hx (by decide)
theorem State.MovesOff.runsOrMoves {s t : State} (h : s.MovesOff t) {u : Nat} (hu : s.RunsOrMoves u) : t.RunsOrMoves u := by
  refine ⟨(h.found u).trans hu.1, ?_⟩
  rcases h.st u with e | ⟨e, -⟩
  · rw [e]; exact hu.2
  · exact .inr e
/-- A unit of the die for which the pool has room moves. -/
theorem moveOff_moves {s : State} {p d u : Nat} {x : WUnit} (hf : Sparse.find s.units u = some x) (hm : (u, x) ∈ s.units) (hd : x.onDie p d = true)
    (hr : x.st = .running) (hv : s.movable x = true) (ha : s.areasFor u ≤ (s.pkg p).poolCount) : ((s.moveOff p d).unit u).st = .moving false := by
  have hu : s.unit u = x := by unfold State.unit; rw [hf]; rfl
  have h0 : s.RunsOrMoves u := ⟨by rw [hf]; rfl, .inl (by rw [hu]; exact hr)⟩
  rw [moveOff_eq]
  refine foldl_reach (State.MovesOff s) (fun t e => e = (u, x) → (t.unit u).st = .moving false) (fun t e ht => ht.trans (moveOne_movesOff p d t e))
    (fun t e ht he => ?_) (fun t e f ht hq hf => ?_) s.units s (.refl s) (u, x) (.inl hm) rfl
  · subst he
    have hpk : (t.pkg p).poolCount = (s.pkg p).poolCount := by unfold State.pkg; rw [ht.pkgs, ht.cycle]
    have hmv : t.movable x = s.movable x := by unfold State.movable State.grid; rw [ht.grids]
    unfold State.moveOne
    rw [if_pos]
    · have h1 := startMove_moves (ht.runsOrMoves h0)
      have h2 := (ht.trans (startMove_movesOff t u)).runsOrMoves h0
      obtain ⟨y, hy⟩ := Option.isSome_iff_exists.mp h2.1
      rw [State.unit_modUnit _ _ _ y hy]
      rw [State.unit, hy] at h1
      exact h1
    · dsimp only
      rw [hd, hr, hmv, hv, hpk]
      simpa using Nat.le_trans (ht.areasFor u) ha
  · rcases (moveOne_movesOff p d t e).st u with h1 | ⟨h1, -⟩
    · rw [h1]; exact hq hf
    · exact h1

/-! ### The obligation -/

theorem dieClockStop_effect {s : State} {p d : Nat} (hd : d < 8) (h : Sparse.find (s.pkg p).stopped d = none) : ∃ t, exec (.dieClockStop p d) s = .next t ∧ OnlyPkg s t p
      ∧ SameRegs (s.pkg p) (t.pkg p) [] ∧ t.msis = s.msis
      ∧ ∀ n, Sparse.find (t.pkg p).stopped n = if n = d then some ((s.pkg p).dieCopy d) else Sparse.find (s.pkg p).stopped n := by
  obtain ⟨f1, f2, f3⟩ := Package.dieStops_fields d (s.pkg p)
  refine ⟨s.modPkg p (Package.dieStops d), ?_, .modPkg s p _, ?_, rfl, fun n => ?_⟩
  · rw [exec_dieClockStop_eq, execDieClockStop, if_pos ⟨hd, by rw [h]; rfl⟩, stopDie_eq]
  · rw [State.pkg_modPkg_same]
    exact .of_regs f1 f2 _
  · rw [State.pkg_modPkg_same, f3, Sparse.find_put]
theorem dieDrainComplete_effect {s : State} {p d : Nat} (he : d = bits ((s.pkg p).reg 0x1008) 58 56) (hb : bits ((s.pkg p).reg 0x1008) 63 63 = 1) (hl : s.leftOn p d = 0)
    (hs : ∀ e ∈ (s.pkg p).shadows, e.die ≠ d) : ∃ t, exec (.dieDrainComplete p) s = .next t ∧ OnlyPkg s t p ∧ s.Told t p 0x0760
      ∧ SameRegs (s.pkg p) (t.pkg p) [0x1008] ∧ bits ((t.pkg p).reg 0x1008) 63 63 = 0 ∧ bits ((t.pkg p).reg 0x1008) (48 + d) (48 + d) = 1 := by
  have hd : d < 8 := he ▸ bits_lt _ 58 56
  have hx : exec (.dieDrainComplete p) s = .next ((s.modPkg p (fun q => (q.setFld 0x1008 63 63 0).setFld 0x1008 (48 + d) (48 + d) 1)).packageEvent p) := by
    have hn : (s.pkg p).shadows.filter (fun x => decide (x.die = d)) = [] := List.filter_eq_nil_iff.mpr fun x hx => by simpa using hs x hx
    have hany : (s.pkg p).shadows.any (fun x => decide (x.die = d)) = false := List.any_eq_false.mpr fun x hx => by simpa using hs x hx
    have hm : s.mergeShadows p (fun x => decide (x.die = d)) = s := by unfold State.mergeShadows; rw [hn]; rfl
    rw [exec_dieDrainComplete_eq, execDieDrainComplete]
    rw [show (s.pkg p).fld 0x1008 58 56 = d from he.symm, hm, if_pos ⟨hb, hl, by unfold State.mergeable; rw [hany] <;> rfl⟩]
  have hp : ((s.modPkg p (fun q => (q.setFld 0x1008 63 63 0).setFld 0x1008 (48 + d) (48 + d) 1)).packageEvent p).pkg p = ((s.pkg p).setFld 0x1008 63 63 0).setFld 0x1008 (48 + d) (48 + d) 1 := by
    unfold State.packageEvent
    rw [State.sendMsi_pkg, State.pkg_modPkg_same]
  refine ⟨_, hx, (OnlyPkg.modPkg s p _).trans (.sendMsi _ p _), (State.sendMsi_told (s.modPkg p (fun q => (q.setFld 0x1008 63 63 0).setFld 0x1008 (48 + d) (48 + d) 1)) p 0x0760).congr rfl ?_ rfl, ?_, ?_, ?_⟩
  · rw [State.pkg_modPkg_same]
    simp
  · rw [hp]; exact setFld2_same _ _ _ _ _ _ _ _
  · rw [hp, setFld2_reg, bits_putBits_other _ _ (Nat.le_refl _) (by omega) (by omega), bits_putBits_same _ _ (Nat.le_refl _) (by omega)] <;> rfl
  · rw [hp, setFld2_reg, bits_putBits_same _ _ (Nat.le_refl _) (by omega), show 48 + d + 1 - (48 + d) = 1 by omega] <;> rfl
/-- DIESVC's drain. -/
theorem drain_effect {s : State} {p m d : Nat} (h : MayWrite s p m 0x1000) (hd : d < 8) (hb : ¬ (bits ((s.pkg p).reg 0x1008) 63 63 = 1 ∨ bits ((s.pkg p).reg 0x1108) 63 63 = 1))
    (hl : ¬ ∀ i < 6, i ≠ d → bits ((s.pkg p).reg 0x1008) (48 + i) (48 + i) = 1) :
    ∃ t, exec (.diesvcDrain p m d) s = .next t ∧ (t.pkg p).dieUp d = false ∧ (∀ i, i ≠ d → (t.pkg p).dieUp i = (s.pkg p).dieUp i)
          ∧ bits ((t.pkg p).reg 0x1008) 63 63 = 1 ∧ bits ((t.pkg p).reg 0x1008) 58 56 = d ∧ SameBytes s t
          ∧ ∀ u x, Sparse.find s.units u = some x → (u, x) ∈ s.units → x.onDie p d = true → x.st = .running → s.movable x = true →
              s.areasFor u ≤ (s.pkg p).poolCount → (t.unit u).st = .moving false := by
  obtain ⟨s1, hs1⟩ : ∃ s1, s1 = (s.took p m).modPkg p (Package.drains d) := ⟨_, rfl⟩
  have hx : exec (.diesvcDrain p m d) s = .next (s.answer (s1.moveOff p d) p m 0x1000) := by
    rw [exec_diesvcDrain h hd, diesvc_drain _ _ hd, State.took_reg, State.took_reg, if_neg hb, if_neg, hs1]
    rw [all_last]
    simpa [State.took_reg] using hl
  have ho : OnlyPkg s s1 p := hs1 ▸ (s.took_only p m).trans (.modPkg _ p _)
  have hmv := moveOff_movesOff s1 p d
  obtain ⟨o1, o2, o3, -⟩ := id ho
  obtain ⟨r1, r2⟩ := drains_reg d ((s.took p m).pkg p)
  have hpk : (s1.moveOff p d).pkg p = ((s.took p m).pkg p).drains d := by
    have : (s1.moveOff p d).pkg p = s1.pkg p := by unfold State.pkg; rw [hmv.pkgs, hmv.cycle]
    rw [this, hs1, State.pkg_modPkg_same]
  have hup : ∀ i, ((s.answer (s1.moveOff p d) p m 0x1000).pkg p).dieUp i = decide (bits (putBits ((s.pkg p).reg 0x0008) (40 + d) (40 + d) 0) (40 + i) (40 + i) = 1) := fun i => by
    rw [Package.dieUp_eq, State.answer_reg, hpk, r1, State.took_reg]
  refine ⟨_, hx, ?_, fun i hi => ?_, ?_, ?_, ?_, fun u x hf hm hon hr hv ha => ?_⟩
  · rw [hup, bits_putBits_same _ _ (Nat.le_refl _) (by omega), Nat.zero_mod]
    rfl
  · rw [hup, bits_putBits_other _ _ (Nat.le_refl _) (by omega) (by omega), Package.dieUp_eq]
  · rw [State.answer_reg, hpk, r2, bits_putBits_other _ _ (by omega) (by omega) (by omega), bits_putBits_same _ _ (by omega) (by omega)] <;> rfl
  · rw [State.answer_reg, hpk, r2, bits_putBits_same _ _ (by omega) (by omega)]
    exact Nat.mod_eq_of_lt hd
  · exact (ho.sameBytes.trans hmv.bytes).trans (State.answer_only ..).sameBytes
  · have hu : ∀ t : State, t.units = (s1.moveOff p d).units → (t.unit u).st = .moving false := fun t ht => by
      unfold State.unit
      rw [ht]
      refine moveOff_moves (s := s1) (x := x) (by rw [o2]; exact hf) (by rw [o2]; exact hm) hon hr ?_ ?_
      · unfold State.movable State.grid at hv ⊢; rw [o3]; exact hv
      · have h1 : s1.areasFor u = s.areasFor u := by
          unfold State.areasFor State.movedTeams State.unit State.childUnits
          rw [o2]
        have h2 : (s1.pkg p).poolCount = (s.pkg p).poolCount := by
          unfold Package.poolCount Package.fld
          rw [hs1, State.pkg_modPkg_same]
          unfold Package.drains
          simp [State.took_reg]
        rw [h1, h2]
        exact ha
    obtain ⟨-, a2, -⟩ := State.answer_only s (s1.moveOff p d) p m 0x1000
    exact hu _ a2
/-- DIESVC's return. -/
theorem return_effect {s : State} {p m d : Nat} (h : MayWrite s p m 0x1000) (hd : d < 8) (hb : ¬ (bits ((s.pkg p).reg 0x1008) 63 63 = 1 ∨ bits ((s.pkg p).reg 0x1108) 63 63 = 1))
    (hl : bits ((s.pkg p).reg 0x1008) (48 + d) (48 + d) = 1) :
    ∃ t, exec (.diesvcReturn p m d) s = .next t ∧ (t.pkg p).dieUp d = true
          ∧ (∀ i, i ≠ d → (t.pkg p).dieUp i = (s.pkg p).dieUp i) ∧ bits ((t.pkg p).reg 0x1008) (48 + d) (48 + d) = 0
          ∧ Sparse.find (t.pkg p).stopped d = none ∧ s.Told t p 0x0760 ∧ SameBytes s t := by
  obtain ⟨s1, hs1⟩ : ∃ s1, s1 = (s.took p m).restartDie p d := ⟨_, rfl⟩
  have hx : exec (.diesvcReturn p m d) s = .next (s.answer ((s1.modPkg p (Package.returns d)).packageEvent p) p m 0x1000) := by
    rw [exec_diesvcReturn h hd, diesvc_return _ _ hd, State.took_reg, State.took_reg, if_neg hb, if_neg, hs1]
    rw [hl]
    decide
  have hg : (s.took p m).DieGoes s1 p d := hs1 ▸ restartDie_goes ..
  have hreg : ∀ o, (s1.pkg p).reg o = (s.pkg p).reg o := fun o => (hg.reg o).trans (State.took_reg ..)
  obtain ⟨r1, r2, r3⟩ := returns_reg d (s1.pkg p)
  have hpk : ((s1.modPkg p (Package.returns d)).packageEvent p).pkg p = (s1.pkg p).returns d := by
    unfold State.packageEvent
    rw [State.sendMsi_pkg, State.pkg_modPkg_same]
  have hup : ∀ i, ((s.answer ((s1.modPkg p (Package.returns d)).packageEvent p) p m 0x1000).pkg p).dieUp i
      = decide (bits (putBits ((s.pkg p).reg 0x0008) (40 + d) (40 + d) 1) (40 + i) (40 + i) = 1) := fun i => by
    rw [Package.dieUp_eq, State.answer_reg, hpk, r1, hreg]
  refine ⟨_, hx, ?_, fun i hi => ?_, ?_, ?_, ?_, ?_⟩
  · rw [hup, bits_putBits_same _ _ (Nat.le_refl _) (by omega), show 40 + d + 1 - (40 + d) = 1 by omega] <;> rfl
  · rw [hup, bits_putBits_other _ _ (Nat.le_refl _) (by omega) (by omega), Package.dieUp_eq]
  · rw [State.answer_reg, hpk, r2, bits_putBits_other _ _ (by omega) (by omega) (by omega), bits_putBits_same _ _ (by omega) (by omega), Nat.zero_mod]
  · rw [answer_field _ _ _ _ _ Package.stopped (fun _ _ => rfl), hpk, returns_stopped]
    exact hg.free
  · refine (State.sendMsi_told (s1.modPkg p (Package.returns d)) p 0x0760).congr ?_ ?_ (State.answer_msis ..)
    · exact (hg.msis.trans (s.took_msis p m)).symm
    · rw [State.pkg_modPkg_same, r3, hreg]
  · exact ((s.took_only p m).sameBytes.trans hg.bytes).trans (((OnlyPkg.modPkg s1 p _).trans (.sendMsi _ p _)).trans (State.answer_only ..)).sameBytes
/-- Clocks and drains, one part of O42. -/
theorem diesStopAndDrain : Claims.DiesStopAndDrain := by
  unfold Claims.DiesStopAndDrain
  refine ⟨fun s p d hd h => dieClockStop_effect hd h, fun s p d a h => ?_, fun s p m d hd h => ?_, fun s p hb => ?_⟩
  · have hg := restartDie_goes s p d
    refine ⟨s.restartDie p d, ?_, hg.bytes, hg.grids, fun o _ => hg.reg o, hg.msis, hg.free, hg.other, restartDie_parties h⟩
    rw [exec_dieClockRestart_eq, execDieClockRestart, if_pos (by rw [h]; rfl)]
  · intro q busy last
    refine ⟨fun hn => ?_, fun hb hl => drain_effect h hd hb hl, fun hb hn => ?_, fun hb hl => return_effect h hd hb hl⟩
    · rw [exec_diesvcDrain h hd, diesvc_drain _ _ hd, State.took_reg, State.took_reg]
      by_cases hb : busy
      · rw [if_pos hb] <;> rfl
      · rw [if_neg hb, if_pos] <;> [rfl; skip]
        rw [all_last]
        simpa [State.took_reg] using hn.resolve_left hb
    · rw [exec_diesvcReturn h hd, diesvc_return _ _ hd, State.took_reg, State.took_reg, if_neg hb, if_pos (by rw [hn]; decide)] <;> rfl
  · intro d hl hs
    exact dieDrainComplete_effect rfl hb hl hs

end Sys2Proof.Machine
end

section
/-! Planes and fabric ports (R259 to R261, R425). -/

namespace Sys2Proof.Machine

/-! ### Drains of logical planes -/

theorem Package.planeDead_eq (q : Package) (x : Nat) : q.planeDead x = decide (bits (q.reg 0x0508) (40 + x) (40 + x) = 1) := rfl
theorem Package.planeOf_eq (q : Package) (i : Nat) : q.planeOf i = bits (q.reg 0x0500) (3 * i + 2) (3 * i) := rfl
/-- A logical plane of a package that drains towards another place. -/
def Package.drainTo (i x a : Nat) (q : Package) : Package := { q.setFld 0x0508 (32 + i) (32 + i) 1 with switching := Sparse.put q.switching i (x, a) }
theorem Package.withSwitching_fields (q : Package) (l : Sparse (Nat × Nat)) : (∀ o, Package.reg { q with switching := l } o = q.reg o)
    ∧ Package.switching { q with switching := l } = l ∧ Package.portsDown { q with switching := l } = q.portsDown ∧ Package.retrain { q with switching := l } = q.retrain :=
  ⟨fun _ => rfl, rfl, rfl, rfl⟩
theorem Package.setFld_fields (q : Package) (o hi lo x : Nat) : (q.setFld o hi lo x).switching = q.switching ∧ (q.setFld o hi lo x).portsDown = q.portsDown
    ∧ (q.setFld o hi lo x).retrain = q.retrain := ⟨rfl, rfl, rfl⟩
theorem Package.drainTo_fields (i x a : Nat) (q : Package) : (∀ o, (q.drainTo i x a).reg o = (q.setFld 0x0508 (32 + i) (32 + i) 1).reg o)
    ∧ (q.drainTo i x a).switching = Sparse.put q.switching i (x, a) ∧ (q.drainTo i x a).portsDown = q.portsDown ∧ (q.drainTo i x a).retrain = q.retrain := by
  obtain ⟨a1, a2, a3, a4⟩ := Package.withSwitching_fields (q.setFld 0x0508 (32 + i) (32 + i) 1) (Sparse.put q.switching i (x, a))
  obtain ⟨-, b2, b3⟩ := q.setFld_fields 0x0508 (32 + i) (32 + i) 1
  exact ⟨a1, a2, a3.trans b2, a4.trans b3⟩
theorem drainPlane_eq (s : State) (p i x : Nat) : s.drainPlane p i x = s.modPkg p (Package.drainTo i x s.cycle) := rfl
/-- Where the first n logical planes go on, as a choice says; no other changes. -/
structure Package.Drained (q r : Package) (n : Nat) (g : Nat → Option Nat) : Prop where
  /-- registers -/
  regs : SameRegs q r [0x0508]
  /-- dead planes -/
  dead : ∀ x, r.planeDead x = q.planeDead x
  /-- ports counted -/
  count : bits (r.reg 0x0508) 31 24 = bits (q.reg 0x0508) 31 24
  /-- ports down -/
  down : r.portsDown = q.portsDown
  /-- ports that retrain -/
  retrain : r.retrain = q.retrain
  /-- where the planes go on -/
  goes : ∀ i < 8, r.planeTo i = if i < n then (g i).getD (q.planeTo i) else q.planeTo i
  /-- what drains -/
  drn : ∀ i < 8, bits (r.reg 0x0508) (32 + i) (32 + i) = if i < n ∧ (g i).isSome = true then 1 else bits (q.reg 0x0508) (32 + i) (32 + i)
theorem Package.Drained.refl (q : Package) (g : Nat → Option Nat) : q.Drained q 0 g :=
  ⟨.refl q _, fun _ => rfl, rfl, rfl, rfl, fun i _ => by simp, fun i _ => by simp⟩
theorem Package.Drained.keep {q r : Package} {n : Nat} {g : Nat → Option Nat} (h : q.Drained r n g) (hg : g n = none) : q.Drained r (n + 1) g where
  regs := h.regs
  dead := h.dead
  count := h.count
  down := h.down
  retrain := h.retrain
  goes i hi := by
    rw [h.goes i hi]
    by_cases e : i = n
    · subst e; simp [hg]
    · simp [show i < n + 1 ↔ i < n by omega]
  drn i hi := by
    rw [h.drn i hi]
    by_cases e : i = n
    · subst e; simp [hg]
    · simp [show i < n + 1 ↔ i < n by omega]
theorem Package.Drained.step {q r : Package} {n : Nat} {g : Nat → Option Nat} (h : q.Drained r n g) (hn : n < 8) {x : Nat} (hg : g n = some x) (a : Nat) :
    q.Drained (r.drainTo n x a) (n + 1) g := by
  obtain ⟨f1, f2, f3, f4⟩ := Package.drainTo_fields n x a r
  have hreg : (r.drainTo n x a).reg 0x0508 = putBits (r.reg 0x0508) (32 + n) (32 + n) 1 := by rw [f1, Package.reg_setFld, if_pos rfl]
  have hof : ∀ i, (r.drainTo n x a).planeTo i = if i = n then x else r.planeTo i := fun i => by
    unfold Package.planeTo
    rw [f2, Sparse.find_put]
    by_cases e : i = n
    · rw [if_pos e, if_pos e]
    · rw [if_neg e, if_neg e, Package.planeOf_eq, Package.planeOf_eq, f1, Package.reg_setFld, if_neg (by decide)] <;> rfl
  refine ⟨fun o ho => ?_, fun y => ?_, ?_, f3.trans h.down, f4.trans h.retrain, fun i hi => ?_, fun i hi => ?_⟩
  · rw [f1, SameRegs.setFld r (l := [0x0508]) (by simp) _ _ _ o ho]
    exact h.regs o ho
  · rw [← h.dead, Package.planeDead_eq, Package.planeDead_eq, hreg, bits_putBits_other _ _ (Nat.le_refl _) (by omega) (by omega)]
  · rw [hreg, bits_putBits_other _ _ (Nat.le_refl _) (by omega) (by omega), h.count]
  · rw [hof, h.goes i hi]
    by_cases e : i = n
    · subst e; simp [hg]
    · simp [e, show i < n + 1 ↔ i < n by omega]
  · rw [hreg]
    by_cases e : i = n
    · subst e
      rw [bits_putBits_same _ _ (Nat.le_refl _) (by omega), if_pos ⟨Nat.lt_succ_self _, by rw [hg]; rfl⟩, show 32 + i + 1 - (32 + i) = 1 by omega] <;> rfl
    · rw [bits_putBits_other _ _ (Nat.le_refl _) (by omega) (by omega), h.drn i hi]
      simp [show i < n + 1 ↔ i < n by omega]
/-- A pass over the logical planes, each of which goes on where a test of its own place says. -/
theorem foldl_drain {p : Nat} {f : State → Nat → State} {g : Nat → Option Nat} {s : State}
    (hf : ∀ (t : State) i, i < 8 → (∀ x, (t.pkg p).planeDead x = (s.pkg p).planeDead x) → (t.pkg p).planeTo i = (s.pkg p).planeTo i →
      f t i = match g i with | some x => t.drainPlane p i x | none => t) (n : Nat) (hn : n ≤ 8) :
    OnlyPkg s ((List.range n).foldl f s) p ∧ ((List.range n).foldl f s).msis = s.msis ∧ (s.pkg p).Drained (((List.range n).foldl f s).pkg p) n g := by
  induction n with
  | zero => exact ⟨.refl s p, rfl, .refl _ g⟩
  | succ n ih =>
    obtain ⟨a, b, c⟩ := ih (by omega)
    rw [List.range_succ, List.foldl_append, List.foldl_cons, List.foldl_nil]
    have hto := c.goes n (by omega)
    rw [if_neg (Nat.lt_irrefl n)] at hto
    rw [hf _ n (by omega) c.dead hto]
    cases hg : g n with
    | none => exact ⟨a, b, c.keep hg⟩
    | some x =>
      dsimp only
      rw [drainPlane_eq]
      refine ⟨a.trans (.modPkg _ p _), b, ?_⟩
      rw [State.pkg_modPkg_same]
      exact c.step (by omega) hg _

/-! ### Planes that die -/

/-- The next live plane. -/
theorem nextPlane_eq {q : Package} {x j : Nat} (hj : j < 7) (h : q.planeDead ((x + 1 + j) % 8) = false) (hb : ∀ k < j, q.planeDead ((x + 1 + k) % 8) = true) :
    q.nextPlane x = some ((x + 1 + j) % 8) := by
  unfold Package.nextPlane
  rw [List.find?_map, List.find?_range_eq_some.mpr ⟨by simpa using h, List.mem_range.mpr hj, fun k hk => by simpa using hb k hk⟩]
  rfl
/-- A plane that dies. -/
theorem planeDies_effect (s : State) {p x : Nat} (hx : x < 8) : OnlyPkg s (s.planeDies p x) p ∧ (s.planeDies p x).msis = s.msis
    ∧ SameRegs (s.pkg p) ((s.planeDies p x).pkg p) [0x0508] ∧ (∀ n, ((s.planeDies p x).pkg p).planeDead n = ((s.pkg p).planeDead n || decide (n = x)))
    ∧ bits (((s.planeDies p x).pkg p).reg 0x0508) 31 24 = bits ((s.pkg p).reg 0x0508) 31 24 ∧ ((s.planeDies p x).pkg p).portsDown = (s.pkg p).portsDown
    ∧ ∀ j < 7, (s.pkg p).planeDead ((x + 1 + j) % 8) = false → (∀ k < j, (s.pkg p).planeDead ((x + 1 + k) % 8) = true) →
          ∀ i < 8, (((s.planeDies p x).pkg p).planeTo i = if (s.pkg p).planeTo i = x then (x + 1 + j) % 8 else (s.pkg p).planeTo i)
            ∧ bits (((s.planeDies p x).pkg p).reg 0x0508) (32 + i) (32 + i) = if (s.pkg p).planeTo i = x then 1 else bits ((s.pkg p).reg 0x0508) (32 + i) (32 + i) := by
  obtain ⟨s1, hs1⟩ : ∃ s1, s1 = s.setFld p 0x0508 (40 + x) (40 + x) 1 := ⟨_, rfl⟩
  have hp : s1.pkg p = (s.pkg p).setFld 0x0508 (40 + x) (40 + x) 1 := by rw [hs1]; unfold State.setFld; rw [State.pkg_modPkg_same]
  have hr : (s1.pkg p).reg 0x0508 = putBits ((s.pkg p).reg 0x0508) (40 + x) (40 + x) 1 := by rw [hp, Package.reg_setFld, if_pos rfl]
  have ho : OnlyPkg s s1 p := hs1 ▸ .modPkg s p _
  have hm : s1.msis = s.msis := hs1 ▸ rfl
  have hregs : SameRegs (s.pkg p) (s1.pkg p) [0x0508] := hp ▸ SameRegs.setFld _ (by simp) _ _ _
  have hdead : ∀ n, (s1.pkg p).planeDead n = ((s.pkg p).planeDead n || decide (n = x)) := fun n => by
    rw [Package.planeDead_eq, Package.planeDead_eq, hr]
    by_cases e : n = x
    · subst e
      rw [bits_putBits_same _ _ (Nat.le_refl _) (by omega), show 40 + n + 1 - (40 + n) = 1 by omega]
      simp
    · rw [bits_putBits_other _ _ (Nat.le_refl _) (by omega) (by omega)]
      simp [e]
  have hcount : bits ((s1.pkg p).reg 0x0508) 31 24 = bits ((s.pkg p).reg 0x0508) 31 24 := by rw [hr, bits_putBits_other _ _ (Nat.le_refl _) (by omega) (by omega)]
  have hdown : (s1.pkg p).portsDown = (s.pkg p).portsDown := by rw [hp]; exact (Package.setFld_fields ..).2.1
  have hto : ∀ i, (s1.pkg p).planeTo i = (s.pkg p).planeTo i := fun i => by
    unfold Package.planeTo
    rw [Package.planeOf_eq, Package.planeOf_eq, hregs 0x0500 (by simp), hp, (Package.setFld_fields ..).1] <;> rfl
  have hdrn : ∀ i < 8, bits ((s1.pkg p).reg 0x0508) (32 + i) (32 + i) = bits ((s.pkg p).reg 0x0508) (32 + i) (32 + i) := fun i hi => by
    rw [hr, bits_putBits_other _ _ (Nat.le_refl _) (by omega) (by omega)]
  have he : s.planeDies p x = match (s1.pkg p).nextPlane x with
      | none => s1
      | some y => (List.range 8).foldl (fun s i => if (s.pkg p).planeTo i = x then s.drainPlane p i y else s) s1 := by rw [hs1]; rfl
  rw [he]
  cases hn : (s1.pkg p).nextPlane x with
  | none =>
    refine ⟨ho, hm, hregs, hdead, hcount, hdown, fun j hj hlive hb => ?_⟩
    rw [nextPlane_eq (q := s1.pkg p) hj (by rw [hdead, hlive]; simp; omega) (fun k hk => by rw [hdead, hb k hk]; rfl)] at hn
    exact absurd hn (by simp)
  | some y =>
    obtain ⟨a, b, c⟩ := foldl_drain (p := p) (f := fun s i => if (s.pkg p).planeTo i = x then s.drainPlane p i y else s)
      (g := fun i => if (s1.pkg p).planeTo i = x then some y else none) (s := s1) (fun t i _ _ ht => by
        rw [ht]
        split <;> rfl) 8 (Nat.le_refl 8)
    refine ⟨ho.trans a, b.trans hm, hregs.trans c.regs, fun n => (c.dead n).trans (hdead n), c.count.trans hcount, c.down.trans hdown, fun j hj hlive hb i hi => ?_⟩
    rw [nextPlane_eq (q := s1.pkg p) hj (by rw [hdead, hlive]; simp; omega) (fun k hk => by rw [hdead, hb k hk]; rfl)] at hn
    cases hn
    refine ⟨(c.goes i hi).trans ?_, (c.drn i hi).trans ?_⟩
    · rw [if_pos hi, hto]; split <;> rfl
    · rw [hdrn i hi, hto]
      by_cases e : (s.pkg p).planeTo i = x
      · rw [if_pos e, if_pos e, if_pos ⟨hi, rfl⟩]
      · rw [if_neg e, if_neg e, if_neg (fun h => absurd h.2 (by decide))]

/-- A plane that a party has made fail. -/
def Package.planeFails (x : Nat) (q : Package) : Package := { q with planeFail := q.planeFail ||| (1#8 <<< x) }
theorem Package.planeFails_fields (x : Nat) (q : Package) : (∀ o, (q.planeFails x).reg o = q.reg o) ∧ (q.planeFails x).switching = q.switching := ⟨fun _ => rfl, rfl⟩
theorem planeFailure_effect {s : State} {p x : Nat} (hx : x < 8) (h : (s.pkg p).planeDead x = false) : ∃ t, exec (.planeFailure p x) s = .next t ∧ OnlyPkg s t p
      ∧ SameRegs (s.pkg p) (t.pkg p) [0x0508] ∧ t.msis = s.msis ∧ (t.pkg p).planeDead x = true
      ∧ (∀ n < 8, n ≠ x → (t.pkg p).planeDead n = (s.pkg p).planeDead n)
      ∧ (∀ j < 7, (s.pkg p).planeDead ((x + 1 + j) % 8) = false → (∀ k < j, (s.pkg p).planeDead ((x + 1 + k) % 8) = true) →
          ∀ i < 8, ((t.pkg p).planeTo i = if (s.pkg p).planeTo i = x then (x + 1 + j) % 8 else (s.pkg p).planeTo i)
            ∧ bits ((t.pkg p).reg 0x0508) (32 + i) (32 + i) = if (s.pkg p).planeTo i = x then 1 else bits ((s.pkg p).reg 0x0508) (32 + i) (32 + i)) := by
  obtain ⟨s1, hs1⟩ : ∃ s1, s1 = s.modPkg p (Package.planeFails x) := ⟨_, rfl⟩
  have hp : s1.pkg p = (s.pkg p).planeFails x := by rw [hs1, State.pkg_modPkg_same]
  obtain ⟨f1, f2⟩ := (s.pkg p).planeFails_fields x
  have hreg : ∀ o, (s1.pkg p).reg o = (s.pkg p).reg o := fun o => by rw [hp, f1]
  have hdead : ∀ n, (s1.pkg p).planeDead n = (s.pkg p).planeDead n := fun n => by rw [Package.planeDead_eq, Package.planeDead_eq, hreg]
  have hto : ∀ i, (s1.pkg p).planeTo i = (s.pkg p).planeTo i := fun i => by
    unfold Package.planeTo
    rw [Package.planeOf_eq, Package.planeOf_eq, hreg, hp, f2] <;> rfl
  have hx' : exec (.planeFailure p x) s = .next (s1.planeDies p x) := by
    rw [exec_planeFailure_eq, execPlaneFailure, if_pos ⟨hx, h⟩, hs1] <;> rfl
  obtain ⟨a, b, c, d, -, -, e⟩ := planeDies_effect s1 (p := p) hx
  refine ⟨_, hx', OnlyPkg.trans (hs1 ▸ .modPkg s p _) a, fun o ho => (c o ho).trans (hreg o), b.trans (hs1 ▸ rfl), ?_, fun n _ hn => ?_, fun j hj hl hb i hi => ?_⟩
  · rw [d]; simp
  · rw [d, hdead]; simp [hn]
  · obtain ⟨e1, e2⟩ := e j hj (by rw [hdead, hl]) (fun k hk => by rw [hdead, hb k hk]) i hi
    rw [e1, e2, hto, hreg]
    exact ⟨rfl, rfl⟩

/-! ### Ports -/

/-- A package with a mask of ports that are down. -/
def Package.withDown (m : BitVec 24) (q : Package) : Package := { q with portsDown := m }
theorem Package.withDown_fields (m : BitVec 24) (q : Package) : (∀ o, (q.withDown m).reg o = q.reg o) ∧ (q.withDown m).portsDown = m ∧ (q.withDown m).retrain = q.retrain
    ∧ (q.withDown m).switching = q.switching := ⟨fun _ => rfl, rfl, rfl, rfl⟩
/-- Ports that are down. -/
def downCount (m : BitVec 24) : Nat := ((List.range 24).filter (fun i => m.getLsbD i)).length
theorem downCount_le (m : BitVec 24) : downCount m ≤ 24 := (List.length_filter_le ..).trans (by simp)
theorem livePorts_eq (q : Package) : 24 - q.livePorts = downCount q.portsDown := by
  have h := List.length_eq_length_filter_add (l := List.range 24) (fun i => q.portsDown.getLsbD i)
  unfold Package.livePorts downCount
  rw [List.length_range] at h
  omega
theorem countPorts_eq (q : Package) : q.countPorts = q.setFld 0x0508 31 24 (downCount q.portsDown) := by
  unfold Package.countPorts; rw [livePorts_eq]
/-- A change of the ports that are down, counted. -/
theorem countPorts_reg (q : Package) : bits (q.countPorts.reg 0x0508) 31 24 = downCount q.portsDown ∧ (∀ h l, h < 24 ∨ 31 < l → bits (q.countPorts.reg 0x0508) h l = bits (q.reg 0x0508) h l)
    ∧ SameRegs q q.countPorts [0x0508] := by
  rw [countPorts_eq]
  refine ⟨?_, fun h l hl => ?_, SameRegs.setFld q (by simp) _ _ _⟩
  · rw [Package.reg_setFld, if_pos rfl, bits_putBits_same _ _ (by decide) (by decide)]
    exact Nat.mod_eq_of_lt ((downCount_le _).trans_lt (by decide))
  · rw [Package.reg_setFld, if_pos rfl, bits_putBits_other _ _ (by decide) (by decide) hl]
theorem one_shift (n i : Nat) (hn : n < 24) (hi : i < 24) : (1#24 <<< n).getLsbD i = decide (i = n) := by
  have h : ∀ n i : Fin 24, (1#24 <<< n.val).getLsbD i.val = decide (i.val = n.val) := by decide
  exact h ⟨n, hn⟩ ⟨i, hi⟩
theorem planePorts_bit (x i : Nat) (hx : x < 8) (hi : i < 24) : (planePorts x).getLsbD i = decide (i / 3 = x) := by
  have h : ∀ (x : Fin 8) (i : Fin 24), (planePorts x.val).getLsbD i.val = decide (i.val / 3 = x.val) := by decide
  exact h ⟨x, hx⟩ ⟨i, hi⟩
theorem extract_three (m : BitVec 24) {x : Nat} (hx : x < 8) : m.extractLsb' (3 * x) 3 = 7 ↔ ∀ i < 24, i / 3 = x → m.getLsbD i = true := by
  have h7 : ∀ k, (7 : BitVec 3).getLsbD k = decide (k < 3) := fun k => by
    by_cases hk : k < 3
    · interval_cases k <;> decide
    · rw [BitVec.getLsbD_of_ge _ _ (by omega)]; simp [hk]
  constructor
  · intro h i hi hix
    have := congrArg (fun v : BitVec 3 => v.getLsbD (i - 3 * x)) h
    rw [BitVec.getLsbD_extractLsb', h7, decide_eq_true (show i - 3 * x < 3 by omega), Bool.true_and, show 3 * x + (i - 3 * x) = i by omega] at this
    exact this
  · intro h
    refine BitVec.eq_of_getLsbD_eq fun k hk => ?_
    rw [BitVec.getLsbD_extractLsb', h7, decide_eq_true hk, Bool.true_and]
    exact h _ (by omega) (by omega)

/-- What a port's failure leaves of the ports. -/
theorem portDown_effect (q : Package) {n : Nat} (hn : n < 24) : let r := (q.withDown (q.portsDown ||| (1#24 <<< n))).countPorts
    SameRegs q r [0x0508] ∧ (∀ i < 24, r.portsDown.getLsbD i = (q.portsDown.getLsbD i || decide (i = n))) ∧ bits (r.reg 0x0508) 31 24 = downCount r.portsDown
    ∧ ∀ x, r.planeDead x = q.planeDead x := by
  intro r
  obtain ⟨f1, f2, -⟩ := Package.withDown_fields (q.portsDown ||| (1#24 <<< n)) q
  obtain ⟨c1, c2, c3⟩ := countPorts_reg (q.withDown (q.portsDown ||| (1#24 <<< n)))
  have hd : r.portsDown = q.portsDown ||| (1#24 <<< n) := by
    have : r.portsDown = (q.withDown (q.portsDown ||| (1#24 <<< n))).portsDown := (Package.setFld_fields ..).2.1
    rw [this, f2]
  refine ⟨fun o ho => (c3 o ho).trans (f1 o), fun i hi => ?_, ?_, fun x => ?_⟩
  · rw [hd, BitVec.getLsbD_or, one_shift n i hn hi]
  · rw [hd, c1, f2]
  · rw [Package.planeDead_eq, Package.planeDead_eq, c2 _ _ (by omega), f1]
theorem portFailure_effect {s : State} {p n : Nat} (hn : n < 24) (h : (s.pkg p).portsDown.getLsbD n = false) : ∃ t, exec (.fabricPortFailure p n) s = .next t ∧ OnlyPkg s t p
      ∧ SameRegs (s.pkg p) (t.pkg p) [0x0508] ∧ t.msis = s.msis ∧ (∀ i < 24, (t.pkg p).portsDown.getLsbD i = ((s.pkg p).portsDown.getLsbD i || decide (i = n)))
      ∧ bits ((t.pkg p).reg 0x0508) 31 24 = ((List.range 24).filter (fun i => (t.pkg p).portsDown.getLsbD i)).length
      ∧ ((∀ i < 24, i / 3 = n / 3 → (t.pkg p).portsDown.getLsbD i = true) → (t.pkg p).planeDead (n / 3) = true)
      ∧ (¬ (∀ i < 24, i / 3 = n / 3 → (t.pkg p).portsDown.getLsbD i = true) → ∀ x < 8, (t.pkg p).planeDead x = (s.pkg p).planeDead x) := by
  obtain ⟨s1, hs1⟩ : ∃ s1, s1 = s.modPkg p (fun q => (q.withDown (q.portsDown ||| (1#24 <<< n))).countPorts) := ⟨_, rfl⟩
  have hp : s1.pkg p = ((s.pkg p).withDown ((s.pkg p).portsDown ||| (1#24 <<< n))).countPorts := by rw [hs1, State.pkg_modPkg_same]
  have ho : OnlyPkg s s1 p := hs1 ▸ .modPkg s p _
  have hm : s1.msis = s.msis := hs1 ▸ rfl
  have hx' : exec (.fabricPortFailure p n) s = if (s1.pkg p).portsDown.extractLsb' (3 * (n / 3)) 3 = 7 ∧ (s1.pkg p).planeDead (n / 3) = false then .next (s1.planeDies p (n / 3)) else .next s1 := by
    rw [exec_fabricPortFailure_eq, execFabricPortFailure, if_pos ⟨hn, h⟩, hs1] <;> rfl
  obtain ⟨a, b, c, d⟩ := portDown_effect (s.pkg p) hn
  rw [← hp] at a b c d
  have h3 : n / 3 < 8 := by omega
  have he := extract_three (s1.pkg p).portsDown h3
  by_cases hall : (s1.pkg p).portsDown.extractLsb' (3 * (n / 3)) 3 = 7 ∧ (s1.pkg p).planeDead (n / 3) = false
  · rw [if_pos hall] at hx'
    obtain ⟨e1, e2, e3, e4, e5, e6, -⟩ := planeDies_effect s1 (p := p) h3
    refine ⟨_, hx', ho.trans e1, a.trans e3, e2.trans hm, ?_, ?_, fun _ => ?_, fun hno => ?_⟩
    · rw [e6]; exact b
    · rw [e5, c, e6]; rfl
    · rw [e4]; simp
    · rw [e6] at hno
      exact absurd (he.mp hall.1) hno
  · rw [if_neg hall] at hx'
    refine ⟨_, hx', ho, a, hm, b, c, fun hy => ?_, fun _ x _ => d x⟩
    by_contra hc
    exact hall ⟨he.mpr hy, by simpa using hc⟩

/-! ### PLANEMAP -/

theorem regWrite_planemap (s : State) (p : Nat) (v : DWord) : s.regWrite p 0x0500 v = s.planemap p v := by
  unfold State.regWrite
  rw [if_neg (show ¬ plainMask 0x0500 ≠ 0 by decide), if_neg (by omega), if_neg (by omega), if_neg (by omega), if_neg (by omega), if_neg (by omega)] <;> rfl
theorem planemap_effect {s : State} {p m : Nat} {v : DWord} (h : MayWrite s p m 0x0500) : ∃ t, exec (.planemapWrite p m v) s = .next t ∧ OnlyPkg s t p
      ∧ SameRegs (s.pkg p) (t.pkg p) [0x0508] ∧ t.msis = s.msis ∧ (∀ x < 8, (t.pkg p).planeDead x = (s.pkg p).planeDead x)
      ∧ ∀ i < 8, let x := bits v (3 * i + 2) (3 * i)
          (t.pkg p).planeTo i = if (s.pkg p).planeDead x then (s.pkg p).planeTo i else x := by
  have hx : exec (.planemapWrite p m v) s = .next (s.answer ((s.took p m).planemap p v) p m 0x0500) := by
    rw [exec_planemapWrite_eq, execPlanemapWrite, acts_answered h (by decide) _ _ rfl, regWrite_planemap]
  obtain ⟨a, b, c⟩ := foldl_drain (p := p) (s := s.took p m)
    (f := fun s i => if bits v (3 * i + 2) (3 * i) = (s.pkg p).planeTo i ∨ (s.pkg p).planeDead (bits v (3 * i + 2) (3 * i)) then s else s.drainPlane p i (bits v (3 * i + 2) (3 * i)))
    (g := fun i => if bits v (3 * i + 2) (3 * i) = ((s.took p m).pkg p).planeTo i ∨ ((s.took p m).pkg p).planeDead (bits v (3 * i + 2) (3 * i)) then none else some (bits v (3 * i + 2) (3 * i)))
    (fun t i _ hd ht => by
      rw [ht, hd]
      split <;> rfl) 8 (Nat.le_refl 8)
  have hb : ∀ x, ((s.took p m).pkg p).planeDead x = (s.pkg p).planeDead x := fun x => by rw [Package.planeDead_eq, Package.planeDead_eq, State.took_reg]
  have ht : ∀ i, ((s.took p m).pkg p).planeTo i = (s.pkg p).planeTo i := fun i => took_field s p m (fun q => q.planeTo i) (fun _ _ => rfl)
  refine ⟨_, hx, ((s.took_only p m).trans a).trans (State.answer_only ..), fun o ho => ?_, ?_, fun x _ => ?_, fun i hi => ?_⟩
  · rw [State.answer_reg]
    exact (c.regs o ho).trans (State.took_reg ..)
  · exact (State.answer_msis ..).trans (b.trans (s.took_msis p m))
  · rw [answer_field _ _ _ _ _ (fun q => q.planeDead x) (fun _ _ => rfl)]
    exact (c.dead x).trans (hb x)
  · intro x
    rw [answer_field _ _ _ _ _ (fun q => q.planeTo i) (fun _ _ => rfl)]
    refine (c.goes i hi).trans ?_
    rw [if_pos hi, hb, ht]
    by_cases e1 : (s.pkg p).planeDead x = true
    · rw [if_pos (Or.inr e1), if_pos e1] <;> rfl
    · rw [if_neg e1]
      by_cases e2 : x = (s.pkg p).planeTo i
      · rw [if_pos (Or.inl e2)]; exact e2.symm
      · rw [if_neg (by rintro (h | h); exacts [e2 h, e1 h])] <;> rfl

/-! ### A plane that has drained -/

/-- A logical plane that drains no more. -/
def Package.switched (i : Nat) (q : Package) : Package := { q.setFld 0x0508 (32 + i) (32 + i) 0 with switching := Sparse.del q.switching i }
/-- A remap recorded. -/
def Package.remapped (i x : Nat) (q : Package) : Package := (q.setFld 0x0500 (3 * i + 2) (3 * i) x).setFld 0x0508 23 0 (min (q.fld 0x0508 23 0 + 1) (2 ^ 24 - 1))
theorem Package.switched_fields (i : Nat) (q : Package) : (∀ o, (q.switched i).reg o = (q.setFld 0x0508 (32 + i) (32 + i) 0).reg o)
    ∧ (q.switched i).switching = Sparse.del q.switching i := by
  obtain ⟨a1, a2, -⟩ := Package.withSwitching_fields (q.setFld 0x0508 (32 + i) (32 + i) 0) (Sparse.del q.switching i)
  exact ⟨a1, a2⟩
theorem Package.remapped_fields (i x : Nat) (q : Package) : (q.remapped i x).reg 0x0500 = putBits (q.reg 0x0500) (3 * i + 2) (3 * i) x
    ∧ (q.remapped i x).reg 0x0508 = putBits (q.reg 0x0508) 23 0 (min (bits (q.reg 0x0508) 23 0 + 1) (2 ^ 24 - 1))
    ∧ SameRegs q (q.remapped i x) [0x0500, 0x0508] ∧ (q.remapped i x).switching = q.switching := by
  unfold Package.remapped Package.fld
  refine ⟨?_, ?_, (SameRegs.setFld q (l := [0x0500, 0x0508]) (by simp) _ _ _).trans (SameRegs.setFld _ (by simp) _ _ _), ?_⟩
  · rw [Package.reg_setFld, if_neg (by decide), Package.reg_setFld, if_pos rfl]
  · rw [Package.reg_setFld, if_pos rfl, Package.reg_setFld, if_neg (by decide)]
  · rw [(Package.setFld_fields ..).1, (Package.setFld_fields ..).1]
theorem planeSwitch_effect {s : State} {p i x a : Nat} (hi : i < 8) (hx : x < 8) (h : Sparse.find (s.pkg p).switching i = some (x, a)) (ha : a < s.cycle) :
    ∃ t, planeSwitch p i s = .next t ∧ OnlyPkg s t p
      ∧ SameRegs (s.pkg p) (t.pkg p) [0x0500, 0x0508] ∧ s.Told t p 0x0760 ∧ (t.pkg p).planeOf i = x ∧ Sparse.find (t.pkg p).switching i = none
      ∧ (∀ j < 8, j ≠ i → (t.pkg p).planeOf j = (s.pkg p).planeOf j) ∧ bits ((t.pkg p).reg 0x0508) (32 + i) (32 + i) = 0
      ∧ bits ((t.pkg p).reg 0x0508) 23 0 = min (bits ((s.pkg p).reg 0x0508) 23 0 + 1) (2 ^ 24 - 1) := by
  obtain ⟨s1, hs1⟩ : ∃ s1, s1 = (s.modPkg p (Package.switched i)).modPkg p (Package.remapped i x) := ⟨_, rfl⟩
  have he : planeSwitch p i s = .next (s1.packageEvent p) := by
    unfold planeSwitch
    rw [h]
    dsimp only
    rw [if_pos ha, hs1] <;> rfl
  have hp : s1.pkg p = ((s.pkg p).switched i).remapped i x := by rw [hs1, State.pkg_modPkg_same, State.pkg_modPkg_same]
  have hpe : (s1.packageEvent p).pkg p = ((s.pkg p).switched i).remapped i x := by unfold State.packageEvent; rw [State.sendMsi_pkg, hp]
  obtain ⟨f1, f2⟩ := (s.pkg p).switched_fields i
  obtain ⟨g1, g2, g3, g4⟩ := ((s.pkg p).switched i).remapped_fields i x
  have hr8 : (s.pkg p |>.switched i).reg 0x0508 = putBits ((s.pkg p).reg 0x0508) (32 + i) (32 + i) 0 := by rw [f1, Package.reg_setFld, if_pos rfl]
  have hr0 : (s.pkg p |>.switched i).reg 0x0500 = (s.pkg p).reg 0x0500 := by rw [f1, Package.reg_setFld, if_neg (by decide)]
  have hsame : SameRegs (s.pkg p) ((s.pkg p).switched i) [0x0500, 0x0508] := fun o ho => by
    rw [f1]; exact SameRegs.setFld (s.pkg p) (l := [0x0500, 0x0508]) (by simp) _ _ _ o ho
  refine ⟨_, he, OnlyPkg.trans (hs1 ▸ (OnlyPkg.modPkg s p _).trans (.modPkg _ p _)) (.sendMsi _ p _), ?_, ?_, ?_, ?_, fun j hj hn => ?_, ?_, ?_⟩
  · rw [hpe]; exact hsame.trans g3
  · refine (State.sendMsi_told s1 p 0x0760).congr (hs1 ▸ rfl) ?_ rfl
    rw [hp, g3 _ (by simp), hsame _ (by simp)]
  · rw [hpe, Package.planeOf_eq, g1, bits_putBits_same _ _ (by omega) (by omega), show 3 * i + 2 + 1 - 3 * i = 3 by omega]
    exact Nat.mod_eq_of_lt hx
  · rw [hpe, g4, f2, Sparse.find_del, if_pos rfl]
  · rw [hpe, Package.planeOf_eq, Package.planeOf_eq, g1, bits_putBits_other _ _ (by omega) (by omega) (by omega), hr0]
  · rw [hpe, g2, bits_putBits_other _ _ (by omega) (by omega) (by omega), hr8, bits_putBits_same _ _ (Nat.le_refl _) (by omega), Nat.zero_mod]
  · rw [hpe, g2, bits_putBits_same _ _ (by omega) (by omega), hr8, bits_putBits_other _ _ (by omega) (by omega) (by omega)]
    exact Nat.mod_eq_of_lt (by omega)

/-! ### PLANESVC -/

theorem regWrite_planesvc (s : State) (p : Nat) (v : DWord) : s.regWrite p 0x1010 v = s.modPkg p (fun q => q.planesvc v) := by
  unfold State.regWrite
  rw [if_neg (show ¬ plainMask 0x1010 ≠ 0 by decide), if_neg (by omega), if_neg (by omega), if_neg (by omega), if_neg (by omega), if_neg (by omega)] <;> rfl
/-- A package with masks of ports that are down and that retrain. -/
def Package.withPorts (m r : BitVec 24) (q : Package) : Package := { q with portsDown := m, retrain := r }
theorem Package.withPorts_fields (m r : BitVec 24) (q : Package) : (∀ o, (q.withPorts m r).reg o = q.reg o) ∧ (q.withPorts m r).portsDown = m ∧ (q.withPorts m r).retrain = r
    ∧ (q.withPorts m r).switching = q.switching := ⟨fun _ => rfl, rfl, rfl, rfl⟩
theorem countPorts_fields (q : Package) : q.countPorts.switching = q.switching ∧ q.countPorts.portsDown = q.portsDown ∧ q.countPorts.retrain = q.retrain := q.setFld_fields ..
/-- A plane taken out of service. -/
def Package.planeOut (x : Nat) (q : Package) : Package :=
  (((q.setFld 0x1010 x x 1).setFld 0x0508 (40 + x) (40 + x) 1).withPorts (q.portsDown ||| planePorts x) (q.retrain &&& ~~~planePorts x)).countPorts
/-- A plane whose ports retrain. -/
def Package.planeBack (x : Nat) (q : Package) : Package := (q.setFld 0x1010 x x 0).withPorts q.portsDown (q.retrain ||| planePorts x)
theorem planeBit_eq (q : Package) (x : Nat) (out : Bool) : q.planeBit x out =
    if out && !decide (bits (q.reg 0x1010) x x = 1) && (List.range 8).all (fun i => decide (q.planeOf i ≠ x) && decide (q.planeTo i ≠ x)) then q.planeOut x
    else if decide (bits (q.reg 0x1010) x x = 1) && !out then q.planeBack x else q := rfl
theorem planeOut_fields (q : Package) (x : Nat) : (∀ o, o ≠ 0x0508 → (q.planeOut x).reg o = (q.setFld 0x1010 x x 1).reg o)
    ∧ (∀ h l, h < 24 ∨ 31 < l → bits ((q.planeOut x).reg 0x0508) h l = bits (putBits (q.reg 0x0508) (40 + x) (40 + x) 1) h l)
    ∧ (q.planeOut x).portsDown = q.portsDown ||| planePorts x ∧ (q.planeOut x).retrain = q.retrain &&& ~~~planePorts x ∧ (q.planeOut x).switching = q.switching := by
  obtain ⟨w1, w2, w3, w4⟩ := Package.withPorts_fields (q.portsDown ||| planePorts x) (q.retrain &&& ~~~planePorts x) ((q.setFld 0x1010 x x 1).setFld 0x0508 (40 + x) (40 + x) 1)
  obtain ⟨c1, c2, c3⟩ := countPorts_reg (((q.setFld 0x1010 x x 1).setFld 0x0508 (40 + x) (40 + x) 1).withPorts (q.portsDown ||| planePorts x) (q.retrain &&& ~~~planePorts x))
  obtain ⟨d1, d2, d3⟩ := countPorts_fields (((q.setFld 0x1010 x x 1).setFld 0x0508 (40 + x) (40 + x) 1).withPorts (q.portsDown ||| planePorts x) (q.retrain &&& ~~~planePorts x))
  refine ⟨fun o ho => ?_, fun h l hl => ?_, d2.trans w2, d3.trans w3, d1.trans (w4.trans ?_)⟩
  · refine (c3 o (by simpa using ho)).trans ((w1 o).trans ?_)
    rw [Package.reg_setFld, if_neg ho]
  · refine (c2 h l hl).trans ?_
    rw [w1, Package.reg_setFld, if_pos rfl, Package.reg_setFld, if_neg (by decide)]
  · rw [(Package.setFld_fields ..).1, (Package.setFld_fields ..).1]
theorem planeBack_fields (q : Package) (x : Nat) : (∀ o, (q.planeBack x).reg o = (q.setFld 0x1010 x x 0).reg o)
    ∧ (q.planeBack x).portsDown = q.portsDown ∧ (q.planeBack x).retrain = q.retrain ||| planePorts x ∧ (q.planeBack x).switching = q.switching := by
  obtain ⟨w1, w2, w3, w4⟩ := Package.withPorts_fields q.portsDown (q.retrain ||| planePorts x) (q.setFld 0x1010 x x 0)
  exact ⟨w1, w2, w3, w4.trans (Package.setFld_fields ..).1⟩
/-- What a write of PLANESVC asks of a plane is done: taken out of service where nothing uses it, or its ports retrain. -/
structure Package.PlaneSet (q r : Package) (x : Nat) (out : Bool) : Prop where
  /-- out of service -/
  free : out = true → ¬ bits (q.reg 0x1010) x x = 1 → (∀ i < 8, q.planeOf i ≠ x ∧ q.planeTo i ≠ x) → bits (r.reg 0x1010) x x = 1 ∧ r.planeDead x = true
    ∧ ∀ i < 24, i / 3 = x → r.portsDown.getLsbD i = true
  /-- in use -/
  used : out = true → ¬ bits (q.reg 0x1010) x x = 1 → ¬ (∀ i < 8, q.planeOf i ≠ x ∧ q.planeTo i ≠ x) → bits (r.reg 0x1010) x x = 0 ∧ r.planeDead x = q.planeDead x
  /-- back in service -/
  back : out = false → bits (q.reg 0x1010) x x = 1 → bits (r.reg 0x1010) x x = 0 ∧ ∀ i < 24, i / 3 = x → r.retrain.getLsbD i = true
  /-- out of service already -/
  stays : out = true → bits (q.reg 0x1010) x x = 1 → bits (r.reg 0x1010) x x = 1
/-- Nothing of a plane that PLANESVC's other bits concern. -/
structure Package.PlaneKept (q r : Package) (x : Nat) : Prop where
  /-- its bit -/
  bit : bits (r.reg 0x1010) x x = bits (q.reg 0x1010) x x
  /-- whether it is dead -/
  dead : r.planeDead x = q.planeDead x
  /-- its ports that are down stay so -/
  down : ∀ i < 24, q.portsDown.getLsbD i = true → r.portsDown.getLsbD i = true
  /-- its ports that retrain -/
  retrain : ∀ i < 24, i / 3 = x → r.retrain.getLsbD i = q.retrain.getLsbD i
/-- What no bit of PLANESVC changes. -/
structure Package.PlanesSame (q r : Package) : Prop where
  /-- registers -/
  regs : SameRegs q r [0x0508, 0x1010]
  /-- where planes stand -/
  of : ∀ i, r.planeOf i = q.planeOf i
  /-- where they go on -/
  goes : ∀ i, r.planeTo i = q.planeTo i
theorem Package.PlanesSame.of_fields {q r : Package} (h : SameRegs q r [0x0508, 0x1010]) (hs : r.switching = q.switching) : q.PlanesSame r := by
  have ho : ∀ i, r.planeOf i = q.planeOf i := fun i => by rw [Package.planeOf_eq, Package.planeOf_eq, h _ (by simp)]
  refine ⟨h, ho, fun i => ?_⟩
  unfold Package.planeTo
  rw [hs, ho]
theorem bit_zero_of_ne {v : DWord} {x : Nat} (h : ¬ bits v x x = 1) : bits v x x = 0 := by
  have := bits_lt v x x
  rw [show x + 1 - x = 1 by omega] at this
  omega
theorem planeBit_same (q : Package) (x : Nat) (out : Bool) : q.PlanesSame (q.planeBit x out) := by
  rw [planeBit_eq]
  split
  · obtain ⟨f1, -, -, -, f5⟩ := planeOut_fields q x
    refine .of_fields (fun o ho => ?_) f5
    rw [f1 o (by simp at ho; exact ho.1), SameRegs.setFld q (l := [0x0508, 0x1010]) (by simp) _ _ _ o ho]
  · split
    · obtain ⟨f1, -, -, f5⟩ := planeBack_fields q x
      refine .of_fields (fun o ho => ?_) f5
      rw [f1, SameRegs.setFld q (l := [0x0508, 0x1010]) (by simp) _ _ _ o ho]
    · exact .of_fields (.refl q _) rfl
theorem planeBit_kept (q : Package) {x y : Nat} (out : Bool) (hx : x < 8) (hy : y < 8) (hn : y ≠ x) : q.PlaneKept (q.planeBit x out) y := by
  rw [planeBit_eq]
  split
  · obtain ⟨f1, f2, f3, f4, -⟩ := planeOut_fields q x
    refine ⟨?_, ?_, fun i _ h => ?_, fun i hi h => ?_⟩
    · rw [f1 _ (by decide), Package.reg_setFld, if_pos rfl, bits_putBits_other _ _ (Nat.le_refl _) (by omega) (by omega)]
    · rw [Package.planeDead_eq, Package.planeDead_eq, f2 _ _ (by omega), bits_putBits_other _ _ (Nat.le_refl _) (by omega) (by omega)]
    · rw [f3, BitVec.getLsbD_or, h, Bool.true_or]
    · rw [f4, BitVec.getLsbD_and, BitVec.getLsbD_not, planePorts_bit x i hx hi]
      simp [hi, h, hn]
  · split
    · obtain ⟨f1, f2, f3, -⟩ := planeBack_fields q x
      refine ⟨?_, ?_, fun i _ h => ?_, fun i hi h => ?_⟩
      · rw [f1, Package.reg_setFld, if_pos rfl, bits_putBits_other _ _ (Nat.le_refl _) (by omega) (by omega)]
      · rw [Package.planeDead_eq, Package.planeDead_eq, f1, Package.reg_setFld, if_neg (by decide)]
      · rw [f2, h]
      · rw [f3, BitVec.getLsbD_or, planePorts_bit x i hx hi]
        simp [h, hn]
    · exact ⟨rfl, rfl, fun _ _ h => h, fun _ _ _ => rfl⟩
theorem planeBit_set (q : Package) {x : Nat} (out : Bool) (hx : x < 8) : q.PlaneSet (q.planeBit x out) x out := by
  have hall : (List.range 8).all (fun i => decide (q.planeOf i ≠ x) && decide (q.planeTo i ≠ x)) = true ↔ ∀ i < 8, q.planeOf i ≠ x ∧ q.planeTo i ≠ x := by simp
  rw [planeBit_eq]
  obtain ⟨f1, f2, f3, -⟩ := planeOut_fields q x
  obtain ⟨g1, -, g3, -⟩ := planeBack_fields q x
  refine ⟨fun ho hw hu => ?_, fun ho hw hu => ?_, fun ho hw => ?_, fun ho hw => ?_⟩
  · rw [if_pos (by rw [ho, hall.mpr hu]; simpa using hw)]
    refine ⟨?_, ?_, fun i hi h => ?_⟩
    · rw [f1 _ (by decide), Package.reg_setFld, if_pos rfl, bits_putBits_same _ _ (Nat.le_refl _) (by omega), show x + 1 - x = 1 by omega] <;> rfl
    · rw [Package.planeDead_eq, f2 _ _ (by omega), bits_putBits_same _ _ (Nat.le_refl _) (by omega), show 40 + x + 1 - (40 + x) = 1 by omega] <;> rfl
    · rw [f3, BitVec.getLsbD_or, planePorts_bit x i hx hi, decide_eq_true h, Bool.or_true]
  · rw [if_neg (by rw [Bool.and_eq_true]; exact fun h => hu (hall.mp h.2)), if_neg (by simp [ho])]
    exact ⟨bit_zero_of_ne hw, rfl⟩
  · rw [if_neg (by simp [ho]), if_pos (by simp [ho, hw])]
    refine ⟨?_, fun i hi h => ?_⟩
    · rw [g1, Package.reg_setFld, if_pos rfl, bits_putBits_same _ _ (Nat.le_refl _) (by omega), Nat.zero_mod]
    · rw [g3, BitVec.getLsbD_or, planePorts_bit x i hx hi, decide_eq_true h, Bool.or_true]
  · rw [if_neg (by simp [hw]), if_neg (by simp [ho])]
    exact hw
theorem Package.PlaneSet.kept {q r u : Package} {x : Nat} {out : Bool} (hx : x < 8) (h : q.PlaneSet r x out) (h' : r.PlaneKept u x) : q.PlaneSet u x out := by
  refine ⟨fun a b c => ?_, fun a b c => ?_, fun a b => ?_, fun a b => ?_⟩
  · obtain ⟨i, j, k⟩ := h.free a b c
    exact ⟨h'.bit.trans i, h'.dead.trans j, fun n hn hm => h'.down n hn (k n hn hm)⟩
  · obtain ⟨i, j⟩ := h.used a b c
    exact ⟨h'.bit.trans i, h'.dead.trans j⟩
  · obtain ⟨i, j⟩ := h.back a b
    exact ⟨h'.bit.trans i, fun n hn hm => (h'.retrain n hn hm).trans (j n hn hm)⟩
  · exact h'.bit.trans (h.stays a b)
/-- PLANESVC's bits below n. -/
theorem planesvc_set (q : Package) (v : DWord) (n : Nat) (hn : n ≤ 8) :
    let r := (List.range n).foldl (fun p x => p.planeBit x (decide (bits v x x = 1))) q
    q.PlanesSame r ∧ (∀ x < n, q.PlaneSet r x (decide (bits v x x = 1))) ∧ ∀ x < 8, n ≤ x → q.PlaneKept r x := by
  induction n with
  | zero => exact ⟨.of_fields (.refl q _) rfl, fun x hx => absurd hx (Nat.not_lt_zero x), fun _ _ _ => ⟨rfl, rfl, fun _ _ h => h, fun _ _ _ => rfl⟩⟩
  | succ n ih =>
    obtain ⟨a, b, c⟩ := ih (by omega)
    rw [List.range_succ, List.foldl_append, List.foldl_cons, List.foldl_nil]
    generalize (List.range n).foldl (fun p x => p.planeBit x (decide (bits v x x = 1))) q = r at a b c
    have hs := planeBit_same r n (decide (bits v n n = 1))
    refine ⟨⟨a.regs.trans hs.regs, fun i => (hs.of i).trans (a.of i), fun i => (hs.goes i).trans (a.goes i)⟩, fun x hx => ?_, fun x hx hn => ?_⟩
    · by_cases e : x = n
      · subst e
        have h := planeBit_set r (decide (bits v x x = 1)) (show x < 8 by omega)
        have k := c x (by omega) (Nat.le_refl x)
        have hu : (∀ i < 8, r.planeOf i ≠ x ∧ r.planeTo i ≠ x) ↔ ∀ i < 8, q.planeOf i ≠ x ∧ q.planeTo i ≠ x := by
          simp only [a.of, a.goes]
        refine ⟨fun i j l => h.free i (by rw [k.bit]; exact j) (hu.mpr l), fun i j l => ?_, fun i j => h.back i (by rw [k.bit]; exact j), fun i j => h.stays i (by rw [k.bit]; exact j)⟩
        obtain ⟨y, z⟩ := h.used i (by rw [k.bit]; exact j) (fun z => l (hu.mp z))
        exact ⟨y, z.trans k.dead⟩
      · exact (b x (by omega)).kept (by omega) (planeBit_kept r _ (by omega) (by omega) e)
    · have k := c x hx (by omega)
      have k' := planeBit_kept r (decide (bits v n n = 1)) (show n < 8 by omega) hx (show x ≠ n by omega)
      exact ⟨k'.bit.trans k.bit, k'.dead.trans k.dead, fun i hi h => k'.down i hi (k.down i hi h), fun i hi h => (k'.retrain i hi h).trans (k.retrain i hi h)⟩

theorem planesvc_effect {s : State} {p m : Nat} {v : DWord} (h : MayWrite s p m 0x1010) : ∃ t, exec (.planesvcWrite p m v) s = .next t ∧ OnlyPkg s t p
      ∧ SameRegs (s.pkg p) (t.pkg p) [0x0508, 0x1010] ∧ t.msis = s.msis
      ∧ ∀ x < 8, let q := s.pkg p
          let was := bits (q.reg 0x1010) x x = 1
          (v.getLsbD x = true → ¬ was → (∀ i < 8, q.planeOf i ≠ x ∧ q.planeTo i ≠ x) → bits ((t.pkg p).reg 0x1010) x x = 1 ∧ (t.pkg p).planeDead x = true
            ∧ ∀ i < 24, i / 3 = x → (t.pkg p).portsDown.getLsbD i = true)
          ∧ (v.getLsbD x = true → ¬ was → ¬ (∀ i < 8, q.planeOf i ≠ x ∧ q.planeTo i ≠ x) → bits ((t.pkg p).reg 0x1010) x x = 0 ∧ (t.pkg p).planeDead x = q.planeDead x)
          ∧ (v.getLsbD x = false → was → bits ((t.pkg p).reg 0x1010) x x = 0 ∧ ∀ i < 24, i / 3 = x → (t.pkg p).retrain.getLsbD i = true)
          ∧ (v.getLsbD x = true → was → bits ((t.pkg p).reg 0x1010) x x = 1) := by
  have hx : exec (.planesvcWrite p m v) s = .next (s.answer ((s.took p m).modPkg p (fun q => q.planesvc v)) p m 0x1010) := by
    rw [exec_planesvcWrite_eq, execPlanesvcWrite, acts_modPkg h (by decide) _ _ rfl (regWrite_planesvc ..)]
  obtain ⟨a, b, -⟩ := planesvc_set ((s.took p m).pkg p) v 8 (Nat.le_refl 8)
  have hof : ∀ i, ((s.took p m).pkg p).planeOf i = (s.pkg p).planeOf i := fun i => by rw [Package.planeOf_eq, Package.planeOf_eq, State.took_reg]
  have hto : ∀ i, ((s.took p m).pkg p).planeTo i = (s.pkg p).planeTo i := fun i => took_field s p m (fun q => q.planeTo i) (fun _ _ => rfl)
  have hdead : ∀ i, ((s.took p m).pkg p).planeDead i = (s.pkg p).planeDead i := fun i => by rw [Package.planeDead_eq, Package.planeDead_eq, State.took_reg]
  have hq : ((s.took p m).modPkg p (fun q => q.planesvc v)).pkg p = ((s.took p m).pkg p).planesvc v := State.pkg_modPkg_same ..
  have hu : ∀ x, (∀ i < 8, ((s.took p m).pkg p).planeOf i ≠ x ∧ ((s.took p m).pkg p).planeTo i ≠ x) ↔ ∀ i < 8, (s.pkg p).planeOf i ≠ x ∧ (s.pkg p).planeTo i ≠ x := fun x => by simp only [hof, hto]
  refine ⟨_, hx, ((s.took_only p m).trans (.modPkg _ p _)).trans (State.answer_only ..), fun o ho => ?_, s.took_msis p m, fun x hx8 => ?_⟩
  · rw [State.answer_reg, hq]
    exact (a.regs o ho).trans (State.took_reg ..)
  · have hs := b x hx8
    have hbit : ∀ c, v.getLsbD x = c → decide (bits v x x = 1) = c := fun c hc => by
      rw [← hc]
      by_cases e : v.getLsbD x = true
      · rw [e]; simpa [bits_eq_one] using e
      · rw [Bool.not_eq_true] at e; rw [e]; simpa [bits_eq_one] using e
    intro q was
    rw [State.answer_reg, answer_field _ _ _ _ _ (fun q => q.planeDead x) (fun _ _ => rfl), answer_field _ _ _ _ _ Package.portsDown (fun _ _ => rfl),
      answer_field _ _ _ _ _ Package.retrain (fun _ _ => rfl), hq]
    refine ⟨fun c d e => hs.free (hbit _ c) (by rw [State.took_reg]; exact d) ((hu x).mpr e), fun c d e => ?_, fun c d => hs.back (hbit _ c) (by rw [State.took_reg]; exact d),
      fun c d => hs.stays (hbit _ c) (by rw [State.took_reg]; exact d)⟩
    obtain ⟨y, z⟩ := hs.used (hbit _ c) (by rw [State.took_reg]; exact d) (fun z => e ((hu x).mp z))
    exact ⟨y, z.trans (hdead x)⟩

/-! ### A port that has come up -/

/-- A plane of which port n has come up. -/
def Package.portUp (x n : Nat) (q : Package) : Package :=
  { q.setFld 0x0508 (40 + x) (40 + x) 0 with portsDown := q.portsDown &&& ~~~(1#24 <<< n), retrain := q.retrain &&& ~~~(1#24 <<< n), planeFail := q.planeFail &&& ~~~(1#8 <<< x) }
theorem Package.withPortUp_fields (q : Package) (m r : BitVec 24) (f : BitVec 8) : (∀ o, Package.reg { q with portsDown := m, retrain := r, planeFail := f } o = q.reg o)
    ∧ Package.portsDown { q with portsDown := m, retrain := r, planeFail := f } = m ∧ Package.retrain { q with portsDown := m, retrain := r, planeFail := f } = r :=
  ⟨fun _ => rfl, rfl, rfl⟩
theorem Package.portUp_fields (x n : Nat) (q : Package) : (∀ o, (q.portUp x n).reg o = (q.setFld 0x0508 (40 + x) (40 + x) 0).reg o)
    ∧ (q.portUp x n).portsDown = q.portsDown &&& ~~~(1#24 <<< n) ∧ (q.portUp x n).retrain = q.retrain &&& ~~~(1#24 <<< n) :=
  Package.withPortUp_fields ..
theorem retrain_effect {s : State} {p x n : Nat} (hx : x < 8) (hn : n < 24) (hd : n / 3 = x) (hr : (s.pkg p).retrain.getLsbD n = true)
    (hlow : ∀ i < n, i / 3 = x → (s.pkg p).retrain.getLsbD i = false) :
      ∃ t, exec (.portRetrainComplete p x) s = .next t ∧ OnlyPkg s t p ∧ SameRegs (s.pkg p) (t.pkg p) [0x0508] ∧ t.msis = s.msis
      ∧ (t.pkg p).planeDead x = false ∧ (∀ i < 24, (t.pkg p).portsDown.getLsbD i = ((s.pkg p).portsDown.getLsbD i && decide (i ≠ n)))
      ∧ ∀ i < 24, (t.pkg p).retrain.getLsbD i = ((s.pkg p).retrain.getLsbD i && decide (i ≠ n)) := by
  have hf : [3 * x, 3 * x + 1, 3 * x + 2].find? (fun i => (s.pkg p).retrain.getLsbD i) = some n := by
    have h3 : n = 3 * x ∨ n = 3 * x + 1 ∨ n = 3 * x + 2 := by omega
    rcases h3 with e | e | e
    · rw [← e, List.find?_cons_of_pos hr]
    · rw [List.find?_cons_of_neg (by rw [hlow _ (by omega) (by omega)]; decide), ← e, List.find?_cons_of_pos hr]
    · rw [List.find?_cons_of_neg (by rw [hlow _ (by omega) (by omega)]; decide), List.find?_cons_of_neg (by rw [hlow _ (by omega) (by omega)]; decide), ← e, List.find?_cons_of_pos hr]
  have he : exec (.portRetrainComplete p x) s = .next (s.modPkg p (fun q => (q.portUp x n).countPorts)) := by
    rw [exec_portRetrainComplete_eq, execPortRetrainComplete, hf] <;> rfl
  obtain ⟨f1, f2, f3⟩ := (s.pkg p).portUp_fields x n
  obtain ⟨-, c2, c3⟩ := countPorts_reg ((s.pkg p).portUp x n)
  obtain ⟨-, d2, d3⟩ := countPorts_fields ((s.pkg p).portUp x n)
  have hbit : ∀ (m : BitVec 24) i, i < 24 → (m &&& ~~~(1#24 <<< n)).getLsbD i = (m.getLsbD i && decide (i ≠ n)) := fun m i hi => by
    rw [BitVec.getLsbD_and, BitVec.getLsbD_not, one_shift n i hn hi, decide_eq_true hi, Bool.true_and]
    simp
  refine ⟨_, he, .modPkg s p _, fun o ho => ?_, rfl, ?_, fun i hi => ?_, fun i hi => ?_⟩
  · rw [State.pkg_modPkg_same]
    exact (c3 o ho).trans ((f1 o).trans (SameRegs.setFld (s.pkg p) (l := [0x0508]) (by simp) _ _ _ o ho))
  · rw [State.pkg_modPkg_same, Package.planeDead_eq, c2 _ _ (by omega), f1, Package.reg_setFld, if_pos rfl, bits_putBits_same _ _ (Nat.le_refl _) (by omega), Nat.zero_mod]
    rfl
  · rw [State.pkg_modPkg_same, d2, f2, hbit _ i hi]
  · rw [State.pkg_modPkg_same, d3, f3, hbit _ i hi]
/-- Planes and ports, the other part of O42. -/
theorem planesAndPorts : Claims.PlanesAndPorts := by
  unfold Claims.PlanesAndPorts
  exact ⟨fun s p x hx h => planeFailure_effect hx h, fun s p n hn h => portFailure_effect hn h, fun s p m v h => planemap_effect h,
    fun s p i x a hi hx h ha => planeSwitch_effect hi hx h ha, fun s p m v h => planesvc_effect h, fun s p x n hx hn hd hr hl => retrain_effect hx hn hd hr hl⟩

/-- Settles O42: its two parts, the dies' clocks and drains and the planes and their ports. -/
theorem diesAndPlanes : Obligations.DiesAndPlanes := by
  unfold Obligations.DiesAndPlanes
  exact ⟨diesStopAndDrain, planesAndPorts⟩

end Sys2Proof.Machine
end

section
/-! A package reset, the governor's readings and the heartbeats (R17, R18, R363, R420 to R422). -/

namespace Sys2Proof.Machine

/-! ### Boot stages -/

theorem extend_field {α : Type} (f : Package → α) (hf : ∀ (q : Package) o v, f (q.setReg o v) = f q) (q : Package) (i : Nat) (d : List Byte) : f (q.extend i d) = f q :=
  foldl_keeps f _ (fun q j => hf q _ _) _ q
/-- A register of no measurement of an index stays when that is extended. -/
theorem extend_reg (q : Package) (i : Nat) (d : List Byte) {o : Nat} (ho : o < 0x0880 + 64 * i ∨ 0x08C0 + 64 * i ≤ o) : (q.extend i d).reg o = q.reg o := by
  unfold Package.extend
  dsimp only
  generalize (sha512 (q.meas i ++ d)) = h
  have : ∀ n ≤ 8, ((List.range n).foldl (fun p j => p.setReg (0x0880 + 64 * i + 8 * j) (BitVec.ofNat 64 (natOfBytes ((h.drop (8 * j)).take 8)))) q).reg o = q.reg o := fun n => by
    induction n with
    | zero => exact fun _ => rfl
    | succ n ih =>
      intro hn
      rw [List.range_succ, List.foldl_append, List.foldl_cons, List.foldl_nil, Package.reg_setReg, if_neg (by omega), ih (by omega)]
  exact this 8 (Nat.le_refl 8)
theorem extend_meas_other (q : Package) {i k : Nat} (d : List Byte) (hk : k ≠ i) : (q.extend i d).meas k = q.meas k :=
  meas_congr k fun j hj => extend_reg q i d (by omega)
/-- What no stage of the boot changes. -/
def Boot.From (q : Package) (b : Boot) : Prop := b.pkg.boot = q.boot ∧ b.pkg.count = q.count
theorem Boot.From.extend {q r : Package} (h : r.boot = q.boot ∧ r.count = q.count) (k : Nat) (d : List Byte) : (r.extend k d).boot = q.boot ∧ (r.extend k d).count = q.count :=
  ⟨(extend_field Package.boot (fun _ _ _ => rfl) r k d).trans h.1, (extend_field Package.count (fun _ _ _ => rfl) r k d).trans h.2⟩
theorem Boot.From.load {q : Package} {b : Boot} (h : b.From q) (i : BootInputs) (t m : Nat) (img : List Byte) : (b.load i t m img).From q := by
  unfold Boot.load
  split
  · exact h
  · exact h
  · exact Boot.From.extend h m _
theorem Boot.From.stageOf {q : Package} {b : Boot} (h : b.From q) (n : Nat) {f : Boot → Boot} (hf : ∀ c : Boot, c.From q → (f c).From q) : (b.stageOf n f).From q := by
  unfold Boot.stageOf
  split
  · exact h
  · dsimp only
    split
    · exact hf b h
    · exact hf b h
theorem bootStages_from (i : BootInputs) (q : Package) : (bootStages i q).From q := by
  unfold bootStages
  refine (((((Boot.From.stageOf ⟨rfl, rfl⟩ 1 fun c h => ?_).stageOf 2 fun c h => h.load ..).stageOf 3 fun c h => ?_).stageOf 4 fun c h => ?_).stageOf 5 fun c h => h.load ..).stageOf 6 fun c h => h.load ..
  · have hl := h.load i 0 0 (bootImage i 0)
    dsimp only
    split
    · exact Boot.From.extend hl 5 _
    · exact hl
  · split
    · exact h
    · split <;> exact h
  · have hl := h.load i 2 2 (bootImage i 2)
    dsimp only
    split
    · split <;> exact hl
    · exact hl
/-- A boot that its first image ends. -/
theorem bootStages_stops (i : BootInputs) (q : Package) : (fwCheck (bootImage i 0) 0 i.keyDigest i.minVersion = .mismatch →
      ∃ r, bootStages i q = { pkg := r, err := 1 }) ∧ (fwCheck (bootImage i 0) 0 i.keyDigest i.minVersion = .old → ∃ r, bootStages i q = { pkg := r, err := 2 }) := by
  constructor <;> intro h <;> refine ⟨q, ?_⟩ <;> simp [bootStages, Boot.stageOf, Boot.load, h]
/-- A package that has passed every stage. -/
def Package.booted (i : BootInputs) (mast : List Byte) (q : Package) : Package :=
  (((((q.extend 0 (sha512 (bootImage i 0))).measureId).extend 1 (sha512 mast)).extend 2 (sha512 (bootImage i 2))).extend 3 (sha512 (bootImage i 3))).extend 4 (sha512 (bootImage i 4))
theorem bootStages_passes {i : BootInputs} {q : Package} {mast : List Byte} (hm : mast = if q.stagedFw.isEmpty then bootImage i 1 else q.stagedFw)
    (h0 : fwCheck (bootImage i 0) 0 i.keyDigest i.minVersion = .good) (h1 : fwCheck mast 1 i.keyDigest i.minVersion = .good) (hh : i.hbmFail = []) (hc : i.dcCarve < 3)
    (h2 : fwCheck (bootImage i 2) 2 i.keyDigest i.minVersion = .good) (hd : i.dieFail = []) (h3 : fwCheck (bootImage i 3) 3 i.keyDigest i.minVersion = .good)
    (h4 : fwCheck (bootImage i 4) 4 i.keyDigest i.minVersion = .good) : bootStages i q = { pkg := q.booted i mast, stage := 6 } := by
  have hc' : i.dcCarve ≠ 3 := by omega
  unfold bootStages
  rw [← hm]
  simp [Boot.stageOf, Boot.load, h0, h1, hh, hc', h2, hd, h3, h4, Package.booted]
theorem booted_reg (i : BootInputs) (mast : List Byte) (q : Package) {o : Nat} (ho : o < 0x0880 ∨ 0x0A80 ≤ o) : (q.booted i mast).reg o = q.reg o := by
  unfold Package.booted Package.measureId
  rw [extend_reg _ _ _ (by omega), extend_reg _ _ _ (by omega), extend_reg _ _ _ (by omega), extend_reg _ _ _ (by omega), extend_reg _ _ _ (by omega), extend_reg _ _ _ (by omega)]
theorem booted_meas (i : BootInputs) (mast : List Byte) (q : Package) : (q.booted i mast).meas 0 = sha512 (q.meas 0 ++ sha512 (bootImage i 0))
    ∧ (q.booted i mast).meas 4 = sha512 (q.meas 4 ++ sha512 (bootImage i 4)) := by
  unfold Package.booted Package.measureId
  constructor
  · rw [extend_meas_other _ _ (by decide), extend_meas_other _ _ (by decide), extend_meas_other _ _ (by decide), extend_meas_other _ _ (by decide), extend_meas_other _ _ (by decide), extend_meas]
  · rw [extend_meas, extend_meas_other _ _ (by decide), extend_meas_other _ _ (by decide), extend_meas_other _ _ (by decide), extend_meas_other _ _ (by decide), extend_meas_other _ _ (by decide)]

/-! ### The package that a reset leaves -/

/-- A package that has just been reset. -/
def Package.fresh (i : BootInputs) (img : List Byte) : Package := { boot := some i, stagedFw := img }
theorem fresh_fields (i : BootInputs) (img : List Byte) : (Package.fresh i img).boot = some i ∧ (Package.fresh i img).count = 0 ∧ (Package.fresh i img).stagedFw = img
    ∧ ∀ o, (Package.fresh i img).reg o = regReset (some i) o :=
  ⟨rfl, rfl, rfl, fun _ => BitVec.zero_xor⟩
theorem regReset_0700 (i : BootInputs) : regReset (some i) 0x0700 = BitVec.ofNat 64 ((i.present % (if i.ep0 then 16 else 8) / 2 * 2 + 1) * 2 ^ 12 + 0x80) := rfl
theorem regReset_0008 (i : BootInputs) : regReset (some i) 0x0008 = BitVec.ofNat 64 (0x00C0FF0001004000 + i.dcCarve % 4 * 2 ^ 34 + (if i.ep0 then 2 ^ 33 else 0)) := rfl
theorem fresh_noOwner (i : BootInputs) (img : List Byte) : bits ((Package.fresh i img).reg 0x0700) 7 7 = 1 := by
  have h16 : i.present % (if i.ep0 then 16 else 8) < 16 := by
    split
    · exact Nat.mod_lt _ (by decide)
    · exact (Nat.mod_lt _ (by decide)).trans (by decide)
  rw [(fresh_fields i img).2.2.2, regReset_0700]
  generalize i.present % (if i.ep0 then 16 else 8) = n at h16
  interval_cases n <;> decide
theorem fresh_dieUp (i : BootInputs) (img : List Byte) {d : Nat} (hd : d < 8) : bits ((Package.fresh i img).reg 0x0008) (40 + d) (40 + d) = 1 := by
  have h4 : i.dcCarve % 4 < 4 := Nat.mod_lt _ (by decide)
  rw [(fresh_fields i img).2.2.2, regReset_0008]
  generalize i.dcCarve % 4 = n at h4
  generalize i.ep0 = b
  have h : ∀ (n : Fin 4) (b : Bool) (d : Fin 8), bits (BitVec.ofNat 64 (0x00C0FF0001004000 + n.val * 2 ^ 34 + (if b then 2 ^ 33 else 0))) (40 + d.val) (40 + d.val) = 1 := by decide
  exact h ⟨n, h4⟩ b ⟨d, hd⟩
theorem regReset_meas (i : BootInputs) {o : Nat} (h : 0x0880 ≤ o) (h' : o < 0x0F08) : regReset (some i) o = 0 := by
  unfold regReset
  split
  iterate 8 next => omega
  rfl
theorem fresh_meas (i : BootInputs) (img : List Byte) {k : Nat} (hk : k < 8) : (Package.fresh i img).meas k = List.replicate 64 0 := by
  have h : ∀ j ∈ List.range 8, bytesOfNat 8 ((Package.fresh i img).reg (0x0880 + 64 * k + 8 * j)).toNat = List.replicate 8 0 := fun j hj => by
    have := List.mem_range.mp hj
    rw [(fresh_fields i img).2.2.2, regReset_meas i (by omega) (by omega)]
    decide
  unfold Package.meas
  rw [List.flatMap_congr h]
  decide

/-! ### The reset -/

theorem drainTo_form (i x a : Nat) (q : Package) : q.drainTo i x a =
    { q with regs := (q.setFld 0x0508 (32 + i) (32 + i) 1).regs, switching := Sparse.put q.switching i (x, a) } := by
  unfold Package.drainTo
  rw [Package.setFld_only]
theorem setFld_clock (q : Package) (o hi lo x : Nat) : (q.setFld o hi lo x).boot = q.boot ∧ (q.setFld o hi lo x).count = q.count := ⟨rfl, rfl⟩
theorem withDown_clock (q : Package) (m : BitVec 24) : (q.withDown m).boot = q.boot ∧ (q.withDown m).count = q.count := ⟨rfl, rfl⟩
/-- What a plane's death changes in its package is registers and switches alone. -/
theorem planeDies_field {α : Type} (f : Package → α) (hf : ∀ (q : Package) r w, f { q with regs := r, switching := w } = f q) (s : State) (p x : Nat) :
    f ((s.planeDies p x).pkg p) = f (s.pkg p) := by
  have h1 : ∀ q : Package, f (q.setFld 0x0508 (40 + x) (40 + x) 1) = f q := fun q => hf q _ q.switching
  have h2 : ∀ (t : State) i y, f ((t.drainPlane p i y).pkg p) = f (t.pkg p) := fun t i y => by
    rw [drainPlane_eq, State.pkg_modPkg_same, drainTo_form]
    exact hf _ _ _
  unfold State.planeDies
  extract_lets s1
  have hs : f (s1.pkg p) = f (s.pkg p) := by
    simp only [s1]
    unfold State.setFld
    rw [State.pkg_modPkg_same, h1]
  split
  · exact hs
  · refine Eq.trans (foldl_keeps (fun t : State => f (t.pkg p)) _ (fun t i => ?_) _ _) hs
    split
    · exact h2 ..
    · rfl
/-- The ports found dead at boot. -/
theorem bootPorts_effect (s : State) (p : Nat) (l : List Nat) : OnlyPkg s (s.bootPorts p l) p ∧ SameRegs (s.pkg p) ((s.bootPorts p l).pkg p) [0x0508]
    ∧ ((s.bootPorts p l).pkg p).boot = (s.pkg p).boot ∧ ((s.bootPorts p l).pkg p).count = (s.pkg p).count := by
  unfold State.bootPorts
  generalize (l.foldl (fun m i => if i < 24 then m ||| (1#24 <<< i) else m) 0#24) = dead
  obtain ⟨s1, hs1⟩ : ∃ s1, s1 = s.modPkg p (fun q => (q.withDown dead).countPorts) := ⟨_, rfl⟩
  have h1 : OnlyPkg s s1 p ∧ SameRegs (s.pkg p) (s1.pkg p) [0x0508] ∧ (s1.pkg p).boot = (s.pkg p).boot ∧ (s1.pkg p).count = (s.pkg p).count := by
    obtain ⟨-, -, c3⟩ := countPorts_reg ((s.pkg p).withDown dead)
    obtain ⟨f1, -⟩ := Package.withDown_fields dead (s.pkg p)
    rw [hs1, State.pkg_modPkg_same]
    refine ⟨.modPkg s p _, fun o ho => (c3 o ho).trans (f1 o), ?_⟩
    obtain ⟨a, b⟩ := setFld_clock ((s.pkg p).withDown dead) 0x0508 31 24 (24 - ((s.pkg p).withDown dead).livePorts)
    obtain ⟨c, d⟩ := withDown_clock (s.pkg p) dead
    exact ⟨a.trans c, b.trans d⟩
  have h2 : ∀ n ≤ 8, let t := (List.range n).foldl (fun s x => if dead.extractLsb' (3 * x) 3 = 7 then s.planeDies p x else s) s1
      OnlyPkg s t p ∧ SameRegs (s.pkg p) (t.pkg p) [0x0508] ∧ (t.pkg p).boot = (s.pkg p).boot ∧ (t.pkg p).count = (s.pkg p).count := fun n => by
    induction n with
    | zero => exact fun _ => h1
    | succ n ih =>
      intro hn
      obtain ⟨a, b, c, d⟩ := ih (by omega)
      rw [List.range_succ, List.foldl_append, List.foldl_cons, List.foldl_nil]
      generalize (List.range n).foldl (fun s x => if dead.extractLsb' (3 * x) 3 = 7 then s.planeDies p x else s) s1 = t at a b c d ⊢
      split
      · obtain ⟨a', -, b', -⟩ := planeDies_effect t (p := p) (show n < 8 by omega)
        exact ⟨a.trans a', b.trans b', (planeDies_field Package.boot (fun _ _ _ => rfl) t p n).trans c, (planeDies_field Package.count (fun _ _ _ => rfl) t p n).trans d⟩
      · exact ⟨a, b, c, d⟩
  rw [hs1] at h2
  exact h2 8 (Nat.le_refl 8)

/-- What a boot leaves of its errors and its last stage. -/
def Boot.word (b : Boot) : DWord := BitVec.ofNat 64 (b.err * 2 ^ 8 + b.detail * 2 ^ 4 + b.stage)
theorem Boot.word_eq (r : Package) (n e : Nat) : Boot.word { pkg := r, stage := n, err := e } = BitVec.ofNat 64 (e * 2 ^ 8 + 0 * 2 ^ 4 + n) := rfl
/-- The state that a reset with its boot leaves. -/
theorem packageReset_effect (s : State) {p : Nat} (i : BootInputs) (hp : p < 1024) : ∃ t r, exec (.packageReset p i) s = .next t ∧ OnlyPkg (s.clearPackage p) t p
    ∧ t.pkg p = r.setReg 0x0018 (bootStages i (Package.fresh i (s.pkg p).stagedFw)).word ∧ SameRegs (bootStages i (Package.fresh i (s.pkg p).stagedFw)).pkg r [0x0508]
    ∧ r.boot = some i ∧ r.count = 0 := by
  obtain ⟨f1, f2, -⟩ := fresh_fields i (s.pkg p).stagedFw
  obtain ⟨g1, g2⟩ := bootStages_from i (Package.fresh i (s.pkg p).stagedFw)
  obtain ⟨b, hb⟩ : ∃ b, b = bootStages i (Package.fresh i (s.pkg p).stagedFw) := ⟨_, rfl⟩
  rw [← hb] at g1 g2 ⊢
  obtain ⟨s1, hs1⟩ : ∃ s1, s1 = (s.clearPackage p).modPkg p (fun _ => b.pkg) := ⟨_, rfl⟩
  have hpk : s1.pkg p = b.pkg := by rw [hs1, State.pkg_modPkg_same]
  have h1 : OnlyPkg (s.clearPackage p) s1 p := hs1 ▸ .modPkg _ p _
  have hx : exec (.packageReset p i) s = .next ((if 5 ≤ b.stage then s1.bootPorts p i.deadPorts else s1).modPkg p (fun q => q.setReg 0x0018 b.word)) := by
    rw [exec_packageReset_eq, execPackageReset, if_neg (by omega), hs1, hb] <;> rfl
  obtain ⟨a1, a2, a3, a4⟩ := bootPorts_effect s1 p i.deadPorts
  rw [hpk] at a2 a3 a4
  by_cases h5 : 5 ≤ b.stage
  · rw [if_pos h5] at hx
    exact ⟨_, _, hx, (h1.trans a1).trans (.modPkg _ p _), State.pkg_modPkg_same .., a2, a3.trans (g1.trans f1), a4.trans (g2.trans f2)⟩
  · rw [if_neg h5] at hx
    exact ⟨_, _, hx, h1.trans (.modPkg _ p _), by rw [State.pkg_modPkg_same, hpk], .refl _ _, g1.trans f1, g2.trans f2⟩

/-! ### The governor and the heartbeats -/

theorem governorAdjust_effect {s : State} {p mat vec freq draw : Nat} {limit : Bool} (hm : mat ≤ 512) (hv : vec ≤ 4096) (hf : 1 ≤ freq) (hf' : freq ≤ 0x78) (hd : draw ≤ 2600)
    (hl : limit = true ∨ draw ≤ bits ((s.pkg p).reg 0x0020) 11 0) (hs : limit = true ↔ mat < 512 ∨ vec < 4096 ∨ freq < 0x78) (hx : freq = 0x78 ∨ mat ≤ 1 ∧ vec ≤ 64) :
      ∃ t, exec (.governorAdjust p mat vec freq draw limit) s = .next t ∧ OnlyPkg s t p ∧ SameRegs (s.pkg p) (t.pkg p) [0x0028]
        ∧ (let r := (t.pkg p).reg 0x0028
           bits r 63 63 = (if limit then 1 else 0) ∧ bits r 47 40 = freq ∧ bits r 39 30 = mat ∧ bits r 29 16 = vec ∧ bits r 11 0 = draw) := by
  have hshort : limit = (decide (mat < 512) || decide (vec < 4096) || decide (freq < 0x78)) := by
    rw [Bool.eq_iff_iff, hs]
    simp [or_assoc]
  have he : exec (.governorAdjust p mat vec freq draw limit) s = .next (s.modPkg p (fun q => q.setReg 0x0028
      (BitVec.ofNat 64 ((if limit then 2 ^ 63 else 0) + freq * 2 ^ 40 + mat * 2 ^ 30 + vec * 2 ^ 16 + draw)))) := by
    rw [exec_governorAdjust_eq, execGovernorAdjust]
    exact if_pos ⟨hm, hv, hf, hf', hd, hl, hshort, hx⟩
  refine ⟨_, he, .modPkg s p _, ?_, ?_⟩
  · rw [State.pkg_modPkg_same]
    exact SameRegs.setReg _ (by simp) _
  · intro r
    have hr : r = BitVec.ofNat 64 ((if limit then 2 ^ 63 else 0) + freq * 2 ^ 40 + mat * 2 ^ 30 + vec * 2 ^ 16 + draw) := by
      simp only [r]
      rw [State.pkg_modPkg_same, Package.reg_setReg, if_pos rfl]
    rw [hr]
    unfold bits
    rw [BitVec.toNat_ofNat]
    cases limit <;> simp only [if_true, Bool.false_eq_true, if_false] <;> omega
/-- A package whose heartbeat has come. -/
def Package.beats (q : Package) : Package := { q with heartbeats := q.heartbeats + 1, heartbeatAt := q.heartbeatAt + heartbeatTicks }
theorem Package.beats_fields (q : Package) : q.beats.regs = q.regs ∧ q.beats.boot = q.boot ∧ q.beats.heartbeats = q.heartbeats + 1 ∧ q.beats.heartbeatAt = q.heartbeatAt + heartbeatTicks :=
  ⟨rfl, rfl, rfl, rfl⟩
theorem heartbeat_effect {s : State} {p : Nat} (h : (s.pkg p).heartbeatAt + heartbeatTicks ≤ (s.pkg p).count) (hb : bits ((s.pkg p).reg 0x0018) 15 8 = 0) :
    ∃ t, exec (.packageHeartbeat p) s = .next t ∧ OnlyPkg s t p ∧ SameRegs (s.pkg p) (t.pkg p) [] ∧ (t.pkg p).heartbeats = (s.pkg p).heartbeats + 1
      ∧ (t.pkg p).heartbeatAt = (s.pkg p).heartbeatAt + heartbeatTicks := by
  obtain ⟨a, b, c, d⟩ := (s.pkg p).beats_fields
  refine ⟨s.modPkg p Package.beats, ?_, .modPkg s p _, ?_, ?_⟩
  · rw [exec_packageHeartbeat_eq, execPackageHeartbeat]
    exact if_pos ⟨h, hb⟩
  · rw [State.pkg_modPkg_same]
    exact .of_regs a b _
  · rw [State.pkg_modPkg_same]
    exact ⟨c, d⟩

/-- Settles O44: the boot stages one after another, over what a reset clears. -/
theorem packageResets : Obligations.PackageResets := by
  unfold Obligations.PackageResets
  refine ⟨fun s p i hp => ?_, fun s p mat vec freq draw limit hm hv hf hf' hd hl hs hx => governorAdjust_effect hm hv hf hf' hd hl hs hx, fun s p h hb => heartbeat_effect h hb⟩
  obtain ⟨t, r, hx, ⟨h1, h2, h3, h4, h5, h6⟩, hpk, hr, hb, hc⟩ := packageReset_effect s i hp
  have hreg : ∀ o, o ≠ 0x0018 → o ≠ 0x0508 → (t.pkg p).reg o = (bootStages i (Package.fresh i (s.pkg p).stagedFw)).pkg.reg o := fun o ho ho' => by
    rw [hpk, Package.reg_setReg, if_neg ho]
    exact hr o (by simpa using ho')
  have hword : (t.pkg p).reg 0x0018 = (bootStages i (Package.fresh i (s.pkg p).stagedFw)).word := by rw [hpk, Package.reg_setReg, if_pos rfl]
  refine ⟨t, hx, h4, h5, fun q hq => h6 q hq, fun e he => ?_, fun e he => ?_, fun e he => ?_, ?_, ?_, ?_⟩
  · rw [h2] at he
    have := List.mem_filter.mp he
    refine ⟨this.1, ?_⟩
    simpa using this.2
  · rw [h1] at he
    have := List.mem_filter.mp he
    exact ⟨this.1, by have := this.2; simp at this; exact this.1⟩
  · rw [h3] at he
    have := List.mem_filter.mp he
    exact ⟨this.1, by simpa using this.2⟩
  · rw [hpk, Package.setReg_only]; exact hb
  · rw [hpk, Package.setReg_only]; exact hc
  · intro chk mast
    obtain ⟨e1, e2⟩ := bootStages_stops i (Package.fresh i (s.pkg p).stagedFw)
    refine ⟨fun h => ?_, fun h => ?_, fun g0 g1 gh gc g2 gd g3 g4 => ?_⟩
    · obtain ⟨r, hr⟩ := e1 h
      rw [hword, hr, Boot.word_eq]
      decide
    · obtain ⟨r, hr⟩ := e2 h
      rw [hword, hr, Boot.word_eq]
      decide
    · have hm : mast = if (Package.fresh i (s.pkg p).stagedFw).stagedFw.isEmpty then bootImage i 1 else (Package.fresh i (s.pkg p).stagedFw).stagedFw := by
        rw [(fresh_fields i (s.pkg p).stagedFw).2.2.1]
        simp [mast]
      have hB := bootStages_passes hm g0 g1 gh gc g2 gd g3 g4
      obtain ⟨m0, m4⟩ := booted_meas i mast (Package.fresh i (s.pkg p).stagedFw)
      rw [fresh_meas _ _ (by decide)] at m0 m4
      have hme : ∀ k < 8, (t.pkg p).meas k = (Package.booted i mast (Package.fresh i (s.pkg p).stagedFw)).meas k := fun k hk =>
        meas_congr k fun j hj => by rw [hreg _ (by omega) (by omega), hB]
      refine ⟨?_, ?_, fun d hd => ?_, ?_, ?_⟩
      · rw [hword, hB, Boot.word_eq]
        decide
      · unfold Package.noOwner Package.fld
        rw [hreg _ (by decide) (by decide), hB, booted_reg _ _ _ (by omega), fresh_noOwner]
        rfl
      · rw [Package.dieUp_eq, hreg _ (by decide) (by decide), hB, booted_reg _ _ _ (by omega), fresh_dieUp _ _ hd]
        rfl
      · rw [hme 0 (by decide), m0]
      · rw [hme 4 (by decide), m4]

end Sys2Proof.Machine
end

section
/-! Groups that swap, are promoted, are withdrawn and wake (R299 to R301, R308). -/

namespace Sys2Proof.Machine

/-- What an exchange of a position leaves. -/
theorem exchangePos_effect {s : State} {k new n : Nat} {c d : Ctx} (hk : Sparse.find s.ctxs k = some c) (hp : c.pos = some n) (hd : Sparse.find s.ctxs new = some d) (hne : new ≠ k) :
    let t := s.exchangePos k new
    SameBytes s t ∧ t.units = s.units ∧ t.grids = s.grids ∧ t.pkgs = s.pkgs
    ∧ (∀ j, j ≠ k → j ≠ new → t.ctx j = s.ctx j) ∧ t.ctx k = { (s.ctx k).revertHints.unheld with pos := none, staged := [] }
    ∧ t.ctx new = { s.ctx new with pos := some n, staged := [], entered := s.cycle, notBefore := s.cycle + 8 } := by
  have hpos : (s.ctx k).pos = some n := by rw [State.ctx_of_find _ _ _ hk, hp]
  obtain ⟨s1, hs1⟩ : ∃ s1, s1 = s.modCtx k (fun c => { c.revertHints.unheld with pos := none, staged := [] }) := ⟨_, rfl⟩
  have h1 : s1.ctx k = { (s.ctx k).revertHints.unheld with pos := none, staged := [] } := by rw [hs1, State.ctx_modCtx _ _ _ _ hk, State.ctx_of_find _ _ _ hk]
  have hf : Sparse.find s1.ctxs new = some d := by
    rw [hs1]; unfold State.modCtx
    rw [Sparse.find_adjust, if_neg hne, hd]
  have he : s.exchangePos k new = s1.modCtx new (fun c => { c with pos := some n, staged := [], entered := s.cycle, notBefore := s.cycle + 8 }) := by
    rw [hs1, ← hpos]; rfl
  rw [he]
  have hb : SameBytes s s1 := hs1 ▸ SameBytes.modCtx s k _
  refine ⟨hb.trans (SameBytes.modCtx s1 new _), hs1 ▸ rfl, hs1 ▸ rfl, hs1 ▸ rfl, fun j hj hj' => ?_, ?_, ?_⟩
  · rw [State.ctx_modCtx_ne _ _ _ _ hj', hs1, State.ctx_modCtx_ne _ _ _ _ hj]
  · rw [State.ctx_modCtx_ne _ _ _ _ (Ne.symm hne), h1]
  · rw [State.ctx_modCtx _ _ _ _ hf, State.ctx_of_find _ _ _ hd]
theorem groupSwap_effect {s : State} {k n : Nat} {c : Ctx} {new : Nat × Ctx} (hk : Sparse.find s.ctxs k = some c) (hg : c.kind = .group) (hp : c.pos = some n)
    (ho : oldestOf (s.readyPending c.pkg c.site) = some new) (hx : s.exchangeable c = true) (hr : s.ready c = false) (hst : s.stalled c = true) (hsw : s.swapped c (n / 4) = false) :
    exec (.groupSwap k) s = .next (s.exchangePos k new.1) := by
  rw [exec_groupSwap_eq, execGroupSwap]
  rw [State.ctx_of_find _ _ _ hk, hg, hp, ho]
  dsimp only
  rw [if_neg (by simp [hx, hr, hst, hsw])]
theorem forcedPromotion_effect {s : State} {k n a : Nat} {c : Ctx} {e : Nat × Ctx} (hk : Sparse.find s.ctxs k = some c) (hr : s.pendingReady c = true) (hw : c.readySince = some a)
    (ha : a + 2048 ≤ s.cycle) (he : s.earliest c.pkg c.site = some e) (hp : e.2.pos = some n) (hsw : s.swapped c (n / 4) = false) :
    exec (.pendingForcedPromotion k) s = .next (s.exchangePos e.1 k) := by
  rw [exec_pendingForcedPromotion_eq, execPendingForcedPromotion]
  rw [State.ctx_of_find _ _ _ hk, he, hw]
  dsimp only
  rw [if_pos]
  rw [hr, hp, Option.getD_some, hsw, decide_eq_true ha]
  rfl
theorem sleepWake_effect {s : State} {k l a : Nat} {c : Ctx} (hk : Sparse.find s.ctxs k = some c) (hw : (c.lane l).wait = .sleep a) (ha : a ≤ s.now c) (hc : s.clockRuns c.pkg c.site = true) :
    exec (.sleepWake k l) s = .next (s.modCtx k (fun c => c.advance [l])) := by
  rw [exec_sleepWake_eq, execSleepWake]
  rw [State.ctx_of_find _ _ _ hk, hw]
  dsimp only
  rw [if_pos ⟨ha, hc⟩]
/-- Settles O46: an exchange of positions, a withdrawal or one lane's next word, each a change of one or two contexts. -/
theorem swapsAndWakes : Obligations.SwapsAndWakes := by
  unfold Obligations.SwapsAndWakes
  intro swap
  refine ⟨fun s k c n new hk hg hp ho hf hne hx hr hst hsw => ⟨_, groupSwap_effect hk hg hp ho hx hr hst hsw, exchangePos_effect hk hp hf hne⟩,
    fun s k c e n a hk hr hw ha he hf hp hne hsw => ⟨_, forcedPromotion_effect hk hr hw ha he hp hsw, exchangePos_effect hf hp hk (Ne.symm hne)⟩,
    fun s k c h a hk hh hq hwd ha => ?_, fun s k c l a hk hw ha hc => ⟨_, sleepWake_effect hk hw ha hc, ?_⟩⟩
  · refine ⟨s.modCtx k (fun c => { c with withdrawn := true, missAt := none }), ?_, State.ctx_modCtx _ _ _ _ hk, fun j hj => State.ctx_modCtx_ne _ _ _ _ hj, SameBytes.modCtx s k _, rfl, rfl, rfl⟩
    rw [exec_issueWithdraw_eq, execIssueWithdraw, State.ctx_of_find _ _ _ hk, hh]
    dsimp only
    rw [if_neg]
    rintro (e | e | e)
    · exact hq e
    · rw [hwd] at e; exact absurd e (by decide)
    · omega
  · rw [State.ctx_modCtx _ _ _ _ hk]
    refine ⟨fun m => ?_, ?_, fun j hj => State.ctx_modCtx_ne _ _ _ _ hj, SameBytes.modCtx s k _, rfl, rfl, rfl⟩
    · rw [Ctx.advance_one]
      exact Ctx.lane_modLane ..
    · rw [Ctx.advance_one]; rfl

end Sys2Proof.Machine
end

section
/-! Traps taken (R94, R98, R369 to R371, R376, R379, R393). -/

namespace Sys2Proof.Machine

/-! ### Aborts begun -/

/-- A state in which only units, not their stores, and grids, not their keys, differ. -/
structure State.UnitsGrids (s t : State) : Prop where
  /-- nothing but units and grids -/
  rest : t = { s with units := t.units, grids := t.grids }
  /-- no byte of storage -/
  bytes : SameBytes s t
  /-- the same grids -/
  keys : t.grids.map (·.1) = s.grids.map (·.1)
theorem State.UnitsGrids.refl (s : State) : s.UnitsGrids s := ⟨rfl, .refl s, rfl⟩
theorem State.UnitsGrids.trans {s t u : State} (h : s.UnitsGrids t) (h' : t.UnitsGrids u) : s.UnitsGrids u :=
  ⟨by rw [h'.rest, h.rest], h.bytes.trans h'.bytes, h'.keys.trans h.keys⟩
theorem State.UnitsGrids.ctxs {s t : State} (h : s.UnitsGrids t) : t.ctxs = s.ctxs := by rw [h.rest]
theorem State.UnitsGrids.ctx {s t : State} (h : s.UnitsGrids t) (k : Nat) : t.ctx k = s.ctx k := by unfold State.ctx; rw [h.ctxs]
theorem State.UnitsGrids.pkgs {s t : State} (h : s.UnitsGrids t) : t.pkgs = s.pkgs := by rw [h.rest]
theorem State.UnitsGrids.pkg {s t : State} (h : s.UnitsGrids t) (p : Nat) : t.pkg p = s.pkg p := by rw [h.rest]; rfl
theorem Sparse.keys_adjust {α : Type} (m : Sparse α) (n : Nat) (f : α → α) : (Sparse.adjust m n f).map (·.1) = m.map (·.1) := by
  induction m with
  | nil => rfl
  | cons e m ih =>
    obtain ⟨k, a⟩ := e
    unfold Sparse.adjust
    split
    · rfl
    · rw [List.map_cons, List.map_cons, ih]
theorem abortOne_unitsGrids (u cause : Nat) (s : State) (x : Nat) : s.UnitsGrids (s.abortOne u cause x) := by
  unfold State.abortOne
  split
  · exact .refl s
  · exact .refl s
  · exact ⟨rfl, SameBytes.modUnit s x _ (fun _ => rfl), rfl⟩
/-- An abort begins with the unit's own grid and then takes the units below it. -/
theorem startAbort_fold (s : State) (u cause : Nat) : ∃ t, s.UnitsGrids t ∧ t.units = s.units ∧ s.startAbort u cause = (t.unitsUnder 6 u).foldl (State.abortOne u cause) t := by
  unfold State.startAbort
  extract_lets s1
  refine ⟨s1, ?_, ?_, rfl⟩
  · simp only [s1]
    split
    · exact ⟨rfl, SameBytes.modGrid s _ _, Sparse.keys_adjust ..⟩
    · exact .refl s
  · simp only [s1]; split <;> rfl
theorem startAbort_unitsGrids (s : State) (u cause : Nat) : s.UnitsGrids (s.startAbort u cause) := by
  obtain ⟨t, h, -, e⟩ := startAbort_fold s u cause
  rw [e]
  exact foldl_induct s.UnitsGrids _ (fun y x hy => hy.trans (abortOne_unitsGrids u cause y x)) _ _ h
theorem abortOne_keeps {s : State} {v n : Nat} (h : (s.unit v).st = .aborting n) (u cause x : Nat) : ((s.abortOne u cause x).unit v).st = .aborting n := by
  unfold State.abortOne
  split
  · exact h
  · exact h
  · next h1 h2 =>
    have hx : v ≠ x := fun e => h1 n (by rw [← e]; exact h)
    rw [State.unit_modUnit_ne _ _ _ _ hx, h]
/-- A running unit aborts with the cause given. -/
theorem startAbort_aborts {s : State} {u : Nat} (hf : Sparse.find s.units u ≠ none) (hr : (s.unit u).st = .running) (cause : Nat) :
    ((s.startAbort u cause).unit u).st = .aborting cause := by
  obtain ⟨t, -, hu, e⟩ := startAbort_fold s u cause
  obtain ⟨x, hx⟩ := Option.ne_none_iff_exists'.mp hf
  have hrt : (t.unit u).st = .running := by unfold State.unit at hr ⊢; rw [hu]; exact hr
  have h1 : ((t.abortOne u cause u).unit u).st = .aborting cause := by
    unfold State.abortOne
    rw [hrt]
    dsimp only
    rw [State.unit_modUnit _ _ _ x (by rw [hu]; exact hx), if_pos rfl]
  rw [e]
  unfold State.unitsUnder
  rw [List.foldl_cons]
  exact foldl_induct (fun y : State => (y.unit u).st = .aborting cause) _ (fun y x hy => abortOne_keeps hy u cause x) _ _ h1

/-! ### A group that stops at a trap -/

/-- What a trap does to a group's context before it joins the queue. -/
def Ctx.trapStop (fr : Frame) (next : Option Nat) (ls : List Nat) (pc : DWord) (c : Ctx) : Ctx :=
  let c := { c.revertHints.unheld with frame := fr, staged := [] }
  match next with
  | some n => c.modLanes ls (fun _ x => { x with pc := pc + BitVec.ofNat 64 n, hints := [] })
  | none => c
/-- Where a trap resumes. -/
def resumePc (pc : DWord) (nh : Nat) : Option Nat → DWord
  | some n => pc + BitVec.ofNat 64 n
  | none => pc - BitVec.ofNat 64 (4 * nh)
/-- The pending hints of the first lane that traps. -/
def Ctx.firstHints (c : Ctx) (ls : List Nat) : Nat := match ls with | l :: _ => (c.lane l).hints.length | [] => 0
/-- The frame of a trap. -/
def State.trapFrame (s : State) (c : Ctx) (pc : DWord) (word : Word) (cause : Nat) (ls : List Nat) (info : Nat) (next : Option Nat) : Frame :=
  { cause := cause, fpc := pc, rpc := resumePc pc (c.firstHints ls) next, lanes := maskOf ls, info := BitVec.ofNat 64 info
    nhint := c.firstHints ls, word := word, time := s.now c }
theorem trace_off {s : State} {c : Ctx} (h : bits ((s.pkg c.pkg).reg 0x0FD8) 63 63 = 0) (kind : Nat) (ls : List Nat) (pc target : Nat → Nat) :
    s.trace c kind ls pc target = s := by
  unfold State.trace
  split
  · refine foldl_induct (fun x => x = s) _ (fun x l hx => ?_) _ _ rfl
    subst hx
    unfold State.traceOne
    dsimp only
    generalize (if kind ≤ 3 then _ else _) = on
    rw [if_pos (Or.inl h)]
  · rfl
/-- With traces off, a group that traps stops and joins the handler queue or, without handlers, its team aborts. -/
theorem takeTrap_stops {s : State} {k : Nat} {c : Ctx} (hc : Sparse.find s.ctxs k = some c) (hk : c.kind = .group)
    (ht : bits ((s.pkg c.pkg).reg 0x0FD8) 63 63 = 0) (pc : DWord) (word : Word) {cause : Nat} (h4 : cause ≠ 4) (ls : List Nat) (info : Nat) (next : Option Nat) :
    s.takeTrap k pc word cause ls info next =
      let t := s.modCtx k (Ctx.trapStop (s.trapFrame c pc word cause ls info next) next ls pc)
      if (s.pkg c.pkg).trapEn then t.joinQueue k else t.startAbort c.unit cause := by
  have e : s.ctx k = c := State.ctx_of_find _ _ _ hc
  have off : ∀ f ps pcs, (s.modCtx k f).trace c 4 ls ps pcs = s.modCtx k f := fun f ps pcs => trace_off (s := s.modCtx k f) ht ..
  unfold State.takeTrap
  dsimp only
  rw [e, hk]
  cases next with
  | none => dsimp only; rw [off, if_neg h4] <;> rfl
  | some n => simp only [State.modCtx_modCtx, off, h4, if_false] <;> rfl
theorem trapEn_iff (q : Package) : q.trapEn = true ↔ bits (q.reg 0x0C08) 16 16 = 1 := by unfold Package.trapEn Package.fld; simp
theorem revertHints_eq (c : Ctx) : c.revertHints = c.modLanes (List.range c.nLanes) (fun _ x => x.stopped) := rfl
theorem trapStop_only (fr : Frame) (next : Option Nat) (ls : List Nat) (pc : DWord) (c : Ctx) :
    c.trapStop fr next ls pc = { c with lanes := (c.trapStop fr next ls pc).lanes, frame := fr, staged := [], hold := none, withdrawn := false, missAt := none } := by
  unfold Ctx.trapStop
  rw [revertHints_eq, Ctx.modLanes_only]
  cases next with
  | none => rfl
  | some n => dsimp only; rw [Ctx.modLanes_only] <;> rfl
theorem trapStop_lane (fr : Frame) (pc : DWord) (ls : List Nat) {c : Ctx} (hk : c.kind = .group) {l : Nat} (hl : l < 32) :
    (c.trapStop fr none ls pc).lane l = (c.lane l).stopped := by
  have h : (c.trapStop fr none ls pc).lane l = c.revertHints.lane l := rfl
  rw [h, revertHints_eq, Ctx.lane_modLanes _ List.nodup_range, if_pos]
  rw [List.mem_range]
  unfold Ctx.nLanes
  rw [if_neg (by rw [hk]; decide)]
  exact hl
theorem joinQueue_effect {s : State} {k : Nat} {c : Ctx} (hc : Sparse.find s.ctxs k = some c) :
    (s.joinQueue k).ctx k = { c with trapped := true, queuedAt := s.cycle } ∧ (∀ j, j ≠ k → (s.joinQueue k).ctx j = s.ctx j) ∧ SameBytes s (s.joinQueue k)
      ∧ (s.joinQueue k).units = s.units ∧ (s.joinQueue k).grids = s.grids ∧ ((s.joinQueue k).pkg c.pkg).hq = (s.pkg c.pkg).hq ++ [(c.site.loc, k)]
      ∧ ∀ q o, ((s.joinQueue k).pkg q).reg o = (s.pkg q).reg o := by
  have hx : s.joinQueue k = (s.modCtx k (fun c => { c with trapped := true, queuedAt := s.cycle })).modPkg c.pkg (fun p => { p with hq := p.hq ++ [(c.site.loc, k)] }) := by
    unfold State.joinQueue; rw [State.ctx_of_find _ _ _ hc] <;> rfl
  rw [hx]
  refine ⟨State.ctx_modCtx _ _ _ _ hc, fun j hj => State.ctx_modCtx_ne _ _ _ _ hj, (SameBytes.modCtx s k _).trans (SameBytes.modPkg _ _ _), rfl, rfl, ?_, fun q o => ?_⟩
  · rw [State.pkg_modPkg_same] <;> rfl
  · rw [State.pkg_modPkg]
    split
    · next e => rw [e] <;> rfl
    · rfl
/-- R369, R370: what a group's trap leaves, with and without handlers. -/
theorem groupTrap {s : State} {k : Nat} {c : Ctx} (hc : Sparse.find s.ctxs k = some c) (hk : c.kind = .group)
    (ht : bits ((s.pkg c.pkg).reg 0x0FD8) 63 63 = 0) (pc : DWord) (word : Word) {cause : Nat} (h4 : cause ≠ 4) (ls : List Nat) (info : Nat) (next : Option Nat) :
    let t := s.takeTrap k pc word cause ls info next
    let c1 := c.trapStop (s.trapFrame c pc word cause ls info next) next ls pc
    SameBytes s t ∧ t.grids.map (·.1) = s.grids.map (·.1) ∧ (∀ j, j ≠ k → t.ctx j = s.ctx j) ∧ (∀ q o, (t.pkg q).reg o = (s.pkg q).reg o)
    ∧ (bits ((s.pkg c.pkg).reg 0x0C08) 16 16 = 1 → t.ctx k = { c1 with trapped := true, queuedAt := s.cycle }
        ∧ (t.pkg c.pkg).hq = (s.pkg c.pkg).hq ++ [(c.site.loc, k)] ∧ t.units = s.units ∧ t.grids = s.grids)
    ∧ (¬ bits ((s.pkg c.pkg).reg 0x0C08) 16 16 = 1 → t.ctx k = c1 ∧ (∀ q, t.pkg q = s.pkg q) ∧ (Sparse.find s.units c.unit ≠ none → (s.unit c.unit).st = .running →
        (t.unit c.unit).st = .aborting cause)) := by
  intro t c1
  obtain ⟨s1, hs1⟩ : ∃ s1, s1 = s.modCtx k (Ctx.trapStop (s.trapFrame c pc word cause ls info next) next ls pc) := ⟨_, rfl⟩
  have hx : t = if (s.pkg c.pkg).trapEn then s1.joinQueue k else s1.startAbort c.unit cause := by rw [hs1]; exact takeTrap_stops hc hk ht pc word h4 ls info next
  have hf : Sparse.find s1.ctxs k = some c1 := by rw [hs1, State.find_modCtx, if_pos rfl, hc] <;> rfl
  have hb : SameBytes s s1 := hs1 ▸ SameBytes.modCtx s k _
  have ho : ∀ j, j ≠ k → s1.ctx j = s.ctx j := fun j hj => hs1 ▸ State.ctx_modCtx_ne _ _ _ _ hj
  have hp : c1.pkg = c.pkg ∧ c1.site = c.site := by simp only [c1]; rw [trapStop_only]; exact ⟨rfl, rfl⟩
  obtain ⟨j1, j2, j3, j4, j5, j6, j7⟩ := joinQueue_effect hf
  have hu := startAbort_unitsGrids s1 c.unit cause
  have hpkg : ∀ q, s1.pkg q = s.pkg q := fun q => by rw [hs1]; rfl
  rw [hp.1, hp.2, hpkg] at j6
  by_cases he : bits ((s.pkg c.pkg).reg 0x0C08) 16 16 = 1
  · rw [if_pos ((trapEn_iff _).mpr he)] at hx
    rw [hx]
    refine ⟨hb.trans j3, by rw [j5, hs1]; rfl, fun j hj => (j2 j hj).trans (ho j hj), fun q o => by rw [j7, hpkg], fun _ => ⟨by rw [j1, hs1]; rfl, j6, ?_, ?_⟩, fun h => absurd he h⟩
    · rw [j4, hs1]; rfl
    · rw [j5, hs1]; rfl
  · rw [if_neg (fun h => he ((trapEn_iff _).mp h))] at hx
    rw [hx]
    refine ⟨hb.trans hu.bytes, by rw [hu.keys, hs1]; rfl, fun j hj => (hu.ctx j).trans (ho j hj), fun q o => by rw [hu.pkg, hpkg], fun h => absurd h he, fun _ => ⟨?_, ?_, fun hn hr => ?_⟩⟩
    · rw [hu.ctx]; exact State.ctx_of_find _ _ _ hf
    · exact fun q => (hu.pkg q).trans (hpkg q)
    · exact startAbort_aborts (by rw [hs1]; exact hn) (by rw [hs1]; exact hr) cause

/-! ### Checks that trap -/

/-- What an instruction with a word does is the effect of a gate. -/
theorem exec_gate (i : Instr) (h : (encode i).isSome = true) (hn : ∀ w, i ≠ .undefinedInstruction w) (s : State) : ∃ body, exec i s = gate i s body := by
  revert s
  cases i
  case undefinedInstruction w => exact absurd rfl (hn w)
  case sread g d u n => cases u <;> exact fun s => ⟨_, rfl⟩
  case swrite g d u n => cases u <;> exact fun s => ⟨_, rfl⟩
  all_goals first | exact absurd h Bool.false_ne_true | exact fun s => ⟨_, rfl⟩
/-- A check that fails stops the instruction before it has an effect. -/
theorem gateLanes_check {acts : Ctx → Nat → Bool} {i : Instr} {s : State} {c : Ctx} {act ls : List Nat} {cause info : Nat} (hc : Sparse.find s.ctxs s.cur.ctx = some c)
    (hn : s.cohort c ≠ []) (ha : act = (s.cohort c).filter (acts c)) (hs : act ≠ []) (hp : s.preCheck c i act = some (cause, ls, info)) (hk : c.kind ≠ .handler)
    (body : State → Ctx → List Nat → Eff) : gateLanes acts i s body = .next (s.takeTrap s.cur.ctx s.cur.pc (wordOf i) cause ls info none) := by
  have he : (s.cohort c).isEmpty = false := by simpa using hn
  have hae : act.isEmpty = false := by simpa using hs
  unfold gateLanes
  rw [hc]
  dsimp only
  rw [he, ← ha]
  unfold State.runLanes
  simp only [hae, State.ctx_of_find _ _ _ hc, hp, hk, if_false, Bool.false_eq_true]
theorem preCheck_undefined (s : State) (c : Ctx) (w : Nat) (act : List Nat) : s.preCheck c (.undefinedInstruction w) act = some (1, act, 0) := rfl
/-- In a handler each lane that meets an undefined word faults alone. -/
theorem undefined_handler {w : Nat} {s : State} {c : Ctx} {act : List Nat} (hc : Sparse.find s.ctxs s.cur.ctx = some c) (hn : s.cohort c ≠ [])
    (ha : act = (s.cohort c).filter (fun l => c.guard (undefinedGuard w) l)) (hs : act ≠ []) (hk : c.kind = .handler) :
    exec (.undefinedInstruction w) s =
        .next ((act.foldl (fun t l => t.handlerFail s.cur.ctx [l] 1 0) s).modCtx s.cur.ctx (fun c' => (c'.advance (s.cohort c)).unheld)) := by
  have he : (s.cohort c).isEmpty = false := by simpa using hn
  have hae : act.isEmpty = false := by simpa using hs
  have hbad : ∀ body, s.laneFaults s.cur.ctx (.undefinedInstruction w) body act 1 act 0 = act.map (fun l => (l, 1, 0)) := fun body => by
    unfold State.laneFaults State.laneFault
    simp only [preCheck_undefined]
    exact List.filterMap_eq_map (f := fun l => (l, 1, 0)) ▸ rfl
  have hnone : act.filter (fun l => !(act.map (fun l => ((l, 1, 0) : Nat × Nat × Nat))).any (fun f => decide (f.1 = l))) = [] := by
    rw [List.filter_eq_nil_iff]
    intro l hl
    simp [hl]
  rw [exec_undefinedInstruction_eq, execUndefinedInstruction]
  unfold gateLanes
  rw [hc]
  dsimp only
  rw [he, ← ha]
  unfold State.runLanes
  simp only [hae, State.ctx_of_find _ _ _ hc, preCheck_undefined, hk, if_true, hbad, hnone, Bool.false_eq_true, if_false]
  unfold State.runLanes
  simp only [List.isEmpty_nil, if_true, List.foldl_map]
/-- R370: a sequencer's trap aborts its unit. -/
theorem seqTrap {s : State} {k : Nat} {c : Ctx} (hc : Sparse.find s.ctxs k = some c) (hk : c.kind = .seq) {cause : Nat} (h4 : cause ≠ 4)
    (hu : Sparse.find s.units c.unit ≠ none) (hr : (s.unit c.unit).st = .running) (pc : DWord) (word : Word) (ls : List Nat) (info : Nat) :
    let t := s.takeTrap k pc word cause ls info none
    (t.unit c.unit).st = .aborting cause ∧ SameBytes s t ∧ t.pkgs = s.pkgs ∧ (∀ j, j ≠ k → t.ctx j = s.ctx j) := by
  have hx : ∃ f, s.takeTrap k pc word cause ls info none = (s.modCtx k f).startAbort c.unit cause := by
    unfold State.takeTrap
    dsimp only
    rw [State.ctx_of_find _ _ _ hc, hk]
    dsimp only
    rw [if_neg h4]
    exact ⟨_, rfl⟩
  obtain ⟨f, hf⟩ := hx
  have hg := startAbort_unitsGrids (s.modCtx k f) c.unit cause
  intro t
  have ht : t = _ := hf
  rw [ht]
  exact ⟨startAbort_aborts (s := s.modCtx k f) hu hr cause, (SameBytes.modCtx s k f).trans hg.bytes, hg.pkgs, fun j hj => (hg.ctx j).trans (State.ctx_modCtx_ne _ _ _ _ hj)⟩
/-- Checks that trap, one part of O34. -/
theorem checksTrap : Claims.ChecksTrap := by
  unfold Claims.ChecksTrap
  refine ⟨fun i s c act cause ls info hc hn ha hs hp hk he hu => ?_, fun w s c act hc hn ha hs => ⟨fun hk => ?_, fun hk => undefined_handler hc hn ha hs hk⟩,
    fun s k c pc word cause ls info hc hk h4 ht => ?_, fun s k c pc word cause ls info hc hk h4 hu hr => ?_⟩
  · obtain ⟨body, hb⟩ := exec_gate i he hu s
    exact hb.trans (gateLanes_check hc hn ha hs hp hk body)
  · unfold Traps
    rw [exec_undefinedInstruction_eq, execUndefinedInstruction]
    exact gateLanes_check hc hn ha hs (preCheck_undefined ..) hk _
  · intro t c'
    obtain ⟨a, b, d, -, e, f⟩ := groupTrap hc hk ht pc word h4 ls info none
    have hb := trapStop_only (s.trapFrame c pc word cause ls info none) none ls pc c
    have hc' : ∃ b n, c' = { c.trapStop (s.trapFrame c pc word cause ls info none) none ls pc with trapped := b, queuedAt := n } := by
      by_cases he : bits ((s.pkg c.pkg).reg 0x0C08) 16 16 = 1
      · exact ⟨_, _, (e he).1⟩
      · exact ⟨_, _, (f he).1⟩
    obtain ⟨b1, n1, hcc⟩ := hc'
    rw [hb] at hcc
    refine ⟨a, b, d, ?_, ?_, fun l hl => ?_, fun he => ?_, fun he hu hr => ?_⟩
    · rw [hcc]
      unfold State.trapFrame resumePc Ctx.firstHints
      cases ls <;> rfl
    · rw [hcc]
    · have : c'.lane l = (c.trapStop (s.trapFrame c pc word cause ls info none) none ls pc).lane l := by rw [hcc] <;> rfl
      rw [this, trapStop_lane _ _ _ hk hl]
    · obtain ⟨e1, e2, e3, -⟩ := e he
      have hx : c' = _ := e1
      rw [hx]
      exact ⟨rfl, rfl, e2, e3⟩
    · obtain ⟨-, f2, f3⟩ := f (by rw [he]; decide)
      exact ⟨f3 hu hr, by show (t.pkg c.pkg).hq = _; rw [f2]⟩
  · exact seqTrap hc hk h4 hu hr pc word ls info

/-! ### TRAP -/

/-- An update of the issuing context after its hints are noted. -/
theorem hinted_modCtx {s : State} {i : Instr} {c : Ctx} {act : List Nat} (h : Issues s i c act) (F : Ctx → Ctx) :
    (s.hinted i act).modCtx s.cur.ctx F = s.modCtx s.cur.ctx (fun _ => F (c.begun i act)) := by
  unfold State.hinted Ctx.begun
  by_cases hi : isHint i
  · simp only [hi, if_true]
    exact State.modCtx_const _ _ _ _ h.found
  · simp only [hi, if_false, State.modCtx_modCtx, Bool.false_eq_true]
    exact State.modCtx_const _ _ _ _ h.found
/-- The context of a `TRAP` before it traps: the rest of its cohort has spent its hints. -/
def Ctx.trapBegun (s : State) (i : Instr) (act : List Nat) (c : Ctx) : Ctx :=
  (c.begun i act).modLanes ((s.cohort c).filter (fun l => !act.contains l)) (fun _ x => { x with hints := [] })
theorem trapBegun_only (s : State) (i : Instr) (act : List Nat) (c : Ctx) :
    c.trapBegun s i act = { c with lanes := (c.trapBegun s i act).lanes, yld := (c.begun i act).yld, prio := (c.begun i act).prio } := by
  unfold Ctx.trapBegun
  rw [Ctx.modLanes_only, begun_only]
theorem trapBegun_lane (s : State) (i : Instr) (act : List Nat) (c : Ctx) (l : Nat) :
    (c.trapBegun s i act).lane l = if l ∈ s.cohort c ∧ l ∉ act then { c.lane l with hints := [] } else c.lane l := by
  unfold Ctx.trapBegun
  rw [Ctx.lane_modLanes _ ((cohort_nodup s c).filter _), begun_lane]
  simp
/-- What `TRAP` does in a group. -/
theorem exec_trap {s : State} {g : Guard} {code : Nat} {c : Ctx} {act : List Nat} (h : Issues s (.trap g code) c act) (hk : c.kind = .group) :
    exec (.trap g code) s = .next (((s.modCtx s.cur.ctx (fun _ => c.trapBegun s (.trap g code) act)).takeTrap s.cur.ctx s.cur.pc (wordOf (.trap g code)) 0x16 act code (some 4)).modCtx
      s.cur.ctx (s.depart (.trap g code) ((s.cohort c).filter (fun l => !act.contains l)))) := by
  rw [exec_trap_eq, execTrap]
  refine gate_okPc h _ ?_
  have hcoh : (s.hinted (.trap g code) act).cohort (c.begun (.trap g code) act) = s.cohort c := by
    unfold State.cohort
    rw [State.hinted_cur]
    refine List.filter_congr fun l _ => ?_
    rw [begun_lane]
    unfold Ctx.nLanes
    rw [begun_kind]
  rw [begun_kind, hk, if_neg (by decide)]
  dsimp only
  rw [hcoh, State.hinted_cur, hinted_modCtx h]
  rfl
theorem Lane.stopped_noHints {x : Lane} (h : x.hints = []) : x.stopped.onward = x.onward ∧ x.stopped.pc = x.pc := by
  unfold Lane.stopped
  split
  · rw [h]; simp [Lane.onward]
  · exact ⟨rfl, rfl⟩
theorem trapStop_rest {fr : Frame} {n : Nat} {ls : List Nat} {pc : DWord} {c : Ctx} (hk : c.kind = .group) (hn : ls.Nodup) {l : Nat} (hl : l < 32) :
    (c.trapStop fr (some n) ls pc).lane l = if l ∈ ls then { (c.lane l).stopped with pc := pc + BitVec.ofNat 64 n, hints := [] } else (c.lane l).stopped := by
  have h := trapStop_lane fr pc ls hk hl
  have e : c.trapStop fr (some n) ls pc = (c.trapStop fr none ls pc).modLanes ls (fun _ x => { x with pc := pc + BitVec.ofNat 64 n, hints := [] }) := rfl
  rw [e, Ctx.lane_modLanes _ hn, h]
theorem State.find_of_trapped {s : State} {k : Nat} (h : (s.ctx k).trapped = true) : Sparse.find s.ctxs k = some (s.ctx k) := by
  unfold State.ctx at h ⊢
  cases hy : Sparse.find s.ctxs k with
  | none =>
    rw [hy] at h
    exact absurd h Bool.false_ne_true
  | some y => rfl
/-- `TRAP`, one part of O34. -/
theorem trapInstruction : Claims.TrapInstruction := by
  intro g code s c act h hk ht he
  obtain ⟨i, hi⟩ : ∃ i, i = Instr.trap g code := ⟨_, rfl⟩
  obtain ⟨cb, hcb⟩ : ∃ cb, cb = c.trapBegun s i act := ⟨_, rfl⟩
  obtain ⟨s1, hs1⟩ : ∃ s1, s1 = s.modCtx s.cur.ctx (fun _ => cb) := ⟨_, rfl⟩
  have hx := exec_trap h hk
  rw [← hi] at h hx
  rw [← hcb, ← hs1] at hx
  have hbo := trapBegun_only s i act c
  rw [← hcb] at hbo
  have hf : Sparse.find s1.ctxs s.cur.ctx = some cb := by rw [hs1, State.find_modCtx, if_pos rfl, h.found] <;> rfl
  have hkb : cb.kind = .group := by rw [hbo]; exact hk
  have hpb : cb.pkg = c.pkg ∧ cb.site = c.site := by rw [hbo]; exact ⟨rfl, rfl⟩
  have hpk : ∀ q, s1.pkg q = s.pkg q := fun q => by rw [hs1] <;> rfl
  obtain ⟨a, -, d, -, e, -⟩ := groupTrap hf hkb (by rw [hpb.1, hpk]; exact ht) s.cur.pc (wordOf (.trap g code)) (cause := 0x16) (by decide) act code (some 4)
  rw [hpb.1, hpk] at e
  obtain ⟨e1, e2, e3, e4⟩ := e he
  rw [← hi] at a d e1 e2 e3 e4
  obtain ⟨t, htt⟩ : ∃ t, t = s1.takeTrap s.cur.ctx s.cur.pc (wordOf i) 0x16 act code (some 4) := ⟨_, rfl⟩
  rw [← htt] at a d e1 e2 e3 e4 hx
  obtain ⟨x, hxe⟩ : ∃ x : Ctx, x = { cb.trapStop (s1.trapFrame cb s.cur.pc (wordOf i) 0x16 act code (some 4)) (some 4) act s.cur.pc with trapped := true, queuedAt := s1.cycle } := ⟨_, rfl⟩
  rw [← hxe] at e1
  have hft : Sparse.find t.ctxs s.cur.ctx = some x := by
    rw [← e1]
    exact State.find_of_trapped (by rw [e1, hxe])
  obtain ⟨rest, hrest⟩ : ∃ r, r = (s.cohort c).filter (fun l => !act.contains l) := ⟨_, rfl⟩
  rw [← hrest] at hx
  have hrn : rest.Nodup := hrest ▸ (cohort_nodup s c).filter _
  have hrm : ∀ l, l ∈ rest ↔ l ∈ s.cohort c ∧ l ∉ act := fun l => by rw [hrest]; simp
  have hcl : ∀ l, cb.lane l = if l ∈ s.cohort c ∧ l ∉ act then { c.lane l with hints := [] } else c.lane l := fun l => by rw [hcb]; exact trapBegun_lane s i act c l
  have hxl : ∀ l < 32, x.lane l = if l ∈ act then { (cb.lane l).stopped with pc := s.cur.pc + 4, hints := [] } else (cb.lane l).stopped := fun l hl => by
    rw [hxe]
    exact trapStop_rest hkb h.nodup hl
  have hlane : ∀ l < 32, (s.depart i rest x).lane l = if l ∈ act then { (c.lane l).stopped with pc := s.cur.pc + 4, hints := [] }
      else if l ∈ s.cohort c then (c.lane l).onward else (c.lane l).stopped := fun l hl => by
    rw [depart_lane _ _ _ hrn, hxl l hl, hcl]
    by_cases h1 : l ∈ act
    · simp [hrm, h1]
    · by_cases h2 : l ∈ s.cohort c
      · simp only [hrm, h1, h2, not_false_eq_true, and_self, if_true, if_false]
        exact (Lane.stopped_noHints (x := { c.lane l with hints := [] }) rfl).1
      · simp [hrm, h1, h2]
  have hfirst : cb.firstHints act = (c.lane (act.headD 0)).hints.length := by
    cases ha : act with
    | nil => exact absurd ha h.some
    | cons l ls =>
      have hm : l ∈ act := by rw [ha]; exact List.mem_cons_self
      show (cb.lane l).hints.length = _
      rw [hcl, if_neg (fun h1 => h1.2 hm)]
      rfl
  have hnow : s1.now cb = s.now c := by
    unfold State.now State.dieCount
    rw [hpb.1, hpb.2, hpk]
  have hframe : s1.trapFrame cb s.cur.pc (wordOf i) 0x16 act code (some 4)
      = { cause := 0x16, fpc := s.cur.pc, rpc := s.cur.pc + 4, lanes := maskOf act, info := BitVec.ofNat 64 code
          nhint := (c.lane (act.headD 0)).hints.length, word := wordOf (.trap g code), time := s.now c } := by
    unfold State.trapFrame
    rw [hfirst, hnow, hi]
    rfl
  have hxo : ∃ ls, x = { cb with lanes := ls, frame := s1.trapFrame cb s.cur.pc (wordOf i) 0x16 act code (some 4), staged := [], hold := none, withdrawn := false, missAt := none, trapped := true, queuedAt := s1.cycle } := ⟨_, by rw [hxe, trapStop_only]⟩
  refine ⟨_, s.depart i rest x, hi ▸ hx, State.ctx_modCtx _ _ _ _ hft, (hs1 ▸ SameBytes.modCtx s _ _ : SameBytes s s1).trans (a.trans (SameBytes.modCtx t _ _)), ?_, ?_, fun j hj => ?_, ?_, ?_, ?_,
    fun l hl => ?_, fun l hl hn => ?_, fun l hl hn => ?_, ?_⟩
  · exact e3.trans (by rw [hs1]; rfl)
  · exact e4.trans (by rw [hs1]; rfl)
  · rw [State.ctx_modCtx_ne _ _ _ _ hj, d j hj, hs1, State.ctx_modCtx_ne _ _ _ _ hj]
  · exact e2.trans (by rw [hpb.2])
  · rw [depart_only, hxe]
  · rw [depart_only, hxe, trapStop_only]
    exact hframe
  · rw [hlane l (h.lt hl), if_pos hl]
  · rw [hlane l (cohort_lt hl), if_neg hn, if_pos hl]
  · rw [hlane l hl, if_neg (fun h1 => hn (h.mem h1)), if_neg hn]
  · obtain ⟨ls, hxo⟩ := hxo
    rw [depart_only, hxo, hbo]
    exact ⟨rfl, rfl, rfl, rfl, rfl, rfl, rfl⟩
/-- Settles O34: a trap stops its group and queues it for the handler; the checks trap before any effect. -/
theorem trapsTaken : Obligations.TrapsTaken := ⟨trapInstruction, checksTrap⟩

end Sys2Proof.Machine
end

section
/-! The hang watchdog, instruction breakpoints and samples (R310, R400 to R402, R407). -/

namespace Sys2Proof.Machine

/-! ### The hang watchdog -/

theorem State.sameBytes_free (s : State) (n : Nat) : SameBytes s { s with free := n } := fun a => by cases a <;> rfl
/-- A watchdog that has expired: the waits stand as they are. -/
def Ctx.watchOver (c : Ctx) : Ctx := { c with watch := none, frame := { c.frame with rpc := c.frame.fpc } }
theorem watchOver_frame (c : Ctx) : c.watchOver.frame.cause = c.frame.cause ∧ c.watchOver.frame.fpc = c.frame.fpc ∧ c.watchOver.frame.rpc = c.frame.fpc
    ∧ c.watchOver.frame.lanes = c.frame.lanes := ⟨rfl, rfl, rfl, rfl⟩
theorem watchOver_rest (c : Ctx) : c.watchOver.trapped = c.trapped ∧ c.watchOver.watch = none ∧ ∀ l, c.watchOver.lane l = c.lane l := ⟨rfl, rfl, fun _ => rfl⟩
theorem queued_frame (c : Ctx) (n : Nat) : { c with trapped := true, queuedAt := n }.frame = c.frame
    ∧ ∀ l, { c with trapped := true, queuedAt := n }.lane l = c.lane l := ⟨rfl, fun _ => rfl⟩
theorem trapStop_frame (fr : Frame) (next : Option Nat) (ls : List Nat) (pc : DWord) (c : Ctx) : (c.trapStop fr next ls pc).frame = fr := by rw [trapStop_only]
/-- The state in which an expired watchdog traps, and what it does there. -/
theorem exec_hangWatchdog {s : State} {k : Nat} {c : Ctx} {pc : DWord} {n : Nat} (hc : Sparse.find s.ctxs k = some c) (hw : c.watch = some (pc, n))
    (hg : (s.gridOf c).hangwd ≠ 0) (hn : (s.gridOf c).hangwd ≤ n) (hl : c.watchedAt pc ≠ []) (ht : c.trapped = false) (hh : c.halted = false) :
    ∃ w, exec (.hangWatchdogExpiry k) s = .next ((({ s with free := s.free + 1 } : State).takeTrap k pc w 0x13 (c.watchedAt pc) 0 none).modCtx k Ctx.watchOver) := by
  have hcx : s.ctx k = c := State.ctx_of_find _ _ _ hc
  have he : (c.watchedAt pc).isEmpty = false := by simpa using hl
  have hlt : ¬ n < (s.gridOf c).hangwd := by omega
  refine ⟨BitVec.ofNat 32 ((s.fetchWord c pc).getD (Config.freeWord s.free).toNat), ?_⟩
  rw [exec_hangWatchdogExpiry_eq, execHangWatchdogExpiry]
  dsimp only
  rw [hcx, hw]
  dsimp only
  rw [if_neg]
  · rfl
  · simp [hg, hlt, he, ht, hh]

/-! ### Breakpoints -/

/-- A step that keeps storage, registers and one stopped group. -/
structure State.KeepsStopped (k : Nat) (s t : State) : Prop where
  /-- storage -/
  bytes : SameBytes s t
  /-- registers -/
  regs : ∀ q o, (t.pkg q).reg o = (s.pkg q).reg o
  /-- the group -/
  group : (s.ctx k).trapped = true ∨ (s.ctx k).halted = true → (t.ctx k).trapped = (s.ctx k).trapped ∧ ((s.ctx k).halted = true → (t.ctx k).halted = true) ∧ (t.ctx k).frame = (s.ctx k).frame
theorem State.KeepsStopped.refl (k : Nat) (s : State) : s.KeepsStopped k s := ⟨.refl s, fun _ _ => rfl, fun _ => ⟨rfl, id, rfl⟩⟩
theorem State.KeepsStopped.trans {k : Nat} {s t u : State} (h : s.KeepsStopped k t) (h' : t.KeepsStopped k u) : s.KeepsStopped k u :=
  ⟨h.bytes.trans h'.bytes, fun q o => (h'.regs q o).trans (h.regs q o), fun hg => by
    obtain ⟨a, b, d⟩ := h.group hg
    obtain ⟨a', b', d'⟩ := h'.group (hg.imp (fun h1 => a.trans h1) b)
    exact ⟨a'.trans a, fun h1 => b' (b h1), d'.trans d⟩⟩
theorem State.KeepsStopped.modCtx (k : Nat) (s : State) (j : Nat) (f : Ctx → Ctx)
    (hf : j = k → ∀ c : Ctx, c.trapped = true ∨ c.halted = true → (f c).trapped = c.trapped ∧ (c.halted = true → (f c).halted = true) ∧ (f c).frame = c.frame) :
    s.KeepsStopped k (s.modCtx j f) := by
  refine ⟨.modCtx s j f, fun q o => rfl, fun hg => ?_⟩
  by_cases hj : j = k
  · cases hc : Sparse.find s.ctxs k with
    | none =>
      have : s.ctx k = {} := by unfold State.ctx; rw [hc]; rfl
      rw [this] at hg
      exact absurd hg (by simp)
    | some c =>
      have e := State.ctx_of_find _ _ _ hc
      subst hj
      rw [State.ctx_modCtx _ _ _ _ hc, e]
      exact hf rfl c (e ▸ hg)
  · rw [State.ctx_modCtx_ne _ _ _ _ (Ne.symm hj)]
    exact ⟨rfl, id, rfl⟩
theorem haltGroup_keepsStopped {s : State} {k : Nat} (ht : ∀ q, bits ((s.pkg q).reg 0x0FD8) 63 63 = 0) (hg : (s.ctx k).trapped = true ∨ (s.ctx k).halted = true) (j : Nat) :
    s.KeepsStopped k (s.haltGroup j) := by
  unfold State.haltGroup
  dsimp only
  split
  · exact .refl k s
  · next h1 =>
    split
    · exact .modCtx k s j _ (fun _ c _ => ⟨rfl, id, rfl⟩)
    · next h2 =>
      have hjk : j ≠ k := fun e => by
        subst e
        rcases hg with hg | hg
        · exact h2 hg
        · exact h1 (.inl hg)
      unfold State.traceStop
      dsimp only
      rw [trace_off]
      · exact .modCtx k s j _ (fun e => absurd e hjk)
      · exact ht _
theorem haltSeq_keepsStopped (s : State) (k j : Nat) : s.KeepsStopped k (s.haltSeq j) := by
  unfold State.haltSeq
  split
  · exact .modCtx k s j _ (fun _ c _ => ⟨rfl, id, rfl⟩)
  · refine .modCtx k s j _ (fun _ c _ => ?_)
    rw [revertHints_eq, Ctx.modLanes_only]
    exact ⟨rfl, fun _ => rfl, rfl⟩
/-- A halt of a scope leaves a group that has stopped as it is. -/
theorem haltScope_keepsStopped {s : State} {k : Nat} (ht : ∀ q, bits ((s.pkg q).reg 0x0FD8) 63 63 = 0) (hg : (s.ctx k).trapped = true ∨ (s.ctx k).halted = true)
    (c : Ctx) (sc : HScope) : s.KeepsStopped k (s.haltScope c sc) := by
  refine foldl_induct (s.KeepsStopped k) _ (fun t j h => h.trans (haltSeq_keepsStopped t k j)) _ _ (foldl_induct (s.KeepsStopped k) _ (fun t j h => h.trans ?_) _ _ (.refl k s))
  obtain ⟨a, b, -⟩ := h.group hg
  exact haltGroup_keepsStopped (fun q => by rw [h.regs]; exact ht q) (hg.imp (fun h1 => a.trans h1) b) j
/-- A package whose breakpoints have been hit. -/
def Package.hitBps (bs : List Nat) (q : Package) : Package := bs.foldl (fun p b => p.setFld (0x0F18 + 16 * b) 60 60 1) q
theorem hitBps_other (bs : List Nat) {o : Nat} (ho : ∀ b ∈ bs, o ≠ 0x0F18 + 16 * b) (q : Package) : (q.hitBps bs).reg o = q.reg o := by
  unfold Package.hitBps
  induction bs generalizing q with
  | nil => rfl
  | cons b bs ih =>
    rw [List.foldl_cons, ih (fun x hx => ho x (List.mem_cons_of_mem _ hx)), Package.reg_setFld, if_neg (ho b List.mem_cons_self)]
theorem hitBps_hit (bs : List Nat) {b : Nat} (hb : b ∈ bs) (q : Package) : bits ((q.hitBps bs).reg (0x0F18 + 16 * b)) 60 60 = 1 := by
  have same : ∀ q o, bits ((Package.setFld q o 60 60 1).reg o) 60 60 = 1 := fun q o => by
    rw [Package.reg_setFld, if_pos rfl, bits_putBits_same _ _ (le_refl 60) (by omega)]; rfl
  refine foldl_reach (fun _ => True) (fun (q : Package) b => bits (q.reg (0x0F18 + 16 * b)) 60 60 = 1) (fun _ _ _ => trivial) (fun q b _ => same q _) (fun q k j _ hj => ?_)
    bs q trivial b (.inl hb)
  by_cases h : 0x0F18 + 16 * j = 0x0F18 + 16 * k
  · rw [h]; exact same q _
  · rw [Package.reg_setFld, if_neg h]; exact hj
/-- The stop of a group at breakpoints, before its scope halts. -/
def State.bpStop (s : State) (k : Nat) (c : Ctx) (i : Issue) (b : Nat) (ls : List Nat) : State :=
  let first := i.pc - BitVec.ofNat 64 (4 * c.firstHints ls)
  if (s.pkg c.pkg).trapEn then (s.modCtx k Ctx.revertHints).takeTrap k first (BitVec.ofNat 32 ((s.fetchWord c first).getD 0)) 0x17 ls b none
  else (s.stopGroup k).trace c 4 ls (fun _ => first.toNat) (fun _ => 0x17)
theorem breakpoint_eq (s : State) (k : Nat) (i : Issue) (b : Nat) (bs ls : List Nat) : ∃ n, s.breakpoint k i (b :: bs) ls =
    let s1 := (s.modPkg (s.ctx k).pkg (Package.hitBps (b :: bs))).bpStop k (s.ctx k) i b ls
    match n with | 0 => s1 | n => s1.haltScope (s.ctx k) (HScope.ofCode (n - 1)) := ⟨_, rfl⟩
/-- R402: the group traps or, without handlers, halts. -/
theorem bpStop_stops {s : State} {k : Nat} {c : Ctx} (hc : Sparse.find s.ctxs k = some c) (hk : c.kind = .group) (hr : c.trapped = false)
    (ht : bits ((s.pkg c.pkg).reg 0x0FD8) 63 63 = 0) (i : Issue) (b : Nat) (ls : List Nat) :
    let t := s.bpStop k c i b ls
    SameBytes s t ∧ (∀ q o, (t.pkg q).reg o = (s.pkg q).reg o)
    ∧ (bits ((s.pkg c.pkg).reg 0x0C08) 16 16 = 1 → (t.ctx k).trapped = true ∧ (t.ctx k).frame.cause = 0x17 ∧ (t.ctx k).frame.lanes = maskOf ls
        ∧ (t.ctx k).frame.info = BitVec.ofNat 64 b)
    ∧ (¬ bits ((s.pkg c.pkg).reg 0x0C08) 16 16 = 1 → (t.ctx k).halted = true ∧ (t.ctx k).trapped = false) := by
  have hb : ∀ f : Ctx → Ctx, SameBytes s (s.modCtx k f) := fun f => .modCtx s k f
  unfold State.bpStop
  dsimp only
  by_cases he : bits ((s.pkg c.pkg).reg 0x0C08) 16 16 = 1
  · rw [if_pos ((trapEn_iff _).mpr he)]
    have hro : c.revertHints = { c with lanes := c.revertHints.lanes } := Ctx.modLanes_only ..
    have hf : Sparse.find (s.modCtx k Ctx.revertHints).ctxs k = some c.revertHints := by rw [State.find_modCtx, if_pos rfl, hc]; rfl
    obtain ⟨a, -, -, d, e, -⟩ := groupTrap hf (by rw [hro]; exact hk) (by rw [hro]; exact ht) (i.pc - BitVec.ofNat 64 (4 * c.firstHints ls))
      (BitVec.ofNat 32 ((s.fetchWord c (i.pc - BitVec.ofNat 64 (4 * c.firstHints ls))).getD 0)) (cause := 0x17) (by decide) ls b none
    obtain ⟨e1, -⟩ := e (by rw [hro]; exact he)
    refine ⟨(hb _).trans a, d, fun _ => ?_, fun h => absurd he h⟩
    rw [e1, trapStop_only]
    exact ⟨rfl, rfl, rfl, rfl⟩
  · rw [if_neg (fun h => he ((trapEn_iff _).mp h)), trace_off]
    · refine ⟨hb _, fun _ _ => rfl, fun h => absurd h he, fun _ => ?_⟩
      unfold State.stopGroup
      rw [State.ctx_modCtx _ _ _ _ hc, revertHints_eq, Ctx.modLanes_only]
      exact ⟨rfl, hr⟩
    · exact ht
theorem grantable_found {s : State} {k : Nat} (h : s.grantable k = true) : Sparse.find s.ctxs k = some (s.ctx k) := by
  unfold State.grantable at h
  cases hc : Sparse.find s.ctxs k with
  | none => rw [hc] at h; exact absurd h Bool.false_ne_true
  | some c => rw [State.ctx_of_find _ _ _ hc]
theorem exec_breakpointHit {s : State} {k : Nat} {i : Issue} {b : Nat} {bs ls : List Nat} (hg : s.grantable k = true) (hi : s.nextIssue k = some i)
    (hh : s.bpHits (s.ctx k) (lanesOf i.lanes) = (b :: bs, ls)) : exec (.breakpointHit k) s = .next (s.breakpoint k i (b :: bs) ls) := by
  rw [exec_breakpointHit_eq, execBreakpointHit, hg, hi]
  dsimp only
  rw [hh]
theorem bpHits_lt {s : State} {c : Ctx} {coh bs ls : List Nat} (h : s.bpHits c coh = (bs, ls)) : ∀ b ∈ bs, b < 4 := by
  intro b hb
  have e : (s.bpHits c coh).1 = bs := by rw [h]
  rw [← e] at hb
  exact List.mem_range.mp (List.mem_filter.mp (List.mem_filter.mp hb).1).1
/-- Breakpoints, one part of O47. -/
theorem breakpoint_effect {s : State} {k : Nat} {i : Issue} {b : Nat} {bs ls : List Nat} (hg : s.grantable k = true) (hi : s.nextIssue k = some i)
    (hh : s.bpHits (s.ctx k) (lanesOf i.lanes) = (b :: bs, ls)) (hk : (s.ctx k).kind = .group) (hr : (s.ctx k).trapped = false)
    (ht : ∀ q, bits ((s.pkg q).reg 0x0FD8) 63 63 = 0) :
    ∃ t, exec (.breakpointHit k) s = .next t ∧ SameBytes s t
        ∧ (∀ n ∈ b :: bs, bits ((t.pkg (s.ctx k).pkg).reg (0x0F18 + 16 * n)) 60 60 = 1)
        ∧ (bits ((s.pkg (s.ctx k).pkg).reg 0x0C08) 16 16 = 1 → (t.ctx k).trapped = true ∧ (t.ctx k).frame.cause = 0x17
            ∧ (t.ctx k).frame.lanes = maskOf ls ∧ (t.ctx k).frame.info = BitVec.ofNat 64 b)
        ∧ (bits ((s.pkg (s.ctx k).pkg).reg 0x0C08) 16 16 = 0 → (t.ctx k).halted = true ∧ (t.ctx k).trapped = false) := by
  have hlt := bpHits_lt hh
  obtain ⟨n, hn⟩ := breakpoint_eq s k i b bs ls
  obtain ⟨s1, hs1⟩ : ∃ s1, s1 = s.modPkg (s.ctx k).pkg (Package.hitBps (b :: bs)) := ⟨_, rfl⟩
  have hpk : s1.pkg (s.ctx k).pkg = (s.pkg (s.ctx k).pkg).hitBps (b :: bs) := by rw [hs1, State.pkg_modPkg_same]
  have hreg : ∀ o, (∀ x < 4, o ≠ 0x0F18 + 16 * x) → ∀ q, (s1.pkg q).reg o = (s.pkg q).reg o := fun o ho q => by
    rw [hs1, State.pkg_modPkg]
    split
    · next e => rw [hitBps_other _ (fun x hx => ho x (hlt x hx)), e]
    · rfl
  have htr : ∀ q, bits ((s1.pkg q).reg 0x0FD8) 63 63 = 0 := fun q => by rw [hreg _ (fun x hx => by omega)]; exact ht q
  have hen := hreg 0x0C08 (fun x hx => by omega) (s.ctx k).pkg
  obtain ⟨a, d, e, f⟩ := bpStop_stops (s := s1) (by rw [hs1]; exact (grantable_found hg : Sparse.find s.ctxs k = _)) hk hr (htr _) i b ls
  rw [hen] at e f
  rw [← hs1] at hn
  have hstop : ((s1.bpStop k (s.ctx k) i b ls).ctx k).trapped = true ∨ ((s1.bpStop k (s.ctx k) i b ls).ctx k).halted = true := by
    by_cases he : bits ((s.pkg (s.ctx k).pkg).reg 0x0C08) 16 16 = 1
    · exact .inl (e he).1
    · exact .inr (f he).1
  have hK : (s1.bpStop k (s.ctx k) i b ls).KeepsStopped k (s.breakpoint k i (b :: bs) ls) := by
    rw [hn]
    dsimp only
    split
    · exact .refl k _
    · exact haltScope_keepsStopped (fun q => by rw [d]; exact htr q) hstop _ _
  obtain ⟨g1, g2, g3⟩ := hK.group hstop
  refine ⟨_, exec_breakpointHit hg hi hh, (hs1 ▸ SameBytes.modPkg s _ _ : SameBytes s s1).trans (a.trans hK.bytes), fun x hx => ?_, fun he => ?_, fun he => ?_⟩
  · rw [hK.regs, d, hpk]
    exact hitBps_hit _ hx _
  · rw [g1, g3]
    exact e he
  · obtain ⟨f1, f2⟩ := f (by rw [he]; decide)
    exact ⟨g2 f1, g1.trans f2⟩

/-! ### Samples -/

theorem sampleLanes_mem {s : State} {p : Nat} {core : Site} {e : Nat × Nat × Nat} (h : e ∈ s.sampleLanes p core) : ∃ c, (e.2.1, c) ∈ s.ctxs ∧ c.pkg = p := by
  unfold State.sampleLanes at h
  dsimp only at h
  obtain ⟨i, -, hi⟩ := List.mem_flatMap.mp h
  split at hi
  · next x hx =>
    obtain ⟨l, -, hl⟩ := List.mem_map.mp hi
    have hm := List.mem_filter.mp (List.mem_of_find?_eq_some hx)
    have hp : x.2.pkg = p := by
      have h2 := hm.2
      simp only [Bool.and_eq_true, decide_eq_true_eq] at h2
      obtain ⟨⟨-, h3⟩, -⟩ := h2
      exact h3
    exact ⟨x.2, by rw [← hl]; exact hm.1, hp⟩
  · exact absurd hi (by simp)
theorem traceOne_only (s : State) (c : Ctx) (kind lane pc target leaf : Nat) : ∃ l, s.traceOne c kind lane pc target leaf = s
    ∨ s.traceOne c kind lane pc target leaf = s.modPkg c.pkg (fun p => { p with traceq := p.traceq ++ l }) := by
  unfold State.traceOne
  dsimp only
  generalize (if kind ≤ 3 then _ else _) = on
  split
  · exact ⟨[], .inl rfl⟩
  · exact ⟨_, .inr rfl⟩
/-- The first lane from the pointer on, else the first of all. -/
def sampleNext (l : List (Nat × Nat × Nat)) (ptr : Nat) : Option (Nat × Nat × Nat) :=
  match l.find? (fun e => decide (ptr ≤ e.1)) with | some e => some e | none => l.head?
theorem sampleNext_some {l : List (Nat × Nat × Nat)} (hl : l ≠ []) (ptr : Nat) :
    ∃ e ∈ l, sampleNext l ptr = some e ∧ ((∀ f ∈ l, f.1 < ptr) ∨ ptr ≤ e.1) := by
  unfold sampleNext
  cases hf : l.find? (fun e => decide (ptr ≤ e.1)) with
  | some e => exact ⟨e, List.mem_of_find?_eq_some hf, rfl, .inr (by have := List.find?_some hf; simpa using this)⟩
  | none =>
    obtain ⟨x, r, rfl⟩ := List.exists_cons_of_ne_nil hl
    refine ⟨x, List.mem_cons_self, rfl, .inl fun f hm => ?_⟩
    have := List.find?_eq_none.mp hf f hm
    simpa using this
/-- A sample's choice noted in its package. -/
def Package.sampled (core n : Nat) (q : Package) : Package :=
  { q with samplePtr := Sparse.set 0 q.samplePtr core n, sampleOwed := q.sampleOwed.filter (fun m => decide (m ≠ core)) }
theorem exec_traceSample {s : State} {p core : Nat} {e : Nat × Nat × Nat} (hd : s.sampleDue p core = true)
    (he : sampleNext (s.sampleLanes p (siteOfLoc core)) (Sparse.get 0 (s.pkg p).samplePtr core) = some e) :
    ∃ leaf, exec (.traceSample p core) s = .next ((s.traceOne (s.ctx e.2.1) 6 e.2.2 ((s.ctx e.2.1).lane e.2.2).imgPc 0 leaf).modPkg p (Package.sampled core ((e.1 + 1) % 1024))) := by
  rw [exec_traceSample_eq, execTraceSample, if_neg (by simp [hd])]
  dsimp only
  unfold sampleNext at he
  cases hf : (s.sampleLanes p (siteOfLoc core)).find? (fun e => decide (Sparse.get 0 (s.pkg p).samplePtr core ≤ e.1)) with
  | some x =>
    rw [hf] at he
    obtain rfl := Option.some.inj he
    exact ⟨_, rfl⟩
  | none =>
    rw [hf] at he
    dsimp only at he ⊢
    rw [he]
    exact ⟨_, rfl⟩
/-- Samples, one part of O47. -/
theorem traceSample_effect {s : State} {p core : Nat} (h1 : s.OneEach) (hd : s.sampleDue p core = true) :
    ∃ t, exec (.traceSample p core) s = .next t ∧ t.ctxs = s.ctxs ∧ t.units = s.units ∧ t.grids = s.grids
      ∧ (∀ q, q ≠ p → t.pkg q = s.pkg q)
      ∧ (∃ e ∈ s.sampleLanes p (siteOfLoc core), Sparse.get 0 (t.pkg p).samplePtr core = (e.1 + 1) % 1024
          ∧ ((∀ f ∈ s.sampleLanes p (siteOfLoc core), f.1 < Sparse.get 0 (s.pkg p).samplePtr core) ∨ Sparse.get 0 (s.pkg p).samplePtr core ≤ e.1)) := by
  have hne : s.sampleLanes p (siteOfLoc core) ≠ [] := fun h => by
    unfold State.sampleDue at hd
    rw [h] at hd
    simp at hd
  obtain ⟨e, hm, he, hc⟩ := sampleNext_some hne (Sparse.get 0 (s.pkg p).samplePtr core)
  obtain ⟨c, hcm, hcp⟩ := sampleLanes_mem hm
  have hcx : s.ctx e.2.1 = c := State.ctx_of_find _ _ _ (h1 _ hcm)
  obtain ⟨leaf, hx⟩ := exec_traceSample hd he
  have hO : OnlyPkg s (s.traceOne (s.ctx e.2.1) 6 e.2.2 ((s.ctx e.2.1).lane e.2.2).imgPc 0 leaf) p := by
    obtain ⟨l, h | h⟩ := traceOne_only s (s.ctx e.2.1) 6 e.2.2 ((s.ctx e.2.1).lane e.2.2).imgPc 0 leaf
    · rw [h]; exact .refl s p
    · rw [h, hcx, hcp]; exact .modPkg s p _
  obtain ⟨a1, a2, a3, -, -, a6⟩ := hO.trans (.modPkg _ p (Package.sampled core ((e.1 + 1) % 1024)))
  refine ⟨_, hx, ?_, ?_, ?_, a6, e, hm, ?_, hc⟩
  · exact a1
  · exact a2
  · exact a3
  · rw [State.pkg_modPkg_same]
    unfold Package.sampled
    rw [Sparse.get_set, if_pos rfl]

/-- Settles O47: an expired watchdog traps, breakpoints stop their group, samples go round. -/
theorem watchdogBreakpointsSamples : Obligations.WatchdogBreakpointsSamples := by
  refine ⟨fun s k c pc n hc hw hg hn hl ht hh => ?_, fun s k i b bs ls hg hi hh hk hr _ _ htr => breakpoint_effect hg hi hh hk hr htr, fun s p core => traceSample_effect⟩
  obtain ⟨w, hx⟩ := exec_hangWatchdog hc hw hg hn hl ht hh
  have hb := State.sameBytes_free s (s.free + 1)
  refine ⟨fun hk he htr => ?_, fun hk hu hr => ?_⟩
  · obtain ⟨a, -, d, -, e, -⟩ := groupTrap (s := { s with free := s.free + 1 }) hc hk htr pc w (cause := 0x13) (by decide) (c.watchedAt pc) 0 none
    obtain ⟨e1, e2, e3, -⟩ := e he
    have hf := State.find_of_trapped (k := k) (by rw [e1])
    refine ⟨_, _, hx, State.ctx_modCtx _ _ _ _ hf, hb.trans (a.trans (.modCtx _ _ _)), e3, fun j hj => (State.ctx_modCtx_ne _ _ _ _ hj).trans (d j hj), ?_⟩
    obtain ⟨f1, f2, f3, f4⟩ := watchOver_frame (({ s with free := s.free + 1 } : State).takeTrap k pc w 0x13 (c.watchedAt pc) 0 none |>.ctx k)
    obtain ⟨r1, r2, r3⟩ := watchOver_rest (({ s with free := s.free + 1 } : State).takeTrap k pc w 0x13 (c.watchedAt pc) 0 none |>.ctx k)
    rw [r1, r2, f1, f2, f3, f4]
    simp only [r3]
    rw [e1]
    obtain ⟨q1, q2⟩ := queued_frame (c.trapStop (({ s with free := s.free + 1 } : State).trapFrame c pc w 0x13 (c.watchedAt pc) 0 none) none (c.watchedAt pc) pc) s.cycle
    rw [q1, trapStop_frame]
    exact ⟨rfl, trivial, rfl, rfl, rfl, rfl, fun l hl => (q2 l).trans (trapStop_lane _ _ _ hk hl), e2⟩
  · obtain ⟨a, b, -, -⟩ := seqTrap (s := { s with free := s.free + 1 }) hc hk (cause := 0x13) (by decide) hu hr pc w (c.watchedAt pc) 0
    exact ⟨_, hx, a, hb.trans (b.trans (.modCtx _ _ _))⟩

end Sys2Proof.Machine
end

section
/-! Fetch faults and the entry of a handler (R149, R335, R375 to R377). -/

namespace Sys2Proof.Machine

/-! ### A double fault -/

/-- A unit that runs, or ends with one of two causes. -/
def State.RunsOrAborts (u cause : Nat) (s : State) : Prop := (s.unit u).st = .running ∨ ∃ n ∈ [cause, 0x0105], (s.unit u).st = .aborting n
theorem unit_running_found {s : State} {u : Nat} (h : (s.unit u).st = .running) : ∃ x, Sparse.find s.units u = some x := by
  unfold State.unit at h
  cases hx : Sparse.find s.units u with
  | none => rw [hx] at h; exact absurd h (by decide)
  | some x => exact ⟨x, rfl⟩
theorem abortOne_runsOrAborts {u cause : Nat} {s : State} (h : s.RunsOrAborts u cause) (v x : Nat) : (s.abortOne v cause x).RunsOrAborts u cause := by
  unfold State.abortOne
  by_cases hx : u = x
  · subst hx
    rcases h with h | ⟨n, hn, h⟩
    · obtain ⟨y, hy⟩ := unit_running_found h
      rw [h]
      dsimp only
      refine .inr ⟨if u = v then cause else 0x0105, ?_, ?_⟩
      · split <;> simp
      · rw [State.unit_modUnit _ _ _ y hy]
    · rw [h]
      exact .inr ⟨n, hn, h⟩
  · split
    · exact h
    · exact h
    · unfold State.RunsOrAborts
      rw [State.unit_modUnit_ne _ _ _ _ hx]
      exact h
theorem startAbort_runsOrAborts {u cause : Nat} {s : State} (h : s.RunsOrAborts u cause) (v : Nat) : (s.startAbort v cause).RunsOrAborts u cause := by
  obtain ⟨t, -, hu, e⟩ := startAbort_fold s v cause
  rw [e]
  refine foldl_induct (State.RunsOrAborts u cause) _ (fun y x hy => abortOne_runsOrAborts hy v x) _ _ ?_
  unfold State.RunsOrAborts State.unit at *
  rw [hu]
  exact h
theorem startAbort_keepsAbort {u n : Nat} {s : State} (h : (s.unit u).st = .aborting n) (v cause : Nat) : ((s.startAbort v cause).unit u).st = .aborting n := by
  obtain ⟨t, -, hu, e⟩ := startAbort_fold s v cause
  rw [e]
  refine foldl_induct (fun t : State => (t.unit u).st = .aborting n) _ (fun y x hy => abortOne_keeps hy v cause x) _ _ ?_
  unfold State.unit at *
  rw [hu]
  exact h
/-- Of units that abort in turn, each then aborts. -/
theorem foldl_startAbort {cause : Nat} (us : List Nat) (s : State) {u : Nat} (hu : u ∈ us) (h : (s.unit u).st = .running) :
    ∃ n ∈ [cause, 0x0105], ((us.foldl (fun s u => s.startAbort u cause) s).unit u).st = .aborting n := by
  refine foldl_reach (State.RunsOrAborts u cause) (fun t v => v = u → ∃ n ∈ [cause, 0x0105], (t.unit u).st = .aborting n) (fun t v ht => startAbort_runsOrAborts ht v)
    (fun t v ht e => ?_) (fun t v j _ hj e => ?_) us s (.inl h) u (.inl hu) rfl
  · subst e
    rcases ht with ht | ⟨n, hn, ht⟩
    · obtain ⟨y, hy⟩ := unit_running_found ht
      exact ⟨cause, List.mem_cons_self, startAbort_aborts (by rw [hy]; simp) ht cause⟩
    · exact ⟨n, hn, startAbort_keepsAbort ht v cause⟩
  · obtain ⟨n, hn, ht⟩ := hj e
    exact ⟨n, hn, startAbort_keepsAbort ht v cause⟩
/-- A core marked stopped. -/
def Package.stopCore (n : Nat) (q : Package) : Package := q.setFld (0x0D00 + 32 * (n / 256 % 8) + 8 * (n % 256 / 64)) (n % 64) (n % 64) 1
theorem stopCore_stopped (q : Package) (n : Nat) : (q.stopCore n).coreStopped n = true := by
  unfold Package.coreStopped Package.fld Package.stopCore
  rw [Package.reg_setFld, if_pos rfl, bits_putBits_same _ _ (le_refl _) (Nat.mod_lt _ (by decide)), decide_eq_true_eq, Nat.add_sub_cancel_left]
  rfl
/-- The queue of a core emptied. -/
def Package.dropQueue (n : Nat) (q : Package) : Package := { q with hq := q.hq.filter (fun e => decide (e.1 ≠ n)) }
theorem dropQueue_reg (n : Nat) (q : Package) (o : Nat) : (q.dropQueue n).reg o = q.reg o := rfl
theorem dropQueue_hq (n : Nat) (q : Package) : ∀ e ∈ (q.dropQueue n).hq, e.1 ≠ n := fun e he => by
  have := (List.mem_filter.mp he).2
  simpa using this
/-- A handler slot that lets its group go. -/
def State.dropServed (s : State) (e : Nat × Ctx) : State :=
  (s.modCtx e.2.served (fun c => { c with inHdl := false })).modCtx e.1 (fun h => { h with placed := false })
/-- The state of a core that has stopped, before its teams abort. -/
def State.stoppedCore (s : State) (p n : Nat) : State := (s.modPkg p (Package.stopCore n)).packageEvent p
theorem doubleFault_eq (s : State) (p : Nat) (core : Site) : ∃ hs : List (Nat × Ctx), s.doubleFault p core = hs.foldl State.dropServed
    (((((s.stoppedCore p core.loc).resident p core).map (fun e => e.2.unit)).eraseDups.foldl (fun s u => s.startAbort u 0x0103) (s.stoppedCore p core.loc)).modPkg p
      (Package.dropQueue core.loc)) := ⟨_, rfl⟩
theorem stoppedCore_only (s : State) (p n : Nat) : OnlyPkg s (s.stoppedCore p n) p := (OnlyPkg.modPkg s p _).trans (OnlyPkg.sendMsi _ p _)
theorem resident_congr {s t : State} (hc : t.ctxs = s.ctxs) (hu : t.units = s.units) (p : Nat) (core : Site) : t.resident p core = s.resident p core := by
  unfold State.resident State.unit
  rw [hc, hu]
theorem foldl_startAbort_same (cause : Nat) (us : List Nat) (s : State) : s.UnitsGrids (us.foldl (fun s u => s.startAbort u cause) s) :=
  foldl_induct s.UnitsGrids _ (fun t u h => h.trans (startAbort_unitsGrids t u cause)) _ _ (.refl s)
theorem foldl_dropServed (hs : List (Nat × Ctx)) (s : State) : SameBytes s (hs.foldl State.dropServed s) ∧ (∀ q, (hs.foldl State.dropServed s).pkg q = s.pkg q)
    ∧ (hs.foldl State.dropServed s).units = s.units :=
  foldl_induct (fun t : State => SameBytes s t ∧ (∀ q, t.pkg q = s.pkg q) ∧ t.units = s.units) _
    (fun t _ ⟨a, b, d⟩ => ⟨a.trans ((SameBytes.modCtx t _ _).trans (SameBytes.modCtx _ _ _)), b, d⟩) _ _ ⟨.refl s, fun _ => rfl, rfl⟩
/-- R377: what a double fault leaves. -/
theorem doubleFault_effect (s : State) (p : Nat) (core : Site) :
    let t := s.doubleFault p core
    (t.pkg p).coreStopped core.loc = true ∧ (∀ e ∈ (t.pkg p).hq, e.1 ≠ core.loc) ∧ SameBytes s t
      ∧ ∀ e ∈ s.resident p core, (s.unit e.2.unit).st = .running → ∃ n ∈ [0x0103, 0x0105], (t.unit e.2.unit).st = .aborting n := by
  obtain ⟨hs, hx⟩ := doubleFault_eq s p core
  obtain ⟨s1, h1⟩ : ∃ s1, s1 = s.stoppedCore p core.loc := ⟨_, rfl⟩
  have ho : OnlyPkg s s1 p := h1 ▸ stoppedCore_only s p core.loc
  have hb := ho.sameBytes
  obtain ⟨o1, o2, -⟩ := ho
  obtain ⟨s2, h2⟩ : ∃ s2, s2 = ((s.resident p core).map (fun e => e.2.unit)).eraseDups.foldl (fun s u => s.startAbort u 0x0103) s1 := ⟨_, rfl⟩
  have hu : s1.UnitsGrids s2 := h2 ▸ foldl_startAbort_same ..
  rw [← h1, resident_congr o1 o2, ← h2] at hx
  obtain ⟨f1, f2, f3⟩ := foldl_dropServed hs (s2.modPkg p (Package.dropQueue core.loc))
  rw [← hx] at f1 f2 f3
  have hp : (s.doubleFault p core).pkg p = (s1.pkg p).dropQueue core.loc := by
    rw [f2, State.pkg_modPkg_same, hu.pkg]
  have hr : ∀ o, (s1.pkg p).reg o = ((s.pkg p).stopCore core.loc).reg o := fun o => by
    rw [h1]
    unfold State.stoppedCore State.packageEvent
    rw [State.sendMsi_pkg, State.pkg_modPkg_same]
  refine ⟨?_, ?_, (hb.trans hu.bytes).trans ((SameBytes.modPkg s2 p _).trans f1), fun e he hrun => ?_⟩
  · rw [hp, coreStopped_congr (q := (s.pkg p).stopCore core.loc) (fun o => by rw [dropQueue_reg, hr])]
    exact stopCore_stopped _ _
  · rw [hp]
    exact dropQueue_hq _ _
  · obtain ⟨n, hn, ha⟩ := foldl_startAbort (cause := 0x0103) ((s.resident p core).map (fun e => e.2.unit)).eraseDups s1
      (List.mem_eraseDups.mpr (List.mem_map_of_mem he)) (by unfold State.unit at hrun ⊢; rw [o2]; exact hrun)
    refine ⟨n, hn, ?_⟩
    rw [← h2] at ha
    unfold State.unit at ha ⊢
    rw [f3]
    exact ha

/-! ### Faults of fetches -/

theorem writeFrec_off {s : State} {p : Nat} (h : bits ((s.pkg p).reg 0x0608) 63 63 = 0) : s.writeFrec p = s := by
  unfold State.writeFrec
  dsimp only
  split
  · rfl
  · rw [if_pos (.inl h)]
theorem parkOn_record {s : State} {y : Party} (hoff : bits ((s.pkg y.pkg).reg 0x0608) 63 63 = 0) (va kind : Nat) (pte : DWord) (k : AccKind) :
    ∃ r ∈ ((s.parkOn y va kind pte k).1.pkg y.pkg).frecs, r.id = (s.parkOn y va kind pte k).2 ∧ r.asid = y.asid ∧ r.va / 4096 = va / 4096 ∧ r.kind = kind := by
  unfold State.parkOn
  dsimp only
  split
  · next r hr =>
    have hm := List.find?_some hr
    simp only [Bool.and_eq_true, decide_eq_true_eq] at hm
    obtain ⟨⟨⟨⟨-, h1⟩, h2⟩, h3⟩, -⟩ := hm
    exact ⟨r, List.mem_of_find?_eq_some hr, rfl, h1, h2, h3⟩
  · unfold State.newFrec
    dsimp only
    rw [writeFrec_off, ite_self, State.pkg_modPkg_same]
    · exact ⟨_, List.mem_append_right _ List.mem_cons_self, rfl, rfl, rfl, rfl⟩
    · rw [State.pkg_modPkg_same]
      exact hoff
theorem exec_fetchFault {s : State} {k l : Nat} {c : Ctx} (hc : Sparse.find s.ctxs k = some c) (hr : s.runs c = true) (hl : l ∈ c.freeLanes) :
    exec (.fetchFault k l) s = (match s.fetchAt c (c.lane l).pc, c.kind with
    | .ok _ _, _ => .fault (.notEnabled "FETCH_FAULT")
    | _, .handler => .next (s.doubleFault c.pkg c.site)
    | .fetchFault, _ => .next (State.takeTrap { s with free := s.free + 1 } k (c.lane l).pc ((Config.freeWord s.free).setWidth 32) 6 (c.freeLanes.filter (fun m => decide ((c.lane m).pc = (c.lane l).pc))) (c.lane l).pc.toNat none)
    | .access, _ => .next (State.takeTrap { s with free := s.free + 1 } k (c.lane l).pc ((Config.freeWord s.free).setWidth 32) 8 (c.freeLanes.filter (fun m => decide ((c.lane m).pc = (c.lane l).pc))) (c.lane l).pc.toNat none)
    | .park kind pte, _ => .next ((s.parkOn (s.partyOf c false) (c.lane l).pc.toNat kind pte .fetch).1.modCtx k
        (fun d => d.modLane l (fun x => { x with wait := .fetch (s.parkOn (s.partyOf c false) (c.lane l).pc.toNat kind pte .fetch).2 })))) := by
  have hlt : c.freeLanes.contains l = true := by simpa using hl
  rw [exec_fetchFault_eq, execFetchFault]
  dsimp only
  rw [State.ctx_of_find _ _ _ hc, if_neg (by simp [hr, hl])] <;> rfl
theorem leastOf_mem {α : Type} (f : α → Nat) {l : List α} {x : α} (h : leastOf f l = some x) : x ∈ l := by
  induction l generalizing x with
  | nil => exact absurd h (by simp [leastOf])
  | cons y r ih =>
    unfold leastOf at h
    split at h
    · obtain rfl := Option.some.inj h
      exact List.mem_cons_self
    · next z hz =>
      split at h
      · obtain rfl := Option.some.inj h
        exact List.mem_cons_of_mem _ (ih hz)
      · obtain rfl := Option.some.inj h
        exact List.mem_cons_self
theorem nextServed_trapped {s : State} {p core k : Nat} (h : s.nextServed p core = some k) : (s.ctx k).trapped = true := by
  unfold State.nextServed at h
  obtain ⟨e, he, rfl⟩ := Option.map_eq_some_iff.mp h
  have hm := (List.mem_filter.mp (leastOf_mem _ he)).2
  simp only [Bool.and_eq_true] at hm
  obtain ⟨⟨-, h2⟩, -⟩ := hm
  exact h2
theorem Sparse.foldl_max_le {α : Type} (m : List (Nat × α)) (a : Nat) : a ≤ m.foldl (fun a e => max a (e.1 + 1)) a ∧ ∀ e ∈ m, e.1 < m.foldl (fun a e => max a (e.1 + 1)) a := by
  induction m generalizing a with
  | nil => exact ⟨le_refl a, fun _ h => absurd h (by simp)⟩
  | cons x r ih =>
    obtain ⟨h1, h2⟩ := ih (max a (x.1 + 1))
    rw [List.foldl_cons]
    refine ⟨by omega, fun e he => ?_⟩
    rcases List.mem_cons.mp he with rfl | he
    · omega
    · exact h2 e he
theorem Sparse.lt_next {α : Type} {m : Sparse α} {k : Nat} {x : α} (h : Sparse.find m k = some x) : k < Sparse.next m :=
  (Sparse.foldl_max_le m 0).2 (k, x) (Sparse.mem_of_find_some h)
/-- The key of a context that is created. -/
def State.newKey (s : State) : Nat := max s.fresh (Sparse.next s.ctxs)
theorem putCtx_key (s : State) (c : Ctx) : s.putCtx c = { s with ctxs := Sparse.put s.ctxs s.newKey c, fresh := s.newKey + 1 } := rfl
theorem State.newKey_ne {s : State} {k : Nat} {x : Ctx} (h : Sparse.find s.ctxs k = some x) : k ≠ s.newKey := by
  have := Sparse.lt_next h
  unfold State.newKey
  omega
/-- The lanes of a context that has just been created. -/
theorem entryLanes_lane {c : Ctx} {n : Nat} {pc : DWord} (h : c.lanes = entryLanes n pc) {l : Nat} (hl : l < n) : c.lane l = { pc := pc } := by
  unfold Ctx.lane
  rw [h]
  unfold entryLanes
  rw [find_map_same, if_pos (List.mem_range.mpr hl)]
  rfl
theorem State.ctx_congr {s t : State} {j : Nat} (h : Sparse.find t.ctxs j = Sparse.find s.ctxs j) : t.ctx j = s.ctx j := by unfold State.ctx; rw [h]
/-- A handler slot at entry takes the context of the slot, or a new one. -/
def State.enterHandler (s : State) (p : Nat) (site : Site) (h : Ctx) : State := match s.handlerSlot p site with | some e => s.modCtx e.1 (fun _ => h) | none => s.putCtx h
theorem exec_handlerEntry {s : State} {p core k : Nat} (hk : s.nextServed p core = some k) (hst : (s.pkg p).coreStopped core = false)
    (hcl : s.clockRuns p (siteOfLoc core) = true) (hs : ∀ e, s.handlerSlot p (siteOfLoc core) = some e → e.2.placed = false ∧ e.2.rq = [] ∧ e.1 ≠ k) :
    ∃ n, exec (.handlerEntry p core) s = .next ((s.enterHandler p (siteOfLoc core) ((s.pkg p).handlerAtEntry p (siteOfLoc core) k (s.ctx k).resIdx n)).modCtx k
      (fun c => { c with inHdl := true })) := by
  rw [exec_handlerEntry_eq, execHandlerEntry]
  dsimp only
  rw [hk]
  dsimp only
  unfold State.enterHandler
  cases hslot : s.handlerSlot p (siteOfLoc core) with
  | none =>
    rw [if_neg (by simp [hst, hcl])]
    exact ⟨0, rfl⟩
  | some e =>
    obtain ⟨h1, h2, -⟩ := hs e hslot
    rw [if_neg (by simp [hst, hcl, h1, h2])]
    exact ⟨e.2.nextId, rfl⟩
theorem enterHandler_effect {s : State} {p k : Nat} {site : Site} {c h : Ctx} (hc : Sparse.find s.ctxs k = some c) (hs : ∀ e, s.handlerSlot p site = some e → e.1 ≠ k) :
    let t := s.enterHandler p site h
    SameBytes s t ∧ t.units = s.units ∧ t.grids = s.grids ∧ t.pkgs = s.pkgs ∧ ∃ n, n ≠ k ∧ ∀ j, Sparse.find t.ctxs j = if j = n then some h else Sparse.find s.ctxs j := by
  unfold State.enterHandler
  cases hslot : s.handlerSlot p site with
  | none =>
    refine ⟨fun a => by cases a <;> rfl, rfl, rfl, rfl, s.newKey, (State.newKey_ne hc).symm, fun j => ?_⟩
    rw [putCtx_key]
    exact Sparse.find_put ..
  | some e =>
    refine ⟨SameBytes.modCtx s _ _, rfl, rfl, rfl, e.1, hs e hslot, fun j => ?_⟩
    have hm : (e.1, e.2) ∈ s.ctxs := List.mem_of_find?_eq_some hslot
    obtain ⟨x, hx⟩ := Option.isSome_iff_exists.mp (Sparse.find_isSome_of_mem hm)
    dsimp only
    rw [State.find_modCtx]
    split
    · rw [hx]; rfl
    · rfl
theorem handlerAtEntry_g (q : Package) (p : Nat) (core : Site) (k res nid n : Nat) :
    (q.handlerAtEntry p core k res nid).rdG n = if n = 0 then BitVec.ofNat 32 res else 0 := by
  have h : (q.handlerAtEntry p core k res nid).g = Sparse.set 0 [] 0 (BitVec.ofNat 32 res) := rfl
  unfold Ctx.rdG
  rw [h, Sparse.get_set]
  rfl
/-- The entry of a handler, one part of O48. -/
theorem handlerEntry_effect {s : State} {p core k : Nat} (hk : s.nextServed p core = some k) (hst : (s.pkg p).coreStopped core = false)
    (hcl : s.clockRuns p (siteOfLoc core) = true) (hs : ∀ e, s.handlerSlot p (siteOfLoc core) = some e → e.2.placed = false ∧ e.2.rq = [] ∧ e.1 ≠ k) :
      ∃ t h x, exec (.handlerEntry p core) s = .next t ∧ SameBytes s t ∧ t.units = s.units ∧ t.grids = s.grids ∧ t.pkgs = s.pkgs
        ∧ Sparse.find t.ctxs h = some x ∧ h ≠ k ∧ (∀ j, j ≠ k → j ≠ h → t.ctx j = s.ctx j)
        ∧ x.kind = .handler ∧ x.pkg = p ∧ x.site = siteOfLoc core ∧ x.placed = true ∧ x.served = k ∧ x.winIdx = (s.ctx k).resIdx ∧ x.winRegion = 0
        ∧ x.asid = bits ((s.pkg p).reg 0x0C08) 15 0 ∧ x.hfs = 0 ∧ x.hfa = 0 ∧ x.fpflags = 0 ∧ x.v = [] ∧ x.e = []
        ∧ (∀ n, x.rdG n = if n = 0 then BitVec.ofNat 32 (s.ctx k).resIdx else 0)
        ∧ (∀ l < 32, x.lane l = { pc := BitVec.ofNat 64 (bits ((s.pkg p).reg 0x0C00) 56 2 * 4) })
        ∧ (Sparse.find s.ctxs k ≠ none → t.ctx k = { s.ctx k with inHdl := true }) := by
  have hf := State.find_of_trapped (nextServed_trapped hk)
  obtain ⟨nid, hx⟩ := exec_handlerEntry hk hst hcl hs
  obtain ⟨a, b, d, e, n, hn, hfind⟩ := enterHandler_effect (h := (s.pkg p).handlerAtEntry p (siteOfLoc core) k (s.ctx k).resIdx nid) hf (fun e he => (hs e he).2.2)
  refine ⟨_, n, (s.pkg p).handlerAtEntry p (siteOfLoc core) k (s.ctx k).resIdx nid, hx, a.trans (SameBytes.modCtx _ _ _), b, d, e, ?_, hn, fun j hj hjn => ?_, rfl, rfl, rfl, rfl, rfl, rfl, rfl, rfl, rfl, rfl, rfl, rfl, rfl, fun n => handlerAtEntry_g .., fun l hl => ?_, fun _ => ?_⟩
  · rw [State.find_modCtx, if_neg hn, hfind, if_pos rfl]
  · exact (State.ctx_modCtx_ne _ _ _ _ hj).trans (State.ctx_congr (by rw [hfind, if_neg hjn]))
  · exact entryLanes_lane rfl hl
  · exact State.ctx_modCtx _ _ _ _ (by rw [hfind, if_neg hn.symm]; exact hf)

/-- Settles O48: the effect of a fetch that does not end well, and of the entry of a handler. -/
theorem fetchFaultsAndHandlers : Obligations.FetchFaultsAndHandlers := by
  refine ⟨fun s k c l hc hr hl _ => ?_, fun s p core k => handlerEntry_effect⟩
  have hx := exec_fetchFault hc hr hl
  have hb := State.sameBytes_free s (s.free + 1)
  refine ⟨fun hk hf he ht => ?_, fun hk hf he ht => ?_, fun hk kind pte hf => ?_, fun hk hf hloc => ?_⟩
  · rw [hf, hk] at hx
    obtain ⟨a, -, -, -, e, -⟩ := groupTrap (s := { s with free := s.free + 1 }) hc hk ht (c.lane l).pc ((Config.freeWord s.free).setWidth 32) (cause := 6) (by decide)
      (c.freeLanes.filter (fun m => decide ((c.lane m).pc = (c.lane l).pc))) (c.lane l).pc.toNat none
    obtain ⟨e1, -⟩ := e he
    refine ⟨_, hx, ?_⟩
    rw [e1, (queued_frame _ _).1, trapStop_frame]
    exact ⟨rfl, rfl, BitVec.ofNat_toNat .., rfl, hb.trans a, rfl⟩
  · rw [hf, hk] at hx
    obtain ⟨-, -, -, -, e, -⟩ := groupTrap (s := { s with free := s.free + 1 }) hc hk ht (c.lane l).pc ((Config.freeWord s.free).setWidth 32) (cause := 8) (by decide)
      (c.freeLanes.filter (fun m => decide ((c.lane m).pc = (c.lane l).pc))) (c.lane l).pc.toNat none
    obtain ⟨e1, -⟩ := e he
    refine ⟨_, hx, ?_⟩
    rw [e1, (queued_frame _ _).1, trapStop_frame]
    exact ⟨rfl, rfl⟩
  · obtain ⟨y, hy⟩ : ∃ y, y = s.partyOf c false := ⟨_, rfl⟩
    have hA := s.parkOn_aside y (c.lane l).pc.toNat kind pte .fetch
    obtain ⟨t, ht⟩ : ∃ t, t = s.parkOn y (c.lane l).pc.toNat kind pte .fetch := ⟨_, rfl⟩
    have hx' : exec (.fetchFault k l) s = .next (t.1.modCtx k (fun d => d.modLane l (fun x => { x with wait := .fetch t.2 }))) := by
      rw [ht, hy, hx, hf]
      cases hkk : c.kind with
      | handler => exact absurd hkk hk
      | group => rfl
      | seq => rfl
    rw [← ht] at hA
    have hcx : ∀ j, t.1.ctx j = s.ctx j := hA.ctx
    have hft : Sparse.find t.1.ctxs k = some c := by rw [hA.ctxs]; exact hc
    refine ⟨_, t.2, hx', ?_, fun m hm => ?_, fun j hj => (State.ctx_modCtx_ne _ _ _ _ hj).trans (hcx j), fun hoff => ?_⟩
    · rw [State.ctx_modCtx _ _ _ _ hft, Ctx.lane_modLane, if_pos rfl]
    · rw [State.ctx_modCtx _ _ _ _ hft, Ctx.lane_modLane, if_neg hm]
    · obtain ⟨r, h1, h2, h3, h4, h5⟩ := parkOn_record (s := s) (y := y) (by rw [hy]; exact hoff) (c.lane l).pc.toNat kind pte .fetch
      rw [← ht] at h1 h2
      exact ⟨r, by rw [hy] at h1; exact h1, h2, by rw [h3, hy]; rfl, h4, h5⟩
  · have hx' : exec (.fetchFault k l) s = .next (s.doubleFault c.pkg c.site) := by
      rw [hx, hk]
      cases hr : s.fetchAt c (c.lane l).pc with
      | ok a b => exact absurd hr (hf a b)
      | fetchFault => rfl
      | access => rfl
      | park a b => rfl
    exact ⟨_, hx', doubleFault_effect s c.pkg c.site⟩

end Sys2Proof.Machine
end

section
/-! The end of a handler (R380). -/

namespace Sys2Proof.Machine

/-! ### A served group that leaves its trap -/

/-- The context with the skip flags of its live lanes set. -/
def Ctx.skipped (c : Ctx) : Ctx := c.modLanes c.liveLanes (fun _ x => { x with skip := true })
theorem liveLanes_nodup (c : Ctx) : c.liveLanes.Nodup := List.nodup_range.filter _
theorem mem_liveLanes (c : Ctx) (l : Nat) : l ∈ c.liveLanes ↔ l < c.nLanes ∧ (c.lane l).exited = false := by
  unfold Ctx.liveLanes
  rw [List.mem_filter, List.mem_range, Bool.not_eq_true']
theorem skipped_only (c : Ctx) : c.skipped = { c with lanes := c.skipped.lanes } := Ctx.modLanes_only ..
theorem skipped_lane (c : Ctx) (l : Nat) : c.skipped.lane l = if l ∈ c.liveLanes then { c.lane l with skip := true } else c.lane l :=
  Ctx.lane_modLanes _ (liveLanes_nodup c) _ _ _
/-- The context out of its trap. -/
def Ctx.untrapped (c : Ctx) : Ctx := { c with inHdl := false, trapped := false, frame := {} }
/-- The context stopped by halt. -/
def Ctx.haltStop (now : Nat) (c : Ctx) : Ctx := { c.revertHints.unheld with halted := true, haltPend := false, frame := { time := now } }
theorem haltStop_only (n : Nat) (c : Ctx) : c.haltStop n = { c with lanes := (c.haltStop n).lanes, hold := none, withdrawn := false, missAt := none, halted := true, haltPend := false, frame := { time := n } } := by
  have h : c.revertHints = { c with lanes := c.revertHints.lanes } := Ctx.modLanes_only ..
  unfold Ctx.haltStop
  rw [h] <;> rfl
theorem haltStop_lane (n : Nat) (c : Ctx) {l : Nat} (hl : l < c.nLanes) : (c.haltStop n).lane l = (c.lane l).stopped := by
  have h : (c.haltStop n).lane l = c.revertHints.lane l := rfl
  rw [h, revertHints_eq, Ctx.lane_modLanes _ List.nodup_range, if_pos (List.mem_range.mpr hl)]
theorem Lane.stopped_exited (x : Lane) : x.stopped.exited = x.exited := by unfold Lane.stopped; split <;> rfl
/-- The context whose handler ends while its unit moves. -/
def Ctx.handlerOver (now : Nat) (c : Ctx) : Ctx := { c with inHdl := false, frame := { time := now } }
/-- What a served group becomes when its handler ends without an abort. -/
def Ctx.leftTrap (moves : Bool) (now : Nat) (x : Ctx) : Ctx :=
  if moves then (x.handlerOver now).skipped
  else if x.haltPend || x.halted then (x.untrapped.haltStop now).skipped else x.untrapped.skipped
theorem State.Traced.modCtx {s t : State} {p : Nat} (h : s.Traced t p) (k : Nat) (f : Ctx → Ctx) : (s.modCtx k f).Traced (t.modCtx k f) p where
  rest := by rw [h.rest]; rfl
  others := h.others
  own := h.own
theorem stopGroup_modCtx (s : State) (k : Nat) (f : Ctx → Ctx) {x : Ctx} (hx : Sparse.find s.ctxs k = some x) :
    (s.modCtx k f).stopGroup k = s.modCtx k (fun _ => (f x).haltStop (s.now (f x))) := by
  unfold State.stopGroup
  rw [State.modCtx_modCtx]
  exact State.modCtx_const _ _ _ _ hx
theorem goOn_noEntries {s : State} {k : Nat} (h : (s.ctx k).rq = []) : ∃ p, (s.modCtx k Ctx.skipped).Traced (s.goOn k) p := by
  have hr : s.reinject k = s := by unfold State.reinject; rw [h]; rfl
  unfold State.goOn
  dsimp only
  rw [hr]
  split
  · exact ⟨_, State.trace_traced ..⟩
  · exact ⟨0, .refl _ _⟩
theorem leaveTrap_eq (s : State) (k : Nat) : s.leaveTrap k =
    (if s.underMove (s.ctx k) then (s.modCtx k (fun c => c.handlerOver (s.now c))).modCtx k Ctx.skipped
     else if (s.ctx k).haltPend then (((s.modCtx k Ctx.untrapped).stopGroup k).traceStop k 7).modCtx k Ctx.skipped
     else if (s.ctx k).halted then ((s.modCtx k Ctx.untrapped).stopGroup k).modCtx k Ctx.skipped
     else (s.modCtx k Ctx.untrapped).goOn k) := rfl
theorem leaveTrap_effect {s : State} {k : Nat} {x : Ctx} (hx : Sparse.find s.ctxs k = some x) (h : s.underMove x = true ∨ x.haltPend = true ∨ x.rq = []) :
    ∃ p, (s.modCtx k (fun _ => x.leftTrap (s.underMove x) (s.now x))).Traced (s.leaveTrap k) p := by
  have hc : (s.modCtx k Ctx.untrapped).ctx k = x.untrapped := State.ctx_modCtx _ _ _ _ hx
  have e1 : ∀ G : Ctx → Ctx, ((s.modCtx k Ctx.untrapped).stopGroup k).modCtx k G = s.modCtx k (fun _ => G (x.untrapped.haltStop (s.now x))) := fun G => by
    rw [stopGroup_modCtx s k _ hx, State.modCtx_modCtx]
    rfl
  rw [leaveTrap_eq, State.ctx_of_find _ _ _ hx]
  unfold Ctx.leftTrap
  by_cases hm : s.underMove x = true
  · rw [if_pos hm, if_pos hm, State.modCtx_modCtx, State.modCtx_const s k (fun c => (c.handlerOver (s.now c)).skipped) x hx]
    exact ⟨0, .refl _ _⟩
  · rw [if_neg hm, if_neg hm]
    by_cases hp : x.haltPend = true
    · rw [if_pos hp, if_pos (by simp [hp]), ← e1]
      exact ⟨_, (State.trace_traced ..).modCtx k Ctx.skipped⟩
    · rw [if_neg hp]
      by_cases hh : x.halted = true
      · rw [if_pos hh, if_pos (by simp [hh]), e1]
        exact ⟨0, .refl _ _⟩
      · have hr : x.rq = [] := (h.resolve_left hm).resolve_left hp
        rw [if_neg hh, if_neg (by simp [hh, hp])]
        have := goOn_noEntries (s := s.modCtx k Ctx.untrapped) (k := k) (by rw [hc]; exact hr)
        rwa [State.modCtx_modCtx, State.modCtx_const _ _ _ _ hx] at this

/-! ### The two forms -/

theorem begun_firstTret (c : Ctx) (i : Instr) (act : List Nat) : (c.begun i act).firstTret = c.firstTret ∧ (c.begun i act).liveLanes = c.liveLanes := by
  have hl : (c.begun i act).liveLanes = c.liveLanes := by
    unfold Ctx.liveLanes Ctx.nLanes
    rw [begun_kind]
    simp only [begun_lane]
  refine ⟨?_, hl⟩
  unfold Ctx.firstTret
  rw [hl]
  simp only [begun_lane]
/-- A lane waits at a `TRET`. -/
def Lane.atTret (x : Lane) : Bool := match x.wait with | .tret _ _ => true | _ => false
theorem Lane.atTret_iff (x : Lane) : x.atTret = true ↔ ∃ b w, x.wait = .tret b w := by
  unfold Lane.atTret
  split
  · next b w h => exact ⟨fun _ => ⟨b, w, h⟩, fun _ => rfl⟩
  · next h => exact ⟨fun e => absurd e Bool.false_ne_true, fun ⟨b, w, e⟩ => absurd e (h b w)⟩
/-- Every other lane has exited or waits at a `TRET`. -/
def Ctx.othersDone (c : Ctx) (act : List Nat) : Bool := (c.liveLanes.filter (fun l => !act.contains l)).all (fun l => (c.lane l).atTret)
theorem othersDone_iff (c : Ctx) (act : List Nat) : c.othersDone act = true ↔ ∀ l ∈ c.liveLanes, l ∉ act → ∃ b w, (c.lane l).wait = .tret b w := by
  unfold Ctx.othersDone
  simp only [List.all_eq_true, List.mem_filter, Lane.atTret_iff]
  simp
theorem tret_eq (s : State) (c : Ctx) (act : List Nat) (abort : Bool) (status : Word) : tret s c act abort status =
    if c.othersDone act then .okPc (s.endHandler s.cur.ctx (c.firstTret.getD (abort, status)).1 (c.firstTret.getD (abort, status)).2)
    else .wait s (.tret (c.firstTret.getD (abort, status)).1 (c.firstTret.getD (abort, status)).2) := rfl
theorem exec_tret_gate {i : Instr} {s : State} {c : Ctx} {act : List Nat} (h : Issues s i c act) {form : Bool × Word}
    (hf : (∃ g, i = .tret g) ∧ form = c.firstTret.getD (false, 0) ∨ (∃ g a, i = .tretAbort g a ∧ form = c.firstTret.getD (true, c.rdG a))) :
    ∃ body, exec i s = gate i s body ∧ body (s.hinted i act) (c.begun i act) act =
      if c.othersDone act then .okPc ((s.hinted i act).endHandler s.cur.ctx form.1 form.2) else .wait (s.hinted i act) (.tret form.1 form.2) := by
  have hd : (c.begun i act).othersDone act = c.othersDone act := by
    unfold Ctx.othersDone
    rw [(begun_firstTret c i act).2]
    simp only [begun_lane]
  have hq := (begun_firstTret c i act).1
  rcases hf with ⟨⟨g, hi⟩, he⟩ | ⟨g, a, hi, he⟩
  · refine ⟨fun s c act => tret s c act false 0, by rw [hi] <;> rfl, ?_⟩
    dsimp only
    rw [tret_eq, hd, hq, ← he, State.hinted_cur]
  · refine ⟨fun s c act => if act.isEmpty then .ok s else tret s c act true (c.rdG a), by rw [hi] <;> rfl, ?_⟩
    dsimp only
    rw [if_neg (by simpa using h.some), tret_eq, hd, hq, begun_rdG, ← he, State.hinted_cur]
/-- The handler's own context once it has ended. -/
def Ctx.handlerGone (h : Ctx) : Ctx := { h with placed := false, lanes := h.lanes.map (fun e => (e.1, { e.2 with exited := true, wait := .none, hints := [] })) }
/-- The queue of a package without a group. -/
def Package.dequeue (k : Nat) (p : Package) : Package := { p with hq := p.hq.filter (fun e => decide (e.2 ≠ k)) }
/-- A group whose team its handler aborts. -/
def Ctx.abortedByHandler (c : Ctx) : Ctx := { c with inHdl := false, trapped := false, haltPend := false, halted := c.halted || c.haltPend }
/-- The state at the end of a handler, before its group goes on. -/
def State.handlerLeft (s : State) (k : Nat) : State := (s.modCtx k Ctx.handlerGone).modPkg (s.ctx k).pkg (Package.dequeue (s.ctx k).served)
theorem endHandler_eq (s : State) (k : Nat) (abort : Bool) (status : Word) : s.endHandler k abort status =
    if abort then ((s.handlerLeft k).modCtx (s.ctx k).served Ctx.abortedByHandler).startAbort (s.ctx (s.ctx k).served).unit
        (if wbits status 15 0 = 0 then 0x0102 else wbits status 15 0)
    else (s.handlerLeft k).leaveTrap (s.ctx k).served := rfl
/-- Nothing that was not placed is placed when a group leaves its trap. -/
theorem leaveTrap_placed (s : State) (k j : Nat) : ((s.leaveTrap k).ctx j).placed = (s.ctx j).placed := by
  have mod : ∀ (t : State) (f : Ctx → Ctx), (∀ c, (f c).placed = c.placed) → ((t.modCtx k f).ctx j).placed = (t.ctx j).placed := fun t f hf => by
    by_cases hj : j = k
    · subst hj
      cases hc : Sparse.find t.ctxs j with
      | none => simp [State.ctx, State.modCtx, Sparse.find_adjust, hc]
      | some c => rw [State.ctx_modCtx _ _ _ _ hc, State.ctx_of_find _ _ _ hc, hf]
    · rw [State.ctx_modCtx_ne _ _ _ _ hj]
  have skip : ∀ t : State, ((t.modCtx k Ctx.skipped).ctx j).placed = (t.ctx j).placed := fun t => mod t _ (fun c => by rw [skipped_only])
  have stop : ∀ t : State, ((t.stopGroup k).ctx j).placed = (t.ctx j).placed := fun t => mod t _ (fun c => by
    exact Ctx.revertHints_halted c |>.2.2)
  have untrap : ((s.modCtx k Ctx.untrapped).ctx j).placed = (s.ctx j).placed := mod s _ (fun c => rfl)
  rw [leaveTrap_eq]
  split
  · rw [skip]
    exact mod s _ (fun c => rfl)
  · split
    · rw [skip]
      exact (congrArg Ctx.placed (State.ctx_congr (by unfold State.traceStop; rw [(State.trace_traced ..).ctxs]))).trans ((stop _).trans untrap)
    · split
      · rw [skip]
        exact (stop _).trans untrap
      · exact ((State.goOn_unhalts _ k).placed j).trans untrap
/-- What the end of a handler leaves before its group goes on. -/
theorem handlerLeft_effect {s : State} {i : Instr} {c x : Ctx} {act : List Nat} (h : Issues s i c act) (hx : Sparse.find s.ctxs c.served = some x) (hne : c.served ≠ s.cur.ctx) :
    let u := (s.hinted i act).handlerLeft s.cur.ctx
    Sparse.find u.ctxs c.served = some x ∧ (∃ y, Sparse.find u.ctxs s.cur.ctx = some y ∧ y.placed = false) ∧ (∀ j, j ≠ s.cur.ctx → u.ctx j = s.ctx j)
    ∧ SameBytes s u ∧ u.units = s.units ∧ u.grids = s.grids ∧ (u.pkg c.pkg).hq = (s.pkg c.pkg).hq.filter (fun e => decide (e.2 ≠ c.served))
    ∧ (∀ q o, (u.pkg q).reg o = (s.pkg q).reg o) := by
  have hs : (c.begun i act).served = c.served := by rw [begun_only]
  have hu : (s.hinted i act).handlerLeft s.cur.ctx = (s.modCtx s.cur.ctx (fun _ => (c.begun i act).handlerGone)).modPkg c.pkg (Package.dequeue c.served) := by
    unfold State.handlerLeft
    rw [h.hinted_ctx, hs, begun_pkg, hinted_modCtx h]
  rw [hu]
  refine ⟨?_, ⟨(c.begun i act).handlerGone, ?_, rfl⟩, fun j hj => State.ctx_modCtx_ne _ _ _ _ hj, (SameBytes.modCtx s _ _).trans (SameBytes.modPkg _ _ _), rfl, rfl, ?_, fun q o => ?_⟩
  · exact (State.find_modCtx ..).trans (by rw [if_neg hne, hx])
  · exact (State.find_modCtx ..).trans (by rw [if_pos rfl, h.found]; rfl)
  · rw [State.pkg_modPkg_same]; rfl
  · rw [State.pkg_modPkg]
    split
    · next e => rw [e]; rfl
    · rfl
theorem wbits_low16 (w : Word) : wbits w 15 0 = w.toNat % 65536 := by unfold wbits; simp
theorem leftTrap_lane_halted {x : Ctx} {n : Nat} (hp : x.haltPend = true) {l : Nat} (hl : l < x.nLanes) :
    (x.leftTrap false n).lane l = if (x.lane l).exited = false then { (x.lane l).stopped with skip := true } else (x.lane l).stopped := by
  have hlt : x.leftTrap false n = (x.untrapped.haltStop n).skipped := by
    unfold Ctx.leftTrap
    rw [if_neg Bool.false_ne_true, if_pos (by simp [hp])]
  have hs : (x.untrapped.haltStop n).lane l = (x.lane l).stopped := haltStop_lane n x.untrapped hl
  have hn : (x.untrapped.haltStop n).nLanes = x.nLanes := by rw [haltStop_only]; rfl
  have hlive : l ∈ (x.untrapped.haltStop n).liveLanes ↔ (x.lane l).exited = false := by
    rw [mem_liveLanes, hs, hn, Lane.stopped_exited]
    exact ⟨fun h => h.2, fun h => ⟨hl, h⟩⟩
  rw [hlt, skipped_lane, hs]
  simp only [hlive]

theorem leftTrap_moving (x : Ctx) (n : Nat) : (x.leftTrap true n).trapped = x.trapped ∧ (x.leftTrap true n).halted = x.halted ∧ (x.leftTrap true n).haltPend = x.haltPend
    ∧ (x.leftTrap true n).rq = x.rq := by
  have h : x.leftTrap true n = (x.handlerOver n).skipped := rfl
  rw [h, skipped_only]
  exact ⟨rfl, rfl, rfl, rfl⟩
theorem leftTrap_free (x : Ctx) (n : Nat) : (x.leftTrap false n).trapped = false ∧ (x.leftTrap false n).inHdl = false ∧ (x.leftTrap false n).rq = x.rq := by
  unfold Ctx.leftTrap
  rw [if_neg Bool.false_ne_true]
  split
  · rw [skipped_only, haltStop_only]
    exact ⟨rfl, rfl, rfl⟩
  · rw [skipped_only]
    exact ⟨rfl, rfl, rfl⟩
theorem leftTrap_halts {x : Ctx} (hp : x.haltPend = true) (n : Nat) : (x.leftTrap false n).halted = true ∧ (x.leftTrap false n).haltPend = false := by
  unfold Ctx.leftTrap
  rw [if_neg Bool.false_ne_true, if_pos (by simp [hp]), skipped_only, haltStop_only]
  exact ⟨rfl, rfl⟩
theorem leftTrap_goes {x : Ctx} (hp : x.haltPend = false) (hh : x.halted = false) (n : Nat) : x.leftTrap false n = x.untrapped.skipped := by
  unfold Ctx.leftTrap
  rw [if_neg Bool.false_ne_true, if_neg (by simp [hp, hh])]
theorem State.Traced.ctx {s t : State} {p : Nat} (h : s.Traced t p) (j : Nat) : t.ctx j = s.ctx j := State.ctx_congr (by rw [h.ctxs])
theorem State.Traced.sameBytes {s t : State} {p : Nat} (h : s.Traced t p) : SameBytes s t := fun a => by rw [h.rest]; cases a <;> rfl
theorem State.Traced.hq {s t : State} {p : Nat} (h : s.Traced t p) (q : Nat) : (t.pkg q).hq = (s.pkg q).hq := by
  by_cases hq : q = p
  · rw [hq, h.own]
  · rw [h.others q hq]

/-- Settles O35: the handler ends once its lanes have, as its first `TRET` says. -/
theorem handlerEnds : Obligations.HandlerEnds := by
  intro i s c act h hk form hf
  obtain ⟨body, hx, hb⟩ := exec_tret_gate h hf
  refine ⟨fun ⟨l, hl, hn, hw⟩ => ?_, fun hall x hs hne => ?_⟩
  · have hd : ¬ c.othersDone act = true := fun e => by
      obtain ⟨b, w, he⟩ := (othersDone_iff c act).mp e l hl hn
      exact hw b w he
    rw [if_neg hd] at hb
    exact hx.trans (gate_wait h body hb)
  · rw [if_pos ((othersDone_iff c act).mpr hall)] at hb
    obtain ⟨u, hu⟩ : ∃ u, u = (s.hinted i act).handlerLeft s.cur.ctx := ⟨_, rfl⟩
    obtain ⟨f1, ⟨z, f2, f3⟩, f4, f5, f6, f7, f8, f9⟩ := handlerLeft_effect h hs hne
    rw [← hu] at f1 f2 f4 f5 f6 f7 f8 f9
    have hsv : ((s.hinted i act).ctx s.cur.ctx).served = c.served := by rw [h.hinted_ctx, begun_only]
    rw [endHandler_eq, ← hu, hsv] at hb
    obtain ⟨D, hD⟩ : ∃ D, D = s.depart i ((s.cohort c).filter (fun l => !act.contains l)) := ⟨_, rfl⟩
    have hplaced : ∀ t : State, (t.ctx s.cur.ctx).placed = false → ((t.modCtx s.cur.ctx D).ctx s.cur.ctx).placed = false := fun t ht => by
      cases hc : Sparse.find t.ctxs s.cur.ctx with
      | none => simp [State.ctx, State.modCtx, Sparse.find_adjust, hc]
      | some y =>
        rw [State.ctx_of_find _ _ _ hc] at ht
        rw [State.ctx_modCtx _ _ _ _ hc, hD, depart_only]
        exact ht
    have huz : (u.ctx s.cur.ctx).placed = false := by rw [State.ctx_of_find _ _ _ f2]; exact f3
    have hux : u.ctx c.served = x := State.ctx_of_find _ _ _ f1
    have hhx : (s.hinted i act).ctx c.served = x := by
      unfold State.hinted
      split
      · exact State.ctx_of_find _ _ _ hs
      · rw [State.ctx_modCtx_ne _ _ _ _ hne]
        exact State.ctx_of_find _ _ _ hs
    rw [hhx] at hb
    cases hform : form.1 with
    | true =>
      rw [hform, if_pos rfl, wbits_low16] at hb
      have hE := hx.trans (gate_okPc h body hb)
      rw [← hD] at hE
      obtain ⟨v, hv⟩ : ∃ v, v = u.modCtx c.served Ctx.abortedByHandler := ⟨_, rfl⟩
      rw [← hv] at hE
      have hg := startAbort_unitsGrids v x.unit (if form.2.toNat % 65536 = 0 then 0x0102 else form.2.toNat % 65536)
      have hy : (v.startAbort x.unit (if form.2.toNat % 65536 = 0 then 0x0102 else form.2.toNat % 65536)).ctx c.served = x.abortedByHandler := by
        rw [hg.ctx, hv, State.ctx_modCtx _ _ _ _ f1]
      refine ⟨_, x.abortedByHandler, hE, ?_, hplaced _ ?_, fun _ => ⟨rfl, rfl, ?_⟩, fun _ hu1 hr => ⟨?_, rfl⟩, fun e => absurd e (by simp), fun e => absurd e (by simp), fun e => absurd e (by simp)⟩
      · rw [State.ctx_modCtx_ne _ _ _ _ hne, hy]
      · rw [hg.ctx, hv, State.ctx_modCtx_ne _ _ _ _ hne.symm]
        exact huz
      · show ((State.startAbort v x.unit _).pkg c.pkg).hq = _
        rw [hg.pkg, hv]
        exact f8
      · exact startAbort_aborts (by rw [hv]; exact f6 ▸ hu1) (by rw [hv]; unfold State.unit at hr ⊢; exact f6 ▸ hr) _
    | false =>
      rw [hform, if_neg Bool.false_ne_true] at hb
      have hE := hx.trans (gate_okPc h body hb)
      rw [← hD] at hE
      have hun : u.underMove x = s.underMove x := State.underMove_congr f6 rfl rfl
      have hpl : (((u.leaveTrap c.served).modCtx s.cur.ctx D).ctx s.cur.ctx).placed = false := hplaced _ (by rw [leaveTrap_placed]; exact huz)
      refine ⟨_, _, hE, rfl, hpl, ?_⟩
      rw [State.ctx_modCtx_ne _ _ _ _ hne]
      have hleft : s.underMove x = true ∨ x.haltPend = true ∨ x.rq = [] → (u.leaveTrap c.served).ctx c.served = x.leftTrap (s.underMove x) (u.now x)
          ∧ ∃ p, (u.modCtx c.served (fun _ => x.leftTrap (s.underMove x) (u.now x))).Traced (u.leaveTrap c.served) p := fun hc => by
        obtain ⟨p, hT⟩ := leaveTrap_effect f1 (by rw [hun]; exact hc)
        rw [hun] at hT
        refine ⟨?_, p, hT⟩
        rw [hT.ctx, State.ctx_modCtx _ _ _ _ f1]
      have hbytes : s.underMove x = true ∨ x.haltPend = true ∨ x.rq = [] → SameBytes s ((u.leaveTrap c.served).modCtx s.cur.ctx D) := fun hc => by
        obtain ⟨-, p, hT⟩ := hleft hc
        exact (f5.trans ((SameBytes.modCtx u _ _).trans hT.sameBytes)).trans (SameBytes.modCtx _ _ _)
      refine ⟨fun hc => ?_, fun e => absurd e (by simp), fun _ hm => ?_, fun _ hm hp => ?_, fun _ hm hp hh _ _ hr _ => ?_⟩
      · obtain ⟨hm, hc⟩ := hc.resolve_left (by simp)
        obtain ⟨h1, p, hT⟩ := hleft (.inr hc)
        rw [hm] at h1
        obtain ⟨a, b, -⟩ := leftTrap_free x (u.now x)
        rw [h1]
        exact ⟨a, b, (hT.hq c.pkg).trans f8⟩
      · obtain ⟨h1, -⟩ := hleft (.inl hm)
        rw [hm] at h1
        obtain ⟨a, b, d, e⟩ := leftTrap_moving x (u.now x)
        rw [h1]
        exact ⟨a, b, d, e, hbytes (.inl hm)⟩
      · obtain ⟨h1, -⟩ := hleft (.inr (.inl hp))
        rw [hm] at h1
        obtain ⟨-, -, e⟩ := leftTrap_free x (u.now x)
        obtain ⟨a, b⟩ := leftTrap_halts hp (u.now x)
        rw [h1]
        exact ⟨a, b, hbytes (.inr (.inl hp)), e, fun l hl => leftTrap_lane_halted hp hl⟩
      · obtain ⟨h1, p, hT⟩ := hleft (.inr (.inr hr))
        rw [hm, leftTrap_goes hp hh] at h1
        rw [h1]
        refine ⟨hbytes (.inr (.inr hr)), ?_, ?_, fun j hj hjc => ?_, by rw [skipped_only]; rfl, fun l _ => skipped_lane x.untrapped l⟩
        · exact (congrArg State.units hT.rest).trans f6
        · exact (congrArg State.grids hT.rest).trans f7
        · rw [State.ctx_modCtx_ne _ _ _ _ hjc, hT.ctx, State.ctx_modCtx_ne _ _ _ _ hj, f4 j hjc]

end Sys2Proof.Machine
end

section
/-! Translation instructions (R331 to R333). -/

namespace Sys2Proof.Machine

/-! ### What an issue's note of hints leaves -/

theorem flatMap_adjust {α β : Type} (m : Sparse α) (k : Nat) (F : α → α) (p : α → Bool) (g : Nat × α → List β) (hp : ∀ x, p (F x) = p x) (hg : ∀ n x, g (n, F x) = g (n, x)) :
    ((Sparse.adjust m k F).filter (fun e => p e.2)).flatMap g = (m.filter (fun e => p e.2)).flatMap g := by
  induction m with
  | nil => rfl
  | cons e r ih =>
    obtain ⟨n, x⟩ := e
    unfold Sparse.adjust
    split
    · cases hx : p x
      · rw [List.filter_cons_of_neg (by simp [hp, hx]), List.filter_cons_of_neg (by simp [hx])]
      · rw [List.filter_cons_of_pos (by simp [hp, hx]), List.filter_cons_of_pos (by simp [hx]), List.flatMap_cons, List.flatMap_cons, hg]
    · cases hx : p x
      · rw [List.filter_cons_of_neg (by simp [hx]), List.filter_cons_of_neg (by simp [hx]), ih]
      · rw [List.filter_cons_of_pos (by simp [hx]), List.filter_cons_of_pos (by simp [hx]), List.flatMap_cons, List.flatMap_cons, ih]
theorem inFlightWhen_hinted (s : State) (i : Instr) (act : List Nat) (p : Nat) (f : Ctx → Cap → Bool) (hf : ∀ (c : Ctx) y, f (c.schedule act) y = f c y) :
    (s.hinted i act).inFlightWhen p f = s.inFlightWhen p f := by
  unfold State.hinted
  split
  · rfl
  · exact flatMap_adjust s.ctxs s.cur.ctx (fun c => c.schedule act) (fun c => decide (c.pkg = p)) _ (fun _ => rfl) (fun n x => by
      have h : (x.schedule act).rq = x.rq := rfl
      dsimp only
      rw [h]
      simp only [hf])
theorem tlbAsid_hinted {s : State} {i : Instr} {c : Ctx} {act : List Nat} : (s.hinted i act).tlbAsid (c.begun i act) = s.tlbAsid c := by
  have hs : ((s.hinted i act).servedCtx (c.begun i act)).asid = (s.servedCtx c).asid := by
    have hv : (c.begun i act).served = c.served := by rw [begun_only]
    unfold State.servedCtx
    rw [hv]
    unfold State.hinted
    split
    · rfl
    · by_cases hj : c.served = s.cur.ctx
      · cases hc : Sparse.find s.ctxs s.cur.ctx with
        | none => rw [hj]; simp [State.ctx, State.modCtx, Sparse.find_adjust, hc]
        | some x => rw [hj, State.ctx_modCtx _ _ _ _ hc, State.ctx_of_find _ _ _ hc]; rfl
      · rw [State.ctx_modCtx_ne _ _ _ _ hj]
  have ha : (c.begun i act).asid = c.asid := by rw [begun_only]
  unfold State.tlbAsid
  rw [begun_kind, hs, ha]
theorem hinted_ctx_other {s : State} {i : Instr} {act : List Nat} {j : Nat} (hj : j ≠ s.cur.ctx) : (s.hinted i act).ctx j = s.ctx j := by
  unfold State.hinted
  split
  · rfl
  · exact State.ctx_modCtx_ne _ _ _ _ hj
theorem hinted_find {s : State} {i : Instr} {c : Ctx} {act : List Nat} (h : Issues s i c act) :
    Sparse.find (s.hinted i act).ctxs s.cur.ctx = some (c.begun i act) := by
  unfold State.hinted Ctx.begun
  split
  · exact h.found
  · rw [State.find_modCtx, if_pos rfl, h.found] <;> rfl
theorem hinted_pkg (s : State) (i : Instr) (act : List Nat) (q : Nat) : (s.hinted i act).pkg q = s.pkg q := by
  unfold State.hinted; split <;> rfl

/-! ### TLBI -/

theorem tlbRange_meets (t w va n : Nat) : rangesMeet t w (tlbRange va n).1 (tlbRange va n).2 =
    (decide (t < if n = 0 then 2 ^ 57 else va / 4096 * 4096 + 4096 * n) && decide ((if n = 0 then 0 else va / 4096 * 4096) < t + w)) := by
  unfold rangesMeet tlbRange
  split
  · simp only [Nat.zero_add]
  · rfl
theorem bits_one (v : DWord) (k : Nat) : bits v k k = v.toNat / 2 ^ k % 2 := by unfold bits; rw [Nat.add_sub_cancel_left, Nat.pow_one]
/-- The state in which a `TLBI` has dropped its translations. -/
def State.dropped (s : State) (i : Instr) (c : Ctx) (act : List Nat) (asid va n : Nat) (w : Bool) : State :=
  (s.hinted i act).modPkg c.pkg (fun p => p.invalidate asid va n w)
theorem tlbi_effect {i : Instr} {s : State} {c : Ctx} {act : List Nat} (h : Issues s i c act) (d a : Nat) (w : Bool) (hva : c.rdPairG a < 2 ^ 57) :
    let l := s.inFlightIn c.pkg (s.tlbAsid c) (c.rdPairG a) (c.rdG d).toNat w
    let s2 := s.dropped i c act (s.tlbAsid c) (c.rdPairG a) (c.rdG d).toNat w
    (l = [] → tlbi i d a w s = .next (s2.modCtx s.cur.ctx (s.depart i (s.cohort c))))
    ∧ (l ≠ [] → tlbi i d a w s = .next (s2.modCtx s.cur.ctx (fun c' =>
      ((c'.advance ((s.cohort c).filter (fun l => !act.contains l))).modLanes act (fun _ x => { x with wait := .accesses l none })).unheld))) := by
  intro l s2
  have hp : (c.begun i act).rdPairG a = c.rdPairG a := by unfold Ctx.rdPairG; rw [begun_rdG, begun_rdG]
  have hfl : (s.hinted i act).inFlightIn c.pkg (s.tlbAsid c) (c.rdPairG a) (c.rdG d).toNat w = l := inFlightWhen_hinted s i act _ _ (fun _ _ => rfl)
  have hbody : ∀ e, afterAccesses s2 l none = e → (fun s c l (_ : List Nat) =>
      let va := c.rdPairG a
      let n := (c.rdG d).toNat
      let asid := State.tlbAsid s c
      if 2 ^ 57 ≤ va then Eff.trap 8 [l] va
      else afterAccesses (s.modPkg c.pkg (fun p => p.invalidate asid va n w)) (s.inFlightIn c.pkg asid va n w) none)
      (s.hinted i act) (c.begun i act) (act.headD 0) act = e := fun e he => by
    dsimp only
    rw [hp, begun_rdG, begun_pkg, tlbAsid_hinted, hfl, if_neg (by omega)]
    exact he
  refine ⟨fun hl => ?_, fun hl => ?_⟩
  · exact once_ok h _ (hbody _ (by rw [hl]; rfl))
  · refine once_wait h _ (hbody _ ?_)
    unfold afterAccesses
    obtain ⟨x, r, hx⟩ := List.exists_cons_of_ne_nil hl
    rw [hx]
theorem invalidate_leaves (p : Package) (asid va n : Nat) (w : Bool) : (p.invalidate asid va n w).tlbs =
    p.tlbs.filter (fun t => !((decide (t.asid = asid) || decide (t.pte.toNat / 2 ^ 5 % 2 = 1))
            && decide (t.va < if n = 0 then 2 ^ 57 else va / 4096 * 4096 + 4096 * n) && decide ((if n = 0 then 0 else va / 4096 * 4096) < t.va + 2 ^ t.bits))) := by
  unfold Package.invalidate
  dsimp only
  simp only [tlbRange_meets, bits_one, Bool.and_assoc]
theorem invalidate_walks (p : Package) (asid va n : Nat) {x : WalkEntry} (hx : x ∈ (p.invalidate asid va n true).walks) :
    x ∈ p.walks ∧ ¬ ((x.asid = asid ∨ x.glob = true) ∧ n = 0 ∧ x.level = 5)
            ∧ ¬ ((x.asid = asid ∨ x.glob = true) ∧ x.level ≠ 5 ∧ x.va * 2 ^ (12 + 9 * x.level) < (if n = 0 then 2 ^ 57 else va / 4096 * 4096 + 4096 * n)
              ∧ (if n = 0 then 0 else va / 4096 * 4096) < (x.va + 1) * 2 ^ (12 + 9 * x.level)) := by
  unfold Package.invalidate at hx
  dsimp only at hx
  rw [if_pos rfl] at hx
  obtain ⟨h1, h2⟩ := List.mem_filter.mp hx
  simp only [tlbRange_meets] at h2
  refine ⟨h1, fun ⟨ha, hn, hl⟩ => ?_, fun ⟨ha, hl, hlo, hhi⟩ => ?_⟩
  · rw [if_pos hl] at h2
    have hg : (decide (x.asid = asid) || x.glob) = true := by simpa using ha
    rw [hg] at h2
    simp [hn] at h2
  · have hhi' : (if n = 0 then 0 else va / 4096 * 4096) < x.va * 2 ^ (12 + 9 * x.level) + 2 ^ (12 + 9 * x.level) := by rw [Nat.add_mul, Nat.one_mul] at hhi; exact hhi
    rw [if_neg hl] at h2
    have hg : (decide (x.asid = asid) || x.glob) = true := by simpa using ha
    rw [hg, decide_eq_true hlo, decide_eq_true hhi'] at h2
    exact absurd h2 Bool.false_ne_true

theorem advanceGen_gen (p : Package) (asid : Nat) : (p.advanceGen asid).gen asid = (p.gen asid + 1) % 16 := by
  unfold Package.gen Package.advanceGen
  rw [Sparse.get_set, if_pos rfl]
  rfl

/-- Settles O37: what `TLBI` and `ASIDGEN` drop, and their waits. -/
theorem translationInstructions : Obligations.TranslationInstructions := by
  refine ⟨?_, ?_⟩
  · intro w g d a s c act i h hva asid va n lo hi l
    obtain ⟨e1, e2⟩ := tlbi_effect h d a w hva
    have hx : exec i s = tlbi i d a w s := by
      cases w
      · exact exec_tlbi_eq ..
      · exact exec_tlbiW_eq ..
    have hpk : (s.dropped i c act asid va n w).pkg c.pkg = (s.pkg c.pkg).invalidate asid va n w := by
      unfold State.dropped
      rw [State.pkg_modPkg_same, hinted_pkg]
    have hhi : hi = if n = 0 then 2 ^ 57 else va / 4096 * 4096 + 4096 * n := by
      by_cases hn : n = 0
      · simp only [hi, if_pos hn]
      · simp only [hi, lo, if_neg hn]
    refine ⟨s.dropped i c act asid va n w, ?_, (hinted_sameBytes s i act).trans (SameBytes.modPkg _ _ _), hinted_units s i act, hinted_grids s i act, fun j hj => hinted_ctx_other hj, ?_, fun hw => ?_, fun hw x hm => ?_⟩
    · split
      · next hl => exact hx.trans (e1 hl)
      · next hl => exact hx.trans (e2 hl)
    · rw [hpk, invalidate_leaves, hhi]
    · rw [hpk, hw]
      rfl
    · rw [hpk, hw] at hm
      rw [hhi]
      exact invalidate_walks _ _ _ _ hm
  · intro g d s c act i h asid old l v
    have hx : exec i s = execAsidgen g d s := exec_asidgen_eq ..
    have hfl : (s.hinted i act).translated c.pkg asid = l := inFlightWhen_hinted s i act _ _ (fun _ _ => rfl)
    obtain ⟨u, hu⟩ : ∃ u, u = (s.hinted i act).modPkg c.pkg (fun p => p.advanceGen asid) := ⟨_, rfl⟩
    have hup : u.pkg c.pkg = (s.pkg c.pkg).advanceGen asid := by rw [hu, State.pkg_modPkg_same, hinted_pkg]
    have hgen : (u.pkg c.pkg).gen asid = (old + 1) % 16 := by rw [hup, advanceGen_gen]
    have htlb : ∀ x ∈ (u.pkg c.pkg).tlbs, x ∈ (s.pkg c.pkg).tlbs ∧ ¬ (x.asid = asid ∧ x.gen = (old + 1) % 16) := fun x hm => by
      rw [hup] at hm
      obtain ⟨h1, h2⟩ := List.mem_filter.mp hm
      exact ⟨h1, fun ⟨h3, h4⟩ => by simp [h3, h4, old] at h2⟩
    have hbytes : SameBytes s u := hu ▸ (hinted_sameBytes s i act).trans (SameBytes.modPkg _ _ _)
    have hother : ∀ j, j ≠ s.cur.ctx → u.ctx j = s.ctx j := fun j hj => by rw [hu]; exact hinted_ctx_other hj
    have hbody : ∀ e, afterAccesses u l (some (d, v)) = e → (fun s c (_ : Nat) (_ : List Nat) =>
        let asid := State.tlbAsid s c
        let old := (s.pkg c.pkg).gen asid
        afterAccesses (s.modPkg c.pkg (fun p => p.advanceGen asid)) (s.translated c.pkg asid) (some (d, BitVec.ofNat 32 ((old + 1) % 16))))
        (s.hinted i act) (c.begun i act) (act.headD 0) act = e := fun e he => by
      dsimp only
      rw [begun_pkg, tlbAsid_hinted, hfl, hinted_pkg, ← hu]
      exact he
    have hcur : u.cur = s.cur := by rw [hu]; exact State.hinted_cur ..
    by_cases hl : l = []
    · have hf : Sparse.find u.ctxs s.cur.ctx = some (c.begun i act) := by
        rw [hu]
        exact hinted_find h
      refine ⟨u.modCtx s.cur.ctx (fun c => c.wrG d v), hgen, hbytes.trans (SameBytes.modCtx _ _ _), ?_, ?_, fun j hj => (State.ctx_modCtx_ne _ _ _ _ hj).trans (hother j hj), htlb, ?_⟩
      · rw [hu]; exact hinted_units s i act
      · rw [hu]; exact hinted_grids s i act
      · rw [if_pos hl]
        refine ⟨hx.trans (once_ok h _ (hbody _ ?_)), ?_⟩
        · rw [hl]
          unfold afterAccesses
          dsimp only
          rw [hcur]
        · rw [State.ctx_modCtx _ _ _ _ hf, Ctx.rdG_wrG, if_pos rfl]
    · refine ⟨u, hgen, hbytes, ?_, ?_, hother, htlb, ?_⟩
      · rw [hu]; exact hinted_units s i act
      · rw [hu]; exact hinted_grids s i act
      · rw [if_neg hl]
        refine hx.trans (once_wait h _ (hbody _ ?_))
        obtain ⟨x, r, hxr⟩ := List.exists_cons_of_ne_nil hl
        unfold afterAccesses
        rw [hxr]

end Sys2Proof.Machine
end

section
/-! Homes, caches and shadow words do not depend on the contexts (chapters 08 and 10). -/

namespace Sys2Proof.Machine

/-- The state with another table of contexts. -/
def State.withCtxs (s : State) (cs : Sparse Ctx) : State := { s with ctxs := cs }
@[simp] theorem State.withCtxs_pkg (s : State) (cs : Sparse Ctx) (p : Nat) : (s.withCtxs cs).pkg p = s.pkg p := rfl
@[simp] theorem State.withCtxs_pkgs (s : State) (cs : Sparse Ctx) : (s.withCtxs cs).pkgs = s.pkgs := rfl
@[simp] theorem State.withCtxs_unit (s : State) (cs : Sparse Ctx) (u : Nat) : (s.withCtxs cs).unit u = s.unit u := rfl
@[simp] theorem State.withCtxs_modPkg (s : State) (cs : Sparse Ctx) (p : Nat) (f : Package → Package) : (s.withCtxs cs).modPkg p f = (s.modPkg p f).withCtxs cs := rfl
@[simp] theorem State.withCtxs_wrBytes (s : State) (cs : Sparse Ctx) (l : Loc) (bs : List Byte) : (s.withCtxs cs).wrBytes l bs = (s.wrBytes l bs).withCtxs cs := by
  have h : ∀ (bs : List Byte) (x : State × Nat), bs.foldl (fun (p : State × Nat) b => (p.1.wrByte (l.add p.2) b, p.2 + 1)) (x.1.withCtxs cs, x.2) =
      ((bs.foldl (fun (p : State × Nat) b => (p.1.wrByte (l.add p.2) b, p.2 + 1)) x).1.withCtxs cs, (bs.foldl (fun (p : State × Nat) b => (p.1.wrByte (l.add p.2) b, p.2 + 1)) x).2) := by
    intro bs
    induction bs with
    | nil => exact fun _ => rfl
    | cons b r ih =>
      intro x
      have e : (x.1.withCtxs cs).wrByte (l.add x.2) b = (x.1.wrByte (l.add x.2) b).withCtxs cs := by cases l.add x.2 <;> rfl
      rw [List.foldl_cons, List.foldl_cons, ← ih]
      dsimp only
      rw [e]
  unfold State.wrBytes
  rw [h bs (s, 0)]
theorem foldl_withCtxs {α : Type} (cs : Sparse Ctx) (f : State → α → State) (hf : ∀ (s : State) x, f (s.withCtxs cs) x = (f s x).withCtxs cs) (l : List α) (s : State) :
    l.foldl f (s.withCtxs cs) = (l.foldl f s).withCtxs cs := by
  induction l generalizing s with
  | nil => rfl
  | cons x r ih => rw [List.foldl_cons, List.foldl_cons, hf, ih]
@[simp] theorem State.withCtxs_thaw (s : State) (cs : Sparse Ctx) (f : Nat → DieLine → Bool) : (s.withCtxs cs).thaw f = (s.thaw f).withCtxs cs :=
  foldl_withCtxs cs (fun (s : State) (e : Nat × Package) => (e.2.dieLines.filter (fun (y : DieLine) => y.old.isSome && f e.1 y)).foldl (fun s (y : DieLine) => s.dieDrop e.1 y.die y.key) s)
    (fun t e => foldl_withCtxs cs (fun (s : State) (y : DieLine) => s.dieDrop e.1 y.die y.key) (fun _ _ => rfl) _ t) _ s
@[simp] theorem State.withCtxs_releaseSlot (s : State) (cs : Sparse Ctx) (p : Nat) (x : RedSlot) : (s.withCtxs cs).releaseSlot p x = (s.releaseSlot p x).withCtxs cs := by
  unfold State.releaseSlot State.wrWord
  rw [State.withCtxs_wrBytes]; rfl
@[simp] theorem State.withCtxs_slotAt (s : State) (cs : Sparse Ctx) (l : Loc) : (s.withCtxs cs).slotAt l = s.slotAt l := by cases l <;> rfl
theorem State.withCtxs_unitSite (s : State) (cs : Sparse Ctx) (l : Loc) : (s.withCtxs cs).unitSite l = s.unitSite l := by cases l <;> rfl
@[simp] theorem State.withCtxs_releaseSpan (s : State) (cs : Sparse Ctx) (l : Loc) (n : Nat) : (s.withCtxs cs).releaseSpan l n = (s.releaseSpan l n).withCtxs cs := by
  unfold State.releaseSpan
  dsimp only
  rw [State.withCtxs_unitSite, State.withCtxs_pkg]
  split
  · rfl
  · refine foldl_withCtxs cs _ (fun t i => ?_) _ _
    rw [State.withCtxs_slotAt]
    split
    · exact State.withCtxs_releaseSlot ..
    · rfl
theorem State.withCtxs_lineHoles (s : State) (cs : Sparse Ctx) (key : Nat) : (s.withCtxs cs).lineHoles key = s.lineHoles key := by
  unfold State.lineHoles
  simp only [State.withCtxs_pkg, State.withCtxs_slotAt]
theorem State.withCtxs_rdBytes (s : State) (cs : Sparse Ctx) (l : Loc) (n : Nat) : (s.withCtxs cs).rdBytes l n = s.rdBytes l n := by
  have h : ∀ a, (s.withCtxs cs).rdByte a = s.rdByte a := fun a => by cases a <;> rfl
  unfold State.rdBytes
  simp only [h]
theorem State.withCtxs_dcacheWrite (s : State) (cs : Sparse Ctx) (src : Option (Nat × Nat)) (key : Nat) : (s.withCtxs cs).dcacheWrite src key = (s.dcacheWrite src key).withCtxs cs := by
  unfold State.dcacheWrite State.lineFor State.dieBytes
  simp only [State.withCtxs_lineHoles]
  rfl
theorem State.withCtxs_dirWrite (s : State) (cs : Sparse Ctx) (me : Option Nat) (key : Nat) : (s.withCtxs cs).dirWrite me key = (s.dirWrite me key).withCtxs cs := by
  unfold State.dirWrite
  dsimp only
  rw [State.withCtxs_pkg]
  split
  · rfl
  · rfl
theorem State.withCtxs_writeHome (plain : Bool) (s : State) (cs : Sparse Ctx) (src : Option (Nat × Nat)) (me : Option Nat) (l : Loc) (bs : List Byte) :
    (s.withCtxs cs).writeHome plain src me l bs = (s.writeHome plain src me l bs).withCtxs cs := by
  unfold State.writeHome
  dsimp only
  split
  · split
    · rfl
    · rw [State.withCtxs_thaw, State.withCtxs_releaseSpan, State.withCtxs_wrBytes]
      exact foldl_withCtxs cs _ (fun t key => by rw [State.withCtxs_dcacheWrite, State.withCtxs_dirWrite]) _ _
  · rw [State.withCtxs_releaseSpan, State.withCtxs_wrBytes]
theorem State.withCtxs_drainEarly (s : State) (cs : Sparse Ctx) (p : Nat) (f : Early → Bool) : (s.withCtxs cs).drainEarly p f = (s.drainEarly p f).withCtxs cs :=
  foldl_withCtxs cs (fun (s : State) (e : Early) => (s.modPkg p (fun q => { q with early := q.early.erase e })).writeHome true (some (p, e.core)) (some (p * 16 + e.die)) (.hbm e.key) e.bytes)
    (fun t e => State.withCtxs_writeHome true (t.modPkg p (fun q => { q with early := q.early.erase e })) cs _ _ _ _) _ s
theorem State.withCtxs_dcacheHole (s : State) (cs : Sparse Ctx) (l : Loc) : (s.withCtxs cs).dcacheHole l = (s.dcacheHole l).withCtxs cs := by
  unfold State.dcacheHole
  split
  · rw [State.withCtxs_thaw]; rfl
  · rfl
theorem State.withCtxs_roundOut (s : State) (cs : Sparse Ctx) (p : Nat) (x : RedSlot) : (s.withCtxs cs).roundOut p x = (s.roundOut p x).withCtxs cs := by
  unfold State.roundOut
  rw [State.withCtxs_releaseSlot, State.withCtxs_modPkg]
theorem State.withCtxs_slotRoom (s : State) (cs : Sparse Ctx) (p site asid extra : Nat) :
    (s.withCtxs cs).slotRoom p site asid extra = (s.slotRoom p site asid extra).map (fun t => t.withCtxs cs) := by
  unfold State.slotRoom
  dsimp only
  rw [State.withCtxs_pkg]
  split
  · rw [Option.map_map]
    exact congrFun (congrArg Option.map (funext fun x => State.withCtxs_roundOut s cs p x)) _
  · split
    · rw [Option.map_map]
      exact congrFun (congrArg Option.map (funext fun x => State.withCtxs_roundOut s cs p x)) _
    · rfl
theorem State.withCtxs_openSlot (s : State) (cs : Sparse Ctx) (l : Loc) (asid grid : Nat) :
    (s.withCtxs cs).openSlot l asid grid = (s.openSlot l asid grid).map (fun r => (r.1.withCtxs cs, r.2)) := by
  unfold State.openSlot
  rw [State.withCtxs_slotAt]
  split
  · rfl
  · rw [State.withCtxs_unitSite]
    dsimp only
    rw [State.withCtxs_slotRoom, Option.map_map, Option.map_map]
    refine congrFun (congrArg Option.map (funext fun x => ?_)) _
    have e : (x.withCtxs cs).rdWord l = x.rdWord l := by unfold State.rdWord; rw [State.withCtxs_rdBytes]
    simp only [Function.comp, e]
theorem State.withCtxs_contribute (s : State) (cs : Sparse Ctx) (l : Loc) (op : RedOp) (c : Word) (asid grid : Nat) :
    (s.withCtxs cs).contribute l op c asid grid = (s.contribute l op c asid grid).map (fun t => t.withCtxs cs) := by
  have hk : ∀ (t : State) x, (t.withCtxs cs).keepSlot x = (t.keepSlot x).withCtxs cs := fun t x => by
    unfold State.keepSlot
    rw [State.withCtxs_unitSite]; rfl
  unfold State.contribute State.homeWrite
  split
  · rw [State.withCtxs_openSlot, Option.map_map, Option.map_map]
    refine congrFun (congrArg Option.map (funext fun x => ?_)) _
    simp only [Function.comp, hk, State.withCtxs_dcacheHole]
  · dsimp only
    have e : ∀ t : State, (t.withCtxs cs).rdWord l = t.rdWord l := fun t => by unfold State.rdWord; rw [State.withCtxs_rdBytes]
    rw [State.withCtxs_releaseSpan, e, State.withCtxs_writeHome, State.withCtxs_dcacheHole]; rfl
theorem State.withCtxs_mergeShadow (s : State) (cs : Sparse Ctx) (p : Nat) (x : ShadowWord) : (s.withCtxs cs).mergeShadow p x = (s.mergeShadow p x).withCtxs cs := by
  have hc : (s.withCtxs cs).clockRuns p { die := x.die } = s.clockRuns p { die := x.die } := rfl
  have hd : ∀ f, (if (s.pkg p).early.isEmpty = true then s.withCtxs cs else (s.withCtxs cs).drainEarly p f) =
      (if (s.pkg p).early.isEmpty = true then s else s.drainEarly p f).withCtxs cs := fun f => by
    split
    · rfl
    · exact State.withCtxs_drainEarly ..
  unfold State.mergeShadow
  dsimp only
  rw [hc, State.withCtxs_pkg, hd, State.withCtxs_contribute]
  split
  · rfl
  · cases State.contribute _ _ _ _ _ _ <;> rfl
theorem State.withCtxs_mergeShadows (s : State) (cs : Sparse Ctx) (p : Nat) (f : ShadowWord → Bool) : (s.withCtxs cs).mergeShadows p f = (s.mergeShadows p f).withCtxs cs :=
  foldl_withCtxs cs (fun (s : State) x => s.mergeShadow p x) (fun t x => State.withCtxs_mergeShadow t cs p x) _ s
theorem State.withCtxs_mergeable (s : State) (cs : Sparse Ctx) (p : Nat) (f : ShadowWord → Bool) : (s.withCtxs cs).mergeable p f = s.mergeable p f := by
  unfold State.mergeable
  rw [State.withCtxs_mergeShadows]; rfl

end Sys2Proof.Machine
end

section
/-! Barrier objects, counters and convergence registers (R160, R161, R246 to R251). -/

namespace Sys2Proof.Machine

/-! ### What noting hints leaves of releases -/

theorem hinted_unperformed (s : State) (i : Instr) (c : Ctx) (act : List Nat) (k : Nat) (ls : List Nat) (lvl : Nat) :
    (c.begun i act).unperformed k ls ((s.hinted i act).reach (c.begun i act) lvl) = c.unperformed k ls (s.reach c lvl) := by
  unfold State.hinted Ctx.begun; split <;> rfl
theorem hinted_mayRelease (s : State) (i : Instr) (c : Ctx) (act : List Nat) (lvl : Nat) :
    (s.hinted i act).mayRelease (c.begun i act) lvl = s.mayRelease c lvl := by
  have hm : ∀ f, (s.withCtxs (Sparse.adjust s.ctxs s.cur.ctx (fun c => c.schedule act))).mergeable c.pkg f = s.mergeable c.pkg f := fun f => State.withCtxs_mergeable ..
  unfold State.hinted Ctx.begun
  split
  · rfl
  · unfold State.mayRelease
    exact congrArg (fun b => c.site.mast || ((decide (lvl < 4) || b) && _)) (hm _)
theorem hinted_unit (s : State) (i : Instr) (act : List Nat) (u : Nat) : (s.hinted i act).unit u = s.unit u := by
  unfold State.hinted; split <;> rfl
theorem hinted_objectRef (s : State) (i : Instr) (c : Ctx) (act : List Nat) (r : Nat) :
    (s.hinted i act).objectRef (c.begun i act) r = s.objectRef c r := by
  unfold State.hinted Ctx.begun; split <;> rfl
theorem hinted_object (s : State) (i : Instr) (act : List Nat) (o : Loc) : (s.hinted i act).object o = s.object o := by
  unfold State.hinted; split
  · rfl
  · cases o <;> rfl
/-- A release that need not wait, by each acting lane. -/
theorem releasing_now {s : State} {i : Instr} {c : Ctx} {act : List Nat} {lvl : Nat} (ho : ∀ l ∈ act, s.Ordered c [l] lvl) (go : State → List Nat → Eff) :
    releasing (s.hinted i act) (c.begun i act) act lvl go = go ((s.hinted i act).release (c.begun i act) lvl) act := by
  have hn : act.filter (fun l => !(((c.begun i act).unperformed s.cur.ctx [l] ((s.hinted i act).reach (c.begun i act) lvl)).isEmpty
      && (s.hinted i act).mayRelease (c.begun i act) lvl)) = [] := by
    rw [List.filter_eq_nil_iff]
    intro l hl
    obtain ⟨h1, h2⟩ := ho l hl
    rw [hinted_unperformed, hinted_mayRelease, h1, h2]
    decide
  unfold releasing releasingTo apart
  dsimp only
  rw [State.hinted_cur, hn]
  rfl
/-- The same once per issue. -/
theorem releasingOnce_now {s : State} {i : Instr} {c : Ctx} {act : List Nat} {lvl : Nat} (ho : s.Ordered c act lvl) (go : State → Eff) :
    releasingOnce (s.hinted i act) (c.begun i act) act lvl go = go ((s.hinted i act).release (c.begun i act) lvl) := by
  obtain ⟨h1, h2⟩ := ho
  unfold releasingOnce
  dsimp only
  rw [State.hinted_cur, hinted_unperformed, hinted_mayRelease, h1, h2]
  rfl
/-- An instruction that is done, with an effect outside the table of contexts alone. -/
theorem acts_outside {s : State} {i : Instr} {c : Ctx} {act : List Nat} (h : Issues s i c act)
    (body : State → Ctx → List Nat → Eff) (he : exec i s = gate i s body) {t : State} (ht : t.ctxs = (s.hinted i act).ctxs) (hg : t.grids = s.grids)
    (hb : body (s.hinted i act) (c.begun i act) act = .ok t) : ∃ t' c', Acts i s c t' c' c.preds ∧ OnlyRegs c c' ∧ c'.v = c.v ∧ c'.g = c.g ∧ c'.fpflags = c.fpflags
      ∧ t' = t.modCtx s.cur.ctx (fun _ => c') := by
  have hf := find_ctxs_begun h ht
  refine ⟨t.modCtx s.cur.ctx (fun _ => s.depart i (s.cohort c) (c.begun i act)), s.depart i (s.cohort c) (c.begun i act), ⟨?_, State.ctx_modCtx _ _ _ _ hf, fun l => ?_, fun j hj => ?_, hg⟩, RegsOf.depart _ _ _ _ _ (RegsOf.begun ..), ?_, ?_, ?_, rfl⟩
  · rw [he, gate_ok h body hb, State.modCtx_const t _ _ _ hf]
  · rw [depart_lane _ _ _ (cohort_nodup s c), begun_lane]; rfl
  · rw [State.ctx_modCtx_ne _ _ _ _ hj, other_ctx_hinted ht hj]
  · rw [depart_v]; exact begun_v ..
  · rw [depart_g]; exact begun_g ..
  · rw [depart_flags]; exact begun_flags ..

/-! ### Convergence registers -/

theorem any_adjust {α : Type} (m : Sparse α) (k : Nat) (F : α → α) (p q : α → Bool) (hp : ∀ x, p (F x) = p x) (hq : ∀ x, q (F x) = q x) :
    ((Sparse.adjust m k F).filter (fun e => p e.2)).any (fun e => q e.2) = (m.filter (fun e => p e.2)).any (fun e => q e.2) := by
  induction m with
  | nil => rfl
  | cons e r ih =>
    obtain ⟨n, x⟩ := e
    unfold Sparse.adjust
    split
    · rw [List.filter_cons, List.filter_cons, hp]
      split
      · rw [List.any_cons, List.any_cons, hq]
      · rfl
    · rw [List.filter_cons, List.filter_cons]
      split
      · rw [List.any_cons, List.any_cons, ih]
      · exact ih
theorem hinted_cvGates (s : State) (i : Instr) (act : List Nat) (u v : Nat) (r : CvReg) : (s.hinted i act).cvGates u v r = s.cvGates u v r := by
  unfold State.hinted
  split
  · rfl
  · exact any_adjust s.ctxs s.cur.ctx (fun c => c.schedule act) (fun c => decide (c.kind = .group) && decide (c.unit = u))
      (fun c => decide (c.index = r.owner) && decide ((c.lane r.anchor).wait = .converge v true)) (fun _ => rfl) (fun _ => rfl)
theorem setCv_cv {s : State} {u : Nat} (hu : Sparse.find s.units u ≠ none) (v : Nat) (r : CvReg) :
    ((s.setCv u v r).unit u).cv v = r ∧ (∀ n, n ≠ v → ((s.setCv u v r).unit u).cv n = (s.unit u).cv n) ∧ (∀ w, w ≠ u → (s.setCv u v r).unit w = s.unit w) := by
  obtain ⟨x, hx⟩ := Option.ne_none_iff_exists'.mp hu
  have hs : s.unit u = x := by unfold State.unit; rw [hx]; rfl
  have h : (s.setCv u v r).unit u = { x with cvs := Sparse.set {} x.cvs v r } := State.unit_modUnit _ _ _ _ hx
  refine ⟨?_, fun n hn => ?_, fun w hw => State.unit_modUnit_ne _ _ _ _ hw⟩
  · rw [h]
    unfold WUnit.cv
    dsimp only
    rw [Sparse.get_set, if_pos rfl]
  · rw [h, hs]
    unfold WUnit.cv
    dsimp only
    rw [Sparse.get_set, if_neg hn]
theorem setCv_sameBytes (s : State) (u v : Nat) (r : CvReg) : SameBytes s (s.setCv u v r) := SameBytes.modUnit s u _ (fun _ => rfl)
/-- A release at L1 changes nothing but core data caches. -/
theorem release_L1 (s : State) (c : Ctx) : ∃ ps, s.release c 1 = { s with pkgs := ps } ∧ SameBytes s (s.release c 1) := by
  have hr : s.reach c 1 = 1 := rfl
  unfold State.release
  extract_lets s1 s2 s3
  have e1 : s1 = s := if_neg (by omega)
  have e2 : s2 = s := by
    simp only [s2, e1]
    rw [if_neg (show ¬ s.reach c 1 = 3 by omega), if_neg (show ¬ s.reach c 1 = 2 by omega), ite_self]
  have e3 : s3 = s := by
    simp only [s3, e2]
    exact if_neg (show ¬ s.reach c 1 = 3 by omega)
  rw [e3]
  split
  · exact ⟨_, rfl, .refl s⟩
  · rw [if_pos (show s.reach c 1 < 3 by omega)]
    exact ⟨_, rfl, .modPkg s _ _⟩
/-- Settles O20: declaring and signing a convergence register. -/
theorem convergence : Obligations.Convergence := by
  refine ⟨fun g v a s c act h hu => ?_, fun g v s c act h hu ho => ?_⟩
  · extract_lets r d
    have hx : exec (.cvdecl g v a) s = execCvdecl g v a s := exec_cvdecl_eq ..
    have hun : (c.begun (.cvdecl g v a) act).unit = c.unit ∧ (c.begun (.cvdecl g v a) act).index = c.index := by rw [begun_only]; exact ⟨rfl, rfl⟩
    have hex : (c.begun (.cvdecl g v a) act).exitedMask = c.exitedMask := by
      unfold Ctx.exitedMask Ctx.nLanes
      rw [begun_kind]
      simp only [begun_lane]
    have hbody : ∀ e, (if r.owner = c.index ∧ r.coll = true then Eff.trap 0x0C [act.headD 0] 0
        else if r.owner ≠ c.index ∧ (r.coll = true ∨ s.cvGates c.unit v r = true) then .wait (s.hinted (.cvdecl g v a) act) (.converge v false)
        else match (c.unperformed s.cur.ctx (lanesOf (d &&& c.exitedMask)) (s.reach c 1)).map (·.2) with
          | [] => .ok ((s.hinted (.cvdecl g v a) act).setCv c.unit v { owner := c.index, coll := decide (d &&& c.exitedMask ≠ d), signed := d &&& c.exitedMask, decl := d })
          | ids => .wait (s.hinted (.cvdecl g v a) act) (.order ids)) = e →
        (fun (s : State) (c : Ctx) (l : Nat) (_ : List Nat) =>
          let r := (s.unit c.unit).cv v
          if r.owner = c.index ∧ r.coll then Eff.trap 0x0C [l] 0
          else if r.owner ≠ c.index ∧ (r.coll ∨ s.cvGates c.unit v r) then .wait s (.converge v false)
          else
            let d := c.rdG a
            let x := d &&& c.exitedMask
            match (c.unperformed s.cur.ctx (lanesOf x) (s.reach c 1)).map (·.2) with
            | [] => .ok (s.setCv c.unit v { owner := c.index, coll := decide (x ≠ d), signed := x, decl := d })
            | ids => .wait s (.order ids)) (s.hinted (.cvdecl g v a) act) (c.begun (.cvdecl g v a) act) (act.headD 0) act = e := fun e he => by
      dsimp only
      rw [hun.1, hun.2, hinted_unit, hinted_cvGates, begun_rdG, hex, State.hinted_cur, hinted_unperformed]
      exact he
    by_cases h1 : r.owner = c.index ∧ r.coll = true
    · rw [if_pos h1]
      rw [if_pos h1] at hbody
      exact fun hk => hx.trans (once_trap h hk _ (hbody _ rfl))
    · rw [if_neg h1]
      rw [if_neg h1] at hbody
      by_cases h2 : r.owner ≠ c.index ∧ (r.coll = true ∨ s.cvGates c.unit v r = true)
      · rw [if_pos h2]
        rw [if_pos h2] at hbody
        exact hx.trans (once_wait h _ (hbody _ rfl))
      · rw [if_neg h2]
        rw [if_neg h2] at hbody
        by_cases h3 : s.Performed c (lanesOf (d &&& c.exitedMask)) 1
        · rw [if_neg (not_not.mpr h3)]
          rw [h3] at hbody
          obtain ⟨e1, e2, e3⟩ := setCv_cv (s := s.hinted (.cvdecl g v a) act) (u := c.unit) (by rw [hinted_units]; exact hu) v
            { owner := c.index, coll := decide (d &&& c.exitedMask ≠ d), signed := d &&& c.exitedMask, decl := d }
          obtain ⟨t', c', ha, hr, hv, hg, hf, ht⟩ := acts_outside h _ (hx.trans (oncePerIssue_eq ..)) (t := (s.hinted (.cvdecl g v a) act).setCv c.unit v
            { owner := c.index, coll := decide (d &&& c.exitedMask ≠ d), signed := d &&& c.exitedMask, decl := d }) rfl (hinted_grids ..)
            (onceBody_eq h.some (hbody _ rfl) (fun _ _ _ => nofun))
          refine ⟨t', c', ha, ?_, hr, hv, hg, hf, ?_⟩
          · rw [ht]
            exact ((hinted_sameBytes s _ act).trans (setCv_sameBytes _ _ _ _)).trans (SameBytes.modCtx _ _ _)
          · rw [ht]
            exact ⟨e1, fun n hn => (e2 n hn).trans (by rw [hinted_unit]), fun u hu => (e3 u hu).trans (hinted_unit ..)⟩
        · rw [if_pos h3]
          refine hx.trans (once_wait h _ (hbody _ ?_))
          obtain ⟨y, ys, hy⟩ := List.exists_cons_of_ne_nil (fun e => h3 (List.map_eq_nil_iff.mp e))
          rw [hy]
  · extract_lets r x
    have hx : exec (.cvsign g v) s = execCvsign g v s := exec_cvsign_eq ..
    have hun : (c.begun (.cvsign g v) act).unit = c.unit ∧ (c.begun (.cvsign g v) act).index = c.index := by rw [begun_only]; exact ⟨rfl, rfl⟩
    obtain ⟨ps, hrel, hsame⟩ := release_L1 (s.hinted (.cvsign g v) act) (c.begun (.cvsign g v) act)
    obtain ⟨w, hw⟩ : ∃ w, w = (s.hinted (.cvsign g v) act).release (c.begun (.cvsign g v) act) 1 := ⟨_, rfl⟩
    rw [← hw] at hrel hsame
    have hwu : w.units = s.units := by rw [hrel]; exact hinted_units ..
    have hwn : ∀ u, w.unit u = s.unit u := fun u => by unfold State.unit; rw [hwu]
    obtain ⟨t, ht⟩ : ∃ t, t = if r.owner = c.index then w.setCv c.unit v (r.sign (maskOf act)) else w := ⟨_, rfl⟩
    have htc : t.ctxs = (s.hinted (.cvsign g v) act).ctxs ∧ t.grids = s.grids ∧ SameBytes s t := by
      have hwc : w.ctxs = (s.hinted (.cvsign g v) act).ctxs := by rw [hrel]
      have hwg : w.grids = s.grids := by rw [hrel]; exact hinted_grids ..
      have hws : SameBytes s w := (hinted_sameBytes s _ act).trans hsame
      rw [ht]
      split
      · exact ⟨hwc, hwg, hws.trans (setCv_sameBytes w _ _ _)⟩
      · exact ⟨hwc, hwg, hws⟩
    obtain ⟨htc, htg, hts⟩ := htc
    obtain ⟨t', c', ha, hr, hv, hg, hf, ht'⟩ := acts_outside h _ hx htc htg (by
      dsimp only
      rw [releasing_now ho, ← hw, hun.1, hun.2, hwn]
      split
      · next e => rw [ht, if_pos e]
      · next e => rw [ht, if_neg e])
    have hu' : t'.units = t.units := by rw [ht']; rfl
    have hun' : ∀ u, t'.unit u = t.unit u := fun u => by unfold State.unit; rw [hu']
    refine ⟨t', c', ha, ht' ▸ hts.trans (SameBytes.modCtx _ _ _), hr, hv, hg, hf, ?_⟩
    obtain ⟨e1, e2, e3⟩ := setCv_cv (s := w) (u := c.unit) (by rw [hwu]; exact hu) v (r.sign (maskOf act))
    by_cases ho : r.owner = c.index
    · rw [if_pos ho] at ht ⊢
      refine ⟨?_, fun n hn => ?_, fun u hn => ?_⟩
      · rw [hun', ht, e1]; rfl
      · rw [hun', ht, e2 n hn, hwn]
      · rw [hun', ht, e3 u hn, hwn]
    · rw [if_neg ho] at ht ⊢
      refine ⟨?_, fun n hn => ?_, fun u hn => ?_⟩
      · rw [hun', ht, hwn]
      · rw [hun', ht, hwn]
      · rw [hun', ht, hwn]

end Sys2Proof.Machine
end

section
/-! Barrier objects and counters (R246 to R251). -/

namespace Sys2Proof.Machine

/-! ### Fields of an object -/

theorem objFld_testBit (x hi lo k : Nat) : (objFld x hi lo).testBit k = (decide (k < hi + 1 - lo) && x.testBit (lo + k)) := by
  unfold objFld
  rw [Nat.testBit_mod_two_pow, Nat.testBit_div_two_pow, Nat.add_comm k lo]
theorem objPut_split (x : Nat) {hi lo : Nat} (v : Nat) (hl : lo ≤ hi + 1) :
    objPut x hi lo v = 2 ^ lo * (2 ^ (hi + 1 - lo) * (x / 2 ^ (hi + 1)) + v % 2 ^ (hi + 1 - lo)) + x % 2 ^ lo := by
  have hpow : 2 ^ (hi + 1) = 2 ^ lo * 2 ^ (hi + 1 - lo) := by rw [← Nat.pow_add]; congr 1; omega
  have hx := Nat.div_add_mod x (2 ^ lo)
  have hd := Nat.div_add_mod (x / 2 ^ lo) (2 ^ (hi + 1 - lo))
  rw [Nat.div_div_eq_div_mul, ← hpow] at hd
  unfold objPut objFld
  generalize x / 2 ^ lo % 2 ^ (hi + 1 - lo) = r at hd ⊢
  have hp : 2 ^ lo * (x / 2 ^ lo) = 2 ^ lo * (2 ^ (hi + 1 - lo) * (x / 2 ^ (hi + 1))) + r * 2 ^ lo := by rw [← hd]; ring
  have h1 : x - r * 2 ^ lo = 2 ^ lo * (2 ^ (hi + 1 - lo) * (x / 2 ^ (hi + 1))) + x % 2 ^ lo := by omega
  rw [h1]
  ring
theorem objPut_testBit (x : Nat) {hi lo : Nat} (v : Nat) (hl : lo ≤ hi + 1) (k : Nat) :
    (objPut x hi lo v).testBit k = if lo ≤ k ∧ k ≤ hi then v.testBit (k - lo) else x.testBit k := by
  rw [objPut_split x v hl, Nat.testBit_two_pow_mul_add _ (Nat.mod_lt _ (by positivity)),
    Nat.testBit_two_pow_mul_add _ (Nat.mod_lt _ (by positivity)), Nat.testBit_mod_two_pow, Nat.testBit_mod_two_pow, Nat.testBit_div_two_pow]
  by_cases h1 : k < lo
  · simp [h1, show ¬ lo ≤ k by omega]
  · by_cases h2 : k ≤ hi
    · simp [h1, h2, show lo ≤ k by omega, show k - lo < hi + 1 - lo by omega]
    · have : k - lo - (hi + 1 - lo) + (hi + 1) = k := by omega
      rw [if_neg h1, if_neg (by omega), if_neg (by omega), this]
theorem objFld_objPut_same (x : Nat) {hi lo : Nat} (v : Nat) (hl : lo ≤ hi) : objFld (objPut x hi lo v) hi lo = v % 2 ^ (hi + 1 - lo) := by
  refine Nat.eq_of_testBit_eq fun k => ?_
  rw [objFld_testBit, objPut_testBit x v (by omega), Nat.testBit_mod_two_pow]
  by_cases h : k < hi + 1 - lo
  · simp [h, show lo + k ≤ hi by omega]
  · simp [h]
theorem objFld_objPut_other (x : Nat) {hi lo : Nat} (v : Nat) {h l : Nat} (hl : lo ≤ hi) (hd : h < lo ∨ hi < l) : objFld (objPut x hi lo v) h l = objFld x h l := by
  refine Nat.eq_of_testBit_eq fun k => ?_
  rw [objFld_testBit, objFld_testBit, objPut_testBit x v (by omega)]
  by_cases hk : k < h + 1 - l
  · simp [hk, show ¬ (lo ≤ l + k ∧ l + k ≤ hi) by omega]
  · simp [hk]
theorem objPut_lt {x n : Nat} (hx : x < 2 ^ n) {hi lo : Nat} (v : Nat) (hl : lo ≤ hi) (hn : hi < n) : objPut x hi lo v < 2 ^ n := by
  refine Nat.lt_pow_two_of_testBit _ fun k hk => ?_
  rw [objPut_testBit x v (by omega), if_neg (by omega)]
  exact Nat.testBit_eq_false_of_lt (lt_of_lt_of_le hx (Nat.pow_le_pow_right (by decide) hk))
theorem objFld_lt (x hi lo : Nat) : objFld x hi lo < 2 ^ (hi + 1 - lo) := Nat.mod_lt _ (by positivity)
/-- The completion test, one part of O19. -/
theorem completionTest : Claims.CompletionTest := by
  intro x hx
  refine ⟨fun h0 hle => ?_, fun h => ?_⟩
  · unfold objTest
    rw [if_pos ⟨h0, hle⟩]
    have hp := objFld_lt x 0 0
    have ha := objFld_lt x 63 48
    have hc := objFld_lt x 95 64
    have other : ∀ {hi lo : Nat}, 0 < lo → hi < 128 → (hi < 32 ∨ 47 < lo) → (hi < 64 ∨ 95 < lo) → (hi < 96) → objFld (objPut (objPut (objPut (objPut x 0 0 (1 - objFld x 0 0)) 95 64
        (objFld x 95 64 - objFld x 127 96)) 127 96 0) 47 32 (objFld x 63 48)) hi lo = objFld x hi lo := fun h1 h2 h3 h4 h5 => by
      rw [objFld_objPut_other _ _ (by decide) (by omega), objFld_objPut_other _ _ (by decide) (by omega), objFld_objPut_other _ _ (by decide) (by omega),
        objFld_objPut_other _ _ (by decide) (by omega)]
    refine ⟨?_, other (by decide) (by decide) (by decide) (by decide) (by decide), ?_, other (by decide) (by decide) (by decide) (by decide) (by decide), ?_, ?_, ?_⟩
    · rw [objFld_objPut_other _ _ (by decide) (by decide), objFld_objPut_other _ _ (by decide) (by decide), objFld_objPut_other _ _ (by decide) (by decide), objFld_objPut_same _ _ (by decide)]
      omega
    · rw [objFld_objPut_same _ _ (by decide)]
      omega
    · rw [objFld_objPut_other _ _ (by decide) (by decide), objFld_objPut_other _ _ (by decide) (by decide), objFld_objPut_same _ _ (by decide)]
      omega
    · rw [objFld_objPut_other _ _ (by decide) (by decide), objFld_objPut_same _ _ (by decide), Nat.zero_mod]
    · exact objPut_lt (objPut_lt (objPut_lt (objPut_lt hx _ (by decide) (by decide)) _ (by decide) (by decide)) _ (by decide) (by decide)) _ (by decide) (by decide)
  · unfold objTest
    rw [if_neg]
    omega


/-! ### Operations on an object -/

theorem objectOf_found {s : State} {c : Ctx} {a : Nat} {o : Loc} (i : Instr) (act : List Nat) (hr : s.objectRef c (c.rdG a).toNat = .ok o) (ha : (c.rdG a).toNat % 16 = 0)
    (l : Nat) (f : Loc → Eff) : objectOf (s.hinted i act) (c.begun i act) l a f = f o := by
  unfold objectOf
  rw [begun_rdG, if_neg (by omega), hinted_objectRef, hr]
theorem objectOp_noSlots {s : State} (hq : s.NoSlots) (o : Loc) (f : Nat → Nat) : s.objectOp o f = s.wrBytes o (bytesOfNat 16 (objTest (f (s.object o)))) := by
  unfold State.objectOp
  rw [State.releaseSpan_noSlots hq]
theorem object_congr {s t : State} (h : SameBytes s t) (o : Loc) : t.object o = s.object o := by
  unfold State.object State.rdBytes
  simp only [h _]
theorem Place_congr {s t : State} (h : t.units = s.units) {o : Loc} (hp : s.Place o) : t.Place o := by
  unfold State.Place at *
  rw [h]
  exact hp
theorem wrBytes_ctxs (s : State) (l : Loc) (bs : List Byte) : (s.wrBytes l bs).ctxs = s.ctxs ∧ (s.wrBytes l bs).grids = s.grids := by
  unfold State.wrBytes
  exact foldl_induct (fun x : State × Nat => x.1.ctxs = s.ctxs ∧ x.1.grids = s.grids) _ (fun x b ⟨h1, h2⟩ => by
    cases e : l.add x.2 <;> exact ⟨h1, h2⟩) bs (s, 0) ⟨rfl, rfl⟩
/-- An object changed in a state that a calm step reaches from the issue. -/
theorem object_changes {s u : State} {i : Instr} {c : Ctx} {act : List Nat} {o : Loc} (hu : (s.hinted i act).Calm u) (hq : s.NoSlots) (hp : s.Place o) (f : Nat → Nat) :
    (u.objectOp o f).ctxs = (s.hinted i act).ctxs ∧ (u.objectOp o f).grids = s.grids
    ∧ ∀ c', Stored s ((u.objectOp o f).modCtx s.cur.ctx (fun _ => c')) o (bytesOfNat 16 (objTest (f (s.object o)))) := by
  have hqu : u.NoSlots := hu.quiet (hq.of_pkgs (hinted_pkgs ..))
  have hb : SameBytes s u := (hinted_sameBytes s i act).trans hu.sameBytes
  rw [objectOp_noSlots hqu, object_congr hb]
  obtain ⟨h1, h2⟩ := wrBytes_ctxs u o (bytesOfNat 16 (objTest (f (s.object o))))
  exact ⟨h1.trans hu.ctxs, h2.trans (hu.grids.trans (hinted_grids ..)), fun c' =>
    (State.wrBytes_stored u o _ (Place_congr (hu.units.trans (hinted_units ..)) hp)).congr hb (SameBytes.modCtx _ _ _)⟩
theorem phaseDone_eq (s : State) (i : Instr) (act : List Nat) (o : Loc) (b : Bool) : (s.hinted i act).phaseDone o b = (decide (objFld (s.object o) 0 0 = 1) != b) := by
  unfold State.phaseDone
  rw [hinted_object]
theorem begun_counter (c : Ctx) (i : Instr) (act : List Nat) (k : CClass) : (c.begun i act).counter k = c.counter k := by unfold Ctx.begun; split <;> rfl
theorem RegsOf.begunCount (c : Ctx) (i : Instr) (act : List Nat) (k : Option CClass) : RegsOf (c.countIssue k) ((c.begun i act).countIssue k) := by
  have h : ((c.begun i act).countIssue k) = (c.countIssue k).begun i act := by
    unfold Ctx.begun
    split
    · rfl
    · cases k <;> rfl
  rw [h]
  exact .begun ..
theorem countIssue_regs (c : Ctx) (k : Option CClass) : (c.countIssue k).v = c.v ∧ (c.countIssue k).g = c.g ∧ (c.countIssue k).fpflags = c.fpflags ∧ ∀ l, (c.countIssue k).lane l = c.lane l := by
  cases k <;> exact ⟨rfl, rfl, rfl, fun _ => rfl⟩
theorem objFld_fresh {n : Nat} (hn : n < 65536) : objFld (n * 2 ^ 48 + n * 2 ^ 32) 47 32 = n := by
  have h : n * 2 ^ 48 + n * 2 ^ 32 = 2 ^ 32 * (n * 2 ^ 16 + n) := by ring
  unfold objFld
  rw [h, Nat.mul_div_cancel_left _ (by positivity), Nat.mul_add_mod_self_right]
  exact Nat.mod_eq_of_lt hn
/-- An acquire by an issue, where it is one. -/
theorem maybeAcquire {s t : State} {i : Instr} {c : Ctx} {act : List Nat} {b : Bool} {lvl : Nat} (ht : t = if b then (s.hinted i act).acquire (c.begun i act) lvl else s.hinted i act) :
    t.ctxs = (s.hinted i act).ctxs ∧ t.grids = s.grids ∧ SameBytes s t ∧ t.units = s.units := by
  rw [ht]
  split
  · rw [State.acquire_only]
    exact ⟨rfl, hinted_grids .., (hinted_sameBytes s i act).trans (by have := State.acquire_sameBytes (s.hinted i act) (c.begun i act) lvl; rwa [State.acquire_only] at this), hinted_units ..⟩
  · exact ⟨rfl, hinted_grids .., hinted_sameBytes s i act, hinted_units ..⟩
/-- Operations on barrier objects, one part of O19. -/
theorem barrierObjects : Claims.BarrierObjects := by
  intro s c act a o ref hr ha hp hq x
  have hobj : s.object o = x := rfl
  refine ⟨fun g b h h0 h1 h2 => ?_, fun g b h h1 => ?_, fun g h ho => ?_, fun g b h => ?_, fun g d b h => ?_⟩
  · have hx : exec (.mbinit g a b) s = execMbinit g a b s := exec_mbinit_eq ..
    obtain ⟨t1, t2, t3⟩ := object_changes (i := .mbinit g a b) (c := c) (act := act) (.refl _) hq hp (fun _ => (c.rdG b).toNat * 2 ^ 48 + (c.rdG b).toNat * 2 ^ 32)
    have htest : objTest ((c.rdG b).toNat * 2 ^ 48 + (c.rdG b).toNat * 2 ^ 32) = (c.rdG b).toNat * 2 ^ 48 + (c.rdG b).toNat * 2 ^ 32 := by
      unfold objTest
      rw [if_neg (fun e => ?_)]
      have := objFld_fresh h1
      omega
    obtain ⟨v1, v2, v3, v4⟩ := countIssue_regs (c.begun (.mbinit g a b) act) (some .store)
    refine ⟨_, _, acts_of_gate h _ (hx.trans (oncePerIssue_eq ..)) t1 t2 (fun c => c.countIssue (some .store)) (onceBody_eq h.some ?_ (fun _ _ _ => nofun)) _ (fun l => ?_),
      RegsOf.depart _ _ _ _ _ (RegsOf.begunCount ..), ?_, ?_, ?_, ?_⟩
    · rw [objectOf_found _ _ hr ha]
      dsimp only
      rw [begun_rdG, begun_counter, if_neg (by omega), if_neg (by omega), State.hinted_cur]
    · rw [v4, begun_lane]
      simp [Ctx.preds]
    · rw [depart_v, v1]; exact begun_v ..
    · rw [depart_g, v2]; exact begun_g ..
    · rw [depart_flags, v3]; exact begun_flags ..
    · have := t3 (s.depart (.mbinit g a b) (s.cohort c) ((c.begun (.mbinit g a b) act).countIssue (some .store)))
      rwa [htest] at this
  · have hx : exec (.mbexpect g a b) s = execMbexpect g a b s := exec_mbexpect_eq ..
    obtain ⟨t1, t2, t3⟩ := object_changes (i := .mbexpect g a b) (c := c) (act := act) (.refl _) hq hp (fun x => objPut x 127 96 (objFld x 127 96 + (c.rdG b).toNat))
    obtain ⟨t', c', r1, r2, r3, r4, r5, r6⟩ := acts_outside h _ (hx.trans (oncePerIssue_eq ..)) t1 t2 (onceBody_eq h.some (by
      rw [objectOf_found _ _ hr ha]
      dsimp only
      rw [begun_rdG, hinted_object, hobj, if_neg (by omega)]) (fun _ _ _ => nofun))
    exact ⟨t', c', r1, r2, r3, r4, r5, r6 ▸ t3 c'⟩
  · have hx : exec (.mbarrive g a) s = execMbarrive g a s := exec_mbarrive_eq ..
    have hcalm := State.release_calm (hq.of_pkgs (hinted_pkgs s (.mbarrive g a) act)) (c.begun (.mbarrive g a) act) 2
    obtain ⟨t1, t2, t3⟩ := object_changes (c := c) hcalm hq hp (fun x => objPut x 47 32 (objFld x 47 32 - 1))
    obtain ⟨t', c', r1, r2, r3, r4, r5, r6⟩ := acts_outside h _ (hx.trans (oncePerIssue_eq ..)) t1 t2 (onceBody_eq h.some (by
      rw [objectOf_found _ _ hr ha]
      exact releasingOnce_now ho _) (fun _ _ _ => nofun))
    exact ⟨t', c', r1, r2, r3, r4, r5, r6 ▸ t3 c'⟩
  · have hx : exec (.mbtest g a b) s = execMbtest g a b s := exec_mbtest_eq ..
    obtain ⟨r, hr'⟩ : ∃ r, r = (decide (objFld x 0 0 = 1) != (c.rdG b).getLsbD 0) := ⟨_, rfl⟩
    obtain ⟨t, ht⟩ : ∃ t, t = if r then (s.hinted (.mbtest g a b) act).acquire (c.begun (.mbtest g a b) act) 5 else s.hinted (.mbtest g a b) act := ⟨_, rfl⟩
    obtain ⟨tc, tg, ts, tcur⟩ := maybeAcquire ht
    refine ⟨_, _, acts_of_gate h _ (hx.trans (oncePerIssue_eq ..)) tc tg (fun c => c.pushAll act r) (onceBody_eq h.some ?_ (fun _ _ _ => nofun)) _ (fun l => ?_),
      RegsOf.depart _ _ _ _ _ ((RegsOf.begun ..).trans (.pushAll ..)), ?_, ?_, ?_, ts.trans (SameBytes.modCtx _ _ _)⟩
    · rw [objectOf_found _ _ hr ha]
      dsimp only
      rw [begun_rdG, phaseDone_eq, hobj, ← hr', ← ht, State.hinted_cur]
    · rw [pushAll_lane _ h.nodup, begun_lane, ← hr']
      by_cases hl : l ∈ act
      · simp [hl, h.mem hl, Ctx.preds]
      · simp [hl, Ctx.preds]
    · rw [depart_v, pushAll_only]; exact begun_v ..
    · rw [depart_g, pushAll_only]; exact begun_g ..
    · rw [depart_flags, pushAll_only]; exact begun_flags ..
  · have hx : exec (.mbwait g d a b) s = execMbwait g d a b s := exec_mbwait_eq ..
    split
    · next hph =>
      obtain ⟨tc, tg, ts, tcur⟩ := maybeAcquire (i := .mbwait g d a b) (c := c) (act := act) (s := s) (b := true) rfl
      rw [if_pos rfl] at tc tg ts
      refine ⟨_, _, acts_of_gate h _ (hx.trans (oncePerIssue_eq ..)) tc tg (fun c => c.wrG d (BitVec.ofNat 32 (objFld x 0 0))) (onceBody_eq h.some ?_ (fun _ _ _ => nofun)) _ (fun l => ?_),
        RegsOf.depart _ _ _ _ _ ((RegsOf.begun ..).trans (.wrG ..)), ?_, ?_, ts.trans (SameBytes.modCtx _ _ _), fun n => ?_⟩
      · rw [objectOf_found _ _ hr ha]
        dsimp only
        rw [begun_rdG, phaseDone_eq, hobj, if_pos hph, State.hinted_cur, hinted_object]
      · have hl : ((c.begun (.mbwait g d a b) act).wrG d (BitVec.ofNat 32 (objFld x 0 0))).lane l = c.lane l := begun_lane ..
        rw [hl]
        simp [Ctx.preds]
      · rw [depart_v]; exact begun_v ..
      · rw [depart_flags]; exact begun_flags ..
      · rw [depart_rdG, Ctx.rdG_wrG, begun_rdG]
    · next hph =>
      refine hx.trans (once_wait h _ ?_)
      rw [objectOf_found _ _ hr ha]
      dsimp only
      rw [begun_rdG, phaseDone_eq, hobj, if_neg hph]

/-! ### Counters -/

theorem WritesG.congr {i : Instr} {d : Nat} {f g : Ctx → Nat → Word} (h : WritesG i d f) (e : ∀ c l, f c l = g c l) : WritesG i d g := by
  have : f = g := funext fun c => funext fun l => e c l
  exact this ▸ h
/-- Counters and the waits on them, one part of O19. -/
theorem counters : Claims.Counters := by
  refine ⟨fun g d k => ?_, fun g k n s c act h => ?_⟩
  · refine uniformWrite_gives (f := fun c _ => BitVec.ofNat 32 (c.counter k)) (fun s => exec_cntrd_eq ..) (fun c act l => ?_) (fun c l => ?_)
    · rw [begun_counter]
    · unfold Ctx.counter
      rw [List.countP_eq_length_filter]
  · extract_lets ids
    have hx : exec (.waitc g k n) s = execWaitc g k n s := exec_waitc_eq ..
    have hids : (c.begun (.waitc g k n) act).ofClass k n = ids := by
      have : (c.begun (.waitc g k n) act).ofClass k n = c.ofClass k n := by unfold Ctx.begun; split <;> rfl
      rw [this]
      rfl
    refine ⟨fun he => ?_, fun hne => ?_⟩
    · obtain ⟨tc, tg, ts, tu⟩ := maybeAcquire (t := (s.hinted (.waitc g k n) act).acquire (c.begun (.waitc g k n) act) (waitScope k)) (b := true) rfl
      obtain ⟨t', c', r1, r2, r3, r4, r5, r6⟩ := acts_outside h _ hx tc tg (by
        dsimp only
        rw [hids, he]
        rfl)
      exact ⟨t', c', r1, r2, r3, r4, r5, r6 ▸ ts.trans (SameBytes.modCtx _ _ _), r6 ▸ tu⟩
    · have hdone : (c.begun (.waitc g k n) act).countsDone ids = false := by
        obtain ⟨y, ys, hy⟩ := List.exists_cons_of_ne_nil hne
        have hm : y ∈ ids := by rw [hy]; exact List.mem_cons_self
        obtain ⟨e, he, rfl⟩ := List.mem_map.mp hm
        have hf : ((c.begun (.waitc g k n) act).entry e.id).isNone = false := by
          have hrq : (c.begun (.waitc g k n) act).rq = c.rq := by rw [begun_only]
          unfold Ctx.entry
          rw [hrq, Option.isNone_eq_false_iff, List.find?_isSome]
          exact ⟨e, (List.mem_filter.mp he).1, by simp⟩
        unfold Ctx.countsDone
        rw [List.all_eq_false]
        exact ⟨_, hm, by simp [hf]⟩
      refine hx.trans (gate_wait h _ ?_)
      dsimp only
      rw [hids, hdone]
      cases k <;> rfl

/-- Settles O19: barrier objects, their completion test, and the counters. -/
theorem barrierObjectsAndCounters : Obligations.BarrierObjectsAndCounters := ⟨barrierObjects, completionTest, counters⟩

end Sys2Proof.Machine
end

section
/-! Rounding to a format with a fraction (R104, R118, R119). -/

namespace Sys2Proof.Machine

/-! ### The values of the codes of a format -/

/-- The value of a code in units of the smallest subnormal. -/
def gridMag (F n : Nat) : Nat := if n / 2 ^ F = 0 then n % 2 ^ F else (2 ^ F + n % 2 ^ F) * 2 ^ (n / 2 ^ F - 1)
theorem codeMag_eq (f : Fmt) (n : Nat) : codeMag f n = (gridMag f.frac n : ℚ) * (2 : ℚ) ^ (1 - (f.bias : Int) - f.frac) := by
  unfold codeMag floatVal gridMag
  dsimp only
  by_cases h : n / 2 ^ f.frac = 0
  · rw [if_pos h, if_pos h]
  · rw [if_neg h, if_neg h]
    dsimp only
    have hp : (2 : ℚ) ^ (((n / 2 ^ f.frac : Nat) : Int) - f.bias - f.frac) = (2 : ℚ) ^ (n / 2 ^ f.frac - 1) * (2 : ℚ) ^ (1 - (f.bias : Int) - f.frac) := by
      rw [← zpow_natCast, ← zpow_add₀ (by norm_num)]
      congr 1
      generalize n / 2 ^ f.frac = e at h ⊢
      omega
    rw [hp]
    push_cast
    ring
/-- The value of the code k steps above the start of a binade. -/
theorem gridMag_at {F t k : Nat} (hk : k ≤ 2 ^ (F + 1)) (h : t = 0 ∨ 2 ^ F ≤ k) : gridMag F (t * 2 ^ F + k) = k * 2 ^ t := by
  have hpos : 0 < 2 ^ F := by positivity
  have hF : 2 ^ (F + 1) = 2 * 2 ^ F := by rw [Nat.pow_succ]; ring
  unfold gridMag
  by_cases h1 : k < 2 ^ F
  · have ht : t = 0 := h.resolve_right (by omega)
    subst ht
    rw [Nat.zero_mul, Nat.zero_add, Nat.div_eq_of_lt h1, Nat.mod_eq_of_lt h1, if_pos rfl, Nat.pow_zero, Nat.mul_one]
  · by_cases h2 : k < 2 ^ (F + 1)
    · have e : t * 2 ^ F + k = (k - 2 ^ F) + 2 ^ F * (t + 1) := by
        have : 2 ^ F * (t + 1) = t * 2 ^ F + 2 ^ F := by ring
        omega
      rw [e, Nat.add_mul_div_left _ _ hpos, Nat.add_mul_mod_self_left, Nat.div_eq_of_lt (by omega), Nat.mod_eq_of_lt (by omega), if_neg (by omega)]
      have : 2 ^ F + (k - 2 ^ F) = k := by omega
      rw [this]
      congr 2
      omega
    · have hk' : k = 2 ^ (F + 1) := by omega
      have e : t * 2 ^ F + k = 2 ^ F * (t + 2) := by rw [hk', hF]; ring
      rw [e, Nat.mul_div_cancel_left _ hpos, Nat.mul_mod_right, if_neg (by omega), hk', Nat.add_zero]
      have : t + 2 - 1 = t + 1 := by omega
      rw [this, Nat.pow_succ, Nat.pow_succ]
      ring
/-- Every code stands in a binade. -/
theorem gridMag_binade (F n : Nat) : ∃ t k, n = t * 2 ^ F + k ∧ k < 2 ^ (F + 1) ∧ (t = 0 ∨ 2 ^ F ≤ k) := by
  have hpos : 0 < 2 ^ F := by positivity
  have hF : 2 ^ (F + 1) = 2 * 2 ^ F := by rw [Nat.pow_succ]; ring
  have hm := Nat.mod_lt n hpos
  have hd := Nat.div_add_mod n (2 ^ F)
  rcases Nat.eq_zero_or_pos (n / 2 ^ F) with h | h
  · refine ⟨0, n, by omega, ?_, .inl rfl⟩
    rw [h] at hd
    omega
  · refine ⟨n / 2 ^ F - 1, 2 ^ F + n % 2 ^ F, ?_, by omega, .inr (by omega)⟩
    have : (n / 2 ^ F - 1) * 2 ^ F + 2 ^ F = 2 ^ F * (n / 2 ^ F) := by
      obtain ⟨y, hy⟩ : ∃ y, n / 2 ^ F = y + 1 := ⟨n / 2 ^ F - 1, by omega⟩
      rw [hy, Nat.add_sub_cancel]
      ring
    omega
theorem gridMag_strictMono (F : Nat) : StrictMono (gridMag F) := by
  refine strictMono_nat_of_lt_succ fun n => ?_
  obtain ⟨t, k, hn, hk, ht⟩ := gridMag_binade F n
  have e : n + 1 = t * 2 ^ F + (k + 1) := by omega
  rw [e, gridMag_at (by omega) (ht.imp id (by omega)), hn, gridMag_at (by omega) ht]
  exact Nat.mul_lt_mul_of_pos_right (by omega) (by positivity)
theorem codeMag_strictMono (f : Fmt) : StrictMono (codeMag f) := by
  intro a b h
  rw [codeMag_eq, codeMag_eq]
  exact mul_lt_mul_of_pos_right (by exact_mod_cast gridMag_strictMono f.frac h) (by positivity)
theorem codeMag_at {f : Fmt} {t k : Nat} (hk : k ≤ 2 ^ (f.frac + 1)) (h : t = 0 ∨ 2 ^ f.frac ≤ k) :
    codeMag f (t * 2 ^ f.frac + k) = (k : ℚ) * (2 : ℚ) ^ ((t : Int) + 1 - f.bias - f.frac) := by
  rw [codeMag_eq, gridMag_at hk h]
  have hp : (2 : ℚ) ^ ((t : Int) + 1 - f.bias - f.frac) = (2 : ℚ) ^ t * (2 : ℚ) ^ (1 - (f.bias : Int) - f.frac) := by
    rw [← zpow_natCast, ← zpow_add₀ (by norm_num)]
    congr 1
    omega
  rw [hp]
  push_cast
  ring

/-! ### Logarithms and scaled fractions -/

/-- The fraction whose terms a scale has moved to one side. -/
theorem scaled_ratio (n d : Nat) (q : Int) : ((n * 2 ^ (-q).toNat : Nat) : ℚ) * (d : ℚ) * (2 : ℚ) ^ q = (n : ℚ) * ((d * 2 ^ q.toNat : Nat) : ℚ) := by
  rcases le_total 0 q with h | h
  · obtain ⟨m, rfl⟩ := Int.eq_ofNat_of_zero_le h
    rw [Int.toNat_natCast, Int.toNat_of_nonpos (by omega), zpow_natCast]
    push_cast
    ring
  · obtain ⟨m, hm⟩ := Int.eq_ofNat_of_zero_le (show 0 ≤ -q by omega)
    have hq : q = -(m : Int) := by omega
    rw [hm, Int.toNat_natCast, Int.toNat_of_nonpos h, hq, zpow_neg, zpow_natCast]
    push_cast
    have : (2 : ℚ) ^ m ≠ 0 := by positivity
    field_simp
theorem log2Frac_spec {n d : Nat} (hn : 0 < n) (hd : 0 < d) :
    (d : ℚ) * (2 : ℚ) ^ log2Frac n d ≤ n ∧ (n : ℚ) < d * (2 : ℚ) ^ (log2Frac n d + 1) := by
  have hn1 : 2 ^ Nat.log2 n ≤ n := Nat.log2_self_le (by omega)
  have hn2 : n < 2 ^ (Nat.log2 n + 1) := Nat.lt_log2_self
  have hd1 : 2 ^ Nat.log2 d ≤ d := Nat.log2_self_le (by omega)
  have hd2 : d < 2 ^ (Nat.log2 d + 1) := Nat.lt_log2_self
  have q1 : (2 : ℚ) ^ Nat.log2 n ≤ n := by exact_mod_cast hn1
  have q2 : (n : ℚ) < 2 ^ (Nat.log2 n + 1) := by exact_mod_cast hn2
  have q3 : (2 : ℚ) ^ Nat.log2 d ≤ d := by exact_mod_cast hd1
  have q4 : (d : ℚ) < 2 ^ (Nat.log2 d + 1) := by exact_mod_cast hd2
  obtain ⟨e, he⟩ : ∃ e : Int, e = (Nat.log2 n : Int) - Nat.log2 d := ⟨_, rfl⟩
  have hd0 : (0 : ℚ) < d := by exact_mod_cast hd
  have hup : (n : ℚ) < d * (2 : ℚ) ^ (e + 1) := by
    have : (2 : ℚ) ^ (Nat.log2 n + 1) = 2 ^ Nat.log2 d * (2 : ℚ) ^ (e + 1) := by
      rw [← zpow_natCast, ← zpow_natCast, ← zpow_add₀ (by norm_num)]
      congr 1
      push_cast
      omega
    rw [this] at q2
    exact lt_of_lt_of_le q2 (mul_le_mul_of_nonneg_right q3 (by positivity))
  have hlow : (d : ℚ) * (2 : ℚ) ^ (e - 1) ≤ n := by
    have : (2 : ℚ) ^ Nat.log2 n = 2 ^ (Nat.log2 d + 1) * (2 : ℚ) ^ (e - 1) := by
      rw [← zpow_natCast, ← zpow_natCast, ← zpow_add₀ (by norm_num)]
      congr 1
      push_cast
      omega
    rw [this] at q1
    exact le_trans (mul_le_mul_of_nonneg_right q4.le (by positivity)) q1
  have hs := scaled_ratio n d e
  have hn' : (0 : ℚ) < ((n * 2 ^ (-e).toNat : Nat) : ℚ) := by exact_mod_cast Nat.mul_pos hn (by positivity)
  unfold log2Frac
  dsimp only
  rw [← he]
  split
  · next h =>
    refine ⟨?_, hup⟩
    have h' : ((d * 2 ^ e.toNat : Nat) : ℚ) ≤ ((n * 2 ^ (-e).toNat : Nat) : ℚ) := by exact_mod_cast h
    nlinarith [mul_le_mul_of_nonneg_left h' (Nat.cast_nonneg (α := ℚ) n)]
  · next h =>
    refine ⟨hlow, ?_⟩
    rw [Int.sub_add_cancel]
    have h' : ((n * 2 ^ (-e).toNat : Nat) : ℚ) < ((d * 2 ^ e.toNat : Nat) : ℚ) := by exact_mod_cast not_le.mp h
    nlinarith [mul_lt_mul_of_pos_left h' (Nat.cast_pos (α := ℚ).mpr hn)]

/-! ### Rounding to nearest -/

/-- What `roundNat` to nearest adds to the integer part. -/
theorem roundNat_near (n d : Nat) :
    roundNat false n d = if d < 2 * (n % d) ∨ 2 * (n % d) = d ∧ n / d % 2 = 1 then n / d + 1 else n / d := by
  unfold roundNat
  by_cases h1 : d < 2 * (n % d)
  · simp [h1]
  · simp [h1]

/-- The choice between the two codes around x: the nearer one, the even one of two as near. -/
def NearCode (g : Nat → ℚ) (x : ℚ) (c0 c : Nat) : Prop :=
  g c0 ≤ x ∧ x < g (c0 + 1)
    ∧ (c = c0 + 1 ∧ (g c0 + g (c0 + 1) < 2 * x ∨ 2 * x = g c0 + g (c0 + 1) ∧ c0 % 2 = 1)
      ∨ c = c0 ∧ (2 * x < g c0 + g (c0 + 1) ∨ 2 * x = g c0 + g (c0 + 1) ∧ c0 % 2 = 0))
namespace NearCode
variable {g : Nat → ℚ} {x : ℚ} {c0 c : Nat}
theorem nearest (hg : StrictMono g) (h : NearCode g x c0 c) (b : Nat) : |g c - x| ≤ |g b - x| := by
  obtain ⟨h1, h2, h3⟩ := h
  rcases Nat.lt_or_ge c0 b with hb | hb
  · have hgb : g (c0 + 1) ≤ g b := hg.monotone hb
    rw [abs_of_pos (show 0 < g b - x by linarith)]
    rcases h3 with ⟨rfl, -⟩ | ⟨rfl, h3⟩
    · rw [abs_of_pos (by linarith)]
      linarith
    · rw [abs_of_nonpos (by linarith)]
      rcases h3 with h3 | ⟨h3, -⟩ <;> linarith
  · have hgb : g b ≤ g c0 := hg.monotone hb
    rw [abs_of_nonpos (show g b - x ≤ 0 by linarith)]
    rcases h3 with ⟨rfl, h3⟩ | ⟨rfl, -⟩
    · rw [abs_of_pos (by linarith)]
      rcases h3 with h3 | ⟨h3, -⟩ <;> linarith
    · rw [abs_of_nonpos (by linarith)]
      linarith
theorem even_of_tie (hg : StrictMono g) (h : NearCode g x c0 c) {b : Nat} (hb : b ≠ c) (he : |g b - x| = |g c - x|) : c % 2 = 0 := by
  obtain ⟨h1, h2, h3⟩ := h
  rcases Nat.lt_or_ge c0 b with hc | hc
  · have hgb : g (c0 + 1) ≤ g b := hg.monotone hc
    rw [abs_of_pos (show 0 < g b - x by linarith)] at he
    rcases h3 with ⟨rfl, -⟩ | ⟨rfl, h3⟩
    · have : g (c0 + 1) < g b := hg (by omega)
      rw [abs_of_pos (by linarith)] at he
      linarith
    · rw [abs_of_nonpos (by linarith)] at he
      rcases h3 with h3 | ⟨-, h3⟩
      · linarith
      · exact h3
  · have hgb : g b ≤ g c0 := hg.monotone hc
    rw [abs_of_nonpos (show g b - x ≤ 0 by linarith)] at he
    rcases h3 with ⟨rfl, h3⟩ | ⟨rfl, -⟩
    · rw [abs_of_pos (by linarith)] at he
      rcases h3 with h3 | ⟨-, h3⟩
      · linarith
      · omega
    · have : g b < g c := hg (by omega)
      rw [abs_of_nonpos (by linarith)] at he
      linarith
/-- The choice passes M exactly where x lies beyond the middle that follows it. -/
theorem past_iff (hg : StrictMono g) (h : NearCode g x c0 c) (M : Nat) :
    M < c ↔ g M + g (M + 1) < 2 * x ∨ 2 * x = g M + g (M + 1) ∧ M % 2 = 1 := by
  obtain ⟨h1, h2, h3⟩ := h
  rcases Nat.lt_trichotomy c0 M with hM | rfl | hM
  · have hgM : g (c0 + 1) ≤ g M := hg.monotone hM
    have hgM' : g M < g (M + 1) := hg (by omega)
    constructor
    · intro hc
      rcases h3 with ⟨rfl, -⟩ | ⟨rfl, -⟩ <;> omega
    · rintro (h | ⟨h, -⟩) <;> linarith
  · constructor
    · rcases h3 with ⟨rfl, h3⟩ | ⟨rfl, -⟩
      · exact fun _ => h3
      · omega
    · rcases h3 with ⟨rfl, h3⟩ | ⟨rfl, h3⟩
      · omega
      · intro h
        exfalso
        rcases h with h | ⟨h, h'⟩
        · rcases h3 with h3 | ⟨h3, -⟩ <;> linarith
        · rcases h3 with h3 | ⟨-, h3⟩
          · linarith
          · omega
  · have hgM : g (M + 1) ≤ g c0 := hg.monotone hM
    have hgM' : g M < g (M + 1) := hg (by omega)
    exact ⟨fun _ => .inl (by linarith), fun _ => by rcases h3 with ⟨rfl, -⟩ | ⟨rfl, -⟩ <;> omega⟩
theorem eq_iff (h : NearCode g x c0 c) : g c = x ↔ g c0 = x := by
  obtain ⟨h1, h2, h3⟩ := h
  rcases h3 with ⟨rfl, h3⟩ | ⟨rfl, -⟩
  · constructor <;> intro h
    · linarith
    · rcases h3 with h3 | ⟨h3, -⟩ <;> linarith
  · rfl
end NearCode

/-- R119: the result of an overflow, rounding to nearest. -/
def overflowed (f : Fmt) (sat neg : Bool) : Nat × BitVec 6 :=
  match f with
  | .e2m1 => (f.maxCode + f.signBit neg, fOF ||| fNX ||| fSAT)
  | .e3m5 => (f.maxCode + f.signBit neg, fOF ||| fNX ||| fSAT)
  | _ =>
    if sat then (f.maxCode + f.signBit neg, fOF ||| fNX ||| fSAT)
    else match f.infCode with
      | some ic => (ic + f.signBit neg, fOF ||| fNX)
      | none => (f.canonNaN, fOF ||| fNX ||| fNV)

theorem Fmt.frac_pos {f : Fmt} (h : f.range = none) : 1 ≤ f.frac := by
  cases f <;> simp [Fmt.range] at h <;> decide

/-- R104: the fraction n / d in units of the last place, and the binade that its exponent names. -/
structure Placed (f : Fmt) (n d T num den : Nat) : Prop where
  den_pos : 0 < den
  ratio : (num : ℚ) * (2 : ℚ) ^ ((T : Int) + 1 - f.bias - f.frac) = (n : ℚ) / d * den
  high : num / den < 2 ^ (f.frac + 1)
  low : T = 0 ∨ 2 ^ f.frac ≤ num / den
theorem log2Frac_lt_iff {n d : Nat} (hn : 0 < n) (hd : 0 < d) (m : Int) : log2Frac n d < m ↔ (n : ℚ) / d < (2 : ℚ) ^ m := by
  obtain ⟨h1, h2⟩ := log2Frac_spec hn hd
  have hd0 : (0 : ℚ) < d := by exact_mod_cast hd
  rw [div_lt_iff₀ hd0, mul_comm]
  constructor
  · intro h
    have : (2 : ℚ) ^ (log2Frac n d + 1) ≤ (2 : ℚ) ^ m := zpow_le_zpow_right₀ (by norm_num) (by omega)
    exact lt_of_lt_of_le h2 (mul_le_mul_of_nonneg_left this hd0.le)
  · intro h
    by_contra hc
    have : (2 : ℚ) ^ m ≤ (2 : ℚ) ^ log2Frac n d := zpow_le_zpow_right₀ (by norm_num) (by omega)
    linarith [mul_le_mul_of_nonneg_left this hd0.le]
theorem placed_at {f : Fmt} {n d T : Nat} (hn : 0 < n) (hd : 0 < d) (hT : (T : Int) = max (log2Frac n d) (1 - (f.bias : Int)) + f.bias - 1) :
    Placed f n d T (n * 2 ^ (-((T : Int) + 1 - f.bias - f.frac)).toNat) (d * 2 ^ ((T : Int) + 1 - f.bias - f.frac).toNat) := by
  obtain ⟨h1, h2⟩ := log2Frac_spec hn hd
  have hd0 : (0 : ℚ) < d := by exact_mod_cast hd
  have hs := scaled_ratio n d ((T : Int) + 1 - f.bias - f.frac)
  obtain ⟨q, hq⟩ : ∃ q : Int, q = (T : Int) + 1 - f.bias - f.frac := ⟨_, rfl⟩
  rw [← hq] at hs ⊢
  obtain ⟨num, hnum⟩ : ∃ num, num = n * 2 ^ (-q).toNat := ⟨_, rfl⟩
  obtain ⟨den, hden⟩ : ∃ den, den = d * 2 ^ q.toNat := ⟨_, rfl⟩
  rw [← hnum, ← hden] at hs ⊢
  have hden0 : 0 < den := by rw [hden]; positivity
  have hden0' : (0 : ℚ) < den := by exact_mod_cast hden0
  have hratio : (num : ℚ) * (2 : ℚ) ^ q = (n : ℚ) / d * den := by
    field_simp
    linarith
  refine ⟨hden0, by rw [← hq]; exact hratio, ?_, ?_⟩
  · rw [Nat.div_lt_iff_lt_mul hden0]
    have hx : (n : ℚ) / d < (2 : ℚ) ^ (q + f.frac + 1) := by
      rw [div_lt_iff₀ hd0, mul_comm]
      exact lt_of_lt_of_le h2 (mul_le_mul_of_nonneg_left (zpow_le_zpow_right₀ (by norm_num) (by omega)) hd0.le)
    have hx' : (num : ℚ) * (2 : ℚ) ^ q < ((2 : ℚ) ^ (f.frac + 1) * den) * (2 : ℚ) ^ q := by
      rw [hratio]
      calc (n : ℚ) / d * den < (2 : ℚ) ^ (q + f.frac + 1) * den := mul_lt_mul_of_pos_right hx hden0'
        _ = ((2 : ℚ) ^ (f.frac + 1) * den) * (2 : ℚ) ^ q := by
          rw [add_assoc, zpow_add₀ (by norm_num), ← zpow_natCast]
          push_cast
          ring
    exact_mod_cast lt_of_mul_lt_mul_right hx' (by positivity)
  · by_cases hm : log2Frac n d ≤ 1 - (f.bias : Int)
    · left
      omega
    · right
      rw [Nat.le_div_iff_mul_le hden0]
      have hx : (2 : ℚ) ^ (q + f.frac) ≤ (n : ℚ) / d := by
        rw [le_div_iff₀ hd0, mul_comm]
        exact le_trans (mul_le_mul_of_nonneg_left (zpow_le_zpow_right₀ (by norm_num) (by omega)) hd0.le) h1
      have hx' : ((2 : ℚ) ^ f.frac * den) * (2 : ℚ) ^ q ≤ (num : ℚ) * (2 : ℚ) ^ q := by
        rw [hratio]
        calc ((2 : ℚ) ^ f.frac * den) * (2 : ℚ) ^ q = (2 : ℚ) ^ (q + f.frac) * den := by
              rw [zpow_add₀ (by norm_num), ← zpow_natCast]
              ring
          _ ≤ (n : ℚ) / d * den := mul_le_mul_of_nonneg_right hx hden0'.le
      exact_mod_cast le_of_mul_le_mul_right hx' (by positivity)
namespace Placed
variable {f : Fmt} {n d T num den : Nat}
theorem at_code (h : Placed f n d T num den) : codeMag f (T * 2 ^ f.frac + num / den) = ((num / den : Nat) : ℚ) * (2 : ℚ) ^ ((T : Int) + 1 - f.bias - f.frac) :=
  codeMag_at h.high.le h.low
theorem at_next (h : Placed f n d T num den) :
    codeMag f (T * 2 ^ f.frac + num / den + 1) = ((num / den : Nat) + 1 : ℚ) * (2 : ℚ) ^ ((T : Int) + 1 - f.bias - f.frac) := by
  rw [Nat.add_assoc, codeMag_at h.high (h.low.imp id (by omega))]
  push_cast
  rfl
/-- How far the fraction stands above the code below it. -/
theorem above (h : Placed f n d T num den) :
    ((n : ℚ) / d - codeMag f (T * 2 ^ f.frac + num / den)) * den = ((num % den : Nat) : ℚ) * (2 : ℚ) ^ ((T : Int) + 1 - f.bias - f.frac) := by
  have hdm : (num : ℚ) = den * ((num / den : Nat) : ℚ) + ((num % den : Nat) : ℚ) := by exact_mod_cast (Nat.div_add_mod num den).symm
  rw [sub_mul, ← h.ratio, h.at_code, hdm]
  ring
theorem exact_iff (h : Placed f n d T num den) : codeMag f (T * 2 ^ f.frac + num / den) = (n : ℚ) / d ↔ num % den = 0 := by
  have ha := h.above
  have hden : (0 : ℚ) < den := by exact_mod_cast h.den_pos
  have hz : (0 : ℚ) < (2 : ℚ) ^ ((T : Int) + 1 - f.bias - f.frac) := by positivity
  constructor <;> intro he
  · rw [he, sub_self, zero_mul] at ha
    have : ((num % den : Nat) : ℚ) = 0 := by
      rcases mul_eq_zero.mp ha.symm with h0 | h0
      · exact h0
      · exact absurd h0 hz.ne'
    exact_mod_cast this
  · rw [he, Nat.cast_zero, zero_mul] at ha
    rcases mul_eq_zero.mp ha with h0 | h0
    · linarith
    · exact absurd h0 hden.ne'
theorem near (h : Placed f n d T num den) (hF : 1 ≤ f.frac) :
    NearCode (codeMag f) ((n : ℚ) / d) (T * 2 ^ f.frac + num / den) (T * 2 ^ f.frac + roundNat false num den) := by
  have ha := h.above
  have h0 := h.at_code
  have h1 := h.at_next
  have hden : (0 : ℚ) < den := by exact_mod_cast h.den_pos
  have hpar : (T * 2 ^ f.frac + num / den) % 2 = num / den % 2 := by
    obtain ⟨j, hj⟩ : ∃ j, f.frac = j + 1 := ⟨f.frac - 1, by omega⟩
    have : T * 2 ^ f.frac = 2 * (T * 2 ^ j) := by rw [hj, Nat.pow_succ]; ring
    omega
  have hr := Nat.mod_lt num h.den_pos
  have hrq : ((num % den : Nat) : ℚ) < den := by exact_mod_cast hr
  have hr0 : (0 : ℚ) ≤ ((num % den : Nat) : ℚ) := by positivity
  have hu : (0 : ℚ) < (2 : ℚ) ^ ((T : Int) + 1 - f.bias - f.frac) := by positivity
  unfold NearCode
  rw [hpar]
  generalize (2 : ℚ) ^ ((T : Int) + 1 - f.bias - f.frac) = u at *
  generalize codeMag f (T * 2 ^ f.frac + num / den + 1) = g1 at *
  generalize codeMag f (T * 2 ^ f.frac + num / den) = g0 at *
  generalize (n : ℚ) / d = x at *
  obtain rfl : g1 = g0 + u := by rw [h0, h1]; ring
  have key : (2 * x - (g0 + (g0 + u))) * den = ((2 * (num % den) : Nat) - (den : ℚ)) * u := by
    push_cast
    linarith
  have hx0 : g0 ≤ x := by nlinarith [mul_nonneg hr0 hu.le]
  have hx1 : x < g0 + u := by nlinarith [mul_lt_mul_of_pos_right hrq hu]
  refine ⟨hx0, hx1, ?_⟩
  rw [roundNat_near]
  rcases Nat.lt_trichotomy den (2 * (num % den)) with hlt | heq | hgt
  · have : (den : ℚ) < (2 * (num % den) : Nat) := by exact_mod_cast hlt
    rw [if_pos (.inl hlt)]
    exact .inl ⟨(Nat.add_assoc _ _ _).symm, .inl (by nlinarith [mul_pos (sub_pos.mpr this) hu])⟩
  · have : (den : ℚ) = (2 * (num % den) : Nat) := by exact_mod_cast heq
    have hx2 : 2 * x = g0 + (g0 + u) := by
      rw [← this, sub_self, zero_mul] at key
      rcases mul_eq_zero.mp key with hk | hk
      · linarith
      · exact absurd hk hden.ne'
    by_cases hk : num / den % 2 = 1
    · rw [if_pos (.inr ⟨heq.symm, hk⟩)]
      exact .inl ⟨(Nat.add_assoc _ _ _).symm, .inr ⟨hx2, hk⟩⟩
    · rw [if_neg (by omega)]
      exact .inr ⟨rfl, .inr ⟨hx2, by omega⟩⟩
  · have : ((2 * (num % den) : Nat) : ℚ) < den := by exact_mod_cast hgt
    rw [if_neg (by omega)]
    exact .inr ⟨rfl, .inl (by nlinarith [mul_pos (sub_pos.mpr this) hu])⟩
end Placed

/-- R77, R104: the flags of a result that does not overflow. -/
theorem inexact_flags (a b : Prop) [Decidable a] [Decidable b] :
    (if decide (¬ a) = true then fNX else 0) ||| (if (decide (¬ a) && decide b) = true then fUF else 0)
      = if a then 0 else if b then fNX ||| fUF else fNX := by
  by_cases ha : a
  · simp [ha]
  · by_cases hb : b <;> simp [ha, hb]
theorem inexact_noOF (a b : Prop) [Decidable a] [Decidable b] : (if a then 0 else if b then fNX ||| fUF else fNX) &&& fOF = 0 := by
  split
  · decide
  · split <;> decide
theorem overflowed_OF (f : Fmt) (sat neg : Bool) : (overflowed f sat neg).2 &&& fOF ≠ 0 := by
  cases f <;> cases sat <;> simp [overflowed, Fmt.infCode] <;> decide
/-- R104, R118, R119: `Round` to nearest chooses between the two codes around the magnitude. -/
theorem roundFin_near {f : Fmt} {neg : Bool} {n d : Nat} (sat : Bool) (hf : f.range = none) (hn : 0 < n) (hd : 0 < d) (hs : ¬ (f = .e3m5 ∧ neg = true)) :
    ∃ c0 c, NearCode (codeMag f) ((n : ℚ) / d) c0 c
      ∧ roundFin f false sat neg n d = if f.maxCode < c then overflowed f sat neg
          else (c + f.signBit neg, if codeMag f c = (n : ℚ) / d then 0 else if (n : ℚ) / d < (2 : ℚ) ^ (1 - (f.bias : Int)) then fNX ||| fUF else fNX) := by
  obtain ⟨T, hT⟩ : ∃ T : Nat, (T : Int) = max (log2Frac n d) (1 - (f.bias : Int)) + f.bias - 1 :=
    ⟨(max (log2Frac n d) (1 - (f.bias : Int)) + f.bias - 1).toNat, by omega⟩
  have hp := placed_at (f := f) hn hd hT
  have hq : max (log2Frac n d) (1 - (f.bias : Int)) - f.frac = (T : Int) + 1 - f.bias - f.frac := by omega
  have hnear := hp.near (Fmt.frac_pos hf)
  refine ⟨_, _, hnear, ?_⟩
  have hex := hnear.eq_iff.trans hp.exact_iff
  have huf := log2Frac_lt_iff hn hd (1 - (f.bias : Int))
  unfold roundFin
  rw [hf]
  dsimp only
  rw [if_neg hn.ne', if_neg hs, hq]
  have hcode : ∀ k : Nat, ((T : Int) + 1 - f.bias - f.frac + f.frac + f.bias) * 2 ^ f.frac + (k : Int) - 2 ^ f.frac = ((T * 2 ^ f.frac + k : Nat) : Int) := by
    intro k
    push_cast
    ring
  rw [hcode]
  by_cases hM : f.maxCode < T * 2 ^ f.frac + roundNat false (n * 2 ^ (-((T : Int) + 1 - f.bias - f.frac)).toNat) (d * 2 ^ ((T : Int) + 1 - f.bias - f.frac).toNat)
  · rw [if_pos (by exact_mod_cast hM), if_pos hM]
    cases f <;> rfl
  · rw [if_neg (by exact_mod_cast hM), if_neg hM, Int.toNat_natCast]
    simp only [hex, ← huf]
    congr 1
    exact inexact_flags _ _

/-- Settles O3 in part: R104, R118, R119. -/
theorem roundsToFormat : Claims.RoundsToFormat := by
  intro f neg sat n d hf hn hd hs r x mid beyond
  obtain ⟨c0, c, hnear, hr⟩ := roundFin_near (neg := neg) sat hf hn hd hs
  have hg := codeMag_strictMono f
  have hpast : f.maxCode < c ↔ beyond := hnear.past_iff hg f.maxCode
  have hr' : r = _ := hr
  by_cases hb : beyond
  · rw [if_pos (hpast.mpr hb)] at hr'
    rw [hr']
    refine ⟨⟨fun _ => hb, fun _ => overflowed_OF f sat neg⟩, fun _ => ⟨fun h => ?_, fun h ic hic => ?_, fun h he => ?_⟩, fun h => absurd hb h⟩
    · rcases h with rfl | rfl | rfl
      · cases f <;> rfl
      · rfl
      · rfl
    · subst h
      cases f <;> simp [Fmt.infCode] at hic <;> subst hic <;> rfl
    · subst h he
      exact ⟨rfl, show (fOF ||| fNX ||| fNV) &&& (fOF ||| fNX) = fOF ||| fNX by decide⟩
  · have hc := fun h => hb (hpast.mp h)
    rw [if_neg hc] at hr'
    rw [hr']
    exact ⟨⟨fun h => absurd (inexact_noOF _ _) h, fun h => absurd h hb⟩, fun h => absurd h hb, fun _ => ⟨c, Nat.le_of_not_lt hc, rfl,
      fun b _ => hnear.nearest hg b, fun b _ hbc he => hnear.even_of_tie hg hbc he, rfl⟩⟩

theorem fracDen_pos (e : Int) : 0 < fracDen e := Nat.two_pow_pos _
theorem fracNum_pos {m : Nat} (e : Int) (h : m ≠ 0) : 0 < fracNum m e := Nat.mul_pos (by omega) (Nat.two_pow_pos _)
theorem frac_eq (m : Nat) (e : Int) : (fracNum m e : ℚ) = m * (2 : ℚ) ^ e * fracDen e := by
  have h := scaled_ratio 1 m e
  unfold fracNum fracDen
  rw [Nat.one_mul] at h
  push_cast at h ⊢
  linarith
theorem frcp_fin {a : Word} {neg : Bool} {m : Nat} {e : Int} (h : f32 a = .fin neg m e) (hm : m ≠ 0) :
    frcp a.toNat = rnd32 neg (fracDen e) (fracNum m e) := by
  unfold frcp
  rw [show readF .fp32 a.toNat = .fin neg m e from h]
  exact if_neg hm
/-- Settles O3 in part: R138 of `FRCP`. -/
theorem reciprocalIsNearest : Claims.ReciprocalIsNearest := by
  intro a neg m e ha hm r x hof
  have hr : r = rnd32 neg (fracDen e) (fracNum m e) := frcp_fin ha hm
  have hx : x = (fracDen e : ℚ) / fracNum m e := by
    have hd : (fracDen e : ℚ) ≠ 0 := by exact_mod_cast (fracDen_pos e).ne'
    rw [frac_eq]
    change 1 / _ = _
    field_simp
  rw [hr] at hof ⊢
  obtain ⟨hover, -, hin⟩ := roundsToFormat .fp32 neg false _ _ rfl (fracDen_pos e) (fracNum_pos e hm) (by simp)
  obtain ⟨c, hc, hcode, hnear, -⟩ := hin (fun hb => hover.mpr hb hof)
  refine ⟨c, hc, ?_, ?_⟩
  · rw [rnd32, hcode]
    cases neg <;> rfl
  · rw [hx]
    exact hnear

/-! ### Special operands (R107, R136) -/

theorem sumV_nan {l : List FVal} (h : l.any FVal.isNaN = true) : sumV l = (.nan, 0) := if_pos h
theorem mulV_nan {v w : FVal} (h : v.isNaN = true ∨ w.isNaN = true) : mulV v w = (.nan, 0) := by
  cases v <;> cases w <;> simp_all [FVal.isNaN, mulV]
theorem fmaV_nan {v w z : FVal} (h : v.isNaN = true ∨ w.isNaN = true ∨ z.isNaN = true) : fmaV v w z = (.nan, 0) :=
  if_pos (by simpa [or_assoc] using h)
theorem asWord_nan (sat : Bool) (fl : BitVec 6) : asWord (roundArith .fp32 sat (.nan, fl)) = (0x7FC00000, fl) := rfl
theorem asWord_inf (sat n : Bool) : asWord (roundArith .fp32 sat (.inf n, 0)) = (if n then 0xFF800000 else 0x7F800000, 0) := by
  cases n <;> rfl
theorem roundFin_zero {f : Fmt} (hf : f.range = none) (rtz sat neg : Bool) (d : Nat) : roundFin f rtz sat neg 0 d = (f.signBit neg, 0) := by
  unfold roundFin
  rw [hf]
  exact if_pos rfl
theorem asWord_zero (sat n : Bool) (e : Int) : asWord (roundArith .fp32 sat (.fin n 0 e, 0)) = (if n then 0x80000000 else 0, 0) := by
  have h : fracNum 0 e = 0 := Nat.zero_mul _
  unfold roundArith
  dsimp only
  rw [h, roundFin_zero rfl]
  cases n <;> rfl
theorem sumV_inf_fin (n k : Bool) (m : Nat) (e : Int) : sumV [.inf n, .fin k m e] = (.inf n, 0) := by
  cases n <;> rfl
theorem scaledInt_zero (lo e : Int) (n : Bool) : scaledInt lo (.fin n 0 e) = 0 := by simp [scaledInt]
theorem scaledInt_opposite (lo e : Int) (n : Bool) (m : Nat) : scaledInt lo (.fin n m e) + scaledInt lo (.fin (!n) m e) = 0 := by
  cases n <;> simp [scaledInt]
/-- An exact sum of two finite values that is zero is positive unless both are negative zeros. -/
theorem sumV_zero {n k : Bool} {x y : Nat} {e d : Int}
    (h : ∀ lo, scaledInt lo (.fin n x e) + scaledInt lo (.fin k y d) = 0) :
    sumV [.fin n x e, .fin k y d] = (.fin ((decide (x = 0) && n) && (decide (y = 0) && k)) 0 0, 0) := by
  have hz : ∀ (b : Bool) (m : Nat) (i : Int), (FVal.fin b m i).isZero = decide (m = 0) := by
    intro b m i
    cases m <;> rfl
  unfold sumV
  simp [FVal.isNaN, h, hz, FVal.sign]
/-- Settles O3 in part: R107, R136. -/
theorem floatSpecials : Claims.FloatSpecials := by
  refine ⟨fun sat x y h => ⟨?_, ?_⟩, fun sat x y z h => ?_, fun sat n => ⟨?_, ?_⟩, fun sat n k m e => ⟨rfl, ?_, fun hm => ?_⟩,
    fun sat n k m e hm => ⟨?_, ?_⟩⟩
  · rw [sumV_nan (by simpa using h), asWord_nan]
  · rw [mulV_nan h, asWord_nan]
  · rw [fmaV_nan h, asWord_nan]
  · cases n <;> rfl
  · cases n <;> rfl
  · rw [sumV_inf_fin, asWord_inf]
  · rw [show mulV (.inf n) (.fin k m e) = (.inf (n != k), 0) from if_neg hm, asWord_inf]
  · rw [sumV_zero fun lo => scaledInt_opposite lo e n m, asWord_zero]
    simp [hm]
  · rw [sumV_zero fun lo => by rw [scaledInt_zero, scaledInt_zero, Int.add_zero], asWord_zero]
    simp

/-! ### Rounding to an integer (R104) -/

/-- Settles O3 in part: R104 step 2. -/
theorem roundsToNearest : Claims.RoundsToNearest := by
  intro n d hd
  have hdm := Nat.div_add_mod n d
  have hr := Nat.mod_lt n hd
  refine ⟨fun k => ?_, fun h => ?_, ?_⟩
  · have hk : roundNat false n d * d = if d < 2 * (n % d) ∨ 2 * (n % d) = d ∧ n / d % 2 = 1 then n / d * d + d else n / d * d := by
      rw [roundNat_near, apply_ite (· * d), Nat.add_mul, Nat.one_mul]
    have hside : k * d ≤ n / d * d ∨ n / d * d + d ≤ k * d := by
      rcases Nat.lt_or_ge (n / d) k with h | h
      · exact .inr (by rw [← Nat.succ_mul]; exact Nat.mul_le_mul_right d h)
      · exact .inl (Nat.mul_le_mul_right d h)
    rw [hk]
    rw [Nat.mul_comm] at hdm
    generalize n / d * d = m, k * d = j, n % d = r at *
    simp only [abs_eq_max_neg]
    split <;> omega
  · rw [roundNat_near]
    split <;> omega
  · rw [show roundNat true n d = n / d from rfl, Nat.add_mul, Nat.one_mul]
    rw [Nat.mul_comm] at hdm
    omega

/-! ### Functions at special operands (R138) -/

theorem isqrtFrom_spec (x : Nat) : ∀ b acc, acc * acc ≤ x → x < (acc + 2 ^ b) * (acc + 2 ^ b) →
    isqrtFrom x b acc * isqrtFrom x b acc ≤ x ∧ x < (isqrtFrom x b acc + 1) * (isqrtFrom x b acc + 1)
  | 0, acc, h1, h2 => ⟨h1, h2⟩
  | b + 1, acc, h1, h2 => by
    rw [isqrtFrom]
    split
    · next h =>
      refine isqrtFrom_spec x b _ h ?_
      rw [Nat.add_assoc, ← Nat.two_mul, ← Nat.pow_succ']
      exact h2
    · next h => exact isqrtFrom_spec x b acc h1 (Nat.lt_of_not_le h)
theorem isqrt_spec (x : Nat) : isqrt x * isqrt x ≤ x ∧ x < (isqrt x + 1) * (isqrt x + 1) := by
  refine isqrtFrom_spec x _ 0 (Nat.zero_le x) ?_
  have h : x < 2 ^ (Nat.log2 x + 1) := Nat.lt_log2_self
  rw [Nat.zero_add, ← Nat.pow_add]
  exact lt_of_lt_of_le h (Nat.pow_le_pow_right (by omega) (by omega))
/-- A negative operand is an infinity or not zero. -/
theorem f32_negative {x : Word} (h1 : 0x80000000 < x.toNat) (h2 : x.toNat ≤ 0xFF800000) :
    f32 x = .inf true ∨ ∃ m e, f32 x = .fin true m e ∧ m ≠ 0 := by
  have hm : x.msb = true := by
    rw [msb_eq_le]
    exact decide_eq_true (by omega)
  rw [f32_eq, hm]
  obtain ⟨mag, hmag⟩ : ∃ mag, mag = x.toNat % 2 ^ 31 := ⟨_, rfl⟩
  rw [← hmag]
  have hmag1 : 0 < mag := by omega
  have hmag2 : mag ≤ 0x7F800000 := by omega
  by_cases hi : mag = 0x7F800000
  · exact .inl (if_pos hi)
  · rw [if_neg hi, if_neg (by omega)]
    right
    unfold floatVal
    dsimp only
    by_cases he : mag / 2 ^ Fmt.frac .fp32 = 0
    · rw [if_pos he]
      have := Nat.div_add_mod mag (2 ^ Fmt.frac .fp32)
      rw [he] at this
      exact ⟨_, _, rfl, by omega⟩
    · rw [if_neg he]
      exact ⟨_, _, rfl, by have := Nat.two_pow_pos (Fmt.frac .fp32); omega⟩
/-- Settles O3 in part: R138. -/
theorem functionSpecials : Claims.FunctionSpecials := by
  refine ⟨fun x hx f hf => ?_, fun x h1 h2 f hf => ?_, by decide, by decide, by decide, by decide, isqrt_spec⟩
  · have hn : readF .fp32 x.toNat = .nan := by
      have : f32 x = .nan := by
        generalize f32 x = v at hx
        cases v <;> simp_all [FVal.isNaN]
      exact this
    simp only [List.mem_cons, List.not_mem_nil, or_false] at hf
    rcases hf with rfl | rfl | rfl | rfl | rfl | rfl <;> simp [frcp, frsq, fsqrt, fexp2, flog2, ftanh, hn] <;> rfl
  · simp only [List.mem_cons, List.not_mem_nil, or_false] at hf
    rcases f32_negative h1 h2 with hv | ⟨m, e, hv, hm⟩
    · have hn : readF .fp32 x.toNat = .inf true := hv
      rcases hf with rfl | rfl | rfl <;> simp [frsq, fsqrt, flog2, hn] <;> rfl
    · have hn : readF .fp32 x.toNat = .fin true m e := hv
      rcases hf with rfl | rfl | rfl <;> simp [frsq, fsqrt, flog2, hn, hm] <;> rfl

/-- Settles O3: special operands, rounding and the special values of the functions. -/
theorem floatRounding : Obligations.FloatRounding :=
  ⟨floatSpecials, roundsToNearest, roundsToFormat, reciprocalIsNearest, functionSpecials⟩

end Sys2Proof.Machine
end

section
/-! SUPPORT. Reduction slots, collective sums and shards (R180 to R182, R265, R269, R270). -/

namespace Sys2Proof.Machine

/-! ### Rounding a value of the format -/

/-- R104: the magnitude of a code rounds to that code. -/
theorem roundFin_codeMag {f : Fmt} {neg : Bool} {n d c : Nat} (sat : Bool) (hf : f.range = none) (hn : 0 < n) (hd : 0 < d)
    (hs : ¬ (f = .e3m5 ∧ neg = true)) (hc : c ≤ f.maxCode) (h : (n : ℚ) / d = codeMag f c) :
    (roundFin f false sat neg n d).1 = c + f.signBit neg := by
  obtain ⟨c0, c', hnear, hr⟩ := roundFin_near (neg := neg) sat hf hn hd hs
  have hg := codeMag_strictMono f
  have heq : c' = c := by
    have h1 := hnear.nearest hg c
    rw [h, sub_self, abs_zero] at h1
    exact hg.injective (sub_eq_zero.mp (abs_nonpos_iff.mp h1))
  rw [hr, heq, if_neg (by omega)]

/-! ### Exact sums in fixed point (R180) -/

theorem floatVal_codeMag {f : Fmt} {neg : Bool} {c m : Nat} {e : Int} (h : floatVal f neg c = .fin neg m e) :
    codeMag f c = m * (2 : ℚ) ^ e ∧ 1 - (f.bias : Int) - f.frac ≤ e ∧ e ≤ max 1 ((c / 2 ^ f.frac : Nat) : Int) - f.bias - f.frac ∧ m < 2 ^ (f.frac + 1) := by
  have hm := Nat.mod_lt c (Nat.two_pow_pos f.frac)
  rw [codeMag]
  unfold floatVal at h ⊢
  dsimp only at h ⊢
  rw [Nat.pow_succ]
  by_cases h0 : c / 2 ^ f.frac = 0
  · rw [if_pos h0] at h ⊢
    obtain ⟨-, rfl, rfl⟩ := FVal.fin.inj h
    exact ⟨rfl, le_rfl, by omega, by omega⟩
  · rw [if_neg h0] at h ⊢
    obtain ⟨-, rfl, rfl⟩ := FVal.fin.inj h
    refine ⟨rfl, ?_, ?_, by omega⟩ <;> generalize c / 2 ^ f.frac = k at h0 ⊢ <;> omega
/-- R106, R107: a finite FP32 code. -/
theorem f32_fin {w : Word} {neg : Bool} {m : Nat} {e : Int} (h : f32 w = .fin neg m e) :
    neg = w.msb ∧ w.toNat % 2 ^ 31 ≤ 0x7F7FFFFF ∧ floatVal .fp32 neg (w.toNat % 2 ^ 31) = .fin neg m e := by
  rw [f32_eq] at h
  split at h
  · cases h
  · split at h
    · cases h
    · obtain ⟨m', e', hv⟩ := floatVal_fin .fp32 w.msb (w.toNat % 2 ^ 31)
      rw [hv] at h
      obtain ⟨rfl, rfl, rfl⟩ := FVal.fin.inj h
      exact ⟨rfl, by omega, hv⟩
theorem f32_bounds {w : Word} {neg : Bool} {m : Nat} {e : Int} (h : f32 w = .fin neg m e) : m < 2 ^ 24 ∧ -149 ≤ e ∧ e ≤ 104 := by
  obtain ⟨-, hc, hv⟩ := f32_fin h
  obtain ⟨-, h1, h2, h3⟩ := floatVal_codeMag hv
  have hF : Fmt.frac .fp32 = 23 := rfl
  have hB : Fmt.bias .fp32 = 127 := rfl
  rw [hF, hB] at h1 h2
  rw [hF] at h3
  have : w.toNat % 2 ^ 31 / 2 ^ 23 ≤ 254 := by omega
  generalize w.toNat % 2 ^ 31 / 2 ^ 23 = k at *
  exact ⟨h3, by omega, by omega⟩
theorem scaledInt_natAbs (lo e : Int) (neg : Bool) (m : Nat) : (scaledInt lo (.fin neg m e)).natAbs = m * 2 ^ (e - lo).toNat := by
  cases neg
  · exact Int.natAbs_natCast _
  · exact (Int.natAbs_neg _).trans (Int.natAbs_natCast _)
theorem scaledInt_neg {lo e : Int} {neg : Bool} {m : Nat} (h : scaledInt lo (.fin neg m e) ≠ 0) : decide (scaledInt lo (.fin neg m e) < 0) = neg := by
  cases neg
  · exact decide_eq_false (not_lt.mpr (Int.natCast_nonneg _))
  · exact decide_eq_true (lt_of_le_of_ne (neg_nonpos.mpr (Int.natCast_nonneg _)) h)
theorem scaledInt_f32_lt (w : Word) : (scaledInt (-149) (f32 w)).natAbs < 2 ^ 277 := by
  cases h : f32 w with
  | nan => exact Nat.two_pow_pos _
  | inf n => exact Nat.two_pow_pos _
  | fin neg m e =>
    obtain ⟨hm, he, he'⟩ := f32_bounds h
    rw [scaledInt_natAbs]
    calc m * 2 ^ (e - -149).toNat ≤ m * 2 ^ 253 := Nat.mul_le_mul_left _ (Nat.pow_le_pow_right (by omega) (by omega))
      _ < 2 ^ 24 * 2 ^ 253 := Nat.mul_lt_mul_of_pos_right hm (Nat.two_pow_pos _)
      _ = 2 ^ 277 := (Nat.pow_add 2 24 253).symm
theorem toInt_ofInt_320 {x : Int} (h : x.natAbs < 2 ^ 277) : (BitVec.ofInt 320 x).toInt = x := by
  rw [BitVec.toInt_ofInt]
  refine Int.bmod_eq_of_le ?_ ?_
  · norm_num at h ⊢
    omega
  · norm_num at h ⊢
    omega
/-- R180: the fixed-point form of an FP32 value is exact. -/
theorem toInt_acc320 (w : Word) : (acc320 (f32 w)).toInt = scaledInt (-149) (f32 w) := toInt_ofInt_320 (scaledInt_f32_lt w)

/-! ### Contributions commute (R181) -/

/-- A contribution as one change of each field. -/
theorem RedSlot.add_eq (x : RedSlot) (c : Word) : x.add c = { x with
    nan := x.nan || decide (f32 c = .nan), pinf := x.pinf || decide (f32 c = .inf false), ninf := x.ninf || decide (f32 c = .inf true)
    acc := x.acc + acc320 (f32 c), nz := x.nz && (decide (c = 0x80000000) || (f32 c).isNaN || decide (f32 c = .inf false) || decide (f32 c = .inf true)) } := by
  unfold RedSlot.add
  cases h : f32 c with
  | nan => simp [acc320, scaledInt, FVal.isNaN]
  | inf n => cases n <;> simp [acc320, scaledInt, FVal.isNaN]
  | fin n m e => simp [FVal.isNaN]
theorem RedSlot.add_swap (x : RedSlot) (a b : Word) : (x.add a).add b = (x.add b).add a := by
  simp only [RedSlot.add_eq, RedSlot.mk.injEq, true_and]
  refine ⟨add_right_comm _ _ _, Bool.or_right_comm _ _ _, Bool.or_right_comm _ _ _, Bool.or_right_comm _ _ _, Bool.and_right_comm _ _ _, trivial⟩

/-! ### A slot that holds the word it was opened on (R182) -/

/-- The sign and the magnitude of a word. -/
theorem word_of_parts (w : Word) : BitVec.ofNat 32 (w.toNat % 2 ^ 31 + Fmt.signBit .fp32 w.msb) = w := by
  refine BitVec.eq_of_toNat_eq ?_
  have hs : Fmt.signBit .fp32 w.msb = if 2 ^ 31 ≤ w.toNat then 2 ^ 31 else 0 := by
    rw [msb_eq_le]
    unfold Fmt.signBit
    simp
    rfl
  rw [BitVec.toNat_ofNat, hs]
  split <;> omega
theorem acc320_eq_zero (w : Word) : acc320 (f32 w) = 0 ↔ scaledInt (-149) (f32 w) = 0 := by
  rw [← toInt_acc320, ← BitVec.toInt_inj]
  rfl
theorem load_round {w : Word} (h : (f32 w).isNaN = false) : ((default : RedSlot).load w).round = w := by
  cases hv : f32 w with
  | nan => rw [hv] at h; cases h
  | inf n =>
    have hw : w.toNat % 2 ^ 31 = 0x7F800000 ∧ w.msb = n := by
      rw [f32_eq] at hv
      split at hv
      · next hm => exact ⟨hm, FVal.inf.inj hv⟩
      · split at hv
        · cases hv
        · obtain ⟨m, e, hf⟩ := floatVal_fin .fp32 w.msb (w.toNat % 2 ^ 31)
          rw [hf] at hv
          cases hv
    refine Eq.trans ?_ (word_of_parts w)
    rw [hw.1, hw.2]
    unfold RedSlot.load
    rw [hv]
    cases n <;> rfl
  | fin neg m e =>
    obtain ⟨rfl, hc, hf⟩ := f32_fin hv
    have hload : (default : RedSlot).load w = { (default : RedSlot) with acc := acc320 (f32 w), nz := decide (w = 0x80000000) } := by
      unfold RedSlot.load
      rw [hv]
    obtain ⟨hmag, he, -, -⟩ := floatVal_codeMag hf
    have hnat := scaledInt_natAbs (-149) e w.msb m
    rw [← hv] at hnat
    refine Eq.trans ?_ (word_of_parts w)
    rw [hload]
    unfold RedSlot.round roundAcc
    congr 1
    rw [if_neg (by exact Bool.false_ne_true), if_neg (by exact Bool.false_ne_true), if_neg (by exact Bool.false_ne_true)]
    dsimp only
    by_cases h0 : scaledInt (-149) (f32 w) = 0
    · have hm : m = 0 := by
        rw [h0] at hnat
        rcases Nat.mul_eq_zero.mp hnat.symm with h1 | h1
        · exact h1
        · exact absurd h1 (Nat.two_pow_pos _).ne'
      have hmag0 : w.toNat % 2 ^ 31 = 0 := by
        rw [hm, Nat.cast_zero, zero_mul] at hmag
        by_contra hne
        have h1 := codeMag_strictMono .fp32 (Nat.pos_of_ne_zero hne)
        have h2 : codeMag .fp32 0 = 0 := by simp [codeMag, floatVal, Fmt.frac]
        linarith
      have hmsb : decide (w = 0x80000000) = w.msb := by
        rw [msb_eq_le]
        refine decide_eq_decide.mpr ⟨fun h => h ▸ by decide, fun h => BitVec.eq_of_toNat_eq ?_⟩
        have := w.isLt
        change w.toNat = 2147483648
        omega
      rw [if_pos ((acc320_eq_zero w).mpr h0), hmag0, hmsb, Nat.zero_add]
    · rw [if_neg (fun h => h0 ((acc320_eq_zero w).mp h)), toInt_acc320]
      have hneg : decide (scaledInt (-149) (f32 w) < 0) = w.msb := by
        rw [hv] at h0 ⊢
        exact scaledInt_neg h0
      have hpos : 0 < fracNum (scaledInt (-149) (f32 w)).natAbs (-149) := fracNum_pos _ (Int.natAbs_ne_zero.mpr h0)
      rw [hneg]
      refine roundFin_codeMag false rfl hpos (fracDen_pos _) (by simp) hc ?_
      have hd : (fracDen (-149) : ℚ) ≠ 0 := by exact_mod_cast (fracDen_pos _).ne'
      rw [frac_eq, mul_div_assoc, div_self hd, mul_one, hmag, hnat]
      have hp : (2 : ℚ) ^ e = (2 : ℚ) ^ (e - -149).toNat * (2 : ℚ) ^ (-149 : Int) := by
        rw [← zpow_natCast, ← zpow_add₀ (by norm_num)]
        congr 1
        have : (-149 : Int) ≤ e := he
        omega
      rw [hp]
      push_cast
      ring
/-- Settles O17 in part: R181, R182. -/
theorem slotsAreExact : Claims.SlotsAreExact := by
  refine ⟨RedSlot.add_swap, fun x hn hp hi ha => ?_, fun x h => ?_, toInt_acc320, fun w h => load_round h⟩
  · unfold RedSlot.round roundAcc
    rw [hn, hp, hi, if_neg (by simp), if_neg (by simp), if_neg (by simp), if_neg ha]
  · unfold RedSlot.round roundAcc
    rw [if_pos (by rcases h with h | ⟨h, h'⟩ <;> simp_all)]
    rfl

/-! ### Collective sums (R269, R270, R272) -/

/-- The greater of two signed numbers, as R269 folds it. -/
def sgnMax (a b : Word) : Word := if a.slt b then b else a
theorem sgnMax_right_comm (a b c : Word) : sgnMax (sgnMax a b) c = sgnMax (sgnMax a c) b := by
  refine BitVec.eq_of_toInt_eq ?_
  have h : ∀ x y : Word, (sgnMax x y).toInt = max x.toInt y.toInt := by
    intro x y
    unfold sgnMax
    rw [BitVec.slt_eq_decide]
    by_cases hxy : x.toInt < y.toInt
    · rw [if_pos (decide_eq_true hxy), max_eq_right hxy.le]
    · rw [if_neg (by simpa using hxy), max_eq_left (not_lt.mp hxy)]
  rw [h, h, h, h, max_right_comm]
theorem areaAcc_acc (x : RedSlot) : (areaAcc x.areaBytes).acc = x.acc := by
  unfold areaAcc RedSlot.areaBytes
  dsimp only
  have hl : (bytesOfNat 40 x.acc.toNat).length = 40 := length_bytesOfNat 40 _
  rw [List.take_append_of_le_length hl.ge, List.take_of_length_le hl.le, natOfBytes_bytesOfNat]
  refine BitVec.eq_of_toNat_eq ?_
  rw [BitVec.toNat_ofNat]
  have : x.acc.toNat < 256 ^ 40 := lt_of_lt_of_le x.acc.isLt (Nat.pow_mul 2 8 40).le
  rw [Nat.mod_eq_of_lt this, Nat.mod_eq_of_lt x.acc.isLt]
theorem areaAcc_flags (x : RedSlot) : (areaAcc x.areaBytes).nan = x.nan ∧ (areaAcc x.areaBytes).pinf = x.pinf
    ∧ (areaAcc x.areaBytes).ninf = x.ninf ∧ (areaAcc x.areaBytes).nz = x.nz := by
  unfold areaAcc RedSlot.areaBytes
  dsimp only
  have hl : (bytesOfNat 40 x.acc.toNat).length = 40 := length_bytesOfNat 40 _
  rw [List.drop_append_of_le_length hl.ge, List.drop_of_length_le hl.le, List.nil_append]
  cases x.nan <;> cases x.pinf <;> cases x.ninf <;> cases x.nz <;> decide
/-- Settles O17 in part: R269, R270, R272. -/
theorem collectiveSums : Claims.CollectiveSums := by
  refine ⟨fun ty turn turn' l l' hp => ?_, fun l l' hp => ?_, fun x => ⟨areaAcc_acc x, areaAcc_flags x⟩⟩
  · unfold collValue
    cases collFmt ty with
    | none => exact congrArg (· % 2 ^ 32) (hp.foldl_eq' (fun a _ b _ z => Nat.add_right_comm z a b) 0)
    | some F => exact congrArg (·.roundTo F) (hp.foldl_eq' (f := fun (z : RedSlot) v => z.add (widen F v)) (fun a _ b _ z => z.add_swap _ _) emptyAcc)
  · exact congrArg BitVec.toNat ((hp.map _).foldl_eq' (fun a _ b _ z => sgnMax_right_comm z a b) 0x80000000)

/-! ### Shards (R265) -/

/-- Steps that grow from 0 past g have one step on which g stands. -/
theorem exists_step {st : Nat → Nat} {p g : Nat} (h0 : st 0 ≤ g) (hp : g < st p) : ∃ a < p, st a ≤ g ∧ g < st (a + 1) := by
  induction p with
  | zero => omega
  | succ n ih =>
    by_cases h : g < st n
    · obtain ⟨a, ha, hs⟩ := ih h
      exact ⟨a, by omega, hs⟩
    · exact ⟨n, by omega, by omega, hp⟩
theorem step_unique {st : Nat → Nat} (hm : Monotone st) {a b g : Nat} (ha : st a ≤ g ∧ g < st (a + 1)) (hb : st b ≤ g ∧ g < st (b + 1)) : a = b := by
  rcases Nat.lt_trichotomy a b with h | h | h
  · have := hm (show a + 1 ≤ b from h)
    omega
  · exact h
  · have := hm (show b + 1 ≤ a from h)
    omega
/-- Where the block shard of coordinate a starts. -/
def blockStart (e p a : Nat) : Nat := a * (e / p) + min a (e % p)
theorem block_count (e b p a : Nat) : (DimView.mk e 1 b p a).count = blockStart e p (a + 1) - blockStart e p a ∧ blockStart e p a ≤ blockStart e p (a + 1) := by
  have hc : (DimView.mk e 1 b p a).count = if a < e % p then e / p + 1 else e / p := rfl
  rw [hc]
  unfold blockStart
  rw [Nat.succ_mul]
  generalize e / p = q, e % p = r, a * (e / p) = m
  split <;> omega
theorem blockStart_mono (e p : Nat) : Monotone (blockStart e p) := monotone_nat_of_le_succ fun a => (block_count e 0 p a).2
theorem blockStart_last {e p : Nat} (hp : 0 < p) : blockStart e p p = e := by
  have := Nat.mod_lt e hp
  rw [blockStart, Nat.min_eq_right (by omega), Nat.div_add_mod]
theorem block_find (e b p a g : Nat) : (DimView.mk e 1 b p a).find g
    = if blockStart e p a ≤ g ∧ g < blockStart e p (a + 1) then some (g - blockStart e p a) else none := by
  obtain ⟨h1, h2⟩ := block_count e b p a
  have : blockStart e p a + (DimView.mk e 1 b p a).count = blockStart e p (a + 1) := by omega
  rw [← this]
  rfl
theorem cyclic_find (e b p a g : Nat) : (DimView.mk e 2 b p a).find g = if g / b % p = a then some (g / b / p * b + g % b) else none := rfl
theorem cyclic_global (e b p a g : Nat) (hb : 0 < b) (ha : g / b % p = a) : (DimView.mk e 2 b p a).global (g / b / p * b + g % b) = g := by
  change ((g / b / p * b + g % b) / b * p + a) * b + (g / b / p * b + g % b) % b = g
  have hm := Nat.mod_lt g hb
  rw [Nat.mul_comm (g / b / p) b, Nat.mul_add_div hb, Nat.div_eq_of_lt hm, Nat.add_zero, Nat.mul_add_mod, Nat.mod_eq_of_lt hm, ← ha,
    Nat.mul_comm _ p, Nat.div_add_mod, Nat.mul_comm _ b, Nat.div_add_mod]
/-- The blocks below n that coordinate a holds are more than those before block t of it. -/
theorem blocks_held {n p t : Nat} (ht : t < n) : t / p < if t % p < n % p then n / p + 1 else n / p := by
  have h1 : t / p ≤ n / p := Nat.div_le_div_right ht.le
  have h2 := Nat.div_add_mod t p
  have h3 := Nat.div_add_mod n p
  split
  · omega
  · refine lt_of_le_of_ne h1 fun h => ?_
    rw [h] at h2
    omega
theorem cyclic_count {e b p g : Nat} (hb : 0 < b) (hg : g < e) :
    g / b / p * b + g % b < (DimView.mk e 2 b p (g / b % p)).count := by
  have hm := Nat.mod_lt g hb
  obtain ⟨n, hn⟩ : ∃ n, n = (e + b - 1) / b := ⟨_, rfl⟩
  have hnb : e ≤ n * b ∧ n * b < e + b := by
    have h1 := Nat.div_add_mod (e + b - 1) b
    have h2 := Nat.mod_lt (e + b - 1) hb
    rw [← hn, Nat.mul_comm] at h1
    omega
  have ht : g / b < n := Nat.div_lt_of_lt_mul (by rw [Nat.mul_comm]; omega)
  have hheld := blocks_held (p := p) ht
  have hc : (DimView.mk e 2 b p (g / b % p)).count = if (e + b - 1) / b ≠ 0 ∧ ((e + b - 1) / b - 1) % p = g / b % p then
      (if g / b % p < (e + b - 1) / b % p then (e + b - 1) / b / p + 1 else (e + b - 1) / b / p) * b - ((e + b - 1) / b * b - e)
      else (if g / b % p < (e + b - 1) / b % p then (e + b - 1) / b / p + 1 else (e + b - 1) / b / p) * b := rfl
  rw [hc, ← hn]
  obtain ⟨k, hk⟩ : ∃ k, k = if g / b % p < n % p then n / p + 1 else n / p := ⟨_, rfl⟩
  rw [← hk] at hheld ⊢
  have hkb : g / b / p * b + b ≤ k * b := by
    rw [← Nat.succ_mul]
    exact Nat.mul_le_mul_right b hheld
  split
  · next hlast =>
    obtain ⟨-, hres⟩ := hlast
    have hgd := Nat.div_add_mod g b
    by_cases hl : g / b = n - 1
    · have h1 : b * (g / b) + b = n * b := by
        rw [hl, Nat.mul_comm, ← Nat.succ_mul, Nat.succ_eq_add_one, Nat.sub_add_cancel (by omega)]
      omega
    · have h1 := blocks_held (p := p) (Nat.sub_one_lt_of_lt ht)
      rw [hres, ← hk] at h1
      have h2 : g / b / p < (n - 1) / p := by
        refine lt_of_le_of_ne (Nat.div_le_div_right (by omega)) fun h => hl ?_
        rw [← Nat.div_add_mod (g / b) p, ← Nat.div_add_mod (n - 1) p, h, hres]
      have h3 : g / b / p * b + 2 * b ≤ k * b := by
        rw [← Nat.add_mul]
        refine Nat.mul_le_mul_right b ?_
        generalize g / b / p = x, (n - 1) / p = y at h1 h2
        omega
      omega
  · omega
/-- Settles O17 in part: R265. -/
theorem shardsPartition : Claims.ShardsPartition := by
  intro e kind b p hp hb hk g hg
  simp only [List.mem_cons, List.not_mem_nil, or_false] at hk
  rcases hk with rfl | rfl
  · obtain ⟨a, ha, hs⟩ := exists_step (st := blockStart e p) (g := g) (p := p) (by simp [blockStart]) (by rwa [blockStart_last hp])
    obtain ⟨hc, hle⟩ := block_count e b p a
    refine ⟨a, ha, g - blockStart e p a, by rw [block_find, if_pos hs], by omega, Nat.add_sub_of_le hs.1, fun a' _ j' hj' => ?_⟩
    rw [block_find] at hj'
    split at hj'
    · next hs' =>
      obtain rfl := step_unique (blockStart_mono e p) hs' hs
      exact ⟨rfl, (Option.some.inj hj').symm⟩
    · cases hj'
  · refine ⟨g / b % p, Nat.mod_lt _ hp, _, by rw [cyclic_find, if_pos rfl], cyclic_count hb hg, cyclic_global e b p _ g hb rfl, fun a' _ j' hj' => ?_⟩
    rw [cyclic_find] at hj'
    split at hj'
    · next ha => exact ⟨ha.symm, (Option.some.inj hj').symm⟩
    · cases hj'

/-- Settles O17: reduction slots and collective sums are exact, and shards partition their extent. -/
theorem exactSums : Obligations.ExactSums := ⟨slotsAreExact, collectiveSums, shardsPartition⟩

end Sys2Proof.Machine
end

section
/-! SUPPORT. Scale registers and tags (R63 to R69): what each reads after an update, and the effect of the
instructions that change them. -/

namespace Sys2Proof.Machine

/-! ### Runs of a finite map -/

theorem Sparse.get_setRun {α : Type} [DecidableEq α] (d : α) : ∀ (l : List α) (m : Sparse α) (b k : Nat),
    Sparse.get d (Sparse.setRun d m b l) k = if b ≤ k ∧ k < b + l.length then l.getD (k - b) d else Sparse.get d m k
  | [], m, b, k => by rw [if_neg (by simp only [List.length_nil]; omega)]; rfl
  | v :: r, m, b, k => by
    rw [Sparse.setRun, Sparse.get_setRun d r, Sparse.get_set]
    rcases Nat.lt_trichotomy k b with h | rfl | h
    · rw [if_neg (by omega), if_neg (by omega), if_neg (by omega)]
    · rw [if_neg (by omega), if_pos rfl, if_pos (by simp), Nat.sub_self]
      rfl
    · obtain ⟨j, rfl⟩ : ∃ j, k = b + 1 + j := ⟨k - (b + 1), by omega⟩
      have e1 : b + 1 + j - (b + 1) = j := by omega
      have e2 : b + 1 + j - b = j + 1 := by omega
      rw [e1, e2, List.getD_cons_succ, if_neg (show ¬ b + 1 + j = b by omega), List.length_cons]
      by_cases hl : j < r.length
      · rw [if_pos (by omega), if_pos (by omega)]
      · rw [if_neg (by omega), if_neg (by omega)]

/-! ### Control words and payload bytes -/

theorem Ctx.sctl_setCtl (c : Ctx) (n x : Nat) (band : Bool) (m : Nat) :
    (c.setCtl n x band).sGen m = (if m = n then x % 16 else c.sGen m) ∧ (c.setCtl n x band).sBand m = if m = n then band else c.sBand m := by
  unfold Ctx.setCtl Ctx.sGen Ctx.sBand
  rw [Sparse.get_set]
  by_cases h : m = n
  · rw [if_pos h, if_pos h, if_pos h]
    cases band
    · simp
      omega
    · simp
      omega
  · rw [if_neg h, if_neg h, if_neg h]
    exact ⟨rfl, rfl⟩
theorem Ctx.sByte_setSByte (c : Ctx) (n k x m j : Nat) (hk : k < 32) (hj : j < 32) :
    (c.setSByte n k x).sByte m j = if m = n ∧ j = k then x % 256 else c.sByte m j := by
  unfold Ctx.setSByte Ctx.sByte
  rw [Sparse.get_set]
  by_cases h : m = n ∧ j = k
  · rw [if_pos (by omega), if_pos h, BitVec.toNat_ofNat]
  · rw [if_neg (by omega), if_neg h]
theorem Ctx.sByte_setGen (c : Ctx) (r x : Nat) (band : Bool) (m j : Nat) : (c.setGen r x band).sByte m j = c.sByte m j := rfl
theorem Ctx.sGen_setGen (c : Ctx) (r x : Nat) (band : Bool) (m : Nat) : (c.setGen r x band).sGen m = if m = r then x % 16 else c.sGen m :=
  (c.sctl_setCtl r x band m).1
theorem Ctx.sBand_setGen (c : Ctx) (r x : Nat) (band : Bool) (m : Nat) : (c.setGen r x band).sBand m = if m = r then band else c.sBand m :=
  (c.sctl_setCtl r x band m).2

/-! ### Tags -/

theorem tagGen_lt (t : BitVec 16) : tagGen t < 16 := Nat.mod_lt _ (by decide)
theorem and_7FFF_toNat (t : BitVec 16) : (t &&& 0x7FFF).toNat = t.toNat % 2 ^ 15 := by
  rw [BitVec.toNat_and]
  exact Nat.and_two_pow_sub_one_eq_mod t.toNat 15
theorem tagIndex_unbound (t : BitVec 16) : tagIndex (t &&& 0x7FFF) = tagIndex t := by
  unfold tagIndex
  rw [and_7FFF_toNat]
  omega
theorem tagGen_unbound (t : BitVec 16) : tagGen (t &&& 0x7FFF) = tagGen t := by
  unfold tagGen
  rw [and_7FFF_toNat]
  omega
theorem tagLog_unbound (t : BitVec 16) : tagLog (t &&& 0x7FFF) = tagLog t := by
  unfold tagLog
  rw [and_7FFF_toNat]
  omega
theorem unbound_unbound (t : BitVec 16) : t &&& 0x7FFF &&& 0x7FFF = t &&& 0x7FFF := by
  rw [BitVec.and_assoc]
  rfl
theorem mkTag_toNat {index gen log : Nat} {mode : Bool} (hi : index < 64) (hl : log < 8) :
    (mkTag index gen mode log).toNat = gen % 16 + index * 16 + (if mode then 2048 else 0) + log * 4096 + 32768 := by
  unfold mkTag
  rw [BitVec.toNat_ofNat]
  cases mode <;> simp <;> omega
/-- A bound tag has the fields that it is made of. -/
theorem mkTag_fields {index gen log : Nat} {mode : Bool} (hi : index < 64) (hl : log < 8) :
    tagIndex (mkTag index gen mode log) = index ∧ tagGen (mkTag index gen mode log) = gen % 16 ∧ tagLog (mkTag index gen mode log) = log
      ∧ tagMode (mkTag index gen mode log) = mode ∧ tagBound (mkTag index gen mode log) = true := by
  have h := mkTag_toNat (gen := gen) (mode := mode) hi hl
  unfold tagIndex tagGen tagLog tagMode tagBound
  rw [BitVec.getLsbD, BitVec.getLsbD, h, Nat.testBit_eq_decide_div_mod_eq, Nat.testBit_eq_decide_div_mod_eq]
  cases mode
  · refine ⟨?_, ?_, ?_, ?_, ?_⟩ <;> simp <;> omega
  · refine ⟨?_, ?_, ?_, ?_, ?_⟩ <;> simp <;> omega

/-- A tag names s_r with a GEN. -/
abbrev Names (tile : Bool) (r x : Nat) (t : BitVec 16) : Prop :=
  tagIndex t ≤ r ∧ r < tagIndex t + (if tile then 2 ^ tagLog t else 1) ∧ tagGen t = x
theorem Names.unbound {tile : Bool} {r x : Nat} {t : BitVec 16} : Names tile r x (t &&& 0x7FFF) ↔ Names tile r x t := by
  unfold Names
  rw [tagIndex_unbound, tagGen_unbound, tagLog_unbound]
/-- Every key of a map stands in it once, or with one value. -/
def OneValue (m : Sparse (BitVec 16)) : Prop := ∀ e ∈ m, Sparse.find m e.1 = some e.2
theorem OneValue.unique {m : Sparse (BitVec 16)} (h : OneValue m) {e e' : Nat × BitVec 16} (he : e ∈ m) (he' : e' ∈ m) (hk : e.1 = e'.1) : e = e' := by
  have h1 := h e he
  rw [hk, h e' he'] at h1
  exact Prod.ext hk (Option.some.inj h1).symm
/-- What a tag becomes where the GEN of s_r does (R67). -/
def staleTag (tile : Bool) (r x : Nat) (t : BitVec 16) : BitVec 16 := if Names tile r x t then t &&& 0x7FFF else t
theorem clearStale_eq (m : Sparse (BitVec 16)) (tile : Bool) (r x : Nat) :
    clearStale m tile r x = (m.map (fun e => (e.1, staleTag tile r x e.2))).filter (fun e => decide (e.2 ≠ 0)) := by
  refine congrArg (List.filter _) (List.map_congr_left fun e _ => ?_)
  unfold staleTag Names
  exact (apply_ite (Prod.mk e.1) _ _ _).symm
theorem find_map_value (f : BitVec 16 → BitVec 16) (m : Sparse (BitVec 16)) (k : Nat) :
    Sparse.find (m.map (fun e => (e.1, f e.2))) k = (Sparse.find m k).map f := by
  induction m with
  | nil => rfl
  | cons e r ih =>
    rw [List.map_cons, Sparse.find, Sparse.find]
    split
    · rfl
    · exact ih
theorem OneValue.map {m : Sparse (BitVec 16)} (h : OneValue m) (f : BitVec 16 → BitVec 16) : OneValue (m.map (fun e => (e.1, f e.2))) := by
  intro e he
  obtain ⟨e0, he0, rfl⟩ := List.mem_map.mp he
  rw [find_map_value, h e0 he0]
  rfl
theorem find_filter_value {m : Sparse (BitVec 16)} (h : OneValue m) (k : Nat) :
    Sparse.find (m.filter (fun e => decide (e.2 ≠ 0))) k = (Sparse.find m k).filter (fun v => decide (v ≠ 0)) := by
  have hsub : ∀ {v}, Sparse.find (m.filter (fun e => decide (e.2 ≠ 0))) k = some v → Sparse.find m k = some v ∧ v ≠ 0 := by
    intro v hv
    obtain ⟨hm, hp⟩ := List.mem_filter.mp (Sparse.mem_of_find_some hv)
    exact ⟨h _ hm, by simpa using hp⟩
  cases hv : Sparse.find (m.filter (fun e => decide (e.2 ≠ 0))) k with
  | some v =>
    obtain ⟨h1, h2⟩ := hsub hv
    rw [h1, Option.filter_some, if_pos (by simpa using h2)]
  | none =>
    cases hw : Sparse.find m k with
    | none => rfl
    | some w =>
      rw [Option.filter_some]
      by_cases h0 : w = 0
      · rw [if_neg (by simpa using h0)]
      · have hmem : (k, w) ∈ m.filter (fun e => decide (e.2 ≠ 0)) := List.mem_filter.mpr ⟨Sparse.mem_of_find_some hw, by simpa using h0⟩
        have := Sparse.find_isSome_of_mem hmem
        rw [hv] at this
        cases this
theorem OneValue.filter {m : Sparse (BitVec 16)} (h : OneValue m) : OneValue (m.filter (fun e => decide (e.2 ≠ 0))) := by
  intro e he
  obtain ⟨hm, hp⟩ := List.mem_filter.mp he
  rw [find_filter_value h, h e hm, Option.filter_some, if_pos hp]
theorem OneValue.clearStale {m : Sparse (BitVec 16)} (h : OneValue m) (tile : Bool) (r x : Nat) : OneValue (clearStale m tile r x) := by
  rw [clearStale_eq]
  exact (h.map _).filter
/-- R67: each tag after the GEN of s_r has become x. -/
theorem get_clearStale {m : Sparse (BitVec 16)} (h : OneValue m) (tile : Bool) (r x k : Nat) :
    Sparse.get 0 (clearStale m tile r x) k = staleTag tile r x (Sparse.get 0 m k) := by
  have hz : staleTag tile r x 0 = 0 := by
    unfold staleTag
    split <;> rfl
  rw [clearStale_eq]
  unfold Sparse.get
  rw [find_filter_value (h.map _), find_map_value]
  cases Sparse.find m k with
  | none => exact hz.symm
  | some v =>
    rw [Option.map_some, Option.filter_some]
    by_cases h0 : staleTag tile r x v = 0
    · rw [if_neg (by simpa using h0)]
      exact h0.symm
    · rw [if_pos (by simpa using h0)]
      rfl

/-! ### Instructions that change scales, tags and flags -/

/-- x differs from c in scale registers, tags and flags at most. -/
def ScaleEdit (c x : Ctx) : Prop :=
  x = { c with scales := x.scales, sctl := x.sctl, vtags := x.vtags, ttags := x.ttags, fpflags := x.fpflags }
theorem ScaleEdit.refl (c : Ctx) : ScaleEdit c c := rfl
theorem ScaleEdit.trans {a b c : Ctx} (h : ScaleEdit a b) (h' : ScaleEdit b c) : ScaleEdit a c := by
  unfold ScaleEdit at h h' ⊢
  rw [h] at h'
  exact h'
theorem ScaleEdit.foldl {α : Type} (f : Ctx → α → Ctx) (h : ∀ c x, ScaleEdit c (f c x)) (l : List α) (c : Ctx) : ScaleEdit c (l.foldl f c) :=
  foldl_induct (fun x => ScaleEdit c x) f (fun _ _ hx => hx.trans (h _ _)) l c (.refl c)
theorem ScaleEdit.setGen (c : Ctx) (r x : Nat) (band : Bool) : ScaleEdit c (c.setGen r x band) := rfl
theorem ScaleEdit.setSByte (c : Ctx) (n k x : Nat) : ScaleEdit c (c.setSByte n k x) := rfl
theorem ScaleEdit.setFlags (c : Ctx) (f : BitVec 6) : ScaleEdit c (c.setFlags f) := rfl
theorem ScaleEdit.lane {c x : Ctx} (h : ScaleEdit c x) (l : Nat) : x.lane l = c.lane l := by
  unfold ScaleEdit at h
  rw [h]
  rfl
theorem begun_scales (c : Ctx) (i : Instr) (act : List Nat) : (c.begun i act).scales = c.scales ∧ (c.begun i act).sctl = c.sctl ∧ (c.begun i act).ttags = c.ttags := by
  rw [begun_only]
  exact ⟨rfl, rfl, rfl⟩
theorem depart_scales (s : State) (i : Instr) (coh : List Nat) (c : Ctx) :
    (s.depart i coh c).scales = c.scales ∧ (s.depart i coh c).sctl = c.sctl ∧ (s.depart i coh c).ttags = c.ttags := by
  rw [depart_only]
  exact ⟨rfl, rfl, rfl⟩
theorem ScaleEdit.onlyScales {c x : Ctx} {i : Instr} {act : List Nat} (h : ScaleEdit (c.begun i act) x) (s : State) (coh : List Nat) :
    OnlyScales c (s.depart i coh x) := by
  unfold ScaleEdit at h
  unfold OnlyScales
  rw [h, begun_only, depart_only]
theorem ScaleEdit.moved {c x : Ctx} {i : Instr} {act : List Nat} (h : ScaleEdit (c.begun i act) x) (s : State) :
    Moved c (s.depart i (s.cohort c) x) (s.cohort c) c.preds := by
  intro l
  rw [depart_lane _ _ _ (cohort_nodup s c), h.lane, begun_lane]
  split <;> rfl

/-! ### Orders of the scoreboard (R69) -/

theorem ordered_free {s : State} {c : Ctx} {rs : List RegName} (h : c.Unheld rs) (go : Eff) : ordered s c rs go = go := by
  have : c.rq.filter (fun e => rs.any (fun r => e.holds.contains r)) = [] := by
    refine List.filter_eq_nil_iff.mpr fun e he => ?_
    simp only [List.any_eq_true, List.contains_iff_mem, not_exists, not_and]
    exact fun r hr => h e he r hr
  unfold ordered
  rw [this]
  rfl
theorem begun_unheld {c : Ctx} {rs : List RegName} (h : c.Unheld rs) (i : Instr) (act : List Nat) : (c.begun i act).Unheld rs := by
  rw [begun_only]
  exact h
theorem begun_kindUnit (c : Ctx) (i : Instr) (act : List Nat) : (c.begun i act).kind = c.kind ∧ (c.begun i act).unit = c.unit := by
  rw [begun_only]
  exact ⟨rfl, rfl⟩
theorem hinted_fmtOf (s : State) (i : Instr) (c : Ctx) (act : List Nat) : (s.hinted i act).fmtOf (c.begun i act) = s.fmtOf c := by
  unfold State.fmtOf
  rw [hinted_gridOf, begun_kind]
theorem hinted_badRun (s : State) (i : Instr) (c : Ctx) (act : List Nat) (b n : Nat) : (s.hinted i act).badRun (c.begun i act) b n = s.badRun c b n := by
  unfold State.badRun State.limit
  rw [hinted_gridOf, begun_kind]

end Sys2Proof.Machine
end

section
/-! SUPPORT. Conversions of packed elements (R122, R124, R140 to R143). -/

namespace Sys2Proof.Machine

/-! ### Elements of a register (R140) -/

theorem elemOf_testBit (x : Word) (w j i : Nat) : (elemOf x w j).testBit i = (decide (i < w) && x.toNat.testBit (w * j + i)) := by
  unfold elemOf
  rw [Nat.testBit_mod_two_pow, Nat.testBit_div_two_pow, Nat.add_comm]
/-- A register with an element replaced, as a number. -/
theorem setElem_toNat (x : Word) {w k : Nat} (v : Nat) (h : w * k + w ≤ 32) :
    (setElem x w k v).toNat = 2 ^ (w * k) * (2 ^ w * (x.toNat / 2 ^ (w * k + w)) + v % 2 ^ w) + x.toNat % 2 ^ (w * k) := by
  obtain ⟨lo, hlo⟩ : ∃ lo, lo = x.toNat % 2 ^ (w * k) := ⟨_, rfl⟩
  obtain ⟨e, he⟩ : ∃ e, e = elemOf x w k := ⟨_, rfl⟩
  obtain ⟨hi, hhi⟩ : ∃ hi, hi = x.toNat / 2 ^ (w * k + w) := ⟨_, rfl⟩
  have h1 : x.toNat = 2 ^ (w * k) * (2 ^ w * hi + e) + lo := by
    rw [hlo, he, hhi, elemOf, Nat.pow_add, ← Nat.div_div_eq_div_mul, Nat.div_add_mod, Nat.div_add_mod]
  have hlt : 2 ^ (w * k) * (2 ^ w * hi + v % 2 ^ w) + lo < 2 ^ 32 := by
    have hl : lo < 2 ^ (w * k) := hlo ▸ Nat.mod_lt _ (Nat.two_pow_pos _)
    have hv : v % 2 ^ w < 2 ^ w := Nat.mod_lt _ (Nat.two_pow_pos _)
    have hh : hi < 2 ^ (32 - (w * k + w)) := by
      rw [hhi, Nat.div_lt_iff_lt_mul (Nat.two_pow_pos _), ← Nat.pow_add, Nat.sub_add_cancel h]
      exact x.isLt
    calc 2 ^ (w * k) * (2 ^ w * hi + v % 2 ^ w) + lo < 2 ^ (w * k) * (2 ^ w * hi + v % 2 ^ w + 1) := by rw [Nat.mul_succ]; omega
      _ ≤ 2 ^ (w * k) * (2 ^ w * (hi + 1)) := Nat.mul_le_mul_left _ (by rw [Nat.mul_succ]; omega)
      _ ≤ 2 ^ (w * k) * (2 ^ w * 2 ^ (32 - (w * k + w))) := Nat.mul_le_mul_left _ (Nat.mul_le_mul_left _ hh)
      _ = 2 ^ 32 := by
        rw [← Nat.pow_add, ← Nat.pow_add]
        congr 1
        omega
  unfold setElem
  rw [BitVec.toNat_ofNat, ← hlo, ← he, ← hhi, ← Nat.mod_eq_of_lt hlt]
  congr 1
  rw [h1, Nat.mul_add, Nat.mul_add, Nat.mul_comm e, Nat.mul_comm (v % 2 ^ w)]
  omega
theorem setElem_testBit (x : Word) {w k : Nat} (v : Nat) (h : w * k + w ≤ 32) (n : Nat) :
    (setElem x w k v).toNat.testBit n = if w * k ≤ n ∧ n < w * k + w then v.testBit (n - w * k) else x.toNat.testBit n := by
  rw [setElem_toNat x v h, Nat.testBit_two_pow_mul_add _ (Nat.mod_lt _ (Nat.two_pow_pos _))]
  rcases Nat.lt_or_ge n (w * k) with h1 | h1
  · rw [if_pos h1, if_neg (by omega), Nat.testBit_mod_two_pow, decide_eq_true h1, Bool.true_and]
  · rw [if_neg (by omega), Nat.testBit_two_pow_mul_add _ (Nat.mod_lt _ (Nat.two_pow_pos _))]
    rcases Nat.lt_or_ge (n - w * k) w with h2 | h2
    · rw [if_pos h2, if_pos (by omega), Nat.testBit_mod_two_pow, decide_eq_true h2, Bool.true_and]
    · rw [if_neg (by omega), if_neg (by omega), Nat.testBit_div_two_pow]
      congr 1
      omega
/-- Settles O4 in part: R140. -/
theorem elementsAreApart : Claims.ElementsAreApart := by
  intro x w k j v hw hk hj
  have hfit : ∀ n, n < 32 / w → w * n + w ≤ 32 := by
    intro n hn
    have hpos : 0 < w := by
      simp only [List.mem_cons, List.not_mem_nil, or_false] at hw
      omega
    calc w * n + w = w * (n + 1) := (Nat.mul_succ w n).symm
      _ ≤ w * (32 / w) := Nat.mul_le_mul_left w hn
      _ ≤ 32 := Nat.mul_div_le 32 w
  refine Nat.eq_of_testBit_eq fun i => ?_
  rw [elemOf_testBit, setElem_testBit x v (hfit k hk)]
  rcases Nat.lt_or_ge i w with hi | hi
  · by_cases h : j = k
    · rw [if_pos h, h, if_pos (by omega), Nat.testBit_mod_two_pow, Nat.add_sub_cancel_left]
    · have hne : ¬ (w * k ≤ w * j + i ∧ w * j + i < w * k + w) := by
        rcases Nat.lt_or_gt_of_ne h with hl | hl
        · have := Nat.mul_le_mul_left w (show j + 1 ≤ k from hl)
          rw [Nat.mul_succ] at this
          omega
        · have := Nat.mul_le_mul_left w (show k + 1 ≤ j from hl)
          rw [Nat.mul_succ] at this
          omega
      rw [if_neg h, if_neg hne, elemOf_testBit]
  · have h1 : ∀ y : Nat, (y % 2 ^ w).testBit i = false := fun y => by rw [Nat.testBit_mod_two_pow, decide_eq_false (by omega), Bool.false_and]
    rw [decide_eq_false (by omega), Bool.false_and]
    split
    · exact (h1 v).symm
    · exact (h1 _).symm

/-! ### Lanes that write a register and a residue -/

/-- What an instruction does to the registers that each acting lane writes: v_d, and what else keeps the vector registers. -/
structure LaneWrites (d : Nat) (val : Nat → Word) (fl : Nat → BitVec 6) (f : Ctx → Nat → Ctx) : Prop where
  regs : ∀ c l, RegsOf c (f c l)
  lanes : ∀ c l, (f c l).lanes = c.lanes
  g : ∀ c l, (f c l).g = c.g
  v : ∀ c l, (f c l).v = Sparse.set 0 c.v (32 * d + l) (val l)
  vtags : ∀ c l, (f c l).vtags = clearBound c.vtags d
  flags : ∀ c l, (f c l).fpflags = c.fpflags ||| fl l
namespace LaneWrites
variable {s : State} {i : Instr} {c : Ctx} {act : List Nat} {d : Nat} {val : Nat → Word} {fl : Nat → BitVec 6} {f : Ctx → Nat → Ctx}
/-- The context that the lanes leave. -/
abbrev result (s : State) (i : Instr) (c : Ctx) (act : List Nat) (f : Ctx → Nat → Ctx) : Ctx :=
  s.depart i (s.cohort c) (act.foldl f (c.begun i act))
theorem onlyRegs (h : LaneWrites d val fl f) : OnlyRegs c (result s i c act f) :=
  RegsOf.depart _ _ _ _ _ ((RegsOf.begun c i act).trans (.foldl f h.regs _ _))
theorem rdV_step (h : LaneWrites d val fl f) (c : Ctx) (l : Nat) (hl : l < 32) (n k : Nat) (hk : k < 32) :
    (f c l).rdV n k = if n ∈ [d] ∧ k = l then val l else c.rdV n k := by
  have := Ctx.rdV_wrV c d l (val l) n k hl hk
  simp only [List.mem_singleton]
  rw [← this]
  unfold Ctx.rdV
  rw [h.v]
  rfl
theorem rdV (h : LaneWrites d val fl f) (hi : Issues s i c act) (n l : Nat) (hl : l < 32) :
    (result s i c act f).rdV n l = if n ∈ [d] ∧ l ∈ act then val l else c.rdV n l := by
  have h0 : (result s i c act f).rdV n l = (act.foldl f (c.begun i act)).rdV n l := by
    unfold Ctx.rdV
    rw [depart_v]
  rw [h0, foldl_rdV act (fun l hl => hi.lt hl) _ f [d] (fun l _ => val l) (fun c l hl n k hk => h.rdV_step c l hl n k hk) n l hl, begun_rdV]
theorem keepsV (h : LaneWrites d val fl f) (hi : Issues s i c act) : KeepsV c (result s i c act f) act [d] := by
  refine ⟨fun n l hl hn => by rw [h.rdV hi n l hl, if_neg hn], fun n => ?_⟩
  rw [depart_vtags, foldl_vtags act hi.some _ f [d] (fun c l n => ?_), begun_vtags]
  rw [h.vtags]
  simp only [List.mem_singleton]
  exact Ctx.vtag_wrV c d l 0 n
theorem flags_eq (h : LaneWrites d val fl f) : (result s i c act f).fpflags = raised c act fl := by
  rw [depart_flags]
  have : ∀ (ls : List Nat) (x : Ctx), (ls.foldl f x).fpflags = raised x ls fl := by
    intro ls
    induction ls with
    | nil => intro x; rfl
    | cons l r ih =>
      intro x
      rw [List.foldl_cons, ih, raised, raised, h.flags]
      rfl
  rw [this, raised, raised, begun_flags]
theorem g_eq (h : LaneWrites d val fl f) : (result s i c act f).g = c.g := by
  rw [depart_g, foldl_keeps Ctx.g f h.g, begun_g]
theorem moved (h : LaneWrites d val fl f) : Moved c (result s i c act f) (s.cohort c) c.preds := by
  intro l
  have hl : ∀ x : Ctx, x.lane l = (Sparse.find x.lanes l).getD {} := fun _ => rfl
  rw [depart_lane _ _ _ (cohort_nodup s c), hl, foldl_keeps Ctx.lanes f h.lanes, ← hl, begun_lane]
  split <;> rfl
theorem wroteV (h : LaneWrites d val fl f) (hi : Issues s i c act) (he : ∀ c l, (f c l).e = c.e) (hc : Completes i s (result s i c act f)) :
    WroteV i s c act [d] (fun l _ => val l) fl := by
  refine ⟨_, hc, h.onlyRegs, fun l hl n hn => by rw [h.rdV hi n l (hi.lt hl), if_pos ⟨hn, hl⟩], h.keepsV hi, h.flags_eq, h.g_eq, ?_, h.moved⟩
  rw [depart_e, foldl_keeps Ctx.e f he, begun_e]
end LaneWrites
theorem laneWrites_wrV (d : Nat) (val : Nat → Word) (fl : Nat → BitVec 6) : LaneWrites d val fl (fun c l => (c.wrV d l (val l)).setFlags (fl l)) :=
  ⟨fun _ _ => (RegsOf.wrV _ _ _ _).trans (.setFlags _ _), fun _ _ => rfl, fun _ _ => rfl, fun _ _ => rfl, fun _ _ => rfl, fun _ _ => rfl⟩
theorem laneWrites_wrVE (d k : Nat) (val res : Nat → Word) (fl : Nat → BitVec 6) :
    LaneWrites d val fl (fun c l => ((c.wrV d l (val l)).wrE k l (res l)).setFlags (fl l)) :=
  ⟨fun _ _ => ((RegsOf.wrV _ _ _ _).trans (.wrE _ _ _ _)).trans (.setFlags _ _), fun _ _ => rfl, fun _ _ => rfl, fun _ _ => rfl, fun _ _ => rfl, fun _ _ => rfl⟩

/-! ### Conversions under a slot (R141, R142) -/

theorem begun_vCurrent (c : Ctx) (i : Instr) (act : List Nat) (n : Nat) : (c.begun i act).vCurrent n = c.vCurrent n ∧ (c.begun i act).vtag n = c.vtag n := by
  rw [begun_only]
  exact ⟨rfl, rfl⟩
theorem begun_vScale (c : Ctx) (i : Instr) (act : List Nat) (n l : Nat) : (c.begun i act).vScale n l = c.vScale n l := by
  rw [begun_only]
  rfl
theorem begun_scaleStands {c : Ctx} {r : Nat} (h : c.ScaleStands r) (i : Instr) (act : List Nat) : (c.begun i act).ScaleStands r := by
  rw [begun_only]
  exact h
/-- A conversion whose tag is current, or whose slot has no scale, waits for nothing. -/
theorem boundRegs_unheld {c : Ctx} {sl : Slot} {r : Nat} (h : sl.scale = 0 ∨ c.ScaleStands r) : c.Unheld (c.boundRegs sl r) := by
  unfold Ctx.boundRegs
  split
  · next hb =>
    rcases h with h | h
    · exact absurd h hb.1
    · exact h hb.2
  · exact fun _ _ _ h => absurd h (by simp)
section
variable {s : State} {i : Instr} {c : Ctx} {act : List Nat} {f r : Nat} {body : Slot → Ctx → Nat → Ctx → Ctx}
theorem convLanes_completes (h : Issues s i c act) (he : exec i s = convLanes i f r s body)
    (hr : (slotOf (s.fmtOf c) f).scale = 0 ∨ c.ScaleReady r) :
    Completes i s (LaneWrites.result s i c act (fun c' l => body (slotOf (s.fmtOf c) f) (c.begun i act) l c')) := by
  refine completes_of_gate h _ he (fun c' => act.foldl (fun c' l => body (slotOf (s.fmtOf c) f) (c.begun i act) l c') c') ?_
  dsimp only
  rw [hinted_fmtOf, State.hinted_cur, ordered_free (boundRegs_unheld (hr.imp id fun hr => begun_scaleStands hr.2 i act)), if_neg]
  rw [(begun_vCurrent c i act r).1]
  rcases hr with hr | hr
  · simp [hr]
  · simp [hr.1]
theorem convLanes_stale (h : Issues s i c act) (he : exec i s = convLanes i f r s body) (hk : c.kind ≠ .handler)
    (hs : (slotOf (s.fmtOf c) f).scale ≠ 0) (hst : c.ScaleStands r) (hcur : c.vCurrent r = false) : Traps i s 0x0A act 0 := by
  unfold Traps
  rw [he]
  refine gate_trap h hk _ ?_
  dsimp only
  rw [hinted_fmtOf, ordered_free (boundRegs_unheld (.inr (begun_scaleStands hst i act))), if_pos]
  rw [(begun_vCurrent c i act r).1]
  simp [hs, hcur]
end
/-- Settles O4 in part: R68, R141. -/
theorem staleTagsTrap : Claims.StaleTagsTrap := by
  intro g d a f k s c act hk
  exact ⟨fun h => convLanes_stale h (exec_cvt_eq g d a f k s) hk, fun h => convLanes_stale h (exec_cvtef_eq g d a f k s) hk,
    fun h => convLanes_stale h (exec_dqntv_eq g d a f k s) hk⟩

theorem laneWrites_wrV_only (d : Nat) (val : Nat → Word) : LaneWrites d val (fun _ => 0) (fun c l => c.wrV d l (val l)) :=
  ⟨fun _ _ => RegsOf.wrV _ _ _ _, fun _ _ => rfl, fun _ _ => rfl, fun _ _ => rfl, fun _ _ => rfl, fun _ _ => (BitVec.or_zero).symm⟩
theorem elemOf_zero (x : Word) (w : Nat) : elemOf x w 0 = x.toNat % 2 ^ w := by rw [elemOf, Nat.mul_zero, Nat.pow_zero, Nat.div_one]
theorem toInt_neg_msb (x : Word) : decide (x.toInt < 0) = x.msb := (BitVec.msb_eq_toInt).symm
theorem slot_elem_lt (fs : DWord) (f : Nat) : (slotOf fs f).elem < 8 := by
  have h := bits_lt fs (8 * f + 7) (8 * f)
  rw [Nat.add_assoc, Nat.add_sub_cancel_left] at h
  change bits fs (8 * f + 7) (8 * f) / 32 < 8
  omega
/-- The integer formats are the last two. -/
theorem slot_integer {sl : Slot} (h : sl.elem < 8) : sl.elem < 6 ↔ ¬ (sl.fmt = .int8 ∨ sl.fmt = .int4) := by
  obtain ⟨e, sc, r, st⟩ := sl
  change e < 8 at h
  change e < 6 ↔ _
  unfold Slot.fmt
  interval_cases e <;> simp
/-- One register and the flags, as equal values. -/
theorem WroteV.of_eq {i : Instr} {s : State} {c : Ctx} {act ds : List Nat} {val val' : Nat → Word × BitVec 6}
    (h : WroteV i s c act ds (fun l _ => (val l).1) (fun l => (val l).2)) (e : ∀ l, val l = val' l) :
    WroteV i s c act ds (fun l _ => (val' l).1) (fun l => (val' l).2) := by
  obtain rfl : val = val' := funext e
  exact h
/-- Settles O4 in part: R122, R140 to R142. -/
theorem conversions : Claims.Conversions := by
  refine ⟨fun g d a f k s c act h hr => ?_, fun g d a f k s c act h hr => ?_, fun g d a f k s c act h _ => ?_,
    fun g d a f k s c act h _ => ?_, fun g d a f k s c act h _ => ?_⟩
  · have hc := convLanes_completes h (exec_cvt_eq g d a f k s) hr
    simp only [begun_rdV, begun_lane, begun_vScale] at hc
    exact (laneWrites_wrV d _ _).wroteV h (fun _ _ => rfl) hc
  · have hc := convLanes_completes h (exec_dqntv_eq g d a f k s) hr
    simp only [begun_rdV, begun_vScale] at hc
    exact (laneWrites_wrV d _ _).wroteV h (fun _ _ => rfl) hc
  · have hc := completes_of_gate h _ (exec_cvti_eq g d a f k s) (fun c' => act.foldl (fun c' l =>
      (c'.wrV d l (cvtiOf k (slotOf (s.fmtOf c) f).rtz ((slotOf (s.fmtOf c) f).sat || satHint (c.lane l).hints) (c.rdV a l)).1).setFlags
        (cvtiOf k (slotOf (s.fmtOf c) f).rtz ((slotOf (s.fmtOf c) f).sat || satHint (c.lane l).hints) (c.rdV a l)).2) c')
      (by simp only [hinted_fmtOf, State.hinted_cur, begun_rdV, begun_lane])
    refine ((laneWrites_wrV d _ _).wroteV h (fun _ _ => rfl) hc).of_eq fun l => ?_
    rcases k with _ | _ | _ | k
    · rfl
    · rfl
    · simp only [cvtiOf, toInt_neg_msb]
    · rfl
  · have hc := completes_of_gate h _ (exec_pack_eq g d a f k s) (fun c' => act.foldl (fun c' l =>
      c'.wrV d l (setElem (c.rdV d l) (slotOf (s.fmtOf c) f).fmt.width k ((c.rdV a l).toNat % 2 ^ (slotOf (s.fmtOf c) f).fmt.width))) c')
      (by simp only [hinted_fmtOf, State.hinted_cur, begun_rdV, elemOf_zero])
    exact (laneWrites_wrV_only d _).wroteV h (fun _ _ => rfl) hc
  · have hc := completes_of_gate h _ (exec_unpack_eq g d a f k s) (fun c' => act.foldl (fun c' l =>
      c'.wrV d l (if (slotOf (s.fmtOf c) f).fmt = .int8 ∨ (slotOf (s.fmtOf c) f).fmt = .int4
        then BitVec.ofInt 32 (signedOf (2 ^ (slotOf (s.fmtOf c) f).fmt.width) (elemOf (c.rdV a l) (slotOf (s.fmtOf c) f).fmt.width k))
        else BitVec.ofNat 32 (elemOf (c.rdV a l) (slotOf (s.fmtOf c) f).fmt.width k))) c')
      (by simp only [hinted_fmtOf, State.hinted_cur, begun_rdV, slot_integer (slot_elem_lt _ _), ite_not])
    exact (laneWrites_wrV_only d _).wroteV h (fun _ _ => rfl) hc

/-- Settles O4: conversions, elements and stale tags. -/
theorem conversionsAndTags : Obligations.ConversionsAndTags := ⟨conversions, elementsAreApart, staleTagsTrap⟩

/-! ### Error feedback (R124, R141) -/

/-- Entries written lane by lane, for any way to read them. -/
theorem foldl_reads {β : Type} (rd : Ctx → Nat → Nat → β) (f : Ctx → Nat → Ctx) (k : Nat) (val : Nat → β)
    (hf : ∀ c l, l < 32 → ∀ n j, j < 32 → rd (f c l) n j = if n = k ∧ j = l then val l else rd c n j) (act : List Nat)
    (hlt : ∀ l ∈ act, l < 32) (c : Ctx) (n j : Nat) (hj : j < 32) :
    rd (act.foldl f c) n j = if n = k ∧ j ∈ act then val j else rd c n j := by
  induction act generalizing c with
  | nil => simp
  | cons x r ih =>
    have hx : x < 32 := hlt x (by simp)
    rw [List.foldl_cons, ih (fun l hl => hlt l (by simp [hl])), hf _ _ hx _ _ hj]
    by_cases hn : n = k
    · by_cases h1 : j ∈ r
      · simp [hn, h1]
      · by_cases h2 : j = x
        · subst h2
          simp [hn, h1]
        · simp [hn, h1, h2]
    · simp [hn]
/-- The residues after `CVTEF`. -/
theorem cvtef_rdE {s : State} {i : Instr} {c : Ctx} {act : List Nat} {d k : Nat} {val res : Nat → Word} {fl : Nat → BitVec 6} (h : Issues s i c act)
    (n l : Nat) (hl : l < 32) : (LaneWrites.result s i c act (fun c l => ((c.wrV d l (val l)).wrE k l (res l)).setFlags (fl l))).rdE n l
      = if n = k ∧ l ∈ act then res l else c.rdE n l := by
  have h0 : ∀ x : Ctx, (s.depart i (s.cohort c) x).rdE n l = x.rdE n l := fun x => by unfold Ctx.rdE; rw [depart_e]
  rw [h0, foldl_reads Ctx.rdE (fun c l => ((c.wrV d l (val l)).wrE k l (res l)).setFlags (fl l)) k res (fun c l hl n j hj => Ctx.rdE_wrE (c.wrV d l (val l)) k l (res l) n j hl hj) act (fun l hl => h.lt hl) _ n l hl,
    begun_rdE]
/-- R141, R124: what `CVTEF` leaves. -/
theorem cvtef_effect (g : Guard) (d a f k : Nat) {s : State} {c : Ctx} {act : List Nat} (h : Issues s (.cvtef g d a f k) c act)
    (hr : (slotOf (s.fmtOf c) f).scale = 0 ∨ c.ScaleReady d) : ∃ c', Completes (.cvtef g d a f k) s c' ∧ OnlyRegs c c' ∧
      let sl := slotOf (s.fmtOf c) f
      let r := fun l => residueStep sl.fmt (c.rdV a l) (c.rdE k l) (if sl.scale = 0 then none else some (c.vScale d l))
      (∀ l ∈ act, c'.rdV d l = setElem (c.rdV d l) sl.fmt.width k (r l).1 ∧ c'.rdE k l = (r l).2.1)
      ∧ (∀ n l, l < 32 → ¬ (n = k ∧ l ∈ act) → c'.rdE n l = c.rdE n l)
      ∧ KeepsV c c' act [d] ∧ c'.fpflags = raised c act (fun l => (r l).2.2) ∧ c'.g = c.g
      ∧ Moved c c' (s.cohort c) c.preds := by
  have hc := convLanes_completes h (exec_cvtef_eq g d a f k s) hr
  simp only [begun_rdV, begun_rdE, begun_vScale] at hc
  have hw := laneWrites_wrVE d k (fun l => setElem (c.rdV d l) (slotOf (s.fmtOf c) f).fmt.width k
      (residueStep (slotOf (s.fmtOf c) f).fmt (c.rdV a l) (c.rdE k l) (if (slotOf (s.fmtOf c) f).scale = 0 then none else some (c.vScale d l))).1)
    (fun l => (residueStep (slotOf (s.fmtOf c) f).fmt (c.rdV a l) (c.rdE k l) (if (slotOf (s.fmtOf c) f).scale = 0 then none else some (c.vScale d l))).2.1)
    (fun l => (residueStep (slotOf (s.fmtOf c) f).fmt (c.rdV a l) (c.rdE k l) (if (slotOf (s.fmtOf c) f).scale = 0 then none else some (c.vScale d l))).2.2)
  refine ⟨_, hc, hw.onlyRegs, fun l hl => ⟨?_, ?_⟩, fun n l hl hn => ?_, hw.keepsV h, hw.flags_eq, hw.g_eq, hw.moved⟩
  · exact (hw.rdV h d l (h.lt hl)).trans (if_pos ⟨List.mem_singleton.mpr rfl, hl⟩)
  · exact (cvtef_rdE h k l (h.lt hl)).trans (if_pos ⟨rfl, hl⟩)
  · exact (cvtef_rdE h n l hl).trans (if_neg hn)

/-! ### Quantisation (R143) -/

/-- Codes packed from the lowest bits up. -/
theorem pack_codes (w : Nat) : ∀ (rs : List (Nat × BitVec 6)) (n t : Nat),
    (rs.foldl (fun (p : Nat × Nat) r => (p.1 + r.1 * 2 ^ p.2, p.2 + w)) (n, t)).1
      = n + 2 ^ t * (rs.map (·.1)).foldr (fun q m => q + m * 2 ^ w) 0
  | [], n, t => by simp
  | r :: rs, n, t => by
    rw [List.foldl_cons, pack_codes w rs, List.map_cons, List.foldr_cons, Nat.pow_add]
    ring
/-- One lane of `QNTV`: its register, its entry of s_m and its flags. -/
def Ctx.quantLane (d m : Nat) (v : Nat → Word) (b : Nat → Nat) (fl : Nat → BitVec 6) (c : Ctx) (l : Nat) : Ctx :=
  ((c.wrV d l (v l)).setSByte m l (b l)).setFlags (fl l)
/-- A register bound to s_m once the GEN of s_m has advanced. -/
def Ctx.boundAnew (d m : Nat) (c : Ctx) : Ctx := (c.advGen m false).bindV d m ((c.advGen m false).sGen m)
theorem withVtags_keeps (c : Ctx) (t : Sparse (BitVec 16)) : ({ c with vtags := t } : Ctx).v = c.v ∧ ({ c with vtags := t } : Ctx).scales = c.scales
    ∧ ({ c with vtags := t } : Ctx).fpflags = c.fpflags ∧ ({ c with vtags := t } : Ctx).sctl = c.sctl := ⟨rfl, rfl, rfl, rfl⟩
theorem bindV_keeps (c : Ctx) (n x y : Nat) : (c.bindV n x y).v = c.v ∧ (c.bindV n x y).scales = c.scales ∧ (c.bindV n x y).fpflags = c.fpflags
    ∧ (c.bindV n x y).sctl = c.sctl := withVtags_keeps c _
theorem bindV_sctl (c : Ctx) (n x y m : Nat) : (c.bindV n x y).sGen m = c.sGen m ∧ (c.bindV n x y).sBand m = c.sBand m := by
  unfold Ctx.sGen Ctx.sBand
  rw [(bindV_keeps c n x y).2.2.2]
  exact ⟨rfl, rfl⟩
theorem boundAnew_sGen (d m : Nat) (c : Ctx) (n : Nat) : (c.boundAnew d m).sGen n = if n = m then (c.sGen m + 1) % 16 else c.sGen n := by
  rw [Ctx.boundAnew, (bindV_sctl _ _ _ _ _).1, Ctx.advGen, Ctx.sGen_setGen, Nat.mod_mod]
theorem boundAnew_sBand (d m : Nat) (c : Ctx) (n : Nat) : (c.boundAnew d m).sBand n = if n = m then false else c.sBand n := by
  rw [Ctx.boundAnew, (bindV_sctl _ _ _ _ _).2, Ctx.advGen, Ctx.sBand_setGen]
theorem boundAnew_vtag (d m : Nat) (c : Ctx) : (c.boundAnew d m).vtag d = mkTag m ((c.sGen m + 1) % 16) false 0 := by
  rw [Ctx.boundAnew, Ctx.bindV, Ctx.vtag, Sparse.get_set_same, Ctx.advGen, Ctx.sGen_setGen, if_pos rfl, Nat.mod_mod]
theorem setGen_keeps (c : Ctx) (r x : Nat) (band : Bool) :
    (c.setGen r x band).v = c.v ∧ (c.setGen r x band).scales = c.scales ∧ (c.setGen r x band).fpflags = c.fpflags := ⟨rfl, rfl, rfl⟩
theorem boundAnew_keeps (d m : Nat) (c : Ctx) : (c.boundAnew d m).v = c.v ∧ (c.boundAnew d m).scales = c.scales ∧ (c.boundAnew d m).fpflags = c.fpflags := by
  obtain ⟨h1, h2, h3, -⟩ := bindV_keeps (c.advGen m false) d m ((c.advGen m false).sGen m)
  obtain ⟨h4, h5, h6⟩ := setGen_keeps c m ((c.sGen m + 1) % 16) false
  exact ⟨h1.trans h4, h2.trans h5, h3.trans h6⟩
/-- What `QNTV` makes of a context. -/
def Ctx.quantised (d m : Nat) (v : Nat → Word) (b : Nat → Nat) (fl : Nat → BitVec 6) (act : List Nat) (c : Ctx) : Ctx :=
  (act.foldl (Ctx.quantLane d m v b fl) c).boundAnew d m
/-- x differs from c in vector registers, scale registers, tags and flags at most. -/
def QuantEdit (c x : Ctx) : Prop :=
  x = { c with v := x.v, vtags := x.vtags, ttags := x.ttags, scales := x.scales, sctl := x.sctl, fpflags := x.fpflags }
theorem QuantEdit.trans {a b c : Ctx} (h : QuantEdit a b) (h' : QuantEdit b c) : QuantEdit a c := by
  unfold QuantEdit at h h' ⊢
  rw [h] at h'
  exact h'
theorem QuantEdit.withVtags (c : Ctx) (t : Sparse (BitVec 16)) : QuantEdit c { c with vtags := t } := rfl
theorem QuantEdit.bindV (c : Ctx) (n x y : Nat) : QuantEdit c (c.bindV n x y) := .withVtags c _
theorem QuantEdit.setGen (c : Ctx) (r x : Nat) (band : Bool) : QuantEdit c (c.setGen r x band) := rfl
theorem boundAnew_edit (d m : Nat) (c : Ctx) : QuantEdit c (c.boundAnew d m) := (QuantEdit.setGen c m _ false).trans (QuantEdit.bindV _ d m _)
theorem quantLane_edit (d m : Nat) (v : Nat → Word) (b : Nat → Nat) (fl : Nat → BitVec 6) (c : Ctx) (l : Nat) : QuantEdit c (c.quantLane d m v b fl l) := rfl
theorem quantLane_sctl (d m : Nat) (v : Nat → Word) (b : Nat → Nat) (fl : Nat → BitVec 6) (c : Ctx) (l : Nat) : (c.quantLane d m v b fl l).sctl = c.sctl := rfl
namespace Quantised
variable {d m : Nat} {v : Nat → Word} {b : Nat → Nat} {fl : Nat → BitVec 6} {act : List Nat} {c : Ctx}
theorem edit : QuantEdit c (Ctx.quantised d m v b fl act c) :=
  QuantEdit.trans (foldl_induct (fun x => QuantEdit c x) (Ctx.quantLane d m v b fl) (fun x l hx => hx.trans (quantLane_edit d m v b fl x l)) act c rfl)
    (boundAnew_edit d m _)
theorem sctl_lanes (n : Nat) : (act.foldl (Ctx.quantLane d m v b fl) c).sGen n = c.sGen n ∧ (act.foldl (Ctx.quantLane d m v b fl) c).sBand n = c.sBand n := by
  have h := foldl_keeps Ctx.sctl (Ctx.quantLane d m v b fl) (quantLane_sctl d m v b fl) act c
  unfold Ctx.sGen Ctx.sBand
  rw [h]
  exact ⟨rfl, rfl⟩
theorem rdV_eq (hlt : ∀ l ∈ act, l < 32) (n l : Nat) (hl : l < 32) :
    (Ctx.quantised d m v b fl act c).rdV n l = if n = d ∧ l ∈ act then v l else c.rdV n l := by
  rw [Ctx.quantised, Ctx.rdV, (boundAnew_keeps d m _).1]
  exact foldl_reads Ctx.rdV (Ctx.quantLane d m v b fl) d v (fun c l hl n j hj => Ctx.rdV_wrV c d l (v l) n j hl hj) act hlt c n l hl
theorem sByte_eq (hlt : ∀ l ∈ act, l < 32) (n l : Nat) (hl : l < 32) :
    (Ctx.quantised d m v b fl act c).sByte n l = if n = m ∧ l ∈ act then b l % 256 else c.sByte n l := by
  rw [Ctx.quantised, Ctx.sByte, (boundAnew_keeps d m _).2.1]
  exact foldl_reads Ctx.sByte (Ctx.quantLane d m v b fl) m (fun l => b l % 256)
    (fun c l hl n j hj => Ctx.sByte_setSByte (c.wrV d l (v l)) m l (b l) n j hl hj) act hlt c n l hl
theorem sGen_eq (n : Nat) : (Ctx.quantised d m v b fl act c).sGen n = if n = m then (c.sGen m + 1) % 16 else c.sGen n := by
  rw [Ctx.quantised, boundAnew_sGen, (sctl_lanes m).1, (sctl_lanes n).1]
theorem sBand_eq (n : Nat) : (Ctx.quantised d m v b fl act c).sBand n = if n = m then false else c.sBand n := by
  rw [Ctx.quantised, boundAnew_sBand, (sctl_lanes n).2]
theorem vtag_eq : (Ctx.quantised d m v b fl act c).vtag d = mkTag m ((c.sGen m + 1) % 16) false 0 := by
  rw [Ctx.quantised, boundAnew_vtag, (sctl_lanes m).1]
theorem flags_eq : (Ctx.quantised d m v b fl act c).fpflags = raised c act fl := by
  rw [Ctx.quantised, (boundAnew_keeps d m _).2.2]
  exact foldl_raised act c (fun c l => (c.wrV d l (v l)).setSByte m l (b l)) fl (fun _ _ => rfl)
end Quantised
section
variable {s : State} {i : Instr} {c : Ctx} {act : List Nat}
/-- The context that `QNTV` leaves, once its cohort has moved on. -/
theorem quantEdit_moved {x : Ctx} (h : QuantEdit (c.begun i act) x) : Moved c (s.depart i (s.cohort c) x) (s.cohort c) c.preds := by
  intro l
  have hl : x.lane l = c.lane l := by
    rw [h]
    exact begun_lane c i act l
  rw [depart_lane _ _ _ (cohort_nodup s c), hl]
  split <;> rfl
theorem begun_sGen (n : Nat) : (c.begun i act).sGen n = c.sGen n := by
  unfold Ctx.sGen
  rw [(begun_scales c i act).2.1]
theorem begun_sBand (n : Nat) : (c.begun i act).sBand n = c.sBand n := by
  unfold Ctx.sBand
  rw [(begun_scales c i act).2.1]
theorem begun_sByte (n k : Nat) : (c.begun i act).sByte n k = c.sByte n k := by
  unfold Ctx.sByte
  rw [(begun_scales c i act).1]
theorem quantEdit_rest {x : Ctx} (h : QuantEdit (c.begun i act) x) : (s.depart i (s.cohort c) x).g = c.g ∧ (s.depart i (s.cohort c) x).e = c.e
    ∧ (s.depart i (s.cohort c) x).tiles = c.tiles ∧ (s.depart i (s.cohort c) x).accs = c.accs ∧ (s.depart i (s.cohort c) x).stash = c.stash := by
  rw [depart_only, h, begun_only]
  exact ⟨rfl, rfl, rfl, rfl, rfl⟩
end
/-- Settles O5: what `QNTV` and `CVTEF` write, and what they leave. -/
theorem quantisesAndFeedsBack : Obligations.QuantisesAndFeedsBack := by
  refine ⟨fun g d a f k s c act h => ?_, fun g d a f k s c act h hr => cvtef_effect g d a f k h hr⟩
  obtain ⟨sl, hsl⟩ : ∃ sl, sl = slotOf (s.fmtOf c) f := ⟨_, rfl⟩
  obtain ⟨xs, hxs⟩ : ∃ xs : Nat → List FVal, xs = fun l => (List.range sl.perReg).map (fun j => f32 (c.rdV (a + j) l)) := ⟨_, rfl⟩
  obtain ⟨rs, hrs⟩ : ∃ rs : Nat → List (Nat × BitVec 6), rs = fun l => (xs l).map (fun x => roundQuot sl.fmt sl.rtz sl.sat x (blockScale sl.fmt (xs l)).1) := ⟨_, rfl⟩
  have hc := completes_of_gate h _ (exec_qntv_eq g d a f k s)
    (Ctx.quantised d (8 * k) (fun l => BitVec.ofNat 32 (((rs l).map (·.1)).foldr (fun q n => q + n * 2 ^ sl.fmt.width) 0))
      (fun l => (blockScale sl.fmt (xs l)).1) (fun l => (rs l).foldl (fun fl r => fl ||| r.2) (blockScale sl.fmt (xs l)).2) act)
    (by
      simp only [hinted_fmtOf, State.hinted_cur, begun_rdV, pack_codes, Nat.zero_add, Nat.pow_zero, Nat.one_mul, ← hsl]
      rw [hrs, hxs]
      rfl)
  have hd : ∀ x : Ctx, (s.depart (.qntv g d a f k) (s.cohort c) x).v = x.v ∧ (s.depart (.qntv g d a f k) (s.cohort c) x).vtags = x.vtags :=
    fun x => ⟨depart_v .., depart_vtags ..⟩
  have hsc := fun x : Ctx => depart_scales s (.qntv g d a f k) (s.cohort c) x
  have hrd : ∀ (x : Ctx) n l, (s.depart (.qntv g d a f k) (s.cohort c) x).rdV n l = x.rdV n l := fun x n l => by
    unfold Ctx.rdV
    rw [(hd x).1]
  have hby : ∀ (x : Ctx) n l, (s.depart (.qntv g d a f k) (s.cohort c) x).sByte n l = x.sByte n l := fun x n l => by
    unfold Ctx.sByte
    rw [(hsc x).1]
  have hct : ∀ (x : Ctx) n, (s.depart (.qntv g d a f k) (s.cohort c) x).sGen n = x.sGen n ∧ (s.depart (.qntv g d a f k) (s.cohort c) x).sBand n = x.sBand n :=
    fun x n => by
      unfold Ctx.sGen Ctx.sBand
      rw [(hsc x).2.1]
      exact ⟨rfl, rfl⟩
  refine ⟨_, hc, fun l hl => ?_, fun n l hl hn => ?_, fun l hl => ?_, fun n l hl hn => ?_, ?_, ?_, fun n hn => ⟨?_, ?_⟩, ?_, ?_, ?_⟩
  · rw [hrd, Quantised.rdV_eq (fun l hl => h.lt hl) d l (h.lt hl), if_pos ⟨rfl, hl⟩, hrs, hxs, hsl]
  · rw [hrd, Quantised.rdV_eq (fun l hl => h.lt hl) n l hl, if_neg hn, begun_rdV]
  · rw [hby, Quantised.sByte_eq (fun l hl => h.lt hl) _ l (h.lt hl), if_pos ⟨rfl, hl⟩, hxs, hsl]
  · rw [hby, Quantised.sByte_eq (fun l hl => h.lt hl) n l hl, if_neg hn, begun_sByte]
  · rw [(hct _ _).1, Quantised.sGen_eq, if_pos rfl, begun_sGen]
  · rw [(hct _ _).2, Quantised.sBand_eq, if_pos rfl]
  · rw [(hct _ _).1, Quantised.sGen_eq, if_neg hn, begun_sGen]
  · rw [(hct _ _).2, Quantised.sBand_eq, if_neg hn, begun_sBand]
  · rw [Ctx.vtag, (hd _).2]
    refine Quantised.vtag_eq.trans ?_
    rw [begun_sGen]
  · rw [depart_flags, Quantised.flags_eq, raised, begun_flags, hrs, hxs, hsl]
    rfl
  · obtain ⟨h1, h2, h3, h4, h5⟩ := quantEdit_rest (s := s) (i := .qntv g d a f k) (c := c) (act := act) Quantised.edit
    exact ⟨h1, h2, h3, h4, h5, quantEdit_moved Quantised.edit⟩

end Sys2Proof.Machine
end

section
/-! SUPPORT. Bindings, stale tags and scale arithmetic (R66 to R69, R167 to R169). -/

namespace Sys2Proof.Machine

/-! ### GENs and stale tags (R67) -/

/-- A tag of the group: of a tile, or of a vector register. -/
def Ctx.tagOf (c : Ctx) (tile : Bool) (m : Nat) : BitVec 16 := if tile then c.ttag m else c.vtag m
/-- Each tag of the group stands once in its table. -/
def TagsOnce (c : Ctx) : Prop := OneValue c.vtags ∧ OneValue c.ttags
theorem tagOf_setGen {c : Ctx} (h : TagsOnce c) (tile : Bool) (r x : Nat) (band : Bool) (m : Nat) :
    (c.setGen r x band).tagOf tile m = staleTag tile r (x % 16) (c.tagOf tile m) := by
  cases tile
  · exact get_clearStale h.1 false r (x % 16) m
  · exact get_clearStale h.2 true r (x % 16) m
theorem TagsOnce.setGen {c : Ctx} (h : TagsOnce c) (r x : Nat) (band : Bool) : TagsOnce (c.setGen r x band) :=
  ⟨h.1.clearStale false r (x % 16), h.2.clearStale true r (x % 16)⟩
/-- Registers whose GEN advances one after another, each with a FORM and a payload of its own. -/
def Ctx.movePart (d a : Nat) (c0 : Ctx) (c : Ctx) (r : Nat) : Ctx :=
  (c.setPayload (d + r) (c0.sPayload (a + r)) (c0.sBand (a + r))).advGen (d + r) (c0.sBand (a + r))
theorem setPayload_keeps (c : Ctx) (n : Nat) (bs : List Byte) (band : Bool) : (c.setPayload n bs band).vtags = c.vtags
    ∧ (c.setPayload n bs band).ttags = c.ttags ∧ (c.setPayload n bs band).sctl = c.sctl ∧ (c.setPayload n bs band).fpflags = c.fpflags := ⟨rfl, rfl, rfl, rfl⟩
theorem setPayload_edit (c : Ctx) (n : Nat) (bs : List Byte) (band : Bool) : ScaleEdit c (c.setPayload n bs band) := rfl
theorem sPayload_length (c : Ctx) (n : Nat) : (c.sPayload n).length = 32 := by
  unfold Ctx.sPayload Sparse.getRun
  simp
theorem sPayload_getD (c : Ctx) (n k : Nat) (hk : k < 32) : ((c.sPayload n).getD k 0).toNat = c.sByte n k := by
  unfold Ctx.sPayload Sparse.getRun Ctx.sByte
  simp [hk]
theorem sByte_setPayload (c : Ctx) (n : Nat) (bs : List Byte) (band : Bool) (hl : bs.length = 32) (m k : Nat) (hk : k < 32) :
    (c.setPayload n bs band).sByte m k = if m = n then (if band ∧ 24 ≤ k then 0 else (bs.getD k 0).toNat) else c.sByte m k := by
  unfold Ctx.setPayload Ctx.sByte
  rw [Sparse.get_setRun]
  have hlen : (if band then bs.take 24 ++ List.replicate 8 0 else bs).length = 32 := by cases band <;> simp [hl]
  rw [hlen]
  by_cases hm : m = n
  · rw [if_pos (by omega), if_pos hm, hm, Nat.add_sub_cancel_left]
    cases band
    · simp
    · by_cases h24 : 24 ≤ k
      · rw [if_pos rfl, if_pos ⟨rfl, h24⟩, List.getD_append_right _ _ _ _ (by simp [hl]; omega)]
        rw [List.getD_eq_getElem?_getD, List.getElem?_replicate]
        split <;> rfl
      · rw [if_pos rfl, if_neg (fun h => h24 h.2), List.getD_append _ _ _ _ (by simp [hl]; omega)]
        rw [List.getD_eq_getElem?_getD, List.getD_eq_getElem?_getD, List.getElem?_take_of_lt (by omega)]
  · rw [if_neg (by omega), if_neg hm]
section
variable {d a n : Nat} {c0 c : Ctx}
/-- What moving a run leaves, after as many registers as have moved. -/
structure Shifted (d a : Nat) (c0 : Ctx) (n : Nat) (c : Ctx) : Prop where
  edit : ScaleEdit c0 c
  flags : c.fpflags = c0.fpflags
  done : ∀ j < n, c.sBand (d + j) = c0.sBand (a + j) ∧ c.sGen (d + j) = (c0.sGen (d + j) + 1) % 16
    ∧ ∀ k < 32, c.sByte (d + j) k = if c0.sBand (a + j) ∧ 24 ≤ k then 0 else c0.sByte (a + j) k
  rest : ∀ m, (∀ j < n, m ≠ d + j) → c.sBand m = c0.sBand m ∧ c.sGen m = c0.sGen m ∧ ∀ k < 32, c.sByte m k = c0.sByte m k
/-- What becomes of the tags meanwhile. -/
structure TagsShifted (d : Nat) (c0 : Ctx) (n : Nat) (c : Ctx) : Prop where
  once : TagsOnce c
  cleared : ∀ tile m, (∃ j < n, Names tile (d + j) ((c0.sGen (d + j) + 1) % 16) (c0.tagOf tile m)) → c.tagOf tile m = c0.tagOf tile m &&& 0x7FFF
  kept : ∀ tile m, (∀ j < n, ¬ Names tile (d + j) ((c0.sGen (d + j) + 1) % 16) (c0.tagOf tile m)) → c.tagOf tile m = c0.tagOf tile m
theorem shifted_zero : Shifted d a c 0 c :=
  ⟨rfl, rfl, fun _ h => absurd h (Nat.not_lt_zero _), fun _ _ => ⟨rfl, rfl, fun _ _ => rfl⟩⟩
theorem tagsShifted_zero (h : TagsOnce c) : TagsShifted d c 0 c :=
  ⟨h, fun _ _ ⟨_, hj, _⟩ => absurd hj (Nat.not_lt_zero _), fun _ _ _ => rfl⟩
theorem movePart_sctl (m : Nat) : (Ctx.movePart d a c0 c n).sGen m = (if m = d + n then (c.sGen (d + n) + 1) % 16 else c.sGen m)
    ∧ (Ctx.movePart d a c0 c n).sBand m = if m = d + n then c0.sBand (a + n) else c.sBand m := by
  unfold Ctx.movePart Ctx.advGen
  rw [Ctx.sGen_setGen, Ctx.sBand_setGen, Nat.mod_mod]
  exact ⟨rfl, rfl⟩
theorem movePart_sByte (m k : Nat) (hk : k < 32) : (Ctx.movePart d a c0 c n).sByte m k
    = if m = d + n then (if c0.sBand (a + n) ∧ 24 ≤ k then 0 else c0.sByte (a + n) k) else c.sByte m k := by
  unfold Ctx.movePart Ctx.advGen
  rw [Ctx.sByte_setGen, sByte_setPayload _ _ _ _ (sPayload_length c0 (a + n)) m k hk, sPayload_getD c0 (a + n) k hk]
theorem Shifted.succ (h : Shifted d a c0 n c) : Shifted d a c0 (n + 1) (Ctx.movePart d a c0 c n) where
  edit := h.edit.trans ((setPayload_edit c _ _ _).trans (.setGen _ _ _ _))
  flags := h.flags
  done j hj := by
    obtain ⟨hg, hb⟩ := movePart_sctl (d := d) (a := a) (n := n) (c0 := c0) (c := c) (d + j)
    rcases Nat.lt_or_ge j n with hjn | hjn
    · obtain ⟨h1, h2, h3⟩ := h.done j hjn
      refine ⟨?_, ?_, fun k hk => ?_⟩
      · rw [hb, if_neg (by omega), h1]
      · rw [hg, if_neg (by omega), h2]
      · rw [movePart_sByte _ k hk, if_neg (by omega), h3 k hk]
    · obtain rfl : j = n := by omega
      refine ⟨?_, ?_, fun k hk => ?_⟩
      · rw [hb, if_pos rfl]
      · rw [hg, if_pos rfl, (h.rest (d + j) (fun i hi => by omega)).2.1]
      · rw [movePart_sByte _ k hk, if_pos rfl]
  rest m hm := by
    obtain ⟨hg, hb⟩ := movePart_sctl (d := d) (a := a) (n := n) (c0 := c0) (c := c) m
    obtain ⟨h1, h2, h3⟩ := h.rest m (fun j hj => hm j (by omega))
    have hne := hm n (by omega)
    exact ⟨by rw [hb, if_neg hne, h1], by rw [hg, if_neg hne, h2], fun k hk => by rw [movePart_sByte m k hk, if_neg hne, h3 k hk]⟩
theorem TagsShifted.succ (hs : Shifted d a c0 n c) (h : TagsShifted d c0 n c) : TagsShifted d c0 (n + 1) (Ctx.movePart d a c0 c n) := by
  have hg : (c.sGen (d + n) + 1) % 16 = (c0.sGen (d + n) + 1) % 16 := by rw [(hs.rest (d + n) (fun i hi => by omega)).2.1]
  have hp : TagsOnce (c.setPayload (d + n) (c0.sPayload (a + n)) (c0.sBand (a + n))) := h.once
  have ht : ∀ tile m, (Ctx.movePart d a c0 c n).tagOf tile m = staleTag tile (d + n) ((c0.sGen (d + n) + 1) % 16) (c.tagOf tile m) := by
    intro tile m
    refine (tagOf_setGen hp tile _ _ _ m).trans ?_
    rw [Nat.mod_mod, ← hg]
    rfl
  have hnames : ∀ tile m r x, Names tile r x (c.tagOf tile m) ↔ Names tile r x (c0.tagOf tile m) := by
    intro tile m r x
    by_cases hc : ∃ j < n, Names tile (d + j) ((c0.sGen (d + j) + 1) % 16) (c0.tagOf tile m)
    · rw [h.cleared tile m hc]
      exact Names.unbound
    · rw [h.kept tile m (by simpa using hc)]
  refine ⟨hp.setGen _ _ _, fun tile m hj => ?_, fun tile m hj => ?_⟩
  · rw [ht, staleTag]
    by_cases hc : ∃ j < n, Names tile (d + j) ((c0.sGen (d + j) + 1) % 16) (c0.tagOf tile m)
    · rw [h.cleared tile m hc, unbound_unbound, ite_self]
    · obtain ⟨j, hj1, hj2⟩ := hj
      have hjn : j = n := by
        by_contra hne
        exact hc ⟨j, by omega, hj2⟩
      rw [hjn] at hj2
      rw [if_pos ((hnames tile m _ _).mpr hj2), h.kept tile m (by simpa using hc)]
  · rw [ht, staleTag, if_neg (fun hn => hj n (by omega) ((hnames tile m _ _).mp hn)), h.kept tile m (fun j hjn => hj j (by omega))]
/-- A run of 2^n registers moved. -/
def Ctx.moveRun (d a n : Nat) (c : Ctx) : Ctx := (List.range n).foldl (Ctx.movePart d a c) c
theorem moveRun_shifted (d a n : Nat) (c : Ctx) : Shifted d a c n (c.moveRun d a n) ∧ (TagsOnce c → TagsShifted d c n (c.moveRun d a n)) := by
  induction n with
  | zero => exact ⟨shifted_zero, tagsShifted_zero⟩
  | succ n ih =>
    have e : c.moveRun d a (n + 1) = Ctx.movePart d a c (c.moveRun d a n) n := by
      unfold Ctx.moveRun
      rw [List.range_succ, List.foldl_append]
      rfl
    rw [e]
    exact ⟨ih.1.succ, fun h => (ih.2 h).succ ih.1⟩
end

/-! ### Parts of scale registers (R169) -/

/-- Bytes that the first K entries of a part take. -/
abbrev PartBytes (band form : Bool) (K b : Nat) : Prop := if band then b < 2 * K else if form then 8 ≤ b ∧ b < 8 + K else b < K
/-- Entries that a register has room for. -/
abbrev PartRoom (band form : Bool) (K : Nat) : Prop := if band then K ≤ 16 else if form then K ≤ 24 else K ≤ 32
/-- An entry of a part of s_n written. -/
def Ctx.setPart (c : Ctx) (band : Bool) (n k x : Nat) : Ctx := if band then c.setBand n k x else c.setBlock n k x
/-- One entry of a part replaced, with flags. -/
def Ctx.mapEntry (n : Nat) (band : Bool) (f : Nat → Nat → Nat × BitVec 6) (c : Ctx) (k : Nat) : Ctx :=
  (c.setPart band n k (f k (c.partEntry band n k)).1).setFlags (f k (c.partEntry band n k)).2
theorem mapPart_eq (c : Ctx) (n : Nat) (band : Bool) (count : Nat) (f : Nat → Nat → Nat × BitVec 6) :
    c.mapPart n band count f = (List.range count).foldl (Ctx.mapEntry n band f) c := rfl
/-- Only payload bytes and flags may differ. -/
def PayloadEdit (c x : Ctx) : Prop := x = { c with scales := x.scales, fpflags := x.fpflags }
theorem PayloadEdit.trans {a b c : Ctx} (h : PayloadEdit a b) (h' : PayloadEdit b c) : PayloadEdit a c := by
  unfold PayloadEdit at h h' ⊢
  rw [h] at h'
  exact h'
theorem PayloadEdit.sctl {c x : Ctx} (h : PayloadEdit c x) : x.sctl = c.sctl ∧ x.vtags = c.vtags ∧ x.ttags = c.ttags := by
  unfold PayloadEdit at h
  rw [h]
  exact ⟨rfl, rfl, rfl⟩
theorem PayloadEdit.sBand {c x : Ctx} (h : PayloadEdit c x) (n : Nat) : x.sBand n = c.sBand n := by
  unfold Ctx.sBand
  rw [h.sctl.1]
theorem PayloadEdit.scaleEdit {c x : Ctx} (h : PayloadEdit c x) : ScaleEdit c x := by
  unfold PayloadEdit at h
  unfold ScaleEdit
  rw [h]
theorem setPart_edit (c : Ctx) (band : Bool) (n k x : Nat) : PayloadEdit c (c.setPart band n k x) := by
  cases band <;> rfl
theorem mapEntry_edit (n : Nat) (band : Bool) (f : Nat → Nat → Nat × BitVec 6) (c : Ctx) (k : Nat) : PayloadEdit c (c.mapEntry n band f k) :=
  (setPart_edit c band n k _).trans rfl
theorem setPart_sByte_ne (c : Ctx) {band : Bool} {n k x m b : Nat} (hk : PartRoom band (c.sBand n) (k + 1)) (hb : b < 32)
    (h : ¬ (m = n ∧ PartBytes band (c.sBand n) (k + 1) b ∧ ¬ PartBytes band (c.sBand n) k b)) : (c.setPart band n k x).sByte m b = c.sByte m b := by
  unfold Ctx.setPart
  cases band
  · unfold Ctx.setBlock
    cases hf : c.sBand n <;> rw [hf] at hk h <;> simp only [PartRoom, PartBytes, Bool.false_eq_true, if_false, if_true] at hk h ⊢
    · rw [Ctx.sByte_setSByte _ _ _ _ _ _ (by omega) hb, if_neg (by omega)]
    · rw [Ctx.sByte_setSByte _ _ _ _ _ _ (by omega) hb, if_neg (by omega)]
  · unfold Ctx.setBand
    simp only [PartRoom, PartBytes, if_true] at hk h ⊢
    rw [Ctx.sByte_setSByte _ _ _ _ _ _ (by omega) hb, if_neg (by omega), Ctx.sByte_setSByte _ _ _ _ _ _ (by omega) hb, if_neg (by omega)]
theorem setPart_entry (c : Ctx) {band : Bool} {n k x : Nat} (hk : PartRoom band (c.sBand n) (k + 1)) :
    (c.setPart band n k x).partEntry band n k = x % (if band then 65536 else 256) := by
  unfold Ctx.setPart Ctx.partEntry
  cases band
  · unfold Ctx.setBlock Ctx.blockEntry
    have hb : ∀ j y, (c.setSByte n j y).sBand n = c.sBand n := fun _ _ => rfl
    simp only [Bool.false_eq_true, if_false, hb]
    cases hf : c.sBand n <;> rw [hf] at hk <;> simp only [PartRoom, Bool.false_eq_true, if_false, if_true] at hk ⊢ <;> rw [Ctx.sByte_setSByte _ _ _ _ _ _ (by omega) (by omega), if_pos ⟨rfl, rfl⟩]
  · unfold Ctx.setBand Ctx.bandEntry
    simp only [PartRoom, if_true] at hk ⊢
    rw [Ctx.sByte_setSByte _ _ _ _ _ _ (by omega) (by omega), if_neg (by omega), Ctx.sByte_setSByte _ _ _ _ _ _ (by omega) (by omega), if_pos ⟨rfl, rfl⟩,
      Ctx.sByte_setSByte _ _ _ _ _ _ (by omega) (by omega), if_pos ⟨rfl, rfl⟩]
    omega
/-- Contexts that agree on the bytes of an entry agree on the entry. -/
theorem partEntry_congr {c x : Ctx} {band : Bool} {n k : Nat} (hf : x.sBand n = c.sBand n) (hk : PartRoom band (c.sBand n) (k + 1))
    (h : ∀ b < 32, PartBytes band (c.sBand n) (k + 1) b → ¬ PartBytes band (c.sBand n) k b → x.sByte n b = c.sByte n b) :
    x.partEntry band n k = c.partEntry band n k := by
  unfold Ctx.partEntry
  cases band
  · simp only [Bool.false_eq_true, if_false]
    unfold Ctx.blockEntry
    rw [hf]
    cases hfm : c.sBand n <;> rw [hfm] at hk h <;> simp only [PartRoom, PartBytes, Bool.false_eq_true, if_false, if_true] at hk h ⊢
    · exact h k (by omega) (by omega) (by omega)
    · exact h (8 + k) (by omega) (by omega) (by omega)
  · simp only [if_true]
    unfold Ctx.bandEntry
    simp only [PartRoom, PartBytes, if_true] at hk h
    rw [h (2 * k) (by omega) (by omega) (by omega), h (2 * k + 1) (by omega) (by omega) (by omega)]

section
variable {n K : Nat} {band : Bool} {f : Nat → Nat → Nat × BitVec 6} {c0 c : Ctx}
/-- What replacing the first K entries of a part of s_n leaves. -/
structure Mapped (n : Nat) (band : Bool) (f : Nat → Nat → Nat × BitVec 6) (c0 : Ctx) (K : Nat) (c : Ctx) : Prop where
  edit : PayloadEdit c0 c
  done : ∀ k < K, c.partEntry band n k = (f k (c0.partEntry band n k)).1 % (if band then 65536 else 256)
  rest : ∀ m b, b < 32 → ¬ (m = n ∧ PartBytes band (c0.sBand n) K b) → c.sByte m b = c0.sByte m b
  flags : c.fpflags = (List.range K).foldl (fun x k => x ||| (f k (c0.partEntry band n k)).2) c0.fpflags
theorem partBytes_mono {band form : Bool} {k K b : Nat} (h : k ≤ K) (hb : PartBytes band form k b) : PartBytes band form K b := by
  cases band <;> cases form <;> simp only [PartBytes, Bool.false_eq_true, if_false, if_true] at hb ⊢ <;> omega
theorem partRoom_mono {band form : Bool} {k K : Nat} (h : k ≤ K) (hb : PartRoom band form K) : PartRoom band form k := by
  cases band <;> cases form <;> simp only [PartRoom, Bool.false_eq_true, if_false, if_true] at hb ⊢ <;> omega
theorem mapped_zero : Mapped n band f c 0 c := ⟨rfl, fun _ h => absurd h (Nat.not_lt_zero _), fun _ _ _ _ => rfl, rfl⟩
theorem Mapped.succ (h : Mapped n band f c0 K c) (hr : PartRoom band (c0.sBand n) (K + 1)) : Mapped n band f c0 (K + 1) (c.mapEntry n band f K) := by
  have hx : c.partEntry band n K = c0.partEntry band n K :=
    partEntry_congr (h.edit.sBand n) hr (fun b hb _ hn => h.rest n b hb (fun hp => hn hp.2))
  have hs : ∀ m b, b < 32 → ¬ (m = n ∧ PartBytes band (c0.sBand n) (K + 1) b ∧ ¬ PartBytes band (c0.sBand n) K b) → (c.mapEntry n band f K).sByte m b = c.sByte m b :=
    fun m b hb hn => setPart_sByte_ne c (by rw [h.edit.sBand]; exact hr) hb (by rw [h.edit.sBand]; exact hn)
  have he := h.edit.trans (mapEntry_edit n band f c K)
  refine ⟨he, fun k hk => ?_, fun m b hb hn => ?_, ?_⟩
  · rcases Nat.lt_or_ge k K with hkK | hkK
    · rw [← h.done k hkK]
      refine partEntry_congr ((mapEntry_edit n band f c K).sBand n) (by rw [h.edit.sBand]; exact partRoom_mono (by omega) hr) fun b hb hp _ => ?_
      rw [h.edit.sBand] at hp
      exact hs n b hb (fun hn => hn.2.2 (partBytes_mono hkK hp))
    · obtain rfl : k = K := by omega
      rw [← hx]
      exact setPart_entry c (by rw [h.edit.sBand]; exact hr)
  · rw [hs m b hb (fun hp => hn ⟨hp.1, hp.2.1⟩)]
    exact h.rest m b hb (fun hp => hn ⟨hp.1, partBytes_mono (Nat.le_succ K) hp.2⟩)
  · rw [List.range_succ, List.foldl_append, ← h.flags, List.foldl_cons, List.foldl_nil, ← hx]
    have hfl : (c.setPart band n K (f K (c.partEntry band n K)).1).fpflags = c.fpflags := by cases band <;> rfl
    exact congrArg (· ||| (f K (c.partEntry band n K)).2) hfl
theorem mapPart_mapped (c : Ctx) (hr : PartRoom band (c.sBand n) K) : Mapped n band f c K (c.mapPart n band K f) := by
  rw [mapPart_eq]
  induction K with
  | zero => exact mapped_zero
  | succ K ih =>
    rw [List.range_succ, List.foldl_append]
    exact (ih (partRoom_mono (Nat.le_succ K) hr)).succ hr
end
/-- R169: entries that a run shares with another have room in each register. -/
theorem shared_room (c : Ctx) (band : Bool) (x y : Nat) : PartRoom band (c.sBand x) (c.shared band x y) := by
  unfold Ctx.shared PartRoom
  cases band <;> cases c.sBand x <;> cases c.sBand y <;> simp
/-- The entries that s_x shares with s_y replaced by values of context c0. -/
def Ctx.mapShared (c0 : Ctx) (d o : Nat) (band : Bool) (f : Nat → Nat → Nat → Nat × BitVec 6) (c : Ctx) (j : Nat) : Ctx :=
  c.mapPart (d + j) band (c0.shared band (d + j) (o + j)) (f j)
section
variable {d o n : Nat} {band : Bool} {f : Nat → Nat → Nat → Nat × BitVec 6} {c0 c : Ctx}
/-- What mapping a run leaves, after n registers. -/
structure RunMapped (d o : Nat) (band : Bool) (f : Nat → Nat → Nat → Nat × BitVec 6) (c0 : Ctx) (n : Nat) (c : Ctx) : Prop where
  edit : PayloadEdit c0 c
  done : ∀ j < n, ∀ k < c0.shared band (d + j) (o + j),
    c.partEntry band (d + j) k = (f j k (c0.partEntry band (d + j) k)).1 % (if band then 65536 else 256)
  rest : ∀ m b, b < 32 → (∀ j < n, m = d + j → ¬ PartBytes band (c0.sBand m) (c0.shared band (d + j) (o + j)) b) → c.sByte m b = c0.sByte m b
  flags : c.fpflags = (List.range n).foldl (fun x j =>
    (List.range (c0.shared band (d + j) (o + j))).foldl (fun x k => x ||| (f j k (c0.partEntry band (d + j) k)).2) x) c0.fpflags
theorem runMapped_zero : RunMapped d o band f c 0 c := ⟨rfl, fun _ h => absurd h (Nat.not_lt_zero _), fun _ _ _ _ => rfl, rfl⟩
theorem RunMapped.succ (h : RunMapped d o band f c0 n c) : RunMapped d o band f c0 (n + 1) (c0.mapShared d o band f c n) := by
  have hroom := shared_room c0 band (d + n) (o + n)
  have hm : Mapped (d + n) band (f n) c (c0.shared band (d + n) (o + n)) (c0.mapShared d o band f c n) :=
    mapPart_mapped c (by rw [h.edit.sBand]; exact hroom)
  have hfresh : ∀ b < 32, c.sByte (d + n) b = c0.sByte (d + n) b := fun b hb => h.rest (d + n) b hb (fun j hj he => absurd he (by omega))
  have hx : ∀ k < c0.shared band (d + n) (o + n), c.partEntry band (d + n) k = c0.partEntry band (d + n) k := fun k hk =>
    partEntry_congr (h.edit.sBand _) (partRoom_mono hk hroom) (fun b hb _ _ => hfresh b hb)
  refine ⟨h.edit.trans hm.edit, fun j hj k hk => ?_, fun m b hb hn => ?_, ?_⟩
  · rcases Nat.lt_or_ge j n with hjn | hjn
    · rw [← h.done j hjn k hk]
      refine partEntry_congr (hm.edit.sBand _) (by rw [h.edit.sBand]; exact partRoom_mono hk (shared_room c0 band (d + j) (o + j))) fun b hb _ _ => ?_
      exact hm.rest (d + j) b hb (fun hp => absurd hp.1 (by omega))
    · obtain rfl : j = n := by omega
      rw [hm.done k hk, hx k hk]
  · rw [hm.rest m b hb (fun hp => ?_)]
    · exact h.rest m b hb (fun j hj => hn j (by omega))
    · obtain ⟨rfl, hp⟩ := hp
      rw [h.edit.sBand] at hp
      exact hn n (by omega) rfl hp
  · rw [List.range_succ, List.foldl_append, ← h.flags, hm.flags]
    refine List.foldl_ext _ _ _ fun x k hk => ?_
    rw [hx k (List.mem_range.mp hk)]
theorem mapShared_run (d o : Nat) (band : Bool) (f : Nat → Nat → Nat → Nat × BitVec 6) (c : Ctx) (n : Nat) :
    RunMapped d o band f c n ((List.range n).foldl (c.mapShared d o band f) c) := by
  induction n with
  | zero => exact runMapped_zero
  | succ n ih =>
    rw [List.range_succ, List.foldl_append]
    exact ih.succ
end

/-! ### Instructions on runs (R167) -/

section
variable {s : State} {i : Instr} {c : Ctx} {act : List Nat} {runs : List (Nat × Nat)} {regs : List RegName} {f : State → Ctx → Nat → Eff}
theorem onRuns_completes (h : Issues s i c act) (he : exec i s = onRuns i runs regs s f) (hr : ∀ r ∈ runs, s.badRun c r.1 r.2 = false)
    (hu : c.Unheld (regs ++ runs.flatMap (fun r => (runRegs r.1 r.2).map .s))) (F : Ctx → Ctx)
    (hf : f (s.hinted i act) (c.begun i act) (act.headD 0) = .ok ((s.hinted i act).modCtx s.cur.ctx F)) :
    Completes i s (s.depart i (s.cohort c) (F (c.begun i act))) := by
  refine completes_of_once h _ he F ?_
  have hnone : runs.find? (fun r => (s.hinted i act).badRun (c.begun i act) r.1 r.2) = none := by
    refine List.find?_eq_none.mpr fun r hr' => ?_
    rw [hinted_badRun, hr r hr']
    exact Bool.false_ne_true
  rw [hnone]
  exact (ordered_free (begun_unheld hu i act) _).trans hf
end
theorem runsFree_unheld {s : State} {c : Ctx} {runs : List (Nat × Nat)} (h : RunsFree s c runs) :
    c.Unheld ([] ++ runs.flatMap (fun r => (runRegs r.1 r.2).map .s)) := h.2
section
variable (s : State) (i : Instr) (coh : List Nat) (x : Ctx)
theorem depart_sGen (n : Nat) : (s.depart i coh x).sGen n = x.sGen n := by
  unfold Ctx.sGen
  rw [(depart_scales s i coh x).2.1]
theorem depart_sBand (n : Nat) : (s.depart i coh x).sBand n = x.sBand n := by
  unfold Ctx.sBand
  rw [(depart_scales s i coh x).2.1]
theorem depart_sByte (n k : Nat) : (s.depart i coh x).sByte n k = x.sByte n k := by
  unfold Ctx.sByte
  rw [(depart_scales s i coh x).1]
theorem depart_tagOf (tile : Bool) (m : Nat) : (s.depart i coh x).tagOf tile m = x.tagOf tile m := by
  unfold Ctx.tagOf Ctx.vtag Ctx.ttag
  rw [(depart_scales s i coh x).2.2, depart_vtags]
theorem depart_partEntry (band : Bool) (n k : Nat) : (s.depart i coh x).partEntry band n k = x.partEntry band n k := by
  unfold Ctx.partEntry Ctx.bandEntry Ctx.blockEntry
  simp only [depart_sBand, depart_sByte]
end
theorem begun_tagOf (c : Ctx) (i : Instr) (act : List Nat) (tile : Bool) (m : Nat) : (c.begun i act).tagOf tile m = c.tagOf tile m := by
  unfold Ctx.tagOf Ctx.vtag Ctx.ttag
  rw [(begun_scales c i act).2.2, begun_vtags]
theorem begun_partEntry (c : Ctx) (i : Instr) (act : List Nat) (band : Bool) (n k : Nat) : (c.begun i act).partEntry band n k = c.partEntry band n k := by
  unfold Ctx.partEntry Ctx.bandEntry Ctx.blockEntry
  simp only [begun_sBand, begun_sByte]
theorem begun_shared (c : Ctx) (i : Instr) (act : List Nat) (band : Bool) (x y : Nat) : (c.begun i act).shared band x y = c.shared band x y := by
  unfold Ctx.shared
  simp only [begun_sBand]
/-- `SMOV` completes with its run moved. -/
theorem smov_completes (g : Guard) (d a n : Nat) {s : State} {c : Ctx} {act : List Nat} (h : Issues s (.smov g d a n) c act)
    (hr : RunsFree s c [(d, n), (a, n)]) :
    Completes (.smov g d a n) s (s.depart (.smov g d a n) (s.cohort c) ((c.begun (.smov g d a n) act).moveRun d a (2 ^ n))) :=
  onRuns_completes h (exec_smov_eq g d a n s) hr.1 (runsFree_unheld hr)
    (fun c' => (List.range (2 ^ n)).foldl (Ctx.movePart d a (c.begun (.smov g d a n) act)) c') (by rw [State.hinted_cur]; rfl)
/-- Settles O9 in part: R66, R67. -/
theorem staleTagsClear : Claims.StaleTagsClear := by
  unfold Claims.StaleTagsClear
  intro stale once
  refine ⟨fun c r x band ho _ hx => ⟨?_, fun m => ?_⟩, fun g d a n s c act h hr ho => ⟨_, smov_completes g d a n h hr, fun m => ?_⟩⟩
  · rw [Ctx.sGen_setGen, if_pos rfl, Nat.mod_eq_of_lt hx]
  · have hv : (c.setGen r x band).vtag m = staleTag false r (x % 16) (c.vtag m) := tagOf_setGen (c := c) ho false r x band m
    have ht : (c.setGen r x band).ttag m = staleTag true r (x % 16) (c.ttag m) := tagOf_setGen (c := c) ho true r x band m
    rw [Nat.mod_eq_of_lt hx] at hv ht
    exact ⟨fun hs => hv.trans (if_pos hs), fun hs => hv.trans (if_neg hs), fun hs => ht.trans (if_pos hs), fun hs => ht.trans (if_neg hs)⟩
  · have hob : TagsOnce (c.begun (.smov g d a n) act) := by
      unfold TagsOnce
      rw [(begun_scales c _ act).2.2, begun_vtags]
      exact ho
    have hs := (moveRun_shifted d a (2 ^ n) (c.begun (.smov g d a n) act)).2 hob
    have hc := fun tile hj => (depart_tagOf s (.smov g d a n) (s.cohort c) _ tile m).trans (hs.cleared tile m hj)
    have hk := fun tile hj => (depart_tagOf s (.smov g d a n) (s.cohort c) _ tile m).trans (hs.kept tile m hj)
    simp only [begun_tagOf, begun_sGen] at hc hk
    exact ⟨hc false, hk false, hc true, hk true⟩

/-- A scale instruction that maps a part of a run. -/
theorem mapsPart_of {i : Instr} {d o n : Nat} {band : Bool} {f : Ctx → Nat → Nat → Nat × BitVec 6} (fx : Ctx → Nat → Nat → Nat → Nat × BitVec 6)
    (hf : ∀ c act j k, fx (c.begun i act) j k (c.partEntry band (d + j) k) = f c j k)
    (hc : ∀ s c act, Issues s i c act → RunsFree s c [(d, n), (o, n)] → Completes i s (s.depart i (s.cohort c)
      ((List.range (2 ^ n)).foldl ((c.begun i act).mapShared d o band (fx (c.begun i act))) (c.begun i act)))) : MapsPart i d o n band f := by
  intro s c act h hr
  have hm := mapShared_run d o band (fx (c.begun i act)) (c.begun i act) (2 ^ n)
  obtain ⟨h1, h2, h3⟩ := hm.edit.sctl
  obtain ⟨b1, b2, b3⟩ := begun_scales c i act
  refine ⟨_, hc s c act h hr, hm.edit.scaleEdit.onlyScales s _, ?_, ?_, ?_, fun j hj k hk => ?_, fun m b hb hn => ?_, ?_, hm.edit.scaleEdit.moved s⟩
  · rw [(depart_scales s i _ _).2.1, h1, b2]
  · rw [depart_vtags, h2, begun_vtags]
  · rw [(depart_scales s i _ _).2.2, h3, b3]
  · rw [← begun_shared c i act] at hk
    rw [depart_partEntry, hm.done j hj k hk, begun_partEntry, hf]
  · rw [depart_sByte, hm.rest m b hb (fun j hj he => ?_), begun_sByte]
    rw [begun_sBand, begun_shared]
    exact hn j hj he
  · rw [depart_flags, hm.flags, begun_flags]
    simp only [begun_shared, begun_partEntry, hf]
/-- Settles O9 in part: R66, R169. -/
theorem scaleArithmetic : Claims.ScaleArithmetic := by
  refine ⟨fun g d a n s c act h hr => ?_, fun g d a n band => ?_, fun g d a n band => ?_, fun g d a n band => ?_⟩
  · obtain ⟨hs, -⟩ := moveRun_shifted d a (2 ^ n) (c.begun (.smov g d a n) act)
    refine ⟨_, smov_completes g d a n h hr, hs.edit.onlyScales s _, ?_, fun j hj => ?_, fun m hm => ?_, hs.edit.moved s⟩
    · rw [depart_flags, hs.flags, begun_flags]
    · have hd := hs.done j hj
      simp only [begun_sBand, begun_sGen, begun_sByte] at hd
      rw [depart_sBand, depart_sGen]
      exact ⟨hd.1, hd.2.1, fun k hk => by rw [depart_sByte, hd.2.2 k hk]⟩
    · have hd := hs.rest m (fun j hj he => hm (he ▸ List.mem_map.mpr ⟨j, List.mem_range.mpr hj, rfl⟩))
      simp only [begun_sBand, begun_sGen, begun_sByte] at hd
      rw [depart_sBand, depart_sGen]
      exact ⟨hd.1, hd.2.1, fun k hk => by rw [depart_sByte, hd.2.2 k hk]⟩
  · refine mapsPart_of (fun c _ _ x => roundPart band (mulV (readF (partFmt band) x) (f32 (c.rdG a)))) (fun c act j k => by rw [begun_rdG]) fun s c act h hr => ?_
    obtain ⟨hbad, hun⟩ := hr
    refine onRuns_completes h (exec_smul_eq g d a n band s) (fun r hr => hbad r (List.mem_cons_of_mem _ hr))
      (fun e he r hr => hun e he r (List.mem_append_right _ hr)) (fun c' => (List.range (2 ^ n)).foldl _ c') ?_
    rw [State.hinted_cur]
    unfold runRegs
    simp only [List.foldl_map]
    rfl
  · refine mapsPart_of (fun c j k x => roundPart band (sumV [readF (partFmt band) x, readF (partFmt band) (c.partEntry band (a + j) k)]))
      (fun c act j k => by rw [begun_partEntry]) fun s c act h hr => ?_
    exact onRuns_completes h (exec_sadd_eq g d a n band s) hr.1 (runsFree_unheld hr) (fun c' => (List.range (2 ^ n)).foldl _ c') (by rw [State.hinted_cur]; rfl)
  · refine mapsPart_of (fun c j k x => (maxCodeOf (partFmt band) x (c.partEntry band (a + j) k), 0))
      (fun c act j k => by rw [begun_partEntry]) fun s c act h hr => ?_
    exact onRuns_completes h (exec_smax_eq g d a n band s) hr.1 (runsFree_unheld hr) (fun c' => (List.range (2 ^ n)).foldl _ c') (by rw [State.hinted_cur]; rfl)

/-! ### Bindings (R66, R68, R168) -/

/-- Registers of a run that all take one GEN. -/
def Ctx.alignGens (g : Nat) (rs : List Nat) (c : Ctx) : Ctx := rs.foldl (fun c r => c.setGen r g (c.sBand r)) c
theorem alignGens_effect (g : Nat) (rs : List Nat) (c : Ctx) : ScaleEdit c (c.alignGens g rs) ∧ (c.alignGens g rs).scales = c.scales
    ∧ (c.alignGens g rs).fpflags = c.fpflags ∧ (∀ n, (c.alignGens g rs).sBand n = c.sBand n)
    ∧ ∀ n, (c.alignGens g rs).sGen n = if n ∈ rs then g % 16 else c.sGen n := by
  induction rs generalizing c with
  | nil => exact ⟨rfl, rfl, rfl, fun _ => rfl, fun _ => by rw [if_neg List.not_mem_nil]; rfl⟩
  | cons r rs ih =>
    obtain ⟨h1, h2, h3, h4, h5⟩ := ih (c.setGen r g (c.sBand r))
    refine ⟨(ScaleEdit.setGen c r g (c.sBand r)).trans h1, h2, h3, fun n => ?_, fun n => ?_⟩
    · refine (h4 n).trans ?_
      rw [Ctx.sBand_setGen]
      split
      · next h => rw [h]
      · rfl
    · refine (h5 n).trans ?_
      rw [Ctx.sGen_setGen]
      by_cases h : n = r
      · simp [h]
      · simp [h]
/-- R66: the GENs of a run agree. -/
def Ctx.agreed (c : Ctx) (a log : Nat) : Prop := ∀ r ∈ runRegs a log, c.sGen r = c.sGen a
theorem bindGen_agreed {c : Ctx} {a log : Nat} (h : c.agreed a log) : c.bindGen a log = (c, c.sGen a) :=
  if_pos (List.all_eq_true.mpr fun r hr => decide_eq_true (h r hr))
theorem bindGen_mixed {c : Ctx} {a log : Nat} (h : ¬ c.agreed a log) :
    c.bindGen a log = (c.alignGens (((runRegs a log).foldl (fun m r => max m (c.sGen r)) 0 + 1) % 16) (runRegs a log),
      ((runRegs a log).foldl (fun m r => max m (c.sGen r)) 0 + 1) % 16) :=
  if_neg fun hall => h fun r hr => of_decide_eq_true (List.all_eq_true.mp hall r hr)
theorem mem_runRegs_self (a log : Nat) : a ∈ runRegs a log := List.mem_map.mpr ⟨0, List.mem_range.mpr (Nat.two_pow_pos log), rfl⟩
/-- R66: what a bind makes of the GENs of its run. -/
structure Bound (c : Ctx) (a log : Nat) (x : Ctx) (gen : Nat) : Prop where
  edit : ScaleEdit c x
  scales : x.scales = c.scales
  flags : x.fpflags = c.fpflags
  band : ∀ n, x.sBand n = c.sBand n
  run : ∀ n ∈ runRegs a log, x.sGen n = gen
  small : gen < 16
  rest : ∀ n, n ∉ runRegs a log → x.sGen n = c.sGen n
  value : gen = if ∀ r ∈ runRegs a log, c.sGen r = c.sGen a then c.sGen a else ((runRegs a log).foldl (fun m r => max m (c.sGen r)) 0 + 1) % 16
  kept : (∀ r ∈ runRegs a log, c.sGen r = c.sGen a) → x.vtags = c.vtags ∧ x.ttags = c.ttags
theorem bindGen_bound (c : Ctx) (a log : Nat) : Bound c a log (c.bindGen a log).1 (c.bindGen a log).2 := by
  by_cases h : c.agreed a log
  · rw [bindGen_agreed h]
    exact ⟨rfl, rfl, rfl, fun _ => rfl, h, Nat.mod_lt _ (by decide), fun _ _ => rfl, (if_pos h).symm, fun _ => ⟨rfl, rfl⟩⟩
  · rw [bindGen_mixed h]
    obtain ⟨h1, h2, h3, h4, h5⟩ := alignGens_effect (((runRegs a log).foldl (fun m r => max m (c.sGen r)) 0 + 1) % 16) (runRegs a log) c
    exact ⟨h1, h2, h3, h4, fun n hn => by rw [h5, if_pos hn, Nat.mod_mod], Nat.mod_lt _ (by decide), fun n hn => by rw [h5, if_neg hn],
      (if_neg h).symm, fun ha => absurd ha h⟩
theorem withTtags_keeps (c : Ctx) (t : Sparse (BitVec 16)) : ScaleEdit c { c with ttags := t } ∧ ({ c with ttags := t } : Ctx).scales = c.scales
    ∧ ({ c with ttags := t } : Ctx).fpflags = c.fpflags ∧ ({ c with ttags := t } : Ctx).sctl = c.sctl ∧ ({ c with ttags := t } : Ctx).vtags = c.vtags :=
  ⟨rfl, rfl, rfl, rfl, rfl⟩
theorem bindT_keeps (c : Ctx) (t x g : Nat) (m : Bool) (l : Nat) : ScaleEdit c (c.bindT t x g m l) ∧ (c.bindT t x g m l).scales = c.scales
    ∧ (c.bindT t x g m l).fpflags = c.fpflags ∧ (c.bindT t x g m l).sctl = c.sctl ∧ (c.bindT t x g m l).vtags = c.vtags := withTtags_keeps c _
theorem withTtag_ttag (c : Ctx) (t : Nat) (x : BitVec 16) (n : Nat) :
    ({ c with ttags := Sparse.set 0 c.ttags t x } : Ctx).ttag n = if n = t then x else c.ttag n := Sparse.get_set ..
theorem withVtag_vtag (c : Ctx) (t : Nat) (x : BitVec 16) (n : Nat) :
    ({ c with vtags := Sparse.set 0 c.vtags t x } : Ctx).vtag n = if n = t then x else c.vtag n := Sparse.get_set ..
theorem bindV_vtag (c : Ctx) (t x g n : Nat) : (c.bindV t x g).vtag n = if n = t then mkTag x g false 0 else c.vtag n := withVtag_vtag c t _ n
theorem bindT_ttag (c : Ctx) (t x g : Nat) (m : Bool) (l n : Nat) : (c.bindT t x g m l).ttag n = if n = t then mkTag x g m l else c.ttag n :=
  withTtag_ttag c t _ n
theorem bindT_sctl (c : Ctx) (t x g : Nat) (m : Bool) (l n : Nat) : (c.bindT t x g m l).sGen n = c.sGen n ∧ (c.bindT t x g m l).sBand n = c.sBand n := by
  unfold Ctx.sGen Ctx.sBand
  rw [(bindT_keeps c t x g m l).2.2.2.1]
  exact ⟨rfl, rfl⟩
/-- A tile bound to a run of one GEN is current. -/
theorem bindT_current {c : Ctx} {t a gen : Nat} {sh : RunShape} (ha : a < 64) (hl : sh.log < 8) (hg : gen < 16)
    (hrun : ∀ n ∈ runRegs a sh.log, c.sGen n = gen) : (c.bindT t a gen sh.band sh.log).tCurrent t sh = true
      ∧ tagIndex ((c.bindT t a gen sh.band sh.log).ttag t) = a := by
  obtain ⟨h1, h2, h3, h4, h5⟩ := mkTag_fields (gen := gen) (mode := sh.band) ha hl
  unfold Ctx.tCurrent
  rw [bindT_ttag, if_pos rfl]
  dsimp only
  rw [h1, h2, h3, h4, h5, Nat.mod_eq_of_lt hg]
  have hall : (runRegs a sh.log).all (fun r => decide ((c.bindT t a gen sh.band sh.log).sGen r = gen)) = true :=
    List.all_eq_true.mpr fun r hr => decide_eq_true ((bindT_sctl ..).1.trans (hrun r hr))
  rw [hall]
  simp
theorem RegsOf.withVtags (c : Ctx) (t : Sparse (BitVec 16)) : RegsOf c { c with vtags := t } := ⟨_, _, _, _, _, _, _, _, _, _, _, _, rfl⟩
theorem begun_stag (c : Ctx) (i : Instr) (act : List Nat) (k x : Nat) : (c.begun i act).stag k x = c.stag k x := by
  rw [begun_only]
  rfl
theorem sctl_word (c : Ctx) (n : Nat) : (Sparse.get 0 c.sctl n).toNat = c.sGen n + if c.sBand n then 16 else 0 := by
  have h := (Sparse.get 0 c.sctl n).isLt
  unfold Ctx.sGen Ctx.sBand
  by_cases h16 : 16 ≤ (Sparse.get 0 c.sctl n).toNat
  · rw [if_pos (decide_eq_true h16)]
    omega
  · rw [if_neg (by simpa using h16)]
    omega
theorem run_log {sl : Slot} {sh : RunShape} (h : sl.run = some sh) : sh.log < 8 := by
  unfold Slot.run at h
  split at h <;> simp at h <;> subst h <;> decide
theorem depart_tCurrent (s : State) (i : Instr) (coh : List Nat) (x : Ctx) (n : Nat) (sh : RunShape) :
    (s.depart i coh x).tCurrent n sh = x.tCurrent n sh ∧ (s.depart i coh x).ttag n = x.ttag n := by
  rw [depart_only]
  exact ⟨rfl, rfl⟩
theorem depart_vCurrent (s : State) (i : Instr) (coh : List Nat) (x : Ctx) (n : Nat) :
    (s.depart i coh x).vCurrent n = x.vCurrent n ∧ (s.depart i coh x).vtag n = x.vtag n := by
  rw [depart_only]
  exact ⟨rfl, rfl⟩
/-- A vector register bound to a scale register is current. -/
theorem bindV_current {c : Ctx} {d a : Nat} (ha : a < 64) : (c.bindV d a (c.sGen a)).vCurrent d = true ∧ tagIndex ((c.bindV d a (c.sGen a)).vtag d) = a := by
  obtain ⟨h1, h2, -, -, h5⟩ := mkTag_fields (gen := c.sGen a) (mode := false) (log := 0) ha (by decide)
  unfold Ctx.vCurrent
  rw [bindV_vtag, if_pos rfl]
  dsimp only
  rw [h1, h2, h5, (bindV_sctl ..).1, Ctx.sGen, Nat.mod_mod]
  simp
theorem withVtags_rest (c : Ctx) (t : Sparse (BitVec 16)) : ({ c with vtags := t } : Ctx).g = c.g ∧ ({ c with vtags := t } : Ctx).e = c.e := ⟨rfl, rfl⟩
/-- A tile bound to a run. -/
def Ctx.boundTile (d a : Nat) (sh : RunShape) (c : Ctx) : Ctx := (c.bindGen a sh.log).1.bindT d a (c.bindGen a sh.log).2 sh.band sh.log
/-- Settles O9 in part: R66 to R68, R168. -/
theorem scaleBinding : Claims.ScaleBinding := by
  refine ⟨fun g d a f s c act sh h hrun hbad ha hform hun => ?_, fun g d a s c act h hbad ha hform hun => ?_, fun g d s c act h => ?_, fun g d s c act h => ?_,
    fun g d x k => ?_⟩
  · have hc := completes_of_once h _ (exec_sbindT_eq g d a f s) (Ctx.boundTile d a sh) (by
      rw [hinted_fmtOf, hrun]
      dsimp only
      rw [hinted_badRun, hbad, if_neg Bool.false_ne_true, ordered_free (begun_unheld hun _ act), if_neg, State.hinted_cur]
      · rfl
      · simpa [begun_sBand] using hform)
    have hl : sh.log < 8 := run_log hrun
    obtain ⟨he, hsc, hfl, hbd, hrn, hsm, hrs, hval, hkept⟩ := bindGen_bound (c.begun (.sbindT g d a f) act) a sh.log
    obtain ⟨k1, k2, k3, k4, k5⟩ := bindT_keeps ((c.begun (.sbindT g d a f) act).bindGen a sh.log).1 d a
      ((c.begun (.sbindT g d a f) act).bindGen a sh.log).2 sh.band sh.log
    obtain ⟨b1, b2, b3⟩ := begun_scales c (.sbindT g d a f) act
    have ha64 : a < 64 := by
      have := Nat.two_pow_pos sh.log
      omega
    obtain ⟨hcur, hidx⟩ := bindT_current (t := d) (sh := sh) ha64 hl hsm hrn
    have hedit : ScaleEdit (c.begun (.sbindT g d a f) act) ((c.begun (.sbindT g d a f) act).boundTile d a sh) := he.trans k1
    have hgen := fun n => (depart_sGen s (.sbindT g d a f) (s.cohort c) ((c.begun (.sbindT g d a f) act).boundTile d a sh) n).trans (bindT_sctl ..).1
    simp only [begun_sGen] at hval hkept
    refine ⟨_, hc, hedit.onlyScales s _, (depart_tCurrent ..).1.trans hcur, (congrArg tagIndex (depart_tCurrent _ _ _ _ d sh).2).trans hidx,
      (depart_scales ..).1.trans (k2.trans (hsc.trans b1)), (depart_flags ..).trans (k3.trans (hfl.trans (begun_flags ..))),
      fun n => (depart_sBand ..).trans ((bindT_sctl ..).2.trans ((hbd n).trans (begun_sBand n))),
      fun n hn => (hgen n).trans ((hrs n hn).trans (begun_sGen n)), fun n hn => (hgen n).trans ((hrn n hn).trans hval), fun hag => ⟨?_, fun n hn => ?_⟩, hedit.moved s⟩
    · exact (depart_vtags ..).trans (k5.trans ((hkept hag).1.trans (begun_vtags ..)))
    · refine (depart_tCurrent _ _ _ _ n sh).2.trans ((bindT_ttag ..).trans ((if_neg hn).trans ?_))
      unfold Ctx.ttag
      rw [(hkept hag).2, b3]
  · have hc := onRuns_completes h (exec_sbindV_eq g d a s) (fun r hr => by rw [List.mem_singleton.mp hr]; exact hbad) hun
      (fun x => x.bindV d a (x.sGen a)) (by rw [begun_sBand, hform, if_neg Bool.false_ne_true, State.hinted_cur])
    have hr : RegsOf c ((c.begun (.sbindV g d a) act).bindV d a ((c.begun (.sbindV g d a) act).sGen a)) := (RegsOf.begun c _ act).trans (.withVtags _ _)
    obtain ⟨k1, k2, k3, k4⟩ := bindV_keeps (c.begun (.sbindV g d a) act) d a ((c.begun (.sbindV g d a) act).sGen a)
    obtain ⟨hcur, hidx⟩ := bindV_current (c := c.begun (.sbindV g d a) act) (d := d) ha
    refine ⟨_, hc, RegsOf.depart _ _ _ _ _ hr, (depart_vCurrent ..).1.trans hcur, (congrArg tagIndex (depart_vCurrent ..).2).trans hidx,
      fun n hn => (depart_vCurrent ..).2.trans ((bindV_vtag ..).trans ((if_neg hn).trans (begun_vCurrent c _ act n).2)),
      (depart_v ..).trans (k1.trans (begun_v ..)), (depart_g ..).trans ?_, (depart_e ..).trans ?_, (depart_flags ..).trans (k3.trans (begun_flags ..)),
      quantEdit_moved (.bindV _ _ _ _)⟩
    · exact (withVtags_rest ..).1.trans (begun_g ..)
    · exact (withVtags_rest ..).2.trans (begun_e ..)
  · have hc := completes_of_once h _ (exec_sunbindT_eq g d s) (fun x => x.unbindT d) (by rw [State.hinted_cur])
    have he : ScaleEdit (c.begun (.sunbindT g d) act) ((c.begun (.sunbindT g d) act).unbindT d) := rfl
    obtain ⟨h1, h2, h3⟩ := depart_scales s (.sunbindT g d) (s.cohort c) ((c.begun (.sunbindT g d) act).unbindT d)
    obtain ⟨b1, b2, b3⟩ := begun_scales c (.sunbindT g d) act
    refine ⟨_, hc, he.onlyScales s _, fun n => ?_, h1.trans b1, h2.trans b2, (depart_vtags ..).trans (begun_vtags ..),
      (depart_flags ..).trans (begun_flags ..), he.moved s⟩
    unfold Ctx.ttag
    rw [h3, Ctx.unbindT, clearBound, Sparse.get_set, b3]
    split
    · next hn => rw [hn]
    · rfl
  · have hc := completes_of_once h _ (exec_sunbindV_eq g d s) (fun x => x.unbindV d) (by rw [State.hinted_cur])
    have hr : RegsOf c ((c.begun (.sunbindV g d) act).unbindV d) := (RegsOf.begun c _ act).trans (.withVtags _ _)
    have he : ScaleEdit (c.begun (.sunbindV g d) act) ((c.begun (.sunbindV g d) act).unbindV d) := rfl
    refine ⟨_, hc, RegsOf.depart _ _ _ _ _ hr, fun n => ?_, (depart_v ..).trans (begun_v ..), (depart_g ..).trans (begun_g ..), (depart_e ..).trans (begun_e ..),
      (depart_flags ..).trans (begun_flags ..), he.moved s⟩
    unfold Ctx.vtag
    rw [depart_vtags, Ctx.unbindV, clearBound, Sparse.get_set, begun_vtags]
    split
    · next hn => rw [hn]
    · rfl
  · refine (perLane_writes _ d _ (exec_stagrd_eq g d x k) (fun c act l => begun_stag c _ act k x)).of_eq fun c l => ?_
    rcases k with _ | _ | k
    · rfl
    · rfl
    · exact congrArg (BitVec.ofNat 32) (sctl_word c x)

/-- Settles O9: bindings, stale tags and scale arithmetic. -/
theorem scaleRegisters : Obligations.ScaleRegisters := ⟨scaleBinding, staleTagsClear, scaleArithmetic⟩

end Sys2Proof.Machine
end

section
/-! The issue of accesses (R207): what a translation leaves of storage, what a request captures, and the entry that an issue
appends to its context's replay queue. -/

namespace Sys2Proof.Machine

/-! ### What a translation leaves behind -/

/-- A state that differs from another in packages and their memory alone, and in the memory only where a slot is open. -/
structure State.Walked (s t : State) : Prop where
  /-- nothing but packages and their memory -/
  rest : t = { s with pkgs := t.pkgs, hbm := t.hbm }
  /-- without slots, the memory stands -/
  still : (∀ p, (s.pkg p).slots = []) → t.hbm = s.hbm ∧ ∀ p, (t.pkg p).slots = []

theorem State.Walked.refl (s : State) : s.Walked s := ⟨rfl, fun h => ⟨rfl, h⟩⟩
theorem State.Walked.trans {s t u : State} (h : s.Walked t) (h' : t.Walked u) : s.Walked u where
  rest := by rw [h'.rest, h.rest]
  still hs := by
    obtain ⟨e, ht⟩ := h.still hs
    obtain ⟨e', hu⟩ := h'.still ht
    exact ⟨e'.trans e, hu⟩
theorem State.Walked.modPkg {r s : State} (h : r.Walked s) (p : Nat) (f : Package → Package) (hf : ∀ q, q.slots = [] → (f q).slots = []) :
    r.Walked (s.modPkg p f) := by
  refine h.trans ⟨rfl, fun hs => ⟨rfl, fun q => ?_⟩⟩
  rw [State.pkg_modPkg]
  split
  · exact hf _ (hs _)
  · exact hs _
theorem State.slotAt_loc {s : State} {l : Loc} {x : RedSlot} (h : s.slotAt l = some x) : x.loc = l := by
  have := List.find?_some h
  simpa using this
theorem Loc.hbm_word (k n : Nat) : ∃ j, ((Loc.hbm k).add n).word = .hbm j := ⟨_, rfl⟩
/-- A slot released on a word of package memory. -/
theorem State.Walked.releaseSlot {r s : State} (h : r.Walked s) {k : Nat} {x : RedSlot} (hx : s.slotAt (.hbm k) = some x) (p : Nat) :
    r.Walked (s.releaseSlot p x) := by
  have hl := State.slotAt_loc hx
  refine h.trans ⟨?_, fun hs => ?_⟩
  · unfold State.releaseSlot
    rw [hl]
    rfl
  · unfold State.slotAt at hx
    rw [hs] at hx
    cases hx
theorem State.Walked.releaseSpan {r s : State} (h : r.Walked s) (k n : Nat) : r.Walked (s.releaseSpan (.hbm k) n) := by
  unfold State.releaseSpan
  dsimp only
  split
  · exact h
  · refine foldl_induct r.Walked _ (fun t i ht => ?_) _ _ h
    obtain ⟨j, hj⟩ := Loc.hbm_word k (min (4 * i) (n - 1))
    rw [hj]
    split
    · next x hx => exact ht.releaseSlot hx _
    · exact ht
theorem State.Walked.walkTouch {r s : State} (h : r.Walked s) (p va level ppn : Nat) : r.Walked (s.walkTouch p va level ppn) := by
  induction level generalizing s ppn with
  | zero =>
    unfold State.walkTouch
    dsimp only
    repeat' split
    all_goals first | exact h | exact h.releaseSpan _ _
  | succ l ih =>
    unfold State.walkTouch
    dsimp only
    repeat' split
    all_goals first | exact h | exact h.releaseSpan _ _ | exact ih (h.releaseSpan _ _) _
theorem State.Walked.walkReads {r s : State} (h : r.Walked s) (p die asid va : Nat) : r.Walked (s.walkReads p die asid va) := by
  have hp : ∀ a, r.Walked (s.releaseSpan (s.asidPlace p a) 16) := fun a => h.releaseSpan _ _
  unfold State.walkReads
  dsimp only
  repeat' split
  all_goals first | exact h | exact h.walkTouch _ _ _ _ | exact (hp _).walkTouch _ _ _ _ | exact hp _
theorem State.Walked.translate {r s : State} (h : r.Walked s) (y : Party) (va : Nat) (k : AccKind) : r.Walked (s.translate y va k).1 := by
  unfold State.translate
  dsimp only
  split
  · exact h
  · split
    · next e level ptrs _ _ =>
      exact (h.walkReads _ _ _ _).modPkg y.pkg (fun p => p.fill y.tlbs y.walkDie y.asid va e level ptrs) (fun q hq => hq)
    · exact h.walkReads _ _ _ _

/-! ### Captures -/

/-- A capture as an issue makes it of a request. -/
structure Captured (r : Req) (places : List Loc) (x : Cap) : Prop where
  /-- its address -/
  va : x.va = r.va
  /-- its length -/
  len : x.len = r.len
  /-- its source words -/
  data : x.data = r.data
  /-- where its pages are -/
  pages : x.pages = places
  /-- nothing of it is performed -/
  progress : x.progress = 0
  /-- nor done -/
  done : x.done = false
  /-- and it is not parked -/
  parked : x.parked = 0

/-- One page of a capture. -/
def State.capturePage (s0 : State) (y : Party) (k : AccKind) (r : State × Cap) (a : Nat) : State × Cap :=
  if r.2.parked ≠ 0 then r
  else match s0.xlate y a k with
    | .ok l b => ((r.1.translate y a k).1, { r.2 with pages := r.2.pages ++ [l], via := r.2.via ++ [s0.via y a k], nc := r.2.nc || decide (b ≠ 0) })
    | .park kind pte => let t := r.1.parkOn y a kind pte k; (t.1, { r.2 with parked := t.2 + 1 })
    | _ => r
theorem State.capture_eq (s0 s : State) (y : Party) (k : AccKind) (cap : Cap) :
    s0.capture s y k cap = (pageStarts (cap.va + 4 * cap.progress) (cap.len - 4 * cap.progress)).foldl (s0.capturePage y k)
      (s, { cap with pages := [], via := [], parked := 0, nc := decide (cap.policy = 1) }) := rfl
theorem capturePages_ok {s s0 : State} {y : Party} {acc : AccKind} {r : Req} (l : List Nat) (z : State × Cap) (ps : List Loc)
    (hl : ∀ a ∈ l, ∃ l b, s0.xlate y a acc = .ok l b) (hz : s.Walked z.1) (hp : Captured r ps z.2) :
    s.Walked (l.foldl (s0.capturePage y acc) z).1
      ∧ Captured r (ps ++ l.map (fun a => match s0.xlate y a acc with | .ok l _ => l | _ => .none)) (l.foldl (s0.capturePage y acc) z).2 := by
  induction l generalizing z ps with
  | nil => simpa using ⟨hz, hp⟩
  | cons a l ih =>
    obtain ⟨o, b, e⟩ := hl a List.mem_cons_self
    have hs : s0.capturePage y acc z a = ((z.1.translate y a acc).1, { z.2 with pages := z.2.pages ++ [o], via := z.2.via ++ [s0.via y a acc], nc := z.2.nc || decide (b ≠ 0) }) := by
      unfold State.capturePage
      rw [if_neg (by simp [hp.parked]), e]
    rw [List.foldl_cons, hs, List.map_cons, e]
    dsimp only
    rw [List.append_cons ps]
    refine ih _ (ps ++ [o]) (fun a' ha' => hl a' (List.mem_cons_of_mem _ ha')) (hz.translate _ _ _) ?_
    exact ⟨hp.va, hp.len, hp.data, congrArg (· ++ [o]) hp.pages, hp.progress, hp.done, hp.parked⟩
/-- A request whose pages translate captures their places. -/
theorem capture_ok {s s0 t : State} {y : Party} {acc : AccKind} {r : Req} {cap : Cap} (h : s.Walked t)
    (ok : ∀ a ∈ pageStarts r.va r.len, ∃ l b, s0.xlate y a acc = .ok l b)
    (hc : Captured r [] { cap with pages := [], parked := 0 }) :
    s.Walked (s0.capture t y acc cap).1 ∧ Captured r (s0.places y acc r) (s0.capture t y acc cap).2 := by
  have h1 : cap.va = r.va := hc.va
  have h2 : cap.len = r.len := hc.len
  have h3 : cap.progress = 0 := hc.progress
  rw [State.capture_eq, h1, h2, h3]
  exact capturePages_ok (pageStarts r.va r.len) _ [] ok h ⟨rfl, rfl, hc.data, rfl, rfl, hc.done, rfl⟩
/-- Captures put under the lanes of some requests, one after another. -/
theorem captures_fold {σ : Type} (g : σ → Req → σ × Cap) (P : σ → Prop) (Q : Req → Cap → Prop) (E : List Req)
    (hg : ∀ r ∈ E, ∀ t, P t → P (g t r).1 ∧ Q r (g t r).2) (hn : (E.map Req.lane).Nodup) (t : σ × Sparse Cap) (ht : P t.1) :
    let z := E.foldl (fun (t : σ × Sparse Cap) r => ((g t.1 r).1, Sparse.put t.2 r.lane (g t.1 r).2)) t
    P z.1 ∧ (∀ r ∈ E, ∃ x, Sparse.find z.2 r.lane = some x ∧ Q r x) ∧ ∀ l, (∀ r ∈ E, r.lane ≠ l) → Sparse.find z.2 l = Sparse.find t.2 l := by
  induction E generalizing t with
  | nil => exact ⟨ht, fun r hr => (nomatch hr), fun l _ => rfl⟩
  | cons r E ih =>
    obtain ⟨h1, h2⟩ := hg r List.mem_cons_self t.1 ht
    rw [List.map_cons, List.nodup_cons] at hn
    obtain ⟨i1, i2, i3⟩ := ih (fun r' hr' => hg r' (List.mem_cons_of_mem _ hr')) hn.2 ((g t.1 r).1, Sparse.put t.2 r.lane (g t.1 r).2) h1
    refine ⟨i1, fun r' hr' => ?_, fun l hl => ?_⟩
    · rcases List.mem_cons.mp hr' with rfl | hr'
      · refine ⟨_, (i3 _ (fun x hx e => hn.1 (List.mem_map.mpr ⟨x, hx, e⟩))).trans ?_, h2⟩
        rw [Sparse.find_put, if_pos rfl]
      · exact i2 r' hr'
    · refine (i3 l (fun x hx => hl x (List.mem_cons_of_mem _ hx))).trans ?_
      rw [Sparse.find_put, if_neg (hl r List.mem_cons_self).symm]

/-- A request without its hints. -/
def Req.bare (r : Req) : Req := { r with hints := [] }

/-- The captures of an entry: one for each lane of the requests. -/
structure Captures (e : RqEntry) (reqs : List Req) (places : Req → List Loc) : Prop where
  /-- each request has its capture -/
  each : ∀ r ∈ reqs, ∃ x, Sparse.find e.caps r.lane = some x ∧ Captured r (places r) x
  /-- other lanes have none -/
  only : ∀ l, (∀ r ∈ reqs, r.lane ≠ l) → Sparse.find e.caps l = none

/-! ### The entry of an issue -/

/-- A context whose replay queue has one entry more, which counts on a class. -/
def Ctx.enqueue (c : Ctx) (cls : Option CClass) (e : RqEntry) : Ctx :=
  { c.countIssue cls with rq := c.rq ++ [e], nextId := c.nextId + 1 }
/-- What an entry records of its issue. -/
structure Entered (i : Instr) (s : State) (c : Ctx) (kind : Nat) (cls : Option CClass) (holds : List RegName) (args : List Word)
    (obj : Loc) (e : RqEntry) : Prop where
  /-- no chunks -/
  chunks : e.chunks = []
  /-- its object -/
  obj : e.obj = obj
  /-- its number -/
  id : e.id = c.nextId
  /-- its instruction -/
  ins : e.ins = i
  /-- its address -/
  pc : e.pc = s.cur.pc
  /-- its kind -/
  kind : e.kind = kind
  /-- its counter -/
  cls : e.cls = cls
  /-- the registers it holds -/
  holds : e.holds = holds
  /-- what else it records -/
  args : e.args = args
theorem enqueue_lane (c : Ctx) (cls : Option CClass) (e : RqEntry) (l : Nat) : (c.enqueue cls e).lane l = c.lane l := by
  cases cls <;> rfl
/-- What an issue leaves of its context. -/
theorem depart_enqueue (s : State) (i : Instr) (coh act : List Nat) (c : Ctx) (cls : Option CClass) (e : RqEntry) :
    let c' := s.depart i coh ((c.begun i act).enqueue cls e)
    c' = { c.countIssue cls with lanes := c'.lanes, rq := c.rq ++ [e], nextId := c.nextId + 1, yld := c'.yld, prio := c'.prio
                                 misses := c'.misses, hold := none, withdrawn := false, missAt := none } := by
  intro c'
  have key : ∀ x d : Ctx, x = s.depart i coh d → x = { d with lanes := x.lanes, misses := x.misses, hold := none, withdrawn := false, missAt := none } := by
    rintro x d rfl
    exact depart_only s i coh d
  have h := key c' _ rfl
  have hb := begun_only c i act
  have hc : (c.begun i act).enqueue cls e = { c.countIssue cls with rq := c.rq ++ [e], nextId := c.nextId + 1, yld := (c.begun i act).yld, prio := (c.begun i act).prio } := by
    rw [hb]
    cases cls <;> rfl
  rw [hc] at h
  clear_value c'
  have hy := congrArg Ctx.yld h
  have hp := congrArg Ctx.prio h
  rw [hy, hp]
  exact h
/-- A state whose translations have led on from another, but for one context. -/
structure State.Reaches (k : Nat) (s t : State) : Prop where
  /-- nothing but packages, their memory and contexts -/
  rest : t = { s with pkgs := t.pkgs, hbm := t.hbm, ctxs := t.ctxs }
  /-- without slots, the memory stands -/
  still : (∀ p, (s.pkg p).slots = []) → t.hbm = s.hbm
  /-- other contexts stand -/
  others : ∀ j, j ≠ k → t.ctx j = s.ctx j
theorem State.Walked.reaches {s t : State} (h : s.Walked t) (k : Nat) : s.Reaches k t :=
  ⟨by rw [h.rest], fun hs => (h.still hs).1, fun j _ => by rw [h.rest]; rfl⟩
theorem State.Walked.reaches_hinted {s t : State} {i : Instr} {act : List Nat} (h : (s.hinted i act).Walked t) : s.Reaches s.cur.ctx t := by
  have hr : s.hinted i act = { s with ctxs := (s.hinted i act).ctxs } := by
    unfold State.hinted
    split <;> rfl
  refine ⟨?_, fun hs => ?_, fun j hj => ?_⟩
  · rw [h.rest, hr]
  · exact (h.still (fun p => by rw [hinted_pkg]; exact hs p)).1.trans (by rw [hr])
  · rw [h.rest]
    exact hinted_ctx_other hj
/-- An issue that appends an entry in a state that translations reach. -/
theorem queued_of {s s1 u : State} {i : Instr} {c : Ctx} {act : List Nat} (h : Issues s i c act) (body : State → Ctx → List Nat → Eff)
    (hx : exec i s = gate i s body) {F : Ctx → Ctx} {e : RqEntry} {kind : Nat} {cls : Option CClass} {holds : List RegName} {args : List Word}
    {obj : Loc} {reqs : List Req} {places : Req → List Loc}
    (hb : body (s.hinted i act) (c.begun i act) act = .ok (u.modCtx s.cur.ctx F)) (hF : F (c.begun i act) = (c.begun i act).enqueue cls e)
    (hu : Sparse.find u.ctxs s.cur.ctx = some (c.begun i act)) (hw : s1.Reaches s.cur.ctx u) (he : Entered i s c kind cls holds args obj e)
    (hcaps : Captures e reqs places) : Queued i s s1 c kind cls holds args reqs places obj := by
  refine ⟨_, s.depart i (s.cohort c) ((c.begun i act).enqueue cls e), e, hx.trans (gate_ok h body hb), ?_, he.obj, he.chunks, he.id, he.ins, he.pc, he.kind, he.cls, he.holds, he.args,
    fun r hr => ?_, hcaps.only, depart_enqueue .., fun l => ?_, fun hs => ?_, ?_, ?_, ?_, ?_, fun j hj => ?_⟩
  · rw [State.modCtx_modCtx, State.ctx_modCtx _ _ _ _ hu, hF]
  · obtain ⟨x, h1, h2⟩ := hcaps.each r hr
    exact ⟨x, h1, h2.va, h2.len, h2.data, h2.pages, h2.progress, h2.done, h2.parked⟩
  · rw [depart_lane _ _ _ (cohort_nodup s c), enqueue_lane, begun_lane]
    rfl
  · exact hw.still hs
  · exact (congrArg State.host hw.rest : u.host = _)
  · exact (congrArg State.units hw.rest : u.units = _)
  · exact (congrArg State.grids hw.rest : u.grids = _)
  · exact (congrArg State.msis hw.rest : u.msis = _)
  · rw [State.ctx_modCtx_ne _ _ _ _ hj, State.ctx_modCtx_ne _ _ _ _ hj, hw.others j hj]


/-! ### Global accesses -/

theorem takes_unhint {s : State} {c : Ctx} {cls : Option CClass} {acc : AccKind} {eng : Bool} {E : List Req}
    (h : Takes s c cls acc eng (E.map Req.bare)) : Takes s c cls acc eng E where
  aligned r hr := h.aligned r.bare (List.mem_map_of_mem hr)
  inside r hr := h.inside r.bare (List.mem_map_of_mem hr)
  room := by
    have := h.room
    rw [List.flatMap_map] at this
    exact this
  pages r hr := h.pages r.bare (List.mem_map_of_mem hr)
/-- Captures of requests with hints are those of the requests without them. -/
theorem Captures.bare {e : RqEntry} {E : List Req} {places : Req → List Loc} (hp : ∀ r, places r.bare = places r) (h : Captures e E places) :
    Captures e (E.map Req.bare) places where
  each := by
    intro r hr
    obtain ⟨q, hq, rfl⟩ := List.mem_map.mp hr
    obtain ⟨x, h1, h2⟩ := h.each q hq
    rw [hp]
    exact ⟨x, h1, h2.va, h2.len, h2.data, h2.pages, h2.progress, h2.done, h2.parked⟩
  only l hl := h.only l (fun r hr => hl r.bare (List.mem_map_of_mem hr))
/-- The entry that an issue appends, as its context keeps it. -/
def State.entryAs (s : State) (c : Ctx) (e : RqEntry) : RqEntry :=
  { e with id := c.nextId, at' := s.cycle, serial := match e.cls with | some k => c.issuedOf k | none => 0 }
theorem begun_nextId (c : Ctx) (i : Instr) (act : List Nat) : (c.begun i act).nextId = c.nextId := by rw [begun_only]
/-- What the issue of a global access leaves, once its requests are taken. -/
theorem memIssue_queues {s : State} {c : Ctx} {cls : Option CClass} {acc : AccKind} {eng : Bool} {E : List Req}
    (h : Takes s c cls acc eng (E.map Req.bare)) (hn : (E.map Req.lane).Nodup) (i : Instr) (leader kind : Nat) (holds : List RegName) (args : List Word) :
    ∃ u e, memIssue i s c leader kind acc cls holds args eng E = .ok (u.addEntry s.cur.ctx e) ∧ s.Walked u
      ∧ Captures e (E.map Req.bare) (s.places (s.partyOf c eng) acc) ∧ ∃ caps, e = s.mkEntry c i leader kind cls holds caps args := by
  have ht := takes_unhint h
  obtain ⟨h1, h2, h3⟩ := captures_fold
    (fun t r => s.capture t (s.partyOf c eng) acc { va := r.va, len := r.len, data := r.data, policy := policyHint r.hints, hints := r.hints })
    s.Walked (fun r x => Captured r (s.places (s.partyOf c eng) acc r) x) E (fun r hr t hs => capture_ok hs (ht.pages r hr) ⟨rfl, rfl, rfl, rfl, rfl, rfl, rfl⟩)
    hn (s, []) (.refl s)
  exact ⟨_, _, memIssue_ok ht i leader kind holds args, h1, .bare (fun _ => rfl) ⟨h2, h3⟩, _, rfl⟩
/-- R207: instructions whose effect is the issue of one global access. -/
theorem queues_of {i : Instr} {rel : Option Nat} {kind : Nat} {acc : AccKind} {cls : Option CClass} {eng : Bool} {holds : List RegName}
    {args : Ctx → List Nat → List Word} {reqs : Ctx → List Nat → List Req} (E : Ctx → List Nat → List Req)
    (hE : ∀ c act, (E (c.begun i act) act).map Req.bare = reqs c act) (hn : ∀ c act, act.Nodup → ((E c act).map Req.lane).Nodup)
    (hx : ∀ s c act, Issues s i c act → (∀ lvl, rel = some lvl → ∀ l ∈ act, s.Ordered c [l] lvl) → reqFault (E (c.begun i act) act) = none →
      ∃ body leader, exec i s = gate i s body ∧ ∀ u,
        memIssue i (s.beforeAccess i c act rel) (c.begun i act) leader kind acc cls holds (args c act) eng (E (c.begun i act) act) = .ok u →
        body (s.hinted i act) (c.begun i act) act = .ok u) :
    Queues i rel kind acc cls eng holds args reqs := by
  intro s c act h ho ht
  rw [← hE] at ht ⊢
  have hf : reqFault (E (c.begun i act) act) = none := by
    have hb := takes_unhint ht
    unfold reqFault
    rw [List.filter_eq_nil_iff.mpr (fun r hr => by simpa using hb.aligned r hr), List.filter_eq_nil_iff.mpr (fun r hr => by simpa using hb.inside r hr)]
  have hh : (s.hinted i act).Homes (s.beforeAccess i c act rel) := by
    cases rel with
    | none => exact .refl _
    | some lvl => exact (State.Homes.refl _).release _ _
  obtain ⟨body, leader, hx, hb⟩ := hx s c act h ho hf
  obtain ⟨u, e, h1, h2, h3, caps, rfl⟩ := memIssue_queues ht (hn _ _ h.nodup) i leader kind holds (args c act)
  have hcur : (s.beforeAccess i c act rel).cur = s.cur := by
    rw [hh.rest]
    exact State.hinted_cur ..
  have hctxs : u.ctxs = (s.hinted i act).ctxs := by
    rw [h2.rest, hh.rest]
  rw [hcur] at h1
  exact queued_of h body hx (hb _ h1) rfl (by rw [hctxs]; exact hinted_find h) (h2.reaches _)
    ⟨rfl, rfl, begun_nextId .., rfl, congrArg Issue.pc hcur, rfl, rfl, rfl, rfl⟩ ⟨h3.each, h3.only⟩

theorem rdPairV_lt (c : Ctx) (n l : Nat) : c.rdPairV n l < 2 ^ 64 := by
  have h1 := (c.rdV n l).isLt
  have h2 := (c.rdV (n + 1) l).isLt
  unfold Ctx.rdPairV
  omega
theorem effAddr_zero (c : Ctx) (n l : Nat) (k : Int) : effAddr (c.rdPairV n l) (0 * k) = c.rdPairV n l := by
  have := rdPairV_lt c n l
  unfold effAddr
  omega
theorem begun_rdPairG (c : Ctx) (i : Instr) (act : List Nat) (n : Nat) : (c.begun i act).rdPairG n = c.rdPairG n := by
  unfold Ctx.rdPairG; simp only [begun_rdG]
theorem begun_rdTile (c : Ctx) (i : Instr) (act : List Nat) (t : Nat) : (c.begun i act).rdTile t = c.rdTile t := by
  unfold Ctx.begun; split <;> rfl
theorem begun_sPayload (c : Ctx) (i : Instr) (act : List Nat) (n : Nat) : (c.begun i act).sPayload n = c.sPayload n := by
  unfold Ctx.begun; split <;> rfl
theorem begun_sctl (c : Ctx) (i : Instr) (act : List Nat) : (c.begun i act).sctl = c.sctl := by
  unfold Ctx.begun; split <;> rfl
theorem storeWords_begun (c : Ctx) (i : Instr) (act : List Nat) (d l : Nat) (sz : Size) :
    storeWords (c.begun i act) d l sz = (sizeRegs d sz).map (fun n => c.rdV n l) := by
  unfold storeWords; simp only [begun_rdV]
/-- Requests of the acting lanes, one each. -/
theorem lanes_nodup {act : List Nat} (hn : act.Nodup) (f : Nat → Req) (hf : ∀ l, (f l).lane = l) : ((act.map f).map Req.lane).Nodup := by
  rw [List.map_map]
  have : Req.lane ∘ f = id := funext hf
  rwa [this, List.map_id]
/-- Requests of the acting lanes without their hints. -/
theorem map_bare (act : List Nat) (f g : Nat → Req) (h : ∀ l, (f l).bare = g l) : (act.map f).map Req.bare = act.map g := by
  rw [List.map_map]
  exact congrArg (fun k => act.map k) (funext h)
/-- An issue by each acting lane. -/
theorem queues_lanes {i : Instr} {kind : Nat} {acc : AccKind} {cls : Option CClass} {holds : List RegName} (f g : Ctx → Nat → Req)
    (hl : ∀ c l, (f c l).lane = l) (hb : ∀ c act l, (f (c.begun i act) l).bare = g c l)
    (hx : ∀ s, exec i s = gate i s (fun s c act => memIssue i s c (act.headD 0) kind acc cls holds [] false (act.map (f c)))) :
    Queues i none kind acc cls false holds (fun _ _ => []) (fun c act => act.map (g c)) :=
  queues_of (fun c act => act.map (f c)) (fun c act => map_bare _ _ _ (hb c act)) (fun c act hn => lanes_nodup hn _ (hl c))
    (fun s c act h _ _ => ⟨_, _, hx s, fun u hu => hu⟩)
/-- An issue by each acting lane, after a release. -/
theorem queues_releasing {i : Instr} {kind : Nat} {acc : AccKind} {cls : Option CClass} {holds : List RegName} {lvl : Nat} (f g : Ctx → Nat → Req)
    (hl : ∀ c l, (f c l).lane = l) (hb : ∀ c act l, (f (c.begun i act) l).bare = g c l)
    (hx : ∀ s, exec i s = gate i s (fun s c act => faultsFirst (reqFault (act.map (f c)))
      (releasing s c act lvl (fun s act => memIssue i s c (act.headD 0) kind acc cls holds [] false (act.map (f c)))))) :
    Queues i (some lvl) kind acc cls false holds (fun _ _ => []) (fun c act => act.map (g c)) :=
  queues_of (fun c act => act.map (f c)) (fun c act => map_bare _ _ _ (hb c act)) (fun c act hn => lanes_nodup hn _ (hl c))
    (fun s c act h ho hf => ⟨_, _, hx s, fun u hu => by
      rw [hf]
      exact (releasing_now (ho lvl rfl) _).trans hu⟩)
/-- An issue of one request, by the leader lane. -/
theorem queues_leader {i : Instr} {kind : Nat} {acc : AccKind} {cls : Option CClass} {holds : List RegName} (f : Ctx → Nat → Req)
    (hb : ∀ c act l, (f (c.begun i act) l).bare = (f c l).bare)
    (hx : ∀ s, exec i s = oncePerIssue i s (fun s c l _ => memIssue i s c l kind acc cls holds [] false [f c l])) :
    Queues i none kind acc cls false holds (fun _ _ => []) (fun c act => [(f c (act.headD 0)).bare]) :=
  queues_of (fun c act => [f c (act.headD 0)]) (fun c act => congrArg (fun r => [r]) (hb c act _)) (fun c act _ => List.nodup_singleton _)
    (fun s c act h _ _ => ⟨_, _, (hx s).trans (oncePerIssue_eq ..), fun u hu => onceBody_eq h.some hu (fun _ _ _ => nofun)⟩)
/-- A load or store of a size by each acting lane. -/
def sizedReq (c : Ctx) (d b : Nat) (off : Nat → Int) (sz : Size) (store : Bool) (l : Nat) : Req :=
  { lane := l, va := effAddr (c.rdPairV b l) (off l * Size.bytes sz), len := Size.bytes sz, align := Size.bytes sz
    data := if store then storeWords c d l sz else [], hints := (c.lane l).hints }

theorem queues_ld : ∀ g d b off sz sx,
    Queues (.ld g d b off sz sx) none 0 .read none false ((sizeRegs d sz).map .v) (fun _ _ => [])
      (fun c act => act.map (fun l =>
        { lane := l, va := effAddr (c.rdPairV b l) (wideImm 6 off (c.lane l).hints * sz.bytes), len := sz.bytes, align := sz.bytes })) := by
  intro g d b off sz sx
  refine queues_lanes (fun c l => sizedReq c d b (fun l => wideImm 6 off (c.lane l).hints) sz false l) _ (fun c l => rfl) (fun c act l => ?_) (fun s => exec_ld_eq ..)
  simp only [sizedReq, Req.bare, begun_rdPairV, begun_lane, Bool.false_eq_true, if_false]
  rfl
theorem queues_ldAcq : ∀ g d b lvl sz sx,
    Queues (.ldAcq g d b lvl sz sx) none 0 .read none false ((sizeRegs d sz).map .v) (fun _ _ => [])
      (fun c act => act.map (fun l =>
        { lane := l, va := c.rdPairV b l, len := sz.bytes, align := sz.bytes })) := by
  intro g d b lvl sz sx
  refine queues_lanes (fun c l => sizedReq c d b (fun _ => 0) sz false l) _ (fun c l => rfl) (fun c act l => ?_) (fun s => exec_ldAcq_eq ..)
  simp only [sizedReq, Req.bare, begun_rdPairV, effAddr_zero, Bool.false_eq_true, if_false]
  rfl
theorem queues_st : ∀ g d b off sz,
    Queues (.st g d b off sz) none 1 .write (some .store) false [] (fun _ _ => [])
      (fun c act => act.map (fun l =>
        { lane := l, va := effAddr (c.rdPairV b l) (wideImm 6 off (c.lane l).hints * sz.bytes), len := sz.bytes, align := sz.bytes, data := (sizeRegs d sz).map (fun n => c.rdV n l) })) := by
  intro g d b off sz
  refine queues_lanes (fun c l => sizedReq c d b (fun l => wideImm 6 off (c.lane l).hints) sz true l) _ (fun c l => rfl) (fun c act l => ?_) (fun s => exec_st_eq ..)
  simp only [sizedReq, Req.bare, begun_rdPairV, begun_lane, if_true, storeWords_begun]
  rfl
theorem queues_stRel : ∀ g d b lvl sz,
    Queues (.stRel g d b lvl sz) (some lvl) 1 .write (some .store) false [] (fun _ _ => [])
      (fun c act => act.map (fun l =>
        { lane := l, va := c.rdPairV b l, len := sz.bytes, align := sz.bytes, data := (sizeRegs d sz).map (fun n => c.rdV n l) })) := by
  intro g d b lvl sz
  refine queues_releasing (fun c l => sizedReq c d b (fun _ => 0) sz true l) _ (fun c l => rfl) (fun c act l => ?_) (fun s => exec_stRel_eq ..)
  simp only [sizedReq, Req.bare, begun_rdPairV, effAddr_zero, if_true, storeWords_begun]
  rfl
theorem queues_ldm : ∀ g d b n,
    Queues (.ldm g d b n) none 4 .read none false (vRun d n) (fun _ _ => [])
      (fun c act => act.map (fun l => { lane := l, va := c.rdPairV b l, len := 4 * n, align := 4 })) := by
  intro g d b n
  refine queues_lanes (fun c l => { lane := l, va := c.rdPairV b l, len := 4 * n, align := 4, hints := (c.lane l).hints : Req }) _
      (fun c l => rfl) (fun c act l => ?_) (fun s => exec_ldm_eq ..)
  simp only [Req.bare, begun_rdPairV]
theorem queues_stm : ∀ g d b n,
    Queues (.stm g d b n) none 4 .write (some .store) false [] (fun _ _ => [])
      (fun c act => act.map (fun l =>
        { lane := l, va := c.rdPairV b l, len := 4 * n, align := 4, data := (List.range n).map (fun j => c.rdV (d + j) l) })) := by
  intro g d b n
  refine queues_lanes (fun c l => { lane := l, va := c.rdPairV b l, len := 4 * n, align := 4, hints := (c.lane l).hints, data := (List.range n).map (fun j => c.rdV (d + j) l) : Req }) _
      (fun c l => rfl) (fun c act l => ?_) (fun s => exec_stm_eq ..)
  simp only [Req.bare, begun_rdPairV, begun_rdV]
theorem queues_ldt : ∀ g t b off,
    Queues (.ldt g t .global b off) none 5 .read none false [.t t] (fun _ _ => [])
      (fun c act => [{ lane := act.headD 0, len := 1024, align := 64, va := effAddr (c.rdPairG b) (wideImm 6 off (c.lane (act.headD 0)).hints * 1024) }]) := by
  intro g t b off
  refine queues_leader (fun c l => { lane := l, va := effAddr (c.rdPairG b) (wideImm 6 off (c.lane l).hints * 1024), len := 1024, align := 64, data := [], hints := (c.lane l).hints })  (fun c act l => ?_) (fun s => exec_ldt_eq ..)
  simp only [Req.bare, begun_rdPairG, begun_lane]
/-- What STT captures of its tile. -/
def sttReq (t b : Nat) (off : Int) (c : Ctx) (l : Nat) : Req :=
  { lane := l, va := effAddr (c.rdPairG b) (wideImm 6 off (c.lane l).hints * 1024), len := 1024, align := 64, data := bytesWords (c.rdTile t), hints := (c.lane l).hints }
theorem sttReq_bare (t b : Nat) (off : Int) (c : Ctx) (l : Nat) : (sttReq t b off c l).bare =
    { lane := l, len := 1024, align := 64, data := bytesWords (c.rdTile t), va := effAddr (c.rdPairG b) (wideImm 6 off (c.lane l).hints * 1024) } := by
  simp only [sttReq, Req.bare]
theorem queues_stt : ∀ g t b off,
    Queues (.stt g t .global b off) none 5 .write (some .store) false [] (fun _ _ => [])
      (fun c act => [{ lane := act.headD 0, len := 1024, align := 64, data := bytesWords (c.rdTile t), va := effAddr (c.rdPairG b) (wideImm 6 off (c.lane (act.headD 0)).hints * 1024) }]) := by
  intro g t b off
  simp only [← sttReq_bare]
  refine queues_leader (sttReq t b off) (fun c act l => ?_) (fun s => exec_stt_eq ..)
  simp only [sttReq_bare, begun_rdPairG, begun_lane, begun_rdTile]
theorem queues_atom : ∀ g d b lvl op,
    Queues (.atom g d b lvl op) (some lvl) 2 .atomic none false [.v d] (fun _ _ => [])
      (fun c act => act.map (fun l => { lane := l, va := c.rdPairV b l, len := 4, align := 4, data := [c.rdV d l] })) := by
  intro g d b lvl op
  refine queues_releasing (fun c l => { lane := l, va := c.rdPairV b l, len := 4, align := 4, data := [d].map (fun n => c.rdV n l), hints := (c.lane l).hints }) _
      (fun c l => rfl) (fun c act l => ?_) (fun s => exec_atom_eq ..)
  simp only [Req.bare, begun_rdPairV, begun_rdV, List.map_cons, List.map_nil]
theorem queues_cas : ∀ g d b lvl,
    Queues (.cas g d b lvl) (some lvl) 2 .atomic none false [.v d, .v (d + 1)] (fun _ _ => [])
      (fun c act => act.map (fun l =>
        { lane := l, va := c.rdPairV b l, len := 4, align := 4, data := [c.rdV d l, c.rdV (d + 1) l] })) := by
  intro g d b lvl
  refine queues_releasing (fun c l => { lane := l, va := c.rdPairV b l, len := 4, align := 4, data := [d, d + 1].map (fun n => c.rdV n l), hints := (c.lane l).hints }) _
      (fun c l => rfl) (fun c act l => ?_) (fun s => exec_cas_eq ..)
  simp only [Req.bare, begun_rdPairV, begun_rdV, List.map_cons, List.map_nil]
theorem queues_gld : ∀ g d b off,
    Queues (.gld g d b off) none 0 .read none false [.g d] (fun _ _ => [])
      (fun c act => [{ lane := act.headD 0, len := 4, align := 4, va := effAddr (c.rdPairG b) (wideImm 6 off (c.lane (act.headD 0)).hints * 4) }]) := by
  intro g d b off
  refine queues_leader (fun c l => { lane := l, hints := (c.lane l).hints, va := effAddr (c.rdPairG b) (wideImm 6 off (c.lane l).hints * 4), len := 4, align := 4 }) (fun c act l => ?_) (fun s => exec_gld_eq ..)
  simp only [Req.bare, begun_rdPairG, begun_lane]
theorem queues_gst : ∀ g d b off,
    Queues (.gst g d b off) none 1 .write (some .store) false [] (fun _ _ => [])
      (fun c act => [{ lane := act.headD 0, len := 4, align := 4, data := [c.rdG d], va := effAddr (c.rdPairG b) (wideImm 6 off (c.lane (act.headD 0)).hints * 4) }]) := by
  intro g d b off
  refine queues_leader (fun c l => { lane := l, hints := (c.lane l).hints, va := effAddr (c.rdPairG b) (wideImm 6 off (c.lane l).hints * 4), len := 4, align := 4, data := [c.rdG d] })  (fun c act l => ?_) (fun s => exec_gst_eq ..)
  simp only [Req.bare, begun_rdPairG, begun_lane, begun_rdG]
theorem queues_sld : ∀ g d b off,
    Queues (.sld g d b off) none 0 .read none false [.s d] (fun _ _ => [])
      (fun c act => [{ lane := act.headD 0, len := 40, align := 8, va := effAddr (c.rdPairG b) (wideImm 6 off (c.lane (act.headD 0)).hints * 40) }]) := by
  intro g d b off
  refine queues_leader (fun c l => { lane := l, hints := (c.lane l).hints, va := effAddr (c.rdPairG b) (wideImm 6 off (c.lane l).hints * 40), len := 40, align := 8 }) (fun c act l => ?_) (fun s => exec_sld_eq ..)
  simp only [Req.bare, begun_rdPairG, begun_lane]
theorem queues_sst : ∀ g d b off,
    Queues (.sst g d b off) none 1 .write (some .store) false [] (fun _ _ => [])
      (fun c act => [{ lane := act.headD 0, len := 40, align := 8, data := bytesWords (c.sPayload d ++ bytesOfNat 8 (c.sGen d + if c.sBand d then 16 else 0)), va := effAddr (c.rdPairG b) (wideImm 6 off (c.lane (act.headD 0)).hints * 40) }]) := by
  intro g d b off
  simp only [← sctl_word]
  refine queues_leader (fun c l => { lane := l, hints := (c.lane l).hints, va := effAddr (c.rdPairG b) (wideImm 6 off (c.lane l).hints * 40), len := 40, align := 8, data := bytesWords (c.sPayload d ++ bytesOfNat 8 (Sparse.get 0 c.sctl d).toNat) })  (fun c act l => ?_) (fun s => exec_sst_eq ..)
  simp only [Req.bare, begun_rdPairG, begun_lane, begun_sPayload, begun_sctl, sctl_word]

/-- Settles O10: the requests of each form, and what its entry captures of them. -/
theorem globalAccessesIssue : Obligations.GlobalAccessesIssue :=
  ⟨queues_ld, queues_ldAcq, queues_st, queues_stRel, queues_ldm, queues_stm, queues_ldt, queues_stt, queues_atom, queues_cas, queues_gld, queues_gst, queues_sld, queues_sst⟩

end Sys2Proof.Machine
end

section
/-! Accesses of local spaces: core store, cluster memory and the stash (R203 to R205, R209, R212, R216). -/

namespace Sys2Proof.Machine

/-! ### What noting the hints of an issue leaves of the checks -/

theorem foldl_filter_adjust {α β : Type} (m : Sparse α) (n : Nat) (f : α → α) (p : Nat × α → Bool) (g : β → Nat × α → β)
    (hp : ∀ k a, p (k, f a) = p (k, a)) (hg : ∀ b k a, g b (k, f a) = g b (k, a)) (b : β) :
    ((Sparse.adjust m n f).filter p).foldl g b = (m.filter p).foldl g b := by
  induction m generalizing b with
  | nil => rfl
  | cons e m ih =>
    obtain ⟨k, a⟩ := e
    by_cases h : n = k
    · simp only [Sparse.adjust, if_pos h, List.filter_cons, hp]
      split
      · simp only [List.foldl_cons, hg]
      · rfl
    · simp only [Sparse.adjust, if_neg h, List.filter_cons]
      split
      · simp only [List.foldl_cons, ih]
      · exact ih b
theorem hinted_coreStore (s : State) (i : Instr) (c : Ctx) (act : List Nat) (a n : Nat) :
    (s.hinted i act).coreStore (c.begun i act) a n = s.coreStore c a n := by
  unfold State.hinted Ctx.begun; split <;> rfl
theorem hinted_clusterMem (s : State) (i : Instr) (c : Ctx) (act : List Nat) (a n : Nat) :
    (s.hinted i act).clusterMem (c.begun i act) a n = s.clusterMem c a n := by
  unfold State.hinted Ctx.begun; split <;> rfl
theorem hinted_slotsUsed (s : State) (i : Instr) (c : Ctx) (act : List Nat) : (s.hinted i act).slotsUsed (c.begun i act) = s.slotsUsed c := by
  unfold State.hinted Ctx.begun
  split
  · rfl
  · exact foldl_filter_adjust s.ctxs s.cur.ctx (fun c => c.schedule act)
      (fun x => decide (x.2.pkg = c.pkg) && decide (x.2.site = c.site) && decide (s.onCore x.2 = s.onCore c)
        && (s.onCore c || decide (x.2.unit = c.unit)))
      (fun n x => x.2.rq.foldl (fun n e => n + e.slots) n) (fun _ _ => rfl) (fun _ _ _ => rfl) 0
theorem begun_rq (c : Ctx) (i : Instr) (act : List Nat) : (c.begun i act).rq = c.rq := by rw [begun_only]
theorem hinted_noRoom (s : State) (i : Instr) (c : Ctx) (act : List Nat) (cls : Option CClass) (b : Bool) (n : Nat) :
    (s.hinted i act).noRoom (c.begun i act) cls b n = s.noRoom c cls b n := by
  unfold State.noRoom
  rw [hinted_slotsUsed, begun_rq]
  simp only [begun_counter]

/-! ### Accesses of core store and of cluster memory -/

/-- What the issue of a local access leaves, once its requests are taken. -/
theorem localIssue_queues {s : State} {c : Ctx} {cls : Option CClass} {res : Req → LRes} {E : List Req} (hr : ∀ r, res r.bare = res r)
    (h : TakesLocal s c cls res (E.map Req.bare)) (hn : (E.map Req.lane).Nodup) (i : Instr) (leader kind : Nat) (holds : List RegName) (args : List Word) :
    ∃ caps, localIssue i s c leader kind cls holds args res E = .ok (s.addEntry s.cur.ctx (s.mkEntry c i leader kind cls holds caps args))
      ∧ Captures (s.mkEntry c i leader kind cls holds caps args) (E.map Req.bare) (fun r => (res r).places) := by
  have ht : TakesLocal s c cls res E := ⟨fun r hm => h.aligned r.bare (List.mem_map_of_mem hm), fun r hm => by
    have := h.placed r.bare (List.mem_map_of_mem hm)
    rwa [hr] at this, h.room⟩
  have hc := captures_fold (fun (_ : Unit) r => ((), { va := r.va, len := r.len, data := r.data, hints := r.hints, pages := match res r with | .ok l => [l] | _ => [] : Cap }))
    (fun _ => True) (fun r x => Captured r (res r).places x) E (fun r hm t _ => ⟨trivial, rfl, rfl, rfl, by
      obtain ⟨l, e⟩ := ht.placed r hm
      dsimp only
      rw [e]
      rfl, rfl, rfl, rfl⟩) hn ((), []) trivial
  have hf : ∀ t : Unit × Sparse Cap, (E.foldl (fun (t : Unit × Sparse Cap) r => ((), Sparse.put t.2 r.lane
      { va := r.va, len := r.len, data := r.data, hints := r.hints, pages := match res r with | .ok l => [l] | _ => [] : Cap })) t).2
      = E.foldl (fun m r => Sparse.put m r.lane { va := r.va, len := r.len, data := r.data, hints := r.hints, pages := match res r with | .ok l => [l] | _ => [] }) t.2 :=
    fun t => (List.foldl_hom Prod.snd (fun _ _ => rfl)).symm
  obtain ⟨-, h2, h3⟩ := hc
  rw [hf] at h2 h3
  exact ⟨_, localIssue_ok ht i leader kind holds args, .bare (fun r => congrArg LRes.places (hr r)) ⟨h2, h3⟩⟩
/-- R207: instructions whose effect is the issue of one local access. -/
theorem queuesLocal_of {i : Instr} {kind : Nat} {cls : Option CClass} {holds : List RegName} {res : State → Ctx → Req → LRes}
    {reqs : Ctx → List Nat → List Req} (hr : ∀ s c r, res s c r.bare = res s c r) (hh : ∀ s c act r, res (s.hinted i act) (c.begun i act) r = res s c r)
    (E : Ctx → List Nat → List Req) (hE : ∀ c act, (E (c.begun i act) act).map Req.bare = reqs c act) (hn : ∀ c act, act.Nodup → ((E c act).map Req.lane).Nodup)
    (hx : ∀ s c act, Issues s i c act → ∃ body leader, exec i s = gate i s body ∧ ∀ u,
        localIssue i (s.hinted i act) (c.begun i act) leader kind cls holds [] (res (s.hinted i act) (c.begun i act)) (E (c.begun i act) act) = .ok u →
        body (s.hinted i act) (c.begun i act) act = .ok u) :
    QueuesLocal i kind cls holds res reqs := by
  intro s c act h ht
  rw [← hE] at ht ⊢
  have he : res (s.hinted i act) (c.begun i act) = res s c := funext (hh s c act)
  have ht' : TakesLocal (s.hinted i act) (c.begun i act) cls (res s c) ((E (c.begun i act) act).map Req.bare) :=
    ⟨ht.aligned, ht.placed, (hinted_noRoom ..).trans ht.room⟩
  obtain ⟨body, leader, hx, hb⟩ := hx s c act h
  obtain ⟨caps, h1, h2⟩ := localIssue_queues (hr s c) ht' (hn _ _ h.nodup) i leader kind holds []
  rw [he] at hb
  rw [State.hinted_cur] at h1
  exact queued_of h body hx (hb _ h1) rfl (hinted_find h) ((State.Walked.refl _).reaches_hinted)
    ⟨rfl, rfl, begun_nextId .., rfl, congrArg Issue.pc (State.hinted_cur ..), rfl, rfl, rfl, rfl⟩ ⟨h2.each, h2.only⟩
/-- A local load or store of a size by each acting lane. -/
def localReq (c : Ctx) (d b : Nat) (off : Int) (sz : Size) (store : Bool) (l : Nat) : Req :=
  { lane := l, va := localAddr (c.rdV b l) (wideImm 6 off (c.lane l).hints * Size.bytes sz), len := Size.bytes sz, align := Size.bytes sz
    data := if store then storeWords c d l sz else [], hints := (c.lane l).hints }
theorem queuesLocal_lanes {i : Instr} {d b : Nat} {off : Int} {sz : Size} (store : Bool) {res : State → Ctx → Nat → Nat → LRes}
    (hh : ∀ s c act a n, res (s.hinted i act) (c.begun i act) a n = res s c a n)
    (hx : ∀ s, exec i s = gate i s (fun s c act => localLanes i s c act d b off sz store (res s))) :
    QueuesLocal i (if store then 1 else 0) (if store then some .store else none) (if store then [] else (sizeRegs d sz).map .v)
      (fun s c r => res s c r.va r.len) (fun c act => act.map (fun l => (localReq c d b off sz store l).bare)) :=
  queuesLocal_of (fun _ _ _ => rfl) (fun _ _ _ _ => hh ..) (fun c act => act.map (localReq c d b off sz store))
    (fun c act => map_bare _ _ _ (fun l => by
      simp only [localReq, Req.bare, begun_rdV, begun_lane, storeWords, begun_lane]))
    (fun c act hn => lanes_nodup hn _ (fun _ => rfl)) (fun s c act h => ⟨_, act.headD 0, hx s, fun u hu => hu⟩)
/-- A local tile access of the leader lane. -/
def tileReq (b : Nat) (off : Int) (data : Ctx → List Word) (c : Ctx) (l : Nat) : Req :=
  { lane := l, va := localAddr (c.rdG b) (wideImm 6 off (c.lane l).hints * 1024), len := 1024, align := 64, data := data c, hints := (c.lane l).hints }
/-- The local space of a tile access. -/
def spaceRes (sp : TSpace) (s : State) (c : Ctx) (r : Req) : LRes := if sp = .core then s.coreStore c r.va r.len else s.clusterMem c r.va r.len
theorem spaceIssue_local {sp : TSpace} (h : sp ≠ .global) (i : Instr) (s : State) (c : Ctx) (l kind : Nat) (acc : AccKind) (cls : Option CClass)
    (holds : List RegName) (b : Nat) (off : Int) (data : Ctx → List Word) :
    spaceIssue i s c l kind sp acc cls holds [] b (wideImm 6 off (c.lane l).hints * 1024) (data c)
      = localIssue i s c l kind cls holds [] (spaceRes sp s c) [tileReq b off data c l] := by
  cases sp with
  | global => exact absurd rfl h
  | core => rfl
  | cluster => rfl
theorem queuesLocal_tile {i : Instr} {sp : TSpace} (h : sp ≠ .global) {b : Nat} {off : Int} {cls : Option CClass} {acc : AccKind} {holds : List RegName}
    {data : Ctx → List Word} (hd : ∀ c act, data (c.begun i act) = data c)
    (hx : ∀ s, exec i s = oncePerIssue i s (fun s c l _ => spaceIssue i s c l 5 sp acc cls holds [] b (wideImm 6 off (c.lane l).hints * 1024) (data c))) :
    QueuesLocal i 5 cls holds (spaceRes sp) (fun c act => [(tileReq b off data c (act.headD 0)).bare]) :=
  queuesLocal_of (fun _ _ _ => rfl) (fun _ _ _ _ => by simp only [spaceRes, hinted_coreStore, hinted_clusterMem]) (fun c act => [tileReq b off data c (act.headD 0)])
    (fun c act => by simp only [List.map_cons, List.map_nil, tileReq, Req.bare, begun_rdG, begun_lane, hd]) (fun c act _ => List.nodup_singleton _)
    (fun s c act hi => ⟨_, act.headD 0, (hx s).trans (oncePerIssue_eq ..), fun u hu => onceBody_eq hi.some ((spaceIssue_local h ..).trans hu) (fun _ _ _ => nofun)⟩)
/-- Core-store and cluster-memory accesses, one part of O11. -/
theorem localAccesses : Claims.LocalAccesses := by
  refine ⟨fun g d b off sz => ?_, fun g d b off sz => ?_, fun g d b off sz => ?_, fun g d b off sz => ?_, fun sp g t b off h => ⟨?_, ?_⟩⟩
  · exact queuesLocal_lanes (res := State.coreStore) false (fun s c act => hinted_coreStore s _ c act) (fun s => exec_ldc_eq ..)
  · exact queuesLocal_lanes (res := State.coreStore) true (fun s c act => hinted_coreStore s _ c act) (fun s => exec_stc_eq ..)
  · exact queuesLocal_lanes (res := State.clusterMem) false (fun s c act => hinted_clusterMem s _ c act) (fun s => exec_ldk_eq ..)
  · exact queuesLocal_lanes (res := State.clusterMem) true (fun s c act => hinted_clusterMem s _ c act) (fun s => exec_stk_eq ..)
  · exact queuesLocal_tile (data := fun _ => []) h (fun _ _ => rfl) (fun s => exec_ldt_eq ..)
  · refine Eq.mp (congrArg (QueuesLocal _ _ _ _ _) (funext fun c => funext fun act => ?_))
      (queuesLocal_tile (i := .stt g t sp b off) (data := fun c => bytesWords (c.rdTile t)) h (fun c act => by rw [begun_rdTile]) (fun s => exec_stt_eq ..))
    simp only [tileReq, Req.bare]
    rfl

/-! ### The bytes of words -/

theorem bytesOfNat_getD (n x j : Nat) (hj : j < n) : (bytesOfNat n x).getD j 0 = BitVec.ofNat 8 (x / 2 ^ (8 * j)) := by
  induction n generalizing x j with
  | zero => omega
  | succ n ih =>
    cases j with
    | zero => simp [bytesOfNat]
    | succ j =>
      rw [bytesOfNat, List.getD_cons_succ, ih _ _ (by omega), Nat.div_div_eq_div_mul]
      congr 2
      rw [Nat.mul_succ, Nat.pow_add, Nat.mul_comm]
theorem length_wordsBytes (ws : List Word) : (wordsBytes ws).length = 4 * ws.length := by
  induction ws with
  | nil => rfl
  | cons w ws ih =>
    rw [wordsBytes, List.flatMap_cons, List.length_append, length_bytesOfNat, List.length_cons]
    have : (ws.flatMap (fun w => bytesOfNat 4 w.toNat)).length = 4 * ws.length := ih
    omega
theorem wordsBytes_getD (ws : List Word) (j : Nat) (hj : j < 4 * ws.length) :
    (wordsBytes ws).getD j 0 = BitVec.ofNat 8 ((ws.getD (j / 4) 0).toNat / 2 ^ (8 * (j % 4))) := by
  induction ws generalizing j with
  | nil => simp at hj
  | cons w ws ih =>
    rw [List.length_cons] at hj
    have hl := length_bytesOfNat 4 w.toNat
    rw [wordsBytes, List.flatMap_cons]
    rcases Nat.lt_or_ge j 4 with h | h
    · rw [List.getD_append _ _ _ _ (by omega), bytesOfNat_getD _ _ _ h, Nat.div_eq_of_lt h, Nat.mod_eq_of_lt h, List.getD_cons_zero]
    · obtain ⟨k, rfl⟩ := Nat.exists_eq_add_of_le h
      rw [List.getD_append_right _ _ _ _ (by omega), hl, Nat.add_sub_cancel_left]
      refine (ih k (by omega)).trans ?_
      rw [show (4 + k) / 4 = k / 4 + 1 by omega, show (4 + k) % 4 = k % 4 by omega, List.getD_cons_succ]
theorem getD_take {α : Type} (l : List α) (n j : Nat) (d : α) (hj : j < n) : (l.take n).getD j d = l.getD j d := by
  rw [List.getD_eq_getElem?_getD, List.getD_eq_getElem?_getD, List.getElem?_take_of_lt hj]

/-! ### Registers written one after another -/

theorem rdV_wrVs (ws : List Word) (c : Ctx) (n l m k : Nat) (hl : l < 32) (hk : k < 32) :
    (c.wrVs n l ws).rdV m k = if (n ≤ m ∧ m < n + ws.length) ∧ k = l then ws.getD (m - n) 0 else c.rdV m k := by
  induction ws generalizing c n with
  | nil => rw [if_neg (by simp only [List.length_nil]; omega)]; rfl
  | cons w ws ih =>
    rw [Ctx.wrVs, ih, Ctx.rdV_wrV _ _ _ _ _ _ hl hk, List.length_cons]
    by_cases hkl : k = l
    · rcases Nat.lt_trichotomy m n with h | rfl | h
      · rw [if_neg (by omega), if_neg (by omega), if_neg (by omega)]
      · rw [if_neg (by omega), if_pos ⟨rfl, hkl⟩, if_pos ⟨by omega, hkl⟩, Nat.sub_self, List.getD_cons_zero]
      · obtain ⟨q, rfl⟩ := Nat.exists_eq_add_of_lt h
        have e1 : n + q + 1 - n = q + 1 := by omega
        have e2 : n + q + 1 - (n + 1) = q := by omega
        rw [e1, e2, List.getD_cons_succ]
        by_cases hq : n + q + 1 < n + (ws.length + 1)
        · rw [if_pos ⟨by omega, hkl⟩, if_pos ⟨by omega, hkl⟩]
        · rw [if_neg (by omega), if_neg (by omega), if_neg (by omega)]
    · rw [if_neg (fun h => hkl h.2), if_neg (fun h => hkl h.2), if_neg (fun h => hkl h.2)]
theorem wrVs_tags (ws : List Word) (c : Ctx) (n l m : Nat) : Sparse.get 0 (c.wrVs n l ws).vtags m =
    if n ≤ m ∧ m < n + ws.length then Sparse.get 0 c.vtags m &&& 0x7FFF else Sparse.get 0 c.vtags m := by
  induction ws generalizing c n with
  | nil => rw [if_neg (by simp only [List.length_nil]; omega)]; rfl
  | cons w ws ih =>
    rw [Ctx.wrVs, ih, Ctx.vtag_wrV, List.length_cons]
    rcases Nat.lt_trichotomy m n with h | rfl | h
    · rw [if_neg (by omega), if_neg (by omega), if_neg (by omega)]
    · rw [if_neg (by omega), if_pos rfl, if_pos (by omega)]
    · by_cases hq : m < n + (ws.length + 1)
      · rw [if_pos (by omega), if_neg (by omega), if_pos (by omega)]
      · rw [if_neg (by omega), if_neg (by omega), if_neg (by omega)]
theorem wrVs_only (ws : List Word) (c : Ctx) (n l : Nat) : c.wrVs n l ws = { c with v := (c.wrVs n l ws).v, vtags := (c.wrVs n l ws).vtags } := by
  induction ws generalizing c n with
  | nil => rfl
  | cons w ws ih => rw [Ctx.wrVs, ih]; rfl
/-- Registers written by each acting lane, with values that do not depend on what the lanes before have written. -/
theorem wroteV_wrVs {s : State} {i : Instr} {c : Ctx} {act : List Nat} (h : Issues s i c act) (d : Nat) (ws : Nat → List Word) {n : Nat} (hn : ∀ l, (ws l).length = n)
    (hc : Completes i s (LaneWrites.result s i c act (fun c l => c.wrVs d l (ws l)))) (ds : List Nat) (hd : ∀ m, m ∈ ds ↔ d ≤ m ∧ m < d + n)
    (val : Nat → Nat → Word) (hv : ∀ l, ∀ m ∈ ds, (ws l).getD (m - d) 0 = val l m) : WroteV i s c act ds val (fun _ => 0) := by
  have hk : ∀ {β : Type} (p : Ctx → β) (_ : ∀ (c : Ctx) v t, p { c with v := v, vtags := t } = p c) (x : Ctx), p (act.foldl (fun c l => c.wrVs d l (ws l)) x) = p x :=
    fun p hp x => foldl_keeps p _ (fun c l => by rw [wrVs_only, hp]) act x
  have hrd : ∀ m l, l < 32 → (LaneWrites.result s i c act (fun c l => c.wrVs d l (ws l))).rdV m l = if m ∈ ds ∧ l ∈ act then val l m else c.rdV m l := by
    intro m l hl
    rw [depart_rdV, foldl_rdV act (fun l hl => h.lt hl) _ _ ds val (fun c l hl m k hk => ?_) m l hl, begun_rdV]
    rw [rdV_wrVs _ _ _ _ _ _ hl hk, hn]
    simp only [← hd]
    split
    · next hm => exact hv l m hm.1
    · rfl
  refine ⟨_, hc, RegsOf.depart _ _ _ _ _ ((RegsOf.begun c i act).trans (.foldl _ (fun c l => ?_) _ _)), fun l hl m hm => ?_, ⟨fun m l hl hm => ?_, fun m => ?_⟩, ?_, ?_, ?_, fun l => ?_⟩
  · exact ⟨_, _, _, _, _, _, _, _, _, _, _, _, wrVs_only ..⟩
  · rw [hrd m l (h.lt hl), if_pos ⟨hm, hl⟩]
  · rw [hrd m l hl, if_neg hm]
  · rw [depart_vtags, foldl_vtags act h.some _ _ ds (fun c l m => ?_), begun_vtags]
    rw [wrVs_tags, hn]
    simp only [hd]
  · rw [depart_flags, hk Ctx.fpflags (fun _ _ _ => rfl), begun_flags]
    unfold raised
    exact (foldl_induct (fun x => x = c.fpflags) (fun (x : BitVec 6) (_ : Nat) => x ||| 0) (fun x _ hx => by rw [hx]; exact BitVec.or_zero) act c.fpflags rfl).symm
  · rw [depart_g, hk Ctx.g (fun _ _ _ => rfl), begun_g]
  · rw [depart_e, hk Ctx.e (fun _ _ _ => rfl), begun_e]
  · have hl : ∀ x : Ctx, x.lane l = (Sparse.find x.lanes l).getD {} := fun _ => rfl
    rw [depart_lane _ _ _ (cohort_nodup s c), hl, hk Ctx.lanes (fun _ _ _ => rfl), ← hl, begun_lane]
    rfl

/-! ### The stash -/

/-- The address of a lane's stash access. -/
def stashAddr (c : Ctx) (b : Nat) (off : Int) (sz : Size) (l : Nat) : Nat := localAddr (c.rdV b l) (wideImm 6 off (c.lane l).hints * Size.bytes sz)
/-- A stash access whose addresses pass is performed. -/
theorem stashLanes_ok {s : State} {c : Ctx} {act : List Nat} {b : Nat} {off : Int} {sz : Size} (f : Ctx → Nat → Nat → Ctx)
    (hk : c.kind = .group) (ha : ∀ l ∈ act, stashAddr c b off sz l % Size.bytes sz = 0 ∧ stashAddr c b off sz l + Size.bytes sz ≤ 2048
      ∧ stashAddr c b off sz l + Size.bytes sz ≤ (s.gridOf c).stash) :
    stashLanes s c act b off sz f = .ok (s.modCtx s.cur.ctx (fun c' => act.foldl (fun c' l => f c' l (stashAddr c b off sz l)) c')) := by
  have hz : 0 < Size.bytes sz := by cases sz <;> decide
  have h1 : act.filter (fun l => decide (stashAddr c b off sz l % Size.bytes sz ≠ 0)) = [] :=
    List.filter_eq_nil_iff.mpr (fun l hl => by simpa using (ha l hl).1)
  have h2 : act.filter (fun l => s.stashBad c (stashAddr c b off sz l) (Size.bytes sz)) = [] :=
    List.filter_eq_nil_iff.mpr (fun l hl => by
      obtain ⟨-, h3, h4⟩ := ha l hl
      unfold State.stashBad
      rw [decide_eq_false (by simp [hk]), decide_eq_false (by omega), decide_eq_false (by omega)]
      simp)
  unfold stashLanes
  unfold stashAddr at h1 h2
  dsimp only
  rw [h1, h2]
  rfl
/-- Stashes written by lanes, each in its own part. -/
theorem stash_foldl (act : List Nat) (a : Nat → Nat) (V : Nat → List Byte) {n : Nat} (hV : ∀ l, (V l).length = n) (ha : ∀ l ∈ act, a l + n ≤ 2048)
    (m : Sparse Byte) (l k : Nat) (hk : k < 2048) :
    Sparse.get 0 (act.foldl (fun m l => Sparse.setRun 0 m (2048 * l + a l) (V l)) m) (2048 * l + k)
      = if l ∈ act ∧ a l ≤ k ∧ k < a l + n then (V l).getD (k - a l) 0 else Sparse.get 0 m (2048 * l + k) := by
  induction act generalizing m with
  | nil => simp
  | cons x act ih =>
    have hx := ha x List.mem_cons_self
    rw [List.foldl_cons, ih (fun l hl => ha l (List.mem_cons_of_mem _ hl)), Sparse.get_setRun, hV]
    by_cases hl : l = x
    · subst hl
      simp only [List.mem_cons, true_or, true_and]
      by_cases hc : a l ≤ k ∧ k < a l + n
      · rw [if_pos (show 2048 * l + a l ≤ 2048 * l + k ∧ 2048 * l + k < 2048 * l + a l + n by omega), if_pos hc, show 2048 * l + k - (2048 * l + a l) = k - a l by omega]
        exact ite_id _
      · rw [if_neg (fun h => hc h.2), if_neg (by omega), if_neg hc]
    · rw [if_neg (show ¬ (2048 * x + a x ≤ 2048 * l + k ∧ 2048 * l + k < 2048 * x + a x + n) by omega)]
      simp only [List.mem_cons, hl, false_or]
theorem begun_stash (c : Ctx) (i : Instr) (act : List Nat) : (c.begun i act).stash = c.stash := by rw [begun_only]
/-- The address of a lane's stash access as the issue begins. -/
theorem stashAddr_begun (c : Ctx) (i : Instr) (act : List Nat) (b : Nat) (off : Int) (sz : Size) (l : Nat) :
    stashAddr (c.begun i act) b off sz l = stashAddr c b off sz l := by
  unfold stashAddr; rw [begun_rdV, begun_lane]
/-- A context with another stash. -/
def Ctx.withStash (c : Ctx) (m : Sparse Byte) : Ctx := { c with stash := m }
theorem depart_withStash (s : State) (i : Instr) (coh act : List Nat) (c : Ctx) (m : Sparse Byte) :
    let c' := s.depart i coh ((c.begun i act).withStash m)
    c' = { c with lanes := c'.lanes, stash := c'.stash, yld := c'.yld, prio := c'.prio, misses := c'.misses, hold := none, withdrawn := false, missAt := none }
      ∧ c'.stash = m := by
  intro c'
  have key : ∀ x d : Ctx, x = s.depart i coh d → x = { d with lanes := x.lanes, misses := x.misses, hold := none, withdrawn := false, missAt := none } := by
    rintro x d rfl
    exact depart_only s i coh d
  have h := key c' _ rfl
  have hc : (c.begun i act).withStash m = { c with stash := m, yld := (c.begun i act).yld, prio := (c.begun i act).prio } := by
    rw [begun_only]
    rfl
  rw [hc] at h
  clear_value c'
  have hy := congrArg Ctx.yld h
  have hp := congrArg Ctx.prio h
  have hs := congrArg Ctx.stash h
  refine ⟨?_, hs⟩
  rw [hy, hp, hs]
  exact h
/-- Bytes stored to stashes by lanes. -/
theorem stores_withStash (act : List Nat) (V : Nat → List Byte) (a : Nat → Nat) (x : Ctx) :
    act.foldl (fun c' l => { c' with stash := Sparse.setRun 0 c'.stash (2048 * l + a l) (V l) }) x
      = x.withStash (act.foldl (fun m l => Sparse.setRun 0 m (2048 * l + a l) (V l)) x.stash) := by
  induction act generalizing x with
  | nil => rfl
  | cons l act ih => rw [List.foldl_cons, ih]; rfl
theorem sizeBytes_le (d : Nat) (sz : Size) : Size.bytes sz ≤ 4 * (sizeRegs d sz).length := by
  cases sz <;> simp [sizeRegs, Size.bytes]
/-- Stash accesses, one part of O11. -/
theorem stashAccesses : Claims.StashAccesses := by
  intro g d b off sz s c act addr n stash hk ha
  have ha' : ∀ i, ∀ l ∈ act, stashAddr (c.begun i act) b off sz l % Size.bytes sz = 0 ∧ stashAddr (c.begun i act) b off sz l + Size.bytes sz ≤ 2048
      ∧ stashAddr (c.begun i act) b off sz l + Size.bytes sz ≤ ((s.hinted i act).gridOf (c.begun i act)).stash := fun i l hl => by
    rw [stashAddr_begun, hinted_gridOf]
    exact ha l hl
  refine ⟨fun h => ?_, fun h => ?_⟩
  · have hx : exec (.ldl g d b off sz) s = execLdl g d b off sz s := exec_ldl_eq ..
    have hc := completes_of_gate h _ hx _ (by rw [stashLanes_ok _ ((begun_kind ..).trans hk) (ha' _), State.hinted_cur])
    refine wroteV_wrVs (n := (sizeRegs d sz).length) h d (fun l => (sizeRegs d sz).zipIdx.map (fun r => BitVec.ofNat 32 (natOfBytes (Sparse.getRun 0 c.stash (2048 * l + addr l) n) / 2 ^ (32 * r.2))))
      (fun l => by simp) ?_ _ (fun m => ?_) _ (fun l m hm => ?_)
    · unfold LaneWrites.result
      simp only [stashAddr_begun, begun_stash] at hc
      exact hc
    · cases sz <;> simp [sizeRegs] <;> omega
    · have hr : Sparse.getRun 0 c.stash (2048 * l + addr l) n = (List.range n).map (fun j => stash c l (addr l + j)) :=
        List.map_congr_left (fun j _ => by rw [Nat.add_assoc])
      rw [hr]
      have hm' : m = d ∨ (sz = .p ∧ m = d + 1) := by
        unfold sizeRegs at hm
        split at hm
        · next hp => simpa [hp] using hm
        · simpa using .inl (List.mem_singleton.mp hm)
      rcases hm' with rfl | ⟨rfl, rfl⟩
      · cases sz <;> simp [sizeRegs, List.zipIdx]
      · simp [sizeRegs, List.zipIdx]
  · have hx : exec (.stl g d b off sz) s = execStl g d b off sz s := exec_stl_eq ..
    have hc := completes_of_gate h _ hx _ (by rw [stashLanes_ok _ ((begun_kind ..).trans hk) (ha' _), State.hinted_cur])
    rw [stores_withStash] at hc
    simp only [stashAddr_begun, begun_stash, storeWords_begun] at hc
    obtain ⟨h1, h2⟩ := depart_withStash s (.stl g d b off sz) (s.cohort c) act c (act.foldl (fun m l => Sparse.setRun 0 m (2048 * l + addr l)
      ((wordsBytes ((sizeRegs d sz).map (fun n => c.rdV n l))).take n)) c.stash)
    have hn : n ≤ 4 * (sizeRegs d sz).length := sizeBytes_le d sz
    have hw : ∀ l, 4 * ((sizeRegs d sz).map (fun n => c.rdV n l)).length = 4 * (sizeRegs d sz).length := fun l => by rw [List.length_map]
    have hg := stash_foldl act addr (fun l => (wordsBytes ((sizeRegs d sz).map (fun n => c.rdV n l))).take n) (n := n)
      (fun l => by rw [List.length_take, length_wordsBytes, hw, Nat.min_eq_left hn]) (fun l hl => (ha l hl).2.1) c.stash
    refine ⟨_, hc, fun l hl j hj => ?_, fun l k hlk hn => ?_, h1, fun l => ?_⟩
    · have hb := (ha l hl).2.1
      refine (congrArg (fun m => Sparse.get 0 m (2048 * l + (addr l + j))) h2).trans ?_
      rw [hg l (addr l + j) (by omega), if_pos ⟨hl, by omega, by omega⟩, Nat.add_sub_cancel_left, getD_take _ _ _ _ hj, wordsBytes_getD _ _ (by rw [hw]; omega)]
      have hr : ((sizeRegs d sz).map (fun n => c.rdV n l)).getD (j / 4) 0 = c.rdV (d + j / 4) l := by
        unfold sizeRegs
        split
        · next hp =>
          have : n ≤ 8 := (sizeBytes_le d sz).trans (by simp [sizeRegs, hp])
          have : j / 4 = 0 ∨ j / 4 = 1 := by omega
          rcases this with e | e <;> rw [e] <;> rfl
        · next hp =>
          have : n ≤ 4 := (sizeBytes_le d sz).trans (by simp [sizeRegs, hp])
          rw [Nat.div_eq_of_lt (by omega)]
          rfl
      rw [hr]
    · refine (congrArg (fun m => Sparse.get 0 m (2048 * l + k)) h2).trans ?_
      rw [hg l k hlk, if_neg hn]
    · rw [depart_lane _ _ _ (cohort_nodup s c)]
      have : ∀ m, ((c.begun (.stl g d b off sz) act).withStash m).lane l = c.lane l := fun m => begun_lane ..
      rw [this]
      rfl

/-- Settles O11: the issue of local accesses, and accesses of the stash. -/
theorem localAccessesIssue : Obligations.LocalAccessesIssue := ⟨localAccesses, stashAccesses⟩

end Sys2Proof.Machine
end

section
/-! The issue of `LDSC` and `LDX` (R218, R219). -/

namespace Sys2Proof.Machine

/-! ### Translation does not see the contexts -/

theorem State.withCtxs_homeDWord (s : State) (cs : Sparse Ctx) (l : Loc) : (s.withCtxs cs).homeDWord l = s.homeDWord l := by
  unfold State.homeDWord State.homeRead
  dsimp only
  rw [State.withCtxs_releaseSpan, State.withCtxs_rdBytes]
theorem State.withCtxs_asidEntry (s : State) (cs : Sparse Ctx) (p asid : Nat) : (s.withCtxs cs).asidEntry p asid = s.asidEntry p asid := by
  unfold State.asidEntry
  simp only [State.withCtxs_homeDWord]
  rfl
theorem State.withCtxs_walkFrom (s : State) (cs : Sparse Ctx) (p va level ppn : Nat) (acc : List WalkPtr) :
    (s.withCtxs cs).walkFrom p va level ppn acc = s.walkFrom p va level ppn acc := by
  induction level generalizing ppn acc with
  | zero => unfold State.walkFrom; simp only [State.withCtxs_homeDWord]
  | succ n ih => unfold State.walkFrom; simp only [State.withCtxs_homeDWord, ih]
theorem State.withCtxs_walk (s : State) (cs : Sparse Ctx) (p die asid va : Nat) : (s.withCtxs cs).walk p die asid va = s.walk p die asid va := by
  unfold State.walk
  simp only [State.withCtxs_asidEntry, State.withCtxs_walkFrom, State.withCtxs_pkg]
theorem State.withCtxs_judge (s : State) (cs : Sparse Ctx) (p : Nat) (e : DWord) (pa : Nat) (k : AccKind) (eng : Bool) :
    (s.withCtxs cs).judge p e pa k eng = s.judge p e pa k eng := rfl
theorem State.withCtxs_xlate (s : State) (cs : Sparse Ctx) (y : Party) (va : Nat) (k : AccKind) : (s.withCtxs cs).xlate y va k = s.xlate y va k := by
  unfold State.xlate
  simp only [State.withCtxs_walk, State.withCtxs_judge, State.withCtxs_pkg]
theorem hinted_withCtxs (s : State) (i : Instr) (act : List Nat) : s.hinted i act = s.withCtxs (s.hinted i act).ctxs := by
  unfold State.hinted; split <;> rfl
theorem hinted_xlate (s : State) (i : Instr) (act : List Nat) (y : Party) (va : Nat) (k : AccKind) : (s.hinted i act).xlate y va k = s.xlate y va k := by
  rw [hinted_withCtxs, State.withCtxs_xlate]
theorem hinted_partyOf (s : State) (i : Instr) (c : Ctx) (act : List Nat) (eng : Bool) : (s.hinted i act).partyOf (c.begun i act) eng = s.partyOf c eng := by
  unfold State.hinted Ctx.begun; split <;> rfl
theorem takes_hinted {s : State} {c : Ctx} {cls : Option CClass} {acc : AccKind} {eng : Bool} {E : List Req} (h : Takes s c cls acc eng E)
    (i : Instr) (act : List Nat) : Takes (s.hinted i act) (c.begun i act) cls acc eng E where
  aligned := h.aligned
  inside := h.inside
  room := (hinted_noRoom ..).trans h.room
  pages r hr a ha := by
    obtain ⟨l, b, e⟩ := h.pages r hr a ha
    exact ⟨l, b, by rw [hinted_partyOf, hinted_xlate]; exact e⟩
theorem places_hinted (s : State) (i : Instr) (act : List Nat) (y : Party) (acc : AccKind) (r : Req) : (s.hinted i act).places y acc r = s.places y acc r := by
  unfold State.places
  simp only [hinted_xlate]

/-! ### The issue -/

/-- The entry of an issue whose requests translate in the state of its context. -/
theorem queued_global {s : State} {i : Instr} {c : Ctx} {act : List Nat} (h : Issues s i c act) (body : State → Ctx → List Nat → Eff)
    (hx : exec i s = gate i s body) (E : List Req) {cls : Option CClass} {acc : AccKind} {eng : Bool} (leader : Nat) {kind : Nat} {holds : List RegName} {args : List Word}
    {reqs : List Req} (he : E.map Req.bare = reqs) (ht : Takes s c cls acc eng reqs) (hn : (reqs.map Req.lane).Nodup) {obj : Loc}
    (hb : ∀ (u : State) (caps : Sparse Cap), u.cur = s.cur →
      memIssue i (s.hinted i act) (c.begun i act) leader kind acc cls holds args eng E
        = .ok (u.addEntry s.cur.ctx ((s.hinted i act).mkEntry (c.begun i act) i leader kind cls holds caps args)) →
      ∃ F : Ctx → Ctx, body (s.hinted i act) (c.begun i act) act = .ok (u.modCtx s.cur.ctx F)
        ∧ F (c.begun i act) = (c.begun i act).enqueue cls { u.entryAs (c.begun i act) ((s.hinted i act).mkEntry (c.begun i act) i leader kind cls holds caps args) with obj := obj }) :
    Queued i s s c kind cls holds args reqs (s.places (s.partyOf c eng) acc) obj := by
  subst he
  have hn' : (E.map Req.lane).Nodup := by
    rw [List.map_map] at hn
    exact hn
  obtain ⟨u, e, h1, h2, h3, caps, rfl⟩ := memIssue_queues (takes_hinted ht i act) hn' i leader kind holds args
  rw [State.hinted_cur] at h1
  have hcur : u.cur = s.cur := by
    rw [h2.rest]
    exact State.hinted_cur ..
  obtain ⟨F, hF, hf⟩ := hb u caps hcur h1
  refine queued_of h body hx hF hf (by rw [h2.rest]; exact hinted_find h) h2.reaches_hinted
    ⟨rfl, rfl, begun_nextId .., rfl, congrArg Issue.pc (State.hinted_cur ..), rfl, rfl, rfl, rfl⟩ ⟨fun r hr => ?_, h3.only⟩
  obtain ⟨x, hx1, hx2⟩ := h3.each r hr
  rw [hinted_partyOf, places_hinted] at hx2
  exact ⟨x, hx1, hx2⟩
/-- The same of an issue that does nothing else. -/
theorem queued_global_plain {s : State} {i : Instr} {c : Ctx} {act : List Nat} (h : Issues s i c act) (body : State → Ctx → List Nat → Eff)
    (hx : exec i s = gate i s body) (E : List Req) {cls : Option CClass} {acc : AccKind} {eng : Bool} (leader : Nat) {kind : Nat} {holds : List RegName} {args : List Word}
    {reqs : List Req} (he : E.map Req.bare = reqs) (ht : Takes s c cls acc eng reqs) (hn : (reqs.map Req.lane).Nodup)
    (hb : ∀ t, memIssue i (s.hinted i act) (c.begun i act) leader kind acc cls holds args eng E = .ok t → body (s.hinted i act) (c.begun i act) act = .ok t) :
    Queued i s s c kind cls holds args reqs (s.places (s.partyOf c eng) acc) .none :=
  queued_global h body hx E leader he ht hn (fun u caps _ hm =>
    ⟨fun c' => c'.enqueue cls (u.entryAs c' ((s.hinted i act).mkEntry (c.begun i act) i leader kind cls holds caps args)), hb _ hm, rfl⟩)
/-- The entry of an issue to a local space. -/
theorem queued_local {s : State} {i : Instr} {c : Ctx} {act : List Nat} (h : Issues s i c act) (body : State → Ctx → List Nat → Eff)
    (hx : exec i s = gate i s body) (E : List Req) {cls : Option CClass} (leader : Nat) {kind : Nat} {holds : List RegName} {args : List Word}
    {reqs : List Req} (he : E.map Req.bare = reqs) {res : Req → LRes} (hr : ∀ r, res r.bare = res r) (ht : TakesLocal s c cls res reqs) (hn : (reqs.map Req.lane).Nodup)
    (hb : ∀ u, localIssue i (s.hinted i act) (c.begun i act) leader kind cls holds args res E = .ok u →
      body (s.hinted i act) (c.begun i act) act = .ok u) :
    Queued i s s c kind cls holds args reqs (fun r => (res r).places) .none := by
  subst he
  have hn' : (E.map Req.lane).Nodup := by
    rw [List.map_map] at hn
    exact hn
  have ht' : TakesLocal (s.hinted i act) (c.begun i act) cls res (E.map Req.bare) := ⟨ht.aligned, ht.placed, (hinted_noRoom ..).trans ht.room⟩
  obtain ⟨caps, h1, h2⟩ := localIssue_queues hr ht' hn' i leader kind holds args
  rw [State.hinted_cur] at h1
  exact queued_of h body hx (hb _ h1) rfl (hinted_find h) ((State.Walked.refl _).reaches_hinted)
    ⟨rfl, rfl, begun_nextId .., rfl, congrArg Issue.pc (State.hinted_cur ..), rfl, rfl, rfl, rfl⟩ ⟨h2.each, h2.only⟩

theorem wbits_lt (w : Word) (hi lo : Nat) : wbits w hi lo < 2 ^ (hi + 1 - lo) := Nat.mod_lt _ (by positivity)
theorem hinted_limit (s : State) (i : Instr) (c : Ctx) (act : List Nat) (r : RegName) : (s.hinted i act).limit (c.begun i act) r = s.limit c r := by
  unfold State.limit
  rw [hinted_gridOf, begun_kind]
/-- An entry of a context changed, which is its newest. -/
theorem enqueue_modEntry (c : Ctx) (cls : Option CClass) (e : RqEntry) (hid : ∀ y ∈ c.rq, y.id < c.nextId) (he : e.id = c.nextId) (f : RqEntry → RqEntry) :
    { c.enqueue cls e with rq := (c.enqueue cls e).rq.map (fun y => if y.id = c.nextId then f y else y) } = c.enqueue cls (f e) := by
  have h1 : c.rq.map (fun y => if y.id = c.nextId then f y else y) = c.rq := by
    conv_rhs => rw [← List.map_id c.rq]
    exact List.map_congr_left (fun y hy => if_neg (Nat.ne_of_lt (hid y hy)))
  have h2 : (c.enqueue cls e).rq.map (fun y => if y.id = c.nextId then f y else y) = c.rq ++ [f e] := by
    show (c.rq ++ [e]).map _ = _
    rw [List.map_append, h1]
    simp only [List.map_cons, List.map_nil, he, if_true]
  rw [h2]
  rfl
/-- `LDSC` of a global space. -/
theorem ldsc_global {g : Guard} {d b f : Nat} {s : State} {c : Ctx} {act : List Nat} {sh : RunShape} (h : Issues s (.ldsc g d b f) c act)
    (hs : (slotOf (s.fmtOf c) f).run = some sh) (h0 : wbits (c.rdG d) 19 0 = 0) (ht : wbits (c.rdG d) 25 22 < s.limit c (.t 0))
    (hb : s.badRun c (wbits (c.rdG d) 31 26) sh.log = false) (hu : c.Unheld (.t (wbits (c.rdG d) 25 22) :: (runRegs (wbits (c.rdG d) 31 26) sh.log).map .s))
    (hsp : wbits (c.rdG d) 21 20 = 0) (reqs : List Req)
    (hr : reqs = [{ lane := act.headD 0, va := c.rdPairG b, len := 1024, align := 64 },
      { lane := 32 + act.headD 0, va := c.rdPairG (b + 2), len := 32 * 2 ^ sh.log, align := 32 }]) (hk : Takes s c none .read true reqs) :
    Queued (.ldsc g d b f) s s c 5 none (.t (wbits (c.rdG d) 25 22) :: (runRegs (wbits (c.rdG d) 31 26) sh.log).map .s) [c.rdG d] reqs
      (s.places (s.partyOf c true) .read) .none := by
  refine queued_global_plain h _ ((exec_ldsc_eq ..).trans (oncePerIssue_eq ..)) (reqs.map (fun r => { r with hints := (c.lane (act.headD 0)).hints })) (act.headD 0) ?_ hk ?_ (fun t hm => onceBody_eq h.some ?_ (fun _ _ _ => nofun))
  · rw [hr]
    simp only [List.map_cons, List.map_nil, Req.bare]
  · rw [hr]
    simp
  · have h1 := hk.aligned
    rw [hr] at h1 hm
    have e1 : c.rdPairG b % 64 = 0 := h1 _ List.mem_cons_self
    have e2 : c.rdPairG (b + 2) % 32 = 0 := h1 _ (List.mem_cons_of_mem _ List.mem_cons_self)
    dsimp only
    rw [begun_rdG, hinted_fmtOf, hs, hinted_limit]
    dsimp only
    rw [hinted_badRun, if_neg (by omega), if_neg (by simp [hb]), ldscRegs, ordered_free (begun_unheld hu _ _), if_pos hsp]
    simp only [begun_rdPairG, begun_lane, List.filter_cons, e1, e2, ne_eq, not_true_eq_false, decide_false, Bool.false_eq_true, if_false, List.filter_nil,
      hsp, h0, or_self, if_true, Nat.reduceEqDiff, OfNat.zero_ne_ofNat]
    simpa only [List.map_cons, List.map_nil] using hm
/-- `LDSC` of a local space. -/
theorem ldsc_local {g : Guard} {d b f : Nat} {s : State} {c : Ctx} {act : List Nat} {sh : RunShape} (h : Issues s (.ldsc g d b f) c act)
    (hs : (slotOf (s.fmtOf c) f).run = some sh) (h0 : wbits (c.rdG d) 19 0 = 0) (ht : wbits (c.rdG d) 25 22 < s.limit c (.t 0))
    (hb : s.badRun c (wbits (c.rdG d) 31 26) sh.log = false) (hu : c.Unheld (.t (wbits (c.rdG d) 25 22) :: (runRegs (wbits (c.rdG d) 31 26) sh.log).map .s))
    (hsp : wbits (c.rdG d) 21 20 ∈ [1, 2]) (reqs : List Req)
    (hr : reqs = [{ lane := act.headD 0, va := (c.rdG b).toNat, len := 1024, align := 64 },
      { lane := 32 + act.headD 0, va := (c.rdG (b + 2)).toNat, len := 32 * 2 ^ sh.log, align := 32 }]) {res : Req → LRes}
    (hres : res = (fun r : Req => if wbits (c.rdG d) 21 20 = 1 then s.coreStore c r.va r.len else s.clusterMem c r.va r.len)) (hk : TakesLocal s c none res reqs) :
    Queued (.ldsc g d b f) s s c 5 none (.t (wbits (c.rdG d) 25 22) :: (runRegs (wbits (c.rdG d) 31 26) sh.log).map .s) [c.rdG d] reqs (fun r => (res r).places) .none := by
  refine queued_local h _ ((exec_ldsc_eq ..).trans (oncePerIssue_eq ..)) (reqs.map (fun r => { r with hints := (c.lane (act.headD 0)).hints })) (act.headD 0) ?_
    (fun r => by rw [hres]; rfl) hk ?_ (fun t hm => onceBody_eq h.some ?_ (fun _ _ _ => nofun))
  · rw [hr]
    simp only [List.map_cons, List.map_nil, Req.bare]
  · rw [hr]
    simp
  · have h1 := hk.aligned
    rw [hr] at h1 hm
    have e1 : (c.rdG b).toNat % 64 = 0 := h1 _ List.mem_cons_self
    have e2 : (c.rdG (b + 2)).toNat % 32 = 0 := h1 _ (List.mem_cons_of_mem _ List.mem_cons_self)
    have hsp0 : wbits (c.rdG d) 21 20 ≠ 0 := by rintro e; simp [e] at hsp
    have hsp3 : wbits (c.rdG d) 21 20 ≠ 3 := by rintro e; simp [e] at hsp
    dsimp only
    rw [begun_rdG, hinted_fmtOf, hs, hinted_limit]
    dsimp only
    rw [hinted_badRun, if_neg (by omega), if_neg (by simp [hb]), ldscRegs, ordered_free (begun_unheld hu _ _), if_neg hsp0]
    simp only [begun_rdG, begun_lane, List.filter_cons, e1, e2, ne_eq, not_true_eq_false, decide_false, Bool.false_eq_true, if_false, List.filter_nil,
      hsp0, hsp3, h0, or_self, hinted_coreStore, hinted_clusterMem]
    rw [hres] at hm
    simpa only [List.map_cons, List.map_nil] using hm
/-- `LDX`, whose entry names its object. -/
theorem ldx_queued {g : Guard} {d b c0 : Nat} {s : State} {c : Ctx} {act : List Nat} (h : Issues s (.ldx g d b c0) c act) {n : Nat}
    (hn : [4, 8, 16, 64].getD (wbits (c.rdG c0) 27 26) 0 = n) (h1 : wbits (c.rdG c0) 31 28 = 0) (h2 : wbits (c.rdG c0) 25 25 = 0)
    (h3 : (c.rdG c0).toNat % 2 ^ 25 % 16 = 0) (hid : ∀ e ∈ c.rq, e.id < c.nextId) {o : Loc} (ho : s.objectRef c ((c.rdG c0).toNat % 2 ^ 25) = .ok o)
    (hd : ∀ l ∈ act, (c.rdV d l).toNat % n = 0 ∧ ∃ p, s.coreStore c (c.rdV d l).toNat n = .ok p) (reqs : List Req)
    (hr : reqs = act.map (fun l => { lane := l, va := c.rdPairV b l, len := n, align := n, data := [c.rdV d l] })) (ht : Takes s c (some .copy) .read true reqs) :
    Queued (.ldx g d b c0) s s c 6 (some .copy) [] [c.rdG c0] reqs (s.places (s.partyOf c true) .read) o := by
  have hdst : ∀ l, ∃ p, l ∈ act → s.coreStore c (c.rdV d l).toNat n = .ok p := fun l => by
    by_cases hl : l ∈ act
    · obtain ⟨p, e⟩ := (hd l hl).2
      exact ⟨p, fun _ => e⟩
    · exact ⟨.none, fun h => absurd h hl⟩
  choose P hP using hdst
  have hdsts : act.map (fun l => (l, s.coreStore c (c.rdV d l).toNat n)) = act.map (fun l => (l, LRes.ok (P l))) :=
    List.map_congr_left (fun l hl => by rw [hP l hl])
  have hmis : act.filter (fun l => decide (c.rdPairV b l % n ≠ 0) || decide ((c.rdV d l).toNat % n ≠ 0)) = [] :=
    List.filter_eq_nil_iff.mpr (fun l hl => by
      have h1 := ht.aligned _ (hr ▸ List.mem_map_of_mem hl)
      simp [(hd l hl).1, h1])
  have hc : ∀ (u : State) (caps : Sparse Cap), u.cur = s.cur → (u.addEntry s.cur.ctx ((s.hinted (.ldx g d b c0) act).mkEntry (c.begun (.ldx g d b c0) act)
      (.ldx g d b c0) (act.headD 0) 6 (some .copy) [] caps [c.rdG c0])).cur.ctx = s.cur.ctx := fun u caps hcur => congrArg Issue.ctx hcur
  refine queued_global h _ (exec_ldx_eq ..) (act.map (fun l => { lane := l, va := c.rdPairV b l, len := n, align := n, data := [c.rdV d l], hints := (c.lane l).hints }))
    (act.headD 0) (by rw [hr]; exact map_bare _ _ _ (fun _ => rfl)) ht (by rw [hr]; exact lanes_nodup h.nodup _ (fun _ => rfl)) (fun u caps hcur hm =>
      ⟨fun c' => { c'.enqueue (some .copy) (u.entryAs c' ((s.hinted (.ldx g d b c0) act).mkEntry (c.begun (.ldx g d b c0) act) (.ldx g d b c0) (act.headD 0) 6 (some .copy) [] caps [c.rdG c0])) with
        rq := (c'.enqueue (some .copy) (u.entryAs c' ((s.hinted (.ldx g d b c0) act).mkEntry (c.begun (.ldx g d b c0) act) (.ldx g d b c0) (act.headD 0) 6 (some .copy) [] caps [c.rdG c0]))).rq.map
          (fun y => if y.id = c.nextId then { y with obj := o } else y) }, ?_, ?_⟩)
  · have hk := wbits_lt (c.rdG c0) 27 26
    dsimp only
    rw [begun_rdG]
    generalize wbits (c.rdG c0) 27 26 = k at hn hk ⊢
    interval_cases k
    all_goals
      simp only [List.getD_cons_zero, List.getD_cons_succ] at hn
      subst hn
      simp only [begun_rdPairV, begun_rdV, begun_lane, hinted_objectRef, ho, hmis, hinted_coreStore, hdsts, begun_nextId, List.map_map, List.filterMap_cons, List.filterMap_map, Function.comp_def, List.filterMap_none]
      rw [if_neg (by omega), if_neg (by omega), hm]
      dsimp only
      rw [hc u caps hcur]
      exact congrArg Eff.ok (State.modCtx_modCtx ..)
  · rw [← begun_nextId c (.ldx g d b c0) act]
    exact enqueue_modEntry (c.begun (.ldx g d b c0) act) _ _ (by rw [begun_rq, begun_nextId]; exact hid) rfl (fun y => { y with obj := o })
/-- The issue of `LDSC` and `LDX`, one part of O12. -/
theorem scaledAndGatheredLoads : Claims.ScaledAndGatheredLoads := by
  refine ⟨fun g d b f s c act sh h hs => ?_, fun g d b c0 s c act h => ?_⟩
  · intro w base l holds h0 ht hb hu
    exact ⟨fun hsp reqs hr hk => ldsc_global h hs h0 ht hb hu hsp reqs hr hk, fun hsp reqs hr res hres hk => ldsc_local h hs h0 ht hb hu hsp reqs hr hres hk⟩
  · intro w n ref h1 h2 h3 hid o ho hd reqs hr ht
    exact ldx_queued h rfl h1 h2 h3 hid ho hd reqs hr ht

end Sys2Proof.Machine
end

section
/-! What a context reads where nothing is on its way (R238, R240): its core's own copies of lines, and the homes. -/

namespace Sys2Proof.Machine

/-! ### The lines of a span -/

theorem lineKeys_eq (k n : Nat) : lineKeys k n = (List.range ((k + n - 1) / 64 + 1 - k / 64)).map (fun i => k / 64 + i) := rfl
theorem lineKeys_nodup (k n : Nat) : (lineKeys k n).Nodup := by
  rw [lineKeys_eq]
  exact List.Nodup.map (fun a b h => by simpa using h) List.nodup_range
theorem range_map_append {α : Type} (g : Nat → α) (a b : Nat) :
    (List.range a).map g ++ (List.range b).map (fun i => g (a + i)) = (List.range (a + b)).map g := by
  rw [List.range_add, List.map_append, List.map_map]
  rfl
/-- The parts of a span that lie in its lines follow each other. -/
theorem lineParts_flatMap {α : Type} (g : Nat → α) (k n : Nat) :
    (lineKeys k n).flatMap (fun key => (List.range (min (k + n) (64 * key + 64) - max k (64 * key))).map (fun i => g (max k (64 * key) + i)))
      = (List.range n).map (fun i => g (k + i)) := by
  have hpart : ∀ m, m ≤ (k + n - 1) / 64 + 1 - k / 64 →
      ((List.range m).map (fun i => k / 64 + i)).flatMap (fun key => (List.range (min (k + n) (64 * key + 64) - max k (64 * key))).map (fun i => g (max k (64 * key) + i)))
        = (List.range (if m = 0 then 0 else min n (64 * (k / 64 + m) - k))).map (fun i => g (k + i)) := by
    intro m hm
    induction m with
    | zero => rfl
    | succ m ih =>
      rw [List.range_succ, List.map_append, List.flatMap_append, ih (by omega)]
      simp only [List.map_cons, List.map_nil, List.flatMap_cons, List.flatMap_nil, List.append_nil]
      have key := range_map_append (fun i => g (k + i)) (if m = 0 then 0 else min n (64 * (k / 64 + m) - k))
        (min (k + n) (64 * (k / 64 + m) + 64) - max k (64 * (k / 64 + m)))
      have e1 : (if m = 0 then 0 else min n (64 * (k / 64 + m) - k)) + (min (k + n) (64 * (k / 64 + m) + 64) - max k (64 * (k / 64 + m)))
          = if m + 1 = 0 then 0 else min n (64 * (k / 64 + (m + 1)) - k) := by
        rw [if_neg (Nat.succ_ne_zero m)]
        split <;> omega
      rw [← e1, ← key]
      congr 1
      refine List.map_congr_left (fun i hi => ?_)
      have := List.mem_range.mp hi
      have e2 : max k (64 * (k / 64 + m)) + i = k + ((if m = 0 then 0 else min n (64 * (k / 64 + m) - k)) + i) := by
        split <;> omega
      rw [e2]
  rw [lineKeys_eq, hpart _ (Nat.le_refl _)]
  congr 2
  split <;> omega

/-! ### Reads below a core's cache -/

theorem State.dieBytes_noSlots {s : State} (h : s.NoSlots) (p die : Nat) (core : Option Nat) (k n : Nat) : s.dieBytes p die core k n = s.rdBytes (.hbm k) n := by
  obtain ⟨-, -, he, ho⟩ := h.quiet p
  have h1 : s.lingering p die = [] := by
    unfold State.lingering
    rw [List.filterMap_eq_nil_iff]
    intro y hy
    rw [ho y hy]
    split <;> rfl
  have h2 : (s.pkg p).earlyFor die core = [] := by
    unfold Package.earlyFor
    rw [he]
    rfl
  unfold State.dieBytes
  dsimp only
  rw [h1, h2]
  rfl

/-! ### Hits -/

/-- Whether a read of a core hits a line, and with which bytes, where every line is whole. -/
theorem dhit_whole {s : State} (h : s.LinesWhole) (p core key lo hi lo' hi' : Nat) : s.dhit p core key lo hi = s.dhit p core key lo' hi' := by
  unfold State.dhit
  split
  · rfl
  · next x hx =>
    have hm : x ∈ (s.pkg p).dlines := List.mem_of_find?_eq_some hx
    rw [(h p x hm).2]
    rfl
theorem dhit_data {s : State} (h : s.LinesWhole) {p core key lo hi : Nat} {x : DLine} (hx : s.dhit p core key lo hi = some x) : x.data.length = 64 := by
  unfold State.dhit at hx
  split at hx
  · cases hx
  · next y hy =>
    split at hx
    · cases hx
    · cases hx
      exact (h p _ (List.mem_of_find?_eq_some hy)).1
/-- Which line of a core a read hits depends on the core's lines and on the die's count alone. -/
theorem dhit_congr {s t : State} {p core key : Nat} (hl : (t.pkg p).dline core key = (s.pkg p).dline core key)
    (hc : t.dieCount p (siteOfLoc core) = s.dieCount p (siteOfLoc core)) (lo hi : Nat) : t.dhit p core key lo hi = s.dhit p core key lo hi := by
  unfold State.dhit
  rw [hl, hc]
theorem State.Calm.dieCount {s t : State} (h : s.Calm t) (p : Nat) (x : Site) : t.dieCount p x = s.dieCount p x := by
  unfold State.dieCount
  rw [h.field p (fun q => q.count) (fun _ _ _ _ _ _ _ => rfl), h.field p (fun q => q.dieCopy x.die) (fun _ _ _ _ _ _ _ => rfl)]

/-! ### Lines that stay while a span is read -/

/-- The lines that a core holds. -/
def Package.linesOf (q : Package) (core : Nat) : List DLine := q.dlines.filter (fun x => decide (x.core = core))
theorem dline_filter {l : List DLine} {core key : Nat} (f : DLine → Bool) (hf : ∀ x : DLine, x.core = core → x.key = key → f x = true) :
    (l.filter f).find? (fun x => decide (x.core = core) && decide (x.key = key)) = l.find? (fun x => decide (x.core = core) && decide (x.key = key)) := by
  rw [List.find?_filter]
  congr 1
  funext x
  by_cases h : x.core = core ∧ x.key = key
  · simp [hf x h.1 h.2]
  · have : (decide (x.core = core) && decide (x.key = key)) = false := by simpa using h
    rw [this]
    simp
theorem dropKey_lines (s : State) (p core key : Nat) : ((s.dropKey p core key).pkg p).dlines
    = (s.pkg p).dlines.filter (fun x => !(decide (x.core = core) && decide (x.key = key))) := by
  unfold State.dropKey
  rw [State.pkg_modPkg_same]
theorem dropKey_dline {s : State} {p core key key' : Nat} (h : key' ≠ key) : ((s.dropKey p core key).pkg p).dline core key' = (s.pkg p).dline core key' := by
  unfold Package.dline
  rw [dropKey_lines]
  exact dline_filter _ (fun x _ h2 => by simp [h2, h])
theorem dropKey_count (s : State) (p core key : Nat) : (((s.dropKey p core key).pkg p).linesOf core).length ≤ ((s.pkg p).linesOf core).length := by
  unfold Package.linesOf
  rw [dropKey_lines, List.filter_filter, ← List.countP_eq_length_filter, ← List.countP_eq_length_filter]
  exact List.countP_mono_left (fun x _ h => (Bool.and_eq_true_iff.mp h).1)
/-- A line filled where there is room leaves the core's other lines. -/
theorem fillLine_room {s : State} {p core key : Nat} (h : ((s.pkg p).linesOf core).length < coreLines) :
    (∀ key', key' ≠ key → ((s.fillLine p core key).pkg p).dline core key' = (s.pkg p).dline core key')
      ∧ (((s.fillLine p core key).pkg p).linesOf core).length ≤ ((s.pkg p).linesOf core).length + 1 := by
  have hc : (((s.dropKey p core key).pkg p).dlines.filter (fun x => decide (x.core = core))).length < coreLines :=
    Nat.lt_of_le_of_lt (dropKey_count s p core key) h
  unfold State.fillLine
  dsimp only
  rw [if_pos hc]
  refine ⟨fun key' hk => ?_, ?_⟩
  · rw [← dropKey_dline (s := s) (p := p) (core := core) hk]
    unfold Package.dline
    rw [State.pkg_modPkg_same, List.find?_append, List.find?_cons_of_neg (by simp [Ne.symm hk]), List.find?_nil, Option.or_none]
  · have := dropKey_count s p core key
    unfold Package.linesOf at this ⊢
    rw [State.pkg_modPkg_same, List.filter_append, List.length_append]
    have h1 : ∀ y : DLine, ([y].filter (fun x => decide (x.core = core))).length ≤ 1 := fun y => List.length_filter_le _ [y]
    exact Nat.add_le_add this (h1 _)
theorem dieDrop_dlines (s : State) (p d key q : Nat) : ((s.dieDrop p d key).pkg q).dlines = (s.pkg q).dlines := by
  unfold State.dieDrop
  rw [State.pkg_modPkg]
  split
  · next h => subst h; rw [State.pkg_modPkg]; split <;> simp_all
  · rw [State.pkg_modPkg]; split <;> simp_all
theorem register_dlines (s : State) (me key q : Nat) : ((s.register me key).pkg q).dlines = (s.pkg q).dlines := by
  unfold State.register
  rw [State.pkg_modPkg]
  split
  · next h => subst h; split <;> rfl
  · rfl
theorem dieFill_dlines (s : State) (p : Nat) (x : Site) (key q : Nat) : ((s.dieFill p x key).pkg q).dlines = (s.pkg q).dlines := by
  unfold State.dieFill
  dsimp only
  split
  · rfl
  · rw [register_dlines, State.pkg_modPkg]
    have h : ∀ t : State, (t.pkg q).dlines = (s.pkg q).dlines → (if q = p then { t.pkg p with dieLines := (t.pkg p).dieLines ++ [{ die := x.walkDie, key := key }] } else t.pkg q).dlines
        = (s.pkg q).dlines := fun t ht => by
      split
      · next h => subst h; exact ht
      · exact ht
    refine h _ ?_
    split
    · rfl
    · split
      · exact dieDrop_dlines ..
      · rfl

/-! ### The bytes that a context reads -/

/-- What a core has of a line's part: its own copy's bytes, or those of the home. -/
theorem hit_bytes {s : State} (h : s.LinesWhole) {p core key lo hi : Nat} {x : DLine} (hx : s.dhit p core key lo hi = some x) (hlo : 64 * key ≤ lo)
    (hhi : hi ≤ 64 * key + 64) {c : Ctx} (hc : s.coreOf c = some (p, core)) :
    (x.data.drop (lo - 64 * key)).take (hi - lo) = (List.range (hi - lo)).map (fun i => s.seenByte c false (.hbm (lo + i))) := by
  have hl := dhit_data h hx
  refine List.ext_getElem (by simp [hl]; omega) (fun i h1 h2 => ?_)
  have hi' : i < hi - lo := by simpa using h2
  simp only [List.getElem_take, List.getElem_drop, List.getElem_map, List.getElem_range]
  unfold State.seenByte
  simp only [hc, Bool.false_eq_true, if_false]
  have e1 : (lo + i) / 64 = key := by omega
  have e2 : (lo + i) % 64 = lo - 64 * key + i := by omega
  rw [e1, e2, dhit_whole h p core key (lo + i) (lo + i + 1) lo hi, hx]
  dsimp only
  rw [List.getD_eq_getElem?_getD, List.getElem?_eq_getElem (by omega), Option.getD_some]
theorem miss_bytes {s : State} (h : s.LinesWhole) {p core key lo hi : Nat} (hx : s.dhit p core key lo hi = none) (hlo : 64 * key ≤ lo)
    (hhi : hi ≤ 64 * key + 64) {c : Ctx} (hc : s.coreOf c = some (p, core)) :
    s.rdBytes (.hbm lo) (hi - lo) = (List.range (hi - lo)).map (fun i => s.seenByte c false (.hbm (lo + i))) := by
  refine List.map_congr_left (fun i hi' => ?_)
  have hi' := List.mem_range.mp hi'
  unfold State.seenByte
  simp only [hc, Bool.false_eq_true, if_false]
  have e1 : (lo + i) / 64 = key := by omega
  rw [e1, dhit_whole h p core key (lo + i) (lo + i + 1) lo hi, hx]
  rfl
/-- What one line of a span gives a read of a core. -/
def readLine (c : Ctx) (p core k n : Nat) (r : State × List Byte) (key : Nat) : State × List Byte :=
  let s := r.1
  let lo := max k (64 * key)
  let hi := min (k + n) (64 * key + 64)
  match s.dhit p core key lo hi with
  | some x => (s, r.2 ++ (x.data.drop (lo - 64 * key)).take (hi - lo))
  | none =>
    let s := ((s.releaseSpan (.hbm lo) (hi - lo)).dieFill p c.site key).fillLine p core key
    (s, r.2 ++ s.dieBytes p c.site.die (some core) lo (hi - lo))
theorem readLine_hit {c : Ctx} {p core k n : Nat} {r : State × List Byte} {key : Nat} {x : DLine}
    (h : r.1.dhit p core key (max k (64 * key)) (min (k + n) (64 * key + 64)) = some x) :
    readLine c p core k n r key = (r.1, r.2 ++ (x.data.drop (max k (64 * key) - 64 * key)).take (min (k + n) (64 * key + 64) - max k (64 * key))) := by
  unfold readLine
  dsimp only
  rw [h]
theorem readLine_miss {c : Ctx} {p core k n : Nat} {r : State × List Byte} {key : Nat} (hq : r.1.NoSlots)
    (h : r.1.dhit p core key (max k (64 * key)) (min (k + n) (64 * key + 64)) = none) :
    readLine c p core k n r key = (((r.1.dieFill p c.site key).fillLine p core key), r.2 ++ ((r.1.dieFill p c.site key).fillLine p core key).dieBytes p c.site.die
      (some core) (max k (64 * key)) (min (k + n) (64 * key + 64) - max k (64 * key))) := by
  unfold readLine
  dsimp only
  rw [h, State.releaseSpan_noSlots hq]
/-- The lines of a span are read one after another. -/
theorem readLines_seen {s : State} (hq : s.NoSlots) (hw : s.LinesWhole) {c : Ctx} {p core : Nat} (hc : s.coreOf c = some (p, core)) (k n : Nat) (K : List Nat) (hn : K.Nodup)
    (r : State × List Byte) (hr : s.Calm r.1) (hd : ∀ key ∈ K, (r.1.pkg p).dline core key = (s.pkg p).dline core key)
    (hroom : K.length ≤ 1 ∨ ((r.1.pkg p).linesOf core).length + K.length ≤ coreLines) :
    (K.foldl (readLine c p core k n) r).2
      = r.2 ++ K.flatMap (fun key => (List.range (min (k + n) (64 * key + 64) - max k (64 * key))).map (fun i => s.seenByte c false (.hbm (max k (64 * key) + i)))) := by
  induction K generalizing r with
  | nil => simp
  | cons key K ih =>
    obtain ⟨hnk, hn'⟩ := List.nodup_cons.mp hn
    have hdh : r.1.dhit p core key (max k (64 * key)) (min (k + n) (64 * key + 64)) = s.dhit p core key (max k (64 * key)) (min (k + n) (64 * key + 64)) :=
      dhit_congr (hd key List.mem_cons_self) (hr.dieCount ..) _ _
    rw [List.foldl_cons, List.flatMap_cons, ← List.append_assoc]
    cases hx : s.dhit p core key (max k (64 * key)) (min (k + n) (64 * key + 64)) with
    | some x =>
      rw [readLine_hit (hdh.trans hx)]
      refine (ih hn' (r.1, r.2 ++ (x.data.drop (max k (64 * key) - 64 * key)).take (min (k + n) (64 * key + 64) - max k (64 * key))) hr
        (fun key' hk' => hd key' (List.mem_cons_of_mem _ hk')) ?_).trans ?_
      · rw [List.length_cons] at hroom
        show K.length ≤ 1 ∨ ((r.1.pkg p).linesOf core).length + K.length ≤ coreLines
        omega
      · rw [hit_bytes hw hx (by omega) (by omega) hc]
    | none =>
      have hq1 : r.1.NoSlots := hr.quiet hq
      rw [readLine_miss hq1 (hdh.trans hx)]
      have hcalm : s.Calm ((r.1.dieFill p c.site key).fillLine p core key) := (hr.dieFill _ _ _).fillLine _ _ _
      have hlines : (((r.1.dieFill p c.site key).pkg p).linesOf core) = (r.1.pkg p).linesOf core := by
        unfold Package.linesOf
        rw [dieFill_dlines]
      have hdl : ∀ key', ((r.1.dieFill p c.site key).pkg p).dline core key' = (r.1.pkg p).dline core key' := fun key' => by
        unfold Package.dline
        rw [dieFill_dlines]
      rw [State.dieBytes_noSlots (hcalm.quiet hq), State.rdBytes_congr hcalm.sameBytes, miss_bytes hw hx (by omega) (by omega) hc]
      cases K with
      | nil => simp
      | cons key2 K =>
        have hroom' : ((r.1.pkg p).linesOf core).length + (key :: key2 :: K).length ≤ coreLines := by
          rcases hroom with h | h
          · simp only [List.length_cons] at h; omega
          · exact h
        simp only [List.length_cons] at hroom'
        obtain ⟨f1, f2⟩ := fillLine_room (s := r.1.dieFill p c.site key) (p := p) (core := core) (key := key) (by rw [hlines]; omega)
        refine ih hn' _ hcalm (fun key' hk' => ?_) (.inr ?_)
        · have hne : key' ≠ key := fun e => hnk (e ▸ hk')
          exact (f1 key' hne).trans ((hdl key').trans (hd key' (List.mem_cons_of_mem _ hk')))
        · rw [hlines] at f2
          simp only [List.length_cons]
          omega
/-- A read of a context gives the bytes that it sees. -/
theorem ctxRead_seen {s : State} (hq : s.NoSlots) (hw : s.LinesWhole) (c : Ctx) (o : Loc) (n : Nat) (nc : Bool) (hk : nc = true ∨ s.KeepsLines c o n) :
    (s.ctxRead c o n nc).2 = s.seen c nc o n := by
  have far : ∀ l : Loc, (∀ k, l ≠ .hbm k) → (s.homeRead l n).2 = s.seen c nc l n := fun l hl => by
    rw [State.homeRead_noSlots hq]
    refine List.map_congr_left (fun i _ => ?_)
    cases l with
    | hbm k => exact absurd rfl (hl k)
    | none => rfl
    | host k => rfl
    | store u a => rfl
  unfold State.ctxRead
  rw [State.mergeSpan_noSlots hq]
  cases o with
  | none => exact far _ (fun _ => nofun)
  | host k => exact far _ (fun _ => nofun)
  | store u a => exact far _ (fun _ => nofun)
  | hbm k =>
    have hseen : ∀ t : State, s.Calm t → (nc = true ∨ s.coreOf c = none) → t.rdBytes (.hbm k) n = s.seen c nc (.hbm k) n := fun t ht hh => by
      rw [State.rdBytes_congr ht.sameBytes]
      refine List.map_congr_left (fun i _ => ?_)
      show _ = s.seenByte c nc (.hbm (k + i))
      unfold State.seenByte
      rcases hh with e | e
      · cases hc : s.coreOf c <;> simp [e, Loc.add]
      · simp [e, Loc.add]
    dsimp only
    cases hc : s.coreOf c with
    | none =>
      dsimp only
      rw [State.releaseSpan_noSlots hq]
      have h2 := (State.Calm.refl s).foldl (lineKeys k n) (fun s key => s.dieFill c.pkg c.site key) (fun _ _ ht => ht.dieFill _ _ _)
      rw [State.dieBytes_noSlots (h2.quiet hq), ite_self]
      exact hseen _ h2 (.inr hc)
    | some y =>
      obtain ⟨p, core⟩ := y
      dsimp only
      by_cases hnc : nc = true
      · rw [if_pos hnc]
        have h1 : s.Calm ((lineKeys k n).foldl (fun s key => s.dropKey p core key) s) := (State.Calm.refl s).foldl _ _ (fun _ _ ht => ht.dropKey _ _ _)
        rw [State.releaseSpan_noSlots (h1.quiet hq)]
        have h2 := h1.foldl (lineKeys k n) (fun s key => s.dieFill p c.site key) (fun _ _ ht => ht.dieFill _ _ _)
        rw [State.dieBytes_noSlots (h2.quiet hq)]
        exact hseen _ h2 (.inl hnc)
      · have hnc : nc = false := by simpa using hnc
        subst hnc
        have hkl : (lineKeys k n).length ≤ 1 ∨ ((s.pkg p).linesOf core).length + (lineKeys k n).length ≤ coreLines :=
          (hk.resolve_left (by simp)) p core k hc rfl
        have h := readLines_seen hq hw hc k n (lineKeys k n) (lineKeys_nodup k n) (s, []) (.refl s) (fun _ _ => rfl) hkl
        rw [List.nil_append, lineParts_flatMap (fun j => s.seenByte c false (.hbm j)) k n] at h
        exact h

end Sys2Proof.Machine
end

section
/-! The performance of one lane's access (R208, R239): what the event leaves of its context, and what loads bring. -/

namespace Sys2Proof.Machine

/-! ### A context that goes on while bytes stand -/

/-- Context k of a state becomes c'; other contexts, units, grids and bytes stand, and so does what is on its way. -/
structure State.Turns (k : Nat) (s t : State) (c' : Ctx) : Prop where
  /-- what the context becomes -/
  found : Sparse.find t.ctxs k = some c'
  /-- other contexts -/
  others : ∀ j, j ≠ k → t.ctx j = s.ctx j
  /-- grids -/
  grids : t.grids = s.grids
  /-- units -/
  units : t.units = s.units
  /-- bytes -/
  bytes : SameBytes s t
  /-- bytes on their way, and open slots -/
  early : ∀ p, (t.pkg p).early = (s.pkg p).early ∧ (t.pkg p).slots = (s.pkg p).slots
theorem State.Turns.refl {s : State} {k : Nat} {c : Ctx} (h : Sparse.find s.ctxs k = some c) : s.Turns k s c :=
  ⟨h, fun _ _ => rfl, rfl, rfl, .refl s, fun _ => ⟨rfl, rfl⟩⟩
theorem State.Turns.modCtx {k : Nat} {s t : State} {c : Ctx} (h : s.Turns k t c) (f : Ctx → Ctx) : s.Turns k (t.modCtx k f) (f c) where
  found := by rw [State.find_modCtx, if_pos rfl, h.found]; rfl
  others j hj := (State.ctx_modCtx_ne _ _ _ _ hj).trans (h.others j hj)
  grids := h.grids
  units := h.units
  bytes := h.bytes.trans (SameBytes.modCtx _ _ _)
  early := h.early
theorem State.Turns.calm {k : Nat} {s t u : State} {c : Ctx} (h : s.Turns k t c) (hu : t.Calm u) : s.Turns k u c where
  found := by rw [hu.ctxs]; exact h.found
  others j hj := (hu.ctx j).trans (h.others j hj)
  grids := hu.grids.trans h.grids
  units := hu.units.trans h.units
  bytes := h.bytes.trans hu.sameBytes
  early p := ⟨(hu.field p Package.early (fun _ _ _ _ _ _ _ => rfl)).trans (h.early p).1, (hu.field p Package.slots (fun _ _ _ _ _ _ _ => rfl)).trans (h.early p).2⟩
theorem State.Turns.ctx {k : Nat} {s t : State} {c : Ctx} (h : s.Turns k t c) : t.ctx k = c := State.ctx_of_find _ _ _ h.found
/-- An entry leaves a context's queue where nothing is left of it to perform (R239). -/
def Ctx.settled (c : Ctx) (id : Nat) : Ctx :=
  match c.entry id with
  | some e => if e.pending.isEmpty ∧ e.chunks.all (fun x => decide (x.st = 3)) then { c with rq := c.rq.filter (fun e => decide (e.id ≠ id)) } else c
  | none => c
theorem settled_rq (c : Ctx) (id : Nat) : ∃ rq, c.settled id = c.withRq rq ∧ (∀ y ∈ rq, y ∈ c.rq) ∧ ∀ y ∈ c.rq, y.id ≠ id → y ∈ rq := by
  have same : ∃ rq, c = c.withRq rq ∧ (∀ y ∈ rq, y ∈ c.rq) ∧ ∀ y ∈ c.rq, y.id ≠ id → y ∈ rq := ⟨c.rq, rfl, fun _ h => h, fun _ h _ => h⟩
  unfold Ctx.settled
  split
  · split
    · exact ⟨_, rfl, fun y hy => (List.mem_filter.mp hy).1, fun y hy hn => List.mem_filter.mpr ⟨hy, by simpa using hn⟩⟩
    · exact same
  · exact same
theorem State.Turns.settle {k : Nat} {s t : State} {c : Ctx} (h : s.Turns k t c) (he : ∀ p, (s.pkg p).early = []) (id : Nat) : s.Turns k (t.settle k id) (c.settled id) := by
  have hdrop : s.Turns k (t.dropEntry k id) { c with rq := c.rq.filter (fun e => decide (e.id ≠ id)) } := by
    unfold State.dropEntry
    dsimp only
    rw [(h.early _).1, he, List.isEmpty_nil, if_pos rfl]
    exact h.modCtx _
  unfold State.settle Ctx.settled
  rw [h.ctx]
  cases c.entry id with
  | none => exact h
  | some e =>
    dsimp only
    by_cases hd : e.pending.isEmpty = true ∧ (e.chunks.all fun x => decide (x.st = 3)) = true
    · rw [if_pos hd, if_pos hd]
      exact hdrop
    · rw [if_neg hd, if_neg hd]
      exact h
/-- A capture of an entry changed in its context's queue. -/
def Ctx.modCap (c : Ctx) (id l : Nat) (m : Cap → Cap) : Ctx := { c with rq := c.rq.map (fun e => if e.id = id then e.modCap l m else e) }
theorem State.Turns.capDone {k : Nat} {s t : State} {c : Ctx} (h : s.Turns k t c) (id l : Nat) :
    s.Turns k (t.capDone k id l) (c.modCap id l (fun x => { x with done := true })) := h.modCtx _
theorem State.Turns.afterAcq {k : Nat} {s t : State} {c : Ctx} (h : s.Turns k t c) (x : Cap) : s.Turns k (t.afterAcq k x) c := by
  unfold State.afterAcq
  split
  · exact h.calm ((State.Calm.refl t).acquire _ _)
  · exact h

/-! ### The event -/

theorem entry_id {c : Ctx} {id : Nat} {en : RqEntry} (h : c.entry id = some en) : en.id = id := by
  have := List.find?_some h
  simpa using this
/-- A context after registers that a load brings keep busy. -/
def Ctx.addLate (c : Ctx) (l : List (Nat × Nat × Nat)) : Ctx := { c with late := c.late ++ l }
section
variable {s : State} {k id l : Nat} {c : Ctx} {en : RqEntry} {x : Cap}
/-- A lane that is ready is performed. -/
theorem performEvent_next (h : Ready s k id l c en x) (name : String) {f : RqEntry → Bool} (hf : f en = true) (hgo : s.mayGo c en x = true) {u t1 : State}
    {c1 : Ctx} (hp : s.performCap k en l x = some t1) (ht : u.Turns k t1 c1) (hu : ∀ p, (u.pkg p).early = []) :
    ∃ t, performEvent name k id l s f = .next t ∧ u.Turns k t ((c1.addLate (s.latency en l)).settled id) := by
  have hc : s.ctx k = c := State.ctx_of_find _ _ _ h.found
  refine ⟨_, ?_, ((ht.modCtx (fun y => y.addLate (s.latency en l))).afterAcq x).settle hu id⟩
  unfold performEvent
  rw [hc, h.entry]
  dsimp only
  rw [h.cap]
  dsimp only
  rw [if_neg (by rw [h.due, h.free, h.first, hf, hgo]; simp), if_neg (by rw [h.untouched.2]; simp), hp]
  rfl
/-- The queue of a context whose capture has been changed. -/
theorem modCap_rq (h : Ready s k id l c en x) {m : Cap → Cap} (hm : (m x).done = true) :
    (∀ y ∈ (c.modCap id l m).rq, y ∈ c.rq ∧ y.id ≠ id ∨ y.id = id ∧ ∃ z, Sparse.find y.caps l = some z ∧ z.done = true)
      ∧ ∀ y ∈ c.rq, y.id ≠ id → y ∈ (c.modCap id l m).rq := by
  have hfind : ∀ caps : Sparse Cap, Sparse.find (caps.map (fun y => if y.1 = l then (y.1, m y.2) else y)) l = (Sparse.find caps l).map m := by
    intro caps
    induction caps with
    | nil => rfl
    | cons e caps ih =>
      obtain ⟨j, z⟩ := e
      by_cases hj : j = l
      · simp [Sparse.find, hj]
      · simp [Sparse.find, hj, Ne.symm hj, ih]
  refine ⟨fun y hy => ?_, fun y hy hn => List.mem_map.mpr ⟨y, hy, if_neg hn⟩⟩
  obtain ⟨z, hz, rfl⟩ := List.mem_map.mp hy
  by_cases hid : z.id = id
  · rw [if_pos hid]
    obtain rfl := h.only z hz hid
    refine .inr ⟨hid, m x, ?_, hm⟩
    show Sparse.find (z.caps.map _) l = _
    rw [hfind, h.cap]
    rfl
  · rw [if_neg hid]
    exact .inl ⟨hz, hid⟩
/-- What an event that performs a capture leaves. -/
theorem performs_of (h : Ready s k id l c en x) {i : Instr} {name : String} {f : RqEntry → Bool} (hx : exec i s = performEvent name k id l s f) (hf : f en = true)
    (hgo : s.mayGo c en x = true) {u t1 : State} {F : Ctx} {m : Cap → Cap} (hp : s.performCap k en l x = some t1) (ht : u.Turns k t1 (F.modCap id l m))
    (hu : ∀ p, (u.pkg p).early = []) (hF : F.rq = c.rq) (hm : (m x).done = true) (ho : ∀ j, j ≠ k → u.ctx j = s.ctx j) (hg : u.grids = s.grids) :
    ∃ t rq, Performs i s k id l c t ((F.addLate (s.latency en l)).withRq rq) ∧ u.Turns k t ((F.addLate (s.latency en l)).withRq rq) := by
  obtain ⟨t, h1, h2⟩ := performEvent_next h name hf hgo hp ht hu
  obtain ⟨rq, hrq, hin, hout⟩ := settled_rq ((F.modCap id l m).addLate (s.latency en l)) id
  have hc : ((F.modCap id l m).addLate (s.latency en l)).rq = (c.modCap id l m).rq := by
    show F.rq.map _ = c.rq.map _
    rw [hF]
  rw [hc] at hin hout
  obtain ⟨m1, m2⟩ := modCap_rq h hm
  rw [hrq] at h2
  exact ⟨t, rq, ⟨hx.trans h1, h2.ctx, fun j hj => (h2.others j hj).trans (ho j hj), h2.grids.trans hg, fun y hy => m1 y (hin y hy), fun y hy hn => hout y (m2 y hy hn) hn⟩, h2⟩

/-! ### Loads -/

theorem State.Calm.afterUse {r : State} (h : r.Calm s) (c : Ctx) (x : Cap) : r.Calm (s.afterUse c x) := by
  unfold State.afterUse
  split
  · exact h.modPkg _ _ (fun _ => ⟨rfl, rfl, id⟩)
  · refine h.foldl _ _ (fun t z ht => ?_)
    split
    · exact ht.foldl _ _ (fun _ _ hv => hv.dropKey _ _ _)
    · exact ht
  · exact h
theorem readSegs_seen (hq : s.NoSlots) (hw : s.LinesWhole) {o : Loc} {n : Nat} (hs : x.segs = [(o, n)]) (hg : x.got = []) (hk : x.nc = true ∨ s.KeepsLines c o n) :
    s.Calm (s.readSegs c x).1 ∧ (s.readSegs c x).2 = s.seen c x.nc o n := by
  have hread : s.readSegs c x = ((s.ctxRead c o n x.nc).1.afterUse c x, (s.ctxRead c o n x.nc).2) := by
    unfold State.readSegs Cap.withGot
    rw [hs, hg]
    simp
  rw [hread]
  exact ⟨(State.ctxRead_calm hq ..).afterUse _ _, ctxRead_seen hq hw c o n x.nc hk⟩
theorem State.NoSlots.early {s : State} (hq : s.NoSlots) (p : Nat) : (s.pkg p).early = [] := (hq.quiet p).2.2.1
/-- A load that brings bytes into its context. -/
theorem load_turns (h : Sparse.find s.ctxs k = some c) {r : State × List Byte} (hr : s.Calm r.1) (f : Ctx → List Byte → Ctx) (id : Nat) (m : Cap → Cap) :
    s.Turns k ((r.1.modCtx k (fun c => f c r.2)).modEntry k id (fun e => e.modCap l m)) ((f c r.2).modCap id l m) :=
  (((State.Turns.refl h).calm hr).modCtx _).modCtx _
/-- What an access event does of a load. -/
theorem load_performs (h : Ready s k id l c en x) (hk : en.kind ≠ 3) (h6 : en.kind < 6) (hq : s.NoSlots) (hgo : s.mayGo c en x = true) {r : State × List Byte} (hr : s.Calm r.1)
    (f : Ctx → List Byte → Ctx) (hf : (f c r.2).rq = c.rq) {m : Cap → Cap} (hm : (m x).done = true)
    {g : State → State} (hg : ∀ t : State, t.Calm (g t))
    (hp : s.performCap k en l x = some (g ((r.1.modCtx k (fun c => f c r.2)).modEntry k en.id (fun e => e.modCap l m)))) :
    ∃ t rq, Performs (.accessPerformed k id l) s k id l c t (((f c r.2).addLate (s.latency en l)).withRq rq)
      ∧ SameBytes s t := by
  rw [entry_id h.entry] at hp
  obtain ⟨t, rq, h1, h2⟩ := performs_of h (exec_accessPerformed_eq ..) (by simp [hk, h6]) hgo hp ((load_turns h.found hr f id m).calm (hg _)) hq.early hf hm (fun _ _ => rfl) rfl
  exact ⟨t, rq, h1, h2.bytes⟩
end

/-! ### What a load leaves of its context -/

/-- Registers that a load writes in its lane. -/
theorem wrVs_final (c : Ctx) (d l : Nat) (hl : l < 32) (ws : List Word) (late : List (Nat × Nat × Nat)) (rq : List RqEntry) :
    let c' := ((c.wrVs d l ws).addLate late).withRq rq
    (∀ j < ws.length, c'.rdV (d + j) l = ws.getD j 0) ∧ KeepsV c c' [l] ((List.range ws.length).map (fun j => d + j))
      ∧ c' = { c with v := c'.v, vtags := c'.vtags, rq := c'.rq, late := c'.late } ∧ c'.late = c.late ++ late := by
  intro c'
  have hmem : ∀ m, m ∈ (List.range ws.length).map (fun j => d + j) ↔ d ≤ m ∧ m < d + ws.length := fun m => by
    simp only [List.mem_map, List.mem_range]
    constructor
    · rintro ⟨j, hj, rfl⟩; omega
    · rintro ⟨h1, h2⟩; exact ⟨m - d, by omega, by omega⟩
  have hrd : ∀ m k, k < 32 → c'.rdV m k = if (d ≤ m ∧ m < d + ws.length) ∧ k = l then ws.getD (m - d) 0 else c.rdV m k :=
    fun m k hk => rdV_wrVs ws c d l m k hl hk
  refine ⟨fun j hj => ?_, ⟨fun m k hk hn => ?_, fun m => ?_⟩, ?_, ?_⟩
  · rw [hrd _ _ hl, if_pos ⟨by omega, rfl⟩, Nat.add_sub_cancel_left]
  · rw [hrd _ _ hk, if_neg (fun h => hn ⟨(hmem m).mpr h.1, by simp [h.2]⟩)]
  · simp only [hmem]
    exact wrVs_tags ws c d l m
  · have := wrVs_only ws c d l
    have h4 : c'.late = c.late ++ late := by
      show (c.wrVs d l ws).late ++ late = _
      rw [this]
    rw [h4]
    show ((c.wrVs d l ws).addLate late).withRq rq = _
    unfold Ctx.addLate Ctx.withRq
    rw [this]
    rfl
  · show (c.wrVs d l ws).late ++ late = _
    rw [wrVs_only]
theorem latency_none {s : State} {e : RqEntry} (l : Nat) (h1 : ∀ g d b off sz sx, e.ins ≠ .ld g d b off sz sx) (h2 : ∀ g d b lvl sz sx, e.ins ≠ .ldAcq g d b lvl sz sx) :
    s.latency e l = [] := by
  unfold State.latency
  split
  · next h => exact absurd h (h1 _ _ _ _ _ _)
  · next h => exact absurd h (h2 _ _ _ _ _ _)
  · rfl
theorem addLate_nil (c : Ctx) : c.addLate [] = c := by
  unfold Ctx.addLate
  rw [List.append_nil]
theorem rdTile_wrTile (c : Ctx) (t : Nat) {bs : List Byte} (hl : bs.length = 1024) (m : Nat) : (c.wrTile t 0 bs).rdTile m = if m = t then bs else c.rdTile m := by
  have hget : ∀ i, Sparse.get 0 (c.wrTile t 0 bs).tiles (1024 * m + i) = if 1024 * t ≤ 1024 * m + i ∧ 1024 * m + i < 1024 * t + 1024 then bs.getD (1024 * m + i - 1024 * t) 0
      else Sparse.get 0 c.tiles (1024 * m + i) := fun i => by
    unfold Ctx.wrTile
    rw [Sparse.get_setRun, hl]
    rfl
  unfold Ctx.rdTile Sparse.getRun
  by_cases hm : m = t
  · rw [if_pos hm]
    refine List.ext_getElem (by rw [List.length_map, List.length_range, hl]) (fun i h1 h2 => ?_)
    rw [List.getElem_map, List.getElem_range, hget, if_pos (by omega), hm, Nat.add_sub_cancel_left, List.getD_eq_getElem?_getD, List.getElem?_eq_getElem h2, Option.getD_some]
  · rw [if_neg hm]
    refine List.map_congr_left (fun i hi => ?_)
    have := List.mem_range.mp hi
    rw [hget, if_neg (by omega)]
/-- The words of bytes. -/
theorem bytesWords_getD (r : Nat) (bs : List Byte) (hl : bs.length = 4 * r) (j : Nat) (hj : j < r) :
    (bytesWords bs).getD j 0 = BitVec.ofNat 32 (natOfBytes ((bs.drop (4 * j)).take 4)) := by
  induction r generalizing bs j with
  | zero => omega
  | succ r ih =>
    match bs, hl with
    | a :: b :: c :: d :: rest, hl =>
      have hr : rest.length = 4 * r := by simp only [List.length_cons] at hl; omega
      cases j with
      | zero => rfl
      | succ j =>
        rw [bytesWords, List.getD_cons_succ, ih rest hr j (by omega), Nat.mul_succ]
        rfl
    | [], hl => simp at hl
    | [_], hl => simp at hl; omega
    | [_, _], hl => simp at hl; omega
    | [_, _, _], hl => simp at hl; omega
theorem length_bytesWords (r : Nat) (bs : List Byte) (hl : bs.length = 4 * r) : (bytesWords bs).length = r := by
  induction r generalizing bs with
  | zero => rw [List.length_eq_zero_iff.mp hl]; rfl
  | succ r ih =>
    match bs, hl with
    | a :: b :: c :: d :: rest, hl =>
      rw [bytesWords, List.length_cons, ih rest (by simp only [List.length_cons] at hl; omega)]
    | [], hl => simp at hl
    | [_], hl => simp at hl; omega
    | [_, _], hl => simp at hl; omega
    | [_, _, _], hl => simp at hl; omega
theorem length_seen (s : State) (c : Ctx) (nc : Bool) (o : Loc) (n : Nat) : (s.seen c nc o n).length = n := by
  unfold State.seen
  rw [List.length_map, List.length_range]

/-! ### The loads of O14 -/

/-- The capture is performed. -/
def Cap.finish (x : Cap) : Cap := { x with done := true }
section
variable {s : State} {k id l : Nat} {c : Ctx} {en : RqEntry} {x : Cap} {o : Loc} {n : Nat}
theorem mayGo_travels (h : Ready s k id l c en x) (hi : ∀ g lvl rx ry op one r, en.ins ≠ .reduce g lvl rx ry op one r) : s.mayGo c en x = true := by
  unfold State.mayGo
  split
  · next e _ => exact absurd e (hi _ _ _ _ _ _ _)
  · exact h.travels
/-- An access event of a load of registers. -/
theorem loadWords_perform (h : Ready s k id l c en x) (hk : en.kind ≠ 3) (h6 : en.kind < 6) (hl : l < 32) (hq : s.NoSlots) (hw : s.LinesWhole) (hkl : s.KeepsLines c o n)
    (hs : x.segs = [(o, n)]) (d : Nat) (ws : List Word)
    (hi : (∃ g b off sz sx, en.ins = .ld g d b off sz sx ∧ ws = loadWords sz sx (s.seen c x.nc o n))
        ∨ (∃ g b lvl sz sx, en.ins = .ldAcq g d b lvl sz sx ∧ ws = loadWords sz sx (s.seen c (x.nc || decide (4 ≤ lvl)) o n))
        ∨ (∃ g b off sz, (en.ins = .ldc g d b off sz ∨ en.ins = .ldk g d b off sz) ∧ ws = loadWords sz false (s.seen c x.nc o n))) :
    ∃ t rq, Performs (.accessPerformed k id l) s k id l c t (((c.wrVs d l ws).addLate (s.latency en l)).withRq rq) ∧ SameBytes s t := by
  have hc : s.ctx k = c := State.ctx_of_find _ _ _ h.found
  have hl32 : l % 32 = l := Nat.mod_eq_of_lt hl
  have hrq : ∀ ws, (c.wrVs d l ws).rq = c.rq := fun ws => by rw [wrVs_only]
  obtain ⟨r1, r2⟩ := readSegs_seen hq hw hs h.untouched.1 (.inr hkl)
  have hgo : s.mayGo c en x = true := mayGo_travels h (by
    rcases hi with ⟨_, _, _, _, _, e, _⟩ | ⟨_, _, _, _, _, e, _⟩ | ⟨_, _, _, _, e | e, _⟩ <;> rw [e] <;> exact fun _ _ _ _ _ _ _ => nofun)
  rcases hi with ⟨g, b, off, sz, sx, e, rfl⟩ | ⟨g, b, lvl, sz, sx, e, rfl⟩ | ⟨g, b, off, sz, e, rfl⟩
  · rw [← r2]
    refine load_performs h hk h6 hq hgo (m := Cap.finish) r1 (fun c bs => c.wrVs d l (loadWords sz sx bs)) (hrq _) rfl (fun t => .refl t) ?_
    unfold State.performCap
    rw [e, hc, hl32]
    dsimp only
    rw [if_pos h.whole]
    rfl
  · by_cases hv : lvl < 4
    · rw [decide_eq_false (Nat.not_le.mpr hv), Bool.or_false, ← r2]
      refine load_performs h hk h6 hq hgo (m := Cap.finish) r1 (fun c bs => c.wrVs d l (loadWords sz sx bs)) (hrq _) rfl (g := fun t => t.acquire c lvl) (fun t => (State.Calm.refl t).acquire _ _) ?_
      unfold State.performCap
      rw [e, hc, hl32]
      dsimp only
      rw [if_neg (by rw [h.whole]; simp), if_pos hv, if_pos h.whole]
      rfl
    · obtain ⟨q1, q2⟩ := readSegs_seen (c := c) (x := { x with nc := true }) hq hw (o := o) (n := n) hs h.untouched.1 (.inl rfl)
      rw [decide_eq_true (Nat.not_lt.mp hv), Bool.or_true, ← q2]
      refine load_performs h hk h6 hq hgo (m := Cap.finish) q1 (fun c bs => c.wrVs d l (loadWords sz sx bs)) (hrq _) rfl (g := fun t => t.acquire c lvl) (fun t => (State.Calm.refl t).acquire _ _) ?_
      have hfold : x.segs.foldl (fun s y => s.toAcquire c y.1 y.2) s = s := by
        rw [hs]
        exact State.toAcquire_noSlots hq c o n
      unfold State.performCap
      rw [e, hc, hl32]
      dsimp only
      rw [if_neg (by rw [h.whole]; simp), if_neg hv, hfold]
      rfl
  · rw [← r2]
    refine load_performs h hk h6 hq hgo (m := Cap.finish) r1 (fun c bs => c.wrVs d l (loadWords sz false bs)) (hrq _) rfl (fun t => .refl t) ?_
    unfold State.performCap
    rw [hc, hl32]
    rcases e with e | e
    all_goals
      rw [e]
      dsimp only
      rw [if_pos h.whole]
      rfl
/-- An access event of another load: what its effect is on its context. -/
theorem load_other (h : Ready s k id l c en x) (hk : en.kind ≠ 3) (h6 : en.kind < 6) (hq : s.NoSlots) (hw : s.LinesWhole) (hkl : s.KeepsLines c o n)
    (hs : x.segs = [(o, n)]) (f : Ctx → List Byte → Ctx) (hf : ∀ bs, (f c bs).rq = c.rq) {m : Cap → Cap} (hm : (m x).done = true)
    (hp : s.performCap k en l x = some (((s.readSegs c x).1.modCtx k (fun y => f y (s.readSegs c x).2)).modEntry k en.id (fun e => e.modCap l m)))
    (hi : ∀ g lvl rx ry op one r, en.ins ≠ .reduce g lvl rx ry op one r)
    (h1 : ∀ g d b off sz sx, en.ins ≠ .ld g d b off sz sx) (h2 : ∀ g d b lvl sz sx, en.ins ≠ .ldAcq g d b lvl sz sx) :
    ∃ t rq, Performs (.accessPerformed k id l) s k id l c t ((f c (s.seen c x.nc o n)).withRq rq) ∧ SameBytes s t := by
  obtain ⟨r1, r2⟩ := readSegs_seen hq hw hs h.untouched.1 (.inr hkl)
  rw [← r2]
  obtain ⟨t, rq, q1, q2⟩ := load_performs h hk h6 hq (mayGo_travels h hi) r1 f (hf _) hm (g := fun t => t) (fun t => .refl t) hp
  rw [latency_none l h1 h2, addLate_nil] at q1
  exact ⟨t, rq, q1, q2⟩
end

/-- What an `SLD` leaves of the scale registers. -/
theorem applySld_gives (c : Ctx) (d : Nat) {bs : List Byte} (hl : bs.length = 40) :
    let c' := c.applySld d bs
    c'.sBand d = (bs.getD 32 0).getLsbD 4 ∧ c'.sGen d = (c.sGen d + 1) % 16
      ∧ (∀ j < 32, c'.sByte d j = if c'.sBand d ∧ 24 ≤ j then 0 else (bs.getD j 0).toNat)
      ∧ (∀ m, m ≠ d → c'.sBand m = c.sBand m ∧ c'.sGen m = c.sGen m ∧ ∀ j < 32, c'.sByte m j = c.sByte m j) := by
  intro c'
  have hband : decide ((bs.getD 32 0).toNat / 16 % 2 = 1) = (bs.getD 32 0).getLsbD 4 := by
    rw [BitVec.getLsbD, Nat.testBit_eq_decide_div_mod_eq]
  have hc : c' = (c.setPayload d (bs.take 32) ((bs.getD 32 0).getLsbD 4)).setGen d ((c.sGen d + 1) % 16) ((bs.getD 32 0).getLsbD 4) := by
    rw [← hband]
    rfl
  have hb : ∀ m, c'.sBand m = if m = d then (bs.getD 32 0).getLsbD 4 else c.sBand m := fun m => by
    rw [hc, Ctx.sBand_setGen]
    rfl
  have hg : ∀ m, c'.sGen m = if m = d then (c.sGen d + 1) % 16 else c.sGen m := fun m => by
    rw [hc, Ctx.sGen_setGen, Nat.mod_mod]
    rfl
  have hs : ∀ m j, j < 32 → c'.sByte m j = if m = d then (if (bs.getD 32 0).getLsbD 4 ∧ 24 ≤ j then 0 else (bs.getD j 0).toNat) else c.sByte m j := fun m j hj => by
    rw [hc]
    refine (sByte_setPayload c d (bs.take 32) _ (by rw [List.length_take, hl]; rfl) m j hj).trans ?_
    rw [getD_take _ _ _ _ hj]
  exact ⟨(hb d).trans (if_pos rfl), (hg d).trans (if_pos rfl), fun j hj => by rw [hs d j hj, if_pos rfl, hb d, if_pos rfl],
    fun m hm => ⟨(hb m).trans (if_neg hm), (hg m).trans (if_neg hm), fun j hj => (hs m j hj).trans (if_neg hm)⟩⟩
/-- Settles O14: each load brings what its context sees into its destination. -/
theorem loadsPerform : Obligations.LoadsPerform := by
  intro s k id l c en x o n h hk h6 hl hq hw hkl hs bs
  have hc : s.ctx k = c := State.ctx_of_find _ _ _ h.found
  have hbs : bs.length = n := length_seen ..
  refine ⟨fun d ws hi => ?_, fun g d b off e => ?_, fun g d b off e hn => ?_, fun g d sp b off e hn => ?_, fun g d b r e hn hr hp => ?_⟩
  · obtain ⟨t, rq, h1, h2⟩ := loadWords_perform h hk h6 hl hq hw hkl hs d ws hi
    obtain ⟨f1, f2, f3, -⟩ := wrVs_final c d l hl ws (s.latency en l) rq
    exact ⟨t, _, h1, h2, f1, f2, f3⟩
  · obtain ⟨t, rq, h1, h2⟩ := load_other h hk h6 hq hw hkl hs (fun c bs => c.wrG d (BitVec.ofNat 32 (natOfBytes bs))) (fun _ => rfl) (m := Cap.finish) rfl (by
      unfold State.performCap
      rw [e, hc]
      dsimp only
      rw [if_pos h.whole]
      rfl) (by rw [e]; exact fun _ _ _ _ _ _ _ => nofun) (by rw [e]; exact fun _ _ _ _ _ _ => nofun) (by rw [e]; exact fun _ _ _ _ _ _ => nofun)
    exact ⟨t, _, h1, h2, fun m => Ctx.rdG_wrG .., rfl⟩
  · obtain ⟨t, rq, h1, h2⟩ := load_other h hk h6 hq hw hkl hs (fun c bs => c.applySld d bs) (fun _ => rfl) (m := Cap.finish) rfl (by
      unfold State.performCap
      rw [e, hc]
      dsimp only
      rw [if_pos h.whole]
      rfl) (by rw [e]; exact fun _ _ _ _ _ _ _ => nofun) (by rw [e]; exact fun _ _ _ _ _ _ => nofun) (by rw [e]; exact fun _ _ _ _ _ _ => nofun)
    obtain ⟨f1, f2, f3, f4⟩ := applySld_gives c d (bs := bs) (by rw [hbs, hn])
    exact ⟨t, _, h1, h2, f1, f2, f3, f4, rfl⟩
  · obtain ⟨t, rq, h1, h2⟩ := load_other h hk h6 hq hw hkl hs (fun c bs => (c.wrTile d 0 bs).unbindT d) (fun _ => rfl) (m := Cap.finish) rfl (by
      unfold State.performCap
      rw [e, hc]
      dsimp only
      rw [if_pos h.whole]
      rfl) (by rw [e]; exact fun _ _ _ _ _ _ _ => nofun) (by rw [e]; exact fun _ _ _ _ _ _ => nofun) (by rw [e]; exact fun _ _ _ _ _ _ => nofun)
    have ht := rdTile_wrTile c d (bs := bs) (by rw [hbs, hn])
    have hg : ∀ m, Sparse.get 0 (clearBound c.ttags d) m = if m = d then Sparse.get 0 c.ttags d &&& 0x7FFF else Sparse.get 0 c.ttags m := fun m => Sparse.get_set ..
    exact ⟨t, _, h1, h2, (ht d).trans (if_pos rfl), fun m hm => ⟨(ht m).trans (if_neg hm), (hg m).trans (if_neg hm)⟩, (hg d).trans (if_pos rfl), rfl⟩
  · have hcw : capWords x = r := by
      unfold capWords
      rw [hs]
      simp only [List.foldl_cons, List.foldl_nil]
      omega
    obtain ⟨t, rq, h1, h2⟩ := load_other h hk h6 hq hw hkl hs (fun c bs => c.wrVs d l (bytesWords bs)) (fun _ => by rw [wrVs_only])
      (m := fun y => { y with progress := x.progress + r, pages := [], got := [], done := decide (x.progress + r = r) }) (by simp [hp]) (by
      unfold State.performCap
      rw [e, hc, Nat.mod_eq_of_lt hl]
      dsimp only
      rw [hcw, if_neg (by omega), hp, Nat.add_zero]) (by rw [e]; exact fun _ _ _ _ _ _ _ => nofun) (by rw [e]; exact fun _ _ _ _ _ _ => nofun) (by rw [e]; exact fun _ _ _ _ _ _ => nofun)
    obtain ⟨f1, f2, f3, f4⟩ := wrVs_final c d l hl (bytesWords bs) [] rq
    rw [addLate_nil] at f1 f2 f3 f4
    have hlen : (bytesWords bs).length = r := length_bytesWords r bs (by rw [hbs, hn])
    rw [hlen] at f1 f2
    rw [List.append_nil] at f4
    rw [f4] at f3
    exact ⟨t, _, h1, h2, fun j hj => (f1 j hj).trans (bytesWords_getD r bs (by rw [hbs, hn]) j hj), f2, f3⟩

end Sys2Proof.Machine
end

section
/-! Stores performed (R208, R210 to R216), and atomics and contributions at their homes (R177 to R183, R220, R221). -/

namespace Sys2Proof.Machine

/-! ### Writes of a context where nothing is on its way -/

theorem bytesOfNat_word (w : Word) : bytesOfNat 4 w.toNat = [w.extractLsb' 0 8, w.extractLsb' 8 8, w.extractLsb' 16 8, w.extractLsb' 24 8] := by
  have h : ∀ i, BitVec.ofNat 8 (w.toNat / 2 ^ i) = w.extractLsb' i 8 := fun i => by
    apply BitVec.eq_of_toNat_eq
    rw [BitVec.toNat_ofNat, BitVec.extractLsb'_toNat, Nat.shiftRight_eq_div_pow]
  rw [← h 0, ← h 8, ← h 16, ← h 24]
  simp only [bytesOfNat, Nat.div_div_eq_div_mul, Nat.pow_zero, Nat.div_one, Nat.reduceMul, Nat.reducePow]
/-- A state that a write of a context leaves, up to its bytes. -/
structure State.Wrote (s u : State) : Prop where
  /-- contexts -/
  ctxs : u.ctxs = s.ctxs
  /-- grids -/
  grids : u.grids = s.grids
  /-- nothing is on its way -/
  quiet : u.NoSlots
theorem State.Calm.wrote {s u : State} (h : s.Calm u) (hq : s.NoSlots) : s.Wrote u := ⟨h.ctxs, h.grids, h.quiet hq⟩
theorem State.Wrote.calm {s u v : State} (h : s.Wrote u) (hv : u.Calm v) : s.Wrote v := ⟨hv.ctxs.trans h.ctxs, hv.grids.trans h.grids, hv.quiet h.quiet⟩
theorem State.Wrote.trans {s u v : State} (h : s.Wrote u) (hv : u.Wrote v) : s.Wrote v := ⟨hv.ctxs.trans h.ctxs, hv.grids.trans h.grids, hv.quiet⟩
theorem State.writeHome_wrote {s : State} (hq : s.NoSlots) (plain : Bool) (src : Option (Nat × Nat)) (me : Option Nat) (l : Loc) (bs : List Byte) :
    s.Wrote (s.writeHome plain src me l bs) := by
  have h : s.Homes (s.writeHome plain src me l bs) := (State.Homes.refl s).writeHome _ _ _ _ _
  exact ⟨by rw [h.rest], by rw [h.rest], (State.writeHome_calm hq ..).quiet (State.wrBytes_noSlots hq l bs)⟩
theorem State.ctxWrite_wrote {s : State} (hq : s.NoSlots) (plain : Bool) (c : Ctx) (l : Loc) (bs : List Byte) : s.Wrote (State.ctxWrite plain s c l bs) := by
  unfold State.ctxWrite
  rw [State.mergeSpan_noSlots hq]
  have h1 := (State.Calm.refl s).peerFill c.pkg c.site l bs.length
  exact (h1.wrote hq).trans (State.writeHome_wrote (h1.quiet hq) ..)
theorem writeSegs_one {s : State} {x : Cap} {o : Loc} {n : Nat} (hs : x.segs = [(o, n)]) (hg : x.got = []) (plain : Bool) (c : Ctx) (bs : List Byte) :
    State.writeSegs plain s c x bs = (State.ctxWrite plain s c o (bs.take n)).afterUse c x := by
  unfold State.writeSegs
  rw [hs, hg]
  rfl

/-! ### The event of an access that writes -/

section
variable {s : State} {k id l : Nat} {c : Ctx} {en : RqEntry} {x : Cap} {o : Loc} {n : Nat}
/-- An event that performs a capture by a write of storage, and changes its context. -/
theorem write_performs (h : Ready s k id l c en x) {i : Instr} {name : String} {f : RqEntry → Bool} (hx : exec i s = performEvent name k id l s f) (hf : f en = true)
    (hgo : s.mayGo c en x = true) {u : State} (hc : u.ctxs = s.ctxs) (hgr : u.grids = s.grids) (hearly : ∀ p, (u.pkg p).early = []) {m : Cap → Cap} (hm : (m x).done = true) (F : Ctx → Ctx) (hF : (F c).rq = c.rq) {g : State → State}
    (hg : ∀ t : State, t.Calm (g t)) (hp : s.performCap k en l x = some (g ((u.modCtx k F).modEntry k en.id (fun e => e.modCap l m))))
    (hl : s.latency en l = []) : ∃ t rq, Performs i s k id l c t ((F c).withRq rq) ∧ u.Turns k t ((F c).withRq rq) := by
  rw [entry_id h.entry] at hp
  have hfound : Sparse.find u.ctxs k = some c := by rw [hc]; exact h.found
  have ht : u.Turns k (g ((u.modCtx k F).modEntry k id (fun e => e.modCap l m))) ((F c).modCap id l m) :=
    (((State.Turns.refl hfound).modCtx F).modCtx _).calm (hg _)
  obtain ⟨t, rq, h1, h2⟩ := performs_of h hx hf hgo hp ht hearly hF hm (fun j _ => by unfold State.ctx; rw [hc]) hgr
  rw [hl, addLate_nil] at h1 h2
  exact ⟨t, rq, h1, h2⟩
theorem modCtx_same {u : State} {k : Nat} : u.modCtx k (fun c => c) = u := by
  have h : ∀ m : Sparse Ctx, Sparse.adjust m k (fun c => c) = m := fun m => by
    induction m with
    | nil => rfl
    | cons e m ih =>
      obtain ⟨j, a⟩ := e
      by_cases hj : k = j <;> simp [Sparse.adjust, hj, ih]
  unfold State.modCtx
  rw [h]
/-- A store performed. -/
theorem store_performs (h : Ready s k id l c en x) (hk : en.kind ≠ 3) (h6 : en.kind < 6) (hq : s.NoSlots) (hs : x.segs = [(o, n)]) (ho : s.Place o) (plain : Bool) (bs : List Byte)
    {m : Cap → Cap} (hm : (m x).done = true)
    (hp : s.performCap k en l x = some ((State.writeSegs plain s c x bs).modEntry k en.id (fun e => e.modCap l m)))
    (hgo : s.mayGo c en x = true) (hl : s.latency en l = []) :
    ∃ t c', Performs (.accessPerformed k id l) s k id l c t c' ∧ Stored s t o (bs.take n) ∧ c' = c.withRq c'.rq := by
  rw [writeSegs_one hs h.untouched.1] at hp
  have hcw := State.ctxWrite_wrote hq plain c o (bs.take n)
  have hau := (State.Calm.refl (State.ctxWrite plain s c o (bs.take n))).afterUse c x
  obtain ⟨t, rq, h1, h2⟩ := write_performs h (exec_accessPerformed_eq ..) (by simp [hk, h6]) hgo (hcw.calm hau).ctxs (hcw.calm hau).grids (hcw.calm hau).quiet.early hm (fun c => c) rfl (g := fun t => t) (fun t => .refl t)
    (by rw [modCtx_same]; exact hp) hl
  exact ⟨t, _, h1, ((State.ctxWrite_stored hq plain c ho (bs.take n)).congr (.refl s) hau.sameBytes).congr (.refl s) h2.bytes, rfl⟩
end

/-- Settles O15: each store writes the bytes of its words. -/
theorem storesPerform : Obligations.StoresPerform := by
  intro s k id l c en x o n h hk h6 hq hs ho bs hi hp hlen hn
  have hc : s.ctx k = c := State.ctx_of_find _ _ _ h.found
  have hbs : bs = ((wordsBytes x.data).take x.len).take n := by
    rw [hlen, List.take_take, Nat.min_self]
    unfold wordsBytes
    simp only [bytesOfNat_word]
    rfl
  rw [hbs]
  have hgo : s.mayGo c en x = true := mayGo_travels h (by
    rcases hi with ⟨_, _, _, _, _, e | e | e⟩ | ⟨_, _, _, _, _, e⟩ | ⟨_, _, _, _, _, e⟩ | ⟨_, _, _, _, e | e⟩ | ⟨_, _, _, _, e, _⟩ <;> rw [e] <;> exact fun _ _ _ _ _ _ _ => nofun)
  have hl : s.latency en l = [] := by
    refine latency_none l ?_ ?_
    all_goals
      rcases hi with ⟨_, _, _, _, _, e | e | e⟩ | ⟨_, _, _, _, _, e⟩ | ⟨_, _, _, _, _, e⟩ | ⟨_, _, _, _, e | e⟩ | ⟨_, _, _, _, e, _⟩ <;> rw [e] <;> exact fun _ _ _ _ _ _ => nofun
  have plain : ∀ b : Bool, s.performCap k en l x = (if x.whole = true then some ((State.writeSegs b s c x ((wordsBytes x.data).take x.len)).capDone k en.id l) else none) →
      ∃ t c', Performs (.accessPerformed k id l) s k id l c t c' ∧ Stored s t o (((wordsBytes x.data).take x.len).take n) ∧ c' = c.withRq c'.rq := fun b hb => by
    rw [if_pos h.whole] at hb
    exact store_performs h hk h6 hq hs ho b _ (m := Cap.finish) rfl hb hgo hl
  rcases hi with ⟨g, d, b, off, sz, e | e | e⟩ | ⟨g, d, b, lvl, sz, e⟩ | ⟨g, d, sp, b, off, e⟩ | ⟨g, d, b, off, e | e⟩ | ⟨g, d, b, r, e, hr, hd, hr0⟩
  · exact plain true (by unfold State.performCap; rw [e, hc])
  · exact plain true (by unfold State.performCap; rw [e, hc])
  · exact plain true (by unfold State.performCap; rw [e, hc])
  · exact plain (decide (lvl < 4)) (by unfold State.performCap; rw [e, hc])
  · exact plain true (by unfold State.performCap; rw [e, hc])
  · exact plain true (by unfold State.performCap; rw [e, hc])
  · exact plain true (by unfold State.performCap; rw [e, hc])
  · have hcw : capWords x = r := by
      unfold capWords
      rw [hs]
      simp only [List.foldl_cons, List.foldl_nil]
      omega
    have hall : wordsBytes ((x.data.drop x.progress).take r) = (wordsBytes x.data).take x.len := by
      rw [hp, List.drop_zero, List.take_of_length_le (by omega), List.take_of_length_le (by rw [length_wordsBytes]; omega)]
    refine store_performs h hk h6 hq hs ho true _ (m := fun y => { y with progress := x.progress + r, pages := [], got := [], done := decide (x.progress + r = r) }) (by simp [hp]) ?_ hgo hl
    unfold State.performCap
    rw [e, hc]
    dsimp only
    rw [hcw, if_neg (by omega), hall]

/-! ### Slots opened (R181, R185) -/

/-- Where no slot is open, a new one finds room, or must wait for pinned ones. -/
theorem slotRoom_noSlots {s : State} (hq : s.NoSlots) (p site asid extra : Nat) :
    s.slotRoom p site asid extra = if (s.pkg p).slotQuota site ≤ 0 + (s.pkg p).pinned site (some asid) + extra ∨ slotCap site ≤ 0 + (s.pkg p).pinned site none + extra
      then none else some s := by
  have hz : (s.pkg p).slots = [] := hq.slots p
  unfold State.slotRoom
  dsimp only
  rw [hz]
  by_cases h1 : (s.pkg p).slotQuota site ≤ 0 + (s.pkg p).pinned site (some asid) + extra
  · exact (if_pos h1).trans (if_pos (Or.inl h1)).symm
  · refine (if_neg h1).trans ?_
    by_cases h2 : slotCap site ≤ 0 + (s.pkg p).pinned site none + extra
    · exact (if_pos h2).trans (if_pos (Or.inr h2)).symm
    · exact (if_neg h2).trans (if_neg (not_or.mpr ⟨h1, h2⟩)).symm
theorem slotRoom_calm {s t : State} (hq : s.NoSlots) (h : s.Calm t) {p site asid extra : Nat} (hr : (s.slotRoom p site asid extra).isSome) :
    t.slotRoom p site asid extra = some t := by
  have h1 : (t.pkg p).slotQuota site = (s.pkg p).slotQuota site := h.field p (fun q => q.slotQuota site) (fun _ _ _ _ _ _ _ => rfl)
  have h2 : ∀ a, (t.pkg p).pinned site a = (s.pkg p).pinned site a := fun a => h.field p (fun q => q.pinned site a) (fun _ _ _ _ _ _ _ => rfl)
  rw [slotRoom_noSlots hq] at hr
  rw [slotRoom_noSlots (h.quiet hq), h1, h2, h2]
  by_cases hc : (s.pkg p).slotQuota site ≤ 0 + (s.pkg p).pinned site (some asid) + extra ∨ slotCap site ≤ 0 + (s.pkg p).pinned site none + extra
  · rw [if_pos hc] at hr
    cases hr
  · rw [if_neg hc]
theorem State.Calm.unitSite {s t : State} (h : s.Calm t) (o : Loc) : t.unitSite o = s.unitSite o := by
  rw [h.rest]
  cases o <;> rfl
theorem State.slotAt_noSlots {s : State} (hq : s.NoSlots) (o : Loc) : s.slotAt o = none := by
  unfold State.slotAt
  rw [hq.slots]
  rfl
/-- A slot as the opening of a word makes it. -/
def freshSlot (site : Nat) (o : Loc) (asid grid : Nat) (w : Word) : RedSlot :=
  ({ (default : RedSlot) with site := site, loc := o, asid := asid, grid := grid } : RedSlot).load w
theorem openSlot_calm {s t : State} (hq : s.NoSlots) (h : s.Calm t) {o : Loc} {asid : Nat} (hr : (s.slotRoom (s.unitSite o).1 (s.unitSite o).2 asid 0).isSome) (grid : Nat) :
    t.openSlot o asid grid = some (t, freshSlot (s.unitSite o).2 o asid grid (s.rdWord o)) := by
  have hw : t.rdWord o = s.rdWord o := by
    unfold State.rdWord
    rw [State.rdBytes_congr h.sameBytes]
  unfold State.openSlot
  rw [State.slotAt_noSlots (h.quiet hq), h.unitSite]
  dsimp only
  rw [slotRoom_calm hq h hr, Option.map_some]
  rw [hw]
  rfl
/-- What opening a word with a value gives each field. -/
theorem load_fields (x : RedSlot) (hx : x.acc = 0) (w : Word) : (x.load w).acc = acc320 (f32 w) ∧ (x.load w).loc = x.loc := by
  unfold RedSlot.load
  cases f32 w with
  | nan => exact ⟨hx, rfl⟩
  | inf n => cases n <;> exact ⟨hx, rfl⟩
  | fin n m e => exact ⟨rfl, rfl⟩
theorem freshSlot_fields (site : Nat) (o : Loc) (asid grid : Nat) (w : Word) :
    (freshSlot site o asid grid w).acc = acc320 (f32 w) ∧ (freshSlot site o asid grid w).loc = o ∧ (freshSlot site o asid grid w).round = ((default : RedSlot).load w).round := by
  obtain ⟨h1, h2⟩ := load_fields { (default : RedSlot) with site := site, loc := o, asid := asid, grid := grid } rfl w
  refine ⟨h1, h2, ?_⟩
  unfold freshSlot RedSlot.load RedSlot.round
  cases f32 w with
  | nan => rfl
  | inf n => cases n <;> rfl
  | fin n m e => rfl
/-- A contribution kept in a slot that has just been opened: memory waits, and the slot holds the word and the contribution. -/
theorem keepSlot_fresh {s t : State} (hq : s.NoSlots) (h : s.Calm t) (o : Loc) (asid grid : Nat) (old a : Word) :
    let u := ((t.keepSlot ((freshSlot (s.unitSite o).2 o asid grid old).add a)).dcacheHole o)
    SameBytes s u ∧ u.ctxs = s.ctxs ∧ u.grids = s.grids ∧ u.units = s.units ∧ (∀ p, (u.pkg p).early = [])
      ∧ ∃ y, (∀ v : State, v.units = u.units → (∀ p, (v.pkg p).slots = (u.pkg p).slots) → v.slotAt o = some y) ∧ y.acc = acc320 (f32 old) + acc320 (f32 a) := by
  intro u
  obtain ⟨f1, f2, -⟩ := freshSlot_fields (s.unitSite o).2 o asid grid old
  obtain ⟨z, hz⟩ : ∃ z, z = (freshSlot (s.unitSite o).2 o asid grid old).add a := ⟨_, rfl⟩
  have hzl : z.loc = o := by rw [hz, RedSlot.add_eq]; exact f2
  have hza : z.acc = acc320 (f32 old) + acc320 (f32 a) := by rw [hz, RedSlot.add_eq]; exact congrArg (· + _) f1
  have hcalm : (t.keepSlot z).Calm u := by
    rw [hz]
    exact (State.Calm.refl _).dcacheHole o
  have hk : SameBytes t (t.keepSlot z) := fun a => by cases a <;> rfl
  refine ⟨(h.sameBytes.trans hk).trans hcalm.sameBytes, hcalm.ctxs.trans h.ctxs, hcalm.grids.trans h.grids, hcalm.units.trans h.units, fun p => ?_, { z with used := (t.pkg (t.unitSite o).1).slotClock }, fun v hv hs => ?_, hza⟩
  · rw [hcalm.field p Package.early (fun _ _ _ _ _ _ _ => rfl)]
    unfold State.keepSlot
    rw [State.pkg_modPkg]
    have := (h.quiet hq).early
    split
    · exact this _
    · exact this _
  · have hu : v.unitSite o = t.unitSite o := by
      have : v.units = t.units := hv.trans hcalm.units
      cases o with
      | store w a => unfold State.unitSite State.unit; rw [this]
      | _ => rfl
    unfold State.slotAt
    rw [hs, hcalm.field _ Package.slots (fun _ _ _ _ _ _ _ => rfl), hu]
    unfold State.keepSlot
    rw [hzl, State.pkg_modPkg_same]
    dsimp only
    rw [(h.quiet hq).slots, List.filter_nil, List.nil_append, List.find?_cons_of_pos (by simp)]

/-! ### Atomics -/

/-- A word at its home is the bytes that are read there. -/
theorem stored_same {s : State} (o : Loc) : Stored s s o (bytesOfNat 4 (s.rdWord o).toNat) := by
  have hb : bytesOfNat 4 (s.rdWord o).toNat = s.rdBytes o 4 := by
    have h1 := bytesOfNat_natOfBytes (s.rdBytes o 4)
    have h2 := natOfBytes_lt (s.rdBytes o 4)
    rw [State.length_rdBytes] at h1 h2
    unfold State.rdWord
    rw [BitVec.toNat_ofNat, Nat.mod_eq_of_lt (by omega), h1]
  refine ⟨fun i hi => ?_, fun _ _ => rfl⟩
  rw [hb] at hi ⊢
  rw [List.getD_eq_getElem?_getD, List.getElem?_eq_getElem hi, Option.getD_some]
  simp [State.rdBytes]
theorem atomNew_eq (op : AtomOp) (old a : Word) : atomNew op old a = match op with
    | .add => old + a | .and => old &&& a | .or => old ||| a | .xor => old ^^^ a
    | .min => if a.toInt < old.toInt then a else old | .max => if old.toInt < a.toInt then a else old
    | .minU => if a.toNat < old.toNat then a else old | .maxU => if old.toNat < a.toNat then a else old
    | .exch => a | .fadd => old := by
  cases op <;> simp [atomNew, BitVec.slt, BitVec.ult]
/-- A push after a write of vector registers changes those, and lanes. -/
theorem push_only {c z : Ctx} (hz : z = { c with v := z.v, vtags := z.vtags }) (l : Nat) (b : Bool) (rq : List RqEntry) :
    (z.push l b).withRq rq = { c with v := z.v, vtags := z.vtags, rq := rq, lanes := (z.push l b).lanes } :=
  congrArg (fun y : Ctx => { y with lanes := (z.push l b).lanes, rq := rq }) hz
section
variable {s : State} {k id l : Nat} {c : Ctx} {en : RqEntry} {x : Cap} {o : Loc}
theorem atom_performs (h : Ready s k id l c en x) (hk : en.kind = 2) (hl : l < 32) (hs : x.segs = [(o, 4)]) {g : Guard} {d b lvl : Nat} {op : AtomOp}
    (e : en.ins = .atom g d b lvl op) {a : Word} (hd : x.data = [a]) {u : State} {old : Word} (hat : s.atomic c o op a = some (u, old)) (hc : u.ctxs = s.ctxs)
    (hgr : u.grids = s.grids) (hearly : ∀ p, (u.pkg p).early = []) :
    ∃ t c', Performs (.accessPerformed k id l) s k id l c t c' ∧ u.Turns k t c' ∧ c'.rdV d l = old ∧ KeepsV c c' [l] [d] ∧ c' = { c with v := c'.v, vtags := c'.vtags, rq := c'.rq } := by
  have hck : s.ctx k = c := State.ctx_of_find _ _ _ h.found
  have hp : s.performCap k en l x = some ((((u.modCtx k (fun c => c.wrV d l old)).modEntry k en.id (fun e => e.modCap l Cap.finish))).acquire c lvl) := by
    unfold State.performCap
    rw [e, hck, Nat.mod_eq_of_lt hl]
    dsimp only
    rw [hs]
    dsimp only
    rw [if_neg (by rw [h.whole]; simp), hd, List.headD_cons, hat]
    rfl
  obtain ⟨t, rq, h1, h2⟩ := write_performs h (exec_accessPerformed_eq ..) (by simp [hk]) (mayGo_travels h (by rw [e]; exact fun _ _ _ _ _ _ _ => nofun)) hc hgr hearly (m := Cap.finish) rfl
    (fun c => c.wrV d l old) rfl (g := fun t => t.acquire c lvl) (fun t => (State.Calm.refl t).acquire _ _) hp
    (latency_none l (by rw [e]; exact fun _ _ _ _ _ _ => nofun) (by rw [e]; exact fun _ _ _ _ _ _ => nofun))
  refine ⟨t, _, h1, h2, ?_, ⟨fun m j hj hn => ?_, fun m => ?_⟩, rfl⟩
  · exact (Ctx.rdV_wrV c d l old d l hl hl).trans (if_pos ⟨rfl, rfl⟩)
  · exact (Ctx.rdV_wrV c d l old m j hl hj).trans (if_neg (fun h => hn ⟨by simp [h.1], by simp [h.2]⟩))
  · simp only [List.mem_singleton]
    exact Ctx.vtag_wrV c d l old m
theorem cas_performs (h : Ready s k id l c en x) (hk : en.kind = 2) (hl : l < 32) (hs : x.segs = [(o, 4)]) {g : Guard} {d b lvl : Nat}
    (e : en.ins = .cas g d b lvl) {a b' : Word} (hd : x.data = [a, b']) {u : State} {old : Word} (hu : (s.compareSwap c o a b').1 = u) (w3 : (s.compareSwap c o a b').2 = old)
    (w1 : s.Wrote u) :
    ∃ t c', Performs (.accessPerformed k id l) s k id l c t c' ∧ SameBytes u t ∧ c'.rdV d l = old ∧ KeepsV c c' [l] [d]
      ∧ (∀ m, c'.lane m = if m = l then { c.lane m with pred := pushed (c.preds m) (decide (old = a)) } else c.lane m)
      ∧ c' = { c with v := c'.v, vtags := c'.vtags, rq := c'.rq, lanes := c'.lanes } := by
  have hck : s.ctx k = c := State.ctx_of_find _ _ _ h.found
  have hp : s.performCap k en l x = some ((((u.modCtx k (fun c => (c.wrV d l old).push l (decide (old = a)))).modEntry k en.id (fun e => e.modCap l Cap.finish))).acquire c lvl) := by
    unfold State.performCap
    rw [e, hck, Nat.mod_eq_of_lt hl]
    dsimp only
    rw [hs, hd]
    dsimp only
    rw [if_neg (by rw [h.whole]; simp), w3, hu]
    rfl
  obtain ⟨t, rq, h1, h2⟩ := write_performs h (exec_accessPerformed_eq ..) (by simp [hk]) (mayGo_travels h (by rw [e]; exact fun _ _ _ _ _ _ _ => nofun)) w1.ctxs w1.grids w1.quiet.early (m := Cap.finish) rfl
    (fun c => (c.wrV d l old).push l (decide (old = a))) rfl (g := fun t => t.acquire c lvl) (fun t => (State.Calm.refl t).acquire _ _) hp
    (latency_none l (by rw [e]; exact fun _ _ _ _ _ _ => nofun) (by rw [e]; exact fun _ _ _ _ _ _ => nofun))
  refine ⟨t, _, h1, h2.bytes, ?_, ⟨fun m j hj hn => ?_, fun m => ?_⟩, fun m => ?_, push_only (c := c) (z := c.wrV d l old) rfl l _ rq⟩
  · exact (Ctx.rdV_wrV c d l old d l hl hl).trans (if_pos ⟨rfl, rfl⟩)
  · exact (Ctx.rdV_wrV c d l old m j hl hj).trans (if_neg (fun h => hn ⟨by simp [h.1], by simp [h.2]⟩))
  · simp only [List.mem_singleton]
    exact Ctx.vtag_wrV c d l old m
  · have hm : (c.push l (decide (old = a))).lane m = _ := Ctx.lane_modLane c l (fun x => { x with pred := (x.pred <<< 1) ||| (if decide (old = a) then 1#8 else 0#8) }) m
    refine Eq.trans hm ?_
    by_cases hm : m = l
    · rw [if_pos hm, if_pos hm, hm]
      rfl
    · rw [if_neg hm, if_neg hm]
/-- Before an atomic, its core's own copy of the line is dropped. -/
theorem atomHome_calm (hq : s.NoSlots) (c : Ctx) (o : Loc) (n : Nat) : s.Calm ((s.toHome c o n).dropLine c o) := by
  rw [State.toHome_noSlots hq]
  exact (State.Calm.refl s).dropLine _ _
end
theorem atomicsPerform : Claims.AtomicsPerform := by
  intro s k id l c en x o h hk hl hq hs ho old
  have hcalm := atomHome_calm hq c o 4
  have hold : ∀ t : State, s.Calm t → t.rdWord o = old := fun t ht => by
    unfold State.rdWord
    rw [State.rdBytes_congr ht.sameBytes]
    rfl
  have hplace : State.Place ((s.toHome c o 4).dropLine c o) o := by
    unfold State.Place at ho ⊢
    rw [hcalm.units]
    exact ho
  refine ⟨fun g d b lvl op a e hd hop => ?_, fun g d b lvl a e hd hr => ?_, fun g d b lvl a b' e hd => ?_⟩
  · have hat : s.atomic c o op a = some (((s.toHome c o 4).dropLine c o).homeWrite none (some c.sharer) o (bytesOfNat 4 (atomNew op old a).toNat), old) := by
      unfold State.atomic
      dsimp only
      rw [if_neg hop, State.releaseSpan_noSlots (hcalm.quiet hq), hold _ hcalm]
    have hw := (hcalm.wrote hq).trans (State.writeHome_wrote (hcalm.quiet hq) false none (some c.sharer) o (bytesOfNat 4 (atomNew op old a).toNat))
    obtain ⟨t, c', h1, h2, h3, h4, h5⟩ := atom_performs h hk hl hs e hd hat hw.ctxs hw.grids hw.quiet.early
    have hst := (State.homeWrite_stored (hcalm.quiet hq) none (some c.sharer) hplace (bytesOfNat 4 (atomNew op old a).toNat)).congr hcalm.sameBytes h2.bytes
    rw [atomNew_eq] at hst
    exact ⟨t, c', h1, hst, h3, h4, h5⟩
  · have hat : s.atomic c o .fadd a = some ((((s.toHome c o 4).dropLine c o).keepSlot ((freshSlot (s.unitSite o).2 o c.asid c.grid old).add a)).dcacheHole o,
        (freshSlot (s.unitSite o).2 o c.asid c.grid old).round) := by
      unfold State.atomic
      dsimp only
      rw [if_pos rfl, openSlot_calm hq hcalm hr]
      rfl
    obtain ⟨k1, k2, k3, k4, k5, y, k6, k7⟩ := keepSlot_fresh hq hcalm o c.asid c.grid old a
    obtain ⟨t, c', h1, h2, h3, h4, h5⟩ := atom_performs h hk hl hs e hd hat k2 k3 k5
    exact ⟨t, c', y, h1, k1.trans h2.bytes, k6 t h2.units (fun p => (h2.early p).2), k7, h3.trans (freshSlot_fields ..).2.2, h4, h5⟩
  · have hw : s.Wrote ((s.compareSwap c o a b').1) ∧ Stored s (s.compareSwap c o a b').1 o (bytesOfNat 4 (if old = a then b' else old).toNat) ∧ (s.compareSwap c o a b').2 = old := by
      unfold State.compareSwap
      rw [State.releaseSpan_noSlots (hcalm.quiet hq)]
      dsimp only
      rw [hold _ hcalm]
      by_cases ha : old = a
      · rw [if_pos ha, if_pos ha]
        exact ⟨(hcalm.wrote hq).trans (State.writeHome_wrote (hcalm.quiet hq) false none (some c.sharer) o (bytesOfNat 4 b'.toNat)),
          (State.homeWrite_stored (hcalm.quiet hq) none (some c.sharer) hplace (bytesOfNat 4 b'.toNat)).congr hcalm.sameBytes (.refl _), rfl⟩
      · rw [if_neg ha, if_neg ha]
        exact ⟨hcalm.wrote hq, hold s (.refl s) ▸ (stored_same o).congr (.refl s) hcalm.sameBytes, rfl⟩
    obtain ⟨w1, w2, w3⟩ := hw
    obtain ⟨t, c', h1, h2, h3, h4, h5, h6⟩ := cas_performs h hk hl hs e hd rfl w3 w1
    exact ⟨t, c', h1, w2.congr (.refl s) h2, h3, h4, h5, h6⟩

/-! ### Contributions -/

theorem redInt_eq (op : RedOp) (old v : Word) : op ≠ .fadd → redInt op old v = match op with
    | .add => old + v | .min => if v.toInt < old.toInt then v else old | .max => if old.toInt < v.toInt then v else old
    | .and => old &&& v | .or => old ||| v | .xor => old ^^^ v | .minU => if v.toNat < old.toNat then v else old
    | .maxU => if old.toNat < v.toNat then v else old | .fadd => old := by
  intro hop
  cases op with
  | fadd => exact absurd rfl hop
  | _ => simp [redInt, BitVec.slt, BitVec.ult]
section
variable {s : State} {k id l : Nat} {c : Ctx} {en : RqEntry} {x : Cap} {o : Loc}
/-- A contribution outside shadow lines is performed where its home takes it. -/
theorem contribution_performs (h : Ready s k id l c en x) (hk : en.kind = 3) (hs : x.segs = [(o, 4)]) {g : Guard} {lvl rx ry : Nat} {op : RedOp} {one r : Bool}
    (e : en.ins = .reduce g lvl rx ry op one r) {v : Word} (hd : x.data = [v]) (hsh : s.usesShadow c lvl op o = false) {u : State}
    (hcon : (s.toHome c o 4).contribute o op v c.asid c.grid = some u) (hc : u.ctxs = s.ctxs) (hgr : u.grids = s.grids) (hearly : ∀ p, (u.pkg p).early = []) :
    ∃ t c', Performs (.reduceContribution k id l) s k id l c t c' ∧ u.Turns k t c' ∧ c' = c.withRq c'.rq := by
  have hck : s.ctx k = c := State.ctx_of_find _ _ _ h.found
  have hp : s.performCap k en l x = some ((u.modCtx k (fun c => c)).modEntry k en.id (fun e => e.modCap l Cap.finish)) := by
    unfold State.performCap
    rw [e, hck]
    dsimp only
    rw [hs]
    dsimp only
    rw [if_neg (by rw [h.whole]; simp), hd, List.headD_cons, if_neg (by rw [hsh]; simp), hcon, modCtx_same]
    rfl
  have hgo : s.mayGo c en x = true := by
    unfold State.mayGo
    rw [e, hs]
    dsimp only
    rw [if_neg (by rw [hsh]; simp), ← hs]
    exact h.travels
  obtain ⟨t, rq, h1, h2⟩ := write_performs h (exec_reduceContribution_eq ..) (by simp [hk]) hgo hc hgr hearly (m := Cap.finish) rfl (fun c => c) rfl (g := fun t => t) (fun t => .refl t) hp
    (latency_none l (by rw [e]; exact fun _ _ _ _ _ _ => nofun) (by rw [e]; exact fun _ _ _ _ _ _ => nofun))
  exact ⟨t, _, h1, h2, rfl⟩
end
theorem contributionsArrive : Claims.ContributionsArrive := by
  intro s k id l c en x o v g lvl rx ry op one r h hk hq hs ho e hd hsh old
  have hto : s.toHome c o 4 = s := State.toHome_noSlots hq c o 4
  refine ⟨fun hop => ?_, fun hop hr => ?_⟩
  · have hcon : (s.toHome c o 4).contribute o op v c.asid c.grid = some ((s.homeWrite none none o (bytesOfNat 4 (redInt op old v).toNat)).dcacheHole o) := by
      rw [hto]
      unfold State.contribute
      rw [if_neg hop, State.releaseSpan_noSlots hq]
    have hhole := (State.Calm.refl (s.homeWrite none none o (bytesOfNat 4 (redInt op old v).toNat))).dcacheHole o
    have hw := (State.writeHome_wrote hq false none none o (bytesOfNat 4 (redInt op old v).toNat)).calm hhole
    obtain ⟨t, c', h1, h2, h3⟩ := contribution_performs h hk hs e hd hsh hcon hw.ctxs hw.grids hw.quiet.early
    have hst := ((State.homeWrite_stored hq none none ho (bytesOfNat 4 (redInt op old v).toNat)).congr (.refl s) hhole.sameBytes).congr (.refl s) h2.bytes
    rw [redInt_eq op old v hop] at hst
    exact ⟨t, c', h1, hst, h3⟩
  · subst hop
    have hcon : (s.toHome c o 4).contribute o .fadd v c.asid c.grid = some ((s.keepSlot ((freshSlot (s.unitSite o).2 o c.asid c.grid old).add v)).dcacheHole o) := by
      rw [hto]
      unfold State.contribute
      rw [if_pos rfl, openSlot_calm hq (.refl s) hr]
      rfl
    obtain ⟨k1, k2, k3, k4, k5, y, k6, k7⟩ := keepSlot_fresh hq (.refl s) o c.asid c.grid old v
    obtain ⟨t, c', h1, h2, h3⟩ := contribution_performs h hk hs e hd hsh hcon k2 k3 k5
    exact ⟨t, c', y, h1, k1.trans h2.bytes, k6 t h2.units (fun p => (h2.early p).2), k7, h3⟩

/-- Settles O16: each event performs the capture by its operation at the home of the word. -/
theorem atomicsAndContributions : Obligations.AtomicsAndContributions :=
  ⟨atomicsPerform, contributionsArrive⟩

end Sys2Proof.Machine
end

section
/-! What a lane of an `LDX` moves (R219), and what the streams of an `LDSC` fill (R66, R67, R218). -/

namespace Sys2Proof.Machine

/-! ### An entry changed in a queue -/

/-- An entry of a context's queue changed. -/
def Ctx.modEntry (c : Ctx) (id : Nat) (f : RqEntry → RqEntry) : Ctx := { c with rq := c.rq.map (fun e => if e.id = id then f e else e) }
section
variable {s : State} {k id l : Nat} {c : Ctx} {en : RqEntry} {x : Cap}
theorem modEntry_rq (h : Ready s k id l c en x) {f : RqEntry → RqEntry} (hid : (f en).id = id) (hm : ∃ z, Sparse.find (f en).caps l = some z ∧ z.done = true) :
    (∀ y ∈ (c.modEntry id f).rq, y ∈ c.rq ∧ y.id ≠ id ∨ y.id = id ∧ ∃ z, Sparse.find y.caps l = some z ∧ z.done = true)
      ∧ ∀ y ∈ c.rq, y.id ≠ id → y ∈ (c.modEntry id f).rq := by
  refine ⟨fun y hy => ?_, fun y hy hn => List.mem_map.mpr ⟨y, hy, if_neg hn⟩⟩
  obtain ⟨z, hz, rfl⟩ := List.mem_map.mp hy
  by_cases hz' : z.id = id
  · rw [if_pos hz']
    obtain rfl := h.only z hz hz'
    exact .inr ⟨hid, hm⟩
  · rw [if_neg hz']
    exact .inl ⟨hz, hz'⟩
theorem find_modCap (caps : Sparse Cap) (l : Nat) (m : Cap → Cap) (j : Nat) :
    Sparse.find (caps.map (fun y => if y.1 = l then (y.1, m y.2) else y)) j = if j = l then (Sparse.find caps j).map m else Sparse.find caps j := by
  induction caps with
  | nil => simp [Sparse.find]
  | cons e caps ih =>
    obtain ⟨i, z⟩ := e
    by_cases hi : i = l
    · by_cases hj : j = i
      · simp [Sparse.find, hj, hi]
      · simp [Sparse.find, hi, ih]
        split <;> simp_all
    · by_cases hj : j = i
      · simp [Sparse.find, hj, hi]
      · simp [Sparse.find, hj, hi, ih]
/-- What an event that performs a capture leaves, once its entry settles. -/
theorem settles_of (h : Ready s k id l c en x) {i : Instr} {u t1 : State} {F : Ctx} {f : RqEntry → RqEntry} (hx : exec i s = .next (t1.settle k id)) (ht : u.Turns k t1 (F.modEntry id f))
    (hu : ∀ p, (u.pkg p).early = []) (hF : F.rq = c.rq) (hid : (f en).id = id) (hm : ∃ z, Sparse.find (f en).caps l = some z ∧ z.done = true)
    (ho : ∀ j, j ≠ k → u.ctx j = s.ctx j) (hg : u.grids = s.grids) :
    ∃ t rq, Performs i s k id l c t (F.withRq rq) ∧ u.Turns k t (F.withRq rq) := by
  obtain ⟨rq, hrq, hin, hout⟩ := settled_rq (F.modEntry id f) id
  have hc : (F.modEntry id f).rq = (c.modEntry id f).rq := by
    show F.rq.map _ = c.rq.map _
    rw [hF]
  rw [hc] at hin hout
  obtain ⟨m1, m2⟩ := modEntry_rq h hid hm
  have h2 := ht.settle hu id
  rw [hrq] at h2
  exact ⟨_, rq, ⟨hx, h2.ctx, fun j hj => (h2.others j hj).trans (ho j hj), h2.grids.trans hg, fun y hy => m1 y (hin y hy), fun y hy hn => hout y (m2 y hy hn) hn⟩, h2⟩
end

/-! ### Engine accesses where nothing is on its way -/

theorem engineRead_one {s : State} (hq : s.NoSlots) (c : Ctx) (o : Loc) (n : Nat) : s.Calm (s.engineRead c [(o, n)]).1 ∧ (s.engineRead c [(o, n)]).2 = s.rdBytes o n := by
  have h1 := (State.Calm.refl s).peerFill c.pkg c.site o n
  have e : s.engineRead c [(o, n)] = (s.peerFill c.pkg c.site o n, (s.peerFill c.pkg c.site o n).rdBytes o n) := by
    unfold State.engineRead
    rw [List.foldl_cons, List.foldl_nil, State.toHome_noSlots hq, State.homeRead_noSlots (h1.quiet hq)]
    rfl
  rw [e]
  exact ⟨h1, State.rdBytes_congr h1.sameBytes _ _⟩
theorem State.find_modUnit (s : State) (u : Nat) (f : WUnit → WUnit) (n : Nat) :
    Sparse.find (s.modUnit u f).units n = if n = u then (Sparse.find s.units u).map f else Sparse.find s.units n := by
  simp [State.modUnit, Sparse.find_adjust]
/-- Places stay in a machine whose bytes are written. -/
theorem wrBytes_place {s : State} {o : Loc} (hp : s.Place o) (l : Loc) (bs : List Byte) : (s.wrBytes l bs).Place o := by
  unfold State.wrBytes
  refine foldl_induct (fun x : State × Nat => x.1.Place o) _ (fun x b h => ?_) bs (s, 0) hp
  cases e : l.add x.2 with
  | store u a =>
    show State.Place (x.1.modUnit u _) o
    unfold State.Place at h ⊢
    cases o with
    | store w n =>
      dsimp only at h ⊢
      rw [State.find_modUnit]
      split
      · next hw => subst hw; simpa using h
      · exact h
    | _ => exact h
  | _ => exact h
/-- A lane's bytes moved to core store. -/
theorem ldxMove_moves {s : State} (hq : s.NoSlots) (c : Ctx) {x : Cap} {o dst p : Loc} {n : Nat} (hs : x.segs = [(o, n)]) (hn : x.len = n) (hg : x.got = []) (hd : s.Place dst)
    (hp : s.Place p) : s.Wrote (s.ldxMove c x dst none) ∧ (s.ldxMove c x dst none).Place p ∧ Stored s (s.ldxMove c x dst none) dst (s.rdBytes o n) := by
  obtain ⟨h1, h2⟩ := engineRead_one hq c (x.placeAt 0) n
  have hb : s.rdBytes (x.placeAt 0) n = s.rdBytes o n := by
    rcases Nat.eq_zero_or_pos n with rfl | hpos
    · rfl
    · unfold Cap.placeAt
      rw [hs]
      dsimp only
      rw [if_pos hpos, Loc.add_zero]
  have e : s.ldxMove c x dst none = (s.engineRead c [(x.placeAt 0, n)]).1.homeWrite none (some c.sharer) dst (s.rdBytes o n) := by
    unfold State.ldxMove Cap.parts
    rw [hg]
    dsimp only
    rw [List.foldl_cons, List.foldl_nil, Loc.add_zero, hn, h2, hb]
  have hcalm := State.writeHome_calm (h1.quiet hq) false none (some c.sharer) dst (s.rdBytes o n)
  rw [e]
  exact ⟨(h1.wrote hq).trans (State.writeHome_wrote (h1.quiet hq) ..), Place_congr hcalm.units (wrBytes_place (Place_congr h1.units hp) _ _),
    (State.homeWrite_stored (h1.quiet hq) none (some c.sharer) (Place_congr h1.units hd) _).congr h1.sameBytes (.refl _)⟩
theorem objTest_lt {x : Nat} (hx : x < 2 ^ 128) : objTest x < 2 ^ 128 := by
  unfold objTest
  split
  · exact objPut_lt (objPut_lt (objPut_lt (objPut_lt hx _ (by decide) (by decide)) _ (by decide) (by decide)) _ (by decide) (by decide)) _ (by decide) (by decide)
  · exact hx
theorem object_lt (s : State) (o : Loc) : s.object o < 2 ^ 128 := by
  have h := natOfBytes_lt (s.rdBytes o 16)
  rw [State.length_rdBytes] at h
  exact lt_of_lt_of_le h (by decide)
/-- An object that has been written reads as what it became. -/
theorem object_stored {s t : State} {o : Loc} {v : Nat} (h : Stored s t o (bytesOfNat 16 v)) (hv : v < 2 ^ 128) : t.object o = v := by
  have := h.rdBytes
  rw [length_bytesOfNat] at this
  unfold State.object
  rw [this, natOfBytes_bytesOfNat]
  exact Nat.mod_eq_of_lt (lt_of_lt_of_le hv (by decide))
/-- An event of `LDX` releases where nothing is on its way. -/
theorem mayRelease_noSlots {s : State} (hq : s.NoSlots) (c : Ctx) {lvl : Nat} (h : lvl < 4) : s.mayRelease c lvl = true := by
  unfold State.mayRelease
  rw [hq.early, decide_eq_true h]
  simp
theorem gatherLanesWrite : Claims.GatherLanesWrite := by
  intro s k id l c en x o n dst h hk hq hs hlen hclear hcs hd hobj hapart
  have hc : s.ctx k = c := State.ctx_of_find _ _ _ h.found
  have hid := entry_id h.entry
  obtain ⟨hw, hpl, hst⟩ := ldxMove_moves hq c hs hlen h.untouched.1 hd hobj
  obtain ⟨u, hu⟩ : ∃ u, u = (s.ldxMove c x dst none).release c 2 := ⟨_, rfl⟩
  have hcalm : (s.ldxMove c x dst none).Calm u := hu ▸ State.release_calm hw.quiet c 2
  have hqu : u.NoSlots := hcalm.quiet hw.quiet
  obtain ⟨v, hv⟩ : ∃ v, v = objTest (objPut (s.object en.obj) 95 64 (min (objFld (s.object en.obj) 95 64 + n) (2 ^ 32 - 1))) := ⟨_, rfl⟩
  have hvlt : v < 2 ^ 128 := hv ▸ objTest_lt (objPut_lt (object_lt _ _) _ (by decide) (by decide))
  have hst1 : Stored s u dst (s.rdBytes o n) := hst.congr (.refl s) hcalm.sameBytes
  have hobj1 : u.object en.obj = s.object en.obj := by
    unfold State.object
    refine congrArg natOfBytes (List.map_congr_left (fun j hj => hst1.2 _ (fun i hi => ?_)))
    rw [State.length_rdBytes] at hi
    exact (hapart i hi j (List.mem_range.mp hj)).symm
  have hcb : u.countBytes en.obj n = u.wrBytes en.obj (bytesOfNat 16 v) := by
    unfold State.countBytes
    rw [objectOp_noSlots hqu, hobj1, ← hv]
  have hst2 : Stored u (u.countBytes en.obj n) en.obj (bytesOfNat 16 v) := by
    rw [hcb]
    exact State.wrBytes_stored u _ _ (Place_congr hcalm.units hpl)
  obtain ⟨w1, w2⟩ := wrBytes_ctxs u en.obj (bytesOfNat 16 v)
  have hctxs : (u.countBytes en.obj n).ctxs = s.ctxs := by rw [hcb, w1, hcalm.ctxs, hw.ctxs]
  have hgr : (u.countBytes en.obj n).grids = s.grids := by rw [hcb, w2, hcalm.grids, hw.grids]
  have hquiet : (u.countBytes en.obj n).NoSlots := by rw [hcb]; exact State.wrBytes_noSlots hqu _ _
  have hx : exec (.ldxLaneWrite k id l) s = .next (((u.countBytes en.obj n).modEntry k id (fun en => { en.modCap l Cap.finish with counted := en.counted + n })).settle k id) := by
    rw [exec_ldxLaneWrite_eq]
    unfold execLdxLaneWrite
    dsimp only
    rw [hc, h.entry]
    dsimp only
    rw [h.cap]
    have hready : s.ldxReady c en l x = true := by
      unfold State.ldxReady
      rw [hk, h.due, h.whole, hid, hclear, h.travels]
      rfl
    dsimp only
    rw [if_neg (by rw [hready, mayRelease_noSlots hq c (by decide)]; simp), hlen, hcs, hu]
    rfl
  obtain ⟨t, rq, h1, h2⟩ := settles_of h hx ((State.Turns.refl (c := c) (by rw [hctxs]; exact h.found)).modCtx _) hquiet.early rfl hid
    ⟨x.finish, (find_modCap _ _ _ _).trans (by rw [if_pos rfl, h.cap]; rfl), rfl⟩ (fun j _ => by unfold State.ctx; rw [hctxs]) hgr
  have hfin : Stored u t en.obj (bytesOfNat 16 v) := hst2.congr (.refl u) h2.bytes
  have hout : ∀ a, (∀ j < 16, a ≠ en.obj.add j) → t.rdByte a = u.rdByte a := fun a ha => hfin.2 a (fun j hj => ha j (by rwa [length_bytesOfNat] at hj))
  refine ⟨t, _, h1, rfl, fun i hi => ?_, (object_stored hfin hvlt).trans hv, fun a ha hj => ?_⟩
  · rw [hout _ (hapart i hi), hst1.1 i (by rwa [State.length_rdBytes])]
    simp [State.rdBytes, hi]
  · rw [hout a hj]
    exact hst1.2 a (fun i hi => ha i (by rwa [State.length_rdBytes] at hi))

/-! ### What the streams of an `LDSC` fill -/

/-- One register of a run filled. -/
def Ctx.fillPart (base : Nat) (recs : List Byte) (gen : Nat) (band : Bool) (c : Ctx) (j : Nat) : Ctx :=
  (c.setPayload (base + j) ((recs.drop (32 * j)).take 32) band).setGen (base + j) gen band
/-- What filling a run leaves, after as many registers as have been filled. -/
structure Filled (base : Nat) (recs : List Byte) (gen : Nat) (band : Bool) (c0 : Ctx) (n : Nat) (c : Ctx) : Prop where
  edit : c = { c0 with vtags := c.vtags, ttags := c.ttags, scales := c.scales, sctl := c.sctl }
  done : ∀ j < n, c.sBand (base + j) = band ∧ c.sGen (base + j) = gen ∧ ∀ q < 32, c.sByte (base + j) q = if band ∧ 24 ≤ q then 0 else (recs.getD (32 * j + q) 0).toNat
  rest : ∀ m, (∀ j < n, m ≠ base + j) → c.sBand m = c0.sBand m ∧ c.sGen m = c0.sGen m ∧ ∀ q < 32, c.sByte m q = c0.sByte m q
  once : TagsOnce c
  tags : ∀ tile m, c.tagOf tile m = c0.tagOf tile m ∨ c.tagOf tile m = c0.tagOf tile m &&& 0x7FFF
section
variable {base gen n : Nat} {recs : List Byte} {band : Bool} {c0 c : Ctx}
theorem Filled.succ (h : Filled base recs gen band c0 n c) (hg : gen < 16) (hl : 32 * (n + 1) ≤ recs.length) : Filled base recs gen band c0 (n + 1) (c.fillPart base recs gen band n) := by
  have hlen : ((recs.drop (32 * n)).take 32).length = 32 := by rw [List.length_take, List.length_drop]; omega
  have hby : ∀ m q, q < 32 → (c.fillPart base recs gen band n).sByte m q = if m = base + n then (if band ∧ 24 ≤ q then 0 else (recs.getD (32 * n + q) 0).toNat) else c.sByte m q := by
    intro m q hq
    unfold Ctx.fillPart
    rw [Ctx.sByte_setGen, sByte_setPayload _ _ _ _ hlen m q hq]
    congr 3
    rw [getD_take _ _ _ _ hq, List.getD_eq_getElem?_getD, List.getElem?_drop, List.getD_eq_getElem?_getD]
  have hgen : ∀ m, (c.fillPart base recs gen band n).sGen m = if m = base + n then gen else c.sGen m := fun m => by
    unfold Ctx.fillPart
    rw [Ctx.sGen_setGen, Nat.mod_eq_of_lt hg]
    rfl
  have hband : ∀ m, (c.fillPart base recs gen band n).sBand m = if m = base + n then band else c.sBand m := fun m => by
    unfold Ctx.fillPart
    rw [Ctx.sBand_setGen]
    rfl
  have hp : TagsOnce (c.setPayload (base + n) ((recs.drop (32 * n)).take 32) band) := h.once
  refine ⟨?_, fun j hj => ?_, fun m hm => ?_, hp.setGen _ _ _, fun tile m => ?_⟩
  · have he : ∀ x : Ctx, x.fillPart base recs gen band n = { x with vtags := (x.fillPart base recs gen band n).vtags, ttags := (x.fillPart base recs gen band n).ttags, scales := (x.fillPart base recs gen band n).scales, sctl := (x.fillPart base recs gen band n).sctl } := fun _ => rfl
    rw [he c]
    exact congrArg (fun y : Ctx => { y with vtags := (c.fillPart base recs gen band n).vtags, ttags := (c.fillPart base recs gen band n).ttags, scales := (c.fillPart base recs gen band n).scales, sctl := (c.fillPart base recs gen band n).sctl }) h.edit
  · rcases Nat.lt_or_ge j n with hjn | hjn
    · obtain ⟨h1, h2, h3⟩ := h.done j hjn
      refine ⟨?_, ?_, fun q hq => ?_⟩
      · rw [hband, if_neg (by omega), h1]
      · rw [hgen, if_neg (by omega), h2]
      · rw [hby _ q hq, if_neg (by omega), h3 q hq]
    · obtain rfl : j = n := by omega
      exact ⟨by rw [hband, if_pos rfl], by rw [hgen, if_pos rfl], fun q hq => by rw [hby _ q hq, if_pos rfl]⟩
  · obtain ⟨h1, h2, h3⟩ := h.rest m (fun j hj => hm j (by omega))
    have hne := hm n (by omega)
    exact ⟨by rw [hband, if_neg hne, h1], by rw [hgen, if_neg hne, h2], fun q hq => by rw [hby m q hq, if_neg hne, h3 q hq]⟩
  · have ht : (c.fillPart base recs gen band n).tagOf tile m = staleTag tile (base + n) (gen % 16) (c.tagOf tile m) := (tagOf_setGen hp tile _ _ _ m)
    rw [ht, staleTag]
    split
    · rcases h.tags tile m with e | e
      · exact .inr (by rw [e])
      · exact .inr (by rw [e, unbound_unbound])
    · exact h.tags tile m
theorem fillRun_filled (base : Nat) (recs : List Byte) {gen : Nat} (band : Bool) {c : Ctx} (hg : gen < 16) (h1 : TagsOnce c) (n : Nat) (hl : 32 * n ≤ recs.length) :
    Filled base recs gen band c n ((List.range n).foldl (Ctx.fillPart base recs gen band) c) := by
  induction n with
  | zero => exact ⟨rfl, fun _ h => absurd h (Nat.not_lt_zero _), fun _ _ => ⟨rfl, rfl, fun _ _ => rfl⟩, h1, fun _ _ => .inl rfl⟩
  | succ n ih =>
    rw [List.range_succ, List.foldl_append]
    exact (ih (by omega)).succ hg hl
end
theorem applyLdsc_eq (c : Ctx) (w : Word) (sh : RunShape) (data recs : List Byte) :
    c.applyLdsc w sh data recs = ((List.range (2 ^ sh.log)).foldl (Ctx.fillPart (wbits w 31 26) recs ((c.sGen (wbits w 31 26) + 1) % 16) sh.band) (c.wrTile (wbits w 25 22) 0 data)).bindT
      (wbits w 25 22) (wbits w 31 26) ((c.sGen (wbits w 31 26) + 1) % 16) sh.band sh.log := by
  unfold Ctx.applyLdsc runRegs
  dsimp only
  rw [List.foldl_map]
  simp only [Nat.add_sub_cancel_left]
  rfl
theorem withTtags_only (c : Ctx) (t : Sparse (BitVec 16)) : ({ c with ttags := t } : Ctx).tiles = c.tiles ∧ ({ c with ttags := t } : Ctx) = { c with ttags := ({ c with ttags := t } : Ctx).ttags } := ⟨rfl, rfl⟩
theorem bindT_only (c : Ctx) (t x g : Nat) (m : Bool) (l : Nat) : (c.bindT t x g m l).tiles = c.tiles ∧ c.bindT t x g m l = { c with ttags := (c.bindT t x g m l).ttags } := withTtags_only c _
theorem wrTile_only (c : Ctx) (t o : Nat) (bs : List Byte) : c.wrTile t o bs = { c with tiles := (c.wrTile t o bs).tiles } := rfl
theorem filled_only {c z y u : Ctx} (hz : z = { c with tiles := z.tiles }) (hy : y = { z with vtags := y.vtags, ttags := y.ttags, scales := y.scales, sctl := y.sctl })
    (hu : u = { y with ttags := u.ttags }) : u = { c with tiles := u.tiles, ttags := u.ttags, vtags := u.vtags, scales := u.scales, sctl := u.sctl } := by
  have hyz : y.tiles = z.tiles := by rw [hy]
  have ht : u.tiles = z.tiles := .trans (by rw [hu]) hyz
  have hv : u.vtags = y.vtags := by rw [hu]
  have hs : u.scales = y.scales := by rw [hu]
  have hc : u.sctl = y.sctl := by rw [hu]
  rw [ht, hv, hs, hc]
  calc u = { y with ttags := u.ttags } := hu
    _ = { z with vtags := y.vtags, ttags := u.ttags, scales := y.scales, sctl := y.sctl } := congrArg (fun x : Ctx => { x with ttags := u.ttags }) hy
    _ = _ := congrArg (fun x : Ctx => { x with vtags := y.vtags, ttags := u.ttags, scales := y.scales, sctl := y.sctl }) hz
/-- What an `LDSC` whose streams are both there leaves of its context. -/
theorem applyLdsc_gives {c : Ctx} {w : Word} {sh : RunShape} {data recs : List Byte} (h1 : TagsOnce c) (hl : sh.log < 8) (hd : data.length = 1024) (hr : recs.length = 32 * 2 ^ sh.log) :
    let base := wbits w 31 26
    let t0 := wbits w 25 22
    let gen := (c.sGen base + 1) % 16
    let c' := c.applyLdsc w sh data recs
    c' = { c with tiles := c'.tiles, ttags := c'.ttags, vtags := c'.vtags, scales := c'.scales, sctl := c'.sctl }
      ∧ c'.rdTile t0 = data ∧ (∀ z, z ≠ t0 → c'.rdTile z = c.rdTile z)
      ∧ (∀ j < 2 ^ sh.log, c'.sBand (base + j) = sh.band ∧ c'.sGen (base + j) = gen
          ∧ ∀ q < 32, c'.sByte (base + j) q = if sh.band ∧ 24 ≤ q then 0 else (recs.getD (32 * j + q) 0).toNat)
      ∧ (∀ z, (∀ j < 2 ^ sh.log, z ≠ base + j) → c'.sBand z = c.sBand z ∧ c'.sGen z = c.sGen z ∧ ∀ q < 32, c'.sByte z q = c.sByte z q)
      ∧ c'.tCurrent t0 sh = true ∧ tagIndex (c'.ttag t0) = base
      ∧ (∀ z, z ≠ t0 → c'.ttag z = c.ttag z ∨ c'.ttag z = c.ttag z &&& 0x7FFF) ∧ ∀ z, c'.vtag z = c.vtag z ∨ c'.vtag z = c.vtag z &&& 0x7FFF := by
  intro base t0 gen c'
  have hgl : gen < 16 := Nat.mod_lt _ (by decide)
  obtain ⟨y, hy⟩ : ∃ y, y = (List.range (2 ^ sh.log)).foldl (Ctx.fillPart base recs gen sh.band) (c.wrTile t0 0 data) := ⟨_, rfl⟩
  have hc' : c' = y.bindT t0 base gen sh.band sh.log := by rw [hy]; exact applyLdsc_eq c w sh data recs
  have hf : Filled base recs gen sh.band (c.wrTile t0 0 data) (2 ^ sh.log) y := hy ▸ fillRun_filled base recs sh.band hgl (show TagsOnce (c.wrTile t0 0 data) from h1) (2 ^ sh.log) hr.ge
  obtain ⟨f1, f2, f3, f4, f5⟩ := hf
  obtain ⟨hb1, hb2, hb3, hb4, hb5⟩ := bindT_keeps y t0 base gen sh.band sh.log
  have hsct := fun n => bindT_sctl y t0 base gen sh.band sh.log n
  have hsby : ∀ n q, c'.sByte n q = y.sByte n q := fun n q => by
    unfold Ctx.sByte
    rw [hc', hb2]
  have htile : ∀ z, c'.rdTile z = (c.wrTile t0 0 data).rdTile z := fun z => by
    have e1 : y.tiles = (c.wrTile t0 0 data).tiles := by rw [f1]
    have e2 : c'.tiles = y.tiles := (congrArg Ctx.tiles hc').trans (bindT_only ..).1
    unfold Ctx.rdTile
    rw [e2, e1]
  obtain ⟨b1, b2⟩ := bindT_current (c := y) (t := t0) (a := base) (gen := gen) (sh := sh) (wbits_lt w 31 26) hl hgl (fun m hm => by
    obtain ⟨j, hj, rfl⟩ := List.mem_map.mp hm
    exact (f2 j (List.mem_range.mp hj)).2.1)
  refine ⟨?_, ?_, fun z hz => ?_, fun j hj => ?_, fun z hz => ?_, hc' ▸ b1, hc' ▸ b2, fun z hz => ?_, fun z => ?_⟩
  · exact filled_only (wrTile_only ..) f1 (hc' ▸ (bindT_only ..).2)
  · rw [htile, rdTile_wrTile c t0 hd, if_pos rfl]
  · rw [htile, rdTile_wrTile c t0 hd, if_neg hz]
  · obtain ⟨d1, d2, d3⟩ := f2 j hj
    rw [hc', (hsct _).1, (hsct _).2]
    exact ⟨d1, d2, fun q hq => by rw [← hc', hsby, d3 q hq]⟩
  · obtain ⟨d1, d2, d3⟩ := f3 z hz
    rw [hc', (hsct _).1, (hsct _).2]
    exact ⟨d1, d2, fun q hq => by rw [← hc', hsby, d3 q hq]; rfl⟩
  · rw [hc', bindT_ttag, if_neg hz]
    exact f5 true z
  · have : c'.vtag z = y.vtag z := by rw [hc']; unfold Ctx.vtag; rw [hb5]
    rw [this]
    exact f5 false z

theorem fillRun_withRq (base : Nat) (recs : List Byte) (gen : Nat) (band : Bool) (rq : List RqEntry) (ls : List Nat) (c : Ctx) :
    ls.foldl (Ctx.fillPart base recs gen band) (c.withRq rq) = (ls.foldl (Ctx.fillPart base recs gen band) c).withRq rq := by
  induction ls generalizing c with
  | nil => rfl
  | cons j ls ih => exact ih (c.fillPart base recs gen band j)
theorem withTtags_withRq (c : Ctx) (t : Sparse (BitVec 16)) (rq : List RqEntry) : ({ c.withRq rq with ttags := t } : Ctx) = ({ c with ttags := t } : Ctx).withRq rq := rfl
theorem bindT_withRq (c : Ctx) (t x g : Nat) (m : Bool) (l : Nat) (rq : List RqEntry) : (c.withRq rq).bindT t x g m l = (c.bindT t x g m l).withRq rq := withTtags_withRq c _ rq
theorem withRq_same (c : Ctx) : c.withRq c.rq = c := rfl
theorem withRq_rq (c : Ctx) (rq : List RqEntry) : (c.withRq rq).rq = rq := rfl
theorem filled_withRq {c u : Ctx} (h : u = { c with tiles := u.tiles, ttags := u.ttags, vtags := u.vtags, scales := u.scales, sctl := u.sctl }) (rq : List RqEntry) :
    let c' := u.withRq rq
    c' = { c with tiles := c'.tiles, ttags := c'.ttags, vtags := c'.vtags, scales := c'.scales, sctl := c'.sctl, rq := c'.rq } :=
  congrArg (fun z : Ctx => z.withRq rq) h
theorem State.Turns.fmtOf {k : Nat} {s t : State} {c' : Ctx} (h : s.Turns k t c') (c : Ctx) : t.fmtOf c = s.fmtOf c := by
  unfold State.fmtOf State.gridOf State.grid
  rw [h.grids]
theorem applyLdsc_withRq (c : Ctx) (w : Word) (sh : RunShape) (data recs : List Byte) (rq : List RqEntry) :
    (c.withRq rq).applyLdsc w sh data recs = (c.applyLdsc w sh data recs).withRq rq := by
  rw [applyLdsc_eq, applyLdsc_eq]
  have h : (c.withRq rq).wrTile (wbits w 25 22) 0 data = (c.wrTile (wbits w 25 22) 0 data).withRq rq := rfl
  rw [h, fillRun_withRq]
  exact bindT_withRq ..
theorem applyLdsc_rq {c : Ctx} {w : Word} {sh : RunShape} {data recs : List Byte} : (c.applyLdsc w sh data recs).rq = c.rq := by
  have h := applyLdsc_withRq c w sh data recs c.rq
  rw [withRq_same] at h
  rw [h, withRq_rq]
theorem entry_modCap {c : Ctx} {id : Nat} {en : RqEntry} (h : c.entry id = some en) (l : Nat) (m : Cap → Cap) : (c.modCap id l m).entry id = some (en.modCap l m) := by
  unfold Ctx.entry Ctx.modCap at *
  dsimp only
  rw [List.find?_map]
  have hp : (fun e : RqEntry => decide (e.id = id)) ∘ (fun e => if e.id = id then e.modCap l m else e) = fun e => decide (e.id = id) := by
    funext e
    by_cases he : e.id = id
    · simp [he, RqEntry.modCap]
    · simp [he]
  rw [hp, h, Option.map_some, if_pos (by simpa using List.find?_some h)]
theorem wordsBytes_bytesWords (r : Nat) (bs : List Byte) (hl : bs.length = 4 * r) : wordsBytes (bytesWords bs) = bs := by
  induction r generalizing bs with
  | zero => rw [List.length_eq_zero_iff.mp hl]; rfl
  | succ r ih =>
    match bs, hl with
    | a :: b :: c :: d :: rest, hl =>
      have hr : rest.length = 4 * r := by simp only [List.length_cons] at hl; omega
      have h4 := bytesOfNat_natOfBytes [a, b, c, d]
      have hlt : natOfBytes [a, b, c, d] < 2 ^ 32 := by
        have h := natOfBytes_lt [a, b, c, d]
        norm_num at h ⊢
        exact h
      rw [bytesWords]
      unfold wordsBytes
      rw [List.flatMap_cons]
      have hw : bytesOfNat 4 (BitVec.ofNat 32 (natOfBytes [a, b, c, d])).toNat = [a, b, c, d] := by
        rw [BitVec.toNat_ofNat, Nat.mod_eq_of_lt hlt]
        exact h4
      rw [hw]
      exact congrArg ([a, b, c, d] ++ ·) (ih rest hr)
    | [], hl => simp at hl
    | [_], hl => simp at hl; omega
    | [_, _], hl => simp at hl; omega
    | [_, _, _], hl => simp at hl; omega
theorem scaledLoadsFill : Claims.ScaledLoadsFill := by
  intro s k id l m c en x y o n g d b f sh w h e hk ha hlog hl64 hm hcaps hy hyd hv ht hrun hq hw hkl hs hb bs data recs base t0 gen hdl hrl
  have hc : s.ctx k = c := State.ctx_of_find _ _ _ h.found
  have hid := entry_id h.entry
  obtain ⟨r1, r2⟩ := readSegs_seen hq hw hs h.untouched.1 (.inr hkl)
  obtain ⟨mk, hmk⟩ : ∃ mk : Cap → Cap, mk = fun z => { z with data := bytesWords (s.readSegs c x).2, done := true } := ⟨_, rfl⟩
  have hne : m ≠ l := by omega
  have hfl : Sparse.find (en.modCap l mk).caps l = some (mk x) := (find_modCap _ _ _ _).trans (by rw [if_pos rfl, h.cap]; rfl)
  have hfm : Sparse.find (en.modCap l mk).caps m = some y := (find_modCap _ _ _ _).trans (by rw [if_neg hne, hy])
  have hpend : (en.modCap l mk).pending.isEmpty = true := by
    unfold RqEntry.pending
    rw [List.isEmpty_map, List.isEmpty_iff, List.filter_eq_nil_iff]
    intro z hz
    obtain ⟨z', hz', rfl⟩ := List.mem_map.mp hz
    by_cases h1 : z'.1 = l
    · rw [if_pos h1, hmk]
      simp
    · rw [if_neg h1, (hcaps z' hz').resolve_left h1, hyd]
      simp
  have hrl' : sh.log < 8 := run_log hrun
  have hseen : bs.length % 4 = 0 := by
    by_cases hl : l < 32
    · have : bs.length = 1024 := (congrArg List.length (if_pos hl)).symm.trans hdl
      omega
    · have : bs.length = 32 * 2 ^ sh.log := (congrArg List.length (if_neg hl)).symm.trans hrl
      omega
  have hwb : wordsBytes (mk x).data = bs := by
    rw [hmk]
    show wordsBytes (bytesWords (s.readSegs c x).2) = bs
    rw [r2]
    exact wordsBytes_bytesWords (bs.length / 4) bs (by omega)
  have hdata : wordsBytes (((Sparse.find (en.modCap l mk).caps (l % 32)).getD {}).data) = data := by
    by_cases hl : l < 32
    · rw [Nat.mod_eq_of_lt hl, hfl, Option.getD_some, hwb]
      exact (if_pos hl).symm
    · rw [show l % 32 = m by omega, hfm, Option.getD_some]
      exact (if_neg hl).symm
  have hrecs : wordsBytes (((Sparse.find (en.modCap l mk).caps (32 + l % 32)).getD {}).data) = recs := by
    by_cases hl : l < 32
    · rw [show 32 + l % 32 = m by omega, hfm, Option.getD_some]
      exact (if_pos hl).symm
    · rw [show 32 + l % 32 = l by omega, hfl, Option.getD_some, hwb]
      exact (if_neg hl).symm
  have ht1 : s.Turns k ((s.readSegs c x).1.modEntry k id (fun e => e.modCap l mk)) (c.modCap id l mk) := ((State.Turns.refl h.found).calm r1).modCtx _
  have hp : s.performCap k en l x = some (((s.readSegs c x).1.modEntry k id (fun e => e.modCap l mk)).modCtx k (fun c => c.applyLdsc w sh data recs)) := by
    unfold State.performCap
    rw [e, hc, hid]
    dsimp only
    rw [if_neg (by rw [hlog, h.whole]; simp), ← hmk, ht1.ctx, entry_modCap h.entry]
    dsimp only
    rw [hpend, if_pos rfl, ht1.fmtOf, hrun]
    dsimp only
    rw [hdata, hrecs, ha]
    rfl
  have hF : (c.modCap id l mk).applyLdsc w sh data recs = (c.applyLdsc w sh data recs).modCap id l mk := by
    refine (applyLdsc_withRq c w sh data recs (c.modCap id l mk).rq).trans ?_
    show (c.applyLdsc w sh data recs).withRq (c.rq.map _) = (c.applyLdsc w sh data recs).withRq ((c.applyLdsc w sh data recs).rq.map _)
    rw [applyLdsc_rq]
  have ht2 : s.Turns k (((s.readSegs c x).1.modEntry k id (fun e => e.modCap l mk)).modCtx k (fun c => c.applyLdsc w sh data recs)) ((c.applyLdsc w sh data recs).modCap id l mk) :=
    hF ▸ ht1.modCtx (fun c => c.applyLdsc w sh data recs)
  obtain ⟨t, rq, h1, h2⟩ := performs_of h (exec_accessPerformed_eq ..) (by simp [hk]) (mayGo_travels h (by rw [e]; exact fun _ _ _ _ _ _ _ => nofun)) hp ht2 hq.early applyLdsc_rq
    (m := mk) (by rw [hmk]) (fun _ _ => rfl) rfl
  rw [latency_none l (by rw [e]; exact fun _ _ _ _ _ _ => nofun) (by rw [e]; exact fun _ _ _ _ _ _ => nofun), addLate_nil] at h1 h2
  have hgives := applyLdsc_gives (w := w) (sh := sh) ⟨hv, ht⟩ hrl' hdl hrl
  obtain ⟨u, hu⟩ : ∃ u, u = c.applyLdsc w sh data recs := ⟨_, rfl⟩
  rw [← hu] at h1 hgives
  obtain ⟨g1, g2, g3, g4, g5, g6, g7, g8, g9⟩ := hgives
  exact ⟨t, _, h1, h2.bytes, filled_withRq g1 rq, g2, g3, g4, g5, g6, g7, g8, g9⟩

/-- Settles O12: the issue queues both streams, and each event performs its part of them. -/
theorem gatheredLoads : Obligations.GatheredLoads := ⟨scaledAndGatheredLoads, scaledLoadsFill, gatherLanesWrite⟩

end Sys2Proof.Machine
end

section
/-! Releases of slots (R183), merges of shadow words (R186, R187) and lines that age (R240). -/

namespace Sys2Proof.Machine

/-! ### A slot released -/

/-- Bytes written change nothing of a unit but its store. -/
theorem wrBytes_unitSite (s : State) (l : Loc) (bs : List Byte) (o : Loc) : (s.wrBytes l bs).unitSite o = s.unitSite o := by
  unfold State.wrBytes
  refine foldl_induct (fun x : State × Nat => x.1.unitSite o = s.unitSite o) _ (fun x b h => ?_) bs (s, 0) rfl
  refine Eq.trans ?_ h
  cases e : l.add x.2 with
  | store u a =>
    show State.unitSite (x.1.modUnit u _) o = _
    cases o with
    | store w n =>
      have hu : ∀ f : WUnit → WUnit, (∀ y, (f y).pkg = y.pkg ∧ (f y).level = y.level ∧ (f y).split = y.split ∧ (f y).site = y.site ∧ (f y).site2 = y.site2) →
          State.unitSite (x.1.modUnit u f) (.store w n) = State.unitSite x.1 (.store w n) := fun f hf => by
        unfold State.unitSite State.unit
        dsimp only
        rw [State.find_modUnit]
        by_cases hw : w = u
        · rw [if_pos hw, hw]
          cases Sparse.find x.1.units u with
          | none => rfl
          | some y =>
            obtain ⟨h1, h2, h3, h4, h5⟩ := hf y
            dsimp only [Option.map_some, Option.getD_some]
            simp only [h1, h2, h3, h4, h5]
        · rw [if_neg hw]
      exact hu _ (fun _ => ⟨rfl, rfl, rfl, rfl, rfl⟩)
    | _ => rfl
  | _ => cases o <;> rfl
theorem releaseSlot_effect {s : State} {o : Loc} {x : RedSlot} (h : s.slotAt o = some x) (hp : s.Place o) :
    (s.releaseSlot (s.unitSite o).1 x).slotAt o = none ∧ Stored s (s.releaseSlot (s.unitSite o).1 x) o (bytesOfNat 4 x.round.toNat) := by
  have hx : x.loc = o := by
    have := List.find?_some h
    simpa using this
  refine ⟨?_, ?_⟩
  · have hu : (s.releaseSlot (s.unitSite o).1 x).unitSite o = s.unitSite o := by
      refine Eq.trans ?_ (wrBytes_unitSite s x.loc (bytesOfNat 4 x.round.toNat) o)
      cases o <;> rfl
    unfold State.slotAt
    rw [hu]
    unfold State.releaseSlot
    rw [State.pkg_modPkg_same, hx]
    refine List.find?_eq_none.mpr (fun y hy => ?_)
    simpa using (List.mem_filter.mp hy).2
  · unfold State.releaseSlot State.wrWord
    rw [hx]
    exact (State.wrBytes_stored s o _ hp).congr (.refl s) (fun a => by cases a <;> rfl)
theorem word_add {o : Loc} (h : o.word = o) {n : Nat} (hn : n < 4) : (o.add n).word = o := by
  cases o with
  | none => rfl
  | hbm k =>
    have hk : k / 4 * 4 = k := Loc.hbm.inj h
    show Loc.hbm ((k + n) / 4 * 4) = .hbm k
    congr 1; omega
  | host k =>
    have hk : k / 4 * 4 = k := Loc.host.inj h
    show Loc.host ((k + n) / 4 * 4) = .host k
    congr 1; omega
  | store u k =>
    have hk : k / 4 * 4 = k := (Loc.store.inj h).2
    show Loc.store u ((k + n) / 4 * 4) = .store u k
    congr 1; omega
theorem releaseSpan_slot {s : State} {o : Loc} {x : RedSlot} (h : s.slotAt o = some x) (hw : o.word = o) (hp : s.Place o) :
    s.releaseSpan o 4 = s.releaseSlot (s.unitSite o).1 x := by
  have hne : (s.pkg (s.unitSite o).1).slots.isEmpty = false := by
    rw [List.isEmpty_eq_false_iff]
    intro h0
    unfold State.slotAt at h
    rw [h0] at h
    cases h
  have h0 := (releaseSlot_effect h hp).1
  unfold State.releaseSpan
  dsimp only
  rw [if_neg (by rw [hne]; simp), show 4 / 4 + 2 = 3 from rfl, show List.range 3 = [0, 1, 2] from rfl]
  simp only [List.foldl_cons, List.foldl_nil]
  rw [word_add hw (n := min (4 * 0) (4 - 1)) (by omega), word_add hw (n := min (4 * 1) (4 - 1)) (by omega), word_add hw (n := min (4 * 2) (4 - 1)) (by omega), h]
  dsimp only
  rw [h0]
  dsimp only
  rw [h0]

/-! ### A shadow word merged where nothing stands before its home -/

/-- A write at a home where no slot is open. -/
theorem writeHome_free {s : State} (hz : ∀ q, (s.pkg q).slots = []) (plain : Bool) (src : Option (Nat × Nat)) (me : Option Nat) (k : Nat) (bs : List Byte) :
    ∃ u, s.Calm u ∧ (u.wrBytes (.hbm k) bs).Calm (s.writeHome plain src me (.hbm k) bs) := by
  unfold State.writeHome
  dsimp only
  by_cases hb : bs = []
  · subst hb
    exact ⟨s, .refl s, .refl s⟩
  obtain ⟨u, hu⟩ : ∃ u, u = s.thaw (fun p y => (lineKeys k bs.length).contains y.key && (!plain || decide (me = some (p * 16 + y.die)))) := ⟨_, rfl⟩
  have hc : s.Calm u := hu ▸ (State.Calm.refl s).thaw _
  refine ⟨u, hc, ?_⟩
  rw [if_neg (by simpa using hb), ← hu]
  have hr : u.releaseSpan (.hbm k) bs.length = u := by
    unfold State.releaseSpan
    dsimp only
    rw [hc.field _ Package.slots (fun _ _ _ _ _ _ _ => rfl), hz]
    rfl
  rw [hr]
  exact (State.Calm.refl _).foldl _ _ (fun t x ht => (ht.dcacheWrite _ _).dirWrite _ _)
theorem wrBytes_pkg (s : State) (l : Loc) (bs : List Byte) (p : Nat) : (s.wrBytes l bs).pkg p = s.pkg p := by
  unfold State.wrBytes
  exact foldl_induct (fun x : State × Nat => x.1.pkg p = s.pkg p) _ (fun x b h => by cases e : l.add x.2 <;> exact h) bs (s, 0) rfl
/-- A contribution of an integer to a word of memory where no slot is open. -/
theorem contribute_free {s : State} (hz : ∀ q, (s.pkg q).slots = []) (k : Nat) {op : RedOp} (hop : op ≠ .fadd) (v : Word) (asid grid : Nat) :
    ∃ t, s.contribute (.hbm k) op v asid grid = some t ∧ Stored s t (.hbm k) (bytesOfNat 4 (redInt op (s.rdWord (.hbm k)) v).toNat)
      ∧ t.ctxs = s.ctxs ∧ t.units = s.units ∧ t.grids = s.grids ∧ ∀ p, (t.pkg p).shadows = (s.pkg p).shadows := by
  have hr : s.releaseSpan (.hbm k) 4 = s := by
    unfold State.releaseSpan
    dsimp only
    rw [hz]
    rfl
  obtain ⟨bs, hbs⟩ : ∃ bs, bs = bytesOfNat 4 (redInt op (s.rdWord (.hbm k)) v).toNat := ⟨_, rfl⟩
  obtain ⟨u, hu, hw⟩ := writeHome_free hz false none none k bs
  have hcalm : (u.wrBytes (.hbm k) bs).Calm ((s.homeWrite none none (.hbm k) bs).dcacheHole (.hbm k)) := hw.dcacheHole _
  obtain ⟨w1, w2⟩ := wrBytes_ctxs u (.hbm k) bs
  refine ⟨(s.homeWrite none none (.hbm k) bs).dcacheHole (.hbm k), ?_, ?_, hcalm.ctxs.trans (w1.trans hu.ctxs), hcalm.units.trans ((wrBytes_hbm_units ..).trans hu.units), hcalm.grids.trans (w2.trans hu.grids), fun p => ?_⟩
  · unfold State.contribute
    rw [if_neg hop, hr]
    dsimp only
    rw [← hbs]
  · rw [← hbs]
    exact (State.wrBytes_stored u (.hbm k) bs trivial).congr hu.sameBytes hcalm.sameBytes
  · rw [hcalm.field p Package.shadows (fun _ _ _ _ _ _ _ => rfl)]
    rw [wrBytes_pkg]
    exact hu.field p Package.shadows (fun _ _ _ _ _ _ _ => rfl)
theorem mergeShadow_effect {s : State} {p : Nat} {x : ShadowWord} (hop : x.op ≠ .fadd) (hz : ∀ q, (s.pkg q).slots = []) (he : (s.pkg p).early = []) :
    let t := s.mergeShadow p x
    (t.pkg p).shadows = (s.pkg p).shadows.filter (fun y => decide (y ≠ x))
      ∧ Stored s t (.hbm x.key) (bytesOfNat 4 (redInt x.op (s.rdWord (.hbm x.key)) x.val).toNat) ∧ t.ctxs = s.ctxs ∧ t.units = s.units ∧ t.grids = s.grids := by
  intro t
  obtain ⟨u, h1, h2, h3, h4, h5, h6⟩ := contribute_free hz x.key hop x.val x.asid x.grid
  have ht : t = u.modPkg p (fun q => { q with shadows := q.shadows.filter (fun y => decide (y ≠ x)) }) := by
    show s.mergeShadow p x = _
    unfold State.mergeShadow
    dsimp only
    rw [he, List.any_nil, Bool.false_and, if_neg (by simp), List.isEmpty_nil, if_pos rfl, h1]
  rw [ht]
  refine ⟨?_, h2.congr (.refl s) (fun a => by cases a <;> rfl), h3, h4, h5⟩
  rw [State.pkg_modPkg_same]
  dsimp only
  rw [h6]

/-- Settles O18: a release writes the rounding, a merge the combined word, and ageing drops a line of a core. -/
theorem slotsShadowsAndLines : Obligations.SlotsShadowsAndLines := by
  refine ⟨fun s o x h hw hp _ => ?_, fun s p die line x hx hop hz he => ?_, fun s p core line x hx hown hage => ?_⟩
  · obtain ⟨h1, h2⟩ := releaseSlot_effect h hp
    unfold State.homeRead
    dsimp only
    rw [releaseSpan_slot h hw hp]
    refine ⟨?_, h1, h2⟩
    have := h2.rdBytes
    rwa [length_bytesOfNat] at this
  · obtain ⟨h1, h2, h3, h4, h5⟩ := mergeShadow_effect (x := x) hop hz he
    have hm : s.mergeShadows p (fun y => decide (y.die = die) && decide (y.key / 64 = line)) = s.mergeShadow p x := by
      unfold State.mergeShadows
      rw [hx]
      rfl
    refine ⟨s.mergeShadow p x, ?_, h1, h2, h3, h4, h5⟩
    rw [exec_shadowLineEvict_eq]
    unfold execShadowLineEvict State.mergeable
    dsimp only
    rw [hm]
    have hany : (s.pkg p).shadows.any (fun y => decide (y.die = die) && decide (y.key / 64 = line)) = true := by
      have : x ∈ (s.pkg p).shadows.filter (fun y => decide (y.die = die) && decide (y.key / 64 = line)) := by rw [hx]; exact List.mem_singleton.mpr rfl
      obtain ⟨g1, g2⟩ := List.mem_filter.mp this
      exact List.any_eq_true.mpr ⟨x, g1, g2⟩
    have hnone : ((s.mergeShadow p x).pkg p).shadows.any (fun y => decide (y.die = die) && decide (y.key / 64 = line)) = false := by
      rw [h1]
      refine List.any_eq_false.mpr (fun y hy => fun hf => ?_)
      obtain ⟨g1, g2⟩ := List.mem_filter.mp hy
      have : y ∈ (s.pkg p).shadows.filter (fun y => decide (y.die = die) && decide (y.key / 64 = line)) := List.mem_filter.mpr ⟨g1, hf⟩
      rw [hx] at this
      exact absurd (List.mem_singleton.mp this) (by simpa using g2)
    rw [hany, hnone]
    rfl
  · obtain ⟨t, ht⟩ : ∃ t, t = s.modPkg p (fun q => { q with dlines := q.dlines.filter (fun y => !(decide (y.core = core) && decide (y.key = line))) }) := ⟨_, rfl⟩
    have hl : (t.pkg p).dlines = (s.pkg p).dlines.filter (fun y => !(decide (y.core = core) && decide (y.key = line))) := by rw [ht, State.pkg_modPkg_same]
    refine ⟨t, ?_, ?_, fun n key hn => ?_, ht ▸ (fun a => by cases a <;> rfl), by rw [ht]; rfl, by rw [ht]; rfl, by rw [ht]; rfl⟩
    · rw [exec_lineAgeInvalidate_eq]
      unfold execLineAgeInvalidate
      rw [hx]
      dsimp only
      rw [if_neg (by rw [hown]; simp; omega), ht]
    · unfold Package.dline
      rw [hl]
      refine List.find?_eq_none.mpr (fun y hy hf => ?_)
      have := (List.mem_filter.mp hy).2
      rw [hf] at this
      cases this
    · unfold Package.dline
      rw [hl, List.find?_filter]
      congr 1
      funext y
      by_cases hy : y.core = n ∧ y.key = key
      · obtain ⟨rfl, rfl⟩ := hy
        simp only [decide_true, Bool.and_self]
        rcases not_and_or.mp hn with h | h <;> simp [h]
      · rcases not_and_or.mp hy with h | h <;> simp [h]

end Sys2Proof.Machine
end

section
/-! `REDUCE` at issue (R174 to R179). -/

namespace Sys2Proof.Machine

/-! ### Local spaces in a state that differs in storage -/

/-- A state whose units have lost their stores. -/
def State.bareU (s : State) : State := { s with units := mapVals s.units (fun _ => WUnit.bare) }
theorem unit_bareU (s : State) (u : Nat) : s.bareU.unit u = (s.unit u).bare := by
  unfold State.unit State.bareU
  dsimp only
  rw [find_mapVals]
  cases Sparse.find s.units u <;> rfl
theorem childUnits_bareU (s : State) (u : Nat) : s.bareU.childUnits u = s.childUnits u := by
  unfold State.childUnits State.bareU mapVals
  dsimp only
  rw [List.filter_map, List.map_map]
  rfl
theorem ancestor_bareU (s : State) (lvl fuel u : Nat) : s.bareU.ancestor lvl u fuel = s.ancestor lvl u fuel := by
  induction fuel generalizing u with
  | zero => rfl
  | succ n ih =>
    unfold State.ancestor
    simp only [unit_bareU, ih]
    rfl
theorem coreStore_bareU (s : State) (c : Ctx) (a n : Nat) : s.bareU.coreStore c a n = s.coreStore c a n := by
  unfold State.coreStore
  simp only [unit_bareU, childUnits_bareU]
  rfl
theorem clusterMem_bareU (s : State) (c : Ctx) (a n : Nat) : s.bareU.clusterMem c a n = s.clusterMem c a n := by
  unfold State.clusterMem State.ownUnit
  simp only [unit_bareU, ancestor_bareU]
  rfl
theorem State.Homes.bareU {s t : State} (h : s.Homes t) : t.bareU = { s.bareU with pkgs := t.pkgs, hbm := t.hbm, host := t.host } := by
  unfold State.bareU
  rw [h.bareUnits]
  exact congrArg (fun x : State => { x with units := mapVals s.units (fun _ => WUnit.bare) }) h.rest
theorem State.Homes.coreStore {s t : State} (h : s.Homes t) (c : Ctx) (a n : Nat) : t.coreStore c a n = s.coreStore c a n := by
  rw [← coreStore_bareU, h.bareU, ← coreStore_bareU s]
  rfl
theorem ancestor_units {s t : State} (h : t.units = s.units) (lvl fuel u : Nat) : t.ancestor lvl u fuel = s.ancestor lvl u fuel := by
  induction fuel generalizing u with
  | zero => rfl
  | succ n ih =>
    unfold State.ancestor State.unit
    simp only [h, ih]
theorem State.Homes.clusterMem {s t : State} (h : s.Homes t) (c : Ctx) (a n : Nat) : t.clusterMem c a n = s.clusterMem c a n := by
  rw [← clusterMem_bareU, h.bareU, ← clusterMem_bareU s]
  unfold State.clusterMem State.ownUnit
  rw [ancestor_units (t := { s.bareU with pkgs := t.pkgs, hbm := t.hbm, host := t.host }) (s := s.bareU) rfl]
  rfl
theorem State.Homes.redPlace {s t : State} (h : s.Homes t) (c : Ctx) (lvl : Nat) : t.redPlace c lvl = s.redPlace c lvl := by
  funext r
  unfold State.redPlace State.ownStore
  rw [h.coreStore, h.clusterMem]

/-! ### The contributions of an issue -/

/-- The request of a lane's contribution. -/
def redReq (c : Ctx) (lvl x y : Nat) (one : Bool) (l : Nat) : Req :=
  { lane := l, len := 4, align := 4, data := [c.rdV y l], va := ((if lvl < 3 then (c.rdG x).toNat else c.rdPairG x) + if one then 0 else 4 * l) % 2 ^ (if lvl < 3 then 32 else 64) }
theorem redReqs_bare (c : Ctx) (i : Instr) (act : List Nat) (lvl x y : Nat) (one : Bool) :
    (redReqs (c.begun i act) act lvl x y one).map Req.bare = act.map (redReq c lvl x y one) := by
  unfold redReqs
  refine map_bare act _ _ (fun l => ?_)
  unfold redReq Req.bare
  simp only [begun_rdG, begun_rdPairG, begun_rdV]
  by_cases hl : lvl < 3
  · simp only [if_pos hl]
  · simp only [if_neg hl]
theorem redReqs_nodup (c : Ctx) {act : List Nat} (hn : act.Nodup) (lvl x y : Nat) (one : Bool) : ((redReqs c act lvl x y one).map Req.lane).Nodup := lanes_nodup hn _ (fun _ => rfl)
theorem unperformed_subset (c : Ctx) (k : Nat) {ls ms : List Nat} (h : ∀ l ∈ ls, l ∈ ms) (r : Nat) (hm : c.unperformed k ms r = []) : c.unperformed k ls r = [] := by
  unfold Ctx.unperformed at *
  rw [List.map_eq_nil_iff, List.filter_eq_nil_iff] at *
  intro e he hf
  refine hm e he ?_
  rw [Bool.and_eq_true, List.any_eq_true] at *
  obtain ⟨h1, y, hy, h2⟩ := hf
  refine ⟨h1, y, hy, ?_⟩
  rw [Bool.and_eq_true] at *
  exact ⟨List.contains_iff_mem.mpr (h _ (List.contains_iff_mem.mp h2.1)), h2.2⟩
section
variable {s : State} {g : Guard} {lvl x y : Nat} {op : RedOp} {one r : Bool} {c : Ctx} {act : List Nat}
/-- An issue above L0 whose checks pass goes on to its contributions, after its release. -/
theorem reduce_contributes (h : Issues s (.reduce g lvl x y op one r) c act) (h0 : 0 < lvl) (hl : s.ctxLevel c ≤ lvl) (ho : r = true → s.Ordered c act lvl)
    (hf : redFault (s.hinted (.reduce g lvl x y op one r) act) (c.begun (.reduce g lvl x y op one r) act) act lvl x y one = none) {e : Eff}
    (he : contributions (.reduce g lvl x y op one r) (s.beforeAccess (.reduce g lvl x y op one r) c act (if r then some lvl else none)) (c.begun (.reduce g lvl x y op one r) act) act lvl x y one = e) :
    ∃ body, (∀ s, exec (.reduce g lvl x y op one r) s = gate (.reduce g lvl x y op one r) s body) ∧ body (s.hinted (.reduce g lvl x y op one r) act) (c.begun (.reduce g lvl x y op one r) act) act = e := by
  refine ⟨_, fun s => exec_reduce_eq .., ?_⟩
  dsimp only
  rw [hinted_ctxLevel, if_neg (by omega), if_neg (by omega), hf]
  unfold faultsFirst
  dsimp only
  cases r with
  | false => exact he
  | true =>
    rw [if_neg (by simp)]
    cases one with
    | true => rw [if_pos rfl, releasingOnce_now (ho rfl)]; exact he
    | false =>
      obtain ⟨h1, h2⟩ := ho rfl
      rw [if_neg (by simp), releasing_now (fun l hl => ⟨unperformed_subset c s.cur.ctx (by simpa using hl) _ h1, h2⟩)]
      exact he
theorem beforeAccess_homes (s : State) (i : Instr) (c : Ctx) (act : List Nat) (rel : Option Nat) : (s.hinted i act).Homes (s.beforeAccess i c act rel) := by
  cases rel with
  | none => exact .refl _
  | some lvl => exact (State.Homes.refl _).release _ _
theorem reduce_global (h : Issues s (.reduce g lvl x y op one r) c act) (h3 : 3 ≤ lvl) (hl : s.ctxLevel c ≤ lvl) (ho : r = true → s.Ordered c act lvl)
    (ht : Takes (s.beforeAccess (.reduce g lvl x y op one r) c act (if r then some lvl else none)) (c.begun (.reduce g lvl x y op one r) act) (some .store) .atomic false (act.map (redReq c lvl x y one))) :
    let s1 := s.beforeAccess (.reduce g lvl x y op one r) c act (if r then some lvl else none)
    Queued (.reduce g lvl x y op one r) s s1 c 3 (some .store) [] [] (act.map (redReq c lvl x y one)) (s1.places (s1.partyOf (c.begun (.reduce g lvl x y op one r) act) false) .atomic) .none := by
  intro s1
  have hh := beforeAccess_homes s (.reduce g lvl x y op one r) c act (if r then some lvl else none)
  rw [← redReqs_bare c (.reduce g lvl x y op one r)] at ht ⊢
  have hb := takes_unhint ht
  obtain ⟨u, e, h1, h2, hcap, caps, rfl⟩ := memIssue_queues ht (redReqs_nodup _ h.nodup lvl x y one) (.reduce g lvl x y op one r) (act.headD 0) 3 [] []
  have hf : redFault (s.hinted (.reduce g lvl x y op one r) act) (c.begun (.reduce g lvl x y op one r) act) act lvl x y one = none := by
    unfold redFault
    rw [if_neg (by omega)]
    unfold reqFault
    rw [List.filter_eq_nil_iff.mpr (fun r hr => by simpa using hb.aligned r hr), List.filter_eq_nil_iff.mpr (fun r hr => by simpa using hb.inside r hr)]
  have hcur : s1.cur = s.cur := by
    show State.cur (s.beforeAccess _ c act _) = s.cur
    rw [hh.rest]
    exact State.hinted_cur ..
  have hctxs : u.ctxs = (s.hinted (.reduce g lvl x y op one r) act).ctxs := by rw [h2.rest, hh.rest]
  obtain ⟨body, hx, hgo⟩ := reduce_contributes h (by omega) hl ho hf (e := .ok (u.addEntry s.cur.ctx (State.mkEntry s1 (c.begun (.reduce g lvl x y op one r) act) (.reduce g lvl x y op one r) (act.headD 0) 3 (some .store) [] caps []))) (by
    unfold contributions
    rw [if_neg (by omega), h1]
    show Eff.ok (u.addEntry (State.cur s1).ctx _) = _
    rw [hcur])
  exact queued_of h body (hx s) hgo rfl (by rw [hctxs]; exact hinted_find h) (h2.reaches _) ⟨rfl, rfl, begun_nextId .., rfl, congrArg Issue.pc hcur, rfl, rfl, rfl, rfl⟩ ⟨hcap.each, hcap.only⟩
theorem localFault_none {res : Req → LRes} {E : List Req} (ha : ∀ r ∈ E, r.va % r.align = 0) (hp : ∀ r ∈ E, ∃ l, res r = .ok l) : localFault res E = none := by
  unfold localFault
  dsimp only
  rw [List.filter_eq_nil_iff.mpr (fun r hr => by simpa using ha r hr), List.filterMap_eq_nil_iff.mpr (fun r hr => by
    obtain ⟨l, e⟩ := hp r hr
    rw [e])]
theorem reduce_local (h : Issues s (.reduce g lvl x y op one r) c act) (h0 : 0 < lvl) (h3 : lvl < 3) (hl : s.ctxLevel c ≤ lvl) (ho : r = true → s.Ordered c act lvl) :
    let s1 := s.beforeAccess (.reduce g lvl x y op one r) c act (if r then some lvl else none)
    let res := s1.redPlace (c.begun (.reduce g lvl x y op one r) act) lvl
    TakesLocal s1 (c.begun (.reduce g lvl x y op one r) act) (some .store) res (act.map (redReq c lvl x y one)) →
    Queued (.reduce g lvl x y op one r) s s1 c 3 (some .store) [] [] (act.map (redReq c lvl x y one)) (fun q => (res q).places) .none := by
  intro s1 res ht
  have hh := beforeAccess_homes s (.reduce g lvl x y op one r) c act (if r then some lvl else none)
  rw [← redReqs_bare c (.reduce g lvl x y op one r)] at ht ⊢
  have hbare : ∀ q, res q.bare = res q := fun _ => rfl
  obtain ⟨caps, h1, h2⟩ := localIssue_queues hbare ht (redReqs_nodup _ h.nodup lvl x y one) (.reduce g lvl x y op one r) (act.headD 0) 3 [] []
  have hf : redFault (s.hinted (.reduce g lvl x y op one r) act) (c.begun (.reduce g lvl x y op one r) act) act lvl x y one = none := by
    unfold redFault
    rw [if_pos h3, ← hh.redPlace]
    refine localFault_none (fun q hq => ht.aligned q.bare (List.mem_map_of_mem hq)) (fun q hq => ?_)
    have := ht.placed q.bare (List.mem_map_of_mem hq)
    rwa [hbare] at this
  have hcur : s1.cur = s.cur := by
    show State.cur (s.beforeAccess _ c act _) = s.cur
    rw [hh.rest]
    exact State.hinted_cur ..
  have hctxs : s1.ctxs = (s.hinted (.reduce g lvl x y op one r) act).ctxs := by
    show State.ctxs (s.beforeAccess _ c act _) = _
    rw [hh.rest]
  obtain ⟨body, hx, hgo⟩ := reduce_contributes h h0 hl ho hf (e := .ok (s1.addEntry s.cur.ctx (State.mkEntry s1 (c.begun (.reduce g lvl x y op one r) act) (.reduce g lvl x y op one r) (act.headD 0) 3 (some .store) [] caps []))) (by
    unfold contributions
    rw [if_pos h3]
    refine h1.trans ?_
    rw [hcur])
  exact queued_of h body (hx s) hgo rfl (by rw [hctxs]; exact hinted_find h) ((State.Walked.refl _).reaches _) ⟨rfl, rfl, begun_nextId .., rfl, congrArg Issue.pc hcur, rfl, rfl, rfl, rfl⟩ ⟨h2.each, h2.only⟩
end

/-! ### The combination at L0 -/

theorem redInt_op (op : RedOp) : (redInt op) = fun a b => match op with
    | .add => a + b | .min => if b.toInt < a.toInt then b else a | .max => if a.toInt < b.toInt then b else a
    | .and => a &&& b | .or => a ||| b | .xor => a ^^^ b | .minU => if b.toNat < a.toNat then b else a
    | .maxU => if a.toNat < b.toNat then b else a | .fadd => b := by
  funext a b
  cases op <;> simp [redInt, BitVec.slt, BitVec.ult]
theorem reduceL0_eq (op : RedOp) {vs : List Word} (hn : vs ≠ []) : reduceL0 op vs =
    if op = .fadd then asWord (roundArith .fp32 false (sumV (vs.map f32))) else (vs.tail.foldl (redInt op) (vs.headD 0), 0) := by
  cases vs with
  | nil => exact absurd rfl hn
  | cons v vs => cases op <;> rfl

/-- Settles O27: at L0 the issue writes the combination, above it queues a contribution of each acting lane. -/
theorem reductionsIssue : Obligations.ReductionsIssue := by
  unfold Obligations.ReductionsIssue
  constructor
  · intro g x y op one r s c act h hl vs v
    have hv : reduceL0 op (act.map (fun l => c.rdV y l)) = v := by
      rw [reduceL0_eq op (by simpa using h.some), redInt_op]
      cases op <;> rfl
    have hb : ∀ s, exec (.reduce g 0 x y op one r) s = gate (.reduce g 0 x y op one r) s _ := fun s => exec_reduce_eq ..
    refine ⟨_, completes_of_gate h _ (hb s) (fun c' => (c'.wrG x v.1).setFlags v.2) (by
      dsimp only
      rw [hinted_ctxLevel, if_neg (by omega), if_pos rfl]
      simp only [begun_rdV, hv, State.hinted_cur]), RegsOf.depart _ _ _ _ _ (((RegsOf.begun c _ act).trans (.wrG _ _ _)).trans (.setFlags _ _)), ?_, ?_, fun n => ?_, fun l => ?_⟩
    · rw [depart_v]
      exact begun_v ..
    · rw [depart_flags]
      show (c.begun _ act).fpflags ||| v.2 = _
      rw [begun_flags]
    · rw [depart_rdG]
      have : (((c.begun (.reduce g 0 x y op one r) act).wrG x v.1).setFlags v.2).rdG n = ((c.begun (.reduce g 0 x y op one r) act).wrG x v.1).rdG n := rfl
      rw [this, Ctx.rdG_wrG, begun_rdG]
    · have hw : (((c.begun (.reduce g 0 x y op one r) act).wrG x v.1).setFlags v.2).lane l = c.lane l := begun_lane c _ act l
      rw [depart_lane _ _ _ (cohort_nodup s c), hw]
      rfl
  · intro g lvl x y op one r s c act i h h0 hl ho s1 reqs
    refine ⟨fun h3 ht => reduce_global h h3 hl ho ht, fun h1 ht => ?_, fun h2 ht => ?_⟩
    · subst h1
      exact reduce_local h h0 (by omega) hl ho ht
    · subst h2
      exact reduce_local h h0 (by omega) hl ho ht

end Sys2Proof.Machine
end

section
/-! `PREF` and `CCTL` (R222, R223). -/

namespace Sys2Proof.Machine

/-! ### Prefetches: caches alone -/

/-- Caches change, and no application core. -/
def State.Fetch (s t : State) : Prop := s.Calm t ∧ ∀ p, (t.pkg p).harts = (s.pkg p).harts
theorem State.Fetch.refl (s : State) : s.Fetch s := ⟨.refl s, fun _ => rfl⟩
section
variable {r s : State}
theorem State.Fetch.modPkg (h : r.Fetch s) (p : Nat) (f : Package → Package) (hf : ∀ q : Package, q.Calm (f q) ∧ (f q).harts = q.harts) : r.Fetch (s.modPkg p f) := by
  refine ⟨h.1.modPkg p f (fun q => (hf q).1), fun n => ?_⟩
  rw [State.pkg_modPkg]
  split
  · next e => rw [(hf _).2, e, h.2]
  · exact h.2 n
theorem translate_free (hz : ∀ p, (s.pkg p).slots = []) (y : Party) (va : Nat) (k : AccKind) : s.Fetch (s.translate y va k).1 := by
  have hw : s.walkReads y.pkg y.walkDie y.asid va = s := by
    unfold State.walkReads
    rw [hz]
    rfl
  unfold State.translate
  dsimp only
  rw [hw]
  split
  · exact .refl s
  · split
    · next e level ptrs _ _ => exact (State.Fetch.refl s).modPkg _ (fun q => q.fill y.tlbs y.walkDie y.asid va e level ptrs) (fun q => ⟨⟨rfl, rfl, fun h => h⟩, rfl⟩)
    · exact .refl s
theorem State.Fetch.dieDrop (h : r.Fetch s) (p d key : Nat) : r.Fetch (s.dieDrop p d key) := by
  unfold State.dieDrop
  exact (h.modPkg _ _ (fun q => ⟨Package.Calm.dieLines q (fun y hy => .inl (List.mem_filter.mp hy).1), rfl⟩)).modPkg _ _ (fun q => ⟨⟨rfl, rfl, fun h => h⟩, rfl⟩)
theorem State.Fetch.register (h : r.Fetch s) (me key : Nat) : r.Fetch (s.register me key) := by
  unfold State.register
  refine h.modPkg _ _ (fun q => ?_)
  split <;> exact ⟨⟨rfl, rfl, fun h => h⟩, rfl⟩
theorem State.Fetch.dieFill (h : r.Fetch s) (p : Nat) (x : Site) (key : Nat) : r.Fetch (s.dieFill p x key) := by
  unfold State.dieFill
  dsimp only
  split
  · exact h
  · refine (State.Fetch.modPkg ?_ p (fun q => { q with dieLines := q.dieLines ++ [{ die := x.walkDie, key := key }] }) (fun q => ⟨Package.Calm.dieLines q (fun y hy => ?_), rfl⟩)).register _ _
    · split
      · exact h
      · split
        · exact h.dieDrop _ _ _
        · exact h
    · rcases List.mem_append.mp hy with hy | hy
      · exact .inl hy
      · rw [List.mem_singleton.mp hy]; exact .inr rfl
theorem State.Fetch.dropKey (h : r.Fetch s) (p core key : Nat) : r.Fetch (s.dropKey p core key) :=
  h.modPkg _ _ (fun q => ⟨⟨rfl, rfl, fun h => h⟩, rfl⟩)
theorem State.Fetch.fillLine (h : r.Fetch s) (p core key : Nat) : r.Fetch (s.fillLine p core key) := by
  unfold State.fillLine
  dsimp only
  refine State.Fetch.modPkg ?_ _ _ (fun q => ⟨⟨rfl, rfl, fun h => h⟩, rfl⟩)
  split
  · exact h.dropKey _ _ _
  · split
    · exact (h.dropKey _ _ _).dropKey _ _ _
    · exact h.dropKey _ _ _
theorem State.Fetch.afterUse (h : r.Fetch s) (c : Ctx) (x : Cap) : r.Fetch (s.afterUse c x) := by
  unfold State.afterUse
  split
  · exact h.modPkg _ _ (fun q => ⟨⟨rfl, rfl, fun h => h⟩, rfl⟩)
  · refine foldl_induct (fun t : State => r.Fetch t) _ (fun t z ht => ?_) _ _ h
    split
    · exact foldl_induct (fun t : State => r.Fetch t) _ (fun t z ht => ht.dropKey _ _ _) _ _ ht
    · exact ht
  · exact h
theorem State.Fetch.trans {t : State} (h : r.Fetch s) (h' : s.Fetch t) : r.Fetch t := ⟨h.1.trans h'.1, fun p => (h'.2 p).trans (h.2 p)⟩
theorem State.Fetch.slots (h : r.Fetch s) (hz : ∀ p, (r.pkg p).slots = []) (p : Nat) : (s.pkg p).slots = [] :=
  (h.1.field p Package.slots (fun _ _ _ _ _ _ _ => rfl)).trans (hz p)
/-- What a lane of a `PREF` does. -/
def prefLane (die : Bool) (b : Nat) (off : Int) (c : Ctx) (s : State) (l : Nat) : State :=
  let va := effAddr (c.rdPairV b l) (wideImm 6 off (c.lane l).hints * 64)
  if 2 ^ 57 ≤ va then s
  else match s.translate (s.partyOf c false) va .read with
    | (s, .ok (.hbm k) 0) =>
      let s := s.dieFill c.pkg c.site (k / 64)
      let y : Cap := { va := va / 64 * 64, len := 64, pages := [.hbm (k / 64 * 64)], policy := policyHint (c.lane l).hints }
      match die, s.coreOf c with
      | false, some (p, core) =>
        let s := if y.policy = 1 ∨ (s.dhit p core (k / 64) (k / 64 * 64) (k / 64 * 64 + 64)).isSome then s else s.fillLine p core (k / 64)
        s.afterUse c y
      | _, _ => s
    | (s, _) => s
theorem State.Fetch.prefLane (hz : ∀ p, (r.pkg p).slots = []) (h : r.Fetch s) (die : Bool) (b : Nat) (off : Int) (c : Ctx) (l : Nat) : r.Fetch (prefLane die b off c s l) := by
  unfold Machine.prefLane
  dsimp only
  split
  · exact h
  · have ht := h.trans (translate_free (h.slots hz) (s.partyOf c false) (effAddr (c.rdPairV b l) (wideImm 6 off (c.lane l).hints * 64)) .read)
    split
    · next e =>
      rw [e] at ht
      have hd := ht.dieFill c.pkg c.site
      split
      · refine State.Fetch.afterUse ?_ _ _
        split
        · exact hd _
        · exact (hd _).fillLine _ _ _
      · exact hd _
    · next e => rw [e] at ht; exact ht
end

/-! ### What reaches the homes -/

/-- A byte of a write that stands in a cache of a package. -/
def State.EarlyByte (s : State) (P : Nat) (a : Loc) : Prop := ∃ e ∈ (s.pkg P).early, ∃ n < e.bytes.length, a = .hbm (e.key + n)
/-- A byte of one of some shadow words. -/
def ShadowByte (S : List ShadowWord) (a : Loc) : Prop := ∃ x ∈ S, ∃ n < 4, a = .hbm (x.key + n)
/-- What `CCTL` of a context of package P leaves, where the shadow words that it may merge are those of S. -/
structure State.Cleans (P : Nat) (S : List ShadowWord) (s t : State) : Prop where
  rest : t = { s with pkgs := t.pkgs, hbm := t.hbm }
  pkg : ∀ p, t.pkg p = { s.pkg p with tlbs := (t.pkg p).tlbs, walks := (t.pkg p).walks, dlines := (t.pkg p).dlines, dieLines := (t.pkg p).dieLines, dir := (t.pkg p).dir
                                      early := (t.pkg p).early, harts := (t.pkg p).harts, shadows := (t.pkg p).shadows, slots := (t.pkg p).slots
                                      slotClock := (t.pkg p).slotClock, regs := (t.pkg p).regs }
  harts : ∀ p, sameHarts (s.pkg p) (t.pkg p)
  early : ∀ p, ∀ e ∈ (t.pkg p).early, ∃ f ∈ (s.pkg p).early, e.key = f.key ∧ e.bytes = f.bytes
  shadows : ∀ p, ∀ x ∈ (t.pkg p).shadows, x ∈ (s.pkg p).shadows
  slots : ∀ p, ∀ z ∈ (t.pkg p).slots, z.site < 8 ∧ ∃ x ∈ S, z.loc = .hbm x.key
  regs : ∀ p, SameRegs (s.pkg p) (t.pkg p) ((List.range 9).map (fun d => 0x0400 + 8 * d))
  narrow : S = [] → ∀ p, (t.pkg p).shadows = (s.pkg p).shadows ∧ (t.pkg p).slotClock = (s.pkg p).slotClock ∧ (t.pkg p).regs = (s.pkg p).regs
  bytes : ∀ a, ¬ s.EarlyByte P a → ¬ ShadowByte S a → t.rdByte a = s.rdByte a
section
variable {P : Nat} {S : List ShadowWord} {s t : State}
theorem State.Cleans.refl (hz : ∀ p, (s.pkg p).slots = []) : State.Cleans P S s s where
  rest := rfl
  pkg _ := rfl
  harts _ := rfl
  early _ e he := ⟨e, he, rfl, rfl⟩
  shadows _ _ h := h
  slots p z h := by rw [hz] at h; cases h
  regs _ _ _ := rfl
  narrow _ _ := ⟨rfl, rfl, rfl⟩
  bytes _ _ _ := rfl
theorem State.Cleans.calm (h : State.Cleans P S s t) {u : State} (hu : t.Calm u) : State.Cleans P S s u where
  rest := by rw [hu.rest, h.rest]
  pkg p := by rw [(hu.pkg p).only, h.pkg p]
  harts p := (hu.pkg p).harts.trans (h.harts p)
  early p := by rw [hu.field p Package.early (fun _ _ _ _ _ _ _ => rfl)]; exact h.early p
  shadows p := by rw [hu.field p Package.shadows (fun _ _ _ _ _ _ _ => rfl)]; exact h.shadows p
  slots p := by rw [hu.field p Package.slots (fun _ _ _ _ _ _ _ => rfl)]; exact h.slots p
  regs p o ho := (Package.reg_congr (hu.field p Package.regs (fun _ _ _ _ _ _ _ => rfl)) (hu.field p Package.boot (fun _ _ _ _ _ _ _ => rfl)) o).trans (h.regs p o ho)
  narrow hS p := by
    obtain ⟨h1, h2, h3⟩ := h.narrow hS p
    exact ⟨(hu.field p Package.shadows (fun _ _ _ _ _ _ _ => rfl)).trans h1, (hu.field p Package.slotClock (fun _ _ _ _ _ _ _ => rfl)).trans h2,
      (hu.field p Package.regs (fun _ _ _ _ _ _ _ => rfl)).trans h3⟩
  bytes a h1 h2 := (hu.sameBytes a).trans (h.bytes a h1 h2)
/-- What `CCTL` may change of a package. -/
structure Package.Cleans (S : List ShadowWord) (q r : Package) : Prop where
  pkg : r = { q with tlbs := r.tlbs, walks := r.walks, dlines := r.dlines, dieLines := r.dieLines, dir := r.dir, early := r.early, harts := r.harts
                     shadows := r.shadows, slots := r.slots, slotClock := r.slotClock, regs := r.regs }
  harts : sameHarts q r
  early : ∀ e ∈ r.early, ∃ f ∈ q.early, e.key = f.key ∧ e.bytes = f.bytes
  shadows : ∀ x ∈ r.shadows, x ∈ q.shadows
  slots : (∀ z ∈ q.slots, z.site < 8 ∧ ∃ x ∈ S, z.loc = .hbm x.key) → ∀ z ∈ r.slots, z.site < 8 ∧ ∃ x ∈ S, z.loc = .hbm x.key
  regs : SameRegs q r ((List.range 9).map (fun d => 0x0400 + 8 * d))
  narrow : S = [] → r.shadows = q.shadows ∧ r.slotClock = q.slotClock ∧ r.regs = q.regs
theorem State.Cleans.modPkg (h : State.Cleans P S s t) (p : Nat) {f : Package → Package} (hf : Package.Cleans S (t.pkg p) (f (t.pkg p))) : State.Cleans P S s (t.modPkg p f) := by
  have hp : ∀ n, n ≠ p → (t.modPkg p f).pkg n = t.pkg n := fun n hn => by rw [State.pkg_modPkg, if_neg hn]
  have hs : (t.modPkg p f).pkg p = f (t.pkg p) := State.pkg_modPkg_same ..
  have each : ∀ (R : Nat → Package → Prop), (∀ n, R n (t.pkg n)) → R p (f (t.pkg p)) → ∀ n, R n ((t.modPkg p f).pkg n) := fun R h1 h2 n => by
    by_cases hn : n = p
    · subst hn; rw [hs]; exact h2
    · rw [hp n hn]; exact h1 n
  refine ⟨?_, each (fun n q => q = { s.pkg n with tlbs := q.tlbs, walks := q.walks, dlines := q.dlines, dieLines := q.dieLines, dir := q.dir, early := q.early, harts := q.harts, shadows := q.shadows, slots := q.slots, slotClock := q.slotClock, regs := q.regs }) h.pkg ?_, each (fun n q => sameHarts (s.pkg n) q) h.harts (Eq.trans hf.harts (h.harts p)), each (fun n q => ∀ e ∈ q.early, ∃ f ∈ (s.pkg n).early, e.key = f.key ∧ e.bytes = f.bytes) h.early ?_,
    each (fun n q => ∀ x ∈ q.shadows, x ∈ (s.pkg n).shadows) h.shadows (fun x hx => h.shadows p x (hf.shadows x hx)), each (fun n q => ∀ z ∈ q.slots, z.site < 8 ∧ ∃ x ∈ S, z.loc = .hbm x.key) h.slots (hf.slots (h.slots p)),
    each (fun n q => SameRegs (s.pkg n) q _) h.regs (fun o ho => (hf.regs o ho).trans (h.regs p o ho)), fun hS => each (fun n q => q.shadows = (s.pkg n).shadows ∧ q.slotClock = (s.pkg n).slotClock ∧ q.regs = (s.pkg n).regs) (h.narrow hS) ?_, fun a h1 h2 => ?_⟩
  · exact (congrArg (fun x : State => { x with pkgs := (t.modPkg p f).pkgs }) h.rest)
  · rw [hf.pkg, h.pkg p]
  · intro e he
    obtain ⟨g, hg, e1, e2⟩ := hf.early e he
    obtain ⟨g', hg', e3, e4⟩ := h.early p g hg
    exact ⟨g', hg', e1.trans e3, e2.trans e4⟩
  · obtain ⟨h1, h2, h3⟩ := hf.narrow hS
    obtain ⟨g1, g2, g3⟩ := h.narrow hS p
    exact ⟨h1.trans g1, h2.trans g2, h3.trans g3⟩
  · refine Eq.trans ?_ (h.bytes a h1 h2)
    cases a <;> rfl
theorem wrBytes_hbm (s : State) (k : Nat) (bs : List Byte) : s.wrBytes (.hbm k) bs = { s with hbm := (s.wrBytes (.hbm k) bs).hbm } := by
  unfold State.wrBytes
  refine foldl_induct (fun x : State × Nat => x.1 = { s with hbm := x.1.hbm }) _ (fun x b h => ?_) bs (s, 0) rfl
  exact congrArg (fun y : State => y.wrByte (.hbm (k + x.2)) b) h
theorem State.Cleans.wrBytes (h : State.Cleans P S s t) (k : Nat) (bs : List Byte) (hb : ∀ n < bs.length, s.EarlyByte P (.hbm (k + n)) ∨ ShadowByte S (.hbm (k + n))) :
    State.Cleans P S s (t.wrBytes (.hbm k) bs) := by
  have hp := wrBytes_pkg t (.hbm k) bs
  refine ⟨?_, fun p => by rw [hp]; exact h.pkg p, fun p => by rw [hp]; exact h.harts p, fun p => by rw [hp]; exact h.early p, fun p => by rw [hp]; exact h.shadows p,
    fun p => by rw [hp]; exact h.slots p, fun p => by rw [hp]; exact h.regs p, fun hS p => by rw [hp]; exact h.narrow hS p, fun a h1 h2 => ?_⟩
  · refine (wrBytes_hbm t k bs).trans ?_
    rw [State.wrBytes_pkgs]
    exact congrArg (fun x : State => { x with hbm := (t.wrBytes (.hbm k) bs).hbm }) h.rest
  · refine ((State.wrBytes_stored t (.hbm k) bs trivial).2 a (fun n hn e => ?_)).trans (h.bytes a h1 h2)
    subst e
    rcases hb n hn with g | g
    · exact h1 g
    · exact h2 g

/-! ### Slots -/

theorem State.Cleans.releaseSlot (h : State.Cleans P S s t) {q : Nat} {z : RedSlot} (hz : z ∈ (t.pkg q).slots) (p : Nat) : State.Cleans P S s (t.releaseSlot p z) := by
  obtain ⟨-, x, hx, hl⟩ := h.slots q z hz
  unfold State.releaseSlot State.wrWord
  refine State.Cleans.modPkg ?_ _ ⟨rfl, rfl, fun e he => ⟨e, he, rfl, rfl⟩, fun _ hy => hy, fun hs y hy => hs y (List.mem_filter.mp hy).1, fun _ _ => rfl, fun hS => ⟨rfl, rfl, rfl⟩⟩
  rw [hl]
  exact h.wrBytes _ _ (fun n hn => .inr ⟨x, hx, n, by rwa [length_bytesOfNat] at hn, rfl⟩)
theorem slotAt_mem {s : State} {o : Loc} {z : RedSlot} (h : s.slotAt o = some z) : z ∈ (s.pkg (s.unitSite o).1).slots := List.mem_of_find?_eq_some h
theorem State.Cleans.releaseSpan (h : State.Cleans P S s t) (o : Loc) (n : Nat) : State.Cleans P S s (t.releaseSpan o n) := by
  unfold State.releaseSpan
  dsimp only
  split
  · exact h
  · refine foldl_induct (State.Cleans P S s) _ (fun u i hu => ?_) _ _ h
    split
    · next z hz => exact hu.releaseSlot (slotAt_mem hz) _
    · exact hu
theorem State.Cleans.walkTouch (h : State.Cleans P S s t) (p va level ppn : Nat) : State.Cleans P S s (t.walkTouch p va level ppn) := by
  induction level generalizing t ppn with
  | zero =>
    unfold State.walkTouch
    dsimp only
    split
    · exact h
    · split
      · exact h.releaseSpan _ _
      · exact h.releaseSpan _ _
  | succ l ih =>
    unfold State.walkTouch
    dsimp only
    split
    · exact h
    · split
      · exact h.releaseSpan _ _
      · exact ih (h.releaseSpan _ _) _
theorem State.Cleans.walkReads (h : State.Cleans P S s t) (p die asid va : Nat) : State.Cleans P S s (t.walkReads p die asid va) := by
  unfold State.walkReads
  dsimp only
  split
  · exact h
  · split
    · exact h.walkTouch _ _ _ _
    · split
      · exact (h.releaseSpan _ _).walkTouch _ _ _ _
      · exact h.releaseSpan _ _
theorem State.Cleans.translate (h : State.Cleans P S s t) (y : Party) (va : Nat) (k : AccKind) : State.Cleans P S s (t.translate y va k).1 := by
  unfold State.translate
  dsimp only
  split
  · exact h
  · split
    · next e level ptrs _ _ =>
      exact (h.walkReads _ _ _ _).calm ((State.Calm.refl _).modPkg _ (fun q => q.fill y.tlbs y.walkDie y.asid va e level ptrs) (fun q => ⟨rfl, rfl, fun h => h⟩))
    · exact h.walkReads _ _ _ _
theorem oldestSlot_mem {l : List RedSlot} {z : RedSlot} (h : oldestSlot l = some z) : z ∈ l := by
  unfold oldestSlot at h
  have key : ∀ (m : List RedSlot) (b : Option RedSlot), (∀ y, b = some y → y ∈ l) → (∀ y ∈ m, y ∈ l) → ∀ y,
      m.foldl (fun b x => match b with | none => some x | some y => if x.used < y.used then some x else b) b = some y → y ∈ l := by
    intro m
    induction m with
    | nil => intro b hb _ y hy; exact hb y hy
    | cons x m ih =>
      intro b hb hm y hy
      refine ih _ (fun w hw => ?_) (fun w hw => hm w (List.mem_cons_of_mem _ hw)) y hy
      cases b with
      | none => cases hw; exact hm x List.mem_cons_self
      | some v =>
        dsimp only at hw
        split at hw
        · cases hw; exact hm x List.mem_cons_self
        · exact hb w hw
  exact key l none (fun _ h => nomatch h) (fun _ h => h) z h
theorem Package.Cleans.setFld {q : Package} {o : Nat} (hS : S ≠ []) (ho : ¬ o ∉ (List.range 9).map (fun d => 0x0400 + 8 * d)) (hi lo x : Nat) : Package.Cleans S q (q.setFld o hi lo x) := by
  have hr : SameRegs q (q.setFld o hi lo x) ((List.range 9).map (fun d => 0x0400 + 8 * d)) := fun n hn => by
    rw [Package.reg_setFld, if_neg]
    rintro rfl
    exact ho hn
  rw [Package.setFld_only] at hr ⊢
  exact ⟨rfl, rfl, fun e he => ⟨e, he, rfl, rfl⟩, fun _ hy => hy, fun hs => hs, hr, fun h => absurd h hS⟩
theorem State.Cleans.roundOut (h : State.Cleans P S s t) {p : Nat} {z : RedSlot} (hz : z ∈ (t.pkg p).slots) : State.Cleans P S s (t.roundOut p z) := by
  obtain ⟨h8, x, hx, -⟩ := h.slots p z hz
  unfold State.roundOut
  refine (h.releaseSlot hz p).modPkg _ (Package.Cleans.setFld (fun hS => by rw [hS] at hx; cases hx) (fun ho => ?_) _ _ _)
  refine ho (List.mem_map.mpr ⟨unitDie z.site, List.mem_range.mpr ?_, rfl⟩)
  unfold unitDie
  rw [if_pos h8]
  omega
theorem State.Cleans.slotRoom (h : State.Cleans P S s t) {p site asid extra : Nat} {u : State} (hu : t.slotRoom p site asid extra = some u) : State.Cleans P S s u := by
  unfold State.slotRoom at hu
  dsimp only at hu
  have key : ∀ l, (∀ z ∈ l, z ∈ (t.pkg p).slots) → (oldestSlot l).map (t.roundOut p) = some u → State.Cleans P S s u := fun l hl he => by
    cases ho : oldestSlot l with
    | none => rw [ho] at he; cases he
    | some z =>
      rw [ho] at he
      cases he
      exact h.roundOut (hl z (oldestSlot_mem ho))
  split at hu
  · exact key _ (fun z hz => (List.mem_filter.mp (List.mem_filter.mp hz).1).1) hu
  · split at hu
    · exact key _ (fun z hz => (List.mem_filter.mp (List.mem_filter.mp hz).1).1) hu
    · cases hu
      exact h

/-! ### Writes at homes -/

theorem State.Cleans.writeHome (h : State.Cleans P S s t) (plain : Bool) (src : Option (Nat × Nat)) (me : Option Nat) (k : Nat) (bs : List Byte)
    (hb : ∀ n < bs.length, s.EarlyByte P (.hbm (k + n)) ∨ ShadowByte S (.hbm (k + n))) : State.Cleans P S s (t.writeHome plain src me (.hbm k) bs) := by
  unfold State.writeHome
  dsimp only
  split
  · exact h
  · refine State.Cleans.calm ?_ ((State.Calm.refl _).foldl _ _ (fun t x ht => (ht.dcacheWrite _ _).dirWrite _ _))
    exact ((h.calm ((State.Calm.refl t).thaw _)).releaseSpan _ _).wrBytes k bs hb
theorem State.Cleans.drainEarly (h : State.Cleans P S s t) (f : Early → Bool) : State.Cleans P S s (t.drainEarly P f) := by
  unfold State.drainEarly
  have hl : ∀ e ∈ (t.pkg P).early.filter f, ∃ g ∈ (s.pkg P).early, e.key = g.key ∧ e.bytes = g.bytes := fun e he => h.early P e (List.mem_filter.mp he).1
  generalize (t.pkg P).early.filter f = l at hl
  induction l generalizing t with
  | nil => exact h
  | cons e l ih =>
    rw [List.foldl_cons]
    refine ih ?_ (fun e he => hl e (List.mem_cons_of_mem _ he))
    obtain ⟨g, hg, h1, h2⟩ := hl e List.mem_cons_self
    refine State.Cleans.writeHome (h.modPkg P (f := fun q => { q with early := q.early.erase e }) ⟨rfl, rfl, fun e he => ⟨e, List.mem_of_mem_erase he, rfl, rfl⟩, fun _ hy => hy, fun hs y hy => hs y hy, fun _ _ => rfl, fun _ => ⟨rfl, rfl, rfl⟩⟩) _ _ _ _ _ (fun n hn => .inl ?_)
    rw [h1]
    rw [h2] at hn
    exact ⟨g, hg, n, hn, rfl⟩
theorem RedSlot.add_place (z : RedSlot) (v : Word) : (z.add v).loc = z.loc ∧ (z.add v).site = z.site := by
  rw [RedSlot.add_eq]
  exact ⟨rfl, rfl⟩
theorem RedSlot.load_place (z : RedSlot) (v : Word) : (z.load v).loc = z.loc ∧ (z.load v).site = z.site := by
  unfold RedSlot.load
  cases f32 v with
  | nan => exact ⟨rfl, rfl⟩
  | inf n => cases n <;> exact ⟨rfl, rfl⟩
  | fin n m e => exact ⟨rfl, rfl⟩
theorem State.Cleans.openSlot (h : State.Cleans P S s t) {x : ShadowWord} (hx : x ∈ S) {asid grid : Nat} {r : State × RedSlot} (hr : t.openSlot (.hbm x.key) asid grid = some r) :
    State.Cleans P S s r.1 ∧ r.2.site < 8 ∧ ∃ y ∈ S, r.2.loc = .hbm y.key := by
  unfold State.openSlot at hr
  cases hs : t.slotAt (.hbm x.key) with
  | some z =>
    rw [hs] at hr
    cases hr
    exact ⟨h, h.slots _ z (slotAt_mem hs)⟩
  | none =>
    rw [hs] at hr
    dsimp only [State.unitSite] at hr
    cases hroom : t.slotRoom (keyPkg x.key) (homeDie (keyPa x.key)) asid 0 with
    | none => rw [hroom] at hr; cases hr
    | some u =>
      rw [hroom, Option.map_some] at hr
      cases hr
      obtain ⟨l1, l2⟩ := RedSlot.load_place { (default : RedSlot) with site := homeDie (keyPa x.key), loc := .hbm x.key, asid := asid, grid := grid } (u.rdWord (.hbm x.key))
      exact ⟨h.slotRoom hroom, by rw [l2]; exact Nat.mod_lt _ (by decide), x, hx, l1⟩
theorem State.Cleans.contribute (h : State.Cleans P S s t) {x : ShadowWord} (hx : x ∈ S) {op : RedOp} {v : Word} {asid grid : Nat} {u : State}
    (hu : t.contribute (.hbm x.key) op v asid grid = some u) : State.Cleans P S s u := by
  unfold State.contribute at hu
  split at hu
  · cases ho : t.openSlot (.hbm x.key) asid grid with
    | none => rw [ho] at hu; cases hu
    | some r =>
      rw [ho] at hu
      cases hu
      obtain ⟨h1, h2, h3⟩ := h.openSlot hx ho
      obtain ⟨a1, a2⟩ := RedSlot.add_place r.2 v
      refine State.Cleans.calm ?_ ((State.Calm.refl _).dcacheHole _)
      unfold State.keepSlot
      refine h1.modPkg _ ⟨rfl, rfl, fun e he => ⟨e, he, rfl, rfl⟩, fun _ hy => hy, fun hs y hy => ?_, fun _ _ => rfl, fun hS => by rw [hS] at hx; cases hx⟩
      rcases List.mem_append.mp hy with hy | hy
      · exact hs y (List.mem_filter.mp hy).1
      · rw [List.mem_singleton.mp hy]
        dsimp only
        rw [a1, a2]
        exact ⟨h2, h3⟩
  · cases hu
    exact ((h.releaseSpan _ _).writeHome _ _ _ _ _ (fun n hn => .inr ⟨x, hx, n, by rwa [length_bytesOfNat] at hn, rfl⟩)).calm ((State.Calm.refl _).dcacheHole _)
theorem State.Cleans.mergeShadow (h : State.Cleans P S s t) {x : ShadowWord} (hx : x ∈ S) : State.Cleans P S s (t.mergeShadow P x) := by
  unfold State.mergeShadow
  dsimp only
  split
  · exact h
  · split
    · exact h
    · next u hu =>
      refine State.Cleans.modPkg (State.Cleans.contribute ?_ hx hu) _ ⟨rfl, rfl, fun e he => ⟨e, he, rfl, rfl⟩, fun _ hy => (List.mem_filter.mp hy).1, fun hs y hy => hs y hy, fun _ _ => rfl, fun hS => by rw [hS] at hx; cases hx⟩
      split
      · exact h
      · exact h.drainEarly _
theorem State.Cleans.mergeSpan (h : State.Cleans P S s t) (hS : ∀ x ∈ (s.pkg P).shadows, x ∈ S) (x : Site) (k n : Nat) : State.Cleans P S s (t.mergeSpan P x (.hbm k) n) := by
  unfold State.mergeSpan
  dsimp only
  split
  · exact h
  · next hc =>
    clear hc
    unfold State.mergeShadows
    have hl : ∀ y ∈ (t.pkg P).shadows.filter (fun y => y.within x k n), y ∈ S := fun y hy => hS y (h.shadows P y (List.mem_filter.mp hy).1)
    generalize (t.pkg P).shadows.filter (fun y => y.within x k n) = l at hl
    induction l generalizing t with
    | nil => exact h
    | cons y l ih => exact ih (h.mergeShadow (hl y List.mem_cons_self)) (fun z hz => hl z (List.mem_cons_of_mem _ hz))
theorem State.Cleans.toDie (h : State.Cleans P S s t) (die : Nat) (f : Early → Bool) : State.Cleans P S s (t.toDie P die f) := by
  unfold State.toDie
  dsimp only
  split
  · exact h.drainEarly _
  · obtain ⟨u, hu⟩ : ∃ u, u = t.thaw (fun q y => decide (q = P) && decide (y.die = die) && ((List.filter (fun e => decide (e.die = die) && !e.onDie && f e) (t.pkg P).early).flatMap (fun e => lineKeys e.key e.bytes.length)).contains y.key) := ⟨_, rfl⟩
    have hc : t.Calm u := hu ▸ (State.Calm.refl t).thaw _
    rw [← hu]
    refine (h.calm hc).modPkg P ⟨rfl, rfl, fun e he => ?_, fun _ hy => hy, fun hs y hy => hs y hy, fun _ _ => rfl, fun _ => ⟨rfl, rfl, rfl⟩⟩
    have heq : (u.pkg P).early = (t.pkg P).early := hc.field P Package.early (fun _ _ _ _ _ _ _ => rfl)
    rw [List.mem_append, List.mem_append] at he
    rcases he with (he | he) | he
    · exact ⟨e, (List.mem_filter.mp he).1, rfl, rfl⟩
    · obtain ⟨g, hg, rfl⟩ := List.mem_map.mp he
      exact ⟨g, heq ▸ (List.mem_filter.mp hg).1, rfl, rfl⟩
    · exact ⟨e, (List.mem_filter.mp he).1, rfl, rfl⟩
theorem State.Cleans.cleanLine (h : State.Cleans P S s t) {c : Ctx} (hc : c.pkg = P) (key : Nat) : State.Cleans P S s (t.cleanLine c key) := by
  unfold State.cleanLine
  dsimp only
  rw [hc]
  split
  · exact h
  · split
    · exact h.drainEarly _
    · split
      · exact h
      · exact h.toDie _ _
theorem State.Cleans.dieInval (h : State.Cleans P S s t) (hS : ∀ x ∈ (s.pkg P).shadows, x ∈ S) {c : Ctx} (hc : c.pkg = P) (key : Nat) : State.Cleans P S s (t.dieInval c key) := by
  unfold State.dieInval
  dsimp only
  rw [hc]
  split
  · exact h.mergeSpan hS _ _ _
  · exact (h.mergeSpan hS _ _ _).calm ((State.Calm.refl _).dieDrop _ _ _)
/-- What a lane of a `CCTL` does. -/
def cctlLane (op : CacheOp) (b : Nat) (off : Int) (c : Ctx) (s : State) (l : Nat) : State :=
  let va := effAddr (c.rdPairV b l) (wideImm 6 off (c.lane l).hints * 64)
  if 2 ^ 57 ≤ va then s
  else match s.translate (s.partyOf c false) va .read with
    | (s, .ok (.hbm k) _) =>
      let s := s.cleanLine c (k / 64)
      let s := if op = .clean then s else s.dropLine c (.hbm k)
      if op = .invd then s.dieInval c (k / 64) else s
    | (s, _) => s
theorem State.Cleans.cctlLane (h : State.Cleans P S s t) {op : CacheOp} (hS : op = .invd → ∀ x ∈ (s.pkg P).shadows, x ∈ S) {c : Ctx} (hc : c.pkg = P) (b : Nat) (off : Int) (l : Nat) :
    State.Cleans P S s (cctlLane op b off c t l) := by
  unfold Machine.cctlLane
  dsimp only
  split
  · exact h
  · have ht := h.translate (t.partyOf c false) (effAddr (c.rdPairV b l) (wideImm 6 off (c.lane l).hints * 64)) .read
    split
    · next s' k n e =>
      rw [e] at ht
      have hd : State.Cleans P S s (if op = .clean then State.cleanLine s' c (k / 64) else (State.cleanLine s' c (k / 64)).dropLine c (.hbm k)) := by
        split
        · exact ht.cleanLine hc _
        · exact (ht.cleanLine hc _).calm ((State.Calm.refl _).dropLine _ _)
      by_cases ho : op = .invd
      · rw [if_pos ho]
        exact hd.dieInval (hS ho) hc _
      · rw [if_neg ho]
        exact hd
    · next e => rw [e] at ht; exact ht
end

/-! ### The obligation -/

/-- An instruction whose effect lies outside the table of contexts moves on. -/
theorem moves_outside {s : State} {i : Instr} {c : Ctx} {act : List Nat} (h : Issues s i c act)
    (body : State → Ctx → List Nat → Eff) (he : exec i s = gate i s body) {t : State} (ht : t.ctxs = (s.hinted i act).ctxs)
    (hb : body (s.hinted i act) (c.begun i act) act = .ok t) : ∃ t' c', (exec i s = .next t' ∧ t'.ctx s.cur.ctx = c' ∧ OnlyRegs c c' ∧ c'.v = c.v ∧ c'.vtags = c.vtags
      ∧ c'.g = c.g ∧ c'.e = c.e ∧ c'.fpflags = c.fpflags ∧ Moved c c' (s.cohort c) c.preds ∧ (∀ j, j ≠ s.cur.ctx → t'.ctx j = s.ctx j)) ∧ t' = { t with ctxs := t'.ctxs } := by
  have hf := find_ctxs_begun h ht
  refine ⟨t.modCtx s.cur.ctx (fun _ => s.depart i (s.cohort c) (c.begun i act)), s.depart i (s.cohort c) (c.begun i act), ⟨?_, State.ctx_modCtx _ _ _ _ hf, RegsOf.depart _ _ _ _ _ (RegsOf.begun ..), ?_, ?_, ?_, ?_, ?_, fun l => ?_, fun j hj => ?_⟩, rfl⟩
  · rw [he, gate_ok h body hb, State.modCtx_const t _ _ _ hf]
  · rw [depart_v]; exact begun_v ..
  · rw [depart_vtags]; exact begun_vtags ..
  · rw [depart_g]; exact begun_g ..
  · rw [depart_e]; exact begun_e ..
  · rw [depart_flags]; exact begun_flags ..
  · rw [depart_lane _ _ _ (cohort_nodup s c), begun_lane]; rfl
  · rw [State.ctx_modCtx_ne _ _ _ _ hj, other_ctx_hinted ht hj]
theorem begun_pkg' (c : Ctx) (i : Instr) (act : List Nat) : (c.begun i act).pkg = c.pkg := by unfold Ctx.begun; split <;> rfl
theorem hinted_rest (s : State) (i : Instr) (act : List Nat) : s.hinted i act = { s with ctxs := (s.hinted i act).ctxs } := by unfold State.hinted; split <;> rfl
theorem harts_last {q r : Package} (h : sameHarts q r) : r.harts.map (fun e => (e.1, e.2.last)) = q.harts.map (fun e => (e.1, e.2.last)) := by
  have := congrArg (List.map (fun e : Nat × Hart => (e.1, e.2.last))) h
  unfold mapVals at this
  rw [List.map_map, List.map_map] at this
  exact this
theorem rest_chain {s h u t : State} (h1 : h = { s with ctxs := h.ctxs }) (h2 : u = { h with pkgs := u.pkgs, hbm := u.hbm }) (h3 : t = { u with ctxs := t.ctxs }) :
    t = { s with ctxs := t.ctxs, pkgs := t.pkgs, hbm := t.hbm } := by
  have hp : t.pkgs = u.pkgs := by rw [h3]
  have hh : t.hbm = u.hbm := by rw [h3]
  rw [hp, hh]
  calc t = { u with ctxs := t.ctxs } := h3
    _ = { h with pkgs := u.pkgs, hbm := u.hbm, ctxs := t.ctxs } := congrArg (fun x : State => { x with ctxs := t.ctxs }) h2
    _ = _ := congrArg (fun x : State => { x with pkgs := u.pkgs, hbm := u.hbm, ctxs := t.ctxs }) h1
theorem State.Cleans.congr {P : Nat} {S : List ShadowWord} {s s' t t' : State} (h : State.Cleans P S s t) (hp : ∀ p, s'.pkg p = s.pkg p) (hp' : ∀ p, t'.pkg p = t.pkg p)
    (hb : SameBytes s' s) (hb' : SameBytes t t') (hr : t' = { s' with pkgs := t'.pkgs, hbm := t'.hbm }) : State.Cleans P S s' t' := by
  refine ⟨hr, fun p => ?_, fun p => ?_, fun p => ?_, fun p => ?_, fun p => ?_, fun p => ?_, fun hS p => ?_, fun a h1 h2 => ?_⟩
  · rw [hp, hp']; exact h.pkg p
  · rw [hp, hp']; exact h.harts p
  · rw [hp, hp']; exact h.early p
  · rw [hp, hp']; exact h.shadows p
  · rw [hp']; exact h.slots p
  · rw [hp, hp']; exact h.regs p
  · rw [hp, hp']; exact h.narrow hS p
  · exact (hb' a).trans ((h.bytes a (fun g => h1 (by unfold State.EarlyByte; rw [hp]; exact g)) h2).trans (hb a))
theorem cctl_cleans {s : State} {g : Guard} {op : CacheOp} {b : Nat} {off : Int} {c : Ctx} {act : List Nat} (h : Issues s (.cctl g op b off) c act) (hz : ∀ p, (s.pkg p).slots = []) (S : List ShadowWord)
    (hS : op = .invd → ∀ x ∈ (s.pkg c.pkg).shadows, x ∈ S) :
    ∃ t c', (exec (.cctl g op b off) s = .next t ∧ t.ctx s.cur.ctx = c' ∧ OnlyRegs c c' ∧ c'.v = c.v ∧ c'.vtags = c.vtags
      ∧ c'.g = c.g ∧ c'.e = c.e ∧ c'.fpflags = c.fpflags ∧ Moved c c' (s.cohort c) c.preds ∧ (∀ j, j ≠ s.cur.ctx → t.ctx j = s.ctx j))
      ∧ t = { s with ctxs := t.ctxs, pkgs := t.pkgs, hbm := t.hbm } ∧ State.Cleans c.pkg S s { t with ctxs := s.ctxs } := by
  have hpg : ∀ p, (s.hinted (.cctl g op b off) act).pkg p = s.pkg p := fun p => hinted_pkg ..
  obtain ⟨u, hu⟩ : ∃ u, u = act.foldl (cctlLane op b off (c.begun (.cctl g op b off) act)) (s.hinted (.cctl g op b off) act) := ⟨_, rfl⟩
  have hcl : State.Cleans c.pkg S (s.hinted (.cctl g op b off) act) u := hu ▸
    foldl_induct (State.Cleans c.pkg S _) _ (fun t l ht => ht.cctlLane (fun ho => by rw [hpg]; exact hS ho) (begun_pkg' ..) b off l) _ _ (.refl (fun p => by rw [hpg]; exact hz p))
  obtain ⟨t, c', hm, ht⟩ := moves_outside h _ (exec_cctl_eq ..) (t := u) (by rw [hcl.rest]) (congrArg Eff.ok hu.symm)
  have hrest := rest_chain (hinted_rest s (.cctl g op b off) act) hcl.rest ht
  refine ⟨t, c', hm, hrest, hcl.congr (fun p => (hpg p).symm) (fun p => ?_) (hinted_sameBytes _ _ _) (fun a => ?_) ?_⟩
  · have hp : t.pkg p = u.pkg p := by rw [ht]; rfl
    exact hp
  · have hb : t.rdByte a = u.rdByte a := by rw [ht]; cases a <;> rfl
    refine Eq.trans ?_ hb
    cases a <;> rfl
  · exact congrArg (fun x : State => { x with ctxs := s.ctxs }) hrest

/-- Settles O13: each lane changes translations and caches, and `CCTL` brings to the homes what stands before them. -/
theorem cacheInstructions : Obligations.CacheInstructions := by
  intro i s c act h hz moved
  refine ⟨?_, ?_, ?_⟩
  · rintro ⟨g, die, b, off, rfl⟩
    have hpg : ∀ p, (s.hinted (.pref g die b off) act).pkg p = s.pkg p := fun p => hinted_pkg ..
    obtain ⟨u, hu⟩ : ∃ u, u = act.foldl (prefLane die b off (c.begun (.pref g die b off) act)) (s.hinted (.pref g die b off) act) := ⟨_, rfl⟩
    have hf : (s.hinted (.pref g die b off) act).Fetch u := hu ▸
      foldl_induct (State.Fetch _) _ (fun t l ht => ht.prefLane (fun p => by rw [hpg]; exact hz p) die b off _ l) _ _ (.refl _)
    obtain ⟨t, c', hm, ht⟩ := moves_outside h _ (exec_pref_eq ..) (t := u) hf.1.ctxs (congrArg Eff.ok hu.symm)
    have hpt : ∀ p, t.pkg p = u.pkg p := fun p => by rw [ht]; rfl
    refine ⟨t, c', hm, ?_, fun p => ?_⟩
    · have hp : t.pkgs = u.pkgs := by rw [ht]
      rw [hp]
      calc t = { u with ctxs := t.ctxs } := ht
        _ = { s.hinted (.pref g die b off) act with pkgs := u.pkgs, ctxs := t.ctxs } := congrArg (fun x : State => { x with ctxs := t.ctxs }) hf.1.rest
        _ = _ := congrArg (fun x : State => { x with pkgs := u.pkgs, ctxs := t.ctxs }) (hinted_rest s (.pref g die b off) act)
    · have h1 := (hf.1.pkg p).only
      have h2 := hf.2 p
      rw [hpg] at h1 h2
      rw [hpt]
      rw [h2] at h1
      exact h1
  · rintro ⟨g, op, b, off, rfl, hS⟩
    obtain ⟨t, c', hm, hr, hc⟩ := cctl_cleans h hz [] (fun ho x hx => by rw [hS ho] at hx; cases hx)
    refine ⟨t, c', hm, hr, fun a ha => (show t.rdByte a = _ from ?_), fun p => ⟨?_, harts_last (hc.harts p), hc.early p⟩⟩
    · refine Eq.trans ?_ (hc.bytes a ha (fun ⟨x, hx, _⟩ => nomatch hx))
      cases a <;> rfl
    · obtain ⟨h1, h2, h3⟩ := hc.narrow rfl p
      have h4 : (t.pkg p).slots = (s.pkg p).slots := by
        rw [hz]
        exact List.eq_nil_iff_forall_not_mem.mpr (fun z hzm => by obtain ⟨-, x, hx, -⟩ := hc.slots p z hzm; cases hx)
      have h5 := hc.pkg p
      have e1 : (t.pkg p).shadows = (s.pkg p).shadows := h1
      have e2 : (t.pkg p).slotClock = (s.pkg p).slotClock := h2
      have e3 : (t.pkg p).regs = (s.pkg p).regs := h3
      have h6 : t.pkg p = { s.pkg p with tlbs := (t.pkg p).tlbs, walks := (t.pkg p).walks, dlines := (t.pkg p).dlines, dieLines := (t.pkg p).dieLines, dir := (t.pkg p).dir
                                         early := (t.pkg p).early, harts := (t.pkg p).harts, shadows := (t.pkg p).shadows, slots := (t.pkg p).slots
                                         slotClock := (t.pkg p).slotClock, regs := (t.pkg p).regs } := h5
      rw [e1, e2, e3, h4] at h6
      exact h6
  · rintro ⟨g, b, off, rfl⟩
    obtain ⟨t, c', hm, hr, hc⟩ := cctl_cleans h hz (s.pkg c.pkg).shadows (fun _ _ hx => hx)
    refine ⟨t, c', hm, hr, fun a ha hb => ?_, fun p => ⟨hc.pkg p, harts_last (hc.harts p), hc.regs p, hc.shadows p⟩⟩
    refine Eq.trans ?_ (hc.bytes a ha hb)
    cases a <;> rfl

end Sys2Proof.Machine
end

section
/-! `BAR` and the fences: what `Claims.Barriers` says of the end of a barrier asks that the context be runnable (R297), while
a barrier releases the lanes of contexts that attend it (R310); of sequencers, the first does not ask whether they trap. -/

namespace Sys2Proof.Machine

/-- A sequencer that has trapped, and whose one lane waits in a barrier at L0. -/
def trappedSeq : Ctx :=
  { kind := .seq, placed := true, trapped := true, arrived := [(0, 1)], lanes := [(0, { wait := .bar 0 })] }
/-- A machine with a running unit at L2, whose sequencer this is. -/
def trappedMachine : State := { ctxs := [(0, trappedSeq)], units := [(0, { level := 2, st := .running })] }
theorem trappedSeq_runnable : trappedMachine.runnable trappedSeq = true := by decide
theorem trappedSeq_released : trappedMachine.exitsReleased 0 0 = true := by decide
/-- A context that has trapped does not attend: its lane waits on. -/
theorem trappedSeq_waits : (((trappedMachine.barriers 0).ctx 0).lane 0).wait = .bar 0 := by decide
theorem trappedSeq_arrived (n : Nat) (hn : n ≠ 0) : Sparse.get 0 trappedSeq.arrived n = 0 := by
  simp [trappedSeq, Sparse.get, Sparse.find, hn]

/-- Refutes O26: in `Claims.Barriers` the lane of a sequencer that has trapped, which is runnable, does not go on at the end of
its barrier. -/
theorem not_barriersAndFences : ¬ Obligations.BarriersAndFences := by
  rintro ⟨⟨-, -, h⟩, -, -⟩
  obtain ⟨h1, -, -⟩ := h trappedMachine 0 trappedSeq rfl (by decide) (by decide) trappedSeq_arrived trappedSeq_runnable trappedSeq_released
  have h2 := congrArg Lane.wait (h1 0)
  rw [trappedSeq_waits] at h2
  exact absurd h2 (by decide)

end Sys2Proof.Machine
end

section
/-! Creation of units and lane groups: every new one stands under a key that none had, and nothing that stood changes. -/

namespace Sys2Proof.Machine

/-- A state that differs from another in units and contexts that it has besides, whose stores are empty. -/
structure State.Spawns (s t : State) : Prop where
  /-- nothing but contexts and units -/
  rest : t = { s with ctxs := t.ctxs, units := t.units, fresh := t.fresh }
  /-- contexts that stood -/
  ctxs : ∀ k c, Sparse.find s.ctxs k = some c → Sparse.find t.ctxs k = some c
  /-- units that stood -/
  units : ∀ k u, Sparse.find s.units k = some u → Sparse.find t.units k = some u
  /-- a new unit's store -/
  bare : ∀ k u, Sparse.find s.units k = none → Sparse.find t.units k = some u → u.store = []

variable {s t u : State}

theorem State.Spawns.refl (s : State) : s.Spawns s := ⟨rfl, fun _ _ h => h, fun _ _ h => h, fun _ _ h h' => by rw [h] at h'; cases h'⟩
theorem State.Spawns.trans (h : s.Spawns t) (h' : t.Spawns u) : s.Spawns u where
  rest := by rw [h'.rest, h.rest]
  ctxs k c hc := h'.ctxs k c (h.ctxs k c hc)
  units k x hx := h'.units k x (h.units k x hx)
  bare k x hn hx := by
    cases ht : Sparse.find t.units k with
    | none => exact h'.bare k x ht hx
    | some y =>
      rw [h'.units k y ht] at hx
      cases hx
      exact h.bare k _ hn ht
theorem State.Spawns.foldl {α : Type} (f : State → α → State) (hf : ∀ s x, State.Spawns s (f s x)) (l : List α) (s : State) : s.Spawns (l.foldl f s) :=
  foldl_induct (fun t => s.Spawns t) f (fun t x h => h.trans (hf t x)) l s (.refl s)
theorem State.Spawns.ctx (h : s.Spawns t) {k : Nat} (hk : Sparse.find s.ctxs k ≠ none) : t.ctx k = s.ctx k := by
  obtain ⟨c, hc⟩ := Option.ne_none_iff_exists'.mp hk
  exact State.ctx_congr (by rw [h.ctxs k c hc, hc])
theorem State.Spawns.unit (h : s.Spawns t) {k : Nat} (hk : Sparse.find s.units k ≠ none) : t.unit k = s.unit k := by
  obtain ⟨c, hc⟩ := Option.ne_none_iff_exists'.mp hk
  unfold State.unit
  rw [h.units k c hc, hc]
theorem State.Spawns.sameBytes (h : s.Spawns t) : SameBytes s t := by
  intro a
  cases a with
  | store v o =>
    cases hv : Sparse.find s.units v with
    | some x => simp [State.rdByte, h.unit (k := v) (by simp [hv])]
    | none =>
      cases hw : Sparse.find t.units v with
      | none => simp [State.rdByte, State.unit, hv, hw]
      | some x => simp [State.rdByte, State.unit, hv, hw, h.bare v x hv hw]
  | none => rfl
  | hbm k => rw [h.rest]; rfl
  | host k => rw [h.rest]; rfl
theorem State.Spawns.newCtx (h : s.Spawns t) {k : Nat} (hk : Sparse.find t.ctxs k = none) : Sparse.find s.ctxs k = none := by
  cases hs : Sparse.find s.ctxs k with
  | none => rfl
  | some c => rw [h.ctxs k c hs] at hk; cases hk
theorem State.Spawns.newUnitKey (h : s.Spawns t) {k : Nat} (hk : Sparse.find t.units k = none) : Sparse.find s.units k = none := by
  cases hs : Sparse.find s.units k with
  | none => rfl
  | some c => rw [h.units k c hs] at hk; cases hk

theorem find_next {α : Type} (m : Sparse α) {k : Nat} (h : Sparse.next m ≤ k) : Sparse.find m k = none := by
  cases hk : Sparse.find m k with
  | none => rfl
  | some x => have := Sparse.lt_next hk; omega

/-! ### One creation -/

theorem putCtx_spawns (s : State) (c : Ctx) : s.Spawns (s.putCtx c) ∧ Sparse.find s.ctxs s.newKey = none ∧ Sparse.find (s.putCtx c).ctxs s.newKey = some c := by
  have hn : Sparse.find s.ctxs s.newKey = none := find_next _ (by unfold State.newKey; omega)
  rw [putCtx_key]
  refine ⟨⟨rfl, fun k x hx => ?_, fun _ _ h => h, fun _ _ h h' => by rw [h] at h'; cases h'⟩, hn, ?_⟩
  · have : k ≠ s.newKey := State.newKey_ne hx
    simp [Sparse.find_put, this, hx]
  · simp [Sparse.find_put]
/-- A lane group of a team as it is created. -/
def groupOf (x : WUnit) (g : Grid) (u i : Nat) : Ctx :=
  { kind := .group, pkg := x.pkg, grid := x.grid, unit := u, asid := g.asid, index := i, wid := g.child 1 i x.wid
    lanes := entryLanes 32 g.entry, halted := g.startHalted }
theorem newGroup_eq (s : State) (u i : Nat) : s.newGroup u i = s.putCtx (groupOf (s.unit u) (s.grid (s.unit u).grid) u i) := rfl
theorem newGroup_spawns (s : State) (u i : Nat) : s.Spawns (s.newGroup u i) := by
  rw [newGroup_eq]; exact (putCtx_spawns _ _).1
theorem newGroups_spawns (s : State) (u n : Nat) : s.Spawns (s.newGroups u n) := State.Spawns.foldl _ (fun s i => newGroup_spawns s u i) _ _
/-- The key of a unit that is created. -/
def State.unitKey (s : State) : Nat := max s.fresh (Sparse.next s.units)
/-- A unit as it is created. -/
def waitingUnit (level gr parent index : Nat) (wid : DWord) (p k : Nat) : WUnit :=
  { level := level, grid := gr, parent := parent, index := index, wid := wid, pkg := p, age := k }
theorem newUnit_spawns (s : State) (level gr parent index : Nat) (wid : DWord) (p : Nat) :
    let t := s.newUnit level gr parent index wid p
    s.Spawns t ∧ Sparse.find s.units s.unitKey = none ∧ Sparse.find t.units s.unitKey = some (waitingUnit level gr parent index wid p s.unitKey) := by
  intro t
  have hn : Sparse.find s.units s.unitKey = none := find_next _ (by unfold State.unitKey; omega)
  let s1 : State := { s with units := Sparse.put s.units s.unitKey (waitingUnit level gr parent index wid p s.unitKey), fresh := s.unitKey + 1 }
  have h1 : s.Spawns s1 := by
    refine ⟨rfl, fun _ _ h => h, fun k x hx => ?_, fun k x hx hx' => ?_⟩
    · have : k ≠ s.unitKey := by rintro rfl; rw [hn] at hx; cases hx
      show Sparse.find (Sparse.put _ _ _) k = _
      simp [Sparse.find_put, this, hx]
    · have : Sparse.find (Sparse.put s.units s.unitKey (waitingUnit level gr parent index wid p s.unitKey)) k = some x := hx'
      rw [Sparse.find_put] at this
      split at this
      · cases this; rfl
      · rw [hx] at this; cases this
  have h2 : Sparse.find s1.units s.unitKey = some (waitingUnit level gr parent index wid p s.unitKey) := by
    show Sparse.find (Sparse.put _ _ _) _ = _
    simp [Sparse.find_put]
  have ht : t = if level = 1 ∧ ¬ (s1.grid gr).seqL1 then s1.newGroups s.unitKey (2 ^ (s1.grid gr).w1) else s1 := rfl
  rw [ht]
  split
  · have h3 := newGroups_spawns s1 s.unitKey (2 ^ (s1.grid gr).w1)
    exact ⟨h1.trans h3, hn, h3.units _ _ h2⟩
  · exact ⟨h1, hn, h2⟩

/-! ### Several -/

/-- A state has a unit, which another had not, of which a statement holds. -/
def State.HasUnit (s t : State) (r : Nat → WUnit → Prop) : Prop := ∃ k w, Sparse.find s.units k = none ∧ Sparse.find t.units k = some w ∧ r k w
/-- A state has a context, which another had not, of which a statement holds. -/
def State.HasCtx (s t : State) (r : Ctx → Prop) : Prop := ∃ k c, Sparse.find s.ctxs k = none ∧ Sparse.find t.ctxs k = some c ∧ r c

theorem State.Spawns.hasUnit {r : Nat → WUnit → Prop} (h : s.Spawns t) (h' : t.HasUnit u r) {v : State} (e : u.Spawns v) : s.HasUnit v r := by
  obtain ⟨k, w, hn, hs, hr⟩ := h'
  exact ⟨k, w, h.newUnitKey hn, e.units _ _ hs, hr⟩
theorem State.Spawns.hasCtx {r : Ctx → Prop} (h : s.Spawns t) (h' : t.HasCtx u r) {v : State} (e : u.Spawns v) : s.HasCtx v r := by
  obtain ⟨k, w, hn, hs, hr⟩ := h'
  exact ⟨k, w, h.newCtx hn, e.ctxs _ _ hs, hr⟩
theorem foldl_newUnit (s : State) (level gr parent : Nat) (wid : Nat → DWord) (p : Nat → Nat) (l : List Nat) :
    let t := l.foldl (fun s i => s.newUnit level gr parent i (wid i) (p i)) s
    s.Spawns t ∧ ∀ i ∈ l, s.HasUnit t (fun k w => w = waitingUnit level gr parent i (wid i) (p i) k) := by
  induction l generalizing s with
  | nil => exact ⟨.refl s, fun _ h => absurd h (by simp)⟩
  | cons i r ih =>
    obtain ⟨h1, hn, hf⟩ := newUnit_spawns s level gr parent i (wid i) (p i)
    obtain ⟨h2, hr⟩ := ih (s.newUnit level gr parent i (wid i) (p i))
    rw [List.foldl_cons]
    refine ⟨h1.trans h2, fun j hj => ?_⟩
    rcases List.mem_cons.mp hj with rfl | hj
    · exact ⟨_, _, hn, h2.units _ _ hf, rfl⟩
    · exact h1.hasUnit (hr j hj) (.refl _)
theorem foldl_newGroup (s : State) (u : Nat) (hu : Sparse.find s.units u ≠ none) (l : List Nat) :
    let t := l.foldl (fun s i => s.newGroup u i) s
    ∀ i ∈ l, s.HasCtx t (fun c => c = groupOf (s.unit u) (s.grid (s.unit u).grid) u i) := by
  induction l generalizing s with
  | nil => exact fun _ h => absurd h (by simp)
  | cons i r ih =>
    have h1 := newGroup_spawns s u i
    have hkey := putCtx_spawns s (groupOf (s.unit u) (s.grid (s.unit u).grid) u i)
    rw [← newGroup_eq] at hkey
    obtain ⟨-, hn, hf⟩ := hkey
    have hx : (s.newGroup u i).unit u = s.unit u := h1.unit hu
    have hg : (s.newGroup u i).grids = s.grids := by rw [h1.rest]
    obtain ⟨x, hux⟩ := Option.ne_none_iff_exists'.mp hu
    have hr := ih (s.newGroup u i) (by rw [h1.units _ _ hux]; simp)
    dsimp only at hr
    rw [hx] at hr
    have hgr : ∀ n, (s.newGroup u i).grid n = s.grid n := fun n => by unfold State.grid; rw [hg]
    rw [hgr] at hr
    have h2 : (s.newGroup u i).Spawns (r.foldl (fun s i => s.newGroup u i) (s.newGroup u i)) := State.Spawns.foldl _ (fun s i => newGroup_spawns s u i) _ _
    rw [List.foldl_cons]
    intro t j hj
    rcases List.mem_cons.mp hj with rfl | hj
    · exact ⟨_, _, hn, h2.ctxs _ _ hf, rfl⟩
    · exact h1.hasCtx (hr j hj) (.refl _)
theorem groupOf_zeroed (x : WUnit) (g : Grid) (u i : Nat) : (groupOf x g u i).Zeroed := by
  refine ⟨fun _ _ => rfl, fun _ => rfl, fun _ => rfl, rfl, fun l k => ?_, fun _ => rfl, fun _ => rfl, fun _ _ _ => rfl, fun _ _ => rfl,
    fun _ => ⟨rfl, rfl⟩, fun _ => ⟨rfl, rfl⟩, rfl, rfl, rfl, rfl, rfl⟩
  have hl : ((groupOf x g u i).lane l).pred = 0 := by
    unfold Ctx.lane groupOf entryLanes
    dsimp only
    rw [find_map_same]
    split <;> rfl
  unfold Ctx.pred
  rw [hl]
  simp

end Sys2Proof.Machine
end

section
/-! Command queues: the dispatch of packets (R282 to R287, R404). -/

namespace Sys2Proof.Machine

/-! ### Translations of one package -/

theorem State.translate_only {s : State} (h : s.NoSlots) (y : Party) (va : Nat) (k : AccKind) : OnlyPkg s (s.translate y va k).1 y.pkg := by
  unfold State.translate
  dsimp only
  rw [State.walkReads_noSlots h]
  split
  · exact .refl s _
  · split
    · exact .modPkg ..
    · exact .refl s _
theorem State.Cached.reg {s t : State} (h : s.Cached t) (p off : Nat) : (t.pkg p).reg off = (s.pkg p).reg off := by rw [h.pkgs]; rfl
theorem State.Cached.homeDWord {s t : State} (hs : s.NoSlots) (h : s.Cached t) (l : Loc) : t.homeDWord l = s.homeDWord l := by
  unfold State.homeDWord
  rw [State.homeRead_noSlots hs, State.homeRead_noSlots (h.quiet hs), State.rdBytes_congr h.sameBytes]
theorem State.Cached.asidEntry {s t : State} (hs : s.NoSlots) (h : s.Cached t) (p asid : Nat) : t.asidEntry p asid = s.asidEntry p asid := by
  unfold State.asidEntry State.asidPlace Package.fld
  simp only [h.homeDWord hs, h.reg]
theorem State.Cached.podMember {s t : State} (h : s.Cached t) (p q : Nat) : t.podMember p q = s.podMember p q := by
  unfold State.podMember Package.fld
  simp only [h.reg]
theorem State.Cached.recordFails {s t : State} (hs : s.NoSlots) (h : s.Cached t) (p : Nat) (bs : List Byte) : t.recordFails p bs = s.recordFails p bs := by
  unfold State.recordFails Package.carveMiB Package.fld
  simp only [h.asidEntry hs, h.podMember, h.reg]
theorem State.Cached.cpMatch {s t : State} (h : s.Cached t) (p q : Nat) (e : DWord) : (t.pkg p).cpMatch q e = (s.pkg p).cpMatch q e := by
  unfold Package.cpMatch
  simp only [h.reg]

/-! ### Packages that dispatch -/

/-- What every step of a fold keeps that takes an element of its list. -/
theorem foldl_keeps_mem {α β σ : Type} (p : σ → β) (f : σ → α → σ) (l : List α) (h : ∀ c, ∀ x ∈ l, p (f c x) = p c) (c : σ) : p (l.foldl f c) = p c := by
  induction l generalizing c with
  | nil => rfl
  | cons x r ih => rw [List.foldl_cons, ih (fun c y hy => h c y (List.mem_cons_of_mem _ hy)), h c x (List.mem_cons_self ..)]

theorem withQueues_reg (x : Package) (a : Sparse Nat) (b : Sparse Held) (c : Sparse Nat) (off : Nat) :
    Package.reg { x with turns := a, held := b, qcause := c } off = x.reg off := rfl
theorem Package.dispatched_reg (x : Package) (q off : Nat) : (x.dispatched q).reg off
    = if off = 0x2010 + 32 * q then putBits (x.reg off) 63 32 (bits (x.reg off) 63 32 + 1) else x.reg off := by
  unfold Package.dispatched
  dsimp only
  rw [withQueues_reg, Package.reg_setFld]
  unfold Package.fld
  split
  · next e => rw [e]
  · rfl
theorem Package.dispatched_held (x : Package) (q : Nat) : Sparse.find (x.dispatched q).held q = none := by
  have h : (x.dispatched q).held = Sparse.del x.held q := rfl
  rw [h, Sparse.find_del, if_pos rfl]
theorem Package.extend_only (x : Package) (i : Nat) (d : List Byte) : x.extend i d = { x with regs := (x.extend i d).regs } :=
  foldl_induct (fun y : Package => y = { x with regs := y.regs })
    (fun y j => y.setReg (0x0880 + 64 * i + 8 * j) (BitVec.ofNat 64 (natOfBytes (((sha512 (x.meas i ++ d)).drop (8 * j)).take 8))))
    (fun y j h => by rw [Package.setReg_only y, h]) (List.range 8) x rfl
theorem Package.extend_reg (x : Package) (i : Nat) (d : List Byte) {off : Nat} (h : ∀ j < 8, off ≠ 0x0880 + 64 * i + 8 * j) :
    (x.extend i d).reg off = x.reg off := by
  unfold Package.extend
  refine foldl_keeps_mem (fun y : Package => y.reg off) _ _ (fun y j hj => ?_) x
  rw [Package.reg_setReg, if_neg (h j (List.mem_range.mp hj))]
theorem Package.measure_only (x : Package) (asid : Nat) (bs : List Byte) : x.measure asid bs = { x with regs := (x.measure asid bs).regs } := by
  unfold Package.measure
  split
  · rw [Package.setReg_only, Package.extend_only]
  · rfl
theorem Package.measure_reg (x : Package) (asid : Nat) (bs : List Byte) {off : Nat} (h : 0x0A40 ≤ off) : (x.measure asid bs).reg off = x.reg off := by
  unfold Package.measure
  split
  · rw [Package.reg_setReg, if_neg (by omega), Package.extend_reg _ _ _ (fun j hj => by omega)]
  · rfl

/-- What the stop of a queue leaves. -/
theorem stopQueue_effect (s : State) {p q : Nat} (code : Nat) (hc : code < 256) : OnlyPkg s (s.stopQueue p q code) p ∧ s.Told (s.stopQueue p q code) p 0x0760
    ∧ bits (((s.stopQueue p q code).pkg p).reg (0x2008 + 32 * q)) 39 31 = code * 2 + 1
    ∧ SameRegs (s.pkg p) ((s.stopQueue p q code).pkg p) [0x2008 + 32 * q] := by
  have hp : (s.stopQueue p q code).pkg p = (s.pkg p).setReg (0x2008 + 32 * q) (putBits (putBits ((s.pkg p).reg (0x2008 + 32 * q)) 39 32 code) 31 31 1) := by
    unfold State.stopQueue State.packageEvent
    rw [State.sendMsi_pkg, State.pkg_modPkg_same]
  refine ⟨(OnlyPkg.modPkg s p _).trans (.sendMsi _ p _), ?_, ?_, ?_⟩
  · refine (State.sendMsi_told (s.modPkg p (fun x => x.setReg (0x2008 + 32 * q)
      (putBits (putBits (x.reg (0x2008 + 32 * q)) 39 32 code) 31 31 1))) p 0x0760).congr rfl ?_ rfl
    rw [State.pkg_modPkg_same, Package.reg_setReg, if_neg (by omega)]
  · rw [hp, Package.reg_setReg, if_pos rfl, bits_split _ (show 31 < 32 by omega) (by omega), bits_putBits_same _ _ (by omega) (by omega),
      bits_putBits_other _ _ (by omega) (by omega) (by omega), bits_putBits_same _ _ (by omega) (by omega)]
    have : code % 2 ^ (39 + 1 - 32) = code := Nat.mod_eq_of_lt hc
    rw [this]
    omega
  · rw [hp]; exact SameRegs.setReg _ (by simp) _
theorem packetError_lt (bs : List Byte) : packetError bs < 256 := by
  unfold packetError
  dsimp only
  split <;> first | (split <;> omega) | omega

/-! ### The head packet -/

/-- A head packet that is read, with the state after its translation. -/
theorem dispatch_read {s : State} {p q : Nat} {l : Loc} {b : Nat} (ho : (s.pkg p).queueOpen q = true) (hq : q < 64) (hn : s.NoSlots)
    (hh : Sparse.find (s.pkg p).held q = none) (hx : s.xlate (s.queueParty p q) ((s.pkg p).headAddr q) .read = .ok l b)
    (name : String) (type : Nat) (go : State → List Byte → State) :
    let s1 := (s.translate (s.queueParty p q) ((s.pkg p).headAddr q) .read).1
    let bs := s.rdBytes l 64
    dispatch name type p q s go = if packetError bs ≠ 0 then .next (s1.stopQueue p q (packetError bs))
      else if bits (word64 bs 0) 63 56 = type ∧ s.nextQueue p = some q then .next (go s1 bs) else .fault (.notEnabled name) := by
  intro s1 bs
  have hc : s.Cached s1 := State.translate_cached hn _ _ _
  have e : s.translate (s.queueParty p q) ((s.pkg p).headAddr q) .read = (s1, .ok l b) := Prod.ext rfl ((State.translate_snd ..).trans hx)
  have hb : s1.rdBytes l 64 = bs := State.rdBytes_congr hc.sameBytes l 64
  unfold dispatch
  rw [if_neg (by simp [ho]; omega), hh]
  dsimp only
  rw [e]
  dsimp only
  rw [State.homeRead_noSlots (hc.quiet hn)]
  dsimp only
  rw [hb]
theorem dispatch_held {s : State} {p q : Nat} {h : Held} (ho : (s.pkg p).queueOpen q = true) (hq : q < 64)
    (hh : Sparse.find (s.pkg p).held q = some h) (hnext : s.nextQueue p = some q) (name : String) (go : State → List Byte → State) :
    dispatch name 1 p q s go = .next (go s h.packet) := by
  unfold dispatch
  rw [if_neg (by simp [ho]; omega), hh]
  dsimp only
  rw [if_pos ⟨rfl, hnext⟩]

/-! ### Grids that begin -/

/-- The key of a grid that is created. -/
def State.gridKey (s : State) : Nat := max s.fresh (Sparse.next s.grids)
/-- A state with one more grid. -/
def State.addGrid (s : State) (g : Grid) : State := { s with grids := Sparse.put s.grids s.gridKey g, fresh := s.gridKey + 1 }
theorem gridKey_new (s : State) : Sparse.find s.grids s.gridKey = none := find_next _ (by unfold State.gridKey; omega)
theorem addGrid_find (s : State) (g : Grid) : Sparse.find (s.addGrid g).grids s.gridKey = some g := by
  unfold State.addGrid
  dsimp only
  rw [Sparse.find_put, if_pos rfl]
theorem addGrid_sameBytes (s : State) (g : Grid) : SameBytes s (s.addGrid g) := fun a => by cases a <;> rfl
theorem newGrid_failed (s : State) (p : Nat) {g : Grid} (h : g.failed = true) : s.newGrid p g = s.addGrid g := by
  unfold State.newGrid
  dsimp only
  rw [if_pos h]
  rfl
theorem newGrid_effect (s : State) (p : Nat) {g : Grid} (h : g.failed = false) :
    let t := s.newGrid p g
    (∀ q, t.pkg q = s.pkg q) ∧ SameBytes s t ∧ Sparse.find t.grids s.gridKey = some g
      ∧ ∀ i < g.rootCnt, s.HasUnit t (fun k w => w = waitingUnit g.rootLvl s.gridKey 0 i 0 p k) := by
  intro t
  have ht : t = (List.range g.rootCnt).foldl (fun t i => t.newUnit g.rootLvl s.gridKey 0 i 0 p) (s.addGrid g) := by
    unfold t State.newGrid
    dsimp only
    rw [if_neg (by simp [h])]
    rfl
  obtain ⟨hs, hu⟩ := foldl_newUnit (s.addGrid g) g.rootLvl s.gridKey 0 (fun _ => 0) (fun _ => p) (List.range g.rootCnt)
  rw [← ht] at hs hu
  refine ⟨fun q => by rw [hs.rest]; rfl, (addGrid_sameBytes s g).trans hs.sameBytes, ?_, fun i hi => hu i (List.mem_range.mpr hi)⟩
  rw [hs.rest]
  exact addGrid_find s g

theorem withStaging_reg (x : Package) (a : Sparse DWord) (off : Nat) : Package.reg { x with staging := a } off = x.reg off := rfl
/-- A state that differs from another in the registers and staging fields of a package, below its queues. -/
structure State.Stages (s t : State) (p : Nat) : Prop where
  /-- the package alone, and none of its bytes -/
  only : OnlyPkg s t p
  /-- nothing else of the machine -/
  rest : t = { s with pkgs := t.pkgs }
  /-- the registers of queues and events -/
  regs : ∀ off, 0x0A40 ≤ off → (t.pkg p).reg off = (s.pkg p).reg off
theorem State.Stages.modPkg (s : State) (p : Nat) (f : Package → Package) (hf : ∀ off, 0x0A40 ≤ off → (f (s.pkg p)).reg off = (s.pkg p).reg off) :
    s.Stages (s.modPkg p f) p := ⟨.modPkg s p f, rfl, fun off h => by rw [State.pkg_modPkg_same]; exact hf off h⟩
theorem State.Stages.trans {s t u : State} {p : Nat} (h : s.Stages t p) (h' : t.Stages u p) : s.Stages u p :=
  ⟨h.only.trans h'.only, by rw [h'.rest, h.rest], fun off ho => (h'.regs off ho).trans (h.regs off ho)⟩
theorem latchStaging_stages (s : State) (p asid : Nat) : s.Stages (s.latchStaging p asid) p := by
  unfold State.latchStaging
  dsimp only
  exact .modPkg s p _ (fun _ _ => withStaging_reg ..)
theorem launchStaging_stages (s : State) (p asid : Nat) : s.Stages (s.launchStaging p asid) p := by
  unfold State.launchStaging
  split
  · exact latchStaging_stages ..
  · exact (State.Stages.modPkg s p _ (fun _ _ => withStaging_reg ..)).trans (latchStaging_stages ..)
theorem measure_stages (s : State) (p asid : Nat) (bs : List Byte) : s.Stages (s.modPkg p (fun x => x.measure asid bs)) p :=
  .modPkg s p _ (fun _ h => Package.measure_reg _ _ _ h)

/-- The HEAD field of a queue is one further. -/
def State.NextPacket (s t : State) (p q : Nat) : Prop :=
  (t.pkg p).reg (0x2010 + 32 * q) = putBits ((s.pkg p).reg (0x2010 + 32 * q)) 63 32 (bits ((s.pkg p).reg (0x2010 + 32 * q)) 63 32 + 1)
theorem dispatched_next {s u : State} {p q : Nat} (h : (u.pkg p).reg (0x2010 + 32 * q) = (s.pkg p).reg (0x2010 + 32 * q)) :
    s.NextPacket (u.modPkg p (fun x => x.dispatched q)) p q := by
  unfold State.NextPacket
  rw [State.pkg_modPkg_same, Package.dispatched_reg, if_pos rfl, h]

theorem startLaunch_launches (s : State) (p q : Nat) (bs rec : List Byte) (halt : Bool) : LaunchedBy s (s.startLaunch p q bs rec halt) p q bs rec halt := by
  obtain ⟨u, hu⟩ : ∃ u, u = (s.launchStaging p (gridOfRecord rec).asid).modPkg p (fun x => x.measure (gridOfRecord rec).asid rec) := ⟨_, rfl⟩
  obtain ⟨g, hg⟩ : ∃ g, g = ({ gridOfRecord rec with startHalted := halt } : Grid).ofPacket (u.pkg p) p q bs := ⟨_, rfl⟩
  have hs : s.Stages u p := by rw [hu]; exact (launchStaging_stages ..).trans (measure_stages ..)
  have ht : s.startLaunch p q bs rec halt = (u.newGrid p g).modPkg p (fun x => x.dispatched q) := by rw [hg, hu]; rfl
  obtain ⟨hp, hb, hf, hr⟩ := newGrid_effect u p (g := g) (by rw [hg]; rfl)
  have hgr : u.grids = s.grids := by rw [hs.rest]
  have hun : u.units = s.units := by rw [hs.rest]
  rw [ht]
  refine ⟨(hs.only.sameBytes.trans hb).trans (.modPkg _ _ _), dispatched_next (by rw [hp, hs.regs _ (by omega)]), ?_, u.gridKey, g, ?_, hf, ?_⟩
  · rw [State.pkg_modPkg_same]; exact Package.dispatched_held ..
  · rw [← hgr]; exact gridKey_new u
  · have hroot : ∀ i < g.rootCnt, ∃ k x, Sparse.find s.units k = none ∧ Sparse.find (u.newGrid p g).units k = some x ∧ x.grid = u.gridKey ∧ x.level = g.rootLvl
        ∧ x.index = i ∧ x.parent = 0 ∧ x.pkg = p ∧ x.st = .waiting := fun i hi => by
      obtain ⟨k, w, hn, hw, rfl⟩ := hr i hi
      exact ⟨k, _, by rw [← hun]; exact hn, hw, rfl, rfl, rfl, rfl, rfl, rfl⟩
    rw [hg] at hroot ⊢
    exact ⟨rfl, rfl, rfl, rfl, rfl, rfl, rfl, rfl, rfl, rfl, rfl, rfl, rfl, rfl, hroot⟩

/-! ### A launch packet that is read -/

theorem failLaunch_effect (s : State) (p q : Nat) (bs : List Byte) (status : Nat) :
    let t := s.failLaunch p q bs status
    s.NextPacket t p q ∧ SameBytes s t ∧ t.ctxs = s.ctxs ∧ t.units = s.units ∧ Sparse.find s.grids s.gridKey = none
      ∧ Sparse.find t.grids s.gridKey = some (({ failed := true, status := status } : Grid).ofPacket (s.pkg p) p q bs) := by
  intro t
  have ht : t = (s.addGrid (({ failed := true, status := status } : Grid).ofPacket (s.pkg p) p q bs)).modPkg p (fun x => x.dispatched q) := by
    unfold t State.failLaunch
    dsimp only
    rw [newGrid_failed s p (by rfl)]
  rw [ht]
  exact ⟨dispatched_next rfl, SameBytes.trans (addGrid_sameBytes s _) (SameBytes.modPkg _ _ _), rfl, rfl, gridKey_new s, addGrid_find ..⟩

/-- The HIT fields of some command-packet breakpoints are set. -/
def Package.cpHits (x : Package) (m : BitVec 4) : Package :=
  (List.range 4).foldl (fun x c => if m.getLsbD c then x.setFld (0x0F88 + 16 * c) 59 59 1 else x) x
theorem withHeld_reg (x : Package) (a : Sparse Held) (off : Nat) : Package.reg { x with held := a } off = x.reg off := rfl
theorem Package.cpHits_hit (x : Package) (m : BitVec 4) {c : Nat} (hc : c < 4) (hm : m.getLsbD c = true) : bits ((x.cpHits m).reg (0x0F88 + 16 * c)) 59 59 = 1 := by
  have set : ∀ (y : Package) d, m.getLsbD d = true → bits ((y.setFld (0x0F88 + 16 * d) 59 59 1).reg (0x0F88 + 16 * d)) 59 59 = 1 := fun y d _ => by
    rw [Package.reg_setFld, if_pos rfl, bits_putBits_same _ _ (by omega) (by omega)]
    rfl
  have keep : ∀ (y : Package) d, bits (y.reg (0x0F88 + 16 * c)) 59 59 = 1 →
      bits ((if m.getLsbD d then y.setFld (0x0F88 + 16 * d) 59 59 1 else y).reg (0x0F88 + 16 * c)) 59 59 = 1 := fun y d hy => by
    by_cases hd : m.getLsbD d = true
    · rw [if_pos hd]
      by_cases e : d = c
      · subst e; exact set y d hd
      · rw [Package.reg_setFld, if_neg (by omega)]; exact hy
    · rw [if_neg hd]; exact hy
  have go : ∀ (l : List Nat) (y : Package), c ∈ l →
      bits ((l.foldl (fun x c => if m.getLsbD c then x.setFld (0x0F88 + 16 * c) 59 59 1 else x) y).reg (0x0F88 + 16 * c)) 59 59 = 1 := by
    intro l
    induction l with
    | nil => exact fun _ h => absurd h (by simp)
    | cons d r ih =>
      intro y h
      rw [List.foldl_cons]
      rcases List.mem_cons.mp h with rfl | h
      · rw [if_pos hm]
        exact foldl_induct (fun y : Package => bits (y.reg (0x0F88 + 16 * c)) 59 59 = 1) _ (fun y d hy => keep y d hy) r _ (set y c hm)
      · exact ih _ h
  exact go _ x (List.mem_range.mpr hc)
theorem Package.cpHits_msi (x : Package) (m : BitVec 4) : (x.cpHits m).reg 0x0760 = x.reg 0x0760 := by
  refine foldl_keeps_mem (fun y : Package => y.reg 0x0760) _ _ (fun y j _ => ?_) x
  split
  · rw [Package.reg_setFld, if_neg (by omega)]
  · rfl
theorem holdPacket_effect (s : State) (p q : Nat) (m : BitVec 4) (halt : Bool) (bs rec : List Byte) :
    let t := s.holdPacket p q m halt bs rec
    OnlyPkg s t p ∧ s.Told t p 0x0760 ∧ Sparse.find (t.pkg p).held q = some { mask := m, halt := halt, packet := bs, record := rec }
      ∧ ∀ c < 4, m.getLsbD c = true → bits ((t.pkg p).reg (0x0F88 + 16 * c)) 59 59 = 1 := by
  intro t
  obtain ⟨f, hf⟩ : ∃ f : Package → Package, f = fun x => { x.cpHits m with held := Sparse.put (x.cpHits m).held q { mask := m, halt := halt, packet := bs, record := rec } } := ⟨_, rfl⟩
  have ht : t = (s.modPkg p f).packageEvent p := by rw [hf]; rfl
  have hr : ∀ off, (f (s.pkg p)).reg off = ((s.pkg p).cpHits m).reg off := fun off => by rw [hf]; exact withHeld_reg ..
  have hpk : t.pkg p = f (s.pkg p) := by
    rw [ht]
    unfold State.packageEvent
    rw [State.sendMsi_pkg, State.pkg_modPkg_same]
  refine ⟨by rw [ht]; exact (OnlyPkg.modPkg s p f).trans (.sendMsi _ p _), ?_, ?_, fun c hc hm => ?_⟩
  · rw [ht]
    refine (State.sendMsi_told (s.modPkg p f) p 0x0760).congr rfl ?_ rfl
    rw [State.pkg_modPkg_same, hr, Package.cpHits_msi]
  · rw [hpk, hf]
    dsimp only
    rw [Sparse.find_put, if_pos rfl]
  · rw [hpk, hr]
    exact Package.cpHits_hit _ m hc hm

/-! ### The packets of O45 -/

section
variable {s : State} {p q : Nat} {l : Loc} {b : Nat} (ho : (s.pkg p).queueOpen q = true) (hq : q < 64) (hn : s.NoSlots)
  (hh : Sparse.find (s.pkg p).held q = none) (hx : s.xlate (s.queueParty p q) ((s.pkg p).headAddr q) .read = .ok l b)
include ho hq hn hh hx

/-- A head packet in error. -/
theorem dispatch_error (he : packetError (s.rdBytes l 64) ≠ 0) (name : String) (type : Nat) (go : State → List Byte → State) :
    ∃ t, dispatch name type p q s go = .next t ∧ OnlyPkg s t p ∧ s.Told t p 0x0760
      ∧ bits ((t.pkg p).reg (0x2008 + 32 * q)) 39 31 = packetError (s.rdBytes l 64) * 2 + 1 ∧ SameRegs (s.pkg p) (t.pkg p) [0x2008 + 32 * q] := by
  have hd := dispatch_read ho hq hn hh hx name type go
  dsimp only at hd
  rw [if_pos he] at hd
  have hc := State.translate_cached hn (s.queueParty p q) ((s.pkg p).headAddr q) .read
  have hop : OnlyPkg s (s.translate (s.queueParty p q) ((s.pkg p).headAddr q) .read).1 p := State.translate_only hn _ _ _
  obtain ⟨h1, h2, h3, h4⟩ := stopQueue_effect (s.translate (s.queueParty p q) ((s.pkg p).headAddr q) .read).1 (p := p) (q := q) _ (packetError_lt (s.rdBytes l 64))
  refine ⟨_, hd, hop.trans h1, h2.congr hc.msis.symm (hc.reg p _).symm rfl, h3, fun o hno => (h4 o hno).trans (hc.reg p o)⟩

variable (he : packetError (s.rdBytes l 64) = 0) (hnext : s.nextQueue p = some q)
include he hnext
/-- A head packet of the type that dispatches. -/
theorem dispatch_goes {type : Nat} (ht : bits (word64 (s.rdBytes l 64) 0) 63 56 = type) (name : String) (go : State → List Byte → State) :
    dispatch name type p q s go = .next (go (s.translate (s.queueParty p q) ((s.pkg p).headAddr q) .read).1 (s.rdBytes l 64)) := by
  have hd := dispatch_read ho hq hn hh hx name type go
  dsimp only at hd
  rw [if_neg (by simp [he]), if_pos ⟨ht, hnext⟩] at hd
  exact hd
theorem signal_dispatches (ht : bits (word64 (s.rdBytes l 64) 0) 63 56 = 2) :
    let w := word64 (s.rdBytes l 64)
    let e := 0x4000 + 8 * bits (w 0) 43 32
    ∃ t, exec (.signalPacketDispatch p q) s = .next t ∧ (OnlyPkg s t p ∧ t.msis = s.msis) ∧ s.NextPacket t p q
      ∧ bits ((t.pkg p).reg e) 19 0 = (bits ((s.pkg p).reg e) 19 0 + bits (w 0) 19 0) % 2 ^ 20 ∧ SameRegs (s.pkg p) (t.pkg p) [e, 0x2010 + 32 * q] := by
  intro w e
  obtain ⟨u, hu⟩ : ∃ u, u = (s.translate (s.queueParty p q) ((s.pkg p).headAddr q) .read).1 := ⟨_, rfl⟩
  have hc : s.Cached u := by rw [hu]; exact State.translate_cached hn _ _ _
  have hop : OnlyPkg s u p := by rw [hu]; exact State.translate_only hn _ _ _
  have hd := dispatch_goes ho hq hn hh hx he hnext ht "SIGNAL_PACKET_DISPATCH" (fun s bs =>
    s.modPkg p (fun x => (x.addEvent (bits (word64 bs 0) 43 32) (bits (word64 bs 0) 19 0)).dispatched q))
  rw [← hu] at hd
  obtain ⟨v, hv⟩ : ∃ v, v = BitVec.ofNat 64 ((bits ((u.pkg p).reg e) 19 0 + bits (w 0) 19 0) % 2 ^ 20) := ⟨_, rfl⟩
  have hreg : ∀ o, ((u.modPkg p (fun x => (x.addEvent (bits (w 0) 43 32) (bits (w 0) 19 0)).dispatched q)).pkg p).reg o
      = (((u.pkg p).setReg e v).dispatched q).reg o := fun o => by rw [State.pkg_modPkg_same, hv]; rfl
  have hne : e ≠ 0x2010 + 32 * q := by omega
  refine ⟨_, (exec_signalPacketDispatch_eq p q s).trans hd, ⟨hop.trans (.modPkg u p _), hc.msis⟩, ?_, ?_, fun o hno => ?_⟩
  · unfold State.NextPacket
    rw [hreg, Package.dispatched_reg, if_pos rfl, Package.reg_setReg, if_neg hne.symm, hc.reg]
  · rw [hreg, Package.dispatched_reg, if_neg hne, Package.reg_setReg, if_pos rfl, hv, hc.reg]
    have := Nat.mod_lt (bits ((s.pkg p).reg e) 19 0 + bits (w 0) 19 0) (show 0 < 2 ^ 20 by decide)
    unfold bits
    rw [BitVec.toNat_ofNat, Nat.pow_zero, Nat.div_one]
    omega
  · simp only [List.mem_cons, List.not_mem_nil, or_false, not_or] at hno
    rw [hreg, Package.dispatched_reg, if_neg hno.2, Package.reg_setReg, if_neg hno.1, hc.reg]
theorem wait_dispatches (ht : bits (word64 (s.rdBytes l 64) 0) 63 56 = 3) :
    ∃ t, exec (.waitPacketDispatch p q) s = .next t ∧ (OnlyPkg s t p ∧ t.msis = s.msis) ∧ s.NextPacket t p q ∧ SameRegs (s.pkg p) (t.pkg p) [0x2010 + 32 * q] := by
  obtain ⟨u, hu⟩ : ∃ u, u = (s.translate (s.queueParty p q) ((s.pkg p).headAddr q) .read).1 := ⟨_, rfl⟩
  have hc : s.Cached u := by rw [hu]; exact State.translate_cached hn _ _ _
  have hop : OnlyPkg s u p := by rw [hu]; exact State.translate_only hn _ _ _
  have hd := dispatch_goes ho hq hn hh hx he hnext ht "WAIT_PACKET_DISPATCH" (fun s _ => s.modPkg p (fun x => x.dispatched q))
  rw [← hu] at hd
  refine ⟨_, (exec_waitPacketDispatch_eq p q s).trans hd, ⟨hop.trans (.modPkg u p _), hc.msis⟩, dispatched_next (hc.reg p _), fun o hno => ?_⟩
  rw [State.pkg_modPkg_same, Package.dispatched_reg, if_neg (by simpa using hno), hc.reg]

variable (ht : bits (word64 (s.rdBytes l 64) 0) 63 56 = 1) (hcause : Sparse.find (s.pkg p).qcause q = none) {l1 : Loc} {b1 : Nat}
  (hx1 : (s.translate (s.queueParty p q) ((s.pkg p).headAddr q) .read).1.xlate (s.queueParty p q) (bits (word64 (s.rdBytes l 64) 1) 56 0) .read = .ok l1 b1)
include ht hcause hx1
/-- What becomes of a launch packet whose record is read, in the state after both translations. -/
theorem launch_takes : ∃ u, s.Cached u ∧ exec (.launchPacketDispatch p q) s = .next (
    if s.recordFails p (s.rdBytes l1 64) then u.failLaunch p q (s.rdBytes l 64) 0x0104
    else
      let m := (s.pkg p).cpMatch q (word64 (s.rdBytes l1 64) 1)
      if m.1 ≠ 0 then u.holdPacket p q m.1 m.2 (s.rdBytes l 64) (s.rdBytes l1 64) else u.startLaunch p q (s.rdBytes l 64) (s.rdBytes l1 64) false)
    ∧ OnlyPkg s u p := by
  have hd := dispatch_goes ho hq hn hh hx he hnext ht "LAUNCH_PACKET_DISPATCH" (fun s bs => s.takeLaunch p q bs)
  obtain ⟨v, hv⟩ : ∃ v, v = (s.translate (s.queueParty p q) ((s.pkg p).headAddr q) .read).1 := ⟨_, rfl⟩
  have hc : s.Cached v := by rw [hv]; exact State.translate_cached hn _ _ _
  have hop : OnlyPkg s v p := by rw [hv]; exact State.translate_only hn _ _ _
  rw [← hv] at hd hx1
  have hy : v.queueParty p q = s.queueParty p q := by unfold State.queueParty Package.fld; rw [hc.reg]
  obtain ⟨u, hu⟩ : ∃ u, u = (v.translate (s.queueParty p q) (bits (word64 (s.rdBytes l 64) 1) 56 0) .read).1 := ⟨_, rfl⟩
  have hcu : s.Cached u := by rw [hu]; exact hc.trans (State.translate_cached (hc.quiet hn) _ _ _)
  have hopu : OnlyPkg s u p := by rw [hu]; exact hop.trans (State.translate_only (hc.quiet hn) _ _ _)
  have e : v.translate (s.queueParty p q) (bits (word64 (s.rdBytes l 64) 1) 56 0) .read = (u, .ok l1 b1) :=
    Prod.ext hu.symm ((State.translate_snd ..).trans hx1)
  refine ⟨u, hcu, (exec_launchPacketDispatch_eq p q s).trans (hd.trans ?_), hopu⟩
  have h1 : Sparse.find (v.pkg p).qcause q = none := by rw [hc.pkgs]; exact hcause
  have h2 : Sparse.find (v.pkg p).held q = none := by rw [hc.pkgs]; exact hh
  unfold State.takeLaunch
  rw [h1, h2]
  dsimp only
  rw [hy, e]
  dsimp only
  rw [State.homeRead_noSlots (hcu.quiet hn), State.rdBytes_congr hcu.sameBytes l1 64]
  dsimp only
  rw [hcu.recordFails hn, hcu.cpMatch]
theorem launch_fails (hf : s.recordFails p (s.rdBytes l1 64) = true) : ∃ t gr g, exec (.launchPacketDispatch p q) s = .next t ∧ s.NextPacket t p q
    ∧ SameBytes s t ∧ t.ctxs = s.ctxs ∧ t.units = s.units ∧ Sparse.find s.grids gr = none ∧ Sparse.find t.grids gr = some g ∧ g.failed = true
    ∧ g.status = 0x0104 ∧ g.pkg = p ∧ g.queue = q ∧ g.tag = (word64 (s.rdBytes l 64) 0).setWidth 32 ∧ g.record = bits (word64 (s.rdBytes l 64) 2) 56 0 := by
  obtain ⟨u, hc, hexec, -⟩ := launch_takes ho hq hn hh hx he hnext ht hcause hx1
  rw [if_pos hf] at hexec
  obtain ⟨h1, h2, h3, h4, h5, h6⟩ := failLaunch_effect u p q (s.rdBytes l 64) 0x0104
  refine ⟨_, u.gridKey, _, hexec, ?_, hc.sameBytes.trans h2, h3.trans hc.ctxs, h4.trans hc.units, hc.grids ▸ h5, h6, rfl, rfl, rfl, rfl, rfl, rfl⟩
  unfold State.NextPacket at *
  rw [h1, hc.reg]
theorem launch_starts (hf : s.recordFails p (s.rdBytes l1 64) = false) (hm : (s.pkg p).cpMatch q (word64 (s.rdBytes l1 64) 1) = (0, false)) :
    ∃ t, exec (.launchPacketDispatch p q) s = .next t ∧ LaunchedBy s t p q (s.rdBytes l 64) (s.rdBytes l1 64) false := by
  obtain ⟨u, hc, hexec, -⟩ := launch_takes ho hq hn hh hx he hnext ht hcause hx1
  rw [if_neg (by simp [hf]), hm] at hexec
  refine ⟨_, hexec, ?_⟩
  obtain ⟨h1, h2, h3, gr, g, h4, h5, h6⟩ := startLaunch_launches u p q (s.rdBytes l 64) (s.rdBytes l1 64) false
  rw [hc.reg] at h2
  rw [hc.grids] at h4
  rw [hc.units] at h6
  exact ⟨hc.sameBytes.trans h1, h2, h3, gr, g, h4, h5, h6⟩
theorem launch_held {m : BitVec 4} {halt : Bool} (hf : s.recordFails p (s.rdBytes l1 64) = false)
    (hm : (s.pkg p).cpMatch q (word64 (s.rdBytes l1 64) 1) = (m, halt)) (hm0 : m ≠ 0) :
    ∃ t, exec (.launchPacketDispatch p q) s = .next t ∧ SameBytes s t ∧ t.units = s.units ∧ t.grids = s.grids ∧ s.Told t p 0x0760
      ∧ Sparse.find (t.pkg p).held q = some { mask := m, halt := halt, packet := s.rdBytes l 64, record := s.rdBytes l1 64 }
      ∧ ∀ c < 4, m.getLsbD c = true → bits ((t.pkg p).reg (0x0F88 + 16 * c)) 59 59 = 1 := by
  obtain ⟨u, hc, hexec, hop⟩ := launch_takes ho hq hn hh hx he hnext ht hcause hx1
  rw [if_neg (by simp [hf]), hm] at hexec
  dsimp only at hexec
  rw [if_pos hm0] at hexec
  obtain ⟨h1, h2, h3, h4⟩ := holdPacket_effect u p q m halt (s.rdBytes l 64) (s.rdBytes l1 64)
  have ho' := hop.trans h1
  exact ⟨_, hexec, ho'.sameBytes, ho'.2.1, ho'.2.2.1, h2.congr hc.msis.symm (hc.reg p _).symm rfl, h3, h4⟩
end

/-- Settles O45: a packet is read as it stands, and each kind of it acts by the effect of its own dispatch. -/
theorem queuesDispatch : Obligations.QueuesDispatch := by
  unfold Obligations.QueuesDispatch
  constructor
  · intro s p q h ho hq hh hcause hnext
    refine ⟨_, (exec_launchPacketDispatch_eq p q s).trans (dispatch_held ho hq hh hnext _ _), ?_⟩
    have : s.takeLaunch p q h.packet = s.startLaunch p q h.packet h.record h.halt := by
      unfold State.takeLaunch
      rw [hcause, hh]
    rw [this]
    exact startLaunch_launches s p q h.packet h.record h.halt
  · rintro s p q bs l b ho hq hn hh hx rfl
    refine ⟨fun he i hi => ?_, fun he hnext => ⟨signal_dispatches ho hq hn hh hx he hnext, wait_dispatches ho hq hn hh hx he hnext, ?_⟩⟩
    · simp only [List.mem_cons, List.not_mem_nil, or_false] at hi
      rcases hi with rfl | rfl | rfl
      · rw [exec_launchPacketDispatch_eq]; exact dispatch_error ho hq hn hh hx he _ _ _
      · rw [exec_signalPacketDispatch_eq]; exact dispatch_error ho hq hn hh hx he _ _ _
      · rw [exec_waitPacketDispatch_eq]; exact dispatch_error ho hq hn hh hx he _ _ _
    · rintro ht hcause l1 b1 s1 rfl hx1 rec rfl
      exact ⟨launch_fails ho hq hn hh hx he hnext ht hcause hx1, launch_starts ho hq hn hh hx he hnext ht hcause hx1,
        fun m halt => launch_held ho hq hn hh hx he hnext ht hcause hx1⟩

end Sys2Proof.Machine
end

section
/-! `LAUNCH`: the children that it creates, and its traps (R34 to R38, R54, R290). -/

namespace Sys2Proof.Machine

/-- A sequencer's launch as its unit notes it. -/
def WUnit.noteLaunch (n : Nat) (tag : Word) (x : WUnit) : WUnit :=
  { x with launch := some { tag := tag, n := n, doneCount := 0, aborted := 0, status := 0, posted := decide (n = 0) }, created := max x.created n }

/-- Where a unit has no children and no groups, nothing is kept to be freed. -/
theorem freeKept_none {s : State} {u : Nat} (hc : s.childUnits u = []) (hg : ∀ e ∈ s.ctxs, ¬ (e.2.kind = .group ∧ e.2.unit = u)) : s.freeKept u = s := by
  have hf : s.ctxs.filter (fun e => !(decide (e.2.kind = .group) && decide (e.2.unit = u) && e.2.retired)) = s.ctxs := by
    rw [List.filter_eq_self]
    intro e he
    by_cases h1 : e.2.kind = .group
    · have h2 : e.2.unit ≠ u := fun h2 => hg e he ⟨h1, h2⟩
      simp [h2]
    · simp [h1]
  unfold State.freeKept
  rw [hc]
  dsimp only [List.foldl_nil]
  rw [hf]
  exact ite_self s
/-- The children of a launch, in the state that has noted it. -/
def State.children (s : State) (u n : Nat) (x : WUnit) (g : Grid) : State :=
  if x.level = 1 then s.newGroups u n
  else (List.range n).foldl (fun s i =>
    s.newUnit (x.level - 1) x.grid (u + 1) i (g.child x.level i x.wid) (if x.level = 5 then i else x.pkg)) s
theorem children_spawns (s : State) (u n : Nat) (x : WUnit) (g : Grid) : s.Spawns (s.children u n x g) := by
  unfold State.children
  split
  · exact newGroups_spawns ..
  · exact (foldl_newUnit s (x.level - 1) x.grid (u + 1) (fun i => g.child x.level i x.wid) (fun i => if x.level = 5 then i else x.pkg) _).1
theorem children_units (s : State) (u : Nat) {n : Nat} {x : WUnit} (g : Grid) (h : x.level ≠ 1) {i : Nat} (hi : i < n) :
    s.HasUnit (s.children u n x g) (fun k w => w = waitingUnit (x.level - 1) x.grid (u + 1) i (g.child x.level i x.wid) (if x.level = 5 then i else x.pkg) k) := by
  unfold State.children
  rw [if_neg h]
  exact (foldl_newUnit s (x.level - 1) x.grid (u + 1) (fun i => g.child x.level i x.wid) (fun i => if x.level = 5 then i else x.pkg) _).2 i (List.mem_range.mpr hi)
theorem children_groups {s : State} {u n : Nat} {x : WUnit} (g : Grid) (h : x.level = 1) (hu : Sparse.find s.units u ≠ none) {i : Nat} (hi : i < n) :
    s.HasCtx (s.children u n x g) (fun c => c = groupOf (s.unit u) (s.grid (s.unit u).grid) u i) := by
  unfold State.children
  rw [if_pos h]
  exact foldl_newGroup s u hu _ i (List.mem_range.mpr hi)
/-- What a launch does where its unit has neither children nor groups. -/
theorem doLaunch_eq {s : State} {k u : Nat} {x : WUnit} (hk : (s.ctx k).unit = u) (hx : Sparse.find s.units u = some x) (hc : s.childUnits u = [])
    (hg : ∀ e ∈ s.ctxs, ¬ (e.2.kind = .group ∧ e.2.unit = u)) (n : Nat) (tag : Word) :
    s.doLaunch k n tag = if n = 0
      then (s.modUnit u (WUnit.noteLaunch n tag)).postEv k { kind := 1, level := x.level, status := 0, tag := tag, doneCount := 0, aborted := 0 }
      else (s.modUnit u (WUnit.noteLaunch n tag)).children u n x (s.grid x.grid) := by
  have hu : s.unit u = x := by unfold State.unit; rw [hx]; rfl
  unfold State.doLaunch State.children
  dsimp only
  rw [hk, freeKept_none hc hg, hu]
  rfl

theorem mem_adjust {α : Type} {m : Sparse α} {n : Nat} {f : α → α} {e : Nat × α} (h : e ∈ Sparse.adjust m n f) : e ∈ m ∨ ∃ x ∈ m, e = (x.1, f x.2) := by
  induction m with
  | nil => exact absurd h (by simp [Sparse.adjust])
  | cons a r ih =>
    obtain ⟨k, v⟩ := a
    unfold Sparse.adjust at h
    split at h
    · rcases List.mem_cons.mp h with rfl | h
      · exact .inr ⟨_, List.mem_cons_self .., rfl⟩
      · exact .inl (List.mem_cons_of_mem _ h)
    · rcases List.mem_cons.mp h with rfl | h
      · exact .inl (List.mem_cons_self ..)
      · rcases ih h with h | ⟨y, hy, e⟩
        · exact .inl (List.mem_cons_of_mem _ h)
        · exact .inr ⟨y, List.mem_cons_of_mem _ hy, e⟩

/-! ### The issue -/

/-- The state in which a launch takes effect: its scope is released, and a slot of its queue reserved. -/
def State.launchBase (s : State) (i : Instr) (c : Ctx) (act : List Nat) (lvl : Nat) : State :=
  ((s.hinted i act).release (c.begun i act) lvl).reserveEv s.cur.ctx
theorem released_calm {s : State} (hq : s.NoSlots) (i : Instr) (c : Ctx) (act : List Nat) (lvl : Nat) :
    (s.hinted i act).Calm ((s.hinted i act).release (c.begun i act) lvl) :=
  State.release_calm (by unfold State.NoSlots; rw [hinted_pkgs]; exact hq) ..
theorem launchBase_units {s : State} (hq : s.NoSlots) (i : Instr) (c : Ctx) (act : List Nat) (lvl : Nat) : (s.launchBase i c act lvl).units = s.units := by
  show ((s.hinted i act).release (c.begun i act) lvl).units = s.units
  rw [(released_calm hq ..).units, hinted_units]

section
variable {g : Guard} {lvl x y : Nat} {s : State} {c : Ctx} {act : List Nat} (h : Issues s (.launch g lvl x y) c act)
include h

/-- A launch that may run. -/
theorem launch_runs (hs : s.isSeq c lvl = true) (hw : (c.rdG x).toNat ≤ 2 ^ (s.gridOf c).width lvl) (hf : c.evFull = false)
    (ho : s.Ordered c act lvl) (hd : s.childrenDone c = true) (hq : s.NoSlots) :
    exec (.launch g lvl x y) s = .next (((s.launchBase (.launch g lvl x y) c act lvl).doLaunch s.cur.ctx (c.rdG x).toNat (c.rdG y)).modCtx s.cur.ctx
      (s.depart (.launch g lvl x y) (s.cohort c))) := by
  refine (exec_launch_eq g lvl x y s).trans (once_ok h _ ?_)
  have hb := begun_only c (.launch g lvl x y) act
  have hrd : ∀ r, (c.begun (.launch g lvl x y) act).rdG r = c.rdG r := fun r => by rw [hb]; rfl
  have hev : (c.begun (.launch g lvl x y) act).evFull = false := by rw [hb]; exact hf
  have hcu : (c.begun (.launch g lvl x y) act).unit = c.unit := by rw [hb]
  have hcur : ((s.hinted (.launch g lvl x y) act).release (c.begun (.launch g lvl x y) act) lvl).cur = s.cur := by
    rw [(released_calm hq ..).rest]; exact State.hinted_cur ..
  have hcd : (s.launchBase (.launch g lvl x y) c act lvl).childrenDone (c.begun (.launch g lvl x y) act) = true := by
    rw [← hd]
    unfold State.childrenDone State.unit
    rw [launchBase_units hq, hcu]
  unfold State.launchBase at hcd ⊢
  rw [hrd, hrd, hinted_isSeq, hinted_gridOf, if_neg (by simp [hs]), if_neg (by omega), hev, if_neg (by decide), releasingOnce_now ho]
  dsimp only
  rw [hcur, if_pos hcd, show (((s.hinted (.launch g lvl x y) act).release (c.begun (.launch g lvl x y) act) lvl).reserveEv s.cur.ctx).cur = s.cur from hcur]
omit h in
/-- The context that launches, with its slot reserved. -/
theorem launchBase_ctx (h : Issues s (.launch g lvl x y) c act) (hq : s.NoSlots) :
    Sparse.find (s.launchBase (.launch g lvl x y) c act lvl).ctxs s.cur.ctx = some { c.begun (.launch g lvl x y) act with evResv := c.evResv + 1 }
    ∧ ∀ j, j ≠ s.cur.ctx → Sparse.find (s.launchBase (.launch g lvl x y) c act lvl).ctxs j = Sparse.find s.ctxs j := by
  have hc := (released_calm hq (.launch g lvl x y) c act lvl).ctxs
  have he : (c.begun (.launch g lvl x y) act).evResv = c.evResv := by rw [begun_only]
  unfold State.launchBase State.reserveEv
  refine ⟨?_, fun j hj => ?_⟩
  · rw [State.find_modCtx, if_pos rfl, find_ctxs_begun h hc, Option.map_some, he]
  · rw [State.find_modCtx, if_neg hj, hc]
    unfold State.hinted
    split
    · rfl
    · rw [State.find_modCtx, if_neg hj]
omit h in
theorem launchBase_rest (hq : s.NoSlots) : (s.launchBase (.launch g lvl x y) c act lvl).hbm = s.hbm ∧ (s.launchBase (.launch g lvl x y) c act lvl).host = s.host
    ∧ (s.launchBase (.launch g lvl x y) c act lvl).grids = s.grids := by
  have hr := released_calm hq (.launch g lvl x y) c act lvl
  have hh : (s.hinted (.launch g lvl x y) act).hbm = s.hbm ∧ (s.hinted (.launch g lvl x y) act).host = s.host := by
    unfold State.hinted; split <;> exact ⟨rfl, rfl⟩
  refine ⟨?_, ?_, ?_⟩
  · show ((s.hinted (.launch g lvl x y) act).release (c.begun (.launch g lvl x y) act) lvl).hbm = s.hbm
    rw [hr.rest]; exact hh.1
  · show ((s.hinted (.launch g lvl x y) act).release (c.begun (.launch g lvl x y) act) lvl).host = s.host
    rw [hr.rest]; exact hh.2
  · show ((s.hinted (.launch g lvl x y) act).release (c.begun (.launch g lvl x y) act) lvl).grids = s.grids
    rw [hr.grids]; exact hinted_grids ..
end

/-- No group of a unit appears where a launch begins. -/
theorem launchBase_groups {s : State} {i : Instr} {c : Ctx} {act : List Nat} {lvl : Nat} (hq : s.NoSlots) {u : Nat}
    (hg : ∀ e ∈ s.ctxs, ¬ (e.2.kind = .group ∧ e.2.unit = u)) : ∀ e ∈ (s.launchBase i c act lvl).ctxs, ¬ (e.2.kind = .group ∧ e.2.unit = u) := by
  have keeps : ∀ (m : Sparse Ctx) (n : Nat) (f : Ctx → Ctx), (∀ c, (f c).kind = c.kind ∧ (f c).unit = c.unit) →
      (∀ e ∈ m, ¬ (e.2.kind = .group ∧ e.2.unit = u)) → ∀ e ∈ Sparse.adjust m n f, ¬ (e.2.kind = .group ∧ e.2.unit = u) := by
    intro m n f hf hm e he
    rcases mem_adjust he with he | ⟨y, hy, rfl⟩
    · exact hm e he
    · dsimp only
      rw [(hf y.2).1, (hf y.2).2]
      exact hm y hy
  refine keeps _ _ _ (fun _ => ⟨rfl, rfl⟩) ?_
  rw [(released_calm hq i c act lvl).ctxs]
  unfold State.hinted
  split
  · exact hg
  · exact keeps _ _ _ (fun _ => ⟨rfl, rfl⟩) hg

/-- A launch notes its record, in which the unit and the launching context alone of those that stood change, and creates its children. -/
structure State.Launched (s t : State) (k u n : Nat) (tag : Word) (x : WUnit) (cb d : Ctx) : Prop where
  /-- the launching context -/
  ctx : Sparse.find t.ctxs k = some d
  /-- the other contexts -/
  others : ∀ j c, j ≠ k → Sparse.find s.ctxs j = some c → Sparse.find t.ctxs j = some c
  /-- the unit -/
  unit : Sparse.find t.units u = some (x.noteLaunch n tag)
  /-- the other units -/
  units : ∀ j y, j ≠ u → Sparse.find s.units j = some y → Sparse.find t.units j = some y
  /-- nothing else -/
  rest : t = { s with ctxs := t.ctxs, units := t.units, fresh := t.fresh }
  /-- its queue -/
  queue : d = { cb with evq := d.evq, evResv := d.evResv }
  /-- a launch of none posts its record -/
  none : n = 0 → d.evq = cb.evq ++ [{ kind := 1, level := x.level, status := 0, tag := tag, doneCount := 0, aborted := 0 }] ∧ d.evResv = cb.evResv - 1
  /-- another keeps its slot reserved -/
  some : n ≠ 0 → d = cb
  /-- children above L1 -/
  below : x.level ≠ 1 → ∀ i < n, s.HasUnit t (fun k w => w = waitingUnit (x.level - 1) x.grid (u + 1) i ((s.grid x.grid).child x.level i x.wid)
    (if x.level = 5 then i else x.pkg) k)
  /-- lane groups -/
  groups : x.level = 1 → ∀ i < n, s.HasCtx t (fun c => c = groupOf x (s.grid x.grid) u i)
theorem groupOf_note (x : WUnit) (n : Nat) (tag : Word) (g : Grid) (u i : Nat) : groupOf (x.noteLaunch n tag) g u i = groupOf x g u i := rfl
theorem doLaunch_launched {s : State} {k u : Nat} {x : WUnit} {cb : Ctx} (hk : Sparse.find s.ctxs k = some cb) (hcu : cb.unit = u) (hce : cb.exiting = false)
    (hx : Sparse.find s.units u = some x) (hc : s.childUnits u = []) (hg : ∀ e ∈ s.ctxs, ¬ (e.2.kind = .group ∧ e.2.unit = u)) (n : Nat) (tag : Word) :
    ∃ d, s.Launched (s.doLaunch k n tag) k u n tag x cb d := by
  have hku : (s.ctx k).unit = u := by rw [State.ctx_of_find _ _ _ hk]; exact hcu
  rw [doLaunch_eq hku hx hc hg]
  have hm : ∀ j, Sparse.find (s.modUnit u (WUnit.noteLaunch n tag)).units j = if j = u then some (x.noteLaunch n tag) else Sparse.find s.units j := fun j => by
    rw [State.find_modUnit, hx]; rfl
  by_cases h0 : n = 0
  · rw [if_pos h0]
    have hp : (s.modUnit u (WUnit.noteLaunch n tag)).postEv k { kind := 1, level := x.level, status := 0, tag := tag, doneCount := 0, aborted := 0 }
        = (s.modUnit u (WUnit.noteLaunch n tag)).modCtx k (fun c => { c with evResv := c.evResv - 1, evq := c.evq ++ [{ kind := 1, level := x.level, status := 0, tag := tag, doneCount := 0, aborted := 0 }] }) := by
      unfold State.postEv
      rw [show Sparse.find (s.modUnit u (WUnit.noteLaunch n tag)).ctxs k = some cb from hk]
      dsimp only
      rw [hce]
      rfl
    rw [hp]
    refine ⟨{ cb with evResv := cb.evResv - 1, evq := cb.evq ++ [{ kind := 1, level := x.level, status := 0, tag := tag, doneCount := 0, aborted := 0 }] },
      ?_, fun j c hj hf => ?_, ?_, fun j y hj hf => ?_, rfl, rfl, fun _ => ⟨rfl, rfl⟩, fun h => absurd h0 h, fun _ i hi => absurd hi (by omega), fun _ i hi => absurd hi (by omega)⟩
    · rw [State.find_modCtx, if_pos rfl, show Sparse.find (s.modUnit u (WUnit.noteLaunch n tag)).ctxs k = some cb from hk]; rfl
    · rw [State.find_modCtx, if_neg hj]; exact hf
    · exact (hm u).trans (if_pos rfl)
    · exact ((hm j).trans (if_neg hj)).trans hf
  · rw [if_neg h0]
    have hs := children_spawns (s.modUnit u (WUnit.noteLaunch n tag)) u n x (s.grid x.grid)
    refine ⟨cb, hs.ctxs _ _ hk, fun j c _ hf => hs.ctxs _ _ hf, hs.units _ _ ((hm u).trans (if_pos rfl)), fun j y hj hf => hs.units _ _ (((hm j).trans (if_neg hj)).trans hf),
      hs.rest, rfl, fun h => absurd h h0, fun _ => rfl, fun hl i hi => ?_, fun hl i hi => ?_⟩
    · obtain ⟨k', w, hn, hw, e⟩ := children_units (s.modUnit u (WUnit.noteLaunch n tag)) u (s.grid x.grid) hl hi
      rw [hm] at hn
      split at hn
      · cases hn
      · exact ⟨k', w, hn, hw, e⟩
    · obtain ⟨k', w, hn, hw, e⟩ := children_groups (s := s.modUnit u (WUnit.noteLaunch n tag)) (s.grid x.grid) hl (by rw [hm, if_pos rfl]; simp) hi
      have hu : (s.modUnit u (WUnit.noteLaunch n tag)).unit u = x.noteLaunch n tag := by unfold State.unit; rw [hm, if_pos rfl]; rfl
      rw [hu, groupOf_note] at e
      exact ⟨k', w, hn, hw, e⟩

/-- The creation of children, one part of O24. -/
theorem launchCreates : Claims.LaunchCreates := by
  intro g lvl x y s c act u h hk hu hl n gr hw hf hex ho hd hch hgr hq _ _
  obtain ⟨i, hi⟩ : ∃ i, i = Instr.launch g lvl x y := ⟨_, rfl⟩
  have hul : s.unit c.unit = u := by unfold State.unit; rw [hu]; rfl
  have hs : s.isSeq c lvl = true := by
    unfold State.isSeq State.ctxLevel
    rw [if_pos hk, hul]
    simp [hk, hl]
  have hrun := launch_runs h hs hw hf ho hd hq
  obtain ⟨hb1, hb2⟩ := launchBase_ctx h hq
  obtain ⟨hhbm, hhost, hgrids⟩ := launchBase_rest (g := g) (lvl := lvl) (x := x) (y := y) (c := c) (act := act) hq
  have hbu := launchBase_units hq (.launch g lvl x y) c act lvl
  obtain ⟨B, hB⟩ : ∃ B, B = s.launchBase (.launch g lvl x y) c act lvl := ⟨_, rfl⟩
  rw [← hB] at hrun hb1 hb2 hhbm hhost hgrids hbu
  have hbegun := begun_only c (.launch g lvl x y) act
  obtain ⟨b, hbb⟩ : ∃ b, b = c.begun (.launch g lvl x y) act := ⟨_, rfl⟩
  rw [← hbb] at hb1 hbegun
  have hgB : ∀ e ∈ B.ctxs, ¬ (e.2.kind = .group ∧ e.2.unit = c.unit) := by
    rw [hB]
    exact launchBase_groups hq hgr
  have hgrid : ∀ k, B.grid k = s.grid k := fun k => by unfold State.grid; rw [hgrids]
  obtain ⟨d, hL⟩ := doLaunch_launched hb1 (u := c.unit) (by rw [hbegun]) (by rw [hbegun]; exact hex) (hbu ▸ hu) (by unfold State.childUnits; rw [hbu]; exact hch) hgB n (c.rdG y)
  have hd1 : d = { b with evq := d.evq, evResv := d.evResv } := hL.queue
  obtain ⟨t, ht⟩ : ∃ t, t = B.doLaunch s.cur.ctx n (c.rdG y) := ⟨_, rfl⟩
  rw [← ht] at hL
  have hctx : (t.modCtx s.cur.ctx (s.depart (.launch g lvl x y) (s.cohort c))).ctx s.cur.ctx = s.depart (.launch g lvl x y) (s.cohort c) d :=
    State.ctx_modCtx _ _ _ _ hL.ctx
  have hdep := depart_only s (.launch g lvl x y) (s.cohort c) d
  have hlane : ∀ l, d.lane l = c.lane l := fun l => by rw [hd1, hbegun]; rfl
  refine ⟨_, _, hrun.trans (by rw [← ht]), hctx, fun l => ?_, ?_, ?_, ?_, ?_, ?_, ?_, fun j hj hn => ?_, fun j hj hn => ?_, ?_, ?_, fun h1 i hi => ?_, fun h1 i hi => ?_⟩
  · rw [depart_lane _ _ _ (cohort_nodup s c), hlane]; rfl
  · rw [hdep, hd1, hbegun]
  · rw [hdep, hd1, hbegun]
  · rw [hdep, hd1, hbegun]
  · show t.hbm = s.hbm
    rw [hL.rest]; exact hhbm
  · show t.host = s.host
    rw [hL.rest]; exact hhost
  · show t.grids = s.grids
    rw [hL.rest]; exact hgrids
  · obtain ⟨e, he⟩ := Option.ne_none_iff_exists'.mp hn
    rw [State.ctx_modCtx_ne _ _ _ _ hj]
    exact State.ctx_congr (by rw [hL.others j e hj ((hb2 j hj).trans he), he])
  · obtain ⟨e, he⟩ := Option.ne_none_iff_exists'.mp hn
    show t.unit j = s.unit j
    unfold State.unit
    rw [hL.units j e hj (hbu ▸ he), he]
  · show (t.unit c.unit).launch = _
    unfold State.unit
    rw [hL.unit]
    rfl
  · rw [hdep]
    split
    · next h0 =>
      obtain ⟨e1, e2⟩ := hL.none h0
      dsimp only
      rw [e1, e2, hl, hbegun]
      exact ⟨rfl, rfl⟩
    · next h0 =>
      rw [hL.some h0, hbegun]
      exact ⟨rfl, rfl⟩
  · obtain ⟨k, w, hn, hw, rfl⟩ := hL.below (by rw [hl]; exact h1) i hi
    refine ⟨k, _, by rw [← hbu]; exact hn, hw, by rw [← hl]; rfl, rfl, rfl, rfl, rfl, ?_, ?_⟩
    · rw [← hl]; rfl
    · rw [← hl, hgrid]; rfl
  · obtain ⟨k, w, hn, hw, rfl⟩ := hL.groups (by rw [hl]; exact h1) i hi
    have hne : k ≠ s.cur.ctx := by rintro rfl; rw [hb1] at hn; cases hn
    refine ⟨k, groupOf u (B.grid u.grid) c.unit i, by rw [← hb2 k hne]; exact hn, ?_, rfl, rfl, rfl, rfl, rfl, ?_, ?_, groupOf_zeroed _ _ _ _, ?_, fun l hl => ?_⟩
    · rw [State.find_modCtx, if_neg hne]; exact hw
    · rw [hgrid]; rfl
    · rw [hgrid]; rfl
    · rw [hgrid]; rfl
    · rw [hgrid]; exact entryLanes_lane rfl hl

/-- The traps of a launch, one part of O24. -/
theorem launchTraps : Claims.LaunchTraps := by
  intro g lvl x y s c act h hk
  have hb := begun_only c (.launch g lvl x y) act
  have hrd : ∀ r, (c.begun (.launch g lvl x y) act).rdG r = c.rdG r := fun r => by rw [hb]; rfl
  have hs : s.isSeq c lvl = true ↔ c.kind = .seq ∧ (s.unit c.unit).level = lvl := by
    unfold State.isSeq State.ctxLevel
    by_cases h1 : c.kind = .seq <;> simp [h1]
  refine ⟨fun hn => (exec_launch_eq g lvl x y s).trans (once_trap h hk _ ?_), fun h1 h2 hw => (exec_launch_eq g lvl x y s).trans (once_trap h hk _ ?_)⟩
  · dsimp only
    rw [hinted_isSeq, if_pos (by rw [hs]; exact hn)]
  · dsimp only
    rw [hinted_isSeq, hinted_gridOf, hrd, if_neg (by rw [hs]; exact not_not_intro ⟨h1, h2⟩), if_pos hw]

/-- Settles O24. -/
theorem launches : Obligations.Launches := ⟨launchCreates, launchTraps⟩

end Sys2Proof.Machine
end

section
/-! Placement of units and groups, and how units and grids end (R41, R45 to R54, R286 to R289, R297). -/

namespace Sys2Proof.Machine

/-! ### A unit is placed -/

/-- A unit at its site. -/
def WUnit.atPlace (pl : Place) (now : Nat) (x : WUnit) : WUnit :=
  { x with st := .running, site := pl.1, split := pl.2.1, site2 := pl.2.2, placedAt := now }
/-- The sequencer of a unit that has just been placed. -/
def seqOf (x : WUnit) (g : Grid) (u : Nat) (site : Site) (now : Nat) : Ctx :=
  { kind := .seq, pkg := x.pkg, site := site, grid := x.grid, unit := u, asid := g.asid, placed := true
    wid := x.wid, lanes := entryLanes 1 g.entry, age := now, halted := g.startHalted }
theorem seqOf_zeroed (x : WUnit) (g : Grid) (u : Nat) (site : Site) (now : Nat) : (seqOf x g u site now).Zeroed := by
  refine ⟨fun _ _ => rfl, fun _ => rfl, fun _ => rfl, rfl, fun l k => ?_, fun _ => rfl, fun _ => rfl, fun _ _ _ => rfl, fun _ _ => rfl,
    fun _ => ⟨rfl, rfl⟩, fun _ => ⟨rfl, rfl⟩, rfl, rfl, rfl, rfl, rfl⟩
  have hl : ((seqOf x g u site now).lane l).pred = 0 := by
    unfold Ctx.lane seqOf entryLanes
    dsimp only
    rw [find_map_same]
    split <;> rfl
  unfold Ctx.pred
  rw [hl]
  simp
/-- A unit is placed without a sequencer, or with one. -/
theorem install_eq (s : State) (u : Nat) (pl : Place) : s.install u pl =
    if 2 ≤ (s.unit u).level ∨ (s.grid (s.unit u).grid).seqL1 = true then
      (((s.modUnit u (WUnit.atPlace pl s.cycle)).putCtx (seqOf (s.unit u) (s.grid (s.unit u).grid) u pl.1 s.cycle)).modUnit u
        (fun x => { x with seq := s.newKey + 1 })).acquire (seqOf (s.unit u) (s.grid (s.unit u).grid) u pl.1 s.cycle) (s.unit u).birthScope
    else s.modUnit u (WUnit.atPlace pl s.cycle) := rfl

/-- The placement of a unit, one part of O49. -/
theorem unitPlaced {s : State} {u : Nat} {x : WUnit} {pl : Place} (hx : Sparse.find s.units u = some x) (hp : s.placeable u = some pl)
    (ho : ∀ q, x.parentOf = some q → s.owed q x.index = false) :
    ∃ t y, exec (.unitPlacement (.unit u)) s = .next t ∧ Sparse.find t.units u = some y ∧ SameBytes s t ∧ t.grids = s.grids
        ∧ y = { x with st := .running, site := pl.1, split := pl.2.1, site2 := pl.2.2, placedAt := s.cycle, seq := y.seq } ∧ (∀ v, v ≠ u → t.unit v = s.unit v)
        ∧ (let g := s.grid x.grid
           (x.level = 1 → g.seqL1 = false → t.ctxs = s.ctxs ∧ y.seq = x.seq)
           ∧ (2 ≤ x.level ∨ g.seqL1 = true → ∃ k c, y.seq = k + 1 ∧ Sparse.find s.ctxs k = none ∧ Sparse.find t.ctxs k = some c
              ∧ (∀ j, j ≠ k → t.ctx j = s.ctx j) ∧ c.kind = .seq ∧ c.unit = u ∧ c.grid = x.grid ∧ c.pkg = x.pkg ∧ c.site = pl.1 ∧ c.asid = g.asid
              ∧ c.wid = x.wid ∧ c.placed = true ∧ c.halted = g.startHalted ∧ c.Zeroed ∧ c.lane 0 = { pc := g.entry } ∧ c.evq = [] ∧ c.evResv = 0)) := by
  have hu : s.unit u = x := by unfold State.unit; rw [hx]; rfl
  have hw : x.parentOf.any (fun q => s.owed q x.index) = false := by
    cases hq : x.parentOf with
    | none => rfl
    | some q => exact ho q hq
  have hexec : exec (.unitPlacement (.unit u)) s = .next (s.install u pl) := by
    rw [exec_unitPlacement_eq]
    unfold execUnitPlacement
    dsimp only
    rw [hu, hp, hw]
  have hb1 : SameBytes s (s.modUnit u (WUnit.atPlace pl s.cycle)) := SameBytes.modUnit _ _ _ (fun _ => rfl)
  have hi := install_eq s u pl
  rw [hu] at hi
  by_cases hc : 2 ≤ x.level ∨ (s.grid x.grid).seqL1 = true
  · rw [if_pos hc] at hi
    obtain ⟨c, hcq⟩ : ∃ c, c = seqOf x (s.grid x.grid) u pl.1 s.cycle := ⟨_, rfl⟩
    rw [← hcq] at hi
    obtain ⟨hs, hn, hf⟩ := putCtx_spawns (s.modUnit u (WUnit.atPlace pl s.cycle)) c
    have hkey : (s.modUnit u (WUnit.atPlace pl s.cycle)).newKey = s.newKey := rfl
    rw [hkey] at hn hf
    obtain ⟨v, hv⟩ : ∃ v, v = ((s.modUnit u (WUnit.atPlace pl s.cycle)).putCtx c).modUnit u (fun x => { x with seq := s.newKey + 1 }) := ⟨_, rfl⟩
    rw [← hv] at hi
    have hbv : SameBytes s v := by rw [hv]; exact (hb1.trans hs.sameBytes).trans (SameBytes.modUnit _ _ _ (fun _ => rfl))
    have hvu : ∀ j, Sparse.find v.units j = if j = u then some { x.atPlace pl s.cycle with seq := s.newKey + 1 } else Sparse.find s.units j := fun j => by
      rw [hv, State.find_modUnit]
      show (if j = u then Option.map _ (Sparse.find (s.modUnit u (WUnit.atPlace pl s.cycle)).units u) else Sparse.find (s.modUnit u (WUnit.atPlace pl s.cycle)).units j) = _
      rw [State.find_modUnit, State.find_modUnit, if_pos rfl, hx]
      by_cases hj : j = u
      · rw [if_pos hj, if_pos hj]; rfl
      · rw [if_neg hj, if_neg hj, if_neg hj]
    have ha := State.acquire_only v c x.birthScope
    have hau : (v.acquire c x.birthScope).units = v.units := by rw [ha]
    have hac : (v.acquire c x.birthScope).ctxs = v.ctxs := by rw [ha]
    have hvc : v.ctxs = Sparse.put s.ctxs s.newKey c := by rw [hv]; rfl
    refine ⟨_, { x.atPlace pl s.cycle with seq := s.newKey + 1 }, hexec, ?_, ?_, ?_, rfl, fun j hj => ?_, fun h1 h2 => ?_, fun _ => ⟨s.newKey, c, rfl, hn, ?_, fun j hj => ?_, ?_⟩⟩
    · rw [hi, hau, hvu, if_pos rfl]
    · rw [hi]; exact SameBytes.trans hbv (State.acquire_sameBytes _ _ _)
    · rw [hi, ha, hv]; rfl
    · unfold State.unit
      rw [hi, hau, hvu, if_neg hj]
    · exact absurd hc (by simp [h1, h2])
    · rw [hi, hac, hvc, Sparse.find_put, if_pos rfl]
    · refine State.ctx_congr ?_
      rw [hi, hac, hvc, Sparse.find_put, if_neg hj]
    · rw [hcq]
      exact ⟨rfl, rfl, rfl, rfl, rfl, rfl, rfl, rfl, rfl, seqOf_zeroed _ _ _ _ _, entryLanes_lane rfl (by omega), rfl, rfl⟩
  · rw [if_neg hc] at hi
    refine ⟨_, x.atPlace pl s.cycle, hexec, ?_, ?_, ?_, rfl, fun j hj => ?_, fun _ _ => ⟨?_, rfl⟩, fun h => absurd h hc⟩
    · rw [hi, State.find_modUnit, if_pos rfl, hx]; rfl
    · rw [hi]; exact hb1
    · rw [hi]; rfl
    · rw [hi]; exact State.unit_modUnit_ne _ _ _ _ hj
    · rw [hi]; rfl

/-! ### A group is placed -/

theorem lowestFree_some {l : List Nat} {n i : Nat} (h : lowestFree l n = some i) : i < n ∧ i ∉ l ∧ ∀ m < i, m ∈ l := by
  have h1 := List.find?_some h
  have h2 := List.mem_range.mp (List.mem_of_find?_eq_some h)
  refine ⟨h2, by simpa using h1, fun m hm => ?_⟩
  obtain ⟨-, a, b, hab, ha⟩ := List.find?_eq_some_iff_append.mp h
  have hma : m ∈ a := by
    have hlen : a.length = i := by
      have hlt : a.length < (List.range n).length := by rw [hab]; simp
      have e : (List.range n)[a.length] = i := by simp [hab]
      rw [List.getElem_range] at e
      exact e
    have hlt : m < (List.range n).length := by simp; omega
    have e : (List.range n)[m] = m := List.getElem_range ..
    rw [← e]
    have : (List.range n)[m] = a[m]'(by omega) := by
      simp only [hab]
      exact List.getElem_append_left ..
    rw [this]
    exact List.getElem_mem ..
  simpa using ha m hma
theorem lowestFree_none {l : List Nat} {n : Nat} (h : lowestFree l n = none) : ∀ m < n, m ∈ l := fun m hm => by
  have := List.find?_eq_none.mp h m (List.mem_range.mpr hm)
  simpa using this
/-- Fewer numbers than n leave one below n free. -/
theorem lowestFree_exists {l : List Nat} {n : Nat} (h : l.length < n) : ∃ i, lowestFree l n = some i := by
  cases hf : lowestFree l n with
  | some i => exact ⟨i, rfl⟩
  | none =>
    have hsub : List.range n ⊆ l := fun m hm => lowestFree_none hf m (List.mem_range.mp hm)
    have := (List.nodup_range.subperm hsub).length_le
    rw [List.length_range] at this
    omega

/-- A group that has taken its place. -/
def Ctx.seated (c : Ctx) (site : Site) (now idx : Nat) (pos : Option Nat) : Ctx :=
  { c with placed := true, site := site, age := now, entered := now, resIdx := idx, pos := pos, rq := c.rq.map (fun e => e.postedAt now) }
/-- The placement of a group, one part of O49. -/
theorem groupPlaced {s : State} {k : Nat} {c : Ctx} (hk : Sparse.find s.ctxs k = some c) (hp : s.groupPlaceable k = true)
    (ho : (s.gridOf c).seqL1 = true → s.owed c.unit c.index = false) :
      let site := (s.unit c.unit).site
      let here := s.resident c.pkg site
      ∃ t c', exec (.unitPlacement (.group k)) s = .next t ∧ t.ctx k = c' ∧ SameBytes s t ∧ t.units = s.units ∧ t.grids = s.grids
        ∧ (∀ j, j ≠ k → t.ctx j = s.ctx j)
        ∧ c' = { c with placed := true, site := site, age := s.cycle, entered := s.cycle, resIdx := c'.resIdx, pos := c'.pos,
                         rq := c.rq.map (fun e => e.postedAt s.cycle) }
        ∧ c'.resIdx < 32 ∧ (∀ e ∈ here, e.2.resIdx ≠ c'.resIdx) ∧ (∀ n < c'.resIdx, ∃ e ∈ here, e.2.resIdx = n)
        ∧ (∀ n, c'.pos = some n → n < 8 ∧ (∀ e ∈ here, e.2.pos ≠ some n) ∧ ∀ m < n, ∃ e ∈ here, e.2.pos = some m)
        ∧ (c'.pos = none → ∀ m < 8, ∃ e ∈ here, e.2.pos = some m) := by
  intro site here
  have hc : s.ctx k = c := State.ctx_of_find _ _ _ hk
  have hlen : here.length < 32 := by
    unfold State.groupPlaceable at hp
    rw [hk] at hp
    simp only [Bool.and_eq_true, decide_eq_true_eq] at hp
    exact hp.1.1.1.2
  obtain ⟨i, hi⟩ := lowestFree_exists (l := here.map (fun x => x.2.resIdx)) (n := 32) (by simpa using hlen)
  obtain ⟨hi1, hi2, hi3⟩ := lowestFree_some hi
  obtain ⟨d, hd⟩ : ∃ d, d = c.seated site s.cycle i (lowestFree (here.filterMap (fun x => x.2.pos)) 8) := ⟨_, rfl⟩
  have hseat : ∀ j, Sparse.find (s.seat k).ctxs j = if j = k then some d else Sparse.find s.ctxs j := fun j => by
    unfold State.seat
    dsimp only
    rw [State.find_modCtx, hk, hc]
    split
    · rw [Option.map_some, hd]
      show some _ = some _
      rw [show lowestFree ((s.resident c.pkg (s.unit c.unit).site).map (fun x => x.2.resIdx)) 32 = some i from hi]
      rfl
    · rfl
  have hexec : exec (.unitPlacement (.group k)) s = .next ((s.seat k).acquire ((s.seat k).ctx k) (if (s.gridOf c).seqL1 = true then 1 else (s.unit c.unit).birthScope)) := by
    rw [exec_unitPlacement_eq]
    unfold execUnitPlacement
    dsimp only
    rw [hc, if_neg]
    rintro (h | ⟨h1, h2⟩)
    · exact h hp
    · rw [ho h1] at h2; exact absurd h2 (by decide)
  have ha := State.acquire_only (s.seat k) ((s.seat k).ctx k) (if (s.gridOf c).seqL1 = true then 1 else (s.unit c.unit).birthScope)
  have hpos : ∀ n, n ∈ here.filterMap (fun x => x.2.pos) ↔ ∃ e ∈ here, e.2.pos = some n := fun n => List.mem_filterMap
  refine ⟨_, d, hexec, ?_, ?_, ?_, ?_, fun j hj => ?_, ?_, ?_, ?_, ?_, fun n hn => ?_, fun hn m hm => ?_⟩
  · refine State.ctx_of_find _ _ _ ?_
    rw [ha, hseat, if_pos rfl]
  · exact SameBytes.trans (SameBytes.modCtx _ _ _) (State.acquire_sameBytes _ _ _)
  · rw [ha]; rfl
  · rw [ha]; rfl
  · refine State.ctx_congr ?_
    rw [ha, hseat, if_neg hj]
  · rw [hd]; rfl
  · rw [hd]; exact hi1
  · rw [hd]
    intro e he h
    exact hi2 (List.mem_map.mpr ⟨e, he, h⟩)
  · rw [hd]
    intro n hn
    obtain ⟨e, he, h⟩ := List.mem_map.mp (hi3 n hn)
    exact ⟨e, he, h⟩
  · rw [hd] at hn
    obtain ⟨h1, h2, h3⟩ := lowestFree_some hn
    exact ⟨h1, fun e he h => h2 ((hpos n).mpr ⟨e, he, h⟩), fun m hm => (hpos m).mp (h3 m hm)⟩
  · rw [hd] at hn
    exact (hpos m).mp (lowestFree_none hn m hm)

/-! ### A unit ends -/

theorem find_filter_key {α : Type} (m : Sparse α) (f : Nat → Bool) (k : Nat) :
    Sparse.find (m.filter (fun e => f e.1)) k = if f k then Sparse.find m k else none := by
  induction m with
  | nil => simp [Sparse.find]
  | cons e r ih =>
    obtain ⟨n, v⟩ := e
    by_cases hn : f n
    · rw [List.filter_cons_of_pos (by simpa using hn)]
      simp only [Sparse.find]
      by_cases hk : k = n
      · subst hk; simp [hn]
      · simp [hk, ih]
    · rw [List.filter_cons_of_neg (by simpa using hn)]
      simp only [Sparse.find]
      by_cases hk : k = n
      · subst hk; simp [ih, hn]
      · simp [hk, ih]
theorem find_filter_keep {α : Type} (m : Sparse α) (f : Nat × α → Bool) {k : Nat} {v : α} (h : Sparse.find m k = some v) (hf : f (k, v) = true) :
    Sparse.find (m.filter f) k = some v := by
  induction m with
  | nil => simp [Sparse.find] at h
  | cons e r ih =>
    obtain ⟨n, w⟩ := e
    simp only [Sparse.find] at h
    by_cases hk : k = n
    · subst hk
      simp only [if_true, Option.some.injEq] at h
      subst h
      rw [List.filter_cons_of_pos hf]
      simp [Sparse.find]
    · rw [if_neg hk] at h
      by_cases hn : f (n, w)
      · rw [List.filter_cons_of_pos hn]
        simp only [Sparse.find, if_neg hk]
        exact ih h
      · rw [List.filter_cons_of_neg hn]
        exact ih h
/-- Fewer units have fewer below them. -/
theorem unitsUnder_sublist {s t : State} (h : t.units.Sublist s.units) (d u : Nat) : t.unitsUnder d u ⊆ s.unitsUnder d u := by
  induction d generalizing u with
  | zero => exact fun _ hx => absurd hx (by simp [State.unitsUnder])
  | succ n ih =>
    intro v hv
    unfold State.unitsUnder at hv ⊢
    rcases List.mem_cons.mp hv with rfl | hv
    · exact List.mem_cons_self ..
    · obtain ⟨w, hw, hvw⟩ := List.mem_flatMap.mp hv
      refine List.mem_cons_of_mem _ (List.mem_flatMap.mpr ⟨w, ?_, ih w hvw⟩)
      unfold State.childUnits at hw ⊢
      exact ((h.filter _).map _).subset hw

/-- A state from which some units and what hangs below them have gone. -/
structure State.Sheds (s t : State) (us : List Nat) : Prop where
  /-- nothing but units, contexts and slots -/
  rest : t = { s with units := t.units, ctxs := t.ctxs, pkgs := t.pkgs }
  /-- units -/
  sub : t.units.Sublist s.units
  /-- units that are not below -/
  units : ∀ k, (∀ v ∈ us, k ∉ s.unitsUnder 6 v) → Sparse.find t.units k = Sparse.find s.units k
  /-- contexts that are not below -/
  ctxs : ∀ k c, Sparse.find s.ctxs k = some c → (∀ v ∈ us, c.unit ∉ s.unitsUnder 6 v) → Sparse.find t.ctxs k = some c

theorem dropUnit_sheds (s : State) (u : Nat) : s.Sheds (s.dropUnit u) [u] := by
  refine ⟨rfl, List.filter_sublist, fun k hk => ?_, fun k c hc hk => ?_⟩
  · unfold State.dropUnit
    dsimp only
    rw [find_filter_key s.units (fun n => !(s.unitsUnder 6 u).contains n), if_pos]
    simpa using hk u (by simp)
  · unfold State.dropUnit
    refine find_filter_keep _ _ hc ?_
    have := hk u (by simp)
    simp [this]
theorem foldl_dropUnit (s : State) (us : List Nat) : s.Sheds (us.foldl (fun s y => s.dropUnit y) s) us := by
  induction us generalizing s with
  | nil => exact ⟨rfl, List.Sublist.refl _, fun _ _ => rfl, fun _ _ h _ => h⟩
  | cons u r ih =>
    have h1 := dropUnit_sheds s u
    have h2 := ih (s.dropUnit u)
    have hless : ∀ v, (s.dropUnit u).unitsUnder 6 v ⊆ s.unitsUnder 6 v := unitsUnder_sublist h1.sub 6
    rw [List.foldl_cons]
    refine ⟨by rw [h2.rest, h1.rest], h2.sub.trans h1.sub, fun k hk => ?_, fun k c hc hk => ?_⟩
    · rw [h2.units k (fun v hv hm => hk v (List.mem_cons_of_mem _ hv) (hless v hm)),
        h1.units k (fun v hv => by rw [List.mem_singleton.mp hv]; exact hk u (List.mem_cons_self ..))]
    · exact h2.ctxs k c (h1.ctxs k c hc (fun v hv => by rw [List.mem_singleton.mp hv]; exact hk u (List.mem_cons_self ..)))
        (fun v hv hm => hk v (List.mem_cons_of_mem _ hv) (hless v hm))

/-- The state in which a unit that is complete ends: its parties have released. -/
def State.endBase (s : State) (u : Nat) : State :=
  let t := (s.ctxsUnder u).foldl (fun t k => t.release (t.ctx k) (s.unit u).endScope) s
  if 4 ≤ (s.unit u).endScope then t.releaseWide (s.unit u).pkg (t.grid (s.unit u).grid).asid (s.unitDies u) else t
theorem releaseWide_noSlots {s : State} (h : s.NoSlots) (p asid : Nat) (ds : List Nat) : s.releaseWide p asid ds = s := by
  unfold State.releaseWide
  rw [State.mergeShadows_noSlots h, State.drainEarly_noSlots h, State.thaw_noSlots h]
theorem endBase_calm {s : State} (h : s.NoSlots) (u : Nat) : s.Calm (s.endBase u) := by
  have h1 : s.Calm ((s.ctxsUnder u).foldl (fun t k => t.release (t.ctx k) (s.unit u).endScope) s) :=
    foldl_induct (fun t => s.Calm t) _ (fun t k ht => ht.trans (State.release_calm (ht.quiet h) _ _)) _ s (.refl s)
  unfold State.endBase
  dsimp only
  split
  · rw [releaseWide_noSlots (h1.quiet h)]; exact h1
  · exact h1
theorem exec_unitComplete {s : State} {u : Nat} {x : WUnit} (hx : Sparse.find s.units u = some x) (hd : s.unitDone u = true) (hm : s.mayEnd u = true) :
    exec (.unitComplete u) s = .next (match x.parentOf with
      | none => ((s.endBase u).dropUnit u).modGrid x.grid (fun g => { g with rootsDone := g.rootsDone + 1, status := if g.status = 0 then 0 else g.status })
      | some q =>
        let t := ((s.endBase u).childUnits u).foldl (fun s y => s.dropUnit y) (s.endBase u)
        (State.modUnit { t with ctxs := t.ctxs.filter (fun e => decide (e.2.kind = CtxKind.handler) || decide (e.2.unit ≠ u)) } u
          (fun x => { x with st := .kept, seq := 0, cvs := [] })).childDone q 0) := by
  have hu : s.unit u = x := by unfold State.unit; rw [hx]; rfl
  rw [exec_unitComplete_eq]
  unfold execUnitComplete
  rw [if_pos ⟨by rw [hx]; rfl, hd, hm⟩]
  unfold State.endUnit State.endBase
  dsimp only
  rw [hu, if_pos rfl]
  simp only [true_and, if_true] <;> cases x.parentOf <;> rfl

/-- The end of a root unit, one part of O49. -/
theorem rootCompleted {s : State} {u : Nat} {x : WUnit} (hx : Sparse.find s.units u = some x) (hd : s.unitDone u = true) (hm : s.mayEnd u = true)
    (hq : s.NoSlots) (hp : x.parent = 0) : ∃ t, exec (.unitComplete u) s = .next t ∧ t.hbm = s.hbm ∧ t.host = s.host ∧ Sparse.find t.units u = none
        ∧ (t.grid x.grid) = if Sparse.find s.grids x.grid = none then s.grid x.grid else { s.grid x.grid with rootsDone := (s.grid x.grid).rootsDone + 1 } := by
  have he := exec_unitComplete hx hd hm
  rw [show x.parentOf = none by unfold WUnit.parentOf; rw [if_pos hp]] at he
  have hc := endBase_calm hq u
  refine ⟨_, he, ?_, ?_, ?_, ?_⟩
  · show (s.endBase u).hbm = _
    rw [hc.rest]
  · show (s.endBase u).host = _
    rw [hc.rest]
  · show Sparse.find ((s.endBase u).dropUnit u).units u = none
    unfold State.dropUnit
    dsimp only
    rw [find_filter_key _ (fun n => !((s.endBase u).unitsUnder 6 u).contains n), if_neg]
    unfold State.unitsUnder
    simp
  · have hg : ((s.endBase u).dropUnit u).grids = s.grids := hc.grids
    cases hf : Sparse.find s.grids x.grid with
    | none =>
      rw [if_pos rfl]
      unfold State.grid State.modGrid
      dsimp only
      rw [Sparse.find_adjust, hg, hf]
      simp
    | some g =>
      rw [if_neg (by simp), State.grid_modGrid _ _ _ g (by rw [hg]; exact hf), show s.grid x.grid = g by unfold State.grid; rw [hf]; rfl]
      by_cases h0 : g.status = 0
      · rw [if_pos h0, ← h0]
      · rw [if_neg h0]
theorem postEv_units' (s : State) (k : Nat) (r : EvRec) : (s.postEv k r).units = s.units ∧ (s.postEv k r).grids = s.grids ∧ (s.postEv k r).hbm = s.hbm
    ∧ (s.postEv k r).host = s.host := by
  unfold State.postEv
  split
  · exact ⟨rfl, rfl, rfl, rfl⟩
  · split
    · exact ⟨rfl, rfl, rfl, rfl⟩
    · exact ⟨rfl, rfl, rfl, rfl⟩

/-- A launch of which one child more has completed. -/
def Launch.oneMore (l : Launch) : Launch :=
  { l with doneCount := l.doneCount + 1, posted := decide (l.n ≤ l.doneCount + 1 + l.aborted) }
/-- A unit's launch. -/
def WUnit.withLaunch (l : Launch) (x : WUnit) : WUnit := { x with launch := some l }
theorem childDone_zero {s : State} {q : Nat} {y : WUnit} {l : Launch} (hq : Sparse.find s.units q = some y) (hl : y.launch = some l) :
    s.childDone q 0 = match l.oneMore.posted, y.seqCtx with
      | true, some k => (s.modUnit q (WUnit.withLaunch l.oneMore)).postEv k
          { kind := 1, level := y.level, status := l.status, tag := l.tag, doneCount := l.doneCount + 1, aborted := l.aborted }
      | _, _ => s.modUnit q (WUnit.withLaunch l.oneMore) := by
  have hu : s.unit q = y := by unfold State.unit; rw [hq]; rfl
  unfold State.childDone
  dsimp only
  rw [hu, hl]
  rfl
/-- What the completion of a child leaves. -/
theorem childDone_effect {s : State} {q : Nat} {y : WUnit} {l : Launch} (hq : Sparse.find s.units q = some y) (hl : y.launch = some l) :
    let t := s.childDone q 0
    t.units = (s.modUnit q (WUnit.withLaunch l.oneMore)).units ∧ t.grids = s.grids ∧ t.hbm = s.hbm ∧ t.host = s.host
      ∧ ∀ k c, y.seq = k + 1 → Sparse.find s.ctxs k = some c → c.exiting = false →
        (l.oneMore.posted = false → (t.ctx k).evq = c.evq)
        ∧ (l.oneMore.posted = true → (t.ctx k).evq = c.evq ++ [{ kind := 1, level := y.level, status := l.status, tag := l.tag, doneCount := l.doneCount + 1, aborted := l.aborted }]) := by
  intro t
  have ht : t = _ := childDone_zero hq hl
  cases hp : l.oneMore.posted with
  | false =>
    rw [hp] at ht
    have ht' : t = s.modUnit q (WUnit.withLaunch l.oneMore) := ht
    rw [ht']
    refine ⟨rfl, rfl, rfl, rfl, fun k c _ hc _ => ⟨fun _ => ?_, nofun⟩⟩
    rw [State.ctx_of_find (s.modUnit q _) k c hc]
  | true =>
    rw [hp] at ht
    cases hs : y.seqCtx with
    | none =>
      rw [hs] at ht
      have ht' : t = s.modUnit q (WUnit.withLaunch l.oneMore) := ht
      rw [ht']
      refine ⟨rfl, rfl, rfl, rfl, fun k c hk _ _ => ?_⟩
      unfold WUnit.seqCtx at hs
      rw [if_neg (by omega)] at hs
      cases hs
    | some k' =>
      rw [hs] at ht
      dsimp only at ht
      rw [ht]
      obtain ⟨h1, h2, h3, h4⟩ := postEv_units' (s.modUnit q (WUnit.withLaunch l.oneMore)) k'
        { kind := 1, level := y.level, status := l.status, tag := l.tag, doneCount := l.doneCount + 1, aborted := l.aborted }
      refine ⟨h1, h2, h3, h4, fun k c hk hc he => ⟨nofun, fun _ => ?_⟩⟩
      have e : k' = k := by
        unfold WUnit.seqCtx at hs
        rw [if_neg (by omega), hk] at hs
        simpa using hs.symm
      subst e
      have hc' : Sparse.find (s.modUnit q (WUnit.withLaunch l.oneMore)).ctxs k' = some c := hc
      unfold State.postEv
      rw [hc']
      dsimp only
      rw [if_neg (by simp [he]), State.ctx_modCtx _ _ _ c hc']
/-- The end of a unit below another, one part of O49. -/
theorem childCompleted {s : State} {u : Nat} {x : WUnit} (hx : Sparse.find s.units u = some x) (hd : s.unitDone u = true) (hm : s.mayEnd u = true)
    (hq : s.NoSlots) {q : Nat} {y : WUnit} {l : Launch} (hp : x.parent = q + 1) (hne : q ≠ u) (hy : Sparse.find s.units q = some y) (hl : y.launch = some l)
    (hch : ∀ v ∈ s.childUnits u, v ≠ q ∧ v ≠ u ∧ q ∉ s.unitsUnder 6 v ∧ u ∉ s.unitsUnder 6 v) :
        ∃ t l', exec (.unitComplete u) s = .next t ∧ t.hbm = s.hbm ∧ t.host = s.host ∧ t.grids = s.grids ∧ (t.unit u).st = .kept ∧ (t.unit u).store = x.store
          ∧ (t.unit q).launch = some l' ∧ l'.doneCount = l.doneCount + 1 ∧ l'.aborted = l.aborted ∧ l'.posted = decide (l.n ≤ l.doneCount + 1 + l.aborted)
          ∧ ∀ k c, y.seq = k + 1 → Sparse.find s.ctxs k = some c → c.unit = q → c.exiting = false →
              (l'.posted = false → (t.ctx k).evq = c.evq)
              ∧ (l'.posted = true → (t.ctx k).evq = c.evq ++ [{ kind := 1, level := y.level, status := l.status, tag := l.tag, doneCount := l.doneCount + 1, aborted := l.aborted }]) := by
  have he := exec_unitComplete hx hd hm
  rw [show x.parentOf = some q by unfold WUnit.parentOf; rw [if_neg (by omega), hp]; rfl] at he
  dsimp only at he
  have hc := endBase_calm hq u
  obtain ⟨b, hb⟩ : ∃ b, b = s.endBase u := ⟨_, rfl⟩
  rw [← hb] at he hc
  have hsub : s.units.Sublist b.units := by rw [hc.units]
  have hchb : b.childUnits u = s.childUnits u := by unfold State.childUnits; rw [hc.units]
  have hund : ∀ v, b.unitsUnder 6 v ⊆ s.unitsUnder 6 v := unitsUnder_sublist (by rw [hc.units]) 6
  have hs := foldl_dropUnit b (b.childUnits u)
  obtain ⟨d, hdd⟩ : ∃ d, d = (b.childUnits u).foldl (fun s y => s.dropUnit y) b := ⟨_, rfl⟩
  rw [← hdd] at hs he
  rw [hchb] at hs
  obtain ⟨w, hw⟩ : ∃ w, w = State.modUnit { d with ctxs := d.ctxs.filter (fun e => decide (e.2.kind = CtxKind.handler) || decide (e.2.unit ≠ u)) } u
          (fun x => { x with st := .kept, seq := 0, cvs := [] }) := ⟨_, rfl⟩
  rw [← hw] at he
  have hdu : Sparse.find d.units u = some x := by
    rw [hs.units u (fun v hv h => (hch v hv).2.2.2 (hund v h)), hc.units]; exact hx
  have hdq : Sparse.find d.units q = some y := by
    rw [hs.units q (fun v hv h => (hch v hv).2.2.1 (hund v h)), hc.units]; exact hy
  have hwu : ∀ n, Sparse.find w.units n = if n = u then some { x with st := .kept, seq := 0, cvs := [] } else Sparse.find d.units n := fun n => by
    rw [hw, State.find_modUnit]
    show (if n = u then Option.map _ (Sparse.find d.units u) else _) = _
    rw [hdu]; rfl
  obtain ⟨h1, h2, h3, h4, h5⟩ := childDone_effect (s := w) (q := q) (y := y) (by rw [hwu, if_neg hne, hdq]) hl
  have htu : ∀ n, Sparse.find (w.childDone q 0).units n = if n = q then some (y.withLaunch l.oneMore) else Sparse.find w.units n := fun n => by
    rw [h1, State.find_modUnit, hwu q, if_neg hne, hdq]; rfl
  have hrest : w.grids = s.grids ∧ w.hbm = s.hbm ∧ w.host = s.host := by
    rw [hw]
    refine ⟨?_, ?_, ?_⟩
    · show d.grids = _
      rw [hs.rest]; exact hc.grids
    · show d.hbm = _
      rw [hs.rest, hc.rest]
    · show d.host = _
      rw [hs.rest, hc.rest]
  refine ⟨_, l.oneMore, he, h3.trans hrest.2.1, h4.trans hrest.2.2, h2.trans hrest.1, ?_, ?_, ?_, rfl, rfl, rfl, fun k c hk hcf hcu hce => h5 k c hk ?_ hce⟩
  · unfold State.unit
    rw [htu, if_neg hne.symm, hwu, if_pos rfl]; rfl
  · unfold State.unit
    rw [htu, if_neg hne.symm, hwu, if_pos rfl]; rfl
  · unfold State.unit
    rw [htu, if_pos rfl]; rfl
  · rw [hw]
    refine find_filter_keep _ _ (hs.ctxs k c (by rw [hc.ctxs]; exact hcf) (fun v hv h => ?_)) ?_
    · rw [hcu] at h
      exact (hch v hv).2.2.1 (hund v h)
    · simp [hcu, hne]

/-! ### A grid ends -/

/-- A leaf gives a place of a memory, or none. -/
theorem judge_place {s : State} {p : Nat} {e : DWord} {pa : Nat} {k : AccKind} {eng : Bool} {l : Loc} {b : Nat} (h : s.judge p e pa k eng = .ok l b) :
    ∀ u o, l ≠ .store u o := by
  have ha : ∃ q m, s.aperture p m q k = some l := by
    unfold State.judge at h
    dsimp only at h
    split at h
    · cases h
    · split at h
      · cases h
      · split at h
        · cases h
        · next l' ha =>
          refine ⟨pa, e, ha.trans ?_⟩
          split at h
          · cases h
          · split at h
            · cases h
            · split at h
              · cases h
              · split at h
                · cases h
                · cases h; rfl
  obtain ⟨q, m, ha⟩ := ha
  rintro u o rfl
  unfold State.aperture at ha
  split at ha
  · split at ha <;> cases ha
  · dsimp only at ha
    split at ha <;> cases ha
  · split at ha <;> cases ha
  · split at ha <;> cases ha
theorem xlate_place {s : State} {y : Party} {va : Nat} {k : AccKind} {l : Loc} {b : Nat} (h : s.xlate y va k = .ok l b) : ∀ u o, l ≠ .store u o := by
  unfold State.xlate at h
  dsimp only at h
  split at h
  · next r hr =>
    obtain ⟨t, -, ht⟩ := List.exists_of_findSome?_eq_some hr
    split at ht
    · next l' b' hj =>
      cases ht
      cases h
      exact judge_place hj
    · cases ht
  · split at h
    · cases h
    · exact judge_place h
theorem wrBytes_memory {s : State} {l : Loc} (h : ∀ u o, l ≠ .store u o) (bs : List Byte) : (s.wrBytes l bs).ctxs = s.ctxs ∧ (s.wrBytes l bs).units = s.units
    ∧ (s.wrBytes l bs).grids = s.grids ∧ (s.wrBytes l bs).pkgs = s.pkgs ∧ (s.wrBytes l bs).cycle = s.cycle := by
  refine foldl_fst_induct (fun t => t.ctxs = s.ctxs ∧ t.units = s.units ∧ t.grids = s.grids ∧ t.pkgs = s.pkgs ∧ t.cycle = s.cycle) _ (fun x b hx => ?_) bs (s, 0) ⟨rfl, rfl, rfl, rfl, rfl⟩
  cases l with
  | store u o => exact absurd rfl (h u o)
  | none => exact hx
  | hbm k => exact hx
  | host k => exact hx

theorem flushGrid_noSlots {s : State} (h : s.NoSlots) (gr asid : Nat) : s.flushGrid gr asid = s := by
  unfold State.flushGrid
  dsimp only
  rw [foldl_id _ s s.pkgs (fun e _ => State.mergeShadows_noSlots h _ _)]
  refine foldl_id _ s s.pkgs (fun e he => ?_)
  rw [(h e he).1]
  rfl
theorem mayFlush_noSlots {s : State} (h : s.NoSlots) (asid : Nat) : s.mayFlush asid = true := by
  unfold State.mayFlush
  rw [List.all_eq_true]
  intro e _
  unfold State.mergeable
  rw [(h.quiet e.1).2.1]
  rfl
/-- A grid that may end. -/
theorem exec_gridEnd {s : State} {gr : Nat} {g : Grid} (hg : Sparse.find s.grids gr = some g) (hp : g.parked = 0)
    (hd : g.failed = true ∨ g.rootCnt ≤ g.rootsDone) (hq : s.NoSlots) :
    (g.record = 0 → exec (.gridEnd gr) s = .next (s.closeGrid gr))
    ∧ (g.record ≠ 0 → ∀ l b, s.xlate (cmdParty g.pkg g.qasid) g.record .write = .ok l b → exec (.gridEnd gr) s = .next
        (((s.translate (cmdParty g.pkg g.qasid) g.record .write).1.homeWrite none (some (g.pkg * 16 + 8)) l
          ((s.translate (cmdParty g.pkg g.qasid) g.record .write).1.completionBytes g)).closeGrid gr)) := by
  have hguard : ¬ (g.parked ≠ 0 ∨ (¬ g.failed = true ∧ g.rootsDone < g.rootCnt) ∨ ¬ s.mayFlush g.asid = true) := by
    rintro (h | ⟨h1, h2⟩ | h)
    · exact h hp
    · rcases hd with h | h
      · exact h1 h
      · omega
    · exact h (mayFlush_noSlots hq _)
  have hs : (s.flushGrid gr g.asid).thaw (fun _ _ => true) = s := by rw [flushGrid_noSlots hq, State.thaw_noSlots hq]
  rw [exec_gridEnd_eq]
  unfold execGridEnd
  rw [hg]
  dsimp only
  rw [if_neg hguard, hs]
  refine ⟨fun h0 => if_pos h0, fun h0 l b hx => ?_⟩
  rw [if_neg h0, show s.translate (cmdParty g.pkg g.qasid) g.record .write = ((s.translate (cmdParty g.pkg g.qasid) g.record .write).1, .ok l b) from
    Prod.ext rfl ((State.translate_snd ..).trans hx)]

/-- What a state has of a grid that has ended. -/
def State.EndedGrid (s t : State) (gr : Nat) (g : Grid) : Prop :=
  t.ctxs = s.ctxs ∧ t.units = s.units ∧ Sparse.find t.grids gr = none ∧ (∀ n, n ≠ gr → t.grid n = s.grid n)
    ∧ ∀ e, g.cev = some e → bits ((t.pkg g.pkg).reg (0x4000 + 8 * e)) 19 0 = (bits ((s.pkg g.pkg).reg (0x4000 + 8 * e)) 19 0 + 1) % 2 ^ 20
theorem addEvent_count (x : Package) (e n : Nat) :
    bits ((x.addEvent e n).reg (0x4000 + 8 * e)) 19 0 = (bits (x.reg (0x4000 + 8 * e)) 19 0 + n) % 2 ^ 20 := by
  unfold Package.addEvent
  rw [Package.reg_setReg, if_pos rfl]
  have := Nat.mod_lt (bits (x.reg (0x4000 + 8 * e)) 19 0 + n) (show 0 < 2 ^ 20 by decide)
  generalize bits (x.reg (0x4000 + 8 * e)) 19 0 + n = m at *
  unfold bits
  rw [BitVec.toNat_ofNat, Nat.pow_zero, Nat.div_one]
  omega
/-- A package without the layouts of a grid. -/
def Package.dropLayouts (gr : Nat) (q : Package) : Package := { q with layouts := q.layouts.filter (fun x => decide (x.grid ≠ gr)) }
theorem dropLayouts_reg (gr : Nat) (q : Package) (o : Nat) : (q.dropLayouts gr).reg o = q.reg o := rfl
theorem find_map_vals {α : Type} (f : α → α) (m : Sparse α) (k : Nat) : Sparse.find (m.map (fun e => (e.1, f e.2))) k = (Sparse.find m k).map f :=
  find_mapVals m (fun _ x => f x) k
theorem closeGrid_ended {s : State} {gr : Nat} {g : Grid} (hg : Sparse.find s.grids gr = some g) : s.EndedGrid (s.closeGrid gr) gr g ∧ SameBytes s (s.closeGrid gr) := by
  have hgg : s.grid gr = g := by unfold State.grid; rw [hg]; rfl
  obtain ⟨v, hv⟩ : ∃ v, v = (match g.cev with | some e => s.modPkg g.pkg (fun x => x.addEvent e 1) | none => s : State) := ⟨_, rfl⟩
  have hc : s.closeGrid gr = { v with grids := Sparse.del v.grids gr, pkgs := v.pkgs.map (fun e => (e.1, e.2.dropLayouts gr)) } := by
    rw [hv]
    unfold State.closeGrid
    dsimp only
    rw [hgg]
    cases g.cev <;> rfl
  have hvr : v.ctxs = s.ctxs ∧ v.units = s.units ∧ v.grids = s.grids ∧ SameBytes s v := by
    rw [hv]
    cases g.cev with
    | none => exact ⟨rfl, rfl, rfl, .refl s⟩
    | some e => exact ⟨rfl, rfl, rfl, SameBytes.modPkg s _ _⟩
  obtain ⟨h1, h2, h3, h4⟩ := hvr
  rw [hc]
  refine ⟨⟨h1, h2, ?_, fun n hn => ?_, fun e he => ?_⟩, h4.trans (fun a => by cases a <;> rfl)⟩
  · dsimp only
    rw [Sparse.find_del, if_pos rfl]
  · unfold State.grid
    dsimp only
    rw [Sparse.find_del, if_neg hn, h3]
  · rw [he] at hv
    dsimp only at hv
    have hf : Sparse.find v.pkgs g.pkg = some ((s.pkg g.pkg).addEvent e 1) := by
      rw [hv]
      unfold State.modPkg
      dsimp only
      rw [Sparse.find_put, if_pos rfl]
    have hp : State.pkg { v with grids := Sparse.del v.grids gr, pkgs := v.pkgs.map (fun e => (e.1, e.2.dropLayouts gr)) } g.pkg
        = ((s.pkg g.pkg).addEvent e 1).dropLayouts gr := by
      unfold State.pkg
      dsimp only
      rw [find_map_vals (Package.dropLayouts gr), hf]
      rfl
    rw [hp, dropLayouts_reg, addEvent_count]
/-- The end of a grid, one part of O49. -/
theorem gridEnded {s : State} {gr : Nat} {g : Grid} (hg : Sparse.find s.grids gr = some g) (hp : g.parked = 0)
    (hd : g.failed = true ∨ g.rootCnt ≤ g.rootsDone) (hq : s.NoSlots) :
      (g.record = 0 → ∃ t, exec (.gridEnd gr) s = .next t ∧ s.EndedGrid t gr g ∧ SameBytes s t)
      ∧ (g.record ≠ 0 → ∀ l b, s.xlate (cmdParty g.pkg g.qasid) g.record .write = .ok l b → s.Place l → ∃ t, exec (.gridEnd gr) s = .next t ∧ s.EndedGrid t gr g
          ∧ Stored s t l (bytesOfNat 4 g.tag.toNat ++ bytesOfNat 4 (g.status % 65536) ++ bytesOfNat 8 (s.pkg g.pkg).count)) := by
  obtain ⟨h1, h2⟩ := exec_gridEnd hg hp hd hq
  refine ⟨fun h0 => ⟨_, h1 h0, closeGrid_ended hg⟩, fun h0 l b hx hpl => ⟨_, h2 h0 l b hx, ?_⟩⟩
  have hc := State.translate_cached hq (cmdParty g.pkg g.qasid) g.record .write
  obtain ⟨v, hv⟩ : ∃ v, v = (s.translate (cmdParty g.pkg g.qasid) g.record .write).1 := ⟨_, rfl⟩
  rw [← hv] at hc ⊢
  have hb : v.completionBytes g = bytesOfNat 4 g.tag.toNat ++ bytesOfNat 4 (g.status % 65536) ++ bytesOfNat 8 (s.pkg g.pkg).count := by
    unfold State.completionBytes
    rw [hc.pkgs]
  rw [hb]
  obtain ⟨bs, hbs⟩ : ∃ bs, bs = bytesOfNat 4 g.tag.toNat ++ bytesOfNat 4 (g.status % 65536) ++ bytesOfNat 8 (s.pkg g.pkg).count := ⟨_, rfl⟩
  rw [← hbs]
  have hplv : v.Place l := by
    cases l with
    | store u o => exact absurd rfl (xlate_place hx u o)
    | none => exact hpl
    | hbm k => trivial
    | host k => trivial
  have hcal := State.homeWrite_calm (hc.quiet hq) none (some (g.pkg * 16 + 8)) l bs
  obtain ⟨w1, w2, w3, w4, w5⟩ := wrBytes_memory (s := v) (xlate_place hx) bs
  obtain ⟨w, hw⟩ : ∃ w, w = v.homeWrite none (some (g.pkg * 16 + 8)) l bs := ⟨_, rfl⟩
  rw [← hw] at hcal ⊢
  have hst : Stored v w l bs := hw ▸ State.homeWrite_stored (hc.quiet hq) none (some (g.pkg * 16 + 8)) hplv bs
  have hwg : w.grids = s.grids := by rw [hcal.grids, w3, hc.grids]
  obtain ⟨⟨e1, e2, e3, e4, e5⟩, e6⟩ := closeGrid_ended (s := w) (gr := gr) (g := g) (by rw [hwg]; exact hg)
  have hreg : ∀ o, (w.pkg g.pkg).reg o = (s.pkg g.pkg).reg o := fun o => by
    have hpk : (v.wrBytes l bs).pkg g.pkg = v.pkg g.pkg := by unfold State.pkg; rw [w4, w5]
    rw [(hcal.pkg g.pkg).only, hpk]
    exact hc.reg g.pkg o
  refine ⟨⟨?_, ?_, e3, fun n hn => ?_, fun e he => ?_⟩, ?_⟩
  · rw [e1, hcal.ctxs, w1, hc.ctxs]
  · rw [e2, hcal.units, w2, hc.units]
  · rw [e4 n hn]; unfold State.grid; rw [hwg]
  · rw [e5 e he, hreg]
  · exact Stored.congr hst hc.sameBytes e6

/-- Settles O49. -/
theorem placementAndEnds : Obligations.PlacementAndEnds :=
  ⟨fun _ _ _ _ hx hp ho => unitPlaced hx hp ho, fun _ _ _ hk hp ho => groupPlaced hk hp ho,
    fun _ _ _ hx hd hm hq => ⟨rootCompleted hx hd hm hq, fun _ _ _ hp hne hy hl hch => childCompleted hx hd hm hq hp hne hy hl hch⟩,
    fun _ _ _ hg hp hd hq => gridEnded hg hp hd hq⟩

end Sys2Proof.Machine
end

section
/-! Accesses of the application cores (R9, R13, R20, R21, R350, R419). -/

namespace Sys2Proof.Machine

/-! ### Harts -/

theorem hart_modHart (s : State) (p h : Nat) (f : Hart → Hart) : (s.modHart p h f).hart p h = f (s.hart p h) := by
  unfold State.hart State.modHart
  rw [State.pkg_modPkg_same]
  dsimp only
  rw [Sparse.find_put, if_pos rfl]
  rfl
theorem modHart_only (s : State) (p h : Nat) (f : Hart → Hart) : OnlyPkg s (s.modHart p h f) p := OnlyPkg.modPkg ..
theorem hartEnd_last (s : State) (p h : Nat) (e : HartEnd) : ((s.hartEnd p h e).hart p h).last = e := by
  unfold State.hartEnd
  rw [hart_modHart]
theorem hartEnd_resv (s : State) (p h : Nat) (e : HartEnd) : ((s.hartEnd p h e).hart p h).resv = (s.hart p h).resv := by
  unfold State.hartEnd
  rw [hart_modHart]
theorem hartEnd_only (s : State) (p h : Nat) (e : HartEnd) : OnlyPkg s (s.hartEnd p h e) p := modHart_only ..

/-! ### The memory that a hart reaches -/

/-- A hart reaches memories alone. -/
theorem appPlace_memory {s : State} {p : Nat} {pv : AppPriv} {asid va : Nat} {k : AccKind} {o : Loc} (h : s.appPlace p pv asid va k = .mem o) :
    ∀ u n, o ≠ .store u n := by
  unfold State.appPlace at h
  dsimp only at h
  split at h
  · cases h
  · split at h
    · cases h
    · split at h
      · cases h
      · split at h
        · split at h
          · split at h <;> cases h
          · cases h
        · split at h
          · next hj => cases h; exact judge_place hj
          · cases h

section
variable {s : State} (hq : s.NoSlots)
include hq
/-- What a hart reads, and the caches that it fills. -/
theorem appRead_calm (p : Nat) (l : List (Loc × Nat)) : s.Calm (s.appRead p l).1 ∧ (s.appRead p l).2 = l.flatMap (fun x => s.rdBytes x.1 x.2) := by
  have go : ∀ (l : List (Loc × Nat)) (t : State) (bs : List Byte), s.Calm t →
      let r := l.foldl (fun (r : State × List Byte) x =>
        let t := r.1.homeRead x.1 x.2
        (match x.1 with
          | .hbm k => (lineKeys k x.2).foldl (fun s key => s.dieFill p { mast := true } key) t.1
          | _ => t.1, r.2 ++ t.2)) (t, bs)
      s.Calm r.1 ∧ r.2 = bs ++ l.flatMap (fun x => s.rdBytes x.1 x.2) := by
    intro l
    induction l with
    | nil => exact fun t bs h => ⟨h, by simp⟩
    | cons x r ih =>
      intro t bs h
      rw [List.foldl_cons]
      dsimp only
      rw [State.homeRead_noSlots (h.quiet hq), State.rdBytes_congr h.sameBytes]
      dsimp only
      obtain ⟨h1, h2⟩ := ih (match x.1 with
          | .hbm k => (lineKeys k x.2).foldl (fun s key => s.dieFill p { mast := true } key) t
          | _ => t) (bs ++ s.rdBytes x.1 x.2) (by
        split
        · exact h.foldl _ _ (fun _ _ ht => ht.dieFill _ _ _)
        · exact h)
      refine ⟨h1, h2.trans ?_⟩
      rw [List.flatMap_cons, List.append_assoc]
  exact go l s [] (.refl s)
/-- What a hart writes to one place of a memory. -/
theorem appWrite_stored (p : Nat) {o : Loc} (hm : ∀ u n, o ≠ .store u n) (hp : s.Place o) (bs : List Byte) :
    Stored s (s.appWrite p [(o, bs.length)] bs) o bs ∧ (s.appWrite p [(o, bs.length)] bs).ctxs = s.ctxs
      ∧ (s.appWrite p [(o, bs.length)] bs).units = s.units ∧ (s.appWrite p [(o, bs.length)] bs).grids = s.grids := by
  have e : s.appWrite p [(o, bs.length)] bs = (s.peerFill p { mast := true } o bs.length).homeWrite none (some (mastSharer p)) o bs := by
    unfold State.appWrite
    rw [List.foldl_cons, List.foldl_nil, List.take_length]
  have h1 := (State.Calm.refl s).peerFill p { mast := true } o bs.length
  obtain ⟨v, hv⟩ : ∃ v, v = s.peerFill p { mast := true } o bs.length := ⟨_, rfl⟩
  rw [← hv] at h1 e
  have hplv : v.Place o := by
    cases o with
    | store u n => exact absurd rfl (hm u n)
    | none => exact hp
    | hbm k => trivial
    | host k => trivial
  obtain ⟨w1, w2, w3, -, -⟩ := wrBytes_memory (s := v) hm bs
  have hc := State.homeWrite_calm (h1.quiet hq) none (some (mastSharer p)) o bs
  rw [e]
  refine ⟨Stored.congr (State.homeWrite_stored (h1.quiet hq) none (some (mastSharer p)) hplv bs) h1.sameBytes (.refl _), ?_, ?_, ?_⟩
  · rw [hc.ctxs, w1, h1.ctxs]
  · rw [hc.units, w2, h1.units]
  · rw [hc.grids, w3, h1.grids]
end

theorem pagesOf_one {a n : Nat} (hn : 0 < n) (h : a % 4096 + n ≤ 4096) : pagesOf a n = [a] := by
  have : (a + n - 1) / 4096 + 1 - a / 4096 = 1 := by omega
  unfold pagesOf
  rw [this]
  rfl
theorem size_bytes_pos (sz : Size) : 0 < sz.bytes := by cases sz <;> decide
/-- A span of a hart in one page. -/
theorem appSpan_one {s : State} {p : Nat} {pv : AppPriv} {asid a n : Nat} {k : AccKind} {o : Loc} (hn : 0 < n) (h : a % 4096 + n ≤ 4096)
    (ho : s.appPlace p pv asid a k = .mem o) : s.appSpan p pv asid a n k = .ok [(o, n)] := by
  unfold State.appSpan
  rw [pagesOf_one hn h]
  dsimp only [List.foldl_cons, List.foldl_nil]
  rw [ho]
  dsimp only
  rw [show min (a + n - a) (4096 - a % 4096) = n by omega]
  rfl

/-! ### The accesses of O52 -/

/-- What an access that ends leaves. -/
def State.Ends (s t : State) (p hart : Nat) (x : DWord) : Prop := (t.hart p hart).last = .done x ∧ t.ctxs = s.ctxs ∧ t.units = s.units ∧ t.grids = s.grids
theorem hartEnd_ends {s t : State} (p hart : Nat) (x : DWord) (h1 : t.ctxs = s.ctxs) (h2 : t.units = s.units) (h3 : t.grids = s.grids) :
    s.Ends (t.hartEnd p hart (.done x)) p hart x := ⟨hartEnd_last .., h1, h2, h3⟩
theorem hartAccess_error {s : State} {p h : Nat} {e : HartEnd} (go : List (Loc × Nat) → State × HartEnd) : hartAccess s p h (.error e) go = .next (s.hartEnd p h e) := rfl
theorem hartAccess_ok {s : State} {p h : Nat} {l : List (Loc × Nat)} (ht : s.travels p mastSite l = true) (go : List (Loc × Nat) → State × HartEnd) :
    hartAccess s p h (.ok l) go = .next ((go l).1.hartEnd p h (go l).2) := by
  unfold hartAccess
  dsimp only
  rw [if_pos ht]

section
variable {s : State} {p hart asid : Nat} {pv : AppPriv} {va : DWord} (hh : hart < 16) (ha : asid < 65536) (hb : bits ((s.pkg p).reg 0x0018) 15 8 = 0)
include hh ha hb

/-- The guard of an access of a hart. -/
theorem appRuns : ¬ (16 ≤ hart ∨ 65536 ≤ asid ∨ (s.pkg p).fld 0x0018 15 8 ≠ 0) := by
  rintro (h | h | h)
  · omega
  · omega
  · exact h hb
theorem app_load (sz : Size) (hw : ∀ off, s.appPlace p pv asid va.toNat .read ≠ .window off) :
    exec (.applicationCoreAccess p hart asid va { priv := pv, op := .load sz }) s = hartAccess s p hart (s.appSpan p pv asid va.toNat sz.bytes .read)
      (fun l => ((s.appRead p l).1, .done (BitVec.ofNat 64 (natOfBytes (s.appRead p l).2)))) := by
  rw [exec_applicationCoreAccess_eq]
  unfold execApplicationCoreAccess
  rw [if_neg (appRuns hh ha hb)]
  dsimp only
  split
  · next off e => exact absurd e (hw off)
  · rfl
theorem app_store (sz : Size) (v : DWord) (hw : ∀ off, s.appPlace p pv asid va.toNat .write ≠ .window off) :
    exec (.applicationCoreAccess p hart asid va { priv := pv, op := .store sz v }) s = hartAccess s p hart (s.appSpan p pv asid va.toNat sz.bytes .write)
      (fun l => (s.appWrite p l (bytesOfNat sz.bytes v.toNat), .done 0)) := by
  rw [exec_applicationCoreAccess_eq]
  unfold execApplicationCoreAccess
  rw [if_neg (appRuns hh ha hb)]
  dsimp only
  split
  · next off e => exact absurd e (hw off)
  · rfl
/-- A load that is performed. -/
theorem load_read (hq : s.NoSlots) (sz : Size) (l : List (Loc × Nat)) (hw : ∀ off, s.appPlace p pv asid va.toNat .read ≠ .window off)
    (hs : s.appSpan p pv asid va.toNat sz.bytes .read = .ok l) (ht : s.travels p mastSite l = true) :
    ∃ t, exec (.applicationCoreAccess p hart asid va { priv := pv, op := .load sz }) s = .next t ∧ SameBytes s t
      ∧ s.Ends t p hart (BitVec.ofNat 64 (natOfBytes (l.flatMap (fun x => s.rdBytes x.1 x.2)))) := by
  obtain ⟨h1, h2⟩ := appRead_calm hq p l
  refine ⟨_, (app_load hh ha hb sz hw).trans ((congrArg (hartAccess s p hart · _) hs).trans (hartAccess_ok ht _)), ?_, ?_⟩
  · exact h1.sameBytes.trans (hartEnd_only ..).sameBytes
  · rw [h2]
    exact hartEnd_ends _ _ _ h1.ctxs h1.units h1.grids
/-- An access that is turned away. -/
theorem access_error (op : AppOp) (sz : Size) (v : DWord) (k : AccKind) (e : HartEnd) (hop : (op, k) ∈ [(AppOp.load sz, AccKind.read), (.store sz v, .write)])
    (hw : ∀ off, s.appPlace p pv asid va.toNat k ≠ .window off) (hs : s.appSpan p pv asid va.toNat sz.bytes k = .error e) :
    exec (.applicationCoreAccess p hart asid va { priv := pv, op := op }) s = .next (s.hartEnd p hart e) := by
  simp only [List.mem_cons, List.not_mem_nil, or_false, Prod.mk.injEq] at hop
  rcases hop with ⟨rfl, rfl⟩ | ⟨rfl, rfl⟩
  · exact (app_load hh ha hb sz hw).trans (congrArg (hartAccess s p hart · _) hs)
  · exact (app_store hh ha hb sz v hw).trans (congrArg (hartAccess s p hart · _) hs)
/-- A store that is performed. -/
theorem store_written (hq : s.NoSlots) (sz : Size) (v : DWord) (o : Loc) (hpg : va.toNat % 4096 + sz.bytes ≤ 4096)
    (ho : s.appPlace p pv asid va.toNat .write = .mem o) (hp : s.Place o) (ht : s.travels p mastSite [(o, sz.bytes)] = true) :
    ∃ t, exec (.applicationCoreAccess p hart asid va { priv := pv, op := .store sz v }) s = .next t
      ∧ Stored s t o (bytesOfNat sz.bytes v.toNat) ∧ s.Ends t p hart 0 := by
  have hw : ∀ off, s.appPlace p pv asid va.toNat .write ≠ .window off := fun off h => by rw [ho] at h; cases h
  have hlen : (bytesOfNat sz.bytes v.toNat).length = sz.bytes := length_bytesOfNat ..
  obtain ⟨h1, h2, h3, h4⟩ := appWrite_stored hq p (appPlace_memory ho) hp (bytesOfNat sz.bytes v.toNat)
  rw [hlen] at h1 h2 h3 h4
  refine ⟨_, (app_store hh ha hb sz v hw).trans ((congrArg (hartAccess s p hart · _) (appSpan_one (size_bytes_pos sz) hpg ho)).trans (hartAccess_ok ht _)), ?_, ?_⟩
  · exact Stored.congr h1 (.refl _) (hartEnd_only ..).sameBytes
  · exact hartEnd_ends _ _ _ h2 h3 h4
/-- A store to the window. -/
theorem window_store (sz : Size) (v : DWord) (off : Nat) (ho : s.appPlace p pv asid va.toNat .write = .window off) (hsz : sz.bytes = 8) (h8 : off % 8 = 0) :
    ((s.pkg p).frozen 0 = true → exec (.applicationCoreAccess p hart asid va { priv := pv, op := .store sz v }) s = .next (s.hartEnd p hart .accessFault))
    ∧ ((s.pkg p).frozen 0 = false → (s.pkg p).takes 0 = true →
      exec (.applicationCoreAccess p hart asid va { priv := pv, op := .store sz v }) s = .next ((s.served p 0 off v).hartEnd p hart (.done 0))) := by
  have he : exec (.applicationCoreAccess p hart asid va { priv := pv, op := .store sz v }) s = windowAccess s p hart off 8 (s.served p 0 off v, .done 0) := by
    rw [exec_applicationCoreAccess_eq]
    unfold execApplicationCoreAccess
    rw [if_neg (appRuns hh ha hb)]
    dsimp only
    rw [ho, hsz]
    rfl
  rw [he]
  unfold windowAccess
  refine ⟨fun hf => if_pos (Or.inr hf), fun hf ht => ?_⟩
  rw [if_neg (by simp [hf, h8]), if_pos ht]
/-- A load from the window. -/
theorem window_load (sz : Size) (off : Nat) (ho : s.appPlace p pv asid va.toNat .read = .window off) (hsz : sz.bytes = 8) (h8 : off % 8 = 0)
    (hf : (s.pkg p).frozen 0 = false) (ht : (s.pkg p).takes 0 = true) :
    exec (.applicationCoreAccess p hart asid va { priv := pv, op := .load sz }) s = .next ((s.readBy p 0 off).hartEnd p hart (.done ((s.readBy p 0 off).regRead p off))) := by
  have h8' : off / 8 * 8 = off := by omega
  have he : exec (.applicationCoreAccess p hart asid va { priv := pv, op := .load sz }) s
      = windowAccess s p hart off 8 (s.readBy p 0 off, .done ((s.readBy p 0 off).regRead p off)) := by
    rw [exec_applicationCoreAccess_eq]
    unfold execApplicationCoreAccess
    rw [if_neg (appRuns hh ha hb)]
    dsimp only
    rw [ho, hsz]
    unfold State.windowLoad
    dsimp only
    rw [h8', if_pos rfl]
  rw [he]
  unfold windowAccess
  rw [if_neg (by simp [hf, h8]), if_pos ht]

/-- The bytes of an atomic access. -/
def atomicBytes (wide : Bool) : Nat := if wide then 8 else 4
omit hh ha hb in
theorem atomicPlace_ok {n : Nat} {k : AccKind} {o : Loc} (h0 : va.toNat % n = 0) (ho : s.appPlace p pv asid va.toNat k = .mem o) :
    (s.atomicPlace p pv asid va.toNat n k).map (fun l => [(l, n)]) = .ok [(o, n)] := by
  unfold State.atomicPlace
  rw [if_neg (by simp [h0]), ho]
  rfl
omit hh ha hb in
theorem atomicPlace_misaligned {n : Nat} {k : AccKind} (h0 : va.toNat % n ≠ 0) :
    (s.atomicPlace p pv asid va.toNat n k).map (fun l => [(l, n)]) = .error .misaligned := by
  unfold State.atomicPlace
  rw [if_pos h0]
  rfl
theorem app_amo (o : AtomOp) (wide : Bool) (v : DWord) (aq rl : Bool) (hf : o ≠ .fadd) :
    exec (.applicationCoreAccess p hart asid va { priv := pv, op := .amo o wide v aq rl }) s
      = hartAccess s p hart ((s.atomicPlace p pv asid va.toNat (atomicBytes wide) .atomic).map (fun l => [(l, atomicBytes wide)])) (fun l =>
        ((s.appRead p l).1.appWrite p l (bytesOfNat (atomicBytes wide) ((appAtomic o (atomicBytes wide) (natOfBytes (s.appRead p l).2) (v.toNat % 2 ^ (8 * atomicBytes wide))).getD 0)),
          .done (BitVec.ofNat 64 (natOfBytes (s.appRead p l).2)))) := by
  rw [exec_applicationCoreAccess_eq]
  unfold execApplicationCoreAccess
  rw [if_neg (appRuns hh ha hb)]
  dsimp only
  rw [if_neg hf]
  rfl
/-- The reservation that a reserved load leaves. -/
def resvOf (l : List (Loc × Nat)) : Option Nat := match l with | (.hbm k, _) :: _ => some (k / 64) | _ => none
theorem app_lr (wide aq rl : Bool) :
    exec (.applicationCoreAccess p hart asid va { priv := pv, op := .lr wide aq rl }) s
      = hartAccess s p hart ((s.atomicPlace p pv asid va.toNat (atomicBytes wide) .read).map (fun l => [(l, atomicBytes wide)])) (fun l =>
        ((s.appRead p l).1.modHart p hart (fun h => { h with resv := resvOf l }), .done (BitVec.ofNat 64 (natOfBytes (s.appRead p l).2)))) := by
  rw [exec_applicationCoreAccess_eq]
  unfold execApplicationCoreAccess
  rw [if_neg (appRuns hh ha hb)]
  rfl
/-- A conditional store still holds its reservation. -/
def resvHeld (h : Hart) (l : List (Loc × Nat)) : Bool := match l with | (.hbm k, _) :: _ => decide (h.resv = some (k / 64)) | _ => false
theorem app_sc (wide : Bool) (v : DWord) (aq rl : Bool) :
    exec (.applicationCoreAccess p hart asid va { priv := pv, op := .sc wide v aq rl }) s
      = hartAccess s p hart ((s.atomicPlace p pv asid va.toNat (atomicBytes wide) .atomic).map (fun l => [(l, atomicBytes wide)])) (fun l =>
        ((if resvHeld (s.hart p hart) l then s.appWrite p l (bytesOfNat (atomicBytes wide) v.toNat) else s).modHart p hart (fun h => { h with resv := none }),
          .done (if resvHeld (s.hart p hart) l then 0 else 1))) := by
  rw [exec_applicationCoreAccess_eq]
  unfold execApplicationCoreAccess
  rw [if_neg (appRuns hh ha hb)]
  rfl
/-- Atomics at addresses that are no multiple of their size. -/
theorem atomic_misaligned (op : AtomOp) (wide : Bool) (v : DWord) (aq rl : Bool) (h0 : va.toNat % atomicBytes wide ≠ 0) (hf : op ≠ .fadd) :
    ∀ x ∈ [AppOp.amo op wide v aq rl, .lr wide aq rl, .sc wide v aq rl],
      exec (.applicationCoreAccess p hart asid va { priv := pv, op := x }) s = .next (s.hartEnd p hart .misaligned) := by
  intro x hx
  simp only [List.mem_cons, List.not_mem_nil, or_false] at hx
  rcases hx with rfl | rfl | rfl
  · exact (app_amo hh ha hb op wide v aq rl hf).trans (congrArg (hartAccess s p hart · _) (atomicPlace_misaligned h0))
  · exact (app_lr hh ha hb wide aq rl).trans (congrArg (hartAccess s p hart · _) (atomicPlace_misaligned h0))
  · exact (app_sc hh ha hb wide v aq rl).trans (congrArg (hartAccess s p hart · _) (atomicPlace_misaligned h0))
/-- An atomic that is performed. -/
theorem amo_performed (hq : s.NoSlots) (op : AtomOp) (wide : Bool) (v : DWord) (aq rl : Bool) (h0 : va.toNat % atomicBytes wide = 0) (o : Loc) (x : Nat)
    (ho : s.appPlace p pv asid va.toNat .atomic = .mem o) (hp : s.Place o) (ht : s.travels p mastSite [(o, atomicBytes wide)] = true)
    (hx : appAtomic op (atomicBytes wide) (natOfBytes (s.rdBytes o (atomicBytes wide))) (v.toNat % 2 ^ (8 * atomicBytes wide)) = some x) :
    ∃ t, exec (.applicationCoreAccess p hart asid va { priv := pv, op := .amo op wide v aq rl }) s = .next t ∧ Stored s t o (bytesOfNat (atomicBytes wide) x)
      ∧ s.Ends t p hart (BitVec.ofNat 64 (natOfBytes (s.rdBytes o (atomicBytes wide)))) := by
  have hf : op ≠ .fadd := by rintro rfl; cases hx
  obtain ⟨h1, h2⟩ := appRead_calm hq p [(o, atomicBytes wide)]
  rw [List.flatMap_singleton] at h2
  have hplv : (s.appRead p [(o, atomicBytes wide)]).1.Place o := by
    cases o with
    | store u n => exact absurd rfl (appPlace_memory ho u n)
    | none => exact hp
    | hbm k => trivial
    | host k => trivial
  obtain ⟨w1, w2, w3, w4⟩ := appWrite_stored (h1.quiet hq) p (appPlace_memory ho) hplv (bytesOfNat (atomicBytes wide) x)
  rw [length_bytesOfNat] at w1 w2 w3 w4
  refine ⟨_, (app_amo hh ha hb op wide v aq rl hf).trans ((congrArg (hartAccess s p hart · _) (atomicPlace_ok h0 ho)).trans (hartAccess_ok ht _)), ?_, ?_⟩
  · dsimp only
    rw [h2, hx]
    exact Stored.congr w1 h1.sameBytes (hartEnd_only ..).sameBytes
  · dsimp only
    rw [h2, hx]
    exact hartEnd_ends _ _ _ (w2.trans h1.ctxs) (w3.trans h1.units) (w4.trans h1.grids)
/-- A reserved load. -/
theorem lr_performed (hq : s.NoSlots) (wide aq rl : Bool) (h0 : va.toNat % atomicBytes wide = 0) (k : Nat)
    (ho : s.appPlace p pv asid va.toNat .read = .mem (.hbm k)) (ht : s.travels p mastSite [(.hbm k, atomicBytes wide)] = true) :
    ∃ t, exec (.applicationCoreAccess p hart asid va { priv := pv, op := .lr wide aq rl }) s = .next t ∧ SameBytes s t
      ∧ s.Ends t p hart (BitVec.ofNat 64 (natOfBytes (s.rdBytes (.hbm k) (atomicBytes wide)))) ∧ (t.hart p hart).resv = some (k / 64) := by
  obtain ⟨h1, h2⟩ := appRead_calm hq p [(.hbm k, atomicBytes wide)]
  rw [List.flatMap_singleton] at h2
  refine ⟨_, (app_lr hh ha hb wide aq rl).trans ((congrArg (hartAccess s p hart · _) (atomicPlace_ok h0 ho)).trans (hartAccess_ok ht _)), ?_, ?_, ?_⟩
  · exact (h1.sameBytes.trans (modHart_only ..).sameBytes).trans (hartEnd_only ..).sameBytes
  · dsimp only
    rw [h2]
    exact hartEnd_ends _ _ _ h1.ctxs h1.units h1.grids
  · rw [hartEnd_resv, hart_modHart]
    rfl
/-- A conditional store. -/
theorem sc_performed (hq : s.NoSlots) (wide : Bool) (v : DWord) (aq rl : Bool) (h0 : va.toNat % atomicBytes wide = 0) (k : Nat)
    (ho : s.appPlace p pv asid va.toNat .atomic = .mem (.hbm k)) (ht : s.travels p mastSite [(.hbm k, atomicBytes wide)] = true) :
    ∃ t, exec (.applicationCoreAccess p hart asid va { priv := pv, op := .sc wide v aq rl }) s = .next t ∧ (t.hart p hart).resv = none
      ∧ ((s.hart p hart).resv = some (k / 64) → Stored s t (.hbm k) (bytesOfNat (atomicBytes wide) v.toNat) ∧ s.Ends t p hart 0)
      ∧ ((s.hart p hart).resv ≠ some (k / 64) → SameBytes s t ∧ s.Ends t p hart 1) := by
  obtain ⟨w1, w2, w3, w4⟩ := appWrite_stored hq p (o := .hbm k) nofun trivial (bytesOfNat (atomicBytes wide) v.toNat)
  rw [length_bytesOfNat] at w1 w2 w3 w4
  refine ⟨_, (app_sc hh ha hb wide v aq rl).trans ((congrArg (hartAccess s p hart · _) (atomicPlace_ok h0 ho)).trans (hartAccess_ok ht _)), ?_, fun hr => ?_, fun hr => ?_⟩
  · rw [hartEnd_resv, hart_modHart]
  · have hheld : resvHeld (s.hart p hart) [(.hbm k, atomicBytes wide)] = true := decide_eq_true hr
    dsimp only
    rw [hheld]
    exact ⟨Stored.congr w1 (.refl _) ((modHart_only ..).sameBytes.trans (hartEnd_only ..).sameBytes), hartEnd_ends _ _ _ w2 w3 w4⟩
  · have hheld : resvHeld (s.hart p hart) [(.hbm k, atomicBytes wide)] = false := decide_eq_false hr
    dsimp only
    rw [hheld]
    exact ⟨(modHart_only ..).sameBytes.trans (hartEnd_only ..).sameBytes, hartEnd_ends _ _ _ rfl rfl rfl⟩
end

/-- Settles O52. -/
theorem applicationCores : Obligations.ApplicationCores := by
  intro s p hart pv asid va hh ha hb hq
  refine ⟨fun b c d e => ?_, fun sz l => load_read hh ha hb hq sz l, fun op sz v k e => access_error hh ha hb op sz v k e,
    fun sz v o hpg ho => store_written hh ha hb hq sz v o hpg ho.1 ho.2.1 ho.2.2, fun sz v off => window_store hh ha hb sz v off,
    fun sz off => window_load hh ha hb sz off, fun op wide v aq rl => ⟨fun h0 hf => atomic_misaligned hh ha hb op wide v aq rl h0 hf,
      fun h0 o x ho => amo_performed hh ha hb hq op wide v aq rl h0 o x ho.1 ho.2.1 ho.2.2, fun h0 k ho => lr_performed hh ha hb hq wide aq rl h0 k ho.1 ho.2.2,
      fun h0 k ho => sc_performed hh ha hb hq wide v aq rl h0 k ho.1 ho.2.2⟩⟩
  refine (exec_applicationCoreAccess_eq p hart asid va { priv := pv, op := .fence b c d e } s).trans ?_
  unfold execApplicationCoreAccess
  rw [if_neg (appRuns hh ha hb)]

end Sys2Proof.Machine
end

section
/-! Arrival of stream blocks: `Claims.BlocksArrive` says that a block holds the bytes that its range reads when it arrives, also
where a word of the range was read apart before, which the block takes as it was then. -/

namespace Sys2Proof.Machine

/-- A range of 1,024 bytes of a core store, the first word of which was read apart, as 1. -/
def partRead : Cap := { len := 1024, pages := [.store 0 0], got := [(0, 1)] }
/-- The entry of a fill of one block from there. -/
def partFill : RqEntry :=
  { id := 0, ins := .sfillA .always 0 0 0, word := 0, pc := 0, hints := [], kind := 7, cls := some .stream, holds := [],
    caps := [(0, partRead)], args := [1], leader := 0, chunks := [], pass := none, obj := .none, counted := 0 }
/-- The block that the stream waits for. -/
def awaitedBlock : Block := { pos := 0, slot := 0, arrived := false, entry := 0, data := [], record := [] }
/-- The group that waits for it. -/
def fillingGroup : Ctx := { kind := .group, rq := [partFill], strA := { fill := 1, blocks := [awaitedBlock] } }
/-- A machine with this group, and a unit whose store holds zeros. -/
def fillingMachine : State := { ctxs := [(0, fillingGroup)], units := [(0, { level := 1, st := .running })] }

/-- The first byte of the first block of stream A of a context, after an outcome. -/
def Out.firstByte (o : Out) : Option Byte :=
  match o with
  | .next t => ((t.ctx 0).strA.blocks.head?).bind (·.data.head?)
  | _ => none

set_option maxRecDepth 20000 in
theorem fillingMachine_firstByte : (execBlockArrival 0 0 0 fillingMachine).firstByte = some 1 := by decide

theorem execBlockArrival_firstByte {s : State} {b : Byte} (h : (execBlockArrival 0 0 0 s).firstByte = some b) {t : State}
    (ht : execBlockArrival 0 0 0 s = .next t) : ((t.ctx 0).strA.blocks.head?).bind (·.data.head?) = some b := by
  rwa [ht] at h

set_option maxRecDepth 20000 in
/-- Refutes O23: the word that was read apart was 1 then, and the core store holds 0 when the block arrives, which by
`Claims.BlocksArrive` is what the block holds. -/
theorem not_streamBlocks : ¬ Obligations.StreamBlocks := by
  rintro ⟨-, h⟩
  obtain ⟨t, c', ht, rfl, -, -, -, -, -, -, hb, -⟩ := h fillingMachine 0 0 0 fillingGroup partFill partRead (.store 0 0) false rfl rfl
    (by simp [fillingGroup]) ⟨.always, 0, 0, 0, rfl⟩ (by decide) rfl rfl rfl (by decide) (by simp [State.NoSlots, fillingMachine]) rfl (by decide)
  have h1 := execBlockArrival_firstByte fillingMachine_firstByte ht
  have h2 : (t.ctx 0).strA.blocks = _ := hb
  rw [h2] at h1
  revert h1
  decide

end Sys2Proof.Machine
end

section
/-! The handler's window, and `HALT`, `RESUME` and `CTXSW` (R382 to R389). -/

namespace Sys2Proof.Machine

/-! ### The window's group -/

theorem filter_adjust_of_not {α : Type} (m : Sparse α) (n : Nat) (f : α → α) (p : Nat × α → Bool)
    (h : ∀ v, Sparse.find m n = some v → p (n, v) = false ∧ p (n, f v) = false) : (Sparse.adjust m n f).filter p = m.filter p := by
  induction m with
  | nil => rfl
  | cons e r ih =>
    obtain ⟨k, w⟩ := e
    by_cases hk : n = k
    · subst hk
      obtain ⟨h1, h2⟩ := h w (by simp [Sparse.find])
      simp [Sparse.adjust, h1, h2]
    · have hr := ih (fun v hv => h v (by rw [Sparse.find, if_neg hk]; exact hv))
      simp only [Sparse.adjust, if_neg hk, List.filter_cons, hr]
/-- Only the handler slot issues the handler's instructions. -/
theorem Issues.isHandler {s : State} {i : Instr} {c : Ctx} {act : List Nat} (h : Issues s i c act) (hi : handlerOnly i = true) : c.kind = .handler := by
  by_contra hk
  have := h.checks
  simp [State.preCheck, hi, hk] at this
theorem resident_hinted {s : State} {i : Instr} {c : Ctx} {act : List Nat} (h : Issues s i c act) (hk : c.kind = .handler) (p : Nat) (x : Site) :
    (s.hinted i act).resident p x = s.resident p x := by
  rw [State.hinted_eq]
  split
  · rfl
  · refine filter_adjust_of_not _ _ _ _ (fun v hv => ?_)
    rw [h.found] at hv
    cases hv
    simp [Ctx.schedule, hk]
theorem begun_window (c : Ctx) (i : Instr) (act : List Nat) : (c.begun i act).winIdx = c.winIdx ∧ (c.begun i act).winRegion = c.winRegion
    ∧ (c.begun i act).pkg = c.pkg ∧ (c.begun i act).site = c.site := by
  unfold Ctx.begun
  split <;> exact ⟨rfl, rfl, rfl, rfl⟩
theorem windowGroup_hinted {s : State} {i : Instr} {c : Ctx} {act : List Nat} (h : Issues s i c act) (hi : handlerOnly i = true) :
    (s.hinted i act).windowGroup (c.begun i act) = s.windowGroup c := by
  obtain ⟨h1, -, h3, h4⟩ := begun_window c i act
  unfold State.windowGroup
  rw [h1, h3, h4, resident_hinted h (h.isHandler hi)]
/-- Stores and packages have no part in which group a window names. -/
theorem State.Homes.windowGroup {s t : State} (h : s.Homes t) (c : Ctx) : t.windowGroup c = s.windowGroup c := by
  have hu : ∀ u, (t.unit u).inPlace = (s.unit u).inPlace := fun u => show (t.unit u).bare.inPlace = (s.unit u).bare.inPlace by rw [h.unit]
  unfold State.windowGroup State.resident
  simp only [h.ctxs, hu]

variable {s : State} {i : Instr} {c : Ctx} {act : List Nat} {k : Nat} {x : Ctx}

theorem onWindow_done (h : Issues s i c act) (hi : handlerOnly i = true) (hw : s.windowGroup c = some (k, x))
    {f : State → Ctx → Nat → List Nat → Nat → Ctx → Eff} (he : exec i s = onWindow i s f) {s2 : State}
    (hf : f (s.hinted i act) (c.begun i act) (act.headD 0) act k x = .ok s2) : Done i s c s2 :=
  he.trans (once_ok h _ (by rw [windowGroup_hinted h hi, hw]; exact hf))
theorem onWindow_waits (h : Issues s i c act) (hi : handlerOnly i = true) (hw : s.windowGroup c = some (k, x))
    {f : State → Ctx → Nat → List Nat → Nat → Ctx → Eff} (he : exec i s = onWindow i s f) {s2 : State} {w : Wait}
    (hf : f (s.hinted i act) (c.begun i act) (act.headD 0) act k x = .wait s2 w) : Waits i s c act s2 w :=
  he.trans (once_wait h _ (by rw [windowGroup_hinted h hi, hw]; exact hf))

/-! ### Reads of one word for each lane -/

/-- An instruction that has written v_d of each acting lane, from a state with storage as it was. -/
theorem wroteV_one (h : Issues s i c act) {body : State → Ctx → List Nat → Eff} (he : exec i s = gate i s body) (d : Nat) (val : Nat → Word)
    (hb : body (s.hinted i act) (c.begun i act) act = .ok ((s.hinted i act).modCtx s.cur.ctx (fun c' => act.foldl (fun c' l => c'.wrV d l (val l)) c'))) :
    WroteV i s c act [d] (fun l _ => val l) (fun _ => 0) := by
  have hrd : ∀ n l, l < 32 → (act.foldl (fun c' l => c'.wrV d l (val l)) (c.begun i act)).rdV n l = if n ∈ [d] ∧ l ∈ act then val l else c.rdV n l := fun n l hl => by
    rw [foldl_rdV act (fun l hl => h.lt hl) _ _ [d] (fun l _ => val l) (fun c' l hl n k hk => by rw [Ctx.rdV_wrV _ _ _ _ _ _ hl hk]; simp) n l hl,
      begun_rdV]
  refine ⟨_, completes_of_gate h body he _ hb, RegsOf.depart _ _ _ _ _ ((RegsOf.begun c i act).trans (.foldl _ (fun c' l => .wrV _ _ _ _) _ _)),
    fun l hl n hn => ?_, ⟨fun n l hl hn => ?_, fun n => ?_⟩, ?_, ?_, ?_, ?_⟩
  · rw [depart_rdV, hrd n l (h.lt hl), if_pos ⟨hn, hl⟩]
  · rw [depart_rdV, hrd n l hl, if_neg hn]
  · rw [depart_vtags, foldl_vtags act h.some _ _ [d] (fun c' l n => by rw [Ctx.vtag_wrV]; simp), begun_vtags]
  · rw [depart_flags, foldl_keeps Ctx.fpflags (fun c' l => c'.wrV d l (val l)) (fun _ _ => rfl), begun_flags]
    exact (foldl_keeps id _ (fun x _ => by simp) act c.fpflags).symm
  · rw [depart_g, foldl_keeps Ctx.g (fun c' l => c'.wrV d l (val l)) (fun _ _ => rfl), begun_g]
  · rw [depart_e, foldl_keeps Ctx.e (fun c' l => c'.wrV d l (val l)) (fun _ _ => rfl), begun_e]
  · exact depart_moved s i c _ (fun l => by
      rw [lane_of_lanes (foldl_keeps Ctx.lanes (fun c' l => c'.wrV d l (val l)) (fun _ _ => rfl) act (c.begun i act)), begun_lane])

/-! ### `WINRD` and `WINWR` -/

theorem State.windowOpen_homes (s : State) (x : Ctx) (region o : Nat) : s.Homes (s.windowOpen x region o) := by
  unfold State.windowOpen
  exact .ite ((State.Homes.refl s).releaseSpan _ _) (.refl s)
/-- What `WINRD` does first, for each of its lanes. -/
def State.windowOpens (s : State) (c : Ctx) (x : Ctx) (a : Nat) (act : List Nat) : State :=
  act.foldl (fun s l => s.windowOpen x c.winRegion (c.rdV a l).toNat) s
theorem State.windowOpens_homes (s : State) (c x : Ctx) (a : Nat) (act : List Nat) : s.Homes (s.windowOpens c x a act) :=
  (State.Homes.refl s).foldl _ _ (fun _ _ h => h.trans (State.windowOpen_homes ..))
theorem winrd_body {g : Guard} {d a : Nat} (h : Issues s (.winrd g d a) c act) (hw : s.windowGroup c = some (k, x)) {got : Nat → Nat × Nat}
    (hg : ∀ l ∈ act, (c.rdV a l).toNat % 4 = 0
      ∧ ((s.hinted (.winrd g d a) act).windowOpens c x a act).windowWord x c.winRegion (c.rdV a l).toNat = some (got l)) :
    ∃ body, exec (.winrd g d a) s = gate (.winrd g d a) s body ∧ body (s.hinted (.winrd g d a) act) (c.begun (.winrd g d a) act) act
      = .ok (((s.hinted (.winrd g d a) act).windowOpens c x a act).modCtx s.cur.ctx
        (fun c' => act.foldl (fun c' l => c'.wrV d l (BitVec.ofNat 32 (got l).1)) c')) := by
  refine ⟨_, rfl, ?_⟩
  dsimp only
  obtain ⟨-, h2, -, -⟩ := begun_window c (.winrd g d a) act
  rw [windowGroup_hinted h rfl, hw, h2]
  simp only [begun_rdV]
  have hopen : act.foldl (fun s l => s.windowOpen x c.winRegion (c.rdV a l).toNat) (s.hinted (.winrd g d a) act)
      = (s.hinted (.winrd g d a) act).windowOpens c x a act := rfl
  rw [hopen]
  have hcur : ((s.hinted (.winrd g d a) act).windowOpens c x a act).cur = s.cur := by rw [(State.windowOpens_homes ..).cur, State.hinted_cur]
  have hwin : ((s.hinted (.winrd g d a) act).windowOpens c x a act).windowGroup (c.begun (.winrd g d a) act) = some (k, x) := by
    rw [(State.windowOpens_homes ..).windowGroup, windowGroup_hinted h rfl, hw]
  rw [hwin, hcur]
  have hmap : act.map (fun l => (l, if (c.rdV a l).toNat % 4 ≠ 0 then none else (some (k, x)).bind (fun w =>
        (((s.hinted (.winrd g d a) act).windowOpens c x a act).windowWord w.2 c.winRegion (c.rdV a l).toNat).map (·.1))))
      = act.map (fun l => (l, some (got l).1)) := List.map_congr_left fun l hl => by
    obtain ⟨h4, hgot⟩ := hg l hl
    rw [if_neg (by omega), Option.bind_some, hgot, Option.map_some]
  rw [hmap]
  have hnone : (act.map (fun l => (l, some (got l).1))).filter (fun e => e.2.isNone) = [] := List.filter_eq_nil_iff.2 fun e he => by
    obtain ⟨l, -, rfl⟩ := List.mem_map.1 he
    simp
  rw [hnone]
  dsimp only
  simp only [List.foldl_map, Option.getD_some]

theorem windowWord_hinted (s : State) (i : Instr) (act : List Nat) (x : Ctx) (r o : Nat) : (s.hinted i act).windowWord x r o = s.windowWord x r o := by
  rw [State.hinted_eq]
  split <;> rfl
theorem windowOpens_none {t : State} (c x : Ctx) (a : Nat) (act : List Nat) (h : c.winRegion ≠ 2 ∨ t.NoSlots) : t.windowOpens c x a act = t := by
  refine foldl_id _ _ act (fun l _ => ?_)
  unfold State.windowOpen
  split
  · next hr => exact State.releaseSpan_noSlots (h.resolve_left (not_not.2 hr.1)) _ _
  · rfl
theorem winwr_body {g : Guard} {d a : Nat} (h : Issues s (.winwr g d a) c act) (hw : s.windowGroup c = some (k, x))
    (hg : ∀ l ∈ act, (c.rdV a l).toNat % 4 = 0 ∧ ∃ old mask, s.windowWord x c.winRegion (c.rdV a l).toNat = some (old, mask)
      ∧ winWritable c.winRegion (c.rdV a l).toNat old mask (c.rdV d l).toNat = true) :
    Done (.winwr g d a) s c (act.foldl (fun s l => s.windowPut k c.winRegion (c.rdV a l).toNat (c.rdV d l).toNat) (s.hinted (.winwr g d a) act)) := by
  refine (exec_winwr_eq ..).trans (gate_ok h _ ?_)
  obtain ⟨-, h2, -, -⟩ := begun_window c (.winwr g d a) act
  rw [windowGroup_hinted h rfl, hw, h2]
  simp only [begun_rdV]
  rw [List.filter_eq_nil_iff.2 ?bad]
  case bad =>
    intro l hl
    obtain ⟨h4, old, mask, ho, hm⟩ := hg l hl
    simp [h4, windowWord_hinted, ho, hm]

/-- What one word written through the window leaves alone. -/
theorem windowPut_effect (s : State) (k r o w : Nat) : (s.windowPut k r o w).grids = s.grids ∧ (∀ j, j ≠ k → (s.windowPut k r o w).ctx j = s.ctx j)
    ∧ (r = 1 → SameBytes s (s.windowPut k r o w) ∧ (s.windowPut k r o w).units = s.units)
    ∧ (r = 2 → (s.windowPut k r o w).ctx k = s.ctx k) := by
  unfold State.windowPut
  dsimp only
  split
  · next h => exact ⟨rfl, fun j hj => State.ctx_modCtx_ne _ _ _ _ hj, fun _ => ⟨SameBytes.modCtx _ _ _, rfl⟩, fun h' => absurd h' (by omega)⟩
  · next hr =>
    split
    · exact ⟨rfl, fun _ _ => rfl, fun _ => ⟨.refl s, rfl⟩, fun _ => rfl⟩
    · have hh := (State.windowOpen_homes s (s.ctx k) r o).wrBytes (.store (s.ctx k).unit (o - 192)) (bytesOfNat 4 w)
      exact ⟨hh.grids, fun j _ => hh.ctx j, fun h => absurd h hr, fun _ => hh.ctx k⟩
theorem windowPuts_effect (k r : Nat) (o w : Nat → Nat) (act : List Nat) (s : State) :
    let t := act.foldl (fun s l => s.windowPut k r (o l) (w l)) s
    t.grids = s.grids ∧ (∀ j, j ≠ k → t.ctx j = s.ctx j) ∧ (r = 1 → SameBytes s t ∧ t.units = s.units) ∧ (r = 2 → t.ctx k = s.ctx k) := by
  refine foldl_induct (fun t : State => t.grids = s.grids ∧ (∀ j, j ≠ k → t.ctx j = s.ctx j) ∧ (r = 1 → SameBytes s t ∧ t.units = s.units)
    ∧ (r = 2 → t.ctx k = s.ctx k)) _ (fun t l ⟨h1, h2, h3, h4⟩ => ?_) act s ⟨rfl, fun _ _ => rfl, fun _ => ⟨.refl s, rfl⟩, fun _ => rfl⟩
  obtain ⟨e1, e2, e3, e4⟩ := windowPut_effect t k r (o l) (w l)
  exact ⟨e1.trans h1, fun j hj => (e2 j hj).trans (h2 j hj), fun hr => ⟨SameBytes.trans (h3 hr).1 (e3 hr).1, (e3 hr).2.trans (h3 hr).2⟩,
    fun hr => (e4 hr).trans (h4 hr)⟩

/-! ### `RQDROP` -/

theorem drainEarly_untouched {s : State} {p : Nat} {f : Early → Bool} (h : ∀ e ∈ (s.pkg p).early, f e = false) : s.drainEarly p f = s := by
  unfold State.drainEarly
  rw [List.filter_eq_nil_iff.2 fun e he => by simp [h e he]]
  rfl
theorem dropEntry_untouched {s : State} {k id : Nat} (h : ∀ z ∈ (s.pkg (s.ctx k).pkg).early, ¬ (z.ctx = k ∧ z.entry = id)) :
    s.dropEntry k id = s.modCtx k (fun c => { c with rq := c.rq.filter (fun e => decide (e.id ≠ id)) }) := by
  unfold State.dropEntry
  dsimp only
  rw [drainEarly_untouched (fun e he => by simpa using h e he), ite_self]
/-- A lane's capture is dropped by `RQDROP`, for its lanes m. -/
def dropsCap (m : Word) (y : Nat × Cap) : Bool := m.getLsbD (y.1 % 32) && !y.2.done
/-- An entry without the lanes that `RQDROP` drops. -/
def RqEntry.dropped (m : Word) (e : RqEntry) : RqEntry :=
  { e with caps := e.caps.filter (fun y => !dropsCap m y), chunks := if m.getLsbD e.leader then [] else e.chunks }
/-- What is left of an entry after a settlement: it stands, or it has gone. -/
theorem settle_rq {s : State} {k id : Nat} {y : Ctx} (hf : Sparse.find s.ctxs k = some y)
    (h : ∀ z ∈ (s.pkg y.pkg).early, ¬ (z.ctx = k ∧ z.entry = id)) :
    ∃ rq : List RqEntry, s.settle k id = s.modCtx k (fun c => { c with rq := rq }) ∧ (∀ f ∈ rq, f ∈ y.rq) ∧ ∀ f ∈ y.rq, f.id ≠ id → f ∈ rq := by
  have hk : s.ctx k = y := State.ctx_of_find _ _ _ hf
  have hsame : s = s.modCtx k (fun c => { c with rq := y.rq }) := by
    conv_lhs => rw [← s.modCtx_self k (fun c => c) (fun _ => rfl)]
    exact (State.modCtx_const s k _ _ hf).trans (State.modCtx_const s k (fun c => { c with rq := y.rq }) _ hf).symm
  have hkeep : ∃ rq, s = s.modCtx k (fun c => { c with rq := rq }) ∧ (∀ f ∈ rq, f ∈ y.rq) ∧ ∀ f ∈ y.rq, f.id ≠ id → f ∈ rq :=
    ⟨y.rq, hsame, fun _ h => h, fun _ h _ => h⟩
  unfold State.settle
  split
  · split
    · rw [dropEntry_untouched (by rw [hk]; exact h)]
      refine ⟨y.rq.filter (fun e => decide (e.id ≠ id)), ?_, fun f hf => (List.mem_filter.1 hf).1, fun f hf hi => List.mem_filter.2 ⟨hf, by simpa using hi⟩⟩
      exact (State.modCtx_const s k _ _ hf).trans
        (State.modCtx_const s k (fun c => { c with rq := y.rq.filter (fun e => decide (e.id ≠ id)) }) _ hf).symm
    · exact hkeep
  · exact hkeep

/-- `RQDROP` of lanes of an entry of another context, none of whose stores stands in a cache. -/
theorem rqdrop_drops {g : Guard} {d a : Nat} {e : RqEntry} (h : Issues s (.rqdrop g d a) c act) (hw : s.windowGroup c = some (k, x))
    (he : x.replayList[(c.rdG a).toNat]? = some e) (hp : e.isParked = true) :
    Done (.rqdrop g d a) s c (((s.hinted (.rqdrop g d a) act).modEntry k e.id (RqEntry.dropped (c.rdG d))).settle k e.id) := by
  refine onWindow_done h rfl hw (exec_rqdrop_eq ..) ?_
  dsimp only
  simp only [begun_rdG, he, hp, if_true]
  rfl

theorem find_ctxs_hinted {s : State} (i : Instr) (act : List Nat) {k : Nat} (hk : k ≠ s.cur.ctx) :
    Sparse.find (s.hinted i act).ctxs k = Sparse.find s.ctxs k := by
  rw [State.hinted_eq]
  split
  · rfl
  · rw [State.find_modCtx, if_neg hk]
theorem hinted_early (s : State) (i : Instr) (act : List Nat) (p : Nat) : ((s.hinted i act).pkg p).early = (s.pkg p).early := by
  rw [State.hinted_eq]
  split <;> rfl
theorem dropped_caps {m : Word} {e : RqEntry} {z : Nat × Cap} (h : z ∈ (e.dropped m).caps) : z.2.done = true ∨ m.getLsbD (z.1 % 32) = false := by
  have h1 := (List.mem_filter.1 h).2
  unfold dropsCap at h1
  cases hb : m.getLsbD (z.1 % 32) with
  | false => exact .inr rfl
  | true => exact .inl (by simpa [hb] using h1)
/-- What `RQDROP` leaves of another context. -/
theorem rqdrop_left {g : Guard} {d a : Nat} {e : RqEntry} (hf : Sparse.find s.ctxs k = some x) (hk : k ≠ s.cur.ctx)
    (hz : ∀ z ∈ (s.pkg x.pkg).early, ¬ (z.ctx = k ∧ z.entry = e.id)) :
    ∃ rq : List RqEntry, ((s.hinted (.rqdrop g d a) act).modEntry k e.id (RqEntry.dropped (c.rdG d))).settle k e.id
        = (s.hinted (.rqdrop g d a) act).modCtx k (fun y => { y with rq := rq })
      ∧ (∀ f ∈ rq, f.id ≠ e.id → f ∈ x.rq) ∧ (∀ f ∈ x.rq, f.id ≠ e.id → f ∈ rq)
      ∧ ∀ f ∈ rq, f.id = e.id → ∀ z ∈ f.caps, z.2.done = true ∨ (c.rdG d).getLsbD (z.1 % 32) = false := by
  have hf0 : Sparse.find (s.hinted (.rqdrop g d a) act).ctxs k = some x := (find_ctxs_hinted _ _ hk).trans hf
  have hf1 : Sparse.find ((s.hinted (.rqdrop g d a) act).modEntry k e.id (RqEntry.dropped (c.rdG d))).ctxs k
      = some { x with rq := x.rq.map (fun f => if f.id = e.id then f.dropped (c.rdG d) else f) } := by
    unfold State.modEntry
    rw [State.find_modCtx, if_pos rfl, hf0]
    rfl
  obtain ⟨rq, ht, hin, hout⟩ := settle_rq (id := e.id) hf1 (by
    intro z hz'
    exact hz z ((hinted_early s _ act x.pkg) ▸ hz'))
  refine ⟨rq, ?_, fun f hf hi => ?_, fun f hf hi => ?_, fun f hf hi => ?_⟩
  · rw [ht]
    unfold State.modEntry
    rw [State.modCtx_modCtx]
  · obtain ⟨y, hy, rfl⟩ := List.mem_map.1 (hin f hf)
    split at hi
    · next hid => exact absurd hid hi
    · next hid => rw [if_neg hid]; exact hy
  · exact hout f (List.mem_map.2 ⟨f, hf, if_neg hi⟩) hi
  · obtain ⟨y, hy, rfl⟩ := List.mem_map.1 (hin f hf)
    split at hi
    · next hid => rw [if_pos hid]; exact fun z hz => dropped_caps hz
    · next hid => exact absurd hi hid

/-! ### The window, whole -/

theorem handlerWindow : Claims.HandlerWindow := by
  refine ⟨fun g a s c act h h1 h2 => ?_, fun g d a s c act k x h hw hn got hg => ?_, fun g d a s c act k x h hw => ?_,
    fun g d a s c act k x h hw hg => ?_, fun g d a w s c act k x h hw => ?_, fun g d a s c act k x h hw => ?_,
    fun g a s c act k x e h hw he hp => ?_, fun g d a s c act k x e h hw he hp hk hf hz => ?_⟩
  case refine_1 =>
    have hc := completes_of_once h _ (exec_winsel_eq ..) (fun c' => { c' with winIdx := wbits (c.rdG a) 12 8, winRegion := wbits (c.rdG a) 1 0 }) (by
      dsimp only
      rw [begun_rdG, if_neg (by omega), State.hinted_cur])
    refine ⟨_, hc, ?_, ?_, depart_moved s _ c _ (fun l => begun_lane ..), ?_⟩
    · rw [depart_only]
    · rw [depart_only]
    · rw [depart_only, begun_only]
  case refine_2 =>
    obtain ⟨body, hbody, hb⟩ := winrd_body h hw (got := got) (by
      rw [windowOpens_none c x a act (hn.imp id (fun hq => by rw [State.hinted_eq]; split <;> exact hq))]
      simpa only [windowWord_hinted] using hg)
    refine wroteV_one h hbody d _ (hb.trans ?_)
    rw [windowOpens_none c x a act (hn.imp id (fun hq => by rw [State.hinted_eq]; split <;> exact hq))]
  case refine_3 =>
    intro s2 got hg
    obtain ⟨body, hbody, hb⟩ := winrd_body h hw hg
    exact hbody.trans (gate_ok h body hb)
  case refine_4 =>
    obtain ⟨h1, h2, h3, h4⟩ := windowPuts_effect k c.winRegion (fun l => (c.rdV a l).toNat) (fun l => (c.rdV d l).toNat) act (s.hinted (.winwr g d a) act)
    refine ⟨winwr_body h hw hg, h1.trans (hinted_grids ..), fun j hj hc => (h2 j hj).trans (other_ctx_hinted rfl hc),
      fun hr => ⟨SameBytes.trans (hinted_sameBytes _ _ _) (h3 hr).1, (h3 hr).2.trans (hinted_units ..)⟩, fun hr => ?_⟩
    by_cases hc : k = s.cur.ctx
    · exact .inr hc
    · exact .inl ((h4 hr).trans (other_ctx_hinted rfl hc))
  case refine_5 =>
    refine wroteV_one h (exec_oplrd_eq ..) d _ ?_
    rw [windowGroup_hinted h rfl, hw]
    simp only [begun_rdG, State.hinted_cur] <;> rfl
  case refine_6 =>
    refine wroteV_one h (exec_rqrd_eq ..) d _ ?_
    rw [windowGroup_hinted h rfl, hw]
    simp only [begun_rdG, State.hinted_cur] <;> rfl
  case refine_7 =>
    refine onWindow_done h rfl hw (exec_rqinj_eq ..) ?_
    simp only [begun_rdG, he, hp, if_true]
  case refine_8 =>
    obtain ⟨rq, ht, h1, h2, h3⟩ := rqdrop_left (g := g) (d := d) (a := a) (act := act) (c := c) hf hk hz
    have hd := rqdrop_drops h hw he hp
    unfold Done at hd
    rw [ht] at hd
    have hf0 : Sparse.find (s.hinted (.rqdrop g d a) act).ctxs k = some x := (find_ctxs_hinted _ _ hk).trans hf
    refine ⟨_, x.withRq rq, hd, ?_, fun b => ?_, ?_, ?_, fun j hj hc => ?_, rfl, h1, h2, h3⟩
    · rw [State.ctx_modCtx_ne _ _ _ _ hk, State.ctx_modCtx _ _ _ _ hf0]
      rfl
    · exact ((SameBytes.modCtx _ _ _ b).trans (SameBytes.modCtx _ _ _ b)).trans (hinted_sameBytes _ _ _ b)
    · exact hinted_units ..
    · exact hinted_grids ..
    · rw [State.ctx_modCtx_ne _ _ _ _ hc, State.ctx_modCtx_ne _ _ _ _ hj]
      exact other_ctx_hinted rfl hc

end Sys2Proof.Machine
end

section
/-! `HALT`, `RESUME` and `CTXSW` (R386, R387, R389). -/

namespace Sys2Proof.Machine

/-! ### The halts of a scope -/

theorem ctx_modCtx_keeps {β : Type} (p : Ctx → β) (s : State) (k : Nat) (f : Ctx → Ctx) (hf : ∀ c, p (f c) = p c) (j : Nat) :
    p ((s.modCtx k f).ctx j) = p (s.ctx j) := by
  by_cases hj : j = k
  · subst hj
    cases hc : Sparse.find s.ctxs j with
    | none => simp [State.ctx, State.modCtx, Sparse.find_adjust, hc]
    | some c => rw [State.ctx_modCtx _ _ _ _ hc, hf, State.ctx_of_find _ _ _ hc]
  · rw [State.ctx_modCtx_ne _ _ _ _ hj]
/-- A context is in the handler of a core. -/
def Ctx.servedAt (x d : Ctx) : Prop := d.inHdl = true ∧ d.pkg = x.pkg ∧ d.site = x.site
/-- What a halt changes is not by which handler a context is served. -/
theorem haltGroup_servedAt (x : Ctx) (s : State) (k j : Nat) : x.servedAt ((s.haltGroup k).ctx j) = x.servedAt (s.ctx j) := by
  unfold State.haltGroup
  dsimp only
  split
  · rfl
  · split
    · exact ctx_modCtx_keeps x.servedAt s k (fun c => { c with haltPend := true }) (fun _ => rfl) j
    · have h : ((s.stopGroup k).traceStop k 7).ctx j = (s.stopGroup k).ctx j := by
        unfold State.traceStop State.ctx
        rw [(State.trace_traced ..).ctxs]
      rw [h]
      exact ctx_modCtx_keeps x.servedAt s k _ (fun c => by rw [revertHints_eq, Ctx.modLanes_only]; rfl) j
/-- A group of the scope of a window's group x is halted by `HALT`, unless the handler serves it. -/
def State.haltOne (x : Ctx) (s : State) (k : Nat) : State :=
  if (s.ctx k).inHdl ∧ (s.ctx k).pkg = x.pkg ∧ (s.ctx k).site = x.site then s else s.haltGroup k
theorem haltOne_stops (x : Ctx) (s : State) (k : Nat) : s.StopsCtx (State.haltOne x s k) k := by
  unfold State.haltOne
  split
  · exact .refl s k
  · exact s.haltGroup_stops k
theorem haltOne_servedAt (x : Ctx) (s : State) (k j : Nat) : x.servedAt ((State.haltOne x s k).ctx j) = x.servedAt (s.ctx j) := by
  unfold State.haltOne
  split
  · rfl
  · exact haltGroup_servedAt x s k j
/-- The groups of a list after their halts. -/
theorem haltOnes_halt (x : Ctx) (s : State) (l : List Nat) {j : Nat} (hj : j ∈ l) (hs : (Sparse.find s.ctxs j).isSome = true)
    (hr : (s.ctx j).retired = false) (hx : ¬ x.servedAt (s.ctx j)) :
    ((l.foldl (State.haltOne x) s).ctx j).halted = true ∨ ((l.foldl (State.haltOne x) s).ctx j).haltPend = true := by
  refine foldl_reach (fun t : State => s.Halting t ∧ ∀ j, x.servedAt (t.ctx j) = x.servedAt (s.ctx j))
    (fun t j => (Sparse.find s.ctxs j).isSome = true → (s.ctx j).retired = false → ¬ x.servedAt (s.ctx j) → (t.ctx j).halted = true ∨ (t.ctx j).haltPend = true)
    (fun t k ⟨h1, h2⟩ => ⟨h1.step (haltOne_stops x t k), fun j => (haltOne_servedAt x t k j).trans (h2 j)⟩)
    (fun t k ⟨h1, h2⟩ hs hr hx => ?_) (fun t k j ⟨h1, _⟩ hq hs hr hx => ((haltOne_stops x t k).ctx j).stays (hq hs hr hx)) l s
    ⟨.refl s, fun _ => rfl⟩ j (.inl hj) hs hr hx
  have hn : ¬ ((t.ctx k).inHdl ∧ (t.ctx k).pkg = x.pkg ∧ (t.ctx k).site = x.site) := fun h => hx (h2 k ▸ h)
  unfold State.haltOne
  rw [if_neg hn]
  exact t.haltGroup_halts k (by rw [(h1.ctx k).2]; exact hs) (by obtain ⟨-, -, e⟩ := (h1.ctx k).1.same; rw [e]; exact hr)

/-! ### The scope, noted hints aside -/

variable {s : State} {i : Instr} {c : Ctx} {act : List Nat} {k : Nat} {x : Ctx}

theorem filter_ctxs_hinted (h : Issues s i c act) (hi : handlerOnly i = true) (p : Nat × Ctx → Bool) (hp : ∀ k y, y.kind = .handler → p (k, y) = false) :
    (s.hinted i act).ctxs.filter p = s.ctxs.filter p := by
  rw [State.hinted_eq]
  split
  · rfl
  · refine filter_adjust_of_not _ _ _ _ (fun v hv => ?_)
    rw [h.found] at hv
    cases hv
    exact ⟨hp _ _ (h.isHandler hi), hp _ _ (by simpa [Ctx.schedule] using h.isHandler hi)⟩
theorem scopeGroups_hinted (h : Issues s i c act) (hi : handlerOnly i = true) (x : Ctx) (sc : HScope) :
    (s.hinted i act).scopeGroups x sc = s.scopeGroups x sc := by
  have hu : ∀ lvl, (s.hinted i act).ownUnit x lvl = s.ownUnit x lvl := fun lvl => State.ownUnit_congr (hinted_units ..) rfl lvl
  have hun : ∀ u, (s.hinted i act).unitsUnder 6 u = s.unitsUnder 6 u := fun u => by
    rw [State.hinted_eq]
    split <;> rfl
  unfold State.scopeGroups
  dsimp only
  rw [filter_ctxs_hinted h hi _ (fun k y hy => by simp [hy]), hinted_units]
  cases sc <;> simp only [hu, hun]
theorem groupsOf_hinted (h : Issues s i c act) (hi : handlerOnly i = true) (u : Nat) : (s.hinted i act).groupsOf u = s.groupsOf u :=
  filter_ctxs_hinted h hi _ (fun k y hy => by simp [hy])
theorem teamQuiet_hinted (h : Issues s i c act) (hi : handlerOnly i = true) (u : Nat) : (s.hinted i act).teamQuiet u = s.teamQuiet u := by
  unfold State.teamQuiet
  rw [groupsOf_hinted h hi]

/-! ### `HALT` and `RESUME` -/

theorem halt_effect {g : Guard} {sc : HScope} (h : Issues s (.halt g sc) c act) (hw : s.windowGroup c = some (k, x)) :
    let s2 := (s.scopeGroups x sc).foldl (State.haltOne x) (s.hinted (.halt g sc) act)
    if s2.scopeStopped x sc then Done (.halt g sc) s c s2 else Waits (.halt g sc) s c act s2 (.halting sc) := by
  intro s2
  have hs2 : ((s.hinted (.halt g sc) act).scopeGroups x sc).foldl (State.haltOne x) (s.hinted (.halt g sc) act) = s2 := by
    rw [scopeGroups_hinted h rfl]
  split
  · next hst =>
    refine onWindow_done h rfl hw (exec_halt_eq ..) ?_
    change (if State.scopeStopped (((s.hinted (.halt g sc) act).scopeGroups x sc).foldl (State.haltOne x) (s.hinted (.halt g sc) act)) x sc = true then
      Eff.ok (((s.hinted (.halt g sc) act).scopeGroups x sc).foldl (State.haltOne x) (s.hinted (.halt g sc) act)) else _) = _
    rw [hs2, if_pos hst]
  · next hst =>
    refine onWindow_waits h rfl hw (exec_halt_eq ..) ?_
    change (if State.scopeStopped (((s.hinted (.halt g sc) act).scopeGroups x sc).foldl (State.haltOne x) (s.hinted (.halt g sc) act)) x sc = true then _
      else Eff.wait (((s.hinted (.halt g sc) act).scopeGroups x sc).foldl (State.haltOne x) (s.hinted (.halt g sc) act)) _) = _
    rw [hs2, if_neg hst]
theorem hinted_ctx_field {β : Type} (p : Ctx → β) (hp : ∀ (c : Ctx) l, p (c.schedule l) = p c) (s : State) (i : Instr) (act : List Nat) (j : Nat) :
    p ((s.hinted i act).ctx j) = p (s.ctx j) := by
  rw [State.hinted_eq]
  split
  · rfl
  · exact ctx_modCtx_keeps p s _ _ (fun c => hp c act) j
theorem halted_scope {g : Guard} {sc : HScope} (x : Ctx) (s : State) (act : List Nat) :
    let ks := s.scopeGroups x sc
    let s2 := ks.foldl (State.haltOne x) (s.hinted (.halt g sc) act)
    (∀ j ∈ ks, (s.ctx j).retired = false → ¬ x.servedAt (s.ctx j) → (s2.ctx j).halted = true ∨ (s2.ctx j).haltPend = true)
      ∧ (∀ j, j ∉ ks → j ≠ s.cur.ctx → s2.ctx j = s.ctx j) ∧ s2.units = s.units ∧ s2.grids = s.grids := by
  intro ks s2
  have hh : (s.hinted (.halt g sc) act).Halting s2 := foldl_induct (State.Halting _) _ (fun t k h => h.step (haltOne_stops x t k)) ks _ (.refl _)
  refine ⟨fun j hj hr hn => haltOnes_halt x _ ks hj ?_ ?_ ?_, fun j hj hc => ?_, hh.units.trans (hinted_units ..), hh.grids.trans (hinted_grids ..)⟩
  · have := find_isSome_of_scopeGroups hj
    rw [State.hinted_eq]
    split
    · exact this
    · rw [State.find_modCtx]
      split
      · next e => rw [← e, Option.isSome_map]; exact this
      · exact this
  · rw [hinted_ctx_field Ctx.retired (fun _ _ => rfl)]
    exact hr
  · rw [hinted_ctx_field x.servedAt (fun _ _ => rfl)]
    exact hn
  · exact (foldl_ctx_other (fun t k j h => (haltOne_stops x t k).other h) ks _ j hj).trans (other_ctx_hinted rfl hc)

/-! ### `CTXSW` -/

/-- A refusal to restore has a cause of one byte. -/
theorem restoreGroup_cause {s : State} {k : Nat} {img : List Byte} {e : Nat} (h : s.restoreGroup k img = .inr e) : e < 256 := by
  unfold State.restoreGroup at h
  extract_lets at h
  split at h
  · cases h; decide
  · split_ifs at h <;> cases h <;> decide
theorem restoreTeam_cause {s : State} {u : Nat} {area : List Byte} {e : Nat} (h : s.restoreTeam u area = .inr e) : e < 256 := by
  unfold State.restoreTeam at h
  extract_lets x g live off at h
  split at h
  · cases h; decide
  · split at h
    · cases h; decide
    · next y _ =>
      refine foldl_induct (fun r : State ⊕ Nat => ∀ e, r = .inr e → e < 256) _ (fun r z hr e he => ?_) live _ (fun e he => by cases he) e h
      cases r with
      | inl t => exact restoreGroup_cause he
      | inr n => exact hr e he
/-- A handler's instruction that acts once per issue and faults leaves its cause in %hfs, if none stands there. -/
theorem once_fails (h : Issues s i c act) (hi : handlerOnly i = true) (f : State → Ctx → Nat → List Nat → Eff) {cause l info : Nat} (hc : cause < 256)
    (he : exec i s = oncePerIssue i s f) (hf : f (s.hinted i act) (c.begun i act) (act.headD 0) act = .trap cause [l] info) :
    ∃ t, exec i s = .next t ∧ (wbits c.hfs 0 0 = 0 → wbits (t.ctx s.cur.ctx).hfs 23 16 = cause) := by
  rw [oncePerIssue_eq, gate_runs h, runLanes_step h 33] at he
  simp only [onceBody_trap h.some hf, h.isHandler hi, if_true] at he
  refine ⟨_, he, fun h0 => ?_⟩
  have hfind : Sparse.find (s.handlerFail s.cur.ctx [l] cause info).ctxs s.cur.ctx
      = some (c.handlerFault cause (if addrCause cause then info else (Config.freeWord s.free).toNat)) := by
    unfold State.handlerFail
    exact (State.find_modCtx ..).trans (by rw [if_pos rfl, h.found]; rfl)
  rw [State.ctx_modCtx _ _ _ _ hfind]
  have hkeep : ∀ (y : Ctx) ls, ((y.advance ls).unheld).hfs = y.hfs := fun y ls => by
    unfold Ctx.advance Ctx.unheld
    rw [Ctx.modLanes_only]
  rw [hkeep]
  unfold Ctx.handlerFault wbits
  rw [wbits] at h0
  dsimp only
  rw [if_pos h0]
  simp only [BitVec.toNat_ofNat]
  have := Nat.min_le_right (c.hfs.toNat / 2 ^ 24 % 2 ^ (31 + 1 - 24) + 1) 255
  omega

/-- What comes of a restoration, for the lane that asks. -/
def restoreEff (l : Nat) : State ⊕ Nat → Eff
  | .inl s => .ok s
  | .inr k => .trap k [l] 0
/-- What `CTXSW.restore` does, once every span that it reads translates. -/
theorem restore_body {g : Guard} {a n : Nat} (h : Issues s (.ctxswRestore g a) c act) (ha : c.rdPairG a % 4096 = 0) (hq : s.teamQuiet x.unit = true)
    (he : ∀ e ∈ (s.hinted (.ctxswRestore g a) act).groupsOf x.unit, e.2.rq = [])
    (hn : (s.hinted (.ctxswRestore g a) act).areaReach x.unit (c.begun (.ctxswRestore g a) act) (c.rdPairG a) = n)
    (hf1 : (s.hinted (.ctxswRestore g a) act).spanFault (c.begun (.ctxswRestore g a) act) (c.rdPairG a) 320 .read = none)
    (hf2 : (s.hinted (.ctxswRestore g a) act).spanFault (c.begun (.ctxswRestore g a) act) (c.rdPairG a) n .read = none) {r : State ⊕ Nat}
    (hr : (((s.hinted (.ctxswRestore g a) act).readSpan (c.begun (.ctxswRestore g a) act) (c.rdPairG a) n).1.releaseStore x.unit).restoreTeam x.unit
      ((s.hinted (.ctxswRestore g a) act).readSpan (c.begun (.ctxswRestore g a) act) (c.rdPairG a) n).2 = r) :
    ∃ f, exec (.ctxswRestore g a) s = onWindow (.ctxswRestore g a) s f
      ∧ f (s.hinted (.ctxswRestore g a) act) (c.begun (.ctxswRestore g a) act) (act.headD 0) act k x = restoreEff (act.headD 0) r := by
  have hrq : ((s.hinted (.ctxswRestore g a) act).groupsOf x.unit).any (fun e => !e.2.rq.isEmpty) = false :=
    List.any_eq_false.2 fun e hm => by simp [he e hm]
  refine ⟨_, exec_ctxswRestore_eq .., ?_⟩
  dsimp only
  rw [begun_rdPairG, if_neg (by omega), teamQuiet_hinted h rfl, if_neg (by simp [hq]), if_neg (by simp [hrq]), hf1]
  dsimp only
  rw [hn, hf2]
  dsimp only
  rw [hr]
  cases r <;> rfl

theorem handlerControl : Claims.HandlerControl := by
  refine ⟨fun g sc s c act k x h hw => ?_, fun g sc s c act k x h hw => ?_, fun g a s c act k x h hw ha => ?_, fun g a s c act k x h hw ha => ?_⟩
  case refine_1 =>
    obtain ⟨h1, h2, h3, h4⟩ := halted_scope (g := g) (sc := sc) x s act
    exact ⟨_, halt_effect h hw, h1, h2, h3, h4⟩
  case refine_2 =>
    refine ⟨_, onWindow_done h rfl hw (exec_resume_eq ..) rfl, fun j hj => ?_⟩
    exact State.resumeScope_free _ x sc (.inl (by rw [scopeGroups_hinted h rfl]; exact hj))
  case refine_3 =>
    intro s1 s2 bs
    have hva : ¬ (c.begun (.ctxswSave g a) act).rdPairG a % 4096 ≠ 0 := by rw [begun_rdPairG]; omega
    refine ⟨fun hq => onWindow_waits h rfl hw (exec_ctxswSave_eq ..) ?_, fun hq hf => onWindow_done h rfl hw (exec_ctxswSave_eq ..) ?_⟩
    · dsimp only
      rw [if_neg hva, teamQuiet_hinted h rfl, if_pos (by simp [hq])]
    · dsimp only
      rw [if_neg hva, teamQuiet_hinted h rfl, if_neg (by simp [hq]), begun_rdPairG]
      have hf' : (s1.releaseStore x.unit).spanFault (c.begun (.ctxswSave g a) act) (c.rdPairG a) bs.length .write = none := hf
      change (match (s1.releaseStore x.unit).spanFault (c.begun (.ctxswSave g a) act) (c.rdPairG a) bs.length .write with
        | some f => Eff.trap f.1 [act.headD 0] f.2 | none => _) = _
      rw [hf']
  case refine_4 =>
    intro s1 y n
    refine ⟨fun hq => onWindow_waits h rfl hw (exec_ctxswRestore_eq ..) ?_, fun hq he hf1 hf2 => ?_⟩
    · dsimp only
      rw [begun_rdPairG, if_neg (by omega), teamQuiet_hinted h rfl, if_pos (by simp [hq])]
    · generalize hr : ((s1.readSpan y (c.rdPairG a) n).1.releaseStore x.unit).restoreTeam x.unit (s1.readSpan y (c.rdPairG a) n).2 = r
      obtain ⟨f, hx, hb⟩ := restore_body (k := k) h ha hq he rfl hf1 hf2 hr
      cases r with
      | inl s2 => exact onWindow_done h rfl hw hx hb
      | inr e =>
        refine once_fails h rfl _ (restoreTeam_cause hr) hx (l := act.headD 0) (info := 0) ?_
        rw [windowGroup_hinted h rfl, hw]
        exact hb

/-- Settles O36: the window, which group it names being no matter of hints, stores or packages; halts and resumes of a scope, step by
step; `CTXSW`, once its team is quiet. -/
theorem handlerInstructions : Obligations.HandlerInstructions := ⟨handlerWindow, handlerControl⟩

end Sys2Proof.Machine
end

section
/-! Combine slots: puts, releases and records (R189 to R196). -/

namespace Sys2Proof.Machine

/-! ### Slots of a package -/

theorem cmb_modCmb (s : State) (p k : Nat) (f : CmbSlot → CmbSlot) (n : Nat) :
    ((s.modCmb p k f).pkg p).cmb n = if n = k then f ((s.pkg p).cmb k) else (s.pkg p).cmb n := by
  unfold State.modCmb
  rw [State.pkg_modPkg_same]
  exact Sparse.get_set ..
theorem cmbSlot_modCmb (s : State) (h : Handle) (f : CmbSlot → CmbSlot) : (s.modCmb h.pkg h.key f).cmbSlot h = f (s.cmbSlot h) := by
  unfold State.cmbSlot
  rw [cmb_modCmb, if_pos rfl]
theorem modCmb_only (s : State) (p k : Nat) (f : CmbSlot → CmbSlot) : SameBytes s (s.modCmb p k f) ∧ (s.modCmb p k f).ctxs = s.ctxs
    ∧ (s.modCmb p k f).units = s.units ∧ (s.modCmb p k f).grids = s.grids := ⟨SameBytes.modPkg _ _ _, rfl, rfl, rfl⟩
/-- No write at a home has a part in the combine slots. -/
theorem State.Homes.cmb {s t : State} (h : s.Homes t) (p n : Nat) : (t.pkg p).cmb n = (s.pkg p).cmb n :=
  h.pkgField (fun q => q.cmb n) (fun _ => rfl) p

/-! ### Releases -/

variable {s : State} {p die slot : Nat}

theorem combineTimeout_runs {z : Nat} (h1 : ((s.pkg p).cmb (die * 4096 + slot)).st = .opened) (h2 : s.clockRuns p { die := die } = true)
    (h3 : ((s.pkg p).cmb (die * 4096 + slot)).deadline = some z) (h4 : z < s.dieCount p { die := die }) :
    exec (.combineTimeout p die slot) s = .next (s.modCmb p (die * 4096 + slot) (fun x => x.release z false)) := by
  rw [exec_combineTimeout_eq, execCombineTimeout]
  simp only [h1, h2, h3, decide_true, Bool.and_self]
  rw [if_pos h4]
/-- The elements of the output row of a slot. -/
def State.combineRow (s : State) (x : CmbSlot) : List (Word × BitVec 6) :=
  (List.range (x.width / 4)).map (fun j => combineElem x (fun e => s.rdWord (.store x.unit (x.stage e + 4 * j))))
theorem combineRelease_drops (h1 : (s.pkg p).cmbFirst die (die * 4096 + slot) .due = true)
    (h2 : ((s.pkg p).cmb (die * 4096 + slot)).deadline.getD 0 < s.dieCount p { die := die }) {x : CmbSlot} (hx : (s.pkg p).cmb (die * 4096 + slot) = x)
    (hd : x.drop = true) :
    exec (.combineRelease p die slot) s = .next (s.modCmb p (die * 4096 + slot) (fun y => { y with
      st := .formed, sub := x.exp &&& ~~~x.arr, word := releaseWord (x.exp &&& ~~~x.arr) 0 false })) := by
  subst hx
  rw [exec_combineRelease_eq, execCombineRelease]
  dsimp only
  rw [if_neg (by simp only [h1]; simpa using h2), if_pos hd]
theorem combineRelease_writes (h1 : (s.pkg p).cmbFirst die (die * 4096 + slot) .due = true)
    (h2 : ((s.pkg p).cmb (die * 4096 + slot)).deadline.getD 0 < s.dieCount p { die := die }) {x : CmbSlot} (hx : (s.pkg p).cmb (die * 4096 + slot) = x)
    (hd : x.drop = false) :
    exec (.combineRelease p die slot) s = .next ((s.homeWrite none none (.store x.unit x.outOff) (wordsBytes ((s.combineRow x).map (·.1)))).modCmb p
      (die * 4096 + slot) (fun y => { y with
        st := .formed, sub := x.exp &&& ~~~x.arr, word := releaseWord (x.exp &&& ~~~x.arr) ((s.combineRow x).foldl (fun f y => f ||| y.2) 0) true })) := by
  subst hx
  rw [exec_combineRelease_eq, execCombineRelease]
  dsimp only
  rw [if_neg (by simp only [h1]; simpa using h2), if_neg (by simp [hd])]
  rfl
theorem releaseWord_unwritten (sub : BitVec 16) : releaseWord sub 0 false = BitVec.ofNat 32 (sub.toNat * 2 ^ 16) := by
  simp [releaseWord]
/-- A slot that is formed is released, and its batch counts a substitution. -/
def State.releasedSlot (s : State) (p k b : Nat) (sub : BitVec 16) : State :=
  if sub = 0 then s.modCmb p k (fun x => { x with st := .released, resv := 0 })
  else (s.modCmb p k (fun x => { x with st := .released, resv := 0 })).modPkg p (fun q => { q with batches := Sparse.set 0 q.batches b (Sparse.get 0 q.batches b + 1) })
theorem combineReleaseDone_runs (h : (s.pkg p).cmbFirst die (die * 4096 + slot) .formed = true) {x : CmbSlot} (hx : (s.pkg p).cmb (die * 4096 + slot) = x) :
    exec (.combineReleaseDone p die slot) s = if x.resv = 0 then .next (s.releasedSlot p (die * 4096 + slot) ((die * 2 ^ 16 + x.asid) * 256 + x.batch) x.sub)
    else .next ((s.releasedSlot p (die * 4096 + slot) ((die * 2 ^ 16 + x.asid) * 256 + x.batch) x.sub).postEv (x.resv - 1)
      { kind := 4, level := 0, status := if x.sub = 0 then 0 else 0x100, tag := ({ pkg := p, die := die, slot := slot, gen := x.gen } : Handle).word
        doneCount := if x.drop then 0 else x.width, aborted := 0 }) := by
  subst hx
  rw [exec_combineReleaseDone_eq, execCombineReleaseDone]
  dsimp only
  rw [if_neg (by simp [h])]
  rfl
/-- What a substitution counted leaves alone. -/
theorem releasedSlot_effect (s : State) (p k b : Nat) (sub : BitVec 16) :
    SameBytes s (s.releasedSlot p k b sub) ∧ (s.releasedSlot p k b sub).ctxs = s.ctxs ∧ (s.releasedSlot p k b sub).units = s.units
      ∧ (∀ n, ((s.releasedSlot p k b sub).pkg p).cmb n = if n = k then { (s.pkg p).cmb k with st := .released, resv := 0 } else (s.pkg p).cmb n)
      ∧ Sparse.get 0 ((s.releasedSlot p k b sub).pkg p).batches b = Sparse.get 0 (s.pkg p).batches b + (if sub = 0 then 0 else 1) := by
  unfold State.releasedSlot
  obtain ⟨h1, h2, h3, -⟩ := modCmb_only s p k (fun x => { x with st := .released, resv := 0 })
  have h4 := cmb_modCmb s p k (fun x => { x with st := .released, resv := 0 })
  have hb : ((s.modCmb p k (fun x => { x with st := .released, resv := 0 })).pkg p).batches = (s.pkg p).batches := by
    unfold State.modCmb
    rw [State.pkg_modPkg_same]
  generalize s.modCmb p k (fun x => { x with st := .released, resv := 0 }) = t at h1 h2 h3 h4 hb ⊢
  split
  · exact ⟨h1, h2, h3, h4, by rw [hb]; rfl⟩
  · refine ⟨SameBytes.trans h1 (SameBytes.modPkg _ _ _), h2, h3, fun n => ?_, ?_⟩
    · rw [State.pkg_modPkg_same]
      exact h4 n
    · rw [State.pkg_modPkg_same]
      exact (Sparse.get_set_same 0 (t.pkg p).batches b _).trans (congrArg (fun m => Sparse.get 0 m b + 1) hb)
/-- A record posts in a queue that does not exit. -/
theorem postEv_posts {s : State} {k : Nat} {c : Ctx} (hc : Sparse.find s.ctxs k = some c) (he : c.exiting = false) (r : EvRec) :
    s.postEv k r = s.modCtx k (fun c => { c with evResv := c.evResv - 1, evq := c.evq ++ [r] }) := by
  unfold State.postEv
  rw [hc]
  simp [he]
theorem postEv_sameBytes (s : State) (k : Nat) (r : EvRec) : SameBytes s (s.postEv k r) ∧ (s.postEv k r).pkgs = s.pkgs ∧ (s.postEv k r).cycle = s.cycle := by
  unfold State.postEv State.freeEv
  split
  · exact ⟨.refl s, rfl, rfl⟩
  · split
    · exact ⟨SameBytes.modCtx _ _ _, rfl, rfl⟩
    · exact ⟨SameBytes.modCtx _ _ _, rfl, rfl⟩
theorem postEv_pkg (s : State) (k : Nat) (r : EvRec) (p : Nat) : (s.postEv k r).pkg p = s.pkg p := by
  obtain ⟨-, h2, h3⟩ := postEv_sameBytes s k r
  unfold State.pkg
  rw [h2, h3]
theorem combineReleases : Claims.CombineReleases := by
  intro s p die slot k x
  refine ⟨fun z h1 h2 h3 h4 => ?_, fun h1 hd h2 hq hu => ?_, fun h1 hd h2 => ?_, fun h => ?_⟩
  case refine_1 =>
    obtain ⟨b1, b2, b3, -⟩ := modCmb_only s p k (fun x => x.release z false)
    exact ⟨_, combineTimeout_runs h1 h2 h3 h4, b1, b2, b3, fun n => cmb_modCmb s p k _ n⟩
  case refine_2 =>
    intro row el fl
    have hh := (State.Homes.refl s).homeWrite none none (.store x.unit x.outOff) (wordsBytes ((s.combineRow x).map (·.1)))
    refine ⟨_, combineRelease_writes h1 h2 rfl hd, hh.ctxs, hh.grids, ?_, fun n => ?_⟩
    · have h := (State.homeWrite_stored hq none none (l := .store x.unit x.outOff) hu (wordsBytes ((s.combineRow x).map (·.1)))).congr (.refl s)
        (SameBytes.modPkg _ p (fun q => { q with combine := Sparse.set {} q.combine k { q.cmb k with
          st := .formed, sub := x.exp &&& ~~~x.arr, word := releaseWord (x.exp &&& ~~~x.arr) ((s.combineRow x).foldl (fun f y => f ||| y.2) 0) true } }))
      have hb : wordsBytes ((s.combineRow x).map (·.1)) = (List.range (x.width / 4)).flatMap (fun j => bytesOfNat 4 (el j).1.toNat) := by
        simp only [wordsBytes, State.combineRow, List.flatMap_map] <;> rfl
      exact Eq.mp (congrArg (Stored s _ _) hb) h
    · refine (cmb_modCmb _ p k _ n).trans ?_
      rw [hh.cmb, hh.cmb, State.combineRow, List.foldl_map]
      rfl
  case refine_3 =>
    have hx := combineRelease_drops h1 h2 rfl hd
    rw [releaseWord_unwritten] at hx
    exact ⟨_, hx, SameBytes.modPkg _ _ _, rfl, rfl, fun n => cmb_modCmb s p k _ n⟩
  case refine_4 =>
    obtain ⟨h1, h2, h3, h4, h5⟩ := releasedSlot_effect s p k ((die * 2 ^ 16 + x.asid) * 256 + x.batch) x.sub
    have hx := combineReleaseDone_runs (x := x) h rfl
    by_cases hr : x.resv = 0
    · rw [if_pos hr] at hx
      exact ⟨_, hx, h1, h3, h4, h5, fun _ => h2, fun q hq => absurd (hq.symm.trans hr) (by omega)⟩
    · rw [if_neg hr] at hx
      obtain ⟨b1, -, -⟩ := postEv_sameBytes (s.releasedSlot p k ((die * 2 ^ 16 + x.asid) * 256 + x.batch) x.sub) (x.resv - 1)
        { kind := 4, level := 0, status := if x.sub = 0 then 0 else 0x100, tag := ({ pkg := p, die := die, slot := slot, gen := x.gen } : Handle).word
          doneCount := if x.drop then 0 else x.width, aborted := 0 }
      refine ⟨_, hx, SameBytes.trans h1 b1, (postEv_units ..).trans h3, fun n => by rw [postEv_pkg]; exact h4 n, by rw [postEv_pkg]; exact h5,
        fun h => absurd h hr, fun q hq c hc he => ?_⟩
      have hc' : Sparse.find (s.releasedSlot p k ((die * 2 ^ 16 + x.asid) * 256 + x.batch) x.sub).ctxs q = some c := by rw [h2]; exact hc
      have e : x.resv - 1 = q := by omega
      rw [e, postEv_posts hc' he, State.ctx_modCtx _ _ _ _ hc']


/-! ### Puts -/

/-- The slot takes a put of expert n (R193). -/
def CmbSlot.takes (x : CmbSlot) (n t : Nat) : Bool :=
  (decide (x.st = .opened) && (match x.deadline with | some z => decide (t ≤ z) | none => true)) && x.exp.getLsbD n && !x.arr.getLsbD n
theorem CmbSlot.takes_iff (x : CmbSlot) (n t : Nat) : x.takes n t = true ↔
    x.st = .opened ∧ (∀ z, x.deadline = some z → t ≤ z) ∧ x.exp.getLsbD n = true ∧ x.arr.getLsbD n = false := by
  unfold CmbSlot.takes
  cases x.deadline <;> simp [and_assoc]
/-- A slot with a put of expert n staged, with its gate. -/
def CmbSlot.staged (x : CmbSlot) (n t : Nat) (gate : Word) : CmbSlot :=
  if x.arr ||| bit16 n = x.exp then ({ x with arr := x.arr ||| bit16 n, gates := Sparse.set 0 x.gates n gate } : CmbSlot).release t false
  else { x with arr := x.arr ||| bit16 n, gates := Sparse.set 0 x.gates n gate }
theorem CmbSlot.staged_fields (x : CmbSlot) (n t : Nat) (gate : Word) : (x.staged n t gate).arr = x.arr ||| bit16 n
    ∧ (x.staged n t gate).gates = Sparse.set 0 x.gates n gate ∧ (x.staged n t gate).st = if x.arr ||| bit16 n = x.exp then .due else x.st := by
  unfold CmbSlot.staged
  split <;> exact ⟨rfl, rfl, rfl⟩

section put
variable {k id : Nat} {c : Ctx} {e : RqEntry} {cap : Cap}
variable (hf : Sparse.find s.ctxs k = some c) (he : c.entry id = some e) (hi : ∃ g d a b, e.ins = .cmbput g d a b)
  (hl : c.laneClear id (lanesOf (e.args.getD 3 0)) = true) (hcap : Sparse.find e.caps e.leader = some cap)
include hf he hi hl hcap

/-- What the unit does with a put that arrives. -/
theorem cmbputArrival_runs {h : Handle} (hh : handleOf (e.args.getD 0 0) = h) (ht : s.putTravels c h cap.segs = true) :
    exec (.cmbputArrival k id) s = .next (
      if ¬ (s.cmbSlot h).current h c.asid then s.dropEntry k id
      else if (s.cmbSlot h).takes (wordAt e.args 1) (s.dieCount h.pkg { die := h.die }) then
        (((s.dropEntry k id).homeRead (match cap.pages with | o :: _ => o | [] => .none) (s.cmbSlot h).width).1.homeWrite none none
          (.store (s.cmbSlot h).unit ((s.cmbSlot h).stage (wordAt e.args 1)))
          ((s.dropEntry k id).homeRead (match cap.pages with | o :: _ => o | [] => .none) (s.cmbSlot h).width).2).modCmb h.pkg h.key
            (fun x => x.staged (wordAt e.args 1) (s.dieCount h.pkg { die := h.die }) (e.args.getD 2 0))
      else (s.dropEntry k id).modCmb h.pkg h.key (fun x => x.markLate (wordAt e.args 1))) := by
  obtain ⟨g, d, a, b, hins⟩ := hi
  rw [exec_cmbputArrival_eq, execCmbputArrival]
  dsimp only
  rw [State.ctx_of_find _ _ _ hf, he]
  dsimp only
  rw [hins, hcap, hh]
  dsimp only [Option.getD_some]
  rw [if_neg (by simp [ht]; exact hl)]
  by_cases h1 : (s.cmbSlot h).current h c.asid
  · rw [if_neg (not_not.2 h1), if_neg (not_not.2 h1)]
    by_cases h2 : (s.cmbSlot h).takes (wordAt e.args 1) (s.dieCount h.pkg { die := h.die }) = true
    · rw [if_pos h2]
      exact if_pos h2
    · rw [if_neg h2]
      exact if_neg h2
  · rw [if_pos h1, if_pos h1]
end put

/-- A put drops its entry, in a package without early bytes. -/
theorem dropEntry_quiet {s : State} (hq : s.NoSlots) {k id : Nat} {c : Ctx} (hf : Sparse.find s.ctxs k = some c) :
    (s.dropEntry k id).NoSlots ∧ SameBytes s (s.dropEntry k id) ∧ (s.dropEntry k id).pkgs = s.pkgs ∧ (s.dropEntry k id).cycle = s.cycle
      ∧ (s.dropEntry k id).units = s.units ∧ (s.dropEntry k id).grids = s.grids
      ∧ (s.dropEntry k id).ctx k = c.withRq (c.rq.filter (fun y => decide (y.id ≠ id))) ∧ ∀ j, j ≠ k → (s.dropEntry k id).ctx j = s.ctx j := by
  rw [dropEntry_untouched (fun z hz => by rw [hq.early] at hz; cases hz)]
  exact ⟨hq.modCtx _ _, SameBytes.modCtx _ _ _, rfl, rfl, rfl, rfl, State.ctx_modCtx _ _ _ _ hf, fun j hj => State.ctx_modCtx_ne _ _ _ _ hj⟩

theorem putsArrive : Claims.PutsArrive := by
  intro s k id c e cap hf he hi hl hcap hq h ht x n t0 good row
  obtain ⟨d1, d2, d3, d4, d5, d6, d7, d8⟩ := dropEntry_quiet hq (id := id) hf
  have hx := cmbputArrival_runs hf he hi hl hcap (h := h) rfl ht
  change exec _ s = .next (if ¬ x.current h c.asid = true then _ else if x.takes n t0 = true then _ else _) at hx
  have hpkg : ∀ p, (s.dropEntry k id).pkg p = s.pkg p := fun p => by unfold State.pkg; rw [d3, d4]
  have hcmb : (s.dropEntry k id).cmbSlot h = x := congrArg (fun q : Package => q.cmb h.key) (hpkg h.pkg)
  have hgood : x.takes n t0 = true ↔ good := CmbSlot.takes_iff x n t0
  by_cases h1 : x.current h c.asid = true
  · rw [if_neg (not_not.2 h1)] at hx
    by_cases h2 : x.takes n t0 = true
    · rw [if_pos h2, State.homeRead_noSlots d1] at hx
      dsimp only at hx
      obtain ⟨f1, f2, f3⟩ := CmbSlot.staged_fields x n t0 (e.args.getD 2 0)
      generalize hl : (match cap.pages with | o :: _ => o | [] => Loc.none) = src at hx
      have hh := (State.Homes.refl (s.dropEntry k id)).homeWrite none none (.store x.unit (x.stage n)) ((s.dropEntry k id).rdBytes src x.width)
      have hst : ∀ f, (((s.dropEntry k id).homeWrite none none (.store x.unit (x.stage n)) ((s.dropEntry k id).rdBytes src x.width)).modCmb h.pkg h.key f).cmbSlot h
          = f x := fun f => (cmbSlot_modCmb _ _ _).trans (congrArg f ((hh.cmb _ _).trans hcmb))
      refine ⟨_, hx, (hh.ctx k).trans d7, fun j hj => (hh.ctx j).trans (d8 j hj), hh.grids.trans d6, fun h' => absurd (h1.symm.trans h') (by decide),
        fun _ hg hu o r ho => ⟨?_, ?_, ?_, ?_⟩, fun _ h' => absurd (hgood.1 h2) h'⟩
      · rw [ho] at hl
        change o = src at hl
        subst hl
        have hp : (s.dropEntry k id).Place (.store x.unit (x.stage n)) := fun h' => hu (by rw [← d5]; exact h')
        have h3 := (State.homeWrite_stored d1 none none hp ((s.dropEntry k id).rdBytes o x.width)).congr d2 (modCmb_only _ h.pkg h.key
          (fun x => x.staged n t0 (e.args.getD 2 0))).1
        have hrow : row = .store x.unit (x.stage n) := by
          show Loc.store _ _ = Loc.store _ _
          rw [CmbSlot.stage, List.countP_eq_length_filter]
        rw [hrow, ← State.rdBytes_congr d2 o x.width]
        exact h3
      · exact (congrArg CmbSlot.arr (hst _)).trans f1
      · exact ((congrArg (fun y : CmbSlot => Sparse.get 0 y.gates n) (hst _)).trans (congrArg (fun m => Sparse.get 0 m n) f2)).trans
          (Sparse.get_set_same ..)
      · refine ((congrArg CmbSlot.st (hst _)).trans f3).trans ?_
        rw [hg.1]
        rfl
    · rw [if_neg h2] at hx
      obtain ⟨b1, b2, b3, b4⟩ := modCmb_only (s.dropEntry k id) h.pkg h.key (fun x => x.markLate n)
      have hst := (cmbSlot_modCmb (s.dropEntry k id) h (fun x => x.markLate n)).trans (congrArg (fun x : CmbSlot => x.markLate n) hcmb)
      refine ⟨_, hx, ?_, fun j hj => ?_, b4.trans d6, fun h' => absurd (h1.symm.trans h') (by decide), fun _ hg => absurd (hgood.2 hg) h2,
        fun _ _ => ⟨SameBytes.trans d2 b1, (congrArg CmbSlot.arr hst :), (congrArg CmbSlot.st hst :), congrArg CmbSlot.late hst, congrArg CmbSlot.lateCnt hst⟩⟩
      · exact d7
      · exact d8 j hj
  · rw [if_pos h1] at hx
    have h1' : x.current h c.asid = false := by simpa using h1
    exact ⟨_, hx, d7, d8, d6, fun _ => ⟨hcmb, d2⟩, fun h' => absurd h' h1, fun h' => absurd h' h1⟩


/-- What an instruction on a slot of its own die does. -/
def ownSlotBody (a : Nat) (f : State → Ctx → List Nat → Handle → CmbSlot → Eff) (s : State) (c : Ctx) (l : Nat) (act : List Nat) : Eff :=
  if c.site.mast ∨ (handleOf (c.rdG a)).pkg ≠ c.pkg ∨ (handleOf (c.rdG a)).die ≠ c.site.die then .trap 0x10 [l] 0
  else f s c act (handleOf (c.rdG a)) (s.cmbSlot (handleOf (c.rdG a)))
theorem ownSlot_eq (i : Instr) (a : Nat) (s : State) (f : State → Ctx → List Nat → Handle → CmbSlot → Eff) :
    ownSlot i a s f = oncePerIssue i s (ownSlotBody a f) := rfl
theorem hinted_cmbSlot (s : State) (i : Instr) (act : List Nat) (h : Handle) : (s.hinted i act).cmbSlot h = s.cmbSlot h := by
  unfold State.hinted; split <;> rfl
theorem hinted_now (s : State) (i : Instr) (c : Ctx) (act : List Nat) : (s.hinted i act).now (c.begun i act) = s.now c := by
  unfold State.hinted Ctx.begun; split <;> rfl

section own
variable {s : State} {i : Instr} {c : Ctx} {act : List Nat} {a : Nat} (h : Issues s i c act) (hm : c.site.mast = false)
  (hp : (handleOf (c.rdG a)).pkg = c.pkg) (hd : (handleOf (c.rdG a)).die = c.site.die)
include h hm hp hd

theorem ownSlotBody_runs (f : State → Ctx → List Nat → Handle → CmbSlot → Eff) :
    ownSlotBody a f (s.hinted i act) (c.begun i act) (act.headD 0) act
      = f (s.hinted i act) (c.begun i act) act (handleOf (c.rdG a)) (s.cmbSlot (handleOf (c.rdG a))) := by
  have hs : (c.begun i act).site = c.site ∧ (c.begun i act).pkg = c.pkg := by rw [begun_only]; exact ⟨rfl, rfl⟩
  unfold ownSlotBody
  rw [begun_rdG, hs.1, hs.2, hinted_cmbSlot, if_neg (by simp [hm, hp, hd])]
/-- One that is done, with an effect outside the table of contexts and one on its context. -/
theorem ownSlot_acts (f : State → Ctx → List Nat → Handle → CmbSlot → Eff) (he : exec i s = ownSlot i a s f) {t : State}
    (ht : t.ctxs = (s.hinted i act).ctxs) (hg : t.grids = s.grids) (F : Ctx → Ctx) (hF : ∀ l, (F (c.begun i act)).lane l = (c.begun i act).lane l)
    (hb : f (s.hinted i act) (c.begun i act) act (handleOf (c.rdG a)) (s.cmbSlot (handleOf (c.rdG a))) = .ok (t.modCtx s.cur.ctx F)) :
    Acts i s c (t.modCtx s.cur.ctx (fun _ => s.depart i (s.cohort c) (F (c.begun i act)))) (s.depart i (s.cohort c) (F (c.begun i act))) c.preds := by
  refine acts_of_gate h _ (he.trans (oncePerIssue_eq ..)) ht hg F (onceBody_eq h.some ((ownSlotBody_runs h hm hp hd f).trans hb) (fun _ _ _ => nofun)) _ (fun l => ?_)
  rw [hF, begun_lane]
  simp [Ctx.preds]
end own

/-- What is left of a context of which one uniform register is written. -/
theorem depart_wrG (s : State) (i : Instr) (c : Ctx) (act : List Nat) (d : Nat) (w : Word) :
    OnlyRegs c (s.depart i (s.cohort c) ((c.begun i act).wrG d w)) ∧ (s.depart i (s.cohort c) ((c.begun i act).wrG d w)).v = c.v
      ∧ ∀ n, (s.depart i (s.cohort c) ((c.begun i act).wrG d w)).rdG n = if n = d then w else c.rdG n := by
  refine ⟨RegsOf.depart _ _ _ _ _ ((RegsOf.begun ..).trans (.wrG _ _ _)), ?_, fun n => ?_⟩
  · rw [depart_v]
    exact begun_v ..
  · rw [depart_rdG, Ctx.rdG_wrG, begun_rdG]

/-- The answer of a slot is its release word, or 0x80 where the handle is not current. -/
theorem CmbSlot.answer_some {x : CmbSlot} {h : Handle} {asid : Nat} (hx : x.current h asid = false ∨ x.st = .released) :
    x.answer h asid = some (if x.current h asid then x.word else 0x80) := by
  unfold CmbSlot.answer
  cases ha : x.current h asid with
  | false => rfl
  | true => simp [hx.resolve_left (by simp [ha])]
theorem CmbSlot.answer_none {x : CmbSlot} {h : Handle} {asid : Nat} (ha : x.current h asid = true) (hs : x.st ≠ .released) : x.answer h asid = none := by
  simp [CmbSlot.answer, ha, hs]

section waits
variable {s : State} {g : Guard} {d a : Nat} {c : Ctx} {act : List Nat} (hm : c.site.mast = false)
include hm

theorem cmbwait_waits (hp : (handleOf (c.rdG a)).pkg = c.pkg) (hd : (handleOf (c.rdG a)).die = c.site.die) (h : Issues s (.cmbwait g d a) c act)
    (ha : (s.cmbSlot (handleOf (c.rdG a))).current (handleOf (c.rdG a)) c.asid = true) (hs : (s.cmbSlot (handleOf (c.rdG a))).st ≠ .released) :
    Waits (.cmbwait g d a) s c act (s.hinted (.cmbwait g d a) act) (.combine (handleOf (c.rdG a)).word d) := by
  refine ((exec_cmbwait_eq g d a s).trans (ownSlot_eq ..)).trans (once_wait h _ ((ownSlotBody_runs h hm hp hd _).trans ?_))
  have : (c.begun (.cmbwait g d a) act).asid = c.asid := by rw [begun_only]
  rw [this, CmbSlot.answer_none ha hs]
theorem cmbwait_returns (hp : (handleOf (c.rdG a)).pkg = c.pkg) (hd : (handleOf (c.rdG a)).die = c.site.die) (h : Issues s (.cmbwait g d a) c act)
    (hx : (s.cmbSlot (handleOf (c.rdG a))).current (handleOf (c.rdG a)) c.asid = false ∨ (s.cmbSlot (handleOf (c.rdG a))).st = .released) :
    ∃ t c', Acts (.cmbwait g d a) s c t c' c.preds ∧ SameBytes s t ∧ OnlyRegs c c' ∧ c'.v = c.v
      ∧ ∀ n, c'.rdG n = if n = d then (if (s.cmbSlot (handleOf (c.rdG a))).current (handleOf (c.rdG a)) c.asid then (s.cmbSlot (handleOf (c.rdG a))).word else 0x80)
          else c.rdG n := by
  have he := State.acquire_only (s.hinted (.cmbwait g d a) act) (c.begun (.cmbwait g d a) act) 3
  obtain ⟨w1, w2, w3⟩ := depart_wrG s (.cmbwait g d a) c act d
    (if (s.cmbSlot (handleOf (c.rdG a))).current (handleOf (c.rdG a)) c.asid then (s.cmbSlot (handleOf (c.rdG a))).word else 0x80)
  refine ⟨_, _, ownSlot_acts h hm hp hd _ (exec_cmbwait_eq g d a s) (t := (s.hinted (.cmbwait g d a) act).acquire (c.begun (.cmbwait g d a) act) 3)
    (by rw [he]) (by rw [he]; exact hinted_grids ..) (fun c' => c'.wrG d _) (fun _ => rfl) ?_, ?_, w1, w2, w3⟩
  · have : (c.begun (.cmbwait g d a) act).asid = c.asid := by rw [begun_only]
    rw [this, CmbSlot.answer_some hx, State.hinted_cur]
  · exact ((hinted_sameBytes s _ act).trans (State.acquire_sameBytes _ (c.begun _ act) 3)).trans (.modCtx _ _ _)
theorem cmbstat_returns (hp : (handleOf (c.rdG a)).pkg = c.pkg) (hd : (handleOf (c.rdG a)).die = c.site.die) {sel : Nat} (h : Issues s (.cmbstat g d a sel) c act) :
    ∃ c', Completes (.cmbstat g d a sel) s c' ∧ OnlyRegs c c' ∧ c'.v = c.v ∧ Moved c c' (s.cohort c) c.preds
      ∧ ∀ n, c'.rdG n = if n = d then (s.cmbSlot (handleOf (c.rdG a))).stat ((s.cmbSlot (handleOf (c.rdG a))).current (handleOf (c.rdG a)) c.asid) sel else c.rdG n := by
  obtain ⟨w1, w2, w3⟩ := depart_wrG s (.cmbstat g d a sel) c act d
    ((s.cmbSlot (handleOf (c.rdG a))).stat ((s.cmbSlot (handleOf (c.rdG a))).current (handleOf (c.rdG a)) c.asid) sel)
  refine ⟨_, completes_of_once h _ ((exec_cmbstat_eq g d a sel s).trans (ownSlot_eq ..)) (fun c' => c'.wrG d _) ((ownSlotBody_runs h hm hp hd _).trans ?_), w1, w2, fun l => ?_, w3⟩
  · have : (c.begun (.cmbstat g d a sel) act).asid = c.asid := by rw [begun_only]
    rw [this, State.hinted_cur]
  · rw [depart_lane _ _ _ (cohort_nodup s c)]
    have : ((c.begun (.cmbstat g d a sel) act).wrG d ((s.cmbSlot (handleOf (c.rdG a))).stat ((s.cmbSlot (handleOf (c.rdG a))).current (handleOf (c.rdG a)) c.asid) sel)).lane l
        = c.lane l := begun_lane ..
    rw [this]
    rfl
/-- A close of a slot of the issuing die. -/
theorem close_acts (hp : (handleOf (c.rdG a)).pkg = c.pkg) (hd : (handleOf (c.rdG a)).die = c.site.die) {i : Instr} (h : Issues s i c act) {drop : Bool}
    (he : exec i s = closeSlot i a drop s) :
    ∃ t c', Acts i s c t c' c.preds ∧ SameBytes s t ∧ t.units = s.units ∧ OnlyRegs c c' ∧ c'.v = c.v ∧ c'.g = c.g
      ∧ ∀ k, (t.pkg c.pkg).cmb k = if k = (handleOf (c.rdG a)).key ∧ (s.cmbSlot (handleOf (c.rdG a))).current (handleOf (c.rdG a)) c.asid = true
            ∧ (s.cmbSlot (handleOf (c.rdG a))).st = .opened ∧ (∀ z, (s.cmbSlot (handleOf (c.rdG a))).deadline = some z → s.now c ≤ z)
          then { s.cmbSlot (handleOf (c.rdG a)) with st := .due, deadline := some (s.now c), drop := drop } else (s.pkg c.pkg).cmb k := by
  have ha : (c.begun i act).asid = c.asid := by rw [begun_only]
  have hcs : ∀ k, ((s.hinted i act).pkg c.pkg).cmb k = (s.pkg c.pkg).cmb k := fun k => by unfold State.hinted; split <;> rfl
  have hall : (s.cmbSlot (handleOf (c.rdG a))).deadline.all (fun z => decide (s.now c ≤ z)) = true
      ↔ ∀ z, (s.cmbSlot (handleOf (c.rdG a))).deadline = some z → s.now c ≤ z := by simp [Option.all_eq_true]
  have hregs : OnlyRegs c (s.depart i (s.cohort c) (c.begun i act)) := RegsOf.depart _ _ _ _ _ (RegsOf.begun ..)
  by_cases hc : (s.cmbSlot (handleOf (c.rdG a))).current (handleOf (c.rdG a)) c.asid = true ∧ (s.cmbSlot (handleOf (c.rdG a))).st = .opened
      ∧ (s.cmbSlot (handleOf (c.rdG a))).deadline.all (fun z => decide (s.now c ≤ z)) = true
  · obtain ⟨b1, b2, b3, b4⟩ := modCmb_only (s.hinted i act) (handleOf (c.rdG a)).pkg (handleOf (c.rdG a)).key (fun x => x.release (s.now c) drop)
    refine ⟨_, _, ownSlot_acts h hm hp hd _ he (t := (s.hinted i act).modCmb (handleOf (c.rdG a)).pkg (handleOf (c.rdG a)).key (fun x => x.release (s.now c) drop))
      b2 (b4.trans (hinted_grids ..)) id (fun _ => rfl) ?_, ((hinted_sameBytes s i act).trans b1).trans (.modCtx _ _ _), b3.trans (hinted_units ..), hregs,
      (depart_v ..).trans (begun_v ..), (depart_g ..).trans (begun_g ..), fun k => ?_⟩
    · rw [State.modCtx_self _ s.cur.ctx id (fun _ => rfl), ha, hinted_now, if_pos hc]
    · have := cmb_modCmb (s.hinted i act) (handleOf (c.rdG a)).pkg (handleOf (c.rdG a)).key (fun x => x.release (s.now c) drop) k
      refine (congrArg (fun p => Package.cmb (State.pkg _ p) k) hp.symm).trans (this.trans ?_)
      rw [hp, hcs, hcs]
      by_cases hk : k = (handleOf (c.rdG a)).key
      · rw [if_pos hk, if_pos ⟨hk, hc.1, hc.2.1, hall.1 hc.2.2⟩, State.cmbSlot, hp]
        rfl
      · rw [if_neg hk, if_neg (fun h => hk h.1)]
  · refine ⟨_, _, ownSlot_acts h hm hp hd _ he (t := s.hinted i act) rfl (hinted_grids ..) id (fun _ => rfl) ?_,
      (hinted_sameBytes s i act).trans (.modCtx _ _ _), hinted_units .., hregs, (depart_v ..).trans (begun_v ..), (depart_g ..).trans (begun_g ..), fun k => ?_⟩
    · rw [State.modCtx_self _ s.cur.ctx id (fun _ => rfl), ha, hinted_now, if_neg hc]
    · rw [if_neg (fun hk => hc ⟨hk.2.1, hk.2.2.1, hall.2 hk.2.2.2⟩)]
      exact hcs k
omit hm in
theorem batches_cleared (t : State) (p b : Nat) : Sparse.get 0 ((t.modPkg p (fun q => { q with batches := Sparse.del q.batches b })).pkg p).batches b = 0 := by
  rw [State.pkg_modPkg_same]
  simp [Sparse.get, Sparse.find_del]
/-- A batch without open slots is read and cleared; another waits. -/
theorem cmbwaitBatch_returns (h : Issues s (.cmbwaitBatch g d a) c act) (hi : (s.pkg c.pkg).batchIdle c.site.die c.asid (wbits (c.rdG a) 7 0) = true) :
    ∃ t c', Acts (.cmbwaitBatch g d a) s c t c' c.preds ∧ SameBytes s t ∧ OnlyRegs c c' ∧ c'.v = c.v
      ∧ Sparse.get 0 (t.pkg c.pkg).batches ((c.site.die * 2 ^ 16 + c.asid) * 256 + wbits (c.rdG a) 7 0) = 0
      ∧ ∀ n, c'.rdG n = if n = d then BitVec.ofNat 32 (Sparse.get 0 (s.pkg c.pkg).batches ((c.site.die * 2 ^ 16 + c.asid) * 256 + wbits (c.rdG a) 7 0))
          else c.rdG n := by
  have he := State.acquire_only (s.hinted (.cmbwaitBatch g d a) act) (c.begun (.cmbwaitBatch g d a) act) 3
  have hs : (c.begun (.cmbwaitBatch g d a) act).site = c.site ∧ (c.begun (.cmbwaitBatch g d a) act).pkg = c.pkg
      ∧ (c.begun (.cmbwaitBatch g d a) act).asid = c.asid := by rw [begun_only]; exact ⟨rfl, rfl, rfl⟩
  obtain ⟨w1, w2, w3⟩ := depart_wrG s (.cmbwaitBatch g d a) c act d
    (BitVec.ofNat 32 (Sparse.get 0 (s.pkg c.pkg).batches ((c.site.die * 2 ^ 16 + c.asid) * 256 + wbits (c.rdG a) 7 0)))
  refine ⟨_, _, acts_of_gate h _ ((exec_cmbwaitBatch_eq g d a s).trans (oncePerIssue_eq ..))
    (t := ((s.hinted (.cmbwaitBatch g d a) act).acquire (c.begun (.cmbwaitBatch g d a) act) 3).modPkg c.pkg
      (fun q => { q with batches := Sparse.del q.batches ((c.site.die * 2 ^ 16 + c.asid) * 256 + wbits (c.rdG a) 7 0) }))
    ?_ ?_ (fun c' => c'.wrG d _) (onceBody_eq h.some ?_ (fun _ _ _ => nofun)) _ (fun l => ?_), ?_, w1, w2, ?_, w3⟩
  · rw [he]
    rfl
  · rw [he]
    exact hinted_grids ..
  · rw [begun_rdG, hs.1, hs.2.1, hs.2.2, hinted_pkg, if_neg (by simp [hm]), if_pos hi]
    unfold State.takeBatch
    rw [hs.1, hs.2.1, hs.2.2, hinted_pkg, State.hinted_cur]
  · rw [Ctx.lane, Ctx.wrG_lanes]
    exact (begun_lane ..).trans (by simp [Ctx.preds])
  · exact (((hinted_sameBytes s _ act).trans (State.acquire_sameBytes _ (c.begun _ act) 3)).trans (.modPkg _ _ _)).trans (.modCtx _ _ _)
  · exact batches_cleared ..
theorem cmbwaitBatch_waits (h : Issues s (.cmbwaitBatch g d a) c act) (hi : (s.pkg c.pkg).batchIdle c.site.die c.asid (wbits (c.rdG a) 7 0) = false) :
    Waits (.cmbwaitBatch g d a) s c act (s.hinted (.cmbwaitBatch g d a) act) (.batch (wbits (c.rdG a) 7 0) d) := by
  refine (exec_cmbwaitBatch_eq g d a s).trans (once_wait h _ ?_)
  have hs : (c.begun (.cmbwaitBatch g d a) act).site = c.site ∧ (c.begun (.cmbwaitBatch g d a) act).pkg = c.pkg
      ∧ (c.begun (.cmbwaitBatch g d a) act).asid = c.asid := by rw [begun_only]; exact ⟨rfl, rfl, rfl⟩
  rw [begun_rdG, hs.1, hs.2.1, hs.2.2, hinted_pkg, if_neg (by simp [hm])]
  exact if_neg (by simp [hi])
end waits

theorem combineWaitsAndCloses : Claims.CombineWaitsAndCloses := by
  intro g d a s c act h x alive hm
  refine ⟨fun hp hd => ⟨fun hi => ⟨fun hx => cmbwait_returns hm hp hd hi hx, fun ha hs => cmbwait_waits hm hp hd hi ha hs⟩, fun drop => ?_, fun sel hi => ?_⟩,
    fun hi => ⟨fun hb => cmbwaitBatch_returns hm hi hb, fun hb => cmbwaitBatch_waits hm hi hb⟩⟩
  · intro i hi
    refine close_acts hm hp hd hi (drop := drop) ?_
    cases drop
    · exact exec_cmbclose_eq g a s
    · exact exec_cmbcloseDrop_eq g a s
  · exact cmbstat_returns hm hp hd hi


/-! ### `CMBOPEN` and `CMBPUT` -/

theorem handleOf_word {h : Handle} (h1 : h.pkg < 1024) (h2 : h.die < 8) (h3 : h.slot < 4096) (h4 : h.gen < 128) : handleOf h.word = h := by
  have hn : h.word.toNat = h.pkg * 2 ^ 22 + h.die * 2 ^ 19 + h.slot * 2 ^ 7 + h.gen := by
    rw [Handle.word, BitVec.toNat_ofNat]
    exact Nat.mod_eq_of_lt (by omega)
  cases h
  simp only [handleOf, wbits, hn, Handle.mk.injEq] at *
  refine ⟨?_, ?_, ?_, ?_⟩ <;> omega

section opens
variable {s : State} {g : Guard} {d a : Nat} {c : Ctx} {act : List Nat} (h : Issues s (.cmbopen g d a) c act)

theorem hinted_cmbDesc (s : State) (i : Instr) (c : Ctx) (act : List Nat) (a : Nat) : (s.hinted i act).cmbDesc (c.begun i act) a = s.cmbDesc c a := by
  unfold State.hinted Ctx.begun; split <;> rfl
theorem hinted_cmbQueue (s : State) (i : Instr) (k : Nat) (c : Ctx) (act : List Nat) (u : Nat) :
    (s.hinted i act).cmbQueue k (c.begun i act) u = s.cmbQueue k c u := by
  unfold State.hinted Ctx.begun; split <;> rfl
theorem hinted_evFull {s : State} {i : Instr} {c : Ctx} {act : List Nat} (h : Issues s i c act) (j : Nat) : ((s.hinted i act).ctx j).evFull = (s.ctx j).evFull := by
  by_cases hj : j = s.cur.ctx
  · subst hj
    rw [State.ctx_of_find _ _ _ (hinted_find h), State.ctx_of_find _ _ _ h.found, begun_only]
    rfl
  · rw [hinted_ctx_other hj]

/-- The slot that an open fills. -/
def State.openedSlot (s : State) (c : Ctx) (a u i : Nat) (q : Option Nat) : CmbSlot :=
  { st := .opened, gen := (((s.pkg c.pkg).cmb (c.site.die * 4096 + i)).gen + 1) % 128, asid := c.asid, grid := c.grid, unit := u
    exp := BitVec.ofNat 16 (wbits (c.rdG (a + 2)) 31 16)
    width := 64 * (wbits (c.rdG (a + 2)) 15 8 + 1), outOff := (c.rdG a).toNat, stgOff := (c.rdG (a + 1)).toNat
    deadline := if (c.rdG (a + 3)).toNat = 0 then none else some (s.now c + (c.rdG (a + 3)).toNat)
    batch := wbits (c.rdG (a + 2)) 7 0, resv := match q with | some k => k + 1 | none => 0 }
/-- A record's place reserved, where a queue is to take it. -/
def State.reserveIn (s : State) (q : Option Nat) : State := match q with | some k => s.reserveEv k | none => s
/-- A slot opened in a package. -/
def State.takeCmb (s : State) (p die i : Nat) (x : CmbSlot) : State :=
  (s.modCmb p (die * 4096 + i) (fun _ => x)).modPkg p (fun q => { q with cmbNext := Sparse.set 0 q.cmbNext die ((i + 1) % 4096) })

/-- A context with n more places reserved in its event queue. -/
def Ctx.reserving (c : Ctx) (n : Nat) : Ctx := { c with evResv := c.evResv + n }
theorem reserving_lane (c : Ctx) (n l : Nat) : (c.reserving n).lane l = c.lane l := rfl
theorem reserving_rdG (c : Ctx) (n k : Nat) : (c.reserving n).rdG k = c.rdG k := rfl
theorem hinted_find_other (s : State) (i : Instr) (act : List Nat) {j : Nat} (hj : j ≠ s.cur.ctx) :
    Sparse.find (s.hinted i act).ctxs j = Sparse.find s.ctxs j := by
  unfold State.hinted
  split
  · rfl
  · simp [State.find_modCtx, hj]
theorem reserveIn_ctx (s : State) (q : Option Nat) (j : Nat) : (s.reserveIn q).ctx j =
    if q = some j ∧ Sparse.find s.ctxs j ≠ none then { s.ctx j with evResv := (s.ctx j).evResv + 1 } else s.ctx j := by
  cases q with
  | none => simp [State.reserveIn]
  | some k =>
    by_cases hk : k = j
    · subst hk
      cases hf : Sparse.find s.ctxs k with
      | none => simp [State.reserveIn, State.reserveEv, State.ctx, State.find_modCtx, hf]
      | some c => simp [State.reserveIn, State.reserveEv, State.ctx, State.find_modCtx, hf]
    · rw [if_neg (by simp [hk])]
      exact State.ctx_modCtx_ne _ _ _ _ (Ne.symm hk)
theorem reserveIn_find (s : State) (q : Option Nat) {j : Nat} {c : Ctx} (h : Sparse.find s.ctxs j = some c) :
    Sparse.find (s.reserveIn q).ctxs j = some (c.reserving (if q = some j then 1 else 0)) := by
  unfold Ctx.reserving
  cases q with
  | none => simpa [State.reserveIn] using h
  | some k =>
    by_cases hk : k = j
    · subst hk
      simp [State.reserveIn, State.reserveEv, State.find_modCtx, h]
    · have : j ≠ k := Ne.symm hk
      simp [State.reserveIn, State.reserveEv, State.find_modCtx, h, hk, this]
theorem reserveIn_rest (s : State) (q : Option Nat) : SameBytes s (s.reserveIn q) ∧ (s.reserveIn q).units = s.units ∧ (s.reserveIn q).grids = s.grids
    ∧ (s.reserveIn q).pkgs = s.pkgs ∧ (s.reserveIn q).cycle = s.cycle ∧ (s.reserveIn q).cur = s.cur := by
  cases q with
  | none => exact ⟨.refl s, rfl, rfl, rfl, rfl, rfl⟩
  | some k => exact ⟨SameBytes.modCtx _ _ _, rfl, rfl, rfl, rfl, rfl⟩
theorem takeCmb_cmb (s : State) (p die i : Nat) (x : CmbSlot) (n : Nat) :
    ((s.takeCmb p die i x).pkg p).cmb n = if n = die * 4096 + i then x else (s.pkg p).cmb n := by
  unfold State.takeCmb
  rw [State.pkg_modPkg_same]
  exact cmb_modCmb ..

include h

theorem cmbopen_traps {r : Nat × Nat} (hr : s.cmbDesc c a = .inl r) (hk : c.kind ≠ .handler) : Traps (.cmbopen g d a) s r.1 [act.headD 0] r.2 := by
  refine (exec_cmbopen_eq g d a s).trans (once_trap h hk _ ?_)
  rw [hinted_cmbDesc, hr]
variable {u : Nat} (hu : s.cmbDesc c a = .inr u) (hq : ∀ k, s.cmbQueue s.cur.ctx c u = some k → (s.ctx k).evFull = false)
include hu hq
omit hu in
theorem queue_not_full (hn : (s.cmbQueue s.cur.ctx c u).any (fun k => ((s.hinted (.cmbopen g d a) act).ctx k).evFull) = true) : False := by
  cases hk : s.cmbQueue s.cur.ctx c u with
  | none => simp [hk] at hn
  | some k => simp [hk, hinted_evFull h, hq k hk] at hn
theorem cmbopen_fails (hf : (s.pkg c.pkg).cmbFree c.site.die = none ∨ (s.pkg c.pkg).batchRoom c.site.die c.asid (wbits (c.rdG (a + 2)) 7 0) = false) :
    Completes (.cmbopen g d a) s (s.depart (.cmbopen g d a) (s.cohort c) ((c.begun (.cmbopen g d a) act).pushAll act false)) := by
  have hs : (c.begun (.cmbopen g d a) act).site = c.site ∧ (c.begun (.cmbopen g d a) act).pkg = c.pkg
      ∧ (c.begun (.cmbopen g d a) act).asid = c.asid := by rw [begun_only]; exact ⟨rfl, rfl, rfl⟩
  refine completes_of_once h _ (exec_cmbopen_eq g d a s) (fun c => c.pushAll act false) ?_
  rw [hinted_cmbDesc, hu]
  dsimp only
  rw [hinted_cmbQueue, State.hinted_cur, if_neg ?hfull, begun_rdG, hs.1, hs.2.1, hs.2.2, hinted_pkg]
  case hfull => exact fun hn => queue_not_full h hq hn
  rcases hf with hf | hf
  · rw [hf]
  · rw [hf]
    cases (s.pkg c.pkg).cmbFree c.site.die <;> rfl
theorem cmbopen_runs {i : Nat} (hi : (s.pkg c.pkg).cmbFree c.site.die = some i) (hr : (s.pkg c.pkg).batchRoom c.site.die c.asid (wbits (c.rdG (a + 2)) 7 0) = true) :
    exec (.cmbopen g d a) s = .next (((((s.hinted (.cmbopen g d a) act).reserveIn (s.cmbQueue s.cur.ctx c u)).takeCmb c.pkg c.site.die i
      (s.openedSlot c a u i (s.cmbQueue s.cur.ctx c u))).modCtx s.cur.ctx (fun c' => (c'.wrG d ({ pkg := c.pkg, die := c.site.die, slot := i
                                                                                                  gen := (((s.pkg c.pkg).cmb (c.site.die * 4096 + i)).gen + 1) % 128 } : Handle).word).pushAll act true)).modCtx s.cur.ctx
        (s.depart (.cmbopen g d a) (s.cohort c))) := by
  have hs : (c.begun (.cmbopen g d a) act).site = c.site ∧ (c.begun (.cmbopen g d a) act).pkg = c.pkg
      ∧ (c.begun (.cmbopen g d a) act).asid = c.asid ∧ (c.begun (.cmbopen g d a) act).grid = c.grid := by rw [begun_only]; exact ⟨rfl, rfl, rfl, rfl⟩
  refine (exec_cmbopen_eq g d a s).trans (once_ok h _ ?_)
  rw [hinted_cmbDesc, hu]
  dsimp only
  rw [hinted_cmbQueue, State.hinted_cur, if_neg ?hfull]
  case hfull => exact fun hn => queue_not_full h hq hn
  simp only [begun_rdG, hs.1, hs.2.1, hs.2.2.1, hs.2.2.2, hinted_pkg, hinted_now]
  rw [hi, hr]
  have hcur : ((s.hinted (.cmbopen g d a) act).reserveIn (s.cmbQueue s.cur.ctx c u)).cur.ctx = s.cur.ctx :=
    congrArg Issue.ctx ((reserveIn_rest _ _).2.2.2.2.2.trans (State.hinted_cur ..))
  exact congrArg (fun k => Eff.ok (State.modCtx (((s.hinted (.cmbopen g d a) act).reserveIn (s.cmbQueue s.cur.ctx c u)).takeCmb c.pkg c.site.die i
    (s.openedSlot c a u i (s.cmbQueue s.cur.ctx c u))) k _)) hcur
end opens


/-- A context that has written a uniform register and pushed, once its cohort has moved on. -/
theorem depart_wrG_push (s : State) (i : Instr) {coh act : List Nat} (hn : coh.Nodup) (ha : act.Nodup) (x : Ctx) (d : Nat) (w : Word) (b : Bool) :
    let c' := s.depart i coh ((x.wrG d w).pushAll act b)
    c'.evResv = x.evResv ∧ c'.v = x.v ∧ c'.rq = x.rq ∧ c'.fpflags = x.fpflags ∧ (∀ n, c'.rdG n = if n = d then w else x.rdG n)
      ∧ ∀ l, c'.lane l = if l ∈ coh then ({ x.lane l with pred := if l ∈ act then pushed (x.lane l).pred b else (x.lane l).pred } : Lane).onward
          else { x.lane l with pred := if l ∈ act then pushed (x.lane l).pred b else (x.lane l).pred } := by
  intro c'
  refine ⟨?_, ?_, ?_, ?_, fun n => ?_, fun l => ?_⟩
  · show (s.depart i coh _).evResv = _
    rw [depart_only, pushAll_only]
    rfl
  · show (s.depart i coh _).v = _
    rw [depart_only, pushAll_only]
    rfl
  · show (s.depart i coh _).rq = _
    rw [depart_only, pushAll_only]
    rfl
  · show (s.depart i coh _).fpflags = _
    rw [depart_only, pushAll_only]
    rfl
  · show (s.depart i coh _).rdG n = _
    rw [depart_rdG, pushAll_only]
    exact Ctx.rdG_wrG ..
  · show (s.depart i coh _).lane l = _
    rw [depart_lane _ _ _ hn, pushAll_lane act ha]
    rfl
/-- What an open leaves: the issuing context, the queue that takes the record, and the slot. -/
theorem cmbopen_opens {s : State} {g : Guard} {d a u i : Nat} {c : Ctx} {act : List Nat} (h : Issues s (.cmbopen g d a) c act) (hu : s.cmbDesc c a = .inr u)
    (hq : ∀ k, s.cmbQueue s.cur.ctx c u = some k → (s.ctx k).evFull = false)
    (hi : (s.pkg c.pkg).cmbFree c.site.die = some i) (hr : (s.pkg c.pkg).batchRoom c.site.die c.asid (wbits (c.rdG (a + 2)) 7 0) = true) :
    ∃ t c', exec (.cmbopen g d a) s = .next t ∧ t.ctx s.cur.ctx = c'
      ∧ Moved c c' (s.cohort c) (fun l => if l ∈ act then pushed (c.preds l) true else c.preds l)
      ∧ SameBytes s t ∧ t.units = s.units ∧ t.grids = s.grids
      ∧ (∀ j, j ≠ s.cur.ctx → t.ctx j = if s.cmbQueue s.cur.ctx c u = some j ∧ Sparse.find s.ctxs j ≠ none
          then { s.ctx j with evResv := (s.ctx j).evResv + 1 } else s.ctx j)
      ∧ c'.evResv = c.evResv + (if s.cmbQueue s.cur.ctx c u = some s.cur.ctx then 1 else 0)
      ∧ c'.v = c.v ∧ c'.rq = c.rq ∧ c'.fpflags = c.fpflags
      ∧ (∀ n, (t.pkg c.pkg).cmb n = if n = c.site.die * 4096 + i then s.openedSlot c a u i (s.cmbQueue s.cur.ctx c u) else (s.pkg c.pkg).cmb n)
      ∧ ∀ n, c'.rdG n = if n = d then ({ pkg := c.pkg, die := c.site.die, slot := i
                                         gen := (((s.pkg c.pkg).cmb (c.site.die * 4096 + i)).gen + 1) % 128 } : Handle).word else c.rdG n := by
  obtain ⟨r1, r2, r3, r4, r5, -⟩ := reserveIn_rest (s.hinted (.cmbopen g d a) act) (s.cmbQueue s.cur.ctx c u)
  have hf := reserveIn_find (s.hinted (.cmbopen g d a) act) (s.cmbQueue s.cur.ctx c u) (hinted_find h)
  have hctx := reserveIn_ctx (s.hinted (.cmbopen g d a) act) (s.cmbQueue s.cur.ctx c u)
  have hpk : ∀ p, ((s.hinted (.cmbopen g d a) act).reserveIn (s.cmbQueue s.cur.ctx c u)).pkg p = s.pkg p := fun p =>
    (show _ = (s.hinted (.cmbopen g d a) act).pkg p by unfold State.pkg; rw [r4, r5]).trans (hinted_pkg ..)
  have hrun := cmbopen_runs h hu hq hi hr
  generalize hR : (s.hinted (.cmbopen g d a) act).reserveIn (s.cmbQueue s.cur.ctx c u) = R at *
  rw [State.modCtx_modCtx] at hrun
  obtain ⟨e1, e2, e3, e4, e5, e6⟩ := depart_wrG_push s (.cmbopen g d a) (cohort_nodup s c) h.nodup
    ((c.begun (.cmbopen g d a) act).reserving (if s.cmbQueue s.cur.ctx c u = some s.cur.ctx then 1 else 0)) d
    ({ pkg := c.pkg, die := c.site.die, slot := i, gen := (((s.pkg c.pkg).cmb (c.site.die * 4096 + i)).gen + 1) % 128 } : Handle).word true
  have hb := begun_only c (.cmbopen g d a) act
  refine ⟨_, _, hrun, State.ctx_modCtx _ _ _ _ hf, fun l => ?_, ?_, r2.trans (hinted_units ..), r3.trans (hinted_grids ..), fun j hj => ?_, e1.trans ?_, e2.trans (begun_v ..),
    e3.trans (begun_rq ..), e4.trans (begun_flags ..), fun n => (takeCmb_cmb ..).trans (by rw [hpk]), fun n => (e5 n).trans ?_⟩
  · refine (e6 l).trans ?_
    rw [reserving_lane, begun_lane]
    by_cases hl : l ∈ s.cohort c
    · rw [if_pos hl, if_pos hl]
      rfl
    · rw [if_neg hl, if_neg hl, if_neg (fun hm => hl (h.mem hm))]
  · exact ((hinted_sameBytes s _ act).trans r1).trans (((SameBytes.modPkg _ _ _).trans (SameBytes.modPkg _ _ _)).trans (SameBytes.modCtx _ _ _))
  · rw [State.ctx_modCtx_ne _ _ _ _ hj]
    refine (hctx j).trans ?_
    rw [hinted_ctx_other hj, hinted_find_other s _ act hj]
  · rw [hb]
    rfl
  · rw [reserving_rdG, begun_rdG]

/-- The entry of a put. -/
theorem cmbput_queues {s : State} {g : Guard} {d a b : Nat} {c : Ctx} {act : List Nat} {o : Loc} (h : Issues s (.cmbput g d a b) c act)
    (ha : wbits (c.rdG b) 22 0 % 64 = 0) (hsp : wbits (c.rdG b) 31 30 < 2) (hz : wbits (c.rdG b) 29 23 = 0) (hn : (c.rdG a).toNat < 16) (hl : s.ctxLevel c < 3)
    (ho : s.fillPlace c (wbits (c.rdG b) 31 30) (wbits (c.rdG b) 22 0) (max 64 (s.cmbSlot (handleOf (c.rdG d))).width) = .ok o)
    (hp : s.podMember c.pkg (handleOf (c.rdG d)).pkg = true) (hu : (s.pkg (handleOf (c.rdG d)).pkg).dieUp (handleOf (c.rdG d)).die = true)
    (hr : s.noRoom c (some .copy) false 0 = none) :
    Queued (.cmbput g d a b) s s c 7 (some .copy) [] [c.rdG d, c.rdG a, c.rdG (b + 1), maskOf (s.cohort c)]
      [{ lane := act.headD 0, va := wbits (c.rdG b) 22 0, len := max 64 (s.cmbSlot (handleOf (c.rdG d))).width, align := 64 }] (fun _ => [o]) .none := by
  refine queued_of (u := s.hinted (.cmbput g d a b) act) (F := fun c' => c'.enqueue (some .copy) ((s.hinted (.cmbput g d a b) act).entryAs c' ((s.hinted (.cmbput g d a b) act).mkEntry (c.begun (.cmbput g d a b) act)
      (.cmbput g d a b) (act.headD 0) 7 (some .copy) [] [(act.headD 0, { va := wbits (c.rdG b) 22 0, len := max 64 (s.cmbSlot (handleOf (c.rdG d))).width, pages := [o] })]
      [c.rdG d, c.rdG a, c.rdG (b + 1), maskOf (s.cohort c)]))) h _ ((exec_cmbput_eq g d a b s).trans (oncePerIssue_eq ..)) (onceBody_eq h.some ?_ (fun _ _ _ => nofun)) rfl (hinted_find h)
    ((State.Walked.refl _).reaches_hinted) ⟨rfl, rfl, begun_nextId .., rfl, congrArg Issue.pc (State.hinted_cur ..), rfl, rfl, rfl, rfl⟩ ⟨fun r hr => ?_, fun l hl => ?_⟩
  · have hpk : (c.begun (.cmbput g d a b) act).pkg = c.pkg := by rw [begun_only]
    have hfill : ∀ sp x n, (s.hinted (.cmbput g d a b) act).fillPlace (c.begun (.cmbput g d a b) act) sp x n = s.fillPlace c sp x n := fun sp x n => by
      unfold State.fillPlace
      rw [hinted_coreStore, hinted_clusterMem]
    have hpod : ∀ p q, (s.hinted (.cmbput g d a b) act).podMember p q = s.podMember p q := fun p q => by
      unfold State.podMember
      rw [hinted_pkg]
    have hcoh : (s.hinted (.cmbput g d a b) act).cohort (c.begun (.cmbput g d a b) act) = s.cohort c := by
      unfold State.hinted Ctx.begun
      split <;> rfl
    simp only [begun_rdG, hinted_cmbSlot, hinted_ctxLevel, hfill, hpk, hpod, hinted_pkg, hcoh, hinted_noRoom]
    rw [if_neg (not_not.2 ha), if_neg (by omega), ho]
    dsimp only
    rw [if_neg (by simp [hp, hu]), hr, State.hinted_cur]
    rfl
  · obtain rfl := List.mem_singleton.1 hr
    exact ⟨{ va := wbits (c.rdG b) 22 0, len := max 64 (s.cmbSlot (handleOf (c.rdG d))).width, pages := [o] }, if_pos rfl, ⟨rfl, rfl, rfl, rfl, rfl, rfl, rfl⟩⟩
  · have := hl _ (List.mem_singleton.2 rfl)
    exact if_neg (Ne.symm this)

theorem combineOpensAndPuts : Claims.CombineOpensAndPuts := by
  refine ⟨fun h => handleOf_word, fun g d a s c act h => ⟨fun r hr hk => cmbopen_traps h hr hk, fun u hu hq => ⟨fun hf => ?_, fun i hi hr => ?_⟩⟩, ?_⟩
  · refine ⟨_, cmbopen_fails h hu hq hf, RegsOf.depart _ _ _ _ _ ((RegsOf.begun ..).trans (.pushAll _ _ _)), ?_, ?_, ?_, fun l => ?_⟩
    · rw [depart_v, pushAll_only]
      exact begun_v ..
    · rw [depart_g, pushAll_only]
      exact begun_g ..
    · rw [depart_flags, pushAll_only]
      exact begun_flags ..
    · rw [depart_lane _ _ _ (cohort_nodup s c), pushAll_lane act h.nodup, begun_lane]
      by_cases hl : l ∈ s.cohort c
      · rw [if_pos hl, if_pos hl]
        rfl
      · rw [if_neg hl, if_neg hl, if_neg (fun hm => hl (h.mem hm))]
  · obtain ⟨t, c', h1, h2, h3, h4, h5, h6, h7, h8, h9, h10, h11, h12, h13⟩ := cmbopen_opens h hu hq hi hr
    refine ⟨t, c', h1, h2, h3, h4, h5, h6, h7, h8.trans ?_, h9, h10, h11, (h12 _).trans (if_pos rfl), fun n hn => (h12 n).trans (if_neg hn), h13⟩
    by_cases hk : c.kind = .seq
    · rw [if_pos hk, if_pos (by rw [State.cmbQueue, if_pos hk])]
    · rw [if_neg hk]
  · intro g d a b s c act o h hd src n ha hsp hz hn hl ho hp hu hr
    exact cmbput_queues h ha hsp hz hn hl ho hp hu hr

/-- Settles O30: the opens and the puts that are issued, the waits and the closes, the puts that arrive, and the releases. -/
theorem combineUnit : Obligations.CombineUnit := ⟨combineOpensAndPuts, combineWaitsAndCloses, putsArrive, combineReleases⟩

end Sys2Proof.Machine
end

section
/-! Chunks of copies: `Claims.CopyChunksMove` says that a chunk is written wherever every access of its issuer travels when its
event begins. The translation of the chunk's unit side can take that away: it releases an open slot on a page-table entry that
it reads (R183), without which no slot of the ASID can give way to a shadow word's merge (R185), and the chunk waits. -/

namespace Sys2Proof.Machine

/-- A slot with nothing in it, open on the upper half of a page-table pointer. -/
def pointerSlot : RedSlot :=
  { site := 3, loc := .hbm 4100, acc := 0, nan := false, pinf := false, ninf := false, nz := false, asid := 0, grid := 0, used := 0 }
/-- A shadow word, whose merge can open a slot only if that one gives way. -/
def waitingWord : ShadowWord := { die := 0, key := 12288, asid := 0, grid := 0, op := .fadd, val := 0 }
/-- A package with both. An ASID may have one slot of a home unit, and a collective holds one of the unit of page 3; the walk
cache leads to the pointer. -/
def crowdedPackage : Package :=
  { regs := [(0x0440, 0x10001)], pins := [{ site := 3, asid := 0, pkg := 0, ix := 0, ch := 0, n := 1 }], slots := [pointerSlot]
    shadows := [waitingWord], walks := [{ die := 0, asid := 0, gen := 0, level := 2, va := 0, ppn := 1 }] }
/-- A chunk of four bytes for unit 0. -/
def shortChunk : Chunk := { len := 4, from' := 1 }
/-- A copy from address 0 to the store of a child. -/
def shortCopy : RqEntry :=
  { id := 0, ins := .mcopyDown .always 4 0 0 false, word := 0, pc := 0, hints := [], kind := 7, cls := some .copy, holds := [],
    caps := [], args := [], leader := 0, chunks := [shortChunk], pass := none, obj := .none, counted := 0 }
/-- The group that has issued it. -/
def copyingGroup : Ctx := { kind := .group, rq := [shortCopy] }
/-- The machine: the pointer at 4096 leads to the leaf at 8192, which maps page 0 to page 3. -/
def copyingMachine : State :=
  { ctxs := [(0, copyingGroup)], units := [(0, { level := 3, st := .running })], pkgs := [(0, crowdedPackage)]
    hbm := [(4096, 0x01), (4097, 0x08), (8192, 0xD7), (8193, 0x0C), (8199, 0x01)] }

/-- An outcome that is a next state. -/
def Out.goesOn (o : Out) : Bool := match o with | .next _ => true | _ => false

set_option maxRecDepth 20000 in
theorem copyingMachine_waits : (execCopyChunkWrite 0 0 0 copyingMachine).goesOn = false := by decide
set_option maxRecDepth 20000 in
theorem copyingMachine_merges : ((copyingMachine.mergeShadow 0 waitingWord).pkg 0).shadows = [] := by decide

/-- A merge of a span leaves all as it was, unless it touches the word, which it then merges. -/
theorem mergeSpan_copyingMachine (l : Loc) (n : Nat) : copyingMachine.mergeSpan 0 {} l n
    = match l with | .hbm k => if waitingWord.within {} k n then copyingMachine.mergeShadow 0 waitingWord else copyingMachine | _ => copyingMachine := by
  cases l with
  | hbm k =>
    show copyingMachine.mergeShadows 0 (fun y => y.within {} k n) = _
    unfold State.mergeShadows
    rw [show (copyingMachine.pkg 0).shadows = [waitingWord] from rfl, List.filter_cons]
    dsimp only
    split
    · rfl
    · rfl
  | _ => rfl
theorem mergeSpan_none {s : State} (h : (s.pkg 0).shadows = []) (l : Loc) (n : Nat) : s.mergeSpan 0 {} l n = s := by
  cases l <;> simp [State.mergeSpan, h]
/-- What merges of spans leave: all as it was, or no shadow word at all. -/
theorem mergeSpans_alternatives (l : List (Loc × Nat)) :
    l.foldl (fun s y => s.mergeSpan 0 {} y.1 y.2) copyingMachine = copyingMachine ∧ (∀ y ∈ l, ∀ k, y.1 = .hbm k → waitingWord.within {} k y.2 = false)
      ∨ ((l.foldl (fun s y => s.mergeSpan 0 {} y.1 y.2) copyingMachine).pkg 0).shadows = [] := by
  induction l using List.reverseRecOn with
  | nil => exact .inl ⟨rfl, fun _ h => nomatch h⟩
  | append_singleton l y ih =>
    rw [List.foldl_append, List.foldl_cons, List.foldl_nil]
    rcases ih with ⟨h1, h2⟩ | h
    · rw [h1, mergeSpan_copyingMachine]
      obtain ⟨o, n⟩ := y
      cases o with
      | hbm k =>
        dsimp only
        by_cases hw : waitingWord.within {} k n = true
        · rw [if_pos hw]
          exact .inr copyingMachine_merges
        · rw [if_neg hw]
          refine .inl ⟨rfl, fun z hz j hj => ?_⟩
          rcases List.mem_append.1 hz with hz | hz
          · exact h2 z hz j hj
          · obtain rfl := List.mem_singleton.1 hz
            cases hj
            simpa using hw
      | _ =>
        refine .inl ⟨rfl, fun z hz j hj => ?_⟩
        rcases List.mem_append.1 hz with hz | hz
        · exact h2 z hz j hj
        · obtain rfl := List.mem_singleton.1 hz
          cases hj
    · rw [mergeSpan_none h]
      exact .inr h

theorem copyingMachine_travels (l : List (Loc × Nat)) : copyingMachine.travels 0 {} l = true := by
  have hplane : ∀ i, (copyingMachine.pkg 0).planeOpen i = true := fun i => by
    have h0 : (copyingMachine.pkg 0).reg 0x0508 = 0 := by decide
    simp [Package.planeOpen, Package.fld, h0, bits]
  have hcarry : ∀ o n, copyingMachine.carries 0 o n = true := fun o n => by
    cases o <;> simp [State.carries, hplane]
  have hserve : ∀ o, copyingMachine.serves o = true := fun o => by
    cases o with
    | store u o =>
      have hu : (copyingMachine.unit u).pkg = 0 := by cases u <;> rfl
      unfold State.serves
      dsimp only
      rw [hu, State.clockRuns, show (copyingMachine.pkg 0).stopped = [] from rfl]
      simp [Sparse.find]
    | _ => rfl
  have hfree : copyingMachine.spansFree 0 {} l = true := by
    unfold State.spansFree
    rw [show (copyingMachine.pkg 0).shadows = [waitingWord] from rfl]
    rcases mergeSpans_alternatives l with ⟨h1, h2⟩ | h
    · dsimp only
      rw [h1, show (copyingMachine.pkg 0).shadows = [waitingWord] from rfl]
      simp only [Bool.or_eq_true]
      refine .inr (List.all_eq_true.2 fun y hy => ?_)
      obtain ⟨o, n⟩ := y
      cases o with
      | hbm k => simp [h2 _ hy k rfl]
      | _ => rfl
    · dsimp only
      rw [h]
      simp only [Bool.or_eq_true]
      refine .inr (List.all_eq_true.2 fun y hy => ?_)
      obtain ⟨o, n⟩ := y
      cases o <;> rfl
  unfold State.travels State.answered
  simp [hcarry, hserve, hfree]
  decide

/-- Refutes O29: every access of the group travels, and yet the chunk, which every other condition allows, waits. -/
theorem not_copyChunks : ¬ Obligations.CopyChunks := by
  rintro ⟨h, -⟩
  obtain ⟨t, ht⟩ := (h copyingMachine 0 0 0 copyingGroup shortCopy (copyDesc 4 false []) shortChunk 0 rfl rfl rfl rfl rfl rfl (by decide) (by decide)
    (by decide) (by decide) (by decide) rfl).1 copyingMachine_travels
  have := copyingMachine_waits
  rw [← exec_copyChunkWrite_eq, ht] at this
  exact Bool.noConfusion this

end Sys2Proof.Machine
end

section
/-! The issue of `MCOPY` (R252 to R255). -/

namespace Sys2Proof.Machine

/-! ### What the hints of an issue leave alone -/

section tables
variable {α : Type} (m : Sparse α) (k : Nat) (F : α → α) {p : α → Bool} (hp : ∀ x, p (F x) = p x)
include hp

/-- An entry changed in what no filter looks at: the same keys remain. -/
theorem filter_adjust_keys : ((Sparse.adjust m k F).filter (fun e => p e.2)).map (·.1) = (m.filter (fun e => p e.2)).map (·.1) := by
  induction m with
  | nil => rfl
  | cons e r ih =>
    unfold Sparse.adjust
    split
    · simp only [List.filter_cons, hp]
      split <;> rfl
    · simp only [List.filter_cons]
      split
      · exact congrArg (e.1 :: ·) ih
      · exact ih
/-- The same of a sum over the entries that remain. -/
theorem filter_adjust_sum {g : α → Nat} (hg : ∀ x, g (F x) = g x) (a : Nat) :
    ((Sparse.adjust m k F).filter (fun e => p e.2)).foldl (fun n e => n + g e.2) a = (m.filter (fun e => p e.2)).foldl (fun n e => n + g e.2) a := by
  induction m generalizing a with
  | nil => rfl
  | cons e r ih =>
    unfold Sparse.adjust
    split
    · simp only [List.filter_cons, hp]
      split
      · simp only [List.foldl_cons, hg]
      · rfl
    · simp only [List.filter_cons]
      split
      · exact ih _
      · exact ih _
end tables

section hints
variable (s : State) (i : Instr) (act : List Nat)

theorem hinted_childAt (u lvl n : Nat) : (s.hinted i act).childAt u lvl n = s.childAt u lvl n := by
  unfold State.hinted
  split
  · rfl
  · unfold State.childAt State.groupsOf
    split
    · simp only [List.filter_filter, ← List.getLast?_map]
      exact congrArg List.getLast? (filter_adjust_keys s.ctxs s.cur.ctx _ (p := fun c => decide (c.index = n) && (decide (c.kind = .group) && decide (c.unit = u))) (fun _ => rfl))
    · rfl
theorem hinted_childKept (lvl x : Nat) : (s.hinted i act).childKept lvl x = s.childKept lvl x := by
  unfold State.hinted
  split
  · rfl
  · unfold State.childKept
    by_cases hl : lvl = 1
    · rw [if_pos hl, if_pos hl, State.find_modCtx]
      by_cases hx : x = s.cur.ctx
      · subst hx
        rw [if_pos rfl]
        cases Sparse.find s.ctxs s.cur.ctx <;> rfl
      · rw [if_neg hx]
        cases Sparse.find s.ctxs x <;> rfl
    · rw [if_neg hl, if_neg hl]
      rfl
theorem begun_unit (c : Ctx) : (c.begun i act).unit = c.unit := by rw [begun_only]
theorem hinted_ownUnit (c : Ctx) (lvl : Nat) : (s.hinted i act).ownUnit (c.begun i act) lvl = s.ownUnit c lvl :=
  State.ownUnit_congr (hinted_units ..) (begun_unit ..) lvl
theorem hinted_copyBad (c : Ctx) (d : CopyDesc) : (s.hinted i act).copyBad (c.begun i act) d = s.copyBad c d := by
  unfold State.copyBad State.ownStore State.copyUnit State.dieStore
  simp only [hinted_gridOf, hinted_coreStore, hinted_clusterMem, hinted_objectRef, hinted_ownUnit, hinted_childAt, hinted_childKept, hinted_unit, begun_unit]
theorem hinted_copiesQueued (c : Ctx) : (s.hinted i act).copiesQueued (c.begun i act) = s.copiesQueued c := by
  have hb : (c.begun i act).pkg = c.pkg ∧ (c.begun i act).site = c.site := by rw [begun_only]; exact ⟨rfl, rfl⟩
  have hl : ∀ x, (s.hinted i act).ctxLevel x = s.ctxLevel x := fun x => by unfold State.ctxLevel; rw [hinted_unit]
  have hc : s.ctxLevel (c.begun i act) = s.ctxLevel c := by rw [begun_only]; rfl
  unfold State.copiesQueued
  simp only [hl, hb.1, hb.2, hc]
  unfold State.hinted
  split
  · rfl
  · exact filter_adjust_sum s.ctxs s.cur.ctx (fun c => c.schedule act)
      (p := fun x => decide (x.pkg = c.pkg) && decide (x.site = c.site) && decide (min 4 (max 1 (s.ctxLevel x)) = min 4 (max 1 (s.ctxLevel c)))) (fun _ => rfl)
      (g := fun x => (x.rq.filter (fun e => e.copy.isSome)).length) (fun _ => rfl) 0
end hints

/-! ### The chunks of a copy -/

/-- A chunk of a child's range, its number below that of the chunks. -/
theorem mem_childChunks {child len f : Nat} {ch : Chunk} (h : ch ∈ childChunks child len f) :
    ch.st = 0 ∧ ch.parked = 0 ∧ 0 < ch.len ∧ ch.len ≤ 4096 ∧ ch.off + ch.len ≤ len ∧ ch.child = child := by
  obtain ⟨j, hj, rfl⟩ := List.mem_map.1 h
  rw [List.mem_range, chunkBytes] at hj
  refine ⟨rfl, rfl, ?_, ?_, ?_, rfl⟩ <;> simp only [chunkBytes] <;> omega
/-- One chunk of a range holds a byte of it. -/
theorem childChunks_cover {len b : Nat} (hb : b < len) (child f : Nat) :
    (childChunks child len f).countP (fun ch => decide (ch.child = child) && decide (ch.off ≤ b) && decide (b < ch.off + ch.len)) = 1 := by
  have hj : ∀ j ∈ List.range ((len + chunkBytes - 1) / chunkBytes),
      ((fun ch : Chunk => decide (ch.child = child) && decide (ch.off ≤ b) && decide (b < ch.off + ch.len)) ∘ fun j =>
        ({ child := child, off := chunkBytes * j, len := min chunkBytes (len - chunkBytes * j), from' := f } : Chunk)) j = true ↔ (j == b / 4096) = true := by
    intro j _
    simp only [Function.comp_apply, chunkBytes, decide_true, Bool.true_and, Bool.and_eq_true, decide_eq_true_eq, beq_iff_eq]
    omega
  unfold childChunks
  rw [List.countP_map, List.countP_congr hj]
  refine List.count_eq_one_of_mem List.nodup_range (List.mem_range.2 ?_)
  rw [chunkBytes]
  omega
/-- What one list of several alone holds, once, all of them hold once. -/
theorem countP_flatMap_one {α β : Type} {P : β → Bool} {f : α → List β} {a : α} :
    ∀ {l : List α}, l.Nodup → a ∈ l → (f a).countP P = 1 → (∀ x ∈ l, x ≠ a → ∀ y ∈ f x, P y = false) → (l.flatMap f).countP P = 1
  | b :: r, hn, ha, h1, h0 => by
    obtain ⟨hb, hr⟩ := List.nodup_cons.1 hn
    rw [List.flatMap_cons, List.countP_append]
    by_cases e : b = a
    · subst e
      have : (r.flatMap f).countP P = 0 := List.countP_eq_zero.2 (fun y hy => by
        obtain ⟨x, hx, hy⟩ := List.mem_flatMap.1 hy
        simp [h0 x (List.mem_cons_of_mem _ hx) (fun e => hb (e ▸ hx)) y hy])
      omega
    · have : (f b).countP P = 0 := List.countP_eq_zero.2 (fun y hy => by simp [h0 b List.mem_cons_self e y hy])
      have := countP_flatMap_one hr ((List.mem_cons.1 ha).resolve_left (Ne.symm e)) h1 (fun x hx => h0 x (List.mem_cons_of_mem _ hx))
      omega
/-- The chunks of all children of a copy. -/
def CopyDesc.allChunks (d : CopyDesc) (whose : Nat → Nat) : List Chunk :=
  (List.range d.count).flatMap (fun n => childChunks (d.first + n) d.len (whose (d.first + n)))
theorem mem_allChunks {d : CopyDesc} {whose : Nat → Nat} {ch : Chunk} (h : ch ∈ d.allChunks whose) :
    ch.st = 0 ∧ ch.parked = 0 ∧ 0 < ch.len ∧ ch.len ≤ 4096 ∧ ch.off + ch.len ≤ d.len ∧ d.first ≤ ch.child ∧ ch.child < d.first + d.count := by
  obtain ⟨n, hn, hm⟩ := List.mem_flatMap.1 h
  obtain ⟨h1, h2, h3, h4, h5, h6⟩ := mem_childChunks hm
  have := List.mem_range.1 hn
  exact ⟨h1, h2, h3, h4, h5, by omega, by omega⟩
theorem allChunks_cover {d : CopyDesc} {n b : Nat} (hn : n < d.count) (hb : b < d.len) (whose : Nat → Nat) :
    (d.allChunks whose).countP (fun ch => decide (ch.child = d.first + n) && decide (ch.off ≤ b) && decide (b < ch.off + ch.len)) = 1 := by
  refine countP_flatMap_one List.nodup_range (List.mem_range.2 hn) (childChunks_cover hb _ _) (fun x _ hx y hy => ?_)
  obtain ⟨-, -, -, -, -, h6⟩ := mem_childChunks hy
  have : ¬ y.child = d.first + n := by omega
  simp [this]

/-! ### The issue -/

/-- The state in which a copy is queued: one that releases has released. -/
def State.copyFrom (s : State) (i : Instr) (c : Ctx) (act : List Nat) (lvl : Nat) (r : Bool) : State :=
  if r then (s.hinted i act).release (c.begun i act) lvl else s.hinted i act
theorem copyFrom_rest (s : State) (i : Instr) (c : Ctx) (act : List Nat) (lvl : Nat) (r : Bool) :
    (s.copyFrom i c act lvl r).ctxs = (s.hinted i act).ctxs ∧ (s.copyFrom i c act lvl r).cur = s.cur ∧ (s.copyFrom i c act lvl r).grids = s.grids
      ∧ (r = false ∨ s.NoSlots → SameBytes s (s.copyFrom i c act lvl r)) := by
  cases r with
  | false => exact ⟨rfl, State.hinted_cur .., hinted_grids .., fun _ => hinted_sameBytes s i act⟩
  | true =>
    have h := (State.Homes.refl (s.hinted i act)).release (c.begun i act) lvl
    exact ⟨h.ctxs, (congrArg State.cur h.rest).trans (State.hinted_cur ..), h.grids.trans (hinted_grids ..),
      fun hq => (hinted_sameBytes s i act).trans (released_calm (hq.resolve_left (by decide)) i c act lvl).sameBytes⟩
/-- The entry of a copy. -/
def State.copyEntry (s : State) (c : Ctx) (i : Instr) (l : Nat) (args : List Word) (chs : List Chunk) (o : Loc) : RqEntry :=
  { s.mkEntry c i l 7 (some .copy) [] [(l, {})] args with chunks := chs, obj := o }

section issue
variable {s : State} {i : Instr} {c : Ctx} {act : List Nat} {lvl x y : Nat} {up r : Bool} (h : Issues s i c act)
include h

theorem mcopy_runs {o : Loc} (h0 : 0 < lvl) (hl : lvl ≤ s.rootLvl c) (hk : c.kind = .seq → lvl = s.ctxLevel c ∧ c.evFull = false)
    (hb : s.copyBad c (copyDesc lvl up ((List.range 8).map (fun j => c.rdG (x + j)))) = none) (ho : r = true → s.Ordered c act lvl)
    (hq : s.copiesQueued c < 32) (hn : s.noRoom c (some .copy) false 0 = none)
    (hobj : if (copyDesc lvl up ((List.range 8).map (fun j => c.rdG (x + j)))).counts
      then s.objectRef c ((copyDesc lvl up ((List.range 8).map (fun j => c.rdG (x + j)))).ref.toNat % 2 ^ 25) = .ok o else o = .none) :
    ∃ (u : State) (whose : Nat → Nat), mcopy i lvl up x y r (s.hinted i act) (c.begun i act) (act.headD 0) act
      = .ok (((s.copyFrom i c act lvl r).reserveIn (if c.kind = .seq then some s.cur.ctx else none)).addEntry s.cur.ctx
          (u.copyEntry (c.begun i act) i (act.headD 0) ((List.range 8).map (fun j => c.rdG (x + j)) ++ [c.rdG y, 0])
            ((copyDesc lvl up ((List.range 8).map (fun j => c.rdG (x + j)))).allChunks whose) o)) ∧ u.cur = s.cur := by
  have hkd : (c.begun i act).kind = c.kind ∧ (c.begun i act).evFull = c.evFull := by rw [begun_only]; exact ⟨rfl, rfl⟩
  obtain ⟨-, hcur, -, -⟩ := copyFrom_rest s i c act lvl r
  have hcur' : ((s.copyFrom i c act lvl r).reserveIn (if c.kind = .seq then some s.cur.ctx else none)).cur = s.cur :=
    (reserveIn_rest _ _).2.2.2.2.2.trans hcur
  generalize hd : copyDesc lvl up ((List.range 8).map (fun j => c.rdG (x + j))) = d at *
  refine ⟨(s.copyFrom i c act lvl r).reserveIn (if c.kind = .seq then some s.cur.ctx else none), fun n => if d.up then
    (match ((s.copyFrom i c act lvl r).reserveIn (if c.kind = .seq then some s.cur.ctx else none)).childAt
      (((s.copyFrom i c act lvl r).reserveIn (if c.kind = .seq then some s.cur.ctx else none)).copyUnit (c.begun i act) d) lvl n with | some x => x + 1 | none => 0) else 0, ?_, hcur'⟩
  have hgo : ∀ (u : State), u.cur = s.cur → (if c.kind = .seq then u.reserveEv u.cur.ctx else u) = u.reserveIn (if c.kind = .seq then some s.cur.ctx else none) := by
    intro u hu
    rw [hu]
    split <;> rfl
  have hX : (if d.counts then s.objectRef c (d.ref.toNat % 2 ^ 25) else .ok .none) = .ok o := by
    by_cases hc : d.counts = true
    · rw [if_pos hc] at hobj ⊢
      exact hobj
    · rw [if_neg hc] at hobj ⊢
      rw [hobj]
  unfold mcopy
  simp only [begun_rdG, hd, hinted_rootLvl, hinted_ctxLevel, hinted_copyBad, hinted_objectRef, hinted_copiesQueued, hinted_noRoom, hkd.1, hkd.2, hb]
  have hl' : ¬ (lvl = 0 ∨ s.rootLvl c < lvl ∨ c.kind = .seq ∧ lvl ≠ s.ctxLevel c) := by
    rintro (h' | h' | ⟨h1, h2⟩)
    · omega
    · omega
    · exact h2 (hk h1).1
  have hf : ¬ (c.kind = .seq ∧ c.evFull = true) := fun ⟨h1, h2⟩ => by simp [(hk h1).2] at h2
  rw [if_neg hl', hX]
  dsimp only
  rw [if_neg hf, if_neg (by omega), hn]
  dsimp only
  cases r with
  | false =>
    have hc : ((s.hinted i act).reserveIn (if c.kind = .seq then some s.cur.ctx else none)).cur = s.cur := hcur'
    rw [if_neg (by decide)]
    simp only [hgo _ (State.hinted_cur s i act), hc]
    rfl
  | true =>
    have hc : (((s.hinted i act).release (c.begun i act) lvl).reserveIn (if c.kind = .seq then some s.cur.ctx else none)).cur = s.cur := hcur'
    have hc0 : ((s.hinted i act).release (c.begun i act) lvl).cur = s.cur := hcur
    rw [if_pos rfl, releasingOnce_now (ho rfl)]
    simp only [hgo _ hc0, hc]
    rfl
end issue

theorem begun_reserving (c : Ctx) (i : Instr) (act : List Nat) (n : Nat) : (c.begun i act).reserving n = (c.reserving n).begun i act := by
  unfold Ctx.begun
  split <;> rfl
/-- What the issue of a copy leaves of its context. -/
theorem depart_enqueue_reserving (s : State) (i : Instr) (coh act : List Nat) (c : Ctx) (n : Nat) (cls : Option CClass) (e : RqEntry) :
    let c' := s.depart i coh (((c.begun i act).reserving n).enqueue cls e)
    c' = { c.countIssue cls with lanes := c'.lanes, rq := c.rq ++ [e], nextId := c.nextId + 1, evResv := c.evResv + n, yld := c'.yld, prio := c'.prio
                                 misses := c'.misses, hold := none, withdrawn := false, missAt := none } := by
  rw [begun_reserving]
  refine (depart_enqueue s i coh act (c.reserving n) cls e).trans ?_
  cases cls <;> rfl
theorem copiesIssue_of {s : State} {i : Instr} {c : Ctx} {act : List Nat} {lvl x y : Nat} {up r : Bool} (h : Issues s i c act)
    (hx : exec i s = oncePerIssue i s (fun s c l act => mcopy i lvl up x y r s c l act))
    {ws : List Word} (hws : (List.range 8).map (fun j => c.rdG (x + j)) = ws) {d : CopyDesc} (hd : copyDesc lvl up ws = d)
    (h0 : 0 < lvl) (hl : lvl ≤ s.rootLvl c) (hk : c.kind = .seq → lvl = s.ctxLevel c ∧ c.evFull = false)
    (hb : s.copyBad c d = none) (ho : r = true → s.Ordered c act lvl) (hq : s.copiesQueued c < 32) (hn : s.noRoom c (some .copy) false 0 = none) {o : Loc}
    (hobj : if d.counts then s.objectRef c (d.ref.toNat % 2 ^ 25) = .ok o else o = .none) :
    ∃ t c' e whose, exec i s = .next t ∧ t.ctx s.cur.ctx = c' ∧ Moved c c' (s.cohort c) c.preds ∧ (r = false ∨ s.NoSlots → SameBytes s t) ∧ t.grids = s.grids
      ∧ (∀ j, j ≠ s.cur.ctx → t.ctx j = s.ctx j)
      ∧ e.ins = i ∧ e.pc = s.cur.pc ∧ e.kind = 7 ∧ e.cls = some .copy ∧ e.holds = [] ∧ e.obj = o ∧ e.args = ws ++ [c.rdG y, 0]
      ∧ e.id = c.nextId ∧ e.leader = act.headD 0 ∧ e.chunks = d.allChunks whose
      ∧ c' = { c.countIssue (some .copy) with
                      lanes := c'.lanes, rq := c.rq ++ [e], nextId := c.nextId + 1, evResv := c.evResv + (if c.kind = .seq then 1 else 0)
                      yld := c'.yld, prio := c'.prio, misses := c'.misses, hold := none, withdrawn := false, missAt := none } := by
  subst hws hd
  obtain ⟨u, whose, hm, hu⟩ := mcopy_runs (y := y) h h0 hl hk hb ho hq hn hobj
  obtain ⟨f1, f2, f3, f4⟩ := copyFrom_rest s i c act lvl r
  have hrun := hx.trans (once_ok h _ hm)
  have hres : (if (if c.kind = .seq then some s.cur.ctx else none) = some s.cur.ctx then 1 else 0) = (if c.kind = .seq then 1 else 0) := by
    by_cases hc : c.kind = .seq <;> simp [hc]
  have hfind := reserveIn_find (s.copyFrom i c act lvl r) (if c.kind = .seq then some s.cur.ctx else none) (j := s.cur.ctx) ((congrArg (fun m => Sparse.find m _) f1).trans (hinted_find h))
  rw [hres] at hfind
  obtain ⟨r1, -, r3, -⟩ := reserveIn_rest (s.copyFrom i c act lvl r) (if c.kind = .seq then some s.cur.ctx else none)
  have hother : ∀ j, j ≠ s.cur.ctx → ((s.copyFrom i c act lvl r).reserveIn (if c.kind = .seq then some s.cur.ctx else none)).ctx j = s.ctx j := fun j hj => by
    rw [reserveIn_ctx, if_neg, State.ctx, f1]
    · exact hinted_ctx_other hj
    · rintro ⟨hc, -⟩
      split at hc
      · exact hj (Option.some.inj hc).symm
      · cases hc
  generalize (s.copyFrom i c act lvl r).reserveIn (if c.kind = .seq then some s.cur.ctx else none) = R at *
  generalize (if c.kind = .seq then 1 else 0) = n at *
  refine ⟨_, _, R.entryAs ((c.begun i act).reserving n) (u.copyEntry (c.begun i act) i (act.headD 0) ((List.range 8).map (fun j => c.rdG (x + j)) ++ [c.rdG y, 0])
    ((copyDesc lvl up ((List.range 8).map (fun j => c.rdG (x + j)))).allChunks whose) o), whose, hrun, (congrArg (fun t : State => t.ctx s.cur.ctx) (State.modCtx_modCtx ..)).trans (State.ctx_modCtx _ _ _ _ hfind), fun l => ?_, fun hr => ?_, r3.trans f3, fun j hj => ?_,
    rfl, congrArg Issue.pc hu, rfl, rfl, rfl, rfl, rfl, begun_nextId .., rfl, rfl, ?_⟩
  · have hF : (((c.begun i act).reserving n).enqueue (some .copy) (R.entryAs ((c.begun i act).reserving n) (u.copyEntry (c.begun i act) i (act.headD 0)
        ((List.range 8).map (fun j => c.rdG (x + j)) ++ [c.rdG y, 0]) ((copyDesc lvl up ((List.range 8).map (fun j => c.rdG (x + j)))).allChunks whose) o))).lane l
          = c.lane l := (enqueue_lane ..).trans ((reserving_lane ..).trans (begun_lane ..))
    refine (depart_lane _ _ _ (cohort_nodup s c) _ l).trans ?_
    exact congrArg (fun z : Lane => if l ∈ s.cohort c then z.onward else z) hF
  · exact ((f4 hr).trans r1).trans ((SameBytes.modCtx _ _ _).trans (SameBytes.modCtx _ _ _))
  · exact (State.ctx_modCtx_ne _ _ _ _ hj).trans ((State.ctx_modCtx_ne _ _ _ _ hj).trans (hother j hj))
  · exact depart_enqueue_reserving s i (s.cohort c) act c n (some .copy) _

/-- Settles O28: the descriptor's checks pass in the state whose hints are taken, and the chunks cover each child's range. -/
theorem copiesIssue : Obligations.CopiesIssue := by
  intro up g lvl x y r s c act i h ws d h0 hl hk hb ho hq hn o hobj
  have hx : exec i s = oncePerIssue i s (fun s c l act => mcopy i lvl up x y r s c l act) := by
    cases up
    · exact exec_mcopyDown_eq ..
    · exact exec_mcopyUp_eq ..
  obtain ⟨t, c', e, whose, h1, h2, h3, h4, h5, h6, e1, e2, e3, e4, e5, e6, e7, e8, e9, e10, h7⟩ := copiesIssue_of h hx rfl rfl h0 hl hk hb ho hq hn hobj
  refine ⟨t, c', e, h1, h2, h3, h4, h5, h6, e1, e2, e3, e4, e5, e6, e7, e8, e9, fun ch hc => mem_allChunks (e10 ▸ hc), fun n b hn hb => ?_, h7⟩
  rw [e10]
  exact allChunks_cover hn hb whose

end Sys2Proof.Machine
end

section
/-! Collectives and layouts: their issue, the layouts that descriptors become, and tickets (R266, R267, R274). -/

namespace Sys2Proof.Machine

/-! ### Tickets -/

section ticket
variable {s : State} {g : Guard} {d a : Nat} {c : Ctx} {act : List Nat}

theorem hinted_collStatus (s : State) (i : Instr) (c : Ctx) (act : List Nat) (t : Word) : (s.hinted i act).collStatus (c.begun i act) t = s.collStatus c t := by
  unfold State.hinted Ctx.begun; split <;> rfl
theorem collStatus_eq (s : State) (c : Ctx) (t : Word) : s.collStatus c t =
    if ((s.pkg c.pkg).collAt (wbits t 31 24)).gen ≠ wbits t 23 16 ∨ (((s.pkg c.pkg).collAt (wbits t 31 24)).used = false ∧ ((s.pkg c.pkg).collAt (wbits t 31 24)).doneFlag = false) then 2
    else BitVec.ofNat 32 (((s.pkg c.pkg).collAt (wbits t 31 24)).status * 2 ^ 16 + ((s.pkg c.pkg).collAt (wbits t 31 24)).exch * 2 ^ 12
      + if ((s.pkg c.pkg).collAt (wbits t 31 24)).doneFlag then 1 else 0) := by
  unfold State.collStatus
  simp only [not_or, Bool.not_eq_true]
theorem collwait_returns (h : Issues s (.collwait g d a) c act) (hr : collReady (s.collStatus c (c.rdG a)) = true) :
    ∃ t c', Acts (.collwait g d a) s c t c' c.preds ∧ SameBytes s t ∧ OnlyRegs c c' ∧ c'.v = c.v
      ∧ ∀ n, c'.rdG n = if n = d then s.collStatus c (c.rdG a) else c.rdG n := by
  have he := State.acquire_only (s.hinted (.collwait g d a) act) (c.begun (.collwait g d a) act) 5
  obtain ⟨w1, w2, w3⟩ := depart_wrG s (.collwait g d a) c act d (s.collStatus c (c.rdG a))
  refine ⟨_, _, acts_of_gate h _ ((exec_collwait_eq g d a s).trans (oncePerIssue_eq ..)) (t := (s.hinted (.collwait g d a) act).acquire (c.begun (.collwait g d a) act) 5)
    (by rw [he]) (by rw [he]; exact hinted_grids ..) (fun c' => c'.wrG d (s.collStatus c (c.rdG a))) (onceBody_eq h.some ?_ (fun _ _ _ => nofun)) _ (fun l => ?_), ?_, w1, w2, w3⟩
  · dsimp only
    rw [begun_rdG, hinted_collStatus, if_pos hr, State.hinted_cur]
  · rw [Ctx.lane, Ctx.wrG_lanes]
    exact (begun_lane ..).trans (by simp [Ctx.preds])
  · exact ((hinted_sameBytes s _ act).trans (State.acquire_sameBytes _ (c.begun _ act) 5)).trans (.modCtx _ _ _)
theorem collwait_waits (h : Issues s (.collwait g d a) c act) (hr : collReady (s.collStatus c (c.rdG a)) = false) :
    Waits (.collwait g d a) s c act (s.hinted (.collwait g d a) act) (.ticket (wbits (c.rdG a) 31 24) (wbits (c.rdG a) 23 16) d) := by
  refine (exec_collwait_eq g d a s).trans (once_wait h _ ?_)
  dsimp only
  rw [begun_rdG, hinted_collStatus]
  exact if_neg (by simp [hr])
theorem collq_returns (h : Issues s (.collq g d a) c act) :
    ∃ t c', Acts (.collq g d a) s c t c' (fun l => if l ∈ act then pushed (c.preds l) ((s.collStatus c (c.rdG a)).getLsbD 0) else c.preds l)
      ∧ SameBytes s t ∧ OnlyRegs c c' ∧ c'.v = c.v ∧ ∀ n, c'.rdG n = if n = d then s.collStatus c (c.rdG a) else c.rdG n := by
  have he := State.acquire_only (s.hinted (.collq g d a) act) (c.begun (.collq g d a) act) 5
  generalize hw : s.collStatus c (c.rdG a) = w
  have ht : (if w.getLsbD 0 then (s.hinted (.collq g d a) act).acquire (c.begun (.collq g d a) act) 5 else s.hinted (.collq g d a) act).ctxs = (s.hinted (.collq g d a) act).ctxs
      ∧ (if w.getLsbD 0 then (s.hinted (.collq g d a) act).acquire (c.begun (.collq g d a) act) 5 else s.hinted (.collq g d a) act).grids = s.grids
      ∧ (if w.getLsbD 0 then (s.hinted (.collq g d a) act).acquire (c.begun (.collq g d a) act) 5 else s.hinted (.collq g d a) act).cur = s.cur
      ∧ SameBytes s (if w.getLsbD 0 then (s.hinted (.collq g d a) act).acquire (c.begun (.collq g d a) act) 5 else s.hinted (.collq g d a) act) := by
    by_cases hb : w.getLsbD 0 = true
    · rw [if_pos hb]
      exact ⟨by rw [he], by rw [he]; exact hinted_grids .., by rw [he]; exact State.hinted_cur .., (hinted_sameBytes s _ act).trans (State.acquire_sameBytes _ (c.begun _ act) 5)⟩
    · rw [if_neg hb]
      exact ⟨rfl, hinted_grids .., State.hinted_cur .., hinted_sameBytes s _ act⟩
  obtain ⟨t1, t2, t3, t4⟩ := ht
  obtain ⟨-, e2, -, -, e5, -⟩ := depart_wrG_push s (.collq g d a) (cohort_nodup s c) h.nodup (c.begun (.collq g d a) act) d w (w.getLsbD 0)
  refine ⟨_, _, acts_of_gate h _ ((exec_collq_eq g d a s).trans (oncePerIssue_eq ..)) t1 t2 (fun c' => (c'.wrG d w).pushAll act (w.getLsbD 0)) (onceBody_eq h.some ?_ (fun _ _ _ => nofun)) _ (fun l => ?_),
    t4.trans (.modCtx _ _ _), RegsOf.depart _ _ _ _ _ (((RegsOf.begun ..).trans (.wrG _ _ _)).trans (.pushAll _ _ _)), e2.trans (begun_v ..), fun n => (e5 n).trans (by rw [begun_rdG])⟩
  · dsimp only
    rw [begun_rdG, hinted_collStatus, hw, t3]
  · rw [pushAll_lane act h.nodup]
    have : ((c.begun (.collq g d a) act).wrG d w).lane l = c.lane l := begun_lane ..
    rw [this]
    by_cases hl : l ∈ s.cohort c
    · simp [hl, Ctx.preds]
    · have : l ∉ act := fun hm => hl (h.mem hm)
      simp [hl, this]
end ticket
theorem ticketsAnswer (g : Guard) (d a : Nat) (s : State) (c : Ctx) (act : List Nat) : let x := (s.pkg c.pkg).collAt (wbits (c.rdG a) 31 24)
    let w : Word := if x.gen ≠ wbits (c.rdG a) 23 16 ∨ (x.used = false ∧ x.doneFlag = false) then 2
      else BitVec.ofNat 32 (x.status * 2 ^ 16 + x.exch * 2 ^ 12 + if x.doneFlag then 1 else 0)
    (Issues s (.collq g d a) c act → ∃ t c', Acts (.collq g d a) s c t c' (fun l => if l ∈ act then pushed (c.preds l) (w.getLsbD 0) else c.preds l)
        ∧ SameBytes s t ∧ OnlyRegs c c' ∧ c'.v = c.v ∧ ∀ n, c'.rdG n = if n = d then w else c.rdG n)
      ∧ (Issues s (.collwait g d a) c act →
          ((w.getLsbD 0 || w.getLsbD 1) = true → ∃ t c', Acts (.collwait g d a) s c t c' c.preds ∧ SameBytes s t ∧ OnlyRegs c c'
            ∧ c'.v = c.v ∧ ∀ n, c'.rdG n = if n = d then w else c.rdG n)
          ∧ ((w.getLsbD 0 || w.getLsbD 1) = false → Waits (.collwait g d a) s c act (s.hinted (.collwait g d a) act)
            (.ticket (wbits (c.rdG a) 31 24) (wbits (c.rdG a) 23 16) d))) := by
  intro x w
  have hw : s.collStatus c (c.rdG a) = w := collStatus_eq ..
  clear_value w
  subst hw
  exact ⟨collq_returns, fun h => ⟨collwait_returns h, collwait_waits h⟩⟩

/-! ### The issue of `COLL` -/

section coll
variable (s : State) (i : Instr) (c : Ctx) (act : List Nat)
theorem hinted_layoutAt (n : Nat) : (s.hinted i act).layoutAt (c.begun i act) n = s.layoutAt c n := by
  have hb : (c.begun i act).kind = c.kind ∧ (c.begun i act).pkg = c.pkg ∧ (c.begun i act).grid = c.grid := by rw [begun_only]; exact ⟨rfl, rfl, rfl⟩
  unfold State.layoutAt
  rw [hb.1, hb.2.1, hb.2.2, hinted_pkg]
theorem hinted_memberOf (y : Layout) : (s.hinted i act).memberOf y (c.begun i act) = s.memberOf y c := by
  unfold State.hinted Ctx.begun; split <;> rfl
theorem hinted_stagingOf (p asid : Nat) : (s.hinted i act).stagingOf p asid = s.stagingOf p asid := by
  unfold State.stagingOf
  rw [hinted_pkg, hinted_withCtxs, State.withCtxs_asidEntry]
theorem hinted_collDesc (op : CollOp) (a : Nat) : (s.hinted i act).collDesc (c.begun i act) op a = s.collDesc c op a := by
  have hb : (c.begun i act).pkg = c.pkg ∧ (c.begun i act).asid = c.asid := by rw [begun_only]; exact ⟨rfl, rfl⟩
  unfold State.collDesc
  simp only [begun_rdG, hb.1, hb.2, hinted_layoutAt, hinted_memberOf, hinted_stagingOf]
theorem hinted_areaUnit (area n : Nat) : (s.hinted i act).areaUnit (c.begun i act) area n = s.areaUnit c area n := by
  unfold State.hinted Ctx.begun; split <;> rfl
end coll

/-- The entry of the collective table that an issue fills. -/
def State.collTaken (s : State) (c : Ctx) (op : CollOp) (a ix : Nat) (y : CollDesc) : CollEnt :=
  { gen := (((s.pkg c.pkg).collAt ix).gen + 1) % 256, used := true, op := op, grid := c.grid, asid := c.asid, ctx := s.cur.ctx
    entry := c.nextId, th := c.rdG (a + 1)
    seq := Sparse.get 0 (s.pkg c.pkg).collSeq (seqKey c.grid (c.rdG (a + 1)) y.src.lvl1 (y.src.first + y.member)) + 1
    member := y.member, src := y.src, dst := y.dst, ty := y.ty
    first := y.first, final := y.final, area := y.area, exch := exchange op y.src y.dst }
/-- A package in which a ticket has been taken. -/
def Package.takeTicket (p : Package) (ix key n : Nat) (x : CollEnt) (f : OvChunk → Bool) : Package :=
  { p with coll := Sparse.set {} p.coll ix x, collNext := (ix + 1) % 256, collSeq := Sparse.set 0 p.collSeq key n
           overflow := p.overflow.filter f }
theorem takeTicket_coll (p : Package) (ix key n : Nat) (x : CollEnt) (f : OvChunk → Bool) (m : Nat) :
    (p.takeTicket ix key n x f).collAt m = if m = ix then x else p.collAt m := Sparse.get_set ..

/-- What an issue that reserves a record's place and queues an entry leaves alone. -/
theorem enqueue_reserving_fields (c : Ctx) (i : Instr) (act : List Nat) (m : Nat) (cls : Option CClass) (e : RqEntry) :
    let x := ((c.begun i act).reserving m).enqueue cls e
    x.evResv = c.evResv + m ∧ x.v = c.v ∧ x.rq = c.rq ++ [e] ∧ x.fpflags = c.fpflags ∧ (∀ k, x.rdG k = c.rdG k) ∧ ∀ l, x.lane l = c.lane l := by
  have h : (c.begun i act).evResv = c.evResv ∧ (c.begun i act).v = c.v ∧ (c.begun i act).rq = c.rq ∧ (c.begun i act).fpflags = c.fpflags
      ∧ (∀ k, (c.begun i act).rdG k = c.rdG k) ∧ ∀ l, (c.begun i act).lane l = c.lane l :=
    ⟨by rw [begun_only], by rw [begun_only], begun_rq .., begun_flags .., fun k => begun_rdG .., fun l => begun_lane ..⟩
  obtain ⟨h1, h2, h3, h4, h5, h6⟩ := h
  have hk : ∀ b : Ctx, let x := (b.reserving m).enqueue cls e
      x.evResv = b.evResv + m ∧ x.v = b.v ∧ x.rq = b.rq ++ [e] ∧ x.fpflags = b.fpflags ∧ (∀ k, x.rdG k = b.rdG k) ∧ ∀ l, x.lane l = b.lane l := by
    intro b
    cases cls <;> exact ⟨rfl, rfl, rfl, rfl, fun _ => rfl, fun _ => rfl⟩
  rw [← h1, ← h2, ← h3, ← h4]
  simp only [← h5, ← h6]
  exact hk _

section issue
variable {s : State} {g : Guard} {d a : Nat} {op : CollOp} {c : Ctx} {act : List Nat} (h : Issues s (.coll g d a op) c act) (hv : c.kind = .seq → c.evFull = false)
include h hv

theorem coll_checked : ¬ ((c.begun (.coll g d a op) act).kind = .seq ∧ (c.begun (.coll g d a op) act).evFull = true) := by
  rw [begun_only]
  exact fun ⟨h1, h2⟩ => by
    have := hv h1
    simp only [Ctx.evFull] at this h2
    rw [h2] at this
    cases this
theorem coll_traps (hd : s.collDesc c op a = none) (hk : c.kind ≠ .handler) : Traps (.coll g d a op) s 0x0F [act.headD 0] 0 := by
  refine (exec_coll_eq g d a op s).trans (once_trap h hk _ ?_)
  rw [if_neg (coll_checked h hv), hinted_collDesc, hd]
variable {y : CollDesc} (hd : s.collDesc c op a = some y)
  (ha : op = .sumAccum → y.area % 2 ^ 29 % 64 = 0 ∧ (s.areaUnit c y.area (48 * (y.dst.bytes y.member / y.dst.esz))).isSome = true)
include hd ha
theorem coll_issues {e : Eff} (he : collIssue (.coll g d a op) op d a (s.hinted (.coll g d a op) act) (c.begun (.coll g d a op) act) (act.headD 0) act y = e) :
    (if (c.begun (.coll g d a op) act).kind = .seq ∧ (c.begun (.coll g d a op) act).evFull = true then Eff.trap 0x12 [act.headD 0] 0
      else match (s.hinted (.coll g d a op) act).collDesc (c.begun (.coll g d a op) act) op a with
        | none => .trap 0x0F [act.headD 0] 0
        | some y =>
          let off := y.area % 2 ^ 29
          if op = .sumAccum ∧ off % 64 ≠ 0 then .trap 7 [act.headD 0] off
          else if op = .sumAccum ∧ ((s.hinted (.coll g d a op) act).areaUnit (c.begun (.coll g d a op) act) y.area (48 * (y.dst.bytes y.member / y.dst.esz))).isNone
            then .trap 8 [act.headD 0] off
          else collIssue (.coll g d a op) op d a (s.hinted (.coll g d a op) act) (c.begun (.coll g d a op) act) (act.headD 0) act y) = e := by
  rw [if_neg (coll_checked h hv), hinted_collDesc, hd]
  dsimp only
  rw [hinted_areaUnit, if_neg (fun hn => hn.2 (ha hn.1).1), if_neg (fun hn => by
    have := (ha hn.1).2
    rw [Option.isSome_iff_ne_none] at this
    exact this (Option.isNone_iff_eq_none.1 hn.2)), he]
variable (hn : s.noRoom c (some .coll) false 0 = none)
include hn
theorem coll_full (hf : (s.pkg c.pkg).collFree = none) :
    Completes (.coll g d a op) s (s.depart (.coll g d a op) (s.cohort c) ((c.begun (.coll g d a op) act).pushAll act false)) := by
  refine completes_of_once h _ (exec_coll_eq g d a op s) (fun c => c.pushAll act false) (coll_issues h hv hd ha ?_)
  have hp : (c.begun (.coll g d a op) act).pkg = c.pkg := by rw [begun_only]
  unfold collIssue
  rw [hinted_noRoom, hn, hp, hinted_pkg, hf, State.hinted_cur]
theorem coll_takes {ix : Nat} (hf : (s.pkg c.pkg).collFree = some ix) : ∃ (key n : Nat) (x : CollEnt) (f : OvChunk → Bool) (chs : List Chunk) (u : State),
    collIssue (.coll g d a op) op d a (s.hinted (.coll g d a op) act) (c.begun (.coll g d a op) act) (act.headD 0) act y
      = .ok (((((((s.hinted (.coll g d a op) act).reserveIn (if c.kind = .seq then some s.cur.ctx else none)).modPkg c.pkg
          (fun p => p.takeTicket ix key n x f)).latchStaging c.pkg c.asid).addEntry s.cur.ctx
            { u.mkEntry (c.begun (.coll g d a op) act) (.coll g d a op) (act.headD 0) 7 (some .coll) [] [(act.headD 0, {})] [BitVec.ofNat 32 ix] with chunks := chs }).modCtx s.cur.ctx
              (fun c => (c.wrG d (x.ticket ix)).pushAll act true)))
      ∧ x = { s.collTaken c op a ix y with early := x.early } := by
  have hb : (c.begun (.coll g d a op) act).pkg = c.pkg ∧ (c.begun (.coll g d a op) act).asid = c.asid ∧ (c.begun (.coll g d a op) act).grid = c.grid
    ∧ (c.begun (.coll g d a op) act).kind = c.kind := by rw [begun_only]; exact ⟨rfl, rfl, rfl, rfl⟩
  have hq : (if c.kind = .seq then (s.hinted (.coll g d a op) act).reserveEv s.cur.ctx else s.hinted (.coll g d a op) act)
      = (s.hinted (.coll g d a op) act).reserveIn (if c.kind = .seq then some s.cur.ctx else none) := by split <;> rfl
  have hc : ((s.hinted (.coll g d a op) act).reserveIn (if c.kind = .seq then some s.cur.ctx else none)).cur = s.cur :=
    (reserveIn_rest _ _).2.2.2.2.2.trans (State.hinted_cur ..)
  unfold collIssue
  simp only [hinted_noRoom, hn, hb.1, hb.2.1, hb.2.2.1, hb.2.2.2, hinted_pkg, hf, State.hinted_cur, begun_rdG, begun_nextId, hq]
  generalize (s.hinted (.coll g d a op) act).reserveIn (if c.kind = .seq then some s.cur.ctx else none) = R at hc
  have hc1 : ∀ f, (R.modPkg c.pkg f).cur = s.cur := fun _ => hc
  have hc2 : ∀ f k e, (((R.modPkg c.pkg f).latchStaging c.pkg c.asid).addEntry k e).cur = s.cur := fun _ _ _ => hc
  simp only [hc1, hc2]
  exact ⟨_, _, { s.collTaken c op a ix y with
    early := ((s.pkg c.pkg).overflow.filter (fun e => e.isFor (s.collTaken c op a ix y) (y.src.first + y.member))).map OvChunk.ch }, _, _, _, rfl, rfl⟩
/-- What the issue leaves: the table's entry, and the context with its entry, its ticket and its push. -/
theorem coll_taken {ix : Nat} (hf : (s.pkg c.pkg).collFree = some ix) : ∃ t c' e x,
    Acts (.coll g d a op) s c t c' (fun l => if l ∈ act then pushed (c.preds l) true else c.preds l) ∧ SameBytes s t ∧ t.units = s.units
      ∧ (∀ m, (t.pkg c.pkg).collAt m = if m = ix then x else (s.pkg c.pkg).collAt m)
      ∧ x = { s.collTaken c op a ix y with early := x.early }
      ∧ (∀ m, c'.rdG m = if m = d then x.ticket ix else c.rdG m)
      ∧ c'.rq = c.rq ++ [e] ∧ e.ins = .coll g d a op ∧ e.kind = 7 ∧ e.cls = some .coll ∧ e.holds = [] ∧ e.id = c.nextId
      ∧ c'.evResv = c.evResv + (if c.kind = .seq then 1 else 0) ∧ c'.v = c.v ∧ c'.fpflags = c.fpflags := by
  obtain ⟨key, n, x, f, chs, u, hbody, hx⟩ := coll_takes h hv hd ha hn hf
  have hrun := (exec_coll_eq g d a op s).trans (once_ok h _ (coll_issues h hv hd ha hbody))
  have hres : (if (if c.kind = .seq then some s.cur.ctx else none) = some s.cur.ctx then 1 else 0) = (if c.kind = .seq then 1 else 0) := by
    by_cases hc : c.kind = .seq <;> simp [hc]
  have hfind := reserveIn_find (s.hinted (.coll g d a op) act) (if c.kind = .seq then some s.cur.ctx else none) (hinted_find h)
  rw [hres] at hfind
  obtain ⟨r1, r2, r3, r4, r5, -⟩ := reserveIn_rest (s.hinted (.coll g d a op) act) (if c.kind = .seq then some s.cur.ctx else none)
  have hpk : ((s.hinted (.coll g d a op) act).reserveIn (if c.kind = .seq then some s.cur.ctx else none)).pkg c.pkg = s.pkg c.pkg :=
    (show _ = (s.hinted (.coll g d a op) act).pkg c.pkg by unfold State.pkg; rw [r4, r5]).trans (hinted_pkg ..)
  have hother : ∀ j, j ≠ s.cur.ctx → ((s.hinted (.coll g d a op) act).reserveIn (if c.kind = .seq then some s.cur.ctx else none)).ctx j = s.ctx j := fun j hj => by
    rw [reserveIn_ctx, if_neg]
    · exact hinted_ctx_other hj
    · rintro ⟨hc, -⟩
      split at hc
      · exact hj (Option.some.inj hc).symm
      · cases hc
  generalize (s.hinted (.coll g d a op) act).reserveIn (if c.kind = .seq then some s.cur.ctx else none) = R at *
  generalize (if c.kind = .seq then 1 else 0) = m at *
  have hlatch : ∀ k, (((R.modPkg c.pkg (fun p => p.takeTicket ix key n x f)).latchStaging c.pkg c.asid).pkg c.pkg).collAt k
      = if k = ix then x else (s.pkg c.pkg).collAt k := fun k => by
    unfold State.latchStaging
    rw [State.pkg_modPkg_same]
    refine (congrArg (fun q : Package => q.collAt k) (State.pkg_modPkg_same R c.pkg _)).trans ?_
    rw [takeTicket_coll, hpk]
  have hbytes : SameBytes R ((R.modPkg c.pkg (fun p => p.takeTicket ix key n x f)).latchStaging c.pkg c.asid) :=
    (SameBytes.modPkg _ _ _).trans (SameBytes.modPkg _ _ _)
  have hctxs : ((R.modPkg c.pkg (fun p => p.takeTicket ix key n x f)).latchStaging c.pkg c.asid).ctxs = R.ctxs := rfl
  have hunits : ((R.modPkg c.pkg (fun p => p.takeTicket ix key n x f)).latchStaging c.pkg c.asid).units = R.units := rfl
  have hgrids : ((R.modPkg c.pkg (fun p => p.takeTicket ix key n x f)).latchStaging c.pkg c.asid).grids = R.grids := rfl
  generalize (R.modPkg c.pkg (fun p => p.takeTicket ix key n x f)).latchStaging c.pkg c.asid = L at *
  rw [← hctxs] at hfind
  generalize he : L.entryAs ((c.begun (.coll g d a op) act).reserving m) { u.mkEntry (c.begun (.coll g d a op) act) (.coll g d a op) (act.headD 0) 7 (some .coll) []
    [(act.headD 0, {})] [BitVec.ofNat 32 ix] with chunks := chs } = e
  have hctx : ((((L.addEntry s.cur.ctx { u.mkEntry (c.begun (.coll g d a op) act) (.coll g d a op) (act.headD 0) 7 (some .coll) [] [(act.headD 0, {})] [BitVec.ofNat 32 ix] with chunks := chs }).modCtx
      s.cur.ctx (fun c => (c.wrG d (x.ticket ix)).pushAll act true)).modCtx s.cur.ctx (s.depart (.coll g d a op) (s.cohort c)))).ctx s.cur.ctx
        = s.depart (.coll g d a op) (s.cohort c) (((((c.begun (.coll g d a op) act).reserving m).enqueue (some .coll) e).wrG d (x.ticket ix)).pushAll act true) := by
    rw [State.modCtx_modCtx]
    refine (congrArg (fun t : State => t.ctx s.cur.ctx) (State.modCtx_modCtx ..)).trans ?_
    rw [State.ctx_modCtx _ _ _ _ hfind, ← he]
    rfl
  obtain ⟨e1, e2, e3, e4, e5, e6⟩ := depart_wrG_push s (.coll g d a op) (cohort_nodup s c) h.nodup
    (((c.begun (.coll g d a op) act).reserving m).enqueue (some .coll) e) d (x.ticket ix) true
  obtain ⟨n1, n2, n3, n4, n5, hen⟩ := enqueue_reserving_fields c (.coll g d a op) act m (some .coll) e
  refine ⟨_, _, e, x, ⟨hrun, hctx, fun l => ?_, fun j hj => ?_, hgrids.trans (r3.trans (hinted_grids ..))⟩, ?_, hunits.trans (r2.trans (hinted_units ..)),
    fun k => hlatch k, hx, fun k => (e5 k).trans (by rw [n5]), e3.trans n3, ?_, ?_, ?_, ?_, ?_, e1.trans n1, e2.trans n2, e4.trans n4⟩
  · refine (e6 l).trans ?_
    rw [hen]
    by_cases hl : l ∈ s.cohort c
    · rw [if_pos hl, if_pos hl]
      rfl
    · rw [if_neg hl, if_neg hl, if_neg (fun hm => hl (h.mem hm))]
  · refine (State.ctx_modCtx_ne _ _ _ _ hj).trans ((State.ctx_modCtx_ne _ _ _ _ hj).trans ((State.ctx_modCtx_ne _ _ _ _ hj).trans ?_))
    rw [State.ctx, hctxs]
    exact hother j hj
  · exact (((hinted_sameBytes s _ act).trans r1).trans hbytes).trans (((SameBytes.modCtx _ _ _).trans (SameBytes.modCtx _ _ _)).trans (SameBytes.modCtx _ _ _))
  · rw [← he]; rfl
  · rw [← he]; rfl
  · rw [← he]; rfl
  · rw [← he]; rfl
  · rw [← he]
    exact begun_nextId ..
end issue

theorem collectivesIssue : Claims.CollectivesIssue := by
  refine ⟨fun g d a op s c act h hv => ⟨fun hd hk => coll_traps h hv hd hk, fun y hd ha hn => ⟨fun hf => ?_, fun ix hf => ?_⟩⟩, fun g d a => ?_⟩
  · refine ⟨_, coll_full h hv hd ha hn hf, RegsOf.depart _ _ _ _ _ ((RegsOf.begun ..).trans (.pushAll _ _ _)), ?_, ?_, ?_, fun l => ?_⟩
    · rw [depart_v, pushAll_only]
      exact begun_v ..
    · rw [depart_g, pushAll_only]
      exact begun_g ..
    · rw [depart_flags, pushAll_only]
      exact begun_flags ..
    · rw [depart_lane _ _ _ (cohort_nodup s c), pushAll_lane act h.nodup, begun_lane]
      by_cases hl : l ∈ s.cohort c
      · rw [if_pos hl, if_pos hl]
        rfl
      · rw [if_neg hl, if_neg hl, if_neg (fun hm => hl (h.mem hm))]
  · obtain ⟨t, c', e, x, h1, h2, h3, h4, hx, h5, h6, h7, h8, h9, h10, h11, h12, h13, h14⟩ := coll_taken h hv hd ha hn hf
    refine ⟨t, c', e, x, h1, h2, h3, (h4 ix).trans (if_pos rfl), fun n hne => (h4 n).trans (if_neg hne), ?_⟩
    rw [hx] at h5 ⊢
    exact ⟨rfl, rfl, rfl, rfl, rfl, rfl, rfl, rfl, rfl, rfl, rfl, rfl, rfl, h5, h6, h7, h8, h9, h10, rfl, h11, h12, h13, h14⟩
  · refine queues_of (fun c act => [{ lane := act.headD 0, va := c.rdPairG a, len := 64, align := 64, hints := (c.lane (act.headD 0)).hints }]) (fun c act => ?_)
      (fun c act _ => List.nodup_singleton _)
      (fun s c act h _ _ => ⟨_, _, (exec_laydef_eq g d a s).trans (oncePerIssue_eq ..), fun u hu => onceBody_eq h.some hu (fun _ _ _ => nofun)⟩)
    simp only [List.map_cons, List.map_nil, Req.bare, begun_rdPairG]

/-! ### The layout that a descriptor becomes -/

theorem State.Turns.modPkg {k : Nat} {s t : State} {c : Ctx} (h : s.Turns k t c) (p : Nat) {f : Package → Package}
    (hf : ∀ q, (f q).early = q.early ∧ (f q).slots = q.slots) : s.Turns k (t.modPkg p f) c where
  found := h.found
  others := h.others
  grids := h.grids
  units := h.units
  bytes := h.bytes.trans (SameBytes.modPkg _ _ _)
  early q := by
    by_cases hq : q = p
    · subst hq
      rw [State.pkg_modPkg_same, (hf _).1, (hf _).2]
      exact h.early q
    · rw [State.pkg_modPkg, if_neg hq]
      exact h.early q
theorem membersBad_calm {s t : State} (h : s.Calm t) (p : Nat) (y : Layout) : t.membersBad p y = s.membersBad p y := by
  have h1 : ∀ n, t.pkgOf n = s.pkgOf n := fun n => by unfold State.pkgOf; rw [h.rest]
  have h2 : ∀ q r, t.podMember q r = s.podMember q r := fun q r => by
    unfold State.podMember
    simp only [h.field q (fun z => z.fld (0x3000 + 8 * (r / 64)) (r % 64) (r % 64)) (fun _ _ _ _ _ _ _ => rfl)]
  unfold State.membersBad
  simp only [h1, h2]
theorem settle_pkg {t : State} {k : Nat} (he : (t.pkg (t.ctx k).pkg).early = []) (id p : Nat) : (t.settle k id).pkg p = t.pkg p := by
  have hd : (t.dropEntry k id).pkg p = t.pkg p := by
    unfold State.dropEntry
    dsimp only
    rw [he, List.isEmpty_nil, if_pos rfl]
    rfl
  unfold State.settle
  split
  · split
    · exact hd
    · rfl
  · rfl
theorem pushAll_modCap (c : Ctx) (id l : Nat) (m : Cap → Cap) (ls : List Nat) (b : Bool) : (c.modCap id l m).pushAll ls b = (c.pushAll ls b).modCap id l m :=
  List.foldl_hom (fun c : Ctx => c.modCap id l m) (fun _ _ => rfl)

section layouts
variable {s : State} {k id l : Nat} {c : Ctx} {en : RqEntry} {x : Cap}
/-- The state that the event leaves. -/
theorem performEvent_eq (h : Ready s k id l c en x) (name : String) {f : RqEntry → Bool} (hf : f en = true) (hgo : s.mayGo c en x = true) {t1 : State}
    (hp : s.performCap k en l x = some t1) :
    performEvent name k id l s f = .next (((t1.modCtx k (fun y => y.addLate (s.latency en l))).afterAcq k x).settle k id) := by
  have hc : s.ctx k = c := State.ctx_of_find _ _ _ h.found
  unfold performEvent
  rw [hc, h.entry]
  dsimp only
  rw [h.cap]
  dsimp only
  rw [if_neg (by rw [h.due, h.free, h.first, hf, hgo]; simp), if_neg (by rw [h.untouched.2]; simp), hp]
  rfl
variable {o : Loc} {g : Guard} {d a : Nat} {m : Word} (h : Ready s k id l c en x) (hk : en.kind = 0) (hi : en.ins = .laydef g d a) (hm : en.args = [m]) (hq : s.NoSlots)
  (hw : s.LinesWhole) (hkl : s.KeepsLines c o 64) (hs : x.segs = [(o, 64)])
include h hk hi hm hq hw hkl hs

theorem laydef_performs {t0 : State} (ht0 : (s.readSegs c x).1.capDone k id l = t0) {t1 : State} (hd : t0.defineLayout k d (lanesOf m) (s.seen c x.nc o 64) = some t1) {F : Ctx}
    (hF : F.rq = c.rq) (ht : s.Turns k t1 (F.modCap id l Cap.finish)) :
    ∃ t rq, Performs (.accessPerformed k id l) s k id l c t (F.withRq rq) ∧ SameBytes s t ∧ ∀ p, (t.pkg p).layouts = (t1.pkg p).layouts := by
  obtain ⟨r1, r2⟩ := readSegs_seen hq hw hs h.untouched.1 (.inr hkl)
  have hc : s.ctx k = c := State.ctx_of_find _ _ _ h.found
  have hp : s.performCap k en l x = some t1 := by
    unfold State.performCap
    rw [hi, hc]
    dsimp only
    rw [if_neg (by simp [h.whole]), r2, hm, entry_id h.entry, ht0]
    dsimp only [List.headD_cons]
    rw [hd]
  have hgo := mayGo_travels h (by rw [hi]; exact fun _ _ _ _ _ _ _ => nofun)
  have hl : s.latency en l = [] := latency_none l (by rw [hi]; exact fun _ _ _ _ _ _ => nofun) (by rw [hi]; exact fun _ _ _ _ _ _ => nofun)
  obtain ⟨t, rq, h1, h2⟩ := performs_of h (exec_accessPerformed_eq k id l s) (by simp [hk]) hgo hp ht hq.early hF rfl (fun _ _ => rfl) rfl
  have he := (exec_accessPerformed_eq k id l s).trans (performEvent_eq h "ACCESS_PERFORMED" (by simp [hk]) hgo hp)
  rw [hl, addLate_nil] at h1 h2
  refine ⟨t, rq, h1, h2.bytes, fun p => ?_⟩
  have hT := (Host.Outcome.next.inj (h1.1.symm.trans he))
  have ht2 := (ht.modCtx (fun y => y.addLate (s.latency en l))).afterAcq x
  rw [hT, settle_pkg (by rw [(ht2.early _).1, hq.early])]
  unfold State.afterAcq
  split
  · exact ((State.Calm.refl _).acquire _ _).field p Package.layouts (fun _ _ _ _ _ _ _ => rfl)
  · rfl
end layouts

section define
variable {t0 : State} {k d : Nat} {act : List Nat} {bs : List Byte} {c0 : Ctx} (hc : t0.ctx k = c0) (hk : c0.kind ≠ .handler)
  (h1 : layoutIllegal (natOfBytes bs) = false) (h2 : (layoutOf (natOfBytes bs)).axesBad = false)
  (h3 : t0.membersBad c0.pkg (layoutOf (natOfBytes bs)) = false)
include hc hk h1 h2 h3
theorem defineLayout_full (hf : (List.range 256).find? (fun i => !((t0.pkg c0.pkg).layouts.filter (fun e => decide (e.grid = c0.grid))).any (fun e => decide (e.ix = i))) = none) :
    t0.defineLayout k d act bs = some (t0.modCtx k (fun c => c.pushAll act false)) := by
  unfold State.defineLayout
  simp only [hc, h1, h2, h3, hf, hk, Bool.false_eq_true, or_self, if_false]
/-- A layout added to a package's table. -/
def Package.addLayout (p : Package) (e : LayoutEnt) : Package :=
  { p with layouts := p.layouts ++ [e], layGen := Sparse.set 0 p.layGen e.ix e.gen }
theorem defineLayout_room {i : Nat}
    (hf : (List.range 256).find? (fun i => !((t0.pkg c0.pkg).layouts.filter (fun e => decide (e.grid = c0.grid))).any (fun e => decide (e.ix = i))) = some i) {e : LayoutEnt}
    (he : e = { grid := c0.grid, ix := i, gen := (Sparse.get 0 (t0.pkg c0.pkg).layGen i + 1) % 256, lay := layoutOf (natOfBytes bs) }) :
    t0.defineLayout k d act bs = some ((t0.modPkg c0.pkg (fun p => p.addLayout e)).modCtx k (fun c => (c.wrG d (BitVec.ofNat 32 e.handle)).pushAll act true)) := by
  subst he
  unfold State.defineLayout
  simp only [hc, h1, h2, h3, hf, hk, Bool.false_eq_true, or_self, if_false]
  rfl
end define

theorem layoutsDefined : ∀ s k id l c en x o g d a m, Ready s k id l c en x → en.kind = 0 → en.ins = .laydef g d a → en.args = [m] → s.NoSlots →
      s.LinesWhole → s.KeepsLines c o 64 → x.segs = [(o, 64)] → c.kind ≠ .handler →
      let bits := natOfBytes (s.seen c x.nc o 64)
      let y := layoutOf bits
      let mine := (s.pkg c.pkg).layouts.filter (fun e => decide (e.grid = c.grid))
      layoutIllegal bits = false → y.axesBad = false → s.membersBad c.pkg y = false →
      ((∀ i < 256, ∃ e ∈ mine, e.ix = i) → ∃ t c', Performs (.accessPerformed k id l) s k id l c t c' ∧ SameBytes s t ∧ c'.g = c.g
        ∧ (t.pkg c.pkg).layouts = (s.pkg c.pkg).layouts
        ∧ ∀ n, c'.lane n = if n ∈ lanesOf m then { c.lane n with pred := pushed (c.preds n) false } else c.lane n)
      ∧ ∀ i, (List.range 256).find? (fun i => !mine.any (fun e => decide (e.ix = i))) = some i → ∃ t c',
        Performs (.accessPerformed k id l) s k id l c t c' ∧ SameBytes s t
        ∧ (let gen := (Sparse.get 0 (s.pkg c.pkg).layGen i + 1) % 256
           (t.pkg c.pkg).layouts = (s.pkg c.pkg).layouts ++ [{ grid := c.grid, ix := i, gen := gen, lay := y }]
           ∧ (∀ n, c'.rdG n = if n = d then BitVec.ofNat 32 (gen * 256 + i) else c.rdG n))
        ∧ ∀ n, c'.lane n = if n ∈ lanesOf m then { c.lane n with pred := pushed (c.preds n) true } else c.lane n := by
  intro s k id l c en x o g d a m h hk hi hm hq hw hkl hs hh bits y mine h1 h2 h3
  obtain ⟨r1, -⟩ := readSegs_seen hq hw hs h.untouched.1 (.inr hkl)
  have ht := ((State.Turns.refl h.found).calm r1).capDone id l
  have hlay := r1.field c.pkg Package.layouts (fun _ _ _ _ _ _ _ => rfl)
  have hgen := r1.field c.pkg Package.layGen (fun _ _ _ _ _ _ _ => rfl)
  have h3' := (membersBad_calm r1 c.pkg y).trans h3
  generalize ht0 : (s.readSegs c x).1.capDone k id l = t0 at ht
  have hpk : ∀ p, t0.pkg p = (s.readSegs c x).1.pkg p := fun p => by rw [← ht0]; rfl
  have hmb : t0.membersBad c.pkg y = (s.readSegs c x).1.membersBad c.pkg y := by rw [← ht0]; rfl
  rw [← hpk] at hlay hgen
  rw [← hmb] at h3'
  have hpush : ∀ (z : Ctx) b, (∀ n, z.lane n = c.lane n) → ∀ rq n, ((z.pushAll (lanesOf m) b).withRq rq).lane n
      = if n ∈ lanesOf m then { c.lane n with pred := pushed (c.preds n) b } else c.lane n := fun z b hz rq n => by
    refine (pushAll_lane (lanesOf m) (lanesOf_nodup m) z b n).trans ?_
    rw [hz]
    by_cases hn : n ∈ lanesOf m <;> simp [hn, Ctx.preds]
  refine ⟨fun hfull => ?_, fun i hroom => ?_⟩
  · have hf : (List.range 256).find? (fun i => !((t0.pkg c.pkg).layouts.filter (fun e => decide (e.grid = c.grid))).any (fun e => decide (e.ix = i))) = none := by
      rw [hlay, List.find?_eq_none]
      intro i hi'
      obtain ⟨e, he, hei⟩ := hfull i (List.mem_range.1 hi')
      have : (mine.any (fun e => decide (e.ix = i))) = true := List.any_eq_true.2 ⟨e, he, by simpa using hei⟩
      rw [this]
      decide
    obtain ⟨t, rq, p1, p2, p3⟩ := laydef_performs h hk hi hm hq hw hkl hs ht0 (defineLayout_full ht.ctx hh h1 h2 h3' hf) (F := c.pushAll (lanesOf m) false)
      (by rw [pushAll_only]) (by rw [← pushAll_modCap]; exact ht.modCtx _)
    refine ⟨t, _, p1, p2, ?_, (p3 c.pkg).trans hlay, hpush c false (fun _ => rfl) rq⟩
    show (c.pushAll (lanesOf m) false).g = c.g
    rw [pushAll_only]
  · have hf : (List.range 256).find? (fun i => !((t0.pkg c.pkg).layouts.filter (fun e => decide (e.grid = c.grid))).any (fun e => decide (e.ix = i))) = some i := by
      rw [hlay]
      exact hroom
    have hd : ∃ e : LayoutEnt, e = { grid := c.grid, ix := i, gen := (Sparse.get 0 (t0.pkg c.pkg).layGen i + 1) % 256, lay := y }
        ∧ t0.defineLayout k d (lanesOf m) (s.seen c x.nc o 64)
          = some ((t0.modPkg c.pkg (fun p => p.addLayout e)).modCtx k (fun c => (c.wrG d (BitVec.ofNat 32 e.handle)).pushAll (lanesOf m) true)) :=
      ⟨_, rfl, defineLayout_room ht.ctx hh h1 h2 h3' hf rfl⟩
    obtain ⟨e, he, hd⟩ := hd
    obtain ⟨t, rq, p1, p2, p3⟩ := laydef_performs h hk hi hm hq hw hkl hs ht0 hd (F := (c.wrG d (BitVec.ofNat 32 e.handle)).pushAll (lanesOf m) true)
      (by rw [pushAll_only]; rfl)
      (by rw [← pushAll_modCap]; exact (ht.modPkg c.pkg (f := fun p => p.addLayout e) (fun _ => ⟨rfl, rfl⟩)).modCtx (fun c => (c.wrG d (BitVec.ofNat 32 e.handle)).pushAll (lanesOf m) true))
    refine ⟨t, _, p1, p2, ⟨(p3 c.pkg).trans ?_, fun n => ?_⟩, hpush (c.wrG d (BitVec.ofNat 32 e.handle)) true (fun _ => rfl) rq⟩
    · refine (congrArg Package.layouts (State.pkg_modPkg_same t0 c.pkg (fun p => p.addLayout e))).trans ?_
      show (t0.pkg c.pkg).layouts ++ [e] = _
      rw [hlay, he, hgen]
    · show ((c.wrG d (BitVec.ofNat 32 e.handle)).pushAll (lanesOf m) true).rdG n = _
      rw [pushAll_only, he, hgen]
      exact Ctx.rdG_wrG ..
/-- Settles O31: the issue of `COLL` and `LAYDEF`, the layouts that descriptors become, and the answers of tickets. -/
theorem collectivesAndLayouts : Obligations.CollectivesAndLayouts := ⟨collectivesIssue, layoutsDefined, ticketsAnswer⟩

end Sys2Proof.Machine
end

section
/-! Collectives start, move their chunks and complete (R268 to R276). -/

namespace Sys2Proof.Machine

/-! ### The start -/

section start
variable {s : State} {p ix : Nat} {x : CollEnt} (hx : (s.pkg p).collAt ix = x) (h1 : x.used = true) (h2 : x.started = false) (h3 : x.status = 0)
include hx h1 h2 h3

theorem collStart_unreachable (hr : s.collReachable x = false) : exec (.collStart p ix) s = .next (s.failColl p ix 8) := by
  subst hx
  rw [exec_collStart_eq, execCollStart]
  exact if_pos ⟨h1, h2, h3, hr⟩
variable {l : List (Nat × Nat × CollEnt)} (hl : s.collPeers p x = some l) (hd : s.collEarlierDone p x = true) (hr : s.collReachable x = true)
  (hc : s.collCarried x = true)
  (hp : ∀ e ∈ l, e.2.2.parkedCh = [] ∧ ∀ c en, Sparse.find s.ctxs e.2.2.ctx = some c → c.entry e.2.2.entry = some en → c.laneClear en.id [en.leader] = true)
include hl hd hr hc hp
/-- A start whose members are ready. -/
theorem collStart_ready : exec (.collStart p ix) s =
    if l.any (fun e => decide (e.2.2.status ≠ 0)) || !l.all (fun e => e.2.2.agrees x) then .next (s.failColl p ix 0x0F)
    else match s.collSources l with
      | (s, .ok bs) => .next ((l.foldl (fun s e => s.clearSends e.2.2) s).modPeers p x (fun y => { y with started := true, data := bs }))
      | (s, .parked) => .next s
      | (s, .fail k) => .next (s.failColl p ix k)
      | (_, .held) => .fault (.notEnabled "COLL_START") := by
  subst hx
  have hready : l.all (fun e => match (Sparse.find s.ctxs e.2.2.ctx).bind (fun c => c.entry e.2.2.entry) with
      | some en => (s.ctx e.2.2.ctx).laneClear en.id [en.leader] && e.2.2.parkedCh.isEmpty
      | none => true) = true := by
    rw [List.all_eq_true]
    intro e he
    obtain ⟨q1, q2⟩ := hp e he
    cases hf : Sparse.find s.ctxs e.2.2.ctx with
    | none => rfl
    | some c =>
      rw [Option.bind_some]
      cases hn : c.entry e.2.2.entry with
      | none => rfl
      | some en =>
        dsimp only
        rw [State.ctx_of_find _ _ _ hf, q2 c en hf hn, q1]
        rfl
  have hpeers : (if ((s.pkg p).collAt ix).used && !((s.pkg p).collAt ix).started && decide (((s.pkg p).collAt ix).status = 0) then s.collPeers p ((s.pkg p).collAt ix) else none) = some l := by
    rw [h1, h2, h3, if_pos (by decide), hl]
  rw [exec_collStart_eq, execCollStart]
  dsimp only
  rw [if_neg (fun hn => by rw [hr] at hn; exact Bool.noConfusion hn.2.2.2), hpeers]
  dsimp only
  refine (if_neg ?_).trans rfl
  rw [hd, hc]
  simp only [not_true_eq_false, or_false, not_not]
  exact hready
end start

/-! ### Completion -/

theorem unpin_field {α : Type} (s : State) (p ix : Nat) (f : Nat → Bool) (q : Nat) (F : Package → α) (hF : ∀ (z : Package) l, F { z with pins := l } = F z) :
    F ((s.unpin p ix f).pkg q) = F (s.pkg q) := by
  unfold State.unpin State.pkg
  dsimp only
  rw [find_mapVals]
  cases Sparse.find s.pkgs q with
  | none => rfl
  | some z =>
    dsimp only [Option.map_some, Option.getD_some]
    split
    · rfl
    · exact hF ..
theorem unpin_sameBytes (s : State) (p ix : Nat) (f : Nat → Bool) : SameBytes s (s.unpin p ix f) := fun a => by cases a <;> rfl
theorem State.Turns.unpin {k : Nat} {s t : State} {c : Ctx} (h : s.Turns k t c) (p ix : Nat) (f : Nat → Bool) : s.Turns k (t.unpin p ix f) c where
  found := h.found
  others := h.others
  grids := h.grids
  units := h.units
  bytes := h.bytes.trans (unpin_sameBytes t p ix f)
  early q := ⟨(unpin_field t p ix f q Package.early (fun _ _ => rfl)).trans (h.early q).1, (unpin_field t p ix f q Package.slots (fun _ _ => rfl)).trans (h.early q).2⟩
theorem collAt_modColl (s : State) (p ix : Nat) (f : CollEnt → CollEnt) (n : Nat) :
    ((s.modColl p ix f).pkg p).collAt n = if n = ix then f ((s.pkg p).collAt ix) else (s.pkg p).collAt n := by
  unfold State.modColl
  rw [State.pkg_modPkg_same]
  exact Sparse.get_set ..
theorem State.Turns.dropped {k : Nat} {s t : State} {c : Ctx} (h : s.Turns k t c) (hq : s.NoSlots) (id : Nat) :
    s.Turns k (t.dropEntry k id) (c.withRq (c.rq.filter (fun y => decide (y.id ≠ id)))) ∧ ∀ p, (t.dropEntry k id).pkg p = t.pkg p := by
  unfold State.dropEntry
  dsimp only
  rw [(h.early _).1, hq.early, List.isEmpty_nil, if_pos rfl]
  exact ⟨h.modCtx _, fun _ => rfl⟩
theorem State.Turns.postEv {k : Nat} {s t : State} {c : Ctx} (h : s.Turns k t c) (r : EvRec) : ∃ c', s.Turns k (t.postEv k r) c' ∧ c'.rq = c.rq := by
  unfold State.postEv
  rw [h.found]
  dsimp only
  split
  · exact ⟨_, h.modCtx _, rfl⟩
  · exact ⟨_, h.modCtx _, rfl⟩
/-- A release of any party where nothing is on its way. -/
theorem mayRelease_quiet {s : State} (hq : s.NoSlots) (c : Ctx) (lvl : Nat) : s.mayRelease c lvl = true := by
  unfold State.mayRelease State.mergeable
  rw [hq.early, (hq.quiet c.pkg).2.1]
  simp

section complete
variable {s : State} {p ix : Nat} {x : CollEnt} {c : Ctx} (hx : (s.pkg p).collAt ix = x) (h1 : x.used = true)
  (h2 : x.status = 0 → x.started = true ∧ x.chunkCount ≤ x.chunks.length) (hf : Sparse.find s.ctxs x.ctx = some c) (hq : s.NoSlots)
include hx h1 h2 hf hq

/-- The state in which the member's entry is gone. -/
theorem collComplete_runs : ∃ t, exec (.collComplete p ix) s = .next (if c.kind = .seq then t.postEv x.ctx
      { kind := 3, level := if x.src.lvl1 then 5 else 4, status := x.status, tag := x.th, doneCount := x.written, aborted := 0 } else t)
    ∧ s.Turns x.ctx t (c.withRq (c.rq.filter (fun y => decide (y.id ≠ x.entry))))
    ∧ (t.pkg p).collAt ix = { x with used := false, doneFlag := true, staged := [], got := [] } := by
  subst hx
  have hcc : s.collCtx p ((s.pkg p).collAt ix) = c := by rw [State.collCtx, hf, Option.getD_some]
  have hrel := State.release_calm hq c (if ((s.pkg p).collAt ix).src.lvl1 then 5 else 4)
  have ht := (((State.Turns.refl hf).calm hrel).unpin p ix (fun _ => true)).modPkg p
    (f := fun q => { q with coll := Sparse.set {} q.coll ix { q.collAt ix with used := false, doneFlag := true, staged := [], got := [] } }) (fun _ => ⟨rfl, rfl⟩)
  have hcoll := collAt_modColl ((s.release c (if ((s.pkg p).collAt ix).src.lvl1 then 5 else 4)).unpin p ix (fun _ => true)) p ix
    (fun x => { x with used := false, doneFlag := true, staged := [], got := [] }) ix
  rw [if_pos rfl, unpin_field _ p ix _ p (fun q => q.collAt ix) (fun _ _ => rfl), hrel.field p (fun q => q.collAt ix) (fun _ _ _ _ _ _ _ => rfl)] at hcoll
  obtain ⟨hd, hdp⟩ := ht.dropped hq ((s.pkg p).collAt ix).entry
  refine ⟨_, ?_, hd, (congrArg (fun q : Package => q.collAt ix) (hdp p)).trans hcoll⟩
  have hk := congrArg Ctx.kind hd.ctx
  rw [exec_collComplete_eq, execCollComplete]
  dsimp only
  rw [hcc, if_neg ?hen]
  case hen =>
    rw [mayRelease_quiet hq, h1]
    rintro (h' | ⟨h', h''⟩ | h')
    · exact h' rfl
    · obtain ⟨g1, g2⟩ := h2 h'
      rw [g1] at h''
      simp at h''
      omega
    · exact h' rfl
  have hk' : ((((((s.release c (if ((s.pkg p).collAt ix).src.lvl1 then 5 else 4)).unpin p ix (fun _ => true)).modColl p ix
      (fun x => { x with used := false, doneFlag := true, staged := [], got := [] })).dropEntry ((s.pkg p).collAt ix).ctx ((s.pkg p).collAt ix).entry).ctx
        ((s.pkg p).collAt ix).ctx).kind = .seq) ↔ c.kind = .seq := Iff.of_eq (congrArg (· = CtxKind.seq) hk)
  by_cases hc : c.kind = .seq
  · rw [if_pos (hk'.2 hc), if_pos hc]
    rfl
  · rw [if_neg (fun h => hc (hk'.1 h)), if_neg hc]
    rfl
theorem collCompletes : ∃ t, exec (.collComplete p ix) s = .next t ∧ SameBytes s t ∧ t.units = s.units
    ∧ (∀ j, j ≠ x.ctx → t.ctx j = s.ctx j)
    ∧ (t.pkg p).collAt ix = { x with used := false, doneFlag := true, staged := [], got := [] }
    ∧ (t.ctx x.ctx).rq = c.rq.filter (fun y => decide (y.id ≠ x.entry))
    ∧ (c.kind ≠ .seq → (t.ctx x.ctx).evq = c.evq)
    ∧ (c.kind = .seq → c.exiting = false → (t.ctx x.ctx).evq = c.evq ++ [{
        kind := 3, level := if x.src.lvl1 then 5 else 4, status := x.status, tag := x.th, doneCount := x.written, aborted := 0 }]) := by
  obtain ⟨t, ht, h3, h4⟩ := collComplete_runs hx h1 h2 hf hq
  by_cases hc : c.kind = .seq
  · rw [if_pos hc] at ht
    obtain ⟨c', h5, h6⟩ := h3.postEv { kind := 3, level := if x.src.lvl1 then 5 else 4, status := x.status, tag := x.th, doneCount := x.written, aborted := 0 }
    refine ⟨_, ht, h5.bytes, h5.units, h5.others, (congrArg (fun q : Package => q.collAt ix) (postEv_pkg ..)).trans h4, (congrArg Ctx.rq h5.ctx).trans h6,
      fun h => absurd hc h, fun _ he => ?_⟩
    · rw [postEv_posts h3.found he, State.ctx_modCtx _ _ _ _ h3.found]
      rfl
  · rw [if_neg hc] at ht
    exact ⟨t, ht, h3.bytes, h3.units, h3.others, h4, congrArg Ctx.rq h3.ctx, fun _ => (congrArg Ctx.evq h3.ctx).trans rfl, fun h => absurd h hc⟩
end complete

/-! ### A chunk's last step -/

section comes
variable {s : State} {p ix ch : Nat} {x : CollEnt} (hx : (s.pkg p).collAt ix = x) (h1 : x.used = true) (h2 : x.status = 0) (h3 : x.started = true)
  (h4 : ch < x.chunkCount) (h5 : ch ∉ x.chunks) (h6 : ∀ e ∈ x.parkedCh, e.1 ≠ ch) (h7 : s.mayTravel x (s.sender x p) ch = true) (h8 : s.collReachable x = true)
  (h9 : s.collCarried x = true)
include hx h1 h2 h3 h4 h5 h6 h7 h8 h9
theorem collChunkArrival_runs {t : State} (ht : s.lastStep p ix ch x = some t) : exec (.collChunkArrival p ix ch) s = .next t := by
  subst hx
  have hc : s.chunkComes p ch ((s.pkg p).collAt ix) = true := by
    have hp : (((s.pkg p).collAt ix).parkedCh.any (fun e => decide (e.1 = ch))) = false := by
      rw [List.any_eq_false]
      exact fun e he => by simpa using h6 e he
    unfold State.chunkComes
    rw [h1, h2, h3, h7, h9, hp]
    simp [h4, h5]
  rw [exec_collChunkArrival_eq, execCollChunkArrival]
  dsimp only
  rw [if_neg (by simp [h1, h2, h4]), if_neg (by simp [h8]), if_pos h3, if_pos hc, ht]
end comes

/-- A span of a halyard in one page. -/
theorem halyardSpan_one {s : State} {p asid va n : Nat} {k : AccKind} {o : Loc} {b : Nat} (hn : 0 < n) (hl : va + n ≤ 2 ^ 57) (hp : pagesOf va n = [va])
    (ho : s.xlate (halyard p asid) va k = .ok o b) : s.halyardSpan p asid va n k = ((s.translate (halyard p asid) va k).1, .ok [(o, n)]) := by
  have hlen := congrArg List.length hp
  rw [pagesOf, List.length_map, List.length_range, List.length_singleton] at hlen
  have hm : min (va + n - va) (4096 - va % 4096) = n := by omega
  have ht : s.translate (halyard p asid) va k = ((s.translate (halyard p asid) va k).1, .ok o b) := by
    rw [← ho, ← State.translate_snd]
  unfold State.halyardSpan State.span
  rw [if_neg (by omega), if_neg (by omega), hp, List.foldl_cons, List.foldl_nil]
  dsimp only
  rw [ht]
  dsimp only
  rw [hm]
  rfl

section write
variable {s : State} {p ix ch : Nat} {x : CollEnt} (hop : x.op ≠ .sumAccum) (hgot : ∀ e ∈ x.got, e.1 ≠ ch)
include hop
theorem formChunk_values : s.formChunk p ch x
    = some ({ s with free := s.free + 1 }, x.bytesFor (x.values (s.grid x.grid).ndfp (Config.freeWord s.free).toNat ch)) := by
  unfold State.formChunk
  dsimp only
  rw [if_neg hop]
  rfl
omit hop in
theorem bytesFor_length (l : List Nat) : (x.bytesFor l).length = l.length * x.dst.esz := by
  unfold CollEnt.bytesFor
  induction l with
  | nil => simp
  | cons v r ih =>
    rw [List.flatMap_cons, List.length_append, ih, length_bytesOfNat, List.length_cons]
    ring
include hgot
/-- A chunk's bytes are written in one piece. -/
theorem writeChunk_one {o : Loc} (hn : 0 < x.chunkLen ch) {bs : List Byte} (hbs : bs = x.bytesFor (x.values (s.grid x.grid).ndfp (Config.freeWord s.free).toNat ch)) :
    s.writeChunk p ix ch x [(o, x.chunkLen ch)]
      = (({ s with free := s.free + 1 } : State).engineWrite (s.collCtx p x) [(o, bs.length)] bs).arrive p ix ch := by
  have hlen : bs.length = x.chunkLen ch := by
    rw [hbs, bytesFor_length, CollEnt.values, List.length_map, List.length_range]
    rfl
  have hun : x.unwritten ch = [(0, x.chunkLen ch)] := by
    have : x.got.any (fun e => decide (e.1 = ch)) = false := by
      rw [List.any_eq_false]
      exact fun e he => by simpa using hgot e he
    unfold CollEnt.unwritten
    simp only [this, Bool.false_eq_true, if_false]
  unfold State.writeChunk
  rw [formChunk_values hop, ← hbs]
  cases bs with
  | nil => simp at hlen; omega
  | cons b r =>
    dsimp only
    unfold State.writeParts
    rw [hun, List.foldl_cons, List.foldl_nil, ← hlen, List.drop_zero, List.take_length]
    simp only [decide_true, partOf, if_true]
    rfl
end write

/-! ### What a translation leaves of the fabric (R22, R259) -/

theorem walkTouch_regs (s : State) (p va level ppn q : Nat) : ((s.walkTouch p va level ppn).pkg q).regs = (s.pkg q).regs := by
  induction level generalizing s ppn with
  | zero =>
    unfold State.walkTouch
    dsimp only
    repeat' split
    all_goals first | rfl | exact releaseSpan_regs ..
  | succ l ih =>
    unfold State.walkTouch
    dsimp only
    repeat' split
    all_goals first | rfl | exact releaseSpan_regs .. | exact (ih _ _).trans (releaseSpan_regs ..)
theorem translate_regs (s : State) (y : Party) (va : Nat) (k : AccKind) (q : Nat) : ((s.translate y va k).1.pkg q).regs = (s.pkg q).regs := by
  have hr : ((s.walkReads y.pkg y.walkDie y.asid va).pkg q).regs = (s.pkg q).regs := by
    unfold State.walkReads
    dsimp only
    repeat' split
    all_goals first | rfl | exact releaseSpan_regs .. | exact walkTouch_regs .. | exact (walkTouch_regs ..).trans (releaseSpan_regs ..)
  unfold State.translate
  dsimp only
  split
  · rfl
  · split
    · rw [State.pkg_modPkg]
      split
      · next e => exact (congrArg (fun z => (State.pkg _ z).regs) e.symm).trans hr
      · exact hr
    · exact hr
/-- What requests of the mast reach and wait for. -/
theorem travels_mast {s t : State} (h : s.Homes t) (hr : ∀ q, (t.pkg q).regs = (s.pkg q).regs) (p : Nat) (l : List (Loc × Nat)) :
    t.travels p { mast := true } l = s.travels p { mast := true } l := by
  have h1 : ∀ q a b d, (t.pkg q).fld a b d = (s.pkg q).fld a b d := fun q a b d => by
    unfold Package.fld
    rw [Package.reg_congr (hr q) (h.pkgField Package.boot (fun _ => rfl) q)]
  have h2 : ∀ q i, (t.pkg q).planeOpen i = (s.pkg q).planeOpen i := fun q i => by
    unfold Package.planeOpen
    rw [h1, h1, h1]
  have h3 : ∀ q x, t.clockRuns q x = s.clockRuns q x := fun q x => by
    unfold State.clockRuns
    rw [h.pkgField Package.stopped (fun _ => rfl) q]
  have h4 : ∀ o, t.serves o = s.serves o := fun o => by
    cases o with
    | store u o =>
      have hu : (t.unit u).bare = (s.unit u).bare := h.unit u
      have e1 : (t.unit u).pkg = (s.unit u).pkg := (congrArg WUnit.pkg hu :)
      have e2 : (t.unit u).level = (s.unit u).level := (congrArg WUnit.level hu :)
      have e3 : (t.unit u).split = (s.unit u).split := (congrArg WUnit.split hu :)
      have e4 : (t.unit u).site = (s.unit u).site := (congrArg WUnit.site hu :)
      have e5 : (t.unit u).site2 = (s.unit u).site2 := (congrArg WUnit.site2 hu :)
      unfold State.serves
      simp only [h3, e1, e2, e3, e4, e5]
    | _ => rfl
  have h5 : ∀ o n, t.carries p o n = s.carries p o n := fun o n => by
    cases o with
    | hbm k => unfold State.carries; simp only [h2]
    | _ => rfl
  unfold State.travels State.answered State.spansFree
  simp only [h3, h4, h5, Bool.true_or]

/-! ### A chunk that is written -/

/-- A piece of memory written for an engine, where nothing is on its way. -/
theorem engineWrite_memory {s : State} (hq : s.NoSlots) (c : Ctx) {o : Loc} (hm : ∃ n, o = .hbm n ∨ o = .host n) (bs : List Byte) :
    s.Homes (s.engineWrite c [(o, bs.length)] bs) ∧ (s.engineWrite c [(o, bs.length)] bs).units = s.units ∧ Stored s (s.engineWrite c [(o, bs.length)] bs) o bs := by
  have h1 := (State.Calm.refl s).peerFill c.pkg c.site o bs.length
  have e : s.engineWrite c [(o, bs.length)] bs = (s.peerFill c.pkg c.site o bs.length).writeHome true none (some c.sharer) o bs := by
    unfold State.engineWrite
    rw [List.foldl_cons, List.foldl_nil, State.toHome_noSlots hq, List.take_length]
  have hp : (s.peerFill c.pkg c.site o bs.length).Place o := by
    obtain ⟨n, rfl | rfl⟩ := hm <;> trivial
  have ho : ∀ u a, o ≠ .store u a := by
    obtain ⟨n, rfl | rfl⟩ := hm <;> exact fun _ _ => nofun
  have h2 := State.writeHome_calm (h1.quiet hq) true none (some c.sharer) o bs
  rw [e]
  exact ⟨((State.Homes.refl s).peerFill ..).writeHome .., h2.units.trans ((wrBytes_memory ho bs).2.1.trans h1.units),
    (State.writeHome_stored (h1.quiet hq) _ _ _ hp _).congr h1.sameBytes (.refl _)⟩
theorem arrive_effect (s : State) (p ix ch : Nat) : SameBytes s (s.arrive p ix ch) ∧ (s.arrive p ix ch).ctxs = s.ctxs ∧ (s.arrive p ix ch).units = s.units
    ∧ ((s.arrive p ix ch).pkg p).collAt ix = { (s.pkg p).collAt ix with
        chunks := ((s.pkg p).collAt ix).chunks ++ [ch], staged := ((s.pkg p).collAt ix).staged.filter (fun e => decide (e.1 ≠ ch))
        got := ((s.pkg p).collAt ix).got.filter (fun e => decide (e.1 ≠ ch)) } := by
  refine ⟨SameBytes.trans (unpin_sameBytes s p ix _) (SameBytes.modPkg _ _ _), rfl, rfl, ?_⟩
  unfold State.arrive
  rw [collAt_modColl, if_pos rfl, unpin_field s p ix _ p (fun q => q.collAt ix) (fun _ _ => rfl)]

section written
variable {s : State} {p ix ch : Nat} {x : CollEnt} (hx : (s.pkg p).collAt ix = x) (hgot : ∀ e ∈ x.got, e.1 ≠ ch)
include hx hgot
/-- The last step of a chunk that is copied or permuted at its member. -/
theorem lastStep_copies {o : Loc} (hex : x.exch = 0) (hop : x.op = .copy ∨ x.op = .permute) (hq : s.NoSlots) (hn : 0 < x.chunkLen ch)
    (hl : x.chunkAddr ch + x.chunkLen ch ≤ 2 ^ 57) (hpg : pagesOf (x.chunkAddr ch) (x.chunkLen ch) = [x.chunkAddr ch])
    {b : Nat} (ho : s.xlate (halyard p x.asid) (x.chunkAddr ch) .write = .ok o b) (hm : (∃ n, o = .hbm n ∨ o = .host n))
    (ht : s.travels p { mast := true } [(o, x.chunkLen ch)] = true) :
    ∃ t, s.lastStep p ix ch x = some t ∧ Stored s t o (x.bytesFor (x.values (s.grid x.grid).ndfp (Config.freeWord s.free).toNat ch)) ∧ t.ctxs = s.ctxs ∧ t.units = s.units
      ∧ (t.pkg p).collAt ix = { x with chunks := x.chunks ++ [ch], staged := x.staged.filter (fun e => decide (e.1 ≠ ch)) } := by
  have hne : x.op ≠ .sumAccum ∧ x.op ≠ .sum := by rcases hop with e | e <;> rw [e] <;> decide
  have hcalm := State.translate_calm hq (halyard p x.asid) (x.chunkAddr ch) .write
  have hseg : s.chunkSegs p ch x = ((s.translate (halyard p x.asid) (x.chunkAddr ch) .write).1, .ok [(o, x.chunkLen ch)]) := by
    unfold State.chunkSegs
    rw [if_neg (fun h => hne.1 h.1), halyardSpan_one hn hl hpg ho]
  have htr := (travels_mast ((State.Homes.refl s).translate (halyard p x.asid) (x.chunkAddr ch) .write) (translate_regs s _ _ _) p [(o, x.chunkLen ch)]).trans ht
  generalize (s.translate (halyard p x.asid) (x.chunkAddr ch) .write).1 = t0 at *
  have hadd : t0.addUnits p x ch [(o, x.chunkLen ch)] = [] := by
    unfold State.addUnits
    rw [if_neg hne.1, if_pos (.inl hne.2)]
  have hstage : s.toStage p ch x = false := by
    unfold State.toStage
    simp [hex]
  have hgrid : (t0.grid x.grid).ndfp = (s.grid x.grid).ndfp := by unfold State.grid; rw [hcalm.grids]
  have hfree : t0.free = s.free := by rw [hcalm.rest]
  have hw := writeChunk_one (s := t0) (p := p) (ix := ix) hne.1 hgot (o := o) hn rfl
  rw [hgrid, hfree] at hw
  generalize hbs : x.bytesFor (x.values (s.grid x.grid).ndfp (Config.freeWord s.free).toNat ch) = bs at *
  obtain ⟨w1, w2, w3⟩ := engineWrite_memory (s := { t0 with free := s.free + 1 }) (hcalm.quiet hq) (t0.collCtx p x) hm bs
  obtain ⟨a1, a2, a3, a4⟩ := arrive_effect (({ t0 with free := s.free + 1 } : State).engineWrite (t0.collCtx p x) [(o, bs.length)] bs) p ix ch
  have hcoll : ((({ t0 with free := s.free + 1 } : State).engineWrite (t0.collCtx p x) [(o, bs.length)] bs).pkg p).collAt ix = x :=
    (w1.pkgField (fun q => q.collAt ix) (fun _ => rfl) p).trans ((hcalm.field p (fun q => q.collAt ix) (fun _ _ _ _ _ _ _ => rfl)).trans hx)
  have hfil : x.got.filter (fun e => decide (e.1 ≠ ch)) = x.got := List.filter_eq_self.2 (fun e he => by simpa using hgot e he)
  refine ⟨_, ?_, (w3.congr (s' := s) hcalm.sameBytes a1), a2.trans (w1.ctxs.trans hcalm.ctxs), a3.trans (w2.trans hcalm.units), ?_⟩
  · unfold State.lastStep
    rw [hstage, if_neg (by decide), hseg]
    dsimp only
    rw [htr, hadd, if_neg (by decide)]
    rw [List.isEmpty_nil, Bool.true_or, if_pos rfl, hw]
  · rw [a4, hcoll, hfil]
end written

/-! ### A chunk that stages, or takes slots -/

theorem mem_pagesOf {va n a : Nat} (hn : 0 < n) (h : a ∈ pagesOf va n) : a < va + n := by
  obtain ⟨i, hi, rfl⟩ := List.mem_map.1 h
  have := List.mem_range.1 hi
  split
  · omega
  · omega
/-- What a span leaves that translates: the fabric, and pieces that are not empty. -/
structure State.Spans (s t : State) (segs : List (Loc × Nat)) : Prop where
  /-- storage at homes and caches alone -/
  homes : s.Homes t
  /-- registers -/
  regs : ∀ q, (t.pkg q).regs = (s.pkg q).regs
  /-- caches alone, where nothing is on its way -/
  calm : s.NoSlots → s.Calm t
  /-- pieces hold bytes -/
  pos : ∀ g ∈ segs, 0 < g.2
theorem State.Spans.refl (s : State) : s.Spans s [] := ⟨.refl s, fun _ => rfl, fun _ => .refl s, fun _ h => absurd h List.not_mem_nil⟩
theorem span_spans {s : State} {y : Party} {va n : Nat} {k : AccKind} {fine : Loc → Bool} (hn : 0 < n) :
    ∀ segs, (s.span y va n k fine).2 = .ok segs → s.Spans (s.span y va n k fine).1 segs := by
  unfold State.span
  refine List.foldlRecOn (motive := fun r : State × SpanRes => ∀ segs, r.2 = .ok segs → s.Spans r.1 segs) _ _ (fun segs h => ?_) (fun r hr a ha => ?_)
  · cases h
    exact .refl s
  · obtain ⟨t, res⟩ := r
    cases res with
    | ok l =>
      have h1 := hr l rfl
      have hlt := mem_pagesOf hn ha
      dsimp only at h1 ⊢
      have h2 : ∀ g, s.Spans (t.translate y a k).1 (l ++ [(g, min (va + n - a) (4096 - a % 4096))]) := fun g =>
        ⟨h1.homes.trans ((State.Homes.refl t).translate y a k), fun q => (translate_regs ..).trans (h1.regs q),
          fun hq => (h1.calm hq).trans (State.translate_calm ((h1.calm hq).quiet hq) y a k), fun z hz => by
            rcases List.mem_append.1 hz with hz | hz
            · exact h1.pos z hz
            · obtain rfl := List.mem_singleton.1 hz
              show 0 < min (va + n - a) (4096 - a % 4096)
              omega⟩
      generalize t.translate y a k = r at h2 ⊢
      obtain ⟨u, res⟩ := r
      cases res with
      | ok o b =>
        dsimp only
        intro segs he
        split at he
        · cases he
          exact h2 o
        · cases he
      | _ => exact fun _ => nofun
    | _ => exact fun _ => nofun
theorem halyardSpan_spans {s : State} {p asid va n : Nat} {k : AccKind} {t : State} {segs : List (Loc × Nat)} (h : s.halyardSpan p asid va n k = (t, .ok segs)) :
    s.Spans t segs := by
  unfold State.halyardSpan at h
  split at h
  · cases h
  · split at h
    · cases h
      exact .refl s
    · have := span_spans (s := s) (y := halyard p asid) (va := va) (n := n) (k := k) (fine := fun _ => true) (by omega)
      rw [h] at this
      exact this segs rfl

/-- A chunk is staged where a place is free. -/
theorem stageChunk_goes {s : State} {p ix ch : Nat} {x : CollEnt} (h : ∃ i < (s.stagingRoom p x.asid).2, i ∉ s.stagingUsed p x.asid) :
    ∃ t, s.stageChunk p ix ch x = some t := by
  have hroom : (s.latchStaging p x.asid).stagingRoom p x.asid = s.stagingRoom p x.asid := by
    have : (s.latchStaging p x.asid).stagingOf p x.asid = s.stagingOf p x.asid := by
      unfold State.latchStaging
      conv_lhs => unfold State.stagingOf
      rw [State.pkg_modPkg_same, Sparse.find_put, if_pos rfl]
      rfl
    unfold State.stagingRoom
    rw [this]
  have hused : (s.latchStaging p x.asid).stagingUsed p x.asid = s.stagingUsed p x.asid := by
    unfold State.stagingUsed State.latchStaging
    rw [State.pkg_modPkg_same]
  unfold State.stageChunk
  dsimp only
  rw [hroom, hused]
  cases hf : (List.range (s.stagingRoom p x.asid).2).find? (fun i => !(s.stagingUsed p x.asid).contains i) with
  | none =>
    obtain ⟨i, hi, hn⟩ := h
    have := List.find?_eq_none.1 hf i (List.mem_range.2 hi)
    simp [hn] at this
  | some i =>
    dsimp only
    generalize State.halyardSpan _ _ _ _ _ _ = r
    obtain ⟨t, res⟩ := r
    cases res <;> exact ⟨_, rfl⟩

/-- Units that have room for any chunk: no slot is open, and none is pinned at those that are still to be asked. -/
structure State.Roomy (s : State) (done : List (Nat × Nat)) : Prop where
  /-- nothing is on its way -/
  quiet : s.NoSlots
  /-- quotas -/
  quota : ∀ q site, 0 < (s.pkg q).slotQuota site
  /-- pins -/
  pins : ∀ q site, (q, site) ∉ done → ∀ y ∈ (s.pkg q).pins, y.site ≠ site
theorem pinned_none {q : Package} {site : Nat} (h : ∀ y ∈ q.pins, y.site ≠ site) (a : Option Nat) : q.pinned site a = 0 := by
  have : q.pins.filter (fun x => decide (x.site = site) && (a.isNone || decide (a = some x.asid))) = [] :=
    List.filter_eq_nil_iff.2 (fun y hy => by simp [h y hy])
  unfold Package.pinned
  rw [this]
  rfl
theorem takeSlots_state {s : State} (hq : s.NoSlots) (p site asid : Nat) : ∀ n m, (s.takeSlots p site asid n m).1 = s ∧ m ≤ (s.takeSlots p site asid n m).2
  | 0, m => ⟨rfl, Nat.le_refl m⟩
  | n + 1, m => by
    unfold State.takeSlots
    rw [slotRoom_noSlots hq]
    split
    · next t ht =>
      split at ht
      · cases ht
      · cases ht
        obtain ⟨h1, h2⟩ := takeSlots_state hq p site asid n (m + 1)
        exact ⟨h1, by omega⟩
    · exact ⟨rfl, Nat.le_refl m⟩
theorem takeSlots_some {s : State} {done : List (Nat × Nat)} (h : s.Roomy done) {p site : Nat} (hp : (p, site) ∉ done) (asid : Nat) {n : Nat} (hn : 0 < n) :
    (s.takeSlots p site asid n 0).1 = s ∧ (s.takeSlots p site asid n 0).2 ≠ 0 := by
  obtain ⟨m, rfl⟩ : ∃ m, n = m + 1 := ⟨n - 1, by omega⟩
  have hroom : s.slotRoom p site asid 0 = some s := by
    have hz := pinned_none (h.pins p site hp)
    have := h.quota p site
    have hcap : 0 < slotCap site := by unfold slotCap; split <;> decide
    rw [slotRoom_noSlots h.quiet, hz, hz, if_neg (by omega)]
  unfold State.takeSlots
  rw [hroom]
  obtain ⟨h1, h2⟩ := takeSlots_state h.quiet p site asid m 1
  exact ⟨h1, Nat.pos_iff_ne_zero.1 h2⟩
theorem pinChunk_goes (p ix ch asid : Nat) : ∀ (us : List (Nat × Nat × Nat)) (done : List (Nat × Nat)) (s : State), s.Roomy done →
    (us.map (fun u => (u.1, u.2.1))).Nodup → (∀ u ∈ us, (u.1, u.2.1) ∉ done ∧ 0 < u.2.2) → ∃ t, s.pinChunk p ix ch asid us = some t
  | [], _, s, _, _, _ => ⟨s, rfl⟩
  | u :: us, done, s, hr, hn, hu => by
    obtain ⟨hn1, hn2⟩ := List.nodup_cons.1 hn
    obtain ⟨h1, h2⟩ := hu u List.mem_cons_self
    obtain ⟨t1, t2⟩ := takeSlots_some hr h1 asid h2
    have hr' : (s.modPkg u.1 (fun q => { q with pins := q.pins ++ [{ site := u.2.1, asid := asid, pkg := p, ix := ix, ch := ch, n := (s.takeSlots u.1 u.2.1 asid u.2.2 0).2 }] })).Roomy
        ((u.1, u.2.1) :: done) := by
      refine ⟨hr.quiet.modPkg _ _ ?_, fun q site => ?_, fun q site hq y hy => ?_⟩
      · exact hr.quiet.quiet u.1
      · rw [State.pkg_modPkg]
        split
        · next e => exact hr.quota u.1 site
        · exact hr.quota q site
      · obtain ⟨hq1, hq2⟩ := not_or.1 (mt List.mem_cons.2 hq)
        rw [State.pkg_modPkg] at hy
        split at hy
        · next e =>
          subst e
          rcases List.mem_append.1 hy with hy | hy
          · exact hr.pins _ _ hq2 y hy
          · obtain rfl := List.mem_singleton.1 hy
            exact fun e => hq1 (by rw [← e])
        · exact hr.pins _ _ hq2 y hy
    obtain ⟨t, ht⟩ := pinChunk_goes p ix ch asid us _ _ hr' hn2 (fun v hv => ⟨fun hm => by
      rcases List.mem_cons.1 hm with hm | hm
      · exact hn1 (List.mem_map.2 ⟨v, hv, hm⟩)
      · exact (hu v (List.mem_cons_of_mem _ hv)).1 hm, (hu v (List.mem_cons_of_mem _ hv)).2⟩)
    refine ⟨t, ?_⟩
    rw [← ht]
    unfold State.pinChunk
    rw [List.foldl_cons, Option.bind_some]
    dsimp only
    rw [if_neg t2, t1]

theorem eraseDups_nodup {α : Type} [BEq α] [LawfulBEq α] : ∀ l : List α, l.eraseDups.Nodup
  | [] => List.nodup_nil
  | a :: as => by
    rw [List.eraseDups_cons, List.nodup_cons]
    exact ⟨fun h => by simp [List.mem_eraseDups] at h, eraseDups_nodup _⟩
termination_by l => l.length
decreasing_by
  have := List.length_filter_le (fun b => !b == a) as
  simp only [List.length_cons]
  omega
theorem le_total {α : Type} {f : α → Nat} {y : α} {l : List α} (h : y ∈ l) : f y ≤ total l f := by
  have hacc : ∀ (l : List α) (a : Nat), a ≤ l.foldl (fun n x => n + f x) a := fun l => by
    induction l with
    | nil => exact fun _ => Nat.le_refl _
    | cons x r ih => exact fun a => le_trans (Nat.le_add_right a (f x)) (ih _)
  have hmem : ∀ (l : List α) (a : Nat), y ∈ l → f y ≤ l.foldl (fun n x => n + f x) a := fun l => by
    induction l with
    | nil => exact fun _ h => absurd h List.not_mem_nil
    | cons x r ih =>
      intro a h
      rcases List.mem_cons.1 h with rfl | h
      · exact le_trans (Nat.le_add_left _ _) (hacc r _)
      · exact ih _ h
  exact hmem l 0 h
/-- The units that a chunk asks for slots: each once, for one word at least. -/
theorem addUnits_once {s : State} {p ch : Nat} {x : CollEnt} {segs : List (Loc × Nat)} (hs : ∀ g ∈ segs, 0 < g.2) (he : 0 < (x.chunkElems ch).2) :
    ((s.addUnits p x ch segs).map (fun u => (u.1, u.2.1))).Nodup ∧ ∀ u ∈ s.addUnits p x ch segs, 0 < u.2.2 := by
  have hesz : 0 < x.dst.esz := Nat.two_pow_pos _
  unfold State.addUnits
  split
  · exact ⟨List.nodup_singleton _, fun u hu => by obtain rfl := List.mem_singleton.1 hu; exact he⟩
  · split
    · exact ⟨List.nodup_nil, fun _ h => absurd h List.not_mem_nil⟩
    · extract_lets us
      refine ⟨?_, fun u hu => ?_⟩
      · rw [List.map_map]
        have : ((fun u : Nat × Nat × Nat => (u.1, u.2.1)) ∘ fun u : Nat × Nat => (u.1, u.2, total (us.filter (fun g => decide (g.1 = u))) (·.2))) = id := rfl
        rw [this, List.map_id]
        exact eraseDups_nodup _
      · obtain ⟨v, hv, rfl⟩ := List.mem_map.1 hu
        obtain ⟨g, hg, rfl⟩ := List.mem_map.1 (List.mem_eraseDups.1 hv)
        have hg2 : 0 < g.2 := by
          obtain ⟨z, hz, hzg⟩ := List.mem_filterMap.1 hg
          have := hs z hz
          split at hzg
          · cases hzg
            exact Nat.div_pos (by omega) hesz
          · cases hzg
        exact lt_of_lt_of_le hg2 (le_total (f := fun g : (Nat × Nat) × Nat => g.2) (List.mem_filter.2 ⟨hg, by simp⟩))
theorem chunkElems_pos {x : CollEnt} {ch : Nat} (he : x.dst.elsz ≤ 2) (hc : ch < x.chunkCount) : 0 < (x.chunkElems ch).2 := by
  unfold CollEnt.chunkCount Layout.bytes Layout.esz collChunk at hc
  unfold CollEnt.chunkElems Layout.bytes Layout.esz collChunk
  dsimp only
  generalize prod (x.dst.shape x.member) = n at *
  have : x.dst.elsz = 0 ∨ x.dst.elsz = 1 ∨ x.dst.elsz = 2 := by omega
  rcases this with e | e | e <;> rw [e] at hc ⊢ <;> omega

/-- A chunk's next step, where nothing that it waits for is missing. -/
theorem lastStep_goes {s : State} {p ix ch : Nat} {x : CollEnt} (hs : s.toStage p ch x = true → ∃ i < (s.stagingRoom p x.asid).2, i ∉ s.stagingUsed p x.asid)
    (hr : x.op = .sum ∨ x.op = .sumAccum → s.NoSlots ∧ ∀ q site, (s.pkg q).pins = [] ∧ 0 < (s.pkg q).slotQuota site) (he : x.dst.elsz ≤ 2) (hc : ch < x.chunkCount)
    (ht : ∀ l, s.travels p { mast := true } l = true) : ∃ t, s.lastStep p ix ch x = some t := by
  unfold State.lastStep
  by_cases hst : s.toStage p ch x = true
  · rw [if_pos hst]
    exact stageChunk_goes (hs hst)
  rw [if_neg hst]
  have hspan : ∀ t segs, s.chunkSegs p ch x = (t, .ok segs) → s.Spans t segs := fun t segs h => by
    unfold State.chunkSegs at h
    split at h
    · cases h
      exact .refl s
    · exact halyardSpan_spans h
  generalize s.chunkSegs p ch x = r at hspan ⊢
  obtain ⟨t, res⟩ := r
  cases res with
  | park id => exact ⟨_, rfl⟩
  | access => exact ⟨_, rfl⟩
  | ok segs =>
    have h := hspan t segs rfl
    dsimp only
    rw [(travels_mast h.homes h.regs p segs).trans (ht segs), if_neg (by decide)]
    by_cases hu : ((t.addUnits p x ch segs).isEmpty || t.chunkPinned p ix ch) = true
    · rw [if_pos hu]
      exact ⟨_, rfl⟩
    · rw [if_neg hu]
      have hop : x.op = .sum ∨ x.op = .sumAccum := by
        by_contra hn
        refine hu ?_
        have : t.addUnits p x ch segs = [] := by
          unfold State.addUnits
          rw [if_neg (fun h => hn (.inr h)), if_pos (.inl (fun h => hn (.inl h)))]
        rw [this]
        rfl
      obtain ⟨hq, hr⟩ := hr hop
      have hcalm := h.calm hq
      obtain ⟨n1, n2⟩ := addUnits_once (s := t) (p := p) h.pos (chunkElems_pos he hc)
      refine pinChunk_goes p ix ch x.asid _ [] t ⟨hcalm.quiet hq, fun q site => ?_, fun q site _ y hy => ?_⟩ n1 (fun u hu => ⟨List.not_mem_nil, n2 u hu⟩)
      · rw [hcalm.field q (fun z => z.slotQuota site) (fun _ _ _ _ _ _ _ => rfl)]
        exact (hr q site).2
      · rw [hcalm.field q Package.pins (fun _ _ _ _ _ _ _ => rfl), (hr q site).1] at hy
        exact absurd hy List.not_mem_nil

/-- Settles O32: the start of a collective, its failure where a member is out of reach, its chunks, and its completion. -/
theorem collectivesRun : Obligations.CollectivesRun := by
  refine ⟨?_, ?_, ?_, ?_⟩
  · intro s p ix l x h1 h2 h3 hl hd hr hc hp
    have hrun := collStart_ready (x := x) rfl h1 h2 h3 hl hd hr hc hp
    refine ⟨fun s' bs hag hsrc => ?_, fun e he hag => ?_⟩
    · have h0 : (l.any (fun e => decide (e.2.2.status ≠ 0)) || !l.all (fun e => e.2.2.agrees x)) = false := by
        rw [Bool.or_eq_false_iff, List.any_eq_false, Bool.not_eq_false', List.all_eq_true]
        exact ⟨fun e he => by simp [(hag e he).1], fun e he => (hag e he).2⟩
      rw [h0, if_neg (by decide), hsrc] at hrun
      exact hrun
    · have h0 : (l.any (fun e => decide (e.2.2.status ≠ 0)) || !l.all (fun e => e.2.2.agrees x)) = true := by
        have : l.all (fun e => e.2.2.agrees x) = false := by
          rw [List.all_eq_false]
          exact ⟨e, he, by simp [hag]⟩
        rw [this]
        simp
      rw [h0, if_pos rfl] at hrun
      exact hrun
  · intro s p ix x h1 h2 h3 hr
    exact collStart_unreachable rfl h1 h2 h3 hr
  · intro s p ix ch x h1 h2 h3 h4 h5 h6 hg h7 h8 h9
    refine ⟨?_, fun hst hr he ht => ?_⟩
    · intro o hex hop hq r bytes va hl hn hpg ho hm ht
      obtain ⟨b, ho⟩ := ho
      obtain ⟨t, w1, w2, w3, w4, w5⟩ := lastStep_copies (x := x) (ix := ix) rfl hg hex hop hq hn hl hpg ho hm ht
      exact ⟨t, collChunkArrival_runs (x := x) rfl h1 h2 h3 h4 h5 h6 h7 h8 h9 w1, w2, w3, w4, w5⟩
    · obtain ⟨t, ht⟩ := lastStep_goes (ix := ix) hst hr he h4 ht
      exact ⟨t, collChunkArrival_runs (x := x) rfl h1 h2 h3 h4 h5 h6 h7 h8 h9 ht⟩
  · intro s p ix c x h1 h2 hf hq
    exact collCompletes rfl h1 h2 hf hq

end Sys2Proof.Machine
end

section
/-! Accumulators (R164 to R166): the drain queue, the writes of an accumulator at its issue, and what a drain writes. -/

namespace Sys2Proof.Machine

/-! ### Drains are queued -/

theorem hinted_drains (s : State) (i : Instr) (c : Ctx) (act : List Nat) : (s.hinted i act).drains (c.begun i act) = s.drains c := by
  unfold State.hinted Ctx.begun
  split
  · rfl
  · exact foldl_filter_adjust s.ctxs s.cur.ctx (fun c => c.schedule act)
      (fun x => decide (x.2.kind = .group) && x.2.placed && (s.unit x.2.unit).inPlace && decide (x.2.pkg = c.pkg)
        && decide (x.2.site.clusNo = c.site.clusNo))
      (fun n x => n + (x.2.rq.filter (fun e => decide (e.kind = 8))).length) (fun _ _ => rfl) (fun _ _ _ => rfl) 0
/-- The issue of a drain where the queue and the counter have room. -/
theorem queued_drain {s : State} {i : Instr} {c : Ctx} {act : List Nat} (h : Issues s i c act) (body : State → Ctx → List Nat → Eff)
    (hx : exec i s = gate i s body) {cls : Option CClass} {holds : List RegName} {cap : Cap} {args : List Word}
    (hb : body (s.hinted i act) (c.begun i act) act = drain i (s.hinted i act) (c.begun i act) (act.headD 0) cls holds cap args)
    (hd : s.drains c < 16) (hc : ∀ k, cls = some k → c.counter k < 63) {r : Req} {places : Req → List Loc} (hr : r.lane = act.headD 0)
    (hcap : Captured r (places r) cap) : Queued i s s c 8 cls holds args [r] places .none := by
  have hok : body (s.hinted i act) (c.begun i act) act
      = .ok ((s.hinted i act).addEntry s.cur.ctx ((s.hinted i act).mkEntry (c.begun i act) i (act.headD 0) 8 cls holds [(act.headD 0, cap)] args)) := by
    rw [hb]
    unfold drain
    rw [hinted_drains, if_neg (Nat.not_le.mpr hd), State.hinted_cur]
    cases cls with
    | none => exact if_neg (by simp)
    | some k =>
      have := hc k rfl
      exact if_neg (by simpa [begun_counter] using this)
  refine queued_of h body hx hok rfl (hinted_find h) ((State.Walked.refl _).reaches_hinted)
    ⟨rfl, rfl, begun_nextId .., rfl, congrArg Issue.pc (State.hinted_cur ..), rfl, rfl, rfl, rfl⟩ ⟨fun r' hr' => ?_, fun l hl => ?_⟩
  · rw [List.mem_singleton.mp hr', hr]
    exact ⟨cap, if_pos rfl, hcap⟩
  · have := hl r List.mem_cons_self
    rw [hr] at this
    exact (if_neg (fun e => this e.symm) : Sparse.find [(act.headD 0, cap)] l = none)

theorem drain_noTrap (i : Instr) (s : State) (c : Ctx) (l : Nat) (cls : Option CClass) (holds : List RegName) (cap : Cap) (args : List Word)
    (cause : Nat) (ls : List Nat) (info : Nat) : drain i s c l cls holds cap args ≠ .trap cause ls info := by
  intro h
  unfold drain at h
  dsimp only at h
  repeat' split at h
  all_goals cases h

/-! ### Accumulators written at the issue -/

/-- A context with other accumulators. -/
def Ctx.withAccs (c : Ctx) (m : Sparse Word) : Ctx := { c with accs := m }
theorem depart_withAccs (s : State) (i : Instr) (coh act : List Nat) (c : Ctx) (m : Sparse Word) :
    let c' := s.depart i coh ((c.begun i act).withAccs m)
    c' = { c with lanes := c'.lanes, accs := c'.accs, yld := c'.yld, prio := c'.prio, misses := c'.misses, hold := none, withdrawn := false, missAt := none }
      ∧ c'.accs = m := by
  intro c'
  have key : ∀ x d : Ctx, x = s.depart i coh d → x = { d with lanes := x.lanes, misses := x.misses, hold := none, withdrawn := false, missAt := none } := by
    rintro x d rfl
    exact depart_only s i coh d
  have h := key c' _ rfl
  have hc : (c.begun i act).withAccs m = { c with accs := m, yld := (c.begun i act).yld, prio := (c.begun i act).prio } := by
    rw [begun_only]
    rfl
  rw [hc] at h
  clear_value c'
  have hy := congrArg Ctx.yld h
  have hp := congrArg Ctx.prio h
  have ha := congrArg Ctx.accs h
  refine ⟨?_, ha⟩
  rw [hy, hp, ha]
  exact h
/-- A context with another width of PROCFG. -/
def Ctx.withGs64 (c : Ctx) (b : Bool) : Ctx := { c with gs64 := b }
theorem depart_withGs64 (s : State) (i : Instr) (coh act : List Nat) (c : Ctx) (b : Bool) :
    let c' := s.depart i coh ((c.begun i act).withGs64 b)
    c' = { c with lanes := c'.lanes, gs64 := b, yld := c'.yld, prio := c'.prio, misses := c'.misses, hold := none, withdrawn := false, missAt := none }
      ∧ c'.gs64 = b := by
  intro c'
  have key : ∀ x d : Ctx, x = s.depart i coh d → x = { d with lanes := x.lanes, misses := x.misses, hold := none, withdrawn := false, missAt := none } := by
    rintro x d rfl
    exact depart_only s i coh d
  have h := key c' _ rfl
  have hc : (c.begun i act).withGs64 b = { c with gs64 := b, yld := (c.begun i act).yld, prio := (c.begun i act).prio } := by
    rw [begun_only]
    rfl
  rw [hc] at h
  clear_value c'
  have hy := congrArg Ctx.yld h
  have hp := congrArg Ctx.prio h
  refine ⟨?_, congrArg Ctx.gs64 h⟩
  rw [hy, hp]
  exact h
theorem begun_accs (c : Ctx) (i : Instr) (act : List Nat) : (c.begun i act).accs = c.accs := by rw [begun_only]
theorem length_rdTile (c : Ctx) (t : Nat) : (c.rdTile t).length = 1024 := by
  unfold Ctx.rdTile Sparse.getRun
  rw [List.length_map, List.length_range]
/-- An instruction that writes an accumulator completes where no entry of its group stands on it. -/
theorem accWrite_completes {s : State} {i : Instr} {c : Ctx} {act : List Nat} (h : Issues s i c act) (a : Nat) (m : Sparse Word)
    (f : State → Ctx → Nat → List Nat → Eff) (hx : exec i s = oncePerIssue i s f) (F : Ctx → Ctx) (hF : F (c.begun i act) = (c.begun i act).withAccs m)
    (hf : f (s.hinted i act) (c.begun i act) (act.headD 0) act = onAcc (s.hinted i act) (c.begun i act) a F) (hn : ∀ e ∈ c.rq, accOfIns e.ins ≠ some a) :
    ∃ c', Completes i s c' ∧ c'.accs = m ∧ Moved c c' (s.cohort c) c.preds
      ∧ c' = { c with lanes := c'.lanes, accs := c'.accs, yld := c'.yld, prio := c'.prio, misses := c'.misses
                      hold := none, withdrawn := false, missAt := none } := by
  have hfree : accEntries (c.begun i act).rq a = [] := by
    rw [begun_rq]
    exact List.filter_eq_nil_iff.mpr (fun e he => by simpa using hn e he)
  have hc := completes_of_once h f hx F (by rw [hf, onAcc, hfree, State.hinted_cur]; rfl)
  rw [hF] at hc
  obtain ⟨h1, h2⟩ := depart_withAccs s i (s.cohort c) act c m
  refine ⟨_, hc, h2, fun l => ?_, h1⟩
  rw [depart_lane _ _ _ (cohort_nodup s c)]
  have : ((c.begun i act).withAccs m).lane l = c.lane l := begun_lane ..
  rw [this]
  rfl
theorem accWrite_waits {s : State} {i : Instr} {c : Ctx} {act : List Nat} (h : Issues s i c act) (a : Nat)
    (f : State → Ctx → Nat → List Nat → Eff) (hx : exec i s = oncePerIssue i s f) (F : Ctx → Ctx)
    (hf : f (s.hinted i act) (c.begun i act) (act.headD 0) act = onAcc (s.hinted i act) (c.begun i act) a F)
    {e : RqEntry} (he : e ∈ c.rq) (ha : accOfIns e.ins = some a) :
    Waits i s c act (s.hinted i act) (.order ((c.rq.filter (fun e => decide (accOfIns e.ins = some a))).map (·.id))) := by
  have hw : onAcc (s.hinted i act) (c.begun i act) a F = .wait (s.hinted i act) (.order ((c.rq.filter (fun e => decide (accOfIns e.ins = some a))).map (·.id))) := by
    unfold onAcc accEntries
    rw [begun_rq]
    have hm : e.id ∈ (c.rq.filter (fun e => decide (accOfIns e.ins = some a))).map (·.id) :=
      List.mem_map_of_mem (List.mem_filter.mpr ⟨he, by simpa using ha⟩)
    split
    · next hnil => rw [hnil] at hm; cases hm
    · rfl
  exact hx.trans (once_wait h f (hf.trans hw))
theorem Sparse.get_clear {α : Type} (d : α) (m : Sparse α) (lo hi k : Nat) :
    Sparse.get d (Sparse.clear m lo hi) k = if lo ≤ k ∧ k < hi then d else Sparse.get d m k := by
  have h := find_filter_key m (fun j => decide (j < lo) || decide (hi ≤ j)) k
  unfold Sparse.get Sparse.clear
  rw [h]
  by_cases hk : lo ≤ k ∧ k < hi
  · rw [if_pos hk, if_neg (by simp; omega)]
    rfl
  · rw [if_neg hk, if_pos (by simp; omega)]

theorem accumulators : Claims.Accumulators := by
  refine ⟨fun g d a f h s c act hi hd => ?_, fun g d a f s c act hi hd => ?_, fun g d a f s c act o hi hd hs ha ho => ?_, fun g a x s c act hi hn => ?_,
    fun g a s c act hi hn => ?_, fun g a s c act hi e he hae => ?_, fun g a x s c act hi e he hae => ?_, fun g s64 s c act hi => ?_⟩
  · exact queued_drain hi _ ((exec_accrdT_eq ..).trans (oncePerIssue_eq ..)) (cap := {}) (onceBody_eq hi.some rfl (drain_noTrap _ _ _ _ _ _ _ _)) hd (fun k hk => by cases hk) rfl ⟨rfl, rfl, rfl, rfl, rfl, rfl, rfl⟩
  · exact queued_drain hi _ (exec_accrdV_eq ..) (cap := {}) (by rw [hinted_fmtOf]) hd (fun k hk => by cases hk) rfl ⟨rfl, rfl, rfl, rfl, rfl, rfl, rfl⟩
  · refine queued_drain hi _ ((exec_accrdC_eq ..).trans (oncePerIssue_eq ..))
      (cap := { va := (c.rdG d).toNat, len := 32 * (slotOf (s.fmtOf c) f).fmt.width, pages := [o] }) (onceBody_eq hi.some ?_ (drain_noTrap _ _ _ _ _ _ _ _)) hd
      (fun k hk => by cases hk; exact hs) rfl ⟨rfl, rfl, rfl, rfl, rfl, rfl, rfl⟩
    dsimp only
    rw [begun_rdG, hinted_fmtOf, hinted_coreStore, if_neg (by omega), ho]
  · obtain ⟨c', h1, h2, h3, h4⟩ := accWrite_completes hi a (Sparse.setRun 0 c.accs (256 * a) (bytesWords (c.rdTile x))) _ (exec_accwr_eq ..) _
      (by rw [← begun_rdTile c (.accwr g a x) act, ← begun_accs c (.accwr g a x) act]; rfl) rfl hn
    have hl : (bytesWords (c.rdTile x)).length = 256 := length_bytesWords 256 _ (length_rdTile c x)
    have hr : ∀ m i j, c'.rdAcc m i j = if 256 * a ≤ 256 * m + 16 * i + j ∧ 256 * m + 16 * i + j < 256 * a + 256
        then (bytesWords (c.rdTile x)).getD (256 * m + 16 * i + j - 256 * a) 0 else c.rdAcc m i j := fun m i j => by
      unfold Ctx.rdAcc
      rw [h2, Sparse.get_setRun, hl]
    refine ⟨c', h1, fun i hi j hj => ?_, fun m hm i hi j hj => ?_, h3, h4⟩
    · rw [hr, if_pos (by omega), bytesWords_getD 256 _ (length_rdTile c x) _ (by omega), show 4 * (256 * a + 16 * i + j - 256 * a) = 64 * i + 4 * j by omega]
    · rw [hr, if_neg (by omega)]
  · obtain ⟨c', h1, h2, h3, h4⟩ := accWrite_completes hi a (Sparse.clear c.accs (256 * a) (256 * a + 256)) _ (exec_accz_eq ..) _
      (by rw [← begun_accs c (.accz g a) act]; rfl) rfl hn
    have hr : ∀ m i j, c'.rdAcc m i j = if 256 * a ≤ 256 * m + 16 * i + j ∧ 256 * m + 16 * i + j < 256 * a + 256 then 0 else c.rdAcc m i j := fun m i j => by
      unfold Ctx.rdAcc
      rw [h2, Sparse.get_clear]
    refine ⟨c', h1, fun i hi j hj => ?_, fun m hm i hi j hj => ?_, h3, h4⟩
    · rw [hr, if_pos (by omega)]
    · rw [hr, if_neg (by omega)]
  · exact accWrite_waits hi a _ (exec_accz_eq ..) _ rfl he hae
  · exact accWrite_waits hi a _ (exec_accwr_eq ..) _ rfl he hae
  · have hc := completes_of_once hi _ (exec_procfg_eq g s64 s) (fun c => c.withGs64 s64) (by rw [State.hinted_cur]; rfl)
    obtain ⟨h1, h2⟩ := depart_withGs64 s (.procfg g s64) (s.cohort c) act c s64
    refine ⟨_, hc, h2, fun l => ?_, h1⟩
    rw [depart_lane _ _ _ (cohort_nodup s c)]
    have : ((c.begun (.procfg g s64) act).withGs64 s64).lane l = c.lane l := begun_lane ..
    rw [this]
    rfl

/-! ### What a drain brings -/

theorem foldl_or_flags {α : Type} (l : List α) (g : α → BitVec 6) (b : BitVec 6) :
    l.foldl (fun x a => x ||| g a) b = b ||| l.foldl (fun x a => x ||| g a) 0 := by
  induction l generalizing b with
  | nil => simp
  | cons a l ih => rw [List.foldl_cons, List.foldl_cons, ih, ih (0 ||| g a), show (0 : BitVec 6) ||| g a = g a from BitVec.zero_or, BitVec.or_assoc]
theorem foldl_congr_of {α β : Type} (P : β → Prop) {f g : β → α → β} (l : List α) (b : β) (hb : P b) (hp : ∀ b a, P b → P (g b a))
    (h : ∀ b a, P b → f b a = g b a) : l.foldl f b = l.foldl g b := by
  induction l generalizing b with
  | nil => rfl
  | cons a l ih => rw [List.foldl_cons, List.foldl_cons, h b a hb, ih _ (hp b a hb)]
theorem slot_width (sl : Slot) : sl.fmt.width = 32 ∨ sl.fmt.width = 16 ∨ sl.fmt.width = 8 ∨ sl.fmt.width = 4 := by
  unfold Slot.fmt
  split <;> simp [Fmt.width]
theorem accCodes_eq (c : Ctx) (a : Nat) (sl : Slot) (l : List (Nat × Nat)) :
    c.accCodes a sl l = (l.map (fun p => (roundSlot sl (c.rdAcc a p.1 p.2)).1), l.foldl (fun f p => f ||| (roundSlot sl (c.rdAcc a p.1 p.2)).2) 0) := by
  unfold Ctx.accCodes
  dsimp only
  rw [List.map_map, List.foldl_map]
  rfl
theorem accCodes_congr {c x : Ctx} (h : x.accs = c.accs) (a : Nat) (sl : Slot) (l : List (Nat × Nat)) : x.accCodes a sl l = c.accCodes a sl l := by
  unfold Ctx.accCodes Ctx.rdAcc
  rw [h]
theorem bytesOfNat_slice (n x k q : Nat) (h : k + q ≤ n) : ((bytesOfNat n x).drop k).take q = bytesOfNat q (x / 2 ^ (8 * k)) := by
  refine List.ext_getElem (by rw [List.length_take, List.length_drop, length_bytesOfNat, length_bytesOfNat]; omega) (fun j h1 h2 => ?_)
  rw [length_bytesOfNat] at h2
  have key : ∀ (l : List Byte) (hj : j < l.length), l[j] = l.getD j 0 := fun l hj => by
    rw [List.getD_eq_getElem?_getD, List.getElem?_eq_getElem hj, Option.getD_some]
  rw [key, key, getD_take _ _ _ _ h2, List.getD_eq_getElem?_getD, List.getElem?_drop, ← List.getD_eq_getElem?_getD, bytesOfNat_getD _ _ _ (by omega),
    bytesOfNat_getD _ _ _ h2, Nat.div_div_eq_div_mul, ← Nat.pow_add, Nat.mul_add]

/-! ### Rows written to a tile -/

/-- Runs of bytes written one after another, each at its own offset. -/
def putRuns (l : List Nat) (o : Nat → Nat) (V : Nat → List Byte) (m : Sparse Byte) : Sparse Byte := l.foldl (fun m i => Sparse.setRun 0 m (o i) (V i)) m
theorem get_putRuns_other {n : Nat} (l : List Nat) (o : Nat → Nat) {V : Nat → List Byte} (hV : ∀ i, (V i).length = n) (m : Sparse Byte) (k : Nat)
    (hk : ∀ i ∈ l, ¬ (o i ≤ k ∧ k < o i + n)) : Sparse.get 0 (putRuns l o V m) k = Sparse.get 0 m k := by
  induction l generalizing m with
  | nil => rfl
  | cons x l ih =>
    refine (ih _ (fun i hi => hk i (List.mem_cons_of_mem _ hi))).trans ?_
    rw [Sparse.get_setRun, hV, if_neg (hk x List.mem_cons_self)]
theorem get_putRuns {n : Nat} (l : List Nat) (o : Nat → Nat) {V : Nat → List Byte} (hV : ∀ i, (V i).length = n) (ho : ∀ i k, i ≠ k → o i + n ≤ o k ∨ o k + n ≤ o i)
    (m : Sparse Byte) {i j : Nat} (hi : i ∈ l) (hj : j < n) : Sparse.get 0 (putRuns l o V m) (o i + j) = (V i).getD j 0 := by
  induction l generalizing m with
  | nil => cases hi
  | cons x l ih =>
    by_cases hl : i ∈ l
    · exact ih _ hl
    · have hx : i = x := (List.mem_cons.mp hi).resolve_right hl
      refine (get_putRuns_other l o hV _ (o i + j) (fun k hk hc => ?_)).trans ?_
      · have := ho i k (fun e => hl (e ▸ hk))
        omega
      · rw [Sparse.get_setRun, hV, ← hx, if_pos (by omega), Nat.add_sub_cancel_left]
theorem rdTile_getD (c : Ctx) (t m : Nat) (hm : m < 1024) : (c.rdTile t).getD m 0 = Sparse.get 0 c.tiles (1024 * t + m) := by
  unfold Ctx.rdTile Sparse.getRun
  rw [List.getD_eq_getElem?_getD, List.getElem?_map, List.getElem?_range hm]
  rfl
theorem rdTile_slice (c : Ctx) (t p q : Nat) (h : p + q ≤ 1024) :
    ((c.rdTile t).drop p).take q = (List.range q).map (fun j => Sparse.get 0 c.tiles (1024 * t + p + j)) := by
  refine List.ext_getElem (by rw [List.length_take, List.length_drop, length_rdTile, List.length_map, List.length_range]; omega) (fun j h1 h2 => ?_)
  rw [List.length_map, List.length_range] at h2
  have hj : (((c.rdTile t).drop p).take q).getD j 0 = Sparse.get 0 c.tiles (1024 * t + p + j) := by
    rw [getD_take _ _ _ _ h2, List.getD_eq_getElem?_getD, List.getElem?_drop, ← List.getD_eq_getElem?_getD, rdTile_getD _ _ _ (by omega), Nat.add_assoc]
  rw [List.getD_eq_getElem?_getD, List.getElem?_eq_getElem h1, Option.getD_some] at hj
  rw [hj, List.getElem_map, List.getElem_range]

/-- The codes of the elements of an accumulator under a slot, packed. -/
def accPack (c : Ctx) (a : Nat) (sl : Slot) (l : List (Nat × Nat)) : Nat := packCodes sl.fmt.width (c.accCodes a sl l).1
/-- A tile's part written with the rows of an accumulator. -/
def Ctx.drainT (c : Ctx) (sl : Slot) (d a h : Nat) : Ctx :=
  { c with
    tiles := putRuns (List.range 16) (fun i => 1024 * d + (64 * i + 2 * sl.fmt.width * h))
      (fun i => bytesOfNat (2 * sl.fmt.width) (accPack c a sl ((List.range 16).map (fun j => (i, j))))) c.tiles
    ttags := clearBound c.ttags d
    fpflags := (List.range 16).foldl (fun x i => x ||| (c.accCodes a sl ((List.range 16).map (fun j => (i, j)))).2) c.fpflags }
theorem rows_tile (l : List Nat) (d : Nat) (o : Nat → Nat) (V : Nat → List Byte) (fl : Nat → BitVec 6) (x : Ctx) :
    l.foldl (fun c i => (c.wrTile d (o i) (V i)).setFlags (fl i)) x
      = { x with tiles := putRuns l (fun i => 1024 * d + o i) V x.tiles, fpflags := l.foldl (fun b i => b ||| fl i) x.fpflags } := by
  induction l generalizing x with
  | nil => rfl
  | cons i l ih => rw [List.foldl_cons, ih]; rfl
theorem drainT_eq (c : Ctx) (sl : Slot) (d a h : Nat) :
    ((List.range 16).foldl (fun c i =>
      let r := c.accCodes a sl ((List.range 16).map (fun j => (i, j)))
      (c.wrTile d (64 * i + 2 * sl.fmt.width * h) (bytesOfNat (2 * sl.fmt.width) (packCodes sl.fmt.width r.1))).setFlags r.2) c).unbindT d = c.drainT sl d a h := by
  have hf : (List.range 16).foldl (fun c i =>
      let r := c.accCodes a sl ((List.range 16).map (fun j => (i, j)))
      (c.wrTile d (64 * i + 2 * sl.fmt.width * h) (bytesOfNat (2 * sl.fmt.width) (packCodes sl.fmt.width r.1))).setFlags r.2) c
      = (List.range 16).foldl (fun x i => (x.wrTile d (64 * i + 2 * sl.fmt.width * h)
          (bytesOfNat (2 * sl.fmt.width) (accPack c a sl ((List.range 16).map (fun j => (i, j)))))).setFlags (c.accCodes a sl ((List.range 16).map (fun j => (i, j)))).2) c :=
    foldl_congr_of (fun x => x.accs = c.accs) _ _ rfl (fun x i (hx : x.accs = c.accs) => hx) (fun x i hx => by dsimp only; rw [accCodes_congr hx]; rfl)
  rw [hf, rows_tile]
  rfl
/-- What a drain to a tile leaves. -/
theorem drainT_gives (c : Ctx) (sl : Slot) (d a h : Nat) (hh : h < sl.perReg) :
    (∀ i < 16, natOfBytes ((((c.drainT sl d a h).rdTile d).drop (64 * i + 2 * sl.fmt.width * h)).take (2 * sl.fmt.width))
        = packCodes sl.fmt.width ((List.range 16).map (fun j => (roundSlot sl (c.rdAcc a i j)).1)) % 2 ^ (16 * sl.fmt.width))
      ∧ (∀ m, m < 1024 → (∀ i < 16, ¬ (64 * i + 2 * sl.fmt.width * h ≤ m ∧ m < 64 * i + 2 * sl.fmt.width * h + 2 * sl.fmt.width)) →
          ((c.drainT sl d a h).rdTile d).getD m 0 = (c.rdTile d).getD m 0)
      ∧ (c.drainT sl d a h).fpflags = (List.range 16).foldl (fun x i => (List.range 16).foldl (fun x j => x ||| (roundSlot sl (c.rdAcc a i j)).2) x) c.fpflags
      ∧ (c.drainT sl d a h).ttag d = c.ttag d &&& 0x7FFF
      ∧ ∀ m, m ≠ d → (c.drainT sl d a h).rdTile m = c.rdTile m ∧ (c.drainT sl d a h).ttag m = c.ttag m := by
  have hw : 2 * sl.fmt.width * h + 2 * sl.fmt.width ≤ 64 := by
    unfold Slot.perReg at hh
    rcases slot_width sl with e | e | e | e <;> rw [e] at hh ⊢ <;> omega
  have hV : ∀ i, (bytesOfNat (2 * sl.fmt.width) (accPack c a sl ((List.range 16).map (fun j => (i, j))))).length = 2 * sl.fmt.width := fun i => length_bytesOfNat ..
  have hin : ∀ i < 16, ∀ j < 2 * sl.fmt.width, Sparse.get 0 (c.drainT sl d a h).tiles (1024 * d + (64 * i + 2 * sl.fmt.width * h) + j)
      = (bytesOfNat (2 * sl.fmt.width) (accPack c a sl ((List.range 16).map (fun j => (i, j))))).getD j 0 := fun i hi j hj =>
    get_putRuns _ (fun i => 1024 * d + (64 * i + 2 * sl.fmt.width * h)) hV (fun i k hik => by omega) c.tiles (List.mem_range.mpr hi) hj
  have hout : ∀ k, (∀ i < 16, ¬ (1024 * d + (64 * i + 2 * sl.fmt.width * h) ≤ k ∧ k < 1024 * d + (64 * i + 2 * sl.fmt.width * h) + 2 * sl.fmt.width)) →
      Sparse.get 0 (c.drainT sl d a h).tiles k = Sparse.get 0 c.tiles k := fun k hk =>
    get_putRuns_other _ (fun i => 1024 * d + (64 * i + 2 * sl.fmt.width * h)) hV c.tiles k (fun i hi => hk i (List.mem_range.mp hi))
  have htag : ∀ m, (c.drainT sl d a h).ttag m = if m = d then c.ttag d &&& 0x7FFF else c.ttag m := fun m => Sparse.get_set ..
  refine ⟨fun i hi => ?_, fun m hm hk => ?_, ?_, (htag d).trans (if_pos rfl), fun m hm => ⟨?_, (htag m).trans (if_neg hm)⟩⟩
  · have hs : (((c.drainT sl d a h).rdTile d).drop (64 * i + 2 * sl.fmt.width * h)).take (2 * sl.fmt.width)
        = bytesOfNat (2 * sl.fmt.width) (accPack c a sl ((List.range 16).map (fun j => (i, j)))) := by
      rw [rdTile_slice _ _ _ _ (by omega)]
      refine List.ext_getElem (by rw [List.length_map, List.length_range, length_bytesOfNat]) (fun j h1 h2 => ?_)
      rw [List.length_map, List.length_range] at h1
      rw [List.getElem_map, List.getElem_range, hin i hi j h1, List.getD_eq_getElem?_getD,
        List.getElem?_eq_getElem h2, Option.getD_some]
    rw [hs, natOfBytes_bytesOfNat, show (256 : Nat) = 2 ^ 8 from rfl, ← Nat.pow_mul, show 8 * (2 * sl.fmt.width) = 16 * sl.fmt.width by omega]
    unfold accPack
    rw [accCodes_eq, List.map_map]
    rfl
  · rw [rdTile_getD _ _ _ hm, rdTile_getD _ _ _ hm]
    exact hout _ (fun i hi hc => hk i hi (by omega))
  · refine List.foldl_ext _ _ _ (fun x i _ => ?_)
    rw [accCodes_eq, List.foldl_map, ← foldl_or_flags]
  · unfold Ctx.rdTile Sparse.getRun
    refine List.map_congr_left (fun j hj => hout _ (fun i hi hc => ?_))
    have := List.mem_range.mp hj
    omega

/-! ### Registers written by a drain -/

/-- The elements of an accumulator that a lane takes. -/
def lanePart (l : Nat) : List (Nat × Nat) := (List.range 8).map (fun m => (l / 2, 8 * (l % 2) + m))
/-- Registers of lanes written with parts of an accumulator. -/
def Ctx.drainV (c : Ctx) (sl : Slot) (d a : Nat) (ls : List Nat) : Ctx :=
  ls.foldl (fun x l => (x.wrVs d l (bytesWords (bytesOfNat sl.fmt.width (accPack c a sl (lanePart l))))).setFlags (c.accCodes a sl (lanePart l)).2) c
theorem wrVs_accs (ws : List Word) (c : Ctx) (n l : Nat) : (c.wrVs n l ws).accs = c.accs := by rw [wrVs_only]
theorem drainV_eq (c : Ctx) (sl : Slot) (d a : Nat) (ls : List Nat) :
    ls.foldl (fun c l =>
      let r := c.accCodes a sl ((List.range 8).map (fun m => (l / 2, 8 * (l % 2) + m)))
      (c.wrVs d l (bytesWords (bytesOfNat sl.fmt.width (packCodes sl.fmt.width r.1)))).setFlags r.2) c = c.drainV sl d a ls :=
  foldl_congr_of (fun x => x.accs = c.accs) _ _ rfl (fun x i hx => (wrVs_accs ..).trans hx) (fun x i hx => by dsimp only; rw [accCodes_congr hx]; rfl)
theorem foldl_regs {α : Type} (f : Ctx → α → Ctx) (hf : ∀ x l, f x l = { x with v := (f x l).v, vtags := (f x l).vtags, fpflags := (f x l).fpflags }) (ls : List α) (c : Ctx) :
    ls.foldl f c = { c with v := (ls.foldl f c).v, vtags := (ls.foldl f c).vtags, fpflags := (ls.foldl f c).fpflags } := by
  induction ls generalizing c with
  | nil => rfl
  | cons l ls ih =>
    have key : ∀ v t b, ({ f c l with v := v, vtags := t, fpflags := b } : Ctx) = { c with v := v, vtags := t, fpflags := b } := fun v t b => by rw [hf c l]
    exact (ih (f c l)).trans (key _ _ _)
theorem drainV_only (c : Ctx) (sl : Slot) (d a : Nat) (ls : List Nat) :
    c.drainV sl d a ls = { c with v := (c.drainV sl d a ls).v, vtags := (c.drainV sl d a ls).vtags, fpflags := (c.drainV sl d a ls).fpflags } :=
  foldl_regs _ (fun x l => by
    have h := wrVs_only (bytesWords (bytesOfNat sl.fmt.width (accPack c a sl (lanePart l)))) x d l
    have hf : (x.wrVs d l (bytesWords (bytesOfNat sl.fmt.width (accPack c a sl (lanePart l))))).fpflags = x.fpflags := by rw [wrVs_only]
    generalize x.wrVs d l (bytesWords (bytesOfNat sl.fmt.width (accPack c a sl (lanePart l)))) = y at h hf ⊢
    refine (congrArg (fun z : Ctx => z.setFlags (c.accCodes a sl (lanePart l)).2) h).trans ?_
    show ({ x with v := y.v, vtags := y.vtags, fpflags := x.fpflags ||| (c.accCodes a sl (lanePart l)).2 } : Ctx) = { x with v := y.v, vtags := y.vtags, fpflags := y.fpflags ||| (c.accCodes a sl (lanePart l)).2 }
    rw [hf]) ls c
/-- What a drain to vector registers leaves. -/
theorem drainV_gives (c : Ctx) (sl : Slot) (d a : Nat) (m : Word) :
    (∀ l ∈ lanesOf m, ∀ j < sl.fmt.width / 4, (c.drainV sl d a (lanesOf m)).rdV (d + j) l
        = BitVec.ofNat 32 (packCodes sl.fmt.width ((List.range 8).map (fun n => (roundSlot sl (c.rdAcc a (l / 2) (8 * (l % 2) + n))).1)) / 2 ^ (32 * j)))
      ∧ (∀ n l, l < 32 → ¬ (l ∈ lanesOf m ∧ d ≤ n ∧ n < d + sl.fmt.width / 4) → (c.drainV sl d a (lanesOf m)).rdV n l = c.rdV n l)
      ∧ (∀ n, Sparse.get 0 (c.drainV sl d a (lanesOf m)).vtags n = if lanesOf m ≠ [] ∧ d ≤ n ∧ n < d + sl.fmt.width / 4 then Sparse.get 0 c.vtags n &&& 0x7FFF
          else Sparse.get 0 c.vtags n)
      ∧ (c.drainV sl d a (lanesOf m)).fpflags = (lanesOf m).foldl (fun x l => (List.range 8).foldl (fun x n =>
          x ||| (roundSlot sl (c.rdAcc a (l / 2) (8 * (l % 2) + n))).2) x) c.fpflags := by
  have hw : 4 * (sl.fmt.width / 4) = sl.fmt.width := by rcases slot_width sl with e | e | e | e <;> rw [e]
  have hlt : ∀ l ∈ lanesOf m, l < 32 := fun l hl => List.mem_range.mp (List.mem_filter.mp hl).1
  have hlen : ∀ x, (bytesWords (bytesOfNat sl.fmt.width x)).length = sl.fmt.width / 4 := fun x => length_bytesWords _ _ (by rw [length_bytesOfNat, hw])
  have hds : ∀ n, n ∈ (List.range (sl.fmt.width / 4)).map (fun j => d + j) ↔ d ≤ n ∧ n < d + sl.fmt.width / 4 := fun n => by
    simp only [List.mem_map, List.mem_range]
    constructor
    · rintro ⟨j, hj, rfl⟩; omega
    · rintro ⟨h1, h2⟩; exact ⟨n - d, by omega, by omega⟩
  have hrd : ∀ n l, l < 32 → (c.drainV sl d a (lanesOf m)).rdV n l = if n ∈ (List.range (sl.fmt.width / 4)).map (fun j => d + j) ∧ l ∈ lanesOf m
      then (bytesWords (bytesOfNat sl.fmt.width (accPack c a sl (lanePart l)))).getD (n - d) 0 else c.rdV n l := fun n l hl =>
    foldl_rdV _ hlt _ _ _ (fun l n => (bytesWords (bytesOfNat sl.fmt.width (accPack c a sl (lanePart l)))).getD (n - d) 0) (fun x l hl n k hk => by
      refine (rdV_wrVs _ x d l n k hl hk).trans ?_
      rw [hlen]
      simp only [hds]) n l hl
  refine ⟨fun l hl j hj => ?_, fun n l hl hn => ?_, fun n => ?_, ?_⟩
  · rw [hrd _ _ (hlt l hl), if_pos ⟨(hds _).mpr (by omega), hl⟩, Nat.add_sub_cancel_left, bytesWords_getD _ _ (by rw [length_bytesOfNat, hw]) _ hj, bytesOfNat_slice _ _ _ _ (by omega),
      natOfBytes_bytesOfNat, show 8 * (4 * j) = 32 * j by omega]
    unfold accPack lanePart
    rw [accCodes_eq, List.map_map]
    apply BitVec.eq_of_toNat_eq
    rw [BitVec.toNat_ofNat, BitVec.toNat_ofNat, show 256 ^ 4 = 2 ^ 32 from rfl, Nat.mod_mod]
    rfl
  · rw [hrd _ _ hl, if_neg (fun hc => hn ⟨hc.2, (hds n).mp hc.1⟩)]
  · by_cases hl : lanesOf m = []
    · rw [if_neg (fun hc => hc.1 hl), hl]
      rfl
    · refine (foldl_vtags _ hl c _ ((List.range (sl.fmt.width / 4)).map (fun j => d + j)) (fun x l n => ?_) n).trans ?_
      · refine (wrVs_tags _ x d l n).trans ?_
        rw [hlen]
        simp only [hds]
      · simp only [hds, hl, ne_eq, not_false_iff, true_and]
  · refine (foldl_raised _ c (fun x l => x.wrVs d l (bytesWords (bytesOfNat sl.fmt.width (accPack c a sl (lanePart l))))) (fun l => (c.accCodes a sl (lanePart l)).2)
      (fun x l => by rw [wrVs_only])).trans ?_
    refine List.foldl_ext _ _ _ (fun x l _ => ?_)
    dsimp only
    rw [accCodes_eq, lanePart, List.foldl_map, ← foldl_or_flags]

/-! ### The event of a drain -/

section
variable {s : State} {k id : Nat} {c : Ctx} {e : RqEntry} (hf : Sparse.find s.ctxs k = some c) (he : c.entry id = some e) (h8 : e.kind = 8)
  (hst : (s.unit c.unit).hasStore = true) (hq : s.NoSlots) (ht : s.travels c.pkg c.site ((Sparse.find e.caps e.leader).getD {}).segs = true)
  (hb : ∀ f ∈ c.before id, f.kind = 7 → accOfIns f.ins ≠ accOfIns e.ins)
include hf he h8 hst ht hb

/-- A drain that may be performed is, and leaves its queue. -/
theorem drain_event (hm : e.cls = some .store → State.mayPerform c e e.leader ((Sparse.find e.caps e.leader).getD {}) = true) :
    exec (.accrdWriteComplete k id) s = .next ((s.applyAccrd k e).dropEntry k id) := by
  have hc : s.ctx k = c := State.ctx_of_find _ _ _ hf
  have hid : e.id = id := by simpa using List.find?_some he
  have hbusy : c.accBusy e = false := by
    unfold Ctx.accBusy
    rw [hid]
    exact List.any_eq_false.mpr (fun f hf => by simpa using hb f hf)
  have hready : s.accrdReady k e ((Sparse.find e.caps e.leader).getD {}) = true := by
    unfold State.accrdReady
    dsimp only
    rw [hc, hbusy, hst, ht]
    by_cases hs : e.cls = some .store
    · simp [h8, hm hs]
    · simp [h8, hs]
  rw [exec_accrdWriteComplete_eq]
  unfold execAccrdWriteComplete
  dsimp only
  rw [hc, he]
  dsimp only
  rw [if_neg (by rw [hready]; simp)]
include hq
/-- A drain whose effect is on its context alone. -/
theorem drain_own (hn : e.cls = none) (F : Ctx → Ctx) (ha : s.applyAccrd k e = s.modCtx k F) :
    ∃ t, exec (.accrdWriteComplete k id) s = .next t ∧ t.ctx k = (F c).withRq ((F c).rq.filter (fun y => decide (y.id ≠ id))) ∧ SameBytes s t
      ∧ ∀ j, j ≠ k → t.ctx j = s.ctx j := by
  have hd := (((State.Turns.refl hf).modCtx F).dropped hq id).1
  refine ⟨_, (drain_event hf he h8 hst ht hb (fun h => by rw [hn] at h; cases h)).trans (by rw [ha]), hd.ctx, hd.bytes, hd.others⟩
end
theorem accImage_eq (c : Ctx) (a : Nat) (sl : Slot) : c.accImage a sl =
    (bytesOfNat (32 * sl.fmt.width) (packCodes sl.fmt.width ((List.range 256).map (fun n => (roundSlot sl (c.rdAcc a (n / 16) (n % 16))).1))),
      (List.range 256).foldl (fun x n => x ||| (roundSlot sl (c.rdAcc a (n / 16) (n % 16))).2) 0) := by
  unfold Ctx.accImage
  simp only [accCodes_eq, List.map_map, List.foldl_map, Function.comp_def]
theorem drainsWrite : Claims.DrainsWrite := by
  intro s k id c e hf he h8 hst hq ht hb
  have hc : s.ctx k = c := State.ctx_of_find _ _ _ hf
  refine ⟨fun g d a f h hi hn => ?_, fun g d a f m hi hn hm => ?_, fun g d a f x o hi hcls hx hp hg hs ho => ?_⟩
  · obtain ⟨t, h1, h2, h3, h4⟩ := drain_own hf he h8 hst hq ht hb hn (fun c => c.drainT (slotOf (s.fmtOf (s.ctx k)) f) d a h) (by
      unfold State.applyAccrd
      rw [hi]
      exact congrArg (s.modCtx k) (funext fun c => drainT_eq c _ d a h))
    rw [hc] at h2
    exact ⟨t, _, h1, h2, h3, h4, rfl, rfl, fun hh => drainT_gives c _ d a h hh⟩
  · obtain ⟨t, h1, h2, h3, h4⟩ := drain_own hf he h8 hst hq ht hb hn (fun c => c.drainV (slotOf (s.fmtOf (s.ctx k)) f) d a (lanesOf m)) (by
      unfold State.applyAccrd
      rw [hi, hm]
      exact congrArg (s.modCtx k) (funext fun c => drainV_eq c _ d a (lanesOf m)))
    rw [hc, drainV_only] at h2
    exact ⟨t, _, h1, h2, h3, h4, rfl, rfl, drainV_gives c _ d a m⟩
  · have hev := drain_event hf he h8 hst ht hb (fun _ => by rw [hx]; exact hp)
    have happ : s.applyAccrd k e = ((State.ctxWrite true s c o (bytesOfNat (32 * (slotOf (s.fmtOf c) f).fmt.width)
          (packCodes (slotOf (s.fmtOf c) f).fmt.width ((List.range 256).map (fun n => (roundSlot (slotOf (s.fmtOf c) f) (c.rdAcc a (n / 16) (n % 16))).1))))).afterUse c x).modCtx k
        (fun y => y.setFlags (y.accImage a (slotOf (s.fmtOf c) f)).2) := by
      unfold State.applyAccrd
      rw [hi]
      dsimp only
      rw [hc, hx, Option.getD_some, writeSegs_one hs hg, accImage_eq]
      dsimp only
      rw [List.take_of_length_le (Nat.le_of_eq (length_bytesOfNat ..))]
    rw [happ] at hev
    generalize hw : State.ctxWrite true s c o _ = w at hev
    have hwr : s.Wrote (w.afterUse c x) := hw ▸ (State.ctxWrite_wrote hq true c o _).calm ((State.Calm.refl _).afterUse c x)
    have hsd := (State.ctxWrite_stored hq true c ho (bytesOfNat (32 * (slotOf (s.fmtOf c) f).fmt.width)
          (packCodes (slotOf (s.fmtOf c) f).fmt.width ((List.range 256).map (fun n => (roundSlot (slotOf (s.fmtOf c) f) (c.rdAcc a (n / 16) (n % 16))).1)))))
    rw [hw] at hsd
    have hd := (((State.Turns.refl (s := w.afterUse c x) (k := k) (c := c) (by rw [hwr.ctxs]; exact hf)).modCtx
      (fun y => y.setFlags (y.accImage a (slotOf (s.fmtOf c) f)).2)).dropped hwr.quiet id).1
    refine ⟨_, _, hev, hd.ctx, fun j hj => (hd.others j hj).trans (by unfold State.ctx; rw [hwr.ctxs]), rfl, rfl,
      (hsd.congr (.refl s) ((State.Calm.refl w).afterUse c x).sameBytes).congr (.refl s) hd.bytes, ?_⟩
    rw [foldl_or_flags]
    show c.fpflags ||| (c.accImage a (slotOf (s.fmtOf c) f)).2 = _
    rw [accImage_eq]

/-- Settles O22: the issue and the writes of drains, and the writes of accumulators. -/
theorem accumulatorDrains : Obligations.AccumulatorDrains := ⟨accumulators, drainsWrite⟩

end Sys2Proof.Machine
end

section
/-! Matrix passes (R152 to R157, R161 to R163): their posting, their grant and their completion. -/

namespace Sys2Proof.Machine

/-! ### The posting of a pass -/

theorem hinted_reservations (s : State) (i : Instr) (c : Ctx) (act : List Nat) : (s.hinted i act).reservations (c.begun i act) = s.reservations c := by
  unfold State.hinted Ctx.begun
  split
  · rfl
  · exact foldl_filter_adjust s.ctxs s.cur.ctx (fun c => c.schedule act)
      (fun x => decide (x.2.kind = .group) && x.2.placed && (s.unit x.2.unit).inPlace && decide (x.2.pkg = c.pkg)
        && decide (x.2.site.clusNo = c.site.clusNo))
      (fun n x => n + (x.2.rq.filter RqEntry.ungranted).length) (fun _ _ => rfl) (fun _ _ _ => rfl) 0
theorem reservations_congr {s t : State} (hc : t.ctxs = s.ctxs) (hu : ∀ u, (t.unit u).inPlace = (s.unit u).inPlace) (c : Ctx) : t.reservations c = s.reservations c := by
  unfold State.reservations State.engineGroups
  simp only [hc, hu]
/-- The streams and the quarter of a context. -/
def Ctx.withStreams (c : Ctx) (a b : Stream) (q : Nat) : Ctx := { c with strA := a, strB := b, quarter := q }
/-- Stream A after a pass is posted. -/
def Ctx.nextA (c : Ctx) (ka ovA : Bool) : Stream := { c.strA with cons := if ka = true ∨ ovA = true then c.strA.cons else (c.strA.cons + 1) % 2 ^ 16 }
/-- Stream B after a pass is posted. -/
def Ctx.nextB (c : Ctx) (kb ovB int4 : Bool) : Stream :=
  { c.strB with cons := if kb = true ∨ ovB = true ∨ (int4 = true ∧ c.quarter ≠ 3) then c.strB.cons else (c.strB.cons + 1) % 2 ^ 16 }
/-- The quarter after a pass is posted. -/
def Ctx.nextQuarter (c : Ctx) (kb ovB int4 : Bool) : Nat :=
  if kb = true ∨ ovB = true then c.quarter else if int4 = true then (if c.quarter = 3 then 0 else c.quarter + 1) else c.quarter
theorem consume_eq (c : Ctx) (ka kb ovA ovB int4 : Bool) :
    c.consume ka kb ovA ovB int4 = c.withStreams (c.nextA ka ovA) (c.nextB kb ovB int4) (c.nextQuarter kb ovB int4) := by
  obtain ⟨f, hf⟩ : ∃ f : Ctx → Ctx, f = fun c => if ovA || ka then c else { c with strA := { c.strA with cons := (c.strA.cons + 1) % 2 ^ 16 } } := ⟨_, rfl⟩
  have h1 : f c = c.withStreams (c.nextA ka ovA) c.strB c.quarter := by
    rw [hf]
    cases ka <;> cases ovA <;> rfl
  have h2 : c.consume ka kb ovA ovB int4 = (f c).consume true kb true ovB int4 := by
    rw [hf]
    rfl
  rw [h2, h1]
  cases kb
  case true => cases ovB <;> rfl
  case false =>
    cases ovB
    case true => rfl
    case false =>
      cases int4
      case false => rfl
      case true =>
        unfold Ctx.consume Ctx.nextB Ctx.nextQuarter Ctx.withStreams
        by_cases hq : c.quarter = 3
        · simp [hq]
        · simp [hq]
/-- What the issue of a pass leaves of its context. -/
theorem depart_posted (s : State) (i : Instr) (coh act : List Nat) (c : Ctx) (cls : Option CClass) (e : RqEntry) (a b : Stream) (q : Nat) :
    let c' := s.depart i coh (((c.begun i act).enqueue cls e).withStreams a b q)
    (c' = { c.countIssue cls with lanes := c'.lanes, rq := c.rq ++ [e], nextId := c.nextId + 1, strA := c'.strA, strB := c'.strB, quarter := c'.quarter
                                  yld := c'.yld, prio := c'.prio, misses := c'.misses, hold := none, withdrawn := false, missAt := none })
      ∧ c'.strA = a ∧ c'.strB = b ∧ c'.quarter = q ∧ c'.prio = (c.begun i act).prio := by
  intro c'
  have key : ∀ x d : Ctx, x = s.depart i coh d → x = { d with lanes := x.lanes, misses := x.misses, hold := none, withdrawn := false, missAt := none } := by
    rintro x d rfl
    exact depart_only s i coh d
  have h := key c' _ rfl
  have hb := begun_only c i act
  generalize (c.begun i act).prio = pr at hb ⊢
  generalize (c.begun i act).yld = yl at hb
  have hc : ((c.begun i act).enqueue cls e).withStreams a b q
      = { c.countIssue cls with rq := c.rq ++ [e], nextId := c.nextId + 1, strA := a, strB := b, quarter := q, yld := yl, prio := pr } := by
    rw [hb]
    cases cls <;> rfl
  rw [hc] at h
  clear_value c'
  have hy := congrArg Ctx.yld h
  have hp := congrArg Ctx.prio h
  have ha := congrArg Ctx.strA h
  have hbb := congrArg Ctx.strB h
  have hq := congrArg Ctx.quarter h
  refine ⟨?_, ha, hbb, hq, by rw [hp]⟩
  rw [hy, hp, ha, hbb, hq]
  exact h
theorem begun_streams (c : Ctx) (i : Instr) (act : List Nat) : (c.begun i act).strA = c.strA ∧ (c.begun i act).strB = c.strB ∧ (c.begun i act).quarter = c.quarter
    ∧ (c.begun i act).gs64 = c.gs64 ∧ (c.begun i act).unit = c.unit ∧ (c.begun i act).index = c.index := by
  rw [begun_only]
  exact ⟨rfl, rfl, rfl, rfl, rfl, rfl⟩
theorem setCv_inPlace (s : State) (w v : Nat) (r : CvReg) (u : Nat) : ((s.setCv w v r).unit u).inPlace = (s.unit u).inPlace := by
  unfold State.setCv State.unit
  rw [State.find_modUnit]
  by_cases hu : u = w
  · rw [if_pos hu, hu]
    cases Sparse.find s.units w <;> rfl
  · rw [if_neg hu]
theorem enqueue_streams (c : Ctx) (cls : Option CClass) (e : RqEntry) :
    (c.enqueue cls e).strA = c.strA ∧ (c.enqueue cls e).strB = c.strB ∧ (c.enqueue cls e).quarter = c.quarter := by
  cases cls <;> exact ⟨rfl, rfl, rfl⟩
theorem nextStreams_congr {c x : Ctx} (h1 : x.strA = c.strA) (h2 : x.strB = c.strB) (h3 : x.quarter = c.quarter) {ka ovA kb ovB int4 : Bool} (y : Ctx) :
    y.withStreams (x.nextA ka ovA) (x.nextB kb ovB int4) (x.nextQuarter kb ovB int4) = y.withStreams (c.nextA ka ovA) (c.nextB kb ovB int4) (c.nextQuarter kb ovB int4) := by
  unfold Ctx.nextA Ctx.nextB Ctx.nextQuarter
  rw [h1, h2, h3]
section
variable {s : State} {g : Guard} {ka kb : Bool} {a fa fb v : Nat} {c : Ctx} {act : List Nat}
/-- The state in which a pass is posted: its anchor has signed. -/
def State.signed (s : State) (c : Ctx) (v : Nat) (r : CvReg) (signing : Bool) : State :=
  if signing then (s.release c 1).setCv c.unit v (r.sign (maskOf [r.anchor])) else s
theorem signed_fields (s : State) (c : Ctx) (v : Nat) (r : CvReg) (b : Bool) :
    (s.signed c v r b = { s with pkgs := (s.signed c v r b).pkgs, units := (s.signed c v r b).units }) ∧ SameBytes s (s.signed c v r b)
      ∧ (∀ u, ((s.signed c v r b).unit u).inPlace = (s.unit u).inPlace)
      ∧ (b = false → (s.signed c v r b).units = s.units)
      ∧ (b = true → Sparse.find s.units c.unit ≠ none → ((s.signed c v r b).unit c.unit).cv v = r.sign (maskOf [r.anchor])) := by
  obtain ⟨ps, h1, h2⟩ := release_L1 s c
  cases b with
  | false => exact ⟨rfl, .refl s, fun _ => rfl, fun _ => rfl, nofun⟩
  | true =>
    have h0 : s.signed c v r true = (s.release c 1).setCv c.unit v (r.sign (maskOf [r.anchor])) := rfl
    refine ⟨?_, ?_, fun u => ?_, nofun, fun _ hu => ?_⟩
    · rw [h0, h1]
      rfl
    · rw [h0]
      exact h2.trans (setCv_sameBytes (s.release c 1) _ _ _)
    · rw [h0]
      refine (setCv_inPlace ..).trans ?_
      rw [h1]
      rfl
    · rw [h0]
      exact (setCv_cv (s := s.release c 1) (by rw [h1]; exact hu) v _).1


/-- The pass that an `MMA` posts. -/
def passOf (s : State) (c : Ctx) (n fb : Nat) : Pass :=
  { posA := (posHint false (c.lane n).hints).getD c.strA.cons, posB := (posHint true (c.lane n).hints).getD c.strB.cons
    quarter := if decide ((slotOf (s.fmtOf c) fb).elem = 7) then c.quarter else 0, prio := c.prio
    ovA := (posHint false (c.lane n).hints).isSome, ovB := (posHint true (c.lane n).hints).isSome
    gs64 := c.gs64, posted := s.cycle, granted := false }
/-- The blocks of a pass stand in their streams' windows, under the slots that its `MMA` names. -/
structure Postable (s : State) (c : Ctx) (n fa fb : Nat) : Prop where
  /-- the position in stream A -/
  winA : c.strA.inWindow ((posHint false (c.lane n).hints).getD c.strA.cons) = true
  /-- its block -/
  blockA : (c.strA.at ((posHint false (c.lane n).hints).getD c.strA.cons)).any (fun b => decide (b.slot = fa)) = true
  /-- the position in stream B -/
  winB : c.strB.inWindow ((posHint true (c.lane n).hints).getD c.strB.cons) = true
  /-- its block -/
  blockB : (c.strB.at ((posHint true (c.lane n).hints).getD c.strB.cons)).any (fun b => decide (b.slot = fb)) = true
  /-- no override of quarters -/
  whole : ¬ (decide ((slotOf (s.fmtOf c) fb).elem = 7) = true ∧ (posHint true (c.lane n).hints).isSome = true)
  /-- room in the queue -/
  room : s.noRoom c (some .matrix) false 0 = none
  /-- room in the reservation table -/
  table : s.reservations c < 32
theorem postMma_ok {i : Instr} {n : Nat} (h : Postable s c n fa fb) (signing : Bool) :
    postMma i s c act n v signing ka kb fa fb
      = .ok ((s.addEntry s.cur.ctx { s.mkEntry c i n 7 (some .matrix) [] [(n, {})] [] with pass := some (passOf s c n fb) }).modCtx s.cur.ctx
          (fun c' => c'.consume ka kb (posHint false (c.lane n).hints).isSome (posHint true (c.lane n).hints).isSome (decide ((slotOf (s.fmtOf c) fb).elem = 7)))) := by
  unfold postMma
  dsimp only
  rw [if_neg, h.room]
  · dsimp only
    rw [if_neg (Nat.not_le.mpr h.table)]
    rfl
  · rw [h.winA, h.blockA, h.winB, h.blockB]
    simpa using h.whole
end
/-- An `MMA` whose anchor's set is complete, and whose blocks and queues admit it, posts its pass. -/
theorem matrixPosts : Claims.MatrixPosts := by
  intro g ka kb a fa fb v s c act h hu hk i r n hs pA pB int4
  obtain ⟨b1, b2, b3, b4, b5, b6⟩ := begun_streams c i act
  have hlane : (c.begun i act).lane n = c.lane n := begun_lane ..
  have hr : ((s.hinted i act).unit (c.begun i act).unit).cv v = r := by rw [hinted_unit, b5]
  have hrun : exec i s = execMma g ka kb a fa fb v s := exec_mma_eq ..
  refine ⟨fun hbad => ?_, fun ho hd hn => ?_, fun ho hd hn hp hcoll h1 h2 h3 h4 h5 h6 h7 => ?_⟩
  · refine hrun.trans (gate_trap h hk _ ?_)
    dsimp only
    rw [hr, b6, if_pos hbad]
  · refine writesNothing i _ (fun s => exec_mma_eq ..) s c act h ?_
    dsimp only
    rw [hr, b6, if_neg (not_or.mpr ⟨not_not.mpr ho, hd⟩), if_pos (by simpa using hn)]
  · obtain ⟨f1, f2, f3, f4, f5⟩ := signed_fields (s.hinted i act) (c.begun i act) v r (!r.signed.getLsbD n)
    obtain ⟨w, hw⟩ : ∃ w, w = (s.hinted i act).signed (c.begun i act) v r (!r.signed.getLsbD n) := ⟨_, rfl⟩
    rw [← hw] at f1 f2 f3 f4 f5
    have hwc : w.cur = s.cur := by rw [f1]; exact State.hinted_cur ..
    have hwx : w.ctxs = (s.hinted i act).ctxs := by rw [f1]
    have hwf : w.fmtOf (c.begun i act) = s.fmtOf c := by rw [f1]; exact hinted_fmtOf ..
    have hpost : Postable w (c.begun i act) n fa fb := by
      refine ⟨?_, ?_, ?_, ?_, ?_, ?_, ?_⟩
      · rw [hlane, b1]; exact h1
      · rw [hlane, b1]; exact h2
      · rw [hlane, b2]; exact h3
      · rw [hlane, b2]; exact h4
      · rw [hlane, hwf]; exact h5
      · rw [f1]; exact (hinted_noRoom s i c act (some .matrix) false 0).trans h6
      · rw [reservations_congr hwx f3, hinted_reservations]; exact h7
    have hcy : w.cycle = s.cycle := by rw [f1]; exact (congrArg State.cycle (hinted_withCtxs s i act) : _)
    have hpass : passOf w (c.begun i act) n fb = Pass.mk pA pB (if int4 then c.quarter else 0) (c.begun i act).prio (posHint false hs).isSome (posHint true hs).isSome
        c.gs64 s.cycle false := by
      unfold passOf
      rw [hlane, b1, b2, b3, b4, hwf, hcy]
    have hbody : (fun (s : State) (c : Ctx) (act : List Nat) =>
        let r := (s.unit c.unit).cv v
        if r.owner ≠ c.index ∨ r.decl = 0 then Eff.trap 0x0C [act.headD 0] 0
        else if ¬ act.contains r.anchor then .ok s
        else
          let n := r.anchor
          let signing := !r.signed.getLsbD n
          match if signing then c.unperformed s.cur.ctx [n] (s.reach c 1) else [] with
          | x :: xs => anchorWaits s act n (.release (x :: xs) true true (s.reach c 1) 1)
          | [] =>
            let r' := r.sign (maskOf [n])
            let s := if signing then (s.release c 1).setCv c.unit v r' else s
            if r'.coll then anchorWaits s act n (.converge v true)
            else postMma (.mma g ka kb a fa fb v) s c act n v signing ka kb fa fb) (s.hinted i act) (c.begun i act) act
        = postMma i w (c.begun i act) act n v (!r.signed.getLsbD n) ka kb fa fb := by
      dsimp only
      have hun : (if !r.signed.getLsbD n then (c.begun i act).unperformed (s.hinted i act).cur.ctx [n] ((s.hinted i act).reach (c.begun i act) 1) else []) = [] := by
        split
        · next hs =>
          rw [State.hinted_cur]
          exact (hinted_unperformed ..).trans (hp (by simpa using hs))
        · rfl
      rw [hr, b6, if_neg (not_or.mpr ⟨not_not.mpr ho, hd⟩), if_neg (by simpa using hn), hun]
      dsimp only
      rw [hcoll, if_neg (by simp)]
      rw [hw]
      rfl
    rw [postMma_ok hpost, hwc, hlane, hwf] at hbody
    obtain ⟨E, hE⟩ : ∃ E : RqEntry, E = { w.mkEntry (c.begun i act) i n 7 (some .matrix) [] [(n, {})] [] with pass := some (passOf w (c.begun i act) n fb) } := ⟨_, rfl⟩
    rw [← hE] at hbody
    have hcls : E.cls = some .matrix := by rw [hE]; rfl
    have hbody2 := hbody.trans (congrArg Eff.ok ((State.modCtx_modCtx ..).trans (congrArg (fun b => w.modCtx s.cur.ctx (fun c' => (c'.enqueue b (w.entryAs c' E)).consume ka kb
      (posHint false hs).isSome (posHint true hs).isSome int4)) hcls)))
    obtain ⟨d1, d2, d3, d4, d5⟩ := depart_posted s i (s.cohort c) act c (some .matrix) (w.entryAs (c.begun i act) E) (c.nextA ka (posHint false hs).isSome)
      (c.nextB kb (posHint true hs).isSome int4) (c.nextQuarter kb (posHint true hs).isSome int4)
    have hacts := acts_of_gate h _ hrun hwx (by rw [f1]; exact hinted_grids ..) _ hbody2 c.preds (fun l => ?_)
    · obtain ⟨e1, e2, e3⟩ := enqueue_streams (c.begun i act) (some .matrix) (w.entryAs (c.begun i act) E)
      rw [consume_eq, nextStreams_congr (e1.trans b1) (e2.trans b2) (e3.trans b3)] at hacts
      have hpc : (w.entryAs (c.begun i act) E).pc = s.cur.pc := by rw [hE]; exact congrArg Issue.pc hwc
      refine ⟨_, _, _, hacts, ((hinted_sameBytes s i act).trans f2).trans (SameBytes.modCtx _ _ _), begun_nextId .., by rw [hE]; rfl, hpc, by rw [hE]; rfl, by rw [hE]; rfl, by rw [hE]; rfl,
        by rw [hE]; rfl, by rw [hE]; rfl, ?_, d2, d3, d4, d1, fun hs => ?_, fun hs => ?_⟩
      · rw [d5]
        rw [hE]
        exact congrArg some hpass
      · exact (f4 (by simpa using hs)).trans (hinted_units ..)
      · refine Eq.trans ?_ (f5 (by simpa using hs) (by rw [hinted_units, b5]; exact hu))
        rw [b5]
        rfl
    · rw [consume_eq]
      refine (enqueue_lane (c.begun i act) (some .matrix) (w.entryAs (c.begun i act) E) l).trans ((begun_lane ..).trans ?_)
      simp [Ctx.preds]

/-! ### The grant of a pass -/

/-- What a granted pass's entry holds: its operands. -/
def RqEntry.grant (e : RqEntry) (p : Pass) (bs : List Byte) : RqEntry :=
  { e.modCap e.leader (fun x => { x with data := bytesWords bs }) with pass := some { p with granted := true } }
/-- A stream whose block at a position is freed, or kept. -/
def Stream.free (st : Stream) (yes : Bool) (q : Nat) : Stream := if yes then { st with blocks := st.blocks.filter (fun x => decide (x.pos ≠ q)) } else st
/-- Which streams a pass keeps the blocks of, and whether its B is INT4. -/
def passKeeps (fs : DWord) : Instr → Bool × Bool × Bool
  | .mma _ ka kb _ _ fb _ => (ka, kb, decide ((slotOf fs fb).elem = 7))
  | _ => (false, false, false)
/-- A context one of whose passes is granted. -/
def Ctx.grant (c : Ctx) (e : RqEntry) (p : Pass) (fs : DWord) (bs : List Byte) : Ctx :=
  { c with rq := c.rq.map (fun y => if y.id = e.id then y.grant p bs else y)
           strA := c.strA.free (!(passKeeps fs e.ins).1 && !p.ovA) p.posA
           strB := c.strB.free (!(passKeeps fs e.ins).2.1 && !p.ovB && (!(passKeeps fs e.ins).2.2 || decide (p.quarter = 3))) p.posB }
section
variable {s : State} {k : Nat} {c : Ctx} {e : RqEntry} {p : Pass}
theorem readyPass_entry (h : s.readyPass c = some (e, p)) : e ∈ c.rq ∧ e.pass = some p := by
  unfold State.readyPass at h
  split at h
  · cases h
  · next e' he' =>
    split at h
    · cases h
    · next p' hp' =>
      dsimp only at h
      split at h
      · cases h
        exact ⟨List.mem_of_find?_eq_some he', hp'⟩
      · cases h
theorem passGrant_eq (hf : Sparse.find s.ctxs k = some c) (hr : s.readyPass c = some (e, p)) (hc : s.passChoice c = some k) :
    exec (.passGrant k) s = .next (s.modCtx k (fun x => x.grant e p (s.fmtOf c) (((c.strA.at p.posA).getD default).captured ++ ((c.strB.at p.posB).getD default).captured))) := by
  rw [exec_passGrant_eq]
  unfold execPassGrant
  rw [State.ctx_of_find _ _ _ hf]
  dsimp only
  rw [hr, decide_eq_true hc]
  dsimp only
  refine congrArg Host.Outcome.next ((State.modCtx_modCtx ..).trans (congrArg (s.modCtx k) (funext fun x => ?_)))
  unfold Ctx.grant
  generalize e.ins = i
  cases i <;> rfl
/-- Bytes filled up with zeros to a length. -/
def padTo (n : Nat) (bs : List Byte) : List Byte := (bs ++ List.replicate n 0).take n
theorem length_padTo (n : Nat) (bs : List Byte) : (padTo n bs).length = n := by
  unfold padTo
  simp
theorem take_padTo {n : Nat} {bs : List Byte} (h : bs.length ≤ n) (x : List Byte) : (padTo n bs ++ x).take bs.length = bs := by
  rw [List.take_append_of_le_length (by rw [length_padTo]; exact h)]
  unfold padTo
  rw [List.take_take, Nat.min_eq_left h, List.take_left]
theorem captured_eq (b : Block) : b.captured = padTo 1024 b.data ++ padTo 512 b.record := rfl
theorem length_captured (b : Block) : b.captured.length = 1536 := by
  rw [captured_eq, List.length_append, length_padTo, length_padTo]
theorem captured_data {b : Block} (h : b.data.length = 1024) (x : List Byte) : (b.captured ++ x).take 1024 = b.data := by
  rw [captured_eq, List.append_assoc]
  have := take_padTo (Nat.le_of_eq h) (padTo 512 b.record ++ x)
  rwa [h] at this
theorem captured_record {b : Block} (hr : b.record.length ≤ 512) (x : List Byte) : ((b.captured ++ x).drop 1024).take b.record.length = b.record := by
  have h1 : (b.captured ++ x).drop 1024 = padTo 512 b.record ++ x := by
    rw [captured_eq, List.append_assoc]
    exact List.drop_left' (length_padTo ..)
  rw [h1]
  exact take_padTo hr x
theorem free_fields (st : Stream) (b : Bool) (q : Nat) : (st.free b q).fill = st.fill ∧ (st.free b q).cons = st.cons := by
  cases b <;> exact ⟨rfl, rfl⟩
/-- A pass starts. -/
theorem passGranted (hf : Sparse.find s.ctxs k = some c) (hr : s.readyPass c = some (e, p)) (hc : s.passChoice c = some k)
    (hcap : Sparse.find e.caps e.leader ≠ none) : ∃ t c', exec (.passGrant k) s = .next t ∧ t.ctx k = c'
      ∧ SameBytes s t ∧ t.units = s.units ∧ t.grids = s.grids ∧ (∀ j, j ≠ k → t.ctx j = s.ctx j)
      ∧ (∃ y ∈ c'.rq, y.id = e.id ∧ y.ins = e.ins ∧ y.leader = e.leader ∧ y.pass = some { p with granted := true }
          ∧ ∀ bA bB, c.strA.at p.posA = some bA → c.strB.at p.posB = some bB → bA.data.length = 1024 → bB.data.length = 1024 →
              bA.record.length ≤ 512 → bB.record.length ≤ 512 →
              (wordsBytes ((Sparse.find y.caps y.leader).getD {}).data).take 1024 = bA.data ∧ ((wordsBytes ((Sparse.find y.caps y.leader).getD {}).data).drop 1024).take bA.record.length = bA.record
              ∧ ((wordsBytes ((Sparse.find y.caps y.leader).getD {}).data).drop 1536).take 1024 = bB.data ∧ ((wordsBytes ((Sparse.find y.caps y.leader).getD {}).data).drop 2560).take bB.record.length = bB.record)
      ∧ (∀ y ∈ c'.rq, y.id ≠ e.id → y ∈ c.rq)
      ∧ c'.strA.fill = c.strA.fill ∧ c'.strA.cons = c.strA.cons ∧ c'.strB.fill = c.strB.fill ∧ c'.strB.cons = c.strB.cons
      ∧ (∀ g ka kb a fa fb v, e.ins = .mma g ka kb a fa fb v →
          c'.strA.blocks = (if ka = false ∧ p.ovA = false then c.strA.blocks.filter (fun x => decide (x.pos ≠ p.posA)) else c.strA.blocks)
          ∧ c'.strB.blocks = (if kb = false ∧ p.ovB = false ∧ ((slotOf (s.fmtOf c) fb).elem ≠ 7 ∨ p.quarter = 3)
              then c.strB.blocks.filter (fun x => decide (x.pos ≠ p.posB)) else c.strB.blocks))
      ∧ c' = { c with rq := c'.rq, strA := c'.strA, strB := c'.strB } := by
  obtain ⟨hmem, hpass⟩ := readyPass_entry hr
  obtain ⟨x, hx⟩ := Option.ne_none_iff_exists'.mp hcap
  generalize hbs : ((c.strA.at p.posA).getD default).captured ++ ((c.strB.at p.posB).getD default).captured = bs
  have hlen : bs.length = 4 * 768 := by rw [← hbs, List.length_append, length_captured, length_captured]
  have hrun := passGrant_eq hf hr hc
  rw [hbs] at hrun
  have ht := (State.Turns.refl hf).modCtx (fun x => x.grant e p (s.fmtOf c) bs)
  have hdata : wordsBytes ((Sparse.find (e.grant p bs).caps (e.grant p bs).leader).getD {}).data = bs := by
    have h1 : Sparse.find (e.grant p bs).caps e.leader = some { x with data := bytesWords bs } := by
      refine (find_modCap e.caps e.leader (fun x => { x with data := bytesWords bs }) e.leader).trans ?_
      rw [if_pos rfl, hx]
      rfl
    exact (congrArg (fun o : Option Cap => wordsBytes (o.getD {}).data) h1).trans (wordsBytes_bytesWords 768 bs hlen)
  refine ⟨_, _, hrun, ht.ctx, ht.bytes, ht.units, ht.grids, ht.others, ⟨e.grant p bs, List.mem_map.mpr ⟨e, hmem, if_pos rfl⟩, rfl, rfl, rfl, rfl, fun bA bB hA hB l1 l2 r1 r2 => ?_⟩,
    fun y hy hn => ?_, (free_fields ..).1, (free_fields ..).2, (free_fields ..).1, (free_fields ..).2, fun g ka kb a fa fb v hi => ?_, rfl⟩
  · rw [hdata, ← hbs, hA, hB, Option.getD_some, Option.getD_some]
    have hd : ∀ n, (bA.captured ++ bB.captured).drop (1536 + n) = (bB.captured ++ []).drop n := fun n => by
      rw [List.append_nil, ← List.drop_drop]
      exact congrArg (List.drop n) (List.drop_left' (length_captured bA))
    refine ⟨captured_data l1 _, captured_record r1 _, ?_, ?_⟩
    · rw [hd 0]
      exact captured_data l2 _
    · rw [hd 1024]
      exact captured_record r2 _
  · obtain ⟨z, hz, rfl⟩ := List.mem_map.mp hy
    by_cases he : z.id = e.id
    · exact absurd (by rw [if_pos he]; exact he) hn
    · rw [if_neg he]
      exact hz
  · have hp1 : passKeeps (s.fmtOf c) e.ins = (ka, kb, decide ((slotOf (s.fmtOf c) fb).elem = 7)) := by rw [hi]; rfl
    have hA : (c.grant e p (s.fmtOf c) bs).strA = c.strA.free (!ka && !p.ovA) p.posA := by
      unfold Ctx.grant
      rw [hp1]
    have hB : (c.grant e p (s.fmtOf c) bs).strB = c.strB.free (!kb && !p.ovB && (!decide ((slotOf (s.fmtOf c) fb).elem = 7) || decide (p.quarter = 3))) p.posB := by
      unfold Ctx.grant
      rw [hp1]
    have hif : ∀ (st : Stream) (b : Bool) (q : Nat), (st.free b q).blocks = if b = true then st.blocks.filter (fun x => decide (x.pos ≠ q)) else st.blocks := fun st b q => by
      cases b <;> rfl
    rw [hA, hB, hif, hif]
    refine ⟨if_congr (by simp) rfl rfl, if_congr (by simp [and_assoc]) rfl rfl⟩
end

/-! ### The completion of a pass -/

/-- One element of an accumulator after a pass. -/
def passCell (acc : Nat) (row col : Nat → List (FVal × BitVec 6)) (c : Ctx) (x : Nat × Nat) : Ctx :=
  (c.wrAcc acc x.1 x.2 (accPass (c.rdAcc acc x.1 x.2) (row x.1) (col x.2)).1).setFlags (accPass (c.rdAcc acc x.1 x.2) (row x.1) (col x.2)).2
theorem rdAcc_wrAcc (c : Ctx) (a i j : Nat) (x : Word) (m k l : Nat) (hj : j < 16) (hl : l < 16) (hi : i < 16) (hk : k < 16) :
    (c.wrAcc a i j x).rdAcc m k l = if m = a ∧ k = i ∧ l = j then x else c.rdAcc m k l := by
  unfold Ctx.wrAcc Ctx.rdAcc
  dsimp only
  rw [Sparse.get_set]
  by_cases h : m = a ∧ k = i ∧ l = j
  · rw [if_pos h, if_pos (by obtain ⟨rfl, rfl, rfl⟩ := h; rfl)]
  · rw [if_neg h, if_neg (by omega)]
theorem passCells_only (acc : Nat) (row col : Nat → List (FVal × BitVec 6)) (L : List (Nat × Nat)) (c : Ctx) :
    L.foldl (passCell acc row col) c = { c with accs := (L.foldl (passCell acc row col) c).accs, fpflags := (L.foldl (passCell acc row col) c).fpflags } := by
  have one : ∀ c x, passCell acc row col c x = { c with accs := (passCell acc row col c x).accs, fpflags := (passCell acc row col c x).fpflags } := fun _ _ => rfl
  induction L generalizing c with
  | nil => rfl
  | cons x L ih =>
    have key : ∀ a b, ({ passCell acc row col c x with accs := a, fpflags := b } : Ctx) = { c with accs := a, fpflags := b } := fun a b => by rw [one c x]
    exact (ih (passCell acc row col c x)).trans (key _ _)
/-- Cells of an accumulator stepped once each. -/
theorem passCells_gives (acc : Nat) (row col : Nat → List (FVal × BitVec 6)) (L : List (Nat × Nat)) (hn : L.Nodup) (hb : ∀ x ∈ L, x.1 < 16 ∧ x.2 < 16) (c : Ctx) :
    (∀ m i j, i < 16 → j < 16 → (L.foldl (passCell acc row col) c).rdAcc m i j
        = if m = acc ∧ (i, j) ∈ L then (accPass (c.rdAcc acc i j) (row i) (col j)).1 else c.rdAcc m i j)
      ∧ (L.foldl (passCell acc row col) c).fpflags = L.foldl (fun f x => f ||| (accPass (c.rdAcc acc x.1 x.2) (row x.1) (col x.2)).2) c.fpflags := by
  induction L generalizing c with
  | nil => exact ⟨fun m i j _ _ => by simp, rfl⟩
  | cons x L ih =>
    obtain ⟨hx, hnL⟩ := List.nodup_cons.mp hn
    obtain ⟨hx1, hx2⟩ := hb x List.mem_cons_self
    have hbL : ∀ y ∈ L, y.1 < 16 ∧ y.2 < 16 := fun y hy => hb y (List.mem_cons_of_mem _ hy)
    obtain ⟨i1, i2⟩ := ih hnL hbL (passCell acc row col c x)
    have hcell : ∀ m i j, i < 16 → j < 16 → (passCell acc row col c x).rdAcc m i j
        = if m = acc ∧ i = x.1 ∧ j = x.2 then (accPass (c.rdAcc acc x.1 x.2) (row x.1) (col x.2)).1 else c.rdAcc m i j := fun m i j hi hj =>
      rdAcc_wrAcc c acc x.1 x.2 _ m i j hx2 hj hx1 hi
    refine ⟨fun m i j hi hj => ?_, ?_⟩
    · rw [List.foldl_cons, i1 m i j hi hj]
      by_cases hm : m = acc
      · subst hm
        by_cases hL : (i, j) ∈ L
        · have hne : ¬ (i = x.1 ∧ j = x.2) := fun h => hx (by rw [← Prod.mk.eta (p := x), ← h.1, ← h.2]; exact hL)
          rw [if_pos (show m = m ∧ (i, j) ∈ L from ⟨rfl, hL⟩), if_pos (show m = m ∧ (i, j) ∈ x :: L from ⟨rfl, List.mem_cons_of_mem _ hL⟩), hcell m i j hi hj,
            if_neg (show ¬ (m = m ∧ i = x.1 ∧ j = x.2) from fun h => hne h.2)]
        · rw [if_neg (show ¬ (m = m ∧ (i, j) ∈ L) from fun h => hL h.2), hcell m i j hi hj]
          by_cases hxe : i = x.1 ∧ j = x.2
          · rw [if_pos (show m = m ∧ i = x.1 ∧ j = x.2 from ⟨rfl, hxe⟩), if_pos (show m = m ∧ (i, j) ∈ x :: L from ⟨rfl, by rw [hxe.1, hxe.2]; exact List.mem_cons_self⟩), hxe.1, hxe.2]
          · rw [if_neg (show ¬ (m = m ∧ i = x.1 ∧ j = x.2) from fun h => hxe h.2), if_neg (show ¬ (m = m ∧ (i, j) ∈ x :: L) from fun h =>
              (List.mem_cons.mp h.2).elim (fun e => hxe ⟨congrArg Prod.fst e, congrArg Prod.snd e⟩) hL)]
      · rw [if_neg (fun h => hm h.1), hcell m i j hi hj, if_neg (fun h => hm h.1), if_neg (fun h => hm h.1)]
    · rw [List.foldl_cons, List.foldl_cons, i2]
      refine List.foldl_ext _ _ _ (fun f y hy => ?_)
      obtain ⟨hy1, hy2⟩ := hbL y hy
      rw [hcell acc y.1 y.2 hy1 hy2, if_neg (fun h => hx (by
        have : x = y := Prod.ext h.2.1.symm h.2.2.symm
        rw [this]
        exact hy))]
/-- The elements of an accumulator, row by row. -/
def accCells : List (Nat × Nat) := (List.range 16).flatMap (fun i => (List.range 16).map (fun j => (i, j)))
theorem mem_accCells (i j : Nat) : (i, j) ∈ accCells ↔ i < 16 ∧ j < 16 := by
  simp [accCells]
theorem foldl_accCells {β : Type} (f : β → Nat × Nat → β) (b : β) : accCells.foldl f b = (List.range 16).foldl (fun b i => (List.range 16).foldl (fun b j => f b (i, j)) b) b := by
  unfold accCells
  rw [List.foldl_flatMap]
  simp only [List.foldl_map]
theorem accCells_nodup : accCells.Nodup := by
  show (List.range 16 ×ˢ List.range 16).Nodup
  exact List.nodup_range.product List.nodup_range
theorem foldl_zipIdx_map {α β : Type} (n : Nat) (g : Nat → α) (f : β → α × Nat → β) (b : β) :
    (((List.range n).map g).zipIdx).foldl f b = (List.range n).foldl (fun b i => f b (g i, i)) b := by
  have h : ((List.range n).map g).zipIdx = (List.range n).map (fun i => (g i, i)) := by
    refine List.ext_getElem (by simp) (fun i h1 h2 => by simp)
  rw [h, List.foldl_map]
/-- Row i of A, as a pass reads it. -/
def passRow (sa : Slot) (x : PassData) (i : Nat) : List (FVal × BitVec 6) := (List.range (passK sa.elem)).map (fun k => blockVal sa x.a x.ra i k)
/-- Column j of B, as a pass reads it. -/
def passCol (sa sb : Slot) (p : Pass) (x : PassData) (j : Nat) : List (FVal × BitVec 6) :=
  (List.range (passK sa.elem)).map (fun k => if sb.elem = 7 then int4Val p.gs64 p.quarter x.b x.rb j k else blockVal sb x.b x.rb j k)
theorem applyPass_eq (c : Ctx) (acc : Nat) (sa sb : Slot) (p : Pass) (x : PassData) :
    c.applyPass acc sa sb p x = accCells.foldl (passCell acc (passRow sa x) (passCol sa sb p x)) c := by
  unfold Ctx.applyPass
  dsimp only
  rw [foldl_zipIdx_map, foldl_accCells]
  refine congrFun (congrFun (congrArg List.foldl (funext fun c => funext fun i => ?_)) c) _
  rw [foldl_zipIdx_map]
  rfl
/-- The operands of a pass. -/
def passData (e : RqEntry) (sa sb : Slot) : PassData :=
  { a := (wordsBytes ((Sparse.find e.caps e.leader).getD {}).data).take 1024, ra := ((wordsBytes ((Sparse.find e.caps e.leader).getD {}).data).drop 1024).take sa.recordBytes
    b := ((wordsBytes ((Sparse.find e.caps e.leader).getD {}).data).drop 1536).take 1024
    rb := ((wordsBytes ((Sparse.find e.caps e.leader).getD {}).data).drop 2560).take sb.recordBytes }
/-- A pass completes where nothing of its entry stands in a cache. -/
theorem passComplete_eq {s : State} {k : Nat} {c : Ctx} {e : RqEntry} {p : Pass} {g : Guard} {ka kb : Bool} {a fa fb v : Nat} (hf : Sparse.find s.ctxs k = some c)
    (he : c.rq.find? (fun e => e.pass.any (fun p => p.granted)) = some e) (hi : e.ins = .mma g ka kb a fa fb v) (hp : e.pass = some p)
    (hpl : (s.unit c.unit).inPlace = true) (hcl : s.clockRuns c.pkg c.site = true) (hq : ∀ y ∈ (s.pkg c.pkg).early, ¬ (y.ctx = k ∧ y.entry = e.id)) :
    exec (.passComplete k) s = .next (s.modCtx k (fun x => (x.applyPass a (slotOf (s.fmtOf c) fa) (slotOf (s.fmtOf c) fb) p
      (passData e (slotOf (s.fmtOf c) fa) (slotOf (s.fmtOf c) fb))).withRq (x.rq.filter (fun y => decide (y.id ≠ e.id))))) := by
  have hc : s.ctx k = c := State.ctx_of_find _ _ _ hf
  have hrq : ∀ x : Ctx, ∀ sa sb d, (x.applyPass a sa sb p d).rq = x.rq := fun x sa sb d => by rw [applyPass_eq, passCells_only]
  have hpkg : ∀ sa sb d, (c.applyPass a sa sb p d).pkg = c.pkg := fun sa sb d => by rw [applyPass_eq, passCells_only]
  have hcomp : s.completePass k = some ((s.modCtx k (fun c' => c'.applyPass a (slotOf (s.fmtOf c) fa) (slotOf (s.fmtOf c) fb) p
      (passData e (slotOf (s.fmtOf c) fa) (slotOf (s.fmtOf c) fb)))).dropEntry k e.id) := by
    unfold State.completePass
    dsimp only
    rw [hc, he]
    dsimp only
    rw [hi, hp]
    rfl
  rw [dropEntry_untouched (by
    rw [State.ctx_modCtx _ _ _ _ hf, hpkg]
    exact hq), State.modCtx_modCtx] at hcomp
  rw [exec_passComplete_eq]
  unfold execPassComplete
  dsimp only
  rw [hcomp, hc, hpl, hcl]
  refine congrArg Host.Outcome.next (congrArg (s.modCtx k) (funext fun x => ?_))
  show _ = (x.applyPass a (slotOf (s.fmtOf c) fa) (slotOf (s.fmtOf c) fb) p (passData e (slotOf (s.fmtOf c) fa) (slotOf (s.fmtOf c) fb))).withRq _
  rw [← hrq x (slotOf (s.fmtOf c) fa) (slotOf (s.fmtOf c) fb) (passData e (slotOf (s.fmtOf c) fa) (slotOf (s.fmtOf c) fb))]
  rfl
/-- What a pass leaves of its accumulator and of the flags. -/
theorem applyPass_gives (c : Ctx) (acc : Nat) (sa sb : Slot) (p : Pass) (x : PassData) :
    let z := c.applyPass acc sa sb p x
    (∀ i < 16, ∀ j < 16, z.rdAcc acc i j = (accPass (c.rdAcc acc i j) (passRow sa x i) (passCol sa sb p x j)).1)
      ∧ (∀ m, m ≠ acc → ∀ i < 16, ∀ j < 16, z.rdAcc m i j = c.rdAcc m i j)
      ∧ z.fpflags = (List.range 16).foldl (fun f i => (List.range 16).foldl (fun f j =>
          f ||| (accPass (c.rdAcc acc i j) (passRow sa x i) (passCol sa sb p x j)).2) f) c.fpflags := by
  intro z
  obtain ⟨g1, g2⟩ := passCells_gives acc (passRow sa x) (passCol sa sb p x) accCells accCells_nodup (fun y hy => (mem_accCells y.1 y.2).mp hy) c
  rw [← applyPass_eq] at g1 g2
  rw [foldl_accCells] at g2
  exact ⟨fun i hi j hj => (g1 acc i j hi hj).trans (if_pos ⟨rfl, (mem_accCells i j).mpr ⟨hi, hj⟩⟩), fun m hm i hi j hj => (g1 m i j hi hj).trans (if_neg (fun h => hm h.1)), g2⟩
theorem applyPass_only (c : Ctx) (acc : Nat) (sa sb : Slot) (p : Pass) (x : PassData) :
    c.applyPass acc sa sb p x = { c with accs := (c.applyPass acc sa sb p x).accs, fpflags := (c.applyPass acc sa sb p x).fpflags } := by
  rw [applyPass_eq]
  exact passCells_only ..
/-- A pass is performed. -/
theorem passCompleted {s : State} {k : Nat} {c : Ctx} {e : RqEntry} {p : Pass} {g : Guard} {ka kb : Bool} {a fa fb v : Nat} (hf : Sparse.find s.ctxs k = some c)
    (he : c.rq.find? (fun e => e.pass.any (fun p => p.granted)) = some e) (hi : e.ins = .mma g ka kb a fa fb v) (hp : e.pass = some p)
    (hpl : (s.unit c.unit).inPlace = true) (hcl : s.clockRuns c.pkg c.site = true) (hq : ∀ y ∈ (s.pkg c.pkg).early, ¬ (y.ctx = k ∧ y.entry = e.id)) :
    ∃ t z, z = c.applyPass a (slotOf (s.fmtOf c) fa) (slotOf (s.fmtOf c) fb) p (passData e (slotOf (s.fmtOf c) fa) (slotOf (s.fmtOf c) fb))
      ∧ exec (.passComplete k) s = .next t ∧ s.Turns k t (z.withRq (c.rq.filter (fun y => decide (y.id ≠ e.id)))) :=
  ⟨_, _, rfl, passComplete_eq hf he hi hp hpl hcl hq, (State.Turns.refl hf).modCtx (fun x => (x.applyPass a (slotOf (s.fmtOf c) fa) (slotOf (s.fmtOf c) fb) p
      (passData e (slotOf (s.fmtOf c) fa) (slotOf (s.fmtOf c) fb))).withRq (x.rq.filter (fun y => decide (y.id ≠ e.id))))⟩
theorem passesRun : Claims.PassesRun := by
  unfold Claims.PassesRun
  intro captured
  refine ⟨fun s k c e p hf hr hc hcap _ => passGranted hf hr hc hcap, fun s k c e p g ka kb a fa fb v hf he hi hp hpl hcl hq => ?_⟩
  obtain ⟨t, z, hz, hrun, ht⟩ := passCompleted hf he hi hp hpl hcl hq
  have hg := applyPass_gives c a (slotOf (s.fmtOf c) fa) (slotOf (s.fmtOf c) fb) p (passData e (slotOf (s.fmtOf c) fa) (slotOf (s.fmtOf c) fb))
  have ho := applyPass_only c a (slotOf (s.fmtOf c) fa) (slotOf (s.fmtOf c) fb) p (passData e (slotOf (s.fmtOf c) fa) (slotOf (s.fmtOf c) fb))
  rw [← hz] at hg ho
  clear hz
  refine ⟨t, _, hrun, ht.ctx, ht.bytes, ht.units, ht.grids, ht.others, rfl, congrArg (fun y : Ctx => y.withRq (c.rq.filter (fun y => decide (y.id ≠ e.id)))) ho, hg⟩

/-- Settles O21: the posting of passes, and their grant and completion. -/
theorem matrixPasses : Obligations.MatrixPasses := ⟨matrixPosts, passesRun⟩

end Sys2Proof.Machine
end

section
/-! Pre-emption and the return of teams (R49, R305 to R307, R391, R392). -/

namespace Sys2Proof.Machine

/-! ### Contexts that go on while storage, units and grids stand -/

/-- Bytes, units, grids and the save pool stand, and a context that had nothing queued still has nothing. -/
structure State.Still (s t : State) : Prop where
  /-- bytes -/
  bytes : SameBytes s t
  /-- units -/
  units : t.units = s.units
  /-- grids -/
  grids : t.grids = s.grids
  /-- the save pool -/
  pool : ∀ p, (t.pkg p).poolUsed = (s.pkg p).poolUsed
  /-- idle contexts -/
  idle : ∀ k, (s.ctx k).rq = [] → (t.ctx k).rq = []

theorem State.Still.refl (s : State) : s.Still s := ⟨.refl s, rfl, rfl, fun _ => rfl, fun _ h => h⟩
theorem State.Still.trans {s t u : State} (h : s.Still t) (h' : t.Still u) : s.Still u :=
  ⟨h.bytes.trans h'.bytes, h'.units.trans h.units, h'.grids.trans h.grids, fun p => (h'.pool p).trans (h.pool p), fun k hk => h'.idle k (h.idle k hk)⟩
theorem State.Still.unit {s t : State} (h : s.Still t) (u : Nat) : t.unit u = s.unit u := by
  unfold State.unit
  rw [h.units]
theorem State.Still.modCtx {s t : State} (h : s.Still t) (k : Nat) (f : Ctx → Ctx) (hf : ∀ c : Ctx, c.rq = [] → (f c).rq = []) : s.Still (t.modCtx k f) := by
  refine h.trans ⟨SameBytes.modCtx t k f, rfl, rfl, fun _ => rfl, fun j hj => ?_⟩
  rcases eq_or_ne j k with rfl | hjk
  · unfold State.ctx at hj ⊢
    rw [State.find_modCtx, if_pos rfl]
    cases hx : Sparse.find t.ctxs j with
    | none => rfl
    | some c =>
      rw [hx] at hj
      exact hf c hj
  · rw [State.ctx_modCtx_ne _ _ _ _ hjk]
    exact hj
theorem State.Still.calm {s t u : State} (h : s.Still t) (hu : t.Calm u) : s.Still u :=
  h.trans ⟨hu.sameBytes, hu.units, hu.grids, fun p => hu.field p Package.poolUsed (fun _ _ _ _ _ _ _ => rfl), fun k hk => by rw [hu.ctx k]; exact hk⟩
theorem State.Still.modPkg {s t : State} (h : s.Still t) (p : Nat) (f : Package → Package) (hf : ∀ q, (f q).poolUsed = q.poolUsed) : s.Still (t.modPkg p f) := by
  refine h.trans ⟨SameBytes.modPkg t p f, rfl, rfl, fun q => ?_, fun _ hk => hk⟩
  rw [State.pkg_modPkg]
  split
  · next e => rw [hf, e]
  · rfl
theorem State.Still.foldl {α : Type} {s t : State} (h : s.Still t) (f : State → α → State) (l : List α) (hf : ∀ v : State, s.Still v → ∀ a ∈ l, s.Still (f v a)) :
    s.Still (l.foldl f t) := by
  induction l generalizing t with
  | nil => exact h
  | cons a l ih => exact ih (hf t h a List.mem_cons_self) (fun v hv b hb => hf v hv b (List.mem_cons_of_mem _ hb))
theorem State.Still.ite {s t u : State} {P : Prop} [Decidable P] (h : s.Still t) (h' : s.Still u) : s.Still (if P then t else u) := by
  split
  · exact h
  · exact h'
theorem State.Still.traceStop {s t : State} (h : s.Still t) (k kind : Nat) : s.Still (t.traceStop k kind) := by
  unfold State.traceStop State.trace
  dsimp only
  split
  · refine h.foldl _ _ (fun v hv l _ => ?_)
    unfold State.traceOne
    extract_lets q cfg on val
    exact hv.ite (hv.modPkg _ (fun p => { p with traceq := p.traceq ++ [val] }) (fun _ => rfl))
  · exact h
theorem State.Still.stopGroup {s t : State} (h : s.Still t) (k : Nat) : s.Still (t.stopGroup k) :=
  h.modCtx _ _ (fun c hc => by
    show (c.revertHints).rq = []
    rw [revertHints_eq, Ctx.modLanes_only]
    exact hc)
theorem reinject_idle {s : State} {k : Nat} (h : (s.ctx k).rq = []) : s.reinject k = s := by
  unfold State.reinject
  rw [h]
  rfl
theorem State.Still.endMove {s t : State} (h : s.Still t) {k : Nat} (hk : (s.ctx k).rq = []) : s.Still (t.endMove k) := by
  have h1 := h.modCtx k (fun c => { c with trapped := false, frame := {} }) (fun c hc => hc)
  unfold State.endMove
  dsimp only
  split
  · exact h
  · split
    · exact (h1.stopGroup k).traceStop k 7
    · rw [reinject_idle (h1.idle k hk)]
      exact h1
theorem State.Still.endMoveSeq {s t : State} (h : s.Still t) {k : Nat} (hk : (s.ctx k).rq = []) : s.Still (t.endMoveSeq k) := by
  unfold State.endMoveSeq
  dsimp only
  split
  · exact h.modCtx _ _ (fun c hc => hc)
  · split
    · exact h
    · rw [reinject_idle (h.idle k hk)]
      exact h
theorem State.Still.joinQueue {s t : State} (h : s.Still t) (k : Nat) : s.Still (t.joinQueue k) :=
  (h.modCtx k (fun c => { c with trapped := true, queuedAt := t.cycle }) (fun c hc => hc)).modPkg _ (fun p => { p with hq := p.hq ++ [((t.ctx k).site.loc, k)] }) (fun _ => rfl)
theorem State.Still.resumeSeated {s t : State} (h : s.Still t) {k : Nat} (hk : (s.ctx k).rq = []) : s.Still (t.resumeSeated k) := by
  have h1 := h.modCtx k (fun c => { c with frame := {} }) (fun c hc => hc)
  unfold State.resumeSeated
  dsimp only
  repeat' split
  · exact h.joinQueue k
  · exact h.endMove hk
  · exact h
  · rw [reinject_idle (h1.idle k hk)]
    exact h1
theorem State.Still.seat {s t : State} (h : s.Still t) (k : Nat) : s.Still (t.seat k) :=
  h.modCtx _ _ (fun c hc => by
    show c.rq.map _ = []
    rw [hc]
    rfl)
theorem State.Still.freshDie {s t : State} (h : s.Still t) (p : Nat) (x : Site) : s.Still (t.freshDie p x) :=
  h.calm ((State.Calm.refl t).thaw _)
/-- The sequencer of a unit, changed. -/
theorem State.Still.onSeq {s t : State} (h : s.Still t) (u : Nat) (f : State → Nat → State) (hf : ∀ v, s.Still v → ∀ k, (s.unit u).seqCtx = some k → s.Still (f v k)) :
    s.Still (match (t.unit u).seqCtx with | some k => f t k | none => t) := by
  rw [h.unit u]
  split
  · next k hk => exact hf t h k hk
  · exact h
theorem freeAreas_effect {s : State} {u : Nat} {x : WUnit} (hu : Sparse.find s.units u = some x) :
    SameBytes s (s.freeAreas u) ∧ (s.freeAreas u).grids = s.grids ∧ (s.freeAreas u).unit u = { x with areas := [] } ∧ (∀ v, v ≠ u → (s.freeAreas u).unit v = s.unit v)
      ∧ (∀ a ∈ x.areas, a ∉ ((s.freeAreas u).pkg x.pkg).poolUsed) := by
  have hx : s.unit u = x := by unfold State.unit; rw [hu]; rfl
  unfold State.freeAreas
  dsimp only
  rw [hx]
  refine ⟨(SameBytes.modPkg s _ _).trans (SameBytes.modUnit _ _ _ (fun _ => rfl)), rfl, State.unit_modUnit _ _ _ _ hu, fun v hv => State.unit_modUnit_ne _ _ _ _ hv, fun a ha hin => ?_⟩
  have hp : (((s.modPkg x.pkg (fun p => { p with poolUsed := p.poolUsed.filter (fun a => !x.areas.contains a) })).modUnit u (fun x => { x with areas := [] })).pkg x.pkg).poolUsed
      = (s.pkg x.pkg).poolUsed.filter (fun a => !x.areas.contains a) := congrArg Package.poolUsed (State.pkg_modPkg_same s x.pkg (fun p => { p with poolUsed := p.poolUsed.filter (fun a => !x.areas.contains a) }))
  rw [hp] at hin
  have := (List.mem_filter.mp hin).2
  simp [ha] at this
theorem seqCtx_some {x : WUnit} {k : Nat} (h : x.seqCtx = some k) : x.seq = k + 1 := by
  unfold WUnit.seqCtx at h
  split at h
  · cases h
  · cases h
    omega
/-- A team takes a core again. -/
theorem reseat_effect {s : State} {u : Nat} {x : WUnit} {pl : Place} (hu : Sparse.find s.units u = some x) (h1 : s.OneEach) (hq : ∀ e ∈ s.ownCtxs u, e.2.rq = [])
    (hs : ∀ k, x.seq = k + 1 → (s.ctx k).rq = []) :
    SameBytes s (s.reseat u pl) ∧ (s.reseat u pl).grids = s.grids
      ∧ (s.reseat u pl).unit u = { x with st := .running, site := pl.1, split := pl.2.1, anyDie := false, placedAt := s.cycle, areas := [] }
      ∧ (∀ v, v ≠ u → (s.reseat u pl).unit v = s.unit v) ∧ (∀ a ∈ x.areas, a ∉ ((s.reseat u pl).pkg x.pkg).poolUsed) := by
  have hgs : ∀ k ∈ ((s.groupsOf u).filter (fun e => e.2.placed && !e.2.retired)).map (·.1), (s.ctx k).rq = [] := fun k hk => by
    obtain ⟨e, he, rfl⟩ := List.mem_map.mp hk
    obtain ⟨he1, -⟩ := List.mem_filter.mp he
    obtain ⟨he2, he3⟩ := List.mem_filter.mp he1
    simp only [Bool.and_eq_true, decide_eq_true_eq] at he3
    rw [State.ctx_of_find _ _ _ (h1 e he2)]
    exact hq e (List.mem_filter.mpr ⟨he2, by simp [he3.1, he3.2]⟩)
  unfold State.reseat
  extract_lets gs s1 s2 s3 s4 s5 s6 s7
  have hu1 : Sparse.find s1.units u = some { x with st := .running, site := pl.1, split := pl.2.1, anyDie := false, placedAt := s.cycle } := by
    rw [State.find_modUnit, if_pos rfl, hu]
    rfl
  have hx1 : s1.unit u = { x with st := .running, site := pl.1, split := pl.2.1, anyDie := false, placedAt := s.cycle } := by
    unfold State.unit
    rw [hu1]
    rfl
  have hseq : ∀ k, (s1.unit u).seqCtx = some k → (s1.ctx k).rq = [] := fun k hk => by
    rw [hx1] at hk
    exact hs k (seqCtx_some hk)
  have hs7 : s1.Still s7 := by
    have h2 : s1.Still s2 := (State.Still.refl s1).foldl _ _ (fun v hv k _ => hv.modCtx _ _ (fun c hc => hc))
    have h3 : s1.Still s3 := h2.foldl _ _ (fun v hv k _ => hv.seat k)
    have h4 : s1.Still s4 := h3.onSeq u (fun s k => s.modCtx k (fun c => { c with site := pl.1 })) (fun v hv k _ => hv.modCtx _ _ (fun c hc => hc))
    have h5 : s1.Still s5 := h4.foldl _ _ (fun v hv k hk => hv.resumeSeated (hgs k hk))
    have h6 : s1.Still s6 := h5.onSeq u State.endMoveSeq (fun v hv k hk => hv.endMoveSeq (hseq k hk))
    exact (h6.freshDie _ _).foldl _ _ (fun v hv e _ => hv.calm ((State.Calm.refl v).acquire _ _))
  obtain ⟨f1, f2, f3, f4, f5⟩ := freeAreas_effect (s := s7) (u := u) (by rw [hs7.units]; exact hu1)
  refine ⟨(Eq.mp rfl ((SameBytes.modUnit s u (fun x => { x with st := .running, site := pl.1, split := pl.2.1, anyDie := false, placedAt := s.cycle }) (fun _ => rfl)).trans hs7.bytes) : SameBytes s s7).trans f1, f2.trans hs7.grids, f3, fun v hv => (f4 v hv).trans ((hs7.unit v).trans (State.unit_modUnit_ne _ _ _ _ hv)), f5⟩

/-! ### The parts of O50 -/

theorem teamsOn_mem {s : State} {p : Nat} {core : Site} {e : Nat × WUnit} (h : e ∈ s.teamsOn p core) : e ∈ s.units := (List.mem_filter.mp h).1
/-- A request gives each team of a core its deadline. -/
theorem request_deadlines (s : State) (p : Nat) (core : Site) :
    let t := s.request305 p core
    SameBytes s t ∧ t.ctxs = s.ctxs ∧ t.grids = s.grids ∧ Sparse.find (t.pkg p).preq core.loc = some (s.dieCount p core)
      ∧ ∀ u x, Sparse.find s.units u = some x → (u, x) ∈ s.teamsOn p core →
          t.unit u = { x with yielded := false, forced := false, deadline := some (s.dieCount p core + (s.grid x.grid).yielddl) } := by
  intro t
  obtain ⟨s1, hs1⟩ : ∃ s1, s1 = s.modPkg p (fun q => { q with preq := Sparse.put q.preq core.loc (s.dieCount p core) }) := ⟨_, rfl⟩
  obtain ⟨f, hf⟩ : ∃ f : State → Nat × WUnit → State, f = fun s' e =>
    s'.modUnit e.1 (fun x => { x with yielded := false, forced := false, deadline := some (s.dieCount p core + (s'.grid x.grid).yielddl) }) := ⟨_, rfl⟩
  have ht : t = (s1.teamsOn p core).foldl f s1 := by rw [hs1, hf]; rfl
  have hteams : s1.teamsOn p core = s.teamsOn p core := by rw [hs1]; rfl
  obtain ⟨h1, h2, h3, h4⟩ := foldl_induct (fun v : State => SameBytes s v ∧ v.ctxs = s.ctxs ∧ v.grids = s.grids ∧ ∀ q, v.pkg q = s1.pkg q) f
    (fun v e ⟨a, b, c, d⟩ => ⟨a.trans (by rw [hf]; exact SameBytes.modUnit v _ _ (fun _ => rfl)), by rw [hf]; exact b, by rw [hf]; exact c, fun q => by rw [hf]; exact d q⟩)
    (s.teamsOn p core) s1 ⟨by rw [hs1]; exact SameBytes.modPkg s _ _, by rw [hs1]; rfl, by rw [hs1]; rfl, fun _ => rfl⟩
  rw [hteams] at ht
  rw [ht]
  refine ⟨h1, h2, h3, ?_, fun u x hu hm => ?_⟩
  · rw [h4, hs1, State.pkg_modPkg_same]
    exact (Sparse.find_put ..).trans (if_pos rfl)
  · have hstep : ∀ (l : List (Nat × WUnit)) (v : State) y, v.grids = s.grids → Sparse.find v.units u = some y → (y = x ∨ y = { x with yielded := false, forced := false, deadline := some (s.dieCount p core + (s.grid x.grid).yielddl) }) →
        ((∃ e ∈ l, e.1 = u) ∨ y = { x with yielded := false, forced := false, deadline := some (s.dieCount p core + (s.grid x.grid).yielddl) }) →
        Sparse.find (l.foldl f v).units u = some { x with yielded := false, forced := false, deadline := some (s.dieCount p core + (s.grid x.grid).yielddl) } := by
      intro l
      induction l with
      | nil =>
        rintro v y - hv - (⟨e, he, -⟩ | rfl)
        · cases he
        · exact hv
      | cons e l ih =>
        intro v y hg hv hy hd
        have hg' : (f v e).grids = s.grids := by rw [hf]; exact hg
        rw [List.foldl_cons]
        by_cases he : e.1 = u
        · refine ih (f v e) _ hg' ?_ (.inr rfl) (.inr rfl)
          rw [hf]
          dsimp only
          rw [State.find_modUnit, if_pos he.symm, he, hv]
          have hgr : ∀ n, v.grid n = s.grid n := fun n => by unfold State.grid; rw [hg]
          rcases hy with rfl | rfl
          · simp only [Option.map_some, hgr]
          · simp only [Option.map_some, hgr]
        · refine ih (f v e) y hg' ?_ hy ?_
          · rw [hf]
            dsimp only
            rw [State.find_modUnit, if_neg (Ne.symm he), hv]
          · rcases hd with ⟨e', he', hu'⟩ | hd
            · rcases List.mem_cons.mp he' with rfl | hm'
              · exact absurd hu' he
              · exact .inl ⟨e', hm', hu'⟩
            · exact .inr hd
    have hfin := hstep (s.teamsOn p core) s1 x (by rw [hs1]; rfl) (by rw [hs1]; exact hu) (.inl rfl) (.inl ⟨_, hm, rfl⟩)
    unfold State.unit
    rw [hfin]
    rfl

/-- What each step of a fold brings about, and later ones keep, holds at its end. -/
theorem foldl_each {α β : Type} (I : β → Prop) (Q : α → β → Prop) (f : β → α → β) (hI : ∀ b a, I b → I (f b a)) (hset : ∀ b a, I b → Q a (f b a))
    (hkeep : ∀ b a x, I b → Q x b → Q x (f b a)) (l : List α) (b : β) (hb : I b) : I (l.foldl f b) ∧ ∀ a ∈ l, Q a (l.foldl f b) := by
  have keep : ∀ (l : List α) b x, I b → Q x b → Q x (l.foldl f b) := by
    intro l
    induction l with
    | nil => exact fun _ _ _ h => h
    | cons a l ih => exact fun b x hb hx => ih _ x (hI b a hb) (hkeep b a x hb hx)
  induction l generalizing b with
  | nil => exact ⟨hb, fun a ha => nomatch ha⟩
  | cons a l ih =>
    obtain ⟨h1, h2⟩ := ih (f b a) (hI b a hb)
    exact ⟨h1, fun x hx => (List.mem_cons.mp hx).elim (fun e => e ▸ keep l _ a (hI b a hb) (hset b a hb)) (h2 x)⟩
/-- A context that leaves its core's positions. -/
def Ctx.unseat (c : Ctx) : Ctx := { c.revertHints.unheld with pos := none, staged := [], readySince := none }
theorem unseat_keeps (c : Ctx) : c.unseat.kind = c.kind ∧ c.unseat.unit = c.unit ∧ c.unseat.v = c.v ∧ c.unseat.rq = c.rq ∧ c.unseat.pos = none := by
  have h : c.revertHints = { c with lanes := c.revertHints.lanes } := by
    rw [revertHints_eq]
    exact Ctx.modLanes_only ..
  unfold Ctx.unseat
  rw [h]
  exact ⟨rfl, rfl, rfl, rfl, rfl⟩
/-- A context's registers and queue stand, and it is of the same unit. -/
def State.Holds (k : Nat) (c : Ctx) (t : State) : Prop :=
  ∃ x, Sparse.find t.ctxs k = some x ∧ x.kind = c.kind ∧ x.unit = c.unit ∧ x.v = c.v ∧ x.rq = c.rq
theorem State.Holds.unseat {k : Nat} {c : Ctx} {t : State} (h : State.Holds k c t) (j : Nat) : State.Holds k c (t.modCtx j Ctx.unseat) := by
  obtain ⟨x, h1, h2, h3, h4, h5⟩ := h
  by_cases hj : k = j
  · subst hj
    obtain ⟨u1, u2, u3, u4, -⟩ := unseat_keeps x
    exact ⟨x.unseat, by rw [State.find_modCtx, if_pos rfl, h1]; rfl, u1.trans h2, u2.trans h3, u3.trans h4, u4.trans h5⟩
  · exact ⟨x, by rw [State.find_modCtx, if_neg hj, h1], h2, h3, h4, h5⟩
theorem ctx_pos_unseat {t : State} {k j : Nat} (h : (t.ctx k).pos = none) : ((t.modCtx j Ctx.unseat).ctx k).pos = none := by
  rcases eq_or_ne k j with rfl | hj
  · unfold State.ctx at h ⊢
    rw [State.find_modCtx, if_pos rfl]
    cases Sparse.find t.ctxs k with
    | none => rfl
    | some x => exact (unseat_keeps x).2.2.2.2
  · rw [State.ctx_modCtx_ne _ _ _ _ hj]
    exact h
theorem takeAreas_sameBytes (s : State) (u : Nat) (l : List Nat) : SameBytes s (s.takeAreas u l) :=
  (SameBytes.modPkg s _ _).trans (SameBytes.modUnit (s.modPkg (s.unit u).pkg (fun p => { p with poolUsed := p.poolUsed ++ l })) u (fun x => { x with areas := x.areas ++ l }) (fun _ => rfl))
/-- What a team's swap leaves. -/
theorem swapOut_units (s : State) (u : Nat) :
    SameBytes s (s.swapOut u) ∧ (s.swapOut u).grids = s.grids ∧ (∀ v, v ≠ u → Sparse.find (s.swapOut u).units v = Sparse.find s.units v)
      ∧ (Sparse.find s.units u ≠ none → ∃ x, Sparse.find (s.swapOut u).units u = some x ∧ x.st = .swapped false) := by
  obtain ⟨s2, hs2⟩ : ∃ s2, s2 = (s.takeAreas u ((s.pkg (s.unit u).pkg).freeAreas.take 1)).modUnit u (fun x => { x with st := .swapped false, yielded := false, forced := false, deadline := none }) := ⟨_, rfl⟩
  have ht : s.swapOut u = (s2.ownCtxs u).foldl (fun s e => s.modCtx e.1 Ctx.unseat) s2 := by rw [hs2]; rfl
  obtain ⟨h1, h2, h3⟩ := foldl_induct (fun v : State => SameBytes s2 v ∧ v.grids = s2.grids ∧ v.units = s2.units) (fun s (e : Nat × Ctx) => s.modCtx e.1 Ctx.unseat)
    (fun v e ⟨a, b, c⟩ => ⟨a.trans (SameBytes.modCtx v _ _), b, c⟩) (s2.ownCtxs u) s2 ⟨.refl s2, rfl, rfl⟩
  rw [ht]
  refine ⟨SameBytes.trans ?_ h1, h2.trans (by rw [hs2]; rfl), fun v hv => ?_, fun hu => ?_⟩
  · rw [hs2]
    exact (takeAreas_sameBytes s u _).trans (SameBytes.modUnit _ _ (fun x => { x with st := .swapped false, yielded := false, forced := false, deadline := none }) (fun _ => rfl))
  · rw [h3, hs2, State.find_modUnit, if_neg hv]
    unfold State.takeAreas
    rw [State.find_modUnit, if_neg hv]
    rfl
  · obtain ⟨x, hx⟩ := Option.ne_none_iff_exists'.mp hu
    rw [h3, hs2, State.find_modUnit, if_pos rfl]
    unfold State.takeAreas
    rw [State.find_modUnit, if_pos rfl]
    have : Sparse.find ((s.modPkg (s.unit u).pkg (fun p => { p with poolUsed := p.poolUsed ++ ((s.pkg (s.unit u).pkg).freeAreas.take 1) }))).units u = some x := hx
    rw [this]
    exact ⟨_, rfl, rfl⟩
theorem swapOut_ctx {s : State} {k : Nat} {c : Ctx} (hk : c.kind = .group) (h : State.Holds k c s) (u : Nat) :
    State.Holds k c (s.swapOut u) ∧ (u = c.unit ∨ (s.ctx k).pos = none → ((s.swapOut u).ctx k).pos = none) := by
  obtain ⟨s2, hs2⟩ : ∃ s2, s2 = (s.takeAreas u ((s.pkg (s.unit u).pkg).freeAreas.take 1)).modUnit u (fun x => { x with st := .swapped false, yielded := false, forced := false, deadline := none }) := ⟨_, rfl⟩
  have ht : s.swapOut u = (s2.ownCtxs u).foldl (fun s e => s.modCtx e.1 Ctx.unseat) s2 := by rw [hs2]; rfl
  have hc2 : s2.ctxs = s.ctxs := by rw [hs2]; rfl
  have h2 : State.Holds k c s2 := by
    obtain ⟨x, hx⟩ := h
    exact ⟨x, by rw [hc2]; exact hx⟩
  obtain ⟨e1, e2⟩ := foldl_each (State.Holds k c) (fun (e : Nat × Ctx) t => e.1 = k → (t.ctx k).pos = none) (fun s e => s.modCtx e.1 Ctx.unseat)
    (fun t e ht => ht.unseat e.1) (fun t e ht he => by
      subst he
      obtain ⟨x, hx, -⟩ := ht
      rw [State.ctx_modCtx _ _ _ _ hx]
      exact (unseat_keeps x).2.2.2.2) (fun t e y _ hy he => ctx_pos_unseat (hy he)) (s2.ownCtxs u) s2 h2
  rw [ht]
  refine ⟨e1, fun hu => ?_⟩
  rcases hu with rfl | hp
  · obtain ⟨x, hx, hxk, hxu, -⟩ := h2
    refine e2 (k, x) (List.mem_filter.mpr ⟨Sparse.mem_of_find_some hx, ?_⟩) rfl
    simp [hxk, hk, hxu]
  · exact foldl_induct (fun t : State => (t.ctx k).pos = none) (fun s (e : Nat × Ctx) => s.modCtx e.1 Ctx.unseat) (fun t e ht => ctx_pos_unseat ht) _ s2
      (by unfold State.ctx; rw [hc2]; exact hp)

/-- A state that differs from another in one unit, in packages and in memory alone. -/
structure State.Besides (u : Nat) (s t : State) : Prop where
  /-- contexts -/
  ctxs : t.ctxs = s.ctxs
  /-- grids -/
  grids : t.grids = s.grids
  /-- other units -/
  others : ∀ v, v ≠ u → Sparse.find t.units v = Sparse.find s.units v
  /-- the unit is there still -/
  found : Sparse.find s.units u ≠ none → Sparse.find t.units u ≠ none
theorem State.Besides.refl (u : Nat) (s : State) : s.Besides u s := ⟨rfl, rfl, fun _ _ => rfl, id⟩
theorem State.Besides.trans {u : Nat} {s t v : State} (h : s.Besides u t) (h' : t.Besides u v) : s.Besides u v :=
  ⟨h'.ctxs.trans h.ctxs, h'.grids.trans h.grids, fun w hw => (h'.others w hw).trans (h.others w hw), fun hu => h'.found (h.found hu)⟩
theorem State.Besides.of_units {u : Nat} {s t v : State} (h : s.Besides u t) (hc : v.ctxs = t.ctxs) (hg : v.grids = t.grids) (hu : v.units = t.units) : s.Besides u v :=
  h.trans ⟨hc, hg, fun w _ => by rw [hu], fun h => by rw [hu]; exact h⟩
theorem State.Besides.modUnit {u : Nat} {s t : State} (h : s.Besides u t) (f : WUnit → WUnit) : s.Besides u (t.modUnit u f) :=
  h.trans ⟨rfl, rfl, fun w hw => by rw [State.find_modUnit, if_neg hw], fun h => by rw [State.find_modUnit, if_pos rfl]; simpa using h⟩
theorem wrBytes_besides (s : State) (u o : Nat) (bs : List Byte) : s.Besides u (s.wrBytes (.store u o) bs) := by
  unfold State.wrBytes
  exact foldl_fst_induct (fun t => s.Besides u t) _ (fun x b hx => hx.modUnit _) bs (s, 0) (.refl u s)
theorem releaseStore_besides (s : State) (u : Nat) : s.Besides u (s.releaseStore u) := by
  unfold State.releaseStore
  refine foldl_induct (s.Besides u) _ (fun t x ht => ?_) _ s (.refl u s)
  split
  · next v o hx =>
    split
    · next hv =>
      subst hv
      unfold State.releaseSlot State.wrWord
      rw [hx]
      exact (ht.trans (wrBytes_besides ..)).of_units rfl rfl rfl
    · exact ht
  · exact ht
theorem mastWrite_units (s : State) (p a : Nat) (bs : List Byte) : (s.mastWrite p a bs).units = s.units := by
  unfold State.mastWrite State.homeWrite State.writeHome
  dsimp only
  split
  · rfl
  · generalize hw : s.thaw _ = w
    have h1 : w.units = s.units := hw ▸ ((State.Calm.refl s).thaw _).units
    have h2 := (State.Walked.refl w).releaseSpan (hbmKey p a) bs.length
    have h3 : (w.releaseSpan (.hbm (hbmKey p a)) bs.length).units = w.units := by rw [h2.rest]
    have h4 := (wrBytes_memory (s := w.releaseSpan (.hbm (hbmKey p a)) bs.length) (l := .hbm (hbmKey p a)) (fun _ _ => nofun) bs).2.1
    refine Eq.trans ?_ (h4.trans (h3.trans h1))
    exact foldl_induct (fun v : State => v.units = ((w.releaseSpan (.hbm (hbmKey p a)) bs.length).wrBytes (.hbm (hbmKey p a)) bs).units) _
      (fun v key hv => (((State.Calm.refl v).dcacheWrite _ _).dirWrite _ _).units.trans hv) _ _ rfl
/-- A team's context is saved. -/
theorem spill_besides (s : State) (u : Nat) : s.Besides u (s.spill u) ∧ (Sparse.find s.units u ≠ none → ∃ x, Sparse.find (s.spill u).units u = some x ∧ x.st = .swapped true) := by
  unfold State.spill
  extract_lets s1 x n area bs
  obtain ⟨s2, hs2⟩ : ∃ s2, s2 = ({ s1 with free := s1.free + s1.fresh + 1, folios := s1.folios ++ s1.teamFolios u n } : State).mastWrite x.pkg area bs := ⟨_, rfl⟩
  have hm := State.mastWrite_homes ({ s1 with free := s1.free + s1.fresh + 1, folios := s1.folios ++ s1.teamFolios u n } : State) x.pkg area bs
  have hu := mastWrite_units ({ s1 with free := s1.free + s1.fresh + 1, folios := s1.folios ++ s1.teamFolios u n } : State) x.pkg area bs
  rw [← hs2] at hm hu ⊢
  have h1 : s.Besides u s1 := releaseStore_besides s u
  have h2 : s.Besides u s2 := h1.of_units (by rw [hm.rest]) (by rw [hm.rest]) hu
  refine ⟨h2.modUnit _, fun hf => ?_⟩
  obtain ⟨y, hy⟩ := Option.ne_none_iff_exists'.mp (h2.found hf)
  rw [State.find_modUnit, if_pos rfl, hy]
  exact ⟨_, rfl, rfl⟩

theorem unit_of_find {s : State} {u : Nat} {x : WUnit} (h : Sparse.find s.units u = some x) : s.unit u = x := by
  unfold State.unit
  rw [h]
  rfl
theorem unit_congr {s t : State} {u : Nat} (h : Sparse.find t.units u = Sparse.find s.units u) : t.unit u = s.unit u := by
  unfold State.unit
  rw [h]
theorem find_unit_of_mem {s : State} {e : Nat × WUnit} (h : e ∈ s.units) : Sparse.find s.units e.1 ≠ none := by
  have := Sparse.find_isSome_of_mem h
  intro hn
  rw [hn] at this
  cases this
/-- A core's teams leave it. -/
theorem swap_teams (s : State) (p core : Nat) :
    let t := (s.teamsOn p (siteOfLoc core)).foldl (fun s e => s.swapOut e.1) s
    SameBytes s t ∧ t.grids = s.grids ∧ (∀ e ∈ s.teamsOn p (siteOfLoc core), (t.unit e.1).st = .swapped false)
      ∧ (∀ u, (∀ e ∈ s.teamsOn p (siteOfLoc core), e.1 ≠ u) → t.unit u = s.unit u)
      ∧ ∀ k c, Sparse.find s.ctxs k = some c → c.kind = .group → (∃ e ∈ s.teamsOn p (siteOfLoc core), e.1 = c.unit) →
          (t.ctx k).pos = none ∧ (t.ctx k).v = c.v ∧ (t.ctx k).rq = c.rq := by
  intro t
  have hkeep : ∀ (v : State) (u w : Nat), Sparse.find v.units w ≠ none → Sparse.find (v.swapOut u).units w ≠ none := fun v u w hw => by
    obtain ⟨-, -, h3, h4⟩ := swapOut_units v u
    by_cases e : w = u
    · subst e
      obtain ⟨x, hx, -⟩ := h4 hw
      rw [hx]
      exact Option.some_ne_none x
    · rw [h3 w e]
      exact hw
  obtain ⟨⟨i1, i2, i3⟩, i4⟩ := foldl_each (fun v : State => SameBytes s v ∧ v.grids = s.grids ∧ ∀ w, Sparse.find s.units w ≠ none → Sparse.find v.units w ≠ none)
    (fun (e : Nat × WUnit) v => Sparse.find s.units e.1 ≠ none → ∃ x, Sparse.find v.units e.1 = some x ∧ x.st = .swapped false) (fun s e => s.swapOut e.1)
    (fun v e ⟨a, b, c⟩ => ⟨a.trans (swapOut_units v e.1).1, (swapOut_units v e.1).2.1.trans b, fun w hw => hkeep v e.1 w (c w hw)⟩)
    (fun v e ⟨_, _, c⟩ he => (swapOut_units v e.1).2.2.2 (c _ he))
    (fun v e y ⟨_, _, c⟩ hy hf => by
      obtain ⟨x, hx, hst⟩ := hy hf
      by_cases h : y.1 = e.1
      · rw [h] at hf ⊢
        exact (swapOut_units v e.1).2.2.2 (c _ hf)
      · exact ⟨x, ((swapOut_units v e.1).2.2.1 _ h).trans hx, hst⟩)
    (s.teamsOn p (siteOfLoc core)) s ⟨.refl s, rfl, fun _ h => h⟩
  refine ⟨i1, i2, fun e he => ?_, fun u hu => ?_, fun k c hf hk he => ?_⟩
  · obtain ⟨x, hx, hst⟩ := i4 e he (find_unit_of_mem (teamsOn_mem he))
    rw [unit_of_find hx]
    exact hst
  · have hothers : ∀ (l : List (Nat × WUnit)) (v : State), (∀ e ∈ l, e.1 ≠ u) → Sparse.find (l.foldl (fun s e => s.swapOut e.1) v).units u = Sparse.find v.units u := by
      intro l
      induction l with
      | nil => exact fun _ _ => rfl
      | cons e l ih => exact fun v hv => (ih _ (fun e' he' => hv e' (List.mem_cons_of_mem _ he'))).trans ((swapOut_units v e.1).2.2.1 u (hv e List.mem_cons_self).symm)
    exact unit_congr (hothers _ s hu)
  · obtain ⟨e, he, heu⟩ := he
    obtain ⟨j1, j2⟩ := foldl_each (State.Holds k c) (fun (e : Nat × WUnit) v => e.1 = c.unit → (v.ctx k).pos = none) (fun s e => s.swapOut e.1)
      (fun v e hv => (swapOut_ctx hk hv e.1).1) (fun v e hv he => (swapOut_ctx hk hv e.1).2 (.inl he)) (fun v e y hv hy he => (swapOut_ctx hk hv e.1).2 (.inr (hy he)))
      (s.teamsOn p (siteOfLoc core)) s ⟨c, hf, rfl, rfl, rfl, rfl⟩
    obtain ⟨x, hx, -, -, hv, hrq⟩ := j1
    have hctx : t.ctx k = x := State.ctx_of_find _ _ _ hx
    exact ⟨j2 e he heu, by rw [hctx]; exact hv, by rw [hctx]; exact hrq⟩
/-- Teams spill one after another. -/
theorem spill_teams (s : State) (l : List Nat) (hl : ∀ u ∈ l, Sparse.find s.units u ≠ none) :
    let t := l.foldl (fun s u => s.spill u) s
    t.ctxs = s.ctxs ∧ t.grids = s.grids ∧ (∀ u ∈ l, (t.unit u).st = .swapped true) ∧ ∀ u, u ∉ l → t.unit u = s.unit u := by
  intro t
  have hkeep : ∀ (v : State) (u w : Nat), Sparse.find v.units w ≠ none → Sparse.find (v.spill u).units w ≠ none := fun v u w hw => by
    have h := (spill_besides v u).1
    by_cases e : w = u
    · subst e
      exact h.found hw
    · rw [h.others w e]
      exact hw
  obtain ⟨⟨i1, i2, i3⟩, i4⟩ := foldl_each (fun v : State => v.ctxs = s.ctxs ∧ v.grids = s.grids ∧ ∀ w, Sparse.find s.units w ≠ none → Sparse.find v.units w ≠ none)
    (fun u v => Sparse.find s.units u ≠ none → ∃ x, Sparse.find v.units u = some x ∧ x.st = .swapped true) (fun s u => s.spill u)
    (fun v u ⟨a, b, c⟩ => ⟨(spill_besides v u).1.ctxs.trans a, (spill_besides v u).1.grids.trans b, fun w hw => hkeep v u w (c w hw)⟩)
    (fun v u ⟨_, _, c⟩ hu => (spill_besides v u).2 (c u hu))
    (fun v u y ⟨_, _, c⟩ hy hf => by
      obtain ⟨x, hx, hst⟩ := hy hf
      by_cases h : y = u
      · subst h
        exact (spill_besides v y).2 (c y hf)
      · exact ⟨x, ((spill_besides v u).1.others y h).trans hx, hst⟩) l s ⟨rfl, rfl, fun _ h => h⟩
  refine ⟨i1, i2, fun u hu => ?_, fun u hu => ?_⟩
  · obtain ⟨x, hx, hst⟩ := i4 u hu (hl u hu)
    rw [unit_of_find hx]
    exact hst
  · have hothers : ∀ (l : List Nat) (v : State), u ∉ l → Sparse.find (l.foldl (fun s u => s.spill u) v).units u = Sparse.find v.units u := by
      intro l
      induction l with
      | nil => exact fun _ _ => rfl
      | cons e l ih => exact fun v hv => (ih _ (fun h => hv (List.mem_cons_of_mem _ h))).trans ((spill_besides v e).1.others u (fun h => hv (h ▸ List.mem_cons_self)))
    exact unit_congr (hothers l s hu)
/-- Groups released from a barrier's first half. -/
def State.phase (s : State) (l : List (Nat × Ctx)) : State := l.foldl (fun s e => if e.2.arrivals 2 = 0 then s else s.modCtx e.1 (fun c => { c with phase2 := true })) s
theorem phase_effect (s : State) (l : List (Nat × Ctx)) : SameBytes s (s.phase l) ∧ (s.phase l).grids = s.grids ∧ (s.phase l).pkgs = s.pkgs ∧ (s.phase l).units = s.units
    ∧ ∀ e ∈ l, Sparse.find s.ctxs e.1 = some e.2 → e.2.arrivals 2 ≠ 0 → (s.phase l).ctx e.1 = { e.2 with phase2 := true } := by
  obtain ⟨h1, h2, h3, h4⟩ := foldl_induct (fun v : State => SameBytes s v ∧ v.grids = s.grids ∧ v.pkgs = s.pkgs ∧ v.units = s.units)
    (fun s (e : Nat × Ctx) => if e.2.arrivals 2 = 0 then s else s.modCtx e.1 (fun c => { c with phase2 := true })) (fun v e ⟨a, b, c, d⟩ => by
      split
      · exact ⟨a, b, c, d⟩
      · exact ⟨a.trans (SameBytes.modCtx v _ _), b, c, d⟩) l s ⟨.refl s, rfl, rfl, rfl⟩
  refine ⟨h1, h2, h3, h4, fun e he hf ha => ?_⟩
  have hstep : ∀ (v : State) (y : Nat × Ctx), Sparse.find (if y.2.arrivals 2 = 0 then v else v.modCtx y.1 (fun c => { c with phase2 := true })).ctxs e.1
      = if y.2.arrivals 2 ≠ 0 ∧ e.1 = y.1 then (Sparse.find v.ctxs e.1).map (fun c => { c with phase2 := true }) else Sparse.find v.ctxs e.1 := fun v y => by
    by_cases h : y.2.arrivals 2 = 0
    · rw [if_pos h, if_neg (fun hn => hn.1 h)]
    · rw [if_neg h, State.find_modCtx]
      by_cases hk : e.1 = y.1
      · rw [if_pos hk, if_pos ⟨h, hk⟩, hk]
      · rw [if_neg hk, if_neg (fun hn => hk hn.2)]
  obtain ⟨-, i2⟩ := foldl_each (fun v : State => Sparse.find v.ctxs e.1 = some e.2 ∨ Sparse.find v.ctxs e.1 = some { e.2 with phase2 := true })
    (fun (y : Nat × Ctx) v => y = e → Sparse.find v.ctxs e.1 = some { e.2 with phase2 := true })
    (fun s (e : Nat × Ctx) => if e.2.arrivals 2 = 0 then s else s.modCtx e.1 (fun c => { c with phase2 := true }))
    (fun v y hv => by
      rw [hstep]
      split
      · rcases hv with hv | hv <;> rw [hv] <;> exact .inr rfl
      · exact hv)
    (fun v y hv hy => by
      subst hy
      rw [hstep, if_pos ⟨ha, rfl⟩]
      rcases hv with hv | hv <;> rw [hv] <;> rfl)
    (fun v y z _ hz hze => by
      rw [hstep, hz hze]
      split <;> rfl) l s (.inl hf)
  exact State.ctx_of_find _ _ _ (i2 e he rfl)
/-- Settles O50: each event of pre-emption leaves what its rule names. -/
theorem preemptionEvents : Obligations.PreemptionEvents := by
  refine ⟨fun s p core hc hw hp hf => ?_, fun s u x a hu hd hl hst hy hfo ha hcl => ?_, fun s p core hs => ?_, fun s p core l hl hne hq => ?_, fun s u x pl hu hst hfl hpl hsl h1 hq hs => ?_,
    fun s u x h hu hh hsp hhalf hany hall => ?_⟩
  · intro now
    obtain ⟨r1, r2, r3, r4, r5⟩ := request_deadlines s p (siteOfLoc core)
    refine ⟨_, (exec_preemptionRequest_eq ..).trans (if_pos ⟨hc, hw, hp, hf⟩), r1, r2, r3, r4, r5⟩
  · have hx := unit_of_find hu
    refine ⟨s.modUnit u (fun x => { x with forced := true }), ?_, State.unit_modUnit _ _ _ _ hu, fun v hv => State.unit_modUnit_ne _ _ _ _ hv, rfl, rfl, rfl, SameBytes.modUnit _ _ _ (fun _ => rfl)⟩
    rw [exec_forcedYield_eq]
    unfold execForcedYield
    dsimp only
    rw [hx, hd]
    exact if_pos ⟨hl, hst, hy, hfo, ha, hcl⟩
  · obtain ⟨t1, t2, t3, t4, t5⟩ := swap_teams s p core
    have hrun : exec (.shadowBankSwap p core) s = .next (((s.teamsOn p (siteOfLoc core)).foldl (fun s e => s.swapOut e.1) s).modPkg p (fun q => { q with
        preq := Sparse.del q.preq core, swapEnd := Sparse.put q.swapEnd core (s.cycle + 48) })) :=
      (exec_shadowBankSwap_eq ..).trans (if_neg (by simp [hs]))
    refine ⟨_, hrun, t1.trans (SameBytes.modPkg _ _ _), t2, ?_, ?_, t3, t4, fun k c hf _ hk he => t5 k c hf hk he⟩
    · rw [State.pkg_modPkg_same]
      exact (Sparse.find_del ..).trans (if_pos rfl)
    · rw [State.pkg_modPkg_same]
      exact (Sparse.find_put ..).trans (if_pos rfl)
  · obtain ⟨t1, t2, t3, t4⟩ := spill_teams s (l.map (·.1)) (fun u hu => by
      obtain ⟨e, he, rfl⟩ := List.mem_map.mp hu
      rw [hl] at he
      exact find_unit_of_mem (List.mem_filter.mp he).1)
    have hrun : exec (.spillComplete p core) s = .next ((l.map (·.1)).foldl (fun s u => s.spill u) s) := by
      rw [exec_spillComplete_eq]
      unfold execSpillComplete
      dsimp only
      rw [← hl, if_neg]
      rw [not_or, not_not]
      refine ⟨by simpa using hne, List.all_eq_true.mpr (fun u hu => ?_)⟩
      obtain ⟨e, he, rfl⟩ := List.mem_map.mp hu
      exact hq e he
    refine ⟨_, hrun, t1, t2, fun e he => t3 _ (List.mem_map_of_mem he), fun u hu => t4 u (fun h => ?_)⟩
    obtain ⟨e, he, hu'⟩ := List.mem_map.mp h
    exact hu e he hu'
  · obtain ⟨r1, -, r3, r4, r5⟩ := reseat_effect (pl := pl) hu h1 hq hs
    have hrun : exec (.teamRestore u) s = .next (s.reseat u pl) := by
      rw [exec_teamRestore_eq]
      unfold execTeamRestore
      dsimp only
      rw [unit_of_find hu, if_pos ⟨hst, hfl⟩, hpl]
      exact if_pos hsl
    refine ⟨_, hrun, r1, by rw [r3], by rw [r3], by rw [r3], r5, r4⟩
  · have hx := unit_of_find hu
    obtain ⟨p1, p2, p3, p4, p5⟩ := phase_effect (s.modUnit u (fun x => { x with halves := x.halves ||| (1#2 <<< h) })) (s.halfGroups u h)
    have hun : ∀ v, ((s.modUnit u (fun x => { x with halves := x.halves ||| (1#2 <<< h) })).phase (s.halfGroups u h)).unit v
        = (s.modUnit u (fun x => { x with halves := x.halves ||| (1#2 <<< h) })).unit v := fun v => unit_congr (by rw [p4])
    have hrun : exec (.barBridgeArrival u h) s = .next ((s.modUnit u (fun x => { x with halves := x.halves ||| (1#2 <<< h) })).phase (s.halfGroups u h)) := by
      rw [exec_barBridgeArrival_eq]
      unfold execBarBridgeArrival
      dsimp only
      rw [hx]
      exact if_neg (by simp only [not_or]; exact ⟨Nat.not_le.mpr hh, by simp [hsp], by simp [hhalf], by simp [hany], by simp [hall]⟩)
    refine ⟨_, hrun, (SameBytes.modUnit s u (fun x => { x with halves := x.halves ||| (1#2 <<< h) }) (fun _ => rfl)).trans p1, p2, p3, ?_, fun v hv => ?_, p5⟩
    · rw [hun, State.unit_modUnit _ _ _ _ hu]
    · rw [hun]
      exact State.unit_modUnit_ne _ _ _ _ hv

end Sys2Proof.Machine
end

section
/-! The abort of a team on a site that no machine has (R184, R336, R393): the count of round-outs of a unit of its die is kept
where the registers of the dies that there are end, in the register of the fault ring. -/

namespace Sys2Proof.Machine

/-- An atomic addition of the team that is on its way to its word. -/
def strayAdd : RqEntry :=
  { id := 0, ins := .atom .always 0 0 1 .fadd, word := 0, pc := 0, hints := [], kind := 2, cls := none, holds := []
    caps := [(0, { len := 4, pages := [.store 0 0], data := [0] })], args := [], leader := 0, chunks := [], pass := none, obj := .none, counted := 0 }
/-- The team that aborts, on a die 65. -/
def strayTeam : WUnit := { level := 1, st := .aborting 1, site := { die := 65 } }
/-- An open slot of the team's near unit, on another word: the addition makes it give way. -/
def straySlot : RedSlot :=
  { site := 8 + 65 * 64, loc := .store 0 64, acc := 0, nan := true, pinf := false, ninf := false, nz := false, asid := 0, grid := 0, used := 0 }
/-- The package: an ASID may have no slot beside one that gives way, and the fault ring is off. -/
def strayPackage : Package := { regs := [(0x0440, 0x0000100000010000), (0x0608, 0x7FFFFFFF00000000)], slots := [straySlot] }
/-- The machine. -/
def strayMachine : State :=
  { ctxs := [(0, { kind := .group, rq := [strayAdd] })], units := [(0, strayTeam)], pkgs := [(0, strayPackage)] }

/-- Where an outcome is a next state, every fault record of package 0 stands in the ring. -/
def Out.recordsWritten (o : Out) : Bool := match o with | .next t => (t.pkg 0).frecs.all (fun r => r.written) | _ => true

/-- The round-out of the slot is counted in bits 63 to 32 of the register at 0x0608: bit 63 becomes 1, and the ring takes the
record of the abort. -/
theorem strayMachine_recordsWritten : (execTeamAbort 0 strayMachine).recordsWritten = true := by decide +kernel

/-- Refutes O51: in `strayMachine` the fault ring is off when the abort begins, and has taken the abort's record when it ends. -/
theorem not_movesAndAborts : ¬ Obligations.MovesAndAborts := by
  rintro ⟨-, -, h⟩
  obtain ⟨t, ht, -, -, -, hr⟩ := h strayMachine 0 strayTeam 1 rfl rfl (by decide) (by decide)
  obtain ⟨r, hr1, -, -, hr2⟩ := hr (by decide)
  have hw := strayMachine_recordsWritten
  rw [← exec_teamAbort_eq, ht] at hw
  rw [List.all_eq_true.mp hw r hr1] at hr2
  exact Bool.noConfusion hr2

end Sys2Proof.Machine
end

section
/-! The memories stay canonical (see INVENTORY.md, hbm and host): what an instruction answers, the accesses that it issues, and what
entries in flight do. -/

namespace Sys2Proof.Machine

/-! ### Outcomes and effects -/

/-- An outcome keeps the memories canonical: its next state, where it has one, has canonical memories. -/
def Out.MemOk (o : Out) : Prop := ∀ t, o = .next t → t.MemOk
/-- An effect keeps the memories canonical. -/
def Eff.MemOk : Eff → Prop
  | .ok s => s.MemOk
  | .okPc s => s.MemOk
  | .wait s _ => s.MemOk
  | .trap .. => True
  | .trapOnce .. => True
  | .hold _ => True

@[simp] theorem Out.memOk_next (s : State) : Out.MemOk (.next s) ↔ s.MemOk := ⟨fun h => h s rfl, fun h t e => by cases e; exact h⟩
@[simp] theorem Out.memOk_fault (f : Fault) : Out.MemOk (.fault f) := nofun
@[simp] theorem Out.memOk_refused (r : Refusal) : Out.MemOk (.refused r) := nofun
@[simp] theorem Eff.memOk_ok (s : State) : (Eff.ok s).MemOk ↔ s.MemOk := Iff.rfl
@[simp] theorem Eff.memOk_okPc (s : State) : (Eff.okPc s).MemOk ↔ s.MemOk := Iff.rfl
@[simp] theorem Eff.memOk_wait (s : State) (w : Wait) : (Eff.wait s w).MemOk ↔ s.MemOk := Iff.rfl
@[simp] theorem Eff.memOk_trap (n : Nat) (l : List Nat) (i : Nat) : (Eff.trap n l i).MemOk := trivial
@[simp] theorem Eff.memOk_trapOnce (n : Nat) (l : List Nat) (i : Nat) : (Eff.trapOnce n l i).MemOk := trivial
@[simp] theorem Eff.memOk_hold (h : Hold) : (Eff.hold h).MemOk := trivial
@[simp] theorem State.memOk_modCtx (s : State) (k : Nat) (f : Ctx → Ctx) : (s.modCtx k f).MemOk ↔ s.MemOk := Iff.rfl
@[simp] theorem State.memOk_modPkg (s : State) (p : Nat) (f : Package → Package) : (s.modPkg p f).MemOk ↔ s.MemOk := Iff.rfl
@[simp] theorem State.memOk_modUnit (s : State) (u : Nat) (f : WUnit → WUnit) : (s.modUnit u f).MemOk ↔ s.MemOk := Iff.rfl
@[simp] theorem State.memOk_modGrid (s : State) (g : Nat) (f : Grid → Grid) : (s.modGrid g f).MemOk ↔ s.MemOk := Iff.rfl
@[simp] theorem State.memOk_addEntry (s : State) (k : Nat) (e : RqEntry) : (s.addEntry k e).MemOk ↔ s.MemOk := Iff.rfl
@[simp] theorem State.memOk_modEntry (s : State) (k id : Nat) (f : RqEntry → RqEntry) : (s.modEntry k id f).MemOk ↔ s.MemOk := Iff.rfl
@[simp] theorem State.memOk_stay (s : State) (l : List Nat) (w : Wait) : (s.stay l w).MemOk ↔ s.MemOk := Iff.rfl

/-- The next state of an outcome. -/
theorem Out.MemOk.next {o : Out} {t : State} (h : Out.MemOk o) (e : o = .next t) : t.MemOk := h t e
theorem Eff.MemOk.ite {p : Prop} [Decidable p] {a b : Eff} (h : a.MemOk) (h' : b.MemOk) : (if p then a else b).MemOk := by
  split
  · exact h
  · exact h'
theorem Out.MemOk.ite {p : Prop} [Decidable p] {a b : Out} (h : Out.MemOk a) (h' : Out.MemOk b) : Out.MemOk (if p then a else b) := by
  split
  · exact h
  · exact h'
/-- What is not enabled answers no state. -/
theorem Out.MemOk.blocked {p : Prop} [Decidable p] {f : Fault} {b : Out} (h : Out.MemOk b) : Out.MemOk (if p then .fault f else b) :=
  .ite (Out.memOk_fault f) h
theorem Eff.MemOk.ordered {s : State} (h : s.MemOk) (c : Ctx) (rs : List RegName) {go : Eff} (hg : go.MemOk) : (ordered s c rs go).MemOk := by
  unfold Machine.ordered
  split
  · exact hg
  · exact h
theorem Eff.MemOk.faultsFirst (f : Option (Nat × List Nat × Nat)) {go : Eff} (hg : go.MemOk) : (faultsFirst f go).MemOk := by
  unfold Machine.faultsFirst
  split
  · trivial
  · exact hg

/-! ### The issue of an instruction -/

@[simp] theorem State.memOk_handlerFail (s : State) (k : Nat) (ls : List Nat) (cause info : Nat) :
    (s.handlerFail k ls cause info).MemOk ↔ s.MemOk := Iff.rfl
/-- An instruction whose body keeps the memories canonical keeps them so in the lanes of its cohort. -/
theorem State.MemOk.runLanes (k : Nat) (i : Instr) (coh : List Nat) {body : State → Ctx → List Nat → Eff}
    (hb : ∀ t c act, t.MemOk → (body t c act).MemOk) (n : Nat) : ∀ {s : State}, s.MemOk → ∀ act, (s.runLanes k i coh body n act).MemOk := by
  induction n with
  | zero => exact fun h _ => h
  | succ n ih =>
    intro s h act
    unfold State.runLanes
    refine State.MemOk.ite (h.modCtx _ _) ?_
    extract_lets fail s1
    have hfail : ∀ cause ls info, (fail cause ls info).MemOk := fun cause ls info => by
      unfold fail
      refine State.MemOk.ite (ih (h.foldl _ _ ?_) _) (h.takeTrap _ _ _ _ _ _ _)
      exact fun _ _ ht => ht
    split
    · exact hfail _ _ _
    · have h1 : s1.MemOk := State.MemOk.ite h (h.modCtx _ _)
      have hbody := hb s1 (s1.ctx k) act h1
      split
      · next e => rw [e] at hbody; exact hbody
      · next e => rw [e] at hbody; exact hbody
      · exact hfail _ _ _
      · exact State.MemOk.ite h (h.takeTrap _ _ _ _ _ _ _)
      · next e => rw [e] at hbody; exact hbody
      · exact h.modCtx _ _
section
variable {s : State} (h : s.MemOk)
include h

theorem gateLanes_memOk (acts : Ctx → Nat → Bool) (i : Instr) {body : State → Ctx → List Nat → Eff}
    (hb : ∀ t c act, t.MemOk → (body t c act).MemOk) : Out.MemOk (gateLanes acts i s body) := by
  unfold gateLanes
  split
  · exact Out.memOk_fault _
  · exact .blocked ((Out.memOk_next _).mpr (State.MemOk.runLanes _ _ _ hb _ h _))
theorem gate_memOk (i : Instr) {body : State → Ctx → List Nat → Eff} (hb : ∀ t c act, t.MemOk → (body t c act).MemOk) :
    Out.MemOk (gate i s body) := gateLanes_memOk h _ _ hb
theorem perLane_memOk (i : Instr) (f : Ctx → Nat → Ctx → Ctx) : Out.MemOk (perLane i s f) :=
  gate_memOk h i (fun _ _ _ ht => ht.modCtx _ _)
theorem oncePerIssue_memOk (i : Instr) {f : State → Ctx → Nat → List Nat → Eff} (hf : ∀ t c l act, t.MemOk → (f t c l act).MemOk) :
    Out.MemOk (oncePerIssue i s f) := by
  refine gate_memOk h i (fun t c act ht => ?_)
  cases act with
  | nil => exact ht
  | cons l r =>
    have := hf t c l (l :: r) ht
    dsimp only
    split
    · trivial
    · exact this
theorem vecBin_memOk (i : Instr) (d a b : Nat) (f : Word → Word → Word) : Out.MemOk (vecBin i d a b s f) := perLane_memOk h _ _
theorem vecUn_memOk (i : Instr) (d a : Nat) (f : Word → Word) : Out.MemOk (vecUn i d a s f) := perLane_memOk h _ _
theorem vecFlag_memOk (i : Instr) (d a b : Nat) (f : List Word → Word → Word → Word → Word × BitVec 6) : Out.MemOk (vecFlag i d a b s f) :=
  perLane_memOk h _ _

/-! ### Entries of the replay queue -/

theorem State.MemOk.dropEntry (k id : Nat) : (s.dropEntry k id).MemOk :=
  (State.MemOk.ite h (h.drainEarly _ _)).modCtx _ _
theorem State.MemOk.capDone (k id l : Nat) : (s.capDone k id l).MemOk := h
theorem State.MemOk.settle (k id : Nat) : (s.settle k id).MemOk := by
  unfold State.settle
  split
  · exact State.MemOk.ite (h.dropEntry _ _) h
  · exact h
theorem State.MemOk.capture (s0 : State) (y : Party) (k : AccKind) (cap : Cap) : (State.capture s0 s y k cap).1.MemOk := by
  unfold State.capture
  refine foldl_fst_induct State.MemOk _ (fun r a hr => ?_) _ _ h
  split
  · exact hr
  · split
    · exact hr.translate _ _ _
    · exact hr.parkOn _ _ _ _ _
    · exact hr
theorem State.MemOk.afterUse (c : Ctx) (x : Cap) : (s.afterUse c x).MemOk := by
  unfold State.afterUse
  split
  · exact h.modPkg _ _
  · refine h.foldl _ _ (fun t z ht => ?_)
    split
    · exact ht.foldl _ _ (fun _ _ hu => hu.dropKey _ _ _)
    · exact ht
  · exact h
theorem State.MemOk.readSegs (c : Ctx) (x : Cap) : (s.readSegs c x).1.MemOk := by
  unfold State.readSegs
  have h1 := foldl_fst_induct State.MemOk (fun (r : State × List Byte) (y : Loc × Nat) =>
    let t := r.1.ctxRead c y.1 y.2 x.nc; (t.1, r.2 ++ t.2)) (fun r y hr => hr.ctxRead _ _ _ _) x.segs (s, []) h
  exact h1.afterUse _ _
theorem State.MemOk.writeSegs (plain : Bool) (c : Ctx) (x : Cap) (bs : List Byte) : (s.writeSegs plain c x bs).MemOk := by
  unfold State.writeSegs
  exact (State.MemOk.ite (foldl_fst_induct State.MemOk _ (fun r y hr => hr.ctxWrite _ _ _ _) _ _ h)
    (h.foldl _ _ (fun _ _ ht => ht.ctxWrite _ _ _ _))).afterUse _ _
theorem State.MemOk.objectOp (l : Loc) (f : Nat → Nat) : (s.objectOp l f).MemOk := (h.releaseSpan _ _).wrBytes _ _
theorem State.MemOk.countBytes (l : Loc) (n : Nat) : (s.countBytes l n).MemOk := h.objectOp _ _
theorem State.MemOk.releaseStore (u : Nat) : (s.releaseStore u).MemOk := by
  refine h.foldl _ _ (fun t x ht => ?_)
  split
  · exact State.MemOk.ite (ht.releaseSlot _ _) ht
  · exact ht
theorem State.MemOk.replayCap (k : Nat) (e : RqEntry) (l : Nat) : (s.replayCap k e l).MemOk := by
  unfold State.replayCap
  split
  · exact h
  · exact h.capture _ _ _ _
theorem State.MemOk.replayTrap (k : Nat) (e : RqEntry) (ls : List Nat) (a : Nat) : (s.replayTrap k e ls a).MemOk :=
  (State.MemOk.takeTrap (State.MemOk.modCtx (State.MemOk.modCtx h _ _) _ _) _ _ _ _ _ _ _).settle _ _
theorem State.MemOk.replayChunks (k : Nat) (e : RqEntry) (f : Nat → Bool) : (s.replayChunks k e f).MemOk := by
  unfold State.replayChunks
  split <;> exact h
theorem State.MemOk.replayEntry (k id : Nat) (f : Nat → Bool) : (s.replayEntry k id f).MemOk := by
  unfold State.replayEntry
  split
  · exact h
  · next e _ =>
    have h1 : ∀ l : List Nat, (l.foldl (fun s l => s.replayCap k e l) (s.replayChunks k e f)).MemOk := fun l =>
      (h.replayChunks k e f).foldl _ _ (fun _ _ ht => ht.replayCap _ _ _)
    dsimp only
    split
    · exact h1 _
    · exact (h1 _).replayTrap _ _ _ _
theorem State.MemOk.reinject (k : Nat) : (s.reinject k).MemOk := h.foldl _ _ (fun _ _ ht => ht.replayEntry _ _ _)

/-! ### The issue of accesses -/

theorem memIssue_memOk (i : Instr) (c : Ctx) (leader kind : Nat) (acc : AccKind) (cls : Option CClass) (holds : List RegName) (args : List Word)
    (eng : Bool) (reqs : List Req) : (memIssue i s c leader kind acc cls holds args eng reqs).MemOk := by
  unfold memIssue
  refine Eff.MemOk.faultsFirst _ ?_
  dsimp only
  split
  · trivial
  · split
    · trivial
    · trivial
    · refine State.MemOk.modCtx ?_ _ _
      refine foldl_fst_induct State.MemOk _ (fun r a hr => ?_) _ _ h
      exact hr.capture _ _ _ _
theorem localIssue_memOk (i : Instr) (c : Ctx) (leader kind : Nat) (cls : Option CClass) (holds : List RegName) (args : List Word)
    (res : Req → LRes) (reqs : List Req) : (localIssue i s c leader kind cls holds args res reqs).MemOk := by
  unfold localIssue
  refine Eff.MemOk.faultsFirst _ ?_
  split
  · exact h
  · split
    · trivial
    · exact h.modCtx _ _
theorem apart_memOk (act : List Nat) (ready : Nat → Bool) (w : Wait) {go : State → List Nat → Eff} (hg : ∀ t l, t.MemOk → (go t l).MemOk) :
    (apart s act ready w go).MemOk := by
  unfold apart
  refine .ite (hg _ _ h) (.ite h ?_)
  have hn := hg s (act.filter ready) h
  split
  · next e => rw [e] at hn; exact hn
  · next e => rw [e] at hn; exact hn
  · next e => rw [e] at hn; exact hn
  · exact hn
theorem releasingTo_memOk (c : Ctx) (act : List Nat) (lvl reach : Nat) {go : State → List Nat → Eff} (hg : ∀ t l, t.MemOk → (go t l).MemOk) :
    (releasingTo s c act lvl reach go).MemOk := by
  unfold releasingTo
  exact apart_memOk h _ _ _ (fun _ _ ht => hg _ _ (ht.release _ _))
theorem releasing_memOk (c : Ctx) (act : List Nat) (lvl : Nat) {go : State → List Nat → Eff} (hg : ∀ t l, t.MemOk → (go t l).MemOk) :
    (releasing s c act lvl go).MemOk := releasingTo_memOk h c act lvl _ hg
theorem releasingOnce_memOk (c : Ctx) (act : List Nat) (lvl : Nat) {go : State → Eff} (hg : ∀ t, t.MemOk → (go t).MemOk) :
    (releasingOnce s c act lvl go).MemOk := .ite (hg _ (h.release _ _)) h

end
end Sys2Proof.Machine
end

section
/-! The memories stay canonical: control flow, memory instructions, barrier objects, the matrix engine (chapters 06 to 09). -/

namespace Sys2Proof.Machine

section
variable {s : State} (h : s.MemOk)
include h

/-! ### Control flow and conversions -/

theorem branchLanes_memOk (i : Instr) (kind : Nat) (link : Option Nat) (tgt : Ctx → Nat → DWord) : Out.MemOk (branchLanes i kind s link tgt) :=
  gate_memOk h i (fun _ _ _ ht => ht.trace _ _ _ _ _)
theorem execExit_memOk (g : Guard) : Out.MemOk (execExit g s) := by
  refine gate_memOk h _ (fun t c act ht => .ite (.ite ht ht) ?_)
  exact ht.trace _ _ _ _ _
theorem execYield_memOk (g : Guard) : Out.MemOk (execYield g s) :=
  gate_memOk h _ (fun _ _ _ ht => .ite (.ite ht ht) ht)
theorem execRgn_memOk (g : Guard) (d mask : Nat) : Out.MemOk (execRgn g d mask s) :=
  oncePerIssue_memOk h _ (fun _ _ _ _ ht => .ite ht ht)
theorem hintWord_memOk (i : Instr) : Out.MemOk (hintWord i s) := gate_memOk h _ (fun _ _ _ ht => ht)
theorem execUndefinedInstruction_memOk (w : Nat) : Out.MemOk (execUndefinedInstruction w s) :=
  gateLanes_memOk h _ _ (fun _ _ _ _ => trivial)
theorem convLanes_memOk (i : Instr) (f tagged : Nat) (body : Slot → Ctx → Nat → Ctx → Ctx) : Out.MemOk (convLanes i f tagged s body) :=
  gate_memOk h i (fun _ _ _ ht => .ordered ht _ _ (.ite trivial ht))

/-! ### Memory instructions -/

theorem globalLanes_memOk (i : Instr) (c : Ctx) (act : List Nat) (d b : Nat) (off : Nat → Int) (sz : Size) (store : Bool) :
    (globalLanes i s c act d b off sz store).MemOk := memIssue_memOk h _ _ _ _ _ _ _ _ _ _
theorem localLanes_memOk (i : Instr) (c : Ctx) (act : List Nat) (d b : Nat) (off : Int) (sz : Size) (store : Bool) (res : Ctx → Nat → Nat → LRes) :
    (localLanes i s c act d b off sz store res).MemOk := localIssue_memOk h _ _ _ _ _ _ _ _ _
theorem execLd_memOk (g : Guard) (d b : Nat) (off : Int) (sz : Size) (sx : Bool) : Out.MemOk (execLd g d b off sz sx s) :=
  gate_memOk h _ (fun _ _ _ ht => globalLanes_memOk ht _ _ _ _ _ _ _ _)
theorem execLdAcq_memOk (g : Guard) (d b lvl : Nat) (sz : Size) (sx : Bool) : Out.MemOk (execLdAcq g d b lvl sz sx s) :=
  gate_memOk h _ (fun _ _ _ ht => globalLanes_memOk ht _ _ _ _ _ _ _ _)
theorem execSt_memOk (g : Guard) (d b : Nat) (off : Int) (sz : Size) : Out.MemOk (execSt g d b off sz s) :=
  gate_memOk h _ (fun _ _ _ ht => globalLanes_memOk ht _ _ _ _ _ _ _ _)
theorem execStRel_memOk (g : Guard) (d b lvl : Nat) (sz : Size) : Out.MemOk (execStRel g d b lvl sz s) :=
  gate_memOk h _ (fun _ _ _ ht => .faultsFirst _ (releasing_memOk ht _ _ _ (fun _ _ hu => globalLanes_memOk hu _ _ _ _ _ _ _ _)))
theorem execLdc_memOk (g : Guard) (d b : Nat) (off : Int) (sz : Size) : Out.MemOk (execLdc g d b off sz s) :=
  gate_memOk h _ (fun _ _ _ ht => localLanes_memOk ht _ _ _ _ _ _ _ _ _)
theorem execStc_memOk (g : Guard) (d b : Nat) (off : Int) (sz : Size) : Out.MemOk (execStc g d b off sz s) :=
  gate_memOk h _ (fun _ _ _ ht => localLanes_memOk ht _ _ _ _ _ _ _ _ _)
theorem execLdk_memOk (g : Guard) (d b : Nat) (off : Int) (sz : Size) : Out.MemOk (execLdk g d b off sz s) :=
  gate_memOk h _ (fun _ _ _ ht => localLanes_memOk ht _ _ _ _ _ _ _ _ _)
theorem execStk_memOk (g : Guard) (d b : Nat) (off : Int) (sz : Size) : Out.MemOk (execStk g d b off sz s) :=
  gate_memOk h _ (fun _ _ _ ht => localLanes_memOk ht _ _ _ _ _ _ _ _ _)
theorem stashLanes_memOk (c : Ctx) (act : List Nat) (b : Nat) (off : Int) (sz : Size) (f : Ctx → Nat → Nat → Ctx) :
    (stashLanes s c act b off sz f).MemOk := by
  unfold stashLanes
  dsimp only
  split
  · trivial
  · trivial
  · exact h
theorem execLdl_memOk (g : Guard) (d b : Nat) (off : Int) (sz : Size) : Out.MemOk (execLdl g d b off sz s) :=
  gate_memOk h _ (fun _ _ _ ht => stashLanes_memOk ht _ _ _ _ _ _)
theorem execStl_memOk (g : Guard) (d b : Nat) (off : Int) (sz : Size) : Out.MemOk (execStl g d b off sz s) :=
  gate_memOk h _ (fun _ _ _ ht => stashLanes_memOk ht _ _ _ _ _ _)
theorem execLdm_memOk (g : Guard) (d b n : Nat) : Out.MemOk (execLdm g d b n s) :=
  gate_memOk h _ (fun _ _ _ ht => memIssue_memOk ht _ _ _ _ _ _ _ _ _ _)
theorem execStm_memOk (g : Guard) (d b n : Nat) : Out.MemOk (execStm g d b n s) :=
  gate_memOk h _ (fun _ _ _ ht => memIssue_memOk ht _ _ _ _ _ _ _ _ _ _)
theorem spaceIssue_memOk (i : Instr) (c : Ctx) (l kind : Nat) (sp : TSpace) (acc : AccKind) (cls : Option CClass)
    (holds : List RegName) (args : List Word) (b : Nat) (off : Int) (data : List Word) :
    (spaceIssue i s c l kind sp acc cls holds args b off data).MemOk := by
  cases sp with
  | global => exact memIssue_memOk h _ _ _ _ _ _ _ _ _ _
  | core => exact localIssue_memOk h _ _ _ _ _ _ _ _ _
  | cluster => exact localIssue_memOk h _ _ _ _ _ _ _ _ _
theorem execLdt_memOk (g : Guard) (t : Nat) (sp : TSpace) (b : Nat) (off : Int) : Out.MemOk (execLdt g t sp b off s) :=
  oncePerIssue_memOk h _ (fun _ _ _ _ ht => spaceIssue_memOk ht _ _ _ _ _ _ _ _ _ _ _ _)
theorem execStt_memOk (g : Guard) (t : Nat) (sp : TSpace) (b : Nat) (off : Int) : Out.MemOk (execStt g t sp b off s) :=
  oncePerIssue_memOk h _ (fun _ _ _ _ ht => spaceIssue_memOk ht _ _ _ _ _ _ _ _ _ _ _ _)
theorem execLdsc_memOk (g : Guard) (d b f : Nat) : Out.MemOk (execLdsc g d b f s) := by
  refine oncePerIssue_memOk h _ (fun t c l act ht => ?_)
  dsimp only
  split
  · trivial
  · refine .ite trivial (.ite trivial (.ordered ht _ _ ?_))
    split
    · trivial
    · exact .ite trivial (.ite (memIssue_memOk ht _ _ _ _ _ _ _ _ _ _) (localIssue_memOk ht _ _ _ _ _ _ _ _ _))
theorem execAtom_memOk (g : Guard) (d b lvl : Nat) (op : AtomOp) : Out.MemOk (execAtom g d b lvl op s) :=
  gate_memOk h _ (fun _ _ _ ht => .faultsFirst _ (releasing_memOk ht _ _ _ (fun _ _ hu => memIssue_memOk hu _ _ _ _ _ _ _ _ _ _)))
theorem execCas_memOk (g : Guard) (d b lvl : Nat) : Out.MemOk (execCas g d b lvl s) :=
  gate_memOk h _ (fun _ _ _ ht => .faultsFirst _ (releasing_memOk ht _ _ _ (fun _ _ hu => memIssue_memOk hu _ _ _ _ _ _ _ _ _ _)))
theorem execLdx_memOk (g : Guard) (d b c0 : Nat) : Out.MemOk (execLdx g d b c0 s) := by
  refine gate_memOk h _ (fun t c act ht => ?_)
  dsimp only
  split
  · trivial
  · refine .ite trivial (.ite trivial ?_)
    split
    · trivial
    · trivial
    · split
      · trivial
      · exact ht
    · split
      · next e => exact (congrArg Eff.MemOk e).mp (memIssue_memOk ht _ _ _ _ _ _ _ _ _ _)
      · exact memIssue_memOk ht _ _ _ _ _ _ _ _ _ _
theorem execPref_memOk (g : Guard) (die : Bool) (b : Nat) (off : Int) : Out.MemOk (execPref g die b off s) := by
  refine gate_memOk h _ (fun t c act ht => State.MemOk.foldl ht _ _ (fun t l ht => ?_))
  refine State.MemOk.ite ht ?_
  have hx := ht.translate (t.partyOf c false) (effAddr (c.rdPairV b l) (wideImm 6 off (c.lane l).hints * 64)) .read
  split
  · next e =>
    rw [e] at hx
    have hd := hx.dieFill c.pkg c.site
    dsimp only
    split
    · exact (State.MemOk.ite (hd _) ((hd _).fillLine _ _ _)).afterUse _ _
    · exact hd _
  · next e => rw [e] at hx; exact hx
theorem State.MemOk.cleanLine (c : Ctx) (key : Nat) : (s.cleanLine c key).MemOk :=
  .ite h (.ite (h.drainEarly _ _) (.ite h (h.toDie _ _ _)))
theorem State.MemOk.dieInval (c : Ctx) (key : Nat) : (s.dieInval c key).MemOk :=
  .ite (h.mergeSpan _ _ _ _) ((h.mergeSpan _ _ _ _).dieDrop _ _ _)
theorem execCctl_memOk (g : Guard) (op : CacheOp) (b : Nat) (off : Int) : Out.MemOk (execCctl g op b off s) := by
  refine gate_memOk h _ (fun t c act ht => State.MemOk.foldl ht _ _ (fun t l ht => ?_))
  refine State.MemOk.ite ht ?_
  have hx := ht.translate (t.partyOf c false) (effAddr (c.rdPairV b l) (wideImm 6 off (c.lane l).hints * 64)) .read
  split
  · next t' k _ e =>
    rw [e] at hx
    have hc := State.MemOk.cleanLine hx c (k / 64)
    have hd : (if op = .clean then t'.cleanLine c (k / 64) else (t'.cleanLine c (k / 64)).dropLine c (.hbm k)).MemOk := .ite hc (hc.dropLine _ _)
    exact State.MemOk.ite (hd.dieInval _ _) hd
  · next e => rw [e] at hx; exact hx
theorem execGld_memOk (g : Guard) (d b : Nat) (off : Int) : Out.MemOk (execGld g d b off s) :=
  oncePerIssue_memOk h _ (fun _ _ _ _ ht => memIssue_memOk ht _ _ _ _ _ _ _ _ _ _)
theorem execGst_memOk (g : Guard) (d b : Nat) (off : Int) : Out.MemOk (execGst g d b off s) :=
  oncePerIssue_memOk h _ (fun _ _ _ _ ht => memIssue_memOk ht _ _ _ _ _ _ _ _ _ _)
theorem execSld_memOk (g : Guard) (d b : Nat) (off : Int) : Out.MemOk (execSld g d b off s) :=
  oncePerIssue_memOk h _ (fun _ _ _ _ ht => memIssue_memOk ht _ _ _ _ _ _ _ _ _ _)
theorem execSst_memOk (g : Guard) (d b : Nat) (off : Int) : Out.MemOk (execSst g d b off s) :=
  oncePerIssue_memOk h _ (fun _ _ _ _ ht => memIssue_memOk ht _ _ _ _ _ _ _ _ _ _)

/-! ### Barrier objects and counters -/

theorem objectOf_memOk (c : Ctx) (l a : Nat) {f : Loc → Eff} (hf : ∀ o, (f o).MemOk) : (objectOf s c l a f).MemOk := by
  refine .ite trivial ?_
  split
  · trivial
  · exact h
  · exact hf _
theorem execMbinit_memOk (g : Guard) (a b : Nat) : Out.MemOk (execMbinit g a b s) :=
  oncePerIssue_memOk h _ (fun _ _ _ _ ht => objectOf_memOk ht _ _ _ (fun _ => .ite trivial (.ite trivial (State.MemOk.modCtx (ht.objectOp _ _) _ _))))
theorem execMbexpect_memOk (g : Guard) (a b : Nat) : Out.MemOk (execMbexpect g a b s) :=
  oncePerIssue_memOk h _ (fun _ _ _ _ ht => objectOf_memOk ht _ _ _ (fun _ => .ite trivial (ht.objectOp _ _)))
theorem execMbarrive_memOk (g : Guard) (a : Nat) : Out.MemOk (execMbarrive g a s) :=
  oncePerIssue_memOk h _ (fun _ _ _ _ ht => objectOf_memOk ht _ _ _ (fun _ => releasingOnce_memOk ht _ _ _ (fun _ hu => hu.objectOp _ _)))
theorem execMbwait_memOk (g : Guard) (d a b : Nat) : Out.MemOk (execMbwait g d a b s) :=
  oncePerIssue_memOk h _ (fun _ _ _ _ ht => objectOf_memOk ht _ _ _ (fun _ => .ite (ht.acquire _ _) ht))
theorem execMbtest_memOk (g : Guard) (a b : Nat) : Out.MemOk (execMbtest g a b s) :=
  oncePerIssue_memOk h _ (fun _ _ _ _ ht => objectOf_memOk ht _ _ _ (fun _ => State.MemOk.ite (ht.acquire _ _) ht))
theorem execWaitc_memOk (g : Guard) (k : CClass) (n : Nat) : Out.MemOk (execWaitc g k n s) :=
  gate_memOk h _ (fun _ _ _ ht => .ite (ht.acquire _ _) ht)
theorem execLaydef_memOk (g : Guard) (d a : Nat) : Out.MemOk (execLaydef g d a s) :=
  oncePerIssue_memOk h _ (fun _ _ _ _ ht => memIssue_memOk ht _ _ _ _ _ _ _ _ _ _)

/-! ### Reductions -/

theorem contributions_memOk (i : Instr) (c : Ctx) (act : List Nat) (lvl x y : Nat) (one : Bool) : (contributions i s c act lvl x y one).MemOk :=
  .ite (localIssue_memOk h _ _ _ _ _ _ _ _ _) (memIssue_memOk h _ _ _ _ _ _ _ _ _ _)
theorem execReduce_memOk (g : Guard) (lvl x y : Nat) (op : RedOp) (one r : Bool) : Out.MemOk (execReduce g lvl x y op one r s) := by
  have hgo : ∀ t c l, t.MemOk → (contributions (.reduce g lvl x y op one r) t c l lvl x y one).MemOk := fun _ _ _ ht => contributions_memOk ht _ _ _ _ _ _ _
  exact gate_memOk h _ (fun _ _ _ ht => .ite trivial (.ite ht (.faultsFirst _ (.ite (hgo _ _ _ ht)
    (.ite (releasingOnce_memOk ht _ _ _ (fun _ hu => hgo _ _ _ hu)) (releasing_memOk ht _ _ _ (fun _ _ hu => hgo _ _ _ hu)))))))

/-! ### The matrix engine -/

omit h in
@[simp] theorem State.memOk_setCv (u v : Nat) (r : CvReg) : (s.setCv u v r).MemOk ↔ s.MemOk := Iff.rfl
theorem execCvdecl_memOk (g : Guard) (v a : Nat) : Out.MemOk (execCvdecl g v a s) := by
  refine oncePerIssue_memOk h _ (fun t c l act ht => .ite trivial (.ite ht ?_))
  dsimp only
  split
  · exact ht
  · exact ht
theorem execCvsign_memOk (g : Guard) (v : Nat) : Out.MemOk (execCvsign g v s) :=
  gate_memOk h _ (fun _ _ _ ht => releasing_memOk ht _ _ _ (fun _ _ hu => .ite hu hu))
theorem anchorWaits_memOk (act : List Nat) (anchor : Nat) (w : Wait) : (anchorWaits s act anchor w).MemOk := h
theorem postMma_memOk (i : Instr) (c : Ctx) (act : List Nat) (anchor v : Nat) (signing ka kb : Bool) (fa fb : Nat) :
    (postMma i s c act anchor v signing ka kb fa fb).MemOk := by
  unfold postMma
  refine .ite trivial ?_
  dsimp only
  split
  · exact .ite (anchorWaits_memOk h _ _ _) trivial
  · exact h
theorem execMma_memOk (g : Guard) (ka kb : Bool) (a fa fb v : Nat) : Out.MemOk (execMma g ka kb a fa fb v s) := by
  refine gate_memOk h _ (fun t c act ht => .ite trivial (.ite ht ?_))
  dsimp only
  split
  · exact anchorWaits_memOk ht _ _ _
  · have hr : ∀ r, (if !((t.unit c.unit).cv v).signed.getLsbD ((t.unit c.unit).cv v).anchor then (t.release c 1).setCv c.unit v r else t).MemOk :=
      fun r => .ite (ht.release _ _) ht
    exact .ite (anchorWaits_memOk (hr _) _ _ _) (postMma_memOk (hr _) _ _ _ _ _ _ _ _ _ _)
theorem drain_memOk (i : Instr) (c : Ctx) (l : Nat) (cls : Option CClass) (holds : List RegName) (cap : Cap) (args : List Word) :
    (drain i s c l cls holds cap args).MemOk := .ite trivial (.ite trivial h)
theorem execAccrdT_memOk (g : Guard) (d a f x : Nat) : Out.MemOk (execAccrdT g d a f x s) :=
  oncePerIssue_memOk h _ (fun _ _ _ _ ht => drain_memOk ht _ _ _ _ _ _ _)
theorem execAccrdV_memOk (g : Guard) (d a f : Nat) : Out.MemOk (execAccrdV g d a f s) :=
  gate_memOk h _ (fun _ _ _ ht => drain_memOk ht _ _ _ _ _ _ _)
theorem execAccrdC_memOk (g : Guard) (d a f : Nat) : Out.MemOk (execAccrdC g d a f s) := by
  refine oncePerIssue_memOk h _ (fun t c l act ht => .ite trivial ?_)
  split
  · trivial
  · exact ht
  · exact drain_memOk ht _ _ _ _ _ _ _
theorem onAcc_memOk (c : Ctx) (a : Nat) (f : Ctx → Ctx) : (onAcc s c a f).MemOk := by
  unfold onAcc
  split
  · exact h
  · exact h
theorem execAccwr_memOk (g : Guard) (a t : Nat) : Out.MemOk (execAccwr g a t s) := oncePerIssue_memOk h _ (fun _ _ _ _ ht => onAcc_memOk ht _ _ _)
theorem execAccz_memOk (g : Guard) (a : Nat) : Out.MemOk (execAccz g a s) := oncePerIssue_memOk h _ (fun _ _ _ _ ht => onAcc_memOk ht _ _ _)
theorem onRuns_memOk (i : Instr) (runs : List (Nat × Nat)) (regs : List RegName) {f : State → Ctx → Nat → Eff}
    (hf : ∀ t c l, t.MemOk → (f t c l).MemOk) : Out.MemOk (onRuns i runs regs s f) := by
  refine oncePerIssue_memOk h _ (fun t c l act ht => ?_)
  split
  · trivial
  · exact .ordered ht _ _ (hf _ _ _ ht)
theorem execSbindT_memOk (g : Guard) (d a f : Nat) : Out.MemOk (execSbindT g d a f s) := by
  refine oncePerIssue_memOk h _ (fun t c l act ht => ?_)
  split
  · trivial
  · exact .ite trivial (.ordered ht _ _ (.ite trivial ht))
theorem execSbindV_memOk (g : Guard) (d a : Nat) : Out.MemOk (execSbindV g d a s) := onRuns_memOk h _ _ _ (fun _ _ _ ht => .ite trivial ht)
theorem fill_memOk (isB : Bool) (i : Instr) (d b : Nat) (off : Int) (c : Ctx) (l : Nat) : (fill isB i d b off s c l).MemOk := by
  unfold fill
  refine .ite trivial (.ite trivial (.ite trivial ?_))
  dsimp only
  split
  · trivial
  · refine .ordered h _ _ (.ite trivial ?_)
    split
    · trivial
    · trivial
    · exact h
    · refine .ite (State.MemOk.ite ?_ h) ?_
      · refine State.MemOk.foldl (h.modCtx _ _) _ _ ?_
        exact fun _ _ ht => ht.countBytes _ _
      · split
        · trivial
        · exact h
theorem execSfillA_memOk (g : Guard) (d b : Nat) (off : Int) : Out.MemOk (execSfillA g d b off s) :=
  oncePerIssue_memOk h _ (fun _ _ _ _ ht => fill_memOk ht _ _ _ _ _ _ _)
theorem execSfillB_memOk (g : Guard) (d b : Nat) (off : Int) : Out.MemOk (execSfillB g d b off s) :=
  oncePerIssue_memOk h _ (fun _ _ _ _ ht => fill_memOk ht _ _ _ _ _ _ _)

end
end Sys2Proof.Machine
end

section
/-! The memories stay canonical: accesses, transfers, passes and drains that are performed (chapters 07 and 09). -/

namespace Sys2Proof.Machine

section
variable {s : State} (h : s.MemOk)
include h

/-! ### Accesses -/

omit h in
@[simp] theorem State.memOk_capDone (k id l : Nat) : (s.capDone k id l).MemOk ↔ s.MemOk := Iff.rfl
theorem State.MemOk.defineLayout {t : State} {k d : Nat} {act : List Nat} {bs : List Byte} (e : s.defineLayout k d act bs = some t) : t.MemOk := by
  unfold State.defineLayout at e
  dsimp only at e
  split at e
  · cases e
  · split at e
    · cases e; exact h
    · cases e; exact h
theorem State.MemOk.atomic {r : State × Word} {c : Ctx} {l : Loc} {op : AtomOp} {x : Word} (e : s.atomic c l op x = some r) : r.1.MemOk := by
  have h1 : ((s.toHome c l 4).dropLine c l).MemOk := (h.toHome _ _ _).dropLine _ _
  unfold State.atomic at e
  dsimp only at e
  split at e
  · obtain ⟨q, hq, rfl⟩ := Option.map_eq_some_iff.mp e
    exact State.MemOk.dcacheHole (State.MemOk.modPkg (h1.openSlot hq) _ _) _
  · cases e; exact (h1.releaseSpan _ _).homeWrite _ _ _ _
theorem State.MemOk.compareSwap (c : Ctx) (l : Loc) (old new : Word) : (s.compareSwap c l old new).1.MemOk := by
  have h1 : (((s.toHome c l 4).dropLine c l).releaseSpan l 4).MemOk := ((h.toHome _ _ _).dropLine _ _).releaseSpan _ _
  exact State.MemOk.ite (h1.homeWrite _ _ _ _) h1
omit h in
/-- What is answered under a condition. -/
theorem State.MemOk.of_guarded {p : Prop} [Decidable p] {t u : State} (e : (if p then some t else none) = some u) (ht : t.MemOk) : u.MemOk := by
  split at e
  · cases e; exact ht
  · cases e
/-- A capture is performed: where the access of its instruction is one of a load, a store or a word at its home. -/
theorem State.MemOk.performCap {t : State} {k : Nat} {e : RqEntry} {l : Nat} {x : Cap} (ht : s.performCap k e l x = some t) : t.MemOk := by
  unfold State.performCap at ht
  dsimp only at ht
  have hread := h.readSegs (s.ctx k) x
  split at ht
  case h_1 => exact .of_guarded ht hread
  case h_2 => exact .of_guarded ht hread
  case h_3 => exact .of_guarded ht hread
  case h_4 =>
    split at ht
    · cases ht
    · split at ht
      · obtain ⟨u, hu, rfl⟩ := Option.map_eq_some_iff.mp ht
        exact (State.MemOk.of_guarded hu hread).acquire _ _
      · cases ht
        have h1 := h.foldl x.segs (fun t y => t.toAcquire (s.ctx k) y.1 y.2) (fun _ _ ht => ht.toAcquire _ _ _)
        refine State.MemOk.acquire ?_ _ _
        rw [State.memOk_capDone, State.memOk_modCtx]
        exact h1.readSegs (s.ctx k) { x with nc := true }
  case h_5 => exact .of_guarded ht hread
  case h_6 => exact .of_guarded ht hread
  case h_7 => exact .of_guarded ht hread
  case h_8 =>
    split at ht
    · cases ht
    · split at ht
      · next u hu => cases ht; exact (hread.capDone _ _ _).defineLayout hu
      · split at ht
        · cases ht; exact hread.dropEntry _ _
        · cases ht; exact State.MemOk.takeTrap (State.MemOk.modCtx (hread.dropEntry _ _) _ _) _ _ _ _ _ _ _
  case h_9 => exact .of_guarded ht (h.writeSegs _ _ _ _)
  case h_10 => exact .of_guarded ht (h.writeSegs _ _ _ _)
  case h_11 => exact .of_guarded ht (h.writeSegs _ _ _ _)
  case h_12 => exact .of_guarded ht (h.writeSegs _ _ _ _)
  case h_13 => exact .of_guarded ht (h.writeSegs _ _ _ _)
  case h_14 => exact .of_guarded ht (h.writeSegs _ _ _ _)
  case h_15 => exact .of_guarded ht (h.writeSegs _ _ _ _)
  case h_16 =>
    split at ht
    · cases ht
    · cases ht; exact hread
  case h_17 =>
    split at ht
    · cases ht
    · cases ht; exact h.writeSegs _ _ _ _
  case h_18 =>
    split at ht
    · cases ht
    · split at ht
      · split at ht
        · split at ht <;> (cases ht; exact hread)
        · cases ht; exact hread
      · cases ht; exact hread
  case h_19 =>
    split at ht
    · split at ht
      · cases ht
      · obtain ⟨r, hr, rfl⟩ := Option.map_eq_some_iff.mp ht
        refine State.MemOk.acquire ?_ _ _
        rw [State.memOk_capDone, State.memOk_modCtx]
        exact h.atomic hr
    · cases ht
  case h_20 =>
    split at ht
    · split at ht
      · cases ht
      · cases ht
        refine State.MemOk.acquire ?_ _ _
        rw [State.memOk_capDone, State.memOk_modCtx]
        exact h.compareSwap _ _ _ _
    · cases ht
  case h_21 =>
    split at ht
    · split at ht
      · cases ht
      · obtain ⟨u, hu, rfl⟩ := Option.map_eq_some_iff.mp ht
        refine State.MemOk.modCtx ?_ _ _
        split at hu
        · split at hu
          · exact h.shadowAdd hu
          · cases hu
        · exact (h.toHome _ _ _).contribute hu
    · cases ht
  case h_22 => cases ht
theorem State.MemOk.homeStage (k : Nat) (e : RqEntry) (l : Nat) : (s.homeStage k e l).MemOk := h.drainEarly _ _
theorem State.MemOk.afterAcq (k : Nat) (x : Cap) : (s.afterAcq k x).MemOk := by
  unfold State.afterAcq
  split
  · exact h.acquire _ _
  · exact h
theorem performEvent_memOk (name : String) (c e l : Nat) (f : RqEntry → Bool) : Out.MemOk (performEvent name c e l s f) := by
  unfold performEvent
  split
  · exact Out.memOk_fault _
  · split
    · exact Out.memOk_fault _
    · refine .blocked (.ite ((Out.memOk_next _).mpr ((h.homeStage _ _ _).settle _ _)) ?_)
      split
      · exact Out.memOk_fault _
      · next t ht => exact (Out.memOk_next _).mpr ((State.MemOk.afterAcq (State.MemOk.modCtx (h.performCap ht) _ _) _ _).settle _ _)

/-! ### Transfers of engines -/

theorem State.MemOk.engineRead (c : Ctx) (l : List (Loc × Nat)) : (s.engineRead c l).1.MemOk := by
  refine foldl_fst_induct State.MemOk _ (fun _ _ hr => ?_) _ _ h
  exact ((hr.toHome _ _ _).peerFill _ _ _ _).homeRead _ _
theorem State.MemOk.engineWrite (c : Ctx) (l : List (Loc × Nat)) (bs : List Byte) : (s.engineWrite c l bs).MemOk :=
  foldl_fst_induct State.MemOk _ (fun _ _ hr => ((hr.toHome _ _ _).peerFill _ _ _ _).writeHome _ _ _ _ _) _ _ h
theorem State.MemOk.ldxMove (c : Ctx) (x : Cap) (dst : Loc) (only : Option Nat) : (s.ldxMove c x dst only).MemOk :=
  h.foldl _ _ (fun _ _ ht => State.MemOk.homeWrite (ht.engineRead _ _) _ _ _ _)
theorem execLdxLaneWrite_memOk (c e l : Nat) : Out.MemOk (execLdxLaneWrite c e l s) := by
  unfold execLdxLaneWrite
  dsimp only
  split
  · exact Out.memOk_fault _
  · split
    · exact Out.memOk_fault _
    · refine .blocked ?_
      split
      · exact (Out.memOk_next _).mpr (State.MemOk.settle (State.MemOk.modCtx
          (((h.ldxMove _ _ _ _).release _ _).countBytes _ _) _ _) _ _)
      · exact Out.memOk_fault _
theorem State.MemOk.engineWord (k id l j : Nat) : (s.engineWord k id l j).MemOk := by
  unfold State.engineWord
  dsimp only
  split
  · exact h
  · split
    · exact h
    · refine .ite h ?_
      split
      · refine .ite h ?_
        split
        · exact State.MemOk.modCtx (h.ldxMove _ _ _ _) _ _
        · exact h
      · exact .ite h (State.MemOk.modCtx (h.engineRead _ _) _ _)
      · exact .ite h (State.MemOk.modCtx (h.engineRead _ _) _ _)
      · exact h
theorem State.MemOk.stageCore (k : Nat) (e : RqEntry) (l : Nat) (x : Cap) : (s.stageCore k e l x).MemOk :=
  h.foldl x.segs _ (fun _ _ ht => ((ht.mergeSpan _ _ _ _).releaseSpan _ _).peerFill _ _ _ _)
theorem State.MemOk.stage (k id l : Nat) : (s.stage k id l).MemOk := by
  unfold State.stage
  split
  · exact h
  · split
    · exact h
    · exact .ite (State.MemOk.modCtx (State.MemOk.ite (h.stageCore _ _ _ _) (h.toDie _ _ _)) _ _) h
theorem State.MemOk.performWord (k id l j : Nat) : (s.performWord k id l j).MemOk := by
  unfold State.performWord
  split
  · exact h
  · split
    · exact h
    · exact .ite h (.ite (State.MemOk.modCtx (h.writeSegs _ _ _ _) _ _) (State.MemOk.modCtx (h.readSegs _ _) _ _))
theorem execBlockArrival_memOk (c e blk : Nat) : Out.MemOk (execBlockArrival c e blk s) := by
  unfold execBlockArrival
  dsimp only
  split
  · exact Out.memOk_fault _
  · split
    · refine .blocked ((Out.memOk_next _).mpr (State.MemOk.settle (State.MemOk.modCtx ?_ _ _) _ _))
      have h1 := fun a b c => State.MemOk.engineRead (h.engineRead a b) a c
      exact .ite (h1 _ _ _) (State.MemOk.countBytes (State.MemOk.modCtx (h1 _ _ _) _ _) _ _)
    · exact Out.memOk_fault _

/-! ### Passes and drains -/

theorem execPassGrant_memOk (k : Nat) : Out.MemOk (execPassGrant k s) := by
  unfold execPassGrant
  dsimp only
  split
  · exact (Out.memOk_next _).mpr h
  · exact Out.memOk_fault _
theorem State.MemOk.completePass {t : State} {k : Nat} (e : s.completePass k = some t) : t.MemOk := by
  unfold State.completePass at e
  dsimp only at e
  split at e
  · cases e
  · split at e
    · cases e; exact State.MemOk.dropEntry (h.modCtx _ _) _ _
    · cases e
theorem execPassComplete_memOk (k : Nat) : Out.MemOk (execPassComplete k s) := by
  unfold execPassComplete
  dsimp only
  split
  · next e => exact (Out.memOk_next _).mpr (h.completePass e)
  · exact Out.memOk_fault _
theorem State.MemOk.applyAccrd (k : Nat) (e : RqEntry) : (s.applyAccrd k e).MemOk := by
  unfold State.applyAccrd
  dsimp only
  split
  · exact h
  · exact h
  · exact h.writeSegs _ _ _ _
  · exact h
theorem State.MemOk.accrdWord (k id j : Nat) : (s.accrdWord k id j).MemOk := by
  unfold State.accrdWord
  dsimp only
  split
  · exact h
  · split
    · exact .ite h (State.MemOk.modCtx (h.writeSegs _ _ _ _) _ _)
    · exact h
theorem execAccrdWriteComplete_memOk (k id : Nat) : Out.MemOk (execAccrdWriteComplete k id s) := by
  unfold execAccrdWriteComplete
  dsimp only
  split
  · exact Out.memOk_fault _
  · exact .blocked ((Out.memOk_next _).mpr ((h.applyAccrd _ _).dropEntry _ _))

end
end Sys2Proof.Machine
end

section
/-! The memories stay canonical: launches, barriers, fences, placement and ends (chapters 02, 10 and 13). -/

namespace Sys2Proof.Machine

section
variable {s : State} (h : s.MemOk)
include h

/-! ### Records and creation -/

theorem State.MemOk.postEv (k : Nat) (r : EvRec) : (s.postEv k r).MemOk := by
  unfold State.postEv
  split
  · exact h
  · split <;> exact h
theorem State.MemOk.newGroups (u n : Nat) : (s.newGroups u n).MemOk := by
  refine h.foldl _ _ (fun t i ht => ?_)
  exact ht.of_eq rfl rfl
theorem State.MemOk.newUnit (level gr parent index : Nat) (wid : DWord) (p : Nat) : (s.newUnit level gr parent index wid p).MemOk := by
  unfold State.newUnit
  refine State.MemOk.ite (State.MemOk.newGroups ?_ _ _) ?_
  · exact h.of_eq rfl rfl
  · exact h.of_eq rfl rfl
theorem State.MemOk.dropUnit (u : Nat) : (s.dropUnit u).MemOk := h.of_eq rfl rfl
theorem State.MemOk.freeKept (u : Nat) : (s.freeKept u).MemOk := by
  have h1 := h.foldl (s.childUnits u) (fun s x => if (s.unit x).st = .kept then s.dropUnit x else s) (fun _ _ ht => .ite (ht.dropUnit _) ht)
  exact State.MemOk.ite (h1.of_eq rfl rfl) h1
theorem State.MemOk.doLaunch (k n : Nat) (tag : Word) : (s.doLaunch k n tag).MemOk := by
  unfold State.doLaunch
  extract_lets u s1 x g s2
  have h2 : s2.MemOk := h.freeKept _
  exact .ite (h2.postEv _ _) (.ite (h2.newGroups _ _) (h2.foldl _ _ (fun _ _ ht => ht.newUnit _ _ _ _ _ _)))
theorem State.MemOk.childDone (u cause : Nat) : (s.childDone u cause).MemOk := by
  unfold State.childDone
  dsimp only
  split
  · exact h
  · split
    · exact State.MemOk.postEv (h.modUnit _ _) _ _
    · exact h
theorem execLaunch_memOk (g : Guard) (lvl x y : Nat) : Out.MemOk (execLaunch g lvl x y s) :=
  oncePerIssue_memOk h _ (fun _ _ _ _ ht => .ite trivial (.ite trivial (.ite trivial (releasingOnce_memOk ht _ _ _ (fun _ hu =>
    .ite (State.MemOk.doLaunch (State.MemOk.modCtx hu _ _) _ _ _) hu)))))
theorem execTsplit_memOk (g : Guard) (lvl x y : Nat) : Out.MemOk (execTsplit g lvl x y s) :=
  oncePerIssue_memOk h _ (fun _ _ _ _ ht => .ite trivial ht)
theorem execEvqrd_memOk (g : Guard) (lvl x y : Nat) (m w : Bool) : Out.MemOk (execEvqrd g lvl x y m w s) := by
  refine oncePerIssue_memOk h _ (fun t c l act ht => .ite trivial ?_)
  dsimp only
  split
  · exact ht.acquire _ _
  · exact .ite ht ht

/-! ### Barriers and fences -/

theorem execBar_memOk (g : Guard) (lvl : Nat) : Out.MemOk (execBar g lvl s) :=
  gate_memOk h _ (fun _ _ _ ht => .ite (.ite trivial (.ite (ht.acquire _ _) ht))
    (.ite trivial (releasing_memOk ht _ _ _ (fun _ _ hu => hu))))
theorem execFenceRel_memOk (g : Guard) (lvl : Nat) : Out.MemOk (execFenceRel g lvl s) :=
  gate_memOk h _ (fun _ _ _ ht => releasing_memOk ht _ _ _ (fun _ _ hu => hu))
theorem acquiring_memOk (c : Ctx) (act : List Nat) (lvl : Nat) : (acquiring s c act lvl).MemOk :=
  apart_memOk h _ _ _ (fun _ _ ht => ht.acquire _ _)
theorem execFenceAcq_memOk (g : Guard) (lvl : Nat) : Out.MemOk (execFenceAcq g lvl s) :=
  gate_memOk h _ (fun _ _ _ ht => acquiring_memOk ht _ _ _)
theorem execFenceAcqrel_memOk (g : Guard) (lvl : Nat) : Out.MemOk (execFenceAcqrel g lvl s) :=
  gate_memOk h _ (fun _ _ _ ht => releasing_memOk ht _ _ _ (fun _ _ hu => acquiring_memOk hu _ _ _))
theorem execFenceSc_memOk (g : Guard) (lvl : Nat) : Out.MemOk (execFenceSc g lvl s) :=
  gate_memOk h _ (fun _ _ _ ht => releasingTo_memOk ht _ _ _ _ (fun _ _ hu => acquiring_memOk hu _ _ _))
theorem State.MemOk.ahead (k l : Nat) (i : Option Instr) : (s.ahead k l i).MemOk := by
  unfold State.ahead
  dsimp only
  split
  · exact .ite (State.MemOk.modCtx (h.acquire _ _) _ _) h
  · exact h
theorem State.MemOk.payDebts (k : Nat) : (s.payDebts k).MemOk := by
  refine h.foldl _ _ (fun t l ht => ?_)
  dsimp only
  split
  · exact .ite (State.MemOk.modCtx (ht.release _ _) _ _) ht
  · exact ht

/-! ### Placement and ends -/

theorem State.MemOk.install (u : Nat) (pl : Machine.Place) : (s.install u pl).MemOk := by
  unfold State.install
  refine State.MemOk.ite (State.MemOk.acquire ?_ _ _) ?_
  · exact h.of_eq rfl rfl
  · exact h.modUnit _ _
theorem execUnitPlacement_memOk (r : UnitRef) : Out.MemOk (execUnitPlacement r s) := by
  unfold execUnitPlacement
  cases r with
  | unit u =>
    dsimp only
    split
    · exact (Out.memOk_next _).mpr (h.install _ _)
    · exact Out.memOk_fault _
  | group k => exact .blocked ((Out.memOk_next _).mpr (State.MemOk.acquire (h.modCtx _ _) _ _))
theorem State.MemOk.retire (k : Nat) : (s.retire k).MemOk := by
  unfold State.retire
  extract_lets c own s1
  have h1 : s1.MemOk := h.foldl [1, 2, 3] (fun s lvl => s.release c lvl) (fun _ _ ht => ht.release _ _)
  exact .ite (h1.childDone _ _) h1
theorem State.MemOk.releaseWide (p asid : Nat) (ds : List Nat) : (s.releaseWide p asid ds).MemOk :=
  ((h.mergeShadows _ _).drainEarly _ _).thaw _
theorem State.MemOk.endUnit (u cause : Nat) : (s.endUnit u cause).MemOk := by
  unfold State.endUnit
  extract_lets x lvl ds s1 s2
  have h1 : s1.MemOk := .ite (h.foldl _ _ (fun _ _ ht => ht.release _ _)) h
  have h2 : s2.MemOk := .ite (h1.releaseWide _ _ _) h1
  split
  · exact h2.dropUnit u
  · next q _ =>
    have h3 := h2.foldl (s2.childUnits u) (fun s y => s.dropUnit y) (fun _ _ ht => ht.dropUnit _)
    refine State.MemOk.childDone (.ite ?_ (State.MemOk.dropUnit ?_ _)) _ _
    · exact h3.of_eq rfl rfl
    · exact h3.of_eq rfl rfl
theorem execUnitComplete_memOk (u : Nat) : Out.MemOk (execUnitComplete u s) :=
  .ite ((Out.memOk_next _).mpr (h.endUnit _ _)) (Out.memOk_fault _)
theorem State.MemOk.packageEvent (p : Nat) : (s.packageEvent p).MemOk := h.sendMsi _ _
theorem State.MemOk.stopQueue (p q code : Nat) : (s.stopQueue p q code).MemOk := State.MemOk.packageEvent (h.modPkg _ _) _
theorem State.MemOk.flushGrid (gr asid : Nat) : (s.flushGrid gr asid).MemOk :=
  (h.foldl _ _ (fun _ _ ht => ht.mergeShadows _ _)).foldl _ _ (fun _ _ ht => ht.foldl _ _ (fun _ _ hu => hu.releaseSlot _ _))
theorem State.MemOk.closeGrid (gr : Nat) : (s.closeGrid gr).MemOk := by
  unfold State.closeGrid
  dsimp only
  split <;> exact h.of_eq rfl rfl
theorem execGridEnd_memOk (gr : Nat) : Out.MemOk (execGridEnd gr s) := by
  unfold execGridEnd
  split
  · exact Out.memOk_fault _
  · next g _ =>
    have h1 := State.MemOk.thaw (h.flushGrid gr g.asid) (fun _ _ => true)
    refine .blocked (.ite ((Out.memOk_next _).mpr (h1.closeGrid _)) ?_)
    have hx := h1.translate (cmdParty g.pkg g.qasid) g.record .write
    dsimp only
    split
    · next e => rw [e] at hx; exact (Out.memOk_next _).mpr ((State.MemOk.homeWrite hx _ _ _ _).closeGrid _)
    · next e => rw [e] at hx; exact (Out.memOk_next _).mpr (State.MemOk.modGrid (State.MemOk.parkOn hx _ _ _ _ _) _ _)
    · next e => rw [e] at hx; exact (Out.memOk_next _).mpr ((State.MemOk.stopQueue hx _ _ _).closeGrid _)

/-! ### Copies that issue -/

theorem mcopy_memOk (i : Instr) (level : Nat) (up : Bool) (x y : Nat) (rel : Bool) (c : Ctx) (l : Nat) (act : List Nat) :
    (mcopy i level up x y rel s c l act).MemOk := by
  unfold mcopy
  refine .ite trivial ?_
  dsimp only
  split
  · trivial
  · split
    · exact h
    · refine .ite trivial ?_
      split
      · trivial
      · have hres : ∀ t : State, t.MemOk → (if c.kind = .seq then t.reserveEv t.cur.ctx else t).MemOk := fun t ht => by
          split <;> exact ht
        refine .ite (releasingOnce_memOk h _ _ _ (fun t ht => ?_)) ?_
        · exact hres t ht
        · exact hres s h
theorem execMcopyDown_memOk (g : Guard) (lvl x y : Nat) (r : Bool) : Out.MemOk (execMcopyDown g lvl x y r s) :=
  oncePerIssue_memOk h _ (fun _ _ _ _ ht => mcopy_memOk ht _ _ _ _ _ _ _ _ _)
theorem execMcopyUp_memOk (g : Guard) (lvl x y : Nat) (r : Bool) : Out.MemOk (execMcopyUp g lvl x y r s) :=
  oncePerIssue_memOk h _ (fun _ _ _ _ ht => mcopy_memOk ht _ _ _ _ _ _ _ _ _)

end
end Sys2Proof.Machine
end

section
/-! The memories stay canonical: copies, combine slots and the issue of collectives (chapters 08 and 11). -/

namespace Sys2Proof.Machine

/-- The state of a pair. -/
theorem State.MemOk.of_fst {α : Type} {r : State × α} {t : State} {a : α} (h : r.1.MemOk) (e : r = (t, a)) : t.MemOk := by
  rw [e] at h
  exact h

section
variable {s : State} (h : s.MemOk)
include h

/-! ### Copies -/

theorem State.MemOk.span (y : Party) (va n : Nat) (k : AccKind) (fine : Loc → Bool) : (s.span y va n k fine).1.MemOk := by
  refine foldl_fst_induct State.MemOk _ (fun r a hr => ?_) _ _ h
  dsimp only
  split
  · have hx := hr.translate y a k
    split
    · next e => rw [e] at hx; exact hx
    · next e => rw [e] at hx; exact State.MemOk.parkOn hx _ _ _ _ _
    · next e => rw [e] at hx; exact hx
  · exact hr
theorem State.MemOk.unitSide (c : Ctx) (d : CopyDesc) (x : Chunk) (k : AccKind) : (s.unitSide c d x k).1.MemOk := by
  unfold State.unitSide
  dsimp only
  split
  · exact h
  · exact h
  · exact h
  · exact h.span _ _ _ _ _
  · exact h.span _ _ _ _ _
theorem State.MemOk.childSide (c : Ctx) (d : CopyDesc) (x : Chunk) (child : Nat) (k : AccKind) : (s.childSide c d x child k).1.MemOk := by
  unfold State.childSide
  dsimp only
  split
  · exact h
  · split
    · exact h
    · split
      · exact h
      · exact h.span _ _ _ _ _
theorem State.MemOk.endCopy (k : Nat) (e : RqEntry) (d : CopyDesc) (status : Nat) : (s.endCopy k e d status).MemOk :=
  .ite ((h.dropEntry _ _).postEv _ _) (h.dropEntry _ _)
omit h in
@[simp] theorem State.memOk_modChunk (k id ch : Nat) (f : Chunk → Chunk) : (s.modChunk k id ch f).MemOk ↔ s.MemOk := Iff.rfl
theorem State.MemOk.failCopy (k : Nat) (e : RqEntry) (d : CopyDesc) (status : Nat) : (s.failCopy k e d status).MemOk :=
  State.MemOk.startAbort (.ite (State.MemOk.postEv (h.modCtx _ _) _ _) (h.modCtx _ _)) _ _
theorem State.MemOk.chunkDone (k id ch len lvl : Nat) (obj : Loc) : (s.chunkDone k id ch len lvl obj).MemOk := by
  unfold State.chunkDone
  extract_lets s1 s2 s3
  have h1 : s1.MemOk := h.release _ _
  have h2 : s2.MemOk := .ite h1 (h1.countBytes _ _)
  have h3 : s3.MemOk := h2
  clear_value s3
  split
  · split
    · exact .ite (h3.endCopy _ _ _ _) h3
    · exact h3
  · exact h3
theorem State.MemOk.moved (k : Nat) (e : RqEntry) (d : CopyDesc) (ch : Nat) (x : Chunk) (only : Option Nat) : (s.moved k e d ch x only).MemOk := by
  unfold State.moved
  split
  · exact h
  · exact h.chunkDone _ _ _ _ _ _
/-- A chunk moves, parks or fails. -/
theorem State.MemOk.moveChunk {t : State} {k : Nat} {e : RqEntry} {d : CopyDesc} {ch : Nat} {x : Chunk} {child : Nat} {only : Option Nat}
    (ht : s.moveChunk k e d ch x child only = some t) : t.MemOk := by
  unfold State.moveChunk at ht
  have hu := h.unitSide (s.ctx k) d x (if d.up then .write else .read)
  dsimp only at ht
  split at ht
  · next e1 => rw [e1] at hu; cases ht; exact hu
  · next e1 => rw [e1] at hu; cases ht; exact State.MemOk.failCopy hu _ _ _ _
  · next s1 us e1 =>
    rw [e1] at hu
    split at ht
    · cases ht
      refine State.MemOk.moved (State.MemOk.foldl hu _ _ (fun t y ht => ?_)) _ _ _ _ _ _
      exact .ite (ht.engineWrite _ _ _) (State.MemOk.modCtx (ht.engineRead _ _) _ _)
    · have hc := State.MemOk.childSide hu (s.ctx k) d x child (if d.up then .read else .write)
      split at ht
      · next e2 => rw [e2] at hc; cases ht; exact hc
      · next e2 => rw [e2] at hc; cases ht; exact State.MemOk.failCopy hc _ _ _ _
      · next e2 =>
        rw [e2] at hc
        split at ht
        · cases ht
        · cases ht
          refine State.MemOk.moved (State.MemOk.foldl hc _ _ (fun t y ht => ?_)) _ _ _ _ _ _
          exact State.MemOk.engineWrite (ht.engineRead _ _) _ _ _
theorem copyChunk_memOk (k id ch : Nat) (only : Option Nat) : Out.MemOk (copyChunk k id ch only s) := by
  unfold copyChunk
  dsimp only
  split
  · exact Out.memOk_fault _
  · split
    · exact Out.memOk_fault _
    · refine .blocked (.ite ((Out.memOk_next _).mpr (h.failCopy _ _ _ _)) (.blocked ?_))
      split
      · next ht => exact (Out.memOk_next _).mpr (h.moveChunk ht)
      · exact Out.memOk_fault _
theorem State.MemOk.movePiece (k id ch j : Nat) : (s.movePiece k id ch j).MemOk := by
  unfold State.movePiece
  split
  · next e => exact (copyChunk_memOk h k id ch (some j)).next e
  · exact h
theorem State.MemOk.abandonCopies (k : Nat) : (s.abandonCopies k).MemOk := by
  refine h.foldl _ _ (fun t e ht => ?_)
  dsimp only
  split
  · exact ht
  · refine .ite ht ?_
    split
    · exact .ite (State.MemOk.endCopy (ht.modCtx _ _) _ _ _ _) ht
    · exact ht

/-! ### Combine slots -/

omit h in
@[simp] theorem State.memOk_modCmb (p k : Nat) (f : CmbSlot → CmbSlot) : (s.modCmb p k f).MemOk ↔ s.MemOk := Iff.rfl
theorem execCmbopen_memOk (g : Guard) (d a : Nat) : Out.MemOk (execCmbopen g d a s) := by
  refine oncePerIssue_memOk h _ (fun t c l act ht => ?_)
  split
  · trivial
  · next u _ =>
    refine .ite trivial ?_
    dsimp only
    split
    · have hr : (match t.cmbQueue t.cur.ctx c u with | some k => t.reserveEv k | none => t : State).MemOk := by split <;> exact ht
      exact hr
    · exact ht
theorem execCmbput_memOk (g : Guard) (d a b : Nat) : Out.MemOk (execCmbput g d a b s) := by
  refine oncePerIssue_memOk h _ (fun t c l act ht => .ite trivial (.ite trivial ?_))
  split
  · trivial
  · exact ht
  · refine .ite trivial ?_
    split
    · trivial
    · exact ht
theorem execCmbputArrival_memOk (k id : Nat) : Out.MemOk (execCmbputArrival k id s) := by
  unfold execCmbputArrival
  dsimp only
  split
  · exact Out.memOk_fault _
  · have hd := h.dropEntry k id
    exact .blocked (.ite ((Out.memOk_next _).mpr hd) (.ite ((Out.memOk_next _).mpr (State.MemOk.modPkg
      (State.MemOk.homeWrite (hd.homeRead _ _) _ _ _ _) _ _)) ((Out.memOk_next _).mpr hd)))
theorem execCombineTimeout_memOk (p die slot : Nat) : Out.MemOk (execCombineTimeout p die slot s) := by
  unfold execCombineTimeout
  dsimp only
  split
  · exact .ite ((Out.memOk_next _).mpr h) (Out.memOk_fault _)
  · exact Out.memOk_fault _
theorem execCombineRelease_memOk (p die slot : Nat) : Out.MemOk (execCombineRelease p die slot s) :=
  .blocked (.ite ((Out.memOk_next _).mpr h) ((Out.memOk_next _).mpr (State.MemOk.modPkg (h.homeWrite _ _ _ _) _ _)))
theorem execCombineReleaseDone_memOk (p die slot : Nat) : Out.MemOk (execCombineReleaseDone p die slot s) := by
  unfold execCombineReleaseDone
  extract_lets k x hd s1 b s2
  have h2 : s2.MemOk := .ite h h
  exact .blocked (.ite ((Out.memOk_next _).mpr h2) ((Out.memOk_next _).mpr (h2.postEv _ _)))
theorem ownSlot_memOk (i : Instr) (a : Nat) {f : State → Ctx → List Nat → Handle → CmbSlot → Eff} (hf : ∀ t c act k x, t.MemOk → (f t c act k x).MemOk) :
    Out.MemOk (ownSlot i a s f) := oncePerIssue_memOk h _ (fun _ _ _ _ ht => .ite trivial (hf _ _ _ _ _ ht))
theorem execCmbwait_memOk (g : Guard) (d a : Nat) : Out.MemOk (execCmbwait g d a s) := by
  refine ownSlot_memOk h _ _ (fun t c act k x ht => ?_)
  split
  · exact ht.acquire _ _
  · exact ht
theorem State.MemOk.takeBatch (k : Nat) (c : Ctx) (batch d : Nat) : (s.takeBatch k c batch d).MemOk := h.acquire _ _
theorem execCmbwaitBatch_memOk (g : Guard) (d a : Nat) : Out.MemOk (execCmbwaitBatch g d a s) :=
  oncePerIssue_memOk h _ (fun _ _ _ _ ht => .ite trivial (.ite (ht.takeBatch _ _ _ _) ht))
theorem closeSlot_memOk (i : Instr) (a : Nat) (drop : Bool) : Out.MemOk (closeSlot i a drop s) :=
  ownSlot_memOk h _ _ (fun _ _ _ _ _ ht => .ite ht ht)
theorem execCmbstat_memOk (g : Guard) (d a sel : Nat) : Out.MemOk (execCmbstat g d a sel s) :=
  ownSlot_memOk h _ _ (fun _ _ _ _ _ ht => ht)

/-! ### Collectives -/

omit h in
@[simp] theorem State.memOk_modColl (p ix : Nat) (f : CollEnt → CollEnt) : (s.modColl p ix f).MemOk ↔ s.MemOk := Iff.rfl
theorem State.MemOk.modPeers (p : Nat) (x : CollEnt) (f : CollEnt → CollEnt) : (s.modPeers p x f).MemOk := by
  refine h.foldl _ _ (fun t m ht => ?_)
  split
  · exact .ite ht ht
  · exact ht
theorem State.MemOk.failColl (p ix status : Nat) : (s.failColl p ix status).MemOk := h.modPeers _ _ _
theorem collIssue_memOk (i : Instr) (op : CollOp) (d a : Nat) (c : Ctx) (l : Nat) (act : List Nat) (y : CollDesc) :
    (collIssue i op d a s c l act y).MemOk := by
  unfold collIssue
  split
  · trivial
  · split
    · exact h
    · have hr : (if c.kind = .seq then s.reserveEv s.cur.ctx else s).MemOk := by split <;> exact h
      exact hr
theorem execColl_memOk (g : Guard) (d a : Nat) (op : CollOp) : Out.MemOk (execColl g d a op s) := by
  refine oncePerIssue_memOk h _ (fun t c l act ht => .ite trivial ?_)
  split
  · trivial
  · exact .ite trivial (.ite trivial (collIssue_memOk ht _ _ _ _ _ _ _ _))
theorem State.MemOk.halyardSpan (p asid va n : Nat) (k : AccKind) : (s.halyardSpan p asid va n k).1.MemOk := by
  unfold State.halyardSpan
  split
  · exact h
  · split
    · exact h
    · exact h.span _ _ _ _ _
theorem State.MemOk.collSources (l : List (Nat × Nat × CollEnt)) : (s.collSources l).1.MemOk := by
  refine foldl_fst_induct State.MemOk _ (fun r e hr => ?_) _ _ h
  dsimp only
  split
  · have hx := hr.halyardSpan e.1 e.2.2.asid (e.2.2.src.addr e.2.2.member) (e.2.2.src.bytes e.2.2.member) .read
    split
    · next e1 =>
      rw [e1] at hx
      split
      · exact hx
      · exact State.MemOk.engineRead hx _ _
    · next e1 => rw [e1] at hx; exact hx
    · next e1 => rw [e1] at hx; exact hx
  · exact hr
theorem execCollStart_memOk (p ix : Nat) : Out.MemOk (execCollStart p ix s) := by
  unfold execCollStart
  refine .ite ((Out.memOk_next _).mpr (h.failColl _ _ _)) ?_
  dsimp only
  split
  · exact Out.memOk_fault _
  · next l _ =>
    refine .blocked (.ite ((Out.memOk_next _).mpr (h.failColl _ _ _)) ?_)
    have hx := h.collSources l
    split
    · next e =>
      rw [e] at hx
      refine (Out.memOk_next _).mpr (State.MemOk.modPeers (State.MemOk.foldl hx _ _ ?_) _ _ _)
      exact fun _ _ ht => ht
    · next e => rw [e] at hx; exact (Out.memOk_next _).mpr hx
    · next e => rw [e] at hx; exact (Out.memOk_next _).mpr (State.MemOk.failColl hx _ _ _)
    · exact Out.memOk_fault _
theorem State.MemOk.accumulate (c : Ctx) (o : Loc) (x : CollEnt) (ndfp : Bool) (turn ch : Nat) : (s.accumulate c o x ndfp turn ch).1.MemOk :=
  h.engineWrite _ _ _
theorem State.MemOk.freeBytes (n : Nat) : (s.freeBytes n).1.MemOk := h.of_eq rfl rfl
theorem State.MemOk.stageChunk {t : State} {p ix ch : Nat} {x : CollEnt} (e : s.stageChunk p ix ch x = some t) : t.MemOk := by
  unfold State.stageChunk at e
  dsimp only at e
  have h1 : (s.latchStaging p x.asid).MemOk := h
  split at e
  · cases e
  · split at e
    · next e1 => cases e; exact State.MemOk.modPkg ((h1.halyardSpan _ _ _ _ _).of_fst e1) _ _
    · next e1 => cases e; exact State.MemOk.failColl ((h1.halyardSpan _ _ _ _ _).of_fst e1) _ _ _
    · next e1 =>
      cases e
      have h2 := (h1.halyardSpan _ _ _ _ _).of_fst e1
      refine State.MemOk.modPkg (State.MemOk.engineWrite ?_ _ _ _) _ _
      split
      · exact State.MemOk.freeBytes h2 _
      · exact h2

end
end Sys2Proof.Machine
end

section
/-! The memories stay canonical: collectives that run, reservations, special registers, halts (chapters 11, 19 and 20). -/

namespace Sys2Proof.Machine

section
variable {s : State} (h : s.MemOk)
include h

/-! ### Collectives that run -/

theorem State.MemOk.pinChunk {t : State} {p ix ch asid : Nat} {us : List (Nat × Nat × Nat)} (e : s.pinChunk p ix ch asid us = some t) : t.MemOk := by
  have go := foldl_induct (fun o : Option State => ∀ t, o = some t → t.MemOk) (fun o u => o.bind (fun s =>
    let r := s.takeSlots u.1 u.2.1 asid u.2.2 0
    if r.2 = 0 then none
    else some (r.1.modPkg u.1 (fun q =>
      { q with pins := q.pins ++ [{ site := u.2.1, asid := asid, pkg := p, ix := ix, ch := ch, n := r.2 }] })))) (fun o u ho t ht => by
      obtain ⟨v, rfl, hv⟩ := Option.bind_eq_some_iff.mp ht
      dsimp only at hv
      split at hv
      · cases hv
      · cases hv; exact (ho v rfl).takeSlots _ _ _ _ _) us (some s) (fun t ht => by cases ht; exact h)
  exact go t e
omit h in
@[simp] theorem State.memOk_arrive (p ix ch : Nat) : (s.arrive p ix ch).MemOk ↔ s.MemOk := Iff.rfl
theorem State.MemOk.writeParts (c : Ctx) (segs : List (Loc × Nat)) (bs : List Byte) (l : List (Nat × Nat)) : (s.writeParts c segs bs l).MemOk :=
  h.foldl _ _ (fun _ _ ht => ht.engineWrite _ _ _)
theorem State.MemOk.formChunk {r : State × List Byte} {p ch : Nat} {x : CollEnt} (e : s.formChunk p ch x = some r) : r.1.MemOk := by
  unfold State.formChunk at e
  dsimp only at e
  split at e
  · obtain ⟨u, -, rfl⟩ := Option.map_eq_some_iff.mp e
    exact State.MemOk.accumulate (s := { s with free := s.free + 1 }) h _ _ _ _ _ _
  · cases e; exact h.of_eq rfl rfl
theorem State.MemOk.writeChunk (p ix ch : Nat) (x : CollEnt) (segs : List (Loc × Nat)) : (s.writeChunk p ix ch x segs).MemOk := by
  unfold State.writeChunk
  split
  · next e => exact h.formChunk e
  · next e => exact State.MemOk.writeParts (h.formChunk e) _ _ _ _
  · exact h.failColl _ _ _
theorem State.MemOk.chunkSegs (p ch : Nat) (x : CollEnt) : (s.chunkSegs p ch x).1.MemOk := by
  unfold State.chunkSegs
  split
  · exact h
  · exact h.halyardSpan _ _ _ _ _
theorem State.MemOk.lastStep {t : State} {p ix ch : Nat} {x : CollEnt} (e : s.lastStep p ix ch x = some t) : t.MemOk := by
  unfold State.lastStep at e
  split at e
  · exact h.stageChunk e
  · split at e
    · next e1 => cases e; exact State.MemOk.modPkg ((h.chunkSegs _ _ _).of_fst e1) _ _
    · next e1 => cases e; exact State.MemOk.failColl ((h.chunkSegs _ _ _).of_fst e1) _ _ _
    · next e1 =>
      have h1 := (h.chunkSegs _ _ _).of_fst e1
      split at e
      · cases e
      · dsimp only at e
        split at e
        · cases e; exact h1.writeChunk _ _ _ _ _
        · exact h1.pinChunk e
theorem State.MemOk.overflowChunk {t : State} {p ch : Nat} {x : CollEnt} (e : s.overflowChunk p ch x = some t) : t.MemOk := by
  unfold State.overflowChunk at e
  split at e
  · cases e
  · have h1 := h.freeBytes collChunk
    dsimp only at e
    generalize s.freeBytes collChunk = r at h1 e
    split at e
    · cases e; exact h
    · cases e
      rw [State.memOk_modChunk, State.memOk_modPkg]
      exact h1.homeWrite _ _ _ _
theorem execCollChunkArrival_memOk (p ix ch : Nat) : Out.MemOk (execCollChunkArrival p ix ch s) := by
  unfold execCollChunkArrival
  refine .blocked (.ite ((Out.memOk_next _).mpr (h.failColl _ _ _)) (.ite (.ite ?_ (Out.memOk_fault _)) (.ite ?_ (Out.memOk_fault _))))
  · dsimp only
    split
    · next e => exact (Out.memOk_next _).mpr (h.lastStep e)
    · exact Out.memOk_fault _
  · dsimp only
    split
    · next e => exact (Out.memOk_next _).mpr (h.overflowChunk e)
    · exact Out.memOk_fault _
theorem State.MemOk.collReadWord (p ix j : Nat) : (s.collReadWord p ix j).MemOk := by
  unfold State.collReadWord
  refine .ite h ?_
  split
  · exact h
  · refine .ite h ?_
    split
    · next e => exact .ite h (State.MemOk.modPeers (State.MemOk.engineRead ((h.halyardSpan _ _ _ _ _).of_fst e) _ _) _ _ _)
    · exact h
theorem State.MemOk.collWriteWord (p ix ch j : Nat) : (s.collWriteWord p ix ch j).MemOk := by
  unfold State.collWriteWord
  refine .ite h ?_
  split
  · next e =>
    refine .ite h ?_
    split
    · refine State.MemOk.modPkg (State.MemOk.writeParts ?_ _ _ _ _) _ _
      exact ((h.chunkSegs _ _ _).of_fst e).of_eq rfl rfl
    · exact h
  · exact h
theorem execCollComplete_memOk (p ix : Nat) : Out.MemOk (execCollComplete p ix s) := by
  unfold execCollComplete
  extract_lets x lvl s1 s2
  have h1 : s1.MemOk := h.release _ _
  have h2 : s2.MemOk := h1.dropEntry _ _
  exact .blocked (.ite ((Out.memOk_next _).mpr (h2.postEv _ _)) ((Out.memOk_next _).mpr h2))
theorem execCollwait_memOk (g : Guard) (d a : Nat) : Out.MemOk (execCollwait g d a s) :=
  oncePerIssue_memOk h _ (fun _ _ _ _ ht => .ite (ht.acquire _ _) ht)
theorem execCollq_memOk (g : Guard) (d a : Nat) : Out.MemOk (execCollq g d a s) := by
  refine oncePerIssue_memOk h _ (fun t c l act ht => State.MemOk.modCtx (State.MemOk.ite ?_ ht) _ _)
  exact ht.acquire _ _

/-! ### Reservations and special registers -/

theorem execDropNotice_memOk (k id ch : Nat) : Out.MemOk (execDropNotice k id ch s) := by
  unfold execDropNotice
  split
  · exact .ite ((Out.memOk_next _).mpr h) (Out.memOk_fault _)
  · exact Out.memOk_fault _
theorem execReservationGrant_memOk (k id ch : Nat) : Out.MemOk (execReservationGrant k id ch s) := by
  unfold execReservationGrant
  split
  · exact .ite ((Out.memOk_next _).mpr h) (Out.memOk_fault _)
  · exact Out.memOk_fault _
theorem execReservationWindowMiss_memOk (k id ch : Nat) : Out.MemOk (execReservationWindowMiss k id ch s) := by
  unfold execReservationWindowMiss
  split
  · exact .ite ((Out.memOk_next _).mpr h) (Out.memOk_fault _)
  · exact Out.memOk_fault _
theorem execSread_memOk (g : Guard) (d : Nat) (u : Bool) (n : Nat) : Out.MemOk (execSread g d u n s) :=
  .ite (oncePerIssue_memOk h _ (fun _ _ _ _ ht => ht)) (gate_memOk h _ (fun _ _ _ ht => ht))
theorem execSwrite_memOk (g : Guard) (d : Nat) (u : Bool) (n : Nat) : Out.MemOk (execSwrite g d u n s) :=
  .ite (oncePerIssue_memOk h _ (fun _ _ _ _ ht => ht)) (gate_memOk h _ (fun _ _ _ ht => ht))
theorem execTrap_memOk (g : Guard) (code : Nat) : Out.MemOk (execTrap g code s) :=
  gate_memOk h _ (fun _ _ _ ht => .ite trivial (State.MemOk.takeTrap (State.MemOk.modCtx ht _ _) _ _ _ _ _ _ _))

/-! ### Halts -/

theorem State.MemOk.traceStop (k kind : Nat) : (s.traceStop k kind).MemOk := h.trace _ _ _ _ _
theorem State.MemOk.haltGroup (k : Nat) : (s.haltGroup k).MemOk :=
  .ite h (.ite h (State.MemOk.traceStop (s := s.stopGroup k) h _ _))
theorem State.MemOk.goOn (k : Nat) : (s.goOn k).MemOk :=
  .ite (State.MemOk.traceStop (State.MemOk.modCtx (h.reinject k) _ _) _ _) h
theorem State.MemOk.resumeGroup (k : Nat) : (s.resumeGroup k).MemOk := by
  unfold State.resumeGroup
  exact .ite h (.ite h (State.MemOk.goOn (h.modCtx _ _) _))
theorem State.MemOk.haltSeq (k : Nat) : (s.haltSeq k).MemOk := .ite h h
theorem State.MemOk.resumeSeq (k : Nat) : (s.resumeSeq k).MemOk := by
  unfold State.resumeSeq
  exact .ite (State.MemOk.reinject (h.modCtx _ _) _) h
theorem State.MemOk.haltScope (c : Ctx) (sc : HScope) : (s.haltScope c sc).MemOk :=
  (h.foldl _ _ (fun _ _ ht => ht.haltGroup _)).foldl _ _ (fun _ _ ht => ht.haltSeq _)
theorem State.MemOk.resumeScope (c : Ctx) (sc : HScope) : (s.resumeScope c sc).MemOk := by
  have h1 := (h.foldl (s.scopeGroups c sc) (fun s k => s.resumeGroup k) (fun _ _ ht => ht.resumeGroup _)).foldl (s.scopeSeqs c sc)
    (fun s k => s.resumeSeq k) (fun _ _ ht => ht.resumeSeq _)
  unfold State.resumeScope
  split
  · exact h1.modGrid _ _
  · exact h1

end
end Sys2Proof.Machine
end

section
/-! The memories stay canonical: handlers, replies and commands of the service registers (chapters 11, 16, 18, 19 and 22). -/

namespace Sys2Proof.Machine

section
variable {s : State} (h : s.MemOk)
include h

/-! ### The handler's window -/

theorem onWindow_memOk (i : Instr) {f : State → Ctx → Nat → List Nat → Nat → Ctx → Eff} (hf : ∀ t c l act k x, t.MemOk → (f t c l act k x).MemOk) :
    Out.MemOk (onWindow i s f) := by
  refine oncePerIssue_memOk h _ (fun t c l act ht => ?_)
  split
  · exact hf _ _ _ _ _ _ ht
  · trivial
theorem execWinsel_memOk (g : Guard) (a : Nat) : Out.MemOk (execWinsel g a s) := oncePerIssue_memOk h _ (fun _ _ _ _ ht => .ite trivial ht)
theorem State.MemOk.windowOpen (x : Ctx) (region o : Nat) : (s.windowOpen x region o).MemOk := .ite (h.releaseSpan _ _) h
theorem execWinrd_memOk (g : Guard) (d a : Nat) : Out.MemOk (execWinrd g d a s) := by
  refine gate_memOk h _ (fun t c act ht => ?_)
  have h1 : (match t.windowGroup c with
      | some w => act.foldl (fun s l => s.windowOpen w.2 c.winRegion (c.rdV a l).toNat) t
      | none => t : State).MemOk := by
    split
    · exact ht.foldl _ _ (fun _ _ hu => hu.windowOpen _ _ _)
    · exact ht
  dsimp only
  split
  · trivial
  · exact h1
theorem State.MemOk.windowPut (k region o w : Nat) : (s.windowPut k region o w).MemOk :=
  .ite h (.ite h (State.MemOk.wrBytes (h.windowOpen _ _ _) _ _))
theorem execWinwr_memOk (g : Guard) (d a : Nat) : Out.MemOk (execWinwr g d a s) := by
  refine gate_memOk h _ (fun t c act ht => ?_)
  dsimp only
  split
  · trivial
  · exact ht
  · exact State.MemOk.foldl ht _ _ (fun _ _ hu => hu.windowPut _ _ _ _)
theorem execOplrd_memOk (g : Guard) (d a w : Nat) : Out.MemOk (execOplrd g d a w s) := by
  refine gate_memOk h _ (fun t c act ht => ?_)
  split
  · trivial
  · exact ht
theorem execRqrd_memOk (g : Guard) (d a : Nat) : Out.MemOk (execRqrd g d a s) := by
  refine gate_memOk h _ (fun t c act ht => ?_)
  split
  · trivial
  · exact ht
theorem execRqinj_memOk (g : Guard) (a : Nat) : Out.MemOk (execRqinj g a s) := by
  refine onWindow_memOk h _ (fun t c l act k x ht => ?_)
  split
  · exact .ite (ht.replayEntry _ _ _) trivial
  · trivial
theorem execRqdrop_memOk (g : Guard) (d a : Nat) : Out.MemOk (execRqdrop g d a s) := by
  refine onWindow_memOk h _ (fun t c l act k x ht => ?_)
  split
  · exact .ite (State.MemOk.settle (ht.modCtx _ _) _ _) trivial
  · trivial
theorem State.MemOk.leaveTrap (k : Nat) : (s.leaveTrap k).MemOk := by
  unfold State.leaveTrap
  refine .ite h (.ite ?_ (.ite h ?_))
  · exact State.MemOk.modCtx (State.MemOk.traceStop (State.MemOk.modCtx (h.modCtx _ _) _ _) _ _) _ _
  · exact State.MemOk.goOn (h.modCtx _ _) _
theorem State.MemOk.endHandler (k : Nat) (abort : Bool) (status : Word) : (s.endHandler k abort status).MemOk := by
  unfold State.endHandler
  exact .ite (State.MemOk.startAbort (State.MemOk.modCtx (State.MemOk.modPkg (h.modCtx _ _) _ _) _ _) _ _)
    (State.MemOk.leaveTrap (State.MemOk.modPkg (h.modCtx _ _) _ _) _)
theorem tret_memOk (c : Ctx) (act : List Nat) (abort : Bool) (status : Word) : (tret s c act abort status).MemOk := .ite (h.endHandler _ _ _) h
theorem execTret_memOk (g : Guard) : Out.MemOk (execTret g s) := gate_memOk h _ (fun _ _ _ ht => tret_memOk ht _ _ _ _)
theorem execTretAbort_memOk (g : Guard) (a : Nat) : Out.MemOk (execTretAbort g a s) :=
  gate_memOk h _ (fun _ _ _ ht => .ite ht (tret_memOk ht _ _ _ _))

/-! ### Contexts saved and restored -/

theorem State.MemOk.readSpan (c : Ctx) (va n : Nat) : (s.readSpan c va n).1.MemOk := by
  have hx := h.span (s.partyOf c false) va n .read (fun _ => true)
  unfold State.readSpan
  split
  · next e =>
    refine foldl_fst_induct State.MemOk _ (fun _ _ hr => ?_) _ _ ?_
    · exact hr.ctxRead _ _ _ _
    · exact hx.of_fst e
  · next e => exact hx.of_fst e
theorem State.MemOk.writeSpan (c : Ctx) (va : Nat) (bs : List Byte) : (s.writeSpan c va bs).MemOk := by
  have hx := h.span (s.partyOf c false) va bs.length .write (fun _ => true)
  unfold State.writeSpan
  split
  · next e => exact foldl_fst_induct State.MemOk _ (fun _ _ hr => hr.ctxWrite _ _ _ _) _ _ (hx.of_fst e)
  · next e => exact hx.of_fst e
theorem execCtxswSave_memOk (g : Guard) (a : Nat) : Out.MemOk (execCtxswSave g a s) := by
  refine onWindow_memOk h _ (fun t c l act k x ht => .ite trivial (.ite ht ?_))
  dsimp only
  split
  · trivial
  · exact State.MemOk.writeSpan (ht.releaseStore _) _ _ _
theorem State.MemOk.restored (k : Nat) (was : Bool) : (s.restored k was).MemOk := by
  unfold State.restored
  refine .ite (.ite h h) (.ite h (.ite h (.ite ?_ h)))
  exact State.MemOk.reinject (State.MemOk.modCtx (h.modPkg _ _) _ _) _
omit h in
/-- A restore that goes wrong answers no state. -/
theorem State.MemOk.restore_ite {p : Prop} [Decidable p] {n : Nat} {r : State ⊕ Nat} (hr : ∀ t, r = .inl t → t.MemOk) :
    ∀ t, (if p then .inr n else r) = .inl t → t.MemOk := by
  split
  · nofun
  · exact hr
theorem State.MemOk.restoreGroup {k : Nat} {img : List Byte} : ∀ t, s.restoreGroup k img = .inl t → t.MemOk := by
  unfold State.restoreGroup
  dsimp only
  split
  · nofun
  · refine State.MemOk.restore_ite (State.MemOk.restore_ite (fun t e => ?_))
    cases e
    exact State.MemOk.restored (h.modCtx _ _) _ _
theorem State.MemOk.restoreTeam {u : Nat} {area : List Byte} : ∀ t, s.restoreTeam u area = .inl t → t.MemOk := by
  have h1 := h.foldl ((s.groupsOf u).filter (fun e => !e.2.retired)) (fun s e => s.modCtx e.1 (fun c => { c with strA := {}, strB := {} }))
    (fun _ _ ht => ht)
  unfold State.restoreTeam
  dsimp only
  refine State.MemOk.restore_ite ?_
  split
  · nofun
  · refine foldl_induct (fun r : State ⊕ Nat => ∀ t, r = .inl t → t.MemOk) _ (fun r y hr v hv => ?_) _ _ (fun v hv => ?_)
    · split at hv
      · exact (hr _ rfl).restoreGroup _ hv
      · cases hv
    · cases hv; exact h1
theorem execCtxswRestore_memOk (g : Guard) (a : Nat) : Out.MemOk (execCtxswRestore g a s) := by
  refine onWindow_memOk h _ (fun t c l act k x ht => .ite trivial (.ite ht (.ite trivial ?_)))
  split
  · trivial
  · dsimp only
    split
    · trivial
    · split
      · next e => exact State.MemOk.restoreTeam (State.MemOk.releaseStore (ht.readSpan _ _ _) _) _ e
      · trivial
theorem execHalt_memOk (g : Guard) (sc : HScope) : Out.MemOk (execHalt g sc s) := by
  refine onWindow_memOk h _ (fun t c l act k x ht => ?_)
  have h1 := ht.foldl (t.scopeGroups x sc) (fun s k => if (s.ctx k).inHdl ∧ (s.ctx k).pkg = x.pkg ∧ (s.ctx k).site = x.site then s else s.haltGroup k)
    (fun _ _ hu => .ite hu (hu.haltGroup _))
  exact .ite h1 h1
theorem execResume_memOk (g : Guard) (sc : HScope) : Out.MemOk (execResume g sc s) :=
  onWindow_memOk h _ (fun _ _ _ _ _ _ ht => ht.resumeScope _ _)

/-! ### Translations -/

theorem afterAccesses_memOk (l : List (Nat × Nat × Nat)) (gd : Option (Nat × Word)) : (afterAccesses s l gd).MemOk := by
  unfold afterAccesses
  split
  · split <;> exact h
  · exact h
theorem tlbi_memOk (i : Instr) (d a : Nat) (w : Bool) : Out.MemOk (tlbi i d a w s) :=
  oncePerIssue_memOk h _ (fun _ _ _ _ ht => .ite trivial (afterAccesses_memOk (ht.modPkg _ _) _ _))
theorem execAsidgen_memOk (g : Guard) (d : Nat) : Out.MemOk (execAsidgen g d s) :=
  oncePerIssue_memOk h _ (fun _ _ _ _ ht => afterAccesses_memOk (ht.modPkg _ _) _ _)

/-! ### Replies to fault records -/

omit h in
@[simp] theorem State.memOk_setFld (p off hi lo x : Nat) : (s.setFld p off hi lo x).MemOk ↔ s.MemOk := Iff.rfl
theorem State.MemOk.mastRead (p a n : Nat) : (s.mastRead p a n).1.MemOk := h.homeRead _ _
theorem State.MemOk.mastWrite (p a : Nat) (bs : List Byte) : (s.mastWrite p a bs).MemOk := h.homeWrite _ _ _ _
theorem State.MemOk.retry (p id : Nat) : (s.retry p id).MemOk := by
  have h1 := State.MemOk.foldl (h.modPkg p (fun q => q.dropFrec id)) (s.modPkg p (fun q => q.dropFrec id)).ctxs (fun s e =>
    if e.2.pkg ≠ p then s
    else
      let s := s.modCtx e.1 (fun c => c.modLanes (List.range c.nLanes) (fun _ x => if x.wait = .fetch id then { x with wait := .none } else x))
      if s.heldBack e.2 then s else e.2.rq.foldl (fun s r => s.replayEntry e.1 r.id (fun i => decide (i = id))) s) (fun t e ht =>
    .ite ht (.ite ht (State.MemOk.foldl (ht.modCtx _ _) _ _ (fun _ _ hu => hu.replayEntry _ _ _))))
  exact h1.of_eq rfl rfl
theorem State.MemOk.endCopies (k p id : Nat) : (s.endCopies k p id).MemOk := by
  refine h.foldl _ _ (fun t r ht => ?_)
  split
  · exact .ite (ht.failCopy _ _ _ _) ht
  · exact ht
theorem State.MemOk.endCollectives (p id : Nat) : (s.endCollectives p id).MemOk :=
  h.foldl _ _ (fun _ _ ht => .ite ht (.ite ht (ht.failColl _ _ _)))
theorem State.MemOk.endReads (p id : Nat) : (s.endReads p id).MemOk := by
  refine State.MemOk.foldl (h.foldl _ _ (fun t e ht => ?_)) _ _ (fun t e ht => ?_)
  · exact .ite ht (.ite ht (State.MemOk.stopQueue (ht.modPkg _ _) _ _ _))
  · exact .ite ((ht.stopQueue _ _ _).closeGrid _) ht
theorem State.MemOk.unresolvable (p id : Nat) : (s.unresolvable p id).MemOk := by
  refine State.MemOk.modPkg (State.MemOk.endReads (State.MemOk.endCollectives (h.foldl _ _ (fun t e ht => ?_)) _ _) _ _) _ _
  have h1 := ht.endCopies e.1 p id
  exact .ite (h1.startAbort _ _) h1
theorem State.MemOk.tfreply (p : Nat) (v : DWord) : (s.tfreply p v).MemOk := by
  unfold State.tfreply
  dsimp only
  split
  · exact h
  · exact .ite h (.ite h (.ite (h.retry _ _) (h.unresolvable _ _)))
theorem execFaultRecordFlush_memOk (p : Nat) : Out.MemOk (execFaultRecordFlush p s) :=
  .ite ((Out.memOk_next _).mpr (h.writeFrec _)) (Out.memOk_fault _)

/-! ### Commands of the engines -/

theorem State.MemOk.tlbCommand (p : Nat) (v : DWord) : (s.tlbCommand p v).MemOk := by
  unfold State.tlbCommand
  refine .ite h ?_
  dsimp only
  split <;> exact h
theorem execTlbCommandComplete_memOk (p : Nat) : Out.MemOk (execTlbCommandComplete p s) :=
  .ite ((Out.memOk_next _).mpr h) (Out.memOk_fault _)
theorem State.MemOk.compress (p a : Nat) : (s.compress p a).1.MemOk := by
  have h0 := h.mastRead p a 4096
  unfold State.compress
  generalize s.mastRead p a 4096 = r at h0
  have h1 : ({ r.1 with free := r.1.free + 1 } : State).MemOk := h0
  dsimp only
  split
  · exact h
  · split
    · exact h1
    · exact h1.mastWrite _ _ _
theorem State.MemOk.expand (p x a : Nat) : (s.expand p x a).1.MemOk := by
  unfold State.expand
  split
  · split
    · exact h.mastWrite _ _ _
    · exact h
  · exact h
theorem State.MemOk.freeRecord (p x : Nat) : (s.freeRecord p x).1.MemOk := by
  unfold State.freeRecord
  split <;> exact h
theorem State.MemOk.archCommand (p : Nat) (v : DWord) : (s.archCommand p v).MemOk := by
  unfold State.archCommand
  refine .ite h ?_
  dsimp only
  split
  · rw [State.memOk_modPkg, State.memOk_setFld]
    exact h.compress _ _
  · rw [State.memOk_modPkg, State.memOk_setFld]
    exact h.expand _ _ _
  · rw [State.memOk_modPkg, State.memOk_setFld]
    exact h.freeRecord _ _
  · exact h
theorem execArchCommandComplete_memOk (p : Nat) : Out.MemOk (execArchCommandComplete p s) :=
  .ite ((Out.memOk_next _).mpr h) (Out.memOk_fault _)
theorem State.MemOk.writeQuote (p a : Nat) : (s.writeQuote p a).MemOk := by
  obtain ⟨bs, n, e⟩ := writeQuote_eq s p a
  rw [e]
  exact State.MemOk.of_eq (State.MemOk.mastWrite (State.MemOk.modPkg (h.mastRead p a 64) p _) p (a + 64) _) rfl rfl
theorem State.MemOk.writeCert (p a : Nat) : (s.writeCert p a).MemOk := (h.mastWrite _ _ _).mastWrite _ _ _
theorem State.MemOk.attCommand (p : Nat) (v : DWord) : (s.attCommand p v).MemOk := by
  unfold State.attCommand
  exact .ite h (State.MemOk.modPkg (State.MemOk.modPkg (State.MemOk.ite h (.ite (h.writeQuote _ _) (h.writeCert _ _))) _ _) _ _)
theorem execAttComplete_memOk (p : Nat) : Out.MemOk (execAttComplete p s) :=
  .ite ((Out.memOk_next _).mpr (State.MemOk.packageEvent (h.modPkg _ _) _)) (Out.memOk_fault _)
theorem State.MemOk.readImage (p a : Nat) : (s.readImage p a).1.MemOk := by
  have h1 := h.mastRead p (a + 8) 8
  unfold State.readImage
  dsimp only
  split
  · exact h
  · split
    · exact h1
    · exact h1.mastRead _ _ _
theorem State.MemOk.fwCommand (p : Nat) (v : DWord) : (s.fwCommand p v).MemOk := by
  have h1 := h.readImage p (bits v 51 12 * 4096)
  unfold State.fwCommand
  generalize s.readImage p (bits v 51 12 * 4096) = r at h1
  refine .ite h ?_
  dsimp only
  split
  · exact h1
  · exact h1
  · exact .ite h1 (.ite h1 h1)
theorem execFwLoadComplete_memOk (p : Nat) : Out.MemOk (execFwLoadComplete p s) :=
  .ite ((Out.memOk_next _).mpr (State.MemOk.packageEvent (h.modPkg _ _) _)) (Out.memOk_fault _)

/-! ### Dies and planes -/

theorem State.MemOk.moveOff (p d : Nat) : (s.moveOff p d).MemOk :=
  h.foldl _ _ (fun _ _ ht => .ite (State.MemOk.modUnit (ht.startMove _) _ _) ht)
theorem State.MemOk.putOff (p d n : Nat) : (s.putOff p d n).MemOk := h.of_eq rfl rfl
theorem State.MemOk.restartDie (p d : Nat) : (s.restartDie p d).MemOk := by
  unfold State.restartDie
  split
  · exact h
  · exact h.of_eq rfl rfl
theorem execDieClockStop_memOk (p die : Nat) : Out.MemOk (execDieClockStop p die s) := .ite ((Out.memOk_next _).mpr h) (Out.memOk_fault _)
theorem execDieClockRestart_memOk (p die : Nat) : Out.MemOk (execDieClockRestart p die s) :=
  .ite ((Out.memOk_next _).mpr (h.restartDie _ _)) (Out.memOk_fault _)
theorem State.MemOk.diesvc (p : Nat) (v : DWord) : (s.diesvc p v).MemOk := by
  unfold State.diesvc
  refine .ite h ?_
  dsimp only
  split
  · exact .ite h (State.MemOk.moveOff (h.modPkg _ _) _ _)
  · exact .ite h (State.MemOk.packageEvent (State.MemOk.modPkg (h.restartDie _ _) _ _) _)
  · exact h
theorem execDieDrainComplete_memOk (p : Nat) : Out.MemOk (execDieDrainComplete p s) :=
  .ite ((Out.memOk_next _).mpr (State.MemOk.packageEvent (State.MemOk.modPkg (h.mergeShadows _ _) _ _) _)) (Out.memOk_fault _)
theorem State.MemOk.drainPlane (p i x : Nat) : (s.drainPlane p i x).MemOk := h.modPkg _ _
theorem State.MemOk.planeDies (p x : Nat) : (s.planeDies p x).MemOk := by
  unfold State.planeDies
  dsimp only
  split
  · exact h
  · exact State.MemOk.foldl (h.modPkg _ _) _ _ (fun _ _ ht => .ite (ht.drainPlane _ _ _) ht)
theorem execPlaneFailure_memOk (p plane : Nat) : Out.MemOk (execPlaneFailure p plane s) :=
  .ite ((Out.memOk_next _).mpr (State.MemOk.planeDies (h.modPkg _ _) _ _)) (Out.memOk_fault _)
theorem execFabricPortFailure_memOk (p port : Nat) : Out.MemOk (execFabricPortFailure p port s) :=
  .ite (.ite ((Out.memOk_next _).mpr (State.MemOk.planeDies (h.modPkg _ _) _ _)) ((Out.memOk_next _).mpr h)) (Out.memOk_fault _)
theorem State.MemOk.planemap (p : Nat) (v : DWord) : (s.planemap p v).MemOk :=
  h.foldl _ _ (fun _ _ ht => .ite ht (ht.drainPlane _ _ _))

end
end Sys2Proof.Machine
end

section
/-! The memories stay canonical: writes of the service registers, resets, and the queues (chapters 13, 18, 20 and 22). -/

namespace Sys2Proof.Machine

section
variable {s : State} (h : s.MemOk)
include h

/-! ### Writes of the registers -/

theorem execPortRetrainComplete_memOk (p plane : Nat) : Out.MemOk (execPortRetrainComplete p plane s) := by
  unfold execPortRetrainComplete
  split
  · exact Out.memOk_fault _
  · exact (Out.memOk_next _).mpr h
theorem State.MemOk.dbghalt (p : Nat) (v : DWord) : (s.dbghalt p v).MemOk := by
  unfold State.dbghalt
  dsimp only
  split
  · exact h
  · refine .ite h ?_
    split
    · exact h.haltScope _ _
    · exact h.resumeScope _ _
    · exact h
theorem State.MemOk.returnCores (p : Nat) : (s.returnCores p).MemOk := h.foldl _ _ (fun _ _ ht => .ite ht ht)
theorem State.MemOk.corestop (p die wd : Nat) (v : DWord) : (s.corestop p die wd v).MemOk := State.MemOk.returnCores (h.modPkg _ _) _
theorem State.MemOk.freeze (p m off : Nat) : (s.freeze p m off).MemOk := State.MemOk.packageEvent (h.modPkg _ _) _
theorem State.MemOk.mstctl (p m : Nat) (v : DWord) : (s.mstctl p m v).MemOk := by
  unfold State.mstctl
  refine .ite h (.ite (.ite h h) (.ite (h.freeze _ _ _) (.ite (.ite h h) (.ite (h.freeze _ _ _) (.ite h ?_)))))
  split
  · exact .ite h h
  · exact h
  · exact h
  · exact h
theorem State.MemOk.queuePtr (p q w : Nat) : (s.queuePtr p q w).MemOk := by
  unfold State.queuePtr
  exact .ite (State.MemOk.stopQueue (h.modPkg _ _) _ _ _) h
theorem State.MemOk.members (p w : Nat) (v : DWord) : (s.members p w v).MemOk := by
  unfold State.members
  exact State.MemOk.foldl (h.modPkg _ _) _ _ (fun _ _ ht => .ite (ht.startAbort _ _) ht)
theorem State.MemOk.regWrite (p off : Nat) (v : DWord) : (s.regWrite p off v).MemOk := by
  unfold State.regWrite
  refine .ite h (.ite (h.corestop _ _ _ _) (.ite h (.ite h (.ite ?_ (.ite (h.members _ _ _) ?_)))))
  · split
    · exact h
    · exact h
    · exact h.queuePtr _ _ _
    · exact h
  · split
    · exact h
    · exact h
    · exact h.planemap _ _
    · exact h
    · exact h.tfreply _ _
    · exact h.tlbCommand _ _
    · exact h
    · exact h.archCommand _ _
    · exact h
    · exact h.attCommand _ _
    · exact h
    · exact h
    · exact h.dbghalt _ _
    · exact h.diesvc _ _
    · exact h
    · exact h.fwCommand _ _
    · exact h
theorem State.MemOk.request (p m off : Nat) (v : DWord) : (s.request p m off v).MemOk := by
  unfold State.request
  refine .ite (h.mstctl _ _ _) ?_
  split
  · exact h.regWrite _ _ _
  · exact h
  · exact h.freeze _ _ _
theorem State.MemOk.took (p m : Nat) : (s.took p m).MemOk := .ite h h
theorem State.MemOk.lapseOffer (p : Nat) : (s.lapseOffer p).MemOk := State.MemOk.packageEvent (h.modPkg _ _) _
theorem State.MemOk.loseOwner (p : Nat) : (s.loseOwner p).MemOk := State.MemOk.packageEvent (h.modPkg _ _) _
theorem State.MemOk.lapsed (p : Nat) : (s.lapsed p).MemOk := by
  have h1 : (if (s.pkg p).offerOver then s.lapseOffer p else s).MemOk := .ite (h.lapseOffer _) h
  exact .ite (h1.loseOwner _) h1
theorem State.MemOk.served (p m off : Nat) (v : DWord) : (s.served p m off v).MemOk := by
  unfold State.served State.answer
  exact State.MemOk.modPkg (((h.lapsed _).took _ _).request _ _ _ _) _ _
theorem masterWrite_memOk (name : String) (p m off : Nat) (v : DWord) (fits : Bool) : Out.MemOk (masterWrite name p m off v fits s) :=
  .ite ((Out.memOk_next _).mpr (h.served _ _ _ _)) (Out.memOk_fault _)
theorem execOfferLapse_memOk (p : Nat) : Out.MemOk (execOfferLapse p s) := .ite ((Out.memOk_next _).mpr (h.lapseOffer _)) (Out.memOk_fault _)
theorem execOwnershipLoss_memOk (p : Nat) : Out.MemOk (execOwnershipLoss p s) := .ite ((Out.memOk_next _).mpr (h.loseOwner _)) (Out.memOk_fault _)
theorem execMasterPresenceChange_memOk (p m : Nat) (up : Bool) : Out.MemOk (execMasterPresenceChange p m up s) :=
  .blocked ((Out.memOk_next _).mpr (State.MemOk.modPkg (h.lapsed _) _ _))
theorem execPackageHeartbeat_memOk (p : Nat) : Out.MemOk (execPackageHeartbeat p s) := .ite ((Out.memOk_next _).mpr h) (Out.memOk_fault _)
theorem execGovernorAdjust_memOk (p mat vec freq draw : Nat) (limit : Bool) : Out.MemOk (execGovernorAdjust p mat vec freq draw limit s) :=
  .ite ((Out.memOk_next _).mpr h) (Out.memOk_fault _)
theorem State.MemOk.readBy (p m off : Nat) : (s.readBy p m off).MemOk := by
  have h1 := (h.lapsed p).took p m
  exact .ite (h1.modPkg _ _) (h1.modPkg _ _)
theorem State.MemOk.masterRead (p m off : Nat) : (s.masterRead p m off).MemOk := .ite (h.readBy _ _ _) h

/-! ### Resets -/

theorem State.MemOk.bootPorts (p : Nat) (l : List Nat) : (s.bootPorts p l).MemOk := by
  unfold State.bootPorts
  exact State.MemOk.foldl (h.modPkg _ _) _ _ (fun _ _ ht => .ite (ht.planeDies _ _) ht)
theorem execPackageReset_memOk (p : Nat) (i : BootInputs) : Out.MemOk (execPackageReset p i s) := by
  unfold execPackageReset
  refine .blocked ((Out.memOk_next _).mpr (State.MemOk.modPkg (State.MemOk.ite (State.MemOk.bootPorts (State.MemOk.modPkg ?_ _ _) _ _) ?_) _ _))
  · exact h.of_eq rfl rfl
  · exact h.of_eq rfl rfl

/-! ### Queues -/

theorem dispatch_memOk (name : String) (type p q : Nat) {go : State → List Byte → State} (hg : ∀ t bs, t.MemOk → (go t bs).MemOk) :
    Out.MemOk (dispatch name type p q s go) := by
  unfold dispatch
  refine .blocked ?_
  split
  · exact .ite ((Out.memOk_next _).mpr (hg _ _ h)) (Out.memOk_fault _)
  · have hx := h.translate (s.queueParty p q) ((s.pkg p).headAddr q) .read
    dsimp only
    split
    · next e =>
      have h1 := (hx.of_fst e).homeRead
      exact .ite ((Out.memOk_next _).mpr (State.MemOk.stopQueue (h1 _ _) _ _ _))
        (.ite ((Out.memOk_next _).mpr (hg _ _ (h1 _ _))) (Out.memOk_fault _))
    · next e => exact (Out.memOk_next _).mpr (State.MemOk.modPkg ((hx.of_fst e).parkOn _ _ _ _ _) _ _)
    · next e => exact (Out.memOk_next _).mpr ((hx.of_fst e).stopQueue _ _ _)
theorem execSignalPacketDispatch_memOk (p q : Nat) : Out.MemOk (execSignalPacketDispatch p q s) := dispatch_memOk h _ _ _ _ (fun _ _ ht => ht)
theorem execWaitPacketDispatch_memOk (p q : Nat) : Out.MemOk (execWaitPacketDispatch p q s) := dispatch_memOk h _ _ _ _ (fun _ _ ht => ht)
theorem State.MemOk.holdPacket (p q : Nat) (m : BitVec 4) (halt : Bool) (bs rec : List Byte) : (s.holdPacket p q m halt bs rec).MemOk :=
  State.MemOk.packageEvent (h.modPkg _ _) _
theorem State.MemOk.newGrid (p : Nat) (g : Grid) : (s.newGrid p g).MemOk := by
  unfold State.newGrid
  refine State.MemOk.ite ?_ (State.MemOk.foldl ?_ _ _ (fun _ _ ht => ht.newUnit _ _ _ _ _ _))
  · exact h.of_eq rfl rfl
  · exact h.of_eq rfl rfl
theorem State.MemOk.failLaunch (p q : Nat) (bs : List Byte) (status : Nat) : (s.failLaunch p q bs status).MemOk := by
  unfold State.failLaunch
  exact State.MemOk.modPkg (h.newGrid _ _) _ _
theorem State.MemOk.launchStaging (p asid : Nat) : (s.launchStaging p asid).MemOk := by
  unfold State.launchStaging
  split <;> exact h
theorem State.MemOk.startLaunch (p q : Nat) (bs rec : List Byte) (halt : Bool) : (s.startLaunch p q bs rec halt).MemOk := by
  unfold State.startLaunch
  exact State.MemOk.modPkg (State.MemOk.newGrid (State.MemOk.modPkg (h.launchStaging _ _) _ _) _ _) _ _
theorem State.MemOk.takeLaunch (p q : Nat) (bs : List Byte) : (s.takeLaunch p q bs).MemOk := by
  unfold State.takeLaunch
  split
  · exact h.failLaunch _ _ _ _
  · exact h.startLaunch _ _ _ _ _
  · have hx := h.translate (s.queueParty p q) (bits (word64 bs 1) 56 0) .read
    dsimp only
    split
    · next e =>
      have h1 := (hx.of_fst e).homeRead
      exact .ite (State.MemOk.failLaunch (h1 _ _) _ _ _ _)
        (.ite (State.MemOk.holdPacket (h1 _ _) _ _ _ _ _ _) (State.MemOk.startLaunch (h1 _ _) _ _ _ _ _))
    · next e => exact State.MemOk.modPkg ((hx.of_fst e).parkOn _ _ _ _ _) _ _
    · next e => exact (hx.of_fst e).failLaunch _ _ _ _

end
end Sys2Proof.Machine
end

section
/-! The memories stay canonical: the events of cores, teams and units, and the accesses of application cores (chapters 01, 13, 19 and 20). -/

namespace Sys2Proof.Machine

section
variable {s : State} (h : s.MemOk)
include h

/-! ### Dispatch, fetches and positions -/

theorem execLaunchPacketDispatch_memOk (p q : Nat) : Out.MemOk (execLaunchPacketDispatch p q s) :=
  dispatch_memOk h _ _ _ _ (fun _ _ ht => ht.takeLaunch _ _ _)
theorem State.MemOk.afterFetch (c : Ctx) (pc : DWord) : (s.afterFetch c pc).MemOk := by
  have hx := h.translate (s.partyOf c false) pc.toNat .fetch
  unfold State.afterFetch
  split
  · next e => exact (hx.of_fst e).homeRead _ _
  · next e => exact hx.of_fst e
theorem State.MemOk.noteGrant (k : Nat) : (s.noteGrant k).MemOk := by
  unfold State.noteGrant
  dsimp only
  split <;> exact h
theorem State.MemOk.grantMiss (k : Nat) (iss : Issue) : (s.grantMiss k iss).MemOk := State.MemOk.noteGrant (h.modCtx _ _) _
theorem State.MemOk.exchangePos (k new : Nat) : (s.exchangePos k new).MemOk := h
theorem execGroupSwap_memOk (k : Nat) : Out.MemOk (execGroupSwap k s) := by
  unfold execGroupSwap
  dsimp only
  split
  · exact .blocked ((Out.memOk_next _).mpr (h.exchangePos _ _))
  · exact Out.memOk_fault _
theorem execPendingForcedPromotion_memOk (k : Nat) : Out.MemOk (execPendingForcedPromotion k s) := by
  unfold execPendingForcedPromotion
  dsimp only
  split
  · exact .ite ((Out.memOk_next _).mpr (h.exchangePos _ _)) (Out.memOk_fault _)
  · exact Out.memOk_fault _
theorem execIssueWithdraw_memOk (k : Nat) : Out.MemOk (execIssueWithdraw k s) := by
  unfold execIssueWithdraw
  split
  · exact .blocked ((Out.memOk_next _).mpr h)
  · exact Out.memOk_fault _
theorem execSleepWake_memOk (k l : Nat) : Out.MemOk (execSleepWake k l s) := by
  unfold execSleepWake
  dsimp only
  split
  · exact .ite ((Out.memOk_next _).mpr h) (Out.memOk_fault _)
  · exact Out.memOk_fault _
theorem execHangWatchdogExpiry_memOk (k : Nat) : Out.MemOk (execHangWatchdogExpiry k s) := by
  unfold execHangWatchdogExpiry
  dsimp only
  split
  · refine .blocked ((Out.memOk_next _).mpr (State.MemOk.modCtx (State.MemOk.takeTrap ?_ _ _ _ _ _ _ _) _ _))
    exact h.of_eq rfl rfl
  · exact Out.memOk_fault _
theorem execLineAgeInvalidate_memOk (p core line : Nat) : Out.MemOk (execLineAgeInvalidate p core line s) := by
  unfold execLineAgeInvalidate
  split
  · exact .blocked ((Out.memOk_next _).mpr h)
  · exact Out.memOk_fault _

/-! ### Breakpoints, samples and handlers -/

theorem State.MemOk.breakpoint (k : Nat) (i : Issue) (bs ls : List Nat) : (s.breakpoint k i bs ls).MemOk := by
  unfold State.breakpoint
  dsimp only
  split
  · refine .ite (State.MemOk.takeTrap (State.MemOk.modCtx (h.modPkg _ _) _ _) _ _ _ _ _ _ _) ?_
    exact State.MemOk.trace (State.MemOk.modCtx (h.modPkg _ _) _ _) _ _ _ _ _
  · refine State.MemOk.haltScope (.ite (State.MemOk.takeTrap (State.MemOk.modCtx (h.modPkg _ _) _ _) _ _ _ _ _ _ _) ?_) _ _
    exact State.MemOk.trace (State.MemOk.modCtx (h.modPkg _ _) _ _) _ _ _ _ _
theorem execBreakpointHit_memOk (k : Nat) : Out.MemOk (execBreakpointHit k s) := by
  unfold execBreakpointHit
  split
  · split
    · exact (Out.memOk_next _).mpr (h.breakpoint _ _ _ _)
    · exact Out.memOk_fault _
  · exact Out.memOk_fault _
theorem execTraceSample_memOk (p core : Nat) : Out.MemOk (execTraceSample p core s) := by
  unfold execTraceSample
  refine .blocked ?_
  dsimp only
  split
  · exact Out.memOk_fault _
  · exact (Out.memOk_next _).mpr (State.MemOk.modPkg (h.traceOne _ _ _ _ _ _) _ _)
theorem State.MemOk.doubleFault (p : Nat) (core : Site) : (s.doubleFault p core).MemOk := by
  have h1 : ((s.modPkg p (fun q => q.setFld (0x0D00 + 32 * (core.loc / 256 % 8) + 8 * (core.loc % 256 / 64)) (core.loc % 64) (core.loc % 64) 1)).packageEvent p).MemOk :=
    State.MemOk.packageEvent (h.modPkg _ _) _
  exact State.MemOk.foldl (State.MemOk.modPkg (h1.foldl _ _ (fun _ _ ht => ht.startAbort _ _)) _ _) _ _ (fun _ _ ht => ht)
theorem execFetchFault_memOk (k l : Nat) : Out.MemOk (execFetchFault k l s) := by
  have trap (w : Word) (pc : DWord) (cause : Nat) (ls : List Nat) (info : Nat) :
      Out.MemOk (.next (State.takeTrap { s with free := s.free + 1 } k pc w cause ls info none)) := by
    refine (Out.memOk_next _).mpr (State.MemOk.takeTrap ?_ _ _ _ _ _ _ _)
    exact h.of_eq rfl rfl
  unfold execFetchFault
  refine .blocked ?_
  dsimp only
  split
  · exact Out.memOk_fault _
  · exact (Out.memOk_next _).mpr (h.doubleFault _ _)
  · exact trap _ _ _ _ _
  · exact trap _ _ _ _ _
  · exact (Out.memOk_next _).mpr (State.MemOk.modCtx (h.parkOn _ _ _ _ _) _ _)
theorem State.MemOk.putCtx (c : Ctx) : (s.putCtx c).MemOk := h.of_eq rfl rfl
theorem execHandlerEntry_memOk (p core : Nat) : Out.MemOk (execHandlerEntry p core s) := by
  unfold execHandlerEntry
  dsimp only
  split
  · exact Out.memOk_fault _
  · refine .blocked ((Out.memOk_next _).mpr (State.MemOk.modCtx ?_ _ _))
    split
    · exact h
    · exact h.putCtx _

/-! ### Pre-emption, spills and moves -/

theorem State.MemOk.takeAreas (u : Nat) (l : List Nat) : (s.takeAreas u l).MemOk := h
theorem State.MemOk.freeAreas (u : Nat) : (s.freeAreas u).MemOk := h
theorem State.MemOk.request305 (p : Nat) (core : Site) : (s.request305 p core).MemOk :=
  State.MemOk.foldl (h.modPkg _ _) _ _ (fun _ _ ht => ht)
theorem execPreemptionRequest_memOk (p core : Nat) : Out.MemOk (execPreemptionRequest p core s) := by
  unfold execPreemptionRequest
  exact .ite ((Out.memOk_next _).mpr (h.request305 _ _)) (Out.memOk_fault _)
theorem State.MemOk.withdrawRequest (p core : Nat) : (s.withdrawRequest p core).MemOk :=
  State.MemOk.foldl (h.modPkg _ _) _ _ (fun _ _ ht => ht)
theorem execForcedYield_memOk (u : Nat) : Out.MemOk (execForcedYield u s) := by
  unfold execForcedYield
  dsimp only
  split
  · exact .ite ((Out.memOk_next _).mpr h) (Out.memOk_fault _)
  · exact Out.memOk_fault _
theorem State.MemOk.swapOut (u : Nat) : (s.swapOut u).MemOk :=
  State.MemOk.foldl (State.MemOk.modUnit (h.takeAreas _ _) _ _) _ _ (fun _ _ ht => ht)
theorem execShadowBankSwap_memOk (p core : Nat) : Out.MemOk (execShadowBankSwap p core s) := by
  unfold execShadowBankSwap
  exact .blocked ((Out.memOk_next _).mpr (State.MemOk.modPkg (h.foldl _ _ (fun _ _ ht => ht.swapOut _)) _ _))
theorem State.MemOk.spill (u : Nat) : (s.spill u).MemOk := by
  unfold State.spill
  refine State.MemOk.modUnit (State.MemOk.mastWrite ?_ _ _ _) _ _
  exact (h.releaseStore u).of_eq rfl rfl
theorem execSpillComplete_memOk (p core : Nat) : Out.MemOk (execSpillComplete p core s) := by
  unfold execSpillComplete
  exact .blocked ((Out.memOk_next _).mpr (h.foldl _ _ (fun _ _ ht => ht.spill _)))
theorem State.MemOk.stopGroup (k : Nat) : (s.stopGroup k).MemOk := h
theorem State.MemOk.seat (k : Nat) : (s.seat k).MemOk := h
theorem State.MemOk.freshDie (p : Nat) (x : Site) : (s.freshDie p x).MemOk := h.thaw _
theorem State.MemOk.endMove (k : Nat) : (s.endMove k).MemOk := by
  unfold State.endMove
  refine .ite h (.ite ?_ (State.MemOk.reinject (h.modCtx _ _) _))
  exact State.MemOk.traceStop (State.MemOk.stopGroup (h.modCtx _ _) _) _ _
theorem State.MemOk.endMoveSeq (k : Nat) : (s.endMoveSeq k).MemOk := .ite h (.ite h (h.reinject _))
theorem State.MemOk.resumeSeated (k : Nat) : (s.resumeSeated k).MemOk := by
  unfold State.resumeSeated
  refine .ite ?_ (.ite (h.endMove _) (.ite h (State.MemOk.reinject (h.modCtx _ _) _)))
  exact h
theorem State.MemOk.reseat (u : Nat) (pl : Machine.Place) : (s.reseat u pl).MemOk := by
  have unplaced (l : List Nat) (x : WUnit → WUnit) : (l.foldl (fun s k => s.modCtx k (fun c => { c with placed := false })) (s.modUnit u x)).MemOk :=
    State.MemOk.foldl (h.modUnit _ _) _ _ (fun _ _ ht => ht.modCtx _ _)
  unfold State.reseat
  dsimp only
  refine State.MemOk.freeAreas (State.MemOk.foldl (State.MemOk.freshDie ?_ _ _) _ _ (fun _ _ ht => ht.acquire _ _)) _
  split
  · refine State.MemOk.endMoveSeq (State.MemOk.foldl ?_ _ _ (fun _ _ ht => ht.resumeSeated _)) _
    split
    · exact State.MemOk.modCtx (State.MemOk.foldl (unplaced _ _) _ _ (fun _ _ ht => ht.seat _)) _ _
    · exact State.MemOk.foldl (unplaced _ _) _ _ (fun _ _ ht => ht.seat _)
  · refine State.MemOk.foldl ?_ _ _ (fun _ _ ht => ht.resumeSeated _)
    split
    · exact State.MemOk.modCtx (State.MemOk.foldl (unplaced _ _) _ _ (fun _ _ ht => ht.seat _)) _ _
    · exact State.MemOk.foldl (unplaced _ _) _ _ (fun _ _ ht => ht.seat _)
theorem execTeamRestore_memOk (u : Nat) : Out.MemOk (execTeamRestore u s) := by
  unfold execTeamRestore
  dsimp only
  split
  · exact .ite ((Out.memOk_next _).mpr (h.reseat _ _)) (Out.memOk_fault _)
  · exact Out.memOk_fault _
theorem State.MemOk.leave (u : Nat) (anyDie : Bool) : (s.leave u anyDie).MemOk := by
  have h1 : ((s.ownCtxs u).foldl (fun s e => s.release e.2 4) s).MemOk := h.foldl _ _ (fun _ _ ht => ht.release _ _)
  exact State.MemOk.foldl (State.MemOk.modUnit (h1.modPkg _ _) _ _) _ _ (fun _ _ ht => ht)
theorem State.MemOk.writeAreas (p : Nat) (l : List (Nat × List Byte)) : (s.writeAreas p l).MemOk :=
  h.foldl _ _ (fun _ _ ht => ht.mastWrite _ _ _)
theorem State.MemOk.completePassD (k : Nat) : ((s.completePass k).getD s).MemOk := by
  cases e : s.completePass k with
  | none => exact h
  | some t => exact h.completePass e
theorem State.MemOk.thawPasses (u : Nat) : (s.thawPasses u).MemOk := h.foldl _ _ (fun _ _ ht => ht.completePassD _)
theorem State.MemOk.move (u : Nat) : (s.move u).MemOk := by
  have h1 : ((s.moveUnits u).foldl (fun s y => s.releaseStore y) (s.thawPasses u)).MemOk :=
    (h.thawPasses u).foldl _ _ (fun _ _ ht => ht.releaseStore _)
  unfold State.move
  exact State.MemOk.writeAreas (State.MemOk.takeAreas (State.MemOk.foldl (h1.foldl _ _ (fun _ _ ht => ht.leave _ _)) _ _
    (fun _ _ ht => ht.takeAreas _ _)) _ _) _ _
theorem State.MemOk.stayPut (u : Nat) : (s.stayPut u).MemOk :=
  State.MemOk.foldl (h.modUnit _ _) _ _ (fun _ _ ht => .ite (ht.endMoveSeq _) (ht.endMove _))
theorem execMigrateMove_memOk (u : Nat) : Out.MemOk (execMigrateMove u s) := by
  unfold execMigrateMove
  exact .blocked (.ite ((Out.memOk_next _).mpr (.ite (h.stayPut _) (h.startAbort _ _))) (.blocked ((Out.memOk_next _).mpr (h.move _))))
theorem State.MemOk.reseatCluster (u : Nat) (pl : Machine.Place) : (s.reseatCluster u pl).MemOk := by
  unfold State.reseatCluster
  dsimp only
  refine State.MemOk.freeAreas ?_ _
  have h1 : ((s.freshDie (s.unit u).pkg pl.1).freshDie (s.unit u).pkg (if pl.2.1 then pl.2.2 else pl.1)).MemOk := (h.freshDie _ _).freshDie _ _
  split
  · refine State.MemOk.endMoveSeq (State.MemOk.modCtx (State.MemOk.foldl (h1.modUnit _ _) _ _ (fun _ _ ht => ?_)) _ _) _
    exact ht
  · refine State.MemOk.foldl (h1.modUnit _ _) _ _ (fun _ _ ht => ?_)
    exact ht
theorem execMigrateRestore_memOk (u : Nat) : Out.MemOk (execMigrateRestore u s) := by
  unfold execMigrateRestore
  dsimp only
  split
  · exact .ite ((Out.memOk_next _).mpr (h.reseatCluster _ _)) (.ite ((Out.memOk_next _).mpr (h.reseat _ _)) (Out.memOk_fault _))
  · exact Out.memOk_fault _

/-! ### Aborts -/

theorem State.MemOk.attempt {f : State → Out} (hf : Out.MemOk (f s)) : (s.attempt f).MemOk := by
  unfold State.attempt
  split
  · next e => exact hf.next e
  · exact h
theorem execAccessPerformed_memOk (c e l : Nat) : Out.MemOk (execAccessPerformed c e l s) := performEvent_memOk h _ _ _ _ _
theorem execReduceContribution_memOk (c e l : Nat) : Out.MemOk (execReduceContribution c e l s) := performEvent_memOk h _ _ _ _ _
/-- An entry's lane is performed in each of the ways its kind may be. -/
theorem State.MemOk.finishLane (k id l : Nat) :
    ((((s.attempt (fun s => execAccessPerformed k id l s)).attempt (fun s => execReduceContribution k id l s)).attempt
      (fun s => execLdxLaneWrite k id l s)).attempt (fun s => execBlockArrival k id l s)).MemOk := by
  have h1 := h.attempt (execAccessPerformed_memOk h k id l)
  have h2 := h1.attempt (execReduceContribution_memOk h1 k id l)
  have h3 := h2.attempt (execLdxLaneWrite_memOk h2 k id l)
  exact h3.attempt (execBlockArrival_memOk h3 k id l)
theorem State.MemOk.finishEntry (k : Nat) (e : RqEntry) : (s.finishEntry k e).MemOk := by
  unfold State.finishEntry
  dsimp only
  have h1 := h.foldl e.caps (fun s x => (((s.attempt (fun s => execAccessPerformed k e.id x.1 s)).attempt
    (fun s => execReduceContribution k e.id x.1 s)).attempt (fun s => execLdxLaneWrite k e.id x.1 s)).attempt
    (fun s => execBlockArrival k e.id x.1 s)) (fun _ x ht => ht.finishLane k e.id x.1)
  have h2 := State.MemOk.ite (p := e.inArray) (h1.attempt (execPassComplete_memOk h1 k)) h1
  have h3 := h2.attempt (execAccrdWriteComplete_memOk h2 k e.id)
  exact h3.attempt (execCmbputArrival_memOk h3 k e.id)
theorem State.MemOk.finishCtx (k : Nat) : (s.finishCtx k).MemOk := h.foldl _ _ (fun _ _ ht => ht.finishEntry _ _)
theorem State.MemOk.dropEntries (k : Nat) : (s.dropEntries k).MemOk := h.foldl _ _ (fun _ _ ht => ht.dropEntry _ _)
theorem State.MemOk.recordAbort (u cause : Nat) (area : Option Nat) : (s.recordAbort u cause area).MemOk := by
  unfold State.recordAbort
  exact State.MemOk.endUnit (h.newFrec _ _) _ _
theorem State.MemOk.abortUnit (u cause : Nat) : (s.abortUnit u cause).MemOk := by
  unfold State.abortUnit
  dsimp only
  refine State.MemOk.returnCores (State.MemOk.recordAbort (State.MemOk.modPkg (State.MemOk.foldl ?_ _ _ (fun _ _ ht => ht.failColl _ _ _)) _ _) _ _ _) _
  have h1 : (((s.ownCtxs u).map (·.1)).foldl (fun s k => s.finishCtx k) s).MemOk := h.foldl _ _ (fun _ _ ht => ht.finishCtx _)
  have h2 := State.MemOk.freeAreas (State.MemOk.foldl h1 ((s.ownCtxs u).map (·.1)) (fun s k => s.dropEntries k) (fun _ _ ht => ht.dropEntries _)) u
  split
  · exact State.MemOk.mastWrite (h2.modPkg _ _) _ _ _
  · exact h2
theorem execTeamAbort_memOk (u : Nat) : Out.MemOk (execTeamAbort u s) := by
  unfold execTeamAbort
  split
  · exact .ite ((Out.memOk_next _).mpr (h.abortUnit _ _)) (Out.memOk_fault _)
  · exact Out.memOk_fault _
theorem execBarBridgeArrival_memOk (u half : Nat) : Out.MemOk (execBarBridgeArrival u half s) := by
  unfold execBarBridgeArrival
  exact .blocked ((Out.memOk_next _).mpr (State.MemOk.foldl (h.modUnit _ _) _ _ (fun _ _ ht => .ite ht ht)))
theorem execShadowLineEvict_memOk (p die line : Nat) : Out.MemOk (execShadowLineEvict p die line s) := by
  unfold execShadowLineEvict
  exact .ite ((Out.memOk_next _).mpr (h.mergeShadows _ _)) (Out.memOk_fault _)

/-! ### Application cores -/

theorem State.MemOk.appRead (p : Nat) (l : List (Loc × Nat)) : (s.appRead p l).1.MemOk := by
  unfold State.appRead
  refine foldl_induct (fun r : State × List Byte => r.1.MemOk) _ (fun r x hr => ?_) l _ h
  have h1 := hr.homeRead x.1 x.2
  dsimp only
  split
  · exact h1.foldl _ _ (fun _ _ ht => ht.dieFill _ _ _)
  · exact h1
theorem State.MemOk.appWrite (p : Nat) (l : List (Loc × Nat)) (bs : List Byte) : (s.appWrite p l bs).MemOk :=
  foldl_induct (fun r : State × List Byte => r.1.MemOk) _ (fun _ _ hr => (hr.peerFill _ _ _ _).homeWrite _ _ _ _) l _ h
theorem State.MemOk.windowStore (p off n : Nat) (v : DWord) : (s.windowStore p off n v).MemOk := .ite (h.served _ _ _ _) (h.served _ _ _ _)
theorem State.MemOk.modHart (p n : Nat) (f : Hart → Hart) : (s.modHart p n f).MemOk := h
theorem State.MemOk.hartEnd (p n : Nat) (e : HartEnd) : (s.hartEnd p n e).MemOk := h
theorem hartAccess_memOk (p n : Nat) (r : Except HartEnd (List (Loc × Nat))) {go : List (Loc × Nat) → State × HartEnd}
    (hg : ∀ l, (go l).1.MemOk) : Out.MemOk (hartAccess s p n r go) := by
  unfold hartAccess
  split
  · exact (Out.memOk_next _).mpr (h.hartEnd _ _ _)
  · exact .ite ((Out.memOk_next _).mpr ((hg _).hartEnd _ _ _)) (Out.memOk_fault _)
theorem windowAccess_memOk (p n off m : Nat) {go : State × HartEnd} (hg : go.1.MemOk) : Out.MemOk (windowAccess s p n off m go) := by
  unfold windowAccess
  exact .ite ((Out.memOk_next _).mpr (h.hartEnd _ _ _)) (.ite ((Out.memOk_next _).mpr (hg.hartEnd _ _ _)) (Out.memOk_fault _))
theorem execApplicationCoreAccess_memOk (p hart asid : Nat) (va : DWord) (req : AppReq) :
    Out.MemOk (execApplicationCoreAccess p hart asid va req s) := by
  unfold execApplicationCoreAccess
  refine .blocked ?_
  dsimp only
  split
  · exact (Out.memOk_next _).mpr h
  · split
    · exact windowAccess_memOk h _ _ _ _ (h.readBy _ _ _)
    · exact hartAccess_memOk h _ _ _ (fun l => h.appRead _ l)
  · split
    · exact windowAccess_memOk h _ _ _ _ (h.windowStore _ _ _ _)
    · exact hartAccess_memOk h _ _ _ (fun l => h.appWrite _ l _)
  · exact .blocked (hartAccess_memOk h _ _ _ (fun l => (h.appRead _ l).appWrite _ l _))
  · exact hartAccess_memOk h _ _ _ (fun l => (h.appRead _ l).modHart _ _ _)
  · exact hartAccess_memOk h _ _ _ (fun l => State.MemOk.modHart (.ite (h.appWrite _ l _) h) _ _ _)

end
end Sys2Proof.Machine
end

section
/-! The memories stay canonical: the recovery of a lost member, what follows every issue and event, and the cycle (chapters 00, 02 and 22). -/

namespace Sys2Proof.Machine

section
variable {s : State} (h : s.MemOk)
include h

/-! ### Recovery -/

theorem State.MemOk.combine (n : Nat) (f : Word → Word → Word) (l : List (Nat × Nat)) (acc : List Word) : (s.combine n f l acc).1.MemOk :=
  foldl_induct (fun r : State × List Word => r.1.MemOk) _ (fun _ _ hr => hr.mastRead _ _ _) l _ h
theorem State.MemOk.lostSlice (f : Nat) (ms : List Nat) (image parity n j : Nat) : (s.lostSlice f ms image parity n j).1.MemOk :=
  (h.mastRead _ _ _).combine _ _ _ _
theorem State.MemOk.lostParity (f : Nat) (ms : List Nat) (image n : Nat) : (s.lostParity f ms image n).1.MemOk := h.combine _ _ _ _
theorem State.MemOk.rebuild (f : Nat) (ms : List Nat) (image parity n : Nat) : (s.rebuild f ms image parity n).MemOk := by
  unfold State.rebuild
  exact ((h.foldl _ _ (fun _ _ ht => (ht.lostSlice _ _ _ _ _ _).mastWrite _ _ _)).lostParity _ _ _ _).mastWrite _ _ _
theorem State.MemOk.recover (f lost : Nat) (ms : List Nat) (image parity n : Nat) : (s.recover f lost ms image parity n).MemOk := by
  have hr := h.rebuild f ms image parity (n / (ms.length - 1))
  unfold State.recover
  refine .ite h (.ite ?_ ?_)
  · exact hr.of_eq rfl rfl
  · exact h.of_eq rfl rfl

/-! ### What follows an issue or an event -/

theorem State.MemOk.wake (k : Nat) (ls : List Nat) (f : Ctx → Ctx) : (s.wake k ls f).MemOk := h
theorem State.MemOk.mayIssue (k : Nat) (ls : List Nat) : (s.mayIssue k ls).MemOk := h
theorem State.MemOk.again (k : Nat) (ls : List Nat) : (s.again k ls).MemOk := h
theorem State.MemOk.resolve (k : Nat) (ls : List Nat) (w : Wait) : (s.resolve k ls w).MemOk := by
  unfold State.resolve
  dsimp only
  split
  · exact h
  · exact h
  · exact h
  · exact h
  · split
    · exact h
    · exact (h.acquire _ _).wake _ _ _
  · exact .ite h (.ite (h.modCtx _ _) ((h.acquire _ _).wake _ _ _))
  · exact .ite ((h.doLaunch _ _ _).wake _ _ _) h
  · exact .ite ((h.acquire _ _).wake _ _ _) h
  · exact .ite ((h.acquire _ _).wake _ _ _) h
  · split
    · exact (h.acquire _ _).wake _ _ _
    · exact h
  · exact .ite ((h.takeBatch _ _ _ _).wake _ _ _) h
  · exact .ite ((h.acquire _ _).wake _ _ _) h
  · split
    · exact (h.acquire _ _).wake _ _ _
    · exact .ite (h.wake _ _ _) h
  · exact .ite h (h.again _ _)
  · exact .ite h (.ite (h.again _ _) (.ite h (h.again _ _)))
  · exact .ite (h.wake _ _ _) h
  · split
    · exact .ite (h.wake _ _ _) h
    · exact h.wake _ _ _
  · split
    · exact .ite (h.again _ _) h
    · exact h.again _ _
  · exact .ite (h.mayIssue _ _) h
  · exact .ite (h.mayIssue _ _) h
theorem State.MemOk.resolveCtx (k : Nat) : (s.resolveCtx k).MemOk := .ite (h.foldl _ _ (fun _ _ ht => ht.resolve _ _ _)) h
theorem State.MemOk.signExited (k : Nat) : (s.signExited k).MemOk :=
  .ite h (h.foldl _ _ (fun _ _ ht => .ite ht ht))
theorem State.MemOk.leaveBar (lvl k : Nat) : (s.leaveBar lvl k).MemOk := by
  unfold State.leaveBar
  exact .ite (State.MemOk.modCtx (State.MemOk.acquire (h.modCtx _ _) _ _) _ _) (h.modCtx _ _)
theorem State.MemOk.exitRelease (lvl k : Nat) : (s.exitRelease lvl k).MemOk := .ite h (h.release _ _)
theorem State.MemOk.barriers (k : Nat) : (s.barriers k).MemOk := by
  unfold State.barriers
  refine h.foldl _ _ (fun t lvl ht => .ite ht ?_)
  dsimp only
  have left (ks : List Nat) : (ks.foldl (fun s k => s.leaveBar lvl k) (ks.foldl (fun s k => s.exitRelease lvl k) t)).MemOk :=
    (ht.foldl _ _ (fun _ _ hu => hu.exitRelease _ _)).foldl _ _ (fun _ _ hu => hu.leaveBar _ _)
  split
  · exact (left _).modUnit _ _
  · exact left _
theorem State.MemOk.endHandlers (k : Nat) : (s.endHandlers k).MemOk := by
  unfold State.endHandlers
  refine .ite h (.ite (h.endHandler _ _ _) (.ite ?_ h))
  split
  · exact h.endHandler _ _ _
  · exact h
theorem State.MemOk.afterExits (k : Nat) : (s.afterExits k).MemOk := by
  unfold State.afterExits
  have h1 := State.MemOk.ite (p := (s.ctx k).kind ≠ .handler ∧ (s.ctx k).exitedMask ≠ 0 ∧ (s.ctx k).rq.isEmpty = false) (h.abandonCopies k) h
  exact .ite (h1.retire k) h1
theorem State.MemOk.takePosition (k : Nat) : (s.takePosition k).MemOk := by
  unfold State.takePosition
  refine .ite h ?_
  split
  · exact .ite (h.modCtx _ _) h
  · exact h
theorem State.MemOk.withdrawDone (p : Nat) : (s.withdrawDone p).MemOk := h.foldl _ _ (fun _ _ ht => .ite (ht.withdrawRequest _ _) ht)
theorem State.MemOk.settleAll : s.settleAll.MemOk := by
  unfold State.settleAll
  dsimp only
  have h1 := h.foldl (s.ctxs.map (·.1)) _ (fun _ k ht => ht.payDebts k)
  have h2 := h1.foldl (s.ctxs.map (·.1)) _ (fun _ k ht => ht.signExited k)
  have h3 := h2.foldl (s.ctxs.map (·.1)) _ (fun _ k ht => ht.resolveCtx k)
  have h4 := h3.foldl (s.ctxs.map (·.1)) _ (fun _ k ht => ht.barriers k)
  have h5 := h4.foldl (s.ctxs.map (·.1)) _ (fun _ k ht => ht.endHandlers k)
  have h6 := h5.foldl (s.ctxs.map (·.1)) _ (fun _ k ht => ht.afterExits k)
  have h7 := h6.foldl (s.ctxs.map (·.1)) _ (fun _ k ht => ht.takePosition k)
  exact h7.foldl _ _ (fun _ p ht => (ht.withdrawDone p).flushTrace p)

/-! ### The cycle -/

theorem State.MemOk.charge (p : Nat) (iss : Issued) : (s.charge p iss).MemOk := h.modPkg _ _
theorem State.MemOk.tick (iss : Issued) : (s.tick iss).MemOk := by
  have h1 := h.foldl s.pkgs (fun s e => s.charge e.1 iss) (fun _ _ ht => ht.charge _ _)
  exact h1.of_eq rfl rfl
theorem State.MemOk.begin (k : Nat) (iss : Issue) : (s.begin k iss).MemOk := by
  have h1 := h.afterFetch (s.ctx k) iss.pc
  have h2 := State.MemOk.ite (p := s.freshGrant (s.ctx k)) (h1.modCtx k (fun x => x.passOvers (s.eligible (s.ctx k)) (lanesOf iss.lanes))) h1
  exact (h2.noteGrant k).of_eq rfl rfl
theorem State.MemOk.finish (k : Nat) (i : Instr) (iss : Issue) (x : Ctx) : (s.finish k i iss x).MemOk := by
  unfold State.finish
  exact State.MemOk.tick (.ite (h.modCtx _ _) (State.MemOk.modCtx (h.modCtx _ _) _ _)) _
theorem State.MemOk.slipDie (p die : Nat) : (s.slipDie p die).MemOk := .ite (h.modPkg _ _) h
theorem State.MemOk.unseen (x : AgendaItem) : (State.unseen s x).MemOk := by
  cases x with
  | stage c e l => exact h.stage _ _ _
  | word c e l j => exact ((h.performWord _ _ _ _).engineWord _ _ _ _).accrdWord _ _ _
  | piece c e ch j => exact h.movePiece _ _ _ _
  | collRead p ix j => exact h.collReadWord _ _ _
  | collWrite p ix ch j => exact h.collWriteWord _ _ _ _
  | evict p core key => exact h.dropKey _ _ _
  | ahead c l => exact .ite (h.ahead _ _ _) h
  | slip p die => exact h.slipDie _ _
  | linger p die key => exact h.linger _ _ _
  | recover f lost ms image parity n => exact h.recover _ _ _ _ _ _
  | read p m off => exact h.masterRead _ _ _
  | event _ | issue _ | ticks _ => exact h

end
end Sys2Proof.Machine
end

section
/-! Every instruction and event keeps the memories canonical, and so does every step (chapter 00): O57. -/

namespace Sys2Proof.Machine

section
variable {s : State} (h : s.MemOk)
include h

/-! ### Instructions that share a body -/

theorem vecArith_memOk (i : Instr) (d a b : Nat) (f : FVal → FVal → FVal → FVal × BitVec 6) : Out.MemOk (vecArith i d a b s f) := vecFlag_memOk h _ _ _ _ _
theorem vecFunc_memOk (i : Instr) (d a : Nat) (f : Nat → Nat × BitVec 6) : Out.MemOk (vecFunc i d a s f) := vecFlag_memOk h _ _ _ _ _
theorem vecHalf_memOk (F : Fmt) (i : Instr) (d a b : Nat) (f : FVal → FVal → FVal → FVal × BitVec 6) : Out.MemOk (vecHalf F i d a b s f) :=
  vecFlag_memOk h _ _ _ _ _
theorem vecHalfMax_memOk (F : Fmt) (i : Instr) (d a b : Nat) : Out.MemOk (vecHalfMax F i d a b s) := vecBin_memOk h _ _ _ _ _
theorem pushLanes_memOk (i : Instr) (f : Ctx → Nat → Bool) : Out.MemOk (pushLanes i s f) := perLane_memOk h _ _
theorem predLanes_memOk (i : Instr) (f : BitVec 8 → BitVec 8) : Out.MemOk (predLanes i s f) := perLane_memOk h _ _
theorem uniformWrite_memOk (i : Instr) (d : Nat) (f : Ctx → Nat → Word) : Out.MemOk (uniformWrite i d s f) :=
  oncePerIssue_memOk h _ (fun _ _ _ _ ht => ht)
theorem uniBin_memOk (i : Instr) (d a b : Nat) (f : Word → Word → Word) : Out.MemOk (uniBin i d a b s f) := uniformWrite_memOk h _ _ _
theorem State.MemOk.remap (p i x : Nat) : (s.remap p i x).MemOk := State.MemOk.packageEvent (h.modPkg _ _) _
theorem planeSwitch_memOk (p i : Nat) : Out.MemOk (planeSwitch p i s) := by
  unfold planeSwitch
  split
  · exact .ite ((Out.memOk_next _).mpr (State.MemOk.remap (h.modPkg _ _) _ _ _)) (Out.memOk_fault _)
  · exact Out.memOk_fault _

/-- No row of the opcode map or of the events leaves a memory in another form. -/
theorem exec_memOk (i : Instr) : Out.MemOk (exec i s) := by
  unfold exec
  cases i with
  | iadd | isub | imul | imulhi | imulhiU | imin | iminU | imax | imaxU | and | or | xor | andn
  | shl | shr | sar | rotl | fmin | fmax | fcpys => exact vecBin_memOk h _ _ _ _ _
  | imad | iadds | iaddsU | isubs | isubsU | idot4 => exact vecFlag_memOk h _ _ _ _ _
  | lea | sel | iaddImm | bfi | movi | movhi | ptov | gmov | stagrd => exact perLane_memOk h _ _
  | iabs | ineg | not | popc | clz | brev | mov | bfx | fabs | fneg | fclass => exact vecUn_memOk h _ _ _ _
  | fadd | fsub | fmul | ffma => exact vecArith_memOk h _ _ _ _ _
  | frcp | frsq | fsqrt | fexp2 | flog2 | ftanh => exact vecFunc_memOk h _ _ _ _
  | hfma2Bf | hfma2H | hadd2Bf | hadd2H | hmul2Bf | hmul2H => exact vecHalf_memOk h _ _ _ _ _ _
  | hmax2Bf | hmax2H => exact vecHalfMax_memOk h _ _ _ _ _
  | cvt | dqntv | cvtef => exact convLanes_memOk h _ _ _ _
  | cvti | pack | unpack | qntv | voteAny | voteAll | voteBallot | gcmp | sleep | nop => exact gate_memOk h _ (fun _ _ _ ht => ht)
  | icmp | fcmp | ppush | pdup | pnot | pand | por | pxor => exact pushLanes_memOk h _ _
  | ppop | pswap | prot => exact predLanes_memOk h _ _
  | gadd | gsub | gmul | gand | gor | gshl | gshr => exact uniBin_memOk h _ _ _ _ _
  | gread | gmovi => exact uniformWrite_memOk h _ _ _
  | gld => exact execGld_memOk h _ _ _ _
  | gst => exact execGst_memOk h _ _ _ _
  | bra | call | brx | callx | ret => exact branchLanes_memOk h _ _ _ _
  | exit => exact execExit_memOk h _
  | yield => exact execYield_memOk h _
  | rgn => exact execRgn_memOk h _ _ _
  | ld => exact execLd_memOk h _ _ _ _ _ _
  | ldAcq => exact execLdAcq_memOk h _ _ _ _ _ _
  | st => exact execSt_memOk h _ _ _ _ _
  | stRel => exact execStRel_memOk h _ _ _ _ _
  | ldc => exact execLdc_memOk h _ _ _ _ _
  | stc => exact execStc_memOk h _ _ _ _ _
  | ldk => exact execLdk_memOk h _ _ _ _ _
  | stk => exact execStk_memOk h _ _ _ _ _
  | ldl => exact execLdl_memOk h _ _ _ _ _
  | stl => exact execStl_memOk h _ _ _ _ _
  | ldm => exact execLdm_memOk h _ _ _ _
  | stm => exact execStm_memOk h _ _ _ _
  | ldt => exact execLdt_memOk h _ _ _ _ _
  | stt => exact execStt_memOk h _ _ _ _ _
  | ldsc => exact execLdsc_memOk h _ _ _ _
  | atom => exact execAtom_memOk h _ _ _ _ _
  | cas => exact execCas_memOk h _ _ _ _
  | ldx => exact execLdx_memOk h _ _ _ _
  | pref => exact execPref_memOk h _ _ _ _
  | cctl => exact execCctl_memOk h _ _ _ _
  | sfillA => exact execSfillA_memOk h _ _ _ _
  | sfillB => exact execSfillB_memOk h _ _ _ _
  | mbinit => exact execMbinit_memOk h _ _ _
  | mbexpect => exact execMbexpect_memOk h _ _ _
  | mbarrive => exact execMbarrive_memOk h _ _
  | mbwait => exact execMbwait_memOk h _ _ _ _
  | mbtest => exact execMbtest_memOk h _ _ _
  | waitc => exact execWaitc_memOk h _ _ _
  | cntrd | procfg | sunbindT | sunbindV | tsplitX => exact oncePerIssue_memOk h _ (fun _ _ _ _ ht => ht)
  | cvdecl => exact execCvdecl_memOk h _ _ _
  | cvsign => exact execCvsign_memOk h _ _
  | mma => exact execMma_memOk h _ _ _ _ _ _ _
  | accrdT => exact execAccrdT_memOk h _ _ _ _ _
  | accrdV => exact execAccrdV_memOk h _ _ _ _
  | accrdC => exact execAccrdC_memOk h _ _ _ _
  | accwr => exact execAccwr_memOk h _ _ _
  | accz => exact execAccz_memOk h _ _
  | sbindT => exact execSbindT_memOk h _ _ _ _
  | sbindV => exact execSbindV_memOk h _ _ _
  | smov | smul | sadd | smax => exact onRuns_memOk h _ _ _ (fun _ _ _ ht => ht)
  | sld => exact execSld_memOk h _ _ _ _
  | sst => exact execSst_memOk h _ _ _ _
  | launch => exact execLaunch_memOk h _ _ _ _
  | tsplit => exact execTsplit_memOk h _ _ _ _
  | evqrd => exact execEvqrd_memOk h _ _ _ _ _ _
  | bar => exact execBar_memOk h _ _
  | fenceRel => exact execFenceRel_memOk h _ _
  | fenceAcq => exact execFenceAcq_memOk h _ _
  | fenceAcqrel => exact execFenceAcqrel_memOk h _ _
  | fenceSc => exact execFenceSc_memOk h _ _
  | mcopyDown => exact execMcopyDown_memOk h _ _ _ _ _
  | mcopyUp => exact execMcopyUp_memOk h _ _ _ _ _
  | reduce => exact execReduce_memOk h _ _ _ _ _ _ _
  | cmbopen => exact execCmbopen_memOk h _ _ _
  | cmbput => exact execCmbput_memOk h _ _ _ _
  | cmbwait => exact execCmbwait_memOk h _ _ _
  | cmbwaitBatch => exact execCmbwaitBatch_memOk h _ _ _
  | cmbclose | cmbcloseDrop => exact closeSlot_memOk h _ _ _
  | cmbstat => exact execCmbstat_memOk h _ _ _ _
  | coll => exact execColl_memOk h _ _ _ _
  | collwait => exact execCollwait_memOk h _ _ _
  | collq => exact execCollq_memOk h _ _ _
  | laydef => exact execLaydef_memOk h _ _ _
  | trap => exact execTrap_memOk h _ _
  | tret => exact execTret_memOk h _
  | tretAbort => exact execTretAbort_memOk h _ _
  | sread => exact execSread_memOk h _ _ _ _
  | swrite => exact execSwrite_memOk h _ _ _ _
  | winsel => exact execWinsel_memOk h _ _
  | winrd => exact execWinrd_memOk h _ _ _
  | winwr => exact execWinwr_memOk h _ _ _
  | oplrd => exact execOplrd_memOk h _ _ _ _
  | rqrd => exact execRqrd_memOk h _ _ _
  | rqinj => exact execRqinj_memOk h _ _
  | rqdrop => exact execRqdrop_memOk h _ _ _
  | ctxswSave => exact execCtxswSave_memOk h _ _
  | ctxswRestore => exact execCtxswRestore_memOk h _ _
  | halt => exact execHalt_memOk h _ _
  | resume => exact execResume_memOk h _ _
  | tlbi | tlbiW => exact tlbi_memOk h _ _ _ _
  | asidgen => exact execAsidgen_memOk h _ _
  | hntWide | hntSched | hntMod => exact hintWord_memOk h _
  | undefinedInstruction => exact execUndefinedInstruction_memOk h _
  | packageReset => exact execPackageReset_memOk h _ _
  | dieClockStop => exact execDieClockStop_memOk h _ _
  | dieClockRestart => exact execDieClockRestart_memOk h _ _
  | planeFailure => exact execPlaneFailure_memOk h _ _
  | governorAdjust => exact execGovernorAdjust_memOk h _ _ _ _ _ _
  | qptrWptrWrite | qctlWrite | evtcntWrite | tfreplyRetry | tfreplyUnresolvable | tlbcmdTlbi | tlbcmdTlbiW
  | tlbcmdAsidgen | archcmdCompress | archcmdExpand | archcmdFree | archcfgWrite | registerWrite | mstctlClaim
  | mstctlOffer | mstctlWithdraw | mstctlAccept | mstctlRelease | mstfrzThaw | attcmdQuote | attcmdIdentityCert
  | fwupdLoad | diesvcDrain | diesvcReturn | planesvcWrite | planemapWrite | corestopWrite | dbghaltHalt
  | dbghaltResume | cpbrkcRelease | sacctlSnap | sacctlClr => exact masterWrite_memOk h _ _ _ _ _ _
  | launchPacketDispatch => exact execLaunchPacketDispatch_memOk h _ _
  | signalPacketDispatch => exact execSignalPacketDispatch_memOk h _ _
  | waitPacketDispatch => exact execWaitPacketDispatch_memOk h _ _
  | unitPlacement => exact execUnitPlacement_memOk h _
  | unitComplete => exact execUnitComplete_memOk h _
  | gridEnd => exact execGridEnd_memOk h _
  | groupSwap => exact execGroupSwap_memOk h _
  | pendingForcedPromotion => exact execPendingForcedPromotion_memOk h _
  | issueWithdraw => exact execIssueWithdraw_memOk h _
  | sleepWake => exact execSleepWake_memOk h _ _
  | hangWatchdogExpiry => exact execHangWatchdogExpiry_memOk h _
  | lineAgeInvalidate => exact execLineAgeInvalidate_memOk h _ _ _
  | preemptionRequest => exact execPreemptionRequest_memOk h _ _
  | forcedYield => exact execForcedYield_memOk h _
  | shadowBankSwap => exact execShadowBankSwap_memOk h _ _
  | spillComplete => exact execSpillComplete_memOk h _ _
  | teamRestore => exact execTeamRestore_memOk h _
  | accessPerformed => exact execAccessPerformed_memOk h _ _ _
  | faultRecordFlush => exact execFaultRecordFlush_memOk h _
  | tlbCommandComplete => exact execTlbCommandComplete_memOk h _
  | archCommandComplete => exact execArchCommandComplete_memOk h _
  | offerLapse => exact execOfferLapse_memOk h _
  | ownershipLoss => exact execOwnershipLoss_memOk h _
  | attComplete => exact execAttComplete_memOk h _
  | fwLoadComplete => exact execFwLoadComplete_memOk h _
  | dieDrainComplete => exact execDieDrainComplete_memOk h _
  | breakpointHit => exact execBreakpointHit_memOk h _
  | traceSample => exact execTraceSample_memOk h _ _
  | handlerEntry => exact execHandlerEntry_memOk h _ _
  | migrateMove => exact execMigrateMove_memOk h _
  | migrateRestore => exact execMigrateRestore_memOk h _
  | teamAbort => exact execTeamAbort_memOk h _
  | blockArrival => exact execBlockArrival_memOk h _ _ _
  | passGrant => exact execPassGrant_memOk h _
  | passComplete => exact execPassComplete_memOk h _
  | accrdWriteComplete => exact execAccrdWriteComplete_memOk h _ _
  | ldxLaneWrite => exact execLdxLaneWrite_memOk h _ _ _
  | copyChunkWrite => exact copyChunk_memOk h _ _ _ _
  | dropNotice => exact execDropNotice_memOk h _ _ _
  | reservationGrant => exact execReservationGrant_memOk h _ _ _
  | reservationWindowMiss => exact execReservationWindowMiss_memOk h _ _ _
  | collStart => exact execCollStart_memOk h _ _
  | collChunkArrival => exact execCollChunkArrival_memOk h _ _ _
  | collComplete => exact execCollComplete_memOk h _ _
  | reduceContribution => exact execReduceContribution_memOk h _ _ _
  | shadowLineEvict => exact execShadowLineEvict_memOk h _ _ _
  | cmbputArrival => exact execCmbputArrival_memOk h _ _
  | combineTimeout => exact execCombineTimeout_memOk h _ _ _
  | combineRelease => exact execCombineRelease_memOk h _ _ _
  | combineReleaseDone => exact execCombineReleaseDone_memOk h _ _ _
  | barBridgeArrival => exact execBarBridgeArrival_memOk h _ _
  | applicationCoreAccess => exact execApplicationCoreAccess_memOk h _ _ _ _ _
  | fetchFault => exact execFetchFault_memOk h _ _
  | fabricPortFailure => exact execFabricPortFailure_memOk h _ _
  | portRetrainComplete => exact execPortRetrainComplete_memOk h _ _
  | masterPresenceChange => exact execMasterPresenceChange_memOk h _ _ _
  | packageHeartbeat => exact execPackageHeartbeat_memOk h _

end
end Sys2Proof.Machine
end

section
/-! Every event that a step may try, and every step, keeps the memories canonical (chapter 00): O57. -/

namespace Sys2Proof.Machine

/-! ### Lists of events -/

/-- An event that keeps the memories canonical, from every state. -/
def Event.Keeps (f : Event) : Prop := ∀ s, s.MemOk → Out.MemOk (f s)
/-- A list of such events. -/
def KeepMem (l : List Event) : Prop := ∀ f ∈ l, Event.Keeps f

theorem keepMem_nil : KeepMem [] := nofun
theorem KeepMem.cons {f : Event} {l : List Event} (hf : Event.Keeps f) (hl : KeepMem l) : KeepMem (f :: l) := by
  intro g hg
  rcases List.mem_cons.mp hg with rfl | hg
  · exact hf
  · exact hl g hg
theorem keepMem_one {f : Event} (hf : Event.Keeps f) : KeepMem [f] := .cons hf keepMem_nil
theorem KeepMem.append {l m : List Event} (hl : KeepMem l) (hm : KeepMem m) : KeepMem (l ++ m) :=
  fun f hf => (List.mem_append.mp hf).elim (hl f) (hm f)
theorem KeepMem.ite {p : Prop} [Decidable p] {l m : List Event} (hl : KeepMem l) (hm : KeepMem m) : KeepMem (if p then l else m) := by
  split
  · exact hl
  · exact hm
theorem keepMem_map {α : Type} (l : List α) {g : α → Event} (hg : ∀ x, Event.Keeps (g x)) : KeepMem (l.map g) := by
  intro f hf
  obtain ⟨x, -, rfl⟩ := List.mem_map.mp hf
  exact hg x
theorem keepMem_flatMap {α : Type} (l : List α) {g : α → List Event} (hg : ∀ x, KeepMem (g x)) : KeepMem (l.flatMap g) := by
  intro f hf
  obtain ⟨x, -, hx⟩ := List.mem_flatMap.mp hf
  exact hg x f hx
theorem keepMem_filterMap {α : Type} (l : List α) {g : α → Option Event} (hg : ∀ x f, g x = some f → Event.Keeps f) : KeepMem (l.filterMap g) := by
  intro f hf
  obtain ⟨x, -, hx⟩ := List.mem_filterMap.mp hf
  exact hg x f hx
theorem Event.Keeps.of_guarded {p : Prop} [Decidable p] {f g : Event} (hf : Event.Keeps f) (e : (if p then some f else none) = some g) : Event.Keeps g := by
  split at e
  · exact Option.some.inj e ▸ hf
  · nomatch e

/-! ### The events of contexts, units and packages -/

theorem State.keepMem_dueOfCtx (s : State) (k : Nat) (c : Ctx) : KeepMem (s.dueOfCtx k c) := by
  unfold State.dueOfCtx
  refine .append (.append (.append (keepMem_filterMap _ (fun l f e => ?_)) ?_) ?_) ?_
  · split at e
    · exact .of_guarded (fun _ hs => execSleepWake_memOk hs k l) e
    · nomatch e
  · split
    · exact .ite (keepMem_one (fun _ hs => execIssueWithdraw_memOk hs k)) keepMem_nil
    · exact keepMem_nil
  · split
    · exact .ite (keepMem_one (fun _ hs => execPendingForcedPromotion_memOk hs k)) keepMem_nil
    · exact keepMem_nil
  · split
    · exact .ite (keepMem_one (fun _ hs => execHangWatchdogExpiry_memOk hs k)) keepMem_nil
    · exact keepMem_nil
theorem State.keepMem_dueOfPkg (s : State) (p : Nat) (q : Package) : KeepMem (s.dueOfPkg p q) := by
  unfold State.dueOfPkg
  refine .append (.append (.append (.append (keepMem_filterMap _ (fun x f e => ?_)) (keepMem_filterMap _ (fun x f e => ?_))) ?_) ?_) ?_
  · exact .of_guarded (fun _ hs => execLineAgeInvalidate_memOk hs _ _ _) e
  · split at e
    · exact .of_guarded (fun _ hs => execCombineTimeout_memOk hs _ _ _) e
    · nomatch e
  · exact .ite (keepMem_filterMap _ (fun n f e => .of_guarded (fun _ hs => execTraceSample_memOk hs p n) e)) keepMem_nil
  · exact keepMem_map _ (fun x _ hs => planeSwitch_memOk hs p x.1)
  · exact .cons (fun _ hs => execPackageHeartbeat_memOk hs p) (.cons (fun _ hs => execOfferLapse_memOk hs p)
      (keepMem_one (fun _ hs => execOwnershipLoss_memOk hs p)))
theorem State.keepMem_dueEvents (s : State) : KeepMem s.dueEvents := by
  unfold State.dueEvents
  refine .append (.append (keepMem_flatMap _ (fun e => s.keepMem_dueOfCtx _ _)) (keepMem_filterMap _ (fun x f e => ?_)))
    (keepMem_flatMap _ (fun e => s.keepMem_dueOfPkg _ _))
  obtain ⟨_, -, rfl⟩ := Option.map_eq_some_iff.mp e
  exact fun _ hs => execForcedYield_memOk hs _
theorem RqEntry.keepMem_events (e : RqEntry) (k : Nat) : KeepMem (e.events k) := by
  unfold RqEntry.events
  dsimp only
  split
  · exact keepMem_map _ (fun l _ hs => execReduceContribution_memOk hs k e.id l)
  · exact keepMem_map _ (fun l _ hs => execLdxLaneWrite_memOk hs k e.id l)
  · split
    · exact keepMem_one (fun _ hs => execCmbputArrival_memOk hs k e.id)
    · exact keepMem_map _ (fun l _ hs => execBlockArrival_memOk hs k e.id l)
    · exact keepMem_map _ (fun l _ hs => execBlockArrival_memOk hs k e.id l)
    · exact keepMem_flatMap _ (fun x => .cons (fun _ hs => copyChunk_memOk hs k e.id x.2 none)
        (.cons (fun _ hs => execReservationWindowMiss_memOk hs k e.id x.2) (keepMem_one (fun _ hs => execReservationGrant_memOk hs k e.id x.2))))
  · exact keepMem_one (fun _ hs => execAccrdWriteComplete_memOk hs k e.id)
  · exact keepMem_map _ (fun l _ hs => execAccessPerformed_memOk hs k e.id l)
theorem State.keepMem_eventsOfCtx (s : State) (k : Nat) (c : Ctx) : KeepMem (s.eventsOfCtx k c) := by
  unfold State.eventsOfCtx
  refine .append (.append (.append (.append (keepMem_flatMap _ (fun e => e.keepMem_events k)) (.ite ?_ keepMem_nil)) (.ite ?_ keepMem_nil))
    (.ite ?_ keepMem_nil)) (.ite ?_ keepMem_nil)
  · exact .cons (fun _ hs => execPassComplete_memOk hs k) (keepMem_one (fun _ hs => execPassGrant_memOk hs k))
  · exact keepMem_one (fun _ hs => execUnitPlacement_memOk hs _)
  · exact keepMem_map _ (fun l _ hs => execFetchFault_memOk hs k l)
  · exact keepMem_one (fun _ hs => execGroupSwap_memOk hs k)
theorem WUnit.keepMem_events (x : WUnit) (u : Nat) : KeepMem (x.events u) := by
  unfold WUnit.events
  split
  · exact keepMem_one (fun _ hs => execUnitPlacement_memOk hs _)
  · exact .cons (fun _ hs => execUnitComplete_memOk hs u) (.ite (.cons (fun _ hs => execBarBridgeArrival_memOk hs u 0)
      (keepMem_one (fun _ hs => execBarBridgeArrival_memOk hs u 1))) keepMem_nil)
  · exact keepMem_one (fun _ hs => execMigrateMove_memOk hs u)
  · exact keepMem_one (fun _ hs => execMigrateRestore_memOk hs u)
  · exact keepMem_one (fun _ hs => execSpillComplete_memOk hs _ _)
  · exact keepMem_one (fun _ hs => execTeamRestore_memOk hs u)
  · exact keepMem_one (fun _ hs => execTeamAbort_memOk hs u)
  · exact keepMem_nil
theorem keepMem_engineEvents (p : Nat) : KeepMem [execFaultRecordFlush p, execTlbCommandComplete p, execArchCommandComplete p, execAttComplete p,
    execFwLoadComplete p, execDieDrainComplete p] :=
  .cons (fun _ hs => execFaultRecordFlush_memOk hs p) (.cons (fun _ hs => execTlbCommandComplete_memOk hs p)
    (.cons (fun _ hs => execArchCommandComplete_memOk hs p) (.cons (fun _ hs => execAttComplete_memOk hs p)
      (.cons (fun _ hs => execFwLoadComplete_memOk hs p) (keepMem_one (fun _ hs => execDieDrainComplete_memOk hs p))))))
theorem State.keepMem_eventsOfPkg (s : State) (p : Nat) (q : Package) : KeepMem (s.eventsOfPkg p q) := by
  unfold State.eventsOfPkg
  refine .append (.append (.append (.append (.append (.append (.append (.append (keepMem_flatMap _ (fun e => .ite keepMem_nil (.append (.ite ?_ ?_) ?_)))
    (keepMem_flatMap _ (fun e => ?_))) (keepMem_engineEvents p)) (keepMem_filterMap _ (fun x f e => ?_))) (keepMem_map _ ?_)) (keepMem_map _ ?_))
    (keepMem_filterMap _ (fun x f e => ?_))) ?_) (keepMem_filterMap _ (fun n f e => ?_))
  · exact keepMem_map _ (fun ch _ hs => execCollChunkArrival_memOk hs p e.1 ch)
  · exact keepMem_one (fun _ hs => execCollStart_memOk hs p e.1)
  · exact keepMem_one (fun _ hs => execCollComplete_memOk hs p e.1)
  · split
    · exact keepMem_one (fun _ hs => execCombineRelease_memOk hs p _ _)
    · exact keepMem_one (fun _ hs => execCombineReleaseDone_memOk hs p _ _)
    · exact keepMem_nil
  · exact .of_guarded (fun _ hs => execPortRetrainComplete_memOk hs p x) e
  · exact fun e _ hs => execHandlerEntry_memOk hs p e.1
  · exact fun e _ hs => execShadowBankSwap_memOk hs p e.1
  · split at e
    · obtain ⟨x, -, rfl⟩ := Option.map_eq_some_iff.mp e
      exact fun _ hs => execPreemptionRequest_memOk hs p _
    · nomatch e
  · split
    · exact .cons (fun _ hs => execLaunchPacketDispatch_memOk hs p _) (.cons (fun _ hs => execSignalPacketDispatch_memOk hs p _)
        (keepMem_one (fun _ hs => execWaitPacketDispatch_memOk hs p _)))
    · exact keepMem_nil
  · exact .of_guarded (fun _ hs => execLaunchPacketDispatch_memOk hs p n) e
theorem State.keepMem_ownEvents (s : State) : KeepMem s.ownEvents := by
  unfold State.ownEvents
  exact .append (.append (.append (keepMem_flatMap _ (fun e => s.keepMem_eventsOfCtx _ _)) (keepMem_flatMap _ (fun e => e.2.keepMem_events _)))
    (keepMem_map _ (fun e _ hs => execGridEnd_memOk hs e.1))) (keepMem_flatMap _ (fun e => s.keepMem_eventsOfPkg _ _))

/-! ### The step -/

section
variable {s : State} (h : s.MemOk)
include h

theorem State.MemOk.withAgenda (l : List AgendaItem) : ({ s with agenda := l } : State).MemOk := h.of_eq rfl rfl
theorem firstEvent_memOk {l : List Event} (hl : KeepMem l) {t : State} (e : firstEvent l s = some t) : t.MemOk := by
  induction l with
  | nil => nomatch e
  | cons f r ih =>
    unfold firstEvent at e
    split at e
    · next u eu =>
      have hu : u.MemOk := (hl f List.mem_cons_self s h).next eu
      exact Option.some.inj e ▸ hu.settleAll
    · exact ih (fun g hg => hl g (List.mem_cons_of_mem _ hg)) e
theorem runIssue_memOk (k : Nat) (i : Instr) (iss : Issue) : Out.MemOk (runIssue k i iss s) := by
  have hx := exec_memOk (h.begin k iss) i
  unfold runIssue
  split
  · next e => exact (Out.memOk_next _).mpr ((hx.next e).finish _ _ _ _).settleAll
  · exact hx
theorem issueCtx_memOk (k : Nat) : Out.MemOk (issueCtx k s) := by
  have hb := execBreakpointHit_memOk h k
  unfold issueCtx
  split
  · refine .ite ?_ ?_
    · split
      · exact .ite ((Out.memOk_next _).mpr ((h.grantMiss _ _).tick _).settleAll) (runIssue_memOk h _ _ _)
      · exact Out.memOk_fault _
    · split
      · next e => exact (Out.memOk_next _).mpr ((hb.next e).tick _).settleAll
      · exact hb
  · exact Out.memOk_fault _
theorem runEvent_memOk (i : Instr) : Out.MemOk (runEvent i s) := by
  have hx := exec_memOk h i
  unfold runEvent
  split
  · next e => exact (Out.memOk_next _).mpr (hx.next e).settleAll
  · exact hx
theorem issueTurn_memOk : Out.MemOk (issueTurn s) := by
  unfold issueTurn
  split
  · refine issueCtx_memOk ?_ _
    exact h.of_eq rfl rfl
  · exact (Out.memOk_next _).mpr (h.tick _).settleAll
theorem freeStep_memOk : Out.MemOk (freeStep s) := by
  unfold freeStep
  split
  · next e => exact (Out.memOk_next _).mpr (firstEvent_memOk h s.keepMem_dueEvents e)
  · split
    · next e => exact (Out.memOk_next _).mpr (firstEvent_memOk h s.keepMem_ownEvents e)
    · exact issueTurn_memOk h
theorem nextStep_memOk : Out.MemOk (nextStep s) := by
  unfold nextStep
  split
  · exact .ite (runEvent_memOk (h.withAgenda _) _) (Out.memOk_fault _)
  · exact issueCtx_memOk (h.withAgenda _) _
  · exact (Out.memOk_next _).mpr (h.withAgenda _)
  · split
    · next e => exact (Out.memOk_next _).mpr (firstEvent_memOk h s.keepMem_dueEvents e)
    · exact (Out.memOk_next _).mpr ((h.withAgenda _).tick _).settleAll
  · exact (Out.memOk_next _).mpr ((h.withAgenda _).unseen _).settleAll
  · exact freeStep_memOk h

end

/-- Settles O57: the agenda's items, every instruction and event, and what follows them, each keep the form. -/
theorem memoryStaysCanonical : Obligations.MemoryStaysCanonical := by
  unfold Obligations.MemoryStaysCanonical
  exact fun s t h e => (nextStep_memOk h).next e

end Sys2Proof.Machine
end
